-- ==== Sys2Proof/Word.lean ====
section
/-! DEFINITION. The word types of the device: a byte is eight bits and a word is 32 bits (R4). -/

namespace Sys2Proof

/-- A byte (R4). -/
abbrev Byte := BitVec 8

/-- A 16-bit halfword: unit codes, journal sources and codes. -/
abbrev Half := BitVec 16

/-- A word is 32 bits unless a chapter states otherwise (R4). Registers and sequence numbers. -/
abbrev Word := BitVec 32

/-- A 64-bit value: tokens, flag words. -/
abbrev DWord := BitVec 64

end Sys2Proof
end

