-- ==== Sys2Proof/Syntax.lean ====
section
/-! DEFINITION. The syntax of the block: the operand types and the one inductive of commands. -/

namespace Sys2Proof

/-- Parts without a unit code that logic BIST covers (R41). -/
inductive BistOther where
  | sequencer | fabric | outputFramer | timeline | nvm | journal | wcQuarter (q : Fin 4)
  deriving DecidableEq, Repr

/-- An erase or program command at the NVM controller (R50). -/
inductive NvmOp where
  | erase (len : Nat)
  | program (data : List Byte)
  deriving DecidableEq, Repr

/-- State of a CSI-2 packet header on reception (R117). -/
inductive CsiHeader where
  | good | corrected | lost
  deriving DecidableEq, Repr

/-- An ECC outcome met by an access: the address, and whether it was uncorrectable (R303, R339). -/
structure EccHit where
  addr : Nat
  ue : Bool
  deriving DecidableEq, Repr

/-- A fault met by a step, as its unit or its target reports it. -/
inductive StepErr where
  /-- no fault -/
  | ok
  /-- an error response on the fabric at an address, read or write -/
  | bus (addr : Nat) (write : Bool)
  /-- memory words met with an ECC outcome (R303, R339) -/
  | ecc (hits : List EccHit)
  /-- line-buffer parity of a vision engine (R165) -/
  | lbParity
  /-- feature pattern memory parity (R233) -/
  | patParity
  /-- scratchpad parity at an offset, first noticed in a given step's input (R312) -/
  | spmParity (offset : Nat)
  /-- residue, exponent or scale duplicate, or accumulator parity comparison of a tile (R255, R256) -/
  | residue | expMismatch | accParity
  deriving DecidableEq, Repr

/-- A Policy Core access kind (R366). -/
inductive AccessKind where
  /-- a load, to a floating-point register or zero-extended -/
  | load (fp zext : Bool)
  | store
  /-- an AMO: 0 swap, 1 add, 2 xor, 3 and, 4 or, 5 min, 6 max, 7 minu, 8 maxu -/
  | amo (op : Fin 9)
  | loadReserved | storeConditional | fetch
  deriving DecidableEq, Repr

/-- A block with SH fields and a commit point of its own (R9). -/
inductive ShBlock where
  | fgs | cfe | ne | tl | ej | gml
  deriving DecidableEq, Repr

/-- A packet on a Grenmar Link, as R453, R454, R459, R460, R463 to R466 name them; the spec gives their bodies no layout. -/
inductive GmlPkt where
  /-- a heartbeat, with the sender's readiness (R453, R465) -/
  | heartbeat (src : Fin 4) (ready : Bool)
  | goingDown (src : Fin 4)
  /-- a time packet: state LOCKED, root, hop count and the devices on the time path (R464) -/
  | time (src : Fin 4) (locked : Bool) (root : Fin 4) (hops : Fin 4) (path : BitVec 4)
  /-- a reservation of entries, each a node slot, a sequence and a tile (R459) -/
  | reserve (src dst : Fin 4) (id : Nat) (keys : List (Nat × Word × Nat))
  /-- 0 GRANT, 1 FULL, 2 DELAY_FULL -/
  | answer (src dst : Fin 4) (id : Nat) (code : Fin 3)
  | token (src dst : Fin 4) (node stream : Nat) (seq : Word) (tile operand kind domain : Nat)
  | drain (src dst : Fin 4) (flag : Nat)
  /-- a memory transaction; `held` when a tile or Block Mover issues it (R456) -/
  | request (src dst : Fin 4) (tag : Nat) (write : Bool) (addr len : Nat) (data : List Byte) (domain : BitVec 4) (held : Bool)
  | response (src dst : Fin 4) (tag : Nat) (err : Bool) (addr : Nat) (data : List Byte)
  /-- a forwarded journal record (R364) -/
  | journal (src dst : Fin 4) (record : List Byte)
  deriving DecidableEq, Repr

/-- What an identity packet holds (R453). -/
structure GmlIdentity where
  device : Fin 4
  count : Fin 4
  ring : Bool
  sysId : Word
  digests : List (Nat × List Byte)
  promoted : BitVec 24
  deriving DecidableEq, Repr

/-- What the pipe met with a line (R146, R160). -/
inductive LineFault where
  | none | overrun | parity
  deriving DecidableEq, Repr


/-- The commands of the block, one constructor per row of spec/opcode_table.json, in the table's order. Each
row's summary is its docstring; the operands are what the command brings from outside the model (the unit or
entry it concerns, a written value, a received packet, a measured result). -/
inductive Instr where
  /-- PORST_N_ASSERT (R36): PORST_N driven low resets the whole device, Safety Island included, overriding every other reset. -/
  | porstNAssert
  /-- PORST_N_RELEASE (R35): Rising PORST_N samples the system straps, starts the Timeline and starts kindling at SI_START. -/
  | porstNRelease (straps : BitVec 5)
  /-- WRST_N_FALL (R36): A low pulse on WRST_N long enough to count starts a warm reset; FAULT_N goes low and SAFE_STATE high within 2 us. -/
  | wrstNFall (lowNs : Nat)
  /-- WRST_N_RISE (R36): WRST_N rising releases the core reset and restarts kindling at HKC_START. -/
  | wrstNRise
  /-- WARM_RESET_HOLD_END (R36): The 10 us core-reset hold of a Safety-Manager warm reset ends and kindling restarts at HKC_START unless WRST_N is low. -/
  | warmResetHoldEnd
  /-- KINDLING_WATCHDOG_EXPIRY (R38): READY is not reached 3.0 s after HKC_START began, so the Safety Manager makes a warm reset or enters the recovery hold. -/
  | kindlingWatchdogExpiry
  /-- SI_SELF_TEST_DONE (R39): The Safety Island self-test ends; on pass HEARTBEAT starts, on fail the core stays in reset until PORST_N. -/
  | siSelfTestDone (pass : Bool)
  /-- HKC_SIGNATURE_CHECK (R41): The Safety Manager verifies the HKC logic signature before HKC_START ends, holding the core in reset on failure. -/
  | hkcSignatureCheck (pass : Bool)
  /-- IMAGE_SELECT (R49): The HKC reads both commit sectors and headers, tests each region and orders the candidates by GENERATION. -/
  | imageSelect (answers : BitVec 2) (size : Nat)
  /-- BIST_DONE (R40): Memory and logic BIST complete; failed units are fenced and a banked variant or FAILED is chosen. -/
  | bistDone (units : List Half) (others : List BistOther)
  /-- LPDDR_TRAIN_DONE (R42): LPDDR5X training of a channel ends; a channel that failed is fenced and the load addresses are checked. -/
  | lpddrTrainDone (ch : Fin 4) (pass : Bool) (mib : Half)
  /-- SECTION_LOADED (R52): A section has been streamed into the load area and its digest and CRCs are checked, with decryption where flagged. -/
  | sectionLoaded
  /-- CHECK_STAGE (R58): Kindling runs the table checks on the loaded image and refuses a candidate with TABLE_CHECK on any breach. -/
  | checkStage
  /-- FIRMWARE_STAGE (R370): Firmware sections are copied into Policy Core local memories, feature pattern tables are written and Rymond is started. -/
  | firmwareStage
  /-- SEQ_WRITE (R43): A WRITE operation of a sensor sequence writes a sensor register over I3C or I2C. -/
  | seqWrite (bus : Fin 4) (ack : Bool)
  /-- SEQ_READ_EXPECT (R43): A READ_EXPECT operation reads a sensor register and fails the sequence on a mismatch. -/
  | seqReadExpect (bus : Fin 4) (ack : Bool) (value : Word)
  /-- SEQ_WAIT (R43): A WAIT operation of a sensor sequence expires after its stated microseconds. -/
  | seqWait (bus : Fin 4)
  /-- SEQ_POLL (R43): A POLL operation reads a register every 100 us until it matches or 10 ms pass. -/
  | seqPoll (bus : Fin 4) (ack : Bool) (value : Half)
  /-- SEQ_GPIO (R491): A GPIO operation of a sensor sequence drives a SENSOR GPIO to its level. -/
  | seqGpio (bus : Fin 4)
  /-- SEQ_FSYNC_ENABLE (R135): An FSYNC_ENABLE operation enables an FSYNC output so that its pulses start. -/
  | seqFsyncEnable (bus : Fin 4)
  /-- SEQ_END (R43): The END operation ends a sensor sequence and the controller goes on with its next profile. -/
  | seqEnd (bus : Fin 4)
  /-- SENSOR_RETRY_TIMER (R43): 100 ms after a failed sensor sequence the controller retries it once from its first operation. -/
  | sensorRetryTimer (bus : Fin 4)
  /-- BIND_STAGE (R79): Kindling binds the boot scene as in a scene switch, assigns GPIO functions and starts frame counting. -/
  | bindStage
  /-- VERIFY_PASS (R44): Every remaining pipe and engine has matched its tinder values and the Ember path has produced two valid messages. -/
  | verifyPass
  /-- VERIFY_TIMEOUT (R45): VERIFY does not pass within 500 ms and kindling ends in FAILED with code VERIFY. -/
  | verifyTimeout
  /-- NVM_ERASE_PROGRAM_COMMAND (R50): An erase or program command reaches the NVM controller and is refused and journaled if it addresses the booted region. -/
  | nvmEraseProgramCommand (cs : Fin 2) (opcode : Byte) (addr : Word) (op : NvmOp)
  /-- SECTION_RELOAD_DONE (R340): Rymond finishes reloading a section from the booted region and fired patches are applied again. -/
  | sectionReloadDone (pos : Fin 1024)
  /-- HELLO (R486): A HELLO service request is answered with a fresh CHALLENGE and SYS_ID. -/
  | hello (ifc : Fin 3)
  /-- OPEN (R486): An OPEN service request is verified against a key record and, if accepted, opens a session with a new key. -/
  | serviceOpen (ifc : Fin 3)
  /-- CLOSE (R486): A CLOSE service request ends the interface's session. -/
  | serviceClose (ifc : Fin 3)
  /-- SESSION_IDLE_TIMEOUT (R486): A session ends after 60 s without a request. -/
  | sessionIdleTimeout (ifc : Fin 3)
  /-- STATUS (R487): A STATUS service request returns the 64-byte status mirror. -/
  | serviceStatus (ifc : Fin 3)
  /-- READ_REG (R488): A READ_REG service request makes side-effect-free observation reads of up to 64 register words. -/
  | readReg (ifc : Fin 3)
  /-- JOURNAL_READ (R487): A JOURNAL_READ service request returns journal records from FROM onward, or the Island's copy when the core is not running. -/
  | journalRead (ifc : Fin 3)
  /-- SCENE_REQUEST (R77): A scene request acts like a trigger firing last, or is refused with BUSY or NO_SCENE. -/
  | sceneRequest (ifc : Fin 3)
  /-- STAGE_BEGIN (R60): A staging session opens and the alternate region's commit sector and covered blocks are erased. -/
  | stageBegin (ifc : Fin 3)
  /-- STAGE_ERASE_DONE (R60): The erase of a staging BEGIN completes and the response is sent. -/
  | stageEraseDone
  /-- STAGE_CHUNK (R60): A staging chunk is programmed at its offset, or refused with RANGE. -/
  | stageChunk (ifc : Fin 3)
  /-- STAGE_CHUNK_PROGRAMMED (R60): Programming of a staging chunk completes and the response is sent. -/
  | stageChunkProgrammed
  /-- STAGE_END (R60): The alternate region is read back and checked; the commit sector is programmed if all checks pass. -/
  | stageEnd (ifc : Fin 3)
  /-- STAGE_STATUS (R487): A STAGE_STATUS service request returns SYS_STAGE_STATUS. -/
  | stageStatus (ifc : Fin 3)
  /-- STAGE_IDLE_TIMEOUT (R59): A staging session with no chunk for 60 s is aborted and journaled. -/
  | stageIdleTimeout
  /-- GPIO_FILTER_EXPIRY (R491): A raw GPIO input level has held for FILTER x 100 us and becomes the filtered level, evaluating KIND 1 triggers. -/
  | gpioFilterExpiry (n : Fin 32) (level : Bool)
  /-- SWITCH_DRAIN_KILL (R79): 500 us into DRAIN any step still running for an outgoing layer is cancelled and SWITCH_KILL journaled. -/
  | switchDrainKill
  /-- SWITCH_CINDER (R79): Once a resource's outgoing users are gone its firewall entries are disabled and its regions enter the cinder state. -/
  | switchCinder (layer : Half)
  /-- SWITCH_BIND (R79): A free, filled incoming resource is bound: firewall entries, node, ring and flow records loaded and ISP banks loaded. -/
  | switchBind (layer : Half)
  /-- SWITCH_OPEN (R79): Incoming layers open their streams, tokens and periodic nodes and SCENE_SWITCH_END is journaled. -/
  | switchOpen
  /-- DWELL_EXPIRY (R76): The 250 ms dwell after a switch ends and firing triggers of kinds 1 to 3 are evaluated again. -/
  | dwellExpiry
  /-- TOKEN_LOOKUP (R91): A token taken from the input queue is tested in order and dropped, refused, cancels its instance or sets an operand. -/
  | tokenLookup
  /-- INSTANCE_ADMIT (R96): A complete entry whose flow window, output slots, credits and previous-frame inputs allow enters its ready list. -/
  | instanceAdmit (entry : Fin 4096) (flagUe : Option (Fin 262144))
  /-- DISPATCH (R99): A free unit is offered to the first eligible ready instance and a dispatch record is pushed to it. -/
  | dispatch (unit : Half)
  /-- AFFINITY_HOLD_EXPIRY (R101): An affinity hold ends at its window or deadline limit and the instance goes to the first free unit. -/
  | affinityHoldExpiry (entry : Fin 4096)
  /-- PC_DISPATCH (R102): A firmware node instance is dispatched to a free or pre-emptible Policy Core pair and its dispatch source asserted. -/
  | pcDispatch (pair : Fin 4)
  /-- FGS_DISP0_READ (R115): A read of FGS_PCn_DISP0 returning VALID acknowledges the dispatch and the instance becomes running. -/
  | fgsDisp0Read (pair : Fin 4)
  /-- FGS_PC_DONE (R103): A write of FGS_PCn_DONE moves the named firmware instance to done-unreleased or cancels it. -/
  | fgsPcDone (pair : Fin 4) (value : Word)
  /-- FGS_POST (R114): A write of FGS_POST_HI posts the assembled token with its sideband into the input queue. -/
  | fgsPost (bank : Fin 5) (domain : BitVec 4) (hi : Word)
  /-- FGS_CANCEL (R109): A write of FGS_CANCEL_GO cancels the selected instances, or is refused for a foreign Domain ID. -/
  | fgsCancel (domain : BitVec 4) (value : Word)
  /-- FGS_AFFINITY_FORGET (R101): Writing FORGET makes the sequencer forget every preferred unit at the commit. -/
  | fgsAffinityForget
  /-- STEP_COMPLETE (R22): A unit reports its instance complete once every write is acknowledged and the instance becomes done-unreleased. -/
  | stepComplete (unit : Half)
  /-- RELEASE (R92): The release unit reserves entries, sets slots FULL, posts tokens, drains inputs and frees the entry, in flow order. -/
  | release (entry : Fin 4096) (flagUe : Option (Fin 262144))
  /-- RELEASE_RETRY (R106): Held releases are retried at every tick in the order first refused. -/
  | releaseRetry
  /-- STALL_RELEASE (R111): A mode-1 stalled release completes in the clock in which space for its entries exists. -/
  | stallRelease (entry : Fin 4096)
  /-- DEFERRED_VOID (R93): A void held in a cancelled entry takes effect in the clock its slot becomes free. -/
  | deferredVoid (entry : Fin 4096)
  /-- SLOT_DRAIN (R66): A consumer's drain of a slot takes effect once its token has arrived and its instances have released or been cancelled. -/
  | slotDrain (node : Fin 4096) (input : Fin 8) (slot : Fin 64) (flagUe : Option (Fin 262144))
  /-- PERIODIC_START (R69): A periodic node's start tick creates its numbered instance, which pins the newest FULL slot of each input. -/
  | periodicStart (node : Fin 4096)
  /-- DEADLINE_EXPIRY (R107): At an instance's deadline tick it is cancelled if not dispatched, or marked late otherwise, with doubt for safety partitions. -/
  | deadlineExpiry (entry : Fin 4096)
  /-- MATCH_TIMEOUT (R108): A partially matched waiting instance whose wait limit has run out is cancelled with a void release. -/
  | matchTimeout (entry : Fin 4096)
  /-- FLOW_WATCH_EXPIRY (R112): A flow without release for 4 periods is declared stuck and the cycle search runs. -/
  | flowWatchExpiry (single : Bool) (n : Fin 4096)
  /-- CSI_FRAME_START (R121): A Frame Start opens a stream frame, takes its timestamp and sequence, closes a still-open frame and latches shed multipliers. -/
  | csiFrameStart (port : Fin 4) (vc : Fin 16)
  /-- CSI_LONG_PACKET (R123): A long packet line is checked, repaired and stored, passed in-line to its pipe or Ember, or discarded. -/
  | csiLongPacket (port : Fin 4) (vc : Fin 16) (dt : Byte) (hdr : CsiHeader) (crcOk : Bool) (data : List Byte) (fault : LineFault)
  /-- CSI_EMBEDDED_PACKET (R133): An embedded data packet supplies the epoch value compared with the model epoch. -/
  | csiEmbeddedPacket (port : Fin 4) (vc : Fin 16) (hdr : CsiHeader) (crcOk : Bool) (data : List Byte)
  /-- CSI_FRAME_END (R123): A Frame End closes the frame with its repairs and writes its metadata word. -/
  | csiFrameEnd (port : Fin 4) (vc : Fin 16)
  /-- MISSED_FRAME (R121): At the next pulse instant with no Frame Start for the pulse a missed frame is recorded and void released. -/
  | missedFrame (stream : Fin 24)
  /-- FRAME_STALL_TIMEOUT (R123): No packet of an open frame for PERIOD_NS closes it short with FE_MISSING and STALL. -/
  | frameStallTimeout (stream : Fin 24)
  /-- FSYNC_EDGE (R135): An FSYNC output reaches its Timeline pulse instant and drives its pulse. -/
  | fsyncEdge (out : Fin 4)
  /-- LANE_FAILING (R137): A lane in use is found failing; reception stops and the reduction sequence is started. -/
  | laneFailing (port : Fin 4) (mask : BitVec 4)
  /-- LANE_REDUCTION_DONE (R137): The reduction sequence ends; lanes are remapped and deskewed, or the port is fenced. -/
  | laneReductionDone (port : Fin 4) (pass : Bool)
  /-- IBI_RECEIVED (R129): An in-band interrupt on an I3C bus is refused and counted. -/
  | ibiReceived (bus : Fin 4)
  /-- I3C_BATCH_GO (R130): A write of CFE_I3Cn_BATCH_GO makes a batch pending or refuses it with a result code. -/
  | i3cBatchGo (bus : Fin 4) (domain : BitVec 4) (value : Word)
  /-- BATCH_TRANSFER_START (R131): A pending batch that fits the open control window starts its transfer and takes its epoch. -/
  | batchTransferStart (stream : Fin 24)
  /-- BATCH_TRANSFER_DONE (R132): A batch transfer completes and its epoch applies from frame s + k, or ends with NACK. -/
  | batchTransferDone (stream : Fin 24) (nackAt : Option Nat)
  /-- TINDER_INJECTION_DONE (R154): An injection's tinder lines have passed the pipe and its tap stream has been delivered. -/
  | tinderInjectionDone (pipe : Fin 4)
  /-- ISP_STAGED_FRAME_START (R145): An idle pipe starts the next closed staged frame that passes the in-line time test. -/
  | ispStagedFrameStart (pipe : Fin 4) (badLines : List Nat) (parityAt : Option Nat)
  /-- ISP_BAND_RELEASE (R147): A pipe releases an output band after its writes are acknowledged. -/
  | ispBandRelease (stream : Fin 24) (out : Fin 3) (band : Half)
  /-- ISP_STATS_RELEASE (R156): A statistics slot is released once the last line passed stage 4 and the metadata word is written. -/
  | ispStatsRelease (stream : Fin 24)
  /-- ISP_UPD_GO (R157): A write of ISPn_UPD_GO starts copying an update into the stream bank's queue, or is refused. -/
  | ispUpdGo (pipe : Fin 4) (bank : Fin 5) (domain : BitVec 4) (value : Word)
  /-- ISP_UPD_COPY_DONE (R157): An update copy completes and the update is queued. -/
  | ispUpdCopyDone (pipe : Fin 4)
  /-- MESH (R168): A warp MESH step resamples through a mesh and stores its owned rectangle. -/
  | mesh (inst : Fin 4) (err : StepErr)
  /-- AFFINE (R167): A warp AFFINE step resamples by an affine transform. -/
  | affine (inst : Fin 4) (err : StepErr)
  /-- HOMOGRAPHY (R167): A warp HOMOGRAPHY step resamples by a homography. -/
  | homography (inst : Fin 4) (err : StepErr)
  /-- RECT_PAIR (R168): A warp RECT_PAIR step rectifies both eyes into the same owned rectangle. -/
  | rectPair (inst : Fin 4) (err : StepErr)
  /-- PYRAMID (R181): A PYRAMID step computes Gaussian, Laplacian and census levels, carrying between tiles where allowed. -/
  | pyramid (inst : Fin 4) (err : StepErr)
  /-- STEREO (R203): A STEREO step aggregates, chooses, checks and refines disparities over its owned rectangle. -/
  | stereo (inst : Fin 4) (err : StepErr)
  /-- FLOW (R223): A FLOW step computes flow records with confidence at one pyramid level. -/
  | flow (inst : Fin 4) (err : StepErr)
  /-- FEATURE (R236): A FEATURE step detects, selects, orients and describes features into its tile line. -/
  | feature (inst : Fin 4) (err : StepErr)
  /-- MATCH (R241): A MATCH step pairs query records with candidates around a predicted position. -/
  | matchRecords (inst : Fin 4) (err : StepErr)
  /-- MATMUL (R249): A Neural Tile MATMUL step computes a matrix product with its epilogue. -/
  | matmul (tile : Fin 16)
  /-- CONV (R265): A Neural Tile CONV step computes a convolution. -/
  | conv (tile : Fin 16)
  /-- ATTENTION (R266): A Neural Tile ATTENTION step computes masked softmax attention per head. -/
  | attention (tile : Fin 16)
  /-- ELEMENTWISE (R268): A Neural Tile ELEMENTWISE step applies EOP to two operands. -/
  | elementwise (tile : Fin 16)
  /-- REDUCE (R268): A Neural Tile REDUCE step reduces along an axis or over windows. -/
  | reduce (tile : Fin 16)
  /-- NORM (R268): A Neural Tile NORM step applies layer norm, RMS norm or softmax. -/
  | norm (tile : Fin 16)
  /-- GATHER (R295): A Neural Tile GATHER step gathers rows by an index stream. -/
  | gather (tile : Fin 16)
  /-- SCATTER (R296): A Neural Tile SCATTER step applies updates in fixed order by SMODE. -/
  | scatter (tile : Fin 16)
  /-- SAMPLE (R269): A Neural Tile SAMPLE step samples an input at offset positions. -/
  | sample (tile : Fin 16)
  /-- PERMUTE (R289): A Neural Tile PERMUTE step copies a tensor under a permutation or layout change, refusing overlap. -/
  | permute (tile : Fin 16)
  /-- TOPK (R270): A Neural Tile TOPK step returns the K best values and indices. -/
  | topk (tile : Fin 16)
  /-- NMS (R271): A Neural Tile NMS step performs greedy non-maximum suppression. -/
  | nms (tile : Fin 16)
  /-- LUT (R252): A Neural Tile LUT step applies the LUT activation. -/
  | lut (tile : Fin 16)
  /-- NT_PHASE_GRANT (R258): The phase arbiter grants a waiting fetch or store phase when an IO slot is free. -/
  | ntPhaseGrant (tile : Fin 16)
  /-- NT_FETCH_DONE (R257): A tile's fetch phase ends with its inputs staged and the compute phase begins. -/
  | ntFetchDone (tile : Fin 16) (err : StepErr)
  /-- NT_COMPUTE_DONE (R255): A tile's compute phase ends with residue and duplicate comparisons made. -/
  | ntComputeDone (tile : Fin 16) (err : StepErr)
  /-- NT_STEP_COMPLETE (R256): A tile's store phase ends and the next step starts, or a fault ends the instance. -/
  | ntStepComplete (tile : Fin 16) (err : StepErr)
  /-- COPY2D (R333): A Block Mover COPY2D step copies a 2-D byte stream. -/
  | copy2d (mover : Fin 8) (err : StepErr)
  /-- FILL (R333): A Block Mover FILL step writes a repeating 8-byte pattern. -/
  | fill (mover : Fin 8) (err : StepErr)
  /-- SPM_FILL (R315): A Block Mover SPM_FILL step fills inside one scratchpad. -/
  | spmFill (mover : Fin 8) (err : StepErr)
  /-- SPM_COPY (R315): A Block Mover SPM_COPY step copies inside one scratchpad as if read whole first. -/
  | spmCopy (mover : Fin 8) (err : StepErr)
  /-- RESHUFFLE (R333): A Block Mover RESHUFFLE step splits, merges or bit-packs elements by MODE. -/
  | reshuffle (mover : Fin 8) (err : StepErr)
  /-- BM_RESUME (R337): A write of BMn_RESUME ends a halt and frees the mover. -/
  | bmResume (mover : Fin 8) (value : Word)
  /-- HELD_ACCESS_RETRY (R309): A held slot access is retried every 100 ns. -/
  | heldAccessRetry (unit : Half)
  /-- HELD_ACCESS_LIMIT (R309): An access held for the wait limit ends the step with SLOT_TIMEOUT or SLOT_OVERRUN. -/
  | heldAccessLimit (unit : Half)
  /-- UNIT_STOP_ACK (R330): A stopped unit's outstanding reads have returned and it reports the stop, after which the void release follows. -/
  | unitStopAck (unit : Half)
  /-- DETACHED_READ_RETURN (R331): A detached remote read returns, its data is discarded and its tag freed. -/
  | detachedReadReturn (unit : Half)
  /-- WC_MISS_FILL_DONE (R322): A weight-cache miss fetch completes and waiting reads are served. -/
  | wcMissFillDone (line : Nat)
  /-- CINDER_ENTRY (R318): A region enters the cinder state once the outgoing owner's writes are done, removing ring maps and cache lines. -/
  | cinderEntry (addr : Nat)
  /-- ASH_FILL_DONE (R319): A cinder region's ash fill completes and the region holds zeros. -/
  | ashFillDone (addr : Nat)
  /-- MC_FLAG_HI_READ (R344): A read of MC_FLAG_HI captures the whole selected flag word. -/
  | mcFlagHiRead
  /-- NT_WIN_WRITE (R300): A write to an NTn_WIN register is accepted only while the tile holds no instance. -/
  | ntWinWrite (tile : Fin 16) (offset : BitVec 8) (value : Word) (domain : BitVec 4)
  /-- NT_CRED_WRITE (R314): A write to a write-credit entry changes which remote writes the scratchpad accepts. -/
  | ntCredWrite (tile : Fin 16) (offset : BitVec 8) (value : Word) (domain : BitVec 4)
  /-- TL_SERVO_UPDATE (R348): The servo takes a new offset and corrects rate or steps the Timeline, moving the state toward LOCKED. -/
  | tlServoUpdate (source : Fin 8) (offset : Int)
  /-- TL_HOLDOVER_TIMEOUT (R347): Both sources silent for 2 s moves the Timeline to HOLDOVER. -/
  | tlHoldoverTimeout
  /-- TL_LOST_TIMEOUT (R347): HOLDOVER_S elapsed in HOLDOVER moves the Timeline to LOST. -/
  | tlLostTimeout
  /-- TL_NOW_HI_READ (R352): A read of TL_NOW_HI captures the whole Timeline value. -/
  | tlNowHiRead
  /-- JOURNAL_ENTRY (R361): A queued record enters the journal ring with its sequence, or is refused and counted. -/
  | journalEntry
  /-- MIRROR_COPY_DONE (R362): A record's copy in the LPDDR5X mirror is acknowledged and its place is no longer unmirrored. -/
  | mirrorCopyDone
  /-- EJ_FW_POST (R363): A write of EJ_FW_POST posts a firmware record, or refuses it with BAD_CODE. -/
  | ejFwPost (bank : Fin 5) (domain : BitVec 4) (value : Word)
  /-- JOURNAL_DATAGRAM_SEND (R364): The journal stream sends a datagram of filtered and forwarded records. -/
  | journalDatagramSend
  /-- INTERRUPT_SOURCE_RISE (R373): A hardware source line rises and the source becomes pending. -/
  | interruptSourceRise (source : Fin 512)
  /-- ICU_SWI_SET (R373): A write of ICU_SWI_SET makes a software source pending. -/
  | icuSwiSet (value : Word)
  /-- ICU_SWI_CLR (R373): A write of ICU_SWI_CLR clears a software source's pending state. -/
  | icuSwiClr (value : Word)
  /-- INTERRUPT_ACCEPT (R377): A core accepts an offered source at an instruction boundary, claims at cycle 4 and enters the handler. -/
  | interruptAccept (pair : Fin 4) (pc : Word)
  /-- OFFER_TIMEOUT (R375): A round-robin offer not claimed within 64 cycles passes to the next target. -/
  | offerTimeout (source : Fin 512)
  /-- ICU_EOI (R379): A write of ICU_Tn_EOI completes the source, which may become pending again. -/
  | icuEoi (pair : Fin 4) (value : Word)
  /-- MRET (R380): MRET exits to the saved context or bank, or the exit is abandoned for a takeable source. -/
  | mret (pair : Fin 4)
  /-- ECALL (R368): An ECALL or exception in a firmware bank enters bank 0; a non-ECALL exception faults the instance. -/
  | ecall (pair : Fin 4) (cause : Word) (pc : Word)
  /-- FENCE (R356): A FENCE completes when every earlier write of the core is acknowledged. -/
  | fence (pair : Fin 4)
  /-- LOCKSTEP_MISMATCH (R371): A pair halts on a lockstep mismatch or local-memory UE; its instances are cancelled and it is fenced. -/
  | lockstepMismatch (pair : Fin 4) (ue : Bool)
  /-- ABORT_ACK (R372): A write of SYS_PCn_ABORT_ACK acknowledges a firmware instance stop and the void release follows. -/
  | abortAck (pair : Fin 4) (value : Word)
  /-- SI_HB_WRITE (R413): A write of SI_HBn is pair n's heartbeat. -/
  | siHbWrite (pair : Fin 4) (value : Word)
  /-- HEARTBEAT_MISSED (R413): 2 ms without a pair's heartbeat raises cause 11 and fences the pair as halted. -/
  | heartbeatMissed (pair : Fin 4)
  /-- CVU_MEMORY_JOB (R384): A GO with TAP 0 starts a CRC job over memory. -/
  | cvuMemoryJob (cvu : Fin 8) (domain : BitVec 4) (value : Word)
  /-- CVU_TAP_ARM (R385): A GO with TAP 1 arms a tap on a unit's next tap stream, or is refused with TAP_BUSY. -/
  | cvuTapArm (cvu : Fin 8) (domain : BitVec 4) (value : Word)
  /-- CVU_CANCEL (R387): CANCEL ends a running or armed job with ABORTED. -/
  | cvuCancel (cvu : Fin 8) (domain : BitVec 4) (value : Word)
  /-- CVU_JOB_DONE (R386): A CVU job ends and its result is compared, with a mismatch journaled and signalled as doubt. -/
  | cvuJobDone (cvu : Fin 8)
  /-- DOUBT_AT_SELECTOR (R416): A doubt reaches the output selector, which selects the Ember path and hands over a held newer Ember message. -/
  | doubtAtSelector
  /-- SAFE_STATE_ENTRY (R397): A severe event drives FAULT_N low and SAFE_STATE high, disables the Output Framer and stops dispatch. -/
  | safeStateEntry
  /-- SEVERE_FLUSH_EXPIRY (R398): With SEVERE_ACTION 1 the journal flush window ends and a warm reset follows. -/
  | severeFlushExpiry
  /-- TINDER_JOB_DONE (R405): A tinder job or injection ends; a match covers the unit and the next job is submitted. -/
  | tinderJobDone (unit : Half)
  /-- TINDER_PROMOTE (R405): 100 ms minus PROMOTE_MS after the last coverage the pending job moves to priority 4. -/
  | tinderPromote (unit : Half)
  /-- TINDER_LATE (R405): A unit not covered for 100 ms is late; a second consecutive late interval is cause 7. -/
  | tinderLate (unit : Half)
  /-- SELFTEST_SLICE_START (R409): A self-test slice starts when its unit is offered and no safety event is due within its length. -/
  | selftestSliceStart (checker : Fin 12) (unit : Half)
  /-- SELFTEST_SLICE_END (R410): A self-test slice ends and its signature is compared; a failure is cause 8 and fences the unit. -/
  | selftestSliceEnd (checker : Fin 12) (unit : Half) (sig : Word)
  /-- SELFTEST_STARVED (R410): A checker not tested 80 ms after its last test raises a warning and the starvation level. -/
  | selftestStarved (checker : Fin 12) (unit : Half)
  /-- SELFTEST_LATE (R410): A checker not tested at 100 ms is late; two consecutive lates are cause 8. -/
  | selftestLate (checker : Fin 12) (unit : Half)
  /-- ISLAND_ROM_CHECK (R411): Every 100 ms the Island ROM CRC is checked; a mismatch is cause 16. -/
  | islandRomCheck (pass : Bool)
  /-- ISLAND_WATCHDOG_EXPIRY (R411): The Island watchdog not serviced within 2 ms expires, cause 16. -/
  | islandWatchdogExpiry
  /-- ISLAND_CLOCK_DISAGREE (R411): XTAL_SI and REFCLK_MAIN disagree by over 1 % for 100 us, cause 16. -/
  | islandClockDisagree
  /-- VDD_SI_EXCURSION (R411): VDD_SI beyond 6 % resets the Island and every pin takes its PORST_N state. -/
  | vddSiExcursion
  /-- HEARTBEAT_TOGGLE (R411): HEARTBEAT toggles every 1 ms while the Safety Manager services the watchdog. -/
  | heartbeatToggle
  /-- MONITOR (R412): A rail, temperature or clock monitor crosses a limit for its time and raises a warning, doubt or severe event. -/
  | monitor (num : Byte) (value : Int)
  /-- ERR_IN (R414): ERR_IN_N held low for 1 us is latched and raises an event of ERR_IN_CLASS after READY. -/
  | errIn (lowNs : Nat)
  /-- EMBER_PAIR_WINDOW_EXPIRY (R419): The second frame of a pair has not closed within PAIR_WINDOW_US and the pair is invalid. -/
  | emberPairWindowExpiry
  /-- EMBER_MESSAGE_READY (R422): The Ember Obstacle Message of a pair is ready and is held or handed over by the selector. -/
  | emberMessageReady
  /-- EMBER_SELF_TEST (R422): Every 100 ms Ember processes its golden pair and compares the CRC, updating its health. -/
  | emberSelfTest (pass : Bool)
  /-- FWL_RGN_CTRL_WRITE (R429): A write of FWL_RGN_CTRL commits the selected region's shadowed fields, or is refused for a locked region. -/
  | fwlRgnCtrlWrite (bank : Fin 6) (domain : BitVec 4) (value : Word)
  /-- ADAPT_EVAL (R436): Every EVAL_MS the scene master evaluates the adaptation rules and applies SHED, RATE and PATCH actions. -/
  | adaptEval
  /-- STARVATION_LOWER (R435): After an EVAL_MS with no checker 80 ms untested the starvation level falls by one. -/
  | starvationLower
  /-- THERMAL_EVAL (R438): At most once per THERM_DWELL_MS the thermal policy moves the shed level or NE step by one. -/
  | thermalEval
  /-- DOMAIN_POWER_UP_DONE (R441): A power domain reaches service and its memories enter the cinder state. -/
  | domainPowerUpDone (dom : Fin 188)
  /-- DOMAIN_FAULT (R441): A power switch disagreeing with its command for 5 us fences the domain's units. -/
  | domainFault (dom : Fin 188)
  /-- IDLE_GATE (R442): A non-safety unit idle for IDLE_GATE_MS is gated. -/
  | idleGate (unit : Half)
  /-- IDLE_WAKE (R442): A gated unit is woken when an instance of its class is ready and no other unit is free. -/
  | idleWake (unit : Half)
  /-- MAINT_PERIOD_EXPIRY (R443): A retraining, calibration or scrub interval expires and a start request is made. -/
  | maintPeriodExpiry (act : Half)
  /-- MAINT_REQUEST (R444): A maintenance start request is started at once if its resources are free, or queued. -/
  | maintRequest (act : Half)
  /-- MAINT_ACTIVITY_END (R444): A maintenance activity ends and the queue is scanned to start requests whose resources are free. -/
  | maintActivityEnd (act : Half) (ecc : List EccHit)
  /-- MAINT_RESERVE (R444): A request queued over 10 ms reserves its resources against later lower classes. -/
  | maintReserve (act : Half)
  /-- MAINT_OVERDUE (R444): An activity queued past its deadline is journaled. -/
  | maintOverdue (act : Half)
  /-- GML_TRAIN_DONE (R453): A link trains and identity packets are exchanged; the link is up or refused. -/
  | gmlTrainDone (link : Fin 3) (ident : Option GmlIdentity)
  /-- GML_FLIT_RX (R451): A flit arrives and its packets are delivered, or a CRC failure discards it and sends a NAK. -/
  | gmlFlitRx (link : Fin 3) (seq : BitVec 12) (ack : BitVec 12) (crcOk : Bool) (packets : List GmlPkt)
  /-- GML_NAK_RX (R451): A NAK makes the sender replay from the named flit. -/
  | gmlNakRx (link : Fin 3) (seq : BitVec 12)
  /-- GML_RETRAIN_START (R451): Eight failed replays or 10 us without a flit start a retrain. -/
  | gmlRetrainStart (link : Fin 3)
  /-- GML_RETRAIN_DONE (R452): A retrain ends at 8 or 4 lanes, or the link goes down. -/
  | gmlRetrainDone (link : Fin 3) (lanes : BitVec 8)
  /-- GML_RETRY_TIMER (R452): A down link tries to train again every 1 s. -/
  | gmlRetryTimer (link : Fin 3)
  /-- GML_HEARTBEAT_SEND (R465): A heartbeat packet is sent on every up or active link every 100 us. -/
  | gmlHeartbeatSend
  /-- PEER_ALIVE_TOGGLE (R465): The Island toggles PEER_ALIVE every 1 ms while READY and not in the safe state. -/
  | peerAliveToggle
  /-- GOING_DOWN_RX (R466): A partner's going-down notice makes it lost. -/
  | goingDownRx (peer : Fin 4)
  /-- PEER_SENSE_TIMEOUT (R466): No PEER_SENSE edge for 1.5 ms makes the partner lost. -/
  | peerSenseTimeout (link : Fin 3)
  /-- PEER_UNREACHABLE (R466): No packet of a partner for 1 ms makes it unreachable and absent. -/
  | peerUnreachable (peer : Fin 4)
  /-- ROUTE_CHANGE (R454): A partner's route changes after every transaction on the old route has ended. -/
  | routeChange (peer : Fin 4)
  /-- RESERVE (R459): A RESERVE packet is answered by the remote sequencer with GRANT, FULL or DELAY_FULL. -/
  | reserve (link : Fin 3)
  /-- GRANT (R459): A reservation answer arrives and the held cross-device release proceeds or is refused. -/
  | grant (link : Fin 3)
  /-- DRAIN (R460): A DRAIN packet is applied as a drain of the named flag at the holding device. -/
  | drain (link : Fin 3)
  /-- REMOTE_REQUEST_RX (R455): An inbound remote transaction is checked for Domain ID and performed at its local target. -/
  | remoteRequestRx (link : Fin 3)
  /-- GML_TIME_EXCHANGE (R463): A two-way time exchange measures the partner's offset and link delay. -/
  | gmlTimeExchange (link : Fin 3) (offset : Int) (delay : Nat)
  /-- JOURNAL_FORWARD_TIMEOUT (R364): A record not forwarded to the collector within 1 s is dropped from forwarding. -/
  | journalForwardTimeout
  /-- ETH_FRAME_RX (R475): A received Ethernet frame is accepted for ARP, gPTP or the service channel, or discarded and counted. -/
  | ethFrameRx (mac : Fin 2) (data : List Byte) (fcsOk : Bool)
  /-- ETH_FRAME_TX (R476): A port starts the next frame from its highest non-empty priority queue. -/
  | ethFrameTx (mac : Fin 2)
  /-- ETH_LINK_CHANGE (R476): A port's link goes up or down; messages for a port without link are discarded. -/
  | ethLinkChange (mac : Fin 2) (up : Bool) (speed : BitVec 2)
  /-- OF_SUB_GO (R480): A write of OF_SUB_GO starts copying a submit descriptor, or is refused. -/
  | ofSubGo (bank : Fin 5) (domain : BitVec 4) (value : Word)
  /-- OF_COPY_DONE (R481): A submission is copied; it goes to the selector or is handed over and envelopes are queued. -/
  | ofCopyDone
  /-- CAN_FRAME_RX (R483): A CAN FD frame matching vehicle-state records is checked and accepted into their entries. -/
  | canFrameRx (can : Fin 2) (id : Word) (ext : Bool) (data : List Byte)
  /-- CAN_FRAME_TX (R479): A CAN transmit buffer wins arbitration and sends its Compact Envelope frame. -/
  | canFrameTx (can : Fin 2)
  /-- CAN_BUS_OFF_RECOVERY (R482): A bus-off controller recovers after 128 occurrences of 11 recessive bits. -/
  | canBusOffRecovery (can : Fin 2)
  /-- VS_STALE_TIMEOUT (R484): A vehicle-state entry becomes stale TIMEOUT_MS after its last acceptance. -/
  | vsStaleTimeout (entry : Fin 32)
  /-- CAN_VS_STATE_READ (R500): A read of CANn_VS_STATE captures the selected vehicle-state entry. -/
  | canVsStateRead (can : Fin 2)
  /-- GPIO_OUT_SET (R492): A write of GPIO_OUT_SET drives owned OUTPUT GPIO high. -/
  | gpioOutSet (domain : BitVec 4) (value : Word)
  /-- GPIO_OUT_CLR (R492): A write of GPIO_OUT_CLR drives owned OUTPUT GPIO low. -/
  | gpioOutClr (domain : BitVec 4) (value : Word)
  /-- PPS_EDGE (R491): A PPS GPIO goes high for 1 ms at each whole Timeline second. -/
  | ppsEdge
  /-- READ_MIRROR (R489): A supervisor SPI READ_MIRROR transfer returns status-mirror bytes. -/
  | readMirror (start : Byte) (len : Byte)
  /-- WRITE_MSG (R489): A supervisor SPI WRITE_MSG transfer delivers one service message. -/
  | writeMsg (data : List Byte)
  /-- READ_MSG (R489): A supervisor SPI READ_MSG transfer returns the waiting response. -/
  | readMsg
  /-- MIRROR_REFRESH (R490): The Safety Island refreshes the status mirror every 1 ms. -/
  | mirrorRefresh
  /-- SYS_PC_APERTURE_WRITE (R506): A write of SYS_PCn_APk_m in bank 0 sets a firmware bank's aperture. -/
  | sysPcApertureWrite (pair : Fin 4) (offset : BitVec 8) (value : Word)
  /-- SH_COMMIT (R9): At a block's commit point the last written shadow values of its SH fields take effect. -/
  | shCommit (blk : ShBlock)
  /-- REGISTER_WRITE (R10): A write to a register without its own row acts by its access code, ignoring reserved encodings and journaling them. -/
  | registerWrite (bank : Fin 6) (domain : BitVec 4) (offset : BitVec 24) (value : Word)
  /-- PC_DATA_ACCESS (R366): A Policy Core load, store or AMO instruction reaches local memory, an aperture or the fabric, or raises an access fault. -/
  | pcDataAccess (pair : Fin 4) (kind : AccessKind) (rd : Fin 32) (pc : Word) (addr : Word) (value : Word) (size : Fin 3) (ecc : List EccHit)
  /-- STAGE_VERIFY_DONE (R60): The read-back and checks of a staging END finish and the commit sector is programmed, leaving VERIFYING for COMMITTED or FAILED. -/
  | stageVerifyDone
  /-- I3C_BATCH_COPY_DONE (R130): The controller finishes copying a batch within 1 us and it becomes the stream's pending batch. -/
  | i3cBatchCopyDone (bus : Fin 4)
  /-- CSI_DESKEW_COMPLETE (R137): When kindling brings a CSI link up, the receiving data lanes complete deskew and become the port's lanes in use. -/
  | csiDeskewComplete (port : Fin 4) (lanes : BitVec 4)
  /-- PEER_SENSE_EDGE (R465): An edge on PEER_SENSEk restarts the 1.5 ms liveness watch of that partner and sets GMLk_STATUS.SENSE. -/
  | peerSenseEdge (link : Fin 3)
  /-- PEER_DELAY_REQUEST (R349): The gPTP port sends a peer-delay request to measure its link delay. -/
  | peerDelayRequest (mac : Fin 2)
  /-- SM_LOCKSTEP_MISMATCH (R411): The Safety Manager's lockstep pair mismatches and the Island hardware asserts cause 16. -/
  | smLockstepMismatch
  /-- ISLAND_SRAM_UE (R411): An uncorrectable Island SRAM error is asserted by the Island hardware as cause 16. -/
  | islandSramUe
  deriving DecidableEq, Repr

end Sys2Proof
end

