-- ==== Sys2Proof/Machine/Regs.lean ====
section
/-! DEFINITION. The register map of the device: one constant per register (its offset from
0x002_0000_0000, R504), one bit range per named field, and the table of access codes and reset values
(R7-R11), all as the field tables of spec/02 to spec/20 give them. The defining chapter of each register
is named beside it. -/

namespace Sys2Proof.Machine

/-- The access codes of the table "Access codes" (spec/00). -/
inductive Acc where
  | rw | ro | wo | w1c | w1s | sh
  deriving DecidableEq, Repr

/-- A bit range [hi:lo] of a 32-bit register. -/
structure Bits where
  hi : Nat
  lo : Nat
  deriving DecidableEq, Repr

/-- One named field of a register: its bits, its access code, whether its reset value carries "(P)" (R11),
and the encodings that are not reserved (R10). -/
structure FieldSpec where
  name : String
  bits : Bits
  acc  : Acc
  keep : Bool
  minV : Nat
  maxV : Nat
  deriving DecidableEq, Repr

/-- One register of the map: the offset of its first instance, the strides and counts of its instance
terms, and its reset value. -/
structure RegSpec where
  name    : String
  base    : Nat
  strides : List (Nat × Nat)
  reset   : Nat
  fields  : List FieldSpec
  deriving DecidableEq, Repr

/-! ### Register offsets -/

/-- Identification (spec/20_address_map.md). -/
def Reg.SYS_ID : Nat := 0x0
/-- Unique die identifier (spec/20_address_map.md). -/
def Reg.SYS_UID_LO : Nat := 0x4
/-- Unique die identifier (spec/20_address_map.md). -/
def Reg.SYS_UID_HI : Nat := 0x8
/-- Security fuses (spec/20_address_map.md). -/
def Reg.SYS_OTP : Nat := 0xC
/-- Retained scratch (spec/20_address_map.md). -/
def Reg.SYS_SCRATCH (n : Nat) : Nat := 0x10 + 4 * n
/-- Unassigned access, low (spec/20_address_map.md). -/
def Reg.SYS_DECODE_LO : Nat := 0x20
/-- Unassigned access, high (spec/20_address_map.md). -/
def Reg.SYS_DECODE_HI : Nat := 0x24
/-- Unassigned access clear (spec/20_address_map.md). -/
def Reg.SYS_DECODE_CLR : Nat := 0x28
/-- Reset cause (spec/02_kindling.md). -/
def Reg.SYS_RST_CAUSE : Nat := 0x100
/-- Kindling status (spec/02_kindling.md). -/
def Reg.SYS_KIN_STATUS : Nat := 0x104
/-- Booted image generation (spec/02_kindling.md). -/
def Reg.SYS_IMG_GEN : Nat := 0x108
/-- Kindling duration (spec/02_kindling.md). -/
def Reg.SYS_KIN_TIME : Nat := 0x10C
/-- Update staging status (spec/02_kindling.md). -/
def Reg.SYS_STAGE_STATUS : Nat := 0x110
/-- Staged image generation (spec/02_kindling.md). -/
def Reg.SYS_STAGE_GEN : Nat := 0x114
/-- Scene status (spec/03_frame_graphs.md). -/
def Reg.SYS_SCENE_STATUS : Nat := 0x120
/-- Last switch (spec/03_frame_graphs.md). -/
def Reg.SYS_SCENE_LAST : Nat := 0x124
/-- Pair status (spec/15_control_cores.md). -/
def Reg.SYS_PC_STATUS (n : Nat) : Nat := 0x400 + 0x40 * n
/-- Pair events (spec/15_control_cores.md). -/
def Reg.SYS_PC_ERR (n : Nat) : Nat := 0x404 + 0x40 * n
/-- Vector table base (spec/15_control_cores.md). -/
def Reg.SYS_PC_VBASE (n : Nat) : Nat := 0x408 + 0x40 * n
/-- Return bank (spec/15_control_cores.md). -/
def Reg.SYS_PC_RET (n : Nat) : Nat := 0x40C + 0x40 * n
/-- Bank domain and window (spec/15_control_cores.md). -/
def Reg.SYS_PC_BANK (n k : Nat) : Nat := 0x410 + 0x40 * n + 8 * (k - 1)
/-- Bank return address (spec/15_control_cores.md). -/
def Reg.SYS_PC_BANK_EPC (n k : Nat) : Nat := 0x414 + 0x40 * n + 8 * (k - 1)
/-- Pending abort (spec/15_control_cores.md). -/
def Reg.SYS_PC_ABORT (n : Nat) : Nat := 0x430 + 0x40 * n
/-- Abort acknowledgement (spec/15_control_cores.md). -/
def Reg.SYS_PC_ABORT_ACK (n : Nat) : Nat := 0x434 + 0x40 * n
/-- Local memory corrections (spec/15_control_cores.md). -/
def Reg.SYS_PC_LM_CNT (n : Nat) : Nat := 0x438 + 0x40 * n
/-- Policy Core aperture, n pair 0 to 3, k bank 0 to 3, m 0 to 3 (spec/20_address_map.md). -/
def Reg.SYS_PC_AP (n k m : Nat) : Nat := 0x800 + 0x40 * n + 0x10 * k + 4 * m
/-- Timeline, high half (spec/14_time_order.md). -/
def Reg.TL_NOW_HI : Nat := 0x10000
/-- Timeline, low half (spec/14_time_order.md). -/
def Reg.TL_NOW_LO : Nat := 0x10004
/-- Timeline status (spec/14_time_order.md). -/
def Reg.TL_STATUS : Nat := 0x10008
/-- Timeline control (spec/14_time_order.md). -/
def Reg.TL_CTRL : Nat := 0x1000C
/-- Frequency correction (spec/14_time_order.md). -/
def Reg.TL_FREQ : Nat := 0x10010
/-- Step count (spec/14_time_order.md). -/
def Reg.TL_STEPS : Nat := 0x10014
/-- Timeline events (spec/14_time_order.md). -/
def Reg.TL_EVENT : Nat := 0x10018
/-- Source configuration (spec/15_control_cores.md). -/
def Reg.ICU_SRC_CFG (m : Nat) : Nat := 0x20000 + 4 * m
/-- Pending and active sources (spec/15_control_cores.md). -/
def Reg.ICU_PEND (k : Nat) : Nat := 0x20800 + 4 * k
/-- Pending and active sources (spec/15_control_cores.md). -/
def Reg.ICU_ACT (k : Nat) : Nat := 0x20840 + 4 * k
/-- Target threshold (spec/15_control_cores.md). -/
def Reg.ICU_T_THRESH (n : Nat) : Nat := 0x21000 + 0x20 * n
/-- Target status (spec/15_control_cores.md). -/
def Reg.ICU_T_STATUS (n : Nat) : Nat := 0x21004 + 0x20 * n
/-- Completion (spec/15_control_cores.md). -/
def Reg.ICU_T_EOI (n : Nat) : Nat := 0x21008 + 0x20 * n
/-- Target events (spec/15_control_cores.md). -/
def Reg.ICU_T_EVENT (n : Nat) : Nat := 0x2100C + 0x20 * n
/-- Software sources (spec/15_control_cores.md). -/
def Reg.ICU_SWI_SET : Nat := 0x21200
/-- Software sources (spec/15_control_cores.md). -/
def Reg.ICU_SWI_CLR : Nat := 0x21204
/-- Job control (spec/15_control_cores.md). -/
def Reg.CVU_CTRL (n : Nat) : Nat := 0x30000 + 0x1000 * n
/-- Source address (spec/15_control_cores.md). -/
def Reg.CVU_ADDR_LO (n : Nat) : Nat := 0x30004 + 0x1000 * n
/-- Source address (spec/15_control_cores.md). -/
def Reg.CVU_ADDR_HI (n : Nat) : Nat := 0x30008 + 0x1000 * n
/-- Bytes covered (spec/15_control_cores.md). -/
def Reg.CVU_LENGTH (n : Nat) : Nat := 0x3000C + 0x1000 * n
/-- Tap selection (spec/15_control_cores.md). -/
def Reg.CVU_TAP (n : Nat) : Nat := 0x30010 + 0x1000 * n
/-- Expected value (spec/15_control_cores.md). -/
def Reg.CVU_EXPECTED (n : Nat) : Nat := 0x30014 + 0x1000 * n
/-- Job command (spec/15_control_cores.md). -/
def Reg.CVU_GO (n : Nat) : Nat := 0x30018 + 0x1000 * n
/-- Job status (spec/15_control_cores.md). -/
def Reg.CVU_STATUS (n : Nat) : Nat := 0x3001C + 0x1000 * n
/-- Job result (spec/15_control_cores.md). -/
def Reg.CVU_RESULT (n : Nat) : Nat := 0x30020 + 0x1000 * n
/-- Bytes processed (spec/15_control_cores.md). -/
def Reg.CVU_BYTES (n : Nat) : Nat := 0x30024 + 0x1000 * n
/-- Unit events (spec/15_control_cores.md). -/
def Reg.CVU_EVENT (n : Nat) : Nat := 0x30028 + 0x1000 * n
/-- Region selection (spec/16_safety.md). -/
def Reg.FWL_SEL : Nat := 0x40000
/-- Region control (spec/16_safety.md). -/
def Reg.FWL_RGN_CTRL : Nat := 0x40004
/-- Region base (spec/16_safety.md). -/
def Reg.FWL_RGN_BASE_LO : Nat := 0x40008
/-- Region base (spec/16_safety.md). -/
def Reg.FWL_RGN_BASE_HI : Nat := 0x4000C
/-- Region size (spec/16_safety.md). -/
def Reg.FWL_RGN_PAGES : Nat := 0x40010
/-- Region permissions (spec/16_safety.md). -/
def Reg.FWL_RGN_DOMAINS : Nat := 0x40014
/-- Refused address, low (spec/16_safety.md). -/
def Reg.FWL_REFUSE_LO : Nat := 0x40020
/-- Refused transaction (spec/16_safety.md). -/
def Reg.FWL_REFUSE_HI : Nat := 0x40024
/-- Refusing target (spec/16_safety.md). -/
def Reg.FWL_REFUSE_TGT : Nat := 0x40028
/-- Refusal count (spec/16_safety.md). -/
def Reg.FWL_REFUSE_CNT : Nat := 0x4002C
/-- Firewall events (spec/16_safety.md). -/
def Reg.FWL_EVENT : Nat := 0x40030
/-- Clear (spec/16_safety.md). -/
def Reg.FWL_CLR : Nat := 0x40034
/-- Delay-list tick (spec/04_sequencer.md). -/
def Reg.FGS_TICK : Nat := 0x100000
/-- Affinity control (spec/04_sequencer.md). -/
def Reg.FGS_AFFINITY : Nat := 0x100004
/-- Occupancy (spec/04_sequencer.md). -/
def Reg.FGS_STATUS : Nat := 0x100010
/-- High-water marks (spec/04_sequencer.md). -/
def Reg.FGS_HWM : Nat := 0x100014
/-- Sticky events (spec/04_sequencer.md). -/
def Reg.FGS_EVENT : Nat := 0x100018
/-- Event interrupt enables (spec/04_sequencer.md). -/
def Reg.FGS_EVENT_EN : Nat := 0x10001C
/-- Event counters (spec/04_sequencer.md). -/
def Reg.FGS_CNT (n : Nat) : Nat := 0x100020 + 4 * n
/-- Counter clear (spec/04_sequencer.md). -/
def Reg.FGS_CNT_CLR : Nat := 0x100038
/-- Post sideband (spec/04_sequencer.md). -/
def Reg.FGS_POST_SB : Nat := 0x100040
/-- Post token, low word (spec/04_sequencer.md). -/
def Reg.FGS_POST_LO : Nat := 0x100044
/-- Post token, high word (spec/04_sequencer.md). -/
def Reg.FGS_POST_HI : Nat := 0x100048
/-- Post result (spec/04_sequencer.md). -/
def Reg.FGS_POST_RESULT : Nat := 0x10004C
/-- Cancel selection (spec/04_sequencer.md). -/
def Reg.FGS_CANCEL_NODE : Nat := 0x100050
/-- Cancel sequence (spec/04_sequencer.md). -/
def Reg.FGS_CANCEL_SEQ : Nat := 0x100054
/-- Cancel command (spec/04_sequencer.md). -/
def Reg.FGS_CANCEL_GO : Nat := 0x100058
/-- Cancel status (spec/04_sequencer.md). -/
def Reg.FGS_CANCEL_STATUS : Nat := 0x10005C
/-- Class status (spec/04_sequencer.md). -/
def Reg.FGS_CLASS_STATUS (n : Nat) : Nat := 0x100080 + 4 * n
/-- Policy Core dispatch, node (spec/04_sequencer.md). -/
def Reg.FGS_PC_DISP0 (n : Nat) : Nat := 0x100100 + 0x20 * n
/-- Policy Core dispatch, sequence (spec/04_sequencer.md). -/
def Reg.FGS_PC_DISP1 (n : Nat) : Nat := 0x100104 + 0x20 * n
/-- Policy Core dispatch, handle (spec/04_sequencer.md). -/
def Reg.FGS_PC_DISP2 (n : Nat) : Nat := 0x100108 + 0x20 * n
/-- Policy Core dispatch, deadline (spec/04_sequencer.md). -/
def Reg.FGS_PC_DISP3 (n : Nat) : Nat := 0x10010C + 0x20 * n
/-- Policy Core completion (spec/04_sequencer.md). -/
def Reg.FGS_PC_DONE (n : Nat) : Nat := 0x100110 + 0x20 * n
/-- Flow selection (spec/04_sequencer.md). -/
def Reg.FGS_FLOW_SEL : Nat := 0x100200
/-- Flow status (spec/04_sequencer.md). -/
def Reg.FGS_FLOW_STATUS : Nat := 0x100204
/-- Flow head position (spec/04_sequencer.md). -/
def Reg.FGS_FLOW_HEAD : Nat := 0x100208
/-- Last deadlock break (spec/04_sequencer.md). -/
def Reg.FGS_DEADLOCK_LAST : Nat := 0x100210
/-- Port status (spec/05_camera_front_end.md). -/
def Reg.CFE_PORT_STATUS (n : Nat) : Nat := 0x200000 + 0x40 * n
/-- Port errors (spec/05_camera_front_end.md). -/
def Reg.CFE_PORT_ERR (n : Nat) : Nat := 0x200004 + 0x40 * n
/-- Port counters (spec/05_camera_front_end.md). -/
def Reg.CFE_PORT_CNT (n m : Nat) : Nat := 0x200010 + 0x40 * n + 4 * m
/-- Port counter clear (spec/05_camera_front_end.md). -/
def Reg.CFE_PORT_CNT_CLR (n : Nat) : Nat := 0x200020 + 0x40 * n
/-- Stream state (spec/05_camera_front_end.md). -/
def Reg.CFE_STREAM_STATE (n : Nat) : Nat := 0x200400 + 0x20 * n
/-- Last closed frame (spec/05_camera_front_end.md). -/
def Reg.CFE_STREAM_SEQ (n : Nat) : Nat := 0x200404 + 0x20 * n
/-- Sticky frame flags (spec/05_camera_front_end.md). -/
def Reg.CFE_STREAM_EVENT (n : Nat) : Nat := 0x200408 + 0x20 * n
/-- Last epoch (spec/05_camera_front_end.md). -/
def Reg.CFE_STREAM_EPOCH (n : Nat) : Nat := 0x20040C + 0x20 * n
/-- Epoch application point (spec/05_camera_front_end.md). -/
def Reg.CFE_STREAM_EPOCH_FROM (n : Nat) : Nat := 0x200410 + 0x20 * n
/-- FSYNC control (spec/05_camera_front_end.md). -/
def Reg.CFE_FSYNC_CTRL (n : Nat) : Nat := 0x200800 + 0x10 * n
/-- FSYNC pulse count (spec/05_camera_front_end.md). -/
def Reg.CFE_FSYNC_COUNT (n : Nat) : Nat := 0x200804 + 0x10 * n
/-- I3C controller control (spec/05_camera_front_end.md). -/
def Reg.CFE_I3C_CTRL (n : Nat) : Nat := 0x200900 + 0x20 * n
/-- Batch address, low (spec/05_camera_front_end.md). -/
def Reg.CFE_I3C_BATCH_LO (n : Nat) : Nat := 0x200904 + 0x20 * n
/-- Batch address, high (spec/05_camera_front_end.md). -/
def Reg.CFE_I3C_BATCH_HI (n : Nat) : Nat := 0x200908 + 0x20 * n
/-- Batch start (spec/05_camera_front_end.md). -/
def Reg.CFE_I3C_BATCH_GO (n : Nat) : Nat := 0x20090C + 0x20 * n
/-- Batch status (spec/05_camera_front_end.md). -/
def Reg.CFE_I3C_BATCH_STATUS (n : Nat) : Nat := 0x200910 + 0x20 * n
/-- Tinder injection control (spec/05_camera_front_end.md). -/
def Reg.CFE_TINDER_CTRL : Nat := 0x200A00
/-- Tinder injection counts (spec/05_camera_front_end.md). -/
def Reg.CFE_TINDER_CNT : Nat := 0x200A04
/-- Pipe status (spec/06_image_pipeline.md). -/
def Reg.ISP_STATUS (n : Nat) : Nat := 0x240000 + 0x1000 * n
/-- Pipe events (spec/06_image_pipeline.md). -/
def Reg.ISP_ERR (n : Nat) : Nat := 0x240004 + 0x1000 * n
/-- Pipe counters (spec/06_image_pipeline.md). -/
def Reg.ISP_CNT (n m : Nat) : Nat := 0x240010 + 0x1000 * n + 4 * m
/-- Counter clear (spec/06_image_pipeline.md). -/
def Reg.ISP_CNT_CLR (n : Nat) : Nat := 0x240020 + 0x1000 * n
/-- Bank state (spec/06_image_pipeline.md). -/
def Reg.ISP_BANK (n m : Nat) : Nat := 0x240040 + 0x1000 * n + 4 * m
/-- Update descriptor address, low (spec/06_image_pipeline.md). -/
def Reg.ISP_UPD_LO (n : Nat) : Nat := 0x240100 + 0x1000 * n
/-- Update descriptor address, high (spec/06_image_pipeline.md). -/
def Reg.ISP_UPD_HI (n : Nat) : Nat := 0x240104 + 0x1000 * n
/-- Update start (spec/06_image_pipeline.md). -/
def Reg.ISP_UPD_GO (n : Nat) : Nat := 0x240108 + 0x1000 * n
/-- Update status (spec/06_image_pipeline.md). -/
def Reg.ISP_UPD_STATUS (n : Nat) : Nat := 0x24010C + 0x1000 * n
/-- Engine status (spec/10_features.md). -/
def Reg.FTR_STATUS (n : Nat) : Nat := 0x2C0000 + 0x10000 * n
/-- Engine events (spec/10_features.md). -/
def Reg.FTR_ERR (n : Nat) : Nat := 0x2C0004 + 0x10000 * n
/-- Event interrupt enables (spec/10_features.md). -/
def Reg.FTR_ERR_EN (n : Nat) : Nat := 0x2C0008 + 0x10000 * n
/-- Last step fault (spec/10_features.md). -/
def Reg.FTR_LAST_FAULT (n : Nat) : Nat := 0x2C000C + 0x10000 * n
/-- Engine counters (spec/10_features.md). -/
def Reg.FTR_CNT (n m : Nat) : Nat := 0x2C0010 + 0x10000 * n + 4 * m
/-- Counter clear (spec/10_features.md). -/
def Reg.FTR_CNT_CLR (n : Nat) : Nat := 0x2C0034 + 0x10000 * n
/-- Engine status (spec/07_warp_pyramid.md). -/
def Reg.WRP_STATUS (n : Nat) : Nat := 0x300000 + 0x10000 * n
/-- Engine events (spec/07_warp_pyramid.md). -/
def Reg.WRP_ERR (n : Nat) : Nat := 0x300004 + 0x10000 * n
/-- Event interrupt enables (spec/07_warp_pyramid.md). -/
def Reg.WRP_ERR_EN (n : Nat) : Nat := 0x300008 + 0x10000 * n
/-- Last step fault (spec/07_warp_pyramid.md). -/
def Reg.WRP_LAST_FAULT (n : Nat) : Nat := 0x30000C + 0x10000 * n
/-- Engine counters (spec/07_warp_pyramid.md). -/
def Reg.WRP_CNT (n m : Nat) : Nat := 0x300010 + 0x10000 * n + 4 * m
/-- Counter clear (spec/07_warp_pyramid.md). -/
def Reg.WRP_CNT_CLR (n : Nat) : Nat := 0x300028 + 0x10000 * n
/-- Engine status (spec/07_warp_pyramid.md). -/
def Reg.PYR_STATUS (n : Nat) : Nat := 0x340000 + 0x10000 * n
/-- Engine events (spec/07_warp_pyramid.md). -/
def Reg.PYR_ERR (n : Nat) : Nat := 0x340004 + 0x10000 * n
/-- Event interrupt enables (spec/07_warp_pyramid.md). -/
def Reg.PYR_ERR_EN (n : Nat) : Nat := 0x340008 + 0x10000 * n
/-- Last step fault (spec/07_warp_pyramid.md). -/
def Reg.PYR_LAST_FAULT (n : Nat) : Nat := 0x34000C + 0x10000 * n
/-- Engine counters (spec/07_warp_pyramid.md). -/
def Reg.PYR_CNT (n m : Nat) : Nat := 0x340010 + 0x10000 * n + 4 * m
/-- Counter clear (spec/07_warp_pyramid.md). -/
def Reg.PYR_CNT_CLR (n : Nat) : Nat := 0x340028 + 0x10000 * n
/-- Engine status (spec/08_stereo.md). -/
def Reg.STR_STATUS (n : Nat) : Nat := 0x380000 + 0x10000 * n
/-- Engine events (spec/08_stereo.md). -/
def Reg.STR_ERR (n : Nat) : Nat := 0x380004 + 0x10000 * n
/-- Event interrupt enables (spec/08_stereo.md). -/
def Reg.STR_ERR_EN (n : Nat) : Nat := 0x380008 + 0x10000 * n
/-- Last step fault (spec/08_stereo.md). -/
def Reg.STR_LAST_FAULT (n : Nat) : Nat := 0x38000C + 0x10000 * n
/-- Engine counters (spec/08_stereo.md). -/
def Reg.STR_CNT (n m : Nat) : Nat := 0x380010 + 0x10000 * n + 4 * m
/-- Counter clear (spec/08_stereo.md). -/
def Reg.STR_CNT_CLR (n : Nat) : Nat := 0x380030 + 0x10000 * n
/-- Output pixels by code (spec/08_stereo.md). -/
def Reg.STR_CODE (n m : Nat) : Nat := 0x380040 + 0x10000 * n + 4 * m
/-- Code counter clear (spec/08_stereo.md). -/
def Reg.STR_CODE_CLR (n : Nat) : Nat := 0x380060 + 0x10000 * n
/-- Engine status (spec/09_optical_flow.md). -/
def Reg.FLW_STATUS (n : Nat) : Nat := 0x3C0000 + 0x10000 * n
/-- Engine events (spec/09_optical_flow.md). -/
def Reg.FLW_ERR (n : Nat) : Nat := 0x3C0004 + 0x10000 * n
/-- Event interrupt enables (spec/09_optical_flow.md). -/
def Reg.FLW_ERR_EN (n : Nat) : Nat := 0x3C0008 + 0x10000 * n
/-- Last step fault (spec/09_optical_flow.md). -/
def Reg.FLW_LAST_FAULT (n : Nat) : Nat := 0x3C000C + 0x10000 * n
/-- Engine counters (spec/09_optical_flow.md). -/
def Reg.FLW_CNT (n m : Nat) : Nat := 0x3C0010 + 0x10000 * n + 4 * m
/-- Counter clear (spec/09_optical_flow.md). -/
def Reg.FLW_CNT_CLR (n : Nat) : Nat := 0x3C0030 + 0x10000 * n
/-- Output pixels by code (spec/09_optical_flow.md). -/
def Reg.FLW_CODE (n m : Nat) : Nat := 0x3C0040 + 0x10000 * n + 4 * m
/-- Code counter clear (spec/09_optical_flow.md). -/
def Reg.FLW_CODE_CLR (n : Nat) : Nat := 0x3C0060 + 0x10000 * n
/-- Tile status (spec/11_neural_tiles.md). -/
def Reg.NT_STATUS (n : Nat) : Nat := 0x400000 + 0x10000 * n
/-- Step position (spec/11_neural_tiles.md). -/
def Reg.NT_STEP (n : Nat) : Nat := 0x400004 + 0x10000 * n
/-- Memory sizes (spec/11_neural_tiles.md). -/
def Reg.NT_SPM_SIZE (n : Nat) : Nat := 0x400008 + 0x10000 * n
/-- Tile events (spec/11_neural_tiles.md). -/
def Reg.NT_ERR (n : Nat) : Nat := 0x40000C + 0x10000 * n
/-- Event interrupt enables (spec/11_neural_tiles.md). -/
def Reg.NT_ERR_EN (n : Nat) : Nat := 0x400010 + 0x10000 * n
/-- Last step fault (spec/11_neural_tiles.md). -/
def Reg.NT_LAST_FAULT (n : Nat) : Nat := 0x400014 + 0x10000 * n
/-- Faulting step (spec/11_neural_tiles.md). -/
def Reg.NT_FAULT_STEP (n : Nat) : Nat := 0x400018 + 0x10000 * n
/-- Parity fault position (spec/11_neural_tiles.md). -/
def Reg.NT_FAULT_ADDR (n : Nat) : Nat := 0x40001C + 0x10000 * n
/-- Tile counters (spec/11_neural_tiles.md). -/
def Reg.NT_CNT (n m : Nat) : Nat := 0x400020 + 0x10000 * n + 4 * m
/-- Counter clear (spec/11_neural_tiles.md). -/
def Reg.NT_CNT_CLR (n : Nat) : Nat := 0x400048 + 0x10000 * n
/-- Address window control (spec/12_tensor_layout.md). -/
def Reg.NT_WIN_CTRL (n m : Nat) : Nat := 0x400100 + 0x10000 * n + 0x10 * m
/-- Address window base (spec/12_tensor_layout.md). -/
def Reg.NT_WIN_VBASE (n m : Nat) : Nat := 0x400104 + 0x10000 * n + 0x10 * m
/-- Address window size (spec/12_tensor_layout.md). -/
def Reg.NT_WIN_PAGES (n m : Nat) : Nat := 0x400108 + 0x10000 * n + 0x10 * m
/-- Address window target (spec/12_tensor_layout.md). -/
def Reg.NT_WIN_TBASE (n m : Nat) : Nat := 0x40010C + 0x10000 * n + 0x10 * m
/-- Window fault address, low (spec/12_tensor_layout.md). -/
def Reg.NT_WIN_FAULT_LO (n : Nat) : Nat := 0x400200 + 0x10000 * n
/-- Window fault address, high, and cause (spec/12_tensor_layout.md). -/
def Reg.NT_WIN_FAULT_HI (n : Nat) : Nat := 0x400204 + 0x10000 * n
/-- Out-of-range indices (spec/12_tensor_layout.md). -/
def Reg.NT_IDX_CNT (n : Nat) : Nat := 0x400208 + 0x10000 * n
/-- Tensor counter clear (spec/12_tensor_layout.md). -/
def Reg.NT_TCNT_CLR (n : Nat) : Nat := 0x40020C + 0x10000 * n
/-- Scratchpad events (spec/13_memory_movement.md). -/
def Reg.NT_SPM_EVENT (n : Nat) : Nat := 0x400300 + 0x10000 * n
/-- Bank conflict counters (spec/13_memory_movement.md). -/
def Reg.NT_SPM_CONF (n m : Nat) : Nat := 0x400310 + 0x10000 * n + 4 * m
/-- Bank conflict counter clear (spec/13_memory_movement.md). -/
def Reg.NT_SPM_CONF_CLR (n : Nat) : Nat := 0x400324 + 0x10000 * n
/-- Write credit control (spec/13_memory_movement.md). -/
def Reg.NT_CRED_CTRL (n k : Nat) : Nat := 0x400340 + 0x10000 * n + 8 * k
/-- Write credit window (spec/13_memory_movement.md). -/
def Reg.NT_CRED_WIN (n k : Nat) : Nat := 0x400344 + 0x10000 * n + 8 * k
/-- Phase arbiter control (spec/11_neural_tiles.md). -/
def Reg.NE_PHASE_CTRL : Nat := 0x407000
/-- Phase arbiter status (spec/11_neural_tiles.md). -/
def Reg.NE_PHASE_STATUS : Nat := 0x407004
/-- NE clock step (spec/11_neural_tiles.md). -/
def Reg.NE_CLOCK : Nat := 0x407008
/-- Block Mover status (spec/13_memory_movement.md). -/
def Reg.BM_STATUS (n : Nat) : Nat := 0x500000 + 0x1000 * n
/-- Block Mover events (spec/13_memory_movement.md). -/
def Reg.BM_ERR (n : Nat) : Nat := 0x500004 + 0x1000 * n
/-- Event interrupt enables (spec/13_memory_movement.md). -/
def Reg.BM_ERR_EN (n : Nat) : Nat := 0x500008 + 0x1000 * n
/-- Halt address, low (spec/13_memory_movement.md). -/
def Reg.BM_FAULT_LO (n : Nat) : Nat := 0x50000C + 0x1000 * n
/-- Halt address, high, and direction (spec/13_memory_movement.md). -/
def Reg.BM_FAULT_HI (n : Nat) : Nat := 0x500010 + 0x1000 * n
/-- Halt release (spec/13_memory_movement.md). -/
def Reg.BM_RESUME (n : Nat) : Nat := 0x500014 + 0x1000 * n
/-- Block Mover counters (spec/13_memory_movement.md). -/
def Reg.BM_CNT (n m : Nat) : Nat := 0x500020 + 0x1000 * n + 4 * m
/-- Counter clear (spec/13_memory_movement.md). -/
def Reg.BM_CNT_CLR (n : Nat) : Nat := 0x500030 + 0x1000 * n
/-- Memory events (spec/13_memory_movement.md). -/
def Reg.MC_FS_EVENT : Nat := 0x600000
/-- Memory event enables (spec/13_memory_movement.md). -/
def Reg.MC_FS_EVENT_EN : Nat := 0x600004
/-- Frame Store uncorrectable address (spec/13_memory_movement.md). -/
def Reg.MC_FS_UE_ADDR : Nat := 0x600008
/-- Memory counters (spec/13_memory_movement.md). -/
def Reg.MC_FS_CNT (m : Nat) : Nat := 0x600010 + 4 * m
/-- Memory counter clear (spec/13_memory_movement.md). -/
def Reg.MC_FS_CNT_CLR : Nat := 0x600028
/-- Flag selection (spec/13_memory_movement.md). -/
def Reg.MC_FLAG_SEL : Nat := 0x600040
/-- Flag word, high half (spec/13_memory_movement.md). -/
def Reg.MC_FLAG_HI : Nat := 0x600044
/-- Flag word, low half (spec/13_memory_movement.md). -/
def Reg.MC_FLAG_LO : Nat := 0x600048
/-- Cinder status (spec/13_memory_movement.md). -/
def Reg.MC_CINDER_STATUS : Nat := 0x600050
/-- Weight cache status (spec/13_memory_movement.md). -/
def Reg.MC_WC_STATUS : Nat := 0x600060
/-- Weight cache counters (spec/13_memory_movement.md). -/
def Reg.MC_WC_CNT (m : Nat) : Nat := 0x600070 + 4 * m
/-- Weight cache counter clear (spec/13_memory_movement.md). -/
def Reg.MC_WC_CNT_CLR : Nat := 0x600080
/-- Controller status (spec/13_memory_movement.md). -/
def Reg.MC_STATUS (n : Nat) : Nat := 0x601000 + 0x1000 * n
/-- Controller events (spec/13_memory_movement.md). -/
def Reg.MC_ECC_EVENT (n : Nat) : Nat := 0x601004 + 0x1000 * n
/-- Uncorrectable address, low (spec/13_memory_movement.md). -/
def Reg.MC_UE_ADDR_LO (n : Nat) : Nat := 0x601008 + 0x1000 * n
/-- Uncorrectable address, high (spec/13_memory_movement.md). -/
def Reg.MC_UE_ADDR_HI (n : Nat) : Nat := 0x60100C + 0x1000 * n
/-- Controller counters (spec/13_memory_movement.md). -/
def Reg.MC_CNT (n m : Nat) : Nat := 0x601010 + 0x1000 * n + 4 * m
/-- Controller counter clear (spec/13_memory_movement.md). -/
def Reg.MC_CNT_CLR (n : Nat) : Nat := 0x601024 + 0x1000 * n
/-- Port status (spec/19_interfaces_electrical.md). -/
def Reg.ETH_STATUS (n : Nat) : Nat := 0x700000 + 0x1000 * n
/-- Port events (spec/19_interfaces_electrical.md). -/
def Reg.ETH_ERR (n : Nat) : Nat := 0x700004 + 0x1000 * n
/-- Port counters (spec/19_interfaces_electrical.md). -/
def Reg.ETH_CNT (n m : Nat) : Nat := 0x700010 + 0x1000 * n + 4 * m
/-- Controller status (spec/19_interfaces_electrical.md). -/
def Reg.CAN_STATUS (n : Nat) : Nat := 0x704000 + 0x1000 * n
/-- Controller events (spec/19_interfaces_electrical.md). -/
def Reg.CAN_ERR (n : Nat) : Nat := 0x704004 + 0x1000 * n
/-- Entry selection (spec/19_interfaces_electrical.md). -/
def Reg.CAN_VS_SEL (n : Nat) : Nat := 0x704010 + 0x1000 * n
/-- Entry state (spec/19_interfaces_electrical.md). -/
def Reg.CAN_VS_STATE (n : Nat) : Nat := 0x704014 + 0x1000 * n
/-- Entry value (spec/19_interfaces_electrical.md). -/
def Reg.CAN_VS_VALUE (n : Nat) : Nat := 0x704018 + 0x1000 * n
/-- Submit address (spec/19_interfaces_electrical.md). -/
def Reg.OF_SUB_LO : Nat := 0x708000
/-- Submit address (spec/19_interfaces_electrical.md). -/
def Reg.OF_SUB_HI : Nat := 0x708004
/-- Submit start (spec/19_interfaces_electrical.md). -/
def Reg.OF_SUB_GO : Nat := 0x708008
/-- Submit result (spec/19_interfaces_electrical.md). -/
def Reg.OF_RESULT : Nat := 0x70800C
/-- Filtered levels (spec/19_interfaces_electrical.md). -/
def Reg.GPIO_IN : Nat := 0x709000
/-- Output control (spec/19_interfaces_electrical.md). -/
def Reg.GPIO_OUT_SET : Nat := 0x709004
/-- Output control (spec/19_interfaces_electrical.md). -/
def Reg.GPIO_OUT_CLR : Nat := 0x709008
/-- Input changes (spec/19_interfaces_electrical.md). -/
def Reg.GPIO_EVENT : Nat := 0x70900C
/-- Change interrupt enables (spec/19_interfaces_electrical.md). -/
def Reg.GPIO_EVENT_EN : Nat := 0x709010
/-- Refused output writes (spec/19_interfaces_electrical.md). -/
def Reg.GPIO_REFUSED : Nat := 0x709014
/-- Supervisor port refusals (spec/19_interfaces_electrical.md). -/
def Reg.SUP_CNT : Nat := 0x70A000
/-- System description (spec/18_multi_device.md). -/
def Reg.GML_SYS : Nat := 0x800000
/-- Partner states (spec/18_multi_device.md). -/
def Reg.GML_PEERS : Nat := 0x800004
/-- System events (spec/18_multi_device.md). -/
def Reg.GML_EVENT : Nat := 0x800008
/-- System event enables (spec/18_multi_device.md). -/
def Reg.GML_EVENT_EN : Nat := 0x80000C
/-- Journal forwarding (spec/18_multi_device.md). -/
def Reg.GML_FWD : Nat := 0x800010
/-- Promoted streams (spec/18_multi_device.md). -/
def Reg.GML_TAKEN : Nat := 0x800014
/-- Link status (spec/18_multi_device.md). -/
def Reg.GML_STATUS (k : Nat) : Nat := 0x801000 + 0x1000 * k
/-- Link events (spec/18_multi_device.md). -/
def Reg.GML_ERR (k : Nat) : Nat := 0x801004 + 0x1000 * k
/-- Link counters (spec/18_multi_device.md). -/
def Reg.GML_CNT (k m : Nat) : Nat := 0x801010 + 0x1000 * k + 4 * m
/-- Counter clear (spec/18_multi_device.md). -/
def Reg.GML_CNT_CLR (k : Nat) : Nat := 0x801028 + 0x1000 * k
/-- Link time (spec/18_multi_device.md). -/
def Reg.GML_TIME (k : Nat) : Nat := 0x801030 + 0x1000 * k
/-- Island status (spec/16_safety.md). -/
def Reg.SI_STATUS : Nat := 0x900000
/-- Selector counts (spec/16_safety.md). -/
def Reg.SI_SELECT : Nat := 0x900004
/-- Last doubt or severe event (spec/16_safety.md). -/
def Reg.SI_LAST : Nat := 0x900008
/-- Doubt count (spec/16_safety.md). -/
def Reg.SI_DOUBT_CNT : Nat := 0x90000C
/-- Island events (spec/16_safety.md). -/
def Reg.SI_EVENT : Nat := 0x900010
/-- Island event enables (spec/16_safety.md). -/
def Reg.SI_EVENT_EN : Nat := 0x900014
/-- Policy Core heartbeat (spec/16_safety.md). -/
def Reg.SI_HB (n : Nat) : Nat := 0x900020 + 4 * n
/-- Coverage selection (spec/16_safety.md). -/
def Reg.SI_COVER_SEL : Nat := 0x900030
/-- Coverage status (spec/16_safety.md). -/
def Reg.SI_COVER_STATUS : Nat := 0x900034
/-- Journal status (spec/14_time_order.md). -/
def Reg.EJ_STATUS : Nat := 0xA00000
/-- Next journal sequence (spec/14_time_order.md). -/
def Reg.EJ_SEQ : Nat := 0xA00004
/-- Boot count (spec/14_time_order.md). -/
def Reg.EJ_BOOT : Nat := 0xA00008
/-- Journal events (spec/14_time_order.md). -/
def Reg.EJ_EVENT : Nat := 0xA0000C
/-- Lost records (spec/14_time_order.md). -/
def Reg.EJ_LOST_CNT : Nat := 0xA00010
/-- Stream control (spec/14_time_order.md). -/
def Reg.EJ_STREAM_CTRL : Nat := 0xA00014
/-- Stream position (spec/14_time_order.md). -/
def Reg.EJ_STREAM_POS : Nat := 0xA00018
/-- Firmware record arguments (spec/14_time_order.md). -/
def Reg.EJ_FW_ARG (m : Nat) : Nat := 0xA00040 + 4 * m
/-- Firmware record post (spec/14_time_order.md). -/
def Reg.EJ_FW_POST : Nat := 0xA0004C
/-- Firmware post result (spec/14_time_order.md). -/
def Reg.EJ_FW_RESULT : Nat := 0xA00050
/-- Adaptation status (spec/17_banked_operation.md). -/
def Reg.PMU_STATUS : Nat := 0xB00000
/-- Shed levels (spec/17_banked_operation.md). -/
def Reg.PMU_SHED : Nat := 0xB00004
/-- Domains powered (spec/17_banked_operation.md). -/
def Reg.PMU_DOM_ON (k : Nat) : Nat := 0xB00010 + 4 * k
/-- Unit selection (spec/17_banked_operation.md). -/
def Reg.PMU_UNIT_SEL : Nat := 0xB00040
/-- Unit status (spec/17_banked_operation.md). -/
def Reg.PMU_UNIT_STATUS : Nat := 0xB00044
/-- Fired rules (spec/17_banked_operation.md). -/
def Reg.PMU_RULES (k : Nat) : Nat := 0xB00060 + 4 * k
/-- Maintenance status (spec/17_banked_operation.md). -/
def Reg.PMU_MAINT : Nat := 0xB00080
/-- Adaptation events (spec/17_banked_operation.md). -/
def Reg.PMU_EVENT : Nat := 0xB00090
/-- Adaptation event enables (spec/17_banked_operation.md). -/
def Reg.PMU_EVENT_EN : Nat := 0xB00094

/-! ### Field bit ranges -/

def F.SYS_ID.FAMILY : Bits := ⟨31, 24⟩
def F.SYS_ID.PART : Bits := ⟨23, 8⟩
def F.SYS_ID.MAJOR : Bits := ⟨7, 4⟩
def F.SYS_ID.MINOR : Bits := ⟨3, 0⟩
def F.SYS_UID_LO.UID : Bits := ⟨31, 0⟩
def F.SYS_UID_HI.UID : Bits := ⟨31, 0⟩
def F.SYS_OTP.ROLLBACK : Bits := ⟨22, 16⟩
def F.SYS_OTP.DEBUG_FUSED : Bits := ⟨8, 8⟩
def F.SYS_OTP.REVOKED : Bits := ⟨3, 0⟩
def F.SYS_SCRATCH.VALUE : Bits := ⟨31, 0⟩
def F.SYS_DECODE_LO.ADDR_LO : Bits := ⟨31, 0⟩
def F.SYS_DECODE_HI.VALID : Bits := ⟨31, 31⟩
def F.SYS_DECODE_HI.WRITE : Bits := ⟨30, 30⟩
def F.SYS_DECODE_HI.DOMAIN : Bits := ⟨29, 26⟩
def F.SYS_DECODE_HI.INITIATOR : Bits := ⟨25, 16⟩
def F.SYS_DECODE_HI.ADDR_HI : Bits := ⟨11, 0⟩
def F.SYS_DECODE_CLR.CLEAR : Bits := ⟨0, 0⟩
def F.SYS_RST_CAUSE.WDT : Bits := ⟨3, 3⟩
def F.SYS_RST_CAUSE.SM : Bits := ⟨2, 2⟩
def F.SYS_RST_CAUSE.WRST : Bits := ⟨1, 1⟩
def F.SYS_RST_CAUSE.POR : Bits := ⟨0, 0⟩
def F.SYS_KIN_STATUS.WARM_COUNT : Bits := ⟨31, 24⟩
def F.SYS_KIN_STATUS.FENCED : Bits := ⟨23, 16⟩
def F.SYS_KIN_STATUS.FAIL_CODE : Bits := ⟨15, 8⟩
def F.SYS_KIN_STATUS.FALLBACK : Bits := ⟨6, 6⟩
def F.SYS_KIN_STATUS.REGION : Bits := ⟨5, 4⟩
def F.SYS_KIN_STATUS.STATE : Bits := ⟨3, 0⟩
def F.SYS_IMG_GEN.GENERATION : Bits := ⟨31, 0⟩
def F.SYS_KIN_TIME.MICROSECONDS : Bits := ⟨31, 0⟩
def F.SYS_STAGE_STATUS.FAIL_CODE : Bits := ⟨15, 8⟩
def F.SYS_STAGE_STATUS.STATE : Bits := ⟨2, 0⟩
def F.SYS_STAGE_GEN.GENERATION : Bits := ⟨31, 0⟩
def F.SYS_SCENE_STATUS.SWITCH_COUNT : Bits := ⟨31, 16⟩
def F.SYS_SCENE_STATUS.BANKED : Bits := ⟨15, 15⟩
def F.SYS_SCENE_STATUS.STRIPPED : Bits := ⟨14, 14⟩
def F.SYS_SCENE_STATUS.PHASE : Bits := ⟨13, 11⟩
def F.SYS_SCENE_STATUS.DWELL : Bits := ⟨10, 10⟩
def F.SYS_SCENE_STATUS.EMBER_HANDOVER : Bits := ⟨9, 9⟩
def F.SYS_SCENE_STATUS.TARGET : Bits := ⟨7, 4⟩
def F.SYS_SCENE_STATUS.SCENE : Bits := ⟨3, 0⟩
def F.SYS_SCENE_LAST.FROM : Bits := ⟨31, 24⟩
def F.SYS_SCENE_LAST.CAUSE : Bits := ⟨23, 16⟩
def F.SYS_SCENE_LAST.DURATION_US : Bits := ⟨15, 0⟩
def F.SYS_PC_STATUS.BANK : Bits := ⟨5, 4⟩
def F.SYS_PC_STATUS.STATE : Bits := ⟨2, 0⟩
def F.SYS_PC_ERR.ACK_BAD : Bits := ⟨4, 4⟩
def F.SYS_PC_ERR.WINDOW : Bits := ⟨3, 3⟩
def F.SYS_PC_ERR.LM_CE : Bits := ⟨2, 2⟩
def F.SYS_PC_ERR.LM_UE : Bits := ⟨1, 1⟩
def F.SYS_PC_ERR.LOCKSTEP : Bits := ⟨0, 0⟩
def F.SYS_PC_VBASE.BASE : Bits := ⟨17, 12⟩
def F.SYS_PC_RET.BANK_RET : Bits := ⟨1, 0⟩
def F.SYS_PC_BANK.ENABLE : Bits := ⟨31, 31⟩
def F.SYS_PC_BANK.DOMAIN : Bits := ⟨27, 24⟩
def F.SYS_PC_BANK.LIMIT_KIB : Bits := ⟨16, 8⟩
def F.SYS_PC_BANK.BASE_KIB : Bits := ⟨7, 0⟩
def F.SYS_PC_BANK_EPC.EPC : Bits := ⟨31, 1⟩
def F.SYS_PC_ABORT.VALID : Bits := ⟨31, 31⟩
def F.SYS_PC_ABORT.GEN : Bits := ⟨17, 12⟩
def F.SYS_PC_ABORT.ENTRY : Bits := ⟨11, 0⟩
def F.SYS_PC_ABORT_ACK.GEN : Bits := ⟨17, 12⟩
def F.SYS_PC_ABORT_ACK.ENTRY : Bits := ⟨11, 0⟩
def F.SYS_PC_LM_CNT.COUNT : Bits := ⟨31, 0⟩
def F.SYS_PC_AP.ENABLE : Bits := ⟨31, 31⟩
def F.SYS_PC_AP.BASE : Bits := ⟨14, 0⟩
def F.TL_NOW_HI.TIME_HI : Bits := ⟨31, 0⟩
def F.TL_NOW_LO.TIME_LO : Bits := ⟨31, 0⟩
def F.TL_STATUS.OFFSET : Bits := ⟨31, 16⟩
def F.TL_STATUS.EVER_LOCKED : Bits := ⟨11, 11⟩
def F.TL_STATUS.SOURCE : Bits := ⟨10, 8⟩
def F.TL_STATUS.STATE : Bits := ⟨2, 0⟩
def F.TL_CTRL.HOLDOVER_S : Bits := ⟨31, 24⟩
def F.TL_CTRL.STEP_THRESH_US : Bits := ⟨23, 8⟩
def F.TL_CTRL.BACKUP : Bits := ⟨6, 4⟩
def F.TL_CTRL.PRIMARY : Bits := ⟨2, 0⟩
def F.TL_FREQ.PPB : Bits := ⟨31, 0⟩
def F.TL_STEPS.STEPS : Bits := ⟨15, 0⟩
def F.TL_EVENT.SOURCE_CHANGE : Bits := ⟨3, 3⟩
def F.TL_EVENT.LOST : Bits := ⟨2, 2⟩
def F.TL_EVENT.HOLDOVER : Bits := ⟨1, 1⟩
def F.TL_EVENT.STEP : Bits := ⟨0, 0⟩
def F.ICU_SRC_CFG.MODE : Bits := ⟨31, 31⟩
def F.ICU_SRC_CFG.TARGETS : Bits := ⟨19, 16⟩
def F.ICU_SRC_CFG.PRIORITY : Bits := ⟨3, 0⟩
def F.ICU_PEND.SOURCES : Bits := ⟨31, 0⟩
def F.ICU_ACT.SOURCES : Bits := ⟨31, 0⟩
def F.ICU_T_THRESH.PRIORITY : Bits := ⟨3, 0⟩
def F.ICU_T_STATUS.RUN_PRIO : Bits := ⟨31, 28⟩
def F.ICU_T_STATUS.DEPTH : Bits := ⟨27, 24⟩
def F.ICU_T_STATUS.ID : Bits := ⟨9, 0⟩
def F.ICU_T_EOI.ID : Bits := ⟨9, 0⟩
def F.ICU_T_EVENT.EOI_BAD : Bits := ⟨1, 1⟩
def F.ICU_T_EVENT.SPURIOUS : Bits := ⟨0, 0⟩
def F.ICU_SWI_SET.ID : Bits := ⟨9, 0⟩
def F.ICU_SWI_CLR.ID : Bits := ⟨9, 0⟩
def F.CVU_CTRL.MATCH_NODE : Bits := ⟨5, 5⟩
def F.CVU_CTRL.COMPARE : Bits := ⟨4, 4⟩
def F.CVU_CTRL.CHAIN : Bits := ⟨3, 3⟩
def F.CVU_CTRL.TAP : Bits := ⟨2, 2⟩
def F.CVU_CTRL.POLY : Bits := ⟨1, 0⟩
def F.CVU_ADDR_LO.ADDR_LO : Bits := ⟨31, 0⟩
def F.CVU_ADDR_HI.ADDR_HI : Bits := ⟨11, 0⟩
def F.CVU_LENGTH.LENGTH : Bits := ⟨31, 0⟩
def F.CVU_TAP.UNIT : Bits := ⟨31, 16⟩
def F.CVU_TAP.NODE_SLOT : Bits := ⟨11, 0⟩
def F.CVU_EXPECTED.VALUE : Bits := ⟨31, 0⟩
def F.CVU_GO.CANCEL : Bits := ⟨1, 1⟩
def F.CVU_GO.GO : Bits := ⟨0, 0⟩
def F.CVU_STATUS.OWNER : Bits := ⟨15, 12⟩
def F.CVU_STATUS.RESULT : Bits := ⟨6, 4⟩
def F.CVU_STATUS.STATE : Bits := ⟨2, 0⟩
def F.CVU_RESULT.VALUE : Bits := ⟨31, 0⟩
def F.CVU_BYTES.COUNT : Bits := ⟨31, 0⟩
def F.CVU_EVENT.REFUSED : Bits := ⟨3, 3⟩
def F.CVU_EVENT.ABORTED : Bits := ⟨2, 2⟩
def F.CVU_EVENT.ERROR : Bits := ⟨1, 1⟩
def F.CVU_EVENT.MISMATCH : Bits := ⟨0, 0⟩
def F.FWL_SEL.TARGET : Bits := ⟨31, 16⟩
def F.FWL_SEL.REGION : Bits := ⟨4, 0⟩
def F.FWL_RGN_CTRL.ENABLE : Bits := ⟨31, 31⟩
def F.FWL_RGN_CTRL.LOCK : Bits := ⟨30, 30⟩
def F.FWL_RGN_CTRL.ANY : Bits := ⟨10, 10⟩
def F.FWL_RGN_CTRL.INITIATOR : Bits := ⟨9, 0⟩
def F.FWL_RGN_BASE_LO.BASE_LO : Bits := ⟨31, 12⟩
def F.FWL_RGN_BASE_HI.BASE_HI : Bits := ⟨9, 0⟩
def F.FWL_RGN_PAGES.PAGES : Bits := ⟨29, 0⟩
def F.FWL_RGN_DOMAINS.WRITE_DOMAINS : Bits := ⟨31, 16⟩
def F.FWL_RGN_DOMAINS.READ_DOMAINS : Bits := ⟨15, 0⟩
def F.FWL_REFUSE_LO.ADDR_LO : Bits := ⟨31, 0⟩
def F.FWL_REFUSE_HI.VALID : Bits := ⟨31, 31⟩
def F.FWL_REFUSE_HI.WRITE : Bits := ⟨30, 30⟩
def F.FWL_REFUSE_HI.DOMAIN : Bits := ⟨29, 26⟩
def F.FWL_REFUSE_HI.INITIATOR : Bits := ⟨25, 16⟩
def F.FWL_REFUSE_HI.ADDR_HI : Bits := ⟨11, 0⟩
def F.FWL_REFUSE_TGT.TARGET : Bits := ⟨15, 0⟩
def F.FWL_REFUSE_CNT.COUNT : Bits := ⟨31, 0⟩
def F.FWL_EVENT.LOCKED_WRITE : Bits := ⟨1, 1⟩
def F.FWL_EVENT.REFUSED : Bits := ⟨0, 0⟩
def F.FWL_CLR.COUNT : Bits := ⟨1, 1⟩
def F.FWL_CLR.LATCH : Bits := ⟨0, 0⟩
def F.FGS_TICK.TICK_NS : Bits := ⟨13, 0⟩
def F.FGS_AFFINITY.FORGET : Bits := ⟨24, 24⟩
def F.FGS_AFFINITY.CLASS_OFF : Bits := ⟨23, 16⟩
def F.FGS_AFFINITY.WINDOW : Bits := ⟨7, 0⟩
def F.FGS_STATUS.RUN : Bits := ⟨31, 31⟩
def F.FGS_STATUS.DELAY_USED : Bits := ⟨26, 16⟩
def F.FGS_STATUS.STORE_USED : Bits := ⟨12, 0⟩
def F.FGS_HWM.DELAY_HWM : Bits := ⟨26, 16⟩
def F.FGS_HWM.STORE_HWM : Bits := ⟨12, 0⟩
def F.FGS_EVENT.DELAY_FULL : Bits := ⟨14, 14⟩
def F.FGS_EVENT.VOID_RELEASE : Bits := ⟨13, 13⟩
def F.FGS_EVENT.RERUN_LIMIT : Bits := ⟨12, 12⟩
def F.FGS_EVENT.RERUN : Bits := ⟨11, 11⟩
def F.FGS_EVENT.MATCH_TIMEOUT : Bits := ⟨10, 10⟩
def F.FGS_EVENT.NOT_OWNER : Bits := ⟨9, 9⟩
def F.FGS_EVENT.UNKNOWN_NODE : Bits := ⟨8, 8⟩
def F.FGS_EVENT.STALE_TOKEN : Bits := ⟨7, 7⟩
def F.FGS_EVENT.DUP_TOKEN : Bits := ⟨6, 6⟩
def F.FGS_EVENT.FLOW_STALL : Bits := ⟨5, 5⟩
def F.FGS_EVENT.DEADLOCK : Bits := ⟨4, 4⟩
def F.FGS_EVENT.LATE_RELEASE : Bits := ⟨3, 3⟩
def F.FGS_EVENT.DEADLINE_MISS : Bits := ⟨2, 2⟩
def F.FGS_EVENT.STALLED : Bits := ⟨1, 1⟩
def F.FGS_EVENT.REFUSED : Bits := ⟨0, 0⟩
def F.FGS_EVENT_EN.ENABLE : Bits := ⟨14, 0⟩
def F.FGS_CNT.COUNT : Bits := ⟨31, 0⟩
def F.FGS_CNT_CLR.HWM : Bits := ⟨8, 8⟩
def F.FGS_CNT_CLR.COUNTERS : Bits := ⟨5, 0⟩
def F.FGS_POST_SB.KIND : Bits := ⟨5, 4⟩
def F.FGS_POST_SB.OPERAND : Bits := ⟨2, 0⟩
def F.FGS_POST_LO.TOKEN_LO : Bits := ⟨31, 0⟩
def F.FGS_POST_HI.TOKEN_HI : Bits := ⟨31, 0⟩
def F.FGS_POST_RESULT.BUSY : Bits := ⟨31, 31⟩
def F.FGS_POST_RESULT.RESULT : Bits := ⟨2, 0⟩
def F.FGS_CANCEL_NODE.ALL_SEQ : Bits := ⟨31, 31⟩
def F.FGS_CANCEL_NODE.ALL_TILES : Bits := ⟨30, 30⟩
def F.FGS_CANCEL_NODE.NODE_SLOT : Bits := ⟨27, 16⟩
def F.FGS_CANCEL_NODE.TILE : Bits := ⟨11, 0⟩
def F.FGS_CANCEL_SEQ.SEQUENCE : Bits := ⟨31, 0⟩
def F.FGS_CANCEL_GO.GO : Bits := ⟨0, 0⟩
def F.FGS_CANCEL_STATUS.BUSY : Bits := ⟨31, 31⟩
def F.FGS_CANCEL_STATUS.COUNT : Bits := ⟨12, 0⟩
def F.FGS_CLASS_STATUS.BUSY_UNITS : Bits := ⟨28, 24⟩
def F.FGS_CLASS_STATUS.TOP_PRIORITY : Bits := ⟨22, 20⟩
def F.FGS_CLASS_STATUS.ANY_READY : Bits := ⟨19, 19⟩
def F.FGS_CLASS_STATUS.READY_COUNT : Bits := ⟨12, 0⟩
def F.FGS_PC_DISP0.VALID : Bits := ⟨31, 31⟩
def F.FGS_PC_DISP0.PREEMPT : Bits := ⟨30, 30⟩
def F.FGS_PC_DISP0.BANK : Bits := ⟨29, 28⟩
def F.FGS_PC_DISP0.NODE_SLOT : Bits := ⟨27, 16⟩
def F.FGS_PC_DISP0.TILE : Bits := ⟨11, 0⟩
def F.FGS_PC_DISP1.SEQUENCE : Bits := ⟨31, 0⟩
def F.FGS_PC_DISP2.DOMAIN : Bits := ⟨31, 28⟩
def F.FGS_PC_DISP2.FW_ID : Bits := ⟨23, 18⟩
def F.FGS_PC_DISP2.GEN : Bits := ⟨17, 12⟩
def F.FGS_PC_DISP2.ENTRY : Bits := ⟨11, 0⟩
def F.FGS_PC_DISP3.DEADLINE_LO : Bits := ⟨31, 0⟩
def F.FGS_PC_DONE.STATUS : Bits := ⟨31, 30⟩
def F.FGS_PC_DONE.GEN : Bits := ⟨17, 12⟩
def F.FGS_PC_DONE.ENTRY : Bits := ⟨11, 0⟩
def F.FGS_FLOW_SEL.FLOW : Bits := ⟨7, 0⟩
def F.FGS_FLOW_STATUS.BOUND : Bits := ⟨31, 31⟩
def F.FGS_FLOW_STATUS.MODE : Bits := ⟨30, 30⟩
def F.FGS_FLOW_STATUS.IN_WINDOW : Bits := ⟨29, 23⟩
def F.FGS_FLOW_STATUS.IDLE_PERIODS : Bits := ⟨22, 20⟩
def F.FGS_FLOW_STATUS.WINDOW : Bits := ⟨6, 0⟩
def F.FGS_FLOW_HEAD.HEAD : Bits := ⟨31, 0⟩
def F.FGS_DEADLOCK_LAST.VICTIM : Bits := ⟨27, 16⟩
def F.FGS_DEADLOCK_LAST.IMPLICIT : Bits := ⟨15, 15⟩
def F.FGS_DEADLOCK_LAST.STUCK : Bits := ⟨11, 0⟩
def F.CFE_PORT_STATUS.LANE_FAIL : Bits := ⟨11, 8⟩
def F.CFE_PORT_STATUS.STATE : Bits := ⟨5, 4⟩
def F.CFE_PORT_STATUS.LANES : Bits := ⟨2, 0⟩
def F.CFE_PORT_ERR.IBI : Bits := ⟨6, 6⟩
def F.CFE_PORT_ERR.EXTRA_FRAME : Bits := ⟨5, 5⟩
def F.CFE_PORT_ERR.DT_MISMATCH : Bits := ⟨4, 4⟩
def F.CFE_PORT_ERR.UNUSED_VC : Bits := ⟨3, 3⟩
def F.CFE_PORT_ERR.CRC : Bits := ⟨2, 2⟩
def F.CFE_PORT_ERR.HDR_LOST : Bits := ⟨1, 1⟩
def F.CFE_PORT_ERR.HDR_CORR : Bits := ⟨0, 0⟩
def F.CFE_PORT_CNT.COUNT : Bits := ⟨31, 0⟩
def F.CFE_PORT_CNT_CLR.COUNTERS : Bits := ⟨3, 0⟩
def F.CFE_STREAM_STATE.BATCH_PENDING : Bits := ⟨8, 8⟩
def F.CFE_STREAM_STATE.OPEN : Bits := ⟨7, 7⟩
def F.CFE_STREAM_STATE.PATH : Bits := ⟨6, 4⟩
def F.CFE_STREAM_STATE.COUNTING : Bits := ⟨3, 3⟩
def F.CFE_STREAM_SEQ.SEQUENCE : Bits := ⟨31, 0⟩
def F.CFE_STREAM_EVENT.FLAGS_HI : Bits := ⟨17, 16⟩
def F.CFE_STREAM_EVENT.FLAGS_LO : Bits := ⟨11, 0⟩
def F.CFE_STREAM_EPOCH.LAST_EPOCH : Bits := ⟨31, 0⟩
def F.CFE_STREAM_EPOCH_FROM.SEQUENCE : Bits := ⟨31, 0⟩
def F.CFE_FSYNC_CTRL.ACTIVE_LOW : Bits := ⟨8, 8⟩
def F.CFE_FSYNC_CTRL.WIDTH_US : Bits := ⟨7, 0⟩
def F.CFE_FSYNC_COUNT.PULSES : Bits := ⟨31, 0⟩
def F.CFE_I3C_CTRL.MIXED : Bits := ⟨2, 2⟩
def F.CFE_I3C_CTRL.RATE : Bits := ⟨1, 0⟩
def F.CFE_I3C_BATCH_LO.ADDR_LO : Bits := ⟨31, 3⟩
def F.CFE_I3C_BATCH_HI.ADDR_HI : Bits := ⟨9, 0⟩
def F.CFE_I3C_BATCH_GO.STREAM : Bits := ⟨12, 8⟩
def F.CFE_I3C_BATCH_GO.COUNT : Bits := ⟨6, 0⟩
def F.CFE_I3C_BATCH_STATUS.STREAM : Bits := ⟨12, 8⟩
def F.CFE_I3C_BATCH_STATUS.STATE : Bits := ⟨6, 4⟩
def F.CFE_I3C_BATCH_STATUS.RESULT : Bits := ⟨2, 0⟩
def F.CFE_TINDER_CTRL.LINES : Bits := ⟨6, 0⟩
def F.CFE_TINDER_CNT.ABORTED : Bits := ⟨31, 16⟩
def F.CFE_TINDER_CNT.COMPLETED : Bits := ⟨15, 0⟩
def F.ISP_STATUS.SERVICE : Bits := ⟨8, 8⟩
def F.ISP_STATUS.BANK : Bits := ⟨6, 4⟩
def F.ISP_STATUS.STATE : Bits := ⟨2, 0⟩
def F.ISP_ERR.PARITY : Bits := ⟨4, 4⟩
def F.ISP_ERR.DISCARD : Bits := ⟨3, 3⟩
def F.ISP_ERR.UPD_REFUSED : Bits := ⟨2, 2⟩
def F.ISP_ERR.PREEMPT : Bits := ⟨1, 1⟩
def F.ISP_ERR.OVERRUN : Bits := ⟨0, 0⟩
def F.ISP_CNT.COUNT : Bits := ⟨31, 0⟩
def F.ISP_CNT_CLR.COUNTERS : Bits := ⟨3, 0⟩
def F.ISP_BANK.VALID : Bits := ⟨31, 31⟩
def F.ISP_BANK.QUEUED : Bits := ⟨26, 24⟩
def F.ISP_BANK.STREAM : Bits := ⟨20, 16⟩
def F.ISP_BANK.VERSION : Bits := ⟨15, 0⟩
def F.ISP_UPD_LO.ADDR_LO : Bits := ⟨31, 4⟩
def F.ISP_UPD_HI.ADDR_HI : Bits := ⟨9, 0⟩
def F.ISP_UPD_GO.GO : Bits := ⟨0, 0⟩
def F.ISP_UPD_STATUS.BUSY : Bits := ⟨31, 31⟩
def F.ISP_UPD_STATUS.STREAM : Bits := ⟨20, 16⟩
def F.ISP_UPD_STATUS.RESULT : Bits := ⟨2, 0⟩
def F.FTR_STATUS.DOMAIN : Bits := ⟨31, 28⟩
def F.FTR_STATUS.NODE_SLOT : Bits := ⟨27, 16⟩
def F.FTR_STATUS.TILE : Bits := ⟨15, 4⟩
def F.FTR_STATUS.MATCH : Bits := ⟨3, 3⟩
def F.FTR_STATUS.STATE : Bits := ⟨2, 0⟩
def F.FTR_ERR.PAT_PARITY : Bits := ⟨7, 7⟩
def F.FTR_ERR.LB_PARITY : Bits := ⟨6, 6⟩
def F.FTR_ERR.BUS_ERR : Bits := ⟨5, 5⟩
def F.FTR_ERR.DESC_INVALID : Bits := ⟨4, 4⟩
def F.FTR_ERR.QUOTA : Bits := ⟨3, 3⟩
def F.FTR_ERR.ABSENT : Bits := ⟨2, 2⟩
def F.FTR_ERR.DROPPED : Bits := ⟨1, 1⟩
def F.FTR_ERR.MOTION_MISS : Bits := ⟨0, 0⟩
def F.FTR_ERR_EN.ENABLE : Bits := ⟨7, 0⟩
def F.FTR_LAST_FAULT.CODE : Bits := ⟨31, 28⟩
def F.FTR_LAST_FAULT.NODE_SLOT : Bits := ⟨27, 16⟩
def F.FTR_LAST_FAULT.TILE : Bits := ⟨11, 0⟩
def F.FTR_CNT.COUNT : Bits := ⟨31, 0⟩
def F.FTR_CNT_CLR.COUNTERS : Bits := ⟨8, 0⟩
def F.WRP_STATUS.DOMAIN : Bits := ⟨31, 28⟩
def F.WRP_STATUS.NODE_SLOT : Bits := ⟨27, 16⟩
def F.WRP_STATUS.TILE : Bits := ⟨15, 4⟩
def F.WRP_STATUS.CARRY : Bits := ⟨3, 3⟩
def F.WRP_STATUS.STATE : Bits := ⟨2, 0⟩
def F.WRP_ERR.LB_PARITY : Bits := ⟨6, 6⟩
def F.WRP_ERR.BUS_ERR : Bits := ⟨5, 5⟩
def F.WRP_ERR.DESC_INVALID : Bits := ⟨4, 4⟩
def F.WRP_ERR.FOOTPRINT : Bits := ⟨3, 3⟩
def F.WRP_ERR.ABSENT : Bits := ⟨2, 2⟩
def F.WRP_ERR.DROPPED : Bits := ⟨1, 1⟩
def F.WRP_ERR.OOB : Bits := ⟨0, 0⟩
def F.WRP_ERR_EN.ENABLE : Bits := ⟨6, 0⟩
def F.WRP_LAST_FAULT.CODE : Bits := ⟨31, 28⟩
def F.WRP_LAST_FAULT.NODE_SLOT : Bits := ⟨27, 16⟩
def F.WRP_LAST_FAULT.TILE : Bits := ⟨11, 0⟩
def F.WRP_CNT.COUNT : Bits := ⟨31, 0⟩
def F.WRP_CNT_CLR.COUNTERS : Bits := ⟨5, 0⟩
def F.PYR_STATUS.DOMAIN : Bits := ⟨31, 28⟩
def F.PYR_STATUS.NODE_SLOT : Bits := ⟨27, 16⟩
def F.PYR_STATUS.TILE : Bits := ⟨15, 4⟩
def F.PYR_STATUS.CARRY : Bits := ⟨3, 3⟩
def F.PYR_STATUS.STATE : Bits := ⟨2, 0⟩
def F.PYR_ERR.LB_PARITY : Bits := ⟨6, 6⟩
def F.PYR_ERR.BUS_ERR : Bits := ⟨5, 5⟩
def F.PYR_ERR.DESC_INVALID : Bits := ⟨4, 4⟩
def F.PYR_ERR.FOOTPRINT : Bits := ⟨3, 3⟩
def F.PYR_ERR.ABSENT : Bits := ⟨2, 2⟩
def F.PYR_ERR.DROPPED : Bits := ⟨1, 1⟩
def F.PYR_ERR.OOB : Bits := ⟨0, 0⟩
def F.PYR_ERR_EN.ENABLE : Bits := ⟨6, 0⟩
def F.PYR_LAST_FAULT.CODE : Bits := ⟨31, 28⟩
def F.PYR_LAST_FAULT.NODE_SLOT : Bits := ⟨27, 16⟩
def F.PYR_LAST_FAULT.TILE : Bits := ⟨11, 0⟩
def F.PYR_CNT.COUNT : Bits := ⟨31, 0⟩
def F.PYR_CNT_CLR.COUNTERS : Bits := ⟨5, 0⟩
def F.STR_STATUS.DOMAIN : Bits := ⟨31, 28⟩
def F.STR_STATUS.NODE_SLOT : Bits := ⟨27, 16⟩
def F.STR_STATUS.TILE : Bits := ⟨15, 4⟩
def F.STR_STATUS.REFINE : Bits := ⟨3, 3⟩
def F.STR_STATUS.STATE : Bits := ⟨2, 0⟩
def F.STR_ERR.LB_PARITY : Bits := ⟨6, 6⟩
def F.STR_ERR.BUS_ERR : Bits := ⟨5, 5⟩
def F.STR_ERR.DESC_INVALID : Bits := ⟨4, 4⟩
def F.STR_ERR.MOTION_MISS : Bits := ⟨3, 3⟩
def F.STR_ERR.ABSENT : Bits := ⟨2, 2⟩
def F.STR_ERR.DROPPED : Bits := ⟨1, 1⟩
def F.STR_ERR.PRED_FALLBACK : Bits := ⟨0, 0⟩
def F.STR_ERR_EN.ENABLE : Bits := ⟨6, 0⟩
def F.STR_LAST_FAULT.CODE : Bits := ⟨31, 28⟩
def F.STR_LAST_FAULT.NODE_SLOT : Bits := ⟨27, 16⟩
def F.STR_LAST_FAULT.TILE : Bits := ⟨11, 0⟩
def F.STR_CNT.COUNT : Bits := ⟨31, 0⟩
def F.STR_CNT_CLR.COUNTERS : Bits := ⟨7, 0⟩
def F.STR_CODE.COUNT : Bits := ⟨31, 0⟩
def F.STR_CODE_CLR.COUNTERS : Bits := ⟨7, 0⟩
def F.FLW_STATUS.DOMAIN : Bits := ⟨31, 28⟩
def F.FLW_STATUS.NODE_SLOT : Bits := ⟨27, 16⟩
def F.FLW_STATUS.TILE : Bits := ⟨15, 4⟩
def F.FLW_STATUS.REFINE : Bits := ⟨3, 3⟩
def F.FLW_STATUS.STATE : Bits := ⟨2, 0⟩
def F.FLW_ERR.LB_PARITY : Bits := ⟨6, 6⟩
def F.FLW_ERR.BUS_ERR : Bits := ⟨5, 5⟩
def F.FLW_ERR.DESC_INVALID : Bits := ⟨4, 4⟩
def F.FLW_ERR.PREV_ABSENT : Bits := ⟨3, 3⟩
def F.FLW_ERR.PRED_ABSENT : Bits := ⟨2, 2⟩
def F.FLW_ERR.DROPPED : Bits := ⟨1, 1⟩
def F.FLW_ERR.PRED_FALLBACK : Bits := ⟨0, 0⟩
def F.FLW_ERR_EN.ENABLE : Bits := ⟨6, 0⟩
def F.FLW_LAST_FAULT.CODE : Bits := ⟨31, 28⟩
def F.FLW_LAST_FAULT.NODE_SLOT : Bits := ⟨27, 16⟩
def F.FLW_LAST_FAULT.TILE : Bits := ⟨11, 0⟩
def F.FLW_CNT.COUNT : Bits := ⟨31, 0⟩
def F.FLW_CNT_CLR.COUNTERS : Bits := ⟨7, 0⟩
def F.FLW_CODE.COUNT : Bits := ⟨31, 0⟩
def F.FLW_CODE_CLR.COUNTERS : Bits := ⟨7, 0⟩
def F.NT_STATUS.DOMAIN : Bits := ⟨31, 28⟩
def F.NT_STATUS.NODE_SLOT : Bits := ⟨27, 16⟩
def F.NT_STATUS.TILE : Bits := ⟨15, 4⟩
def F.NT_STATUS.PHASE : Bits := ⟨3, 0⟩
def F.NT_STEP.RERUNS : Bits := ⟨25, 24⟩
def F.NT_STEP.FROM_ZERO : Bits := ⟨21, 21⟩
def F.NT_STEP.RERUN : Bits := ⟨20, 20⟩
def F.NT_STEP.STEP : Bits := ⟨19, 0⟩
def F.NT_SPM_SIZE.ACC_KIB : Bits := ⟨31, 16⟩
def F.NT_SPM_SIZE.SPM_KIB : Bits := ⟨15, 0⟩
def F.NT_ERR.RESIDUE : Bits := ⟨11, 11⟩
def F.NT_ERR.EXP_MISMATCH : Bits := ⟨10, 10⟩
def F.NT_ERR.ACC_PARITY : Bits := ⟨9, 9⟩
def F.NT_ERR.SPM_PARITY : Bits := ⟨8, 8⟩
def F.NT_ERR.BUS_ERR : Bits := ⟨7, 7⟩
def F.NT_ERR.ADDR_FAULT : Bits := ⟨6, 6⟩
def F.NT_ERR.DESC_OVERLAP : Bits := ⟨5, 5⟩
def F.NT_ERR.DESC_INVALID : Bits := ⟨4, 4⟩
def F.NT_ERR.DROPPED : Bits := ⟨3, 3⟩
def F.NT_ERR.ABSENT : Bits := ⟨2, 2⟩
def F.NT_ERR.ACC_SAT : Bits := ⟨1, 1⟩
def F.NT_ERR.ARITH : Bits := ⟨0, 0⟩
def F.NT_ERR_EN.ENABLE : Bits := ⟨11, 0⟩
def F.NT_LAST_FAULT.CODE : Bits := ⟨31, 28⟩
def F.NT_LAST_FAULT.NODE_SLOT : Bits := ⟨27, 16⟩
def F.NT_LAST_FAULT.TILE : Bits := ⟨11, 0⟩
def F.NT_FAULT_STEP.STEP : Bits := ⟨19, 0⟩
def F.NT_FAULT_ADDR.OFFSET : Bits := ⟨22, 0⟩
def F.NT_CNT.COUNT : Bits := ⟨31, 0⟩
def F.NT_CNT_CLR.COUNTERS : Bits := ⟨9, 0⟩
def F.NT_WIN_CTRL.WRITE : Bits := ⟨2, 2⟩
def F.NT_WIN_CTRL.READ : Bits := ⟨1, 1⟩
def F.NT_WIN_CTRL.ENABLE : Bits := ⟨0, 0⟩
def F.NT_WIN_VBASE.VPAGE : Bits := ⟨29, 0⟩
def F.NT_WIN_PAGES.PAGES : Bits := ⟨29, 0⟩
def F.NT_WIN_TBASE.TPAGE : Bits := ⟨29, 0⟩
def F.NT_WIN_FAULT_LO.ADDR_LO : Bits := ⟨31, 0⟩
def F.NT_WIN_FAULT_HI.CAUSE : Bits := ⟨31, 29⟩
def F.NT_WIN_FAULT_HI.WRITE : Bits := ⟨28, 28⟩
def F.NT_WIN_FAULT_HI.WINDOW : Bits := ⟨27, 24⟩
def F.NT_WIN_FAULT_HI.OPERAND : Bits := ⟨19, 16⟩
def F.NT_WIN_FAULT_HI.ADDR_HI : Bits := ⟨11, 0⟩
def F.NT_IDX_CNT.COUNT : Bits := ⟨31, 0⟩
def F.NT_TCNT_CLR.FAULT : Bits := ⟨1, 1⟩
def F.NT_TCNT_CLR.IDX : Bits := ⟨0, 0⟩
def F.NT_SPM_EVENT.OUT_OF_RANGE : Bits := ⟨3, 3⟩
def F.NT_SPM_EVENT.CINDER_WRITE : Bits := ⟨2, 2⟩
def F.NT_SPM_EVENT.SCRUB_PENDING : Bits := ⟨1, 1⟩
def F.NT_SPM_EVENT.CREDIT_REFUSED : Bits := ⟨0, 0⟩
def F.NT_SPM_CONF.COUNT : Bits := ⟨31, 0⟩
def F.NT_SPM_CONF_CLR.COUNTERS : Bits := ⟨4, 0⟩
def F.NT_CRED_CTRL.VALID : Bits := ⟨31, 31⟩
def F.NT_CRED_CTRL.DOMAIN : Bits := ⟨27, 24⟩
def F.NT_CRED_CTRL.ANY : Bits := ⟨10, 10⟩
def F.NT_CRED_CTRL.INITIATOR : Bits := ⟨9, 0⟩
def F.NT_CRED_WIN.LEN : Bits := ⟨29, 15⟩
def F.NT_CRED_WIN.BASE : Bits := ⟨14, 0⟩
def F.NE_PHASE_CTRL.SAFETY_FIRST : Bits := ⟨8, 8⟩
def F.NE_PHASE_CTRL.IO_SLOTS : Bits := ⟨4, 0⟩
def F.NE_PHASE_STATUS.WAITING : Bits := ⟨12, 8⟩
def F.NE_PHASE_STATUS.IN_IO : Bits := ⟨4, 0⟩
def F.NE_CLOCK.MHZ : Bits := ⟨27, 16⟩
def F.NE_CLOCK.STEP : Bits := ⟨1, 0⟩
def F.BM_STATUS.DOMAIN : Bits := ⟨31, 28⟩
def F.BM_STATUS.NODE_SLOT : Bits := ⟨27, 16⟩
def F.BM_STATUS.STATE : Bits := ⟨2, 0⟩
def F.BM_ERR.DESC_OVERLAP : Bits := ⟨4, 4⟩
def F.BM_ERR.DESC_INVALID : Bits := ⟨3, 3⟩
def F.BM_ERR.BUS_ERR : Bits := ⟨2, 2⟩
def F.BM_ERR.DROPPED : Bits := ⟨1, 1⟩
def F.BM_ERR.SLOT : Bits := ⟨0, 0⟩
def F.BM_ERR_EN.ENABLE : Bits := ⟨4, 0⟩
def F.BM_FAULT_LO.ADDR_LO : Bits := ⟨31, 0⟩
def F.BM_FAULT_HI.VALID : Bits := ⟨31, 31⟩
def F.BM_FAULT_HI.WRITE : Bits := ⟨30, 30⟩
def F.BM_FAULT_HI.ADDR_HI : Bits := ⟨11, 0⟩
def F.BM_RESUME.GO : Bits := ⟨0, 0⟩
def F.BM_CNT.COUNT : Bits := ⟨31, 0⟩
def F.BM_CNT_CLR.COUNTERS : Bits := ⟨3, 0⟩
def F.MC_FS_EVENT.FLAG_UE : Bits := ⟨7, 7⟩
def F.MC_FS_EVENT.SLOT_WRITE_REFUSED : Bits := ⟨6, 6⟩
def F.MC_FS_EVENT.SLOT_NOT_READY : Bits := ⟨5, 5⟩
def F.MC_FS_EVENT.CINDER_WRITE : Bits := ⟨4, 4⟩
def F.MC_FS_EVENT.SCRUB_PENDING : Bits := ⟨3, 3⟩
def F.MC_FS_EVENT.FILL_DONE : Bits := ⟨2, 2⟩
def F.MC_FS_EVENT.UE : Bits := ⟨1, 1⟩
def F.MC_FS_EVENT.CE : Bits := ⟨0, 0⟩
def F.MC_FS_EVENT_EN.ENABLE : Bits := ⟨7, 0⟩
def F.MC_FS_UE_ADDR.VALID : Bits := ⟨31, 31⟩
def F.MC_FS_UE_ADDR.WORD : Bits := ⟨28, 3⟩
def F.MC_FS_CNT.COUNT : Bits := ⟨31, 0⟩
def F.MC_FS_CNT_CLR.UE_ADDR : Bits := ⟨8, 8⟩
def F.MC_FS_CNT_CLR.COUNTERS : Bits := ⟨5, 0⟩
def F.MC_FLAG_SEL.FLAG : Bits := ⟨17, 0⟩
def F.MC_FLAG_HI.WORD_HI : Bits := ⟨31, 0⟩
def F.MC_FLAG_LO.WORD_LO : Bits := ⟨31, 0⟩
def F.MC_CINDER_STATUS.FS_ENTRIES : Bits := ⟨22, 16⟩
def F.MC_CINDER_STATUS.LP_ENTRIES : Bits := ⟨14, 8⟩
def F.MC_CINDER_STATUS.FILL_BUSY : Bits := ⟨0, 0⟩
def F.MC_WC_STATUS.FENCED : Bits := ⟨19, 16⟩
def F.MC_WC_STATUS.WAYS : Bits := ⟨4, 0⟩
def F.MC_WC_CNT.COUNT : Bits := ⟨31, 0⟩
def F.MC_WC_CNT_CLR.COUNTERS : Bits := ⟨3, 0⟩
def F.MC_STATUS.CAPACITY_MIB : Bits := ⟨31, 16⟩
def F.MC_STATUS.STATE : Bits := ⟨2, 0⟩
def F.MC_ECC_EVENT.CINDER_WRITE : Bits := ⟨4, 4⟩
def F.MC_ECC_EVENT.SCRUB_PENDING : Bits := ⟨3, 3⟩
def F.MC_ECC_EVENT.RANGE : Bits := ⟨2, 2⟩
def F.MC_ECC_EVENT.UE : Bits := ⟨1, 1⟩
def F.MC_ECC_EVENT.CE : Bits := ⟨0, 0⟩
def F.MC_UE_ADDR_LO.ADDR_LO : Bits := ⟨31, 0⟩
def F.MC_UE_ADDR_HI.VALID : Bits := ⟨31, 31⟩
def F.MC_UE_ADDR_HI.ADDR_HI : Bits := ⟨9, 0⟩
def F.MC_CNT.COUNT : Bits := ⟨31, 0⟩
def F.MC_CNT_CLR.UE_ADDR : Bits := ⟨8, 8⟩
def F.MC_CNT_CLR.COUNTERS : Bits := ⟨4, 0⟩
def F.ETH_STATUS.TIME_SOURCE : Bits := ⟨8, 8⟩
def F.ETH_STATUS.SPEED : Bits := ⟨5, 4⟩
def F.ETH_STATUS.MODE : Bits := ⟨2, 1⟩
def F.ETH_STATUS.LINK : Bits := ⟨0, 0⟩
def F.ETH_ERR.AUTH : Bits := ⟨3, 3⟩
def F.ETH_ERR.LINK_DOWN : Bits := ⟨2, 2⟩
def F.ETH_ERR.TX_DROP : Bits := ⟨1, 1⟩
def F.ETH_ERR.RX_DROP : Bits := ⟨0, 0⟩
def F.ETH_CNT.COUNT : Bits := ⟨31, 0⟩
def F.CAN_STATUS.REC : Bits := ⟨23, 16⟩
def F.CAN_STATUS.TEC : Bits := ⟨15, 8⟩
def F.CAN_STATUS.STATE : Bits := ⟨1, 0⟩
def F.CAN_ERR.STALE : Bits := ⟨3, 3⟩
def F.CAN_ERR.TX_DROP : Bits := ⟨2, 2⟩
def F.CAN_ERR.E2E_FAIL : Bits := ⟨1, 1⟩
def F.CAN_ERR.BUS_OFF : Bits := ⟨0, 0⟩
def F.CAN_VS_SEL.ENTRY : Bits := ⟨4, 0⟩
def F.CAN_VS_STATE.UPDATES : Bits := ⟨31, 16⟩
def F.CAN_VS_STATE.E2E_FAIL : Bits := ⟨1, 1⟩
def F.CAN_VS_STATE.STALE : Bits := ⟨0, 0⟩
def F.CAN_VS_VALUE.VALUE : Bits := ⟨31, 0⟩
def F.OF_SUB_LO.ADDR_LO : Bits := ⟨31, 5⟩
def F.OF_SUB_HI.ADDR_HI : Bits := ⟨9, 0⟩
def F.OF_SUB_GO.GO : Bits := ⟨0, 0⟩
def F.OF_RESULT.BUSY : Bits := ⟨31, 31⟩
def F.OF_RESULT.ENABLED : Bits := ⟨30, 30⟩
def F.OF_RESULT.RESULT : Bits := ⟨2, 0⟩
def F.GPIO_IN.LEVEL : Bits := ⟨31, 0⟩
def F.GPIO_OUT_SET.BITS : Bits := ⟨31, 0⟩
def F.GPIO_OUT_CLR.BITS : Bits := ⟨31, 0⟩
def F.GPIO_EVENT.CHANGED : Bits := ⟨31, 0⟩
def F.GPIO_EVENT_EN.ENABLE : Bits := ⟨31, 0⟩
def F.GPIO_REFUSED.COUNT : Bits := ⟨31, 0⟩
def F.SUP_CNT.DISCARDED : Bits := ⟨31, 16⟩
def F.SUP_CNT.AUTH : Bits := ⟨15, 0⟩
def F.GML_SYS.RING : Bits := ⟨4, 4⟩
def F.GML_SYS.COUNT : Bits := ⟨3, 2⟩
def F.GML_SYS.DEVICE : Bits := ⟨1, 0⟩
def F.GML_PEERS.UNREACHABLE : Bits := ⟨19, 16⟩
def F.GML_PEERS.ACTIVE : Bits := ⟨15, 12⟩
def F.GML_PEERS.LOST : Bits := ⟨11, 8⟩
def F.GML_PEERS.ROUTED : Bits := ⟨7, 4⟩
def F.GML_PEERS.PRESENT : Bits := ⟨3, 0⟩
def F.GML_EVENT.INBOUND_REFUSED : Bits := ⟨5, 5⟩
def F.GML_EVENT.TAKEOVER : Bits := ⟨4, 4⟩
def F.GML_EVENT.IDENTITY : Bits := ⟨3, 3⟩
def F.GML_EVENT.REACHABLE : Bits := ⟨2, 2⟩
def F.GML_EVENT.UNREACHABLE : Bits := ⟨1, 1⟩
def F.GML_EVENT.LOST : Bits := ⟨0, 0⟩
def F.GML_EVENT_EN.ENABLE : Bits := ⟨5, 0⟩
def F.GML_FWD.ENABLE : Bits := ⟨8, 8⟩
def F.GML_FWD.COLLECTOR : Bits := ⟨1, 0⟩
def F.GML_TAKEN.STREAMS : Bits := ⟨23, 0⟩
def F.GML_STATUS.DELAY_NS : Bits := ⟨31, 16⟩
def F.GML_STATUS.PARTNER : Bits := ⟨11, 10⟩
def F.GML_STATUS.SENSE : Bits := ⟨9, 9⟩
def F.GML_STATUS.ACTIVE : Bits := ⟨8, 8⟩
def F.GML_STATUS.HALF : Bits := ⟨5, 4⟩
def F.GML_STATUS.STATE : Bits := ⟨2, 0⟩
def F.GML_ERR.INBOUND_DOMAIN : Bits := ⟨6, 6⟩
def F.GML_ERR.IDENTITY : Bits := ⟨5, 5⟩
def F.GML_ERR.DOWN : Bits := ⟨4, 4⟩
def F.GML_ERR.LANE_FALLBACK : Bits := ⟨3, 3⟩
def F.GML_ERR.RETRAIN : Bits := ⟨2, 2⟩
def F.GML_ERR.RETRY_BURST : Bits := ⟨1, 1⟩
def F.GML_ERR.CRC : Bits := ⟨0, 0⟩
def F.GML_CNT.COUNT : Bits := ⟨31, 0⟩
def F.GML_CNT_CLR.COUNTERS : Bits := ⟨5, 0⟩
def F.GML_TIME.OFFSET : Bits := ⟨31, 16⟩
def F.GML_TIME.HOPS : Bits := ⟨9, 8⟩
def F.GML_TIME.ROOT : Bits := ⟨5, 4⟩
def F.GML_TIME.DELIVERS : Bits := ⟨0, 0⟩
def F.SI_STATUS.SAFE : Bits := ⟨31, 31⟩
def F.SI_STATUS.FAULT_N : Bits := ⟨30, 30⟩
def F.SI_STATUS.ERR_IN : Bits := ⟨29, 29⟩
def F.SI_STATUS.EMBER : Bits := ⟨25, 24⟩
def F.SI_STATUS.SOURCE : Bits := ⟨16, 16⟩
def F.SI_SELECT.CLEAN : Bits := ⟨31, 16⟩
def F.SI_SELECT.HOLDOFF_LEFT : Bits := ⟨15, 8⟩
def F.SI_SELECT.EMBER_INVALID : Bits := ⟨7, 0⟩
def F.SI_LAST.CLASS : Bits := ⟨25, 24⟩
def F.SI_LAST.CAUSE : Bits := ⟨23, 16⟩
def F.SI_LAST.UNIT : Bits := ⟨15, 0⟩
def F.SI_DOUBT_CNT.COUNT : Bits := ⟨31, 0⟩
def F.SI_EVENT.FIREWALL : Bits := ⟨7, 7⟩
def F.SI_EVENT.MONITOR : Bits := ⟨6, 6⟩
def F.SI_EVENT.EMBER_HEALTH : Bits := ⟨5, 5⟩
def F.SI_EVENT.SELFTEST_FAIL : Bits := ⟨4, 4⟩
def F.SI_EVENT.SELFTEST_LATE : Bits := ⟨3, 3⟩
def F.SI_EVENT.TINDER_LATE : Bits := ⟨2, 2⟩
def F.SI_EVENT.SWITCH : Bits := ⟨1, 1⟩
def F.SI_EVENT.DOUBT : Bits := ⟨0, 0⟩
def F.SI_EVENT_EN.ENABLE : Bits := ⟨7, 0⟩
def F.SI_HB.VALUE : Bits := ⟨31, 0⟩
def F.SI_COVER_SEL.UNIT : Bits := ⟨15, 0⟩
def F.SI_COVER_STATUS.LATES : Bits := ⟨27, 26⟩
def F.SI_COVER_STATUS.PROMOTED : Bits := ⟨25, 25⟩
def F.SI_COVER_STATUS.PENDING : Bits := ⟨24, 24⟩
def F.SI_COVER_STATUS.MS : Bits := ⟨15, 0⟩
def F.EJ_STATUS.MIRROR_ON : Bits := ⟨31, 31⟩
def F.EJ_STATUS.STREAM_ON : Bits := ⟨30, 30⟩
def F.EJ_STATUS.UNMIRRORED : Bits := ⟨15, 0⟩
def F.EJ_SEQ.SEQUENCE : Bits := ⟨31, 0⟩
def F.EJ_BOOT.BOOT_COUNT : Bits := ⟨31, 0⟩
def F.EJ_EVENT.STREAM_LAG : Bits := ⟨3, 3⟩
def F.EJ_EVENT.MIRROR_ERR : Bits := ⟨2, 2⟩
def F.EJ_EVENT.RESERVE : Bits := ⟨1, 1⟩
def F.EJ_EVENT.LOST : Bits := ⟨0, 0⟩
def F.EJ_LOST_CNT.COUNT : Bits := ⟨31, 0⟩
def F.EJ_STREAM_CTRL.PARTITIONS : Bits := ⟨31, 16⟩
def F.EJ_STREAM_CTRL.MIN_CLASS : Bits := ⟨5, 4⟩
def F.EJ_STREAM_CTRL.PORT : Bits := ⟨1, 1⟩
def F.EJ_STREAM_CTRL.ENABLE : Bits := ⟨0, 0⟩
def F.EJ_STREAM_POS.SEQUENCE : Bits := ⟨31, 0⟩
def F.EJ_FW_ARG.ARG : Bits := ⟨31, 0⟩
def F.EJ_FW_POST.CODE : Bits := ⟨31, 16⟩
def F.EJ_FW_POST.STREAM : Bits := ⟨15, 8⟩
def F.EJ_FW_POST.CLASS : Bits := ⟨1, 0⟩
def F.EJ_FW_RESULT.RESULT : Bits := ⟨1, 0⟩
def F.PMU_STATUS.HOTTEST : Bits := ⟨31, 16⟩
def F.PMU_STATUS.MULT3 : Bits := ⟨15, 12⟩
def F.PMU_STATUS.MULT2 : Bits := ⟨11, 8⟩
def F.PMU_STATUS.MULT1 : Bits := ⟨7, 4⟩
def F.PMU_STATUS.NE_STEP : Bits := ⟨3, 2⟩
def F.PMU_SHED.STARVE : Bits := ⟨11, 9⟩
def F.PMU_SHED.RULES : Bits := ⟨8, 6⟩
def F.PMU_SHED.THERMAL : Bits := ⟨5, 3⟩
def F.PMU_SHED.LEVEL : Bits := ⟨2, 0⟩
def F.PMU_DOM_ON.ON : Bits := ⟨31, 0⟩
def F.PMU_UNIT_SEL.UNIT : Bits := ⟨15, 0⟩
def F.PMU_UNIT_STATUS.FENCED : Bits := ⟨31, 31⟩
def F.PMU_UNIT_STATUS.GATED : Bits := ⟨30, 30⟩
def F.PMU_UNIT_STATUS.RECUR : Bits := ⟨27, 24⟩
def F.PMU_UNIT_STATUS.CAUSE : Bits := ⟨23, 16⟩
def F.PMU_RULES.FIRED : Bits := ⟨31, 0⟩
def F.PMU_MAINT.QUEUED : Bits := ⟨23, 16⟩
def F.PMU_MAINT.RUNNING : Bits := ⟨4, 0⟩
def F.PMU_EVENT.DOMAIN_FAULT : Bits := ⟨5, 5⟩
def F.PMU_EVENT.MAINT_OVERDUE : Bits := ⟨4, 4⟩
def F.PMU_EVENT.RULE : Bits := ⟨3, 3⟩
def F.PMU_EVENT.THERMAL : Bits := ⟨2, 2⟩
def F.PMU_EVENT.SHED : Bits := ⟨1, 1⟩
def F.PMU_EVENT.FENCE : Bits := ⟨0, 0⟩
def F.PMU_EVENT_EN.ENABLE : Bits := ⟨5, 0⟩

/-! ### The table of registers, block by block -/

def regsSYS : List RegSpec := [
  ⟨"SYS_ID", 0x0, [], 0x48164000, [
    ⟨"FAMILY", ⟨31, 24⟩, .ro, false, 0, 255⟩,
    ⟨"PART", ⟨23, 8⟩, .ro, false, 0, 65535⟩,
    ⟨"MAJOR", ⟨7, 4⟩, .ro, false, 0, 15⟩,
    ⟨"MINOR", ⟨3, 0⟩, .ro, false, 0, 15⟩]⟩,
  ⟨"SYS_UID_LO", 0x4, [], 0x0, [
    ⟨"UID", ⟨31, 0⟩, .ro, true, 0, 0xFFFFFFFF⟩]⟩,
  ⟨"SYS_UID_HI", 0x8, [], 0x0, [
    ⟨"UID", ⟨31, 0⟩, .ro, true, 0, 0xFFFFFFFF⟩]⟩,
  ⟨"SYS_OTP", 0xC, [], 0x0, [
    ⟨"ROLLBACK", ⟨22, 16⟩, .ro, true, 0, 127⟩,
    ⟨"DEBUG_FUSED", ⟨8, 8⟩, .ro, true, 0, 1⟩,
    ⟨"REVOKED", ⟨3, 0⟩, .ro, true, 0, 15⟩]⟩,
  ⟨"SYS_SCRATCH", 0x10, [(0x4, 4)], 0x0, [
    ⟨"VALUE", ⟨31, 0⟩, .rw, true, 0, 0xFFFFFFFF⟩]⟩,
  ⟨"SYS_DECODE_LO", 0x20, [], 0x0, [
    ⟨"ADDR_LO", ⟨31, 0⟩, .ro, false, 0, 0xFFFFFFFF⟩]⟩,
  ⟨"SYS_DECODE_HI", 0x24, [], 0x0, [
    ⟨"VALID", ⟨31, 31⟩, .ro, false, 0, 1⟩,
    ⟨"WRITE", ⟨30, 30⟩, .ro, false, 0, 1⟩,
    ⟨"DOMAIN", ⟨29, 26⟩, .ro, false, 0, 15⟩,
    ⟨"INITIATOR", ⟨25, 16⟩, .ro, false, 0, 1023⟩,
    ⟨"ADDR_HI", ⟨11, 0⟩, .ro, false, 0, 4095⟩]⟩,
  ⟨"SYS_DECODE_CLR", 0x28, [], 0x0, [
    ⟨"CLEAR", ⟨0, 0⟩, .wo, false, 0, 1⟩]⟩,
  ⟨"SYS_RST_CAUSE", 0x100, [], 0x1, [
    ⟨"WDT", ⟨3, 3⟩, .w1c, true, 0, 1⟩,
    ⟨"SM", ⟨2, 2⟩, .w1c, true, 0, 1⟩,
    ⟨"WRST", ⟨1, 1⟩, .w1c, true, 0, 1⟩,
    ⟨"POR", ⟨0, 0⟩, .w1c, true, 0, 1⟩]⟩,
  ⟨"SYS_KIN_STATUS", 0x104, [], 0x0, [
    ⟨"WARM_COUNT", ⟨31, 24⟩, .ro, true, 0, 255⟩,
    ⟨"FENCED", ⟨23, 16⟩, .ro, false, 0, 255⟩,
    ⟨"FAIL_CODE", ⟨15, 8⟩, .ro, false, 0, 255⟩,
    ⟨"FALLBACK", ⟨6, 6⟩, .ro, false, 0, 1⟩,
    ⟨"REGION", ⟨5, 4⟩, .ro, false, 0, 3⟩,
    ⟨"STATE", ⟨3, 0⟩, .ro, false, 0, 15⟩]⟩,
  ⟨"SYS_IMG_GEN", 0x108, [], 0x0, [
    ⟨"GENERATION", ⟨31, 0⟩, .ro, false, 0, 0xFFFFFFFF⟩]⟩,
  ⟨"SYS_KIN_TIME", 0x10C, [], 0x0, [
    ⟨"MICROSECONDS", ⟨31, 0⟩, .ro, false, 0, 0xFFFFFFFF⟩]⟩,
  ⟨"SYS_STAGE_STATUS", 0x110, [], 0x0, [
    ⟨"FAIL_CODE", ⟨15, 8⟩, .ro, false, 0, 255⟩,
    ⟨"STATE", ⟨2, 0⟩, .ro, false, 0, 7⟩]⟩,
  ⟨"SYS_STAGE_GEN", 0x114, [], 0x0, [
    ⟨"GENERATION", ⟨31, 0⟩, .ro, false, 0, 0xFFFFFFFF⟩]⟩,
  ⟨"SYS_SCENE_STATUS", 0x120, [], 0x0, [
    ⟨"SWITCH_COUNT", ⟨31, 16⟩, .ro, false, 0, 65535⟩,
    ⟨"BANKED", ⟨15, 15⟩, .ro, false, 0, 1⟩,
    ⟨"STRIPPED", ⟨14, 14⟩, .ro, false, 0, 1⟩,
    ⟨"PHASE", ⟨13, 11⟩, .ro, false, 0, 7⟩,
    ⟨"DWELL", ⟨10, 10⟩, .ro, false, 0, 1⟩,
    ⟨"EMBER_HANDOVER", ⟨9, 9⟩, .ro, false, 0, 1⟩,
    ⟨"TARGET", ⟨7, 4⟩, .ro, false, 0, 15⟩,
    ⟨"SCENE", ⟨3, 0⟩, .ro, false, 0, 15⟩]⟩,
  ⟨"SYS_SCENE_LAST", 0x124, [], 0x0, [
    ⟨"FROM", ⟨31, 24⟩, .ro, false, 0, 255⟩,
    ⟨"CAUSE", ⟨23, 16⟩, .ro, false, 0, 255⟩,
    ⟨"DURATION_US", ⟨15, 0⟩, .ro, false, 0, 65535⟩]⟩,
  ⟨"SYS_PC_AP", 0x800, [(0x40, 4), (0x10, 4), (0x4, 4)], 0x0, [
    ⟨"ENABLE", ⟨31, 31⟩, .rw, false, 0, 1⟩,
    ⟨"BASE", ⟨14, 0⟩, .rw, false, 0, 32767⟩]⟩]

def regsSYSPC : List RegSpec := [
  ⟨"SYS_PC_STATUS", 0x400, [(0x40, 4)], 0x0, [
    ⟨"BANK", ⟨5, 4⟩, .ro, false, 0, 3⟩,
    ⟨"STATE", ⟨2, 0⟩, .ro, false, 0, 7⟩]⟩,
  ⟨"SYS_PC_ERR", 0x404, [(0x40, 4)], 0x0, [
    ⟨"ACK_BAD", ⟨4, 4⟩, .w1c, false, 0, 1⟩,
    ⟨"WINDOW", ⟨3, 3⟩, .w1c, false, 0, 1⟩,
    ⟨"LM_CE", ⟨2, 2⟩, .w1c, false, 0, 1⟩,
    ⟨"LM_UE", ⟨1, 1⟩, .w1c, false, 0, 1⟩,
    ⟨"LOCKSTEP", ⟨0, 0⟩, .w1c, false, 0, 1⟩]⟩,
  ⟨"SYS_PC_VBASE", 0x408, [(0x40, 4)], 0x0, [
    ⟨"BASE", ⟨17, 12⟩, .rw, false, 0, 63⟩]⟩,
  ⟨"SYS_PC_RET", 0x40C, [(0x40, 4)], 0x0, [
    ⟨"BANK_RET", ⟨1, 0⟩, .rw, false, 0, 3⟩]⟩,
  ⟨"SYS_PC_BANK", 0x410, [(0x40, 4), (0x8, 3)], 0x0, [
    ⟨"ENABLE", ⟨31, 31⟩, .rw, false, 0, 1⟩,
    ⟨"DOMAIN", ⟨27, 24⟩, .rw, false, 2, 14⟩,
    ⟨"LIMIT_KIB", ⟨16, 8⟩, .rw, false, 0, 511⟩,
    ⟨"BASE_KIB", ⟨7, 0⟩, .rw, false, 0, 255⟩]⟩,
  ⟨"SYS_PC_BANK_EPC", 0x414, [(0x40, 4), (0x8, 3)], 0x0, [
    ⟨"EPC", ⟨31, 1⟩, .rw, false, 0, 0x7FFFFFFF⟩]⟩,
  ⟨"SYS_PC_ABORT", 0x430, [(0x40, 4)], 0x0, [
    ⟨"VALID", ⟨31, 31⟩, .ro, false, 0, 1⟩,
    ⟨"GEN", ⟨17, 12⟩, .ro, false, 0, 63⟩,
    ⟨"ENTRY", ⟨11, 0⟩, .ro, false, 0, 4095⟩]⟩,
  ⟨"SYS_PC_ABORT_ACK", 0x434, [(0x40, 4)], 0x0, [
    ⟨"GEN", ⟨17, 12⟩, .wo, false, 0, 63⟩,
    ⟨"ENTRY", ⟨11, 0⟩, .wo, false, 0, 4095⟩]⟩,
  ⟨"SYS_PC_LM_CNT", 0x438, [(0x40, 4)], 0x0, [
    ⟨"COUNT", ⟨31, 0⟩, .ro, false, 0, 0xFFFFFFFF⟩]⟩]

def regsTL : List RegSpec := [
  ⟨"TL_NOW_HI", 0x10000, [], 0x0, [
    ⟨"TIME_HI", ⟨31, 0⟩, .ro, true, 0, 0xFFFFFFFF⟩]⟩,
  ⟨"TL_NOW_LO", 0x10004, [], 0x0, [
    ⟨"TIME_LO", ⟨31, 0⟩, .ro, true, 0, 0xFFFFFFFF⟩]⟩,
  ⟨"TL_STATUS", 0x10008, [], 0x0, [
    ⟨"OFFSET", ⟨31, 16⟩, .ro, true, 0, 65535⟩,
    ⟨"EVER_LOCKED", ⟨11, 11⟩, .ro, false, 0, 1⟩,
    ⟨"SOURCE", ⟨10, 8⟩, .ro, true, 0, 7⟩,
    ⟨"STATE", ⟨2, 0⟩, .ro, true, 0, 7⟩]⟩,
  ⟨"TL_CTRL", 0x1000C, [], 0xA03E801, [
    ⟨"HOLDOVER_S", ⟨31, 24⟩, .sh, false, 1, 255⟩,
    ⟨"STEP_THRESH_US", ⟨23, 8⟩, .sh, false, 1, 65535⟩,
    ⟨"BACKUP", ⟨6, 4⟩, .sh, false, 0, 5⟩,
    ⟨"PRIMARY", ⟨2, 0⟩, .sh, false, 0, 5⟩]⟩,
  ⟨"TL_FREQ", 0x10010, [], 0x0, [
    ⟨"PPB", ⟨31, 0⟩, .ro, true, 0, 0xFFFFFFFF⟩]⟩,
  ⟨"TL_STEPS", 0x10014, [], 0x0, [
    ⟨"STEPS", ⟨15, 0⟩, .ro, false, 0, 65535⟩]⟩,
  ⟨"TL_EVENT", 0x10018, [], 0x0, [
    ⟨"SOURCE_CHANGE", ⟨3, 3⟩, .w1c, false, 0, 1⟩,
    ⟨"LOST", ⟨2, 2⟩, .w1c, false, 0, 1⟩,
    ⟨"HOLDOVER", ⟨1, 1⟩, .w1c, false, 0, 1⟩,
    ⟨"STEP", ⟨0, 0⟩, .w1c, false, 0, 1⟩]⟩]

def regsICU : List RegSpec := [
  ⟨"ICU_SRC_CFG", 0x20000, [(0x4, 512)], 0x0, [
    ⟨"MODE", ⟨31, 31⟩, .rw, false, 0, 1⟩,
    ⟨"TARGETS", ⟨19, 16⟩, .rw, false, 0, 15⟩,
    ⟨"PRIORITY", ⟨3, 0⟩, .rw, false, 0, 15⟩]⟩,
  ⟨"ICU_PEND", 0x20800, [(0x4, 16)], 0x0, [
    ⟨"SOURCES", ⟨31, 0⟩, .ro, false, 0, 0xFFFFFFFF⟩]⟩,
  ⟨"ICU_ACT", 0x20840, [(0x4, 16)], 0x0, [
    ⟨"SOURCES", ⟨31, 0⟩, .ro, false, 0, 0xFFFFFFFF⟩]⟩,
  ⟨"ICU_T_THRESH", 0x21000, [(0x20, 4)], 0x0, [
    ⟨"PRIORITY", ⟨3, 0⟩, .rw, false, 0, 15⟩]⟩,
  ⟨"ICU_T_STATUS", 0x21004, [(0x20, 4)], 0x3FF, [
    ⟨"RUN_PRIO", ⟨31, 28⟩, .ro, false, 0, 15⟩,
    ⟨"DEPTH", ⟨27, 24⟩, .ro, false, 0, 15⟩,
    ⟨"ID", ⟨9, 0⟩, .ro, false, 0, 1023⟩]⟩,
  ⟨"ICU_T_EOI", 0x21008, [(0x20, 4)], 0x0, [
    ⟨"ID", ⟨9, 0⟩, .wo, false, 0, 1023⟩]⟩,
  ⟨"ICU_T_EVENT", 0x2100C, [(0x20, 4)], 0x0, [
    ⟨"EOI_BAD", ⟨1, 1⟩, .w1c, false, 0, 1⟩,
    ⟨"SPURIOUS", ⟨0, 0⟩, .w1c, false, 0, 1⟩]⟩,
  ⟨"ICU_SWI_SET", 0x21200, [], 0x0, [
    ⟨"ID", ⟨9, 0⟩, .wo, false, 0, 1023⟩]⟩,
  ⟨"ICU_SWI_CLR", 0x21204, [], 0x0, [
    ⟨"ID", ⟨9, 0⟩, .wo, false, 0, 1023⟩]⟩]

def regsCVU : List RegSpec := [
  ⟨"CVU_CTRL", 0x30000, [(0x1000, 8)], 0x0, [
    ⟨"MATCH_NODE", ⟨5, 5⟩, .rw, false, 0, 1⟩,
    ⟨"COMPARE", ⟨4, 4⟩, .rw, false, 0, 1⟩,
    ⟨"CHAIN", ⟨3, 3⟩, .rw, false, 0, 1⟩,
    ⟨"TAP", ⟨2, 2⟩, .rw, false, 0, 1⟩,
    ⟨"POLY", ⟨1, 0⟩, .rw, false, 0, 3⟩]⟩,
  ⟨"CVU_ADDR_LO", 0x30004, [(0x1000, 8)], 0x0, [
    ⟨"ADDR_LO", ⟨31, 0⟩, .rw, false, 0, 0xFFFFFFFF⟩]⟩,
  ⟨"CVU_ADDR_HI", 0x30008, [(0x1000, 8)], 0x0, [
    ⟨"ADDR_HI", ⟨11, 0⟩, .rw, false, 0, 4095⟩]⟩,
  ⟨"CVU_LENGTH", 0x3000C, [(0x1000, 8)], 0x0, [
    ⟨"LENGTH", ⟨31, 0⟩, .rw, false, 1, 0xFFFFFFFF⟩]⟩,
  ⟨"CVU_TAP", 0x30010, [(0x1000, 8)], 0x0, [
    ⟨"UNIT", ⟨31, 16⟩, .rw, false, 0, 65535⟩,
    ⟨"NODE_SLOT", ⟨11, 0⟩, .rw, false, 0, 4095⟩]⟩,
  ⟨"CVU_EXPECTED", 0x30014, [(0x1000, 8)], 0x0, [
    ⟨"VALUE", ⟨31, 0⟩, .rw, false, 0, 0xFFFFFFFF⟩]⟩,
  ⟨"CVU_GO", 0x30018, [(0x1000, 8)], 0x0, [
    ⟨"CANCEL", ⟨1, 1⟩, .wo, false, 0, 1⟩,
    ⟨"GO", ⟨0, 0⟩, .wo, false, 0, 1⟩]⟩,
  ⟨"CVU_STATUS", 0x3001C, [(0x1000, 8)], 0x0, [
    ⟨"OWNER", ⟨15, 12⟩, .ro, false, 0, 15⟩,
    ⟨"RESULT", ⟨6, 4⟩, .ro, false, 0, 7⟩,
    ⟨"STATE", ⟨2, 0⟩, .ro, false, 0, 7⟩]⟩,
  ⟨"CVU_RESULT", 0x30020, [(0x1000, 8)], 0x0, [
    ⟨"VALUE", ⟨31, 0⟩, .ro, false, 0, 0xFFFFFFFF⟩]⟩,
  ⟨"CVU_BYTES", 0x30024, [(0x1000, 8)], 0x0, [
    ⟨"COUNT", ⟨31, 0⟩, .ro, false, 0, 0xFFFFFFFF⟩]⟩,
  ⟨"CVU_EVENT", 0x30028, [(0x1000, 8)], 0x0, [
    ⟨"REFUSED", ⟨3, 3⟩, .w1c, false, 0, 1⟩,
    ⟨"ABORTED", ⟨2, 2⟩, .w1c, false, 0, 1⟩,
    ⟨"ERROR", ⟨1, 1⟩, .w1c, false, 0, 1⟩,
    ⟨"MISMATCH", ⟨0, 0⟩, .w1c, false, 0, 1⟩]⟩]

def regsFWL : List RegSpec := [
  ⟨"FWL_SEL", 0x40000, [], 0x0, [
    ⟨"TARGET", ⟨31, 16⟩, .rw, false, 0, 65535⟩,
    ⟨"REGION", ⟨4, 0⟩, .rw, false, 0, 31⟩]⟩,
  ⟨"FWL_RGN_CTRL", 0x40004, [], 0x0, [
    ⟨"ENABLE", ⟨31, 31⟩, .rw, false, 0, 1⟩,
    ⟨"LOCK", ⟨30, 30⟩, .rw, false, 0, 1⟩,
    ⟨"ANY", ⟨10, 10⟩, .rw, false, 0, 1⟩,
    ⟨"INITIATOR", ⟨9, 0⟩, .rw, false, 0, 1023⟩]⟩,
  ⟨"FWL_RGN_BASE_LO", 0x40008, [], 0x0, [
    ⟨"BASE_LO", ⟨31, 12⟩, .sh, false, 0, 0xFFFFF⟩]⟩,
  ⟨"FWL_RGN_BASE_HI", 0x4000C, [], 0x0, [
    ⟨"BASE_HI", ⟨9, 0⟩, .sh, false, 0, 1023⟩]⟩,
  ⟨"FWL_RGN_PAGES", 0x40010, [], 0x0, [
    ⟨"PAGES", ⟨29, 0⟩, .sh, false, 0, 0x3FFFFFFF⟩]⟩,
  ⟨"FWL_RGN_DOMAINS", 0x40014, [], 0x0, [
    ⟨"WRITE_DOMAINS", ⟨31, 16⟩, .sh, false, 0, 65535⟩,
    ⟨"READ_DOMAINS", ⟨15, 0⟩, .sh, false, 0, 65535⟩]⟩,
  ⟨"FWL_REFUSE_LO", 0x40020, [], 0x0, [
    ⟨"ADDR_LO", ⟨31, 0⟩, .ro, false, 0, 0xFFFFFFFF⟩]⟩,
  ⟨"FWL_REFUSE_HI", 0x40024, [], 0x0, [
    ⟨"VALID", ⟨31, 31⟩, .ro, false, 0, 1⟩,
    ⟨"WRITE", ⟨30, 30⟩, .ro, false, 0, 1⟩,
    ⟨"DOMAIN", ⟨29, 26⟩, .ro, false, 0, 15⟩,
    ⟨"INITIATOR", ⟨25, 16⟩, .ro, false, 0, 1023⟩,
    ⟨"ADDR_HI", ⟨11, 0⟩, .ro, false, 0, 4095⟩]⟩,
  ⟨"FWL_REFUSE_TGT", 0x40028, [], 0x0, [
    ⟨"TARGET", ⟨15, 0⟩, .ro, false, 0, 65535⟩]⟩,
  ⟨"FWL_REFUSE_CNT", 0x4002C, [], 0x0, [
    ⟨"COUNT", ⟨31, 0⟩, .ro, false, 0, 0xFFFFFFFF⟩]⟩,
  ⟨"FWL_EVENT", 0x40030, [], 0x0, [
    ⟨"LOCKED_WRITE", ⟨1, 1⟩, .w1c, false, 0, 1⟩,
    ⟨"REFUSED", ⟨0, 0⟩, .w1c, false, 0, 1⟩]⟩,
  ⟨"FWL_CLR", 0x40034, [], 0x0, [
    ⟨"COUNT", ⟨1, 1⟩, .wo, false, 0, 1⟩,
    ⟨"LATCH", ⟨0, 0⟩, .wo, false, 0, 1⟩]⟩]

def regsFGS0 : List RegSpec := [
  ⟨"FGS_TICK", 0x100000, [], 0x3E8, [
    ⟨"TICK_NS", ⟨13, 0⟩, .sh, false, 100, 10000⟩]⟩,
  ⟨"FGS_AFFINITY", 0x100004, [], 0x32, [
    ⟨"FORGET", ⟨24, 24⟩, .wo, false, 0, 1⟩,
    ⟨"CLASS_OFF", ⟨23, 16⟩, .sh, false, 0, 255⟩,
    ⟨"WINDOW", ⟨7, 0⟩, .sh, false, 0, 200⟩]⟩,
  ⟨"FGS_STATUS", 0x100010, [], 0x0, [
    ⟨"RUN", ⟨31, 31⟩, .ro, false, 0, 1⟩,
    ⟨"DELAY_USED", ⟨26, 16⟩, .ro, false, 0, 2047⟩,
    ⟨"STORE_USED", ⟨12, 0⟩, .ro, false, 0, 8191⟩]⟩,
  ⟨"FGS_HWM", 0x100014, [], 0x0, [
    ⟨"DELAY_HWM", ⟨26, 16⟩, .ro, false, 0, 2047⟩,
    ⟨"STORE_HWM", ⟨12, 0⟩, .ro, false, 0, 8191⟩]⟩,
  ⟨"FGS_EVENT", 0x100018, [], 0x0, [
    ⟨"DELAY_FULL", ⟨14, 14⟩, .w1c, false, 0, 1⟩,
    ⟨"VOID_RELEASE", ⟨13, 13⟩, .w1c, false, 0, 1⟩,
    ⟨"RERUN_LIMIT", ⟨12, 12⟩, .w1c, false, 0, 1⟩,
    ⟨"RERUN", ⟨11, 11⟩, .w1c, false, 0, 1⟩,
    ⟨"MATCH_TIMEOUT", ⟨10, 10⟩, .w1c, false, 0, 1⟩,
    ⟨"NOT_OWNER", ⟨9, 9⟩, .w1c, false, 0, 1⟩,
    ⟨"UNKNOWN_NODE", ⟨8, 8⟩, .w1c, false, 0, 1⟩,
    ⟨"STALE_TOKEN", ⟨7, 7⟩, .w1c, false, 0, 1⟩,
    ⟨"DUP_TOKEN", ⟨6, 6⟩, .w1c, false, 0, 1⟩,
    ⟨"FLOW_STALL", ⟨5, 5⟩, .w1c, false, 0, 1⟩,
    ⟨"DEADLOCK", ⟨4, 4⟩, .w1c, false, 0, 1⟩,
    ⟨"LATE_RELEASE", ⟨3, 3⟩, .w1c, false, 0, 1⟩,
    ⟨"DEADLINE_MISS", ⟨2, 2⟩, .w1c, false, 0, 1⟩,
    ⟨"STALLED", ⟨1, 1⟩, .w1c, false, 0, 1⟩,
    ⟨"REFUSED", ⟨0, 0⟩, .w1c, false, 0, 1⟩]⟩,
  ⟨"FGS_EVENT_EN", 0x10001C, [], 0x0, [
    ⟨"ENABLE", ⟨14, 0⟩, .rw, false, 0, 32767⟩]⟩,
  ⟨"FGS_CNT", 0x100020, [(0x4, 4)], 0x0, [
    ⟨"COUNT", ⟨31, 0⟩, .ro, false, 0, 0xFFFFFFFF⟩]⟩,
  ⟨"FGS_CNT_CLR", 0x100038, [], 0x0, [
    ⟨"HWM", ⟨8, 8⟩, .wo, false, 0, 1⟩,
    ⟨"COUNTERS", ⟨5, 0⟩, .wo, false, 0, 63⟩]⟩,
  ⟨"FGS_POST_SB", 0x100040, [], 0x0, [
    ⟨"KIND", ⟨5, 4⟩, .rw, false, 0, 1⟩,
    ⟨"OPERAND", ⟨2, 0⟩, .rw, false, 0, 7⟩]⟩,
  ⟨"FGS_POST_LO", 0x100044, [], 0x0, [
    ⟨"TOKEN_LO", ⟨31, 0⟩, .rw, false, 0, 0xFFFFFFFF⟩]⟩,
  ⟨"FGS_POST_HI", 0x100048, [], 0x0, [
    ⟨"TOKEN_HI", ⟨31, 0⟩, .wo, false, 0, 0xFFFFFFFF⟩]⟩,
  ⟨"FGS_POST_RESULT", 0x10004C, [], 0x0, [
    ⟨"BUSY", ⟨31, 31⟩, .ro, false, 0, 1⟩,
    ⟨"RESULT", ⟨2, 0⟩, .ro, false, 0, 7⟩]⟩,
  ⟨"FGS_CANCEL_NODE", 0x100050, [], 0x0, [
    ⟨"ALL_SEQ", ⟨31, 31⟩, .rw, false, 0, 1⟩,
    ⟨"ALL_TILES", ⟨30, 30⟩, .rw, false, 0, 1⟩,
    ⟨"NODE_SLOT", ⟨27, 16⟩, .rw, false, 0, 4095⟩,
    ⟨"TILE", ⟨11, 0⟩, .rw, false, 0, 4095⟩]⟩,
  ⟨"FGS_CANCEL_SEQ", 0x100054, [], 0x0, [
    ⟨"SEQUENCE", ⟨31, 0⟩, .rw, false, 0, 0xFFFFFFFF⟩]⟩,
  ⟨"FGS_CANCEL_GO", 0x100058, [], 0x0, [
    ⟨"GO", ⟨0, 0⟩, .wo, false, 0, 1⟩]⟩,
  ⟨"FGS_CANCEL_STATUS", 0x10005C, [], 0x0, [
    ⟨"BUSY", ⟨31, 31⟩, .ro, false, 0, 1⟩,
    ⟨"COUNT", ⟨12, 0⟩, .ro, false, 0, 8191⟩]⟩,
  ⟨"FGS_CLASS_STATUS", 0x100080, [(0x4, 8)], 0x0, [
    ⟨"BUSY_UNITS", ⟨28, 24⟩, .ro, false, 0, 31⟩,
    ⟨"TOP_PRIORITY", ⟨22, 20⟩, .ro, false, 0, 7⟩,
    ⟨"ANY_READY", ⟨19, 19⟩, .ro, false, 0, 1⟩,
    ⟨"READY_COUNT", ⟨12, 0⟩, .ro, false, 0, 8191⟩]⟩,
  ⟨"FGS_PC_DISP0", 0x100100, [(0x20, 4)], 0x0, [
    ⟨"VALID", ⟨31, 31⟩, .ro, false, 0, 1⟩,
    ⟨"PREEMPT", ⟨30, 30⟩, .ro, false, 0, 1⟩,
    ⟨"BANK", ⟨29, 28⟩, .ro, false, 0, 3⟩,
    ⟨"NODE_SLOT", ⟨27, 16⟩, .ro, false, 0, 4095⟩,
    ⟨"TILE", ⟨11, 0⟩, .ro, false, 0, 4095⟩]⟩,
  ⟨"FGS_PC_DISP1", 0x100104, [(0x20, 4)], 0x0, [
    ⟨"SEQUENCE", ⟨31, 0⟩, .ro, false, 0, 0xFFFFFFFF⟩]⟩,
  ⟨"FGS_PC_DISP2", 0x100108, [(0x20, 4)], 0x0, [
    ⟨"DOMAIN", ⟨31, 28⟩, .ro, false, 0, 15⟩,
    ⟨"FW_ID", ⟨23, 18⟩, .ro, false, 0, 63⟩,
    ⟨"GEN", ⟨17, 12⟩, .ro, false, 0, 63⟩,
    ⟨"ENTRY", ⟨11, 0⟩, .ro, false, 0, 4095⟩]⟩,
  ⟨"FGS_PC_DISP3", 0x10010C, [(0x20, 4)], 0x0, [
    ⟨"DEADLINE_LO", ⟨31, 0⟩, .ro, false, 0, 0xFFFFFFFF⟩]⟩,
  ⟨"FGS_PC_DONE", 0x100110, [(0x20, 4)], 0x0, [
    ⟨"STATUS", ⟨31, 30⟩, .wo, false, 0, 1⟩,
    ⟨"GEN", ⟨17, 12⟩, .wo, false, 0, 63⟩,
    ⟨"ENTRY", ⟨11, 0⟩, .wo, false, 0, 4095⟩]⟩,
  ⟨"FGS_FLOW_SEL", 0x100200, [], 0x0, [
    ⟨"FLOW", ⟨7, 0⟩, .rw, false, 0, 255⟩]⟩,
  ⟨"FGS_FLOW_STATUS", 0x100204, [], 0x0, [
    ⟨"BOUND", ⟨31, 31⟩, .ro, false, 0, 1⟩,
    ⟨"MODE", ⟨30, 30⟩, .ro, false, 0, 1⟩,
    ⟨"IN_WINDOW", ⟨29, 23⟩, .ro, false, 0, 127⟩,
    ⟨"IDLE_PERIODS", ⟨22, 20⟩, .ro, false, 0, 7⟩,
    ⟨"WINDOW", ⟨6, 0⟩, .ro, false, 0, 127⟩]⟩]

def regsFGS1 : List RegSpec := [
  ⟨"FGS_FLOW_HEAD", 0x100208, [], 0x0, [
    ⟨"HEAD", ⟨31, 0⟩, .ro, false, 0, 0xFFFFFFFF⟩]⟩,
  ⟨"FGS_DEADLOCK_LAST", 0x100210, [], 0x0, [
    ⟨"VICTIM", ⟨27, 16⟩, .ro, false, 0, 4095⟩,
    ⟨"IMPLICIT", ⟨15, 15⟩, .ro, false, 0, 1⟩,
    ⟨"STUCK", ⟨11, 0⟩, .ro, false, 0, 4095⟩]⟩]

def regsCFE : List RegSpec := [
  ⟨"CFE_PORT_STATUS", 0x200000, [(0x40, 4)], 0x0, [
    ⟨"LANE_FAIL", ⟨11, 8⟩, .ro, false, 0, 15⟩,
    ⟨"STATE", ⟨5, 4⟩, .ro, false, 0, 3⟩,
    ⟨"LANES", ⟨2, 0⟩, .ro, false, 0, 7⟩]⟩,
  ⟨"CFE_PORT_ERR", 0x200004, [(0x40, 4)], 0x0, [
    ⟨"IBI", ⟨6, 6⟩, .w1c, false, 0, 1⟩,
    ⟨"EXTRA_FRAME", ⟨5, 5⟩, .w1c, false, 0, 1⟩,
    ⟨"DT_MISMATCH", ⟨4, 4⟩, .w1c, false, 0, 1⟩,
    ⟨"UNUSED_VC", ⟨3, 3⟩, .w1c, false, 0, 1⟩,
    ⟨"CRC", ⟨2, 2⟩, .w1c, false, 0, 1⟩,
    ⟨"HDR_LOST", ⟨1, 1⟩, .w1c, false, 0, 1⟩,
    ⟨"HDR_CORR", ⟨0, 0⟩, .w1c, false, 0, 1⟩]⟩,
  ⟨"CFE_PORT_CNT", 0x200010, [(0x40, 4), (0x4, 4)], 0x0, [
    ⟨"COUNT", ⟨31, 0⟩, .ro, false, 0, 0xFFFFFFFF⟩]⟩,
  ⟨"CFE_PORT_CNT_CLR", 0x200020, [(0x40, 4)], 0x0, [
    ⟨"COUNTERS", ⟨3, 0⟩, .wo, false, 0, 15⟩]⟩,
  ⟨"CFE_STREAM_STATE", 0x200400, [(0x20, 24)], 0x0, [
    ⟨"BATCH_PENDING", ⟨8, 8⟩, .ro, false, 0, 1⟩,
    ⟨"OPEN", ⟨7, 7⟩, .ro, false, 0, 1⟩,
    ⟨"PATH", ⟨6, 4⟩, .ro, false, 0, 7⟩,
    ⟨"COUNTING", ⟨3, 3⟩, .ro, false, 0, 1⟩]⟩,
  ⟨"CFE_STREAM_SEQ", 0x200404, [(0x20, 24)], 0x0, [
    ⟨"SEQUENCE", ⟨31, 0⟩, .ro, false, 0, 0xFFFFFFFF⟩]⟩,
  ⟨"CFE_STREAM_EVENT", 0x200408, [(0x20, 24)], 0x0, [
    ⟨"FLAGS_HI", ⟨17, 16⟩, .w1c, false, 0, 3⟩,
    ⟨"FLAGS_LO", ⟨11, 0⟩, .w1c, false, 0, 4095⟩]⟩,
  ⟨"CFE_STREAM_EPOCH", 0x20040C, [(0x20, 24)], 0x0, [
    ⟨"LAST_EPOCH", ⟨31, 0⟩, .ro, false, 0, 0xFFFFFFFF⟩]⟩,
  ⟨"CFE_STREAM_EPOCH_FROM", 0x200410, [(0x20, 24)], 0x0, [
    ⟨"SEQUENCE", ⟨31, 0⟩, .ro, false, 0, 0xFFFFFFFF⟩]⟩,
  ⟨"CFE_FSYNC_CTRL", 0x200800, [(0x10, 4)], 0xA, [
    ⟨"ACTIVE_LOW", ⟨8, 8⟩, .sh, false, 0, 1⟩,
    ⟨"WIDTH_US", ⟨7, 0⟩, .sh, false, 1, 255⟩]⟩,
  ⟨"CFE_FSYNC_COUNT", 0x200804, [(0x10, 4)], 0x0, [
    ⟨"PULSES", ⟨31, 0⟩, .ro, false, 0, 0xFFFFFFFF⟩]⟩,
  ⟨"CFE_I3C_CTRL", 0x200900, [(0x20, 4)], 0x0, [
    ⟨"MIXED", ⟨2, 2⟩, .sh, false, 0, 1⟩,
    ⟨"RATE", ⟨1, 0⟩, .sh, false, 0, 2⟩]⟩,
  ⟨"CFE_I3C_BATCH_LO", 0x200904, [(0x20, 4)], 0x0, [
    ⟨"ADDR_LO", ⟨31, 3⟩, .rw, false, 0, 0x1FFFFFFF⟩]⟩,
  ⟨"CFE_I3C_BATCH_HI", 0x200908, [(0x20, 4)], 0x0, [
    ⟨"ADDR_HI", ⟨9, 0⟩, .rw, false, 0, 1023⟩]⟩,
  ⟨"CFE_I3C_BATCH_GO", 0x20090C, [(0x20, 4)], 0x0, [
    ⟨"STREAM", ⟨12, 8⟩, .wo, false, 0, 31⟩,
    ⟨"COUNT", ⟨6, 0⟩, .wo, false, 0, 127⟩]⟩,
  ⟨"CFE_I3C_BATCH_STATUS", 0x200910, [(0x20, 4)], 0x0, [
    ⟨"STREAM", ⟨12, 8⟩, .ro, false, 0, 31⟩,
    ⟨"STATE", ⟨6, 4⟩, .ro, false, 0, 7⟩,
    ⟨"RESULT", ⟨2, 0⟩, .ro, false, 0, 7⟩]⟩,
  ⟨"CFE_TINDER_CTRL", 0x200A00, [], 0x10, [
    ⟨"LINES", ⟨6, 0⟩, .sh, false, 8, 64⟩]⟩,
  ⟨"CFE_TINDER_CNT", 0x200A04, [], 0x0, [
    ⟨"ABORTED", ⟨31, 16⟩, .ro, false, 0, 65535⟩,
    ⟨"COMPLETED", ⟨15, 0⟩, .ro, false, 0, 65535⟩]⟩]

def regsISP : List RegSpec := [
  ⟨"ISP_STATUS", 0x240000, [(0x1000, 4)], 0x0, [
    ⟨"SERVICE", ⟨8, 8⟩, .ro, false, 0, 1⟩,
    ⟨"BANK", ⟨6, 4⟩, .ro, false, 0, 7⟩,
    ⟨"STATE", ⟨2, 0⟩, .ro, false, 0, 7⟩]⟩,
  ⟨"ISP_ERR", 0x240004, [(0x1000, 4)], 0x0, [
    ⟨"PARITY", ⟨4, 4⟩, .w1c, false, 0, 1⟩,
    ⟨"DISCARD", ⟨3, 3⟩, .w1c, false, 0, 1⟩,
    ⟨"UPD_REFUSED", ⟨2, 2⟩, .w1c, false, 0, 1⟩,
    ⟨"PREEMPT", ⟨1, 1⟩, .w1c, false, 0, 1⟩,
    ⟨"OVERRUN", ⟨0, 0⟩, .w1c, false, 0, 1⟩]⟩,
  ⟨"ISP_CNT", 0x240010, [(0x1000, 4), (0x4, 4)], 0x0, [
    ⟨"COUNT", ⟨31, 0⟩, .ro, false, 0, 0xFFFFFFFF⟩]⟩,
  ⟨"ISP_CNT_CLR", 0x240020, [(0x1000, 4)], 0x0, [
    ⟨"COUNTERS", ⟨3, 0⟩, .wo, false, 0, 15⟩]⟩,
  ⟨"ISP_BANK", 0x240040, [(0x1000, 4), (0x4, 8)], 0x0, [
    ⟨"VALID", ⟨31, 31⟩, .ro, false, 0, 1⟩,
    ⟨"QUEUED", ⟨26, 24⟩, .ro, false, 0, 7⟩,
    ⟨"STREAM", ⟨20, 16⟩, .ro, false, 0, 31⟩,
    ⟨"VERSION", ⟨15, 0⟩, .ro, false, 0, 65535⟩]⟩,
  ⟨"ISP_UPD_LO", 0x240100, [(0x1000, 4)], 0x0, [
    ⟨"ADDR_LO", ⟨31, 4⟩, .rw, false, 0, 0xFFFFFFF⟩]⟩,
  ⟨"ISP_UPD_HI", 0x240104, [(0x1000, 4)], 0x0, [
    ⟨"ADDR_HI", ⟨9, 0⟩, .rw, false, 0, 1023⟩]⟩,
  ⟨"ISP_UPD_GO", 0x240108, [(0x1000, 4)], 0x0, [
    ⟨"GO", ⟨0, 0⟩, .wo, false, 0, 1⟩]⟩,
  ⟨"ISP_UPD_STATUS", 0x24010C, [(0x1000, 4)], 0x0, [
    ⟨"BUSY", ⟨31, 31⟩, .ro, false, 0, 1⟩,
    ⟨"STREAM", ⟨20, 16⟩, .ro, false, 0, 31⟩,
    ⟨"RESULT", ⟨2, 0⟩, .ro, false, 0, 7⟩]⟩]

def regsFTR : List RegSpec := [
  ⟨"FTR_STATUS", 0x2C0000, [(0x10000, 4)], 0x0, [
    ⟨"DOMAIN", ⟨31, 28⟩, .ro, false, 0, 15⟩,
    ⟨"NODE_SLOT", ⟨27, 16⟩, .ro, false, 0, 4095⟩,
    ⟨"TILE", ⟨15, 4⟩, .ro, false, 0, 4095⟩,
    ⟨"MATCH", ⟨3, 3⟩, .ro, false, 0, 1⟩,
    ⟨"STATE", ⟨2, 0⟩, .ro, false, 0, 7⟩]⟩,
  ⟨"FTR_ERR", 0x2C0004, [(0x10000, 4)], 0x0, [
    ⟨"PAT_PARITY", ⟨7, 7⟩, .w1c, false, 0, 1⟩,
    ⟨"LB_PARITY", ⟨6, 6⟩, .w1c, false, 0, 1⟩,
    ⟨"BUS_ERR", ⟨5, 5⟩, .w1c, false, 0, 1⟩,
    ⟨"DESC_INVALID", ⟨4, 4⟩, .w1c, false, 0, 1⟩,
    ⟨"QUOTA", ⟨3, 3⟩, .w1c, false, 0, 1⟩,
    ⟨"ABSENT", ⟨2, 2⟩, .w1c, false, 0, 1⟩,
    ⟨"DROPPED", ⟨1, 1⟩, .w1c, false, 0, 1⟩,
    ⟨"MOTION_MISS", ⟨0, 0⟩, .w1c, false, 0, 1⟩]⟩,
  ⟨"FTR_ERR_EN", 0x2C0008, [(0x10000, 4)], 0x0, [
    ⟨"ENABLE", ⟨7, 0⟩, .rw, false, 0, 255⟩]⟩,
  ⟨"FTR_LAST_FAULT", 0x2C000C, [(0x10000, 4)], 0x0, [
    ⟨"CODE", ⟨31, 28⟩, .ro, false, 0, 15⟩,
    ⟨"NODE_SLOT", ⟨27, 16⟩, .ro, false, 0, 4095⟩,
    ⟨"TILE", ⟨11, 0⟩, .ro, false, 0, 4095⟩]⟩,
  ⟨"FTR_CNT", 0x2C0010, [(0x10000, 4), (0x4, 9)], 0x0, [
    ⟨"COUNT", ⟨31, 0⟩, .ro, false, 0, 0xFFFFFFFF⟩]⟩,
  ⟨"FTR_CNT_CLR", 0x2C0034, [(0x10000, 4)], 0x0, [
    ⟨"COUNTERS", ⟨8, 0⟩, .wo, false, 0, 511⟩]⟩]

def regsWRP : List RegSpec := [
  ⟨"WRP_STATUS", 0x300000, [(0x10000, 4)], 0x0, [
    ⟨"DOMAIN", ⟨31, 28⟩, .ro, false, 0, 15⟩,
    ⟨"NODE_SLOT", ⟨27, 16⟩, .ro, false, 0, 4095⟩,
    ⟨"TILE", ⟨15, 4⟩, .ro, false, 0, 4095⟩,
    ⟨"CARRY", ⟨3, 3⟩, .ro, false, 0, 1⟩,
    ⟨"STATE", ⟨2, 0⟩, .ro, false, 0, 7⟩]⟩,
  ⟨"WRP_ERR", 0x300004, [(0x10000, 4)], 0x0, [
    ⟨"LB_PARITY", ⟨6, 6⟩, .w1c, false, 0, 1⟩,
    ⟨"BUS_ERR", ⟨5, 5⟩, .w1c, false, 0, 1⟩,
    ⟨"DESC_INVALID", ⟨4, 4⟩, .w1c, false, 0, 1⟩,
    ⟨"FOOTPRINT", ⟨3, 3⟩, .w1c, false, 0, 1⟩,
    ⟨"ABSENT", ⟨2, 2⟩, .w1c, false, 0, 1⟩,
    ⟨"DROPPED", ⟨1, 1⟩, .w1c, false, 0, 1⟩,
    ⟨"OOB", ⟨0, 0⟩, .w1c, false, 0, 1⟩]⟩,
  ⟨"WRP_ERR_EN", 0x300008, [(0x10000, 4)], 0x0, [
    ⟨"ENABLE", ⟨6, 0⟩, .rw, false, 0, 127⟩]⟩,
  ⟨"WRP_LAST_FAULT", 0x30000C, [(0x10000, 4)], 0x0, [
    ⟨"CODE", ⟨31, 28⟩, .ro, false, 0, 15⟩,
    ⟨"NODE_SLOT", ⟨27, 16⟩, .ro, false, 0, 4095⟩,
    ⟨"TILE", ⟨11, 0⟩, .ro, false, 0, 4095⟩]⟩,
  ⟨"WRP_CNT", 0x300010, [(0x10000, 4), (0x4, 6)], 0x0, [
    ⟨"COUNT", ⟨31, 0⟩, .ro, false, 0, 0xFFFFFFFF⟩]⟩,
  ⟨"WRP_CNT_CLR", 0x300028, [(0x10000, 4)], 0x0, [
    ⟨"COUNTERS", ⟨5, 0⟩, .wo, false, 0, 63⟩]⟩]

def regsPYR : List RegSpec := [
  ⟨"PYR_STATUS", 0x340000, [(0x10000, 4)], 0x0, [
    ⟨"DOMAIN", ⟨31, 28⟩, .ro, false, 0, 15⟩,
    ⟨"NODE_SLOT", ⟨27, 16⟩, .ro, false, 0, 4095⟩,
    ⟨"TILE", ⟨15, 4⟩, .ro, false, 0, 4095⟩,
    ⟨"CARRY", ⟨3, 3⟩, .ro, false, 0, 1⟩,
    ⟨"STATE", ⟨2, 0⟩, .ro, false, 0, 7⟩]⟩,
  ⟨"PYR_ERR", 0x340004, [(0x10000, 4)], 0x0, [
    ⟨"LB_PARITY", ⟨6, 6⟩, .w1c, false, 0, 1⟩,
    ⟨"BUS_ERR", ⟨5, 5⟩, .w1c, false, 0, 1⟩,
    ⟨"DESC_INVALID", ⟨4, 4⟩, .w1c, false, 0, 1⟩,
    ⟨"FOOTPRINT", ⟨3, 3⟩, .w1c, false, 0, 1⟩,
    ⟨"ABSENT", ⟨2, 2⟩, .w1c, false, 0, 1⟩,
    ⟨"DROPPED", ⟨1, 1⟩, .w1c, false, 0, 1⟩,
    ⟨"OOB", ⟨0, 0⟩, .w1c, false, 0, 1⟩]⟩,
  ⟨"PYR_ERR_EN", 0x340008, [(0x10000, 4)], 0x0, [
    ⟨"ENABLE", ⟨6, 0⟩, .rw, false, 0, 127⟩]⟩,
  ⟨"PYR_LAST_FAULT", 0x34000C, [(0x10000, 4)], 0x0, [
    ⟨"CODE", ⟨31, 28⟩, .ro, false, 0, 15⟩,
    ⟨"NODE_SLOT", ⟨27, 16⟩, .ro, false, 0, 4095⟩,
    ⟨"TILE", ⟨11, 0⟩, .ro, false, 0, 4095⟩]⟩,
  ⟨"PYR_CNT", 0x340010, [(0x10000, 4), (0x4, 6)], 0x0, [
    ⟨"COUNT", ⟨31, 0⟩, .ro, false, 0, 0xFFFFFFFF⟩]⟩,
  ⟨"PYR_CNT_CLR", 0x340028, [(0x10000, 4)], 0x0, [
    ⟨"COUNTERS", ⟨5, 0⟩, .wo, false, 0, 63⟩]⟩]

def regsSTR : List RegSpec := [
  ⟨"STR_STATUS", 0x380000, [(0x10000, 4)], 0x0, [
    ⟨"DOMAIN", ⟨31, 28⟩, .ro, false, 0, 15⟩,
    ⟨"NODE_SLOT", ⟨27, 16⟩, .ro, false, 0, 4095⟩,
    ⟨"TILE", ⟨15, 4⟩, .ro, false, 0, 4095⟩,
    ⟨"REFINE", ⟨3, 3⟩, .ro, false, 0, 1⟩,
    ⟨"STATE", ⟨2, 0⟩, .ro, false, 0, 7⟩]⟩,
  ⟨"STR_ERR", 0x380004, [(0x10000, 4)], 0x0, [
    ⟨"LB_PARITY", ⟨6, 6⟩, .w1c, false, 0, 1⟩,
    ⟨"BUS_ERR", ⟨5, 5⟩, .w1c, false, 0, 1⟩,
    ⟨"DESC_INVALID", ⟨4, 4⟩, .w1c, false, 0, 1⟩,
    ⟨"MOTION_MISS", ⟨3, 3⟩, .w1c, false, 0, 1⟩,
    ⟨"ABSENT", ⟨2, 2⟩, .w1c, false, 0, 1⟩,
    ⟨"DROPPED", ⟨1, 1⟩, .w1c, false, 0, 1⟩,
    ⟨"PRED_FALLBACK", ⟨0, 0⟩, .w1c, false, 0, 1⟩]⟩,
  ⟨"STR_ERR_EN", 0x380008, [(0x10000, 4)], 0x0, [
    ⟨"ENABLE", ⟨6, 0⟩, .rw, false, 0, 127⟩]⟩,
  ⟨"STR_LAST_FAULT", 0x38000C, [(0x10000, 4)], 0x0, [
    ⟨"CODE", ⟨31, 28⟩, .ro, false, 0, 15⟩,
    ⟨"NODE_SLOT", ⟨27, 16⟩, .ro, false, 0, 4095⟩,
    ⟨"TILE", ⟨11, 0⟩, .ro, false, 0, 4095⟩]⟩,
  ⟨"STR_CNT", 0x380010, [(0x10000, 4), (0x4, 8)], 0x0, [
    ⟨"COUNT", ⟨31, 0⟩, .ro, false, 0, 0xFFFFFFFF⟩]⟩,
  ⟨"STR_CNT_CLR", 0x380030, [(0x10000, 4)], 0x0, [
    ⟨"COUNTERS", ⟨7, 0⟩, .wo, false, 0, 255⟩]⟩,
  ⟨"STR_CODE", 0x380040, [(0x10000, 4), (0x4, 8)], 0x0, [
    ⟨"COUNT", ⟨31, 0⟩, .ro, false, 0, 0xFFFFFFFF⟩]⟩,
  ⟨"STR_CODE_CLR", 0x380060, [(0x10000, 4)], 0x0, [
    ⟨"COUNTERS", ⟨7, 0⟩, .wo, false, 0, 255⟩]⟩]

def regsFLW : List RegSpec := [
  ⟨"FLW_STATUS", 0x3C0000, [(0x10000, 4)], 0x0, [
    ⟨"DOMAIN", ⟨31, 28⟩, .ro, false, 0, 15⟩,
    ⟨"NODE_SLOT", ⟨27, 16⟩, .ro, false, 0, 4095⟩,
    ⟨"TILE", ⟨15, 4⟩, .ro, false, 0, 4095⟩,
    ⟨"REFINE", ⟨3, 3⟩, .ro, false, 0, 1⟩,
    ⟨"STATE", ⟨2, 0⟩, .ro, false, 0, 7⟩]⟩,
  ⟨"FLW_ERR", 0x3C0004, [(0x10000, 4)], 0x0, [
    ⟨"LB_PARITY", ⟨6, 6⟩, .w1c, false, 0, 1⟩,
    ⟨"BUS_ERR", ⟨5, 5⟩, .w1c, false, 0, 1⟩,
    ⟨"DESC_INVALID", ⟨4, 4⟩, .w1c, false, 0, 1⟩,
    ⟨"PREV_ABSENT", ⟨3, 3⟩, .w1c, false, 0, 1⟩,
    ⟨"PRED_ABSENT", ⟨2, 2⟩, .w1c, false, 0, 1⟩,
    ⟨"DROPPED", ⟨1, 1⟩, .w1c, false, 0, 1⟩,
    ⟨"PRED_FALLBACK", ⟨0, 0⟩, .w1c, false, 0, 1⟩]⟩,
  ⟨"FLW_ERR_EN", 0x3C0008, [(0x10000, 4)], 0x0, [
    ⟨"ENABLE", ⟨6, 0⟩, .rw, false, 0, 127⟩]⟩,
  ⟨"FLW_LAST_FAULT", 0x3C000C, [(0x10000, 4)], 0x0, [
    ⟨"CODE", ⟨31, 28⟩, .ro, false, 0, 15⟩,
    ⟨"NODE_SLOT", ⟨27, 16⟩, .ro, false, 0, 4095⟩,
    ⟨"TILE", ⟨11, 0⟩, .ro, false, 0, 4095⟩]⟩,
  ⟨"FLW_CNT", 0x3C0010, [(0x10000, 4), (0x4, 8)], 0x0, [
    ⟨"COUNT", ⟨31, 0⟩, .ro, false, 0, 0xFFFFFFFF⟩]⟩,
  ⟨"FLW_CNT_CLR", 0x3C0030, [(0x10000, 4)], 0x0, [
    ⟨"COUNTERS", ⟨7, 0⟩, .wo, false, 0, 255⟩]⟩,
  ⟨"FLW_CODE", 0x3C0040, [(0x10000, 4), (0x4, 8)], 0x0, [
    ⟨"COUNT", ⟨31, 0⟩, .ro, false, 0, 0xFFFFFFFF⟩]⟩,
  ⟨"FLW_CODE_CLR", 0x3C0060, [(0x10000, 4)], 0x0, [
    ⟨"COUNTERS", ⟨7, 0⟩, .wo, false, 0, 255⟩]⟩]

def regsNT : List RegSpec := [
  ⟨"NT_STATUS", 0x400000, [(0x10000, 16)], 0x0, [
    ⟨"DOMAIN", ⟨31, 28⟩, .ro, false, 0, 15⟩,
    ⟨"NODE_SLOT", ⟨27, 16⟩, .ro, false, 0, 4095⟩,
    ⟨"TILE", ⟨15, 4⟩, .ro, false, 0, 4095⟩,
    ⟨"PHASE", ⟨3, 0⟩, .ro, false, 0, 15⟩]⟩,
  ⟨"NT_STEP", 0x400004, [(0x10000, 16)], 0x0, [
    ⟨"RERUNS", ⟨25, 24⟩, .ro, false, 0, 3⟩,
    ⟨"FROM_ZERO", ⟨21, 21⟩, .ro, false, 0, 1⟩,
    ⟨"RERUN", ⟨20, 20⟩, .ro, false, 0, 1⟩,
    ⟨"STEP", ⟨19, 0⟩, .ro, false, 0, 0xFFFFF⟩]⟩,
  ⟨"NT_SPM_SIZE", 0x400008, [(0x10000, 16)], 0x2001800, [
    ⟨"ACC_KIB", ⟨31, 16⟩, .ro, false, 0, 65535⟩,
    ⟨"SPM_KIB", ⟨15, 0⟩, .ro, false, 0, 65535⟩]⟩,
  ⟨"NT_ERR", 0x40000C, [(0x10000, 16)], 0x0, [
    ⟨"RESIDUE", ⟨11, 11⟩, .w1c, false, 0, 1⟩,
    ⟨"EXP_MISMATCH", ⟨10, 10⟩, .w1c, false, 0, 1⟩,
    ⟨"ACC_PARITY", ⟨9, 9⟩, .w1c, false, 0, 1⟩,
    ⟨"SPM_PARITY", ⟨8, 8⟩, .w1c, false, 0, 1⟩,
    ⟨"BUS_ERR", ⟨7, 7⟩, .w1c, false, 0, 1⟩,
    ⟨"ADDR_FAULT", ⟨6, 6⟩, .w1c, false, 0, 1⟩,
    ⟨"DESC_OVERLAP", ⟨5, 5⟩, .w1c, false, 0, 1⟩,
    ⟨"DESC_INVALID", ⟨4, 4⟩, .w1c, false, 0, 1⟩,
    ⟨"DROPPED", ⟨3, 3⟩, .w1c, false, 0, 1⟩,
    ⟨"ABSENT", ⟨2, 2⟩, .w1c, false, 0, 1⟩,
    ⟨"ACC_SAT", ⟨1, 1⟩, .w1c, false, 0, 1⟩,
    ⟨"ARITH", ⟨0, 0⟩, .w1c, false, 0, 1⟩]⟩,
  ⟨"NT_ERR_EN", 0x400010, [(0x10000, 16)], 0x0, [
    ⟨"ENABLE", ⟨11, 0⟩, .rw, false, 0, 4095⟩]⟩,
  ⟨"NT_LAST_FAULT", 0x400014, [(0x10000, 16)], 0x0, [
    ⟨"CODE", ⟨31, 28⟩, .ro, false, 0, 15⟩,
    ⟨"NODE_SLOT", ⟨27, 16⟩, .ro, false, 0, 4095⟩,
    ⟨"TILE", ⟨11, 0⟩, .ro, false, 0, 4095⟩]⟩,
  ⟨"NT_FAULT_STEP", 0x400018, [(0x10000, 16)], 0x0, [
    ⟨"STEP", ⟨19, 0⟩, .ro, false, 0, 0xFFFFF⟩]⟩,
  ⟨"NT_FAULT_ADDR", 0x40001C, [(0x10000, 16)], 0x0, [
    ⟨"OFFSET", ⟨22, 0⟩, .ro, false, 0, 0x7FFFFF⟩]⟩,
  ⟨"NT_CNT", 0x400020, [(0x10000, 16), (0x4, 10)], 0x0, [
    ⟨"COUNT", ⟨31, 0⟩, .ro, false, 0, 0xFFFFFFFF⟩]⟩,
  ⟨"NT_CNT_CLR", 0x400048, [(0x10000, 16)], 0x0, [
    ⟨"COUNTERS", ⟨9, 0⟩, .wo, false, 0, 1023⟩]⟩,
  ⟨"NT_WIN_CTRL", 0x400100, [(0x10000, 16), (0x10, 16)], 0x0, [
    ⟨"WRITE", ⟨2, 2⟩, .rw, false, 0, 1⟩,
    ⟨"READ", ⟨1, 1⟩, .rw, false, 0, 1⟩,
    ⟨"ENABLE", ⟨0, 0⟩, .rw, false, 0, 1⟩]⟩,
  ⟨"NT_WIN_VBASE", 0x400104, [(0x10000, 16), (0x10, 16)], 0x0, [
    ⟨"VPAGE", ⟨29, 0⟩, .rw, false, 0, 0x3FFFFFFF⟩]⟩,
  ⟨"NT_WIN_PAGES", 0x400108, [(0x10000, 16), (0x10, 16)], 0x0, [
    ⟨"PAGES", ⟨29, 0⟩, .rw, false, 0, 0x3FFFFFFF⟩]⟩,
  ⟨"NT_WIN_TBASE", 0x40010C, [(0x10000, 16), (0x10, 16)], 0x0, [
    ⟨"TPAGE", ⟨29, 0⟩, .rw, false, 0, 0x3FFFFFFF⟩]⟩,
  ⟨"NT_WIN_FAULT_LO", 0x400200, [(0x10000, 16)], 0x0, [
    ⟨"ADDR_LO", ⟨31, 0⟩, .ro, false, 0, 0xFFFFFFFF⟩]⟩,
  ⟨"NT_WIN_FAULT_HI", 0x400204, [(0x10000, 16)], 0x0, [
    ⟨"CAUSE", ⟨31, 29⟩, .ro, false, 0, 7⟩,
    ⟨"WRITE", ⟨28, 28⟩, .ro, false, 0, 1⟩,
    ⟨"WINDOW", ⟨27, 24⟩, .ro, false, 0, 15⟩,
    ⟨"OPERAND", ⟨19, 16⟩, .ro, false, 0, 15⟩,
    ⟨"ADDR_HI", ⟨11, 0⟩, .ro, false, 0, 4095⟩]⟩,
  ⟨"NT_IDX_CNT", 0x400208, [(0x10000, 16)], 0x0, [
    ⟨"COUNT", ⟨31, 0⟩, .ro, false, 0, 0xFFFFFFFF⟩]⟩,
  ⟨"NT_TCNT_CLR", 0x40020C, [(0x10000, 16)], 0x0, [
    ⟨"FAULT", ⟨1, 1⟩, .wo, false, 0, 1⟩,
    ⟨"IDX", ⟨0, 0⟩, .wo, false, 0, 1⟩]⟩,
  ⟨"NT_SPM_EVENT", 0x400300, [(0x10000, 16)], 0x0, [
    ⟨"OUT_OF_RANGE", ⟨3, 3⟩, .w1c, false, 0, 1⟩,
    ⟨"CINDER_WRITE", ⟨2, 2⟩, .w1c, false, 0, 1⟩,
    ⟨"SCRUB_PENDING", ⟨1, 1⟩, .w1c, false, 0, 1⟩,
    ⟨"CREDIT_REFUSED", ⟨0, 0⟩, .w1c, false, 0, 1⟩]⟩,
  ⟨"NT_SPM_CONF", 0x400310, [(0x10000, 16), (0x4, 5)], 0x0, [
    ⟨"COUNT", ⟨31, 0⟩, .ro, false, 0, 0xFFFFFFFF⟩]⟩,
  ⟨"NT_SPM_CONF_CLR", 0x400324, [(0x10000, 16)], 0x0, [
    ⟨"COUNTERS", ⟨4, 0⟩, .wo, false, 0, 31⟩]⟩,
  ⟨"NT_CRED_CTRL", 0x400340, [(0x10000, 16), (0x8, 16)], 0x0, [
    ⟨"VALID", ⟨31, 31⟩, .rw, false, 0, 1⟩,
    ⟨"DOMAIN", ⟨27, 24⟩, .rw, false, 0, 15⟩,
    ⟨"ANY", ⟨10, 10⟩, .rw, false, 0, 1⟩,
    ⟨"INITIATOR", ⟨9, 0⟩, .rw, false, 0, 1023⟩]⟩,
  ⟨"NT_CRED_WIN", 0x400344, [(0x10000, 16), (0x8, 16)], 0x0, [
    ⟨"LEN", ⟨29, 15⟩, .rw, false, 0, 32767⟩,
    ⟨"BASE", ⟨14, 0⟩, .rw, false, 0, 32767⟩]⟩]

def regsNE : List RegSpec := [
  ⟨"NE_PHASE_CTRL", 0x407000, [], 0x108, [
    ⟨"SAFETY_FIRST", ⟨8, 8⟩, .sh, false, 0, 1⟩,
    ⟨"IO_SLOTS", ⟨4, 0⟩, .sh, false, 1, 16⟩]⟩,
  ⟨"NE_PHASE_STATUS", 0x407004, [], 0x0, [
    ⟨"WAITING", ⟨12, 8⟩, .ro, false, 0, 31⟩,
    ⟨"IN_IO", ⟨4, 0⟩, .ro, false, 0, 31⟩]⟩,
  ⟨"NE_CLOCK", 0x407008, [], 0x5DC0000, [
    ⟨"MHZ", ⟨27, 16⟩, .ro, false, 0, 4095⟩,
    ⟨"STEP", ⟨1, 0⟩, .ro, false, 0, 3⟩]⟩]

def regsBM : List RegSpec := [
  ⟨"BM_STATUS", 0x500000, [(0x1000, 8)], 0x0, [
    ⟨"DOMAIN", ⟨31, 28⟩, .ro, false, 0, 15⟩,
    ⟨"NODE_SLOT", ⟨27, 16⟩, .ro, false, 0, 4095⟩,
    ⟨"STATE", ⟨2, 0⟩, .ro, false, 0, 7⟩]⟩,
  ⟨"BM_ERR", 0x500004, [(0x1000, 8)], 0x0, [
    ⟨"DESC_OVERLAP", ⟨4, 4⟩, .w1c, false, 0, 1⟩,
    ⟨"DESC_INVALID", ⟨3, 3⟩, .w1c, false, 0, 1⟩,
    ⟨"BUS_ERR", ⟨2, 2⟩, .w1c, false, 0, 1⟩,
    ⟨"DROPPED", ⟨1, 1⟩, .w1c, false, 0, 1⟩,
    ⟨"SLOT", ⟨0, 0⟩, .w1c, false, 0, 1⟩]⟩,
  ⟨"BM_ERR_EN", 0x500008, [(0x1000, 8)], 0x0, [
    ⟨"ENABLE", ⟨4, 0⟩, .rw, false, 0, 31⟩]⟩,
  ⟨"BM_FAULT_LO", 0x50000C, [(0x1000, 8)], 0x0, [
    ⟨"ADDR_LO", ⟨31, 0⟩, .ro, false, 0, 0xFFFFFFFF⟩]⟩,
  ⟨"BM_FAULT_HI", 0x500010, [(0x1000, 8)], 0x0, [
    ⟨"VALID", ⟨31, 31⟩, .ro, false, 0, 1⟩,
    ⟨"WRITE", ⟨30, 30⟩, .ro, false, 0, 1⟩,
    ⟨"ADDR_HI", ⟨11, 0⟩, .ro, false, 0, 4095⟩]⟩,
  ⟨"BM_RESUME", 0x500014, [(0x1000, 8)], 0x0, [
    ⟨"GO", ⟨0, 0⟩, .wo, false, 0, 1⟩]⟩,
  ⟨"BM_CNT", 0x500020, [(0x1000, 8), (0x4, 4)], 0x0, [
    ⟨"COUNT", ⟨31, 0⟩, .ro, false, 0, 0xFFFFFFFF⟩]⟩,
  ⟨"BM_CNT_CLR", 0x500030, [(0x1000, 8)], 0x0, [
    ⟨"COUNTERS", ⟨3, 0⟩, .wo, false, 0, 15⟩]⟩]

def regsMC : List RegSpec := [
  ⟨"MC_FS_EVENT", 0x600000, [], 0x0, [
    ⟨"FLAG_UE", ⟨7, 7⟩, .w1c, false, 0, 1⟩,
    ⟨"SLOT_WRITE_REFUSED", ⟨6, 6⟩, .w1c, false, 0, 1⟩,
    ⟨"SLOT_NOT_READY", ⟨5, 5⟩, .w1c, false, 0, 1⟩,
    ⟨"CINDER_WRITE", ⟨4, 4⟩, .w1c, false, 0, 1⟩,
    ⟨"SCRUB_PENDING", ⟨3, 3⟩, .w1c, false, 0, 1⟩,
    ⟨"FILL_DONE", ⟨2, 2⟩, .w1c, false, 0, 1⟩,
    ⟨"UE", ⟨1, 1⟩, .w1c, false, 0, 1⟩,
    ⟨"CE", ⟨0, 0⟩, .w1c, false, 0, 1⟩]⟩,
  ⟨"MC_FS_EVENT_EN", 0x600004, [], 0x0, [
    ⟨"ENABLE", ⟨7, 0⟩, .rw, false, 0, 255⟩]⟩,
  ⟨"MC_FS_UE_ADDR", 0x600008, [], 0x0, [
    ⟨"VALID", ⟨31, 31⟩, .ro, false, 0, 1⟩,
    ⟨"WORD", ⟨28, 3⟩, .ro, false, 0, 0x3FFFFFF⟩]⟩,
  ⟨"MC_FS_CNT", 0x600010, [(0x4, 6)], 0x0, [
    ⟨"COUNT", ⟨31, 0⟩, .ro, false, 0, 0xFFFFFFFF⟩]⟩,
  ⟨"MC_FS_CNT_CLR", 0x600028, [], 0x0, [
    ⟨"UE_ADDR", ⟨8, 8⟩, .wo, false, 0, 1⟩,
    ⟨"COUNTERS", ⟨5, 0⟩, .wo, false, 0, 63⟩]⟩,
  ⟨"MC_FLAG_SEL", 0x600040, [], 0x0, [
    ⟨"FLAG", ⟨17, 0⟩, .rw, false, 0, 0x3FFFF⟩]⟩,
  ⟨"MC_FLAG_HI", 0x600044, [], 0x0, [
    ⟨"WORD_HI", ⟨31, 0⟩, .ro, false, 0, 0xFFFFFFFF⟩]⟩,
  ⟨"MC_FLAG_LO", 0x600048, [], 0x0, [
    ⟨"WORD_LO", ⟨31, 0⟩, .ro, false, 0, 0xFFFFFFFF⟩]⟩,
  ⟨"MC_CINDER_STATUS", 0x600050, [], 0x0, [
    ⟨"FS_ENTRIES", ⟨22, 16⟩, .ro, false, 0, 127⟩,
    ⟨"LP_ENTRIES", ⟨14, 8⟩, .ro, false, 0, 127⟩,
    ⟨"FILL_BUSY", ⟨0, 0⟩, .ro, false, 0, 1⟩]⟩,
  ⟨"MC_WC_STATUS", 0x600060, [], 0x10, [
    ⟨"FENCED", ⟨19, 16⟩, .ro, false, 0, 15⟩,
    ⟨"WAYS", ⟨4, 0⟩, .ro, false, 0, 31⟩]⟩,
  ⟨"MC_WC_CNT", 0x600070, [(0x4, 4)], 0x0, [
    ⟨"COUNT", ⟨31, 0⟩, .ro, false, 0, 0xFFFFFFFF⟩]⟩,
  ⟨"MC_WC_CNT_CLR", 0x600080, [], 0x0, [
    ⟨"COUNTERS", ⟨3, 0⟩, .wo, false, 0, 15⟩]⟩,
  ⟨"MC_STATUS", 0x601000, [(0x1000, 4)], 0x0, [
    ⟨"CAPACITY_MIB", ⟨31, 16⟩, .ro, false, 0, 65535⟩,
    ⟨"STATE", ⟨2, 0⟩, .ro, false, 0, 7⟩]⟩,
  ⟨"MC_ECC_EVENT", 0x601004, [(0x1000, 4)], 0x0, [
    ⟨"CINDER_WRITE", ⟨4, 4⟩, .w1c, false, 0, 1⟩,
    ⟨"SCRUB_PENDING", ⟨3, 3⟩, .w1c, false, 0, 1⟩,
    ⟨"RANGE", ⟨2, 2⟩, .w1c, false, 0, 1⟩,
    ⟨"UE", ⟨1, 1⟩, .w1c, false, 0, 1⟩,
    ⟨"CE", ⟨0, 0⟩, .w1c, false, 0, 1⟩]⟩,
  ⟨"MC_UE_ADDR_LO", 0x601008, [(0x1000, 4)], 0x0, [
    ⟨"ADDR_LO", ⟨31, 0⟩, .ro, false, 0, 0xFFFFFFFF⟩]⟩,
  ⟨"MC_UE_ADDR_HI", 0x60100C, [(0x1000, 4)], 0x0, [
    ⟨"VALID", ⟨31, 31⟩, .ro, false, 0, 1⟩,
    ⟨"ADDR_HI", ⟨9, 0⟩, .ro, false, 0, 1023⟩]⟩,
  ⟨"MC_CNT", 0x601010, [(0x1000, 4), (0x4, 5)], 0x0, [
    ⟨"COUNT", ⟨31, 0⟩, .ro, false, 0, 0xFFFFFFFF⟩]⟩,
  ⟨"MC_CNT_CLR", 0x601024, [(0x1000, 4)], 0x0, [
    ⟨"UE_ADDR", ⟨8, 8⟩, .wo, false, 0, 1⟩,
    ⟨"COUNTERS", ⟨4, 0⟩, .wo, false, 0, 31⟩]⟩]

def regsETH : List RegSpec := [
  ⟨"ETH_STATUS", 0x700000, [(0x1000, 2)], 0x0, [
    ⟨"TIME_SOURCE", ⟨8, 8⟩, .ro, false, 0, 1⟩,
    ⟨"SPEED", ⟨5, 4⟩, .ro, false, 0, 3⟩,
    ⟨"MODE", ⟨2, 1⟩, .ro, false, 0, 3⟩,
    ⟨"LINK", ⟨0, 0⟩, .ro, false, 0, 1⟩]⟩,
  ⟨"ETH_ERR", 0x700004, [(0x1000, 2)], 0x0, [
    ⟨"AUTH", ⟨3, 3⟩, .w1c, false, 0, 1⟩,
    ⟨"LINK_DOWN", ⟨2, 2⟩, .w1c, false, 0, 1⟩,
    ⟨"TX_DROP", ⟨1, 1⟩, .w1c, false, 0, 1⟩,
    ⟨"RX_DROP", ⟨0, 0⟩, .w1c, false, 0, 1⟩]⟩,
  ⟨"ETH_CNT", 0x700010, [(0x1000, 2), (0x4, 6)], 0x0, [
    ⟨"COUNT", ⟨31, 0⟩, .ro, false, 0, 0xFFFFFFFF⟩]⟩]

def regsCAN : List RegSpec := [
  ⟨"CAN_STATUS", 0x704000, [(0x1000, 2)], 0x3, [
    ⟨"REC", ⟨23, 16⟩, .ro, false, 0, 255⟩,
    ⟨"TEC", ⟨15, 8⟩, .ro, false, 0, 255⟩,
    ⟨"STATE", ⟨1, 0⟩, .ro, false, 0, 3⟩]⟩,
  ⟨"CAN_ERR", 0x704004, [(0x1000, 2)], 0x0, [
    ⟨"STALE", ⟨3, 3⟩, .w1c, false, 0, 1⟩,
    ⟨"TX_DROP", ⟨2, 2⟩, .w1c, false, 0, 1⟩,
    ⟨"E2E_FAIL", ⟨1, 1⟩, .w1c, false, 0, 1⟩,
    ⟨"BUS_OFF", ⟨0, 0⟩, .w1c, false, 0, 1⟩]⟩,
  ⟨"CAN_VS_SEL", 0x704010, [(0x1000, 2)], 0x0, [
    ⟨"ENTRY", ⟨4, 0⟩, .rw, false, 0, 31⟩]⟩,
  ⟨"CAN_VS_STATE", 0x704014, [(0x1000, 2)], 0x1, [
    ⟨"UPDATES", ⟨31, 16⟩, .ro, false, 0, 65535⟩,
    ⟨"E2E_FAIL", ⟨1, 1⟩, .ro, false, 0, 1⟩,
    ⟨"STALE", ⟨0, 0⟩, .ro, false, 0, 1⟩]⟩,
  ⟨"CAN_VS_VALUE", 0x704018, [(0x1000, 2)], 0x0, [
    ⟨"VALUE", ⟨31, 0⟩, .ro, false, 0, 0xFFFFFFFF⟩]⟩]

def regsOF : List RegSpec := [
  ⟨"OF_SUB_LO", 0x708000, [], 0x0, [
    ⟨"ADDR_LO", ⟨31, 5⟩, .rw, false, 0, 0x7FFFFFF⟩]⟩,
  ⟨"OF_SUB_HI", 0x708004, [], 0x0, [
    ⟨"ADDR_HI", ⟨9, 0⟩, .rw, false, 0, 1023⟩]⟩,
  ⟨"OF_SUB_GO", 0x708008, [], 0x0, [
    ⟨"GO", ⟨0, 0⟩, .wo, false, 0, 1⟩]⟩,
  ⟨"OF_RESULT", 0x70800C, [], 0x0, [
    ⟨"BUSY", ⟨31, 31⟩, .ro, false, 0, 1⟩,
    ⟨"ENABLED", ⟨30, 30⟩, .ro, false, 0, 1⟩,
    ⟨"RESULT", ⟨2, 0⟩, .ro, false, 0, 7⟩]⟩]

def regsGPIO : List RegSpec := [
  ⟨"GPIO_IN", 0x709000, [], 0x0, [
    ⟨"LEVEL", ⟨31, 0⟩, .ro, false, 0, 0xFFFFFFFF⟩]⟩,
  ⟨"GPIO_OUT_SET", 0x709004, [], 0x0, [
    ⟨"BITS", ⟨31, 0⟩, .wo, false, 0, 0xFFFFFFFF⟩]⟩,
  ⟨"GPIO_OUT_CLR", 0x709008, [], 0x0, [
    ⟨"BITS", ⟨31, 0⟩, .wo, false, 0, 0xFFFFFFFF⟩]⟩,
  ⟨"GPIO_EVENT", 0x70900C, [], 0x0, [
    ⟨"CHANGED", ⟨31, 0⟩, .w1c, false, 0, 0xFFFFFFFF⟩]⟩,
  ⟨"GPIO_EVENT_EN", 0x709010, [], 0x0, [
    ⟨"ENABLE", ⟨31, 0⟩, .rw, false, 0, 0xFFFFFFFF⟩]⟩,
  ⟨"GPIO_REFUSED", 0x709014, [], 0x0, [
    ⟨"COUNT", ⟨31, 0⟩, .ro, false, 0, 0xFFFFFFFF⟩]⟩]

def regsSUP : List RegSpec := [
  ⟨"SUP_CNT", 0x70A000, [], 0x0, [
    ⟨"DISCARDED", ⟨31, 16⟩, .ro, false, 0, 65535⟩,
    ⟨"AUTH", ⟨15, 0⟩, .ro, false, 0, 65535⟩]⟩]

def regsGML : List RegSpec := [
  ⟨"GML_SYS", 0x800000, [], 0x0, [
    ⟨"RING", ⟨4, 4⟩, .ro, true, 0, 1⟩,
    ⟨"COUNT", ⟨3, 2⟩, .ro, true, 0, 3⟩,
    ⟨"DEVICE", ⟨1, 0⟩, .ro, true, 0, 3⟩]⟩,
  ⟨"GML_PEERS", 0x800004, [], 0x0, [
    ⟨"UNREACHABLE", ⟨19, 16⟩, .ro, false, 0, 15⟩,
    ⟨"ACTIVE", ⟨15, 12⟩, .ro, false, 0, 15⟩,
    ⟨"LOST", ⟨11, 8⟩, .ro, false, 0, 15⟩,
    ⟨"ROUTED", ⟨7, 4⟩, .ro, false, 0, 15⟩,
    ⟨"PRESENT", ⟨3, 0⟩, .ro, false, 0, 15⟩]⟩,
  ⟨"GML_EVENT", 0x800008, [], 0x0, [
    ⟨"INBOUND_REFUSED", ⟨5, 5⟩, .w1c, false, 0, 1⟩,
    ⟨"TAKEOVER", ⟨4, 4⟩, .w1c, false, 0, 1⟩,
    ⟨"IDENTITY", ⟨3, 3⟩, .w1c, false, 0, 1⟩,
    ⟨"REACHABLE", ⟨2, 2⟩, .w1c, false, 0, 1⟩,
    ⟨"UNREACHABLE", ⟨1, 1⟩, .w1c, false, 0, 1⟩,
    ⟨"LOST", ⟨0, 0⟩, .w1c, false, 0, 1⟩]⟩,
  ⟨"GML_EVENT_EN", 0x80000C, [], 0x0, [
    ⟨"ENABLE", ⟨5, 0⟩, .rw, false, 0, 63⟩]⟩,
  ⟨"GML_FWD", 0x800010, [], 0x0, [
    ⟨"ENABLE", ⟨8, 8⟩, .sh, false, 0, 1⟩,
    ⟨"COLLECTOR", ⟨1, 0⟩, .sh, false, 0, 3⟩]⟩,
  ⟨"GML_TAKEN", 0x800014, [], 0x0, [
    ⟨"STREAMS", ⟨23, 0⟩, .ro, false, 0, 0xFFFFFF⟩]⟩,
  ⟨"GML_STATUS", 0x801000, [(0x1000, 3)], 0x0, [
    ⟨"DELAY_NS", ⟨31, 16⟩, .ro, false, 0, 65535⟩,
    ⟨"PARTNER", ⟨11, 10⟩, .ro, false, 0, 3⟩,
    ⟨"SENSE", ⟨9, 9⟩, .ro, false, 0, 1⟩,
    ⟨"ACTIVE", ⟨8, 8⟩, .ro, false, 0, 1⟩,
    ⟨"HALF", ⟨5, 4⟩, .ro, false, 0, 3⟩,
    ⟨"STATE", ⟨2, 0⟩, .ro, false, 0, 7⟩]⟩,
  ⟨"GML_ERR", 0x801004, [(0x1000, 3)], 0x0, [
    ⟨"INBOUND_DOMAIN", ⟨6, 6⟩, .w1c, false, 0, 1⟩,
    ⟨"IDENTITY", ⟨5, 5⟩, .w1c, false, 0, 1⟩,
    ⟨"DOWN", ⟨4, 4⟩, .w1c, false, 0, 1⟩,
    ⟨"LANE_FALLBACK", ⟨3, 3⟩, .w1c, false, 0, 1⟩,
    ⟨"RETRAIN", ⟨2, 2⟩, .w1c, false, 0, 1⟩,
    ⟨"RETRY_BURST", ⟨1, 1⟩, .w1c, false, 0, 1⟩,
    ⟨"CRC", ⟨0, 0⟩, .w1c, false, 0, 1⟩]⟩,
  ⟨"GML_CNT", 0x801010, [(0x1000, 3), (0x4, 6)], 0x0, [
    ⟨"COUNT", ⟨31, 0⟩, .ro, false, 0, 0xFFFFFFFF⟩]⟩,
  ⟨"GML_CNT_CLR", 0x801028, [(0x1000, 3)], 0x0, [
    ⟨"COUNTERS", ⟨5, 0⟩, .wo, false, 0, 63⟩]⟩,
  ⟨"GML_TIME", 0x801030, [(0x1000, 3)], 0x0, [
    ⟨"OFFSET", ⟨31, 16⟩, .ro, false, 0, 65535⟩,
    ⟨"HOPS", ⟨9, 8⟩, .ro, false, 0, 3⟩,
    ⟨"ROOT", ⟨5, 4⟩, .ro, false, 0, 3⟩,
    ⟨"DELIVERS", ⟨0, 0⟩, .ro, false, 0, 1⟩]⟩]

def regsSI : List RegSpec := [
  ⟨"SI_STATUS", 0x900000, [], 0x80010000, [
    ⟨"SAFE", ⟨31, 31⟩, .ro, false, 0, 1⟩,
    ⟨"FAULT_N", ⟨30, 30⟩, .ro, false, 0, 1⟩,
    ⟨"ERR_IN", ⟨29, 29⟩, .ro, false, 0, 1⟩,
    ⟨"EMBER", ⟨25, 24⟩, .ro, false, 0, 3⟩,
    ⟨"SOURCE", ⟨16, 16⟩, .ro, false, 0, 1⟩]⟩,
  ⟨"SI_SELECT", 0x900004, [], 0x0, [
    ⟨"CLEAN", ⟨31, 16⟩, .ro, false, 0, 65535⟩,
    ⟨"HOLDOFF_LEFT", ⟨15, 8⟩, .ro, false, 0, 255⟩,
    ⟨"EMBER_INVALID", ⟨7, 0⟩, .ro, false, 0, 255⟩]⟩,
  ⟨"SI_LAST", 0x900008, [], 0x0, [
    ⟨"CLASS", ⟨25, 24⟩, .ro, false, 0, 3⟩,
    ⟨"CAUSE", ⟨23, 16⟩, .ro, false, 0, 255⟩,
    ⟨"UNIT", ⟨15, 0⟩, .ro, false, 0, 65535⟩]⟩,
  ⟨"SI_DOUBT_CNT", 0x90000C, [], 0x0, [
    ⟨"COUNT", ⟨31, 0⟩, .ro, false, 0, 0xFFFFFFFF⟩]⟩,
  ⟨"SI_EVENT", 0x900010, [], 0x0, [
    ⟨"FIREWALL", ⟨7, 7⟩, .w1c, false, 0, 1⟩,
    ⟨"MONITOR", ⟨6, 6⟩, .w1c, false, 0, 1⟩,
    ⟨"EMBER_HEALTH", ⟨5, 5⟩, .w1c, false, 0, 1⟩,
    ⟨"SELFTEST_FAIL", ⟨4, 4⟩, .w1c, false, 0, 1⟩,
    ⟨"SELFTEST_LATE", ⟨3, 3⟩, .w1c, false, 0, 1⟩,
    ⟨"TINDER_LATE", ⟨2, 2⟩, .w1c, false, 0, 1⟩,
    ⟨"SWITCH", ⟨1, 1⟩, .w1c, false, 0, 1⟩,
    ⟨"DOUBT", ⟨0, 0⟩, .w1c, false, 0, 1⟩]⟩,
  ⟨"SI_EVENT_EN", 0x900014, [], 0x0, [
    ⟨"ENABLE", ⟨7, 0⟩, .rw, false, 0, 255⟩]⟩,
  ⟨"SI_HB", 0x900020, [(0x4, 4)], 0x0, [
    ⟨"VALUE", ⟨31, 0⟩, .wo, false, 0, 0xFFFFFFFF⟩]⟩,
  ⟨"SI_COVER_SEL", 0x900030, [], 0x0, [
    ⟨"UNIT", ⟨15, 0⟩, .rw, false, 0, 65535⟩]⟩,
  ⟨"SI_COVER_STATUS", 0x900034, [], 0x0, [
    ⟨"LATES", ⟨27, 26⟩, .ro, false, 0, 3⟩,
    ⟨"PROMOTED", ⟨25, 25⟩, .ro, false, 0, 1⟩,
    ⟨"PENDING", ⟨24, 24⟩, .ro, false, 0, 1⟩,
    ⟨"MS", ⟨15, 0⟩, .ro, false, 0, 65535⟩]⟩]

def regsEJ : List RegSpec := [
  ⟨"EJ_STATUS", 0xA00000, [], 0x0, [
    ⟨"MIRROR_ON", ⟨31, 31⟩, .ro, false, 0, 1⟩,
    ⟨"STREAM_ON", ⟨30, 30⟩, .ro, false, 0, 1⟩,
    ⟨"UNMIRRORED", ⟨15, 0⟩, .ro, false, 0, 65535⟩]⟩,
  ⟨"EJ_SEQ", 0xA00004, [], 0x0, [
    ⟨"SEQUENCE", ⟨31, 0⟩, .ro, false, 0, 0xFFFFFFFF⟩]⟩,
  ⟨"EJ_BOOT", 0xA00008, [], 0x0, [
    ⟨"BOOT_COUNT", ⟨31, 0⟩, .ro, true, 0, 0xFFFFFFFF⟩]⟩,
  ⟨"EJ_EVENT", 0xA0000C, [], 0x0, [
    ⟨"STREAM_LAG", ⟨3, 3⟩, .w1c, false, 0, 1⟩,
    ⟨"MIRROR_ERR", ⟨2, 2⟩, .w1c, false, 0, 1⟩,
    ⟨"RESERVE", ⟨1, 1⟩, .w1c, false, 0, 1⟩,
    ⟨"LOST", ⟨0, 0⟩, .w1c, false, 0, 1⟩]⟩,
  ⟨"EJ_LOST_CNT", 0xA00010, [], 0x0, [
    ⟨"COUNT", ⟨31, 0⟩, .ro, false, 0, 0xFFFFFFFF⟩]⟩,
  ⟨"EJ_STREAM_CTRL", 0xA00014, [], 0x0, [
    ⟨"PARTITIONS", ⟨31, 16⟩, .sh, false, 0, 65535⟩,
    ⟨"MIN_CLASS", ⟨5, 4⟩, .sh, false, 0, 3⟩,
    ⟨"PORT", ⟨1, 1⟩, .sh, false, 0, 1⟩,
    ⟨"ENABLE", ⟨0, 0⟩, .sh, false, 0, 1⟩]⟩,
  ⟨"EJ_STREAM_POS", 0xA00018, [], 0x0, [
    ⟨"SEQUENCE", ⟨31, 0⟩, .ro, false, 0, 0xFFFFFFFF⟩]⟩,
  ⟨"EJ_FW_ARG", 0xA00040, [(0x4, 3)], 0x0, [
    ⟨"ARG", ⟨31, 0⟩, .rw, false, 0, 0xFFFFFFFF⟩]⟩,
  ⟨"EJ_FW_POST", 0xA0004C, [], 0x0, [
    ⟨"CODE", ⟨31, 16⟩, .wo, false, 0, 65535⟩,
    ⟨"STREAM", ⟨15, 8⟩, .wo, false, 0, 255⟩,
    ⟨"CLASS", ⟨1, 0⟩, .wo, false, 0, 3⟩]⟩,
  ⟨"EJ_FW_RESULT", 0xA00050, [], 0x0, [
    ⟨"RESULT", ⟨1, 0⟩, .ro, false, 0, 3⟩]⟩]

def regsPMU : List RegSpec := [
  ⟨"PMU_STATUS", 0xB00000, [], 0x0, [
    ⟨"HOTTEST", ⟨31, 16⟩, .ro, false, 0, 65535⟩,
    ⟨"MULT3", ⟨15, 12⟩, .ro, false, 0, 15⟩,
    ⟨"MULT2", ⟨11, 8⟩, .ro, false, 0, 15⟩,
    ⟨"MULT1", ⟨7, 4⟩, .ro, false, 0, 15⟩,
    ⟨"NE_STEP", ⟨3, 2⟩, .ro, false, 0, 3⟩]⟩,
  ⟨"PMU_SHED", 0xB00004, [], 0x0, [
    ⟨"STARVE", ⟨11, 9⟩, .ro, false, 0, 7⟩,
    ⟨"RULES", ⟨8, 6⟩, .ro, false, 0, 7⟩,
    ⟨"THERMAL", ⟨5, 3⟩, .ro, false, 0, 7⟩,
    ⟨"LEVEL", ⟨2, 0⟩, .ro, false, 0, 7⟩]⟩,
  ⟨"PMU_DOM_ON", 0xB00010, [(0x4, 6)], 0x0, [
    ⟨"ON", ⟨31, 0⟩, .ro, false, 0, 0xFFFFFFFF⟩]⟩,
  ⟨"PMU_UNIT_SEL", 0xB00040, [], 0x0, [
    ⟨"UNIT", ⟨15, 0⟩, .rw, false, 0, 65535⟩]⟩,
  ⟨"PMU_UNIT_STATUS", 0xB00044, [], 0x0, [
    ⟨"FENCED", ⟨31, 31⟩, .ro, false, 0, 1⟩,
    ⟨"GATED", ⟨30, 30⟩, .ro, false, 0, 1⟩,
    ⟨"RECUR", ⟨27, 24⟩, .ro, false, 0, 15⟩,
    ⟨"CAUSE", ⟨23, 16⟩, .ro, false, 0, 255⟩]⟩,
  ⟨"PMU_RULES", 0xB00060, [(0x4, 8)], 0x0, [
    ⟨"FIRED", ⟨31, 0⟩, .ro, false, 0, 0xFFFFFFFF⟩]⟩,
  ⟨"PMU_MAINT", 0xB00080, [], 0x0, [
    ⟨"QUEUED", ⟨23, 16⟩, .ro, false, 0, 255⟩,
    ⟨"RUNNING", ⟨4, 0⟩, .ro, false, 0, 31⟩]⟩,
  ⟨"PMU_EVENT", 0xB00090, [], 0x0, [
    ⟨"DOMAIN_FAULT", ⟨5, 5⟩, .w1c, false, 0, 1⟩,
    ⟨"MAINT_OVERDUE", ⟨4, 4⟩, .w1c, false, 0, 1⟩,
    ⟨"RULE", ⟨3, 3⟩, .w1c, false, 0, 1⟩,
    ⟨"THERMAL", ⟨2, 2⟩, .w1c, false, 0, 1⟩,
    ⟨"SHED", ⟨1, 1⟩, .w1c, false, 0, 1⟩,
    ⟨"FENCE", ⟨0, 0⟩, .w1c, false, 0, 1⟩]⟩,
  ⟨"PMU_EVENT_EN", 0xB00094, [], 0x0, [
    ⟨"ENABLE", ⟨5, 0⟩, .rw, false, 0, 63⟩]⟩]

/-- Every register of the index of spec/20, in blocks. -/
def regTable : List RegSpec :=
  regsSYS ++ regsSYSPC ++ regsTL ++ regsICU ++ regsCVU ++ regsFWL ++ regsFGS0 ++ regsFGS1 ++ regsCFE ++ regsISP ++ regsFTR ++ regsWRP ++ regsPYR ++ regsSTR ++ regsFLW ++ regsNT ++ regsNE ++ regsBM ++ regsMC ++ regsETH ++ regsCAN ++ regsOF ++ regsGPIO ++ regsSUP ++ regsGML ++ regsSI ++ regsEJ ++ regsPMU

/-- The registers whose reset value is not zero: first offset, strides and reset value. -/
def resetRows : List (Nat × List (Nat × Nat) × Nat) := [
  (0x0, [], 0x48164000),
  (0x100, [], 0x1),
  (0x1000C, [], 0xA03E801),
  (0x21004, [(0x20, 4)], 0x3FF),
  (0x100000, [], 0x3E8),
  (0x100004, [], 0x32),
  (0x200800, [(0x10, 4)], 0xA),
  (0x200A00, [], 0x10),
  (0x400008, [(0x10000, 16)], 0x2001800),
  (0x407000, [], 0x108),
  (0x407008, [], 0x5DC0000),
  (0x600060, [], 0x10),
  (0x704000, [(0x1000, 2)], 0x3),
  (0x704014, [(0x1000, 2)], 0x1),
  (0x900000, [], 0x80010000)]

end Sys2Proof.Machine
end

