-- ==== Sys2Proof/Config.lean ====
section
/-! DEFINITION. What the spec leaves open: free values with no body, so that nothing proved about the model
can rest on a particular value, and the constants of the model that the assumption log names. -/

namespace Sys2Proof.Config

/-- A fresh value the spec does not state, drawn by the number of draws made before it
(`State.free` counts them). Log entry 1. -/
opaque freeValue : Nat → Nat

/-- Whether a WRST_N low pulse between 200 ns and 1 µs causes a warm reset (R35: it may or may not). -/
opaque wrstPulseCounts : Nat → Bool

/-- The 10-bit initiator identifier of a unit, which the spec assigns only to inbound links (0x3F0 + k). Log entry 13. -/
opaque initiatorId : Nat → Nat

/-- exp(x) of R267 on a binary32 bit pattern: within 2 ulp of the exact value, no more is stated. -/
opaque expF32 : Word → Word

/-- 1/x of R267 on a binary32 bit pattern: within 2 ulp, no more is stated. -/
opaque recipF32 : Word → Word

/-- 1/sqrt(x) of R267 on a binary32 bit pattern: within 2 ulp, no more is stated. -/
opaque rsqrtF32 : Word → Word

/-- Which way a bicubic weight that lies half-way between two steps of 12 fractional bits is rounded, by phase and tap:
R169 says no more than that it is rounded. Log entry 19. -/
opaque bicubicTieUp : Nat → Nat → Bool

/-- Which of a format's NaN patterns a tile stores, and the elements of an MX block that holds a NaN: R253 and R254 say no
more than that it is one. Log entry 22. -/
opaque nanPattern : Nat → Nat

/-- The integer that an infinity gives without SAT, by format and sign: R253 gives it no rounded value. Log entry 22. -/
opaque infToInt : Nat → Bool → Nat

/-- The low 32 bits that an INT32 ELEMENTWISE result outside the range takes, by EOP and operands: R268 states none. Log entry 22. -/
opaque int32Overflow : Nat → Word → Word → Word

/-- MAX or MIN of two FP32 values of which one is a NaN or both are zeros, outside SCATTER: R268 states no result. Log entry 22. -/
opaque minMaxCorner : Bool → Word → Word → Word

/-- MAX or MIN over a window without a real position: R268 states no result. Log entry 22. -/
opaque emptyWindow : Bool → Word

/-- a ÷ b of softmax and attention on binary32 bit patterns, formed with the reciprocal of R267. Log entry 22. -/
opaque quotF32 : Word → Word → Word

/-- The weight index that stage 5 takes for a neighbour when the threshold t is 0, by |n − c|: R144 divides by t. Log entry 24. -/
opaque noiseIndex : Nat → Nat

/-- A sample of a tinder pattern by data type, pattern, line and position: R127 calls it a fixed function and does not
give it. Log entry 25. -/
opaque tinderSample : Nat → Nat → Nat → Nat → Nat

/-- The transmit queue, 0 to 7, of ARP replies (1) and gPTP messages (2): R476 names none. Log entry 38. -/
opaque macQueue : Nat → Nat

/-- The byte that an address of RAM reads as when nothing has written it since reset. DESIGN CHOICE, log entry 3. -/
def unwrittenByte : Byte := 0

/-- The byte that an erased NOR flash location reads as (R48: the rest of a commit sector is 0xFF). -/
def erasedByte : Byte := 0xFF

end Sys2Proof.Config
end

