-- ==== Sys2Proof/Machine/State.lean ====
section
/-! DEFINITION. The state of the HX-1640 as plain data: the register file, the memories, and every queue, table
and mode the spec gives each block, with the state after reset. One structure per block; `State` holds them all
and the queue of waiting commands. -/

namespace Sys2Proof.Machine

/-! ### Stops -/

/-- Reasons the machine can stop with a fault. No command of this device stops the machine by the spec:
every error it describes is recorded in state. -/
inductive Fault where
  /-- Never raised by a meaning: kept so that a reader sees that the type is closed. Safe. -/
  | none
  deriving DecidableEq, Repr

/-- Reasons a command is refused by the model. -/
inductive Refusal where
  /-- Raised by `exec` for a command that has no meaning yet, by the command's mnemonic. Safe. -/
  | notModelled (mnemonic : String)
  deriving DecidableEq, Repr

/-! ### Event Journal (spec/14) -/

/-- A journal record before it is laid out in 32 bytes (R358). -/
structure JRec where
  ts : Nat
  seq : Word
  source : Nat
  code : Nat
  partition : Nat
  cls : Nat
  synced : Bool
  lostBefore : Bool
  remote : Bool
  device : Nat
  stream : Nat
  arg0 : Word
  arg1 : Word
  arg2 : Word
  deriving DecidableEq, Repr

/-- The Event Journal: source queues, ring, mirror, stream and forwarding (R360 to R364, R397, R400). -/
structure Journal where
  /-- the journal has written JOURNAL_START (R509) -/
  started : Bool
  /-- the Event Journal is fenced and gated (R41, R431) -/
  fenced : Bool
  /-- records waiting in the source queues, in order of arrival (R360) -/
  queue : List JRec
  /-- the records held in the ring, oldest first, at most 32,768 (R361) -/
  ring : List JRec
  /-- journal sequences whose mirror copy is awaited (R361) -/
  unmirrored : List Word
  /-- the mirror is on (R362) -/
  mirrorOn : Bool
  /-- first journal sequence still held in the mirror -/
  mirrorFrom : Option Word
  /-- records lost since the last RECORDS_LOST, and the SOURCE of the first (R361) -/
  lostSince : Nat
  lostFirst : Nat
  /-- the next record accepted carries LOST_BEFORE -/
  lostBefore : Bool
  /-- the Safety Island's copy of the last 256 doubt and severe records, oldest first (R397) -/
  siCopy : List JRec
  /-- (target, Domain ID, time) of the last FIREWALL_REFUSED of each pair (R400: once per second) -/
  refusedAt : List (Nat × Nat × Nat)
  /-- own records waiting to be forwarded to the collector, with the time each entered (R364, R471) -/
  forward : List (Nat × JRec)
  /-- records received from partners, to be sent on the stream (R364) -/
  fromPeers : List JRec
  deriving DecidableEq, Repr

/-! ### The Timeline's servo (spec/14) -/

/-- What the servo keeps (R347, R348). The Timeline itself is `State.now`; its state and source are TL_STATUS. -/
structure TimeSt where
  /-- an offset has been measured since kindling started -/
  measured : Bool
  /-- consecutive updates beyond STEP_THRESH_US, and within 100 ns -/
  beyond : Nat
  good : Nat
  /-- when the primary and the backup source last delivered time -/
  primaryAt : Option Nat
  backupAt : Option Nat
  /-- when HOLDOVER was entered -/
  heldFrom : Option Nat
  deriving DecidableEq, Repr

/-! ### Resets and kindling (spec/02) -/

/-- One sensor-profile run on an I3C controller in the SENSORS stage (R43). -/
structure SeqRun where
  /-- PROFILE_IDs still to run, the current one first -/
  profiles : List Nat
  op : Nat
  retried : Bool
  retryDue : Option Nat
  waitDue : Option Nat
  pollFrom : Option Nat
  deriving DecidableEq, Repr

/-- Reset and kindling control. The stage itself is SYS_KIN_STATUS.STATE. -/
structure Kindle where
  porstLow : Bool
  wrstLow : Bool
  coreReset : Bool
  /-- end of the 10 µs hold of a warm reset decided by the Safety Manager (R36) -/
  holdDue : Option Nat
  /-- Timeline at the release of the core reset (SYS_KIN_TIME) and at the start of HKC_START (R38) -/
  releasedAt : Nat
  hkcStartAt : Nat
  siFailed : Bool
  hkcFailed : Bool
  /-- image regions still to try, 0 for A and 1 for B, the current candidate first (R49) -/
  candidates : List Nat
  /-- candidates tried and refused in this kindling -/
  tried : Nat
  firstGen : Word
  nextSection : Nat
  bistDone : Bool
  trainedCh : List Nat
  fencedCh : List Nat
  loadDone : Bool
  checkDone : Bool
  firmwareDone : Bool
  sensorsDone : Bool
  bindDone : Bool
  /-- the sensor runs of the four I3C controllers -/
  seqs : List SeqRun
  /-- streams marked absent (R43) -/
  absentStreams : List Nat
  /-- units that have matched their expected values in VERIFY (R44) -/
  verified : List Nat
  /-- end of the 500 ms of VERIFY (R45) -/
  verifyDue : Option Nat
  /-- READY or READY_BANKED was reached since PORST_N (R54) -/
  everReady : Bool
  /-- region the device booted from -/
  booted : Option Nat
  /-- a staging session has committed since the recovery hold began (R38) -/
  committedInHold : Bool
  deriving DecidableEq, Repr

/-- The NOR flash attached to the NVM controller: the primary and the alternate device (R47). -/
structure Flash where
  present0 : Bool
  present1 : Bool
  /-- bytes of the primary device as SFDP reports them -/
  size : Nat
  dev0 : List Host.Cell
  dev1 : List Host.Cell
  /-- (region, table position) of optional sections that were skipped in LOAD (R52) -/
  skipped : List (Nat × Nat)
  deriving DecidableEq, Repr

/-- Fuses (R51, R53, R54, SYS_UID, SYS_OTP). -/
structure Otp where
  uid : DWord
  keyHash0 : BitVec 256
  keyHash1 : BitVec 256
  keyHash2 : BitVec 256
  keyHash3 : BitVec 256
  revoked : BitVec 4
  rollback : Nat
  debugFused : Bool
  weightKey : BitVec 256
  deriving DecidableEq, Repr

/-- Output and bidirectional pins of the device (table "Pin states through reset and kindling"). -/
structure Pins where
  faultN : Bool
  safeState : Bool
  heartbeat : Bool
  errInLow : Bool
  errInLatched : Bool
  peerAlive : Bool
  /-- levels driven or seen on GPIO0 to GPIO31, and which of them the device drives -/
  gpio : BitVec 32
  gpioDriven : BitVec 32
  deriving DecidableEq, Repr

/-! ### Frame graphs and the sequencer (spec/03, spec/04) -/

/-- Ring record (spec/02, "Layer sections"). -/
structure RingRec where
  ringId : Nat
  slotCount : Nat
  kind : Nat
  base : Nat
  slotBytes : Nat
  width : Nat
  lines : Nat
  pitch : Nat
  format : Nat
  consumers : Nat
  flagBase : Nat
  deriving DecidableEq, Repr

/-- Node record (spec/02, "Layer sections"). -/
structure NodeRec where
  slot : Nat
  cls : Nat
  prio : Nat
  inRings : List Nat
  outRings : List Nat
  flow : Option Nat
  deadlineUs : Nat
  waitUs : Nat
  stepList : Nat
  wcetNs : Nat
  tiles : Nat
  rateDiv : Nat
  tileW : Nat
  tileH : Nat
  shedClass : Nat
  periodic : Bool
  noAffinity : Bool
  credits : Nat
  inSpan : List Nat
  deriving DecidableEq, Repr

/-- Flow record (spec/02). -/
structure FlowRec where
  id : Nat
  mode : Nat
  window : Nat
  deriving DecidableEq, Repr

/-- Layer section (spec/02). -/
structure LayerRec where
  id : Nat
  partition : Nat
  base : Bool
  firewall : Nat
  unitMask : DWord
  fsBytes : Nat
  rings : List RingRec
  nodes : List NodeRec
  flows : List FlowRec
  deriving DecidableEq, Repr

/-- Trigger entry of a scene (spec/02). -/
structure TrigRec where
  kind : Nat
  source : Nat
  compare : Nat
  target : Nat
  value : Word
  deriving DecidableEq, Repr

/-- Scene section (spec/02). -/
structure SceneRec where
  no : Nat
  bankedOf : Option Nat
  sameOwnerSkip : Bool
  service : Bool
  periodNs : Nat
  budgetUs : Nat
  layers : List Nat
  triggers : List TrigRec
  deriving DecidableEq, Repr

/-- Who writes a ring (R62). -/
inductive Producer where
  | node (slot : Nat)
  | stream (s : Nat)
  | nobody
  deriving DecidableEq, Repr

/-- A bound ring: its record, its geometry (R63 to R65) and which frame each slot belongs to. -/
structure RingSt where
  rc : RingRec
  layer : Nat
  /-- position of the record in its layer -/
  idx : Nat
  producer : Producer
  perFrame : Nat
  frameH : Nat
  /-- STREAM field of its tokens (R89) -/
  stream : Nat
  /-- ring frame number of each sequence produced into it since BIND (R64), newest first -/
  kOf : List (Word × Nat)
  kNext : Nat
  /-- (slot, ring frame, band) of each slot's present assignment (R64, R306) -/
  assign : List (Nat × Nat × Nat)
  /-- (ring frame, band) discarded by a writer that found the slot not free, newest first (R310) -/
  skipped : List (Nat × Nat)
  /-- (slot, node slot, input position) whose token has arrived, and those that have drained (R66) -/
  arrived : List (Nat × Nat × Nat)
  drained : List (Nat × Nat × Nat)
  /-- the partner that holds the ring, for a peer ring (R458) -/
  remote : Option Nat
  deriving DecidableEq, Repr

/-- A bound node: its record and the sequencer's memory of it (table "Sequencer structures"). -/
structure NodeSt where
  rc : NodeRec
  layer : Nat
  domain : Nat
  /-- local address of the first descriptor and the number of descriptors, or the firmware window -/
  stepAddr : Nat
  steps : Nat
  preferred : Option Nat
  retired : Option Word
  baseSeq : Option Word
  refStream : Option Nat
  /-- periodic node at the root of the chain of first inputs (R511) -/
  refPeriodic : Option Nat
  /-- instances of sequences newer than `retired` that have released or been cancelled -/
  finished : List (Word × Nat)
  /-- B of R69 and the next tick number of a periodic node -/
  startBase : Option Nat
  startNext : Nat
  /-- start ticks of the numbered instances (R511), newest first -/
  starts : List (Word × Nat)
  /-- start of the stuck watch of a node outside every flow (R112) -/
  watchFrom : Option Nat
  /-- the partner a peer node is placed on (R458) -/
  peer : Option Nat
  deriving DecidableEq, Repr

/-- An ordered flow (R104, R112). -/
structure FlowSt where
  rc : FlowRec
  layer : Nat
  head : Word
  next : Word
  watchFrom : Option Nat
  deriving DecidableEq, Repr

/-- States of a node instance (R97). -/
inductive IState where
  | waiting | ready | dispatched | running | done | rerun | cancelled
  deriving DecidableEq, Repr

/-- A matching-store entry (R95 to R97). -/
structure Inst where
  entry : Nat
  gen : Nat
  node : Nat
  seq : Word
  tile : Nat
  stream : Nat
  ops : List Nat
  need : Nat
  st : IState
  created : Nat
  ts : Nat
  flowPos : Option Word
  /-- order of admission to the ready list (R99) -/
  order : Nat
  unit : Option Nat
  reruns : Nat
  /-- step to run next, and RESTART of the dispatch record -/
  step : Nat
  restart : Bool
  late : Bool
  inputFlagged : Bool
  /-- FOOTPRINT has been journaled for it (R173) -/
  footprint : Bool
  /-- input positions that are absent (R67, R69) -/
  absent : List Nat
  /-- (input position, slot) pinned by a periodic instance (R69) -/
  pins : List (Nat × Nat)
  /-- end of an affinity hold, and that a hold has ended (R101) -/
  holdDue : Option Nat
  holdOver : Bool
  /-- the first refusal of its release has been journaled; order of first refusal (R106, R110) -/
  refused : Option Nat
  stalledFrom : Option Nat
  /-- a stop has been asked of the unit and is awaited (R109) -/
  stopping : Bool
  /-- outputs whose void has not yet taken effect (R93) -/
  voidsLeft : List Nat
  /-- tinder job index of a Domain ID 1 dispatch (R404) -/
  tinder : Option Nat
  deriving DecidableEq, Repr

/-- A token with its sideband (R89, R90). -/
structure Token where
  node : Nat
  stream : Nat
  seq : Word
  tile : Nat
  operand : Nat
  kind : Nat
  domain : Nat
  /-- matching-store and delay-list entries already reserved for it (R92) -/
  reserved : Bool
  /-- register bank of a firmware poster, for FGS_POST_RESULT -/
  poster : Option Nat
  flagged : Bool
  deriving DecidableEq, Repr

/-- The Frame-Graph Sequencer. -/
structure Fgs where
  nodes : List NodeSt
  flows : List FlowSt
  rings : List RingSt
  insts : List Inst
  /-- generation of each matching-store entry (FGS_PCn_DISP2.GEN) -/
  gens : List (Nat × Nat)
  tokens : List Token
  orderNext : Nat
  refuseNext : Nat
  /-- dispatch stopped (R397) -/
  halted : Bool
  forgetPending : Bool
  /-- entries selected by the last FGS_CANCEL_GO (FGS_CANCEL_STATUS.BUSY) -/
  cancelSel : List Nat
  /-- releases of stream writers refused and held: order of first refusal, layer, ring index, ring frame, band and
  input-flagged mark (R92, R110) -/
  heldBands : List (Nat × Nat × Nat × Nat × Nat × Bool)
  /-- (stream, newest 64 sequences with their timestamps) (R511) -/
  stamps : List (Nat × List (Word × Nat))
  /-- layers whose tokens are no longer matched (R79) -/
  closed : List Nat
  /-- shed multipliers of classes 1 to 3 latched for a sequence of a stream group, or of a periodic node's
  instance; 0 is stopped (R434) -/
  mults : List (Nat × Word × Nat × Nat × Nat)
  deriving DecidableEq, Repr

/-- An access held by a slot check (R309): the time of the first hold of the step, the access held last, and whether it
still waits. -/
structure HoldSt where
  since : Nat
  write : Bool
  addr : Nat
  waiting : Bool
  deriving DecidableEq, Repr

/-- A dispatchable or fencible unit, by unit code (spec/02, "Unit codes"). -/
structure UnitSt where
  code : Nat
  fenced : Bool
  gated : Bool
  /-- matching-store entry it holds, dispatched or running -/
  entry : Option Nat
  /-- Domain ID of its previous step (R72 table: line buffers are cleared on a change) -/
  lastDomain : Nat
  /-- Timeline at which it last took or left an instance -/
  since : Nat
  /-- times of the recurrence events charged to it, newest first (R430) -/
  recur : List Nat
  /-- a tinder job, self-test slice or maintenance activity holds it (R405, R408, R444) -/
  heldBy : Option Nat
  /-- cause of its fence, as PMU_UNIT_STATUS.CAUSE shows it -/
  cause : Nat
  /-- held access of the present step (R309) -/
  hold : Option HoldSt
  /-- (counter, remainder) of its counters kept in units of 1,024 -/
  resid : List (Nat × Nat)
  deriving DecidableEq, Repr

/-- A bound layer (R73, R79, R512). -/
structure BoundLayer where
  rc : LayerRec
  outgoing : Bool
  opened : Bool
  periodNs : Nat
  streams : List Nat
  deriving DecidableEq, Repr

/-- A scene switch in progress (R79). -/
structure Switch where
  target : Nat
  cause : Nat
  fromScene : Nat
  start : Nat
  outgoing : List Nat
  incoming : List Nat
  bound : List Nat
  cindered : List Nat
  drainDue : Nat
  baseChange : Bool
  stripping : Bool
  deriving DecidableEq, Repr

/-- Scenes: the switch in progress, the dwell and the triggers held (R76 to R79, R86). -/
structure SceneSt where
  layers : List BoundLayer
  switch : Option Switch
  dwellDue : Option Nat
  /-- unit class bytes fenced since the current scene was bound (trigger KIND 4) -/
  fencedSince : List Nat
  /-- a fence during a switch is judged again at OPEN (R87) -/
  recheck : List Nat
  openedAt : Nat
  deriving DecidableEq, Repr


/-! ### Safety (spec/16) -/

/-- One eye of the Ember pair being received (R419): binned rows, oldest first. -/
structure EmberFrame where
  seq : Word
  ts : Nat
  lines : Nat
  acc : List Nat
  rows : List (List Nat)
  flagged : Bool
  missed : Bool
  closedAt : Option Nat
  deriving DecidableEq, Repr

/-- An Ember Obstacle Message with its envelope fields (R423). -/
structure EmberMsg where
  seq : Word
  ts : Nat
  status : Nat
  bytes : List Byte
  deriving DecidableEq, Repr

/-- The Ember path (R418 to R424). Its health is SI_STATUS.EMBER. -/
structure Ember where
  /-- the copy of the EMBER_CONFIG section in Island SRAM (R424) -/
  cfg : List Byte
  left : Option EmberFrame
  right : Option EmberFrame
  /-- a complete pair that awaits its message -/
  pair : Option (EmberFrame × EmberFrame)
  /-- end of the pair window (R419) -/
  pairDue : Option Nat
  /-- sequence and timestamp of a pair found invalid, awaiting its message, and which frames are known as input flagged: 1 left, 2 right -/
  invalidPair : Option (Word × Nat × Nat)
  /-- consecutive valid messages, and self-test results (R418, R44) -/
  validRun : Nat
  selfMisses : Nat
  selfPassed : Bool
  deriving DecidableEq, Repr

/-- The output selector (R415 to R417). Its source is SI_STATUS.SOURCE and its counts are SI_SELECT. -/
structure Selector where
  held : Option EmberMsg
  /-- frame sequence of the last message sent -/
  lastSent : Option Word
  /-- the next Ember message handed over is a covering message (R416) -/
  coverNext : Bool
  /-- sequence of the previous primary payload offered since the last doubt -/
  lastOffered : Option Word
  /-- the counts start at OPEN (R417) -/
  waitOpen : Bool
  /-- reason of the SELECTOR_SWITCH record that awaits the first message of the new source (R425) -/
  announce : Option Nat
  deriving DecidableEq, Repr

/-- Tinder coverage of one unit (R405, R406). -/
structure CoverSt where
  unit : Nat
  covered : Nat
  interval : Nat
  lates : Nat
  /-- position of the next expected-value entry in the unit's rotation -/
  turn : Nat
  pending : Bool
  promoted : Bool
  running : Bool
  mismatchAt : Option Nat
  /-- Check-Value Unit armed for the job or injection under way -/
  cvu : Option Nat
  /-- runs submitted (the SEQUENCE of the dispatch record) -/
  runs : Nat
  /-- step of the job to run next -/
  step : Nat
  deriving DecidableEq, Repr

/-- One checker instance (R408 to R410). -/
structure SelfTestSt where
  checker : Nat
  unit : Nat
  last : Nat
  lates : Nat
  starved : Bool
  running : Bool
  deriving DecidableEq, Repr

/-- A firewall region (R400, R401). -/
structure FwRegion where
  target : Nat
  region : Nat
  enable : Bool
  lock : Bool
  any : Bool
  initiator : Nat
  base : Nat
  pages : Nat
  rd : BitVec 16
  wr : BitVec 16
  layer : Option Nat
  deriving DecidableEq, Repr

/-- The Safety Manager and the Island's own state. -/
structure Safety where
  ember : Ember
  sel : Selector
  cover : List CoverSt
  selftests : List SelfTestSt
  regions : List FwRegion
  /-- doubts raised and not yet at the selector: cause, unit and frame sequence (R396) -/
  doubts : List (Nat × Nat × Word)
  /-- severe events raised and not yet acted on: cause and unit -/
  severes : List (Nat × Nat)
  /-- cause of the severe event in force, and the end of the journal flush window (R398) -/
  severe : Option Nat
  flushDue : Option Nat
  /-- last reported temperature of each sensor in 0.1 °C, none before the first report, and the excluded sensors (R514) -/
  temps : List (Option Int)
  excluded : List Nat
  /-- (monitor number, highest limit crossed and not yet left) (R412) -/
  levels : List (Nat × Nat)
  /-- severe raised before READY is judged at READY (R44); ERR_IN_N low time of the latch -/
  errLowUs : Nat
  errRaised : Bool
  /-- Timeline of the last SI_HBn write of each pair (R413) -/
  hb : List Nat
  /-- Timeline of the last watchdog service (R411) -/
  served : Nat
  /-- HEARTBEAT has stopped at cause 16 (R411) -/
  stopped : Bool
  deriving DecidableEq, Repr


/-! ### Policy Cores (spec/15) -/

/-- One register bank of a core (R367): x1 to x31, f0 to f31 and fcsr. -/
structure RegBank where
  x : List Word
  f : List Word
  fcsr : Word
  deriving DecidableEq, Repr

/-- A Policy Core pair (R366 to R380). EPC of banks 1 to 3 is SYS_PCn_BANKk_EPC and the return bank is SYS_PCn_RET. -/
structure CoreSt where
  /-- current register bank -/
  bank : Nat
  pc : Word
  banks : List RegBank
  /-- return address, cause and interrupted priority of bank 0's present context -/
  epc0 : Word
  cause0 : Word
  prio0 : Word
  /-- machine-mode interrupts enabled -/
  intEn : Bool
  /-- address reserved by LR in the local memory -/
  resv : Option Nat
  /-- (entry, generation, register bank) of the firmware instances dispatched to the pair, the running one first -/
  insts : List (Nat × Nat × Nat)
  /-- contexts entered and not yet left, newest first: the interrupted bank, or none for a pushed frame -/
  ctx : List (Option Nat)
  /-- (source, priority) of the sources active on this target, newest first (R374, R379) -/
  active : List (Nat × Nat)
  /-- the pair has halted (R371) -/
  halted : Bool
  deriving DecidableEq, Repr

/-- A register bank with every register zero (DESIGN CHOICE, log entry 4). -/
def RegBank.zero : RegBank := ⟨List.replicate 31 0, List.replicate 32 0, 0⟩

/-- A pair out of reset. -/
def CoreSt.zero : CoreSt := ⟨0, 0, List.replicate 4 RegBank.zero, 0, 0, 0, false, none, [], [], [], false⟩

/-- The interrupt controller beside its registers (R373 to R379). Pending and active sources are ICU_PENDk and ICU_ACTk. -/
structure IcuSt where
  /-- (source, target that claimed it last) -/
  last : List (Nat × Nat)
  /-- (source, target of its present offer, the offer is the first after its completion there) (R375, R379) -/
  offers : List (Nat × Nat × Bool)
  deriving DecidableEq, Repr


/-! ### Adaptation (spec/17) -/

/-- One adaptation rule's state (R436). -/
structure RuleSt where
  fired : Bool
  /-- consecutive evaluations towards firing or clearing -/
  count : Nat
  deriving DecidableEq, Repr

/-- What the metrics accumulate over an evaluation period, and the state of the rules (R435 to R437). -/
structure Adapt where
  /-- (class code, ns of unit time spent dispatched or running in the period) -/
  busy : List (Nat × Nat)
  /-- least deadline slack in ns of the instances released in the period: safety partitions, others -/
  slackSafety : Option Int
  slackOther : Option Int
  /-- non-safety deadline misses and late releases -/
  misses : Nat
  /-- corrected errors: Frame Store, LPDDR5X, weight cache -/
  corrFs : Nat
  corrLp : Nat
  corrWc : Nat
  rules : List RuleSt
  /-- Timeline of the last evaluation -/
  evalAt : Nat
  /-- Ember messages of the period, and the invalid ones -/
  emberMsgs : Nat
  emberInvalid : Nat
  /-- last action of the thermal policy; since when the hottest temperature has lain T_HYST below T_SHED and below each T_STEP (R438) -/
  thermAt : Option Nat
  coolSince : List (Option Nat)
  /-- last rise of the starvation level, and when a checker was last found starved (R435) -/
  raisedAt : Option Nat
  starvedAt : Nat
  deriving DecidableEq, Repr

/-- A queued start request (R444): its activity, when it was requested, whether it has reserved its resources and whether it
was journaled as overdue. -/
structure MaintReq where
  act : Nat
  at' : Nat
  reserved : Bool
  overdue : Bool
  deriving DecidableEq, Repr

/-- The maintenance arbiter: the queue in request order, the running activities with their starts, and the last request of
each periodic activity (R443, R444). -/
structure Maint where
  queue : List MaintReq
  running : List (Nat × Nat)
  last : List (Nat × Nat)
  deriving DecidableEq, Repr


/-! ### Memories (spec/13) -/

/-- A cinder entry: one run of pages that left one owner (R316, R321). -/
structure Cinder where
  base : Nat
  size : Nat
  /-- its first refused or zero-answered transaction has been journaled (R317) -/
  told : Bool
  /-- it waits for a cinder entry or for outstanding writes (R318, R321) -/
  waiting : Bool
  /-- incoming layer it is to be released to, when it has one -/
  forLayer : Option Nat
  deriving DecidableEq, Repr

/-- What a pyramid engine keeps of the PYRAMID step that ended last on it (R180): its node, sequence, tile and NO_CARRY, and
the input line after the last it had fetched. -/
structure Carry where
  node : Nat
  seq : Word
  tile : Nat
  noCarry : Bool
  bottom : Nat
  deriving DecidableEq, Repr

/-- The memories' own state beside their bytes and flags. -/
structure MemSt where
  /-- cinder regions, in the order in which they became ready (R321) -/
  cinder : List Cinder
  /-- lines held in the weight cache, most recently used first, and lines being fetched (R322) -/
  wcLines : List Nat
  wcPending : List Nat
  /-- zero-coded ranges of LPDDR5X: first byte and one past the last (R339) -/
  zeroCoded : List (Nat × Nat)
  /-- flag word captured by a read of MC_FLAG_HI (R344) -/
  flagHold : DWord
  /-- time of the last uncorrectable error of a Frame Store bank pair (R303), and of each tile's scratchpad (R313) -/
  ueAt : List (Nat × Nat)
  spmAt : List (Nat × Nat)
  /-- kept correctable errors of bank pairs and Policy Core pairs by unit code (R515) -/
  ceTimes : List (Nat × List Nat)
  /-- table positions of sections that wait to be reloaded (R340, R342) -/
  reloads : List Nat
  /-- reads to other devices detached at a stop: unit (R331) -/
  detached : List Nat
  /-- power domains requested and not yet in service (R441) -/
  powerReq : List Nat
  deriving DecidableEq, Repr

/-- A tensor of results between the compute and the store phase: its logical extents, 0 INT32, 1 FP32 or 2 elements of a
format as they lie in memory, the elements with logical d0 fastest, and the MX scales of kind 2. -/
structure TRes where
  dims : List Nat
  kind : Nat
  els : List Nat
  scales : List Nat
  deriving DecidableEq, Repr

/-- A Neural Tile's step in progress and its writer table (R257 to R259). -/
structure TileSt where
  /-- entry, generation and step that the phase belongs to; none when it has to be asked for -/
  owner : Option (Nat × Nat × Nat)
  /-- PHASE codes of NTn_STATUS: 2 awaiting fetch grant, 3 fetch, 4 compute, 5 awaiting store grant, 6 store -/
  phase : Nat
  /-- when the phase began -/
  since : Nat
  computed : Bool
  /-- what the fetch phase read: step descriptor, tensor descriptors A, B, C and OUT, LUT memory and EPI_VEC -/
  desc : List Byte
  tds : List (List Byte)
  lut : List Byte
  epi : List Byte
  /-- what the compute phase left: the result, and TOPK's second one -/
  res : List TRes
  /-- saturated elements, CNT6 events and out-of-range indices of the step -/
  sat : Nat
  odd : Nat
  idx : Nat
  /-- writer table: scratchpad page and the step that last wrote it; latest resume point and the clobber flag -/
  pages : List (Nat × Nat)
  resume : Nat
  clobber : Bool
  deriving DecidableEq, Repr

/-- A tile that has nothing in progress. -/
def TileSt.idle : TileSt := ⟨none, 0, 0, false, [], [], [], [], [], 0, 0, 0, [], 0, false⟩

/-! ### Check-Value Units (spec/15) -/

/-- A Check-Value Unit's job beside its registers (R382 to R387). -/
structure CvuSt where
  /-- unit on which a tap is armed -/
  unit : Option Nat
  /-- the tap stream delivered, at most LENGTH bytes -/
  bytes : Option (List Byte)
  /-- internal register left by the previous job of the same owner -/
  inner : Option Nat
  /-- CHECK_ID of the expected-value entry the Safety Manager armed it for; 0xFFFF for none -/
  check : Nat
  deriving DecidableEq, Repr

/-- An idle unit. -/
def CvuSt.idle : CvuSt := ⟨none, none, none, 0xFFFF⟩


/-! ### Camera Front End (spec/05) -/

/-- A frame being received (R121 to R126). -/
structure CamFrame where
  /-- none for a frame that takes no sequence number (R120, R121) -/
  seq : Option Word
  ts : Nat
  /-- 1 in-line, 2 memory-fed, 3 frame-check-only (R118) -/
  path : Nat
  /-- flags raised on the frame as a whole -/
  flags : Nat
  /-- (line, flags) of the stored lines that carry line flags -/
  lineFlags : List (Nat × Nat)
  lines : Nat
  discarded : Nat
  crcs : Nat
  cuts : Nat
  epoch : Word
  embSeen : Bool
  lastPkt : Nat
  /-- samples of the last line stored (R123) -/
  lastLine : List Nat
  /-- staging ring index and slot that receive the frame; none when it is discarded under R310 -/
  staged : Option (Nat × Nat)
  deriving DecidableEq, Repr

/-- A batch of sensor writes (R130). -/
structure Batch where
  stream : Nat
  /-- the 8 bytes of each operation -/
  ops : List (List Byte)
  deriving DecidableEq, Repr

/-- An epoch and the first frame to which it applies; `bad` after a NACK (R132, R134). -/
structure EpochRec where
  epoch : Nat
  from' : Word
  bad : Bool
  deriving DecidableEq, Repr

/-- A stream context (R118 to R134). -/
structure StreamSt where
  stream : Nat
  /-- layer it is bound to (R63) -/
  layer : Option Nat
  /-- bound, and no frame has closed or been missed since (R145) -/
  fresh : Bool
  /-- a DUAL_HOME 2 stream treated as DUAL_HOME 1 (R469) -/
  promoted : Bool
  counting : Bool
  next : Word
  /-- T_p of the pulse whose window is open, whether its Frame Start has arrived, and a pulse that ended without -/
  pulse : Option Nat
  used : Bool
  owed : Option Nat
  lastFs : Option Nat
  /-- sequence and Frame Start of the frame whose control window is meant (R131) -/
  window : Option (Word × Nat)
  frame : Option CamFrame
  /-- pending batch, and the one in transfer with its epoch and the frame of its window -/
  batch : Option Batch
  transfer : Option (Batch × Nat × Word)
  /-- epochs started, newest first (R132) -/
  epochs : List EpochRec
  /-- context bank of its pipe (R141) -/
  bank : Option Nat
  deriving DecidableEq, Repr

/-- A receive port (R137): lanes in use and failing, the lane count a reduction aims at. -/
structure PortSt where
  lanes : BitVec 4
  failing : BitVec 4
  target : Nat
  reduced : Bool
  deriving DecidableEq, Repr

/-- An FSYNC output (R135, R136). -/
structure FsyncSt where
  enabled : Bool
  /-- the last pulse instant, and that the pin was driven at it -/
  last : Option Nat
  driven : Bool
  /-- the Timeline has been stepped since the last edge -/
  stepped : Bool
  deriving DecidableEq, Repr

/-- The Camera Front End. -/
structure Camera where
  streams : List StreamSt
  ports : List PortSt
  fsync : List FsyncSt
  /-- batch being copied by each I3C controller (R130) -/
  copying : List (Option Batch)
  /-- stream whose GO is shown by each controller's BATCH_STATUS -/
  lastGo : List (Option Nat)
  /-- in-band interrupts refused by each controller (R129) -/
  ibis : List Nat
  deriving DecidableEq, Repr

/-! ### Image Pipeline (spec/06) -/

/-- A queued parameter update (R157, R158). -/
structure IspUpd where
  atSeq : Bool
  applySeq : Word
  offset : Nat
  data : List Byte
  deriving DecidableEq, Repr

/-- A context bank: the stream's parameter set with its defect list, and the queued updates (R141, R157). -/
structure IspBank where
  stream : Nat
  params : List Byte
  queue : List IspUpd
  /-- the bank is to be reloaded at the next frame start (R160) -/
  reload : Bool
  deriving DecidableEq, Repr

/-- A frame in a pipe (R145 to R156). -/
structure PipeFrame where
  stream : Nat
  layer : Nat
  seq : Word
  ts : Nat
  staged : Option (Nat × Nat)
  yuv : Bool
  /-- lines received, the last one first -/
  lines : List (List Nat)
  /-- lines that carry the input-flagged mark, and the mark of the frame as a whole (R125) -/
  marked : List Nat
  flagged : Bool
  params : List Byte
  version : Nat
  service : Bool
  closed : Bool
  /-- (ring index, band) already released or discarded -/
  done : List (Nat × Nat)
  statsDone : Bool
  /-- the frame was stopped and runs again from its first line (R146) -/
  restart : Bool
  deriving DecidableEq, Repr

/-- A closed staged frame that waits for its pipe (R145). -/
structure StagedFrame where
  stream : Nat
  layer : Nat
  seq : Word
  ts : Nat
  ring : Nat
  slot : Nat
  /-- input-flagged mark of the frame as a whole, and the lines with a mark of their own (R125) -/
  flagged : Bool
  marked : List Nat
  deriving DecidableEq, Repr

/-- One image pipe. Its state and bank in use are ISPn_STATUS. -/
structure PipeSt where
  banks : List (Option IspBank)
  frames : List PipeFrame
  waiting : List StagedFrame
  /-- a tinder injection: stream, lines, pattern (R127) -/
  inject : Option (Nat × Nat × Nat)
  /-- time of the last parameter parity error (R160) -/
  parityAt : Option Nat
  /-- update being copied: register bank, stream and the update (R157) -/
  copying : Option (Nat × Nat × IspUpd)
  deriving DecidableEq, Repr


/-! ### Interfaces (spec/19) -/

/-- A frame waiting in a transmit queue (R476). -/
structure EthTx where
  /-- 0 message of an output stream, 1 ARP reply, 2 gPTP message, 3 service response -/
  kind : Nat
  prio : Nat
  dmac : List Byte
  dip : List Byte
  dport : Nat
  sport : Nat
  payload : List Byte
  deriving DecidableEq, Repr

/-- A CAN FD transmit buffer (R479): output index, identifier, format and data. -/
structure CanTx where
  out : Nat
  id : Nat
  ext : Bool
  data : List Byte
  deriving DecidableEq, Repr

/-- A vehicle-state entry (R483, R484). -/
structure VsEntry where
  value : Word
  updates : Nat
  stale : Bool
  e2eFail : Bool
  ts : Nat
  acceptedAt : Nat
  alive : Option Nat
  deriving DecidableEq, Repr

/-- An entry before its first acceptance. -/
def VsEntry.fresh : VsEntry := ⟨0, 0, true, false, 0, 0, none⟩

/-- A submission being copied (R480, R481): register bank, writer, address, the descriptor and the Timeline at GO. -/
structure OfJob where
  bank : Nat
  domain : Nat
  addr : Nat
  desc : List Byte
  goAt : Nat
  deriving DecidableEq, Repr

/-- Where a service response goes (R487). -/
structure SvcPeer where
  mac : List Byte
  ip : List Byte
  port : Nat
  deriving DecidableEq, Repr

/-- A service interface: ETH0, ETH1 or the supervisor port (R485, R486). -/
structure SvcIfc where
  /-- challenge of the last HELLO -/
  challenge : Option (List Byte)
  /-- open session: identifier and key -/
  session : Option (Nat × List Byte)
  rxCounter : Option Word
  txCounter : Word
  fails : Nat
  lastReq : Nat
  /-- accepted requests not yet served: OP, body, whether it carried a session, and the requester -/
  requests : List (Nat × List Byte × Bool × SvcPeer)
  /-- the response that waits on the supervisor port -/
  response : Option (List Byte)
  deriving DecidableEq, Repr

/-- The staging session (R59, R60). Its state is SYS_STAGE_STATUS. -/
structure StageSt where
  open' : Bool
  ifc : Nat
  peer : SvcPeer
  gen : Word
  size : Nat
  /-- programmed runs: first byte and one past the last -/
  runs : List (Nat × Nat)
  received : Nat
  lastAt : Nat
  /-- an erase, a programming or the checks of END are in progress -/
  erasing : Bool
  programming : Option (Nat × List Byte)
  verifying : Bool
  deriving DecidableEq, Repr

/-- Ethernet, CAN, Output Framer, service channel, staging and GPIO. -/
structure Ifaces where
  /-- transmit queues of ETH0 and ETH1, in order of arrival -/
  eth : List (List EthTx)
  can : List (List CanTx)
  vs : List VsEntry
  ofJobs : List OfJob
  /-- sequence counters of the 64 output streams (R75) -/
  outSeq : List Word
  svc : List SvcIfc
  stage : StageSt
  /-- status mirror (R490) and the byte stream last sent on SUP_MISO -/
  mirror : List Byte
  refreshes : Nat
  miso : List Byte
  /-- the PPS outputs are high (R491) -/
  ppsHigh : Bool
  /-- the frame that each Ethernet port and each CAN controller put on its wire last, the former without preamble and FCS -/
  wireEth : List (List Byte)
  wireCan : List (Option CanTx)
  deriving DecidableEq, Repr

/-- A service interface without a session. -/
def SvcIfc.idle : SvcIfc := ⟨none, none, none, 0, 0, 0, [], none⟩


/-! ### Grenmar Links and partners (spec/18) -/

/-- One link (R450 to R452). Its state is GMLk_STATUS. -/
structure LinkSt where
  /-- flits sent and not yet acknowledged, oldest first, with their packets -/
  tx : List (Nat × List GmlPkt)
  txSeq : Nat
  /-- SEQ of the next flit to accept, and that a NAK for it has been sent -/
  rxNext : Nat
  nakSent : Bool
  /-- SEQ of the flit being replayed and its consecutive failed replays -/
  failSeq : Nat
  fails : Nat
  /-- times of recent replays, newest first (retry burst, R451) -/
  replays : List Nat
  /-- packets received and not yet acted on, oldest first -/
  rx : List GmlPkt
  /-- the identity check failed: held down until kindling (R453) -/
  refused : Bool
  lastFlit : Nat
  /-- last PEER_SENSE edge (R465) -/
  senseAt : Option Nat
  /-- devices on the time path that the partner last sent, as a bit mask (R464) -/
  path : Nat
  deriving DecidableEq, Repr

/-- A link that has not trained. -/
def LinkSt.idle : LinkSt := ⟨[], 0, 0, false, 0, 0, [], [], false, 0, none, 0⟩

/-- A request sent to a partner (R455, R456): its tag, the first link of its route, the unit that issued it, what it
accesses by 44-bit address, and its state: 0 outstanding, 1 completed, 2 ended with an error. -/
structure GmlTx where
  tag : Nat
  peer : Nat
  link : Nat
  unit : Nat
  write : Bool
  addr : Nat
  len : Nat
  status : Nat
  deriving DecidableEq, Repr

/-- The system of several devices. Partner states are GML_PEERS. -/
structure Gml where
  links : List LinkSt
  /-- time of the last packet heard of each device, and its readiness -/
  heard : List (Option Nat)
  ready : List Bool
  /-- first link of the route to each device (R454) -/
  routes : List (Option Nat)
  /-- (entry, partner, 0 asked or 1 granted) of cross-device reservations (R459) -/
  asked : List (Nat × Nat × Nat)
  /-- keys whose entries are reserved here for a partner's tokens -/
  promised : List (Nat × Word × Nat)
  /-- requests sent to partners and not yet used up by their units, and the next tag -/
  outstanding : List GmlTx
  nextTag : Nat
  /-- bytes returned by remote reads, by global address -/
  remote : List Host.Cell
  deriving DecidableEq, Repr

/-! ### The whole state -/

/-- The whole state of the block. -/
structure State where
  /-- the register file by offset from 0x002_0000_0000, rising, no entry equal to its reset value; for an SH field the value in force; bank k of a register banked by initiator lies at offset + k × 0x100_0000 (R114, R429) -/
  regs : List (Nat × Word)
  /-- shadow values of the SH registers written and not yet committed, by offset (R9) -/
  shadow : List (Nat × Word)
  /-- the memories of the local address map, in canonical form -/
  mem : List Host.Cell
  /-- the flag memory by flag index, rising, no entry equal to zero (R305) -/
  flags : List (Nat × DWord)
  /-- the Timeline in ns (R6, R346) -/
  now : Nat
  /-- number of free values drawn so far: the model's own field, not the spec's (log entry 1) -/
  free : Nat
  /-- fuses -/
  otp : Otp
  /-- the attached NOR flash -/
  flash : Flash
  /-- the Timeline's servo -/
  tl : TimeSt
  /-- pins -/
  pins : Pins
  /-- resets and kindling -/
  kin : Kindle
  /-- scenes and the switch in progress -/
  scene : SceneSt
  /-- the Frame-Graph Sequencer -/
  fgs : Fgs
  /-- the memories beside their bytes and flags -/
  mm : MemSt
  /-- the Policy Core pairs PC0 to PC3 -/
  cores : List CoreSt
  /-- fencible units by unit code -/
  units : List UnitSt
  /-- the Event Journal -/
  journal : Journal
  /-- the Safety Island -/
  safety : Safety
  /-- what the adaptation metrics and rules have accumulated -/
  adapt : Adapt
  /-- the maintenance arbiter -/
  maint : Maint
  /-- the Camera Front End -/
  cam : Camera
  /-- the image pipes ISP0 to ISP3 -/
  isp : List PipeSt
  /-- Ethernet, CAN, Output Framer, service channel, staging and GPIO -/
  io : Ifaces
  /-- the Grenmar Links and partners -/
  gml : Gml
  /-- the Check-Value Units beside their registers -/
  cvus : List CvuSt
  /-- the carry history of PYR0 to PYR3 -/
  carry : List (Option Carry)
  /-- the Neural Tiles' steps in progress -/
  nts : List TileSt
  /-- the pattern memories of FTR0 to FTR3, as their FTR_PATTERN section fills them; empty when none is loaded (R232, R233) -/
  patterns : List (List Byte)
  /-- the interrupt controller beside its registers -/
  icu : IcuSt
  /-- the queue of commands waiting, first in, first out -/
  pending : List Instr
  deriving DecidableEq, Repr

/-- The device right after reset: PORST_N is low, nothing has run, and every register, queue and memory holds
its reset value (R11, R35; table "Pin states through reset and kindling"). -/
def State.reset : State where
  regs := []
  shadow := []
  mem := []
  flags := []
  now := 0
  free := 0
  otp := ⟨0, 0, 0, 0, 0, 0, 0, false, 0⟩
  flash := ⟨false, false, 0, [], [], []⟩
  tl := ⟨false, 0, 0, none, none, none⟩
  pins := ⟨false, true, false, false, false, false, 0, 0⟩
  kin := ⟨true, false, true, none, 0, 0, false, false, [], 0, 0, 0, false, [], [], false, false, false, false, false, [], [], [], none, false, none, false⟩
  scene := ⟨[], none, none, [], [], 0⟩
  fgs := ⟨[], [], [], [], [], [], 0, 0, false, false, [], [], [], [], []⟩
  mm := ⟨[], [], [], [], 0, [], [], [], [], [], []⟩
  cores := List.replicate 4 CoreSt.zero
  units := []
  journal := ⟨false, false, [], [], [], false, none, 0, 0, false, [], [], [], []⟩
  safety := ⟨⟨[], none, none, none, none, none, 0, 0, false⟩, ⟨none, none, false, none, false, none⟩, [], [], [], [], [], none, none, List.replicate 16 none, [], [], 0, false, [0, 0, 0, 0], 0, false⟩
  adapt := ⟨[], none, none, 0, 0, 0, 0, [], 0, 0, 0, none, List.replicate 4 none, none, 0⟩
  maint := ⟨[], [], []⟩
  cam := ⟨[], List.replicate 4 ⟨0, 0, 0, false⟩, List.replicate 4 ⟨false, none, false, false⟩, List.replicate 4 none, List.replicate 4 none, List.replicate 4 0⟩
  isp := List.replicate 4 ⟨List.replicate 8 none, [], [], none, none, none⟩
  io := ⟨[[], []], [[], []], List.replicate 32 VsEntry.fresh, [], List.replicate 64 0, List.replicate 3 SvcIfc.idle, ⟨false, 0, ⟨[], [], 0⟩, 0, 0, [], 0, 0, false, none, false⟩, List.replicate 64 0, 0, [], false, [[], []], [none, none]⟩
  gml := ⟨List.replicate 3 LinkSt.idle, List.replicate 4 none, List.replicate 4 false, List.replicate 4 none, [], [], [], 0, []⟩
  cvus := List.replicate 8 CvuSt.idle
  carry := List.replicate 4 none
  nts := List.replicate 16 TileSt.idle
  patterns := List.replicate 4 []
  icu := ⟨[], []⟩
  pending := []

end Sys2Proof.Machine
end

