-- ==== Sys2Proof/Machine/Ops.lean ====
section
/-! DEFINITION. The named operations every block shares: the register file, memory, sequence comparison, free
values, journal posts, doubt and severe events, and the units. -/

namespace Sys2Proof.Machine

open Sys2Proof

/-- The answer of a command. -/
abbrev Res := Host.Outcome State Fault Refusal

/-! ### Numbers -/

/-- Sequence a is newer than b exactly when (a − b) mod 2^32 lies in 1 to 2^31 − 1 (R5). -/
def seqNewer (a b : Word) : Bool :=
  decide (1 ≤ (a - b).toNat) && decide ((a - b).toNat ≤ 2147483647)

/-- The value of bits [hi:lo] of a word. -/
def Bits.get (b : Bits) (w : Word) : Nat :=
  (w.toNat >>> b.lo) % 2 ^ (b.hi + 1 - b.lo)

/-- A word with bits [hi:lo] replaced by a value, cut to the field's width. -/
def Bits.put (b : Bits) (v : Nat) (w : Word) : Word :=
  let width := b.hi + 1 - b.lo
  let m : Word := BitVec.ofNat 32 ((2 ^ width - 1) <<< b.lo)
  (w &&& ~~~m) ||| (BitVec.ofNat 32 ((v % 2 ^ width) <<< b.lo) &&& m)

/-- The field's mask in its word. -/
def Bits.mask (b : Bits) : Word :=
  BitVec.ofNat 32 ((2 ^ (b.hi + 1 - b.lo) - 1) <<< b.lo)

/-- ⌈a ÷ b⌉, 0 when b is 0. -/
def ceilDiv (a b : Nat) : Nat := if b = 0 then 0 else (a + b - 1) / b

/-- The first 32 bits of a natural number. -/
def w32 (n : Nat) : Word := BitVec.ofNat 32 n

/-- An integer clamped to a closed range. -/
def clampI (lo hi x : Int) : Int := max lo (min hi x)

/-- Little-endian value of a byte list (R4). -/
def leNat : List Byte → Nat
  | [] => 0
  | b :: bs => b.toNat + 256 * leNat bs

/-- The n low bytes of a number, least significant first (R4). -/
def leBytes : Nat → Nat → List Byte
  | 0, _ => []
  | n + 1, v => BitVec.ofNat 8 v :: leBytes n (v / 256)

/-- Big-endian value of a byte list. -/
def beNat (bs : List Byte) : Nat := leNat bs.reverse

/-- The n low bytes of a number, most significant first. -/
def beBytes (n v : Nat) : List Byte := (leBytes n v).reverse

/-- A signed value of w bits. -/
def signed (w n : Nat) : Int :=
  let m := n % 2 ^ w
  if m < 2 ^ (w - 1) then (m : Int) else (m : Int) - 2 ^ w

/-- The low w bits of an integer. -/
def unsigned (w : Nat) (x : Int) : Nat := (x % (2 ^ w : Int)).toNat

/-! ### Sorted association lists -/

/-- The value of a key in a list of pairs. -/
def assocGet {α : Type} : List (Nat × α) → Nat → Option α
  | [], _ => none
  | (k, v) :: t, a => if k = a then some v else assocGet t a

/-- A list of pairs, keys rising, with one key set to a value. -/
def assocPut {α : Type} : List (Nat × α) → Nat → α → List (Nat × α)
  | [], a, v => [(a, v)]
  | (k, w) :: t, a, v =>
    if a < k then (a, v) :: (k, w) :: t
    else if a = k then (a, v) :: t
    else (k, w) :: assocPut t a v

/-- A list of pairs, keys rising, with one key removed. -/
def assocDel {α : Type} : List (Nat × α) → Nat → List (Nat × α)
  | [], _ => []
  | (k, w) :: t, a => if k = a then t else (k, w) :: assocDel t a

/-- Set a key in a list that lists no entry equal to the default d: the canonical form. -/
def sparsePut {α : Type} [DecidableEq α] (d : α) (l : List (Nat × α)) (a : Nat) (v : α) : List (Nat × α) :=
  if v = d then assocDel l a else assocPut l a v

/-- Keys strictly rise from a lower bound. -/
def risingFrom {α : Type} (lo : Nat) : List (Nat × α) → Bool
  | [] => true
  | (k, _) :: t => decide (lo ≤ k) && risingFrom (k + 1) t

/-! ### The register file (R4, R7, R11, R504) -/

/-- Offsets of one register's instances: does `a` lie at an instance of it? -/
def strideHit : List (Nat × Nat) → Nat → Bool
  | [], r => r == 0
  | (st, cnt) :: t, r => decide (r / st < cnt) && strideHit t (r % st)

/-- The reset value of the register at an offset (R11). Banks of banked registers share it. -/
def resetWord (a : Nat) : Word :=
  let o := a % 0x1000000
  match resetRows.find? (fun r => decide (r.1 ≤ o) && strideHit r.2.1 (o - r.1)) with
  | some (_, _, v) => w32 v
  | none => 0

/-- The register at an offset, as the hardware uses it. -/
def State.reg (s : State) (a : Nat) : Word := (assocGet s.regs a).getD (resetWord a)

/-- Set the register at an offset. -/
def State.setReg (s : State) (a : Nat) (v : Word) : State :=
  { s with regs := if v = resetWord a then assocDel s.regs a else assocPut s.regs a v }

/-- A field of a register. -/
def State.fld (s : State) (a : Nat) (b : Bits) : Nat := b.get (s.reg a)

/-- Set a field of a register. -/
def State.setFld (s : State) (a : Nat) (b : Bits) (v : Nat) : State := s.setReg a (b.put v (s.reg a))

/-- A one-bit field as a Bool. -/
def State.flag (s : State) (a : Nat) (b : Bits) : Bool := s.fld a b != 0

/-- Set one-bit field from a Bool. -/
def State.setFlag (s : State) (a : Nat) (b : Bits) (v : Bool) : State := s.setFld a b (if v then 1 else 0)

/-- Set the bit of a sticky event (W1C set by hardware, R8). -/
def State.event (s : State) (a : Nat) (b : Bits) : State := s.setFld a b 1

/-- Add to a field that saturates at its all-ones value. -/
def State.addFld (s : State) (a : Nat) (b : Bits) (n : Nat) : State :=
  s.setFld a b (min (s.fld a b + n) (2 ^ (b.hi + 1 - b.lo) - 1))

/-- Add to a 32-bit counter that saturates at 0xFFFF_FFFF. -/
def State.addCnt (s : State) (a : Nat) (n : Nat) : State := s.addFld a ⟨31, 0⟩ n

/-- Offset of a register in the bank of an initiator (R114, R428, R500): pairs 0 to 3, HKC 4, Safety Manager 5. -/
def bankOff (bank a : Nat) : Nat := a + bank * 0x1000000

/-! ### Memory -/

/-- The byte at a local address. -/
def Memory.byte (m : List Host.Cell) (a : Nat) : Byte := (assocGet m a).getD Config.unwrittenByte

/-- Memory with one byte written, in canonical form. -/
def Memory.put (m : List Host.Cell) (a : Nat) (v : Byte) : List Host.Cell := sparsePut Config.unwrittenByte m a v

/-- Consecutive bytes from an address. -/
def Memory.bytes (m : List Host.Cell) (a : Nat) : Nat → List Byte
  | 0 => []
  | n + 1 => Memory.byte m a :: Memory.bytes m (a + 1) n

/-- Memory with consecutive bytes written from an address. -/
def Memory.putBytes (m : List Host.Cell) (a : Nat) : List Byte → List Host.Cell
  | [] => m
  | b :: bs => Memory.putBytes (Memory.put m a b) (a + 1) bs

/-- A region as the ash fill leaves it (R319): zeros. -/
def Memory.clear (m : List Host.Cell) (a n : Nat) : List Host.Cell :=
  m.filter (fun c => decide (c.1 < a) || decide (a + n ≤ c.1))

/-- The canonical form: addresses strictly rising, no entry equal to an unlisted address's byte. -/
def Memory.wf (m : List Host.Cell) : Bool :=
  risingFrom 0 m && m.all (fun c => c.2 != Config.unwrittenByte)

/-- One byte of local memory. -/
def State.byte (s : State) (a : Nat) : Byte := Memory.byte s.mem a

/-- A little-endian value of n bytes of local memory. -/
def State.le (s : State) (a n : Nat) : Nat := leNat (Memory.bytes s.mem a n)

/-- Write bytes into local memory. -/
def State.store (s : State) (a : Nat) (bs : List Byte) : State := { s with mem := Memory.putBytes s.mem a bs }

/-! ### Free values and time -/

/-- Draw a free value: one the spec does not state (log entry 1). -/
def State.draw (s : State) : Nat × State := (Config.freeValue s.free, { s with free := s.free + 1 })

/-- Move the Timeline forward to an instant that a timer names (log entry 2). -/
def State.reach (s : State) (t : Nat) : State := { s with now := max s.now t }

/-! ### Units (spec/02, "Unit codes") -/

/-- The unit with a code. A unit not listed is powered down and not fenced. -/
def State.unit (s : State) (code : Nat) : UnitSt :=
  (s.units.find? (fun u => u.code == code)).getD ⟨code, false, true, none, 0, 0, [], none, 0, none, []⟩

/-- Replace the entry of a unit. -/
def putUnit : List UnitSt → UnitSt → List UnitSt
  | [], u => [u]
  | v :: t, u => if v.code == u.code then u :: t else v :: putUnit t u

/-- Change a unit. -/
def State.setUnit (s : State) (u : UnitSt) : State := { s with units := putUnit s.units u }

/-- Change the unit with a code. -/
def State.modUnit (s : State) (code : Nat) (f : UnitSt → UnitSt) : State := s.setUnit (f (s.unit code))

/-- Domain IDs of safety partitions (R399). -/
def isSafety (d : Nat) : Bool := decide (2 ≤ d) && decide (d ≤ 7)

/-- Bit position of a unit code in UNIT_MASK, for the classes the mask names (spec/02, "Layer header"). -/
def maskBit (code : Nat) : Option Nat :=
  let n := code % 256
  match code / 256 with
  | 0x03 => if n < 4 then some n else none
  | 0x04 => if n < 4 then some (4 + n) else none
  | 0x05 => if n < 4 then some (8 + n) else none
  | 0x06 => if n < 4 then some (12 + n) else none
  | 0x07 => if n < 4 then some (16 + n) else none
  | 0x09 => if n < 8 then some (20 + n) else none
  | 0x0B => if n < 4 then some (28 + n) else none
  | 0x08 => if n < 16 then some (32 + n) else none
  | 0x02 => if n < 4 then some (48 + n) else none
  | 0x01 => if n < 4 then some (52 + n) else none
  | 0x0A => if n < 8 then some (56 + n) else none
  | _ => none

/-- A UNIT_MASK names a unit. -/
def maskNames (mask : DWord) (code : Nat) : Bool :=
  match maskBit code with
  | some b => mask.getLsbD b
  | none => false

/-- Some bound layer of a safety partition names the unit (R395). -/
def State.safetyUnit (s : State) (code : Nat) : Bool :=
  s.scene.layers.any (fun l => isSafety l.rc.partition && maskNames l.rc.unitMask code)

/-! ### Journal posts (R358 to R361) -/

/-- Count a refused record (R361). -/
def State.loseRecord (s : State) (source : Nat) : State :=
  let s := (s.addCnt Reg.EJ_LOST_CNT 1).event Reg.EJ_EVENT F.EJ_EVENT.LOST
  let j := s.journal
  { s with journal := { j with
      lostFirst := if j.lostSince = 0 then source else j.lostFirst
      lostSince := j.lostSince + 1
      lostBefore := true } }

/-- Put a record into its source's queue; the Safety Island keeps its own copy of doubt and severe records
(R361, R397). A record of a fenced journal is lost (R41). -/
def State.postRec (s : State) (r : JRec) : State :=
  let s := if r.cls ≥ 2 then
      { s with journal := { s.journal with siCopy := (s.journal.siCopy ++ [r]).drop ((s.journal.siCopy.length + 1) - 256) } }
    else s
  if s.journal.fenced then s
  else if (s.journal.queue.filter (fun q => q.source == r.source)).length ≥ 16 then s.loseRecord r.source
  else { s with journal := { s.journal with queue := s.journal.queue ++ [r] } }

/-- Post a journal record with the timestamp of this moment (R358). -/
def State.log (s : State) (source code cls partition stream : Nat) (a0 a1 a2 : Nat) : State :=
  s.postRec { ts := s.now, seq := 0, source := source, code := code, partition := partition, cls := cls,
              synced := s.fld Reg.TL_STATUS F.TL_STATUS.STATE == 2, lostBefore := false, remote := false,
              device := s.fld Reg.GML_SYS F.GML_SYS.DEVICE, stream := stream,
              arg0 := w32 a0, arg1 := w32 a1, arg2 := w32 a2 }

/-- The word n/t of the table "Journal codes". -/
def ntWord (node tile : Nat) : Nat := (node % 4096) * 65536 + tile % 4096

/-! ### Doubt and severe events (R394 to R396, R425) -/

/-- A severe event: recorded, and on its way to the Island's action (R395, R397). -/
def State.severe (s : State) (cause unit : Nat) : State :=
  let s := s.setReg Reg.SI_LAST (w32 (3 * 0x1000000 + cause * 0x10000 + unit))
  let s := s.log 0x1200 0x0702 3 0 0xFF cause unit 0
  { s with safety := { s.safety with severes := s.safety.severes ++ [(cause, unit)] } }

/-- A doubt event: counted, recorded, and on its way to the selector. A doubt while the Ember path is not
healthy is cause 17, severe (R395, R418). -/
def State.doubt (s : State) (cause unit partition : Nat) (seq : Word) : State :=
  let s := s.setReg Reg.SI_LAST (w32 (2 * 0x1000000 + cause * 0x10000 + unit))
  let s := (s.addCnt Reg.SI_DOUBT_CNT 1).event Reg.SI_EVENT F.SI_EVENT.DOUBT
  let s := s.log 0x1200 0x0701 2 partition 0xFF cause unit seq.toNat
  let s := { s with safety := { s.safety with doubts := s.safety.doubts ++ [(cause, unit, seq)] } }
  if s.fld Reg.SI_STATUS F.SI_STATUS.EMBER != 0 then s.severe 17 0x1300 else s

/-- A doubt of causes 7 and 8, which is one only for a unit of a bound safety-partition layer or the device as a
whole (R395). -/
def State.doubtIf (s : State) (concerns : Bool) (cause unit : Nat) : State :=
  if concerns then s.doubt cause unit 0 0 else s

end Sys2Proof.Machine
end

