-- ==== Sys2Proof/Machine/Crypto.lean ====
section
/-! DEFINITION. The check values and the cryptography the spec names: the four CRCs of R382, SHA-256 and
HMAC-SHA-256 (R51, R485), ECDSA and ECDH on P-256 (R51, R486), and AES-256 in CTR mode (R53). -/

namespace Sys2Proof.Machine

open Sys2Proof

/-! ### CRCs (table "CRC parameters", R382) -/

/-- One reflected CRC step over a bit. -/
def crcReflBit (poly reg : Nat) : Nat := if reg % 2 = 1 then (reg / 2) ^^^ poly else reg / 2

/-- A function applied n times. -/
def iterate {α : Type} (f : α → α) : Nat → α → α
  | 0, x => x
  | n + 1, x => iterate f n (f x)

/-- One reflected CRC step over a byte; the polynomial is given bit-reversed. -/
def crcReflByte (poly reg : Nat) (b : Byte) : Nat := iterate (crcReflBit poly) 8 (reg ^^^ b.toNat)

/-- One unreflected CRC step over a bit of a register of w bits. -/
def crcFwdBit (w poly reg : Nat) : Nat :=
  if reg / 2 ^ (w - 1) % 2 = 1 then (reg * 2 % 2 ^ w) ^^^ poly else reg * 2 % 2 ^ w

/-- One unreflected CRC step over a byte. -/
def crcFwdByte (w poly reg : Nat) (b : Byte) : Nat :=
  iterate (crcFwdBit w poly) 8 (reg ^^^ (b.toNat * 2 ^ (w - 8)))

/-- Initial register of each polynomial code. -/
def crcInit (poly : Nat) : Nat :=
  match poly with
  | 0 => 0xFFFFFFFF
  | 1 => 0xFFFFFFFF
  | 2 => 0xFFFF
  | _ => 0xFF

/-- The register after a byte, by polynomial code. -/
def crcByte (poly reg : Nat) (b : Byte) : Nat :=
  match poly with
  | 0 => crcReflByte 0x82F63B78 reg b
  | 1 => crcReflByte 0xEDB88320 reg b
  | 2 => crcFwdByte 16 0x1021 reg b
  | _ => crcFwdByte 8 0x1D reg b

/-- The result of a register: the final XOR of each polynomial. -/
def crcFinal (poly reg : Nat) : Nat :=
  match poly with
  | 0 => reg ^^^ 0xFFFFFFFF
  | 1 => reg ^^^ 0xFFFFFFFF
  | 2 => reg
  | _ => reg ^^^ 0xFF

/-- The register after a byte string. -/
def crcRun (poly reg : Nat) (bs : List Byte) : Nat := bs.foldl (crcByte poly) reg

/-- The CRC of a byte string. -/
def crc (poly : Nat) (bs : List Byte) : Nat := crcFinal poly (crcRun poly (crcInit poly) bs)

/-- CRC-32C of a byte string. -/
def crc32c (bs : List Byte) : Nat := crc 0 bs

/-! ### SHA-256 and HMAC -/

/-- The round constants of SHA-256, first half. -/
def shaKlo : List Nat := [
  0x428a2f98, 0x71374491, 0xb5c0fbcf, 0xe9b5dba5, 0x3956c25b, 0x59f111f1, 0x923f82a4, 0xab1c5ed5,
  0xd807aa98, 0x12835b01, 0x243185be, 0x550c7dc3, 0x72be5d74, 0x80deb1fe, 0x9bdc06a7, 0xc19bf174,
  0xe49b69c1, 0xefbe4786, 0x0fc19dc6, 0x240ca1cc, 0x2de92c6f, 0x4a7484aa, 0x5cb0a9dc, 0x76f988da,
  0x983e5152, 0xa831c66d, 0xb00327c8, 0xbf597fc7, 0xc6e00bf3, 0xd5a79147, 0x06ca6351, 0x14292967]

/-- The round constants of SHA-256, second half. -/
def shaKhi : List Nat := [
  0x27b70a85, 0x2e1b2138, 0x4d2c6dfc, 0x53380d13, 0x650a7354, 0x766a0abb, 0x81c2c92e, 0x92722c85,
  0xa2bfe8a1, 0xa81a664b, 0xc24b8b70, 0xc76c51a3, 0xd192e819, 0xd6990624, 0xf40e3585, 0x106aa070,
  0x19a4c116, 0x1e376c08, 0x2748774c, 0x34b0bcb5, 0x391c0cb3, 0x4ed8aa4a, 0x5b9cca4f, 0x682e6ff3,
  0x748f82ee, 0x78a5636f, 0x84c87814, 0x8cc70208, 0x90befffa, 0xa4506ceb, 0xbef9a3f7, 0xc67178f2]

/-- The initial hash of SHA-256. -/
def shaInit : List Word := [0x6a09e667, 0xbb67ae85, 0x3c6ef372, 0xa54ff53a, 0x510e527f, 0x9b05688c, 0x1f83d9ab, 0x5be0cd19]

/-- Extend the message schedule: the newest word first. -/
def shaExtend : Nat → List Word → List Word
  | 0, w => w
  | n + 1, w =>
    let w2 := w.getD 1 0
    let w7 := w.getD 6 0
    let w15 := w.getD 14 0
    let w16 := w.getD 15 0
    let s0 := w15.rotateRight 7 ^^^ w15.rotateRight 18 ^^^ (w15 >>> 3)
    let s1 := w2.rotateRight 17 ^^^ w2.rotateRight 19 ^^^ (w2 >>> 10)
    shaExtend n ((w16 + s0 + w7 + s1) :: w)

/-- One round of SHA-256 on the eight working words. -/
def shaRound (v : List Word) (kw : Word) : List Word :=
  match v with
  | [a, b, c, d, e, f, g, h] =>
    let s1 := e.rotateRight 6 ^^^ e.rotateRight 11 ^^^ e.rotateRight 25
    let ch := (e &&& f) ^^^ (~~~e &&& g)
    let t1 := h + s1 + ch + kw
    let s0 := a.rotateRight 2 ^^^ a.rotateRight 13 ^^^ a.rotateRight 22
    let mj := (a &&& b) ^^^ (a &&& c) ^^^ (b &&& c)
    [t1 + s0 + mj, a, b, c, d + t1, e, f, g]
  | _ => v

/-- The sixteen big-endian words of a 64-byte block. -/
def beWords : Nat → List Byte → List Word
  | 0, _ => []
  | n + 1, bs => w32 (beNat (bs.take 4)) :: beWords n (bs.drop 4)

/-- One block of SHA-256. -/
def shaBlock (h : List Word) (blk : List Byte) : List Word :=
  let w := (shaExtend 48 (beWords 16 blk).reverse).reverse
  let kw := List.zipWith (fun (k : Nat) (x : Word) => w32 k + x) (shaKlo ++ shaKhi) w
  List.zipWith (· + ·) h (kw.foldl shaRound h)

/-- All blocks of a padded message. -/
def shaBlocks : Nat → List Word → List Byte → List Word
  | 0, h, _ => h
  | n + 1, h, bs => shaBlocks n (shaBlock h (bs.take 64)) (bs.drop 64)

/-- SHA-256 of a byte string, as 32 bytes. -/
def sha256 (bs : List Byte) : List Byte :=
  let n := bs.length
  let zeros := (119 - n % 64) % 64
  let m := bs ++ [0x80] ++ List.replicate zeros 0 ++ beBytes 8 (8 * n)
  (shaBlocks (m.length / 64) shaInit m).flatMap (fun w => beBytes 4 w.toNat)

/-- HMAC-SHA-256. -/
def hmacSha256 (key msg : List Byte) : List Byte :=
  let k := if key.length > 64 then sha256 key else key
  let k := k ++ List.replicate (64 - k.length) 0
  sha256 (k.map (· ^^^ 0x5c) ++ sha256 (k.map (· ^^^ 0x36) ++ msg))

/-! ### P-256 -/

/-- The field prime, the group order and the coefficient b of P-256. -/
def p256P : Nat := 0xffffffff00000001000000000000000000000000ffffffffffffffffffffffff
def p256N : Nat := 0xffffffff00000000ffffffffffffffffbce6faada7179e84f3b9cac2fc632551
def p256B : Nat := 0x5ac635d8aa3a93e7b3ebbd55769886bc651d06b0cc53b0f63bce3c3e27d2604b
/-- The generator of P-256. -/
def p256G : Option (Nat × Nat) :=
  some (0x6b17d1f2e12c4247f8bce6e563a440f277037d812deb33a0f4a13945d898c296,
        0x4fe342e2fe1a7f9b8ee7eb4a7c0f9e162bce33576b315ececbb6406837bf51f5)

/-- x^e mod m over the low `fuel` bits of e. -/
def modPow (m : Nat) : Nat → Nat → Nat → Nat
  | 0, _, _ => 1 % m
  | fuel + 1, x, e =>
    let r := modPow m fuel (x * x % m) (e / 2)
    if e % 2 = 1 then x * r % m else r

/-- Inverse modulo a prime of 256 bits. -/
def modInv (m x : Nat) : Nat := modPow m 256 (x % m) (m - 2)

/-- Sum of two points of P-256, none for the point at infinity. -/
def ecAdd (a b : Option (Nat × Nat)) : Option (Nat × Nat) :=
  match a, b with
  | none, q => q
  | p, none => p
  | some (x1, y1), some (x2, y2) =>
    let p := p256P
    if x1 = x2 ∧ (y1 + y2) % p = 0 then none
    else
      let l := if x1 = x2 then (3 * x1 * x1 + (p - 3)) * modInv p (2 * y1) % p
               else (y2 + p - y1) * modInv p (x2 + p - x1) % p
      let x3 := (l * l + 2 * p - x1 - x2) % p
      some (x3, (l * (x1 + p - x3) + p - y1) % p)

/-- k · P over the low `fuel` bits of k. -/
def ecMul : Nat → Nat → Option (Nat × Nat) → Option (Nat × Nat)
  | 0, _, _ => none
  | fuel + 1, k, pt =>
    let r := ecMul fuel (k / 2) (ecAdd pt pt)
    if k % 2 = 1 then ecAdd pt r else r

/-- A point of P-256 from 64 bytes X then Y, big-endian, when it lies on the curve. -/
def ecPoint (bs : List Byte) : Option (Nat × Nat) :=
  let x := beNat (bs.take 32)
  let y := beNat ((bs.drop 32).take 32)
  if bs.length = 64 ∧ x < p256P ∧ y < p256P ∧ y * y % p256P = (x * x * x + (p256P - 3) * x + p256B) % p256P
  then some (x, y) else none

/-- ECDSA verification on P-256 over a message digest. -/
def ecdsaVerify (key digest sig : List Byte) : Bool :=
  let r := beNat (sig.take 32)
  let s := beNat ((sig.drop 32).take 32)
  match ecPoint key with
  | none => false
  | some q =>
    if r = 0 ∨ s = 0 ∨ r ≥ p256N ∨ s ≥ p256N then false
    else
      let z := beNat digest
      let w := modInv p256N s
      match ecAdd (ecMul 256 (z * w % p256N) p256G) (ecMul 256 (r * w % p256N) (some q)) with
      | none => false
      | some (x, _) => x % p256N == r

/-- The 64 bytes of a point, zeros for the point at infinity. -/
def ecBytes (p : Option (Nat × Nat)) : List Byte :=
  match p with
  | none => List.replicate 64 0
  | some (x, y) => beBytes 32 x ++ beBytes 32 y

/-! ### AES-256 -/

/-- Multiplication by x in the AES field. -/
def xtime (a : Byte) : Byte := if a.getLsbD 7 then (a <<< 1) ^^^ 0x1b else a <<< 1

/-- Multiplication in the AES field, over the low `fuel` bits of b. -/
def gmul : Nat → Byte → Byte → Byte
  | 0, _, _ => 0
  | n + 1, a, b => (if b.getLsbD 0 then a else 0) ^^^ gmul n (xtime a) (b >>> 1)

/-- x^254, the inverse in the AES field. -/
def gpow : Nat → Nat → Byte → Byte
  | 0, _, _ => 1
  | n + 1, e, a => let r := gpow n (e / 2) (gmul 8 a a); if e % 2 = 1 then gmul 8 a r else r

/-- The AES S-box. -/
def sbox (a : Byte) : Byte :=
  let b := gpow 8 254 a
  b ^^^ b.rotateLeft 1 ^^^ b.rotateLeft 2 ^^^ b.rotateLeft 3 ^^^ b.rotateLeft 4 ^^^ 0x63

/-- XOR of two byte strings. -/
def xorBytes (a b : List Byte) : List Byte := List.zipWith (· ^^^ ·) a b

/-- Expand an AES-256 key: words newest first. -/
def aesExpand : Nat → Nat → Byte → List (List Byte) → List (List Byte)
  | 0, _, _, ws => ws
  | n + 1, i, rc, ws =>
    let prev := ws.getD 0 []
    let back := ws.getD 7 []
    if i % 8 = 0 then
      let t := (prev.drop 1 ++ prev.take 1).map sbox
      aesExpand n (i + 1) (xtime rc) (xorBytes back (xorBytes t [rc, 0, 0, 0]) :: ws)
    else if i % 8 = 4 then aesExpand n (i + 1) rc (xorBytes back (prev.map sbox) :: ws)
    else aesExpand n (i + 1) rc (xorBytes back prev :: ws)

/-- Cut a byte string into words of four bytes. -/
def words4 : Nat → List Byte → List (List Byte)
  | 0, _ => []
  | n + 1, bs => bs.take 4 :: words4 n (bs.drop 4)

/-- The 15 round keys of AES-256, 16 bytes each. -/
def aesKeys (key : List Byte) : List (List Byte) :=
  let ws := (aesExpand 52 8 1 (words4 8 key).reverse).reverse
  (List.range 15).map (fun r => ((ws.drop (4 * r)).take 4).flatten)

/-- ShiftRows on 16 bytes, column by column. -/
def shiftRows (b : List Byte) : List Byte := (List.range 16).map (fun i => b.getD ((i + 4 * (i % 4)) % 16) 0)

/-- MixColumns on 16 bytes. -/
def mixColumns (b : List Byte) : List Byte :=
  (List.range 16).map (fun i =>
    let c := i / 4 * 4
    let at' := fun (k : Nat) => b.getD (c + (i + k) % 4) 0
    xtime (at' 0) ^^^ (xtime (at' 1) ^^^ at' 1) ^^^ at' 2 ^^^ at' 3)

/-- AES-256 encryption of one block. -/
def aesBlock (keys : List (List Byte)) (blk : List Byte) : List Byte :=
  let mid := ((keys.drop 1).take 13).foldl (fun st k => xorBytes (mixColumns (shiftRows (st.map sbox))) k)
    (xorBytes blk (keys.getD 0 []))
  xorBytes (shiftRows (mid.map sbox)) (keys.getD 14 [])

/-- CTR mode: the counter block is a 12-byte prefix and a 32-bit big-endian block counter (R53). -/
def aesCtr (keys : List (List Byte)) (pre : List Byte) : Nat → Nat → List Byte → List Byte
  | 0, _, _ => []
  | n + 1, ctr, bs => xorBytes (aesBlock keys (pre ++ beBytes 4 ctr)) (bs.take 16) ++ aesCtr keys pre n (ctr + 1) (bs.drop 16)

/-- Decrypt a section: AES-256-CTR under the weight key (R53). -/
def aesCtrDecrypt (key : BitVec 256) (buildId : List Byte) (pos : Nat) (bs : List Byte) : List Byte :=
  aesCtr (aesKeys (beBytes 32 key.toNat)) (buildId.take 8 ++ beBytes 4 pos) (ceilDiv bs.length 16) 0 bs

end Sys2Proof.Machine
end

