-- ==== Sys2Proof/Machine/Image.lean ====
section
/-! DEFINITION. The attached flash, the image regions and the Kindling Image format: header, section table and
the records of the sections that drive the device (R47 to R57; spec/02, "Kindling Image format"). -/

namespace Sys2Proof.Machine

open Sys2Proof

/-! ### Flash and regions (R47, R48) -/

/-- A byte of a flash device. -/
def Flash.byte (f : Flash) (dev a : Nat) : Byte :=
  (assocGet (if dev = 0 then f.dev0 else f.dev1) a).getD Config.erasedByte

/-- Bytes of a flash device. -/
def Flash.bytes (f : Flash) (dev a : Nat) : Nat → List Byte
  | 0 => []
  | n + 1 => f.byte dev a :: f.bytes dev (a + 1) n

/-- Set the cells of a flash device. -/
def Flash.setDev (f : Flash) (dev : Nat) (c : List Host.Cell) : Flash :=
  if dev = 0 then { f with dev0 := c } else { f with dev1 := c }

/-- Erase a range: every byte reads 0xFF. -/
def Flash.erase (f : Flash) (dev a n : Nat) : Flash :=
  f.setDev dev ((if dev = 0 then f.dev0 else f.dev1).filter (fun c => decide (c.1 < a) || decide (a + n ≤ c.1)))

/-- Program bytes: a NOR program clears bits and sets none. -/
def Flash.program (f : Flash) (dev a : Nat) : List Byte → Flash
  | [] => f
  | b :: bs =>
    let cells := if dev = 0 then f.dev0 else f.dev1
    (f.setDev dev (sparsePut Config.erasedByte cells a (f.byte dev a &&& b))).program dev (a + 1) bs

/-- Device and first byte of an image region, 0 for A and 1 for B (R47). -/
def Flash.region (f : Flash) (r : Nat) : Nat × Nat :=
  if r = 0 then (0, 0) else if f.present1 then (1, 0) else (0, f.size / 2)

/-- Largest number of bytes of a region (R47). -/
def Flash.regionSize (f : Flash) : Nat :=
  if f.present0 && f.present1 then min f.size 0x10000000 else min (f.size / 2) 0x10000000

/-- Bytes of a region from its commit sector. -/
def Flash.regionBytes (f : Flash) (r off n : Nat) : List Byte :=
  let (d, b) := f.region r
  f.bytes d (b + off) n

/-- Bytes of the image of a region; offsets count from the header (R48). -/
def Flash.img (f : Flash) (r off n : Nat) : List Byte := f.regionBytes r (0x1000 + off) n

/-- A little-endian field of the image. -/
def Flash.imgLe (f : Flash) (r off n : Nat) : Nat := leNat (f.img r off n)

/-! ### Commit sector and header (R48, R49, R51, R55) -/

/-- The header's GENERATION. -/
def Flash.generation (f : Flash) (r : Nat) : Word := w32 (f.imgLe r 0x00C 4)

/-- The commit sector is valid (R49 test 1). -/
def Flash.commitValid (f : Flash) (r : Nat) : Bool :=
  let b := f.regionBytes r 0 12
  leNat (b.take 4) == 0x4D435848 && leNat ((b.drop 4).take 4) == (f.generation r).toNat
    && leNat ((b.drop 8).take 4) == crc32c (b.take 8)

/-- All bytes of a list are zero. -/
def allZero (bs : List Byte) : Bool := bs.all (· == 0)

/-- Every reserved byte is zero and every field within its range (R49 test 4, R55). -/
def Flash.headerFields (f : Flash) (r stepping : Nat) : Bool :=
  let g := f.imgLe r
  g 0x004 2 == 1 && g 0x006 2 == 0x200 && decide (g 0x009 1 ≤ stepping) && decide (g 0x010 4 ≤ 64)
    && decide (g 0x014 4 ≤ 1) && decide (1 ≤ g 0x01C 2) && decide (g 0x01C 2 ≤ 1024) && decide (g 0x01E 2 ≤ 3)
    && g 0x020 4 % 256 == 0 && decide (g 0x024 1 ≤ 15) && decide (1 ≤ g 0x025 1) && decide (g 0x025 1 ≤ 16)
    && g 0x026 2 == 0 && decide (8 ≤ g 0x0A0 1) && decide (g 0x0A0 1 ≤ 30) && decide (g 0x0A1 1 ≤ 3)
    && allZero (f.img r 0x0A2 282)

/-- The key hash in an OTP slot. -/
def Otp.keyHash (o : Otp) (k : Nat) : BitVec 256 :=
  match k with
  | 0 => o.keyHash0
  | 1 => o.keyHash1
  | 2 => o.keyHash2
  | _ => o.keyHash3

/-- A public key's digest is that of an unrevoked OTP slot (R51). -/
def Otp.admits (o : Otp) (k : Nat) (key : List Byte) : Bool :=
  decide (k < 4) && !o.revoked.getLsbD k && beNat (sha256 key) == (o.keyHash k).toNat

/-- The first candidate test of R49 that a region fails, by its number in the table and its code. -/
def candidateTest (f : Flash) (o : Otp) (stepping r : Nat) : Option (Nat × Nat) :=
  if !f.commitValid r then some (1, 0x01)
  else if !(f.imgLe r 0 4 == 0x494B5848 && f.imgLe r 8 1 == 0x48 && f.imgLe r 0x0A 2 == 0x1640) then some (2, 0x01)
  else if !(f.imgLe r 0x1BC 4 == crc32c (f.img r 0 0x1BC)) then some (3, 0x02)
  else if !f.headerFields r stepping then some (4, 0x06)
  else if !o.admits (f.imgLe r 0x01E 2) (f.img r 0x060 64) then some (5, 0x03)
  else if !ecdsaVerify (f.img r 0x060 64) (sha256 (f.img r 0 0x1C0)) (f.img r 0x1C0 64) then some (6, 0x02)
  else if decide (f.imgLe r 0x010 4 < o.rollback) then some (7, 0x04)
  else none

/-! ### Section table (R52, R53, R56) -/

/-- Section table entry (64 bytes). -/
structure SecEnt where
  pos : Nat
  type : Nat
  encrypted : Bool
  required : Bool
  flags : Nat
  index : Nat
  zero : Nat
  offset : Nat
  size : Nat
  crcStored : Nat
  crcPlain : Nat
  load : Nat
  digest : List Byte
  deriving DecidableEq, Repr

/-- A little-endian field of a byte list. -/
def leAt (bs : List Byte) (off n : Nat) : Nat := leNat ((bs.drop off).take n)

/-- One entry of the section table. -/
def parseSec (pos : Nat) (b : List Byte) : SecEnt :=
  let fl := leAt b 2 2
  { pos := pos, type := leAt b 0 2, encrypted := fl % 2 == 1, required := fl / 2 % 2 == 1, flags := fl,
    index := leAt b 4 2, zero := leAt b 6 2, offset := leAt b 8 4, size := leAt b 0x0C 4, crcStored := leAt b 0x10 4,
    crcPlain := leAt b 0x14 4, load := leAt b 0x18 8, digest := (b.drop 0x20).take 32 }

/-- The section table of a region. -/
def Flash.sections (f : Flash) (r : Nat) : List SecEnt :=
  let t := f.imgLe r 0x020 4
  (List.range (f.imgLe r 0x01C 2)).map (fun i => parseSec i (f.img r (t + 64 * i) 64))

/-- The section table matches SECTION_TABLE_DIGEST (R52). -/
def Flash.tableDigestOk (f : Flash) (r : Nat) : Bool :=
  sha256 (f.img r (f.imgLe r 0x020 4) (64 * f.imgLe r 0x01C 2)) == f.img r 0x040 32

/-- Types that load to LPDDR5X: STEP_LIST, WEIGHTS and WARP_MESH (R513 names their load ranges). -/
def loadsToLpddr (type : Nat) : Bool := type == 6 || type == 7 || type == 0x0C

/-- The types listed in the table "Section types". -/
def listedType (type : Nat) : Bool := decide (1 ≤ type) && decide (type ≤ 0x0F)

/-- The plaintext of a section: its stored bytes, decrypted where flagged (R53). -/
def Flash.plain (f : Flash) (o : Otp) (r : Nat) (e : SecEnt) : List Byte :=
  let b := f.img r e.offset e.size
  if e.encrypted then aesCtrDecrypt o.weightKey (f.img r 0x030 16) e.pos b else b

/-- Digest and check values of a section (R52). -/
def Flash.secOk (f : Flash) (o : Otp) (r : Nat) (e : SecEnt) : Bool :=
  let b := f.img r e.offset e.size
  sha256 b == e.digest && crc32c b == e.crcStored && crc32c (f.plain o r e) == e.crcPlain

/-- Two byte ranges overlap. -/
def overlap (a n b m : Nat) : Bool := decide (a < b + m) && decide (b < a + n) && decide (0 < n) && decide (0 < m)

/-- The structural checks on the section table of R53 and R56, against the reported LPDDR5X capacity in bytes. -/
def Flash.tableStructOk (f : Flash) (r : Nat) (lpBytes : Option Nat) : Bool :=
  let es := f.sections r
  let tblEnd := f.imgLe r 0x020 4 + 64 * f.imgLe r 0x01C 2
  es.all (fun e =>
    (!(e.encrypted && e.type != 7)) && decide (e.flags < 4) && e.zero == 0 && e.offset % 256 == 0
      && decide (tblEnd ≤ e.offset) && decide (e.offset + e.size ≤ f.imgLe r 0x018 4)
      && (e.encrypted || e.crcPlain == e.crcStored)
      && (listedType e.type || !e.required)
      && (if loadsToLpddr e.type then
            e.load % 256 == 0 && decide (0x10000000000 ≤ e.load)
              && (match lpBytes with
                  | some n => decide (e.load + e.size ≤ 0x10000000000 + n)
                  | none => true)
              && !overlap e.load e.size 0x10000000000 0x4000000
          else e.load == 0 || !listedType e.type)
      && es.all (fun e' => e.pos == e'.pos ||
            ((!(e.type == e'.type && e.index == e'.index)) && !overlap e.offset e.size e'.offset e'.size
              && !(loadsToLpddr e.type && loadsToLpddr e'.type && overlap e.load e.size e'.load e'.size))))

/-- The sections of a region that LOAD has not skipped (R52, R56). -/
def Flash.live (f : Flash) (r : Nat) : List SecEnt := (f.sections r).filter (fun e => !f.skipped.contains (r, e.pos))

/-- The section of a type and index in the region. -/
def Flash.section? (f : Flash) (r type index : Nat) : Option SecEnt :=
  (f.live r).find? (fun e => e.type == type && e.index == index)

/-- The stored bytes of a section that is not encrypted; empty when the image lacks it. -/
def Flash.secBytes (f : Flash) (r type index : Nat) : List Byte :=
  match f.section? r type index with
  | some e => f.img r e.offset e.size
  | none => []

/-! ### Records -/

/-- Ring record. -/
def parseRing (b : List Byte) : RingRec :=
  { ringId := leAt b 0 2, slotCount := leAt b 2 1, kind := leAt b 3 1, base := leAt b 4 4, slotBytes := leAt b 8 4,
    width := leAt b 0x0C 2, lines := leAt b 0x0E 2, pitch := leAt b 0x10 4, format := leAt b 0x14 1,
    consumers := leAt b 0x16 2, flagBase := leAt b 0x18 4 }

/-- The bytes of a record's array of byte fields, as numbers. -/
def byteList (b : List Byte) (off n : Nat) : List Nat := ((b.drop off).take n).map (·.toNat)

/-- Node record. -/
def parseNode (b : List Byte) : NodeRec :=
  let fl := leAt b 6 2
  { slot := leAt b 0 2, cls := leAt b 2 1, prio := leAt b 3 1, inRings := byteList b 0x10 (leAt b 4 1),
    outRings := byteList b 0x18 (leAt b 5 1), flow := if fl == 0xFFFF then none else some fl, deadlineUs := leAt b 8 4,
    waitUs := leAt b 0x0C 4, stepList := leAt b 0x20 4, wcetNs := leAt b 0x24 4, tiles := leAt b 0x28 2,
    rateDiv := leAt b 0x2A 2, tileW := leAt b 0x2C 2, tileH := leAt b 0x2E 2, shedClass := leAt b 0x30 1,
    periodic := leAt b 0x31 1 % 2 == 1, noAffinity := leAt b 0x31 1 / 2 % 2 == 1, credits := leAt b 0x32 2,
    inSpan := byteList b 0x34 (leAt b 4 1) }

/-- Layer section. -/
def parseLayer (b : List Byte) : LayerRec :=
  let nn := leAt b 4 2
  let rn := leAt b 6 2
  let fn := leAt b 8 2
  { id := leAt b 0 2, partition := leAt b 2 1, base := leAt b 3 1 % 2 == 1, firewall := leAt b 0x0A 2,
    unitMask := BitVec.ofNat 64 (leAt b 0x0C 8), fsBytes := leAt b 0x14 4,
    rings := (List.range rn).map (fun i => parseRing (b.drop (32 + 32 * i))),
    nodes := (List.range nn).map (fun i => parseNode (b.drop (32 + 32 * rn + 64 * i))),
    flows := (List.range fn).map (fun i =>
      let r := b.drop (32 + 32 * rn + 64 * nn + 8 * i)
      ⟨leAt r 0 2, leAt r 2 1, leAt r 3 1⟩) }

/-- Scene section. -/
def parseScene (b : List Byte) : SceneRec :=
  { no := leAt b 0 1, bankedOf := if leAt b 2 1 == 0xFF then none else some (leAt b 2 1),
    sameOwnerSkip := leAt b 3 1 % 2 == 1, service := leAt b 3 1 / 2 % 2 == 1, periodNs := leAt b 4 4,
    budgetUs := leAt b 8 4, layers := (List.range (leAt b 1 1)).map (fun i => leAt b (0x10 + 2 * i) 2),
    triggers := (List.range (leAt b 0x0C 2)).map (fun i =>
      let t := b.drop (32 + 8 * i)
      ⟨leAt t 0 1, leAt t 1 1, leAt t 2 1, leAt t 3 1, w32 (leAt t 4 4)⟩) }

/-- The scene with a number. -/
def Flash.scene? (f : Flash) (r n : Nat) : Option SceneRec :=
  (f.section? r 1 n).map (fun e => parseScene (f.img r e.offset e.size))

/-- The layer with an identifier. -/
def Flash.layer? (f : Flash) (r n : Nat) : Option LayerRec :=
  (f.section? r 2 n).map (fun e => parseLayer (f.img r e.offset e.size))

/-- Every scene of the image, in order of number. -/
def Flash.scenes (f : Flash) (r : Nat) : List SceneRec := (List.range 16).filterMap (f.scene? r)

/-- Every layer of the image. -/
def Flash.layers (f : Flash) (r : Nat) : List LayerRec :=
  ((f.live r).filter (fun e => e.type == 2)).map (fun e => parseLayer (f.img r e.offset e.size))

/-- Stream profile record. -/
structure StreamRec where
  stream : Nat
  port : Nat
  vc : Nat
  dataType : Nat
  width : Nat
  height : Nat
  padValue : Nat
  shortFill : Nat
  sensor : Nat
  periodNs : Nat
  lateNs : Nat
  fsync : Nat
  group : Nat
  lanesMin : Nat
  isp : Nat
  ispMode : Nat
  ispSet : Nat
  dualHome : Nat
  tinder : Bool
  embedded : Bool
  fsyncOffsetNs : Nat
  deriving DecidableEq, Repr

/-- Stream profile record (64 bytes). -/
def parseStream (b : List Byte) : StreamRec :=
  { stream := leAt b 0 1, port := leAt b 1 1, vc := leAt b 2 1, dataType := leAt b 3 1, width := leAt b 4 2,
    height := leAt b 6 2, padValue := leAt b 8 2, shortFill := leAt b 0x0A 1, sensor := leAt b 0x0B 1,
    periodNs := leAt b 0x0C 4, lateNs := leAt b 0x10 4, fsync := leAt b 0x14 1, group := leAt b 0x15 1,
    lanesMin := leAt b 0x16 1, isp := leAt b 0x17 1, ispMode := leAt b 0x18 1, ispSet := leAt b 0x19 1,
    dualHome := leAt b 0x1A 1, tinder := leAt b 0x1B 1 % 2 == 1, embedded := leAt b 0x1B 1 / 2 % 2 == 1,
    fsyncOffsetNs := leAt b 0x1C 4 }

/-- The stream profiles of the image. -/
def Flash.streams (f : Flash) (r : Nat) : List StreamRec :=
  let b := f.secBytes r 3 0
  if b.isEmpty then [] else (List.range 24).map (fun i => parseStream (b.drop (64 * i)))

/-- The profile of a stream in use. -/
def Flash.stream? (f : Flash) (r s : Nat) : Option StreamRec :=
  (f.streams r).find? (fun p => p.stream == s && p.port != 0xFF)

/-- Sensor profile header and operations. -/
structure SensorRec where
  id : Nat
  bus : Nat
  addr : Nat
  busMode : Nat
  latency : Nat
  epochSource : Nat
  epochWidth : Nat
  epochOffset : Nat
  windowStartUs : Nat
  windowLenUs : Nat
  waitTotalUs : Nat
  /-- the 8 bytes of each operation -/
  ops : List (List Byte)
  deriving DecidableEq, Repr

/-- Sensor profile section. -/
def parseSensor (b : List Byte) : SensorRec :=
  { id := leAt b 0 2, bus := leAt b 2 1, addr := leAt b 3 1, busMode := leAt b 4 1, latency := leAt b 5 1,
    epochSource := leAt b 6 1, epochWidth := leAt b 7 1, epochOffset := leAt b 8 2, windowStartUs := leAt b 0x0C 4,
    windowLenUs := leAt b 0x10 4, waitTotalUs := leAt b 0x14 4,
    ops := (List.range (leAt b 0x0A 2)).map (fun i => (b.drop (32 + 8 * i)).take 8) }

/-- The sensor profile with an identifier. -/
def Flash.sensor? (f : Flash) (r n : Nat) : Option SensorRec :=
  (f.section? r 4 n).map (fun e => parseSensor (f.img r e.offset e.size))

/-- Every sensor profile of the image. -/
def Flash.sensors (f : Flash) (r : Nat) : List SensorRec :=
  ((f.live r).filter (fun e => e.type == 4)).map (fun e => parseSensor (f.img r e.offset e.size))

/-- Expected-value entry. -/
structure ExpRec where
  checkId : Nat
  kind : Nat
  poly : Nat
  unit : Nat
  pattern : Nat
  expected : Nat
  length : Nat
  deriving DecidableEq, Repr

/-- The expected values of the image. -/
def Flash.expected (f : Flash) (r : Nat) : List ExpRec :=
  let b := f.secBytes r 9 0
  (List.range (leAt b 0 4)).map (fun i =>
    let e := b.drop (16 + 16 * i)
    ⟨leAt e 0 2, leAt e 2 1, leAt e 3 1, leAt e 4 2, leAt e 6 2, leAt e 8 4, leAt e 0x0C 4⟩)

/-- Firewall entry. -/
structure FwRec where
  target : Nat
  region : Nat
  enable : Bool
  lock : Bool
  flags : Nat
  base : Nat
  pages : Nat
  rd : Nat
  wr : Nat
  initiator : Nat
  deriving DecidableEq, Repr

/-- The entries of a FIREWALL section. -/
def Flash.firewall (f : Flash) (r n : Nat) : List FwRec :=
  let b := f.secBytes r 8 n
  (List.range (leAt b 2 2)).map (fun i =>
    let e := b.drop (16 + 32 * i)
    ⟨leAt e 0 2, leAt e 2 1, leAt e 3 1 % 2 == 1, leAt e 3 1 / 2 % 2 == 1, leAt e 3 1, leAt e 4 8, leAt e 0x0C 4,
     leAt e 0x10 2, leAt e 0x12 2, leAt e 0x14 2⟩)

/-- Firmware section header. -/
structure FwSec where
  index : Nat
  fwId : Nat
  cores : Nat
  loadOffset : Nat
  entry : Nat
  codeBytes : Nat
  bssBytes : Nat
  zeros : Bool
  deriving DecidableEq, Repr

/-- Every FIRMWARE section's header. -/
def Flash.firmwares (f : Flash) (r : Nat) : List FwSec :=
  ((f.live r).filter (fun e => e.type == 0x0A)).map (fun e =>
    let b := f.img r e.offset 32
    ⟨e.index, leAt b 0 2, leAt b 2 1, leAt b 4 4, leAt b 8 4, leAt b 0x0C 4, leAt b 0x10 4,
     leAt b 3 1 == 0 && allZero ((b.drop 0x14).take 12)⟩)

/-- Step list section: its class, number of descriptors and local address of the first. -/
def Flash.stepList? (f : Flash) (r n : Nat) : Option (Nat × Nat × Nat) :=
  (f.section? r 6 n).map (fun e =>
    let b := f.img r e.offset 16
    (leAt b 2 1, leAt b 4 4, e.load + 16))

/-- Adaptation rule (spec/17). -/
structure RuleRec where
  metric : Nat
  select : Nat
  compare : Nat
  action : Nat
  threshold : Nat
  clear : Nat
  hold : Nat
  arg : Nat
  zeros : Bool
  deriving DecidableEq, Repr

/-- A little-endian field of the ADAPTATION header. -/
def Flash.adaptLe (f : Flash) (r off n : Nat) : Nat := leAt (f.secBytes r 0x0B 0) off n

/-- The rules of the ADAPTATION section. -/
def Flash.rules (f : Flash) (r : Nat) : List RuleRec :=
  let b := f.secBytes r 0x0B 0
  (List.range (leAt b 2 2)).map (fun i =>
    let e := b.drop (64 + 32 * i)
    { metric := leAt e 0 1, select := leAt e 1 1, compare := leAt e 2 1, action := leAt e 3 1, threshold := leAt e 4 4,
      clear := leAt e 8 4, hold := leAt e 0x0C 1, arg := leAt e 0x10 12,
      zeros := leAt e 0x0D 3 == 0 && leAt e 0x1C 4 == 0 })

/-! ### The booted image -/

/-- The region the device runs from: the booted one, or the candidate being tried. -/
def State.imgRegion (s : State) : Nat :=
  match s.kin.booted with
  | some r => r
  | none => s.kin.candidates.headD 0

/-- A scene of the image in force. -/
def State.sceneRec? (s : State) (n : Nat) : Option SceneRec := s.flash.scene? s.imgRegion n

/-- A layer of the image in force. -/
def State.layerRec? (s : State) (n : Nat) : Option LayerRec := s.flash.layer? s.imgRegion n

/-- A stream profile of the image in force. -/
def State.streamRec? (s : State) (n : Nat) : Option StreamRec := s.flash.stream? s.imgRegion n

/-- A little-endian field of the ADAPTATION header of the image in force. -/
def State.adaptLe (s : State) (off n : Nat) : Nat := s.flash.adaptLe s.imgRegion off n

/-- The adaptation rules of the image in force that have fired, with their numbers. -/
def State.firedRules (s : State) : List (Nat × RuleRec) :=
  ((s.flash.rules s.imgRegion).zipIdx.filter (fun p => ((s.adapt.rules[p.2]?).map (·.fired)).getD false)).map
    (fun p => (p.2, p.1))

/-- A little-endian field of the EMBER_CONFIG copy in Island SRAM (R424). -/
def State.emb (s : State) (off n : Nat) : Nat := leAt s.safety.ember.cfg off n

end Sys2Proof.Machine
end

