-- ==== Sys2Proof/Machine/Flags.lean ====
section
/-! DEFINITION. The slot flag words: their fields and the transitions of the table "Slot flag transitions"
(R305 to R307). -/

namespace Sys2Proof.Machine

open Sys2Proof

/-- A field of a flag word. -/
def flagGet (hi lo : Nat) (w : DWord) : Nat := (w.toNat >>> lo) % 2 ^ (hi + 1 - lo)

/-- A slot flag word field by field (table "Slot flag word"). -/
structure SlotFlag where
  state : Nat
  inputFlagged : Bool
  late : Bool
  voided : Bool
  pins : Nat
  drainLeft : Nat
  rectLeft : Nat
  seq : Word
  deriving DecidableEq, Repr

/-- STATE codes of a flag word. -/
def slotEmpty : Nat := 0
def slotFilling : Nat := 1
def slotFull : Nat := 2
def slotVoid : Nat := 3

/-- Read a flag word. -/
def SlotFlag.ofWord (w : DWord) : SlotFlag :=
  { state := flagGet 63 62 w, inputFlagged := w.getLsbD 61, late := w.getLsbD 60, voided := w.getLsbD 59,
    pins := flagGet 58 55 w, drainLeft := flagGet 54 50 w, rectLeft := flagGet 44 32 w,
    seq := BitVec.ofNat 32 (flagGet 31 0 w) }

/-- 1 for true. -/
def bit (b : Bool) : Nat := if b then 1 else 0

/-- Lay out a flag word; bits [49:45] are zero. -/
def SlotFlag.toWord (f : SlotFlag) : DWord :=
  BitVec.ofNat 64 (f.state % 4 * 2 ^ 62 + bit f.inputFlagged * 2 ^ 61 + bit f.late * 2 ^ 60 + bit f.voided * 2 ^ 59
    + f.pins % 16 * 2 ^ 55 + f.drainLeft % 32 * 2 ^ 50 + f.rectLeft % 8192 * 2 ^ 32 + f.seq.toNat)

/-- The flag word at an index of the flag memory. -/
def State.flagWord (s : State) (i : Nat) : DWord := (assocGet s.flags i).getD 0

/-- Write a flag word. -/
def State.setFlagWord (s : State) (i : Nat) (w : DWord) : State := { s with flags := sparsePut 0 s.flags i w }

/-- A slot's flag. -/
def State.slotFlag (s : State) (i : Nat) : SlotFlag := SlotFlag.ofWord (s.flagWord i)

/-- Change a slot's flag. -/
def State.modFlag (s : State) (i : Nat) (f : SlotFlag → SlotFlag) : State :=
  s.setFlagWord i (f (s.slotFlag i)).toWord

/-- A slot is free: no pin, and EMPTY, VOID, or FULL in a ring whose CONSUMERS is 0 (R305). -/
def SlotFlag.free (f : SlotFlag) (consumers : Nat) : Bool :=
  f.pins == 0 && (f.state == slotEmpty || f.state == slotVoid || (consumers == 0 && f.state == slotFull))

/-- BIND of the ring: every field zero, STATE EMPTY. -/
def SlotFlag.bound : SlotFlag := ⟨slotEmpty, false, false, false, 0, 0, 0, 0⟩

/-- Assignment of a slot to a ring frame (R306). -/
def SlotFlag.assigned (seq : Word) (rects consumers : Nat) : SlotFlag :=
  ⟨slotFilling, false, false, false, 0, consumers, rects, seq⟩

/-- What follows when DRAIN_LEFT and PINS are both 0 in a ring with consumers: EMPTY, SEQUENCE kept. -/
def SlotFlag.settle (f : SlotFlag) (consumers : Nat) : SlotFlag :=
  if f.state == slotFull && f.drainLeft == 0 && f.pins == 0 && decide (0 < consumers) then
    { f with state := slotEmpty }
  else f

/-- What follows when RECT_LEFT reaches 0: FULL, or VOID with DRAIN_LEFT 0 when VOIDED is set. -/
def SlotFlag.close (f : SlotFlag) : SlotFlag :=
  if f.rectLeft == 0 then
    if f.voided then { f with state := slotVoid, drainLeft := 0 } else { f with state := slotFull }
  else f

/-- Release of a rectangle (R306): RECT_LEFT falls, the marks are ORed in. -/
def SlotFlag.releaseRect (f : SlotFlag) (flagged late : Bool) : SlotFlag :=
  if f.state == slotFilling then
    SlotFlag.close { f with rectLeft := f.rectLeft - 1, inputFlagged := f.inputFlagged || flagged, late := f.late || late }
  else f

/-- Void release of a rectangle (R306). -/
def SlotFlag.voidRect (f : SlotFlag) : SlotFlag :=
  if f.state == slotFilling then SlotFlag.close { f with rectLeft := f.rectLeft - 1, voided := true } else f

/-- Drain by a consumer node (R306). -/
def SlotFlag.drain (f : SlotFlag) (consumers : Nat) : SlotFlag :=
  if f.state == slotFull then SlotFlag.settle { f with drainLeft := f.drainLeft - 1 } consumers else f

/-- Pin by a periodic instance (R69, R306). -/
def SlotFlag.pin (f : SlotFlag) : SlotFlag :=
  if f.state == slotFull then { f with pins := min 15 (f.pins + 1) } else f

/-- Unpin (R306). -/
def SlotFlag.unpin (f : SlotFlag) (consumers : Nat) : SlotFlag :=
  if f.state == slotFull then SlotFlag.settle { f with pins := f.pins - 1 } consumers else f

end Sys2Proof.Machine
end

