-- ==== Sys2Proof/Machine/Graph.lean ====
section
/-! DEFINITION. The geometry of frame graphs (spec/03): tile columns, bands, owned rectangles, the slots an
instance declares, the operands it needs, and which sequences a node runs on. -/

namespace Sys2Proof.Machine

open Sys2Proof

/-! ### Lookups -/

/-- A bound ring by layer and ring index. -/
def State.ring? (s : State) (layer idx : Nat) : Option RingSt :=
  s.fgs.rings.find? (fun r => r.layer == layer && r.idx == idx)

/-- Replace a bound ring. -/
def State.setRing (s : State) (r : RingSt) : State :=
  { s with fgs := { s.fgs with rings := s.fgs.rings.map (fun q => if q.layer == r.layer && q.idx == r.idx then r else q) } }

/-- A bound node by node slot. -/
def State.node? (s : State) (slot : Nat) : Option NodeSt := s.fgs.nodes.find? (fun n => n.rc.slot == slot)

/-- Change a bound node. -/
def State.modNode (s : State) (slot : Nat) (f : NodeSt → NodeSt) : State :=
  { s with fgs := { s.fgs with nodes := s.fgs.nodes.map (fun n => if n.rc.slot == slot then f n else n) } }

/-- The matching-store entry of a key (R90). -/
def State.inst? (s : State) (node : Nat) (seq : Word) (tile : Nat) : Option Inst :=
  s.fgs.insts.find? (fun i => i.node == node && i.seq == seq && i.tile == tile)

/-- A matching-store entry by number. -/
def State.entry? (s : State) (e : Nat) : Option Inst := s.fgs.insts.find? (fun i => i.entry == e)

/-- Change a matching-store entry. -/
def State.modInst (s : State) (e : Nat) (f : Inst → Inst) : State :=
  { s with fgs := { s.fgs with insts := s.fgs.insts.map (fun i => if i.entry == e then f i else i) } }

/-- A bound layer. -/
def State.layer? (s : State) (id : Nat) : Option BoundLayer := s.scene.layers.find? (fun l => l.rc.id == id)

/-- Stream group key: the group, or the stream alone when GROUP is 0xFF. -/
def StreamRec.groupKey (p : StreamRec) : Nat := if p.group == 0xFF then 0x100 + p.stream else p.group

/-- Group key of a stream of the image in force. -/
def State.groupOf (s : State) (stream : Nat) : Nat :=
  match s.streamRec? stream with
  | some p => p.groupKey
  | none => 0x100 + stream

/-! ### Tiles, bands and rectangles (R64, R65) -/

/-- Tile columns C of a node over its first output ring's WIDTH. -/
def NodeRec.cols (n : NodeRec) (width : Nat) : Nat := max 1 (ceilDiv width n.tileW)

/-- Frame height H of a ring produced by a node. -/
def NodeRec.height (n : NodeRec) (width : Nat) : Nat := ceilDiv n.tiles (n.cols width) * n.tileH

/-- Vertical origin v of a tile. -/
def NodeRec.tileV (n : NodeRec) (width t : Nat) : Nat := t / n.cols width * n.tileH

/-- Horizontal origin x of a tile. -/
def NodeRec.tileX (n : NodeRec) (width t : Nat) : Nat := t % n.cols width * n.tileW

/-- The first output ring of a node. -/
def State.outRing0 (s : State) (n : NodeSt) : Option RingSt := s.ring? n.layer (n.rc.outRings.headD 0xFF)

/-- The band of a tile's owned rectangle, the same in every output ring. -/
def tileBand (n : NodeRec) (r0 : RingRec) (t : Nat) : Nat := n.tileV r0.width t / max 1 r0.lines

/-- Owned rectangles that lie in a band: its RECT_LEFT at assignment. -/
def rectsOfBand (n : NodeRec) (r0 : RingRec) (b : Nat) : Nat :=
  ((List.range n.tiles).filter (fun t => tileBand n r0 t == b)).length

/-- A tile's owned rectangle in an output ring: first and last-plus-one column, first and last-plus-one line of
the slot (R65; clipped to WIDTH and LINES). -/
def ownedRect (n : NodeRec) (r0 rj : RingRec) (t : Nat) : Nat × Nat × Nat × Nat :=
  let c := n.cols r0.width
  let x := n.tileX r0.width t
  let xe := if t % c == c - 1 then r0.width else x + n.tileW
  let v := n.tileV r0.width t % max 1 r0.lines
  let ve := min (v + n.tileH) r0.lines
  (min rj.width (x * rj.width / max 1 r0.width), min rj.width (xe * rj.width / max 1 r0.width),
   min rj.lines (v * rj.lines / max 1 r0.lines), min rj.lines (ve * rj.lines / max 1 r0.lines))

/-- The slot of band b of ring frame k (R64). -/
def RingSt.slotOf (r : RingSt) (k b : Nat) : Nat := (k * r.perFrame + b) % max 1 r.rc.slotCount

/-- The flag index of a slot. -/
def RingSt.flagIdx (r : RingSt) (slot : Nat) : Nat := r.rc.flagBase + slot

/-- Ring frame number of a sequence, when one has been given (R64). -/
def RingSt.k? (r : RingSt) (seq : Word) : Option Nat := (r.kOf.find? (fun p => p.1 == seq)).map (·.2)

/-- Sequence of a ring frame number. -/
def RingSt.seqOf? (r : RingSt) (k : Nat) : Option Word := (r.kOf.find? (fun p => p.2 == k)).map (·.1)

/-- The (ring frame, band) that a slot is assigned to. -/
def RingSt.assigned? (r : RingSt) (slot : Nat) : Option (Nat × Nat) :=
  (r.assign.find? (fun p => p.1 == slot)).map (·.2)

/-- Give a sequence its ring frame number at its first use. The newest 128 are kept (log entry 9). -/
def RingSt.number (r : RingSt) (seq : Word) : RingSt :=
  match r.k? seq with
  | some _ => r
  | none => { r with kOf := (((seq, r.kNext) :: r.kOf).take 128), kNext := r.kNext + 1 }

/-! ### Declared slots and operands (R66, R67, R95) -/

/-- Input position j names a ring that an earlier position names: a previous-frame input (R67). -/
def NodeRec.isPrev (n : NodeRec) (j : Nat) : Bool := (n.inRings.take j).contains (n.inRings.getD j 0xFF)

/-- Reference band and declared bands of input j of tile t: (reference, first, last). -/
def State.declared (s : State) (n : NodeSt) (t j : Nat) : Nat × Nat × Nat :=
  match s.outRing0 n, s.ring? n.layer (n.rc.inRings.getD j 0xFF) with
  | some r0, some rj =>
    let line := n.rc.tileV r0.rc.width t * rj.frameH / max 1 r0.frameH
    let ref := min (line / max 1 rj.rc.lines) (rj.perFrame - 1)
    let sp := n.rc.inSpan.getD j 0
    (ref, ref - sp % 16, min (ref + sp / 16) (rj.perFrame - 1))
  | _, _ => (0, 0, 0)

/-- Number of bands that input j of tile t declares. -/
def State.bandCount (s : State) (n : NodeSt) (t j : Nat) : Nat :=
  let d := s.declared n t j
  d.2.2 + 1 - d.2.1

/-- First operand number of input j: current-frame inputs in order of position, then band. -/
def State.operandBase (s : State) (n : NodeSt) (t j : Nat) : Nat :=
  ((List.range j).map (fun i => if n.rc.isPrev i then 0 else s.bandCount n t i)).foldl (· + ·) 0

/-- Operands an instance needs: the current-frame slots it reads. -/
def State.operandCount (s : State) (n : NodeSt) (t : Nat) : Nat := s.operandBase n t n.rc.inRings.length

/-- The input position and band that an operand number stands for. -/
def State.operandAt (s : State) (n : NodeSt) (t op : Nat) : Option (Nat × Nat) :=
  (List.range n.rc.inRings.length).findSome? (fun j =>
    let base := s.operandBase n t j
    if !n.rc.isPrev j && decide (base ≤ op) && decide (op < base + s.bandCount n t j) then
      some (j, (s.declared n t j).2.1 + (op - base))
    else none)

/-- Non-periodic nodes that read a ring, each with its current-frame position and, where it has one, its
previous-frame position. -/
def State.readers (s : State) (r : RingSt) : List (NodeSt × Nat) :=
  s.fgs.nodes.flatMap (fun n =>
    if n.layer == r.layer && !n.rc.periodic then
      ((List.range n.rc.inRings.length).filter (fun j => n.rc.inRings.getD j 0xFF == r.idx)).map (fun j => (n, j))
    else [])

/-- The tiles of a node whose declared bands of input j include band b. -/
def State.tilesReading (s : State) (n : NodeSt) (j b : Nat) : List Nat :=
  (List.range n.rc.tiles).filter (fun t =>
    let d := s.declared n t j
    decide (d.2.1 ≤ b) && decide (b ≤ d.2.2))

/-! ### Rates and shedding (R68, R432 to R434) -/

/-- The key under which a node's shed multipliers are latched: its stream group, or 0x1000 + the periodic node. -/
def State.rateKey (s : State) (n : NodeSt) : Nat :=
  match n.refPeriodic with
  | some p => 0x1000 + p
  | none =>
    match n.refStream with
    | some st => s.groupOf st
    | none => 0x2000

/-- Multiplier of a class in a triple; 0 is stopped. -/
def multOf (m : Nat × Nat × Nat) (cls : Nat) : Nat :=
  match cls with
  | 0 => 1
  | 1 => m.1
  | 2 => m.2.1
  | _ => m.2.2

/-- Minimum multipliers of a shed level (table "Shed levels"). -/
def shedLevelMults (level : Nat) : Nat × Nat × Nat :=
  match level with
  | 0 => (1, 1, 1)
  | 1 => (0, 1, 1)
  | 2 => (0, 2, 1)
  | 3 => (0, 2, 0)
  | _ => (0, 0, 0)

/-- The larger of two multipliers, with 0 for stopped as the largest. -/
def maxMult (a b : Nat) : Nat := if a == 0 || b == 0 then 0 else max a b

/-- The multipliers latched for a sequence, or those in force when none are kept. -/
def State.multsFor (s : State) (key : Nat) (seq : Word) (inForce : Nat × Nat × Nat) : Nat × Nat × Nat :=
  match s.fgs.mults.find? (fun p => p.1 == key && p.2.1 == seq) with
  | some p => p.2.2
  | none => inForce

/-- The multipliers in force: the largest of the shed level's, those of the fired RATE actions, and 1 (R433). -/
def State.multsNow (s : State) : Nat × Nat × Nat :=
  s.firedRules.foldl (fun (m : Nat × Nat × Nat) p =>
    if p.2.action == 2 then
      let v := p.2.arg / 256 % 256
      match p.2.arg % 256 with
      | 1 => (maxMult m.1 v, m.2.1, m.2.2)
      | 2 => (m.1, maxMult m.2.1 v, m.2.2)
      | 3 => (m.1, m.2.1, maxMult m.2.2 v)
      | _ => m
    else m) (shedLevelMults (s.fld Reg.PMU_SHED F.PMU_SHED.LEVEL))

/-- A non-periodic node runs on a sequence (R68, R432). A node whose base sequence is not fixed yet runs on none. -/
def State.runsOn (s : State) (n : NodeSt) (seq : Word) : Bool :=
  match n.baseSeq with
  | none => false
  | some b =>
    let d := (seq - b).toNat
    let div := max 1 n.rc.rateDiv
    let m := multOf (s.multsFor (s.rateKey n) seq s.multsNow) n.rc.shedClass
    d % div == 0 && decide (m ≠ 0) && d / div % m == 0

/-- The instance of a node for a sequence and tile has been released or cancelled. -/
def NodeSt.isFinished (n : NodeSt) (seq : Word) (t : Nat) : Bool :=
  (match n.retired with
   | some r => seq == r || !seqNewer seq r
   | none => false) || n.finished.contains (seq, t)

/-- Deadline of an instance (R70). -/
def NodeSt.deadline (n : NodeSt) (ts : Nat) : Nat := ts + n.rc.deadlineUs * 1000

/-- Wait limit of a node in ns; 0 selects 500 µs. -/
def NodeRec.waitNs (n : NodeRec) : Nat := (if n.waitUs == 0 then 500 else n.waitUs) * 1000

/-- The slot of input j's reference band for an instance, its ring frame included: (slot, absent). A previous-frame
input is absent when its frame does not exist or is VOID (R67, R93). -/
def State.inSlot (s : State) (n : NodeSt) (seq : Word) (t j : Nat) : Nat × Bool :=
  match s.ring? n.layer (n.rc.inRings.getD j 0xFF) with
  | none => (0, true)
  | some r =>
    let b := (s.declared n t j).1
    match r.k? seq with
    | none => (0, true)
    | some k =>
      if n.rc.isPrev j then
        if k == 0 then (0, true)
        else
          let sl := r.slotOf (k - 1) b
          (sl, r.assigned? sl != some (k - 1, b) || (s.slotFlag (r.flagIdx sl)).state != slotFull)
      else (r.slotOf k b, false)

end Sys2Proof.Machine
end

