-- ==== Sys2Proof/Machine/GmlOps.lean ====
section
/-! DEFINITION. Partners, routes and sending on the Grenmar Links (spec/18, R447 to R461): what the sequencer and
the memories share. -/

namespace Sys2Proof.Machine

open Sys2Proof

/-- This device's number (R447). -/
def State.device (s : State) : Nat := s.fld Reg.GML_SYS F.GML_SYS.DEVICE

/-- Number of devices in the system. -/
def State.deviceCount (s : State) : Nat := s.fld Reg.GML_SYS F.GML_SYS.COUNT + 1

/-- Ring topology: read only when there are four devices. -/
def State.ringTopology (s : State) : Bool := s.flag Reg.GML_SYS F.GML_SYS.RING && s.deviceCount == 4

/-- The device that a link goes to; none for an unused or spare link (R448). -/
def State.linkPartner (s : State) (k : Nat) : Option Nat :=
  let n := s.deviceCount
  let d := s.device
  if s.ringTopology then (if k == 0 then some ((d + 1) % 4) else if k == 2 then some ((d + 3) % 4) else none)
  else if decide (k + 1 < n) then some ((d + k + 1) % n) else none

/-- Partner e is absent: not active, lost or unreachable (R461). -/
def State.partnerAbsent (s : State) (e : Nat) : Bool :=
  let p := s.reg Reg.GML_PEERS
  !p.getLsbD (12 + e) || p.getLsbD (8 + e) || p.getLsbD (16 + e)

/-- Change a link. -/
def State.modLink (s : State) (k : Nat) (f : LinkSt → LinkSt) : State :=
  { s with gml := { s.gml with links := s.gml.links.mapIdx (fun i l => if i == k then f l else l) } }

/-- A link. -/
def State.link (s : State) (k : Nat) : LinkSt := s.gml.links.getD k LinkSt.idle

/-- Count a flit in a counter kept in units of 1,024. -/
def State.countFlit (s : State) (k m seq : Nat) : State := if seq % 1024 == 0 then s.addCnt (Reg.GML_CNT k m) 1 else s

/-- Send a packet on a link, in a flit of its own (R450, R451). -/
def State.sendOn (s : State) (k : Nat) (p : GmlPkt) : State :=
  let s := s.modLink k (fun l => { l with tx := l.tx ++ [(l.txSeq % 4096, [p])], txSeq := l.txSeq + 1 })
  s.countFlit k 0 (s.link k).txSeq

/-- Send a packet to a partner over its route; a packet without a route is lost (R454). -/
def State.sendTo (s : State) (e : Nat) (p : GmlPkt) : State :=
  match s.gml.routes.getD e none with
  | some k => s.sendOn k p
  | none => s

/-- A device number of at most two bits. -/
def dev2 (n : Nat) : Fin 4 := ⟨n % 4, Nat.mod_lt _ (by decide)⟩

/-- A layer is a system layer (R458). -/
def isSystemLayer (id : Nat) : Bool := decide (0x8000 ≤ id) && decide (id ≤ 0xFFFE)

/-- The partner that a node of a layer is placed on; none for a node placed here (R458). -/
def State.nodePeer (s : State) (layer slot : Nat) : Option Nat :=
  if isSystemLayer layer && slot / 1024 != s.device then some (slot / 1024 % 4) else none

/-- Tell a partner that a slot of its ring has been drained (R460). -/
def State.sendDrain (s : State) (e flag : Nat) : State :=
  if s.partnerAbsent e then s else s.sendTo e (.drain (dev2 s.device) (dev2 e) flag)

/-! ### Active links and routes (R453, R454) -/

/-- READY or READY_BANKED has been reached. -/
def State.isReady (s : State) : Bool :=
  let st := s.fld Reg.SYS_KIN_STATUS F.SYS_KIN_STATUS.STATE
  st == 11 || st == 12

/-- State of a link as GMLk_STATUS shows it. -/
def State.linkState (s : State) (k : Nat) : Nat := s.fld (Reg.GML_STATUS k) F.GML_STATUS.STATE

/-- A link is active. -/
def State.linkActive (s : State) (k : Nat) : Bool := s.flag (Reg.GML_STATUS k) F.GML_STATUS.ACTIVE

/-- The link to a device by the wiring of R448. -/
def State.directLink? (s : State) (e : Nat) : Option Nat := [0, 1, 2].find? (fun k => s.linkPartner k == some e)

/-- Two devices are wired to each other. -/
def State.wired (s : State) (a b : Nat) : Bool := a != b && (!s.ringTopology || (a + 1) % 4 == b || (b + 1) % 4 == a)

/-- First link of the route that R454 gives: the direct link when it is active, else through the lowest-numbered partner
that has an active link here and is wired to the device (DEDUCED, log entry 36). -/
def State.newRoute (s : State) (e : Nat) : Option Nat :=
  let direct := s.directLink? e
  if direct.any s.linkActive then direct
  else
    ((List.range s.deviceCount).filter (fun p => p != e && p != s.device && s.wired p e)).findSome? (fun p =>
      (s.directLink? p).filter s.linkActive)

/-- The route to a partner changes once every transaction on the old one has ended. -/
def State.reroute (s : State) (e : Nat) : State :=
  let r := s.newRoute e
  if e == s.device || decide (s.deviceCount ≤ e) || s.gml.outstanding.any (fun x => x.peer == e && x.status == 0 && s.gml.routes.getD e none == some x.link
      && r != some x.link) then s
  else
    let s : State := { s with gml := { s.gml with routes := s.gml.routes.mapIdx (fun i x => if i == e then r else x) } }
    let s := s.setFlag Reg.GML_PEERS ⟨12 + e, 12 + e⟩ r.isSome
    s.setFlag Reg.GML_PEERS ⟨4 + e, 4 + e⟩ (r.isSome && r != s.directLink? e)

/-- A link is active while it is up and both ends have reached READY. -/
def State.refreshActive (s : State) : State :=
  let s := [0, 1, 2].foldl (fun (s : State) k =>
    let st := s.linkState k
    let on := (st == 2 || st == 3) && s.isReady && (match s.linkPartner k with
      | some e => s.gml.ready.getD e false
      | none => false)
    s.setFlag (Reg.GML_STATUS k) F.GML_STATUS.ACTIVE on) s
  (List.range 4).foldl State.reroute s

/-- What was outstanding on a link that no longer carries traffic ends with an error response (R452). -/
def State.failLink (s : State) (k : Nat) : State :=
  let s : State := { s with gml := { s.gml with
    outstanding := s.gml.outstanding.map (fun (x : GmlTx) => if x.link == k && x.status == 0 then { x with status := 2 } else x) } }
  s.modLink k (fun l => { l with
    tx := []
    rx := [] })

end Sys2Proof.Machine
end

