-- ==== Sys2Proof/Machine/SeqOps.lean ====
section
/-! DEFINITION. The shared operations of the Frame-Graph Sequencer (spec/04): entries, tokens, slot assignment,
drains, voids, cancellation, retirement and release. -/

namespace Sys2Proof.Machine

open Sys2Proof

/-! ### Sources and occupancy -/

/-- Journal SOURCE of the sequencer (spec/14, "Journal sources"). -/
def srcFgs : Nat := 0x1000

/-- An instance that has been neither released nor cancelled. -/
def Inst.live (i : Inst) : Bool := i.st != .cancelled

/-- An instance that a unit holds. -/
def Inst.busy (i : Inst) : Bool := i.st == .dispatched || i.st == .running

/-- The distinct (node, sequence) pairs of the live instances: the sequence entries of the delay list (R105). -/
def State.seqEntries (s : State) : List (Nat × Word) :=
  ((s.fgs.insts.filter (·.live)).map (fun i => (i.node, i.seq))).eraseDups

/-- Delay-list entries in use (R105). -/
def State.delayUsed (s : State) : Nat :=
  s.seqEntries.length + (s.fgs.nodes.filter (fun n => n.rc.periodic)).length
    + (s.fgs.insts.filter (fun i => i.holdDue.isSome)).length

/-- Matching-store entries in use: the instances, and one entry per covered unit for its tinder job (R404). -/
def State.storeUsed (s : State) : Nat := s.fgs.insts.length + s.safety.cover.length

/-- Record the high-water marks (FGS_HWM). -/
def State.noteHwm (s : State) : State :=
  let s := s.setFld Reg.FGS_HWM F.FGS_HWM.STORE_HWM (max (s.fld Reg.FGS_HWM F.FGS_HWM.STORE_HWM) s.storeUsed)
  s.setFld Reg.FGS_HWM F.FGS_HWM.DELAY_HWM (max (s.fld Reg.FGS_HWM F.FGS_HWM.DELAY_HWM) s.delayUsed)

/-- The word n/t of an instance. -/
def Inst.nt (i : Inst) : Nat := ntWord i.node i.tile

/-- Post a record about an instance. -/
def State.logInst (s : State) (code cls : Nat) (i : Inst) (a2 : Nat) : State :=
  let part := match s.node? i.node with
    | some n => n.domain
    | none => 0
  s.log srcFgs code cls part i.stream i.nt i.seq.toNat a2

/-! ### Entries -/

/-- The lowest entry number not in use. -/
def lowestFree (insts : List Inst) : Nat → Nat → Nat
  | 0, e => e
  | fuel + 1, e => if insts.any (fun i => i.entry == e) then lowestFree insts fuel (e + 1) else e

/-- Timestamp kept for a sequence of a stream (R511). -/
def State.stamp? (s : State) (stream : Nat) (seq : Word) : Option Nat :=
  (assocGet s.fgs.stamps stream).bind (fun l => (l.find? (fun p => p.1 == seq)).map (·.2))

/-- Timestamp of an instance at the creation of its entry (R511). -/
def State.instTs (s : State) (n : NodeSt) (seq : Word) : Nat :=
  match n.refPeriodic with
  | some p => (((s.node? p).bind (fun q => (q.starts.find? (fun x => x.1 == seq)).map (·.2)))).getD s.now
  | none => (n.refStream.bind (fun st => s.stamp? st seq)).getD s.now

/-- The flow of a node. -/
def State.flowOf? (s : State) (n : NodeSt) : Option FlowSt :=
  n.rc.flow.bind (fun f => s.fgs.flows.find? (fun x => x.rc.id == f && x.layer == n.layer))

/-- Change a flow. -/
def State.modFlow (s : State) (layer id : Nat) (f : FlowSt → FlowSt) : State :=
  { s with fgs := { s.fgs with flows := s.fgs.flows.map (fun x => if x.layer == layer && x.rc.id == id then f x else x) } }

/-- The stuck watch of a node's flow, or of the node when it belongs to none, starts when it has an instance
outstanding and runs already or not (R112). -/
def State.startWatch (s : State) (n : NodeSt) : State :=
  match s.flowOf? n with
  | some f => s.modFlow f.layer f.rc.id (fun x => { x with watchFrom := some (x.watchFrom.getD s.now) })
  | none => if n.rc.periodic then s else s.modNode n.rc.slot (fun x => { x with watchFrom := some (x.watchFrom.getD s.now) })

/-- The free slot of an output ring, or the one already assigned, as `number`ed at an entry's creation. -/
def State.numberOutputs (s : State) (n : NodeSt) (seq : Word) : State :=
  n.rc.outRings.foldl (fun s o =>
    match s.ring? n.layer o with
    | some r => s.setRing (r.number seq)
    | none => s) s

/-- Create the matching-store entry of an instance (R95, R104, R511). -/
def State.createEntry (s : State) (n : NodeSt) (seq : Word) (tile stream : Nat) : State :=
  let e := lowestFree s.fgs.insts s.fgs.insts.length 0
  let f := s.flowOf? n
  let i : Inst :=
    { entry := e, gen := (assocGet s.fgs.gens e).getD 0, node := n.rc.slot, seq := seq, tile := tile,
      stream := n.refStream.getD stream, ops := [], need := if n.rc.periodic then 0 else s.operandCount n tile, st := .waiting, created := s.now,
      ts := s.instTs n seq, flowPos := f.map (·.next), order := 0, unit := none, reruns := 0, step := 0, restart := false,
      late := false, inputFlagged := false, footprint := false, absent := [], pins := [], holdDue := none, holdOver := false, refused := none,
      stalledFrom := none, stopping := false, voidsLeft := [], tinder := none }
  let s := { s with fgs := { s.fgs with insts := s.fgs.insts ++ [i] } }
  let s := match f with
    | some f => s.modFlow f.layer f.rc.id (fun x => { x with next := x.next + 1 })
    | none => s
  (((s.numberOutputs n seq).startWatch n)).noteHwm

/-- Free an entry: its generation rises so that its handle is not mistaken. -/
def State.freeEntry (s : State) (e : Nat) : State :=
  { s with fgs := { s.fgs with
      insts := s.fgs.insts.filter (fun i => i.entry != e)
      gens := assocPut s.fgs.gens e (((assocGet s.fgs.gens e).getD 0 + 1) % 64) } }

/-! ### Slots: assignment, drains -/

/-- Assign a slot of a ring to band b of ring frame k (R306): its flag word, and who has still to drain it. -/
def State.assignSlot (s : State) (r : RingSt) (k b : Nat) (seq : Word) (rects : Nat) : State :=
  let sl := r.slotOf k b
  let s := s.setFlagWord (r.flagIdx sl) (SlotFlag.assigned seq rects r.rc.consumers).toWord
  s.setRing { r with assign := assocPut r.assign sl (k, b), arrived := r.arrived.filter (fun x => x.1 != sl),
                     drained := r.drained.filter (fun x => x.1 != sl) }

/-- The drain of a slot by a node at one input position may take effect now (R66). -/
def State.drainReady (s : State) (r : RingSt) (sl : Nat) (n : NodeSt) (j : Nat) : Bool :=
  match r.assigned? sl with
  | none => false
  | some (k, b) =>
    match r.seqOf? (if n.rc.isPrev j then k + 1 else k) with
    | none => false
    | some sq =>
      (r.remote.isSome || (s.slotFlag (r.flagIdx sl)).state == slotFull) && !r.drained.contains (sl, n.rc.slot, j)
        && r.arrived.any (fun x => x.1 == sl && x.2.1 == n.rc.slot)
        && (!s.runsOn n sq || (s.tilesReading n j b).all (fun t => n.isFinished sq t))

/-- Drain a slot on behalf of a node's input position when R66 allows, and never a second time. -/
def State.tryDrain (s : State) (layer idx sl node j : Nat) : State :=
  match s.ring? layer idx, s.node? node with
  | some r, some n =>
    if n.layer == layer && n.peer.isNone && n.rc.inRings.getD j 0xFF == idx && !n.rc.periodic && s.drainReady r sl n j then
      (match r.remote with
       | some e => s.sendDrain e (r.flagIdx sl)
       | none => s.modFlag (r.flagIdx sl) (fun f => f.drain r.rc.consumers)).setRing
        { r with drained := r.drained ++ [(sl, node, j)] }
    else s
  | _, _ => s

/-- The slots, by input position, that tile t of a node declares for a sequence. -/
def State.declaredSlots (s : State) (n : NodeSt) (seq : Word) (t : Nat) : List (Nat × Nat × Nat) :=
  (List.range n.rc.inRings.length).flatMap (fun j =>
    match s.ring? n.layer (n.rc.inRings.getD j 0xFF) with
    | none => []
    | some r =>
      match r.k? seq with
      | none => []
      | some k0 =>
        if n.rc.isPrev j && k0 == 0 then []
        else
          let k := if n.rc.isPrev j then k0 - 1 else k0
          let d := s.declared n t j
          ((List.range (d.2.2 + 1 - d.2.1)).map (fun i => (j, r.slotOf k (d.2.1 + i), d.2.1 + i))).filterMap (fun x =>
            if r.assigned? x.2.1 == some (k, x.2.2) then some (j, r.idx, x.2.1) else none))

/-- Drain every declared slot of an instance that R66 now allows. -/
def State.drainInputs (s : State) (n : NodeSt) (seq : Word) (t : Nat) : State :=
  (s.declaredSlots n seq t).foldl (fun s x => s.tryDrain n.layer x.2.1 x.2.2 n.rc.slot x.1) s

/-- The first token of a peer ring's sequence gives it its ring frame number here, and its slot that frame (R64, R459). -/
def State.numberRemote (s : State) (n : NodeSt) (seq : Word) (t op : Nat) : State :=
  match s.operandAt n t op with
  | none => s
  | some (j, b) =>
    match s.ring? n.layer (n.rc.inRings.getD j 0xFF) with
    | none => s
    | some r =>
      if r.remote.isNone then s
      else
        let r := r.number seq
        match r.k? seq with
        | none => s
        | some k =>
          let sl := r.slotOf k b
          if r.assigned? sl == some (k, b) then s.setRing r
          else s.setRing { r with assign := assocPut r.assign sl (k, b), arrived := r.arrived.filter (fun x => x.1 != sl),
                                  drained := r.drained.filter (fun x => x.1 != sl) }

/-- A token has arrived at its destination node: note it, and drain on the node's behalf when R66 allows (R91). -/
def State.arrive (s : State) (n : NodeSt) (seq : Word) (t op : Nat) : State :=
  let s := s.numberRemote n seq t op
  match s.operandAt n t op with
  | none => s
  | some (j, b) =>
    match s.ring? n.layer (n.rc.inRings.getD j 0xFF) with
    | none => s
    | some r =>
      match r.k? seq with
      | none => s
      | some k =>
        let sl := r.slotOf k b
        if r.assigned? sl == some (k, b) then
          let s := if r.arrived.contains (sl, n.rc.slot, j) then s
                   else s.setRing { r with arrived := r.arrived ++ [(sl, n.rc.slot, j)] }
          s.drainInputs n seq t
        else s.drainInputs n seq t

/-! ### Tokens -/

/-- The partner that a token's destination node is placed on. -/
def State.tokenPeer (s : State) (t : Token) : Option Nat := (s.node? t.node).bind (·.peer)

/-- Post tokens: into the input queue, or to the partner that holds the destination node; a token for an absent
partner is discarded (R92, R459, R461). -/
def State.post (s : State) (ts : List Token) : State :=
  let here := ts.filter (fun t => (s.tokenPeer t).isNone)
  let s1 := { s with fgs := { s.fgs with tokens := s.fgs.tokens ++ here } }
  ts.foldl (fun s t =>
    match s.tokenPeer t with
    | none => s
    | some e =>
      if s.partnerAbsent e then s
      else s.sendTo e (.token (dev2 s.device) (dev2 e) t.node t.stream t.seq t.tile t.operand t.kind t.domain)) s1

/-- The tokens that a slot posts: one to each consumer instance that declares the band among its current-frame
inputs, in fan-out order (R92, R93). -/
def State.slotTokens (s : State) (r : RingSt) (b : Nat) (seq : Word) (kind : Nat) : List Token :=
  let dom := match s.layer? r.layer with
    | some l => l.rc.partition
    | none => 0
  (s.readers r).flatMap (fun p =>
    if p.1.rc.isPrev p.2 then []
    else (s.tilesReading p.1 p.2 b).map (fun t =>
      { node := p.1.rc.slot, stream := r.stream, seq := seq, tile := t
        operand := s.operandBase p.1 t p.2 + (b - (s.declared p.1 t p.2).2.1), kind := kind, domain := dom,
        reserved := true, poster := none, flagged := false }))

/-- The entry that a token will create, if it creates one: none when the token is dropped or its entry exists. -/
def State.newKey (s : State) (t : Token) : Option (Nat × Word × Nat) :=
  match s.node? t.node with
  | none => none
  | some n =>
    if n.rc.periodic || n.peer.isSome || s.fgs.closed.contains n.layer || t.domain != n.domain || !s.runsOn n t.seq
        || n.isFinished t.seq t.tile || (s.inst? t.node t.seq t.tile).isSome then none
    else some (t.node, t.seq, t.tile)

/-- Entries already promised to reserved tokens in the input queue, and to partners (R92, R459). -/
def State.promised (s : State) : List (Nat × Word × Nat) :=
  (((s.fgs.tokens.filter (fun t => t.reserved)).filterMap (fun t => s.newKey t))
    ++ s.gml.promised.filter (fun k => (s.inst? k.1 k.2.1 k.2.2).isNone)).eraseDups

/-- The (node, sequence) pairs of keys. -/
def seqsOf (ks : List (Nat × Word × Nat)) : List (Nat × Word) := (ks.map (fun k => (k.1, k.2.1))).eraseDups

/-- What a release's tokens lack: nothing, 1 matching-store entries (FULL), 2 delay-list entries (DELAY_FULL);
and whether a destination that needs a new entry lies in a mode-1 flow (R92, R110, R111). -/
def State.shortfall (s : State) (ts : List Token) : Nat × Bool :=
  let held := s.promised
  let need := ((ts.filterMap (fun t => s.newKey t)).eraseDups).filter (fun k => !held.contains k)
  let outstanding := s.seqEntries
  let needD := (seqsOf need).filter (fun k => !outstanding.contains k && !(seqsOf held).contains k)
  let heldD := (seqsOf held).filter (fun k => !outstanding.contains k)
  let mode1 := need.any (fun k =>
    match (s.node? k.1).bind s.flowOf? with
    | some f => f.rc.mode == 1
    | none => false)
  if decide (4096 < s.storeUsed + held.length + need.length) then (1, mode1)
  else if decide (1024 < s.delayUsed + heldD.length + needD.length) then (2, mode1)
  else (0, mode1)

/-! ### Finishing instances -/

/-- The flow's head: the oldest position not released or cancelled (R104). -/
def State.advanceFlow (s : State) (n : NodeSt) : State :=
  match s.flowOf? n with
  | none => s
  | some f =>
    let ps := s.fgs.insts.filterMap (fun i =>
      if i.live && ((s.node? i.node).map (fun m => m.layer == n.layer && m.rc.flow == n.rc.flow)).getD false then
        i.flowPos else none)
    let h := ps.foldl (fun h p => if decide ((p - f.head).toNat < (h - f.head).toNat) then p else h) f.next
    s.modFlow f.layer f.rc.id (fun x => { x with head := h })

/-- Restart or clear a watch at a release (R112): cleared when nothing is outstanding. -/
def State.resetWatch (s : State) (n : NodeSt) : State :=
  match s.flowOf? n with
  | some f =>
    let out := s.fgs.insts.any (fun i => i.live && ((s.node? i.node).map (fun m => m.layer == n.layer && m.rc.flow == n.rc.flow)).getD false)
    s.modFlow f.layer f.rc.id (fun x => { x with watchFrom := if out then some s.now else none })
  | none =>
    let out := s.fgs.insts.any (fun i => i.live && i.node == n.rc.slot)
    s.modNode n.rc.slot (fun x => { x with watchFrom := if out then some s.now else none })

/-- Clear a watch when the flow has no instance outstanding (R112). -/
def State.clearWatch (s : State) (n : NodeSt) : State :=
  match s.flowOf? n with
  | some f =>
    if s.fgs.insts.any (fun i => i.live && ((s.node? i.node).map (fun m => m.layer == n.layer && m.rc.flow == n.rc.flow)).getD false)
    then s else s.modFlow f.layer f.rc.id (fun x => { x with watchFrom := none })
  | none =>
    if s.fgs.insts.any (fun i => i.live && i.node == n.rc.slot) then s
    else s.modNode n.rc.slot (fun x => { x with watchFrom := none })

/-- Advance a node's retired sequence: the newest sequence all of whose tiles have finished and than which no
live instance of the node is older (R90; log entry 10). Finished tiles it has passed are forgotten, and cancelled
entries it has passed are freed once their voids have taken effect (R93). -/
def State.retire (s : State) (slot : Nat) : State :=
  match s.node? slot with
  | none => s
  | some n =>
    let liveSeqs := (s.fgs.insts.filter (fun i => i.node == slot && i.live)).map (·.seq)
    let ok (q : Word) : Bool :=
      decide (n.rc.tiles ≤ (n.finished.filter (fun x => x.1 == q)).length)
        && liveSeqs.all (fun x => seqNewer x q)
    let best := n.finished.foldl (fun (b : Option Word) x =>
      if ok x.1 then
        match b with
        | none => some x.1
        | some y => if seqNewer x.1 y then some x.1 else some y
      else b) n.retired
    match best with
    | none => s
    | some q =>
      let s := s.modNode slot (fun m => { m with retired := some q, finished := m.finished.filter (fun x => seqNewer x.1 q) })
      let gone := (s.fgs.insts.filter (fun i =>
        i.node == slot && i.st == .cancelled && i.voidsLeft.isEmpty && !i.stopping && !seqNewer i.seq q)).map (·.entry)
      gone.foldl (fun s e => s.freeEntry e) s

/-- Unpin what a periodic instance pinned (R69). -/
def State.unpinAll (s : State) (n : NodeSt) (i : Inst) : State :=
  i.pins.foldl (fun s p =>
    match s.ring? n.layer (n.rc.inRings.getD p.1 0xFF) with
    | some r => s.modFlag (r.flagIdx p.2) (fun f => f.unpin r.rc.consumers)
    | none => s) s

/-- What follows the release or cancellation of an instance: its tile is finished, its flow's head advances, its
input slots drain, and the retired sequence moves. -/
def State.finish (s : State) (i : Inst) : State :=
  match s.node? i.node with
  | none => s
  | some n =>
    let s := if n.rc.periodic then s
             else s.modNode i.node (fun m => { m with finished := m.finished ++ [(i.seq, i.tile)] })
    let s := s.unpinAll n i
    let s := match s.node? i.node with
      | some m => s.drainInputs m i.seq i.tile
      | none => s
    let s := (s.advanceFlow n).clearWatch n
    if n.rc.periodic then s else s.retire i.node

/-! ### Voids and cancellation (R93, R109) -/

/-- Void one owned rectangle of an output slot. True when it has taken effect. -/
def State.voidOne (s : State) (n : NodeSt) (seq : Word) (tile o : Nat) : State × Bool :=
  match s.ring? n.layer o, s.outRing0 n with
  | some r, some r0 =>
    match r.k? seq with
    | none => (s, true)
    | some k =>
      let b := tileBand n.rc r0.rc tile
      let sl := r.slotOf k b
      let fl := s.slotFlag (r.flagIdx sl)
      let mine := r.assigned? sl == some (k, b) && fl.state == slotFilling
      let s' := if mine then some s
                else if fl.free r.rc.consumers && r.assigned? sl != some (k, b) then
                  some (s.assignSlot r k b seq (rectsOfBand n.rc r0.rc b))
                else if r.assigned? sl == some (k, b) then some s
                else none
      match s' with
      | none => (s, false)
      | some s1 =>
        let s2 := s1.modFlag (r.flagIdx sl) SlotFlag.voidRect
        if (s1.slotFlag (r.flagIdx sl)).state == slotFilling && (s2.slotFlag (r.flagIdx sl)).state == slotVoid then
          let r' := (s2.ring? n.layer o).getD r
          ((s2.event Reg.FGS_EVENT F.FGS_EVENT.VOID_RELEASE).post (s2.slotTokens r' b seq 1), true)
        else (s2, true)
  | _, _ => (s, true)

/-- The void release of a cancelled instance: every output whose slot allows it now, the others held in the
entry (R93). -/
def State.voidRelease (s : State) (i : Inst) : State :=
  match s.node? i.node with
  | none => s
  | some n =>
    let p := n.rc.outRings.foldl (fun (p : State × List Nat) o =>
      let q := p.1.voidOne n i.seq i.tile o
      if q.2 then (q.1, p.2) else (q.1, p.2 ++ [o])) (s, [])
    let s := p.1.modInst i.entry (fun x => { x with voidsLeft := p.2 })
    s

/-- Engine class code of a unit (R99), 8 for none. -/
def classOfUnit (code : Nat) : Nat :=
  match code / 256 with
  | 3 => 0
  | 4 => 1
  | 5 => 2
  | 6 => 3
  | 7 => 4
  | 8 => 5
  | 9 => 6
  | 0x0B => 7
  | _ => 8

/-- The Policy Core pair of a unit code. -/
def pcOf (code : Nat) : Option Nat := if code / 256 == 0x0B && decide (code % 256 < 4) then some (code % 256) else none

/-- A Policy Core pair. -/
def State.core (s : State) (n : Nat) : CoreSt := s.cores.getD n CoreSt.zero

/-- Change a Policy Core pair. -/
def State.modCore (s : State) (n : Nat) (f : CoreSt → CoreSt) : State :=
  { s with cores := s.cores.mapIdx (fun i c => if i == n then f c else c) }

/-- Charge a unit's time since it took its instance, or since the last evaluation, to its class (R436, metric 0). -/
def State.chargeBusy (s : State) (u : UnitSt) : State :=
  let c := classOfUnit u.code
  let t := s.now - max u.since s.adapt.evalAt
  { s with adapt := { s.adapt with busy := assocPut s.adapt.busy c ((assocGet s.adapt.busy c).getD 0 + t) } }

/-- A counter kept in units of 1,024: it advances by whole units and the unit keeps the remainder. -/
def State.addKilo (s : State) (code reg m n : Nat) : State :=
  let u := s.unit code
  let t := (assocGet u.resid m).getD 0 + n
  (s.setUnit { u with resid := assocPut u.resid m (t % 1024) }).addCnt reg (t / 1024)

/-- The busy-clock counter of a unit that has one: register, counter number and clocks in a number of ns
(VEC domain 1.0 GHz, fabric domain 1.2 GHz). -/
def busyCounter (code t : Nat) : Option (Nat × Nat × Nat) :=
  let n := code % 256
  match code / 256 with
  | 3 => some (Reg.WRP_CNT n 5, 5, t)
  | 4 => some (Reg.PYR_CNT n 5, 5, t)
  | 5 => some (Reg.STR_CNT n 6, 6, t)
  | 6 => some (Reg.FLW_CNT n 6, 6, t)
  | 7 => some (Reg.FTR_CNT n 8, 8, t)
  | 9 => some (Reg.BM_CNT n 2, 2, t * 6 / 5)
  | _ => none

/-- Count the clocks for which a unit has held its instance. -/
def State.countBusy (s : State) (u : UnitSt) : State :=
  match busyCounter u.code (s.now - u.since) with
  | some (r, m, n) => s.addKilo u.code r m n
  | none => s

/-- The unit no longer holds the entry: it is free, or a suspended firmware instance runs on again (R102). -/
def State.leaveUnit (s : State) (code e : Nat) : State :=
  let u := s.unit code
  match pcOf code with
  | some n =>
    if !(s.core n).insts.any (fun x => x.1 == e) then s
    else
    let rest := (s.core n).insts.filter (fun x => x.1 != e)
    let s := s.modCore n (fun c => { c with insts := rest })
    let s := if (s.core n).insts.isEmpty then s.chargeBusy u else s
    s.setUnit { u with entry := rest.head?.map (·.1), since := if rest.isEmpty then s.now else u.since }
  | none =>
    if u.entry == some e then
      let s := (s.chargeBusy u).countBusy u
      s.setUnit { s.unit code with entry := none, since := s.now, hold := none }
    else s

/-- An instance that no unit holds is cancelled now: void release, then finished (R93, R109). A cancelled entry
of a non-periodic node stays until the retired sequence passes it. -/
def State.cancelNow (s : State) (e : Nat) : State :=
  match s.entry? e with
  | none => s
  | some i =>
    if i.st == .cancelled && !i.stopping then s
    else
      let s := s.addCnt (Reg.FGS_CNT 4) 1
      let s := match i.unit with
        | some u => s.leaveUnit u e
        | none => s
      let s := s.modInst e (fun x => { x with st := .cancelled, holdDue := none, stopping := false, stalledFrom := none, refused := none })
      let s := s.voidRelease i
      let s := s.finish i
      match s.node? i.node, s.entry? e with
      | some n, some j => if n.rc.periodic && j.voidsLeft.isEmpty then s.freeEntry e else s
      | none, _ => s.freeEntry e
      | _, none => s

/-- Show the next abort of a pair in SYS_PCn_ABORT when none is shown (R372). -/
def State.showAbort (s : State) (n : Nat) : State :=
  if s.flag (Reg.SYS_PC_ABORT n) F.SYS_PC_ABORT.VALID then s
  else
    match s.fgs.insts.find? (fun i => i.stopping && i.unit == some (0x0B00 + n)) with
    | none => s
    | some i =>
      ((s.setFlag (Reg.SYS_PC_ABORT n) F.SYS_PC_ABORT.VALID true).setFld (Reg.SYS_PC_ABORT n) F.SYS_PC_ABORT.GEN i.gen).setFld
        (Reg.SYS_PC_ABORT n) F.SYS_PC_ABORT.ENTRY i.entry

/-- Cancel an instance (R109): at once when no unit runs it; otherwise its unit is told to stop, and the void
release follows the acknowledgement. A firmware instance is stopped by an abort (R372). -/
def State.cancel (s : State) (e : Nat) : State :=
  match s.entry? e with
  | none => s
  | some i =>
    if i.st == .cancelled || i.stopping then s
    else if i.busy then
      let s := s.modInst e (fun x => { x with stopping := true })
      match i.unit.bind pcOf with
      | some n => s.showAbort n
      | none => s
    else s.cancelNow e

/-- A late release or a miss of a non-safety partition counts in metric 4 (R436). -/
def State.countMiss (s : State) (domain : Nat) : State :=
  if isSafety domain then s else { s with adapt := { s.adapt with misses := s.adapt.misses + 1 } }

/-- Least deadline slack of the released instances (R436, metric 1). -/
def State.noteSlack (s : State) (domain : Nat) (slack : Int) : State :=
  let low (o : Option Int) : Option Int := some (match o with
    | some x => min x slack
    | none => slack)
  let a := s.adapt
  { s with adapt := if isSafety domain then { a with slackSafety := low a.slackSafety } else { a with slackOther := low a.slackOther } }

/-! ### Release (R92) -/

/-- Peer nodes on absent partners count as having drained a slot (R461). -/
def State.drainAbsent (s : State) (layer idx sl : Nat) : State :=
  match s.ring? layer idx with
  | none => s
  | some r =>
    (s.readers r).foldl (fun s p =>
      match s.ring? layer idx, p.1.peer with
      | some r, some e =>
        if s.partnerAbsent e && !r.drained.contains (sl, p.1.rc.slot, p.2) && (s.slotFlag (r.flagIdx sl)).state == slotFull then
          (s.modFlag (r.flagIdx sl) (fun f => f.drain r.rc.consumers)).setRing { r with drained := r.drained ++ [(sl, p.1.rc.slot, p.2)] }
        else s
      | _, _ => s) s

/-- Reservations at partners that a release still needs: asked now where none has been asked, and whether all are
granted (R459). `id` names the release. -/
def State.reserveRemote (s : State) (id : Nat) (ts : List Token) : State × Bool :=
  let peers := ((ts.filterMap s.tokenPeer).eraseDups).filter (fun e => !s.partnerAbsent e)
  peers.foldl (fun (p : State × Bool) e =>
    match s.gml.asked.find? (fun a => a.1 == id && a.2.1 == e) with
    | some (_, _, st) => (p.1, p.2 && st == 1)
    | none =>
      let keys := ((ts.filter (fun t => s.tokenPeer t == some e)).map (fun t => (t.node, t.seq, t.tile))).eraseDups
      let s := p.1.sendTo e (.reserve (dev2 p.1.device) (dev2 e) id keys)
      ({ s with gml := { s.gml with asked := s.gml.asked ++ [(id, e, 0)] } }, false)) (s, true)

/-- A release that has taken its reservations. -/
def State.forgetAsked (s : State) (id : Nat) : State :=
  { s with gml := { s.gml with asked := s.gml.asked.filter (fun a => a.1 != id) } }

/-- Release one owned rectangle of an output ring, and the tokens its slot then posts. -/
def State.releaseOne (s : State) (n : NodeSt) (seq : Word) (tile o : Nat) (flagged late : Bool) : State :=
  match s.ring? n.layer o, s.outRing0 n with
  | some r, some r0 =>
    match r.k? seq with
    | none => s
    | some k =>
      let b := tileBand n.rc r0.rc tile
      let idx := r.flagIdx (r.slotOf k b)
      if r.assigned? (r.slotOf k b) != some (k, b) || (s.slotFlag idx).state != slotFilling then s
      else
        let s := s.modFlag idx (fun f => f.releaseRect flagged late)
        let st := (s.slotFlag idx).state
        if st == slotFull then (s.post (s.slotTokens r b seq 0)).drainAbsent n.layer o (r.slotOf k b)
        else if st == slotVoid then (s.event Reg.FGS_EVENT F.FGS_EVENT.VOID_RELEASE).post (s.slotTokens r b seq 1)
        else s
  | _, _ => s

/-- The data tokens that the release of an instance will post. -/
def State.releaseTokens (s : State) (n : NodeSt) (i : Inst) : List Token :=
  n.rc.outRings.flatMap (fun o =>
    match s.ring? n.layer o, s.outRing0 n with
    | some r, some r0 =>
      match r.k? i.seq with
      | none => []
      | some k =>
        let b := tileBand n.rc r0.rc i.tile
        let f := s.slotFlag (r.flagIdx (r.slotOf k b))
        if f.state == slotFilling && f.rectLeft == 1 && !f.voided then s.slotTokens r b i.seq 0 else []
    | _, _ => [])

/-- It is an instance's turn in its flow: it is at the head, or its node belongs to no flow (R25, R104). -/
def State.atHead (s : State) (i : Inst) : Bool :=
  match (s.node? i.node).bind s.flowOf? with
  | some f => i.flowPos == some f.head
  | none => true

/-- Refuse or stall a release that cannot reserve its entries (R110, R111). -/
def State.refuseRelease (s : State) (n : NodeSt) (i : Inst) (code : Nat) (mode1 : Bool) : State :=
  let s := if code == 2 then s.event Reg.FGS_EVENT F.FGS_EVENT.DELAY_FULL else s
  if mode1 then
    if i.stalledFrom.isSome then s
    else (s.event Reg.FGS_EVENT F.FGS_EVENT.STALLED).modInst i.entry (fun x => { x with stalledFrom := some s.now })
  else
    let s := (s.event Reg.FGS_EVENT F.FGS_EVENT.REFUSED).addCnt (Reg.FGS_CNT 0) 1
    match i.refused with
    | some _ => s
    | none =>
      let s := s.log srcFgs 0x030D 0 n.domain i.stream i.nt i.seq.toNat code
      let s := s.modInst i.entry (fun x => { x with refused := some s.fgs.refuseNext })
      { s with fgs := { s.fgs with refuseNext := s.fgs.refuseNext + 1 } }

/-- Try to release a done-unreleased instance whose turn it is (R92). -/
def State.tryRelease (s : State) (e : Nat) : State :=
  match s.entry? e with
  | none => s
  | some i =>
    match s.node? i.node with
    | none => s
    | some n =>
      if i.st != .done || !s.atHead i then s
      else
        let (code, mode1) := s.shortfall (s.releaseTokens n i)
        if code != 0 then s.refuseRelease n i code mode1
        else
          let (s, granted) := s.reserveRemote e (s.releaseTokens n i)
          if !granted then s
          else
          let s := s.forgetAsked e
          let dl := n.deadline i.ts
          let late := i.late || decide (dl < s.now)
          let s := match i.stalledFrom with
            | some t => s.addCnt (Reg.FGS_CNT 1) ((s.now - t) * 6 / 5)
            | none => s
          let s := match i.unit with
            | some u => s.leaveUnit u e
            | none => s
          let s := n.rc.outRings.foldl (fun s o => s.releaseOne n i.seq i.tile o i.inputFlagged late) s
          let s := if late then
              ((s.event Reg.FGS_EVENT F.FGS_EVENT.LATE_RELEASE).addCnt (Reg.FGS_CNT 3) 1).countMiss n.domain
            else s
          let s := s.noteSlack n.domain ((dl : Int) - s.now)
          let s := (s.freeEntry e).finish i
          s.resetWatch n

end Sys2Proof.Machine
end

