-- ==== Sys2Proof/Machine/CamOps.lean ====
section
/-! DEFINITION. What the Camera Front End, the image pipes and the scenes share: stream contexts, the rings that a
stream's parameter set names, context banks, and what binding and unbinding a stream does (R63, R79, R83, R141, R148). -/

namespace Sys2Proof.Machine

open Sys2Proof

/-! ### Lookups -/

/-- A stream context. -/
def State.cam? (s : State) (stream : Nat) : Option StreamSt := s.cam.streams.find? (fun c => c.stream == stream)

/-- Change a stream context. -/
def State.modCam (s : State) (stream : Nat) (f : StreamSt → StreamSt) : State :=
  { s with cam := { s.cam with streams := s.cam.streams.map (fun c => if c.stream == stream then f c else c) } }

/-- An empty pipe. -/
def PipeSt.empty : PipeSt := ⟨List.replicate 8 none, [], [], none, none, none⟩

/-- A pipe. -/
def State.pipe (s : State) (n : Nat) : PipeSt := s.isp.getD n PipeSt.empty

/-- Change a pipe. -/
def State.modPipe (s : State) (n : Nat) (f : PipeSt → PipeSt) : State :=
  { s with isp := s.isp.mapIdx (fun i p => if i == n then f p else p) }

/-- A bank of a pipe. -/
def PipeSt.bank? (p : PipeSt) (m : Nat) : Option IspBank := p.banks.getD m none

/-- Change a bank of a pipe. -/
def State.modBank (s : State) (n m : Nat) (f : IspBank → IspBank) : State :=
  s.modPipe n (fun p => { p with banks := p.banks.mapIdx (fun i b => if i == m then b.map f else b) })

/-- The parameter set of a stream in the image: its ISP_PARAMS section, defect list included. -/
def Flash.ispSet (f : Flash) (r n : Nat) : List Byte := f.secBytes r 5 n

/-- The ring IDs that a parameter set names: stage-10 output, statistics, two taps, staging (R149). -/
def ispRingIds (params : List Byte) : List Nat :=
  [0x3FC0, 0x3FC2, 0x3FC4, 0x3FC6, 0x3FD4].map (fun o => leAt params o 2)

/-- The ring IDs that a stream's profile gives it; none for a stream without an image pipe. -/
def Flash.streamRings (f : Flash) (r : Nat) (p : StreamRec) : List Nat :=
  if decide (4 ≤ p.isp) then [] else (ispRingIds (f.ispSet r p.ispSet)).filter (· != 0xFFFF)

/-- The streams in use of the image. -/
def Flash.usedStreams (f : Flash) (r : Nat) : List StreamRec := (f.streams r).filter (fun p => p.port != 0xFF)

/-- The streams that a layer binds: those whose parameter set names a ring of the layer (R63, R149; DEDUCED, log
entry 14). -/
def Flash.layerStreams (f : Flash) (r : Nat) (l : LayerRec) : List StreamRec :=
  (f.usedStreams r).filter (fun p => (f.streamRings r p).any (fun i => l.rings.any (fun x => x.ringId == i)))

/-! ### The state a pipe shows -/

/-- The stream's frames in a pipe are worked on: the frame last started. -/
def PipeSt.front? (p : PipeSt) : Option PipeFrame := p.frames.find? (fun f => !f.restart)

/-- Show a pipe's state and the bank in use in ISPn_STATUS. -/
def State.showPipe (s : State) (n : Nat) : State :=
  let p := s.pipe n
  let u := s.unit (0x0200 + n)
  let st := if u.fenced then 5
    else if u.gated then 0
    else if p.frames.any (fun f => !f.closed && f.staged.isNone) then 2
    else if p.frames.any (fun f => f.staged.isSome && !f.restart) then 3
    else if p.inject.isSome then 4
    else 1
  let s := s.setFld (Reg.ISP_STATUS n) F.ISP_STATUS.STATE st
  let bank := match p.frames.find? (fun f => if st == 2 then f.staged.isNone else f.staged.isSome && !f.restart) with
    | some f => (((List.range 7).find? (fun m => ((p.bank? m).map (·.stream)) == some f.stream)))
    | none => if st == 4 then some 7 else none
  match bank with
  | some b => s.setFld (Reg.ISP_STATUS n) F.ISP_STATUS.BANK b
  | none => s

/-! ### Binding and unbinding -/

/-- Close a frame in progress as discarded: it is checked to its end and written nowhere (R79). -/
def State.discardFrame (s : State) (stream port : Nat) : State :=
  match (s.cam? stream).bind (·.frame) with
  | some f =>
    if f.path == 1 || f.path == 2 then
      (s.modCam stream (fun c => { c with frame := c.frame.map (fun f => { f with path := 3, staged := none }) })).addCnt (Reg.CFE_PORT_CNT port 3) 1
    else s
  | none => s

/-- A pipe stops work on a stream without release; queued updates are discarded and journaled (R148). -/
def State.stopPipeWork (s : State) (n stream : Nat) : State :=
  let p := s.pipe n
  let had := p.frames.any (fun f => f.stream == stream) || p.waiting.any (fun w => w.stream == stream)
  let q := ((List.range 7).filterMap p.bank?).find? (fun b => b.stream == stream)
  let k := (q.map (fun b => b.queue.length)).getD 0
  let s := s.modPipe n (fun p => { p with
    banks := p.banks.mapIdx (fun i b => if i != 7 && (b.map (·.stream)) == some stream then none else b)
    frames := p.frames.filter (fun f => f.stream != stream)
    waiting := p.waiting.filter (fun w => w.stream != stream)
    copying := if (p.copying.map (fun c => c.2.1)) == some stream then none else p.copying })
  let s := (List.range 7).foldl (fun s m => if ((p.bank? m).map (·.stream)) == some stream then s.setReg (Reg.ISP_BANK n m) 0 else s) s
  let s := match p.copying with
    | some c => if c.2.1 == stream then s.setFlag (bankOff c.1 (Reg.ISP_UPD_STATUS n)) F.ISP_UPD_STATUS.BUSY false else s
    | none => s
  let s := if had then s.event (Reg.ISP_ERR n) F.ISP_ERR.DISCARD else s
  let s := if k != 0 then s.log (0x0200 + n) 0x0406 0 0 stream k 0 0 else s
  s.showPipe n

/-- A stream is unbound: the CFE stops writing it at once and its pipe stops work on it (R63, R79, R148). -/
def State.unbindStream (s : State) (stream : Nat) : State :=
  match s.streamRec? stream with
  | none => s
  | some p =>
    let s := (s.discardFrame stream p.port).modCam stream (fun c => { c with layer := none, fresh := false, bank := none })
    if decide (p.isp < 4) then s.stopPipeWork p.isp stream else s

/-- Load a stream's parameter set into the lowest free bank of its pipe (R141). -/
def State.loadBank (s : State) (p : StreamRec) : State :=
  if decide (4 ≤ p.isp) then s
  else
    match (List.range 7).find? (fun m => ((s.pipe p.isp).bank? m).isNone) with
    | none => s
    | some m =>
      let b : IspBank := ⟨p.stream, s.flash.ispSet s.imgRegion p.ispSet, [], false⟩
      let s := s.modPipe p.isp (fun q => { q with banks := q.banks.mapIdx (fun i x => if i == m then some b else x) })
      let a := Reg.ISP_BANK p.isp m
      let s := ((s.setReg a 0).setFlag a F.ISP_BANK.VALID true).setFld a F.ISP_BANK.STREAM p.stream
      s.modCam p.stream (fun c => { c with bank := some m })

/-- OPEN binds a stream from its next Frame Start (R83). -/
def State.openStream (s : State) (layer stream : Nat) : State :=
  s.modCam stream (fun c => { c with layer := some layer, fresh := true })

/-- A stream is marked absent: its context is disabled (R43, R470). -/
def State.markAbsent (s : State) (stream : Nat) : State :=
  if s.kin.absentStreams.contains stream then s
  else
    let s := s.unbindStream stream
    { s with kin := { s.kin with absentStreams := s.kin.absentStreams ++ [stream] } }

end Sys2Proof.Machine
end

