-- ==== Sys2Proof/Machine/MemOps.lean ====
section
/-! DEFINITION. Memory accesses: the address map and firewalls (R13, R399 to R402, R501), slot checks (R308), cinder
state (R317), write credits (R314), the weight cache (R322 to R324) and LPDDR5X (R338, R339). -/

namespace Sys2Proof.Machine

open Sys2Proof

/-! ### The address map (R501) -/

def addrBootRom : Nat := 0x0
def addrLocal : Nat := 0x1000000
def addrFs : Nat := 0x100000000
def addrSpm : Nat := 0x140000000
def addrReg : Nat := 0x200000000
def addrLp : Nat := 0x10000000000

/-- Bytes of the Frame Store and of one scratchpad. -/
def fsBytes : Nat := 0x18000000
def spmBytes : Nat := 0x600000

/-- `a` lies in the n bytes from b. -/
def inRange (a b n : Nat) : Bool := decide (b ≤ a) && decide (a < b + n)

/-- The firewall target of a local address; none where the map is unassigned (R402, R501). -/
def targetOf (a : Nat) : Option Nat :=
  if inRange a addrBootRom 0x40000 then some 0xE8
  else if inRange a addrLocal 0x100000 then some (0xE4 + (a - addrLocal) / 0x40000)
  else if inRange a addrFs fsBytes then some (0xC0 + (a - addrFs) / 0x2000000)
  else if inRange a addrSpm 0x8000000 then some (0xD0 + (a - addrSpm) / 0x800000)
  else if inRange a addrReg 0xC00000 then some (0x100 + (a - addrReg) / 0x10000)
  else if inRange a addrLp 0x1000000000 then some 0xE0
  else none

/-! ### Who accesses -/

/-- The issuer of a transaction: its unit code or source, its Domain ID, and how slot checks treat it (R308). -/
structure Issuer where
  unit : Nat
  domain : Nat
  /-- an engine, tile or Block Mover, whose accesses are held -/
  held : Bool
  deriving DecidableEq, Repr

/-- The issuer's initiator identifier. -/
def Issuer.initiator (c : Issuer) : Nat :=
  if c.unit / 256 == 0x0D then 0x3F0 + c.unit % 256 else Config.initiatorId c.unit % 1024

/-- The address lies in the scratchpad of the tile that issues the access. -/
def Issuer.ownSpm (c : Issuer) (a : Nat) : Bool :=
  c.unit / 256 == 8 && inRange a (addrSpm + c.unit % 256 * 0x800000) 0x800000

/-- A tinder job's access, which no slot check meets (R404); an Island-owned CVU's memory job is checked as any other
initiator is (R384). -/
def Issuer.tinder (c : Issuer) : Bool := c.domain == 1 && c.unit / 256 != 0x0A

/-- Why an access is not served. -/
inductive AccErr where
  | decode | firewall | outOfRange | lpRange | cinder | credit | slot | outOfService
  /-- a remote transaction that never leaves the device, or ends with an error (R293, R503) -/
  | remote
  /-- a remote transaction whose response is awaited -/
  | pending
  deriving DecidableEq, Repr

/-! ### Firewalls (R399 to R401) -/

/-- A region permits a transaction (R400). -/
def FwRegion.permits (r : FwRegion) (a len domain init : Nat) (write : Bool) : Bool :=
  r.enable && decide (r.base ≤ a) && decide (a + len ≤ r.base + r.pages * 4096)
    && (if write then r.wr else r.rd).getLsbD domain && (r.any || r.initiator == init)

/-- A locked region covers some byte of a transaction. -/
def FwRegion.locks (r : FwRegion) (a len : Nat) : Bool := r.enable && r.lock && overlap r.base (r.pages * 4096) a len

/-- Some enabled region of a target permits a transaction. -/
def State.regionPermits (s : State) (t a len domain init : Nat) (write : Bool) : Bool :=
  s.safety.regions.any (fun r => r.target == t && r.permits a len domain init write)

/-- An SI register that Domain ID 0 may write: SI_HBn and SI_COVER_SEL (R399, R428). -/
def siOpen (off : Nat) : Bool := (List.range 4).any (fun n => off == Reg.SI_HB n) || off == Reg.SI_COVER_SEL

/-- A firewall's judgement of a transaction (R399, R400, R501). -/
def State.fwPermits (s : State) (t a len domain init : Nat) (write : Bool) : Bool :=
  if t == 0xE8 then domain == 0 && !write
  else if domain == 1 then true
  else if domain == 0 then
    if s.safety.regions.any (fun r => r.target == t && r.locks a len) then s.regionPermits t a len domain init write
    else !(t == 0x190 && write) || siOpen (a - addrReg)
  else if domain == 15 then !s.otp.debugFused
  else s.regionPermits t a len domain init write

/-- What a refusal leaves: event, latch, count, a record once per target and Domain ID per second, and cause 14 for
Domain ID 2 to 7 (R400). -/
def State.fwRefuse (s : State) (t a domain init : Nat) (write : Bool) (unit : Nat) : State :=
  let s := (s.event Reg.FWL_EVENT F.FWL_EVENT.REFUSED).addCnt Reg.FWL_REFUSE_CNT 1
  let hi := Reg.FWL_REFUSE_HI
  let s := if s.flag hi F.FWL_REFUSE_HI.VALID then s else
    let s := (s.setReg Reg.FWL_REFUSE_LO (w32 a)).setFlag hi F.FWL_REFUSE_HI.VALID true
    let s := ((s.setFlag hi F.FWL_REFUSE_HI.WRITE write).setFld hi F.FWL_REFUSE_HI.DOMAIN domain).setFld hi F.FWL_REFUSE_HI.INITIATOR init
    (s.setFld hi F.FWL_REFUSE_HI.ADDR_HI (a / 2 ^ 32)).setReg Reg.FWL_REFUSE_TGT (w32 t)
  let last := s.journal.refusedAt.find? (fun x => x.1 == t && x.2.1 == domain)
  let due := match last with
    | some x => decide (x.2.2 + 1000000000 ≤ s.now)
    | none => true
  let s := if due then
      let s := (s.event Reg.SI_EVENT F.SI_EVENT.FIREWALL).log (0x1C00 + t % 256) 0x070D 1 domain 0xFF a (a / 2 ^ 32 % 4096 + domain * 65536 + bit write * 2 ^ 20) (init + t * 65536)
      { s with journal := { s.journal with refusedAt :=
          (t, domain, s.now) :: s.journal.refusedAt.filter (fun x => !(x.1 == t && x.2.1 == domain)) } }
    else s
  if isSafety domain then s.doubt 14 unit domain 0 else s

/-- Latch an access to an unassigned local address (R501). -/
def State.latchDecode (s : State) (a domain init : Nat) (write : Bool) : State :=
  let hi := Reg.SYS_DECODE_HI
  if s.flag hi F.SYS_DECODE_HI.VALID then s
  else
    let s := (s.setReg Reg.SYS_DECODE_LO (w32 a)).setFlag hi F.SYS_DECODE_HI.VALID true
    ((((s.setFlag hi F.SYS_DECODE_HI.WRITE write).setFld hi F.SYS_DECODE_HI.DOMAIN domain).setFld hi F.SYS_DECODE_HI.INITIATOR init).setFld
      hi F.SYS_DECODE_HI.ADDR_HI (a / 2 ^ 32))

/-! ### LPDDR5X (R338) -/

/-- The memory controllers whose channel is present, in order. -/
def State.channels (s : State) : List Nat :=
  (List.range 4).filter (fun n => let st := s.fld (Reg.MC_STATUS n) F.MC_STATUS.STATE; decide (2 ≤ st) && decide (st ≤ 4))

/-- Usable capacity U of a channel in bytes. -/
def State.chanBytes (s : State) : Nat :=
  match s.channels with
  | n :: _ => s.fld (Reg.MC_STATUS n) F.MC_STATUS.CAPACITY_MIB * 1048576
  | [] => 0

/-- N × U, the end of the local LPDDR5X range. -/
def State.lpBytes (s : State) : Nat := s.channels.length * s.chanBytes

/-- The controller that decodes an LPDDR5X offset. -/
def State.mcOf (s : State) (o : Nat) : Nat :=
  let c := s.channels
  c.getD (o / 4096 % max 1 c.length) 0

/-! ### Slots (R308) -/

/-- First local address of a ring's memory. -/
def ringBase (r : RingRec) : Nat :=
  (match r.kind with
   | 0 => addrFs
   | 1 => addrSpm
   | _ => addrLp) + r.base

/-- The bound slots that a run of bytes touches: (ring, slot). -/
def State.slotsHit (s : State) (a len : Nat) : List (RingSt × Nat) :=
  s.fgs.rings.flatMap (fun r =>
    ((List.range r.rc.slotCount).filter (fun k => overlap (ringBase r.rc + k * r.rc.slotBytes) r.rc.slotBytes a len)).map (fun k => (r, k)))

/-- Every slot that a run of bytes touches serves the access. -/
def State.slotsServe (s : State) (a len : Nat) (write : Bool) : Bool :=
  (s.slotsHit a len).all (fun p => (s.slotFlag (p.1.flagIdx p.2)).state == (if write then slotFilling else slotFull))

/-! ### Cinder (R317) -/

/-- The cinder entry that a run of bytes touches. -/
def State.cinderHit (s : State) (a len : Nat) : Option Cinder :=
  s.mm.cinder.find? (fun c => !c.waiting && overlap c.base c.size a len)

/-- What a refused write to, or zero-answered read of, a cinder region leaves (R317). -/
def State.cinderTell (s : State) (c : Cinder) (a : Nat) (write : Bool) : State :=
  let s :=
    if inRange a addrFs fsBytes then
      if write then s.event Reg.MC_FS_EVENT F.MC_FS_EVENT.CINDER_WRITE else s.event Reg.MC_FS_EVENT F.MC_FS_EVENT.SCRUB_PENDING
    else if inRange a addrSpm 0x8000000 then
      let n := (a - addrSpm) / 0x800000
      if write then s.event (Reg.NT_SPM_EVENT n) F.NT_SPM_EVENT.CINDER_WRITE else s.event (Reg.NT_SPM_EVENT n) F.NT_SPM_EVENT.SCRUB_PENDING
    else
      let n := s.mcOf (a - addrLp)
      if write then s.event (Reg.MC_ECC_EVENT n) F.MC_ECC_EVENT.CINDER_WRITE else s.event (Reg.MC_ECC_EVENT n) F.MC_ECC_EVENT.SCRUB_PENDING
  let s := if write then s.addCnt (Reg.MC_FS_CNT 3) 1 else s.addCnt (Reg.MC_FS_CNT 2) 1
  if c.told then s
  else
    let src := if inRange a addrFs fsBytes then 0x0E00 + 4 * ((a - addrFs) / 0x2000000)
      else if inRange a addrSpm 0x8000000 then 0x0800 + (a - addrSpm) / 0x800000 else 0x0C00 + s.mcOf (a - addrLp)
    let s := s.log src 0x0603 0 0 0xFF a (a / 2 ^ 32) (bit write)
    { s with mm := { s.mm with cinder := s.mm.cinder.map (fun x => if x.base == c.base && x.size == c.size then { x with told := true } else x) } }

/-! ### The check of one access -/

/-- A write credit of a scratchpad admits a write (R314). -/
def State.creditAdmits (s : State) (n a len domain init : Nat) : Bool :=
  let o := a - (addrSpm + n * 0x800000)
  (List.range 16).any (fun k =>
    let c := Reg.NT_CRED_CTRL n k
    let w := Reg.NT_CRED_WIN n k
    let b := s.fld w F.NT_CRED_WIN.BASE * 256
    s.flag c F.NT_CRED_CTRL.VALID && decide (b ≤ o) && decide (o + len ≤ b + s.fld w F.NT_CRED_WIN.LEN * 256)
      && s.fld c F.NT_CRED_CTRL.DOMAIN == domain
      && (s.flag c F.NT_CRED_CTRL.ANY || s.fld c F.NT_CRED_CTRL.INITIATOR == init))

/-- A Frame Store bank group with a fenced pair is out of service (R303). -/
def State.groupOut (s : State) (a : Nat) : Bool :=
  let g := (a - addrFs) / 0x2000000
  (List.range 4).any (fun i => (s.unit (0x0E00 + 4 * g + i)).fenced)

/-- Judge one transaction that crosses no 4 KiB boundary, with everything a refusal leaves behind. Order: address
decode, firewall, bounds of the memory, cinder state, write credit, slot check. -/
def State.judge (s : State) (c : Issuer) (a len : Nat) (write : Bool) : State × Option AccErr :=
  let init := c.initiator
  match targetOf a with
  | none => (s.latchDecode a c.domain init write, some .decode)
  | some t =>
    if !c.ownSpm a && !s.fwPermits t a len c.domain init write then (s.fwRefuse t a c.domain init write c.unit, some .firewall)
    else if inRange a addrSpm 0x8000000 && decide (spmBytes < (a - addrSpm) % 0x800000 + len) then
      (s.event (Reg.NT_SPM_EVENT ((a - addrSpm) / 0x800000)) F.NT_SPM_EVENT.OUT_OF_RANGE, some .outOfRange)
    else if t == 0xE0 && decide (s.lpBytes < a - addrLp + len) then
      (s.event (Reg.MC_ECC_EVENT (s.mcOf (a - addrLp))) F.MC_ECC_EVENT.RANGE, some .lpRange)
    else if inRange a addrFs fsBytes && s.groupOut a then (s, some .outOfService)
    else
      match s.cinderHit a len with
      | some k => (s.cinderTell k a write, some .cinder)
      | none =>
        if write && inRange a addrSpm 0x8000000 && !c.ownSpm a
            && !s.creditAdmits ((a - addrSpm) / 0x800000) a len c.domain init then
          (s.event (Reg.NT_SPM_EVENT ((a - addrSpm) / 0x800000)) F.NT_SPM_EVENT.CREDIT_REFUSED, some .credit)
        else if c.domain == 0 || c.tinder || (c.domain == 15 && !s.otp.debugFused) || s.slotsServe a len write then (s, none)
        else
          let s := s.event Reg.MC_FS_EVENT (if write then F.MC_FS_EVENT.SLOT_WRITE_REFUSED else F.MC_FS_EVENT.SLOT_NOT_READY)
          let s := if c.held then s else if write then s.addCnt (Reg.MC_FS_CNT 3) 1 else s
          (s, some .slot)

/-! ### Addresses of 44 bits (R502, R503, R455) -/

/-- The model's address for a 44-bit address: the local address, or 2^44 plus the 44 bits of a remote one (R502). -/
def State.place (s : State) (g : Nat) : Nat := if g / 2 ^ 42 % 4 == s.device then g % 2 ^ 42 else 2 ^ 44 + g % 2 ^ 44

/-- The model's address of a byte at a local address of a device. -/
def State.placeOn (s : State) (dev a : Nat) : Nat := s.place (dev * 2 ^ 42 + a % 2 ^ 42)

/-- A remote address of the model. -/
def isRemote (a : Nat) : Bool := decide (2 ^ 44 ≤ a)

/-- Bytes of local memory, or bytes that responses of partners have brought. -/
def State.fetch (s : State) (a n : Nat) : List Byte :=
  if isRemote a then Memory.bytes s.gml.remote (a - 2 ^ 44) n else Memory.bytes s.mem a n

/-- Split a remote run into request packets of at most 256 bytes. -/
def packetRuns : Nat → Nat → Nat → List (Nat × Nat)
  | 0, _, _ => []
  | fuel + 1, a, len => if len = 0 then [] else (a, min len 256) :: packetRuns fuel (a + min len 256) (len - min len 256)

/-- One request of a unit: sent when it has not been, and its state. -/
def State.remoteOne (s : State) (c : Issuer) (k a len : Nat) (write : Bool) (data : List Byte) : State × Nat :=
  match s.gml.outstanding.find? (fun x => x.unit == c.unit && x.write == write && x.addr == a && x.len == len) with
  | some x => (s, x.status)
  | none =>
    let e := a / 2 ^ 42 % 4
    let tag := s.gml.nextTag
    let s := s.sendTo e (.request (dev2 s.device) (dev2 e) tag write (a % 2 ^ 42) len data (BitVec.ofNat 4 c.domain) c.held)
    ({ s with gml := { s.gml with nextTag := tag + 1, outstanding := s.gml.outstanding ++ [⟨tag, e, k, c.unit, write, a, len, 0⟩] } }, 0)

/-- A remote run: the bounds of R503, the outbound firewall of its first link, and the requests it needs. -/
def State.remoteRun (s : State) (c : Issuer) (a len : Nat) (write : Bool) (data : List Byte) : State × Option AccErr :=
  let g := a - 2 ^ 44
  let e := g / 2 ^ 42 % 4
  let l := g % 2 ^ 42
  if decide (s.deviceCount ≤ e) || decide (l < 0x1000000) || inRange l addrReg 0xC00000 then (s, some .remote)
  else
    match s.gml.routes.getD e none with
    | none => (s, some .remote)
    | some k =>
      if s.partnerAbsent e then (s, some .remote)
      else if !s.fwPermits (0xEC + k) l len c.domain c.initiator write then
        (s.fwRefuse (0xEC + k) l c.domain c.initiator write c.unit, some .firewall)
      else
        let p := (packetRuns (len / 256 + 1) g len).foldl (fun (p : State × Nat × Bool) r =>
          let q := p.1.remoteOne c k r.1 r.2 write ((data.drop (r.1 - g)).take r.2)
          (q.1, max p.2.1 q.2, p.2.2 || q.2 == 0)) (s, 0, false)
        (p.1, if p.2.2 then some .pending else if p.2.1 == 2 then some .remote else none)

/-- The requests of a unit that have ended are used up when its step ends; the bytes they brought are dropped. -/
def State.endRemote (s : State) (unit : Nat) : State :=
  let gone := s.gml.outstanding.filter (fun x => x.unit == unit && x.status != 0)
  { s with gml := { s.gml with
      outstanding := s.gml.outstanding.filter (fun x => !(x.unit == unit && x.status != 0))
      remote := s.gml.remote.filter (fun c => !gone.any (fun x => decide (x.addr ≤ c.1) && decide (c.1 < x.addr + x.len))) } }

/-- Split a run of bytes into transactions at 4 KiB boundaries. -/
def pageRuns : Nat → Nat → Nat → List (Nat × Nat)
  | 0, _, _ => []
  | fuel + 1, a, len =>
    if len = 0 then []
    else
      let n := min len (4096 - a % 4096)
      (a, n) :: pageRuns fuel (a + n) (len - n)

/-- Judge transactions in order up to the first that is not served: its error and address. -/
def State.judgeRuns (s : State) (c : Issuer) (write : Bool) : List (Nat × Nat) → State × Option (AccErr × Nat)
  | [] => (s, none)
  | (a, n) :: t =>
    let (s, e) := s.judge c a n write
    match e with
    | some e => (s, some (e, a))
    | none => s.judgeRuns c write t

/-- Judge a run of bytes of any length. -/
def State.judgeRun (s : State) (c : Issuer) (a len : Nat) (write : Bool) : State × Option (AccErr × Nat) :=
  if isRemote a then
    let q := s.remoteRun c a len write []
    (q.1, q.2.map (fun e => (e, a)))
  else s.judgeRuns c write (pageRuns (len / 4096 + 2) a len)

/-! ### Weight cache (R322 to R324) -/

/-- Ways in service. -/
def State.wcWays (s : State) : Nat := s.fld Reg.MC_WC_STATUS F.MC_WC_STATUS.WAYS

/-- The 256-byte lines of a run of LPDDR5X bytes. -/
def wcLinesOf (a len : Nat) : List Nat :=
  if len = 0 then [] else (List.range ((a + len - 1) / 256 - a / 256 + 1)).map (fun i => (a / 256 + i) * 256)

/-- Place a fetched line: the least recently used line of its set leaves when the set's ways are full. -/
def wcPlace (ways : Nat) (lines : List Nat) (l : Nat) : List Nat :=
  let set := l / 256 % 8192
  let kept := lines.filter (· != l)
  let mates := kept.filter (fun x => x / 256 % 8192 == set)
  let kept := if decide (ways ≤ mates.length) then
      match mates.getLast? with
      | some v => kept.filter (· != v)
      | none => kept
    else kept
  if ways = 0 then kept else l :: kept

/-- A read of LPDDR5X passes the cache: hits and misses are counted, a tile's fetch allocates (R322). -/
def State.wcRead (s : State) (a len : Nat) (allocate : Bool) : State :=
  if !inRange a addrLp 0x1000000000 then s
  else
    (wcLinesOf a len).foldl (fun s l =>
      if s.mm.wcLines.contains l then
        { s.addCnt (Reg.MC_WC_CNT 0) 1 with mm := { s.mm with wcLines := l :: s.mm.wcLines.filter (· != l) } }
      else
        let s := s.addCnt (Reg.MC_WC_CNT 1) 1
        if allocate && !s.mm.wcPending.contains l then { s with mm := { s.mm with wcPending := s.mm.wcPending ++ [l] } } else s) s

/-- A write to LPDDR5X, or cinder entry, invalidates any cached copy before it is acknowledged (R318, R323). -/
def State.wcInvalidate (s : State) (a len : Nat) : State :=
  let hit := s.mm.wcLines.filter (fun l => overlap l 256 a len)
  { s.addCnt (Reg.MC_WC_CNT 2) hit.length with mm := { s.mm with wcLines := s.mm.wcLines.filter (fun l => !overlap l 256 a len) } }

/-! ### Writing -/

/-- Remove a range from a list of ranges. -/
def rangeCut (a e : Nat) (l : List (Nat × Nat)) : List (Nat × Nat) :=
  l.flatMap (fun r => (if r.1 < min r.2 a then [(r.1, min r.2 a)] else []) ++ (if max r.1 e < r.2 then [(max r.1 e, r.2)] else []))

/-- Sub-blocks of 64 bytes of which a run writes only a part, and which are not zero-coded (R339). -/
def partialBlocks (zc : List (Nat × Nat)) (a len : Nat) : List Nat :=
  if len = 0 then []
  else
    (((if a % 64 ≠ 0 then [a / 64] else []) ++ (if (a + len) % 64 ≠ 0 then [(a + len) / 64] else [])).eraseDups).filter (fun b =>
      !zc.any (fun r => decide (r.1 ≤ b * 64) && decide (b * 64 + 64 ≤ r.2)))

/-- A write of another initiator to a reserved address of a local memory ends the reservation (A extension of RISC-V, PRESUMED,
log entry 39). -/
def State.breakResv (s : State) (a len : Nat) : State :=
  if inRange a addrLocal 0x100000 then
    { s with cores := s.cores.mapIdx (fun n c =>
        match c.resv with
        | some o => if overlap (addrLocal + n * 0x40000 + o) 4 a len then { c with resv := none } else c
        | none => c) }
  else s

/-- Write bytes that have passed their checks: LPDDR5X writes invalidate cached copies and count their
read-modify-writes. -/
def State.write (s : State) (a : Nat) (bs : List Byte) : State :=
  if isRemote a then s
  else
  let s := (s.store a bs).breakResv a bs.length
  if !inRange a addrLp 0x1000000000 then s
  else
    let s := s.wcInvalidate a bs.length
    let s := (partialBlocks s.mm.zeroCoded a bs.length).foldl (fun s b => s.addCnt (Reg.MC_CNT (s.mcOf (b * 64 - addrLp)) 2) 1) s
    { s with mm := { s.mm with zeroCoded := rangeCut (a / 64 * 64) ((a + bs.length + 63) / 64 * 64) s.mm.zeroCoded } }

/-- Put a list of writes, each an address and its bytes. -/
def State.writes (s : State) (ws : List (Nat × List Byte)) : State := ws.foldl (fun s w => s.write w.1 w.2) s

/-- Judge every write of a list. -/
def State.judgeWrites (s : State) (c : Issuer) (ws : List (Nat × List Byte)) : State × Option (AccErr × Nat) :=
  ws.foldl (fun p w =>
    match p.2 with
    | some _ => p
    | none =>
      if isRemote w.1 then
        let q := p.1.remoteRun c w.1 w.2.length true w.2
        (q.1, q.2.map (fun e => (e, w.1)))
      else p.1.judgeRun c w.1 w.2.length true) (s, none)

/-- Judge every read of a list of runs, and pass them through the cache. -/
def State.judgeReads (s : State) (c : Issuer) (rs : List (Nat × Nat)) (allocate : Bool) : State × Option (AccErr × Nat) :=
  rs.foldl (fun p r =>
    match p.2 with
    | some _ => p
    | none =>
      let q := p.1.judgeRun c r.1 r.2 false
      match q.2 with
      | some _ => q
      | none => (q.1.wcRead r.1 r.2 allocate, none)) (s, none)

end Sys2Proof.Machine
end

