-- ==== Sys2Proof/Machine/CvuOps.lean ====
section
/-! DEFINITION. The Check-Value Units (R382 to R387): owners, arming, the delivery of a tap stream, and the end of a job. -/

namespace Sys2Proof.Machine

open Sys2Proof

/-- A Check-Value Unit. -/
def State.cvu (s : State) (n : Nat) : CvuSt := s.cvus.getD n CvuSt.idle

/-- Change a Check-Value Unit. -/
def State.modCvu (s : State) (n : Nat) (f : CvuSt → CvuSt) : State :=
  { s with cvus := s.cvus.mapIdx (fun i c => if i == n then f c else c) }

/-- CVUn_STATUS.STATE. -/
def State.cvuState (s : State) (n : Nat) : Nat := s.fld (Reg.CVU_STATUS n) F.CVU_STATUS.STATE

/-- Its owner by R383: the layer that names it, else the Safety Island. -/
def State.cvuOwner (s : State) (n : Nat) : Nat :=
  match s.scene.layers.find? (fun l => !l.outgoing && maskNames l.rc.unitMask (0x0A00 + n)) with
  | some l => l.rc.partition
  | none =>
    match s.scene.layers.find? (fun l => maskNames l.rc.unitMask (0x0A00 + n)) with
    | some l => l.rc.partition
    | none => 1

/-- A job ends: its result code, and the event it sets. -/
def State.cvuEnd (s : State) (n result : Nat) : State :=
  let a := Reg.CVU_STATUS n
  let s := (s.setFld a F.CVU_STATUS.STATE 0).setFld a F.CVU_STATUS.RESULT result
  let s := match result with
    | 1 | 5 => s.event (Reg.CVU_EVENT n) F.CVU_EVENT.MISMATCH
    | 3 => s.event (Reg.CVU_EVENT n) F.CVU_EVENT.ERROR
    | 4 => s.event (Reg.CVU_EVENT n) F.CVU_EVENT.ABORTED
    | _ => s
  s.modCvu n (fun c => { c with unit := none, bytes := none, check := 0xFFFF })

/-- A running or armed job is aborted. -/
def State.cvuAbort (s : State) (n : Nat) : State := if s.cvuState n == 0 then s else s.cvuEnd n 4

/-- Reset a unit that changes owner (R383). -/
def State.cvuReset (s : State) (n owner : Nat) : State :=
  let s := s.cvuAbort n
  let s := [Reg.CVU_CTRL n, Reg.CVU_ADDR_LO n, Reg.CVU_ADDR_HI n, Reg.CVU_LENGTH n, Reg.CVU_TAP n, Reg.CVU_EXPECTED n, Reg.CVU_STATUS n,
    Reg.CVU_RESULT n, Reg.CVU_BYTES n, Reg.CVU_EVENT n].foldl (fun s a => s.setReg a 0) s
  (s.modCvu n (fun _ => CvuSt.idle)).setFld (Reg.CVU_STATUS n) F.CVU_STATUS.OWNER owner

/-- Every unit whose owner has changed is reset. -/
def State.syncCvus (s : State) : State :=
  (List.range 8).foldl (fun s n =>
    let o := s.cvuOwner n
    if s.fld (Reg.CVU_STATUS n) F.CVU_STATUS.OWNER == o then s else s.cvuReset n o) s

/-- The unit on which a tap is armed by some Check-Value Unit. -/
def State.tapOn (s : State) (unit : Nat) : Option Nat :=
  (List.range 8).find? (fun n => s.cvuState n == 2 && (s.cvu n).unit == some unit)

/-- Arm a tap on a unit; a second tap on a unit is refused (R385). -/
def State.armTap (s : State) (n unit : Nat) : State :=
  if (List.range 8).any (fun m => m != n && decide (2 ≤ s.cvuState m) && (s.cvu m).unit == some unit) then
    (s.setFld (Reg.CVU_STATUS n) F.CVU_STATUS.RESULT 6).event (Reg.CVU_EVENT n) F.CVU_EVENT.REFUSED
  else (s.setFld (Reg.CVU_STATUS n) F.CVU_STATUS.STATE 2).modCvu n (fun c => { c with unit := some unit, bytes := none })

/-- The step counts for an armed tap: any step, or with MATCH_NODE a step of NODE_SLOT, which for the Safety Island
is a step dispatched with Domain ID 1 and that job index (R385, R404). -/
def State.tapCounts (s : State) (n domain slot : Nat) : Bool :=
  let c := Reg.CVU_CTRL n
  !s.flag c F.CVU_CTRL.MATCH_NODE
    || (s.fld (Reg.CVU_TAP n) F.CVU_TAP.NODE_SLOT == slot
        && (s.fld (Reg.CVU_STATUS n) F.CVU_STATUS.OWNER != 1 || domain == 1))

/-- A unit delivers its tap stream: the first LENGTH bytes reach the tap armed on it. -/
def State.tapStream (s : State) (unit domain slot : Nat) (bytes : List Byte) : State :=
  match s.tapOn unit with
  | none => s
  | some n =>
    if s.tapCounts n domain slot then
      (s.setFld (Reg.CVU_STATUS n) F.CVU_STATUS.STATE 3).modCvu n (fun c => { c with bytes := some (bytes.take (s.reg (Reg.CVU_LENGTH n)).toNat) })
    else s

/-- The step of a tapped unit is cancelled or faults, or the unit is fenced: its armed tap ends ABORTED (R385). -/
def State.tapAbort (s : State) (unit domain slot : Nat) : State :=
  match s.tapOn unit with
  | none => s
  | some n => if s.tapCounts n domain slot then s.cvuEnd n 4 else s

/-- Take a job's bytes into the CRC and leave result, internal register and byte count (R382). -/
def State.cvuCompute (s : State) (n : Nat) (bytes : List Byte) : State :=
  let c := Reg.CVU_CTRL n
  let poly := s.fld c F.CVU_CTRL.POLY
  let start := if s.flag c F.CVU_CTRL.CHAIN then ((s.cvu n).inner).getD (crcInit poly) else crcInit poly
  let run := crcRun poly start bytes
  let s := (s.setReg (Reg.CVU_RESULT n) (w32 (crcFinal poly run))).setReg (Reg.CVU_BYTES n) (w32 bytes.length)
  s.modCvu n (fun x => { x with inner := some run })

/-- A job whose bytes are complete ends: SHORT, NO_COMPARE, MATCH or MISMATCH (R385, R386). A mismatch is journaled and
is a doubt for an owner of Domain ID 1 to 7. -/
def State.cvuJudge (s : State) (n : Nat) (short : Bool) : State :=
  let exp := s.reg (Reg.CVU_EXPECTED n)
  let res := s.reg (Reg.CVU_RESULT n)
  let owner := s.fld (Reg.CVU_STATUS n) F.CVU_STATUS.OWNER
  if !s.flag (Reg.CVU_CTRL n) F.CVU_CTRL.COMPARE then s.cvuEnd n (if short then 5 else 2)
  else if !short && exp == res then s.cvuEnd n 0
  else
    let check := (s.cvu n).check
    let unit := match (s.cvu n).unit with
      | some u => u
      | none => 0
    let s := (s.cvuEnd n (if short then 5 else 1)).log (0x0A00 + n) 0x0705 1 owner 0xFF res.toNat exp.toNat (check * 65536 + unit)
    if decide (1 ≤ owner) && decide (owner ≤ 7) then s.doubt 6 (0x0A00 + n) owner 0 else s

end Sys2Proof.Machine
end

