-- ==== Sys2Proof/Machine/IcuOps.lean ====
section
/-! DEFINITION. The interrupt controller's shared operations (R373 to R376, R379): lines, pending and active sources,
offers. -/

namespace Sys2Proof.Machine

open Sys2Proof

/-- Some bit of an event register is set whose enable is set. -/
def State.anyEnabled (s : State) (ev en : Nat) : Bool := (s.reg ev &&& s.reg en) != 0

/-- Some bit of an event register is set. -/
def State.anySet (s : State) (ev : Nat) : Bool := s.reg ev != 0

/-- The line of a hardware source is high (table "Interrupt sources" and the chapters that list the sources 0x070 to 0x0FF). -/
def State.lineHigh (s : State) (m : Nat) : Bool :=
  if m < 0x004 then s.flag (Reg.FGS_PC_DISP0 m) F.FGS_PC_DISP0.VALID
  else if m < 0x008 then s.flag (Reg.SYS_PC_ABORT (m - 0x004)) F.SYS_PC_ABORT.VALID
  else if m == 0x008 then s.anyEnabled Reg.FGS_EVENT Reg.FGS_EVENT_EN
  else if decide (0x010 ≤ m) && decide (m < 0x014) then s.anySet (Reg.ISP_ERR (m - 0x010))
  else if decide (0x018 ≤ m) && decide (m < 0x01C) then s.anySet (Reg.CFE_PORT_ERR (m - 0x018))
  else if decide (0x020 ≤ m) && decide (m < 0x024) then s.anyEnabled (Reg.WRP_ERR (m - 0x020)) (Reg.WRP_ERR_EN (m - 0x020))
  else if decide (0x024 ≤ m) && decide (m < 0x028) then s.anyEnabled (Reg.PYR_ERR (m - 0x024)) (Reg.PYR_ERR_EN (m - 0x024))
  else if decide (0x028 ≤ m) && decide (m < 0x02C) then s.anyEnabled (Reg.STR_ERR (m - 0x028)) (Reg.STR_ERR_EN (m - 0x028))
  else if decide (0x02C ≤ m) && decide (m < 0x030) then s.anyEnabled (Reg.FLW_ERR (m - 0x02C)) (Reg.FLW_ERR_EN (m - 0x02C))
  else if decide (0x030 ≤ m) && decide (m < 0x034) then s.anyEnabled (Reg.FTR_ERR (m - 0x030)) (Reg.FTR_ERR_EN (m - 0x030))
  else if decide (0x040 ≤ m) && decide (m < 0x050) then s.anyEnabled (Reg.NT_ERR (m - 0x040)) (Reg.NT_ERR_EN (m - 0x040))
  else if m == 0x050 then s.anyEnabled Reg.MC_FS_EVENT Reg.MC_FS_EVENT_EN
  else if decide (0x051 ≤ m) && decide (m < 0x055) then s.anySet (Reg.MC_ECC_EVENT (m - 0x051))
  else if decide (0x058 ≤ m) && decide (m < 0x060) then s.anyEnabled (Reg.BM_ERR (m - 0x058)) (Reg.BM_ERR_EN (m - 0x058))
  else if decide (0x060 ≤ m) && decide (m < 0x068) then s.anySet (Reg.CVU_EVENT (m - 0x060))
  else if m == 0x068 then s.anySet Reg.TL_EVENT
  else if m == 0x069 then s.anySet Reg.EJ_EVENT
  else if decide (0x070 ≤ m) && decide (m < 0x072) then s.anySet (Reg.ETH_ERR (m - 0x070))
  else if decide (0x072 ≤ m) && decide (m < 0x074) then s.anySet (Reg.CAN_ERR (m - 0x072))
  else if m == 0x074 then s.fld Reg.OF_RESULT F.OF_RESULT.RESULT != 0
  else if m == 0x075 then s.anyEnabled Reg.GPIO_EVENT Reg.GPIO_EVENT_EN
  else if decide (0x080 ≤ m) && decide (m < 0x083) then s.anySet (Reg.GML_ERR (m - 0x080))
  else if m == 0x083 then s.anyEnabled Reg.GML_EVENT Reg.GML_EVENT_EN
  else if m == 0x0A0 then s.anyEnabled Reg.SI_EVENT Reg.SI_EVENT_EN
  else if m == 0x0B0 then s.anyEnabled Reg.PMU_EVENT Reg.PMU_EVENT_EN
  else false

/-- A software source. -/
def isSoftware (m : Nat) : Bool := decide (0x100 ≤ m) && decide (m ≤ 0x1FE)

/-- A source is pending. -/
def State.srcPending (s : State) (m : Nat) : Bool := s.flag (Reg.ICU_PEND (m / 32)) ⟨m % 32, m % 32⟩

/-- A source is active. -/
def State.srcActive (s : State) (m : Nat) : Bool := s.flag (Reg.ICU_ACT (m / 32)) ⟨m % 32, m % 32⟩

/-- Set or clear a source's pending state. -/
def State.setPending (s : State) (m : Nat) (v : Bool) : State := s.setFlag (Reg.ICU_PEND (m / 32)) ⟨m % 32, m % 32⟩ v

/-- Set or clear a source's active state. -/
def State.setActive (s : State) (m : Nat) (v : Bool) : State := s.setFlag (Reg.ICU_ACT (m / 32)) ⟨m % 32, m % 32⟩ v

/-- A source's priority. -/
def State.srcPrio (s : State) (m : Nat) : Nat := s.fld (Reg.ICU_SRC_CFG m) F.ICU_SRC_CFG.PRIORITY

/-- A target is among a source's TARGETS. -/
def State.srcTargets (s : State) (m t : Nat) : Bool := (s.fld (Reg.ICU_SRC_CFG m) F.ICU_SRC_CFG.TARGETS).testBit t

/-- Forget a source's present offer. -/
def State.dropOffer (s : State) (m : Nat) : State := { s with icu := { s.icu with offers := s.icu.offers.filter (fun o => o.1 != m) } }

/-- Make an offer to a target. -/
def State.putOffer (s : State) (m t : Nat) (pinned : Bool) : State :=
  { s with icu := { s.icu with offers := s.icu.offers.filter (fun o => o.1 != m) ++ [(m, t, pinned)] } }

/-- A source completes on a target (R379): it stops being active, a line that is still high makes it pending again, and a
source that is then pending is offered first to that target. -/
def State.completeSource (s : State) (m t : Nat) : State :=
  let s := s.setActive m false
  let s := if s.lineHigh m then s.setPending m true else s
  if s.srcPending m then s.putOffer m t true else s.dropOffer m

end Sys2Proof.Machine
end

