-- ==== Sys2Proof/Machine/MaintDefs.lean ====
section
/-! DEFINITION. The activities of the maintenance arbiter by number, and the resources each holds (R408, R443). -/

namespace Sys2Proof.Machine

open Sys2Proof

/-- Class of an activity: 1 self-test slice, 2 scrub, 3 retraining or ZQ, 4 sensor calibration, 5 journal flush. The number's
[15:12] is the class, and for class 1 [11:8] is the checker (the model's own numbering, log entry 33). -/
def actClass (a : Nat) : Nat := a / 4096

/-- The checker and unit of a class 1 activity. -/
def actTest (a : Nat) : Nat × Nat :=
  let c := a / 256 % 16
  let l := a % 256
  (c, match c with
      | 0 | 1 => 0x0800 + l
      | 2 => (l / 16) * 256 + l % 16
      | 3 => 0x0200 + l
      | 4 => 0x0100 + l
      | 5 => 0x0E00 + 4 * l
      | 6 => 0x0C00 + l
      | 7 => 0x0B00 + l
      | 8 => 0x1C00 + l
      | 9 => 0x0A00 + l
      | 10 => 0x0D00 + l
      | _ => 0x1200)

/-- The activity that tests a checker's instance. -/
def testAct (checker unit : Nat) : Nat :=
  0x1000 + checker * 256 + (match checker with
    | 2 => unit / 256 % 16 * 16 + unit % 16
    | 5 => unit % 256 / 4
    | 11 => 0
    | _ => unit % 256)

/-- Length of a checker's slice in ns (table "Checker self-tests"). -/
def sliceNs (checker : Nat) : Nat := ([6000, 3000, 2000, 1000, 4000, 1000, 2000, 1000, 500, 1000, 2000, 10000] : List Nat).getD checker 1000

/-- Length of an activity in ns (table "Maintenance activities"). -/
def actNs (a : Nat) : Nat :=
  match actClass a with
  | 1 => sliceNs (actTest a).1
  | 2 => 1048576
  | 3 => 800
  | 4 => 50000
  | _ => 2000

/-- Resources by number: unit codes; 0x10000 + g a Frame Store bank group; 0x20000 + i a temperature sensor; 0x20010 the other
monitors. -/
def groupRes (g : Nat) : Nat := 0x10000 + g
def sensorRes (i : Nat) : Nat := 0x20000 + i

/-- What an activity holds (table "Maintenance activities"). -/
def actRes (a : Nat) : List Nat :=
  let l := a % 256
  match actClass a with
  | 1 =>
    match (actTest a).1 with
    | 5 => [groupRes l]
    | 8 => []
    | 11 => (List.range 17).map sensorRes
    | _ => [(actTest a).2]
  | 2 => [groupRes l]
  | 3 => [0x0C00 + l]
  | 4 => [sensorRes l]
  | 5 => [0x0C00 + l]
  | _ => []

/-- Two activities need a resource in common. -/
def actClash (a b : Nat) : Bool := (actRes a).any (actRes b).contains

/-- The resources that go with a unit. -/
def unitRes (code : Nat) : List Nat := if code / 256 == 0x0E then [code, groupRes (code % 256 / 4)] else [code]

/-- Show the arbiter in PMU_MAINT. -/
def State.showMaint (s : State) : State :=
  let run := (List.range 5).foldl (fun m c => m + (if s.maint.running.any (fun r => actClass r.1 == c + 1) then 2 ^ c else 0)) 0
  (s.setFld Reg.PMU_MAINT F.PMU_MAINT.QUEUED (min 255 s.maint.queue.length)).setFld Reg.PMU_MAINT F.PMU_MAINT.RUNNING run

/-- A fence ends activities on the unit and drops their requests (R444). -/
def State.dropMaint (s : State) (code : Nat) : State :=
  let hit (a : Nat) : Bool := (unitRes code).any (actRes a).contains
  let m : Maint := { s.maint with
    queue := s.maint.queue.filter (fun q => !hit q.act)
    running := s.maint.running.filter (fun r => !hit r.1) }
  ({ s with maint := m }).showMaint

end Sys2Proof.Machine
end

