-- ==== Sys2Proof/Machine/OutOps.lean ====
section
/-! DEFINITION. Messages that leave the device (R34, R473 to R481) and the output selector (R415 to R417): the
VEHICLE_INPUTS records, envelopes, transmit queues, hand-over, and the choice of source. -/

namespace Sys2Proof.Machine

open Sys2Proof

/-! ### The VEHICLE_INPUTS section (R473) -/

/-- The section's bytes in the image in force. -/
def State.vin (s : State) : List Byte := s.flash.secBytes s.imgRegion 0x0F 0

/-- A little-endian field of the network header. -/
def State.vinLe (s : State) (off n : Nat) : Nat := leAt s.vin off n

/-- Consecutive bytes of the section. -/
def State.vinBytes (s : State) (off n : Nat) : List Byte := (s.vin.drop off).take n

/-- ETH_MODE of a port. -/
def State.ethMode (s : State) (mac : Nat) : Nat := s.vinLe 5 1 / 4 ^ mac % 4

/-- MAC address of a port. -/
def State.macAddr (s : State) (mac : Nat) : List Byte := s.vinBytes (8 + 6 * mac) 6

/-- IPv4 address of a port. -/
def State.ipAddr (s : State) (mac : Nat) : List Byte := s.vinBytes (0x14 + 4 * mac) 4

/-- VID of a port. -/
def State.vid (s : State) (mac : Nat) : Nat := s.vinLe 0x1C 4 / 65536 ^ mac % 4096

/-- Numbers of vehicle-state, output and key records. -/
def State.vsCount (s : State) : Nat := s.vinLe 2 1
def State.outCount (s : State) : Nat := s.vinLe 3 1
def State.keyCount (s : State) : Nat := s.vinLe 4 1

/-- GPIO record. -/
structure GpioRec where
  function : Nat
  owner : Nat
  filter : Nat
  levels : Nat
  deriving DecidableEq, Repr

/-- The record of a GPIO. -/
def State.gpioRec (s : State) (n : Nat) : GpioRec :=
  let b := s.vinBytes (0x40 + 4 * n) 4
  ⟨leAt b 0 1, leAt b 1 1, leAt b 2 1, leAt b 3 1⟩

/-- Vehicle-state record. -/
structure VsRec where
  can : Nat
  flags : Nat
  timeoutMs : Nat
  id : Nat
  byte : Nat
  bit : Nat
  width : Nat
  e2eByte : Nat
  deriving DecidableEq, Repr

/-- The vehicle-state record of an index. -/
def State.vsRec (s : State) (i : Nat) : VsRec :=
  let b := s.vinBytes (0xC0 + 16 * i) 16
  ⟨leAt b 0 1, leAt b 1 1, leAt b 2 2, leAt b 4 4, leAt b 8 1, leAt b 9 1, leAt b 10 1, leAt b 11 1⟩

/-- Output-stream record. -/
structure OutRec where
  index : Nat
  type : Nat
  layer : Nat
  ports : Nat
  priority : Nat
  maxLen : Nat
  destIp : List Byte
  destUdp : Nat
  destMac : List Byte
  canId : Nat
  canExt : Bool
  canType8 : Nat
  deriving DecidableEq, Repr

/-- The output-stream record of an index. -/
def State.outRec? (s : State) (i : Nat) : Option OutRec :=
  if decide (s.outCount ≤ i) then none
  else
    let b := s.vinBytes (0xC0 + 16 * s.vsCount + 32 * i) 32
    let id := leAt b 0x14 4
    some { index := i, type := leAt b 0 2, layer := leAt b 2 2, ports := leAt b 4 1, priority := leAt b 5 1, maxLen := leAt b 6 2,
           destIp := (b.drop 8).take 4, destUdp := beNat ((b.drop 12).take 2), destMac := (b.drop 14).take 6,
           canId := id % 2 ^ 29, canExt := decide (2 ^ 31 ≤ id), canType8 := leAt b 0x18 1 }

/-- The output streams. -/
def State.outRecs (s : State) : List OutRec := (List.range 64).filterMap s.outRec?

/-- The key records: digests of the service tools' public keys. -/
def State.keyRecs (s : State) : List (List Byte) :=
  (List.range s.keyCount).map (fun i => s.vinBytes (0xC0 + 16 * s.vsCount + 32 * s.outCount + 32 * i) 32)

/-! ### Transmit queues (R476, R479) -/

/-- Put a frame into its port's queue. A full queue, or a port without link, discards the message (R476). -/
def State.queueEth (s : State) (mac : Nat) (t : EthTx) : State :=
  let q := s.io.eth.getD mac []
  if !s.flag (Reg.ETH_STATUS mac) F.ETH_STATUS.LINK || decide (64 ≤ (q.filter (fun x => x.prio == t.prio)).length) then
    (s.addCnt (Reg.ETH_CNT mac 4) 1).event (Reg.ETH_ERR mac) F.ETH_ERR.TX_DROP
  else { s with io := { s.io with eth := s.io.eth.mapIdx (fun i x => if i == mac then x ++ [t] else x) } }

/-- Put a frame into the stream's buffer of a CAN controller; a newer message replaces an unsent one (R479). -/
def State.queueCan (s : State) (can : Nat) (t : CanTx) : State :=
  let q := s.io.can.getD can []
  let s := if q.any (fun x => x.out == t.out) then s.event (Reg.CAN_ERR can) F.CAN_ERR.TX_DROP else s
  { s with io := { s.io with can := s.io.can.mapIdx (fun i x => if i == can then x.filter (fun y => y.out != t.out) ++ [t] else x) } }

/-! ### Envelopes (R477, R478) -/

/-- What the Output Framer needs to build a message. -/
structure Payload where
  source : Nat
  partition : Nat
  stream : Nat
  flagged : Bool
  late : Bool
  ts : Nat
  frameSeq : Word
  bytes : List Byte
  deriving DecidableEq, Repr

/-- Output Envelope: header, payload, CRC-32C (R477). -/
def envelope (type seq device : Nat) (synced : Bool) (p : Payload) : List Byte :=
  let b := leBytes 2 type ++ [1] ++ leBytes 1 p.source ++ leBytes 1 (p.partition % 16 + device % 4 * 16) ++ leBytes 1 p.stream
    ++ leBytes 2 (bit p.flagged + 2 * bit p.late + 4 * bit synced) ++ leBytes 4 seq ++ leBytes 4 p.bytes.length
    ++ leBytes 8 p.ts ++ leBytes 4 p.frameSeq.toNat ++ leBytes 4 0 ++ p.bytes
  b ++ leBytes 4 (crc32c b)

/-- Data length of a CAN FD frame that holds n bytes (R478). -/
def canLength (n : Nat) : Nat := ([12, 16, 20, 24, 32, 48, 64].find? (fun l => decide (n ≤ l))).getD 64

/-- Data field of a CAN FD frame: Compact Envelope (R478). -/
def compactEnvelope (type8 seq : Nat) (synced : Bool) (p : Payload) : List Byte :=
  let head := leBytes 1 type8 ++ leBytes 1 (bit (p.source == 1) + 2 * bit p.flagged + 4 * bit p.late + 8 * bit synced + p.partition % 16 * 16)
    ++ leBytes 2 seq ++ leBytes 4 (p.ts / 1000)
  let b := head ++ p.bytes
  let b := b ++ List.replicate (canLength (12 + p.bytes.length) - 4 - b.length) 0
  b ++ leBytes 4 (crc32c b)

/-- Timeline LOCKED. -/
def State.locked (s : State) : Bool := s.fld Reg.TL_STATUS F.TL_STATUS.STATE == 2

/-- The Output Framer is enabled (R44, R397, R480). -/
def State.ofEnabled (s : State) : Bool := s.flag Reg.OF_RESULT F.OF_RESULT.ENABLED

/-- Hand a payload over: take the stream's next SEQUENCE, build the envelopes and queue them (R481). -/
def State.handOver (s : State) (r : OutRec) (p : Payload) : State :=
  if !s.ofEnabled then s
  else
    let seq := s.io.outSeq.getD r.index 0
    let dev := s.fld Reg.GML_SYS F.GML_SYS.DEVICE
    let env := envelope r.type seq.toNat dev s.locked p
    let frame : EthTx := { kind := 0, prio := r.priority, dmac := r.destMac, dip := r.destIp, dport := r.destUdp, sport := r.destUdp, payload := env }
    let data := compactEnvelope r.canType8 seq.toNat s.locked p
    let s := { s with io := { s.io with outSeq := s.io.outSeq.mapIdx (fun i x => if i == r.index then x + 1 else x) } }
    let s := [0, 1].foldl (fun s m => if r.ports / 2 ^ m % 2 == 1 then s.queueEth m frame else s) s
    [0, 1].foldl (fun s c => if r.ports / 2 ^ (2 + c) % 2 == 1 then s.queueCan c ⟨r.index, r.canId, r.canExt, data⟩ else s) s

/-! ### The output selector (R415 to R417) -/

/-- Change the selector. -/
def State.modSel (s : State) (f : Selector → Selector) : State := { s with safety := { s.safety with sel := f s.safety.sel } }

/-- The Ember path is the selected source. -/
def State.emberSelected (s : State) : Bool := s.flag Reg.SI_STATUS F.SI_STATUS.SOURCE

/-- The Primary Output's stream: the record of TYPE 0x0001. -/
def State.primaryOut? (s : State) : Option OutRec := s.outRecs.find? (fun r => r.type == 1)

/-- SELECTOR_SWITCH, written with the first message of the new source (R425). -/
def State.announce (s : State) (seq : Word) : State :=
  match s.safety.sel.announce with
  | none => s
  | some why =>
    (s.log 0x1200 0x0703 0 0 0xFF (bit s.emberSelected) why seq.toNat).modSel (fun x => { x with announce := none })

/-- Change the source; its record waits for the first message from it. -/
def State.switchSource (s : State) (ember : Bool) (why : Nat) : State :=
  let s := if ember then s else s.setFlag Reg.SYS_SCENE_STATUS F.SYS_SCENE_STATUS.EMBER_HANDOVER false
  ((s.setFlag Reg.SI_STATUS F.SI_STATUS.SOURCE ember).event Reg.SI_EVENT F.SI_EVENT.SWITCH).modSel (fun x => { x with announce := some why })

/-- Return to the primary source when both counts are met (R417). -/
def State.tryReturn (s : State) : State :=
  let sel := s.safety.sel
  if s.emberSelected && !sel.waitOpen && !sel.coverNext && s.fld Reg.SI_SELECT F.SI_SELECT.HOLDOFF_LEFT == 0
      && decide (s.emb 0x2A 2 ≤ s.fld Reg.SI_SELECT F.SI_SELECT.CLEAN) then s.switchSource false 2
  else s

/-- Hand an Ember message over (R416, R423). -/
def State.handEmber (s : State) (m : EmberMsg) : State :=
  match s.primaryOut? with
  | none => s
  | some r =>
    if !s.ofEnabled then s
    else
    let fl := leAt m.bytes 3 1
    let s := s.handOver r { source := 1, partition := 2, stream := s.emb 2 1, flagged := fl / 2 % 4 != 0, late := false,
                            ts := m.ts, frameSeq := m.seq, bytes := m.bytes }
    let s := s.announce m.seq
    let sel := s.safety.sel
    let s := if sel.waitOpen || sel.coverNext then s
      else s.setFld Reg.SI_SELECT F.SI_SELECT.HOLDOFF_LEFT (s.fld Reg.SI_SELECT F.SI_SELECT.HOLDOFF_LEFT - 1)
    let s := s.modSel (fun x => { x with held := none, lastSent := some m.seq, coverNext := if x.waitOpen then x.coverNext else false })
    s.tryReturn

/-- Start the counts of R417 anew. -/
def State.restartCounts (s : State) : State :=
  let s := s.setFld Reg.SI_SELECT F.SI_SELECT.CLEAN 0
  (s.setFld Reg.SI_SELECT F.SI_SELECT.HOLDOFF_LEFT (s.emb 0x29 1)).modSel (fun x => { x with lastOffered := none })

/-- Select the Ember path on a doubt (1) or at the acceptance of a base-layer change (3): a held message newer than the
last one sent goes out at once (R416). -/
def State.selectEmber (s : State) (why : Nat) : State :=
  let s := if s.emberSelected then s else s.switchSource true why
  let s := s.restartCounts.modSel (fun x => { x with coverNext := true, waitOpen := x.waitOpen || why == 3 })
  match s.safety.sel.held with
  | none => s
  | some m =>
    if (match s.safety.sel.lastSent with
        | some q => seqNewer m.seq q
        | none => true) then s.handEmber m
    else s

/-- The counts start at OPEN or READY (R417). -/
def State.startCounts (s : State) : State :=
  s.restartCounts.modSel (fun x => { x with coverNext := false, waitOpen := false })

/-- A primary payload is offered to the selector (R416, R417, R481). -/
def State.offerPrimary (s : State) (r : OutRec) (p : Payload) : State :=
  let sel := s.safety.sel
  let clean := !p.late && !p.flagged && (match sel.lastOffered with
    | some q => p.frameSeq == q + 1
    | none => true)
  let s := if sel.waitOpen then s
    else if clean then s.addFld Reg.SI_SELECT F.SI_SELECT.CLEAN 1
    else s.setFld Reg.SI_SELECT F.SI_SELECT.CLEAN 0
  let s := s.modSel (fun x => { x with lastOffered := if x.waitOpen then x.lastOffered else some p.frameSeq })
  let s := s.tryReturn
  if s.emberSelected || !s.ofEnabled then s
  else ((s.handOver r p).announce p.frameSeq).modSel (fun x => { x with lastSent := some p.frameSeq })

end Sys2Proof.Machine
end

