-- ==== Sys2Proof/Machine/SceneOps.lean ====
section
/-! DEFINITION. Scenes at run time: what a layer names, which scene fits, triggers, the phases of a switch (R76 to R88),
fences and what follows from them (R342, R430, R431), power domains, and the sets of covered and tested units. -/

namespace Sys2Proof.Machine

open Sys2Proof

/-! ### The scene master and sources -/

/-- The scene master: the lowest-numbered Policy Core pair that is not fenced (R79). -/
def State.sceneMaster (s : State) : Nat :=
  ((List.range 4).find? (fun n => !(s.unit (0x0B00 + n)).fenced && !(s.core n).halted)).getD 0

/-- Journal SOURCE of the scene master. -/
def State.srcMaster (s : State) : Nat := 0x0B00 + s.sceneMaster

/-- READY or READY_BANKED. -/
def State.running (s : State) : Bool :=
  let st := s.fld Reg.SYS_KIN_STATUS F.SYS_KIN_STATUS.STATE
  st == 11 || st == 12

/-! ### Power domains (R32, R431, R441, R442) -/

/-- Power domains of a unit, in the order of the table "Switched power domains"; the order of the domains within a memory
controller and within a link is the model's (DESIGN CHOICE, log entry 15). -/
def domainsOf (code : Nat) : List Nat :=
  let n := code % 256
  match code / 256 with
  | 0x01 => [72 + n]
  | 0x02 => [68 + n]
  | 0x03 => [48 + n]
  | 0x04 => [52 + n]
  | 0x05 => [56 + n]
  | 0x06 => [60 + n]
  | 0x07 => [64 + n]
  | 0x08 => [3 * n, 3 * n + 1, 3 * n + 2]
  | 0x09 => [133 + n]
  | 0x0A => [141 + n]
  | 0x0B => [128 + n]
  | 0x0C => [149 + n, 153 + n]
  | 0x0D => [157 + n, 160 + n]
  | 0x0E => [76 + n]
  | _ => []

/-- Switch a power domain (PMU_DOM_ON). -/
def State.setDomain (s : State) (on : Bool) (d : Nat) : State := s.setFlag (Reg.PMU_DOM_ON (d / 32)) ⟨d % 32, d % 32⟩ on

/-- Power domain d is in service. -/
def State.domainOn (s : State) (d : Nat) : Bool := (s.reg (Reg.PMU_DOM_ON (d / 32))).getLsbD (d % 32)

/-- Gate a unit. -/
def State.gateUnit (s : State) (code : Nat) : State :=
  ((domainsOf code).foldl (fun s d => s.setDomain false d) s).modUnit code (fun u => { u with gated := true })

/-- Ask the PMU to bring a gated unit to service (R441). -/
def State.requestPower (s : State) (code : Nat) : State :=
  let u := s.unit code
  if u.fenced || !u.gated then s
  else { s with mm := { s.mm with powerReq := (s.mm.powerReq ++ (domainsOf code).filter (fun d => !s.domainOn d)).eraseDups } }

/-- Every unit code of the classes that UNIT_MASK names. -/
def maskCodes : List Nat :=
  [(0x01, 4), (0x02, 4), (0x03, 4), (0x04, 4), (0x05, 4), (0x06, 4), (0x07, 4), (0x08, 16), (0x09, 8), (0x0A, 8), (0x0B, 4)].flatMap
    (fun p => (List.range p.2).map (fun n => p.1 * 256 + n))

/-- The units that a layer's UNIT_MASK names. -/
def LayerRec.units (l : LayerRec) : List Nat := maskCodes.filter (maskNames l.unitMask)

/-! ### What a layer names (R86, R449, R513) -/

/-- The eight-byte fields of a 64-byte descriptor. -/
def wordsOf (b : List Byte) : List Nat := (List.range 8).map (fun i => leAt b (8 * i) 8)

/-- The bytes that sections loading to LPDDR5X hold at an address of it. -/
def Flash.loaded (f : Flash) (r a n : Nat) : List Byte :=
  match (f.live r).find? (fun e => loadsToLpddr e.type && decide (e.load ≤ a) && decide (a < e.load + e.size)) with
  | some e => (f.img r e.offset e.size).drop (a - e.load) |>.take n
  | none => []

/-- The sections that load to LPDDR5X and that a layer's nodes use: their step lists, the sections that a descriptor of
them, or a tensor descriptor it names, points into, and the meshes that WRP descriptors name (R513; DEDUCED, log entry 16). -/
def Flash.usedSections (f : Flash) (r : Nat) (l : LayerRec) : List SecEnt :=
  let steps := (l.nodes.filter (fun n => n.cls != 7)).filterMap (fun n => f.section? r 6 n.stepList)
  let descs := steps.flatMap (fun e => (List.range ((e.size - 16) / 64)).map (fun i => (leAt (f.img r e.offset 16) 2 1, f.img r (e.offset + 16 + 64 * i) 64)))
  let ptrs := descs.flatMap (fun d => wordsOf d.2)
  let ptrs := ptrs ++ ptrs.flatMap (fun p => wordsOf (f.loaded r p 64))
  let meshes := (descs.filter (fun d => d.1 == 0)).flatMap (fun d => [leAt d.2 8 2, leAt d.2 10 2])
  (f.live r).filter (fun e =>
    steps.any (fun x => x.pos == e.pos)
      || (loadsToLpddr e.type && ptrs.any (fun p => decide (e.load ≤ p) && decide (p < e.load + e.size)))
      || (e.type == 0x0C && meshes.contains e.index))

/-- The end of what a layer holds in LPDDR5X, as an offset (R513). -/
def Flash.lpTop (f : Flash) (r : Nat) (l : LayerRec) : Nat :=
  let rings := (l.rings.filter (fun x => x.kind == 2)).map (fun x => x.base + x.slotCount * x.slotBytes)
  let secs := (f.usedSections r l).map (fun e => e.load + e.size - addrLp)
  (rings ++ secs).foldl max 0

/-- The bank group of a ring's Frame Store bytes holds a bank pair. -/
def ringInGroup (x : RingRec) (g : Nat) : Bool := x.kind == 0 && overlap x.base (x.slotCount * x.slotBytes) (g * 0x2000000) 0x2000000

/-- A layer names a unit (R86, R449, R513). -/
def State.layerNames (s : State) (l : LayerRec) (code : Nat) : Bool :=
  let n := code % 256
  match code / 256 with
  | 0x0C => decide ((s.channels.filter (· != n)).length * s.chanBytes < s.flash.lpTop s.imgRegion l)
  | 0x0E => l.rings.any (fun x => ringInGroup x (n / 4))
  | 0x0F => isSystemLayer l.id && n != s.device && l.nodes.any (fun x => x.slot / 1024 % 4 == n)
  | _ => maskNames l.unitMask code

/-- A partner counts as fenced: lost or unreachable (R449). -/
def State.partnerGone (s : State) (e : Nat) : Bool :=
  let p := s.reg Reg.GML_PEERS
  p.getLsbD (8 + e) || p.getLsbD (16 + e)

/-! ### Fitting (R86; "Banked variants at run time") -/

/-- A layer names no fenced unit, and none of its streams is absent or lacks its port or pipe. -/
def State.layerFits (s : State) (l : LayerRec) : Bool :=
  s.units.all (fun u => !u.fenced || !s.layerNames l u.code)
    && (List.range 4).all (fun e => !(s.partnerGone e && s.layerNames l (0x0F00 + e)))
    && (s.flash.layerStreams s.imgRegion l).all (fun p => !s.kin.absentStreams.contains p.stream
        && !(s.unit (0x0100 + p.port)).fenced && !(s.unit (0x0200 + p.isp)).fenced)

/-- The layers of a scene; none when the image lacks one. -/
def State.sceneLayers? (s : State) (n : Nat) : Option (List LayerRec) :=
  match s.sceneRec? n with
  | none => none
  | some sc =>
    let ls := sc.layers.filterMap s.layerRec?
    if ls.length == sc.layers.length && !ls.isEmpty then some ls else none

/-- A scene fits. -/
def State.fits (s : State) (n : Nat) : Bool :=
  match s.sceneLayers? n with
  | some ls => ls.all s.layerFits
  | none => false

/-- The current scene. -/
def State.sceneNo (s : State) : Nat := s.fld Reg.SYS_SCENE_STATUS F.SYS_SCENE_STATUS.SCENE

/-- The full scene of a scene. -/
def State.fullOf (s : State) (n : Nat) : Nat := ((s.sceneRec? n).bind (·.bankedOf)).getD n

/-- The lowest-numbered fitting variant of a scene's full scene, the current scene aside (R86). -/
def State.variant? (s : State) (n : Nat) : Option Nat :=
  (List.range 16).find? (fun m => m != s.sceneNo && ((s.sceneRec? m).bind (·.bankedOf)) == some (s.fullOf n) && s.fits m)

/-- Where a trigger or request goes: its target, or the target's fitting variant (DESIGN CHOICE, log entry 17). -/
def State.choose (s : State) (n : Nat) : Option Nat := if s.fits n then some n else s.variant? n

/-! ### Triggers (R76, R78) -/

/-- The value a trigger compares; none when its condition is false whatever VALUE says. -/
def State.trigValue (s : State) (t : TrigRec) : Option Nat :=
  match t.kind with
  | 1 => some (bit ((s.reg Reg.GPIO_IN).getLsbD t.source))
  | 2 =>
    match s.io.vs[t.source]? with
    | some e => if e.stale then none else some e.value.toNat
    | none => none
  | 3 => some (bit (((s.adapt.rules[t.source]?).map (·.fired)).getD false))
  | 4 => some (bit (s.scene.fencedSince.contains t.source))
  | _ => none

/-- COMPARE of a trigger. -/
def compareHolds (c : Nat) (v x : Nat) : Bool :=
  match c with
  | 0 => v == x
  | 1 => v != x
  | 2 => decide (x ≤ v)
  | _ => decide (v < x)

/-- The triggers of the current scene that fire among some kinds, and from one source where it is named. -/
def State.firing (s : State) (kinds : List Nat) (source : Option Nat) : List TrigRec :=
  match s.sceneRec? s.sceneNo with
  | none => []
  | some sc =>
    let l := sc.triggers.filter (fun t => kinds.contains t.kind && (source.map (· == t.source)).getD true && t.target != s.sceneNo
      && (match s.trigValue t with
          | some v => compareHolds t.compare v t.value.toNat
          | none => false))
    l.filter (fun t => t.kind == 4) ++ l.filter (fun t => t.kind != 4)

/-- The switch that some fired triggers lead to: target and cause. -/
def State.trigTarget (s : State) (l : List TrigRec) : Option (Nat × Nat) :=
  l.findSome? (fun t =>
    let dest := if t.kind == 4 then (if s.fits t.target then some t.target else none) else s.choose t.target
    match dest with
    | some n => if n == s.sceneNo then none else some (n, t.kind)
    | none => none)

/-! ### Coverage and self-test sets (R85, R405, R408) -/

/-- Bound layers that a switch leaves alone. -/
def State.stayingLayers (s : State) : List BoundLayer := s.scene.layers.filter (fun l => l.opened && !l.outgoing)

/-- Some staying layer names a unit. -/
def State.namedNow (s : State) (code : Nat) : Bool := s.stayingLayers.any (fun l => s.layerNames l.rc code)

/-- The units to be covered: each pipe, vision engine and tile that a bound layer names. -/
def State.coverUnits (s : State) : List Nat :=
  maskCodes.filter (fun c => decide (2 ≤ c / 256) && decide (c / 256 ≤ 8) && s.namedNow c && !(s.unit c).fenced)

/-- Unit codes of the firewall checkers, one for each target of R402. -/
def fwCheckers : List Nat :=
  ((List.range 0xC0) ++ (List.range 12).map (0xC0 + ·) ++ (List.range 16).map (0xD0 + ·)
    ++ [0xE0, 0xE4, 0xE5, 0xE6, 0xE7, 0xE8, 0xEC, 0xED, 0xEE]).map (0x1C00 + ·)

/-- The checker instances of the table "Checker self-tests". -/
def State.testSet (s : State) : List (Nat × Nat) :=
  let named := maskCodes.filter (fun c => s.namedNow c && !(s.unit c).fenced)
  let cls (c : Nat) := named.filter (fun u => u / 256 == c)
  let ok (u : Nat) := !(s.unit u).fenced
  (cls 8).map (fun u => (0, u)) ++ (cls 8).map (fun u => (1, u))
    ++ (named.filter (fun u => decide (3 ≤ u / 256) && decide (u / 256 ≤ 7))).map (fun u => (2, u))
    ++ (cls 2).map (fun u => (3, u)) ++ (cls 1).map (fun u => (4, u))
    ++ ((List.range 12).filter (fun g => !s.groupOut (addrFs + g * 0x2000000))).map (fun g => (5, 0x0E00 + 4 * g))
    ++ s.channels.map (fun n => (6, 0x0C00 + n))
    ++ ((List.range 4).filter (fun n => ok (0x0B00 + n))).map (fun n => (7, 0x0B00 + n))
    ++ fwCheckers.map (fun u => (8, u))
    ++ ((List.range 8).filter (fun n => ok (0x0A00 + n))).map (fun n => (9, 0x0A00 + n))
    ++ ((List.range 3).filter (fun k => (s.linkPartner k).isSome && ok (0x0D00 + k))).map (fun k => (10, 0x0D00 + k))
    ++ [(11, 0x1200)]

/-- A unit leaves the coverage set: a job that runs on it ends. -/
def State.dropHold (s : State) (code : Nat) : State := s.modUnit code (fun u => { u with heldBy := none })

/-- Bring the coverage and self-test sets into line with the bound layers; an interval that begins now is counted from
`start`. -/
def State.syncCoverage (s : State) (start : Nat) : State :=
  let want := s.coverUnits
  let tests := s.testSet
  let gone := s.safety.cover.filter (fun c => !want.contains c.unit && c.running)
  let s := gone.foldl (fun s c => s.dropHold c.unit) s
  let gone := s.safety.selftests.filter (fun t => !tests.contains (t.checker, t.unit) && t.running)
  let s := gone.foldl (fun s t => s.dropHold t.unit) s
  let cover := want.map (fun u => (s.safety.cover.find? (fun c => c.unit == u)).getD ⟨u, start, start, 0, 0, true, false, false, none, none, 0, 0⟩)
  let st := tests.map (fun p => (s.safety.selftests.find? (fun t => t.checker == p.1 && t.unit == p.2)).getD ⟨p.1, p.2, start, 0, false, false⟩)
  { s with safety := { s.safety with cover := cover, selftests := st } }

/-! ### ACCEPT and DRAIN (R79) -/

/-- Show the phase of the switch; when phases overlap, the latest begun. -/
def State.phase (s : State) (p : Nat) : State :=
  s.setFld Reg.SYS_SCENE_STATUS F.SYS_SCENE_STATUS.PHASE (max p (s.fld Reg.SYS_SCENE_STATUS F.SYS_SCENE_STATUS.PHASE))

/-- Change the switch in progress. -/
def State.modSwitch (s : State) (f : Switch → Switch) : State := { s with scene := { s.scene with switch := s.scene.switch.map f } }

/-- Nodes of a layer. -/
def State.layerNodes (s : State) (id : Nat) : List Nat := (s.fgs.nodes.filter (fun n => n.layer == id)).map (fun n => n.rc.slot)

/-- Instances of a layer. -/
def State.layerInsts (s : State) (id : Nat) : List Inst :=
  let ns := s.layerNodes id
  s.fgs.insts.filter (fun i => ns.contains i.node)

/-- Make layers outgoing: their tokens are no longer matched, their streams stop, and their instances drain. An
instance that is done awaits its release or the drain limit. -/
def State.makeOutgoing (s : State) (ids : List Nat) : State :=
  let s := { s with
    scene := { s.scene with layers := s.scene.layers.map (fun (l : BoundLayer) => if ids.contains l.rc.id then { l with outgoing := true } else l) }
    fgs := { s.fgs with closed := (s.fgs.closed ++ ids).eraseDups } }
  let gone := s.scene.layers.filter (fun l => ids.contains l.rc.id)
  let s := (gone.flatMap (fun l => l.rc.units.filter (fun u => u / 256 == 0x0A))).foldl (fun s u => s.cvuAbort (u % 256)) s
  let streams := gone.flatMap (·.streams)
  let s := streams.foldl State.unbindStream s
  let s := { s with fgs := { s.fgs with heldBands := s.fgs.heldBands.filter (fun x => !ids.contains x.2.1) } }
  let is := (ids.flatMap s.layerInsts).filter (fun i => i.live && i.st != .done)
  let s := is.foldl (fun s i => s.cancel i.entry) s
  if ids.isEmpty then s else s.phase 2

/-- The base layers differ: the Primary Output goes to the Ember path without a doubt (R74). -/
def State.baseHandover (s : State) : State :=
  (s.setFlag Reg.SYS_SCENE_STATUS F.SYS_SCENE_STATUS.EMBER_HANDOVER true).selectEmber 3

/-- Promote streams to DUAL_HOME 1 (R469). -/
def State.promoteStreams (s : State) (ss : List Nat) : State :=
  if ss.isEmpty then s
  else
    (ss.foldl (fun s x => (s.modCam x (fun c => { c with promoted := true })).setFlag Reg.GML_TAKEN ⟨x, x⟩ true) s).event
      Reg.GML_EVENT F.GML_EVENT.TAKEOVER

/-- ACCEPT of a switch towards a scene; `strip` names the outgoing layers of a stripping (R79, R86, R469). -/
def State.accept (s : State) (target cause : Nat) (strip : Option (List Nat)) (promote : List Nat) : State :=
  let from' := s.sceneNo
  let boundIds := s.scene.layers.map (fun l => l.rc.id)
  let newIds := ((s.sceneRec? target).map (·.layers)).getD []
  let out := match strip with
    | some l => l
    | none => boundIds.filter (fun i => !newIds.contains i)
  let inc := match strip with
    | some _ => []
    | none => newIds.filter (fun i => !boundIds.contains i)
  let base := strip.isNone && newIds.head? != boundIds.head?
  let s := s.log s.srcMaster 0x0201 0 0 0xFF from' target cause
  let sw : Switch := ⟨target, cause, from', s.now, out, inc, [], [], s.now + 500000, base, strip.isSome⟩
  let s := { s with scene := { s.scene with switch := some sw } }
  let s := (s.setFld Reg.SYS_SCENE_STATUS F.SYS_SCENE_STATUS.TARGET target).phase 1
  let s := if base then s.baseHandover else s
  let s := (s.makeOutgoing out).promoteStreams promote
  let s := (inc.filterMap s.layerRec?).foldl (fun s l => l.units.foldl State.requestPower s) s
  s.syncCoverage s.now

/-- A switch turns towards a fitting variant of its target (R87). -/
def State.redirect (s : State) (v : Nat) : State :=
  match s.scene.switch with
  | none => s
  | some sw =>
    let newIds := ((s.sceneRec? v).map (·.layers)).getD []
    let boundIds := (s.scene.layers.filter (fun l => !l.outgoing)).map (fun l => l.rc.id)
    let more := boundIds.filter (fun i => !newIds.contains i)
    let inc := newIds.filter (fun i => !boundIds.contains i)
    let base := !sw.baseChange && newIds.head? != (s.scene.layers.map (fun l => l.rc.id)).head?
    let s := s.modSwitch (fun w => { w with target := v, outgoing := w.outgoing ++ more, incoming := inc, baseChange := w.baseChange || base })
    let s := s.setFld Reg.SYS_SCENE_STATUS F.SYS_SCENE_STATUS.TARGET v
    let s := if base then s.baseHandover else s
    let s := s.makeOutgoing more
    let s := (inc.filterMap s.layerRec?).foldl (fun s l => l.units.foldl State.requestPower s) s
    s.syncCoverage s.now

/-- Act on fired triggers, when no switch is in progress. -/
def State.actOn (s : State) (l : List TrigRec) : State :=
  match s.trigTarget l with
  | some (n, k) => s.accept n k none []
  | none => s

/-- The dwell of R76 runs. -/
def State.dwelling (s : State) : Bool :=
  match s.scene.dwellDue with
  | some t => decide (s.now < t)
  | none => false

/-- Evaluate the triggers of kinds 1 to 3 whose source has changed (R76, R78). -/
def State.evalTriggers (s : State) (kind source : Nat) : State :=
  if !s.running || s.scene.switch.isSome || s.dwelling then s else s.actOn (s.firing [kind] (some source))

/-! ### Scene selection after a fence (R86, R87, R469) -/

/-- R86 for a fenced unit. -/
def State.selectScene (s : State) (code : Nat) : State :=
  let ls := s.scene.layers.map (·.rc)
  if !ls.any (fun l => s.layerNames l code) then s
  else
    match s.trigTarget (s.firing [4] none) with
    | some (n, k) => s.accept n k none []
    | none =>
      match s.variant? s.sceneNo with
      | some v => s.accept v 6 none []
      | none =>
        match ls with
        | [] => s
        | base :: upper =>
          if s.layerNames base code then s.severe 18 code
          else s.accept s.sceneNo 7 (some ((upper.filter (fun l => s.layerNames l code)).map (·.id))) []

/-- What a fence does to the scene while the device runs. -/
def State.fenceScene (s : State) (code : Nat) : State :=
  if !s.running then s
  else
    let s := { s with scene := { s.scene with fencedSince := (s.scene.fencedSince ++ [code / 256]).eraseDups } }
    match s.scene.switch with
    | none => s.selectScene code
    | some sw =>
      if sw.bound.isEmpty && !sw.stripping && !s.fits sw.target then
        match s.variant? sw.target with
        | some v => s.redirect v
        | none => { s with scene := { s.scene with recheck := s.scene.recheck ++ [code] } }
      else { s with scene := { s.scene with recheck := s.scene.recheck ++ [code] } }

/-- The streams of DUAL_HOME 2 in use. -/
def State.dualStreams (s : State) : List Nat := ((s.flash.usedStreams s.imgRegion).filter (fun p => p.dualHome == 2)).map (·.stream)

/-- The takeover variant (R469). -/
def State.takeover? (s : State) : Option Nat :=
  (List.range 16).find? (fun m => ((s.sceneRec? m).bind (·.bankedOf)) == some (s.fullOf s.sceneNo) && s.fits m
    && (let st := (((s.sceneLayers? m).getD []).flatMap (fun l => s.flash.layerStreams s.imgRegion l)).map (·.stream)
        s.dualStreams.all (fun x => st.contains x)))

/-- Loss of the backed-up partner: the takeover variant, else R86 alone (R469). -/
def State.takeover (s : State) (partner : Nat) : State :=
  if !s.running then s
  else
    match s.scene.switch with
    | some _ => { s with scene := { s.scene with recheck := s.scene.recheck ++ [0x10000 + partner] } }
    | none =>
      match s.takeover? with
      | some m => if m == s.sceneNo then s.promoteStreams s.dualStreams else s.accept m 6 none s.dualStreams
      | none => s.selectScene (0x0F00 + partner)

/-! ### Fencing (R431, R342, R371) -/

/-- Cancel what a unit holds, at once. -/
def State.dropWork (s : State) (code : Nat) : State :=
  match pcOf code with
  | some n =>
    let es := (s.core n).insts.map (·.1)
    let s := es.foldl (fun s e => (s.modInst e (fun i => { i with stopping := true })).cancelNow e) s
    let s := (s.core n).active.foldl (fun s a => (s.completeSource a.1 n).dropOffer a.1) s
    let s := s.modCore n (fun c => { c with insts := [], active := [], ctx := [], halted := true })
    let s := (s.setReg (Reg.FGS_PC_DISP0 n) 0).setReg (Reg.SYS_PC_ABORT n) 0
    s.setFld (Reg.SYS_PC_STATUS n) F.SYS_PC_STATUS.STATE 4
  | none =>
    match (s.unit code).entry with
    | some e => (s.modInst e (fun i => { i with stopping := true })).cancelNow e
    | none => s

/-- Put a region into the cinder state: its cached lines are invalidated, and it waits while its memory has no free
cinder entry (R318, R321). -/
def State.addCinder (s : State) (base size : Nat) (forLayer : Option Nat) : State :=
  if size == 0 || s.mm.cinder.any (fun c => c.base == base && c.size == size) then s
  else { s with mm := { s.mm with cinder := s.mm.cinder ++ [⟨base, size, false, true, forLayer⟩] } }

/-- The class of memory that holds an address: 0 Frame Store, 1 + n scratchpad n, 20 LPDDR5X. -/
def memClass (a : Nat) : Nat :=
  if inRange a addrFs fsBytes then 0
  else if inRange a addrSpm 0x8000000 then 1 + (a - addrSpm) / 0x800000
  else 20

/-- Cinder entries of a class of memory (R321). -/
def cinderLimit (cls : Nat) : Nat := if cls == 0 || cls == 20 then 64 else 1

/-- A waiting region enters when an entry of its memory is free. -/
def State.enterCinder (s : State) (base : Nat) : State :=
  match s.mm.cinder.find? (fun c => c.base == base && c.waiting) with
  | none => s
  | some c =>
    let k := memClass c.base
    let used := s.mm.cinder.filter (fun x => !x.waiting && memClass x.base == k)
    let first := s.mm.cinder.find? (fun x => x.waiting && memClass x.base == k)
    if decide (cinderLimit k ≤ used.length) || first.map (·.base) != some base then s
    else
      let s := if inRange c.base addrLp 0x1000000000 then s.wcInvalidate c.base c.size else s
      { s with mm := { s.mm with cinder := s.mm.cinder.map (fun x => if x.base == c.base && x.size == c.size then { x with waiting := false } else x) } }

/-- A Frame-Store ring, staging ring or tile region that enters at once. -/
def State.cinderNow (s : State) (base size : Nat) : State := (s.addCinder base size none).enterCinder base

/-- Sections that have a LOAD_ADDR, by table position. -/
def Flash.loadedSections (f : Flash) (r : Nat) : List Nat :=
  ((f.live r).filter (fun e => loadsToLpddr e.type)).map (fun e => e.pos)

/-- Every slot of the staging rings starts empty. -/
def State.emptyStaging (s : State) : State :=
  (s.fgs.rings.filter (fun r => r.rc.kind == 2)).foldl (fun s r =>
    (List.range r.rc.slotCount).foldl (fun s k => s.setFlagWord (r.flagIdx k) SlotFlag.bound.toWord) s) s

/-- What the memories forget when LPDDR5X is interleaved afresh, and the sections that wait to be reloaded. -/
def MemSt.lpLost (m : MemSt) (reloads : List Nat) : MemSt :=
  { m with
    cinder := m.cinder.filter (fun c => !inRange c.base addrLp 0x1000000000)
    wcLines := []
    wcPending := []
    zeroCoded := []
    reloads := reloads }

/-- A memory controller is fenced while the device runs (R342): the remaining channels are interleaved afresh, their
whole capacity enters the cinder state, sections wait to be reloaded, and the mirror restarts. -/
def State.fenceMc (s : State) (n : Nat) : State :=
  let s1 := s.setFld (Reg.MC_STATUS n) F.MC_STATUS.STATE 5
  let s2 : State := { s1 with mm := s1.mm.lpLost (s1.flash.loadedSections s1.imgRegion) }
  let chans := s2.channels
  let size := s2.lpBytes
  let s3 := chans.foldl (fun (s : State) k => s.setFld (Reg.MC_STATUS k) F.MC_STATUS.STATE 4) s2
  let s4 := (s3.cinderNow addrLp size).emptyStaging
  let s5 : State := { s4 with journal := { s4.journal with unmirrored := [], mirrorFrom := none } }
  if decide (chans.length < 2) then s5.severe 18 (0x0C00 + n) else s5

/-- What a fence does to its unit's block, by class (table "Banked behaviour by class"). -/
def State.fenceBlock (s : State) (code : Nat) : State :=
  let n := code % 256
  match code / 256 with
  | 0x01 =>
    let s := (s.setFld (Reg.CFE_PORT_STATUS n) F.CFE_PORT_STATUS.STATE 3)
    ((s.flash.usedStreams s.imgRegion).filter (fun p => p.port == n)).foldl (fun s p => s.markAbsent p.stream) s
  | 0x02 =>
    let ss := ((s.flash.usedStreams s.imgRegion).filter (fun p => p.isp == n)).map (·.stream)
    let s := ss.foldl (fun s x => s.stopPipeWork n x) s
    (s.modPipe n (fun p => { p with inject := none })).showPipe n
  | 0x08 => s.cinderNow (addrSpm + n * 0x800000) spmBytes
  | 0x0B =>
    if (List.range 4).all (fun k => (s.unit (0x0B00 + k)).fenced) then s.severe 18 code else s
  | 0x0C => s.fenceMc n
  | 0x0D => ((s.setFld (Reg.GML_STATUS n) F.GML_STATUS.STATE 5).failLink n).refreshActive
  | 0x0A => s.cvuAbort n
  | _ => s

/-- Fence a unit (R431). Causes: 1 BIST, 2 recurrences, 3 an immediate rule, 4 domain fault, 5 self-test. -/
def State.fence (s : State) (code cause : Nat) : State :=
  let u := s.unit code
  if u.fenced then s
  else
    let s := s.dropWork code
    let s := s.setUnit { s.unit code with fenced := true, cause := cause, heldBy := none }
    let s := (s.gateUnit code).event Reg.PMU_EVENT F.PMU_EVENT.FENCE
    let s := s.log 0x1A00 0x0112 1 0 0xFF code cause 0
    let s := if s.running then s else s.addFld Reg.SYS_KIN_STATUS F.SYS_KIN_STATUS.FENCED 1
    let s := { s with
      fgs := { s.fgs with nodes := s.fgs.nodes.map (fun (m : NodeSt) => if m.preferred == some code then { m with preferred := none } else m) }
      safety := { s.safety with
        cover := s.safety.cover.filter (fun c => c.unit != code)
        selftests := s.safety.selftests.filter (fun t => t.unit != code || t.checker == 8) } }
    ((s.dropMaint code).fenceBlock code).fenceScene code

/-- A recurrence of a unit (R430). Events: 1 tile, 2 parity, 3 halt, 4 tinder, 5 correctable errors, 6 UE, 7 link. -/
def State.recur (s : State) (code event : Nat) : State :=
  let u := s.unit code
  if u.fenced then s
  else
    let w := s.adaptLe 6 2 * 1000000000
    let ts := s.now :: u.recur.filter (fun t => decide (s.now < t + w))
    let s := (s.setUnit { u with recur := ts }).log 0x1A00 0x0801 1 0 0xFF code ts.length event
    if s.adaptLe 4 1 != 0 && decide (s.adaptLe 4 1 ≤ ts.length) then s.fence code 2 else s

/-- A kept correctable error of a bank pair or Policy Core pair (R515). -/
def State.keepCe (s : State) (code n : Nat) : State :=
  let w := s.adaptLe 6 2 * 1000000000
  let old := ((assocGet s.mm.ceTimes code).getD []).filter (fun t => decide (s.now < t + w))
  let ts := old ++ [s.now]
  if decide (n ≤ ts.length) then ({ s with mm := { s.mm with ceTimes := assocPut s.mm.ceTimes code [] } }).recur code 5
  else { s with mm := { s.mm with ceTimes := assocPut s.mm.ceTimes code ts } }

/-! ### CINDER (R79, R80, R316, R318) -/

/-- Round a run of bytes out to whole pages. -/
def pageRange (a n : Nat) : Nat × Nat := (a / 4096 * 4096, (a + n + 4095) / 4096 * 4096)

/-- Insert a range into a list of rising disjoint ranges, joining those that touch. -/
def joinRange (l : List (Nat × Nat)) (r : Nat × Nat) : List (Nat × Nat) :=
  let hit := l.filter (fun x => decide (x.1 ≤ r.2) && decide (r.1 ≤ x.2))
  let rest := l.filter (fun x => !(decide (x.1 ≤ r.2) && decide (r.1 ≤ x.2)))
  rest ++ [hit.foldl (fun a x => (min a.1 x.1, max a.2 x.2)) r]

/-- The regions that a layer leaves: its Frame Store and staging rings by pages, and the scratchpads of its tiles. -/
def layerRegions (l : LayerRec) : List (Nat × Nat) :=
  ((l.rings.filter (fun r => r.kind != 1)).map (fun r => pageRange (ringBase r) (r.slotCount * r.slotBytes))).foldl joinRange []
    ++ (l.units.filter (fun u => u / 256 == 8)).map (fun u => (addrSpm + u % 256 * 0x800000, addrSpm + u % 256 * 0x800000 + spmBytes))

/-- Two layers share bytes of a ring's memory, a Neural Tile or a Check-Value Unit. -/
def layersClash (a b : LayerRec) : Bool :=
  (layerRegions a).any (fun x => (layerRegions b).any (fun y => overlap x.1 (x.2 - x.1) y.1 (y.2 - y.1)))
    || a.units.any (fun u => (u / 256 == 8 || u / 256 == 0x0A) && b.units.contains u)

/-- Remove an outgoing layer from the sequencer and the firewalls. -/
def State.removeLayer (s : State) (id : Nat) : State :=
  let ns := s.layerNodes id
  { s with
    fgs := { s.fgs with
      insts := s.fgs.insts.filter (fun i => !ns.contains i.node)
      nodes := s.fgs.nodes.filter (fun n => n.layer != id)
      flows := s.fgs.flows.filter (fun f => f.layer != id)
      rings := s.fgs.rings.filter (fun r => r.layer != id)
      heldBands := s.fgs.heldBands.filter (fun x => x.2.1 != id)
      closed := s.fgs.closed.filter (· != id) }
    safety := { s.safety with regions := s.safety.regions.filter (fun r => r.layer != some id) }
    scene := { s.scene with layers := s.scene.layers.filter (fun l => !(l.rc.id == id && l.outgoing)) } }

/-- A region that R80 lets pass without ash fill: the target scene says so and an incoming layer of the same
partition takes it over. -/
def State.skipsFill (s : State) (sw : Switch) (l : LayerRec) (r : Nat × Nat) : Bool :=
  ((s.sceneRec? sw.target).map (·.sameOwnerSkip)).getD false
    && (sw.incoming.filterMap s.layerRec?).any (fun m => m.partition == l.partition
        && (layerRegions m).any (fun y => overlap r.1 (r.2 - r.1) y.1 (y.2 - y.1)))

/-- CINDER of an outgoing layer whose users are gone. -/
def State.cinderLayer (s : State) (sw : Switch) (l : LayerRec) : State :=
  let regs := (layerRegions l).filter (fun r => !s.skipsFill sw l r)
  let taker (r : Nat × Nat) : Option Nat := ((sw.incoming.filterMap s.layerRec?).find? (fun m =>
    (layerRegions m).any (fun y => overlap r.1 (r.2 - r.1) y.1 (y.2 - y.1)))).map (·.id)
  let s := (s.removeLayer l.id).syncCvus
  let s := regs.foldl (fun s r => s.addCinder r.1 (r.2 - r.1) (taker r)) s
  (s.modSwitch (fun w => { w with cindered := w.cindered ++ [l.id] })).phase 3

/-! ### BIND (R79, R298, R314) -/

/-- The producer of a ring of a layer (R62). -/
def Flash.producer (f : Flash) (r : Nat) (l : LayerRec) (idx : Nat) (rc : RingRec) : Producer :=
  match l.nodes.find? (fun n => n.outRings.contains idx) with
  | some n => .node n.slot
  | none =>
    match (f.usedStreams r).find? (fun p => (f.streamRings r p).contains rc.ringId) with
    | some p => .stream p.stream
    | none => .nobody

/-- The stream, or the periodic node, at the root of the chain of a node's first inputs (R68, R511). -/
def Flash.rootOf (f : Flash) (r : Nat) (l : LayerRec) : Nat → NodeRec → Option Nat × Option Nat
  | 0, _ => (none, none)
  | fuel + 1, n =>
    if n.periodic then (none, some n.slot)
    else
      match n.inRings.head?.bind (fun i => l.rings[i]?.map (fun rc => (i, rc))) with
      | none => (none, none)
      | some (i, rc) =>
        match f.producer r l i rc with
        | .stream st => (some st, none)
        | .node p =>
          match l.nodes.find? (fun m => m.slot == p) with
          | some m => f.rootOf r l fuel m
          | none => (none, none)
        | .nobody => (none, none)

/-- Slots per frame and frame height of a ring (R63 to R65). -/
def Flash.ringShape (f : Flash) (r : Nat) (l : LayerRec) (idx : Nat) (rc : RingRec) : Nat × Nat :=
  match f.producer r l idx rc with
  | .node p =>
    match l.nodes.find? (fun m => m.slot == p) with
    | none => (1, rc.lines)
    | some m =>
      match l.rings[m.outRings.headD 0xFF]? with
      | none => (1, rc.lines)
      | some r0 =>
        let h := m.height r0.width
        (max 1 (ceilDiv h r0.lines), if m.outRings.head? == some idx then h else h * rc.lines / max 1 r0.lines)
  | .stream st =>
    match f.stream? r st with
    | none => (1, rc.lines)
    | some p =>
      let ids := ispRingIds (f.ispSet r p.ispSet)
      if ids.getD 1 0xFFFF == rc.ringId then (1, rc.lines)
      else if ids.getD 4 0xFFFF == rc.ringId then (1, p.height)
      else (max 1 (ceilDiv p.height rc.lines), p.height)
  | .nobody => (1, rc.lines)

/-- Bind a ring of a layer. -/
def State.bindRing (s : State) (l : LayerRec) (idx : Nat) (rc : RingRec) : RingSt :=
  let f := s.flash
  let r := s.imgRegion
  let pr := f.producer r l idx rc
  let sh := f.ringShape r l idx rc
  let st := match pr with
    | .stream x => x
    | .node p =>
      match l.nodes.find? (fun m => m.slot == p) with
      | some m => (f.rootOf r l 256 m).1.getD 0xFF
      | none => 0xFF
    | .nobody => 0xFF
  let rem := match pr with
    | .node p => s.nodePeer l.id p
    | _ => none
  { rc := rc, layer := l.id, idx := idx, producer := pr, perFrame := sh.1, frameH := sh.2, stream := st, kOf := [], kNext := 0,
    assign := [], skipped := [], arrived := [], drained := [], remote := rem }

/-- Bind a node of a layer. -/
def State.bindNode (s : State) (l : LayerRec) (n : NodeRec) : NodeSt :=
  let root := s.flash.rootOf s.imgRegion l 256 n
  let sl := if n.cls == 7 then (0, 0)
    else match s.flash.stepList? s.imgRegion n.stepList with
      | some x => (x.2.2, x.2.1)
      | none => (0, 0)
  { rc := n, layer := l.id, domain := l.partition, stepAddr := sl.1, steps := sl.2, preferred := none, retired := none,
    baseSeq := if root.2.isSome && !n.periodic then some 0 else none, refStream := root.1, refPeriodic := root.2, finished := [],
    startBase := none, startNext := 0, starts := [], watchFrom := none, peer := s.nodePeer l.id n.slot }

/-- The address windows of R298: (first page, pages, read, write), merged where they touch and permit the same. -/
def mergeWindows : List (Nat × Nat × Bool × Bool) → List (Nat × Nat × Bool × Bool)
  | [] => []
  | w :: t =>
    match mergeWindows t with
    | [] => [w]
    | x :: u =>
      if decide (x.1 ≤ w.1 + w.2.1) && w.2.2 == x.2.2 then (w.1, max (w.1 + w.2.1) (x.1 + x.2.1) - w.1, w.2.2) :: u
      else w :: x :: u

/-- Insert by first page. -/
def insertWin (w : Nat × Nat × Bool × Bool) : List (Nat × Nat × Bool × Bool) → List (Nat × Nat × Bool × Bool)
  | [] => [w]
  | x :: t => if w.1 ≤ x.1 then w :: x :: t else x :: insertWin w t

/-- Windows 1 to 15 of a layer's tiles. -/
def windowsOf (es : List FwRec) (partition : Nat) : List (Nat × Nat × Bool × Bool) :=
  let mem := es.filter (fun e => e.enable && (decide (0xC0 ≤ e.target) && decide (e.target ≤ 0xE0)))
  let ws := (mem.map (fun e => (e.base / 4096, e.pages, e.rd.testBit partition, e.wr.testBit partition))).filter (fun w => w.2.2.1 || w.2.2.2)
  mergeWindows (ws.foldr insertWin [])

/-- Load the window table of a tile (R298). -/
def State.loadWindows (s : State) (n : Nat) (ws : List (Nat × Nat × Bool × Bool)) : State :=
  let all := (((addrSpm + n * 0x800000) / 4096, 1536, true, true) :: ws).take 16
  (List.range 16).foldl (fun s m =>
    match all[m]? with
    | some w =>
      let c := ((F.NT_WIN_CTRL.ENABLE.put 1 0) ||| (F.NT_WIN_CTRL.READ.put (bit w.2.2.1) 0)) ||| (F.NT_WIN_CTRL.WRITE.put (bit w.2.2.2) 0)
      (((s.setReg (Reg.NT_WIN_CTRL n m) c).setReg (Reg.NT_WIN_VBASE n m) (w32 (w.1 % 2 ^ 30))).setReg (Reg.NT_WIN_PAGES n m) (w32 (w.2.1 % 2 ^ 30))).setReg
        (Reg.NT_WIN_TBASE n m) (w32 (w.1 % 2 ^ 30))
    | none => (((s.setReg (Reg.NT_WIN_CTRL n m) 0).setReg (Reg.NT_WIN_VBASE n m) 0).setReg (Reg.NT_WIN_PAGES n m) 0).setReg (Reg.NT_WIN_TBASE n m) 0) s

/-- The lowest write-credit entry of a tile that is not valid. -/
def State.freeCredit (s : State) (n : Nat) : Option Nat :=
  (List.range 16).find? (fun k => !s.flag (Reg.NT_CRED_CTRL n k) F.NT_CRED_CTRL.VALID)

/-- Enter the write credit of a scratchpad ring whose producer may run on another unit than the tile (R314). -/
def State.ringCredit (s : State) (l : LayerRec) (rc : RingRec) (pr : Producer) : State :=
  let n := rc.base / 0x800000
  let own := match pr with
    | .node p =>
      match l.nodes.find? (fun m => m.slot == p) with
      | some m => m.cls == 5 && (l.units.filter (fun u => u / 256 == 8)) == [0x0800 + n]
      | none => false
    | _ => false
  if rc.kind != 1 || own then s
  else
    match s.freeCredit n with
    | none => s
    | some k =>
      let c := Reg.NT_CRED_CTRL n k
      let s := (((s.setReg c 0).setFlag c F.NT_CRED_CTRL.VALID true).setFlag c F.NT_CRED_CTRL.ANY true).setFld c F.NT_CRED_CTRL.DOMAIN l.partition
      let w := Reg.NT_CRED_WIN n k
      ((s.setReg w 0).setFld w F.NT_CRED_WIN.BASE (rc.base % 0x800000 / 256)).setFld w F.NT_CRED_WIN.LEN (rc.slotCount * rc.slotBytes / 256)

/-- The firewall regions of a FIREWALL section's entries. -/
def fwRegionsOf (es : List FwRec) (layer : Nat) : List FwRegion :=
  es.map (fun e => ⟨e.target, e.region, e.enable, e.lock, e.initiator == 0xFFFF, e.initiator % 1024, e.base, e.pages,
    BitVec.ofNat 16 e.rd, BitVec.ofNat 16 e.wr, some layer⟩)

/-- Bind a layer: firewall entries, node, ring and flow records, slots empty, windows and credits of its tiles, context
banks of its streams. Its streams and periodic nodes wait for OPEN. -/
def State.bindLayer (s : State) (l : LayerRec) (periodNs : Nat) : State :=
  let es := s.flash.firewall s.imgRegion l.firewall
  let streams := s.flash.layerStreams s.imgRegion l
  let rings := l.rings.mapIdx (fun i rc => s.bindRing l i rc)
  let nodes := l.nodes.map (s.bindNode l)
  let s := { s with
    safety := { s.safety with regions := s.safety.regions.filter (fun r => !es.any (fun e => e.target == r.target && e.region == r.region)) ++ fwRegionsOf es l.id }
    fgs := { s.fgs with rings := s.fgs.rings ++ rings, nodes := s.fgs.nodes ++ nodes, flows := s.fgs.flows ++ l.flows.map (fun f => ⟨f, l.id, 0, 0, none⟩) }
    scene := { s.scene with layers := s.scene.layers ++ [⟨l, false, false, periodNs, streams.map (·.stream)⟩] } }
  let s := (rings.filter (fun r => r.remote.isNone)).foldl (fun s r =>
    (List.range r.rc.slotCount).foldl (fun s k => s.setFlagWord (r.flagIdx k) SlotFlag.bound.toWord) s) s
  let ws := windowsOf es l.partition
  let s := (l.units.filter (fun u => u / 256 == 8)).foldl (fun s u => s.loadWindows (u % 256) ws) s
  let s := rings.foldl (fun s r => s.ringCredit l r.rc r.producer) s
  (streams.foldl State.loadBank s).noteHwm.syncCvus

/-- An incoming layer may be bound: nothing it takes is still held by an outgoing layer or in the cinder state, and
no unit it names is gated. -/
def State.mayBind (s : State) (sw : Switch) (l : LayerRec) : Bool :=
  let out := (s.scene.layers.filter (·.outgoing)).map (·.rc)
  let es := s.flash.firewall s.imgRegion l.firewall
  sw.incoming.contains l.id && !sw.bound.contains l.id && out.all (fun o => !layersClash o l && o.id != l.id)
    && out.all (fun o => !(s.flash.firewall s.imgRegion o.firewall).any (fun a => es.any (fun b => a.target == b.target && a.region == b.region)))
    && s.mm.cinder.all (fun c => !(layerRegions l).any (fun r => overlap c.base c.size r.1 (r.2 - r.1)))
    && l.units.all (fun u => !(s.unit u).gated || (s.unit u).fenced)

/-! ### OPEN -/

/-- Units of the classes that the PMU gates while the current scene leaves them unbound (R32; DESIGN CHOICE on the
classes, log entry 15). -/
def gateClass (c : Nat) : Bool := decide (1 ≤ c) && decide (c ≤ 9)

/-- Gate the units that no bound layer names, and ask for those it names. -/
def State.gateUnbound (s : State) : State :=
  let named (u : Nat) : Bool := s.scene.layers.any (fun l => maskNames l.rc.unitMask u)
  (maskCodes.filter (fun u => gateClass (u / 256))).foldl (fun s u =>
    if (s.unit u).fenced then s
    else if named u then s.requestPower u
    else if (s.unit u).gated || (s.unit u).entry.isSome || (s.unit u).heldBy.isSome then s
    else s.gateUnit u) s

/-- Start a layer: bind its streams from their next Frame Start, take tokens for its nodes, start its periodic nodes. -/
def State.openLayer (s : State) (id : Nat) : State :=
  match s.layer? id with
  | none => s
  | some l =>
    let s := l.streams.foldl (fun s x => s.openStream id x) s
    { s with
      scene := { s.scene with layers := s.scene.layers.map (fun b => if b.rc.id == id then { b with opened := true } else b) }
      fgs := { s.fgs with
        closed := s.fgs.closed.filter (· != id)
        nodes := s.fgs.nodes.map (fun n => if n.layer == id && n.rc.periodic && n.peer.isNone then { n with startBase := some s.now, startNext := 0 } else n) } }

/-- Image pipes are in service mode in a SERVICE scene. -/
def State.setService (s : State) (on : Bool) : State :=
  (List.range 4).foldl (fun s n => s.setFlag (Reg.ISP_STATUS n) F.ISP_STATUS.SERVICE on) s

/-- The bound layers in the order in which a scene lists them. -/
def orderLayers (ids : List Nat) (ls : List BoundLayer) : List BoundLayer :=
  ids.filterMap (fun i => ls.find? (fun l => l.rc.id == i)) ++ ls.filter (fun l => !ids.contains l.rc.id)

/-- One fence judged again at OPEN (R87, R469). -/
def State.recheckOne (s : State) (code : Nat) : State :=
  if s.scene.switch.isSome then { s with scene := { s.scene with recheck := s.scene.recheck ++ [code] } }
  else if decide (0x10000 ≤ code) then s.takeover (code - 0x10000)
  else ({ s with scene := { s.scene with fencedSince := (s.scene.fencedSince ++ [code / 256]).eraseDups } }).selectScene code

/-- OPEN of a switch (R79, R82, R83). -/
def State.openSwitch (s : State) (sw : Switch) : State :=
  let sc := s.sceneRec? sw.target
  let s := sw.bound.foldl State.openLayer (s.phase 5)
  let s := { s with scene := { s.scene with
    layers := if sw.stripping then s.scene.layers else orderLayers ((sc.map (fun (c : SceneRec) => c.layers)).getD []) s.scene.layers
    switch := none
    dwellDue := some (s.now + 250000000)
    fencedSince := []
    openedAt := s.now } }
  let ns := s.now - sw.start
  let us := (ns + 500) / 1000
  let a := Reg.SYS_SCENE_STATUS
  let s := (((s.setFld a F.SYS_SCENE_STATUS.SCENE sw.target).setFld a F.SYS_SCENE_STATUS.TARGET sw.target).setFld a F.SYS_SCENE_STATUS.PHASE 0).addFld
    a F.SYS_SCENE_STATUS.SWITCH_COUNT 1
  let s := ((s.setFlag a F.SYS_SCENE_STATUS.BANKED ((sc.bind (·.bankedOf)).isSome)).setFlag a F.SYS_SCENE_STATUS.STRIPPED sw.stripping).setFlag
    a F.SYS_SCENE_STATUS.DWELL true
  let b := Reg.SYS_SCENE_LAST
  let s := ((s.setFld b F.SYS_SCENE_LAST.FROM sw.fromScene).setFld b F.SYS_SCENE_LAST.CAUSE sw.cause).setFld b F.SYS_SCENE_LAST.DURATION_US (min us 0xFFFF)
  let s := s.log s.srcMaster 0x0202 0 0 0xFF sw.fromScene sw.target us
  let s := match sc with
    | some c => if decide (c.budgetUs * 1000 < ns) then s.log s.srcMaster 0x0204 1 0 0xFF us c.budgetUs 0 else s
    | none => s
  let s := if sw.baseChange then s.startCounts else s
  let s := s.setService ((sc.map (fun (c : SceneRec) => c.service)).getD false)
  let s := s.gateUnbound.syncCoverage (s.now + 100000000)
  let again := s.scene.recheck
  let s := again.foldl State.recheckOne { s with scene := { s.scene with recheck := [] } }
  if s.scene.switch.isSome then s else s.actOn (s.firing [4] none)

end Sys2Proof.Machine
end

