-- ==== Sys2Proof/Machine/AdaptOps.lean ====
section
/-! DEFINITION. PATCH actions of the adaptation rules (R437): the byte in force of a loaded step list. -/

namespace Sys2Proof.Machine

open Sys2Proof

/-- What a PATCH rule names: step-list index, byte offset in its section, value and mask. -/
def RuleRec.patch (q : RuleRec) : Nat × Nat × Nat × Nat := (q.arg % 65536, q.arg / 65536 % 65536, q.arg / 2 ^ 32 % 256, q.arg / 2 ^ 40 % 256)

/-- The byte in force at an offset of a step-list section: of the highest-numbered fired rule that patches it, else the image's. -/
def State.patchByte (s : State) (e : SecEnt) (off : Nat) : Byte :=
  let orig : Byte := (s.flash.img s.imgRegion (e.offset + off) 1).headD 0
  let rs := s.firedRules.filter (fun p => p.2.action == 3 && p.2.patch.1 == e.index && p.2.patch.2.1 == off)
  match rs.getLast? with
  | some p =>
    let v : Byte := BitVec.ofNat 8 p.2.patch.2.2.1
    let m : Byte := BitVec.ofNat 8 p.2.patch.2.2.2
    (orig &&& ~~~m) ||| (v &&& m)
  | none => orig

/-- Write the byte in force of a patched place, unless its section waits for its reload. -/
def State.applyPatch (s : State) (idx off : Nat) : State :=
  match s.flash.section? s.imgRegion 6 idx with
  | none => s
  | some e =>
    if s.mm.reloads.contains e.pos then s
    else
      let b := s.patchByte e off
      (s.write (e.load + off) [b]).log s.srcMaster 0x0805 0 0 0xFF idx off b.toNat

/-- Apply the fired patches of a section again after its reload (R437). -/
def State.repatch (s : State) (e : SecEnt) : State :=
  if e.type != 6 then s
  else
    let offs := ((s.firedRules.filter (fun p => p.2.action == 3 && p.2.patch.1 == e.index)).map (fun p => p.2.patch.2.1)).eraseDups
    offs.foldl (fun (s : State) o => s.applyPatch e.index o) s

end Sys2Proof.Machine
end

