-- ==== Sys2Proof/Machine/IspMath.lean ====
section
/-! DEFINITION. The arithmetic of the image pipe (spec/06, R142 to R144, R150 to R155): the ten stages on a frame of
samples, the output formats and the statistics record. Log entry 26 names what R142 and R144 leave to a reading. -/

namespace Sys2Proof.Machine

open Sys2Proof

/-- A plane of values, line by line. -/
abbrev Plane := Array (Array Nat)

/-- A coordinate reflected about the edges without repeating the edge pixel (R142). -/
def reflectAt (n : Nat) (i : Int) : Nat :=
  if i < 0 then (-i).toNat else if (n : Int) ≤ i then (2 * ((n : Int) - 1) - i).toNat else i.toNat

/-- A pixel with reflection: `h` lines, `w` pixels. -/
def px (p : Plane) (w h : Nat) (x y : Int) : Nat := (p.getD (reflectAt h y) #[]).getD (reflectAt w x) 0

/-- num/den rounded to the nearest integer, halves up (R142). -/
def roundDiv (num : Int) (den : Nat) : Int := (2 * num + den).fdiv (2 * (max 1 den : Nat))

/-- Clamp to the 20-bit path. -/
def clamp20 (v : Int) : Nat := min (2 ^ 20 - 1) v.toNat

/-- Clamp to n bits. -/
def clampBits (n : Nat) (v : Int) : Nat := min (2 ^ n - 1) v.toNat

/-- Make a plane of `h` lines and `w` pixels from its pixels. -/
def mkPlane (w h : Nat) (f : Nat → Nat → Nat) : Plane := Array.ofFn (n := h) (fun y => Array.ofFn (n := w) (fun x => f x.val y.val))

/-- A two's-complement value of 16 bits. -/
def s16 (v : Nat) : Int := if 0x8000 ≤ v % 0x10000 then (v % 0x10000 : Int) - 0x10000 else (v % 0x10000 : Nat)

/-- Colour of a CFA position, 0 red, 1 green, 2 blue: codes 0 RGGB, 1 GRBG, 2 GBRG, 3 BGGR; the position counts left to
right, top to bottom. -/
def cfaColour (cfa pos : Nat) : Nat :=
  ([[0, 1, 1, 2], [1, 0, 2, 1], [1, 2, 0, 1], [2, 1, 1, 0]].getD cfa []).getD pos 0

/-- CFA position of a pixel. -/
def cfaPos (x y : Nat) : Nat := 2 * (y % 2) + x % 2

/-- Colour of a pixel. -/
def colourAt (cfa x y : Nat) : Nat := cfaColour cfa (cfaPos x y)

/-! ### Parameter sets (spec/02, "ISP parameter set layout") -/

/-- A parameter set, with the lookups the stages make. -/
structure IspSet where
  bytes : Array Byte
  cfa : Nat
  inputBits : Nat
  enable : Nat
  defects : List (Nat × Nat)

/-- n bytes of a set, little-endian. -/
def IspSet.le (p : IspSet) (off n : Nat) : Nat := leNat ((List.range n).map (fun i => p.bytes.getD (off + i) 0))

/-- Read a parameter set. -/
def IspSet.parse (b : List Byte) : IspSet :=
  { bytes := b.toArray, cfa := leAt b 4 1, inputBits := leAt b 5 1, enable := leAt b 6 2
    defects := (List.range (leAt b 2 2)).map (fun i => let d := leAt b (0x4000 + 4 * i) 4; (d % 65536, d / 65536)) }

/-- Stage n is enabled. -/
def IspSet.on (p : IspSet) (n : Nat) : Bool := p.enable.testBit (n - 1)

/-! ### Stages 1 to 5: raw -/

/-- The knee curve (stage 1). -/
def kneeMap (p : IspSet) (v : Nat) : Nat :=
  let n := p.le 0x40 1
  let kin (i : Nat) := p.le (0x60 + 2 * i) 2
  let kout (i : Nat) := p.le (0xA0 + 4 * i) 4 % 2 ^ 20
  if v ≤ kin 0 then kout 0
  else if kin (n - 1) ≤ v then kout (n - 1)
  else
    match (List.range (n - 1)).find? (fun i => decide (kin i ≤ v) && decide (v < kin (i + 1))) with
    | some i => clamp20 (kout i + roundDiv (((v : Int) - kin i) * ((kout (i + 1) : Int) - kout i)) (kin (i + 1) - kin i))
    | none => kout (n - 1)

/-- Stage 1: linearisation, crosstalk, pedestal. -/
def stage1 (p : IspSet) (w h : Nat) (a : Plane) : Plane :=
  if p.on 1 then
    let l := a.map (fun r => r.map (kneeMap p))
    mkPlane w h (fun x y =>
      let c := cfaPos x y
      let sum := (List.range 9).foldl (fun (t : Int) i =>
        t + s16 (p.le (0x120 + 18 * c + 2 * i) 2) * px l w h ((x : Int) + (i % 3 : Nat) - 1) ((y : Int) + (i / 3 : Nat) - 1)) 0
      clamp20 (roundDiv (sum - (p.le (0x50 + 4 * c) 4 % 2 ^ 20 : Nat) * 4096) 4096))
  else a.map (fun r => r.map (fun v => clamp20 ((v * 2 ^ (20 - p.inputBits) : Nat) : Int)))

/-- Stage 2: green imbalance. -/
def stage2 (p : IspSet) (w h : Nat) (a : Plane) : Plane :=
  if p.on 2 then
    let th := p.le 0x240 4 % 2 ^ 20
    let st := p.le 0x244 2
    mkPlane w h (fun x y =>
      let g := px a w h x y
      if colourAt p.cfa x y == 1 then
        let m := roundDiv ((px a w h ((x : Int) - 1) ((y : Int) - 1) + px a w h ((x : Int) + 1) ((y : Int) - 1)
          + px a w h ((x : Int) - 1) ((y : Int) + 1) + px a w h ((x : Int) + 1) ((y : Int) + 1) : Nat) : Int) 4
        if decide ((m - g).natAbs ≤ th) then clamp20 (roundDiv ((g : Int) * 512 + st * (m - g)) 512) else g
      else g)
  else a

/-- The 8 same-colour samples at distance 2, the axial ones first. -/
def around2 (a : Plane) (w h x y : Nat) : List Nat :=
  [(-2, 0), (2, 0), (0, -2), (0, 2), (-2, -2), (2, -2), (-2, 2), (2, 2)].map (fun (d : Int × Int) => px a w h (x + d.1) (y + d.2))

/-- Insert into a rising list. -/
def putRising (n : Nat) : List Nat → List Nat
  | [] => [n]
  | m :: t => if n ≤ m then n :: m :: t else m :: putRising n t

/-- Mean of the two middle values of the axial neighbours. -/
def axialMean (a : Plane) (w h x y : Nat) : Nat :=
  let l := ((around2 a w h x y).take 4).foldr putRising []
  clamp20 (roundDiv ((l.getD 1 0 + l.getD 2 0 : Nat) : Int) 2)

/-- Why stage 3 replaces a pixel: 0 not at all, 1 dynamic detection, 2 the static list. -/
def defectAt (p : IspSet) (w h : Nat) (a : Plane) (x y : Nat) : Nat :=
  let mode := p.le 0x260 1
  if !p.on 3 then 0
  else if mode % 2 == 1 && p.defects.contains (x, y) then 2
  else if mode / 2 % 2 == 1 then
    let v := px a w h x y
    let l := around2 a w h x y
    let hi := l.foldl max 0
    let lo := l.foldl min (2 ^ 20)
    if decide (hi + p.le 0x264 4 % 2 ^ 20 < v) || decide (v + p.le 0x268 4 % 2 ^ 20 < lo) then 1 else 0
  else 0

/-- Stage 3: defect pixels. -/
def stage3 (p : IspSet) (w h : Nat) (a : Plane) : Plane :=
  if p.on 3 then mkPlane w h (fun x y => if defectAt p w h a x y == 0 then px a w h x y else axialMean a w h x y) else a

/-- Whole part and 16-bit fraction of n·k/d (R144: 16 fractional bits). -/
def gridPos (n k d : Nat) : Nat × Nat :=
  let q := n * k
  let d := max 1 d
  (q / d, (2 * (q % d * 65536) + d) / (2 * d))

/-- Stage 4: lens shading; `hf` is the frame height that the mesh spans. -/
def stage4 (p : IspSet) (w h hf : Nat) (a : Plane) : Plane :=
  if p.on 4 then
    mkPlane w h (fun x y =>
      let u := gridPos (x / 2) 32 (w / 2 - 1)
      let v := gridPos (y / 2) 32 (hf / 2 - 1)
      let g (i j : Nat) : Nat := p.le (0x280 + 2 * (1089 * cfaPos x y + 33 * min 32 i + min 32 j)) 2
      let top := g v.1 u.1 * (65536 - u.2) + g v.1 (u.1 + 1) * u.2
      let bot := g (v.1 + 1) u.1 * (65536 - u.2) + g (v.1 + 1) (u.1 + 1) * u.2
      clamp20 (roundDiv ((px a w h x y * (top * (65536 - v.2) + bot * v.2) : Nat) : Int) (2 ^ 44)))
  else a

/-- Stage 5: raw noise reduction. -/
def stage5 (p : IspSet) (w h : Nat) (a : Plane) : Plane :=
  if p.on 5 then
    mkPlane w h (fun x y =>
      let c := px a w h x y
      let t := clamp20 (roundDiv ((p.le 0x24C0 4 % 2 ^ 20 * 65536 + p.le 0x24C4 2 * c : Nat) : Int) 65536)
      let ws := (around2 a w h x y).map (fun n =>
        let d := (max n c) - (min n c)
        let i := if t == 0 then Config.noiseIndex d % 16 else min 15 (16 * d / t)
        (p.le (0x24C8 + i) 1, n))
      let num := ws.foldl (fun s q => s + q.1 * q.2) (255 * c)
      let den := ws.foldl (fun s q => s + q.1) 255
      let m := roundDiv (num : Int) den
      clamp20 (roundDiv ((c : Int) * 256 + p.le 0x24C6 2 * (m - c)) 256))
  else a

/-! ### Stages 6 to 9: colour -/

/-- Mean of samples at offsets. -/
def meanAt (a : Plane) (w h x y : Nat) (ds : List (Int × Int)) : Nat :=
  clamp20 (roundDiv ((ds.foldl (fun s (d : Int × Int) => s + px a w h (x + d.1) (y + d.2)) 0 : Nat) : Int) ds.length)

/-- Green at every pixel (stage 6). -/
def greenPlane (p : IspSet) (w h : Nat) (a : Plane) : Plane :=
  let edge := p.le 0x2540 1 == 1
  let th := p.le 0x2544 4 % 2 ^ 20
  mkPlane w h (fun x y =>
    if colourAt p.cfa x y == 1 then px a w h x y
    else if edge then
      let at' (dx dy : Int) : Int := px a w h (x + dx) (y + dy)
      let gh := (at' (-1) 0 - at' 1 0).natAbs + (2 * at' 0 0 - at' (-2) 0 - at' 2 0).natAbs
      let gv := (at' 0 (-1) - at' 0 1).natAbs + (2 * at' 0 0 - at' 0 (-2) - at' 0 2).natAbs
      if decide (max gh gv - min gh gv ≤ th) then meanAt a w h x y [(-1, 0), (1, 0), (0, -1), (0, 1)]
      else if decide (gh < gv) then meanAt a w h x y [(-1, 0), (1, 0)]
      else meanAt a w h x y [(0, -1), (0, 1)]
    else meanAt a w h x y [(-1, 0), (1, 0), (0, -1), (0, 1)])

/-- Offsets of the nearest samples of a colour from a pixel of another colour. -/
def nearest (cfa x y c : Nat) : List (Int × Int) :=
  let at' (dx dy : Nat) := colourAt cfa (x + dx) (y + dy)
  if at' 1 0 == c then [(-1, 0), (1, 0)]
  else if at' 0 1 == c then [(0, -1), (0, 1)]
  else [(-1, -1), (1, -1), (-1, 1), (1, 1)]

/-- Stage 6: demosaic; red, green and blue planes. -/
def stage6 (p : IspSet) (w h : Nat) (a : Plane) : Plane × Plane × Plane :=
  if p.on 6 then
    let g := greenPlane p w h a
    let edge := p.le 0x2540 1 == 1
    let chan (c : Nat) : Plane := mkPlane w h (fun x y =>
      if colourAt p.cfa x y == c then px a w h x y
      else
        let ds := nearest p.cfa x y c
        if edge then
          let d := ds.foldl (fun (s : Int) (d : Int × Int) => s + px a w h (x + d.1) (y + d.2) - px g w h (x + d.1) (y + d.2)) 0
          clamp20 (roundDiv ((px g w h x y : Int) * ds.length + d) ds.length)
        else meanAt a w h x y ds)
    (chan 0, g, chan 2)
  else (a, a, a)

/-- Apply a function of a pixel's three channels. -/
def mapRgb (w h : Nat) (t : Plane × Plane × Plane) (f : Nat → Nat → Nat × Nat × Nat → Nat × Nat × Nat) : Plane × Plane × Plane :=
  let q : Array (Array (Nat × Nat × Nat)) := Array.ofFn (n := h) (fun y => Array.ofFn (n := w) (fun x =>
    f x.val y.val (px t.1 w h x.val y.val, px t.2.1 w h x.val y.val, px t.2.2 w h x.val y.val)))
  (q.map (fun r => r.map (·.1)), q.map (fun r => r.map (·.2.1)), q.map (fun r => r.map (·.2.2)))

/-- Stage 7: white balance. -/
def stage7 (p : IspSet) (v : Nat × Nat × Nat) : Nat × Nat × Nat :=
  if p.on 7 then
    let f (x i : Nat) := clamp20 (roundDiv ((x * p.le (0x2560 + 2 * i) 2 : Nat) : Int) 4096)
    (f v.1 0, f v.2.1 1, f v.2.2 2)
  else v

/-- Stage 8: colour matrix. -/
def stage8 (p : IspSet) (v : Nat × Nat × Nat) : Nat × Nat × Nat :=
  if p.on 8 then
    let k (i : Nat) : Int := s16 (p.le (0x2570 + 2 * i) 2)
    let row (i : Nat) : Nat := clamp20 (roundDiv (k (3 * i) * v.1 + k (3 * i + 1) * v.2.1 + k (3 * i + 2) * v.2.2
      + 16 * 4096 * s16 (p.le (0x2582 + 2 * i) 2)) 4096)
    (row 0, row 1, row 2)
  else v

/-- A tone curve of stage 9. -/
def toneCurve (p : IspSet) (c v : Nat) : Nat :=
  let i := v / 1024
  let e (i : Nat) : Nat := if 1024 ≤ i then 65535 else p.le (0x2590 + 2048 * c + 2 * i) 2
  clampBits 16 (roundDiv ((e i : Int) * 1024 + ((e (i + 1) : Int) - e i) * (v % 1024 : Nat)) 1024)

/-- Stage 9: tone curves and local gain. -/
def stage9 (p : IspSet) (w hf x y : Nat) (v : Nat × Nat × Nat) : Nat × Nat × Nat :=
  if p.on 9 then
    let dw := max 1 (w - 1)
    let dh := max 1 (hf - 1)
    let i := y * 15 / dh
    let j := x * 15 / dw
    let fy := y * 15 % dh
    let fx := x * 15 % dw
    let g (i j : Nat) : Nat := p.le (0x2590 + 0x1800 + 2 * (16 * min 15 i + min 15 j)) 2
    let gain := (g i j * (dw - fx) + g i (j + 1) * fx) * (dh - fy) + (g (i + 1) j * (dw - fx) + g (i + 1) (j + 1) * fx) * fy
    let f (c v : Nat) : Nat := clampBits 16 (roundDiv ((toneCurve p c v * gain : Nat) : Int) (4096 * dw * dh))
    (f 0 v.1, f 1 v.2.1, f 2 v.2.2)
  else (v.1 / 16, v.2.1 / 16, v.2.2 / 16)

/-! ### Stage 10 (R150, R151) -/

/-- Kr, Kg, Kb and the factors 1/(2 − 2Kb), 1/(2 − 2Kr) of a matrix, with 16 fractional bits. -/
def yuvCoef (m : Nat) : Int × Int × Int × Int × Int :=
  let kr : Int := if m == 0 then 2126 else 2990
  let kb : Int := if m == 0 then 722 else 1140
  let q (n : Int) (d : Int) : Int := (2 * n * 65536 + d).fdiv (2 * d)
  (q kr 10000, q (10000 - kr - kb) 10000, q kb 10000, q 10000 (20000 - 2 * kb), q 10000 (20000 - 2 * kr))

/-- Scale s·Y + off of a pixel, for 8-bit (s 255 or 219) and 10-bit codes. -/
def lumaCode (m : Nat) (s off bits : Nat) (v : Nat × Nat × Nat) : Nat :=
  let k := yuvCoef m
  clampBits bits (off + roundDiv (s * (k.1 * v.1 + k.2.1 * v.2.1 + k.2.2.1 * v.2.2)) (65536 * 65535))

/-- The two 8-bit chroma codes of a pixel. -/
def chromaCode (m range : Nat) (v : Nat × Nat × Nat) : Nat × Nat :=
  let k := yuvCoef m
  let y := k.1 * v.1 + k.2.1 * v.2.1 + k.2.2.1 * v.2.2
  let s : Int := if range == 0 then 255 else 224
  let f (c : Nat) (d : Int) : Nat := clampBits 8 (128 + roundDiv (s * ((c : Int) * 65536 - y) * d) (65536 * 65536 * 65535))
  (f v.2.2 k.2.2.2.1, f v.1 k.2.2.2.2)

/-- 8-bit luma of a pixel at a RANGE. -/
def luma8 (m range : Nat) (v : Nat × Nat × Nat) : Nat := if range == 0 then lumaCode m 255 0 8 v else lumaCode m 219 16 8 v

/-- RGB888 of received 8-bit Y, Cb, Cr: the inverse of MATRIX at RANGE (R151). -/
def yuvToRgb (m range : Nat) (y cb cr : Nat) : Nat × Nat × Nat :=
  let kr : Int := if m == 0 then 2126 else 2990
  let kb : Int := if m == 0 then 722 else 1140
  let kg : Int := 10000 - kr - kb
  let q (n : Int) (d : Int) : Int := (2 * n * 65536 + d).fdiv (2 * d)
  let er := q (20000 - 2 * kr) 10000
  let eb := q (20000 - 2 * kb) 10000
  let gr := q (kr * (20000 - 2 * kr)) (kg * 10000)
  let gb := q (kb * (20000 - 2 * kb)) (kg * 10000)
  let dy : Nat := if range == 0 then 255 else 219
  let dc : Nat := if range == 0 then 255 else 224
  let yy : Int := if range == 0 then y else (y : Int) - 16
  let pb : Int := (cb : Int) - 128
  let pr : Int := (cr : Int) - 128
  let f (kpb kpr : Int) : Nat := clampBits 8 (roundDiv (255 * (yy * dc * 65536 + (kpb * pb + kpr * pr) * dy)) (65536 * dy * dc))
  (f 0 er, f (-gb) (-gr), f eb 0)

/-! ### A processed frame -/

/-- What the pipe holds of a frame: raw planes after stages 1, 3 and 4, colour after 6 and 9; or the received YUV bytes. -/
structure IspOut where
  w : Nat
  h : Nat
  yuv : Bool
  src : Plane
  r1 : Plane
  r2 : Plane
  r3 : Plane
  r4 : Plane
  c6 : Plane × Plane × Plane
  c9 : Plane × Plane × Plane

/-- Run stages 1 to 9 on a frame of `h` lines, of which the gains span `hf`. -/
def ispRun (p : IspSet) (w h hf : Nat) (yuv : Bool) (src : Plane) : IspOut :=
  if yuv then ⟨w, h, true, src, #[], #[], #[], #[], (#[], #[], #[]), (#[], #[], #[])⟩
  else
    let a1 := stage1 p w h src
    let a2 := stage2 p w h a1
    let a3 := stage3 p w h a2
    let a4 := stage4 p w h hf a3
    let a6 := stage6 p w h (stage5 p w h a4)
    ⟨w, h, false, src, a1, a2, a3, a4, a6, mapRgb w h a6 (fun x y v => stage9 p w hf x y (stage8 p (stage7 p v)))⟩

/-- Pixel of three planes. -/
def px3 (o : IspOut) (t : Plane × Plane × Plane) (x y : Nat) : Nat × Nat × Nat :=
  (px t.1 o.w o.h x y, px t.2.1 o.w o.h x y, px t.2.2 o.w o.h x y)

/-- Received Y, Cb, Cr of a pixel: two pixels in four bytes, U Y V Y. -/
def yuvAt (o : IspOut) (x y : Nat) : Nat × Nat × Nat :=
  let r := o.src.getD (min y (o.h - 1)) #[]
  (r.getD (2 * x + 1) 0, r.getD (x / 2 * 4) 0, r.getD (x / 2 * 4 + 2) 0)

/-- Format codes of the table "ISP output formats". -/
def fmtNv12 : Nat := 0
def fmtY8 : Nat := 1
def fmtY10 : Nat := 2
def fmtRgb888 : Nat := 3
def fmtRaw16 : Nat := 4
def fmtRgb48 : Nat := 5

/-- Luma, RGB or tap line y of a frame in a format (R150 to R152): tap point 1, 3, 6, 9 or 10, and its SHIFT. -/
def ispLine (p : IspSet) (o : IspOut) (point fmt shift y : Nat) : List Byte :=
  let m := p.le 0x3F90 1
  let range := p.le 0x3F91 1
  let shr (v : Nat) : Nat := min 65535 ((2 * v + 2 ^ shift) / 2 ^ (shift + 1))
  let xs := List.range o.w
  if point == 1 then xs.flatMap (fun (x : Nat) => leBytes 2 (shr (px o.r1 o.w o.h x y)))
  else if point == 3 then xs.flatMap (fun (x : Nat) => leBytes 2 (shr (px o.r3 o.w o.h x y)))
  else if point == 6 then xs.flatMap (fun (x : Nat) => let v := px3 o o.c6 x y; leBytes 2 (shr v.1) ++ leBytes 2 (shr v.2.1) ++ leBytes 2 (shr v.2.2))
  else if point == 9 then xs.flatMap (fun (x : Nat) => let v := px3 o o.c9 x y; leBytes 2 v.1 ++ leBytes 2 v.2.1 ++ leBytes 2 v.2.2)
  else if o.yuv then
    if fmt == fmtY10 then xs.flatMap (fun (x : Nat) => leBytes 2 (4 * (yuvAt o x y).1))
    else if fmt == fmtRgb888 then xs.flatMap (fun (x : Nat) =>
      let v := yuvAt o x y
      let c := yuvToRgb m range v.1 v.2.1 v.2.2
      leBytes 1 c.1 ++ leBytes 1 c.2.1 ++ leBytes 1 c.2.2)
    else xs.flatMap (fun (x : Nat) => leBytes 1 (yuvAt o x y).1)
  else
    if fmt == fmtY10 then xs.flatMap (fun (x : Nat) => leBytes 2 (lumaCode m 1020 0 10 (px3 o o.c9 x y)))
    else if fmt == fmtRgb888 then xs.flatMap (fun (x : Nat) =>
      let v := px3 o o.c9 x y
      let f (v : Nat) := min 255 ((v + 128) / 256)
      leBytes 1 (f v.1) ++ leBytes 1 (f v.2.1) ++ leBytes 1 (f v.2.2))
    else xs.flatMap (fun (x : Nat) => leBytes 1 (luma8 m range (px3 o o.c9 x y)))

/-- NV12 chroma line of lines y and y + 1: interleaved Cb, Cr (R150, R151). -/
def ispChroma (p : IspSet) (o : IspOut) (y : Nat) : List Byte :=
  let m := p.le 0x3F90 1
  let range := p.le 0x3F91 1
  (List.range (o.w / 2)).flatMap (fun i =>
    if o.yuv then
      let a := yuvAt o (2 * i) y
      let b := yuvAt o (2 * i) (y + 1)
      leBytes 1 ((a.2.1 + b.2.1 + 1) / 2) ++ leBytes 1 ((a.2.2 + b.2.2 + 1) / 2)
    else
      let cs := [(0, 0), (1, 0), (0, 1), (1, 1)].map (fun (d : Nat × Nat) => chromaCode m range (px3 o o.c9 (2 * i + d.1) (y + d.2)))
      leBytes 1 ((cs.foldl (fun s c => s + c.1) 0 + 2) / 4) ++ leBytes 1 ((cs.foldl (fun s c => s + c.2) 0 + 2) / 4))

/-! ### Tinder tap stream (R154) -/

/-- The first 2·⌊lines/2⌋ injected lines as the tinder tap presents them. -/
def tinderStream (p : IspSet) (o : IspOut) : List Byte :=
  (List.range o.h).flatMap (fun i =>
    ispLine p o 10 fmtRgb888 0 i ++ ispLine p o 10 fmtY10 0 i ++ ispLine p o 10 fmtNv12 0 i
      ++ (if i % 2 == 1 then ispChroma p o (i - 1) else []))

/-! ### Statistics (R155) -/

/-- A count per bin of a list of bins. -/
def histogram (n : Nat) (bins : List Nat) : List Nat :=
  (bins.foldl (fun (a : Array Nat) b => a.modify b (· + 1)) (Array.replicate n 0)).toList

/-- A 2 × 2 cell: R, B, G, Y and whether it is saturated. -/
def cellAt (p : IspSet) (o : IspOut) (cx cy : Nat) : Nat × Nat × Nat × Nat × Bool :=
  let v := (List.range 4).map (fun i => (cfaColour p.cfa i, px o.r4 o.w o.h (2 * cx + i % 2) (2 * cy + i / 2)))
  let of (c : Nat) : Nat := (v.filter (fun q => q.1 == c)).foldl (fun s q => s + q.2) 0
  (of 0, of 2, (of 1 + 1) / 2, (of 0 + of 1 + of 2 + 2) / 4, v.any (fun q => decide (p.le 0x3FD0 4 % 2 ^ 20 ≤ q.2)))

/-- Division by a power of two, rounded (R142). -/
def shiftRound (v n : Nat) : Nat := (2 * v + 2 ^ n) / 2 ^ (n + 1)

/-- The counted part of a statistics record, from offset 0x1C. -/
def ispStats (p : IspSet) (o : IspOut) : List Byte :=
  let sh := p.le 0x3FCE 1
  if o.yuv then
    let ys := (List.range o.h).flatMap (fun y => (List.range o.w).map (fun x => min 255 (shiftRound (4096 * (yuvAt o x y).1) sh)))
    List.replicate 36 0 ++ (histogram 256 ys).flatMap (leBytes 4) ++ List.replicate (0x3800 - 0x440) 0
  else
    let cw := o.w / 2
    let ch := o.h / 2
    let cells := (List.range ch).flatMap (fun cy => (List.range cw).map (fun cx => (cx, cy, cellAt p o cx cy)))
    let luma := histogram 256 (cells.map (fun c => min 255 (shiftRound c.2.2.2.2.2.1 sh)))
    let chan (f : Nat × Nat × Nat × Nat × Bool → Nat) : List Nat := histogram 64 (cells.map (fun c => min 63 (shiftRound (f c.2.2) (sh + 2))))
    let good := cells.filter (fun c => !c.2.2.2.2.2.2)
    let zones : Array (Nat × Nat × Nat × Nat) := good.foldl (fun a c =>
      a.modify (24 * c.2.1 / max 1 ch * 32 + 32 * c.1 / max 1 cw) (fun z =>
        (z.1 + c.2.2.1 / 256, z.2.1 + c.2.2.2.2.1 / 256, z.2.2.1 + c.2.2.2.1 / 256, z.2.2.2 + 1))) (Array.replicate 768 (0, 0, 0, 0))
    let defects (k : Nat) : Nat := ((List.range o.h).map (fun y => ((List.range o.w).filter (fun x => defectAt p o.w o.h o.r2 x y == k)).length)).foldl (· + ·) 0
    leBytes 4 (cw * ch) ++ leBytes 4 ((cells.filter (fun c => c.2.2.2.2.2.2)).length) ++ leBytes 4 (defects 1) ++ leBytes 4 (defects 2)
      ++ List.replicate 20 0 ++ luma.flatMap (leBytes 4)
      ++ (chan (·.1)).flatMap (leBytes 4) ++ (chan (·.2.2.1)).flatMap (leBytes 4) ++ (chan (·.2.1)).flatMap (leBytes 4)
      ++ zones.toList.flatMap (fun z => leBytes 4 z.1 ++ leBytes 4 z.2.1 ++ leBytes 4 z.2.2.1 ++ leBytes 4 z.2.2.2)
      ++ List.replicate 192 0

/-- Depth of a data type in bits (R116); 8 for YUV422. -/
def typeDepth (dt : Nat) : Nat :=
  match dt with
  | 0x2B => 10
  | 0x2C => 12
  | 0x2D => 14
  | 0x2E => 16
  | _ => 8

/-- Bytes of a line of `w` samples as words for a packing, from groups of bytes. -/
def groupsOf (k : Nat) : Nat → List Byte → List (List Nat)
  | 0, _ => []
  | n + 1, l => (l.take k).map (·.toNat) :: groupsOf k n (l.drop k)

/-- The whole pixels of a long packet's payload (R123; packing of MIPI CSI-2, PRESUMED, log entry 27). For YUV422 the
bytes as received, two to a pixel. -/
def unpackLine (dt : Nat) (data : List Byte) : List Nat :=
  let g (k : Nat) := groupsOf k (data.length / k) data
  match dt with
  | 0x2A => data.map (·.toNat)
  | 0x2B => (g 5).flatMap (fun b => (List.range 4).map (fun i => b.getD i 0 * 4 + b.getD 4 0 / 4 ^ i % 4))
  | 0x2C => (g 3).flatMap (fun b => [b.getD 0 0 * 16 + b.getD 2 0 % 16, b.getD 1 0 * 16 + b.getD 2 0 / 16])
  | 0x2D => (g 7).flatMap (fun b =>
      let x := b.getD 4 0 + 256 * b.getD 5 0 + 65536 * b.getD 6 0
      (List.range 4).map (fun i => b.getD i 0 * 64 + x / 64 ^ i % 64))
  | 0x2E => (g 2).map (fun b => b.getD 0 0 * 256 + b.getD 1 0)
  | _ => (g 4).flatMap id

/-- Samples per pixel of a data type: 2 for YUV422. -/
def samplesPer (dt : Nat) : Nat := if dt == 0x1E then 2 else 1

/-- Value of a padding sample (R124): PAD_VALUE, or for YUV422 its low byte for Y and its high byte for U and V. -/
def padSample (dt pad i : Nat) : Nat := if dt == 0x1E then (if i % 2 == 1 then pad % 256 else pad / 256 % 256) else pad % 2 ^ typeDepth dt

/-- A line of padding. -/
def padLine (dt pad width : Nat) : List Nat := (List.range (width * samplesPer dt)).map (padSample dt pad)

/-- A line padded or cut to WIDTH, with its flags: 1 short, 2 long (R123). -/
def fitLine (dt pad width : Nat) (l : List Nat) : List Nat × Nat :=
  let n := width * samplesPer dt
  if l.length < n then (l ++ (List.range (n - l.length)).map (fun i => padSample dt pad (l.length + i)), 1)
  else if n < l.length then (l.take n, 2)
  else (l, 0)

/-- The bytes of a line in a staging slot (R119). -/
def stageBytes (dt : Nat) (l : List Nat) : List Byte := if dt == 0x1E then l.flatMap (leBytes 1) else l.flatMap (leBytes 2)

end Sys2Proof.Machine
end

