-- ==== Sys2Proof/Machine/StepOps.lean ====
section
/-! DEFINITION. Steps on engines, tiles and Block Movers: the step a unit is to run, its rings and lines, its fetches
and stores, its faults, and memory errors met on the way (R17 to R23, R163 to R166, R303, R309, R330, R340, R404). -/

namespace Sys2Proof.Machine

open Sys2Proof

/-! ### Register blocks of the units -/

/-- First register of a unit's block. -/
def engBase (unit : Nat) : Nat :=
  let n := unit % 256
  match unit / 256 with
  | 3 => Reg.WRP_STATUS n
  | 4 => Reg.PYR_STATUS n
  | 5 => Reg.STR_STATUS n
  | 6 => Reg.FLW_STATUS n
  | 7 => Reg.FTR_STATUS n
  | 8 => Reg.NT_STATUS n
  | _ => Reg.BM_STATUS n

/-- Its ERR register. -/
def engErr (unit : Nat) : Nat := engBase unit + (if unit / 256 == 8 then 0xC else 4)

/-- Show the Domain ID, node slot and tile of the step that a unit takes in its STATUS register. -/
def State.showStep (s : State) (unit domain node tile : Nat) : State :=
  let a := engBase unit
  if decide (3 ≤ unit / 256) && decide (unit / 256 ≤ 9) then
    let s := (s.setFld a ⟨31, 28⟩ domain).setFld a ⟨27, 16⟩ node
    if unit / 256 == 9 then s else s.setFld a ⟨15, 4⟩ tile
  else s

/-- Its counter m. -/
def engCnt (unit m : Nat) : Nat := engBase unit + (if unit / 256 == 8 || unit / 256 == 9 then 0x20 else 0x10) + 4 * m

/-- The counter of steps ended by a fault or cancellation. -/
def endedCnt (unit : Nat) : Nat :=
  engCnt unit (match unit / 256 with
    | 3 | 4 => 4
    | 5 | 6 => 5
    | 7 => 7
    | 8 => 9
    | _ => 3)

/-- The counter of dropped stores, where the unit has one. -/
def droppedCnt (unit : Nat) : Option Nat :=
  match unit / 256 with
  | 3 => some (engCnt unit 4)
  | 4 => some (engCnt unit 3)
  | 5 | 6 => some (engCnt unit 4)
  | 7 => some (engCnt unit 6)
  | 8 => some (engCnt unit 8)
  | _ => none

/-! ### Faults -/

/-- Step faults. -/
inductive StepFault where
  | descInvalid | busErr | lbParity | patParity | slotTimeout | slotOverrun | spmParity
  | residue | expMismatch | accParity | addrFault | descOverlap
  deriving DecidableEq, Repr

/-- CODE of LAST_FAULT, for an engine and for a tile. -/
def StepFault.code (f : StepFault) (tile : Bool) : Nat :=
  match f with
  | .descInvalid => 1
  | .busErr => 2
  | .lbParity => 3
  | .spmParity => 3
  | .slotTimeout => 4
  | .slotOverrun => 5
  | .patParity => 7
  | .residue => if tile then 7 else 0
  | .expMismatch => 8
  | .accParity => 9
  | .addrFault => 10
  | .descOverlap => 11

/-- Bit of the unit's ERR register that a fault sets. -/
def StepFault.errBit (f : StepFault) (cls : Nat) : Option Nat :=
  match cls with
  | 8 =>
    match f with
    | .descInvalid => some 4
    | .descOverlap => some 5
    | .addrFault => some 6
    | .busErr => some 7
    | .spmParity => some 8
    | .accParity => some 9
    | .expMismatch => some 10
    | .residue => some 11
    | _ => none
  | 9 =>
    match f with
    | .descInvalid => some 3
    | .descOverlap => some 4
    | .busErr => some 2
    | .slotTimeout | .slotOverrun => some 0
    | _ => none
  | _ =>
    match f with
    | .descInvalid => some 4
    | .busErr => some 5
    | .lbParity => some 6
    | .patParity => some 7
    | _ => none

/-! ### The step a unit is to run -/

/-- A step: its unit, its instance or tinder job, its rings with the ring frames it uses, and its descriptor. -/
structure StepCtx where
  unit : Nat
  domain : Nat
  slot : Nat
  tile : Nat
  stream : Nat
  seq : Word
  rc : NodeRec
  layer : Nat
  /-- input rings with their ring frames; none for an absent input -/
  ins : List (RingSt × Option Nat)
  outs : List (RingSt × Nat)
  /-- IN_SLOTS and OUT_SLOTS of the dispatch record -/
  inSlots : List Nat
  outSlots : List Nat
  step : Nat
  steps : Nat
  stepAddr : Nat
  /-- matching-store entry; none for a tinder job -/
  entry : Option Nat
  waitNs : Nat
  deriving DecidableEq, Repr

/-- The ring frame of input j of an instance; none when it is absent. -/
def NodeSt.inFrame (n : NodeSt) (i : Inst) (j : Nat) (r : RingSt) : Option Nat :=
  if i.absent.contains j then none
  else if n.rc.periodic then (i.pins.find? (fun p => p.1 == j)).bind (fun p => (r.assigned? p.2).map (·.1))
  else
    match r.k? i.seq with
    | none => none
    | some k => if n.rc.isPrev j then (if k == 0 then none else some (k - 1)) else some k

/-- A ring of no slots, for a position that names none. -/
def RingSt.void : RingSt :=
  { rc := ⟨0, 1, 0, 0, 0, 0, 0, 0, 0, 0, 0⟩, layer := 0, idx := 0xFF, producer := .nobody, perFrame := 1, frameH := 0, stream := 0xFF,
    kOf := [], kNext := 0, assign := [], skipped := [], arrived := [], drained := [], remote := none }

/-- The step of a running instance. -/
def State.instCtx (s : State) (unit : Nat) (i : Inst) (n : NodeSt) : StepCtx :=
  { unit := unit, domain := n.domain, slot := i.node, tile := i.tile, stream := i.stream, seq := i.seq, rc := n.rc, layer := n.layer
    ins := (List.range n.rc.inRings.length).map (fun j =>
      let r := (s.ring? n.layer (n.rc.inRings.getD j 0xFF)).getD RingSt.void
      (r, n.inFrame i j r))
    outs := n.rc.outRings.map (fun o =>
      let r := (s.ring? n.layer o).getD RingSt.void
      (r, (r.k? i.seq).getD 0))
    inSlots := (List.range n.rc.inRings.length).map (fun j =>
      if n.rc.periodic then ((i.pins.find? (fun p => p.1 == j)).map (·.2)).getD 0 else (s.inSlot n i.seq i.tile j).1)
    outSlots := n.rc.outRings.map (fun o =>
      match s.ring? n.layer o, s.outRing0 n with
      | some r, some r0 => r.slotOf ((r.k? i.seq).getD 0) (tileBand n.rc r0.rc i.tile)
      | _, _ => 0)
    step := i.step, steps := n.steps, stepAddr := n.stepAddr, entry := some i.entry, waitNs := n.rc.waitNs }

/-- The expected-value entries that cover a unit, in CHECK_ID order: KIND 0 for a pipe, KIND 1 otherwise (R405). -/
def insertExp (e : ExpRec) : List ExpRec → List ExpRec
  | [] => [e]
  | x :: t => if e.checkId ≤ x.checkId then e :: x :: t else x :: insertExp e t

/-- The rotation of a unit. -/
def State.rotation (s : State) (unit : Nat) : List ExpRec :=
  ((s.flash.expected s.imgRegion).filter (fun e => e.unit == unit && e.kind == (if unit / 256 == 2 then 0 else 1))).foldr insertExp []

/-- The entry whose turn it is. -/
def State.turnOf (s : State) (c : CoverSt) : Option ExpRec :=
  let l := s.rotation c.unit
  l[c.turn % max 1 l.length]?

/-- Offset of entry k of the tinder table: entries follow one another, each with its ring records. -/
def tinderAt (cfg : List Byte) : Nat → Nat → Nat
  | 0, o => o
  | k + 1, o => tinderAt cfg k (o + 16 + 32 * (leAt cfg (o + 4) 1 + leAt cfg (o + 5) 1))

/-- A tinder job: step list, input rings, output rings (R403). -/
def State.tinderJob (s : State) (k : Nat) : Nat × List RingRec × List RingRec :=
  let cfg := s.safety.ember.cfg
  let o := tinderAt cfg k (leAt cfg 0x30 4)
  let ni := leAt cfg (o + 4) 1
  let no := leAt cfg (o + 5) 1
  let rings := (List.range (ni + no)).map (fun i => parseRing ((cfg.drop (o + 16 + 32 * i)).take 32))
  (leAt cfg (o + 2) 2, rings.take ni, rings.drop ni)

/-- A single-slot ring of a tinder job. -/
def tinderRing (rc : RingRec) (i : Nat) : RingSt := { RingSt.void with rc := rc, idx := i, frameH := rc.lines, assign := [(0, 0, 0)] }

/-- The step of a unit's tinder job: its owned rectangle is the whole of each output (R404). -/
def State.tinderCtx (s : State) (c : CoverSt) (e : ExpRec) : StepCtx :=
  let j := s.tinderJob e.pattern
  let r0 := j.2.2.headD RingSt.void.rc
  let sl := (s.flash.stepList? s.imgRegion j.1).getD (0, 0, 0)
  let rc : NodeRec :=
    { slot := e.pattern, cls := classOfUnit c.unit, prio := 0, inRings := List.range j.2.1.length,
      outRings := (List.range j.2.2.length).map (· + j.2.1.length), flow := none, deadlineUs := 0, waitUs := 0, stepList := j.1,
      wcetNs := 0, tiles := 1, rateDiv := 1, tileW := r0.width, tileH := r0.lines, shedClass := 0, periodic := false,
      noAffinity := true, credits := 0, inSpan := [] }
  { unit := c.unit, domain := 1, slot := e.pattern, tile := 0, stream := 0xFF, seq := w32 c.runs, rc := rc, layer := 0
    ins := j.2.1.mapIdx (fun i r => (tinderRing r i, some 0))
    outs := j.2.2.mapIdx (fun i r => (tinderRing r (i + j.2.1.length), 0))
    inSlots := j.2.1.map (fun _ => 0)
    outSlots := j.2.2.map (fun _ => 0)
    step := c.step, steps := sl.2.1, stepAddr := sl.2.2, entry := none, waitNs := 500000 }

/-- The coverage entry of a unit. -/
def State.cover? (s : State) (unit : Nat) : Option CoverSt := s.safety.cover.find? (fun c => c.unit == unit)

/-- Change the coverage entry of a unit. -/
def State.modCover (s : State) (unit : Nat) (f : CoverSt → CoverSt) : State :=
  { s with safety := { s.safety with cover := s.safety.cover.map (fun (c : CoverSt) => if c.unit == unit then f c else c) } }

/-- An Island-owned Check-Value Unit that is free (R404). -/
def State.idleIslandCvu (s : State) : Option Nat :=
  (List.range 8).find? (fun n => s.fld (Reg.CVU_STATUS n) F.CVU_STATUS.OWNER == 1 && s.cvuState n == 0 && !(s.unit (0x0A00 + n)).fenced
    && (s.unit (0x0A00 + n)).heldBy.isNone)

/-- The Safety Manager arms a Check-Value Unit on a unit for an expected-value entry, with MATCH_NODE for a tinder job (R404, R405). -/
def State.armTinder (s : State) (n unit : Nat) (e : ExpRec) (job : Option Nat) : State :=
  let a := Reg.CVU_CTRL n
  let s := ((((s.setReg a 0).setFlag a F.CVU_CTRL.TAP true).setFlag a F.CVU_CTRL.COMPARE true).setFlag a F.CVU_CTRL.MATCH_NODE job.isSome).setFld a
    F.CVU_CTRL.POLY e.poly
  let s := (s.setFld (Reg.CVU_TAP n) F.CVU_TAP.UNIT unit).setFld (Reg.CVU_TAP n) F.CVU_TAP.NODE_SLOT (job.getD 0)
  let s := (s.setReg (Reg.CVU_LENGTH n) (w32 e.length)).setReg (Reg.CVU_EXPECTED n) (w32 e.expected)
  ((s.armTap n unit).modCvu n (fun c => { c with check := e.checkId })).modCover unit (fun c => { c with pending := false, running := true, step := 0, cvu := some n })

/-- The step that a unit is to run now: of its instance, which is not being stopped and has a step left, or of the
tinder job it has taken. -/
def State.ctx? (s : State) (unit : Nat) : Option StepCtx :=
  match (s.unit unit).entry.bind s.entry? with
  | some i =>
    match s.node? i.node with
    | some n => if i.busy && !i.stopping && decide (i.step < n.steps) then some (s.instCtx unit i n) else none
    | none => none
  | none =>
    match s.cover? unit with
    | some c =>
      if c.running && (s.unit unit).heldBy == some 1 then
        ((s.turnOf c).map (s.tinderCtx c)).bind (fun x => if x.step < x.steps then some x else none)
      else none
    | none => none

/-- The issuer of a step's accesses. -/
def StepCtx.issuer (c : StepCtx) : Issuer := ⟨c.unit, c.domain, true⟩

/-- n/t of a step. -/
def StepCtx.nt (c : StepCtx) : Nat := ntWord c.slot c.tile

/-- Address of the descriptor. -/
def StepCtx.descAddr (c : StepCtx) : Nat := c.stepAddr + 64 * c.step

/-- A unit begins or goes on with its step: the instance is running and STATUS names it. -/
def State.beginStep (s : State) (c : StepCtx) : State :=
  let s := match c.entry with
    | some e => s.modInst e (fun i => { i with st := .running })
    | none => s
  let a := engBase c.unit
  let s := (s.setFld a ⟨31, 28⟩ c.domain).setFld a ⟨27, 16⟩ c.slot
  if c.unit / 256 == 9 then s else s.setFld a ⟨15, 4⟩ c.tile

/-! ### Geometry of a step -/

/-- Local address of line y of a ring frame. -/
def lineAddr (r : RingSt) (k y : Nat) : Nat :=
  let L := max 1 r.rc.lines
  ringBase r.rc + r.slotOf k (y / L) * r.rc.slotBytes + y % L * r.rc.pitch

/-- Local address of chroma line yc of an NV12 ring frame. -/
def chromaAddr (r : RingSt) (k yc : Nat) : Nat :=
  let L := max 1 r.rc.lines
  ringBase r.rc + r.slotOf k (2 * yc / L) * r.rc.slotBytes + L * r.rc.pitch + (2 * yc % L) / 2 * r.rc.pitch

/-- First output ring of a step. -/
def StepCtx.out0 (c : StepCtx) : RingSt := (c.outs.headD (RingSt.void, 0)).1

/-- Output j of a step. -/
def StepCtx.out (c : StepCtx) (j : Nat) : RingSt × Nat := c.outs.getD j (RingSt.void, 0)

/-- Input j of a step. -/
def StepCtx.inp (c : StepCtx) (j : Nat) : RingSt × Option Nat := c.ins.getD j (RingSt.void, none)

/-! ### Virtual ring offsets (R282, R335) -/

/-- Bytes of the element region of a slot. -/
def RingRec.elems (r : RingRec) : Nat := max 1 (r.lines * r.pitch)

/-- Slot and in-slot offset of virtual offset v counted from a slot. -/
def RingRec.virt (r : RingRec) (s0 v : Nat) : Nat × Nat := ((s0 + v / r.elems) % max 1 r.slotCount, v % r.elems)

/-- The model's address of an in-slot offset; a peer ring lies on the device that holds it (R458). -/
def State.ringAddr (s : State) (r : RingSt) (slot o : Nat) : Nat :=
  let a := ringBase r.rc + slot * r.rc.slotBytes + o
  match r.remote with
  | some e => s.placeOn e a
  | none => a

/-- A run of virtual bytes, split where it leaves a slot: (slot, in-slot offset, bytes). -/
def virtRuns (r : RingRec) (s0 : Nat) : Nat → Nat → Nat → List (Nat × Nat × Nat)
  | 0, _, _ => []
  | fuel + 1, v, len =>
    if len = 0 then []
    else
      let p := r.virt s0 v
      let n := min len (r.elems - p.2)
      (p.1, p.2, n) :: virtRuns r s0 fuel (v + n) (len - n)

/-- Band of the step's owned rectangle. -/
def StepCtx.band (c : StepCtx) : Nat := tileBand c.rc c.out0.rc c.tile

/-- The owned rectangle in output j, in frame coordinates: columns x0 to x1, lines y0 to y1, ends excluded. -/
def StepCtx.rect (c : StepCtx) (j : Nat) : Nat × Nat × Nat × Nat :=
  let r := (c.out j).1.rc
  let q := ownedRect c.rc c.out0.rc r c.tile
  (q.1, q.2.1, c.band * r.lines + q.2.2.1, c.band * r.lines + q.2.2.2)

/-- The numbers from a to b, b excluded. -/
def span (a b : Nat) : List Nat := (List.range (b - a)).map (a + ·)

/-! ### Memory errors (R303, R312, R339, R340) -/

/-- Bank pair of a Frame Store address (R302). -/
def pairOf (a : Nat) : Nat := 4 * ((a - addrFs) / 0x2000000) + (a - addrFs) / 256 % 8 / 2

/-- A corrected Frame Store, local-memory or LPDDR5X word (R303, R340, R370), or an error of the weight cache, which is no fault
of its reader (R324). -/
def State.eccCorrected (s : State) (a : Nat) : State :=
  if inRange a addrFs fsBytes then
    let s := (s.event Reg.MC_FS_EVENT F.MC_FS_EVENT.CE).addCnt (Reg.MC_FS_CNT 0) 1
    ({ s with adapt := { s.adapt with corrFs := s.adapt.corrFs + 1 } }).keepCe (0x0E00 + pairOf a) 64
  else if inRange a addrLp 0x1000000000 then
    if s.mm.wcLines.contains (a / 256 * 256) then
      { s.addCnt (Reg.MC_WC_CNT 3) 1 with adapt := { s.adapt with corrWc := s.adapt.corrWc + 1 } }
    else
      let n := s.mcOf (a - addrLp)
      { (s.event (Reg.MC_ECC_EVENT n) F.MC_ECC_EVENT.CE).addCnt (Reg.MC_CNT n 0) 1 with adapt := { s.adapt with corrLp := s.adapt.corrLp + 1 } }
  else if inRange a addrLocal 0x100000 then
    let n := (a - addrLocal) / 0x40000
    ((s.event (Reg.SYS_PC_ERR n) F.SYS_PC_ERR.LM_CE).addCnt (Reg.SYS_PC_LM_CNT n) 1).keepCe (0x0B00 + n) 1024
  else s

/-- The section loaded over an LPDDR5X address waits to be reloaded (R340). -/
def State.wantReload (s : State) (a : Nat) : State :=
  match (s.flash.sections s.imgRegion).find? (fun e => loadsToLpddr e.type && decide (e.load ≤ a) && decide (a < e.load + e.size)) with
  | some e => if s.mm.reloads.contains e.pos then s else { s with mm := { s.mm with reloads := s.mm.reloads ++ [e.pos] } }
  | none => s

/-- An uncorrectable word read by a domain; `seq` is the frame sequence for a doubt. True when the reader gets a UE
error response: an error of the weight cache only refetches the line (R324). -/
def State.eccUncorrected (s : State) (c : Issuer) (a : Nat) (seq : Word) : State × Bool :=
  if inRange a addrFs fsBytes then
    let p := pairOf a
    let s := (s.event Reg.MC_FS_EVENT F.MC_FS_EVENT.UE).addCnt (Reg.MC_FS_CNT 1) 1
    let u := Reg.MC_FS_UE_ADDR
    let s := if s.flag u F.MC_FS_UE_ADDR.VALID then s
      else (s.setFlag u F.MC_FS_UE_ADDR.VALID true).setFld u F.MC_FS_UE_ADDR.WORD ((a - addrFs) / 8)
    let s := s.log (0x0E00 + p) 0x0601 1 c.domain 0xFF a (a / 2 ^ 32) c.initiator
    let s := if isSafety c.domain then s.doubt 3 (0x0E00 + p) c.domain seq else s
    let again : Bool := match assocGet s.mm.ueAt p with
      | some t => decide (s.now ≤ t + 1000000000)
      | none => false
    let s := { s with mm := { s.mm with ueAt := assocPut s.mm.ueAt p s.now } }
    (if again then s.fence (0x0E00 + p) 3 else s, true)
  else if inRange a addrLp 0x1000000000 then
    if s.mm.wcLines.contains (a / 256 * 256) then
      let s := s.addCnt (Reg.MC_WC_CNT 3) 1
      ({ s with mm := { s.mm with wcLines := s.mm.wcLines.filter (· != a / 256 * 256) }, adapt := { s.adapt with corrWc := s.adapt.corrWc + 1 } }, false)
    else
      let n := s.mcOf (a - addrLp)
      let s := (s.event (Reg.MC_ECC_EVENT n) F.MC_ECC_EVENT.UE).addCnt (Reg.MC_CNT n 1) 1
      let h := Reg.MC_UE_ADDR_HI n
      let s := if s.flag h F.MC_UE_ADDR_HI.VALID then s
        else ((s.setFlag h F.MC_UE_ADDR_HI.VALID true).setFld h F.MC_UE_ADDR_HI.ADDR_HI (a / 2 ^ 32)).setReg (Reg.MC_UE_ADDR_LO n) (w32 a)
      let s := s.log (0x0C00 + n) 0x0601 1 c.domain 0xFF a (a / 2 ^ 32) c.initiator
      let s := if isSafety c.domain then s.doubt 3 (0x0C00 + n) c.domain seq else s
      ((s.recur (0x0C00 + n) 6).wantReload a, true)
  else (s, true)

/-- The ECC outcomes that a run of reads meets: the first address with an uncorrectable word. -/
def State.eccHits (s : State) (c : Issuer) (seq : Word) (hits : List EccHit) : State × Option Nat :=
  hits.foldl (fun p h =>
    if h.ue then
      let q := p.1.eccUncorrected c h.addr seq
      (q.1, match p.2 with
        | some a => some a
        | none => if q.2 then some h.addr else none)
    else (p.1.eccCorrected h.addr, p.2)) (s, none)

/-! ### Ending a step by a fault -/

/-- A Block Mover halts on an error response (R337). -/
def State.haltMover (s : State) (unit addr : Nat) (write : Bool) : State :=
  let n := unit % 256
  let h := Reg.BM_FAULT_HI n
  let s := (s.setReg (Reg.BM_FAULT_LO n) (w32 addr)).setReg h 0
  ((s.setFlag h F.BM_FAULT_HI.VALID true).setFlag h F.BM_FAULT_HI.WRITE write).setFld h F.BM_FAULT_HI.ADDR_HI (addr / 2 ^ 32)

/-- A pyramid engine that is cancelled or stopped loses its carry history (R180). -/
def State.dropCarry (s : State) (unit : Nat) : State :=
  if unit / 256 == 4 then { s with carry := s.carry.mapIdx (fun i x => if i == unit % 256 then none else x) } else s

/-- The instance of a faulted step is cancelled, or its tinder job aborted; the unit has stopped (R109, R165, R330). -/
def State.endByFault (s : State) (c : StepCtx) : State :=
  let s := (s.addCnt (endedCnt c.unit) 1).tapAbort c.unit c.domain c.slot
  let s := ((s.modUnit c.unit (fun u => { u with hold := none })).endRemote c.unit).dropCarry c.unit
  match c.entry with
  | some e => (s.modInst e (fun i => { i with stopping := true })).cancelNow e
  | none => s.modCover c.unit (fun x => { x with step := c.steps })

/-- Pattern memory parity: a second within 1 s of the first fences the engine (R233). -/
def State.patternParity (s : State) (unit : Nat) : State :=
  let again : Bool := match assocGet s.mm.spmAt (256 + unit) with
    | some t => decide (s.now ≤ t + 1000000000)
    | none => false
  let s1 : State := { s with mm := { s.mm with spmAt := assocPut s.mm.spmAt (256 + unit) s.now } }
  let s2 := s1.recur unit 2
  match again with
  | true => s2.fence unit 3
  | false => s2

/-- A step ends with a fault (R165, R256, R309, R334, R337). -/
def State.stepFault (s : State) (c : StepCtx) (f : StepFault) (addr : Nat) (write : Bool) : State :=
  let cls := c.unit / 256
  let s := match f.errBit cls with
    | some b => s.event (engErr c.unit) ⟨b, b⟩
    | none => s
  let code := f.code (cls == 8)
  let s := if cls == 9 then s
    else
      let a := engBase c.unit + (if cls == 8 then 0x14 else 0xC)
      let s := ((s.setFld a ⟨31, 28⟩ code).setFld a ⟨27, 16⟩ c.slot).setFld a ⟨11, 0⟩ c.tile
      let s := if cls == 8 then s.setFld (Reg.NT_FAULT_STEP (c.unit % 256)) F.NT_FAULT_STEP.STEP c.step else s
      s.log c.unit 0x0501 1 c.domain c.stream code c.nt addr
  let seqDoubt (s : State) : State := if isSafety c.domain then s.doubt 2 c.unit c.domain c.seq else s
  let s : State := match f with
    | .residue | .expMismatch | .accParity => (seqDoubt s).recur c.unit 1
    | .lbParity => s.recur c.unit 2
    | .patParity => s.patternParity c.unit
    | .busErr => if cls == 9 then (s.haltMover c.unit addr write).recur c.unit 3 else s
    | _ => s
  s.endByFault c

/-- A scratchpad word of tile n found with bad parity: true when it is the second within 1 s (R313). -/
def State.noteSpm (s : State) (n : Nat) : State × Bool :=
  let again : Bool := match assocGet s.mm.spmAt n with
    | some t => decide (s.now ≤ t + 1000000000)
    | none => false
  ({ s with mm := { s.mm with spmAt := assocPut s.mm.spmAt n s.now } }, again)

/-- A reader other than the tile meets a scratchpad parity error at an address: an error response (R312); a second on
one tile within 1 s fences the tile (R313). -/
def State.spmRemote (s : State) (a : Nat) : State :=
  let n := (a - addrSpm) / 0x800000 % 16
  match s.noteSpm n with
  | (s, true) => s.fence (0x0800 + n) 3
  | (s, false) => s

/-- The fault that an operand reports, with the memory errors that go with it: true when the step may go on. -/
def State.meetErr (s : State) (c : StepCtx) (e : StepErr) : State × Bool :=
  match e with
  | .ok => (s, true)
  | .bus a w => (s.stepFault c .busErr a w, false)
  | .ecc hits =>
    match s.eccHits c.issuer c.seq hits with
    | (s, none) => (s, true)
    | (s, some a) => (s.stepFault c .busErr a false, false)
  | .lbParity => if decide (3 ≤ c.unit / 256) && decide (c.unit / 256 ≤ 7) then (s.stepFault c .lbParity 0 false, false) else (s, true)
  | .patParity => if c.unit / 256 == 7 then (s.stepFault c .patParity 0 false, false) else (s, true)
  | .spmParity a => if c.unit / 256 == 8 then (s, true) else ((s.spmRemote a).stepFault c .busErr a false, false)
  | _ => (s, true)

/-! ### Fetching and storing -/

/-- An access of a step is not served: it is held when a slot refuses it, else the step ends with BUS_ERR (R165, R309). -/
def State.stepRefused (s : State) (c : StepCtx) (e : AccErr) (addr : Nat) (write : Bool) : State :=
  if e == .slot || e == .pending then
    let u := s.unit c.unit
    match u.hold with
    | some h =>
      let s := if e == .slot && h.addr != addr then s.addCnt (Reg.MC_FS_CNT 4) 1 else s
      s.setUnit { u with hold := some { h with write := write, addr := addr, waiting := true } }
    | none =>
      let s := if e == .slot then s.addCnt (Reg.MC_FS_CNT 4) 1 else s
      s.setUnit { u with hold := some ⟨s.now, write, addr, true⟩ }
  else s.stepFault c .busErr addr write

/-- Fetch the step's descriptor: none when the fetch was not served. -/
def State.fetchDesc (s : State) (c : StepCtx) : State × Option (List Byte) :=
  match s.judgeReads c.issuer [(c.descAddr, 64)] (c.unit / 256 == 8) with
  | (s, none) => (s, some (Memory.bytes s.mem c.descAddr 64))
  | (s, some (e, a)) => (s.stepRefused c e a false, none)

/-- Fetch runs of bytes: false when one was not served. -/
def State.fetchRuns (s : State) (c : StepCtx) (rs : List (Nat × Nat)) : State × Bool :=
  match s.judgeReads c.issuer rs false with
  | (s, none) => (s, true)
  | (s, some (e, a)) => (s.stepRefused c e a false, false)

/-- Store what a step has computed: none written when one store is not served. -/
def State.storeRuns (s : State) (c : StepCtx) (ws : List (Nat × List Byte)) : State × Bool :=
  match s.judgeWrites c.issuer ws with
  | (s, none) => (s.writes ws, true)
  | (s, some (e, a)) => (s.stepRefused c e a true, false)

/-- A step is complete: its counter rises, its kept stores go to a tap, and the next step is due; LAST ends the list. -/
def State.stepDone (s : State) (c : StepCtx) (last : Bool) (stores : List Byte) : State :=
  let s := (s.addCnt (engCnt c.unit 0) 1).tapStream c.unit c.domain c.slot stores
  let s := (s.modUnit c.unit (fun u => { u with hold := none, lastDomain := c.domain })).endRemote c.unit
  match c.entry with
  | some e => s.modInst e (fun i => { i with step := if last then max c.steps (i.step + 1) else i.step + 1 })
  | none => s.modCover c.unit (fun x => { x with step := if last then max c.steps (x.step + 1) else x.step + 1 })

/-- The instance's output bands will carry the input-flagged mark. -/
def State.flagStep (s : State) (c : StepCtx) : State :=
  match c.entry with
  | some e => s.modInst e (fun i => { i with inputFlagged := true })
  | none => s

/-- Count dropped stores. -/
def State.dropStores (s : State) (c : StepCtx) (n : Nat) : State :=
  if n == 0 then s
  else
    let s := match droppedCnt c.unit with
      | some r => s.addCnt r n
      | none => s
    s.event (engErr c.unit) (if c.unit / 256 == 8 then ⟨3, 3⟩ else ⟨1, 1⟩)

/-- Run one vision-engine step: fetch and check the descriptor, then do what `run` says with it. A descriptor that is
valid but of another operation is not this command's. -/
def State.engineStep (s : State) (unit : Nat) (err : StepErr) (valid : State → StepCtx → List Byte → Bool) (mine : Nat → Bool)
    (run : State → StepCtx → List Byte → State) : State :=
  match s.ctx? unit with
  | none => s
  | some c =>
    let d := Memory.bytes s.mem c.descAddr 64
    if valid s c d && !mine (leAt d 0 1) then s
    else
      let s := s.beginStep c
      match s.meetErr c err with
      | (s, false) => s
      | (s, true) =>
        match s.fetchDesc c with
        | (s, none) => s
        | (s, some d) => if valid s c d then run s c d else s.stepFault c .descInvalid c.descAddr false

end Sys2Proof.Machine
end

