-- ==== Sys2Proof/Machine/Sequencer.lean ====
section
/-! DEFINITION. The commands of the Frame-Graph Sequencer (spec/04): token lookup, admission, dispatch, completion,
release, deadlines, timeouts and the deadlock search. -/

namespace Sys2Proof.Machine

open Sys2Proof

/-! ### Ticks (R105) -/

/-- The tick period in force. -/
def State.tickNs (s : State) : Nat := max 1 (s.fld Reg.FGS_TICK F.FGS_TICK.TICK_NS)

/-- The first tick at or after an instant. Ticks fall at multiples of TICK_NS (log entry 11). -/
def State.tickAt (s : State) (t : Nat) : Nat := ceilDiv t s.tickNs * s.tickNs

/-- Let an event due at an instant take effect at its tick. -/
def State.reachTick (s : State) (t : Nat) : State := s.reach (s.tickAt t)

/-! ### Token lookup (R89 to R91) -/

/-- The record of a token: token [63:32], token [31:0], operand, kind and Domain ID. -/
def State.logToken (s : State) (code cls : Nat) (t : Token) : State :=
  let hi := t.node * 1048576 + t.stream * 4096 + t.seq.toNat / 1048576
  let lo := t.seq.toNat % 1048576 * 4096 + t.tile
  s.log srcFgs code cls t.domain t.stream hi lo (t.operand + t.kind * 16 + t.domain * 256)

/-- Tell a firmware poster its result (FGS_POST_RESULT). -/
def State.postResult (s : State) (t : Token) (r : Nat) : State :=
  match t.poster with
  | none => s
  | some b =>
    let a := bankOff b Reg.FGS_POST_RESULT
    (s.setFld a F.FGS_POST_RESULT.RESULT r).setFlag a F.FGS_POST_RESULT.BUSY false

/-- Drop a token at a bound node: for R66 the drop counts as its arrival. -/
def State.dropToken (s : State) (n : NodeSt) (t : Token) : State :=
  (s.arrive n t.seq t.tile t.operand).postResult t 4

/-- Set an operand of an entry. -/
def State.setOperand (s : State) (n : NodeSt) (e : Nat) (t : Token) : State :=
  ((s.modInst e (fun i => { i with ops := i.ops ++ [t.operand] })).arrive n t.seq t.tile t.operand).postResult t 0

/-- Whether a bound, running scene switch is in progress. -/
def State.switching (s : State) : Bool := s.scene.switch.isSome

/-- The first row of the table "Token outcomes" that matches, applied (R91). -/
def State.lookupToken (s : State) (t : Token) : State :=
  if decide (24 ≤ t.stream) && decide (t.stream ≤ 254) then (s.logToken 0x0305 1 t).postResult t 4
  else
    match s.node? t.node with
    | none =>
      let s := s.event Reg.FGS_EVENT F.FGS_EVENT.UNKNOWN_NODE
      (if s.switching then s else s.logToken 0x0301 0 t).postResult t 4
    | some n =>
      if n.rc.periodic || n.peer.isSome || s.fgs.closed.contains n.layer then
        let s := s.event Reg.FGS_EVENT F.FGS_EVENT.UNKNOWN_NODE
        (if s.switching then s else s.logToken 0x0301 0 t).postResult t 4
      else if t.domain != n.domain then
        ((s.event Reg.FGS_EVENT F.FGS_EVENT.NOT_OWNER).logToken 0x0302 1 t).postResult t 3
      else if !s.runsOn n t.seq then s.dropToken n t
      else if n.retired.any (fun r => !seqNewer t.seq r) then
        ((s.event Reg.FGS_EVENT F.FGS_EVENT.STALE_TOKEN).logToken 0x0303 0 t).dropToken n t
      else
        match s.inst? t.node t.seq t.tile with
        | some i =>
          if i.st == .cancelled || i.stopping then s.dropToken n t
          else if i.ops.contains t.operand then
            ((s.event Reg.FGS_EVENT F.FGS_EVENT.DUP_TOKEN).logToken 0x0304 1 t).postResult t 4
          else if t.kind == 1 then ((s.arrive n t.seq t.tile t.operand).cancel i.entry).postResult t 0
          else s.setOperand n i.entry t
        | none =>
          let held := if t.reserved then [] else s.promised
          let newSeq := !s.seqEntries.contains (t.node, t.seq)
          let heldD := (seqsOf held).filter (fun k => !s.seqEntries.contains k)
          if t.kind != 1 && !t.reserved && decide (4096 ≤ s.storeUsed + held.length) then
            (((s.event Reg.FGS_EVENT F.FGS_EVENT.REFUSED).addCnt (Reg.FGS_CNT 0) 1)).postResult t 1
          else if t.kind != 1 && !t.reserved && newSeq && decide (1024 ≤ s.delayUsed + heldD.length) then
            ((((s.event Reg.FGS_EVENT F.FGS_EVENT.REFUSED).event Reg.FGS_EVENT F.FGS_EVENT.DELAY_FULL).addCnt (Reg.FGS_CNT 0) 1)).postResult t 2
          else
            let s := s.createEntry n t.seq t.tile t.stream
            match s.inst? t.node t.seq t.tile with
            | none => s
            | some i =>
              if t.kind == 1 then ((s.arrive n t.seq t.tile t.operand).cancelNow i.entry).postResult t 0
              else s.setOperand n i.entry t

/-- TOKEN_LOOKUP (R91). -/
def execTokenLookup (s : State) : Res :=
  match s.fgs.tokens with
  | [] => .next s
  | t :: rest => .next ({ s with fgs := { s.fgs with tokens := rest } }.lookupToken t)

/-! ### Admission (R88, R96) -/

/-- The flow window lets an instance in (R104). -/
def State.inWindow (s : State) (n : NodeSt) (i : Inst) : Bool :=
  match s.flowOf? n, i.flowPos with
  | some f, some p => decide ((p - f.head).toNat < f.rc.window)
  | _, _ => true

/-- An output slot is free or already assigned to the instance's ring frame. -/
def State.outputOk (s : State) (n : NodeSt) (i : Inst) (o : Nat) : Bool :=
  match s.ring? n.layer o, s.outRing0 n with
  | some r, some r0 =>
    match r.k? i.seq with
    | none => true
    | some k =>
      let b := tileBand n.rc r0.rc i.tile
      let sl := r.slotOf k b
      r.assigned? sl == some (k, b) || (s.slotFlag (r.flagIdx sl)).free r.rc.consumers
  | _, _ => true

/-- Free slots of a ring. -/
def State.freeSlots (s : State) (r : RingSt) : Nat :=
  ((List.range r.rc.slotCount).filter (fun sl => (s.slotFlag (r.flagIdx sl)).free r.rc.consumers)).length

/-- The credit test of R88. -/
def State.creditOk (s : State) (n : NodeSt) (i : Inst) : Bool :=
  if n.rc.credits == 0 then true
  else
    match s.outRing0 n with
    | none => true
    | some r0 =>
      match r0.k? i.seq with
      | none => true
      | some k =>
        let b := tileBand n.rc r0.rc i.tile
        if r0.assigned? (r0.slotOf k b) == some (k, b) then true
        else
          let oldest := (s.fgs.insts.filter (fun x => x.live && x.node == i.node)).all (fun x => !seqNewer i.seq x.seq)
          decide ((if oldest then 0 else n.rc.credits) < s.freeSlots r0)

/-- Each declared previous-frame slot is FULL, VOID or non-existent (R96). -/
def State.prevOk (s : State) (n : NodeSt) (i : Inst) : Bool :=
  (List.range n.rc.inRings.length).all (fun j =>
    if !n.rc.isPrev j then true
    else
      match s.ring? n.layer (n.rc.inRings.getD j 0xFF) with
      | none => true
      | some r =>
        match r.k? i.seq with
        | none => true
        | some 0 => true
        | some (k + 1) =>
          let d := s.declared n i.tile j
          (List.range (d.2.2 + 1 - d.2.1)).all (fun x =>
            let b := d.2.1 + x
            let sl := r.slotOf k b
            r.skipped.contains (k, b) ||
              (match r.assigned? sl with
               | some (k', b') =>
                 if (k', b') == (k, b) then
                   let st := (s.slotFlag (r.flagIdx sl)).state
                   st == slotFull || st == slotVoid || st == slotEmpty
                 else decide (k * r.perFrame + b < k' * r.perFrame + b')
               | none => false)))

/-- Admit an instance when R96 allows: free output slots become assigned to its ring frame and it enters its
ready list. -/
def State.admitEntry (s : State) (e : Nat) : State :=
  match s.entry? e with
  | none => s
  | some i =>
    match s.node? i.node with
    | none => s
    | some n =>
      if i.st == .waiting && decide (i.need ≤ i.ops.length) && s.inWindow n i
          && n.rc.outRings.all (fun o => s.outputOk n i o) && s.creditOk n i && s.prevOk n i then
        let s := n.rc.outRings.foldl (fun s o =>
          match s.ring? n.layer o, s.outRing0 n with
          | some r, some r0 =>
            match r.k? i.seq with
            | none => s
            | some k =>
              let b := tileBand n.rc r0.rc i.tile
              if r.assigned? (r.slotOf k b) == some (k, b) then s
              else s.assignSlot r k b i.seq (rectsOfBand n.rc r0.rc b)
          | _, _ => s) s
        let s := s.modInst e (fun x => { x with st := .ready, order := s.fgs.orderNext })
        { s with fgs := { s.fgs with orderNext := s.fgs.orderNext + 1 } }
      else s

/-- A flag word fails uncorrectably (R305): its slot is VOID, its declaring consumers get void tokens, and a
safety-partition ring raises a doubt. -/
def State.flagUe (s : State) (idx : Nat) : State :=
  let s := (s.event Reg.MC_FS_EVENT F.MC_FS_EVENT.FLAG_UE).log srcFgs 0x0602 1 0 0xFF idx 0 0
  match s.fgs.rings.find? (fun r => decide (r.rc.flagBase ≤ idx) && decide (idx < r.rc.flagBase + r.rc.slotCount)) with
  | none => s
  | some r =>
    let f := s.slotFlag idx
    let s := s.modFlag idx (fun f => { f with state := slotVoid, drainLeft := 0 })
    let s := match r.assigned? (idx - r.rc.flagBase) with
      | some (k, b) => s.post (s.slotTokens r b ((r.seqOf? k).getD f.seq) 1)
      | none => s
    match s.layer? r.layer with
    | some l => if isSafety l.rc.partition then s.doubt 4 srcFgs l.rc.partition f.seq else s
    | none => s

/-- The optional flag error a command met. -/
def State.metFlagUe (s : State) (u : Option (Fin 262144)) : State :=
  match u with
  | some i => s.flagUe i.val
  | none => s

/-- INSTANCE_ADMIT (R96). -/
def execInstanceAdmit (entry : Fin 4096) (flagUe : Option (Fin 262144)) (s : State) : Res :=
  .next ((s.metFlagUe flagUe).admitEntry entry.val)

/-! ### Dispatch (R99 to R102) -/

/-- Class byte and number of units of an engine class (R99). -/
def classUnits (c : Nat) : Nat × Nat :=
  match c with
  | 0 => (0x0300, 4)
  | 1 => (0x0400, 4)
  | 2 => (0x0500, 4)
  | 3 => (0x0600, 4)
  | 4 => (0x0700, 4)
  | 5 => (0x0800, 16)
  | 6 => (0x0900, 8)
  | _ => (0x0B00, 4)

/-- A unit is free: it holds no instance and is neither fenced nor gated, nor held by a tinder job or slice (R99). -/
def State.unitFree (s : State) (code : Nat) : Bool :=
  let u := s.unit code
  u.entry.isNone && !u.fenced && !u.gated && u.heldBy.isNone && !(code / 256 == 9 && s.flag (Reg.BM_FAULT_HI (code % 256)) F.BM_FAULT_HI.VALID) &&
    (match pcOf code with
     | some n => (s.core n).insts.isEmpty && !(s.core n).halted && !s.flag (Reg.FGS_PC_DISP0 n) F.FGS_PC_DISP0.VALID
     | none => true)

/-- The units that a node's layer names, of its class. -/
def State.unitsOf (s : State) (n : NodeSt) : List Nat :=
  let cu := classUnits n.rc.cls
  match s.layer? n.layer with
  | some l => ((List.range cu.2).map (cu.1 + ·)).filter (maskNames l.rc.unitMask)
  | none => []

/-- The free units an instance may use, lowest first. -/
def State.freeUnitsOf (s : State) (n : NodeSt) : List Nat := (s.unitsOf n).filter s.unitFree

/-- `a` stands before `b` in one ready list: reruns at the head, the latest first; then order of admission. -/
def listBefore (a b : Inst) : Bool :=
  match a.st, b.st with
  | .rerun, .rerun => decide (b.order < a.order)
  | .rerun, _ => true
  | _, .rerun => false
  | _, _ => decide (a.order < b.order)

/-- Insert an instance into a ready list. -/
def insertReady (i : Inst) : List Inst → List Inst
  | [] => [i]
  | x :: t => if listBefore i x then i :: x :: t else x :: insertReady i t

/-- The ready list of a class and priority, head first (R98, R99). -/
def State.readyList (s : State) (cls prio : Nat) : List Inst :=
  (s.fgs.insts.filter (fun i => (i.st == .ready || i.st == .rerun) && !i.stopping &&
    ((s.node? i.node).map (fun n => n.rc.cls == cls && n.rc.prio == prio)).getD false)).foldr insertReady []

/-- The ready instances of a class in the order in which a unit is offered to them. -/
def State.offerOrder (s : State) (cls : Nat) : List Inst :=
  [7, 6, 5, 4, 3, 2, 1, 0].flatMap (s.readyList cls)

/-- The preferred unit of a node is busy: named, not fenced, and holding an instance. -/
def State.preferredBusy (s : State) (n : NodeSt) : Bool :=
  match n.preferred with
  | some u => (s.unitsOf n).contains u && !(s.unit u).fenced && !(s.unit u).gated && !s.unitFree u
  | none => false

/-- An affinity hold begins for an instance (R101). -/
def State.shouldHold (s : State) (n : NodeSt) (i : Inst) : Bool :=
  s.preferredBusy n && !n.rc.noAffinity && i.st != .rerun && !i.holdOver
    && !(s.reg Reg.FGS_AFFINITY).getLsbD (16 + n.rc.cls) && s.fld Reg.FGS_AFFINITY F.FGS_AFFINITY.WINDOW != 0
    && decide (s.delayUsed < 1024) && decide (s.now < n.deadline i.ts - n.rc.wcetNs)

/-- When an affinity hold begun now ends at the latest. -/
def State.holdEnd (s : State) (n : NodeSt) (i : Inst) : Nat :=
  min (s.now + 100 * s.fld Reg.FGS_AFFINITY F.FGS_AFFINITY.WINDOW) (n.deadline i.ts - n.rc.wcetNs)

/-- What an offered unit does with one instance: take it, pass it over, or hold it for its preferred unit. -/
inductive Offer where
  | take | pass | hold
  deriving DecidableEq, Repr

/-- Judge one instance against an offered unit (R98, R99, R101). -/
def State.offer (s : State) (unit : Nat) (n : NodeSt) (i : Inst) : Offer :=
  let free := s.freeUnitsOf n
  if !free.contains unit then .pass
  else if i.st == .rerun then
    match i.unit with
    | some u => if u == unit || ((s.unit u).fenced && free.head? == some unit) then .take else .pass
    | none => if free.head? == some unit then .take else .pass
  else if n.preferred == some unit then .take
  else if (n.preferred.map free.contains).getD false then .pass
  else if i.holdDue.isSome then .pass
  else if s.shouldHold n i then .hold
  else if free.head? == some unit then .take else .pass

/-- The first instance that takes an offered unit, and the entries that begin a hold on the way. -/
def State.pick (s : State) (unit : Nat) : List Inst → List Nat → Option (Inst × NodeSt) × List Nat
  | [], held => (none, held)
  | i :: t, held =>
    match s.node? i.node with
    | none => s.pick unit t held
    | some n =>
      match s.offer unit n i with
      | .take => (some (i, n), held)
      | .pass => s.pick unit t held
      | .hold => s.pick unit t (held ++ [i.entry])

/-- Start the holds of R101. -/
def State.startHolds (s : State) (es : List Nat) : State :=
  es.foldl (fun s e =>
    match (s.entry? e).bind (fun i => (s.node? i.node).map (fun n => (i, n))) with
    | some (i, n) => (s.modInst e (fun x => { x with holdDue := some (s.holdEnd n i) })).noteHwm
    | none => s) s

/-- The newest FULL slot of a ring: of the newest ring frame, its last band (R69). -/
def State.newestFull (s : State) (r : RingSt) : Option Nat :=
  (r.assign.foldl (fun (b : Option (Nat × Nat)) x =>
    let key := x.2.1 * r.perFrame + x.2.2
    if (s.slotFlag (r.flagIdx x.1)).state == slotFull && (b.map (fun y => decide (y.2 < key))).getD true then some (x.1, key)
    else b) none).map (·.1)

/-- Pin the newest FULL slot of each input ring for a periodic instance (R69). -/
def State.pinInputs (s : State) (n : NodeSt) (e : Nat) : State :=
  (List.range n.rc.inRings.length).foldl (fun s j =>
    match s.ring? n.layer (n.rc.inRings.getD j 0xFF) with
    | none => s.modInst e (fun i => { i with absent := i.absent ++ [j] })
    | some r =>
      match s.newestFull r with
      | some sl => (s.modFlag (r.flagIdx sl) SlotFlag.pin).modInst e (fun i => { i with pins := i.pins ++ [(j, sl)] })
      | none => s.modInst e (fun i => { i with absent := i.absent ++ [j] })) s

/-- Some slot that an instance reads carries the input-flagged mark (R15). -/
def State.readsFlagged (s : State) (n : NodeSt) (i : Inst) : Bool :=
  (s.declaredSlots n i.seq i.tile).any (fun x =>
    match s.ring? n.layer x.2.1 with
    | some r => let f := s.slotFlag (r.flagIdx x.2.2); f.state == slotFull && f.inputFlagged
    | none => false)
  || i.pins.any (fun p =>
    match s.ring? n.layer (n.rc.inRings.getD p.1 0xFF) with
    | some r => (s.slotFlag (r.flagIdx p.2)).inputFlagged
    | none => false)

/-- Input positions that are absent at dispatch (R67, R69). -/
def State.absentInputs (s : State) (n : NodeSt) (i : Inst) : List Nat :=
  if n.rc.periodic then i.absent
  else (List.range n.rc.inRings.length).filter (fun j => n.rc.isPrev j && (s.inSlot n i.seq i.tile j).2)

/-- The input whose absence ends an instance at once: any for WRP, PYR, BM and a FEATURE list, any but a previous-frame
input for STR, FLW and a MATCH list (R164, R200, R208, R240, R332). -/
def State.endingAbsent (s : State) (n : NodeSt) (absent : List Nat) : Option Nat :=
  let c := n.rc.cls
  if decide (c ≤ 1) || c == 6 || (c == 4 && (s.byte n.stepAddr).toNat != 0x41) then absent.head?
  else if decide (c ≤ 4) then absent.find? (fun j => !n.rc.isPrev j)
  else none

/-- Bookkeeping of a dispatch common to every class. -/
def State.dispatchTo (s : State) (unit : Nat) (i : Inst) (n : NodeSt) : State :=
  let restart := i.st == .rerun && i.unit != some unit
  let s := if n.rc.periodic && i.st != .rerun then s.pinInputs n i.entry else s
  let i' := (s.entry? i.entry).getD i
  let fl := i.inputFlagged || s.readsFlagged n i'
  let ab := if i.st == .rerun then i.absent else s.absentInputs n i'
  let s := s.modInst i.entry (fun x => { x with st := .dispatched, unit := some unit, holdDue := none, inputFlagged := fl,
                                                absent := ab, restart := restart, step := if restart then 0 else x.step })
  let s := s.modNode n.rc.slot (fun m => { m with preferred := some unit })
  let u := s.unit unit
  (s.setUnit { u with entry := some i.entry, since := s.now }).showStep unit n.domain n.rc.slot i.tile

/-- An instance with an absent input that its engine cannot do without writes nothing and ends with a void
release; STEP_ABSENT is journaled, and the engine's ABSENT bit is set where it has one (R164, R240, R332). -/
def State.endAbsent (s : State) (unit : Nat) (i : Inst) (n : NodeSt) : State :=
  match s.endingAbsent n ((s.entry? i.entry).getD i).absent with
  | none => s
  | some j =>
    let s := s.log unit 0x0502 0 n.domain i.stream i.nt i.seq.toNat j
    let s := if n.rc.cls == 3 || n.rc.cls == 6 then s else s.event (engErr unit) ⟨2, 2⟩
    s.cancelNow i.entry

/-- The tinder job that waits for a unit, with its priority: it needs an Island-owned Check-Value Unit (R404, R405). -/
def State.tinderFor (s : State) (unit : Nat) : Option Nat :=
  match s.safety.cover.find? (fun c => c.unit == unit && c.pending) with
  | none => none
  | some c => if s.idleIslandCvu.isSome && (s.turnOf c).isSome then some (if c.promoted then 4 else 0) else none

/-- Give a unit to its pending tinder job, with a Check-Value Unit armed on it (R404). -/
def State.startTinder (s : State) (unit : Nat) : State :=
  match s.idleIslandCvu, (s.cover? unit).bind s.turnOf with
  | some n, some e =>
    let u := s.unit unit
    ((s.setUnit { u with heldBy := some 1, since := s.now }).showStep unit 1 e.pattern 0).armTinder n unit e (some e.pattern)
  | _, _ => s

/-- DISPATCH (R99): offer a free unit. Instances come first in order of priority; a tinder job is taken after every
instance of its priority. -/
def execDispatch (unit : Half) (s : State) : Res :=
  let u := unit.toNat
  let c := classOfUnit u
  if s.fgs.halted || decide (7 ≤ c) || !s.unitFree u then .next s
  else
    let (p, held) := s.pick u (s.offerOrder c) []
    let s := s.startHolds held
    match p with
    | some (i, n) =>
      match s.tinderFor u with
      | some q => if decide (n.rc.prio < q) then .next (s.startTinder u) else .next ((s.dispatchTo u i n).endAbsent u i n)
      | none => .next ((s.dispatchTo u i n).endAbsent u i n)
    | none => if (s.tinderFor u).isSome then .next (s.startTinder u) else .next s

/-- AFFINITY_HOLD_EXPIRY (R101): the hold ends and the instance goes to the first free unit it may use. -/
def execAffinityHoldExpiry (entry : Fin 4096) (s : State) : Res :=
  match s.entry? entry.val with
  | none => .next s
  | some i =>
    match i.holdDue, s.node? i.node with
    | some t, some n =>
      let s := (s.reachTick t).modInst i.entry (fun x => { x with holdDue := none, holdOver := true })
      match s.freeUnitsOf n with
      | u :: _ => if s.fgs.halted || n.rc.cls == 7 then .next s else .next ((s.dispatchTo u i n).endAbsent u i n)
      | [] => .next s
    | _, _ => .next s

/-- Priority of the instance running on a pair, when it can be pre-empted by priority p: it runs, its priority is
lower, a register bank is free and no dispatch awaits acknowledgement (R102, R115). -/
def State.preemptible (s : State) (n p : Nat) : Option Nat :=
  let c := s.core n
  if c.halted || (s.unit (0x0B00 + n)).fenced || s.flag (Reg.FGS_PC_DISP0 n) F.FGS_PC_DISP0.VALID || decide (3 ≤ c.insts.length) then none
  else
    match c.insts.head? with
    | none => none
    | some x =>
      match (s.entry? x.1).bind (fun i => s.node? i.node) with
      | some m => if decide (m.rc.prio < p) then some m.rc.prio else none
      | none => none

/-- The pair to pre-empt: the lowest running priority, the highest number among equals (R102). -/
def State.preemptChoice (s : State) (n : NodeSt) : Option Nat :=
  ((s.unitsOf n).foldl (fun (b : Option (Nat × Nat)) u =>
    let k := u % 256
    match s.preemptible k n.rc.prio with
    | none => b
    | some q =>
      match b with
      | none => some (k, q)
      | some (_, q') => if decide (q ≤ q') then some (k, q) else b) none).map (·.1)

/-- The lowest register bank of a pair that holds no instance. -/
def State.freeBank (s : State) (n : Nat) : Nat :=
  ([1, 2, 3].find? (fun b => !(s.core n).insts.any (fun x => x.2.2 == b))).getD 3

/-- Post the dispatch record of a firmware instance in FGS_PCn_DISP (R102, R115). -/
def State.dispatchPc (s : State) (pair : Nat) (i : Inst) (n : NodeSt) : State :=
  let pre := !(s.core pair).insts.isEmpty
  let bank := s.freeBank pair
  let u0 := s.unit (0x0B00 + pair)
  let s := s.dispatchTo (0x0B00 + pair) i n
  let s := if pre then s.setUnit { s.unit (0x0B00 + pair) with since := u0.since } else s
  let s := s.modCore pair (fun c => { c with insts := (i.entry, i.gen, bank) :: c.insts })
  let a := Reg.FGS_PC_DISP0 pair
  let s := ((((s.setFlag a F.FGS_PC_DISP0.VALID true).setFlag a F.FGS_PC_DISP0.PREEMPT pre).setFld a F.FGS_PC_DISP0.BANK bank).setFld
    a F.FGS_PC_DISP0.NODE_SLOT i.node).setFld a F.FGS_PC_DISP0.TILE i.tile
  let s := s.setReg (Reg.FGS_PC_DISP1 pair) i.seq
  let b := Reg.FGS_PC_DISP2 pair
  let s := (((s.setFld b F.FGS_PC_DISP2.DOMAIN n.domain).setFld b F.FGS_PC_DISP2.FW_ID n.rc.stepList).setFld
    b F.FGS_PC_DISP2.GEN i.gen).setFld b F.FGS_PC_DISP2.ENTRY i.entry
  s.setReg (Reg.FGS_PC_DISP3 pair) (w32 (n.deadline i.ts))

/-- PC_DISPATCH (R102): offer a pair; with no free pair, pre-empt one. -/
def execPcDispatch (pair : Fin 4) (s : State) : Res :=
  let u := 0x0B00 + pair.val
  if s.fgs.halted then .next s
  else if s.unitFree u then
    let (p, held) := s.pick u (s.offerOrder 7) []
    let s := s.startHolds held
    match p with
    | some (i, n) => .next (s.dispatchPc pair.val i n)
    | none => .next s
  else
    match (s.offerOrder 7).findSome? (fun i =>
        (s.node? i.node).bind (fun n =>
          if (s.freeUnitsOf n).isEmpty && s.preemptChoice n == some pair.val then some (i, n) else none)) with
    | some (i, n) => .next (s.dispatchPc pair.val i n)
    | none => .next s

/-- FGS_DISP0_READ (R115): a read that returns VALID 1 acknowledges the dispatch. -/
def execFgsDisp0Read (pair : Fin 4) (s : State) : Res :=
  let a := Reg.FGS_PC_DISP0 pair.val
  if s.flag a F.FGS_PC_DISP0.VALID then
    let e := s.fld (Reg.FGS_PC_DISP2 pair.val) F.FGS_PC_DISP2.ENTRY
    .next ((s.setFlag a F.FGS_PC_DISP0.VALID false).modInst e (fun i => if i.st == .dispatched then { i with st := .running } else i))
  else .next s

/-- FGS_PC_DONE (R103, R372). -/
def execFgsPcDone (pair : Fin 4) (value : Word) (s : State) : Res :=
  let u := 0x0B00 + pair.val
  let gen := F.FGS_PC_DONE.GEN.get value
  let e := F.FGS_PC_DONE.ENTRY.get value
  let st := F.FGS_PC_DONE.STATUS.get value
  if decide (2 ≤ st) then .next (s.log srcFgs 0x0005 0 0 0xFF (Reg.FGS_PC_DONE pair.val) value.toNat 2)
  else
    match s.entry? e with
    | some i =>
      if i.gen == gen && i.unit == some u && i.stopping then .next s
      else if i.gen == gen && i.unit == some u && i.st == .running then
        if st == 0 then
          let s := (s.modInst e (fun x => { x with st := .done })).leaveUnit u e
          let s := match s.node? i.node with
            | some n => if s.atHead i && (s.shortfall (s.releaseTokens n i)).1 != 0 then s.tryRelease e else s
            | none => s
          .next s
        else
          let part := ((s.node? i.node).map (·.domain)).getD 0
          .next ((s.log u 0x030F 1 part i.stream i.nt i.seq.toNat (gen * 4096 + e)).cancelNow e)
      else .next (s.log u 0x0310 1 0 0xFF value.toNat pair.val 0)
    | none => .next (s.log u 0x0310 1 0 0xFF value.toNat pair.val 0)

/-! ### Firmware commands (R109, R114) -/

/-- FGS_POST (R114): the token of FGS_POST_HI, FGS_POST_LO and FGS_POST_SB of the writer's bank. -/
def execFgsPost (bank : Fin 5) (domain : BitVec 4) (hi : Word) (s : State) : Res :=
  let lo := s.reg (bankOff bank.val Reg.FGS_POST_LO)
  let sb := bankOff bank.val Reg.FGS_POST_SB
  let res := bankOff bank.val Reg.FGS_POST_RESULT
  let t : Token :=
    { node := hi.toNat / 1048576, stream := hi.toNat / 4096 % 256, seq := w32 (hi.toNat % 4096 * 1048576 + lo.toNat / 4096),
      tile := lo.toNat % 4096, operand := s.fld sb F.FGS_POST_SB.OPERAND, kind := s.fld sb F.FGS_POST_SB.KIND,
      domain := domain.toNat, reserved := false, poster := some bank.val, flagged := false }
  .next ((s.setFlag res F.FGS_POST_RESULT.BUSY true).post [t])

/-- FGS_CANCEL (FGS_CANCEL_GO, R109). -/
def execFgsCancel (domain : BitVec 4) (value : Word) (s : State) : Res :=
  if !value.getLsbD 0 then .next s
  else
    let a := Reg.FGS_CANCEL_NODE
    let slot := s.fld a F.FGS_CANCEL_NODE.NODE_SLOT
    let tile := s.fld a F.FGS_CANCEL_NODE.TILE
    let allS := s.flag a F.FGS_CANCEL_NODE.ALL_SEQ
    let allT := s.flag a F.FGS_CANCEL_NODE.ALL_TILES
    let seq := s.reg Reg.FGS_CANCEL_SEQ
    let none' := { s.setFld Reg.FGS_CANCEL_STATUS F.FGS_CANCEL_STATUS.COUNT 0 with fgs := { s.fgs with cancelSel := [] } }
    match s.node? slot with
    | none => .next none'
    | some n =>
      if n.domain != domain.toNat then
        .next (none'.log srcFgs 0x030E 1 domain.toNat 0xFF (ntWord slot tile) (if allS then 0xFFFFFFFF else seq.toNat)
          (domain.toNat + bit allT * 2 ^ 30 + bit allS * 2 ^ 31))
      else
        let sel := (s.fgs.insts.filter (fun i => i.node == slot && i.live && !i.stopping && (allS || i.seq == seq)
          && (allT || i.tile == tile))).map (·.entry)
        let s := s.setFld Reg.FGS_CANCEL_STATUS F.FGS_CANCEL_STATUS.COUNT sel.length
        let s := { s with fgs := { s.fgs with cancelSel := sel } }
        .next (sel.foldl State.cancel s)

/-- FGS_AFFINITY_FORGET (R101): preferred units are forgotten at the commit. -/
def execFgsAffinityForget (s : State) : Res := .next { s with fgs := { s.fgs with forgetPending := true } }

/-! ### Completion and release (R22, R92, R106, R111) -/

/-- STEP_COMPLETE (R22): a unit reports its instance complete once every step has run and every write is
acknowledged. The instance becomes done-unreleased; a mode-1 shortfall at its turn keeps the unit busy (R111). -/
def execStepComplete (unit : Half) (s : State) : Res :=
  let u := unit.toNat
  match (s.unit u).entry.bind s.entry? with
  | none => .next s
  | some i =>
    match s.node? i.node with
    | none => .next s
    | some n =>
      if i.busy && !i.stopping && (pcOf u).isNone && decide (n.steps ≤ i.step) then
        let s1 := s.modInst i.entry (fun x => { x with st := .done })
        let (code, mode1) := s1.shortfall (s1.releaseTokens n i)
        if code != 0 && mode1 && s1.atHead i then .next (s1.tryRelease i.entry) else .next (s1.leaveUnit u i.entry)
      else .next s

/-- RELEASE (R92). -/
def execRelease (entry : Fin 4096) (flagUe : Option (Fin 262144)) (s : State) : Res :=
  .next ((s.metFlagUe flagUe).tryRelease entry.val)

/-- The number by which a band's cross-device reservation is known: above every entry number. -/
def bandId (layer idx k b : Nat) (flagged : Bool) : Nat := 4096 + 2 * (((layer * 256 + idx) * 65536 + b) * 2 ^ 32 + k) + bit flagged

/-- A band's release is refused: counted, and journaled and kept when it is refused first (R110). -/
def State.refuseBand (s : State) (r : RingSt) (seq : Word) (k b : Nat) (flagged : Bool) (held : Option Nat) (code : Nat) : State :=
  let s := (s.event Reg.FGS_EVENT F.FGS_EVENT.REFUSED).addCnt (Reg.FGS_CNT 0) 1
  let s := if code == 2 then s.event Reg.FGS_EVENT F.FGS_EVENT.DELAY_FULL else s
  match held with
  | some _ => s
  | none =>
    let part := ((s.layer? r.layer).map (fun l => l.rc.partition)).getD 0
    let s := s.log srcFgs 0x030D 0 part r.stream (ntWord 0xFFF b) seq.toNat code
    let h : Nat × Nat × Nat × Nat × Nat × Bool := (s.fgs.refuseNext, r.layer, r.idx, k, b, flagged)
    { s with fgs := { s.fgs with heldBands := s.fgs.heldBands ++ [h], refuseNext := s.fgs.refuseNext + 1 } }

/-- Release a band of a stream ring, or refuse it (R92, R110). -/
def State.releaseBand (s : State) (layer idx k b : Nat) (flagged : Bool) (held : Option Nat) : State :=
  match s.ring? layer idx with
  | none => s
  | some r =>
    let fi := r.flagIdx (r.slotOf k b)
    let f := s.slotFlag fi
    let drop (s : State) : State :=
      { s with fgs := { s.fgs with heldBands := s.fgs.heldBands.filter (fun x => !(x.2.1 == layer && x.2.2.1 == idx && x.2.2.2.1 == k && x.2.2.2.2.1 == b)) } }
    if r.assigned? (r.slotOf k b) != some (k, b) || f.state != slotFilling then drop s
    else
      let seq := f.seq
      let ts := if f.rectLeft == 1 && !f.voided then s.slotTokens r b seq 0 else []
      let code := (s.shortfall ts).1
      if code != 0 then s.refuseBand r seq k b flagged held code
      else
        let id := bandId layer idx k b flagged
        let (s, granted) := s.reserveRemote id ts
        if !granted then s
        else
        let s := (drop (s.forgetAsked id)).modFlag fi (fun f => f.releaseRect flagged false)
        let st := (s.slotFlag fi).state
        if st == slotFull then (s.post (s.slotTokens r b seq 0)).drainAbsent layer idx (r.slotOf k b)
        else if st == slotVoid then (s.event Reg.FGS_EVENT F.FGS_EVENT.VOID_RELEASE).post (s.slotTokens r b seq 1)
        else s

/-- Retry one held release by its order of first refusal. -/
def State.retryOne (s : State) (o : Nat) : State :=
  match s.fgs.insts.find? (fun i => i.refused == some o) with
  | some i => s.tryRelease i.entry
  | none =>
    match s.fgs.heldBands.find? (fun x => x.1 == o) with
    | some (_, l, i, k, b, fl) => s.releaseBand l i k b fl (some o)
    | none => s

/-- Insert into a rising list. -/
def insertNat (n : Nat) : List Nat → List Nat
  | [] => [n]
  | m :: t => if n ≤ m then n :: m :: t else m :: insertNat n t

/-- RELEASE_RETRY (R106): held releases are retried at the tick, in the order first refused. -/
def execReleaseRetry (s : State) : Res :=
  let s := s.reachTick s.now
  let os := (s.fgs.insts.filterMap (·.refused) ++ s.fgs.heldBands.map (·.1)).foldr insertNat []
  .next (os.foldl State.retryOne s)

/-- STALL_RELEASE (R111). -/
def execStallRelease (entry : Fin 4096) (s : State) : Res :=
  match s.entry? entry.val with
  | some i => if i.stalledFrom.isSome then .next (s.tryRelease entry.val) else .next s
  | none => .next s

/-- DEFERRED_VOID (R93): held voids take effect when their slots become free; the entry is freed when none is left
and the retired sequence has passed it. -/
def execDeferredVoid (entry : Fin 4096) (s : State) : Res :=
  match s.entry? entry.val with
  | none => .next s
  | some i =>
    match s.node? i.node with
    | none => .next s
    | some n =>
      if i.st != .cancelled then .next s
      else
        let p := i.voidsLeft.foldl (fun (p : State × List Nat) o =>
          let q := p.1.voidOne n i.seq i.tile o
          if q.2 then (q.1, p.2) else (q.1, p.2 ++ [o])) (s, [])
        let s := p.1.modInst i.entry (fun x => { x with voidsLeft := p.2 })
        if p.2.isEmpty && (n.rc.periodic || n.retired.any (fun r => !seqNewer i.seq r)) then .next (s.freeEntry i.entry) else .next s

/-- SLOT_DRAIN (R66). -/
def execSlotDrain (node : Fin 4096) (input : Fin 8) (slot : Fin 64) (flagUe : Option (Fin 262144)) (s : State) : Res :=
  let s := s.metFlagUe flagUe
  match s.node? node.val with
  | none => .next s
  | some n => .next (s.tryDrain n.layer (n.rc.inRings.getD input.val 0xFF) slot.val node.val input.val)

/-! ### Starts, deadlines, timeouts (R69, R107, R108) -/

/-- Keep the newest 64 of a list of marks. -/
def keep64 {α : Type} (x : α) (l : List α) : List α := (x :: l).take 64

/-- PERIODIC_START (R69): the next start tick of a periodic node. -/
def execPeriodicStart (node : Fin 4096) (s : State) : Res :=
  match s.node? node.val with
  | none => .next s
  | some n =>
    match n.startBase with
    | none => .next s
    | some b =>
      let period := ((s.layer? n.layer).map (·.periodNs)).getD 0 * max 1 n.rc.rateDiv
      let due := b + n.startNext * period
      let s := s.reachTick due
      let num := n.startNext
      let seq := w32 num
      let ms := s.multsNow
      let m := multOf ms n.rc.shedClass
      let s := s.modNode node.val (fun x => { x with startNext := num + 1 })
      if !n.rc.periodic || n.peer.isSome || s.fgs.closed.contains n.layer || m == 0 || num % m != 0 then .next s
      else
        let s := s.modNode node.val (fun x => { x with starts := keep64 (seq, due) x.starts })
        let s := { s with fgs := { s.fgs with mults := ((0x1000 + node.val, seq, ms) :: s.fgs.mults).take 4096 } }
        .next ((List.range n.rc.tiles).foldl (fun s t =>
          if decide (4096 ≤ s.storeUsed + s.promised.length) || decide (1024 ≤ s.delayUsed && !s.seqEntries.contains (node.val, seq)) then
            (s.event Reg.FGS_EVENT F.FGS_EVENT.REFUSED).addCnt (Reg.FGS_CNT 0) 1
          else
            let s := s.createEntry n seq t 0xFF
            match s.inst? node.val seq t with
            | some i => s.modInst i.entry (fun x => { x with ts := due })
            | none => s) s)

/-- DEADLINE_EXPIRY (R107): a miss cancels a waiting or ready instance and marks any other late; a safety partition's
miss is a doubt of cause 1. -/
def execDeadlineExpiry (entry : Fin 4096) (s : State) : Res :=
  match s.entry? entry.val with
  | none => .next s
  | some i =>
    match s.node? i.node with
    | none => .next s
    | some n =>
      if i.late || !i.live then .next s
      else
        let dl := n.deadline i.ts
        let s := s.reachTick dl
        let s := if i.st == .waiting || i.st == .ready then
            ((((s.event Reg.FGS_EVENT F.FGS_EVENT.DEADLINE_MISS).addCnt (Reg.FGS_CNT 2) 1).logInst 0x0306 1 i dl).countMiss n.domain).cancelNow i.entry
          else (s.logInst 0x0307 1 i dl).modInst i.entry (fun x => { x with late := true })
        .next (if isSafety n.domain then s.doubt 1 srcFgs n.domain i.seq else s)

/-- MATCH_TIMEOUT (R108). -/
def execMatchTimeout (entry : Fin 4096) (s : State) : Res :=
  match s.entry? entry.val with
  | none => .next s
  | some i =>
    match s.node? i.node with
    | none => .next s
    | some n =>
      if i.st == .waiting && !i.ops.isEmpty && decide (i.ops.length < i.need) then
        let s := s.reachTick (i.created + n.rc.waitNs)
        .next (((s.event Reg.FGS_EVENT F.FGS_EVENT.MATCH_TIMEOUT).logInst 0x0308 1 i (n.deadline i.ts)).cancelNow i.entry)
      else .next s

/-! ### Deadlock detection (R112, R113) -/

/-- The older of two instances: by sequence (R5), then by creation. -/
def olderInst (a b : Inst) : Inst :=
  if a.seq == b.seq then (if b.created < a.created then b else a) else if seqNewer a.seq b.seq then b else a

/-- The oldest of some instances. -/
def oldestOf : List Inst → Option Inst
  | [] => none
  | i :: t => some (t.foldl olderInst i)

/-- The oldest consumer instance that has not drained a slot. -/
def State.oldestConsumer (s : State) (r : RingSt) (sl : Nat) : Option Inst :=
  oldestOf ((s.readers r).flatMap (fun p =>
    if r.drained.contains (sl, p.1.rc.slot, p.2) then []
    else s.fgs.insts.filter (fun i => i.live && i.node == p.1.rc.slot
      && (s.declaredSlots p.1 i.seq i.tile).any (fun x => x.1 == p.2 && x.2.2 == sl))))

/-- The instance that an instance waits for, as the search of R112 states it. -/
def State.waitsFor (s : State) (i : Inst) : Option Inst :=
  match s.node? i.node with
  | none => none
  | some n =>
    let head := (s.flowOf? n).bind (fun f => s.fgs.insts.find? (fun x =>
      x.live && x.flowPos == some f.head && ((s.node? x.node).map (fun m => m.layer == n.layer && m.rc.flow == n.rc.flow)).getD false))
    if i.st == .waiting && decide (i.ops.length < i.need) then
      match (List.range i.need).find? (fun o => !i.ops.contains o) with
      | none => none
      | some o =>
        match s.operandAt n i.tile o with
        | none => none
        | some (j, b) =>
          match s.ring? n.layer (n.rc.inRings.getD j 0xFF) with
          | none => none
          | some r =>
            match r.producer with
            | .node p =>
              match s.node? p with
              | none => none
              | some m =>
                match s.outRing0 m with
                | none => none
                | some r0 => oldestOf (s.fgs.insts.filter (fun x => x.live && x.node == p && x.seq == i.seq && tileBand m.rc r0.rc x.tile == b))
            | _ => none
    else if i.st == .waiting && !n.rc.outRings.all (fun o => s.outputOk n i o) then
      (n.rc.outRings.find? (fun o => !s.outputOk n i o)).bind (fun o =>
        match s.ring? n.layer o, s.outRing0 n with
        | some r, some r0 => (r.k? i.seq).bind (fun k => s.oldestConsumer r (r.slotOf k (tileBand n.rc r0.rc i.tile)))
        | _, _ => none)
    else if i.st == .waiting && !s.creditOk n i then
      (s.outRing0 n).bind (fun r => oldestOf ((List.range r.rc.slotCount).filterMap (s.oldestConsumer r)))
    else if i.st == .done && (i.refused.isSome || i.stalledFrom.isSome) then
      oldestOf (s.fgs.insts.filter (fun x => x.live && x.entry != i.entry))
    else if (i.st == .waiting && !s.inWindow n i) || (i.st == .done && !s.atHead i) then head
    else none

/-- Follow the search from an instance: the cycle it finds, if any. -/
def State.findCycle (s : State) : Nat → Inst → List Inst → Option (List Inst)
  | 0, _, _ => none
  | fuel + 1, i, seen =>
    match s.waitsFor i with
    | none => none
    | some j =>
      if (i :: seen).any (fun x => x.entry == j.entry) then
        some (((i :: seen).takeWhile (fun x => x.entry != j.entry)) ++ [j])
      else s.findCycle fuel j (i :: seen)

/-- The victim of a cycle: the lowest priority, the newest sequence among equals (R113). -/
def State.victim (s : State) (c : List Inst) : Option Inst :=
  let prio (i : Inst) : Nat := ((s.node? i.node).map (fun n => n.rc.prio)).getD 0
  c.foldl (fun b i =>
    match b with
    | none => some i
    | some v => if decide (prio i < prio v) || (prio i == prio v && seqNewer i.seq v.seq) then some i else some v) none

/-- What a stuck flow leads to (R113). -/
def State.judgeStuck (s : State) (head : Option Inst) (implicit : Bool) (num headPos : Nat) : State :=
  let w := num + bit implicit * 2 ^ 31
  match (head.bind (fun h => s.findCycle 64 h [])).bind s.victim with
  | some v =>
    let s := (s.event Reg.FGS_EVENT F.FGS_EVENT.DEADLOCK).log srcFgs 0x030B 1 (((s.node? v.node).map (·.domain)).getD 0) v.stream w v.nt v.seq.toNat
    let a := Reg.FGS_DEADLOCK_LAST
    let s := ((s.setFld a F.FGS_DEADLOCK_LAST.VICTIM v.node).setFlag a F.FGS_DEADLOCK_LAST.IMPLICIT implicit).setFld a F.FGS_DEADLOCK_LAST.STUCK num
    s.cancel v.entry
  | none => (s.event Reg.FGS_EVENT F.FGS_EVENT.FLOW_STALL).log srcFgs 0x030C 1 0 0xFF w headPos 0

/-- FLOW_WATCH_EXPIRY (R112, R113): four periods without a release. `single` names a node outside every flow. The
head position that FLOW_STALL shows for such a node is stated nowhere: a free value (log entry 12). -/
def execFlowWatchExpiry (single : Bool) (n : Fin 4096) (s : State) : Res :=
  if single then
    match s.node? n.val with
    | none => .next s
    | some m =>
      match m.watchFrom with
      | none => .next s
      | some w =>
        if (s.flowOf? m).isSome || m.rc.periodic then .next s
        else
          let s := s.reachTick (w + 4 * (((s.layer? m.layer).map (·.periodNs)).getD 0 * max 1 m.rc.rateDiv))
          let (v, s) := s.draw
          let s := s.judgeStuck (oldestOf (s.fgs.insts.filter (fun i => i.live && i.node == n.val))) true n.val v
          .next (s.modNode n.val (fun x => { x with watchFrom := x.watchFrom.map (fun _ => s.now) }))
  else
    match s.fgs.flows.find? (fun f => f.rc.id == n.val) with
    | none => .next s
    | some f =>
      match f.watchFrom with
      | none => .next s
      | some w =>
        let members := s.fgs.nodes.filter (fun m => m.layer == f.layer && m.rc.flow == some f.rc.id)
        let div := members.foldl (fun a m => max a m.rc.rateDiv) 1
        let s := s.reachTick (w + 4 * (((s.layer? f.layer).map (·.periodNs)).getD 0 * div))
        let head := s.fgs.insts.find? (fun i => i.live && i.flowPos == some f.head && members.any (fun m => m.rc.slot == i.node))
        let s := s.judgeStuck head false f.rc.id f.head.toNat
        .next (s.modFlow f.layer f.rc.id (fun x => { x with watchFrom := x.watchFrom.map (fun _ => s.now) }))

end Sys2Proof.Machine
end

