-- ==== Sys2Proof/Machine/IspOps.lean ====
section
/-! DEFINITION. The image pipes' work on frames (spec/06, and R310 of spec/13): the rings a frame is written to, band assignment and
release, frame starts, parameter updates, void releases and tinder injections. -/

namespace Sys2Proof.Machine

open Sys2Proof

/-! ### Rings of a stream -/

/-- A ring of a layer by ring ID. -/
def State.ringById? (s : State) (layer id : Nat) : Option RingSt :=
  if id == 0xFFFF then none else s.fgs.rings.find? (fun r => r.layer == layer && r.rc.ringId == id)

/-- Service mode is in force: the bound scene has SERVICE set, or kindling is in VERIFY (R153). -/
def State.serviceMode (s : State) : Bool := s.flag (Reg.ISP_STATUS 0) F.ISP_STATUS.SERVICE || s.fld Reg.SYS_KIN_STATUS F.SYS_KIN_STATUS.STATE == 10

/-- An image output of a frame: ring, point, format and shift. -/
structure IspDest where
  ring : RingSt
  point : Nat
  fmt : Nat
  shift : Nat
  deriving DecidableEq, Repr

/-- Output `out` of a stream, 0 the stage-10 output, 1 and 2 the taps (R149, R152, R153). -/
def State.ispDest? (s : State) (layer : Nat) (params : List Byte) (service : Bool) (out : Nat) : Option IspDest :=
  let p (o n : Nat) := leAt params (0x3FC0 + o) n
  match out with
  | 0 => (s.ringById? layer (p 0 2)).map (fun r => ⟨r, 10, if service then fmtNv12 else leAt params 0x3F92 1, 0⟩)
  | 1 =>
    if !service && p 8 1 == 0 then none
    else (s.ringById? layer (p 4 2)).map (fun r => if service then ⟨r, 10, fmtRgb888, 0⟩ else ⟨r, p 8 1, p 0xC 1, p 0xA 1⟩)
  | _ =>
    if !service && p 9 1 == 0 then none
    else (s.ringById? layer (p 6 2)).map (fun r => if service then ⟨r, 10, fmtY10, 0⟩ else ⟨r, p 9 1, p 0xD 1, p 0xB 1⟩)

/-- The image outputs of a stream. -/
def State.ispDests (s : State) (layer : Nat) (params : List Byte) (service : Bool) : List IspDest :=
  (List.range 3).filterMap (s.ispDest? layer params service)

/-- The statistics ring of a stream. -/
def State.statsRing? (s : State) (layer : Nat) (params : List Byte) : Option RingSt := s.ringById? layer (leAt params 0x3FC2 2)

/-- Every ring that a frame of a stream is written to by its pipe. -/
def State.frameRings (s : State) (layer : Nat) (params : List Byte) (service : Bool) : List RingSt :=
  (s.ispDests layer params service).map (·.ring) ++ (s.statsRing? layer params).toList

/-- Last line plus one that band b of a ring holds of a frame. -/
def bandEnd (r : RingSt) (b : Nat) : Nat := if r.perFrame ≤ 1 then r.frameH else min r.frameH ((b + 1) * r.rc.lines)

/-- First line of a band. -/
def bandStart (r : RingSt) (b : Nat) : Nat := if r.perFrame ≤ 1 then 0 else b * r.rc.lines

/-! ### Assignment, discard and void of a stream's slots (R306, R310) -/

/-- Give a sequence its ring frame number in a ring. -/
def State.numberRing (s : State) (r : RingSt) (seq : Word) : State :=
  match s.ring? r.layer r.idx with
  | some r => s.setRing (r.number seq)
  | none => s

/-- A band whose slot is not free is discarded: counted, journaled, and its consumers cancelled by void tokens (R310). -/
def State.discardBand (s : State) (source : Nat) (r : RingSt) (k b : Nat) (seq : Word) (stream lines : Nat) : State :=
  let part := ((s.layer? r.layer).map (fun l => l.rc.partition)).getD 0
  let s := (s.addCnt (Reg.MC_FS_CNT 4) lines).log source 0x0401 1 part stream seq.toNat b 0
  let s := s.setRing { r with skipped := ((k, b) :: r.skipped).take 128 }
  s.post (s.slotTokens r b seq 1)

/-- Assign a band's slot when its first line is ready, or discard the band. True when the band was assigned. -/
def State.assignBand (s : State) (source layer idx b : Nat) (seq : Word) (stream lines : Nat) : State × Bool :=
  match s.ring? layer idx with
  | none => (s, false)
  | some r =>
    match r.k? seq with
    | none => (s, false)
    | some k =>
      if (s.slotFlag (r.flagIdx (r.slotOf k b))).free r.rc.consumers then (s.assignSlot r k b seq 1, true)
      else (s.discardBand source r k b seq stream lines, false)

/-- Void release of a band: its slot becomes VOID and void tokens follow (R93, R121); one that is not free is treated under R310. -/
def State.voidBand (s : State) (source layer idx b : Nat) (seq : Word) (stream lines : Nat) : State :=
  match s.ring? layer idx with
  | none => s
  | some r =>
    match r.k? seq with
    | none => s
    | some k =>
      let sl := r.slotOf k b
      let mine := r.assigned? sl == some (k, b) && (s.slotFlag (r.flagIdx sl)).state == slotFilling
      if r.skipped.contains (k, b) then s
      else
        let p := if mine then (s, true) else s.assignBand source layer idx b seq stream lines
        if p.2 then
          let s := p.1.modFlag (r.flagIdx sl) SlotFlag.voidRect
          if (s.slotFlag (r.flagIdx sl)).state == slotVoid then
            (s.event Reg.FGS_EVENT F.FGS_EVENT.VOID_RELEASE).post (s.slotTokens r b seq 1)
          else s
        else p.1

/-- Void release of every output band and of the statistics slot of a stream's sequence. -/
def State.voidOutputs (s : State) (p : StreamRec) (layer : Nat) (params : List Byte) (seq : Word) : State :=
  let rs := s.frameRings layer params s.serviceMode
  let s := rs.foldl (fun s r => s.numberRing r seq) s
  rs.foldl (fun s r => (List.range r.perFrame).foldl (fun s b =>
    s.voidBand (0x0200 + p.isp) layer r.idx b seq p.stream (bandEnd r b - bandStart r b)) s) s

/-! ### Frames in a pipe -/

/-- Change the frame of a stream and sequence in a pipe. -/
def State.modFrame (s : State) (pipe stream : Nat) (seq : Word) (f : PipeFrame → PipeFrame) : State :=
  s.modPipe pipe (fun p => { p with frames := p.frames.map (fun x => if x.stream == stream && x.seq == seq then f x else x) })

/-- A frame of a pipe. -/
def State.frame? (s : State) (pipe stream : Nat) (seq : Word) : Option PipeFrame :=
  (s.pipe pipe).frames.find? (fun x => x.stream == stream && x.seq == seq)

/-- The ring's band has been assigned to the frame, or discarded. -/
def RingSt.begun (r : RingSt) (seq : Word) (b : Nat) : Bool :=
  match r.k? seq with
  | none => true
  | some k => r.assigned? (r.slotOf k b) == some (k, b) || r.skipped.contains (k, b)

/-- Try to begin band b of a ring for a frame. A discarded band counts as done. -/
def State.beginBand (s : State) (pipe : Nat) (f : PipeFrame) (r : RingSt) (b : Nat) : State :=
  match s.ring? r.layer r.idx with
  | none => s
  | some r =>
    if r.perFrame ≤ b || r.begun f.seq b || f.done.contains (r.idx, b) then s
    else
      let q := s.assignBand (0x0200 + pipe) r.layer r.idx b f.seq f.stream (bandEnd r b - bandStart r b)
      if q.2 then q.1 else q.1.modFrame pipe f.stream f.seq (fun x => { x with done := x.done ++ [(r.idx, b)] })

/-- The bands whose first line is line y begin (R310). -/
def State.beginLine (s : State) (pipe : Nat) (f : PipeFrame) (y : Nat) : State :=
  (s.frameRings f.layer f.params f.service).foldl (fun s r =>
    (List.range r.perFrame).foldl (fun s b => if bandStart r b == y then s.beginBand pipe f r b else s) s) s

/-- The first band of each ring that has not begun begins: what follows lines that no packet brings (log entry 28). -/
def State.beginNext (s : State) (pipe stream : Nat) (seq : Word) : State :=
  match s.frame? pipe stream seq with
  | none => s
  | some f =>
    (s.frameRings f.layer f.params f.service).foldl (fun s r =>
      match s.ring? r.layer r.idx, (s.frame? pipe stream seq) with
      | some r, some f =>
        match (List.range r.perFrame).find? (fun b => !r.begun seq b && !f.done.contains (r.idx, b)) with
        | some b => s.beginBand pipe f r b
        | none => s
      | _, _ => s) s

/-- A frame that has released or discarded all it writes leaves the pipe; the staging slot of a staged frame is drained (R145). -/
def State.endFrame (s : State) (pipe stream : Nat) (seq : Word) : State :=
  match s.frame? pipe stream seq with
  | none => s
  | some f =>
    let rs := s.frameRings f.layer f.params f.service
    if f.closed && !f.restart && rs.all (fun r => (List.range r.perFrame).all (fun b => f.done.contains (r.idx, b))) then
      let s := (s.modPipe pipe (fun p => { p with frames := p.frames.filter (fun x => !(x.stream == stream && x.seq == seq)) })).addCnt (Reg.ISP_CNT pipe 0) 1
      let s := match f.staged.bind (fun q => (s.ring? f.layer q.1).map (fun r => (r, q.2))) with
        | some (r, sl) => s.modFlag (r.flagIdx sl) (fun x => x.drain r.rc.consumers)
        | none => s
      s.showPipe pipe
    else s

/-! ### Updates and parity (R157, R158, R160) -/

/-- An update may apply to a frame sequence. -/
def IspUpd.due (u : IspUpd) (seq : Word) : Bool := !u.atSeq || !seqNewer u.applySeq seq

/-- The updates at the head of a queue that apply now, and the parameters and count they give. -/
def applyUpds (seq : Word) : List IspUpd → List Byte → Nat → List IspUpd × List Byte × Nat
  | [], p, n => ([], p, n)
  | u :: t, p, n =>
    if u.due seq then applyUpds seq t (p.take u.offset ++ u.data ++ p.drop (u.offset + u.data.length)) (n + 1) else (u :: t, p, n)

/-- At the start of a frame of a stream a bank is reloaded if it waits for it, then queued updates apply. -/
def State.refreshBank (s : State) (pipe bank : Nat) (set : Nat) (seq : Word) : State :=
  match (s.pipe pipe).bank? bank with
  | none => s
  | some b =>
    let p0 := if b.reload then s.flash.ispSet s.imgRegion set else b.params
    let r := applyUpds seq b.queue p0 (if b.reload then 1 else 0)
    let a := Reg.ISP_BANK pipe bank
    let s := s.modBank pipe bank (fun b => { b with params := r.2.1, queue := r.1, reload := false })
    (s.setFld a F.ISP_BANK.QUEUED r.1.length).setFld a F.ISP_BANK.VERSION ((s.fld a F.ISP_BANK.VERSION + r.2.2) % 65536)

/-- A parameter parity error at a line of a frame (R160). -/
def State.ispParity (s : State) (pipe : Nat) (f : PipeFrame) (line height : Nat) : State :=
  let bank := ((s.cam? f.stream).bind (·.bank)).getD 0
  let part := ((s.layer? f.layer).map (fun l => l.rc.partition)).getD 0
  let s := s.modFrame pipe f.stream f.seq (fun x => { x with marked := x.marked ++ (List.range (height - line)).map (fun (i : Nat) => line + i) })
  let s := (s.event (Reg.ISP_ERR pipe) F.ISP_ERR.PARITY).log (0x0200 + pipe) 0x0405 1 part f.stream f.seq.toNat line bank
  let s := s.modBank pipe bank (fun b => { b with reload := true })
  let again := match (s.pipe pipe).parityAt with
    | some t => decide (s.now ≤ t + 1000000000)
    | none => false
  let s := s.modPipe pipe (fun p => { p with parityAt := some s.now })
  if again then s.fence (0x0200 + pipe) 3 else s

/-! ### Frame starts -/

/-- A running staged frame is stopped by an in-line Frame Start; it is restarted later (R146). -/
def State.preemptStaged (s : State) (pipe : Nat) : State :=
  match (s.pipe pipe).frames.find? (fun f => f.staged.isSome && !f.restart) with
  | none => s
  | some f =>
    ((s.modFrame pipe f.stream f.seq (fun x => { x with restart := true })).event (Reg.ISP_ERR pipe) F.ISP_ERR.PREEMPT).addCnt (Reg.ISP_CNT pipe 1) 1

/-- A frame of a stream starts in its pipe with the parameters then in force. -/
def State.startFrame (s : State) (p : StreamRec) (layer : Nat) (seq : Word) (ts : Nat) (staged : Option (Nat × Nat)) (flagged : Bool)
    (marked : List Nat) (lines : List (List Nat)) (closed : Bool) : State :=
  match (s.cam? p.stream).bind (·.bank) with
  | none => s
  | some bank =>
    let s := s.refreshBank p.isp bank p.ispSet seq
    match (s.pipe p.isp).bank? bank with
    | none => s
    | some b =>
      let f : PipeFrame :=
        { stream := p.stream, layer := layer, seq := seq, ts := ts, staged := staged, yuv := p.dataType == 0x1E, lines := lines, marked := marked,
          flagged := flagged, params := b.params, version := s.fld (Reg.ISP_BANK p.isp bank) F.ISP_BANK.VERSION, service := s.serviceMode,
          closed := closed, done := [], statsDone := false, restart := false }
      let s := (s.frameRings layer b.params s.serviceMode).foldl (fun s r => s.numberRing r seq) s
      (s.modPipe p.isp (fun q => { q with frames := q.frames ++ [f] })).showPipe p.isp

/-! ### Tinder injections (R127, R128, R154) -/

/-- An injection starts after a frame of the stream when tinder work is pending for its pipe: a Check-Value Unit of the
Island is armed for it now. -/
def State.startInjection (s : State) (p : StreamRec) : State :=
  let u := s.unit (0x0200 + p.isp)
  if !p.tinder || p.ispMode != 0 || u.fenced || u.gated || u.heldBy.isSome || (s.pipe p.isp).inject.isSome || ((s.pipe p.isp).bank? 7).isNone then s
  else
    match s.cover? (0x0200 + p.isp) with
    | none => s
    | some c =>
      if c.running then s
      else
      match s.idleIslandCvu, s.turnOf c with
      | some n, some e =>
        if e.pattern / 256 % 256 != p.stream then s
        else
          let s := s.armTinder n (0x0200 + p.isp) e none
          let lines := s.fld Reg.CFE_TINDER_CTRL F.CFE_TINDER_CTRL.LINES
          (s.modPipe p.isp (fun q => { q with inject := some (p.stream, lines, e.pattern % 16) })).showPipe p.isp
      | _, _ => s

/-- A Frame Start or long packet of the stream aborts its running injection: the check-value job is dropped, the abort is
counted, and the pattern is injected again later. -/
def State.abortInjection (s : State) (p : StreamRec) : State :=
  match (s.pipe p.isp).inject with
  | some (st, _, _) =>
    if st == p.stream && p.ispMode == 0 then
      let u := 0x0200 + p.isp
      let s := match (s.cover? u).bind (·.cvu) with
        | some n => s.cvuAbort n
        | none => s
      let s := s.modCover u (fun c => { c with running := false, pending := true, cvu := none })
      ((s.modPipe p.isp (fun q => { q with inject := none })).addFld Reg.CFE_TINDER_CNT F.CFE_TINDER_CNT.ABORTED 1).showPipe p.isp
    else s
  | none => s

/-- The tap stream of an injection of lines of a stream, through the tinder set. -/
def injectionBytes (params : List Byte) (dt width height lines pattern : Nat) : List Byte :=
  let yuv := dt == 0x1E
  let n := width * samplesPer dt
  let src : Plane := Array.ofFn (n := lines) (fun y => Array.ofFn (n := n) (fun x =>
    Config.tinderSample dt pattern y.val x.val % 2 ^ typeDepth dt))
  let p := { IspSet.parse params with inputBits := typeDepth dt }
  tinderStream p (ispRun p width lines height yuv src)

end Sys2Proof.Machine
end

