-- ==== Sys2Proof/Machine/CamRx.lean ====
section
/-! DEFINITION. Reception in the Camera Front End (spec/05): numbering, lines and repair, the metadata word, closing frames, epochs, and
what the Ember path takes of a frame (R419). -/

namespace Sys2Proof.Machine

open Sys2Proof

/-! ### Frame flags (table "Frame flags") -/

def flLineShort : Nat := 1
def flLineLong : Nat := 2
def flFrameShort : Nat := 4
def flFrameLong : Nat := 8
def flFeMissing : Nat := 16
def flCrc : Nat := 32
def flLate : Nat := 64
def flEpoch : Nat := 128
def flEmb : Nat := 256
def flPktLost : Nat := 512
def flDt : Nat := 1024
def flStall : Nat := 2048
def flMissed : Nat := 0x10000
def flReduced : Nat := 0x20000

/-- A set of flags makes a frame or line input flagged (R125). -/
def inputFlagged (f : Nat) : Bool := f % 4096 != 0

/-! ### Contexts and paths -/

/-- A stream context before its stream is counted. -/
def StreamSt.fresh0 (n : Nat) : StreamSt :=
  { stream := n, layer := none, fresh := false, promoted := false, counting := false, next := 0, pulse := none, used := false, owed := none,
    lastFs := none, window := none, frame := none, batch := none, transfer := none, epochs := [], bank := none }

/-- Contexts for the streams in use of the image in force. -/
def State.initCams (s : State) : State :=
  { s with cam := { s.cam with streams := (s.flash.usedStreams s.imgRegion).map (fun p => StreamSt.fresh0 p.stream) } }

/-- The path of a stream's frames: 1 in-line, 2 memory-fed, 3 frame-check-only, 4 absent (R118). -/
def State.pathOf (s : State) (p : StreamRec) (c : StreamSt) : Nat :=
  if s.kin.absentStreams.contains p.stream then 4
  else if c.layer.isNone || (p.dualHome == 2 && !c.promoted) then 3
  else if p.ispMode == 1 then 2 else 1

/-- A port receives. -/
def State.portOn (s : State) (n : Nat) : Bool := s.fld (Reg.CFE_PORT_STATUS n) F.CFE_PORT_STATUS.STATE == 1

/-- A receive port. -/
def State.port (s : State) (n : Nat) : PortSt := s.cam.ports.getD n ⟨0, 0, 0, false⟩

/-- Change a port. -/
def State.modPort (s : State) (n : Nat) (f : PortSt → PortSt) : State :=
  { s with cam := { s.cam with ports := s.cam.ports.mapIdx (fun i p => if i == n then f p else p) } }

/-- The stream that a port and virtual channel belong to; none for one marked absent. -/
def State.rxStream? (s : State) (port vc : Nat) : Option (StreamRec × StreamSt) :=
  match (s.flash.usedStreams s.imgRegion).find? (fun p => p.port == port && p.vc == vc && !s.kin.absentStreams.contains p.stream) with
  | some p => (s.cam? p.stream).map (fun c => (p, c))
  | none => none

/-- Count a discarded packet or frame and set its event. -/
def State.rxDiscard (s : State) (port : Nat) (ev : Bits) : State := (s.event (Reg.CFE_PORT_ERR port) ev).addCnt (Reg.CFE_PORT_CNT port 3) 1

/-- The parameter set of a stream, of its bank or of the image. -/
def State.streamParams (s : State) (p : StreamRec) : List Byte :=
  match (s.cam? p.stream).bind (·.bank) with
  | some m => (((s.pipe p.isp).bank? m).map (·.params)).getD (s.flash.ispSet s.imgRegion p.ispSet)
  | none => s.flash.ispSet s.imgRegion p.ispSet

/-- The staging ring of a memory-fed stream. -/
def State.stageRing? (s : State) (p : StreamRec) (layer : Nat) : Option RingSt := s.ringById? layer (leAt (s.streamParams p) 0x3FD4 2)

/-- The next value T after t with T mod PERIOD_NS = FSYNC_OFFSET_NS (R135). -/
def nextPulse (period off t : Nat) : Nat :=
  let q := max 1 period
  t + 1 + (off + q - (t + 1) % q) % q

/-! ### Numbering (R14, R120, R121, R434, R511) -/

/-- Assign the next sequence to a stream: timestamps kept, shed multipliers latched for its group, base sequences fixed. -/
def State.assignSeq (s : State) (p : StreamRec) (c : StreamSt) (ts : Nat) : State :=
  let seq := c.next
  let g := p.groupKey
  let s := s.modCam p.stream (fun c => { c with next := c.next + 1 })
  let ms := s.multsNow
  let st := ((assocGet s.fgs.stamps p.stream).getD [])
  let mine (n : NodeSt) : Bool :=
    n.baseSeq.isNone && (n.refStream.map s.groupOf) == some g && ((s.layer? n.layer).map (fun l => l.opened && !l.outgoing)).getD false
  { s with fgs := { s.fgs with
      stamps := assocPut s.fgs.stamps p.stream (((seq, ts) :: st).take 64)
      mults := if s.fgs.mults.any (fun m => m.1 == g && m.2.1 == seq) then s.fgs.mults else ((g, seq, ms) :: s.fgs.mults).take 4096
      nodes := s.fgs.nodes.map (fun n => if mine n then { n with baseSeq := some seq } else n) } }

/-! ### Epochs (R132 to R134) -/

/-- The model epoch of a sequence, and whether a NACK leaves it unknown. -/
def StreamSt.epochOf (c : StreamSt) (seq : Word) : Word × Bool :=
  match c.epochs.find? (fun e => !seqNewer e.from' seq) with
  | some e => if e.bad then (0xFFFFFFFF, true) else (w32 e.epoch, false)
  | none => (0, false)

/-- Compare an embedded value of `width` bytes with the model epoch (R133). -/
def embEpoch (m last : Word) (width v : Nat) : Word × Nat :=
  let q := 2 ^ (8 * width)
  if v % q == m.toNat % q then (m, 0)
  else
    match (List.range 8).find? (fun i => decide (i ≤ last.toNat) && (last.toNat - i) % q == v % q) with
    | some i => (w32 (last.toNat - i), flEpoch)
    | none => (0xFFFFFFFF, flEpoch)

/-! ### The metadata word (R126) -/

/-- Offset of a stream's metadata word. -/
def metaOff (stream : Nat) (seq : Word) : Nat := 0x210000 + 0x200 * stream + 0x20 * (seq.toNat % 16)

/-- What a metadata word holds. -/
structure MetaWord where
  ts : Nat
  seq : Word
  epoch : Word
  flags : Nat
  endNs : Nat
  lines : Nat
  discarded : Nat
  crcs : Nat
  cuts : Nat
  stream : Nat
  link : Nat

/-- Its 32 bytes. -/
def MetaWord.bytes (m : MetaWord) : List Byte :=
  leBytes 8 m.ts ++ leBytes 4 m.seq.toNat ++ leBytes 4 m.epoch.toNat ++ leBytes 4 m.flags ++ leBytes 4 (min m.endNs 0xFFFFFFFF)
    ++ leBytes 2 m.lines ++ leBytes 2 (min m.discarded 0xFFFF) ++ leBytes 1 (min m.crcs 255) ++ leBytes 1 (min m.cuts 255)
    ++ leBytes 1 m.stream ++ leBytes 1 m.link

/-- Write a metadata word into its stream's metadata memory, with the stream's registers. -/
def State.writeMeta (s : State) (m : MetaWord) : State :=
  let b := m.bytes
  let s := (List.range 8).foldl (fun s i => s.setReg (metaOff m.stream m.seq + 4 * i) (w32 (leAt b (4 * i) 4))) s
  let s := s.setReg (Reg.CFE_STREAM_SEQ m.stream) m.seq
  let e := Reg.CFE_STREAM_EVENT m.stream
  s.setReg e (w32 ((s.reg e).toNat ||| (m.flags &&& 0x30FFF)))

/-- LINK of a metadata word: port and active lanes. -/
def State.linkByte (s : State) (port : Nat) : Nat := port * 16 + s.fld (Reg.CFE_PORT_STATUS port) F.CFE_PORT_STATUS.LANES

/-- Flags of a frame with INPUT_FLAGGED. -/
def sealFlags (f : Nat) : Nat := if inputFlagged f then f ||| 0x80000000 else f

/-! ### The Ember path's input (R419) -/

/-- Which eye of the Ember pair a stream is, true for the left. -/
def State.emberEye? (s : State) (stream : Nat) : Option Bool :=
  if s.safety.ember.cfg.isEmpty then none
  else if s.emb 2 1 == stream then some true
  else if s.emb 3 1 == stream then some false
  else none

/-- Change the Ember path's state. -/
def State.modEmber (s : State) (f : Ember → Ember) : State := { s with safety := { s.safety with ember := f s.safety.ember } }

/-- The frame of an eye. -/
def Ember.eye (e : Ember) (left : Bool) : Option EmberFrame := if left then e.left else e.right

/-- Replace the frame of an eye. -/
def Ember.setEye (e : Ember) (left : Bool) (f : Option EmberFrame) : Ember := if left then { e with left := f } else { e with right := f }

/-- The Ember path processes a sequence. -/
def State.emberTakes (s : State) (seq : Word) : Bool := seq.toNat % max 1 (s.emb 0xD 1) == 0

/-- A frame of the pair starts. -/
def State.emberStart (s : State) (stream : Nat) (seq : Word) (ts width : Nat) : State :=
  match s.emberEye? stream with
  | none => s
  | some l =>
    if s.emberTakes seq then s.modEmber (fun e => e.setEye l (some ⟨seq, ts, 0, List.replicate (width / 4) 0, [], false, false, none⟩)) else s

/-- One repaired line of a frame of the pair: green samples gather in 4 × 4 blocks, binned to 8 bits. -/
def EmberFrame.addLine (f : EmberFrame) (cfa shift : Nat) (line : List Nat) : EmberFrame :=
  let a := line.toArray
  let g (x : Nat) : Nat := if colourAt cfa x f.lines == 1 then a.getD x 0 else 0
  let acc := f.acc.mapIdx (fun i v => v + g (4 * i) + g (4 * i + 1) + g (4 * i + 2) + g (4 * i + 3))
  if f.lines % 4 == 3 then
    { f with lines := f.lines + 1, acc := acc.map (fun _ => 0), rows := f.rows ++ [acc.map (fun v => min 255 (v / 2 ^ shift))] }
  else { f with lines := f.lines + 1, acc := acc }

/-- A line goes to the Ember path. -/
def State.emberLine (s : State) (stream : Nat) (seq : Word) (line : List Nat) : State :=
  match s.emberEye? stream with
  | none => s
  | some l =>
    match s.safety.ember.eye l with
    | some f =>
      if f.seq == seq && f.closedAt.isNone then s.modEmber (fun e => e.setEye l (some (f.addLine (s.emb 4 1) (s.emb 5 1) line))) else s
    | none => s

/-- Timestamp of a pair's message (R423): of the left frame when it has started and is not missed, else T_p of its pulse. -/
def State.pairStamp (s : State) (seq : Word) (tp : Nat) : Nat :=
  match s.safety.ember.left with
  | some f => if f.seq == seq then f.ts else tp
  | none => tp

/-- Mark of an input-flagged eye: 1 left, 2 right. -/
def eyeFlag (left flagged : Bool) : Nat := if flagged then (if left then 1 else 2) else 0

/-- A frame of the pair closes, or is recorded as missed: the pair is complete, invalid, or waits for the other eye. -/
def State.emberClose (s : State) (stream : Nat) (seq : Word) (ts : Nat) (flagged missed : Bool) : State :=
  match s.emberEye? stream with
  | none => s
  | some l =>
    if !s.emberTakes seq then s
    else
      let mine : Option EmberFrame :=
        if missed then some ⟨seq, ts, 0, [], [], flagged, true, some s.now⟩
        else match s.safety.ember.eye l with
          | some f => if f.seq == seq && f.closedAt.isNone then some { f with flagged := flagged, closedAt := some s.now } else none
          | none => none
      match mine with
      | none => s
      | some f =>
        let other := (s.safety.ember.eye (!l)).bind (fun o => if o.seq == seq && o.closedAt.isSome then some o else none)
        match other with
        | none =>
          let s := s.modEmber (fun e => e.setEye l (some f))
          if missed then
            let t := s.pairStamp seq ts
            s.modEmber (fun e => { e with invalidPair := some (seq, t, eyeFlag l flagged), pairDue := none })
          else s.modEmber (fun e => { e with pairDue := some (s.now + s.emb 0xE 2 * 1000) })
        | some o =>
          let s := s.modEmber (fun e => { e with left := none, right := none, pairDue := none })
          if o.missed then s
          else if missed then
            s.modEmber (fun e => { e with invalidPair := some (seq, if l then ts else o.ts, eyeFlag l flagged + eyeFlag (!l) o.flagged) })
          else s.modEmber (fun e => { e with pair := some (if l then (f, o) else (o, f)) })

/-! ### Flags of the frame in progress -/

/-- Raise flags on the open frame of a stream as a whole. -/
def State.raiseFrame (s : State) (p : StreamRec) (bits : Nat) : State :=
  match (s.cam? p.stream).bind (·.frame) with
  | none => s
  | some f =>
    let fl := f.flags ||| bits
    let s := s.modCam p.stream (fun c => { c with frame := some { f with flags := fl } })
    match f.seq with
    | some q => if f.path == 1 then s.modFrame p.isp p.stream q (fun x => { x with flagged := inputFlagged fl }) else s
    | none => s

/-- An uncorrectable packet header: the packet is lost, and PKT_LOST is set in every frame open on the port (R117). -/
def State.headerLost (s : State) (port : Nat) : State :=
  let s := (s.event (Reg.CFE_PORT_ERR port) F.CFE_PORT_ERR.HDR_LOST).addCnt (Reg.CFE_PORT_CNT port 1) 1
  ((s.flash.usedStreams s.imgRegion).filter (fun p => p.port == port)).foldl (fun s p => s.raiseFrame p flPktLost) s

/-- A corrected header is counted (R117). -/
def State.headerCorrected (s : State) (port : Nat) : State :=
  (s.event (Reg.CFE_PORT_ERR port) F.CFE_PORT_ERR.HDR_CORR).addCnt (Reg.CFE_PORT_CNT port 0) 1

/-- A failed payload CRC is counted. -/
def State.crcFailed (s : State) (port : Nat) : State :=
  (s.event (Reg.CFE_PORT_ERR port) F.CFE_PORT_ERR.CRC).addCnt (Reg.CFE_PORT_CNT port 2) 1

/-! ### Lines (R118, R119, R123) -/

/-- The staging slot of a memory-fed frame is assigned when its first line is ready, or the whole frame is discarded (R310). -/
def State.stageFrame (s : State) (p : StreamRec) (layer : Nat) (seq : Word) : State :=
  match s.stageRing? p layer with
  | none => s
  | some r =>
    let s := s.numberRing r seq
    match s.ring? layer r.idx with
    | none => s
    | some r =>
      if r.begun seq 0 then s
      else
        let q := s.assignBand (0x0100 + p.port) layer r.idx 0 seq p.stream p.height
        if q.2 then q.1.modCam p.stream (fun c => { c with frame := c.frame.map (fun f => { f with staged := some (r.idx, r.slotOf ((r.k? seq).getD 0) 0) }) })
        else q.1

/-- Store one repaired line of a frame on its path. -/
def State.putLine (s : State) (p : StreamRec) (seq : Word) (y : Nat) (line : List Nat) : State :=
  match (s.cam? p.stream) with
  | none => s
  | some c =>
    match c.frame with
    | none => s
    | some f =>
      let s := match f.path, f.staged.bind (fun q => (c.layer.bind (fun l => s.ring? l q.1)).map (fun r => (r, q.2))) with
        | 1, _ => s.modFrame p.isp p.stream seq (fun x => { x with lines := line :: x.lines })
        | 2, some (r, sl) => s.store (ringBase r.rc + sl * r.rc.slotBytes + y * r.rc.pitch) (stageBytes p.dataType line)
        | _, _ => s
      s.emberLine p.stream seq line

/-! ### Closing a frame (R123 to R126) -/

/-- A closed staged frame is released to its pipe, or, when its slot was not free, its outputs are made void (R119, R310). -/
def State.closeStaged (s : State) (p : StreamRec) (layer : Nat) (f : CamFrame) (seq : Word) (word : List Byte) (flags : Nat) : State :=
  match f.staged.bind (fun q => (s.ring? layer q.1).map (fun r => (r, q.2))) with
  | some (r, sl) =>
    let s := s.store (ringBase r.rc + sl * r.rc.slotBytes + r.rc.slotBytes - 32) word
    let s := s.releaseBand layer r.idx ((r.k? seq).getD 0) 0 (inputFlagged flags) none
    s.modPipe p.isp (fun q => { q with waiting := q.waiting ++ [⟨p.stream, layer, seq, f.ts, r.idx, sl, inputFlagged f.flags,
      (f.lineFlags.filter (fun x => inputFlagged x.2)).map (·.1)⟩] })
  | none => s.voidOutputs p layer (s.streamParams p) seq

/-- Close the open frame of a stream: repairs, flags, metadata word, and what its path does with it. `bits` are the flags of
what closed it; no injection follows a frame closed by the next Frame Start (R127). -/
def State.closeFrame (s : State) (p : StreamRec) (bits : Nat) (inject : Bool) : State :=
  match s.cam? p.stream with
  | none => s
  | some c =>
    match c.frame with
    | none => s
    | some f0 =>
      let drop (s : State) : State := s.modCam p.stream (fun c => { c with frame := none })
      match f0.seq with
      | none => drop s
      | some seq =>
        let src := (s.flash.sensor? s.imgRegion p.sensor).map (·.epochSource)
        let late := if f0.lines == 0 && !f0.embSeen && src == some 1 then flEmb else 0
        let s := s.raiseFrame p (bits ||| late ||| (if f0.lines < p.height then flFrameShort else 0))
        let s := match f0.path, c.layer with
          | 2, some l => s.stageFrame p l seq
          | _, _ => s
        let fill := if p.shortFill == 1 && decide (0 < f0.lines) then f0.lastLine else padLine p.dataType p.padValue p.width
        let s := (List.range (p.height - f0.lines)).foldl (fun s i => s.putLine p seq (f0.lines + i) fill) s
        let f := (((s.cam? p.stream).bind (fun (c : StreamSt) => c.frame))).getD f0
        let flags := sealFlags (f.lineFlags.foldl (fun a x => a ||| x.2) f.flags)
        let m : MetaWord := ⟨f.ts, seq, f.epoch, flags, s.now - f.ts, f.lines, f.discarded, f.crcs, f.cuts, p.stream, s.linkByte p.port⟩
        let s := drop (s.writeMeta m)
        let s := s.modCam p.stream (fun c => { c with fresh := if p.fsync == 0xFF then c.fresh else false })
        let s := match f.path, c.layer with
          | 1, some _ =>
            let s := s.modFrame p.isp p.stream seq (fun x => { x with closed := true, flagged := inputFlagged f.flags })
            let s := ((s.beginNext p.isp p.stream seq).endFrame p.isp p.stream seq).showPipe p.isp
            if inject then s.startInjection p else s
          | 2, some l => s.closeStaged p l f seq m.bytes flags
          | _, _ => s
        s.emberClose p.stream seq f.ts (inputFlagged flags) false

/-- Record a missed frame for a pulse (R121). -/
def State.recordMissed (s : State) (p : StreamRec) (tp : Nat) : State :=
  match s.cam? p.stream with
  | none => s
  | some c =>
    let seq := c.next
    let s := s.assignSeq p c tp
    let e := c.epochOf seq
    let (endNs, s) := s.draw
    let fl := sealFlags (flMissed ||| (if e.2 then flEpoch else 0) ||| (if (s.port p.port).reduced then flReduced else 0))
    let s := s.writeMeta ⟨tp, seq, e.1, fl, endNs, 0, 0, 0, 0, p.stream, s.linkByte p.port⟩
    let s := s.modCam p.stream (fun c => { c with owed := none, fresh := false })
    let path := s.pathOf p c
    let s := match c.layer with
      | none => s
      | some l =>
        let s := if path == 2 then
            (match s.stageRing? p l with
             | some r => (s.numberRing r seq).voidBand (0x0100 + p.port) l r.idx 0 seq p.stream p.height
             | none => s)
          else s
        if path == 1 || path == 2 then s.voidOutputs p l (s.streamParams p) seq else s
    s.emberClose p.stream seq tp (inputFlagged fl) true

/-- A missed frame that is owed for an ended window is recorded before anything else is numbered. -/
def State.settleOwed (s : State) (p : StreamRec) : State :=
  match (s.cam? p.stream).bind (·.owed) with
  | some t => s.recordMissed p t
  | none => s

/-! ### Sensor control (R130, R131) -/

/-- Bus time of a list of writes in ns (R130). -/
def busTime (ops : List (List Byte)) (busMode rate : Nat) (mixed : Bool) : Nat :=
  let bit := if busMode == 1 then 1000 else match rate with
    | 0 => 80
    | 1 => 160
    | _ => 320
  let open' := if busMode == 1 || mixed then 1000 else bit
  ops.foldl (fun t (o : List Byte) =>
    let w := leAt o 1 1
    t + 9 * (w % 4 + w / 16 % 8) * bit + (9 + 4) * open') 0

/-- An operation is a WRITE whose fields lie in their ranges. -/
def writeOpOk (o : List Byte) : Bool :=
  let w := leAt o 1 1
  leAt o 0 1 == 1 && (w % 4 == 1 || w % 4 == 2) && decide (1 ≤ w / 16 % 8) && decide (w / 16 % 8 ≤ 4)

/-- Bus time of a stream's batch. -/
def State.batchTime (s : State) (b : Batch) : Nat :=
  match (s.streamRec? b.stream).bind (fun p => s.flash.sensor? s.imgRegion p.sensor) with
  | some q => busTime b.ops q.busMode (s.fld (Reg.CFE_I3C_CTRL q.bus) F.CFE_I3C_CTRL.RATE) (s.flag (Reg.CFE_I3C_CTRL q.bus) F.CFE_I3C_CTRL.MIXED)
  | none => 0

/-- The sensor profile of a stream. -/
def State.sensorOf? (s : State) (stream : Nat) : Option SensorRec := (s.streamRec? stream).bind (fun p => s.flash.sensor? s.imgRegion p.sensor)

/-- A transfer is in progress on a bus. -/
def State.busTransfers (s : State) (bus : Nat) : Bool :=
  s.cam.streams.any (fun c => c.transfer.isSome && ((s.sensorOf? c.stream).map (·.bus)) == some bus)

/-- A sequence holds a bus. -/
def State.busSequence (s : State) (bus : Nat) : Bool := ((s.kin.seqs[bus]?).map (fun r => !r.profiles.isEmpty)).getD false

/-- The pending batch of a stream may start at t: inside its control window, with room for its bus time (R131). -/
def State.batchFits (s : State) (c : StreamSt) (t : Nat) : Bool :=
  match c.batch, c.window, s.sensorOf? c.stream with
  | some b, some (_, fs), some q =>
    let a := fs + q.windowStartUs * 1000
    decide (a ≤ t) && decide (t + s.batchTime b ≤ a + q.windowLenUs * 1000)
  | _, _, _ => false

/-- Show how the last GO of a controller ended or where it stands, when it named this stream. -/
def State.showBatch (s : State) (bus stream state result : Nat) : State :=
  if s.cam.lastGo.getD bus none == some stream then
    (s.setFld (Reg.CFE_I3C_BATCH_STATUS bus) F.CFE_I3C_BATCH_STATUS.STATE state).setFld (Reg.CFE_I3C_BATCH_STATUS bus) F.CFE_I3C_BATCH_STATUS.RESULT result
  else s

end Sys2Proof.Machine
end

