-- ==== Sys2Proof/Machine/Journal.lean ====
section
/-! DEFINITION. The Event Journal (spec/14, R358 to R364, R471): entry into the ring, the mirror, firmware posts, the stream
and forwarding to the collector. -/

namespace Sys2Proof.Machine

open Sys2Proof

/-- SOURCE of the Event Journal's own records (R509). -/
def srcJournal : Nat := 0x1500

/-- Change the journal. -/
def State.modJournal (s : State) (f : Journal → Journal) : State := { s with journal := f s.journal }

/-! ### The 32 bytes of a record (R358) -/

/-- Lay a record out. -/
def JRec.bytes (r : JRec) : List Byte :=
  leBytes 8 r.ts ++ leBytes 4 r.seq.toNat ++ leBytes 2 r.source ++ leBytes 2 r.code ++ leBytes 1 (r.cls % 4 + r.partition % 16 * 16)
    ++ leBytes 1 (bit r.synced + 2 * bit r.lostBefore + 4 * bit r.remote + r.device % 4 * 16) ++ leBytes 1 r.stream ++ [0]
    ++ leBytes 4 r.arg0.toNat ++ leBytes 4 r.arg1.toNat ++ leBytes 4 r.arg2.toNat

/-- Read a record. -/
def JRec.ofBytes (b : List Byte) : JRec :=
  let fl := leAt b 0x11 1
  { ts := leAt b 0 8, seq := w32 (leAt b 8 4), source := leAt b 0xC 2, code := leAt b 0xE 2, partition := leAt b 0x10 1 / 16,
    cls := leAt b 0x10 1 % 4, synced := fl % 2 == 1, lostBefore := fl / 2 % 2 == 1, remote := fl / 4 % 2 == 1,
    device := fl / 16 % 4, stream := leAt b 0x12 1, arg0 := w32 (leAt b 0x14 4), arg1 := w32 (leAt b 0x18 4), arg2 := w32 (leAt b 0x1C 4) }

/-! ### Forwarding (R364, R471) -/

/-- This device forwards its records, and to which device. -/
def State.collector? (s : State) : Option Nat :=
  let c := s.fld Reg.GML_FWD F.GML_FWD.COLLECTOR
  if s.flag Reg.GML_FWD F.GML_FWD.ENABLE && c != s.device then some c else none

/-- Send the records that wait for the collector as soon as it can be reached. -/
def State.forwardRecords (s : State) : State :=
  match s.collector? with
  | none => s.modJournal (fun j => { j with forward := [] })
  | some c =>
    if s.partnerAbsent c || (s.gml.routes.getD c none).isNone then s
    else
      let s := s.journal.forward.foldl (fun (s : State) (p : Nat × JRec) => s.sendTo c (.journal (dev2 s.device) (dev2 c) p.2.bytes)) s
      s.modJournal (fun j => { j with forward := [] })

/-! ### Entry (R360, R361) -/

/-- Show EJ_STATUS.UNMIRRORED, and RESERVE once the last 1,024 places are in use. -/
def State.showUnmirrored (s : State) : State :=
  let n := s.journal.unmirrored.length
  let s := s.setFld Reg.EJ_STATUS F.EJ_STATUS.UNMIRRORED n
  if decide (31744 < n) then s.event Reg.EJ_EVENT F.EJ_EVENT.RESERVE else s

/-- A record of a class may enter (R361). -/
def State.hasRoom (s : State) (cls : Nat) : Bool :=
  !s.journal.mirrorOn || decide (s.journal.unmirrored.length < (if cls < 2 then 31744 else 32768))

/-- The Island's copy of a record shows the sequence that it takes (R397). -/
def numberCopy (r : JRec) (seq : Word) : List JRec → List JRec
  | [] => []
  | x :: t => if x == r then { x with seq := seq } :: t else x :: numberCopy r seq t

/-- Put a record into the ring: it takes the next sequence; with the mirror off the ring overwrites its oldest. -/
def State.enterRing (s : State) (r : JRec) : State :=
  let seq := s.reg Reg.EJ_SEQ
  let s := if 2 ≤ r.cls && !r.remote then s.modJournal (fun j => { j with siCopy := numberCopy r seq j.siCopy }) else s
  let r : JRec := { r with seq := seq, lostBefore := s.journal.lostBefore }
  let full := decide (32768 ≤ s.journal.ring.length)
  let s := s.setReg Reg.EJ_SEQ (seq + 1)
  let s := if full && !s.journal.mirrorOn then s.event Reg.EJ_EVENT F.EJ_EVENT.MIRROR_ERR else s
  let s := s.modJournal (fun j => { j with
    ring := (if full then j.ring.drop 1 else j.ring) ++ [r]
    unmirrored := if j.mirrorOn then j.unmirrored ++ [seq] else j.unmirrored
    lostBefore := false
    forward := j.forward ++ [(s.now, r)] })
  s.showUnmirrored.forwardRecords

/-- RECORDS_LOST follows the record that carries LOST_BEFORE, as soon as it may enter (R361). -/
def State.tellLost (s : State) : State :=
  if s.journal.lostSince == 0 || s.journal.lostBefore || !s.hasRoom 1 then s
  else
    let j := s.journal
    let r : JRec := { ts := s.now, seq := 0, source := srcJournal, code := 0x0002, partition := 0, cls := 1, synced := s.locked, lostBefore := false,
                      remote := false, device := s.device, stream := 0xFF, arg0 := w32 j.lostSince, arg1 := w32 j.lostFirst, arg2 := 0 }
    (s.modJournal (fun j => { j with lostSince := 0, lostFirst := 0 })).enterRing r

/-- Let the record at the front of the source queues enter, or refuse it (R361). -/
def State.enterNext (s : State) : State :=
  match s.journal.queue with
  | [] => s
  | r :: rest =>
    let s := s.modJournal (fun j => { j with queue := rest })
    if s.hasRoom r.cls then (s.enterRing r).tellLost else s.loseRecord r.source

/-- JOURNAL_ENTRY (R361): nothing enters before the journal has started (R509). -/
def execJournalEntry (s : State) : Res :=
  if s.journal.started && !s.journal.fenced then .next s.enterNext else .next s

/-! ### The mirror (R362) -/

/-- First byte of the journal mirror and the records it holds. -/
def mirrorPlace (seq : Word) : Nat := addrLp + 32 * (seq.toNat % 2097152)

/-- The oldest sequence that the mirror holds once a record is copied to it. -/
def mirrorOldest (oldest : Option Word) (seq : Word) : Word :=
  match oldest with
  | none => seq
  | some f => if decide (2097152 ≤ (seq - f).toNat) then seq - 2097151 else f

/-- MIRROR_COPY_DONE (R362): the oldest awaited copy is written and acknowledged. -/
def execMirrorCopyDone (s : State) : Res :=
  match s.journal.unmirrored with
  | [] => .next s
  | q :: rest =>
    let s := match s.journal.ring.find? (fun r => r.seq == q) with
      | some r => s.write (mirrorPlace q) r.bytes
      | none => s
    let s := s.modJournal (fun j => { j with unmirrored := rest, mirrorFrom := some (mirrorOldest j.mirrorFrom q) })
    .next s.showUnmirrored.tellLost

/-! ### Firmware posts (R363) -/

/-- A code of the table "Journal codes" (R359). -/
def journalCode (c : Nat) : Bool :=
  (decide (1 ≤ c) && decide (c ≤ 5)) || (decide (0x100 < c) && decide (c ≤ 0x10C)) || (decide (0x110 ≤ c) && decide (c ≤ 0x114))
    || (decide (0x201 ≤ c) && decide (c ≤ 0x204)) || (decide (0x301 ≤ c) && decide (c ≤ 0x310)) || (decide (0x401 ≤ c) && decide (c ≤ 0x406))
    || (decide (0x501 ≤ c) && decide (c ≤ 0x505)) || (decide (0x601 ≤ c) && decide (c ≤ 0x605))

/-- A post's code and class are admitted: with Domain ID 0 any code of the table and any class; otherwise a code from 0x8000
and class 0 or 1 (R363). -/
def postAdmitted (domain code cls : Nat) : Bool :=
  (domain == 0 && journalCode code) || (decide (0x8000 ≤ code) && decide (cls < 2))

/-- Unit code of the poster of a bank: its Policy Core pair, or the HKC. -/
def posterSource (bank : Nat) : Nat := if bank == 4 then 0x1100 else 0x0B00 + bank

/-- EJ_FW_POST (R363). -/
def execEjFwPost (bank : Fin 5) (domain : BitVec 4) (value : Word) (s : State) : Res :=
  let b := F.EJ_FW_POST.CODE.get value
  let cls := F.EJ_FW_POST.CLASS.get value
  let res := bankOff bank.val Reg.EJ_FW_RESULT
  let src := posterSource bank.val
  let arg := fun (m : Nat) => (s.reg (bankOff bank.val (Reg.EJ_FW_ARG m))).toNat
  if postAdmitted domain.toNat b cls then
    let full := s.journal.fenced || decide (16 ≤ (s.journal.queue.filter (fun q => q.source == src)).length)
    let s := s.log src b cls domain.toNat (F.EJ_FW_POST.STREAM.get value) (arg 0) (arg 1) (arg 2)
    .next (s.setFld res F.EJ_FW_RESULT.RESULT (if full then 1 else 0))
  else .next (s.setFld res F.EJ_FW_RESULT.RESULT 2)

/-! ### The stream (R364) -/

/-- A record that the stream carries (R364). -/
def State.streams (s : State) (r : JRec) : Bool :=
  decide (2 ≤ r.cls)
    || (decide (s.fld Reg.EJ_STREAM_CTRL F.EJ_STREAM_CTRL.MIN_CLASS ≤ r.cls)
        && (r.partition == 0 || (s.fld Reg.EJ_STREAM_CTRL F.EJ_STREAM_CTRL.PARTITIONS).testBit r.partition))

/-- The record of a sequence, from the ring or the mirror. -/
def State.record? (s : State) (seq : Word) : Option JRec :=
  match s.journal.ring.find? (fun r => r.seq == seq) with
  | some r => some r
  | none =>
    match s.journal.mirrorFrom with
    | none => none
    | some f =>
      let r := JRec.ofBytes (s.fetch (mirrorPlace seq) 32)
      if decide ((seq - f).toNat < 2097152) && r.seq == seq then some r else none

/-- The oldest sequence still held. -/
def State.oldestHeld (s : State) : Word :=
  match s.journal.mirrorFrom with
  | some f => f
  | none => ((s.journal.ring.head?).map (·.seq)).getD (s.reg Reg.EJ_SEQ)

/-- Collect at most k records that the stream carries, from a sequence on; the first sequence not looked at. -/
def State.collect (s : State) : Nat → Nat → Word → List JRec × Word
  | 0, _, seq => ([], seq)
  | _ + 1, 0, seq => ([], seq)
  | fuel + 1, k + 1, seq =>
    match (s.record? seq).filter s.streams with
    | some r =>
      let q := s.collect fuel k (seq + 1)
      (r :: q.1, q.2)
    | none => s.collect fuel (k + 1) (seq + 1)

/-- The stream's output record: TYPE 0x0002, on the port that EJ_STREAM_CTRL selects, queue 1 (R364, R476). -/
def State.streamRec (s : State) : Option OutRec :=
  (s.outRecs.find? (fun r => r.type == 2)).map (fun r => { r with
    ports := 2 ^ s.fld Reg.EJ_STREAM_CTRL F.EJ_STREAM_CTRL.PORT
    priority := 1 })

/-- JOURNAL_DATAGRAM_SEND (R364): at most 40 records, the own ones first. -/
def execJournalDatagramSend (s : State) : Res :=
  match s.streamRec with
  | none => .next s
  | some o =>
    if !s.journal.started || !s.flag Reg.EJ_STREAM_CTRL F.EJ_STREAM_CTRL.ENABLE then .next s
    else
      let pos := s.reg Reg.EJ_STREAM_POS
      let lag := seqNewer s.oldestHeld pos
      let s := if lag then s.event Reg.EJ_EVENT F.EJ_EVENT.STREAM_LAG else s
      let start := if lag then s.oldestHeld else pos
      let q := s.collect ((s.reg Reg.EJ_SEQ) - start).toNat 40 start
      let peers := s.journal.fromPeers.take (40 - q.1.length)
      let recs := q.1 ++ peers
      let s := (s.setReg Reg.EJ_STREAM_POS q.2).modJournal (fun j => { j with fromPeers := j.fromPeers.drop peers.length })
      match recs with
      | [] => .next s
      | r :: _ =>
        .next (s.handOver o { source := 2, partition := 0, stream := 0xFF, flagged := false, late := false, ts := s.now, frameSeq := r.seq,
                              bytes := recs.flatMap JRec.bytes })

end Sys2Proof.Machine
end

