-- ==== Sys2Proof/Machine/Time.lean ====
section
/-! DEFINITION. The Timeline's servo (spec/14, R346 to R352): updates from the two sources, steps and rate corrections,
HOLDOVER and LOST, and the read that captures both halves. -/

namespace Sys2Proof.Machine

open Sys2Proof

/-- SOURCE of the Timeline's records (R509). -/
def srcTimeline : Nat := 0x1400

/-- States of the table "Timeline states". -/
def tlFree : Nat := 0
def tlAcquiring : Nat := 1
def tlLocked : Nat := 2
def tlHoldover : Nat := 3
def tlLost : Nat := 4

/-- TL_STATUS.STATE. -/
def State.tlState (s : State) : Nat := s.fld Reg.TL_STATUS F.TL_STATUS.STATE

/-- Change what the servo keeps. -/
def State.modTl (s : State) (f : TimeSt → TimeSt) : State := { s with tl := f s.tl }

/-- Enter a state of the Timeline: TIMELINE_STATE is journaled, a warning for HOLDOVER and LOST (R359, R509). -/
def State.enterTl (s : State) (st : Nat) : State :=
  let old := s.tlState
  let s := s.setFld Reg.TL_STATUS F.TL_STATUS.STATE st
  s.log srcTimeline 0x0004 (if st == tlHoldover || st == tlLost then 1 else 0) 0 0xFF old st (s.fld Reg.TL_STATUS F.TL_STATUS.SOURCE)

/-! ### Steps (R348) -/

/-- An instant moved by a step of d ns. -/
def shiftNat (d : Int) (t : Nat) : Nat := ((t : Int) + d).toNat

/-- A pending instant moved by a step. -/
def shiftOpt (d : Int) (t : Option Nat) : Option Nat := t.map (shiftNat d)

/-- The sequencer's delay list and the starts of periodic nodes. -/
def Fgs.shift (d : Int) (f : Fgs) : Fgs :=
  { f with
    insts := f.insts.map (fun i => { i with
      created := shiftNat d i.created
      ts := shiftNat d i.ts
      holdDue := shiftOpt d i.holdDue
      stalledFrom := shiftOpt d i.stalledFrom })
    nodes := f.nodes.map (fun n => { n with
      startBase := shiftOpt d n.startBase
      starts := n.starts.map (fun p => (p.1, shiftNat d p.2))
      watchFrom := shiftOpt d n.watchFrom })
    flows := f.flows.map (fun w => { w with watchFrom := shiftOpt d w.watchFrom }) }

/-- Units: times held, recurrence events and holds. -/
def UnitSt.shift (d : Int) (u : UnitSt) : UnitSt :=
  { u with
    since := shiftNat d u.since
    recur := u.recur.map (shiftNat d)
    hold := u.hold.map (fun h => { h with since := shiftNat d h.since }) }

/-- Scenes: the phases of a switch and the dwell. -/
def SceneSt.shift (d : Int) (c : SceneSt) : SceneSt :=
  { c with
    switch := c.switch.map (fun w => { w with start := shiftNat d w.start, drainDue := shiftNat d w.drainDue })
    dwellDue := shiftOpt d c.dwellDue
    openedAt := shiftNat d c.openedAt }

/-- Kindling: its holds, waits and windows. -/
def Kindle.shift (d : Int) (k : Kindle) : Kindle :=
  { k with
    holdDue := shiftOpt d k.holdDue
    releasedAt := shiftNat d k.releasedAt
    hkcStartAt := shiftNat d k.hkcStartAt
    seqs := k.seqs.map (fun r => { r with
      retryDue := shiftOpt d r.retryDue
      waitDue := shiftOpt d r.waitDue
      pollFrom := shiftOpt d r.pollFrom })
    verifyDue := shiftOpt d k.verifyDue }

/-- The Camera Front End: pulses that are due, windows and the schedule of each FSYNC output. -/
def Camera.shift (d : Int) (c : Camera) : Camera :=
  { c with
    streams := c.streams.map (fun t => { t with
      pulse := shiftOpt d t.pulse
      owed := shiftOpt d t.owed
      lastFs := shiftOpt d t.lastFs
      window := t.window.map (fun w => (w.1, shiftNat d w.2))
      frame := t.frame.map (fun f => { f with lastPkt := shiftNat d f.lastPkt }) })
    fsync := c.fsync.map (fun o => { o with last := shiftOpt d o.last, stepped := true }) }

/-- The Safety Manager's elapsed times. -/
def Safety.shift (d : Int) (f : Safety) : Safety :=
  { f with
    ember := { f.ember with pairDue := shiftOpt d f.ember.pairDue }
    cover := f.cover.map (fun c => { c with covered := shiftNat d c.covered, interval := shiftNat d c.interval, mismatchAt := shiftOpt d c.mismatchAt })
    selftests := f.selftests.map (fun t => { t with last := shiftNat d t.last })
    flushDue := shiftOpt d f.flushDue
    hb := f.hb.map (shiftNat d)
    served := shiftNat d f.served }

/-- Interfaces: sessions, staging, vehicle-state entries and submissions. -/
def Ifaces.shift (d : Int) (io : Ifaces) : Ifaces :=
  { io with
    svc := io.svc.map (fun v => { v with lastReq := shiftNat d v.lastReq })
    stage := { io.stage with lastAt := shiftNat d io.stage.lastAt }
    vs := io.vs.map (fun v => { v with acceptedAt := shiftNat d v.acceptedAt })
    ofJobs := io.ofJobs.map (fun j => { j with goAt := shiftNat d j.goAt }) }

/-- Links and partners: times since something was heard. -/
def Gml.shift (d : Int) (g : Gml) : Gml :=
  { g with
    heard := g.heard.map (shiftOpt d)
    links := g.links.map (fun l => { l with
      senseAt := shiftOpt d l.senseAt
      lastFlit := shiftNat d l.lastFlit
      replays := l.replays.map (shiftNat d) }) }

/-- The memories' error windows. -/
def MemSt.shift (d : Int) (m : MemSt) : MemSt :=
  { m with
    ueAt := m.ueAt.map (fun p => (p.1, shiftNat d p.2))
    spmAt := m.spmAt.map (fun p => (p.1, shiftNat d p.2))
    ceTimes := m.ceTimes.map (fun p => (p.1, p.2.map (shiftNat d))) }

/-- A step adds the offset to the Timeline, and every pending deadline, period and timeout keeps its distance from the
present (R348); timestamps that were taken stay (log entry 29). -/
def State.shiftTime (s : State) (d : Int) : State :=
  let s1 : State := { s with
    now := shiftNat d s.now
    fgs := s.fgs.shift d
    units := s.units.map (UnitSt.shift d)
    scene := s.scene.shift d
    kin := s.kin.shift d
    cam := s.cam.shift d }
  let s2 : State := { s1 with
    isp := s1.isp.map (fun p => { p with parityAt := shiftOpt d p.parityAt })
    safety := s1.safety.shift d
    io := s1.io.shift d
    gml := s1.gml.shift d
    mm := s1.mm.shift d }
  let s3 : State := { s2 with
    adapt := { s2.adapt with
      evalAt := shiftNat d s2.adapt.evalAt
      thermAt := shiftOpt d s2.adapt.thermAt
      coolSince := s2.adapt.coolSince.map (shiftOpt d)
      raisedAt := shiftOpt d s2.adapt.raisedAt
      starvedAt := shiftNat d s2.adapt.starvedAt }
    maint := { s2.maint with
      queue := s2.maint.queue.map (fun q => { q with at' := shiftNat d q.at' })
      running := s2.maint.running.map (fun q => (q.1, shiftNat d q.2))
      last := s2.maint.last.map (fun q => (q.1, shiftNat d q.2)) }
    nts := s2.nts.map (fun t => { t with since := shiftNat d t.since })
    journal := { s2.journal with
      refusedAt := s2.journal.refusedAt.map (fun p => (p.1, p.2.1, shiftNat d p.2.2))
      forward := s2.journal.forward.map (fun p => (shiftNat d p.1, p.2)) } }
  s3.modTl (fun t => { t with
    primaryAt := shiftOpt d t.primaryAt
    backupAt := shiftOpt d t.backupAt
    heldFrom := shiftOpt d t.heldFrom })

/-- A step: counted, flagged and journaled as TIMELINE_STEP (R348). -/
def State.stepTime (s : State) (d : Int) : State :=
  let s := ((s.shiftTime d).addFld Reg.TL_STEPS F.TL_STEPS.STEPS 1).event Reg.TL_EVENT F.TL_EVENT.STEP
  let v := unsigned 64 d
  s.log srcTimeline 0x0003 0 0 0xFF (v % 2 ^ 32) (v / 2 ^ 32) (s.fld Reg.TL_STATUS F.TL_STATUS.SOURCE)

/-! ### The servo -/

/-- A source delivered time within the last 2 s (R347). -/
def State.delivers (s : State) (at' : Option Nat) : Bool :=
  match at' with
  | some t => decide (s.now < t + 2000000000)
  | none => false

/-- Note that a source delivered time, and whether the servo uses it: the primary always, the backup only while the
primary delivers none (R347). -/
def State.hearSource (s : State) (source : Nat) : State × Bool :=
  if source == 0 then (s, false)
  else if source == s.fld Reg.TL_CTRL F.TL_CTRL.PRIMARY then (s.modTl (fun t => { t with primaryAt := some s.now }), true)
  else if source == s.fld Reg.TL_CTRL F.TL_CTRL.BACKUP then
    (s.modTl (fun t => { t with backupAt := some s.now }), !s.delivers s.tl.primaryAt)
  else (s, false)

/-- Show the source in use and the offset, which saturates (TL_STATUS). -/
def State.showSource (s : State) (source : Nat) (offset : Int) : State :=
  let s := if s.fld Reg.TL_STATUS F.TL_STATUS.SOURCE == source then s
    else (s.setFld Reg.TL_STATUS F.TL_STATUS.SOURCE source).event Reg.TL_EVENT F.TL_EVENT.SOURCE_CHANGE
  s.setFld Reg.TL_STATUS F.TL_STATUS.OFFSET (unsigned 16 (clampI (-32767) 32767 offset))

/-- TL_FREQ takes a correction within ±200 ppm that the spec does not state otherwise (R348). -/
def State.slew (s : State) : State :=
  let v := s.draw
  v.2.setReg Reg.TL_FREQ (w32 (unsigned 32 (((v.1 % 400001 : Nat) : Int) - 200000)))

/-- Correct the Timeline by an offset (R348): the first offset since kindling started steps it, and so does the third
consecutive one beyond the threshold. -/
def State.correct (s : State) (offset : Int) : State :=
  let beyond := decide ((s.fld Reg.TL_CTRL F.TL_CTRL.STEP_THRESH_US * 1000 : Int) < (offset.natAbs : Int))
  let far := if beyond then s.tl.beyond + 1 else 0
  if !s.tl.measured || decide (3 ≤ far) then
    (s.modTl (fun t => { t with measured := true, beyond := 0 })).stepTime offset
  else (s.modTl (fun t => { t with beyond := far })).slew

/-- ACQUIRING becomes LOCKED at the eighth consecutive update within 100 ns. -/
def State.lockWatch (s : State) (offset : Int) : State :=
  let good := if decide (offset.natAbs ≤ 100) then s.tl.good + 1 else 0
  let s := s.modTl (fun t => { t with good := good })
  if s.tlState == tlAcquiring && decide (8 ≤ good) then
    (s.enterTl tlLocked).setFlag Reg.TL_STATUS F.TL_STATUS.EVER_LOCKED true
  else s

/-- TL_SERVO_UPDATE: a source delivers time and its offset is measured (R347, R348). -/
def execTlServoUpdate (source : Fin 8) (offset : Int) (s : State) : Res :=
  if s.kin.porstLow then .next s
  else
    let q := s.hearSource source.val
    if q.2 then
      let s := q.1.showSource source.val offset
      let s := if s.tlState == tlFree || s.tlState == tlHoldover || s.tlState == tlLost then
          (s.modTl (fun t => { t with good := 0, beyond := 0, heldFrom := none })).enterTl tlAcquiring
        else s
      .next ((s.correct offset).lockWatch offset)
    else .next q.1

/-- TL_HOLDOVER_TIMEOUT: both sources silent for 2 s end LOCKED (R347). -/
def execTlHoldoverTimeout (s : State) : Res :=
  if s.tlState == tlLocked then
    let last := max (s.tl.primaryAt.getD 0) (s.tl.backupAt.getD 0)
    let s := s.reach (last + 2000000000)
    let s := s.modTl (fun t => { t with heldFrom := some s.now, good := 0 })
    .next ((s.enterTl tlHoldover).event Reg.TL_EVENT F.TL_EVENT.HOLDOVER)
  else .next s

/-- TL_LOST_TIMEOUT: HOLDOVER_S in HOLDOVER end it (R347). -/
def execTlLostTimeout (s : State) : Res :=
  if s.tlState == tlHoldover then
    let s := s.reach (s.tl.heldFrom.getD s.now + s.fld Reg.TL_CTRL F.TL_CTRL.HOLDOVER_S * 1000000000)
    .next ((s.enterTl tlLost).event Reg.TL_EVENT F.TL_EVENT.LOST)
  else .next s

/-- A read of TL_NOW_HI by an initiator captures the whole Timeline for its following read of TL_NOW_LO (R352). -/
def State.captureNow (s : State) (bank : Nat) : State := s.setReg (bankOff bank Reg.TL_NOW_LO) (w32 s.now)

/-- TL_NOW_HI_READ (R352). The command does not name its initiator: it stands for a read by each of them (log entry 39). -/
def execTlNowHiRead (s : State) : Res :=
  .next ((List.range 6).foldl (fun (s : State) b => s.captureNow b) (s.setReg Reg.TL_NOW_HI (w32 (s.now / 2 ^ 32))))

end Sys2Proof.Machine
end

