-- ==== Sys2Proof/Machine/KinOps.lean ====
section
/-! DEFINITION. Resets and what kindling shares between its commands (R35 to R46; spec/02): what a reset leaves, failure,
fences before READY, and the end state. -/

namespace Sys2Proof.Machine

open Sys2Proof

/-- Kindling stage, as SYS_KIN_STATUS.STATE shows it. -/
def State.stage (s : State) : Nat := s.fld Reg.SYS_KIN_STATUS F.SYS_KIN_STATUS.STATE

/-- Show a stage. -/
def State.setStage (s : State) (n : Nat) : State := s.setFld Reg.SYS_KIN_STATUS F.SYS_KIN_STATUS.STATE n

/-- Change reset and kindling control. -/
def State.modKin (s : State) (f : Kindle → Kindle) : State := { s with kin := f s.kin }

/-- Change the pins. -/
def State.modPins (s : State) (f : Pins → Pins) : State := { s with pins := f s.pins }

/-- Change the Island's state. -/
def State.modSafety (s : State) (f : Safety → Safety) : State := { s with safety := f s.safety }

/-! ### What a warm reset keeps (R11, table "Reset types") -/

/-- Bits of the register at an offset whose reset value carries "(P)". -/
def keepMask (a : Nat) : Word :=
  let o := a % 0x1000000
  match regTable.find? (fun r => decide (r.base ≤ o) && strideHit r.strides (o - r.base)) with
  | some r => r.fields.foldl (fun (m : Word) f => if f.keep then m ||| f.bits.mask else m) 0
  | none => 0

/-- Registers of the Safety Island that a warm reset leaves, beside those marked (P): "Safety Island state" survives
(DEDUCED, log entry 31). -/
def islandKeeps (a : Nat) : Bool := a == Reg.SI_LAST || a == Reg.SI_EVENT || a == Reg.SI_EVENT_EN || a == Reg.SI_COVER_SEL

/-- What one register entry becomes at a warm reset. -/
def keptReg (p : Nat × Word) : Option (Nat × Word) :=
  if islandKeeps p.1 then some p
  else
    let m := keepMask p.1
    let w := (p.2 &&& m) ||| (resetWord p.1 &&& ~~~m)
    if w == resetWord p.1 then none else some (p.1, w)

/-- The Safety Island across a warm reset of the core: Island SRAM's EMBER_CONFIG copy, the sensors' readings and its own
timers stay; what it knew of the core's units goes. -/
def Safety.warm (f : Safety) : Safety :=
  let z := State.reset.safety
  let e : Ember := { z.ember with cfg := f.ember.cfg }
  { z with
    ember := e
    temps := f.temps
    levels := f.levels
    served := f.served
    stopped := f.stopped }

/-- Kindling control across a warm reset. -/
def Kindle.warm (k : Kindle) : Kindle :=
  let z := State.reset.kin
  { z with
    porstLow := false
    wrstLow := k.wrstLow
    siFailed := k.siFailed
    hkcFailed := k.hkcFailed
    everReady := k.everReady
    committedInHold := k.committedInHold
    coreReset := true }

/-- Pins while the core is in reset (table "Pin states through reset and kindling"). -/
def Pins.held (p : Pins) : Pins :=
  { p with
    faultN := false
    safeState := true
    errInLatched := false
    peerAlive := false
    gpioDriven := 0 }

/-- The core enters reset: everything on VDD_CORE and VDD_PHY takes its reset state (R11, R36). -/
def State.coreOff (s : State) : State :=
  let z := State.reset
  let j : Journal := { z.journal with siCopy := s.journal.siCopy }
  let io : Ifaces := { z.io with
    mirror := s.io.mirror
    refreshes := s.io.refreshes
    miso := s.io.miso }
  { z with
    regs := s.regs.filterMap keptReg
    now := s.now
    free := s.free
    otp := s.otp
    flash := { s.flash with skipped := [] }
    tl := s.tl
    pins := s.pins.held
    kin := s.kin.warm
    safety := s.safety.warm
    journal := j
    io := io
    pending := s.pending }

/-! ### Warm resets (R36 to R38) -/

/-- A warm reset is in progress. -/
def State.inWarmReset (s : State) : Bool := s.kin.coreReset && s.stage == 0 && !s.kin.porstLow

/-- A warm reset can take effect: neither PORST_N, a failed self-test or HKC check, nor an Island stopped by cause 16 holds
the core (R36, R39, R41, R411). -/
def State.resettable (s : State) : Bool := !s.kin.porstLow && !s.kin.siFailed && !s.kin.hkcFailed && !s.safety.stopped

/-- A warm reset with its cause; `hold` is the 10 µs of a reset that the Safety Manager decides. The recovery hold ends
only at WRST_N after a staging session has committed (R38). -/
def State.warmReset (s : State) (cause : Bits) (hold : Bool) : State :=
  let due := if hold then some (s.now + 10000) else none
  if !s.resettable then s
  else if s.stage == 14 && (hold || !s.kin.committedInHold) then s
  else if s.inWarmReset then
    (s.setFld Reg.SYS_RST_CAUSE cause 1).modKin (fun k => { k with holdDue := if hold then due else k.holdDue })
  else if s.stage == 1 then
    (s.setFld Reg.SYS_RST_CAUSE cause 1).addFld Reg.SYS_KIN_STATUS F.SYS_KIN_STATUS.WARM_COUNT 1
  else
    let leaving := s.stage == 14
    let s := s.coreOff
    let s := if leaving then s else s.addFld Reg.SYS_KIN_STATUS F.SYS_KIN_STATUS.WARM_COUNT 1
    (s.setFld Reg.SYS_RST_CAUSE cause 1).modKin (fun k => { k with holdDue := due })

/-- The recovery hold (R38): the HKC and the NVM controller alone run, for the recovery service. -/
def State.recoveryHold (s : State) (code : Nat) : State :=
  let s := s.coreOff
  ((s.setStage 14).setFld Reg.SYS_KIN_STATUS F.SYS_KIN_STATUS.FAIL_CODE code).modKin (fun k => { k with committedInHold := false })

/-- The links that the system description uses start to train, and the partners it names are shown (R448, R453). -/
def State.startLinks (s : State) : State :=
  let n := s.deviceCount
  let m := ((List.range n).filter (· != s.device)).foldl (fun a e => a + 2 ^ e) 0
  let s := s.setFld Reg.GML_PEERS F.GML_PEERS.PRESENT m
  [0, 1, 2].foldl (fun (s : State) k =>
    let a := Reg.GML_STATUS k
    match s.linkPartner k with
    | some e => (s.setFld a F.GML_STATUS.STATE 1).setFld a F.GML_STATUS.PARTNER e
    | none => if s.ringTopology && k == 1 then s.setFld a F.GML_STATUS.STATE 6 else s) s

/-- Kindling starts at HKC_START (R36, R353). -/
def State.startKindling (s : State) : State :=
  let s := (s.setStage 2).startLinks
  let s := s.setReg Reg.EJ_BOOT (s.reg Reg.EJ_BOOT + 1)
  let s := s.modTl (fun t => { t with measured := false })
  s.modKin (fun k => { k with
    coreReset := false
    holdDue := none
    hkcStartAt := s.now
    committedInHold := false })

/-- The release of the core reset (R36): the fourth warm reset in a row without READY starts no kindling (R38). -/
def State.releaseCore (s : State) : State :=
  let s := s.modKin (fun k => { k with releasedAt := s.now })
  if decide (4 ≤ s.fld Reg.SYS_KIN_STATUS F.SYS_KIN_STATUS.WARM_COUNT) && !s.kin.committedInHold then
    s.recoveryHold (s.fld Reg.SYS_KIN_STATUS F.SYS_KIN_STATUS.FAIL_CODE)
  else s.startKindling

/-! ### Failure (R45) -/

/-- Kindling ends in FAILED with a code; `region` is 1 for A and 2 for B, 0 for neither, and `pos` a table position. -/
def State.kindlingFail (s : State) (code region pos : Nat) : State :=
  let s := s.log 0x1100 (0x100 + code) 3 0 0xFF region pos 0
  let us := (s.now - s.kin.releasedAt) / 1000
  let st := s.reg Reg.SYS_KIN_STATUS
  let s := s.coreOff
  let s := s.setReg Reg.SYS_KIN_STATUS st
  let a := Reg.SYS_KIN_STATUS
  let s := (((s.setStage 13).setFld a F.SYS_KIN_STATUS.FAIL_CODE code).setFld a F.SYS_KIN_STATUS.REGION 0).setFld a F.SYS_KIN_STATUS.FALLBACK 0
  s.setReg Reg.SYS_KIN_TIME (w32 us)

/-- The table position of a failure that concerns no section. -/
def noPos : Nat := 0xFFFFFFFF

/-- Number of the candidate being tried as records and SYS_KIN_STATUS.REGION name it: 1 region A, 2 region B. -/
def State.regionNo (s : State) : Nat :=
  match s.kin.booted with
  | some r => r + 1
  | none =>
    match s.kin.candidates with
    | [] => 0
    | r :: _ => r + 1

/-- A candidate fails LOAD or CHECK: the next one is tried (R49). -/
def State.failCandidate (s : State) (code pos : Nat) : State :=
  let s := s.log 0x1100 0x0110 1 0 0xFF s.regionNo code 0
  match s.kin.candidates with
  | _ :: r :: rest =>
    (s.modKin (fun k => { k with
      candidates := r :: rest
      tried := k.tried + 1
      nextSection := 0
      loadDone := false
      checkDone := false })).setStage 5
  | _ => s.kindlingFail code s.regionNo pos

/-! ### Fences before READY (R40, R41) -/

/-- Fence a unit in kindling: it is gated, leaves its pool and is reported. Cause 1 is BIST, 3 the rule of R40 on VERIFY. -/
def State.kinFence (s : State) (code cause : Nat) : State :=
  let u := s.unit code
  if u.fenced then s
  else
    let s := s.setUnit { u with
      fenced := true
      cause := cause
      heldBy := none
      entry := none }
    let s := (s.gateUnit code).event Reg.PMU_EVENT F.PMU_EVENT.FENCE
    let s := s.log 0x1A00 0x0112 1 0 0xFF code cause 0
    let s := s.addFld Reg.SYS_KIN_STATUS F.SYS_KIN_STATUS.FENCED 1
    let n := code % 256
    match code / 256 with
    | 0x01 => s.setFld (Reg.CFE_PORT_STATUS n) F.CFE_PORT_STATUS.STATE 3
    | 0x0B => (s.modCore n (fun c => { c with halted := true })).setFld (Reg.SYS_PC_STATUS n) F.SYS_PC_STATUS.STATE 4
    | 0x0C => s.setFld (Reg.MC_STATUS n) F.MC_STATUS.STATE 5
    | 0x0D => s.setFld (Reg.GML_STATUS n) F.GML_STATUS.STATE 5
    | _ => s

/-- Unit codes of the Frame Store bank pairs, the memory controllers and the links. -/
def otherCodes : List Nat :=
  (List.range 4).map (0x0C00 + ·) ++ (List.range 3).map (0x0D00 + ·) ++ (List.range 48).map (0x0E00 + ·)

/-- Power domains that R441 counts. -/
def domainCount : Nat := 188

/-- Every unit and domain is powered for BIST. -/
def State.powerAll (s : State) : State :=
  let s := (maskCodes ++ otherCodes).foldl (fun s c => s.modUnit c (fun u => { u with gated := false })) s
  (List.range domainCount).foldl (fun s d => s.setDomain true d) s

/-! ### The memory of LOAD (R42, R56) -/

/-- Every channel has been trained, or has failed. -/
def State.trainingOver (s : State) : Bool := decide (4 ≤ (s.kin.trainedCh ++ s.kin.fencedCh).eraseDups.length)

/-- The first section of the candidate whose load range leaves the reported capacity. -/
def State.beyondCapacity (s : State) : Option SecEnt :=
  let r := s.kin.candidates.headD 0
  (s.flash.sections r).find? (fun e => loadsToLpddr e.type && decide (addrLp + s.lpBytes < e.load + e.size))

/-- R42 once the channels are known: some channel failed and an address lies above what is left, or fewer than two channels
are left. -/
def State.trainFailed (s : State) : Bool :=
  decide (s.channels.length < 2) || (decide (s.channels.length < 4) && s.beyondCapacity.isSome)

/-- The mirror's region of the memory controllers' firewall (R362, R401): every Domain ID reads it, the Event Journal alone
writes it. -/
def mirrorRegions : List FwRegion :=
  [⟨0xE0, 31, true, true, true, 0, addrLp, 16384, 0xFFFF, 0, none⟩,
   ⟨0xE0, 31, true, true, false, Config.initiatorId 0x1500, addrLp, 16384, 0, 1, none⟩]

/-- LPDDR5X is trained: LOAD begins and the mirror is on. -/
def State.startLoad (s : State) : State :=
  let on := s.journal.started && !s.journal.fenced
  let s := (s.modJournal (fun j => { j with mirrorOn := on })).setFlag Reg.EJ_STATUS F.EJ_STATUS.MIRROR_ON on
  let rs := s.safety.regions.filter (fun r => !(r.target == 0xE0 && r.region == 31)) ++ mirrorRegions
  (s.modSafety (fun f => { f with regions := rs })).setStage 5

/-! ### Binding the boot scene (R40, R43) -/

/-- The boot scene when it fits, else its lowest-numbered fitting variant. -/
def State.bootScene? (s : State) : Option Nat :=
  let b := s.flash.imgLe s.imgRegion 0x024 1
  if s.fits b then some b
  else (List.range 16).find? (fun m => ((s.sceneRec? m).bind (·.bankedOf)) == some b && s.fits m)

/-- Some stream of the base layer of the boot scene is absent. -/
def State.baseAbsent (s : State) : Bool :=
  let b := s.flash.imgLe s.imgRegion 0x024 1
  match (s.sceneRec? b).bind (fun (c : SceneRec) => c.layers.head?.bind s.layerRec?) with
  | some l => (s.flash.layerStreams s.imgRegion l).any (fun p => s.kin.absentStreams.contains p.stream)
  | none => false

/-- Take every bound layer down before READY, with nothing to cinder: no instance has run outside kindling. -/
def State.unbindAll (s : State) : State :=
  let ids := s.scene.layers.map (fun l => l.rc.id)
  let streams := s.scene.layers.flatMap (fun (l : BoundLayer) => l.streams)
  let s := streams.foldl State.unbindStream s
  let s : State := { s with scene := { s.scene with layers := s.scene.layers.map (fun (l : BoundLayer) => { l with outgoing := true }) } }
  (ids.foldl State.removeLayer s).syncCvus

/-- Drive a GPIO at a level of its record: 0 low, 1 high, 2 high impedance (table "GPIO record"). -/
def Pins.drive (p : Pins) (n level : Nat) : Pins :=
  let m : BitVec 32 := BitVec.ofNat 32 (2 ^ n)
  match level with
  | 0 => { p with gpio := p.gpio &&& ~~~m, gpioDriven := p.gpioDriven ||| m }
  | 1 => { p with gpio := p.gpio ||| m, gpioDriven := p.gpioDriven ||| m }
  | _ => { p with gpioDriven := p.gpioDriven &&& ~~~m }

/-- The GPIO take the functions of their records (R491): OUTPUT starts at its default; SOURCE and PPS are
driven, at a level that `State.gpioPin` computes. -/
def State.assignGpio (s : State) : State :=
  (List.range 32).foldl (fun (s : State) n =>
    let g := s.gpioRec n
    match g.function with
    | 2 => s.modPins (fun p => p.drive n (g.levels % 4))
    | 4 => s.modPins (fun p => p.drive n 0)
    | 5 => s.modPins (fun p => p.drive n 0)
    | _ => s) s

/-- In the safe state every output takes SAFE (R491). -/
def State.gpioSafe (s : State) : State :=
  (List.range 32).foldl (fun (s : State) n =>
    let g := s.gpioRec n
    if g.function == 2 then s.modPins (fun p => p.drive n (g.levels / 4 % 4)) else s) s

/-- Bank 7 of every pipe holds the service parameter set (R141). -/
def State.serviceBank (s : State) : State :=
  (List.range 4).foldl (fun (s : State) n =>
    let b : IspBank := ⟨0xFF, s.flash.ispSet s.imgRegion 0xFF, [], false⟩
    let s := s.modPipe n (fun p => { p with banks := p.banks.mapIdx (fun i x => if i == 7 then some b else x) })
    s.setFlag (Reg.ISP_BANK n 7) F.ISP_BANK.VALID true) s

/-- Bind a scene as the first one: every layer is bound and opened (R79). -/
def State.bindScene (s : State) (n : Nat) : State :=
  match s.sceneRec? n with
  | none => s
  | some sc =>
    let ls := sc.layers.filterMap s.layerRec?
    let s := ls.foldl (fun (s : State) l => s.bindLayer l sc.periodNs) s
    let s := ls.foldl (fun (s : State) l => s.openLayer l.id) s
    let a := Reg.SYS_SCENE_STATUS
    let s := ((s.setFld a F.SYS_SCENE_STATUS.SCENE n).setFld a F.SYS_SCENE_STATUS.TARGET n).setFlag a F.SYS_SCENE_STATUS.BANKED sc.bankedOf.isSome
    let s : State := { s with scene := { s.scene with openedAt := s.now } }
    s.syncCoverage s.now

/-- The units that VERIFY checks: every pipe, engine and tile in service with expected values of KIND 0 or 1 (R44). -/
def State.verifyUnits (s : State) : List Nat :=
  maskCodes.filter (fun c => decide (2 ≤ c / 256) && decide (c / 256 ≤ 8) && !(s.unit c).fenced
    && (s.flash.expected s.imgRegion).any (fun e => e.unit == c && decide (e.kind ≤ 1)))

/-- The coverage set of VERIFY. -/
def State.coverAll (s : State) : State :=
  let cover := s.verifyUnits.map (fun u => (⟨u, s.now, s.now, 0, 0, true, false, false, none, none, 0, 0⟩ : CoverSt))
  s.modSafety (fun f => { f with cover := cover })

/-- A mismatch in VERIFY (R40): the unit is fenced, and the boot scene's variant on the remaining units is bound. -/
def State.verifyMismatch (s : State) (code : Nat) : State :=
  let s := s.kinFence code 3
  let s := s.modSafety (fun f => { f with cover := f.cover.filter (fun c => c.unit != code) })
  if s.fits s.sceneNo then s
  else
    match s.bootScene? with
    | none => s.kindlingFail 0x07 s.regionNo noPos
    | some n =>
      let cover := s.safety.cover
      let s := s.unbindAll.bindScene n
      s.modSafety (fun f => { f with cover := cover })

/-! ### READY (R44, R54, R414, R415) -/

/-- Something is fenced that leaves the device banked: the scene is a variant, or the Event Journal is fenced. -/
def State.bankedNow (s : State) : Bool := (((s.sceneRec? s.sceneNo).bind (·.bankedOf)).isSome) || s.journal.fenced

/-- A severe fault is present (R44). -/
def State.severePresent (s : State) : Bool :=
  s.safety.severe.isSome || !s.safety.severes.isEmpty || (s.pins.errInLatched && s.emb 0x2D 1 == 3)

/-- Raise the event of a latched ERR_IN_N by ERR_IN_CLASS (R414). -/
def State.raiseErrIn (s : State) : State :=
  let cls := s.emb 0x2D 1
  let s := s.log 0x1200 0x070B 1 0 0xFF cls s.safety.errLowUs 0
  let s := s.modSafety (fun f => { f with errRaised := true })
  if cls == 2 then s.doubt 12 0x1200 0 0
  else if cls == 3 then s.severe 12 0x1200
  else s

/-- READY or READY_BANKED. -/
def State.ready (s : State) : State :=
  let a := Reg.SYS_KIN_STATUS
  let severe := s.severePresent
  let us := (s.now - s.kin.releasedAt) / 1000
  let s := (s.setStage (if s.bankedNow then 12 else 11)).setFld a F.SYS_KIN_STATUS.WARM_COUNT 0
  let s := s.setReg Reg.SYS_KIN_TIME (w32 us)
  let svn := s.flash.imgLe s.imgRegion 0x010 4
  let s : State := if !s.kin.everReady && s.flash.imgLe s.imgRegion 0x014 4 % 2 == 1 && decide (s.otp.rollback < svn) then
      { s with otp := { s.otp with rollback := min 64 svn } }
    else s
  let s := s.modKin (fun k => { k with
    everReady := true
    verifyDue := none })
  let s := if severe then s
    else
      let s := s.modPins (fun p => { p with
        faultN := true
        safeState := false })
      ((s.setFlag Reg.SI_STATUS F.SI_STATUS.SAFE false).setFlag Reg.SI_STATUS F.SI_STATUS.FAULT_N true).setFlag Reg.OF_RESULT F.OF_RESULT.ENABLED true
  let s := if s.pins.errInLatched then s.raiseErrIn else s
  let s := s.startCounts.modSel (fun x => { x with announce := some 4 })
  let s := (s.setFld Reg.SI_STATUS F.SI_STATUS.EMBER 0).setFld Reg.SI_SELECT F.SI_SELECT.EMBER_INVALID 0
  let s := s.modEmber (fun e => { e with selfMisses := 0 })
  let s := (s.setService (((s.sceneRec? s.sceneNo).map (fun (c : SceneRec) => c.service)).getD false)).gateUnbound
  let s := [0, 1].foldl (fun (s : State) m => s.setFld (Reg.ETH_STATUS m) F.ETH_STATUS.MODE (s.ethMode m)) s
  let s := [0, 1].foldl (fun (s : State) c => s.setFld (Reg.CAN_STATUS c) F.CAN_STATUS.STATE (if s.vinLe (0x20 + 8 * c) 2 == 0 then 3 else 0)) s
  (s.syncCoverage s.now).refreshActive

end Sys2Proof.Machine
end

