-- ==== Sys2Proof/Machine/MaintOps.lean ====
section
/-! DEFINITION. The maintenance arbiter's rules, and the start of a checker's slice (R409, R443, R444). -/

namespace Sys2Proof.Machine

open Sys2Proof

/-! ### When a slice may start (R409) -/

/-- A checker whose slice holds a dispatchable unit. -/
def dispatchableTest (checker : Nat) : Bool := checker == 0 || checker == 1 || checker == 2 || checker == 7

/-- A checker whose slice holds the unit it names. -/
def holdsUnit (checker : Nat) : Bool := dispatchableTest checker || checker == 3 || checker == 4 || checker == 9 || checker == 10

/-- The unit is offered to its slice: it is free, and no ready instance above priority 4 takes it. -/
def State.sliceOffered (s : State) (checker unit : Nat) : Bool :=
  let n := unit % 256
  let u := s.unit unit
  match checker with
  | 0 | 1 | 2 => s.unitFree unit && (s.pick unit ([7, 6, 5].flatMap (s.readyList (classOfUnit unit))) []).1.isNone
  | 7 => s.unitFree unit && (s.core n).bank == 0
  | 3 => (s.pipe n).frames.isEmpty && (s.pipe n).inject.isNone && u.heldBy.isNone && !u.fenced && !u.gated
  | 4 => u.heldBy.isNone && !u.fenced
      && ((s.flash.usedStreams s.imgRegion).filter (fun p => p.port == n)).all (fun p => ((s.cam? p.stream).bind (·.frame)).isNone)
  | 9 => s.cvuState n == 0 && s.fld (Reg.CVU_STATUS n) F.CVU_STATUS.OWNER == 1 && u.heldBy.isNone && !u.fenced
  | _ => !u.fenced

/-- An instant lies from now to a limit. -/
def dueWithin (now lim t : Nat) : Bool := decide (now ≤ t) && decide (t ≤ lim)

/-- The delay list holds an entry of a safety partition that bars a slice of L ns on a unit. -/
def State.sliceBarred (s : State) (unit len : Nat) : Bool :=
  let lim := s.now + len + 2000
  s.fgs.nodes.any (fun n => isSafety n.domain && n.rc.periodic &&
      (match n.startBase, s.layer? n.layer with
       | some b, some l => maskNames l.rc.unitMask unit && dueWithin s.now lim (b + n.startNext * (l.periodNs * max 1 n.rc.rateDiv))
       | _, _ => false))
    || s.fgs.insts.any (fun i => i.live &&
        (match s.node? i.node with
         | some n => isSafety n.domain && (s.unitsOf n).contains unit && (dueWithin s.now lim (n.deadline i.ts)
            || (n.preferred == some unit && (match i.holdDue with
                | some t => dueWithin s.now lim t
                | none => false)))
         | none => false))

/-- The instance of a checker. -/
def State.selftest? (s : State) (checker unit : Nat) : Option SelfTestSt :=
  s.safety.selftests.find? (fun t => t.checker == checker && t.unit == unit)

/-- Change the instance of a checker. -/
def State.modTest (s : State) (checker unit : Nat) (f : SelfTestSt → SelfTestSt) : State :=
  s.modSafety (fun x => { x with selftests := x.selftests.map (fun (t : SelfTestSt) => if t.checker == checker && t.unit == unit then f t else t) })

/-! ### Starts (R444) -/

/-- No running activity holds a resource, and no earlier reserved request of a higher class needs one. -/
def State.resFree (s : State) (a at' : Nat) : Bool :=
  !s.maint.running.any (fun r => actClash a r.1)
    && !s.maint.queue.any (fun q => q.reserved && decide (q.at' < at') && decide (actClass q.act < actClass a) && actClash a q.act)

/-- An activity may start now. -/
def State.mayStart (s : State) (a at' : Nat) : Bool :=
  s.resFree a at' &&
    (if actClass a == 1 then
      let t := actTest a
      s.sliceOffered t.1 t.2 && !(dispatchableTest t.1 && s.sliceBarred t.2 (sliceNs t.1))
    else true)

/-- The activity names something that is there. -/
def State.actKnown (s : State) (a : Nat) : Bool :=
  let l := a % 256
  match actClass a with
  | 1 =>
    let t := actTest a
    match s.selftest? t.1 t.2 with
    | some x => !x.running
    | none => false
  | 2 => decide (l < 12) && !s.groupOut (addrFs + l * 0x2000000)
  | 3 => s.channels.contains l
  | 4 => decide (l < 16)
  | 5 => s.channels.contains l
  | _ => false

/-- Start an activity: a slice holds its unit, a retraining slice shows in its channel's state. -/
def State.startAct (s : State) (a : Nat) : State :=
  let m : Maint := { s.maint with
    queue := s.maint.queue.filter (fun q => q.act != a)
    running := s.maint.running ++ [(a, s.now)] }
  let s := ({ s with maint := m }).showMaint
  match actClass a with
  | 1 =>
    let t := actTest a
    let s := s.modTest t.1 t.2 (fun x => { x with running := true })
    if holdsUnit t.1 then s.modUnit t.2 (fun u => { u with heldBy := some 2 }) else s
  | 3 => s.setFld (Reg.MC_STATUS (a % 256)) F.MC_STATUS.STATE 3
  | _ => s

/-- Queue a request; one equal to a queued one is merged with it. -/
def State.queueAct (s : State) (a : Nat) : State :=
  if s.maint.queue.any (fun q => q.act == a) then s
  else
    let r : MaintReq := ⟨a, s.now, false, false⟩
    let m : Maint := { s.maint with queue := s.maint.queue ++ [r] }
    ({ s with maint := m }).showMaint

/-- A start request. -/
def State.requestAct (s : State) (a : Nat) : State :=
  if !s.actKnown a then s
  else if s.mayStart a s.now then s.startAct a
  else s.queueAct a

/-- The queue in class order and, within a class, in request order. -/
def scanOrder (q : List MaintReq) : List MaintReq := [1, 2, 3, 4, 5].flatMap (fun c => q.filter (fun r => actClass r.act == c))

/-- Scan the queue: start every request whose resources are free. -/
def State.scanMaint (s : State) : State :=
  (scanOrder s.maint.queue).foldl (fun (s : State) q => if s.actKnown q.act && s.mayStart q.act q.at' then s.startAct q.act else s) s

/-- A running activity ends at the end of its length. -/
def State.endAct (s : State) (a start : Nat) : State :=
  let s := s.reach (start + actNs a)
  let s := ({ s with maint := { s.maint with running := s.maint.running.filter (fun r => r.1 != a) } }).showMaint
  if actClass a == 3 && s.fld (Reg.MC_STATUS (a % 256)) F.MC_STATUS.STATE == 3 then s.setFld (Reg.MC_STATUS (a % 256)) F.MC_STATUS.STATE 2 else s

/-! ### Shed levels (R433, R435, R438) -/

/-- Log2 code of a multiplier, 0xF for stopped. -/
def multCode (m : Nat) : Nat := if m == 0 then 15 else if m == 1 then 0 else if m == 2 then 1 else if m == 4 then 2 else 3

/-- Show the multipliers in force. -/
def State.showMults (s : State) : State :=
  let m := s.multsNow
  let a := Reg.PMU_STATUS
  ((s.setFld a F.PMU_STATUS.MULT1 (multCode m.1)).setFld a F.PMU_STATUS.MULT2 (multCode m.2.1)).setFld a F.PMU_STATUS.MULT3 (multCode m.2.2)

/-- SOURCE of the PMU's and the arbiter's records. -/
def srcPmu : Nat := 0x1A00

/-- One of the three levels changes: 0 thermal, 1 rule, 2 starvation. The shed level in force is the highest (R433). -/
def State.setLevel (s : State) (which level : Nat) : State :=
  let a := Reg.PMU_SHED
  let b := match which with
    | 0 => F.PMU_SHED.THERMAL
    | 1 => F.PMU_SHED.RULES
    | _ => F.PMU_SHED.STARVE
  let old := s.fld a b
  if old == level then s
  else
    let s := (s.setFld a b level).log srcPmu 0x0802 0 0 0xFF old level which
    let top := max (s.fld a F.PMU_SHED.THERMAL) (max (s.fld a F.PMU_SHED.RULES) (s.fld a F.PMU_SHED.STARVE))
    let s := if top == s.fld a F.PMU_SHED.LEVEL then s else (s.setFld a F.PMU_SHED.LEVEL top).event Reg.PMU_EVENT F.PMU_EVENT.SHED
    s.showMults

/-- A checker is starved: the starvation level rises, to MAX_SHED at most and at most once per EVAL_MS (R435). -/
def State.raiseStarvation (s : State) : State :=
  let lv := s.fld Reg.PMU_SHED F.PMU_SHED.STARVE
  let free := match s.adapt.raisedAt with
    | some t => decide (t + s.adaptLe 8 2 * 1000000 ≤ s.now)
    | none => true
  let s : State := { s with adapt := { s.adapt with starvedAt := s.now } }
  if free && decide (lv < s.adaptLe 5 1) then
    ({ s with adapt := { s.adapt with raisedAt := some s.now } }).setLevel 2 (lv + 1)
  else s

end Sys2Proof.Machine
end

