-- ==== Sys2Proof/Machine/Checkers.lean ====
section
/-! DEFINITION. Check-Value Unit jobs, tinder coverage and the checkers' self-tests (spec/15, R382 to R390; spec/16, R403 to
R410). -/

namespace Sys2Proof.Machine

open Sys2Proof

/-! ### Register groups that refuse a writer (R390) -/

/-- A register group's firewall refuses a write: as R400 states. The command does not name its initiator, which is a free
value. -/
def State.refuseWrite (s : State) (off domain : Nat) : State :=
  let p := s.draw
  let t := 0x100 + off % 0x1000000 / 0x10000
  p.2.fwRefuse t (addrReg + off % 0x1000000) domain (p.1 % 1024) true (0x1C00 + t % 256)

/-! ### Check-Value Units (R382 to R387) -/

/-- The CVUn registers accept Domain ID 0 and the owner's. -/
def State.cvuAdmits (s : State) (n domain : Nat) : Bool := domain == 0 || domain == s.fld (Reg.CVU_STATUS n) F.CVU_STATUS.OWNER

/-- A GO that the unit does not take: it is not idle. -/
def State.cvuRefuse (s : State) (n : Nat) : State := s.event (Reg.CVU_EVENT n) F.CVU_EVENT.REFUSED

/-- Address of a memory job. -/
def State.cvuAddr (s : State) (n : Nat) : Nat :=
  s.place ((s.reg (Reg.CVU_ADDR_LO n)).toNat + 2 ^ 32 * s.fld (Reg.CVU_ADDR_HI n) F.CVU_ADDR_HI.ADDR_HI)

/-- The KIND 3 entry that an Island-owned memory job rechecks: its section's range. -/
def State.recheckId (s : State) (n : Nat) : Nat :=
  let a := s.cvuAddr n
  let len := (s.reg (Reg.CVU_LENGTH n)).toNat
  match (s.flash.expected s.imgRegion).find? (fun e => e.kind == 3 && e.length == len
      && (s.flash.sections s.imgRegion).any (fun x => x.pos == e.pattern && x.load == a)) with
  | some e => e.checkId
  | none => 0xFFFF

/-- CVU_MEMORY_JOB (R384, R387): GO with TAP 0. -/
def execCvuMemoryJob (cvu : Fin 8) (domain : BitVec 4) (value : Word) (s : State) : Res :=
  let n := cvu.val
  if F.CVU_GO.GO.get value == 0 || s.flag (Reg.CVU_CTRL n) F.CVU_CTRL.TAP || (s.unit (0x0A00 + n)).fenced then .next s
  else if !s.cvuAdmits n domain.toNat then .next (s.refuseWrite (Reg.CVU_GO n) domain.toNat)
  else if s.cvuState n != 0 then .next (s.cvuRefuse n)
  else
    let id := if s.fld (Reg.CVU_STATUS n) F.CVU_STATUS.OWNER == 1 then s.recheckId n else 0xFFFF
    .next ((s.setFld (Reg.CVU_STATUS n) F.CVU_STATUS.STATE 1).modCvu n (fun c => { c with unit := none, bytes := none, check := id }))

/-- CVU_TAP_ARM (R385): GO with TAP 1. A tap on a fenced unit ends at once with ABORTED. -/
def execCvuTapArm (cvu : Fin 8) (domain : BitVec 4) (value : Word) (s : State) : Res :=
  let n := cvu.val
  if F.CVU_GO.GO.get value == 0 || !s.flag (Reg.CVU_CTRL n) F.CVU_CTRL.TAP || (s.unit (0x0A00 + n)).fenced then .next s
  else if !s.cvuAdmits n domain.toNat then .next (s.refuseWrite (Reg.CVU_GO n) domain.toNat)
  else if s.cvuState n != 0 then .next (s.cvuRefuse n)
  else
    let u := s.fld (Reg.CVU_TAP n) F.CVU_TAP.UNIT
    let s := s.armTap n u
    if (s.unit u).fenced then .next (s.cvuAbort n) else .next s

/-- CVU_CANCEL (R387). -/
def execCvuCancel (cvu : Fin 8) (domain : BitVec 4) (value : Word) (s : State) : Res :=
  let n := cvu.val
  if F.CVU_GO.CANCEL.get value == 0 then .next s
  else if !s.cvuAdmits n domain.toNat then .next (s.refuseWrite (Reg.CVU_GO n) domain.toNat)
  else .next (s.cvuAbort n)

/-- CVU_JOB_DONE (R384 to R386): a memory job has read its bytes, or a tap stream has ended. A response that is awaited
from a partner leaves the job reading. -/
def execCvuJobDone (cvu : Fin 8) (s : State) : Res :=
  let n := cvu.val
  if s.cvuState n == 1 then
    let a := s.cvuAddr n
    let len := (s.reg (Reg.CVU_LENGTH n)).toNat
    let c : Issuer := ⟨0x0A00 + n, s.fld (Reg.CVU_STATUS n) F.CVU_STATUS.OWNER, false⟩
    match s.judgeRun c a len false with
    | (s, none) => .next (((s.cvuCompute n (s.fetch a len)).cvuJudge n false).endRemote (0x0A00 + n))
    | (s, some (.pending, _)) => .next s
    | (s, some _) => .next ((s.cvuEnd n 3).endRemote (0x0A00 + n))
  else
    match (s.cvu n).bytes with
    | none => .next s
    | some b =>
      if s.cvuState n != 3 then .next s
      else .next ((s.cvuCompute n b).cvuJudge n (decide (b.length < (s.reg (Reg.CVU_LENGTH n)).toNat)))

/-! ### Tinder coverage (R403 to R406) -/

/-- The coverage of a unit ends its job: the unit is left. -/
def State.endTinder (s : State) (unit : Nat) : State :=
  let s := if (s.unit unit).heldBy == some 1 then s.modUnit unit (fun u => { u with heldBy := none, since := s.now }) else s
  s.modCover unit (fun c => { c with running := false, pending := true, cvu := none, step := 0, runs := c.runs + 1 })

/-- A match: the unit is covered, and the next entry of its rotation is pending. In VERIFY a unit is verified when its whole
rotation has matched (R44). -/
def State.tinderMatch (s : State) (unit : Nat) : State :=
  let len := (s.rotation unit).length
  let t := ((s.cover? unit).map (·.turn)).getD 0
  let s := s.modCover unit (fun c => { c with covered := s.now, interval := s.now, lates := 0, promoted := false, turn := (c.turn + 1) % max 1 len })
  if decide (len ≤ t + 1) then s.modKin (fun k => { k with verified := (k.verified ++ [unit]).eraseDups }) else s

/-- A mismatch (R406): cause 7, a recurrence, and the same job again at priority 4; a second within 1 s fences the unit. -/
def State.tinderMismatch (s : State) (unit : Nat) : State :=
  let again := match (s.cover? unit).bind (·.mismatchAt) with
    | some t => decide (s.now ≤ t + 1000000000)
    | none => false
  let s := (s.doubtIf (s.safetyUnit unit) 7 unit).modCover unit (fun c => { c with promoted := true, mismatchAt := some s.now })
  let s := s.recur unit 4
  if again then s.fence unit 3 else s

/-- TINDER_JOB_DONE (R405, R406; R40 in VERIFY). -/
def execTinderJobDone (unit : Half) (s : State) : Res :=
  let u := unit.toNat
  match s.cover? u with
  | none => .next s
  | some c =>
    match c.running, c.cvu with
    | true, some n =>
      if s.cvuState n != 0 then .next s
      else
        let res := s.fld (Reg.CVU_STATUS n) F.CVU_STATUS.RESULT
        let s := s.endTinder u
        if res == 0 then .next (s.tinderMatch u)
        else if res == 1 || res == 5 then
          if s.stage == 10 then .next (s.verifyMismatch u) else .next (s.tinderMismatch u)
        else .next s
    | _, _ => .next s

/-- TINDER_PROMOTE (R405). -/
def execTinderPromote (unit : Half) (s : State) : Res :=
  let u := unit.toNat
  match s.cover? u with
  | none => .next s
  | some c =>
    if c.promoted || !s.running then .next s
    else .next ((s.reach (c.covered + 100000000 - s.emb 0x3E 1 * 1000000)).modCover u (fun c => { c with promoted := true }))

/-- TINDER_LATE (R405). -/
def execTinderLate (unit : Half) (s : State) : Res :=
  let u := unit.toNat
  match s.cover? u with
  | none => .next s
  | some c =>
    if !s.running then .next s
    else
      let s := s.reach (c.interval + 100000000)
      let k := min 2 (c.lates + 1)
      let s := s.modCover u (fun c => { c with lates := k, interval := s.now })
      let s := (s.event Reg.SI_EVENT F.SI_EVENT.TINDER_LATE).log 0x1200 0x0704 1 0 0xFF u ((s.now - c.covered) / 1000000) k
      .next (if decide (2 ≤ k) then s.doubtIf (s.safetyUnit u) 7 u else s)

/-! ### Self-tests (R408 to R410) -/

/-- A checker's failure concerns a safety partition's unit or the device as a whole (R395). -/
def State.testConcerns (s : State) (checker unit : Nat) : Bool :=
  match checker with
  | 5 | 6 | 8 | 10 | 11 => true
  | _ => s.safetyUnit unit

/-- SELFTEST_SLICE_START (R409). -/
def execSelftestSliceStart (checker : Fin 12) (unit : Half) (s : State) : Res :=
  let a := testAct checker.val unit.toNat
  if (actTest a).2 == unit.toNat && s.actKnown a && s.mayStart a s.now then .next (s.startAct a) else .next s

/-- Fence what a failed test names: the unit, or the bank group of a Frame Store checker (R410). -/
def State.fenceTested (s : State) (checker unit : Nat) : State :=
  match checker with
  | 5 => (List.range 4).foldl (fun (s : State) i => s.fence (unit + i) 5) s
  | 8 => s
  | _ => s.fence unit 5

/-- A failed test (R410). -/
def State.testFailed (s : State) (checker unit : Nat) (sig : Word) : State :=
  let s := (s.event Reg.SI_EVENT F.SI_EVENT.SELFTEST_FAIL).log 0x1200 0x0706 1 0 0xFF checker unit sig.toNat
  if checker == 11 then s.severe 16 0x1200
  else (s.doubtIf (s.testConcerns checker unit) 8 unit).fenceTested checker unit

/-- SELFTEST_SLICE_END (R408, R410): the signature is compared with the instance's KIND 2 expected value. -/
def execSelftestSliceEnd (checker : Fin 12) (unit : Half) (sig : Word) (s : State) : Res :=
  let k := checker.val
  let u := unit.toNat
  let a := testAct k u
  match s.selftest? k u, s.maint.running.find? (fun r => r.1 == a) with
  | some t, some r =>
    if !t.running then .next s
    else
      let s := s.endAct a r.2
      let s := if holdsUnit k then s.modUnit u (fun x => { x with heldBy := none }) else s
      let s : State := if t.starved then { s with adapt := { s.adapt with starvedAt := s.now } } else s
      let s := s.modTest k u (fun x => { x with last := s.now, lates := 0, starved := false, running := false })
      let good := (s.flash.expected s.imgRegion).any (fun e => e.kind == 2 && e.pattern == k && e.unit == u && e.expected == sig.toNat)
      .next (if good then s else s.testFailed k u sig).scanMaint
  | _, _ => .next s

/-- SELFTEST_STARVED (R410, R435): 80 ms after the last test. -/
def execSelftestStarved (checker : Fin 12) (unit : Half) (s : State) : Res :=
  match s.selftest? checker.val unit.toNat with
  | none => .next s
  | some t =>
    if t.starved || !s.running then .next s
    else
      let s := (s.reach (t.last + 80000000)).modTest checker.val unit.toNat (fun x => { x with starved := true })
      let s := (s.event Reg.SI_EVENT F.SI_EVENT.SELFTEST_LATE).log 0x1200 0x0707 1 0 0xFF checker.val ((s.now - t.last) / 1000000) 0
      .next s.raiseStarvation

/-- SELFTEST_LATE (R410): 100 ms after the last test, and each 100 ms after that. -/
def execSelftestLate (checker : Fin 12) (unit : Half) (s : State) : Res :=
  let k := checker.val
  let u := unit.toNat
  match s.selftest? k u with
  | none => .next s
  | some t =>
    if !s.running then .next s
    else
      let s := s.reach (t.last + 100000000 * (t.lates + 1))
      let s := s.modTest k u (fun x => { x with lates := x.lates + 1 })
      let s := (s.event Reg.SI_EVENT F.SI_EVENT.SELFTEST_LATE).log 0x1200 0x0708 1 0 0xFF k ((s.now - t.last) / 1000000) (t.lates + 1)
      .next (if decide (2 ≤ t.lates + 1) then s.doubtIf (s.testConcerns k u) 8 u else s)

end Sys2Proof.Machine
end

