-- ==== Sys2Proof/Machine/Island.lean ====
section
/-! DEFINITION. The Safety Island: the selector's doubts, the safe state, the Island's own checks, the monitors, ERR_IN_N and
the firewall regions (spec/16, R395 to R401, R411 to R416, R428, R429, R514). -/

namespace Sys2Proof.Machine

open Sys2Proof

/-! ### Doubts and the safe state (R396 to R398, R416) -/

/-- DOUBT_AT_SELECTOR (R416): the oldest doubt on its way reaches the selector. -/
def execDoubtAtSelector (s : State) : Res :=
  match s.safety.doubts with
  | [] => .next s
  | _ :: rest => .next ((s.modSafety (fun f => { f with doubts := rest })).selectEmber 1)

/-- Domains gated in the safe state (R32): the sequencer and the Output Framer, and the Event Journal when no flush window
runs. -/
def safeGated (flush : Bool) : List Nat := if flush then [168, 186] else [168, 185, 186]

/-- The safe state is entered with a cause (R397, R465, R491). -/
def State.enterSafe (s : State) (cause : Nat) : State :=
  let s := s.modPins (fun p => { p with
    faultN := false
    safeState := true
    peerAlive := false })
  let s := (s.setFlag Reg.SI_STATUS F.SI_STATUS.SAFE true).setFlag Reg.SI_STATUS F.SI_STATUS.FAULT_N false
  let s := s.setFlag Reg.OF_RESULT F.OF_RESULT.ENABLED false
  let s : State := { s with fgs := { s.fgs with halted := true } }
  let s := (s.fgs.insts.filter (fun i => i.busy)).foldl (fun (s : State) i => s.cancel i.entry) s
  let s := if s.kin.bindDone then s.gpioSafe else s
  let s := [0, 1, 2].foldl (fun (s : State) k =>
    if s.fld (Reg.GML_STATUS k) F.GML_STATUS.STATE == 2 then s.sendOn k (.goingDown (dev2 s.device)) else s) s
  let flush := s.emb 0x2C 1 == 1 && cause != 16
  let s := s.modSafety (fun f => { f with
    severe := some (f.severe.getD cause)
    flushDue := if flush && f.flushDue.isNone then some (s.now + 10000000) else f.flushDue })
  let s := (safeGated flush).foldl (State.setDomain · false ·) s
  if flush then s else s.modJournal (fun j => { j with fenced := true })

/-- Cause 16: HEARTBEAT stops, and only PORST_N ends what follows (R398, R411). -/
def State.stopIsland (s : State) : State :=
  (s.modPins (fun p => { p with heartbeat := false })).modSafety (fun f => { f with
    stopped := true
    flushDue := none })

/-- SAFE_STATE_ENTRY (R397): the oldest severe event on its way takes effect. -/
def execSafeStateEntry (s : State) : Res :=
  match s.safety.severes with
  | [] => .next s
  | (cause, _) :: rest =>
    let s := (s.modSafety (fun f => { f with severes := rest })).enterSafe cause
    .next (if cause == 16 then s.stopIsland else s)

/-- SEVERE_FLUSH_EXPIRY (R398): the journal has had its 10 ms, and a warm reset follows. -/
def execSevereFlushExpiry (s : State) : Res :=
  match s.safety.flushDue with
  | none => .next s
  | some t =>
    let s := (s.reach t).modSafety (fun f => { f with flushDue := none })
    .next (s.warmReset F.SYS_RST_CAUSE.SM true)

/-! ### The Island's own checks (R411) -/

/-- The Safety Manager runs: PORST_N is high, and the self-test has passed. -/
def State.smRuns (s : State) : Bool := !s.kin.porstLow && !s.kin.siFailed && s.stage != 1 && !s.safety.stopped

/-- One of the Island's own checks fails: cause 16, without the Safety Manager's help. -/
def State.islandFails (s : State) : State := if s.smRuns then (s.severe 16 0x1200).stopIsland else s

/-- ISLAND_ROM_CHECK. -/
def execIslandRomCheck (pass : Bool) (s : State) : Res := .next (if pass then s else s.islandFails)

/-- ISLAND_WATCHDOG_EXPIRY: 2 ms after the last service. -/
def execIslandWatchdogExpiry (s : State) : Res :=
  if s.smRuns then .next (s.reach (s.safety.served + 2000000)).islandFails else .next s

/-- ISLAND_CLOCK_DISAGREE. -/
def execIslandClockDisagree (s : State) : Res := .next s.islandFails

/-- SM_LOCKSTEP_MISMATCH. -/
def execSmLockstepMismatch (s : State) : Res := .next s.islandFails

/-- ISLAND_SRAM_UE. -/
def execIslandSramUe (s : State) : Res := .next s.islandFails

/-- An offset lies in the SI register block. -/
def inSi (o : Nat) : Bool := decide (0x900000 ≤ o) && decide (o < 0x910000)

/-- VDD_SI_EXCURSION: the Island is reset, the core with it, and every pin takes its PORST_N state; PORST_N ends it (DESIGN
CHOICE, log entry 34). -/
def execVddSiExcursion (s : State) : Res :=
  if s.kin.porstLow then .next s
  else
    let z := State.reset
    let pins : Pins := { z.pins with errInLow := s.pins.errInLow }
    let s := s.coreOff
    let s := s.modKin (fun k => { k with siFailed := true })
    .next { s with
      regs := s.regs.filter (fun r => !inSi r.1)
      pins := pins
      safety := z.safety
      journal := z.journal }

/-- HEARTBEAT_TOGGLE: the Safety Manager services the watchdog, and HEARTBEAT toggles each 1 ms. -/
def execHeartbeatToggle (s : State) : Res :=
  if s.smRuns then
    let s := s.reach (s.safety.served + 1000000)
    .next ((s.modPins (fun p => { p with heartbeat := !p.heartbeat })).modSafety (fun f => { f with served := s.now }))
  else .next s

/-! ### Monitors (R412, R514) -/

/-- Nominal voltage of a rail in mV. -/
def railNominal (n : Nat) : Int := ([750, 800, 850, 500, 1800, 3300] : List Int).getD n 0

/-- Distance of two readings. -/
def gap (a b : Int) : Nat := (a - b).natAbs

/-- The limits that a value is beyond, the least first: level, class, cause and the limit's value. -/
def monitorLimits (num : Nat) (v : Int) : List (Nat × Nat × Nat × Int) :=
  if decide (num ≤ 5) then
    let n := railNominal num
    let lim (p : Int) : Int := if n < v then n + n * p / 100 else n - n * p / 100
    [(1, 1, 15, lim 3), (2, 3, 15, lim 6)].filter (fun l => decide ((if l.1 == 1 then 3 else 6) * n.natAbs < gap v n * 100))
  else if decide (0x10 ≤ num) && decide (num ≤ 0x1F) then
    [(1, 1, 9, (1150 : Int)), (2, 2, 9, 1250), (3, 3, 9, 1300)].filter (fun l => decide (l.2.2.2 ≤ v))
  else if decide (0x20 ≤ num) && decide (num ≤ 0x2D) then
    [(1, 2, 10, (10000 : Int)), (2, 3, 10, 50000)].filter (fun l => decide (l.2.2.2 < gap v 0))
  else []

/-- A limit is crossed: a MONITOR record, and the event of its class. -/
def State.crossLimit (s : State) (num : Nat) (v : Int) (l : Nat × Nat × Nat × Int) : State :=
  let s := (s.event Reg.SI_EVENT F.SI_EVENT.MONITOR).log 0x1200 0x0709 1 0 0xFF num (unsigned 32 v) (unsigned 32 l.2.2.2)
  if l.2.1 == 3 then s.severe l.2.2.1 0x1200
  else if l.2.1 == 2 then s.doubt l.2.2.1 0x1200 0 0
  else s

/-- Judge a value: every limit it is beyond and was not beyond before has been crossed; the value has lasted for the time
of each (log entry 34). -/
def State.judgeMonitor (s : State) (num : Nat) (v : Int) : State :=
  let old := (assocGet s.safety.levels num).getD 0
  let ls := monitorLimits num v
  let top := (ls.map (·.1)).foldl max 0
  let s := s.modSafety (fun f => { f with levels := sparsePut 0 f.levels num top })
  (ls.filter (fun l => decide (old < l.1))).foldl (fun (s : State) l => s.crossLimit num v l) s

/-- The nearest sensor that is not excluded, going round from a sensor in steps of d. -/
def nextSensor (excluded : List Nat) (d : Nat) : Nat → Nat → Option Nat
  | 0, _ => none
  | fuel + 1, i =>
    let j := (i + d) % 16
    if excluded.contains j then nextSensor excluded d fuel j else some j

/-- A sensor reads more than 10 °C from both of its neighbours (R514). -/
def Safety.lonely (f : Safety) (n : Nat) : Bool :=
  let reading (o : Option Nat) : Option Int := o.bind (fun j => if j == n then none else (f.temps[j]?).join)
  match (f.temps[n]?).join, reading (nextSensor f.excluded 15 15 n), reading (nextSensor f.excluded 1 15 n) with
  | some v, some a, some b => !f.excluded.contains n && decide (100 < gap v a) && decide (100 < gap v b)
  | _, _, _ => false

/-- Exclude a sensor that R514 excludes. -/
def State.excludeSensor (s : State) (n : Nat) : State :=
  if s.safety.lonely n then
    let v := ((s.safety.temps[n]?).join).getD 0
    let s := s.modSafety (fun f => { f with excluded := f.excluded ++ [n] })
    (s.event Reg.SI_EVENT F.SI_EVENT.MONITOR).log 0x1200 0x0709 1 0 0xFF (0x10 + n) (unsigned 32 v) 100
  else s

/-- Compare every sensor with its neighbours, the one that has just reported first, until no more is excluded. -/
def State.excludeAll (s : State) (n : Nat) : State :=
  (List.range 16).foldl (fun (s : State) _ => (n :: List.range 16).foldl State.excludeSensor s) s

/-- The hottest temperature (R438): of the sensors that have reported and are not excluded. -/
def State.hottest? (s : State) : Option Int :=
  ((s.safety.temps.zipIdx.filter (fun p => !s.safety.excluded.contains p.2)).filterMap (·.1)).foldl
    (fun (m : Option Int) v => some (match m with
      | some x => max x v
      | none => v)) none

/-- Threshold k of the thermal policy in 0.1 °C: T_SHED, then the three T_STEP. -/
def State.thermLimit (s : State) (k : Nat) : Int := 10 * (s.adaptLe (0xA + k) 1 : Int)

/-- T_HYST in 0.1 °C. -/
def State.thermHyst (s : State) : Int := 10 * (s.adaptLe 0xE 1 : Int)

/-- Note since when the hottest temperature has lain below each threshold less T_HYST (R438). -/
def State.noteCool (s : State) (h : Int) : State :=
  let cool := s.adapt.coolSince.mapIdx (fun k o => if decide (h < s.thermLimit k - s.thermHyst) then some (o.getD s.now) else none)
  { s with adapt := { s.adapt with coolSince := cool } }

/-- A temperature: a sensor under calibration keeps its last value (R444), and PMU_STATUS shows the hottest. -/
def State.readTemp (s : State) (n : Nat) (v : Int) : State :=
  if s.maint.running.any (fun r => r.1 == 0x4000 + n) then s
  else
    let s := s.modSafety (fun f => { f with temps := f.temps.mapIdx (fun i t => if i == n then some v else t) })
    let s := s.excludeAll n
    let s := if s.safety.excluded.contains n then s else s.judgeMonitor (0x10 + n) v
    match s.hottest? with
    | some h => (s.setFld Reg.PMU_STATUS F.PMU_STATUS.HOTTEST (unsigned 16 h)).noteCool h
    | none => s

/-- MONITOR (R412). -/
def execMonitor (num : Byte) (value : Int) (s : State) : Res :=
  let n := num.toNat
  if !s.smRuns then .next s
  else if decide (0x10 ≤ n) && decide (n ≤ 0x1F) then .next (s.readTemp (n - 0x10) value)
  else .next (s.judgeMonitor n value)

/-! ### ERR_IN_N (R414) -/

/-- ERR_IN: the time for which ERR_IN_N has been low so far, 0 for high. A shorter time than the last begins a new low. -/
def execErrIn (lowNs : Nat) (s : State) : Res :=
  if s.kin.porstLow then .next s
  else if lowNs == 0 then
    .next ((s.modPins (fun p => { p with errInLow := false })).modSafety (fun f => { f with errRaised := false }))
  else
    let again := s.pins.errInLow
    let s := s.modPins (fun p => { p with errInLow := true })
    if decide (lowNs < 1000) then .next s
    else
      let us := min 0xFFFFFFFF (lowNs / 1000)
      let s := s.modPins (fun p => { p with errInLatched := true })
      let s := (s.setFlag Reg.SI_STATUS F.SI_STATUS.ERR_IN true).modSafety (fun f => { f with
        errLowUs := us
        errRaised := f.errRaised && again })
      if s.isReady && !s.safety.errRaised then .next s.raiseErrIn else .next s

/-! ### Firewall regions (R401, R428, R429) -/

/-- Key of a region's shadowed register: the shadows belong to the selected region. -/
def fwlKey (off target region : Nat) : Nat := off + (target * 32 + region + 1) * 2 ^ 32

/-- The value that a region's SH register reads as: its shadow, else what is in force. -/
def State.fwlShown (s : State) (off target region : Nat) : Word :=
  match assocGet s.shadow (fwlKey off target region) with
  | some w => w
  | none =>
    match s.safety.regions.find? (fun r => r.target == target && r.region == region) with
    | none => 0
    | some r =>
      if off == Reg.FWL_RGN_BASE_LO then w32 (r.base / 4096 * 4096)
      else if off == Reg.FWL_RGN_BASE_HI then w32 (r.base / 2 ^ 32 % 1024)
      else if off == Reg.FWL_RGN_PAGES then w32 r.pages
      else w32 (r.wr.toNat * 65536 + r.rd.toNat)

/-- The write comes from the scene master while the region's layer is outgoing, or from Domain ID 1 (R401). -/
def State.mayUnlock (s : State) (bank domain : Nat) (r : FwRegion) : Bool :=
  domain == 1 || (bank == s.sceneMaster && domain == 0 && (match r.layer with
    | some l => s.scene.layers.any (fun b => b.rc.id == l && b.outgoing)
    | none => false))

/-- FWL_RGN_CTRL_WRITE: the selected region takes its shadows and the fields written, or the write is refused. -/
def execFwlRgnCtrlWrite (bank : Fin 6) (domain : BitVec 4) (value : Word) (s : State) : Res :=
  let d := domain.toNat
  if !(d == 0 || d == 1) then .next (s.refuseWrite Reg.FWL_RGN_CTRL d)
  else
    let sel := bankOff bank.val Reg.FWL_SEL
    let t := s.fld sel F.FWL_SEL.TARGET
    let n := s.fld sel F.FWL_SEL.REGION
    let old := s.safety.regions.filter (fun r => r.target == t && r.region == n)
    if old.any (fun r => r.lock && !s.mayUnlock bank.val d r) then
      let a := addrReg + Reg.FWL_RGN_CTRL
      let s := (s.event Reg.FWL_EVENT F.FWL_EVENT.LOCKED_WRITE).event Reg.SI_EVENT F.SI_EVENT.FIREWALL
      let p := s.draw
      .next (p.2.log 0x1C04 0x070D 1 d 0xFF a (a / 2 ^ 32 + d * 65536 + 2 ^ 20) (p.1 % 1024 + 0x104 * 65536))
    else
      let lo := s.fwlShown Reg.FWL_RGN_BASE_LO t n
      let hi := s.fwlShown Reg.FWL_RGN_BASE_HI t n
      let dom := s.fwlShown Reg.FWL_RGN_DOMAINS t n
      let r : FwRegion := {
        target := t
        region := n
        enable := F.FWL_RGN_CTRL.ENABLE.get value == 1
        lock := F.FWL_RGN_CTRL.LOCK.get value == 1
        any := F.FWL_RGN_CTRL.ANY.get value == 1
        initiator := F.FWL_RGN_CTRL.INITIATOR.get value
        base := hi.toNat % 1024 * 2 ^ 32 + lo.toNat / 4096 * 4096
        pages := (s.fwlShown Reg.FWL_RGN_PAGES t n).toNat % 2 ^ 30
        rd := BitVec.ofNat 16 dom.toNat
        wr := BitVec.ofNat 16 (dom.toNat / 65536)
        layer := old.head?.bind (·.layer) }
      let s := s.modSafety (fun f => { f with regions := f.regions.filter (fun x => !(x.target == t && x.region == n)) ++ [r] })
      .next { s with shadow := s.shadow.filter (fun p => p.1 / 2 ^ 32 != t * 32 + n + 1) }

end Sys2Proof.Machine
end

