-- ==== Sys2Proof/Machine/Cores.lean ====
section
/-! DEFINITION. Policy Core pairs and interrupts (spec/15, R366 to R381, R413): offers, claims, entry to bank 0, exit by MRET,
traps, FENCE, halts and abort acknowledgements. -/

namespace Sys2Proof.Machine

open Sys2Proof

/-! ### Offers (R373 to R376) -/

/-- A target can take a source (R374). A firmware bank always admits interrupts (log entry 30). -/
def State.canTake (s : State) (t m : Nat) : Bool :=
  let c := s.core t
  let p := s.srcPrio m
  !c.halted && !(s.unit (0x0B00 + t)).fenced && (c.bank != 0 || c.intEn)
    && decide (s.fld (Reg.ICU_T_THRESH t) F.ICU_T_THRESH.PRIORITY ≤ p) && c.active.all (fun a => decide (a.2 < p))

/-- The targets in the order PC0, PC1, PC2, PC3 that begins after one of them. -/
def targetsAfter (t : Option Nat) : List Nat :=
  match t with
  | none => [0, 1, 2, 3]
  | some k => [(k + 1) % 4, (k + 2) % 4, (k + 3) % 4, k % 4]

/-- The targets to which a source is offered now (R375, R376, R379). -/
def State.offeredTo (s : State) (m : Nat) : List Nat :=
  if !s.srcPending m || s.srcActive m then []
  else
    let ok := fun (t : Nat) => s.srcTargets m t && s.canTake t m
    match s.icu.offers.find? (fun o => o.1 == m) with
    | some (_, t, true) => if s.canTake t m then [t] else []
    | some (_, t, false) =>
      if s.flag (Reg.ICU_SRC_CFG m) F.ICU_SRC_CFG.MODE then [0, 1, 2, 3].filter ok
      else if ok t then [t] else ((targetsAfter (some t)).filter ok).take 1
    | none =>
      if s.flag (Reg.ICU_SRC_CFG m) F.ICU_SRC_CFG.MODE then [0, 1, 2, 3].filter ok
      else ((targetsAfter (assocGet s.icu.last m)).filter ok).take 1

/-- The best source offered to a target: the highest priority, the lowest identifier among equals (R374). -/
def State.bestFor (s : State) (t : Nat) : Option Nat :=
  (List.range 512).foldl (fun b m =>
    if (s.offeredTo m).contains t then
      match b with
      | none => some m
      | some k => if s.srcPrio k < s.srcPrio m then some m else some k
    else b) none

/-- INTERRUPT_SOURCE_RISE (R373): a hardware source whose line has gone high becomes pending. -/
def execInterruptSourceRise (source : Fin 512) (s : State) : Res :=
  if s.lineHigh source.val then .next (s.setPending source.val true) else .next s

/-- ICU_SWI_SET (R373); values that name no software source are ignored. -/
def execIcuSwiSet (value : Word) (s : State) : Res :=
  let m := F.ICU_SWI_SET.ID.get value
  if isSoftware m then .next (s.setPending m true) else .next s

/-- ICU_SWI_CLR (R373). -/
def execIcuSwiClr (value : Word) (s : State) : Res :=
  let m := F.ICU_SWI_CLR.ID.get value
  if isSoftware m then .next ((s.setPending m false).dropOffer m) else .next s

/-- OFFER_TIMEOUT (R375): an offer not claimed passes to the next target that can take it. -/
def execOfferTimeout (source : Fin 512) (s : State) : Res :=
  let m := source.val
  if s.flag (Reg.ICU_SRC_CFG m) F.ICU_SRC_CFG.MODE then .next s
  else
    match s.offeredTo m with
    | t :: _ =>
      match (targetsAfter (some t)).find? (fun k => s.srcTargets m k && s.canTake k m) with
      | some k => .next (s.putOffer m k false)
      | none => .next (s.dropOffer m)
    | [] => .next (s.dropOffer m)

/-! ### Register banks and frames (R367, R368, R378) -/

/-- Register x of a bank; x0 reads as zero. -/
def CoreSt.x (c : CoreSt) (bank r : Nat) : Word := if r = 0 then 0 else (c.banks.getD bank RegBank.zero).x.getD (r - 1) 0

/-- Change a bank. -/
def CoreSt.modBank (c : CoreSt) (bank : Nat) (f : RegBank → RegBank) : CoreSt :=
  { c with banks := c.banks.mapIdx (fun i b => if i == bank then f b else b) }

/-- Write register x of a bank; a write of x0 is discarded. -/
def CoreSt.setX (c : CoreSt) (bank r : Nat) (v : Word) : CoreSt :=
  if r = 0 then c else c.modBank bank (fun b => { b with x := b.x.set (r - 1) v })

/-- Write register f of a bank. -/
def CoreSt.setF (c : CoreSt) (bank r : Nat) (v : Word) : CoreSt := c.modBank bank (fun b => { b with f := b.f.set r v })

/-- The registers of a frame, in the order in which the frame holds them (R378; log entry 30). -/
def frameRegs : List Nat := [1, 5, 6, 7, 10, 11, 12, 13, 14, 15, 16, 17, 28, 29, 30, 31]

/-- First byte of a pair's local memory (R370). -/
def localBase (n : Nat) : Nat := addrLocal + n * 0x40000

/-- Offset in the pair's own local memory that a core address reaches directly (R505). -/
def ownOffset (n a : Nat) : Option Nat :=
  if a < 0x40000 then some a
  else if decide (0x1000000 + n * 0x40000 ≤ a) && decide (a < 0x1000000 + n * 0x40000 + 0x40000) then some (a - (0x1000000 + n * 0x40000))
  else none

/-- Push a frame of 19 words on Rymond's stack: the registers, the return address, the cause and the interrupted priority
(R378). -/
def State.pushFrame (s : State) (n : Nat) (pc : Word) : State :=
  let c := s.core n
  let sp := c.x 0 2 - 76
  let ws := frameRegs.map (fun r => c.x 0 r) ++ [pc, c.cause0, c.prio0]
  let s := match ownOffset n sp.toNat with
    | some o => if o + 76 ≤ 0x40000 then s.store (localBase n + o) (ws.flatMap (fun (w : Word) => leBytes 4 w.toNat)) else s
    | none => s
  s.modCore n (fun c => { c.setX 0 2 sp with ctx := none :: c.ctx })

/-- Restore the frame last pushed. -/
def State.popFrame (s : State) (n : Nat) : State :=
  let c := s.core n
  let sp := c.x 0 2
  let base := localBase n + (ownOffset n sp.toNat).getD 0
  let w := fun (i : Nat) => w32 (s.le (base + 4 * i) 4)
  s.modCore n (fun c =>
    let c := (frameRegs.zipIdx).foldl (fun (c : CoreSt) (p : Nat × Nat) => c.setX 0 p.1 (w p.2)) c
    { c.setX 0 2 (sp + 76) with
      pc := w 16
      epc0 := w 16
      cause0 := w 17
      prio0 := w 18
      ctx := c.ctx.drop 1 })

/-- Show a pair's bank and state in SYS_PCn_STATUS. -/
def State.showPair (s : State) (n : Nat) : State :=
  let c := s.core n
  let u := s.unit (0x0B00 + n)
  let st := if u.fenced then 4 else if c.halted then 3 else if u.gated then 0 else if c.bank == 0 then 1 else 2
  (s.setFld (Reg.SYS_PC_STATUS n) F.SYS_PC_STATUS.BANK c.bank).setFld (Reg.SYS_PC_STATUS n) F.SYS_PC_STATUS.STATE st

/-- Enter bank 0 from the instruction at a pc: by a bank switch from a firmware bank, which leaves its registers and keeps
its return address in its EPC, or with a frame (R368, R369, R378). A bank switch clears a reservation (R366). -/
def State.enterBank0 (s : State) (n : Nat) (pc : Word) : State :=
  let c := s.core n
  let prio := (c.active.head?).map (·.2)
  let s := if c.bank != 0 then
      let s := s.setFld (Reg.SYS_PC_BANK_EPC n c.bank) F.SYS_PC_BANK_EPC.EPC (pc.toNat / 2)
      let s := s.setFld (Reg.SYS_PC_RET n) F.SYS_PC_RET.BANK_RET c.bank
      s.modCore n (fun x => { x with ctx := some x.bank :: x.ctx, bank := 0, resv := none })
    else (s.pushFrame n pc).modCore n (fun x => { x with epc0 := pc })
  (s.modCore n (fun x => { x with prio0 := w32 (prio.getD 0) })).showPair n

/-- The handler address of a source: entry i of the vector table, entry 512 for the spurious identifier (R377). -/
def State.vector (s : State) (n i : Nat) : Word :=
  w32 (s.le (localBase n + s.fld (Reg.SYS_PC_VBASE n) F.SYS_PC_VBASE.BASE * 4096 + 4 * i) 4)

/-- Show the innermost active handler (ICU_Tn_STATUS). -/
def State.showTarget (s : State) (t : Nat) : State :=
  let a := (s.core t).active
  let r := Reg.ICU_T_STATUS t
  let s := s.setFld r F.ICU_T_STATUS.DEPTH (min a.length 15)
  match a with
  | (m, p) :: _ => (s.setFld r F.ICU_T_STATUS.RUN_PRIO p).setFld r F.ICU_T_STATUS.ID m
  | [] => (s.setFld r F.ICU_T_STATUS.RUN_PRIO 0).setFld r F.ICU_T_STATUS.ID 0x3FF

/-- The claim of a source: it becomes active and its handler is entered (R377). -/
def State.claim (s : State) (t m : Nat) : State :=
  let s := ((s.setPending m false).setActive m true).dropOffer m
  let s := { s with icu := { s.icu with last := assocPut s.icu.last m t } }
  let p := s.srcPrio m
  let v := s.vector t m
  (s.modCore t (fun c => { c with active := (m, p) :: c.active, cause0 := w32 (0x80000000 + m), pc := v })).showTarget t

/-- A claim that finds its source gone receives 0x3FF (R376). -/
def State.spurious (s : State) (t : Nat) : State :=
  let v := s.vector t 512
  (s.event (Reg.ICU_T_EVENT t) F.ICU_T_EVENT.SPURIOUS).modCore t (fun c => { c with cause0 := w32 (0x80000000 + 0x3FF), pc := v })

/-- Some claim-mask source that reaches the target has been claimed by another one (R376). -/
def State.lostRace (s : State) (t : Nat) : Bool :=
  let c := s.core t
  !c.halted && !(s.unit (0x0B00 + t)).fenced && (c.bank != 0 || c.intEn)
    && (List.range 512).any (fun m => s.flag (Reg.ICU_SRC_CFG m) F.ICU_SRC_CFG.MODE && s.srcActive m && s.srcTargets m t
        && !c.active.any (fun a => a.1 == m) && decide (s.fld (Reg.ICU_T_THRESH t) F.ICU_T_THRESH.PRIORITY ≤ s.srcPrio m)
        && c.active.all (fun a => decide (a.2 < s.srcPrio m)))

/-- INTERRUPT_ACCEPT (R377): acceptance at an instruction boundary at `pc`, the claim of the best source at that moment,
and the entry. -/
def execInterruptAccept (pair : Fin 4) (pc : Word) (s : State) : Res :=
  let t := pair.val
  match s.bestFor t with
  | some m => .next ((s.enterBank0 t pc).claim t m)
  | none => if s.lostRace t then .next ((s.enterBank0 t pc).spurious t) else .next s

/-- ICU_EOI (R379). -/
def execIcuEoi (pair : Fin 4) (value : Word) (s : State) : Res :=
  let t := pair.val
  let m := F.ICU_T_EOI.ID.get value
  if (s.core t).active.any (fun a => a.1 == m) then
    .next (((s.modCore t (fun c => { c with active := c.active.filter (fun a => a.1 != m) })).completeSource m t).showTarget t)
  else .next (s.event (Reg.ICU_T_EVENT t) F.ICU_T_EVENT.EOI_BAD)

/-- A source may be taken during the exit: the exit is abandoned and its handler entered, without a save (R380). -/
def State.abandonExit (s : State) (t m : Nat) : State := s.claim t m

/-- Resume the bank named by SYS_PCn_RET at its EPC; a bank that may not run is not resumed (R369). -/
def State.resumeBank (s : State) (n : Nat) : State :=
  let k := s.fld (Reg.SYS_PC_RET n) F.SYS_PC_RET.BANK_RET
  if k == 0 then (s.modCore n (fun c => { c with pc := c.epc0, ctx := c.ctx.drop 1 })).showPair n
  else if !s.flag (Reg.SYS_PC_BANK n k) F.SYS_PC_BANK.ENABLE then s
  else
    let epc := w32 (s.fld (Reg.SYS_PC_BANK_EPC n k) F.SYS_PC_BANK_EPC.EPC * 2)
    (s.modCore n (fun c => { c with bank := k, pc := epc, resv := none, ctx := c.ctx.drop 1 })).showPair n

/-- Trap into bank 0 with a cause. The address of Rymond's trap handler is not stated: it is a free value (log entry 30). -/
def State.trap (s : State) (n : Nat) (cause pc : Word) : State :=
  let s := s.enterBank0 n pc
  let v := s.draw
  v.2.modCore n (fun c => { c with cause0 := cause, pc := w32 v.1 })

/-- MRET (R369, R380). In a firmware bank, which runs in user mode, it is an illegal instruction. -/
def execMret (pair : Fin 4) (s : State) : Res :=
  let n := pair.val
  let c := s.core n
  if c.halted || (s.unit (0x0B00 + n)).fenced then .next s
  else if c.bank != 0 then .next (s.trap n 2 c.pc)
  else
    match s.bestFor n with
    | some m => .next (s.abandonExit n m)
    | none =>
      match c.ctx with
      | none :: _ => .next (s.popFrame n)
      | _ => .next (s.resumeBank n)

/-- ECALL (R368): an ECALL or exception, with its cause, at a pc. Rymond ends a faulting instance under R103. -/
def execEcall (pair : Fin 4) (cause pc : Word) (s : State) : Res :=
  let n := pair.val
  if (s.core n).halted || (s.unit (0x0B00 + n)).fenced then .next s else .next (s.trap n cause pc)

/-- FENCE (R356): it completes when every earlier write of the core has been acknowledged; only remote writes can be
outstanding. -/
def execFence (pair : Fin 4) (s : State) : Res :=
  let n := pair.val
  let c := s.core n
  if c.halted || (s.unit (0x0B00 + n)).fenced || s.gml.outstanding.any (fun x => x.unit == 0x0B00 + n && x.write && x.status == 0) then .next s
  else .next (s.modCore n (fun c => { c with pc := c.pc + 4 }))

/-! ### Halts, aborts and heartbeats (R371, R372, R413) -/

/-- A pair halts: a doubt of a cause, its work is cancelled without an abort, and it is fenced and gated (R371, R395). -/
def State.haltPair (s : State) (n cause : Nat) : State := (s.doubt cause (0x0B00 + n) 0 0).fence (0x0B00 + n) 3

/-- LOCKSTEP_MISMATCH (R371): a lockstep mismatch, or an uncorrectable error in the pair's own read of its local memory. -/
def execLockstepMismatch (pair : Fin 4) (ue : Bool) (s : State) : Res :=
  let n := pair.val
  if (s.core n).halted || (s.unit (0x0B00 + n)).fenced then .next s
  else .next ((s.event (Reg.SYS_PC_ERR n) (if ue then F.SYS_PC_ERR.LM_UE else F.SYS_PC_ERR.LOCKSTEP)).haltPair n 5)

/-- ABORT_ACK (R372): the handle shown ends the instance; any other is ignored. -/
def execAbortAck (pair : Fin 4) (value : Word) (s : State) : Res :=
  let n := pair.val
  let a := Reg.SYS_PC_ABORT n
  let e := F.SYS_PC_ABORT_ACK.ENTRY.get value
  let g := F.SYS_PC_ABORT_ACK.GEN.get value
  if s.flag a F.SYS_PC_ABORT.VALID && s.fld a F.SYS_PC_ABORT.ENTRY == e && s.fld a F.SYS_PC_ABORT.GEN == g then
    let s := s.setReg a 0
    let d := Reg.FGS_PC_DISP0 n
    let s := if s.flag d F.FGS_PC_DISP0.VALID && s.fld (Reg.FGS_PC_DISP2 n) F.FGS_PC_DISP2.ENTRY == e
        && s.fld (Reg.FGS_PC_DISP2 n) F.FGS_PC_DISP2.GEN == g then s.setFlag d F.FGS_PC_DISP0.VALID false else s
    .next ((s.cancelNow e).showAbort n)
  else .next (s.event (Reg.SYS_PC_ERR n) F.SYS_PC_ERR.ACK_BAD)

/-- SI_HB_WRITE (R413): a write of SI_HBn, of any value, is the heartbeat of the pair. -/
def execSiHbWrite (pair : Fin 4) (_value : Word) (s : State) : Res :=
  .next { s with safety := { s.safety with hb := s.safety.hb.set pair.val s.now } }

/-- HEARTBEAT_MISSED (R413): 2 ms without a heartbeat of a pair that is neither halted, fenced nor gated. -/
def execHeartbeatMissed (pair : Fin 4) (s : State) : Res :=
  let n := pair.val
  let u := s.unit (0x0B00 + n)
  if (s.core n).halted || u.fenced || u.gated || !s.kin.firmwareDone then .next s
  else
    let s := s.reach (s.safety.hb.getD n 0 + 2000000)
    .next ((s.log 0x1200 0x070A 1 0 0xFF n ((s.now - s.safety.hb.getD n 0) / 1000000) 0).haltPair n 11)

end Sys2Proof.Machine
end

