-- ==== Sys2Proof/Machine/ChkGraph.lean ====
section
/-! DEFINITION. Table checks of the CHECK stage, first part: what a check works on, and the checks on scenes, layers, rings, nodes,
firmware and firewall entries (R57, R58, R62 to R72, R94, R343, R362, R389, R427, R510). -/

namespace Sys2Proof.Machine

open Sys2Proof

/-! ### What a check works on -/

/-- What the checks take from the hardware; none where a check is made without it, as for a staged image (R60). -/
structure CheckEnv where
  /-- channels present -/
  channels : Option (List Nat)
  /-- this device's number and the number of devices -/
  device : Option (Nat × Nat)
  /-- links that the system description uses -/
  links : Option (List Nat)
  /-- units out of service: fenced ones, and the first pair of each bank group out of service -/
  out : List Nat
  /-- fuses, for the key of encrypted sections -/
  otp : Otp
  deriving DecidableEq, Repr

/-- A layer as BIND would bind it. -/
structure ChkLayer where
  l : LayerRec
  rings : List RingSt
  nodes : List NodeSt
  streams : List StreamRec
  deriving DecidableEq, Repr

/-- An image under check. -/
structure ChkImage where
  /-- a state that holds nothing but the image -/
  s : State
  env : CheckEnv
  layers : List ChkLayer
  scenes : List SceneRec

/-- A state that holds nothing but the image of a region and the system description. -/
def Flash.bare (f : Flash) (r : Nat) (env : CheckEnv) : State :=
  let k : Kindle := { State.reset.kin with candidates := [r] }
  let s : State := { State.reset with flash := f, kin := k }
  match env.device with
  | some d => (s.setFld Reg.GML_SYS F.GML_SYS.DEVICE d.1).setFld Reg.GML_SYS F.GML_SYS.COUNT (d.2 - 1)
  | none => s

/-- Read the image of a region. -/
def Flash.chkImage (f : Flash) (r : Nat) (env : CheckEnv) : ChkImage :=
  let s := f.bare r env
  let mk (l : LayerRec) : ChkLayer := ⟨l, l.rings.mapIdx (fun i rc => s.bindRing l i rc), l.nodes.map (s.bindNode l), f.layerStreams r l⟩
  ⟨s, env, (f.layers r).map mk, f.scenes r⟩

/-- The image's flash and region. -/
def ChkImage.f (m : ChkImage) : Flash := m.s.flash
def ChkImage.r (m : ChkImage) : Nat := m.s.imgRegion

/-- A layer of the image. -/
def ChkImage.layer? (m : ChkImage) (id : Nat) : Option ChkLayer := m.layers.find? (fun c => c.l.id == id)

/-- A scene of the image. -/
def ChkImage.scene? (m : ChkImage) (n : Nat) : Option SceneRec := m.scenes.find? (fun a => a.no == n)

/-- The layers of a list of LAYER_IDs. -/
def ChkImage.pick (m : ChkImage) (ids : List Nat) : List ChkLayer := ids.filterMap m.layer?

/-- A section of a type and index is there. -/
def ChkImage.has (m : ChkImage) (type index : Nat) : Bool := (m.f.section? m.r type index).isSome

/-- The scenes to which a switch from a scene is possible (R510). -/
def ChkImage.targets (m : ChkImage) (a : SceneRec) : List SceneRec :=
  m.scenes.filter (fun b => b.no != a.no
    && (a.triggers.any (fun t => t.target == b.no) || b.bankedOf.isNone || b.bankedOf == some (a.bankedOf.getD a.no)))

/-- The layers of each scene, as sets that can be bound at the same moment without a switch. -/
def ChkImage.sceneSets (m : ChkImage) : List (List ChkLayer) := m.scenes.map (fun a => m.pick a.layers)

/-- Every set of layers that can be bound at the same moment: of one scene, and of the two scenes of a possible switch (R510). -/
def ChkImage.unions (m : ChkImage) : List (List ChkLayer) :=
  m.sceneSets ++ m.scenes.flatMap (fun a => (m.targets a).map (fun b => m.pick (a.layers ++ b.layers).eraseDups))

/-- The units that some scene binds. -/
def ChkImage.boundUnits (m : ChkImage) : List Nat := maskCodes.filter (fun u => m.sceneSets.any (fun c => c.any (fun x => maskNames x.l.unitMask u)))

/-- Ring i of a layer; one of no slots where there is none. -/
def ChkLayer.ring (c : ChkLayer) (i : Nat) : RingSt := c.rings.getD i RingSt.void

/-- The state with one layer bound, for what the sequencer works out of a layer at BIND. -/
def ChkImage.withLayer (m : ChkImage) (c : ChkLayer) : State :=
  let g : Fgs := { m.s.fgs with nodes := c.nodes, rings := c.rings }
  { m.s with fgs := g }

/-- No two ranges, first and length, share a byte. -/
def disjoint : List (Nat × Nat) → Bool
  | [] => true
  | x :: t => t.all (fun y => !overlap x.1 x.2 y.1 y.2) && disjoint t

/-- No element occurs twice. -/
def noRepeat {α : Type} [BEq α] : List α → Bool
  | [] => true
  | x :: t => !t.contains x && noRepeat t

/-- How often an element occurs. -/
def times {α : Type} [BEq α] (l : List α) (x : α) : Nat := (l.filter (· == x)).length

/-- Bytes that a ring takes: local address and length. -/
def RingRec.bytes (r : RingRec) : Nat × Nat := (ringBase r, r.slotCount * r.slotBytes)

/-! ### References (R58 item 1) -/

/-- Every scene, trigger, layer, node, stream and entry refers to what the image contains. -/
def ChkImage.refsOk (m : ChkImage) : Bool :=
  let vs := leAt (m.f.secBytes m.r 0x0F 0) 2 1
  m.scenes.all (fun a => !a.layers.isEmpty && a.layers.all (fun i => (m.layer? i).isSome)
      && a.triggers.all (fun t => (m.scene? t.target).isSome && (t.kind != 2 || decide (t.source < vs)))
      && (match a.bankedOf with
          | some b => (m.scene? b).any (fun x => x.bankedOf.isNone)
          | none => true))
    && m.layers.all (fun c => m.has 8 c.l.firewall && c.l.nodes.all (fun n =>
        !n.inRings.isEmpty && !n.outRings.isEmpty && (n.inRings ++ n.outRings).all (fun i => decide (i < c.l.rings.length))
          && (n.flow.map (fun f => c.l.flows.any (fun x => x.id == f))).getD true
          && (if n.cls == 7 then m.has 0x0A n.stepList else m.has 6 n.stepList)))
    && (m.f.usedStreams m.r).all (fun p => m.has 4 p.sensor && (p.ispSet == 0xFF || m.has 5 p.ispSet))
    && (m.f.expected m.r).all (fun e =>
        (e.kind != 3 || (m.f.sections m.r).any (fun x => x.pos == e.pattern))
          && (e.kind != 0 || (m.f.stream? m.r (e.pattern / 256)).isSome))

/-! ### Scenes and layers (R58 items 2 to 6, R33, R71, R72, R389) -/

/-- A scene lists a base layer first (item 2). -/
def ChkImage.basesOk (m : ChkImage) : Bool := m.sceneSets.all (fun c => (c.head?.map (·.l.base)).getD false)

/-- BOOT_SCENE is a full scene (item 6). -/
def ChkImage.bootOk (m : ChkImage) : Bool := (m.scene? (m.f.imgLe m.r 0x024 1)).any (fun a => a.bankedOf.isNone)

/-- The Frame Store rings of each scene lie within the Frame Store and apart; what a switch takes over passes through the cinder
state (R33, R510). -/
def ChkImage.frameStoreOk (m : ChkImage) : Bool :=
  m.sceneSets.all (fun c =>
    let rs := (c.flatMap (·.l.rings)).filter (fun r => r.kind == 0)
    rs.all (fun r => decide (r.base + r.slotCount * r.slotBytes ≤ fsBytes)) && disjoint (rs.map RingRec.bytes))

/-- Rings bound at the same moment on one device share no slot flag (item 4). -/
def ChkImage.flagsOk (m : ChkImage) : Bool :=
  m.unions.all (fun c =>
    let rs := c.flatMap (·.rings)
    (rs.map (·.remote)).eraseDups.all (fun d => disjoint ((rs.filter (fun r => r.remote == d)).map (fun r => (r.rc.flagBase, r.rc.slotCount)))))

/-- Priorities keep their bands (R71), and a safety partition sheds nothing (item 5). -/
def ChkImage.bandsOk (m : ChkImage) : Bool :=
  m.layers.all (fun c => decide (2 ≤ c.l.partition) && decide (c.l.partition ≤ 14) && c.l.nodes.all (fun n =>
    if isSafety c.l.partition then decide (5 ≤ n.prio) && decide (n.prio ≤ 7) && n.shedClass == 0 else decide (n.prio ≤ 3)))

/-- Two layers of one scene name no Neural Tile and no Check-Value Unit together (R72), and a scene names at most six
Check-Value Units (R389). -/
def ChkImage.ownersOk (m : ChkImage) : Bool :=
  m.sceneSets.all (fun c =>
    let us := (c.flatMap (fun x => x.l.units)).filter (fun u => u / 256 == 8 || u / 256 == 0x0A)
    noRepeat us && decide ((us.filter (fun u => u / 256 == 0x0A)).length ≤ 6))

/-! ### Rings and nodes (R21, R62 to R67, R94, R343) -/

/-- Each ring has one producer at most, so that no owned rectangles overlap (R21, R62). -/
def ChkImage.producersOk (m : ChkImage) : Bool :=
  let named := (m.f.usedStreams m.r).flatMap (fun p => (m.f.streamRings m.r p).eraseDups)
  noRepeat ((m.layers.flatMap (·.l.rings)).map (·.ringId))
    && m.layers.all (fun c => c.rings.all (fun r => decide (times (c.l.nodes.flatMap (·.outRings)) r.idx + times named r.rc.ringId ≤ 1)))

/-- LINES is a multiple of TILE_H, and a node's outputs have the same number of slots per frame (R64, R65). -/
def ChkImage.tilingOk (m : ChkImage) : Bool :=
  m.layers.all (fun c => c.l.nodes.all (fun n =>
    let r0 := c.ring (n.outRings.headD 0xFF)
    decide (1 ≤ n.tileW) && decide (1 ≤ n.tileH) && decide (1 ≤ r0.rc.lines) && r0.rc.lines % n.tileH == 0
      && n.outRings.all (fun j => (c.ring j).perFrame == r0.perFrame)))

/-- The IN_RINGS positions of a layer's non-periodic nodes. -/
def ChkLayer.reads (c : ChkLayer) : List Nat := (c.l.nodes.filter (fun n => !n.periodic)).flatMap (·.inRings)

/-- The staging rings that memory-fed streams name. -/
def ChkImage.stagingIds (m : ChkImage) : List Nat := (m.f.usedStreams m.r).map (fun p => leAt (m.f.ispSet m.r p.ispSet) 0x3FD4 2)

/-- CONSUMERS is the number of readers, 1 for a staging ring that no node names (R66, R149); a ring read with a previous frame is
deep enough (R67); at most 15 periodic nodes read one ring (R343). -/
def ChkImage.consumersOk (m : ChkImage) : Bool :=
  m.layers.all (fun c =>
    c.rings.all (fun r =>
      (if m.stagingIds.contains r.rc.ringId then r.rc.consumers == 1 && c.l.nodes.all (fun n => !n.inRings.contains r.idx)
        else r.rc.consumers == times c.reads r.idx)
        && decide ((c.l.nodes.filter (fun n => n.periodic && n.inRings.contains r.idx)).length ≤ 15))
    && c.l.nodes.all (fun n => n.inRings.all (fun i => decide (times n.inRings i < 2) || decide (2 * (c.ring i).perFrame ≤ (c.ring i).rc.slotCount))))

/-- Removing nodes without a predecessor leaves none. -/
def acyclic (edge : NodeRec → NodeRec → Bool) : Nat → List NodeRec → Bool
  | 0, ns => ns.isEmpty
  | k + 1, ns => acyclic edge k (ns.filter (fun n => ns.any (fun p => edge p n)))

/-- Every cycle of the buffer-wait graph holds a node with CREDITS of 1 or more, below its first output ring's SLOT_COUNT (table
"Build-time obligations"; that producers and consumers alone make the cycles: DEDUCED, log entry 40). -/
def ChkImage.creditsOk (m : ChkImage) : Bool :=
  m.layers.all (fun c =>
    let weak := c.l.nodes.filter (fun n => n.credits == 0 || decide ((c.ring (n.outRings.headD 0xFF)).rc.slotCount ≤ n.credits))
    acyclic (fun p n => !n.periodic && p.outRings.any (fun i => n.inRings.contains i)) weak.length weak)

/-- The stream group, the lone stream or the periodic node that a ring derives from: (kind, number). -/
def ChkImage.rootOf (m : ChkImage) (c : ChkLayer) (i : Nat) : Nat × Nat :=
  let ofStream (x : Nat) : Nat × Nat :=
    match m.f.stream? m.r x with
    | some p => if p.group == 0xFF then (1, x) else (0, p.group)
    | none => (1, x)
  match (c.ring i).producer with
  | .stream x => ofStream x
  | .nobody => (3, i)
  | .node k =>
    match c.nodes.find? (fun n => n.rc.slot == k) with
    | none => (3, i)
    | some n =>
      if n.rc.periodic then (2, k)
      else
        match n.refStream, n.refPeriodic with
        | some x, _ => ofStream x
        | none, some p => (2, p)
        | none, none => (3, i)

/-- Current-frame inputs of a node. -/
def NodeRec.currents (n : NodeRec) : List Nat := (List.range n.inRings.length).filter (fun j => !n.isPrev j)

/-- R94: node slots, fan-out entries, slots read by an instance, and where inputs derive from. -/
def ChkImage.nodesOk (m : ChkImage) : Bool :=
  m.unions.all (fun cs =>
    let ns := cs.flatMap (·.l.nodes)
    noRepeat (ns.map (·.slot)) && decide (((ns.filter (fun n => !n.periodic)).map (fun n => n.currents.length)).foldl (· + ·) 0 ≤ 16384))
    && m.layers.all (fun c =>
        let s := m.withLayer c
        c.nodes.all (fun n => n.rc.periodic || (
          (List.range n.rc.tiles).all (fun t => decide ((n.rc.currents.map (s.bandCount n t)).foldl (· + ·) 0 ≤ 8))
            && decide ((n.rc.inRings.map (m.rootOf c)).eraseDups.length ≤ 1))))

/-- A scratchpad ring lies within the first 6 MiB of one window, and rings bound at the same moment fit the ring maps (R343). -/
def ChkImage.mapsOk (m : ChkImage) : Bool :=
  m.layers.all (fun c => c.l.rings.all (fun r => r.kind != 1
      || (decide (r.base / 0x800000 < 16) && decide (r.base % 0x800000 + r.slotCount * r.slotBytes ≤ spmBytes))))
    && m.unions.all (fun cs =>
        let rs := cs.flatMap (·.l.rings)
        decide ((rs.filter (fun r => r.kind == 0)).length ≤ 1024) && decide ((rs.filter (fun r => r.kind == 2)).length ≤ 256)
          && (List.range 16).all (fun n => decide ((rs.filter (fun r => r.kind == 1 && r.base / 0x800000 == n)).length ≤ 64)))

/-- Cinder entries that outgoing layers need in the Frame Store and in LPDDR5X are at most 64 each (R343). -/
def cinderFits (out inc : List ChkLayer) (skip : Bool) : Bool :=
  let rs := out.flatMap (fun c => (layerRegions c.l).filter (fun x => !(skip && inc.any (fun d => d.l.partition == c.l.partition
    && (layerRegions d.l).any (fun y => overlap x.1 (x.2 - x.1) y.1 (y.2 - y.1))))))
  decide ((rs.filter (fun x => memClass x.1 == 0)).length ≤ 64) && decide ((rs.filter (fun x => memClass x.1 == 20)).length ≤ 64)

/-- Every switch, strippings included, fits the cinder entries (R343). -/
def ChkImage.cinderOk (m : ChkImage) : Bool :=
  m.scenes.all (fun a =>
    (m.targets a).all (fun b => cinderFits (m.pick (a.layers.filter (fun i => !b.layers.contains i)))
        (m.pick (b.layers.filter (fun i => !a.layers.contains i))) b.sameOwnerSkip)
      && maskCodes.all (fun u => cinderFits ((m.pick a.layers.tail).filter (fun c => maskNames c.l.unitMask u)) [] false))

/-- A ring's write credit is entered at BIND (R314). -/
def ChkLayer.wantsCredit (c : ChkLayer) (r : RingSt) : Bool :=
  let own := match r.producer with
    | .node p => (c.l.nodes.find? (fun x => x.slot == p)).any (fun x => x.cls == 5 && c.l.units.filter (fun u => u / 256 == 8) == [0x0800 + r.rc.base / 0x800000])
    | _ => false
  r.rc.kind == 1 && !own

/-- At most 16 write credits are entered for one scratchpad (R343). -/
def ChkImage.creditEntriesOk (m : ChkImage) : Bool :=
  m.unions.all (fun cs =>
    let rs := cs.flatMap (fun c => c.rings.filter c.wantsCredit)
    (List.range 16).all (fun n => decide ((rs.filter (fun r => r.rc.base / 0x800000 == n)).length ≤ 16)))

/-! ### Firmware (R58 item 12) -/

/-- A FIRMWARE section's window: first byte and length. -/
def FwSec.window (w : FwSec) : Nat × Nat := (w.loadOffset, ceilDiv (w.loadOffset + w.codeBytes + w.bssBytes) 1024 * 1024 - w.loadOffset)

/-- Firmware keeps its limits, and no windows overlap on one core. -/
def ChkImage.firmwareOk (m : ChkImage) : Bool :=
  let fs := m.f.firmwares m.r
  fs.all (fun w => w.loadOffset % 1024 == 0 && decide (w.entry < w.codeBytes) && decide (w.cores < 16)
      && (w.cores == 0 || decide (w.loadOffset + w.codeBytes + w.bssBytes ≤ 262144)))
    && (List.range 4).all (fun k => disjoint ((fs.filter (fun w => w.cores.testBit k)).map FwSec.window))

/-! ### Firewall entries (R57, R58 item 8, R362, R427) -/

/-- The firewall entries of a layer. -/
def ChkImage.entries (m : ChkImage) (c : ChkLayer) : List FwRec := m.f.firewall m.r c.l.firewall

/-- The FIREWALL sections of the image, each as its entries. -/
def ChkImage.firewalls (m : ChkImage) : List (List FwRec) := ((m.f.live m.r).filter (fun e => e.type == 8)).map (fun e => m.f.firewall m.r e.index)

/-- No entry grants Domain ID 0 or 15, nor writes to the Safety Island to any but Domain ID 1 (R57); none names region 31 of the
LPDDR5X target (R362); a section places at most 32 regions at one target (item 8); layers of one scene name no region
together (R427, R510). -/
def ChkImage.firewallsOk (m : ChkImage) : Bool :=
  m.firewalls.all (fun es =>
    es.all (fun e => !(e.rd.testBit 0 || e.rd.testBit 15 || e.wr.testBit 0 || e.wr.testBit 15)
        && (e.target != 0x190 || (List.range 16).all (fun d => d == 1 || !e.wr.testBit d))
        && !(e.target == 0xE0 && e.region == 31))
      && (es.map (·.target)).eraseDups.all (fun t => decide (times (es.map (·.target)) t ≤ 32)))
    && m.sceneSets.all (fun cs => noRepeat (cs.flatMap (fun c => ((m.entries c).map (fun e => (e.target, e.region))).eraseDups)))

/-- Every check of this file. -/
def ChkImage.graphOk (m : ChkImage) : Bool :=
  m.refsOk && m.basesOk && m.bootOk && m.frameStoreOk && m.flagsOk && m.bandsOk && m.ownersOk && m.producersOk && m.tilingOk && m.consumersOk
    && m.creditsOk && m.nodesOk && m.mapsOk && m.cinderOk && m.creditEntriesOk && m.firmwareOk && m.firewallsOk

end Sys2Proof.Machine
end

