-- ==== Sys2Proof/Machine/Float.lean ====
section
/-! DEFINITION. Binary floating-point arithmetic on exact values (R167, R245): decode, exact operations, and rounding to
the nearest with ties to even. -/

namespace Sys2Proof.Machine

open Sys2Proof

/-- A floating-point value: a NaN, an infinity, or ±m × 2^e. -/
inductive Fp where
  | nan
  | inf (neg : Bool)
  | fin (neg : Bool) (m : Nat) (e : Int)
  deriving DecidableEq, Repr

/-- Zero. -/
def Fp.zero : Fp := .fin false 0 0

/-- An integer. -/
def Fp.ofInt (x : Int) : Fp := .fin (decide (x < 0)) x.natAbs 0

/-- A natural number. -/
def Fp.ofNat (n : Nat) : Fp := .fin false n 0

/-- Sign reversed. -/
def Fp.neg : Fp → Fp
  | .nan => .nan
  | .inf s => .inf (!s)
  | .fin s m e => .fin (!s) m e

/-- Magnitude. -/
def Fp.abs : Fp → Fp
  | .nan => .nan
  | .inf _ => .inf false
  | .fin _ m e => .fin false m e

/-- The value is a NaN. -/
def Fp.isNan : Fp → Bool
  | .nan => true
  | _ => false

/-- The value is a zero of either sign. -/
def Fp.isZero : Fp → Bool
  | .fin _ m _ => m == 0
  | _ => false

/-- The value has a minus sign. -/
def Fp.signBit : Fp → Bool
  | .nan => false
  | .inf s => s
  | .fin s _ _ => s

/-- Signed integer significand at a common exponent not above e. -/
def Fp.atExp (neg : Bool) (m : Nat) (e lo : Int) : Int :=
  let v : Int := (m * 2 ^ (e - lo).toNat : Nat)
  if neg then -v else v

/-- Exact sum. A sum of two zeros is −0 only when both are −0; an exact cancellation gives +0. -/
def Fp.add : Fp → Fp → Fp
  | .nan, _ => .nan
  | _, .nan => .nan
  | .inf a, .inf b => if a == b then .inf a else .nan
  | .inf a, _ => .inf a
  | _, .inf b => .inf b
  | .fin a m e, .fin b n f =>
    let lo := min e f
    let v := atExp a m e lo + atExp b n f lo
    if v = 0 then .fin (a && b && m == 0 && n == 0) 0 lo else .fin (decide (v < 0)) v.natAbs lo

/-- Exact difference. -/
def Fp.sub (x y : Fp) : Fp := add x (neg y)

/-- Exact product. -/
def Fp.mul : Fp → Fp → Fp
  | .nan, _ => .nan
  | _, .nan => .nan
  | .inf a, .inf b => .inf (a != b)
  | .inf a, .fin b m _ => if m = 0 then .nan else .inf (a != b)
  | .fin b m _, .inf a => if m = 0 then .nan else .inf (a != b)
  | .fin a m e, .fin b n f => .fin (a != b) (m * n) (e + f)

/-- Strictly less, false for a NaN; zeros are equal. -/
def Fp.lt : Fp → Fp → Bool
  | .nan, _ => false
  | _, .nan => false
  | .inf a, .inf b => a && !b
  | .inf a, _ => a
  | _, .inf b => !b
  | .fin a m e, .fin b n f => decide (atExp a m e (min e f) < atExp b n f (min e f))

/-- Equal in value, false for a NaN. -/
def Fp.eqv (x y : Fp) : Bool := !x.isNan && !y.isNan && !lt x y && !lt y x

/-- Less or equal. -/
def Fp.le (x y : Fp) : Bool := lt x y || eqv x y


/-! ### Formats -/

/-- A binary format: exponent bits, fraction bits, whether the top exponent holds infinities and NaNs. -/
structure FpFmt where
  eb : Nat
  mb : Nat
  ieee : Bool
  deriving DecidableEq, Repr

/-- Bias of the exponent. -/
def FpFmt.bias (f : FpFmt) : Int := 2 ^ (f.eb - 1) - 1

def fp32 : FpFmt := ⟨8, 23, true⟩
def fp16 : FpFmt := ⟨5, 10, true⟩
def bf16 : FpFmt := ⟨8, 7, true⟩

/-- The value of a bit pattern. -/
def FpFmt.decode (f : FpFmt) (w : Nat) : Fp :=
  let s := w.testBit (f.eb + f.mb)
  let x := w / 2 ^ f.mb % 2 ^ f.eb
  let m := w % 2 ^ f.mb
  if f.ieee && x == 2 ^ f.eb - 1 then (if m == 0 then .inf s else .nan)
  else if x == 0 then .fin s m (1 - f.bias - f.mb)
  else .fin s (m + 2 ^ f.mb) ((x : Int) - f.bias - f.mb)

/-- Divide a natural number by a power of two, to the nearest with ties to even; `sticky` says that the number stands
for slightly more. -/
def rneShift (m d : Nat) (sticky : Bool) : Nat :=
  if d = 0 then m
  else
    let q := m / 2 ^ d
    let r := m % 2 ^ d
    let h := 2 ^ (d - 1)
    if decide (h < r) || (r == h && (sticky || q % 2 == 1)) then q + 1 else q

/-- Magnitude bits of m × 2^e rounded to the nearest with ties to even, as exponent and fraction together: the rounded
value may exceed the largest finite one. -/
def FpFmt.roundMag (f : FpFmt) (m : Nat) (e : Int) (sticky : Bool) : Nat :=
  if m = 0 then 0
  else
    let emin := 1 - f.bias
    let top := max ((Nat.log2 m : Int) + e) emin
    let q := top - f.mb
    let n := if q ≤ e then m * 2 ^ (e - q).toNat else rneShift m (q - e).toNat sticky
    (top - emin).toNat * 2 ^ f.mb + n

/-- Encode a value in an IEEE format: rounding overflow gives infinity, a NaN the quiet pattern. -/
def FpFmt.encode (f : FpFmt) (v : Fp) (sticky : Bool) : Nat :=
  let top := (2 ^ f.eb - 1) * 2 ^ f.mb
  let sgn (s : Bool) : Nat := if s then 2 ^ (f.eb + f.mb) else 0
  match v with
  | .nan => top + 2 ^ (f.mb - 1)
  | .inf s => sgn s + top
  | .fin s m e => sgn s + min top (f.roundMag m e sticky)

/-- Round a value to a format, as a value. -/
def FpFmt.round (f : FpFmt) (v : Fp) : Fp := f.decode (f.encode v false)

/-- Quotient rounded to a format. -/
def FpFmt.div (f : FpFmt) (x y : Fp) : Fp :=
  match x, y with
  | .nan, _ => .nan
  | _, .nan => .nan
  | .inf a, .inf _ => if a then .nan else .nan
  | .inf a, .fin b _ _ => .inf (a != b)
  | .fin a _ _, .inf b => .fin (a != b) 0 0
  | .fin a m e, .fin b n g =>
    if n = 0 then (if m = 0 then .nan else .inf (a != b))
    else
      let k := Nat.log2 n + f.mb + 3
      let num := m * 2 ^ k
      let q := num / n
      f.decode (f.encode (.fin (a != b) (2 * q + (if num % n = 0 then 0 else 1)) (e - g - k - 1)) false)

/-- binary32 operations (R167). -/
def f32add (x y : Fp) : Fp := fp32.round (x.add y)
def f32mul (x y : Fp) : Fp := fp32.round (x.mul y)
def f32div (x y : Fp) : Fp := fp32.div x y

/-- A finite value. -/
def Fp.isFinite : Fp → Bool
  | .fin _ _ _ => true
  | _ => false

/-- The largest integer not above v + n/2; none for a NaN or an infinity. -/
def Fp.floorPlus (v : Fp) (n : Int) : Option Int :=
  match v with
  | .fin s m e =>
    let lo := min e (-1)
    let x := Fp.atExp s m e lo + n * 2 ^ (-1 - lo).toNat
    some (x / 2 ^ (-lo).toNat)
  | _ => none

/-- The nearest integer with halves away from zero of v × 2^k; none for a NaN or an infinity. -/
def Fp.toIntAway (v : Fp) (k : Nat) : Option Int :=
  match v with
  | .nan => none
  | .inf _ => none
  | .fin s m e =>
    let e := e + k
    let n := if 0 ≤ e then m * 2 ^ e.toNat else (m + 2 ^ ((-e).toNat - 1)) / 2 ^ (-e).toNat
    some (if s then -(n : Int) else n)

end Sys2Proof.Machine
end

