-- ==== Sys2Proof/Machine/Warp.lean ====
section
/-! DEFINITION. The warp and pyramid engines (spec/07): MESH, AFFINE, HOMOGRAPHY, RECT_PAIR and PYRAMID steps. -/

namespace Sys2Proof.Machine

open Sys2Proof

/-! ### Pixels (R162) -/

/-- Bytes of one pixel of a format, luma for NV12. -/
def pixBytes (format : Nat) : Nat :=
  match format with
  | 0x02 | 0x04 | 0x10 | 0x20 => 2
  | 0x03 => 3
  | 0x05 => 6
  | 0x11 | 0x12 | 0x24 => 8
  | 0x22 => 4
  | 0x23 => 64
  | _ => 1

/-- The little-endian value of n bytes at an address of the model. -/
def State.pix (s : State) (a n : Nat) : Nat := leNat (s.fetch a n)

/-- A coordinate reflected about the edges of n samples without repeating the edge (R142). -/
def reflect (n : Nat) (x : Int) : Nat :=
  if n ≤ 1 then 0
  else
    let p := 2 * (n - 1)
    let r := (x % (p : Int)).toNat
    if r < n then r else p - r

/-- Local address of a pixel of a ring frame. -/
def pixAddr (r : RingSt) (k x y : Nat) : Nat := lineAddr r k y + x * pixBytes r.rc.format

/-- The runs that hold the lines a to b, b excluded, of a ring frame. -/
def lineRuns (r : RingSt) (k a b : Nat) : List (Nat × Nat) := (span a b).map (fun y => (lineAddr r k y, r.rc.width * pixBytes r.rc.format))

/-! ### Sampling (R169 to R173) -/

/-- What a warp step samples: its input, the lines of its fetch window, and its interpolation and fill. -/
structure WarpIn where
  r : RingSt
  k : Nat
  lo : Nat
  hi : Nat
  interp : Nat
  edge : Bool
  fill : Nat
  deriving DecidableEq, Repr

/-- Numerator over 128 of 4,096 times the Keys weight (a = −0.5) of tap i at phase k ÷ 64. -/
def keysNum (k : Int) (i : Nat) : Int :=
  match i with
  | 0 => -(k * k * k) + 128 * (k * k) - 4096 * k
  | 1 => 3 * (k * k * k) - 320 * (k * k) + 524288
  | 2 => -3 * (k * k * k) + 256 * (k * k) + 4096 * k
  | _ => k * k * k - 64 * (k * k)

/-- A weight rounded to 12 fractional bits; how a tie is rounded is free (log entry 19). -/
def keysRound (k i : Nat) : Int :=
  let n := keysNum k i
  if n % 128 = 64 then n / 128 + (if Config.bicubicTieUp k i then 1 else 0) else (n + 64) / 128

/-- The four weights at phase k: the largest is adjusted so that they sum to 4,096. -/
def keysWeights (k : Nat) : List Int :=
  let w := (List.range 4).map (keysRound k)
  let sum := w.foldl (· + ·) 0
  let top := w.foldl max 0
  let at' := w.idxOf top
  w.mapIdx (fun i x => if i == at' then x + (4096 - sum) else x)

/-- The taps of a position, each with its weight, and the number of fractional bits (R169). -/
def tapsOf (interp : Nat) (u v : Int) : List (Int × Int × Int) × Nat :=
  let p := u / 256
  let f := u % 256
  let q := v / 256
  let g := v % 256
  match interp with
  | 0 => ([((u + 128) / 256, (v + 128) / 256, 1)], 0)
  | 1 => ([(p, q, (256 - f) * (256 - g)), (p + 1, q, f * (256 - g)), (p, q + 1, (256 - f) * g), (p + 1, q + 1, f * g)], 16)
  | _ =>
    let wx := keysWeights (f / 4).toNat
    let wy := keysWeights (g / 4).toNat
    ((List.range 4).flatMap (fun (j : Nat) => (List.range 4).map (fun (i : Nat) => (p - 1 + (i : Int), q - 1 + (j : Int), wx.getD i 0 * wy.getD j 0))), 24)

/-- Where a tap reads: none for FILL; with whether it lies outside the image, and whether it missed the window. -/
def tapAt (w h lo hi : Nat) (edge : Bool) (x y : Int) : Option (Nat × Nat) × Bool × Bool :=
  let out := decide (x < 0) || decide ((w : Int) ≤ x) || decide (y < 0) || decide ((h : Int) ≤ y)
  if out && !edge then (none, true, false)
  else
    let xc := (clampI 0 ((w : Int) - 1) x).toNat
    let yc := (clampI 0 ((h : Int) - 1) y).toNat
    if decide (lo ≤ yc) && decide (yc < hi) then (some (xc, yc), out, false) else (none, out, true)

/-- Largest value of a format's sample. -/
def sampleMax (format : Nat) : Nat := if format == 2 then 1023 else 255

/-- FILL of a channel (R171). -/
def WarpIn.fillOf (w : WarpIn) (chroma : Bool) : Nat :=
  if chroma then w.fill / 256
  else if w.r.rc.format == 2 then w.fill % 1024
  else w.fill % 256

/-- Sample channel values at a position: the values, whether a tap or the position lies outside, and the taps that
missed the window. -/
def State.warpSample (s : State) (w : WarpIn) (chroma : Bool) (pos : Option (Int × Int)) : List Nat × Bool × Nat :=
  let rc := w.r.rc
  let n := if chroma then 2 else if rc.format == 3 then 3 else 1
  match pos with
  | none => (List.replicate n (w.fillOf chroma), true, 0)
  | some (u, v) =>
    let t := tapsOf w.interp u v
    let (pw, ph, lo, hi) := if chroma then (rc.width / 2, w.r.frameH / 2, w.lo / 2, (w.hi + 1) / 2) else (rc.width, w.r.frameH, w.lo, w.hi)
    let taps := t.1.map (fun x => (tapAt pw ph lo hi w.edge x.1 x.2.1, x.2.2))
    let read (c : Nat) (p : Option (Nat × Nat)) : Nat :=
      match p with
      | none => w.fillOf chroma
      | some (x, y) =>
        if chroma then s.pix (chromaAddr w.r w.k y + 2 * x + c) 1
        else if rc.format == 3 then s.pix (pixAddr w.r w.k x y + c) 1
        else s.pix (pixAddr w.r w.k x y) (pixBytes rc.format)
    let val (c : Nat) : Nat :=
      let sum := taps.foldl (fun (a : Int) x => a + x.2 * (read c x.1.1 : Int)) 0
      let r := if t.2 == 0 then sum else (sum + 2 ^ (t.2 - 1)) / 2 ^ t.2
      (clampI 0 (sampleMax rc.format) r).toNat
    ((List.range n).map val, taps.any (fun x => x.1.2.1), (taps.filter (fun x => x.1.2.2)).length)

/-! ### Positions (R167, R168) -/

/-- The coefficients of a descriptor. -/
def warpH (d : List Byte) (i : Nat) : Fp := fp32.decode (leAt d (0x0C + 4 * i) 4)

/-- (a·x + b·y) + c in binary32, in the order written. -/
def f32lin (a b c x y : Fp) : Fp := f32add (f32add (f32mul a x) (f32mul b y)) c

/-- A homography or affine map applied to a point, in pixels; none where w is at most 2^−20. -/
def f32map (h : Nat → Fp) (projective : Bool) (x y : Fp) : Option (Fp × Fp) :=
  let u := f32lin (h 0) (h 1) (h 2) x y
  let v := f32lin (h 3) (h 4) (h 5) x y
  if projective then
    let w := f32lin (h 6) (h 7) (h 8) x y
    if Fp.le w (.fin false 1 (-20)) then none else some (f32div u w, f32div v w)
  else some (u, v)

/-- A pixel position as a multiple of 1/2^k pixel; none where it is no number or its magnitude exceeds 2^30. -/
def Fp.place (v : Fp) (k : Nat) : Option Int := (v.toIntAway k).bind (fun x => if x.natAbs ≤ 2 ^ 30 then some x else none)

/-- Source position of an AFFINE or HOMOGRAPHY pixel (R167). -/
def linearPos (d : List Byte) (projective : Bool) (x y : Nat) : Option (Int × Int) :=
  (f32map (warpH d) projective (Fp.ofNat x) (Fp.ofNat y)).bind (fun p =>
    (p.1.place 8).bind (fun u => (p.2.place 8).map (fun v => (u, v))))

/-- A vertex of a mesh loaded at an address. -/
def State.vertex (s : State) (mesh i j : Nat) : Option (Int × Int) :=
  let a := mesh + 32 + 8 * (j * s.pix (mesh + 2) 2 + i)
  let x := s.pix a 4
  if x == 0x80000000 then none else some (signed 32 x, signed 32 (s.pix (a + 4) 4))

/-- Source position of a mesh pixel (R168). -/
def State.meshPos (s : State) (mesh x y : Nat) : Option (Int × Int) :=
  let i := x / 16
  let j := y / 16
  let fx : Int := x % 16
  let fy : Int := y % 16
  let mix (a b c d : Int) : Int := ((16 - fx) * (16 - fy) * a + fx * (16 - fy) * b + (16 - fx) * fy * c + fx * fy * d + 128) / 256
  match s.vertex mesh i j, s.vertex mesh (i + 1) j, s.vertex mesh i (j + 1), s.vertex mesh (i + 1) (j + 1) with
  | some a, some b, some c, some d => some (mix a.1 b.1 c.1 d.1, mix a.2 b.2 c.2 d.2)
  | _, _, _, _ => none

/-- Position of a chroma sample: the mean of its four luma positions, in chroma coordinates (R170). A block with a luma
position outside has none. -/
def chromaPos (pos : Nat → Nat → Option (Int × Int)) (xc yc : Nat) : Option (Int × Int) :=
  match pos (2 * xc) (2 * yc), pos (2 * xc + 1) (2 * yc), pos (2 * xc) (2 * yc + 1), pos (2 * xc + 1) (2 * yc + 1) with
  | some a, some b, some c, some d =>
    let m (x : Int) : Int := ((x + 2) / 4 - 128) / 2
    some (m (a.1 + b.1 + c.1 + d.1), m (a.2 + b.2 + c.2 + d.2))
  | _, _, _, _ => none

/-! ### The step -/

/-- The pairs of input and output of a warp operation with the mesh of each. -/
def warpPairs (d : List Byte) : List (Nat × Nat) :=
  if leAt d 0 1 == 4 then [(0, leAt d 8 2), (1, leAt d 0x0A 2)] else [(0, leAt d 8 2)]

/-- A loaded WARP_MESH section. -/
def State.meshAt (s : State) (index : Nat) : Option SecEnt := s.flash.section? s.imgRegion 0x0C index

/-- A permitted pair of formats (table "Warp format pairs"). -/
def warpPair (i o : Nat) : Bool := (i == o && decide (i ≤ 3)) || (i == 0 && o == 1)

/-- A warp descriptor is valid (R163). -/
def warpValid (s : State) (c : StepCtx) (d : List Byte) : Bool :=
  let op := leAt d 0 1
  let mesh := op == 1 || op == 4
  decide (1 ≤ op) && decide (op ≤ 4) && decide (leAt d 1 1 ≤ 2) && decide (leAt d 2 1 < 4) && leAt d 3 1 == 0 && allZero (d.drop 0x30)
    && (if mesh then allZero ((d.drop 0x0C).take 36) && (s.meshAt (leAt d 8 2)).isSome else leAt d 8 2 == 0xFFFF)
    && (if op == 4 then (s.meshAt (leAt d 0x0A 2)).isSome else leAt d 0x0A 2 == 0xFFFF)
    && (warpPairs d).all (fun p => decide (p.1 < c.ins.length) && decide (p.1 < c.outs.length)
        && warpPair (c.inp p.1).1.rc.format (c.out p.1).1.rc.format)

/-- The input of pair j with its fetch window (R172). -/
def warpIn (c : StepCtx) (d : List Byte) (j : Nat) : WarpIn :=
  let r := (c.inp j).1
  let q := c.rect j
  let ho := max 1 (c.out j).1.frameH
  { r := r, k := ((c.inp j).2).getD 0, lo := q.2.2.1 * r.frameH / ho - leAt d 6 1,
    hi := min r.frameH (ceilDiv (q.2.2.2 * r.frameH) ho + leAt d 7 1),
    interp := leAt d 1 1, edge := (leAt d 2 1).testBit 1, fill := leAt d 4 2 }

/-- What pair j fetches: its mesh rows, its window, and the chroma lines of it for an NV12 output. -/
def State.warpRuns (s : State) (c : StepCtx) (d : List Byte) (j mesh : Nat) : List (Nat × Nat) :=
  let w := warpIn c d j
  let q := c.rect j
  let m := match s.meshAt mesh with
    | some e =>
      let cols := s.pix (e.load + 2) 2
      if leAt d 0 1 == 1 || leAt d 0 1 == 4 then
        (e.load, 32) :: (span (q.2.2.1 / 16) ((q.2.2.2 - 1) / 16 + 2)).map (fun y => (e.load + 32 + 8 * y * cols, 8 * cols))
      else []
    | none => []
  let ch := if w.r.rc.format == 0 && (c.out j).1.rc.format == 0 then (span (w.lo / 2) ((w.hi + 1) / 2)).map (fun y => (chromaAddr w.r w.k y, w.r.rc.width)) else []
  m ++ lineRuns w.r w.k w.lo w.hi ++ ch

/-- What pair j writes: its stores, the pixels that touch the outside, and the taps that missed the window. -/
def State.warpOut (s : State) (c : StepCtx) (d : List Byte) (j mesh : Nat) : List (Nat × List Byte) × Nat × Nat :=
  let w := warpIn c d j
  let o := c.out j
  let q := c.rect j
  let op := leAt d 0 1
  let base := ((s.meshAt mesh).map (fun (e : SecEnt) => e.load)).getD 0
  let pos (x y : Nat) : Option (Int × Int) := if op == 2 then linearPos d false x y else if op == 3 then linearPos d true x y else s.meshPos base x y
  let n := if o.1.rc.format == 2 then 2 else 1
  let row (y : Nat) : List (List Nat × Bool × Nat) := (span q.1 q.2.1).map (fun x => s.warpSample w false (pos x y))
  let luma := (span q.2.2.1 q.2.2.2).map (fun y => (y, row y))
  let chroma := if o.1.rc.format == 0 then
      (span (q.2.2.1 / 2) (q.2.2.2 / 2)).map (fun y => (y, (span (q.1 / 2) (q.2.1 / 2)).map (fun x => s.warpSample w true (chromaPos pos x y))))
    else []
  let bytes (n : Nat) (r : List (List Nat × Bool × Nat)) : List Byte := r.flatMap (fun p => p.1.flatMap (leBytes n))
  let sum (f : List Nat × Bool × Nat → Nat) (ls : List (Nat × List (List Nat × Bool × Nat))) : Nat := ((ls.flatMap (·.2)).map f).foldl (· + ·) 0
  (luma.map (fun l => (pixAddr o.1 o.2 q.1 l.1, bytes n l.2)) ++ chroma.map (fun l => (chromaAddr o.1 o.2 l.1 + q.1, bytes 1 l.2)),
   sum (fun p => bit p.2.1) luma, sum (fun p => p.2.2) luma + sum (fun p => p.2.2) chroma)

/-- Samples that a pair writes, as R174 counts them. -/
def warpSamples (c : StepCtx) (j : Nat) : Nat :=
  let q := c.rect j
  let n := (q.2.1 - q.1) * (q.2.2.2 - q.2.2.1)
  match (c.out j).1.rc.format with
  | 0 => n * 3 / 2
  | 3 => n * 3
  | _ => n

/-- Taps that missed the window: counted, the bands flagged, and FOOTPRINT journaled once per instance (R173). -/
def State.footprint (s : State) (c : StepCtx) (n : Nat) : State :=
  if n == 0 then s
  else
    let s := ((s.addCnt (engCnt c.unit 3) n).event (engErr c.unit) ⟨3, 3⟩).flagStep c
    let told := ((c.entry.bind s.entry?).map (fun (i : Inst) => i.footprint)).getD false
    if told then s
    else
      let s := s.log c.unit 0x0503 1 c.domain c.stream c.nt n 0
      match c.entry with
      | some e => s.modInst e (fun i => { i with footprint := true })
      | none => s

/-- Run a warp step. -/
def runWarp (s : State) (c : StepCtx) (d : List Byte) : State :=
  let ps := warpPairs d
  match s.fetchRuns c (ps.flatMap (fun p => s.warpRuns c d p.1 p.2)) with
  | (s, false) => s
  | (s, true) =>
    let outs := ps.map (fun p => s.warpOut c d p.1 p.2)
    let ws := outs.flatMap (fun o => o.1)
    match s.storeRuns c ws with
    | (s, false) => s
    | (s, true) =>
      let oob := (outs.map (fun o => o.2.1)).foldl (· + ·) 0
      let miss := (outs.map (fun o => o.2.2)).foldl (· + ·) 0
      let s := if oob == 0 then s else (s.addCnt (engCnt c.unit 2) oob).event (engErr c.unit) ⟨0, 0⟩
      let s := (s.footprint c miss).addKilo c.unit (engCnt c.unit 1) 1 ((ps.map (fun p => warpSamples c p.1)).foldl (· + ·) 0)
      s.stepDone c (leAt d 2 1 % 2 == 1) (ws.flatMap (·.2))

/-- A warp step of one operation. -/
def State.warpStep (s : State) (inst op : Nat) (err : StepErr) : State :=
  s.engineStep (0x0300 + inst) err warpValid (fun o => o == op) runWarp

/-- MESH (R168): output pixels resampled at positions interpolated from a mesh. -/
def execMesh (inst : Fin 4) (err : StepErr) (s : State) : Res := .next (s.warpStep inst.val 1 err)

/-- AFFINE (R167). -/
def execAffine (inst : Fin 4) (err : StepErr) (s : State) : Res := .next (s.warpStep inst.val 2 err)

/-- HOMOGRAPHY (R167). -/
def execHomography (inst : Fin 4) (err : StepErr) (s : State) : Res := .next (s.warpStep inst.val 3 err)

/-- RECT_PAIR (R168): both eyes into the same owned rectangle. -/
def execRectPair (inst : Fin 4) (err : StepErr) (s : State) : Res := .next (s.warpStep inst.val 4 err)

/-! ### Pyramids (R175 to R181) -/

/-- A level as lines of values. -/
abbrev Level := List (List Nat)

/-- The value of a level at a coordinate, reflected at its edges. -/
def levelAt (w h : Nat) (l : Level) (x y : Int) : Nat := (l.getD (reflect h y) []).getD (reflect w x) 0

/-- Offsets and weights of the five-tap kernel. -/
def kernel5 : List (Int × Nat) := [(-2, 1), (-1, 4), (0, 6), (1, 4), (2, 1)]

/-- A level of w × h values. -/
def mkLevel {α : Type} (w h : Nat) (f : Nat → Nat → α) : List (List α) := (List.range h).map (fun y => (List.range w).map (fun x => f x y))

/-- The Gaussian level above a level of w × h values (R175). -/
def reduceLevel (w h : Nat) (l : Level) : Level :=
  mkLevel ((w + 1) / 2) ((h + 1) / 2) (fun x y =>
    ((kernel5.flatMap (fun j => kernel5.map (fun i => i.2 * j.2 * levelAt w h l (2 * x + i.1) (2 * y + j.1)))).foldl (· + ·) 0 + 128) / 256)

/-- Extent of level k counted from a level of w samples. -/
def levelDim : Nat → Nat → Nat
  | 0, w => w
  | k + 1, w => (levelDim k w + 1) / 2

/-- Level k counted from the input level. -/
def gaussLevel (w h : Nat) (l : Level) : Nat → Level
  | 0 => l
  | k + 1 => reduceLevel (levelDim k w) (levelDim k h) (gaussLevel w h l k)

/-- The expansion of a level of w × h values at a coordinate of the level below (R176). -/
def expandAt (w h : Nat) (l : Level) (x y : Nat) : Nat :=
  ((kernel5.flatMap (fun j => kernel5.map (fun i =>
      let a := (x : Int) - i.1
      let b := (y : Int) - j.1
      if a % 2 = 0 && b % 2 = 0 then 4 * i.2 * j.2 * levelAt w h l (a / 2) (b / 2) else 0))).foldl (· + ·) 0 + 128) / 256

/-- The census of a level at a coordinate over a window of nx × ny (R177). -/
def censusAt (w h : Nat) (l : Level) (nx ny x y : Nat) : Nat :=
  let c := levelAt w h l x y
  let offs := (List.range ny).flatMap (fun (j : Nat) => (List.range nx).map (fun (i : Nat) => ((i : Int) - (nx / 2 : Nat), (j : Int) - (ny / 2 : Nat))))
  let offs := offs.filter (fun o => !(o.1 == 0 && o.2 == 0))
  (offs.mapIdx (fun i o => if levelAt w h l ((x : Int) + o.1) ((y : Int) + o.2) < c then 2 ^ i else 0)).foldl (· + ·) 0

/-- Kind and level of output j. -/
def pyrOut (d : List Byte) (j : Nat) : Nat × Nat := (leAt d (4 + j) 1 / 16, leAt d (4 + j) 1 % 8)

/-- The outputs that a descriptor uses, no more than the node has. -/
def pyrOuts (c : StepCtx) (d : List Byte) : List Nat := (List.range (min 8 c.outs.length)).filter (fun j => (pyrOut d j).1 != 0)

/-- The format that an output kind has for an input format. -/
def pyrFormat (kind input : Nat) : Nat :=
  match kind with
  | 1 => if input == 2 then 2 else 1
  | 2 => 0x10
  | 3 => 0x11
  | _ => 0x12

/-- A pyramid descriptor is valid (R163). -/
def pyrValid (_ : State) (c : StepCtx) (d : List Byte) : Bool :=
  let i := leAt d 1 1
  let f := (c.inp 0).1.rc.format
  leAt d 0 1 == 0x10 && decide (i ≤ 6) && decide (i < leAt d 2 1) && decide (leAt d 2 1 ≤ 7) && decide (leAt d 3 1 < 4) && allZero (d.drop 0x0D)
    && decide (0 < c.ins.length) && decide (f ≤ 2)
    && (List.range 8).all (fun j => let b := leAt d (4 + j) 1; decide (b / 16 ≤ 4) && b / 8 % 2 == 0)
    && (pyrOuts c d).all (fun j => (c.out j).1.rc.format == pyrFormat (pyrOut d j).1 f)

/-- The fetch rectangle in the input frame: columns and lines, ends excluded. -/
def pyrFetch (c : StepCtx) (d : List Byte) : Nat × Nat × Nat × Nat :=
  let q := c.rect 0
  let m := 2 ^ ((pyrOut d 0).2 - leAt d 1 1)
  let h := leAt d 0x0C 1
  let r := (c.inp 0).1
  (q.1 * m - h, min r.rc.width (q.2.1 * m + h), q.2.2.1 * m - h, min r.frameH (q.2.2.2 * m + h))

/-- The step carries from the step that ended last on its engine (R180). -/
def State.carries (s : State) (c : StepCtx) (d : List Byte) : Option Carry :=
  match s.carry.getD (c.unit % 256) none with
  | none => none
  | some p =>
    if p.node == c.slot && p.seq == c.seq && p.tile + c.rc.cols c.out0.rc.width == c.tile && !p.noCarry && !(leAt d 3 1).testBit 1
        && c.entry.isSome then some p
    else none

/-- Bytes of an output of a kind and level at a pixel; n is the bytes of an input pixel. -/
def pyrBytes (w h : Nat) (inp : Level) (n inLevel kind level x y : Nat) : List Byte :=
  let k := level - inLevel
  let g := gaussLevel w h inp k
  let wk := levelDim k w
  let hk := levelDim k h
  match kind with
  | 1 => leBytes n (levelAt wk hk g x y)
  | 2 =>
    let e := expandAt (levelDim (k + 1) w) (levelDim (k + 1) h) (gaussLevel w h inp (k + 1)) x y
    leBytes 2 (unsigned 16 ((levelAt wk hk g x y : Int) - e))
  | 3 => leBytes 8 (censusAt wk hk g 9 7 x y)
  | _ => leBytes 8 (censusAt wk hk g 7 7 x y)

/-- Run a PYRAMID step. Every stored value is that of the formulas over the whole frame (R179). -/
def runPyr (s : State) (c : StepCtx) (d : List Byte) : State :=
  let r := (c.inp 0).1
  let k := ((c.inp 0).2).getD 0
  let n := pixBytes r.rc.format
  let q := pyrFetch c d
  let car := s.carries c d
  let top := match car with
    | some p => max q.2.2.1 p.bottom
    | none => q.2.2.1
  match s.fetchRuns c ((span top q.2.2.2).map (fun y => (lineAddr r k y + q.1 * n, (q.2.1 - q.1) * n))) with
  | (s, false) => s
  | (s, true) =>
    let inp := mkLevel r.rc.width r.frameH (fun x y => s.pix (pixAddr r k x y) n)
    let ws := (pyrOuts c d).flatMap (fun j =>
      let o := c.out j
      let x := c.rect j
      let t := pyrOut d j
      (span x.2.2.1 x.2.2.2).map (fun y => (pixAddr o.1 o.2 x.1 y, (span x.1 x.2.1).flatMap (fun px =>
        pyrBytes r.rc.width r.frameH inp n (leAt d 1 1) t.1 t.2 px y))))
    match s.storeRuns c ws with
    | (s, false) => s
    | (s, true) =>
      let e := c.unit % 256
      let s := s.addKilo c.unit (engCnt c.unit 1) 1 ((q.2.2.2 - top) * (q.2.1 - q.1))
      let s := if car.isSome then s.addCnt (engCnt c.unit 2) 1 else s
      let s := s.setFlag (Reg.PYR_STATUS e) F.PYR_STATUS.CARRY car.isSome
      let s := s.stepDone c (leAt d 3 1 % 2 == 1) (ws.flatMap (·.2))
      let k : Carry := ⟨c.slot, c.seq, c.tile, (leAt d 3 1).testBit 1, q.2.2.2⟩
      { s with carry := s.carry.mapIdx (fun i x => if i == e then (if c.entry.isSome then some k else none) else x) }

/-- PYRAMID (R175 to R181). -/
def execPyramid (inst : Fin 4) (err : StepErr) (s : State) : Res :=
  .next (s.engineStep (0x0400 + inst.val) err pyrValid (fun o => o == 0x10) runPyr)

end Sys2Proof.Machine
end

