-- ==== Sys2Proof/Machine/Stereo.lean ====
section
/-! DEFINITION. The stereo engine (spec/08): prediction, windows, path aggregation, choice, refinement, STEREO steps; and
the motion table that stereo and feature matching read. -/

namespace Sys2Proof.Machine

open Sys2Proof

/-! ### Motion table (R189, R190) -/

/-- A motion entry. -/
structure Motion where
  seq : Word
  flags : Nat
  h : List Fp
  k : Fp
  slope : Fp
  horizon : Fp
  spare : Nat
  check : Word
  deriving DecidableEq, Repr

/-- Address of the entry of a sequence. -/
def motionAddr (table : Nat) (seq : Word) : Nat := table + 64 * (seq.toNat % 16)

/-- Read an entry. -/
def parseMotion (b : List Byte) : Motion :=
  { seq := w32 (leAt b 0 4), flags := leAt b 4 4, h := (List.range 9).map (fun i => fp32.decode (leAt b (8 + 4 * i) 4)),
    k := fp32.decode (leAt b 0x2C 4), slope := fp32.decode (leAt b 0x30 4), horizon := fp32.decode (leAt b 0x34 4),
    spare := leAt b 0x38 4, check := w32 (leAt b 0x3C 4) }

/-- An entry is accepted: it serves the sequence, its CHECK matches, reserved bits are zero, and what the step uses of it
is finite (R189). -/
def Motion.accepted (m : Motion) (seq : Word) (usesH usesK usesGp : Bool) : Bool :=
  m.seq == seq && m.check == ~~~seq && decide (m.flags ≤ 1) && m.spare == 0
    && (!usesH || m.h.all Fp.isFinite) && (!usesK || m.k.isFinite)
    && (!(usesGp && m.flags == 1) || (m.slope.isFinite && m.horizon.isFinite))

/-- A miss: counted, its event set, and journaled as informational. -/
def State.motionMiss (s : State) (c : StepCtx) (bit cnt : Nat) : State :=
  ((s.addCnt (engCnt c.unit cnt) 1).event (engErr c.unit) ⟨bit, bit⟩).log c.unit 0x0504 0 c.domain c.stream c.nt c.seq.toNat 0

/-! ### Descriptor (R199) -/

/-- Fields of a stereo descriptor. -/
structure StrDesc where
  lr : Bool
  subpix : Bool
  refLow : Bool
  refEdge : Bool
  sat : Bool
  pred : Nat
  fallback : Nat
  shift : Nat
  offset : Nat
  p1 : Nat
  p2 : Nat
  refThresh : Nat
  uniqMin : Nat
  texMin : Nat
  confW : Nat
  haloX : Nat
  haloY : Nat
  satLevel : Nat
  slope : Fp
  horizon : Fp
  motion : Nat
  deriving DecidableEq, Repr

/-- Read a stereo descriptor. -/
def parseStr (d : List Byte) : StrDesc :=
  let f := leAt d 1 1
  { lr := f.testBit 1, subpix := f.testBit 2, refLow := f.testBit 3, refEdge := f.testBit 4, sat := f.testBit 5,
    pred := leAt d 2 1 % 16, fallback := leAt d 2 1 / 16, shift := leAt d 3 1, offset := leAt d 4 1, p1 := leAt d 5 1, p2 := leAt d 6 1,
    refThresh := leAt d 7 1, uniqMin := leAt d 8 1, texMin := leAt d 9 1, confW := leAt d 0x0A 1, haloX := leAt d 0x0B 1, haloY := leAt d 0x0C 1,
    satLevel := leAt d 0x0D 1, slope := fp32.decode (leAt d 0x10 4), horizon := fp32.decode (leAt d 0x14 4), motion := leAt d 0x18 8 }

/-- A stereo descriptor is valid (R199). -/
def strValid (_ : State) (_ : StepCtx) (d : List Byte) : Bool :=
  let b := parseStr d
  let gp := b.pred == 3 || b.fallback == 3
  leAt d 0 1 == 0x20 && decide (leAt d 1 1 < 64) && decide (b.pred ≤ 3) && (b.fallback == 0 || b.fallback == 2 || b.fallback == 3)
    && decide (b.shift ≤ 2) && decide (b.offset ≤ 127) && decide (1 ≤ b.p1) && decide (b.p1 ≤ 63) && decide (b.p1 < b.p2)
    && decide (b.confW ≤ 16) && decide (b.haloX ≤ 64) && decide (b.haloY ≤ 16) && (b.sat == (b.satLevel != 0)) && leAt d 0x0E 2 == 0
    && allZero (d.drop 0x20) && (b.pred == 0 || b.fallback != b.pred) && !(b.fallback == 2 && b.pred != 1)
    && !(b.fallback != 0 && (b.pred == 0 || b.pred == 3)) && !(b.pred == 1 && b.motion == 0) && b.motion % 64 == 0 && decide (b.motion < 2 ^ 42)
    && (!gp || (b.slope.isFinite && b.horizon.isFinite))

/-! ### Inputs of a step (R183) -/

/-- What a stereo step works on: descriptor, motion entry where one was accepted, rings with their frames, and the
aggregation region. -/
structure StrJob where
  b : StrDesc
  motion : Option Motion
  left : RingSt × Nat
  right : RingSt × Nat
  cur : RingSt × Nat
  prev : Option (RingSt × Nat)
  lumaL : RingSt × Nat
  lumaR : RingSt × Nat
  w : Nat
  h : Nat
  x0 : Nat
  x1 : Nat
  y0 : Nat
  y1 : Nat
  deriving DecidableEq, Repr

/-- Input j with its ring frame. -/
def StepCtx.inFrameOf (c : StepCtx) (j : Nat) : RingSt × Nat := ((c.inp j).1, ((c.inp j).2).getD 0)

/-- The job of a step. -/
def strJob (c : StepCtx) (b : StrDesc) (m : Option Motion) : StrJob :=
  let q := c.rect 0
  let l := match b.pred with
    | 1 => 4
    | 2 => 3
    | _ => 2
  { b := b, motion := m, left := c.inFrameOf 0, right := c.inFrameOf 1, cur := c.inFrameOf 2,
    prev := if b.pred == 1 then (c.inp 3).2.map (fun k => ((c.inp 3).1, k)) else none,
    lumaL := c.inFrameOf l, lumaR := c.inFrameOf (l + 1), w := c.out0.rc.width, h := c.out0.frameH, x0 := q.1, x1 := q.2.1, y0 := q.2.2.1, y1 := q.2.2.2 }

/-- The aggregation region: columns and lines, ends excluded (R186). -/
def StrJob.xa (j : StrJob) : Nat := j.x0 - j.b.haloX
def StrJob.xb (j : StrJob) : Nat := min j.w (j.x1 + j.b.haloX)
def StrJob.ya (j : StrJob) : Nat := j.y0 - j.b.haloY

/-- A pixel of a ring frame. -/
def State.ringPix (s : State) (r : RingSt × Nat) (x y : Nat) : Nat := s.pix (pixAddr r.1 r.2 x y) (pixBytes r.1.rc.format)

/-! ### Prediction (R187, R188) -/

/-- A DSP16 word holds a disparity (R184). -/
def dspValid (w : Nat) : Bool := decide (w ≤ 0x3FF0)

/-- A word of the prediction ring at a position; none outside its frame or where it is invalid. -/
def State.predWord (s : State) (r : RingSt × Nat) (x y : Int) : Option Nat :=
  if x < 0 || y < 0 || (r.1.rc.width : Int) ≤ x || (r.1.frameH : Int) ≤ y then none
  else
    let w := s.pix (pixAddr r.1 r.2 x.toNat y.toNat) 2
    if dspValid w then some w else none

/-- Position in the prediction ring for PRED 1. -/
def StrJob.prevPos (j : StrJob) (x y : Nat) : Option (Int × Int) :=
  match j.motion with
  | none => none
  | some m =>
    (f32map (fun i => m.h.getD i Fp.zero) true (Fp.ofNat x) (Fp.ofNat y)).bind (fun p =>
      (p.1.floorPlus 1).bind (fun u => (p.2.floorPlus 1).map (fun v => (u, v))))

/-- The ground plane's disparity (source 3). -/
def groundPlane (slope horizon : Fp) (y : Nat) : Nat :=
  let t := f32add (f32mul slope (f32add (Fp.ofNat y) horizon.neg)) (.fin false 1 (-1))
  match t with
  | .nan => 0
  | .inf neg => if neg then 0 else 1023
  | v => (clampI 0 1023 ((v.floorPlus 0).getD 0)).toNat

/-- The slope and horizon in force: an accepted entry with GP_VALID replaces the descriptor's. -/
def StrJob.plane (j : StrJob) : Fp × Fp :=
  match j.motion with
  | some m => if m.flags == 1 then (m.slope, m.horizon) else (j.b.slope, j.b.horizon)
  | none => (j.b.slope, j.b.horizon)

/-- What a source gives for a pixel. -/
def StrJob.source (j : StrJob) (s : State) (src x y : Nat) : Option Nat :=
  let sc := 2 ^ j.b.shift
  match src with
  | 0 => some 0
  | 2 => (s.predWord j.cur (x / sc : Nat) (y / sc : Nat)).map (fun w => min 1023 ((w * sc + 8) / 16))
  | 3 => some (groundPlane j.plane.1 j.plane.2 y)
  | _ =>
    match j.prev, j.motion with
    | some r, some m =>
      match (j.prevPos x y).bind (fun p => s.predWord r p.1 p.2) with
      | none => none
      | some w =>
        let d : Fp := .fin false (sc * w) (-4)
        let den := f32add (Fp.ofNat 1) (f32mul m.k d).neg
        if Fp.le den (.fin false 1 (-3)) then none
        else ((f32div d den).floorPlus 1).map (fun p => (clampI 0 1023 p).toNat)
    | _, _ => none

/-- Prediction of a pixel of the owned rectangle, and whether it came from FALLBACK or zero (R188). -/
def StrJob.predict (j : StrJob) (s : State) (x y : Nat) : Nat × Bool :=
  match j.source s j.b.pred x y with
  | some p => (p, false)
  | none => ((j.source s j.b.fallback x y).getD 0, true)

/-! ### Windows and costs (R186, R191) -/

/-- The candidates of a pixel, from the lowest up, each with a cost. -/
structure Win where
  lo : Nat
  costs : List Nat
  deriving DecidableEq, Repr

/-- Cost of a disparity, where it is a candidate. -/
def Win.get? (w : Win) (d : Nat) : Option Nat := if w.lo ≤ d then w.costs[d - w.lo]? else none

/-- Number of ones of a number of n bits. -/
def popcount (n v : Nat) : Nat := ((List.range n).filter v.testBit).length

/-- Matching cost of left pixel (x, y) at disparity d. -/
def StrJob.cost (j : StrJob) (s : State) (x y d : Nat) : Nat := popcount 64 (s.ringPix j.left x y ^^^ s.ringPix j.right (x - d) y)

/-- A window of n candidates from lo, cut at the image's left edge; none where no candidate is available. -/
def StrJob.window (j : StrJob) (s : State) (lo n x y : Nat) : Option Win :=
  let k := min n (x + 1 - lo)
  if x < lo || k == 0 then none else some ⟨lo, (List.range k).map (fun i => j.cost s x y (lo + i))⟩

/-- Lowest candidate of the coarse window (R191). Halo pixels take the prediction of the nearest owned pixel (R188). -/
def StrJob.coarseLo (j : StrJob) (s : State) (x y : Nat) : Nat :=
  let px := min (max x j.x0) (j.x1 - 1)
  let py := min (max y j.y0) (j.y1 - 1)
  min 896 ((j.predict s px py).1 - j.b.offset)

/-- The pixel's census is reflected at the frame edge. -/
def StrJob.border (j : StrJob) (x y : Nat) : Bool :=
  decide (x < 4) || decide (j.w ≤ x + 4) || decide (y < 3) || decide (j.h ≤ y + 3)

/-! ### Aggregation (R192, R198) -/

/-- Least of a list, 0 of none. -/
def leastOf (l : List Nat) : Nat :=
  match l with
  | [] => 0
  | a :: t => t.foldl min a

/-- One step along a path: from the aggregated predecessor, or afresh. -/
def pathStep (p1 p2 : Nat) (c prev : Option Win) : Option Win :=
  match c, prev with
  | none, _ => none
  | some c, none => some c
  | some c, some p =>
    let m := leastOf p.costs
    let at' (d : Nat) : Nat := (p.get? d).getD (m + p2)
    some ⟨c.lo, c.costs.mapIdx (fun i v =>
      let d := c.lo + i
      let below := if d == 0 then m + p2 else at' (d - 1) + p1
      v + min (min (at' d) below) (min (at' (d + 1) + p1) (m + p2)) - m)⟩

/-- A grid of windows, line by line. -/
abbrev Grid := List (List (Option Win))

/-- The path that comes from the left. -/
def pathRight (p1 p2 : Nat) (g : Grid) : Grid :=
  g.map (fun row => (row.foldl (fun (a : List (Option Win) × Option Win) c =>
    let n := pathStep p1 p2 c a.2
    (a.1 ++ [n], n)) ([], none)).1)

/-- A path that comes from the line above, dx columns to the left of the pixel. -/
def pathDown (p1 p2 : Nat) (dx : Int) (g : Grid) : Grid :=
  (g.foldl (fun (a : Grid × List (Option Win)) row =>
    let n := row.mapIdx (fun i c =>
      let k := (i : Int) - dx
      pathStep p1 p2 c (if k < 0 then none else a.2.getD k.toNat none))
    (a.1 ++ [n], n)) ([], [])).1

/-- Sum of two aggregated grids. -/
def addGrid (a b : Grid) : Grid :=
  List.zipWith (List.zipWith (fun x y =>
    match x, y with
    | some u, some v => some (⟨u.lo, List.zipWith (· + ·) u.costs v.costs⟩ : Win)
    | _, _ => none)) a b

/-- The four paths of the coarse pass. -/
def fourPaths (p1 p2 : Nat) (g : Grid) : Grid :=
  addGrid (addGrid (pathRight p1 p2 g) (pathDown p1 p2 0 g)) (addGrid (pathDown p1 p2 1 g) (pathDown p1 p2 (-1) g))

/-- The eight paths of the refine pass. -/
def eightPaths (p1 p2 : Nat) (g : Grid) : Grid :=
  let flip (h : Grid) : Grid := h.map List.reverse
  let up (dx : Int) : Grid := (pathDown p1 p2 dx g.reverse).reverse
  addGrid (fourPaths p1 p2 g) (addGrid (addGrid (flip (pathRight p1 p2 (flip g))) (up 0)) (addGrid (up (-1)) (up 1)))

/-! ### Choice and checks (R193 to R196) -/

/-- The result of a pixel: reason code (0 valid), chosen disparity, lowest candidate, confidence and disparity word. -/
structure StrPix where
  code : Nat
  d : Nat
  lo : Nat
  conf : Nat
  word : Nat
  deriving DecidableEq, Repr

/-- A pixel of code 1. -/
def StrPix.noData : StrPix := ⟨1, 0, 0, 0, 0xFFF1⟩

/-- What is chosen from a window: d*, S1, u, t and C. -/
def Win.choice (w : Win) (confW : Nat) : Nat × Nat × Nat × Nat × Nat :=
  let s1 := leastOf w.costs
  let i := w.costs.idxOf s1
  let far := (w.costs.mapIdx (fun k v => (k, v))).filter (fun p => decide (p.1 + 2 ≤ i) || decide (i + 2 ≤ p.1))
  let s2 := if far.isEmpty then s1 else leastOf (far.map (·.2))
  let m := w.costs.foldl (· + ·) 0 / max 1 w.costs.length
  let u := 256 * (s2 - s1) / (s2 + 1)
  let t := 256 * (m - s1) / (m + 1)
  (w.lo + i, s1, u, t, (confW * u + (16 - confW) * t) / 16)

/-- The right view's disparity at a right column, over one line of aggregated windows that starts at column xa (R194). -/
def rightView (xa : Nat) (row : List (Option Win)) (xr : Int) : Option Nat :=
  ((row.mapIdx (fun i w => (xa + i, w))).foldl (fun (b : Option (Nat × Nat)) p =>
    let d := (p.1 : Int) - xr
    if d < 0 then b
    else
      match p.2.bind (fun w => w.get? d.toNat) with
      | none => b
      | some v =>
        match b with
        | none => some (d.toNat, v)
        | some (e, u) => if decide (v < u) || (v == u && decide (d.toNat < e)) then some (d.toNat, v) else b) none).map (·.1)

/-- The left-right check of a pixel. -/
def lrPasses (xa : Nat) (row : List (Option Win)) (x d : Nat) : Bool :=
  match rightView xa row ((x : Int) - d) with
  | some e => decide (d ≤ e + 1) && decide (e ≤ d + 1)
  | none => false

/-- ⌊a ÷ b⌉ with halves away from zero; b above 0. -/
def divAway (a : Int) (b : Nat) : Int :=
  let q : Int := ((2 * a.natAbs + b) / (2 * b) : Nat)
  if a < 0 then -q else q

/-- The subpixel offset (R196). -/
def subpixel (w : Win) (d s1 : Nat) : Int :=
  if d == 0 then 0
  else
    match w.get? (d - 1), w.get? (d + 1) with
    | some a, some b =>
      let den := a + b - 2 * s1
      if den == 0 then 0 else clampI (-8) 8 (divAway (8 * ((a : Int) - b)) den)
    | _, _ => 0

/-- The slot that holds a line of a ring frame carries the input-flagged mark. -/
def State.lineFlagged (s : State) (r : RingSt × Nat) (y : Nat) : Bool :=
  (s.slotFlag (r.1.flagIdx (r.1.slotOf r.2 (y / max 1 r.1.rc.lines)))).inputFlagged

/-- The result of a pixel from its aggregated window; n is the window's full size, row its line of windows. -/
def StrJob.judge (j : StrJob) (s : State) (n xa : Nat) (row : List (Option Win)) (x y : Nat) (w : Win) : StrPix :=
  let (d, s1, u, t, conf) := w.choice j.b.confW
  let top := w.lo + n - 1
  let flagged := s.lineFlagged j.left y || s.lineFlagged j.right y
  let sat := j.b.sat && (decide (j.b.satLevel ≤ s.ringPix j.lumaL x y) || decide (j.b.satLevel ≤ s.ringPix j.lumaR (x - d) y))
  let edge := (d == w.lo && w.lo != 0) || (d == top && decide (top < 1023) && decide (top ≤ x))
  let code := if flagged then 6
    else if sat then 7
    else if edge then 5
    else if t < j.b.texMin then 2
    else if u < j.b.uniqMin then 4
    else if j.b.lr && !lrPasses xa row x d then 3
    else 0
  if code == 0 then
    let δ := if j.b.subpix then subpixel w d s1 else 0
    ⟨0, d, w.lo, conf, (clampI 0 0x3FF0 (16 * (d : Int) + δ)).toNat⟩
  else ⟨code, d, w.lo, conf, 0xFFF0 + code⟩

/-- Judge a grid of aggregated windows whose first pixel is (xa, ya). -/
def StrJob.judgeGrid (j : StrJob) (s : State) (n xa ya : Nat) (g : Grid) : List (List StrPix) :=
  g.mapIdx (fun r row => row.mapIdx (fun i w =>
    match w with
    | none => StrPix.noData
    | some w => j.judge s n xa row (xa + i) (ya + r) w))

/-- The coarse pass over the aggregation region. -/
def StrJob.coarse (j : StrJob) (s : State) : List (List StrPix) :=
  let g := (span j.ya j.y1).map (fun y => (span j.xa j.xb).map (fun x =>
    if j.border x y then none else j.window s (j.coarseLo s x y) 128 x y))
  j.judgeGrid s 128 j.xa j.ya (fourPaths j.b.p1 j.b.p2 g)

/-- A coarse result at a pixel of the region. -/
def StrJob.at' (j : StrJob) (g : List (List StrPix)) (x y : Nat) : StrPix := (g.getD (y - j.ya) []).getD (x - j.xa) StrPix.noData

/-! ### Refine pass (R197, R198) -/

/-- Code 1, 6 or 7: the pixel keeps its coarse result. -/
def StrPix.excluded (p : StrPix) : Bool := p.code == 1 || p.code == 6 || p.code == 7

/-- First candidate of a refine window. -/
def StrPix.refineLo (p : StrPix) : Nat :=
  if p.code == 5 && p.d == p.lo then p.lo - 15
  else if p.code == 5 then min 1008 (p.lo + 127)
  else min 1008 (p.d - 8)

/-- The refine blocks of the owned rectangle: columns and lines, ends excluded. -/
def StrJob.blocks (j : StrJob) : List (Nat × Nat × Nat × Nat) :=
  (List.range (ceilDiv (j.y1 - j.y0) 16)).flatMap (fun v => (List.range (ceilDiv (j.x1 - j.x0) 16)).map (fun u =>
    (j.x0 + 16 * u, min j.x1 (j.x0 + 16 * u + 16), j.y0 + 16 * v, min j.y1 (j.y0 + 16 * v + 16))))

/-- A block is refined. -/
def StrJob.refines (j : StrJob) (g : List (List StrPix)) (q : Nat × Nat × Nat × Nat) : Bool :=
  let ps := (span q.2.2.1 q.2.2.2).flatMap (fun y => (span q.1 q.2.1).map (fun x => j.at' g x y))
  let mean := (ps.map (fun p => if p.code == 0 then p.conf else 0)).foldl (· + ·) 0 / max 1 ps.length
  (j.b.refLow && decide (mean < j.b.refThresh)) || (j.b.refEdge && ps.any (fun p => p.code == 5))

/-- The refined results of a block: its refine region's first pixel and results. -/
def StrJob.refineBlock (j : StrJob) (s : State) (g : List (List StrPix)) (q : Nat × Nat × Nat × Nat) : Nat × Nat × List (List StrPix) :=
  let xa := max j.xa (q.1 - 4)
  let xb := min j.xb (q.2.1 + 4)
  let ya := max j.ya (q.2.2.1 - 4)
  let yb := min j.y1 (q.2.2.2 + 4)
  let grid := (span ya yb).map (fun y => (span xa xb).map (fun x =>
    let p := j.at' g x y
    if p.excluded then none else j.window s p.refineLo 16 x y))
  (xa, ya, j.judgeGrid s 16 xa ya (eightPaths j.b.p1 j.b.p2 grid))

/-- The results of the owned rectangle, line by line, and the blocks refined. -/
def StrJob.results (j : StrJob) (s : State) : List (List StrPix) × Nat :=
  let g := j.coarse s
  let bs := j.blocks.filter (j.refines g)
  let rs := bs.map (fun q => (q, j.refineBlock s g q))
  ((span j.y0 j.y1).map (fun y => (span j.x0 j.x1).map (fun x =>
    let p := j.at' g x y
    if p.excluded then p
    else
      match rs.find? (fun r => decide (r.1.1 ≤ x) && decide (x < r.1.2.1) && decide (r.1.2.2.1 ≤ y) && decide (y < r.1.2.2.2)) with
      | some r => (r.2.2.2.getD (y - r.2.2.1) []).getD (x - r.2.1) p
      | none => p)), bs.length)

/-! ### The step -/

/-- What a step fetches beside its motion entry. -/
def StrJob.runs (j : StrJob) : List (Nat × Nat) :=
  let rx := j.xa - 1023
  let line (r : RingSt × Nat) (a b y : Nat) : Nat × Nat := (pixAddr r.1 r.2 a y, (b - a) * pixBytes r.1.rc.format)
  let ys := span j.ya j.y1
  let sc := 2 ^ j.b.shift
  let cur := if j.b.pred == 2 || j.b.fallback == 2 then
      (span (j.y0 / sc) (min j.cur.1.frameH ((j.y1 - 1) / sc + 1))).map (line j.cur (j.x0 / sc) (min j.cur.1.rc.width ((j.x1 - 1) / sc + 1)))
    else []
  let prev := match j.prev with
    | none => []
    | some r =>
      ((span j.y0 j.y1).flatMap (fun y => (span j.x0 j.x1).filterMap (fun x => j.prevPos x y))).filterMap (fun p =>
        if p.1 < 0 || p.2 < 0 || (r.1.rc.width : Int) ≤ p.1 || (r.1.frameH : Int) ≤ p.2 then none
        else some (pixAddr r.1 r.2 p.1.toNat p.2.toNat, 2))
  let luma := if j.b.sat then ys.map (line j.lumaL j.xa j.xb) ++ ys.map (line j.lumaR rx j.xb) else []
  ys.map (line j.left j.xa j.xb) ++ ys.map (line j.right rx j.xb) ++ cur ++ prev ++ luma

/-- Count the stored pixels by code (STRn_CODE, FLWn_CODE). -/
def State.countCodes (s : State) (reg : Nat → Nat) (codes : List Nat) : State :=
  (List.range 8).foldl (fun (s : State) m =>
    let n := (codes.filter (· == m)).length
    if n == 0 then s else s.addCnt (reg m) n) s

/-- What a STEREO step stores, and what its completion counts. -/
def State.strFinish (s : State) (c : StepCtx) (j : StrJob) (miss : Bool) : State :=
  let (rows, refined) := j.results s
  let conf := if decide (2 ≤ c.outs.length) then
      rows.mapIdx (fun i row => (pixAddr (c.out 1).1 (c.out 1).2 j.x0 (j.y0 + i), row.map (fun p => BitVec.ofNat 8 (if p.code == 0 then p.conf else 0))))
    else []
  let ws := rows.mapIdx (fun i row => (pixAddr (c.out 0).1 (c.out 0).2 j.x0 (j.y0 + i), row.flatMap (fun p => leBytes 2 p.word))) ++ conf
  match s.storeRuns c ws with
  | (s, false) => s
  | (s, true) =>
    let e := c.unit % 256
    let px := (span j.y0 j.y1).flatMap (fun y => (span j.x0 j.x1).map (fun x => (x, y)))
    let back := (px.filter (fun p => (j.predict s p.1 p.2).2)).length
    let s := if miss then s.motionMiss c 3 7 else s
    let s := if back == 0 then s else (s.addKilo c.unit (engCnt c.unit 3) 3 back).event (engErr c.unit) ⟨0, 0⟩
    let s := (s.addKilo c.unit (engCnt c.unit 1) 1 px.length).addCnt (engCnt c.unit 2) refined
    let s := s.setFlag (Reg.STR_STATUS e) F.STR_STATUS.REFINE (refined != 0)
    let s := s.countCodes (Reg.STR_CODE e) ((rows.flatten).map (fun p => p.code))
    s.stepDone c true (ws.flatMap (·.2))

/-- Run a STEREO step. -/
def runStr (s : State) (c : StepCtx) (d : List Byte) : State :=
  let b := parseStr d
  let ma := motionAddr b.motion c.seq
  match s.fetchRuns c (if b.motion == 0 then [] else [(ma, 64)]) with
  | (s, false) => s
  | (s, true) =>
    let m := parseMotion (Memory.bytes s.mem ma 64)
    let ok := b.motion != 0 && m.accepted c.seq (b.pred == 1) (b.pred == 1) (b.pred == 3 || b.fallback == 3)
    let j := strJob c b (if ok then some m else none)
    match s.fetchRuns c j.runs with
    | (s, false) => s
    | (s, true) => s.strFinish c j (b.motion != 0 && !ok)

/-- STEREO (R183 to R203). -/
def execStereo (inst : Fin 4) (err : StepErr) (s : State) : Res :=
  .next (s.engineStep (0x0500 + inst.val) err strValid (fun o => o == 0x20) runStr)

end Sys2Proof.Machine
end

