-- ==== Sys2Proof/Machine/Flow.lean ====
section
/-! DEFINITION. The optical flow engine (spec/09): prediction, windows, path aggregation, choice, refinement, FLOW
steps. -/

namespace Sys2Proof.Machine

open Sys2Proof

/-- Fields of a flow descriptor (R221). -/
structure FlwDesc where
  fb : Bool
  subpix : Bool
  refLow : Bool
  refEdge : Bool
  sat : Bool
  pred : Nat
  fallback : Nat
  shift : Int
  p1 : Nat
  p2 : Nat
  refThresh : Nat
  uniqMin : Nat
  texMin : Nat
  confW : Nat
  haloX : Nat
  haloY : Nat
  reachX : Nat
  reachY : Nat
  satLevel : Nat
  level : Nat
  deriving DecidableEq, Repr

/-- Read a flow descriptor. -/
def parseFlw (d : List Byte) : FlwDesc :=
  let f := leAt d 1 1
  { fb := f.testBit 1, subpix := f.testBit 2, refLow := f.testBit 3, refEdge := f.testBit 4, sat := f.testBit 5,
    pred := leAt d 2 1 % 16, fallback := leAt d 2 1 / 16, shift := signed 8 (leAt d 3 1), p1 := leAt d 4 1, p2 := leAt d 5 1,
    refThresh := leAt d 6 1, uniqMin := leAt d 7 1, texMin := leAt d 8 1, confW := leAt d 9 1, haloX := leAt d 0x0A 1, haloY := leAt d 0x0B 1,
    reachX := leAt d 0x0C 2, reachY := leAt d 0x0E 2, satLevel := leAt d 0x10 1, level := leAt d 0x11 1 }

/-- PRED or FALLBACK is a source. -/
def FlwDesc.uses (b : FlwDesc) (src : Nat) : Bool := b.pred == src || b.fallback == src

/-- A flow descriptor is valid (R221). -/
def flwValid (_ : State) (_ : StepCtx) (d : List Byte) : Bool :=
  let b := parseFlw d
  leAt d 0 1 == 0x30 && decide (leAt d 1 1 < 64) && decide (b.pred ≤ 2) && decide (b.fallback ≤ 2)
    && (if b.uses 2 then decide (-4 ≤ b.shift) && decide (b.shift ≤ 4) else b.shift == 0)
    && decide (1 ≤ b.p1) && decide (b.p1 ≤ 47) && decide (b.p1 < b.p2) && decide (b.confW ≤ 16) && decide (b.haloX ≤ 64)
    && decide (b.haloY ≤ 16) && decide (16 ≤ b.reachX) && decide (b.reachX ≤ 512) && decide (8 ≤ b.reachY) && decide (b.reachY ≤ 512)
    && (b.sat == (b.satLevel != 0)) && decide (b.level ≤ 7) && allZero (d.drop 0x12)
    && !(b.fallback != 0 && (b.fallback == b.pred || b.pred == 0))

/-- What a flow step works on (R207, R210). `fellBack` is set when the whole step uses FALLBACK (R212). -/
structure FlwJob where
  b : FlwDesc
  fellBack : Bool
  cur : RingSt × Nat
  prev : RingSt × Nat
  coarse : RingSt × Nat
  old : Option (RingSt × Nat)
  lumaC : RingSt × Nat
  lumaP : RingSt × Nat
  w : Nat
  h : Nat
  x0 : Nat
  x1 : Nat
  y0 : Nat
  y1 : Nat
  deriving DecidableEq, Repr

/-- The job of a step: input positions follow one another in the order of the table "Flow inputs". -/
def flwJob (c : StepCtx) (b : FlwDesc) : FlwJob :=
  let q := c.rect 0
  let pf := if b.uses 1 then 3 else 2
  let pl := if b.uses 2 then pf + 2 else pf
  let old := if b.uses 2 then (c.inp (pf + 1)).2.map (fun k => ((c.inp (pf + 1)).1, k)) else none
  { b := b, fellBack := b.pred == 2 && old.isNone, cur := c.inFrameOf 0, prev := c.inFrameOf 1, coarse := c.inFrameOf 2, old := old,
    lumaC := c.inFrameOf pl, lumaP := c.inFrameOf (pl + 1), w := c.out0.rc.width, h := c.out0.frameH, x0 := q.1, x1 := q.2.1, y0 := q.2.2.1, y1 := q.2.2.2 }

/-- The aggregation region: columns and lines, ends excluded (R210). -/
def FlwJob.xa (j : FlwJob) : Nat := j.x0 - j.b.haloX
def FlwJob.xb (j : FlwJob) : Nat := min j.w (j.x1 + j.b.haloX)
def FlwJob.ya (j : FlwJob) : Nat := j.y0 - j.b.haloY

/-! ### Prediction (R211, R212) -/

/-- A component of a flow record that holds a vector (R205). -/
def flvComp (w : Nat) : Option Int :=
  let v := signed 16 w
  if decide (-8192 ≤ v) && decide (v ≤ 8191) then some v else none

/-- Position read in a prediction ring for a position of the node's level, s levels apart. -/
def shiftPos (s : Int) (x : Int) : Int := if 0 ≤ s then x / (2 ^ s.toNat : Nat) else x * (2 ^ (-s).toNat : Nat)

/-- A scaled component in whole pixels. -/
def shiftVec (s : Int) (w : Int) : Int :=
  if 0 ≤ s then (w * (2 ^ s.toNat : Nat) + 8) / 16 else (w + (2 ^ (3 - s).toNat : Nat)) / (2 ^ (4 - s).toNat : Nat)

/-- Address of the record that a sample reads; none outside the ring's frame. -/
def flowSampleAt (r : RingSt × Nat) (s : Int) (x y : Int) : Option Nat :=
  let u := shiftPos s x
  let v := shiftPos s y
  if u < 0 || v < 0 || (r.1.rc.width : Int) ≤ u || (r.1.frameH : Int) ≤ v then none else some (pixAddr r.1 r.2 u.toNat v.toNat)

/-- The scaled sample at a position; none where it gives no value. -/
def State.flowSample (st : State) (r : RingSt × Nat) (s : Int) (x y : Int) : Option (Int × Int) :=
  (flowSampleAt r s x y).bind (fun a =>
    match flvComp (st.pix a 2), flvComp (st.pix (a + 2) 2) with
    | some dx, some dy => some (shiftVec s dx, shiftVec s dy)
    | _, _ => none)

/-- What a source gives for a pixel. -/
def FlwJob.source (j : FlwJob) (s : State) (src x y : Nat) : Option (Int × Int) :=
  match src with
  | 0 => some (0, 0)
  | 1 => s.flowSample j.coarse 1 x y
  | _ =>
    j.old.bind (fun r =>
      (s.flowSample r j.b.shift x y).map (fun v => (s.flowSample r j.b.shift (x + v.1) (y + v.2)).getD v))

/-- Prediction of a pixel of the owned rectangle, and whether it came from FALLBACK or zero. -/
def FlwJob.predict (j : FlwJob) (s : State) (x y : Nat) : (Int × Int) × Bool :=
  match (if j.fellBack then none else j.source s j.b.pred x y) with
  | some p => (p, false)
  | none => ((j.source s j.b.fallback x y).getD (0, 0), true)

/-! ### Windows and costs (R210, R213) -/

/-- A window: its first candidate, its sizes, and its costs line by line; none for a candidate that is not available. -/
structure Win2 where
  lx : Int
  ly : Int
  nx : Nat
  ny : Nat
  costs : List (Option Nat)
  deriving DecidableEq, Repr

/-- Cost of a candidate, where it is available. -/
def Win2.get? (w : Win2) (dx dy : Int) : Option Nat :=
  let i := dx - w.lx
  let k := dy - w.ly
  if i < 0 || k < 0 || (w.nx : Int) ≤ i || (w.ny : Int) ≤ k then none else (w.costs[k.toNat * w.nx + i.toNat]?).getD none

/-- The candidates of a window in order of choice: the smallest dy first, then the smallest dx. -/
def Win2.cands (w : Win2) : List ((Int × Int) × Nat) :=
  (w.costs.mapIdx (fun i v => (((w.lx + (i % w.nx : Nat), w.ly + (i / w.nx : Nat)) : Int × Int), v))).filterMap (fun p => p.2.map (fun v => (p.1, v)))

/-- Chebyshev distance of two candidates. -/
def cheb (a b : Int × Int) : Nat := max (a.1 - b.1).natAbs (a.2 - b.2).natAbs

/-- Matching cost of a pixel at a candidate. -/
def FlwJob.cost (j : FlwJob) (s : State) (x y : Nat) (dx dy : Int) : Nat :=
  popcount 48 (s.ringPix j.cur x y ^^^ s.ringPix j.prev (x + dx).toNat (y + dy).toNat)

/-- A candidate's match lies inside the previous frame. -/
def FlwJob.inside (j : FlwJob) (x y : Nat) (dx dy : Int) : Bool :=
  decide (0 ≤ (x : Int) + dx) && decide ((x : Int) + dx < j.w) && decide (0 ≤ (y : Int) + dy) && decide ((y : Int) + dy < j.h)

/-- A window of candidates; none where no candidate is available. -/
def FlwJob.window (j : FlwJob) (s : State) (lx ly : Int) (nx ny x y : Nat) : Option Win2 :=
  let costs := (List.range ny).flatMap (fun (k : Nat) => (List.range nx).map (fun (i : Nat) =>
    let dx := lx + (i : Int)
    let dy := ly + (k : Int)
    if j.inside x y dx dy then some (j.cost s x y dx dy) else none))
  if costs.all Option.isNone then none else some ⟨lx, ly, nx, ny, costs⟩

/-- First candidate of the coarse window; halo pixels take the prediction of the nearest owned pixel. -/
def FlwJob.coarseLo (j : FlwJob) (s : State) (x y : Nat) : Int × Int :=
  let p := (j.predict s (min (max x j.x0) (j.x1 - 1)) (min (max y j.y0) (j.y1 - 1))).1
  (min ((j.b.reachX : Int) - 32) (max (-(j.b.reachX : Int)) (p.1 - 16)), min ((j.b.reachY : Int) - 16) (max (-(j.b.reachY : Int)) (p.2 - 8)))

/-- A pixel within 3 columns or 3 lines of the frame edge. -/
def FlwJob.border (j : FlwJob) (x y : Nat) : Bool :=
  decide (x < 3) || decide (j.w ≤ x + 3) || decide (y < 3) || decide (j.h ≤ y + 3)

/-! ### Aggregation (R214) -/

/-- One step along a path: from the aggregated predecessor, or afresh. -/
def pathStep2 (p1 p2 : Nat) (c prev : Option Win2) : Option Win2 :=
  match c, prev with
  | none, _ => none
  | some c, none => some c
  | some c, some p =>
    let m := leastOf (p.costs.filterMap id)
    let at' (dx dy : Int) : Nat := (p.get? dx dy).getD (m + p2)
    some { c with costs := c.costs.mapIdx (fun i v => v.map (fun v =>
      let dx := c.lx + (i % c.nx : Nat)
      let dy := c.ly + (i / c.nx : Nat)
      let near := leastOf ([(-1, -1), (0, -1), (1, -1), (-1, 0), (1, 0), (-1, 1), (0, 1), (1, 1)].map (fun (o : Int × Int) => at' (dx + o.1) (dy + o.2)))
      v + min (min (at' dx dy) (near + p1)) (m + p2) - m)) }

/-- A grid of windows, line by line. -/
abbrev Grid2 := List (List (Option Win2))

/-- The path that comes from the left. -/
def pathRight2 (p1 p2 : Nat) (g : Grid2) : Grid2 :=
  g.map (fun row => (row.foldl (fun (a : List (Option Win2) × Option Win2) c =>
    let n := pathStep2 p1 p2 c a.2
    (a.1 ++ [n], n)) ([], none)).1)

/-- A path that comes from the line above, dx columns to the left of the pixel. -/
def pathDown2 (p1 p2 : Nat) (dx : Int) (g : Grid2) : Grid2 :=
  (g.foldl (fun (a : Grid2 × List (Option Win2)) row =>
    let n := row.mapIdx (fun i c =>
      let k := (i : Int) - dx
      pathStep2 p1 p2 c (if k < 0 then none else a.2.getD k.toNat none))
    (a.1 ++ [n], n)) ([], [])).1

/-- Sum of two aggregated grids. -/
def addGrid2 (a b : Grid2) : Grid2 :=
  List.zipWith (List.zipWith (fun x y =>
    match x, y with
    | some u, some v => some ({ u with costs := List.zipWith (fun p q => p.bind (fun p => q.map (p + ·))) u.costs v.costs } : Win2)
    | _, _ => none)) a b

/-- The four paths of the coarse pass. -/
def fourPaths2 (p1 p2 : Nat) (g : Grid2) : Grid2 :=
  addGrid2 (addGrid2 (pathRight2 p1 p2 g) (pathDown2 p1 p2 0 g)) (addGrid2 (pathDown2 p1 p2 1 g) (pathDown2 p1 p2 (-1) g))

/-- The eight paths of the refine pass. -/
def eightPaths2 (p1 p2 : Nat) (g : Grid2) : Grid2 :=
  let flip (h : Grid2) : Grid2 := h.map List.reverse
  let up (dx : Int) : Grid2 := (pathDown2 p1 p2 dx g.reverse).reverse
  addGrid2 (fourPaths2 p1 p2 g) (addGrid2 (addGrid2 (flip (pathRight2 p1 p2 (flip g))) (up 0)) (addGrid2 (up (-1)) (up 1)))

/-! ### Choice and checks (R215 to R218) -/

/-- The result of a pixel: reason code (0 valid), d*, first candidate, confidence, record components, and whether d* lies on
the low or high edge of its window on each axis where that edge is no limit. -/
structure FlwPix where
  code : Nat
  d : Int × Int
  lo : Int × Int
  conf : Nat
  dx : Nat
  dy : Nat
  lowX : Bool
  highX : Bool
  lowY : Bool
  highY : Bool
  deriving DecidableEq, Repr

/-- A pixel of code 1. -/
def FlwPix.noData : FlwPix := ⟨1, (0, 0), (0, 0), 0, 0x8000, 1, false, false, false, false⟩

/-- What is chosen from a window: d*, S1, u, t and C. -/
def Win2.choice (w : Win2) (confW : Nat) : (Int × Int) × Nat × Nat × Nat × Nat :=
  let cs := w.cands
  let s1 := leastOf (cs.map (·.2))
  let d := ((cs.find? (fun p => p.2 == s1)).map (·.1)).getD (0, 0)
  let far := cs.filter (fun p => decide (2 ≤ cheb p.1 d))
  let s2 := if far.isEmpty then s1 else leastOf (far.map (·.2))
  let m := (cs.map (·.2)).foldl (· + ·) 0 / max 1 cs.length
  let u := 256 * (s2 - s1) / (s2 + 1)
  let t := 256 * (m - s1) / (m + 1)
  (d, s1, u, t, (confW * u + (16 - confW) * t) / 16)

/-- The backward vector of a previous-frame pixel, over the aggregated windows of a region whose first pixel is (xa, ya). -/
def backward (xa ya : Nat) (g : Grid2) (qx qy : Int) : Option (Int × Int) :=
  let all := (g.mapIdx (fun r row => row.mapIdx (fun i w =>
    let dx := qx - (xa + i : Nat)
    let dy := qy - (ya + r : Nat)
    (w.bind (fun w => w.get? dx dy)).map (fun v => (((dx, dy) : Int × Int), v))))).flatten.filterMap id
  (all.foldl (fun (b : Option ((Int × Int) × Nat)) p =>
    match b with
    | none => some p
    | some q =>
      if decide (p.2 < q.2) || (p.2 == q.2 && (decide (p.1.2 < q.1.2) || (p.1.2 == q.1.2 && decide (p.1.1 < q.1.1)))) then some p else b) none).map (·.1)

/-- One axis of R217: d* on the low or the high edge of n candidates from lo, where that edge is no limit. -/
def edgeHit (d lo : Int) (n reach pos size : Nat) : Bool × Bool :=
  (d == lo && lo != -(reach : Int) && decide (0 ≤ (pos : Int) + lo - 1),
   d == lo + n - 1 && lo + n != (reach : Int) && decide ((pos : Int) + lo + n < size))

/-- Subpixel offset of one axis (R196, R218). -/
def subpixel2 (below above : Option Nat) (s1 : Nat) : Int :=
  match below, above with
  | some a, some b =>
    let den := a + b - 2 * s1
    if den == 0 then 0 else clampI (-8) 8 (divAway (8 * ((a : Int) - b)) den)
  | _, _ => 0

/-- The result of a pixel from its aggregated window, in a grid whose first pixel is (xa, ya). -/
def FlwJob.judge (j : FlwJob) (s : State) (xa ya : Nat) (g : Grid2) (x y : Nat) (w : Win2) : FlwPix :=
  let (d, s1, u, t, conf) := w.choice j.b.confW
  let qx := (x : Int) + d.1
  let qy := (y : Int) + d.2
  let ex := edgeHit d.1 w.lx w.nx j.b.reachX x j.w
  let ey := edgeHit d.2 w.ly w.ny j.b.reachY y j.h
  let code :=
    if s.lineFlagged j.cur y || s.lineFlagged j.prev qy.toNat then 6
    else if j.b.sat && (decide (j.b.satLevel ≤ s.ringPix j.lumaC x y) || decide (j.b.satLevel ≤ s.ringPix j.lumaP qx.toNat qy.toNat)) then 7
    else if ex.1 || ex.2 || ey.1 || ey.2 then 5
    else if t < j.b.texMin then 2
    else if u < j.b.uniqMin then 4
    else if j.b.fb && !(match backward xa ya g qx qy with
      | some e => decide (cheb d e ≤ 1)
      | none => false) then 3
    else 0
  if code == 0 then
    let sx := if j.b.subpix then subpixel2 (w.get? (d.1 - 1) d.2) (w.get? (d.1 + 1) d.2) s1 else 0
    let sy := if j.b.subpix then subpixel2 (w.get? d.1 (d.2 - 1)) (w.get? d.1 (d.2 + 1)) s1 else 0
    ⟨0, d, (w.lx, w.ly), conf, unsigned 16 (clampI (-8192) 8191 (16 * d.1 + sx)), unsigned 16 (clampI (-8192) 8191 (16 * d.2 + sy)), ex.1, ex.2, ey.1, ey.2⟩
  else ⟨code, d, (w.lx, w.ly), conf, 0x8000, code, ex.1, ex.2, ey.1, ey.2⟩

/-- Judge a grid of aggregated windows whose first pixel is (xa, ya). -/
def FlwJob.judgeGrid (j : FlwJob) (s : State) (xa ya : Nat) (g : Grid2) : List (List FlwPix) :=
  g.mapIdx (fun r row => row.mapIdx (fun i w =>
    match w with
    | none => FlwPix.noData
    | some w => j.judge s xa ya g (xa + i) (ya + r) w))

/-- The coarse pass over the aggregation region. -/
def FlwJob.coarsePass (j : FlwJob) (s : State) : List (List FlwPix) :=
  let g := (span j.ya j.y1).map (fun y => (span j.xa j.xb).map (fun x =>
    let l := j.coarseLo s x y
    if j.border x y then none else j.window s l.1 l.2 32 16 x y))
  j.judgeGrid s j.xa j.ya (fourPaths2 j.b.p1 j.b.p2 g)

/-- A coarse result at a pixel of the region. -/
def FlwJob.at' (j : FlwJob) (g : List (List FlwPix)) (x y : Nat) : FlwPix := (g.getD (y - j.ya) []).getD (x - j.xa) FlwPix.noData

/-! ### Refine pass (R219, R220) -/

/-- Code 1, 6 or 7: the pixel keeps its coarse result. -/
def FlwPix.excluded (p : FlwPix) : Bool := p.code == 1 || p.code == 6 || p.code == 7

/-- Start of a refine window on one axis. -/
def refineStart (low high : Bool) (d lo : Int) (n reach : Nat) : Int :=
  if low then max (-(reach : Int)) (lo - 7)
  else if high then min ((reach : Int) - 8) (lo + n - 1)
  else min ((reach : Int) - 8) (max (-(reach : Int)) (d - 4))

/-- The refine blocks of the owned rectangle: columns and lines, ends excluded. -/
def FlwJob.blocks (j : FlwJob) : List (Nat × Nat × Nat × Nat) :=
  (List.range (ceilDiv (j.y1 - j.y0) 16)).flatMap (fun v => (List.range (ceilDiv (j.x1 - j.x0) 16)).map (fun u =>
    (j.x0 + 16 * u, min j.x1 (j.x0 + 16 * u + 16), j.y0 + 16 * v, min j.y1 (j.y0 + 16 * v + 16))))

/-- A block is refined. -/
def FlwJob.refines (j : FlwJob) (g : List (List FlwPix)) (q : Nat × Nat × Nat × Nat) : Bool :=
  let ps := (span q.2.2.1 q.2.2.2).flatMap (fun y => (span q.1 q.2.1).map (fun x => j.at' g x y))
  let mean := (ps.map (fun p => if p.code == 0 then p.conf else 0)).foldl (· + ·) 0 / max 1 ps.length
  (j.b.refLow && decide (mean < j.b.refThresh)) || (j.b.refEdge && ps.any (fun p => p.code == 5))

/-- The refined results of a block: its refine region's first pixel and results. -/
def FlwJob.refineBlock (j : FlwJob) (s : State) (g : List (List FlwPix)) (q : Nat × Nat × Nat × Nat) : Nat × Nat × List (List FlwPix) :=
  let xa := max j.xa (q.1 - 4)
  let xb := min j.xb (q.2.1 + 4)
  let ya := max j.ya (q.2.2.1 - 4)
  let yb := min j.y1 (q.2.2.2 + 4)
  let grid := (span ya yb).map (fun y => (span xa xb).map (fun x =>
    let p := j.at' g x y
    if p.excluded then none
    else j.window s (refineStart p.lowX p.highX p.d.1 p.lo.1 32 j.b.reachX) (refineStart p.lowY p.highY p.d.2 p.lo.2 16 j.b.reachY) 8 8 x y))
  (xa, ya, j.judgeGrid s xa ya (eightPaths2 j.b.p1 j.b.p2 grid))

/-- The results of the owned rectangle, line by line, and the blocks refined. -/
def FlwJob.results (j : FlwJob) (s : State) : List (List FlwPix) × Nat :=
  let g := j.coarsePass s
  let bs := j.blocks.filter (j.refines g)
  let rs := bs.map (fun q => (q, j.refineBlock s g q))
  ((span j.y0 j.y1).map (fun y => (span j.x0 j.x1).map (fun x =>
    let p := j.at' g x y
    if p.excluded then p
    else
      match rs.find? (fun r => decide (r.1.1 ≤ x) && decide (x < r.1.2.1) && decide (r.1.2.2.1 ≤ y) && decide (y < r.1.2.2.2)) with
      | some r => (r.2.2.2.getD (y - r.2.2.1) []).getD (x - r.2.1) p
      | none => p)), bs.length)

/-! ### The step -/

/-- Census, luma and first prediction samples that a step fetches (R210). -/
def FlwJob.runs (j : FlwJob) : List (Nat × Nat) :=
  let line (r : RingSt × Nat) (a b y : Nat) : Nat × Nat := (pixAddr r.1 r.2 a y, (b - a) * pixBytes r.1.rc.format)
  let ys := span j.ya j.y1
  let rx := j.xa - j.b.reachX
  let re := min j.w (j.xb + j.b.reachX)
  let rys := span (j.ya - j.b.reachY) (min j.h (j.y1 + j.b.reachY))
  let px := (span j.y0 j.y1).flatMap (fun y => (span j.x0 j.x1).map (fun x => (x, y)))
  let at' (r : RingSt × Nat) (s : Int) : List (Nat × Nat) :=
    (px.filterMap (fun p => flowSampleAt r s p.1 p.2)).eraseDups.map (fun a => (a, 4))
  let coarse := if j.b.uses 1 then at' j.coarse 1 else []
  let old := match j.old with
    | some r => at' r j.b.shift
    | none => []
  let luma := if j.b.sat then ys.map (line j.lumaC j.xa j.xb) ++ rys.map (line j.lumaP rx re) else []
  ys.map (line j.cur j.xa j.xb) ++ rys.map (line j.prev rx re) ++ coarse ++ old ++ luma

/-- The second samples of PRED 2, whose positions the first ones give. -/
def FlwJob.warpRuns (j : FlwJob) (s : State) : List (Nat × Nat) :=
  match j.old with
  | none => []
  | some r =>
    (((span j.y0 j.y1).flatMap (fun y => (span j.x0 j.x1).map (fun x => (x, y)))).filterMap (fun p =>
      (s.flowSample r j.b.shift p.1 p.2).bind (fun v => flowSampleAt r j.b.shift (p.1 + v.1) (p.2 + v.2)))).eraseDups.map (fun a => (a, 4))

/-- What a flow step stores for its results: records, and confidences where there is a second output. -/
def FlwJob.stores (j : FlwJob) (c : StepCtx) (rows : List (List FlwPix)) : List (Nat × List Byte) :=
  rows.mapIdx (fun i row => (pixAddr (c.out 0).1 (c.out 0).2 j.x0 (j.y0 + i), row.flatMap (fun p => leBytes 2 p.dx ++ leBytes 2 p.dy)))
    ++ (if decide (2 ≤ c.outs.length) then
      rows.mapIdx (fun i row => (pixAddr (c.out 1).1 (c.out 1).2 j.x0 (j.y0 + i), row.map (fun p => BitVec.ofNat 8 (if p.code == 0 then p.conf else 0))))
    else [])

/-- Store results, count them and complete the step. -/
def State.flwStore (s : State) (c : StepCtx) (j : FlwJob) (rows : List (List FlwPix)) (refined : Nat) (extra : State → State) : State :=
  let ws := j.stores c rows
  match s.storeRuns c ws with
  | (s, false) => s
  | (s, true) =>
    let e := c.unit % 256
    let s := (extra s).addKilo c.unit (engCnt c.unit 1) 1 (rows.flatten).length
    let s := (s.addCnt (engCnt c.unit 2) refined).setFlag (Reg.FLW_STATUS e) F.FLW_STATUS.REFINE (refined != 0)
    (s.countCodes (Reg.FLW_CODE e) ((rows.flatten).map (fun p => p.code))).stepDone c true (ws.flatMap (·.2))

/-- Run a FLOW step. -/
def runFlw (s : State) (c : StepCtx) (d : List Byte) : State :=
  let b := parseFlw d
  let j := flwJob c b
  if (c.inp 1).2.isNone then
    s.flwStore c j ((span j.y0 j.y1).map (fun _ => (span j.x0 j.x1).map (fun _ => FlwPix.noData))) 0 (fun s =>
      ((s.addCnt (engCnt c.unit 7) 1).event (engErr c.unit) F.FLW_ERR.PREV_ABSENT).log c.unit 0x0502 0 c.domain c.stream c.nt c.seq.toNat 1)
  else
    match s.fetchRuns c j.runs with
    | (s, false) => s
    | (s, true) =>
      match s.fetchRuns c (j.warpRuns s) with
      | (s, false) => s
      | (s, true) =>
        let px := (span j.y0 j.y1).flatMap (fun y => (span j.x0 j.x1).map (fun x => (x, y)))
        let back := (px.filter (fun p => (j.predict s p.1 p.2).2)).length
        let r := j.results s
        s.flwStore c j r.1 r.2 (fun s =>
          let s := if j.fellBack then (s.event (engErr c.unit) F.FLW_ERR.PRED_ABSENT).log c.unit 0x0505 0 c.domain c.stream c.nt c.seq.toNat 0 else s
          if back == 0 then s else (s.addKilo c.unit (engCnt c.unit 3) 3 back).event (engErr c.unit) F.FLW_ERR.PRED_FALLBACK)

/-- FLOW (R205 to R223). -/
def execFlow (inst : Fin 4) (err : StepErr) (s : State) : Res :=
  .next (s.engineStep (0x0600 + inst.val) err flwValid (fun o => o == 0x30) runFlw)

end Sys2Proof.Machine
end

