-- ==== Sys2Proof/Machine/Feature.lean ====
section
/-! DEFINITION. The feature engine (spec/10): FEATURE steps detect, select, orient and describe; MATCH steps pair records. -/

namespace Sys2Proof.Machine

open Sys2Proof

/-! ### FEATURE descriptor (R235) -/

/-- Fields of a FEATURE descriptor. -/
structure FtrDesc where
  levels : Nat
  first : Nat
  ft : Nat
  arc : Nat
  hk : Nat
  nmsR : Nat
  scoreMin : Nat
  detW : Nat
  detH : Nat
  cell : Nat
  bucketMax : Nat
  quota : Nat
  deriving DecidableEq, Repr

/-- Read a FEATURE descriptor. -/
def parseFtr (d : List Byte) : FtrDesc :=
  { levels := leAt d 2 1, first := leAt d 3 1, ft := leAt d 4 1, arc := leAt d 5 1, hk := leAt d 6 1, nmsR := leAt d 7 1, scoreMin := leAt d 8 4,
    detW := leAt d 0x0C 2, detH := leAt d 0x0E 2, cell := leAt d 0x10 2, bucketMax := leAt d 0x12 1, quota := leAt d 0x14 2 }

/-- A FEATURE descriptor is valid. -/
def ftrValid (s : State) (c : StepCtx) (d : List Byte) : Bool :=
  let b := parseFtr d
  decide (leAt d 1 1 < 2) && decide (1 ≤ b.levels) && decide (b.levels ≤ 4) && decide (b.first ≤ 7) && decide (1 ≤ b.ft) && decide (9 ≤ b.arc)
    && decide (b.arc ≤ 12) && decide (b.hk ≤ 64) && decide (1 ≤ b.nmsR) && decide (b.nmsR ≤ 2) && decide (b.scoreMin < 2 ^ 31)
    && decide (64 ≤ b.detW) && decide (b.detW ≤ 8192) && decide (8 ≤ b.detH) && decide (b.detH ≤ 8192) && decide (8 ≤ b.cell) && decide (b.cell ≤ 512)
    && decide (1 ≤ b.bucketMax) && leAt d 0x13 1 == 0 && decide (1 ≤ b.quota) && decide (b.quota ≤ 32768) && allZero (d.drop 0x16)
    && b.levels == c.ins.length && decide (b.first + b.levels ≤ 8) && b.quota == c.out0.rc.width
    && !(s.patterns.getD (c.unit % 256) []).isEmpty

/-! ### Detection (R227 to R229) -/

/-- A pyramid level of a FEATURE step: its number, its ring frame, its size and the detection rectangle in it. -/
structure FtrLevel where
  k : Nat
  r : RingSt × Nat
  w : Nat
  h : Nat
  x0 : Nat
  x1 : Nat
  y0 : Nat
  y1 : Nat
  deriving DecidableEq, Repr

/-- Columns of detection rectangles. -/
def detCols (w0 detW : Nat) : Nat := max 1 (ceilDiv w0 detW)

/-- The levels of a step. -/
def ftrLevels (c : StepCtx) (b : FtrDesc) : List FtrLevel :=
  let r0 := c.inFrameOf 0
  let w0 := r0.1.rc.width
  let h0 := r0.1.frameH
  let cd := detCols w0 b.detW
  let x := c.tile % cd * b.detW
  let y := c.tile / cd * b.detH
  let xe := min w0 (x + b.detW)
  let ye := min h0 (y + b.detH)
  (List.range b.levels).map (fun j =>
    let r := c.inFrameOf j
    let w := r.1.rc.width
    let h := r.1.frameH
    { k := b.first + j, r := r, w := w, h := h, x0 := x * w / max 1 w0, x1 := xe * w / max 1 w0, y0 := y * h / max 1 h0, y1 := ye * h / max 1 h0 })

/-- A pixel of a level. -/
def FtrLevel.pix (l : FtrLevel) (s : State) (x y : Int) : Int := s.ringPix l.r x.toNat y.toNat

/-- Segment-test circle. -/
def circle16 : List (Int × Int) :=
  [(0, -3), (1, -3), (2, -2), (3, -1), (3, 0), (3, 1), (2, 2), (1, 3), (0, 3), (-1, 3), (-2, 2), (-3, 1), (-3, 0), (-3, -1), (-2, -2), (-1, -3)]

/-- At least n consecutive ones in a cyclic list. -/
def cyclicRun (l : List Bool) (n : Nat) : Bool :=
  (List.range l.length).any (fun i => ((l ++ l).drop i).take n |>.all id)

/-- Score of a pixel (R228). -/
def FtrLevel.score (l : FtrLevel) (s : State) (hk : Nat) (x y : Int) : Nat :=
  let win : List (Int × Int) := (List.range 7).flatMap (fun (j : Nat) => (List.range 7).map (fun (i : Nat) => (x - 3 + (i : Int), y - 3 + (j : Int))))
  let g := win.map (fun (p : Int × Int) => (l.pix s (p.1 + 1) p.2 - l.pix s (p.1 - 1) p.2, l.pix s p.1 (p.2 + 1) - l.pix s p.1 (p.2 - 1)))
  let a := (g.map (fun p => p.1 * p.1)).foldl (· + ·) 0
  let b := (g.map (fun p => p.2 * p.2)).foldl (· + ·) 0
  let d := (g.map (fun p => p.1 * p.2)).foldl (· + ·) 0
  let r := 256 * (a * b - d * d) - (hk : Int) * ((a + b) * (a + b))
  (min (2 ^ 31 - 1) (max 0 (r / 2 ^ 20))).toNat

/-- The score of a pixel where it is a corner (R228). -/
def FtrLevel.corner (l : FtrLevel) (s : State) (b : FtrDesc) (x y : Int) : Option Nat :=
  if decide (x < 20) || decide (y < 20) || decide ((l.w : Int) ≤ x + 20) || decide ((l.h : Int) ≤ y + 20) then none
  else
    let i := l.pix s x y
    let ring := circle16.map (fun o => l.pix s (x + o.1) (y + o.2))
    let sc := l.score s b.hk x y
    if (cyclicRun (ring.map (fun v => decide (i + b.ft ≤ v))) b.arc || cyclicRun (ring.map (fun v => decide (v ≤ i - b.ft))) b.arc)
        && decide (b.scoreMin ≤ sc) then some sc else none

/-- A survivor: level number, position, score. -/
structure Corner where
  k : Nat
  x : Nat
  y : Nat
  score : Nat
  deriving DecidableEq, Repr

/-- The corners of a level that survive suppression (R229), in raster order. -/
def FtrLevel.survivors (l : FtrLevel) (s : State) (b : FtrDesc) : List Corner :=
  (span l.y0 l.y1).flatMap (fun (y : Nat) => (span l.x0 l.x1).filterMap (fun (x : Nat) =>
    match l.corner s b x y with
    | none => none
    | some sc =>
      let n := 2 * b.nmsR + 1
      let near : List (Int × Int) :=
        (List.range n).flatMap (fun (j : Nat) => (List.range n).map (fun (i : Nat) => ((i : Int) - b.nmsR, (j : Int) - b.nmsR)))
      let wins := near.all (fun o =>
        if o == (0, 0) then true
        else
          match l.corner s b ((x : Int) + o.1) ((y : Int) + o.2) with
          | none => true
          | some t => decide (t < sc) || (t == sc && (decide (0 < o.2) || (o.2 == 0 && decide (0 < o.1)))))
      if wins then some ⟨l.k, x, y, sc⟩ else none))

/-! ### Selection (R230) -/

/-- A survivor is better than another: higher score, then lower level, then smaller y, then smaller x. -/
def Corner.better (p q : Corner) : Bool :=
  decide (q.score < p.score) || (p.score == q.score && (decide (p.k < q.k) || (p.k == q.k && (decide (p.y < q.y) || (p.y == q.y && decide (p.x < q.x))))))

/-- Its cell. -/
def Corner.cell (p : Corner) (size : Nat) : Nat × Nat := (2 ^ p.k * p.x / max 1 size, 2 ^ p.k * p.y / max 1 size)

/-- The survivors that bucketing keeps. -/
def bucketed (b : FtrDesc) (l : List Corner) : List Corner :=
  l.filter (fun p => decide ((l.filter (fun q => q.cell b.cell == p.cell b.cell && q.better p)).length < b.bucketMax))

/-- The survivors that the quota keeps. -/
def quotaKept (b : FtrDesc) (l : List Corner) : List Corner := l.filter (fun p => decide ((l.filter (fun q => q.better p)).length < b.quota))

/-! ### Orientation and descriptor (R231, R232) -/

/-- cos((2i + 1)π ÷ 256) × 2^72 for i from 0 to 63; the sines are the same numbers in reverse order. -/
def cosTable : List Nat :=
  [4722010897358599666612, 4719166534561390979430, 4713479522304765068114, 4704953286232254239007, 4693592962229652070953] ++
  [4679405393331347856379, 4662399125598338562724, 4642584402970401245670, 4619973161095526773024, 4594579020140331777641] ++
  [4566417276585779578401, 4535504894013152020169, 4501860492885822418768, 4465504339332984688871, 4426458332942094916963] ++
  [4384745993567378756114, 4340392447162350704442, 4293424410644879227897, 4243870175803914446198, 4191759592257572367414] ++
  [4137124049472841083990, 4079996457857739586890, 4020411228937318574377, 3958404254625444491272, 3894012885604852700911] ++
  [3827275908828492837344, 3758233524155718686065, 3686927320137396078851, 3613400248964514948264, 3537696600595395561189] ++
  [3459861976077073734909, 3379943260076935235712, 3297988592641145276333, 3214047340196884778301, 3128170065815860567761] ++
  [3040408498757001654308, 2950815503306687933731, 2859445046935280795754, 2766352167789136952026, 2671592941537687079690] ++
  [2575224447595549360674, 2477304734740024452485, 2377892786144682625885, 2277048483850105529073, 2174832572693184075023] ++
  [2071306623716700094149, 1966532997081232452111, 1860574804501728113698, 1753495871231364957801, 1645360697615605842997] ++
  [1536234420239602323980, 1426182772692351370064, 1315272045971239290617, 1203569048550823689598, 1091141066139906521821] ++
  [978055821151139085368, 864381431907572944559, 750186371610729231849, 635539427094902429414, 520509657392543495558] ++
  [405166352135680999808, 289578989818437695119, 173817195945783626563, 57950701093735402692]

/-- The direction of 256 that lies nearest to a vector. For sums of this size no vector lies as near to a boundary between
two directions as the table's rounding, so no tie occurs. -/
def angle256 (m10 m01 : Int) : Nat :=
  if m10 == 0 && m01 == 0 then 0
  else
    let (quad, p, q) : Nat × Int × Int :=
      if decide (0 < m10) && decide (0 ≤ m01) then (0, m10, m01)
      else if decide (m10 ≤ 0) && decide (0 < m01) then (1, m01, -m10)
      else if decide (m10 < 0) && decide (m01 ≤ 0) then (2, -m10, -m01)
      else (3, -m01, m10)
    let n := ((List.zip cosTable cosTable.reverse).filter (fun t => decide (p * (t.2 : Int) < q * (t.1 : Int)))).length
    (64 * quad + n) % 256

/-- ANGLE of a feature. -/
def FtrLevel.angle (l : FtrLevel) (s : State) (x y : Nat) : Nat :=
  let disc := ((List.range 31).flatMap (fun (j : Nat) => (List.range 31).map (fun (i : Nat) => ((i : Int) - 15, (j : Int) - 15)))).filter (fun (o : Int × Int) => decide (o.1 * o.1 + o.2 * o.2 ≤ 225))
  let px := disc.map (fun (o : Int × Int) => (o, l.pix s ((x : Int) + o.1) ((y : Int) + o.2)))
  angle256 ((px.map (fun p => p.1.1 * p.2)).foldl (· + ·) 0) ((px.map (fun p => p.1.2 * p.2)).foldl (· + ·) 0)

/-- Sum of the 5 × 5 pixels around a position. -/
def FtrLevel.sum5 (l : FtrLevel) (s : State) (x y : Int) : Int :=
  ((List.range 5).flatMap (fun (j : Nat) => (List.range 5).map (fun (i : Nat) => l.pix s (x - 2 + (i : Int)) (y - 2 + (j : Int))))).foldl (· + ·) 0

/-- The descriptor of a feature: 32 bytes. -/
def FtrLevel.describe (l : FtrLevel) (s : State) (pat : List Byte) (x y angle : Nat) : List Byte :=
  let b := (angle + 4) / 8 % 32
  (List.range 32).map (fun n =>
    BitVec.ofNat 8 (((List.range 8).map (fun m =>
      let o := 0x20 + 1024 * b + 4 * (8 * n + m)
      let at' (i : Nat) : Int := signed 8 (leAt pat (o + i) 1)
      if l.sum5 s ((x : Int) + at' 0) ((y : Int) + at' 1) < l.sum5 s ((x : Int) + at' 2) ((y : Int) + at' 3) then 2 ^ m else 0)).foldl (· + ·) 0))

/-! ### FEATURE step (R234) -/

/-- The sorted kept features: by level, then y, then x. -/
def Corner.before (p q : Corner) : Bool := decide (p.k < q.k) || (p.k == q.k && (decide (p.y < q.y) || (p.y == q.y && decide (p.x < q.x))))

/-- Put a feature in its place. -/
def insertCorner (p : Corner) : List Corner → List Corner
  | [] => [p]
  | q :: t => if q.before p then q :: insertCorner p t else p :: q :: t

/-- A feature record. -/
def ftrRecord (s : State) (c : StepCtx) (ls : List FtrLevel) (pat : List Byte) (i : Nat) (p : Corner) : List Byte :=
  match ls.find? (fun l => l.k == p.k) with
  | none => []
  | some l =>
    let a := l.angle s p.x p.y
    leBytes 4 (2 ^ (p.k + 4) * p.x) ++ leBytes 4 (2 ^ (p.k + 4) * p.y) ++ leBytes 4 p.score ++ leBytes 1 p.k ++ leBytes 1 a
      ++ leBytes 1 (bit (s.lineFlagged l.r p.y)) ++ [0] ++ leBytes 2 p.x ++ leBytes 2 p.y ++ leBytes 4 c.seq.toNat ++ leBytes 2 c.tile ++ leBytes 2 i
      ++ leBytes 4 0 ++ l.describe s pat p.x p.y a

/-- An empty feature record. -/
def ftrEmpty : List Byte := List.replicate 12 (0 : Byte) ++ [0xFF] ++ List.replicate 51 (0 : Byte)

/-- What a FEATURE step fetches: each level's rectangle widened by 22 pixels and clipped (R227). -/
def ftrRuns (ls : List FtrLevel) : List (Nat × Nat) :=
  ls.flatMap (fun l =>
    let xa := l.x0 - 22
    let xb := min l.w (l.x1 + 22)
    (span (l.y0 - 22) (min l.h (l.y1 + 22))).map (fun y => (pixAddr l.r.1 l.r.2 xa y, xb - xa)))

/-- Run a FEATURE step. -/
def runFeature (s : State) (c : StepCtx) (d : List Byte) : State :=
  let b := parseFtr d
  let ls := ftrLevels c b
  match s.fetchRuns c (ftrRuns ls) with
  | (s, false) => s
  | (s, true) =>
    let found := ls.flatMap (fun l => l.survivors s b)
    let inCells := bucketed b found
    let kept := quotaKept b inCells
    let sorted := kept.foldr insertCorner []
    let pat := s.patterns.getD (c.unit % 256) []
    let recs := sorted.mapIdx (fun i p => ftrRecord s c ls pat i p) ++ List.replicate (b.quota - kept.length) ftrEmpty
    let ws := [(pixAddr (c.out 0).1 (c.out 0).2 0 c.tile, recs.flatten)]
    match s.storeRuns c ws with
    | (s, false) => s
    | (s, true) =>
      let n := (ls.map (fun l => (l.x1 - l.x0) * (l.y1 - l.y0))).foldl (· + ·) 0
      let s := s.addKilo c.unit (engCnt c.unit 1) 1 n
      let s := ((s.addCnt (engCnt c.unit 2) found.length).addCnt (engCnt c.unit 3) kept.length).addCnt (engCnt c.unit 4) (found.length - kept.length)
      let s := if kept.length == inCells.length then s else s.event (engErr c.unit) F.FTR_ERR.QUOTA
      s.stepDone c true (ws.flatMap (·.2))

/-- FEATURE (R227 to R236). -/
def execFeature (inst : Fin 4) (err : StepErr) (s : State) : Res :=
  .next ((s.engineStep (0x0700 + inst.val) err (fun s c d => if leAt d 0 1 == 0x41 then true else leAt d 0 1 == 0x40 && ftrValid s c d)
    (fun o => o != 0x41) (fun s c d => runFeature (s.setFlag (Reg.FTR_STATUS inst.val) F.FTR_STATUS.MATCH false) c d)))

/-! ### MATCH step (R237 to R240) -/

/-- Fields of a MATCH descriptor. -/
structure MatchDesc where
  pred : Nat
  flowLevel : Nat
  winX : Nat
  winY : Nat
  maxDist : Nat
  ratio : Nat
  levelTol : Nat
  above : Nat
  below : Nat
  h : List Fp
  motion : Nat
  deriving DecidableEq, Repr

/-- Read a MATCH descriptor. -/
def parseMatch (d : List Byte) : MatchDesc :=
  { pred := leAt d 2 1, flowLevel := leAt d 3 1, winX := leAt d 4 2, winY := leAt d 6 2, maxDist := leAt d 8 2, ratio := leAt d 0x0A 1,
    levelTol := leAt d 0x0B 1, above := leAt d 0x0C 2, below := leAt d 0x0E 2, h := (List.range 9).map (fun i => fp32.decode (leAt d (0x10 + 4 * i) 4)),
    motion := leAt d 0x38 8 }

/-- A MATCH descriptor is valid (table "MATCH step descriptor"). -/
def matchValid (d : List Byte) : Bool :=
  let b := parseMatch d
  decide (leAt d 1 1 < 2) && decide (b.pred ≤ 3) && decide (b.flowLevel ≤ 7) && (b.pred == 1 || b.flowLevel == 0) && decide (1 ≤ b.winX)
    && decide (b.winX ≤ 512) && decide (1 ≤ b.winY) && decide (b.winY ≤ 512) && decide (b.maxDist ≤ 256) && decide (1 ≤ b.ratio) && decide (b.ratio ≤ 16)
    && decide (b.levelTol ≤ 1) && decide (b.above ≤ 6) && decide (b.below ≤ 6)
    && (if b.pred == 2 then b.h.all Fp.isFinite else allZero ((d.drop 0x10).take 36)) && leAt d 0x34 4 == 0
    && (if b.pred == 3 then b.motion != 0 && b.motion % 64 == 0 else b.motion == 0)

/-- A feature record as a MATCH step reads it. -/
structure FtrRec where
  x : Nat
  y : Nat
  level : Nat
  flagged : Bool
  desc : Nat
  deriving DecidableEq, Repr

/-- Read the record at an address. -/
def State.ftrRec (s : State) (a : Nat) : FtrRec :=
  { x := s.pix a 4, y := s.pix (a + 4) 4, level := s.pix (a + 0x0C) 1, flagged := (s.pix (a + 0x0E) 1).testBit 0, desc := s.pix (a + 0x20) 32 }

/-- The record is empty. -/
def FtrRec.empty (r : FtrRec) : Bool := r.level == 0xFF

/-- Candidate lines read for a tile: the first, and one past the last (R237). -/
def candLines (b : MatchDesc) (t hq hc : Nat) : Nat × Nat :=
  (t * hc / max 1 hq - b.above, min hc ((t + 1) * hc / max 1 hq + b.below))

/-- Lines of the flow ring that lie in the slots the step declares. -/
def State.flowLines (s : State) (c : StepCtx) (r : RingSt) : Nat × Nat :=
  match s.node? c.slot with
  | some n =>
    if c.entry.isNone then (0, r.frameH)
    else
      let q := s.declared n c.tile 2
      (q.2.1 * r.rc.lines, (q.2.2 + 1) * r.rc.lines)
  | none => (0, r.frameH)

/-- Address of the flow record that a query's prediction reads; none outside the flow frame or the declared slots. -/
def State.matchFlowAt (s : State) (c : StepCtx) (b : MatchDesc) (q : FtrRec) : Option Nat :=
  let r := c.inFrameOf 2
  let d := 2 ^ (b.flowLevel + 4)
  let x := q.x / d
  let y := q.y / d
  let l := s.flowLines c r.1
  if decide (r.1.rc.width ≤ x) || decide (r.1.frameH ≤ y) || decide (y < l.1) || decide (l.2 ≤ y) then none else some (pixAddr r.1 r.2 x y)

/-- A homography applied to a query, in 1/16 level-0 pixel. -/
def mapQuery (h : List Fp) (q : FtrRec) : Option (Int × Int) :=
  (f32map (fun i => h.getD i Fp.zero) true (fp32.round (.fin false q.x (-4))) (fp32.round (.fin false q.y (-4)))).bind (fun p =>
    (p.1.toIntAway 4).bind (fun u => (p.2.toIntAway 4).map (fun v => (u, v))))

/-- The predicted position; none where the prediction gives no value (R238). -/
def State.matchPred (s : State) (c : StepCtx) (b : MatchDesc) (m : Option Motion) (q : FtrRec) : Option (Int × Int) :=
  match b.pred with
  | 0 => some (q.x, q.y)
  | 1 =>
    (s.matchFlowAt c b q).bind (fun a =>
      match flvComp (s.pix a 2), flvComp (s.pix (a + 2) 2) with
      | some dx, some dy => some ((q.x : Int) + (2 ^ b.flowLevel : Nat) * dx, (q.y : Int) + (2 ^ b.flowLevel : Nat) * dy)
      | _, _ => none)
  | 2 => mapQuery b.h q
  | _ => m.bind (fun m => mapQuery m.h q)

/-- A candidate is eligible for a query (R239). -/
def eligible (b : MatchDesc) (q : FtrRec) (p : Int × Int) (k : FtrRec) : Bool :=
  !k.empty && decide (((k.level : Int) - q.level).natAbs ≤ b.levelTol) && decide (((k.x : Int) - p.1).natAbs ≤ 16 * b.winX)
    && decide (((k.y : Int) - p.2).natAbs ≤ 16 * b.winY)

/-- The level-0 lines covered by candidate lines, as the detection rectangles of their tiles show: none when the candidate
ring is not written by a FEATURE node (R239; log entry 21). -/
def State.coveredLines (s : State) (r : RingSt) (la lb : Nat) : Option (Nat × Nat × Nat) :=
  match r.producer with
  | .node p =>
    match s.node? p with
    | some n =>
      match s.ring? n.layer (n.rc.inRings.headD 0xFF) with
      | some i =>
        let d := Memory.bytes s.mem n.stepAddr 64
        let b := parseFtr d
        if leAt d 0 1 == 0x40 && decide (la < lb) then
          let cd := detCols i.rc.width b.detW
          some (2 ^ b.first * (la / cd * b.detH), 2 ^ b.first * min i.frameH (((lb - 1) / cd + 1) * b.detH), 2 ^ b.first * i.frameH)
        else none
      | none => none
    | none => none
  | _ => none

/-- BAND_CLIPPED of a query. -/
def bandClipped (b : MatchDesc) (p : Int × Int) (cov : Option (Nat × Nat × Nat)) : Bool :=
  match cov with
  | none => false
  | some (a, e, h) =>
    let lo := max 0 ((p.2 - 16 * b.winY) / 16)
    let hi := min ((h : Int) - 1) ((p.2 + 16 * b.winY) / 16)
    decide (lo ≤ hi) && (decide (lo < a) || decide ((e : Int) ≤ hi))

/-- A match record (table "Match record"). -/
structure MatchRec where
  cands : Nat
  flagged : Bool
  predNone : Bool
  clipped : Bool
  d2 : Nat
  d1 : Nat
  status : Nat
  line : Nat
  index : Nat
  deriving DecidableEq, Repr

/-- Its 64 bits. -/
def MatchRec.word (m : MatchRec) : Nat :=
  min 2047 m.cands * 2 ^ 53 + bit m.flagged * 2 ^ 52 + bit m.predNone * 2 ^ 51 + bit m.clipped * 2 ^ 50 + m.d2 * 2 ^ 41 + m.d1 * 2 ^ 32 + m.status * 2 ^ 27
    + m.line % 4096 * 2 ^ 15 + m.index % 32768

/-- The record of an empty query. -/
def MatchRec.emptyQuery : MatchRec := ⟨0, false, false, false, 0, 0, 4, 0, 0⟩

/-- Match one query against candidates listed in order of line and index. -/
def matchOne (b : MatchDesc) (q : FtrRec) (p : Option (Int × Int)) (cov : Option (Nat × Nat × Nat)) (cands : List (Nat × Nat × FtrRec)) : MatchRec :=
  if q.empty then MatchRec.emptyQuery
  else
    let at' := p.getD (q.x, q.y)
    let el := (cands.filter (fun k => eligible b q at' k.2.2)).map (fun k => (popcount 256 (q.desc ^^^ k.2.2.desc), k))
    let d1 := if el.isEmpty then 256 else leastOf (el.map (·.1))
    let i := (el.map (·.1)).idxOf d1
    let rest := el.eraseIdx i
    let d2 := if rest.isEmpty then 256 else leastOf (rest.map (·.1))
    let best := (el[i]?).map (·.2)
    let st := if el.isEmpty then 1 else if b.maxDist < d1 then 2 else if b.ratio * d2 ≤ 16 * d1 then 3 else 0
    { cands := el.length, flagged := q.flagged || (match best with
        | some k => k.2.2.flagged
        | none => false),
      predNone := p.isNone, clipped := bandClipped b at' cov, d2 := d2, d1 := d1, status := st,
      line := (best.map (·.1)).getD 0xFFF, index := (best.map (·.2.1)).getD 0x7FFF }

/-- Store match records, count them and complete the step. -/
def State.matchStore (s : State) (c : StepCtx) (recs : List MatchRec) (extra : State → State) : State :=
  let ws := [(pixAddr (c.out 0).1 (c.out 0).2 0 c.tile, recs.flatMap (fun m => leBytes 8 m.word))]
  match s.storeRuns c ws with
  | (s, false) => s
  | (s, true) =>
    ((extra s).addCnt (engCnt c.unit 5) (recs.filter (fun m => m.status == 0)).length).stepDone c true (ws.flatMap (·.2))

/-- Run a MATCH step. -/
def runMatch (s : State) (c : StepCtx) (d : List Byte) : State :=
  let b := parseMatch d
  let q := c.inFrameOf 0
  let n := q.1.rc.width
  let qa (i : Nat) : Nat := pixAddr q.1 q.2 i c.tile
  let absent := (c.inp 1).2.isNone
  let k := c.inFrameOf 1
  let lines := if absent then (0, 0) else candLines b c.tile q.1.frameH k.1.frameH
  let ma := motionAddr b.motion c.seq
  let first := (if b.pred == 3 && !absent then [(ma, 64)] else []) ++ [(qa 0, 64 * n)]
    ++ (span lines.1 lines.2).map (fun y => (pixAddr k.1 k.2 0 y, 64 * k.1.rc.width))
  match s.fetchRuns c first with
  | (s, false) => s
  | (s, true) =>
    let qs := (List.range n).map (fun i => s.ftrRec (qa i))
    if absent then
      s.matchStore c (qs.map (fun q => if q.empty then MatchRec.emptyQuery else ⟨0, q.flagged, false, false, 256, 256, 1, 0xFFF, 0x7FFF⟩))
        (fun s => s.event (engErr c.unit) F.FTR_ERR.ABSENT)
    else
      match s.fetchRuns c (if b.pred == 1 then ((qs.filter (fun q => !q.empty)).filterMap (s.matchFlowAt c b)).eraseDups.map (fun a => (a, 4)) else []) with
      | (s, false) => s
      | (s, true) =>
        let m := parseMotion (Memory.bytes s.mem ma 64)
        let ok := m.accepted c.seq true false false
        let cands := (span lines.1 lines.2).flatMap (fun y => (List.range k.1.rc.width).map (fun i => (y, i, s.ftrRec (pixAddr k.1 k.2 i y))))
        let cov := s.coveredLines k.1 lines.1 lines.2
        s.matchStore c (qs.map (fun q => matchOne b q (s.matchPred c b (if ok then some m else none) q) cov cands)) (fun s =>
          if b.pred == 3 && !ok then
            (s.event (engErr c.unit) F.FTR_ERR.MOTION_MISS).log c.unit 0x0504 0 c.domain c.stream c.nt c.seq.toNat 0
          else s)

/-- MATCH (R237 to R241). -/
def execMatchRecords (inst : Fin 4) (err : StepErr) (s : State) : Res :=
  .next ((s.engineStep (0x0700 + inst.val) err (fun _ _ d => leAt d 0 1 != 0x41 || matchValid d) (fun o => o == 0x41)
    (fun s c d => runMatch (s.setFlag (Reg.FTR_STATUS inst.val) F.FTR_STATUS.MATCH true) c d)))

end Sys2Proof.Machine
end

