-- ==== Sys2Proof/Machine/Mover.lean ====
section
/-! DEFINITION. The Block Movers (spec/13): COPY2D, FILL, SPM_FILL, SPM_COPY, RESHUFFLE and the end of a halt. -/

namespace Sys2Proof.Machine

open Sys2Proof

/-- A Block Mover step descriptor (table "Block Mover step descriptor"). -/
structure BmDesc where
  op : Nat
  last : Bool
  srcKind : Nat
  srcRing : Nat
  dstKind : Nat
  dstRing : Nat
  mode : Nat
  elem : Nat
  src : Nat
  dst : Nat
  srcLen : Nat
  srcStride : Nat
  srcLines : Nat
  dstLen : Nat
  dstStride : Nat
  dstLines : Nat
  param : Nat
  deriving DecidableEq, Repr

/-- Read a descriptor. -/
def parseBm (d : List Byte) : BmDesc :=
  let ss := leAt d 2 1
  let ds := leAt d 3 1
  { op := leAt d 0 1, last := leAt d 1 1 % 2 == 1, srcKind := ss % 4, srcRing := ss / 4 % 8, dstKind := ds % 4, dstRing := ds / 4 % 8,
    mode := leAt d 4 1, elem := leAt d 5 1, src := leAt d 8 8, dst := leAt d 0x10 8, srcLen := leAt d 0x18 4, srcStride := leAt d 0x1C 4,
    srcLines := leAt d 0x20 4, dstLen := leAt d 0x24 4, dstStride := leAt d 0x28 4, dstLines := leAt d 0x2C 4, param := leAt d 0x30 8 }

/-- PLANE_STRIDE, PLANES and LOW of a RESHUFFLE. -/
def BmDesc.planeStride (b : BmDesc) : Nat := b.param % 2 ^ 32
def BmDesc.planes (b : BmDesc) : Nat := b.param / 2 ^ 32 % 16
def BmDesc.low (b : BmDesc) : Nat := b.param / 2 ^ 40 % 16

/-- A count of 1 to 2^20. -/
def upTo20 (n : Nat) : Bool := decide (1 ≤ n) && decide (n ≤ 2 ^ 20)

/-- Planes of the source and of the destination of a step. -/
def BmDesc.srcPlanes (b : BmDesc) : Nat := if b.op == 0x64 && b.mode % 2 == 1 then b.planes else 1
def BmDesc.dstPlanes (b : BmDesc) : Nat := if b.op == 0x64 && b.mode % 2 == 0 then b.planes else 1

/-- Lengths and planes as the table "Reshuffle modes" has them. PLANES 0 stands for no count. -/
def BmDesc.reshuffleOk (b : BmDesc) : Bool :=
  let p := b.planes
  let same := b.srcLines == b.dstLines
  (b.elem == 1 || b.elem == 2) && b.planeStride % 64 == 0 &&
  (match b.mode with
   | 0 => decide (2 ≤ p) && decide (p ≤ 4) && b.low == 0 && same && b.srcLen == b.dstLen * p && b.dstLen % b.elem == 0
   | 1 => decide (2 ≤ p) && decide (p ≤ 4) && b.low == 0 && same && b.dstLen == b.srcLen * p && b.srcLen % b.elem == 0
   | 2 => p == 4 && b.low == 0 && b.srcLen == 2 * b.dstLen && b.srcLines == 2 * b.dstLines && b.dstLen % b.elem == 0
   | 3 => p == 4 && b.low == 0 && b.dstLen == 2 * b.srcLen && b.dstLines == 2 * b.srcLines && b.srcLen % b.elem == 0
   | 4 => decide (1 ≤ p) && decide (b.low + p ≤ 8 * b.elem) && same && b.srcLen == b.dstLen * 8 * b.elem
   | 5 => decide (1 ≤ p) && decide (b.low + p ≤ 8 * b.elem) && same && b.dstLen == b.srcLen * 8 * b.elem
   | _ => false)

/-- The bytes of a range lie inside the 6 MiB of one scratchpad. -/
def inOneSpm (a n : Nat) : Bool :=
  inRange a addrSpm 0x8000000 && decide ((a - addrSpm) % 0x800000 + n ≤ spmBytes)

/-- First byte and length of an operand's extent; a ring's extent is the whole ring (R289, R334). -/
def BmDesc.extent (s : State) (c : StepCtx) (kind ring at' len stride lines planes pstride : Nat) (input : Bool) : Nat × Nat :=
  if kind == 0 then (s.place at', (planes - 1) * pstride + (lines - 1) * stride + len)
  else
    let r := if input then (c.inp ring).1 else (c.out ring).1
    (s.ringAddr r 0 0, r.rc.slotCount * r.rc.slotBytes)

/-- Extents of source and destination. -/
def BmDesc.srcExtent (s : State) (c : StepCtx) (b : BmDesc) : Nat × Nat :=
  BmDesc.extent s c b.srcKind b.srcRing b.src b.srcLen b.srcStride b.srcLines b.srcPlanes b.planeStride true
def BmDesc.dstExtent (s : State) (c : StepCtx) (b : BmDesc) : Nat × Nat :=
  BmDesc.extent s c b.dstKind b.dstRing b.dst b.dstLen b.dstStride b.dstLines b.dstPlanes b.planeStride false

/-- A descriptor is valid (R333, R334). -/
def bmValid (s : State) (c : StepCtx) (d : List Byte) : Bool :=
  let b := parseBm d
  let srcUsed := b.op != 0x61 && b.op != 0x62
  decide (0x60 ≤ b.op) && decide (b.op ≤ 0x64) && decide (leAt d 1 1 ≤ 1)
    && decide (leAt d 2 1 < 32) && decide (leAt d 3 1 < 32) && decide (b.srcKind ≤ 1) && (b.dstKind == 0 || b.dstKind == 2)
    && leAt d 6 2 == 0 && leAt d 0x38 8 == 0
    && (if b.srcKind == 1 then decide (b.srcRing < c.ins.length) && decide (b.src < 2 ^ 32) else decide (b.src < 2 ^ 44))
    && (if b.dstKind == 2 then decide (b.dstRing < c.outs.length) && decide (b.dst < 2 ^ 32) else decide (b.dst < 2 ^ 44))
    && upTo20 b.dstLen && upTo20 b.dstLines && (b.dstLines == 1 || decide (b.dstLen ≤ b.dstStride))
    && (if srcUsed then upTo20 b.srcLen && upTo20 b.srcLines
        else leAt d 2 1 == 0 && b.src == 0 && b.srcLen == 0 && b.srcStride == 0 && b.srcLines == 0)
    && (if b.op == 0x64 then b.reshuffleOk && b.param / 2 ^ 36 % 16 == 0 && b.param / 2 ^ 44 == 0 else b.mode == 0 && b.elem == 0)
    && (if b.op == 0x60 then b.srcLen * b.srcLines == b.dstLen * b.dstLines && b.param == 0 else true)
    && (if b.op == 0x62 then
          let x := b.dstExtent s c
          b.dst % 64 == 0 && b.dstLen % 64 == 0 && b.dstStride % 64 == 0 && inOneSpm x.1 x.2
        else true)
    && (if b.op == 0x63 then
          let x := b.dstExtent s c
          let y := b.srcExtent s c
          b.param == 0 && b.srcLines == 1 && b.dstLines == 1 && b.srcLen == b.dstLen && b.src % 64 == 0 && b.dst % 64 == 0 && b.srcLen % 64 == 0
            && inOneSpm x.1 x.2 && inOneSpm y.1 y.2 && (x.1 - addrSpm) / 0x800000 == (y.1 - addrSpm) / 0x800000
        else true)

/-- Source runs of plane p, line l. -/
def BmDesc.srcRuns (s : State) (c : StepCtx) (b : BmDesc) (p l : Nat) : List (Nat × Nat) :=
  let v := b.src + p * b.planeStride + l * b.srcStride
  if b.srcKind == 0 then [(s.place v, b.srcLen)]
  else
    let r := (c.inp b.srcRing).1
    (virtRuns r.rc (c.inSlots.getD b.srcRing 0) (b.srcLen / r.rc.elems + 2) v b.srcLen).map (fun x => (s.ringAddr r x.1 x.2.1, x.2.2))

/-- A line of a store: kept writes and bytes dropped (R335). -/
def BmDesc.dstWrites (s : State) (c : StepCtx) (b : BmDesc) (p l : Nat) (data : List Byte) : List (Nat × List Byte) × Nat :=
  let v := b.dst + p * b.planeStride + l * b.dstStride
  if b.dstKind == 0 then ([(s.place v, data)], 0)
  else
    let r := (c.out b.dstRing).1
    let slot := c.outSlots.getD b.dstRing 0
    let q := ownedRect c.rc c.out0.rc r.rc c.tile
    let lo := q.2.2.1 * r.rc.pitch
    let hi := min (q.2.2.2 * r.rc.pitch) (r.rc.lines * r.rc.pitch)
    let step (x : List (Nat × List Byte) × Nat × List Byte) (w : Nat × Nat × Nat) : List (Nat × List Byte) × Nat × List Byte :=
      let here := x.2.2.take w.2.2
      let rest := x.2.2.drop w.2.2
      let a := max lo w.2.1
      let e := min hi (w.2.1 + w.2.2)
      if w.1 == slot && decide (a < e) then
        (x.1 ++ [(s.ringAddr r w.1 a, (here.drop (a - w.2.1)).take (e - a))], x.2.1 + (w.2.2 - (e - a)), rest)
      else (x.1, x.2.1 + w.2.2, rest)
    let x := (virtRuns r.rc (c.outSlots.getD b.dstRing 0) (b.dstLen / r.rc.elems + 2) v data.length).foldl step ([], 0, data)
    (x.1, x.2.1)

/-- Byte i of a list, 0 past its end. -/
def byteAt (l : List Byte) (i : Nat) : Byte := l.getD i 0

/-- Element i of elem bytes of a line. -/
def elemAt (elem : Nat) (l : List Byte) (i : Nat) : List Byte := (List.range elem).map (fun k => byteAt l (i * elem + k))

/-- The lines of each destination plane of a RESHUFFLE, from the lines of each source plane (table "Reshuffle modes"). -/
def BmDesc.reshuffle (b : BmDesc) (src : List (List (List Byte))) : List (List (List Byte)) :=
  let line (p l : Nat) : List Byte := (src.getD p []).getD l []
  let e := b.elem
  let n := b.dstLen / e
  match b.mode with
  | 0 => (List.range b.planes).map (fun p => (List.range b.dstLines).map (fun l =>
      (List.range n).flatMap (fun i => elemAt e (line 0 l) (i * b.planes + p))))
  | 1 => [(List.range b.dstLines).map (fun l => (List.range n).flatMap (fun i => elemAt e (line (i % b.planes) l) (i / b.planes)))]
  | 2 => (List.range 4).map (fun p => (List.range b.dstLines).map (fun l =>
      (List.range n).flatMap (fun i => elemAt e (line 0 (2 * l + p / 2)) (2 * i + p % 2))))
  | 3 => [(List.range b.dstLines).map (fun l => (List.range n).flatMap (fun i => elemAt e (line (2 * (l % 2) + i % 2) (l / 2)) (i / 2)))]
  | 4 => (List.range b.planes).map (fun p => (List.range b.dstLines).map (fun l => (List.range b.dstLen).map (fun j =>
      BitVec.ofNat 8 (((List.range 8).map (fun t => bit ((leNat (elemAt e (line 0 l) (8 * j + t))).testBit (b.low + p)) * 2 ^ t)).foldl (· + ·) 0))))
  | _ => [(List.range b.dstLines).map (fun l => (List.range n).flatMap (fun i =>
      leBytes e (((List.range b.planes).map (fun p => bit ((byteAt (line p l) (i / 8)).getLsbD (i % 8)) * 2 ^ (b.low + p))).foldl (· + ·) 0)))]

/-- The 8-byte pattern along a line. -/
def patternLine (param n : Nat) : List Byte := (List.range n).map (fun i => BitVec.ofNat 8 (param / 2 ^ (8 * (i % 8))))

/-- Split a stream into lines. -/
def splitLines (len : Nat) : Nat → List Byte → List (List Byte)
  | 0, _ => []
  | n + 1, l => l.take len :: splitLines len n (l.drop len)

/-- What a step writes, as destination planes of lines, from what it has read. -/
def BmDesc.result (b : BmDesc) (src : List (List (List Byte))) : List (List (List Byte)) :=
  match b.op with
  | 0x60 => [splitLines b.dstLen b.dstLines ((src.getD 0 []).flatten)]
  | 0x63 => [splitLines b.dstLen b.dstLines ((src.getD 0 []).flatten)]
  | 0x64 => b.reshuffle src
  | _ => [List.replicate b.dstLines (patternLine b.param b.dstLen)]

/-- Run a Block Mover step. -/
def runBm (s : State) (c : StepCtx) (d : List Byte) : State :=
  let b := parseBm d
  let x := b.srcExtent s c
  let y := b.dstExtent s c
  if (b.op == 0x60 || b.op == 0x64) && overlap x.1 x.2 y.1 y.2 then s.stepFault c .descOverlap 0 false
  else
    let lines := if b.op == 0x61 || b.op == 0x62 then [] else (List.range b.srcPlanes).map (fun p => (List.range b.srcLines).map (b.srcRuns s c p))
    match s.fetchRuns c (lines.flatten.flatten) with
    | (s, false) => s
    | (s, true) =>
      let src := lines.map (fun pl => pl.map (fun rs => rs.flatMap (fun r => s.fetch r.1 r.2)))
      let ws := (b.result src).mapIdx (fun p ls => ls.mapIdx (fun l data => b.dstWrites s c p l data))
      let ws := ws.flatten
      let kept := ws.flatMap (·.1)
      let dropped := (ws.map (·.2)).foldl (· + ·) 0
      match s.storeRuns c kept with
      | (s, false) => s
      | (s, true) =>
        let bytes := kept.flatMap (·.2)
        let s := (s.dropStores c dropped).addKilo c.unit (Reg.BM_CNT (c.unit % 256) 1) 1 bytes.length
        s.stepDone c b.last bytes

/-- A Block Mover step of one operation. -/
def State.moverStep (s : State) (mover : Nat) (op : Nat) (err : StepErr) : State :=
  s.engineStep (0x0900 + mover) err bmValid (fun o => o == op) runBm

/-- COPY2D (R333): the source lines, as one byte stream, written as the destination lines. -/
def execCopy2d (mover : Fin 8) (err : StepErr) (s : State) : Res := .next (s.moverStep mover.val 0x60 err)

/-- FILL (R333): a repeating 8-byte pattern on every destination line. -/
def execFill (mover : Fin 8) (err : StepErr) (s : State) : Res := .next (s.moverStep mover.val 0x61 err)

/-- SPM_FILL (R315, R333): FILL inside one scratchpad. -/
def execSpmFill (mover : Fin 8) (err : StepErr) (s : State) : Res := .next (s.moverStep mover.val 0x62 err)

/-- SPM_COPY (R315, R333): a copy inside one scratchpad, as if the source were read whole first. -/
def execSpmCopy (mover : Fin 8) (err : StepErr) (s : State) : Res := .next (s.moverStep mover.val 0x63 err)

/-- RESHUFFLE (R333). -/
def execReshuffle (mover : Fin 8) (err : StepErr) (s : State) : Res := .next (s.moverStep mover.val 0x64 err)

/-- BM_RESUME (R337): GO ends the halt and frees the mover; the latched fault is journaled, as Rymond does before it
writes the register. Ignored when the mover is not halted. -/
def execBmResume (mover : Fin 8) (value : Word) (s : State) : Res :=
  let h := Reg.BM_FAULT_HI mover.val
  if !value.getLsbD 0 || !s.flag h F.BM_FAULT_HI.VALID then .next s
  else
    let s := s.log s.srcMaster 0x0604 1 0 0xFF (s.reg (Reg.BM_FAULT_LO mover.val)).toNat (s.fld h F.BM_FAULT_HI.ADDR_HI) (s.fld h F.BM_FAULT_HI.WRITE)
    .next (s.setFlag h F.BM_FAULT_HI.VALID false)

end Sys2Proof.Machine
end

