-- ==== Sys2Proof/Machine/Tensor.lean ====
section
/-! DEFINITION. Tensors (spec/12): descriptors, element layout, sharding, the address windows of a Neural Tile; and the element
formats of the tiles (R245 to R247, R253, R254). -/

namespace Sys2Proof.Machine

open Sys2Proof

/-! ### Element formats (R245 to R247) -/

/-- Bits of an element; 0 for a code that names no format. -/
def nfBits (f : Nat) : Nat :=
  match f with
  | 0x40 | 0x41 | 0x43 | 0x44 | 0x4A | 0x4B | 0x4C => 8
  | 0x42 | 0x4F => 4
  | 0x45 | 0x46 | 0x49 => 16
  | 0x47 | 0x48 => 32
  | 0x4D | 0x4E => 6
  | _ => 0

/-- An MX format. -/
def nfMx (f : Nat) : Bool := decide (0x4A ≤ f) && decide (f ≤ 0x4F)

/-- An integer format. -/
def nfInt (f : Nat) : Bool := f == 0x40 || f == 0x41 || f == 0x42 || f == 0x48 || f == 0x49

/-- Bytes of the elements of one MX block of 32. -/
def nfBB (f : Nat) : Nat := 4 * nfBits f

/-- The integer of an element of an integer format. -/
def nfInteger (f b : Nat) : Int :=
  match f with
  | 0x41 => (b % 256 : Nat)
  | _ => signed (nfBits f) b

def fpE4M3 : FpFmt := ⟨4, 3, false⟩
def fpE5M2 : FpFmt := ⟨5, 2, true⟩
def fpE2M3 : FpFmt := ⟨2, 3, false⟩
def fpE3M2 : FpFmt := ⟨3, 2, false⟩
def fpE2M1 : FpFmt := ⟨2, 1, false⟩

/-- The binary format of the elements of a float format. -/
def nfFloat (f : Nat) : FpFmt :=
  match f with
  | 0x43 | 0x4B => fpE4M3
  | 0x44 | 0x4C => fpE5M2
  | 0x45 => bf16
  | 0x46 => fp16
  | 0x4D => fpE2M3
  | 0x4E => fpE3M2
  | 0x4F => fpE2M1
  | _ => fp32

/-- The value of an element without its MX scale. -/
def nfElement (f b : Nat) : Fp :=
  if nfInt f then Fp.ofInt (nfInteger f b)
  else
    match f with
    | 0x4A => let v := signed 8 b; .fin (decide (v < 0)) v.natAbs (-6)
    | 0x43 | 0x4B => if b % 128 == 127 then .nan else fpE4M3.decode b
    | _ => (nfFloat f).decode b

/-- A value scaled by an E8M0 scale (R246). -/
def Fp.mxScale (v : Fp) (scale : Nat) : Fp :=
  if scale == 0xFF then .nan
  else
    match v with
    | .fin s m e => .fin s m (e + scale - 127)
    | v => v

/-- The value of an element with its MX scale. -/
def nfValue (f b scale : Nat) : Fp := if nfMx f then (nfElement f b).mxScale scale else nfElement f b

/-- Largest finite magnitude of a float format, as a bit pattern. -/
def nfTop (f : Nat) : Nat :=
  match f with
  | 0x43 | 0x4B => 0x7E
  | 0x44 | 0x4C => 0x7B
  | 0x45 => 0x7F7F
  | 0x46 => 0x7BFF
  | 0x4D => 0x1F
  | 0x4E => 0x1F
  | 0x4F => 0x7
  | _ => 0x7F7FFFFF

/-- A NaN of a format: any pattern that is one; which one the spec does not say (log entry 22). -/
def nfNan (f : Nat) : Nat :=
  let v := Config.nanPattern f
  match f with
  | 0x43 | 0x4B => 0x7F + 128 * (v % 2)
  | 0x44 | 0x4C => 0x7D + 128 * (v % 2) + v / 2 % 3
  | 0x45 => 0x7F81 + 32768 * (v % 2) + v / 2 % 127
  | 0x46 => 0x7C01 + 32768 * (v % 2) + v / 2 % 1023
  | _ => 0x7F800001 + 2 ^ 31 * (v % 2) + v / 2 % 8388607

/-- Convert a value to an integer format (R253): bits, and whether the conversion is counted. -/
def toIntFormat (f : Nat) (sat : Bool) (v : Fp) : Nat × Bool :=
  let w := nfBits f
  let lo : Int := if f == 0x41 then 0 else -(2 ^ (w - 1) : Nat)
  let hi : Int := if f == 0x41 then 255 else (2 ^ (w - 1) : Nat) - 1
  match v with
  | .nan => (0, true)
  | .inf s => if sat then (unsigned w (if s then lo else hi), true) else (Config.infToInt f s % 2 ^ w, true)
  | .fin s m e =>
    let n := if 0 ≤ e then m * 2 ^ e.toNat else rneShift m (-e).toNat false
    let x : Int := if s then -(n : Int) else n
    if x < lo then (unsigned w (if sat then lo else x), true)
    else if hi < x then (unsigned w (if sat then hi else x), true)
    else (unsigned w x, false)

/-- Convert a value to a float format that is not MX (R253). -/
def toFloatFormat (f : Nat) (sat : Bool) (v : Fp) : Nat × Bool :=
  let ff := nfFloat f
  let sgn (s : Bool) : Nat := if s then 2 ^ (ff.eb + ff.mb) else 0
  let inf (s : Bool) : Nat := sgn s + (2 ^ ff.eb - 1) * 2 ^ ff.mb
  match v with
  | .nan => (nfNan f, true)
  | .inf s =>
    if f == 0x47 then (inf s, true)
    else if sat then (sgn s + nfTop f, true)
    else if f == 0x43 then (nfNan f, true)
    else (inf s, true)
  | .fin s m e =>
    let q := ff.roundMag m e false
    if q ≤ nfTop f then (sgn s + q, false)
    else if f == 0x47 then (inf s, true)
    else if sat then (sgn s + nfTop f, true)
    else if f == 0x43 then (nfNan f, true)
    else (inf s, true)

/-- Convert an FP32 value to a format that is not MX. -/
def toFormat (f : Nat) (sat : Bool) (v : Fp) : Nat × Bool := if nfInt f then toIntFormat f sat v else toFloatFormat f sat v

/-- Largest exponent of an MX element format. -/
def mxEmax (f : Nat) : Int :=
  match f with
  | 0x4A => 0
  | 0x4B => 8
  | 0x4C => 15
  | 0x4E => 4
  | _ => 2

/-- ⌊log2⌋ of a finite magnitude that is not zero. -/
def Fp.log2 (v : Fp) : Int :=
  match v with
  | .fin _ m e => (Nat.log2 m : Int) + e
  | _ => 0

/-- One element of an MX block: v ÷ 2^X rounded and clamped. -/
def mxElement (f : Nat) (x : Int) (v : Fp) : Nat × Bool :=
  match v with
  | .nan => (Config.nanPattern f % 2 ^ nfBits f, true)
  | .inf s =>
    if f == 0x4A then (unsigned 8 (if s then -128 else 127), true) else ((if s then 2 ^ (nfBits f - 1) else 0) + nfTop f, true)
  | .fin s m e =>
    if f == 0x4A then
      let e := e - x + 6
      let n := if 0 ≤ e then m * 2 ^ e.toNat else rneShift m (-e).toNat false
      let y : Int := if s then -(n : Int) else n
      (unsigned 8 (clampI (-128) 127 y), decide (y < -128) || decide (127 < y))
    else
      let q := (nfFloat f).roundMag m (e - x) false
      ((if s then 2 ^ (nfBits f - 1) else 0) + min q (nfTop f), decide (nfTop f < q))

/-- An MX block of at most 32 values (R254): its scale, its elements, and the conversions counted. -/
def mxBlock (f : Nat) (vs : List Fp) : Nat × List Nat × Nat :=
  if vs.any Fp.isNan then (0xFF, vs.map (fun v => (mxElement f 0 v).1), (vs.filter (fun v => !v.isFinite)).length)
  else
    let m := vs.foldl (fun (a : Fp) v => if a.lt v.abs then v.abs else a) Fp.zero
    if m.isZero then (0, vs.map (fun v => (mxElement f 0 v).1), 0)
    else
      let x := if m.isFinite then clampI (-127) 127 (m.log2 - mxEmax f) else 127
      let es := vs.map (mxElement f x)
      ((x + 127).toNat, es.map (·.1), (es.filter (·.2)).length)

/-- Pack elements of b bits, the first in the lowest bits (R247, R279). -/
def packBits (b : Nat) (vs : List Nat) : List Byte :=
  leBytes ((vs.length * b + 7) / 8) (vs.foldr (fun v a => v % 2 ^ b + 2 ^ b * a) 0)

/-! ### Tensor descriptors (R275) -/

/-- Fields of a tensor descriptor. -/
structure Td where
  format : Nat
  rank : Nat
  layout : Nat
  kind : Nat
  pos : Nat
  delta : Int
  perm : List Nat
  base : Nat
  dim : List Nat
  stride : List Nat
  scaleOff : Nat
  ydim : Nat
  txl : Nat
  tyl : Nat
  oxl : Nat
  oyl : Nat
  shard : List (Nat × Nat)
  map : List Nat
  deriving DecidableEq, Repr

/-- Read a tensor descriptor. -/
def parseTd (b : List Byte) : Td :=
  let blk := leAt b 0x38 4
  let sh := leAt b 0x3C 4
  { format := leAt b 0 1, rank := leAt b 1 1, layout := leAt b 2 1 % 4, kind := leAt b 3 1 % 4, pos := leAt b 3 1 / 4 % 8, delta := signed 8 (leAt b 4 1),
    perm := (List.range 5).map (fun k => leAt b 6 2 / 8 ^ k % 8), base := leAt b 8 8,
    dim := (List.range 5).map (fun k => leAt b (0x10 + 4 * k) 4), stride := 0 :: (List.range 4).map (fun k => leAt b (0x24 + 4 * k) 4),
    scaleOff := leAt b 0x34 4, ydim := blk % 8, txl := blk / 16 % 16, tyl := blk / 256 % 16, oxl := blk / 4096 % 16, oyl := blk / 65536 % 16,
    shard := (List.range 5).map (fun k => (sh / 16 ^ k % 4, sh / 16 ^ k / 4 % 4 + 1)), map := (List.range 4).map (fun g => sh / 2 ^ (20 + 2 * g) % 4) }

/-- Element bits. -/
def Td.bits (t : Td) : Nat := nfBits t.format

/-- Extent of a stored dimension. -/
def Td.d (t : Td) (k : Nat) : Nat := t.dim.getD k 1

/-- Byte stride of a stored dimension. -/
def Td.st (t : Td) (k : Nat) : Nat := t.stride.getD k 0

/-- Stored dimension of a logical dimension. -/
def Td.pm (t : Td) (k : Nat) : Nat := t.perm.getD k k

/-- Logical extents. -/
def Td.dims (t : Td) : List Nat := (List.range 5).map (fun k => t.d (t.pm k))

/-- A sharded descriptor. -/
def Td.sharded (t : Td) : Bool := t.shard.any (fun x => x.1 != 0)

/-- Sizes of the inner and outer tile: TX, TY, OX, OY, TB and OB. -/
def Td.tx (t : Td) : Nat := 2 ^ t.txl
def Td.ty (t : Td) : Nat := 2 ^ t.tyl
def Td.ox (t : Td) : Nat := 2 ^ t.oxl
def Td.oy (t : Td) : Nat := 2 ^ t.oyl
def Td.tb (t : Td) : Nat := t.tx * t.ty * t.bits / 8
def Td.ob (t : Td) : Nat := t.ox * t.oy * t.tb

/-! ### Where elements lie (R277 to R281, R290 to R292) -/

/-- Local extents of a shard whose coordinates are given (R291). -/
def Td.localDim (t : Td) (sc : List Nat) (k : Nat) : Nat :=
  let (kd, c) := t.shard.getD k (0, 1)
  let s := sc.getD k 0
  match kd with
  | 1 => let b := ceilDiv (t.d k) c; min b (t.d k - s * b)
  | 2 => ceilDiv (t.d k - s) c
  | _ => t.d k

/-- Global coordinate of a local one. -/
def Td.globalOf (t : Td) (sc : List Nat) (k i : Nat) : Nat :=
  let (kd, c) := t.shard.getD k (0, 1)
  let s := sc.getD k 0
  match kd with
  | 1 => i + s * ceilDiv (t.d k) c
  | 2 => i * c + s
  | _ => i

/-- Shard coordinate and local coordinate of a global coordinate; a replicated dimension takes the coordinate given. -/
def Td.shardOf (t : Td) (k i rep : Nat) : Nat × Nat :=
  let (kd, c) := t.shard.getD k (0, 1)
  match kd with
  | 1 => let b := max 1 (ceilDiv (t.d k) c); (i / b, i % b)
  | 2 => (i % c, i / c)
  | 3 => (rep, i)
  | _ => (0, i)

/-- Shard number of shard coordinates. -/
def Td.shardNo (t : Td) (sc : List Nat) : Nat :=
  ((List.range 5).reverse).foldl (fun a k => sc.getD k 0 + (t.shard.getD k (0, 1)).2 * a) 0

/-- All shard coordinates: of every shard, or of one replica of each when a reader's device is given (R292). -/
def Td.shards (t : Td) (reader : Option Nat) : List (List Nat) :=
  let all := (List.range 5).foldr (fun k (a : List (List Nat)) => (List.range (t.shard.getD k (0, 1)).2).flatMap (fun s => a.map (fun x => s :: x))) [[]]
  match reader with
  | none => all
  | some dev =>
    let key (sc : List Nat) : List Nat := sc.mapIdx (fun k s => if (t.shard.getD k (0, 1)).1 == 3 then 0 else s)
    let here (sc : List Nat) : Bool := t.map.getD (t.shardNo sc) 0 == dev
    all.filter (fun sc =>
      let mates := all.filter (fun x => key x == key sc)
      match mates.find? here with
      | some x => x == sc
      | none => key sc == sc)

/-- Sum of i_k × STRIDE_k over stored dimensions other than 0 and Y. -/
def Td.outer (t : Td) (y : Nat) (i : List Nat) : Nat :=
  ((List.range 5).map (fun k => if k == 0 || k == y then 0 else i.getD k 0 * t.st k)).foldl (· + ·) 0

/-- Bit offset of an element at local stored coordinates (R277, R278); a partial MX block of a d0 line takes its whole place. -/
def Td.bitOff (t : Td) (i : List Nat) : Nat :=
  let i0 := i.getD 0 0
  if t.layout == 0 then i0 * t.bits + 8 * t.outer 0 i
  else
    let y := t.ydim
    let iy := i.getD y 0
    let tx := i0 / t.tx
    let ty := iy / t.ty
    let inner := (iy % t.ty * t.tx + i0 % t.tx) * t.bits
    let s := t.outer y i
    if t.layout == 1 then inner + 8 * (tx * t.tb + ty * t.st y + s)
    else inner + 8 * ((ty % t.oy * t.ox + tx % t.ox) * t.tb + tx / t.ox * t.ob + ty / t.oy * t.st y + s)

/-- Bytes that d0 (with the tile rows of Y under L1 and L2) spans (R288). -/
def Td.rowBytes (t : Td) (d0 : Nat) : Nat :=
  match t.layout with
  | 0 => if nfMx t.format then ceilDiv d0 32 * nfBB t.format else (d0 * t.bits + 7) / 8
  | 1 => ceilDiv d0 t.tx * t.tb
  | _ => ceilDiv d0 (t.tx * t.ox) * t.ob

/-- (stride, extent) of the stored dimensions above d0, in units of their strides. -/
def Td.levels (t : Td) (sc : List Nat) : List (Nat × Nat) :=
  (List.range 4).map (fun k =>
    let k := k + 1
    let n := t.localDim sc k
    if t.layout != 0 && k == t.ydim then (t.st k, ceilDiv n (if t.layout == 1 then t.ty else t.ty * t.oy)) else (t.st k, n))

/-- Element bytes of a shard, from its lowest to its highest. -/
def Td.span (t : Td) (sc : List Nat) : Nat :=
  t.rowBytes (t.localDim sc 0) + ((t.levels sc).map (fun x => x.1 * (x.2 - 1))).foldl (· + ·) 0

/-- Bytes of a shard with its scale plane (R289). -/
def Td.extent (t : Td) (sc : List Nat) : Nat :=
  if nfMx t.format then max (t.span sc) (t.scaleOff + ceilDiv (t.span sc) (nfBB t.format)) else t.span sc

/-- Put a level in ascending order of stride. -/
def insertLevel (x : Nat × Nat) : List (Nat × Nat) → List (Nat × Nat)
  | [] => [x]
  | y :: t => if y.1 < x.1 then y :: insertLevel x t else x :: y :: t

/-- No two positions map to one byte (R288). -/
def Td.injective (t : Td) : Bool :=
  (t.shards none).all (fun sc =>
    let ls := ((t.levels sc).filter (fun x => decide (1 < x.2))).foldr insertLevel []
    (ls.foldl (fun (a : Nat × Bool) x => (a.1 + x.1 * (x.2 - 1), a.2 && decide (a.1 ≤ x.1))) (t.rowBytes (t.localDim sc 0), true)).2)

/-- PERM is a permutation of the dimensions in use and the identity above them. -/
def Td.permOk (t : Td) : Bool :=
  (List.range 5).all (fun k => if k < t.rank then (List.range t.rank).any (fun m => t.pm m == k) else t.pm k == k)

/-- SHARD meets R290. -/
def Td.shardOk (t : Td) : Bool :=
  let g := (t.shard.map (·.2)).foldl (· * ·) 1
  t.kind == 0 && decide (t.base < 2 ^ 42)
    && (List.range 5).all (fun k => let x := t.shard.getD k (0, 1); if x.1 == 0 then x.2 == 1 else decide (k < t.rank))
    && decide (g ≤ 4) && decide ((t.map.take g).eraseDups.length = g)

/-- A tensor descriptor is valid (R276, R281, R286, R288). -/
def tdValid (c : StepCtx) (b : List Byte) (output : Bool) : Bool :=
  let t := parseTd b
  let mx := nfMx t.format
  let ring := if t.kind == 1 then (c.inp t.pos).1 else (c.out t.pos).1
  let used := (List.range 5).filter (fun k => decide (1 ≤ k) && decide (k < t.rank))
  b.length == 64 && t.bits != 0 && decide (1 ≤ t.rank) && decide (t.rank ≤ 5) && decide (leAt b 2 1 ≤ 2) && decide (leAt b 3 1 < 32) && decide (t.kind ≤ 2)
    && decide (-4 ≤ t.delta) && decide (t.delta ≤ 4) && (t.kind == 1 || t.delta == 0) && leAt b 5 1 == 0 && decide (leAt b 6 2 < 0x8000)
    && (if t.kind == 0 then decide (t.base < 2 ^ 44) && t.pos == 0 else decide (t.base < 2 ^ 32))
    && t.dim.all (fun n => decide (1 ≤ n) && decide (n ≤ 2 ^ 20)) && t.permOk
    && (List.range 5).all (fun k => decide (k < t.rank) || t.d k == 1)
    && (if t.layout == 0 then leAt b 0x38 4 == 0
        else
          decide (leAt b 0x38 4 < 2 ^ 20) && decide (leAt b 0x38 4 % 16 < 8) && decide (1 ≤ t.ydim) && decide (t.ydim ≤ 4) && decide (t.ydim < t.rank)
            && decide (t.txl ≤ 8) && decide (t.tyl ≤ 8) && t.tx * t.ty * t.bits / 8 % 64 == 0 && t.tx * t.ty * t.bits % 8 == 0 && decide (t.tb ≤ 4096)
            && (if t.layout == 1 then t.oxl == 0 && t.oyl == 0 else decide (t.oxl ≤ 4) && decide (t.oyl ≤ 4) && decide (t.ob ≤ 65536)))
    && (decide (8 ≤ t.bits) || (if t.layout == 0 then t.d 0 * t.bits % 8 == 0 else t.tx * t.bits % 8 == 0))
    && (if mx then
          used.all (fun k => t.st k % nfBB t.format == 0) && (t.layout == 0 || decide (32 ≤ t.tx))
            && (t.kind == 0 || (t.base % nfBB t.format == 0 && ring.rc.pitch % nfBB t.format == 0 && t.scaleOff == 0)) && t.scaleOff % 64 == 0
        else t.scaleOff == 0)
    && (match t.kind with
        | 0 => true
        | 1 => decide (t.pos < c.ins.length) && leAt b 0x3C 4 == 0
        | _ => decide (t.pos < c.outs.length) && leAt b 0x3C 4 == 0)
    && (leAt b 0x3C 4 == 0 || (decide (leAt b 0x3C 4 < 2 ^ 28) && t.shardOk))
    && (if output then t.injective else t.pm 0 == 0)

/-! ### Address windows (R297 to R299) -/

/-- The lowest-numbered enabled window of tile n that covers a tile address. -/
def State.winOf (s : State) (n a : Nat) : Option Nat :=
  (List.range 16).find? (fun m =>
    let v := s.fld (Reg.NT_WIN_VBASE n m) F.NT_WIN_VBASE.VPAGE * 4096
    let p := s.fld (Reg.NT_WIN_PAGES n m) F.NT_WIN_PAGES.PAGES * 4096
    s.flag (Reg.NT_WIN_CTRL n m) F.NT_WIN_CTRL.ENABLE && decide (v ≤ a % 2 ^ 42) && decide (a % 2 ^ 42 < v + p))

/-- Translate a tile address through its window (R297). -/
def State.winTo (s : State) (n a : Nat) : Nat :=
  match s.winOf n a with
  | some m =>
    a / 2 ^ 42 * 2 ^ 42
      + (s.fld (Reg.NT_WIN_TBASE n m) F.NT_WIN_TBASE.TPAGE * 4096 + (a % 2 ^ 42 - s.fld (Reg.NT_WIN_VBASE n m) F.NT_WIN_VBASE.VPAGE * 4096)) % 2 ^ 42
  | none => a

/-- CAUSE of a window fault for an extent of tile addresses, and the window that covers its start: 0 for none (R299). -/
def State.winCause (s : State) (n a len : Nat) (write : Bool) : Nat × Nat :=
  match s.winOf n a with
  | none => (1, 0)
  | some m =>
    let e := (s.fld (Reg.NT_WIN_VBASE n m) F.NT_WIN_VBASE.VPAGE + s.fld (Reg.NT_WIN_PAGES n m) F.NT_WIN_PAGES.PAGES) * 4096
    if e < a % 2 ^ 42 + len then (2, m)
    else if write then (if s.flag (Reg.NT_WIN_CTRL n m) F.NT_WIN_CTRL.WRITE then (0, m) else (4, m))
    else if s.flag (Reg.NT_WIN_CTRL n m) F.NT_WIN_CTRL.READ then (0, m)
    else (3, m)

/-- Record the first window fault. -/
def State.winFault (s : State) (n a cause window operand : Nat) (write : Bool) : State :=
  let h := Reg.NT_WIN_FAULT_HI n
  if s.fld h F.NT_WIN_FAULT_HI.CAUSE != 0 then s
  else
    let s := (s.setReg (Reg.NT_WIN_FAULT_LO n) (w32 a)).setFld h F.NT_WIN_FAULT_HI.CAUSE cause
    (((s.setFlag h F.NT_WIN_FAULT_HI.WRITE write).setFld h F.NT_WIN_FAULT_HI.WINDOW window).setFld h F.NT_WIN_FAULT_HI.OPERAND operand).setFld
      h F.NT_WIN_FAULT_HI.ADDR_HI (a / 2 ^ 32)

/-! ### A tensor of a step -/

/-- A tensor as a step of tile n uses it: its descriptor and, for a ring-based one, its ring, its starting slot and whether
it is absent. -/
structure Tv where
  t : Td
  n : Nat
  r : RingSt
  slot : Nat
  absent : Bool
  deriving DecidableEq, Repr

/-- The tensor of a descriptor. -/
def StepCtx.tensor (c : StepCtx) (b : List Byte) : Tv :=
  let t := parseTd b
  let r := match t.kind with
    | 1 => (c.inp t.pos).1
    | 2 => (c.out t.pos).1
    | _ => RingSt.void
  let sl := match t.kind with
    | 1 => c.inSlots.getD t.pos 0
    | _ => c.outSlots.getD t.pos 0
  { t := t, n := c.unit % 256, r := r, slot := (((sl : Int) + t.delta) % (max 1 r.rc.slotCount : Nat)).toNat, absent := t.kind == 1 && (c.inp t.pos).2.isNone }

/-- Tile addresses of n bytes from byte offset o of the shard with number g, in runs (R282, R291). -/
def Tv.runs (v : Tv) (dev g o n : Nat) : List (Nat × Nat) :=
  if v.t.kind == 0 then [((if v.t.sharded then v.t.map.getD g 0 * 2 ^ 42 else 0) + v.t.base + o, n)]
  else
    let dv := (v.r.remote.getD dev) * 2 ^ 42
    (virtRuns v.r.rc v.slot (n / max 1 v.r.rc.elems + 2) (v.t.base + o) n).map (fun x => (dv + ringBase v.r.rc + x.1 * v.r.rc.slotBytes + x.2.1, x.2.2))

/-- Tile address of the scale of the block whose elements begin at byte offset o (R281, R282). -/
def Tv.scaleAt (v : Tv) (dev g o : Nat) : Nat :=
  let bb := max 1 (nfBB v.t.format)
  if v.t.kind == 0 then (if v.t.sharded then v.t.map.getD g 0 * 2 ^ 42 else 0) + v.t.base + v.t.scaleOff + o / bb
  else
    let p := v.r.rc.virt v.slot (v.t.base + o)
    (v.r.remote.getD dev) * 2 ^ 42 + ringBase v.r.rc + p.1 * v.r.rc.slotBytes + v.r.rc.elems + p.2 / bb

/-- The extents of a tensor in tile addresses (R289). -/
def Tv.extents (v : Tv) (dev : Nat) : List (Nat × Nat) :=
  if v.t.kind == 0 then
    (v.t.shards none).map (fun sc => ((if v.t.sharded then v.t.map.getD (v.t.shardNo sc) 0 * 2 ^ 42 else 0) + v.t.base, v.t.extent sc))
  else [((v.r.remote.getD dev) * 2 ^ 42 + ringBase v.r.rc, v.r.rc.slotCount * v.r.rc.slotBytes)]

/-- Model address of a tile address. -/
def State.tileAddr (s : State) (n a : Nat) : Nat := s.place (s.winTo n a)

/-- A tensor that lies in the tile's own scratchpad. -/
def State.inOwnSpm (s : State) (v : Tv) : Bool :=
  (v.extents s.device).all (fun x => let a := s.tileAddr v.n x.1; inRange a (addrSpm + v.n * 0x800000) 0x800000)

/-- Rows of consecutive elements along stored d0 of a shard: local stored coordinates of the first, and how many lie in the
tensor's shape and in the row as stored with its padding (R280, R281). -/
def Td.rows (t : Td) (sc : List Nat) : List (List Nat × Nat × Nat) :=
  let l := (List.range 5).map (t.localDim sc)
  let d0 := l.getD 0 1
  let w := if t.layout == 0 then (if nfMx t.format then ceilDiv d0 32 * 32 else d0) else t.tx
  let n (k : Nat) : Nat :=
    let x := l.getD k 1
    if t.layout != 0 && k == t.ydim then ceilDiv x t.ty * t.ty else x
  let outs := (List.range 4).foldr (fun k (a : List (List Nat)) => a.flatMap (fun x => (List.range (n (k + 1))).map (fun i => i :: x))) [[]]
  outs.flatMap (fun o =>
    let real := (List.range 4).all (fun k => decide (o.getD k 0 < l.getD (k + 1) 1))
    (List.range (ceilDiv d0 (max 1 w))).map (fun j => ((j * w) :: o, if real then min w (d0 - j * w) else 0, w)))

/-- The runs of tile addresses that a load of the tensor reads: elements, then scales (R280, R292). -/
def Tv.loadRuns (v : Tv) (dev : Nat) : List (Nat × Nat) :=
  (v.t.shards (some dev)).flatMap (fun sc =>
    let g := v.t.shardNo sc
    let rows := (v.t.rows sc).filter (fun r => r.2.1 != 0)
    rows.flatMap (fun r => v.runs dev g (v.t.bitOff r.1 / 8) ((r.2.1 * v.t.bits + 7) / 8))
      ++ (if nfMx v.t.format then
        rows.flatMap (fun r => (List.range (ceilDiv r.2.1 32)).map (fun b => (v.scaleAt dev g (v.t.bitOff r.1 / 8 + b * nfBB v.t.format), 1)))
      else []))

/-- Join runs that follow one another. -/
def joinRuns (l : List (Nat × Nat)) : List (Nat × Nat) :=
  (l.foldl (fun (a : List (Nat × Nat)) r =>
    match a with
    | [] => [r]
    | x :: t => if x.1 + x.2 == r.1 then (x.1, x.2 + r.2) :: t else r :: x :: t) []).reverse

/-- Coordinates of a linear index, d0 fastest. -/
def unlin : List Nat → Nat → List Nat
  | [], _ => []
  | d :: t, i => i % max 1 d :: unlin t (i / max 1 d)

/-- Linear index of coordinates. -/
def lin : List Nat → List Nat → Nat
  | d :: t, i :: u => i + d * lin t u
  | _, _ => 0

/-- Product of extents. -/
def volume (l : List Nat) : Nat := l.foldl (· * ·) 1

/-- Stored coordinates of logical ones. -/
def Td.stored (t : Td) (l : List Nat) : List Nat :=
  (List.range 5).map (fun k => l.getD ((List.range 5).findIdx (fun m => t.pm m == k)) 0)

/-- Logical coordinates of stored ones. -/
def Td.logical (t : Td) (i : List Nat) : List Nat := (List.range 5).map (fun k => i.getD (t.pm k) 0)

/-- Bits of the element at logical coordinates, and its scale, read from memory (R291, R292). -/
def State.element (s : State) (v : Tv) (l : List Nat) : Nat × Nat :=
  let i := v.t.stored l
  let cands := (v.t.shards (some s.device)).filter (fun sc => (List.range 5).all (fun k => (v.t.shardOf k (i.getD k 0) (sc.getD k 0)).1 == sc.getD k 0))
  let sc := cands.headD [0, 0, 0, 0, 0]
  let g := v.t.shardNo sc
  let j := (List.range 5).map (fun k => (v.t.shardOf k (i.getD k 0) (sc.getD k 0)).2)
  let o := v.t.bitOff j
  let n := (o % 8 + v.t.bits + 7) / 8
  let bs := (v.runs s.device g (o / 8) n).flatMap (fun r => s.fetch (s.tileAddr v.n r.1) r.2)
  let e := leNat bs / 2 ^ (o % 8) % 2 ^ v.t.bits
  if nfMx v.t.format then
    let i0 := j.getD 0 0
    let ob := v.t.bitOff (i0 / 32 * 32 :: j.drop 1) / 8
    (e, s.pix (s.tileAddr v.n (v.scaleAt s.device g ob)) 1)
  else (e, 0)

/-- An operand of a step: format, logical extents, elements and scales per element, d0 fastest. -/
structure Opnd where
  f : Nat
  dims : List Nat
  els : Array Nat
  scales : Array Nat
  deriving DecidableEq, Repr

/-- Read a tensor from where it lies; an absent one reads as zeros (R261, R283). -/
def State.loadTensor (s : State) (v : Tv) : Opnd :=
  let dims := v.t.dims
  let n := volume dims
  if v.absent then ⟨v.t.format, dims, (List.replicate n 0).toArray, (List.replicate n 0).toArray⟩
  else
    let xs := (List.range n).map (fun i => s.element v (unlin dims i))
    ⟨v.t.format, dims, (xs.map (·.1)).toArray, (xs.map (·.2)).toArray⟩

/-- Bytes of the compact form, and where its scale plane begins (R286). -/
def compactSize (f : Nat) (dims : List Nat) : Nat × Nat :=
  let e := (volume dims * nfBits f + 7) / 8
  if nfMx f then
    let p := (e + 63) / 64 * 64
    (p + ceilDiv (dims.getD 0 1) 32 * volume (dims.drop 1), p)
  else (e, e)

/-- The compact form of an operand: element bytes, and scale bytes. -/
def Opnd.compact (o : Opnd) : List Byte × List Byte :=
  let d0 := o.dims.getD 0 1
  (packBits (nfBits o.f) o.els.toList,
   if nfMx o.f then
     (List.range (volume (o.dims.drop 1))).flatMap (fun r => (List.range (ceilDiv d0 32)).map (fun b => BitVec.ofNat 8 (o.scales.getD (r * d0 + b * 32) 0)))
   else [])

/-- Read a compact tensor at a local address. -/
def State.loadCompact (s : State) (a f : Nat) (dims : List Nat) : Opnd :=
  let n := volume dims
  let b := nfBits f
  let p := a + (compactSize f dims).2
  let d0 := dims.getD 0 1
  let el (i : Nat) : Nat := leNat (Memory.bytes s.mem (a + i * b / 8) ((i * b % 8 + b + 7) / 8)) / 2 ^ (i * b % 8) % 2 ^ b
  ⟨f, dims, ((List.range n).map el).toArray,
   ((List.range n).map (fun i => if nfMx f then (s.byte (p + i / d0 * ceilDiv d0 32 + i % d0 / 32)).toNat else 0)).toArray⟩

/-- Value of an operand at logical coordinates. -/
def Opnd.fp (o : Opnd) (l : List Nat) : Fp := let i := lin o.dims l; nfValue o.f (o.els.getD i 0) (o.scales.getD i 0)

/-- Integer of an operand of an integer format. -/
def Opnd.int (o : Opnd) (l : List Nat) : Int := nfInteger o.f (o.els.getD (lin o.dims l) 0)

/-- All logical coordinates of a shape, d0 fastest. -/
def coordsOf (dims : List Nat) : List (List Nat) := (List.range (volume dims)).map (unlin dims)

end Sys2Proof.Machine
end

