-- ==== Sys2Proof/Machine/NtOps.lean ====
section
/-! DEFINITION. The step of a Neural Tile (spec/11): its descriptor, its phases and grants, rerun, the fetch phase, the epilogue
and the store phase. What each operation computes is in `Neural`. -/

namespace Sys2Proof.Machine

open Sys2Proof

/-! ### Tile state and phases (R258) -/

/-- A tile's step in progress. -/
def State.nt (s : State) (n : Nat) : TileSt := s.nts.getD n TileSt.idle

/-- Change a tile's step in progress. -/
def State.modNt (s : State) (n : Nat) (f : TileSt → TileSt) : State :=
  { s with nts := s.nts.mapIdx (fun i t => if i == n then f t else t) }

/-- What a phase belongs to: entry, generation and step; for a tinder job, its run. -/
def State.ntKey (s : State) (c : StepCtx) : Nat × Nat × Nat :=
  match c.entry.bind s.entry? with
  | some i => (i.entry, i.gen + 64 * i.reruns, c.step)
  | none => (4096, c.seq.toNat, c.step)

/-- The phase of a tile and when it began: a tile with a step that has asked for nothing yet awaits its fetch grant. -/
def State.ntPhase (s : State) (n : Nat) : Nat × Nat :=
  match s.ctx? (0x0800 + n) with
  | none => (1, 0)
  | some c =>
    let t := s.nt n
    if t.owner == some (s.ntKey c) then (t.phase, t.since)
    else (2, max (s.unit (0x0800 + n)).since t.since)

/-- NE clocks in a number of ns. -/
def State.neClocks (s : State) (ns : Nat) : Nat := ns * s.fld Reg.NE_CLOCK F.NE_CLOCK.MHZ / 1000

/-- Tiles that hold a grant, and tiles that await one. -/
def State.ntInIo (s : State) : List Nat := (List.range 16).filter (fun n => let p := (s.ntPhase n).1; p == 3 || p == 6)
def State.ntWaiting (s : State) : List Nat := (List.range 16).filter (fun n => let p := (s.ntPhase n).1; p == 2 || p == 5)

/-- Priority of what a tile runs. -/
def State.ntPrio (s : State) (n : Nat) : Nat := ((s.ctx? (0x0800 + n)).map (fun c => c.rc.prio)).getD 0

/-- Tile m is granted before tile n. -/
def State.ntBefore (s : State) (m n : Nat) : Bool :=
  let safe (k : Nat) : Bool := s.flag Reg.NE_PHASE_CTRL F.NE_PHASE_CTRL.SAFETY_FIRST && decide (5 ≤ s.ntPrio k)
  let pm := s.ntPhase m
  let pn := s.ntPhase n
  if safe m != safe n then safe m
  else if (pm.1 == 5) != (pn.1 == 5) then pm.1 == 5
  else if pm.2 != pn.2 then decide (pm.2 < pn.2)
  else decide (m < n)

/-- A tile is the next to be granted. -/
def State.ntGrantable (s : State) (n : Nat) : Bool :=
  let w := s.ntWaiting
  w.contains n && decide (s.ntInIo.length < s.fld Reg.NE_PHASE_CTRL F.NE_PHASE_CTRL.IO_SLOTS) && w.all (fun m => m == n || s.ntBefore n m)

/-- NT_PHASE_GRANT (R258): the arbiter grants the next waiting phase when an IO slot is free. -/
def execNtPhaseGrant (tile : Fin 16) (s : State) : Res :=
  let n := tile.val
  let u := 0x0800 + n
  if !s.ntGrantable n then .next s
  else
    match s.ctx? u with
    | none => .next s
    | some c =>
      let p := s.ntPhase n
      let s := s.addKilo u (Reg.NT_CNT n 5) 5 (s.neClocks (s.now - p.2))
      if p.1 == 5 then .next (s.modNt n (fun t => { t with phase := 6, since := s.now }))
      else
        let key := s.ntKey c
        let s := s.beginStep c
        let i := c.entry.bind s.entry?
        let again := ((i.map (·.reruns)).getD 0) != 0
        let st := Reg.NT_STEP n
        let s := (s.setFld st F.NT_STEP.STEP c.step).setFld st F.NT_STEP.RERUNS ((i.map (·.reruns)).getD 0)
        let s := s.setFlag st F.NT_STEP.RERUN again
        let s := if again then s else s.setFlag st F.NT_STEP.FROM_ZERO false
        .next (s.modNt n (fun t =>
          { t with
            owner := some key
            phase := 3
            since := s.now
            computed := false
            pages := if !again && c.step == 0 then [] else t.pages }))

/-! ### Rerun (R98, R259, R312, R313) -/

/-- Step from which a rerun on the same tile starts. -/
def TileSt.rerunFrom (t : TileSt) (offset step : Nat) : Nat :=
  match assocGet t.pages (offset / 4096) with
  | some w => if decide (t.resume ≤ w) && decide (w ≤ step) && !t.clobber then t.resume else 0
  | none => 0

/-- A step meets a scratchpad parity error at an offset of its own tile: the instance enters rerun, or is cancelled at the
third time; a second error on the tile within 1 s fences it. -/
def State.enterRerun (s : State) (c : StepCtx) (offset : Nat) : State :=
  let n := c.unit % 256
  let q := s.noteSpm n
  let s := ((q.1.event (Reg.NT_ERR n) F.NT_ERR.SPM_PARITY).setReg (Reg.NT_FAULT_ADDR n) (w32 (offset % 2 ^ 23))).addCnt (endedCnt c.unit) 1
  let a := Reg.NT_LAST_FAULT n
  let s := ((s.setFld a ⟨31, 28⟩ 3).setFld a ⟨27, 16⟩ c.slot).setFld a ⟨11, 0⟩ c.tile
  let s := s.setFld (Reg.NT_FAULT_STEP n) F.NT_FAULT_STEP.STEP c.step
  let fromStep := (s.nt n).rerunFrom offset c.step
  let s := (s.modNt n (fun t => { t with owner := none, since := s.now })).endRemote c.unit
  let s : State :=
    match c.entry with
    | none => s.modCover c.unit (fun x => { x with step := 0 })
    | some e =>
      match s.entry? e with
      | none => s
      | some i =>
        if decide (2 ≤ i.reruns) then
          let dl := ((s.node? i.node).map (fun m => m.deadline i.ts)).getD 0
          ((s.logInst 0x030A 1 i dl).modInst e (fun x => { x with stopping := true })).cancelNow e
        else
          let s := (s.logInst 0x0309 0 i c.step).addCnt (Reg.NT_CNT n 1) 1
          let s := s.setFlag (Reg.NT_STEP n) F.NT_STEP.FROM_ZERO (fromStep == 0)
          (s.leaveUnit c.unit e).modInst e (fun x => { x with st := .rerun, reruns := x.reruns + 1, step := fromStep })
  match q.2 with
  | true => s.fence c.unit 3
  | false => s

/-! ### Step descriptor (R263) -/

/-- Common part of a step descriptor. -/
structure NtDesc where
  op : Nat
  last : Bool
  resume : Bool
  sat : Bool
  accLoad : Bool
  epi : Nat
  act : Nat
  td : List Nat
  outScale : Nat
  stage : List Nat
  deriving DecidableEq, Repr

/-- Read the common part. -/
def parseNt (d : List Byte) : NtDesc :=
  let f := leAt d 1 1
  { op := leAt d 0 1, last := f.testBit 0, resume := f.testBit 1, sat := f.testBit 2, accLoad := f.testBit 3, epi := leAt d 2 1, act := leAt d 3 1,
    td := [leAt d 4 6, leAt d 0x0A 6, leAt d 0x10 6, leAt d 0x16 6], outScale := leAt d 0x1C 4,
    stage := [leAt d 0x20 3, leAt d 0x23 3, leAt d 0x26 3] }

/-- COL_VEC and RESIDUAL. -/
def NtDesc.colVec (b : NtDesc) : Bool := b.epi.testBit 0
def NtDesc.residual (b : NtDesc) : Bool := b.epi.testBit 1

/-- LUT_ADDR and EPI_VEC. -/
def lutAddr (d : List Byte) : Nat := leAt d 0x32 6
def epiVec (d : List Byte) : Nat := leAt d 0x38 6

/-- Bytes from an offset on are zero, up to another. -/
def zeroFrom (d : List Byte) (a e : Nat) : Bool := allZero ((d.drop a).take (e - a))

/-- A binary32 field is finite. -/
def finite32 (d : List Byte) (a : Nat) : Bool := (fp32.decode (leAt d a 4)).isFinite

/-- The step uses operand B, or operand C as an input; it reads a LUT table. -/
def usesB (d : List Byte) : Bool :=
  match leAt d 0 1 with
  | 0x50 | 0x51 | 0x52 | 0x56 | 0x57 | 0x58 | 0x5B => true
  | 0x53 => leAt d 0x2E 1 == 0
  | 0x55 => leAt d 0x29 1 != 2
  | _ => false
def usesC (d : List Byte) : Bool :=
  match leAt d 0 1 with
  | 0x50 | 0x51 => (parseNt d).accLoad || (parseNt d).residual
  | 0x52 | 0x57 => true
  | _ => false
def usesLut (d : List Byte) : Bool := leAt d 0 1 == 0x5C || leAt d 3 1 == 3

/-- TOPK writes its indices through TD_C. -/
def writesC (d : List Byte) : Bool := leAt d 0 1 == 0x5A

/-- The operation's own fields hold no reserved value (table "Operation fields"). -/
def ntFieldsOk (d : List Byte) : Bool :=
  let b (a : Nat) : Nat := leAt d a 1
  let lut := decide (lutAddr d < 2 ^ 42)
  let vec := decide (epiVec d < 2 ^ 42) && zeroFrom d 0x3E 0x40
  let s18 (x : Nat) : Bool := decide (1 ≤ x) && decide (x ≤ 8)
  match b 0 with
  | 0x50 => zeroFrom d 0x29 0x32 && lut && vec
  | 0x51 =>
    s18 (b 0x29 % 16) && s18 (b 0x29 / 16) && decide (1 ≤ leAt d 0x2F 2) && decide (b 0x31 < 4) && lut && vec
  | 0x52 => decide (b 0x29 ≤ 2) && lut && finite32 d 0x38 && zeroFrom d 0x3C 0x40
  | 0x53 =>
    decide (b 0x29 ≤ 5) && decide (b 0x2E ≤ 1) && (b 0x2E == 0 || finite32 d 0x2A) && zeroFrom d 0x2F 0x32 && lut && zeroFrom d 0x38 0x40
  | 0x54 =>
    decide (b 0x29 ≤ 5) && (decide (b 0x2A ≤ 4) || (b 0x2A == 0xFF && s18 (b 0x2C % 16) && s18 (b 0x2C / 16))) && b 0x31 == 0 && lut && zeroFrom d 0x38 0x40
  | 0x55 =>
    decide (b 0x29 ≤ 2) && (b 0x29 == 2 || (finite32 d 0x2A && Fp.lt Fp.zero (fp32.decode (leAt d 0x2A 4)))) && zeroFrom d 0x2E 0x32 && lut && zeroFrom d 0x38 0x40
  | 0x56 => decide (b 0x29 ≤ 4) && zeroFrom d 0x2A 0x40
  | 0x57 => decide (b 0x29 ≤ 4) && decide (b 0x2A ≤ 3) && zeroFrom d 0x2B 0x40
  | 0x58 =>
    decide (b 0x29 ≤ 3) && decide (b 0x2A < 8) && decide (1 ≤ b 0x2B) && decide (b 0x2B ≤ 9) && zeroFrom d 0x2C 0x32 && lut && zeroFrom d 0x38 0x40
  | 0x59 => zeroFrom d 0x29 0x40
  | 0x5A => decide (b 0x29 ≤ 1) && decide (1 ≤ leAt d 0x2A 2) && decide (leAt d 0x2A 2 ≤ 1024) && zeroFrom d 0x2C 0x40
  | 0x5B =>
    let iou := fp32.decode (leAt d 0x2A 4)
    b 0x29 == 0 && iou.isFinite && Fp.le Fp.zero iou && Fp.le iou (Fp.ofNat 1) && decide (1 ≤ leAt d 0x2E 2) && decide (leAt d 0x2E 2 ≤ 1024)
      && zeroFrom d 0x30 0x32 && finite32 d 0x32 && zeroFrom d 0x36 0x40
  | 0x5C => zeroFrom d 0x29 0x32 && lut && lutAddr d != 0 && zeroFrom d 0x38 0x40
  | _ => false

/-- The common part holds no reserved value (R263, R264). -/
def ntCommonOk (d : List Byte) : Bool :=
  let b := parseNt d
  let plain := [0x56, 0x57, 0x59, 0x5A, 0x5B].contains b.op
  decide (0x50 ≤ b.op) && decide (b.op ≤ 0x5C) && decide (leAt d 1 1 < 16) && decide (b.epi < 4) && decide (b.act ≤ 3)
    && b.td.all (fun a => a % 64 == 0 && decide (a < 2 ^ 42)) && b.stage.all (fun a => a == 0xFFFFFF || a % 64 == 0)
    && finite32 d 0x1C && !(fp32.decode b.outScale).isZero && !(b.accLoad && b.residual)
    && (!plain || (b.epi == 0 && b.act == 0 && b.outScale == 0x3F800000)) && (b.epi == 0 || b.op == 0x50 || b.op == 0x51)
    && (b.act != 3 || lutAddr d != 0)
    && b.td.getD 0 0 != 0 && b.td.getD 3 0 != 0 && (!usesB d || b.td.getD 1 0 != 0) && (!(usesC d || writesC d) || b.td.getD 2 0 != 0)

/-! ### Shapes and formats (R248, R264 to R271, R295, R296) -/

/-- Output extent of a convolution or window along one axis: none where it would not be positive. -/
def convOut (size lo hi k s dil : Nat) : Option Nat :=
  if size + lo + hi < dil * (k - 1) + 1 then none else some ((size + lo + hi - dil * (k - 1) - 1) / s + 1)

/-- Output extent of a transposed convolution. -/
def convOutT (size lo hi k s dil : Nat) : Option Nat :=
  let n := (size - 1) * s + dil * (k - 1) + 1
  if n ≤ lo + hi then none else some (n - lo - hi)

/-- Fields of CONV. -/
structure ConvF where
  sx : Nat
  sy : Nat
  dx : Nat
  dy : Nat
  padL : Nat
  padR : Nat
  padT : Nat
  padB : Nat
  groups : Nat
  transposed : Bool
  depthwise : Bool
  deriving DecidableEq, Repr

/-- Read them. -/
def parseConv (d : List Byte) : ConvF :=
  { sx := leAt d 0x29 1 % 16, sy := leAt d 0x29 1 / 16, dx := leAt d 0x2A 1 % 16 + 1, dy := leAt d 0x2A 1 / 16 + 1, padL := leAt d 0x2B 1, padR := leAt d 0x2C 1,
    padT := leAt d 0x2D 1, padB := leAt d 0x2E 1, groups := leAt d 0x2F 2, transposed := (leAt d 0x31 1).testBit 0, depthwise := (leAt d 0x31 1).testBit 1 }

/-- The class of an operand pair (table "Operand pairs"): 0 integer, 1 float or MX, none where not listed. -/
def pairClass (fa fb : Nat) : Option Nat :=
  let mx8 := fa == 0x4A || fa == 0x4B || fa == 0x4C || fa == 0x4D || fa == 0x4E
  let e8 (f : Nat) : Bool := f == 0x43 || f == 0x44
  if (fa == 0x40 || fa == 0x41) && (fb == 0x40 || fb == 0x42) then some 0
  else if fa == 0x42 && fb == 0x42 then some 0
  else if e8 fa && e8 fb then some 1
  else if mx8 && nfMx fb then some 1
  else if fa == 0x4F && fb == 0x4F then some 1
  else if fa == 0x45 && fb == 0x45 then some 1
  else if fa == 0x46 && fb == 0x46 then some 1
  else none

/-- Shape that a step's result must have, from its operands' logical shapes; none where they disagree with the formulas. -/
def ntShape (d : List Byte) (a b c : List Nat) (rankA : Nat) (fb : Nat) : Option (List Nat) :=
  let g (l : List Nat) (k : Nat) : Nat := l.getD k 1
  let eqd (l m : List Nat) : Bool := (List.range 5).all (fun k => g l k == g m k)
  match leAt d 0 1 with
  | 0x50 =>
    if g a 0 == g b 0 && (List.range 3).all (fun k => g b (k + 2) == g a (k + 2) || g b (k + 2) == 1) then some [g b 1, g a 1, g a 2, g a 3, g a 4] else none
  | 0x51 =>
    let f := parseConv d
    let kw := g b 1
    let kh := g b 2
    let co := g b 3
    let wo := if f.transposed then convOutT (g a 1) f.padL f.padR kw f.sx f.dx else convOut (g a 1) f.padL f.padR kw f.sx f.dx
    let ho := if f.transposed then convOutT (g a 2) f.padT f.padB kh f.sy f.dy else convOut (g a 2) f.padT f.padB kh f.sy f.dy
    if g a 4 == 1 && g b 4 == 1 && g a 0 % f.groups == 0 && co % f.groups == 0 && g b 0 == g a 0 / f.groups
        && (!f.depthwise || (f.groups == g a 0 && f.groups == co && g b 0 == 1)) then
      wo.bind (fun w => ho.map (fun h => [co, w, h, g a 3, 1]))
    else none
  | 0x52 =>
    if g a 0 == g b 0 && g a 2 == g b 2 && g a 3 == g b 3 && eqd b c && g a 4 == 1 && g b 4 == 1 && decide (g a 0 ≤ 256) && decide (g a 1 ≤ 1024)
        && decide (g b 1 ≤ 65536) then some a else none
  | 0x53 => if leAt d 0x2E 1 == 1 || (List.range 5).all (fun k => g b k == g a k || g b k == 1) then some a else none
  | 0x54 =>
    if leAt d 0x2A 1 == 0xFF then
      let w := leAt d 0x2B 1
      let st := leAt d 0x2C 1
      (convOut (g a 1) (leAt d 0x2D 1) (leAt d 0x2E 1) (w % 16 + 1) (st % 16) 1).bind (fun x =>
        (convOut (g a 2) (leAt d 0x2F 1) (leAt d 0x30 1) (w / 16 + 1) (st / 16) 1).map (fun y => [g a 0, x, y, g a 3, g a 4]))
    else if decide (leAt d 0x2A 1 < rankA) then some (a.set (leAt d 0x2A 1) 1) else none
  | 0x55 => if leAt d 0x29 1 == 2 || (g b 0 == g a 0 && g b 1 == 2 && volume (b.drop 2) == 1) then some a else none
  | 0x56 =>
    let ax := leAt d 0x29 1
    if fb == 0x48 then (if decide (ax < rankA) && volume (b.drop 1) == 1 then some (a.set ax (g b 0)) else none)
    else if decide (ax + 1 < rankA) && g b 0 == 2 && volume (b.drop 2) == 1 then some ((a.set ax (g b 1)).set (ax + 1) 1)
    else none
  | 0x57 =>
    let ax := leAt d 0x29 1
    if fb == 0x48 then (if decide (ax < rankA) && volume (b.drop 1) == 1 && eqd a (c.set ax (g b 0)) then some c else none)
    else if decide (ax + 1 < rankA) && g b 0 == 2 && volume (b.drop 2) == 1 && eqd a ((c.set ax (g b 1)).set (ax + 1) 1) then some c
    else none
  | 0x58 =>
    let ks := leAt d 0x2B 1
    let per := if leAt d 0x29 1 == 3 then ks else 2 * ks
    if g b 0 == per && volume (b.drop 3) == 1 && volume (a.drop 3) == 1 then some [g a 0 * ks, g b 1, g b 2, 1, 1] else none
  | 0x5A => if decide (leAt d 0x2A 2 ≤ g a 0) then some (leAt d 0x2A 2 :: a.drop 1) else none
  | 0x5B => if g a 0 == 4 && volume (a.drop 2) == 1 && g b 0 == g a 1 && volume (b.drop 1) == 1 then some [leAt d 0x2E 2, 1, 1, 1, 1] else none
  | _ => some a

/-- The formats of a step suit its operation. -/
def ntFormatsOk (d : List Byte) (fa fb fc fo : Nat) : Bool :=
  let b := parseNt d
  let accC := !b.accLoad || fc == (if nfInt fa then 0x48 else 0x47)
  fo != 0x41 && (match b.op with
    | 0x50 | 0x51 => (pairClass fa fb).isSome && accC && !(b.residual && fc == 0x41)
    | 0x52 => fa == fb && fb == fc && (fa == 0x45 || fa == 0x46 || fa == 0x43 || fa == 0x4B)
    | 0x54 => (decide (leAt d 0x29 1 < 4) || fo == 0x48)
    | 0x56 =>
      fa == fo && (fb == 0x48 || fb == 0x49) && (decide (8 ≤ nfBits fa) && !nfMx fa || leAt d 0x29 1 != 0)
    | 0x57 =>
      fa == fc && fc == fo && (fb == 0x48 || fb == 0x49)
        && (if leAt d 0x2A 1 == 3 then (decide (8 ≤ nfBits fa) && !nfMx fa || leAt d 0x29 1 != 0) else fa == 0x48 || fa == 0x47)
    | 0x58 => !(leAt d 0x29 1 == 2 || leAt d 0x29 1 == 3) || fb == 0x49
    | 0x59 => fa == fo
    | 0x5A => fc == 0x48
    | 0x5B => fo == 0x48
    | _ => true)

/-- The accumulator limit (R272). -/
def ntAccOk (d : List Byte) (out : List Nat) : Bool :=
  let g (k : Nat) : Nat := out.getD k 1
  match leAt d 0 1 with
  | 0x50 => decide (g 1 * g 2 * g 3 * g 4 * 128 * ceilDiv (g 0) 128 ≤ 131072)
  | 0x51 => let gr := (parseConv d).groups; decide (g 1 * g 2 * g 3 * gr * 128 * ceilDiv (g 0 / gr) 128 ≤ 131072)
  | 0x52 => decide (g 1 * g 2 * 128 * ceilDiv (g 0) 128 ≤ 131072)
  | _ => true

/-- A LUT table obeys R252. -/
def lutOk (l : List Byte) : Bool :=
  let lo := fp32.decode (leAt l 0 4)
  let hi := fp32.decode (leAt l 4 4)
  lo.isFinite && hi.isFinite && Fp.lt lo hi

/-- The tensor of operand k (A, B, C, OUT) of a step in progress. -/
def StepCtx.opnd (c : StepCtx) (t : TileSt) (k : Nat) : Tv := c.tensor (t.tds.getD k [])

/-- A STAGE field places its input rightly (R257, R264). -/
def State.stageOk (s : State) (c : StepCtx) (t : TileSt) (k : Nat) : Bool :=
  let v := c.opnd t k
  let st := (parseNt t.desc).stage.getD k 0
  if v.absent then true
  else if s.inOwnSpm v then st == 0xFFFFFF
  else st != 0xFFFFFF && decide (st + (compactSize v.t.format v.t.dims).1 ≤ s.fld (Reg.NT_SPM_SIZE (c.unit % 256)) F.NT_SPM_SIZE.SPM_KIB * 1024)

/-- Operands a step reads, and tensors it writes, as positions among A, B, C and OUT. -/
def ntReads (d : List Byte) : List Nat := [0] ++ (if usesB d then [1] else []) ++ (if usesC d then [2] else [])
def ntWrites (d : List Byte) : List Nat := [3] ++ (if writesC d then [2] else [])

/-- A step whose descriptor and tensor descriptors have been read is valid (R264, R276). -/
def State.ntValid (s : State) (c : StepCtx) (t : TileSt) : Bool :=
  let d := t.desc
  let td (k : Nat) : Td := parseTd (t.tds.getD k [])
  let f (k : Nat) : Nat := (td k).format
  ntCommonOk d && ntFieldsOk d && (ntReads d).all (fun k => tdValid c (t.tds.getD k []) false) && (ntWrites d).all (fun k => tdValid c (t.tds.getD k []) true)
    && ntFormatsOk d (f 0) (f 1) (f 2) (f 3)
    && (match ntShape d (td 0).dims (td 1).dims (td 2).dims (if leAt d 0 1 == 0x57 then (td 2).rank else (td 0).rank) (f 1) with
        | none => false
        | some o =>
          (td 3).dims == o && ntAccOk d o && (!writesC d || (td 2).dims == o)
            && (!((leAt d 0 1 == 0x50 || leAt d 0 1 == 0x51) && usesC d) || (td 2).dims == o))
    && (ntReads d).all (s.stageOk c t)

/-! ### Fetch phase (R257, R286, R297 to R299) -/

/-- Check an extent against the windows; on a failure the step ends with ADDR_FAULT. True when it passed. -/
def State.ntWindow (s : State) (c : StepCtx) (operand a len : Nat) (write : Bool) : State × Bool :=
  let n := c.unit % 256
  let q := s.winCause n a len write
  if q.1 == 0 then (s, true)
  else ((s.winFault n a q.1 q.2 operand write).stepFault c .addrFault a write, false)

/-- Check a list of extents in order. -/
def State.ntWindows (s : State) (c : StepCtx) (l : List (Nat × Nat × Nat × Bool)) : State × Bool :=
  l.foldl (fun (p : State × Bool) x => if p.2 then p.1.ntWindow c x.1 x.2.1 x.2.2.1 x.2.2.2 else p) (s, true)

/-- A local address on this device as a 44-bit address. -/
def State.localTile (s : State) (a : Nat) : Nat := s.device * 2 ^ 42 + a

/-- Read runs of tile addresses of a step. -/
def State.ntFetch (s : State) (c : StepCtx) (rs : List (Nat × Nat)) : State × Bool :=
  match s.judgeReads c.issuer (joinRuns (rs.map (fun r => (s.tileAddr (c.unit % 256) r.1, r.2)))) true with
  | (s, none) => (s, true)
  | (s, some (e, a)) => (s.stepRefused c e a false, false)

/-- Bytes of a run of tile addresses. -/
def State.ntBytes (s : State) (n a len : Nat) : List Byte := s.fetch (s.tileAddr n a) len

/-- Write bytes into the tile's own scratchpad and note the pages in the writer table (R259). -/
def State.ownStore (s : State) (n step off : Nat) (bs : List Byte) : State :=
  if bs.isEmpty then s
  else
    let ps := (List.range ((off + bs.length - 1) / 4096 - off / 4096 + 1)).map (fun i => off / 4096 + i)
    (s.store (addrSpm + n * 0x800000 + off) bs).modNt n (fun t =>
      { t with
        clobber := t.clobber || ps.any (fun p => match assocGet t.pages p with
          | some w => decide (w < t.resume) && decide (t.resume ≤ step)
          | none => false)
        pages := ps.foldl (fun l p => assocPut l p step) t.pages })

/-- Stage one input in its compact form. -/
def State.stageInput (s : State) (c : StepCtx) (k : Nat) : State :=
  let n := c.unit % 256
  let t := s.nt n
  let v := c.opnd t k
  let st := (parseNt t.desc).stage.getD k 0
  if v.absent || st == 0xFFFFFF then s
  else
    let o := s.loadTensor v
    let x := o.compact
    let p := (compactSize o.f o.dims).2
    (s.ownStore n c.step st x.1).ownStore n c.step (st + p) x.2

/-- Extents of the tensors, EPI_VEC and LUT table of a step, with their operand numbers (R299). -/
def State.ntExtents (s : State) (c : StepCtx) (t : TileSt) : List (Nat × Nat × Nat × Bool) :=
  let d := t.desc
  let ext (k : Nat) (w : Bool) : List (Nat × Nat × Nat × Bool) :=
    let v := c.opnd t k
    if v.absent then [] else (v.extents s.device).map (fun x => (k + 1, x.1, x.2, w))
  (ntReads d).flatMap (fun k => ext k false) ++ (ntWrites d).flatMap (fun k => ext k true)
    ++ (if (parseNt d).colVec then [(5, s.localTile (epiVec d), 8 * (parseTd (t.tds.getD 3 [])).dims.getD 0 1, false)] else [])
    ++ (if usesLut d then [(6, s.localTile (lutAddr d), 1044, false)] else [])

/-- A PERMUTE step's extents share a byte on one device (R289). -/
def State.permuteOverlap (s : State) (c : StepCtx) (t : TileSt) : Bool :=
  let a := c.opnd t 0
  let o := c.opnd t 3
  let ext (v : Tv) : List (Nat × Nat) := (v.extents s.device).map (fun x => (s.winTo v.n x.1, x.2))
  leAt t.desc 0 1 == 0x59 && !a.absent && (ext a).any (fun x => (ext o).any (fun y => overlap x.1 x.2 y.1 y.2))

/-- An instance with an absent input: recorded once, and its output bands will carry the mark (R261). -/
def State.ntAbsent (s : State) (c : StepCtx) : State :=
  match c.ins.findIdx? (fun x => x.2.isNone) with
  | none => s
  | some j =>
    let first := c.step == 0 && ((c.entry.bind s.entry?).map (·.reruns)).getD 0 == 0
    if first then ((s.event (Reg.NT_ERR (c.unit % 256)) F.NT_ERR.ABSENT).log c.unit 0x0502 0 c.domain c.stream c.nt c.seq.toNat j).flagStep c else s

/-- The fetch phase of a step ends: its descriptors are read and checked, its inputs staged, and its compute phase begins. -/
def State.ntFetchPhase (s : State) (c : StepCtx) : State :=
  let n := c.unit % 256
  let da := s.localTile c.descAddr
  match s.ntWindow c 0 da 64 false with
  | (s, false) => s
  | (s, true) =>
    match s.ntFetch c [(da, 64)] with
    | (s, false) => s
    | (s, true) =>
      let d := s.ntBytes n da 64
      if !ntCommonOk d || !ntFieldsOk d then s.stepFault c .descInvalid c.descAddr false
      else
        let b := parseNt d
        let used := (ntReads d ++ ntWrites d).eraseDups
        let ta (k : Nat) : Nat := s.localTile (b.td.getD k 0)
        match s.ntWindows c (used.map (fun k => (7, ta k, 64, false))) with
        | (s, false) => s
        | (s, true) =>
          match s.ntFetch c (used.map (fun k => (ta k, 64))) with
          | (s, false) => s
          | (s, true) =>
            let tds := (List.range 4).map (fun k => if used.contains k then s.ntBytes n (ta k) 64 else [])
            let s := s.modNt n (fun t => { t with desc := d, tds := tds, lut := [], epi := [] })
            let t := s.nt n
            if !s.ntValid c t then s.stepFault c .descInvalid c.descAddr false
            else
              match s.ntWindows c (s.ntExtents c t) with
              | (s, false) => s
              | (s, true) =>
                if s.permuteOverlap c t then s.stepFault c .descOverlap c.descAddr false
                else
                  let staged := (ntReads d).filter (fun k => !(c.opnd t k).absent && b.stage.getD k 0 != 0xFFFFFF)
                  let cols := (parseTd (tds.getD 3 [])).dims.getD 0 1
                  let extra := (if b.colVec then [(s.localTile (epiVec d), 8 * cols)] else []) ++ (if usesLut d then [(s.localTile (lutAddr d), 1044)] else [])
                  match s.ntFetch c (staged.flatMap (fun k => (c.opnd t k).loadRuns s.device) ++ extra) with
                  | (s, false) => s
                  | (s, true) =>
                    let lut := if usesLut d then s.ntBytes n (s.localTile (lutAddr d)) 1044 else []
                    let epi := if b.colVec then s.ntBytes n (s.localTile (epiVec d)) (8 * cols) else []
                    if usesLut d && !lutOk lut then s.stepFault c .descInvalid c.descAddr false
                    else
                      let s := s.modNt n (fun t =>
                        { t with
                          lut := lut
                          epi := epi
                          resume := if b.resume || c.step == 0 then c.step else t.resume
                          clobber := if b.resume || c.step == 0 then false else t.clobber })
                      let s := (staged.foldl (fun s k => s.stageInput c k) s).ntAbsent c
                      let s := s.addKilo c.unit (Reg.NT_CNT n 3) 3 (s.neClocks (s.now - (s.nt n).since))
                      let s := s.modUnit c.unit (fun u => { u with hold := none })
                      s.modNt n (fun t => { t with phase := 4, since := s.now, computed := false, res := [], sat := 0, odd := 0, idx := 0 })

/-- Run a command of a tile in one phase of its step: `run` goes on where the reported fault lets it. -/
def State.ntIn (s : State) (n phase : Nat) (err : StepErr) (run : State → StepCtx → State) : State :=
  match s.ctx? (0x0800 + n) with
  | none => s
  | some c =>
    if (s.ntPhase n).1 != phase then s
    else
      match err with
      | .spmParity o => s.enterRerun c o
      | .residue => if phase == 4 then s.stepFault c .residue 0 false else run s c
      | .expMismatch => if phase == 4 then s.stepFault c .expMismatch 0 false else run s c
      | .accParity => if phase == 3 then run s c else s.stepFault c .accParity 0 false
      | e =>
        match s.meetErr c e with
        | (s, true) => run s c
        | (s, false) => s

/-- NT_FETCH_DONE (R257). -/
def execNtFetchDone (tile : Fin 16) (err : StepErr) (s : State) : Res :=
  .next (s.ntIn tile.val 3 err (fun s c => s.ntFetchPhase c))

/-- NT_COMPUTE_DONE (R255): the comparisons have been made and the tile asks for its store grant. -/
def execNtComputeDone (tile : Fin 16) (err : StepErr) (s : State) : Res :=
  let n := tile.val
  .next (s.ntIn n 4 err (fun s c =>
    let t := s.nt n
    if !t.computed then s
    else
      let s := s.addKilo c.unit (Reg.NT_CNT n 2) 2 (s.neClocks (s.now - t.since))
      let s := (s.addCnt (Reg.NT_CNT n 7) t.sat).addCnt (Reg.NT_IDX_CNT n) t.idx
      let s := if t.sat == 0 then s else s.event (Reg.NT_ERR n) F.NT_ERR.ACC_SAT
      s.modNt n (fun t => { t with phase := 5, since := s.now })))

/-! ### Epilogue (R251 to R254) -/

/-- MAX or MIN in FP32; what a NaN or zeros of both signs give is free (log entry 22). -/
def f32minMax (isMax : Bool) (a b : Fp) : Fp :=
  if a.isNan || b.isNan || (a.isZero && b.isZero && a.signBit != b.signBit) then
    fp32.decode (Config.minMaxCorner isMax (w32 (fp32.encode a false)) (w32 (fp32.encode b false))).toNat
  else if isMax == a.lt b then b else a

/-- Entry i of a LUT table. -/
def lutEntry (l : List Byte) (i : Nat) : Fp := fp32.decode (leAt l (16 + 4 * i) 4)

/-- The LUT activation (R252). -/
def lutApply (l : List Byte) (x : Fp) : Fp :=
  let lo := fp32.decode (leAt l 0 4)
  let hi := fp32.decode (leAt l 4 4)
  match x with
  | .nan => .nan
  | _ =>
    let t := f32div (f32mul (f32add x lo.neg) (Fp.ofNat 256)) (f32add hi lo.neg)
    match t with
    | .nan => .nan
    | _ =>
      let i := match t.floorPlus 0 with
        | some z => (clampI 0 255 z).toNat
        | none => if t.signBit then 0 else 255
      let r := f32add t (Fp.ofNat i).neg
      let f := if Fp.lt r Fp.zero then Fp.zero else if Fp.lt (Fp.ofNat 1) r then Fp.ofNat 1 else r
      f32add (lutEntry l i) (f32mul f (f32add (lutEntry l (i + 1)) (lutEntry l i).neg))

/-- FP32 value of a result element. -/
def TRes.fp (r : TRes) (i : Nat) : Fp :=
  if r.kind == 0 then fp32.round (Fp.ofInt (signed 32 (r.els.getD i 0))) else fp32.decode (r.els.getD i 0)

/-- The activation that ACT names. -/
def activate (act : Nat) (lut : List Byte) (x : Fp) : Fp :=
  match act with
  | 1 => f32minMax true Fp.zero x
  | 2 => f32minMax false (Fp.ofNat 6) (f32minMax true Fp.zero x)
  | 3 => lutApply lut x
  | _ => x

/-- What the epilogue makes of a result element: an integer that passes unchanged, or an FP32 value. -/
def epilogue (t : TileSt) (residual : Option Opnd) (fo : Nat) (r : TRes) (i : Nat) : Sum Int Fp :=
  let b := parseNt t.desc
  if r.kind == 0 && b.epi == 0 && decide (b.act ≤ 1) && b.outScale == 0x3F800000 && fo == 0x48 then
    let x := signed 32 (r.els.getD i 0)
    .inl (if b.act == 1 then max 0 x else x)
  else
    let l := unlin r.dims i
    let col := l.getD 0 0
    let x := r.fp i
    let x := if b.colVec then f32add (f32mul x (fp32.decode (leAt t.epi (8 * col) 4))) (fp32.decode (leAt t.epi (8 * col + 4) 4)) else x
    let x := match residual with
      | some o => f32add x (fp32.round (o.fp l))
      | none => x
    let x := activate b.act t.lut x
    .inr (f32mul x (fp32.decode b.outScale))

/-! ### Store phase (R280 to R287) -/

/-- What a tensor receives: elements by logical position that pass as they lie in memory with their scales, or integers and
FP32 values to convert. -/
inductive OutEl where
  | raw (bits scale : Nat)
  | int (x : Int)
  | val (v : Fp)
  deriving DecidableEq, Repr

/-- Its value. -/
def OutEl.fp (f : Nat) : OutEl → Fp
  | .raw b s => nfValue f b s
  | .int x => fp32.round (Fp.ofInt x)
  | .val v => v

/-- Bits of an element in a format that is not MX. -/
def OutEl.bits (f : Nat) (sat : Bool) : OutEl → Nat × Bool
  | .raw b _ => (b, false)
  | .int x => (unsigned 32 x, false)
  | .val v => toFormat f sat v

/-- Elements of a row in stored order and its MX scales, with the conversions counted. `keep` says that MX blocks pass as they
are. -/
def rowOut (f : Nat) (sat keep : Bool) (es : List OutEl) : List Nat × List Nat × Nat :=
  if !nfMx f then
    let x := es.map (OutEl.bits f sat)
    (x.map (·.1), [], (x.filter (·.2)).length)
  else
    let blocks := (List.range (ceilDiv es.length 32)).map (fun b => (es.drop (32 * b)).take 32)
    let x := blocks.map (fun es =>
      if keep then
        (match es.head? with
          | some (.raw _ s) => s
          | _ => 0, es.map (fun e => (e.bits f sat).1), 0)
      else mxBlock f (es.map (OutEl.fp f)))
    (x.flatMap (fun b => b.2.1), x.map (·.1), (x.map (fun b => b.2.2)).foldl (· + ·) 0)

/-- The byte at an in-slot offset of an output ring lies in the owned rectangle (R284). -/
def StepCtx.ownsByte (c : StepCtx) (v : Tv) (slot o : Nat) (scale : Bool) : Bool :=
  let rc := v.r.rc
  let q := ownedRect c.rc c.out0.rc rc c.tile
  let bb := max 1 (nfBB v.t.format)
  slot == c.outSlots.getD v.t.pos 0
    && (if scale then
          let p := o - rc.elems
          let sp := max 1 (rc.pitch / bb)
          decide (q.2.2.1 ≤ p / sp) && decide (p / sp < q.2.2.2) && decide (q.1 / 32 ≤ p % sp) && decide (p % sp < ceilDiv q.2.1 32)
        else
          let y := o / max 1 rc.pitch
          let x := 8 * (o % max 1 rc.pitch) / max 1 v.t.bits
          decide (q.2.2.1 ≤ y) && decide (y < q.2.2.2) && decide (q.1 ≤ x) && decide (x < q.2.1))

/-- Bytes stored from byte offset o of a shard, each at a tile address; a byte outside the owned rectangle is dropped. -/
def StepCtx.placeBytes (c : StepCtx) (v : Tv) (dev g o : Nat) (bs : List Byte) : List (Nat × Byte) × Nat :=
  if v.t.kind != 2 then ((v.runs dev g o bs.length).flatMap (fun r => (List.range r.2).map (fun i => r.1 + i)) |>.zip bs, 0)
  else
    let at' := (virtRuns v.r.rc v.slot (bs.length / max 1 v.r.rc.elems + 2) (v.t.base + o) bs.length).flatMap (fun x => (List.range x.2.2).map (fun i => (x.1, x.2.1 + i)))
    let all := at'.zip bs
    let kept := all.filter (fun p => c.ownsByte v p.1.1 p.1.2 false)
    (kept.map (fun p => ((v.r.remote.getD dev) * 2 ^ 42 + ringBase v.r.rc + p.1.1 * v.r.rc.slotBytes + p.1.2, p.2)), all.length - kept.length)

/-- A scale byte of the block at byte offset o. -/
def StepCtx.placeScale (c : StepCtx) (v : Tv) (dev g o : Nat) (b : Byte) : List (Nat × Byte) × Nat :=
  let a := v.scaleAt dev g o
  if v.t.kind != 2 then ([(a, b)], 0)
  else
    let p := v.r.rc.virt v.slot (v.t.base + o)
    if c.ownsByte v p.1 (v.r.rc.elems + p.2 / max 1 (nfBB v.t.format)) true then ([(a, b)], 0) else ([], 1)

/-- Everything a tensor's store writes: bytes at tile addresses, bytes dropped, and conversions counted. -/
def StepCtx.storeTensor (c : StepCtx) (v : Tv) (dev : Nat) (sat keep : Bool) (el : Nat → OutEl) : List (Nat × Byte) × Nat × Nat :=
  let dims := v.t.dims
  (v.t.shards none).foldl (fun (acc : List (Nat × Byte) × Nat × Nat) sc =>
    let g := v.t.shardNo sc
    (v.t.rows sc).foldl (fun (acc : List (Nat × Byte) × Nat × Nat) row =>
      let es := (List.range row.2.2).map (fun i =>
        if i < row.2.1 then
          let gl := (List.range 5).map (fun k => v.t.globalOf sc k (if k == 0 then row.1.getD 0 0 + i else row.1.getD k 0))
          el (lin dims (v.t.logical gl))
        else OutEl.raw 0 0)
      let r := rowOut v.t.format sat (keep || row.2.1 == 0) es
      let o := v.t.bitOff row.1 / 8
      let p := c.placeBytes v dev g o (packBits v.t.bits r.1)
      let q := (r.2.1.mapIdx (fun b x => c.placeScale v dev g (o + b * nfBB v.t.format) (BitVec.ofNat 8 x))).foldl
        (fun (a : List (Nat × Byte) × Nat) x => (a.1 ++ x.1, a.2 + x.2)) ([], 0)
      (acc.1 ++ p.1 ++ q.1, acc.2.1 + p.2 + q.2, acc.2.2 + r.2.2)) acc) ([], 0, 0)

/-- Join bytes at consecutive addresses into writes. -/
def joinBytes (l : List (Nat × Byte)) : List (Nat × List Byte) :=
  ((l.foldl (fun (a : List (Nat × List Byte)) r =>
    match a with
    | [] => [(r.1, [r.2])]
    | x :: t => if x.1 + x.2.length == r.1 then (x.1, r.2 :: x.2) :: t else (r.1, [r.2]) :: x :: t) []).reverse).map (fun x => (x.1, x.2.reverse))

/-- The element that a result puts at a linear logical position. -/
def outElement (t : TileSt) (residual : Option Opnd) (fo : Nat) (r : TRes) (i : Nat) : OutEl :=
  if r.kind == 2 then .raw (r.els.getD i 0) (r.scales.getD i 0)
  else
    match epilogue t residual fo r i with
    | .inl x => .int x
    | .inr v => .val v

/-- Read an operand: staged, from the scratchpad; else from where it lies. -/
def State.ntOperand (s : State) (c : StepCtx) (k : Nat) : Opnd :=
  let n := c.unit % 256
  let t := s.nt n
  let v := c.opnd t k
  let st := (parseNt t.desc).stage.getD k 0
  if v.absent || st == 0xFFFFFF then s.loadTensor v else s.loadCompact (addrSpm + n * 0x800000 + st) v.t.format v.t.dims

/-- The writes of a step's store phase at model addresses, the bytes dropped and the conversions counted. -/
def State.ntStores (s : State) (c : StepCtx) : List (Nat × List Byte) × Nat × Nat :=
  let n := c.unit % 256
  let t := s.nt n
  let b := parseNt t.desc
  let residual := if b.residual then some (s.ntOperand c 2) else none
  let one (k j : Nat) : List (Nat × Byte) × Nat × Nat :=
    match t.res[j]? with
    | none => ([], 0, 0)
    | some r =>
      let v := c.opnd t k
      let keep := r.kind == 2 && v.t.pm 0 == 0
      c.storeTensor v s.device b.sat keep (outElement t residual v.t.format r)
  let x := one 3 0
  let y := if writesC t.desc then one 2 1 else ([], 0, 0)
  (joinBytes ((x.1 ++ y.1).map (fun p => (s.tileAddr n p.1, p.2))), x.2.1 + y.2.1, x.2.2 + y.2.2)

/-- The writes of a step land: its own scratchpad through the writer table, the rest through their memories. -/
def State.ntLand (s : State) (c : StepCtx) (ws : List (Nat × List Byte)) : State :=
  let n := c.unit % 256
  let b := addrSpm + n * 0x800000
  ws.foldl (fun s w => if inRange w.1 b spmBytes then s.ownStore n c.step (w.1 - b) w.2 else s.write w.1 w.2) s

/-- NT_STEP_COMPLETE (R251, R256, R284): the results pass the epilogue and are stored, and the next step is due. -/
def execNtStepComplete (tile : Fin 16) (err : StepErr) (s : State) : Res :=
  let n := tile.val
  .next (s.ntIn n 6 err (fun s c =>
    let x := s.ntStores c
    match s.judgeWrites c.issuer x.1 with
    | (s, some (e, a)) => s.stepRefused c e a true
    | (s, none) =>
      let t := s.nt n
      let s := (s.ntLand c x.1).dropStores c x.2.1
      let s := s.addKilo c.unit (Reg.NT_CNT n 4) 4 (s.neClocks (s.now - t.since))
      let s := s.addCnt (Reg.NT_CNT n 6) (t.odd + x.2.2)
      let s := if x.2.2 == 0 then s else s.event (Reg.NT_ERR n) F.NT_ERR.ARITH
      let last := (parseNt t.desc).last
      (s.modNt n (fun t => { t with owner := none, since := s.now, res := [] })).stepDone c last (x.1.flatMap (·.2))))

end Sys2Proof.Machine
end

