-- ==== Sys2Proof/Machine/ChkUnits.lean ====
section
/-! DEFINITION. Table checks of the CHECK stage, second part: the step lists and rings of engines, tiles and Block Movers (R182, R204,
R224, R243, R274, R301, R343). -/

namespace Sys2Proof.Machine

open Sys2Proof

/-! ### Step lists -/

/-- The descriptors of a STEP_LIST section. -/
def ChkImage.descs (m : ChkImage) (index : Nat) : List (List Byte) :=
  match m.f.section? m.r 6 index with
  | some e => (List.range (leAt (m.f.img m.r e.offset 16) 4 4)).map (fun i => m.f.img m.r (e.offset + 16 + 64 * i) 64)
  | none => []

/-- The class of a STEP_LIST section. -/
def ChkImage.listClass (m : ChkImage) (index : Nat) : Option Nat := (m.f.stepList? m.r index).map (·.1)

/-- A step of a node as far as its rings go: what a unit would be given for a tile. -/
def ChkLayer.ctx (c : ChkLayer) (n : NodeRec) (unit tile : Nat) : StepCtx :=
  { unit := unit, domain := c.l.partition, slot := n.slot, tile := tile, stream := 0xFF, seq := 0, rc := n, layer := c.l.id
    ins := n.inRings.map (fun i => (c.ring i, some 0))
    outs := n.outRings.map (fun i => (c.ring i, 0))
    inSlots := n.inRings.map (fun _ => 0)
    outSlots := n.outRings.map (fun _ => 0)
    step := 0, steps := 0, stepAddr := 0, entry := none, waitNs := 0 }

/-- WIDTH and frame height of a ring. -/
def RingSt.geom (r : RingSt) : Nat × Nat := (r.rc.width, r.frameH)

/-- A geometry k levels up: each extent halved k times, rounding up. -/
def upLevels (k : Nat) (g : Nat × Nat) : Nat × Nat := (ceilDiv g.1 (2 ^ k), ceilDiv g.2 (2 ^ k))

/-- The inputs of a node have these formats, in order, and no more. -/
def ChkLayer.inFormats (c : ChkLayer) (n : NodeRec) (fs : List Nat) : Bool := n.inRings.map (fun i => (c.ring i).rc.format) == fs

/-- A node has one or two outputs: a first format, and CNF8. -/
def ChkLayer.outFormats (c : ChkLayer) (n : NodeRec) (first : Nat) : Bool :=
  let fs := n.outRings.map (fun i => (c.ring i).rc.format)
  fs == [first] || fs == [first, 0x21]

/-! ### Warp and pyramids (R163, R178, R179, R182) -/

/-- A mesh's header follows from the frames that it serves. -/
def ChkImage.meshOk (m : ChkImage) (index : Nat) (inp out : RingSt) : Bool :=
  match m.f.section? m.r 0x0C index with
  | none => false
  | some e =>
    let h := m.f.img m.r e.offset 32
    (leAt h 8 2, leAt h 10 2) == out.geom && (leAt h 12 2, leAt h 14 2) == inp.geom && leAt h 2 2 == ceilDiv (leAt h 8 2) 16 + 1
      && leAt h 4 2 == ceilDiv (leAt h 10 2) 16 + 1

/-- A warp node (R182). -/
def ChkImage.warpOk (m : ChkImage) (c : ChkLayer) (n : NodeRec) : Bool :=
  (m.descs n.stepList).all (fun d =>
    let x := c.ctx n 0x0300 0
    let op := leAt d 0 1
    warpValid m.s x d
      && (op != 4 || (n.inRings.length == 2 && n.outRings.length == 2
            && ((x.out 0).1.geom, (x.out 0).1.rc.lines) == ((x.out 1).1.geom, (x.out 1).1.rc.lines)))
      && (warpPairs d).all (fun p =>
            ((op != 1 && op != 4) || m.meshOk p.2 (x.inp p.1).1 (x.out p.1).1)
              && (List.range n.tiles).all (fun t =>
                    let w := warpIn (c.ctx n 0x0300 t) d p.1
                    decide ((w.hi - w.lo) * w.r.rc.pitch ≤ 2097152))))

/-- HALO that the outputs of a pyramid step need at a level: fuel counts the levels left (R179). -/
def haloNeed (outs : List (Nat × Nat)) (levels : Nat) : Nat → Nat → Nat
  | 0, _ => 0
  | fuel + 1, k =>
    let c := if outs.contains (3, k) then 4 else if outs.contains (4, k) then 3 else 0
    let c := if decide (1 ≤ k) && outs.contains (2, k - 1) then max c 1 else c
    if decide (levels ≤ k) then c else max c (2 * haloNeed outs levels fuel (k + 1) + 2)

/-- A pyramid node (R178, R179, R182). -/
def ChkImage.pyrOk (m : ChkImage) (c : ChkLayer) (n : NodeRec) : Bool :=
  (m.descs n.stepList).all (fun d =>
    let x := c.ctx n 0x0400 0
    let used := pyrOuts x d
    let inL := leAt d 1 1
    let lv := leAt d 2 1
    let o (j : Nat) : Nat × Nat := pyrOut d j
    let outs := used.map o
    let g := (x.inp 0).1.geom
    let at' (k : Nat) : Nat × Nat := (levelDim (k - inL) g.1, levelDim (k - inL) g.2)
    pyrValid m.s x d && used == List.range n.outRings.length && (List.range 8).all (fun j => used.contains j || (o j).1 == 0)
      && outs.all (fun p => match p.1 with
          | 1 => decide (inL < p.2) && decide (p.2 ≤ lv)
          | 2 => decide (inL ≤ p.2) && decide (p.2 < lv)
          | _ => decide (inL ≤ p.2) && decide (p.2 ≤ lv))
      && outs.all (fun p => decide ((o 0).2 ≤ p.2))
      && used.all (fun j => (x.out j).1.geom == at' (o j).2 && (x.out 0).1.rc.lines % 2 ^ ((o j).2 - (o 0).2) == 0
          && (x.out j).1.rc.lines == (x.out 0).1.rc.lines / 2 ^ ((o j).2 - (o 0).2))
      && decide (haloNeed outs lv 8 inL ≤ leAt d 0x0C 1))

/-! ### Stereo and flow (R183, R204, R207, R224) -/

/-- A ring derives through current-frame inputs from a node; fuel counts the nodes of the layer. -/
def ChkLayer.dependsOn (c : ChkLayer) (slot : Nat) : Nat → Nat → Bool
  | 0, _ => false
  | fuel + 1, i =>
    match c.l.nodes.find? (fun n => n.outRings.contains i) with
    | none => false
    | some p => p.slot == slot || p.currents.any (fun j => c.dependsOn slot fuel (p.inRings.getD j 0xFF))

/-- A step list of exactly one descriptor, with LAST at a byte. -/
def oneDesc (ds : List (List Byte)) (flagAt : Nat) : Bool := ds.length == 1 && ds.all (fun d => leAt d flagAt 1 % 2 == 1)

/-- A stereo node (R204). -/
def ChkImage.strOk (m : ChkImage) (c : ChkLayer) (n : NodeRec) : Bool :=
  let ds := m.descs n.stepList
  oneDesc ds 1 && ds.all (fun d =>
    let x := c.ctx n 0x0500 0
    let b := parseStr d
    let np := if b.pred == 1 then 2 else if b.pred == 2 then 1 else 0
    let g := x.out0.geom
    let gi (j : Nat) : Nat × Nat := (x.inp j).1.geom
    let root (j : Nat) : Nat × Nat := m.rootOf c (n.inRings.getD j 0xFF)
    strValid m.s x d && c.inFormats n ([0x11, 0x11] ++ List.replicate np 0x20 ++ (if b.sat then [1, 1] else [])) && c.outFormats n 0x20
      && gi 0 == g && gi 1 == g && (List.range n.outRings.length).all (fun j => (x.out j).1.geom == g)
      && (!b.sat || (gi (2 + np) == g && gi (3 + np) == g))
      && root 0 == root 1 && (root 0).1 == 0
      && (np == 0 || gi 2 == upLevels b.shift g)
      && (b.pred != 1 || (n.inRings.getD 3 0xFF == n.inRings.getD 2 0xFE && !n.outRings.contains (n.inRings.getD 2 0xFF))))

/-- A flow node (R224). -/
def ChkImage.flwOk (m : ChkImage) (c : ChkLayer) (n : NodeRec) : Bool :=
  let ds := m.descs n.stepList
  oneDesc ds 1 && ds.all (fun d =>
    let x := c.ctx n 0x0600 0
    let b := parseFlw d
    let nc := if b.uses 1 then 1 else 0
    let np := if b.uses 2 then 2 else 0
    let g := x.out0.geom
    let gi (j : Nat) : Nat × Nat := (x.inp j).1.geom
    let ri (j : Nat) : Nat := n.inRings.getD j 0xFF
    let src (j : Nat) : Option Nat := match (c.ring (ri j)).producer with
      | .stream st => some st
      | .node p => (c.nodes.find? (fun y => y.rc.slot == p)).bind (·.refStream)
      | .nobody => none
    flwValid m.s x d && c.inFormats n ([0x12, 0x12] ++ List.replicate (nc + np) 0x22 ++ (if b.sat then [1, 1] else [])) && c.outFormats n 0x22
      && gi 0 == g && gi 1 == g && (List.range n.outRings.length).all (fun j => (x.out j).1.geom == g)
      && (!b.sat || (gi (2 + nc + np) == g && gi (3 + nc + np) == g))
      && src 0 == src 1
      && (nc == 0 || gi 2 == upLevels 1 g)
      && (np == 0 || ((if 0 ≤ b.shift then gi (2 + nc) == upLevels b.shift.toNat g else upLevels (-b.shift).toNat (gi (2 + nc)) == g)
            && ri (3 + nc) == ri (2 + nc) && !c.dependsOn n.slot c.l.nodes.length (ri (2 + nc)))))

/-! ### Features (R226, R227, R235, R237, R243) -/

/-- Cells that meet the detection rectangle of a tile, in level-0 pixels. -/
def cellsMet (b : FtrDesc) (g : Nat × Nat) (tile : Nat) : Nat :=
  let cd := detCols g.1 b.detW
  let x := tile % cd * b.detW
  let y := tile / cd * b.detH
  let n (lo hi : Nat) : Nat := if decide (lo < hi) then (hi * 2 ^ b.first - 1) / max 1 b.cell + 1 - lo * 2 ^ b.first / max 1 b.cell else 0
  n x (min g.1 (x + b.detW)) * n y (min g.2 (y + b.detH))

/-- The FTR_PATTERN section is there and within its ranges. -/
def ChkImage.patternOk (m : ChkImage) : Bool :=
  let b := m.f.secBytes m.r 0x0D 0
  b.length == 32800 && leAt b 0 2 == 0 && leAt b 2 2 == 32 && leAt b 4 2 == 256 && allZero ((b.drop 6).take 26)
    && (b.drop 32).all (fun v => let x := v.toInt; decide (-18 ≤ x) && decide (x ≤ 18))

/-- An output ring of one tile line per instance (R226). -/
def ChkLayer.lineRingOk (c : ChkLayer) (n : NodeRec) (width : Nat) : Bool :=
  let r := c.ring (n.outRings.headD 0xFF)
  r.rc.width == width && n.tileW == r.rc.width && n.tileH == 1 && r.frameH == n.tiles

/-- A feature node (R243). -/
def ChkImage.ftrOk (m : ChkImage) (c : ChkLayer) (n : NodeRec) : Bool :=
  let ds := m.descs n.stepList
  m.patternOk && oneDesc ds 1 && ds.all (fun d =>
    let x := c.ctx n 0x0700 0
    let gi (j : Nat) : Nat × Nat := (x.inp j).1.geom
    if leAt d 0 1 == 0x40 then
      let b := parseFtr d
      let s : State := { m.s with patterns := [m.f.secBytes m.r 0x0D 0] }
      ftrValid s x d && c.inFormats n (List.replicate n.inRings.length 1) && (List.range n.inRings.length).all (fun j => gi j == upLevels j (gi 0))
        && n.tiles == detCols (gi 0).1 b.detW * ceilDiv (gi 0).2 b.detH
        && (List.range n.tiles).all (fun t => decide (b.bucketMax * cellsMet b (gi 0) t ≤ 65536))
        && x.out0.rc.format == 0x23 && c.lineRingOk n b.quota
    else
      let b := parseMatch d
      leAt d 0 1 == 0x41 && matchValid d && c.inFormats n ([0x23, 0x23] ++ (if b.pred == 1 then [0x22] else []))
        && x.out0.rc.format == 0x24 && c.lineRingOk n (gi 0).1 && x.out0.frameH == (gi 0).2)

/-! ### Neural Tiles (R264, R274, R301) -/

/-- A loaded section holds a run of local addresses. -/
def ChkImage.holder (m : ChkImage) (a n : Nat) : Option SecEnt :=
  (m.f.live m.r).find? (fun e => loadsToLpddr e.type && decide (e.load ≤ a) && decide (a + n ≤ e.load + e.size))

/-- The bytes that the load leaves there, decrypted; empty outside every section. -/
def ChkImage.loadedAt (m : ChkImage) (a n : Nat) : List Byte :=
  match m.holder a n with
  | some e => ((m.f.plain m.env.otp m.r e).drop (a - e.load)).take n
  | none => []

/-- A run lies in a ring of the layer. -/
def ChkLayer.inRing (c : ChkLayer) (a n : Nat) : Bool := c.l.rings.any (fun r => decide (r.bytes.1 ≤ a) && decide (a + n ≤ r.bytes.1 + r.bytes.2))

/-- The tiles that a layer names; tile 0 stands for none. -/
def ChkLayer.tilesOf (c : ChkLayer) : List Nat :=
  let l := (c.l.units.filter (fun u => u / 256 == 8)).map (· % 256)
  if l.isEmpty then [0] else l

/-- Every device that a sharded descriptor's MAP names is present (R301). -/
def ChkImage.mapOk (m : ChkImage) (td : List Byte) : Bool :=
  let t := parseTd td
  match m.env.device with
  | some d => leAt td 0x3C 4 == 0 || (t.shards none).all (fun sc => decide (t.map.getD (t.shardNo sc) 0 < d.2))
  | none => true

/-- One step of a tile's list. What a tensor descriptor in a ring will hold is not known here, and is judged by the step itself. -/
def ChkImage.ntStepOk (m : ChkImage) (c : ChkLayer) (n : NodeRec) (spmKib : Nat) (d : List Byte) : Bool :=
  let used := (ntReads d ++ ntWrites d).eraseDups
  let addr (k : Nat) : Nat := (parseNt d).td.getD k 0
  let known (k : Nat) : Bool := (m.holder (addr k) 64).isSome
  let tds := (List.range 4).map (fun k => if used.contains k then m.loadedAt (addr k) 64 else [])
  let t : TileSt := { TileSt.idle with desc := d, tds := tds }
  let top := 0x600000 - spmKib * 1024
  ntCommonOk d && ntFieldsOk d && used.all (fun k => known k || c.inRing (addr k) 64)
    && (!usesLut d || (m.holder (lutAddr d) 1044).isNone || lutOk (m.loadedAt (lutAddr d) 1044))
    && c.tilesOf.all (fun tile =>
        let x := c.ctx n (0x0800 + tile) 0
        (!used.all known || m.s.ntValid x t)
          && used.all (fun k => !known k || (tdValid x (tds.getD k []) ((ntWrites d).contains k) && m.mapOk (tds.getD k [])))
          && !(leAt d 0 1 == 0x59 && used.all known && used.all (fun k => (parseTd (tds.getD k [])).kind == 0) && m.s.permuteOverlap x t)
          && (ntReads d).all (fun k =>
                let st := (parseNt d).stage.getD k 0
                let v := x.opnd t k
                st == 0xFFFFFF || !known k || decide (st + (compactSize v.t.format v.t.dims).1 ≤ top)))

/-- A tile's output ring (R274, R301). -/
def ntRingOk (n : NodeRec) (r0 r : RingRec) : Bool :=
  let f := r.format
  decide (0x40 ≤ f) && decide (f ≤ 0x4F)
    && (!nfMx f || (r.pitch % nfBB f == 0 && (List.range (n.cols r0.width)).all (fun i => i * n.tileW * r.width / max 1 r0.width % 32 == 0)
          && decide (r.lines * r.pitch + r.lines * r.pitch / nfBB f ≤ r.slotBytes)))
    && (decide (8 ≤ nfBits f) || n.tileW * nfBits f % 8 == 0)

/-- A tile node (R274, R301). -/
def ChkImage.ntOk (m : ChkImage) (c : ChkLayer) (n : NodeRec) : Bool :=
  let ds := m.descs n.stepList
  let spm := leAt (m.f.secBytes m.r 0x0E 0) 0x3C 2
  let last (d : List Byte) : Bool := (parseNt d).last
  (ds.getLast?.map last).getD false && (ds.dropLast).all (fun d => !last d) && (ds.head?.map (fun d => (parseNt d).resume)).getD false
    && n.outRings.all (fun i => ntRingOk n (c.ring (n.outRings.headD 0xFF)).rc (c.ring i).rc)
    && ds.all (m.ntStepOk c n spm)

/-! ### Block Movers (R334, R343) -/

/-- A Block Mover node. -/
def ChkImage.bmOk (m : ChkImage) (c : ChkLayer) (n : NodeRec) : Bool :=
  let ds := m.descs n.stepList
  decide (ds.length ≤ 64) && (ds.getLast?.map (fun d => (parseBm d).last)).getD false && ds.all (bmValid m.s (c.ctx n 0x0900 0))
    && n.outRings.all (fun i => (c.ring i).rc.width == n.tileW)

/-- Every check of this file. -/
def ChkImage.unitsOk (m : ChkImage) : Bool :=
  m.layers.all (fun c =>
    decide ((windowsOf (m.entries c) c.l.partition).length ≤ 15)
      && c.l.nodes.all (fun n =>
          (n.cls == 7 || m.listClass n.stepList == some n.cls) && (match n.cls with
            | 0 => m.warpOk c n
            | 1 => m.pyrOk c n
            | 2 => m.strOk c n
            | 3 => m.flwOk c n
            | 4 => m.ftrOk c n
            | 5 => m.ntOk c n
            | 6 => m.bmOk c n
            | k => k == 7)))

end Sys2Proof.Machine
end

