-- ==== Sys2Proof/Machine/TableChecks.lean ====
section
/-! DEFINITION. Table checks of the CHECK stage, third part: sensors, streams and parameter sets (R58, R119, R139, R161), expected values
and EMBER_CONFIG (R427), ADAPTATION (R446), systems of several devices (R472) and VEHICLE_INPUTS (R499). -/

namespace Sys2Proof.Machine

open Sys2Proof

/-- A number lies between two bounds. -/
def within (lo hi x : Nat) : Bool := decide (lo ≤ x) && decide (x ≤ hi)

/-! ### Sensor profiles (R58 items 10 and 11) -/

/-- A sensor sequence operation keeps its format. -/
def sensorOpOk (o : List Byte) : Bool :=
  let b (i : Nat) : Nat := leAt o i 1
  let reg : Bool := (b 1 % 16 == 1 || b 1 % 16 == 2) && decide (b 1 < 128) && (b 1 % 4 == 2 || b 3 == 0)
  match b 0 with
  | 0 => allZero (o.drop 1)
  | 1 | 2 => reg && within 1 4 (b 1 / 16) && allZero (o.drop (4 + b 1 / 16))
  | 3 => allZero ((o.drop 1).take 3) && within 1 1000000 (leAt o 4 4)
  | 4 => reg && b 1 / 16 == 2
  | 5 => decide (b 1 < 32) && decide (b 4 ≤ 1) && allZero ((o.drop 2).take 2) && allZero (o.drop 5)
  | 6 => decide (b 1 ≤ 3) && allZero (o.drop 2)
  | _ => false

/-- A sensor profile's operations: END stands last and only there, and the waits sum to WAIT_TOTAL_US. -/
def SensorRec.ok (p : SensorRec) : Bool :=
  let op (o : List Byte) : Nat := leAt o 0 1
  within 1 4096 p.ops.length && p.ops.all sensorOpOk && (p.ops.getLast?.map op) == some 0 && p.ops.dropLast.all (fun o => op o != 0)
    && ((p.ops.filter (fun o => op o == 3)).map (fun o => leAt o 4 4)).foldl (· + ·) 0 == p.waitTotalUs

/-! ### Streams (R58 item 7, R139) -/

/-- A stream's own fields. -/
def ChkImage.streamOk (m : ChkImage) (p : StreamRec) : Bool :=
  !(p.tinder && p.ispMode == 1) && decide (p.fsyncOffsetNs < p.periodNs) && decide (1 ≤ p.lateNs) && decide (p.lateNs < p.periodNs)
    && (p.dataType == 0x1E || decide (p.padValue < 2 ^ typeDepth p.dataType)) && !(p.group != 0xFF && p.fsync == 0xFF)
    && (match m.f.sensor? m.r p.sensor with
        | some q => decide (q.windowStartUs + q.windowLenUs < p.periodNs / 1000)
        | none => true)

/-- Two different streams agree: port and virtual channel, in-line pipe, stream group, FSYNC output. -/
def streamsAgree (p q : StreamRec) : Bool :=
  let same (b : Bool) : Bool := !b || (p.periodNs == q.periodNs && p.fsyncOffsetNs == q.fsyncOffsetNs)
  !(p.port == q.port && p.vc == q.vc) && !(p.isp == q.isp && p.ispMode == 0 && q.ispMode == 0)
    && (!(p.group == q.group && p.group != 0xFF) || p.fsync == q.fsync) && same (p.group == q.group && p.group != 0xFF)
    && same (p.fsync == q.fsync && p.fsync != 0xFF)

/-- R139, and item 7 of R58. -/
def ChkImage.streamsOk (m : ChkImage) : Bool :=
  let ps := m.f.usedStreams m.r
  ps.all m.streamOk && ps.all (fun p => ps.all (fun q => p.stream == q.stream || streamsAgree p q)) && (m.f.sensors m.r).all SensorRec.ok

/-! ### Parameter sets (R119, R149, R161) -/

/-- Bytes that a line of a format takes. -/
def lineBytes (fmt width : Nat) : Nat :=
  match fmt with
  | 2 | 4 => 2 * width
  | 3 => 3 * width
  | 5 => 6 * width
  | _ => width

/-- An image ring fits what the pipe writes into it: its format, and its slots. -/
def imageRingFits (fmt width : Nat) (r : RingRec) : Bool :=
  let lines := if fmt == 0 then r.lines + r.lines / 2 else r.lines
  r.format == fmt && !(fmt == 0 && r.lines % 2 == 1) && decide ((lines - 1) * r.pitch + lineBytes fmt width ≤ r.slotBytes)

/-- The format that a tap at a point writes. -/
def tapFormat (point fmt : Nat) : Nat := if point == 1 || point == 3 then 4 else if point == 6 || point == 9 then 5 else fmt

/-- The format of output `out` of a set: 0 the stage-10 output, 1 and 2 the taps; none for a tap that is off. -/
def outFormat (b : List Byte) (service : Bool) (out : Nat) : Option Nat :=
  if out == 0 then some (if service then 0 else leAt b 0x3F92 1)
  else if service then some (if out == 1 then 3 else 2)
  else
    let pt := leAt b (0x3FC7 + out) 1
    if pt == 0 then none else some (tapFormat pt (leAt b (0x3FCB + out) 1))

/-- The knee curve of stage 1 (R161). -/
def kneesOk (b : List Byte) : Bool :=
  let n := leAt b 0x40 1
  let k (i : Nat) : Nat := leAt b (0x60 + 2 * i) 2
  within 2 32 n && (List.range (n - 1)).all (fun i => decide (k i < k (i + 1)))

/-- A parameter set serves a stream. -/
def ChkImage.setOk (m : ChkImage) (p : StreamRec) : Bool :=
  let b := m.f.ispSet m.r p.ispSet
  let q := IspSet.parse b
  let yuv := p.dataType == 0x1E
  let ids := (ispRingIds b).filter (· != 0xFFFF)
  let owner := m.layers.filter (fun c => ids.any (fun i => c.l.rings.any (fun r => r.ringId == i)))
  let ring (i : Nat) : Option RingRec := (owner.flatMap (·.l.rings)).find? (fun r => r.ringId == i)
  let stage := leAt b 0x3FD4 2
  let modes := (m.scenes.filter (fun a => owner.any (fun c => a.layers.contains c.l.id))).map (·.service)
  p.ispSet != 0xFF && (if yuv then q.enable % 512 == 0 else q.inputBits == typeDepth p.dataType) && q.on 10 && (!q.on 1 || kneesOk b)
    && q.defects.all (fun d => decide (d.2 < 65536)) && (q.defects.zip q.defects.tail).all (fun d => decide (d.1.2 < d.2.2) || (d.1.2 == d.2.2 && decide (d.1.1 ≤ d.2.1)))
    && (yuv || (p.width % 2 == 0 && p.height % 2 == 0))
    && (ids.isEmpty || (m.f.usedStreams m.r).all (fun o => o.stream == p.stream || o.ispSet != p.ispSet))
    && ids.all (fun i => (ring i).isSome) && decide (owner.length ≤ 1)
    && ((p.ispMode == 1) == (stage != 0xFFFF))
    && (match ring stage with
        | some r => decide (p.height * r.pitch + 32 ≤ r.slotBytes)
        | none => true)
    && (match ring (leAt b 0x3FC2 2) with
        | some r => r.format == 6 && decide (0x3800 ≤ r.slotBytes)
        | none => true)
    && (List.range 2).all (fun k => let pt := leAt b (0x3FC8 + k) 1; if yuv then pt == 0 || pt == 10 else [0, 1, 3, 6, 9, 10].contains pt)
    && modes.all (fun sv => (List.range 3).all (fun out =>
          match ring (leAt b (if out == 0 then 0x3FC0 else 0x3FC2 + 2 * out) 2), outFormat b sv out with
          | some r, some f => imageRingFits f p.width r
          | _, _ => true))

/-- R161 over the image. -/
def ChkImage.ispOk (m : ChkImage) : Bool :=
  let ps := m.f.usedStreams m.r
  ps.all m.setOk && (m.has 5 0xFF || ps.all (fun p => !p.tinder))
    && m.sceneSets.all (fun cs => (List.range 4).all (fun n => !cs.any (fun c => maskNames c.l.unitMask (0x0200 + n))
          || ps.any (fun p => p.isp == n && p.ispMode == 0 && p.tinder)))
    && m.unions.all (fun cs => (List.range 4).all (fun n => decide (((cs.flatMap (·.streams)).filter (fun p => p.isp == n)).length ≤ 7)))
    && (m.f.expected m.r).all (fun e => e.kind != 0 || ((m.f.stream? m.r (e.pattern / 256)).map (fun p => decide (e.length ≤ 52 * p.width))).getD true)

/-! ### EMBER_CONFIG, tinder jobs and self-tests (R58 item 9, R408, R424, R427) -/

/-- The fields of EMBER_CONFIG lie in their ranges. -/
def emberFieldsOk (b : List Byte) : Bool :=
  let g (o n : Nat) : Nat := leAt b o n
  let lo (i : Nat) : Nat := g (0x10 + i) 1
  g 0 2 == 1 && decide (g 2 1 ≤ 23) && decide (g 3 1 ≤ 23) && decide (g 4 1 ≤ 3) && decide (g 5 1 ≤ 12) && (decide (g 6 1 < 32) || g 6 1 == 0xFF)
    && decide (g 7 1 ≤ 15) && decide (g 8 2 ≤ 12495) && decide (g 0x0A 2 ≤ 12495) && decide (g 0x0C 1 ≤ 15) && within 1 4 (g 0x0D 1)
    && within 1 5000 (g 0x0E 2) && within 1 63 (lo 0) && (List.range 7).all (fun i => within 1 63 (lo (i + 1)) && decide (lo (i + 1) < lo i))
    && (List.range 8).all (fun i => decide (1 ≤ g (0x18 + 2 * i) 2)) && decide (g 0x28 1 ≤ 100) && decide (1 ≤ g 0x29 1) && within 1 1000 (g 0x2A 2)
    && decide (g 0x2C 1 ≤ 1) && within 1 3 (g 0x2D 1) && decide (g 0x2E 2 ≤ 1024) && g 0x30 4 % 64 == 0 && decide (0x44480 ≤ g 0x30 4)
    && g 0x34 4 % 4096 == 0 && g 0x38 4 % 4096 == 0 && within 64 512 (g 0x3C 2) && within 5 50 (g 0x3E 1) && g 0x3F 1 == 0
    && ((b.drop 0x40).take 544).all (fun v => decide (-8 ≤ v.toInt) && decide (v.toInt ≤ 7))
    && ((b.drop 0x260).take 544).all (fun v => decide (v.toNat ≤ 63) || v == 0xFF)

/-- A stream of the Ember pair. -/
def emberStreamOk (p : StreamRec) : Bool :=
  within 0x2A 0x2E p.dataType && p.width % 4 == 0 && p.height % 4 == 0 && decide (p.width ≤ 4096) && decide (p.height ≤ 2176)

/-- An entry of the tinder table: its head, its input rings and its output rings. -/
def tinderEntry (b : List Byte) (k : Nat) : List Byte × List RingRec × List RingRec :=
  let o := tinderAt b k (leAt b 0x30 4)
  let ni := leAt b (o + 4) 1
  let rs := (List.range (ni + leAt b (o + 5) 1)).map (fun i => parseRing ((b.drop (o + 16 + 32 * i)).take 32))
  ((b.drop o).take 16, rs.take ni, rs.drop ni)

/-- A tinder job (R403, R427). -/
def ChkImage.jobOk (m : ChkImage) (b : List Byte) (k : Nat) : Bool :=
  let j := tinderEntry b k
  let area := (addrLp + leAt b 0x34 4, leAt b 0x38 4)
  let loads := ((m.f.live m.r).filter (fun e => loadsToLpddr e.type)).map (fun e => (e.load, e.size))
  let clash (x y : Nat × Nat) : Bool := overlap x.1 x.2 y.1 y.2
  within 1 8 j.2.1.length && within 1 8 j.2.2.length && allZero (j.1.drop 6)
    && (j.2.1 ++ j.2.2).all (fun r => r.slotCount == 1 && r.kind == 2 && r.ringId == 0 && r.consumers == 0 && r.flagBase == 0
          && decide (area.1 ≤ r.bytes.1) && decide (r.bytes.1 + r.bytes.2 ≤ area.1 + area.2))
    && j.2.2.all (fun o => j.2.1.all (fun i => !clash o.bytes i.bytes) && loads.all (fun x => !clash o.bytes x))
    && (m.descs (leAt j.1 2 2)).length == 1
    && (m.f.expected m.r).any (fun e => e.checkId == leAt j.1 0 2 && e.kind == 1 && m.listClass (leAt j.1 2 2) == some (classOfUnit e.unit))

/-- The instances that R408 requires to be tested: checker and unit code. -/
def ChkImage.mustTest (m : ChkImage) : List (Nat × Nat) :=
  let u := m.boundUnits
  let cls (c : Nat) := u.filter (fun x => x / 256 == c)
  let into (k : Nat) (l : List Nat) : List (Nat × Nat) := (l.filter (fun x => !m.env.out.contains x)).map (fun x => (k, x))
  (cls 8).map (fun x => (0, x)) ++ (cls 8).map (fun x => (1, x)) ++ (u.filter (fun x => within 3 7 (x / 256))).map (fun x => (2, x))
    ++ (cls 2).map (fun x => (3, x)) ++ (cls 1).map (fun x => (4, x)) ++ into 5 ((List.range 12).map (fun g => 0x0E00 + 4 * g))
    ++ ((m.env.channels.getD []).map (fun n => (6, 0x0C00 + n))) ++ into 7 ((List.range 4).map (0x0B00 + ·)) ++ fwCheckers.map (fun x => (8, x))
    ++ into 9 ((List.range 8).map (0x0A00 + ·)) ++ ((m.env.links.getD []).map (fun k => (10, 0x0D00 + k))) ++ [(11, 0x1200)]

/-- R427, and item 9 of R58. -/
def ChkImage.emberOk (m : ChkImage) : Bool :=
  let b := m.f.secBytes m.r 0x0E 0
  let es := m.f.expected m.r
  let jobs := List.range (leAt b 0x2E 2)
  let area := (addrLp + leAt b 0x34 4, leAt b 0x38 4)
  let vs := leAt (m.f.secBytes m.r 0x0F 0) 2 1
  let spm := 0x600000 - leAt b 0x3C 2 * 1024
  m.has 0x0E 0 && decide (b.length ≤ 458752) && emberFieldsOk b && (leAt b 6 1 == 0xFF || decide (leAt b 6 1 < vs))
    && (match m.f.stream? m.r (leAt b 2 1), m.f.stream? m.r (leAt b 3 1) with
        | some p, some q => p.stream != q.stream && p.group != 0xFF && p.group == q.group && emberStreamOk p && emberStreamOk q
            && times ((m.f.usedStreams m.r).map (·.group)) p.group == 2
        | _, _ => false)
    && es.all (fun e => e.kind != 1 || jobs.any (fun k => leAt (tinderEntry b k).1 0 2 == e.checkId))
    && jobs.all (m.jobOk b)
    && m.firewalls.all (fun l => l.all (fun e => e.target != 0xE0 || !overlap e.base (4096 * e.pages) area.1 area.2))
    && m.layers.all (fun c => c.l.rings.all (fun r => r.kind != 1 || decide (r.base % 0x800000 + r.slotCount * r.slotBytes ≤ spm)))
    && (m.boundUnits.filter (fun u => within 2 8 (u / 256))).all (fun u => es.any (fun e => decide (e.kind ≤ 1) && e.unit == u))
    && noRepeat (es.map (·.checkId))
    && m.mustTest.all (fun p => es.any (fun e => e.kind == 2 && e.pattern == p.1 && e.unit == p.2))

/-! ### ADAPTATION (R437, R446) -/

/-- The bits of a step list section that a PATCH may change: its class, byte offset and mask (R437). -/
def patchBits (cls off mask : Nat) : Bool :=
  let d := (off - 16) % 64
  decide (16 ≤ off) && ((d == 1 && mask % 8 == 0 && decide (mask < 32)) || (cls == 2 && d == 7) || (cls == 3 && d == 6))

/-- A rule keeps its tables. -/
def ChkImage.ruleOk (m : ChkImage) (x : RuleRec) : Bool :=
  let top := match x.metric with
    | 0 => 7
    | 1 => 1
    | 3 => 2
    | 5 => leAt (m.f.secBytes m.r 0x0F 0) 2 1 - 1
    | _ => 0
  let a (lo n : Nat) : Nat := x.arg / 2 ^ lo % 2 ^ n
  decide (x.metric ≤ 6) && decide (x.select ≤ top) && within 2 3 x.compare && decide (1 ≤ x.hold) && x.zeros
    && (match x.action with
        | 0 => x.arg == 0
        | 1 => within 1 4 (a 0 8) && x.arg / 256 == 0
        | 2 => within 1 3 (a 0 8) && [2, 4, 8].contains (a 8 8) && x.arg / 65536 == 0
        | 3 =>
          let n := a 0 16
          x.arg / 2 ^ 48 == 0
            && (match m.f.section? m.r 6 n, m.listClass n with
                | some e, some c => (c == 2 || c == 3) && decide (a 16 16 < e.size) && patchBits c (a 16 16) (a 40 8)
                    && (m.f.expected m.r).all (fun v => v.kind != 3 || v.pattern != e.pos)
                | _, _ => false)
        | _ => false)

/-- R446. -/
def ChkImage.adaptOk (m : ChkImage) : Bool :=
  let b := m.f.secBytes m.r 0x0B 0
  let g (o n : Nat) : Nat := leAt b o n
  let rules := m.f.rules m.r
  m.has 0x0B 0 && g 0 2 == 1 && decide (g 2 2 ≤ 256) && within 2 15 (g 4 1) && decide (g 5 1 ≤ 4) && within 1 3600 (g 6 2) && within 10 1000 (g 8 2)
    && within 80 120 (g 0x0A 1) && decide (g 0x0A 1 < g 0x0B 1) && decide (g 0x0B 1 < g 0x0C 1) && decide (g 0x0C 1 < g 0x0D 1)
    && decide (g 0x0D 1 < 125) && within 2 20 (g 0x0E 1) && g 0x0F 1 == 0 && within 10 1000 (g 0x10 2) && within 1 3600 (g 0x12 2)
    && within 1 3600 (g 0x14 2) && decide (g 0x16 2 ≤ 1000) && allZero ((b.drop 0x18).take 40) && rules.all m.ruleOk
    && m.layers.all (fun c => c.l.nodes.all (fun n => n.shedClass == 0
          || c.l.nodes.all (fun k => !k.inRings.any n.outRings.contains || (k.shedClass == n.shedClass && k.rateDiv == n.rateDiv))))
    && m.scenes.all (fun a => a.triggers.all (fun t => t.kind != 3 || decide (t.source < rules.length)))

/-! ### Systems of several devices (R458, R472) -/

/-- The device that holds a ring of a system layer, where this image tells it. -/
def ChkImage.ringDevice (dev : Nat) (r : RingSt) : Option Nat :=
  match r.producer with
  | .node k => some (k / 1024 % 4)
  | .stream _ => some dev
  | .nobody => none

/-- R472, with this device's number and the number of devices. -/
def ChkImage.systemOk (m : ChkImage) (dev n : Nat) : Bool :=
  let ps := m.f.usedStreams m.r
  let dual := ps.filter (fun p => p.dualHome == 2)
  let back := (dev + n - 1) % max 1 n
  m.layers.all (fun c => !isSystemLayer c.l.id || (c.l.nodes.all (fun k =>
      let d := k.slot / 1024 % 4
      let peer (i : Nat) : Bool := ChkImage.ringDevice dev (c.ring i) != some d
      decide (d < n)
        && (List.range k.inRings.length).all (fun j => !peer (k.inRings.getD j 0xFF) || (decide (5 ≤ k.cls) && !k.isPrev j))
        && c.l.nodes.all (fun o => o.flow == none || o.flow != k.flow || o.slot / 1024 % 4 == d))))
    && (decide (1 < n) || ps.all (fun p => p.dualHome == 0))
    && dual.all (fun p => p.fsync != 0xFF && ((m.f.sensor? m.r p.sensor).map (fun q => q.ops.length == 1)).getD true)
    && m.scenes.all (fun a => dual.isEmpty || a.bankedOf.isSome || m.scenes.any (fun b => b.bankedOf == some a.no
          && dual.all (fun p => (m.pick b.layers).any (fun c => c.streams.contains p))))
    && m.scenes.all (fun b => b.bankedOf.isNone || !(m.pick b.layers).any (fun c => c.streams.any (fun p => p.dualHome == 2))
          || (m.pick b.layers).all (fun c => !(isSystemLayer c.l.id && c.l.nodes.any (fun k => k.slot / 1024 % 4 == back))))

/-! ### VEHICLE_INPUTS (R473, R499) -/

/-- A CAN port's settings. -/
def canFieldsOk (b : List Byte) (o : Nat) : Bool :=
  let g (k n : Nat) : Nat := leAt b (o + k) n
  (g 0 2 == 0 || (within 125 1000 (g 0 2) && within 500 5000 (g 2 2) && within 50 90 (g 4 1) && within 50 90 (g 5 1))) && decide (g 6 1 ≤ 1) && g 7 1 == 0

/-- The network header. -/
def netHeaderOk (b : List Byte) : Bool :=
  let g (o n : Nat) : Nat := leAt b o n
  let udp := beNat ((b.drop 6).take 2)
  let vlan := g 0x1C 4
  let vid (x : Nat) : Bool := decide (x % 4096 ≤ 4094)
  g 0 2 == 1 && decide (g 2 1 ≤ 32) && within 1 64 (g 3 1) && decide (g 4 1 ≤ 4) && decide (g 5 1 < 16) && (udp == 0 || decide (1024 ≤ udp))
    && g 8 1 % 2 == 0 && g 0x0E 1 % 2 == 0 && vlan / 4096 % 16 == 0 && vlan / 2 ^ 28 == 0 && vid vlan && vid (vlan / 65536)
    && canFieldsOk b 0x20 && canFieldsOk b 0x28 && allZero ((b.drop 0x38).take 8)

/-- A GPIO record. -/
def gpioOk (b : List Byte) : Bool :=
  let g (i : Nat) : Nat := leAt b i 1
  decide (g 0 ≤ 5) && (if g 0 == 2 then within 2 14 (g 1) else g 1 == 0) && (if g 0 == 1 then decide (1 ≤ g 2) else g 2 == 0)
    && decide (g 3 < 32) && decide (g 3 % 4 ≤ 2) && decide (g 3 / 4 % 4 ≤ 2)

/-- A vehicle-state record. -/
def vsRecOk (b : List Byte) : Bool :=
  let g (i n : Nat) : Nat := leAt b i n
  decide (g 0 1 ≤ 1) && decide (g 1 1 < 16) && within 1 10000 (g 2 2) && decide (g 4 4 < 2 ^ 29)
    && decide (g 8 1 ≤ 63) && decide (g 9 1 ≤ 7) && within 1 32 (g 0x0A 1) && g 0x0C 4 == 0
    && decide (g 8 1 + ceilDiv (g 9 1 + g 0x0A 1) 8 ≤ 64) && (!(g 1 1).testBit 3 || decide (g 0x0B 1 + 1 ≤ 63))

/-- An output-stream record, given the modes of the ports: Ethernet, then CAN. -/
def ChkImage.outOk (m : ChkImage) (ports : List Bool) (b : List Byte) : Bool :=
  let g (i n : Nat) : Nat := leAt b i n
  let t := g 0 2
  let can := decide (4 ≤ g 4 1)
  let own := t == 1 || t == 2
  (own || (decide (0x100 ≤ t) && decide (t ≤ 0xFFFE))) && (if own then g 2 2 == 0xFFFF else (m.layer? (g 2 2)).isSome)
    && decide (g 4 1 < 16) && decide (g 5 1 ≤ 7) && ((t == 1) == (g 5 1 == 7))
    && (List.range 4).all (fun k => !(g 4 1).testBit k || ports.getD k false)
    && within 1 (if can then 52 else 1436) (g 6 2) && g 0x14 4 / 2 ^ 29 % 4 == 0 && (!can || decide (1 ≤ g 0x18 1)) && allZero ((b.drop 0x19).take 7)

/-- R499. -/
def ChkImage.vehicleOk (m : ChkImage) : Bool :=
  let b := m.f.secBytes m.r 0x0F 0
  let nv := leAt b 2 1
  let gpio (i : Nat) : List Byte := (b.drop (0x40 + 4 * i)).take 4
  let fn (i : Nat) : Nat := leAt (gpio i) 0 1
  let outs := (List.range (leAt b 3 1)).map (fun i => (b.drop (0xC0 + 16 * nv + 32 * i)).take 32)
  let eth := leAt b 5 1
  let ports := [eth % 4 != 0, eth / 4 % 4 != 0, leAt b 0x20 2 != 0, leAt b 0x28 2 != 0]
  let vs := leAt b 0x30 8
  let rings := (m.layers.flatMap (·.l.rings)).filter (fun r => r.kind == 0)
  m.has 0x0F 0 && decide (0xC0 + 16 * nv + 32 * outs.length + 32 * leAt b 4 1 ≤ b.length) && netHeaderOk b && (List.range 32).all (fun i => gpioOk (gpio i))
    && (List.range nv).all (fun i => vsRecOk ((b.drop (0xC0 + 16 * i)).take 16)) && outs.all (m.outOk ports)
    && times (outs.map (fun o => leAt o 0 2)) 1 == 1 && decide (times (outs.map (fun o => leAt o 0 2)) 2 ≤ 1)
    && noRepeat (outs.map (fun o => (leAt o 0 2, leAt o 2 2)))
    && m.scenes.all (fun a => a.triggers.all (fun t => t.kind != 1 || (decide (t.source < 32) && fn t.source == 1)))
    && (m.f.sensors m.r).all (fun p => p.ops.all (fun o => leAt o 0 1 != 5 || fn (leAt o 1 1) == 3))
    && (vs == 0 || (vs % 512 == 0 && decide (addrFs ≤ vs) && decide (vs + 512 ≤ addrFs + fsBytes) && rings.all (fun r => !overlap r.bytes.1 r.bytes.2 vs 512)))

/-! ### The CHECK stage -/

/-- Every table check passes (R57, R58 and the "Image checks" of each chapter). -/
def Flash.tableChecks (f : Flash) (r : Nat) (env : CheckEnv) : Bool :=
  let m := f.chkImage r env
  m.graphOk && m.unitsOk && m.streamsOk && m.ispOk && m.emberOk && m.adaptOk && m.vehicleOk
    && (match env.device with
        | some d => m.systemOk d.1 d.2
        | none => true)

/-- The hardware that the CHECK stage sees. -/
def State.checkEnv (s : State) : CheckEnv :=
  { channels := some s.channels, device := some (s.device, s.deviceCount), links := some ((List.range 3).filter (fun k => (s.linkPartner k).isSome)),
    out := (s.units.filter (·.fenced)).map (·.code) ++ ((List.range 12).filter (fun g => s.groupOut (addrFs + g * 0x2000000))).map (fun g => 0x0E00 + 4 * g),
    otp := s.otp }

end Sys2Proof.Machine
end

