-- ==== Sys2Proof/Machine/Kindling.lean ====
section
/-! DEFINITION. Resets and the stages of kindling (spec/02). -/

namespace Sys2Proof.Machine

open Sys2Proof

/-! ### Resets (R35 to R38) -/

/-- PORST_N_ASSERT (R11, R36): the whole device takes its reset state; OTP, the attached flash and the inputs stay. -/
def execPorstNAssert (s : State) : Res :=
  let z := State.reset
  let pins : Pins := { z.pins with errInLow := s.pins.errInLow }
  let kin : Kindle := { z.kin with wrstLow := s.kin.wrstLow }
  .next { z with
    free := s.free
    otp := s.otp
    flash := { s.flash with skipped := [] }
    pins := pins
    kin := kin
    pending := s.pending }

/-- PORST_N_RELEASE (R35, R346): the straps are sampled, the Timeline starts at 0, and SI_START begins. -/
def execPorstNRelease (straps : BitVec 5) (s : State) : Res :=
  if !s.kin.porstLow then .next s
  else
    let a := Reg.GML_SYS
    let s := ((s.setFld a F.GML_SYS.DEVICE (straps.toNat % 4)).setFld a F.GML_SYS.COUNT (straps.toNat / 4 % 4)).setFld a F.GML_SYS.RING (straps.toNat / 16)
    let s : State := { s with now := 0 }
    .next ((s.modKin (fun k => { k with
      porstLow := false
      releasedAt := 0 })).setStage 1)

/-- A pulse on WRST_N counts as a warm reset (R35). -/
def wrstCounts (lowNs : Nat) : Bool := if lowNs < 200 then false else if 1000 ≤ lowNs then true else Config.wrstPulseCounts lowNs

/-- WRST_N_FALL (R35, R36): a low pulse of a length; one that counts starts a warm reset at its falling edge. -/
def execWrstNFall (lowNs : Nat) (s : State) : Res :=
  if s.kin.porstLow || s.kin.wrstLow || !wrstCounts lowNs then .next s
  else
    let s := s.modKin (fun k => { k with wrstLow := true })
    .next (s.warmReset F.SYS_RST_CAUSE.WRST false)

/-- WRST_N_RISE (R36): the core reset is released, unless the Safety Manager's 10 µs still run. -/
def execWrstNRise (s : State) : Res :=
  if !s.kin.wrstLow then .next s
  else
    let s := s.modKin (fun k => { k with wrstLow := false })
    if s.inWarmReset && s.resettable && s.kin.holdDue.isNone then .next s.releaseCore else .next s

/-- WARM_RESET_HOLD_END (R36): 10 µs after the Safety Manager's decision. -/
def execWarmResetHoldEnd (s : State) : Res :=
  match s.kin.holdDue with
  | none => .next s
  | some t =>
    let s := (s.reach t).modKin (fun k => { k with holdDue := none })
    if s.inWarmReset && !s.kin.wrstLow then .next s.releaseCore else .next s

/-- KINDLING_WATCHDOG_EXPIRY (R38): 3.0 s after HKC_START began. After three warm resets the recovery hold is entered. -/
def execKindlingWatchdogExpiry (s : State) : Res :=
  if decide (2 ≤ s.stage) && decide (s.stage ≤ 10) && s.resettable then
    let s := s.reach (s.kin.hkcStartAt + 3000000000)
    let s := s.log 0x1200 0x010C 3 0 0xFF s.regionNo noPos 0
    if decide (3 ≤ s.fld Reg.SYS_KIN_STATUS F.SYS_KIN_STATUS.WARM_COUNT) then .next (s.recoveryHold 0x0C)
    else .next (s.warmReset F.SYS_RST_CAUSE.WDT true)
  else .next s

/-! ### SI_START to IMAGE -/

/-- SI_SELF_TEST_DONE (R39): on success HEARTBEAT starts and HKC_START begins, once WRST_N is high. -/
def execSiSelfTestDone (pass : Bool) (s : State) : Res :=
  if s.stage != 1 || s.kin.siFailed then .next s
  else if pass then
    let s := (s.modPins (fun p => { p with heartbeat := true })).modSafety (fun f => { f with served := s.now })
    if s.kin.wrstLow then .next (s.setStage 0) else .next s.startKindling
  else .next (s.modKin (fun k => { k with siFailed := true }))

/-- HKC_SIGNATURE_CHECK (R41): before HKC_START ends; a failure holds the core in reset until PORST_N. -/
def execHkcSignatureCheck (pass : Bool) (s : State) : Res :=
  if s.stage != 2 || s.kin.hkcFailed then .next s
  else if pass then .next (s.setStage 3)
  else
    .next ((s.setFld Reg.SYS_KIN_STATUS F.SYS_KIN_STATUS.FAIL_CODE 0x07).modKin (fun k => { k with
      hkcFailed := true
      coreReset := true }))

/-- The first test of R49 that a region fails, with its code; the region of a device that did not answer has no image. -/
def State.regionTest (s : State) (r : Nat) : Option (Nat × Nat) :=
  if r == 0 && !s.flash.present0 then some (1, 0x01)
  else candidateTest s.flash s.otp (s.fld Reg.SYS_ID ⟨7, 0⟩) r

/-- Candidates in the order in which they are tried (R49). -/
def State.orderCandidates (s : State) (ok : List Nat) : List Nat :=
  match ok with
  | [a, b] => if seqNewer (s.flash.generation b) (s.flash.generation a) then [b, a] else [a, b]
  | l => l

/-- IMAGE_SELECT (R47, R49): discovery has answered and both regions have been read. -/
def execImageSelect (answers : BitVec 2) (size : Nat) (s : State) : Res :=
  if s.stage != 3 then .next s
  else
    let f : Flash := { s.flash with
      present0 := answers.getLsbD 0
      present1 := answers.getLsbD 1
      size := size }
    let s : State := { s with flash := f }
    if answers == 0 then .next (s.kindlingFail 0x0B 0 noPos)
    else
      let bad := [0, 1].filterMap (fun r => (s.regionTest r).map (fun t => (r, t)))
      let s := bad.foldl (fun (s : State) b => s.log 0x1100 0x0110 1 0 0xFF (b.1 + 1) b.2.2 0) s
      let ok := s.orderCandidates ([0, 1].filter (fun r => (s.regionTest r).isNone))
      match ok with
      | [] =>
        let code := match bad with
          | [a, b] => if decide (a.2.1 < b.2.1) then b.2.2 else a.2.2
          | _ => 0x01
        .next (s.kindlingFail code 0 noPos)
      | r :: _ =>
        let s := s.modKin (fun k => { k with
          candidates := ok
          firstGen := s.flash.generation r })
        .next (s.powerAll.setStage 4)

/-! ### BIST -/

/-- The Event Journal starts (R509). -/
def State.startJournal (s : State) : State :=
  let r : JRec := { ts := s.now, seq := 0, source := srcJournal, code := 0x0001, partition := 0, cls := 0, synced := s.locked, lostBefore := false,
                    remote := false, device := s.device, stream := 0xFF, arg0 := s.reg Reg.EJ_BOOT, arg1 := s.reg Reg.SYS_RST_CAUSE, arg2 := s.kin.firstGen }
  let on := !s.channels.isEmpty && s.trainingOver
  let s := s.modJournal (fun j => { j with
    started := true
    mirrorOn := on })
  (s.setFlag Reg.EJ_STATUS F.EJ_STATUS.MIRROR_ON on).enterRing r

/-- Quarters of the weight cache in service. -/
def State.wcFence (s : State) (qs : List Nat) : State :=
  let m := qs.eraseDups
  let w := (List.range 4).foldl (fun a q => a + (if m.contains q then 2 ^ q else 0)) 0
  let a := Reg.MC_WC_STATUS
  (s.setFld a F.MC_WC_STATUS.FENCED w).setFld a F.MC_WC_STATUS.WAYS (16 - 4 * m.length)

/-- Weight-cache quarters among the failed parts. -/
def failedQuarters (l : List BistOther) : List Nat :=
  (l.filterMap (fun o => match o with
    | .wcQuarter q => some q.val
    | _ => none)).eraseDups

/-- The failed parts end kindling (R40, R41). -/
def bistFatal (units : List Nat) (others : List BistOther) : Bool :=
  units.any (fun c => c / 256 == 0x0E)
    || others.any (fun o => match o with
        | .sequencer | .fabric | .outputFramer | .timeline | .nvm => true
        | _ => false)
    || (failedQuarters others).length == 4

/-- Units with a code that a table of this device gives. -/
def knownUnit (c : Nat) : Bool := maskCodes.contains c || otherCodes.contains c

/-- LOAD starts over for what LPDDR5X is left, when a controller falls out after it began (DEDUCED, log entry 32). -/
def State.restartLoad (s : State) : State :=
  if !s.trainingOver then s
  else if s.trainFailed then s.kindlingFail 0x08 s.regionNo noPos
  else
    let s : State := { s with flash := { s.flash with skipped := [] } }
    let s := s.modKin (fun k => { k with
      nextSection := 0
      loadDone := false
      checkDone := false
      booted := none })
    s.setStage 5

/-- FIRMWARE begins once CHECK has passed and BIST is complete. -/
def State.toFirmware (s : State) : State := if s.kin.checkDone && s.kin.bistDone then s.setStage 7 else s

/-- BIST_DONE (R40, R41, R509). -/
def execBistDone (units : List Half) (others : List BistOther) (s : State) : Res :=
  if s.kin.bistDone || !(decide (4 ≤ s.stage) && decide (s.stage ≤ 6)) then .next s
  else
    let us := ((units.map (·.toNat)).filter knownUnit).eraseDups
    let s := s.modKin (fun k => { k with bistDone := true })
    let ejBad := others.contains .journal
    let s := if ejBad then s.modJournal (fun j => { j with
        fenced := true
        queue := [] })
      else s.startJournal
    let hadMc := us.any (fun c => c / 256 == 0x0C && s.channels.contains (c % 256))
    let s := us.foldl (fun (s : State) c => s.kinFence c 1) s
    let s := s.modKin (fun k => { k with fencedCh := (k.fencedCh ++ (us.filter (fun c => c / 256 == 0x0C)).map (· % 256)).eraseDups })
    let s := s.wcFence (failedQuarters others)
    if bistFatal us others || (List.range 4).all (fun n => (s.unit (0x0B00 + n)).fenced) then .next (s.kindlingFail 0x07 s.regionNo noPos)
    else if hadMc && decide (5 ≤ s.stage) then .next s.restartLoad
    else if s.stage == 4 && s.trainingOver then
      if s.trainFailed then .next (s.kindlingFail 0x08 s.regionNo noPos) else .next s.startLoad
    else .next s.toFirmware

/-- LPDDR_TRAIN_DONE (R42): when every channel is known, LOAD begins. -/
def execLpddrTrainDone (ch : Fin 4) (pass : Bool) (mib : Half) (s : State) : Res :=
  let n := ch.val
  if s.stage != 4 || (s.kin.trainedCh ++ s.kin.fencedCh).contains n then .next s
  else
    let s := if pass then
        ((s.setFld (Reg.MC_STATUS n) F.MC_STATUS.STATE 2).setFld (Reg.MC_STATUS n) F.MC_STATUS.CAPACITY_MIB mib.toNat).modKin
          (fun k => { k with trainedCh := k.trainedCh ++ [n] })
      else (s.kinFence (0x0C00 + n) 1).modKin (fun k => { k with fencedCh := k.fencedCh ++ [n] })
    if !s.trainingOver then .next s
    else if s.trainFailed then .next (s.kindlingFail 0x08 s.regionNo noPos)
    else .next s.startLoad

/-! ### LOAD and CHECK (R49, R52, R53, R56, R58) -/

/-- Store a good section: in its load range, or the EMBER_CONFIG copy in Island SRAM (R424). -/
def State.loadSection (s : State) (r : Nat) (e : SecEnt) : State :=
  let b := s.flash.plain s.otp r e
  if loadsToLpddr e.type then s.store e.load b
  else if e.type == 0x0E then s.modSafety (fun f => { f with ember := { f.ember with cfg := b } })
  else s

/-- Skip an optional section: a warning when it failed a check, informational when its type is not listed (R52, R56). -/
def State.skipSection (s : State) (r : Nat) (e : SecEnt) (cls : Nat) : State :=
  let f : Flash := { s.flash with skipped := s.flash.skipped ++ [(r, e.pos)] }
  ({ s with flash := f }).log 0x1100 0x0111 cls 0 0xFF e.pos e.type e.index

/-- One section of the candidate has been streamed. -/
def State.takeSection (s : State) (r : Nat) (e : SecEnt) : State :=
  let more := s.modKin (fun k => { k with nextSection := k.nextSection + 1 })
  if !listedType e.type then more.skipSection r e 0
  else if s.flash.secOk s.otp r e then more.loadSection r e
  else if e.required then s.failCandidate 0x05 e.pos
  else more.skipSection r e 1

/-- The last section is in: CHECK begins. -/
def State.closeLoad (s : State) (n : Nat) : State :=
  if s.stage == 5 && decide (n ≤ s.kin.nextSection) then (s.modKin (fun k => { k with loadDone := true })).setStage 6 else s

/-- SECTION_LOADED (R52, R56): before the first section the section table is checked. -/
def execSectionLoaded (s : State) : Res :=
  match s.kin.candidates with
  | [] => .next s
  | r :: _ =>
    if s.stage != 5 || s.kin.loadDone then .next s
    else
      let es := s.flash.sections r
      if s.kin.nextSection == 0 && s.trainFailed then .next (s.kindlingFail 0x08 s.regionNo noPos)
      else if s.kin.nextSection == 0 && !s.flash.tableDigestOk r then .next (s.failCandidate 0x05 noPos)
      else if s.kin.nextSection == 0 && !s.flash.tableStructOk r (some s.lpBytes) then .next (s.failCandidate 0x06 noPos)
      else
        match es[s.kin.nextSection]? with
        | none => .next (s.closeLoad es.length)
        | some e => .next ((s.takeSection r e).closeLoad es.length)

/-- CHECK_STAGE (R57, R58): the candidate boots, or the next one is tried. -/
def execCheckStage (s : State) : Res :=
  match s.kin.candidates with
  | [] => .next s
  | r :: _ =>
    if s.stage != 6 || !s.kin.loadDone || s.kin.checkDone then .next s
    else if s.flash.tableChecks r s.checkEnv then
      let a := Reg.SYS_KIN_STATUS
      let s := s.modKin (fun k => { k with
        booted := some r
        checkDone := true })
      let s := (s.setFld a F.SYS_KIN_STATUS.REGION (r + 1)).setFlag a F.SYS_KIN_STATUS.FALLBACK (s.kin.tried != 0)
      .next ((s.setReg Reg.SYS_IMG_GEN (s.flash.generation r)).toFirmware)
    else .next (s.failCandidate 0x06 noPos)

/-! ### FIRMWARE (R233, R370) -/

/-- Copy one FIRMWARE section into the pairs it names, and zero its BSS. -/
def State.copyFirmware (s : State) (w : FwSec) : State :=
  let code := (s.flash.secBytes s.imgRegion 0x0A w.index).drop 32 |>.take w.codeBytes
  (List.range 4).foldl (fun (s : State) n =>
    if w.cores.testBit n && !(s.unit (0x0B00 + n)).fenced then
      let a := localBase n + w.loadOffset
      let s := s.store a code
      { s with mem := Memory.clear s.mem (a + w.codeBytes) w.bssBytes }
    else s) s

/-- Start Rymond on a pair. -/
def State.startPair (s : State) (w : FwSec) (n : Nat) : State :=
  if (s.unit (0x0B00 + n)).fenced || !w.cores.testBit n then s
  else
    let s := s.modCore n (fun c => { c with
      pc := w32 (w.loadOffset + w.entry)
      intEn := true
      halted := false })
    let s := s.modSafety (fun f => { f with hb := f.hb.set n s.now })
    s.showPair n

/-- The sensor runs of the four controllers: profiles below 0x100, in order (R43). -/
def State.sensorRuns (s : State) : List SeqRun :=
  let ps := s.flash.sensors s.imgRegion
  (List.range 4).map (fun b =>
    ⟨(List.range 0x100).filter (fun i => ps.any (fun p => p.id == i && p.bus == b)), 0, false, none, none, none⟩)

/-- FIRMWARE_STAGE: the SENSORS stage follows. -/
def execFirmwareStage (s : State) : Res :=
  if s.stage != 7 then .next s
  else
    let ws := s.flash.firmwares s.imgRegion
    let s := ws.foldl State.copyFirmware s
    let pat := s.flash.secBytes s.imgRegion 0x0D 0
    let s : State := { s with patterns := List.replicate 4 pat }
    let s := match ws.find? (fun w => w.index == 0) with
      | some w => [0, 1, 2, 3].foldl (fun (s : State) n => s.startPair w n) s
      | none => s
    let s := s.modKin (fun k => { k with
      firmwareDone := true
      seqs := s.sensorRuns })
    .next (s.initCams.setStage 8)

/-! ### BIND and VERIFY (R40, R43 to R45) -/

/-- BIND_STAGE: every sensor sequence has ended; the boot scene, or its variant, is bound and frames are counted. -/
def execBindStage (s : State) : Res :=
  if s.stage != 8 || !s.kin.seqs.all (fun r => r.profiles.isEmpty) then .next s
  else
    let s := (s.modKin (fun k => { k with sensorsDone := true })).setStage 9
    if s.baseAbsent then .next (s.kindlingFail 0x09 s.regionNo noPos)
    else
      match s.bootScene? with
      | none => .next (s.kindlingFail 0x07 s.regionNo noPos)
      | some n =>
        let rules := (s.flash.rules s.imgRegion).map (fun _ => (⟨false, 0⟩ : RuleSt))
        let s : State := { s with adapt := { s.adapt with rules := rules, evalAt := s.now, starvedAt := s.now } }
        let s := (s.bindScene n).serviceBank.assignGpio.coverAll
        let s := s.modKin (fun k => { k with
          bindDone := true
          verifyDue := some (s.now + 500000000) })
        .next (s.setStage 10)

/-- Every remaining pipe and engine has matched, and two Ember messages in a row were valid (R44). -/
def State.verifyMet (s : State) : Bool := s.verifyUnits.all s.kin.verified.contains && decide (2 ≤ s.safety.ember.validRun)

/-- VERIFY_PASS. -/
def execVerifyPass (s : State) : Res :=
  if s.stage == 10 && s.verifyMet then .next s.ready else .next s

/-- VERIFY_TIMEOUT (R45). -/
def execVerifyTimeout (s : State) : Res :=
  match s.kin.verifyDue with
  | some t => if s.stage == 10 && !s.verifyMet then .next ((s.reach t).kindlingFail 0x0A s.regionNo noPos) else .next s
  | none => .next s

/-! ### The NVM controller (R50) and reloads (R340, R342) -/

/-- Length of an erase or program command. -/
def nvmLen : NvmOp → Nat
  | .erase n => n
  | .program d => d.length

/-- The command addresses the booted region. -/
def State.hitsBooted (s : State) (cs addr len : Nat) : Bool :=
  match s.kin.booted with
  | none => false
  | some r =>
    let p := s.flash.region r
    p.1 == cs && overlap addr len p.2 s.flash.regionSize

/-- NVM_ERASE_PROGRAM_COMMAND: refused and journaled when it addresses the booted region, else carried out. -/
def execNvmEraseProgramCommand (cs : Fin 2) (opcode : Byte) (addr : Word) (op : NvmOp) (s : State) : Res :=
  let a := addr.toNat
  if s.hitsBooted cs.val a (nvmLen op) then .next (s.log 0x1900 0x0113 1 0 0xFF a opcode.toNat 0)
  else
    match op with
    | .erase n => .next { s with flash := s.flash.erase cs.val a n }
    | .program d => .next { s with flash := s.flash.program cs.val a d }

/-- SECTION_RELOAD_DONE (R340, R342, R437): the section's range has been filled, and fired patches are applied again. -/
def execSectionReloadDone (pos : Fin 1024) (s : State) : Res :=
  match (s.flash.live s.imgRegion).find? (fun e => e.pos == pos.val) with
  | none => .next s
  | some e =>
    if !s.mm.reloads.contains e.pos || s.mm.cinder.any (fun c => overlap c.base c.size e.load e.size) then .next s
    else
      let s := s.write e.load (s.flash.plain s.otp s.imgRegion e)
      let s : State := { s with mm := { s.mm with reloads := s.mm.reloads.filter (· != e.pos) } }
      .next (s.repatch e)

end Sys2Proof.Machine
end

