-- ==== Sys2Proof/Machine/Banked.lean ====
section
/-! DEFINITION. Adaptation rules, the thermal policy, power domains and the maintenance arbiter (spec/17, R432 to R444). -/

namespace Sys2Proof.Machine

open Sys2Proof

/-! ### Metrics (table "Metrics") -/

/-- A free value of 32 bits as a metric: the spec states no value for an empty period (log entry 35). -/
def State.drawMetric (s : State) : State × Option Int := (s.draw.2, some ((s.draw.1 % 2 ^ 32 : Nat) : Int))

/-- Time that units of a class have been held in the period, those held now included. -/
def State.classBusy (s : State) (c : Nat) : Nat :=
  let cu := classUnits c
  let held := (((List.range cu.2).map (fun n => s.unit (cu.1 + n))).filter (fun u => u.entry.isSome)).map (fun u => s.now - max u.since s.adapt.evalAt)
  (assocGet s.adapt.busy c).getD 0 + held.foldl (· + ·) 0

/-- Busy share of a class in ‰: of the units in service over the period (DEDUCED, log entry 35). -/
def State.busyShare (s : State) (c : Nat) : State × Option Int :=
  let cu := classUnits c
  let n := ((List.range cu.2).filter (fun i => !(s.unit (cu.1 + i)).fenced)).length
  let t := n * (s.now - s.adapt.evalAt)
  if t == 0 then s.drawMetric else (s, some ((1000 * s.classBusy c / t : Nat) : Int))

/-- The value of a rule's metric over the last evaluation period; none when its condition is false whatever it compares. -/
def State.metric (s : State) (q : RuleRec) : State × Option Int :=
  let a := s.adapt
  match q.metric with
  | 0 => s.busyShare q.select
  | 1 =>
    match (if q.select == 0 then a.slackSafety else a.slackOther) with
    | some x => (s, some (x / 1000))
    | none => s.drawMetric
  | 2 =>
    match s.hottest? with
    | some x => (s, some x)
    | none => s.drawMetric
  | 3 => (s, some ((match q.select with
    | 0 => a.corrFs
    | 1 => a.corrLp
    | _ => a.corrWc : Nat) : Int))
  | 4 => (s, some (a.misses : Int))
  | 5 =>
    match s.io.vs[q.select]? with
    | some e => (s, if e.stale then none else if (s.vsRec q.select).flags / 2 % 2 == 1 then some e.value.toInt else some (e.value.toNat : Int))
    | none => (s, none)
  | _ => if a.emberMsgs == 0 then s.drawMetric else (s, some ((1000 * a.emberInvalid / a.emberMsgs : Nat) : Int))

/-- THRESHOLD and CLEAR are signed. -/
def State.ruleSigned (s : State) (q : RuleRec) : Bool :=
  q.metric == 1 || q.metric == 2 || (q.metric == 5 && (s.vsRec q.select).flags / 2 % 2 == 1)

/-- COMPARE of a metric with a threshold or a clearing value. -/
def State.ruleHolds (s : State) (q : RuleRec) (v : Option Int) (t : Nat) : Bool :=
  let x : Int := if s.ruleSigned q then signed 32 t else (t : Int)
  match v with
  | none => false
  | some m => if q.compare == 2 then decide (x ≤ m) else decide (m < x)

/-! ### Evaluation (R436, R437) -/

/-- One evaluation of a rule's state: the new state, and whether it fired or cleared. -/
def RuleSt.next (r : RuleSt) (hold : Nat) (cond clear : Bool) : RuleSt × Bool :=
  let towards := if r.fired then !clear else cond
  if !towards then (⟨r.fired, 0⟩, false)
  else if decide (hold ≤ r.count + 1) then (⟨!r.fired, 0⟩, true)
  else (⟨r.fired, r.count + 1⟩, false)

/-- Evaluate rule n: its state, its record and its PMU_RULES bit; the rules that have changed are collected. -/
def State.evalRule (s : State) (n : Nat) (q : RuleRec) (changed : List Nat) : State × List Nat :=
  let r := s.adapt.rules.getD n ⟨false, 0⟩
  let m := s.metric q
  let s := m.1
  let x := r.next q.hold (s.ruleHolds q m.2 q.threshold) (s.ruleHolds q m.2 q.clear)
  let rules := s.adapt.rules.mapIdx (fun i y => if i == n then x.1 else y)
  let s : State := { s with adapt := { s.adapt with rules := rules } }
  if !x.2 then (s, changed)
  else
    let v := unsigned 32 (m.2.getD 0)
    let s := (s.event Reg.PMU_EVENT F.PMU_EVENT.RULE).log s.srcMaster 0x0803 0 0 0xFF n v (bit x.1.fired)
    (s.setFlag (Reg.PMU_RULES (n / 32)) ⟨n % 32, n % 32⟩ x.1.fired, changed ++ [n])

/-- Highest level set by a fired SHED rule. -/
def State.ruleLevel (s : State) : Nat := ((s.firedRules.filter (fun p => p.2.action == 1)).map (fun p => p.2.arg % 256)).foldl max 0

/-- A new evaluation period begins. -/
def State.newPeriod (s : State) : State :=
  { s with adapt := { s.adapt with
      busy := []
      slackSafety := none
      slackOther := none
      misses := 0
      corrFs := 0
      corrLp := 0
      corrWc := 0
      evalAt := s.now
      emberMsgs := 0
      emberInvalid := 0 } }

/-- The actions of the rules that have changed, and the triggers that read them (R76, R436, R437). -/
def State.actRules (s : State) (qs : List RuleRec) (changed : List Nat) : State :=
  let s := s.setLevel 1 s.ruleLevel
  let s := s.showMults
  let patches := (changed.filterMap (fun n => qs[n]?)).filter (fun q => q.action == 3)
  let s := patches.foldl (fun (s : State) q => s.applyPatch q.patch.1 q.patch.2.1) s
  changed.foldl (fun (s : State) n => s.evalTriggers 3 n) s

/-- ADAPT_EVAL (R436): paused from ACCEPT to OPEN of a switch. -/
def execAdaptEval (s : State) : Res :=
  if !s.running || s.scene.switch.isSome then .next s
  else
    let s := s.reach (s.adapt.evalAt + s.adaptLe 8 2 * 1000000)
    let qs := s.flash.rules s.imgRegion
    let p := qs.zipIdx.foldl (fun (p : State × List Nat) q => p.1.evalRule q.2 q.1 p.2) (s, [])
    .next (p.1.newPeriod.actRules qs p.2)

/-- STARVATION_LOWER (R435): an EVAL_MS has passed in which no checker was 80 ms untested. -/
def execStarvationLower (s : State) : Res :=
  let lv := s.fld Reg.PMU_SHED F.PMU_SHED.STARVE
  if lv == 0 || s.safety.selftests.any (fun t => t.starved) then .next s
  else
    let s := s.reach (s.adapt.starvedAt + s.adaptLe 8 2 * 1000000)
    let s := s.setLevel 2 (lv - 1)
    .next { s with adapt := { s.adapt with starvedAt := s.now } }

/-! ### The thermal policy (R438) -/

/-- NE clock in MHz at a step. -/
def neMhz (step : Nat) : Nat := ([1500, 1250, 1000, 750] : List Nat).getD step 750

/-- The NE step changes. -/
def State.setNeStep (s : State) (step : Nat) (h : Int) : State :=
  let old := s.fld Reg.NE_CLOCK F.NE_CLOCK.STEP
  let s := (s.event Reg.PMU_EVENT F.PMU_EVENT.THERMAL).log srcPmu 0x0804 1 0 0xFF old step (unsigned 32 h)
  let s := (s.setFld Reg.NE_CLOCK F.NE_CLOCK.STEP step).setFld Reg.NE_CLOCK F.NE_CLOCK.MHZ (neMhz step)
  s.setFld Reg.PMU_STATUS F.PMU_STATUS.NE_STEP step

/-- The hottest temperature has lain below threshold k less T_HYST for 1 s. -/
def State.cooled (s : State) (k : Nat) : Bool :=
  match s.adapt.coolSince.getD k none with
  | some t => decide (t + 1000000000 ≤ s.now)
  | none => false

/-- THERMAL_EVAL: one step of the policy, at most once per THERM_DWELL_MS. -/
def execThermalEval (s : State) : Res :=
  if !s.running then .next s
  else
    match s.hottest? with
    | none => .next s
    | some h =>
      let s := match s.adapt.thermAt with
        | some t => s.reach (t + s.adaptLe 0x10 2 * 1000000)
        | none => s
      let lv := s.fld Reg.PMU_SHED F.PMU_SHED.THERMAL
      let st := s.fld Reg.NE_CLOCK F.NE_CLOCK.STEP
      let top := s.adaptLe 5 1
      let acted (s : State) : State := { s with adapt := { s.adapt with thermAt := some s.now } }
      if decide (s.thermLimit 0 ≤ h) && decide (lv < top) then .next (acted (s.setLevel 0 (lv + 1)))
      else if lv == top && decide (st < 3) && decide (s.thermLimit (st + 1) ≤ h) then .next (acted (s.setNeStep (st + 1) h))
      else if decide (0 < st) && s.cooled st then .next (acted (s.setNeStep (st - 1) h))
      else if st == 0 && decide (0 < lv) && s.cooled 0 then .next (acted (s.setLevel 0 (lv - 1)))
      else .next s

/-! ### Power domains (R316, R441, R442) -/

/-- The units that have a domain among theirs. -/
def unitsOfDomain (d : Nat) : List Nat := (maskCodes ++ otherCodes).filter (fun u => (domainsOf u).contains d)

/-- The memory that a domain powers enters the cinder state: a tile's scratchpad. -/
def State.wakeMemory (s : State) (d : Nat) : State :=
  if decide (d < 48) && d % 3 == 2 then s.cinderNow (addrSpm + d / 3 * 0x800000) spmBytes else s

/-- A unit whose domains are all in service is no longer gated. -/
def State.ungate (s : State) (code : Nat) : State :=
  if (s.unit code).fenced || !(domainsOf code).all s.domainOn then s
  else s.modUnit code (fun u => { u with gated := false, since := s.now })

/-- DOMAIN_POWER_UP_DONE (R441): four domains ramp at once, in the order of the requests. -/
def execDomainPowerUpDone (dom : Fin 188) (s : State) : Res :=
  let d := dom.val
  if !(s.mm.powerReq.take 4).contains d then .next s
  else
    let s : State := { s with mm := { s.mm with powerReq := s.mm.powerReq.filter (· != d) } }
    let s := (s.setDomain true d).wakeMemory d
    .next ((unitsOfDomain d).foldl State.ungate s)

/-- The journal is lost until kindling: its domain is gated and its records with it (R431). -/
def State.fenceJournal (s : State) : State :=
  (s.setDomain false 185).modJournal (fun j => { j with
    fenced := true
    mirrorOn := false })

/-- A quarter of the weight cache is fenced (R324): its ways leave every set. The last one is severe. -/
def State.fenceQuarter (s : State) (q : Nat) : State :=
  let old := s.fld Reg.MC_WC_STATUS F.MC_WC_STATUS.FENCED
  let qs := (List.range 4).filter (fun i => old / 2 ^ i % 2 == 1 || i == q)
  let s := (s.wcFence qs).setDomain false (124 + q)
  let s : State := { s with mm := { s.mm with wcLines := [] } }
  if qs.length == 4 then s.severe 18 0x1A00 else s

/-- What a domain fault does: the domain's units are fenced; the parts that cannot be banked are severe, cause 18. -/
def State.failDomain (s : State) (d : Nat) : State :=
  if d == 168 then s.severe 18 0x1000
  else if decide (169 ≤ d) && decide (d ≤ 184) then s.severe 18 0x1A00
  else if d == 186 then s.severe 18 0x1800
  else if d == 185 then s.fenceJournal
  else if decide (124 ≤ d) && decide (d ≤ 127) then s.fenceQuarter (d - 124)
  else
    let us := unitsOfDomain d
    if us.isEmpty then s.setDomain false d else us.foldl (fun (s : State) u => s.fence u 4) s

/-- DOMAIN_FAULT (R441). -/
def execDomainFault (dom : Fin 188) (s : State) : Res :=
  let d := dom.val
  let on := s.domainOn d
  let s := (s.event Reg.PMU_EVENT F.PMU_EVENT.DOMAIN_FAULT).log srcPmu 0x0807 1 0 0xFF d (bit on) (bit (!on))
  .next (s.failDomain d)

/-- The domains that idle gating takes from a unit: a tile keeps its scratchpad. -/
def idleDomains (code : Nat) : List Nat := if code / 256 == 8 then [3 * (code % 256), 3 * (code % 256) + 1] else domainsOf code

/-- IDLE_GATE (R442). -/
def execIdleGate (unit : Half) (s : State) : Res :=
  let c := unit.toNat
  let u := s.unit c
  let ms := s.adaptLe 0x16 2
  if decide (3 ≤ c / 256) && decide (c / 256 ≤ 8) && maskCodes.contains c && ms != 0 && s.running && !u.fenced && !u.gated
      && u.entry.isNone && u.heldBy.isNone && !s.safetyUnit c then
    let s := s.reach (u.since + ms * 1000000)
    .next (((idleDomains c).foldl (State.setDomain · false ·) s).modUnit c (fun u => { u with gated := true }))
  else .next s

/-- A ready instance that may use the unit finds no other one free (R99, R442). -/
def State.wanted (s : State) (code : Nat) : Bool :=
  s.fgs.insts.any (fun i => (i.st == .ready || i.st == .rerun) && (match s.node? i.node with
    | some n => (s.unitsOf n).contains code && (s.freeUnitsOf n).isEmpty
    | none => false))

/-- IDLE_WAKE (R442). -/
def execIdleWake (unit : Half) (s : State) : Res :=
  let c := unit.toNat
  let u := s.unit c
  if u.gated && !u.fenced && s.wanted c && (c / 256 != 8 || s.domainOn (3 * (c % 256) + 2)) then
    .next (((idleDomains c).foldl (State.setDomain · true ·) s).ungate c)
  else .next s

/-! ### The maintenance arbiter (R443, R444) -/

/-- Interval of a periodic activity in ns: retraining and calibration; a scrub is back to back. -/
def State.periodOf (s : State) (a : Nat) : Option Nat :=
  match actClass a with
  | 2 => some 0
  | 3 => some (s.adaptLe 0x12 2 * 1000000000)
  | 4 => some (s.adaptLe 0x14 2 * 1000000000)
  | _ => none

/-- MAINT_PERIOD_EXPIRY (R443). -/
def execMaintPeriodExpiry (act : Half) (s : State) : Res :=
  let a := act.toNat
  match s.periodOf a with
  | none => .next s
  | some p =>
    if !s.running || !s.actKnown a then .next s
    else
      let s := match assocGet s.maint.last a with
        | some t => s.reach (t + p)
        | none => s
      let s : State := { s with maint := { s.maint with last := assocPut s.maint.last a s.now } }
      .next (s.requestAct a)

/-- MAINT_REQUEST (R444). -/
def execMaintRequest (act : Half) (s : State) : Res := .next (s.requestAct act.toNat)

/-- The ECC outcomes that the scrub of a bank group met (R303, R304): no Domain ID reads for it. -/
def State.scrubbed (s : State) (a : Nat) (ecc : List EccHit) : State :=
  if actClass a == 2 then
    (s.eccHits ⟨0x0E00 + 4 * (a % 256), 0, false⟩ 0 (ecc.filter (fun h => inRange h.addr (addrFs + a % 256 * 0x2000000) 0x2000000))).1
  else s

/-- MAINT_ACTIVITY_END (R444): the end of a self-test slice is SELFTEST_SLICE_END. -/
def execMaintActivityEnd (act : Half) (ecc : List EccHit) (s : State) : Res :=
  let a := act.toNat
  if actClass a == 1 then .next s
  else
    match s.maint.running.find? (fun r => r.1 == a) with
    | none => .next s
    | some r => .next ((s.endAct a r.2).scrubbed a ecc).scanMaint

/-- Change a queued request. -/
def State.modReq (s : State) (a : Nat) (f : MaintReq → MaintReq) : State :=
  { s with maint := { s.maint with queue := s.maint.queue.map (fun (q : MaintReq) => if q.act == a then f q else q) } }

/-- MAINT_RESERVE (R444): a request has been queued for 10 ms. -/
def execMaintReserve (act : Half) (s : State) : Res :=
  match s.maint.queue.find? (fun q => q.act == act.toNat) with
  | none => .next s
  | some q => if q.reserved then .next s else .next ((s.reach (q.at' + 10000000)).modReq q.act (fun x => { x with reserved := true }))

/-- The resource that a record names: a unit code, or a sensor's monitor number (DEDUCED, log entry 33). -/
def actNamed (a : Nat) : Nat :=
  match actClass a with
  | 1 => (actTest a).2
  | 2 => 0x0E00 + 4 * (a % 256)
  | 4 => 0x10 + a % 256
  | _ => 0x0C00 + a % 256

/-- The deadline of a queued request, where a rule gives one. -/
def State.actDue (s : State) (q : MaintReq) : Option Nat :=
  match actClass q.act with
  | 1 => (s.selftest? (actTest q.act).1 (actTest q.act).2).map (fun t => t.last + 100000000)
  | 3 | 4 => (s.periodOf q.act).map (fun p => (assocGet s.maint.last q.act).getD q.at' + p)
  | _ => none

/-- MAINT_OVERDUE (R444): the time overdue is a free value where no rule gives the activity a deadline. -/
def execMaintOverdue (act : Half) (s : State) : Res :=
  match s.maint.queue.find? (fun q => q.act == act.toNat) with
  | none => .next s
  | some q =>
    if q.overdue then .next s
    else
      let due := s.actDue q
      let s := match due with
        | some t => s.reach t
        | none => s
      let p : Nat × State := match due with
        | some t => ((s.now - t) / 1000000, s)
        | none => s.draw
      let s := (p.2.event Reg.PMU_EVENT F.PMU_EVENT.MAINT_OVERDUE).log srcPmu 0x0806 1 0 0xFF (actClass q.act) (actNamed q.act) p.1
      .next (s.modReq q.act (fun x => { x with overdue := true }))

end Sys2Proof.Machine
end

