-- ==== Sys2Proof/Machine/Camera.lean ====
section
/-! DEFINITION. The commands of the Camera Front End (spec/05): packets, pulses, missed frames, lanes and sensor control. -/

namespace Sys2Proof.Machine

open Sys2Proof

/-! ### Reception (R117, R121 to R125) -/

/-- A counted frame opens (R121, R122, R131, R145). -/
def State.openFrame (s : State) (p : StreamRec) (c : StreamSt) (late : Bool) : State :=
  let seq := c.next
  let e := c.epochOf seq
  let path := s.pathOf p c
  let fl := (if late then flLate else 0) ||| (if e.2 then flEpoch else 0) ||| (if (s.port p.port).reduced then flReduced else 0)
  let s := s.assignSeq p c s.now
  let f : CamFrame :=
    { seq := some seq, ts := s.now, path := path, flags := fl, lineFlags := [], lines := 0, discarded := 0, crcs := 0, cuts := 0, epoch := e.1
      embSeen := false, lastPkt := s.now, lastLine := [], staged := none }
  let s := s.modCam p.stream (fun c => { c with
    frame := some f
    window := some (seq, f.ts)
    lastFs := some f.ts
    used := true
    counting := true
    fresh := if p.fsync == 0xFF then false else c.fresh })
  let s := match path, c.layer with
    | 1, some l =>
      if (s.unit (0x0200 + p.isp)).fenced then s
      else (s.preemptStaged p.isp).startFrame p l seq f.ts none (inputFlagged fl) [] [] false
    | _, _ => s
  s.emberStart p.stream seq f.ts p.width

/-- A frame that takes no sequence number opens: it is checked and discarded (R120, R121). -/
def State.openUncounted (s : State) (p : StreamRec) : State :=
  let f : CamFrame :=
    { seq := none, ts := s.now, path := 3, flags := 0, lineFlags := [], lines := 0, discarded := 0, crcs := 0, cuts := 0, epoch := 0
      embSeen := false, lastPkt := s.now, lastLine := [], staged := none }
  s.modCam p.stream (fun c => { c with frame := some f })

/-- CSI_FRAME_START (R121). -/
def execCsiFrameStart (port : Fin 4) (vc : Fin 16) (s : State) : Res :=
  if !s.portOn port.val then .next s
  else
    match s.rxStream? port.val vc.val with
    | none => .next (s.rxDiscard port.val F.CFE_PORT_ERR.UNUSED_VC)
    | some (p, _) =>
      let s := ((s.abortInjection p).closeFrame p (flFrameShort ||| flFeMissing) false).settleOwed p
      match s.cam? p.stream with
      | none => .next s
      | some c =>
        if p.fsync == 0xFF then
          let late := match c.lastFs with
            | some t => decide (t + p.periodNs + p.lateNs < s.now)
            | none => false
          if s.kin.bindDone then .next (s.openFrame p c late)
          else .next ((s.openUncounted p).modCam p.stream (fun c => { c with lastFs := some s.now }))
        else
          match c.pulse with
          | some t =>
            if !c.counting then .next (s.openUncounted p)
            else if c.used then .next ((s.rxDiscard port.val F.CFE_PORT_ERR.EXTRA_FRAME).openUncounted p)
            else .next (s.openFrame p c (decide (t + p.lateNs < s.now)))
          | none => .next (s.openUncounted p)

/-- The flags of the bands that a line takes part in. -/
def State.markLine (s : State) (p : StreamRec) (seq : Word) (y fl : Nat) : State :=
  if fl == 0 then s
  else
    let s := s.modCam p.stream (fun c => { c with frame := c.frame.map (fun f => { f with lineFlags := f.lineFlags ++ [(y, fl)] }) })
    s.modFrame p.isp p.stream seq (fun x => { x with marked := x.marked ++ [y] })

/-- One image line of an open frame: checked, repaired, flagged and stored (R123, R133, R146, R160, R310). -/
def State.takeLine (s : State) (p : StreamRec) (c : StreamSt) (f : CamFrame) (seq : Word) (crcOk : Bool) (data : List Byte) (fault : LineFault) : State :=
  let y := f.lines
  if p.height ≤ y then
    let s := s.modCam p.stream (fun c => { c with frame := c.frame.map (fun f => { f with discarded := f.discarded + 1 }) })
    s.raiseFrame p flFrameLong
  else
    let q := fitLine p.dataType p.padValue p.width (unpackLine p.dataType data)
    let isOver := fault == .overrun && f.path == 1
    let fl := q.2 ||| (if crcOk then 0 else flCrc) ||| (if isOver then flLineShort else 0)
    let src := (s.sensorOf? p.stream).map (·.epochSource)
    let s := if y == 0 && !f.embSeen && src == some 1 then s.raiseFrame p flEmb else s
    let s := match f.path, c.layer with
      | 2, some l => if y == 0 then s.stageFrame p l seq else s
      | _, _ => s
    let s := match f.path, s.frame? p.isp p.stream seq with
      | 1, some x => s.beginLine p.isp x y
      | _, _ => s
    let s := s.putLine p seq y q.1
    let s := if isOver then
        (((s.modFrame p.isp p.stream seq (fun x => { x with lines := padLine p.dataType p.padValue p.width :: x.lines.drop 1 })).event
          (Reg.ISP_ERR p.isp) F.ISP_ERR.OVERRUN).addCnt (Reg.ISP_CNT p.isp 2) 1)
      else s
    let s := s.modCam p.stream (fun c => { c with frame := c.frame.map (fun f => { f with
      lines := y + 1
      crcs := f.crcs + (if crcOk then 0 else 1)
      cuts := f.cuts + (if q.2 != 0 || isOver then 1 else 0)
      lastLine := q.1 }) })
    let s := s.markLine p seq y fl
    match fault, f.path, s.frame? p.isp p.stream seq with
    | .parity, 1, some x => s.ispParity p.isp x y p.height
    | _, _, _ => s

/-- A packet of an open frame restarts its stall watch (R123). -/
def State.touchFrame (s : State) (stream : Nat) : State :=
  s.modCam stream (fun c => { c with frame := c.frame.map (fun f => { f with lastPkt := s.now }) })

/-- Before a long packet is looked at: its header (R117). True when the packet is lost. -/
def State.takeHeader (s : State) (port : Nat) (hdr : CsiHeader) : State × Bool :=
  match hdr with
  | .good => (s, false)
  | .corrected => (s.headerCorrected port, false)
  | .lost => (s.headerLost port, true)

/-- CSI_LONG_PACKET (R123): a long packet that is not embedded data. -/
def execCsiLongPacket (port : Fin 4) (vc : Fin 16) (dt : Byte) (hdr : CsiHeader) (crcOk : Bool) (data : List Byte) (fault : LineFault) (s : State) : Res :=
  if !s.portOn port.val then .next s
  else
    let (s, lost) := s.takeHeader port.val hdr
    if lost then .next s
    else
      match s.rxStream? port.val vc.val with
      | none => .next (s.rxDiscard port.val F.CFE_PORT_ERR.UNUSED_VC)
      | some (p, _) =>
        let s := s.abortInjection p
        let s := if crcOk then s else s.crcFailed port.val
        let s := s.touchFrame p.stream
        if dt.toNat != p.dataType then .next ((s.rxDiscard port.val F.CFE_PORT_ERR.DT_MISMATCH).raiseFrame p flDt)
        else
          match s.cam? p.stream with
          | none => .next s
          | some c =>
            match c.frame, c.frame.bind (·.seq) with
            | some f, some seq => .next (s.takeLine p c f seq crcOk data fault)
            | _, _ => .next s

/-- CSI_EMBEDDED_PACKET (R133): the first embedded data packet of a frame, before its first image line, supplies its epoch. -/
def execCsiEmbeddedPacket (port : Fin 4) (vc : Fin 16) (hdr : CsiHeader) (crcOk : Bool) (data : List Byte) (s : State) : Res :=
  if !s.portOn port.val then .next s
  else
    let (s, lost) := s.takeHeader port.val hdr
    if lost then .next s
    else
      match s.rxStream? port.val vc.val with
      | none => .next (s.rxDiscard port.val F.CFE_PORT_ERR.UNUSED_VC)
      | some (p, _) =>
        let s := s.abortInjection p
        let s := if crcOk then s else s.crcFailed port.val
        let s := s.touchFrame p.stream
        if !p.embedded then .next (s.addCnt (Reg.CFE_PORT_CNT port.val 3) 1)
        else
          match s.cam? p.stream, s.sensorOf? p.stream with
          | some c, some q =>
            match c.frame, c.frame.bind (·.seq) with
            | some f, some seq =>
              if f.embSeen then .next s
              else
                let s := s.modCam p.stream (fun c => { c with frame := c.frame.map (fun f => { f with embSeen := true }) })
                if q.epochSource != 1 || decide (0 < f.lines) then .next s
                else
                  let raw := (data.drop q.epochOffset).take q.epochWidth
                  let (v, s) := if raw.length < q.epochWidth then s.draw else (raw.foldl (fun a b => a * 256 + b.toNat) 0, s)
                  let r := embEpoch (c.epochOf seq).1 (s.reg (Reg.CFE_STREAM_EPOCH p.stream)) q.epochWidth v
                  let s := s.modCam p.stream (fun c => { c with frame := c.frame.map (fun f => { f with epoch := r.1 }) })
                  .next (if r.2 == 0 then s else s.raiseFrame p r.2)
            | _, _ => .next s
          | _, _ => .next s

/-- CSI_FRAME_END (R123). -/
def execCsiFrameEnd (port : Fin 4) (vc : Fin 16) (s : State) : Res :=
  if !s.portOn port.val then .next s
  else
    match s.rxStream? port.val vc.val with
    | none => .next (s.rxDiscard port.val F.CFE_PORT_ERR.UNUSED_VC)
    | some (p, _) => .next (s.closeFrame p 0 true)

/-- MISSED_FRAME (R121): the window of a pulse has ended without a Frame Start; the next pulse instant is reached. -/
def execMissedFrame (stream : Fin 24) (s : State) : Res :=
  match s.streamRec? stream.val, s.cam? stream.val with
  | some p, some c =>
    match c.owed, c.pulse with
    | some t, _ => .next (s.recordMissed p t)
    | none, some t =>
      if c.counting && !c.used then
        .next (((s.reach (nextPulse p.periodNs p.fsyncOffsetNs t)).recordMissed p t).modCam stream.val (fun c => { c with used := true }))
      else .next s
    | none, none => .next s
  | _, _ => .next s

/-- FRAME_STALL_TIMEOUT (R123). -/
def execFrameStallTimeout (stream : Fin 24) (s : State) : Res :=
  match s.streamRec? stream.val, (s.cam? stream.val).bind (·.frame) with
  | some p, some f => .next ((s.reach (f.lastPkt + p.periodNs)).closeFrame p (flFrameShort ||| flFeMissing ||| flStall) true)
  | _, _ => .next s

/-! ### Triggers (R120, R121, R135, R136) -/

/-- The FSYNC outputs are held inactive (R136). -/
def State.fsyncHeld (s : State) : Bool :=
  let st := s.fld Reg.SYS_KIN_STATUS F.SYS_KIN_STATUS.STATE
  s.safety.severe.isSome || st == 13 || st == 14

/-- A pulse instant reaches a triggered stream: its count may start, and the window before it ends (R120, R121). -/
def State.pulseAt (s : State) (p : StreamRec) (t : Nat) : State :=
  s.modCam p.stream (fun c =>
    if c.counting then { c with owed := if c.used then c.owed else c.pulse, pulse := some t, used := false }
    else if s.kin.bindDone then { c with counting := true, pulse := some t, used := false }
    else c)

/-- Change an FSYNC output. -/
def State.modFsync (s : State) (n : Nat) (f : FsyncSt → FsyncSt) : State :=
  { s with cam := { s.cam with fsync := s.cam.fsync.mapIdx (fun i x => if i == n then f x else x) } }

/-- FSYNC_EDGE (R135): an output reaches its next pulse instant; after a Timeline step an edge that would come too early is
dropped and journaled (R136). -/
def execFsyncEdge (out : Fin 4) (s : State) : Res :=
  let ps := (s.flash.usedStreams s.imgRegion).filter (fun p => p.fsync == out.val && !s.kin.absentStreams.contains p.stream)
  match s.cam.fsync[out.val]?, (s.flash.usedStreams s.imgRegion).find? (fun p => p.fsync == out.val) with
  | some f, some p0 =>
    if !f.enabled then .next s
    else
      let t := nextPulse p0.periodNs p0.fsyncOffsetNs (f.last.getD s.now)
      let s := s.reach t
      let early := match f.last with
        | some l => f.stepped && decide (2 * (t - l) < p0.periodNs)
        | none => false
      if early then
        .next ((s.log 0x1400 0x0404 1 0 0xFF out.val t 0).modFsync out.val (fun x => { x with last := some t, driven := false, stepped := false }))
      else
        let s := s.setReg (Reg.CFE_FSYNC_COUNT out.val) (s.reg (Reg.CFE_FSYNC_COUNT out.val) + 1)
        let s := s.modFsync out.val (fun x => { x with last := some t, driven := !s.fsyncHeld, stepped := false })
        let s := ps.foldl (fun s p => s.settleOwed p) s
        .next (ps.foldl (fun s p => s.pulseAt p t) s)
  | _, _ => .next s

/-- An FSYNC output is at its active level: within WIDTH_US of a pulse that drove it (R135, R136). -/
def State.fsyncActive (s : State) (n : Nat) : Bool :=
  match s.cam.fsync[n]? with
  | some f =>
    f.enabled && f.driven && !s.fsyncHeld && (match f.last with
      | some t => decide (s.now < t + s.fld (Reg.CFE_FSYNC_CTRL n) F.CFE_FSYNC_CTRL.WIDTH_US * 1000)
      | none => false)
  | none => false

/-! ### Lanes (R137, R138) -/

/-- Number of lanes in a mask. -/
def laneCount (m : BitVec 4) : Nat := ((List.range 4).filter (fun i => m.getLsbD i)).length

/-- The lowest-numbered n lanes of a mask. -/
def lowestLanes : Nat → Nat → BitVec 4 → BitVec 4
  | 0, _, _ => 0
  | fuel + 1, n, m =>
    let i := 3 - fuel
    if n == 0 then 0
    else if m.getLsbD i then BitVec.ofNat 4 (2 ^ i) ||| lowestLanes fuel (n - 1) m
    else lowestLanes fuel n m

/-- Show a port's lanes. -/
def State.showLanes (s : State) (port : Nat) : State :=
  let q := s.port port
  let a := Reg.CFE_PORT_STATUS port
  (s.setFld a F.CFE_PORT_STATUS.LANES (laneCount q.lanes)).setFld a F.CFE_PORT_STATUS.LANE_FAIL q.failing.toNat

/-- The streams of a port. -/
def State.portStreams (s : State) (port : Nat) : List StreamRec := (s.flash.usedStreams s.imgRegion).filter (fun p => p.port == port)

/-- LANE_FAILING (R137): reception stops, open frames close, and the reduction sequence starts; or the port is fenced (R138). -/
def execLaneFailing (port : Fin 4) (mask : BitVec 4) (s : State) : Res :=
  let n := port.val
  let q := s.port n
  let bad := mask &&& q.lanes &&& ~~~q.failing
  if !s.portOn n || bad == 0 then .next s
  else
    let s := (s.modPort n (fun x => { x with failing := x.failing ||| bad })).showLanes n
    let ps := s.portStreams n
    let s := ps.foldl (fun s p => s.closeFrame p (flFrameShort ||| flFeMissing) true) s
    let good := laneCount (q.lanes &&& ~~~(q.failing ||| bad))
    let used := laneCount q.lanes
    let fits (k : Nat) : Bool := decide (k < used) && decide (k ≤ good) && ps.all (fun p => decide (p.lanesMin ≤ k))
    match ([2, 1].find? fits), ps.head? with
    | some k, some p =>
      let id := p.sensor + (if k == 2 then 0x100 else 0x200)
      match s.flash.sensor? s.imgRegion id with
      | some r =>
        let s := (s.setFld (Reg.CFE_PORT_STATUS n) F.CFE_PORT_STATUS.STATE 2).modPort n (fun x => { x with target := k })
        .next { s with kin := { s.kin with seqs := s.kin.seqs.mapIdx (fun i q => if i == r.bus then { q with profiles := q.profiles ++ [id] } else q) } }
      | none => .next (s.fence (0x0100 + n) 3)
    | _, _ => .next (s.fence (0x0100 + n) 3)

/-- LANE_REDUCTION_DONE (R137): the sequence has ended and the lowest-numbered healthy lanes are mapped and deskewed, or the port is
fenced. -/
def execLaneReductionDone (port : Fin 4) (pass : Bool) (s : State) : Res :=
  let n := port.val
  let q := s.port n
  let id := ((s.portStreams n).head?.map (fun p => p.sensor + (if q.target == 2 then 0x100 else 0x200))).getD 0
  let busy := s.kin.seqs.any (fun r => r.profiles.contains id)
  if s.fld (Reg.CFE_PORT_STATUS n) F.CFE_PORT_STATUS.STATE != 2 || (busy && pass) then .next s
  else if pass then
    let s := s.modPort n (fun x => { x with lanes := lowestLanes 4 x.target (x.lanes &&& ~~~x.failing), reduced := true })
    let s := (s.showLanes n).setFld (Reg.CFE_PORT_STATUS n) F.CFE_PORT_STATUS.STATE 1
    .next (s.log (0x0100 + n) 0x0403 1 0 0xFF q.failing.toNat q.target 0)
  else
    let s := { s with kin := { s.kin with seqs := s.kin.seqs.map (fun (r : SeqRun) => { r with profiles := r.profiles.filter (· != id) }) } }
    .next (s.fence (0x0100 + n) 3)

/-- CSI_DESKEW_COMPLETE (R137): kindling brings a link up; its receiving lanes become the lanes in use. -/
def execCsiDeskewComplete (port : Fin 4) (lanes : BitVec 4) (s : State) : Res :=
  let n := port.val
  let k := laneCount lanes
  if s.fld Reg.SYS_KIN_STATUS F.SYS_KIN_STATUS.STATE != 8 || s.fld (Reg.CFE_PORT_STATUS n) F.CFE_PORT_STATUS.STATE != 0
      || !(k == 1 || k == 2 || k == 4) then .next s
  else .next (((s.modPort n (fun _ => ⟨lanes, 0, 0, false⟩)).showLanes n).setFld (Reg.CFE_PORT_STATUS n) F.CFE_PORT_STATUS.STATE 1)

/-! ### Sensor control (R129 to R134) -/

/-- IBI_RECEIVED (R129): an in-band interrupt is refused and counted, and shown on the ports whose streams the bus serves. -/
def execIbiReceived (bus : Fin 4) (s : State) : Res :=
  let s := { s with cam := { s.cam with ibis := s.cam.ibis.mapIdx (fun i n => if i == bus.val then n + 1 else n) } }
  .next ((List.range 4).foldl (fun s n =>
    if (s.portStreams n).any (fun p => ((s.sensorOf? p.stream).map (·.bus)) == some bus.val) then s.event (Reg.CFE_PORT_ERR n) F.CFE_PORT_ERR.IBI else s) s)

/-- A copied batch becomes the pending batch of its stream; one that has not started is replaced (R130). -/
def State.copyDone (s : State) (bus : Nat) : State :=
  match s.cam.copying.getD bus none with
  | none => s
  | some b =>
    let s := { s with cam := { s.cam with copying := s.cam.copying.mapIdx (fun i x => if i == bus then none else x) } }
    (s.modCam b.stream (fun c => { c with batch := some b })).showBatch bus b.stream 2 0

/-- I3C_BATCH_GO (R130). -/
def execI3cBatchGo (bus : Fin 4) (domain : BitVec 4) (value : Word) (s : State) : Res :=
  let n := bus.val
  let st := F.CFE_I3C_BATCH_GO.STREAM.get value
  let count := F.CFE_I3C_BATCH_GO.COUNT.get value
  let addr := (s.reg (Reg.CFE_I3C_BATCH_LO n)).toNat / 8 * 8 + (s.reg (Reg.CFE_I3C_BATCH_HI n)).toNat % 1024 * 2 ^ 32
  let ops := (List.range count).map (fun i => Memory.bytes s.mem (addr + 8 * i) 8)
  let q := s.sensorOf? st
  let layer := ((s.cam? st).bind (·.layer)).bind s.layer?
  let code : Nat :=
    if layer.isNone || s.kin.absentStreams.contains st then 3
    else if (q.map (·.bus)) != some n then 3
    else if (layer.map (fun l => l.rc.partition)) != some domain.toNat then 4
    else if count == 0 || decide (64 < count) || !ops.all writeOpOk then 2
    else if decide ((q.map (·.windowLenUs)).getD 0 * 1000 < s.batchTime ⟨st, ops⟩) then 6
    else 0
  let a := Reg.CFE_I3C_BATCH_STATUS n
  let s := s.copyDone n
  let s := (s.setFld a F.CFE_I3C_BATCH_STATUS.STREAM st).setFld a F.CFE_I3C_BATCH_STATUS.RESULT code
  let s := s.setFld a F.CFE_I3C_BATCH_STATUS.STATE (if code == 0 then 1 else 0)
  .next { s with cam := { s.cam with
    lastGo := s.cam.lastGo.mapIdx (fun i x => if i == n then (if code == 0 then some st else none) else x)
    copying := if code == 0 then s.cam.copying.mapIdx (fun i x => if i == n then some ⟨st, ops⟩ else x) else s.cam.copying } }

/-- I3C_BATCH_COPY_DONE (R130). -/
def execI3cBatchCopyDone (bus : Fin 4) (s : State) : Res := .next (s.copyDone bus.val)

/-- BATCH_TRANSFER_START (R131): the lowest-numbered stream of the bus whose batch fits its open window starts, and takes its
epoch. -/
def execBatchTransferStart (stream : Fin 24) (s : State) : Res :=
  match s.cam? stream.val, s.sensorOf? stream.val with
  | some c, some q =>
    match c.batch, c.window with
    | some b, some (seq, fs) =>
      let s := s.reach (fs + q.windowStartUs * 1000)
      let first := !s.cam.streams.any (fun o => decide (o.stream < stream.val) && ((s.sensorOf? o.stream).map (·.bus)) == some q.bus && s.batchFits o s.now)
      if s.batchFits c s.now && first && !s.busTransfers q.bus && !s.busSequence q.bus then
        let e := (s.reg (Reg.CFE_STREAM_EPOCH stream.val)).toNat + 1
        let s := s.setReg (Reg.CFE_STREAM_EPOCH stream.val) (w32 e)
        .next ((s.modCam stream.val (fun c => { c with batch := none, transfer := some (b, e, seq) })).showBatch q.bus stream.val 3 0)
      else .next s
    | _, _ => .next s
  | _, _ => .next s

/-- BATCH_TRANSFER_DONE (R132, R134). -/
def execBatchTransferDone (stream : Fin 24) (nackAt : Option Nat) (s : State) : Res :=
  match s.cam? stream.val, s.sensorOf? stream.val with
  | some c, some q =>
    match c.transfer with
    | none => .next s
    | some (b, e, seq) =>
      let from' := seq + w32 q.latency
      let bad := match nackAt with
        | some i => decide (i < b.ops.length)
        | none => false
      let s := s.modCam stream.val (fun c => { c with transfer := none, epochs := (⟨e, from', bad⟩ :: c.epochs).take 64 })
      let s := s.showBatch q.bus stream.val 0 (if bad then 1 else 0)
      if bad then
        let part := ((c.layer.bind s.layer?).map (fun l => l.rc.partition)).getD 0
        .next (s.log (0x1B00 + q.bus) 0x0402 1 part stream.val e (nackAt.getD 0) 0xFFFFFFFF)
      else .next (s.setReg (Reg.CFE_STREAM_EPOCH_FROM stream.val) from')
  | _, _ => .next s

/-! ### Tinder injections (R127, R154) -/

/-- TINDER_INJECTION_DONE: the injected lines have passed the pipe, and its tap stream reaches the Check-Value Unit. -/
def execTinderInjectionDone (pipe : Fin 4) (s : State) : Res :=
  let n := pipe.val
  match (s.pipe n).inject, (s.pipe n).bank? 7 with
  | some (st, lines, pattern), some b =>
    match s.streamRec? st with
    | none => .next s
    | some p =>
      let s := s.modPipe n (fun q => { q with inject := none })
      let s := (s.addFld Reg.CFE_TINDER_CNT F.CFE_TINDER_CNT.COMPLETED 1).addCnt (Reg.ISP_CNT n 3) 1
      .next ((s.tapStream (0x0200 + n) 1 0 (injectionBytes b.params p.dataType p.width p.height lines pattern)).showPipe n)
  | _, _ => .next s

end Sys2Proof.Machine
end

