-- ==== Sys2Proof/Machine/Ember.lean ====
section
/-! DEFINITION. The Ember path: stereo match of the binned pair, the Ember Obstacle Message, and the path's health (spec/16,
R418 to R424). -/

namespace Sys2Proof.Machine

open Sys2Proof

/-! ### Matching (R420) -/

/-- What the match of one pair works on: the binned rows of both eyes and the configuration. -/
structure Match where
  left : Array (Array Nat)
  right : Array (Array Nat)
  bw : Nat
  bh : Nat
  shift : Array Int
  sadMax : Nat
  uniqMin : Nat
  deriving DecidableEq, Repr

/-- A left pixel, and a right pixel. -/
def Match.l (m : Match) (x y : Nat) : Nat := (m.left.getD y #[]).getD x 0
def Match.r (m : Match) (x y : Nat) : Nat := (m.right.getD y #[]).getD x 0

/-- The right row of a left row, when it lies in the image. -/
def Match.row? (m : Match) (y : Nat) : Option Nat :=
  let r := (y : Int) + m.shift.getD y 0
  if decide (0 ≤ r) && decide (r < (m.bh : Int)) then some r.toNat else none

/-- A coordinate lies at least 3 from both borders. -/
def inner (n v : Nat) : Bool := decide (3 ≤ v) && decide (v + 3 < n)

/-- The right rows of the window's rows; none when one lies outside. -/
def Match.rows? (m : Match) (y : Nat) : Option (List Nat) :=
  (List.range 7).foldr (fun j (l : Option (List Nat)) => match m.row? (y + j - 3), l with
    | some r, some t => some (r :: t)
    | _, _ => none) (some [])

/-- SAD(d) over the 7 × 7 window. -/
def Match.sad (m : Match) (rows : List Nat) (x y d : Nat) : Nat :=
  rows.zipIdx.foldl (fun a p =>
    (List.range 7).foldl (fun a i =>
      let u := m.l (x + i - 3) (y + p.2 - 3)
      let v := m.r (x + i - 3 - d) p.1
      a + (if u < v then v - u else u - v)) a) 0

/-- Position and value of the least of a list, the first among equals. -/
def leastSad : List (Nat × Nat) → Option (Nat × Nat)
  | [] => none
  | (d, v) :: t =>
    match leastSad t with
    | some (e, w) => if w < v then some (e, w) else some (d, v)
    | none => some (d, v)

/-- The disparity of a left pixel, when it is valid. -/
def Match.disparity? (m : Match) (x y : Nat) : Option Nat :=
  match m.row? y, m.rows? y with
  | some yr, some rows =>
    if !inner m.bw x || !inner m.bh y || !inner m.bh yr || m.l x y == 255 then none
    else
      let sads := (List.range (min 63 (x - 3) + 1)).map (fun d => (d, m.sad rows x y d))
      match leastSad sads with
      | none => none
      | some (d, s1) =>
        let s2 := match leastSad (sads.filter (fun p => decide (d + 2 ≤ p.1) || decide (p.1 + 2 ≤ d))) with
          | some p => p.2
          | none => s1
        if m.r (x - d) yr != 255 && decide (s1 ≤ m.sadMax) && decide (m.uniqMin + s1 ≤ s2) then some d else none
  | _, _ => none

/-! ### Counting (R421) -/

/-- Band of a disparity: the first whose lower bound it reaches. -/
def bandOf (lo : List Nat) (d : Nat) : Option Nat := (lo.zipIdx.find? (fun p => decide (p.1 ≤ d))).map (·.2)

/-- The mask in use, and whether it is the default. -/
def State.emberMask (s : State) : Nat × Bool :=
  match s.io.vs[s.emb 6 1]? with
  | some e => if !e.stale && decide (e.value.toNat ≤ 15) then (e.value.toNat, false) else (s.emb 7 1, true)
  | none => (s.emb 7 1, true)

/-- The pixel counts for its band. -/
def State.emberCounts (s : State) (m k x y d : Nat) : Bool :=
  let g := s.emb (0x260 + y) 1
  let e := 0x480 + 4 * (4352 * m + 544 * k + y)
  (g == 0xFF || decide (g + s.emb 0xC 1 ≤ d)) && decide (s.emb e 2 ≤ x) && decide (x ≤ s.emb (e + 2) 2)

/-- The match of a pair. -/
def State.emberMatch (s : State) (l r : EmberFrame) : Match :=
  { left := (l.rows.map List.toArray).toArray
    right := (r.rows.map List.toArray).toArray
    bw := (l.rows.headD []).length
    bh := l.rows.length
    shift := ((List.range 544).map (fun y => signed 8 (s.emb (0x40 + y) 1))).toArray
    sadMax := s.emb 8 2
    uniqMin := s.emb 0xA 2 }

/-- Counts of the 8 bands and the number of valid pixels. -/
def State.emberTally (s : State) (m : Match) (mask : Nat) : List Nat × Nat :=
  let lo := (List.range 8).map (fun k => s.emb (0x10 + k) 1)
  (List.range m.bh).foldl (fun acc y =>
    (List.range m.bw).foldl (fun (acc : List Nat × Nat) x =>
      match m.disparity? x y with
      | none => acc
      | some d =>
        match bandOf lo d with
        | some k => (if s.emberCounts mask k x y d then acc.1.mapIdx (fun i c => if i == k then min 0xFFFF (c + 1) else c) else acc.1, acc.2 + 1)
        | none => (acc.1, acc.2 + 1)) acc) (List.replicate 8 0, 0)

/-! ### The message (R421, R423) -/

/-- Health of the path: 0 healthy, 1 degraded, 2 failed. -/
def State.emberHealth (s : State) : Nat := s.fld Reg.SI_STATUS F.SI_STATUS.EMBER

/-- The 32 bytes of a message. -/
def emberBytes (status mask flags occupied nearest pct : Nat) (seq : Word) (counts : List Nat) : List Byte :=
  leBytes 1 1 ++ leBytes 1 status ++ leBytes 1 mask ++ leBytes 1 flags ++ leBytes 1 occupied ++ leBytes 1 nearest ++ leBytes 1 pct
    ++ leBytes 1 0 ++ leBytes 4 seq.toNat ++ leBytes 4 0 ++ counts.flatMap (leBytes 2)

/-- The message of an invalid pair. -/
def State.invalidMsg (s : State) (seq : Word) (ts flags : Nat) : EmberMsg :=
  let m := s.emberMask
  let fl := bit m.2 + 2 * flags + 8 + 16 * bit (s.emberHealth != 0)
  ⟨seq, ts, 2, emberBytes 2 m.1 fl 0xFF 0 0 seq (List.replicate 8 0)⟩

/-- The message of a complete pair. -/
def State.pairMsg (s : State) (l r : EmberFrame) : EmberMsg :=
  let m := s.emberMask
  let w := s.emberMatch l r
  let t := s.emberTally w m.1
  let pct := 100 * t.2 / max 1 (w.bw * w.bh)
  let occ := (List.range 8).filter (fun k => decide (s.emb (0x18 + 2 * k) 2 ≤ t.1.getD k 0))
  let fl := bit m.2 + 2 * bit l.flagged + 4 * bit r.flagged + 16 * bit (s.emberHealth != 0)
  let status := if decide (pct < s.emb 0x28 1) then 2 else if l.flagged || r.flagged then 1 else 0
  let occupied := if status == 2 then 0xFF else occ.foldl (fun a k => a + 2 ^ k) 0
  let nearest := if status == 2 then 0 else occ.headD 0xFF
  ⟨l.seq, l.ts, status, emberBytes status m.1 fl occupied nearest pct l.seq t.1⟩

/-- The next message: of the pair or the invalid pair that waits, the older sequence first. -/
def State.nextMsg? (s : State) : Option (EmberMsg × State) :=
  let inv := s.safety.ember.invalidPair.map (fun p =>
    (s.invalidMsg p.1 p.2.1 p.2.2, s.modEmber (fun e => { e with invalidPair := none })))
  let ok := s.safety.ember.pair.map (fun p => (s.pairMsg p.1 p.2, s.modEmber (fun e => { e with pair := none })))
  match inv, ok with
  | some a, some b => if seqNewer a.1.seq b.1.seq then some b else some a
  | some a, none => some a
  | none, o => o

/-! ### Health (R418) -/

/-- The health changes. -/
def State.setHealth (s : State) (new why : Nat) : State :=
  let old := s.emberHealth
  if old == new then s
  else
    let s := (s.event Reg.SI_EVENT F.SI_EVENT.EMBER_HEALTH).log 0x1200 0x070C 1 0 0xFF old new why
    let s := s.setFld Reg.SI_STATUS F.SI_STATUS.EMBER new
    if new == 1 then s.modEmber (fun e => { e with selfPassed := false }) else s

/-- Degraded returns to healthy after 30 valid messages in a row and a passing self-test. -/
def State.tryRecover (s : State) : State :=
  let e := s.safety.ember
  if s.emberHealth == 1 && decide (30 ≤ e.validRun) && e.selfPassed then s.setHealth 0 3 else s

/-- Judge a message: three invalid ones in a row degrade the path, and are cause 17 while it is selected. -/
def State.judgeEmber (s : State) (bad : Bool) : State :=
  let a := s.adapt
  let s : State := { s with adapt := { a with emberMsgs := a.emberMsgs + 1, emberInvalid := a.emberInvalid + bit bad } }
  let s := if bad then s.addFld Reg.SI_SELECT F.SI_SELECT.EMBER_INVALID 1 else s.setFld Reg.SI_SELECT F.SI_SELECT.EMBER_INVALID 0
  let s := s.modEmber (fun e => { e with validRun := if bad then 0 else e.validRun + 1 })
  if !s.isReady then s
  else if bad then
    let three := decide (3 ≤ s.fld Reg.SI_SELECT F.SI_SELECT.EMBER_INVALID)
    let s := if three && s.emberHealth == 0 then s.setHealth 1 1 else s
    if three && s.emberSelected then s.severe 17 0x1300 else s
  else s.tryRecover

/-- EMBER_MESSAGE_READY (R416, R422, R423): held while the primary source is selected, else handed over. -/
def execEmberMessageReady (s : State) : Res :=
  match s.nextMsg? with
  | none => .next s
  | some (m, s) =>
    let s := s.judgeEmber (m.status == 2)
    if s.emberSelected && s.ofEnabled then .next (s.handEmber m) else .next (s.modSel (fun x => { x with held := some m }))

/-- EMBER_PAIR_WINDOW_EXPIRY (R419): the pair is invalid; the eye that has closed waits no longer. -/
def execEmberPairWindowExpiry (s : State) : Res :=
  let e := s.safety.ember
  match e.pairDue with
  | none => .next s
  | some t =>
    let s := (s.reach t).modEmber (fun e => { e with pairDue := none })
    let done (f : Option EmberFrame) : Option EmberFrame := f.filter (fun f => f.closedAt.isSome && !f.missed)
    let spent (f : Option EmberFrame) : Option EmberFrame := f.map (fun f => { f with missed := f.missed || f.closedAt.isSome })
    match done e.left, done e.right with
    | some f, _ =>
      .next (s.modEmber (fun e => { e with left := spent e.left, invalidPair := some (f.seq, f.ts, eyeFlag true f.flagged) }))
    | none, some f =>
      let tp := match s.cam? (s.emb 2 1) with
        | some c => (match c.owed with
          | some t => t
          | none => c.pulse.getD f.ts)
        | none => f.ts
      let ts := s.pairStamp f.seq tp
      .next (s.modEmber (fun e => { e with right := spent e.right, invalidPair := some (f.seq, ts, eyeFlag false f.flagged) }))
    | none, none => .next s

/-- EMBER_SELF_TEST (R418, R422): the golden pair's CRC. -/
def execEmberSelfTest (pass : Bool) (s : State) : Res :=
  if !s.smRuns then .next s
  else if pass then .next (s.modEmber (fun e => { e with selfMisses := 0, selfPassed := true })).tryRecover
  else
    let s := s.modEmber (fun e => { e with selfMisses := e.selfMisses + 1, selfPassed := false })
    if !s.isReady then .next s
    else if decide (2 ≤ s.safety.ember.selfMisses) then .next (s.setHealth 2 2)
    else if s.emberHealth == 0 then .next (s.setHealth 1 2)
    else .next s

end Sys2Proof.Machine
end

