-- ==== Sys2Proof/Machine/Isp.lean ====
section
/-! DEFINITION. The commands of the image pipes (spec/06): staged frames, band and statistics releases, parameter updates. -/

namespace Sys2Proof.Machine

open Sys2Proof

/-! ### Staged frames (R145) -/

/-- ISP clocks of a staged frame: D of spec/06. -/
def stagedClocks (p : StreamRec) : Nat := 2 * p.width * p.height + 2048

/-- The bound in-line stream of a pipe. -/
def State.inlineOf? (s : State) (pipe : Nat) : Option (StreamRec × StreamSt) :=
  ((s.flash.usedStreams s.imgRegion).filterMap (fun p =>
    if p.isp == pipe && p.ispMode == 0 then (s.cam? p.stream).bind (fun c => if s.pathOf p c == 1 then some (p, c) else none) else none)).head?

/-- N of R145: `some none` is no limit, `none` that no staged frame starts now. -/
def State.inlineLimit (s : State) (pipe : Nat) : Option (Option Nat) :=
  match s.inlineOf? pipe with
  | none => some none
  | some (p, c) =>
    if c.fresh then none
    else if p.fsync == 0xFF then c.lastFs.map (fun t => some (t + p.periodNs - p.lateNs))
    else
      match c.pulse with
      | some t => if c.frame.isNone && c.used then some (some (nextPulse p.periodNs p.fsyncOffsetNs t)) else none
      | none => none

/-- Of two staged frames the one to be processed first. -/
def State.stagedBefore (s : State) (a b : StagedFrame) : Bool :=
  let safe (f : StagedFrame) : Bool := ((s.layer? f.layer).map (fun l => isSafety l.rc.partition)).getD false
  if safe a != safe b then safe a
  else if a.ts != b.ts then decide (a.ts < b.ts)
  else decide (a.stream ≤ b.stream)

/-- The staged frame that a pipe is to start next; one stopped by an in-line frame restarts in its place in the order. -/
def State.nextStaged (s : State) (pipe : Nat) : Option StagedFrame :=
  let q := s.pipe pipe
  let again := q.frames.filterMap (fun f => if f.restart then f.staged.map (fun x => (⟨f.stream, f.layer, f.seq, f.ts, x.1, x.2, f.flagged, f.marked⟩ : StagedFrame)) else none)
  (again ++ q.waiting).foldl (fun (b : Option StagedFrame) f =>
    match b with
    | none => some f
    | some g => if s.stagedBefore f g then some f else some g) none

/-- The samples of a line of a staging slot. -/
def State.stagedLine (s : State) (p : StreamRec) (r : RingSt) (slot y : Nat) : List Nat :=
  let a := ringBase r.rc + slot * r.rc.slotBytes + y * r.rc.pitch
  if p.dataType == 0x1E then (Memory.bytes s.mem a (2 * p.width)).map (·.toNat)
  else (List.range p.width).map (fun x => s.le (a + 2 * x) 2)

/-- ISP_STAGED_FRAME_START (R145): the next closed staged frame starts when the in-line time test allows. `badLines` are lines met
with an uncorrectable error: each is processed as padding (R340). -/
def execIspStagedFrameStart (pipe : Fin 4) (badLines : List Nat) (parityAt : Option Nat) (s : State) : Res :=
  let n := pipe.val
  let q := s.pipe n
  let u := s.unit (0x0200 + n)
  if u.fenced || u.gated || u.heldBy.isSome || q.inject.isSome || q.frames.any (fun f => !f.restart && (f.staged.isSome || !f.closed)) then .next s
  else
    match s.nextStaged n, s.inlineLimit n with
    | some f, some lim =>
      match s.streamRec? f.stream, s.ring? f.layer f.ring with
      | some p, some r =>
        let fits := match lim with
          | none => true
          | some t => decide (4 * s.now + 5 * stagedClocks p + 40000 ≤ 4 * t)
        if !fits then .next s
        else
          let part := ((s.layer? f.layer).map (fun l => l.rc.partition)).getD 0
          let bad := badLines.filter (fun y => decide (y < p.height))
          let s := bad.foldl (fun s y => (s.eccUncorrected ⟨0x0200 + n, part, true⟩ (ringBase r.rc + f.slot * r.rc.slotBytes + y * r.rc.pitch) f.seq).1) s
          let lines := (List.range p.height).map (fun y =>
            if bad.contains y then padLine p.dataType p.padValue p.width else s.stagedLine p r f.slot y)
          let done := ((q.frames.find? (fun x => x.restart && x.stream == f.stream && x.seq == f.seq)).map (·.done)).getD []
          let s := s.modPipe n (fun (x : PipeSt) => { x with
            waiting := x.waiting.filter (fun w => !(w.stream == f.stream && w.seq == f.seq))
            frames := x.frames.filter (fun w => !(w.stream == f.stream && w.seq == f.seq)) })
          let s := s.startFrame p f.layer f.seq f.ts (some (f.ring, f.slot)) f.flagged (f.marked ++ bad) lines.reverse true
          let s := s.modFrame n f.stream f.seq (fun x => { x with done := done })
          let s := match parityAt, s.frame? n f.stream f.seq with
            | some y, some x => if y < p.height then s.ispParity n x y p.height else s
            | _, _ => s
          .next (((s.beginNext n f.stream f.seq).endFrame n f.stream f.seq).showPipe n)
      | _, _ => .next s
    | _, _ => .next s

/-! ### Releases (R147, R156) -/

/-- Process a frame as far as its lines have come. -/
def PipeFrame.run (f : PipeFrame) (p : StreamRec) : IspOut :=
  let src : Plane := (f.lines.reverse.map List.toArray).toArray
  ispRun (IspSet.parse f.params) p.width p.height p.height f.yuv src

/-- Lines that the pipe must hold before it can write the lines below `y`: nine more, the reach of its neighbourhoods (log entry 26). -/
def PipeFrame.ready (f : PipeFrame) (p : StreamRec) (y : Nat) : Bool := f.closed || decide (min p.height (y + 9) ≤ f.lines.length)

/-- The bytes of a band: (address, bytes) of each line. -/
def bandWrites (d : IspDest) (p : IspSet) (o : IspOut) (slot b : Nat) : List (Nat × List Byte) :=
  let r := d.ring
  let a := ringBase r.rc + slot * r.rc.slotBytes
  let y0 := bandStart r b
  let ys := span y0 (bandEnd r b)
  ys.map (fun y => (a + (y - y0) * r.rc.pitch, ispLine p o d.point d.fmt d.shift y))
    ++ (if d.point == 10 && d.fmt == fmtNv12 then
          (ys.filter (fun y => y % 2 == 0)).map (fun y => (a + (r.rc.lines + (y - y0) / 2) * r.rc.pitch, ispChroma p o y))
        else [])

/-- A frame's band carries the input-flagged mark (R125, R147). -/
def PipeFrame.marks (f : PipeFrame) (r : RingSt) (b : Nat) : Bool :=
  f.flagged || f.marked.any (fun y => decide (bandStart r b ≤ y) && decide (y < bandEnd r b))

/-- A band or statistics slot of a frame is released, and what follows lines that no packet brings begins. -/
def State.bandDone (s : State) (pipe : Nat) (f : PipeFrame) (idx k b : Nat) (flagged : Bool) : State :=
  let s := s.releaseBand f.layer idx k b flagged none
  let s := s.modFrame pipe f.stream f.seq (fun x => { x with done := x.done ++ [(idx, b)] })
  let s := if f.closed then s.beginNext pipe f.stream f.seq else s
  s.endFrame pipe f.stream f.seq

/-- ISP_BAND_RELEASE (R147): output 0 is the stage-10 output, 1 and 2 the taps. -/
def execIspBandRelease (stream : Fin 24) (out : Fin 3) (band : Half) (s : State) : Res :=
  match s.streamRec? stream.val with
  | none => .next s
  | some p =>
    let b := band.toNat
    let cand := (s.pipe p.isp).frames.find? (fun f => f.stream == stream.val && !f.restart
      && (match s.ispDest? f.layer f.params f.service out.val with
          | some d => !f.done.contains (d.ring.idx, b) && decide (b < d.ring.perFrame) && f.ready p (bandEnd d.ring b)
          | none => false))
    match cand with
    | none => .next s
    | some f =>
      match s.ispDest? f.layer f.params f.service out.val with
      | none => .next s
      | some d =>
        let s := if d.ring.begun f.seq b then s else s.beginBand p.isp f d.ring b
        match s.ring? f.layer d.ring.idx, d.ring.k? f.seq with
        | some r, some k =>
          if r.assigned? (r.slotOf k b) != some (k, b) then .next (s.endFrame p.isp f.stream f.seq)
          else
            let ws := bandWrites d (IspSet.parse f.params) (f.run p) (r.slotOf k b) b
            let s := ws.foldl (fun s w => s.store w.1 w.2) s
            .next (s.bandDone p.isp f r.idx k b (f.marks r b))
        | _, _ => .next s

/-- The statistics record of a frame (R155), its frame fields from the metadata word. -/
def State.statsRecord (s : State) (p : StreamRec) (f : PipeFrame) : List Byte :=
  let set := IspSet.parse f.params
  let m := metaOff f.stream f.seq
  leBytes 8 f.ts ++ leBytes 4 f.seq.toNat ++ leBytes 4 (s.reg (m + 12)).toNat ++ leBytes 4 (s.reg (m + 16)).toNat
    ++ leBytes 1 f.stream ++ leBytes 1 p.isp ++ leBytes 1 (bit f.yuv) ++ leBytes 1 (set.le 0x3FCE 1) ++ leBytes 4 f.version
    ++ ispStats set (f.run p)

/-- ISP_STATS_RELEASE (R156): the frame has closed and its metadata word is written. -/
def execIspStatsRelease (stream : Fin 24) (s : State) : Res :=
  match s.streamRec? stream.val with
  | none => .next s
  | some p =>
    match (s.pipe p.isp).frames.find? (fun f => f.stream == stream.val && !f.restart && f.closed
        && (match s.statsRing? f.layer f.params with
            | some r => !f.done.contains (r.idx, 0)
            | none => false)) with
    | none => .next s
    | some f =>
      match s.statsRing? f.layer f.params with
      | none => .next s
      | some r =>
        let s := if r.begun f.seq 0 then s else s.beginBand p.isp f r 0
        match s.ring? f.layer r.idx, r.k? f.seq with
        | some r, some k =>
          let sl := r.slotOf k 0
          if r.assigned? sl != some (k, 0) then .next (s.endFrame p.isp f.stream f.seq)
          else
            let flags := (s.reg (metaOff f.stream f.seq + 16)).toNat
            let s := s.store (ringBase r.rc + sl * r.rc.slotBytes) (s.statsRecord p f)
            .next (s.bandDone p.isp f r.idx k 0 (inputFlagged flags || f.flagged || !f.marked.isEmpty))
        | _, _ => .next s

/-! ### Updates (R157, R159) -/

/-- ISP_UPD_GO: the descriptor is checked in the order in which R157 lists its cases. -/
def execIspUpdGo (pipe : Fin 4) (bank : Fin 5) (domain : BitVec 4) (value : Word) (s : State) : Res :=
  let n := pipe.val
  if F.ISP_UPD_GO.GO.get value == 0 then .next s
  else
    let lo := s.reg (bankOff bank.val (Reg.ISP_UPD_LO n))
    let hi := s.reg (bankOff bank.val (Reg.ISP_UPD_HI n))
    let addr := lo.toNat / 16 * 16 + hi.toNat % 1024 * 2 ^ 32
    let d := Memory.bytes s.mem addr 16
    let st := leAt d 0 1
    let len := leAt d 2 2
    let off := leAt d 4 2
    let q := s.pipe n
    let m := (s.cam? st).bind (·.bank)
    let here := match s.streamRec? st, m.bind q.bank? with
      | some p, some b => p.isp == n && b.stream == st
      | _, _ => false
    let part := (((s.cam? st).bind (·.layer)).bind s.layer?).map (fun l => l.rc.partition)
    let bad := leAt d 1 1 / 2 != 0 || len % 16 != 0 || len == 0 || off % 16 != 0 || decide (off < 0x40) || decide (0x3FC0 < off + len)
      || leAt d 6 2 != 0 || leAt d 0xC 4 != 0
    let full := decide (4 ≤ ((m.bind q.bank?).map (fun b => b.queue.length)).getD 0)
    let code : Nat := if !here then 2 else if part != some domain.toNat then 3 else if bad then 4 else if full then 1 else if q.copying.isSome then 5 else 0
    let a := bankOff bank.val (Reg.ISP_UPD_STATUS n)
    let s := (s.setFld a F.ISP_UPD_STATUS.STREAM st).setFld a F.ISP_UPD_STATUS.RESULT code
    if code != 0 then .next (s.event (Reg.ISP_ERR n) F.ISP_ERR.UPD_REFUSED)
    else
      let u : IspUpd := ⟨leAt d 1 1 % 2 == 1, w32 (leAt d 8 4), off, Memory.bytes s.mem (addr + 16) len⟩
      .next ((s.setFlag a F.ISP_UPD_STATUS.BUSY true).modPipe n (fun q => { q with copying := some (bank.val, st, u) }))

/-- ISP_UPD_COPY_DONE: the update is queued. -/
def execIspUpdCopyDone (pipe : Fin 4) (s : State) : Res :=
  let n := pipe.val
  match (s.pipe n).copying with
  | none => .next s
  | some (bank, st, u) =>
    let s := (s.modPipe n (fun q => { q with copying := none })).setFlag (bankOff bank (Reg.ISP_UPD_STATUS n)) F.ISP_UPD_STATUS.BUSY false
    match (s.cam? st).bind (·.bank) with
    | none => .next s
    | some m =>
      let s := s.modBank n m (fun b => { b with queue := b.queue ++ [u] })
      .next (s.addFld (Reg.ISP_BANK n m) F.ISP_BANK.QUEUED 1)

end Sys2Proof.Machine
end

