-- ==== Sys2Proof/Machine/Links.lean ====
section
/-! DEFINITION. The Grenmar Links: training, flits and retry, heartbeats, liveness, routes, reservations, drains, remote
requests and time (spec/18, R448 to R471; R364). -/

namespace Sys2Proof.Machine

open Sys2Proof

/-- Unit code of a link. -/
def linkUnit (k : Nat) : Nat := 0x0D00 + k

/-- Show a link's state. -/
def State.setLink (s : State) (k st : Nat) : State := s.setFld (Reg.GML_STATUS k) F.GML_STATUS.STATE st

/-- Change the links' shared state. -/
def State.modGml (s : State) (f : Gml → Gml) : State := { s with gml := f s.gml }

/-! ### Partners, loss and reachability (R461, R465 to R469) -/

/-- Partner e is lost, and unreachable. -/
def State.isLost (s : State) (e : Nat) : Bool := (s.reg Reg.GML_PEERS).getLsbD (8 + e)
def State.isUnreachable (s : State) (e : Nat) : Bool := (s.reg Reg.GML_PEERS).getLsbD (16 + e)

/-- Partner e is in the system description. -/
def State.isPartner (s : State) (e : Nat) : Bool := e != s.device && decide (e < s.deviceCount)

/-- The backed-up partner (R449). -/
def State.backedUp (s : State) : Nat := (s.device + s.deviceCount - 1) % s.deviceCount

/-- The partner lies on this device's time path (R467). -/
def State.onTimePath (s : State) (e : Nat) : Bool :=
  let src := s.fld Reg.TL_STATUS F.TL_STATUS.SOURCE
  decide (3 ≤ src) && decide (src ≤ 5) && (s.linkPartner (src - 3) == some e || (s.link (src - 3)).path / 2 ^ e % 2 == 1)

/-- A bound layer of a safety partition names the partner. -/
def State.safetyNames (s : State) (e : Nat) : Bool :=
  s.scene.layers.any (fun l => isSafety l.rc.partition && s.layerNames l.rc (0x0F00 + e))

/-- Every slot counts as drained by the peer nodes of absent partners (R461). -/
def State.drainAllAbsent (s : State) : State :=
  (s.fgs.rings.filter (fun r => r.remote.isNone)).foldl (fun (s : State) r =>
    (List.range r.rc.slotCount).foldl (fun (s : State) sl => s.drainAbsent r.layer r.idx sl) s) s

/-- What the loss of a partner leaves: its record, cause 13, absence, and the scene (R461, R466, R467, R469). -/
def State.partnerGoes (s : State) (e why : Nat) : State :=
  let code := 0x0F00 + e
  let s := s.log 0x1A00 0x0112 1 0 0xFF code why 0
  let s := if s.safetyNames e || s.onTimePath e then s.doubt 13 code 0 0 else s
  let s := match s.directLink? e with
    | some k => s.setFlag (Reg.GML_TIME k) F.GML_TIME.DELIVERS false
    | none => s
  let s := s.drainAllAbsent
  if why == 1 && e == s.backedUp && !s.dualStreams.isEmpty then
    let s : State := if s.running then { s with scene := { s.scene with fencedSince := (s.scene.fencedSince ++ [0x0F]).eraseDups } } else s
    s.takeover e
  else s.fenceScene code

/-- A partner becomes lost until the next kindling. -/
def State.losePartner (s : State) (e : Nat) : State :=
  if !s.isPartner e || s.isLost e then s
  else
    let s := (s.setFlag Reg.GML_PEERS ⟨8 + e, 8 + e⟩ true).setFlag Reg.GML_PEERS ⟨16 + e, 16 + e⟩ false
    (s.event Reg.GML_EVENT F.GML_EVENT.LOST).partnerGoes e 1

/-- A packet of a device has arrived: an unreachable one is reachable again. -/
def State.hear (s : State) (e : Nat) : State :=
  let s := s.modGml (fun g => { g with heard := g.heard.mapIdx (fun i x => if i == e then some s.now else x) })
  if s.isUnreachable e then (s.setFlag Reg.GML_PEERS ⟨16 + e, 16 + e⟩ false).event Reg.GML_EVENT F.GML_EVENT.REACHABLE else s

/-! ### Down links (R452) -/

/-- A link goes down: what was outstanding on it ends with an error response. -/
def State.linkDown (s : State) (k : Nat) : State :=
  let s := (s.setLink k 4).event (Reg.GML_ERR k) F.GML_ERR.DOWN
  let s := s.failLink k
  (s.recur (linkUnit k) 7).refreshActive

/-! ### Training and identity (R453, R470) -/

/-- This device's digests of the system layers it holds. -/
def State.systemDigests (s : State) : List (Nat × List Byte) :=
  ((s.flash.live s.imgRegion).filter (fun x => x.type == 2)).filterMap (fun x =>
    if isSystemLayer x.index then some (x.index, x.digest) else none)

/-- The partner's identity is refused. -/
def State.identityBad (s : State) (e : Nat) (i : GmlIdentity) : Bool :=
  i.device.val != e || i.count.val != s.fld Reg.GML_SYS F.GML_SYS.COUNT || (i.ring && i.count.val == 3) != s.ringTopology
    || i.sysId != s.reg Reg.SYS_ID
    || s.systemDigests.any (fun d => i.digests.any (fun x => x.1 == d.1 && x.2 != d.2))

/-- A link that has been admitted: its sequence numbers start over. -/
def LinkSt.started (l : LinkSt) (now : Nat) : LinkSt :=
  { LinkSt.idle with
    senseAt := l.senseAt
    lastFlit := now }

/-- This device's own dual-homed streams are absent when its backer has promoted streams (R470). -/
def State.yieldStreams (s : State) : State :=
  ((s.flash.usedStreams s.imgRegion).filter (fun p => p.dualHome == 1)).foldl (fun (s : State) p => s.markAbsent p.stream) s

/-- GML_TRAIN_DONE: the link has trained and brought the partner's identity, or it has not trained. -/
def execGmlTrainDone (link : Fin 3) (ident : Option GmlIdentity) (s : State) : Res :=
  let k := link.val
  match s.linkPartner k with
  | none => .next s
  | some e =>
    if s.linkState k != 1 || (s.link k).refused || (s.unit (linkUnit k)).fenced then .next s
    else
      match ident with
      | none => .next (s.setLink k 4)
      | some i =>
        if s.identityBad e i then
          let s := (s.event (Reg.GML_ERR k) F.GML_ERR.IDENTITY).event Reg.GML_EVENT F.GML_EVENT.IDENTITY
          .next ((s.setLink k 4).modLink k (fun l => { l with refused := true }))
        else
          let s := (s.setLink k 2).modLink k (fun l => l.started s.now)
          let s := (s.hear e).refreshActive
          .next (if e == (s.device + 1) % s.deviceCount && i.promoted != 0 then s.yieldStreams else s)

/-! ### Packets -/

/-- Device that sent a packet. -/
def pktSrc : GmlPkt → Nat
  | .heartbeat src _ | .goingDown src | .time src _ _ _ _ | .reserve src _ _ _ | .answer src _ _ _ | .token src _ _ _ _ _ _ _ _
  | .drain src _ _ | .request src _ _ _ _ _ _ _ _ | .response src _ _ _ _ _ | .journal src _ _ => src.val

/-- Device that a packet is for; none for one that is meant for the link's other end. -/
def pktDst : GmlPkt → Option Nat
  | .heartbeat _ _ | .goingDown _ | .time _ _ _ _ _ => none
  | .reserve _ dst _ _ | .answer _ dst _ _ | .token _ dst _ _ _ _ _ _ _ | .drain _ dst _ | .request _ dst _ _ _ _ _ _ _
  | .response _ dst _ _ _ _ | .journal _ dst _ => some dst.val

/-- A time packet: what the partner's Timeline is, and whether it delivers time (R464). -/
def State.timePacket (s : State) (k src : Nat) (locked : Bool) (root hops path : Nat) : State :=
  let s := s.modLink k (fun l => { l with path := path })
  let a := Reg.GML_TIME k
  let ok := (root == src || locked) && path / 2 ^ s.device % 2 == 0 && decide (hops ≤ 2)
  ((s.setFld a F.GML_TIME.HOPS hops).setFld a F.GML_TIME.ROOT root).setFlag a F.GML_TIME.DELIVERS ok

/-- A token of a partner enters the input queue with the entry promised to it (R459). -/
def State.takeToken (s : State) (t : Token) : State :=
  let key := (t.node, t.seq, t.tile)
  let t : Token := { t with reserved := s.gml.promised.contains key }
  let s := s.modGml (fun g => { g with promised := g.promised.filter (· != key) })
  { s with fgs := { s.fgs with tokens := s.fgs.tokens ++ [t] } }

/-- A response ends its request; the bytes of a read are kept for the unit that awaits them. -/
def State.takeResponse (s : State) (tag : Nat) (err : Bool) (data : List Byte) : State :=
  match s.gml.outstanding.find? (fun x => x.tag == tag && x.status == 0) with
  | none => s
  | some x =>
    s.modGml (fun g => { g with
      outstanding := g.outstanding.map (fun (y : GmlTx) => if y.tag == tag then { y with status := if err then 2 else 1 } else y)
      remote := if err || x.write then g.remote else Memory.putBytes g.remote x.addr (data.take x.len) })

/-- One packet from link k. Reservations, their answers, drains and requests wait for their own commands; a packet for another
device goes on to it over the direct link (R454). -/
def State.takePacket (s : State) (k : Nat) (p : GmlPkt) : State :=
  let s := s.hear (pktSrc p)
  match pktDst p with
  | some d =>
    if d != s.device then
      match (s.directLink? d).filter s.linkActive with
      | some j => s.sendOn j p
      | none => s
    else
      match p with
      | .token _ _ node stream seq tile operand kind domain =>
        s.takeToken ⟨node, stream, seq, tile, operand, kind, domain, true, none, false⟩
      | .response _ _ tag err _ data => s.takeResponse tag err data
      | .journal _ _ b =>
        let r : JRec := { JRec.ofBytes b with remote := true }
        s.modJournal (fun j => { j with fromPeers := j.fromPeers ++ [r] })
      | _ => s.modLink k (fun l => { l with rx := l.rx ++ [p] })
  | none =>
    match p with
    | .heartbeat src ready =>
      (s.modGml (fun g => { g with ready := g.ready.mapIdx (fun i x => if i == src.val then ready else x) })).refreshActive
    | .goingDown src => s.losePartner src.val
    | .time src locked root hops path => s.timePacket k src.val locked root.val hops.val path.toNat
    | _ => s

/-! ### Flits, NAKs and retrains (R450 to R452) -/

/-- The flits that an ACK leaves in the replay buffer. -/
def afterAck (ack : Nat) (tx : List (Nat × List GmlPkt)) : List (Nat × List GmlPkt) :=
  if tx.any (fun x => x.1 == ack) then (tx.dropWhile (fun x => x.1 != ack)).drop 1 else tx

/-- GML_FLIT_RX: a flit that fails its CRC is discarded with every later one until it comes again. -/
def execGmlFlitRx (link : Fin 3) (seq ack : BitVec 12) (crcOk : Bool) (packets : List GmlPkt) (s : State) : Res :=
  let k := link.val
  if s.linkState k != 2 then .next s
  else
    let s := s.modLink k (fun l => { l with lastFlit := s.now })
    if !crcOk then
      let s := (s.event (Reg.GML_ERR k) F.GML_ERR.CRC).addCnt (Reg.GML_CNT k 2) 1
      .next (s.modLink k (fun l => { l with nakSent := true }))
    else
      let s := s.modLink k (fun l =>
        let tx := afterAck ack.toNat l.tx
        { l with
          tx := tx
          fails := if tx.any (fun x => x.1 == l.failSeq) then l.fails else 0 })
      if seq.toNat != (s.link k).rxNext % 4096 then .next s
      else
        let s := s.modLink k (fun l => { l with
          rxNext := l.rxNext + 1
          nakSent := false })
        let s := s.countFlit k 1 (s.link k).rxNext
        .next (packets.foldl (fun (s : State) p => s.takePacket k p) s)

/-- GML_NAK_RX: replay from the flit named; more than 16 replays within 1 ms are a retry burst. -/
def execGmlNakRx (link : Fin 3) (seq : BitVec 12) (s : State) : Res :=
  let k := link.val
  let q := seq.toNat
  if s.linkState k != 2 || !(s.link k).tx.any (fun x => x.1 == q) then .next s
  else
    let s := s.addCnt (Reg.GML_CNT k 3) 1
    let recent := s.now :: (s.link k).replays.filter (fun t => decide (s.now < t + 1000000))
    let burst := decide (16 < recent.length)
    let s := s.modLink k (fun l => { l with
      lastFlit := s.now
      failSeq := q
      fails := if l.failSeq == q then l.fails + 1 else 1
      replays := if burst then [] else recent })
    if burst then .next ((s.event (Reg.GML_ERR k) F.GML_ERR.RETRY_BURST).recur (linkUnit k) 7) else .next s

/-- GML_RETRAIN_START: after eight failed replays of one flit, or 10 µs without a flit. -/
def execGmlRetrainStart (link : Fin 3) (s : State) : Res :=
  let k := link.val
  if s.linkState k != 2 then .next s
  else
    let l := s.link k
    let s := if decide (8 ≤ l.fails) then s else s.reach (l.lastFlit + 10000)
    let s := (s.event (Reg.GML_ERR k) F.GML_ERR.RETRAIN).addCnt (Reg.GML_CNT k 4) 1
    .next (s.setLink k 3)

/-- The half of the lanes on which a link goes on: 0 all, 1 lanes 0 to 3, 2 lanes 4 to 7; none when it goes down. A link that has
lost lanes comes back to all of them only at kindling. -/
def lanesHalf (half lanes : Nat) : Option Nat :=
  if lanes == 0xFF && half == 0 then some 0
  else if lanes % 16 == 15 then some 1
  else if lanes / 16 == 15 then some 2
  else none

/-- GML_RETRAIN_DONE: the retrain has ended with a set of healthy lanes. -/
def execGmlRetrainDone (link : Fin 3) (lanes : BitVec 8) (s : State) : Res :=
  let k := link.val
  if s.linkState k != 3 then .next s
  else
    let a := Reg.GML_STATUS k
    let half := s.fld a F.GML_STATUS.HALF
    match lanesHalf half lanes.toNat with
    | none => .next (s.linkDown k)
    | some h =>
      let s := if h != 0 && half == 0 then s.event (Reg.GML_ERR k) F.GML_ERR.LANE_FALLBACK else s
      .next (((s.setFld a F.GML_STATUS.HALF h).setLink k 2).modLink k (fun l => { l with
        lastFlit := s.now
        fails := 0
        nakSent := false }))

/-- GML_RETRY_TIMER: a link that is down tries to train again. -/
def execGmlRetryTimer (link : Fin 3) (s : State) : Res :=
  let k := link.val
  if s.linkState k == 4 && !(s.link k).refused && !(s.unit (linkUnit k)).fenced then .next (s.setLink k 1) else .next s

/-! ### Liveness (R465, R466) -/

/-- The time packet that this device sends: state, root, hops and its time path (R464). -/
def State.ownTime (s : State) : GmlPkt :=
  let d := s.device
  let src := s.fld Reg.TL_CTRL F.TL_CTRL.PRIMARY
  if decide (3 ≤ src) && decide (src ≤ 5) then
    let a := Reg.GML_TIME (src - 3)
    .time (dev2 d) s.locked (dev2 (s.fld a F.GML_TIME.ROOT)) (dev2 (min 3 (s.fld a F.GML_TIME.HOPS + 1)))
      (BitVec.ofNat 4 ((s.link (src - 3)).path ||| 2 ^ d))
  else .time (dev2 d) s.locked (dev2 d) 0 (BitVec.ofNat 4 (2 ^ d))

/-- Commit the shadowed registers that lie in a range of offsets (R9). -/
def State.commitShadows (s : State) (lo hi : Nat) : State :=
  let hit (p : Nat × Word) : Bool := decide (lo ≤ p.1) && decide (p.1 < hi)
  let ps := s.shadow.filter hit
  let s : State := { s with shadow := s.shadow.filter (fun p => !hit p) }
  ps.foldl (fun (s : State) p => s.setReg p.1 p.2) s

/-- GML_HEARTBEAT_SEND: heartbeats and time on every up or active link; the GML block's commit point. -/
def execGmlHeartbeatSend (s : State) : Res :=
  let s := (s.commitShadows 0x800000 0x810000).refreshActive
  let s := [0, 1, 2].foldl (fun (s : State) k =>
    if s.linkState k == 2 then (s.sendOn k (.heartbeat (dev2 s.device) s.isReady)).sendOn k s.ownTime else s) s
  .next s.forwardRecords

/-- PEER_ALIVE_TOGGLE: the pin is held low before READY and in the safe state. -/
def execPeerAliveToggle (s : State) : Res :=
  let on := s.isReady && s.safety.severe.isNone && s.smRuns
  .next (s.modPins (fun p => { p with peerAlive := on && !p.peerAlive }))

/-- GOING_DOWN_RX (R466). -/
def execGoingDownRx (peer : Fin 4) (s : State) : Res := .next (s.losePartner peer.val)

/-- PEER_SENSE_EDGE (R465). -/
def execPeerSenseEdge (link : Fin 3) (s : State) : Res :=
  let k := link.val
  if (s.linkPartner k).isNone then .next s
  else .next ((s.setFlag (Reg.GML_STATUS k) F.GML_STATUS.SENSE true).modLink k (fun l => { l with senseAt := some s.now }))

/-- PEER_SENSE_TIMEOUT (R466): 1.5 ms after the last edge. -/
def execPeerSenseTimeout (link : Fin 3) (s : State) : Res :=
  let k := link.val
  match s.linkPartner k, (s.link k).senseAt with
  | some e, some t =>
    let s := (s.reach (t + 1500000)).setFlag (Reg.GML_STATUS k) F.GML_STATUS.SENSE false
    .next ((s.modLink k (fun l => { l with senseAt := none })).losePartner e)
  | _, _ => .next s

/-- PEER_UNREACHABLE (R466): 1 ms after the last packet of the partner. One whose PEER_ALIVE is not sensed is lost with it. -/
def execPeerUnreachable (peer : Fin 4) (s : State) : Res :=
  let e := peer.val
  match (s.gml.heard[e]?).join with
  | none => .next s
  | some t =>
    if !s.isPartner e || s.isLost e || s.isUnreachable e then .next s
    else
      let s := s.reach (t + 1000000)
      let s := (s.setFlag Reg.GML_PEERS ⟨16 + e, 16 + e⟩ true).event Reg.GML_EVENT F.GML_EVENT.UNREACHABLE
      if (s.directLink? e).isNone then .next (s.losePartner e) else .next (s.partnerGoes e 2)

/-- ROUTE_CHANGE (R454). -/
def execRouteChange (peer : Fin 4) (s : State) : Res := .next (s.reroute peer.val).forwardRecords

/-! ### Reservations, drains and remote requests (R455, R456, R459, R460) -/

/-- Take the first packet of a kind that waits on a link. -/
def State.takeRx (s : State) (k : Nat) (want : GmlPkt → Bool) : Option (GmlPkt × State) :=
  ((s.link k).rx.find? want).map (fun p => (p, s.modLink k (fun l => { l with rx := l.rx.erase p })))

/-- What the entries of a reservation lack (R92). -/
def State.reserveCode (s : State) (keys : List (Nat × Word × Nat)) : Nat :=
  let ts := keys.filterMap (fun x => (s.node? x.1).map (fun n =>
    (⟨x.1, 0, x.2.1, x.2.2, 0, 0, n.domain, true, none, false⟩ : Token)))
  (s.shortfall ts).1

/-- RESERVE: the sequencer answers GRANT, FULL or DELAY_FULL. -/
def execReserve (link : Fin 3) (s : State) : Res :=
  match s.takeRx link.val (fun p => match p with
    | .reserve _ _ _ _ => true
    | _ => false) with
  | some (.reserve src _ id keys, s) =>
    let code := s.reserveCode keys
    let s := if code == 0 then s.modGml (fun g => { g with promised := (g.promised ++ keys).eraseDups }) else s
    .next (s.sendTo src.val (.answer (dev2 s.device) src id (if code == 0 then 0 else if code == 1 then 1 else 2)))
  | _ => .next s

/-- The band that a reservation's number names: layer, ring, ring frame, band and input-flagged mark. -/
def bandOfId (id : Nat) : Nat × Nat × Nat × Nat × Bool :=
  let x := (id - 4096) / 2
  let y := x / 2 ^ 32
  (y / 2 ^ 24, y / 65536 % 256, x % 2 ^ 32, y % 65536, (id - 4096) % 2 == 1)

/-- Go on with a release whose reservation has been answered: released when every partner has granted, or refused. -/
def State.answered (s : State) (id code : Nat) : State :=
  if decide (id < 4096) then
    if code == 0 then s.tryRelease id
    else
      match s.entry? id with
      | some i =>
        match s.node? i.node with
        | some n => s.refuseRelease n i code ((s.flowOf? n).any (fun f => f.rc.mode == 1))
        | none => s
      | none => s
  else
    let b := bandOfId id
    let held := (s.fgs.heldBands.find? (fun x => x.2.1 == b.1 && x.2.2.1 == b.2.1 && x.2.2.2.1 == b.2.2.1 && x.2.2.2.2.1 == b.2.2.2.1)).map (·.1)
    if code == 0 then s.releaseBand b.1 b.2.1 b.2.2.1 b.2.2.2.1 b.2.2.2.2 held
    else
      match s.ring? b.1 b.2.1 with
      | some r => s.refuseBand r ((r.seqOf? b.2.2.1).getD 0) b.2.2.1 b.2.2.2.1 b.2.2.2.2 held code
      | none => s

/-- GRANT: the answer to a reservation. A refusal is handled as a local one, and the reservation is asked anew at the retry. -/
def execGrant (link : Fin 3) (s : State) : Res :=
  match s.takeRx link.val (fun p => match p with
    | .answer _ _ _ _ => true
    | _ => false) with
  | some (.answer src _ id code, s) =>
    if !s.gml.asked.any (fun a => a.1 == id && a.2.1 == src.val && a.2.2 == 0) then .next s
    else if code == 0 then
      .next ((s.modGml (fun g => { g with asked := g.asked.map (fun a => if a.1 == id && a.2.1 == src.val then (a.1, a.2.1, 1) else a) })).answered id 0)
    else .next ((s.modGml (fun g => { g with asked := g.asked.filter (fun a => !(a.1 == id && a.2.1 == src.val)) })).answered id code.val)
  | _ => .next s

/-- A partner has drained a slot of a ring placed here, for its first consumer that had still to drain it. -/
def State.drainFor (s : State) (e flag : Nat) : State :=
  let hit := s.fgs.rings.findSome? (fun r =>
    if r.remote.isNone && decide (r.rc.flagBase ≤ flag) && decide (flag < r.rc.flagBase + r.rc.slotCount) then some (r, flag - r.rc.flagBase) else none)
  match hit with
  | none => s
  | some (r, sl) =>
    match (s.readers r).find? (fun p => p.1.peer == some e && !r.drained.contains (sl, p.1.rc.slot, p.2)) with
    | none => s
    | some p =>
      if (s.slotFlag flag).state != slotFull then s
      else (s.modFlag flag (fun f => f.drain r.rc.consumers)).setRing { r with drained := r.drained ++ [(sl, p.1.rc.slot, p.2)] }

/-- DRAIN (R460). -/
def execDrain (link : Fin 3) (s : State) : Res :=
  match s.takeRx link.val (fun p => match p with
    | .drain _ _ _ => true
    | _ => false) with
  | some (.drain src _ flag, s) => .next (s.drainFor src.val flag)
  | _ => .next s

/-- Answer a request. -/
def State.respond (s : State) (e : Fin 4) (tag addr : Nat) (err : Bool) (data : List Byte) : State :=
  s.sendTo e.val (.response (dev2 s.device) e tag err addr data)

/-- Memory that a partner may reach (R503). -/
def remoteMemory (a : Nat) : Bool := decide (0x1000000 ≤ a) && !inRange a addrReg 0xC00000

/-- REMOTE_REQUEST_RX: an inbound transaction is judged and performed; one of a tile or Block Mover that a slot refuses stays
held and is tried again. -/
def execRemoteRequestRx (link : Fin 3) (s : State) : Res :=
  let k := link.val
  let kind (p : GmlPkt) : Bool := match p with
    | .request _ _ _ _ _ _ _ _ _ => true
    | _ => false
  match s.takeRx k kind with
  | some (.request src _ tag write addr len data domain held, t) =>
    let d := domain.toNat
    let c : Issuer := ⟨linkUnit k, d, held⟩
    if d == 0 || d == 1 || d == 15 then
      let t := (t.event (Reg.GML_ERR k) F.GML_ERR.INBOUND_DOMAIN).event Reg.GML_EVENT F.GML_EVENT.INBOUND_REFUSED
      .next ((t.addCnt (Reg.GML_CNT k 5) 1).respond src tag addr true [])
    else if !remoteMemory addr then .next (t.respond src tag addr true [])
    else if write then
      match t.judgeWrites c [(addr, data.take len)] with
      | (t, none) => .next ((t.writes [(addr, data.take len)]).respond src tag addr false [])
      | (t, some (.slot, _)) => if held then .next (t.modLink k (fun l => { l with rx := (s.link k).rx })) else .next (t.respond src tag addr true [])
      | (t, some _) => .next (t.respond src tag addr true [])
    else
      match t.judgeReads c [(addr, len)] false with
      | (t, none) => .next (t.respond src tag addr false (Memory.bytes t.mem addr len))
      | (t, some (.slot, _)) => if held then .next (t.modLink k (fun l => { l with rx := (s.link k).rx })) else .next (t.respond src tag addr true [])
      | (t, some _) => .next (t.respond src tag addr true [])
  | _ => .next s

/-! ### Time and the journal (R364, R463) -/

/-- GML_TIME_EXCHANGE: the mean of a millisecond's exchanges, the offset in units of 0.1 ns and the delay in ns. -/
def execGmlTimeExchange (link : Fin 3) (offset : Int) (delay : Nat) (s : State) : Res :=
  let k := link.val
  if s.linkState k != 2 then .next s
  else
    let s := s.setFld (Reg.GML_STATUS k) F.GML_STATUS.DELAY_NS (min 0xFFFF delay)
    .next (s.setFld (Reg.GML_TIME k) F.GML_TIME.OFFSET (unsigned 16 (clampI (-32767) 32767 offset)))

/-- JOURNAL_FORWARD_TIMEOUT: records that have waited for 1 s are not forwarded. -/
def execJournalForwardTimeout (s : State) : Res :=
  match s.journal.forward with
  | [] => .next s
  | (t, _) :: _ =>
    let s := s.reach (t + 1000000000)
    .next (s.modJournal (fun j => { j with forward := j.forward.filter (fun p => decide (s.now < p.1 + 1000000000)) }))

end Sys2Proof.Machine
end

