-- ==== Sys2Proof/Machine/Memory.lean ====
section
/-! DEFINITION. Commands of the memories (spec/12, spec/13): held accesses, stops, weight-cache fills, cinder entry and
ash fill, the flag word capture, address windows and write credits. -/

namespace Sys2Proof.Machine

open Sys2Proof

/-! ### Held accesses (R309) -/

/-- The wait limit of the step that a unit runs. -/
def State.waitLimit (s : State) (unit : Nat) : Nat := ((s.ctx? unit).map (·.waitNs)).getD 500000

/-- HELD_ACCESS_RETRY (R309): the held access is tried again at its next multiple of 100 ns; once it is served it waits
no more. -/
def execHeldAccessRetry (unit : Half) (s : State) : Res :=
  let u := s.unit unit.toNat
  match u.hold with
  | none => .next s
  | some h =>
    let s := s.reach (h.since + ((s.now - h.since) / 100 + 1) * 100)
    if h.waiting && !isRemote h.addr && s.slotsServe h.addr 1 h.write then
      .next (s.setUnit { u with hold := some { h with waiting := false } })
    else .next s

/-- HELD_ACCESS_LIMIT (R309): held for the wait limit, counted from the first hold in the step. -/
def execHeldAccessLimit (unit : Half) (s : State) : Res :=
  match (s.unit unit.toNat).hold, s.ctx? unit.toNat with
  | some h, some c =>
    let s := s.reach (h.since + c.waitNs)
    .next (s.stepFault c (if h.write then .slotOverrun else .slotTimeout) h.addr h.write)
  | _, _ => .next s

/-! ### Stops (R109, R330, R331) -/

/-- Reads of a unit to other devices are detached: their data will be discarded (R331). -/
def State.detachReads (s : State) (unit : Nat) : State :=
  let n := (s.gml.outstanding.filter (fun x => x.unit == unit && !x.write && x.status == 0)).length
  let s1 : State := { s with mm := { s.mm with detached := s.mm.detached ++ List.replicate n unit } }
  s1.endRemote unit

/-- What a stop leaves in the unit's registers: the fault code 6, the ended-step counter, and the discarded bytes, whose
number hangs on the transfers in flight and is a free value (log entry 18). -/
def State.stopMarks (s : State) (unit : Nat) (i : Inst) : State :=
  let cls := unit / 256
  let s := if cls == 9 then s
    else
      let a := engBase unit + (if cls == 8 then 0x14 else 0xC)
      let s := ((s.setFld a ⟨31, 28⟩ 6).setFld a ⟨27, 16⟩ i.node).setFld a ⟨11, 0⟩ i.tile
      if cls == 8 then s.setFld (Reg.NT_FAULT_STEP (unit % 256)) F.NT_FAULT_STEP.STEP i.step else s
  let (v, s) := s.draw
  (s.addCnt (endedCnt unit) 1).addCnt (Reg.MC_FS_CNT 5) v

/-- UNIT_STOP_ACK (R330): the stopped unit reports, and the void release of its instance follows. -/
def execUnitStopAck (unit : Half) (s : State) : Res :=
  let u := unit.toNat
  match (s.unit u).entry.bind s.entry? with
  | none => .next s
  | some i =>
    if !i.stopping || (pcOf u).isSome then .next s
    else
      let part := ((s.node? i.node).map (·.domain)).getD 0
      .next (((((s.stopMarks u i).tapAbort u part i.node).detachReads u).dropCarry u).cancelNow i.entry)

/-- DETACHED_READ_RETURN (R331): the data is discarded and the tag freed. -/
def execDetachedReadReturn (unit : Half) (s : State) : Res :=
  let u := unit.toNat
  if s.mm.detached.contains u then
    let s1 : State := { s with mm := { s.mm with detached := s.mm.detached.erase u } }
    match s.gml.outstanding.find? (fun x => x.unit == u && !x.write) with
    | some x => .next { s1 with gml := { s1.gml with outstanding := s1.gml.outstanding.erase x } }
    | none => .next s1
  else .next s

/-! ### Weight cache (R322) -/

/-- WC_MISS_FILL_DONE (R322): the line is placed and waiting reads are served. -/
def execWcMissFillDone (line : Nat) (s : State) : Res :=
  if s.mm.wcPending.contains line then
    .next { s with mm := { s.mm with wcPending := s.mm.wcPending.erase line, wcLines := wcPlace s.wcWays s.mm.wcLines line } }
  else .next s

/-! ### Cinder and ash fill (R316 to R321, R342) -/

/-- CINDER_ENTRY (R318): a region whose outgoing writes are done enters the cinder state. -/
def execCinderEntry (addr : Nat) (s : State) : Res := .next (s.enterCinder addr)

/-- Pages of a range whose number is k modulo n. -/
def pagesMod (p0 p1 n k : Nat) : Nat := (p1 + n - 1 - k) / n - (p0 + n - 1 - k) / n

/-- An LPDDR5X fill counts its sub-blocks at each controller and leaves them zero-coded (R319, R339). -/
def State.lpFilled (s : State) (base size : Nat) : State :=
  let ch := s.channels
  let p0 := (base - addrLp) / 4096
  let p1 := (base - addrLp + size) / 4096
  let s1 := (ch.mapIdx (fun i n => (i, n))).foldl (fun (s : State) x =>
    let s := s.addCnt (Reg.MC_CNT x.2 3) (64 * pagesMod p0 p1 (max 1 ch.length) x.1)
    if s.fld (Reg.MC_STATUS x.2) F.MC_STATUS.STATE == 4 then s.setFld (Reg.MC_STATUS x.2) F.MC_STATUS.STATE 2 else s) s
  { s1 with mm := { s1.mm with zeroCoded := joinRange s1.mm.zeroCoded (base, base + size) } }

/-- The ash fill of a tile clears its LUT memory, writer table, address windows and write credits as well (R262, R314, R319). -/
def State.tileFilled (s : State) (n : Nat) : State :=
  let s := { s with nts := s.nts.mapIdx (fun i t => if i == n then TileSt.idle else t) }
  let s := s.loadWindows n []
  let s := (List.range 4).foldl (fun (s : State) k => s.setReg (Reg.NT_WIN_CTRL n 0 + 4 * k) 0) s
  let s := (List.range 16).foldl (fun (s : State) k => (s.setReg (Reg.NT_CRED_CTRL n k) 0).setReg (Reg.NT_CRED_WIN n k) 0) s
  if (s.unit (0x0800 + n)).fenced then s.gateUnit (0x0800 + n) else s

/-- ASH_FILL_DONE (R319, R320): the region leaves the cinder state and holds zeros. -/
def execAshFillDone (addr : Nat) (s : State) : Res :=
  match s.mm.cinder.find? (fun c => c.base == addr && !c.waiting) with
  | none => .next s
  | some c =>
    let s1 : State := { s with
      mem := Memory.clear s.mem c.base c.size
      mm := { s.mm with cinder := s.mm.cinder.filter (fun x => !(x.base == c.base && x.size == c.size)) } }
    let s2 := s1.event Reg.MC_FS_EVENT F.MC_FS_EVENT.FILL_DONE
    if inRange c.base addrLp 0x1000000000 then .next (s2.lpFilled c.base c.size)
    else if inRange c.base addrSpm 0x8000000 then .next (s2.tileFilled ((c.base - addrSpm) / 0x800000))
    else .next s2

/-! ### Registers of the memories -/

/-- MC_FLAG_HI_READ (R344): the whole word that MC_FLAG_SEL selects is captured. -/
def execMcFlagHiRead (s : State) : Res :=
  let w := s.flagWord (s.fld Reg.MC_FLAG_SEL F.MC_FLAG_SEL.FLAG)
  .next { s with mm := { s.mm with flagHold := w } }

/-- The partition of the layer that owns a tile. -/
def State.tileOwner (s : State) (n : Nat) : Option Nat :=
  (s.scene.layers.find? (fun l => maskNames l.rc.unitMask (0x0800 + n))).map (·.rc.partition)

/-- Domain ID 0 and the tile's owner may write its windows and credits (R300, R345). -/
def State.tileWriter (s : State) (n domain : Nat) : Bool := domain == 0 || s.tileOwner n == some domain

/-- Refuse a window or credit write: the register keeps its value and WINDOW_REFUSED is journaled. -/
def State.windowRefused (s : State) (n off : Nat) (value : Word) (domain : Nat) : State :=
  s.log (0x0800 + n) 0x0605 1 domain 0xFF off value.toNat domain

/-- NT_WIN_WRITE (R300): accepted while the tile holds no instance. -/
def execNtWinWrite (tile : Fin 16) (offset : BitVec 8) (value : Word) (domain : BitVec 4) (s : State) : Res :=
  let n := tile.val
  let m := offset.toNat / 16
  let k := offset.toNat / 4 % 4
  let off := 0x100 + offset.toNat / 4 * 4
  let pages := (if k == 2 then value.toNat else s.fld (Reg.NT_WIN_PAGES n m) F.NT_WIN_PAGES.PAGES) % 2 ^ 30
  let vb := s.fld (Reg.NT_WIN_VBASE n m) F.NT_WIN_VBASE.VPAGE
  let tb := s.fld (Reg.NT_WIN_TBASE n m) F.NT_WIN_TBASE.TPAGE
  let tooFar := k == 2 && (decide (2 ^ 30 < vb + pages) || decide (2 ^ 30 < tb + pages))
  if (s.unit (0x0800 + n)).entry.isSome || !s.tileWriter n domain.toNat || tooFar then .next (s.windowRefused n off value domain.toNat)
  else
    match k with
    | 0 => .next (s.setReg (Reg.NT_WIN_CTRL n m) (value &&& 7))
    | 1 => .next (s.setReg (Reg.NT_WIN_VBASE n m) (value &&& F.NT_WIN_VBASE.VPAGE.mask))
    | 2 => .next (s.setReg (Reg.NT_WIN_PAGES n m) (value &&& F.NT_WIN_PAGES.PAGES.mask))
    | _ => .next (s.setReg (Reg.NT_WIN_TBASE n m) (value &&& F.NT_WIN_TBASE.TPAGE.mask))

/-- The writable bits of a write-credit control register. -/
def credCtrlMask : Word := F.NT_CRED_CTRL.VALID.mask ||| F.NT_CRED_CTRL.DOMAIN.mask ||| F.NT_CRED_CTRL.ANY.mask ||| F.NT_CRED_CTRL.INITIATOR.mask

/-- NT_CRED_WRITE (R314, R345): offset counts from the tile's first write-credit register. -/
def execNtCredWrite (tile : Fin 16) (offset : BitVec 8) (value : Word) (domain : BitVec 4) (s : State) : Res :=
  let n := tile.val
  let k := offset.toNat / 8
  if decide (16 ≤ k) then .next s
  else if !s.tileWriter n domain.toNat then .next (s.windowRefused n (0x340 + offset.toNat / 4 * 4) value domain.toNat)
  else if offset.toNat / 4 % 2 == 0 then .next (s.setReg (Reg.NT_CRED_CTRL n k) (value &&& credCtrlMask))
  else .next (s.setReg (Reg.NT_CRED_WIN n k) (value &&& (F.NT_CRED_WIN.LEN.mask ||| F.NT_CRED_WIN.BASE.mask)))

end Sys2Proof.Machine
end

