-- ==== Sys2Proof/Machine/Neural.lean ====
section
/-! DEFINITION. What the operations of a Neural Tile compute (R248 to R250, R265 to R271, R294 to R296): each takes the operands
of the step in its compute phase and leaves its results for the store phase. -/

namespace Sys2Proof.Machine

open Sys2Proof

/-- Results of a compute phase: tensors, saturated elements, CNT6 events and out-of-range indices. -/
structure NtOut where
  res : List TRes
  sat : Nat
  odd : Nat
  idx : Nat
  deriving DecidableEq, Repr

/-- A result of integers. -/
def intRes (dims : List Nat) (l : List Int) : TRes := ⟨dims, 0, l.map (unsigned 32), []⟩

/-- A result of FP32 values. -/
def fpRes (dims : List Nat) (l : List Fp) : TRes := ⟨dims, 1, l.map (fun v => fp32.encode v false), []⟩

/-- A result with no events. -/
def NtOut.plain (r : List TRes) : NtOut := ⟨r, 0, 0, 0⟩

/-- Run the compute phase of a tile whose step is of one operation: the operands are handed over as the step reads them. -/
def State.ntCompute (s : State) (n op : Nat) (f : TileSt → Td → Opnd → Opnd → Opnd → NtOut) : State :=
  match s.ctx? (0x0800 + n) with
  | none => s
  | some c =>
    let t := s.nt n
    if (s.ntPhase n).1 != 4 || t.computed || leAt t.desc 0 1 != op then s
    else
      let none' : Opnd := ⟨0x47, [1, 1, 1, 1, 1], #[], #[]⟩
      let a := s.ntOperand c 0
      let b := if usesB t.desc then s.ntOperand c 1 else none'
      let k := if usesC t.desc then s.ntOperand c 2 else none'
      let o := f t (parseTd (t.tds.getD 3 [])) a b k
      s.modNt n (fun t => { t with computed := true, res := o.res, sat := o.sat, odd := o.odd, idx := o.idx })

/-- Split a list into parts of n. -/
def chunk {α : Type} (n : Nat) (l : List α) : List (List α) := (List.range (ceilDiv l.length n)).map (fun i => (l.drop (n * i)).take n)

/-! ### Products (R248 to R250) -/

/-- One exact addition to an INT32 sum; a saturated sum stays where it is (log entry 23). -/
def satAdd (a : Int × Bool) (x : Int) : Int × Bool :=
  if a.2 then a
  else
    let y := a.1 + x
    if y < -2147483648 then (-2147483648, true) else if 2147483647 < y then (2147483647, true) else (y, false)

/-- The exact sum of a group's products, rounded once to FP32. -/
def groupSum (ps : List Fp) : Fp := fp32.round (ps.foldl Fp.add (.fin true 0 0))

/-- Sum of groups added to an FP32 accumulator in order. -/
def groupsAdd (acc : Fp) (gs : List (List Fp)) : Fp := gs.foldl (fun a g => f32add a (groupSum g)) acc

/-- The accumulators of a step whose element at a position sums products over groups of (A position or a zero, B position). -/
def macAll (t : TileSt) (dims : List Nat) (a b c : Opnd) (groups : List Nat → List (List (Option (List Nat) × List Nat))) : NtOut :=
  let load := (parseNt t.desc).accLoad
  if nfInt a.f then
    let x := (coordsOf dims).map (fun l =>
      ((groups l).flatten).foldl (fun s p => satAdd s ((match p.1 with
        | some i => a.int i
        | none => 0) * b.int p.2)) (if load then c.int l else 0, false))
    ⟨[intRes dims (x.map (·.1))], (x.filter (·.2)).length, 0, 0⟩
  else
    NtOut.plain [fpRes dims ((coordsOf dims).map (fun l =>
      groupsAdd (if load then c.fp l else Fp.zero) ((groups l).map (fun g => g.map (fun p =>
        (match p.1 with
          | some i => a.fp i
          | none => Fp.zero).mul (b.fp p.2))))))]

/-- MATMUL (R248, R249). -/
def execMatmul (tile : Fin 16) (s : State) : Res :=
  .next (s.ntCompute tile.val 0x50 (fun t o a b c =>
    macAll t o.dims a b c (fun l =>
      let bb := (List.range 3).map (fun k => if b.dims.getD (k + 2) 1 == 1 then 0 else l.getD (k + 2) 0)
      chunk 32 ((List.range (a.dims.getD 0 1)).map (fun k => (some (k :: l.drop 1), k :: l.getD 0 0 :: bb))))))

/-- Input position of a tap along one axis; none outside A (R265). -/
def tapPos (transposed : Bool) (x pad k stride dil size : Nat) : Option Nat :=
  if transposed then
    if x + pad < k * dil || (x + pad - k * dil) % stride != 0 then none
    else
      let p := (x + pad - k * dil) / stride
      if p < size then some p else none
  else
    let p := x * stride + k * dil
    if p < pad || size ≤ p - pad then none else some (p - pad)

/-- CONV (R249, R265): K runs over the channels of a group, then the kernel columns, then the kernel lines. -/
def execConv (tile : Fin 16) (s : State) : Res :=
  .next (s.ntCompute tile.val 0x51 (fun t o a b c =>
    let f := parseConv t.desc
    let cg := b.dims.getD 0 1
    let kw := b.dims.getD 1 1
    let kh := b.dims.getD 2 1
    let co := max 1 (b.dims.getD 3 1 / max 1 f.groups)
    macAll t o.dims a b c (fun l =>
      let g := l.getD 0 0 / co
      let taps := (List.range kh).flatMap (fun ky => (List.range kw).map (fun kx =>
        let ix := tapPos f.transposed (l.getD 1 0) f.padL kx f.sx f.dx (a.dims.getD 1 1)
        let iy := tapPos f.transposed (l.getD 2 0) f.padT ky f.sy f.dy (a.dims.getD 2 1)
        (List.range cg).map (fun ci =>
          ((match ix, iy with
            | some x, some y => some [g * cg + ci, x, y, l.getD 3 0, 0]
            | _, _ => none), [ci, kx, ky, l.getD 0 0, 0]))))
      if nfMx a.f then taps.flatMap (chunk 32) else chunk 32 taps.flatten)))

/-! ### Attention (R266, R267) -/

/-- exp, 1 ÷ sqrt and the quotient of R267; exp of −∞ is 0. -/
def f32exp (v : Fp) : Fp := if v == .inf true then Fp.zero else fp32.decode (Config.expF32 (w32 (fp32.encode v false))).toNat
def f32rsqrt (v : Fp) : Fp := fp32.decode (Config.rsqrtF32 (w32 (fp32.encode v false))).toNat
def f32quot (x y : Fp) : Fp := fp32.decode (Config.quotF32 (w32 (fp32.encode x false)) (w32 (fp32.encode y false))).toNat

/-- Key j is visible to query row i. -/
def keyVisible (d : List Byte) (i j : Nat) : Bool :=
  let q : Int := leAt d 0x2E 2 + i
  let k : Int := leAt d 0x30 2 + j
  match leAt d 0x29 1 with
  | 0 => true
  | 1 => decide (k ≤ q)
  | _ => decide (q + signed 16 (leAt d 0x2A 2) ≤ k) && decide (k ≤ q + signed 16 (leAt d 0x2C 2))

/-- P of a block converted to V's format and back, with the conversions counted; MX blocks of 32 run along the keys. -/
def attnP (f : Nat) (sat : Bool) (ps : List Fp) : List Fp × Nat :=
  if nfMx f then
    let bs := (chunk 32 ps).map (mxBlock f)
    (bs.flatMap (fun b => b.2.1.map (fun e => nfValue f e b.1)), (bs.map (fun b => b.2.2)).foldl (· + ·) 0)
  else
    let x := ps.map (toFloatFormat f sat)
    (x.map (fun p => nfElement f p.1), (x.filter (·.2)).length)

/-- Running maximum (none before the first visible key), row sum, partial outputs and conversions. -/
structure AttnRow where
  m : Option Fp
  l : Fp
  o : List Fp
  odd : Nat
  deriving DecidableEq, Repr

/-- One block of keys of a row. -/
def attnBlock (d : List Byte) (q k v : Opnd) (i h b j0 n : Nat) (r : AttnRow) : AttnRow :=
  let dim := q.dims.getD 0 1
  let scale := fp32.decode (leAt d 0x38 4)
  let sc := (List.range n).map (fun j =>
    if keyVisible d i (j0 + j) then
      some (f32mul scale (groupsAdd Fp.zero (chunk 32 ((List.range dim).map (fun e => (q.fp [e, i, h, b, 0]).mul (k.fp [e, j0 + j, h, b, 0]))))))
    else none)
  match sc.filterMap id with
  | [] => r
  | x :: t =>
    let top := t.foldl (f32minMax true) x
    let m := match r.m with
      | some m => f32minMax true m top
      | none => top
    let w := match r.m with
      | some old => f32exp (f32add old m.neg)
      | none => Fp.zero
    let ps := sc.map (fun s => match s with
      | some x => f32exp (f32add x m.neg)
      | none => Fp.zero)
    let p := attnP v.f ((parseNt d).sat) ps
    { m := some m
      l := ps.foldl f32add (f32mul r.l w)
      o := r.o.mapIdx (fun e x =>
        groupsAdd (f32mul x w) (chunk 32 (p.1.mapIdx (fun j y => y.mul (v.fp [e, j0 + j, h, b, 0])))))
      odd := r.odd + p.2 }

/-- ATTENTION (R266): the running-maximum form over blocks of 128 keys. -/
def execAttention (tile : Fin 16) (s : State) : Res :=
  .next (s.ntCompute tile.val 0x52 (fun t o q k v =>
    let dim := q.dims.getD 0 1
    let lk := k.dims.getD 1 1
    let rows := (coordsOf (o.dims.drop 1)).map (fun l =>
      let i := l.getD 0 0
      let h := l.getD 1 0
      let b := l.getD 2 0
      (List.range (ceilDiv lk 128)).foldl (fun r j => attnBlock t.desc q k v i h b (128 * j) (min 128 (lk - 128 * j)) r)
        ⟨none, Fp.zero, List.replicate dim Fp.zero, 0⟩)
    ⟨[fpRes o.dims (rows.flatMap (fun r => if r.m.isNone then List.replicate dim Fp.zero else r.o.map (fun x => f32quot x r.l)))], 0,
      (rows.map (fun r => r.odd + (if r.m.isNone then 1 else 0))).foldl (· + ·) 0, 0⟩))

/-! ### Vector unit (R268) -/

/-- An INT32 result of ELEMENTWISE; what lies outside the range is free. -/
def eopInt (eop : Nat) (a b : Int) : Int :=
  let x := match eop with
    | 0 => a + b
    | 1 => a - b
    | 2 => a * b
    | 4 => max a b
    | _ => min a b
  if x < -2147483648 || 2147483647 < x then signed 32 (Config.int32Overflow eop (w32 (unsigned 32 a)) (w32 (unsigned 32 b))).toNat else x

/-- An FP32 result of ELEMENTWISE. -/
def eopFp (eop : Nat) (a b : Fp) : Fp :=
  match eop with
  | 0 => f32add a b
  | 1 => f32add a b.neg
  | 2 => f32mul a b
  | 3 => f32div a b
  | 4 => f32minMax true a b
  | _ => f32minMax false a b

/-- ELEMENTWISE (R268). -/
def execElementwise (tile : Fin 16) (s : State) : Res :=
  .next (s.ntCompute tile.val 0x53 (fun t o a b _ =>
    let eop := leAt t.desc 0x29 1
    let scalar := leAt t.desc 0x2E 1 == 1
    let at' (l : List Nat) : List Nat := l.mapIdx (fun k i => if b.dims.getD k 1 == 1 then 0 else i)
    if nfInt a.f && !scalar && nfInt b.f && nfInt o.format && eop != 3 then
      NtOut.plain [intRes o.dims ((coordsOf o.dims).map (fun l => eopInt eop (a.int l) (b.int (at' l))))]
    else
      NtOut.plain [fpRes o.dims ((coordsOf o.dims).map (fun l =>
        eopFp eop (fp32.round (a.fp l)) (if scalar then fp32.decode (leAt t.desc 0x2A 4) else fp32.round (b.fp (at' l)))))]))

/-- Positions that a REDUCE result reads, in ascending order, each with its index. -/
def reduceItems (d : List Byte) (dims : List Nat) (l : List Nat) : List (Nat × List Nat) :=
  if leAt d 0x2A 1 != 0xFF then
    let ax := leAt d 0x2A 1
    (List.range (dims.getD ax 1)).map (fun i => (i, l.set ax i))
  else
    let kw := leAt d 0x2B 1 % 16 + 1
    let kh := leAt d 0x2B 1 / 16 + 1
    (List.range (kw * kh)).filterMap (fun k =>
      match tapPos false (l.getD 1 0) (leAt d 0x2D 1) (k % kw) (leAt d 0x2C 1 % 16) 1 (dims.getD 1 1),
            tapPos false (l.getD 2 0) (leAt d 0x2F 1) (k / kw) (leAt d 0x2C 1 / 16) 1 (dims.getD 2 1) with
      | some x, some y => some (k, (l.set 1 x).set 2 y)
      | _, _ => none)

/-- `a` is a better value than `b` for ARGMAX or ARGMIN: a NaN is smaller than every number. -/
def argBetter (isMax : Bool) (a b : Fp) : Bool :=
  if isMax then !a.isNan && (b.isNan || b.lt a) else !b.isNan && (a.isNan || a.lt b)

/-- Index of the best value, the lowest among equals. -/
def argBest (isMax : Bool) (l : List (Nat × Fp)) : Int :=
  match l with
  | [] => signed 32 (Config.emptyWindow isMax).toNat
  | x :: t => ((t.foldl (fun b p => if argBetter isMax p.2 b.2 then p else b) x).1 : Nat)

/-- REDUCE (R268). -/
def execReduce (tile : Fin 16) (s : State) : Res :=
  .next (s.ntCompute tile.val 0x54 (fun t o a _ _ =>
    let rop := leAt t.desc 0x29 1
    let items := (coordsOf o.dims).map (reduceItems t.desc a.dims)
    let vals := items.map (fun l => l.map (fun p => (p.1, fp32.round (a.fp p.2))))
    let sum (l : List (Nat × Fp)) : Fp := l.foldl (fun x p => f32add x p.2) Fp.zero
    let isMax := rop == 2
    match rop with
    | 0 =>
      if nfInt a.f && nfInt o.format then
        let x := items.map (fun l => l.foldl (fun x p => satAdd x (a.int p.2)) (0, false))
        ⟨[intRes o.dims (x.map (·.1))], (x.filter (·.2)).length, 0, 0⟩
      else NtOut.plain [fpRes o.dims (vals.map sum)]
    | 1 => NtOut.plain [fpRes o.dims (vals.map (fun l => f32div (sum l) (Fp.ofNat l.length)))]
    | 4 => NtOut.plain [intRes o.dims ((items.map (fun l => l.map (fun p => (p.1, a.fp p.2)))).map (argBest true))]
    | 5 => NtOut.plain [intRes o.dims ((items.map (fun l => l.map (fun p => (p.1, a.fp p.2)))).map (argBest false))]
    | _ =>
      if nfInt a.f then
        NtOut.plain [intRes o.dims (items.map (fun l =>
          match l.map (fun p => a.int p.2) with
          | [] => signed 32 (Config.emptyWindow isMax).toNat
          | x :: t => t.foldl (if isMax then max else min) x))]
      else
        NtOut.plain [fpRes o.dims (vals.map (fun l =>
          match l.map (·.2) with
          | [] => fp32.decode (Config.emptyWindow isMax).toNat
          | x :: t => t.foldl (f32minMax isMax) x))]))

/-- NORM of one line along d0 (R268). -/
def normLine (d : List Byte) (b : Opnd) (xs : List Fp) : List Fp :=
  let n := Fp.ofNat xs.length
  let eps := fp32.decode (leAt d 0x2A 4)
  let γ (c : Nat) : Fp := fp32.round (b.fp [c, 0, 0, 0, 0])
  let β (c : Nat) : Fp := fp32.round (b.fp [c, 1, 0, 0, 0])
  match leAt d 0x29 1 with
  | 0 =>
    let μ := f32div (xs.foldl f32add Fp.zero) n
    let ds := xs.map (fun x => f32add x μ.neg)
    let v := f32div ((ds.map (fun x => f32mul x x)).foldl f32add Fp.zero) n
    let r := f32rsqrt (f32add v eps)
    ds.mapIdx (fun c x => f32add (f32mul (f32mul x r) (γ c)) (β c))
  | 1 =>
    let v := f32div ((xs.map (fun x => f32mul x x)).foldl f32add Fp.zero) n
    let r := f32rsqrt (f32add v eps)
    xs.mapIdx (fun c x => f32mul (f32mul x r) (γ c))
  | _ =>
    match xs with
    | [] => []
    | x :: t =>
      let m := t.foldl (f32minMax true) x
      let es := xs.map (fun x => f32exp (f32add x m.neg))
      let l := es.foldl f32add Fp.zero
      es.map (fun e => f32quot e l)

/-- NORM (R268). -/
def execNorm (tile : Fin 16) (s : State) : Res :=
  .next (s.ntCompute tile.val 0x55 (fun t o a b _ =>
    NtOut.plain [fpRes o.dims ((coordsOf (o.dims.drop 1)).flatMap (fun l =>
      normLine t.desc b ((List.range (o.dims.getD 0 1)).map (fun c => fp32.round (a.fp (c :: l))))))]))

/-- LUT (R252). -/
def execLut (tile : Fin 16) (s : State) : Res :=
  .next (s.ntCompute tile.val 0x5C (fun t o a _ _ =>
    NtOut.plain [fpRes o.dims ((coordsOf o.dims).map (fun l => lutApply t.lut (fp32.round (a.fp l))))]))

/-! ### Gather, scatter and permute (R286, R294 to R296) -/

/-- What index j of a stream selects along AXIS, and along AXIS + 1 for a coordinate pair; none out of range (R294). -/
def indexAt (b : Opnd) (dims : List Nat) (ax j : Nat) : Option (Nat × Option Nat) :=
  let l := dims.getD ax 1
  if b.f == 0x48 then
    let v := b.int [j, 0, 0, 0, 0]
    let v := if v < 0 then v + l else v
    if v < 0 || (l : Int) ≤ v then none else some (v.toNat, none)
  else
    let x := b.int [0, j, 0, 0, 0]
    let y := b.int [1, j, 0, 0, 0]
    if x < 0 || (l : Int) ≤ x || y < 0 || ((dims.getD (ax + 1) 1 : Nat) : Int) ≤ y then none else some (x.toNat, some y.toNat)

/-- Coordinates with the indexed dimensions set. -/
def selectAt (l : List Nat) (ax : Nat) (p : Nat × Option Nat) : List Nat :=
  match p.2 with
  | none => l.set ax p.1
  | some y => (l.set ax p.1).set (ax + 1) y

/-- Out-of-range indices, counted once for every batch position. -/
def idxCount (b : Opnd) (dims : List Nat) (ax : Nat) : Nat :=
  let pair := b.f != 0x48
  let n := if pair then b.dims.getD 1 1 else b.dims.getD 0 1
  ((List.range n).filter (fun j => (indexAt b dims ax j).isNone)).length * volume (dims.drop (if pair then ax + 2 else ax + 1))

/-- GATHER (R295). -/
def execGather (tile : Fin 16) (s : State) : Res :=
  .next (s.ntCompute tile.val 0x56 (fun t o a b _ =>
    let ax := leAt t.desc 0x29 1
    let src := (coordsOf o.dims).map (fun l => (indexAt b a.dims ax (l.getD ax 0)).map (fun p => lin a.dims (selectAt l ax p)))
    let el (m : Array Nat) (p : Option Nat) : Nat := match p with
      | some i => m.getD i 0
      | none => 0
    ⟨[⟨o.dims, 2, src.map (el a.els), src.map (el a.scales)⟩], 0, 0, idxCount b a.dims ax⟩))

/-- FP32 MAX or MIN of SCATTER: a NaN of either gives NaN; +0 stands over −0 for MAX, −0 over +0 for MIN. -/
def scatterMinMax (isMax : Bool) (r u : Fp) : Fp :=
  if r.isNan || u.isNan then .nan
  else if r.isZero && u.isZero then (if isMax == r.signBit then u else r)
  else if isMax == r.lt u then u else r

/-- One update combined with a result element: bits, saturated (R296). -/
def scatterOne (f mode : Nat) (r : Nat × Bool) (u : Nat) : Nat × Bool :=
  if mode == 3 then (u, false)
  else if f == 0x48 then
    let x := signed 32 r.1
    let y := signed 32 u
    match mode with
    | 0 => let z := satAdd (x, r.2) y; (unsigned 32 z.1, z.2)
    | 1 => (unsigned 32 (max x y), false)
    | _ => (unsigned 32 (min x y), false)
  else
    let x := fp32.decode r.1
    let y := fp32.decode u
    let z := match mode with
      | 0 => f32add x y
      | 1 => scatterMinMax true x y
      | _ => scatterMinMax false x y
    ((toFloatFormat 0x47 false z).1, false)

/-- SCATTER (R296): updates are applied in ascending logical order of A. -/
def execScatter (tile : Fin 16) (s : State) : Res :=
  .next (s.ntCompute tile.val 0x57 (fun t o a b c =>
    let ax := leAt t.desc 0x29 1
    let mode := leAt t.desc 0x2A 1
    let start : Array (Nat × Bool × Nat) := ((List.range (volume c.dims)).map (fun i => (c.els.getD i 0, false, c.scales.getD i 0))).toArray
    let fin := (List.range (volume a.dims)).foldl (fun (r : Array (Nat × Bool × Nat)) i =>
      let l := unlin a.dims i
      match indexAt b c.dims ax (l.getD ax 0) with
      | none => r
      | some p =>
        let k := lin c.dims (selectAt l ax p)
        let old := r.getD k (0, false, 0)
        let z := scatterOne c.f mode (old.1, old.2.1) (a.els.getD i 0)
        r.setIfInBounds k (z.1, z.2, if mode == 3 then a.scales.getD i 0 else old.2.2)) start
    let l := fin.toList
    ⟨[⟨o.dims, 2, l.map (·.1), l.map (fun x => x.2.2)⟩], (l.filter (fun x => x.2.1)).length, 0, idxCount b c.dims ax⟩))

/-- PERMUTE (R287): the tensor as it is, to be stored under another layout. -/
def execPermute (tile : Fin 16) (s : State) : Res :=
  .next (s.ntCompute tile.val 0x59 (fun _ o a _ _ => NtOut.plain [⟨o.dims, 2, a.els.toList, a.scales.toList⟩]))

/-! ### Sampling and selection (R269 to R271) -/

/-- A coordinate pair of the offset field; none for an invalid flow record or disparity word. -/
def samplePos (d : List Byte) (a b : Opnd) (x y k : Nat) : Option (Fp × Fp) :=
  let v (i : Nat) : Fp := fp32.round (b.fp [i, x, y, 0, 0])
  let w := Fp.ofNat (a.dims.getD 1 1)
  let h := Fp.ofNat (a.dims.getD 2 1)
  let half (z : Fp) : Fp := f32div z (Fp.ofNat 2)
  let one := Fp.ofNat 1
  let norm (u n : Fp) : Fp :=
    if (leAt d 0x2A 1).testBit 2 then half (f32mul (f32add u one) (f32add n one.neg)) else half (f32add (f32mul (f32add u one) n) one.neg)
  match leAt d 0x29 1 with
  | 0 => some (f32add (Fp.ofNat x) (v (2 * k)), f32add (Fp.ofNat y) (v (2 * k + 1)))
  | 1 => some (norm (v (2 * k)) w, norm (v (2 * k + 1)) h)
  | 2 =>
    let dx := b.int [2 * k, x, y, 0, 0]
    let dy := b.int [2 * k + 1, x, y, 0, 0]
    if (flvComp (unsigned 16 dx)).isNone || (flvComp (unsigned 16 dy)).isNone then none
    else some (f32add (Fp.ofNat x) (f32div (Fp.ofInt dx) (Fp.ofNat 16)), f32add (Fp.ofNat y) (f32div (Fp.ofInt dy) (Fp.ofNat 16)))
  | _ =>
    let dw := unsigned 16 (b.int [k, x, y, 0, 0])
    if !dspValid dw then none else some (f32add (Fp.ofNat x) (f32div (Fp.ofNat dw) (Fp.ofNat 16)).neg, Fp.ofNat y)

/-- Value of A at a tap of channel ch. -/
def sampleTap (d : List Byte) (a : Opnd) (ch : Nat) (x y : Int) : Fp :=
  let w := a.dims.getD 1 1
  let h := a.dims.getD 2 1
  let inside := decide (0 ≤ x) && decide (x < w) && decide (0 ≤ y) && decide (y < h)
  if inside || (leAt d 0x2A 1).testBit 1 then
    fp32.round (a.fp [ch, (clampI 0 ((w : Int) - 1) x).toNat, (clampI 0 ((h : Int) - 1) y).toNat, 0, 0])
  else Fp.zero

/-- A sample at a position (R269). -/
def sampleAt (d : List Byte) (a : Opnd) (ch : Nat) (p : Fp × Fp) : Fp :=
  if (leAt d 0x2A 1).testBit 0 then
    match p.1.floorPlus 1, p.2.floorPlus 1 with
    | some x, some y => sampleTap d a ch x y
    | _, _ => Fp.zero
  else
    match p.1.floorPlus 0, p.2.floorPlus 0 with
    | some x, some y =>
      let one := Fp.ofNat 1
      let fx := f32add p.1 (Fp.ofInt x).neg
      let fy := f32add p.2 (Fp.ofInt y).neg
      let gx := f32add one fx.neg
      let gy := f32add one fy.neg
      f32add (f32add (f32add (f32mul (f32mul gx gy) (sampleTap d a ch x y)) (f32mul (f32mul fx gy) (sampleTap d a ch (x + 1) y)))
        (f32mul (f32mul gx fy) (sampleTap d a ch x (y + 1)))) (f32mul (f32mul fx fy) (sampleTap d a ch (x + 1) (y + 1)))
    | _, _ => Fp.zero

/-- SAMPLE (R269). -/
def execSample (tile : Fin 16) (s : State) : Res :=
  .next (s.ntCompute tile.val 0x58 (fun t o a b _ =>
    let ks := max 1 (leAt t.desc 0x2B 1)
    let bad := ((coordsOf [1, o.dims.getD 1 1, o.dims.getD 2 1]).filter (fun l =>
      (List.range ks).any (fun k => (samplePos t.desc a b (l.getD 1 0) (l.getD 2 0) k).isNone))).length
    ⟨[fpRes o.dims ((coordsOf o.dims).map (fun l =>
      match samplePos t.desc a b (l.getD 1 0) (l.getD 2 0) (l.getD 0 0 % ks) with
      | some p => sampleAt t.desc a (l.getD 0 0 / ks) p
      | none => Fp.zero))], 0, bad, 0⟩))

/-- `p` ranks before `q` in TOPK: a better value, or an equal one of lower index; a NaN ranks last. -/
def topkBefore (largest : Bool) (p q : Nat × Fp) : Bool :=
  let better (a b : Fp) : Bool := !a.isNan && (b.isNan || (if largest then b.lt a else a.lt b))
  better p.2 q.2 || (!better q.2 p.2 && decide (p.1 < q.1))

/-- Insert in order of rank. -/
def insertRank (before : Nat × Fp → Nat × Fp → Bool) (p : Nat × Fp) : List (Nat × Fp) → List (Nat × Fp)
  | [] => [p]
  | q :: t => if before p q then p :: q :: t else q :: insertRank before p t

/-- TOPK (R270): values to OUT, indices to C. -/
def execTopk (tile : Fin 16) (s : State) : Res :=
  .next (s.ntCompute tile.val 0x5A (fun t o a _ _ =>
    let k := leAt t.desc 0x2A 2
    let largest := leAt t.desc 0x29 1 == 1
    let lines := (coordsOf (a.dims.drop 1)).map (fun l =>
      ((((List.range (a.dims.getD 0 1)).map (fun i => (i, a.fp (i :: l)))).foldr (insertRank (topkBefore largest)) []).take k).map (fun p => (p.1, i2 a (p.1 :: l), p.2)))
    let flat := lines.flatten
    NtOut.plain [if nfInt a.f then intRes o.dims (flat.map (fun p => p.2.1)) else fpRes o.dims (flat.map (fun p => fp32.round p.2.2)),
      intRes o.dims (flat.map (fun p => (p.1 : Int)))]))
where
  /-- Integer of an element, 0 in a float format. -/
  i2 (a : Opnd) (l : List Nat) : Int := if nfInt a.f then a.int l else 0

/-- Intersection over union of two boxes (x1, y1, x2, y2), in FP32. -/
def iou (a b : List Fp) : Fp :=
  let g (l : List Fp) (i : Nat) : Fp := l.getD i Fp.zero
  let degenerate (l : List Fp) : Bool := (g l 2).lt (g l 0) || (g l 3).lt (g l 1)
  if degenerate a || degenerate b then Fp.zero
  else
    let area (l : List Fp) : Fp := f32mul (f32add (g l 2) (g l 0).neg) (f32add (g l 3) (g l 1).neg)
    let hi (x y : Fp) : Fp := if x.lt y then y else x
    let lo (x y : Fp) : Fp := if y.lt x then y else x
    let w := f32add (lo (g a 2) (g b 2)) (hi (g a 0) (g b 0)).neg
    let h := f32add (lo (g a 3) (g b 3)) (hi (g a 1) (g b 1)).neg
    if !(Fp.lt Fp.zero w) || !(Fp.lt Fp.zero h) then Fp.zero
    else
      let i := f32mul w h
      f32div i (f32add (f32add (area a) (area b)) i.neg)

/-- NMS (R271). -/
def execNms (tile : Fin 16) (s : State) : Res :=
  .next (s.ntCompute tile.val 0x5B (fun t o a b _ =>
    let limit := fp32.decode (leAt t.desc 0x2A 4)
    let maxOut := leAt t.desc 0x2E 2
    let least := fp32.decode (leAt t.desc 0x32 4)
    let box (i : Nat) : List Fp := (List.range 4).map (fun k => fp32.round (a.fp [k, i, 0, 0, 0]))
    let order := (((List.range (b.dims.getD 0 1)).map (fun i => (i, fp32.round (b.fp [i, 0, 0, 0, 0])))).filter (fun p => !p.2.lt least)).foldr
      (insertRank (topkBefore true)) []
    let kept := order.foldl (fun (k : List Nat) p =>
      if decide (k.length < maxOut) && k.all (fun i => Fp.le (iou (box p.1) (box i)) limit) then k ++ [p.1] else k) []
    NtOut.plain [intRes o.dims (kept.map (fun (i : Nat) => (i : Int)) ++ List.replicate (maxOut - kept.length) (-1))]))

end Sys2Proof.Machine
end

