-- ==== Sys2Proof/Machine/RegView.lean ====
section
/-! DEFINITION. What a read of a register returns (R7, R9 to R11, R488, R504): the value kept for it, the shadow of an SH
field, zero for a WO or reserved field, and the registers that show another part of the state. -/

namespace Sys2Proof.Machine

open Sys2Proof

/-! ### The map (R10, R504) -/

/-- The register whose instance lies at an offset. -/
def regSpec? (o : Nat) : Option RegSpec := regTable.find? (fun r => decide (r.base ≤ o) && strideHit r.strides (o - r.base))

/-- The NE-wide registers appear in every tile's block: every alias reaches the same register. -/
def regAlias (o : Nat) : Nat :=
  if inRange o 0x400000 0x100000 && inRange (o % 0x10000) 0x7000 0xC then 0x400000 + o % 0x10000 else o

/-- The ranges of the table "Register blocks". -/
def regBlocks : List (Nat × Nat) :=
  [(0x000000, 0x038000), (0x040000, 0x050000), (0x100000, 0x200000), (0x200000, 0x230000), (0x240000, 0x250000),
   (0x2C0000, 0x500000), (0x500000, 0x508000), (0x600000, 0x700000), (0x700000, 0x710000), (0x800000, 0x810000),
   (0x900000, 0x910000), (0xA00000, 0xA10000), (0xB00000, 0xB10000)]

/-- An offset lies in a register block. -/
def inBlock (o : Nat) : Bool := regBlocks.any (fun b => decide (b.1 ≤ o) && decide (o < b.2))

/-- The internal-only ranges that the defining chapters name. -/
def internalOnly (o : Nat) : Bool :=
  inRange o 0x110000 0xF0000 || inRange o 0x220000 0x10000 || inRange o 0x244000 0xC000
    || (inRange o 0x2C0000 0x240000 && decide (0x8000 ≤ o % 0x10000)) || inRange o 0x680000 0x80000
    || inRange o 0x70C000 0x4000 || inRange o 0x808000 0x8000 || inRange o 0xA08000 0x8000

/-- Registers banked by initiator (R114, R159, R352, R363, R428, R500). -/
def bankedReg (o : Nat) : Bool :=
  o == Reg.FGS_POST_SB || o == Reg.FGS_POST_LO || o == Reg.FGS_POST_HI || o == Reg.FGS_POST_RESULT
    || (inRange o 0x240000 0x4000 && inRange (o % 0x1000) 0x100 0x10)
    || inRange o (Reg.EJ_FW_ARG 0) 0x14 || o == Reg.FWL_SEL || o == Reg.PMU_UNIT_SEL || inRange o Reg.OF_SUB_LO 0xC || o == Reg.TL_NOW_LO

/-- Where the register of an offset is kept for an initiator's bank. -/
def keptAt (bank o : Nat) : Nat := if bankedReg o then bankOff bank o else o

/-- What the access codes let a read see of a register (table "Access codes"). -/
def State.shownWord (s : State) (bank o : Nat) : Word :=
  match regSpec? o with
  | none => 0
  | some r =>
    let a := keptAt bank o
    let w := s.reg a
    let sh := (assocGet s.shadow a).getD w
    r.fields.foldl (fun (v : Word) f =>
      match f.acc with
      | .wo => v
      | .sh => v ||| (sh &&& f.bits.mask)
      | _ => v ||| (w &&& f.bits.mask)) 0

/-! ### GPIO (R491) -/

/-- The level of a driven GPIO; none at high impedance or where the pin is not driven. -/
def State.gpioPin (s : State) (n : Nat) : Option Bool :=
  if !s.pins.gpioDriven.getLsbD n then none
  else
    match (s.gpioRec n).function with
    | 4 => some s.emberSelected
    | 5 => some s.io.ppsHigh
    | _ => some (s.pins.gpio.getLsbD n)

/-- GPIO_IN: the filtered level of an INPUT, or the driven level of any other function. -/
def State.gpioIn (s : State) : Word :=
  (List.range 32).foldl (fun (w : Word) n =>
    let up := if (s.gpioRec n).function == 1 then (s.reg Reg.GPIO_IN).getLsbD n else (s.gpioPin n).getD false
    if up then w ||| w32 (2 ^ n) else w) 0

/-! ### Registers that show another part of the state -/

/-- STATE of an engine or mover, or PHASE of a tile. -/
def State.unitState (s : State) (unit : Nat) : Nat :=
  let u := s.unit unit
  let cls := unit / 256
  let stopping := ((u.entry.bind s.entry?).map (·.stopping)).getD false
  let wait := (u.hold.map (·.waiting)).getD false
  let runs := (s.ctx? unit).isSome
  if cls == 8 then
    if u.fenced then 8
    else if s.mm.cinder.any (fun c => !c.waiting && inRange c.base (addrSpm + unit % 256 * 0x800000) 0x800000) then 9
    else if u.gated then 0
    else if stopping then 7
    else (s.ntPhase (unit % 256)).1
  else if cls == 9 then
    if u.fenced then 6
    else if s.flag (Reg.BM_FAULT_HI (unit % 256)) F.BM_FAULT_HI.VALID then 4
    else if u.gated then 0
    else if stopping then 5
    else if wait then 3
    else if runs then 2 else 1
  else if u.fenced then 6
  else if u.gated then 0
  else if stopping then 5
  else if wait then 4
  else if runs then 3 else 1

/-- The unit whose STATUS register lies at an offset. -/
def statusUnit (o : Nat) : Option Nat :=
  let n := o / 0x10000 % 4
  if o % 0x10000 == 0 && inRange o 0x2C0000 0x40000 then some (0x0700 + n)
  else if o % 0x10000 == 0 && inRange o 0x300000 0x40000 then some (0x0300 + n)
  else if o % 0x10000 == 0 && inRange o 0x340000 0x40000 then some (0x0400 + n)
  else if o % 0x10000 == 0 && inRange o 0x380000 0x40000 then some (0x0500 + n)
  else if o % 0x10000 == 0 && inRange o 0x3C0000 0x40000 then some (0x0600 + n)
  else if o % 0x10000 == 0 && inRange o 0x400000 0x100000 then some (0x0800 + o / 0x10000 % 16)
  else if o % 0x1000 == 0 && inRange o 0x500000 0x8000 then some (0x0900 + o / 0x1000 % 8)
  else none

/-- FGS_CLASSn_STATUS. -/
def State.classStatus (s : State) (c : Nat) : Word :=
  let ready := s.fgs.insts.filter (fun i => i.st == .ready && ((s.node? i.node).map (·.rc.cls)) == some c)
  let prios := ready.map (fun i => ((s.node? i.node).map (·.rc.prio)).getD 0)
  let busy := (s.units.filter (fun u => u.entry.isSome && classOfUnit u.code == c)).length
  let w := F.FGS_CLASS_STATUS.BUSY_UNITS.put busy (F.FGS_CLASS_STATUS.READY_COUNT.put ready.length 0)
  let w := F.FGS_CLASS_STATUS.ANY_READY.put (bit (!ready.isEmpty)) w
  F.FGS_CLASS_STATUS.TOP_PRIORITY.put (prios.foldl max 0) w

/-- The flow that FGS_FLOW_SEL names. -/
def State.shownFlow? (s : State) : Option FlowSt := s.fgs.flows.find? (fun f => f.rc.id == s.fld Reg.FGS_FLOW_SEL F.FGS_FLOW_SEL.FLOW)

/-- FGS_FLOW_STATUS. -/
def State.flowStatus (s : State) : Word :=
  match s.shownFlow? with
  | none => 0
  | some f =>
    let members := s.fgs.nodes.filter (fun m => m.layer == f.layer && m.rc.flow == some f.rc.id)
    let held := s.fgs.insts.filter (fun i => i.live && members.any (fun m => m.rc.slot == i.node)
      && ((i.flowPos.map (fun p => decide ((p - f.head).toNat < f.rc.window))).getD false))
    let period := ((s.layer? f.layer).map (·.periodNs)).getD 0 * members.foldl (fun a m => max a m.rc.rateDiv) 1
    let idle := match f.watchFrom with
      | some w => if period == 0 then 0 else min 4 ((s.now - w) / period)
      | none => 0
    let w := F.FGS_FLOW_STATUS.BOUND.put (bit (!members.isEmpty)) (F.FGS_FLOW_STATUS.MODE.put f.rc.mode 0)
    let w := F.FGS_FLOW_STATUS.IN_WINDOW.put (min 64 held.length) w
    F.FGS_FLOW_STATUS.IDLE_PERIODS.put idle (F.FGS_FLOW_STATUS.WINDOW.put f.rc.window w)

/-- CFE_STREAMn_STATE. -/
def State.streamState (s : State) (n : Nat) : Word :=
  match s.cam? n, s.streamRec? n with
  | some c, some p =>
    let path := if s.kin.absentStreams.contains n then 4 else s.pathOf p c
    let w := F.CFE_STREAM_STATE.BATCH_PENDING.put (bit c.batch.isSome) (F.CFE_STREAM_STATE.OPEN.put (bit c.frame.isSome) 0)
    F.CFE_STREAM_STATE.PATH.put path (F.CFE_STREAM_STATE.COUNTING.put (bit c.counting) w)
  | _, _ => 0

/-- MC_CINDER_STATUS. -/
def State.cinderStatus (s : State) : Word :=
  let here (b n : Nat) := (s.mm.cinder.filter (fun c => !c.waiting && inRange c.base b n)).length
  let fs := here addrFs fsBytes
  let lp := here addrLp 0x1000000000
  F.MC_CINDER_STATUS.FS_ENTRIES.put fs (F.MC_CINDER_STATUS.LP_ENTRIES.put lp (F.MC_CINDER_STATUS.FILL_BUSY.put (bit (fs + lp != 0)) 0))

/-- SI_COVER_STATUS of the unit that SI_COVER_SEL names. -/
def State.coverStatus (s : State) : Word :=
  match s.cover? (s.fld Reg.SI_COVER_SEL F.SI_COVER_SEL.UNIT) with
  | none => 0
  | some c =>
    let w := F.SI_COVER_STATUS.LATES.put c.lates (F.SI_COVER_STATUS.PROMOTED.put (bit c.promoted) 0)
    F.SI_COVER_STATUS.PENDING.put (bit c.pending) (F.SI_COVER_STATUS.MS.put (min 0xFFFF ((s.now - c.covered) / 1000000)) w)

/-- PMU_UNIT_STATUS of the unit that the bank's PMU_UNIT_SEL names. -/
def State.unitStatus (s : State) (bank : Nat) : Word :=
  let code := s.fld (bankOff bank Reg.PMU_UNIT_SEL) F.PMU_UNIT_SEL.UNIT
  let u := s.unit code
  let win := s.adaptLe 6 2 * 1000000000
  let n := if u.fenced then u.recur.length else (u.recur.filter (fun t => decide (s.now < t + win))).length
  let w := F.PMU_UNIT_STATUS.FENCED.put (bit u.fenced) (F.PMU_UNIT_STATUS.GATED.put (bit ((domainsOf code).any (fun d => !s.domainOn d))) 0)
  F.PMU_UNIT_STATUS.RECUR.put (min 15 n) (F.PMU_UNIT_STATUS.CAUSE.put u.cause w)

/-- A register of the region that the bank's FWL_SEL names. -/
def State.regionWord (s : State) (bank o : Nat) : Word :=
  let t := s.fld (bankOff bank Reg.FWL_SEL) F.FWL_SEL.TARGET
  let n := s.fld (bankOff bank Reg.FWL_SEL) F.FWL_SEL.REGION
  if o == Reg.FWL_RGN_CTRL then
    match s.safety.regions.find? (fun r => r.target == t && r.region == n) with
    | none => 0
    | some r =>
      let w := F.FWL_RGN_CTRL.ENABLE.put (bit r.enable) (F.FWL_RGN_CTRL.LOCK.put (bit r.lock) 0)
      F.FWL_RGN_CTRL.ANY.put (bit r.any) (F.FWL_RGN_CTRL.INITIATOR.put r.initiator w)
  else s.fwlShown o t n

/-- A vehicle-state entry as CANn_VS_STATE shows it. -/
def VsEntry.word (e : VsEntry) : Word :=
  F.CAN_VS_STATE.UPDATES.put e.updates (F.CAN_VS_STATE.E2E_FAIL.put (bit e.e2eFail) (F.CAN_VS_STATE.STALE.put (bit e.stale) 0))

/-- The entry that a controller's CANn_VS_SEL names. -/
def State.vsShown (s : State) (can : Nat) : VsEntry := s.io.vs.getD (s.fld (Reg.CAN_VS_SEL can) F.CAN_VS_SEL.ENTRY) VsEntry.fresh

/-- The journal's stream is sending (R364). -/
def State.streamOn (s : State) : Bool := s.journal.started && s.flag Reg.EJ_STREAM_CTRL F.EJ_STREAM_CTRL.ENABLE && s.streamRec.isSome

/-- Registers that show another part of the state, and the metadata memory (R126); `live` is an observation read, which sees a live value where another
read sees a captured one (R488). -/
def State.viewReg? (s : State) (bank o : Nat) (live : Bool) : Option Word :=
  if o == Reg.SYS_UID_LO then some (w32 s.otp.uid.toNat)
  else if o == Reg.SYS_UID_HI then some (w32 (s.otp.uid.toNat / 2 ^ 32))
  else if o == Reg.SYS_OTP then
    some (F.SYS_OTP.ROLLBACK.put s.otp.rollback (F.SYS_OTP.DEBUG_FUSED.put (bit s.otp.debugFused) (F.SYS_OTP.REVOKED.put s.otp.revoked.toNat 0)))
  else if o == Reg.TL_NOW_HI then some (w32 (s.now / 2 ^ 32))
  else if o == Reg.TL_NOW_LO && live then some (w32 s.now)
  else if o == Reg.FGS_STATUS then
    some (F.FGS_STATUS.RUN.put (bit (s.kin.sensorsDone)) (F.FGS_STATUS.DELAY_USED.put s.delayUsed (F.FGS_STATUS.STORE_USED.put s.storeUsed 0)))
  else if o == Reg.FGS_CANCEL_STATUS then
    some (F.FGS_CANCEL_STATUS.BUSY.put (bit (s.fgs.insts.any (fun i => i.stopping && s.fgs.cancelSel.contains i.entry))) (s.reg o))
  else if inRange o (Reg.FGS_CLASS_STATUS 0) 32 then some (s.classStatus ((o - Reg.FGS_CLASS_STATUS 0) / 4))
  else if o == Reg.FGS_FLOW_STATUS then some s.flowStatus
  else if o == Reg.FGS_FLOW_HEAD then some ((s.shownFlow?.map (·.head)).getD 0)
  else if inRange o (Reg.CFE_STREAM_STATE 0) 0x300 && (o - Reg.CFE_STREAM_STATE 0) % 0x20 == 0 then
    some (s.streamState ((o - Reg.CFE_STREAM_STATE 0) / 0x20))
  else if inRange o 0x210000 0x3000 then some (s.reg o)
  else if o == Reg.NE_PHASE_STATUS then
    some (F.NE_PHASE_STATUS.WAITING.put s.ntWaiting.length (F.NE_PHASE_STATUS.IN_IO.put s.ntInIo.length 0))
  else if o == Reg.MC_FLAG_HI then
    some (w32 ((s.flagWord (s.fld Reg.MC_FLAG_SEL F.MC_FLAG_SEL.FLAG)).toNat / 2 ^ 32))
  else if o == Reg.MC_FLAG_LO then
    some (w32 (if live then s.flagWord (s.fld Reg.MC_FLAG_SEL F.MC_FLAG_SEL.FLAG) else s.mm.flagHold).toNat)
  else if o == Reg.MC_CINDER_STATUS then some s.cinderStatus
  else if o == Reg.ETH_STATUS 0 then
    some (F.ETH_STATUS.TIME_SOURCE.put (bit (s.fld Reg.TL_STATUS F.TL_STATUS.SOURCE == 1)) (s.reg o))
  else if o == Reg.ETH_STATUS 1 then
    some (F.ETH_STATUS.TIME_SOURCE.put (bit (s.fld Reg.TL_STATUS F.TL_STATUS.SOURCE == 2)) (s.reg o))
  else if o == Reg.CAN_VS_STATE 0 then some (s.vsShown 0).word
  else if o == Reg.CAN_VS_STATE 1 then some (s.vsShown 1).word
  else if o == Reg.CAN_VS_VALUE 0 && live then some (s.vsShown 0).value
  else if o == Reg.CAN_VS_VALUE 1 && live then some (s.vsShown 1).value
  else if o == Reg.OF_RESULT then some (F.OF_RESULT.BUSY.put (bit (!s.io.ofJobs.isEmpty)) (s.reg o))
  else if o == Reg.GPIO_IN then some s.gpioIn
  else if o == Reg.SI_COVER_STATUS then some s.coverStatus
  else if o == Reg.PMU_UNIT_STATUS then some (s.unitStatus bank)
  else if inRange o Reg.FWL_RGN_CTRL 0x14 then some (s.regionWord bank o)
  else if o == Reg.EJ_STATUS then some (F.EJ_STATUS.STREAM_ON.put (bit s.streamOn) (s.reg o))
  else
    match statusUnit o with
    | none => none
    | some u =>
      let b : Bits := if u / 256 == 8 then ⟨3, 0⟩ else ⟨2, 0⟩
      some (b.put (s.unitState u) (s.reg o))

/-- The value that a read of an offset returns, without its side effects. -/
def State.peekReg (s : State) (bank o : Nat) (live : Bool) : Word :=
  let o := regAlias o
  match s.viewReg? bank o live with
  | some w => w
  | none => s.shownWord bank o

end Sys2Proof.Machine
end

