-- ==== Sys2Proof/Machine/Service.lean ====
section
/-! DEFINITION. The service channel and the supervisor port (spec/19, R485 to R490; R59 to R61, R77): authentication,
sessions, the operations, staging and the status mirror. -/

namespace Sys2Proof.Machine

open Sys2Proof

/-- A request: OP, body, whether it came in a session, and the requester. -/
abbrev SvcReq := Nat × List Byte × Bool × SvcPeer

/-- A service interface: 0 ETH0, 1 ETH1, 2 the supervisor port. -/
def State.svc (s : State) (i : Nat) : SvcIfc := s.io.svc.getD i SvcIfc.idle

/-- Change a service interface. -/
def State.modSvc (s : State) (i : Nat) (f : SvcIfc → SvcIfc) : State :=
  { s with io := { s.io with svc := s.io.svc.mapIdx (fun k v => if k == i then f v else v) } }

/-- Change the interfaces' shared state. -/
def State.modIo (s : State) (f : Ifaces → Ifaces) : State := { s with io := f s.io }

/-- UDP port of the service channel. -/
def State.serviceUdp (s : State) : Nat := beNat (s.vinBytes 6 2)

/-- The Safety Island serves the supervisor port from SI_START onward. -/
def State.supUp (s : State) : Bool := !s.kin.porstLow && !s.kin.siFailed && !s.safety.stopped

/-- FAILED or the recovery hold. -/
def State.inRecovery (s : State) : Bool := s.stage == 13 || s.stage == 14

/-! ### Messages (R485) -/

/-- Status codes of responses. -/
def svcOk : Nat := 0
def svcBusy : Nat := 1
def svcNoScene : Nat := 2
def svcRange : Nat := 3
def svcBadOp : Nat := 4
def svcNotReady : Nat := 5
def svcStageFailed : Nat := 6

/-- Header and body of a response. -/
def svcResponse (op status counter session : Nat) (body : List Byte) : List Byte :=
  leBytes 1 op ++ [1] ++ leBytes 2 body.length ++ leBytes 4 counter ++ leBytes 8 session ++ leBytes 2 status ++ List.replicate 14 0 ++ body

/-- TAG: the first 16 bytes of HMAC-SHA-256 of header and body under the session key. -/
def svcTag (key msg : List Byte) : List Byte := (hmacSha256 key msg).take 16

/-- Send a response: to queue 6 of the port, or to wait on the supervisor port (R476, R487, R489). -/
def State.sendResponse (s : State) (ifc : Nat) (peer : SvcPeer) (m : List Byte) : State :=
  if ifc < 2 then s.queueEth ifc { kind := 3, prio := 6, dmac := peer.mac, dip := peer.ip, dport := peer.port, sport := s.serviceUdp, payload := m }
  else s.modSvc ifc (fun v => { v with response := some m })

/-- Answer a request. One that came in a session is answered in it, tagged; none is sent once the session has ended. -/
def State.answer (s : State) (ifc : Nat) (q : SvcReq) (status : Nat) (body : List Byte) : State :=
  if q.2.2.1 then
    match (s.svc ifc).session with
    | none => s
    | some (id, key) =>
      let n := (s.svc ifc).txCounter + 1
      let m := svcResponse q.1 status n.toNat id body
      (s.modSvc ifc (fun v => { v with txCounter := n })).sendResponse ifc q.2.2.2 (m ++ svcTag key m)
  else s.sendResponse ifc q.2.2.2 (svcResponse q.1 status 0 0 body)

/-- A message that fails R485 gets no response and is counted; the third failure in a session closes it. -/
def State.authFail (s : State) (ifc session : Nat) : State :=
  let s := if ifc < 2 then (s.addCnt (Reg.ETH_CNT ifc 5) 1).event (Reg.ETH_ERR ifc) F.ETH_ERR.AUTH
    else s.addFld Reg.SUP_CNT F.SUP_CNT.AUTH 1
  match (s.svc ifc).session with
  | none => s
  | some (id, _) =>
    if id != session then s
    else s.modSvc ifc (fun v => { v with
      fails := v.fails + 1
      session := if decide (3 ≤ v.fails + 1) then none else v.session })

/-- A message that is no proper request: discarded, and counted (R485, R489). -/
def State.badMessage (s : State) (ifc : Nat) : State :=
  if ifc < 2 then s.authFail ifc 0 else s.addFld Reg.SUP_CNT F.SUP_CNT.DISCARDED 1

/-- The operations of the table "Service operations". -/
def svcOps : List Nat := [0x01, 0x02, 0x03, 0x10, 0x11, 0x12, 0x20, 0x30, 0x31, 0x32, 0x33]

/-- An operation that the recovery service serves (R38, R487). -/
def recoveryOp (op : Nat) : Bool := svcOps.contains op && op != 0x11 && op != 0x20

/-- An operation is served now (R487). -/
def State.serves (s : State) (op : Nat) : Bool :=
  if s.running then true else if s.inRecovery then recoveryOp op else op == 0x10 || op == 0x12

/-- Take a request: one that passes R485 waits to be served, and an unknown operation is answered at once. HELLO carries no
TAG; OPEN comes before the key exists, so its TAG cannot be checked; during kindling no session can be open, and what is not
served is answered without one (log entry 37). -/
def State.takeMessage (s : State) (ifc : Nat) (peer : SvcPeer) (m : List Byte) : State :=
  let op := leAt m 0 1
  let len := leAt m 2 2
  let id := leAt m 8 8
  let bare := op == 0x01 || (ifc == 2 && (op == 0x10 || op == 0x12) && id == 0)
  let lost := ifc == 2 && !s.serves op && !s.inRecovery
  let n := 32 + len
  let fits := if bare then m.length == n else m.length == n + 16 || ((op == 0x02 || lost) && m.length == n)
  if decide (m.length < 32) || leAt m 1 1 != 0 || !fits then s.badMessage ifc
  else
    let body := (m.drop 32).take len
    let open' : SvcReq := (op, body, false, peer)
    if bare || op == 0x02 then s.modSvc ifc (fun v => { v with requests := v.requests ++ [open'] })
    else if lost then s.answer ifc open' svcNotReady []
    else
      match (s.svc ifc).session with
      | none => s.authFail ifc id
      | some (sid, key) =>
        let c := w32 (leAt m 4 4)
        let newer := match (s.svc ifc).rxCounter with
          | none => true
          | some r => seqNewer c r
        if !(id == sid && newer && svcTag key (m.take n) == m.drop n) then s.authFail ifc id
        else
          let q : SvcReq := (op, body, true, peer)
          let s := s.modSvc ifc (fun v => { v with
            rxCounter := some c
            lastReq := s.now })
          if svcOps.contains op then s.modSvc ifc (fun v => { v with requests := v.requests ++ [q] })
          else s.answer ifc q (if s.serves op then svcBadOp else svcNotReady) []

/-- Serve the request at the front of an interface when it asks for the operation. -/
def State.serveFront (s : State) (ifc op : Nat) (f : State → SvcReq → State) : State :=
  match (s.svc ifc).requests with
  | [] => s
  | q :: rest =>
    if q.1 != op then s
    else
      let s := s.modSvc ifc (fun v => { v with requests := rest })
      if s.serves op then f s q else s.answer ifc q svcNotReady []

/-! ### Sessions (R486) -/

/-- The session has carried a request within the last 60 s. -/
def State.sessionFresh (s : State) (ifc : Nat) : Bool :=
  (s.svc ifc).session.isSome && decide (s.now < (s.svc ifc).lastReq + 60000000000)

/-- HELLO: a new challenge, or BUSY. -/
def execHello (ifc : Fin 3) (s : State) : Res :=
  .next (s.serveFront ifc.val 0x01 (fun s q =>
    if s.sessionFresh ifc.val then s.answer ifc.val q svcBusy []
    else
      let v := s.draw
      let c := beBytes 32 v.1
      let s := v.2.modSvc ifc.val (fun x => { x with
        challenge := some c
        session := none })
      s.answer ifc.val q svcOk (c ++ leBytes 4 (s.reg Reg.SYS_ID).toNat)))

/-- A service tool's key is admitted: it is a key record of the booted image, or in recovery an unrevoked OTP slot's. -/
def State.toolKey (s : State) (key : List Byte) : Bool :=
  if s.inRecovery then (List.range 4).any (fun k => s.otp.admits k key) else s.keyRecs.contains (sha256 key)

/-- OPEN: the session key from the challenge, both ephemeral keys and their shared secret. A request that is not accepted
is counted as R485 states. -/
def execServiceOpen (ifc : Fin 3) (s : State) : Res :=
  .next (s.serveFront ifc.val 0x02 (fun s q =>
    let b := q.2.1
    let qt := b.take 64
    let p := (b.drop 64).take 64
    match (s.svc ifc.val).challenge, ecPoint qt with
    | some c, some pt =>
      if b.length != 192 || !s.toolKey p || !ecdsaVerify p (sha256 (c ++ qt)) (b.drop 128) then s.authFail ifc.val 0
      else
        let v := s.draw
        let d := v.1 % (p256N - 1) + 1
        let w := v.2.draw
        let id := w.1 % (2 ^ 64 - 1) + 1
        let qd := ecBytes (ecMul 256 d p256G)
        let z := (ecBytes (ecMul 256 d (some pt))).take 32
        let key := sha256 (z ++ c ++ qt ++ qd)
        let s := w.2.modSvc ifc.val (fun x => { x with
          challenge := none
          session := some (id, key)
          rxCounter := none
          txCounter := 0
          fails := 0
          lastReq := s.now })
        s.answer ifc.val (q.1, q.2.1, true, q.2.2.2) svcOk qd
    | _, _ => s.authFail ifc.val 0))

/-- CLOSE. -/
def execServiceClose (ifc : Fin 3) (s : State) : Res :=
  .next (s.serveFront ifc.val 0x03 (fun s q => (s.answer ifc.val q svcOk []).modSvc ifc.val (fun v => { v with session := none })))

/-- SESSION_IDLE_TIMEOUT: 60 s without a request. -/
def execSessionIdleTimeout (ifc : Fin 3) (s : State) : Res :=
  if (s.svc ifc.val).session.isSome then
    .next ((s.reach ((s.svc ifc.val).lastReq + 60000000000)).modSvc ifc.val (fun v => { v with session := none }))
  else .next s

/-! ### Reading (R487, R488) -/

/-- STATUS: the status mirror. -/
def execServiceStatus (ifc : Fin 3) (s : State) : Res :=
  .next (s.serveFront ifc.val 0x10 (fun s q => s.answer ifc.val q svcOk s.io.mirror))

/-- A READ_REG address is answered: inside a block and outside every internal-only range. -/
def readable (a : Nat) : Bool := inBlock a && !internalOnly a

/-- READ_REG: observation reads in the HKC's bank. -/
def execReadReg (ifc : Fin 3) (s : State) : Res :=
  .next (s.serveFront ifc.val 0x11 (fun s q =>
    let b := q.2.1
    let a := leAt b 0 4
    let n := leAt b 4 1
    let as := (List.range n).map (fun i => a + 4 * i)
    if b.length != 5 || a % 4 != 0 || n == 0 || decide (64 < n) || !as.all readable then s.answer ifc.val q svcRange []
    else s.answer ifc.val q svcOk (as.flatMap (fun x => leBytes 4 (s.peekReg 4 x true).toNat))))

/-- The core runs no journal: the Island's copy answers (R397, R487). -/
def State.journalDown (s : State) : Bool := !s.journal.started || s.journal.fenced

/-- At most k records from a sequence on that the ring or the mirror holds. -/
def State.recordsFrom (s : State) : Nat → Word → List JRec
  | 0, _ => []
  | k + 1, q =>
    match s.record? q with
    | some r => r :: s.recordsFrom k (q + 1)
    | none => []

/-- What JOURNAL_READ returns: the first sequence returned and the records. -/
def State.journalPart (s : State) (start : Word) (n : Nat) : Word × List JRec :=
  if s.journalDown then
    let l := (s.journal.siCopy.filter (fun r => !seqNewer start r.seq)).take n
    ((l.head?.map (·.seq)).getD start, l)
  else
    let first := if seqNewer s.oldestHeld start then s.oldestHeld else start
    (first, s.recordsFrom n first)

/-- JOURNAL_READ. -/
def execJournalRead (ifc : Fin 3) (s : State) : Res :=
  .next (s.serveFront ifc.val 0x12 (fun s q =>
    let b := q.2.1
    let n := leAt b 4 1
    if b.length != 5 || n == 0 || decide (40 < n) then s.answer ifc.val q svcRange []
    else
      let p := s.journalPart (w32 (leAt b 0 4)) n
      s.answer ifc.val q svcOk (leBytes 4 p.1.toNat ++ p.2.flatMap JRec.bytes)))

/-- SCENE_REQUEST (R77): like a trigger that fires after every other. -/
def execSceneRequest (ifc : Fin 3) (s : State) : Res :=
  .next (s.serveFront ifc.val 0x20 (fun s q =>
    let n := leAt q.2.1 0 1
    let full := match s.sceneRec? n with
      | some c => c.bankedOf.isNone
      | none => false
    if s.scene.switch.isSome || s.dwelling then s.answer ifc.val q svcBusy []
    else if !full then s.answer ifc.val q svcNoScene []
    else
      let s1 := match s.choose n with
        | some m => if m == s.sceneNo then s else s.accept m 5 none []
        | none => s
      s1.answer ifc.val q svcOk []))

/-! ### Staging (R59 to R61, R487) -/

/-- Change the staging session. -/
def State.modStage (s : State) (f : StageSt → StageSt) : State := s.modIo (fun io => { io with stage := f io.stage })

/-- Show the state of the staging session, with a failure code. -/
def State.showStage (s : State) (st code : Nat) : State :=
  (s.setFld Reg.SYS_STAGE_STATUS F.SYS_STAGE_STATUS.STATE st).setFld Reg.SYS_STAGE_STATUS F.SYS_STAGE_STATUS.FAIL_CODE code

/-- The alternate region: the one not booted from; B where none was booted (log entry 37). -/
def State.altRegion (s : State) : Nat :=
  match s.kin.booted with
  | some r => 1 - r
  | none => 1

/-- The staging session waits for an erase, a programming or the checks of END. -/
def StageSt.busy (t : StageSt) : Bool := t.erasing || t.programming.isSome || t.verifying

/-- The request of a staging operation that awaits its completion. -/
def StageSt.req (t : StageSt) (op : Nat) : SvcReq := (op, [], true, t.peer)

/-- Answer the operation that the session has completed. -/
def State.stageAnswer (s : State) (op status : Nat) (body : List Byte) : State :=
  s.answer s.io.stage.ifc (s.io.stage.req op) status body

/-- Blocks are erased in units of the commit sector's 4 KiB (log entry 37). -/
def blockUp (n : Nat) : Nat := (n + 4095) / 4096 * 4096

/-- STAGE_BEGIN: the commit sector is erased first (R60, R61). -/
def execStageBegin (ifc : Fin 3) (s : State) : Res :=
  .next (s.serveFront ifc.val 0x30 (fun s q =>
    let gen := w32 (leAt q.2.1 0 4)
    let size := leAt q.2.1 4 4
    if s.io.stage.open' then s.answer ifc.val q svcBusy []
    else if decide (s.flash.regionSize - 4096 < size) then s.answer ifc.val q svcRange []
    else
      let p := s.flash.region s.altRegion
      let t : StageSt := { open' := true, ifc := ifc.val, peer := q.2.2.2, gen := gen, size := size, runs := [], received := 0,
                           lastAt := s.now, erasing := true, programming := none, verifying := false }
      let s1 : State := { s with flash := s.flash.erase p.1 p.2 4096 }
      ((s1.modStage (fun _ => t)).showStage 1 0).setReg Reg.SYS_STAGE_GEN gen))

/-- STAGE_ERASE_DONE: the blocks that IMAGE_SIZE covers are erased. -/
def execStageEraseDone (s : State) : Res :=
  let t := s.io.stage
  if !t.open' || !t.erasing then .next s
  else
    let p := s.flash.region s.altRegion
    let s1 : State := { s with flash := s.flash.erase p.1 (p.2 + 4096) (blockUp t.size) }
    let s2 := s1.modStage (fun t => { t with
      erasing := false
      lastAt := s.now })
    .next (s2.stageAnswer 0x30 svcOk [])

/-- A staging operation without an open session: the status of its answer is not stated (log entry 37). -/
def State.noStage (s : State) (ifc : Nat) (q : SvcReq) : State :=
  let v := s.draw
  v.2.answer ifc q (v.1 % 6 + 1) []

/-- Serve a staging operation once the session has nothing in progress. -/
def State.stageFront (s : State) (ifc op : Nat) (f : State → SvcReq → State) : State :=
  if s.io.stage.open' && s.io.stage.busy then s
  else s.serveFront ifc op (fun s q => if s.io.stage.open' then f s q else s.noStage ifc q)

/-- STAGE_CHUNK: refused beyond IMAGE_SIZE or over bytes already programmed. -/
def execStageChunk (ifc : Fin 3) (s : State) : Res :=
  .next (s.stageFront ifc.val 0x31 (fun s q =>
    let off := leAt q.2.1 0 4
    let data := q.2.1.drop 4
    let t := s.io.stage
    let cap := if ifc.val < 2 then 1024 else 4096
    if data.isEmpty || decide (cap < data.length) || decide (t.size < off + data.length)
        || t.runs.any (fun r => overlap r.1 (r.2 - r.1) off data.length) then s.answer ifc.val q svcRange []
    else s.modStage (fun t => { t with
      programming := some (off, data)
      lastAt := s.now
      ifc := ifc.val
      peer := q.2.2.2 })))

/-- STAGE_CHUNK_PROGRAMMED. -/
def execStageChunkProgrammed (s : State) : Res :=
  let t := s.io.stage
  match t.programming with
  | none => .next s
  | some (off, data) =>
    let p := s.flash.region s.altRegion
    let s1 : State := { s with flash := s.flash.program p.1 (p.2 + 4096 + off) data }
    let s2 := s1.modStage (fun t => { t with
      programming := none
      runs := t.runs ++ [(off, off + data.length)]
      received := t.received + data.length })
    .next (s2.stageAnswer 0x31 svcOk [])

/-- STAGE_END: the read-back and the checks begin. -/
def execStageEnd (ifc : Fin 3) (s : State) : Res :=
  .next (s.stageFront ifc.val 0x32 (fun s q =>
    (s.modStage (fun t => { t with
      verifying := true
      ifc := ifc.val
      peer := q.2.2.2 })).showStage 2 0))

/-- A commit sector for a GENERATION (R48). -/
def commitSector (gen : Word) : List Byte :=
  let b := leBytes 4 0x4D435848 ++ leBytes 4 gen.toNat
  b ++ leBytes 4 (crc32c b)

/-- The code with which the staged region fails, 0 for none: every check of R49, R52, R56, R57 and R58 that needs no
hardware state. Fuses and the stepping are taken as known (log entry 37). -/
def State.stageCode (s : State) (f : Flash) (r : Nat) : Nat :=
  let keep := f.skipped.filter (fun x => x.1 != r)
  let f : Flash := { f with skipped := keep }
  match candidateTest f s.otp (s.fld Reg.SYS_ID ⟨7, 0⟩) r with
  | some t => t.2
  | none =>
    if !f.tableDigestOk r then 0x05
    else if !f.tableStructOk r none then 0x06
    else
      let bad := (f.sections r).filter (fun e => !listedType e.type || !f.secOk s.otp r e)
      if bad.any (fun e => listedType e.type && e.required) then 0x05
      else
        let f : Flash := { f with skipped := keep ++ bad.map (fun e => (r, e.pos)) }
        if f.tableChecks r ⟨none, none, none, [], s.otp⟩ then 0 else 0x06

/-- STAGE_VERIFY_DONE: the commit sector is programmed last, when every check passes (R60, R61). -/
def execStageVerifyDone (s : State) : Res :=
  let t := s.io.stage
  if !t.open' || !t.verifying then .next s
  else
    let r := s.altRegion
    let p := s.flash.region r
    let f := s.flash.program p.1 p.2 (commitSector (s.flash.generation r))
    let code := s.stageCode f r
    let s1 := s.modStage (fun t => { t with
      open' := false
      verifying := false })
    if code == 0 then
      let s2 : State := { s1 with flash := f }
      let s3 := if s.stage == 14 then s2.modKin (fun k => { k with committedInHold := true }) else s2
      .next ((s3.showStage 3 0).stageAnswer 0x32 svcOk [3, 0])
    else .next ((s1.showStage 4 code).stageAnswer 0x32 svcStageFailed (leBytes 1 4 ++ leBytes 1 code))

/-- STAGE_STATUS. -/
def execStageStatus (ifc : Fin 3) (s : State) : Res :=
  .next (s.serveFront ifc.val 0x33 (fun s q => s.answer ifc.val q svcOk (leBytes 4 (s.reg Reg.SYS_STAGE_STATUS).toNat)))

/-- STAGE_IDLE_TIMEOUT (R59, R487): 60 s without a chunk abort the session. -/
def execStageIdleTimeout (s : State) : Res :=
  let t := s.io.stage
  if !t.open' || t.busy then .next s
  else
    let s := s.reach (t.lastAt + 60000000000)
    let s := s.log 0x1100 0x0114 1 0 0xFF (s.fld Reg.SYS_STAGE_STATUS F.SYS_STAGE_STATUS.STATE) t.received 0
    .next ((s.modStage (fun t => { t with open' := false })).showStage 5 0)

/-! ### The supervisor port (R489, R490) -/

/-- SUP_IRQ_N is low while a response waits. -/
def State.supIrqN (s : State) : Bool := (s.svc 2).response.isNone

/-- READ_MIRROR: mirror bytes from an address, wrapping at 64. -/
def execReadMirror (start len : Byte) (s : State) : Res :=
  if s.supUp then
    let b := (List.range len.toNat).map (fun i => s.io.mirror.getD ((start.toNat + i) % 64) 0)
    .next (s.modIo (fun io => { io with miso := b }))
  else .next s

/-- WRITE_MSG: one service message, discarded while an earlier request's response is unread. -/
def execWriteMsg (data : List Byte) (s : State) : Res :=
  if !s.supUp then .next s
  else if (s.svc 2).response.isSome || !(s.svc 2).requests.isEmpty || (s.io.stage.open' && s.io.stage.busy && s.io.stage.ifc == 2) then
    .next (s.badMessage 2)
  else .next (s.takeMessage 2 ⟨[], [], 0⟩ data)

/-- READ_MSG: the waiting response, or OP 0x00 when none waits. -/
def execReadMsg (s : State) : Res :=
  if s.supUp then
    let m := ((s.svc 2).response).getD [0]
    .next ((s.modSvc 2 (fun v => { v with response := none })).modIo (fun io => { io with miso := m }))
  else .next s

/-- A word of the mirror: zero while the core's blocks are not running. -/
def State.mirrorWord (s : State) (o : Nat) (core : Bool) : List Byte :=
  leBytes 4 (if core && (s.stage == 0 || s.stage == 1) then 0 else (s.peekReg 5 o true).toNat)

/-- The status mirror up to its CRC (R490). -/
def State.mirrorBytes (s : State) : List Byte :=
  s.mirrorWord Reg.SYS_ID true ++ s.mirrorWord Reg.SYS_KIN_STATUS false ++ s.mirrorWord Reg.SYS_SCENE_STATUS true
    ++ s.mirrorWord Reg.SI_STATUS false ++ s.mirrorWord Reg.SI_LAST false ++ s.mirrorWord Reg.SI_DOUBT_CNT false
    ++ s.mirrorWord Reg.TL_STATUS true ++ s.mirrorWord Reg.EJ_SEQ true ++ leBytes 8 s.now
    ++ s.mirrorWord Reg.SYS_STAGE_STATUS true ++ s.mirrorWord Reg.SYS_IMG_GEN true ++ s.mirrorWord Reg.PMU_STATUS true
    ++ s.mirrorWord Reg.GML_PEERS true ++ leBytes 4 s.io.refreshes

/-- MIRROR_REFRESH: 1 ms after the refresh before. -/
def execMirrorRefresh (s : State) : Res :=
  if s.supUp then
    let s := s.reach (leAt s.io.mirror 0x20 8 + 1000000)
    let s := s.modIo (fun io => { io with refreshes := io.refreshes + 1 })
    let b := s.mirrorBytes
    .next (s.modIo (fun io => { io with mirror := b ++ leBytes 4 (crc32c b) }))
  else .next s

end Sys2Proof.Machine
end

