-- ==== Sys2Proof/Machine/Ports.lean ====
section
/-! DEFINITION. The Ethernet ports, the Output Framer's submissions, the CAN controllers with the vehicle-state table, and the
GPIO (spec/19, R474 to R484, R491, R492, R500; R349). -/

namespace Sys2Proof.Machine

open Sys2Proof

/-! ### Ethernet frames (R474 to R476) -/

/-- A port is in use: its ETH_MODE is not 0, and kindling has ended (table "Pin states through reset and kindling"). -/
def State.ethOn (s : State) (mac : Nat) : Bool := s.running && s.fld (Reg.ETH_STATUS mac) F.ETH_STATUS.MODE != 0

/-- The port's link is up. -/
def State.ethLink (s : State) (mac : Nat) : Bool := s.flag (Reg.ETH_STATUS mac) F.ETH_STATUS.LINK

/-- ETHn_RST_N is high (table "Safety and control pins"). -/
def State.ethRstN (s : State) (mac : Nat) : Bool := decide (2 ≤ s.stage) && s.ethMode mac != 0

/-- Sum of the big-endian 16-bit words of a byte string; a last single byte is the high half of its word. -/
def sum16 : List Byte → Nat
  | [] => 0
  | [a] => a.toNat * 256
  | a :: b :: t => a.toNat * 256 + b.toNat + sum16 t

/-- The ones' complement sum of IPv4 and UDP. -/
def onesSum (bs : List Byte) : Nat :=
  let fold (n : Nat) : Nat := n % 65536 + n / 65536
  fold (fold (fold (fold (sum16 bs))))

/-- UDP pseudo-header. -/
def pseudoHeader (src dst : List Byte) (len : Nat) : List Byte := src ++ dst ++ [0, 17] ++ beBytes 2 len

/-- The group address of gPTP messages. -/
def gptpMac : List Byte := [0x01, 0x80, 0xC2, 0x00, 0x00, 0x0E]

/-- The broadcast address. -/
def broadcastMac : List Byte := List.replicate 6 0xFF

/-- EtherType and body of a frame whose tag the port takes: untagged, VID 0 or the port's VID (R474). -/
def State.untag (s : State) (mac : Nat) (data : List Byte) : Option (Nat × List Byte) :=
  let t := beNat ((data.drop 12).take 2)
  if t == 0x8100 then
    let vid := beNat ((data.drop 14).take 2) % 4096
    if (vid == 0 || vid == s.vid mac) && decide (data.length ≤ 1518) then some (beNat ((data.drop 16).take 2), data.drop 18) else none
  else if decide (data.length ≤ 1514) then some (t, data.drop 14) else none

/-- An ARP request for the port's address. -/
def State.arpForUs (s : State) (mac : Nat) (b : List Byte) : Bool :=
  b.take 8 == [0, 1, 8, 0, 6, 4, 0, 1] && decide (28 ≤ b.length) && (b.drop 24).take 4 == s.ipAddr mac

/-- The payload of an IPv4 UDP datagram to the port's address and SERVICE_UDP, with its source address and port (R475). -/
def State.datagram? (s : State) (mac : Nat) (b : List Byte) : Option (List Byte × Nat × List Byte) :=
  let total := beNat ((b.drop 2).take 2)
  let src := (b.drop 12).take 4
  let udp := (b.take total).drop 20
  let len := beNat ((udp.drop 4).take 2)
  let u := udp.take len
  let sumOk := beNat ((udp.drop 6).take 2) == 0 || onesSum (pseudoHeader src (s.ipAddr mac) len ++ u) == 0xFFFF
  if b.take 1 == [0x45] && decide (28 ≤ total) && decide (total ≤ b.length) && beNat ((b.drop 6).take 2) % 0x4000 == 0
      && (b.drop 9).take 1 == [17] && onesSum (b.take 20) == 0xFFFF && (b.drop 16).take 4 == s.ipAddr mac
      && decide (8 ≤ len) && decide (len + 20 ≤ total) && s.serviceUdp != 0 && beNat ((udp.drop 2).take 2) == s.serviceUdp && sumOk then
    some (src, beNat (udp.take 2), u.drop 8)
  else none

/-- ARP reply to a request (R474, R475). -/
def State.arpReply (s : State) (mac : Nat) (b : List Byte) : EthTx :=
  let who := (b.drop 8).take 10
  { kind := 1, prio := Config.macQueue 1 % 8, dmac := who.take 6, dip := [], dport := 0, sport := 0,
    payload := [0x08, 0x06, 0, 1, 8, 0, 6, 4, 0, 2] ++ s.macAddr mac ++ s.ipAddr mac ++ who }

/-! ### gPTP (R349) -/

/-- The port that the servo names as a source measures and answers peer delay. -/
def State.gptpPort (s : State) (mac : Nat) : Bool :=
  s.fld Reg.TL_CTRL F.TL_CTRL.PRIMARY == mac + 1 || s.fld Reg.TL_CTRL F.TL_CTRL.BACKUP == mac + 1

/-- The port's identity in gPTP: the EUI-64 of its MAC, and port number 1. -/
def State.portIdentity (s : State) (mac : Nat) : List Byte :=
  let m := s.macAddr mac
  m.take 3 ++ [0xFF, 0xFE] ++ m.drop 3 ++ [0, 1]

/-- A gPTP timestamp: seconds and nanoseconds. -/
def ptpTime (t : Nat) : List Byte := beBytes 6 (t / 1000000000) ++ beBytes 4 (t % 1000000000)

/-- A peer-delay message of IEEE 802.1AS-2020, domain 0 (PRESUMED, log entry 38). -/
def State.gptpFrame (s : State) (mac type seq : Nat) (body : List Byte) : EthTx :=
  let head := [0x88, 0xF7] ++ leBytes 1 (0x10 + type) ++ [0x12] ++ beBytes 2 (34 + body.length) ++ [0, 0]
    ++ [if type == 3 then 2 else 0, 8] ++ List.replicate 12 0 ++ s.portIdentity mac ++ beBytes 2 seq ++ [5, if type == 2 then 0 else 0x7F]
  { kind := 2, prio := Config.macQueue 2 % 8, dmac := gptpMac, dip := [], dport := 0, sport := 0, payload := head ++ body }

/-- An accepted gPTP message: a peer-delay request of domain 0 is answered. Sync messages have their effect on the Timeline
through TL_SERVO_UPDATE. -/
def State.takeGptp (s : State) (mac : Nat) (b : List Byte) : State :=
  if leAt b 0 1 % 16 == 2 && leAt b 4 1 == 0 && s.gptpPort mac then
    s.queueEth mac (s.gptpFrame mac 3 (beNat ((b.drop 30).take 2)) (ptpTime s.now ++ (b.drop 20).take 10))
  else s

/-- PEER_DELAY_REQUEST. Its sequence number is a free value (log entry 38). -/
def execPeerDelayRequest (mac : Fin 2) (s : State) : Res :=
  let m := mac.val
  if s.ethOn m && s.gptpPort m then
    let v := s.draw
    .next (v.2.queueEth m (s.gptpFrame m 2 (v.1 % 65536) (List.replicate 20 0)))
  else .next s

/-! ### Receiving (R475) -/

/-- A received frame is counted as accepted. -/
def State.ethAccept (s : State) (mac : Nat) : State := s.addCnt (Reg.ETH_CNT mac 1) 1

/-- A received frame is discarded and counted. -/
def State.ethDrop (s : State) (mac : Nat) : State := (s.addCnt (Reg.ETH_CNT mac 3) 1).event (Reg.ETH_ERR mac) F.ETH_ERR.RX_DROP

/-- ETH_FRAME_RX; `data` is the frame from its destination address, without preamble and FCS. -/
def execEthFrameRx (mac : Fin 2) (data : List Byte) (fcsOk : Bool) (s : State) : Res :=
  let m := mac.val
  let dst := data.take 6
  if !s.ethOn m || !s.ethLink m then .next s
  else if !fcsOk then .next ((s.addCnt (Reg.ETH_CNT m 2) 1).ethDrop m)
  else if !(dst == s.macAddr m || dst == broadcastMac || dst == gptpMac) then .next (s.ethDrop m)
  else
    match s.untag m data with
    | none => .next (s.ethDrop m)
    | some (type, b) =>
      if type == 0x0806 && s.arpForUs m b then .next ((s.ethAccept m).queueEth m (s.arpReply m b))
      else if type == 0x88F7 then .next ((s.ethAccept m).takeGptp m b)
      else if type == 0x0800 then
        match s.datagram? m b with
        | some (ip, port, msg) => .next ((s.ethAccept m).takeMessage m ⟨(data.drop 6).take 6, ip, port⟩ msg)
        | none => .next (s.ethDrop m)
      else .next (s.ethDrop m)

/-! ### Sending (R476) -/

/-- Whether a UDP checksum is sent as zero or computed, and the IPv4 fields that the spec leaves open, are free values. -/
def State.ipDatagram (s : State) (mac : Nat) (t : EthTx) (v : Nat) : List Byte :=
  let src := s.ipAddr mac
  let len := 8 + t.payload.length
  let u (c : Nat) : List Byte := beBytes 2 t.sport ++ beBytes 2 t.dport ++ beBytes 2 len ++ beBytes 2 c ++ t.payload
  let c := 0xFFFF - onesSum (pseudoHeader src t.dip len ++ u 0)
  let sum := if v % 2 == 0 then 0 else if c == 0 then 0xFFFF else c
  let h (c : Nat) : List Byte := [0x45] ++ beBytes 1 (v / 2) ++ beBytes 2 (20 + len) ++ beBytes 2 (v / 512) ++ [if v / 2 ^ 26 % 2 == 0 then 0 else 0x40, 0]
    ++ beBytes 1 (v / 2 ^ 27) ++ [17] ++ beBytes 2 c ++ src ++ t.dip
  [0x08, 0x00] ++ h (0xFFFF - onesSum (h 0)) ++ u sum

/-- The frame on the wire: addresses, the 802.1Q tag with the port's VID and the queue's PCP, and its body, padded to 60 bytes. -/
def State.ethFrame (s : State) (mac : Nat) (t : EthTx) (v : Nat) : List Byte :=
  let body := if t.kind == 0 || t.kind == 3 then s.ipDatagram mac t v else t.payload
  let f := t.dmac ++ s.macAddr mac ++ [0x81, 0x00] ++ beBytes 2 (t.prio * 8192 + s.vid mac) ++ body
  f ++ List.replicate (60 - f.length) 0

/-- The frame that a port may start next: the oldest of its highest queue. Messages of the Output Framer leave only while it is
enabled (R397). -/
def State.nextEth (s : State) (mac : Nat) : Option EthTx :=
  let q := (s.io.eth.getD mac []).filter (fun t => t.kind != 0 || s.ofEnabled)
  let top := q.foldl (fun (a : Nat) t => max a t.prio) 0
  q.find? (fun t => t.prio == top)

/-- A peer-delay response is followed by the time of its sending. -/
def State.followUp (s : State) (mac : Nat) (t : EthTx) : State :=
  if t.kind == 2 && leAt t.payload 2 1 % 16 == 3 then
    s.queueEth mac (s.gptpFrame mac 10 (beNat ((t.payload.drop 32).take 2)) (ptpTime s.now ++ (t.payload.drop 46).take 10))
  else s

/-- ETH_FRAME_TX: strict priority among eight queues. -/
def execEthFrameTx (mac : Fin 2) (s : State) : Res :=
  let m := mac.val
  match s.nextEth m with
  | none => .next s
  | some t =>
    if !s.ethOn m || !s.ethLink m then .next s
    else
      let v := s.draw
      let f := s.ethFrame m t v.1
      let s := v.2.modIo (fun io => { io with
        eth := io.eth.mapIdx (fun i q => if i == m then q.erase t else q)
        wireEth := io.wireEth.set m f })
      .next ((s.addCnt (Reg.ETH_CNT m 0) 1).followUp m t)

/-- Speeds that an attachment can have: 10 Gb/s, or for SGMII what in-band auto-negotiation found. -/
def speedFits (mode speed : Nat) : Bool := if mode == 3 then decide (speed < 3) else speed == 3

/-- ETH_LINK_CHANGE. -/
def execEthLinkChange (mac : Fin 2) (up : Bool) (speed : BitVec 2) (s : State) : Res :=
  let m := mac.val
  let a := Reg.ETH_STATUS m
  if !s.ethOn m then .next s
  else if up then
    if speedFits (s.fld a F.ETH_STATUS.MODE) speed.toNat then
      .next ((s.setFld a F.ETH_STATUS.SPEED speed.toNat).setFlag a F.ETH_STATUS.LINK true)
    else .next s
  else if s.ethLink m then .next ((s.setFlag a F.ETH_STATUS.LINK false).event (Reg.ETH_ERR m) F.ETH_ERR.LINK_DOWN)
  else .next s

/-! ### Submitting a payload (R480, R481, R500) -/

/-- The submit descriptor's fields lie in their table. -/
def submitFits (r : OutRec) (d : List Byte) : Bool :=
  let n := leAt d 4 2
  let st := leAt d 6 1
  decide (leAt d 2 2 ≤ 1) && decide (1 ≤ n) && decide (n ≤ r.maxLen) && (decide (st ≤ 23) || st == 0xFF)
    && leAt d 7 1 == 0 && leAt d 0xC 4 == 0

/-- The Output Framer's transactions carry the Domain ID of the writer of OF_SUB_GO. -/
def ofIssuer (domain : Nat) : Issuer := ⟨0x1800, domain, false⟩

/-- Result of a GO by the codes of OF_RESULT, with the descriptor read. -/
def State.submitCheck (s : State) (bank domain a : Nat) : State × Nat × List Byte :=
  if !s.ofEnabled then (s, 1, [])
  else
    match s.judgeRun (ofIssuer domain) a 32 false with
    | (s, some _) => (s, 5, [])
    | (s, none) =>
      let d := s.fetch a 32
      match (s.outRec? (leAt d 0 2)).filter (fun r => r.type != 2) with
      | none => (s, 2, d)
      | some r =>
        let bases := s.scene.layers.filter (fun l => l.rc.base)
        let parts := if r.type == 1 then bases.map (fun l => l.rc.partition) else ((s.layerRec? r.layer).map (fun l => [l.partition])).getD []
        let bound := if r.type == 1 then !bases.isEmpty else (s.layer? r.layer).isSome
        if !parts.contains domain && (r.type != 1 || bound) then (s, 3, d)
        else if !bound then (s, 4, d)
        else if !submitFits r d then (s, 5, d)
        else
          match s.judgeRun (ofIssuer domain) (a + 32) (leAt d 4 2) false with
          | (s, some _) => (s, 5, d)
          | (s, none) => (s, if s.io.ofJobs.any (fun j => j.bank == bank) then 6 else 0, d)

/-- OF_SUB_GO. -/
def execOfSubGo (bank : Fin 5) (domain : BitVec 4) (value : Word) (s : State) : Res :=
  if F.OF_SUB_GO.GO.get value == 0 then .next s
  else
    let b := bank.val
    let lo := s.fld (bankOff b Reg.OF_SUB_LO) F.OF_SUB_LO.ADDR_LO * 32
    let a := lo + s.fld (bankOff b Reg.OF_SUB_HI) F.OF_SUB_HI.ADDR_HI * 2 ^ 32
    let q := s.submitCheck b domain.toNat a
    let s := q.1.setFld Reg.OF_RESULT F.OF_RESULT.RESULT q.2.1
    if q.2.1 == 0 then .next (s.modIo (fun io => { io with ofJobs := io.ofJobs ++ [⟨b, domain.toNat, a, q.2.2, s.now⟩] }))
    else .next s

/-- OF_COPY_DONE: the oldest copy ends. A TYPE 0x0001 payload goes to the selector, any other is handed over. -/
def execOfCopyDone (s : State) : Res :=
  match s.io.ofJobs with
  | [] => .next s
  | j :: rest =>
    let d := j.desc
    let s1 := s.modIo (fun io => { io with ofJobs := rest })
    match s1.outRec? (leAt d 0 2) with
    | none => .next s1
    | some r =>
      let due := leAt d 0x18 8
      let p : Payload := { source := 0, partition := if r.type == 1 then 2 else j.domain, stream := leAt d 6 1,
                           flagged := leAt d 2 2 % 2 == 1, late := due != 0 && decide (due < j.goAt), ts := leAt d 0x10 8,
                           frameSeq := w32 (leAt d 8 4), bytes := s1.fetch (j.addr + 32) (leAt d 4 2) }
      .next (if r.type == 1 then s1.offerPrimary r p else s1.handOver r p)

/-! ### Vehicle state (R483, R484, R500) -/

/-- A controller operates: it is neither off nor bus off. -/
def State.canOn (s : State) (can : Nat) : Bool := decide (s.fld (Reg.CAN_STATUS can) F.CAN_STATUS.STATE < 2)

/-- Bytes that a record's value covers. -/
def VsRec.span (r : VsRec) : Nat := (r.bit + r.width + 7) / 8

/-- The value that a record takes from a data field (R483). -/
def VsRec.value (r : VsRec) (data : List Byte) : Word :=
  let bs := (data.drop r.byte).take r.span
  let raw := (if r.flags / 4 % 2 == 1 then beNat bs else leNat bs) / 2 ^ r.bit % 2 ^ r.width
  if r.flags / 2 % 2 == 1 then w32 (unsigned 32 (signed r.width raw)) else w32 raw

/-- The E2E checks of a record, and the alive counter; none when a check fails (R483). -/
def VsRec.e2e (r : VsRec) (e : VsEntry) (data : List Byte) : Option Nat :=
  let k := r.e2eByte
  let alive := leAt data (k + 1) 1 % 16
  let ahead := (alive + 16 - e.alive.getD 0) % 16
  if decide (k + 1 < data.length) && leAt data k 1 == crc 3 (data.take k ++ data.drop (k + 1))
      && (e.stale || (decide (1 ≤ ahead) && decide (ahead ≤ 3))) then some alive
  else none

/-- Change a vehicle-state entry. -/
def State.modVs (s : State) (i : Nat) (f : VsEntry → VsEntry) : State :=
  s.modIo (fun io => { io with vs := io.vs.mapIdx (fun k e => if k == i then f e else e) })

/-- The 16 bytes of an entry's copy. -/
def VsEntry.bytes (e : VsEntry) : List Byte :=
  leBytes 4 e.value.toNat ++ leBytes 2 e.updates ++ leBytes 1 (bit e.stale + 2 * bit e.e2eFail) ++ [0] ++ leBytes 8 e.ts

/-- Write an entry to the vehicle-state copy with Domain ID 0 (R484). -/
def State.copyVs (s : State) (i : Nat) : State :=
  let base := s.vinLe 0x30 8
  if base == 0 then s
  else
    let a := base + 16 * i
    match s.judgeRun ⟨0x1700, 0, false⟩ a 16 true with
    | (s, none) => s.write a (s.io.vs.getD i VsEntry.fresh).bytes
    | (s, some _) => s

/-- A matching record takes a frame. -/
def State.takeVs (s : State) (can i : Nat) (data : List Byte) : State :=
  let r := s.vsRec i
  let e := s.io.vs.getD i VsEntry.fresh
  if decide (data.length < r.byte + r.span) then s
  else
    let chk : Option (Option Nat) := if r.flags / 8 % 2 == 1 then (r.e2e e data).map some else some e.alive
    match chk with
    | none => (s.event (Reg.CAN_ERR can) F.CAN_ERR.E2E_FAIL).modVs i (fun e => { e with e2eFail := true })
    | some alive =>
      let s := s.modVs i (fun e => { e with
        value := r.value data
        updates := (e.updates + 1) % 65536
        stale := false
        e2eFail := false
        ts := s.now
        acceptedAt := s.now
        alive := alive })
      (s.copyVs i).evalTriggers 2 i

/-- CAN_FRAME_RX: every record that the frame matches reads it. -/
def execCanFrameRx (can : Fin 2) (id : Word) (ext : Bool) (data : List Byte) (s : State) : Res :=
  let c := can.val
  if !s.canOn c then .next s
  else
    .next ((List.range s.vsCount).foldl (fun (s : State) i =>
      let r := s.vsRec i
      if r.can == c && r.id == id.toNat && (r.flags % 2 == 1) == ext then s.takeVs c i data else s) s)

/-- VS_STALE_TIMEOUT: TIMEOUT_MS after the last acceptance. -/
def execVsStaleTimeout (entry : Fin 32) (s : State) : Res :=
  let i := entry.val
  let e := s.io.vs.getD i VsEntry.fresh
  if e.stale || decide (s.vsCount ≤ i) then .next s
  else
    let r := s.vsRec i
    let s := (s.reach (e.acceptedAt + r.timeoutMs * 1000000)).modVs i (fun e => { e with stale := true })
    .next (((s.event (Reg.CAN_ERR r.can) F.CAN_ERR.STALE).copyVs i).evalTriggers 2 i)

/-- CAN_VS_STATE_READ: the selected entry is captured; its value waits in CANn_VS_VALUE. -/
def execCanVsStateRead (can : Fin 2) (s : State) : Res :=
  let e := s.vsShown can.val
  .next ((s.setReg (Reg.CAN_VS_STATE can.val) e.word).setReg (Reg.CAN_VS_VALUE can.val) e.value)

/-! ### CAN controllers (R479, R482) -/

/-- Order in which identifiers win arbitration: the base identifier first, then standard before extended. -/
def CanTx.rank (t : CanTx) : Nat := if t.ext then (t.id / 2 ^ 18 * 2 + 1) * 2 ^ 18 + t.id % 2 ^ 18 else t.id % 2048 * 2 * 2 ^ 18

/-- The buffer that wins arbitration. -/
def winner : List CanTx → Option CanTx
  | [] => none
  | t :: l =>
    match winner l with
    | none => some t
    | some u => some (if t.rank ≤ u.rank then t else u)

/-- CAN_FRAME_TX. Messages leave only while the Output Framer is enabled (R397). -/
def execCanFrameTx (can : Fin 2) (s : State) : Res :=
  let c := can.val
  match winner (s.io.can.getD c []) with
  | none => .next s
  | some t =>
    if !s.canOn c || !s.ofEnabled then .next s
    else
      .next (s.modIo (fun io => { io with
        can := io.can.mapIdx (fun i q => if i == c then q.erase t else q)
        wireCan := io.wireCan.set c (some t) }))

/-- CAN_BUS_OFF_RECOVERY: no command reports that a controller goes bus off, so this one stands for the whole episode (log
entry 38): the event, and the error-active state with cleared counts after 128 occurrences of 11 recessive bits. -/
def execCanBusOffRecovery (can : Fin 2) (s : State) : Res :=
  let a := Reg.CAN_STATUS can.val
  if s.fld a F.CAN_STATUS.STATE == 3 then .next s
  else
    let s := s.event (Reg.CAN_ERR can.val) F.CAN_ERR.BUS_OFF
    .next (((s.setFld a F.CAN_STATUS.STATE 0).setFld a F.CAN_STATUS.TEC 0).setFld a F.CAN_STATUS.REC 0)

/-! ### GPIO (R491, R492) -/

/-- The GPIO have the functions of their records: from BIND, and not in FAILED or the recovery hold. -/
def State.gpioBound (s : State) : Bool := s.kin.bindDone && !s.inRecovery

/-- GPIO_FILTER_EXPIRY: a raw level of an INPUT has held for FILTER × 100 µs. -/
def execGpioFilterExpiry (n : Fin 32) (level : Bool) (s : State) : Res :=
  let k := n.val
  if !s.gpioBound || (s.gpioRec k).function != 1 || (s.reg Reg.GPIO_IN).getLsbD k == level then .next s
  else
    let s := (s.setFlag Reg.GPIO_IN ⟨k, k⟩ level).setFlag Reg.GPIO_EVENT ⟨k, k⟩ true
    .next (s.evalTriggers 1 k)

/-- A writer acts on a GPIO: an OUTPUT that it owns, or any OUTPUT with Domain ID 0 (R492). -/
def State.gpioOwned (s : State) (domain n : Nat) : Bool :=
  let g := s.gpioRec n
  s.gpioBound && g.function == 2 && (domain == 0 || g.owner == domain)

/-- A write of GPIO_OUT_SET or GPIO_OUT_CLR: owned bits are driven, others ignored and counted. In the safe state every
output holds its SAFE level. -/
def State.gpioWrite (s : State) (domain : Nat) (value : Word) (level : Nat) : State :=
  (List.range 32).foldl (fun (s : State) n =>
    if !value.getLsbD n then s
    else if !s.gpioOwned domain n then s.addCnt Reg.GPIO_REFUSED 1
    else if s.safety.severe.isSome then s
    else s.modPins (fun p => p.drive n level)) s

/-- GPIO_OUT_SET. -/
def execGpioOutSet (domain : BitVec 4) (value : Word) (s : State) : Res := .next (s.gpioWrite domain.toNat value 1)

/-- GPIO_OUT_CLR. -/
def execGpioOutClr (domain : BitVec 4) (value : Word) (s : State) : Res := .next (s.gpioWrite domain.toNat value 0)

/-- PPS_EDGE: high for 1 ms from each whole second of the Timeline. -/
def execPpsEdge (s : State) : Res :=
  if !s.gpioBound then .next s
  else if s.io.ppsHigh then .next ((s.reach (s.now / 1000000000 * 1000000000 + 1000000)).modIo (fun io => { io with ppsHigh := false }))
  else .next ((s.reach ((s.now + 999999999) / 1000000000 * 1000000000)).modIo (fun io => { io with ppsHigh := true }))

end Sys2Proof.Machine
end

