-- ==== Sys2Proof/Machine/RegOps.lean ====
section
/-! DEFINITION. What a write of a register does (R7 to R10, R355, R504): who may write it, its access codes, reserved
encodings, the counters that it clears, and commit points. -/

namespace Sys2Proof.Machine

open Sys2Proof

/-! ### Who may write (R390, R399 to R401, R428, R500, R507) -/

/-- Unit code or journal source of an initiator's bank: pairs 0 to 3, the HKC 4, the Safety Manager 5. -/
def bankUnit (bank : Nat) : Nat := if bank < 4 then 0x0B00 + bank else if bank == 4 then 0x1100 else 0x1200

/-- The pair whose SYS_PCn registers or apertures hold an offset. -/
def pairRegs (o : Nat) : Option Nat :=
  if inRange o 0x400 0x100 then some ((o - 0x400) / 0x40) else if inRange o 0x800 0x100 then some ((o - 0x800) / 0x40) else none

/-- Registers with one bank for each pair and one for the HKC, which refuse other initiators. -/
def fiveBanks (o : Nat) : Bool :=
  inRange o Reg.FGS_POST_SB 0x10 || (inRange o 0x240000 0x4000 && inRange (o % 0x1000) 0x100 0x10) || inRange o (Reg.EJ_FW_ARG 0) 0x14
    || inRange o Reg.OF_SUB_LO 0xC

/-- A tile's address windows and write credits, which refuse writers under R300 and R345. -/
def tileGroup (o : Nat) : Bool :=
  inRange o 0x400000 0x100000 && (inRange (o % 0x10000) 0x100 0x100 || inRange (o % 0x10000) 0x340 0x80)

/-- The rule of a register group beside the firewall's regions. -/
def State.groupAdmits (s : State) (bank domain o : Nat) : Bool :=
  if internalOnly o then domain == 0 || (domain == 15 && !s.otp.debugFused)
  else if o < 0x10000 then
    match pairRegs o with
    | some n => (bank == n && domain == 0) || bank == 4
    | none => domain == 0
  else if inRange o 0x21000 0x80 then bank == (o - 0x21000) / 0x20 && domain == 0
  else if inRange o 0x20000 0x10000 then domain == 0
  else if inRange o 0x30000 0x8000 then s.cvuAdmits ((o - 0x30000) / 0x1000) domain
  else if inRange o 0x40000 0x10000 then domain == 0 || domain == 1
  else if inRange o 0x900000 0x10000 then domain == 1 || (domain == 0 && siOpen o)
  else if o == Reg.PMU_EVENT || o == Reg.PMU_EVENT_EN then domain == 0 || domain == 1
  else if o == Reg.GML_FWD then domain == 0
  else if fiveBanks o then decide (bank < 5)
  else true

/-- Some group rule states the writers of the register, and needs no region. -/
def groupRuled (o : Nat) : Bool :=
  o < 0x10000 || inRange o 0x20000 0x18000 || inRange o 0x40000 0x10000 || inRange o 0x900000 0x10000 || o == Reg.GML_FWD || tileGroup o

/-- The initiator identifier of a bank. -/
def bankInit (bank : Nat) : Nat := (⟨bankUnit bank, 0, false⟩ : Issuer).initiator

/-- A write reaches its register. -/
def State.mayWrite (s : State) (bank domain o : Nat) : Bool :=
  s.groupAdmits bank domain o
    && (groupRuled o || s.fwPermits (0x100 + o / 0x10000) (addrReg + o) 4 domain (bankInit bank) true)

/-! ### Access codes -/

/-- Where the shadow of an SH register is kept; a region's shadows belong to the region that FWL_SEL selects (R429). -/
def State.shadowAt (s : State) (bank o : Nat) : Nat :=
  if inRange o Reg.FWL_RGN_BASE_LO 0x10 then
    fwlKey o (s.fld (bankOff bank Reg.FWL_SEL) F.FWL_SEL.TARGET) (s.fld (bankOff bank Reg.FWL_SEL) F.FWL_SEL.REGION)
  else keptAt bank o

/-- Set or remove a shadow. -/
def State.setShadow (s : State) (a : Nat) (v : Word) : State := { s with shadow := assocPut s.shadow a v }

/-- A value of a field is one of its encodings. -/
def FieldSpec.takes (f : FieldSpec) (v : Nat) : Bool := decide (f.minV ≤ v) && decide (v ≤ f.maxV)

/-- A register's value after a write of its RW, W1C and W1S fields. -/
def RegSpec.store (r : RegSpec) (old value : Word) : Word :=
  r.fields.foldl (fun (w : Word) f =>
    let v := f.bits.get value
    match f.acc with
    | .rw => if f.takes v then f.bits.put v w else w
    | .w1c => w &&& ~~~(value &&& f.bits.mask)
    | .w1s => w ||| (value &&& f.bits.mask)
    | _ => w) old

/-- A register's shadow after a write of its SH fields. -/
def RegSpec.storeShadow (r : RegSpec) (old value : Word) : Word :=
  r.fields.foldl (fun (w : Word) f =>
    let v := f.bits.get value
    match f.acc with
    | .sh => if f.takes v then f.bits.put v w else w
    | _ => w) old

/-- The write holds a reserved encoding (R10). -/
def RegSpec.reserved (r : RegSpec) (value : Word) : Bool :=
  r.fields.any (fun f =>
    match f.acc with
    | .rw | .sh | .wo => !f.takes (f.bits.get value)
    | _ => false)

/-- SOURCE of a block's REG_RESERVED records (DESIGN CHOICE, log entry 39). -/
def regSource (o : Nat) : Nat :=
  match pairRegs o with
  | some n => 0x0B00 + n
  | none =>
    if inRange o 0x10000 0x10000 then 0x1400
    else if inRange o 0x30000 0x8000 then 0x0A00 + (o - 0x30000) / 0x1000
    else if inRange o 0x100000 0x100000 then 0x1000
    else if inRange o 0x200900 0x80 then 0x1B00 + (o - 0x200900) / 0x20
    else if inRange o 0x200000 0x30000 then 0x0100
    else if inRange o 0x400000 0x100000 then 0x0800
    else 0x1100

/-- Store a write by its access codes; a reserved encoding leaves its field and is journaled. -/
def State.storeReg (s : State) (bank o : Nat) (r : RegSpec) (value : Word) : State :=
  let a := keptAt bank o
  let s := if r.fields.any (fun f => f.acc == .sh) then
      let k := s.shadowAt bank o
      let now := if inRange o Reg.FWL_RGN_BASE_LO 0x10 then
          s.fwlShown o (s.fld (bankOff bank Reg.FWL_SEL) F.FWL_SEL.TARGET) (s.fld (bankOff bank Reg.FWL_SEL) F.FWL_SEL.REGION)
        else (assocGet s.shadow k).getD (s.reg a)
      s.setShadow k (r.storeShadow now value)
    else s
  let s := s.setReg a (r.store (s.reg a) value)
  if r.reserved value then s.log (regSource o) 0x0005 0 0 0xFF (o % 2 ^ 32) value.toNat 2 else s

/-! ### Clears -/

/-- Counter-clear registers: first offset, number of counters, and how far the counters lie before it. -/
def clearRows : List (Nat × Nat × Nat) :=
  [(0x100038, 6, 0x18), (0x200020, 4, 0x10), (0x240020, 4, 0x10), (0x2C0034, 9, 0x24), (0x300028, 6, 0x18), (0x340028, 6, 0x18),
   (0x380030, 8, 0x20), (0x380060, 8, 0x20), (0x3C0030, 8, 0x20), (0x3C0060, 8, 0x20), (0x400048, 10, 0x28), (0x400324, 5, 0x14),
   (0x500030, 4, 0x10), (0x600028, 6, 0x18), (0x600080, 4, 0x10), (0x601024, 5, 0x14), (0x801028, 6, 0x18)]

/-- Registers that bit m of a write clears. -/
def clearedBy (base o m : Nat) : List Nat :=
  match clearRows.find? (fun x => x.1 == base) with
  | some (_, n, d) =>
    if m < n then [o - d + 4 * m]
    else if m == 8 then
      if base == 0x100038 then [Reg.FGS_HWM]
      else if base == 0x600028 then [Reg.MC_FS_UE_ADDR]
      else if base == 0x601024 then [Reg.MC_UE_ADDR_LO ((o - 0x601024) / 0x1000), Reg.MC_UE_ADDR_HI ((o - 0x601024) / 0x1000)]
      else []
    else []
  | none =>
    if o == Reg.SYS_DECODE_CLR && m == 0 then [Reg.SYS_DECODE_LO, Reg.SYS_DECODE_HI]
    else if o == Reg.FWL_CLR && m == 0 then [Reg.FWL_REFUSE_LO, Reg.FWL_REFUSE_HI, Reg.FWL_REFUSE_TGT]
    else if o == Reg.FWL_CLR && m == 1 then [Reg.FWL_REFUSE_CNT]
    else if base == 0x40020C then
      let n := (o - 0x40020C) / 0x10000
      if m == 0 then [Reg.NT_IDX_CNT n] else if m == 1 then [Reg.NT_WIN_FAULT_LO n, Reg.NT_WIN_FAULT_HI n] else []
    else []

/-- The unit whose counters a clear register clears, for counters kept in units of 1,024. -/
def clearUnit (base o : Nat) : Option Nat :=
  let n := o / 0x10000 % 4
  if base == 0x2C0034 then some (0x0700 + n) else if base == 0x300028 then some (0x0300 + n) else if base == 0x340028 then some (0x0400 + n)
  else if base == 0x380030 then some (0x0500 + n) else if base == 0x3C0030 then some (0x0600 + n)
  else if base == 0x400048 then some (0x0800 + o / 0x10000 % 16) else if base == 0x500030 then some (0x0900 + o / 0x1000 % 8)
  else none

/-- A write of a clear register. -/
def State.clearRegs (s : State) (base o : Nat) (value : Word) : State :=
  (List.range 16).foldl (fun (s : State) m =>
    if !value.getLsbD m then s
    else
      let s := (clearedBy base o m).foldl (fun (s : State) a => s.setReg a 0) s
      match clearUnit base o with
      | some u => s.modUnit u (fun x => { x with resid := assocDel x.resid m })
      | none => s) s

/-! ### Registers whose write is a command of its own -/

/-- The state that a meaning answers; the state before, where it stops. -/
def Res.orElse (r : Res) (s : State) : State :=
  match r with
  | .next t => t
  | _ => s

/-- The number of an instance of a register, within a count that its index type has. -/
def instOf (o base stride count : Nat) : Option Nat :=
  if decide (base ≤ o) && (o - base) % stride == 0 && decide ((o - base) / stride < count) then some ((o - base) / stride) else none

/-- CVUn_GO: CANCEL, then GO by TAP. -/
def cvuGo (n : Fin 8) (domain : BitVec 4) (value : Word) (s : State) : State :=
  let s := (execCvuCancel n domain value s).orElse s
  if s.flag (Reg.CVU_CTRL n.val) F.CVU_CTRL.TAP then (execCvuTapArm n domain value s).orElse s
  else (execCvuMemoryJob n domain value s).orElse s

/-- A number below a bound as a member of its finite type. -/
def fin? (n k : Nat) : Option (Fin n) := if h : k < n then some ⟨k, h⟩ else none

/-- Rows that hang on the initiator's bank. -/
def State.bankRow (s : State) (b : Fin 5) (domain : BitVec 4) (o : Nat) (value : Word) : Option Res :=
  if o == Reg.FGS_POST_HI then some (execFgsPost b domain value s)
  else if o == Reg.EJ_FW_POST then some (execEjFwPost b domain value s)
  else if o == Reg.OF_SUB_GO then some (execOfSubGo b domain value s)
  else ((instOf o (Reg.ISP_UPD_GO 0) 0x1000 4).bind (fin? 4)).map (fun n => execIspUpdGo n b domain value s)

/-- Rows of registers with one instance. -/
def State.singleRow (s : State) (domain : BitVec 4) (o : Nat) (value : Word) : Option Res :=
  if o == Reg.FGS_CANCEL_GO then some (execFgsCancel domain value s)
  else if o == Reg.ICU_SWI_SET then some (execIcuSwiSet value s)
  else if o == Reg.ICU_SWI_CLR then some (execIcuSwiClr value s)
  else if o == Reg.GPIO_OUT_SET then some (execGpioOutSet domain value s)
  else if o == Reg.GPIO_OUT_CLR then some (execGpioOutClr domain value s)
  else none

/-- Rows of registers that each pair, bus or mover has. -/
def State.instRow (s : State) (domain : BitVec 4) (o : Nat) (value : Word) : Option Res :=
  let at4 (base stride : Nat) : Option (Fin 4) := (instOf o base stride 4).bind (fin? 4)
  (at4 (Reg.FGS_PC_DONE 0) 0x20).map (fun n => execFgsPcDone n value s)
    <|> (at4 (Reg.CFE_I3C_BATCH_GO 0) 0x20).map (fun n => execI3cBatchGo n domain value s)
    <|> (at4 (Reg.ICU_T_EOI 0) 0x20).map (fun n => execIcuEoi n value s)
    <|> (at4 (Reg.SYS_PC_ABORT_ACK 0) 0x40).map (fun n => execAbortAck n value s)
    <|> (at4 (Reg.SI_HB 0) 4).map (fun n => execSiHbWrite n value s)
    <|> ((instOf o (Reg.BM_RESUME 0) 0x1000 8).bind (fin? 8)).map (fun n => execBmResume n value s)
    <|> ((instOf o (Reg.CVU_GO 0) 0x1000 8).bind (fin? 8)).map (fun n => .next (cvuGo n domain value s))

/-- Rows of a tile's windows and credits: their offsets count from the group's first register. -/
def State.tileRow (s : State) (domain : BitVec 4) (o : Nat) (value : Word) : Option Res :=
  if !tileGroup o then none
  else
    (fin? 16 (o / 0x10000 % 16)).map (fun n =>
      if o % 0x10000 < 0x200 then execNtWinWrite n (BitVec.ofNat 8 (o % 0x10000 - 0x100)) value domain s
      else execNtCredWrite n (BitVec.ofNat 8 (o % 0x10000 - 0x340)) value domain s)

/-- The answer of the row that a register's write has of its own; none for any other register. -/
def State.ownRow (s : State) (bank : Nat) (domain : BitVec 4) (o : Nat) (value : Word) : Option Res :=
  (fin? 5 bank).bind (fun b => s.bankRow b domain o value)
    <|> (if o == Reg.FWL_RGN_CTRL then (fin? 6 bank).map (fun b => execFwlRgnCtrlWrite b domain value s) else none)
    <|> s.singleRow domain o value <|> s.instRow domain o value <|> s.tileRow domain o value

/-! ### Writes -/

/-- A pair's RET, BANKk, EPC and aperture registers change only while bank 0 is current (R369, R506). -/
def bankZeroOnly (o : Nat) : Bool := inRange o 0x800 0x100 || (inRange o 0x400 0x100 && inRange ((o - 0x400) % 0x40) 0x0C 0x1C)

/-- CVUn_CTRL, ADDR, LENGTH, TAP and EXPECTED keep their values while the unit is not idle (R387). -/
def State.cvuBusy (s : State) (o : Nat) : Option Nat :=
  let n := (o - 0x30000) / 0x1000
  if inRange o 0x30000 0x8000 && decide (o % 0x1000 < 0x18) && s.cvuState n != 0 then some n else none

/-- A write that has passed its firewall. -/
def State.putReg (s : State) (bank : Nat) (domain : BitVec 4) (o : Nat) (value : Word) : State :=
  match regSpec? o with
  | none => s
  | some r =>
    match s.ownRow bank domain o value with
    | some x => x.orElse s
    | none =>
      match s.cvuBusy o with
      | some n => s.cvuRefuse n
      | none =>
        if bankZeroOnly o && ((pairRegs o).map (fun n => (s.core n).bank != 0)).getD false then s
        else
          let s := (s.storeReg bank o r value).clearRegs r.base o value
          if o == Reg.FGS_AFFINITY && F.FGS_AFFINITY.FORGET.get value == 1 then (execFgsAffinityForget s).orElse s else s

/-- A write of register space (R10, R13): the state it leaves, and whether it ends without an error. -/
def State.writeReg (s : State) (bank : Nat) (domain : BitVec 4) (off : Nat) (value : Word) : State × Bool :=
  let o := regAlias off
  if !inBlock o then (s, false)
  else if !s.mayWrite bank domain.toNat o then
    (s.fwRefuse (0x100 + o / 0x10000) (addrReg + o) domain.toNat (bankInit bank) true (bankUnit bank), false)
  else (s.putReg bank domain o value, true)

/-! ### Commit points (R9, R140, R355) -/

/-- Offsets of a block. -/
def shRange : ShBlock → Nat × Nat
  | .fgs => (0x100000, 0x200000)
  | .cfe => (0x200000, 0x230000)
  | .ne => (0x400000, 0x500000)
  | .tl => (0x010000, 0x020000)
  | .ej => (0xA00000, 0xA10000)
  | .gml => (0x800000, 0x810000)

/-- Every node forgets its preferred unit (FGS_AFFINITY.FORGET). -/
def State.forgetUnits (s : State) : State :=
  { s with fgs := { s.fgs with
      forgetPending := false
      nodes := s.fgs.nodes.map (fun n => { n with preferred := none }) } }

/-- The I3C controller, if any, whose control register lies at an offset and whose transfer is in progress (R140). -/
def State.i3cWaits (s : State) (o : Nat) : Bool :=
  match instOf o (Reg.CFE_I3C_CTRL 0) 0x20 4 with
  | some n => s.busTransfers n
  | none => false

/-- The shadows of a block that its commit point commits. -/
def State.commitBlock (s : State) (lo hi : Nat) : State :=
  let keep := s.shadow.filter (fun p => decide (lo ≤ p.1) && decide (p.1 < hi) && s.i3cWaits p.1)
  let s1 := s.commitShadows lo hi
  keep.foldl (fun (x : State) p => (x.setReg p.1 (s.reg p.1)).setShadow p.1 p.2) s1

end Sys2Proof.Machine
end

