-- ==== Sys2Proof/Machine/Registers.lean ====
section
/-! DEFINITION. Register writes, commit points, apertures, and the data accesses of the Policy Cores (spec/00, R8 to R10;
spec/15, R366, R367, R390; spec/20, R501 to R506). -/

namespace Sys2Proof.Machine

open Sys2Proof

/-- The core is out of reset, so its registers answer. -/
def State.coreUp (s : State) : Bool := !s.kin.porstLow && !s.kin.coreReset

/-- REGISTER_WRITE (R10): a write of a bank's initiator with a Domain ID. -/
def execRegisterWrite (bank : Fin 6) (domain : BitVec 4) (offset : BitVec 24) (value : Word) (s : State) : Res :=
  if s.coreUp then .next (s.writeReg bank.val domain offset.toNat value).1 else .next s

/-- SYS_PC_APERTURE_WRITE (R506): offset counts from the pair's first aperture register; accepted only while bank 0 is
current. -/
def execSysPcApertureWrite (pair : Fin 4) (offset : BitVec 8) (value : Word) (s : State) : Res :=
  let n := pair.val
  let o := offset.toNat
  if (s.core n).bank == 0 && o % 4 == 0 && decide (o < 0x40) then
    .next (s.setReg (Reg.SYS_PC_AP n (o / 16) (o / 4 % 4)) (value &&& (F.SYS_PC_AP.ENABLE.mask ||| F.SYS_PC_AP.BASE.mask)))
  else .next s

/-- SH_COMMIT (R9): the commit point of a block. -/
def execShCommit (blk : ShBlock) (s : State) : Res :=
  let s1 := s.commitBlock (shRange blk).1 (shRange blk).2
  match blk with
  | .fgs => .next (if s1.fgs.forgetPending then s1.forgetUnits else s1)
  | .gml => .next s1.refreshActive
  | .cfe => .next s1
  | .ne => .next s1
  | .tl => .next s1
  | .ej => .next s1

/-! ### Policy Core accesses (R366, R367, R505) -/

/-- Where a core address leads. -/
inductive CoreDest where
  /-- the pair's own local memory, by offset -/
  | own (off : Nat)
  /-- register space, by offset -/
  | regs (off : Nat)
  /-- another place of the address map, or of a partner's -/
  | fabric (addr : Nat)
  | unmapped
  deriving DecidableEq, Repr

/-- The address that an enabled aperture of the current bank reaches (R506). -/
def State.aperture (s : State) (n bank a : Nat) : CoreDest :=
  let m := (a - 0x80000000) / 0x20000000
  let r := Reg.SYS_PC_AP n bank m
  if !s.flag r F.SYS_PC_AP.ENABLE then .unmapped
  else
    let g := s.place (s.fld r F.SYS_PC_AP.BASE * 2 ^ 29 + (a - 0x80000000) % 0x20000000)
    if inRange g addrReg 0xC00000 then .regs (g - addrReg) else .fabric g

/-- The table "Policy Core address view" (R505). -/
def State.coreView (s : State) (n bank a : Nat) : CoreDest :=
  match ownOffset n a with
  | some o => .own o
  | none =>
    if inRange a 0x1000000 0x100000 then .fabric a
    else if inRange a 0x20000000 0xC00000 then .regs (a - 0x20000000)
    else if decide (0x80000000 ≤ a) then s.aperture n bank a
    else .unmapped

/-- Bytes of an access. -/
def accBytes (size : Fin 3) : Nat := 2 ^ size.val

/-- The Domain ID of a bank's transactions (R367). -/
def State.bankDomain (s : State) (n bank : Nat) : Nat := if bank = 0 then 0 else s.fld (Reg.SYS_PC_BANK n bank) F.SYS_PC_BANK.DOMAIN

/-- A bank's window of the local memory admits an access (R367). -/
def State.windowAdmits (s : State) (n bank off len : Nat) : Bool :=
  let r := Reg.SYS_PC_BANK n bank
  bank == 0 || (decide (s.fld r F.SYS_PC_BANK.BASE_KIB * 1024 ≤ off) && decide (off + len ≤ s.fld r F.SYS_PC_BANK.LIMIT_KIB * 1024))

/-- Cause of an access fault: instruction 1, load 5, store or AMO 7. An LR of another address than the own local memory
raises the store/AMO fault (R366). -/
def faultCause : AccessKind → Word
  | .fetch => 1
  | .load _ _ => 5
  | .store => 7
  | .amo _ => 7
  | .loadReserved => 7
  | .storeConditional => 7

/-- An operation of the A extension. -/
def atomicKind : AccessKind → Bool
  | .amo _ => true
  | .loadReserved => true
  | .storeConditional => true
  | .load _ _ => false
  | .store => false
  | .fetch => false

/-- Cause of a misaligned address: load 4, store or AMO 6 (PRESUMED, log entry 39). -/
def alignCause : AccessKind → Word
  | .fetch => 0
  | .load _ _ => 4
  | .loadReserved => 4
  | .store => 6
  | .amo _ => 6
  | .storeConditional => 6

/-- Length of the instruction at a pc: compressed unless its two low bits are 11. -/
def State.instLen (s : State) (n : Nat) (pc : Word) : Word :=
  match ownOffset n pc.toNat with
  | some o => if (s.byte (localBase n + o)).toNat % 4 == 3 then 4 else 2
  | none => 4

/-- The instruction completes: the next one is at a pc. -/
def State.completeAt (s : State) (n : Nat) (pc : Word) : State := s.modCore n (fun c => { c with pc := pc })

/-- What a load writes to its register. -/
def loaded (bs : List Byte) (zext : Bool) : Word :=
  let w := 8 * bs.length
  if zext then w32 (leNat bs) else w32 (unsigned 32 (signed w (leNat bs)))

/-- A load's result reaches its register. -/
def State.setLoaded (s : State) (n : Nat) (fp zext : Bool) (rd : Fin 32) (bs : List Byte) : State :=
  let v := loaded bs zext
  s.modCore n (fun c => if fp then c.setF c.bank rd.val v else c.setX c.bank rd.val v)

/-- Result of an AMO on the old word and the operand. -/
def amoResult (op : Fin 9) (old v : Word) : Word :=
  match op.val with
  | 0 => v
  | 1 => old + v
  | 2 => old ^^^ v
  | 3 => old &&& v
  | 4 => old ||| v
  | 5 => if old.toInt ≤ v.toInt then old else v
  | 6 => if old.toInt ≤ v.toInt then v else old
  | 7 => if old.toNat ≤ v.toNat then old else v
  | _ => if old.toNat ≤ v.toNat then v else old

/-- An access of the pair's own local memory that its window admits. -/
def State.ownAccess (s : State) (n : Nat) (kind : AccessKind) (rd : Fin 32) (off len : Nat) (value : Word) : State :=
  let a := localBase n + off
  let b := (s.core n).bank
  match kind with
  | .load fp zext => s.setLoaded n fp zext rd (Memory.bytes s.mem a len)
  | .store => s.store a (leBytes len value.toNat)
  | .amo op =>
    let old := w32 (s.le a 4)
    (s.store a (leBytes 4 (amoResult op old value).toNat)).modCore n (fun c => c.setX b rd.val old)
  | .loadReserved =>
    let old := w32 (s.le a 4)
    s.modCore n (fun c => { c.setX b rd.val old with resv := some off })
  | .storeConditional =>
    let ok := (s.core n).resv == some off
    let s := if ok then s.store a (leBytes 4 value.toNat) else s
    s.modCore n (fun c => { c.setX b rd.val (if ok then 0 else 1) with resv := none })
  | .fetch => s

/-- Side effects of a read of a register (R115, R344, R352, R500). -/
def State.readEffect (s : State) (bank o : Nat) : State :=
  if o == Reg.TL_NOW_HI then s.captureNow bank
  else if o == Reg.MC_FLAG_HI then (execMcFlagHiRead s).orElse s
  else
    match (instOf o (Reg.FGS_PC_DISP0 0) 0x20 4).bind (fin? 4), (instOf o (Reg.CAN_VS_STATE 0) 0x1000 2).bind (fin? 2) with
    | some p, _ => (execFgsDisp0Read p s).orElse s
    | none, some c => (execCanVsStateRead c s).orElse s
    | none, none => s

/-- A read of register space (R10, R13): the state it leaves and the word, none for an error. Nothing is said of what an
internal-only range holds: a free value. -/
def State.readReg (s : State) (bank domain off : Nat) : State × Option Word :=
  let o := regAlias off
  let t := 0x100 + o / 0x10000
  if !inBlock o then (s, none)
  else if !s.fwPermits t (addrReg + o) 4 domain (bankInit bank) false
      || (internalOnly o && !(domain == 0 || (domain == 15 && !s.otp.debugFused))) then
    (s.fwRefuse t (addrReg + o) domain (bankInit bank) false (bankUnit bank), none)
  else if internalOnly o then
    let v := s.draw
    (v.2, some (w32 v.1))
  else (s.readEffect bank o, some (s.peekReg bank o false))

/-- An access of register space. A load narrower than a word takes its bytes of the word; what a narrower store leaves in the
other bytes is a free value (log entry 39). -/
def State.regAccess (s : State) (n domain : Nat) (kind : AccessKind) (rd : Fin 32) (off len : Nat) (value : Word) : State × Bool :=
  let o := off / 4 * 4
  match kind with
  | .load fp zext =>
    let q := s.readReg n domain o
    match q.2 with
    | some w => (q.1.setLoaded n fp zext rd (((leBytes 4 w.toNat).drop (off % 4)).take len), true)
    | none => (q.1, false)
  | .store =>
    if len == 4 then s.writeReg n (BitVec.ofNat 4 domain) o value
    else
      let v := s.draw
      let b := leBytes 4 v.1
      let w := w32 (leNat (b.take (off % 4) ++ leBytes len value.toNat ++ b.drop (off % 4 + len)))
      v.2.writeReg n (BitVec.ofNat 4 domain) o w
  | .amo _ => (s, false)
  | .loadReserved => (s, false)
  | .storeConditional => (s, false)
  | .fetch => (s, false)

/-- How an access through the fabric ends. -/
inductive AccEnd where
  | done | failed | waits
  deriving DecidableEq, Repr

/-- Frame sequence of the instance that a register bank of a pair runs; 0 for none. -/
def State.bankSeq (s : State) (n bank : Nat) : Word :=
  match ((s.core n).insts.find? (fun i => i.2.2 == bank)).bind (fun i => s.entry? i.1) with
  | some i => i.seq
  | none => 0

/-- The words of the pair's own local memory that the access met with a correctable error are corrected and counted (R370). An
uncorrectable one halts the pair, which LOCKSTEP_MISMATCH reports (R371). -/
def State.ownEcc (s : State) (n : Nat) (ecc : List EccHit) : State :=
  (ecc.filter (fun h => !h.ue && inRange h.addr (localBase n) 0x40000)).foldl (fun s h => s.eccCorrected h.addr) s

/-- An access through the fabric. A load meets ECC outcomes, of which an uncorrectable one is an error response (R303, R340,
R371). A load from a partner waits for its response; a store to one is complete for the core once
it is sent, and waits while an earlier store of the same bytes is outstanding (R354, R356). -/
def State.fabricAccess (s : State) (n domain : Nat) (kind : AccessKind) (rd : Fin 32) (a len : Nat) (value : Word) (ecc : List EccHit) : State × AccEnd :=
  let c : Issuer := ⟨0x0B00 + n, domain, false⟩
  match kind with
  | .load fp zext =>
    let q := s.judgeReads c [(a, len)] false
    match q.2 with
    | none =>
      let e := q.1.eccHits c (s.bankSeq n (s.core n).bank) ecc
      match e.2 with
      | none => ((e.1.setLoaded n fp zext rd (q.1.fetch a len)).endRemote c.unit, .done)
      | some _ => (e.1.endRemote c.unit, .failed)
    | some (.pending, _) => (q.1, .waits)
    | some _ => (q.1.endRemote c.unit, .failed)
  | .store =>
    let s := s.endRemote c.unit
    if isRemote a && s.gml.outstanding.any (fun x => x.unit == c.unit && x.write && overlap x.addr x.len (a - 2 ^ 44) len) then (s, .waits)
    else
      let bs := leBytes len value.toNat
      let q := s.judgeWrites c [(a, bs)]
      match q.2 with
      | none => (q.1.write a bs, .done)
      | some (.pending, _) => (q.1, .done)
      | some _ => (q.1, .failed)
  | .amo _ => (s, .failed)
  | .loadReserved => (s, .failed)
  | .storeConditional => (s, .failed)
  | .fetch => (s, .failed)

/-- PC_DATA_ACCESS: one load, store, AMO, LR, SC or fetch of the instruction at `pc`, with its effective address and store
operand, and the ECC outcomes that it meets. An error response raises the access fault of its kind (log entry 39). -/
def execPcDataAccess (pair : Fin 4) (kind : AccessKind) (rd : Fin 32) (pc addr value : Word) (size : Fin 3) (ecc : List EccHit)
    (s : State) : Res :=
  let n := pair.val
  let c := s.core n
  let len := if atomicKind kind then 4 else accBytes size
  let a := addr.toNat
  let dom := s.bankDomain n c.bank
  if c.halted || (s.unit (0x0B00 + n)).fenced || !s.coreUp then .next s
  else
    match s.coreView n c.bank a with
    | .own off =>
      if !s.windowAdmits n c.bank off len || decide (0x40000 < off + len) then
        let s := if c.bank == 0 then s else s.event (Reg.SYS_PC_ERR n) F.SYS_PC_ERR.WINDOW
        .next (s.trap n (faultCause kind) pc)
      else if atomicKind kind && a % 4 != 0 then .next (s.trap n (alignCause kind) pc)
      else if kind == .fetch then .next (s.ownEcc n ecc)
      else .next (((s.ownAccess n kind rd off len value).completeAt n (pc + s.instLen n pc)).ownEcc n ecc)
    | .regs off =>
      if atomicKind kind || kind == .fetch then .next (s.trap n (faultCause kind) pc)
      else if a % len != 0 then .next (s.trap n (alignCause kind) pc)
      else
        let q := s.regAccess n dom kind rd off len value
        .next (if q.2 then q.1.completeAt n (pc + s.instLen n pc) else q.1.trap n (faultCause kind) pc)
    | .fabric g =>
      if atomicKind kind || kind == .fetch then .next (s.trap n (faultCause kind) pc)
      else if a % len != 0 then .next (s.trap n (alignCause kind) pc)
      else
        let q := s.fabricAccess n dom kind rd g len value ecc
        match q.2 with
        | .done => .next (q.1.completeAt n (pc + s.instLen n pc))
        | .waits => .next q.1
        | .failed => .next (q.1.trap n (faultCause kind) pc)
    | .unmapped => .next (s.trap n (faultCause kind) pc)

end Sys2Proof.Machine
end

