-- ==== Sys2Proof/Machine/Scene.lean ====
section
/-! DEFINITION. The commands of a scene switch (spec/03): the drain limit, CINDER, BIND, OPEN and the end of the dwell. -/

namespace Sys2Proof.Machine

open Sys2Proof

/-- One instance still there at the drain limit: a step still running is journaled, anything else is cancelled. -/
def State.killOne (s : State) (i : Inst) : State :=
  match s.entry? i.entry with
  | none => s
  | some j =>
    if !j.live then s
    else if j.busy && (j.unit.bind pcOf).isNone then
      let part := ((s.node? j.node).map (·.domain)).getD 0
      (s.log s.srcMaster 0x0203 1 part j.stream j.nt j.seq.toNat 0).cancel j.entry
    else s.cancel j.entry

/-- SWITCH_DRAIN_KILL (R79): 500 µs into DRAIN every step still running for an outgoing layer is cancelled. -/
def execSwitchDrainKill (s : State) : Res :=
  match s.scene.switch with
  | none => .next s
  | some sw =>
    if sw.drainDue == 0 then .next s
    else
      let s := s.reach sw.drainDue
      let is := (sw.outgoing.filter (fun i => !sw.cindered.contains i)).flatMap s.layerInsts
      let s := is.foldl State.killOne s
      .next (s.modSwitch (fun w => { w with drainDue := 0 }))

/-- SWITCH_CINDER (R79, R316): an outgoing layer whose users are gone leaves its regions. -/
def execSwitchCinder (layer : Half) (s : State) : Res :=
  let id := layer.toNat
  match s.scene.switch, s.scene.layers.find? (fun l => l.rc.id == id && l.outgoing) with
  | some sw, some l =>
    if sw.outgoing.contains id && !sw.cindered.contains id
        && (s.layerInsts id).all (fun i => i.st == .cancelled && !i.stopping) then .next (s.cinderLayer sw l.rc)
    else .next s
  | _, _ => .next s

/-- SWITCH_BIND (R79): an incoming layer whose resources are free and filled is bound. -/
def execSwitchBind (layer : Half) (s : State) : Res :=
  match s.scene.switch, s.layerRec? layer.toNat with
  | some sw, some l =>
    if s.mayBind sw l then
      let period := ((s.sceneRec? sw.target).map (·.periodNs)).getD 0
      .next (((s.bindLayer l period).modSwitch (fun w => { w with bound := w.bound ++ [l.id] })).phase 4)
    else .next s
  | _, _ => .next s

/-- The switch is complete: every outgoing layer is gone and every incoming layer is bound. -/
def Switch.complete (sw : Switch) : Bool :=
  sw.outgoing.all sw.cindered.contains && sw.incoming.all sw.bound.contains

/-- SWITCH_OPEN (R79). -/
def execSwitchOpen (s : State) : Res :=
  match s.scene.switch with
  | none => .next s
  | some sw => if sw.complete then .next (s.openSwitch sw) else .next s

/-- DWELL_EXPIRY (R76): the dwell ends and the triggers of kinds 1 to 3 are evaluated again. -/
def execDwellExpiry (s : State) : Res :=
  match s.scene.dwellDue with
  | none => .next s
  | some t =>
    let s := { s.reach t with scene := { s.scene with dwellDue := none } }
    let s := s.setFlag Reg.SYS_SCENE_STATUS F.SYS_SCENE_STATUS.DWELL false
    if s.running && s.scene.switch.isNone then .next (s.actOn (s.firing [1, 2, 3] none)) else .next s

end Sys2Proof.Machine
end

