-- ==== Sys2Proof/Machine/Sensors.lean ====
section
/-! DEFINITION. Sensor-profile sequences on the I3C controllers: the operations, the retry and what a failure leaves (R43,
R137, R138; table "Sensor sequence operation"). -/

namespace Sys2Proof.Machine

open Sys2Proof

/-- A controller's run. -/
def State.seqRun (s : State) (bus : Nat) : SeqRun := s.kin.seqs.getD bus ⟨[], 0, false, none, none, none⟩

/-- Change a controller's run. -/
def State.modRun (s : State) (bus : Nat) (f : SeqRun → SeqRun) : State :=
  s.modKin (fun k => { k with seqs := k.seqs.mapIdx (fun i r => if i == bus then f r else r) })

/-- The operation that a controller is at: its run, its profile and the operation's 8 bytes. A run that awaits its retry is at
none. -/
def State.seqOp? (s : State) (bus : Nat) : Option (SeqRun × SensorRec × List Byte) :=
  let r := s.seqRun bus
  match r.retryDue, r.profiles with
  | none, id :: _ =>
    match s.flash.sensor? s.imgRegion id with
    | some p => (p.ops[r.op]?).map (fun o => (r, p, o))
    | none => none
  | _, _ => none

/-- The controller's operation, when it is the one with a code. -/
def State.seqAt (s : State) (bus code : Nat) : Option (SeqRun × SensorRec × List Byte) :=
  (s.seqOp? bus).filter (fun x => leAt x.2.2 0 1 == code)

/-- Set the timers of the operation that a run comes to: the end of a WAIT, the first read of a POLL. -/
def SeqRun.arm (r : SeqRun) (ops : List (List Byte)) (now : Nat) : SeqRun :=
  let o := ops.getD r.op []
  match leAt o 0 1 with
  | 3 => { r with waitDue := some (now + leAt o 4 4 * 1000), pollFrom := none }
  | 4 => { r with waitDue := some now, pollFrom := some now }
  | _ => { r with waitDue := none, pollFrom := none }

/-- Go on with the next operation. -/
def State.seqNext (s : State) (bus : Nat) (p : SensorRec) : State :=
  s.modRun bus (fun r => ({ r with op := r.op + 1 }).arm p.ops s.now)

/-- Go on with the next profile. -/
def State.seqNextProfile (s : State) (bus : Nat) : State :=
  let rest := (s.seqRun bus).profiles.drop 1
  let ops := ((rest.head?.bind (fun i => s.flash.sensor? s.imgRegion i)).map (·.ops)).getD []
  s.modRun bus (fun _ => (⟨rest, 0, false, none, none, none⟩ : SeqRun).arm ops s.now)

/-- The port whose reduction a sequence serves. -/
def State.reductionPort? (s : State) (id : Nat) : Option Nat :=
  (List.range 4).find? (fun n => s.fld (Reg.CFE_PORT_STATUS n) F.CFE_PORT_STATUS.STATE == 2
    && (((s.flash.usedStreams s.imgRegion).find? (fun p => p.port == n)).map (fun p => p.sensor + (if (s.port n).target == 2 then 0x100 else 0x200))) == some id)

/-- A sequence fails: on a NACK, which is journaled, on a mismatch or on a timeout. It is retried once after 100 ms; then its
streams are absent, or the port of its reduction is fenced. -/
def State.seqFail (s : State) (bus : Nat) (r : SeqRun) (p : SensorRec) (nack : Bool) : State :=
  let s := if nack then s.log (0x1B00 + bus) 0x0402 1 0 0xFF 0 r.op p.id else s
  if !r.retried then
    s.modRun bus (fun r => { r with op := 0, retried := true, retryDue := some (s.now + 100000000), waitDue := none, pollFrom := none })
  else
    let s := s.seqNextProfile bus
    if decide (p.id < 0x100) then
      ((s.flash.usedStreams s.imgRegion).filter (fun q => q.sensor == p.id)).foldl (fun (s : State) q => s.markAbsent q.stream) s
    else
      match s.reductionPort? p.id with
      | some n => s.fence (0x0100 + n) 3
      | none => s

/-- Data length of an operation in bytes. -/
def opLen (o : List Byte) : Nat := leAt o 1 1 / 16 % 8

/-- SEQ_WRITE. -/
def execSeqWrite (bus : Fin 4) (ack : Bool) (s : State) : Res :=
  match s.seqAt bus.val 1 with
  | none => .next s
  | some (r, p, _) => .next (if ack then s.seqNext bus.val p else s.seqFail bus.val r p true)

/-- SEQ_READ_EXPECT. -/
def execSeqReadExpect (bus : Fin 4) (ack : Bool) (value : Word) (s : State) : Res :=
  match s.seqAt bus.val 2 with
  | none => .next s
  | some (r, p, o) =>
    if !ack then .next (s.seqFail bus.val r p true)
    else if value.toNat % 256 ^ opLen o == leAt o 4 (opLen o) then .next (s.seqNext bus.val p)
    else .next (s.seqFail bus.val r p false)

/-- SEQ_WAIT: the operation's microseconds have passed. -/
def execSeqWait (bus : Fin 4) (s : State) : Res :=
  match s.seqAt bus.val 3 with
  | none => .next s
  | some (r, p, o) => .next ((s.reach (r.waitDue.getD (s.now + leAt o 4 4 * 1000))).seqNext bus.val p)

/-- SEQ_POLL: one read of every 100 µs, for at most 10 ms. -/
def execSeqPoll (bus : Fin 4) (ack : Bool) (value : Half) (s : State) : Res :=
  match s.seqAt bus.val 4 with
  | none => .next s
  | some (r, p, o) =>
    let t := r.waitDue.getD s.now
    let t0 := r.pollFrom.getD t
    let s := s.reach t
    let mask : Half := BitVec.ofNat 16 (leAt o 6 2)
    let want : Half := BitVec.ofNat 16 (leAt o 4 2)
    if !ack then .next (s.seqFail bus.val r p true)
    else if value &&& mask == want &&& mask then .next (s.seqNext bus.val p)
    else if t0 + 10000000 < t + 100000 then .next (s.seqFail bus.val r p false)
    else .next (s.modRun bus.val (fun r => { r with waitDue := some (t + 100000), pollFrom := some t0 }))

/-- SEQ_GPIO (R491): a SENSOR GPIO is driven at the level. -/
def execSeqGpio (bus : Fin 4) (s : State) : Res :=
  match s.seqAt bus.val 5 with
  | none => .next s
  | some (_, p, o) =>
    let n := leAt o 1 1
    let s := if (s.gpioRec n).function == 3 && decide (n < 32) then s.modPins (fun q => q.drive n (leAt o 4 1 % 2)) else s
    .next (s.seqNext bus.val p)

/-- SEQ_FSYNC_ENABLE (R135): pulses start at the first pulse instant from now on. -/
def execSeqFsyncEnable (bus : Fin 4) (s : State) : Res :=
  match s.seqAt bus.val 6 with
  | none => .next s
  | some (_, p, o) =>
    let n := leAt o 1 1
    let on (i : Nat) (f : FsyncSt) : FsyncSt := if i == n && !f.enabled then ⟨true, some s.now, false, false⟩ else f
    let s : State := { s with cam := { s.cam with fsync := s.cam.fsync.mapIdx on } }
    .next (s.seqNext bus.val p)

/-- SEQ_END: the controller goes on with its next profile. -/
def execSeqEnd (bus : Fin 4) (s : State) : Res :=
  match s.seqAt bus.val 0 with
  | none => .next s
  | some _ => .next (s.seqNextProfile bus.val)

/-- SENSOR_RETRY_TIMER: the failed sequence runs again from its first operation. -/
def execSensorRetryTimer (bus : Fin 4) (s : State) : Res :=
  let r := s.seqRun bus.val
  match r.retryDue with
  | none => .next s
  | some t =>
    let s := s.reach t
    let ops := ((r.profiles.head?.bind (fun i => s.flash.sensor? s.imgRegion i)).map (·.ops)).getD []
    .next (s.modRun bus.val (fun r => ({ r with retryDue := none }).arm ops s.now))

end Sys2Proof.Machine
end

