-- ==== Sys2Proof/Machine/Dispatch.lean ====
section
/-! DEFINITION. One arm per command: a direct call of its meaning. -/

namespace Sys2Proof.Machine

/-- The effect of a command on everything but the queue. -/
def exec (i : Instr) (s : State) : Host.Outcome State Fault Refusal :=
  match i with
  | .porstNAssert => Sys2Proof.Machine.execPorstNAssert s
  | .porstNRelease straps => Sys2Proof.Machine.execPorstNRelease straps s
  | .wrstNFall lowNs => Sys2Proof.Machine.execWrstNFall lowNs s
  | .wrstNRise => Sys2Proof.Machine.execWrstNRise s
  | .warmResetHoldEnd => Sys2Proof.Machine.execWarmResetHoldEnd s
  | .kindlingWatchdogExpiry => Sys2Proof.Machine.execKindlingWatchdogExpiry s
  | .siSelfTestDone pass => Sys2Proof.Machine.execSiSelfTestDone pass s
  | .hkcSignatureCheck pass => Sys2Proof.Machine.execHkcSignatureCheck pass s
  | .imageSelect answers size => Sys2Proof.Machine.execImageSelect answers size s
  | .bistDone units others => Sys2Proof.Machine.execBistDone units others s
  | .lpddrTrainDone ch pass mib => Sys2Proof.Machine.execLpddrTrainDone ch pass mib s
  | .sectionLoaded => Sys2Proof.Machine.execSectionLoaded s
  | .checkStage => Sys2Proof.Machine.execCheckStage s
  | .firmwareStage => Sys2Proof.Machine.execFirmwareStage s
  | .seqWrite bus ack => Sys2Proof.Machine.execSeqWrite bus ack s
  | .seqReadExpect bus ack value => Sys2Proof.Machine.execSeqReadExpect bus ack value s
  | .seqWait bus => Sys2Proof.Machine.execSeqWait bus s
  | .seqPoll bus ack value => Sys2Proof.Machine.execSeqPoll bus ack value s
  | .seqGpio bus => Sys2Proof.Machine.execSeqGpio bus s
  | .seqFsyncEnable bus => Sys2Proof.Machine.execSeqFsyncEnable bus s
  | .seqEnd bus => Sys2Proof.Machine.execSeqEnd bus s
  | .sensorRetryTimer bus => Sys2Proof.Machine.execSensorRetryTimer bus s
  | .bindStage => Sys2Proof.Machine.execBindStage s
  | .verifyPass => Sys2Proof.Machine.execVerifyPass s
  | .verifyTimeout => Sys2Proof.Machine.execVerifyTimeout s
  | .nvmEraseProgramCommand cs opcode addr op => Sys2Proof.Machine.execNvmEraseProgramCommand cs opcode addr op s
  | .sectionReloadDone pos => Sys2Proof.Machine.execSectionReloadDone pos s
  | .hello ifc => Sys2Proof.Machine.execHello ifc s
  | .serviceOpen ifc => Sys2Proof.Machine.execServiceOpen ifc s
  | .serviceClose ifc => Sys2Proof.Machine.execServiceClose ifc s
  | .sessionIdleTimeout ifc => Sys2Proof.Machine.execSessionIdleTimeout ifc s
  | .serviceStatus ifc => Sys2Proof.Machine.execServiceStatus ifc s
  | .readReg ifc => Sys2Proof.Machine.execReadReg ifc s
  | .journalRead ifc => Sys2Proof.Machine.execJournalRead ifc s
  | .sceneRequest ifc => Sys2Proof.Machine.execSceneRequest ifc s
  | .stageBegin ifc => Sys2Proof.Machine.execStageBegin ifc s
  | .stageEraseDone => Sys2Proof.Machine.execStageEraseDone s
  | .stageChunk ifc => Sys2Proof.Machine.execStageChunk ifc s
  | .stageChunkProgrammed => Sys2Proof.Machine.execStageChunkProgrammed s
  | .stageEnd ifc => Sys2Proof.Machine.execStageEnd ifc s
  | .stageStatus ifc => Sys2Proof.Machine.execStageStatus ifc s
  | .stageIdleTimeout => Sys2Proof.Machine.execStageIdleTimeout s
  | .gpioFilterExpiry n level => Sys2Proof.Machine.execGpioFilterExpiry n level s
  | .switchDrainKill => Sys2Proof.Machine.execSwitchDrainKill s
  | .switchCinder layer => Sys2Proof.Machine.execSwitchCinder layer s
  | .switchBind layer => Sys2Proof.Machine.execSwitchBind layer s
  | .switchOpen => Sys2Proof.Machine.execSwitchOpen s
  | .dwellExpiry => Sys2Proof.Machine.execDwellExpiry s
  | .tokenLookup => Sys2Proof.Machine.execTokenLookup s
  | .instanceAdmit entry flagUe => Sys2Proof.Machine.execInstanceAdmit entry flagUe s
  | .dispatch unit => Sys2Proof.Machine.execDispatch unit s
  | .affinityHoldExpiry entry => Sys2Proof.Machine.execAffinityHoldExpiry entry s
  | .pcDispatch pair => Sys2Proof.Machine.execPcDispatch pair s
  | .fgsDisp0Read pair => Sys2Proof.Machine.execFgsDisp0Read pair s
  | .fgsPcDone pair value => Sys2Proof.Machine.execFgsPcDone pair value s
  | .fgsPost bank domain hi => Sys2Proof.Machine.execFgsPost bank domain hi s
  | .fgsCancel domain value => Sys2Proof.Machine.execFgsCancel domain value s
  | .fgsAffinityForget => Sys2Proof.Machine.execFgsAffinityForget s
  | .stepComplete unit => Sys2Proof.Machine.execStepComplete unit s
  | .release entry flagUe => Sys2Proof.Machine.execRelease entry flagUe s
  | .releaseRetry => Sys2Proof.Machine.execReleaseRetry s
  | .stallRelease entry => Sys2Proof.Machine.execStallRelease entry s
  | .deferredVoid entry => Sys2Proof.Machine.execDeferredVoid entry s
  | .slotDrain node input slot flagUe => Sys2Proof.Machine.execSlotDrain node input slot flagUe s
  | .periodicStart node => Sys2Proof.Machine.execPeriodicStart node s
  | .deadlineExpiry entry => Sys2Proof.Machine.execDeadlineExpiry entry s
  | .matchTimeout entry => Sys2Proof.Machine.execMatchTimeout entry s
  | .flowWatchExpiry single n => Sys2Proof.Machine.execFlowWatchExpiry single n s
  | .csiFrameStart port vc => Sys2Proof.Machine.execCsiFrameStart port vc s
  | .csiLongPacket port vc dt hdr crcOk data fault => Sys2Proof.Machine.execCsiLongPacket port vc dt hdr crcOk data fault s
  | .csiEmbeddedPacket port vc hdr crcOk data => Sys2Proof.Machine.execCsiEmbeddedPacket port vc hdr crcOk data s
  | .csiFrameEnd port vc => Sys2Proof.Machine.execCsiFrameEnd port vc s
  | .missedFrame stream => Sys2Proof.Machine.execMissedFrame stream s
  | .frameStallTimeout stream => Sys2Proof.Machine.execFrameStallTimeout stream s
  | .fsyncEdge out => Sys2Proof.Machine.execFsyncEdge out s
  | .laneFailing port mask => Sys2Proof.Machine.execLaneFailing port mask s
  | .laneReductionDone port pass => Sys2Proof.Machine.execLaneReductionDone port pass s
  | .ibiReceived bus => Sys2Proof.Machine.execIbiReceived bus s
  | .i3cBatchGo bus domain value => Sys2Proof.Machine.execI3cBatchGo bus domain value s
  | .batchTransferStart stream => Sys2Proof.Machine.execBatchTransferStart stream s
  | .batchTransferDone stream nackAt => Sys2Proof.Machine.execBatchTransferDone stream nackAt s
  | .tinderInjectionDone pipe => Sys2Proof.Machine.execTinderInjectionDone pipe s
  | .ispStagedFrameStart pipe badLines parityAt => Sys2Proof.Machine.execIspStagedFrameStart pipe badLines parityAt s
  | .ispBandRelease stream out band => Sys2Proof.Machine.execIspBandRelease stream out band s
  | .ispStatsRelease stream => Sys2Proof.Machine.execIspStatsRelease stream s
  | .ispUpdGo pipe bank domain value => Sys2Proof.Machine.execIspUpdGo pipe bank domain value s
  | .ispUpdCopyDone pipe => Sys2Proof.Machine.execIspUpdCopyDone pipe s
  | .mesh inst err => Sys2Proof.Machine.execMesh inst err s
  | .affine inst err => Sys2Proof.Machine.execAffine inst err s
  | .homography inst err => Sys2Proof.Machine.execHomography inst err s
  | .rectPair inst err => Sys2Proof.Machine.execRectPair inst err s
  | .pyramid inst err => Sys2Proof.Machine.execPyramid inst err s
  | .stereo inst err => Sys2Proof.Machine.execStereo inst err s
  | .flow inst err => Sys2Proof.Machine.execFlow inst err s
  | .feature inst err => Sys2Proof.Machine.execFeature inst err s
  | .matchRecords inst err => Sys2Proof.Machine.execMatchRecords inst err s
  | .matmul tile => Sys2Proof.Machine.execMatmul tile s
  | .conv tile => Sys2Proof.Machine.execConv tile s
  | .attention tile => Sys2Proof.Machine.execAttention tile s
  | .elementwise tile => Sys2Proof.Machine.execElementwise tile s
  | .reduce tile => Sys2Proof.Machine.execReduce tile s
  | .norm tile => Sys2Proof.Machine.execNorm tile s
  | .gather tile => Sys2Proof.Machine.execGather tile s
  | .scatter tile => Sys2Proof.Machine.execScatter tile s
  | .sample tile => Sys2Proof.Machine.execSample tile s
  | .permute tile => Sys2Proof.Machine.execPermute tile s
  | .topk tile => Sys2Proof.Machine.execTopk tile s
  | .nms tile => Sys2Proof.Machine.execNms tile s
  | .lut tile => Sys2Proof.Machine.execLut tile s
  | .ntPhaseGrant tile => Sys2Proof.Machine.execNtPhaseGrant tile s
  | .ntFetchDone tile err => Sys2Proof.Machine.execNtFetchDone tile err s
  | .ntComputeDone tile err => Sys2Proof.Machine.execNtComputeDone tile err s
  | .ntStepComplete tile err => Sys2Proof.Machine.execNtStepComplete tile err s
  | .copy2d mover err => Sys2Proof.Machine.execCopy2d mover err s
  | .fill mover err => Sys2Proof.Machine.execFill mover err s
  | .spmFill mover err => Sys2Proof.Machine.execSpmFill mover err s
  | .spmCopy mover err => Sys2Proof.Machine.execSpmCopy mover err s
  | .reshuffle mover err => Sys2Proof.Machine.execReshuffle mover err s
  | .bmResume mover value => Sys2Proof.Machine.execBmResume mover value s
  | .heldAccessRetry unit => Sys2Proof.Machine.execHeldAccessRetry unit s
  | .heldAccessLimit unit => Sys2Proof.Machine.execHeldAccessLimit unit s
  | .unitStopAck unit => Sys2Proof.Machine.execUnitStopAck unit s
  | .detachedReadReturn unit => Sys2Proof.Machine.execDetachedReadReturn unit s
  | .wcMissFillDone line => Sys2Proof.Machine.execWcMissFillDone line s
  | .cinderEntry addr => Sys2Proof.Machine.execCinderEntry addr s
  | .ashFillDone addr => Sys2Proof.Machine.execAshFillDone addr s
  | .mcFlagHiRead => Sys2Proof.Machine.execMcFlagHiRead s
  | .ntWinWrite tile offset value domain => Sys2Proof.Machine.execNtWinWrite tile offset value domain s
  | .ntCredWrite tile offset value domain => Sys2Proof.Machine.execNtCredWrite tile offset value domain s
  | .tlServoUpdate source offset => Sys2Proof.Machine.execTlServoUpdate source offset s
  | .tlHoldoverTimeout => Sys2Proof.Machine.execTlHoldoverTimeout s
  | .tlLostTimeout => Sys2Proof.Machine.execTlLostTimeout s
  | .tlNowHiRead => Sys2Proof.Machine.execTlNowHiRead s
  | .journalEntry => Sys2Proof.Machine.execJournalEntry s
  | .mirrorCopyDone => Sys2Proof.Machine.execMirrorCopyDone s
  | .ejFwPost bank domain value => Sys2Proof.Machine.execEjFwPost bank domain value s
  | .journalDatagramSend => Sys2Proof.Machine.execJournalDatagramSend s
  | .interruptSourceRise source => Sys2Proof.Machine.execInterruptSourceRise source s
  | .icuSwiSet value => Sys2Proof.Machine.execIcuSwiSet value s
  | .icuSwiClr value => Sys2Proof.Machine.execIcuSwiClr value s
  | .interruptAccept pair pc => Sys2Proof.Machine.execInterruptAccept pair pc s
  | .offerTimeout source => Sys2Proof.Machine.execOfferTimeout source s
  | .icuEoi pair value => Sys2Proof.Machine.execIcuEoi pair value s
  | .mret pair => Sys2Proof.Machine.execMret pair s
  | .ecall pair cause pc => Sys2Proof.Machine.execEcall pair cause pc s
  | .fence pair => Sys2Proof.Machine.execFence pair s
  | .lockstepMismatch pair ue => Sys2Proof.Machine.execLockstepMismatch pair ue s
  | .abortAck pair value => Sys2Proof.Machine.execAbortAck pair value s
  | .siHbWrite pair value => Sys2Proof.Machine.execSiHbWrite pair value s
  | .heartbeatMissed pair => Sys2Proof.Machine.execHeartbeatMissed pair s
  | .cvuMemoryJob cvu domain value => Sys2Proof.Machine.execCvuMemoryJob cvu domain value s
  | .cvuTapArm cvu domain value => Sys2Proof.Machine.execCvuTapArm cvu domain value s
  | .cvuCancel cvu domain value => Sys2Proof.Machine.execCvuCancel cvu domain value s
  | .cvuJobDone cvu => Sys2Proof.Machine.execCvuJobDone cvu s
  | .doubtAtSelector => Sys2Proof.Machine.execDoubtAtSelector s
  | .safeStateEntry => Sys2Proof.Machine.execSafeStateEntry s
  | .severeFlushExpiry => Sys2Proof.Machine.execSevereFlushExpiry s
  | .tinderJobDone unit => Sys2Proof.Machine.execTinderJobDone unit s
  | .tinderPromote unit => Sys2Proof.Machine.execTinderPromote unit s
  | .tinderLate unit => Sys2Proof.Machine.execTinderLate unit s
  | .selftestSliceStart checker unit => Sys2Proof.Machine.execSelftestSliceStart checker unit s
  | .selftestSliceEnd checker unit sig => Sys2Proof.Machine.execSelftestSliceEnd checker unit sig s
  | .selftestStarved checker unit => Sys2Proof.Machine.execSelftestStarved checker unit s
  | .selftestLate checker unit => Sys2Proof.Machine.execSelftestLate checker unit s
  | .islandRomCheck pass => Sys2Proof.Machine.execIslandRomCheck pass s
  | .islandWatchdogExpiry => Sys2Proof.Machine.execIslandWatchdogExpiry s
  | .islandClockDisagree => Sys2Proof.Machine.execIslandClockDisagree s
  | .vddSiExcursion => Sys2Proof.Machine.execVddSiExcursion s
  | .heartbeatToggle => Sys2Proof.Machine.execHeartbeatToggle s
  | .monitor num value => Sys2Proof.Machine.execMonitor num value s
  | .errIn lowNs => Sys2Proof.Machine.execErrIn lowNs s
  | .emberPairWindowExpiry => Sys2Proof.Machine.execEmberPairWindowExpiry s
  | .emberMessageReady => Sys2Proof.Machine.execEmberMessageReady s
  | .emberSelfTest pass => Sys2Proof.Machine.execEmberSelfTest pass s
  | .fwlRgnCtrlWrite bank domain value => Sys2Proof.Machine.execFwlRgnCtrlWrite bank domain value s
  | .adaptEval => Sys2Proof.Machine.execAdaptEval s
  | .starvationLower => Sys2Proof.Machine.execStarvationLower s
  | .thermalEval => Sys2Proof.Machine.execThermalEval s
  | .domainPowerUpDone dom => Sys2Proof.Machine.execDomainPowerUpDone dom s
  | .domainFault dom => Sys2Proof.Machine.execDomainFault dom s
  | .idleGate unit => Sys2Proof.Machine.execIdleGate unit s
  | .idleWake unit => Sys2Proof.Machine.execIdleWake unit s
  | .maintPeriodExpiry act => Sys2Proof.Machine.execMaintPeriodExpiry act s
  | .maintRequest act => Sys2Proof.Machine.execMaintRequest act s
  | .maintActivityEnd act ecc => Sys2Proof.Machine.execMaintActivityEnd act ecc s
  | .maintReserve act => Sys2Proof.Machine.execMaintReserve act s
  | .maintOverdue act => Sys2Proof.Machine.execMaintOverdue act s
  | .gmlTrainDone link ident => Sys2Proof.Machine.execGmlTrainDone link ident s
  | .gmlFlitRx link seq ack crcOk packets => Sys2Proof.Machine.execGmlFlitRx link seq ack crcOk packets s
  | .gmlNakRx link seq => Sys2Proof.Machine.execGmlNakRx link seq s
  | .gmlRetrainStart link => Sys2Proof.Machine.execGmlRetrainStart link s
  | .gmlRetrainDone link lanes => Sys2Proof.Machine.execGmlRetrainDone link lanes s
  | .gmlRetryTimer link => Sys2Proof.Machine.execGmlRetryTimer link s
  | .gmlHeartbeatSend => Sys2Proof.Machine.execGmlHeartbeatSend s
  | .peerAliveToggle => Sys2Proof.Machine.execPeerAliveToggle s
  | .goingDownRx peer => Sys2Proof.Machine.execGoingDownRx peer s
  | .peerSenseTimeout link => Sys2Proof.Machine.execPeerSenseTimeout link s
  | .peerUnreachable peer => Sys2Proof.Machine.execPeerUnreachable peer s
  | .routeChange peer => Sys2Proof.Machine.execRouteChange peer s
  | .reserve link => Sys2Proof.Machine.execReserve link s
  | .grant link => Sys2Proof.Machine.execGrant link s
  | .drain link => Sys2Proof.Machine.execDrain link s
  | .remoteRequestRx link => Sys2Proof.Machine.execRemoteRequestRx link s
  | .gmlTimeExchange link offset delay => Sys2Proof.Machine.execGmlTimeExchange link offset delay s
  | .journalForwardTimeout => Sys2Proof.Machine.execJournalForwardTimeout s
  | .ethFrameRx mac data fcsOk => Sys2Proof.Machine.execEthFrameRx mac data fcsOk s
  | .ethFrameTx mac => Sys2Proof.Machine.execEthFrameTx mac s
  | .ethLinkChange mac up speed => Sys2Proof.Machine.execEthLinkChange mac up speed s
  | .ofSubGo bank domain value => Sys2Proof.Machine.execOfSubGo bank domain value s
  | .ofCopyDone => Sys2Proof.Machine.execOfCopyDone s
  | .canFrameRx can id ext data => Sys2Proof.Machine.execCanFrameRx can id ext data s
  | .canFrameTx can => Sys2Proof.Machine.execCanFrameTx can s
  | .canBusOffRecovery can => Sys2Proof.Machine.execCanBusOffRecovery can s
  | .vsStaleTimeout entry => Sys2Proof.Machine.execVsStaleTimeout entry s
  | .canVsStateRead can => Sys2Proof.Machine.execCanVsStateRead can s
  | .gpioOutSet domain value => Sys2Proof.Machine.execGpioOutSet domain value s
  | .gpioOutClr domain value => Sys2Proof.Machine.execGpioOutClr domain value s
  | .ppsEdge => Sys2Proof.Machine.execPpsEdge s
  | .readMirror start len => Sys2Proof.Machine.execReadMirror start len s
  | .writeMsg data => Sys2Proof.Machine.execWriteMsg data s
  | .readMsg => Sys2Proof.Machine.execReadMsg s
  | .mirrorRefresh => Sys2Proof.Machine.execMirrorRefresh s
  | .sysPcApertureWrite pair offset value => Sys2Proof.Machine.execSysPcApertureWrite pair offset value s
  | .shCommit blk => Sys2Proof.Machine.execShCommit blk s
  | .registerWrite bank domain offset value => Sys2Proof.Machine.execRegisterWrite bank domain offset value s
  | .pcDataAccess pair kind rd pc addr value size ecc => Sys2Proof.Machine.execPcDataAccess pair kind rd pc addr value size ecc s
  | .stageVerifyDone => Sys2Proof.Machine.execStageVerifyDone s
  | .i3cBatchCopyDone bus => Sys2Proof.Machine.execI3cBatchCopyDone bus s
  | .csiDeskewComplete port lanes => Sys2Proof.Machine.execCsiDeskewComplete port lanes s
  | .peerSenseEdge link => Sys2Proof.Machine.execPeerSenseEdge link s
  | .peerDelayRequest mac => Sys2Proof.Machine.execPeerDelayRequest mac s
  | .smLockstepMismatch => Sys2Proof.Machine.execSmLockstepMismatch s
  | .islandSramUe => Sys2Proof.Machine.execIslandSramUe s

end Sys2Proof.Machine
end

