-- ==== Sys2Proof/Machine/Tick.lean ====
section
/-! DEFINITION. What happens when no command waits: time passes. -/

namespace Sys2Proof.Machine

/-- One clock of the Timeline at the nominal rate (R6, R346) while the device is out of PORST_N, and nothing else
(DESIGN CHOICE, log entry 2). -/
def tick (s : State) : State :=
  if s.kin.porstLow then s else { s with now := s.now + 1 }

end Sys2Proof.Machine
end

