-- ==== Sys2Proof/WellFormed.lean ====
section
/-! DEFINITION. Which commands the interface can bring: the limits the spec puts on a command's operands that their types do
not already hold. `Machine.exec` is total and gives every other command the meaning of its text all the same. -/

namespace Sys2Proof

/-- Instances of each unit class (table "Unit code classes"). -/
def classCount : Nat → Nat
  | 0x01 | 0x02 | 0x03 | 0x04 | 0x05 | 0x06 | 0x07 | 0x0B | 0x0C => 4
  | 0x08 => 16
  | 0x09 | 0x0A => 8
  | 0x0D => 3
  | 0x0E => 48
  | _ => 0

/-- A unit code names a unit (table "Unit code classes"). -/
def unitCodeOk (u : Half) : Bool := decide (u.toNat % 256 < classCount (u.toNat / 256))

/-- A unit to which instances are dispatched without a core: an engine, a tile or a Block Mover (R99). -/
def dispatchUnit (u : Half) : Bool :=
  unitCodeOk u && decide (3 ≤ u.toNat / 256) && decide (u.toNat / 256 ≤ 9)

/-- A unit that tinder jobs cover: a pipe, an engine or a tile (R405). -/
def coveredUnit (u : Half) : Bool :=
  unitCodeOk u && decide (2 ≤ u.toNat / 256) && decide (u.toNat / 256 ≤ 8)

/-- An operation of the NOR flash stays in its 32-bit address space and programs within one page of 256 bytes. -/
def nvmOpOk (addr : Word) : NvmOp → Bool
  | .erase len => decide (1 ≤ len) && decide (addr.toNat + len ≤ 4294967296)
  | .program data => decide (1 ≤ data.length) && decide (addr.toNat % 256 + data.length ≤ 256)

/-- A CSI-2 long packet's data type lies in 0x10 to 0x3F. -/
def longType (dt : Byte) : Bool := decide (16 ≤ dt.toNat) && decide (dt.toNat < 64)

/-- A register offset is a multiple of 4 (R7). -/
def aligned (o : Nat) : Bool := decide (o % 4 = 0)

/-- A local address fits 48 bits and begins a page of 4 KiB. -/
def pageOk (a : Nat) : Bool := decide (a % 4096 = 0) && decide (a < 281474976710656)

/-- A weight-cache line begins at a multiple of 256 bytes below 2^48 (R322). -/
def lineOk (a : Nat) : Bool := decide (a % 256 = 0) && decide (a < 281474976710656)

/-- ECC outcomes name addresses of 48 bits. -/
def eccOk (hits : List EccHit) : Bool := hits.all (fun h => decide (h.addr < 281474976710656))

/-- The faults a step reports name addresses of 48 bits. -/
def stepErrOk : StepErr → Bool
  | .bus a _ => decide (a < 281474976710656)
  | .ecc hits => eccOk hits
  | .spmParity o => decide (o < 8388608)
  | _ => true

/-- The data lengths of a CAN FD frame. -/
def canLen (n : Nat) : Bool := decide (n ≤ 8) || [12, 16, 20, 24, 32, 48, 64].contains n

/-- A CAN identifier has 11 bits, or 29 when extended. -/
def canIdOk (id : Word) (ext : Bool) : Bool :=
  if ext then decide (id.toNat < 536870912) else decide (id.toNat < 2048)

/-- An identity packet names a device of its own count and digests of 32 bytes (R453). -/
def identOk : Option GmlIdentity → Bool
  | some i => decide (1 ≤ i.count.val) && decide (i.device.val ≤ i.count.val) && i.digests.all (fun d => d.2.length == 32)
  | none => true

/-- The fields of a token fit its 64 bits and sideband (R89, R90). -/
def tokenOk (node stream tile operand kind domain : Nat) : Bool :=
  decide (node < 4096) && decide (stream < 256) && decide (tile < 4096) && decide (operand < 8) && decide (kind < 4)
    && decide (domain < 16)

/-- A packet's fields fit their widths. -/
def packetOk : GmlPkt → Bool
  | .reserve _ _ _ keys => keys.all (fun k => decide (k.1 < 4096) && decide (k.2.2 < 4096))
  | .token _ _ node stream _ tile operand kind domain => tokenOk node stream tile operand kind domain
  | .drain _ _ flag => decide (flag < 262144)
  | .request _ _ _ write _ len data _ _ => if write then decide (data.length = len) else data.isEmpty
  | .journal _ _ record => decide (record.length = 32)
  | _ => true

/-- A core access: bytes, halfwords or words, atomics on words only, and a program counter that an instruction can have
(R366). -/
def accessOk (kind : AccessKind) (rd : Fin 32) (pc : Word) (size : Fin 3) : Bool :=
  decide (pc.toNat % 2 = 0) &&
  match kind with
  | .load fp _ => !fp || size == 2
  | .store => true
  | .amo _ => size == 2
  | .loadReserved => size == 2
  | .storeConditional => size == 2
  | .fetch => rd == 0

/-- The command is one that the block's interface can bring. -/
def Instr.wellFormed : Instr → Bool
  | .bistDone us _ => us.all unitCodeOk
  | .nvmEraseProgramCommand _ _ addr op => nvmOpOk addr op
  | .switchCinder l => decide (l.toNat < 32)
  | .switchBind l => decide (l.toNat < 32)
  | .dispatch u => dispatchUnit u
  | .stepComplete u => dispatchUnit u
  | .csiLongPacket _ _ dt _ _ data _ => longType dt && decide (data.length < 65536)
  | .csiEmbeddedPacket _ _ _ _ data => decide (data.length < 65536)
  | .ispBandRelease _ _ b => decide (b.toNat < 1024)
  | .mesh _ e => stepErrOk e
  | .affine _ e => stepErrOk e
  | .homography _ e => stepErrOk e
  | .rectPair _ e => stepErrOk e
  | .pyramid _ e => stepErrOk e
  | .stereo _ e => stepErrOk e
  | .flow _ e => stepErrOk e
  | .feature _ e => stepErrOk e
  | .matchRecords _ e => stepErrOk e
  | .ntFetchDone _ e => stepErrOk e
  | .ntComputeDone _ e => stepErrOk e
  | .ntStepComplete _ e => stepErrOk e
  | .copy2d _ e => stepErrOk e
  | .fill _ e => stepErrOk e
  | .spmFill _ e => stepErrOk e
  | .spmCopy _ e => stepErrOk e
  | .reshuffle _ e => stepErrOk e
  | .heldAccessRetry u => unitCodeOk u
  | .heldAccessLimit u => unitCodeOk u
  | .unitStopAck u => unitCodeOk u
  | .detachedReadReturn u => unitCodeOk u
  | .wcMissFillDone line => lineOk line
  | .cinderEntry a => pageOk a
  | .ashFillDone a => pageOk a
  | .ntWinWrite _ o _ _ => aligned o.toNat
  | .ntCredWrite _ o _ _ => aligned o.toNat
  | .tinderJobDone u => coveredUnit u
  | .tinderPromote u => coveredUnit u
  | .tinderLate u => coveredUnit u
  | .idleGate u => unitCodeOk u
  | .idleWake u => unitCodeOk u
  | .gmlTrainDone _ ident => identOk ident
  | .gmlFlitRx _ _ _ _ ps => ps.all packetOk
  | .gmlTimeExchange _ _ delay => decide (delay < 4294967296)
  | .ethFrameRx _ data _ => decide (data.length ≤ 1518)
  | .canFrameRx _ id ext data => canIdOk id ext && canLen data.length
  | .sysPcApertureWrite _ o _ => aligned o.toNat
  | .registerWrite _ _ o _ => aligned o.toNat
  | .maintActivityEnd _ ecc => eccOk ecc
  | .pcDataAccess _ kind rd pc _ _ size ecc => accessOk kind rd pc size && eccOk ecc
  | .porstNAssert | .porstNRelease .. | .wrstNFall .. | .wrstNRise | .warmResetHoldEnd | .kindlingWatchdogExpiry
  | .siSelfTestDone .. | .hkcSignatureCheck .. | .imageSelect .. | .lpddrTrainDone .. | .sectionLoaded | .checkStage
  | .firmwareStage | .seqWrite .. | .seqReadExpect .. | .seqWait .. | .seqPoll .. | .seqGpio .. | .seqFsyncEnable ..
  | .seqEnd .. | .sensorRetryTimer .. | .bindStage | .verifyPass | .verifyTimeout | .sectionReloadDone .. | .hello ..
  | .serviceOpen .. | .serviceClose .. | .sessionIdleTimeout .. | .serviceStatus .. | .readReg .. | .journalRead ..
  | .sceneRequest .. | .stageBegin .. | .stageEraseDone | .stageChunk .. | .stageChunkProgrammed | .stageEnd ..
  | .stageStatus .. | .stageIdleTimeout | .gpioFilterExpiry .. | .switchDrainKill | .switchOpen | .dwellExpiry
  | .tokenLookup | .instanceAdmit .. | .affinityHoldExpiry .. | .pcDispatch .. | .fgsDisp0Read .. | .fgsPcDone ..
  | .fgsPost .. | .fgsCancel .. | .fgsAffinityForget | .release .. | .releaseRetry | .stallRelease ..
  | .deferredVoid .. | .slotDrain .. | .periodicStart .. | .deadlineExpiry .. | .matchTimeout ..
  | .flowWatchExpiry .. | .csiFrameStart .. | .csiFrameEnd .. | .missedFrame .. | .frameStallTimeout ..
  | .fsyncEdge .. | .laneFailing .. | .laneReductionDone .. | .ibiReceived .. | .i3cBatchGo ..
  | .batchTransferStart .. | .batchTransferDone .. | .tinderInjectionDone .. | .ispStagedFrameStart ..
  | .ispStatsRelease .. | .ispUpdGo .. | .ispUpdCopyDone .. | .matmul .. | .conv .. | .attention .. | .elementwise ..
  | .reduce .. | .norm .. | .gather .. | .scatter .. | .sample .. | .permute .. | .topk .. | .nms .. | .lut ..
  | .ntPhaseGrant .. | .bmResume .. | .mcFlagHiRead | .tlServoUpdate .. | .tlHoldoverTimeout | .tlLostTimeout
  | .tlNowHiRead | .journalEntry | .mirrorCopyDone | .ejFwPost .. | .journalDatagramSend | .interruptSourceRise ..
  | .icuSwiSet .. | .icuSwiClr .. | .interruptAccept .. | .offerTimeout .. | .icuEoi .. | .mret .. | .ecall ..
  | .fence .. | .lockstepMismatch .. | .abortAck .. | .siHbWrite .. | .heartbeatMissed .. | .cvuMemoryJob ..
  | .cvuTapArm .. | .cvuCancel .. | .cvuJobDone .. | .doubtAtSelector | .safeStateEntry | .severeFlushExpiry
  | .selftestSliceStart .. | .selftestSliceEnd .. | .selftestStarved .. | .selftestLate .. | .islandRomCheck ..
  | .islandWatchdogExpiry | .islandClockDisagree | .vddSiExcursion | .heartbeatToggle | .monitor .. | .errIn ..
  | .emberPairWindowExpiry | .emberMessageReady | .emberSelfTest .. | .fwlRgnCtrlWrite .. | .adaptEval
  | .starvationLower | .thermalEval | .domainPowerUpDone .. | .domainFault .. | .maintPeriodExpiry ..
  | .maintRequest .. | .maintReserve .. | .maintOverdue .. | .gmlNakRx ..
  | .gmlRetrainStart .. | .gmlRetrainDone .. | .gmlRetryTimer .. | .gmlHeartbeatSend | .peerAliveToggle
  | .goingDownRx .. | .peerSenseTimeout .. | .peerUnreachable .. | .routeChange .. | .reserve .. | .grant ..
  | .drain .. | .remoteRequestRx .. | .journalForwardTimeout | .ethFrameTx .. | .ethLinkChange .. | .ofSubGo ..
  | .ofCopyDone | .canFrameTx .. | .canBusOffRecovery .. | .vsStaleTimeout .. | .canVsStateRead .. | .gpioOutSet ..
  | .gpioOutClr .. | .ppsEdge | .readMirror .. | .writeMsg .. | .readMsg | .mirrorRefresh | .shCommit ..
  | .stageVerifyDone | .i3cBatchCopyDone .. | .csiDeskewComplete .. | .peerSenseEdge .. | .peerDelayRequest ..
  | .smLockstepMismatch | .islandSramUe => true

end Sys2Proof
end

