-- ==== Sys2Proof/Safety.lean ====
section
/-! DEFINITION. What the claims call a good state and a good step: the stores in their canonical form, the fuses kept, the
queue left alone, and the conditions under which units, cores and the interfaces work. -/

namespace Sys2Proof.Machine

open Sys2Proof

/-! ### Canonical stores -/

/-- The register file lists its offsets strictly rising and no register that holds its reset value. -/
def regsWf (l : List (Nat × Word)) : Bool := risingFrom 0 l && l.all (fun c => c.2 != resetWord c.1)

/-- The flag memory lists its indices strictly rising and no flag word of zero. -/
def flagsWf (l : List (Nat × DWord)) : Bool := risingFrom 0 l && l.all (fun c => c.2 != 0)

/-- Equal contents are equal data: memory, register file, flag memory and the shadow values are in canonical form. -/
def State.canonical (s : State) : Bool :=
  Memory.wf s.mem && regsWf s.regs && flagsWf s.flags && risingFrom 0 s.shadow

/-! ### Fuses (R51, R53, R54) -/

/-- The fuses are those of s, but for the rollback counter, which has not gone down and stays within its 64 fuses. -/
def fusesKept (s t : State) : Prop :=
  t.otp = { s.otp with rollback := t.otp.rollback } ∧ s.otp.rollback ≤ t.otp.rollback ∧ t.otp.rollback ≤ 64

/-- What every step of the block preserves: the canonical forms, and a rollback count within its 64 fuses. -/
def State.sound (s : State) : Prop := s.canonical = true ∧ s.otp.rollback ≤ 64

/-! ### Answers -/

/-- A command's answer is a next state of which P holds. -/
def completes (r : Res) (P : State → Prop) : Prop := ∃ t, r = .next t ∧ P t

/-- Every register but those at the listed offsets holds in t what it held in s. -/
def regsKept (s t : State) (but : List Nat) : Prop := ∀ a, a ∉ but → t.reg a = s.reg a

/-- Every byte of memory reads in t as it read in s. -/
def memKept (s t : State) : Prop := ∀ a, t.byte a = s.byte a

/-- Every byte of memory outside n bytes from an address reads in t as it read in s. -/
def memKeptOutside (s t : State) (at' n : Nat) : Prop := ∀ a, a < at' ∨ at' + n ≤ a → t.byte a = s.byte a

/-- A counter of 32 bits that saturates holds n more in t than in s (R8). -/
abbrev counted (s t : State) (a n : Nat) : Prop := (t.reg a).toNat = min ((s.reg a).toNat + n) 0xFFFFFFFF

/-! ### Parts of the state, and which of them a command may change -/

/-- A part of the state: one field of `State`. -/
inductive Part where
  | regs | shadow | mem | flags | now | free | otp | flash | tl | pins | kin | scene | fgs | mm | cores | units | journal
    | safety | adapt | maint | cam | isp | io | gml | cvus | carry | nts | patterns | icu | pending
  deriving DecidableEq, Repr

/-- Every part but those listed. -/
def Part.allBut (l : List Part) : List Part :=
  ([.regs, .shadow, .mem, .flags, .now, .free, .otp, .flash, .tl, .pins, .kin, .scene, .fgs, .mm, .cores, .units, .journal,
    .safety, .adapt, .maint, .cam, .isp, .io, .gml, .cvus, .carry, .nts, .patterns, .icu, .pending] : List Part).filter (fun p
    => !l.contains p)

/-- Two states hold the same in a part. -/
def State.agrees (s t : State) : Part → Prop
  | .regs => t.regs = s.regs
  | .shadow => t.shadow = s.shadow
  | .mem => t.mem = s.mem
  | .flags => t.flags = s.flags
  | .now => t.now = s.now
  | .free => t.free = s.free
  | .otp => t.otp = s.otp
  | .flash => t.flash = s.flash
  | .tl => t.tl = s.tl
  | .pins => t.pins = s.pins
  | .kin => t.kin = s.kin
  | .scene => t.scene = s.scene
  | .fgs => t.fgs = s.fgs
  | .mm => t.mm = s.mm
  | .cores => t.cores = s.cores
  | .units => t.units = s.units
  | .journal => t.journal = s.journal
  | .safety => t.safety = s.safety
  | .adapt => t.adapt = s.adapt
  | .maint => t.maint = s.maint
  | .cam => t.cam = s.cam
  | .isp => t.isp = s.isp
  | .io => t.io = s.io
  | .gml => t.gml = s.gml
  | .cvus => t.cvus = s.cvus
  | .carry => t.carry = s.carry
  | .nts => t.nts = s.nts
  | .patterns => t.patterns = s.patterns
  | .icu => t.icu = s.icu
  | .pending => t.pending = s.pending

/-- The parts of the state that a command may change; it leaves every other part as it is. -/
def instrParts : Instr → List Part
  | .porstNAssert | .warmResetHoldEnd => Part.allBut [.free, .otp, .pending]
  | .porstNRelease .. => [.regs, .now, .kin]
  | .wrstNFall .. | .imageSelect .. | .bistDone .. | .lpddrTrainDone .. | .sectionLoaded | .checkStage | .bindStage |
      .tinderJobDone .. | .vddSiExcursion => Part.allBut [.now, .free, .otp, .tl, .pending]
  | .wrstNRise => Part.allBut [.now, .free, .otp, .pending]
  | .kindlingWatchdogExpiry | .verifyTimeout | .severeFlushExpiry => Part.allBut [.free, .otp, .tl, .pending]
  | .siSelfTestDone .. => [.regs, .tl, .pins, .kin, .safety]
  | .hkcSignatureCheck .. => [.regs, .kin]
  | .firmwareStage => [.regs, .mem, .kin, .cores, .safety, .cam, .patterns]
  | .seqWrite .. | .seqReadExpect .. | .laneReductionDone .. | .ispStagedFrameStart .. | .lockstepMismatch .. | .domainFault ..
      | .gmlNakRx .. | .gmlRetrainDone .. => Part.allBut [.shadow, .mem, .now, .free, .otp, .flash, .tl, .pins, .carry, .nts,
      .patterns, .pending]
  | .seqWait .. | .sensorRetryTimer .. => [.now, .kin]
  | .seqPoll .. | .heartbeatMissed .. | .selftestSliceEnd .. | .maintActivityEnd .. => Part.allBut [.shadow, .mem, .free, .otp,
      .flash, .tl, .pins, .carry, .nts, .patterns, .pending]
  | .seqGpio .. => [.pins, .kin]
  | .seqFsyncEnable .. => [.kin, .cam]
  | .seqEnd .. => [.kin]
  | .verifyPass => [.regs, .otp, .pins, .kin, .mm, .units, .journal, .safety, .gml]
  | .nvmEraseProgramCommand .. => [.regs, .flash, .journal]
  | .sectionReloadDone .. => [.regs, .mem, .mm, .cores, .journal]
  | .hello .. | .serviceOpen .. | .stageChunk .. | .stageEnd .. | .ethFrameTx .. | .peerDelayRequest .. => [.regs, .free, .io]
  | .serviceClose .. | .serviceStatus .. | .readReg .. | .journalRead .. | .stageStatus .. | .ethFrameRx .. | .writeMsg .. =>
      [.regs, .io]
  | .sessionIdleTimeout .. | .ppsEdge | .mirrorRefresh => [.now, .io]
  | .sceneRequest .. | .gpioFilterExpiry .. | .switchOpen | .gmlFlitRx .. | .goingDownRx .. => [.regs, .flags, .scene, .fgs,
      .mm, .cores, .units, .journal, .safety, .adapt, .cam, .isp, .io, .gml, .cvus]
  | .stageBegin .. | .stageEraseDone | .stageChunkProgrammed => [.regs, .flash, .io]
  | .stageIdleTimeout => [.regs, .now, .journal, .io]
  | .switchDrainKill => [.regs, .flags, .now, .scene, .fgs, .cores, .units, .journal, .adapt, .gml]
  | .switchCinder .. => [.regs, .scene, .fgs, .mm, .safety, .cvus]
  | .switchBind .. => [.regs, .flags, .scene, .fgs, .safety, .cam, .isp, .cvus]
  | .dwellExpiry | .peerSenseTimeout .. | .peerUnreachable .. => [.regs, .flags, .now, .scene, .fgs, .mm, .cores, .units,
      .journal, .safety, .adapt, .cam, .isp, .io, .gml, .cvus]
  | .tokenLookup | .fgsPcDone .. | .fgsCancel .. | .stepComplete .. | .stallRelease .. | .grant .. => [.regs, .flags, .fgs,
      .cores, .units, .journal, .adapt, .gml]
  | .instanceAdmit .. | .slotDrain .. => [.regs, .flags, .fgs, .journal, .safety, .gml]
  | .dispatch .. => [.regs, .flags, .fgs, .cores, .units, .journal, .safety, .adapt, .gml, .cvus]
  | .affinityHoldExpiry .. | .releaseRetry | .matchTimeout .. => [.regs, .flags, .now, .fgs, .cores, .units, .journal, .adapt,
      .gml]
  | .pcDispatch .. => [.regs, .flags, .fgs, .cores, .units]
  | .fgsDisp0Read .. => [.regs, .fgs]
  | .fgsPost .. => [.regs, .fgs, .gml]
  | .fgsAffinityForget => [.fgs]
  | .release .. => [.regs, .flags, .fgs, .cores, .units, .journal, .safety, .adapt, .gml]
  | .deferredVoid .. => [.regs, .flags, .fgs, .gml]
  | .periodicStart .. => [.regs, .now, .fgs]
  | .deadlineExpiry .. => [.regs, .flags, .now, .fgs, .cores, .units, .journal, .safety, .adapt, .gml]
  | .flowWatchExpiry .. => [.regs, .flags, .now, .free, .fgs, .cores, .units, .journal, .adapt, .gml]
  | .csiFrameStart .. => [.regs, .mem, .flags, .free, .fgs, .journal, .safety, .cam, .isp, .gml, .cvus]
  | .csiLongPacket .. | .laneFailing .. => Part.allBut [.shadow, .now, .free, .otp, .flash, .tl, .pins, .carry, .nts,
      .patterns, .pending]
  | .csiEmbeddedPacket .. => [.regs, .free, .safety, .cam, .isp, .cvus]
  | .csiFrameEnd .. => [.regs, .mem, .flags, .fgs, .journal, .safety, .cam, .isp, .gml, .cvus]
  | .missedFrame .. | .fsyncEdge .. => [.regs, .flags, .now, .free, .fgs, .journal, .safety, .cam, .gml]
  | .frameStallTimeout .. => [.regs, .mem, .flags, .now, .fgs, .journal, .safety, .cam, .isp, .gml, .cvus]
  | .ibiReceived .. | .i3cBatchGo .. | .i3cBatchCopyDone .. | .csiDeskewComplete .. => [.regs, .cam]
  | .batchTransferStart .. => [.regs, .now, .cam]
  | .batchTransferDone .. => [.regs, .journal, .cam]
  | .tinderInjectionDone .. => [.regs, .isp, .cvus]
  | .ispBandRelease .. | .ispStatsRelease .. => [.regs, .mem, .flags, .fgs, .journal, .isp, .gml]
  | .ispUpdGo .. | .ispUpdCopyDone .. => [.regs, .isp]
  | .mesh .. | .affine .. | .homography .. | .rectPair .. | .pyramid .. | .stereo .. | .flow .. | .feature .. | .matchRecords
      .. | .copy2d .. | .fill .. | .spmFill .. | .spmCopy .. | .reshuffle .. => Part.allBut [.shadow, .now, .free, .otp,
      .flash, .tl, .pins, .nts, .patterns, .pending]
  | .matmul .. | .conv .. | .attention .. | .elementwise .. | .reduce .. | .norm .. | .gather .. | .scatter .. | .sample .. |
      .permute .. | .topk .. | .nms .. | .lut .. => [.nts]
  | .ntPhaseGrant .. => [.regs, .fgs, .units, .nts]
  | .ntFetchDone .. | .ntStepComplete .. => Part.allBut [.shadow, .now, .free, .otp, .flash, .tl, .pins, .patterns, .pending]
  | .ntComputeDone .. => Part.allBut [.shadow, .mem, .now, .free, .otp, .flash, .tl, .pins, .patterns, .pending]
  | .bmResume .. | .ntWinWrite .. | .ntCredWrite .. | .ejFwPost .. => [.regs, .journal]
  | .heldAccessRetry .. => [.now, .units]
  | .heldAccessLimit .. => Part.allBut [.shadow, .mem, .free, .otp, .flash, .tl, .pins, .nts, .patterns, .pending]
  | .unitStopAck .. => [.regs, .flags, .free, .fgs, .mm, .cores, .units, .adapt, .gml, .cvus, .carry]
  | .detachedReadReturn .. => [.mm, .gml]
  | .wcMissFillDone .. | .mcFlagHiRead => [.mm]
  | .cinderEntry .. => [.regs, .mm]
  | .ashFillDone .. => [.regs, .mem, .mm, .units, .nts]
  | .tlServoUpdate .. => Part.allBut [.shadow, .mem, .flags, .otp, .flash, .pins, .cores, .cvus, .carry, .patterns, .icu,
      .pending]
  | .tlHoldoverTimeout => [.regs, .now, .tl, .journal]
  | .tlLostTimeout => [.regs, .now, .journal]
  | .tlNowHiRead | .interruptSourceRise .. | .icuSwiSet .. | .gmlRetryTimer .. | .gmlTimeExchange .. | .ethLinkChange .. |
      .canBusOffRecovery .. | .canVsStateRead .. | .sysPcApertureWrite .. => [.regs]
  | .journalEntry | .routeChange .. => [.regs, .journal, .gml]
  | .mirrorCopyDone => [.regs, .mem, .mm, .cores, .journal, .gml]
  | .journalDatagramSend => [.regs, .journal, .io]
  | .icuSwiClr .. => [.regs, .icu]
  | .interruptAccept .. => [.regs, .mem, .cores, .icu]
  | .offerTimeout .. => [.icu]
  | .icuEoi .. => [.regs, .cores, .icu]
  | .mret .. => [.regs, .mem, .free, .cores, .icu]
  | .ecall .. => [.regs, .mem, .free, .cores]
  | .fence .. => [.cores]
  | .abortAck .. => [.regs, .flags, .fgs, .cores, .units, .adapt, .gml]
  | .siHbWrite .. => [.safety]
  | .cvuMemoryJob .. | .cvuTapArm .. | .cvuCancel .. => [.regs, .free, .journal, .safety, .cvus]
  | .cvuJobDone .. => [.regs, .mm, .journal, .safety, .gml, .cvus]
  | .doubtAtSelector | .ofCopyDone => [.regs, .journal, .safety, .io]
  | .safeStateEntry => [.regs, .flags, .pins, .fgs, .cores, .units, .journal, .safety, .adapt, .gml]
  | .tinderPromote .. | .emberPairWindowExpiry => [.now, .safety]
  | .tinderLate .. | .selftestLate .. => [.regs, .now, .journal, .safety]
  | .selftestSliceStart .. | .maintRequest .. => [.regs, .units, .safety, .maint]
  | .selftestStarved .. => [.regs, .now, .journal, .safety, .adapt]
  | .islandRomCheck .. | .islandClockDisagree | .errIn .. | .smLockstepMismatch | .islandSramUe => [.regs, .pins, .journal,
      .safety]
  | .islandWatchdogExpiry => [.regs, .now, .pins, .journal, .safety]
  | .heartbeatToggle => [.now, .pins, .safety]
  | .monitor .. => [.regs, .journal, .safety, .adapt]
  | .emberMessageReady => [.regs, .journal, .safety, .adapt, .io]
  | .emberSelfTest .. => [.regs, .journal, .safety]
  | .fwlRgnCtrlWrite .. => [.regs, .shadow, .free, .journal, .safety]
  | .adaptEval => Part.allBut [.shadow, .otp, .flash, .tl, .pins, .kin, .maint, .carry, .nts, .patterns, .icu, .pending]
  | .starvationLower | .thermalEval => [.regs, .now, .journal, .adapt]
  | .domainPowerUpDone .. => [.regs, .mm, .units]
  | .idleGate .. => [.regs, .now, .units]
  | .idleWake .. => [.regs, .units]
  | .maintPeriodExpiry .. => [.regs, .now, .units, .safety, .maint]
  | .maintReserve .. => [.now, .maint]
  | .maintOverdue .. => [.regs, .now, .free, .journal, .maint]
  | .gmlTrainDone .. => [.regs, .kin, .journal, .cam, .isp, .gml]
  | .gmlRetrainStart .. => [.regs, .now]
  | .gmlHeartbeatSend => [.regs, .shadow, .journal, .gml]
  | .peerAliveToggle => [.pins]
  | .reserve .. | .peerSenseEdge .. => [.regs, .gml]
  | .drain .. => [.flags, .fgs, .gml]
  | .remoteRequestRx .. => [.regs, .mem, .mm, .cores, .journal, .safety, .gml]
  | .journalForwardTimeout => [.now, .journal]
  | .ofSubGo .. => [.regs, .mm, .journal, .safety, .io, .gml]
  | .canFrameRx .. => [.regs, .mem, .flags, .scene, .fgs, .mm, .cores, .units, .journal, .safety, .adapt, .cam, .isp, .io,
      .gml, .cvus]
  | .canFrameTx .. | .readMirror .. | .readMsg => [.io]
  | .vsStaleTimeout .. => [.regs, .mem, .flags, .now, .scene, .fgs, .mm, .cores, .units, .journal, .safety, .adapt, .cam, .isp,
      .io, .gml, .cvus]
  | .gpioOutSet .. | .gpioOutClr .. => [.regs, .pins]
  | .shCommit .. => [.regs, .shadow, .fgs, .gml]
  | .registerWrite .. => Part.allBut [.mem, .now, .otp, .flash, .tl, .kin, .scene, .maint, .carry, .nts, .patterns, .pending]
  | .pcDataAccess .. => Part.allBut [.now, .otp, .flash, .tl, .carry, .nts, .patterns, .pending]
  | .stageVerifyDone => [.regs, .flash, .kin, .io]

/-! ### The registers that a command may change -/

/-- The journal's own registers, which a record may change when its source's queue is full. -/
def regsLog : List Nat := [Reg.EJ_EVENT, Reg.EJ_LOST_CNT]

/-- The flit counters of the links, which a packet sent may change. -/
def regsSend : List Nat := [Reg.GML_CNT 0 0, Reg.GML_CNT 1 0, Reg.GML_CNT 2 0]

/-- What an answer on a service channel may change: the refused frames of the Ethernet ports. -/
def regsAnswer : List Nat := [Reg.ETH_CNT 0 4, Reg.ETH_CNT 1 4, Reg.ETH_ERR 0, Reg.ETH_ERR 1]

/-- What a message without a session may change beside: the counts of refused messages. -/
def regsMessage : List Nat := regsAnswer ++ [Reg.ETH_CNT 0 5, Reg.ETH_CNT 1 5, Reg.SUP_CNT]

/-- The power domains. -/
def regsDomains : List Nat := (List.range 8).map Reg.PMU_DOM_ON

/-- What a doubt event may change. -/
def regsDoubt : List Nat := regsLog ++ [Reg.SI_DOUBT_CNT, Reg.SI_EVENT, Reg.SI_LAST]

/-- What a maintenance activity that starts or ends may change. -/
def regsMaint : List Nat := Reg.PMU_MAINT :: (List.range 4).map Reg.MC_STATUS

/-- The registers that a command may change, for commands whose effect on registers does not spread through the sequencer, a
scene switch or a fence; none for the others. -/
def instrRegs? : Instr → Option (List Nat)
  | .matmul .. | .conv .. | .attention .. | .elementwise .. | .reduce .. | .norm .. | .gather .. | .scatter .. | .sample ..
      | .permute .. | .topk .. | .nms .. | .lut .. => some []
  | .seqWait .. | .seqGpio .. | .seqFsyncEnable .. | .seqEnd .. | .sensorRetryTimer .. | .sessionIdleTimeout .. => some []
  | .fgsAffinityForget | .wcMissFillDone .. | .mcFlagHiRead | .offerTimeout .. | .fence .. | .siHbWrite .. => some []
  | .peerAliveToggle | .canFrameTx .. | .readMirror .. | .readMsg .. | .heldAccessRetry .. | .detachedReadReturn .. => some []
  | .tinderPromote .. | .emberPairWindowExpiry | .maintReserve .. | .heartbeatToggle | .ppsEdge | .mirrorRefresh => some []
  | .drain .. | .journalForwardTimeout => some []
  | .sysPcApertureWrite p o _ => some [Reg.SYS_PC_AP p.val (o.toNat / 16) (o.toNat / 4 % 4)]
  | .interruptSourceRise n => some [Reg.ICU_PEND (n.val / 32)]
  | .gmlRetryTimer k => some [Reg.GML_STATUS k.val]
  | .gmlTimeExchange k _ _ => some [Reg.GML_STATUS k.val, Reg.GML_TIME k.val]
  | .gmlRetrainStart k => some [Reg.GML_STATUS k.val, Reg.GML_ERR k.val, Reg.GML_CNT k.val 4]
  | .peerSenseEdge k => some [Reg.GML_STATUS k.val]
  | .reserve .. => some regsSend
  | .routeChange .. => some (Reg.GML_PEERS :: regsSend)
  | .cinderEntry .. => some [Reg.MC_WC_CNT 2]
  | .sectionReloadDone .. => some (Reg.MC_WC_CNT 2 :: (List.range 4).map (Reg.MC_CNT · 2) ++ regsLog)
  | .domainPowerUpDone .. => some (Reg.MC_WC_CNT 2 :: regsDomains)
  | .idleWake .. | .idleGate .. => some regsDomains
  | .selftestSliceStart .. | .maintRequest .. | .maintPeriodExpiry .. => some regsMaint
  | .maintActivityEnd a [] => some (Reg.MC_STATUS (a.toNat % 256) :: regsMaint)
  | .serviceClose .. | .serviceStatus .. | .readReg .. | .journalRead .. | .hello .. | .stageStatus .. | .stageEraseDone .. => some regsAnswer
  | .stageChunk .. | .stageChunkProgrammed .. => some regsAnswer
  | .stageEnd .. | .stageVerifyDone .. => some (Reg.SYS_STAGE_STATUS :: regsAnswer)
  | .stageBegin .. => some (Reg.SYS_STAGE_STATUS :: Reg.SYS_STAGE_GEN :: regsAnswer)
  | .stageIdleTimeout .. => some (Reg.SYS_STAGE_STATUS :: regsLog)
  | .serviceOpen .. | .writeMsg .. => some regsMessage
  | .nvmEraseProgramCommand .. => some regsLog
  | .bmResume n _ => some (Reg.BM_FAULT_HI n.val :: regsLog)
  | .fgsPost b _ _ => some (bankOff b.val Reg.FGS_POST_RESULT :: regsSend)
  | .ejFwPost b _ _ => some (bankOff b.val Reg.EJ_FW_RESULT :: regsLog)
  | .periodicStart .. => some [Reg.FGS_CNT 0, Reg.FGS_EVENT, Reg.FGS_HWM]
  | .deferredVoid .. => some (Reg.FGS_EVENT :: regsSend)
  | .tlLostTimeout | .tlHoldoverTimeout => some (Reg.TL_STATUS :: Reg.TL_EVENT :: regsLog)
  | .ecall p _ _ => some (Reg.SYS_PC_STATUS p.val :: Reg.SYS_PC_RET p.val :: (List.range 4).map (Reg.SYS_PC_BANK_EPC p.val))
  | .starvationLower => some (Reg.PMU_SHED :: Reg.PMU_STATUS :: Reg.PMU_EVENT :: regsLog)
  | .maintOverdue .. => some (Reg.PMU_EVENT :: regsLog)
  | .thermalEval .. => some (Reg.NE_CLOCK :: Reg.PMU_SHED :: Reg.PMU_EVENT :: Reg.PMU_STATUS :: regsLog)
  | .selftestStarved .. => some (Reg.PMU_SHED :: Reg.PMU_STATUS :: Reg.PMU_EVENT :: Reg.SI_EVENT :: regsLog)
  | .tinderLate .. | .selftestLate .. => some regsDoubt
  | .monitor .. => some (Reg.PMU_STATUS :: regsDoubt)
  | .errIn .. => some (Reg.SI_STATUS :: regsDoubt)
  | .emberSelfTest .. => some (Reg.SI_EVENT :: Reg.SI_STATUS :: regsLog)
  | .islandRomCheck .. | .islandWatchdogExpiry | .islandClockDisagree | .smLockstepMismatch | .islandSramUe => some (Reg.SI_LAST :: regsLog)
  | .gpioOutSet .. | .gpioOutClr .. => some [Reg.GPIO_REFUSED]
  | .canBusOffRecovery c => some [Reg.CAN_ERR c.val, Reg.CAN_STATUS c.val]
  | .canVsStateRead c => some [Reg.CAN_VS_STATE c.val, Reg.CAN_VS_VALUE c.val]
  | .ethLinkChange m _ _ => some [Reg.ETH_STATUS m.val, Reg.ETH_ERR m.val]
  | _ => none

/-! ### Steps of engines, tiles and Block Movers -/

/-- The descriptor of the step a unit is to run. -/
def State.desc (s : State) (c : StepCtx) : List Byte := Memory.bytes s.mem c.descAddr 64

/-- The state once the step has begun and its descriptor fetch has been judged. -/
def State.fetched (s : State) (c : StepCtx) : State := ((s.beginStep c).fetchDesc c).1

/-- A unit has a step of an operation to run, and its descriptor fetch is served. -/
abbrev stepDue (s : State) (unit op : Nat) (c : StepCtx) : Prop :=
  s.ctx? unit = some c ∧ ((s.beginStep c).fetchDesc c).2 = some (s.desc c) ∧ leAt (s.desc c) 0 1 = op

/-- A step has been taken: the unit counts it, and its instance is due the next one, or none after the last. -/
abbrev stepTaken (s t : State) (c : StepCtx) (last : Bool) : Prop :=
  counted s t (engCnt c.unit 0) 1 ∧
  (∀ e i, c.entry = some e → s.entry? e = some i →
    ∃ j, t.entry? e = some j ∧ j.step = if last then max c.steps (i.step + 1) else i.step + 1)

/-! ### Links -/

/-- Number of a packet's kind, by which a waiting packet is found. -/
def pktKind : GmlPkt → Nat
  | .heartbeat _ _ => 0
  | .goingDown _ => 1
  | .time _ _ _ _ _ => 2
  | .reserve _ _ _ _ => 3
  | .answer _ _ _ _ => 4
  | .token _ _ _ _ _ _ _ _ _ => 5
  | .drain _ _ _ => 6
  | .request _ _ _ _ _ _ _ _ _ => 7
  | .response _ _ _ _ _ _ => 8
  | .journal _ _ _ => 9

/-- The first packet of a kind that waits on a link. -/
abbrev State.waiting? (s : State) (k kind : Nat) : Option GmlPkt := (s.link k).rx.find? (fun p => pktKind p == kind)

/-- The packet that was sent last on a link, in a flit of its own. -/
abbrev State.sentLast (s : State) (k : Nat) (p : GmlPkt) : Prop := ((s.link k).tx.getLast?).map (·.2) = some [p]

end Sys2Proof.Machine
end

