-- ==== Sys2Proof/Certificates/Slice0/Obligations.lean ====
section
/-! DEFINITION. The statements for the provers. `completes r P` says that a command answers a next state of which P holds. -/

set_option maxRecDepth 4000
set_option linter.unusedVariables false

open Sys2Proof Sys2Proof.Machine

/-- PORST_N low gives every register its reset value, empties the memories, keeps the fuses and drives SAFE_STATE high and FAULT_N and HEARTBEAT low; its release samples the straps, starts the Timeline at 0 and SI_START. A WRST_N pulse of 1 us or more resets the core at its falling edge; its rise, or the end of the hold of 10 us, restarts kindling at HKC_START. The kindling watchdog makes a warm reset, or after three of them enters the recovery hold. -/
def Obligations.Resets : Prop :=
  (∀ (s : State), completes (exec .porstNAssert s) (fun t => (∀ a, t.reg a = resetWord a) ∧ t.mem = [] ∧ t.flags = [] ∧ t.otp =
    s.otp ∧ t.kin.porstLow = true ∧ t.pins.safeState = true ∧ t.pins.faultN = false ∧ t.pins.heartbeat = false)) ∧
  (∀ (s : State) (straps : BitVec 5), s.canonical = true → s.kin.porstLow = true → completes (exec (.porstNRelease straps) s)
    (fun t => t.now = 0 ∧ t.kin.porstLow = false ∧ t.stage = 1 ∧ t.fld Reg.GML_SYS F.GML_SYS.DEVICE = straps.toNat % 4 ∧ t.fld
    Reg.GML_SYS F.GML_SYS.COUNT = straps.toNat / 4 % 4 ∧ t.fld Reg.GML_SYS F.GML_SYS.RING = straps.toNat / 16 ∧ t.mem = s.mem ∧
    regsKept s t [Reg.GML_SYS, Reg.SYS_KIN_STATUS])) ∧
  (∀ (s : State) (lowNs : Nat), s.canonical = true → 1000 ≤ lowNs → s.kin.wrstLow = false → s.resettable = true → s.inWarmReset
    = false → s.stage ≠ 1 → s.stage ≠ 14 → completes (exec (.wrstNFall lowNs) s) (fun t => t.kin.coreReset = true ∧
    t.kin.wrstLow = true ∧ t.pins.faultN = false ∧ t.pins.safeState = true ∧ t.mem = [] ∧ t.flags = [] ∧ t.now = s.now ∧ t.otp
    = s.otp ∧ t.flag Reg.SYS_RST_CAUSE F.SYS_RST_CAUSE.WRST = true)) ∧
  (∀ (s : State), s.canonical = true → s.kin.wrstLow = true → s.inWarmReset = true → s.resettable = true → s.kin.holdDue = none
    → s.fld Reg.SYS_KIN_STATUS F.SYS_KIN_STATUS.WARM_COUNT < 4 → completes (exec .wrstNRise s) (fun t => t.kin.wrstLow = false
    ∧ t.kin.coreReset = false ∧ t.stage = 2 ∧ t.kin.hkcStartAt = s.now ∧ t.mem = s.mem)) ∧
  (∀ (s : State) (d : Nat), s.canonical = true → s.kin.holdDue = some d → s.inWarmReset = true → s.kin.wrstLow = false → s.fld
    Reg.SYS_KIN_STATUS F.SYS_KIN_STATUS.WARM_COUNT < 4 → completes (exec .warmResetHoldEnd s) (fun t => t.kin.coreReset = false
    ∧ t.kin.holdDue = none ∧ t.stage = 2 ∧ t.now = max s.now d ∧ t.kin.hkcStartAt = max s.now d ∧ t.mem = s.mem)) ∧
  (∀ (s : State), s.canonical = true → s.resettable = true → (2 ≤ s.stage ∧ s.stage ≤ 10) → completes (exec
    .kindlingWatchdogExpiry s) (fun t => t.now = max s.now (s.kin.hkcStartAt + 3000000000) ∧ (s.fld Reg.SYS_KIN_STATUS
    F.SYS_KIN_STATUS.WARM_COUNT < 3 → t.kin.coreReset = true ∧ t.kin.holdDue = some (t.now + 10000) ∧ t.flag Reg.SYS_RST_CAUSE
    F.SYS_RST_CAUSE.WDT = true) ∧ (3 ≤ s.fld Reg.SYS_KIN_STATUS F.SYS_KIN_STATUS.WARM_COUNT → t.stage = 14 ∧ t.fld
    Reg.SYS_KIN_STATUS F.SYS_KIN_STATUS.FAIL_CODE = 0x0C) ∧ t.mem = [] ∧ t.pins.faultN = false ∧ t.pins.safeState = true))

/-- A passed Island self-test starts HEARTBEAT and HKC_START with EJ_BOOT one higher; a failed one is remembered. The HKC check passes to IMAGE or holds the core. IMAGE_SELECT keeps the regions that pass the tests of R49, or fails. BIST_DONE ends BIST unless a part without which the device cannot start has failed (code 7). A trained channel shows its capacity; a failed one is fenced. -/
def Obligations.KindlingToLoad : Prop :=
  (∀ (s : State) (pass : Bool), s.canonical = true → s.stage = 1 → s.kin.siFailed = false → s.kin.wrstLow = false → completes
    (exec (.siSelfTestDone pass) s) (fun t => (pass = true → t.pins.heartbeat = true ∧ t.stage = 2 ∧ t.kin.coreReset = false ∧
    t.kin.hkcStartAt = s.now ∧ t.reg Reg.EJ_BOOT = s.reg Reg.EJ_BOOT + 1) ∧ (pass = false → t.kin.siFailed = true ∧ t.stage = 1
    ∧ t.pins = s.pins ∧ regsKept s t []) ∧ t.mem = s.mem)) ∧
  (∀ (s : State) (pass : Bool), s.canonical = true → s.stage = 2 → s.kin.hkcFailed = false → completes (exec
    (.hkcSignatureCheck pass) s) (fun t => (pass = true → t.stage = 3) ∧ (pass = false → t.kin.hkcFailed = true ∧
    t.kin.coreReset = true ∧ t.fld Reg.SYS_KIN_STATUS F.SYS_KIN_STATUS.FAIL_CODE = 7) ∧ regsKept s t [Reg.SYS_KIN_STATUS] ∧
    t.mem = s.mem)) ∧
  (∀ (s : State) (answers : BitVec 2) (size : Nat), s.canonical = true → s.stage = 3 → completes (exec (.imageSelect answers
    size) s) (fun t => (answers = 0 → t.stage = 13 ∧ t.fld Reg.SYS_KIN_STATUS F.SYS_KIN_STATUS.FAIL_CODE = 0x0B) ∧ (answers ≠ 0
    → let u : State :=
    { s with flash := { s.flash with present0 := answers.getLsbD 0, present1 := answers.getLsbD 1, size := size } }; t.stage =
    4 ∧ t.kin.candidates ≠ [] ∧ (∀ r, r ∈ t.kin.candidates ↔ r < 2 ∧ u.regionTest r = none) ∨ t.stage = 13 ∧ u.regionTest 0 ≠
    none ∧ u.regionTest 1 ≠ none))) ∧
  (∀ (s : State) (units : List Half) (others : List BistOther), s.canonical = true → (4 ≤ s.stage ∧ s.stage ≤ 6) →
    s.kin.bistDone = false → completes (exec (.bistDone units others) s) (fun t => (bistFatal (((units.map (·.toNat)).filter
    knownUnit).eraseDups) others = true → t.stage = 13 ∧ t.fld Reg.SYS_KIN_STATUS F.SYS_KIN_STATUS.FAIL_CODE = 7) ∧ (t.stage ≠
    13 → t.kin.bistDone = true ∧ (BistOther.journal ∈ others → t.journal.fenced = true) ∧ (BistOther.journal ∉ others →
    t.journal.started = true)))) ∧
  (∀ (s : State) (ch : Fin 4) (pass : Bool) (mib : Half), s.canonical = true → s.stage = 4 → ch.val ∉ s.kin.trainedCh ++
    s.kin.fencedCh → completes (exec (.lpddrTrainDone ch pass mib) s) (fun t => (pass = true → t.stage = 13 ∨ ch.val ∈
    t.kin.trainedCh ∧ t.fld (Reg.MC_STATUS ch.val) F.MC_STATUS.STATE = 2 ∧ t.fld (Reg.MC_STATUS ch.val)
    F.MC_STATUS.CAPACITY_MIB = mib.toNat) ∧ (pass = false → t.stage = 13 ∨ ch.val ∈ t.kin.fencedCh)))

/-- LOAD streams the candidate one section at a time: a good one is stored in its range, an unlisted one is skipped, a required one that fails refuses the candidate. CHECK boots the candidate or tries the next. FIRMWARE and BIND pass to the next stage. VERIFY ends in READY with SAFE_STATE released unless a severe fault is present, or after its 500 ms in FAILED with code 0x0A. -/
def Obligations.KindlingToReady : Prop :=
  (∀ (s : State) (r : Nat) (rest : List Nat) (e : SecEnt), s.canonical = true → s.kin.candidates = r :: rest → s.stage = 5 →
    s.kin.loadDone = false → s.kin.nextSection ≠ 0 → (s.flash.sections r)[s.kin.nextSection]? = some e → completes (exec
    .sectionLoaded s) (fun t => (listedType e.type = true → s.flash.secOk s.otp r e = true → t.kin.nextSection =
    s.kin.nextSection + 1 ∧ (loadsToLpddr e.type = true → t.mem = Memory.putBytes s.mem e.load (s.flash.plain s.otp r e))) ∧
    (listedType e.type = false → t.kin.nextSection = s.kin.nextSection + 1 ∧ t.mem = s.mem ∧ (r, e.pos) ∈ t.flash.skipped) ∧
    (listedType e.type = true → s.flash.secOk s.otp r e = false → e.required = true → rest = [] → t.stage = 13 ∧ t.fld
    Reg.SYS_KIN_STATUS F.SYS_KIN_STATUS.FAIL_CODE = 5))) ∧
  (∀ (s : State) (r : Nat) (rest : List Nat), s.canonical = true → s.kin.candidates = r :: rest → s.stage = 6 → s.kin.loadDone
    = true → s.kin.checkDone = false → completes (exec .checkStage s) (fun t => (s.flash.tableChecks r s.checkEnv = true →
    t.kin.booted = some r ∧ t.kin.checkDone = true ∧ t.reg Reg.SYS_IMG_GEN = s.flash.generation r) ∧ (s.flash.tableChecks r
    s.checkEnv = false → rest = [] → t.stage = 13 ∧ t.fld Reg.SYS_KIN_STATUS F.SYS_KIN_STATUS.FAIL_CODE = 6) ∧
    (s.flash.tableChecks r s.checkEnv = false → rest ≠ [] → t.stage = 5 ∧ t.kin.candidates = rest ∧ t.kin.nextSection = 0 ∧
    t.kin.tried = s.kin.tried + 1))) ∧
  (∀ (s : State), s.canonical = true → s.stage = 7 → completes (exec .firmwareStage s) (fun t => t.stage = 8 ∧
    t.kin.firmwareDone = true ∧ t.patterns = List.replicate 4 (s.flash.secBytes s.imgRegion 0x0D 0) ∧ t.kin.seqs.length = 4)) ∧
  (∀ (s : State), s.canonical = true → s.stage = 8 → (s.kin.seqs.all (fun r => r.profiles.isEmpty) = true) → completes (exec
    .bindStage s) (fun t => (s.baseAbsent = true → t.stage = 13 ∧ t.fld Reg.SYS_KIN_STATUS F.SYS_KIN_STATUS.FAIL_CODE = 9) ∧
    (s.baseAbsent = false → s.bootScene? = none → t.stage = 13 ∧ t.fld Reg.SYS_KIN_STATUS F.SYS_KIN_STATUS.FAIL_CODE = 7) ∧
    (s.baseAbsent = false → s.bootScene? ≠ none → t.stage = 10 ∧ t.kin.bindDone = true ∧ t.kin.verifyDue = some (s.now +
    500000000) ∧ t.now = s.now))) ∧
  (∀ (s : State), s.canonical = true → s.stage = 10 → s.verifyMet = true → completes (exec .verifyPass s) (fun t =>
    t.kin.everReady = true ∧ t.kin.verifyDue = none ∧ (s.severePresent = false → t.pins.faultN = true ∧ t.pins.safeState =
    false) ∧ (s.severePresent = true → t.pins.faultN = s.pins.faultN ∧ t.pins.safeState = s.pins.safeState) ∧ s.otp.rollback ≤
    t.otp.rollback ∧ t.mem = s.mem ∧ t.kin.booted = s.kin.booted)) ∧
  (∀ (s : State) (d : Nat), s.canonical = true → s.kin.verifyDue = some d → s.stage = 10 → s.verifyMet = false → completes
    (exec .verifyTimeout s) (fun t => t.stage = 13 ∧ t.fld Reg.SYS_KIN_STATUS F.SYS_KIN_STATUS.FAIL_CODE = 0x0A ∧
    t.kin.coreReset = true ∧ t.now = max s.now d ∧ t.reg Reg.SYS_KIN_TIME = w32 ((t.now - s.kin.releasedAt) / 1000)))

/-- An acknowledged write, a read that matches, a wait, a poll that matches, a GPIO level and an FSYNC enable each take the controller to its next operation; END takes it to its next profile. A first failure runs the sequence again 100 ms later; after a second one the controller goes on with its next profile and the streams of the sensor are absent. -/
def Obligations.SensorSequences : Prop :=
  (∀ (s : State) (bus : Fin 4) (ack : Bool) (r : SeqRun) (p : SensorRec) (o : List Byte), s.seqAt bus.val 1 = some (r, p, o) →
    completes (exec (.seqWrite bus ack) s) (fun t => (ack = true → (t.seqRun bus.val).op = r.op + 1 ∧ (t.seqRun
    bus.val).profiles = r.profiles) ∧ (ack = false → r.retried = false → (t.seqRun bus.val).op = 0 ∧ (t.seqRun bus.val).retried
    = true ∧ (t.seqRun bus.val).retryDue = some (s.now + 100000000)) ∧ (ack = false → r.retried = true → p.id < 0x100 →
    (t.seqRun bus.val).profiles = r.profiles.drop 1 ∧ ∀ q, q ∈ s.flash.usedStreams s.imgRegion → q.sensor = p.id → q.stream ∈
    t.kin.absentStreams) ∧ t.now = s.now ∧ t.mem = s.mem)) ∧
  (∀ (s : State) (bus : Fin 4) (ack : Bool) (value : Word) (r : SeqRun) (p : SensorRec) (o : List Byte), s.seqAt bus.val 2 =
    some (r, p, o) → completes (exec (.seqReadExpect bus ack value) s) (fun t => (ack = true → value.toNat % 256 ^ opLen o =
    leAt o 4 (opLen o) → (t.seqRun bus.val).op = r.op + 1 ∧ (t.seqRun bus.val).profiles = r.profiles) ∧ (ack = false ∨
    value.toNat % 256 ^ opLen o ≠ leAt o 4 (opLen o) → r.retried = false → (t.seqRun bus.val).op = 0 ∧ (t.seqRun
    bus.val).retried = true ∧ (t.seqRun bus.val).retryDue = some (s.now + 100000000)) ∧ (ack = false ∨ value.toNat % 256 ^
    opLen o ≠ leAt o 4 (opLen o) → r.retried = true → p.id < 0x100 → (t.seqRun bus.val).profiles = r.profiles.drop 1 ∧ ∀ q, q ∈
    s.flash.usedStreams s.imgRegion → q.sensor = p.id → q.stream ∈ t.kin.absentStreams) ∧ t.now = s.now ∧ t.mem = s.mem)) ∧
  (∀ (s : State) (bus : Fin 4) (r : SeqRun) (p : SensorRec) (o : List Byte), s.seqAt bus.val 3 = some (r, p, o) → completes
    (exec (.seqWait bus) s) (fun t => (t.seqRun bus.val).op = r.op + 1 ∧ (t.seqRun bus.val).profiles = r.profiles ∧ t.now = max
    s.now (r.waitDue.getD (s.now + leAt o 4 4 * 1000)) ∧ t.mem = s.mem ∧ regsKept s t [])) ∧
  (∀ (s : State) (bus : Fin 4) (ack : Bool) (value : Half) (r : SeqRun) (p : SensorRec) (o : List Byte), s.seqAt bus.val 4 =
    some (r, p, o) → completes (exec (.seqPoll bus ack value) s) (fun t => (ack = true → value &&& BitVec.ofNat 16 (leAt o 6 2)
    = BitVec.ofNat 16 (leAt o 4 2) &&& BitVec.ofNat 16 (leAt o 6 2) → (t.seqRun bus.val).op = r.op + 1 ∧ (t.seqRun
    bus.val).profiles = r.profiles) ∧ (ack = true → value &&& BitVec.ofNat 16 (leAt o 6 2) ≠ BitVec.ofNat 16 (leAt o 4 2) &&&
    BitVec.ofNat 16 (leAt o 6 2) → r.waitDue.getD s.now + 100000 ≤ r.pollFrom.getD (r.waitDue.getD s.now) + 10000000 →
    (t.seqRun bus.val).op = r.op ∧ (t.seqRun bus.val).waitDue = some (r.waitDue.getD s.now + 100000)) ∧ (ack = false →
    r.retried = false → (t.seqRun bus.val).op = 0 ∧ (t.seqRun bus.val).retried = true ∧ (t.seqRun bus.val).retryDue = some
    (t.now + 100000000)) ∧ (ack = false → r.retried = true → p.id < 0x100 → (t.seqRun bus.val).profiles = r.profiles.drop 1 ∧ ∀
    q, q ∈ s.flash.usedStreams s.imgRegion → q.sensor = p.id → q.stream ∈ t.kin.absentStreams) ∧ t.now = max s.now
    (r.waitDue.getD s.now) ∧ t.mem = s.mem)) ∧
  (∀ (s : State) (bus : Fin 4) (r : SeqRun) (p : SensorRec) (o : List Byte), s.seqAt bus.val 5 = some (r, p, o) → completes
    (exec (.seqGpio bus) s) (fun t => (t.seqRun bus.val).op = r.op + 1 ∧ (t.seqRun bus.val).profiles = r.profiles ∧ ((s.gpioRec
    (leAt o 1 1)).function = 3 → leAt o 1 1 < 32 → t.pins.gpioDriven.getLsbD (leAt o 1 1) = true ∧ t.pins.gpio.getLsbD (leAt o
    1 1) = decide (leAt o 4 1 % 2 = 1)) ∧ t.now = s.now ∧ t.mem = s.mem ∧ regsKept s t [])) ∧
  (∀ (s : State) (bus : Fin 4) (r : SeqRun) (p : SensorRec) (o : List Byte), s.seqAt bus.val 6 = some (r, p, o) → completes
    (exec (.seqFsyncEnable bus) s) (fun t => (t.seqRun bus.val).op = r.op + 1 ∧ (t.seqRun bus.val).profiles = r.profiles ∧ (∀
    f, t.cam.fsync[leAt o 1 1]? = some f → f.enabled = true) ∧ t.now = s.now ∧ t.mem = s.mem ∧ regsKept s t [])) ∧
  (∀ (s : State) (bus : Fin 4) (r : SeqRun) (p : SensorRec) (o : List Byte), s.seqAt bus.val 0 = some (r, p, o) → completes
    (exec (.seqEnd bus) s) (fun t => (t.seqRun bus.val).profiles = r.profiles.drop 1 ∧ (t.seqRun bus.val).op = 0 ∧ t.now =
    s.now ∧ t.mem = s.mem ∧ regsKept s t [])) ∧
  (∀ (s : State) (bus : Fin 4) (d : Nat), (s.seqRun bus.val).retryDue = some d → completes (exec (.sensorRetryTimer bus) s)
    (fun t => (t.seqRun bus.val).retryDue = none ∧ (t.seqRun bus.val).op = (s.seqRun bus.val).op ∧ t.now = max s.now d ∧ t.mem
    = s.mem ∧ regsKept s t []))

/-- An erase or program command that addresses the booted region changes no byte of the flash. Any other erase leaves 0xFF in its range, and a program clears bits in its range. A finished reload has the section in its load range again and waits no longer. -/
def Obligations.FlashAndReload : Prop :=
  (∀ (s : State) (cs : Fin 2) (opcode : Byte) (addr : Word) (op : NvmOp), risingFrom 0 s.flash.dev0 = true → risingFrom 0
    s.flash.dev1 = true → completes (exec (.nvmEraseProgramCommand cs opcode addr op) s) (fun t => (s.hitsBooted cs.val
    addr.toNat (nvmLen op) = true → t.flash = s.flash) ∧ (s.hitsBooted cs.val addr.toNat (nvmLen op) = false → ∀ n, op = .erase
    n → ∀ x, t.flash.byte cs.val x = if addr.toNat ≤ x ∧ x < addr.toNat + n then 0xFF else s.flash.byte cs.val x) ∧
    (s.hitsBooted cs.val addr.toNat (nvmLen op) = false → ∀ d, op = .program d → ∀ x, t.flash.byte cs.val x = if addr.toNat ≤ x
    ∧ x < addr.toNat + d.length then s.flash.byte cs.val x &&& d.getD (x - addr.toNat) 0 else s.flash.byte cs.val x) ∧ t.mem =
    s.mem ∧ t.otp = s.otp)) ∧
  (∀ (s : State) (pos : Fin 1024) (e : SecEnt), ((s.flash.live s.imgRegion).find? (fun x => x.pos == pos.val) = some e) → e.pos
    ∈ s.mm.reloads → (s.mm.cinder.any (fun c => overlap c.base c.size e.load e.size) = false) → isRemote e.load = false →
    completes (exec (.sectionReloadDone pos) s) (fun t => e.pos ∉ t.mm.reloads ∧ (e.type ≠ 6 → t.mem = Memory.putBytes s.mem
    e.load (s.flash.plain s.otp s.imgRegion e)) ∧ t.otp = s.otp ∧ t.flash = s.flash))

/-- HELLO answers with a fresh challenge of 32 bytes and closes a session that has been idle for 60 s; a session still in use answers BUSY. An accepted OPEN has the session key of both ephemeral keys and the challenge; a refused one opens nothing. CLOSE and 60 s without a request end the session. The challenge, the ephemeral key and the identifier are free values (log entry 37). -/
def Obligations.ServiceSessions : Prop :=
  (∀ (s : State) (ifc : Fin 3) (q : SvcReq) (rest : List SvcReq), (s.svc ifc.val).requests = q :: rest → q.1 = 0x01 → s.serves
    0x01 = true → let u := s.modSvc ifc.val (fun v => { v with requests := rest }); completes (exec (.hello ifc) s) (fun t =>
    (s.sessionFresh ifc.val = true → t = u.answer ifc.val q svcBusy []) ∧ (s.sessionFresh ifc.val = false → ∃ c : List Byte,
    c.length = 32 ∧ (t.svc ifc.val).challenge = some c ∧ (t.svc ifc.val).session = none ∧ (ifc.val = 2 → q.2.2.1 = false →
    (t.svc 2).response = some (svcResponse 1 svcOk 0 0 (c ++ leBytes 4 (s.reg Reg.SYS_ID).toNat)))) ∧ (t.svc ifc.val).requests
    = rest ∧ t.mem = s.mem)) ∧
  (∀ (s : State) (ifc : Fin 3) (q : SvcReq) (rest : List SvcReq), (s.svc ifc.val).requests = q :: rest → q.1 = 0x02 → s.serves
    0x02 = true → let u := s.modSvc ifc.val (fun v => { v with requests := rest }); completes (exec (.serviceOpen ifc) s) (fun
    t => (∀ c pt, (s.svc ifc.val).challenge = some c → ecPoint (q.2.1.take 64) = some pt → q.2.1.length = 192 → s.toolKey
    ((q.2.1.drop 64).take 64) = true → ecdsaVerify ((q.2.1.drop 64).take 64) (sha256 (c ++ q.2.1.take 64)) (q.2.1.drop 128) =
    true → ∃ d id : Nat, 1 ≤ d ∧ d < p256N ∧ 1 ≤ id ∧ id < 2 ^ 64 ∧ (t.svc ifc.val).session = some (id, sha256 ((ecBytes (ecMul
    256 d (some pt))).take 32 ++ c ++ q.2.1.take 64 ++ ecBytes (ecMul 256 d p256G))) ∧ (t.svc ifc.val).challenge = none ∧
    (t.svc ifc.val).rxCounter = none ∧ (t.svc ifc.val).fails = 0 ∧ (t.svc ifc.val).lastReq = s.now) ∧ (((s.svc
    ifc.val).challenge = none ∨ ecPoint (q.2.1.take 64) = none ∨ q.2.1.length ≠ 192) → (t.svc ifc.val).challenge = (s.svc
    ifc.val).challenge ∧ ((t.svc ifc.val).session = (s.svc ifc.val).session ∨ (t.svc ifc.val).session = none)) ∧ (t.svc
    ifc.val).requests = rest ∧ t.mem = s.mem)) ∧
  (∀ (s : State) (ifc : Fin 3) (q : SvcReq) (rest : List SvcReq), (s.svc ifc.val).requests = q :: rest → q.1 = 0x03 → s.serves
    0x03 = true → let u := s.modSvc ifc.val (fun v => { v with requests := rest }); completes (exec (.serviceClose ifc) s) (fun
    t => (t.svc ifc.val).session = none ∧ (t.svc ifc.val).requests = rest ∧ t.mem = s.mem)) ∧
  (∀ (s : State) (ifc : Fin 3), (s.svc ifc.val).session ≠ none → completes (exec (.sessionIdleTimeout ifc) s) (fun t => (t.svc
    ifc.val).session = none ∧ t.now = max s.now ((s.svc ifc.val).lastReq + 60000000000) ∧ regsKept s t [] ∧ t.mem = s.mem))

/-- STATUS answers with the status mirror, READ_REG with the registers asked for or RANGE, JOURNAL_READ with the records held from a sequence on or RANGE. SCENE_REQUEST answers BUSY during a switch or the dwell, NO_SCENE for a number that is no full scene, and OK otherwise. Each is answered to its requester. -/
def Obligations.ServiceReads : Prop :=
  (∀ (s : State) (ifc : Fin 3) (q : SvcReq) (rest : List SvcReq), (s.svc ifc.val).requests = q :: rest → q.1 = 0x10 → s.serves
    0x10 = true → let u := s.modSvc ifc.val (fun v => { v with requests := rest }); completes (exec (.serviceStatus ifc) s)
    (fun t => t = u.answer ifc.val q svcOk s.io.mirror)) ∧
  (∀ (s : State) (ifc : Fin 3) (q : SvcReq) (rest : List SvcReq), (s.svc ifc.val).requests = q :: rest → q.1 = 0x11 → s.serves
    0x11 = true → let u := s.modSvc ifc.val (fun v => { v with requests := rest }); completes (exec (.readReg ifc) s) (fun t =>
    (q.2.1.length ≠ 5 ∨ leAt q.2.1 0 4 % 4 ≠ 0 ∨ leAt q.2.1 4 1 = 0 ∨ 64 < leAt q.2.1 4 1 ∨ (∃ i, i < leAt q.2.1 4 1 ∧ readable
    (leAt q.2.1 0 4 + 4 * i) = false) → t = u.answer ifc.val q svcRange []) ∧ (q.2.1.length = 5 → leAt q.2.1 0 4 % 4 = 0 → leAt
    q.2.1 4 1 ≠ 0 → leAt q.2.1 4 1 ≤ 64 → (∀ i, i < leAt q.2.1 4 1 → readable (leAt q.2.1 0 4 + 4 * i) = true) → t = u.answer
    ifc.val q svcOk ((List.range (leAt q.2.1 4 1)).flatMap (fun i => leBytes 4 (u.peekReg 4 (leAt q.2.1 0 4 + 4 * i)
    true).toNat))))) ∧
  (∀ (s : State) (ifc : Fin 3) (q : SvcReq) (rest : List SvcReq), (s.svc ifc.val).requests = q :: rest → q.1 = 0x12 → s.serves
    0x12 = true → let u := s.modSvc ifc.val (fun v => { v with requests := rest }); completes (exec (.journalRead ifc) s) (fun
    t => (q.2.1.length ≠ 5 ∨ leAt q.2.1 4 1 = 0 ∨ 40 < leAt q.2.1 4 1 → t = u.answer ifc.val q svcRange []) ∧ (q.2.1.length = 5
    → leAt q.2.1 4 1 ≠ 0 → leAt q.2.1 4 1 ≤ 40 → t = u.answer ifc.val q svcOk (leBytes 4 (s.journalPart (w32 (leAt q.2.1 0 4))
    (leAt q.2.1 4 1)).1.toNat ++ (s.journalPart (w32 (leAt q.2.1 0 4)) (leAt q.2.1 4 1)).2.flatMap JRec.bytes)))) ∧
  (∀ (s : State) (ifc : Fin 3) (q : SvcReq) (rest : List SvcReq), (s.svc ifc.val).requests = q :: rest → q.1 = 0x20 → s.serves
    0x20 = true → let u := s.modSvc ifc.val (fun v => { v with requests := rest }); completes (exec (.sceneRequest ifc) s) (fun
    t => (s.scene.switch ≠ none ∨ s.dwelling = true → t = u.answer ifc.val q svcBusy []) ∧ (s.scene.switch = none → s.dwelling
    = false → (s.sceneRec? (leAt q.2.1 0 1)).all (fun c => c.bankedOf.isSome) = true → t = u.answer ifc.val q svcNoScene []) ∧
    (s.scene.switch = none → s.dwelling = false → (s.sceneRec? (leAt q.2.1 0 1)).any (fun c => c.bankedOf.isNone) = true →
    (s.choose (leAt q.2.1 0 1)).all (fun m => m == s.sceneNo) = true → t = u.answer ifc.val q svcOk []) ∧ (∀ m, s.scene.switch
    = none → s.dwelling = false → (s.sceneRec? (leAt q.2.1 0 1)).any (fun c => c.bankedOf.isNone) = true → s.choose (leAt q.2.1
    0 1) = some m → m ≠ s.sceneNo → t = (u.accept m 5 none []).answer ifc.val q svcOk [])))

/-- READ_MIRROR reads the mirror from an address and wraps at 64. A message written while a response waits is discarded and counted, as is one shorter than a header; a STATUS without session waits to be served. READ_MSG takes the waiting response, or reads OP 0x00. A refresh rewrites the mirror 1 ms after the one before, with its CRC. -/
def Obligations.SupervisorPort : Prop :=
  (∀ (s : State) (start : Byte) (len : Byte), s.supUp = true → completes (exec (.readMirror start len) s) (fun t =>
    t.io.miso.length = len.toNat ∧ (∀ i, i < len.toNat → t.io.miso.getD i 0 = s.io.mirror.getD ((start.toNat + i) % 64) 0) ∧
    regsKept s t [] ∧ t.mem = s.mem ∧ t.io.mirror = s.io.mirror)) ∧
  (∀ (s : State) (data : List Byte), s.canonical = true → s.supUp = true → s.io.stage.open' = false → completes (exec
    (.writeMsg data) s) (fun t => ((s.svc 2).response ≠ none ∨ (s.svc 2).requests ≠ [] → t.fld Reg.SUP_CNT F.SUP_CNT.DISCARDED
    = min (s.fld Reg.SUP_CNT F.SUP_CNT.DISCARDED + 1) (2 ^ (F.SUP_CNT.DISCARDED.hi + 1 - F.SUP_CNT.DISCARDED.lo) - 1) ∧ t.io =
    s.io) ∧ ((s.svc 2).response = none → (s.svc 2).requests = [] → data.length < 32 → t.fld Reg.SUP_CNT F.SUP_CNT.DISCARDED =
    min (s.fld Reg.SUP_CNT F.SUP_CNT.DISCARDED + 1) (2 ^ (F.SUP_CNT.DISCARDED.hi + 1 - F.SUP_CNT.DISCARDED.lo) - 1) ∧ t.io =
    s.io) ∧ ((s.svc 2).response = none → (s.svc 2).requests = [] → s.io.svc.length = 3 → leAt data 0 1 = 0x10 → leAt data 1 1 =
    0 → leAt data 8 8 = 0 → data.length = 32 + leAt data 2 2 → (t.svc 2).requests = [(0x10, (data.drop 32).take (leAt data 2
    2), false, ⟨[], [], 0⟩)]) ∧ t.mem = s.mem)) ∧
  (∀ (s : State), s.supUp = true → completes (exec .readMsg s) (fun t => t.io.miso = ((s.svc 2).response).getD [0] ∧ (t.svc
    2).response = none ∧ regsKept s t [] ∧ t.mem = s.mem)) ∧
  (∀ (s : State), s.supUp = true → completes (exec .mirrorRefresh s) (fun t => t.now = max s.now (leAt s.io.mirror 0x20 8 +
    1000000) ∧ t.io.refreshes = s.io.refreshes + 1 ∧ t.io.mirror.length = 64 ∧ t.io.mirror.drop 60 = leBytes 4 (crc32c
    (t.io.mirror.take 60)) ∧ leAt t.io.mirror 0x20 8 = t.now % 2 ^ 64 ∧ regsKept s t [] ∧ t.mem = s.mem))

/-- BEGIN opens the session and erases the commit sector first; a size beyond the region answers RANGE and an open session BUSY. A chunk that fits is programmed into the alternate region and counted. END has the region checked; only when every check passes is the commit sector programmed. 60 s without a chunk abort the session. -/
def Obligations.Staging : Prop :=
  (∀ (s : State) (ifc : Fin 3) (q : SvcReq) (rest : List SvcReq), (s.svc ifc.val).requests = q :: rest → q.1 = 0x30 → s.serves
    0x30 = true → s.canonical = true → let u := s.modSvc ifc.val (fun v => { v with requests := rest }); completes (exec
    (.stageBegin ifc) s) (fun t => (s.io.stage.open' = true → t = u.answer ifc.val q svcBusy []) ∧ (s.io.stage.open' = false →
    s.flash.regionSize - 4096 < leAt q.2.1 4 4 → t = u.answer ifc.val q svcRange []) ∧ (s.io.stage.open' = false → leAt q.2.1 4
    4 ≤ s.flash.regionSize - 4096 → t.io.stage.open' = true ∧ t.io.stage.erasing = true ∧ t.io.stage.size = leAt q.2.1 4 4 ∧
    t.io.stage.received = 0 ∧ t.reg Reg.SYS_STAGE_GEN = w32 (leAt q.2.1 0 4) ∧ t.fld Reg.SYS_STAGE_STATUS
    F.SYS_STAGE_STATUS.STATE = 1 ∧ t.flash = s.flash.erase (s.flash.region s.altRegion).1 (s.flash.region s.altRegion).2 4096)
    ∧ t.mem = s.mem)) ∧
  (∀ (s : State), s.io.stage.open' = true → s.io.stage.erasing = true → completes (exec .stageEraseDone s) (fun t =>
    t.io.stage.erasing = false ∧ t.flash = s.flash.erase (s.flash.region s.altRegion).1 ((s.flash.region s.altRegion).2 + 4096)
    (blockUp s.io.stage.size) ∧ t.mem = s.mem)) ∧
  (∀ (s : State) (ifc : Fin 3) (q : SvcReq) (rest : List SvcReq), (s.svc ifc.val).requests = q :: rest → q.1 = 0x31 → s.serves
    0x31 = true → s.io.stage.open' = true → s.io.stage.busy = false → let u := s.modSvc ifc.val (fun v =>
    { v with requests := rest }); completes (exec (.stageChunk ifc) s) (fun t => (q.2.1.length ≤ 4 ∨ (if ifc.val < 2 then 1024
    else 4096) < (q.2.1.drop 4).length ∨ s.io.stage.size < leAt q.2.1 0 4 + (q.2.1.drop 4).length ∨ s.io.stage.runs.any (fun r
    => overlap r.1 (r.2 - r.1) (leAt q.2.1 0 4) (q.2.1.drop 4).length) = true → t = u.answer ifc.val q svcRange []) ∧ (4 <
    q.2.1.length → (q.2.1.drop 4).length ≤ (if ifc.val < 2 then 1024 else 4096) → leAt q.2.1 0 4 + (q.2.1.drop 4).length ≤
    s.io.stage.size → s.io.stage.runs.any (fun r => overlap r.1 (r.2 - r.1) (leAt q.2.1 0 4) (q.2.1.drop 4).length) = false →
    t.io.stage.programming = some (leAt q.2.1 0 4, q.2.1.drop 4) ∧ t.io.stage.lastAt = s.now) ∧ t.mem = s.mem ∧ t.flash =
    s.flash)) ∧
  (∀ (s : State) (off : Nat) (data : List Byte), s.io.stage.programming = some (off, data) → completes (exec
    .stageChunkProgrammed s) (fun t => t.io.stage.programming = none ∧ t.io.stage.received = s.io.stage.received + data.length
    ∧ (off, off + data.length) ∈ t.io.stage.runs ∧ t.flash = s.flash.program (s.flash.region s.altRegion).1 ((s.flash.region
    s.altRegion).2 + 4096 + off) data ∧ t.mem = s.mem)) ∧
  (∀ (s : State) (ifc : Fin 3) (q : SvcReq) (rest : List SvcReq), (s.svc ifc.val).requests = q :: rest → q.1 = 0x32 → s.serves
    0x32 = true → s.canonical = true → s.io.stage.open' = true → s.io.stage.busy = false → let u := s.modSvc ifc.val (fun v =>
    { v with requests := rest }); completes (exec (.stageEnd ifc) s) (fun t => t.io.stage.verifying = true ∧ t.fld
    Reg.SYS_STAGE_STATUS F.SYS_STAGE_STATUS.STATE = 2 ∧ t.flash = s.flash ∧ t.mem = s.mem)) ∧
  (∀ (s : State), s.canonical = true → s.io.stage.open' = true → s.io.stage.verifying = true → completes (exec .stageVerifyDone
    s) (fun t => t.io.stage.open' = false ∧ (s.stageCode (s.flash.program (s.flash.region s.altRegion).1 (s.flash.region
    s.altRegion).2 (commitSector (s.flash.generation s.altRegion))) s.altRegion = 0 → t.flash = s.flash.program (s.flash.region
    s.altRegion).1 (s.flash.region s.altRegion).2 (commitSector (s.flash.generation s.altRegion)) ∧ t.fld Reg.SYS_STAGE_STATUS
    F.SYS_STAGE_STATUS.STATE = 3 ∧ (s.stage = 14 → t.kin.committedInHold = true)) ∧ (s.stageCode (s.flash.program
    (s.flash.region s.altRegion).1 (s.flash.region s.altRegion).2 (commitSector (s.flash.generation s.altRegion))) s.altRegion
    ≠ 0 → t.flash = s.flash ∧ t.fld Reg.SYS_STAGE_STATUS F.SYS_STAGE_STATUS.STATE = 4) ∧ t.mem = s.mem)) ∧
  (∀ (s : State) (ifc : Fin 3) (q : SvcReq) (rest : List SvcReq), (s.svc ifc.val).requests = q :: rest → q.1 = 0x33 → s.serves
    0x33 = true → let u := s.modSvc ifc.val (fun v => { v with requests := rest }); completes (exec (.stageStatus ifc) s) (fun
    t => t = u.answer ifc.val q svcOk (leBytes 4 (s.reg Reg.SYS_STAGE_STATUS).toNat))) ∧
  (∀ (s : State), s.canonical = true → s.io.stage.open' = true → s.io.stage.busy = false → completes (exec .stageIdleTimeout s)
    (fun t => t.io.stage.open' = false ∧ t.now = max s.now (s.io.stage.lastAt + 60000000000) ∧ t.fld Reg.SYS_STAGE_STATUS
    F.SYS_STAGE_STATUS.STATE = 5 ∧ t.flash = s.flash ∧ t.mem = s.mem))

/-- At the drain limit the steps still running for an outgoing layer are cancelled; CINDER takes an outgoing layer without users out of the sequencer and records it; BIND adds an incoming layer whose resources are free; OPEN of a complete switch makes the target the current scene, starts the dwell of 250 ms and shows the switch in SYS_SCENE_LAST; the dwell ends. -/
def Obligations.SceneSwitch : Prop :=
  (∀ (s : State) (sw : Switch), s.scene.switch = some sw → sw.drainDue ≠ 0 → completes (exec .switchDrainKill s) (fun t =>
    t.now = max s.now sw.drainDue ∧ t.scene.switch = some { sw with drainDue := 0 } ∧ t.mem = s.mem ∧ t = (((sw.outgoing.filter
    (fun i => !sw.cindered.contains i)).flatMap (s.reach sw.drainDue).layerInsts).foldl State.killOne (s.reach
    sw.drainDue)).modSwitch (fun w => { w with drainDue := 0 }))) ∧
  (∀ (s : State) (layer : Half) (sw : Switch) (l : BoundLayer), s.scene.switch = some sw → (s.scene.layers.find? (fun x =>
    x.rc.id == layer.toNat && x.outgoing) = some l) → layer.toNat ∈ sw.outgoing → layer.toNat ∉ sw.cindered → ((s.layerInsts
    layer.toNat).all (fun i => i.st == .cancelled && !i.stopping) = true) → completes (exec (.switchCinder layer) s) (fun t =>
    t.scene.switch = some { sw with cindered := sw.cindered ++ [layer.toNat] } ∧ (∀ x, x ∈ t.scene.layers → x.outgoing = true →
    x.rc.id ≠ layer.toNat) ∧ (∀ n, n ∈ t.fgs.nodes → n.layer ≠ layer.toNat) ∧ (∀ x, x ∈ layerRegions l.rc → s.skipsFill sw l.rc
    x = false → x.1 < x.2 → ∃ c, c ∈ t.mm.cinder ∧ c.base = x.1 ∧ c.size = x.2 - x.1) ∧ t.mem = s.mem ∧ t.flags = s.flags)) ∧
  (∀ (s : State) (layer : Half) (sw : Switch) (l : LayerRec), s.scene.switch = some sw → s.layerRec? layer.toNat = some l →
    s.mayBind sw l = true → completes (exec (.switchBind layer) s) (fun t => t.scene.switch = some
    { sw with bound := sw.bound ++ [l.id] } ∧ t.scene.layers.any (fun x => x.rc == l && !x.outgoing && !x.opened) = true ∧
    t.fgs.nodes = s.fgs.nodes ++ l.nodes.map (s.bindNode l) ∧ t.fgs.flows = s.fgs.flows ++ l.flows.map (fun f => ⟨f, l.id, 0,
    0, none⟩) ∧ t.mem = s.mem)) ∧
  (∀ (s : State) (sw : Switch), s.canonical = true → s.scene.switch = some sw → sw.complete = true → sw.target < 16 → completes
    (exec .switchOpen s) (fun t => t.sceneNo = sw.target ∧ t.flag Reg.SYS_SCENE_STATUS F.SYS_SCENE_STATUS.DWELL = true ∧
    t.scene.dwellDue = some (s.now + 250000000) ∧ t.fld Reg.SYS_SCENE_LAST F.SYS_SCENE_LAST.FROM = sw.fromScene % 256 ∧ t.fld
    Reg.SYS_SCENE_LAST F.SYS_SCENE_LAST.CAUSE = sw.cause % 256 ∧ t.mem = s.mem)) ∧
  (∀ (s : State) (d : Nat), s.canonical = true → s.scene.dwellDue = some d → completes (exec .dwellExpiry s) (fun t => t.now =
    max s.now d ∧ t.scene.dwellDue = none ∧ t.flag Reg.SYS_SCENE_STATUS F.SYS_SCENE_STATUS.DWELL = false ∧ t.sceneNo =
    s.sceneNo ∧ t.mem = s.mem))

/-- A frame with a bad FCS, for another address, or of no kind that the port takes is discarded and counted; an ARP request for the port is counted as accepted and answered. The oldest frame of the highest queue goes on the wire with the addresses and the tag of its port. Link and speed follow the transceiver. A port that serves gPTP asks for the peer delay. -/
def Obligations.EthernetPorts : Prop :=
  (∀ (s : State) (mac : Fin 2), s.ethOn mac.val = true → s.gptpPort mac.val = true → s.ethLink mac.val = true → s.io.eth.length
    = 2 → (s.io.eth.getD mac.val []).length < 64 → completes (exec (.peerDelayRequest mac) s) (fun t => (t.io.eth.getD mac.val
    []).any (fun x => x.kind == 2 && x.dmac == gptpMac && leAt x.payload 2 1 == 0x12) = true ∧ regsKept s t [] ∧ t.mem = s.mem
    ∧ t.free = s.free + 1)) ∧
  (∀ (s : State) (mac : Fin 2) (data : List Byte) (fcsOk : Bool), s.canonical = true → s.ethOn mac.val = true → s.ethLink
    mac.val = true → completes (exec (.ethFrameRx mac data fcsOk) s) (fun t => (fcsOk = false → counted s t (Reg.ETH_CNT
    mac.val 2) 1 ∧ counted s t (Reg.ETH_CNT mac.val 3) 1 ∧ t.io = s.io ∧ t.flag (Reg.ETH_ERR mac.val) F.ETH_ERR.RX_DROP = true)
    ∧ (fcsOk = true → data.take 6 ≠ s.macAddr mac.val → data.take 6 ≠ broadcastMac → data.take 6 ≠ gptpMac → counted s t
    (Reg.ETH_CNT mac.val 3) 1 ∧ t.io = s.io ∧ t.flag (Reg.ETH_ERR mac.val) F.ETH_ERR.RX_DROP = true) ∧ (∀ b, fcsOk = true →
    (data.take 6 = s.macAddr mac.val ∨ data.take 6 = broadcastMac) → s.untag mac.val data = some (0x0806, b) → s.arpForUs
    mac.val b = true → counted s t (Reg.ETH_CNT mac.val 1) 1 ∧ t = (s.ethAccept mac.val).queueEth mac.val (s.arpReply mac.val
    b)) ∧ (∀ b ip port msg, fcsOk = true → (data.take 6 = s.macAddr mac.val ∨ data.take 6 = broadcastMac) → s.untag mac.val
    data = some (0x0800, b) → s.datagram? mac.val b = some (ip, port, msg) → t = (s.ethAccept mac.val).takeMessage mac.val
    ⟨(data.drop 6).take 6, ip, port⟩ msg))) ∧
  (∀ (s : State) (mac : Fin 2) (x : EthTx), s.canonical = true → s.nextEth mac.val = some x → s.ethOn mac.val = true →
    s.ethLink mac.val = true → s.io.wireEth.length = 2 → completes (exec (.ethFrameTx mac) s) (fun t => ∃ v, t.io.wireEth.getD
    mac.val [] = s.ethFrame mac.val x v ∧ 60 ≤ (t.io.wireEth.getD mac.val []).length ∧ counted s t (Reg.ETH_CNT mac.val 0) 1 ∧
    t.mem = s.mem)) ∧
  (∀ (s : State) (mac : Fin 2) (up : Bool) (speed : BitVec 2), s.canonical = true → s.ethOn mac.val = true → completes (exec
    (.ethLinkChange mac up speed) s) (fun t => (up = true → speedFits (s.fld (Reg.ETH_STATUS mac.val) F.ETH_STATUS.MODE)
    speed.toNat = true → t.ethLink mac.val = true ∧ t.fld (Reg.ETH_STATUS mac.val) F.ETH_STATUS.SPEED = speed.toNat) ∧ (up =
    false → t.ethLink mac.val = false) ∧ (up = false → s.ethLink mac.val = true → t.flag (Reg.ETH_ERR mac.val)
    F.ETH_ERR.LINK_DOWN = true) ∧ regsKept s t [Reg.ETH_STATUS mac.val, Reg.ETH_ERR mac.val] ∧ t.mem = s.mem))

/-- A GO while the Output Framer is disabled shows result 1; an accepted one shows 0 and its descriptor waits to be copied. The oldest copy ends: a payload of TYPE 1 is offered to the selector, any other is handed over. -/
def Obligations.OutputFramer : Prop :=
  (∀ (s : State) (bank : Fin 5) (domain : BitVec 4) (value : Word), s.canonical = true → F.OF_SUB_GO.GO.get value = 1 →
    completes (exec (.ofSubGo bank domain value) s) (fun t => (s.ofEnabled = false → t.fld Reg.OF_RESULT F.OF_RESULT.RESULT = 1
    ∧ t.io = s.io) ∧ (∀ a q, a = s.fld (bankOff bank.val Reg.OF_SUB_LO) F.OF_SUB_LO.ADDR_LO * 32 + s.fld (bankOff bank.val
    Reg.OF_SUB_HI) F.OF_SUB_HI.ADDR_HI * 2 ^ 32 → q = s.submitCheck bank.val domain.toNat a → t.fld Reg.OF_RESULT
    F.OF_RESULT.RESULT = q.2.1 ∧ (q.2.1 = 0 → t.io.ofJobs = s.io.ofJobs ++ [⟨bank.val, domain.toNat, a, q.2.2, s.now⟩]) ∧
    (q.2.1 ≠ 0 → t.io.ofJobs = s.io.ofJobs)) ∧ t.mem = s.mem)) ∧
  (∀ (s : State) (j : OfJob) (rest : List OfJob), s.io.ofJobs = j :: rest → completes (exec .ofCopyDone s) (fun t =>
    t.io.ofJobs = rest ∧ (∀ r, s.outRec? (leAt j.desc 0 2) = some r → r.type ≠ 1 → ∃ p : Payload, p.source = 0 ∧ p.bytes =
    s.fetch (j.addr + 32) (leAt j.desc 4 2) ∧ t = (s.modIo (fun io => { io with ofJobs := rest })).handOver r p) ∧ (∀ r,
    s.outRec? (leAt j.desc 0 2) = some r → r.type = 1 → ∃ p : Payload, p.source = 0 ∧ p.bytes = s.fetch (j.addr + 32) (leAt
    j.desc 4 2) ∧ t = (s.modIo (fun io => { io with ofJobs := rest })).offerPrimary r p) ∧ t.mem = s.mem))

/-- Each record that a received frame matches takes its value, or notes a failed E2E check; an entry goes stale TIMEOUT_MS after its last acceptance; reading the state captures the value. A controller sends the buffer that wins arbitration, and a bus-off episode ends in the error-active state with cleared counts. -/
def Obligations.CanAndVehicleState : Prop :=
  (∀ (s : State) (can : Fin 2) (id : Word) (ext : Bool) (data : List Byte), s.canOn can.val = true → completes (exec
    (.canFrameRx can id ext data) s) (fun t => (t = (List.range s.vsCount).foldl (fun (u : State) i => if (u.vsRec i).can =
    can.val ∧ (u.vsRec i).id = id.toNat ∧ decide ((u.vsRec i).flags % 2 = 1) = ext then u.takeVs can.val i data else u) s) ∧
    (s.running = false → s.io.vs.length = 32 → ∀ i, i < s.vsCount → i < 32 → (s.vsRec i).can = can.val → (s.vsRec i).id =
    id.toNat → decide ((s.vsRec i).flags % 2 = 1) = ext → (s.vsRec i).byte + (s.vsRec i).span ≤ data.length → (s.vsRec i).flags
    / 8 % 2 = 0 → (t.io.vs.getD i VsEntry.fresh).value = (s.vsRec i).value data ∧ (t.io.vs.getD i VsEntry.fresh).stale = false
    ∧ (t.io.vs.getD i VsEntry.fresh).ts = s.now))) ∧
  (∀ (s : State) (entry : Fin 32), (s.io.vs.getD entry.val VsEntry.fresh).stale = false → entry.val < s.vsCount →
    s.io.vs.length = 32 → completes (exec (.vsStaleTimeout entry) s) (fun t => t.now = max s.now ((s.io.vs.getD entry.val
    VsEntry.fresh).acceptedAt + (s.vsRec entry.val).timeoutMs * 1000000) ∧ (s.running = false → (t.io.vs.getD entry.val
    VsEntry.fresh).stale = true ∧ (t.io.vs.getD entry.val VsEntry.fresh).value = (s.io.vs.getD entry.val VsEntry.fresh).value)
    ∧ t = (((((s.reach ((s.io.vs.getD entry.val VsEntry.fresh).acceptedAt + (s.vsRec entry.val).timeoutMs * 1000000)).modVs
    entry.val (fun e => { e with stale := true })).event (Reg.CAN_ERR (s.vsRec entry.val).can) F.CAN_ERR.STALE).copyVs
    entry.val).evalTriggers 2 entry.val))) ∧
  (∀ (s : State) (can : Fin 2), s.canonical = true → completes (exec (.canVsStateRead can) s) (fun t => t.reg (Reg.CAN_VS_STATE
    can.val) = (s.vsShown can.val).word ∧ t.reg (Reg.CAN_VS_VALUE can.val) = (s.vsShown can.val).value ∧ regsKept s t
    [Reg.CAN_VS_STATE can.val, Reg.CAN_VS_VALUE can.val] ∧ t.mem = s.mem)) ∧
  (∀ (s : State) (can : Fin 2) (x : CanTx), winner (s.io.can.getD can.val []) = some x → s.canOn can.val = true → s.ofEnabled =
    true → s.io.wireCan.length = 2 → completes (exec (.canFrameTx can) s) (fun t => t.io.wireCan.getD can.val none = some x ∧
    t.io.can.getD can.val [] = (s.io.can.getD can.val []).erase x ∧ regsKept s t [] ∧ t.mem = s.mem)) ∧
  (∀ (s : State) (can : Fin 2), s.canonical = true → s.fld (Reg.CAN_STATUS can.val) F.CAN_STATUS.STATE ≠ 3 → completes (exec
    (.canBusOffRecovery can) s) (fun t => t.fld (Reg.CAN_STATUS can.val) F.CAN_STATUS.STATE = 0 ∧ t.fld (Reg.CAN_STATUS
    can.val) F.CAN_STATUS.TEC = 0 ∧ t.fld (Reg.CAN_STATUS can.val) F.CAN_STATUS.REC = 0 ∧ t.flag (Reg.CAN_ERR can.val)
    F.CAN_ERR.BUS_OFF = true ∧ regsKept s t [Reg.CAN_STATUS can.val, Reg.CAN_ERR can.val] ∧ t.mem = s.mem))

/-- An input level that has held for its filter time is shown with its event, and the triggers that watch it are evaluated. A writer drives the outputs that it owns, which in a severe state keep their SAFE level; other bits are ignored and counted. PPS is high for 1 ms from each whole second. -/
def Obligations.Gpio : Prop :=
  (∀ (s : State) (n : Fin 32) (level : Bool), s.gpioBound = true → (s.gpioRec n.val).function = 1 → (s.reg Reg.GPIO_IN).getLsbD
    n.val ≠ level → completes (exec (.gpioFilterExpiry n level) s) (fun t => (∃ u : State, (s.canonical = true → (u.reg
    Reg.GPIO_IN).getLsbD n.val = level ∧ (u.reg Reg.GPIO_EVENT).getLsbD n.val = true) ∧ regsKept s u [Reg.GPIO_IN,
    Reg.GPIO_EVENT] ∧ t = u.evalTriggers 1 n.val) ∧ t.mem = s.mem)) ∧
  (∀ (s : State) (domain : BitVec 4) (value : Word), completes (exec (.gpioOutSet domain value) s) (fun t => (s.safety.severe ≠
    none → t.pins = s.pins) ∧ (s.safety.severe = none → ∀ n, n < 32 → value.getLsbD n = true → s.gpioOwned domain.toNat n =
    true → t.pins.gpioDriven.getLsbD n = true ∧ t.pins.gpio.getLsbD n = true) ∧ (∀ n, n < 32 → (value.getLsbD n = false ∨
    s.gpioOwned domain.toNat n = false) → t.pins.gpioDriven.getLsbD n = s.pins.gpioDriven.getLsbD n ∧ t.pins.gpio.getLsbD n =
    s.pins.gpio.getLsbD n) ∧ regsKept s t [Reg.GPIO_REFUSED] ∧ t.mem = s.mem)) ∧
  (∀ (s : State) (domain : BitVec 4) (value : Word), completes (exec (.gpioOutClr domain value) s) (fun t => (s.safety.severe ≠
    none → t.pins = s.pins) ∧ (s.safety.severe = none → ∀ n, n < 32 → value.getLsbD n = true → s.gpioOwned domain.toNat n =
    true → t.pins.gpioDriven.getLsbD n = true ∧ t.pins.gpio.getLsbD n = false) ∧ (∀ n, n < 32 → (value.getLsbD n = false ∨
    s.gpioOwned domain.toNat n = false) → t.pins.gpioDriven.getLsbD n = s.pins.gpioDriven.getLsbD n ∧ t.pins.gpio.getLsbD n =
    s.pins.gpio.getLsbD n) ∧ regsKept s t [Reg.GPIO_REFUSED] ∧ t.mem = s.mem)) ∧
  (∀ (s : State), s.gpioBound = true → completes (exec .ppsEdge s) (fun t => t.io.ppsHigh = !s.io.ppsHigh ∧ (s.io.ppsHigh =
    true → t.now = max s.now (s.now / 1000000000 * 1000000000 + 1000000)) ∧ (s.io.ppsHigh = false → t.now % 1000000000 = 0 ∧
    s.now ≤ t.now) ∧ regsKept s t [] ∧ t.mem = s.mem))

/-- A token is taken from the input queue. For an unbound node it is dropped with UNKNOWN_NODE; of another Domain ID it is refused with result 3; a duplicate operand is dropped with result 4; an operand of an existing entry is set there; a new key takes an entry, or is refused with result 1 and counted when the store is full. -/
def Obligations.TokenLookup : Prop :=
  (∀ (s : State) (x : Token) (rest : List Token), s.canonical = true → s.fgs.tokens = x :: rest → completes (exec .tokenLookup
    s) (fun t => (¬ (24 ≤ x.stream ∧ x.stream ≤ 254) → s.node? x.node = none → t.flag Reg.FGS_EVENT F.FGS_EVENT.UNKNOWN_NODE =
    true ∧ t.fgs = { s.fgs with tokens := rest }) ∧ (∀ n, ¬ (24 ≤ x.stream ∧ x.stream ≤ 254) → s.node? x.node = some n →
    n.rc.periodic = false → n.peer = none → s.fgs.closed.contains n.layer = false → x.domain ≠ n.domain → t.flag Reg.FGS_EVENT
    F.FGS_EVENT.NOT_OWNER = true ∧ t.fgs = { s.fgs with tokens := rest } ∧ (∀ b, x.poster = some b → t.fld (bankOff b
    Reg.FGS_POST_RESULT) F.FGS_POST_RESULT.RESULT = 3)) ∧ (∀ n i, ¬ (24 ≤ x.stream ∧ x.stream ≤ 254) → s.node? x.node = some n
    → n.rc.periodic = false → n.peer = none → s.fgs.closed.contains n.layer = false → x.domain = n.domain → s.runsOn n x.seq =
    true → n.retired.any (fun r => !seqNewer x.seq r) = false → s.inst? x.node x.seq x.tile = some i → i.st ≠ .cancelled →
    i.stopping = false → i.ops.contains x.operand = true → t.flag Reg.FGS_EVENT F.FGS_EVENT.DUP_TOKEN = true ∧ t.fgs =
    { s.fgs with tokens := rest }) ∧ (∀ n i, ¬ (24 ≤ x.stream ∧ x.stream ≤ 254) → s.node? x.node = some n → n.rc.periodic =
    false → n.peer = none → s.fgs.closed.contains n.layer = false → x.domain = n.domain → s.runsOn n x.seq = true →
    n.retired.any (fun r => !seqNewer x.seq r) = false → s.inst? x.node x.seq x.tile = some i → i.st ≠ .cancelled → i.stopping
    = false → i.ops.contains x.operand = false → x.kind ≠ 1 → ∃ j, t.entry? i.entry = some j ∧ j.ops.contains x.operand = true)
    ∧ (∀ n, ¬ (24 ≤ x.stream ∧ x.stream ≤ 254) → s.node? x.node = some n → n.rc.periodic = false → n.peer = none →
    s.fgs.closed.contains n.layer = false → x.domain = n.domain → s.runsOn n x.seq = true → n.retired.any (fun r => !seqNewer
    x.seq r) = false → s.inst? x.node x.seq x.tile = none → x.kind ≠ 1 → x.reserved = false → 4096 ≤ s.storeUsed → t.flag
    Reg.FGS_EVENT F.FGS_EVENT.REFUSED = true ∧ counted s t (Reg.FGS_CNT 0) 1 ∧ t.fgs = { s.fgs with tokens := rest }) ∧ t.mem =
    s.mem)) ∧
  (∀ (s : State) (bank : Fin 5) (domain : BitVec 4) (hi : Word), s.canonical = true → completes (exec (.fgsPost bank domain hi)
    s) (fun t => t.flag (bankOff bank.val Reg.FGS_POST_RESULT) F.FGS_POST_RESULT.BUSY = true ∧ ((∀ n, s.node? (hi.toNat /
    1048576) = some n → n.peer = none) → ∃ x : Token, t.fgs.tokens = s.fgs.tokens ++ [x] ∧ x.node = hi.toNat / 1048576 ∧
    x.stream = hi.toNat / 4096 % 256 ∧ x.tile = (s.reg (bankOff bank.val Reg.FGS_POST_LO)).toNat % 4096 ∧ x.seq = w32 (hi.toNat
    % 4096 * 1048576 + (s.reg (bankOff bank.val Reg.FGS_POST_LO)).toNat / 4096) ∧ x.domain = domain.toNat ∧ x.poster = some
    bank.val) ∧ t.mem = s.mem))

/-- A waiting instance whose operands are there, whose flow window is open and whose output slots, credit and previous-frame inputs allow it enters its ready list. An expired affinity hold is over, and a free unit takes the instance. A cancelled instance keeps only the voids that still cannot take effect. -/
def Obligations.Admission : Prop :=
  (∀ (s : State) (entry : Fin 4096) (flagUe : Option (Fin 262144)) (i : Inst) (n : NodeSt), s.entry? entry.val = some i →
    s.node? i.node = some n → i.st = .waiting → i.need ≤ i.ops.length → s.inWindow n i = true → (n.rc.outRings.all (fun o =>
    s.outputOk n i o) = true) → s.creditOk n i = true → s.prevOk n i = true → completes (exec (.instanceAdmit entry flagUe) s)
    (fun t => (flagUe = none → ∃ j, t.entry? entry.val = some j ∧ j.st = .ready ∧ j.order = s.fgs.orderNext) ∧ (flagUe = none →
    t.fgs.orderNext = s.fgs.orderNext + 1) ∧ t = (s.metFlagUe flagUe).admitEntry entry.val ∧ t.mem = s.mem)) ∧
  (∀ (s : State) (entry : Fin 4096) (i : Inst) (n : NodeSt) (d : Nat), s.entry? entry.val = some i → i.holdDue = some d →
    s.node? i.node = some n → completes (exec (.affinityHoldExpiry entry) s) (fun t => t.now = max s.now (s.tickAt d) ∧ (∀ u, u
    = (s.reachTick d).modInst i.entry (fun x => { x with holdDue := none, holdOver := true }) → (s.fgs.halted = true ∨ n.rc.cls
    = 7 ∨ u.freeUnitsOf n = [] → t = u) ∧ (∀ f l, s.fgs.halted = false → n.rc.cls ≠ 7 → u.freeUnitsOf n = f :: l → t =
    (u.dispatchTo f i n).endAbsent f i n)) ∧ t.mem = s.mem)) ∧
  (∀ (s : State) (entry : Fin 4096) (i : Inst) (n : NodeSt), s.entry? entry.val = some i → s.node? i.node = some n → i.st =
    .cancelled → completes (exec (.deferredVoid entry) s) (fun t => (∀ j, t.entry? entry.val = some j → j.st = .cancelled ∧ (∀
    o, o ∈ j.voidsLeft → o ∈ i.voidsLeft)) ∧ (i.voidsLeft = [] → (n.rc.periodic = true ∨ n.retired.any (fun r => !seqNewer
    i.seq r) = true) → t.entry? entry.val = none) ∧ t.mem = s.mem))

/-- The unit offered goes to the first ready instance that takes it, and runs its record from then on, or to its tinder job where that stands higher. A pair gets the dispatch record with VALID set, which a read acknowledges. DONE of the running instance makes it done-unreleased, or cancels it; any other is journaled and changes nothing in the sequencer. -/
def Obligations.Dispatch : Prop :=
  (∀ (s : State) (unit : Half) (i : Inst) (n : NodeSt) (h : List Nat), s.fgs.halted = false → classOfUnit unit.toNat < 7 →
    s.unitFree unit.toNat = true → s.pick unit.toNat (s.offerOrder (classOfUnit unit.toNat)) [] = (some (i, n), h) → completes
    (exec (.dispatch unit) s) (fun t => ((∀ q, (s.startHolds h).tinderFor unit.toNat = some q → q ≤ n.rc.prio) → t =
    ((s.startHolds h).dispatchTo unit.toNat i n).endAbsent unit.toNat i n ∧ (((s.startHolds h).dispatchTo unit.toNat i n).unit
    unit.toNat).entry = some i.entry) ∧ (∀ q, (s.startHolds h).tinderFor unit.toNat = some q → n.rc.prio < q → t =
    (s.startHolds h).startTinder unit.toNat) ∧ t.mem = s.mem)) ∧
  (∀ (s : State) (pair : Fin 4) (i : Inst) (n : NodeSt) (h : List Nat), s.canonical = true → s.fgs.halted = false → s.unitFree
    (0x0B00 + pair.val) = true → s.pick (0x0B00 + pair.val) (s.offerOrder 7) [] = (some (i, n), h) → completes (exec
    (.pcDispatch pair) s) (fun t => t.flag (Reg.FGS_PC_DISP0 pair.val) F.FGS_PC_DISP0.VALID = true ∧ t.fld (Reg.FGS_PC_DISP0
    pair.val) F.FGS_PC_DISP0.NODE_SLOT = i.node % 4096 ∧ t.fld (Reg.FGS_PC_DISP0 pair.val) F.FGS_PC_DISP0.TILE = i.tile % 4096
    ∧ t.reg (Reg.FGS_PC_DISP1 pair.val) = i.seq ∧ t.fld (Reg.FGS_PC_DISP2 pair.val) F.FGS_PC_DISP2.ENTRY = i.entry % 4096 ∧
    t.fld (Reg.FGS_PC_DISP2 pair.val) F.FGS_PC_DISP2.DOMAIN = n.domain % 16 ∧ t.reg (Reg.FGS_PC_DISP3 pair.val) = w32
    (n.deadline i.ts) ∧ t.mem = s.mem)) ∧
  (∀ (s : State) (pair : Fin 4), s.canonical = true → s.flag (Reg.FGS_PC_DISP0 pair.val) F.FGS_PC_DISP0.VALID = true →
    completes (exec (.fgsDisp0Read pair) s) (fun t => t.flag (Reg.FGS_PC_DISP0 pair.val) F.FGS_PC_DISP0.VALID = false ∧ (∀ i,
    s.entry? (s.fld (Reg.FGS_PC_DISP2 pair.val) F.FGS_PC_DISP2.ENTRY) = some i → i.st = .dispatched → ∃ j, t.entry? i.entry =
    some j ∧ j.st = .running) ∧ regsKept s t [Reg.FGS_PC_DISP0 pair.val] ∧ t.mem = s.mem)) ∧
  (∀ (s : State) (pair : Fin 4) (value : Word), completes (exec (.fgsPcDone pair value) s) (fun t => (2 ≤
    F.FGS_PC_DONE.STATUS.get value → t.fgs = s.fgs ∧ t.cores = s.cores) ∧ (∀ i, s.entry? (F.FGS_PC_DONE.ENTRY.get value) = some
    i → F.FGS_PC_DONE.STATUS.get value = 0 → i.gen = F.FGS_PC_DONE.GEN.get value → i.unit = some (0x0B00 + pair.val) →
    i.stopping = false → i.st = .running → ∃ u : State, (∃ j, u.entry? i.entry = some j ∧ j.st = .done) ∧ (t = u ∨ t =
    u.tryRelease i.entry)) ∧ (∀ i, s.entry? (F.FGS_PC_DONE.ENTRY.get value) = some i → F.FGS_PC_DONE.STATUS.get value = 1 →
    i.gen = F.FGS_PC_DONE.GEN.get value → i.unit = some (0x0B00 + pair.val) → i.stopping = false → i.st = .running → ∀ j,
    t.entry? i.entry = some j → j.st = .cancelled) ∧ (F.FGS_PC_DONE.STATUS.get value < 2 → (∀ i, s.entry?
    (F.FGS_PC_DONE.ENTRY.get value) = some i → i.gen ≠ F.FGS_PC_DONE.GEN.get value) → t.fgs = s.fgs ∧ t.cores = s.cores) ∧
    t.mem = s.mem)) ∧
  (∀ (s : State) (domain : BitVec 4) (value : Word), value.getLsbD 0 = true → completes (exec (.fgsCancel domain value) s) (fun
    t => (s.node? (s.fld Reg.FGS_CANCEL_NODE F.FGS_CANCEL_NODE.NODE_SLOT) = none → t.fgs = { s.fgs with cancelSel := [] }) ∧ (∀
    n, s.node? (s.fld Reg.FGS_CANCEL_NODE F.FGS_CANCEL_NODE.NODE_SLOT) = some n → n.domain ≠ domain.toNat → t.fgs =
    { s.fgs with cancelSel := [] }) ∧ (∀ n sel u, s.node? (s.fld Reg.FGS_CANCEL_NODE F.FGS_CANCEL_NODE.NODE_SLOT) = some n →
    n.domain = domain.toNat → sel = (s.fgs.insts.filter (fun i => i.node == n.rc.slot && i.live && !i.stopping && (s.flag
    Reg.FGS_CANCEL_NODE F.FGS_CANCEL_NODE.ALL_SEQ || i.seq == s.reg Reg.FGS_CANCEL_SEQ) && (s.flag Reg.FGS_CANCEL_NODE
    F.FGS_CANCEL_NODE.ALL_TILES || i.tile == s.fld Reg.FGS_CANCEL_NODE F.FGS_CANCEL_NODE.TILE))).map (·.entry) → u = s.setFld
    Reg.FGS_CANCEL_STATUS F.FGS_CANCEL_STATUS.COUNT sel.length → t = sel.foldl State.cancel
    { u with fgs := { s.fgs with cancelSel := sel } }) ∧ t.mem = s.mem)) ∧
  (∀ (s : State), completes (exec .fgsAffinityForget s) (fun t => t = { s with fgs := { s.fgs with forgetPending := true } }))

/-- A unit that reports its instance complete leaves it done-unreleased. The release of a done instance at its turn, whose tokens find their entries, frees its matching-store entry; one that lacks entries stays. Held releases are retried in the order first refused, a stalled one as soon as it can go. A slot is drained at most once by an input position. -/
def Obligations.Release : Prop :=
  (∀ (s : State) (unit : Half) (i : Inst) (n : NodeSt), (s.unit unit.toNat).entry = some i.entry → s.entry? i.entry = some i →
    s.node? i.node = some n → i.busy = true → i.stopping = false → pcOf unit.toNat = none → n.steps ≤ i.step → completes (exec
    (.stepComplete unit) s) (fun t => ∃ j, t.entry? i.entry = some j ∧ j.st = .done ∧ (∀ u, u = s.modInst i.entry (fun x =>
    { x with st := .done }) → ((u.shortfall (u.releaseTokens n i)).1 = 0 ∨ (u.shortfall (u.releaseTokens n i)).2 = false ∨
    u.atHead i = false) → (t.unit unit.toNat).entry = none) ∧ t.mem = s.mem)) ∧
  (∀ (s : State) (entry : Fin 4096) (flagUe : Option (Fin 262144)) (i : Inst) (n : NodeSt), s.entry? entry.val = some i →
    s.node? i.node = some n → i.st = .done → s.atHead i = true → completes (exec (.release entry flagUe) s) (fun t => t =
    (s.metFlagUe flagUe).tryRelease entry.val ∧ (flagUe = none → (s.shortfall (s.releaseTokens n i)).1 = 0 → (s.reserveRemote
    entry.val (s.releaseTokens n i)).2 = true → t.entry? entry.val = none) ∧ (flagUe = none → (s.shortfall (s.releaseTokens n
    i)).1 ≠ 0 → t.entry? entry.val ≠ none) ∧ t.mem = s.mem)) ∧
  (∀ (s : State) (entry : Fin 4096) (i : Inst) (n : NodeSt) (d : Nat), s.entry? entry.val = some i → s.node? i.node = some n →
    i.st = .done → s.atHead i = true → i.stalledFrom = some d → completes (exec (.stallRelease entry) s) (fun t => t =
    s.tryRelease entry.val ∧ ((s.shortfall (s.releaseTokens n i)).1 = 0 → (s.reserveRemote entry.val (s.releaseTokens n i)).2 =
    true → t.entry? entry.val = none) ∧ t.mem = s.mem)) ∧
  (∀ (s : State), completes (exec .releaseRetry s) (fun t => s.tickAt s.now ≤ t.now ∧ t = ((s.fgs.insts.filterMap (·.refused)
    ++ s.fgs.heldBands.map (·.1)).foldr insertNat []).foldl State.retryOne (s.reach (s.tickAt s.now)) ∧ t.mem = s.mem)) ∧
  (∀ (s : State) (node : Fin 4096) (input : Fin 8) (slot : Fin 64) (flagUe : Option (Fin 262144)) (n : NodeSt), s.node?
    node.val = some n → completes (exec (.slotDrain node input slot flagUe) s) (fun t => (flagUe = none → t = s.tryDrain
    n.layer (n.rc.inRings.getD input.val 0xFF) slot.val node.val input.val) ∧ (flagUe ≠ none → t = (s.metFlagUe flagUe) ∨ ∃ m,
    (s.metFlagUe flagUe).node? node.val = some m ∧ t = (s.metFlagUe flagUe).tryDrain m.layer (m.rc.inRings.getD input.val 0xFF)
    slot.val node.val input.val) ∧ (∀ r, flagUe = none → s.ring? n.layer (n.rc.inRings.getD input.val 0xFF) = some r → r.remote
    = none → n.peer = none → n.rc.periodic = false → s.drainReady r slot.val n input.val = true → t.flags = (s.modFlag
    (r.flagIdx slot.val) (fun f => f.drain r.rc.consumers)).flags) ∧ t.mem = s.mem))

/-- A periodic node has its next instance at its start tick. A missed deadline cancels a waiting or ready instance and marks any other late, and counts as a doubt of cause 1 in a safety partition. A matching timeout cancels an instance that lacks operands. Four periods without a release of a flow or node end in DEADLOCK or FLOW_STALL, and its watch starts again. -/
def Obligations.StartsAndDeadlines : Prop :=
  (∀ (s : State) (node : Fin 4096) (n : NodeSt) (b : Nat), s.node? node.val = some n → n.startBase = some b → completes (exec
    (.periodicStart node) s) (fun t => (∀ d, d = b + n.startNext * (((s.layer? n.layer).map (·.periodNs)).getD 0 * max 1
    n.rc.rateDiv) → t.now = max s.now (s.tickAt d)) ∧ ∃ m, t.node? node.val = some m ∧ m.startNext = n.startNext + 1 ∧ (n.peer
    ≠ none ∨ s.fgs.closed.contains n.layer = true → t.fgs.insts = s.fgs.insts) ∧ t.mem = s.mem)) ∧
  (∀ (s : State) (entry : Fin 4096) (i : Inst) (n : NodeSt), s.entry? entry.val = some i → s.node? i.node = some n → i.late =
    false → i.live = true → completes (exec (.deadlineExpiry entry) s) (fun t => t.now = max s.now (s.tickAt (n.deadline i.ts))
    ∧ ((i.st = .waiting ∨ i.st = .ready) → ∀ j, t.entry? entry.val = some j → j.st = .cancelled) ∧ (i.st ≠ .waiting → i.st ≠
    .ready → ∃ j, t.entry? entry.val = some j ∧ j.late = true ∧ j.st = i.st) ∧ (isSafety n.domain = true → (1, srcFgs, i.seq) ∈
    t.safety.doubts) ∧ (isSafety n.domain = false → t.safety = s.safety) ∧ t.mem = s.mem)) ∧
  (∀ (s : State) (entry : Fin 4096) (i : Inst) (n : NodeSt), s.entry? entry.val = some i → s.node? i.node = some n → i.st =
    .waiting → i.ops ≠ [] → i.ops.length < i.need → completes (exec (.matchTimeout entry) s) (fun t => t.now = max s.now
    (s.tickAt (i.created + n.rc.waitNs)) ∧ (∀ j, t.entry? entry.val = some j → j.st = .cancelled) ∧ t.mem = s.mem)) ∧
  (∀ (s : State) (n : Fin 4096) (m : NodeSt) (d : Nat), s.node? n.val = some m → m.watchFrom = some d → s.flowOf? m = none →
    m.rc.periodic = false → completes (exec (.flowWatchExpiry true n) s) (fun t => t.now = max s.now (s.tickAt (d + 4 *
    (((s.layer? m.layer).map (·.periodNs)).getD 0 * max 1 m.rc.rateDiv))) ∧ ∃ u v, t = u.modNode n.val (fun x =>
    { x with watchFrom := x.watchFrom.map (fun _ => u.now) }) ∧ u = ((s.reachTick (d + 4 * (((s.layer? m.layer).map
    (·.periodNs)).getD 0 * max 1 m.rc.rateDiv))).draw.2).judgeStuck (oldestOf (s.fgs.insts.filter (fun i => i.live && i.node ==
    n.val))) true n.val v ∧ t.mem = s.mem)) ∧
  (∀ (s : State) (n : Fin 4096) (f : FlowSt) (d : Nat), (s.fgs.flows.find? (fun f => f.rc.id == n.val) = some f) → f.watchFrom
    = some d → completes (exec (.flowWatchExpiry false n) s) (fun t => ∃ u head, t = u.modFlow f.layer f.rc.id (fun x =>
    { x with watchFrom := x.watchFrom.map (fun _ => u.now) }) ∧ u = (s.reach t.now).judgeStuck head false f.rc.id f.head.toNat
    ∧ s.now ≤ t.now ∧ t.mem = s.mem))

/-- A packet on an unknown virtual channel is discarded and counted. A Frame Start opens a frame stamped with the time; a lost header, a bad CRC and a wrong data type are counted; an image line adds one to the lines of its frame; the first embedded packet is noted; a Frame End, or one frame period without a packet, closes the frame. -/
def Obligations.CsiReception : Prop :=
  (∀ (s : State) (port : Fin 4) (vc : Fin 16), s.canonical = true → s.portOn port.val = true → completes (exec (.csiFrameStart
    port vc) s) (fun t => (s.rxStream? port.val vc.val = none → counted s t (Reg.CFE_PORT_CNT port.val 3) 1 ∧ t.flag
    (Reg.CFE_PORT_ERR port.val) F.CFE_PORT_ERR.UNUSED_VC = true ∧ t.cam = s.cam) ∧ (∀ p c, s.rxStream? port.val vc.val = some
    (p, c) → ∃ c2 f, t.cam? p.stream = some c2 ∧ c2.frame = some f ∧ f.ts = s.now ∧ f.lines = 0) ∧ (∀ p c, s.rxStream? port.val
    vc.val = some (p, c) → p.fsync = 0xFF → s.kin.bindDone = true → c.frame = none → c.owed = none → ∃ c2 f, t.cam? p.stream =
    some c2 ∧ c2.frame = some f ∧ f.seq = some c.next ∧ c2.next = c.next + 1))) ∧
  (∀ (s : State) (port : Fin 4) (vc : Fin 16) (dt : Byte) (hdr : CsiHeader) (crcOk : Bool) (data : List Byte) (fault :
    LineFault), s.canonical = true → s.portOn port.val = true → completes (exec (.csiLongPacket port vc dt hdr crcOk data
    fault) s) (fun t => (hdr = .lost → counted s t (Reg.CFE_PORT_CNT port.val 1) 1 ∧ t.flag (Reg.CFE_PORT_ERR port.val)
    F.CFE_PORT_ERR.HDR_LOST = true) ∧ (hdr = .good → s.rxStream? port.val vc.val = none → counted s t (Reg.CFE_PORT_CNT
    port.val 3) 1 ∧ t.flag (Reg.CFE_PORT_ERR port.val) F.CFE_PORT_ERR.UNUSED_VC = true) ∧ (∀ p c, hdr = .good → crcOk = true →
    s.rxStream? port.val vc.val = some (p, c) → dt.toNat ≠ p.dataType → counted s t (Reg.CFE_PORT_CNT port.val 3) 1 ∧ t.flag
    (Reg.CFE_PORT_ERR port.val) F.CFE_PORT_ERR.DT_MISMATCH = true) ∧ (∀ p c f, hdr ≠ .lost → s.rxStream? port.val vc.val = some
    (p, c) → dt.toNat = p.dataType → c.frame = some f → f.seq ≠ none → fault ≠ .parity → ∃ c2 g, t.cam? p.stream = some c2 ∧
    c2.frame = some g ∧ (f.lines < p.height → g.lines = f.lines + 1) ∧ (p.height ≤ f.lines → g.lines = f.lines ∧ g.discarded =
    f.discarded + 1)))) ∧
  (∀ (s : State) (port : Fin 4) (vc : Fin 16) (hdr : CsiHeader) (crcOk : Bool) (data : List Byte), s.canonical = true →
    s.portOn port.val = true → completes (exec (.csiEmbeddedPacket port vc hdr crcOk data) s) (fun t => (hdr = .lost → counted
    s t (Reg.CFE_PORT_CNT port.val 1) 1 ∧ t.flag (Reg.CFE_PORT_ERR port.val) F.CFE_PORT_ERR.HDR_LOST = true) ∧ (∀ p c, hdr =
    .good → crcOk = true → s.rxStream? port.val vc.val = some (p, c) → p.embedded = false → counted s t (Reg.CFE_PORT_CNT
    port.val 3) 1) ∧ (∀ p c f q, hdr ≠ .lost → s.rxStream? port.val vc.val = some (p, c) → p.embedded = true → s.sensorOf?
    p.stream = some q → c.frame = some f → f.seq ≠ none → ∃ c2 g, t.cam? p.stream = some c2 ∧ c2.frame = some g ∧ g.embSeen =
    true) ∧ t.mem = s.mem)) ∧
  (∀ (s : State) (port : Fin 4) (vc : Fin 16) (p : StreamRec) (c : StreamSt), s.canonical = true → s.portOn port.val = true →
    s.rxStream? port.val vc.val = some (p, c) → p.stream < 24 → completes (exec (.csiFrameEnd port vc) s) (fun t => (∀ c2,
    t.cam? p.stream = some c2 → c2.frame = none) ∧ (∀ f q, c.frame = some f → f.seq = some q → t.reg (Reg.CFE_STREAM_SEQ
    p.stream) = q))) ∧
  (∀ (s : State) (stream : Fin 24) (p : StreamRec) (c : StreamSt) (f : CamFrame), s.streamRec? stream.val = some p → s.cam?
    stream.val = some c → c.frame = some f → completes (exec (.frameStallTimeout stream) s) (fun t => t.now = max s.now
    (f.lastPkt + p.periodNs) ∧ (∀ c2, t.cam? stream.val = some c2 → c2.frame = none)))

/-- The window of a pulse that ends without a Frame Start is recorded as a missed frame with the next sequence. An FSYNC output counts each pulse it drives. A failing lane stops reception and starts a reduction, or fences the port; a reduction ends with the lowest healthy lanes in use. An in-band interrupt is counted. -/
def Obligations.CameraTriggers : Prop :=
  (∀ (s : State) (stream : Fin 24) (p : StreamRec) (c : StreamSt) (d : Nat), s.canonical = true → s.streamRec? stream.val =
    some p → s.cam? stream.val = some c → c.owed = some d → completes (exec (.missedFrame stream) s) (fun t => (∀ c2, t.cam?
    stream.val = some c2 → c2.next = c.next + 1 ∧ c2.owed = none) ∧ t.reg (Reg.CFE_STREAM_SEQ p.stream) = c.next ∧ (t.reg
    (metaOff p.stream c.next + 16)).getLsbD 16 = true ∧ t.now = s.now ∧ t.mem = s.mem)) ∧
  (∀ (s : State) (out : Fin 4) (f : FsyncSt) (p : StreamRec), s.canonical = true → s.cam.fsync[out.val]? = some f →
    ((s.flash.usedStreams s.imgRegion).find? (fun p => p.fsync == out.val) = some p) → f.enabled = true → ((s.flash.usedStreams
    s.imgRegion).all (fun q => decide (q.stream < 24)) = true) → completes (exec (.fsyncEdge out) s) (fun t => t.now = max
    s.now (nextPulse p.periodNs p.fsyncOffsetNs (f.last.getD s.now)) ∧ ∃ g, t.cam.fsync[out.val]? = some g ∧ g.last = some
    (nextPulse p.periodNs p.fsyncOffsetNs (f.last.getD s.now)) ∧ (f.stepped = false → t.reg (Reg.CFE_FSYNC_COUNT out.val) =
    s.reg (Reg.CFE_FSYNC_COUNT out.val) + 1))) ∧
  (∀ (s : State) (port : Fin 4) (mask : BitVec 4), s.portOn port.val = true → mask &&& (s.port port.val).lanes &&& ~~~(s.port
    port.val).failing ≠ 0 → s.cam.ports.length = 4 → (s.unit (0x0100 + port.val)).fenced = false → s.canonical = true →
    completes (exec (.laneFailing port mask) s) (fun t => (mask &&& (s.port port.val).lanes) &&& ~~~(t.port port.val).failing =
    0 ∧ t.portOn port.val = false)) ∧
  (∀ (s : State) (port : Fin 4) (pass : Bool), s.canonical = true → s.fld (Reg.CFE_PORT_STATUS port.val)
    F.CFE_PORT_STATUS.STATE = 2 → ((s.kin.seqs.any (fun r => r.profiles.contains (((s.portStreams port.val).head?.map (fun p =>
    p.sensor + (if (s.port port.val).target == 2 then 0x100 else 0x200))).getD 0)) && pass) = false) → s.cam.ports.length = 4 →
    completes (exec (.laneReductionDone port pass) s) (fun t => (pass = true → t.portOn port.val = true ∧ (t.port
    port.val).reduced = true ∧ (t.port port.val).lanes = lowestLanes 4 (s.port port.val).target ((s.port port.val).lanes &&&
    ~~~(s.port port.val).failing)) ∧ (pass = false → (t.unit (0x0100 + port.val)).fenced = true))) ∧
  (∀ (s : State) (port : Fin 4) (lanes : BitVec 4), s.canonical = true → s.stage = 8 → s.fld (Reg.CFE_PORT_STATUS port.val)
    F.CFE_PORT_STATUS.STATE = 0 → (laneCount lanes = 1 ∨ laneCount lanes = 2 ∨ laneCount lanes = 4) → s.cam.ports.length = 4 →
    completes (exec (.csiDeskewComplete port lanes) s) (fun t => t.portOn port.val = true ∧ (t.port port.val).lanes = lanes ∧
    t.fld (Reg.CFE_PORT_STATUS port.val) F.CFE_PORT_STATUS.LANES = laneCount lanes ∧ regsKept s t [Reg.CFE_PORT_STATUS
    port.val] ∧ t.mem = s.mem)) ∧
  (∀ (s : State) (bus : Fin 4), s.cam.ibis.length = 4 → completes (exec (.ibiReceived bus) s) (fun t => t.cam.ibis.getD bus.val
    0 = s.cam.ibis.getD bus.val 0 + 1 ∧ regsKept s t [Reg.CFE_PORT_ERR 0, Reg.CFE_PORT_ERR 1, Reg.CFE_PORT_ERR 2,
    Reg.CFE_PORT_ERR 3] ∧ t.mem = s.mem))

/-- A GO copies a batch of 1 to 64 writes for a bound stream of the bus, or shows why not (R130). The copied batch is pending; the transfer starts in the control window and takes the next epoch; an acknowledged one sets the first frame of its epoch, LATENCY frames on. The end of an injection is counted in the front end and the pipe. -/
def Obligations.SensorControl : Prop :=
  (∀ (s : State) (bus : Fin 4) (domain : BitVec 4) (value : Word), s.canonical = true → s.cam.copying.length = 4 →
    s.cam.lastGo.length = 4 → F.CFE_I3C_BATCH_GO.STREAM.get value < 24 → completes (exec (.i3cBatchGo bus domain value) s) (fun
    t => (((s.cam? (F.CFE_I3C_BATCH_GO.STREAM.get value)).bind (·.layer)).bind s.layer? = none → t.fld
    (Reg.CFE_I3C_BATCH_STATUS bus.val) F.CFE_I3C_BATCH_STATUS.RESULT = 3 ∧ t.fld (Reg.CFE_I3C_BATCH_STATUS bus.val)
    F.CFE_I3C_BATCH_STATUS.STATE = 0 ∧ t.cam.copying.getD bus.val none = none) ∧ (t.fld (Reg.CFE_I3C_BATCH_STATUS bus.val)
    F.CFE_I3C_BATCH_STATUS.RESULT = 0 → t.fld (Reg.CFE_I3C_BATCH_STATUS bus.val) F.CFE_I3C_BATCH_STATUS.STATE = 1 ∧ 1 ≤
    F.CFE_I3C_BATCH_GO.COUNT.get value ∧ F.CFE_I3C_BATCH_GO.COUNT.get value ≤ 64 ∧ (t.cam.copying.getD bus.val none).map
    (·.stream) = some (F.CFE_I3C_BATCH_GO.STREAM.get value)) ∧ t.fld (Reg.CFE_I3C_BATCH_STATUS bus.val)
    F.CFE_I3C_BATCH_STATUS.STREAM = F.CFE_I3C_BATCH_GO.STREAM.get value ∧ regsKept s t [Reg.CFE_I3C_BATCH_STATUS bus.val] ∧
    t.mem = s.mem)) ∧
  (∀ (s : State) (bus : Fin 4) (b : Batch), s.cam.copying.getD bus.val none = some b → completes (exec (.i3cBatchCopyDone bus)
    s) (fun t => t.cam.copying.getD bus.val none = none ∧ (∀ c, s.cam? b.stream = some c → ∃ d, t.cam? b.stream = some d ∧
    d.batch = some b) ∧ regsKept s t [Reg.CFE_I3C_BATCH_STATUS bus.val] ∧ t.mem = s.mem)) ∧
  (∀ (s : State) (stream : Fin 24) (c : StreamSt) (q : SensorRec) (b : Batch) (k : Word) (d : Nat), s.cam? stream.val = some c
    → s.sensorOf? stream.val = some q → c.batch = some b → c.window = some (k, d) → s.batchFits c (max s.now (d +
    q.windowStartUs * 1000)) = true → ((s.cam.streams.any (fun o => decide (o.stream < stream.val) && (s.sensorOf?
    o.stream).map (·.bus) == some q.bus && s.batchFits o (max s.now (d + q.windowStartUs * 1000)))) = false) → s.busTransfers
    q.bus = false → s.busSequence q.bus = false → s.canonical = true → completes (exec (.batchTransferStart stream) s) (fun t
    => t.now = max s.now (d + q.windowStartUs * 1000) ∧ t.reg (Reg.CFE_STREAM_EPOCH stream.val) = s.reg (Reg.CFE_STREAM_EPOCH
    stream.val) + 1 ∧ ∃ e, t.cam? stream.val = some e ∧ e.batch = none ∧ e.transfer = some (b, (s.reg (Reg.CFE_STREAM_EPOCH
    stream.val)).toNat + 1, k) ∧ t.mem = s.mem)) ∧
  (∀ (s : State) (stream : Fin 24) (nackAt : Option Nat) (c : StreamSt) (q : SensorRec) (b : Batch) (e : Nat) (k : Word),
    s.canonical = true → s.cam? stream.val = some c → s.sensorOf? stream.val = some q → c.transfer = some (b, e, k) → completes
    (exec (.batchTransferDone stream nackAt) s) (fun t => ∃ d, t.cam? stream.val = some d ∧ d.transfer = none ∧ d.epochs.head?
    = some ⟨e, k + w32 q.latency, nackAt.any (fun i => decide (i < b.ops.length))⟩ ∧ (nackAt = none → t.reg
    (Reg.CFE_STREAM_EPOCH_FROM stream.val) = k + w32 q.latency) ∧ t.mem = s.mem)) ∧
  (∀ (s : State) (pipe : Fin 4) (x : Nat × Nat × Nat) (b : IspBank) (p : StreamRec), s.canonical = true → (s.pipe
    pipe.val).inject = some x → (s.pipe pipe.val).bank? 7 = some b → s.streamRec? x.1 = some p → completes (exec
    (.tinderInjectionDone pipe) s) (fun t => (t.pipe pipe.val).inject = none ∧ counted s t (Reg.ISP_CNT pipe.val 3) 1 ∧ t.fld
    Reg.CFE_TINDER_CNT F.CFE_TINDER_CNT.COMPLETED = min (s.fld Reg.CFE_TINDER_CNT F.CFE_TINDER_CNT.COMPLETED + 1) (2 ^
    (F.CFE_TINDER_CNT.COMPLETED.hi + 1 - F.CFE_TINDER_CNT.COMPLETED.lo) - 1) ∧ t.mem = s.mem))

/-- A closed staged frame starts when the in-line time test allows and leaves the waiting list. A released band holds the lines of the stage output, and its frame counts it as done; the statistics record is written to its slot. An update is refused with a code, or copied from memory and then queued in its bank. -/
def Obligations.ImagePipes : Prop :=
  (∀ (s : State) (pipe : Fin 4) (badLines : List Nat) (parityAt : Option Nat) (f : StagedFrame) (p : StreamRec) (r : RingSt)
    (lim : Option Nat), (s.unit (0x0200 + pipe.val)).fenced = false → (s.unit (0x0200 + pipe.val)).gated = false → (s.unit
    (0x0200 + pipe.val)).heldBy = none → (s.pipe pipe.val).inject = none → (s.pipe pipe.val).frames = [] → s.nextStaged
    pipe.val = some f → s.inlineLimit pipe.val = some lim → s.streamRec? f.stream = some p → s.ring? f.layer f.ring = some r →
    (lim.all (fun d => decide (4 * s.now + 5 * stagedClocks p + 40000 ≤ 4 * d)) = true) → completes (exec (.ispStagedFrameStart
    pipe badLines parityAt) s) (fun t => (t.pipe pipe.val).waiting = (s.pipe pipe.val).waiting.filter (fun w => !(w.stream ==
    f.stream && w.seq == f.seq)) ∧ t.now = s.now ∧ t.mem = s.mem)) ∧
  (∀ (s : State) (stream : Fin 24) (out : Fin 3) (band : Half) (p : StreamRec) (f : PipeFrame) (d : IspDest) (r : RingSt) (k :
    Nat), s.streamRec? stream.val = some p → ((s.pipe p.isp).frames.find? (fun f => f.stream == stream.val && !f.restart &&
    ((s.ispDest? f.layer f.params f.service out.val).any (fun d => !f.done.contains (d.ring.idx, band.toNat) && decide
    (band.toNat < d.ring.perFrame) && f.ready p (bandEnd d.ring band.toNat)))) = some f) → s.ispDest? f.layer f.params
    f.service out.val = some d → d.ring.begun f.seq band.toNat = true → s.ring? f.layer d.ring.idx = some r → d.ring.k? f.seq =
    some k → r.assigned? (r.slotOf k band.toNat) = some (k, band.toNat) → completes (exec (.ispBandRelease stream out band) s)
    (fun t => t.mem = (bandWrites d (IspSet.parse f.params) (f.run p) (r.slotOf k band.toNat) band.toNat).foldl (fun m w =>
    Memory.putBytes m w.1 w.2) s.mem ∧ (∀ g, t.frame? p.isp f.stream f.seq = some g → g.done.contains (d.ring.idx, band.toNat)
    = true) ∧ t.now = s.now)) ∧
  (∀ (s : State) (stream : Fin 24) (p : StreamRec) (f : PipeFrame) (r : RingSt) (k : Nat), s.streamRec? stream.val = some p →
    ((s.pipe p.isp).frames.find? (fun f => f.stream == stream.val && !f.restart && f.closed && ((s.statsRing? f.layer
    f.params).any (fun r => !f.done.contains (r.idx, 0)))) = some f) → s.statsRing? f.layer f.params = some r → r.begun f.seq 0
    = true → r.k? f.seq = some k → r.assigned? (r.slotOf k 0) = some (k, 0) → completes (exec (.ispStatsRelease stream) s) (fun
    t => t.mem = Memory.putBytes s.mem (ringBase r.rc + r.slotOf k 0 * r.rc.slotBytes) (s.statsRecord p f) ∧ (∀ g, t.frame?
    p.isp f.stream f.seq = some g → g.done.contains (r.idx, 0) = true) ∧ t.now = s.now)) ∧
  (∀ (s : State) (pipe : Fin 4) (bank : Fin 5) (domain : BitVec 4) (value : Word), s.canonical = true → F.ISP_UPD_GO.GO.get
    value = 1 → s.isp.length = 4 → completes (exec (.ispUpdGo pipe bank domain value) s) (fun t => t.fld (bankOff bank.val
    (Reg.ISP_UPD_STATUS pipe.val)) F.ISP_UPD_STATUS.STREAM = leAt (Memory.bytes s.mem ((s.reg (bankOff bank.val (Reg.ISP_UPD_LO
    pipe.val))).toNat / 16 * 16 + (s.reg (bankOff bank.val (Reg.ISP_UPD_HI pipe.val))).toNat % 1024 * 2 ^ 32) 16) 0 1 ∧ (t.fld
    (bankOff bank.val (Reg.ISP_UPD_STATUS pipe.val)) F.ISP_UPD_STATUS.RESULT = 0 → t.flag (bankOff bank.val (Reg.ISP_UPD_STATUS
    pipe.val)) F.ISP_UPD_STATUS.BUSY = true ∧ (t.pipe pipe.val).copying = some (bank.val, leAt (Memory.bytes s.mem ((s.reg
    (bankOff bank.val (Reg.ISP_UPD_LO pipe.val))).toNat / 16 * 16 + (s.reg (bankOff bank.val (Reg.ISP_UPD_HI pipe.val))).toNat
    % 1024 * 2 ^ 32) 16) 0 1, ⟨leAt (Memory.bytes s.mem ((s.reg (bankOff bank.val (Reg.ISP_UPD_LO pipe.val))).toNat / 16 * 16 +
    (s.reg (bankOff bank.val (Reg.ISP_UPD_HI pipe.val))).toNat % 1024 * 2 ^ 32) 16) 1 1 % 2 == 1, w32 (leAt (Memory.bytes s.mem
    ((s.reg (bankOff bank.val (Reg.ISP_UPD_LO pipe.val))).toNat / 16 * 16 + (s.reg (bankOff bank.val (Reg.ISP_UPD_HI
    pipe.val))).toNat % 1024 * 2 ^ 32) 16) 8 4), leAt (Memory.bytes s.mem ((s.reg (bankOff bank.val (Reg.ISP_UPD_LO
    pipe.val))).toNat / 16 * 16 + (s.reg (bankOff bank.val (Reg.ISP_UPD_HI pipe.val))).toNat % 1024 * 2 ^ 32) 16) 4 2,
    Memory.bytes s.mem (((s.reg (bankOff bank.val (Reg.ISP_UPD_LO pipe.val))).toNat / 16 * 16 + (s.reg (bankOff bank.val
    (Reg.ISP_UPD_HI pipe.val))).toNat % 1024 * 2 ^ 32) + 16) (leAt (Memory.bytes s.mem ((s.reg (bankOff bank.val
    (Reg.ISP_UPD_LO pipe.val))).toNat / 16 * 16 + (s.reg (bankOff bank.val (Reg.ISP_UPD_HI pipe.val))).toNat % 1024 * 2 ^ 32)
    16) 2 2)⟩)) ∧ (t.fld (bankOff bank.val (Reg.ISP_UPD_STATUS pipe.val)) F.ISP_UPD_STATUS.RESULT ≠ 0 → t.flag (Reg.ISP_ERR
    pipe.val) F.ISP_ERR.UPD_REFUSED = true ∧ t.isp = s.isp) ∧ ((s.cam? (leAt (Memory.bytes s.mem ((s.reg (bankOff bank.val
    (Reg.ISP_UPD_LO pipe.val))).toNat / 16 * 16 + (s.reg (bankOff bank.val (Reg.ISP_UPD_HI pipe.val))).toNat % 1024 * 2 ^ 32)
    16) 0 1)).bind (·.bank) = none → t.fld (bankOff bank.val (Reg.ISP_UPD_STATUS pipe.val)) F.ISP_UPD_STATUS.RESULT = 2) ∧
    t.mem = s.mem ∧ regsKept s t [bankOff bank.val (Reg.ISP_UPD_STATUS pipe.val), Reg.ISP_ERR pipe.val])) ∧
  (∀ (s : State) (pipe : Fin 4) (b : Nat) (st : Nat) (u : IspUpd) (m : Nat) (k : IspBank), s.canonical = true → (s.pipe
    pipe.val).copying = some (b, st, u) → (s.cam? st).bind (·.bank) = some m → (s.pipe pipe.val).bank? m = some k → completes
    (exec (.ispUpdCopyDone pipe) s) (fun t => (t.pipe pipe.val).copying = none ∧ (t.pipe pipe.val).bank? m = some
    { k with queue := k.queue ++ [u] } ∧ t.flag (bankOff b (Reg.ISP_UPD_STATUS pipe.val)) F.ISP_UPD_STATUS.BUSY = false ∧ t.mem
    = s.mem))

/-- A MESH, AFFINE, HOMOGRAPHY, RECT_PAIR, PYRAMID, STEREO, FLOW, FEATURE or MATCH step whose descriptor is valid and whose fetches and stores are served writes what the operation computes from what it fetched, counts one step, and leaves the next step due, or none after the last. -/
def Obligations.VisionEngines : Prop :=
  (∀ (s : State) (inst : Fin 4) (c : StepCtx) (u1 : State) (ws : List (Nat × List Byte)) (v : State), s.canonical = true →
    stepDue s (0x0300 + inst.val) 1 c → warpValid (s.fetched c) c (s.desc c) = true → (u1 = ((s.fetched c).fetchRuns c
    ((warpPairs (s.desc c)).flatMap (fun (p : Nat × Nat) => (s.fetched c).warpRuns c (s.desc c) p.1 p.2))).1) → (((s.fetched
    c).fetchRuns c ((warpPairs (s.desc c)).flatMap (fun (p : Nat × Nat) => (s.fetched c).warpRuns c (s.desc c) p.1 p.2))).2 =
    true) → (ws = (warpPairs (s.desc c)).flatMap (fun (p : Nat × Nat) => (u1.warpOut c (s.desc c) p.1 p.2).1)) → v =
    (u1.judgeWrites c.issuer ws).1 → (u1.judgeWrites c.issuer ws).2 = none → completes (exec (.mesh inst .ok) s) (fun t =>
    t.mem = (v.writes ws).mem ∧ stepTaken s t c (leAt (s.desc c) 2 1 % 2 == 1))) ∧
  (∀ (s : State) (inst : Fin 4) (c : StepCtx) (u1 : State) (ws : List (Nat × List Byte)) (v : State), s.canonical = true →
    stepDue s (0x0300 + inst.val) 2 c → warpValid (s.fetched c) c (s.desc c) = true → (u1 = ((s.fetched c).fetchRuns c
    ((warpPairs (s.desc c)).flatMap (fun (p : Nat × Nat) => (s.fetched c).warpRuns c (s.desc c) p.1 p.2))).1) → (((s.fetched
    c).fetchRuns c ((warpPairs (s.desc c)).flatMap (fun (p : Nat × Nat) => (s.fetched c).warpRuns c (s.desc c) p.1 p.2))).2 =
    true) → (ws = (warpPairs (s.desc c)).flatMap (fun (p : Nat × Nat) => (u1.warpOut c (s.desc c) p.1 p.2).1)) → v =
    (u1.judgeWrites c.issuer ws).1 → (u1.judgeWrites c.issuer ws).2 = none → completes (exec (.affine inst .ok) s) (fun t =>
    t.mem = (v.writes ws).mem ∧ stepTaken s t c (leAt (s.desc c) 2 1 % 2 == 1))) ∧
  (∀ (s : State) (inst : Fin 4) (c : StepCtx) (u1 : State) (ws : List (Nat × List Byte)) (v : State), s.canonical = true →
    stepDue s (0x0300 + inst.val) 3 c → warpValid (s.fetched c) c (s.desc c) = true → (u1 = ((s.fetched c).fetchRuns c
    ((warpPairs (s.desc c)).flatMap (fun (p : Nat × Nat) => (s.fetched c).warpRuns c (s.desc c) p.1 p.2))).1) → (((s.fetched
    c).fetchRuns c ((warpPairs (s.desc c)).flatMap (fun (p : Nat × Nat) => (s.fetched c).warpRuns c (s.desc c) p.1 p.2))).2 =
    true) → (ws = (warpPairs (s.desc c)).flatMap (fun (p : Nat × Nat) => (u1.warpOut c (s.desc c) p.1 p.2).1)) → v =
    (u1.judgeWrites c.issuer ws).1 → (u1.judgeWrites c.issuer ws).2 = none → completes (exec (.homography inst .ok) s) (fun t
    => t.mem = (v.writes ws).mem ∧ stepTaken s t c (leAt (s.desc c) 2 1 % 2 == 1))) ∧
  (∀ (s : State) (inst : Fin 4) (c : StepCtx) (u1 : State) (ws : List (Nat × List Byte)) (v : State), s.canonical = true →
    stepDue s (0x0300 + inst.val) 4 c → warpValid (s.fetched c) c (s.desc c) = true → (u1 = ((s.fetched c).fetchRuns c
    ((warpPairs (s.desc c)).flatMap (fun (p : Nat × Nat) => (s.fetched c).warpRuns c (s.desc c) p.1 p.2))).1) → (((s.fetched
    c).fetchRuns c ((warpPairs (s.desc c)).flatMap (fun (p : Nat × Nat) => (s.fetched c).warpRuns c (s.desc c) p.1 p.2))).2 =
    true) → (ws = (warpPairs (s.desc c)).flatMap (fun (p : Nat × Nat) => (u1.warpOut c (s.desc c) p.1 p.2).1)) → v =
    (u1.judgeWrites c.issuer ws).1 → (u1.judgeWrites c.issuer ws).2 = none → completes (exec (.rectPair inst .ok) s) (fun t =>
    t.mem = (v.writes ws).mem ∧ stepTaken s t c (leAt (s.desc c) 2 1 % 2 == 1))) ∧
  (∀ (s : State) (inst : Fin 4) (c : StepCtx) (u1 : State) (inp : Level) (ws : List (Nat × List Byte)) (v : State), s.canonical
    = true → stepDue s (0x0400 + inst.val) 0x10 c → pyrValid (s.fetched c) c (s.desc c) = true → (u1 = ((s.fetched c).fetchRuns
    c ((span ((((s.fetched c).carries c (s.desc c)).map (fun (k : Carry) => max (pyrFetch c (s.desc c)).2.2.1 k.bottom)).getD
    ((pyrFetch c (s.desc c)).2.2.1)) (pyrFetch c (s.desc c)).2.2.2).map (fun y => (lineAddr (c.inp 0).1 ((c.inp 0).2.getD 0) y
    + (pyrFetch c (s.desc c)).1 * (pixBytes (c.inp 0).1.rc.format), ((pyrFetch c (s.desc c)).2.1 - (pyrFetch c (s.desc c)).1) *
    (pixBytes (c.inp 0).1.rc.format))))).1) → (((s.fetched c).fetchRuns c ((span ((((s.fetched c).carries c (s.desc c)).map
    (fun (k : Carry) => max (pyrFetch c (s.desc c)).2.2.1 k.bottom)).getD ((pyrFetch c (s.desc c)).2.2.1)) (pyrFetch c (s.desc
    c)).2.2.2).map (fun y => (lineAddr (c.inp 0).1 ((c.inp 0).2.getD 0) y + (pyrFetch c (s.desc c)).1 * (pixBytes (c.inp
    0).1.rc.format), ((pyrFetch c (s.desc c)).2.1 - (pyrFetch c (s.desc c)).1) * (pixBytes (c.inp 0).1.rc.format))))).2 = true)
    → (inp = mkLevel (c.inp 0).1.rc.width (c.inp 0).1.frameH (fun x y => u1.pix (pixAddr (c.inp 0).1 ((c.inp 0).2.getD 0) x y)
    (pixBytes (c.inp 0).1.rc.format))) → (ws = (pyrOuts c (s.desc c)).flatMap (fun j => (span (c.rect j).2.2.1 (c.rect
    j).2.2.2).map (fun y => (pixAddr (c.out j).1 (c.out j).2 (c.rect j).1 y, (span (c.rect j).1 (c.rect j).2.1).flatMap (fun px
    => pyrBytes (c.inp 0).1.rc.width (c.inp 0).1.frameH inp (pixBytes (c.inp 0).1.rc.format) (leAt (s.desc c) 1 1) (pyrOut
    (s.desc c) j).1 (pyrOut (s.desc c) j).2 px y))))) → v = (u1.judgeWrites c.issuer ws).1 → (u1.judgeWrites c.issuer ws).2 =
    none → completes (exec (.pyramid inst .ok) s) (fun t => t.mem = (v.writes ws).mem ∧ stepTaken s t c (leAt (s.desc c) 3 1 %
    2 == 1))) ∧
  (∀ (s : State) (inst : Fin 4) (c : StepCtx) (u1 : State) (mo : Motion) (job : StrJob) (u2 : State) (ws : List (Nat × List
    Byte)) (v : State), s.canonical = true → stepDue s (0x0500 + inst.val) 0x20 c → strValid (s.fetched c) c (s.desc c) = true
    → (u1 = ((s.fetched c).fetchRuns c (if (parseStr (s.desc c)).motion == 0 then [] else [(motionAddr (parseStr (s.desc
    c)).motion c.seq, 64)])).1) → (((s.fetched c).fetchRuns c (if (parseStr (s.desc c)).motion == 0 then [] else [(motionAddr
    (parseStr (s.desc c)).motion c.seq, 64)])).2 = true) → mo = parseMotion (Memory.bytes u1.mem (motionAddr (parseStr (s.desc
    c)).motion c.seq) 64) → (job = strJob c (parseStr (s.desc c)) (if ((parseStr (s.desc c)).motion != 0 && mo.accepted c.seq
    ((parseStr (s.desc c)).pred == 1) ((parseStr (s.desc c)).pred == 1) ((parseStr (s.desc c)).pred == 3 || (parseStr (s.desc
    c)).fallback == 3)) then some mo else none)) → u2 = (u1.fetchRuns c job.runs).1 → (u1.fetchRuns c job.runs).2 = true → (ws
    = (job.results u2).1.mapIdx (fun i row => (pixAddr (c.out 0).1 (c.out 0).2 job.x0 (job.y0 + i), row.flatMap (fun p =>
    leBytes 2 p.word))) ++ (if decide (2 ≤ c.outs.length) then (job.results u2).1.mapIdx (fun i row => (pixAddr (c.out 1).1
    (c.out 1).2 job.x0 (job.y0 + i), row.map (fun p => BitVec.ofNat 8 (if p.code == 0 then p.conf else 0)))) else [])) → v =
    (u2.judgeWrites c.issuer ws).1 → (u2.judgeWrites c.issuer ws).2 = none → completes (exec (.stereo inst .ok) s) (fun t =>
    t.mem = (v.writes ws).mem ∧ stepTaken s t c (true))) ∧
  (∀ (s : State) (inst : Fin 4) (c : StepCtx) (job : FlwJob) (ws : List (Nat × List Byte)) (v : State), s.canonical = true →
    stepDue s (0x0600 + inst.val) 0x30 c → flwValid (s.fetched c) c (s.desc c) = true → (c.inp 1).2 = none → job = flwJob c
    (parseFlw (s.desc c)) → (ws = job.stores c ((span job.y0 job.y1).map (fun _ => (span job.x0 job.x1).map (fun _ =>
    FlwPix.noData)))) → v = ((s.fetched c).judgeWrites c.issuer ws).1 → ((s.fetched c).judgeWrites c.issuer ws).2 = none →
    completes (exec (.flow inst .ok) s) (fun t => t.mem = (v.writes ws).mem ∧ stepTaken s t c (true))) ∧
  (∀ (s : State) (inst : Fin 4) (c : StepCtx) (job : FlwJob) (u0 : State) (u1 : State) (ws : List (Nat × List Byte)) (v :
    State), s.canonical = true → stepDue s (0x0600 + inst.val) 0x30 c → flwValid (s.fetched c) c (s.desc c) = true → (c.inp
    1).2 ≠ none → job = flwJob c (parseFlw (s.desc c)) → u0 = ((s.fetched c).fetchRuns c job.runs).1 → ((s.fetched c).fetchRuns
    c job.runs).2 = true → u1 = (u0.fetchRuns c (job.warpRuns u0)).1 → (u0.fetchRuns c (job.warpRuns u0)).2 = true → ws =
    job.stores c (job.results u1).1 → v = (u1.judgeWrites c.issuer ws).1 → (u1.judgeWrites c.issuer ws).2 = none → completes
    (exec (.flow inst .ok) s) (fun t => t.mem = (v.writes ws).mem ∧ stepTaken s t c (true))) ∧
  (∀ (s : State) (inst : Fin 4) (c : StepCtx) (u1 : State) (kept : List Corner) (ws : List (Nat × List Byte)) (v : State),
    s.canonical = true → stepDue s (0x0700 + inst.val) 0x40 c → ftrValid (s.fetched c) c (s.desc c) = true → u1 = (((s.fetched
    c).setFlag (Reg.FTR_STATUS inst.val) F.FTR_STATUS.MATCH false).fetchRuns c (ftrRuns (ftrLevels c (parseFtr (s.desc c))))).1
    → (((s.fetched c).setFlag (Reg.FTR_STATUS inst.val) F.FTR_STATUS.MATCH false).fetchRuns c (ftrRuns (ftrLevels c (parseFtr
    (s.desc c))))).2 = true → (kept = quotaKept (parseFtr (s.desc c)) (bucketed (parseFtr (s.desc c)) ((ftrLevels c (parseFtr
    (s.desc c))).flatMap (fun l => l.survivors  u1 (parseFtr (s.desc c)))))) → (ws = [(pixAddr (c.out 0).1 (c.out 0).2 0
    c.tile, ((kept.foldr insertCorner []).mapIdx (fun i p => ftrRecord u1 c (ftrLevels c (parseFtr (s.desc c)))
    (u1.patterns.getD (c.unit % 256) []) i p) ++ List.replicate ((parseFtr (s.desc c)).quota - kept.length)
    ftrEmpty).flatten)]) → v = (u1.judgeWrites c.issuer ws).1 → (u1.judgeWrites c.issuer ws).2 = none → completes (exec
    (.feature inst .ok) s) (fun t => t.mem = (v.writes ws).mem ∧ stepTaken s t c (true))) ∧
  (∀ (s : State) (inst : Fin 4) (c : StepCtx) (u1 : State) (ws : List (Nat × List Byte)) (v : State), s.canonical = true →
    stepDue s (0x0700 + inst.val) 0x41 c → matchValid (s.desc c) = true → (c.inp 1).2 = none → u1 = (((s.fetched c).setFlag
    (Reg.FTR_STATUS inst.val) F.FTR_STATUS.MATCH true).fetchRuns c [(pixAddr (c.inFrameOf 0).1 (c.inFrameOf 0).2 0 c.tile, 64 *
    (c.inFrameOf 0).1.rc.width)]).1 → (((s.fetched c).setFlag (Reg.FTR_STATUS inst.val) F.FTR_STATUS.MATCH true).fetchRuns c
    [(pixAddr (c.inFrameOf 0).1 (c.inFrameOf 0).2 0 c.tile, 64 * (c.inFrameOf 0).1.rc.width)]).2 = true → (ws = [(pixAddr
    (c.out 0).1 (c.out 0).2 0 c.tile, (((List.range (c.inFrameOf 0).1.rc.width).map (fun i => u1.ftrRec (pixAddr (c.inFrameOf
    0).1 (c.inFrameOf 0).2 i c.tile))).map (fun q => if q.empty then MatchRec.emptyQuery else ⟨0, q.flagged, false, false, 256,
    256, 1, 0xFFF, 0x7FFF⟩)).flatMap (fun m => leBytes 8 m.word))]) → v = (u1.judgeWrites c.issuer ws).1 → (u1.judgeWrites
    c.issuer ws).2 = none → completes (exec (.matchRecords inst .ok) s) (fun t => t.mem = (v.writes ws).mem ∧ stepTaken s t c
    (true))) ∧
  (∀ (s : State) (inst : Fin 4) (c : StepCtx) (u0 : State) (qs : List FtrRec) (u1 : State) (mo : Motion) (ws : List (Nat × List
    Byte)) (v : State), s.canonical = true → stepDue s (0x0700 + inst.val) 0x41 c → matchValid (s.desc c) = true → (c.inp 1).2
    ≠ none → (u0 = (((s.fetched c).setFlag (Reg.FTR_STATUS inst.val) F.FTR_STATUS.MATCH true).fetchRuns c ((if (parseMatch
    (s.desc c)).pred == 3 then [(motionAddr (parseMatch (s.desc c)).motion c.seq, 64)] else []) ++ [(pixAddr (c.inFrameOf 0).1
    (c.inFrameOf 0).2 0 c.tile, 64 * (c.inFrameOf 0).1.rc.width)] ++ (span (candLines (parseMatch (s.desc c)) c.tile
    (c.inFrameOf 0).1.frameH (c.inFrameOf 1).1.frameH).1 (candLines (parseMatch (s.desc c)) c.tile (c.inFrameOf 0).1.frameH
    (c.inFrameOf 1).1.frameH).2).map (fun y => (pixAddr (c.inFrameOf 1).1 (c.inFrameOf 1).2 0 y, 64 * (c.inFrameOf
    1).1.rc.width)))).1) → ((((s.fetched c).setFlag (Reg.FTR_STATUS inst.val) F.FTR_STATUS.MATCH true).fetchRuns c ((if
    (parseMatch (s.desc c)).pred == 3 then [(motionAddr (parseMatch (s.desc c)).motion c.seq, 64)] else []) ++ [(pixAddr
    (c.inFrameOf 0).1 (c.inFrameOf 0).2 0 c.tile, 64 * (c.inFrameOf 0).1.rc.width)] ++ (span (candLines (parseMatch (s.desc c))
    c.tile (c.inFrameOf 0).1.frameH (c.inFrameOf 1).1.frameH).1 (candLines (parseMatch (s.desc c)) c.tile (c.inFrameOf
    0).1.frameH (c.inFrameOf 1).1.frameH).2).map (fun y => (pixAddr (c.inFrameOf 1).1 (c.inFrameOf 1).2 0 y, 64 * (c.inFrameOf
    1).1.rc.width)))).2 = true) → (qs = (List.range (c.inFrameOf 0).1.rc.width).map (fun i => u0.ftrRec (pixAddr (c.inFrameOf
    0).1 (c.inFrameOf 0).2 i c.tile))) → (u1 = (u0.fetchRuns c (if (parseMatch (s.desc c)).pred == 1 then ((qs.filter (fun q =>
    !q.empty)).filterMap (u0.matchFlowAt c (parseMatch (s.desc c)))).eraseDups.map (fun a => (a, 4)) else [])).1) →
    ((u0.fetchRuns c (if (parseMatch (s.desc c)).pred == 1 then ((qs.filter (fun q => !q.empty)).filterMap (u0.matchFlowAt c
    (parseMatch (s.desc c)))).eraseDups.map (fun a => (a, 4)) else [])).2 = true) → mo = parseMotion (Memory.bytes u1.mem
    (motionAddr (parseMatch (s.desc c)).motion c.seq) 64) → (ws = [(pixAddr (c.out 0).1 (c.out 0).2 0 c.tile, (qs.map (fun q =>
    matchOne (parseMatch (s.desc c)) q (u1.matchPred c (parseMatch (s.desc c)) (if mo.accepted c.seq true false false then some
    mo else none) q) (u1.coveredLines (c.inFrameOf 1).1 (candLines (parseMatch (s.desc c)) c.tile (c.inFrameOf 0).1.frameH
    (c.inFrameOf 1).1.frameH).1 (candLines (parseMatch (s.desc c)) c.tile (c.inFrameOf 0).1.frameH (c.inFrameOf 1).1.frameH).2)
    ((span (candLines (parseMatch (s.desc c)) c.tile (c.inFrameOf 0).1.frameH (c.inFrameOf 1).1.frameH).1 (candLines
    (parseMatch (s.desc c)) c.tile (c.inFrameOf 0).1.frameH (c.inFrameOf 1).1.frameH).2).flatMap (fun y => (List.range
    (c.inFrameOf 1).1.rc.width).map (fun i => (y, i, u1.ftrRec (pixAddr (c.inFrameOf 1).1 (c.inFrameOf 1).2 i y))))))).flatMap
    (fun m => leBytes 8 m.word))]) → v = (u1.judgeWrites c.issuer ws).1 → (u1.judgeWrites c.issuer ws).2 = none → completes
    (exec (.matchRecords inst .ok) s) (fun t => t.mem = (v.writes ws).mem ∧ stepTaken s t c (true)))

/-- COPY2D writes the source lines as one byte stream cut into destination lines, FILL and SPM_FILL write the repeated pattern, SPM_COPY copies what it read before, RESHUFFLE moves elements or bits between planes (R333 and its table); each counts one step and leaves the next due. BM_RESUME with GO ends a halt; without GO, or with no halt, it does nothing. -/
def Obligations.BlockMovers : Prop :=
  (∀ (s : State) (mover : Fin 8) (c : StepCtx) (u1 : State) (ws : List (Nat × List Byte)) (v : State), s.canonical = true →
    stepDue s (0x0900 + mover.val) 0x60 c → bmValid (s.fetched c) c (s.desc c) = true → overlap ((parseBm (s.desc c)).srcExtent
    (s.fetched c) c).1 ((parseBm (s.desc c)).srcExtent (s.fetched c) c).2 ((parseBm (s.desc c)).dstExtent (s.fetched c) c).1
    ((parseBm (s.desc c)).dstExtent (s.fetched c) c).2 = false → (u1 = ((s.fetched c).fetchRuns c ((List.range (parseBm (s.desc
    c)).srcLines).flatMap (fun l => (parseBm (s.desc c)).srcRuns (s.fetched c) c 0 l))).1) → (((s.fetched c).fetchRuns c
    ((List.range (parseBm (s.desc c)).srcLines).flatMap (fun l => (parseBm (s.desc c)).srcRuns (s.fetched c) c 0 l))).2 = true)
    → (ws = ((splitLines (parseBm (s.desc c)).dstLen (parseBm (s.desc c)).dstLines ((List.range (parseBm (s.desc
    c)).srcLines).flatMap (fun l => ((parseBm (s.desc c)).srcRuns (s.fetched c) c 0 l).flatMap (fun r => u1.fetch r.1
    r.2)))).mapIdx (fun l x => ((parseBm (s.desc c)).dstWrites u1 c 0 l x).1)).flatten) → v = (u1.judgeWrites c.issuer ws).1 →
    (u1.judgeWrites c.issuer ws).2 = none → completes (exec (.copy2d mover .ok) s) (fun t => t.mem = (v.writes ws).mem ∧
    stepTaken s t c ((parseBm (s.desc c)).last))) ∧
  (∀ (s : State) (mover : Fin 8) (c : StepCtx) (ws : List (Nat × List Byte)) (v : State), s.canonical = true → stepDue s
    (0x0900 + mover.val) 0x61 c → bmValid (s.fetched c) c (s.desc c) = true → (ws = (List.range (parseBm (s.desc
    c)).dstLines).flatMap (fun l => ((parseBm (s.desc c)).dstWrites (s.fetched c) c 0 l (patternLine (parseBm (s.desc c)).param
    (parseBm (s.desc c)).dstLen)).1)) → v = ((s.fetched c).judgeWrites c.issuer ws).1 → ((s.fetched c).judgeWrites c.issuer
    ws).2 = none → completes (exec (.fill mover .ok) s) (fun t => t.mem = (v.writes ws).mem ∧ stepTaken s t c ((parseBm (s.desc
    c)).last))) ∧
  (∀ (s : State) (mover : Fin 8) (c : StepCtx) (ws : List (Nat × List Byte)) (v : State), s.canonical = true → stepDue s
    (0x0900 + mover.val) 0x62 c → bmValid (s.fetched c) c (s.desc c) = true → (ws = (List.range (parseBm (s.desc
    c)).dstLines).flatMap (fun l => ((parseBm (s.desc c)).dstWrites (s.fetched c) c 0 l (patternLine (parseBm (s.desc c)).param
    (parseBm (s.desc c)).dstLen)).1)) → v = ((s.fetched c).judgeWrites c.issuer ws).1 → ((s.fetched c).judgeWrites c.issuer
    ws).2 = none → completes (exec (.spmFill mover .ok) s) (fun t => t.mem = (v.writes ws).mem ∧ stepTaken s t c ((parseBm
    (s.desc c)).last))) ∧
  (∀ (s : State) (mover : Fin 8) (c : StepCtx) (u1 : State) (ws : List (Nat × List Byte)) (v : State), s.canonical = true →
    stepDue s (0x0900 + mover.val) 0x63 c → bmValid (s.fetched c) c (s.desc c) = true → (u1 = ((s.fetched c).fetchRuns c
    ((List.range (parseBm (s.desc c)).srcLines).flatMap (fun l => (parseBm (s.desc c)).srcRuns (s.fetched c) c 0 l))).1) →
    (((s.fetched c).fetchRuns c ((List.range (parseBm (s.desc c)).srcLines).flatMap (fun l => (parseBm (s.desc c)).srcRuns
    (s.fetched c) c 0 l))).2 = true) → (ws = ((splitLines (parseBm (s.desc c)).dstLen (parseBm (s.desc c)).dstLines
    ((List.range (parseBm (s.desc c)).srcLines).flatMap (fun l => ((parseBm (s.desc c)).srcRuns (s.fetched c) c 0 l).flatMap
    (fun r => u1.fetch r.1 r.2)))).mapIdx (fun l x => ((parseBm (s.desc c)).dstWrites u1 c 0 l x).1)).flatten) → v =
    (u1.judgeWrites c.issuer ws).1 → (u1.judgeWrites c.issuer ws).2 = none → completes (exec (.spmCopy mover .ok) s) (fun t =>
    t.mem = (v.writes ws).mem ∧ stepTaken s t c ((parseBm (s.desc c)).last))) ∧
  (∀ (s : State) (mover : Fin 8) (c : StepCtx) (u1 : State) (planes : List (List (List Byte))) (ws : List (Nat × List Byte)) (v
    : State), s.canonical = true → stepDue s (0x0900 + mover.val) 0x64 c → bmValid (s.fetched c) c (s.desc c) = true → overlap
    ((parseBm (s.desc c)).srcExtent (s.fetched c) c).1 ((parseBm (s.desc c)).srcExtent (s.fetched c) c).2 ((parseBm (s.desc
    c)).dstExtent (s.fetched c) c).1 ((parseBm (s.desc c)).dstExtent (s.fetched c) c).2 = false → (u1 = ((s.fetched
    c).fetchRuns c ((List.range (parseBm (s.desc c)).srcPlanes).flatMap (fun p => (List.range (parseBm (s.desc
    c)).srcLines).flatMap (fun l => (parseBm (s.desc c)).srcRuns (s.fetched c) c p l)))).1) → (((s.fetched c).fetchRuns c
    ((List.range (parseBm (s.desc c)).srcPlanes).flatMap (fun p => (List.range (parseBm (s.desc c)).srcLines).flatMap (fun l =>
    (parseBm (s.desc c)).srcRuns (s.fetched c) c p l)))).2 = true) → (planes = (List.range (parseBm (s.desc c)).srcPlanes).map
    (fun p => (List.range (parseBm (s.desc c)).srcLines).map (fun l => ((parseBm (s.desc c)).srcRuns (s.fetched c) c p
    l).flatMap (fun r => u1.fetch r.1 r.2)))) → (ws = (((parseBm (s.desc c)).reshuffle planes).mapIdx (fun p ls => ls.mapIdx
    (fun l x => ((parseBm (s.desc c)).dstWrites u1 c p l x).1))).flatten.flatten) → v = (u1.judgeWrites c.issuer ws).1 →
    (u1.judgeWrites c.issuer ws).2 = none → completes (exec (.reshuffle mover .ok) s) (fun t => t.mem = (v.writes ws).mem ∧
    stepTaken s t c ((parseBm (s.desc c)).last))) ∧
  (∀ (s : State) (mover : Fin 8) (value : Word), s.canonical = true → completes (exec (.bmResume mover value) s) (fun t =>
    (value.getLsbD 0 = true → t.flag (Reg.BM_FAULT_HI mover.val) F.BM_FAULT_HI.VALID = false) ∧ ((value.getLsbD 0 = false ∨
    s.flag (Reg.BM_FAULT_HI mover.val) F.BM_FAULT_HI.VALID = false) → t = s) ∧ regsKept s t [Reg.BM_FAULT_HI mover.val,
    Reg.EJ_LOST_CNT, Reg.EJ_EVENT] ∧ t.mem = s.mem))

/-- A step whose descriptor is not valid ends with the fault DESC_INVALID: an event, LAST_FAULT code 1 on an engine, one more ended step, no store. Line-buffer parity ends an engine step with code 3. An error response halts a Block Mover with the address latched. -/
def Obligations.StepFaults : Prop :=
  (∀ (s : State) (inst : Fin 4) (c : StepCtx) (op : Nat), s.canonical = true → stepDue s (0x0300 + inst.val) op c → warpValid s
    c (s.desc c) = false → warpValid (s.fetched c) c (s.desc c) = false → completes (exec (.mesh inst .ok) s) (fun t => counted
    s t (endedCnt (0x0300 + inst.val)) 1 ∧ t.flag (engErr (0x0300 + inst.val)) ⟨4, 4⟩ = true ∧ t.mem = s.mem ∧ t.fld (engBase
    (0x0300 + inst.val) + 0xC) ⟨31, 28⟩ = 1)) ∧
  (∀ (s : State) (inst : Fin 4) (c : StepCtx), s.canonical = true → s.ctx? (0x0300 + inst.val) = some c → leAt (s.desc c) 0 1 =
    1 → completes (exec (.mesh inst .lbParity) s) (fun t => counted s t (endedCnt (0x0300 + inst.val)) 1 ∧ t.flag (engErr
    (0x0300 + inst.val)) ⟨6, 6⟩ = true ∧ t.fld (engBase (0x0300 + inst.val) + 0xC) ⟨31, 28⟩ = 3 ∧ t.mem = s.mem)) ∧
  (∀ (s : State) (inst : Fin 4) (c : StepCtx) (op : Nat), s.canonical = true → stepDue s (0x0300 + inst.val) op c → warpValid s
    c (s.desc c) = false → warpValid (s.fetched c) c (s.desc c) = false → completes (exec (.affine inst .ok) s) (fun t =>
    counted s t (endedCnt (0x0300 + inst.val)) 1 ∧ t.flag (engErr (0x0300 + inst.val)) ⟨4, 4⟩ = true ∧ t.mem = s.mem ∧ t.fld
    (engBase (0x0300 + inst.val) + 0xC) ⟨31, 28⟩ = 1)) ∧
  (∀ (s : State) (inst : Fin 4) (c : StepCtx), s.canonical = true → s.ctx? (0x0300 + inst.val) = some c → leAt (s.desc c) 0 1 =
    2 → completes (exec (.affine inst .lbParity) s) (fun t => counted s t (endedCnt (0x0300 + inst.val)) 1 ∧ t.flag (engErr
    (0x0300 + inst.val)) ⟨6, 6⟩ = true ∧ t.fld (engBase (0x0300 + inst.val) + 0xC) ⟨31, 28⟩ = 3 ∧ t.mem = s.mem)) ∧
  (∀ (s : State) (inst : Fin 4) (c : StepCtx) (op : Nat), s.canonical = true → stepDue s (0x0300 + inst.val) op c → warpValid s
    c (s.desc c) = false → warpValid (s.fetched c) c (s.desc c) = false → completes (exec (.homography inst .ok) s) (fun t =>
    counted s t (endedCnt (0x0300 + inst.val)) 1 ∧ t.flag (engErr (0x0300 + inst.val)) ⟨4, 4⟩ = true ∧ t.mem = s.mem ∧ t.fld
    (engBase (0x0300 + inst.val) + 0xC) ⟨31, 28⟩ = 1)) ∧
  (∀ (s : State) (inst : Fin 4) (c : StepCtx), s.canonical = true → s.ctx? (0x0300 + inst.val) = some c → leAt (s.desc c) 0 1 =
    3 → completes (exec (.homography inst .lbParity) s) (fun t => counted s t (endedCnt (0x0300 + inst.val)) 1 ∧ t.flag (engErr
    (0x0300 + inst.val)) ⟨6, 6⟩ = true ∧ t.fld (engBase (0x0300 + inst.val) + 0xC) ⟨31, 28⟩ = 3 ∧ t.mem = s.mem)) ∧
  (∀ (s : State) (inst : Fin 4) (c : StepCtx) (op : Nat), s.canonical = true → stepDue s (0x0300 + inst.val) op c → warpValid s
    c (s.desc c) = false → warpValid (s.fetched c) c (s.desc c) = false → completes (exec (.rectPair inst .ok) s) (fun t =>
    counted s t (endedCnt (0x0300 + inst.val)) 1 ∧ t.flag (engErr (0x0300 + inst.val)) ⟨4, 4⟩ = true ∧ t.mem = s.mem ∧ t.fld
    (engBase (0x0300 + inst.val) + 0xC) ⟨31, 28⟩ = 1)) ∧
  (∀ (s : State) (inst : Fin 4) (c : StepCtx), s.canonical = true → s.ctx? (0x0300 + inst.val) = some c → leAt (s.desc c) 0 1 =
    4 → completes (exec (.rectPair inst .lbParity) s) (fun t => counted s t (endedCnt (0x0300 + inst.val)) 1 ∧ t.flag (engErr
    (0x0300 + inst.val)) ⟨6, 6⟩ = true ∧ t.fld (engBase (0x0300 + inst.val) + 0xC) ⟨31, 28⟩ = 3 ∧ t.mem = s.mem)) ∧
  (∀ (s : State) (inst : Fin 4) (c : StepCtx) (op : Nat), s.canonical = true → stepDue s (0x0400 + inst.val) op c → pyrValid s
    c (s.desc c) = false → pyrValid (s.fetched c) c (s.desc c) = false → completes (exec (.pyramid inst .ok) s) (fun t =>
    counted s t (endedCnt (0x0400 + inst.val)) 1 ∧ t.flag (engErr (0x0400 + inst.val)) ⟨4, 4⟩ = true ∧ t.mem = s.mem ∧ t.fld
    (engBase (0x0400 + inst.val) + 0xC) ⟨31, 28⟩ = 1)) ∧
  (∀ (s : State) (inst : Fin 4) (c : StepCtx), s.canonical = true → s.ctx? (0x0400 + inst.val) = some c → leAt (s.desc c) 0 1 =
    0x10 → completes (exec (.pyramid inst .lbParity) s) (fun t => counted s t (endedCnt (0x0400 + inst.val)) 1 ∧ t.flag (engErr
    (0x0400 + inst.val)) ⟨6, 6⟩ = true ∧ t.fld (engBase (0x0400 + inst.val) + 0xC) ⟨31, 28⟩ = 3 ∧ t.mem = s.mem)) ∧
  (∀ (s : State) (inst : Fin 4) (c : StepCtx) (op : Nat), s.canonical = true → stepDue s (0x0500 + inst.val) op c → strValid s
    c (s.desc c) = false → strValid (s.fetched c) c (s.desc c) = false → completes (exec (.stereo inst .ok) s) (fun t =>
    counted s t (endedCnt (0x0500 + inst.val)) 1 ∧ t.flag (engErr (0x0500 + inst.val)) ⟨4, 4⟩ = true ∧ t.mem = s.mem ∧ t.fld
    (engBase (0x0500 + inst.val) + 0xC) ⟨31, 28⟩ = 1)) ∧
  (∀ (s : State) (inst : Fin 4) (c : StepCtx), s.canonical = true → s.ctx? (0x0500 + inst.val) = some c → leAt (s.desc c) 0 1 =
    0x20 → completes (exec (.stereo inst .lbParity) s) (fun t => counted s t (endedCnt (0x0500 + inst.val)) 1 ∧ t.flag (engErr
    (0x0500 + inst.val)) ⟨6, 6⟩ = true ∧ t.fld (engBase (0x0500 + inst.val) + 0xC) ⟨31, 28⟩ = 3 ∧ t.mem = s.mem)) ∧
  (∀ (s : State) (inst : Fin 4) (c : StepCtx) (op : Nat), s.canonical = true → stepDue s (0x0600 + inst.val) op c → flwValid s
    c (s.desc c) = false → flwValid (s.fetched c) c (s.desc c) = false → completes (exec (.flow inst .ok) s) (fun t => counted
    s t (endedCnt (0x0600 + inst.val)) 1 ∧ t.flag (engErr (0x0600 + inst.val)) ⟨4, 4⟩ = true ∧ t.mem = s.mem ∧ t.fld (engBase
    (0x0600 + inst.val) + 0xC) ⟨31, 28⟩ = 1)) ∧
  (∀ (s : State) (inst : Fin 4) (c : StepCtx), s.canonical = true → s.ctx? (0x0600 + inst.val) = some c → leAt (s.desc c) 0 1 =
    0x30 → completes (exec (.flow inst .lbParity) s) (fun t => counted s t (endedCnt (0x0600 + inst.val)) 1 ∧ t.flag (engErr
    (0x0600 + inst.val)) ⟨6, 6⟩ = true ∧ t.fld (engBase (0x0600 + inst.val) + 0xC) ⟨31, 28⟩ = 3 ∧ t.mem = s.mem)) ∧
  (∀ (s : State) (inst : Fin 4) (c : StepCtx), s.canonical = true → s.ctx? (0x0700 + inst.val) = some c → leAt (s.desc c) 0 1 =
    0x40 → completes (exec (.feature inst .lbParity) s) (fun t => counted s t (endedCnt (0x0700 + inst.val)) 1 ∧ t.flag (engErr
    (0x0700 + inst.val)) ⟨6, 6⟩ = true ∧ t.fld (engBase (0x0700 + inst.val) + 0xC) ⟨31, 28⟩ = 3 ∧ t.mem = s.mem)) ∧
  (∀ (s : State) (inst : Fin 4) (c : StepCtx), s.canonical = true → s.ctx? (0x0700 + inst.val) = some c → leAt (s.desc c) 0 1 =
    0x41 → completes (exec (.matchRecords inst .lbParity) s) (fun t => counted s t (endedCnt (0x0700 + inst.val)) 1 ∧ t.flag
    (engErr (0x0700 + inst.val)) ⟨6, 6⟩ = true ∧ t.fld (engBase (0x0700 + inst.val) + 0xC) ⟨31, 28⟩ = 3 ∧ t.mem = s.mem)) ∧
  (∀ (s : State) (inst : Fin 4) (c : StepCtx) (op : Nat), s.canonical = true → stepDue s (0x0700 + inst.val) op c → op ≠ 0x41 →
    (op == 0x40 && ftrValid s c (s.desc c)) = false → (op == 0x40 && ftrValid (s.fetched c) c (s.desc c)) = false → completes
    (exec (.feature inst .ok) s) (fun t => counted s t (endedCnt (0x0700 + inst.val)) 1 ∧ t.flag (engErr (0x0700 + inst.val))
    ⟨4, 4⟩ = true ∧ t.mem = s.mem ∧ t.fld (engBase (0x0700 + inst.val) + 0xC) ⟨31, 28⟩ = 1)) ∧
  (∀ (s : State) (inst : Fin 4) (c : StepCtx) (op : Nat), s.canonical = true → stepDue s (0x0700 + inst.val) op c → op = 0x41 →
    matchValid (s.desc c) = false → completes (exec (.matchRecords inst .ok) s) (fun t => counted s t (endedCnt (0x0700 +
    inst.val)) 1 ∧ t.flag (engErr (0x0700 + inst.val)) ⟨4, 4⟩ = true ∧ t.mem = s.mem ∧ t.fld (engBase (0x0700 + inst.val) +
    0xC) ⟨31, 28⟩ = 1)) ∧
  (∀ (s : State) (mover : Fin 8) (c : StepCtx) (op : Nat), s.canonical = true → stepDue s (0x0900 + mover.val) op c → bmValid s
    c (s.desc c) = false → bmValid (s.fetched c) c (s.desc c) = false → completes (exec (.copy2d mover .ok) s) (fun t =>
    counted s t (endedCnt (0x0900 + mover.val)) 1 ∧ t.flag (engErr (0x0900 + mover.val)) ⟨3, 3⟩ = true ∧ t.mem = s.mem)) ∧
  (∀ (s : State) (mover : Fin 8) (c : StepCtx) (a : Nat) (w : Bool), s.canonical = true → s.ctx? (0x0900 + mover.val) = some c
    → leAt (s.desc c) 0 1 = 0x60 → completes (exec (.copy2d mover (.bus a w)) s) (fun t => counted s t (endedCnt (0x0900 +
    mover.val)) 1 ∧ t.flag (Reg.BM_FAULT_HI mover.val) F.BM_FAULT_HI.VALID = true ∧ t.flag (Reg.BM_FAULT_HI mover.val)
    F.BM_FAULT_HI.WRITE = w ∧ t.reg (Reg.BM_FAULT_LO mover.val) = w32 a ∧ t.mem = s.mem)) ∧
  (∀ (s : State) (mover : Fin 8) (c : StepCtx) (op : Nat), s.canonical = true → stepDue s (0x0900 + mover.val) op c → bmValid s
    c (s.desc c) = false → bmValid (s.fetched c) c (s.desc c) = false → completes (exec (.fill mover .ok) s) (fun t => counted
    s t (endedCnt (0x0900 + mover.val)) 1 ∧ t.flag (engErr (0x0900 + mover.val)) ⟨3, 3⟩ = true ∧ t.mem = s.mem)) ∧
  (∀ (s : State) (mover : Fin 8) (c : StepCtx) (a : Nat) (w : Bool), s.canonical = true → s.ctx? (0x0900 + mover.val) = some c
    → leAt (s.desc c) 0 1 = 0x61 → completes (exec (.fill mover (.bus a w)) s) (fun t => counted s t (endedCnt (0x0900 +
    mover.val)) 1 ∧ t.flag (Reg.BM_FAULT_HI mover.val) F.BM_FAULT_HI.VALID = true ∧ t.flag (Reg.BM_FAULT_HI mover.val)
    F.BM_FAULT_HI.WRITE = w ∧ t.reg (Reg.BM_FAULT_LO mover.val) = w32 a ∧ t.mem = s.mem)) ∧
  (∀ (s : State) (mover : Fin 8) (c : StepCtx) (op : Nat), s.canonical = true → stepDue s (0x0900 + mover.val) op c → bmValid s
    c (s.desc c) = false → bmValid (s.fetched c) c (s.desc c) = false → completes (exec (.spmFill mover .ok) s) (fun t =>
    counted s t (endedCnt (0x0900 + mover.val)) 1 ∧ t.flag (engErr (0x0900 + mover.val)) ⟨3, 3⟩ = true ∧ t.mem = s.mem)) ∧
  (∀ (s : State) (mover : Fin 8) (c : StepCtx) (a : Nat) (w : Bool), s.canonical = true → s.ctx? (0x0900 + mover.val) = some c
    → leAt (s.desc c) 0 1 = 0x62 → completes (exec (.spmFill mover (.bus a w)) s) (fun t => counted s t (endedCnt (0x0900 +
    mover.val)) 1 ∧ t.flag (Reg.BM_FAULT_HI mover.val) F.BM_FAULT_HI.VALID = true ∧ t.flag (Reg.BM_FAULT_HI mover.val)
    F.BM_FAULT_HI.WRITE = w ∧ t.reg (Reg.BM_FAULT_LO mover.val) = w32 a ∧ t.mem = s.mem)) ∧
  (∀ (s : State) (mover : Fin 8) (c : StepCtx) (op : Nat), s.canonical = true → stepDue s (0x0900 + mover.val) op c → bmValid s
    c (s.desc c) = false → bmValid (s.fetched c) c (s.desc c) = false → completes (exec (.spmCopy mover .ok) s) (fun t =>
    counted s t (endedCnt (0x0900 + mover.val)) 1 ∧ t.flag (engErr (0x0900 + mover.val)) ⟨3, 3⟩ = true ∧ t.mem = s.mem)) ∧
  (∀ (s : State) (mover : Fin 8) (c : StepCtx) (a : Nat) (w : Bool), s.canonical = true → s.ctx? (0x0900 + mover.val) = some c
    → leAt (s.desc c) 0 1 = 0x63 → completes (exec (.spmCopy mover (.bus a w)) s) (fun t => counted s t (endedCnt (0x0900 +
    mover.val)) 1 ∧ t.flag (Reg.BM_FAULT_HI mover.val) F.BM_FAULT_HI.VALID = true ∧ t.flag (Reg.BM_FAULT_HI mover.val)
    F.BM_FAULT_HI.WRITE = w ∧ t.reg (Reg.BM_FAULT_LO mover.val) = w32 a ∧ t.mem = s.mem)) ∧
  (∀ (s : State) (mover : Fin 8) (c : StepCtx) (op : Nat), s.canonical = true → stepDue s (0x0900 + mover.val) op c → bmValid s
    c (s.desc c) = false → bmValid (s.fetched c) c (s.desc c) = false → completes (exec (.reshuffle mover .ok) s) (fun t =>
    counted s t (endedCnt (0x0900 + mover.val)) 1 ∧ t.flag (engErr (0x0900 + mover.val)) ⟨3, 3⟩ = true ∧ t.mem = s.mem)) ∧
  (∀ (s : State) (mover : Fin 8) (c : StepCtx) (a : Nat) (w : Bool), s.canonical = true → s.ctx? (0x0900 + mover.val) = some c
    → leAt (s.desc c) 0 1 = 0x64 → completes (exec (.reshuffle mover (.bus a w)) s) (fun t => counted s t (endedCnt (0x0900 +
    mover.val)) 1 ∧ t.flag (Reg.BM_FAULT_HI mover.val) F.BM_FAULT_HI.VALID = true ∧ t.flag (Reg.BM_FAULT_HI mover.val)
    F.BM_FAULT_HI.WRITE = w ∧ t.reg (Reg.BM_FAULT_LO mover.val) = w32 a ∧ t.mem = s.mem))

/-- On a tile in its compute phase whose step is of the operation, the command leaves in the tile the result tensors of the operation over the operands as the step reads them, with its counts of saturated elements, conversion events and indices out of range, and changes nothing else. The element rules are those of R248 to R250, R265 to R271 and R294 to R296; the model's readings of them are log entry 23, its free values log entry 22. -/
def Obligations.NeuralOperations : Prop :=
  (∀ (s : State) (tile : Fin 16) (c : StepCtx) (d : List Byte) (o : Td) (a : Opnd) (b : Opnd) (k : Opnd) (out : NtOut), s.ctx?
    (0x0800 + tile.val) = some c → (s.ntPhase tile.val).1 = 4 → (s.nt tile.val).computed = false → leAt (s.nt tile.val).desc 0
    1 = 0x50 → d = (s.nt tile.val).desc → o = parseTd ((s.nt tile.val).tds.getD 3 []) → a = s.ntOperand c 0 → (b = if usesB d
    then s.ntOperand c 1 else (⟨0x47, [1, 1, 1, 1, 1], #[], #[]⟩ : Opnd)) → (k = if usesC d then s.ntOperand c 2 else (⟨0x47,
    [1, 1, 1, 1, 1], #[], #[]⟩ : Opnd)) → (out = macAll (s.nt tile.val) o.dims a b k (fun l => chunk 32 ((List.range
    (a.dims.getD 0 1)).map (fun i => (some (i :: l.drop 1), i :: l.getD 0 0 :: (List.range 3).map (fun q => if b.dims.getD (q +
    2) 1 == 1 then 0 else l.getD (q + 2) 0)))))) → completes (exec (.matmul tile) s) (fun t => t = s.modNt tile.val (fun x =>
    { x with computed := true, res := out.res, sat := out.sat, odd := out.odd, idx := out.idx }))) ∧
  (∀ (s : State) (tile : Fin 16) (c : StepCtx) (d : List Byte) (o : Td) (a : Opnd) (b : Opnd) (k : Opnd) (taps : List Nat →
    List (List (Option (List Nat) × List Nat))) (out : NtOut), s.ctx? (0x0800 + tile.val) = some c → (s.ntPhase tile.val).1 = 4
    → (s.nt tile.val).computed = false → leAt (s.nt tile.val).desc 0 1 = 0x51 → d = (s.nt tile.val).desc → o = parseTd ((s.nt
    tile.val).tds.getD 3 []) → a = s.ntOperand c 0 → (b = if usesB d then s.ntOperand c 1 else (⟨0x47, [1, 1, 1, 1, 1], #[],
    #[]⟩ : Opnd)) → (k = if usesC d then s.ntOperand c 2 else (⟨0x47, [1, 1, 1, 1, 1], #[], #[]⟩ : Opnd)) → (taps = fun l =>
    (List.range (b.dims.getD 2 1)).flatMap (fun ky => (List.range (b.dims.getD 1 1)).map (fun kx => (List.range (b.dims.getD 0
    1)).map (fun ci => (((tapPos (parseConv d).transposed (l.getD 1 0) (parseConv d).padL kx (parseConv d).sx (parseConv d).dx
    (a.dims.getD 1 1)).bind (fun x => (tapPos (parseConv d).transposed (l.getD 2 0) (parseConv d).padT ky (parseConv d).sy
    (parseConv d).dy (a.dims.getD 2 1)).map (fun y => [l.getD 0 0 / max 1 (b.dims.getD 3 1 / max 1 (parseConv d).groups) *
    b.dims.getD 0 1 + ci, x, y, l.getD 3 0, 0]))), [ci, kx, ky, l.getD 0 0, 0]))))) → (out = macAll (s.nt tile.val) o.dims a b
    k (fun l => if nfMx a.f then (taps l).flatMap (chunk 32) else chunk 32 (taps l).flatten)) → completes (exec (.conv tile) s)
    (fun t => t = s.modNt tile.val (fun x =>
    { x with computed := true, res := out.res, sat := out.sat, odd := out.odd, idx := out.idx }))) ∧
  (∀ (s : State) (tile : Fin 16) (c : StepCtx) (d : List Byte) (o : Td) (a : Opnd) (b : Opnd) (k : Opnd) (rows : List AttnRow)
    (out : NtOut), s.ctx? (0x0800 + tile.val) = some c → (s.ntPhase tile.val).1 = 4 → (s.nt tile.val).computed = false → leAt
    (s.nt tile.val).desc 0 1 = 0x52 → d = (s.nt tile.val).desc → o = parseTd ((s.nt tile.val).tds.getD 3 []) → a = s.ntOperand
    c 0 → (b = if usesB d then s.ntOperand c 1 else (⟨0x47, [1, 1, 1, 1, 1], #[], #[]⟩ : Opnd)) → (k = if usesC d then
    s.ntOperand c 2 else (⟨0x47, [1, 1, 1, 1, 1], #[], #[]⟩ : Opnd)) → (rows = (coordsOf (o.dims.drop 1)).map (fun l =>
    (List.range (ceilDiv (b.dims.getD 1 1) 128)).foldl (fun r j => attnBlock d a b k (l.getD 0 0) (l.getD 1 0) (l.getD 2 0)
    (128 * j) (min 128 (b.dims.getD 1 1 - 128 * j)) r) ⟨none, Fp.zero, List.replicate (a.dims.getD 0 1) Fp.zero, 0⟩)) → (out =
    ⟨[fpRes o.dims (rows.flatMap (fun r => if r.m.isNone then List.replicate (a.dims.getD 0 1) Fp.zero else r.o.map (fun x =>
    f32quot x r.l)))], 0, (rows.map (fun r => r.odd + (if r.m.isNone then 1 else 0))).foldl (· + ·) 0, 0⟩) → completes (exec
    (.attention tile) s) (fun t => t = s.modNt tile.val (fun x =>
    { x with computed := true, res := out.res, sat := out.sat, odd := out.odd, idx := out.idx }))) ∧
  (∀ (s : State) (tile : Fin 16) (c : StepCtx) (d : List Byte) (o : Td) (a : Opnd) (b : Opnd) (out : NtOut), s.ctx? (0x0800 +
    tile.val) = some c → (s.ntPhase tile.val).1 = 4 → (s.nt tile.val).computed = false → leAt (s.nt tile.val).desc 0 1 = 0x53 →
    d = (s.nt tile.val).desc → o = parseTd ((s.nt tile.val).tds.getD 3 []) → a = s.ntOperand c 0 → (b = if usesB d then
    s.ntOperand c 1 else (⟨0x47, [1, 1, 1, 1, 1], #[], #[]⟩ : Opnd)) → (out = if nfInt a.f && !(leAt d 0x2E 1 == 1) && nfInt
    b.f && nfInt o.format && leAt d 0x29 1 != 3 then NtOut.plain [intRes o.dims ((coordsOf o.dims).map (fun l => eopInt (leAt d
    0x29 1) (a.int l) (b.int (l.mapIdx (fun q i => if b.dims.getD q 1 == 1 then 0 else i)))))] else NtOut.plain [fpRes o.dims
    ((coordsOf o.dims).map (fun l => eopFp (leAt d 0x29 1) (fp32.round (a.fp l)) (if leAt d 0x2E 1 == 1 then fp32.decode (leAt
    d 0x2A 4) else fp32.round (b.fp (l.mapIdx (fun q i => if b.dims.getD q 1 == 1 then 0 else i))))))]) → completes (exec
    (.elementwise tile) s) (fun t => t = s.modNt tile.val (fun x =>
    { x with computed := true, res := out.res, sat := out.sat, odd := out.odd, idx := out.idx }))) ∧
  (∀ (s : State) (tile : Fin 16) (c : StepCtx) (d : List Byte) (o : Td) (a : Opnd) (items : List (List (Nat × List Nat))) (sums
    : List (Int × Bool)) (out : NtOut), s.ctx? (0x0800 + tile.val) = some c → (s.ntPhase tile.val).1 = 4 → (s.nt
    tile.val).computed = false → leAt (s.nt tile.val).desc 0 1 = 0x54 → d = (s.nt tile.val).desc → o = parseTd ((s.nt
    tile.val).tds.getD 3 []) → a = s.ntOperand c 0 → items = ((coordsOf o.dims).map (reduceItems d a.dims)) → (sums = items.map
    (fun l => l.foldl (fun x p => satAdd x (a.int p.2)) (0, false))) → (out = if leAt d 0x29 1 = 0 then (if nfInt a.f && nfInt
    o.format then ⟨[intRes o.dims (sums.map (·.1))], (sums.filter (·.2)).length, 0, 0⟩ else NtOut.plain [fpRes o.dims
    ((items.map (fun l => l.map (fun p => (p.1, fp32.round (a.fp p.2))))).map (fun l => (l.foldl (fun x p => f32add x p.2)
    Fp.zero)))]) else if leAt d 0x29 1 = 1 then NtOut.plain [fpRes o.dims ((items.map (fun l => l.map (fun p => (p.1,
    fp32.round (a.fp p.2))))).map (fun l => f32div (l.foldl (fun x p => f32add x p.2) Fp.zero) (Fp.ofNat l.length)))] else if
    leAt d 0x29 1 = 4 then NtOut.plain [intRes o.dims ((items.map (fun l => l.map (fun p => (p.1, a.fp p.2)))).map (argBest
    true))] else if leAt d 0x29 1 = 5 then NtOut.plain [intRes o.dims ((items.map (fun l => l.map (fun p => (p.1, a.fp
    p.2)))).map (argBest false))] else if nfInt a.f then NtOut.plain [intRes o.dims (items.map (fun l => ((l.map (fun p =>
    a.int p.2)).head?.map (fun x => (l.map (fun p => a.int p.2)).tail.foldl (if leAt d 0x29 1 == 2 then max else min) x)).getD
    (signed 32 (Config.emptyWindow (leAt d 0x29 1 == 2)).toNat)))] else NtOut.plain [fpRes o.dims ((items.map (fun l => l.map
    (fun p => (p.1, fp32.round (a.fp p.2))))).map (fun l => ((l.map (·.2)).head?.map (fun x => (l.map (·.2)).tail.foldl
    (f32minMax (leAt d 0x29 1 == 2)) x)).getD (fp32.decode (Config.emptyWindow (leAt d 0x29 1 == 2)).toNat)))]) → completes
    (exec (.reduce tile) s) (fun t => t = s.modNt tile.val (fun x =>
    { x with computed := true, res := out.res, sat := out.sat, odd := out.odd, idx := out.idx }))) ∧
  (∀ (s : State) (tile : Fin 16) (c : StepCtx) (d : List Byte) (o : Td) (a : Opnd) (b : Opnd) (out : NtOut), s.ctx? (0x0800 +
    tile.val) = some c → (s.ntPhase tile.val).1 = 4 → (s.nt tile.val).computed = false → leAt (s.nt tile.val).desc 0 1 = 0x55 →
    d = (s.nt tile.val).desc → o = parseTd ((s.nt tile.val).tds.getD 3 []) → a = s.ntOperand c 0 → (b = if usesB d then
    s.ntOperand c 1 else (⟨0x47, [1, 1, 1, 1, 1], #[], #[]⟩ : Opnd)) → (out = NtOut.plain [fpRes o.dims ((coordsOf (o.dims.drop
    1)).flatMap (fun l => normLine d b ((List.range (o.dims.getD 0 1)).map (fun i => fp32.round (a.fp (i :: l))))))]) →
    completes (exec (.norm tile) s) (fun t => t = s.modNt tile.val (fun x =>
    { x with computed := true, res := out.res, sat := out.sat, odd := out.odd, idx := out.idx }))) ∧
  (∀ (s : State) (tile : Fin 16) (c : StepCtx) (d : List Byte) (o : Td) (a : Opnd) (b : Opnd) (src : List (Option Nat)) (out :
    NtOut), s.ctx? (0x0800 + tile.val) = some c → (s.ntPhase tile.val).1 = 4 → (s.nt tile.val).computed = false → leAt (s.nt
    tile.val).desc 0 1 = 0x56 → d = (s.nt tile.val).desc → o = parseTd ((s.nt tile.val).tds.getD 3 []) → a = s.ntOperand c 0 →
    (b = if usesB d then s.ntOperand c 1 else (⟨0x47, [1, 1, 1, 1, 1], #[], #[]⟩ : Opnd)) → (src = ((coordsOf o.dims).map (fun
    l => (indexAt b a.dims (leAt d 0x29 1) (l.getD (leAt d 0x29 1) 0)).map (fun p => lin a.dims (selectAt l (leAt d 0x29 1)
    p))))) → (out = ⟨[⟨o.dims, 2, src.map (fun p => (p.map (fun i => a.els.getD i 0)).getD 0), src.map (fun p => (p.map (fun i
    => a.scales.getD i 0)).getD 0)⟩], 0, 0, idxCount b a.dims (leAt d 0x29 1)⟩) → completes (exec (.gather tile) s) (fun t => t
    = s.modNt tile.val (fun x => { x with computed := true, res := out.res, sat := out.sat, odd := out.odd, idx := out.idx }))) ∧
  (∀ (s : State) (tile : Fin 16) (c : StepCtx) (d : List Byte) (o : Td) (a : Opnd) (b : Opnd) (k : Opnd) (cells : Array (Nat ×
    Bool × Nat)) (out : NtOut), s.ctx? (0x0800 + tile.val) = some c → (s.ntPhase tile.val).1 = 4 → (s.nt tile.val).computed =
    false → leAt (s.nt tile.val).desc 0 1 = 0x57 → d = (s.nt tile.val).desc → o = parseTd ((s.nt tile.val).tds.getD 3 []) → a =
    s.ntOperand c 0 → (b = if usesB d then s.ntOperand c 1 else (⟨0x47, [1, 1, 1, 1, 1], #[], #[]⟩ : Opnd)) → (k = if usesC d
    then s.ntOperand c 2 else (⟨0x47, [1, 1, 1, 1, 1], #[], #[]⟩ : Opnd)) → (cells = (List.range (volume a.dims)).foldl (fun (r
    : Array (Nat × Bool × Nat)) i => ((indexAt b k.dims (leAt d 0x29 1) ((unlin a.dims i).getD (leAt d 0x29 1) 0)).map (fun p
    => r.setIfInBounds (lin k.dims (selectAt (unlin a.dims i) (leAt d 0x29 1) p)) ((scatterOne k.f (leAt d 0x2A 1) ((r.getD
    (lin k.dims (selectAt (unlin a.dims i) (leAt d 0x29 1) p)) (0, false, 0)).1, (r.getD (lin k.dims (selectAt (unlin a.dims i)
    (leAt d 0x29 1) p)) (0, false, 0)).2.1) (a.els.getD i 0)).1, (scatterOne k.f (leAt d 0x2A 1) ((r.getD (lin k.dims (selectAt
    (unlin a.dims i) (leAt d 0x29 1) p)) (0, false, 0)).1, (r.getD (lin k.dims (selectAt (unlin a.dims i) (leAt d 0x29 1) p))
    (0, false, 0)).2.1) (a.els.getD i 0)).2, if leAt d 0x2A 1 == 3 then a.scales.getD i 0 else (r.getD (lin k.dims (selectAt
    (unlin a.dims i) (leAt d 0x29 1) p)) (0, false, 0)).2.2))).getD r) ((List.range (volume k.dims)).map (fun i => (k.els.getD
    i 0, false, k.scales.getD i 0))).toArray) → (out = ⟨[⟨o.dims, 2, cells.toList.map (·.1), cells.toList.map (fun x =>
    x.2.2)⟩], (cells.toList.filter (fun x => x.2.1)).length, 0, idxCount b k.dims (leAt d 0x29 1)⟩) → completes (exec (.scatter
    tile) s) (fun t => t = s.modNt tile.val (fun x =>
    { x with computed := true, res := out.res, sat := out.sat, odd := out.odd, idx := out.idx }))) ∧
  (∀ (s : State) (tile : Fin 16) (c : StepCtx) (d : List Byte) (o : Td) (a : Opnd) (b : Opnd) (out : NtOut), s.ctx? (0x0800 +
    tile.val) = some c → (s.ntPhase tile.val).1 = 4 → (s.nt tile.val).computed = false → leAt (s.nt tile.val).desc 0 1 = 0x58 →
    d = (s.nt tile.val).desc → o = parseTd ((s.nt tile.val).tds.getD 3 []) → a = s.ntOperand c 0 → (b = if usesB d then
    s.ntOperand c 1 else (⟨0x47, [1, 1, 1, 1, 1], #[], #[]⟩ : Opnd)) → (out = ⟨[fpRes o.dims ((coordsOf o.dims).map (fun l =>
    ((samplePos d a b (l.getD 1 0) (l.getD 2 0) (l.getD 0 0 % (max 1 (leAt d 0x2B 1)))).map (sampleAt d a (l.getD 0 0 / max 1
    (leAt d 0x2B 1)))).getD Fp.zero))], 0, ((coordsOf [1, o.dims.getD 1 1, o.dims.getD 2 1]).filter (fun l => (List.range (max
    1 (leAt d 0x2B 1))).any (fun q => (samplePos d a b (l.getD 1 0) (l.getD 2 0) q).isNone))).length, 0⟩) → completes (exec
    (.sample tile) s) (fun t => t = s.modNt tile.val (fun x =>
    { x with computed := true, res := out.res, sat := out.sat, odd := out.odd, idx := out.idx }))) ∧
  (∀ (s : State) (tile : Fin 16) (c : StepCtx) (o : Td) (a : Opnd) (out : NtOut), s.ctx? (0x0800 + tile.val) = some c →
    (s.ntPhase tile.val).1 = 4 → (s.nt tile.val).computed = false → leAt (s.nt tile.val).desc 0 1 = 0x59 → o = parseTd ((s.nt
    tile.val).tds.getD 3 []) → a = s.ntOperand c 0 → out = NtOut.plain [⟨o.dims, 2, a.els.toList, a.scales.toList⟩] → completes
    (exec (.permute tile) s) (fun t => t = s.modNt tile.val (fun x =>
    { x with computed := true, res := out.res, sat := out.sat, odd := out.odd, idx := out.idx }))) ∧
  (∀ (s : State) (tile : Fin 16) (c : StepCtx) (d : List Byte) (o : Td) (a : Opnd) (best : List (Nat × List Nat × Fp)) (out :
    NtOut), s.ctx? (0x0800 + tile.val) = some c → (s.ntPhase tile.val).1 = 4 → (s.nt tile.val).computed = false → leAt (s.nt
    tile.val).desc 0 1 = 0x5A → d = (s.nt tile.val).desc → o = parseTd ((s.nt tile.val).tds.getD 3 []) → a = s.ntOperand c 0 →
    (best = (coordsOf (a.dims.drop 1)).flatMap (fun l => ((((List.range (a.dims.getD 0 1)).map (fun i => (i, a.fp (i ::
    l)))).foldr (insertRank (topkBefore (leAt d 0x29 1 == 1))) []).take (leAt d 0x2A 2)).map (fun p => (p.1, l, p.2)))) → (out
    = NtOut.plain [if nfInt a.f then intRes o.dims (best.map (fun p => a.int (p.1 :: p.2.1))) else fpRes o.dims (best.map (fun
    p => fp32.round p.2.2)), intRes o.dims (best.map (fun p => (p.1 : Int)))]) → completes (exec (.topk tile) s) (fun t => t =
    s.modNt tile.val (fun x => { x with computed := true, res := out.res, sat := out.sat, odd := out.odd, idx := out.idx }))) ∧
  (∀ (s : State) (tile : Fin 16) (c : StepCtx) (d : List Byte) (o : Td) (a : Opnd) (b : Opnd) (order : List (Nat × Fp)) (kept :
    List Nat) (out : NtOut), s.ctx? (0x0800 + tile.val) = some c → (s.ntPhase tile.val).1 = 4 → (s.nt tile.val).computed =
    false → leAt (s.nt tile.val).desc 0 1 = 0x5B → d = (s.nt tile.val).desc → o = parseTd ((s.nt tile.val).tds.getD 3 []) → a =
    s.ntOperand c 0 → (b = if usesB d then s.ntOperand c 1 else (⟨0x47, [1, 1, 1, 1, 1], #[], #[]⟩ : Opnd)) → (order =
    (((List.range (b.dims.getD 0 1)).map (fun i => (i, fp32.round (b.fp [i, 0, 0, 0, 0])))).filter (fun p => !p.2.lt
    (fp32.decode (leAt d 0x32 4)))).foldr (insertRank (topkBefore true)) []) → (kept = order.foldl (fun (l : List Nat) p => if
    decide (l.length < leAt d 0x2E 2) && l.all (fun i => Fp.le (iou ((List.range 4).map (fun q => fp32.round (a.fp [q, p.1, 0,
    0, 0]))) ((List.range 4).map (fun q => fp32.round (a.fp [q, i, 0, 0, 0])))) (fp32.decode (leAt d 0x2A 4))) then l ++ [p.1]
    else l) []) → (out = NtOut.plain [intRes o.dims (kept.map (fun (i : Nat) => (i : Int)) ++ List.replicate (leAt d 0x2E 2 -
    kept.length) (-1))]) → completes (exec (.nms tile) s) (fun t => t = s.modNt tile.val (fun x =>
    { x with computed := true, res := out.res, sat := out.sat, odd := out.odd, idx := out.idx }))) ∧
  (∀ (s : State) (tile : Fin 16) (c : StepCtx) (o : Td) (a : Opnd) (out : NtOut), s.ctx? (0x0800 + tile.val) = some c →
    (s.ntPhase tile.val).1 = 4 → (s.nt tile.val).computed = false → leAt (s.nt tile.val).desc 0 1 = 0x5C → o = parseTd ((s.nt
    tile.val).tds.getD 3 []) → a = s.ntOperand c 0 → (out = NtOut.plain [fpRes o.dims ((coordsOf o.dims).map (fun l => lutApply
    (s.nt tile.val).lut (fp32.round (a.fp l))))]) → completes (exec (.lut tile) s) (fun t => t = s.modNt tile.val (fun x =>
    { x with computed := true, res := out.res, sat := out.sat, odd := out.odd, idx := out.idx })))

/-- The arbiter grants the next waiting phase: a fetch, or a store after a compute. The fetch phase reads the descriptor and the tensor descriptors, checks them against the windows and the table, stages inputs and begins the compute phase; an invalid descriptor ends the step. The compute phase ends asking for a store grant. The store phase writes the results and the next step is due. A residue error ends the step with code 7. -/
def Obligations.TilePhases : Prop :=
  (∀ (s : State) (tile : Fin 16) (c : StepCtx), s.ntGrantable tile.val = true → s.ctx? (0x0800 + tile.val) = some c → tile.val
    < s.nts.length → completes (exec (.ntPhaseGrant tile) s) (fun t => ((s.ntPhase tile.val).1 = 5 → (t.nt tile.val).phase = 6
    ∧ (t.nt tile.val).since = s.now) ∧ ((s.ntPhase tile.val).1 = 2 → (t.nt tile.val).phase = 3 ∧ (t.nt tile.val).owner = some
    (s.ntKey c) ∧ (t.nt tile.val).computed = false) ∧ t.mem = s.mem ∧ t.now = s.now)) ∧
  (∀ (s : State) (tile : Fin 16) (c : StepCtx) (s1 : State) (s2 : State) (d : List Byte) (used : List Nat) (s3 : State) (s4 :
    State) (tds : List (List Byte)) (s5 : State) (s6 : State) (runs : List (Nat × Nat)) (s7 : State), s.canonical = true →
    tile.val < s.nts.length → s.ctx? (0x0800 + tile.val) = some c → (s.ntPhase tile.val).1 = 3 → s1 = (s.ntWindow c 0
    (s.localTile c.descAddr) 64 false).1 → (s.ntWindow c 0 (s.localTile c.descAddr) 64 false).2 = true → s2 = (s1.ntFetch c
    [((s.localTile c.descAddr), 64)]).1 → (s1.ntFetch c [((s.localTile c.descAddr), 64)]).2 = true → d = s2.ntBytes tile.val
    (s.localTile c.descAddr) 64 → ntCommonOk d = true → ntFieldsOk d = true → used = (ntReads d ++ ntWrites d).eraseDups → (s3
    = (s2.ntWindows c (used.map (fun q => (7, s2.localTile ((parseNt d).td.getD q 0), 64, false)))).1) → ((s2.ntWindows c
    (used.map (fun q => (7, s2.localTile ((parseNt d).td.getD q 0), 64, false)))).2 = true) → (s4 = (s3.ntFetch c (used.map
    (fun q => (s2.localTile ((parseNt d).td.getD q 0), 64)))).1) → ((s3.ntFetch c (used.map (fun q => (s2.localTile ((parseNt
    d).td.getD q 0), 64)))).2 = true) → (tds = (List.range 4).map (fun q => if used.contains q then s4.ntBytes tile.val
    (s2.localTile ((parseNt d).td.getD q 0)) 64 else [])) → (s5 = s4.modNt tile.val (fun x =>
    { x with desc := d, tds := tds, lut := [], epi := [] })) → s5.ntValid c (s5.nt tile.val) = true → s6 = (s5.ntWindows c
    (s5.ntExtents c (s5.nt tile.val))).1 → (s5.ntWindows c (s5.ntExtents c (s5.nt tile.val))).2 = true → s6.permuteOverlap c
    (s5.nt tile.val) = false → (runs = ((ntReads d).filter (fun q => !(c.opnd (s5.nt tile.val) q).absent && (parseNt
    d).stage.getD q 0 != 0xFFFFFF)).flatMap (fun q => (c.opnd (s5.nt tile.val) q).loadRuns s6.device) ++ ((if (parseNt
    d).colVec then [(s6.localTile (epiVec d), 8 * (parseTd (tds.getD 3 [])).dims.getD 0 1)] else []) ++ (if usesLut d then
    [(s6.localTile (lutAddr d), 1044)] else []))) → s7 = (s6.ntFetch c runs).1 → (s6.ntFetch c runs).2 = true → (usesLut d &&
    !lutOk (s7.ntBytes tile.val (s7.localTile (lutAddr d)) 1044)) = false → completes (exec (.ntFetchDone tile .ok) s) (fun t
    => (t.nt tile.val).phase = 4 ∧ (t.nt tile.val).desc = d ∧ (t.nt tile.val).tds = tds ∧ (t.nt tile.val).computed = false ∧
    (t.nt tile.val).since = s.now ∧ t.now = s.now)) ∧
  (∀ (s : State) (tile : Fin 16) (c : StepCtx) (s1 : State) (s2 : State) (d : List Byte), s.canonical = true → tile.val <
    s.nts.length → s.ctx? (0x0800 + tile.val) = some c → (s.ntPhase tile.val).1 = 3 → s1 = (s.ntWindow c 0 (s.localTile
    c.descAddr) 64 false).1 → (s.ntWindow c 0 (s.localTile c.descAddr) 64 false).2 = true → s2 = (s1.ntFetch c [((s.localTile
    c.descAddr), 64)]).1 → (s1.ntFetch c [((s.localTile c.descAddr), 64)]).2 = true → d = s2.ntBytes tile.val (s.localTile
    c.descAddr) 64 → (ntCommonOk d && ntFieldsOk d) = false → completes (exec (.ntFetchDone tile .ok) s) (fun t => counted s t
    (Reg.NT_CNT tile.val 9) 1 ∧ t.flag (Reg.NT_ERR tile.val) ⟨4, 4⟩ = true ∧ t.mem = s.mem)) ∧
  (∀ (s : State) (tile : Fin 16) (c : StepCtx), s.canonical = true → tile.val < s.nts.length → s.ctx? (0x0800 + tile.val) =
    some c → (s.ntPhase tile.val).1 = 4 → (s.nt tile.val).computed = true → completes (exec (.ntComputeDone tile .ok) s) (fun t
    => (t.nt tile.val).phase = 5 ∧ (t.nt tile.val).since = s.now ∧ counted s t (Reg.NT_CNT tile.val 7) (s.nt tile.val).sat ∧
    counted s t (Reg.NT_IDX_CNT tile.val) (s.nt tile.val).idx ∧ ((s.nt tile.val).sat ≠ 0 → t.flag (Reg.NT_ERR tile.val)
    F.NT_ERR.ACC_SAT = true) ∧ t.mem = s.mem)) ∧
  (∀ (s : State) (tile : Fin 16) (c : StepCtx), s.canonical = true → tile.val < s.nts.length → s.ctx? (0x0800 + tile.val) =
    some c → (s.ntPhase tile.val).1 = 4 → completes (exec (.ntComputeDone tile .residue) s) (fun t => counted s t (Reg.NT_CNT
    tile.val 9) 1 ∧ t.flag (Reg.NT_ERR tile.val) ⟨11, 11⟩ = true ∧ t.fld (engBase (0x0800 + tile.val) + 0x14) ⟨31, 28⟩ = 7 ∧
    t.mem = s.mem)) ∧
  (∀ (s : State) (tile : Fin 16) (c : StepCtx) (ws : List (Nat × List Byte)) (v : State), s.canonical = true → tile.val <
    s.nts.length → s.ctx? (0x0800 + tile.val) = some c → (s.ntPhase tile.val).1 = 6 → ws = (s.ntStores c).1 → v =
    (s.judgeWrites c.issuer ws).1 → (s.judgeWrites c.issuer ws).2 = none → completes (exec (.ntStepComplete tile .ok) s) (fun t
    => t.mem = (v.ntLand c ws).mem ∧ stepTaken s t c (parseNt (s.nt tile.val).desc).last ∧ (t.nt tile.val).owner = none ∧ (t.nt
    tile.val).res = []))

/-- A held access is tried again at its next 100 ns and waits no more once its slot serves it; held for the wait limit it ends its step with a fault. A stopped unit reports: one more ended step, fault code 6, the discarded bytes a free value (log entry 18), and its instance cancelled. A detached read that returns only frees its tag. -/
def Obligations.HeldAccessesAndStops : Prop :=
  (∀ (s : State) (unit : Half) (h : HoldSt), (s.unit unit.toNat).hold = some h → completes (exec (.heldAccessRetry unit) s)
    (fun t => t.now = max s.now (h.since + ((s.now - h.since) / 100 + 1) * 100) ∧ (t.unit unit.toNat).hold = some
    { h with waiting := h.waiting && (isRemote h.addr || !s.slotsServe h.addr 1 h.write) } ∧ t.regs = s.regs ∧ t.mem = s.mem)) ∧
  (∀ (s : State) (unit : Half) (h : HoldSt) (c : StepCtx), s.canonical = true → (s.unit unit.toNat).hold = some h → s.ctx?
    unit.toNat = some c → 3 ≤ unit.toNat / 256 → unit.toNat / 256 ≤ 9 → unit.toNat % 256 < 16 → completes (exec
    (.heldAccessLimit unit) s) (fun t => t.now = max s.now (h.since + c.waitNs) ∧ counted s t (endedCnt unit.toNat) 1 ∧
    (unit.toNat / 256 ≠ 9 → t.fld ((if unit.toNat / 256 = 8 then 0x14 else 0xC) + engBase unit.toNat) ⟨31, 28⟩ = if h.write =
    true then 5 else 4) ∧ (unit.toNat / 256 = 9 → t.flag (engErr unit.toNat) ⟨0, 0⟩ = true) ∧ t.mem = s.mem)) ∧
  (∀ (s : State) (unit : Half) (i : Inst), s.canonical = true → (s.unit unit.toNat).entry.bind s.entry? = some i → i.stopping =
    true → 3 ≤ unit.toNat / 256 → unit.toNat / 256 ≤ 9 → unit.toNat % 256 < 16 → completes (exec (.unitStopAck unit) s) (fun t
    => counted s t (endedCnt unit.toNat) 1 ∧ (unit.toNat / 256 ≠ 9 → t.fld ((if unit.toNat / 256 = 8 then 0x14 else 0xC) +
    engBase unit.toNat) ⟨31, 28⟩ = 6) ∧ t.free = s.free + 1 ∧ (∀ j, t.entry? i.entry = some j → j.st = .cancelled ∧ j.stopping
    = false) ∧ t.now = s.now ∧ t.mem = s.mem)) ∧
  (∀ (s : State) (unit : Half), s.mm.detached.contains unit.toNat = true → completes (exec (.detachedReadReturn unit) s) (fun t
    => t.mm = { s.mm with detached := s.mm.detached.erase unit.toNat } ∧ (∀ x, x ∈ t.gml.outstanding → x ∈ s.gml.outstanding) ∧
    t.regs = s.regs ∧ t.mem = s.mem ∧ t.units = s.units))

/-- A filled line is in the cache and no longer pending. The first waiting cinder region enters when its memory has an entry free. After an ash fill the region reads as zero and is no longer cinder. A read of MC_FLAG_HI captures the selected flag word. Windows and credits are written by Domain ID 0 and the tile's owner only; a window of a tile that holds an instance, or one that reaches too far, keeps its value. -/
def Obligations.MemoryRegisters : Prop :=
  (∀ (s : State) (line : Nat), s.mm.wcPending.contains line = true → completes (exec (.wcMissFillDone line) s) (fun t =>
    t.mm.wcPending = s.mm.wcPending.erase line ∧ (s.wcWays ≠ 0 → t.mm.wcLines.head? = some line) ∧ t.regs = s.regs ∧ t.mem =
    s.mem ∧ t.now = s.now)) ∧
  (∀ (s : State) (addr : Nat) (c : Cinder), s.canonical = true → (s.mm.cinder.find? (fun c => c.base == addr && c.waiting) =
    some c) → ((s.mm.cinder.filter (fun x => !x.waiting && memClass x.base == memClass c.base)).length < cinderLimit (memClass
    c.base)) → (((s.mm.cinder.find? (fun x => x.waiting && memClass x.base == memClass c.base)).map (·.base)) = some addr) →
    completes (exec (.cinderEntry addr) s) (fun t => (t.mm.cinder = s.mm.cinder.map (fun x => if x.base == c.base && x.size ==
    c.size then { x with waiting := false } else x)) ∧ (inRange c.base addrLp 0x1000000000 = true → t.mm.wcLines =
    s.mm.wcLines.filter (fun l => !overlap l 256 c.base c.size)) ∧ t.mem = s.mem ∧ t.now = s.now)) ∧
  (∀ (s : State) (addr : Nat) (c : Cinder), s.canonical = true → (s.mm.cinder.find? (fun c => c.base == addr && !c.waiting) =
    some c) → completes (exec (.ashFillDone addr) s) (fun t => (∀ a, c.base ≤ a → a < c.base + c.size → t.byte a = 0) ∧
    memKeptOutside s t c.base c.size ∧ t.mm.cinder = s.mm.cinder.filter (fun x => !(x.base == c.base && x.size == c.size)) ∧
    (inRange c.base addrLp 0x1000000000 = false → t.flag Reg.MC_FS_EVENT F.MC_FS_EVENT.FILL_DONE = true) ∧ (inRange c.base
    addrSpm 0x8000000 = true → inRange c.base addrLp 0x1000000000 = false → t.nt ((c.base - addrSpm) / 0x800000) =
    TileSt.idle))) ∧
  (∀ (s : State), completes (exec .mcFlagHiRead s) (fun t => t =
    { s with mm := { s.mm with flagHold := s.flagWord (s.fld Reg.MC_FLAG_SEL F.MC_FLAG_SEL.FLAG) } })) ∧
  (∀ (s : State) (tile : Fin 16) (offset : BitVec 8) (value : Word) (domain : BitVec 4), s.canonical = true → completes (exec
    (.ntWinWrite tile offset value domain) s) (fun t => ((s.unit (0x0800 + tile.val)).entry = none → s.tileWriter tile.val
    domain.toNat = true → offset.toNat / 4 % 4 = 0 → t.reg (Reg.NT_WIN_CTRL tile.val (offset.toNat / 16)) = value &&& 7) ∧
    ((s.unit (0x0800 + tile.val)).entry = none → s.tileWriter tile.val domain.toNat = true → offset.toNat / 4 % 4 = 1 → t.reg
    (Reg.NT_WIN_VBASE tile.val (offset.toNat / 16)) = value &&& F.NT_WIN_VBASE.VPAGE.mask) ∧ ((s.unit (0x0800 +
    tile.val)).entry = none → s.tileWriter tile.val domain.toNat = true → offset.toNat / 4 % 4 = 2 → s.fld (Reg.NT_WIN_VBASE
    tile.val (offset.toNat / 16)) F.NT_WIN_VBASE.VPAGE + value.toNat % 2 ^ 30 ≤ 2 ^ 30 → s.fld (Reg.NT_WIN_TBASE tile.val
    (offset.toNat / 16)) F.NT_WIN_TBASE.TPAGE + value.toNat % 2 ^ 30 ≤ 2 ^ 30 → t.reg (Reg.NT_WIN_PAGES tile.val (offset.toNat
    / 16)) = value &&& F.NT_WIN_PAGES.PAGES.mask) ∧ ((s.unit (0x0800 + tile.val)).entry = none → s.tileWriter tile.val
    domain.toNat = true → offset.toNat / 4 % 4 = 3 → t.fld (Reg.NT_WIN_PAGES tile.val (offset.toNat / 16)) F.NT_WIN_PAGES.PAGES
    = s.fld (Reg.NT_WIN_PAGES tile.val (offset.toNat / 16)) F.NT_WIN_PAGES.PAGES ∧ t.reg (Reg.NT_WIN_TBASE tile.val
    (offset.toNat / 16)) = value &&& F.NT_WIN_TBASE.TPAGE.mask) ∧ (((s.unit (0x0800 + tile.val)).entry ≠ none ∨ s.tileWriter
    tile.val domain.toNat = false) → (∀ a, a ≠ Reg.EJ_LOST_CNT → a ≠ Reg.EJ_EVENT → t.reg a = s.reg a)) ∧ (offset.toNat / 4 % 4
    = 2 → (2 ^ 30 < s.fld (Reg.NT_WIN_VBASE tile.val (offset.toNat / 16)) F.NT_WIN_VBASE.VPAGE + value.toNat % 2 ^ 30) → (∀ a,
    a ≠ Reg.EJ_LOST_CNT → a ≠ Reg.EJ_EVENT → t.reg a = s.reg a)) ∧ t.mem = s.mem ∧ t.now = s.now)) ∧
  (∀ (s : State) (tile : Fin 16) (offset : BitVec 8) (value : Word) (domain : BitVec 4), s.canonical = true → offset.toNat / 8
    < 16 → completes (exec (.ntCredWrite tile offset value domain) s) (fun t => (s.tileWriter tile.val domain.toNat = true →
    offset.toNat / 4 % 2 = 0 → t.reg (Reg.NT_CRED_CTRL tile.val (offset.toNat / 8)) = value &&& credCtrlMask) ∧ (s.tileWriter
    tile.val domain.toNat = true → offset.toNat / 4 % 2 = 1 → t.reg (Reg.NT_CRED_WIN tile.val (offset.toNat / 8)) = value &&&
    (F.NT_CRED_WIN.LEN.mask ||| F.NT_CRED_WIN.BASE.mask)) ∧ (s.tileWriter tile.val domain.toNat = false → (∀ a, a ≠
    Reg.EJ_LOST_CNT → a ≠ Reg.EJ_EVENT → t.reg a = s.reg a)) ∧ regsKept s t [Reg.NT_CRED_CTRL tile.val (offset.toNat / 8),
    Reg.NT_CRED_WIN tile.val (offset.toNat / 8), Reg.EJ_LOST_CNT, Reg.EJ_EVENT] ∧ t.mem = s.mem ∧ t.now = s.now))

/-- An evaluation moves each rule as R436 says, starts a new period, and is paused outside READY and during a switch. The starvation level falls by one after a calm period; LEVEL is the highest of the three. The thermal policy raises the shed level first, then the NE step, and lowers them in reverse when it has cooled, one step at a time. The metrics of an empty period are free values, and the level is judged once per evaluation (log entry 35). -/
def Obligations.Adaptation : Prop :=
  (∀ (s : State), s.running = true → s.scene.switch = none → completes (exec .adaptEval s) (fun t => t.now = max s.now
    (s.adapt.evalAt + s.adaptLe 8 2 * 1000000) ∧ t.adapt.evalAt = t.now ∧ t.adapt.misses = 0 ∧ t.adapt.corrFs = 0 ∧
    t.adapt.corrLp = 0 ∧ t.adapt.corrWc = 0 ∧ t.adapt.busy = [] ∧ t.adapt.rules = ((s.flash.rules s.imgRegion).zipIdx.foldl
    (fun p q => p.1.evalRule q.2 q.1 p.2) (s.reach (s.adapt.evalAt + s.adaptLe 8 2 * 1000000), ([] : List
    Nat))).1.adapt.rules)) ∧
  (∀ (s : State), (s.running = false ∨ s.scene.switch ≠ none) → completes (exec .adaptEval s) (fun t => t = s)) ∧
  (∀ (s : State), s.canonical = true → s.fld Reg.PMU_SHED F.PMU_SHED.STARVE ≠ 0 → (s.safety.selftests.any (fun x => x.starved)
    = false) → completes (exec .starvationLower s) (fun t => t.now = max s.now (s.adapt.starvedAt + s.adaptLe 8 2 * 1000000) ∧
    t.fld Reg.PMU_SHED F.PMU_SHED.STARVE = s.fld Reg.PMU_SHED F.PMU_SHED.STARVE - 1 ∧ t.fld Reg.PMU_SHED F.PMU_SHED.LEVEL = max
    (t.fld Reg.PMU_SHED F.PMU_SHED.THERMAL) (max (t.fld Reg.PMU_SHED F.PMU_SHED.RULES) (t.fld Reg.PMU_SHED F.PMU_SHED.STARVE))
    ∧ t.adapt.starvedAt = t.now ∧ t.mem = s.mem)) ∧
  (∀ (s : State) (h : Int) (u : State), s.canonical = true → s.running = true → s.hottest? = some h → (u = (s.adapt.thermAt.map
    (fun x => s.reach (x + s.adaptLe 0x10 2 * 1000000))).getD s) → s.adaptLe 5 1 ≤ 7 → completes (exec .thermalEval s) (fun t
    => t.now = u.now ∧ (s.thermLimit 0 ≤ h → s.fld Reg.PMU_SHED F.PMU_SHED.THERMAL < s.adaptLe 5 1 → t.fld Reg.PMU_SHED
    F.PMU_SHED.THERMAL = s.fld Reg.PMU_SHED F.PMU_SHED.THERMAL + 1 ∧ t.adapt.thermAt = some t.now) ∧ (s.fld Reg.PMU_SHED
    F.PMU_SHED.THERMAL = s.adaptLe 5 1 → s.fld Reg.NE_CLOCK F.NE_CLOCK.STEP < 3 → s.thermLimit (s.fld Reg.NE_CLOCK
    F.NE_CLOCK.STEP + 1) ≤ h → t.fld Reg.NE_CLOCK F.NE_CLOCK.STEP = s.fld Reg.NE_CLOCK F.NE_CLOCK.STEP + 1 ∧ t.fld Reg.NE_CLOCK
    F.NE_CLOCK.MHZ = neMhz (s.fld Reg.NE_CLOCK F.NE_CLOCK.STEP + 1) ∧ t.fld Reg.PMU_STATUS F.PMU_STATUS.NE_STEP = s.fld
    Reg.NE_CLOCK F.NE_CLOCK.STEP + 1 ∧ t.adapt.thermAt = some t.now) ∧ (¬ (s.thermLimit 0 ≤ h ∧ s.fld Reg.PMU_SHED
    F.PMU_SHED.THERMAL < s.adaptLe 5 1) → ¬ (s.fld Reg.PMU_SHED F.PMU_SHED.THERMAL = s.adaptLe 5 1 ∧ s.fld Reg.NE_CLOCK
    F.NE_CLOCK.STEP < 3 ∧ s.thermLimit (s.fld Reg.NE_CLOCK F.NE_CLOCK.STEP + 1) ≤ h) → 0 < s.fld Reg.NE_CLOCK F.NE_CLOCK.STEP →
    u.cooled (s.fld Reg.NE_CLOCK F.NE_CLOCK.STEP) = true → t.fld Reg.NE_CLOCK F.NE_CLOCK.STEP = s.fld Reg.NE_CLOCK
    F.NE_CLOCK.STEP - 1 ∧ t.fld Reg.NE_CLOCK F.NE_CLOCK.MHZ = neMhz (s.fld Reg.NE_CLOCK F.NE_CLOCK.STEP - 1) ∧ t.fld
    Reg.PMU_STATUS F.PMU_STATUS.NE_STEP = s.fld Reg.NE_CLOCK F.NE_CLOCK.STEP - 1 ∧ t.adapt.thermAt = some t.now) ∧ (¬
    (s.thermLimit 0 ≤ h ∧ s.fld Reg.PMU_SHED F.PMU_SHED.THERMAL < s.adaptLe 5 1) → ¬ (s.fld Reg.PMU_SHED F.PMU_SHED.THERMAL =
    s.adaptLe 5 1 ∧ s.fld Reg.NE_CLOCK F.NE_CLOCK.STEP < 3 ∧ s.thermLimit (s.fld Reg.NE_CLOCK F.NE_CLOCK.STEP + 1) ≤ h) → s.fld
    Reg.NE_CLOCK F.NE_CLOCK.STEP = 0 → 0 < s.fld Reg.PMU_SHED F.PMU_SHED.THERMAL → u.cooled 0 = true → t.fld Reg.PMU_SHED
    F.PMU_SHED.THERMAL = s.fld Reg.PMU_SHED F.PMU_SHED.THERMAL - 1 ∧ t.adapt.thermAt = some t.now) ∧ t.mem = s.mem))

/-- A domain among the four that ramp comes to service, and a unit with all its domains there is no longer gated. A domain fault is an event and fences the units of the domain; of the fabric, the sequencer, the Timeline or the firewall it is severe; of the journal it fences the journal. An idle unit outside the safety layers is gated after IDLE_GATE_MS and woken when a ready instance needs it. The numbering of the domains is the model's (log entry 15). -/
def Obligations.PowerDomains : Prop :=
  (∀ (s : State) (dom : Fin 188), s.canonical = true → (s.mm.powerReq.take 4).contains dom.val = true → completes (exec
    (.domainPowerUpDone dom) s) (fun t => t.mm.powerReq = s.mm.powerReq.filter (· != dom.val) ∧ t.domainOn dom.val = true ∧ (∀
    c, c ∈ unitsOfDomain dom.val → (domainsOf c).all t.domainOn = true → (t.unit c).fenced = true ∨ (t.unit c).gated = false) ∧
    t.mem = s.mem ∧ t.now = s.now)) ∧
  (∀ (s : State) (dom : Fin 188), s.canonical = true → completes (exec (.domainFault dom) s) (fun t => t.flag Reg.PMU_EVENT
    F.PMU_EVENT.DOMAIN_FAULT = true ∧ (dom.val < 160 → ¬ (124 ≤ dom.val ∧ dom.val ≤ 127) → ∀ c, c ∈ unitsOfDomain dom.val →
    (t.unit c).fenced = true) ∧ ((168 ≤ dom.val ∧ dom.val ≤ 184) ∨ dom.val = 186 → t.safety.severes.map (·.1) =
    s.safety.severes.map (·.1) ++ [18]) ∧ (dom.val = 185 → t.journal.fenced = true ∧ t.domainOn 185 = false) ∧ t.now = s.now)) ∧
  (∀ (s : State) (unit : Half), s.canonical = true → 3 ≤ unit.toNat / 256 → unit.toNat / 256 ≤ 8 → maskCodes.contains
    unit.toNat = true → s.adaptLe 0x16 2 ≠ 0 → s.running = true → (s.unit unit.toNat).fenced = false → (s.unit
    unit.toNat).gated = false → (s.unit unit.toNat).entry = none → (s.unit unit.toNat).heldBy = none → s.safetyUnit unit.toNat
    = false → completes (exec (.idleGate unit) s) (fun t => (t.unit unit.toNat).gated = true ∧ t.now = max s.now ((s.unit
    unit.toNat).since + s.adaptLe 0x16 2 * 1000000) ∧ (idleDomains unit.toNat).all t.domainOn = false ∧ (unit.toNat / 256 = 8 →
    t.domainOn (3 * (unit.toNat % 256) + 2) = s.domainOn (3 * (unit.toNat % 256) + 2)) ∧ t.mem = s.mem)) ∧
  (∀ (s : State) (unit : Half), s.canonical = true → (s.unit unit.toNat).gated = true → (s.unit unit.toNat).fenced = false →
    s.wanted unit.toNat = true → (unit.toNat / 256 = 8 → s.domainOn (3 * (unit.toNat % 256) + 2) = true) → maskCodes.contains
    unit.toNat = true → completes (exec (.idleWake unit) s) (fun t => (t.unit unit.toNat).gated = false ∧ (t.unit
    unit.toNat).since = s.now ∧ (idleDomains unit.toNat).all t.domainOn = true ∧ t.mem = s.mem ∧ t.now = s.now))

/-- A request for something that is there starts when its resources are free and waits in the queue otherwise, once. A period that expires asks for its activity. The end of an activity frees what it held and starts what waited for it. A request 10 ms old is reserved. An overdue activity is an event; where no rule gives it a deadline, the time overdue is a free value. A word that the scrub of a bank group corrects is counted. The numbers of the activities are the model's (log entry 33). -/
def Obligations.Maintenance : Prop :=
  (∀ (s : State) (act : Half) (p : Nat) (u : State), s.periodOf act.toNat = some p → s.running = true → s.actKnown act.toNat =
    true → (u = ((assocGet s.maint.last act.toNat).map (fun x => s.reach (x + p))).getD s) → completes (exec
    (.maintPeriodExpiry act) s) (fun t => t.now = u.now ∧ assocGet t.maint.last act.toNat = some t.now ∧
    (({ u with maint := { u.maint with last := assocPut u.maint.last act.toNat u.now } } : State).mayStart act.toNat u.now =
    true → t.maint.running = s.maint.running ++ [(act.toNat, u.now)] ∧ t.maint.queue = s.maint.queue.filter (fun q => q.act !=
    act.toNat)) ∧ (({ u with maint := { u.maint with last := assocPut u.maint.last act.toNat u.now } } : State).mayStart
    act.toNat u.now = false → t.maint.running = s.maint.running ∧ t.maint.queue = if s.maint.queue.any (fun q => q.act ==
    act.toNat) then s.maint.queue else s.maint.queue ++ [⟨act.toNat, u.now, false, false⟩]) ∧ t.mem = s.mem)) ∧
  (∀ (s : State) (act : Half), s.actKnown act.toNat = true → completes (exec (.maintRequest act) s) (fun t => (s.mayStart
    act.toNat s.now = true → t.maint.running = s.maint.running ++ [(act.toNat, s.now)] ∧ t.maint.queue = s.maint.queue.filter
    (fun q => q.act != act.toNat)) ∧ (s.mayStart act.toNat s.now = false → t.maint.running = s.maint.running ∧ t.maint.queue =
    if s.maint.queue.any (fun q => q.act == act.toNat) then s.maint.queue else s.maint.queue ++ [⟨act.toNat, s.now, false,
    false⟩]) ∧ t.now = s.now ∧ t.mem = s.mem)) ∧
  (∀ (s : State) (act : Half) (ecc : List EccHit) (r : Nat × Nat), actClass act.toNat ≠ 1 → (s.maint.running.find? (fun r =>
    r.1 == act.toNat) = some r) → completes (exec (.maintActivityEnd act ecc) s) (fun t => (ecc = [] → s.maint.queue = [] →
    t.maint.running = s.maint.running.filter (fun x => x.1 != act.toNat) ∧ t.now = max s.now (r.2 + actNs act.toNat)) ∧ (∀ x, x
    ∈ t.maint.running → x ∈ s.maint.running ∨ ∃ q, q ∈ s.maint.queue ∧ q.act = x.1) ∧ t.mem = s.mem)) ∧
  (∀ (s : State) (act : Half) (ecc : List EccHit) (r : Nat × Nat) (h : Nat), s.canonical = true → actClass act.toNat = 2 →
    (s.maint.running.find? (fun r => r.1 == act.toNat) = some r) → ecc = [⟨h, false⟩] → inRange h (addrFs + act.toNat % 256 *
    0x2000000) 0x2000000 = true → inRange h addrFs fsBytes = true → ((assocGet s.mm.ceTimes (0x0E00 + pairOf h)).getD
    []).length < 63 → completes (exec (.maintActivityEnd act ecc) s) (fun t => t.flag Reg.MC_FS_EVENT F.MC_FS_EVENT.CE = true ∧
    counted s t (Reg.MC_FS_CNT 0) 1 ∧ t.mem = s.mem)) ∧
  (∀ (s : State) (act : Half) (q : MaintReq), (s.maint.queue.find? (fun q => q.act == act.toNat) = some q) → q.reserved = false
    → completes (exec (.maintReserve act) s) (fun t => t.now = max s.now (q.at' + 10000000) ∧ (t.maint.queue =
    s.maint.queue.map (fun x => if x.act == act.toNat then { x with reserved := true } else x)) ∧ t.maint.running =
    s.maint.running ∧ t.regs = s.regs ∧ t.mem = s.mem)) ∧
  (∀ (s : State) (act : Half) (q : MaintReq), s.canonical = true → (s.maint.queue.find? (fun q => q.act == act.toNat) = some q)
    → q.overdue = false → completes (exec (.maintOverdue act) s) (fun t => (t.maint.queue = s.maint.queue.map (fun x => if
    x.act == act.toNat then { x with overdue := true } else x)) ∧ t.flag Reg.PMU_EVENT F.PMU_EVENT.MAINT_OVERDUE = true ∧
    (s.actDue q = none → t.free = s.free + 1 ∧ t.now = s.now) ∧ (∀ d, s.actDue q = some d → t.now = max s.now d ∧ t.free =
    s.free) ∧ t.mem = s.mem))

/-- The record at the front of the source queues takes the next sequence and enters the ring when its class has room; otherwise it is lost and counted. A mirror copy is written at the place of its sequence. A firmware post that R363 admits is queued with result 0, or 1 when its source has 16 waiting; any other has result 2. A datagram carries at most 40 records from the stream position on, which moves past them. -/
def Obligations.EventJournal : Prop :=
  (∀ (s : State) (r : JRec) (rest : List JRec), s.canonical = true → s.journal.started = true → s.journal.fenced = false →
    s.journal.queue = r :: rest → completes (exec .journalEntry s) (fun t => t.journal.queue = rest ∧ (s.hasRoom r.cls = true →
    s.journal.lostSince = 0 → t.journal.ring = (if 32768 ≤ s.journal.ring.length then s.journal.ring.drop 1 else
    s.journal.ring) ++ [{ r with seq := s.reg Reg.EJ_SEQ, lostBefore := s.journal.lostBefore }] ∧ t.reg Reg.EJ_SEQ = s.reg
    Reg.EJ_SEQ + 1 ∧ t.journal.lostBefore = false) ∧ (s.hasRoom r.cls = true →
    ({ r with seq := s.reg Reg.EJ_SEQ, lostBefore := s.journal.lostBefore } : JRec) ∈ t.journal.ring ∨ 32768 ≤
    s.journal.ring.length) ∧ (s.hasRoom r.cls = false → counted s t Reg.EJ_LOST_CNT 1 ∧ t.journal.lostSince =
    s.journal.lostSince + 1 ∧ t.journal.lostBefore = true ∧ t.journal.ring = s.journal.ring ∧ t.reg Reg.EJ_SEQ = s.reg
    Reg.EJ_SEQ) ∧ t.mem = s.mem ∧ t.now = s.now)) ∧
  (∀ (s : State) (q : Word) (rest : List Word) (r : JRec), s.canonical = true → s.journal.unmirrored = q :: rest →
    (s.journal.ring.find? (fun r => r.seq == q) = some r) → completes (exec .mirrorCopyDone s) (fun t => Memory.bytes t.mem
    (mirrorPlace q) 32 = r.bytes ∧ memKeptOutside s t (mirrorPlace q) 32 ∧ t.journal.mirrorFrom = some (mirrorOldest
    s.journal.mirrorFrom q) ∧ (s.journal.lostSince = 0 → t.journal.unmirrored = rest ∧ t.journal.ring = s.journal.ring) ∧ t.now
    = s.now)) ∧
  (∀ (s : State) (bank : Fin 5) (domain : BitVec 4) (value : Word), s.canonical = true → completes (exec (.ejFwPost bank domain
    value) s) (fun t => (postAdmitted domain.toNat (F.EJ_FW_POST.CODE.get value) (F.EJ_FW_POST.CLASS.get value) = false → t.fld
    (bankOff bank.val Reg.EJ_FW_RESULT) F.EJ_FW_RESULT.RESULT = 2 ∧ t.journal = s.journal) ∧ (postAdmitted domain.toNat
    (F.EJ_FW_POST.CODE.get value) (F.EJ_FW_POST.CLASS.get value) = true → (s.journal.fenced || decide (16 ≤
    (s.journal.queue.filter (fun q => q.source == posterSource bank.val)).length)) = true → t.fld (bankOff bank.val
    Reg.EJ_FW_RESULT) F.EJ_FW_RESULT.RESULT = 1 ∧ t.journal.queue = s.journal.queue) ∧ (postAdmitted domain.toNat
    (F.EJ_FW_POST.CODE.get value) (F.EJ_FW_POST.CLASS.get value) = true → (s.journal.fenced || decide (16 ≤
    (s.journal.queue.filter (fun q => q.source == posterSource bank.val)).length)) = false → t.fld (bankOff bank.val
    Reg.EJ_FW_RESULT) F.EJ_FW_RESULT.RESULT = 0 ∧ (t.journal.queue.getLast?).map (fun r => (r.source, r.code, r.cls,
    r.partition)) = some (posterSource bank.val, F.EJ_FW_POST.CODE.get value, F.EJ_FW_POST.CLASS.get value, domain.toNat) ∧
    (t.journal.queue.getLast?).map (fun r => (r.ts, r.arg0, r.arg1, r.arg2)) = some (s.now, w32 (s.reg (bankOff bank.val
    (Reg.EJ_FW_ARG 0))).toNat, w32 (s.reg (bankOff bank.val (Reg.EJ_FW_ARG 1))).toNat, w32 (s.reg (bankOff bank.val
    (Reg.EJ_FW_ARG 2))).toNat) ∧ t.journal.queue.length = s.journal.queue.length + 1) ∧ t.mem = s.mem ∧ t.now = s.now)) ∧
  (∀ (s : State) (o : OutRec) (start : Word) (recs : List JRec), s.canonical = true → s.streamRec = some o → s.journal.started
    = true → s.flag Reg.EJ_STREAM_CTRL F.EJ_STREAM_CTRL.ENABLE = true → (start = (if seqNewer s.oldestHeld (s.reg
    Reg.EJ_STREAM_POS) then s.oldestHeld else s.reg Reg.EJ_STREAM_POS)) → recs = (s.collect ((s.reg Reg.EJ_SEQ) - start).toNat
    40 start).1 ++ s.journal.fromPeers.take (40 - (s.collect ((s.reg Reg.EJ_SEQ) - start).toNat 40 start).1.length) → completes
    (exec .journalDatagramSend s) (fun t => t.reg Reg.EJ_STREAM_POS = (s.collect ((s.reg Reg.EJ_SEQ) - start).toNat 40 start).2
    ∧ t.journal.fromPeers = s.journal.fromPeers.drop (40 - (s.collect ((s.reg Reg.EJ_SEQ) - start).toNat 40 start).1.length) ∧
    recs.length ≤ 40 ∧ (seqNewer s.oldestHeld (s.reg Reg.EJ_STREAM_POS) = true → t.flag Reg.EJ_EVENT F.EJ_EVENT.STREAM_LAG =
    true) ∧ (recs = [] → t.io = s.io) ∧ (recs ≠ [] → s.ofEnabled = true → t.io.outSeq = s.io.outSeq.mapIdx (fun i x => if i ==
    o.index then x + 1 else x)) ∧ t.mem = s.mem))

/-- The first offset since kindling, and the third in a row beyond the threshold, step the Timeline; any other slews it, by a rate the spec does not state (a free value, log entry 29). A first update brings FREE_RUN, HOLDOVER and LOST to ACQUIRING; the eighth in a row within 100 ns locks. Two seconds of silence bring LOCKED to HOLDOVER, HOLDOVER_S to LOST. A read of TL_NOW_HI captures both halves for each initiator (log entry 39). -/
def Obligations.Timeline : Prop :=
  (∀ (s : State) (source : Fin 8) (offset : Int), s.canonical = true → s.kin.porstLow = false → (s.hearSource source.val).2 =
    true → completes (exec (.tlServoUpdate source offset) s) (fun t => t.fld Reg.TL_STATUS F.TL_STATUS.SOURCE = source.val ∧
    t.fld Reg.TL_STATUS F.TL_STATUS.OFFSET = unsigned 16 (clampI (-32767) 32767 offset) ∧ (s.tl.measured = false → t.now =
    shiftNat offset s.now ∧ t.tl.measured = true ∧ t.flag Reg.TL_EVENT F.TL_EVENT.STEP = true) ∧ (s.tl.measured = true →
    (decide ((s.fld Reg.TL_CTRL F.TL_CTRL.STEP_THRESH_US * 1000 : Int) < (offset.natAbs : Int))) = true → ¬ (s.tlState = 0 ∨
    s.tlState = 3 ∨ s.tlState = 4) → 3 ≤ s.tl.beyond + 1 → t.now = shiftNat offset s.now ∧ t.tl.beyond = 0) ∧ (s.tl.measured =
    true → ((decide ((s.fld Reg.TL_CTRL F.TL_CTRL.STEP_THRESH_US * 1000 : Int) < (offset.natAbs : Int))) = false ∨ (¬
    (s.tlState = 0 ∨ s.tlState = 3 ∨ s.tlState = 4) ∧ s.tl.beyond + 1 < 3)) → t.now = s.now ∧ t.free = s.free + 1) ∧
    ((s.tlState = 0 ∨ s.tlState = 3 ∨ s.tlState = 4) → t.tlState = 1) ∧ (s.tlState = 1 → (offset.natAbs ≤ 100 → 8 ≤ s.tl.good +
    1 → t.tlState = 2 ∧ t.flag Reg.TL_STATUS F.TL_STATUS.EVER_LOCKED = true) ∧ (¬ (offset.natAbs ≤ 100 ∧ 8 ≤ s.tl.good + 1) →
    t.tlState = 1)) ∧ (s.tlState = 2 → t.tlState = 2) ∧ t.mem = s.mem)) ∧
  (∀ (s : State) (source : Fin 8) (offset : Int), s.kin.porstLow = false → (source.val = 0 ∨ (source.val ≠ s.fld Reg.TL_CTRL
    F.TL_CTRL.PRIMARY ∧ source.val ≠ s.fld Reg.TL_CTRL F.TL_CTRL.BACKUP)) → completes (exec (.tlServoUpdate source offset) s)
    (fun t => t = s)) ∧
  (∀ (s : State), s.canonical = true → s.tlState = 2 → completes (exec .tlHoldoverTimeout s) (fun t => t.now = max s.now (max
    (s.tl.primaryAt.getD 0) (s.tl.backupAt.getD 0) + 2000000000) ∧ t.tlState = 3 ∧ t.tl.heldFrom = some t.now ∧ t.tl.good = 0 ∧
    t.flag Reg.TL_EVENT F.TL_EVENT.HOLDOVER = true ∧ t.mem = s.mem)) ∧
  (∀ (s : State), s.canonical = true → s.tlState = 3 → completes (exec .tlLostTimeout s) (fun t => t.now = max s.now
    (s.tl.heldFrom.getD s.now + s.fld Reg.TL_CTRL F.TL_CTRL.HOLDOVER_S * 1000000000) ∧ t.tlState = 4 ∧ t.flag Reg.TL_EVENT
    F.TL_EVENT.LOST = true ∧ t.mem = s.mem)) ∧
  (∀ (s : State), s.canonical = true → completes (exec .tlNowHiRead s) (fun t => t.reg Reg.TL_NOW_HI = w32 (s.now / 2 ^ 32) ∧
    (∀ b, b < 6 → t.reg (bankOff b Reg.TL_NOW_LO) = w32 s.now) ∧ regsKept s t (Reg.TL_NOW_HI :: (List.range 6).map (fun b =>
    bankOff b Reg.TL_NOW_LO)) ∧ t.now = s.now ∧ t.mem = s.mem))

/-- A hardware source whose line is high becomes pending; a software source is set and cleared. An accepted source is the best one offered: it is active and no longer pending, its priority and cause are noted, and the pair is in bank 0 at its handler, with the interrupted bank's EPC kept or a frame pushed; with no source left, a lost race takes 0x3FF. End of interrupt ends the named handler, or sets EOI_BAD. -/
def Obligations.Interrupts : Prop :=
  (∀ (s : State) (source : Fin 512), s.canonical = true → completes (exec (.interruptSourceRise source) s) (fun t =>
    (s.lineHigh source.val = true → t.srcPending source.val = true) ∧ (s.lineHigh source.val = false → t = s) ∧ regsKept s t
    [Reg.ICU_PEND (source.val / 32)] ∧ t.mem = s.mem)) ∧
  (∀ (s : State) (value : Word), s.canonical = true → completes (exec (.icuSwiSet value) s) (fun t => (isSoftware
    (F.ICU_SWI_SET.ID.get value) = true → t.srcPending (F.ICU_SWI_SET.ID.get value) = true) ∧ (isSoftware (F.ICU_SWI_SET.ID.get
    value) = false → t = s) ∧ regsKept s t [Reg.ICU_PEND (F.ICU_SWI_SET.ID.get value / 32)] ∧ t.mem = s.mem)) ∧
  (∀ (s : State) (value : Word), s.canonical = true → completes (exec (.icuSwiClr value) s) (fun t => (isSoftware
    (F.ICU_SWI_CLR.ID.get value) = true → t.srcPending (F.ICU_SWI_CLR.ID.get value) = false ∧ t.icu.offers =
    s.icu.offers.filter (fun o => o.1 != F.ICU_SWI_CLR.ID.get value)) ∧ (isSoftware (F.ICU_SWI_CLR.ID.get value) = false → t =
    s) ∧ regsKept s t [Reg.ICU_PEND (F.ICU_SWI_CLR.ID.get value / 32)] ∧ t.mem = s.mem)) ∧
  (∀ (s : State) (pair : Fin 4) (pc : Word) (m : Nat), s.canonical = true → s.cores.length = 4 → s.bestFor pair.val = some m →
    m < 512 → completes (exec (.interruptAccept pair pc) s) (fun t => t.srcActive m = true ∧ t.srcPending m = false ∧ (t.core
    pair.val).active = (m, s.srcPrio m) :: (s.core pair.val).active ∧ (t.core pair.val).cause0 = w32 (0x80000000 + m) ∧ (t.core
    pair.val).bank = 0 ∧ (t.core pair.val).pc = (s.enterBank0 pair.val pc).vector pair.val m ∧ ((s.core pair.val).bank ≠ 0 →
    (s.core pair.val).bank < 4 → t.fld (Reg.SYS_PC_BANK_EPC pair.val (s.core pair.val).bank) F.SYS_PC_BANK_EPC.EPC = pc.toNat /
    2 ∧ t.fld (Reg.SYS_PC_RET pair.val) F.SYS_PC_RET.BANK_RET = (s.core pair.val).bank ∧ (t.core pair.val).resv = none ∧ t.mem
    = s.mem) ∧ ((s.core pair.val).bank = 0 → (s.core pair.val).banks ≠ [] → (t.core pair.val).epc0 = pc ∧ (t.core pair.val).x 0
    2 = (s.core pair.val).x 0 2 - 76) ∧ t.now = s.now)) ∧
  (∀ (s : State) (pair : Fin 4) (pc : Word), s.canonical = true → s.cores.length = 4 → s.bestFor pair.val = none → s.lostRace
    pair.val = true → completes (exec (.interruptAccept pair pc) s) (fun t => (t.core pair.val).cause0 = w32 (0x80000000 +
    0x3FF) ∧ t.flag (Reg.ICU_T_EVENT pair.val) F.ICU_T_EVENT.SPURIOUS = true ∧ (t.core pair.val).active = (s.core
    pair.val).active ∧ (t.core pair.val).bank = 0)) ∧
  (∀ (s : State) (source : Fin 512) (k : Nat) (l : List Nat), s.flag (Reg.ICU_SRC_CFG source.val) F.ICU_SRC_CFG.MODE = false →
    s.offeredTo source.val = k :: l → completes (exec (.offerTimeout source) s) (fun t => (∀ q, (targetsAfter (some k)).find?
    (fun q => s.srcTargets source.val q && s.canTake q source.val) = some q → t.icu.offers = s.icu.offers.filter (fun o => o.1
    != source.val) ++ [(source.val, q, false)]) ∧ ((targetsAfter (some k)).find? (fun q => s.srcTargets source.val q &&
    s.canTake q source.val) = none → t.icu.offers = s.icu.offers.filter (fun o => o.1 != source.val)) ∧ t.regs = s.regs ∧
    t.cores = s.cores ∧ t.now = s.now)) ∧
  (∀ (s : State) (pair : Fin 4) (value : Word), s.canonical = true → s.cores.length = 4 → F.ICU_T_EOI.ID.get value < 512 →
    completes (exec (.icuEoi pair value) s) (fun t => ((s.core pair.val).active.any (fun a => a.1 == F.ICU_T_EOI.ID.get value)
    = true → (t.core pair.val).active = (s.core pair.val).active.filter (fun a => a.1 != F.ICU_T_EOI.ID.get value) ∧
    t.srcActive (F.ICU_T_EOI.ID.get value) = false ∧ (s.lineHigh (F.ICU_T_EOI.ID.get value) = true → t.srcPending
    (F.ICU_T_EOI.ID.get value) = true)) ∧ ((s.core pair.val).active.any (fun a => a.1 == F.ICU_T_EOI.ID.get value) = false → t
    = s.event (Reg.ICU_T_EVENT pair.val) F.ICU_T_EVENT.EOI_BAD) ∧ t.mem = s.mem ∧ t.now = s.now))

/-- MRET of a firmware bank is an illegal instruction; in bank 0 it takes a waiting source, restores the frame last pushed, or resumes the bank of SYS_PCn_RET at its EPC. An ECALL or exception enters bank 0 with its cause; the handler's address is a free value (log entry 30). FENCE completes when no write is outstanding. A lockstep mismatch and a missed heartbeat halt the pair by a doubt and a fence. An abort acknowledgement ends the instance shown, or sets ACK_BAD. -/
def Obligations.PolicyCores : Prop :=
  (∀ (s : State) (pair : Fin 4), s.canonical = true → s.cores.length = 4 → (s.core pair.val).halted = false → (s.unit (0x0B00 +
    pair.val)).fenced = false → (s.core pair.val).bank ≠ 0 → completes (exec (.mret pair) s) (fun t => (t.core pair.val).cause0
    = 2 ∧ (t.core pair.val).bank = 0 ∧ t.free = s.free + 1 ∧ ((s.core pair.val).bank ≠ 0 → (s.core pair.val).bank < 4 → t.fld
    (Reg.SYS_PC_BANK_EPC pair.val (s.core pair.val).bank) F.SYS_PC_BANK_EPC.EPC = (s.core pair.val).pc.toNat / 2 ∧ t.fld
    (Reg.SYS_PC_RET pair.val) F.SYS_PC_RET.BANK_RET = (s.core pair.val).bank ∧ t.mem = s.mem))) ∧
  (∀ (s : State) (pair : Fin 4) (m : Nat), s.canonical = true → s.cores.length = 4 → (s.core pair.val).halted = false → (s.unit
    (0x0B00 + pair.val)).fenced = false → (s.core pair.val).bank = 0 → s.bestFor pair.val = some m → m < 512 → completes (exec
    (.mret pair) s) (fun t => (t.core pair.val).active = (m, s.srcPrio m) :: (s.core pair.val).active ∧ t.srcActive m = true ∧
    (t.core pair.val).pc = s.vector pair.val m ∧ t.mem = s.mem)) ∧
  (∀ (s : State) (pair : Fin 4) (l : List (Option Nat)), s.canonical = true → s.cores.length = 4 → (s.core pair.val).halted =
    false → (s.unit (0x0B00 + pair.val)).fenced = false → (s.core pair.val).bank = 0 → s.bestFor pair.val = none → (s.core
    pair.val).ctx = none :: l → ((s.core pair.val).banks.all (fun b => decide (b.x.length = 31)) = true ∧ (s.core
    pair.val).banks ≠ []) → completes (exec (.mret pair) s) (fun t => (t.core pair.val).pc = w32 (s.le ((localBase pair.val +
    (ownOffset pair.val ((s.core pair.val).x 0 2).toNat).getD 0) + 4 * 16) 4) ∧ (t.core pair.val).cause0 = w32 (s.le
    ((localBase pair.val + (ownOffset pair.val ((s.core pair.val).x 0 2).toNat).getD 0) + 4 * 17) 4) ∧ (t.core pair.val).prio0
    = w32 (s.le ((localBase pair.val + (ownOffset pair.val ((s.core pair.val).x 0 2).toNat).getD 0) + 4 * 18) 4) ∧ (t.core
    pair.val).x 0 2 = (s.core pair.val).x 0 2 + 76 ∧ (t.core pair.val).x 0 1 = w32 (s.le ((localBase pair.val + (ownOffset
    pair.val ((s.core pair.val).x 0 2).toNat).getD 0) + 4 * 0) 4) ∧ (t.core pair.val).x 0 31 = w32 (s.le ((localBase pair.val +
    (ownOffset pair.val ((s.core pair.val).x 0 2).toNat).getD 0) + 4 * 15) 4) ∧ (t.core pair.val).ctx = l ∧ t.mem = s.mem ∧
    regsKept s t [])) ∧
  (∀ (s : State) (pair : Fin 4) (k : Option (Option Nat)), s.canonical = true → s.cores.length = 4 → (s.core pair.val).halted =
    false → (s.unit (0x0B00 + pair.val)).fenced = false → (s.core pair.val).bank = 0 → s.bestFor pair.val = none → (s.core
    pair.val).ctx.head? = k → k ≠ some none → completes (exec (.mret pair) s) (fun t => (s.fld (Reg.SYS_PC_RET pair.val)
    F.SYS_PC_RET.BANK_RET = 0 → (t.core pair.val).pc = (s.core pair.val).epc0 ∧ (t.core pair.val).bank = 0) ∧ (s.fld
    (Reg.SYS_PC_RET pair.val) F.SYS_PC_RET.BANK_RET ≠ 0 → s.flag (Reg.SYS_PC_BANK pair.val (s.fld (Reg.SYS_PC_RET pair.val)
    F.SYS_PC_RET.BANK_RET)) F.SYS_PC_BANK.ENABLE = true → (t.core pair.val).bank = s.fld (Reg.SYS_PC_RET pair.val)
    F.SYS_PC_RET.BANK_RET ∧ (t.core pair.val).pc = w32 (s.fld (Reg.SYS_PC_BANK_EPC pair.val (s.fld (Reg.SYS_PC_RET pair.val)
    F.SYS_PC_RET.BANK_RET)) F.SYS_PC_BANK_EPC.EPC * 2) ∧ (t.core pair.val).resv = none) ∧ (s.fld (Reg.SYS_PC_RET pair.val)
    F.SYS_PC_RET.BANK_RET ≠ 0 → s.flag (Reg.SYS_PC_BANK pair.val (s.fld (Reg.SYS_PC_RET pair.val) F.SYS_PC_RET.BANK_RET))
    F.SYS_PC_BANK.ENABLE = false → t = s) ∧ t.mem = s.mem)) ∧
  (∀ (s : State) (pair : Fin 4) (cause : Word) (pc : Word), s.canonical = true → s.cores.length = 4 → (s.core pair.val).halted
    = false → (s.unit (0x0B00 + pair.val)).fenced = false → completes (exec (.ecall pair cause pc) s) (fun t => (t.core
    pair.val).cause0 = cause ∧ (t.core pair.val).bank = 0 ∧ t.free = s.free + 1 ∧ ((s.core pair.val).bank ≠ 0 → (s.core
    pair.val).bank < 4 → t.fld (Reg.SYS_PC_BANK_EPC pair.val (s.core pair.val).bank) F.SYS_PC_BANK_EPC.EPC = pc.toNat / 2 ∧
    t.fld (Reg.SYS_PC_RET pair.val) F.SYS_PC_RET.BANK_RET = (s.core pair.val).bank ∧ t.mem = s.mem))) ∧
  (∀ (s : State) (pair : Fin 4), (s.core pair.val).halted = false → (s.unit (0x0B00 + pair.val)).fenced = false → completes
    (exec (.fence pair) s) (fun t => (s.gml.outstanding.any (fun x => x.unit == 0x0B00 + pair.val && x.write && x.status == 0)
    = false → pair.val < s.cores.length → (t.core pair.val).pc = (s.core pair.val).pc + 4) ∧ (s.gml.outstanding.any (fun x =>
    x.unit == 0x0B00 + pair.val && x.write && x.status == 0) = true → t = s) ∧ t.regs = s.regs ∧ t.mem = s.mem ∧ t.units =
    s.units)) ∧
  (∀ (s : State) (pair : Fin 4) (ue : Bool), s.canonical = true → (s.core pair.val).halted = false → (s.unit (0x0B00 +
    pair.val)).fenced = false → completes (exec (.lockstepMismatch pair ue) s) (fun t => (ue = false → t.flag (Reg.SYS_PC_ERR
    pair.val) F.SYS_PC_ERR.LOCKSTEP = true) ∧ (ue = true → t.flag (Reg.SYS_PC_ERR pair.val) F.SYS_PC_ERR.LM_UE = true) ∧ (5,
    0x0B00 + pair.val, 0) ∈ t.safety.doubts ∧ (t.unit (0x0B00 + pair.val)).fenced = true ∧ t.flag Reg.SI_EVENT F.SI_EVENT.DOUBT
    = true ∧ t.mem = s.mem)) ∧
  (∀ (s : State) (pair : Fin 4) (value : Word), s.canonical = true → completes (exec (.abortAck pair value) s) (fun t =>
    ((s.flag (Reg.SYS_PC_ABORT pair.val) F.SYS_PC_ABORT.VALID = true ∧ s.fld (Reg.SYS_PC_ABORT pair.val) F.SYS_PC_ABORT.ENTRY =
    F.SYS_PC_ABORT_ACK.ENTRY.get value ∧ s.fld (Reg.SYS_PC_ABORT pair.val) F.SYS_PC_ABORT.GEN = F.SYS_PC_ABORT_ACK.GEN.get
    value) → ∀ j, t.entry? (F.SYS_PC_ABORT_ACK.ENTRY.get value) = some j → j.st = .cancelled ∧ j.stopping = false) ∧ (¬ (s.flag
    (Reg.SYS_PC_ABORT pair.val) F.SYS_PC_ABORT.VALID = true ∧ s.fld (Reg.SYS_PC_ABORT pair.val) F.SYS_PC_ABORT.ENTRY =
    F.SYS_PC_ABORT_ACK.ENTRY.get value ∧ s.fld (Reg.SYS_PC_ABORT pair.val) F.SYS_PC_ABORT.GEN = F.SYS_PC_ABORT_ACK.GEN.get
    value) → t = s.event (Reg.SYS_PC_ERR pair.val) F.SYS_PC_ERR.ACK_BAD) ∧ t.mem = s.mem ∧ t.now = s.now)) ∧
  (∀ (s : State) (pair : Fin 4) (value : Word), completes (exec (.siHbWrite pair value) s) (fun t => t =
    { s with safety := { s.safety with hb := s.safety.hb.set pair.val s.now } })) ∧
  (∀ (s : State) (pair : Fin 4), s.canonical = true → (s.core pair.val).halted = false → (s.unit (0x0B00 + pair.val)).fenced =
    false → (s.unit (0x0B00 + pair.val)).gated = false → s.kin.firmwareDone = true → completes (exec (.heartbeatMissed pair) s)
    (fun t => t.now = max s.now (s.safety.hb.getD pair.val 0 + 2000000) ∧ (11, 0x0B00 + pair.val, 0) ∈ t.safety.doubts ∧
    (t.unit (0x0B00 + pair.val)).fenced = true ∧ t.mem = s.mem))

/-- GO on an idle unit begins a memory job or arms a tap; a busy unit refuses it, and a writer that is not admitted is refused by the firewall (its initiator is a free value). A second tap on a unit has result 6; a tap on a fenced unit, and a cancel, end ABORTED. A job that has its bytes ends MATCH, MISMATCH, NO_COMPARE or SHORT by its CRC; an error response ends it ERROR. -/
def Obligations.CheckValueUnits : Prop :=
  (∀ (s : State) (cvu : Fin 8) (domain : BitVec 4) (value : Word), s.canonical = true → (s.unit (0x0A00 + cvu.val)).fenced =
    false → F.CVU_GO.GO.get value = 1 → s.cvus.length = 8 → s.flag (Reg.CVU_CTRL cvu.val) F.CVU_CTRL.TAP = false → completes
    (exec (.cvuMemoryJob cvu domain value) s) (fun t => (s.cvuAdmits cvu.val domain.toNat = true → s.cvuState cvu.val = 0 →
    t.fld (Reg.CVU_STATUS cvu.val) F.CVU_STATUS.STATE = 1 ∧ (t.cvu cvu.val).unit = none ∧ (t.cvu cvu.val).bytes = none) ∧
    (s.cvuAdmits cvu.val domain.toNat = true → s.cvuState cvu.val ≠ 0 → t = s.event (Reg.CVU_EVENT cvu.val)
    F.CVU_EVENT.REFUSED) ∧ (s.cvuAdmits cvu.val domain.toNat = false → t.flag Reg.FWL_EVENT F.FWL_EVENT.REFUSED = true ∧ t.free
    = s.free + 1 ∧ t.fld (Reg.CVU_STATUS cvu.val) F.CVU_STATUS.STATE = s.fld (Reg.CVU_STATUS cvu.val) F.CVU_STATUS.STATE ∧
    t.cvus = s.cvus) ∧ t.mem = s.mem ∧ t.now = s.now)) ∧
  (∀ (s : State) (cvu : Fin 8) (domain : BitVec 4) (value : Word), s.canonical = true → (s.unit (0x0A00 + cvu.val)).fenced =
    false → F.CVU_GO.GO.get value = 1 → s.cvus.length = 8 → s.flag (Reg.CVU_CTRL cvu.val) F.CVU_CTRL.TAP = true → completes
    (exec (.cvuTapArm cvu domain value) s) (fun t => (s.cvuAdmits cvu.val domain.toNat = true → s.cvuState cvu.val = 0 →
    (List.range 8).any (fun m => m != cvu.val && decide (2 ≤ s.cvuState m) && (s.cvu m).unit == some (s.fld (Reg.CVU_TAP
    cvu.val) F.CVU_TAP.UNIT)) = false → (s.unit (s.fld (Reg.CVU_TAP cvu.val) F.CVU_TAP.UNIT)).fenced = false → t.fld
    (Reg.CVU_STATUS cvu.val) F.CVU_STATUS.STATE = 2 ∧ (t.cvu cvu.val).unit = some (s.fld (Reg.CVU_TAP cvu.val) F.CVU_TAP.UNIT))
    ∧ (s.cvuAdmits cvu.val domain.toNat = true → s.cvuState cvu.val = 0 → (List.range 8).any (fun m => m != cvu.val && decide
    (2 ≤ s.cvuState m) && (s.cvu m).unit == some (s.fld (Reg.CVU_TAP cvu.val) F.CVU_TAP.UNIT)) = false → (s.unit (s.fld
    (Reg.CVU_TAP cvu.val) F.CVU_TAP.UNIT)).fenced = true → t.fld (Reg.CVU_STATUS cvu.val) F.CVU_STATUS.STATE = 0 ∧ t.fld
    (Reg.CVU_STATUS cvu.val) F.CVU_STATUS.RESULT = 4 ∧ t.flag (Reg.CVU_EVENT cvu.val) F.CVU_EVENT.ABORTED = true) ∧
    (s.cvuAdmits cvu.val domain.toNat = true → s.cvuState cvu.val = 0 → (List.range 8).any (fun m => m != cvu.val && decide (2
    ≤ s.cvuState m) && (s.cvu m).unit == some (s.fld (Reg.CVU_TAP cvu.val) F.CVU_TAP.UNIT)) = true → t.fld (Reg.CVU_STATUS
    cvu.val) F.CVU_STATUS.STATE = 0 ∧ t.fld (Reg.CVU_STATUS cvu.val) F.CVU_STATUS.RESULT = 6 ∧ t.flag (Reg.CVU_EVENT cvu.val)
    F.CVU_EVENT.REFUSED = true) ∧ (s.cvuAdmits cvu.val domain.toNat = true → s.cvuState cvu.val ≠ 0 → t = s.event
    (Reg.CVU_EVENT cvu.val) F.CVU_EVENT.REFUSED) ∧ (s.cvuAdmits cvu.val domain.toNat = false → t.flag Reg.FWL_EVENT
    F.FWL_EVENT.REFUSED = true ∧ t.free = s.free + 1 ∧ t.fld (Reg.CVU_STATUS cvu.val) F.CVU_STATUS.STATE = s.fld
    (Reg.CVU_STATUS cvu.val) F.CVU_STATUS.STATE ∧ t.cvus = s.cvus) ∧ t.mem = s.mem ∧ t.now = s.now)) ∧
  (∀ (s : State) (cvu : Fin 8) (domain : BitVec 4) (value : Word), s.canonical = true → F.CVU_GO.CANCEL.get value = 1 →
    completes (exec (.cvuCancel cvu domain value) s) (fun t => (s.cvuAdmits cvu.val domain.toNat = true → s.cvuState cvu.val ≠
    0 → t.fld (Reg.CVU_STATUS cvu.val) F.CVU_STATUS.STATE = 0 ∧ t.fld (Reg.CVU_STATUS cvu.val) F.CVU_STATUS.RESULT = 4 ∧ t.flag
    (Reg.CVU_EVENT cvu.val) F.CVU_EVENT.ABORTED = true) ∧ (s.cvuAdmits cvu.val domain.toNat = true → s.cvuState cvu.val = 0 → t
    = s) ∧ (s.cvuAdmits cvu.val domain.toNat = false → t.flag Reg.FWL_EVENT F.FWL_EVENT.REFUSED = true ∧ t.free = s.free + 1 ∧
    t.fld (Reg.CVU_STATUS cvu.val) F.CVU_STATUS.STATE = s.fld (Reg.CVU_STATUS cvu.val) F.CVU_STATUS.STATE ∧ t.cvus = s.cvus) ∧
    t.mem = s.mem ∧ t.now = s.now)) ∧
  (∀ (s : State) (cvu : Fin 8), s.canonical = true → s.cvuState cvu.val = 1 → (s.judgeRun (⟨0x0A00 + cvu.val, s.fld
    (Reg.CVU_STATUS cvu.val) F.CVU_STATUS.OWNER, false⟩ : Issuer) (s.cvuAddr cvu.val) (s.reg (Reg.CVU_LENGTH cvu.val)).toNat
    false).2 = none → completes (exec (.cvuJobDone cvu) s) (fun t => t.fld (Reg.CVU_STATUS cvu.val) F.CVU_STATUS.STATE = 0 ∧
    (s.flag (Reg.CVU_CTRL cvu.val) F.CVU_CTRL.COMPARE = false → t.fld (Reg.CVU_STATUS cvu.val) F.CVU_STATUS.RESULT = 2) ∧
    (s.flag (Reg.CVU_CTRL cvu.val) F.CVU_CTRL.COMPARE = true → t.reg (Reg.CVU_RESULT cvu.val) = s.reg (Reg.CVU_EXPECTED
    cvu.val) → t.fld (Reg.CVU_STATUS cvu.val) F.CVU_STATUS.RESULT = 0) ∧ (s.flag (Reg.CVU_CTRL cvu.val) F.CVU_CTRL.COMPARE =
    true → ¬ t.reg (Reg.CVU_RESULT cvu.val) = s.reg (Reg.CVU_EXPECTED cvu.val) → t.fld (Reg.CVU_STATUS cvu.val)
    F.CVU_STATUS.RESULT = 1 ∧ t.flag (Reg.CVU_EVENT cvu.val) F.CVU_EVENT.MISMATCH = true) ∧ t.mem = s.mem ∧ t.now = s.now ∧
    t.reg (Reg.CVU_BYTES cvu.val) = s.reg (Reg.CVU_LENGTH cvu.val))) ∧
  (∀ (s : State) (cvu : Fin 8), s.canonical = true → s.cvuState cvu.val = 1 → (((s.judgeRun (⟨0x0A00 + cvu.val, s.fld
    (Reg.CVU_STATUS cvu.val) F.CVU_STATUS.OWNER, false⟩ : Issuer) (s.cvuAddr cvu.val) (s.reg (Reg.CVU_LENGTH cvu.val)).toNat
    false).2.any (fun e => e.1 != .pending)) = true) → completes (exec (.cvuJobDone cvu) s) (fun t => t.fld (Reg.CVU_STATUS
    cvu.val) F.CVU_STATUS.STATE = 0 ∧ t.fld (Reg.CVU_STATUS cvu.val) F.CVU_STATUS.RESULT = 3 ∧ t.flag (Reg.CVU_EVENT cvu.val)
    F.CVU_EVENT.ERROR = true ∧ t.mem = s.mem)) ∧
  (∀ (s : State) (cvu : Fin 8) (b : List Byte), s.canonical = true → s.cvuState cvu.val = 3 → (s.cvu cvu.val).bytes = some b →
    completes (exec (.cvuJobDone cvu) s) (fun t => t.fld (Reg.CVU_STATUS cvu.val) F.CVU_STATUS.STATE = 0 ∧ (s.flag
    (Reg.CVU_CTRL cvu.val) F.CVU_CTRL.COMPARE = false → t.fld (Reg.CVU_STATUS cvu.val) F.CVU_STATUS.RESULT = (if b.length <
    (s.reg (Reg.CVU_LENGTH cvu.val)).toNat then 5 else 2)) ∧ (s.flag (Reg.CVU_CTRL cvu.val) F.CVU_CTRL.COMPARE = true → t.reg
    (Reg.CVU_RESULT cvu.val) = s.reg (Reg.CVU_EXPECTED cvu.val) → ¬ (b.length < (s.reg (Reg.CVU_LENGTH cvu.val)).toNat) → t.fld
    (Reg.CVU_STATUS cvu.val) F.CVU_STATUS.RESULT = 0) ∧ (s.flag (Reg.CVU_CTRL cvu.val) F.CVU_CTRL.COMPARE = true → (¬ t.reg
    (Reg.CVU_RESULT cvu.val) = s.reg (Reg.CVU_EXPECTED cvu.val) ∨ b.length < (s.reg (Reg.CVU_LENGTH cvu.val)).toNat) → t.fld
    (Reg.CVU_STATUS cvu.val) F.CVU_STATUS.RESULT = (if b.length < (s.reg (Reg.CVU_LENGTH cvu.val)).toNat then 5 else 1) ∧
    t.flag (Reg.CVU_EVENT cvu.val) F.CVU_EVENT.MISMATCH = true) ∧ t.mem = s.mem ∧ t.now = s.now))

/-- A matching tinder job covers its unit and moves its rotation on; a mismatch promotes the same job and is noted. Coverage is promoted before its limit and late past it. A slice starts when its resources are free; its end notes the test, and a wrong signature is an event, severe for checker 11 and a fence otherwise. A checker 80 ms untested is starved, 100 ms untested late. -/
def Obligations.TinderAndSelfTests : Prop :=
  (∀ (s : State) (unit : Half) (c : CoverSt) (n : Nat), s.canonical = true → s.cover? unit.toNat = some c → c.running = true →
    c.cvu = some n → n < 8 → s.cvuState n = 0 → completes (exec (.tinderJobDone unit) s) (fun t => (s.fld (Reg.CVU_STATUS n)
    F.CVU_STATUS.RESULT = 0 → t.cover? unit.toNat = some
    { c with running := false, pending := true, cvu := none, step := 0, runs := c.runs + 1, covered := s.now, interval := s.now, lates := 0, promoted := false, turn := (c.turn + 1) % max 1 (s.rotation unit.toNat).length })
    ∧ ((s.fld (Reg.CVU_STATUS n) F.CVU_STATUS.RESULT = 1 ∨ s.fld (Reg.CVU_STATUS n) F.CVU_STATUS.RESULT = 5) → s.stage ≠ 10 →
    (t.unit unit.toNat).fenced = false → ∃ d, t.cover? unit.toNat = some d ∧ d.promoted = true ∧ d.mismatchAt = some s.now ∧
    d.running = false) ∧ ((s.unit unit.toNat).heldBy = some 1 → (t.unit unit.toNat).heldBy = none) ∧ t.mem = s.mem ∧ t.now =
    s.now)) ∧
  (∀ (s : State) (unit : Half) (c : CoverSt), s.cover? unit.toNat = some c → c.promoted = false → s.running = true → completes
    (exec (.tinderPromote unit) s) (fun t => t.cover? unit.toNat = some { c with promoted := true } ∧ t.now = max s.now
    (c.covered + 100000000 - s.emb 0x3E 1 * 1000000) ∧ t.regs = s.regs ∧ t.mem = s.mem)) ∧
  (∀ (s : State) (unit : Half) (c : CoverSt), s.canonical = true → s.cover? unit.toNat = some c → s.running = true → completes
    (exec (.tinderLate unit) s) (fun t => t.now = max s.now (c.interval + 100000000) ∧ t.cover? unit.toNat = some
    { c with lates := min 2 (c.lates + 1), interval := t.now } ∧ t.flag Reg.SI_EVENT F.SI_EVENT.TINDER_LATE = true ∧
    (s.safetyUnit unit.toNat = true → 1 ≤ c.lates → (7, unit.toNat, 0) ∈ t.safety.doubts) ∧ (c.lates = 0 → t.safety.doubts =
    s.safety.doubts) ∧ t.mem = s.mem)) ∧
  (∀ (s : State) (checker : Fin 12) (unit : Half), (actTest (testAct checker.val unit.toNat)).2 = unit.toNat → s.actKnown
    (testAct checker.val unit.toNat) = true → s.mayStart (testAct checker.val unit.toNat) s.now = true → completes (exec
    (.selftestSliceStart checker unit) s) (fun t => t.maint.running = s.maint.running ++ [((testAct checker.val unit.toNat),
    s.now)] ∧ (∀ x, t.selftest? (actTest (testAct checker.val unit.toNat)).1 (actTest (testAct checker.val unit.toNat)).2 =
    some x → x.running = true) ∧ (holdsUnit (actTest (testAct checker.val unit.toNat)).1 = true → (t.unit unit.toNat).heldBy =
    some 2) ∧ t.mem = s.mem ∧ t.now = s.now)) ∧
  (∀ (s : State) (checker : Fin 12) (unit : Half) (sig : Word) (x : SelfTestSt) (r : Nat × Nat) (good : Bool), s.canonical =
    true → s.selftest? checker.val unit.toNat = some x → x.running = true → (s.maint.running.find? (fun r => r.1 == (testAct
    checker.val unit.toNat)) = some r) → (good = (s.flash.expected s.imgRegion).any (fun e => e.kind == 2 && e.pattern ==
    checker.val && e.unit == unit.toNat && e.expected == sig.toNat)) → completes (exec (.selftestSliceEnd checker unit sig) s)
    (fun t => t.now = max s.now (r.2 + actNs (testAct checker.val unit.toNat)) ∧ (good = true → ∃ y, t.selftest? checker.val
    unit.toNat = some y ∧ y.last = t.now ∧ y.lates = 0 ∧ y.starved = false) ∧ (good = false → t.flag Reg.SI_EVENT
    F.SI_EVENT.SELFTEST_FAIL = true) ∧ (good = false → checker.val = 11 → (16, 0x1200) ∈ t.safety.severes) ∧ (good = false →
    checker.val ≠ 11 → checker.val ≠ 8 → (t.unit unit.toNat).fenced = true) ∧ t.mem = s.mem)) ∧
  (∀ (s : State) (checker : Fin 12) (unit : Half) (x : SelfTestSt), s.canonical = true → s.selftest? checker.val unit.toNat =
    some x → x.starved = false → s.running = true → completes (exec (.selftestStarved checker unit) s) (fun t => t.now = max
    s.now (x.last + 80000000) ∧ t.selftest? checker.val unit.toNat = some { x with starved := true } ∧ t.flag Reg.SI_EVENT
    F.SI_EVENT.SELFTEST_LATE = true ∧ t.adapt.starvedAt = t.now ∧ t.mem = s.mem)) ∧
  (∀ (s : State) (checker : Fin 12) (unit : Half) (x : SelfTestSt), s.canonical = true → s.selftest? checker.val unit.toNat =
    some x → s.running = true → completes (exec (.selftestLate checker unit) s) (fun t => t.now = max s.now (x.last + 100000000
    * (x.lates + 1)) ∧ t.selftest? checker.val unit.toNat = some { x with lates := x.lates + 1 } ∧ t.flag Reg.SI_EVENT
    F.SI_EVENT.SELFTEST_LATE = true ∧ (1 ≤ x.lates → s.testConcerns checker.val unit.toNat = true → (8, unit.toNat, 0) ∈
    t.safety.doubts) ∧ t.mem = s.mem))

/-- A doubt at the selector selects the Ember path. Safe-state entry drives FAULT_N low and SAFE_STATE, holds PEER_ALIVE low, disables the Output Framer and halts the sequencer; without a flush window the journal is fenced, and the flush window ends in a warm reset with cause SM. Each of the Island's own checks that fails is cause 16: a severe event, and HEARTBEAT stops. A VDD_SI excursion resets the Island and the core (log entry 34). -/
def Obligations.SafetyIsland : Prop :=
  (∀ (s : State) (d : Nat × Nat × Word) (l : List (Nat × Nat × Word)), s.canonical = true → s.safety.doubts = d :: l →
    s.safety.sel.held = none → completes (exec .doubtAtSelector s) (fun t => t.emberSelected = true ∧ t.safety.doubts = l ∧
    t.fld Reg.SI_SELECT F.SI_SELECT.CLEAN = 0 ∧ t.fld Reg.SI_SELECT F.SI_SELECT.HOLDOFF_LEFT = s.emb 0x29 1 ∧ (s.emberSelected
    = false → t.flag Reg.SI_EVENT F.SI_EVENT.SWITCH = true) ∧ t.mem = s.mem ∧ t.now = s.now)) ∧
  (∀ (s : State) (x : Nat × Nat) (l : List (Nat × Nat)), s.canonical = true → s.safety.severes = x :: l → completes (exec
    .safeStateEntry s) (fun t => t.pins.faultN = false ∧ t.pins.safeState = true ∧ t.pins.peerAlive = false ∧ t.flag
    Reg.SI_STATUS F.SI_STATUS.SAFE = true ∧ t.ofEnabled = false ∧ t.fgs.halted = true ∧ t.safety.severes = l ∧ t.safety.severe
    = some (s.safety.severe.getD x.1) ∧ (x.1 = 16 → t.pins.heartbeat = false ∧ t.safety.stopped = true ∧ t.safety.flushDue =
    none) ∧ (s.emb 0x2C 1 ≠ 1 → t.journal.fenced = true) ∧ (s.emb 0x2C 1 = 1 → x.1 ≠ 16 → t.safety.flushDue = some
    (s.safety.flushDue.getD (s.now + 10000000))) ∧ t.domainOn 168 = false ∧ t.domainOn 186 = false ∧ t.mem = s.mem ∧ t.now =
    s.now)) ∧
  (∀ (s : State) (d : Nat), s.canonical = true → s.safety.flushDue = some d → s.resettable = true → 2 ≤ s.stage → s.stage ≠ 14
    → completes (exec .severeFlushExpiry s) (fun t => t.kin.coreReset = true ∧ t.now = max s.now d ∧ t.flag Reg.SYS_RST_CAUSE
    F.SYS_RST_CAUSE.SM = true ∧ t.stage = 0 ∧ t.safety.flushDue = none ∧ t.kin.holdDue = some (t.now + 10000) ∧ t.otp = s.otp)) ∧
  (∀ (s : State) (pass : Bool), s.canonical = true → s.smRuns = true → completes (exec (.islandRomCheck pass) s) (fun t =>
    (pass = true → t = s))) ∧
  (∀ (s : State), s.canonical = true → s.smRuns = true → completes (exec (.islandRomCheck false) s) (fun t => (16, 0x1200) ∈
    t.safety.severes ∧ t.safety.stopped = true ∧ t.pins.heartbeat = false ∧ t.fld Reg.SI_LAST F.SI_LAST.CAUSE = 16 ∧ regsKept s
    t [Reg.SI_LAST, Reg.EJ_EVENT, Reg.EJ_LOST_CNT] ∧ t.mem = s.mem)) ∧
  (∀ (s : State), s.canonical = true → s.smRuns = true → completes (exec .islandWatchdogExpiry s) (fun t => (16, 0x1200) ∈
    t.safety.severes ∧ t.safety.stopped = true ∧ t.pins.heartbeat = false ∧ t.fld Reg.SI_LAST F.SI_LAST.CAUSE = 16 ∧ regsKept s
    t [Reg.SI_LAST, Reg.EJ_EVENT, Reg.EJ_LOST_CNT] ∧ t.mem = s.mem ∧ t.now = max s.now (s.safety.served + 2000000))) ∧
  (∀ (s : State), s.canonical = true → s.smRuns = true → completes (exec .islandClockDisagree s) (fun t => (16, 0x1200) ∈
    t.safety.severes ∧ t.safety.stopped = true ∧ t.pins.heartbeat = false ∧ t.fld Reg.SI_LAST F.SI_LAST.CAUSE = 16 ∧ regsKept s
    t [Reg.SI_LAST, Reg.EJ_EVENT, Reg.EJ_LOST_CNT] ∧ t.mem = s.mem ∧ t.now = s.now)) ∧
  (∀ (s : State), s.canonical = true → s.smRuns = true → completes (exec .smLockstepMismatch s) (fun t => (16, 0x1200) ∈
    t.safety.severes ∧ t.safety.stopped = true ∧ t.pins.heartbeat = false ∧ t.fld Reg.SI_LAST F.SI_LAST.CAUSE = 16 ∧ regsKept s
    t [Reg.SI_LAST, Reg.EJ_EVENT, Reg.EJ_LOST_CNT] ∧ t.mem = s.mem ∧ t.now = s.now)) ∧
  (∀ (s : State), s.canonical = true → s.smRuns = true → completes (exec .islandSramUe s) (fun t => (16, 0x1200) ∈
    t.safety.severes ∧ t.safety.stopped = true ∧ t.pins.heartbeat = false ∧ t.fld Reg.SI_LAST F.SI_LAST.CAUSE = 16 ∧ regsKept s
    t [Reg.SI_LAST, Reg.EJ_EVENT, Reg.EJ_LOST_CNT] ∧ t.mem = s.mem ∧ t.now = s.now)) ∧
  (∀ (s : State), s.canonical = true → s.kin.porstLow = false → completes (exec .vddSiExcursion s) (fun t => t.kin.siFailed =
    true ∧ t.kin.coreReset = true ∧ t.safety = State.reset.safety ∧ t.journal = State.reset.journal ∧ t.pins =
    { State.reset.pins with errInLow := s.pins.errInLow } ∧ (∀ a, inSi a = true → t.reg a = resetWord a) ∧ t.now = s.now ∧
    t.otp = s.otp)) ∧
  (∀ (s : State), s.smRuns = true → completes (exec .heartbeatToggle s) (fun t => t.now = max s.now (s.safety.served + 1000000)
    ∧ t.pins = { s.pins with heartbeat := !s.pins.heartbeat } ∧ t.safety = { s.safety with served := t.now } ∧ t.regs = s.regs
    ∧ t.mem = s.mem))

/-- A voltage 6 % or a clock 5 % beyond its range is severe (causes 15, 10), a clock 1 % beyond is doubt; the level a monitor has reached is kept, so a limit it stays beyond is not crossed again (log entry 34). A sensor at 125 °C is doubt cause 9, at 130 °C severe; one under calibration keeps its last value. ERR_IN_N low for 1 µs is latched, and in READY raises what the configuration names, once for each low. -/
def Obligations.MonitorsAndErrIn : Prop :=
  (∀ (s : State) (num : Byte) (value : Int) (ls : List (Nat × Nat × Nat × Int)), s.canonical = true → s.smRuns = true → ls =
    monitorLimits num.toNat value → ((0x10 > num.toNat ∨ 0x1F < num.toNat)) → completes (exec (.monitor num value) s) (fun t =>
    ((assocGet t.safety.levels num.toNat).getD 0) = (ls.map (·.1)).foldl max 0 ∧ (ls.any (fun l => decide (((assocGet
    s.safety.levels num.toNat).getD 0) < l.1)) = true → t.flag Reg.SI_EVENT F.SI_EVENT.MONITOR = true) ∧ ls.all (fun l =>
    !(decide (((assocGet s.safety.levels num.toNat).getD 0) < l.1) && l.2.1 == 3) || t.safety.severes.contains (l.2.2.1,
    0x1200)) = true ∧ ls.all (fun l => !(decide (((assocGet s.safety.levels num.toNat).getD 0) < l.1) && l.2.1 == 2) ||
    t.safety.doubts.contains (l.2.2.1, 0x1200, 0)) = true ∧ (ls.any (fun l => decide (((assocGet s.safety.levels
    num.toNat).getD 0) < l.1)) = false → t.regs = s.regs ∧ t.safety.doubts = s.safety.doubts ∧ t.safety.severes =
    s.safety.severes) ∧ t.mem = s.mem ∧ t.now = s.now)) ∧
  (∀ (s : State) (num : Byte) (value : Int), s.canonical = true → s.smRuns = true → 0x10 ≤ num.toNat → num.toNat ≤ 0x1F →
    (s.maint.running.any (fun r => r.1 == 0x4000 + (num.toNat - 0x10)) = false) → (assocGet s.safety.levels num.toNat).getD 0 =
    0 → s.safety.excluded = [] → s.safety.temps = List.replicate 16 none → completes (exec (.monitor num value) s) (fun t =>
    t.safety.temps[num.toNat - 0x10]? = some (some value) ∧ (1250 ≤ value → (9, 0x1200, 0) ∈ t.safety.doubts) ∧ (1300 ≤ value →
    (9, 0x1200) ∈ t.safety.severes) ∧ t.fld Reg.PMU_STATUS F.PMU_STATUS.HOTTEST = unsigned 16 value ∧ t.mem = s.mem ∧ t.now =
    s.now)) ∧
  (∀ (s : State) (num : Byte) (value : Int), s.smRuns = true → 0x10 ≤ num.toNat → num.toNat ≤ 0x1F → (s.maint.running.any (fun
    r => r.1 == 0x4000 + (num.toNat - 0x10)) = true) → completes (exec (.monitor num value) s) (fun t => t = s)) ∧
  (∀ (s : State) (lowNs : Nat), s.kin.porstLow = false → lowNs = 0 → completes (exec (.errIn lowNs) s) (fun t => t.pins =
    { s.pins with errInLow := false } ∧ t.safety = { s.safety with errRaised := false } ∧ t.regs = s.regs ∧ t.mem = s.mem)) ∧
  (∀ (s : State) (lowNs : Nat), s.kin.porstLow = false → 1 ≤ lowNs → lowNs < 1000 → completes (exec (.errIn lowNs) s) (fun t =>
    t = { s with pins := { s.pins with errInLow := true } })) ∧
  (∀ (s : State) (lowNs : Nat), s.canonical = true → s.kin.porstLow = false → 1000 ≤ lowNs → completes (exec (.errIn lowNs) s)
    (fun t => t.pins = { s.pins with errInLow := true, errInLatched := true } ∧ t.flag Reg.SI_STATUS F.SI_STATUS.ERR_IN = true
    ∧ t.safety.errLowUs = min 0xFFFFFFFF (lowNs / 1000) ∧ (s.isReady = true → t.safety.errRaised = true) ∧ (s.isReady = true →
    s.safety.errRaised = false → s.emb 0x2D 1 = 3 → (12, 0x1200) ∈ t.safety.severes) ∧ (s.isReady = true → s.safety.errRaised =
    false → s.emb 0x2D 1 = 2 → (12, 0x1200, 0) ∈ t.safety.doubts) ∧ (s.isReady = false → t.safety.severes = s.safety.severes ∧
    t.safety.doubts = s.safety.doubts) ∧ t.mem = s.mem ∧ t.now = s.now))

/-- A write from Domain ID 0 or 1 sets the region that the bank's FWL_SEL names: its control fields from the value written, its range, pages and domains from the shadows, which are then gone. A locked region keeps its content unless the writer may unlock it, and LOCKED_WRITE is raised. Any other domain is refused by the firewall; what the refusal record shows of the initiator is a free value (log entry 34). -/
def Obligations.FirewallRegions : Prop :=
  (∀ (s : State) (bank : Fin 6) (domain : BitVec 4) (value : Word) (m : Nat) (n : Nat), ((domain = 0 ∨ domain = 1)) → m = s.fld
    (bankOff bank.val Reg.FWL_SEL) F.FWL_SEL.TARGET → n = s.fld (bankOff bank.val Reg.FWL_SEL) F.FWL_SEL.REGION →
    ((s.safety.regions.filter (fun r => r.target == m && r.region == n)).any (fun r => r.lock && !s.mayUnlock bank.val
    domain.toNat r) = false) → completes (exec (.fwlRgnCtrlWrite bank domain value) s) (fun t => (t.safety.regions.filter (fun
    r => r.target == m && r.region == n)).map (fun r => (r.enable, r.lock, r.any, r.initiator)) = [(F.FWL_RGN_CTRL.ENABLE.get
    value == 1, F.FWL_RGN_CTRL.LOCK.get value == 1, F.FWL_RGN_CTRL.ANY.get value == 1, F.FWL_RGN_CTRL.INITIATOR.get value)] ∧
    (t.safety.regions.filter (fun r => r.target == m && r.region == n)).map (fun r => (r.base, r.pages)) = [((s.fwlShown
    Reg.FWL_RGN_BASE_HI m n).toNat % 1024 * 2 ^ 32 + (s.fwlShown Reg.FWL_RGN_BASE_LO m n).toNat / 4096 * 4096, (s.fwlShown
    Reg.FWL_RGN_PAGES m n).toNat % 2 ^ 30)] ∧ t.safety.regions.filter (fun r => !(r.target == m && r.region == n)) =
    s.safety.regions.filter (fun r => !(r.target == m && r.region == n)) ∧ t.regs = s.regs ∧ t.mem = s.mem ∧ t.now = s.now)) ∧
  (∀ (s : State) (bank : Fin 6) (domain : BitVec 4) (value : Word), s.canonical = true → domain = 0 → ((s.safety.regions.filter
    (fun r => r.target == s.fld (bankOff bank.val Reg.FWL_SEL) F.FWL_SEL.TARGET && r.region == s.fld (bankOff bank.val
    Reg.FWL_SEL) F.FWL_SEL.REGION)).any (fun r => r.lock && !s.mayUnlock bank.val 0 r) = true) → completes (exec
    (.fwlRgnCtrlWrite bank domain value) s) (fun t => t.flag Reg.FWL_EVENT F.FWL_EVENT.LOCKED_WRITE = true ∧ t.flag
    Reg.SI_EVENT F.SI_EVENT.FIREWALL = true ∧ t.safety = s.safety ∧ t.shadow = s.shadow ∧ t.free = s.free + 1 ∧ t.mem = s.mem)) ∧
  (∀ (s : State) (bank : Fin 6) (domain : BitVec 4) (value : Word), s.canonical = true → 2 ≤ domain.toNat → completes (exec
    (.fwlRgnCtrlWrite bank domain value) s) (fun t => t.safety.regions = s.safety.regions ∧ t.shadow = s.shadow ∧ t.flag
    Reg.FWL_EVENT F.FWL_EVENT.REFUSED = true ∧ t.free = s.free + 1 ∧ t.mem = s.mem))

/-- The window of a pair expires at its due time, and an eye that has closed gives an invalid pair. The next message, of the invalid or the complete pair that is the older, is judged: an invalid one restarts the run of valid ones, three in a row in READY degrade the path, and while it is selected are severe cause 17; while the primary source is selected the message is held. A passing self-test clears its misses; two misses in a row in READY fail the path. -/
def Obligations.EmberPath : Prop :=
  (∀ (s : State) (d : Nat) (f : EmberFrame), s.safety.ember.pairDue = some d → s.safety.ember.left = some f → f.closedAt ≠ none
    → f.missed = false → completes (exec .emberPairWindowExpiry s) (fun t => t.now = max s.now d ∧ t.safety.ember.pairDue =
    none ∧ t.safety.ember.invalidPair = some (f.seq, f.ts, eyeFlag true f.flagged) ∧ t.safety.ember.left = some
    { f with missed := true } ∧ t.regs = s.regs ∧ t.mem = s.mem)) ∧
  (∀ (s : State), s.nextMsg? = none → completes (exec .emberMessageReady s) (fun t => t = s)) ∧
  (∀ (s : State) (m : EmberMsg), s.canonical = true → s.nextMsg?.map (·.1) = some m → s.emberSelected = false → completes (exec
    .emberMessageReady s) (fun t => t.safety.sel.held = some m ∧ (m.status ≠ 2 → t.safety.ember.validRun =
    s.safety.ember.validRun + 1 ∧ t.fld Reg.SI_SELECT F.SI_SELECT.EMBER_INVALID = 0) ∧ (m.status = 2 → t.safety.ember.validRun
    = 0) ∧ (m.status = 2 → t.fld Reg.SI_SELECT F.SI_SELECT.EMBER_INVALID = min (s.fld Reg.SI_SELECT F.SI_SELECT.EMBER_INVALID +
    1) 255) ∧ (m.status = 2 → s.isReady = true → 2 ≤ s.fld Reg.SI_SELECT F.SI_SELECT.EMBER_INVALID → s.emberHealth = 0 →
    t.emberHealth = 1) ∧ t.adapt.emberMsgs = s.adapt.emberMsgs + 1 ∧ t.mem = s.mem ∧ t.now = s.now)) ∧
  (∀ (s : State) (m : EmberMsg), s.canonical = true → s.nextMsg?.map (·.1) = some m → s.emberSelected = true → s.isReady = true
    → m.status = 2 → 2 ≤ s.fld Reg.SI_SELECT F.SI_SELECT.EMBER_INVALID → completes (exec .emberMessageReady s) (fun t => (17,
    0x1300) ∈ t.safety.severes ∧ t.safety.ember.validRun = 0 ∧ t.mem = s.mem)) ∧
  (∀ (s : State) (pass : Bool), s.canonical = true → s.smRuns = true → pass = true → completes (exec (.emberSelfTest pass) s)
    (fun t => t.safety.ember.selfMisses = 0 ∧ (s.emberHealth ≠ 1 → t.safety.ember.selfPassed = true) ∧ (s.emberHealth = 1 →
    s.safety.ember.validRun < 30 → t.emberHealth = 1 ∧ t.safety.ember.selfPassed = true) ∧ (s.emberHealth = 1 → 30 ≤
    s.safety.ember.validRun → t.emberHealth = 0) ∧ t.mem = s.mem)) ∧
  (∀ (s : State) (pass : Bool), s.canonical = true → s.smRuns = true → pass = false → s.isReady = true → completes (exec
    (.emberSelfTest pass) s) (fun t => t.safety.ember.selfMisses = s.safety.ember.selfMisses + 1 ∧ t.safety.ember.selfPassed =
    false ∧ (1 ≤ s.safety.ember.selfMisses → t.emberHealth = 2) ∧ (s.safety.ember.selfMisses = 0 → s.emberHealth = 0 →
    t.emberHealth = 1) ∧ t.mem = s.mem))

/-- A trained link whose partner's identity fits comes up with its sequence numbers started over; one that does not fit is refused and held down. An up link takes a flit that passes its CRC and comes in order, drops what is acknowledged, and counts and NAKs one that fails; a NAK replays, and more than 16 within 1 ms are a retry burst. A retrain ends on the lanes that are healthy or takes the link down; a link that is down trains again. Command on a link in another state has no effect. -/
def Obligations.Links : Prop :=
  (∀ (s : State) (link : Fin 3) (ident : Option GmlIdentity), ((s.linkPartner link.val).isNone || s.linkState link.val != 1 ||
    (s.link link.val).refused || (s.unit (linkUnit link.val)).fenced) = true → completes (exec (.gmlTrainDone link ident) s)
    (fun t => t = s)) ∧
  (∀ (s : State) (link : Fin 3) (e : Nat), s.canonical = true → s.linkPartner link.val = some e → (s.linkState link.val != 1 ||
    (s.link link.val).refused || (s.unit (linkUnit link.val)).fenced) = false → completes (exec (.gmlTrainDone link none) s)
    (fun t => t.linkState link.val = 4 ∧ regsKept s t [Reg.GML_STATUS link.val] ∧ t.gml = s.gml ∧ t.mem = s.mem ∧ t.units =
    s.units)) ∧
  (∀ (s : State) (link : Fin 3) (e : Nat) (i : GmlIdentity), s.canonical = true → s.gml.links.length = 3 → s.linkPartner
    link.val = some e → (s.linkState link.val != 1 || (s.link link.val).refused || (s.unit (linkUnit link.val)).fenced) = false
    → s.identityBad e i = true → completes (exec (.gmlTrainDone link (some i)) s) (fun t => t.linkState link.val = 4 ∧ (t.link
    link.val).refused = true ∧ t.flag (Reg.GML_ERR link.val) F.GML_ERR.IDENTITY = true ∧ t.flag Reg.GML_EVENT
    F.GML_EVENT.IDENTITY = true ∧ t.mem = s.mem ∧ t.units = s.units)) ∧
  (∀ (s : State) (link : Fin 3) (e : Nat) (i : GmlIdentity), s.canonical = true → s.gml.links.length = 3 → s.linkPartner
    link.val = some e → (s.linkState link.val != 1 || (s.link link.val).refused || (s.unit (linkUnit link.val)).fenced) = false
    → s.identityBad e i = false → completes (exec (.gmlTrainDone link (some i)) s) (fun t => t.linkState link.val = 2 ∧
    (i.promoted = 0 → (t.link link.val).txSeq = 0 ∧ (t.link link.val).rxNext = 0 ∧ (t.link link.val).lastFlit = s.now ∧ (t.link
    link.val).senseAt = (s.link link.val).senseAt) ∧ t.mem = s.mem ∧ t.units = s.units ∧ t.now = s.now)) ∧
  (∀ (s : State) (link : Fin 3) (seq : BitVec 12) (ack : BitVec 12) (crcOk : Bool) (packets : List GmlPkt), s.linkState
    link.val ≠ 2 → completes (exec (.gmlFlitRx link seq ack crcOk packets) s) (fun t => t = s)) ∧
  (∀ (s : State) (link : Fin 3) (seq : BitVec 12) (ack : BitVec 12) (packets : List GmlPkt), s.canonical = true →
    s.gml.links.length = 3 → s.linkState link.val = 2 → completes (exec (.gmlFlitRx link seq ack false packets) s) (fun t =>
    t.flag (Reg.GML_ERR link.val) F.GML_ERR.CRC = true ∧ counted s t (Reg.GML_CNT link.val 2) 1 ∧ t.link link.val =
    { s.link link.val with lastFlit := s.now, nakSent := true } ∧ regsKept s t [Reg.GML_ERR link.val, Reg.GML_CNT link.val 2] ∧
    t.mem = s.mem ∧ t.fgs = s.fgs)) ∧
  (∀ (s : State) (link : Fin 3) (seq : BitVec 12) (ack : BitVec 12) (packets : List GmlPkt), s.gml.links.length = 3 →
    s.linkState link.val = 2 → seq.toNat ≠ (s.link link.val).rxNext % 4096 → completes (exec (.gmlFlitRx link seq ack true
    packets) s) (fun t => (t.link link.val).tx = afterAck ack.toNat (s.link link.val).tx ∧ (t.link link.val).rxNext = (s.link
    link.val).rxNext ∧ (t.link link.val).rx = (s.link link.val).rx ∧ t.regs = s.regs ∧ t.mem = s.mem ∧ t.fgs = s.fgs)) ∧
  (∀ (s : State) (link : Fin 3) (seq : BitVec 12) (ack : BitVec 12), s.gml.links.length = 3 → s.linkState link.val = 2 →
    seq.toNat = (s.link link.val).rxNext % 4096 → completes (exec (.gmlFlitRx link seq ack true []) s) (fun t => (t.link
    link.val).tx = afterAck ack.toNat (s.link link.val).tx ∧ (t.link link.val).rxNext = (s.link link.val).rxNext + 1 ∧ (t.link
    link.val).nakSent = false ∧ (t.link link.val).lastFlit = s.now ∧ t.mem = s.mem ∧ t.fgs = s.fgs)) ∧
  (∀ (s : State) (link : Fin 3) (seq : BitVec 12) (ack : BitVec 12) (p : GmlPkt), s.gml.links.length = 3 → s.linkState link.val
    = 2 → seq.toNat = (s.link link.val).rxNext % 4096 → pktDst p = some s.device → (pktKind p = 3 ∨ pktKind p = 4 ∨ pktKind p =
    6 ∨ pktKind p = 7) → completes (exec (.gmlFlitRx link seq ack true [p]) s) (fun t => (t.link link.val).rx = (s.link
    link.val).rx ++ [p] ∧ (t.link link.val).rxNext = (s.link link.val).rxNext + 1 ∧ t.gml.heard[pktSrc p]? = s.gml.heard[pktSrc
    p]?.map (fun _ => some s.now) ∧ t.mem = s.mem ∧ t.fgs = s.fgs)) ∧
  (∀ (s : State) (link : Fin 3) (seq : BitVec 12) (ack : BitVec 12) (packets : List GmlPkt), s.gml.links.length = 3 →
    s.linkState link.val = 2 → completes (exec (.gmlFlitRx link seq ack true packets) s) (fun t => t.mem = s.mem ∧ t.now =
    s.now ∧ t.kin = s.kin)) ∧
  (∀ (s : State) (link : Fin 3) (seq : BitVec 12), ((s.linkState link.val != 2 || !(s.link link.val).tx.any (fun x => x.1 ==
    seq.toNat)) = true) → completes (exec (.gmlNakRx link seq) s) (fun t => t = s)) ∧
  (∀ (s : State) (link : Fin 3) (seq : BitVec 12), s.canonical = true → s.gml.links.length = 3 → ((s.linkState link.val != 2 ||
    !(s.link link.val).tx.any (fun x => x.1 == seq.toNat)) = false) → completes (exec (.gmlNakRx link seq) s) (fun t => counted
    s t (Reg.GML_CNT link.val 3) 1 ∧ (t.link link.val).failSeq = seq.toNat ∧ (16 < (s.now :: (s.link link.val).replays.filter
    (fun x => decide (s.now < x + 1000000))).length → t.flag (Reg.GML_ERR link.val) F.GML_ERR.RETRY_BURST = true) ∧ ((s.now ::
    (s.link link.val).replays.filter (fun x => decide (s.now < x + 1000000))).length ≤ 16 → t.link link.val =
    { s.link link.val with lastFlit := s.now, failSeq := seq.toNat, fails := (if (s.link link.val).failSeq == seq.toNat then (s.link link.val).fails + 1 else 1), replays := (s.now :: (s.link link.val).replays.filter (fun x => decide (s.now < x + 1000000))) }
    ∧ t.units = s.units) ∧ t.mem = s.mem ∧ t.now = s.now)) ∧
  (∀ (s : State) (link : Fin 3), s.linkState link.val ≠ 2 → completes (exec (.gmlRetrainStart link) s) (fun t => t = s)) ∧
  (∀ (s : State) (link : Fin 3), s.canonical = true → s.linkState link.val = 2 → completes (exec (.gmlRetrainStart link) s)
    (fun t => t.linkState link.val = 3 ∧ t.flag (Reg.GML_ERR link.val) F.GML_ERR.RETRAIN = true ∧ counted s t (Reg.GML_CNT
    link.val 4) 1 ∧ (8 ≤ (s.link link.val).fails → t.now = s.now) ∧ ((s.link link.val).fails < 8 → t.now = max s.now ((s.link
    link.val).lastFlit + 10000)) ∧ t.gml = s.gml ∧ t.mem = s.mem ∧ regsKept s t [Reg.GML_STATUS link.val, Reg.GML_ERR link.val,
    Reg.GML_CNT link.val 4])) ∧
  (∀ (s : State) (link : Fin 3) (lanes : BitVec 8), s.linkState link.val ≠ 3 → completes (exec (.gmlRetrainDone link lanes) s)
    (fun t => t = s)) ∧
  (∀ (s : State) (link : Fin 3) (lanes : BitVec 8) (h : Nat), s.canonical = true → s.gml.links.length = 3 → s.linkState
    link.val = 3 → lanesHalf (s.fld (Reg.GML_STATUS link.val) F.GML_STATUS.HALF) lanes.toNat = some h → completes (exec
    (.gmlRetrainDone link lanes) s) (fun t => t.linkState link.val = 2 ∧ t.fld (Reg.GML_STATUS link.val) F.GML_STATUS.HALF = h
    ∧ (h ≠ 0 → (s.fld (Reg.GML_STATUS link.val) F.GML_STATUS.HALF) = 0 → t.flag (Reg.GML_ERR link.val) F.GML_ERR.LANE_FALLBACK
    = true) ∧ t.link link.val = { s.link link.val with lastFlit := s.now, fails := 0, nakSent := false } ∧ t.mem = s.mem ∧
    regsKept s t [Reg.GML_STATUS link.val, Reg.GML_ERR link.val])) ∧
  (∀ (s : State) (link : Fin 3) (lanes : BitVec 8), s.canonical = true → s.gml.links.length = 3 → s.linkState link.val = 3 →
    lanesHalf (s.fld (Reg.GML_STATUS link.val) F.GML_STATUS.HALF) lanes.toNat = none → completes (exec (.gmlRetrainDone link
    lanes) s) (fun t => t.linkState link.val = 4 ∧ t.flag (Reg.GML_ERR link.val) F.GML_ERR.DOWN = true ∧ (∀ x ∈
    s.gml.outstanding, x.link = link.val → x.status = 0 → ∃ y ∈ t.gml.outstanding, y.tag = x.tag ∧ y.status ≠ 0) ∧ t.mem =
    s.mem ∧ t.now = s.now)) ∧
  (∀ (s : State) (link : Fin 3), s.canonical = true → (s.linkState link.val == 4 && !(s.link link.val).refused && !(s.unit
    (linkUnit link.val)).fenced) = true → completes (exec (.gmlRetryTimer link) s) (fun t => t.linkState link.val = 1 ∧
    regsKept s t [Reg.GML_STATUS link.val] ∧ t.gml = s.gml ∧ t.mem = s.mem)) ∧
  (∀ (s : State) (link : Fin 3), (s.linkState link.val == 4 && !(s.link link.val).refused && !(s.unit (linkUnit
    link.val)).fenced) = false → completes (exec (.gmlRetryTimer link) s) (fun t => t = s)) ∧
  (∀ (s : State) (link : Fin 3) (offset : Int) (delay : Nat), s.linkState link.val ≠ 2 → completes (exec (.gmlTimeExchange link
    offset delay) s) (fun t => t = s)) ∧
  (∀ (s : State) (link : Fin 3) (offset : Int) (delay : Nat), s.canonical = true → s.linkState link.val = 2 → completes (exec
    (.gmlTimeExchange link offset delay) s) (fun t => t.fld (Reg.GML_STATUS link.val) F.GML_STATUS.DELAY_NS = min 0xFFFF delay
    ∧ t.fld (Reg.GML_TIME link.val) F.GML_TIME.OFFSET = unsigned 16 (clampI (-32767) 32767 offset) ∧ t.linkState link.val = 2 ∧
    regsKept s t [Reg.GML_STATUS link.val, Reg.GML_TIME link.val] ∧ t.gml = s.gml ∧ t.mem = s.mem))

/-- A heartbeat goes out on every up link, and the GML block commits its shadows then. PEER_ALIVE toggles in READY out of the safe state and is low otherwise. A partner that goes down, or whose sense has had no edge for 1.5 ms, is lost until the next kindling; one not heard for 1 ms is unreachable, or lost when no link goes to it. A route changes once nothing is outstanding on the old one. Records that have waited 1 s are not forwarded. -/
def Obligations.Partners : Prop :=
  (∀ (s : State) (u : State), u = s.commitShadows 0x800000 0x810000 → s.gml.links.length = 3 → completes (exec
    .gmlHeartbeatSend s) (fun t => t.shadow = s.shadow.filter (fun p => !(decide (0x800000 ≤ p.1) && decide (p.1 < 0x810000)))
    ∧ ([0, 1, 2].all (fun k => u.linkState k != 2 || (t.link k).tx.any (fun x => x.2 == [.heartbeat (dev2 u.device)
    u.isReady]))) = true ∧ ([0, 1, 2].all (fun k => u.linkState k != 2 || decide ((u.link k).txSeq + 2 ≤ (t.link k).txSeq))) =
    true ∧ t.mem = s.mem ∧ t.now = s.now)) ∧
  (∀ (s : State), completes (exec .peerAliveToggle s) (fun t => t =
    { s with pins := { s.pins with peerAlive := (s.isReady && s.safety.severe.isNone && s.smRuns) && !s.pins.peerAlive } })) ∧
  (∀ (s : State) (peer : Fin 4), (s.isPartner peer.val = false ∨ s.isLost peer.val = true) → completes (exec (.goingDownRx
    peer) s) (fun t => t = s)) ∧
  (∀ (s : State) (peer : Fin 4), s.canonical = true → s.isPartner peer.val = true → s.isLost peer.val = false → completes (exec
    (.goingDownRx peer) s) (fun t => t.isLost peer.val = true ∧ t.isUnreachable peer.val = false ∧ t.flag Reg.GML_EVENT
    F.GML_EVENT.LOST = true ∧ t.mem = s.mem ∧ t.now = s.now)) ∧
  (∀ (s : State) (link : Fin 3), s.linkPartner link.val = none → completes (exec (.peerSenseEdge link) s) (fun t => t = s)) ∧
  (∀ (s : State) (link : Fin 3) (e : Nat), s.canonical = true → s.gml.links.length = 3 → s.linkPartner link.val = some e →
    completes (exec (.peerSenseEdge link) s) (fun t => t.flag (Reg.GML_STATUS link.val) F.GML_STATUS.SENSE = true ∧ t.link
    link.val = { s.link link.val with senseAt := some s.now } ∧ regsKept s t [Reg.GML_STATUS link.val] ∧ t.mem = s.mem)) ∧
  (∀ (s : State) (link : Fin 3), (s.linkPartner link.val = none ∨ (s.link link.val).senseAt = none) → completes (exec
    (.peerSenseTimeout link) s) (fun t => t = s)) ∧
  (∀ (s : State) (link : Fin 3) (e : Nat) (a : Nat), s.canonical = true → s.gml.links.length = 3 → s.linkPartner link.val =
    some e → (s.link link.val).senseAt = some a → completes (exec (.peerSenseTimeout link) s) (fun t => t.now = max s.now (a +
    1500000) ∧ t.flag (Reg.GML_STATUS link.val) F.GML_STATUS.SENSE = false ∧ (t.link link.val).senseAt = none ∧ (s.isPartner e
    = true → t.isLost e = true) ∧ (s.isPartner e = true → s.isLost e = false → t.flag Reg.GML_EVENT F.GML_EVENT.LOST = true) ∧
    t.mem = s.mem)) ∧
  (∀ (s : State) (peer : Fin 4), ((s.gml.heard[peer.val]?).join.isNone || !s.isPartner peer.val || s.isLost peer.val ||
    s.isUnreachable peer.val) = true → completes (exec (.peerUnreachable peer) s) (fun t => t = s)) ∧
  (∀ (s : State) (peer : Fin 4) (a : Nat), s.canonical = true → (s.gml.heard[peer.val]?).join = some a → (!s.isPartner peer.val
    || s.isLost peer.val || s.isUnreachable peer.val) = false → completes (exec (.peerUnreachable peer) s) (fun t => t.now =
    max s.now (a + 1000000) ∧ t.flag Reg.GML_EVENT F.GML_EVENT.UNREACHABLE = true ∧ ((s.directLink? peer.val).isSome = true →
    t.isUnreachable peer.val = true ∧ t.isLost peer.val = false) ∧ (s.directLink? peer.val = none → t.isLost peer.val = true ∧
    t.isUnreachable peer.val = false) ∧ t.mem = s.mem)) ∧
  (∀ (s : State) (peer : Fin 4), ((peer.val == s.device || decide (s.deviceCount ≤ peer.val) || s.gml.outstanding.any (fun x =>
    x.peer == peer.val && x.status == 0 && s.gml.routes.getD peer.val none == some x.link && s.newRoute peer.val != some
    x.link)) = true) → completes (exec (.routeChange peer) s) (fun t => t.gml.routes = s.gml.routes ∧ t.mem = s.mem ∧ t.now =
    s.now)) ∧
  (∀ (s : State) (peer : Fin 4), s.canonical = true → s.gml.routes.length = 4 → ((peer.val == s.device || decide (s.deviceCount
    ≤ peer.val) || s.gml.outstanding.any (fun x => x.peer == peer.val && x.status == 0 && s.gml.routes.getD peer.val none ==
    some x.link && s.newRoute peer.val != some x.link)) = false) → completes (exec (.routeChange peer) s) (fun t =>
    t.gml.routes = s.gml.routes.set peer.val (s.newRoute peer.val) ∧ t.flag Reg.GML_PEERS ⟨12 + peer.val, 12 + peer.val⟩ =
    (s.newRoute peer.val).isSome ∧ t.flag Reg.GML_PEERS ⟨4 + peer.val, 4 + peer.val⟩ = ((s.newRoute peer.val).isSome &&
    s.newRoute peer.val != s.directLink? peer.val) ∧ t.mem = s.mem ∧ t.now = s.now)) ∧
  (∀ (s : State), s.journal.forward = [] → completes (exec .journalForwardTimeout s) (fun t => t = s)) ∧
  (∀ (s : State) (x : Nat × JRec) (l : List (Nat × JRec)), s.journal.forward = x :: l → completes (exec .journalForwardTimeout
    s) (fun t => t.now = max s.now (x.1 + 1000000000) ∧ t.journal =
    { s.journal with forward := (x :: l).filter (fun p => decide (t.now < p.1 + 1000000000)) } ∧ t.regs = s.regs ∧ t.mem =
    s.mem))

/-- The first packet of a kind that waits on a link is taken. A reservation is granted when its entries are free, and they are then promised; an answer counts only for what was asked. A drain of a full slot drains it for the partner's first consumer. An inbound request of Domain ID 0, 1 or 15 is refused and counted; one outside memory, or refused where it is judged, has an error response, but one held for a slot waits; a write that is judged fit is performed and a read returns its bytes. -/
def Obligations.RemoteTraffic : Prop :=
  (∀ (s : State) (link : Fin 3), s.waiting? link.val 3 = none → completes (exec (.reserve link) s) (fun t => t = s)) ∧
  (∀ (s : State) (link : Fin 3), s.waiting? link.val 4 = none → completes (exec (.grant link) s) (fun t => t = s)) ∧
  (∀ (s : State) (link : Fin 3), s.waiting? link.val 6 = none → completes (exec (.drain link) s) (fun t => t = s)) ∧
  (∀ (s : State) (link : Fin 3), s.waiting? link.val 7 = none → completes (exec (.remoteRequestRx link) s) (fun t => t = s)) ∧
  (∀ (s : State) (link : Fin 3) (p : GmlPkt) (src : Fin 4) (dst : Fin 4) (id : Nat) (keys : List (Nat × Word × Nat)) (j : Nat),
    s.gml.links.length = 3 → p = .reserve src dst id keys → s.waiting? link.val 3 = some p → s.gml.routes.getD src.val none =
    some j → j < 3 → completes (exec (.reserve link) s) (fun t => (t.link link.val).rx = (s.link link.val).rx.erase p ∧
    (s.reserveCode keys = 0 → t.gml.promised = (s.gml.promised ++ keys).eraseDups) ∧ (s.reserveCode keys ≠ 0 → t.gml.promised =
    s.gml.promised) ∧ (s.reserveCode keys = 0 → t.sentLast j (.answer (dev2 s.device) src id 0)) ∧ (s.reserveCode keys = 1 →
    t.sentLast j (.answer (dev2 s.device) src id 1)) ∧ (2 ≤ s.reserveCode keys → t.sentLast j (.answer (dev2 s.device) src id
    2)) ∧ t.mem = s.mem ∧ t.fgs = s.fgs ∧ t.now = s.now)) ∧
  (∀ (s : State) (link : Fin 3) (p : GmlPkt) (src : Fin 4) (dst : Fin 4) (id : Nat) (code : Fin 3), s.gml.links.length = 3 → p
    = .answer src dst id code → s.waiting? link.val 4 = some p → (s.gml.asked.any (fun a => a.1 == id && a.2.1 == src.val &&
    a.2.2 == 0) = false) → completes (exec (.grant link) s) (fun t => (t.link link.val).rx = (s.link link.val).rx.erase p ∧
    t.gml.asked = s.gml.asked ∧ t.regs = s.regs ∧ t.mem = s.mem ∧ t.fgs = s.fgs ∧ t.now = s.now)) ∧
  (∀ (s : State) (link : Fin 3) (p : GmlPkt) (src : Fin 4) (dst : Fin 4) (id : Nat) (code : Fin 3), s.gml.links.length = 3 → p
    = .answer src dst id code → s.waiting? link.val 4 = some p → (s.gml.asked.any (fun a => a.1 == id && a.2.1 == src.val &&
    a.2.2 == 0) = true) → id < 4096 → s.entry? id = none → completes (exec (.grant link) s) (fun t => (t.link link.val).rx =
    (s.link link.val).rx.erase p ∧ (code = 0 → t.gml.asked = s.gml.asked.map (fun a => if a.1 == id && a.2.1 == src.val then
    (a.1, a.2.1, 1) else a)) ∧ (code ≠ 0 → t.gml.asked = s.gml.asked.filter (fun a => !(a.1 == id && a.2.1 == src.val))) ∧
    t.regs = s.regs ∧ t.mem = s.mem ∧ t.now = s.now)) ∧
  (∀ (s : State) (link : Fin 3) (p : GmlPkt) (src : Fin 4) (dst : Fin 4) (id : Nat) (code : Fin 3), s.gml.links.length = 3 → p
    = .answer src dst id code → s.waiting? link.val 4 = some p → (s.gml.asked.any (fun a => a.1 == id && a.2.1 == src.val &&
    a.2.2 == 0) = true) → completes (exec (.grant link) s) (fun t => t.mem = s.mem ∧ t.now = s.now)) ∧
  (∀ (s : State) (link : Fin 3) (p : GmlPkt) (src : Fin 4) (dst : Fin 4) (flag : Nat) (r : RingSt) (c : NodeSt × Nat),
    s.gml.links.length = 3 → p = .drain src dst flag → s.waiting? link.val 6 = some p → (s.fgs.rings.find? (fun x =>
    x.remote.isNone && decide (x.rc.flagBase ≤ flag) && decide (flag < x.rc.flagBase + x.rc.slotCount)) = some r) → ((s.readers
    r).find? (fun c => c.1.peer == some src.val && !r.drained.contains (flag - r.rc.flagBase, c.1.rc.slot, c.2)) = some c) →
    (s.slotFlag flag).state = slotFull → completes (exec (.drain link) s) (fun t => (t.link link.val).rx = (s.link
    link.val).rx.erase p ∧ t.flagWord flag = ((s.slotFlag flag).drain r.rc.consumers).toWord ∧ t.regs = s.regs ∧ t.mem = s.mem
    ∧ t.now = s.now)) ∧
  (∀ (s : State) (link : Fin 3) (p : GmlPkt) (src : Fin 4) (dst : Fin 4) (flag : Nat), s.gml.links.length = 3 → p = .drain src
    dst flag → s.waiting? link.val 6 = some p → ((s.slotFlag flag).state ≠ slotFull ∨ s.fgs.rings.find? (fun x =>
    x.remote.isNone && decide (x.rc.flagBase ≤ flag) && decide (flag < x.rc.flagBase + x.rc.slotCount)) = none) → completes
    (exec (.drain link) s) (fun t => (t.link link.val).rx = (s.link link.val).rx.erase p ∧ t.flags = s.flags ∧ t.fgs = s.fgs ∧
    t.regs = s.regs ∧ t.mem = s.mem ∧ t.now = s.now)) ∧
  (∀ (s : State) (link : Fin 3) (p : GmlPkt) (src : Fin 4) (dst : Fin 4) (tag : Nat) (write : Bool) (addr : Nat) (len : Nat)
    (data : List Byte) (domain : BitVec 4) (held : Bool) (j : Nat), s.canonical = true → s.gml.links.length = 3 → p = .request
    src dst tag write addr len data domain held → s.waiting? link.val 7 = some p → s.gml.routes.getD src.val none = some j → j
    < 3 → (domain = 0 ∨ domain = 1 ∨ domain = 15) → completes (exec (.remoteRequestRx link) s) (fun t => (t.link link.val).rx =
    (s.link link.val).rx.erase p ∧ t.sentLast j (.response (dev2 s.device) src tag true addr []) ∧ t.flag (Reg.GML_ERR
    link.val) F.GML_ERR.INBOUND_DOMAIN = true ∧ t.flag Reg.GML_EVENT F.GML_EVENT.INBOUND_REFUSED = true ∧ counted s t
    (Reg.GML_CNT link.val 5) 1 ∧ t.mem = s.mem)) ∧
  (∀ (s : State) (link : Fin 3) (p : GmlPkt) (src : Fin 4) (dst : Fin 4) (tag : Nat) (write : Bool) (addr : Nat) (len : Nat)
    (data : List Byte) (domain : BitVec 4) (held : Bool) (j : Nat), s.gml.links.length = 3 → p = .request src dst tag write
    addr len data domain held → s.waiting? link.val 7 = some p → s.gml.routes.getD src.val none = some j → j < 3 → (¬ (domain =
    0 ∨ domain = 1 ∨ domain = 15)) → remoteMemory addr = false → completes (exec (.remoteRequestRx link) s) (fun t => (t.link
    link.val).rx = (s.link link.val).rx.erase p ∧ t.sentLast j (.response (dev2 s.device) src tag true addr []) ∧ t.mem = s.mem
    ∧ t.flags = s.flags)) ∧
  (∀ (s : State) (link : Fin 3) (p : GmlPkt) (src : Fin 4) (dst : Fin 4) (tag : Nat) (write : Bool) (addr : Nat) (len : Nat)
    (data : List Byte) (domain : BitVec 4) (held : Bool) (j : Nat) (u : State), s.gml.links.length = 3 → p = .request src dst
    tag write addr len data domain held → s.waiting? link.val 7 = some p → s.gml.routes.getD src.val none = some j → j < 3 → (u
    = s.modLink link.val (fun l => { l with rx := l.rx.erase p })) → (¬ (domain = 0 ∨ domain = 1 ∨ domain = 15)) → remoteMemory
    addr = true → addr < 2 ^ 44 → write = true → (u.judgeWrites ⟨linkUnit link.val, domain.toNat, held⟩ [(addr, data.take
    len)]).2 = none → completes (exec (.remoteRequestRx link) s) (fun t => (t.link link.val).rx = (s.link link.val).rx.erase p
    ∧ t.sentLast j (.response (dev2 s.device) src tag false addr []) ∧ Memory.bytes t.mem addr (data.take len).length =
    data.take len ∧ memKeptOutside s t addr (data.take len).length ∧ t.now = s.now)) ∧
  (∀ (s : State) (link : Fin 3) (p : GmlPkt) (src : Fin 4) (dst : Fin 4) (tag : Nat) (write : Bool) (addr : Nat) (len : Nat)
    (data : List Byte) (domain : BitVec 4) (held : Bool) (j : Nat) (u : State), s.gml.links.length = 3 → p = .request src dst
    tag write addr len data domain held → s.waiting? link.val 7 = some p → s.gml.routes.getD src.val none = some j → j < 3 → (u
    = s.modLink link.val (fun l => { l with rx := l.rx.erase p })) → (¬ (domain = 0 ∨ domain = 1 ∨ domain = 15)) → remoteMemory
    addr = true → write = false → (u.judgeReads ⟨linkUnit link.val, domain.toNat, held⟩ [(addr, len)] false).2 = none →
    completes (exec (.remoteRequestRx link) s) (fun t => (t.link link.val).rx = (s.link link.val).rx.erase p ∧ t.sentLast j
    (.response (dev2 s.device) src tag false addr (Memory.bytes s.mem addr len)) ∧ t.mem = s.mem ∧ t.now = s.now)) ∧
  (∀ (s : State) (link : Fin 3) (p : GmlPkt) (src : Fin 4) (dst : Fin 4) (tag : Nat) (write : Bool) (addr : Nat) (len : Nat)
    (data : List Byte) (domain : BitVec 4) (held : Bool) (j : Nat) (u : State), s.gml.links.length = 3 → p = .request src dst
    tag write addr len data domain held → s.waiting? link.val 7 = some p → s.gml.routes.getD src.val none = some j → j < 3 → (u
    = s.modLink link.val (fun l => { l with rx := l.rx.erase p })) → (¬ (domain = 0 ∨ domain = 1 ∨ domain = 15)) → remoteMemory
    addr = true → ((if write then (u.judgeWrites ⟨linkUnit link.val, domain.toNat, held⟩ [(addr, data.take len)]).2 else
    (u.judgeReads ⟨linkUnit link.val, domain.toNat, held⟩ [(addr, len)] false).2).any (fun e => e.1 == .slot) = true) →
    completes (exec (.remoteRequestRx link) s) (fun t => (held = true → t.waiting? link.val 7 = some p ∧ (t.link link.val).rx =
    (s.link link.val).rx) ∧ (held = false → (t.link link.val).rx = (s.link link.val).rx.erase p ∧ t.sentLast j (.response (dev2
    s.device) src tag true addr [])) ∧ t.mem = s.mem)) ∧
  (∀ (s : State) (link : Fin 3) (p : GmlPkt) (src : Fin 4) (dst : Fin 4) (tag : Nat) (write : Bool) (addr : Nat) (len : Nat)
    (data : List Byte) (domain : BitVec 4) (held : Bool) (j : Nat) (u : State), s.gml.links.length = 3 → p = .request src dst
    tag write addr len data domain held → s.waiting? link.val 7 = some p → s.gml.routes.getD src.val none = some j → j < 3 → (u
    = s.modLink link.val (fun l => { l with rx := l.rx.erase p })) → (¬ (domain = 0 ∨ domain = 1 ∨ domain = 15)) → remoteMemory
    addr = true → ((if write then (u.judgeWrites ⟨linkUnit link.val, domain.toNat, held⟩ [(addr, data.take len)]).2 else
    (u.judgeReads ⟨linkUnit link.val, domain.toNat, held⟩ [(addr, len)] false).2).any (fun e => e.1 != .slot) = true) →
    completes (exec (.remoteRequestRx link) s) (fun t => (t.link link.val).rx = (s.link link.val).rx.erase p ∧ t.sentLast j
    (.response (dev2 s.device) src tag true addr []) ∧ t.mem = s.mem))

/-- A write outside the register blocks, or while the core is in reset, has no effect; one that the firewall or its group's rule turns away is refused. A register whose write is a row of its own has that row's effect. Otherwise a RW field takes an encoding it has and keeps its value for a reserved one, which is journaled; a W1C or W1S field clears or sets the bits written; an SH field's shadow takes the value and the value in force stays. -/
def Obligations.RegisterWrites : Prop :=
  (∀ (s : State) (bank : Fin 6) (domain : BitVec 4) (offset : BitVec 24) (value : Word), (s.coreUp = false ∨ inBlock (regAlias
    offset.toNat) = false) → completes (exec (.registerWrite bank domain offset value) s) (fun t => t = s)) ∧
  (∀ (s : State) (bank : Fin 6) (domain : BitVec 4) (offset : BitVec 24) (value : Word) (o : Nat), s.canonical = true → o =
    regAlias offset.toNat → s.coreUp = true → inBlock o = true → s.mayWrite bank.val domain.toNat o = false → completes (exec
    (.registerWrite bank domain offset value) s) (fun t => t.flag Reg.FWL_EVENT F.FWL_EVENT.REFUSED = true ∧ t.shadow =
    s.shadow ∧ counted s t Reg.FWL_REFUSE_CNT 1 ∧ t.mem = s.mem ∧ t.safety.regions = s.safety.regions)) ∧
  (∀ (s : State) (bank : Fin 6) (domain : BitVec 4) (offset : BitVec 24) (value : Word) (o : Nat), o = regAlias offset.toNat →
    s.coreUp = true → inBlock o = true → s.mayWrite bank.val domain.toNat o = true → regSpec? o = none → completes (exec
    (.registerWrite bank domain offset value) s) (fun t => t = s)) ∧
  (∀ (s : State) (bank : Fin 6) (domain : BitVec 4) (offset : BitVec 24) (value : Word) (o : Nat) (x : Res), o = regAlias
    offset.toNat → s.coreUp = true → inBlock o = true → s.mayWrite bank.val domain.toNat o = true → (regSpec? o).isSome = true
    → x = (s.ownRow bank.val domain o value).getD (.next s) → (s.ownRow bank.val domain o value).isSome = true → completes
    (exec (.registerWrite bank domain offset value) s) (fun t => t = x.orElse s)) ∧
  (∀ (s : State) (bank : Fin 6) (domain : BitVec 4) (offset : BitVec 24) (value : Word) (o : Nat) (n : Nat), o = regAlias
    offset.toNat → s.coreUp = true → inBlock o = true → s.mayWrite bank.val domain.toNat o = true → (regSpec? o).isSome = true
    → (s.ownRow bank.val domain o value).isNone = true → s.cvuBusy o = some n → completes (exec (.registerWrite bank domain
    offset value) s) (fun t => t = s.cvuRefuse n)) ∧
  (∀ (s : State) (bank : Fin 6) (domain : BitVec 4) (offset : BitVec 24) (value : Word) (o : Nat), o = regAlias offset.toNat →
    s.coreUp = true → inBlock o = true → s.mayWrite bank.val domain.toNat o = true → (s.ownRow bank.val domain o value).isNone
    = true → s.cvuBusy o = none → ((bankZeroOnly o && ((pairRegs o).map (fun n => (s.core n).bank != 0)).getD false) = true) →
    completes (exec (.registerWrite bank domain offset value) s) (fun t => t = s)) ∧
  (∀ (s : State) (bank : Fin 6) (domain : BitVec 4) (offset : BitVec 24) (value : Word) (o : Nat) (r : RegSpec), s.canonical =
    true → o = regAlias offset.toNat → s.coreUp = true → inBlock o = true → s.mayWrite bank.val domain.toNat o = true →
    regSpec? o = some r → (s.ownRow bank.val domain o value).isNone = true → s.cvuBusy o = none → ((bankZeroOnly o &&
    ((pairRegs o).map (fun n => (s.core n).bank != 0)).getD false) = false) → completes (exec (.registerWrite bank domain
    offset value) s) (fun t => (∀ f ∈ r.fields, f.acc = .rw → f.takes (f.bits.get value) = true → f.bits.get (t.reg (keptAt
    bank.val o)) = f.bits.get value) ∧ (∀ f ∈ r.fields, f.acc = .rw → f.takes (f.bits.get value) = false → f.bits.get (t.reg
    (keptAt bank.val o)) = f.bits.get (s.reg (keptAt bank.val o))) ∧ (∀ f ∈ r.fields, f.acc = .w1c → t.reg (keptAt bank.val o)
    &&& f.bits.mask = s.reg (keptAt bank.val o) &&& ~~~value &&& f.bits.mask) ∧ (∀ f ∈ r.fields, f.acc = .sh → f.bits.get
    (t.reg (keptAt bank.val o)) = f.bits.get (s.reg (keptAt bank.val o))) ∧ (∀ f ∈ r.fields, f.acc = .sh → f.takes (f.bits.get
    value) = true → (assocGet t.shadow (s.shadowAt bank.val o)).map f.bits.get = some (f.bits.get value)) ∧ (r.reserved value =
    false → t.journal = s.journal) ∧ (r.fields.any (fun f => f.acc == .sh) = false → t.shadow = s.shadow) ∧ t.mem = s.mem ∧
    t.now = s.now))

/-- A block's commit point makes every shadow of its registers the value in force and leaves nothing in shadow, but for an I3C controller whose transfer is in progress; registers of other blocks keep their values. An aperture register is written only while bank 0 of its pair is current. -/
def Obligations.CommitsAndApertures : Prop :=
  (∀ (s : State) (blk : ShBlock), s.canonical = true → blk ≠ .gml → completes (exec (.shCommit blk) s) (fun t => (∀ x ∈
    s.shadow, (decide ((shRange blk).1 ≤ x.1) && decide (x.1 < (shRange blk).2)) = true → s.i3cWaits x.1 = false → t.reg x.1 =
    x.2) ∧ t.shadow = s.shadow.filter (fun x => !(decide ((shRange blk).1 ≤ x.1) && decide (x.1 < (shRange blk).2)) ||
    s.i3cWaits x.1) ∧ (∀ a, a < (shRange blk).1 ∨ (shRange blk).2 ≤ a → t.reg a = s.reg a) ∧ (blk = .fgs → s.fgs.forgetPending
    = true → t.fgs.nodes = s.fgs.nodes.map (fun n => { n with preferred := none })) ∧ t.mem = s.mem ∧ t.now = s.now)) ∧
  (∀ (s : State), s.canonical = true → completes (exec (.shCommit .gml) s) (fun t => (∀ x ∈ s.shadow, x.1 = Reg.GML_FWD → t.reg
    x.1 = x.2) ∧ t.shadow = s.shadow.filter (fun x => !(decide (0x800000 ≤ x.1) && decide (x.1 < 0x810000))) ∧ t.mem = s.mem ∧
    t.now = s.now)) ∧
  (∀ (s : State) (pair : Fin 4) (offset : BitVec 8) (value : Word), s.canonical = true → ((s.core pair.val).bank == 0 &&
    offset.toNat % 4 == 0 && decide (offset.toNat < 0x40)) = true → completes (exec (.sysPcApertureWrite pair offset value) s)
    (fun t => t.flag (Reg.SYS_PC_AP pair.val (offset.toNat / 16) (offset.toNat / 4 % 4)) F.SYS_PC_AP.ENABLE =
    (F.SYS_PC_AP.ENABLE.get value == 1) ∧ t.fld (Reg.SYS_PC_AP pair.val (offset.toNat / 16) (offset.toNat / 4 % 4))
    F.SYS_PC_AP.BASE = F.SYS_PC_AP.BASE.get value ∧ regsKept s t [(Reg.SYS_PC_AP pair.val (offset.toNat / 16) (offset.toNat / 4
    % 4))] ∧ t.mem = s.mem ∧ t.cores = s.cores)) ∧
  (∀ (s : State) (pair : Fin 4) (offset : BitVec 8) (value : Word), ((s.core pair.val).bank == 0 && offset.toNat % 4 == 0 &&
    decide (offset.toNat < 0x40)) = false → completes (exec (.sysPcApertureWrite pair offset value) s) (fun t => t = s))

/-- An access of the own local memory within its bank's window loads, stores, or works atomically; LR holds a reservation and SC stores only while it holds. An access outside the window, of an unmapped address, refused, or atomic outside the local memory traps with its kind's access fault; a misaligned one with causes 4 or 6 (log entry 39). The trap's handler address is a free value (log entry 30). The pc goes on by the instruction's length. A corrected word of the local memory is counted and kept; an uncorrectable Frame Store word ends a load with an error response. -/
def Obligations.CoreAccesses : Prop :=
  (∀ (s : State) (pair : Fin 4) (kind : AccessKind) (rd : Fin 32) (pc : Word) (addr : Word) (value : Word) (size : Fin 3) (ecc
    : List EccHit), ((s.core pair.val).halted || (s.unit (0x0B00 + pair.val)).fenced || !s.coreUp) = true → completes (exec
    (.pcDataAccess pair kind rd pc addr value size ecc) s) (fun t => t = s)) ∧
  (∀ (s : State) (pair : Fin 4) (rd : Fin 32) (pc : Word) (addr : Word) (value : Word) (size : Fin 3) (ecc : List EccHit) (zext
    : Bool) (off : Nat), s.cores.length = 4 → (s.core pair.val).halted = false → (s.unit (0x0B00 + pair.val)).fenced = false →
    s.coreUp = true → s.coreView pair.val (s.core pair.val).bank addr.toNat = .own off → (ecc.all (fun h => h.ue || !inRange
    h.addr (localBase pair.val) 0x40000) = true) → s.windowAdmits pair.val (s.core pair.val).bank off (accBytes size) = true →
    off + (accBytes size) ≤ 0x40000 → (s.core pair.val).bank < (s.core pair.val).banks.length → (((s.core pair.val).banks.all
    (fun b => decide (b.x.length = 31) && decide (b.f.length = 32))) = true) → completes (exec (.pcDataAccess pair (.load false
    zext) rd pc addr value size ecc) s) (fun t => (rd.val ≠ 0 → (t.core pair.val).x (s.core pair.val).bank rd.val = loaded
    (Memory.bytes s.mem (localBase pair.val + off) (accBytes size)) zext) ∧ (t.core pair.val).pc = pc + s.instLen pair.val pc ∧
    (∀ q b, (q ≠ rd.val ∨ b ≠ (s.core pair.val).bank) → (t.core pair.val).x b q = (s.core pair.val).x b q) ∧ t.regs = s.regs ∧
    t.mem = s.mem ∧ (t.core pair.val).resv = (s.core pair.val).resv)) ∧
  (∀ (s : State) (pair : Fin 4) (rd : Fin 32) (pc : Word) (addr : Word) (value : Word) (size : Fin 3) (ecc : List EccHit) (zext
    : Bool) (off : Nat), s.cores.length = 4 → (s.core pair.val).halted = false → (s.unit (0x0B00 + pair.val)).fenced = false →
    s.coreUp = true → s.coreView pair.val (s.core pair.val).bank addr.toNat = .own off → (ecc.all (fun h => h.ue || !inRange
    h.addr (localBase pair.val) 0x40000) = true) → s.windowAdmits pair.val (s.core pair.val).bank off (accBytes size) = true →
    off + (accBytes size) ≤ 0x40000 → (s.core pair.val).bank < (s.core pair.val).banks.length → (((s.core pair.val).banks.all
    (fun b => decide (b.x.length = 31) && decide (b.f.length = 32))) = true) → completes (exec (.pcDataAccess pair (.load true
    zext) rd pc addr value size ecc) s) (fun t => ((t.core pair.val).banks[(s.core pair.val).bank]?).map (fun b => b.f.getD
    rd.val 0) = some (loaded (Memory.bytes s.mem (localBase pair.val + off) (accBytes size)) zext) ∧ (t.core pair.val).pc = pc
    + s.instLen pair.val pc ∧ (∀ b q, (t.core pair.val).x b q = (s.core pair.val).x b q) ∧ t.regs = s.regs ∧ t.mem = s.mem)) ∧
  (∀ (s : State) (pair : Fin 4) (rd : Fin 32) (pc : Word) (addr : Word) (value : Word) (size : Fin 3) (ecc : List EccHit) (off
    : Nat), s.cores.length = 4 → (s.core pair.val).halted = false → (s.unit (0x0B00 + pair.val)).fenced = false → s.coreUp =
    true → s.coreView pair.val (s.core pair.val).bank addr.toNat = .own off → (ecc.all (fun h => h.ue || !inRange h.addr
    (localBase pair.val) 0x40000) = true) → s.windowAdmits pair.val (s.core pair.val).bank off (accBytes size) = true → off +
    (accBytes size) ≤ 0x40000 → completes (exec (.pcDataAccess pair .store rd pc addr value size ecc) s) (fun t => Memory.bytes
    t.mem (localBase pair.val + off) (accBytes size) = leBytes (accBytes size) value.toNat ∧ memKeptOutside s t (localBase
    pair.val + off) (accBytes size) ∧ (t.core pair.val).pc = pc + s.instLen pair.val pc ∧ t.regs = s.regs ∧ (t.core
    pair.val).banks = (s.core pair.val).banks)) ∧
  (∀ (s : State) (pair : Fin 4) (rd : Fin 32) (pc : Word) (addr : Word) (value : Word) (size : Fin 3) (ecc : List EccHit) (op :
    Fin 9) (off : Nat), s.cores.length = 4 → (s.core pair.val).halted = false → (s.unit (0x0B00 + pair.val)).fenced = false →
    s.coreUp = true → s.coreView pair.val (s.core pair.val).bank addr.toNat = .own off → (ecc.all (fun h => h.ue || !inRange
    h.addr (localBase pair.val) 0x40000) = true) → s.windowAdmits pair.val (s.core pair.val).bank off 4 = true → off + 4 ≤
    0x40000 → addr.toNat % 4 = 0 → (s.core pair.val).bank < (s.core pair.val).banks.length → (((s.core pair.val).banks.all (fun
    b => decide (b.x.length = 31) && decide (b.f.length = 32))) = true) → completes (exec (.pcDataAccess pair (.amo op) rd pc
    addr value size ecc) s) (fun t => Memory.bytes t.mem (localBase pair.val + off) 4 = leBytes 4 (amoResult op (w32 (s.le
    (localBase pair.val + off) 4)) value).toNat ∧ (rd.val ≠ 0 → (t.core pair.val).x (s.core pair.val).bank rd.val = (w32 (s.le
    (localBase pair.val + off) 4))) ∧ memKeptOutside s t (localBase pair.val + off) 4 ∧ (t.core pair.val).pc = pc + s.instLen
    pair.val pc ∧ t.regs = s.regs)) ∧
  (∀ (s : State) (pair : Fin 4) (rd : Fin 32) (pc : Word) (addr : Word) (value : Word) (size : Fin 3) (ecc : List EccHit) (off
    : Nat), s.cores.length = 4 → (s.core pair.val).halted = false → (s.unit (0x0B00 + pair.val)).fenced = false → s.coreUp =
    true → s.coreView pair.val (s.core pair.val).bank addr.toNat = .own off → (ecc.all (fun h => h.ue || !inRange h.addr
    (localBase pair.val) 0x40000) = true) → s.windowAdmits pair.val (s.core pair.val).bank off 4 = true → off + 4 ≤ 0x40000 →
    addr.toNat % 4 = 0 → (s.core pair.val).bank < (s.core pair.val).banks.length → (((s.core pair.val).banks.all (fun b =>
    decide (b.x.length = 31) && decide (b.f.length = 32))) = true) → completes (exec (.pcDataAccess pair .loadReserved rd pc
    addr value size ecc) s) (fun t => (t.core pair.val).resv = some off ∧ (rd.val ≠ 0 → (t.core pair.val).x (s.core
    pair.val).bank rd.val = (w32 (s.le (localBase pair.val + off) 4))) ∧ (t.core pair.val).pc = pc + s.instLen pair.val pc ∧
    t.regs = s.regs ∧ t.mem = s.mem)) ∧
  (∀ (s : State) (pair : Fin 4) (rd : Fin 32) (pc : Word) (addr : Word) (value : Word) (size : Fin 3) (ecc : List EccHit) (off
    : Nat), s.cores.length = 4 → (s.core pair.val).halted = false → (s.unit (0x0B00 + pair.val)).fenced = false → s.coreUp =
    true → s.coreView pair.val (s.core pair.val).bank addr.toNat = .own off → (ecc.all (fun h => h.ue || !inRange h.addr
    (localBase pair.val) 0x40000) = true) → s.windowAdmits pair.val (s.core pair.val).bank off 4 = true → off + 4 ≤ 0x40000 →
    addr.toNat % 4 = 0 → (s.core pair.val).bank < (s.core pair.val).banks.length → (((s.core pair.val).banks.all (fun b =>
    decide (b.x.length = 31) && decide (b.f.length = 32))) = true) → completes (exec (.pcDataAccess pair .storeConditional rd
    pc addr value size ecc) s) (fun t => (t.core pair.val).resv = none ∧ ((s.core pair.val).resv = some off → Memory.bytes
    t.mem (localBase pair.val + off) 4 = leBytes 4 value.toNat ∧ (rd.val ≠ 0 → (t.core pair.val).x (s.core pair.val).bank
    rd.val = 0)) ∧ ((s.core pair.val).resv ≠ some off → t.mem = s.mem ∧ (rd.val ≠ 0 → (t.core pair.val).x (s.core
    pair.val).bank rd.val = 1)) ∧ memKeptOutside s t (localBase pair.val + off) 4 ∧ (t.core pair.val).pc = pc + s.instLen
    pair.val pc ∧ t.regs = s.regs)) ∧
  (∀ (s : State) (pair : Fin 4) (rd : Fin 32) (pc : Word) (addr : Word) (value : Word) (size : Fin 3) (ecc : List EccHit) (off
    : Nat), s.cores.length = 4 → (s.core pair.val).halted = false → (s.unit (0x0B00 + pair.val)).fenced = false → s.coreUp =
    true → s.coreView pair.val (s.core pair.val).bank addr.toNat = .own off → (ecc.all (fun h => h.ue || !inRange h.addr
    (localBase pair.val) 0x40000) = true) → s.windowAdmits pair.val (s.core pair.val).bank off (accBytes size) = true → off +
    (accBytes size) ≤ 0x40000 → completes (exec (.pcDataAccess pair .fetch rd pc addr value size ecc) s) (fun t => t = s)) ∧
  (∀ (s : State) (pair : Fin 4) (kind : AccessKind) (rd : Fin 32) (pc : Word) (addr : Word) (value : Word) (size : Fin 3) (ecc
    : List EccHit) (off : Nat), s.canonical = true → s.cores.length = 4 → (s.core pair.val).halted = false → (s.unit (0x0B00 +
    pair.val)).fenced = false → s.coreUp = true → s.coreView pair.val (s.core pair.val).bank addr.toNat = .own off →
    (s.windowAdmits pair.val (s.core pair.val).bank off (if atomicKind kind then 4 else accBytes size) = false ∨ 0x40000 < off
    + (if atomicKind kind then 4 else accBytes size)) → completes (exec (.pcDataAccess pair kind rd pc addr value size ecc) s)
    (fun t => (t.core pair.val).cause0 = faultCause kind ∧ (t.core pair.val).bank = 0 ∧ t.free = s.free + 1 ∧ ((s.core
    pair.val).bank ≠ 0 → (s.core pair.val).bank < 4 → t.fld (Reg.SYS_PC_BANK_EPC pair.val (s.core pair.val).bank)
    F.SYS_PC_BANK_EPC.EPC = pc.toNat / 2 ∧ t.fld (Reg.SYS_PC_RET pair.val) F.SYS_PC_RET.BANK_RET = (s.core pair.val).bank ∧
    t.mem = s.mem) ∧ ((s.core pair.val).bank ≠ 0 → t.flag (Reg.SYS_PC_ERR pair.val) F.SYS_PC_ERR.WINDOW = true))) ∧
  (∀ (s : State) (pair : Fin 4) (kind : AccessKind) (rd : Fin 32) (pc : Word) (addr : Word) (value : Word) (size : Fin 3) (ecc
    : List EccHit) (off : Nat), s.canonical = true → s.cores.length = 4 → (s.core pair.val).halted = false → (s.unit (0x0B00 +
    pair.val)).fenced = false → s.coreUp = true → s.coreView pair.val (s.core pair.val).bank addr.toNat = .own off →
    s.windowAdmits pair.val (s.core pair.val).bank off 4 = true → off + 4 ≤ 0x40000 → atomicKind kind = true → addr.toNat % 4 ≠
    0 → completes (exec (.pcDataAccess pair kind rd pc addr value size ecc) s) (fun t => (t.core pair.val).cause0 = alignCause
    kind ∧ (t.core pair.val).bank = 0 ∧ t.free = s.free + 1)) ∧
  (∀ (s : State) (pair : Fin 4) (kind : AccessKind) (rd : Fin 32) (pc : Word) (addr : Word) (value : Word) (size : Fin 3) (ecc
    : List EccHit) (off : Nat), s.canonical = true → s.cores.length = 4 → (s.core pair.val).halted = false → (s.unit (0x0B00 +
    pair.val)).fenced = false → s.coreUp = true → ((s.coreView pair.val (s.core pair.val).bank addr.toNat = .unmapped ∨
    ((s.coreView pair.val (s.core pair.val).bank addr.toNat = .regs off ∨ s.coreView pair.val (s.core pair.val).bank addr.toNat
    = .fabric off) ∧ (atomicKind kind || kind == .fetch) = true))) → completes (exec (.pcDataAccess pair kind rd pc addr value
    size ecc) s) (fun t => (t.core pair.val).cause0 = faultCause kind ∧ (t.core pair.val).bank = 0 ∧ t.free = s.free + 1 ∧
    ((s.core pair.val).bank ≠ 0 → (s.core pair.val).bank < 4 → t.fld (Reg.SYS_PC_BANK_EPC pair.val (s.core pair.val).bank)
    F.SYS_PC_BANK_EPC.EPC = pc.toNat / 2 ∧ t.fld (Reg.SYS_PC_RET pair.val) F.SYS_PC_RET.BANK_RET = (s.core pair.val).bank ∧
    t.mem = s.mem))) ∧
  (∀ (s : State) (pair : Fin 4) (kind : AccessKind) (rd : Fin 32) (pc : Word) (addr : Word) (value : Word) (size : Fin 3) (ecc
    : List EccHit) (off : Nat), s.canonical = true → s.cores.length = 4 → (s.core pair.val).halted = false → (s.unit (0x0B00 +
    pair.val)).fenced = false → s.coreUp = true → (s.coreView pair.val (s.core pair.val).bank addr.toNat = .regs off ∨
    s.coreView pair.val (s.core pair.val).bank addr.toNat = .fabric off) → (atomicKind kind || kind == .fetch) = false →
    addr.toNat % accBytes size ≠ 0 → completes (exec (.pcDataAccess pair kind rd pc addr value size ecc) s) (fun t => (t.core
    pair.val).cause0 = alignCause kind ∧ (t.core pair.val).bank = 0 ∧ t.free = s.free + 1 ∧ ((s.core pair.val).bank ≠ 0 →
    (s.core pair.val).bank < 4 → t.fld (Reg.SYS_PC_BANK_EPC pair.val (s.core pair.val).bank) F.SYS_PC_BANK_EPC.EPC = pc.toNat /
    2 ∧ t.fld (Reg.SYS_PC_RET pair.val) F.SYS_PC_RET.BANK_RET = (s.core pair.val).bank ∧ t.mem = s.mem))) ∧
  (∀ (s : State) (pair : Fin 4) (rd : Fin 32) (pc : Word) (addr : Word) (value : Word) (size : Fin 3) (ecc : List EccHit) (zext
    : Bool) (off : Nat) (v : Word), s.cores.length = 4 → (s.core pair.val).halted = false → (s.unit (0x0B00 + pair.val)).fenced
    = false → s.coreUp = true → s.coreView pair.val (s.core pair.val).bank addr.toNat = .regs off → addr.toNat % accBytes size
    = 0 → (s.readReg pair.val (s.bankDomain pair.val (s.core pair.val).bank) (off / 4 * 4)).2 = some v → (s.core pair.val).bank
    < (s.core pair.val).banks.length → (((s.core pair.val).banks.all (fun b => decide (b.x.length = 31) && decide (b.f.length =
    32))) = true) → completes (exec (.pcDataAccess pair (.load false zext) rd pc addr value size ecc) s) (fun t => (rd.val ≠ 0
    → (t.core pair.val).x (s.core pair.val).bank rd.val = loaded (((leBytes 4 v.toNat).drop (off % 4)).take (accBytes size))
    zext) ∧ (t.core pair.val).pc = pc + s.instLen pair.val pc ∧ t.mem = s.mem ∧ t.now = s.now)) ∧
  (∀ (s : State) (pair : Fin 4) (rd : Fin 32) (pc : Word) (addr : Word) (value : Word) (size : Fin 3) (ecc : List EccHit) (zext
    : Bool) (off : Nat), s.canonical = true → s.cores.length = 4 → (s.core pair.val).halted = false → (s.unit (0x0B00 +
    pair.val)).fenced = false → s.coreUp = true → s.coreView pair.val (s.core pair.val).bank addr.toNat = .regs off →
    addr.toNat % accBytes size = 0 → (s.readReg pair.val (s.bankDomain pair.val (s.core pair.val).bank) (off / 4 * 4)).2 = none
    → completes (exec (.pcDataAccess pair (.load false zext) rd pc addr value size ecc) s) (fun t => (t.core pair.val).cause0 =
    5 ∧ (t.core pair.val).bank = 0)) ∧
  (∀ (s : State) (pair : Fin 4) (rd : Fin 32) (pc : Word) (addr : Word) (value : Word) (ecc : List EccHit) (off : Nat),
    s.cores.length = 4 → (s.core pair.val).halted = false → (s.unit (0x0B00 + pair.val)).fenced = false → s.coreUp = true →
    s.coreView pair.val (s.core pair.val).bank addr.toNat = .regs off → addr.toNat % 4 = 0 → (s.writeReg pair.val (BitVec.ofNat
    4 (s.bankDomain pair.val (s.core pair.val).bank)) (off / 4 * 4) value).2 = true → completes (exec (.pcDataAccess pair
    .store rd pc addr value 2 ecc) s) (fun t => t = (s.writeReg pair.val (BitVec.ofNat 4 (s.bankDomain pair.val (s.core
    pair.val).bank)) (off / 4 * 4) value).1.completeAt pair.val (pc + s.instLen pair.val pc) ∧ t.now = s.now)) ∧
  (∀ (s : State) (pair : Fin 4) (rd : Fin 32) (pc : Word) (addr : Word) (value : Word) (ecc : List EccHit) (off : Nat),
    s.canonical = true → s.cores.length = 4 → (s.core pair.val).halted = false → (s.unit (0x0B00 + pair.val)).fenced = false →
    s.coreUp = true → s.coreView pair.val (s.core pair.val).bank addr.toNat = .regs off → addr.toNat % 4 = 0 → (s.writeReg
    pair.val (BitVec.ofNat 4 (s.bankDomain pair.val (s.core pair.val).bank)) (off / 4 * 4) value).2 = false → completes (exec
    (.pcDataAccess pair .store rd pc addr value 2 ecc) s) (fun t => (t.core pair.val).cause0 = 7 ∧ (t.core pair.val).bank = 0)) ∧
  (∀ (s : State) (pair : Fin 4) (rd : Fin 32) (pc : Word) (addr : Word) (value : Word) (size : Fin 3) (ecc : List EccHit) (zext
    : Bool) (g : Nat), s.cores.length = 4 → (s.core pair.val).halted = false → (s.unit (0x0B00 + pair.val)).fenced = false →
    s.coreUp = true → s.coreView pair.val (s.core pair.val).bank addr.toNat = .fabric g → addr.toNat % accBytes size = 0 →
    (s.judgeReads ⟨0x0B00 + pair.val, (s.bankDomain pair.val (s.core pair.val).bank), false⟩ [(g, accBytes size)] false).2 =
    none → isRemote g = false → ecc = [] → (s.core pair.val).bank < (s.core pair.val).banks.length → (((s.core
    pair.val).banks.all (fun b => decide (b.x.length = 31) && decide (b.f.length = 32))) = true) → completes (exec
    (.pcDataAccess pair (.load false zext) rd pc addr value size ecc) s) (fun t => (rd.val ≠ 0 → (t.core pair.val).x (s.core
    pair.val).bank rd.val = loaded (Memory.bytes s.mem g (accBytes size)) zext) ∧ (t.core pair.val).pc = pc + s.instLen
    pair.val pc ∧ t.mem = s.mem ∧ t.now = s.now)) ∧
  (∀ (s : State) (pair : Fin 4) (rd : Fin 32) (pc : Word) (addr : Word) (value : Word) (size : Fin 3) (ecc : List EccHit) (zext
    : Bool) (g : Nat), s.cores.length = 4 → (s.core pair.val).halted = false → (s.unit (0x0B00 + pair.val)).fenced = false →
    s.coreUp = true → s.coreView pair.val (s.core pair.val).bank addr.toNat = .fabric g → addr.toNat % accBytes size = 0 →
    ((s.judgeReads ⟨0x0B00 + pair.val, (s.bankDomain pair.val (s.core pair.val).bank), false⟩ [(g, accBytes size)] false).2.any
    (fun e => e.1 == .pending) = true) → completes (exec (.pcDataAccess pair (.load false zext) rd pc addr value size ecc) s)
    (fun t => (t.core pair.val).pc = (s.core pair.val).pc ∧ (t.core pair.val).banks = (s.core pair.val).banks ∧ t.mem = s.mem)) ∧
  (∀ (s : State) (pair : Fin 4) (rd : Fin 32) (pc : Word) (addr : Word) (value : Word) (size : Fin 3) (ecc : List EccHit) (zext
    : Bool) (g : Nat), s.canonical = true → s.cores.length = 4 → (s.core pair.val).halted = false → (s.unit (0x0B00 +
    pair.val)).fenced = false → s.coreUp = true → s.coreView pair.val (s.core pair.val).bank addr.toNat = .fabric g →
    addr.toNat % accBytes size = 0 → ((s.judgeReads ⟨0x0B00 + pair.val, (s.bankDomain pair.val (s.core pair.val).bank), false⟩
    [(g, accBytes size)] false).2.any (fun e => e.1 != .pending) = true) → completes (exec (.pcDataAccess pair (.load false
    zext) rd pc addr value size ecc) s) (fun t => (t.core pair.val).cause0 = 5 ∧ (t.core pair.val).bank = 0 ∧ t.now = s.now)) ∧
  (∀ (s : State) (pair : Fin 4) (rd : Fin 32) (pc : Word) (addr : Word) (value : Word) (size : Fin 3) (ecc : List EccHit) (g :
    Nat), s.cores.length = 4 → (s.core pair.val).halted = false → (s.unit (0x0B00 + pair.val)).fenced = false → s.coreUp = true
    → s.coreView pair.val (s.core pair.val).bank addr.toNat = .fabric g → addr.toNat % accBytes size = 0 → ((s.endRemote
    (0x0B00 + pair.val)).judgeWrites ⟨0x0B00 + pair.val, (s.bankDomain pair.val (s.core pair.val).bank), false⟩ [(g, leBytes
    (accBytes size) value.toNat)]).2 = none → isRemote g = false → completes (exec (.pcDataAccess pair .store rd pc addr value
    size ecc) s) (fun t => Memory.bytes t.mem g (accBytes size) = leBytes (accBytes size) value.toNat ∧ memKeptOutside s t g
    (accBytes size) ∧ (t.core pair.val).pc = pc + s.instLen pair.val pc ∧ t.now = s.now)) ∧
  (∀ (s : State) (pair : Fin 4) (rd : Fin 32) (pc : Word) (addr : Word) (value : Word) (size : Fin 3) (ecc : List EccHit) (g :
    Nat), s.canonical = true → s.cores.length = 4 → (s.core pair.val).halted = false → (s.unit (0x0B00 + pair.val)).fenced =
    false → s.coreUp = true → s.coreView pair.val (s.core pair.val).bank addr.toNat = .fabric g → addr.toNat % accBytes size =
    0 → (((s.endRemote (0x0B00 + pair.val)).judgeWrites ⟨0x0B00 + pair.val, (s.bankDomain pair.val (s.core pair.val).bank),
    false⟩ [(g, leBytes (accBytes size) value.toNat)]).2.any (fun e => e.1 != .pending) = true) → isRemote g = false →
    completes (exec (.pcDataAccess pair .store rd pc addr value size ecc) s) (fun t => (t.core pair.val).cause0 = 7 ∧ (t.core
    pair.val).bank = 0 ∧ ((s.core pair.val).bank ≠ 0 → t.mem = s.mem) ∧ t.now = s.now)) ∧
  (∀ (s : State) (pair : Fin 4) (kind : AccessKind) (rd : Fin 32) (pc : Word) (addr : Word) (value : Word) (size : Fin 3) (ecc
    : List EccHit) (off : Nat) (h : Nat), s.canonical = true → s.cores.length = 4 → (s.core pair.val).halted = false → (s.unit
    (0x0B00 + pair.val)).fenced = false → s.coreUp = true → s.coreView pair.val (s.core pair.val).bank addr.toNat = .own off →
    (s.windowAdmits pair.val (s.core pair.val).bank off (if atomicKind kind then 4 else accBytes size) = true) → (off + (if
    atomicKind kind then 4 else accBytes size) ≤ 0x40000) → (atomicKind kind = true → addr.toNat % 4 = 0) → ecc = [⟨h, false⟩]
    → inRange h (localBase pair.val) 0x40000 = true → ((assocGet s.mm.ceTimes (0x0B00 + pair.val)).getD []).length < 1023 →
    completes (exec (.pcDataAccess pair kind rd pc addr value size ecc) s) (fun t => t.flag (Reg.SYS_PC_ERR pair.val)
    F.SYS_PC_ERR.LM_CE = true ∧ counted s t (Reg.SYS_PC_LM_CNT pair.val) 1 ∧ ((assocGet t.mm.ceTimes (0x0B00 + pair.val)).getD
    []).getLast? = some s.now ∧ t.units = s.units ∧ t.journal = s.journal ∧ (t.core pair.val).halted = false)) ∧
  (∀ (s : State) (pair : Fin 4) (rd : Fin 32) (pc : Word) (addr : Word) (value : Word) (size : Fin 3) (ecc : List EccHit) (zext
    : Bool) (g : Nat) (h : Nat), s.canonical = true → s.cores.length = 4 → (s.core pair.val).halted = false → (s.unit (0x0B00 +
    pair.val)).fenced = false → s.coreUp = true → s.coreView pair.val (s.core pair.val).bank addr.toNat = .fabric g →
    addr.toNat % accBytes size = 0 → (s.judgeReads ⟨0x0B00 + pair.val, (s.bankDomain pair.val (s.core pair.val).bank), false⟩
    [(g, accBytes size)] false).2 = none → isRemote g = false → ecc = [⟨h, true⟩] → inRange h addrFs fsBytes = true → (assocGet
    s.mm.ueAt (pairOf h)).isNone = true → isSafety (s.bankDomain pair.val (s.core pair.val).bank) = false → completes (exec
    (.pcDataAccess pair (.load false zext) rd pc addr value size ecc) s) (fun t => (t.core pair.val).cause0 = 5 ∧ (t.core
    pair.val).bank = 0 ∧ t.flag Reg.MC_FS_EVENT F.MC_FS_EVENT.UE = true ∧ counted s t (Reg.MC_FS_CNT 1) 1 ∧ assocGet t.mm.ueAt
    (pairOf h) = some s.now ∧ t.now = s.now))

/-- For every state with a command c at the front of its queue, the step is exec c on the state with the queue's rest. On an empty queue it answers the state one nanosecond later, unless PORST_N is low (log entry 2: the model's choice). -/
def Obligations.StepTakesTheFront : Prop :=
  (∀ (s : State) (c : Instr) (rest : List Instr), s.pending = c :: rest → step s = exec c { s with pending := rest }) ∧
  (∀ s : State, s.pending = [] → s.kin.porstLow = false → step s = .next { s with now := s.now + 1 }) ∧
  (∀ s : State, s.pending = [] → s.kin.porstLow = true → step s = .next s)

/-- For every command and every state, exec answers a next state, never a fault or a refusal, and the queue of waiting commands is the one it had: the commands of this block never stop the model (log entry 2 tells what a command that cannot occur does). -/
def Obligations.EveryCommandAnswers : Prop :=
  ∀ (c : Instr) (s : State), completes (exec c s) (fun t => t.pending = s.pending)

/-- For every state whose memory, register file, flag memory and shadows are in canonical form and whose rollback counter lies within its 64 fuses, a step that answers a next state answers one of the same kind, whatever command stands at the front of the queue. -/
def Obligations.StepKeepsSound : Prop :=
  ∀ s t : State, s.sound → step s = .next t → t.sound

/-- In every state whose rollback counter is at most 64, a step leaves every fuse as it is, except that the rollback counter may rise, to at most 64; only VERIFY_PASS changes it, so no reset, message, register write or staged image lowers it or changes a key hash, an identity or the debug fuse. -/
def Obligations.FusesOnlyRise : Prop :=
  (∀ s t : State, s.otp.rollback ≤ 64 → step s = .next t → fusesKept s t) ∧
  (∀ (c : Instr) (s t : State), c ≠ .verifyPass → exec c s = .next t → t.otp = s.otp)

/-- The state after reset has its stores in canonical form, its rollback counter at 0 (log entry 41: the model's choice), PORST_N low and an empty queue; no memory byte and no flag is listed. -/
def Obligations.ResetIsSound : Prop :=
  State.reset.sound ∧ State.reset.pending = [] ∧ State.reset.kin.porstLow = true ∧ State.reset.mem = [] ∧ State.reset.flags = [] ∧ State.reset.regs = []

/-- For each of the commands, every field of the state that `instrParts` does not list for it holds in the next state what it held before: memory, flag memory, register file, shadows, fuses, flash, pins, the sequencer, the cores, the units, the journal, and every other part. -/
def Obligations.PartFrame : Prop :=
  ∀ (c : Instr) (s t : State) (p : Part), exec c s = .next t → p ∉ instrParts c → s.agrees t p

/-- For each command to which `instrRegs?` gives a list of registers, every other register holds in the next state what it held before. -/
def Obligations.RegisterFrame : Prop :=
  ∀ (c : Instr) (s t : State) (l : List Nat), instrRegs? c = some l → exec c s = .next t → regsKept s t l

/-- A transaction of Domain ID 2 to 14 to an address of the map, other than a tile's own scratchpad, for which no enabled region of its target permits it, is refused by the firewall, and the refusal is counted; a judgement never changes memory. -/
def Obligations.FirewallIsolation : Prop :=
  (∀ (s : State) (c : Issuer) (a len n : Nat) (write : Bool), targetOf a = some n → n ≠ 0xE8 → c.ownSpm a = false → 2 ≤ c.domain → c.domain ≤ 14 →
    (∀ r ∈ s.safety.regions, r.target = n → r.permits a len c.domain c.initiator write = false) →
    (s.judge c a len write).2 = some .firewall) ∧
  (∀ (s : State) (c : Issuer) (a len : Nat) (write : Bool), (s.judge c a len write).1.mem = s.mem)

/-- A read of TL_NOW_HI by an initiator returns the high half of the Timeline and captures its low half in the initiator's own bank: as long as that bank is not captured anew, its read of TL_NOW_LO returns the captured low half, whatever the Timeline has become. The captures of the other initiators stay. -/
def Obligations.TimelineReadCapture : Prop :=
  ∀ (s t u : State) (bank : Fin 6), t = s.readEffect bank.val Reg.TL_NOW_HI →
    s.peekReg bank.val Reg.TL_NOW_HI false = w32 (s.now / 2 ^ 32) ∧
    (u.reg (bankOff bank.val Reg.TL_NOW_LO) = t.reg (bankOff bank.val Reg.TL_NOW_LO) → s.canonical = true →
      u.peekReg bank.val Reg.TL_NOW_LO false = w32 s.now) ∧
    (∀ b : Fin 6, b ≠ bank → t.reg (bankOff b.val Reg.TL_NOW_LO) = s.reg (bankOff b.val Reg.TL_NOW_LO))

/-- The read of MC_FLAG_HI completes; it returns the high half of the flag word that MC_FLAG_SEL selects and captures the whole word, so that a following read of MC_FLAG_LO, in any state that still holds the capture, returns the low half of that captured word. -/
def Obligations.FlagReadCapture : Prop :=
  ∀ (s u : State) (bank : Nat), completes (exec .mcFlagHiRead s) (fun t =>
    s.peekReg bank Reg.MC_FLAG_HI false = w32 ((s.flagWord (s.fld Reg.MC_FLAG_SEL F.MC_FLAG_SEL.FLAG)).toNat / 2 ^ 32) ∧
    (u.mm.flagHold = t.mm.flagHold →
      u.peekReg bank Reg.MC_FLAG_LO false = w32 (s.flagWord (s.fld Reg.MC_FLAG_SEL F.MC_FLAG_SEL.FLAG)).toNat))

/-- A write of a SYS register other than those of SYS_PCn and its apertures from a Domain ID other than 0 is refused by the firewall: the refusal is shown and counted, and no SYS register, no shadow and no memory changes. One from Domain ID 0 is not refused. -/
def Obligations.SysRegisterWriters : Prop :=
  ∀ (s : State) (bank : Fin 6) (domain : BitVec 4) (offset : BitVec 24) (value : Word), s.canonical = true → s.coreUp = true → offset.toNat < 0x10000 →
    pairRegs offset.toNat = none →
    (domain = 0 → s.mayWrite bank.val domain.toNat offset.toNat = true) ∧
    (domain ≠ 0 → completes (exec (.registerWrite bank domain offset value) s) (fun t =>
      t.flag Reg.FWL_EVENT F.FWL_EVENT.REFUSED = true ∧ counted s t Reg.FWL_REFUSE_CNT 1 ∧ t.shadow = s.shadow ∧ t.mem = s.mem ∧
      ∀ a, a < 0x10000 → t.reg a = s.reg a))
end

