-- ==== Sys2Proof/Laws/Lists.lean ====
section
/-! SUPPORT. Laws of the sorted association lists behind memory, the register file and the flag memory: what a key reads as
after it or another key is set, and that setting keeps the canonical form. -/

namespace Sys2Proof.Machine

open Sys2Proof

theorem risingFrom_mono {α : Type} {lo hi : Nat} (l : List (Nat × α)) (hle : lo ≤ hi) (h : risingFrom hi l = true) :
    risingFrom lo l = true := by
  cases l with
  | nil => rfl
  | cons c t =>
    simp only [risingFrom, Bool.and_eq_true, decide_eq_true_eq] at h ⊢
    exact ⟨by omega, h.2⟩

theorem assocGet_below {α : Type} (l : List (Nat × α)) {lo a : Nat} (h : risingFrom lo l = true) (ha : a < lo) :
    assocGet l a = none := by
  induction l generalizing lo with
  | nil => rfl
  | cons c t ih =>
    simp [risingFrom] at h
    have hne : c.1 ≠ a := by omega
    simp [assocGet, hne]
    exact ih h.2 (by omega)

theorem assocGet_assocPut_same {α : Type} (l : List (Nat × α)) (a : Nat) (v : α) :
    assocGet (assocPut l a v) a = some v := by
  induction l with
  | nil => simp [assocPut, assocGet]
  | cons c t ih =>
    obtain ⟨k, w⟩ := c
    by_cases h1 : a < k
    · simp [assocPut, h1, assocGet]
    · by_cases h2 : a = k
      · simp [assocPut, h2, assocGet]
      · have h3 : k ≠ a := fun e => h2 e.symm
        simp [assocPut, h1, h2, h3, assocGet, ih]

theorem assocGet_assocPut_other {α : Type} (l : List (Nat × α)) {a b : Nat} (v : α) (hab : a ≠ b) :
    assocGet (assocPut l a v) b = assocGet l b := by
  induction l with
  | nil => simp [assocPut, assocGet, hab]
  | cons c t ih =>
    obtain ⟨k, w⟩ := c
    by_cases h1 : a < k
    · simp [assocPut, h1, assocGet, hab]
    · by_cases h2 : a = k
      · subst h2; simp [assocPut, assocGet, hab]
      · simp only [assocPut, h1, h2, if_false, assocGet, ih]

theorem assocGet_assocDel_other {α : Type} (l : List (Nat × α)) {a b : Nat} (hab : a ≠ b) :
    assocGet (assocDel l a) b = assocGet l b := by
  induction l with
  | nil => rfl
  | cons c t ih =>
    obtain ⟨k, w⟩ := c
    by_cases h : k = a
    · subst h; simp [assocDel, assocGet, hab]
    · simp only [assocDel, h, if_false, assocGet, ih]

theorem assocGet_assocDel_same {α : Type} (l : List (Nat × α)) (a : Nat) {lo : Nat} (h : risingFrom lo l = true) :
    assocGet (assocDel l a) a = none := by
  induction l generalizing lo with
  | nil => rfl
  | cons c t ih =>
    obtain ⟨k, w⟩ := c
    simp [risingFrom] at h
    by_cases hk : k = a
    · subst hk
      simpa [assocDel] using assocGet_below t h.2 (Nat.lt_succ_self k)
    · simp [assocDel, hk, assocGet, ih h.2]

theorem rising_assocPut {α : Type} (l : List (Nat × α)) {lo a : Nat} (v : α) (hlo : lo ≤ a) (h : risingFrom lo l = true) :
    risingFrom lo (assocPut l a v) = true := by
  induction l generalizing lo with
  | nil => simp [assocPut, risingFrom, hlo]
  | cons c t ih =>
    obtain ⟨k, w⟩ := c
    simp [risingFrom] at h
    by_cases h1 : a < k
    · simp [assocPut, h1, risingFrom, hlo, h.2]
    · by_cases h2 : a = k
      · subst h2; simp [assocPut, risingFrom, h]
      · simp [assocPut, h1, h2, risingFrom, h.1]
        exact ih (by omega) h.2

theorem rising_assocDel {α : Type} (l : List (Nat × α)) {lo : Nat} (a : Nat) (h : risingFrom lo l = true) :
    risingFrom lo (assocDel l a) = true := by
  induction l generalizing lo with
  | nil => rfl
  | cons c t ih =>
    obtain ⟨k, w⟩ := c
    simp [risingFrom] at h
    by_cases h2 : k = a
    · simp [assocDel, h2]
      exact risingFrom_mono t (by omega) h.2
    · simp [assocDel, h2, risingFrom, h.1, ih h.2]

theorem rising_filter {α : Type} (l : List (Nat × α)) {lo : Nat} (p : Nat × α → Bool) (h : risingFrom lo l = true) :
    risingFrom lo (l.filter p) = true := by
  induction l generalizing lo with
  | nil => rfl
  | cons c t ih =>
    simp [risingFrom] at h
    by_cases hp : p c
    · simp [List.filter, hp, risingFrom, h.1, ih h.2]
    · simp [List.filter, hp]
      exact ih (risingFrom_mono t (by omega) h.2)

theorem rising_filterMap {α : Type} (l : List (Nat × α)) {lo : Nat} (f : Nat × α → Option (Nat × α))
    (hf : ∀ c d, f c = some d → d.1 = c.1) (h : risingFrom lo l = true) : risingFrom lo (l.filterMap f) = true := by
  induction l generalizing lo with
  | nil => rfl
  | cons c t ih =>
    simp [risingFrom] at h
    cases hc : f c with
    | none => simp [hc]; exact ih (risingFrom_mono t (by omega) h.2)
    | some d =>
      have hd := hf c d hc
      simp [hc, risingFrom, hd, h.1]
      exact ih h.2

theorem all_assocPut {α : Type} (p : Nat × α → Bool) (l : List (Nat × α)) (a : Nat) (v : α) (hv : p (a, v) = true)
    (h : l.all p = true) : (assocPut l a v).all p = true := by
  induction l with
  | nil => simp [assocPut, hv]
  | cons c t ih =>
    obtain ⟨k, w⟩ := c
    simp only [List.all_cons, Bool.and_eq_true] at h
    by_cases h1 : a < k
    · simp only [assocPut, h1, if_true, List.all_cons, hv, h.1, h.2, Bool.and_self]
    · by_cases h2 : a = k
      · simp only [assocPut, h2, Nat.lt_irrefl, if_false, if_true, List.all_cons, h.2, Bool.and_true]
        exact h2 ▸ hv
      · simp only [assocPut, h1, h2, if_false, List.all_cons, h.1, ih h.2, Bool.and_self]

theorem all_assocDel {α : Type} (p : Nat × α → Bool) (l : List (Nat × α)) (a : Nat) (h : l.all p = true) :
    (assocDel l a).all p = true := by
  induction l with
  | nil => rfl
  | cons c t ih =>
    obtain ⟨k, w⟩ := c
    simp only [List.all_cons, Bool.and_eq_true] at h
    by_cases h2 : k = a
    · simp only [assocDel, h2, if_true, h.2]
    · simp only [assocDel, h2, if_false, List.all_cons, h.1, ih h.2, Bool.and_self]

theorem all_filter_of_all {α : Type} (p q : α → Bool) (l : List α) (h : l.all p = true) : (l.filter q).all p = true := by
  simp only [List.all_eq_true, List.mem_filter] at h ⊢
  exact fun x hx => h x hx.1

/-! ### Memory -/

/-- Writing one byte keeps the canonical form. -/
theorem Memory.wf_put (m : List Host.Cell) (a : Nat) (v : Byte) (h : Memory.wf m = true) : Memory.wf (Memory.put m a v) = true := by
  simp only [Memory.wf, Bool.and_eq_true] at h ⊢
  unfold Memory.put sparsePut
  split
  · exact ⟨rising_assocDel m a h.1, all_assocDel _ m a h.2⟩
  · rename_i hv
    exact ⟨rising_assocPut m v (Nat.zero_le a) h.1, all_assocPut _ m a v (by simpa using hv) h.2⟩

/-- Writing bytes keeps the canonical form. -/
theorem Memory.wf_putBytes (bs : List Byte) (m : List Host.Cell) (a : Nat) (h : Memory.wf m = true) :
    Memory.wf (Memory.putBytes m a bs) = true := by
  induction bs generalizing m a with
  | nil => exact h
  | cons b t ih => exact ih _ _ (Memory.wf_put m a b h)

/-- Clearing a range keeps the canonical form. -/
theorem Memory.wf_clear (m : List Host.Cell) (a n : Nat) (h : Memory.wf m = true) : Memory.wf (Memory.clear m a n) = true := by
  simp only [Memory.wf, Bool.and_eq_true] at h ⊢
  exact ⟨rising_filter m _ h.1, all_filter_of_all _ _ m h.2⟩

/-- A byte just written reads back. -/
theorem Memory.byte_put_same (m : List Host.Cell) (a : Nat) (v : Byte) (h : Memory.wf m = true) :
    Memory.byte (Memory.put m a v) a = v := by
  simp only [Memory.wf, Bool.and_eq_true] at h
  unfold Memory.put sparsePut Memory.byte
  split
  · rename_i hv; rw [assocGet_assocDel_same m a h.1]; exact hv.symm
  · rw [assocGet_assocPut_same]; rfl

/-- Writing a byte leaves every other address as it was. -/
theorem Memory.byte_put_other (m : List Host.Cell) {a b : Nat} (v : Byte) (hab : a ≠ b) :
    Memory.byte (Memory.put m a v) b = Memory.byte m b := by
  unfold Memory.put sparsePut Memory.byte
  split
  · rw [assocGet_assocDel_other m hab]
  · rw [assocGet_assocPut_other m v hab]

/-- Writing bytes leaves every address outside them as it was. -/
theorem Memory.byte_putBytes_other (bs : List Byte) (m : List Host.Cell) {a b : Nat} (h : b < a ∨ a + bs.length ≤ b) :
    Memory.byte (Memory.putBytes m a bs) b = Memory.byte m b := by
  induction bs generalizing m a with
  | nil => rfl
  | cons c t ih =>
    simp only [List.length_cons] at h
    simp only [Memory.putBytes]
    rw [ih _ (by omega), Memory.byte_put_other m c (by omega)]

/-! ### The register file -/

theorem State.reg_setReg_same (s : State) (a : Nat) (v : Word) (h : regsWf s.regs = true) : (s.setReg a v).reg a = v := by
  simp only [regsWf, Bool.and_eq_true] at h
  unfold State.setReg State.reg
  dsimp only
  split
  · rename_i hv; rw [assocGet_assocDel_same s.regs a h.1]; exact hv.symm
  · rw [assocGet_assocPut_same]; rfl

@[simp] theorem State.reg_setReg_other (s : State) {a b : Nat} (v : Word) (hab : a ≠ b) : (s.setReg a v).reg b = s.reg b := by
  unfold State.setReg State.reg
  dsimp only
  split
  · rw [assocGet_assocDel_other s.regs hab]
  · rw [assocGet_assocPut_other s.regs v hab]

theorem regsWf_set (l : List (Nat × Word)) (a : Nat) (v : Word) (h : regsWf l = true) :
    regsWf (if v = resetWord a then assocDel l a else assocPut l a v) = true := by
  simp only [regsWf, Bool.and_eq_true] at h ⊢
  split
  · exact ⟨rising_assocDel l a h.1, all_assocDel _ l a h.2⟩
  · rename_i hv
    exact ⟨rising_assocPut l v (Nat.zero_le a) h.1, all_assocPut _ l a v (by simpa using hv) h.2⟩

theorem regsWf_filter (l : List (Nat × Word)) (p : Nat × Word → Bool) (h : regsWf l = true) : regsWf (l.filter p) = true := by
  simp only [regsWf, Bool.and_eq_true] at h ⊢
  exact ⟨rising_filter l p h.1, all_filter_of_all _ _ l h.2⟩

theorem keptReg_key {c d : Nat × Word} (hc : keptReg c = some d) : d.1 = c.1 := by
  unfold keptReg at hc
  dsimp only at hc
  split at hc
  · cases hc; rfl
  · split at hc
    · cases hc
    · cases hc; rfl

theorem keptReg_value {c d : Nat × Word} (h0 : (c.2 != resetWord c.1) = true) (hc : keptReg c = some d) :
    (d.2 != resetWord d.1) = true := by
  unfold keptReg at hc
  dsimp only at hc
  split at hc
  · cases hc; exact h0
  · split at hc
    · cases hc
    · rename_i hw; cases hc; simpa using hw

theorem regsWf_warm (l : List (Nat × Word)) (h : regsWf l = true) : regsWf (l.filterMap keptReg) = true := by
  simp only [regsWf, Bool.and_eq_true] at h ⊢
  refine ⟨rising_filterMap l keptReg (fun c d => keptReg_key) h.1, ?_⟩
  have h2 := h.2
  simp only [List.all_eq_true, List.mem_filterMap] at h2 ⊢
  rintro d ⟨c, hc, hd⟩
  exact keptReg_value (h2 c hc) hd

theorem flagsWf_set (l : List (Nat × DWord)) (i : Nat) (w : DWord) (h : flagsWf l = true) : flagsWf (sparsePut 0 l i w) = true := by
  simp only [flagsWf, Bool.and_eq_true] at h ⊢
  unfold sparsePut
  split
  · exact ⟨rising_assocDel l i h.1, all_assocDel _ l i h.2⟩
  · rename_i hv
    exact ⟨rising_assocPut l w (Nat.zero_le i) h.1, all_assocPut _ l i w (by simpa using hv) h.2⟩

end Sys2Proof.Machine
end

