-- ==== Sys2Proof/Laws/Fields.lean ====
section
/-! SUPPORT. Fields of registers: what a write of one field leaves in that field, in the other fields of its register, and in
the other registers; and which registers the shared operations leave alone. -/

namespace Sys2Proof.Machine

open Sys2Proof

theorem Bits.get_testBit (b : Bits) (w : Word) (i : Nat) :
    (b.get w).testBit i = (decide (i < b.hi + 1 - b.lo) && w.getLsbD (b.lo + i)) := by
  simp [Bits.get, Nat.testBit_mod_two_pow, Nat.testBit_shiftRight, BitVec.getLsbD]

/-- A field lies in its word. -/
def Bits.ok (b : Bits) : Bool := decide (b.lo ≤ b.hi) && decide (b.hi < 32)

/-- Two fields of one word share no bit. -/
def Bits.apart (b c : Bits) : Bool := decide (b.hi < c.lo) || decide (c.hi < b.lo)

theorem Bits.put_getLsbD (b : Bits) (v : Nat) (w : Word) (i : Nat) (hi : i < 32) :
    (b.put v w).getLsbD i = if b.lo ≤ i ∧ i ≤ b.hi then v.testBit (i - b.lo) else w.getLsbD i := by
  unfold Bits.put
  simp only [BitVec.getLsbD_or, BitVec.getLsbD_and, BitVec.getLsbD_not, BitVec.getLsbD_ofNat, hi, decide_true, Bool.true_and,
    Nat.testBit_shiftLeft, Nat.testBit_two_pow_sub_one, Nat.testBit_mod_two_pow]
  by_cases h1 : b.lo ≤ i
  · by_cases h2 : i ≤ b.hi
    · have h3 : i - b.lo < b.hi + 1 - b.lo := by omega
      simp [h1, h2, h3]
    · have h3 : ¬ i - b.lo < b.hi + 1 - b.lo := by omega
      simp [h2, h3]
  · have h3 : ¬ i ≥ b.lo := h1
    simp [h1]

/-- A written field reads as what was written, cut to its width. -/
theorem Bits.get_put_same (b : Bits) (v : Nat) (w : Word) (hb : b.ok = true) :
    b.get (b.put v w) = v % 2 ^ (b.hi + 1 - b.lo) := by
  simp only [Bits.ok, Bool.and_eq_true, decide_eq_true_eq] at hb
  apply Nat.eq_of_testBit_eq
  intro i
  rw [Bits.get_testBit, Nat.testBit_mod_two_pow]
  by_cases h : i < b.hi + 1 - b.lo
  · rw [Bits.put_getLsbD b v w (b.lo + i) (by omega), if_pos (by omega)]
    simp
  · simp [h]

/-- A write of one field leaves every field apart from it. -/
theorem Bits.get_put_other (b c : Bits) (v : Nat) (w : Word) (hc : c.ok = true) (h : b.apart c = true) :
    c.get (b.put v w) = c.get w := by
  simp only [Bits.ok, Bits.apart, Bool.and_eq_true, Bool.or_eq_true, decide_eq_true_eq] at hc h
  apply Nat.eq_of_testBit_eq
  intro i
  rw [Bits.get_testBit, Bits.get_testBit]
  by_cases hi : i < c.hi + 1 - c.lo
  · rw [Bits.put_getLsbD b v w (c.lo + i) (by omega), if_neg (by omega)]
  · simp [hi]

theorem State.canonical_regs {s : State} (h : s.canonical = true) : regsWf s.regs = true := by
  simp only [State.canonical, Bool.and_eq_true] at h; exact h.1.1.2

theorem State.canonical_mem {s : State} (h : s.canonical = true) : Memory.wf s.mem = true := by
  simp only [State.canonical, Bool.and_eq_true] at h; exact h.1.1.1

theorem State.setReg_regsWf (s : State) (a : Nat) (v : Word) (h : regsWf s.regs = true) : regsWf (s.setReg a v).regs = true :=
  regsWf_set s.regs a v h

theorem State.setFld_regsWf (s : State) (a : Nat) (b : Bits) (v : Nat) (h : regsWf s.regs = true) :
    regsWf (s.setFld a b v).regs = true := regsWf_set s.regs a _ h

theorem State.reg_setFld_other (s : State) (a c : Nat) (b : Bits) (v : Nat) (h : a ≠ c) :
    (s.setFld a b v).reg c = s.reg c := State.reg_setReg_other s _ h

theorem State.fld_setReg_other (s : State) (a c : Nat) (f : Bits) (v : Word) (h : a ≠ c) :
    (s.setReg a v).fld c f = s.fld c f := by
  unfold State.fld; rw [State.reg_setReg_other s v h]

theorem State.fld_setFld_other (s : State) (a c : Nat) (b f : Bits) (v : Nat) (h : a ≠ c) :
    (s.setFld a b v).fld c f = s.fld c f := State.fld_setReg_other s a c f _ h

/-- A register's written field reads as what was written. -/
theorem State.fld_setFld_same (s : State) (a : Nat) (b : Bits) (v : Nat) (h : regsWf s.regs = true) (hb : b.ok = true) :
    (s.setFld a b v).fld a b = v % 2 ^ (b.hi + 1 - b.lo) := by
  unfold State.setFld State.fld
  rw [State.reg_setReg_same s a _ h, Bits.get_put_same b v _ hb]

/-- The other fields of a register keep their values when one is written. -/
theorem State.fld_setFld_field (s : State) (a : Nat) (b c : Bits) (v : Nat) (h : regsWf s.regs = true) (hc : c.ok = true)
    (ha : b.apart c = true) : (s.setFld a b v).fld a c = s.fld a c := by
  unfold State.setFld State.fld
  rw [State.reg_setReg_same s a _ h, Bits.get_put_other b c v _ hc ha]

theorem State.reg_addCnt_other (s : State) (a c n : Nat) (h : a ≠ c) : (s.addCnt a n).reg c = s.reg c :=
  State.reg_setFld_other s a c _ _ h

/-- A register's value depends on the register file alone. -/
theorem State.reg_congr {s t : State} (h : t.regs = s.regs) (a : Nat) : t.reg a = s.reg a := by
  unfold State.reg; rw [h]

theorem State.fld_congr {s t : State} (h : t.regs = s.regs) (a : Nat) (b : Bits) : t.fld a b = s.fld a b := by
  unfold State.fld; rw [State.reg_congr h]

/-- Posting a record changes no register but the journal's count of lost records and its event. -/
theorem State.reg_postRec (s : State) (r : JRec) (a : Nat) (h1 : a ≠ Reg.EJ_LOST_CNT) (h2 : a ≠ Reg.EJ_EVENT) :
    (s.postRec r).reg a = s.reg a := by
  have lose : ∀ (u : State) (n : Nat), (u.loseRecord n).reg a = u.reg a := by
    intro u n
    unfold State.loseRecord State.event
    refine (State.reg_congr (s := (u.addCnt Reg.EJ_LOST_CNT 1).setFld Reg.EJ_EVENT F.EJ_EVENT.LOST 1) rfl a).trans ?_
    rw [State.reg_setFld_other _ _ _ _ _ (Ne.symm h2), State.reg_addCnt_other _ _ _ _ (Ne.symm h1)]
  unfold State.postRec
  extract_lets j s1
  have e : s1.reg a = s.reg a := State.reg_congr (by unfold s1; split <;> rfl) a
  split
  · exact e
  · split
    · rw [lose, e]
    · exact (State.reg_congr rfl a).trans e

theorem State.reg_log (s : State) (source code cls partition stream a0 a1 a2 a : Nat) (h1 : a ≠ Reg.EJ_LOST_CNT)
    (h2 : a ≠ Reg.EJ_EVENT) : (s.log source code cls partition stream a0 a1 a2).reg a = s.reg a :=
  State.reg_postRec s _ a h1 h2

theorem State.fld_log (s : State) (source code cls partition stream a0 a1 a2 a : Nat) (b : Bits) (h1 : a ≠ Reg.EJ_LOST_CNT)
    (h2 : a ≠ Reg.EJ_EVENT) : (s.log source code cls partition stream a0 a1 a2).fld a b = s.fld a b := by
  unfold State.fld; rw [State.reg_log _ _ _ _ _ _ _ _ _ _ h1 h2]

end Sys2Proof.Machine
end

