-- ==== Sys2Proof/Laws/State.lean ====
section
/-! SUPPORT. What each update of the state leaves alone: one lemma per update and field, true by computation. -/

namespace Sys2Proof.Machine

open Sys2Proof

@[simp] theorem State.modCam_regs (s : State) (stream : Nat) (f : StreamSt → StreamSt) : (s.modCam stream f).regs = s.regs := rfl
@[simp] theorem State.modCam_shadow (s : State) (stream : Nat) (f : StreamSt → StreamSt) : (s.modCam stream f).shadow = s.shadow := rfl
@[simp] theorem State.modCam_mem (s : State) (stream : Nat) (f : StreamSt → StreamSt) : (s.modCam stream f).mem = s.mem := rfl
@[simp] theorem State.modCam_flags (s : State) (stream : Nat) (f : StreamSt → StreamSt) : (s.modCam stream f).flags = s.flags := rfl
@[simp] theorem State.modCam_now (s : State) (stream : Nat) (f : StreamSt → StreamSt) : (s.modCam stream f).now = s.now := rfl
@[simp] theorem State.modCam_free (s : State) (stream : Nat) (f : StreamSt → StreamSt) : (s.modCam stream f).free = s.free := rfl
@[simp] theorem State.modCam_otp (s : State) (stream : Nat) (f : StreamSt → StreamSt) : (s.modCam stream f).otp = s.otp := rfl
@[simp] theorem State.modCam_flash (s : State) (stream : Nat) (f : StreamSt → StreamSt) : (s.modCam stream f).flash = s.flash := rfl
@[simp] theorem State.modCam_tl (s : State) (stream : Nat) (f : StreamSt → StreamSt) : (s.modCam stream f).tl = s.tl := rfl
@[simp] theorem State.modCam_pins (s : State) (stream : Nat) (f : StreamSt → StreamSt) : (s.modCam stream f).pins = s.pins := rfl
@[simp] theorem State.modCam_kin (s : State) (stream : Nat) (f : StreamSt → StreamSt) : (s.modCam stream f).kin = s.kin := rfl
@[simp] theorem State.modCam_scene (s : State) (stream : Nat) (f : StreamSt → StreamSt) : (s.modCam stream f).scene = s.scene := rfl
@[simp] theorem State.modCam_fgs (s : State) (stream : Nat) (f : StreamSt → StreamSt) : (s.modCam stream f).fgs = s.fgs := rfl
@[simp] theorem State.modCam_mm (s : State) (stream : Nat) (f : StreamSt → StreamSt) : (s.modCam stream f).mm = s.mm := rfl
@[simp] theorem State.modCam_cores (s : State) (stream : Nat) (f : StreamSt → StreamSt) : (s.modCam stream f).cores = s.cores := rfl
@[simp] theorem State.modCam_units (s : State) (stream : Nat) (f : StreamSt → StreamSt) : (s.modCam stream f).units = s.units := rfl
@[simp] theorem State.modCam_journal (s : State) (stream : Nat) (f : StreamSt → StreamSt) : (s.modCam stream f).journal = s.journal := rfl
@[simp] theorem State.modCam_safety (s : State) (stream : Nat) (f : StreamSt → StreamSt) : (s.modCam stream f).safety = s.safety := rfl
@[simp] theorem State.modCam_adapt (s : State) (stream : Nat) (f : StreamSt → StreamSt) : (s.modCam stream f).adapt = s.adapt := rfl
@[simp] theorem State.modCam_maint (s : State) (stream : Nat) (f : StreamSt → StreamSt) : (s.modCam stream f).maint = s.maint := rfl
@[simp] theorem State.modCam_isp (s : State) (stream : Nat) (f : StreamSt → StreamSt) : (s.modCam stream f).isp = s.isp := rfl
@[simp] theorem State.modCam_io (s : State) (stream : Nat) (f : StreamSt → StreamSt) : (s.modCam stream f).io = s.io := rfl
@[simp] theorem State.modCam_gml (s : State) (stream : Nat) (f : StreamSt → StreamSt) : (s.modCam stream f).gml = s.gml := rfl
@[simp] theorem State.modCam_cvus (s : State) (stream : Nat) (f : StreamSt → StreamSt) : (s.modCam stream f).cvus = s.cvus := rfl
@[simp] theorem State.modCam_carry (s : State) (stream : Nat) (f : StreamSt → StreamSt) : (s.modCam stream f).carry = s.carry := rfl
@[simp] theorem State.modCam_nts (s : State) (stream : Nat) (f : StreamSt → StreamSt) : (s.modCam stream f).nts = s.nts := rfl
@[simp] theorem State.modCam_patterns (s : State) (stream : Nat) (f : StreamSt → StreamSt) : (s.modCam stream f).patterns = s.patterns := rfl
@[simp] theorem State.modCam_icu (s : State) (stream : Nat) (f : StreamSt → StreamSt) : (s.modCam stream f).icu = s.icu := rfl
@[simp] theorem State.modCam_pending (s : State) (stream : Nat) (f : StreamSt → StreamSt) : (s.modCam stream f).pending = s.pending := rfl
@[simp] theorem State.modCam_reg (s : State) (stream : Nat) (f : StreamSt → StreamSt) (a' : Nat) : (s.modCam stream f).reg a' = s.reg a' := rfl
@[simp] theorem State.modCam_byte (s : State) (stream : Nat) (f : StreamSt → StreamSt) (a' : Nat) : (s.modCam stream f).byte a' = s.byte a' := rfl

@[simp] theorem State.modCore_regs (s : State) (n : Nat) (f : CoreSt → CoreSt) : (s.modCore n f).regs = s.regs := rfl
@[simp] theorem State.modCore_shadow (s : State) (n : Nat) (f : CoreSt → CoreSt) : (s.modCore n f).shadow = s.shadow := rfl
@[simp] theorem State.modCore_mem (s : State) (n : Nat) (f : CoreSt → CoreSt) : (s.modCore n f).mem = s.mem := rfl
@[simp] theorem State.modCore_flags (s : State) (n : Nat) (f : CoreSt → CoreSt) : (s.modCore n f).flags = s.flags := rfl
@[simp] theorem State.modCore_now (s : State) (n : Nat) (f : CoreSt → CoreSt) : (s.modCore n f).now = s.now := rfl
@[simp] theorem State.modCore_free (s : State) (n : Nat) (f : CoreSt → CoreSt) : (s.modCore n f).free = s.free := rfl
@[simp] theorem State.modCore_otp (s : State) (n : Nat) (f : CoreSt → CoreSt) : (s.modCore n f).otp = s.otp := rfl
@[simp] theorem State.modCore_flash (s : State) (n : Nat) (f : CoreSt → CoreSt) : (s.modCore n f).flash = s.flash := rfl
@[simp] theorem State.modCore_tl (s : State) (n : Nat) (f : CoreSt → CoreSt) : (s.modCore n f).tl = s.tl := rfl
@[simp] theorem State.modCore_pins (s : State) (n : Nat) (f : CoreSt → CoreSt) : (s.modCore n f).pins = s.pins := rfl
@[simp] theorem State.modCore_kin (s : State) (n : Nat) (f : CoreSt → CoreSt) : (s.modCore n f).kin = s.kin := rfl
@[simp] theorem State.modCore_scene (s : State) (n : Nat) (f : CoreSt → CoreSt) : (s.modCore n f).scene = s.scene := rfl
@[simp] theorem State.modCore_fgs (s : State) (n : Nat) (f : CoreSt → CoreSt) : (s.modCore n f).fgs = s.fgs := rfl
@[simp] theorem State.modCore_mm (s : State) (n : Nat) (f : CoreSt → CoreSt) : (s.modCore n f).mm = s.mm := rfl
@[simp] theorem State.modCore_units (s : State) (n : Nat) (f : CoreSt → CoreSt) : (s.modCore n f).units = s.units := rfl
@[simp] theorem State.modCore_journal (s : State) (n : Nat) (f : CoreSt → CoreSt) : (s.modCore n f).journal = s.journal := rfl
@[simp] theorem State.modCore_safety (s : State) (n : Nat) (f : CoreSt → CoreSt) : (s.modCore n f).safety = s.safety := rfl
@[simp] theorem State.modCore_adapt (s : State) (n : Nat) (f : CoreSt → CoreSt) : (s.modCore n f).adapt = s.adapt := rfl
@[simp] theorem State.modCore_maint (s : State) (n : Nat) (f : CoreSt → CoreSt) : (s.modCore n f).maint = s.maint := rfl
@[simp] theorem State.modCore_cam (s : State) (n : Nat) (f : CoreSt → CoreSt) : (s.modCore n f).cam = s.cam := rfl
@[simp] theorem State.modCore_isp (s : State) (n : Nat) (f : CoreSt → CoreSt) : (s.modCore n f).isp = s.isp := rfl
@[simp] theorem State.modCore_io (s : State) (n : Nat) (f : CoreSt → CoreSt) : (s.modCore n f).io = s.io := rfl
@[simp] theorem State.modCore_gml (s : State) (n : Nat) (f : CoreSt → CoreSt) : (s.modCore n f).gml = s.gml := rfl
@[simp] theorem State.modCore_cvus (s : State) (n : Nat) (f : CoreSt → CoreSt) : (s.modCore n f).cvus = s.cvus := rfl
@[simp] theorem State.modCore_carry (s : State) (n : Nat) (f : CoreSt → CoreSt) : (s.modCore n f).carry = s.carry := rfl
@[simp] theorem State.modCore_nts (s : State) (n : Nat) (f : CoreSt → CoreSt) : (s.modCore n f).nts = s.nts := rfl
@[simp] theorem State.modCore_patterns (s : State) (n : Nat) (f : CoreSt → CoreSt) : (s.modCore n f).patterns = s.patterns := rfl
@[simp] theorem State.modCore_icu (s : State) (n : Nat) (f : CoreSt → CoreSt) : (s.modCore n f).icu = s.icu := rfl
@[simp] theorem State.modCore_pending (s : State) (n : Nat) (f : CoreSt → CoreSt) : (s.modCore n f).pending = s.pending := rfl
@[simp] theorem State.modCore_reg (s : State) (n : Nat) (f : CoreSt → CoreSt) (a' : Nat) : (s.modCore n f).reg a' = s.reg a' := rfl
@[simp] theorem State.modCore_byte (s : State) (n : Nat) (f : CoreSt → CoreSt) (a' : Nat) : (s.modCore n f).byte a' = s.byte a' := rfl

@[simp] theorem State.modCover_regs (s : State) (unit : Nat) (f : CoverSt → CoverSt) : (s.modCover unit f).regs = s.regs := rfl
@[simp] theorem State.modCover_shadow (s : State) (unit : Nat) (f : CoverSt → CoverSt) : (s.modCover unit f).shadow = s.shadow := rfl
@[simp] theorem State.modCover_mem (s : State) (unit : Nat) (f : CoverSt → CoverSt) : (s.modCover unit f).mem = s.mem := rfl
@[simp] theorem State.modCover_flags (s : State) (unit : Nat) (f : CoverSt → CoverSt) : (s.modCover unit f).flags = s.flags := rfl
@[simp] theorem State.modCover_now (s : State) (unit : Nat) (f : CoverSt → CoverSt) : (s.modCover unit f).now = s.now := rfl
@[simp] theorem State.modCover_free (s : State) (unit : Nat) (f : CoverSt → CoverSt) : (s.modCover unit f).free = s.free := rfl
@[simp] theorem State.modCover_otp (s : State) (unit : Nat) (f : CoverSt → CoverSt) : (s.modCover unit f).otp = s.otp := rfl
@[simp] theorem State.modCover_flash (s : State) (unit : Nat) (f : CoverSt → CoverSt) : (s.modCover unit f).flash = s.flash := rfl
@[simp] theorem State.modCover_tl (s : State) (unit : Nat) (f : CoverSt → CoverSt) : (s.modCover unit f).tl = s.tl := rfl
@[simp] theorem State.modCover_pins (s : State) (unit : Nat) (f : CoverSt → CoverSt) : (s.modCover unit f).pins = s.pins := rfl
@[simp] theorem State.modCover_kin (s : State) (unit : Nat) (f : CoverSt → CoverSt) : (s.modCover unit f).kin = s.kin := rfl
@[simp] theorem State.modCover_scene (s : State) (unit : Nat) (f : CoverSt → CoverSt) : (s.modCover unit f).scene = s.scene := rfl
@[simp] theorem State.modCover_fgs (s : State) (unit : Nat) (f : CoverSt → CoverSt) : (s.modCover unit f).fgs = s.fgs := rfl
@[simp] theorem State.modCover_mm (s : State) (unit : Nat) (f : CoverSt → CoverSt) : (s.modCover unit f).mm = s.mm := rfl
@[simp] theorem State.modCover_cores (s : State) (unit : Nat) (f : CoverSt → CoverSt) : (s.modCover unit f).cores = s.cores := rfl
@[simp] theorem State.modCover_units (s : State) (unit : Nat) (f : CoverSt → CoverSt) : (s.modCover unit f).units = s.units := rfl
@[simp] theorem State.modCover_journal (s : State) (unit : Nat) (f : CoverSt → CoverSt) : (s.modCover unit f).journal = s.journal := rfl
@[simp] theorem State.modCover_adapt (s : State) (unit : Nat) (f : CoverSt → CoverSt) : (s.modCover unit f).adapt = s.adapt := rfl
@[simp] theorem State.modCover_maint (s : State) (unit : Nat) (f : CoverSt → CoverSt) : (s.modCover unit f).maint = s.maint := rfl
@[simp] theorem State.modCover_cam (s : State) (unit : Nat) (f : CoverSt → CoverSt) : (s.modCover unit f).cam = s.cam := rfl
@[simp] theorem State.modCover_isp (s : State) (unit : Nat) (f : CoverSt → CoverSt) : (s.modCover unit f).isp = s.isp := rfl
@[simp] theorem State.modCover_io (s : State) (unit : Nat) (f : CoverSt → CoverSt) : (s.modCover unit f).io = s.io := rfl
@[simp] theorem State.modCover_gml (s : State) (unit : Nat) (f : CoverSt → CoverSt) : (s.modCover unit f).gml = s.gml := rfl
@[simp] theorem State.modCover_cvus (s : State) (unit : Nat) (f : CoverSt → CoverSt) : (s.modCover unit f).cvus = s.cvus := rfl
@[simp] theorem State.modCover_carry (s : State) (unit : Nat) (f : CoverSt → CoverSt) : (s.modCover unit f).carry = s.carry := rfl
@[simp] theorem State.modCover_nts (s : State) (unit : Nat) (f : CoverSt → CoverSt) : (s.modCover unit f).nts = s.nts := rfl
@[simp] theorem State.modCover_patterns (s : State) (unit : Nat) (f : CoverSt → CoverSt) : (s.modCover unit f).patterns = s.patterns := rfl
@[simp] theorem State.modCover_icu (s : State) (unit : Nat) (f : CoverSt → CoverSt) : (s.modCover unit f).icu = s.icu := rfl
@[simp] theorem State.modCover_pending (s : State) (unit : Nat) (f : CoverSt → CoverSt) : (s.modCover unit f).pending = s.pending := rfl
@[simp] theorem State.modCover_reg (s : State) (unit : Nat) (f : CoverSt → CoverSt) (a' : Nat) : (s.modCover unit f).reg a' = s.reg a' := rfl
@[simp] theorem State.modCover_byte (s : State) (unit : Nat) (f : CoverSt → CoverSt) (a' : Nat) : (s.modCover unit f).byte a' = s.byte a' := rfl

@[simp] theorem State.modCvu_regs (s : State) (n : Nat) (f : CvuSt → CvuSt) : (s.modCvu n f).regs = s.regs := rfl
@[simp] theorem State.modCvu_shadow (s : State) (n : Nat) (f : CvuSt → CvuSt) : (s.modCvu n f).shadow = s.shadow := rfl
@[simp] theorem State.modCvu_mem (s : State) (n : Nat) (f : CvuSt → CvuSt) : (s.modCvu n f).mem = s.mem := rfl
@[simp] theorem State.modCvu_flags (s : State) (n : Nat) (f : CvuSt → CvuSt) : (s.modCvu n f).flags = s.flags := rfl
@[simp] theorem State.modCvu_now (s : State) (n : Nat) (f : CvuSt → CvuSt) : (s.modCvu n f).now = s.now := rfl
@[simp] theorem State.modCvu_free (s : State) (n : Nat) (f : CvuSt → CvuSt) : (s.modCvu n f).free = s.free := rfl
@[simp] theorem State.modCvu_otp (s : State) (n : Nat) (f : CvuSt → CvuSt) : (s.modCvu n f).otp = s.otp := rfl
@[simp] theorem State.modCvu_flash (s : State) (n : Nat) (f : CvuSt → CvuSt) : (s.modCvu n f).flash = s.flash := rfl
@[simp] theorem State.modCvu_tl (s : State) (n : Nat) (f : CvuSt → CvuSt) : (s.modCvu n f).tl = s.tl := rfl
@[simp] theorem State.modCvu_pins (s : State) (n : Nat) (f : CvuSt → CvuSt) : (s.modCvu n f).pins = s.pins := rfl
@[simp] theorem State.modCvu_kin (s : State) (n : Nat) (f : CvuSt → CvuSt) : (s.modCvu n f).kin = s.kin := rfl
@[simp] theorem State.modCvu_scene (s : State) (n : Nat) (f : CvuSt → CvuSt) : (s.modCvu n f).scene = s.scene := rfl
@[simp] theorem State.modCvu_fgs (s : State) (n : Nat) (f : CvuSt → CvuSt) : (s.modCvu n f).fgs = s.fgs := rfl
@[simp] theorem State.modCvu_mm (s : State) (n : Nat) (f : CvuSt → CvuSt) : (s.modCvu n f).mm = s.mm := rfl
@[simp] theorem State.modCvu_cores (s : State) (n : Nat) (f : CvuSt → CvuSt) : (s.modCvu n f).cores = s.cores := rfl
@[simp] theorem State.modCvu_units (s : State) (n : Nat) (f : CvuSt → CvuSt) : (s.modCvu n f).units = s.units := rfl
@[simp] theorem State.modCvu_journal (s : State) (n : Nat) (f : CvuSt → CvuSt) : (s.modCvu n f).journal = s.journal := rfl
@[simp] theorem State.modCvu_safety (s : State) (n : Nat) (f : CvuSt → CvuSt) : (s.modCvu n f).safety = s.safety := rfl
@[simp] theorem State.modCvu_adapt (s : State) (n : Nat) (f : CvuSt → CvuSt) : (s.modCvu n f).adapt = s.adapt := rfl
@[simp] theorem State.modCvu_maint (s : State) (n : Nat) (f : CvuSt → CvuSt) : (s.modCvu n f).maint = s.maint := rfl
@[simp] theorem State.modCvu_cam (s : State) (n : Nat) (f : CvuSt → CvuSt) : (s.modCvu n f).cam = s.cam := rfl
@[simp] theorem State.modCvu_isp (s : State) (n : Nat) (f : CvuSt → CvuSt) : (s.modCvu n f).isp = s.isp := rfl
@[simp] theorem State.modCvu_io (s : State) (n : Nat) (f : CvuSt → CvuSt) : (s.modCvu n f).io = s.io := rfl
@[simp] theorem State.modCvu_gml (s : State) (n : Nat) (f : CvuSt → CvuSt) : (s.modCvu n f).gml = s.gml := rfl
@[simp] theorem State.modCvu_carry (s : State) (n : Nat) (f : CvuSt → CvuSt) : (s.modCvu n f).carry = s.carry := rfl
@[simp] theorem State.modCvu_nts (s : State) (n : Nat) (f : CvuSt → CvuSt) : (s.modCvu n f).nts = s.nts := rfl
@[simp] theorem State.modCvu_patterns (s : State) (n : Nat) (f : CvuSt → CvuSt) : (s.modCvu n f).patterns = s.patterns := rfl
@[simp] theorem State.modCvu_icu (s : State) (n : Nat) (f : CvuSt → CvuSt) : (s.modCvu n f).icu = s.icu := rfl
@[simp] theorem State.modCvu_pending (s : State) (n : Nat) (f : CvuSt → CvuSt) : (s.modCvu n f).pending = s.pending := rfl
@[simp] theorem State.modCvu_reg (s : State) (n : Nat) (f : CvuSt → CvuSt) (a' : Nat) : (s.modCvu n f).reg a' = s.reg a' := rfl
@[simp] theorem State.modCvu_byte (s : State) (n : Nat) (f : CvuSt → CvuSt) (a' : Nat) : (s.modCvu n f).byte a' = s.byte a' := rfl

@[simp] theorem State.modEmber_regs (s : State) (f : Ember → Ember) : (s.modEmber f).regs = s.regs := rfl
@[simp] theorem State.modEmber_shadow (s : State) (f : Ember → Ember) : (s.modEmber f).shadow = s.shadow := rfl
@[simp] theorem State.modEmber_mem (s : State) (f : Ember → Ember) : (s.modEmber f).mem = s.mem := rfl
@[simp] theorem State.modEmber_flags (s : State) (f : Ember → Ember) : (s.modEmber f).flags = s.flags := rfl
@[simp] theorem State.modEmber_now (s : State) (f : Ember → Ember) : (s.modEmber f).now = s.now := rfl
@[simp] theorem State.modEmber_free (s : State) (f : Ember → Ember) : (s.modEmber f).free = s.free := rfl
@[simp] theorem State.modEmber_otp (s : State) (f : Ember → Ember) : (s.modEmber f).otp = s.otp := rfl
@[simp] theorem State.modEmber_flash (s : State) (f : Ember → Ember) : (s.modEmber f).flash = s.flash := rfl
@[simp] theorem State.modEmber_tl (s : State) (f : Ember → Ember) : (s.modEmber f).tl = s.tl := rfl
@[simp] theorem State.modEmber_pins (s : State) (f : Ember → Ember) : (s.modEmber f).pins = s.pins := rfl
@[simp] theorem State.modEmber_kin (s : State) (f : Ember → Ember) : (s.modEmber f).kin = s.kin := rfl
@[simp] theorem State.modEmber_scene (s : State) (f : Ember → Ember) : (s.modEmber f).scene = s.scene := rfl
@[simp] theorem State.modEmber_fgs (s : State) (f : Ember → Ember) : (s.modEmber f).fgs = s.fgs := rfl
@[simp] theorem State.modEmber_mm (s : State) (f : Ember → Ember) : (s.modEmber f).mm = s.mm := rfl
@[simp] theorem State.modEmber_cores (s : State) (f : Ember → Ember) : (s.modEmber f).cores = s.cores := rfl
@[simp] theorem State.modEmber_units (s : State) (f : Ember → Ember) : (s.modEmber f).units = s.units := rfl
@[simp] theorem State.modEmber_journal (s : State) (f : Ember → Ember) : (s.modEmber f).journal = s.journal := rfl
@[simp] theorem State.modEmber_adapt (s : State) (f : Ember → Ember) : (s.modEmber f).adapt = s.adapt := rfl
@[simp] theorem State.modEmber_maint (s : State) (f : Ember → Ember) : (s.modEmber f).maint = s.maint := rfl
@[simp] theorem State.modEmber_cam (s : State) (f : Ember → Ember) : (s.modEmber f).cam = s.cam := rfl
@[simp] theorem State.modEmber_isp (s : State) (f : Ember → Ember) : (s.modEmber f).isp = s.isp := rfl
@[simp] theorem State.modEmber_io (s : State) (f : Ember → Ember) : (s.modEmber f).io = s.io := rfl
@[simp] theorem State.modEmber_gml (s : State) (f : Ember → Ember) : (s.modEmber f).gml = s.gml := rfl
@[simp] theorem State.modEmber_cvus (s : State) (f : Ember → Ember) : (s.modEmber f).cvus = s.cvus := rfl
@[simp] theorem State.modEmber_carry (s : State) (f : Ember → Ember) : (s.modEmber f).carry = s.carry := rfl
@[simp] theorem State.modEmber_nts (s : State) (f : Ember → Ember) : (s.modEmber f).nts = s.nts := rfl
@[simp] theorem State.modEmber_patterns (s : State) (f : Ember → Ember) : (s.modEmber f).patterns = s.patterns := rfl
@[simp] theorem State.modEmber_icu (s : State) (f : Ember → Ember) : (s.modEmber f).icu = s.icu := rfl
@[simp] theorem State.modEmber_pending (s : State) (f : Ember → Ember) : (s.modEmber f).pending = s.pending := rfl
@[simp] theorem State.modEmber_reg (s : State) (f : Ember → Ember) (a' : Nat) : (s.modEmber f).reg a' = s.reg a' := rfl
@[simp] theorem State.modEmber_byte (s : State) (f : Ember → Ember) (a' : Nat) : (s.modEmber f).byte a' = s.byte a' := rfl

@[simp] theorem State.modFlow_regs (s : State) (layer : Nat) (id : Nat) (f : FlowSt → FlowSt) : (s.modFlow layer id f).regs = s.regs := rfl
@[simp] theorem State.modFlow_shadow (s : State) (layer : Nat) (id : Nat) (f : FlowSt → FlowSt) : (s.modFlow layer id f).shadow = s.shadow := rfl
@[simp] theorem State.modFlow_mem (s : State) (layer : Nat) (id : Nat) (f : FlowSt → FlowSt) : (s.modFlow layer id f).mem = s.mem := rfl
@[simp] theorem State.modFlow_flags (s : State) (layer : Nat) (id : Nat) (f : FlowSt → FlowSt) : (s.modFlow layer id f).flags = s.flags := rfl
@[simp] theorem State.modFlow_now (s : State) (layer : Nat) (id : Nat) (f : FlowSt → FlowSt) : (s.modFlow layer id f).now = s.now := rfl
@[simp] theorem State.modFlow_free (s : State) (layer : Nat) (id : Nat) (f : FlowSt → FlowSt) : (s.modFlow layer id f).free = s.free := rfl
@[simp] theorem State.modFlow_otp (s : State) (layer : Nat) (id : Nat) (f : FlowSt → FlowSt) : (s.modFlow layer id f).otp = s.otp := rfl
@[simp] theorem State.modFlow_flash (s : State) (layer : Nat) (id : Nat) (f : FlowSt → FlowSt) : (s.modFlow layer id f).flash = s.flash := rfl
@[simp] theorem State.modFlow_tl (s : State) (layer : Nat) (id : Nat) (f : FlowSt → FlowSt) : (s.modFlow layer id f).tl = s.tl := rfl
@[simp] theorem State.modFlow_pins (s : State) (layer : Nat) (id : Nat) (f : FlowSt → FlowSt) : (s.modFlow layer id f).pins = s.pins := rfl
@[simp] theorem State.modFlow_kin (s : State) (layer : Nat) (id : Nat) (f : FlowSt → FlowSt) : (s.modFlow layer id f).kin = s.kin := rfl
@[simp] theorem State.modFlow_scene (s : State) (layer : Nat) (id : Nat) (f : FlowSt → FlowSt) : (s.modFlow layer id f).scene = s.scene := rfl
@[simp] theorem State.modFlow_mm (s : State) (layer : Nat) (id : Nat) (f : FlowSt → FlowSt) : (s.modFlow layer id f).mm = s.mm := rfl
@[simp] theorem State.modFlow_cores (s : State) (layer : Nat) (id : Nat) (f : FlowSt → FlowSt) : (s.modFlow layer id f).cores = s.cores := rfl
@[simp] theorem State.modFlow_units (s : State) (layer : Nat) (id : Nat) (f : FlowSt → FlowSt) : (s.modFlow layer id f).units = s.units := rfl
@[simp] theorem State.modFlow_journal (s : State) (layer : Nat) (id : Nat) (f : FlowSt → FlowSt) : (s.modFlow layer id f).journal = s.journal := rfl
@[simp] theorem State.modFlow_safety (s : State) (layer : Nat) (id : Nat) (f : FlowSt → FlowSt) : (s.modFlow layer id f).safety = s.safety := rfl
@[simp] theorem State.modFlow_adapt (s : State) (layer : Nat) (id : Nat) (f : FlowSt → FlowSt) : (s.modFlow layer id f).adapt = s.adapt := rfl
@[simp] theorem State.modFlow_maint (s : State) (layer : Nat) (id : Nat) (f : FlowSt → FlowSt) : (s.modFlow layer id f).maint = s.maint := rfl
@[simp] theorem State.modFlow_cam (s : State) (layer : Nat) (id : Nat) (f : FlowSt → FlowSt) : (s.modFlow layer id f).cam = s.cam := rfl
@[simp] theorem State.modFlow_isp (s : State) (layer : Nat) (id : Nat) (f : FlowSt → FlowSt) : (s.modFlow layer id f).isp = s.isp := rfl
@[simp] theorem State.modFlow_io (s : State) (layer : Nat) (id : Nat) (f : FlowSt → FlowSt) : (s.modFlow layer id f).io = s.io := rfl
@[simp] theorem State.modFlow_gml (s : State) (layer : Nat) (id : Nat) (f : FlowSt → FlowSt) : (s.modFlow layer id f).gml = s.gml := rfl
@[simp] theorem State.modFlow_cvus (s : State) (layer : Nat) (id : Nat) (f : FlowSt → FlowSt) : (s.modFlow layer id f).cvus = s.cvus := rfl
@[simp] theorem State.modFlow_carry (s : State) (layer : Nat) (id : Nat) (f : FlowSt → FlowSt) : (s.modFlow layer id f).carry = s.carry := rfl
@[simp] theorem State.modFlow_nts (s : State) (layer : Nat) (id : Nat) (f : FlowSt → FlowSt) : (s.modFlow layer id f).nts = s.nts := rfl
@[simp] theorem State.modFlow_patterns (s : State) (layer : Nat) (id : Nat) (f : FlowSt → FlowSt) : (s.modFlow layer id f).patterns = s.patterns := rfl
@[simp] theorem State.modFlow_icu (s : State) (layer : Nat) (id : Nat) (f : FlowSt → FlowSt) : (s.modFlow layer id f).icu = s.icu := rfl
@[simp] theorem State.modFlow_pending (s : State) (layer : Nat) (id : Nat) (f : FlowSt → FlowSt) : (s.modFlow layer id f).pending = s.pending := rfl
@[simp] theorem State.modFlow_reg (s : State) (layer : Nat) (id : Nat) (f : FlowSt → FlowSt) (a' : Nat) : (s.modFlow layer id f).reg a' = s.reg a' := rfl
@[simp] theorem State.modFlow_byte (s : State) (layer : Nat) (id : Nat) (f : FlowSt → FlowSt) (a' : Nat) : (s.modFlow layer id f).byte a' = s.byte a' := rfl

@[simp] theorem State.modFsync_regs (s : State) (n : Nat) (f : FsyncSt → FsyncSt) : (s.modFsync n f).regs = s.regs := rfl
@[simp] theorem State.modFsync_shadow (s : State) (n : Nat) (f : FsyncSt → FsyncSt) : (s.modFsync n f).shadow = s.shadow := rfl
@[simp] theorem State.modFsync_mem (s : State) (n : Nat) (f : FsyncSt → FsyncSt) : (s.modFsync n f).mem = s.mem := rfl
@[simp] theorem State.modFsync_flags (s : State) (n : Nat) (f : FsyncSt → FsyncSt) : (s.modFsync n f).flags = s.flags := rfl
@[simp] theorem State.modFsync_now (s : State) (n : Nat) (f : FsyncSt → FsyncSt) : (s.modFsync n f).now = s.now := rfl
@[simp] theorem State.modFsync_free (s : State) (n : Nat) (f : FsyncSt → FsyncSt) : (s.modFsync n f).free = s.free := rfl
@[simp] theorem State.modFsync_otp (s : State) (n : Nat) (f : FsyncSt → FsyncSt) : (s.modFsync n f).otp = s.otp := rfl
@[simp] theorem State.modFsync_flash (s : State) (n : Nat) (f : FsyncSt → FsyncSt) : (s.modFsync n f).flash = s.flash := rfl
@[simp] theorem State.modFsync_tl (s : State) (n : Nat) (f : FsyncSt → FsyncSt) : (s.modFsync n f).tl = s.tl := rfl
@[simp] theorem State.modFsync_pins (s : State) (n : Nat) (f : FsyncSt → FsyncSt) : (s.modFsync n f).pins = s.pins := rfl
@[simp] theorem State.modFsync_kin (s : State) (n : Nat) (f : FsyncSt → FsyncSt) : (s.modFsync n f).kin = s.kin := rfl
@[simp] theorem State.modFsync_scene (s : State) (n : Nat) (f : FsyncSt → FsyncSt) : (s.modFsync n f).scene = s.scene := rfl
@[simp] theorem State.modFsync_fgs (s : State) (n : Nat) (f : FsyncSt → FsyncSt) : (s.modFsync n f).fgs = s.fgs := rfl
@[simp] theorem State.modFsync_mm (s : State) (n : Nat) (f : FsyncSt → FsyncSt) : (s.modFsync n f).mm = s.mm := rfl
@[simp] theorem State.modFsync_cores (s : State) (n : Nat) (f : FsyncSt → FsyncSt) : (s.modFsync n f).cores = s.cores := rfl
@[simp] theorem State.modFsync_units (s : State) (n : Nat) (f : FsyncSt → FsyncSt) : (s.modFsync n f).units = s.units := rfl
@[simp] theorem State.modFsync_journal (s : State) (n : Nat) (f : FsyncSt → FsyncSt) : (s.modFsync n f).journal = s.journal := rfl
@[simp] theorem State.modFsync_safety (s : State) (n : Nat) (f : FsyncSt → FsyncSt) : (s.modFsync n f).safety = s.safety := rfl
@[simp] theorem State.modFsync_adapt (s : State) (n : Nat) (f : FsyncSt → FsyncSt) : (s.modFsync n f).adapt = s.adapt := rfl
@[simp] theorem State.modFsync_maint (s : State) (n : Nat) (f : FsyncSt → FsyncSt) : (s.modFsync n f).maint = s.maint := rfl
@[simp] theorem State.modFsync_isp (s : State) (n : Nat) (f : FsyncSt → FsyncSt) : (s.modFsync n f).isp = s.isp := rfl
@[simp] theorem State.modFsync_io (s : State) (n : Nat) (f : FsyncSt → FsyncSt) : (s.modFsync n f).io = s.io := rfl
@[simp] theorem State.modFsync_gml (s : State) (n : Nat) (f : FsyncSt → FsyncSt) : (s.modFsync n f).gml = s.gml := rfl
@[simp] theorem State.modFsync_cvus (s : State) (n : Nat) (f : FsyncSt → FsyncSt) : (s.modFsync n f).cvus = s.cvus := rfl
@[simp] theorem State.modFsync_carry (s : State) (n : Nat) (f : FsyncSt → FsyncSt) : (s.modFsync n f).carry = s.carry := rfl
@[simp] theorem State.modFsync_nts (s : State) (n : Nat) (f : FsyncSt → FsyncSt) : (s.modFsync n f).nts = s.nts := rfl
@[simp] theorem State.modFsync_patterns (s : State) (n : Nat) (f : FsyncSt → FsyncSt) : (s.modFsync n f).patterns = s.patterns := rfl
@[simp] theorem State.modFsync_icu (s : State) (n : Nat) (f : FsyncSt → FsyncSt) : (s.modFsync n f).icu = s.icu := rfl
@[simp] theorem State.modFsync_pending (s : State) (n : Nat) (f : FsyncSt → FsyncSt) : (s.modFsync n f).pending = s.pending := rfl
@[simp] theorem State.modFsync_reg (s : State) (n : Nat) (f : FsyncSt → FsyncSt) (a' : Nat) : (s.modFsync n f).reg a' = s.reg a' := rfl
@[simp] theorem State.modFsync_byte (s : State) (n : Nat) (f : FsyncSt → FsyncSt) (a' : Nat) : (s.modFsync n f).byte a' = s.byte a' := rfl

@[simp] theorem State.modGml_regs (s : State) (f : Gml → Gml) : (s.modGml f).regs = s.regs := rfl
@[simp] theorem State.modGml_shadow (s : State) (f : Gml → Gml) : (s.modGml f).shadow = s.shadow := rfl
@[simp] theorem State.modGml_mem (s : State) (f : Gml → Gml) : (s.modGml f).mem = s.mem := rfl
@[simp] theorem State.modGml_flags (s : State) (f : Gml → Gml) : (s.modGml f).flags = s.flags := rfl
@[simp] theorem State.modGml_now (s : State) (f : Gml → Gml) : (s.modGml f).now = s.now := rfl
@[simp] theorem State.modGml_free (s : State) (f : Gml → Gml) : (s.modGml f).free = s.free := rfl
@[simp] theorem State.modGml_otp (s : State) (f : Gml → Gml) : (s.modGml f).otp = s.otp := rfl
@[simp] theorem State.modGml_flash (s : State) (f : Gml → Gml) : (s.modGml f).flash = s.flash := rfl
@[simp] theorem State.modGml_tl (s : State) (f : Gml → Gml) : (s.modGml f).tl = s.tl := rfl
@[simp] theorem State.modGml_pins (s : State) (f : Gml → Gml) : (s.modGml f).pins = s.pins := rfl
@[simp] theorem State.modGml_kin (s : State) (f : Gml → Gml) : (s.modGml f).kin = s.kin := rfl
@[simp] theorem State.modGml_scene (s : State) (f : Gml → Gml) : (s.modGml f).scene = s.scene := rfl
@[simp] theorem State.modGml_fgs (s : State) (f : Gml → Gml) : (s.modGml f).fgs = s.fgs := rfl
@[simp] theorem State.modGml_mm (s : State) (f : Gml → Gml) : (s.modGml f).mm = s.mm := rfl
@[simp] theorem State.modGml_cores (s : State) (f : Gml → Gml) : (s.modGml f).cores = s.cores := rfl
@[simp] theorem State.modGml_units (s : State) (f : Gml → Gml) : (s.modGml f).units = s.units := rfl
@[simp] theorem State.modGml_journal (s : State) (f : Gml → Gml) : (s.modGml f).journal = s.journal := rfl
@[simp] theorem State.modGml_safety (s : State) (f : Gml → Gml) : (s.modGml f).safety = s.safety := rfl
@[simp] theorem State.modGml_adapt (s : State) (f : Gml → Gml) : (s.modGml f).adapt = s.adapt := rfl
@[simp] theorem State.modGml_maint (s : State) (f : Gml → Gml) : (s.modGml f).maint = s.maint := rfl
@[simp] theorem State.modGml_cam (s : State) (f : Gml → Gml) : (s.modGml f).cam = s.cam := rfl
@[simp] theorem State.modGml_isp (s : State) (f : Gml → Gml) : (s.modGml f).isp = s.isp := rfl
@[simp] theorem State.modGml_io (s : State) (f : Gml → Gml) : (s.modGml f).io = s.io := rfl
@[simp] theorem State.modGml_cvus (s : State) (f : Gml → Gml) : (s.modGml f).cvus = s.cvus := rfl
@[simp] theorem State.modGml_carry (s : State) (f : Gml → Gml) : (s.modGml f).carry = s.carry := rfl
@[simp] theorem State.modGml_nts (s : State) (f : Gml → Gml) : (s.modGml f).nts = s.nts := rfl
@[simp] theorem State.modGml_patterns (s : State) (f : Gml → Gml) : (s.modGml f).patterns = s.patterns := rfl
@[simp] theorem State.modGml_icu (s : State) (f : Gml → Gml) : (s.modGml f).icu = s.icu := rfl
@[simp] theorem State.modGml_pending (s : State) (f : Gml → Gml) : (s.modGml f).pending = s.pending := rfl
@[simp] theorem State.modGml_reg (s : State) (f : Gml → Gml) (a' : Nat) : (s.modGml f).reg a' = s.reg a' := rfl
@[simp] theorem State.modGml_byte (s : State) (f : Gml → Gml) (a' : Nat) : (s.modGml f).byte a' = s.byte a' := rfl

@[simp] theorem State.modInst_regs (s : State) (e : Nat) (f : Inst → Inst) : (s.modInst e f).regs = s.regs := rfl
@[simp] theorem State.modInst_shadow (s : State) (e : Nat) (f : Inst → Inst) : (s.modInst e f).shadow = s.shadow := rfl
@[simp] theorem State.modInst_mem (s : State) (e : Nat) (f : Inst → Inst) : (s.modInst e f).mem = s.mem := rfl
@[simp] theorem State.modInst_flags (s : State) (e : Nat) (f : Inst → Inst) : (s.modInst e f).flags = s.flags := rfl
@[simp] theorem State.modInst_now (s : State) (e : Nat) (f : Inst → Inst) : (s.modInst e f).now = s.now := rfl
@[simp] theorem State.modInst_free (s : State) (e : Nat) (f : Inst → Inst) : (s.modInst e f).free = s.free := rfl
@[simp] theorem State.modInst_otp (s : State) (e : Nat) (f : Inst → Inst) : (s.modInst e f).otp = s.otp := rfl
@[simp] theorem State.modInst_flash (s : State) (e : Nat) (f : Inst → Inst) : (s.modInst e f).flash = s.flash := rfl
@[simp] theorem State.modInst_tl (s : State) (e : Nat) (f : Inst → Inst) : (s.modInst e f).tl = s.tl := rfl
@[simp] theorem State.modInst_pins (s : State) (e : Nat) (f : Inst → Inst) : (s.modInst e f).pins = s.pins := rfl
@[simp] theorem State.modInst_kin (s : State) (e : Nat) (f : Inst → Inst) : (s.modInst e f).kin = s.kin := rfl
@[simp] theorem State.modInst_scene (s : State) (e : Nat) (f : Inst → Inst) : (s.modInst e f).scene = s.scene := rfl
@[simp] theorem State.modInst_mm (s : State) (e : Nat) (f : Inst → Inst) : (s.modInst e f).mm = s.mm := rfl
@[simp] theorem State.modInst_cores (s : State) (e : Nat) (f : Inst → Inst) : (s.modInst e f).cores = s.cores := rfl
@[simp] theorem State.modInst_units (s : State) (e : Nat) (f : Inst → Inst) : (s.modInst e f).units = s.units := rfl
@[simp] theorem State.modInst_journal (s : State) (e : Nat) (f : Inst → Inst) : (s.modInst e f).journal = s.journal := rfl
@[simp] theorem State.modInst_safety (s : State) (e : Nat) (f : Inst → Inst) : (s.modInst e f).safety = s.safety := rfl
@[simp] theorem State.modInst_adapt (s : State) (e : Nat) (f : Inst → Inst) : (s.modInst e f).adapt = s.adapt := rfl
@[simp] theorem State.modInst_maint (s : State) (e : Nat) (f : Inst → Inst) : (s.modInst e f).maint = s.maint := rfl
@[simp] theorem State.modInst_cam (s : State) (e : Nat) (f : Inst → Inst) : (s.modInst e f).cam = s.cam := rfl
@[simp] theorem State.modInst_isp (s : State) (e : Nat) (f : Inst → Inst) : (s.modInst e f).isp = s.isp := rfl
@[simp] theorem State.modInst_io (s : State) (e : Nat) (f : Inst → Inst) : (s.modInst e f).io = s.io := rfl
@[simp] theorem State.modInst_gml (s : State) (e : Nat) (f : Inst → Inst) : (s.modInst e f).gml = s.gml := rfl
@[simp] theorem State.modInst_cvus (s : State) (e : Nat) (f : Inst → Inst) : (s.modInst e f).cvus = s.cvus := rfl
@[simp] theorem State.modInst_carry (s : State) (e : Nat) (f : Inst → Inst) : (s.modInst e f).carry = s.carry := rfl
@[simp] theorem State.modInst_nts (s : State) (e : Nat) (f : Inst → Inst) : (s.modInst e f).nts = s.nts := rfl
@[simp] theorem State.modInst_patterns (s : State) (e : Nat) (f : Inst → Inst) : (s.modInst e f).patterns = s.patterns := rfl
@[simp] theorem State.modInst_icu (s : State) (e : Nat) (f : Inst → Inst) : (s.modInst e f).icu = s.icu := rfl
@[simp] theorem State.modInst_pending (s : State) (e : Nat) (f : Inst → Inst) : (s.modInst e f).pending = s.pending := rfl
@[simp] theorem State.modInst_reg (s : State) (e : Nat) (f : Inst → Inst) (a' : Nat) : (s.modInst e f).reg a' = s.reg a' := rfl
@[simp] theorem State.modInst_byte (s : State) (e : Nat) (f : Inst → Inst) (a' : Nat) : (s.modInst e f).byte a' = s.byte a' := rfl

@[simp] theorem State.modIo_regs (s : State) (f : Ifaces → Ifaces) : (s.modIo f).regs = s.regs := rfl
@[simp] theorem State.modIo_shadow (s : State) (f : Ifaces → Ifaces) : (s.modIo f).shadow = s.shadow := rfl
@[simp] theorem State.modIo_mem (s : State) (f : Ifaces → Ifaces) : (s.modIo f).mem = s.mem := rfl
@[simp] theorem State.modIo_flags (s : State) (f : Ifaces → Ifaces) : (s.modIo f).flags = s.flags := rfl
@[simp] theorem State.modIo_now (s : State) (f : Ifaces → Ifaces) : (s.modIo f).now = s.now := rfl
@[simp] theorem State.modIo_free (s : State) (f : Ifaces → Ifaces) : (s.modIo f).free = s.free := rfl
@[simp] theorem State.modIo_otp (s : State) (f : Ifaces → Ifaces) : (s.modIo f).otp = s.otp := rfl
@[simp] theorem State.modIo_flash (s : State) (f : Ifaces → Ifaces) : (s.modIo f).flash = s.flash := rfl
@[simp] theorem State.modIo_tl (s : State) (f : Ifaces → Ifaces) : (s.modIo f).tl = s.tl := rfl
@[simp] theorem State.modIo_pins (s : State) (f : Ifaces → Ifaces) : (s.modIo f).pins = s.pins := rfl
@[simp] theorem State.modIo_kin (s : State) (f : Ifaces → Ifaces) : (s.modIo f).kin = s.kin := rfl
@[simp] theorem State.modIo_scene (s : State) (f : Ifaces → Ifaces) : (s.modIo f).scene = s.scene := rfl
@[simp] theorem State.modIo_fgs (s : State) (f : Ifaces → Ifaces) : (s.modIo f).fgs = s.fgs := rfl
@[simp] theorem State.modIo_mm (s : State) (f : Ifaces → Ifaces) : (s.modIo f).mm = s.mm := rfl
@[simp] theorem State.modIo_cores (s : State) (f : Ifaces → Ifaces) : (s.modIo f).cores = s.cores := rfl
@[simp] theorem State.modIo_units (s : State) (f : Ifaces → Ifaces) : (s.modIo f).units = s.units := rfl
@[simp] theorem State.modIo_journal (s : State) (f : Ifaces → Ifaces) : (s.modIo f).journal = s.journal := rfl
@[simp] theorem State.modIo_safety (s : State) (f : Ifaces → Ifaces) : (s.modIo f).safety = s.safety := rfl
@[simp] theorem State.modIo_adapt (s : State) (f : Ifaces → Ifaces) : (s.modIo f).adapt = s.adapt := rfl
@[simp] theorem State.modIo_maint (s : State) (f : Ifaces → Ifaces) : (s.modIo f).maint = s.maint := rfl
@[simp] theorem State.modIo_cam (s : State) (f : Ifaces → Ifaces) : (s.modIo f).cam = s.cam := rfl
@[simp] theorem State.modIo_isp (s : State) (f : Ifaces → Ifaces) : (s.modIo f).isp = s.isp := rfl
@[simp] theorem State.modIo_gml (s : State) (f : Ifaces → Ifaces) : (s.modIo f).gml = s.gml := rfl
@[simp] theorem State.modIo_cvus (s : State) (f : Ifaces → Ifaces) : (s.modIo f).cvus = s.cvus := rfl
@[simp] theorem State.modIo_carry (s : State) (f : Ifaces → Ifaces) : (s.modIo f).carry = s.carry := rfl
@[simp] theorem State.modIo_nts (s : State) (f : Ifaces → Ifaces) : (s.modIo f).nts = s.nts := rfl
@[simp] theorem State.modIo_patterns (s : State) (f : Ifaces → Ifaces) : (s.modIo f).patterns = s.patterns := rfl
@[simp] theorem State.modIo_icu (s : State) (f : Ifaces → Ifaces) : (s.modIo f).icu = s.icu := rfl
@[simp] theorem State.modIo_pending (s : State) (f : Ifaces → Ifaces) : (s.modIo f).pending = s.pending := rfl
@[simp] theorem State.modIo_reg (s : State) (f : Ifaces → Ifaces) (a' : Nat) : (s.modIo f).reg a' = s.reg a' := rfl
@[simp] theorem State.modIo_byte (s : State) (f : Ifaces → Ifaces) (a' : Nat) : (s.modIo f).byte a' = s.byte a' := rfl

@[simp] theorem State.modJournal_regs (s : State) (f : Journal → Journal) : (s.modJournal f).regs = s.regs := rfl
@[simp] theorem State.modJournal_shadow (s : State) (f : Journal → Journal) : (s.modJournal f).shadow = s.shadow := rfl
@[simp] theorem State.modJournal_mem (s : State) (f : Journal → Journal) : (s.modJournal f).mem = s.mem := rfl
@[simp] theorem State.modJournal_flags (s : State) (f : Journal → Journal) : (s.modJournal f).flags = s.flags := rfl
@[simp] theorem State.modJournal_now (s : State) (f : Journal → Journal) : (s.modJournal f).now = s.now := rfl
@[simp] theorem State.modJournal_free (s : State) (f : Journal → Journal) : (s.modJournal f).free = s.free := rfl
@[simp] theorem State.modJournal_otp (s : State) (f : Journal → Journal) : (s.modJournal f).otp = s.otp := rfl
@[simp] theorem State.modJournal_flash (s : State) (f : Journal → Journal) : (s.modJournal f).flash = s.flash := rfl
@[simp] theorem State.modJournal_tl (s : State) (f : Journal → Journal) : (s.modJournal f).tl = s.tl := rfl
@[simp] theorem State.modJournal_pins (s : State) (f : Journal → Journal) : (s.modJournal f).pins = s.pins := rfl
@[simp] theorem State.modJournal_kin (s : State) (f : Journal → Journal) : (s.modJournal f).kin = s.kin := rfl
@[simp] theorem State.modJournal_scene (s : State) (f : Journal → Journal) : (s.modJournal f).scene = s.scene := rfl
@[simp] theorem State.modJournal_fgs (s : State) (f : Journal → Journal) : (s.modJournal f).fgs = s.fgs := rfl
@[simp] theorem State.modJournal_mm (s : State) (f : Journal → Journal) : (s.modJournal f).mm = s.mm := rfl
@[simp] theorem State.modJournal_cores (s : State) (f : Journal → Journal) : (s.modJournal f).cores = s.cores := rfl
@[simp] theorem State.modJournal_units (s : State) (f : Journal → Journal) : (s.modJournal f).units = s.units := rfl
@[simp] theorem State.modJournal_safety (s : State) (f : Journal → Journal) : (s.modJournal f).safety = s.safety := rfl
@[simp] theorem State.modJournal_adapt (s : State) (f : Journal → Journal) : (s.modJournal f).adapt = s.adapt := rfl
@[simp] theorem State.modJournal_maint (s : State) (f : Journal → Journal) : (s.modJournal f).maint = s.maint := rfl
@[simp] theorem State.modJournal_cam (s : State) (f : Journal → Journal) : (s.modJournal f).cam = s.cam := rfl
@[simp] theorem State.modJournal_isp (s : State) (f : Journal → Journal) : (s.modJournal f).isp = s.isp := rfl
@[simp] theorem State.modJournal_io (s : State) (f : Journal → Journal) : (s.modJournal f).io = s.io := rfl
@[simp] theorem State.modJournal_gml (s : State) (f : Journal → Journal) : (s.modJournal f).gml = s.gml := rfl
@[simp] theorem State.modJournal_cvus (s : State) (f : Journal → Journal) : (s.modJournal f).cvus = s.cvus := rfl
@[simp] theorem State.modJournal_carry (s : State) (f : Journal → Journal) : (s.modJournal f).carry = s.carry := rfl
@[simp] theorem State.modJournal_nts (s : State) (f : Journal → Journal) : (s.modJournal f).nts = s.nts := rfl
@[simp] theorem State.modJournal_patterns (s : State) (f : Journal → Journal) : (s.modJournal f).patterns = s.patterns := rfl
@[simp] theorem State.modJournal_icu (s : State) (f : Journal → Journal) : (s.modJournal f).icu = s.icu := rfl
@[simp] theorem State.modJournal_pending (s : State) (f : Journal → Journal) : (s.modJournal f).pending = s.pending := rfl
@[simp] theorem State.modJournal_reg (s : State) (f : Journal → Journal) (a' : Nat) : (s.modJournal f).reg a' = s.reg a' := rfl
@[simp] theorem State.modJournal_byte (s : State) (f : Journal → Journal) (a' : Nat) : (s.modJournal f).byte a' = s.byte a' := rfl

@[simp] theorem State.modKin_regs (s : State) (f : Kindle → Kindle) : (s.modKin f).regs = s.regs := rfl
@[simp] theorem State.modKin_shadow (s : State) (f : Kindle → Kindle) : (s.modKin f).shadow = s.shadow := rfl
@[simp] theorem State.modKin_mem (s : State) (f : Kindle → Kindle) : (s.modKin f).mem = s.mem := rfl
@[simp] theorem State.modKin_flags (s : State) (f : Kindle → Kindle) : (s.modKin f).flags = s.flags := rfl
@[simp] theorem State.modKin_now (s : State) (f : Kindle → Kindle) : (s.modKin f).now = s.now := rfl
@[simp] theorem State.modKin_free (s : State) (f : Kindle → Kindle) : (s.modKin f).free = s.free := rfl
@[simp] theorem State.modKin_otp (s : State) (f : Kindle → Kindle) : (s.modKin f).otp = s.otp := rfl
@[simp] theorem State.modKin_flash (s : State) (f : Kindle → Kindle) : (s.modKin f).flash = s.flash := rfl
@[simp] theorem State.modKin_tl (s : State) (f : Kindle → Kindle) : (s.modKin f).tl = s.tl := rfl
@[simp] theorem State.modKin_pins (s : State) (f : Kindle → Kindle) : (s.modKin f).pins = s.pins := rfl
@[simp] theorem State.modKin_scene (s : State) (f : Kindle → Kindle) : (s.modKin f).scene = s.scene := rfl
@[simp] theorem State.modKin_fgs (s : State) (f : Kindle → Kindle) : (s.modKin f).fgs = s.fgs := rfl
@[simp] theorem State.modKin_mm (s : State) (f : Kindle → Kindle) : (s.modKin f).mm = s.mm := rfl
@[simp] theorem State.modKin_cores (s : State) (f : Kindle → Kindle) : (s.modKin f).cores = s.cores := rfl
@[simp] theorem State.modKin_units (s : State) (f : Kindle → Kindle) : (s.modKin f).units = s.units := rfl
@[simp] theorem State.modKin_journal (s : State) (f : Kindle → Kindle) : (s.modKin f).journal = s.journal := rfl
@[simp] theorem State.modKin_safety (s : State) (f : Kindle → Kindle) : (s.modKin f).safety = s.safety := rfl
@[simp] theorem State.modKin_adapt (s : State) (f : Kindle → Kindle) : (s.modKin f).adapt = s.adapt := rfl
@[simp] theorem State.modKin_maint (s : State) (f : Kindle → Kindle) : (s.modKin f).maint = s.maint := rfl
@[simp] theorem State.modKin_cam (s : State) (f : Kindle → Kindle) : (s.modKin f).cam = s.cam := rfl
@[simp] theorem State.modKin_isp (s : State) (f : Kindle → Kindle) : (s.modKin f).isp = s.isp := rfl
@[simp] theorem State.modKin_io (s : State) (f : Kindle → Kindle) : (s.modKin f).io = s.io := rfl
@[simp] theorem State.modKin_gml (s : State) (f : Kindle → Kindle) : (s.modKin f).gml = s.gml := rfl
@[simp] theorem State.modKin_cvus (s : State) (f : Kindle → Kindle) : (s.modKin f).cvus = s.cvus := rfl
@[simp] theorem State.modKin_carry (s : State) (f : Kindle → Kindle) : (s.modKin f).carry = s.carry := rfl
@[simp] theorem State.modKin_nts (s : State) (f : Kindle → Kindle) : (s.modKin f).nts = s.nts := rfl
@[simp] theorem State.modKin_patterns (s : State) (f : Kindle → Kindle) : (s.modKin f).patterns = s.patterns := rfl
@[simp] theorem State.modKin_icu (s : State) (f : Kindle → Kindle) : (s.modKin f).icu = s.icu := rfl
@[simp] theorem State.modKin_pending (s : State) (f : Kindle → Kindle) : (s.modKin f).pending = s.pending := rfl
@[simp] theorem State.modKin_reg (s : State) (f : Kindle → Kindle) (a' : Nat) : (s.modKin f).reg a' = s.reg a' := rfl
@[simp] theorem State.modKin_byte (s : State) (f : Kindle → Kindle) (a' : Nat) : (s.modKin f).byte a' = s.byte a' := rfl

@[simp] theorem State.modLink_regs (s : State) (k : Nat) (f : LinkSt → LinkSt) : (s.modLink k f).regs = s.regs := rfl
@[simp] theorem State.modLink_shadow (s : State) (k : Nat) (f : LinkSt → LinkSt) : (s.modLink k f).shadow = s.shadow := rfl
@[simp] theorem State.modLink_mem (s : State) (k : Nat) (f : LinkSt → LinkSt) : (s.modLink k f).mem = s.mem := rfl
@[simp] theorem State.modLink_flags (s : State) (k : Nat) (f : LinkSt → LinkSt) : (s.modLink k f).flags = s.flags := rfl
@[simp] theorem State.modLink_now (s : State) (k : Nat) (f : LinkSt → LinkSt) : (s.modLink k f).now = s.now := rfl
@[simp] theorem State.modLink_free (s : State) (k : Nat) (f : LinkSt → LinkSt) : (s.modLink k f).free = s.free := rfl
@[simp] theorem State.modLink_otp (s : State) (k : Nat) (f : LinkSt → LinkSt) : (s.modLink k f).otp = s.otp := rfl
@[simp] theorem State.modLink_flash (s : State) (k : Nat) (f : LinkSt → LinkSt) : (s.modLink k f).flash = s.flash := rfl
@[simp] theorem State.modLink_tl (s : State) (k : Nat) (f : LinkSt → LinkSt) : (s.modLink k f).tl = s.tl := rfl
@[simp] theorem State.modLink_pins (s : State) (k : Nat) (f : LinkSt → LinkSt) : (s.modLink k f).pins = s.pins := rfl
@[simp] theorem State.modLink_kin (s : State) (k : Nat) (f : LinkSt → LinkSt) : (s.modLink k f).kin = s.kin := rfl
@[simp] theorem State.modLink_scene (s : State) (k : Nat) (f : LinkSt → LinkSt) : (s.modLink k f).scene = s.scene := rfl
@[simp] theorem State.modLink_fgs (s : State) (k : Nat) (f : LinkSt → LinkSt) : (s.modLink k f).fgs = s.fgs := rfl
@[simp] theorem State.modLink_mm (s : State) (k : Nat) (f : LinkSt → LinkSt) : (s.modLink k f).mm = s.mm := rfl
@[simp] theorem State.modLink_cores (s : State) (k : Nat) (f : LinkSt → LinkSt) : (s.modLink k f).cores = s.cores := rfl
@[simp] theorem State.modLink_units (s : State) (k : Nat) (f : LinkSt → LinkSt) : (s.modLink k f).units = s.units := rfl
@[simp] theorem State.modLink_journal (s : State) (k : Nat) (f : LinkSt → LinkSt) : (s.modLink k f).journal = s.journal := rfl
@[simp] theorem State.modLink_safety (s : State) (k : Nat) (f : LinkSt → LinkSt) : (s.modLink k f).safety = s.safety := rfl
@[simp] theorem State.modLink_adapt (s : State) (k : Nat) (f : LinkSt → LinkSt) : (s.modLink k f).adapt = s.adapt := rfl
@[simp] theorem State.modLink_maint (s : State) (k : Nat) (f : LinkSt → LinkSt) : (s.modLink k f).maint = s.maint := rfl
@[simp] theorem State.modLink_cam (s : State) (k : Nat) (f : LinkSt → LinkSt) : (s.modLink k f).cam = s.cam := rfl
@[simp] theorem State.modLink_isp (s : State) (k : Nat) (f : LinkSt → LinkSt) : (s.modLink k f).isp = s.isp := rfl
@[simp] theorem State.modLink_io (s : State) (k : Nat) (f : LinkSt → LinkSt) : (s.modLink k f).io = s.io := rfl
@[simp] theorem State.modLink_cvus (s : State) (k : Nat) (f : LinkSt → LinkSt) : (s.modLink k f).cvus = s.cvus := rfl
@[simp] theorem State.modLink_carry (s : State) (k : Nat) (f : LinkSt → LinkSt) : (s.modLink k f).carry = s.carry := rfl
@[simp] theorem State.modLink_nts (s : State) (k : Nat) (f : LinkSt → LinkSt) : (s.modLink k f).nts = s.nts := rfl
@[simp] theorem State.modLink_patterns (s : State) (k : Nat) (f : LinkSt → LinkSt) : (s.modLink k f).patterns = s.patterns := rfl
@[simp] theorem State.modLink_icu (s : State) (k : Nat) (f : LinkSt → LinkSt) : (s.modLink k f).icu = s.icu := rfl
@[simp] theorem State.modLink_pending (s : State) (k : Nat) (f : LinkSt → LinkSt) : (s.modLink k f).pending = s.pending := rfl
@[simp] theorem State.modLink_reg (s : State) (k : Nat) (f : LinkSt → LinkSt) (a' : Nat) : (s.modLink k f).reg a' = s.reg a' := rfl
@[simp] theorem State.modLink_byte (s : State) (k : Nat) (f : LinkSt → LinkSt) (a' : Nat) : (s.modLink k f).byte a' = s.byte a' := rfl

@[simp] theorem State.modNode_regs (s : State) (slot : Nat) (f : NodeSt → NodeSt) : (s.modNode slot f).regs = s.regs := rfl
@[simp] theorem State.modNode_shadow (s : State) (slot : Nat) (f : NodeSt → NodeSt) : (s.modNode slot f).shadow = s.shadow := rfl
@[simp] theorem State.modNode_mem (s : State) (slot : Nat) (f : NodeSt → NodeSt) : (s.modNode slot f).mem = s.mem := rfl
@[simp] theorem State.modNode_flags (s : State) (slot : Nat) (f : NodeSt → NodeSt) : (s.modNode slot f).flags = s.flags := rfl
@[simp] theorem State.modNode_now (s : State) (slot : Nat) (f : NodeSt → NodeSt) : (s.modNode slot f).now = s.now := rfl
@[simp] theorem State.modNode_free (s : State) (slot : Nat) (f : NodeSt → NodeSt) : (s.modNode slot f).free = s.free := rfl
@[simp] theorem State.modNode_otp (s : State) (slot : Nat) (f : NodeSt → NodeSt) : (s.modNode slot f).otp = s.otp := rfl
@[simp] theorem State.modNode_flash (s : State) (slot : Nat) (f : NodeSt → NodeSt) : (s.modNode slot f).flash = s.flash := rfl
@[simp] theorem State.modNode_tl (s : State) (slot : Nat) (f : NodeSt → NodeSt) : (s.modNode slot f).tl = s.tl := rfl
@[simp] theorem State.modNode_pins (s : State) (slot : Nat) (f : NodeSt → NodeSt) : (s.modNode slot f).pins = s.pins := rfl
@[simp] theorem State.modNode_kin (s : State) (slot : Nat) (f : NodeSt → NodeSt) : (s.modNode slot f).kin = s.kin := rfl
@[simp] theorem State.modNode_scene (s : State) (slot : Nat) (f : NodeSt → NodeSt) : (s.modNode slot f).scene = s.scene := rfl
@[simp] theorem State.modNode_mm (s : State) (slot : Nat) (f : NodeSt → NodeSt) : (s.modNode slot f).mm = s.mm := rfl
@[simp] theorem State.modNode_cores (s : State) (slot : Nat) (f : NodeSt → NodeSt) : (s.modNode slot f).cores = s.cores := rfl
@[simp] theorem State.modNode_units (s : State) (slot : Nat) (f : NodeSt → NodeSt) : (s.modNode slot f).units = s.units := rfl
@[simp] theorem State.modNode_journal (s : State) (slot : Nat) (f : NodeSt → NodeSt) : (s.modNode slot f).journal = s.journal := rfl
@[simp] theorem State.modNode_safety (s : State) (slot : Nat) (f : NodeSt → NodeSt) : (s.modNode slot f).safety = s.safety := rfl
@[simp] theorem State.modNode_adapt (s : State) (slot : Nat) (f : NodeSt → NodeSt) : (s.modNode slot f).adapt = s.adapt := rfl
@[simp] theorem State.modNode_maint (s : State) (slot : Nat) (f : NodeSt → NodeSt) : (s.modNode slot f).maint = s.maint := rfl
@[simp] theorem State.modNode_cam (s : State) (slot : Nat) (f : NodeSt → NodeSt) : (s.modNode slot f).cam = s.cam := rfl
@[simp] theorem State.modNode_isp (s : State) (slot : Nat) (f : NodeSt → NodeSt) : (s.modNode slot f).isp = s.isp := rfl
@[simp] theorem State.modNode_io (s : State) (slot : Nat) (f : NodeSt → NodeSt) : (s.modNode slot f).io = s.io := rfl
@[simp] theorem State.modNode_gml (s : State) (slot : Nat) (f : NodeSt → NodeSt) : (s.modNode slot f).gml = s.gml := rfl
@[simp] theorem State.modNode_cvus (s : State) (slot : Nat) (f : NodeSt → NodeSt) : (s.modNode slot f).cvus = s.cvus := rfl
@[simp] theorem State.modNode_carry (s : State) (slot : Nat) (f : NodeSt → NodeSt) : (s.modNode slot f).carry = s.carry := rfl
@[simp] theorem State.modNode_nts (s : State) (slot : Nat) (f : NodeSt → NodeSt) : (s.modNode slot f).nts = s.nts := rfl
@[simp] theorem State.modNode_patterns (s : State) (slot : Nat) (f : NodeSt → NodeSt) : (s.modNode slot f).patterns = s.patterns := rfl
@[simp] theorem State.modNode_icu (s : State) (slot : Nat) (f : NodeSt → NodeSt) : (s.modNode slot f).icu = s.icu := rfl
@[simp] theorem State.modNode_pending (s : State) (slot : Nat) (f : NodeSt → NodeSt) : (s.modNode slot f).pending = s.pending := rfl
@[simp] theorem State.modNode_reg (s : State) (slot : Nat) (f : NodeSt → NodeSt) (a' : Nat) : (s.modNode slot f).reg a' = s.reg a' := rfl
@[simp] theorem State.modNode_byte (s : State) (slot : Nat) (f : NodeSt → NodeSt) (a' : Nat) : (s.modNode slot f).byte a' = s.byte a' := rfl

@[simp] theorem State.modNt_regs (s : State) (n : Nat) (f : TileSt → TileSt) : (s.modNt n f).regs = s.regs := rfl
@[simp] theorem State.modNt_shadow (s : State) (n : Nat) (f : TileSt → TileSt) : (s.modNt n f).shadow = s.shadow := rfl
@[simp] theorem State.modNt_mem (s : State) (n : Nat) (f : TileSt → TileSt) : (s.modNt n f).mem = s.mem := rfl
@[simp] theorem State.modNt_flags (s : State) (n : Nat) (f : TileSt → TileSt) : (s.modNt n f).flags = s.flags := rfl
@[simp] theorem State.modNt_now (s : State) (n : Nat) (f : TileSt → TileSt) : (s.modNt n f).now = s.now := rfl
@[simp] theorem State.modNt_free (s : State) (n : Nat) (f : TileSt → TileSt) : (s.modNt n f).free = s.free := rfl
@[simp] theorem State.modNt_otp (s : State) (n : Nat) (f : TileSt → TileSt) : (s.modNt n f).otp = s.otp := rfl
@[simp] theorem State.modNt_flash (s : State) (n : Nat) (f : TileSt → TileSt) : (s.modNt n f).flash = s.flash := rfl
@[simp] theorem State.modNt_tl (s : State) (n : Nat) (f : TileSt → TileSt) : (s.modNt n f).tl = s.tl := rfl
@[simp] theorem State.modNt_pins (s : State) (n : Nat) (f : TileSt → TileSt) : (s.modNt n f).pins = s.pins := rfl
@[simp] theorem State.modNt_kin (s : State) (n : Nat) (f : TileSt → TileSt) : (s.modNt n f).kin = s.kin := rfl
@[simp] theorem State.modNt_scene (s : State) (n : Nat) (f : TileSt → TileSt) : (s.modNt n f).scene = s.scene := rfl
@[simp] theorem State.modNt_fgs (s : State) (n : Nat) (f : TileSt → TileSt) : (s.modNt n f).fgs = s.fgs := rfl
@[simp] theorem State.modNt_mm (s : State) (n : Nat) (f : TileSt → TileSt) : (s.modNt n f).mm = s.mm := rfl
@[simp] theorem State.modNt_cores (s : State) (n : Nat) (f : TileSt → TileSt) : (s.modNt n f).cores = s.cores := rfl
@[simp] theorem State.modNt_units (s : State) (n : Nat) (f : TileSt → TileSt) : (s.modNt n f).units = s.units := rfl
@[simp] theorem State.modNt_journal (s : State) (n : Nat) (f : TileSt → TileSt) : (s.modNt n f).journal = s.journal := rfl
@[simp] theorem State.modNt_safety (s : State) (n : Nat) (f : TileSt → TileSt) : (s.modNt n f).safety = s.safety := rfl
@[simp] theorem State.modNt_adapt (s : State) (n : Nat) (f : TileSt → TileSt) : (s.modNt n f).adapt = s.adapt := rfl
@[simp] theorem State.modNt_maint (s : State) (n : Nat) (f : TileSt → TileSt) : (s.modNt n f).maint = s.maint := rfl
@[simp] theorem State.modNt_cam (s : State) (n : Nat) (f : TileSt → TileSt) : (s.modNt n f).cam = s.cam := rfl
@[simp] theorem State.modNt_isp (s : State) (n : Nat) (f : TileSt → TileSt) : (s.modNt n f).isp = s.isp := rfl
@[simp] theorem State.modNt_io (s : State) (n : Nat) (f : TileSt → TileSt) : (s.modNt n f).io = s.io := rfl
@[simp] theorem State.modNt_gml (s : State) (n : Nat) (f : TileSt → TileSt) : (s.modNt n f).gml = s.gml := rfl
@[simp] theorem State.modNt_cvus (s : State) (n : Nat) (f : TileSt → TileSt) : (s.modNt n f).cvus = s.cvus := rfl
@[simp] theorem State.modNt_carry (s : State) (n : Nat) (f : TileSt → TileSt) : (s.modNt n f).carry = s.carry := rfl
@[simp] theorem State.modNt_patterns (s : State) (n : Nat) (f : TileSt → TileSt) : (s.modNt n f).patterns = s.patterns := rfl
@[simp] theorem State.modNt_icu (s : State) (n : Nat) (f : TileSt → TileSt) : (s.modNt n f).icu = s.icu := rfl
@[simp] theorem State.modNt_pending (s : State) (n : Nat) (f : TileSt → TileSt) : (s.modNt n f).pending = s.pending := rfl
@[simp] theorem State.modNt_reg (s : State) (n : Nat) (f : TileSt → TileSt) (a' : Nat) : (s.modNt n f).reg a' = s.reg a' := rfl
@[simp] theorem State.modNt_byte (s : State) (n : Nat) (f : TileSt → TileSt) (a' : Nat) : (s.modNt n f).byte a' = s.byte a' := rfl

@[simp] theorem State.modPins_regs (s : State) (f : Pins → Pins) : (s.modPins f).regs = s.regs := rfl
@[simp] theorem State.modPins_shadow (s : State) (f : Pins → Pins) : (s.modPins f).shadow = s.shadow := rfl
@[simp] theorem State.modPins_mem (s : State) (f : Pins → Pins) : (s.modPins f).mem = s.mem := rfl
@[simp] theorem State.modPins_flags (s : State) (f : Pins → Pins) : (s.modPins f).flags = s.flags := rfl
@[simp] theorem State.modPins_now (s : State) (f : Pins → Pins) : (s.modPins f).now = s.now := rfl
@[simp] theorem State.modPins_free (s : State) (f : Pins → Pins) : (s.modPins f).free = s.free := rfl
@[simp] theorem State.modPins_otp (s : State) (f : Pins → Pins) : (s.modPins f).otp = s.otp := rfl
@[simp] theorem State.modPins_flash (s : State) (f : Pins → Pins) : (s.modPins f).flash = s.flash := rfl
@[simp] theorem State.modPins_tl (s : State) (f : Pins → Pins) : (s.modPins f).tl = s.tl := rfl
@[simp] theorem State.modPins_kin (s : State) (f : Pins → Pins) : (s.modPins f).kin = s.kin := rfl
@[simp] theorem State.modPins_scene (s : State) (f : Pins → Pins) : (s.modPins f).scene = s.scene := rfl
@[simp] theorem State.modPins_fgs (s : State) (f : Pins → Pins) : (s.modPins f).fgs = s.fgs := rfl
@[simp] theorem State.modPins_mm (s : State) (f : Pins → Pins) : (s.modPins f).mm = s.mm := rfl
@[simp] theorem State.modPins_cores (s : State) (f : Pins → Pins) : (s.modPins f).cores = s.cores := rfl
@[simp] theorem State.modPins_units (s : State) (f : Pins → Pins) : (s.modPins f).units = s.units := rfl
@[simp] theorem State.modPins_journal (s : State) (f : Pins → Pins) : (s.modPins f).journal = s.journal := rfl
@[simp] theorem State.modPins_safety (s : State) (f : Pins → Pins) : (s.modPins f).safety = s.safety := rfl
@[simp] theorem State.modPins_adapt (s : State) (f : Pins → Pins) : (s.modPins f).adapt = s.adapt := rfl
@[simp] theorem State.modPins_maint (s : State) (f : Pins → Pins) : (s.modPins f).maint = s.maint := rfl
@[simp] theorem State.modPins_cam (s : State) (f : Pins → Pins) : (s.modPins f).cam = s.cam := rfl
@[simp] theorem State.modPins_isp (s : State) (f : Pins → Pins) : (s.modPins f).isp = s.isp := rfl
@[simp] theorem State.modPins_io (s : State) (f : Pins → Pins) : (s.modPins f).io = s.io := rfl
@[simp] theorem State.modPins_gml (s : State) (f : Pins → Pins) : (s.modPins f).gml = s.gml := rfl
@[simp] theorem State.modPins_cvus (s : State) (f : Pins → Pins) : (s.modPins f).cvus = s.cvus := rfl
@[simp] theorem State.modPins_carry (s : State) (f : Pins → Pins) : (s.modPins f).carry = s.carry := rfl
@[simp] theorem State.modPins_nts (s : State) (f : Pins → Pins) : (s.modPins f).nts = s.nts := rfl
@[simp] theorem State.modPins_patterns (s : State) (f : Pins → Pins) : (s.modPins f).patterns = s.patterns := rfl
@[simp] theorem State.modPins_icu (s : State) (f : Pins → Pins) : (s.modPins f).icu = s.icu := rfl
@[simp] theorem State.modPins_pending (s : State) (f : Pins → Pins) : (s.modPins f).pending = s.pending := rfl
@[simp] theorem State.modPins_reg (s : State) (f : Pins → Pins) (a' : Nat) : (s.modPins f).reg a' = s.reg a' := rfl
@[simp] theorem State.modPins_byte (s : State) (f : Pins → Pins) (a' : Nat) : (s.modPins f).byte a' = s.byte a' := rfl

@[simp] theorem State.modPipe_regs (s : State) (n : Nat) (f : PipeSt → PipeSt) : (s.modPipe n f).regs = s.regs := rfl
@[simp] theorem State.modPipe_shadow (s : State) (n : Nat) (f : PipeSt → PipeSt) : (s.modPipe n f).shadow = s.shadow := rfl
@[simp] theorem State.modPipe_mem (s : State) (n : Nat) (f : PipeSt → PipeSt) : (s.modPipe n f).mem = s.mem := rfl
@[simp] theorem State.modPipe_flags (s : State) (n : Nat) (f : PipeSt → PipeSt) : (s.modPipe n f).flags = s.flags := rfl
@[simp] theorem State.modPipe_now (s : State) (n : Nat) (f : PipeSt → PipeSt) : (s.modPipe n f).now = s.now := rfl
@[simp] theorem State.modPipe_free (s : State) (n : Nat) (f : PipeSt → PipeSt) : (s.modPipe n f).free = s.free := rfl
@[simp] theorem State.modPipe_otp (s : State) (n : Nat) (f : PipeSt → PipeSt) : (s.modPipe n f).otp = s.otp := rfl
@[simp] theorem State.modPipe_flash (s : State) (n : Nat) (f : PipeSt → PipeSt) : (s.modPipe n f).flash = s.flash := rfl
@[simp] theorem State.modPipe_tl (s : State) (n : Nat) (f : PipeSt → PipeSt) : (s.modPipe n f).tl = s.tl := rfl
@[simp] theorem State.modPipe_pins (s : State) (n : Nat) (f : PipeSt → PipeSt) : (s.modPipe n f).pins = s.pins := rfl
@[simp] theorem State.modPipe_kin (s : State) (n : Nat) (f : PipeSt → PipeSt) : (s.modPipe n f).kin = s.kin := rfl
@[simp] theorem State.modPipe_scene (s : State) (n : Nat) (f : PipeSt → PipeSt) : (s.modPipe n f).scene = s.scene := rfl
@[simp] theorem State.modPipe_fgs (s : State) (n : Nat) (f : PipeSt → PipeSt) : (s.modPipe n f).fgs = s.fgs := rfl
@[simp] theorem State.modPipe_mm (s : State) (n : Nat) (f : PipeSt → PipeSt) : (s.modPipe n f).mm = s.mm := rfl
@[simp] theorem State.modPipe_cores (s : State) (n : Nat) (f : PipeSt → PipeSt) : (s.modPipe n f).cores = s.cores := rfl
@[simp] theorem State.modPipe_units (s : State) (n : Nat) (f : PipeSt → PipeSt) : (s.modPipe n f).units = s.units := rfl
@[simp] theorem State.modPipe_journal (s : State) (n : Nat) (f : PipeSt → PipeSt) : (s.modPipe n f).journal = s.journal := rfl
@[simp] theorem State.modPipe_safety (s : State) (n : Nat) (f : PipeSt → PipeSt) : (s.modPipe n f).safety = s.safety := rfl
@[simp] theorem State.modPipe_adapt (s : State) (n : Nat) (f : PipeSt → PipeSt) : (s.modPipe n f).adapt = s.adapt := rfl
@[simp] theorem State.modPipe_maint (s : State) (n : Nat) (f : PipeSt → PipeSt) : (s.modPipe n f).maint = s.maint := rfl
@[simp] theorem State.modPipe_cam (s : State) (n : Nat) (f : PipeSt → PipeSt) : (s.modPipe n f).cam = s.cam := rfl
@[simp] theorem State.modPipe_io (s : State) (n : Nat) (f : PipeSt → PipeSt) : (s.modPipe n f).io = s.io := rfl
@[simp] theorem State.modPipe_gml (s : State) (n : Nat) (f : PipeSt → PipeSt) : (s.modPipe n f).gml = s.gml := rfl
@[simp] theorem State.modPipe_cvus (s : State) (n : Nat) (f : PipeSt → PipeSt) : (s.modPipe n f).cvus = s.cvus := rfl
@[simp] theorem State.modPipe_carry (s : State) (n : Nat) (f : PipeSt → PipeSt) : (s.modPipe n f).carry = s.carry := rfl
@[simp] theorem State.modPipe_nts (s : State) (n : Nat) (f : PipeSt → PipeSt) : (s.modPipe n f).nts = s.nts := rfl
@[simp] theorem State.modPipe_patterns (s : State) (n : Nat) (f : PipeSt → PipeSt) : (s.modPipe n f).patterns = s.patterns := rfl
@[simp] theorem State.modPipe_icu (s : State) (n : Nat) (f : PipeSt → PipeSt) : (s.modPipe n f).icu = s.icu := rfl
@[simp] theorem State.modPipe_pending (s : State) (n : Nat) (f : PipeSt → PipeSt) : (s.modPipe n f).pending = s.pending := rfl
@[simp] theorem State.modPipe_reg (s : State) (n : Nat) (f : PipeSt → PipeSt) (a' : Nat) : (s.modPipe n f).reg a' = s.reg a' := rfl
@[simp] theorem State.modPipe_byte (s : State) (n : Nat) (f : PipeSt → PipeSt) (a' : Nat) : (s.modPipe n f).byte a' = s.byte a' := rfl

@[simp] theorem State.modPort_regs (s : State) (n : Nat) (f : PortSt → PortSt) : (s.modPort n f).regs = s.regs := rfl
@[simp] theorem State.modPort_shadow (s : State) (n : Nat) (f : PortSt → PortSt) : (s.modPort n f).shadow = s.shadow := rfl
@[simp] theorem State.modPort_mem (s : State) (n : Nat) (f : PortSt → PortSt) : (s.modPort n f).mem = s.mem := rfl
@[simp] theorem State.modPort_flags (s : State) (n : Nat) (f : PortSt → PortSt) : (s.modPort n f).flags = s.flags := rfl
@[simp] theorem State.modPort_now (s : State) (n : Nat) (f : PortSt → PortSt) : (s.modPort n f).now = s.now := rfl
@[simp] theorem State.modPort_free (s : State) (n : Nat) (f : PortSt → PortSt) : (s.modPort n f).free = s.free := rfl
@[simp] theorem State.modPort_otp (s : State) (n : Nat) (f : PortSt → PortSt) : (s.modPort n f).otp = s.otp := rfl
@[simp] theorem State.modPort_flash (s : State) (n : Nat) (f : PortSt → PortSt) : (s.modPort n f).flash = s.flash := rfl
@[simp] theorem State.modPort_tl (s : State) (n : Nat) (f : PortSt → PortSt) : (s.modPort n f).tl = s.tl := rfl
@[simp] theorem State.modPort_pins (s : State) (n : Nat) (f : PortSt → PortSt) : (s.modPort n f).pins = s.pins := rfl
@[simp] theorem State.modPort_kin (s : State) (n : Nat) (f : PortSt → PortSt) : (s.modPort n f).kin = s.kin := rfl
@[simp] theorem State.modPort_scene (s : State) (n : Nat) (f : PortSt → PortSt) : (s.modPort n f).scene = s.scene := rfl
@[simp] theorem State.modPort_fgs (s : State) (n : Nat) (f : PortSt → PortSt) : (s.modPort n f).fgs = s.fgs := rfl
@[simp] theorem State.modPort_mm (s : State) (n : Nat) (f : PortSt → PortSt) : (s.modPort n f).mm = s.mm := rfl
@[simp] theorem State.modPort_cores (s : State) (n : Nat) (f : PortSt → PortSt) : (s.modPort n f).cores = s.cores := rfl
@[simp] theorem State.modPort_units (s : State) (n : Nat) (f : PortSt → PortSt) : (s.modPort n f).units = s.units := rfl
@[simp] theorem State.modPort_journal (s : State) (n : Nat) (f : PortSt → PortSt) : (s.modPort n f).journal = s.journal := rfl
@[simp] theorem State.modPort_safety (s : State) (n : Nat) (f : PortSt → PortSt) : (s.modPort n f).safety = s.safety := rfl
@[simp] theorem State.modPort_adapt (s : State) (n : Nat) (f : PortSt → PortSt) : (s.modPort n f).adapt = s.adapt := rfl
@[simp] theorem State.modPort_maint (s : State) (n : Nat) (f : PortSt → PortSt) : (s.modPort n f).maint = s.maint := rfl
@[simp] theorem State.modPort_isp (s : State) (n : Nat) (f : PortSt → PortSt) : (s.modPort n f).isp = s.isp := rfl
@[simp] theorem State.modPort_io (s : State) (n : Nat) (f : PortSt → PortSt) : (s.modPort n f).io = s.io := rfl
@[simp] theorem State.modPort_gml (s : State) (n : Nat) (f : PortSt → PortSt) : (s.modPort n f).gml = s.gml := rfl
@[simp] theorem State.modPort_cvus (s : State) (n : Nat) (f : PortSt → PortSt) : (s.modPort n f).cvus = s.cvus := rfl
@[simp] theorem State.modPort_carry (s : State) (n : Nat) (f : PortSt → PortSt) : (s.modPort n f).carry = s.carry := rfl
@[simp] theorem State.modPort_nts (s : State) (n : Nat) (f : PortSt → PortSt) : (s.modPort n f).nts = s.nts := rfl
@[simp] theorem State.modPort_patterns (s : State) (n : Nat) (f : PortSt → PortSt) : (s.modPort n f).patterns = s.patterns := rfl
@[simp] theorem State.modPort_icu (s : State) (n : Nat) (f : PortSt → PortSt) : (s.modPort n f).icu = s.icu := rfl
@[simp] theorem State.modPort_pending (s : State) (n : Nat) (f : PortSt → PortSt) : (s.modPort n f).pending = s.pending := rfl
@[simp] theorem State.modPort_reg (s : State) (n : Nat) (f : PortSt → PortSt) (a' : Nat) : (s.modPort n f).reg a' = s.reg a' := rfl
@[simp] theorem State.modPort_byte (s : State) (n : Nat) (f : PortSt → PortSt) (a' : Nat) : (s.modPort n f).byte a' = s.byte a' := rfl

@[simp] theorem State.modReq_regs (s : State) (a : Nat) (f : MaintReq → MaintReq) : (s.modReq a f).regs = s.regs := rfl
@[simp] theorem State.modReq_shadow (s : State) (a : Nat) (f : MaintReq → MaintReq) : (s.modReq a f).shadow = s.shadow := rfl
@[simp] theorem State.modReq_mem (s : State) (a : Nat) (f : MaintReq → MaintReq) : (s.modReq a f).mem = s.mem := rfl
@[simp] theorem State.modReq_flags (s : State) (a : Nat) (f : MaintReq → MaintReq) : (s.modReq a f).flags = s.flags := rfl
@[simp] theorem State.modReq_now (s : State) (a : Nat) (f : MaintReq → MaintReq) : (s.modReq a f).now = s.now := rfl
@[simp] theorem State.modReq_free (s : State) (a : Nat) (f : MaintReq → MaintReq) : (s.modReq a f).free = s.free := rfl
@[simp] theorem State.modReq_otp (s : State) (a : Nat) (f : MaintReq → MaintReq) : (s.modReq a f).otp = s.otp := rfl
@[simp] theorem State.modReq_flash (s : State) (a : Nat) (f : MaintReq → MaintReq) : (s.modReq a f).flash = s.flash := rfl
@[simp] theorem State.modReq_tl (s : State) (a : Nat) (f : MaintReq → MaintReq) : (s.modReq a f).tl = s.tl := rfl
@[simp] theorem State.modReq_pins (s : State) (a : Nat) (f : MaintReq → MaintReq) : (s.modReq a f).pins = s.pins := rfl
@[simp] theorem State.modReq_kin (s : State) (a : Nat) (f : MaintReq → MaintReq) : (s.modReq a f).kin = s.kin := rfl
@[simp] theorem State.modReq_scene (s : State) (a : Nat) (f : MaintReq → MaintReq) : (s.modReq a f).scene = s.scene := rfl
@[simp] theorem State.modReq_fgs (s : State) (a : Nat) (f : MaintReq → MaintReq) : (s.modReq a f).fgs = s.fgs := rfl
@[simp] theorem State.modReq_mm (s : State) (a : Nat) (f : MaintReq → MaintReq) : (s.modReq a f).mm = s.mm := rfl
@[simp] theorem State.modReq_cores (s : State) (a : Nat) (f : MaintReq → MaintReq) : (s.modReq a f).cores = s.cores := rfl
@[simp] theorem State.modReq_units (s : State) (a : Nat) (f : MaintReq → MaintReq) : (s.modReq a f).units = s.units := rfl
@[simp] theorem State.modReq_journal (s : State) (a : Nat) (f : MaintReq → MaintReq) : (s.modReq a f).journal = s.journal := rfl
@[simp] theorem State.modReq_safety (s : State) (a : Nat) (f : MaintReq → MaintReq) : (s.modReq a f).safety = s.safety := rfl
@[simp] theorem State.modReq_adapt (s : State) (a : Nat) (f : MaintReq → MaintReq) : (s.modReq a f).adapt = s.adapt := rfl
@[simp] theorem State.modReq_cam (s : State) (a : Nat) (f : MaintReq → MaintReq) : (s.modReq a f).cam = s.cam := rfl
@[simp] theorem State.modReq_isp (s : State) (a : Nat) (f : MaintReq → MaintReq) : (s.modReq a f).isp = s.isp := rfl
@[simp] theorem State.modReq_io (s : State) (a : Nat) (f : MaintReq → MaintReq) : (s.modReq a f).io = s.io := rfl
@[simp] theorem State.modReq_gml (s : State) (a : Nat) (f : MaintReq → MaintReq) : (s.modReq a f).gml = s.gml := rfl
@[simp] theorem State.modReq_cvus (s : State) (a : Nat) (f : MaintReq → MaintReq) : (s.modReq a f).cvus = s.cvus := rfl
@[simp] theorem State.modReq_carry (s : State) (a : Nat) (f : MaintReq → MaintReq) : (s.modReq a f).carry = s.carry := rfl
@[simp] theorem State.modReq_nts (s : State) (a : Nat) (f : MaintReq → MaintReq) : (s.modReq a f).nts = s.nts := rfl
@[simp] theorem State.modReq_patterns (s : State) (a : Nat) (f : MaintReq → MaintReq) : (s.modReq a f).patterns = s.patterns := rfl
@[simp] theorem State.modReq_icu (s : State) (a : Nat) (f : MaintReq → MaintReq) : (s.modReq a f).icu = s.icu := rfl
@[simp] theorem State.modReq_pending (s : State) (a : Nat) (f : MaintReq → MaintReq) : (s.modReq a f).pending = s.pending := rfl
@[simp] theorem State.modReq_reg (s : State) (a : Nat) (f : MaintReq → MaintReq) (a' : Nat) : (s.modReq a f).reg a' = s.reg a' := rfl
@[simp] theorem State.modReq_byte (s : State) (a : Nat) (f : MaintReq → MaintReq) (a' : Nat) : (s.modReq a f).byte a' = s.byte a' := rfl

@[simp] theorem State.modSafety_regs (s : State) (f : Safety → Safety) : (s.modSafety f).regs = s.regs := rfl
@[simp] theorem State.modSafety_shadow (s : State) (f : Safety → Safety) : (s.modSafety f).shadow = s.shadow := rfl
@[simp] theorem State.modSafety_mem (s : State) (f : Safety → Safety) : (s.modSafety f).mem = s.mem := rfl
@[simp] theorem State.modSafety_flags (s : State) (f : Safety → Safety) : (s.modSafety f).flags = s.flags := rfl
@[simp] theorem State.modSafety_now (s : State) (f : Safety → Safety) : (s.modSafety f).now = s.now := rfl
@[simp] theorem State.modSafety_free (s : State) (f : Safety → Safety) : (s.modSafety f).free = s.free := rfl
@[simp] theorem State.modSafety_otp (s : State) (f : Safety → Safety) : (s.modSafety f).otp = s.otp := rfl
@[simp] theorem State.modSafety_flash (s : State) (f : Safety → Safety) : (s.modSafety f).flash = s.flash := rfl
@[simp] theorem State.modSafety_tl (s : State) (f : Safety → Safety) : (s.modSafety f).tl = s.tl := rfl
@[simp] theorem State.modSafety_pins (s : State) (f : Safety → Safety) : (s.modSafety f).pins = s.pins := rfl
@[simp] theorem State.modSafety_kin (s : State) (f : Safety → Safety) : (s.modSafety f).kin = s.kin := rfl
@[simp] theorem State.modSafety_scene (s : State) (f : Safety → Safety) : (s.modSafety f).scene = s.scene := rfl
@[simp] theorem State.modSafety_fgs (s : State) (f : Safety → Safety) : (s.modSafety f).fgs = s.fgs := rfl
@[simp] theorem State.modSafety_mm (s : State) (f : Safety → Safety) : (s.modSafety f).mm = s.mm := rfl
@[simp] theorem State.modSafety_cores (s : State) (f : Safety → Safety) : (s.modSafety f).cores = s.cores := rfl
@[simp] theorem State.modSafety_units (s : State) (f : Safety → Safety) : (s.modSafety f).units = s.units := rfl
@[simp] theorem State.modSafety_journal (s : State) (f : Safety → Safety) : (s.modSafety f).journal = s.journal := rfl
@[simp] theorem State.modSafety_adapt (s : State) (f : Safety → Safety) : (s.modSafety f).adapt = s.adapt := rfl
@[simp] theorem State.modSafety_maint (s : State) (f : Safety → Safety) : (s.modSafety f).maint = s.maint := rfl
@[simp] theorem State.modSafety_cam (s : State) (f : Safety → Safety) : (s.modSafety f).cam = s.cam := rfl
@[simp] theorem State.modSafety_isp (s : State) (f : Safety → Safety) : (s.modSafety f).isp = s.isp := rfl
@[simp] theorem State.modSafety_io (s : State) (f : Safety → Safety) : (s.modSafety f).io = s.io := rfl
@[simp] theorem State.modSafety_gml (s : State) (f : Safety → Safety) : (s.modSafety f).gml = s.gml := rfl
@[simp] theorem State.modSafety_cvus (s : State) (f : Safety → Safety) : (s.modSafety f).cvus = s.cvus := rfl
@[simp] theorem State.modSafety_carry (s : State) (f : Safety → Safety) : (s.modSafety f).carry = s.carry := rfl
@[simp] theorem State.modSafety_nts (s : State) (f : Safety → Safety) : (s.modSafety f).nts = s.nts := rfl
@[simp] theorem State.modSafety_patterns (s : State) (f : Safety → Safety) : (s.modSafety f).patterns = s.patterns := rfl
@[simp] theorem State.modSafety_icu (s : State) (f : Safety → Safety) : (s.modSafety f).icu = s.icu := rfl
@[simp] theorem State.modSafety_pending (s : State) (f : Safety → Safety) : (s.modSafety f).pending = s.pending := rfl
@[simp] theorem State.modSafety_reg (s : State) (f : Safety → Safety) (a' : Nat) : (s.modSafety f).reg a' = s.reg a' := rfl
@[simp] theorem State.modSafety_byte (s : State) (f : Safety → Safety) (a' : Nat) : (s.modSafety f).byte a' = s.byte a' := rfl

@[simp] theorem State.modSel_regs (s : State) (f : Selector → Selector) : (s.modSel f).regs = s.regs := rfl
@[simp] theorem State.modSel_shadow (s : State) (f : Selector → Selector) : (s.modSel f).shadow = s.shadow := rfl
@[simp] theorem State.modSel_mem (s : State) (f : Selector → Selector) : (s.modSel f).mem = s.mem := rfl
@[simp] theorem State.modSel_flags (s : State) (f : Selector → Selector) : (s.modSel f).flags = s.flags := rfl
@[simp] theorem State.modSel_now (s : State) (f : Selector → Selector) : (s.modSel f).now = s.now := rfl
@[simp] theorem State.modSel_free (s : State) (f : Selector → Selector) : (s.modSel f).free = s.free := rfl
@[simp] theorem State.modSel_otp (s : State) (f : Selector → Selector) : (s.modSel f).otp = s.otp := rfl
@[simp] theorem State.modSel_flash (s : State) (f : Selector → Selector) : (s.modSel f).flash = s.flash := rfl
@[simp] theorem State.modSel_tl (s : State) (f : Selector → Selector) : (s.modSel f).tl = s.tl := rfl
@[simp] theorem State.modSel_pins (s : State) (f : Selector → Selector) : (s.modSel f).pins = s.pins := rfl
@[simp] theorem State.modSel_kin (s : State) (f : Selector → Selector) : (s.modSel f).kin = s.kin := rfl
@[simp] theorem State.modSel_scene (s : State) (f : Selector → Selector) : (s.modSel f).scene = s.scene := rfl
@[simp] theorem State.modSel_fgs (s : State) (f : Selector → Selector) : (s.modSel f).fgs = s.fgs := rfl
@[simp] theorem State.modSel_mm (s : State) (f : Selector → Selector) : (s.modSel f).mm = s.mm := rfl
@[simp] theorem State.modSel_cores (s : State) (f : Selector → Selector) : (s.modSel f).cores = s.cores := rfl
@[simp] theorem State.modSel_units (s : State) (f : Selector → Selector) : (s.modSel f).units = s.units := rfl
@[simp] theorem State.modSel_journal (s : State) (f : Selector → Selector) : (s.modSel f).journal = s.journal := rfl
@[simp] theorem State.modSel_adapt (s : State) (f : Selector → Selector) : (s.modSel f).adapt = s.adapt := rfl
@[simp] theorem State.modSel_maint (s : State) (f : Selector → Selector) : (s.modSel f).maint = s.maint := rfl
@[simp] theorem State.modSel_cam (s : State) (f : Selector → Selector) : (s.modSel f).cam = s.cam := rfl
@[simp] theorem State.modSel_isp (s : State) (f : Selector → Selector) : (s.modSel f).isp = s.isp := rfl
@[simp] theorem State.modSel_io (s : State) (f : Selector → Selector) : (s.modSel f).io = s.io := rfl
@[simp] theorem State.modSel_gml (s : State) (f : Selector → Selector) : (s.modSel f).gml = s.gml := rfl
@[simp] theorem State.modSel_cvus (s : State) (f : Selector → Selector) : (s.modSel f).cvus = s.cvus := rfl
@[simp] theorem State.modSel_carry (s : State) (f : Selector → Selector) : (s.modSel f).carry = s.carry := rfl
@[simp] theorem State.modSel_nts (s : State) (f : Selector → Selector) : (s.modSel f).nts = s.nts := rfl
@[simp] theorem State.modSel_patterns (s : State) (f : Selector → Selector) : (s.modSel f).patterns = s.patterns := rfl
@[simp] theorem State.modSel_icu (s : State) (f : Selector → Selector) : (s.modSel f).icu = s.icu := rfl
@[simp] theorem State.modSel_pending (s : State) (f : Selector → Selector) : (s.modSel f).pending = s.pending := rfl
@[simp] theorem State.modSel_reg (s : State) (f : Selector → Selector) (a' : Nat) : (s.modSel f).reg a' = s.reg a' := rfl
@[simp] theorem State.modSel_byte (s : State) (f : Selector → Selector) (a' : Nat) : (s.modSel f).byte a' = s.byte a' := rfl

@[simp] theorem State.modSvc_regs (s : State) (i : Nat) (f : SvcIfc → SvcIfc) : (s.modSvc i f).regs = s.regs := rfl
@[simp] theorem State.modSvc_shadow (s : State) (i : Nat) (f : SvcIfc → SvcIfc) : (s.modSvc i f).shadow = s.shadow := rfl
@[simp] theorem State.modSvc_mem (s : State) (i : Nat) (f : SvcIfc → SvcIfc) : (s.modSvc i f).mem = s.mem := rfl
@[simp] theorem State.modSvc_flags (s : State) (i : Nat) (f : SvcIfc → SvcIfc) : (s.modSvc i f).flags = s.flags := rfl
@[simp] theorem State.modSvc_now (s : State) (i : Nat) (f : SvcIfc → SvcIfc) : (s.modSvc i f).now = s.now := rfl
@[simp] theorem State.modSvc_free (s : State) (i : Nat) (f : SvcIfc → SvcIfc) : (s.modSvc i f).free = s.free := rfl
@[simp] theorem State.modSvc_otp (s : State) (i : Nat) (f : SvcIfc → SvcIfc) : (s.modSvc i f).otp = s.otp := rfl
@[simp] theorem State.modSvc_flash (s : State) (i : Nat) (f : SvcIfc → SvcIfc) : (s.modSvc i f).flash = s.flash := rfl
@[simp] theorem State.modSvc_tl (s : State) (i : Nat) (f : SvcIfc → SvcIfc) : (s.modSvc i f).tl = s.tl := rfl
@[simp] theorem State.modSvc_pins (s : State) (i : Nat) (f : SvcIfc → SvcIfc) : (s.modSvc i f).pins = s.pins := rfl
@[simp] theorem State.modSvc_kin (s : State) (i : Nat) (f : SvcIfc → SvcIfc) : (s.modSvc i f).kin = s.kin := rfl
@[simp] theorem State.modSvc_scene (s : State) (i : Nat) (f : SvcIfc → SvcIfc) : (s.modSvc i f).scene = s.scene := rfl
@[simp] theorem State.modSvc_fgs (s : State) (i : Nat) (f : SvcIfc → SvcIfc) : (s.modSvc i f).fgs = s.fgs := rfl
@[simp] theorem State.modSvc_mm (s : State) (i : Nat) (f : SvcIfc → SvcIfc) : (s.modSvc i f).mm = s.mm := rfl
@[simp] theorem State.modSvc_cores (s : State) (i : Nat) (f : SvcIfc → SvcIfc) : (s.modSvc i f).cores = s.cores := rfl
@[simp] theorem State.modSvc_units (s : State) (i : Nat) (f : SvcIfc → SvcIfc) : (s.modSvc i f).units = s.units := rfl
@[simp] theorem State.modSvc_journal (s : State) (i : Nat) (f : SvcIfc → SvcIfc) : (s.modSvc i f).journal = s.journal := rfl
@[simp] theorem State.modSvc_safety (s : State) (i : Nat) (f : SvcIfc → SvcIfc) : (s.modSvc i f).safety = s.safety := rfl
@[simp] theorem State.modSvc_adapt (s : State) (i : Nat) (f : SvcIfc → SvcIfc) : (s.modSvc i f).adapt = s.adapt := rfl
@[simp] theorem State.modSvc_maint (s : State) (i : Nat) (f : SvcIfc → SvcIfc) : (s.modSvc i f).maint = s.maint := rfl
@[simp] theorem State.modSvc_cam (s : State) (i : Nat) (f : SvcIfc → SvcIfc) : (s.modSvc i f).cam = s.cam := rfl
@[simp] theorem State.modSvc_isp (s : State) (i : Nat) (f : SvcIfc → SvcIfc) : (s.modSvc i f).isp = s.isp := rfl
@[simp] theorem State.modSvc_gml (s : State) (i : Nat) (f : SvcIfc → SvcIfc) : (s.modSvc i f).gml = s.gml := rfl
@[simp] theorem State.modSvc_cvus (s : State) (i : Nat) (f : SvcIfc → SvcIfc) : (s.modSvc i f).cvus = s.cvus := rfl
@[simp] theorem State.modSvc_carry (s : State) (i : Nat) (f : SvcIfc → SvcIfc) : (s.modSvc i f).carry = s.carry := rfl
@[simp] theorem State.modSvc_nts (s : State) (i : Nat) (f : SvcIfc → SvcIfc) : (s.modSvc i f).nts = s.nts := rfl
@[simp] theorem State.modSvc_patterns (s : State) (i : Nat) (f : SvcIfc → SvcIfc) : (s.modSvc i f).patterns = s.patterns := rfl
@[simp] theorem State.modSvc_icu (s : State) (i : Nat) (f : SvcIfc → SvcIfc) : (s.modSvc i f).icu = s.icu := rfl
@[simp] theorem State.modSvc_pending (s : State) (i : Nat) (f : SvcIfc → SvcIfc) : (s.modSvc i f).pending = s.pending := rfl
@[simp] theorem State.modSvc_reg (s : State) (i : Nat) (f : SvcIfc → SvcIfc) (a' : Nat) : (s.modSvc i f).reg a' = s.reg a' := rfl
@[simp] theorem State.modSvc_byte (s : State) (i : Nat) (f : SvcIfc → SvcIfc) (a' : Nat) : (s.modSvc i f).byte a' = s.byte a' := rfl

@[simp] theorem State.modSwitch_regs (s : State) (f : Switch → Switch) : (s.modSwitch f).regs = s.regs := rfl
@[simp] theorem State.modSwitch_shadow (s : State) (f : Switch → Switch) : (s.modSwitch f).shadow = s.shadow := rfl
@[simp] theorem State.modSwitch_mem (s : State) (f : Switch → Switch) : (s.modSwitch f).mem = s.mem := rfl
@[simp] theorem State.modSwitch_flags (s : State) (f : Switch → Switch) : (s.modSwitch f).flags = s.flags := rfl
@[simp] theorem State.modSwitch_now (s : State) (f : Switch → Switch) : (s.modSwitch f).now = s.now := rfl
@[simp] theorem State.modSwitch_free (s : State) (f : Switch → Switch) : (s.modSwitch f).free = s.free := rfl
@[simp] theorem State.modSwitch_otp (s : State) (f : Switch → Switch) : (s.modSwitch f).otp = s.otp := rfl
@[simp] theorem State.modSwitch_flash (s : State) (f : Switch → Switch) : (s.modSwitch f).flash = s.flash := rfl
@[simp] theorem State.modSwitch_tl (s : State) (f : Switch → Switch) : (s.modSwitch f).tl = s.tl := rfl
@[simp] theorem State.modSwitch_pins (s : State) (f : Switch → Switch) : (s.modSwitch f).pins = s.pins := rfl
@[simp] theorem State.modSwitch_kin (s : State) (f : Switch → Switch) : (s.modSwitch f).kin = s.kin := rfl
@[simp] theorem State.modSwitch_fgs (s : State) (f : Switch → Switch) : (s.modSwitch f).fgs = s.fgs := rfl
@[simp] theorem State.modSwitch_mm (s : State) (f : Switch → Switch) : (s.modSwitch f).mm = s.mm := rfl
@[simp] theorem State.modSwitch_cores (s : State) (f : Switch → Switch) : (s.modSwitch f).cores = s.cores := rfl
@[simp] theorem State.modSwitch_units (s : State) (f : Switch → Switch) : (s.modSwitch f).units = s.units := rfl
@[simp] theorem State.modSwitch_journal (s : State) (f : Switch → Switch) : (s.modSwitch f).journal = s.journal := rfl
@[simp] theorem State.modSwitch_safety (s : State) (f : Switch → Switch) : (s.modSwitch f).safety = s.safety := rfl
@[simp] theorem State.modSwitch_adapt (s : State) (f : Switch → Switch) : (s.modSwitch f).adapt = s.adapt := rfl
@[simp] theorem State.modSwitch_maint (s : State) (f : Switch → Switch) : (s.modSwitch f).maint = s.maint := rfl
@[simp] theorem State.modSwitch_cam (s : State) (f : Switch → Switch) : (s.modSwitch f).cam = s.cam := rfl
@[simp] theorem State.modSwitch_isp (s : State) (f : Switch → Switch) : (s.modSwitch f).isp = s.isp := rfl
@[simp] theorem State.modSwitch_io (s : State) (f : Switch → Switch) : (s.modSwitch f).io = s.io := rfl
@[simp] theorem State.modSwitch_gml (s : State) (f : Switch → Switch) : (s.modSwitch f).gml = s.gml := rfl
@[simp] theorem State.modSwitch_cvus (s : State) (f : Switch → Switch) : (s.modSwitch f).cvus = s.cvus := rfl
@[simp] theorem State.modSwitch_carry (s : State) (f : Switch → Switch) : (s.modSwitch f).carry = s.carry := rfl
@[simp] theorem State.modSwitch_nts (s : State) (f : Switch → Switch) : (s.modSwitch f).nts = s.nts := rfl
@[simp] theorem State.modSwitch_patterns (s : State) (f : Switch → Switch) : (s.modSwitch f).patterns = s.patterns := rfl
@[simp] theorem State.modSwitch_icu (s : State) (f : Switch → Switch) : (s.modSwitch f).icu = s.icu := rfl
@[simp] theorem State.modSwitch_pending (s : State) (f : Switch → Switch) : (s.modSwitch f).pending = s.pending := rfl
@[simp] theorem State.modSwitch_reg (s : State) (f : Switch → Switch) (a' : Nat) : (s.modSwitch f).reg a' = s.reg a' := rfl
@[simp] theorem State.modSwitch_byte (s : State) (f : Switch → Switch) (a' : Nat) : (s.modSwitch f).byte a' = s.byte a' := rfl

@[simp] theorem State.modTl_regs (s : State) (f : TimeSt → TimeSt) : (s.modTl f).regs = s.regs := rfl
@[simp] theorem State.modTl_shadow (s : State) (f : TimeSt → TimeSt) : (s.modTl f).shadow = s.shadow := rfl
@[simp] theorem State.modTl_mem (s : State) (f : TimeSt → TimeSt) : (s.modTl f).mem = s.mem := rfl
@[simp] theorem State.modTl_flags (s : State) (f : TimeSt → TimeSt) : (s.modTl f).flags = s.flags := rfl
@[simp] theorem State.modTl_now (s : State) (f : TimeSt → TimeSt) : (s.modTl f).now = s.now := rfl
@[simp] theorem State.modTl_free (s : State) (f : TimeSt → TimeSt) : (s.modTl f).free = s.free := rfl
@[simp] theorem State.modTl_otp (s : State) (f : TimeSt → TimeSt) : (s.modTl f).otp = s.otp := rfl
@[simp] theorem State.modTl_flash (s : State) (f : TimeSt → TimeSt) : (s.modTl f).flash = s.flash := rfl
@[simp] theorem State.modTl_pins (s : State) (f : TimeSt → TimeSt) : (s.modTl f).pins = s.pins := rfl
@[simp] theorem State.modTl_kin (s : State) (f : TimeSt → TimeSt) : (s.modTl f).kin = s.kin := rfl
@[simp] theorem State.modTl_scene (s : State) (f : TimeSt → TimeSt) : (s.modTl f).scene = s.scene := rfl
@[simp] theorem State.modTl_fgs (s : State) (f : TimeSt → TimeSt) : (s.modTl f).fgs = s.fgs := rfl
@[simp] theorem State.modTl_mm (s : State) (f : TimeSt → TimeSt) : (s.modTl f).mm = s.mm := rfl
@[simp] theorem State.modTl_cores (s : State) (f : TimeSt → TimeSt) : (s.modTl f).cores = s.cores := rfl
@[simp] theorem State.modTl_units (s : State) (f : TimeSt → TimeSt) : (s.modTl f).units = s.units := rfl
@[simp] theorem State.modTl_journal (s : State) (f : TimeSt → TimeSt) : (s.modTl f).journal = s.journal := rfl
@[simp] theorem State.modTl_safety (s : State) (f : TimeSt → TimeSt) : (s.modTl f).safety = s.safety := rfl
@[simp] theorem State.modTl_adapt (s : State) (f : TimeSt → TimeSt) : (s.modTl f).adapt = s.adapt := rfl
@[simp] theorem State.modTl_maint (s : State) (f : TimeSt → TimeSt) : (s.modTl f).maint = s.maint := rfl
@[simp] theorem State.modTl_cam (s : State) (f : TimeSt → TimeSt) : (s.modTl f).cam = s.cam := rfl
@[simp] theorem State.modTl_isp (s : State) (f : TimeSt → TimeSt) : (s.modTl f).isp = s.isp := rfl
@[simp] theorem State.modTl_io (s : State) (f : TimeSt → TimeSt) : (s.modTl f).io = s.io := rfl
@[simp] theorem State.modTl_gml (s : State) (f : TimeSt → TimeSt) : (s.modTl f).gml = s.gml := rfl
@[simp] theorem State.modTl_cvus (s : State) (f : TimeSt → TimeSt) : (s.modTl f).cvus = s.cvus := rfl
@[simp] theorem State.modTl_carry (s : State) (f : TimeSt → TimeSt) : (s.modTl f).carry = s.carry := rfl
@[simp] theorem State.modTl_nts (s : State) (f : TimeSt → TimeSt) : (s.modTl f).nts = s.nts := rfl
@[simp] theorem State.modTl_patterns (s : State) (f : TimeSt → TimeSt) : (s.modTl f).patterns = s.patterns := rfl
@[simp] theorem State.modTl_icu (s : State) (f : TimeSt → TimeSt) : (s.modTl f).icu = s.icu := rfl
@[simp] theorem State.modTl_pending (s : State) (f : TimeSt → TimeSt) : (s.modTl f).pending = s.pending := rfl
@[simp] theorem State.modTl_reg (s : State) (f : TimeSt → TimeSt) (a' : Nat) : (s.modTl f).reg a' = s.reg a' := rfl
@[simp] theorem State.modTl_byte (s : State) (f : TimeSt → TimeSt) (a' : Nat) : (s.modTl f).byte a' = s.byte a' := rfl

@[simp] theorem State.reach_regs (s : State) (t : Nat) : (s.reach t).regs = s.regs := rfl
@[simp] theorem State.reach_shadow (s : State) (t : Nat) : (s.reach t).shadow = s.shadow := rfl
@[simp] theorem State.reach_mem (s : State) (t : Nat) : (s.reach t).mem = s.mem := rfl
@[simp] theorem State.reach_flags (s : State) (t : Nat) : (s.reach t).flags = s.flags := rfl
@[simp] theorem State.reach_free (s : State) (t : Nat) : (s.reach t).free = s.free := rfl
@[simp] theorem State.reach_otp (s : State) (t : Nat) : (s.reach t).otp = s.otp := rfl
@[simp] theorem State.reach_flash (s : State) (t : Nat) : (s.reach t).flash = s.flash := rfl
@[simp] theorem State.reach_tl (s : State) (t : Nat) : (s.reach t).tl = s.tl := rfl
@[simp] theorem State.reach_pins (s : State) (t : Nat) : (s.reach t).pins = s.pins := rfl
@[simp] theorem State.reach_kin (s : State) (t : Nat) : (s.reach t).kin = s.kin := rfl
@[simp] theorem State.reach_scene (s : State) (t : Nat) : (s.reach t).scene = s.scene := rfl
@[simp] theorem State.reach_fgs (s : State) (t : Nat) : (s.reach t).fgs = s.fgs := rfl
@[simp] theorem State.reach_mm (s : State) (t : Nat) : (s.reach t).mm = s.mm := rfl
@[simp] theorem State.reach_cores (s : State) (t : Nat) : (s.reach t).cores = s.cores := rfl
@[simp] theorem State.reach_units (s : State) (t : Nat) : (s.reach t).units = s.units := rfl
@[simp] theorem State.reach_journal (s : State) (t : Nat) : (s.reach t).journal = s.journal := rfl
@[simp] theorem State.reach_safety (s : State) (t : Nat) : (s.reach t).safety = s.safety := rfl
@[simp] theorem State.reach_adapt (s : State) (t : Nat) : (s.reach t).adapt = s.adapt := rfl
@[simp] theorem State.reach_maint (s : State) (t : Nat) : (s.reach t).maint = s.maint := rfl
@[simp] theorem State.reach_cam (s : State) (t : Nat) : (s.reach t).cam = s.cam := rfl
@[simp] theorem State.reach_isp (s : State) (t : Nat) : (s.reach t).isp = s.isp := rfl
@[simp] theorem State.reach_io (s : State) (t : Nat) : (s.reach t).io = s.io := rfl
@[simp] theorem State.reach_gml (s : State) (t : Nat) : (s.reach t).gml = s.gml := rfl
@[simp] theorem State.reach_cvus (s : State) (t : Nat) : (s.reach t).cvus = s.cvus := rfl
@[simp] theorem State.reach_carry (s : State) (t : Nat) : (s.reach t).carry = s.carry := rfl
@[simp] theorem State.reach_nts (s : State) (t : Nat) : (s.reach t).nts = s.nts := rfl
@[simp] theorem State.reach_patterns (s : State) (t : Nat) : (s.reach t).patterns = s.patterns := rfl
@[simp] theorem State.reach_icu (s : State) (t : Nat) : (s.reach t).icu = s.icu := rfl
@[simp] theorem State.reach_pending (s : State) (t : Nat) : (s.reach t).pending = s.pending := rfl
@[simp] theorem State.reach_reg (s : State) (t : Nat) (a' : Nat) : (s.reach t).reg a' = s.reg a' := rfl
@[simp] theorem State.reach_byte (s : State) (t : Nat) (a' : Nat) : (s.reach t).byte a' = s.byte a' := rfl

@[simp] theorem State.setFlagWord_regs (s : State) (i : Nat) (w : DWord) : (s.setFlagWord i w).regs = s.regs := rfl
@[simp] theorem State.setFlagWord_shadow (s : State) (i : Nat) (w : DWord) : (s.setFlagWord i w).shadow = s.shadow := rfl
@[simp] theorem State.setFlagWord_mem (s : State) (i : Nat) (w : DWord) : (s.setFlagWord i w).mem = s.mem := rfl
@[simp] theorem State.setFlagWord_now (s : State) (i : Nat) (w : DWord) : (s.setFlagWord i w).now = s.now := rfl
@[simp] theorem State.setFlagWord_free (s : State) (i : Nat) (w : DWord) : (s.setFlagWord i w).free = s.free := rfl
@[simp] theorem State.setFlagWord_otp (s : State) (i : Nat) (w : DWord) : (s.setFlagWord i w).otp = s.otp := rfl
@[simp] theorem State.setFlagWord_flash (s : State) (i : Nat) (w : DWord) : (s.setFlagWord i w).flash = s.flash := rfl
@[simp] theorem State.setFlagWord_tl (s : State) (i : Nat) (w : DWord) : (s.setFlagWord i w).tl = s.tl := rfl
@[simp] theorem State.setFlagWord_pins (s : State) (i : Nat) (w : DWord) : (s.setFlagWord i w).pins = s.pins := rfl
@[simp] theorem State.setFlagWord_kin (s : State) (i : Nat) (w : DWord) : (s.setFlagWord i w).kin = s.kin := rfl
@[simp] theorem State.setFlagWord_scene (s : State) (i : Nat) (w : DWord) : (s.setFlagWord i w).scene = s.scene := rfl
@[simp] theorem State.setFlagWord_fgs (s : State) (i : Nat) (w : DWord) : (s.setFlagWord i w).fgs = s.fgs := rfl
@[simp] theorem State.setFlagWord_mm (s : State) (i : Nat) (w : DWord) : (s.setFlagWord i w).mm = s.mm := rfl
@[simp] theorem State.setFlagWord_cores (s : State) (i : Nat) (w : DWord) : (s.setFlagWord i w).cores = s.cores := rfl
@[simp] theorem State.setFlagWord_units (s : State) (i : Nat) (w : DWord) : (s.setFlagWord i w).units = s.units := rfl
@[simp] theorem State.setFlagWord_journal (s : State) (i : Nat) (w : DWord) : (s.setFlagWord i w).journal = s.journal := rfl
@[simp] theorem State.setFlagWord_safety (s : State) (i : Nat) (w : DWord) : (s.setFlagWord i w).safety = s.safety := rfl
@[simp] theorem State.setFlagWord_adapt (s : State) (i : Nat) (w : DWord) : (s.setFlagWord i w).adapt = s.adapt := rfl
@[simp] theorem State.setFlagWord_maint (s : State) (i : Nat) (w : DWord) : (s.setFlagWord i w).maint = s.maint := rfl
@[simp] theorem State.setFlagWord_cam (s : State) (i : Nat) (w : DWord) : (s.setFlagWord i w).cam = s.cam := rfl
@[simp] theorem State.setFlagWord_isp (s : State) (i : Nat) (w : DWord) : (s.setFlagWord i w).isp = s.isp := rfl
@[simp] theorem State.setFlagWord_io (s : State) (i : Nat) (w : DWord) : (s.setFlagWord i w).io = s.io := rfl
@[simp] theorem State.setFlagWord_gml (s : State) (i : Nat) (w : DWord) : (s.setFlagWord i w).gml = s.gml := rfl
@[simp] theorem State.setFlagWord_cvus (s : State) (i : Nat) (w : DWord) : (s.setFlagWord i w).cvus = s.cvus := rfl
@[simp] theorem State.setFlagWord_carry (s : State) (i : Nat) (w : DWord) : (s.setFlagWord i w).carry = s.carry := rfl
@[simp] theorem State.setFlagWord_nts (s : State) (i : Nat) (w : DWord) : (s.setFlagWord i w).nts = s.nts := rfl
@[simp] theorem State.setFlagWord_patterns (s : State) (i : Nat) (w : DWord) : (s.setFlagWord i w).patterns = s.patterns := rfl
@[simp] theorem State.setFlagWord_icu (s : State) (i : Nat) (w : DWord) : (s.setFlagWord i w).icu = s.icu := rfl
@[simp] theorem State.setFlagWord_pending (s : State) (i : Nat) (w : DWord) : (s.setFlagWord i w).pending = s.pending := rfl
@[simp] theorem State.setFlagWord_reg (s : State) (i : Nat) (w : DWord) (a' : Nat) : (s.setFlagWord i w).reg a' = s.reg a' := rfl
@[simp] theorem State.setFlagWord_byte (s : State) (i : Nat) (w : DWord) (a' : Nat) : (s.setFlagWord i w).byte a' = s.byte a' := rfl

@[simp] theorem State.setReg_shadow (s : State) (a : Nat) (v : Word) : (s.setReg a v).shadow = s.shadow := rfl
@[simp] theorem State.setReg_mem (s : State) (a : Nat) (v : Word) : (s.setReg a v).mem = s.mem := rfl
@[simp] theorem State.setReg_flags (s : State) (a : Nat) (v : Word) : (s.setReg a v).flags = s.flags := rfl
@[simp] theorem State.setReg_now (s : State) (a : Nat) (v : Word) : (s.setReg a v).now = s.now := rfl
@[simp] theorem State.setReg_free (s : State) (a : Nat) (v : Word) : (s.setReg a v).free = s.free := rfl
@[simp] theorem State.setReg_otp (s : State) (a : Nat) (v : Word) : (s.setReg a v).otp = s.otp := rfl
@[simp] theorem State.setReg_flash (s : State) (a : Nat) (v : Word) : (s.setReg a v).flash = s.flash := rfl
@[simp] theorem State.setReg_tl (s : State) (a : Nat) (v : Word) : (s.setReg a v).tl = s.tl := rfl
@[simp] theorem State.setReg_pins (s : State) (a : Nat) (v : Word) : (s.setReg a v).pins = s.pins := rfl
@[simp] theorem State.setReg_kin (s : State) (a : Nat) (v : Word) : (s.setReg a v).kin = s.kin := rfl
@[simp] theorem State.setReg_scene (s : State) (a : Nat) (v : Word) : (s.setReg a v).scene = s.scene := rfl
@[simp] theorem State.setReg_fgs (s : State) (a : Nat) (v : Word) : (s.setReg a v).fgs = s.fgs := rfl
@[simp] theorem State.setReg_mm (s : State) (a : Nat) (v : Word) : (s.setReg a v).mm = s.mm := rfl
@[simp] theorem State.setReg_cores (s : State) (a : Nat) (v : Word) : (s.setReg a v).cores = s.cores := rfl
@[simp] theorem State.setReg_units (s : State) (a : Nat) (v : Word) : (s.setReg a v).units = s.units := rfl
@[simp] theorem State.setReg_journal (s : State) (a : Nat) (v : Word) : (s.setReg a v).journal = s.journal := rfl
@[simp] theorem State.setReg_safety (s : State) (a : Nat) (v : Word) : (s.setReg a v).safety = s.safety := rfl
@[simp] theorem State.setReg_adapt (s : State) (a : Nat) (v : Word) : (s.setReg a v).adapt = s.adapt := rfl
@[simp] theorem State.setReg_maint (s : State) (a : Nat) (v : Word) : (s.setReg a v).maint = s.maint := rfl
@[simp] theorem State.setReg_cam (s : State) (a : Nat) (v : Word) : (s.setReg a v).cam = s.cam := rfl
@[simp] theorem State.setReg_isp (s : State) (a : Nat) (v : Word) : (s.setReg a v).isp = s.isp := rfl
@[simp] theorem State.setReg_io (s : State) (a : Nat) (v : Word) : (s.setReg a v).io = s.io := rfl
@[simp] theorem State.setReg_gml (s : State) (a : Nat) (v : Word) : (s.setReg a v).gml = s.gml := rfl
@[simp] theorem State.setReg_cvus (s : State) (a : Nat) (v : Word) : (s.setReg a v).cvus = s.cvus := rfl
@[simp] theorem State.setReg_carry (s : State) (a : Nat) (v : Word) : (s.setReg a v).carry = s.carry := rfl
@[simp] theorem State.setReg_nts (s : State) (a : Nat) (v : Word) : (s.setReg a v).nts = s.nts := rfl
@[simp] theorem State.setReg_patterns (s : State) (a : Nat) (v : Word) : (s.setReg a v).patterns = s.patterns := rfl
@[simp] theorem State.setReg_icu (s : State) (a : Nat) (v : Word) : (s.setReg a v).icu = s.icu := rfl
@[simp] theorem State.setReg_pending (s : State) (a : Nat) (v : Word) : (s.setReg a v).pending = s.pending := rfl
@[simp] theorem State.setReg_byte (s : State) (a : Nat) (v : Word) (a' : Nat) : (s.setReg a v).byte a' = s.byte a' := rfl

@[simp] theorem State.setRing_regs (s : State) (r : RingSt) : (s.setRing r).regs = s.regs := rfl
@[simp] theorem State.setRing_shadow (s : State) (r : RingSt) : (s.setRing r).shadow = s.shadow := rfl
@[simp] theorem State.setRing_mem (s : State) (r : RingSt) : (s.setRing r).mem = s.mem := rfl
@[simp] theorem State.setRing_flags (s : State) (r : RingSt) : (s.setRing r).flags = s.flags := rfl
@[simp] theorem State.setRing_now (s : State) (r : RingSt) : (s.setRing r).now = s.now := rfl
@[simp] theorem State.setRing_free (s : State) (r : RingSt) : (s.setRing r).free = s.free := rfl
@[simp] theorem State.setRing_otp (s : State) (r : RingSt) : (s.setRing r).otp = s.otp := rfl
@[simp] theorem State.setRing_flash (s : State) (r : RingSt) : (s.setRing r).flash = s.flash := rfl
@[simp] theorem State.setRing_tl (s : State) (r : RingSt) : (s.setRing r).tl = s.tl := rfl
@[simp] theorem State.setRing_pins (s : State) (r : RingSt) : (s.setRing r).pins = s.pins := rfl
@[simp] theorem State.setRing_kin (s : State) (r : RingSt) : (s.setRing r).kin = s.kin := rfl
@[simp] theorem State.setRing_scene (s : State) (r : RingSt) : (s.setRing r).scene = s.scene := rfl
@[simp] theorem State.setRing_mm (s : State) (r : RingSt) : (s.setRing r).mm = s.mm := rfl
@[simp] theorem State.setRing_cores (s : State) (r : RingSt) : (s.setRing r).cores = s.cores := rfl
@[simp] theorem State.setRing_units (s : State) (r : RingSt) : (s.setRing r).units = s.units := rfl
@[simp] theorem State.setRing_journal (s : State) (r : RingSt) : (s.setRing r).journal = s.journal := rfl
@[simp] theorem State.setRing_safety (s : State) (r : RingSt) : (s.setRing r).safety = s.safety := rfl
@[simp] theorem State.setRing_adapt (s : State) (r : RingSt) : (s.setRing r).adapt = s.adapt := rfl
@[simp] theorem State.setRing_maint (s : State) (r : RingSt) : (s.setRing r).maint = s.maint := rfl
@[simp] theorem State.setRing_cam (s : State) (r : RingSt) : (s.setRing r).cam = s.cam := rfl
@[simp] theorem State.setRing_isp (s : State) (r : RingSt) : (s.setRing r).isp = s.isp := rfl
@[simp] theorem State.setRing_io (s : State) (r : RingSt) : (s.setRing r).io = s.io := rfl
@[simp] theorem State.setRing_gml (s : State) (r : RingSt) : (s.setRing r).gml = s.gml := rfl
@[simp] theorem State.setRing_cvus (s : State) (r : RingSt) : (s.setRing r).cvus = s.cvus := rfl
@[simp] theorem State.setRing_carry (s : State) (r : RingSt) : (s.setRing r).carry = s.carry := rfl
@[simp] theorem State.setRing_nts (s : State) (r : RingSt) : (s.setRing r).nts = s.nts := rfl
@[simp] theorem State.setRing_patterns (s : State) (r : RingSt) : (s.setRing r).patterns = s.patterns := rfl
@[simp] theorem State.setRing_icu (s : State) (r : RingSt) : (s.setRing r).icu = s.icu := rfl
@[simp] theorem State.setRing_pending (s : State) (r : RingSt) : (s.setRing r).pending = s.pending := rfl
@[simp] theorem State.setRing_reg (s : State) (r : RingSt) (a' : Nat) : (s.setRing r).reg a' = s.reg a' := rfl
@[simp] theorem State.setRing_byte (s : State) (r : RingSt) (a' : Nat) : (s.setRing r).byte a' = s.byte a' := rfl

@[simp] theorem State.setShadow_regs (s : State) (a : Nat) (v : Word) : (s.setShadow a v).regs = s.regs := rfl
@[simp] theorem State.setShadow_mem (s : State) (a : Nat) (v : Word) : (s.setShadow a v).mem = s.mem := rfl
@[simp] theorem State.setShadow_flags (s : State) (a : Nat) (v : Word) : (s.setShadow a v).flags = s.flags := rfl
@[simp] theorem State.setShadow_now (s : State) (a : Nat) (v : Word) : (s.setShadow a v).now = s.now := rfl
@[simp] theorem State.setShadow_free (s : State) (a : Nat) (v : Word) : (s.setShadow a v).free = s.free := rfl
@[simp] theorem State.setShadow_otp (s : State) (a : Nat) (v : Word) : (s.setShadow a v).otp = s.otp := rfl
@[simp] theorem State.setShadow_flash (s : State) (a : Nat) (v : Word) : (s.setShadow a v).flash = s.flash := rfl
@[simp] theorem State.setShadow_tl (s : State) (a : Nat) (v : Word) : (s.setShadow a v).tl = s.tl := rfl
@[simp] theorem State.setShadow_pins (s : State) (a : Nat) (v : Word) : (s.setShadow a v).pins = s.pins := rfl
@[simp] theorem State.setShadow_kin (s : State) (a : Nat) (v : Word) : (s.setShadow a v).kin = s.kin := rfl
@[simp] theorem State.setShadow_scene (s : State) (a : Nat) (v : Word) : (s.setShadow a v).scene = s.scene := rfl
@[simp] theorem State.setShadow_fgs (s : State) (a : Nat) (v : Word) : (s.setShadow a v).fgs = s.fgs := rfl
@[simp] theorem State.setShadow_mm (s : State) (a : Nat) (v : Word) : (s.setShadow a v).mm = s.mm := rfl
@[simp] theorem State.setShadow_cores (s : State) (a : Nat) (v : Word) : (s.setShadow a v).cores = s.cores := rfl
@[simp] theorem State.setShadow_units (s : State) (a : Nat) (v : Word) : (s.setShadow a v).units = s.units := rfl
@[simp] theorem State.setShadow_journal (s : State) (a : Nat) (v : Word) : (s.setShadow a v).journal = s.journal := rfl
@[simp] theorem State.setShadow_safety (s : State) (a : Nat) (v : Word) : (s.setShadow a v).safety = s.safety := rfl
@[simp] theorem State.setShadow_adapt (s : State) (a : Nat) (v : Word) : (s.setShadow a v).adapt = s.adapt := rfl
@[simp] theorem State.setShadow_maint (s : State) (a : Nat) (v : Word) : (s.setShadow a v).maint = s.maint := rfl
@[simp] theorem State.setShadow_cam (s : State) (a : Nat) (v : Word) : (s.setShadow a v).cam = s.cam := rfl
@[simp] theorem State.setShadow_isp (s : State) (a : Nat) (v : Word) : (s.setShadow a v).isp = s.isp := rfl
@[simp] theorem State.setShadow_io (s : State) (a : Nat) (v : Word) : (s.setShadow a v).io = s.io := rfl
@[simp] theorem State.setShadow_gml (s : State) (a : Nat) (v : Word) : (s.setShadow a v).gml = s.gml := rfl
@[simp] theorem State.setShadow_cvus (s : State) (a : Nat) (v : Word) : (s.setShadow a v).cvus = s.cvus := rfl
@[simp] theorem State.setShadow_carry (s : State) (a : Nat) (v : Word) : (s.setShadow a v).carry = s.carry := rfl
@[simp] theorem State.setShadow_nts (s : State) (a : Nat) (v : Word) : (s.setShadow a v).nts = s.nts := rfl
@[simp] theorem State.setShadow_patterns (s : State) (a : Nat) (v : Word) : (s.setShadow a v).patterns = s.patterns := rfl
@[simp] theorem State.setShadow_icu (s : State) (a : Nat) (v : Word) : (s.setShadow a v).icu = s.icu := rfl
@[simp] theorem State.setShadow_pending (s : State) (a : Nat) (v : Word) : (s.setShadow a v).pending = s.pending := rfl
@[simp] theorem State.setShadow_reg (s : State) (a : Nat) (v : Word) (a' : Nat) : (s.setShadow a v).reg a' = s.reg a' := rfl
@[simp] theorem State.setShadow_byte (s : State) (a : Nat) (v : Word) (a' : Nat) : (s.setShadow a v).byte a' = s.byte a' := rfl

@[simp] theorem State.setUnit_regs (s : State) (u : UnitSt) : (s.setUnit u).regs = s.regs := rfl
@[simp] theorem State.setUnit_shadow (s : State) (u : UnitSt) : (s.setUnit u).shadow = s.shadow := rfl
@[simp] theorem State.setUnit_mem (s : State) (u : UnitSt) : (s.setUnit u).mem = s.mem := rfl
@[simp] theorem State.setUnit_flags (s : State) (u : UnitSt) : (s.setUnit u).flags = s.flags := rfl
@[simp] theorem State.setUnit_now (s : State) (u : UnitSt) : (s.setUnit u).now = s.now := rfl
@[simp] theorem State.setUnit_free (s : State) (u : UnitSt) : (s.setUnit u).free = s.free := rfl
@[simp] theorem State.setUnit_otp (s : State) (u : UnitSt) : (s.setUnit u).otp = s.otp := rfl
@[simp] theorem State.setUnit_flash (s : State) (u : UnitSt) : (s.setUnit u).flash = s.flash := rfl
@[simp] theorem State.setUnit_tl (s : State) (u : UnitSt) : (s.setUnit u).tl = s.tl := rfl
@[simp] theorem State.setUnit_pins (s : State) (u : UnitSt) : (s.setUnit u).pins = s.pins := rfl
@[simp] theorem State.setUnit_kin (s : State) (u : UnitSt) : (s.setUnit u).kin = s.kin := rfl
@[simp] theorem State.setUnit_scene (s : State) (u : UnitSt) : (s.setUnit u).scene = s.scene := rfl
@[simp] theorem State.setUnit_fgs (s : State) (u : UnitSt) : (s.setUnit u).fgs = s.fgs := rfl
@[simp] theorem State.setUnit_mm (s : State) (u : UnitSt) : (s.setUnit u).mm = s.mm := rfl
@[simp] theorem State.setUnit_cores (s : State) (u : UnitSt) : (s.setUnit u).cores = s.cores := rfl
@[simp] theorem State.setUnit_journal (s : State) (u : UnitSt) : (s.setUnit u).journal = s.journal := rfl
@[simp] theorem State.setUnit_safety (s : State) (u : UnitSt) : (s.setUnit u).safety = s.safety := rfl
@[simp] theorem State.setUnit_adapt (s : State) (u : UnitSt) : (s.setUnit u).adapt = s.adapt := rfl
@[simp] theorem State.setUnit_maint (s : State) (u : UnitSt) : (s.setUnit u).maint = s.maint := rfl
@[simp] theorem State.setUnit_cam (s : State) (u : UnitSt) : (s.setUnit u).cam = s.cam := rfl
@[simp] theorem State.setUnit_isp (s : State) (u : UnitSt) : (s.setUnit u).isp = s.isp := rfl
@[simp] theorem State.setUnit_io (s : State) (u : UnitSt) : (s.setUnit u).io = s.io := rfl
@[simp] theorem State.setUnit_gml (s : State) (u : UnitSt) : (s.setUnit u).gml = s.gml := rfl
@[simp] theorem State.setUnit_cvus (s : State) (u : UnitSt) : (s.setUnit u).cvus = s.cvus := rfl
@[simp] theorem State.setUnit_carry (s : State) (u : UnitSt) : (s.setUnit u).carry = s.carry := rfl
@[simp] theorem State.setUnit_nts (s : State) (u : UnitSt) : (s.setUnit u).nts = s.nts := rfl
@[simp] theorem State.setUnit_patterns (s : State) (u : UnitSt) : (s.setUnit u).patterns = s.patterns := rfl
@[simp] theorem State.setUnit_icu (s : State) (u : UnitSt) : (s.setUnit u).icu = s.icu := rfl
@[simp] theorem State.setUnit_pending (s : State) (u : UnitSt) : (s.setUnit u).pending = s.pending := rfl
@[simp] theorem State.setUnit_reg (s : State) (u : UnitSt) (a' : Nat) : (s.setUnit u).reg a' = s.reg a' := rfl
@[simp] theorem State.setUnit_byte (s : State) (u : UnitSt) (a' : Nat) : (s.setUnit u).byte a' = s.byte a' := rfl

@[simp] theorem State.store_regs (s : State) (a : Nat) (bs : List Byte) : (s.store a bs).regs = s.regs := rfl
@[simp] theorem State.store_shadow (s : State) (a : Nat) (bs : List Byte) : (s.store a bs).shadow = s.shadow := rfl
@[simp] theorem State.store_flags (s : State) (a : Nat) (bs : List Byte) : (s.store a bs).flags = s.flags := rfl
@[simp] theorem State.store_now (s : State) (a : Nat) (bs : List Byte) : (s.store a bs).now = s.now := rfl
@[simp] theorem State.store_free (s : State) (a : Nat) (bs : List Byte) : (s.store a bs).free = s.free := rfl
@[simp] theorem State.store_otp (s : State) (a : Nat) (bs : List Byte) : (s.store a bs).otp = s.otp := rfl
@[simp] theorem State.store_flash (s : State) (a : Nat) (bs : List Byte) : (s.store a bs).flash = s.flash := rfl
@[simp] theorem State.store_tl (s : State) (a : Nat) (bs : List Byte) : (s.store a bs).tl = s.tl := rfl
@[simp] theorem State.store_pins (s : State) (a : Nat) (bs : List Byte) : (s.store a bs).pins = s.pins := rfl
@[simp] theorem State.store_kin (s : State) (a : Nat) (bs : List Byte) : (s.store a bs).kin = s.kin := rfl
@[simp] theorem State.store_scene (s : State) (a : Nat) (bs : List Byte) : (s.store a bs).scene = s.scene := rfl
@[simp] theorem State.store_fgs (s : State) (a : Nat) (bs : List Byte) : (s.store a bs).fgs = s.fgs := rfl
@[simp] theorem State.store_mm (s : State) (a : Nat) (bs : List Byte) : (s.store a bs).mm = s.mm := rfl
@[simp] theorem State.store_cores (s : State) (a : Nat) (bs : List Byte) : (s.store a bs).cores = s.cores := rfl
@[simp] theorem State.store_units (s : State) (a : Nat) (bs : List Byte) : (s.store a bs).units = s.units := rfl
@[simp] theorem State.store_journal (s : State) (a : Nat) (bs : List Byte) : (s.store a bs).journal = s.journal := rfl
@[simp] theorem State.store_safety (s : State) (a : Nat) (bs : List Byte) : (s.store a bs).safety = s.safety := rfl
@[simp] theorem State.store_adapt (s : State) (a : Nat) (bs : List Byte) : (s.store a bs).adapt = s.adapt := rfl
@[simp] theorem State.store_maint (s : State) (a : Nat) (bs : List Byte) : (s.store a bs).maint = s.maint := rfl
@[simp] theorem State.store_cam (s : State) (a : Nat) (bs : List Byte) : (s.store a bs).cam = s.cam := rfl
@[simp] theorem State.store_isp (s : State) (a : Nat) (bs : List Byte) : (s.store a bs).isp = s.isp := rfl
@[simp] theorem State.store_io (s : State) (a : Nat) (bs : List Byte) : (s.store a bs).io = s.io := rfl
@[simp] theorem State.store_gml (s : State) (a : Nat) (bs : List Byte) : (s.store a bs).gml = s.gml := rfl
@[simp] theorem State.store_cvus (s : State) (a : Nat) (bs : List Byte) : (s.store a bs).cvus = s.cvus := rfl
@[simp] theorem State.store_carry (s : State) (a : Nat) (bs : List Byte) : (s.store a bs).carry = s.carry := rfl
@[simp] theorem State.store_nts (s : State) (a : Nat) (bs : List Byte) : (s.store a bs).nts = s.nts := rfl
@[simp] theorem State.store_patterns (s : State) (a : Nat) (bs : List Byte) : (s.store a bs).patterns = s.patterns := rfl
@[simp] theorem State.store_icu (s : State) (a : Nat) (bs : List Byte) : (s.store a bs).icu = s.icu := rfl
@[simp] theorem State.store_pending (s : State) (a : Nat) (bs : List Byte) : (s.store a bs).pending = s.pending := rfl
@[simp] theorem State.store_reg (s : State) (a : Nat) (bs : List Byte) (a' : Nat) : (s.store a bs).reg a' = s.reg a' := rfl

@[simp] theorem State.setFld_shadow (s : State) (a : Nat) (b : Bits) (v : Nat) : (s.setFld a b v).shadow = s.shadow := rfl
@[simp] theorem State.setFld_mem (s : State) (a : Nat) (b : Bits) (v : Nat) : (s.setFld a b v).mem = s.mem := rfl
@[simp] theorem State.setFld_flags (s : State) (a : Nat) (b : Bits) (v : Nat) : (s.setFld a b v).flags = s.flags := rfl
@[simp] theorem State.setFld_now (s : State) (a : Nat) (b : Bits) (v : Nat) : (s.setFld a b v).now = s.now := rfl
@[simp] theorem State.setFld_free (s : State) (a : Nat) (b : Bits) (v : Nat) : (s.setFld a b v).free = s.free := rfl
@[simp] theorem State.setFld_otp (s : State) (a : Nat) (b : Bits) (v : Nat) : (s.setFld a b v).otp = s.otp := rfl
@[simp] theorem State.setFld_flash (s : State) (a : Nat) (b : Bits) (v : Nat) : (s.setFld a b v).flash = s.flash := rfl
@[simp] theorem State.setFld_tl (s : State) (a : Nat) (b : Bits) (v : Nat) : (s.setFld a b v).tl = s.tl := rfl
@[simp] theorem State.setFld_pins (s : State) (a : Nat) (b : Bits) (v : Nat) : (s.setFld a b v).pins = s.pins := rfl
@[simp] theorem State.setFld_kin (s : State) (a : Nat) (b : Bits) (v : Nat) : (s.setFld a b v).kin = s.kin := rfl
@[simp] theorem State.setFld_scene (s : State) (a : Nat) (b : Bits) (v : Nat) : (s.setFld a b v).scene = s.scene := rfl
@[simp] theorem State.setFld_fgs (s : State) (a : Nat) (b : Bits) (v : Nat) : (s.setFld a b v).fgs = s.fgs := rfl
@[simp] theorem State.setFld_mm (s : State) (a : Nat) (b : Bits) (v : Nat) : (s.setFld a b v).mm = s.mm := rfl
@[simp] theorem State.setFld_cores (s : State) (a : Nat) (b : Bits) (v : Nat) : (s.setFld a b v).cores = s.cores := rfl
@[simp] theorem State.setFld_units (s : State) (a : Nat) (b : Bits) (v : Nat) : (s.setFld a b v).units = s.units := rfl
@[simp] theorem State.setFld_journal (s : State) (a : Nat) (b : Bits) (v : Nat) : (s.setFld a b v).journal = s.journal := rfl
@[simp] theorem State.setFld_safety (s : State) (a : Nat) (b : Bits) (v : Nat) : (s.setFld a b v).safety = s.safety := rfl
@[simp] theorem State.setFld_adapt (s : State) (a : Nat) (b : Bits) (v : Nat) : (s.setFld a b v).adapt = s.adapt := rfl
@[simp] theorem State.setFld_maint (s : State) (a : Nat) (b : Bits) (v : Nat) : (s.setFld a b v).maint = s.maint := rfl
@[simp] theorem State.setFld_cam (s : State) (a : Nat) (b : Bits) (v : Nat) : (s.setFld a b v).cam = s.cam := rfl
@[simp] theorem State.setFld_isp (s : State) (a : Nat) (b : Bits) (v : Nat) : (s.setFld a b v).isp = s.isp := rfl
@[simp] theorem State.setFld_io (s : State) (a : Nat) (b : Bits) (v : Nat) : (s.setFld a b v).io = s.io := rfl
@[simp] theorem State.setFld_gml (s : State) (a : Nat) (b : Bits) (v : Nat) : (s.setFld a b v).gml = s.gml := rfl
@[simp] theorem State.setFld_cvus (s : State) (a : Nat) (b : Bits) (v : Nat) : (s.setFld a b v).cvus = s.cvus := rfl
@[simp] theorem State.setFld_carry (s : State) (a : Nat) (b : Bits) (v : Nat) : (s.setFld a b v).carry = s.carry := rfl
@[simp] theorem State.setFld_nts (s : State) (a : Nat) (b : Bits) (v : Nat) : (s.setFld a b v).nts = s.nts := rfl
@[simp] theorem State.setFld_patterns (s : State) (a : Nat) (b : Bits) (v : Nat) : (s.setFld a b v).patterns = s.patterns := rfl
@[simp] theorem State.setFld_icu (s : State) (a : Nat) (b : Bits) (v : Nat) : (s.setFld a b v).icu = s.icu := rfl
@[simp] theorem State.setFld_pending (s : State) (a : Nat) (b : Bits) (v : Nat) : (s.setFld a b v).pending = s.pending := rfl
@[simp] theorem State.setFld_byte (s : State) (a : Nat) (b : Bits) (v : Nat) (a' : Nat) : (s.setFld a b v).byte a' = s.byte a' := rfl

@[simp] theorem State.setFlag_shadow (s : State) (a : Nat) (b : Bits) (v : Bool) : (s.setFlag a b v).shadow = s.shadow := rfl
@[simp] theorem State.setFlag_mem (s : State) (a : Nat) (b : Bits) (v : Bool) : (s.setFlag a b v).mem = s.mem := rfl
@[simp] theorem State.setFlag_flags (s : State) (a : Nat) (b : Bits) (v : Bool) : (s.setFlag a b v).flags = s.flags := rfl
@[simp] theorem State.setFlag_now (s : State) (a : Nat) (b : Bits) (v : Bool) : (s.setFlag a b v).now = s.now := rfl
@[simp] theorem State.setFlag_free (s : State) (a : Nat) (b : Bits) (v : Bool) : (s.setFlag a b v).free = s.free := rfl
@[simp] theorem State.setFlag_otp (s : State) (a : Nat) (b : Bits) (v : Bool) : (s.setFlag a b v).otp = s.otp := rfl
@[simp] theorem State.setFlag_flash (s : State) (a : Nat) (b : Bits) (v : Bool) : (s.setFlag a b v).flash = s.flash := rfl
@[simp] theorem State.setFlag_tl (s : State) (a : Nat) (b : Bits) (v : Bool) : (s.setFlag a b v).tl = s.tl := rfl
@[simp] theorem State.setFlag_pins (s : State) (a : Nat) (b : Bits) (v : Bool) : (s.setFlag a b v).pins = s.pins := rfl
@[simp] theorem State.setFlag_kin (s : State) (a : Nat) (b : Bits) (v : Bool) : (s.setFlag a b v).kin = s.kin := rfl
@[simp] theorem State.setFlag_scene (s : State) (a : Nat) (b : Bits) (v : Bool) : (s.setFlag a b v).scene = s.scene := rfl
@[simp] theorem State.setFlag_fgs (s : State) (a : Nat) (b : Bits) (v : Bool) : (s.setFlag a b v).fgs = s.fgs := rfl
@[simp] theorem State.setFlag_mm (s : State) (a : Nat) (b : Bits) (v : Bool) : (s.setFlag a b v).mm = s.mm := rfl
@[simp] theorem State.setFlag_cores (s : State) (a : Nat) (b : Bits) (v : Bool) : (s.setFlag a b v).cores = s.cores := rfl
@[simp] theorem State.setFlag_units (s : State) (a : Nat) (b : Bits) (v : Bool) : (s.setFlag a b v).units = s.units := rfl
@[simp] theorem State.setFlag_journal (s : State) (a : Nat) (b : Bits) (v : Bool) : (s.setFlag a b v).journal = s.journal := rfl
@[simp] theorem State.setFlag_safety (s : State) (a : Nat) (b : Bits) (v : Bool) : (s.setFlag a b v).safety = s.safety := rfl
@[simp] theorem State.setFlag_adapt (s : State) (a : Nat) (b : Bits) (v : Bool) : (s.setFlag a b v).adapt = s.adapt := rfl
@[simp] theorem State.setFlag_maint (s : State) (a : Nat) (b : Bits) (v : Bool) : (s.setFlag a b v).maint = s.maint := rfl
@[simp] theorem State.setFlag_cam (s : State) (a : Nat) (b : Bits) (v : Bool) : (s.setFlag a b v).cam = s.cam := rfl
@[simp] theorem State.setFlag_isp (s : State) (a : Nat) (b : Bits) (v : Bool) : (s.setFlag a b v).isp = s.isp := rfl
@[simp] theorem State.setFlag_io (s : State) (a : Nat) (b : Bits) (v : Bool) : (s.setFlag a b v).io = s.io := rfl
@[simp] theorem State.setFlag_gml (s : State) (a : Nat) (b : Bits) (v : Bool) : (s.setFlag a b v).gml = s.gml := rfl
@[simp] theorem State.setFlag_cvus (s : State) (a : Nat) (b : Bits) (v : Bool) : (s.setFlag a b v).cvus = s.cvus := rfl
@[simp] theorem State.setFlag_carry (s : State) (a : Nat) (b : Bits) (v : Bool) : (s.setFlag a b v).carry = s.carry := rfl
@[simp] theorem State.setFlag_nts (s : State) (a : Nat) (b : Bits) (v : Bool) : (s.setFlag a b v).nts = s.nts := rfl
@[simp] theorem State.setFlag_patterns (s : State) (a : Nat) (b : Bits) (v : Bool) : (s.setFlag a b v).patterns = s.patterns := rfl
@[simp] theorem State.setFlag_icu (s : State) (a : Nat) (b : Bits) (v : Bool) : (s.setFlag a b v).icu = s.icu := rfl
@[simp] theorem State.setFlag_pending (s : State) (a : Nat) (b : Bits) (v : Bool) : (s.setFlag a b v).pending = s.pending := rfl
@[simp] theorem State.setFlag_byte (s : State) (a : Nat) (b : Bits) (v : Bool) (a' : Nat) : (s.setFlag a b v).byte a' = s.byte a' := rfl

@[simp] theorem State.event_shadow (s : State) (a : Nat) (b : Bits) : (s.event a b).shadow = s.shadow := rfl
@[simp] theorem State.event_mem (s : State) (a : Nat) (b : Bits) : (s.event a b).mem = s.mem := rfl
@[simp] theorem State.event_flags (s : State) (a : Nat) (b : Bits) : (s.event a b).flags = s.flags := rfl
@[simp] theorem State.event_now (s : State) (a : Nat) (b : Bits) : (s.event a b).now = s.now := rfl
@[simp] theorem State.event_free (s : State) (a : Nat) (b : Bits) : (s.event a b).free = s.free := rfl
@[simp] theorem State.event_otp (s : State) (a : Nat) (b : Bits) : (s.event a b).otp = s.otp := rfl
@[simp] theorem State.event_flash (s : State) (a : Nat) (b : Bits) : (s.event a b).flash = s.flash := rfl
@[simp] theorem State.event_tl (s : State) (a : Nat) (b : Bits) : (s.event a b).tl = s.tl := rfl
@[simp] theorem State.event_pins (s : State) (a : Nat) (b : Bits) : (s.event a b).pins = s.pins := rfl
@[simp] theorem State.event_kin (s : State) (a : Nat) (b : Bits) : (s.event a b).kin = s.kin := rfl
@[simp] theorem State.event_scene (s : State) (a : Nat) (b : Bits) : (s.event a b).scene = s.scene := rfl
@[simp] theorem State.event_fgs (s : State) (a : Nat) (b : Bits) : (s.event a b).fgs = s.fgs := rfl
@[simp] theorem State.event_mm (s : State) (a : Nat) (b : Bits) : (s.event a b).mm = s.mm := rfl
@[simp] theorem State.event_cores (s : State) (a : Nat) (b : Bits) : (s.event a b).cores = s.cores := rfl
@[simp] theorem State.event_units (s : State) (a : Nat) (b : Bits) : (s.event a b).units = s.units := rfl
@[simp] theorem State.event_journal (s : State) (a : Nat) (b : Bits) : (s.event a b).journal = s.journal := rfl
@[simp] theorem State.event_safety (s : State) (a : Nat) (b : Bits) : (s.event a b).safety = s.safety := rfl
@[simp] theorem State.event_adapt (s : State) (a : Nat) (b : Bits) : (s.event a b).adapt = s.adapt := rfl
@[simp] theorem State.event_maint (s : State) (a : Nat) (b : Bits) : (s.event a b).maint = s.maint := rfl
@[simp] theorem State.event_cam (s : State) (a : Nat) (b : Bits) : (s.event a b).cam = s.cam := rfl
@[simp] theorem State.event_isp (s : State) (a : Nat) (b : Bits) : (s.event a b).isp = s.isp := rfl
@[simp] theorem State.event_io (s : State) (a : Nat) (b : Bits) : (s.event a b).io = s.io := rfl
@[simp] theorem State.event_gml (s : State) (a : Nat) (b : Bits) : (s.event a b).gml = s.gml := rfl
@[simp] theorem State.event_cvus (s : State) (a : Nat) (b : Bits) : (s.event a b).cvus = s.cvus := rfl
@[simp] theorem State.event_carry (s : State) (a : Nat) (b : Bits) : (s.event a b).carry = s.carry := rfl
@[simp] theorem State.event_nts (s : State) (a : Nat) (b : Bits) : (s.event a b).nts = s.nts := rfl
@[simp] theorem State.event_patterns (s : State) (a : Nat) (b : Bits) : (s.event a b).patterns = s.patterns := rfl
@[simp] theorem State.event_icu (s : State) (a : Nat) (b : Bits) : (s.event a b).icu = s.icu := rfl
@[simp] theorem State.event_pending (s : State) (a : Nat) (b : Bits) : (s.event a b).pending = s.pending := rfl
@[simp] theorem State.event_byte (s : State) (a : Nat) (b : Bits) (a' : Nat) : (s.event a b).byte a' = s.byte a' := rfl

@[simp] theorem State.addFld_shadow (s : State) (a : Nat) (b : Bits) (n : Nat) : (s.addFld a b n).shadow = s.shadow := rfl
@[simp] theorem State.addFld_mem (s : State) (a : Nat) (b : Bits) (n : Nat) : (s.addFld a b n).mem = s.mem := rfl
@[simp] theorem State.addFld_flags (s : State) (a : Nat) (b : Bits) (n : Nat) : (s.addFld a b n).flags = s.flags := rfl
@[simp] theorem State.addFld_now (s : State) (a : Nat) (b : Bits) (n : Nat) : (s.addFld a b n).now = s.now := rfl
@[simp] theorem State.addFld_free (s : State) (a : Nat) (b : Bits) (n : Nat) : (s.addFld a b n).free = s.free := rfl
@[simp] theorem State.addFld_otp (s : State) (a : Nat) (b : Bits) (n : Nat) : (s.addFld a b n).otp = s.otp := rfl
@[simp] theorem State.addFld_flash (s : State) (a : Nat) (b : Bits) (n : Nat) : (s.addFld a b n).flash = s.flash := rfl
@[simp] theorem State.addFld_tl (s : State) (a : Nat) (b : Bits) (n : Nat) : (s.addFld a b n).tl = s.tl := rfl
@[simp] theorem State.addFld_pins (s : State) (a : Nat) (b : Bits) (n : Nat) : (s.addFld a b n).pins = s.pins := rfl
@[simp] theorem State.addFld_kin (s : State) (a : Nat) (b : Bits) (n : Nat) : (s.addFld a b n).kin = s.kin := rfl
@[simp] theorem State.addFld_scene (s : State) (a : Nat) (b : Bits) (n : Nat) : (s.addFld a b n).scene = s.scene := rfl
@[simp] theorem State.addFld_fgs (s : State) (a : Nat) (b : Bits) (n : Nat) : (s.addFld a b n).fgs = s.fgs := rfl
@[simp] theorem State.addFld_mm (s : State) (a : Nat) (b : Bits) (n : Nat) : (s.addFld a b n).mm = s.mm := rfl
@[simp] theorem State.addFld_cores (s : State) (a : Nat) (b : Bits) (n : Nat) : (s.addFld a b n).cores = s.cores := rfl
@[simp] theorem State.addFld_units (s : State) (a : Nat) (b : Bits) (n : Nat) : (s.addFld a b n).units = s.units := rfl
@[simp] theorem State.addFld_journal (s : State) (a : Nat) (b : Bits) (n : Nat) : (s.addFld a b n).journal = s.journal := rfl
@[simp] theorem State.addFld_safety (s : State) (a : Nat) (b : Bits) (n : Nat) : (s.addFld a b n).safety = s.safety := rfl
@[simp] theorem State.addFld_adapt (s : State) (a : Nat) (b : Bits) (n : Nat) : (s.addFld a b n).adapt = s.adapt := rfl
@[simp] theorem State.addFld_maint (s : State) (a : Nat) (b : Bits) (n : Nat) : (s.addFld a b n).maint = s.maint := rfl
@[simp] theorem State.addFld_cam (s : State) (a : Nat) (b : Bits) (n : Nat) : (s.addFld a b n).cam = s.cam := rfl
@[simp] theorem State.addFld_isp (s : State) (a : Nat) (b : Bits) (n : Nat) : (s.addFld a b n).isp = s.isp := rfl
@[simp] theorem State.addFld_io (s : State) (a : Nat) (b : Bits) (n : Nat) : (s.addFld a b n).io = s.io := rfl
@[simp] theorem State.addFld_gml (s : State) (a : Nat) (b : Bits) (n : Nat) : (s.addFld a b n).gml = s.gml := rfl
@[simp] theorem State.addFld_cvus (s : State) (a : Nat) (b : Bits) (n : Nat) : (s.addFld a b n).cvus = s.cvus := rfl
@[simp] theorem State.addFld_carry (s : State) (a : Nat) (b : Bits) (n : Nat) : (s.addFld a b n).carry = s.carry := rfl
@[simp] theorem State.addFld_nts (s : State) (a : Nat) (b : Bits) (n : Nat) : (s.addFld a b n).nts = s.nts := rfl
@[simp] theorem State.addFld_patterns (s : State) (a : Nat) (b : Bits) (n : Nat) : (s.addFld a b n).patterns = s.patterns := rfl
@[simp] theorem State.addFld_icu (s : State) (a : Nat) (b : Bits) (n : Nat) : (s.addFld a b n).icu = s.icu := rfl
@[simp] theorem State.addFld_pending (s : State) (a : Nat) (b : Bits) (n : Nat) : (s.addFld a b n).pending = s.pending := rfl
@[simp] theorem State.addFld_byte (s : State) (a : Nat) (b : Bits) (n : Nat) (a' : Nat) : (s.addFld a b n).byte a' = s.byte a' := rfl

@[simp] theorem State.addCnt_shadow (s : State) (a : Nat) (n : Nat) : (s.addCnt a n).shadow = s.shadow := rfl
@[simp] theorem State.addCnt_mem (s : State) (a : Nat) (n : Nat) : (s.addCnt a n).mem = s.mem := rfl
@[simp] theorem State.addCnt_flags (s : State) (a : Nat) (n : Nat) : (s.addCnt a n).flags = s.flags := rfl
@[simp] theorem State.addCnt_now (s : State) (a : Nat) (n : Nat) : (s.addCnt a n).now = s.now := rfl
@[simp] theorem State.addCnt_free (s : State) (a : Nat) (n : Nat) : (s.addCnt a n).free = s.free := rfl
@[simp] theorem State.addCnt_otp (s : State) (a : Nat) (n : Nat) : (s.addCnt a n).otp = s.otp := rfl
@[simp] theorem State.addCnt_flash (s : State) (a : Nat) (n : Nat) : (s.addCnt a n).flash = s.flash := rfl
@[simp] theorem State.addCnt_tl (s : State) (a : Nat) (n : Nat) : (s.addCnt a n).tl = s.tl := rfl
@[simp] theorem State.addCnt_pins (s : State) (a : Nat) (n : Nat) : (s.addCnt a n).pins = s.pins := rfl
@[simp] theorem State.addCnt_kin (s : State) (a : Nat) (n : Nat) : (s.addCnt a n).kin = s.kin := rfl
@[simp] theorem State.addCnt_scene (s : State) (a : Nat) (n : Nat) : (s.addCnt a n).scene = s.scene := rfl
@[simp] theorem State.addCnt_fgs (s : State) (a : Nat) (n : Nat) : (s.addCnt a n).fgs = s.fgs := rfl
@[simp] theorem State.addCnt_mm (s : State) (a : Nat) (n : Nat) : (s.addCnt a n).mm = s.mm := rfl
@[simp] theorem State.addCnt_cores (s : State) (a : Nat) (n : Nat) : (s.addCnt a n).cores = s.cores := rfl
@[simp] theorem State.addCnt_units (s : State) (a : Nat) (n : Nat) : (s.addCnt a n).units = s.units := rfl
@[simp] theorem State.addCnt_journal (s : State) (a : Nat) (n : Nat) : (s.addCnt a n).journal = s.journal := rfl
@[simp] theorem State.addCnt_safety (s : State) (a : Nat) (n : Nat) : (s.addCnt a n).safety = s.safety := rfl
@[simp] theorem State.addCnt_adapt (s : State) (a : Nat) (n : Nat) : (s.addCnt a n).adapt = s.adapt := rfl
@[simp] theorem State.addCnt_maint (s : State) (a : Nat) (n : Nat) : (s.addCnt a n).maint = s.maint := rfl
@[simp] theorem State.addCnt_cam (s : State) (a : Nat) (n : Nat) : (s.addCnt a n).cam = s.cam := rfl
@[simp] theorem State.addCnt_isp (s : State) (a : Nat) (n : Nat) : (s.addCnt a n).isp = s.isp := rfl
@[simp] theorem State.addCnt_io (s : State) (a : Nat) (n : Nat) : (s.addCnt a n).io = s.io := rfl
@[simp] theorem State.addCnt_gml (s : State) (a : Nat) (n : Nat) : (s.addCnt a n).gml = s.gml := rfl
@[simp] theorem State.addCnt_cvus (s : State) (a : Nat) (n : Nat) : (s.addCnt a n).cvus = s.cvus := rfl
@[simp] theorem State.addCnt_carry (s : State) (a : Nat) (n : Nat) : (s.addCnt a n).carry = s.carry := rfl
@[simp] theorem State.addCnt_nts (s : State) (a : Nat) (n : Nat) : (s.addCnt a n).nts = s.nts := rfl
@[simp] theorem State.addCnt_patterns (s : State) (a : Nat) (n : Nat) : (s.addCnt a n).patterns = s.patterns := rfl
@[simp] theorem State.addCnt_icu (s : State) (a : Nat) (n : Nat) : (s.addCnt a n).icu = s.icu := rfl
@[simp] theorem State.addCnt_pending (s : State) (a : Nat) (n : Nat) : (s.addCnt a n).pending = s.pending := rfl
@[simp] theorem State.addCnt_byte (s : State) (a : Nat) (n : Nat) (a' : Nat) : (s.addCnt a n).byte a' = s.byte a' := rfl

@[simp] theorem State.modUnit_regs (s : State) (code : Nat) (f : UnitSt → UnitSt) : (s.modUnit code f).regs = s.regs := rfl
@[simp] theorem State.modUnit_shadow (s : State) (code : Nat) (f : UnitSt → UnitSt) : (s.modUnit code f).shadow = s.shadow := rfl
@[simp] theorem State.modUnit_mem (s : State) (code : Nat) (f : UnitSt → UnitSt) : (s.modUnit code f).mem = s.mem := rfl
@[simp] theorem State.modUnit_flags (s : State) (code : Nat) (f : UnitSt → UnitSt) : (s.modUnit code f).flags = s.flags := rfl
@[simp] theorem State.modUnit_now (s : State) (code : Nat) (f : UnitSt → UnitSt) : (s.modUnit code f).now = s.now := rfl
@[simp] theorem State.modUnit_free (s : State) (code : Nat) (f : UnitSt → UnitSt) : (s.modUnit code f).free = s.free := rfl
@[simp] theorem State.modUnit_otp (s : State) (code : Nat) (f : UnitSt → UnitSt) : (s.modUnit code f).otp = s.otp := rfl
@[simp] theorem State.modUnit_flash (s : State) (code : Nat) (f : UnitSt → UnitSt) : (s.modUnit code f).flash = s.flash := rfl
@[simp] theorem State.modUnit_tl (s : State) (code : Nat) (f : UnitSt → UnitSt) : (s.modUnit code f).tl = s.tl := rfl
@[simp] theorem State.modUnit_pins (s : State) (code : Nat) (f : UnitSt → UnitSt) : (s.modUnit code f).pins = s.pins := rfl
@[simp] theorem State.modUnit_kin (s : State) (code : Nat) (f : UnitSt → UnitSt) : (s.modUnit code f).kin = s.kin := rfl
@[simp] theorem State.modUnit_scene (s : State) (code : Nat) (f : UnitSt → UnitSt) : (s.modUnit code f).scene = s.scene := rfl
@[simp] theorem State.modUnit_fgs (s : State) (code : Nat) (f : UnitSt → UnitSt) : (s.modUnit code f).fgs = s.fgs := rfl
@[simp] theorem State.modUnit_mm (s : State) (code : Nat) (f : UnitSt → UnitSt) : (s.modUnit code f).mm = s.mm := rfl
@[simp] theorem State.modUnit_cores (s : State) (code : Nat) (f : UnitSt → UnitSt) : (s.modUnit code f).cores = s.cores := rfl
@[simp] theorem State.modUnit_journal (s : State) (code : Nat) (f : UnitSt → UnitSt) : (s.modUnit code f).journal = s.journal := rfl
@[simp] theorem State.modUnit_safety (s : State) (code : Nat) (f : UnitSt → UnitSt) : (s.modUnit code f).safety = s.safety := rfl
@[simp] theorem State.modUnit_adapt (s : State) (code : Nat) (f : UnitSt → UnitSt) : (s.modUnit code f).adapt = s.adapt := rfl
@[simp] theorem State.modUnit_maint (s : State) (code : Nat) (f : UnitSt → UnitSt) : (s.modUnit code f).maint = s.maint := rfl
@[simp] theorem State.modUnit_cam (s : State) (code : Nat) (f : UnitSt → UnitSt) : (s.modUnit code f).cam = s.cam := rfl
@[simp] theorem State.modUnit_isp (s : State) (code : Nat) (f : UnitSt → UnitSt) : (s.modUnit code f).isp = s.isp := rfl
@[simp] theorem State.modUnit_io (s : State) (code : Nat) (f : UnitSt → UnitSt) : (s.modUnit code f).io = s.io := rfl
@[simp] theorem State.modUnit_gml (s : State) (code : Nat) (f : UnitSt → UnitSt) : (s.modUnit code f).gml = s.gml := rfl
@[simp] theorem State.modUnit_cvus (s : State) (code : Nat) (f : UnitSt → UnitSt) : (s.modUnit code f).cvus = s.cvus := rfl
@[simp] theorem State.modUnit_carry (s : State) (code : Nat) (f : UnitSt → UnitSt) : (s.modUnit code f).carry = s.carry := rfl
@[simp] theorem State.modUnit_nts (s : State) (code : Nat) (f : UnitSt → UnitSt) : (s.modUnit code f).nts = s.nts := rfl
@[simp] theorem State.modUnit_patterns (s : State) (code : Nat) (f : UnitSt → UnitSt) : (s.modUnit code f).patterns = s.patterns := rfl
@[simp] theorem State.modUnit_icu (s : State) (code : Nat) (f : UnitSt → UnitSt) : (s.modUnit code f).icu = s.icu := rfl
@[simp] theorem State.modUnit_pending (s : State) (code : Nat) (f : UnitSt → UnitSt) : (s.modUnit code f).pending = s.pending := rfl
@[simp] theorem State.modUnit_reg (s : State) (code : Nat) (f : UnitSt → UnitSt) (a' : Nat) : (s.modUnit code f).reg a' = s.reg a' := rfl
@[simp] theorem State.modUnit_byte (s : State) (code : Nat) (f : UnitSt → UnitSt) (a' : Nat) : (s.modUnit code f).byte a' = s.byte a' := rfl

@[simp] theorem State.freeEntry_regs (s : State) (e : Nat) : (s.freeEntry e).regs = s.regs := rfl
@[simp] theorem State.freeEntry_shadow (s : State) (e : Nat) : (s.freeEntry e).shadow = s.shadow := rfl
@[simp] theorem State.freeEntry_mem (s : State) (e : Nat) : (s.freeEntry e).mem = s.mem := rfl
@[simp] theorem State.freeEntry_flags (s : State) (e : Nat) : (s.freeEntry e).flags = s.flags := rfl
@[simp] theorem State.freeEntry_now (s : State) (e : Nat) : (s.freeEntry e).now = s.now := rfl
@[simp] theorem State.freeEntry_free (s : State) (e : Nat) : (s.freeEntry e).free = s.free := rfl
@[simp] theorem State.freeEntry_otp (s : State) (e : Nat) : (s.freeEntry e).otp = s.otp := rfl
@[simp] theorem State.freeEntry_flash (s : State) (e : Nat) : (s.freeEntry e).flash = s.flash := rfl
@[simp] theorem State.freeEntry_tl (s : State) (e : Nat) : (s.freeEntry e).tl = s.tl := rfl
@[simp] theorem State.freeEntry_pins (s : State) (e : Nat) : (s.freeEntry e).pins = s.pins := rfl
@[simp] theorem State.freeEntry_kin (s : State) (e : Nat) : (s.freeEntry e).kin = s.kin := rfl
@[simp] theorem State.freeEntry_scene (s : State) (e : Nat) : (s.freeEntry e).scene = s.scene := rfl
@[simp] theorem State.freeEntry_mm (s : State) (e : Nat) : (s.freeEntry e).mm = s.mm := rfl
@[simp] theorem State.freeEntry_cores (s : State) (e : Nat) : (s.freeEntry e).cores = s.cores := rfl
@[simp] theorem State.freeEntry_units (s : State) (e : Nat) : (s.freeEntry e).units = s.units := rfl
@[simp] theorem State.freeEntry_journal (s : State) (e : Nat) : (s.freeEntry e).journal = s.journal := rfl
@[simp] theorem State.freeEntry_safety (s : State) (e : Nat) : (s.freeEntry e).safety = s.safety := rfl
@[simp] theorem State.freeEntry_adapt (s : State) (e : Nat) : (s.freeEntry e).adapt = s.adapt := rfl
@[simp] theorem State.freeEntry_maint (s : State) (e : Nat) : (s.freeEntry e).maint = s.maint := rfl
@[simp] theorem State.freeEntry_cam (s : State) (e : Nat) : (s.freeEntry e).cam = s.cam := rfl
@[simp] theorem State.freeEntry_isp (s : State) (e : Nat) : (s.freeEntry e).isp = s.isp := rfl
@[simp] theorem State.freeEntry_io (s : State) (e : Nat) : (s.freeEntry e).io = s.io := rfl
@[simp] theorem State.freeEntry_gml (s : State) (e : Nat) : (s.freeEntry e).gml = s.gml := rfl
@[simp] theorem State.freeEntry_cvus (s : State) (e : Nat) : (s.freeEntry e).cvus = s.cvus := rfl
@[simp] theorem State.freeEntry_carry (s : State) (e : Nat) : (s.freeEntry e).carry = s.carry := rfl
@[simp] theorem State.freeEntry_nts (s : State) (e : Nat) : (s.freeEntry e).nts = s.nts := rfl
@[simp] theorem State.freeEntry_patterns (s : State) (e : Nat) : (s.freeEntry e).patterns = s.patterns := rfl
@[simp] theorem State.freeEntry_icu (s : State) (e : Nat) : (s.freeEntry e).icu = s.icu := rfl
@[simp] theorem State.freeEntry_pending (s : State) (e : Nat) : (s.freeEntry e).pending = s.pending := rfl
@[simp] theorem State.freeEntry_reg (s : State) (e : Nat) (a' : Nat) : (s.freeEntry e).reg a' = s.reg a' := rfl
@[simp] theorem State.freeEntry_byte (s : State) (e : Nat) (a' : Nat) : (s.freeEntry e).byte a' = s.byte a' := rfl

@[simp] theorem State.setStage_shadow (s : State) (n : Nat) : (s.setStage n).shadow = s.shadow := rfl
@[simp] theorem State.setStage_mem (s : State) (n : Nat) : (s.setStage n).mem = s.mem := rfl
@[simp] theorem State.setStage_flags (s : State) (n : Nat) : (s.setStage n).flags = s.flags := rfl
@[simp] theorem State.setStage_now (s : State) (n : Nat) : (s.setStage n).now = s.now := rfl
@[simp] theorem State.setStage_free (s : State) (n : Nat) : (s.setStage n).free = s.free := rfl
@[simp] theorem State.setStage_otp (s : State) (n : Nat) : (s.setStage n).otp = s.otp := rfl
@[simp] theorem State.setStage_flash (s : State) (n : Nat) : (s.setStage n).flash = s.flash := rfl
@[simp] theorem State.setStage_tl (s : State) (n : Nat) : (s.setStage n).tl = s.tl := rfl
@[simp] theorem State.setStage_pins (s : State) (n : Nat) : (s.setStage n).pins = s.pins := rfl
@[simp] theorem State.setStage_kin (s : State) (n : Nat) : (s.setStage n).kin = s.kin := rfl
@[simp] theorem State.setStage_scene (s : State) (n : Nat) : (s.setStage n).scene = s.scene := rfl
@[simp] theorem State.setStage_fgs (s : State) (n : Nat) : (s.setStage n).fgs = s.fgs := rfl
@[simp] theorem State.setStage_mm (s : State) (n : Nat) : (s.setStage n).mm = s.mm := rfl
@[simp] theorem State.setStage_cores (s : State) (n : Nat) : (s.setStage n).cores = s.cores := rfl
@[simp] theorem State.setStage_units (s : State) (n : Nat) : (s.setStage n).units = s.units := rfl
@[simp] theorem State.setStage_journal (s : State) (n : Nat) : (s.setStage n).journal = s.journal := rfl
@[simp] theorem State.setStage_safety (s : State) (n : Nat) : (s.setStage n).safety = s.safety := rfl
@[simp] theorem State.setStage_adapt (s : State) (n : Nat) : (s.setStage n).adapt = s.adapt := rfl
@[simp] theorem State.setStage_maint (s : State) (n : Nat) : (s.setStage n).maint = s.maint := rfl
@[simp] theorem State.setStage_cam (s : State) (n : Nat) : (s.setStage n).cam = s.cam := rfl
@[simp] theorem State.setStage_isp (s : State) (n : Nat) : (s.setStage n).isp = s.isp := rfl
@[simp] theorem State.setStage_io (s : State) (n : Nat) : (s.setStage n).io = s.io := rfl
@[simp] theorem State.setStage_gml (s : State) (n : Nat) : (s.setStage n).gml = s.gml := rfl
@[simp] theorem State.setStage_cvus (s : State) (n : Nat) : (s.setStage n).cvus = s.cvus := rfl
@[simp] theorem State.setStage_carry (s : State) (n : Nat) : (s.setStage n).carry = s.carry := rfl
@[simp] theorem State.setStage_nts (s : State) (n : Nat) : (s.setStage n).nts = s.nts := rfl
@[simp] theorem State.setStage_patterns (s : State) (n : Nat) : (s.setStage n).patterns = s.patterns := rfl
@[simp] theorem State.setStage_icu (s : State) (n : Nat) : (s.setStage n).icu = s.icu := rfl
@[simp] theorem State.setStage_pending (s : State) (n : Nat) : (s.setStage n).pending = s.pending := rfl
@[simp] theorem State.setStage_byte (s : State) (n : Nat) (a' : Nat) : (s.setStage n).byte a' = s.byte a' := rfl

end Sys2Proof.Machine
end

