-- ==== Sys2Proof/Laws/Keeps.lean ====
section
/-! SUPPORT. What every operation of the model preserves: the canonical forms, the fuses and the queue of commands. The
relation `Keeps`, its rules of composition, and the operations that touch what it speaks of. -/

namespace Sys2Proof.Machine

open Sys2Proof

/-- t can follow r: canonical stores stay canonical, free values are only drawn, the queue is as it was, and the fuses are
kept. -/
structure Keeps (r t : State) : Prop where
  mem : Memory.wf r.mem = true → Memory.wf t.mem = true
  regs : regsWf r.regs = true → regsWf t.regs = true
  flags : flagsWf r.flags = true → flagsWf t.flags = true
  shadow : risingFrom 0 r.shadow = true → risingFrom 0 t.shadow = true
  free : r.free ≤ t.free
  queue : t.pending = r.pending
  fuses : r.otp.rollback ≤ 64 → fusesKept r t

theorem Keeps.refl (s : State) : Keeps s s :=
  ⟨id, id, id, id, Nat.le_refl _, rfl, fun h => ⟨rfl, Nat.le_refl _, h⟩⟩

/-- An update of fields that the relation does not speak of. -/
theorem Keeps.upd {r s : State} {now flash tl pins kin scene fgs mm cores units journal safety adapt maint cam isp io gml cvus
    carry nts patterns icu} (h : Keeps r s) :
    Keeps r (State.mk s.regs s.shadow s.mem s.flags now s.free s.otp flash tl pins kin scene fgs mm cores units journal safety
      adapt maint cam isp io gml cvus carry nts patterns icu s.pending) :=
  ⟨h.mem, h.regs, h.flags, h.shadow, h.free, h.queue, h.fuses⟩

theorem Keeps.ite {r a b : State} {c : Prop} [Decidable c] (ha : Keeps r a) (hb : Keeps r b) : Keeps r (if c then a else b) := by
  split <;> assumption

theorem Keeps.foldl {r : State} {α : Type} {l : List α} {F : State → α → State} {s : State}
    (hF : ∀ s x, Keeps r s → Keeps r (F s x)) (h : Keeps r s) : Keeps r (l.foldl F s) := by
  induction l generalizing s with
  | nil => exact h
  | cons x t ih => exact ih (hF s x h)

/-- The state of a pair that an operation answers. -/
theorem Keeps.of_fst {r t : State} {β : Type} {x : β} {p : State × β} (h : Keeps r p.1) (e : p = (t, x)) : Keeps r t := by
  subst e; exact h

theorem Keeps.of_snd {r t : State} {β : Type} {x : β} {p : β × State} (h : Keeps r p.2) (e : p = (x, t)) : Keeps r t := by
  subst e; exact h

theorem Keeps.pair {r t : State} {β : Type} {x : β} (h : Keeps r t) : Keeps r (t, x).1 := h

theorem Keeps.foldlFst {r : State} {α β : Type} {l : List α} {F : State × β → α → State × β} {p : State × β}
    (hF : ∀ p x, Keeps r p.1 → Keeps r (F p x).1) (h : Keeps r p.1) : Keeps r (l.foldl F p).1 := by
  induction l generalizing p with
  | nil => exact h
  | cons x t ih => exact ih (hF p x h)

/-- The answer of a command keeps what `Keeps` says, where it is a next state. -/
structure KeepsRes (r : State) (a : Res) : Prop where
  of : ∀ t, a = .next t → Keeps r t

theorem KeepsRes.next {r t : State} (h : Keeps r t) : KeepsRes r (.next t) := ⟨fun _ e => by cases e; exact h⟩

theorem KeepsRes.refused {r : State} {x : Refusal} : KeepsRes r (.refused x) := ⟨fun _ e => by cases e⟩

theorem KeepsRes.ite {r : State} {a b : Res} {c : Prop} [Decidable c] (ha : KeepsRes r a) (hb : KeepsRes r b) :
    KeepsRes r (if c then a else b) := by
  split <;> assumption

theorem Keeps.orElse {r s : State} {a : Res} (h : Keeps r s) (ha : KeepsRes r a) : Keeps r (a.orElse s) := by
  unfold Res.orElse
  split
  · exact ha.of _ rfl
  · exact h

/-- The answer of the row that an access has of its own, where it has one. -/
structure KeepsOpt (r : State) (o : Option Res) : Prop where
  of : ∀ p, o = some p → KeepsRes r p

theorem KeepsOpt.none {r : State} : KeepsOpt r none := ⟨fun _ e => by cases e⟩

theorem KeepsOpt.some {r : State} {a : Res} (h : KeepsRes r a) : KeepsOpt r (some a) := ⟨fun _ e => by cases e; exact h⟩

theorem KeepsOpt.ite {r : State} {a b : Option Res} {c : Prop} [Decidable c] (ha : KeepsOpt r a) (hb : KeepsOpt r b) :
    KeepsOpt r (if c then a else b) := by
  split <;> assumption

theorem KeepsOpt.map {r : State} {α : Type} {o : Option α} {f : α → Res} (h : ∀ x, KeepsRes r (f x)) : KeepsOpt r (o.map f) := by
  cases o with
  | none => exact KeepsOpt.none
  | some x => exact KeepsOpt.some (h x)

theorem KeepsOpt.bind {r : State} {α : Type} {o : Option α} {f : α → Option Res} (h : ∀ x, KeepsOpt r (f x)) :
    KeepsOpt r (o.bind f) := by
  cases o with
  | none => exact KeepsOpt.none
  | some x => exact h x

theorem KeepsOpt.or {r : State} {a b : Option Res} (ha : KeepsOpt r a) (hb : KeepsOpt r b) : KeepsOpt r (a <|> b) := by
  cases a with
  | none => simpa using hb
  | some x => simpa using ha

/-! ### The updates of what the relation speaks of -/

theorem State.setReg_keeps {r s : State} {a : Nat} {v : Word} (h : Keeps r s) : Keeps r (s.setReg a v) :=
  ⟨h.mem, fun hr => regsWf_set s.regs a v (h.regs hr), h.flags, h.shadow, h.free, h.queue, h.fuses⟩

theorem State.setShadow_keeps {r s : State} {a : Nat} {v : Word} (h : Keeps r s) : Keeps r (s.setShadow a v) :=
  ⟨h.mem, h.regs, h.flags, fun hr => rising_assocPut s.shadow v (Nat.zero_le a) (h.shadow hr), h.free, h.queue, h.fuses⟩

theorem State.setFlagWord_keeps {r s : State} {i : Nat} {w : DWord} (h : Keeps r s) : Keeps r (s.setFlagWord i w) :=
  ⟨h.mem, h.regs, fun hr => flagsWf_set s.flags i w (h.flags hr), h.shadow, h.free, h.queue, h.fuses⟩

theorem State.store_keeps {r s : State} {a : Nat} {bs : List Byte} (h : Keeps r s) : Keeps r (s.store a bs) :=
  ⟨fun hm => Memory.wf_putBytes bs s.mem a (h.mem hm), h.regs, h.flags, h.shadow, h.free, h.queue, h.fuses⟩

theorem State.draw_keeps {r s : State} (h : Keeps r s) : Keeps r s.draw.2 :=
  ⟨h.mem, h.regs, h.flags, h.shadow, Nat.le_succ_of_le h.free, h.queue, h.fuses⟩

/-- Clearing a range of memory, with whatever else changes beside it. -/
theorem Keeps.clear {r s : State} {a n : Nat} {now flash tl pins kin scene fgs mm cores units journal safety adapt maint cam isp io
    gml cvus carry nts patterns icu} (h : Keeps r s) :
    Keeps r (State.mk s.regs s.shadow (Memory.clear s.mem a n) s.flags now s.free s.otp flash tl pins kin scene fgs mm cores units
      journal safety adapt maint cam isp io gml cvus carry nts patterns icu s.pending) :=
  ⟨fun hm => Memory.wf_clear s.mem a n (h.mem hm), h.regs, h.flags, h.shadow, h.free, h.queue, h.fuses⟩

/-- Dropping shadow values, with whatever else changes beside it. -/
theorem Keeps.dropShadows {r s : State} {p : Nat × Word → Bool} {now flash tl pins kin scene fgs mm cores units journal safety
    adapt maint cam isp io gml cvus carry nts patterns icu} (h : Keeps r s) :
    Keeps r (State.mk s.regs (s.shadow.filter p) s.mem s.flags now s.free s.otp flash tl pins kin scene fgs mm cores units
      journal safety adapt maint cam isp io gml cvus carry nts patterns icu s.pending) :=
  ⟨h.mem, h.regs, h.flags, fun hr => rising_filter s.shadow p (h.shadow hr), h.free, h.queue, h.fuses⟩

/-- Dropping registers, with whatever else changes beside it. -/
theorem Keeps.dropRegs {r s : State} {p : Nat × Word → Bool} {now flash tl pins kin scene fgs mm cores units journal safety adapt
    maint cam isp io gml cvus carry nts patterns icu} (h : Keeps r s) :
    Keeps r (State.mk (s.regs.filter p) s.shadow s.mem s.flags now s.free s.otp flash tl pins kin scene fgs mm cores units
      journal safety adapt maint cam isp io gml cvus carry nts patterns icu s.pending) :=
  ⟨h.mem, fun hr => regsWf_filter s.regs p (h.regs hr), h.flags, h.shadow, h.free, h.queue, h.fuses⟩

/-- The core's reset empties memory, flags and shadow values and keeps the registers that R11 names. -/
theorem State.coreOff_keeps {r s : State} (h : Keeps r s) : Keeps r s.coreOff :=
  ⟨fun _ => rfl, fun hr => regsWf_warm s.regs (h.regs hr), fun _ => rfl, fun _ => rfl, h.free, h.queue, h.fuses⟩

/-- The rollback counter moves up to a security version that lies above it (R53). -/
theorem Keeps.burn {r s : State} {svn : Nat} (hs : s.otp.rollback < svn) (h : Keeps r s) :
    Keeps r { s with otp := { s.otp with rollback := min 64 svn } } := by
  refine ⟨h.mem, h.regs, h.flags, h.shadow, h.free, h.queue, fun h64 => ?_⟩
  obtain ⟨h1, h2, h3⟩ := h.fuses h64
  refine ⟨?_, ?_, ?_⟩
  · show ({ s.otp with rollback := min 64 svn } : Otp) = { r.otp with rollback := min 64 svn }
    rw [h1]
  · show r.otp.rollback ≤ min 64 svn
    omega
  · show min 64 svn ≤ 64
    omega

end Sys2Proof.Machine
end

