-- ==== Sys2Proof/Laws/KeepsOps.lean ====
section
/-! SUPPORT. That the shared operations keep what `Keeps` says: one lemma for each, in the order of the model's files. -/

namespace Sys2Proof.Machine

open Sys2Proof

/-! ### Machine/Ops.lean -/

theorem State.setFld_keeps {r0 : State} {s : State} {a : Nat} {b : Bits} {v : Nat} (hk : Keeps r0 s) : Keeps r0
    (State.setFld s a b v) := by
  unfold State.setFld
  try dsimp only
  repeat' first
    | with_reducible assumption
    | intro _
    | with_reducible apply State.setReg_keeps

theorem State.setFlag_keeps {r0 : State} {s : State} {a : Nat} {b : Bits} {v : Bool} (hk : Keeps r0 s) : Keeps r0
    (State.setFlag s a b v) := by
  unfold State.setFlag
  try dsimp only
  repeat' first
    | with_reducible assumption
    | intro _
    | with_reducible apply State.setFld_keeps

theorem State.event_keeps {r0 : State} {s : State} {a : Nat} {b : Bits} (hk : Keeps r0 s) : Keeps r0 (State.event s a b) := by
  unfold State.event
  try dsimp only
  repeat' first
    | with_reducible assumption
    | intro _
    | with_reducible apply State.setFld_keeps

theorem State.addFld_keeps {r0 : State} {s : State} {a : Nat} {b : Bits} {n : Nat} (hk : Keeps r0 s) : Keeps r0
    (State.addFld s a b n) := by
  unfold State.addFld
  try dsimp only
  repeat' first
    | with_reducible assumption
    | intro _
    | with_reducible apply State.setFld_keeps

theorem State.addCnt_keeps {r0 : State} {s : State} {a : Nat} {n : Nat} (hk : Keeps r0 s) : Keeps r0 (State.addCnt s a n) := by
  unfold State.addCnt
  try dsimp only
  repeat' first
    | with_reducible assumption
    | intro _
    | with_reducible apply State.addFld_keeps

theorem State.loseRecord_keeps {r0 : State} {s : State} {source : Nat} (hk : Keeps r0 s) : Keeps r0
    (State.loseRecord s source) := by
  unfold State.loseRecord
  extract_lets a0 a1
  have k0 : Keeps r0 a0
  on_goal 1 => unfold a0
  rotate_left
  clear_value a0
  try clear_value a1
  all_goals repeat' first
    | with_reducible assumption
    | intro _
    | with_reducible apply State.event_keeps
    | with_reducible apply State.addCnt_keeps
    | with_reducible apply Keeps.ite
    | with_reducible apply Keeps.foldl
    | with_reducible apply Keeps.foldlFst
    | fail_if_no_progress with_reducible apply Keeps.upd

theorem State.postRec_keeps {r0 : State} {s : State} {r : JRec} (hk : Keeps r0 s) : Keeps r0 (State.postRec s r) := by
  unfold State.postRec
  extract_lets a0 a1 a2
  try clear_value a0
  have k1 : Keeps r0 a1
  on_goal 1 => unfold a1
  rotate_left
  clear_value a1
  try clear_value a2
  all_goals repeat' first
    | with_reducible assumption
    | intro _
    | with_reducible apply State.loseRecord_keeps
    | with_reducible apply Keeps.ite
    | with_reducible apply Keeps.foldl
    | with_reducible apply Keeps.foldlFst
    | fail_if_no_progress with_reducible apply Keeps.upd

theorem State.log_keeps {r0 : State} {s : State} {source : Nat} {code : Nat} {cls : Nat} {partition : Nat} {stream : Nat}
    {a0 : Nat} {a1 : Nat} {a2 : Nat} (hk : Keeps r0 s) : Keeps r0
    (State.log s source code cls partition stream a0 a1 a2) := by
  unfold State.log
  try dsimp only
  repeat' first
    | with_reducible assumption
    | intro _
    | with_reducible apply State.postRec_keeps

theorem State.setUnit_keeps {r0 : State} {s : State} {u : UnitSt} (hk : Keeps r0 s) : Keeps r0 (State.setUnit s u) := by
  unfold State.setUnit
  try dsimp only
  repeat' first
    | with_reducible assumption
    | intro _
    | with_reducible apply Keeps.ite
    | with_reducible apply Keeps.foldl
    | with_reducible apply Keeps.foldlFst
    | fail_if_no_progress with_reducible apply Keeps.upd

theorem State.modUnit_keeps {r0 : State} {s : State} {code : Nat} {f : UnitSt → UnitSt} (hk : Keeps r0 s) : Keeps r0
    (State.modUnit s code f) := by
  unfold State.modUnit
  try dsimp only
  repeat' first
    | with_reducible assumption
    | intro _
    | with_reducible apply State.setUnit_keeps

theorem State.severe_keeps {r0 : State} {s : State} {cause : Nat} {unit : Nat} (hk : Keeps r0 s) : Keeps r0
    (State.severe s cause unit) := by
  unfold State.severe
  extract_lets a0 a1 a2
  have k0 : Keeps r0 a0
  on_goal 1 => unfold a0
  rotate_left
  clear_value a0
  have k1 : Keeps r0 a1
  on_goal 1 => unfold a1
  rotate_left
  clear_value a1
  try clear_value a2
  all_goals repeat' first
    | with_reducible assumption
    | intro _
    | with_reducible apply State.setReg_keeps
    | with_reducible apply State.log_keeps
    | with_reducible apply Keeps.ite
    | with_reducible apply Keeps.foldl
    | with_reducible apply Keeps.foldlFst
    | fail_if_no_progress with_reducible apply Keeps.upd

theorem State.doubt_keeps {r0 : State} {s : State} {cause : Nat} {unit : Nat} {partition : Nat} {seq : Word} (hk : Keeps r0 s)
    : Keeps r0 (State.doubt s cause unit partition seq) := by
  unfold State.doubt
  extract_lets a0 a1 a2 a3 a4
  have k0 : Keeps r0 a0
  on_goal 1 => unfold a0
  rotate_left
  clear_value a0
  have k1 : Keeps r0 a1
  on_goal 1 => unfold a1
  rotate_left
  clear_value a1
  have k2 : Keeps r0 a2
  on_goal 1 => unfold a2
  rotate_left
  clear_value a2
  try clear_value a3
  have k4 : Keeps r0 a4
  on_goal 1 => unfold a4
  rotate_left
  clear_value a4
  all_goals repeat' first
    | with_reducible assumption
    | intro _
    | with_reducible apply State.setReg_keeps
    | with_reducible apply State.event_keeps
    | with_reducible apply State.addCnt_keeps
    | with_reducible apply State.log_keeps
    | with_reducible apply State.severe_keeps
    | with_reducible apply Keeps.ite
    | with_reducible apply Keeps.foldl
    | with_reducible apply Keeps.foldlFst
    | fail_if_no_progress with_reducible apply Keeps.upd

theorem State.doubtIf_keeps {r0 : State} {s : State} {concerns : Bool} {cause : Nat} {unit : Nat} (hk : Keeps r0 s) : Keeps r0
    (State.doubtIf s concerns cause unit) := by
  unfold State.doubtIf
  try dsimp only
  repeat' first
    | with_reducible assumption
    | intro _
    | with_reducible apply State.doubt_keeps
    | with_reducible apply Keeps.ite

theorem State.reach_keeps {r0 : State} {s : State} {t : Nat} (hk : Keeps r0 s) : Keeps r0 (State.reach s t) := by
  unfold State.reach
  try dsimp only
  repeat' first
    | with_reducible assumption
    | intro _
    | with_reducible apply Keeps.ite
    | with_reducible apply Keeps.foldl
    | with_reducible apply Keeps.foldlFst
    | fail_if_no_progress with_reducible apply Keeps.upd

/-! ### Machine/Flags.lean -/

theorem State.modFlag_keeps {r0 : State} {s : State} {i : Nat} {f : SlotFlag → SlotFlag} (hk : Keeps r0 s) : Keeps r0
    (State.modFlag s i f) := by
  unfold State.modFlag
  try dsimp only
  repeat' first
    | with_reducible assumption
    | intro _
    | with_reducible apply State.setFlagWord_keeps

/-! ### Machine/Graph.lean -/

theorem State.modInst_keeps {r0 : State} {s : State} {e : Nat} {f : Inst → Inst} (hk : Keeps r0 s) : Keeps r0
    (State.modInst s e f) := by
  unfold State.modInst
  try dsimp only
  repeat' first
    | with_reducible assumption
    | intro _
    | with_reducible apply Keeps.ite
    | with_reducible apply Keeps.foldl
    | with_reducible apply Keeps.foldlFst
    | fail_if_no_progress with_reducible apply Keeps.upd

theorem State.setRing_keeps {r0 : State} {s : State} {r : RingSt} (hk : Keeps r0 s) : Keeps r0 (State.setRing s r) := by
  unfold State.setRing
  try dsimp only
  repeat' first
    | with_reducible assumption
    | intro _
    | with_reducible apply Keeps.ite
    | with_reducible apply Keeps.foldl
    | with_reducible apply Keeps.foldlFst
    | fail_if_no_progress with_reducible apply Keeps.upd

theorem State.modNode_keeps {r0 : State} {s : State} {slot : Nat} {f : NodeSt → NodeSt} (hk : Keeps r0 s) : Keeps r0
    (State.modNode s slot f) := by
  unfold State.modNode
  try dsimp only
  repeat' first
    | with_reducible assumption
    | intro _
    | with_reducible apply Keeps.ite
    | with_reducible apply Keeps.foldl
    | with_reducible apply Keeps.foldlFst
    | fail_if_no_progress with_reducible apply Keeps.upd

/-! ### Machine/GmlOps.lean -/

theorem State.modLink_keeps {r0 : State} {s : State} {k : Nat} {f : LinkSt → LinkSt} (hk : Keeps r0 s) : Keeps r0
    (State.modLink s k f) := by
  unfold State.modLink
  try dsimp only
  repeat' first
    | with_reducible assumption
    | intro _
    | with_reducible apply Keeps.ite
    | with_reducible apply Keeps.foldl
    | with_reducible apply Keeps.foldlFst
    | fail_if_no_progress with_reducible apply Keeps.upd

theorem State.countFlit_keeps {r0 : State} {s : State} {k : Nat} {m : Nat} {seq : Nat} (hk : Keeps r0 s) : Keeps r0
    (State.countFlit s k m seq) := by
  unfold State.countFlit
  try dsimp only
  repeat' first
    | with_reducible assumption
    | intro _
    | with_reducible apply State.addCnt_keeps
    | with_reducible apply Keeps.ite

theorem State.sendOn_keeps {r0 : State} {s : State} {k : Nat} {p : GmlPkt} (hk : Keeps r0 s) : Keeps r0
    (State.sendOn s k p) := by
  unfold State.sendOn
  extract_lets a0
  have k0 : Keeps r0 a0
  on_goal 1 => unfold a0
  rotate_left
  clear_value a0
  all_goals repeat' first
    | with_reducible assumption
    | intro _
    | with_reducible apply State.modLink_keeps
    | with_reducible apply State.countFlit_keeps

theorem State.sendTo_keeps {r0 : State} {s : State} {e : Nat} {p : GmlPkt} (hk : Keeps r0 s) : Keeps r0
    (State.sendTo s e p) := by
  unfold State.sendTo
  try dsimp only
  repeat' first
    | with_reducible assumption
    | intro _
    | with_reducible apply State.sendOn_keeps
    | with_reducible apply Keeps.ite
    | with_reducible apply Keeps.foldl
    | with_reducible apply Keeps.foldlFst
    | fail_if_no_progress with_reducible apply Keeps.upd
    | split

theorem State.sendDrain_keeps {r0 : State} {s : State} {e : Nat} {flag : Nat} (hk : Keeps r0 s) : Keeps r0
    (State.sendDrain s e flag) := by
  unfold State.sendDrain
  try dsimp only
  repeat' first
    | with_reducible assumption
    | intro _
    | with_reducible apply State.sendTo_keeps
    | with_reducible apply Keeps.ite

theorem State.reroute_keeps {r0 : State} {s : State} {e : Nat} (hk : Keeps r0 s) : Keeps r0 (State.reroute s e) := by
  unfold State.reroute
  extract_lets a0 a1 a2 a3
  try clear_value a0
  try clear_value a1
  have k2 : Keeps r0 a2
  on_goal 1 => unfold a2
  rotate_left
  clear_value a2
  have k3 : Keeps r0 a3
  on_goal 1 => unfold a3
  rotate_left
  clear_value a3
  all_goals repeat' first
    | with_reducible assumption
    | intro _
    | with_reducible apply State.setFlag_keeps
    | with_reducible apply Keeps.ite
    | with_reducible apply Keeps.foldl
    | with_reducible apply Keeps.foldlFst
    | fail_if_no_progress with_reducible apply Keeps.upd

theorem State.refreshActive_keeps {r0 : State} {s : State} (hk : Keeps r0 s) : Keeps r0 (State.refreshActive s) := by
  unfold State.refreshActive
  extract_lets a0
  have k0 : Keeps r0 a0
  on_goal 1 => unfold a0
  rotate_left
  clear_value a0
  all_goals repeat' first
    | with_reducible assumption
    | intro _
    | with_reducible apply State.setFlag_keeps
    | with_reducible apply State.reroute_keeps
    | with_reducible apply Keeps.ite
    | with_reducible apply Keeps.foldl

theorem State.failLink_keeps {r0 : State} {s : State} {k : Nat} (hk : Keeps r0 s) : Keeps r0 (State.failLink s k) := by
  unfold State.failLink
  extract_lets a0 a1
  try clear_value a0
  have k1 : Keeps r0 a1
  on_goal 1 => unfold a1
  rotate_left
  clear_value a1
  all_goals repeat' first
    | with_reducible assumption
    | intro _
    | with_reducible apply State.modLink_keeps
    | with_reducible apply Keeps.ite
    | with_reducible apply Keeps.foldl
    | with_reducible apply Keeps.foldlFst
    | fail_if_no_progress with_reducible apply Keeps.upd

/-! ### Machine/SeqOps.lean -/

theorem State.modCore_keeps {r0 : State} {s : State} {n : Nat} {f : CoreSt → CoreSt} (hk : Keeps r0 s) : Keeps r0
    (State.modCore s n f) := by
  unfold State.modCore
  try dsimp only
  repeat' first
    | with_reducible assumption
    | intro _
    | with_reducible apply Keeps.ite
    | with_reducible apply Keeps.foldl
    | with_reducible apply Keeps.foldlFst
    | fail_if_no_progress with_reducible apply Keeps.upd

theorem State.showAbort_keeps {r0 : State} {s : State} {n : Nat} (hk : Keeps r0 s) : Keeps r0 (State.showAbort s n) := by
  unfold State.showAbort
  try dsimp only
  repeat' first
    | with_reducible assumption
    | intro _
    | with_reducible apply State.setFld_keeps
    | with_reducible apply State.setFlag_keeps
    | with_reducible apply Keeps.ite
    | with_reducible apply Keeps.foldl
    | with_reducible apply Keeps.foldlFst
    | fail_if_no_progress with_reducible apply Keeps.upd
    | split

theorem State.chargeBusy_keeps {r0 : State} {s : State} {u : UnitSt} (hk : Keeps r0 s) : Keeps r0 (State.chargeBusy s u) := by
  unfold State.chargeBusy
  try dsimp only
  repeat' first
    | with_reducible assumption
    | intro _
    | with_reducible apply Keeps.ite
    | with_reducible apply Keeps.foldl
    | with_reducible apply Keeps.foldlFst
    | fail_if_no_progress with_reducible apply Keeps.upd

theorem State.addKilo_keeps {r0 : State} {s : State} {code : Nat} {reg : Nat} {m : Nat} {n : Nat} (hk : Keeps r0 s) : Keeps r0
    (State.addKilo s code reg m n) := by
  unfold State.addKilo
  try dsimp only
  repeat' first
    | with_reducible assumption
    | intro _
    | with_reducible apply State.addCnt_keeps
    | with_reducible apply State.setUnit_keeps

theorem State.countBusy_keeps {r0 : State} {s : State} {u : UnitSt} (hk : Keeps r0 s) : Keeps r0 (State.countBusy s u) := by
  unfold State.countBusy
  try dsimp only
  repeat' first
    | with_reducible assumption
    | intro _
    | with_reducible apply State.addKilo_keeps
    | with_reducible apply Keeps.ite
    | with_reducible apply Keeps.foldl
    | with_reducible apply Keeps.foldlFst
    | fail_if_no_progress with_reducible apply Keeps.upd
    | split

theorem State.leaveUnit_keeps {r0 : State} {s : State} {code : Nat} {e : Nat} (hk : Keeps r0 s) : Keeps r0
    (State.leaveUnit s code e) := by
  unfold State.leaveUnit
  extract_lets a0 a1 a2
  try clear_value a0
  have k1 : Keeps r0 a1
  on_goal 1 => unfold a1
  rotate_left
  clear_value a1
  try clear_value a2
  all_goals repeat' first
    | with_reducible assumption
    | intro _
    | with_reducible apply State.modCore_keeps
    | with_reducible apply State.chargeBusy_keeps
    | with_reducible apply State.setUnit_keeps
    | with_reducible apply State.countBusy_keeps
    | with_reducible apply Keeps.ite
    | with_reducible apply Keeps.foldl
    | with_reducible apply Keeps.foldlFst
    | fail_if_no_progress with_reducible apply Keeps.upd
    | split

theorem State.assignSlot_keeps {r0 : State} {s : State} {r : RingSt} {k : Nat} {b : Nat} {seq : Word} {rects : Nat} (hk
    : Keeps r0 s) : Keeps r0 (State.assignSlot s r k b seq rects) := by
  unfold State.assignSlot
  extract_lets a0 a1
  try clear_value a0
  have k1 : Keeps r0 a1
  on_goal 1 => unfold a1
  rotate_left
  clear_value a1
  all_goals repeat' first
    | with_reducible assumption
    | intro _
    | with_reducible apply State.setFlagWord_keeps
    | with_reducible apply State.setRing_keeps

theorem State.post_keeps {r0 : State} {s : State} {ts : List Token} (hk : Keeps r0 s) : Keeps r0 (State.post s ts) := by
  unfold State.post
  extract_lets a0 a1 a2
  try clear_value a0
  try clear_value a1
  have k2 : Keeps r0 a2
  on_goal 1 => unfold a2
  rotate_left
  clear_value a2
  all_goals repeat' first
    | with_reducible assumption
    | intro _
    | with_reducible apply State.sendTo_keeps
    | with_reducible apply Keeps.ite
    | with_reducible apply Keeps.foldl
    | with_reducible apply Keeps.foldlFst
    | fail_if_no_progress with_reducible apply Keeps.upd
    | split

theorem State.voidOne_keeps {r0 : State} {s : State} {n : NodeSt} {seq : Word} {tile : Nat} {o : Nat} (hk : Keeps r0 s)
    : Keeps r0 (State.voidOne s n seq tile o).1 := by
  unfold State.voidOne
  split
  · split
    · exact hk
    · dsimp only
      split
      · exact hk
      · rename_i s1 he
        have h1 : Keeps r0 s1 := by
          split at he
          · cases he; exact hk
          · split at he
            · cases he; exact State.assignSlot_keeps hk
            · split at he
              · cases he; exact hk
              · cases he
        split
        · exact State.post_keeps (State.event_keeps (State.modFlag_keeps h1))
        · exact State.modFlag_keeps h1
  · exact hk

theorem State.voidRelease_keeps {r0 : State} {s : State} {i : Inst} (hk : Keeps r0 s) : Keeps r0 (State.voidRelease s i) := by
  unfold State.voidRelease
  try dsimp only
  repeat' first
    | with_reducible assumption
    | intro _
    | with_reducible apply State.voidOne_keeps
    | with_reducible apply State.modInst_keeps
    | with_reducible apply Keeps.ite
    | with_reducible apply Keeps.foldl
    | with_reducible apply Keeps.foldlFst
    | fail_if_no_progress with_reducible apply Keeps.upd
    | split

theorem State.unpinAll_keeps {r0 : State} {s : State} {n : NodeSt} {i : Inst} (hk : Keeps r0 s) : Keeps r0
    (State.unpinAll s n i) := by
  unfold State.unpinAll
  try dsimp only
  repeat' first
    | with_reducible assumption
    | intro _
    | with_reducible apply State.modFlag_keeps
    | with_reducible apply Keeps.ite
    | with_reducible apply Keeps.foldl
    | with_reducible apply Keeps.foldlFst
    | fail_if_no_progress with_reducible apply Keeps.upd
    | split

theorem State.tryDrain_keeps {r0 : State} {s : State} {layer : Nat} {idx : Nat} {sl : Nat} {node : Nat} {j : Nat} (hk
    : Keeps r0 s) : Keeps r0 (State.tryDrain s layer idx sl node j) := by
  unfold State.tryDrain
  try dsimp only
  repeat' first
    | with_reducible assumption
    | intro _
    | with_reducible apply State.setRing_keeps
    | with_reducible apply State.sendDrain_keeps
    | with_reducible apply State.modFlag_keeps
    | with_reducible apply Keeps.ite
    | with_reducible apply Keeps.foldl
    | with_reducible apply Keeps.foldlFst
    | fail_if_no_progress with_reducible apply Keeps.upd
    | split

theorem State.drainInputs_keeps {r0 : State} {s : State} {n : NodeSt} {seq : Word} {t : Nat} (hk : Keeps r0 s) : Keeps r0
    (State.drainInputs s n seq t) := by
  unfold State.drainInputs
  try dsimp only
  repeat' first
    | with_reducible assumption
    | intro _
    | with_reducible apply State.tryDrain_keeps
    | with_reducible apply Keeps.ite
    | with_reducible apply Keeps.foldl

theorem State.modFlow_keeps {r0 : State} {s : State} {layer : Nat} {id : Nat} {f : FlowSt → FlowSt} (hk : Keeps r0 s)
    : Keeps r0 (State.modFlow s layer id f) := by
  unfold State.modFlow
  try dsimp only
  repeat' first
    | with_reducible assumption
    | intro _
    | with_reducible apply Keeps.ite
    | with_reducible apply Keeps.foldl
    | with_reducible apply Keeps.foldlFst
    | fail_if_no_progress with_reducible apply Keeps.upd

theorem State.clearWatch_keeps {r0 : State} {s : State} {n : NodeSt} (hk : Keeps r0 s) : Keeps r0 (State.clearWatch s n) := by
  unfold State.clearWatch
  try dsimp only
  repeat' first
    | with_reducible assumption
    | intro _
    | with_reducible apply State.modFlow_keeps
    | with_reducible apply State.modNode_keeps
    | with_reducible apply Keeps.ite
    | with_reducible apply Keeps.foldl
    | with_reducible apply Keeps.foldlFst
    | fail_if_no_progress with_reducible apply Keeps.upd
    | split

theorem State.advanceFlow_keeps {r0 : State} {s : State} {n : NodeSt} (hk : Keeps r0 s) : Keeps r0 (State.advanceFlow s n) := by
  unfold State.advanceFlow
  try dsimp only
  repeat' first
    | with_reducible assumption
    | intro _
    | with_reducible apply State.modFlow_keeps
    | with_reducible apply Keeps.ite
    | with_reducible apply Keeps.foldl
    | with_reducible apply Keeps.foldlFst
    | fail_if_no_progress with_reducible apply Keeps.upd
    | split

theorem State.freeEntry_keeps {r0 : State} {s : State} {e : Nat} (hk : Keeps r0 s) : Keeps r0 (State.freeEntry s e) := by
  unfold State.freeEntry
  try dsimp only
  repeat' first
    | with_reducible assumption
    | intro _
    | with_reducible apply Keeps.ite
    | with_reducible apply Keeps.foldl
    | with_reducible apply Keeps.foldlFst
    | fail_if_no_progress with_reducible apply Keeps.upd

theorem State.retire_keeps {r0 : State} {s : State} {slot : Nat} (hk : Keeps r0 s) : Keeps r0 (State.retire s slot) := by
  unfold State.retire
  try dsimp only
  repeat' first
    | with_reducible assumption
    | intro _
    | with_reducible apply State.modNode_keeps
    | with_reducible apply State.freeEntry_keeps
    | with_reducible apply Keeps.ite
    | with_reducible apply Keeps.foldl
    | with_reducible apply Keeps.foldlFst
    | fail_if_no_progress with_reducible apply Keeps.upd
    | split

theorem State.finish_keeps {r0 : State} {s : State} {i : Inst} (hk : Keeps r0 s) : Keeps r0 (State.finish s i) := by
  unfold State.finish
  try dsimp only
  repeat' first
    | with_reducible assumption
    | intro _
    | with_reducible apply State.modNode_keeps
    | with_reducible apply State.unpinAll_keeps
    | with_reducible apply State.drainInputs_keeps
    | with_reducible apply State.clearWatch_keeps
    | with_reducible apply State.advanceFlow_keeps
    | with_reducible apply State.retire_keeps
    | with_reducible apply Keeps.ite
    | with_reducible apply Keeps.foldl
    | with_reducible apply Keeps.foldlFst
    | fail_if_no_progress with_reducible apply Keeps.upd
    | split

theorem State.cancelNow_keeps {r0 : State} {s : State} {e : Nat} (hk : Keeps r0 s) : Keeps r0 (State.cancelNow s e) := by
  unfold State.cancelNow
  extract_lets a0
  have k0 : Keeps r0 a0
  on_goal 1 => unfold a0
  rotate_left
  clear_value a0
  all_goals repeat' first
    | with_reducible assumption
    | intro _
    | with_reducible apply State.addCnt_keeps
    | with_reducible apply State.leaveUnit_keeps
    | with_reducible apply State.modInst_keeps
    | with_reducible apply State.voidRelease_keeps
    | with_reducible apply State.finish_keeps
    | with_reducible apply State.freeEntry_keeps
    | with_reducible apply Keeps.ite
    | with_reducible apply Keeps.foldl
    | with_reducible apply Keeps.foldlFst
    | fail_if_no_progress with_reducible apply Keeps.upd
    | split
    | dsimp only

theorem State.cancel_keeps {r0 : State} {s : State} {e : Nat} (hk : Keeps r0 s) : Keeps r0 (State.cancel s e) := by
  unfold State.cancel
  extract_lets a0
  have k0 : Keeps r0 a0
  on_goal 1 => unfold a0
  rotate_left
  clear_value a0
  all_goals repeat' first
    | with_reducible assumption
    | intro _
    | with_reducible apply State.modInst_keeps
    | with_reducible apply State.showAbort_keeps
    | with_reducible apply State.cancelNow_keeps
    | with_reducible apply Keeps.ite
    | with_reducible apply Keeps.foldl
    | with_reducible apply Keeps.foldlFst
    | fail_if_no_progress with_reducible apply Keeps.upd
    | split

theorem State.refuseRelease_keeps {r0 : State} {s : State} {n : NodeSt} {i : Inst} {code : Nat} {mode1 : Bool} (hk
    : Keeps r0 s) : Keeps r0 (State.refuseRelease s n i code mode1) := by
  unfold State.refuseRelease
  extract_lets a0 a1 a2 a3 a4
  have k0 : Keeps r0 a0
  on_goal 1 => unfold a0
  rotate_left
  clear_value a0
  have k1 : Keeps r0 a1
  on_goal 1 => unfold a1
  rotate_left
  clear_value a1
  have k2 : Keeps r0 a2
  on_goal 1 => unfold a2
  rotate_left
  clear_value a2
  have k3 : Keeps r0 a3
  on_goal 1 => unfold a3
  rotate_left
  clear_value a3
  try clear_value a4
  all_goals repeat' first
    | with_reducible assumption
    | intro _
    | with_reducible apply State.event_keeps
    | with_reducible apply State.modInst_keeps
    | with_reducible apply State.addCnt_keeps
    | with_reducible apply State.log_keeps
    | with_reducible apply Keeps.ite
    | with_reducible apply Keeps.foldl
    | with_reducible apply Keeps.foldlFst
    | fail_if_no_progress with_reducible apply Keeps.upd
    | split

theorem State.reserveRemote_keeps {r0 : State} {s : State} {id : Nat} {ts : List Token} (hk : Keeps r0 s) : Keeps r0
    (State.reserveRemote s id ts).1 := by
  unfold State.reserveRemote
  try dsimp only
  repeat' first
    | with_reducible assumption
    | intro _
    | with_reducible apply State.sendTo_keeps
    | with_reducible apply Keeps.ite
    | with_reducible apply Keeps.foldl
    | with_reducible apply Keeps.foldlFst
    | fail_if_no_progress with_reducible apply Keeps.upd
    | split

theorem State.forgetAsked_keeps {r0 : State} {s : State} {id : Nat} (hk : Keeps r0 s) : Keeps r0 (State.forgetAsked s id) := by
  unfold State.forgetAsked
  try dsimp only
  repeat' first
    | with_reducible assumption
    | intro _
    | with_reducible apply Keeps.ite
    | with_reducible apply Keeps.foldl
    | with_reducible apply Keeps.foldlFst
    | fail_if_no_progress with_reducible apply Keeps.upd

theorem State.drainAbsent_keeps {r0 : State} {s : State} {layer : Nat} {idx : Nat} {sl : Nat} (hk : Keeps r0 s) : Keeps r0
    (State.drainAbsent s layer idx sl) := by
  unfold State.drainAbsent
  try dsimp only
  repeat' first
    | with_reducible assumption
    | intro _
    | with_reducible apply State.setRing_keeps
    | with_reducible apply State.modFlag_keeps
    | with_reducible apply Keeps.ite
    | with_reducible apply Keeps.foldl
    | with_reducible apply Keeps.foldlFst
    | fail_if_no_progress with_reducible apply Keeps.upd
    | split

theorem State.releaseOne_keeps {r0 : State} {s : State} {n : NodeSt} {seq : Word} {tile : Nat} {o : Nat} {flagged : Bool}
    {late : Bool} (hk : Keeps r0 s) : Keeps r0 (State.releaseOne s n seq tile o flagged late) := by
  unfold State.releaseOne
  try dsimp only
  repeat' first
    | with_reducible assumption
    | intro _
    | with_reducible apply State.modFlag_keeps
    | with_reducible apply State.drainAbsent_keeps
    | with_reducible apply State.post_keeps
    | with_reducible apply State.event_keeps
    | with_reducible apply Keeps.ite
    | with_reducible apply Keeps.foldl
    | with_reducible apply Keeps.foldlFst
    | fail_if_no_progress with_reducible apply Keeps.upd
    | split

theorem State.countMiss_keeps {r0 : State} {s : State} {domain : Nat} (hk : Keeps r0 s) : Keeps r0
    (State.countMiss s domain) := by
  unfold State.countMiss
  try dsimp only
  repeat' first
    | with_reducible assumption
    | intro _
    | with_reducible apply Keeps.ite
    | with_reducible apply Keeps.foldl
    | with_reducible apply Keeps.foldlFst
    | fail_if_no_progress with_reducible apply Keeps.upd

theorem State.noteSlack_keeps {r0 : State} {s : State} {domain : Nat} {slack : Int} (hk : Keeps r0 s) : Keeps r0
    (State.noteSlack s domain slack) := by
  unfold State.noteSlack
  try dsimp only
  repeat' first
    | with_reducible assumption
    | intro _
    | with_reducible apply Keeps.ite
    | with_reducible apply Keeps.foldl
    | with_reducible apply Keeps.foldlFst
    | fail_if_no_progress with_reducible apply Keeps.upd

theorem State.resetWatch_keeps {r0 : State} {s : State} {n : NodeSt} (hk : Keeps r0 s) : Keeps r0 (State.resetWatch s n) := by
  unfold State.resetWatch
  try dsimp only
  repeat' first
    | with_reducible assumption
    | intro _
    | with_reducible apply State.modFlow_keeps
    | with_reducible apply State.modNode_keeps
    | with_reducible apply Keeps.ite
    | with_reducible apply Keeps.foldl
    | with_reducible apply Keeps.foldlFst
    | fail_if_no_progress with_reducible apply Keeps.upd
    | split

theorem State.tryRelease_keeps {r0 : State} {s : State} {e : Nat} (hk : Keeps r0 s) : Keeps r0 (State.tryRelease s e) := by
  unfold State.tryRelease
  try dsimp only
  repeat' first
    | with_reducible assumption
    | intro _
    | with_reducible apply State.refuseRelease_keeps
    | with_reducible apply State.reserveRemote_keeps
    | with_reducible apply State.forgetAsked_keeps
    | with_reducible apply State.addCnt_keeps
    | with_reducible apply State.leaveUnit_keeps
    | with_reducible apply State.releaseOne_keeps
    | with_reducible apply State.countMiss_keeps
    | with_reducible apply State.event_keeps
    | with_reducible apply State.noteSlack_keeps
    | with_reducible apply State.finish_keeps
    | with_reducible apply State.freeEntry_keeps
    | with_reducible apply State.resetWatch_keeps
    | with_reducible apply Keeps.ite
    | with_reducible apply Keeps.foldl
    | with_reducible apply Keeps.foldlFst
    | fail_if_no_progress with_reducible apply Keeps.upd
    | split

theorem State.numberRemote_keeps {r0 : State} {s : State} {n : NodeSt} {seq : Word} {t : Nat} {op : Nat} (hk : Keeps r0 s)
    : Keeps r0 (State.numberRemote s n seq t op) := by
  unfold State.numberRemote
  try dsimp only
  repeat' first
    | with_reducible assumption
    | intro _
    | with_reducible apply State.setRing_keeps
    | with_reducible apply Keeps.ite
    | with_reducible apply Keeps.foldl
    | with_reducible apply Keeps.foldlFst
    | fail_if_no_progress with_reducible apply Keeps.upd
    | split

theorem State.arrive_keeps {r0 : State} {s : State} {n : NodeSt} {seq : Word} {t : Nat} {op : Nat} (hk : Keeps r0 s)
    : Keeps r0 (State.arrive s n seq t op) := by
  unfold State.arrive
  extract_lets a0
  have k0 : Keeps r0 a0
  on_goal 1 => unfold a0
  rotate_left
  clear_value a0
  all_goals repeat' first
    | with_reducible assumption
    | intro _
    | with_reducible apply State.numberRemote_keeps
    | with_reducible apply State.setRing_keeps
    | with_reducible apply State.drainInputs_keeps
    | with_reducible apply Keeps.ite
    | with_reducible apply Keeps.foldl
    | with_reducible apply Keeps.foldlFst
    | fail_if_no_progress with_reducible apply Keeps.upd
    | split

theorem State.noteHwm_keeps {r0 : State} {s : State} (hk : Keeps r0 s) : Keeps r0 (State.noteHwm s) := by
  unfold State.noteHwm
  extract_lets a0
  have k0 : Keeps r0 a0
  on_goal 1 => unfold a0
  rotate_left
  clear_value a0
  all_goals repeat' first
    | with_reducible assumption
    | intro _
    | with_reducible apply State.setFld_keeps

theorem State.startWatch_keeps {r0 : State} {s : State} {n : NodeSt} (hk : Keeps r0 s) : Keeps r0 (State.startWatch s n) := by
  unfold State.startWatch
  try dsimp only
  repeat' first
    | with_reducible assumption
    | intro _
    | with_reducible apply State.modFlow_keeps
    | with_reducible apply State.modNode_keeps
    | with_reducible apply Keeps.ite
    | with_reducible apply Keeps.foldl
    | with_reducible apply Keeps.foldlFst
    | fail_if_no_progress with_reducible apply Keeps.upd
    | split

theorem State.numberOutputs_keeps {r0 : State} {s : State} {n : NodeSt} {seq : Word} (hk : Keeps r0 s) : Keeps r0
    (State.numberOutputs s n seq) := by
  unfold State.numberOutputs
  try dsimp only
  repeat' first
    | with_reducible assumption
    | intro _
    | with_reducible apply State.setRing_keeps
    | with_reducible apply Keeps.ite
    | with_reducible apply Keeps.foldl
    | with_reducible apply Keeps.foldlFst
    | fail_if_no_progress with_reducible apply Keeps.upd
    | split

theorem State.createEntry_keeps {r0 : State} {s : State} {n : NodeSt} {seq : Word} {tile : Nat} {stream : Nat} (hk
    : Keeps r0 s) : Keeps r0 (State.createEntry s n seq tile stream) := by
  unfold State.createEntry
  extract_lets a0 a1 a2 a3 a4 a5
  try clear_value a0
  try clear_value a1
  try clear_value a2
  try clear_value a3
  have k4 : Keeps r0 a4
  on_goal 1 => unfold a4
  rotate_left
  clear_value a4
  have k5 : Keeps r0 a5
  on_goal 1 => unfold a5
  rotate_left
  clear_value a5
  all_goals repeat' first
    | with_reducible assumption
    | intro _
    | with_reducible apply State.modFlow_keeps
    | with_reducible apply State.noteHwm_keeps
    | with_reducible apply State.startWatch_keeps
    | with_reducible apply State.numberOutputs_keeps
    | with_reducible apply Keeps.ite
    | with_reducible apply Keeps.foldl
    | with_reducible apply Keeps.foldlFst
    | fail_if_no_progress with_reducible apply Keeps.upd
    | split

theorem State.logInst_keeps {r0 : State} {s : State} {code : Nat} {cls : Nat} {i : Inst} {a2 : Nat} (hk : Keeps r0 s)
    : Keeps r0 (State.logInst s code cls i a2) := by
  unfold State.logInst
  try dsimp only
  repeat' first
    | with_reducible assumption
    | intro _
    | with_reducible apply State.log_keeps

/-! ### Machine/CamOps.lean -/

theorem State.showPipe_keeps {r0 : State} {s : State} {n : Nat} (hk : Keeps r0 s) : Keeps r0 (State.showPipe s n) := by
  unfold State.showPipe
  extract_lets a0 a1 a2 a3 a4
  try clear_value a0
  try clear_value a1
  try clear_value a2
  have k3 : Keeps r0 a3
  on_goal 1 => unfold a3
  rotate_left
  clear_value a3
  try clear_value a4
  all_goals repeat' first
    | with_reducible assumption
    | intro _
    | with_reducible apply State.setFld_keeps
    | with_reducible apply Keeps.ite
    | with_reducible apply Keeps.foldl
    | with_reducible apply Keeps.foldlFst
    | fail_if_no_progress with_reducible apply Keeps.upd
    | split

theorem State.modPipe_keeps {r0 : State} {s : State} {n : Nat} {f : PipeSt → PipeSt} (hk : Keeps r0 s) : Keeps r0
    (State.modPipe s n f) := by
  unfold State.modPipe
  try dsimp only
  repeat' first
    | with_reducible assumption
    | intro _
    | with_reducible apply Keeps.ite
    | with_reducible apply Keeps.foldl
    | with_reducible apply Keeps.foldlFst
    | fail_if_no_progress with_reducible apply Keeps.upd

theorem State.modCam_keeps {r0 : State} {s : State} {stream : Nat} {f : StreamSt → StreamSt} (hk : Keeps r0 s) : Keeps r0
    (State.modCam s stream f) := by
  unfold State.modCam
  try dsimp only
  repeat' first
    | with_reducible assumption
    | intro _
    | with_reducible apply Keeps.ite
    | with_reducible apply Keeps.foldl
    | with_reducible apply Keeps.foldlFst
    | fail_if_no_progress with_reducible apply Keeps.upd

theorem State.discardFrame_keeps {r0 : State} {s : State} {stream : Nat} {port : Nat} (hk : Keeps r0 s) : Keeps r0
    (State.discardFrame s stream port) := by
  unfold State.discardFrame
  try dsimp only
  repeat' first
    | with_reducible assumption
    | intro _
    | with_reducible apply State.addCnt_keeps
    | with_reducible apply State.modCam_keeps
    | with_reducible apply Keeps.ite
    | with_reducible apply Keeps.foldl
    | with_reducible apply Keeps.foldlFst
    | fail_if_no_progress with_reducible apply Keeps.upd
    | split

theorem State.stopPipeWork_keeps {r0 : State} {s : State} {n : Nat} {stream : Nat} (hk : Keeps r0 s) : Keeps r0
    (State.stopPipeWork s n stream) := by
  unfold State.stopPipeWork
  extract_lets a0 a1 a2 a3 a4 a5 a6 a7 a8
  try clear_value a0
  try clear_value a1
  try clear_value a2
  try clear_value a3
  have k4 : Keeps r0 a4
  on_goal 1 => unfold a4
  rotate_left
  clear_value a4
  have k5 : Keeps r0 a5
  on_goal 1 => unfold a5
  rotate_left
  clear_value a5
  have k6 : Keeps r0 a6
  on_goal 1 => unfold a6
  rotate_left
  clear_value a6
  have k7 : Keeps r0 a7
  on_goal 1 => unfold a7
  rotate_left
  clear_value a7
  have k8 : Keeps r0 a8
  on_goal 1 => unfold a8
  rotate_left
  clear_value a8
  all_goals repeat' first
    | with_reducible assumption
    | intro _
    | with_reducible apply State.modPipe_keeps
    | with_reducible apply State.setReg_keeps
    | with_reducible apply State.setFlag_keeps
    | with_reducible apply State.event_keeps
    | with_reducible apply State.log_keeps
    | with_reducible apply State.showPipe_keeps
    | with_reducible apply Keeps.ite
    | with_reducible apply Keeps.foldl
    | with_reducible apply Keeps.foldlFst
    | fail_if_no_progress with_reducible apply Keeps.upd
    | split

theorem State.unbindStream_keeps {r0 : State} {s : State} {stream : Nat} (hk : Keeps r0 s) : Keeps r0
    (State.unbindStream s stream) := by
  unfold State.unbindStream
  try dsimp only
  repeat' first
    | with_reducible assumption
    | intro _
    | with_reducible apply State.modCam_keeps
    | with_reducible apply State.discardFrame_keeps
    | with_reducible apply State.stopPipeWork_keeps
    | with_reducible apply Keeps.ite
    | with_reducible apply Keeps.foldl
    | with_reducible apply Keeps.foldlFst
    | fail_if_no_progress with_reducible apply Keeps.upd
    | split

theorem State.loadBank_keeps {r0 : State} {s : State} {p : StreamRec} (hk : Keeps r0 s) : Keeps r0 (State.loadBank s p) := by
  unfold State.loadBank
  try dsimp only
  repeat' first
    | with_reducible assumption
    | intro _
    | with_reducible apply State.modPipe_keeps
    | with_reducible apply State.setFld_keeps
    | with_reducible apply State.setFlag_keeps
    | with_reducible apply State.setReg_keeps
    | with_reducible apply State.modCam_keeps
    | with_reducible apply Keeps.ite
    | with_reducible apply Keeps.foldl
    | with_reducible apply Keeps.foldlFst
    | fail_if_no_progress with_reducible apply Keeps.upd
    | split

theorem State.openStream_keeps {r0 : State} {s : State} {layer : Nat} {stream : Nat} (hk : Keeps r0 s) : Keeps r0
    (State.openStream s layer stream) := by
  unfold State.openStream
  try dsimp only
  repeat' first
    | with_reducible assumption
    | intro _
    | with_reducible apply State.modCam_keeps

theorem State.markAbsent_keeps {r0 : State} {s : State} {stream : Nat} (hk : Keeps r0 s) : Keeps r0
    (State.markAbsent s stream) := by
  unfold State.markAbsent
  extract_lets a0 a1
  have k0 : Keeps r0 a0
  on_goal 1 => unfold a0
  rotate_left
  clear_value a0
  try clear_value a1
  all_goals repeat' first
    | with_reducible assumption
    | intro _
    | with_reducible apply State.unbindStream_keeps
    | with_reducible apply Keeps.ite
    | with_reducible apply Keeps.foldl
    | with_reducible apply Keeps.foldlFst
    | fail_if_no_progress with_reducible apply Keeps.upd

theorem State.modBank_keeps {r0 : State} {s : State} {n : Nat} {m : Nat} {f : IspBank → IspBank} (hk : Keeps r0 s) : Keeps r0
    (State.modBank s n m f) := by
  unfold State.modBank
  try dsimp only
  repeat' first
    | with_reducible assumption
    | intro _
    | with_reducible apply State.modPipe_keeps

/-! ### Machine/OutOps.lean -/

theorem State.modSel_keeps {r0 : State} {s : State} {f : Selector → Selector} (hk : Keeps r0 s) : Keeps r0
    (State.modSel s f) := by
  unfold State.modSel
  try dsimp only
  repeat' first
    | with_reducible assumption
    | intro _
    | with_reducible apply Keeps.ite
    | with_reducible apply Keeps.foldl
    | with_reducible apply Keeps.foldlFst
    | fail_if_no_progress with_reducible apply Keeps.upd

theorem State.switchSource_keeps {r0 : State} {s : State} {ember : Bool} {why : Nat} (hk : Keeps r0 s) : Keeps r0
    (State.switchSource s ember why) := by
  unfold State.switchSource
  extract_lets a0
  have k0 : Keeps r0 a0
  on_goal 1 => unfold a0
  rotate_left
  clear_value a0
  all_goals repeat' first
    | with_reducible assumption
    | intro _
    | with_reducible apply State.setFlag_keeps
    | with_reducible apply State.modSel_keeps
    | with_reducible apply State.event_keeps
    | with_reducible apply Keeps.ite

theorem State.restartCounts_keeps {r0 : State} {s : State} (hk : Keeps r0 s) : Keeps r0 (State.restartCounts s) := by
  unfold State.restartCounts
  extract_lets a0
  have k0 : Keeps r0 a0
  on_goal 1 => unfold a0
  rotate_left
  clear_value a0
  all_goals repeat' first
    | with_reducible assumption
    | intro _
    | with_reducible apply State.setFld_keeps
    | with_reducible apply State.modSel_keeps

theorem State.queueEth_keeps {r0 : State} {s : State} {mac : Nat} {t : EthTx} (hk : Keeps r0 s) : Keeps r0
    (State.queueEth s mac t) := by
  unfold State.queueEth
  try dsimp only
  repeat' first
    | with_reducible assumption
    | intro _
    | with_reducible apply State.event_keeps
    | with_reducible apply State.addCnt_keeps
    | with_reducible apply Keeps.ite
    | with_reducible apply Keeps.foldl
    | with_reducible apply Keeps.foldlFst
    | fail_if_no_progress with_reducible apply Keeps.upd

theorem State.queueCan_keeps {r0 : State} {s : State} {can : Nat} {t : CanTx} (hk : Keeps r0 s) : Keeps r0
    (State.queueCan s can t) := by
  unfold State.queueCan
  extract_lets a0 a1 a2
  try clear_value a0
  have k1 : Keeps r0 a1
  on_goal 1 => unfold a1
  rotate_left
  clear_value a1
  try clear_value a2
  all_goals repeat' first
    | with_reducible assumption
    | intro _
    | with_reducible apply State.event_keeps
    | with_reducible apply Keeps.ite
    | with_reducible apply Keeps.foldl
    | with_reducible apply Keeps.foldlFst
    | fail_if_no_progress with_reducible apply Keeps.upd

theorem State.handOver_keeps {r0 : State} {s : State} {r : OutRec} {p : Payload} (hk : Keeps r0 s) : Keeps r0
    (State.handOver s r p) := by
  unfold State.handOver
  extract_lets a0 a1 a2 a3 a4 a5 a6 a7
  try clear_value a0
  try clear_value a1
  try clear_value a2
  try clear_value a3
  try clear_value a4
  try clear_value a5
  have k6 : Keeps r0 a6
  on_goal 1 => unfold a6
  rotate_left
  clear_value a6
  have k7 : Keeps r0 a7
  on_goal 1 => unfold a7
  rotate_left
  clear_value a7
  all_goals repeat' first
    | with_reducible assumption
    | intro _
    | with_reducible apply State.queueEth_keeps
    | with_reducible apply State.queueCan_keeps
    | with_reducible apply Keeps.ite
    | with_reducible apply Keeps.foldl
    | with_reducible apply Keeps.foldlFst
    | fail_if_no_progress with_reducible apply Keeps.upd

theorem State.announce_keeps {r0 : State} {s : State} {seq : Word} (hk : Keeps r0 s) : Keeps r0 (State.announce s seq) := by
  unfold State.announce
  try dsimp only
  repeat' first
    | with_reducible assumption
    | intro _
    | with_reducible apply State.modSel_keeps
    | with_reducible apply State.log_keeps
    | with_reducible apply Keeps.ite
    | with_reducible apply Keeps.foldl
    | with_reducible apply Keeps.foldlFst
    | fail_if_no_progress with_reducible apply Keeps.upd
    | split

theorem State.tryReturn_keeps {r0 : State} {s : State} (hk : Keeps r0 s) : Keeps r0 (State.tryReturn s) := by
  unfold State.tryReturn
  try dsimp only
  repeat' first
    | with_reducible assumption
    | intro _
    | with_reducible apply State.switchSource_keeps
    | with_reducible apply Keeps.ite

theorem State.handEmber_keeps {r0 : State} {s : State} {m : EmberMsg} (hk : Keeps r0 s) : Keeps r0 (State.handEmber s m) := by
  unfold State.handEmber
  try dsimp only
  repeat' first
    | with_reducible assumption
    | intro _
    | with_reducible apply State.handOver_keeps
    | with_reducible apply State.announce_keeps
    | with_reducible apply State.setFld_keeps
    | with_reducible apply State.modSel_keeps
    | with_reducible apply State.tryReturn_keeps
    | with_reducible apply Keeps.ite
    | with_reducible apply Keeps.foldl
    | with_reducible apply Keeps.foldlFst
    | fail_if_no_progress with_reducible apply Keeps.upd
    | split

theorem State.selectEmber_keeps {r0 : State} {s : State} {why : Nat} (hk : Keeps r0 s) : Keeps r0
    (State.selectEmber s why) := by
  unfold State.selectEmber
  extract_lets a0 a1
  have k0 : Keeps r0 a0
  on_goal 1 => unfold a0
  rotate_left
  clear_value a0
  have k1 : Keeps r0 a1
  on_goal 1 => unfold a1
  rotate_left
  clear_value a1
  all_goals repeat' first
    | with_reducible assumption
    | intro _
    | with_reducible apply State.switchSource_keeps
    | with_reducible apply State.modSel_keeps
    | with_reducible apply State.restartCounts_keeps
    | with_reducible apply State.handEmber_keeps
    | with_reducible apply Keeps.ite
    | with_reducible apply Keeps.foldl
    | with_reducible apply Keeps.foldlFst
    | fail_if_no_progress with_reducible apply Keeps.upd
    | split

theorem State.offerPrimary_keeps {r0 : State} {s : State} {r : OutRec} {p : Payload} (hk : Keeps r0 s) : Keeps r0
    (State.offerPrimary s r p) := by
  unfold State.offerPrimary
  extract_lets a0 a1 a2 a3 a4
  try clear_value a0
  try clear_value a1
  have k2 : Keeps r0 a2
  on_goal 1 => unfold a2
  rotate_left
  clear_value a2
  have k3 : Keeps r0 a3
  on_goal 1 => unfold a3
  rotate_left
  clear_value a3
  have k4 : Keeps r0 a4
  on_goal 1 => unfold a4
  rotate_left
  clear_value a4
  all_goals repeat' first
    | with_reducible assumption
    | intro _
    | with_reducible apply State.addFld_keeps
    | with_reducible apply State.setFld_keeps
    | with_reducible apply State.modSel_keeps
    | with_reducible apply State.tryReturn_keeps
    | with_reducible apply State.announce_keeps
    | with_reducible apply State.handOver_keeps
    | with_reducible apply Keeps.ite

theorem State.startCounts_keeps {r0 : State} {s : State} (hk : Keeps r0 s) : Keeps r0 (State.startCounts s) := by
  unfold State.startCounts
  try dsimp only
  repeat' first
    | with_reducible assumption
    | intro _
    | with_reducible apply State.modSel_keeps
    | with_reducible apply State.restartCounts_keeps

/-! ### Machine/IcuOps.lean -/

theorem State.dropOffer_keeps {r0 : State} {s : State} {m : Nat} (hk : Keeps r0 s) : Keeps r0 (State.dropOffer s m) := by
  unfold State.dropOffer
  try dsimp only
  repeat' first
    | with_reducible assumption
    | intro _
    | with_reducible apply Keeps.ite
    | with_reducible apply Keeps.foldl
    | with_reducible apply Keeps.foldlFst
    | fail_if_no_progress with_reducible apply Keeps.upd

theorem State.setActive_keeps {r0 : State} {s : State} {m : Nat} {v : Bool} (hk : Keeps r0 s) : Keeps r0
    (State.setActive s m v) := by
  unfold State.setActive
  try dsimp only
  repeat' first
    | with_reducible assumption
    | intro _
    | with_reducible apply State.setFlag_keeps

theorem State.setPending_keeps {r0 : State} {s : State} {m : Nat} {v : Bool} (hk : Keeps r0 s) : Keeps r0
    (State.setPending s m v) := by
  unfold State.setPending
  try dsimp only
  repeat' first
    | with_reducible assumption
    | intro _
    | with_reducible apply State.setFlag_keeps

theorem State.putOffer_keeps {r0 : State} {s : State} {m : Nat} {t : Nat} {pinned : Bool} (hk : Keeps r0 s) : Keeps r0
    (State.putOffer s m t pinned) := by
  unfold State.putOffer
  try dsimp only
  repeat' first
    | with_reducible assumption
    | intro _
    | with_reducible apply Keeps.ite
    | with_reducible apply Keeps.foldl
    | with_reducible apply Keeps.foldlFst
    | fail_if_no_progress with_reducible apply Keeps.upd

theorem State.completeSource_keeps {r0 : State} {s : State} {m : Nat} {t : Nat} (hk : Keeps r0 s) : Keeps r0
    (State.completeSource s m t) := by
  unfold State.completeSource
  extract_lets a0 a1
  have k0 : Keeps r0 a0
  on_goal 1 => unfold a0
  rotate_left
  clear_value a0
  have k1 : Keeps r0 a1
  on_goal 1 => unfold a1
  rotate_left
  clear_value a1
  all_goals repeat' first
    | with_reducible assumption
    | intro _
    | with_reducible apply State.setActive_keeps
    | with_reducible apply State.setPending_keeps
    | with_reducible apply State.putOffer_keeps
    | with_reducible apply State.dropOffer_keeps
    | with_reducible apply Keeps.ite

/-! ### Machine/MaintDefs.lean -/

theorem State.showMaint_keeps {r0 : State} {s : State} (hk : Keeps r0 s) : Keeps r0 (State.showMaint s) := by
  unfold State.showMaint
  try dsimp only
  repeat' first
    | with_reducible assumption
    | intro _
    | with_reducible apply State.setFld_keeps

theorem State.dropMaint_keeps {r0 : State} {s : State} {code : Nat} (hk : Keeps r0 s) : Keeps r0 (State.dropMaint s code) := by
  unfold State.dropMaint
  try dsimp only
  repeat' first
    | with_reducible assumption
    | intro _
    | with_reducible apply State.showMaint_keeps
    | with_reducible apply Keeps.ite
    | with_reducible apply Keeps.foldl
    | with_reducible apply Keeps.foldlFst
    | fail_if_no_progress with_reducible apply Keeps.upd

/-! ### Machine/MemOps.lean -/

theorem State.breakResv_keeps {r0 : State} {s : State} {a : Nat} {len : Nat} (hk : Keeps r0 s) : Keeps r0
    (State.breakResv s a len) := by
  unfold State.breakResv
  try dsimp only
  repeat' first
    | with_reducible assumption
    | intro _
    | with_reducible apply Keeps.ite
    | with_reducible apply Keeps.foldl
    | with_reducible apply Keeps.foldlFst
    | fail_if_no_progress with_reducible apply Keeps.upd

theorem State.wcInvalidate_keeps {r0 : State} {s : State} {a : Nat} {len : Nat} (hk : Keeps r0 s) : Keeps r0
    (State.wcInvalidate s a len) := by
  unfold State.wcInvalidate
  extract_lets a0 a1 a2
  try clear_value a0
  have k1 : Keeps r0 a1
  on_goal 1 => unfold a1
  rotate_left
  clear_value a1
  try clear_value a2
  all_goals repeat' first
    | with_reducible assumption
    | intro _
    | with_reducible apply State.addCnt_keeps
    | with_reducible apply Keeps.ite
    | with_reducible apply Keeps.foldl
    | with_reducible apply Keeps.foldlFst
    | fail_if_no_progress with_reducible apply Keeps.upd

theorem State.write_keeps {r0 : State} {s : State} {a : Nat} {bs : List Byte} (hk : Keeps r0 s) : Keeps r0
    (State.write s a bs) := by
  unfold State.write
  extract_lets a0 a1 a2 a3
  have k0 : Keeps r0 a0
  on_goal 1 => unfold a0
  rotate_left
  clear_value a0
  have k1 : Keeps r0 a1
  on_goal 1 => unfold a1
  rotate_left
  clear_value a1
  have k2 : Keeps r0 a2
  on_goal 1 => unfold a2
  rotate_left
  clear_value a2
  try clear_value a3
  all_goals repeat' first
    | with_reducible assumption
    | intro _
    | with_reducible apply State.breakResv_keeps
    | with_reducible apply State.store_keeps
    | with_reducible apply State.wcInvalidate_keeps
    | with_reducible apply State.addCnt_keeps
    | with_reducible apply Keeps.ite
    | with_reducible apply Keeps.foldl
    | with_reducible apply Keeps.foldlFst
    | fail_if_no_progress with_reducible apply Keeps.upd

theorem State.fwRefuse_keeps {r0 : State} {s : State} {t : Nat} {a : Nat} {domain : Nat} {init : Nat} {write : Bool}
    {unit : Nat} (hk : Keeps r0 s) : Keeps r0 (State.fwRefuse s t a domain init write unit) := by
  unfold State.fwRefuse
  extract_lets a0 a1 a2 a3 a4 a5 a6 a7 a8 a9
  have k0 : Keeps r0 a0
  on_goal 1 => unfold a0
  rotate_left
  clear_value a0
  try clear_value a1
  have k2 : Keeps r0 a2
  on_goal 1 => unfold a2
  rotate_left
  clear_value a2
  have k3 : Keeps r0 a3
  on_goal 1 => unfold a3
  rotate_left
  clear_value a3
  have k4 : Keeps r0 a4
  on_goal 1 => unfold a4
  rotate_left
  clear_value a4
  try clear_value a5
  try clear_value a6
  have k7 : Keeps r0 a7
  on_goal 1 => unfold a7
  rotate_left
  clear_value a7
  try clear_value a8
  have k9 : Keeps r0 a9
  on_goal 1 => unfold a9
  rotate_left
  clear_value a9
  all_goals repeat' first
    | with_reducible assumption
    | intro _
    | with_reducible apply State.addCnt_keeps
    | with_reducible apply State.event_keeps
    | with_reducible apply State.setFlag_keeps
    | with_reducible apply State.setReg_keeps
    | with_reducible apply State.setFld_keeps
    | with_reducible apply State.log_keeps
    | with_reducible apply State.doubt_keeps
    | with_reducible apply Keeps.ite
    | with_reducible apply Keeps.foldl
    | with_reducible apply Keeps.foldlFst
    | fail_if_no_progress with_reducible apply Keeps.upd

theorem State.remoteOne_keeps {r0 : State} {s : State} {c : Issuer} {k : Nat} {a : Nat} {len : Nat} {write : Bool}
    {data : List Byte} (hk : Keeps r0 s) : Keeps r0 (State.remoteOne s c k a len write data).1 := by
  unfold State.remoteOne
  extract_lets a0 a1 a2 a3
  try clear_value a0
  try clear_value a1
  have k2 : Keeps r0 a2
  on_goal 1 => unfold a2
  rotate_left
  clear_value a2
  try clear_value a3
  all_goals repeat' first
    | with_reducible assumption
    | intro _
    | with_reducible apply State.sendTo_keeps
    | with_reducible apply Keeps.ite
    | with_reducible apply Keeps.foldl
    | with_reducible apply Keeps.foldlFst
    | fail_if_no_progress with_reducible apply Keeps.upd
    | split

theorem State.remoteRun_keeps {r0 : State} {s : State} {c : Issuer} {a : Nat} {len : Nat} {write : Bool} {data : List Byte}
    (hk : Keeps r0 s) : Keeps r0 (State.remoteRun s c a len write data).1 := by
  unfold State.remoteRun
  extract_lets g e l
  clear_value g e l
  split
  · exact hk
  · split
    · exact hk
    · split
      · exact hk
      · split
        · exact State.fwRefuse_keeps hk
        · apply Keeps.foldlFst
          · intro p x h
            exact State.remoteOne_keeps h
          · exact hk

theorem State.latchDecode_keeps {r0 : State} {s : State} {a : Nat} {domain : Nat} {init : Nat} {write : Bool} (hk
    : Keeps r0 s) : Keeps r0 (State.latchDecode s a domain init write) := by
  unfold State.latchDecode
  extract_lets a0 a1
  try clear_value a0
  have k1 : Keeps r0 a1
  on_goal 1 => unfold a1
  rotate_left
  clear_value a1
  all_goals repeat' first
    | with_reducible assumption
    | intro _
    | with_reducible apply State.setFlag_keeps
    | with_reducible apply State.setReg_keeps
    | with_reducible apply State.setFld_keeps
    | with_reducible apply Keeps.ite

theorem State.cinderTell_keeps {r0 : State} {s : State} {c : Cinder} {a : Nat} {write : Bool} (hk : Keeps r0 s) : Keeps r0
    (State.cinderTell s c a write) := by
  unfold State.cinderTell
  extract_lets a0 a1 a2 a3 a4 a5 a6
  try clear_value a0
  try clear_value a1
  have k2 : Keeps r0 a2
  on_goal 1 => unfold a2
  rotate_left
  clear_value a2
  have k3 : Keeps r0 a3
  on_goal 1 => unfold a3
  rotate_left
  clear_value a3
  try clear_value a4
  have k5 : Keeps r0 a5
  on_goal 1 => unfold a5
  rotate_left
  clear_value a5
  try clear_value a6
  all_goals repeat' first
    | with_reducible assumption
    | intro _
    | with_reducible apply State.event_keeps
    | with_reducible apply State.addCnt_keeps
    | with_reducible apply State.log_keeps
    | with_reducible apply Keeps.ite
    | with_reducible apply Keeps.foldl
    | with_reducible apply Keeps.foldlFst
    | fail_if_no_progress with_reducible apply Keeps.upd

theorem State.judge_keeps {r0 : State} {s : State} {c : Issuer} {a : Nat} {len : Nat} {write : Bool} (hk : Keeps r0 s)
    : Keeps r0 (State.judge s c a len write).1 := by
  unfold State.judge
  extract_lets a0 a1 a2
  try clear_value a0
  have k1 : Keeps r0 a1
  on_goal 1 => unfold a1
  rotate_left
  clear_value a1
  have k2 : Keeps r0 a2
  on_goal 1 => unfold a2
  rotate_left
  clear_value a2
  all_goals repeat' first
    | with_reducible assumption
    | intro _
    | with_reducible apply State.latchDecode_keeps
    | with_reducible apply State.fwRefuse_keeps
    | with_reducible apply State.event_keeps
    | with_reducible apply State.cinderTell_keeps
    | with_reducible apply State.addCnt_keeps
    | with_reducible apply Keeps.ite
    | with_reducible apply Keeps.foldl
    | with_reducible apply Keeps.foldlFst
    | fail_if_no_progress with_reducible apply Keeps.upd
    | split

theorem State.judgeRuns_keeps {r0 : State} {s : State} {c : Issuer} {write : Bool} {l : List (Nat × Nat)} (hk : Keeps r0 s)
    : Keeps r0 (State.judgeRuns s c write l).1 := by
  induction l generalizing s with
  | nil => exact hk
  | cons x t ih =>
    have h1 := State.judge_keeps (c := c) (a := x.1) (len := x.2) (write := write) hk
    unfold State.judgeRuns
    dsimp only
    split
    · exact h1
    · exact ih h1

theorem State.judgeRun_keeps {r0 : State} {s : State} {c : Issuer} {a : Nat} {len : Nat} {write : Bool} (hk : Keeps r0 s)
    : Keeps r0 (State.judgeRun s c a len write).1 := by
  unfold State.judgeRun
  split
  · exact Keeps.pair (State.remoteRun_keeps (c := c) (a := a) (len := len) (write := write) (data := []) hk)
  · exact State.judgeRuns_keeps hk

theorem State.endRemote_keeps {r0 : State} {s : State} {unit : Nat} (hk : Keeps r0 s) : Keeps r0 (State.endRemote s unit) := by
  unfold State.endRemote
  try dsimp only
  repeat' first
    | with_reducible assumption
    | intro _
    | with_reducible apply Keeps.ite
    | with_reducible apply Keeps.foldl
    | with_reducible apply Keeps.foldlFst
    | fail_if_no_progress with_reducible apply Keeps.upd

theorem State.wcRead_keeps {r0 : State} {s : State} {a : Nat} {len : Nat} {allocate : Bool} (hk : Keeps r0 s) : Keeps r0
    (State.wcRead s a len allocate) := by
  unfold State.wcRead
  try dsimp only
  repeat' first
    | with_reducible assumption
    | intro _
    | with_reducible apply State.addCnt_keeps
    | with_reducible apply Keeps.ite
    | with_reducible apply Keeps.foldl
    | with_reducible apply Keeps.foldlFst
    | fail_if_no_progress with_reducible apply Keeps.upd

theorem State.judgeReads_keeps {r0 : State} {s : State} {c : Issuer} {rs : List (Nat × Nat)} {allocate : Bool} (hk
    : Keeps r0 s) : Keeps r0 (State.judgeReads s c rs allocate).1 := by
  unfold State.judgeReads
  try dsimp only
  repeat' first
    | with_reducible assumption
    | intro _
    | with_reducible apply State.judgeRun_keeps
    | with_reducible apply State.wcRead_keeps
    | with_reducible apply Keeps.ite
    | with_reducible apply Keeps.foldl
    | with_reducible apply Keeps.foldlFst
    | fail_if_no_progress with_reducible apply Keeps.upd
    | split

theorem State.judgeWrites_keeps {r0 : State} {s : State} {c : Issuer} {ws : List (Nat × List Byte)} (hk : Keeps r0 s)
    : Keeps r0 (State.judgeWrites s c ws).1 := by
  unfold State.judgeWrites
  apply Keeps.foldlFst
  · intro p w h
    split
    · exact h
    · split
      · exact Keeps.pair (State.remoteRun_keeps (c := c) (a := w.1) (len := w.2.length) (write := true) (data := w.2) h)
      · exact State.judgeRun_keeps h
  · exact hk

theorem State.writes_keeps {r0 : State} {s : State} {ws : List (Nat × List Byte)} (hk : Keeps r0 s) : Keeps r0
    (State.writes s ws) := by
  unfold State.writes
  try dsimp only
  repeat' first
    | with_reducible assumption
    | intro _
    | with_reducible apply State.write_keeps
    | with_reducible apply Keeps.ite
    | with_reducible apply Keeps.foldl

/-! ### Machine/CvuOps.lean -/

theorem State.modCvu_keeps {r0 : State} {s : State} {n : Nat} {f : CvuSt → CvuSt} (hk : Keeps r0 s) : Keeps r0
    (State.modCvu s n f) := by
  unfold State.modCvu
  try dsimp only
  repeat' first
    | with_reducible assumption
    | intro _
    | with_reducible apply Keeps.ite
    | with_reducible apply Keeps.foldl
    | with_reducible apply Keeps.foldlFst
    | fail_if_no_progress with_reducible apply Keeps.upd

theorem State.cvuEnd_keeps {r0 : State} {s : State} {n : Nat} {result : Nat} (hk : Keeps r0 s) : Keeps r0
    (State.cvuEnd s n result) := by
  unfold State.cvuEnd
  extract_lets a0 a1 a2
  try clear_value a0
  have k1 : Keeps r0 a1
  on_goal 1 => unfold a1
  rotate_left
  clear_value a1
  have k2 : Keeps r0 a2
  on_goal 1 => unfold a2
  rotate_left
  clear_value a2
  all_goals repeat' first
    | with_reducible assumption
    | intro _
    | with_reducible apply State.setFld_keeps
    | with_reducible apply State.event_keeps
    | with_reducible apply State.modCvu_keeps
    | with_reducible apply Keeps.ite
    | with_reducible apply Keeps.foldl
    | with_reducible apply Keeps.foldlFst
    | fail_if_no_progress with_reducible apply Keeps.upd
    | split

theorem State.cvuAbort_keeps {r0 : State} {s : State} {n : Nat} (hk : Keeps r0 s) : Keeps r0 (State.cvuAbort s n) := by
  unfold State.cvuAbort
  try dsimp only
  repeat' first
    | with_reducible assumption
    | intro _
    | with_reducible apply State.cvuEnd_keeps
    | with_reducible apply Keeps.ite

theorem State.armTap_keeps {r0 : State} {s : State} {n : Nat} {unit : Nat} (hk : Keeps r0 s) : Keeps r0
    (State.armTap s n unit) := by
  unfold State.armTap
  try dsimp only
  repeat' first
    | with_reducible assumption
    | intro _
    | with_reducible apply State.event_keeps
    | with_reducible apply State.setFld_keeps
    | with_reducible apply State.modCvu_keeps
    | with_reducible apply Keeps.ite

theorem State.cvuReset_keeps {r0 : State} {s : State} {n : Nat} {owner : Nat} (hk : Keeps r0 s) : Keeps r0
    (State.cvuReset s n owner) := by
  unfold State.cvuReset
  extract_lets a0 a1
  have k0 : Keeps r0 a0
  on_goal 1 => unfold a0
  rotate_left
  clear_value a0
  have k1 : Keeps r0 a1
  on_goal 1 => unfold a1
  rotate_left
  clear_value a1
  all_goals repeat' first
    | with_reducible assumption
    | intro _
    | with_reducible apply State.cvuAbort_keeps
    | with_reducible apply State.setReg_keeps
    | with_reducible apply State.setFld_keeps
    | with_reducible apply State.modCvu_keeps
    | with_reducible apply Keeps.ite
    | with_reducible apply Keeps.foldl

theorem State.syncCvus_keeps {r0 : State} {s : State} (hk : Keeps r0 s) : Keeps r0 (State.syncCvus s) := by
  unfold State.syncCvus
  try dsimp only
  repeat' first
    | with_reducible assumption
    | intro _
    | with_reducible apply State.cvuReset_keeps
    | with_reducible apply Keeps.ite
    | with_reducible apply Keeps.foldl

theorem State.cvuCompute_keeps {r0 : State} {s : State} {n : Nat} {bytes : List Byte} (hk : Keeps r0 s) : Keeps r0
    (State.cvuCompute s n bytes) := by
  unfold State.cvuCompute
  extract_lets a0 a1 a2 a3 a4
  try clear_value a0
  try clear_value a1
  try clear_value a2
  try clear_value a3
  have k4 : Keeps r0 a4
  on_goal 1 => unfold a4
  rotate_left
  clear_value a4
  all_goals repeat' first
    | with_reducible assumption
    | intro _
    | with_reducible apply State.setReg_keeps
    | with_reducible apply State.modCvu_keeps

theorem State.cvuJudge_keeps {r0 : State} {s : State} {n : Nat} {short : Bool} (hk : Keeps r0 s) : Keeps r0
    (State.cvuJudge s n short) := by
  unfold State.cvuJudge
  extract_lets a0 a1 a2 a3 a4 a5
  try clear_value a0
  try clear_value a1
  try clear_value a2
  try clear_value a3
  try clear_value a4
  have k5 : Keeps r0 a5
  on_goal 1 => unfold a5
  rotate_left
  clear_value a5
  all_goals repeat' first
    | with_reducible assumption
    | intro _
    | with_reducible apply State.cvuEnd_keeps
    | with_reducible apply State.log_keeps
    | with_reducible apply State.doubt_keeps
    | with_reducible apply Keeps.ite

theorem State.tapAbort_keeps {r0 : State} {s : State} {unit : Nat} {domain : Nat} {slot : Nat} (hk : Keeps r0 s) : Keeps r0
    (State.tapAbort s unit domain slot) := by
  unfold State.tapAbort
  try dsimp only
  repeat' first
    | with_reducible assumption
    | intro _
    | with_reducible apply State.cvuEnd_keeps
    | with_reducible apply Keeps.ite
    | with_reducible apply Keeps.foldl
    | with_reducible apply Keeps.foldlFst
    | fail_if_no_progress with_reducible apply Keeps.upd
    | split

theorem State.tapStream_keeps {r0 : State} {s : State} {unit : Nat} {domain : Nat} {slot : Nat} {bytes : List Byte} (hk
    : Keeps r0 s) : Keeps r0 (State.tapStream s unit domain slot bytes) := by
  unfold State.tapStream
  try dsimp only
  repeat' first
    | with_reducible assumption
    | intro _
    | with_reducible apply State.modCvu_keeps
    | with_reducible apply State.setFld_keeps
    | with_reducible apply Keeps.ite
    | with_reducible apply Keeps.foldl
    | with_reducible apply Keeps.foldlFst
    | fail_if_no_progress with_reducible apply Keeps.upd
    | split

/-! ### Machine/SceneOps.lean -/

theorem State.phase_keeps {r0 : State} {s : State} {p : Nat} (hk : Keeps r0 s) : Keeps r0 (State.phase s p) := by
  unfold State.phase
  try dsimp only
  repeat' first
    | with_reducible assumption
    | intro _
    | with_reducible apply State.setFld_keeps

theorem State.baseHandover_keeps {r0 : State} {s : State} (hk : Keeps r0 s) : Keeps r0 (State.baseHandover s) := by
  unfold State.baseHandover
  try dsimp only
  repeat' first
    | with_reducible assumption
    | intro _
    | with_reducible apply State.selectEmber_keeps
    | with_reducible apply State.setFlag_keeps

theorem State.promoteStreams_keeps {r0 : State} {s : State} {ss : List Nat} (hk : Keeps r0 s) : Keeps r0
    (State.promoteStreams s ss) := by
  unfold State.promoteStreams
  try dsimp only
  repeat' first
    | with_reducible assumption
    | intro _
    | with_reducible apply State.event_keeps
    | with_reducible apply State.setFlag_keeps
    | with_reducible apply State.modCam_keeps
    | with_reducible apply Keeps.ite
    | with_reducible apply Keeps.foldl

theorem State.makeOutgoing_keeps {r0 : State} {s : State} {ids : List Nat} (hk : Keeps r0 s) : Keeps r0
    (State.makeOutgoing s ids) := by
  unfold State.makeOutgoing
  extract_lets a0 a1 a2 a3 a4 a5 a6 a7 a8 a9 a10
  try clear_value a0
  try clear_value a1
  have k2 : Keeps r0 a2
  on_goal 1 => unfold a2
  rotate_left
  clear_value a2
  try clear_value a3
  have k4 : Keeps r0 a4
  on_goal 1 => unfold a4
  rotate_left
  clear_value a4
  try clear_value a5
  have k6 : Keeps r0 a6
  on_goal 1 => unfold a6
  rotate_left
  clear_value a6
  try clear_value a7
  have k8 : Keeps r0 a8
  on_goal 1 => unfold a8
  rotate_left
  clear_value a8
  try clear_value a9
  have k10 : Keeps r0 a10
  on_goal 1 => unfold a10
  rotate_left
  clear_value a10
  all_goals repeat' first
    | with_reducible assumption
    | intro _
    | with_reducible apply State.cvuAbort_keeps
    | with_reducible apply State.unbindStream_keeps
    | with_reducible apply State.cancel_keeps
    | with_reducible apply State.phase_keeps
    | with_reducible apply Keeps.ite
    | with_reducible apply Keeps.foldl
    | with_reducible apply Keeps.foldlFst
    | fail_if_no_progress with_reducible apply Keeps.upd

theorem State.requestPower_keeps {r0 : State} {s : State} {code : Nat} (hk : Keeps r0 s) : Keeps r0
    (State.requestPower s code) := by
  unfold State.requestPower
  try dsimp only
  repeat' first
    | with_reducible assumption
    | intro _
    | with_reducible apply Keeps.ite
    | with_reducible apply Keeps.foldl
    | with_reducible apply Keeps.foldlFst
    | fail_if_no_progress with_reducible apply Keeps.upd

theorem State.dropHold_keeps {r0 : State} {s : State} {code : Nat} (hk : Keeps r0 s) : Keeps r0 (State.dropHold s code) := by
  unfold State.dropHold
  try dsimp only
  repeat' first
    | with_reducible assumption
    | intro _
    | with_reducible apply State.modUnit_keeps

theorem State.syncCoverage_keeps {r0 : State} {s : State} {start : Nat} (hk : Keeps r0 s) : Keeps r0
    (State.syncCoverage s start) := by
  unfold State.syncCoverage
  extract_lets a0 a1 a2 a3 a4 a5 a6 a7 a8
  try clear_value a0
  try clear_value a1
  try clear_value a2
  have k3 : Keeps r0 a3
  on_goal 1 => unfold a3
  rotate_left
  clear_value a3
  try clear_value a4
  have k5 : Keeps r0 a5
  on_goal 1 => unfold a5
  rotate_left
  clear_value a5
  try clear_value a6
  try clear_value a7
  try clear_value a8
  all_goals repeat' first
    | with_reducible assumption
    | intro _
    | with_reducible apply State.dropHold_keeps
    | with_reducible apply Keeps.ite
    | with_reducible apply Keeps.foldl
    | with_reducible apply Keeps.foldlFst
    | fail_if_no_progress with_reducible apply Keeps.upd

theorem State.accept_keeps {r0 : State} {s : State} {target : Nat} {cause : Nat} {strip : Option (List Nat)}
    {promote : List Nat} (hk : Keeps r0 s) : Keeps r0 (State.accept s target cause strip promote) := by
  unfold State.accept
  extract_lets a0 a1 a2 a3 a4 a5 a6 a7 a8 a9 a10 a11 a12 a13
  try clear_value a0
  try clear_value a1
  try clear_value a2
  try clear_value a3
  try clear_value a4
  try clear_value a5
  have k6 : Keeps r0 a6
  on_goal 1 => unfold a6
  rotate_left
  clear_value a6
  try clear_value a7
  try clear_value a8
  have k9 : Keeps r0 a9
  on_goal 1 => unfold a9
  rotate_left
  clear_value a9
  have k10 : Keeps r0 a10
  on_goal 1 => unfold a10
  rotate_left
  clear_value a10
  have k11 : Keeps r0 a11
  on_goal 1 => unfold a11
  rotate_left
  clear_value a11
  have k12 : Keeps r0 a12
  on_goal 1 => unfold a12
  rotate_left
  clear_value a12
  have k13 : Keeps r0 a13
  on_goal 1 => unfold a13
  rotate_left
  clear_value a13
  all_goals repeat' first
    | with_reducible assumption
    | intro _
    | with_reducible apply State.log_keeps
    | with_reducible apply State.phase_keeps
    | with_reducible apply State.setFld_keeps
    | with_reducible apply State.baseHandover_keeps
    | with_reducible apply State.promoteStreams_keeps
    | with_reducible apply State.makeOutgoing_keeps
    | with_reducible apply State.requestPower_keeps
    | with_reducible apply State.syncCoverage_keeps
    | with_reducible apply Keeps.ite
    | with_reducible apply Keeps.foldl
    | with_reducible apply Keeps.foldlFst
    | fail_if_no_progress with_reducible apply Keeps.upd

theorem State.actOn_keeps {r0 : State} {s : State} {l : List TrigRec} (hk : Keeps r0 s) : Keeps r0 (State.actOn s l) := by
  unfold State.actOn
  try dsimp only
  repeat' first
    | with_reducible assumption
    | intro _
    | with_reducible apply State.accept_keeps
    | with_reducible apply Keeps.ite
    | with_reducible apply Keeps.foldl
    | with_reducible apply Keeps.foldlFst
    | fail_if_no_progress with_reducible apply Keeps.upd
    | split

theorem State.evalTriggers_keeps {r0 : State} {s : State} {kind : Nat} {source : Nat} (hk : Keeps r0 s) : Keeps r0
    (State.evalTriggers s kind source) := by
  unfold State.evalTriggers
  try dsimp only
  repeat' first
    | with_reducible assumption
    | intro _
    | with_reducible apply State.actOn_keeps
    | with_reducible apply Keeps.ite

theorem State.addCinder_keeps {r0 : State} {s : State} {base : Nat} {size : Nat} {forLayer : Option Nat} (hk : Keeps r0 s)
    : Keeps r0 (State.addCinder s base size forLayer) := by
  unfold State.addCinder
  try dsimp only
  repeat' first
    | with_reducible assumption
    | intro _
    | with_reducible apply Keeps.ite
    | with_reducible apply Keeps.foldl
    | with_reducible apply Keeps.foldlFst
    | fail_if_no_progress with_reducible apply Keeps.upd

theorem State.loadWindows_keeps {r0 : State} {s : State} {n : Nat} {ws : List (Nat × Nat × Bool × Bool)} (hk : Keeps r0 s)
    : Keeps r0 (State.loadWindows s n ws) := by
  unfold State.loadWindows
  try dsimp only
  repeat' first
    | with_reducible assumption
    | intro _
    | with_reducible apply State.setReg_keeps
    | with_reducible apply Keeps.ite
    | with_reducible apply Keeps.foldl
    | with_reducible apply Keeps.foldlFst
    | fail_if_no_progress with_reducible apply Keeps.upd
    | split

theorem State.ringCredit_keeps {r0 : State} {s : State} {l : LayerRec} {rc : RingRec} {pr : Producer} (hk : Keeps r0 s)
    : Keeps r0 (State.ringCredit s l rc pr) := by
  unfold State.ringCredit
  try dsimp only
  repeat' first
    | with_reducible assumption
    | intro _
    | with_reducible apply State.setFld_keeps
    | with_reducible apply State.setFlag_keeps
    | with_reducible apply State.setReg_keeps
    | with_reducible apply Keeps.ite
    | with_reducible apply Keeps.foldl
    | with_reducible apply Keeps.foldlFst
    | fail_if_no_progress with_reducible apply Keeps.upd
    | split

theorem State.bindLayer_keeps {r0 : State} {s : State} {l : LayerRec} {periodNs : Nat} (hk : Keeps r0 s) : Keeps r0
    (State.bindLayer s l periodNs) := by
  unfold State.bindLayer
  extract_lets a0 a1 a2 a3 a4 a5 a6 a7 a8 a9 a10 a11
  try clear_value a0
  try clear_value a1
  try clear_value a2
  try clear_value a3
  try clear_value a4
  try clear_value a5
  try clear_value a6
  have k7 : Keeps r0 a7
  on_goal 1 => unfold a7
  rotate_left
  clear_value a7
  have k8 : Keeps r0 a8
  on_goal 1 => unfold a8
  rotate_left
  clear_value a8
  try clear_value a9
  have k10 : Keeps r0 a10
  on_goal 1 => unfold a10
  rotate_left
  clear_value a10
  have k11 : Keeps r0 a11
  on_goal 1 => unfold a11
  rotate_left
  clear_value a11
  all_goals repeat' first
    | with_reducible assumption
    | intro _
    | with_reducible apply State.setFlagWord_keeps
    | with_reducible apply State.loadWindows_keeps
    | with_reducible apply State.ringCredit_keeps
    | with_reducible apply State.syncCvus_keeps
    | with_reducible apply State.noteHwm_keeps
    | with_reducible apply State.loadBank_keeps
    | with_reducible apply Keeps.ite
    | with_reducible apply Keeps.foldl
    | with_reducible apply Keeps.foldlFst
    | fail_if_no_progress with_reducible apply Keeps.upd

theorem State.openLayer_keeps {r0 : State} {s : State} {id : Nat} (hk : Keeps r0 s) : Keeps r0 (State.openLayer s id) := by
  unfold State.openLayer
  try dsimp only
  repeat' first
    | with_reducible assumption
    | intro _
    | with_reducible apply State.openStream_keeps
    | with_reducible apply Keeps.ite
    | with_reducible apply Keeps.foldl
    | with_reducible apply Keeps.foldlFst
    | fail_if_no_progress with_reducible apply Keeps.upd
    | split

theorem State.removeLayer_keeps {r0 : State} {s : State} {id : Nat} (hk : Keeps r0 s) : Keeps r0 (State.removeLayer s id) := by
  unfold State.removeLayer
  try dsimp only
  repeat' first
    | with_reducible assumption
    | intro _
    | with_reducible apply Keeps.ite
    | with_reducible apply Keeps.foldl
    | with_reducible apply Keeps.foldlFst
    | fail_if_no_progress with_reducible apply Keeps.upd

theorem State.modSwitch_keeps {r0 : State} {s : State} {f : Switch → Switch} (hk : Keeps r0 s) : Keeps r0
    (State.modSwitch s f) := by
  unfold State.modSwitch
  try dsimp only
  repeat' first
    | with_reducible assumption
    | intro _
    | with_reducible apply Keeps.ite
    | with_reducible apply Keeps.foldl
    | with_reducible apply Keeps.foldlFst
    | fail_if_no_progress with_reducible apply Keeps.upd

theorem State.cinderLayer_keeps {r0 : State} {s : State} {sw : Switch} {l : LayerRec} (hk : Keeps r0 s) : Keeps r0
    (State.cinderLayer s sw l) := by
  unfold State.cinderLayer
  extract_lets a0 a1 a2 a3
  try clear_value a0
  try clear_value a1
  have k2 : Keeps r0 a2
  on_goal 1 => unfold a2
  rotate_left
  clear_value a2
  have k3 : Keeps r0 a3
  on_goal 1 => unfold a3
  rotate_left
  clear_value a3
  all_goals repeat' first
    | with_reducible assumption
    | intro _
    | with_reducible apply State.syncCvus_keeps
    | with_reducible apply State.removeLayer_keeps
    | with_reducible apply State.addCinder_keeps
    | with_reducible apply State.phase_keeps
    | with_reducible apply State.modSwitch_keeps
    | with_reducible apply Keeps.ite
    | with_reducible apply Keeps.foldl

theorem State.enterCinder_keeps {r0 : State} {s : State} {base : Nat} (hk : Keeps r0 s) : Keeps r0
    (State.enterCinder s base) := by
  unfold State.enterCinder
  try dsimp only
  repeat' first
    | with_reducible assumption
    | intro _
    | with_reducible apply State.wcInvalidate_keeps
    | with_reducible apply Keeps.ite
    | with_reducible apply Keeps.foldl
    | with_reducible apply Keeps.foldlFst
    | fail_if_no_progress with_reducible apply Keeps.upd
    | split

theorem State.cinderNow_keeps {r0 : State} {s : State} {base : Nat} {size : Nat} (hk : Keeps r0 s) : Keeps r0
    (State.cinderNow s base size) := by
  unfold State.cinderNow
  try dsimp only
  repeat' first
    | with_reducible assumption
    | intro _
    | with_reducible apply State.enterCinder_keeps
    | with_reducible apply State.addCinder_keeps

theorem State.dropWork_keeps {r0 : State} {s : State} {code : Nat} (hk : Keeps r0 s) : Keeps r0 (State.dropWork s code) := by
  unfold State.dropWork
  try dsimp only
  repeat' first
    | with_reducible assumption
    | intro _
    | with_reducible apply State.cancelNow_keeps
    | with_reducible apply State.modInst_keeps
    | with_reducible apply State.dropOffer_keeps
    | with_reducible apply State.completeSource_keeps
    | with_reducible apply State.modCore_keeps
    | with_reducible apply State.setReg_keeps
    | with_reducible apply State.setFld_keeps
    | with_reducible apply Keeps.ite
    | with_reducible apply Keeps.foldl
    | with_reducible apply Keeps.foldlFst
    | fail_if_no_progress with_reducible apply Keeps.upd
    | split

theorem State.setDomain_keeps {r0 : State} {s : State} {on : Bool} {d : Nat} (hk : Keeps r0 s) : Keeps r0
    (State.setDomain s on d) := by
  unfold State.setDomain
  try dsimp only
  repeat' first
    | with_reducible assumption
    | intro _
    | with_reducible apply State.setFlag_keeps

theorem State.gateUnit_keeps {r0 : State} {s : State} {code : Nat} (hk : Keeps r0 s) : Keeps r0 (State.gateUnit s code) := by
  unfold State.gateUnit
  try dsimp only
  repeat' first
    | with_reducible assumption
    | intro _
    | with_reducible apply State.modUnit_keeps
    | with_reducible apply State.setDomain_keeps
    | with_reducible apply Keeps.ite
    | with_reducible apply Keeps.foldl

theorem State.selectScene_keeps {r0 : State} {s : State} {code : Nat} (hk : Keeps r0 s) : Keeps r0
    (State.selectScene s code) := by
  unfold State.selectScene
  try dsimp only
  repeat' first
    | with_reducible assumption
    | intro _
    | with_reducible apply State.accept_keeps
    | with_reducible apply State.severe_keeps
    | with_reducible apply Keeps.ite
    | with_reducible apply Keeps.foldl
    | with_reducible apply Keeps.foldlFst
    | fail_if_no_progress with_reducible apply Keeps.upd
    | split

theorem State.redirect_keeps {r0 : State} {s : State} {v : Nat} (hk : Keeps r0 s) : Keeps r0 (State.redirect s v) := by
  unfold State.redirect
  try dsimp only
  repeat' first
    | with_reducible assumption
    | intro _
    | with_reducible apply State.modSwitch_keeps
    | with_reducible apply State.setFld_keeps
    | with_reducible apply State.baseHandover_keeps
    | with_reducible apply State.makeOutgoing_keeps
    | with_reducible apply State.requestPower_keeps
    | with_reducible apply State.syncCoverage_keeps
    | with_reducible apply Keeps.ite
    | with_reducible apply Keeps.foldl
    | with_reducible apply Keeps.foldlFst
    | fail_if_no_progress with_reducible apply Keeps.upd
    | split

theorem State.fenceScene_keeps {r0 : State} {s : State} {code : Nat} (hk : Keeps r0 s) : Keeps r0
    (State.fenceScene s code) := by
  unfold State.fenceScene
  extract_lets a0 a1 a2
  try clear_value a0
  have k1 : Keeps r0 a1
  on_goal 1 => unfold a1
  rotate_left
  clear_value a1
  try clear_value a2
  all_goals repeat' first
    | with_reducible assumption
    | intro _
    | with_reducible apply State.selectScene_keeps
    | with_reducible apply State.redirect_keeps
    | with_reducible apply Keeps.ite
    | with_reducible apply Keeps.foldl
    | with_reducible apply Keeps.foldlFst
    | fail_if_no_progress with_reducible apply Keeps.upd
    | split

theorem State.emptyStaging_keeps {r0 : State} {s : State} (hk : Keeps r0 s) : Keeps r0 (State.emptyStaging s) := by
  unfold State.emptyStaging
  try dsimp only
  repeat' first
    | with_reducible assumption
    | intro _
    | with_reducible apply State.setFlagWord_keeps
    | with_reducible apply Keeps.ite
    | with_reducible apply Keeps.foldl

theorem State.fenceMc_keeps {r0 : State} {s : State} {n : Nat} (hk : Keeps r0 s) : Keeps r0 (State.fenceMc s n) := by
  unfold State.fenceMc
  extract_lets a0 a1 a2 a3 a4 a5 a6 a7
  have k0 : Keeps r0 a0
  on_goal 1 => unfold a0
  rotate_left
  clear_value a0
  have k1 : Keeps r0 a1
  on_goal 1 => unfold a1
  rotate_left
  clear_value a1
  try clear_value a2
  try clear_value a3
  have k4 : Keeps r0 a4
  on_goal 1 => unfold a4
  rotate_left
  clear_value a4
  have k5 : Keeps r0 a5
  on_goal 1 => unfold a5
  rotate_left
  clear_value a5
  try clear_value a6
  have k7 : Keeps r0 a7
  on_goal 1 => unfold a7
  rotate_left
  clear_value a7
  all_goals repeat' first
    | with_reducible assumption
    | intro _
    | with_reducible apply State.setFld_keeps
    | with_reducible apply State.emptyStaging_keeps
    | with_reducible apply State.cinderNow_keeps
    | with_reducible apply State.severe_keeps
    | with_reducible apply Keeps.ite
    | with_reducible apply Keeps.foldl
    | with_reducible apply Keeps.foldlFst
    | fail_if_no_progress with_reducible apply Keeps.upd

theorem State.fenceBlock_keeps {r0 : State} {s : State} {code : Nat} (hk : Keeps r0 s) : Keeps r0
    (State.fenceBlock s code) := by
  unfold State.fenceBlock
  extract_lets a0 a1 a2 a3
  try clear_value a0
  have k1 : Keeps r0 a1
  on_goal 1 => unfold a1
  rotate_left
  clear_value a1
  try clear_value a2
  have k3 : Keeps r0 a3
  on_goal 1 => unfold a3
  rotate_left
  clear_value a3
  all_goals repeat' first
    | with_reducible assumption
    | intro _
    | with_reducible apply State.setFld_keeps
    | with_reducible apply State.markAbsent_keeps
    | with_reducible apply State.stopPipeWork_keeps
    | with_reducible apply State.showPipe_keeps
    | with_reducible apply State.modPipe_keeps
    | with_reducible apply State.cinderNow_keeps
    | with_reducible apply State.severe_keeps
    | with_reducible apply State.fenceMc_keeps
    | with_reducible apply State.refreshActive_keeps
    | with_reducible apply State.failLink_keeps
    | with_reducible apply State.cvuAbort_keeps
    | with_reducible apply Keeps.ite
    | with_reducible apply Keeps.foldl
    | with_reducible apply Keeps.foldlFst
    | fail_if_no_progress with_reducible apply Keeps.upd
    | split

theorem State.fence_keeps {r0 : State} {s : State} {code : Nat} {cause : Nat} (hk : Keeps r0 s) : Keeps r0
    (State.fence s code cause) := by
  unfold State.fence
  extract_lets a0 a1 a2 a3 a4 a5 a6 a7 a8 a9
  try clear_value a0
  have k1 : Keeps r0 a1
  on_goal 1 => unfold a1
  rotate_left
  clear_value a1
  try clear_value a2
  have k3 : Keeps r0 a3
  on_goal 1 => unfold a3
  rotate_left
  clear_value a3
  have k4 : Keeps r0 a4
  on_goal 1 => unfold a4
  rotate_left
  clear_value a4
  have k5 : Keeps r0 a5
  on_goal 1 => unfold a5
  rotate_left
  clear_value a5
  have k6 : Keeps r0 a6
  on_goal 1 => unfold a6
  rotate_left
  clear_value a6
  try clear_value a7
  try clear_value a8
  have k9 : Keeps r0 a9
  on_goal 1 => unfold a9
  rotate_left
  clear_value a9
  all_goals repeat' first
    | with_reducible assumption
    | intro _
    | with_reducible apply State.dropWork_keeps
    | with_reducible apply State.setUnit_keeps
    | with_reducible apply State.event_keeps
    | with_reducible apply State.gateUnit_keeps
    | with_reducible apply State.log_keeps
    | with_reducible apply State.addFld_keeps
    | with_reducible apply State.fenceScene_keeps
    | with_reducible apply State.fenceBlock_keeps
    | with_reducible apply State.dropMaint_keeps
    | with_reducible apply Keeps.ite
    | with_reducible apply Keeps.foldl
    | with_reducible apply Keeps.foldlFst
    | fail_if_no_progress with_reducible apply Keeps.upd

theorem State.recur_keeps {r0 : State} {s : State} {code : Nat} {event : Nat} (hk : Keeps r0 s) : Keeps r0
    (State.recur s code event) := by
  unfold State.recur
  extract_lets a0 a1 a2 a3
  try clear_value a0
  try clear_value a1
  try clear_value a2
  have k3 : Keeps r0 a3
  on_goal 1 => unfold a3
  rotate_left
  clear_value a3
  all_goals repeat' first
    | with_reducible assumption
    | intro _
    | with_reducible apply State.log_keeps
    | with_reducible apply State.setUnit_keeps
    | with_reducible apply State.fence_keeps
    | with_reducible apply Keeps.ite

theorem State.keepCe_keeps {r0 : State} {s : State} {code : Nat} {n : Nat} (hk : Keeps r0 s) : Keeps r0
    (State.keepCe s code n) := by
  unfold State.keepCe
  try dsimp only
  repeat' first
    | with_reducible assumption
    | intro _
    | with_reducible apply State.recur_keeps
    | with_reducible apply Keeps.ite
    | with_reducible apply Keeps.foldl
    | with_reducible apply Keeps.foldlFst
    | fail_if_no_progress with_reducible apply Keeps.upd

theorem State.gateUnbound_keeps {r0 : State} {s : State} (hk : Keeps r0 s) : Keeps r0 (State.gateUnbound s) := by
  unfold State.gateUnbound
  try dsimp only
  repeat' first
    | with_reducible assumption
    | intro _
    | with_reducible apply State.requestPower_keeps
    | with_reducible apply State.gateUnit_keeps
    | with_reducible apply Keeps.ite
    | with_reducible apply Keeps.foldl

theorem State.takeover_keeps {r0 : State} {s : State} {partner : Nat} (hk : Keeps r0 s) : Keeps r0
    (State.takeover s partner) := by
  unfold State.takeover
  try dsimp only
  repeat' first
    | with_reducible assumption
    | intro _
    | with_reducible apply State.promoteStreams_keeps
    | with_reducible apply State.accept_keeps
    | with_reducible apply State.selectScene_keeps
    | with_reducible apply Keeps.ite
    | with_reducible apply Keeps.foldl
    | with_reducible apply Keeps.foldlFst
    | fail_if_no_progress with_reducible apply Keeps.upd
    | split

theorem State.setService_keeps {r0 : State} {s : State} {on : Bool} (hk : Keeps r0 s) : Keeps r0 (State.setService s on) := by
  unfold State.setService
  try dsimp only
  repeat' first
    | with_reducible assumption
    | intro _
    | with_reducible apply State.setFlag_keeps
    | with_reducible apply Keeps.ite
    | with_reducible apply Keeps.foldl

theorem State.recheckOne_keeps {r0 : State} {s : State} {code : Nat} (hk : Keeps r0 s) : Keeps r0
    (State.recheckOne s code) := by
  unfold State.recheckOne
  try dsimp only
  repeat' first
    | with_reducible assumption
    | intro _
    | with_reducible apply State.takeover_keeps
    | with_reducible apply State.selectScene_keeps
    | with_reducible apply Keeps.ite
    | with_reducible apply Keeps.foldl
    | with_reducible apply Keeps.foldlFst
    | fail_if_no_progress with_reducible apply Keeps.upd

theorem State.openSwitch_keeps {r0 : State} {s : State} {sw : Switch} (hk : Keeps r0 s) : Keeps r0 (State.openSwitch s sw) := by
  unfold State.openSwitch
  extract_lets a0 a1 a2 a3 a4 a5 a6 a7 a8 a9 a10 a11 a12 a13 a14 a15 a16 a17 a18
  try clear_value a0
  have k1 : Keeps r0 a1
  on_goal 1 => unfold a1
  rotate_left
  clear_value a1
  try clear_value a2
  have k3 : Keeps r0 a3
  on_goal 1 => unfold a3
  rotate_left
  clear_value a3
  try clear_value a4
  try clear_value a5
  try clear_value a6
  have k7 : Keeps r0 a7
  on_goal 1 => unfold a7
  rotate_left
  clear_value a7
  have k8 : Keeps r0 a8
  on_goal 1 => unfold a8
  rotate_left
  clear_value a8
  try clear_value a9
  have k10 : Keeps r0 a10
  on_goal 1 => unfold a10
  rotate_left
  clear_value a10
  have k11 : Keeps r0 a11
  on_goal 1 => unfold a11
  rotate_left
  clear_value a11
  have k12 : Keeps r0 a12
  on_goal 1 => unfold a12
  rotate_left
  clear_value a12
  have k13 : Keeps r0 a13
  on_goal 1 => unfold a13
  rotate_left
  clear_value a13
  have k14 : Keeps r0 a14
  on_goal 1 => unfold a14
  rotate_left
  clear_value a14
  have k15 : Keeps r0 a15
  on_goal 1 => unfold a15
  rotate_left
  clear_value a15
  try clear_value a16
  try clear_value a17
  have k18 : Keeps r0 a18
  on_goal 1 => unfold a18
  rotate_left
  clear_value a18
  all_goals repeat' first
    | with_reducible assumption
    | intro _
    | with_reducible apply State.openLayer_keeps
    | with_reducible apply State.phase_keeps
    | with_reducible apply State.addFld_keeps
    | with_reducible apply State.setFld_keeps
    | with_reducible apply State.setFlag_keeps
    | with_reducible apply State.log_keeps
    | with_reducible apply State.startCounts_keeps
    | with_reducible apply State.setService_keeps
    | with_reducible apply State.syncCoverage_keeps
    | with_reducible apply State.gateUnbound_keeps
    | with_reducible apply State.recheckOne_keeps
    | with_reducible apply State.actOn_keeps
    | with_reducible apply Keeps.ite
    | with_reducible apply Keeps.foldl
    | with_reducible apply Keeps.foldlFst
    | fail_if_no_progress with_reducible apply Keeps.upd
    | split

/-! ### Machine/StepOps.lean -/

theorem State.modCover_keeps {r0 : State} {s : State} {unit : Nat} {f : CoverSt → CoverSt} (hk : Keeps r0 s) : Keeps r0
    (State.modCover s unit f) := by
  unfold State.modCover
  try dsimp only
  repeat' first
    | with_reducible assumption
    | intro _
    | with_reducible apply Keeps.ite
    | with_reducible apply Keeps.foldl
    | with_reducible apply Keeps.foldlFst
    | fail_if_no_progress with_reducible apply Keeps.upd

theorem State.armTinder_keeps {r0 : State} {s : State} {n : Nat} {unit : Nat} {e : ExpRec} {job : Option Nat} (hk
    : Keeps r0 s) : Keeps r0 (State.armTinder s n unit e job) := by
  unfold State.armTinder
  extract_lets a0 a1 a2 a3
  try clear_value a0
  have k1 : Keeps r0 a1
  on_goal 1 => unfold a1
  rotate_left
  clear_value a1
  have k2 : Keeps r0 a2
  on_goal 1 => unfold a2
  rotate_left
  clear_value a2
  have k3 : Keeps r0 a3
  on_goal 1 => unfold a3
  rotate_left
  clear_value a3
  all_goals repeat' first
    | with_reducible assumption
    | intro _
    | with_reducible apply State.setFld_keeps
    | with_reducible apply State.setFlag_keeps
    | with_reducible apply State.setReg_keeps
    | with_reducible apply State.modCover_keeps
    | with_reducible apply State.modCvu_keeps
    | with_reducible apply State.armTap_keeps

theorem State.beginStep_keeps {r0 : State} {s : State} {c : StepCtx} (hk : Keeps r0 s) : Keeps r0 (State.beginStep s c) := by
  unfold State.beginStep
  extract_lets a0 a1 a2
  have k0 : Keeps r0 a0
  on_goal 1 => unfold a0
  rotate_left
  clear_value a0
  try clear_value a1
  have k2 : Keeps r0 a2
  on_goal 1 => unfold a2
  rotate_left
  clear_value a2
  all_goals repeat' first
    | with_reducible assumption
    | intro _
    | with_reducible apply State.modInst_keeps
    | with_reducible apply State.setFld_keeps
    | with_reducible apply Keeps.ite
    | with_reducible apply Keeps.foldl
    | with_reducible apply Keeps.foldlFst
    | fail_if_no_progress with_reducible apply Keeps.upd
    | split

theorem State.showStep_keeps {r0 : State} {s : State} {unit : Nat} {domain : Nat} {node : Nat} {tile : Nat} (hk : Keeps r0 s)
    : Keeps r0 (State.showStep s unit domain node tile) := by
  unfold State.showStep
  extract_lets a0 a1
  try clear_value a0
  have k1 : Keeps r0 a1
  on_goal 1 => unfold a1
  rotate_left
  clear_value a1
  all_goals repeat' first
    | with_reducible assumption
    | intro _
    | with_reducible apply State.setFld_keeps
    | with_reducible apply Keeps.ite

theorem State.dropCarry_keeps {r0 : State} {s : State} {unit : Nat} (hk : Keeps r0 s) : Keeps r0 (State.dropCarry s unit) := by
  unfold State.dropCarry
  try dsimp only
  repeat' first
    | with_reducible assumption
    | intro _
    | with_reducible apply Keeps.ite
    | with_reducible apply Keeps.foldl
    | with_reducible apply Keeps.foldlFst
    | fail_if_no_progress with_reducible apply Keeps.upd

theorem State.dropStores_keeps {r0 : State} {s : State} {c : StepCtx} {n : Nat} (hk : Keeps r0 s) : Keeps r0
    (State.dropStores s c n) := by
  unfold State.dropStores
  extract_lets a0
  have k0 : Keeps r0 a0
  on_goal 1 => unfold a0
  rotate_left
  clear_value a0
  all_goals repeat' first
    | with_reducible assumption
    | intro _
    | with_reducible apply State.addCnt_keeps
    | with_reducible apply State.event_keeps
    | with_reducible apply Keeps.ite
    | with_reducible apply Keeps.foldl
    | with_reducible apply Keeps.foldlFst
    | fail_if_no_progress with_reducible apply Keeps.upd
    | split

theorem State.eccCorrected_keeps {r0 : State} {s : State} {a : Nat} (hk : Keeps r0 s) : Keeps r0 (State.eccCorrected s a) := by
  unfold State.eccCorrected
  extract_lets a0 a1 a2 a3 a4 a5
  have k0 : Keeps r0 a0
  on_goal 1 => unfold a0
  rotate_left
  clear_value a0
  try clear_value a1
  have k2 : Keeps r0 a2
  on_goal 1 => unfold a2
  rotate_left
  clear_value a2
  try clear_value a3
  try clear_value a4
  have k5 : Keeps r0 a5
  on_goal 1 => unfold a5
  rotate_left
  clear_value a5
  all_goals repeat' first
    | with_reducible assumption
    | intro _
    | with_reducible apply State.addCnt_keeps
    | with_reducible apply State.event_keeps
    | with_reducible apply State.keepCe_keeps
    | with_reducible apply Keeps.ite
    | with_reducible apply Keeps.foldl
    | with_reducible apply Keeps.foldlFst
    | fail_if_no_progress with_reducible apply Keeps.upd

theorem State.wantReload_keeps {r0 : State} {s : State} {a : Nat} (hk : Keeps r0 s) : Keeps r0 (State.wantReload s a) := by
  unfold State.wantReload
  try dsimp only
  repeat' first
    | with_reducible assumption
    | intro _
    | with_reducible apply Keeps.ite
    | with_reducible apply Keeps.foldl
    | with_reducible apply Keeps.foldlFst
    | fail_if_no_progress with_reducible apply Keeps.upd
    | split

theorem State.eccUncorrected_keeps {r0 : State} {s : State} {c : Issuer} {a : Nat} {seq : Word} (hk : Keeps r0 s) : Keeps r0
    (State.eccUncorrected s c a seq).1 := by
  unfold State.eccUncorrected
  extract_lets a0 a1 a2 a3 a4 a5 a6 a7 a8 a9 a10 a11 a12 a13 a14 a15 a16 a17
  try clear_value a0
  have k1 : Keeps r0 a1
  on_goal 1 => unfold a1
  rotate_left
  clear_value a1
  try clear_value a2
  have k3 : Keeps r0 a3
  on_goal 1 => unfold a3
  rotate_left
  clear_value a3
  have k4 : Keeps r0 a4
  on_goal 1 => unfold a4
  rotate_left
  clear_value a4
  have k5 : Keeps r0 a5
  on_goal 1 => unfold a5
  rotate_left
  clear_value a5
  try clear_value a6
  try clear_value a7
  have k8 : Keeps r0 a8
  on_goal 1 => unfold a8
  rotate_left
  clear_value a8
  have k9 : Keeps r0 a9
  on_goal 1 => unfold a9
  rotate_left
  clear_value a9
  try clear_value a10
  try clear_value a11
  try clear_value a12
  have k13 : Keeps r0 a13
  on_goal 1 => unfold a13
  rotate_left
  clear_value a13
  try clear_value a14
  have k15 : Keeps r0 a15
  on_goal 1 => unfold a15
  rotate_left
  clear_value a15
  have k16 : Keeps r0 a16
  on_goal 1 => unfold a16
  rotate_left
  clear_value a16
  have k17 : Keeps r0 a17
  on_goal 1 => unfold a17
  rotate_left
  clear_value a17
  all_goals repeat' first
    | with_reducible assumption
    | intro _
    | with_reducible apply State.addCnt_keeps
    | with_reducible apply State.event_keeps
    | with_reducible apply State.setFld_keeps
    | with_reducible apply State.setFlag_keeps
    | with_reducible apply State.log_keeps
    | with_reducible apply State.doubt_keeps
    | with_reducible apply State.fence_keeps
    | with_reducible apply State.setReg_keeps
    | with_reducible apply State.wantReload_keeps
    | with_reducible apply State.recur_keeps
    | with_reducible apply Keeps.ite
    | with_reducible apply Keeps.foldl
    | with_reducible apply Keeps.foldlFst
    | fail_if_no_progress with_reducible apply Keeps.upd
    | split

theorem State.eccHits_keeps {r0 : State} {s : State} {c : Issuer} {seq : Word} {hits : List EccHit} (hk : Keeps r0 s)
    : Keeps r0 (State.eccHits s c seq hits).1 := by
  unfold State.eccHits
  try dsimp only
  repeat' first
    | with_reducible assumption
    | intro _
    | with_reducible apply State.eccUncorrected_keeps
    | with_reducible apply State.eccCorrected_keeps
    | with_reducible apply Keeps.ite
    | with_reducible apply Keeps.foldl
    | with_reducible apply Keeps.foldlFst
    | fail_if_no_progress with_reducible apply Keeps.upd
    | split

theorem State.endByFault_keeps {r0 : State} {s : State} {c : StepCtx} (hk : Keeps r0 s) : Keeps r0 (State.endByFault s c) := by
  unfold State.endByFault
  extract_lets a0 a1
  have k0 : Keeps r0 a0
  on_goal 1 => unfold a0
  rotate_left
  clear_value a0
  have k1 : Keeps r0 a1
  on_goal 1 => unfold a1
  rotate_left
  clear_value a1
  all_goals repeat' first
    | with_reducible assumption
    | intro _
    | with_reducible apply State.tapAbort_keeps
    | with_reducible apply State.addCnt_keeps
    | with_reducible apply State.dropCarry_keeps
    | with_reducible apply State.endRemote_keeps
    | with_reducible apply State.modUnit_keeps
    | with_reducible apply State.cancelNow_keeps
    | with_reducible apply State.modInst_keeps
    | with_reducible apply State.modCover_keeps
    | with_reducible apply Keeps.ite
    | with_reducible apply Keeps.foldl
    | with_reducible apply Keeps.foldlFst
    | fail_if_no_progress with_reducible apply Keeps.upd
    | split

theorem State.patternParity_keeps {r0 : State} {s : State} {unit : Nat} (hk : Keeps r0 s) : Keeps r0
    (State.patternParity s unit) := by
  unfold State.patternParity
  extract_lets a0 a1 a2 a3
  try clear_value a0
  try clear_value a1
  have k2 : Keeps r0 a2
  on_goal 1 => unfold a2
  rotate_left
  clear_value a2
  have k3 : Keeps r0 a3
  on_goal 1 => unfold a3
  rotate_left
  clear_value a3
  all_goals repeat' first
    | with_reducible assumption
    | intro _
    | with_reducible apply State.recur_keeps
    | with_reducible apply State.fence_keeps
    | with_reducible apply Keeps.ite
    | with_reducible apply Keeps.foldl
    | with_reducible apply Keeps.foldlFst
    | fail_if_no_progress with_reducible apply Keeps.upd
    | split

theorem State.haltMover_keeps {r0 : State} {s : State} {unit : Nat} {addr : Nat} {write : Bool} (hk : Keeps r0 s) : Keeps r0
    (State.haltMover s unit addr write) := by
  unfold State.haltMover
  extract_lets a0 a1 a2
  try clear_value a0
  try clear_value a1
  have k2 : Keeps r0 a2
  on_goal 1 => unfold a2
  rotate_left
  clear_value a2
  all_goals repeat' first
    | with_reducible assumption
    | intro _
    | with_reducible apply State.setReg_keeps
    | with_reducible apply State.setFld_keeps
    | with_reducible apply State.setFlag_keeps

theorem State.stepFault_keeps {r0 : State} {s : State} {c : StepCtx} {f : StepFault} {addr : Nat} {write : Bool} (hk
    : Keeps r0 s) : Keeps r0 (State.stepFault s c f addr write) := by
  unfold State.stepFault
  extract_lets a0 a1 a2 a3 a4 a5 a6 a7 a8
  try clear_value a0
  have k1 : Keeps r0 a1
  on_goal 1 => unfold a1
  rotate_left
  clear_value a1
  try clear_value a2
  try clear_value a3
  have k4 : Keeps r0 a4
  on_goal 1 => unfold a4
  rotate_left
  clear_value a4
  have k5 : Keeps r0 a5
  on_goal 1 => unfold a5
  rotate_left
  clear_value a5
  have k6 : Keeps r0 a6
  on_goal 1 => unfold a6
  rotate_left
  clear_value a6
  have k8 : Keeps r0 a8
  on_goal 1 => unfold a8
  rotate_left
  clear_value a8
  all_goals repeat' first
    | with_reducible assumption
    | intro _
    | with_reducible apply State.event_keeps
    | with_reducible apply State.setFld_keeps
    | with_reducible apply State.log_keeps
    | with_reducible apply State.doubt_keeps
    | with_reducible apply State.recur_keeps
    | with_reducible apply State.patternParity_keeps
    | with_reducible apply State.haltMover_keeps
    | with_reducible apply State.endByFault_keeps
    | with_reducible apply Keeps.ite
    | with_reducible apply Keeps.foldl
    | with_reducible apply Keeps.foldlFst
    | fail_if_no_progress with_reducible apply Keeps.upd
    | split

theorem State.noteSpm_keeps {r0 : State} {s : State} {n : Nat} (hk : Keeps r0 s) : Keeps r0 (State.noteSpm s n).1 := by
  unfold State.noteSpm
  try dsimp only
  repeat' first
    | with_reducible assumption
    | intro _
    | with_reducible apply Keeps.ite
    | with_reducible apply Keeps.foldl
    | with_reducible apply Keeps.foldlFst
    | fail_if_no_progress with_reducible apply Keeps.upd

theorem State.spmRemote_keeps {r0 : State} {s : State} {a : Nat} (hk : Keeps r0 s) : Keeps r0 (State.spmRemote s a) := by
  unfold State.spmRemote
  try dsimp only
  repeat' first
    | with_reducible assumption
    | intro _
    | with_reducible apply State.noteSpm_keeps
    | with_reducible apply State.fence_keeps
    | with_reducible apply Keeps.ite
    | with_reducible apply Keeps.foldl
    | with_reducible apply Keeps.foldlFst
    | fail_if_no_progress with_reducible apply Keeps.upd
    | split
    | dsimp only
    | (with_reducible apply Keeps.of_fst; rotate_left; with_reducible assumption)

theorem State.meetErr_keeps {r0 : State} {s : State} {c : StepCtx} {e : StepErr} (hk : Keeps r0 s) : Keeps r0
    (State.meetErr s c e).1 := by
  unfold State.meetErr
  try dsimp only
  repeat' first
    | with_reducible assumption
    | intro _
    | with_reducible apply State.stepFault_keeps
    | with_reducible apply State.eccHits_keeps
    | with_reducible apply State.spmRemote_keeps
    | with_reducible apply Keeps.ite
    | with_reducible apply Keeps.foldl
    | with_reducible apply Keeps.foldlFst
    | fail_if_no_progress with_reducible apply Keeps.upd
    | split
    | dsimp only
    | (with_reducible apply Keeps.of_fst; rotate_left; with_reducible assumption)

theorem State.stepRefused_keeps {r0 : State} {s : State} {c : StepCtx} {e : AccErr} {addr : Nat} {write : Bool} (hk
    : Keeps r0 s) : Keeps r0 (State.stepRefused s c e addr write) := by
  unfold State.stepRefused
  extract_lets a0 a1
  try clear_value a0
  have k1 : Keeps r0 a1
  on_goal 1 => unfold a1
  rotate_left
  clear_value a1
  all_goals repeat' first
    | with_reducible assumption
    | intro _
    | with_reducible apply State.addCnt_keeps
    | with_reducible apply State.setUnit_keeps
    | with_reducible apply State.stepFault_keeps
    | with_reducible apply Keeps.ite
    | with_reducible apply Keeps.foldl
    | with_reducible apply Keeps.foldlFst
    | fail_if_no_progress with_reducible apply Keeps.upd
    | split

theorem State.fetchDesc_keeps {r0 : State} {s : State} {c : StepCtx} (hk : Keeps r0 s) : Keeps r0 (State.fetchDesc s c).1 := by
  unfold State.fetchDesc
  try dsimp only
  repeat' first
    | with_reducible assumption
    | intro _
    | with_reducible apply State.judgeReads_keeps
    | with_reducible apply State.stepRefused_keeps
    | with_reducible apply Keeps.ite
    | with_reducible apply Keeps.foldl
    | with_reducible apply Keeps.foldlFst
    | fail_if_no_progress with_reducible apply Keeps.upd
    | split
    | dsimp only
    | (with_reducible apply Keeps.of_fst; rotate_left; with_reducible assumption)

theorem State.engineStep_keeps {r0 : State} {s : State} {unit : Nat} {err : StepErr}
    {valid : State → StepCtx → List Byte → Bool} {mine : Nat → Bool} {run : State → StepCtx → List Byte → State} (hk
    : Keeps r0 s) (hrun : ∀ y0 y1 y2, Keeps r0 y0 → Keeps r0 (run y0 y1 y2)) : Keeps r0
    (State.engineStep s unit err valid mine run) := by
  unfold State.engineStep
  try dsimp only
  repeat' first
    | with_reducible assumption
    | intro _
    | with_reducible apply hrun
    | with_reducible apply State.beginStep_keeps
    | with_reducible apply State.meetErr_keeps
    | with_reducible apply State.fetchDesc_keeps
    | with_reducible apply State.stepFault_keeps
    | with_reducible apply Keeps.ite
    | with_reducible apply Keeps.foldl
    | with_reducible apply Keeps.foldlFst
    | fail_if_no_progress with_reducible apply Keeps.upd
    | split
    | dsimp only
    | (with_reducible apply Keeps.of_fst; rotate_left; with_reducible assumption)

theorem State.fetchRuns_keeps {r0 : State} {s : State} {c : StepCtx} {rs : List (Nat × Nat)} (hk : Keeps r0 s) : Keeps r0
    (State.fetchRuns s c rs).1 := by
  unfold State.fetchRuns
  try dsimp only
  repeat' first
    | with_reducible assumption
    | intro _
    | with_reducible apply State.judgeReads_keeps
    | with_reducible apply State.stepRefused_keeps
    | with_reducible apply Keeps.ite
    | with_reducible apply Keeps.foldl
    | with_reducible apply Keeps.foldlFst
    | fail_if_no_progress with_reducible apply Keeps.upd
    | split
    | dsimp only
    | (with_reducible apply Keeps.of_fst; rotate_left; with_reducible assumption)

theorem State.flagStep_keeps {r0 : State} {s : State} {c : StepCtx} (hk : Keeps r0 s) : Keeps r0 (State.flagStep s c) := by
  unfold State.flagStep
  try dsimp only
  repeat' first
    | with_reducible assumption
    | intro _
    | with_reducible apply State.modInst_keeps
    | with_reducible apply Keeps.ite
    | with_reducible apply Keeps.foldl
    | with_reducible apply Keeps.foldlFst
    | fail_if_no_progress with_reducible apply Keeps.upd
    | split

theorem State.storeRuns_keeps {r0 : State} {s : State} {c : StepCtx} {ws : List (Nat × List Byte)} (hk : Keeps r0 s)
    : Keeps r0 (State.storeRuns s c ws).1 := by
  unfold State.storeRuns
  try dsimp only
  repeat' first
    | with_reducible assumption
    | intro _
    | with_reducible apply State.judgeWrites_keeps
    | with_reducible apply State.writes_keeps
    | with_reducible apply State.stepRefused_keeps
    | with_reducible apply Keeps.ite
    | with_reducible apply Keeps.foldl
    | with_reducible apply Keeps.foldlFst
    | fail_if_no_progress with_reducible apply Keeps.upd
    | split
    | dsimp only
    | (with_reducible apply Keeps.of_fst; rotate_left; with_reducible assumption)

theorem State.stepDone_keeps {r0 : State} {s : State} {c : StepCtx} {last : Bool} {stores : List Byte} (hk : Keeps r0 s)
    : Keeps r0 (State.stepDone s c last stores) := by
  unfold State.stepDone
  extract_lets a0 a1
  have k0 : Keeps r0 a0
  on_goal 1 => unfold a0
  rotate_left
  clear_value a0
  have k1 : Keeps r0 a1
  on_goal 1 => unfold a1
  rotate_left
  clear_value a1
  all_goals repeat' first
    | with_reducible assumption
    | intro _
    | with_reducible apply State.tapStream_keeps
    | with_reducible apply State.addCnt_keeps
    | with_reducible apply State.endRemote_keeps
    | with_reducible apply State.modUnit_keeps
    | with_reducible apply State.modInst_keeps
    | with_reducible apply State.modCover_keeps
    | with_reducible apply Keeps.ite
    | with_reducible apply Keeps.foldl
    | with_reducible apply Keeps.foldlFst
    | fail_if_no_progress with_reducible apply Keeps.upd
    | split

end Sys2Proof.Machine
end

