-- ==== Sys2Proof/Laws/KeepsUnits.lean ====
section
/-! SUPPORT. That the commands of units and engines, and the operations they share keep what `Keeps` says: one lemma for each, in the order of the model's files. -/

namespace Sys2Proof.Machine

open Sys2Proof

/-! ### Machine/Sequencer.lean -/

theorem State.admitEntry_keeps {r0 : State} {s : State} {e : Nat} (hk : Keeps r0 s) : Keeps r0 (State.admitEntry s e) := by
  unfold State.admitEntry
  try dsimp only
  repeat' first
    | with_reducible assumption
    | intro _
    | with_reducible apply State.assignSlot_keeps
    | with_reducible apply State.modInst_keeps
    | with_reducible apply Keeps.ite
    | with_reducible apply Keeps.foldl
    | with_reducible apply Keeps.foldlFst
    | fail_if_no_progress with_reducible apply Keeps.upd
    | split

theorem State.refuseBand_keeps {r0 : State} {s : State} {r : RingSt} {seq : Word} {k : Nat} {b : Nat} {flagged : Bool}
    {held : Option Nat} {code : Nat} (hk : Keeps r0 s) : Keeps r0 (State.refuseBand s r seq k b flagged held code) := by
  unfold State.refuseBand
  extract_lets a0 a1 a2 a3 a4 a5
  have k0 : Keeps r0 a0
  on_goal 1 => unfold a0
  rotate_left
  clear_value a0
  have k1 : Keeps r0 a1
  on_goal 1 => unfold a1
  rotate_left
  clear_value a1
  try clear_value a2
  have k3 : Keeps r0 a3
  on_goal 1 => unfold a3
  rotate_left
  clear_value a3
  try clear_value a4
  try clear_value a5
  all_goals repeat' first
    | with_reducible assumption
    | intro _
    | with_reducible apply State.addCnt_keeps
    | with_reducible apply State.event_keeps
    | with_reducible apply State.log_keeps
    | with_reducible apply Keeps.ite
    | with_reducible apply Keeps.foldl
    | with_reducible apply Keeps.foldlFst
    | fail_if_no_progress with_reducible apply Keeps.upd
    | split

theorem State.releaseBand_keeps {r0 : State} {s : State} {layer : Nat} {idx : Nat} {k : Nat} {b : Nat} {flagged : Bool}
    {held : Option Nat} (hk : Keeps r0 s) : Keeps r0 (State.releaseBand s layer idx k b flagged held) := by
  unfold State.releaseBand
  try dsimp only
  repeat' first
    | with_reducible assumption
    | intro _
    | with_reducible apply State.refuseBand_keeps
    | with_reducible apply State.reserveRemote_keeps
    | with_reducible apply State.modFlag_keeps
    | with_reducible apply State.forgetAsked_keeps
    | with_reducible apply State.drainAbsent_keeps
    | with_reducible apply State.post_keeps
    | with_reducible apply State.event_keeps
    | with_reducible apply Keeps.ite
    | with_reducible apply Keeps.foldl
    | with_reducible apply Keeps.foldlFst
    | fail_if_no_progress with_reducible apply Keeps.upd
    | split

theorem execFgsPost_keeps {r0 : State} {bank : Fin 5} {domain : BitVec 4} {hi : Word} {s : State} (hk : Keeps r0 s)
    : KeepsRes r0 (execFgsPost bank domain hi s) := by
  unfold execFgsPost
  try dsimp only
  repeat' first
    | with_reducible assumption
    | intro _
    | with_reducible apply State.post_keeps
    | with_reducible apply State.setFlag_keeps
    | with_reducible apply Keeps.ite
    | with_reducible apply Keeps.foldl
    | with_reducible apply Keeps.foldlFst
    | fail_if_no_progress with_reducible apply Keeps.upd
    | with_reducible apply KeepsRes.next

theorem State.pinInputs_keeps {r0 : State} {s : State} {n : NodeSt} {e : Nat} (hk : Keeps r0 s) : Keeps r0
    (State.pinInputs s n e) := by
  unfold State.pinInputs
  try dsimp only
  repeat' first
    | with_reducible assumption
    | intro _
    | with_reducible apply State.modInst_keeps
    | with_reducible apply State.modFlag_keeps
    | with_reducible apply Keeps.ite
    | with_reducible apply Keeps.foldl
    | with_reducible apply Keeps.foldlFst
    | fail_if_no_progress with_reducible apply Keeps.upd
    | split

theorem State.dispatchTo_keeps {r0 : State} {s : State} {unit : Nat} {i : Inst} {n : NodeSt} (hk : Keeps r0 s) : Keeps r0
    (State.dispatchTo s unit i n) := by
  unfold State.dispatchTo
  extract_lets a0 a1 a2 a3 a4 a5 a6 a7
  try clear_value a0
  have k1 : Keeps r0 a1
  on_goal 1 => unfold a1
  rotate_left
  clear_value a1
  try clear_value a2
  try clear_value a3
  try clear_value a4
  have k5 : Keeps r0 a5
  on_goal 1 => unfold a5
  rotate_left
  clear_value a5
  have k6 : Keeps r0 a6
  on_goal 1 => unfold a6
  rotate_left
  clear_value a6
  try clear_value a7
  all_goals repeat' first
    | with_reducible assumption
    | intro _
    | with_reducible apply State.pinInputs_keeps
    | with_reducible apply State.modInst_keeps
    | with_reducible apply State.modNode_keeps
    | with_reducible apply State.showStep_keeps
    | with_reducible apply State.setUnit_keeps
    | with_reducible apply Keeps.ite

theorem State.dispatchPc_keeps {r0 : State} {s : State} {pair : Nat} {i : Inst} {n : NodeSt} (hk : Keeps r0 s) : Keeps r0
    (State.dispatchPc s pair i n) := by
  unfold State.dispatchPc
  extract_lets a0 a1 a2 a3 a4 a5 a6 a7 a8 a9 a10 a11
  try clear_value a0
  try clear_value a1
  try clear_value a2
  have k3 : Keeps r0 a3
  on_goal 1 => unfold a3
  rotate_left
  clear_value a3
  try clear_value a4
  have k5 : Keeps r0 a5
  on_goal 1 => unfold a5
  rotate_left
  clear_value a5
  have k6 : Keeps r0 a6
  on_goal 1 => unfold a6
  rotate_left
  clear_value a6
  try clear_value a7
  have k8 : Keeps r0 a8
  on_goal 1 => unfold a8
  rotate_left
  clear_value a8
  have k9 : Keeps r0 a9
  on_goal 1 => unfold a9
  rotate_left
  clear_value a9
  try clear_value a10
  have k11 : Keeps r0 a11
  on_goal 1 => unfold a11
  rotate_left
  clear_value a11
  all_goals repeat' first
    | with_reducible assumption
    | intro _
    | with_reducible apply State.dispatchTo_keeps
    | with_reducible apply State.setUnit_keeps
    | with_reducible apply State.modCore_keeps
    | with_reducible apply State.setFld_keeps
    | with_reducible apply State.setFlag_keeps
    | with_reducible apply State.setReg_keeps
    | with_reducible apply Keeps.ite

theorem State.postResult_keeps {r0 : State} {s : State} {t : Token} {r : Nat} (hk : Keeps r0 s) : Keeps r0
    (State.postResult s t r) := by
  unfold State.postResult
  try dsimp only
  repeat' first
    | with_reducible assumption
    | intro _
    | with_reducible apply State.setFlag_keeps
    | with_reducible apply State.setFld_keeps
    | with_reducible apply Keeps.ite
    | with_reducible apply Keeps.foldl
    | with_reducible apply Keeps.foldlFst
    | fail_if_no_progress with_reducible apply Keeps.upd
    | split

theorem State.dropToken_keeps {r0 : State} {s : State} {n : NodeSt} {t : Token} (hk : Keeps r0 s) : Keeps r0
    (State.dropToken s n t) := by
  unfold State.dropToken
  try dsimp only
  repeat' first
    | with_reducible assumption
    | intro _
    | with_reducible apply State.postResult_keeps
    | with_reducible apply State.arrive_keeps

theorem State.endAbsent_keeps {r0 : State} {s : State} {unit : Nat} {i : Inst} {n : NodeSt} (hk : Keeps r0 s) : Keeps r0
    (State.endAbsent s unit i n) := by
  unfold State.endAbsent
  try dsimp only
  repeat' first
    | with_reducible assumption
    | intro _
    | with_reducible apply State.log_keeps
    | with_reducible apply State.event_keeps
    | with_reducible apply State.cancelNow_keeps
    | with_reducible apply Keeps.ite
    | with_reducible apply Keeps.foldl
    | with_reducible apply Keeps.foldlFst
    | fail_if_no_progress with_reducible apply Keeps.upd
    | split

theorem State.flagUe_keeps {r0 : State} {s : State} {idx : Nat} (hk : Keeps r0 s) : Keeps r0 (State.flagUe s idx) := by
  unfold State.flagUe
  extract_lets a0 a1 a2
  have k0 : Keeps r0 a0
  on_goal 1 => unfold a0
  rotate_left
  clear_value a0
  try clear_value a1
  have k2 : Keeps r0 a2
  on_goal 1 => unfold a2
  rotate_left
  clear_value a2
  all_goals repeat' first
    | with_reducible assumption
    | intro _
    | with_reducible apply State.log_keeps
    | with_reducible apply State.event_keeps
    | with_reducible apply State.modFlag_keeps
    | with_reducible apply State.post_keeps
    | with_reducible apply State.doubt_keeps
    | with_reducible apply Keeps.ite
    | with_reducible apply Keeps.foldl
    | with_reducible apply Keeps.foldlFst
    | fail_if_no_progress with_reducible apply Keeps.upd
    | split
    | dsimp only

theorem execFgsPcDone_keeps {r0 : State} {pair : Fin 4} {value : Word} {s : State} (hk : Keeps r0 s) : KeepsRes r0
    (execFgsPcDone pair value s) := by
  unfold execFgsPcDone
  extract_lets a0 a1 a2 a3 a4
  try clear_value a0
  try clear_value a1
  try clear_value a2
  try clear_value a3
  have k4 : Keeps r0 a4
  on_goal 1 => unfold a4
  rotate_left
  clear_value a4
  all_goals repeat' first
    | with_reducible assumption
    | intro _
    | with_reducible apply State.log_keeps
    | with_reducible apply State.leaveUnit_keeps
    | with_reducible apply State.modInst_keeps
    | with_reducible apply State.tryRelease_keeps
    | with_reducible apply State.cancelNow_keeps
    | with_reducible apply Keeps.ite
    | with_reducible apply Keeps.foldl
    | with_reducible apply Keeps.foldlFst
    | fail_if_no_progress with_reducible apply Keeps.upd
    | with_reducible apply KeepsRes.next
    | with_reducible apply KeepsRes.ite
    | split

theorem State.judgeStuck_keeps {r0 : State} {s : State} {head : Option Inst} {implicit : Bool} {num : Nat} {headPos : Nat} (hk
    : Keeps r0 s) : Keeps r0 (State.judgeStuck s head implicit num headPos) := by
  unfold State.judgeStuck
  try dsimp only
  repeat' first
    | with_reducible assumption
    | intro _
    | with_reducible apply State.log_keeps
    | with_reducible apply State.event_keeps
    | with_reducible apply State.setFld_keeps
    | with_reducible apply State.setFlag_keeps
    | with_reducible apply State.cancel_keeps
    | with_reducible apply Keeps.ite
    | with_reducible apply Keeps.foldl
    | with_reducible apply Keeps.foldlFst
    | fail_if_no_progress with_reducible apply Keeps.upd
    | split

theorem State.logToken_keeps {r0 : State} {s : State} {code : Nat} {cls : Nat} {t : Token} (hk : Keeps r0 s) : Keeps r0
    (State.logToken s code cls t) := by
  unfold State.logToken
  try dsimp only
  repeat' first
    | with_reducible assumption
    | intro _
    | with_reducible apply State.log_keeps

theorem State.setOperand_keeps {r0 : State} {s : State} {n : NodeSt} {e : Nat} {t : Token} (hk : Keeps r0 s) : Keeps r0
    (State.setOperand s n e t) := by
  unfold State.setOperand
  try dsimp only
  repeat' first
    | with_reducible assumption
    | intro _
    | with_reducible apply State.postResult_keeps
    | with_reducible apply State.arrive_keeps
    | with_reducible apply State.modInst_keeps

theorem State.lookupToken_keeps {r0 : State} {s : State} {t : Token} (hk : Keeps r0 s) : Keeps r0 (State.lookupToken s t) := by
  unfold State.lookupToken
  extract_lets a0 a1 a2 a3
  have k0 : Keeps r0 a0
  on_goal 1 => unfold a0
  rotate_left
  clear_value a0
  try clear_value a1
  try clear_value a2
  try clear_value a3
  all_goals repeat' first
    | with_reducible assumption
    | intro _
    | with_reducible apply State.postResult_keeps
    | with_reducible apply State.logToken_keeps
    | with_reducible apply State.event_keeps
    | with_reducible apply State.dropToken_keeps
    | with_reducible apply State.cancel_keeps
    | with_reducible apply State.arrive_keeps
    | with_reducible apply State.setOperand_keeps
    | with_reducible apply State.addCnt_keeps
    | with_reducible apply State.createEntry_keeps
    | with_reducible apply State.cancelNow_keeps
    | with_reducible apply Keeps.ite
    | with_reducible apply Keeps.foldl
    | with_reducible apply Keeps.foldlFst
    | fail_if_no_progress with_reducible apply Keeps.upd
    | split
    | dsimp only

theorem State.metFlagUe_keeps {r0 : State} {s : State} {u : Option (Fin 262144)} (hk : Keeps r0 s) : Keeps r0
    (State.metFlagUe s u) := by
  unfold State.metFlagUe
  try dsimp only
  repeat' first
    | with_reducible assumption
    | intro _
    | with_reducible apply State.flagUe_keeps
    | with_reducible apply Keeps.ite
    | with_reducible apply Keeps.foldl
    | with_reducible apply Keeps.foldlFst
    | fail_if_no_progress with_reducible apply Keeps.upd
    | split

theorem execFgsCancel_keeps {r0 : State} {domain : BitVec 4} {value : Word} {s : State} (hk : Keeps r0 s) : KeepsRes r0
    (execFgsCancel domain value s) := by
  unfold execFgsCancel
  extract_lets a0 a1 a2 a3 a4 a5 a6 a7 a8 a9 a10 a11 a12
  try clear_value a0
  try clear_value a1
  try clear_value a2
  try clear_value a3
  try clear_value a4
  try clear_value a5
  have k6 : Keeps r0 a6
  on_goal 1 => unfold a6
  rotate_left
  clear_value a6
  try clear_value a7
  have k8 : Keeps r0 a8
  on_goal 1 => unfold a8
  rotate_left
  clear_value a8
  try clear_value a9
  have k10 : Keeps r0 a10
  on_goal 1 => unfold a10
  rotate_left
  clear_value a10
  try clear_value a11
  have k12 : Keeps r0 a12
  on_goal 1 => unfold a12
  rotate_left
  clear_value a12
  all_goals repeat' first
    | with_reducible assumption
    | intro _
    | with_reducible apply State.setFld_keeps
    | with_reducible apply State.log_keeps
    | with_reducible apply State.cancel_keeps
    | with_reducible apply Keeps.ite
    | with_reducible apply Keeps.foldl
    | with_reducible apply Keeps.foldlFst
    | fail_if_no_progress with_reducible apply Keeps.upd
    | with_reducible apply KeepsRes.next
    | with_reducible apply KeepsRes.ite
    | split

theorem execFgsAffinityForget_keeps {r0 : State} {s : State} (hk : Keeps r0 s) : KeepsRes r0 (execFgsAffinityForget s) := by
  unfold execFgsAffinityForget
  try dsimp only
  repeat' first
    | with_reducible assumption
    | intro _
    | with_reducible apply Keeps.ite
    | with_reducible apply Keeps.foldl
    | with_reducible apply Keeps.foldlFst
    | fail_if_no_progress with_reducible apply Keeps.upd
    | with_reducible apply KeepsRes.next

theorem State.reachTick_keeps {r0 : State} {s : State} {t : Nat} (hk : Keeps r0 s) : Keeps r0 (State.reachTick s t) := by
  unfold State.reachTick
  try dsimp only
  repeat' first
    | with_reducible assumption
    | intro _
    | with_reducible apply State.reach_keeps

theorem execFgsDisp0Read_keeps {r0 : State} {pair : Fin 4} {s : State} (hk : Keeps r0 s) : KeepsRes r0
    (execFgsDisp0Read pair s) := by
  unfold execFgsDisp0Read
  try dsimp only
  repeat' first
    | with_reducible assumption
    | intro _
    | with_reducible apply State.modInst_keeps
    | with_reducible apply State.setFlag_keeps
    | with_reducible apply Keeps.ite
    | with_reducible apply Keeps.foldl
    | with_reducible apply Keeps.foldlFst
    | fail_if_no_progress with_reducible apply Keeps.upd
    | with_reducible apply KeepsRes.next
    | with_reducible apply KeepsRes.ite

theorem State.retryOne_keeps {r0 : State} {s : State} {o : Nat} (hk : Keeps r0 s) : Keeps r0 (State.retryOne s o) := by
  unfold State.retryOne
  try dsimp only
  repeat' first
    | with_reducible assumption
    | intro _
    | with_reducible apply State.tryRelease_keeps
    | with_reducible apply State.releaseBand_keeps
    | with_reducible apply Keeps.ite
    | with_reducible apply Keeps.foldl
    | with_reducible apply Keeps.foldlFst
    | fail_if_no_progress with_reducible apply Keeps.upd
    | split

theorem State.startHolds_keeps {r0 : State} {s : State} {es : List Nat} (hk : Keeps r0 s) : Keeps r0
    (State.startHolds s es) := by
  unfold State.startHolds
  try dsimp only
  repeat' first
    | with_reducible assumption
    | intro _
    | with_reducible apply State.noteHwm_keeps
    | with_reducible apply State.modInst_keeps
    | with_reducible apply Keeps.ite
    | with_reducible apply Keeps.foldl
    | with_reducible apply Keeps.foldlFst
    | fail_if_no_progress with_reducible apply Keeps.upd
    | split

theorem State.startTinder_keeps {r0 : State} {s : State} {unit : Nat} (hk : Keeps r0 s) : Keeps r0
    (State.startTinder s unit) := by
  unfold State.startTinder
  try dsimp only
  repeat' first
    | with_reducible assumption
    | intro _
    | with_reducible apply State.armTinder_keeps
    | with_reducible apply State.showStep_keeps
    | with_reducible apply State.setUnit_keeps
    | with_reducible apply Keeps.ite
    | with_reducible apply Keeps.foldl
    | with_reducible apply Keeps.foldlFst
    | fail_if_no_progress with_reducible apply Keeps.upd
    | split

theorem execAffinityHoldExpiry_keeps {r0 : State} {entry : Fin 4096} {s : State} (hk : Keeps r0 s) : KeepsRes r0
    (execAffinityHoldExpiry entry s) := by
  unfold execAffinityHoldExpiry
  try dsimp only
  repeat' first
    | with_reducible assumption
    | intro _
    | with_reducible apply State.modInst_keeps
    | with_reducible apply State.reachTick_keeps
    | with_reducible apply State.endAbsent_keeps
    | with_reducible apply State.dispatchTo_keeps
    | with_reducible apply Keeps.ite
    | with_reducible apply Keeps.foldl
    | with_reducible apply Keeps.foldlFst
    | fail_if_no_progress with_reducible apply Keeps.upd
    | with_reducible apply KeepsRes.next
    | with_reducible apply KeepsRes.ite
    | split

theorem execDeadlineExpiry_keeps {r0 : State} {entry : Fin 4096} {s : State} (hk : Keeps r0 s) : KeepsRes r0
    (execDeadlineExpiry entry s) := by
  unfold execDeadlineExpiry
  try dsimp only
  repeat' first
    | with_reducible assumption
    | intro _
    | with_reducible apply State.reachTick_keeps
    | with_reducible apply State.cancelNow_keeps
    | with_reducible apply State.countMiss_keeps
    | with_reducible apply State.logInst_keeps
    | with_reducible apply State.addCnt_keeps
    | with_reducible apply State.event_keeps
    | with_reducible apply State.modInst_keeps
    | with_reducible apply State.doubt_keeps
    | with_reducible apply Keeps.ite
    | with_reducible apply Keeps.foldl
    | with_reducible apply Keeps.foldlFst
    | fail_if_no_progress with_reducible apply Keeps.upd
    | with_reducible apply KeepsRes.next
    | with_reducible apply KeepsRes.ite
    | split

theorem execDeferredVoid_keeps {r0 : State} {entry : Fin 4096} {s : State} (hk : Keeps r0 s) : KeepsRes r0
    (execDeferredVoid entry s) := by
  unfold execDeferredVoid
  try dsimp only
  repeat' first
    | with_reducible assumption
    | intro _
    | with_reducible apply State.voidOne_keeps
    | with_reducible apply State.modInst_keeps
    | with_reducible apply State.freeEntry_keeps
    | with_reducible apply Keeps.ite
    | with_reducible apply Keeps.foldl
    | with_reducible apply Keeps.foldlFst
    | fail_if_no_progress with_reducible apply Keeps.upd
    | with_reducible apply KeepsRes.next
    | with_reducible apply KeepsRes.ite
    | split

theorem execDispatch_keeps {r0 : State} {unit : Half} {s : State} (hk : Keeps r0 s) : KeepsRes r0 (execDispatch unit s) := by
  unfold execDispatch
  try dsimp only
  repeat' first
    | with_reducible assumption
    | intro _
    | with_reducible apply State.startHolds_keeps
    | with_reducible apply State.startTinder_keeps
    | with_reducible apply State.endAbsent_keeps
    | with_reducible apply State.dispatchTo_keeps
    | with_reducible apply Keeps.ite
    | with_reducible apply Keeps.foldl
    | with_reducible apply Keeps.foldlFst
    | fail_if_no_progress with_reducible apply Keeps.upd
    | with_reducible apply KeepsRes.next
    | with_reducible apply KeepsRes.ite
    | split

theorem execFlowWatchExpiry_keeps {r0 : State} {single : Bool} {n : Fin 4096} {s : State} (hk : Keeps r0 s) : KeepsRes r0
    (execFlowWatchExpiry single n s) := by
  unfold execFlowWatchExpiry
  try dsimp only
  repeat' first
    | with_reducible assumption
    | intro _
    | with_reducible apply State.reachTick_keeps
    | with_reducible apply State.draw_keeps
    | with_reducible apply State.judgeStuck_keeps
    | with_reducible apply State.modNode_keeps
    | with_reducible apply State.modFlow_keeps
    | with_reducible apply Keeps.ite
    | with_reducible apply Keeps.foldl
    | with_reducible apply Keeps.foldlFst
    | fail_if_no_progress with_reducible apply Keeps.upd
    | with_reducible apply KeepsRes.next
    | with_reducible apply KeepsRes.ite
    | split

theorem execInstanceAdmit_keeps {r0 : State} {entry : Fin 4096} {flagUe : Option (Fin 262144)} {s : State} (hk : Keeps r0 s)
    : KeepsRes r0 (execInstanceAdmit entry flagUe s) := by
  unfold execInstanceAdmit
  try dsimp only
  repeat' first
    | with_reducible assumption
    | intro _
    | with_reducible apply State.admitEntry_keeps
    | with_reducible apply State.metFlagUe_keeps
    | with_reducible apply Keeps.ite
    | with_reducible apply Keeps.foldl
    | with_reducible apply Keeps.foldlFst
    | fail_if_no_progress with_reducible apply Keeps.upd
    | with_reducible apply KeepsRes.next

theorem execMatchTimeout_keeps {r0 : State} {entry : Fin 4096} {s : State} (hk : Keeps r0 s) : KeepsRes r0
    (execMatchTimeout entry s) := by
  unfold execMatchTimeout
  try dsimp only
  repeat' first
    | with_reducible assumption
    | intro _
    | with_reducible apply State.reachTick_keeps
    | with_reducible apply State.cancelNow_keeps
    | with_reducible apply State.logInst_keeps
    | with_reducible apply State.event_keeps
    | with_reducible apply Keeps.ite
    | with_reducible apply Keeps.foldl
    | with_reducible apply Keeps.foldlFst
    | fail_if_no_progress with_reducible apply Keeps.upd
    | with_reducible apply KeepsRes.next
    | with_reducible apply KeepsRes.ite
    | split

theorem execPcDispatch_keeps {r0 : State} {pair : Fin 4} {s : State} (hk : Keeps r0 s) : KeepsRes r0
    (execPcDispatch pair s) := by
  unfold execPcDispatch
  try dsimp only
  repeat' first
    | with_reducible assumption
    | intro _
    | with_reducible apply State.startHolds_keeps
    | with_reducible apply State.dispatchPc_keeps
    | with_reducible apply Keeps.ite
    | with_reducible apply Keeps.foldl
    | with_reducible apply Keeps.foldlFst
    | fail_if_no_progress with_reducible apply Keeps.upd
    | with_reducible apply KeepsRes.next
    | with_reducible apply KeepsRes.ite
    | split

theorem execPeriodicStart_keeps {r0 : State} {node : Fin 4096} {s : State} (hk : Keeps r0 s) : KeepsRes r0
    (execPeriodicStart node s) := by
  unfold execPeriodicStart
  try dsimp only
  repeat' first
    | with_reducible assumption
    | intro _
    | with_reducible apply State.reachTick_keeps
    | with_reducible apply State.modNode_keeps
    | with_reducible apply State.addCnt_keeps
    | with_reducible apply State.event_keeps
    | with_reducible apply State.createEntry_keeps
    | with_reducible apply State.modInst_keeps
    | with_reducible apply Keeps.ite
    | with_reducible apply Keeps.foldl
    | with_reducible apply Keeps.foldlFst
    | fail_if_no_progress with_reducible apply Keeps.upd
    | with_reducible apply KeepsRes.next
    | with_reducible apply KeepsRes.ite
    | split

theorem execRelease_keeps {r0 : State} {entry : Fin 4096} {flagUe : Option (Fin 262144)} {s : State} (hk : Keeps r0 s)
    : KeepsRes r0 (execRelease entry flagUe s) := by
  unfold execRelease
  try dsimp only
  repeat' first
    | with_reducible assumption
    | intro _
    | with_reducible apply State.tryRelease_keeps
    | with_reducible apply State.metFlagUe_keeps
    | with_reducible apply Keeps.ite
    | with_reducible apply Keeps.foldl
    | with_reducible apply Keeps.foldlFst
    | fail_if_no_progress with_reducible apply Keeps.upd
    | with_reducible apply KeepsRes.next

theorem execReleaseRetry_keeps {r0 : State} {s : State} (hk : Keeps r0 s) : KeepsRes r0 (execReleaseRetry s) := by
  unfold execReleaseRetry
  extract_lets a0 a1
  have k0 : Keeps r0 a0
  on_goal 1 => unfold a0
  rotate_left
  clear_value a0
  try clear_value a1
  all_goals repeat' first
    | with_reducible assumption
    | intro _
    | with_reducible apply State.reachTick_keeps
    | with_reducible apply State.retryOne_keeps
    | with_reducible apply Keeps.ite
    | with_reducible apply Keeps.foldl
    | with_reducible apply Keeps.foldlFst
    | fail_if_no_progress with_reducible apply Keeps.upd
    | with_reducible apply KeepsRes.next

theorem execSlotDrain_keeps {r0 : State} {node : Fin 4096} {input : Fin 8} {slot : Fin 64} {flagUe : Option (Fin 262144)}
    {s : State} (hk : Keeps r0 s) : KeepsRes r0 (execSlotDrain node input slot flagUe s) := by
  unfold execSlotDrain
  extract_lets a0
  have k0 : Keeps r0 a0
  on_goal 1 => unfold a0
  rotate_left
  clear_value a0
  all_goals repeat' first
    | with_reducible assumption
    | intro _
    | with_reducible apply State.metFlagUe_keeps
    | with_reducible apply State.tryDrain_keeps
    | with_reducible apply Keeps.ite
    | with_reducible apply Keeps.foldl
    | with_reducible apply Keeps.foldlFst
    | fail_if_no_progress with_reducible apply Keeps.upd
    | with_reducible apply KeepsRes.next
    | with_reducible apply KeepsRes.ite
    | split

theorem execStallRelease_keeps {r0 : State} {entry : Fin 4096} {s : State} (hk : Keeps r0 s) : KeepsRes r0
    (execStallRelease entry s) := by
  unfold execStallRelease
  try dsimp only
  repeat' first
    | with_reducible assumption
    | intro _
    | with_reducible apply State.tryRelease_keeps
    | with_reducible apply Keeps.ite
    | with_reducible apply Keeps.foldl
    | with_reducible apply Keeps.foldlFst
    | fail_if_no_progress with_reducible apply Keeps.upd
    | with_reducible apply KeepsRes.next
    | with_reducible apply KeepsRes.ite
    | split

theorem execStepComplete_keeps {r0 : State} {unit : Half} {s : State} (hk : Keeps r0 s) : KeepsRes r0
    (execStepComplete unit s) := by
  unfold execStepComplete
  try dsimp only
  repeat' first
    | with_reducible assumption
    | intro _
    | with_reducible apply State.modInst_keeps
    | with_reducible apply State.tryRelease_keeps
    | with_reducible apply State.leaveUnit_keeps
    | with_reducible apply Keeps.ite
    | with_reducible apply Keeps.foldl
    | with_reducible apply Keeps.foldlFst
    | fail_if_no_progress with_reducible apply Keeps.upd
    | with_reducible apply KeepsRes.next
    | with_reducible apply KeepsRes.ite
    | split

theorem execTokenLookup_keeps {r0 : State} {s : State} (hk : Keeps r0 s) : KeepsRes r0 (execTokenLookup s) := by
  unfold execTokenLookup
  try dsimp only
  repeat' first
    | with_reducible assumption
    | intro _
    | with_reducible apply State.lookupToken_keeps
    | with_reducible apply Keeps.ite
    | with_reducible apply Keeps.foldl
    | with_reducible apply Keeps.foldlFst
    | fail_if_no_progress with_reducible apply Keeps.upd
    | with_reducible apply KeepsRes.next
    | with_reducible apply KeepsRes.ite
    | split

/-! ### Machine/AdaptOps.lean -/

theorem State.applyPatch_keeps {r0 : State} {s : State} {idx : Nat} {off : Nat} (hk : Keeps r0 s) : Keeps r0
    (State.applyPatch s idx off) := by
  unfold State.applyPatch
  try dsimp only
  repeat' first
    | with_reducible assumption
    | intro _
    | with_reducible apply State.log_keeps
    | with_reducible apply State.write_keeps
    | with_reducible apply Keeps.ite
    | with_reducible apply Keeps.foldl
    | with_reducible apply Keeps.foldlFst
    | fail_if_no_progress with_reducible apply Keeps.upd
    | split

theorem State.repatch_keeps {r0 : State} {s : State} {e : SecEnt} (hk : Keeps r0 s) : Keeps r0 (State.repatch s e) := by
  unfold State.repatch
  try dsimp only
  repeat' first
    | with_reducible assumption
    | intro _
    | with_reducible apply State.applyPatch_keeps
    | with_reducible apply Keeps.ite
    | with_reducible apply Keeps.foldl

/-! ### Machine/IspOps.lean -/

theorem State.abortInjection_keeps {r0 : State} {s : State} {p : StreamRec} (hk : Keeps r0 s) : Keeps r0
    (State.abortInjection s p) := by
  unfold State.abortInjection
  extract_lets a0 a1 a2
  try clear_value a0
  have k1 : Keeps r0 a1
  on_goal 1 => unfold a1
  rotate_left
  clear_value a1
  have k2 : Keeps r0 a2
  on_goal 1 => unfold a2
  rotate_left
  clear_value a2
  all_goals repeat' first
    | with_reducible assumption
    | intro _
    | with_reducible apply State.cvuAbort_keeps
    | with_reducible apply State.modCover_keeps
    | with_reducible apply State.showPipe_keeps
    | with_reducible apply State.addFld_keeps
    | with_reducible apply State.modPipe_keeps
    | with_reducible apply Keeps.ite
    | with_reducible apply Keeps.foldl
    | with_reducible apply Keeps.foldlFst
    | fail_if_no_progress with_reducible apply Keeps.upd
    | split

theorem State.discardBand_keeps {r0 : State} {s : State} {source : Nat} {r : RingSt} {k : Nat} {b : Nat} {seq : Word}
    {stream : Nat} {lines : Nat} (hk : Keeps r0 s) : Keeps r0 (State.discardBand s source r k b seq stream lines) := by
  unfold State.discardBand
  extract_lets a0 a1 a2
  try clear_value a0
  have k1 : Keeps r0 a1
  on_goal 1 => unfold a1
  rotate_left
  clear_value a1
  have k2 : Keeps r0 a2
  on_goal 1 => unfold a2
  rotate_left
  clear_value a2
  all_goals repeat' first
    | with_reducible assumption
    | intro _
    | with_reducible apply State.log_keeps
    | with_reducible apply State.addCnt_keeps
    | with_reducible apply State.setRing_keeps
    | with_reducible apply State.post_keeps

theorem State.assignBand_keeps {r0 : State} {s : State} {source : Nat} {layer : Nat} {idx : Nat} {b : Nat} {seq : Word}
    {stream : Nat} {lines : Nat} (hk : Keeps r0 s) : Keeps r0 (State.assignBand s source layer idx b seq stream lines).1 := by
  unfold State.assignBand
  try dsimp only
  repeat' first
    | with_reducible assumption
    | intro _
    | with_reducible apply State.assignSlot_keeps
    | with_reducible apply State.discardBand_keeps
    | with_reducible apply Keeps.ite
    | with_reducible apply Keeps.foldl
    | with_reducible apply Keeps.foldlFst
    | fail_if_no_progress with_reducible apply Keeps.upd
    | split

theorem State.modFrame_keeps {r0 : State} {s : State} {pipe : Nat} {stream : Nat} {seq : Word} {f : PipeFrame → PipeFrame} (hk
    : Keeps r0 s) : Keeps r0 (State.modFrame s pipe stream seq f) := by
  unfold State.modFrame
  try dsimp only
  repeat' first
    | with_reducible assumption
    | intro _
    | with_reducible apply State.modPipe_keeps

theorem State.beginBand_keeps {r0 : State} {s : State} {pipe : Nat} {f : PipeFrame} {r : RingSt} {b : Nat} (hk : Keeps r0 s)
    : Keeps r0 (State.beginBand s pipe f r b) := by
  unfold State.beginBand
  try dsimp only
  repeat' first
    | with_reducible assumption
    | intro _
    | with_reducible apply State.assignBand_keeps
    | with_reducible apply State.modFrame_keeps
    | with_reducible apply Keeps.ite
    | with_reducible apply Keeps.foldl
    | with_reducible apply Keeps.foldlFst
    | fail_if_no_progress with_reducible apply Keeps.upd
    | split

theorem State.beginNext_keeps {r0 : State} {s : State} {pipe : Nat} {stream : Nat} {seq : Word} (hk : Keeps r0 s) : Keeps r0
    (State.beginNext s pipe stream seq) := by
  unfold State.beginNext
  try dsimp only
  repeat' first
    | with_reducible assumption
    | intro _
    | with_reducible apply State.beginBand_keeps
    | with_reducible apply Keeps.ite
    | with_reducible apply Keeps.foldl
    | with_reducible apply Keeps.foldlFst
    | fail_if_no_progress with_reducible apply Keeps.upd
    | split

theorem State.endFrame_keeps {r0 : State} {s : State} {pipe : Nat} {stream : Nat} {seq : Word} (hk : Keeps r0 s) : Keeps r0
    (State.endFrame s pipe stream seq) := by
  unfold State.endFrame
  extract_lets a0
  have k0 : Keeps r0 a0
  on_goal 1 => unfold a0
  rotate_left
  clear_value a0
  all_goals repeat' first
    | with_reducible assumption
    | intro _
    | with_reducible apply State.addCnt_keeps
    | with_reducible apply State.modPipe_keeps
    | with_reducible apply State.modFlag_keeps
    | with_reducible apply State.showPipe_keeps
    | with_reducible apply Keeps.ite
    | with_reducible apply Keeps.foldl
    | with_reducible apply Keeps.foldlFst
    | fail_if_no_progress with_reducible apply Keeps.upd
    | split

theorem State.beginLine_keeps {r0 : State} {s : State} {pipe : Nat} {f : PipeFrame} {y : Nat} (hk : Keeps r0 s) : Keeps r0
    (State.beginLine s pipe f y) := by
  unfold State.beginLine
  try dsimp only
  repeat' first
    | with_reducible assumption
    | intro _
    | with_reducible apply State.beginBand_keeps
    | with_reducible apply Keeps.ite
    | with_reducible apply Keeps.foldl

theorem State.numberRing_keeps {r0 : State} {s : State} {r : RingSt} {seq : Word} (hk : Keeps r0 s) : Keeps r0
    (State.numberRing s r seq) := by
  unfold State.numberRing
  try dsimp only
  repeat' first
    | with_reducible assumption
    | intro _
    | with_reducible apply State.setRing_keeps
    | with_reducible apply Keeps.ite
    | with_reducible apply Keeps.foldl
    | with_reducible apply Keeps.foldlFst
    | fail_if_no_progress with_reducible apply Keeps.upd
    | split

theorem State.startInjection_keeps {r0 : State} {s : State} {p : StreamRec} (hk : Keeps r0 s) : Keeps r0
    (State.startInjection s p) := by
  unfold State.startInjection
  try dsimp only
  repeat' first
    | with_reducible assumption
    | intro _
    | with_reducible apply State.armTinder_keeps
    | with_reducible apply State.showPipe_keeps
    | with_reducible apply State.modPipe_keeps
    | with_reducible apply Keeps.ite
    | with_reducible apply Keeps.foldl
    | with_reducible apply Keeps.foldlFst
    | fail_if_no_progress with_reducible apply Keeps.upd
    | split

theorem State.voidBand_keeps {r0 : State} {s : State} {source : Nat} {layer : Nat} {idx : Nat} {b : Nat} {seq : Word}
    {stream : Nat} {lines : Nat} (hk : Keeps r0 s) : Keeps r0 (State.voidBand s source layer idx b seq stream lines) := by
  unfold State.voidBand
  try dsimp only
  repeat' first
    | with_reducible assumption
    | intro _
    | with_reducible apply State.assignBand_keeps
    | with_reducible apply State.modFlag_keeps
    | with_reducible apply State.post_keeps
    | with_reducible apply State.event_keeps
    | with_reducible apply Keeps.ite
    | with_reducible apply Keeps.foldl
    | with_reducible apply Keeps.foldlFst
    | fail_if_no_progress with_reducible apply Keeps.upd
    | split

theorem State.voidOutputs_keeps {r0 : State} {s : State} {p : StreamRec} {layer : Nat} {params : List Byte} {seq : Word} (hk
    : Keeps r0 s) : Keeps r0 (State.voidOutputs s p layer params seq) := by
  unfold State.voidOutputs
  extract_lets a0 a1
  try clear_value a0
  have k1 : Keeps r0 a1
  on_goal 1 => unfold a1
  rotate_left
  clear_value a1
  all_goals repeat' first
    | with_reducible assumption
    | intro _
    | with_reducible apply State.numberRing_keeps
    | with_reducible apply State.voidBand_keeps
    | with_reducible apply Keeps.ite
    | with_reducible apply Keeps.foldl

theorem State.ispParity_keeps {r0 : State} {s : State} {pipe : Nat} {f : PipeFrame} {line : Nat} {height : Nat} (hk
    : Keeps r0 s) : Keeps r0 (State.ispParity s pipe f line height) := by
  unfold State.ispParity
  extract_lets a0 a1 a2 a3 a4 a5 a6
  try clear_value a0
  try clear_value a1
  have k2 : Keeps r0 a2
  on_goal 1 => unfold a2
  rotate_left
  clear_value a2
  have k3 : Keeps r0 a3
  on_goal 1 => unfold a3
  rotate_left
  clear_value a3
  have k4 : Keeps r0 a4
  on_goal 1 => unfold a4
  rotate_left
  clear_value a4
  try clear_value a5
  have k6 : Keeps r0 a6
  on_goal 1 => unfold a6
  rotate_left
  clear_value a6
  all_goals repeat' first
    | with_reducible assumption
    | intro _
    | with_reducible apply State.modFrame_keeps
    | with_reducible apply State.log_keeps
    | with_reducible apply State.event_keeps
    | with_reducible apply State.modBank_keeps
    | with_reducible apply State.modPipe_keeps
    | with_reducible apply State.fence_keeps
    | with_reducible apply Keeps.ite

theorem State.refreshBank_keeps {r0 : State} {s : State} {pipe : Nat} {bank : Nat} {set : Nat} {seq : Word} (hk : Keeps r0 s)
    : Keeps r0 (State.refreshBank s pipe bank set seq) := by
  unfold State.refreshBank
  try dsimp only
  repeat' first
    | with_reducible assumption
    | intro _
    | with_reducible apply State.modBank_keeps
    | with_reducible apply State.setFld_keeps
    | with_reducible apply Keeps.ite
    | with_reducible apply Keeps.foldl
    | with_reducible apply Keeps.foldlFst
    | fail_if_no_progress with_reducible apply Keeps.upd
    | split

theorem State.startFrame_keeps {r0 : State} {s : State} {p : StreamRec} {layer : Nat} {seq : Word} {ts : Nat} {staged : Option
    (Nat × Nat)} {flagged : Bool} {marked : List Nat} {lines : List (List Nat)} {closed : Bool} (hk : Keeps r0 s) : Keeps r0
    (State.startFrame s p layer seq ts staged flagged marked lines closed) := by
  unfold State.startFrame
  try dsimp only
  repeat' first
    | with_reducible assumption
    | intro _
    | with_reducible apply State.refreshBank_keeps
    | with_reducible apply State.numberRing_keeps
    | with_reducible apply State.showPipe_keeps
    | with_reducible apply State.modPipe_keeps
    | with_reducible apply Keeps.ite
    | with_reducible apply Keeps.foldl
    | with_reducible apply Keeps.foldlFst
    | fail_if_no_progress with_reducible apply Keeps.upd
    | split

theorem State.preemptStaged_keeps {r0 : State} {s : State} {pipe : Nat} (hk : Keeps r0 s) : Keeps r0
    (State.preemptStaged s pipe) := by
  unfold State.preemptStaged
  try dsimp only
  repeat' first
    | with_reducible assumption
    | intro _
    | with_reducible apply State.addCnt_keeps
    | with_reducible apply State.event_keeps
    | with_reducible apply State.modFrame_keeps
    | with_reducible apply Keeps.ite
    | with_reducible apply Keeps.foldl
    | with_reducible apply Keeps.foldlFst
    | fail_if_no_progress with_reducible apply Keeps.upd
    | split

/-! ### Machine/CamRx.lean -/

theorem State.assignSeq_keeps {r0 : State} {s : State} {p : StreamRec} {c : StreamSt} {ts : Nat} (hk : Keeps r0 s) : Keeps r0
    (State.assignSeq s p c ts) := by
  unfold State.assignSeq
  extract_lets a0 a1 a2 a3 a4 a5 a6
  try clear_value a0
  try clear_value a1
  have k2 : Keeps r0 a2
  on_goal 1 => unfold a2
  rotate_left
  clear_value a2
  try clear_value a3
  try clear_value a4
  try clear_value a5
  try clear_value a6
  all_goals repeat' first
    | with_reducible assumption
    | intro _
    | with_reducible apply State.modCam_keeps
    | with_reducible apply Keeps.ite
    | with_reducible apply Keeps.foldl
    | with_reducible apply Keeps.foldlFst
    | fail_if_no_progress with_reducible apply Keeps.upd

theorem State.raiseFrame_keeps {r0 : State} {s : State} {p : StreamRec} {bits : Nat} (hk : Keeps r0 s) : Keeps r0
    (State.raiseFrame s p bits) := by
  unfold State.raiseFrame
  try dsimp only
  repeat' first
    | with_reducible assumption
    | intro _
    | with_reducible apply State.modCam_keeps
    | with_reducible apply State.modFrame_keeps
    | with_reducible apply Keeps.ite
    | with_reducible apply Keeps.foldl
    | with_reducible apply Keeps.foldlFst
    | fail_if_no_progress with_reducible apply Keeps.upd
    | split

theorem State.stageFrame_keeps {r0 : State} {s : State} {p : StreamRec} {layer : Nat} {seq : Word} (hk : Keeps r0 s)
    : Keeps r0 (State.stageFrame s p layer seq) := by
  unfold State.stageFrame
  try dsimp only
  repeat' first
    | with_reducible assumption
    | intro _
    | with_reducible apply State.numberRing_keeps
    | with_reducible apply State.assignBand_keeps
    | with_reducible apply State.modCam_keeps
    | with_reducible apply Keeps.ite
    | with_reducible apply Keeps.foldl
    | with_reducible apply Keeps.foldlFst
    | fail_if_no_progress with_reducible apply Keeps.upd
    | split

theorem State.modEmber_keeps {r0 : State} {s : State} {f : Ember → Ember} (hk : Keeps r0 s) : Keeps r0
    (State.modEmber s f) := by
  unfold State.modEmber
  try dsimp only
  repeat' first
    | with_reducible assumption
    | intro _
    | with_reducible apply Keeps.ite
    | with_reducible apply Keeps.foldl
    | with_reducible apply Keeps.foldlFst
    | fail_if_no_progress with_reducible apply Keeps.upd

theorem State.emberLine_keeps {r0 : State} {s : State} {stream : Nat} {seq : Word} {line : List Nat} (hk : Keeps r0 s)
    : Keeps r0 (State.emberLine s stream seq line) := by
  unfold State.emberLine
  try dsimp only
  repeat' first
    | with_reducible assumption
    | intro _
    | with_reducible apply State.modEmber_keeps
    | with_reducible apply Keeps.ite
    | with_reducible apply Keeps.foldl
    | with_reducible apply Keeps.foldlFst
    | fail_if_no_progress with_reducible apply Keeps.upd
    | split

theorem State.putLine_keeps {r0 : State} {s : State} {p : StreamRec} {seq : Word} {y : Nat} {line : List Nat} (hk
    : Keeps r0 s) : Keeps r0 (State.putLine s p seq y line) := by
  unfold State.putLine
  try dsimp only
  repeat' first
    | with_reducible assumption
    | intro _
    | with_reducible apply State.modFrame_keeps
    | with_reducible apply State.store_keeps
    | with_reducible apply State.emberLine_keeps
    | with_reducible apply Keeps.ite
    | with_reducible apply Keeps.foldl
    | with_reducible apply Keeps.foldlFst
    | fail_if_no_progress with_reducible apply Keeps.upd
    | split

theorem State.writeMeta_keeps {r0 : State} {s : State} {m : MetaWord} (hk : Keeps r0 s) : Keeps r0 (State.writeMeta s m) := by
  unfold State.writeMeta
  extract_lets a0 a1 a2 a3
  try clear_value a0
  have k1 : Keeps r0 a1
  on_goal 1 => unfold a1
  rotate_left
  clear_value a1
  have k2 : Keeps r0 a2
  on_goal 1 => unfold a2
  rotate_left
  clear_value a2
  try clear_value a3
  all_goals repeat' first
    | with_reducible assumption
    | intro _
    | with_reducible apply State.setReg_keeps
    | with_reducible apply Keeps.ite
    | with_reducible apply Keeps.foldl

theorem State.closeStaged_keeps {r0 : State} {s : State} {p : StreamRec} {layer : Nat} {f : CamFrame} {seq : Word}
    {word : List Byte} {flags : Nat} (hk : Keeps r0 s) : Keeps r0 (State.closeStaged s p layer f seq word flags) := by
  unfold State.closeStaged
  try dsimp only
  repeat' first
    | with_reducible assumption
    | intro _
    | with_reducible apply State.store_keeps
    | with_reducible apply State.releaseBand_keeps
    | with_reducible apply State.modPipe_keeps
    | with_reducible apply State.voidOutputs_keeps
    | with_reducible apply Keeps.ite
    | with_reducible apply Keeps.foldl
    | with_reducible apply Keeps.foldlFst
    | fail_if_no_progress with_reducible apply Keeps.upd
    | split

theorem State.emberClose_keeps {r0 : State} {s : State} {stream : Nat} {seq : Word} {ts : Nat} {flagged : Bool}
    {missed : Bool} (hk : Keeps r0 s) : Keeps r0 (State.emberClose s stream seq ts flagged missed) := by
  unfold State.emberClose
  extract_lets a0
  have k0 : Keeps r0 a0
  on_goal 1 => unfold a0
  rotate_left
  clear_value a0
  all_goals repeat' first
    | with_reducible assumption
    | intro _
    | with_reducible apply State.modEmber_keeps
    | with_reducible apply Keeps.ite
    | with_reducible apply Keeps.foldl
    | with_reducible apply Keeps.foldlFst
    | fail_if_no_progress with_reducible apply Keeps.upd
    | split
    | dsimp only

theorem State.closeFrame_keeps {r0 : State} {s : State} {p : StreamRec} {bits : Nat} {inject : Bool} (hk : Keeps r0 s)
    : Keeps r0 (State.closeFrame s p bits inject) := by
  unfold State.closeFrame
  try dsimp only
  repeat' first
    | with_reducible assumption
    | intro _
    | with_reducible apply State.modCam_keeps
    | with_reducible apply State.raiseFrame_keeps
    | with_reducible apply State.stageFrame_keeps
    | with_reducible apply State.putLine_keeps
    | with_reducible apply State.writeMeta_keeps
    | with_reducible apply State.modFrame_keeps
    | with_reducible apply State.showPipe_keeps
    | with_reducible apply State.endFrame_keeps
    | with_reducible apply State.beginNext_keeps
    | with_reducible apply State.startInjection_keeps
    | with_reducible apply State.closeStaged_keeps
    | with_reducible apply State.emberClose_keeps
    | with_reducible apply Keeps.ite
    | with_reducible apply Keeps.foldl
    | with_reducible apply Keeps.foldlFst
    | fail_if_no_progress with_reducible apply Keeps.upd
    | split

theorem State.showBatch_keeps {r0 : State} {s : State} {bus : Nat} {stream : Nat} {state : Nat} {result : Nat} (hk
    : Keeps r0 s) : Keeps r0 (State.showBatch s bus stream state result) := by
  unfold State.showBatch
  try dsimp only
  repeat' first
    | with_reducible assumption
    | intro _
    | with_reducible apply State.setFld_keeps
    | with_reducible apply Keeps.ite

theorem State.crcFailed_keeps {r0 : State} {s : State} {port : Nat} (hk : Keeps r0 s) : Keeps r0 (State.crcFailed s port) := by
  unfold State.crcFailed
  try dsimp only
  repeat' first
    | with_reducible assumption
    | intro _
    | with_reducible apply State.addCnt_keeps
    | with_reducible apply State.event_keeps

theorem State.emberStart_keeps {r0 : State} {s : State} {stream : Nat} {seq : Word} {ts : Nat} {width : Nat} (hk : Keeps r0 s)
    : Keeps r0 (State.emberStart s stream seq ts width) := by
  unfold State.emberStart
  try dsimp only
  repeat' first
    | with_reducible assumption
    | intro _
    | with_reducible apply State.modEmber_keeps
    | with_reducible apply Keeps.ite
    | with_reducible apply Keeps.foldl
    | with_reducible apply Keeps.foldlFst
    | fail_if_no_progress with_reducible apply Keeps.upd
    | split

theorem State.headerCorrected_keeps {r0 : State} {s : State} {port : Nat} (hk : Keeps r0 s) : Keeps r0
    (State.headerCorrected s port) := by
  unfold State.headerCorrected
  try dsimp only
  repeat' first
    | with_reducible assumption
    | intro _
    | with_reducible apply State.addCnt_keeps
    | with_reducible apply State.event_keeps

theorem State.headerLost_keeps {r0 : State} {s : State} {port : Nat} (hk : Keeps r0 s) : Keeps r0
    (State.headerLost s port) := by
  unfold State.headerLost
  extract_lets a0
  have k0 : Keeps r0 a0
  on_goal 1 => unfold a0
  rotate_left
  clear_value a0
  all_goals repeat' first
    | with_reducible assumption
    | intro _
    | with_reducible apply State.addCnt_keeps
    | with_reducible apply State.event_keeps
    | with_reducible apply State.raiseFrame_keeps
    | with_reducible apply Keeps.ite
    | with_reducible apply Keeps.foldl

theorem State.initCams_keeps {r0 : State} {s : State} (hk : Keeps r0 s) : Keeps r0 (State.initCams s) := by
  unfold State.initCams
  try dsimp only
  repeat' first
    | with_reducible assumption
    | intro _
    | with_reducible apply Keeps.ite
    | with_reducible apply Keeps.foldl
    | with_reducible apply Keeps.foldlFst
    | fail_if_no_progress with_reducible apply Keeps.upd

theorem State.modPort_keeps {r0 : State} {s : State} {n : Nat} {f : PortSt → PortSt} (hk : Keeps r0 s) : Keeps r0
    (State.modPort s n f) := by
  unfold State.modPort
  try dsimp only
  repeat' first
    | with_reducible assumption
    | intro _
    | with_reducible apply Keeps.ite
    | with_reducible apply Keeps.foldl
    | with_reducible apply Keeps.foldlFst
    | fail_if_no_progress with_reducible apply Keeps.upd

theorem State.recordMissed_keeps {r0 : State} {s : State} {p : StreamRec} {tp : Nat} (hk : Keeps r0 s) : Keeps r0
    (State.recordMissed s p tp) := by
  unfold State.recordMissed
  try dsimp only
  repeat' first
    | with_reducible assumption
    | intro _
    | with_reducible apply State.assignSeq_keeps
    | with_reducible apply State.draw_keeps
    | with_reducible apply State.writeMeta_keeps
    | with_reducible apply State.modCam_keeps
    | with_reducible apply State.voidBand_keeps
    | with_reducible apply State.numberRing_keeps
    | with_reducible apply State.voidOutputs_keeps
    | with_reducible apply State.emberClose_keeps
    | with_reducible apply Keeps.ite
    | with_reducible apply Keeps.foldl
    | with_reducible apply Keeps.foldlFst
    | fail_if_no_progress with_reducible apply Keeps.upd
    | split

theorem State.rxDiscard_keeps {r0 : State} {s : State} {port : Nat} {ev : Bits} (hk : Keeps r0 s) : Keeps r0
    (State.rxDiscard s port ev) := by
  unfold State.rxDiscard
  try dsimp only
  repeat' first
    | with_reducible assumption
    | intro _
    | with_reducible apply State.addCnt_keeps
    | with_reducible apply State.event_keeps

theorem State.settleOwed_keeps {r0 : State} {s : State} {p : StreamRec} (hk : Keeps r0 s) : Keeps r0
    (State.settleOwed s p) := by
  unfold State.settleOwed
  try dsimp only
  repeat' first
    | with_reducible assumption
    | intro _
    | with_reducible apply State.recordMissed_keeps
    | with_reducible apply Keeps.ite
    | with_reducible apply Keeps.foldl
    | with_reducible apply Keeps.foldlFst
    | fail_if_no_progress with_reducible apply Keeps.upd
    | split

/-! ### Machine/Journal.lean -/

theorem execEjFwPost_keeps {r0 : State} {bank : Fin 5} {domain : BitVec 4} {value : Word} {s : State} (hk : Keeps r0 s)
    : KeepsRes r0 (execEjFwPost bank domain value s) := by
  unfold execEjFwPost
  extract_lets a0 a1 a2 a3 a4 a5 a6
  try clear_value a0
  try clear_value a1
  try clear_value a2
  try clear_value a3
  try clear_value a4
  try clear_value a5
  have k6 : Keeps r0 a6
  on_goal 1 => unfold a6
  rotate_left
  clear_value a6
  all_goals repeat' first
    | with_reducible assumption
    | intro _
    | with_reducible apply State.log_keeps
    | with_reducible apply State.setFld_keeps
    | with_reducible apply Keeps.ite
    | with_reducible apply Keeps.foldl
    | with_reducible apply Keeps.foldlFst
    | fail_if_no_progress with_reducible apply Keeps.upd
    | with_reducible apply KeepsRes.next
    | with_reducible apply KeepsRes.ite

theorem State.modJournal_keeps {r0 : State} {s : State} {f : Journal → Journal} (hk : Keeps r0 s) : Keeps r0
    (State.modJournal s f) := by
  unfold State.modJournal
  try dsimp only
  repeat' first
    | with_reducible assumption
    | intro _
    | with_reducible apply Keeps.ite
    | with_reducible apply Keeps.foldl
    | with_reducible apply Keeps.foldlFst
    | fail_if_no_progress with_reducible apply Keeps.upd

theorem State.forwardRecords_keeps {r0 : State} {s : State} (hk : Keeps r0 s) : Keeps r0 (State.forwardRecords s) := by
  unfold State.forwardRecords
  try dsimp only
  repeat' first
    | with_reducible assumption
    | intro _
    | with_reducible apply State.modJournal_keeps
    | with_reducible apply State.sendTo_keeps
    | with_reducible apply Keeps.ite
    | with_reducible apply Keeps.foldl
    | with_reducible apply Keeps.foldlFst
    | fail_if_no_progress with_reducible apply Keeps.upd
    | split

theorem State.showUnmirrored_keeps {r0 : State} {s : State} (hk : Keeps r0 s) : Keeps r0 (State.showUnmirrored s) := by
  unfold State.showUnmirrored
  extract_lets a0 a1
  try clear_value a0
  have k1 : Keeps r0 a1
  on_goal 1 => unfold a1
  rotate_left
  clear_value a1
  all_goals repeat' first
    | with_reducible assumption
    | intro _
    | with_reducible apply State.setFld_keeps
    | with_reducible apply State.event_keeps
    | with_reducible apply Keeps.ite

theorem State.enterRing_keeps {r0 : State} {s : State} {r : JRec} (hk : Keeps r0 s) : Keeps r0 (State.enterRing s r) := by
  unfold State.enterRing
  extract_lets a0 a1 a2 a3 a4 a5 a6
  try clear_value a0
  have k1 : Keeps r0 a1
  on_goal 1 => unfold a1
  rotate_left
  clear_value a1
  try clear_value a2
  try clear_value a3
  have k4 : Keeps r0 a4
  on_goal 1 => unfold a4
  rotate_left
  clear_value a4
  have k5 : Keeps r0 a5
  on_goal 1 => unfold a5
  rotate_left
  clear_value a5
  have k6 : Keeps r0 a6
  on_goal 1 => unfold a6
  rotate_left
  clear_value a6
  all_goals repeat' first
    | with_reducible assumption
    | intro _
    | with_reducible apply State.modJournal_keeps
    | with_reducible apply State.setReg_keeps
    | with_reducible apply State.event_keeps
    | with_reducible apply State.forwardRecords_keeps
    | with_reducible apply State.showUnmirrored_keeps
    | with_reducible apply Keeps.ite

theorem State.tellLost_keeps {r0 : State} {s : State} (hk : Keeps r0 s) : Keeps r0 (State.tellLost s) := by
  unfold State.tellLost
  try dsimp only
  repeat' first
    | with_reducible assumption
    | intro _
    | with_reducible apply State.enterRing_keeps
    | with_reducible apply State.modJournal_keeps
    | with_reducible apply Keeps.ite

theorem State.enterNext_keeps {r0 : State} {s : State} (hk : Keeps r0 s) : Keeps r0 (State.enterNext s) := by
  unfold State.enterNext
  try dsimp only
  repeat' first
    | with_reducible assumption
    | intro _
    | with_reducible apply State.modJournal_keeps
    | with_reducible apply State.tellLost_keeps
    | with_reducible apply State.enterRing_keeps
    | with_reducible apply State.loseRecord_keeps
    | with_reducible apply Keeps.ite
    | with_reducible apply Keeps.foldl
    | with_reducible apply Keeps.foldlFst
    | fail_if_no_progress with_reducible apply Keeps.upd
    | split

theorem execJournalDatagramSend_keeps {r0 : State} {s : State} (hk : Keeps r0 s) : KeepsRes r0 (execJournalDatagramSend s) := by
  unfold execJournalDatagramSend
  extract_lets a0 a1 a2 a3 a4 a5 a6 a7
  try clear_value a0
  try clear_value a1
  have k2 : Keeps r0 a2
  on_goal 1 => unfold a2
  rotate_left
  clear_value a2
  try clear_value a3
  try clear_value a4
  try clear_value a5
  try clear_value a6
  have k7 : Keeps r0 a7
  on_goal 1 => unfold a7
  rotate_left
  clear_value a7
  all_goals repeat' first
    | with_reducible assumption
    | intro _
    | with_reducible apply State.event_keeps
    | with_reducible apply State.modJournal_keeps
    | with_reducible apply State.setReg_keeps
    | with_reducible apply State.handOver_keeps
    | with_reducible apply Keeps.ite
    | with_reducible apply Keeps.foldl
    | with_reducible apply Keeps.foldlFst
    | fail_if_no_progress with_reducible apply Keeps.upd
    | with_reducible apply KeepsRes.next
    | with_reducible apply KeepsRes.ite
    | split

theorem execJournalEntry_keeps {r0 : State} {s : State} (hk : Keeps r0 s) : KeepsRes r0 (execJournalEntry s) := by
  unfold execJournalEntry
  try dsimp only
  repeat' first
    | with_reducible assumption
    | intro _
    | with_reducible apply State.enterNext_keeps
    | with_reducible apply Keeps.ite
    | with_reducible apply Keeps.foldl
    | with_reducible apply Keeps.foldlFst
    | fail_if_no_progress with_reducible apply Keeps.upd
    | with_reducible apply KeepsRes.next
    | with_reducible apply KeepsRes.ite

theorem execMirrorCopyDone_keeps {r0 : State} {s : State} (hk : Keeps r0 s) : KeepsRes r0 (execMirrorCopyDone s) := by
  unfold execMirrorCopyDone
  try dsimp only
  repeat' first
    | with_reducible assumption
    | intro _
    | with_reducible apply State.write_keeps
    | with_reducible apply State.modJournal_keeps
    | with_reducible apply State.tellLost_keeps
    | with_reducible apply State.showUnmirrored_keeps
    | with_reducible apply Keeps.ite
    | with_reducible apply Keeps.foldl
    | with_reducible apply Keeps.foldlFst
    | fail_if_no_progress with_reducible apply Keeps.upd
    | with_reducible apply KeepsRes.next
    | with_reducible apply KeepsRes.ite
    | split

/-! ### Machine/Time.lean -/

theorem State.captureNow_keeps {r0 : State} {s : State} {bank : Nat} (hk : Keeps r0 s) : Keeps r0
    (State.captureNow s bank) := by
  unfold State.captureNow
  try dsimp only
  repeat' first
    | with_reducible assumption
    | intro _
    | with_reducible apply State.setReg_keeps

theorem State.modTl_keeps {r0 : State} {s : State} {f : TimeSt → TimeSt} (hk : Keeps r0 s) : Keeps r0 (State.modTl s f) := by
  unfold State.modTl
  try dsimp only
  repeat' first
    | with_reducible assumption
    | intro _
    | with_reducible apply Keeps.ite
    | with_reducible apply Keeps.foldl
    | with_reducible apply Keeps.foldlFst
    | fail_if_no_progress with_reducible apply Keeps.upd

theorem State.shiftTime_keeps {r0 : State} {s : State} {d : Int} (hk : Keeps r0 s) : Keeps r0 (State.shiftTime s d) := by
  unfold State.shiftTime
  extract_lets a0 a1 a2 a3 a4 a5
  have k0 : Keeps r0 a0
  on_goal 1 => unfold a0
  rotate_left
  clear_value a0
  have k1 : Keeps r0 a1
  on_goal 1 => unfold a1
  rotate_left
  clear_value a1
  try clear_value a2
  try clear_value a3
  try clear_value a4
  have k5 : Keeps r0 a5
  on_goal 1 => unfold a5
  rotate_left
  clear_value a5
  all_goals repeat' first
    | with_reducible assumption
    | intro _
    | with_reducible apply State.modTl_keeps
    | with_reducible apply Keeps.ite
    | with_reducible apply Keeps.foldl
    | with_reducible apply Keeps.foldlFst
    | fail_if_no_progress with_reducible apply Keeps.upd

theorem State.stepTime_keeps {r0 : State} {s : State} {d : Int} (hk : Keeps r0 s) : Keeps r0 (State.stepTime s d) := by
  unfold State.stepTime
  extract_lets a0 a1
  have k0 : Keeps r0 a0
  on_goal 1 => unfold a0
  rotate_left
  clear_value a0
  try clear_value a1
  all_goals repeat' first
    | with_reducible assumption
    | intro _
    | with_reducible apply State.event_keeps
    | with_reducible apply State.addFld_keeps
    | with_reducible apply State.shiftTime_keeps
    | with_reducible apply State.log_keeps

theorem State.slew_keeps {r0 : State} {s : State} (hk : Keeps r0 s) : Keeps r0 (State.slew s) := by
  unfold State.slew
  extract_lets a0
  have k0 : Keeps r0 a0.2
  on_goal 1 => unfold a0
  rotate_left
  clear_value a0
  all_goals repeat' first
    | with_reducible assumption
    | intro _
    | with_reducible apply State.draw_keeps
    | with_reducible apply State.setReg_keeps

theorem State.correct_keeps {r0 : State} {s : State} {offset : Int} (hk : Keeps r0 s) : Keeps r0 (State.correct s offset) := by
  unfold State.correct
  try dsimp only
  repeat' first
    | with_reducible assumption
    | intro _
    | with_reducible apply State.stepTime_keeps
    | with_reducible apply State.modTl_keeps
    | with_reducible apply State.slew_keeps
    | with_reducible apply Keeps.ite

theorem State.enterTl_keeps {r0 : State} {s : State} {st : Nat} (hk : Keeps r0 s) : Keeps r0 (State.enterTl s st) := by
  unfold State.enterTl
  extract_lets a0 a1
  try clear_value a0
  have k1 : Keeps r0 a1
  on_goal 1 => unfold a1
  rotate_left
  clear_value a1
  all_goals repeat' first
    | with_reducible assumption
    | intro _
    | with_reducible apply State.setFld_keeps
    | with_reducible apply State.log_keeps

theorem State.hearSource_keeps {r0 : State} {s : State} {source : Nat} (hk : Keeps r0 s) : Keeps r0
    (State.hearSource s source).1 := by
  unfold State.hearSource
  try dsimp only
  repeat' first
    | with_reducible assumption
    | intro _
    | with_reducible apply State.modTl_keeps
    | with_reducible apply Keeps.ite
    | with_reducible apply Keeps.foldl
    | with_reducible apply Keeps.foldlFst
    | fail_if_no_progress with_reducible apply Keeps.upd
    | split

theorem State.lockWatch_keeps {r0 : State} {s : State} {offset : Int} (hk : Keeps r0 s) : Keeps r0
    (State.lockWatch s offset) := by
  unfold State.lockWatch
  extract_lets a0 a1
  try clear_value a0
  have k1 : Keeps r0 a1
  on_goal 1 => unfold a1
  rotate_left
  clear_value a1
  all_goals repeat' first
    | with_reducible assumption
    | intro _
    | with_reducible apply State.modTl_keeps
    | with_reducible apply State.setFlag_keeps
    | with_reducible apply State.enterTl_keeps
    | with_reducible apply Keeps.ite

theorem State.showSource_keeps {r0 : State} {s : State} {source : Nat} {offset : Int} (hk : Keeps r0 s) : Keeps r0
    (State.showSource s source offset) := by
  unfold State.showSource
  extract_lets a0
  have k0 : Keeps r0 a0
  on_goal 1 => unfold a0
  rotate_left
  clear_value a0
  all_goals repeat' first
    | with_reducible assumption
    | intro _
    | with_reducible apply State.event_keeps
    | with_reducible apply State.setFld_keeps
    | with_reducible apply Keeps.ite

theorem execTlHoldoverTimeout_keeps {r0 : State} {s : State} (hk : Keeps r0 s) : KeepsRes r0 (execTlHoldoverTimeout s) := by
  unfold execTlHoldoverTimeout
  extract_lets a0 a1 a2
  try clear_value a0
  have k1 : Keeps r0 a1
  on_goal 1 => unfold a1
  rotate_left
  clear_value a1
  have k2 : Keeps r0 a2
  on_goal 1 => unfold a2
  rotate_left
  clear_value a2
  all_goals repeat' first
    | with_reducible assumption
    | intro _
    | with_reducible apply State.reach_keeps
    | with_reducible apply State.modTl_keeps
    | with_reducible apply State.event_keeps
    | with_reducible apply State.enterTl_keeps
    | with_reducible apply Keeps.ite
    | with_reducible apply Keeps.foldl
    | with_reducible apply Keeps.foldlFst
    | fail_if_no_progress with_reducible apply Keeps.upd
    | with_reducible apply KeepsRes.next
    | with_reducible apply KeepsRes.ite

theorem execTlLostTimeout_keeps {r0 : State} {s : State} (hk : Keeps r0 s) : KeepsRes r0 (execTlLostTimeout s) := by
  unfold execTlLostTimeout
  extract_lets a0
  have k0 : Keeps r0 a0
  on_goal 1 => unfold a0
  rotate_left
  clear_value a0
  all_goals repeat' first
    | with_reducible assumption
    | intro _
    | with_reducible apply State.reach_keeps
    | with_reducible apply State.event_keeps
    | with_reducible apply State.enterTl_keeps
    | with_reducible apply Keeps.ite
    | with_reducible apply Keeps.foldl
    | with_reducible apply Keeps.foldlFst
    | fail_if_no_progress with_reducible apply Keeps.upd
    | with_reducible apply KeepsRes.next
    | with_reducible apply KeepsRes.ite

theorem execTlNowHiRead_keeps {r0 : State} {s : State} (hk : Keeps r0 s) : KeepsRes r0 (execTlNowHiRead s) := by
  unfold execTlNowHiRead
  try dsimp only
  repeat' first
    | with_reducible assumption
    | intro _
    | with_reducible apply State.captureNow_keeps
    | with_reducible apply State.setReg_keeps
    | with_reducible apply Keeps.ite
    | with_reducible apply Keeps.foldl
    | with_reducible apply Keeps.foldlFst
    | fail_if_no_progress with_reducible apply Keeps.upd
    | with_reducible apply KeepsRes.next

theorem execTlServoUpdate_keeps {r0 : State} {source : Fin 8} {offset : Int} {s : State} (hk : Keeps r0 s) : KeepsRes r0
    (execTlServoUpdate source offset s) := by
  unfold execTlServoUpdate
  extract_lets a0 a1 a2
  have k0 : Keeps r0 a0.1
  on_goal 1 => unfold a0
  rotate_left
  clear_value a0
  have k1 : Keeps r0 a1
  on_goal 1 => unfold a1
  rotate_left
  clear_value a1
  have k2 : Keeps r0 a2
  on_goal 1 => unfold a2
  rotate_left
  clear_value a2
  all_goals repeat' first
    | with_reducible assumption
    | intro _
    | with_reducible apply State.hearSource_keeps
    | with_reducible apply State.showSource_keeps
    | with_reducible apply State.enterTl_keeps
    | with_reducible apply State.modTl_keeps
    | with_reducible apply State.lockWatch_keeps
    | with_reducible apply State.correct_keeps
    | with_reducible apply Keeps.ite
    | with_reducible apply Keeps.foldl
    | with_reducible apply Keeps.foldlFst
    | fail_if_no_progress with_reducible apply Keeps.upd
    | with_reducible apply KeepsRes.next
    | with_reducible apply KeepsRes.ite

/-! ### Machine/KinOps.lean -/

theorem State.modPins_keeps {r0 : State} {s : State} {f : Pins → Pins} (hk : Keeps r0 s) : Keeps r0 (State.modPins s f) := by
  unfold State.modPins
  try dsimp only
  repeat' first
    | with_reducible assumption
    | intro _
    | with_reducible apply Keeps.ite
    | with_reducible apply Keeps.foldl
    | with_reducible apply Keeps.foldlFst
    | fail_if_no_progress with_reducible apply Keeps.upd

theorem State.assignGpio_keeps {r0 : State} {s : State} (hk : Keeps r0 s) : Keeps r0 (State.assignGpio s) := by
  unfold State.assignGpio
  try dsimp only
  repeat' first
    | with_reducible assumption
    | intro _
    | with_reducible apply State.modPins_keeps
    | with_reducible apply Keeps.ite
    | with_reducible apply Keeps.foldl
    | with_reducible apply Keeps.foldlFst
    | fail_if_no_progress with_reducible apply Keeps.upd
    | split

theorem State.bindScene_keeps {r0 : State} {s : State} {n : Nat} (hk : Keeps r0 s) : Keeps r0 (State.bindScene s n) := by
  unfold State.bindScene
  try dsimp only
  repeat' first
    | with_reducible assumption
    | intro _
    | with_reducible apply State.bindLayer_keeps
    | with_reducible apply State.openLayer_keeps
    | with_reducible apply State.setFlag_keeps
    | with_reducible apply State.setFld_keeps
    | with_reducible apply State.syncCoverage_keeps
    | with_reducible apply Keeps.ite
    | with_reducible apply Keeps.foldl
    | with_reducible apply Keeps.foldlFst
    | fail_if_no_progress with_reducible apply Keeps.upd
    | split

theorem State.setStage_keeps {r0 : State} {s : State} {n : Nat} (hk : Keeps r0 s) : Keeps r0 (State.setStage s n) := by
  unfold State.setStage
  try dsimp only
  repeat' first
    | with_reducible assumption
    | intro _
    | with_reducible apply State.setFld_keeps

theorem State.modKin_keeps {r0 : State} {s : State} {f : Kindle → Kindle} (hk : Keeps r0 s) : Keeps r0 (State.modKin s f) := by
  unfold State.modKin
  try dsimp only
  repeat' first
    | with_reducible assumption
    | intro _
    | with_reducible apply Keeps.ite
    | with_reducible apply Keeps.foldl
    | with_reducible apply Keeps.foldlFst
    | fail_if_no_progress with_reducible apply Keeps.upd

theorem State.modSafety_keeps {r0 : State} {s : State} {f : Safety → Safety} (hk : Keeps r0 s) : Keeps r0
    (State.modSafety s f) := by
  unfold State.modSafety
  try dsimp only
  repeat' first
    | with_reducible assumption
    | intro _
    | with_reducible apply Keeps.ite
    | with_reducible apply Keeps.foldl
    | with_reducible apply Keeps.foldlFst
    | fail_if_no_progress with_reducible apply Keeps.upd

theorem State.coverAll_keeps {r0 : State} {s : State} (hk : Keeps r0 s) : Keeps r0 (State.coverAll s) := by
  unfold State.coverAll
  try dsimp only
  repeat' first
    | with_reducible assumption
    | intro _
    | with_reducible apply State.modSafety_keeps

theorem State.gpioSafe_keeps {r0 : State} {s : State} (hk : Keeps r0 s) : Keeps r0 (State.gpioSafe s) := by
  unfold State.gpioSafe
  try dsimp only
  repeat' first
    | with_reducible assumption
    | intro _
    | with_reducible apply State.modPins_keeps
    | with_reducible apply Keeps.ite
    | with_reducible apply Keeps.foldl

theorem State.kindlingFail_keeps {r0 : State} {s : State} {code : Nat} {region : Nat} {pos : Nat} (hk : Keeps r0 s) : Keeps r0
    (State.kindlingFail s code region pos) := by
  unfold State.kindlingFail
  extract_lets a0 a1 a2 a3 a4 a5 a6
  have k0 : Keeps r0 a0
  on_goal 1 => unfold a0
  rotate_left
  clear_value a0
  try clear_value a1
  try clear_value a2
  have k3 : Keeps r0 a3
  on_goal 1 => unfold a3
  rotate_left
  clear_value a3
  have k4 : Keeps r0 a4
  on_goal 1 => unfold a4
  rotate_left
  clear_value a4
  try clear_value a5
  have k6 : Keeps r0 a6
  on_goal 1 => unfold a6
  rotate_left
  clear_value a6
  all_goals repeat' first
    | with_reducible assumption
    | intro _
    | with_reducible apply State.log_keeps
    | with_reducible apply State.coreOff_keeps
    | with_reducible apply State.setReg_keeps
    | with_reducible apply State.setFld_keeps
    | with_reducible apply State.setStage_keeps

theorem State.failCandidate_keeps {r0 : State} {s : State} {code : Nat} {pos : Nat} (hk : Keeps r0 s) : Keeps r0
    (State.failCandidate s code pos) := by
  unfold State.failCandidate
  extract_lets a0
  have k0 : Keeps r0 a0
  on_goal 1 => unfold a0
  rotate_left
  clear_value a0
  all_goals repeat' first
    | with_reducible assumption
    | intro _
    | with_reducible apply State.log_keeps
    | with_reducible apply State.setStage_keeps
    | with_reducible apply State.modKin_keeps
    | with_reducible apply State.kindlingFail_keeps
    | with_reducible apply Keeps.ite
    | with_reducible apply Keeps.foldl
    | with_reducible apply Keeps.foldlFst
    | fail_if_no_progress with_reducible apply Keeps.upd
    | split

theorem State.kinFence_keeps {r0 : State} {s : State} {code : Nat} {cause : Nat} (hk : Keeps r0 s) : Keeps r0
    (State.kinFence s code cause) := by
  unfold State.kinFence
  extract_lets a0 a1 a2 a3 a4 a5
  try clear_value a0
  have k1 : Keeps r0 a1
  on_goal 1 => unfold a1
  rotate_left
  clear_value a1
  have k2 : Keeps r0 a2
  on_goal 1 => unfold a2
  rotate_left
  clear_value a2
  have k3 : Keeps r0 a3
  on_goal 1 => unfold a3
  rotate_left
  clear_value a3
  have k4 : Keeps r0 a4
  on_goal 1 => unfold a4
  rotate_left
  clear_value a4
  try clear_value a5
  all_goals repeat' first
    | with_reducible assumption
    | intro _
    | with_reducible apply State.setUnit_keeps
    | with_reducible apply State.event_keeps
    | with_reducible apply State.gateUnit_keeps
    | with_reducible apply State.log_keeps
    | with_reducible apply State.addFld_keeps
    | with_reducible apply State.setFld_keeps
    | with_reducible apply State.modCore_keeps
    | with_reducible apply Keeps.ite
    | with_reducible apply Keeps.foldl
    | with_reducible apply Keeps.foldlFst
    | fail_if_no_progress with_reducible apply Keeps.upd
    | split

theorem State.powerAll_keeps {r0 : State} {s : State} (hk : Keeps r0 s) : Keeps r0 (State.powerAll s) := by
  unfold State.powerAll
  extract_lets a0
  have k0 : Keeps r0 a0
  on_goal 1 => unfold a0
  rotate_left
  clear_value a0
  all_goals repeat' first
    | with_reducible assumption
    | intro _
    | with_reducible apply State.modUnit_keeps
    | with_reducible apply State.setDomain_keeps
    | with_reducible apply Keeps.ite
    | with_reducible apply Keeps.foldl

theorem State.raiseErrIn_keeps {r0 : State} {s : State} (hk : Keeps r0 s) : Keeps r0 (State.raiseErrIn s) := by
  unfold State.raiseErrIn
  extract_lets a0 a1 a2
  try clear_value a0
  have k1 : Keeps r0 a1
  on_goal 1 => unfold a1
  rotate_left
  clear_value a1
  have k2 : Keeps r0 a2
  on_goal 1 => unfold a2
  rotate_left
  clear_value a2
  all_goals repeat' first
    | with_reducible assumption
    | intro _
    | with_reducible apply State.log_keeps
    | with_reducible apply State.modSafety_keeps
    | with_reducible apply State.doubt_keeps
    | with_reducible apply State.severe_keeps
    | with_reducible apply Keeps.ite

theorem State.ready_keeps {r0 : State} {s : State} (hk : Keeps r0 s) : Keeps r0 (State.ready s) := by
  unfold State.ready
  extract_lets a0 a1 a2 a3 a4 a5 a6 a7 a8 a9 a10 a11 a12 a13 a14 a15 a16 a17
  try clear_value a0
  try clear_value a1
  try clear_value a2
  have k3 : Keeps r0 a3
  on_goal 1 => unfold a3
  rotate_left
  clear_value a3
  have k4 : Keeps r0 a4
  on_goal 1 => unfold a4
  rotate_left
  clear_value a4
  have k7 : Keeps r0 a7
  · unfold a7
    split
    · rename_i hc
      simp only [Bool.and_eq_true, decide_eq_true_eq] at hc
      exact Keeps.burn hc.2 k4
    · exact k4
  clear_value a7
  have k8 : Keeps r0 a8
  on_goal 1 => unfold a8
  rotate_left
  clear_value a8
  have k9 : Keeps r0 a9
  on_goal 1 => unfold a9
  rotate_left
  clear_value a9
  have k10 : Keeps r0 a10
  on_goal 1 => unfold a10
  rotate_left
  clear_value a10
  have k11 : Keeps r0 a11
  on_goal 1 => unfold a11
  rotate_left
  clear_value a11
  have k12 : Keeps r0 a12
  on_goal 1 => unfold a12
  rotate_left
  clear_value a12
  have k13 : Keeps r0 a13
  on_goal 1 => unfold a13
  rotate_left
  clear_value a13
  have k14 : Keeps r0 a14
  on_goal 1 => unfold a14
  rotate_left
  clear_value a14
  have k15 : Keeps r0 a15
  on_goal 1 => unfold a15
  rotate_left
  clear_value a15
  have k16 : Keeps r0 a16
  on_goal 1 => unfold a16
  rotate_left
  clear_value a16
  have k17 : Keeps r0 a17
  on_goal 1 => unfold a17
  rotate_left
  clear_value a17
  all_goals repeat' first
    | with_reducible assumption
    | intro _
    | with_reducible apply State.setFld_keeps
    | with_reducible apply State.setStage_keeps
    | with_reducible apply State.setReg_keeps
    | with_reducible apply State.modKin_keeps
    | with_reducible apply State.modPins_keeps
    | with_reducible apply State.setFlag_keeps
    | with_reducible apply State.raiseErrIn_keeps
    | with_reducible apply State.modSel_keeps
    | with_reducible apply State.startCounts_keeps
    | with_reducible apply State.modEmber_keeps
    | with_reducible apply State.gateUnbound_keeps
    | with_reducible apply State.setService_keeps
    | with_reducible apply State.refreshActive_keeps
    | with_reducible apply State.syncCoverage_keeps
    | with_reducible apply Keeps.ite
    | with_reducible apply Keeps.foldl

theorem State.recoveryHold_keeps {r0 : State} {s : State} {code : Nat} (hk : Keeps r0 s) : Keeps r0
    (State.recoveryHold s code) := by
  unfold State.recoveryHold
  extract_lets a0
  have k0 : Keeps r0 a0
  on_goal 1 => unfold a0
  rotate_left
  clear_value a0
  all_goals repeat' first
    | with_reducible assumption
    | intro _
    | with_reducible apply State.coreOff_keeps
    | with_reducible apply State.modKin_keeps
    | with_reducible apply State.setFld_keeps
    | with_reducible apply State.setStage_keeps

theorem State.startLinks_keeps {r0 : State} {s : State} (hk : Keeps r0 s) : Keeps r0 (State.startLinks s) := by
  unfold State.startLinks
  extract_lets a0 a1 a2
  try clear_value a0
  try clear_value a1
  have k2 : Keeps r0 a2
  on_goal 1 => unfold a2
  rotate_left
  clear_value a2
  all_goals repeat' first
    | with_reducible assumption
    | intro _
    | with_reducible apply State.setFld_keeps
    | with_reducible apply Keeps.ite
    | with_reducible apply Keeps.foldl
    | with_reducible apply Keeps.foldlFst
    | fail_if_no_progress with_reducible apply Keeps.upd
    | split

theorem State.startKindling_keeps {r0 : State} {s : State} (hk : Keeps r0 s) : Keeps r0 (State.startKindling s) := by
  unfold State.startKindling
  extract_lets a0 a1 a2
  have k0 : Keeps r0 a0
  on_goal 1 => unfold a0
  rotate_left
  clear_value a0
  have k1 : Keeps r0 a1
  on_goal 1 => unfold a1
  rotate_left
  clear_value a1
  have k2 : Keeps r0 a2
  on_goal 1 => unfold a2
  rotate_left
  clear_value a2
  all_goals repeat' first
    | with_reducible assumption
    | intro _
    | with_reducible apply State.startLinks_keeps
    | with_reducible apply State.setStage_keeps
    | with_reducible apply State.setReg_keeps
    | with_reducible apply State.modTl_keeps
    | with_reducible apply State.modKin_keeps

theorem State.releaseCore_keeps {r0 : State} {s : State} (hk : Keeps r0 s) : Keeps r0 (State.releaseCore s) := by
  unfold State.releaseCore
  extract_lets a0
  have k0 : Keeps r0 a0
  on_goal 1 => unfold a0
  rotate_left
  clear_value a0
  all_goals repeat' first
    | with_reducible assumption
    | intro _
    | with_reducible apply State.modKin_keeps
    | with_reducible apply State.recoveryHold_keeps
    | with_reducible apply State.startKindling_keeps
    | with_reducible apply Keeps.ite

theorem State.serviceBank_keeps {r0 : State} {s : State} (hk : Keeps r0 s) : Keeps r0 (State.serviceBank s) := by
  unfold State.serviceBank
  try dsimp only
  repeat' first
    | with_reducible assumption
    | intro _
    | with_reducible apply State.modPipe_keeps
    | with_reducible apply State.setFlag_keeps
    | with_reducible apply Keeps.ite
    | with_reducible apply Keeps.foldl

theorem State.startLoad_keeps {r0 : State} {s : State} (hk : Keeps r0 s) : Keeps r0 (State.startLoad s) := by
  unfold State.startLoad
  extract_lets a0 a1 a2
  try clear_value a0
  have k1 : Keeps r0 a1
  on_goal 1 => unfold a1
  rotate_left
  clear_value a1
  try clear_value a2
  all_goals repeat' first
    | with_reducible assumption
    | intro _
    | with_reducible apply State.setFlag_keeps
    | with_reducible apply State.modJournal_keeps
    | with_reducible apply State.setStage_keeps
    | with_reducible apply State.modSafety_keeps

theorem State.unbindAll_keeps {r0 : State} {s : State} (hk : Keeps r0 s) : Keeps r0 (State.unbindAll s) := by
  unfold State.unbindAll
  extract_lets a0 a1 a2 a3 a4
  try clear_value a0
  try clear_value a1
  have k2 : Keeps r0 a2
  on_goal 1 => unfold a2
  rotate_left
  clear_value a2
  try clear_value a3
  have k4 : Keeps r0 a4
  on_goal 1 => unfold a4
  rotate_left
  clear_value a4
  all_goals repeat' first
    | with_reducible assumption
    | intro _
    | with_reducible apply State.unbindStream_keeps
    | with_reducible apply State.syncCvus_keeps
    | with_reducible apply State.removeLayer_keeps
    | with_reducible apply Keeps.ite
    | with_reducible apply Keeps.foldl
    | with_reducible apply Keeps.foldlFst
    | fail_if_no_progress with_reducible apply Keeps.upd

theorem State.verifyMismatch_keeps {r0 : State} {s : State} {code : Nat} (hk : Keeps r0 s) : Keeps r0
    (State.verifyMismatch s code) := by
  unfold State.verifyMismatch
  extract_lets a0 a1 a2
  have k0 : Keeps r0 a0
  on_goal 1 => unfold a0
  rotate_left
  clear_value a0
  have k1 : Keeps r0 a1
  on_goal 1 => unfold a1
  rotate_left
  clear_value a1
  try clear_value a2
  all_goals repeat' first
    | with_reducible assumption
    | intro _
    | with_reducible apply State.kinFence_keeps
    | with_reducible apply State.modSafety_keeps
    | with_reducible apply State.kindlingFail_keeps
    | with_reducible apply State.bindScene_keeps
    | with_reducible apply State.unbindAll_keeps
    | with_reducible apply Keeps.ite
    | with_reducible apply Keeps.foldl
    | with_reducible apply Keeps.foldlFst
    | fail_if_no_progress with_reducible apply Keeps.upd
    | split

theorem State.warmReset_keeps {r0 : State} {s : State} {cause : Bits} {hold : Bool} (hk : Keeps r0 s) : Keeps r0
    (State.warmReset s cause hold) := by
  unfold State.warmReset
  extract_lets a0 a1 a2 a3
  try clear_value a0
  try clear_value a1
  have k2 : Keeps r0 a2
  on_goal 1 => unfold a2
  rotate_left
  clear_value a2
  have k3 : Keeps r0 a3
  on_goal 1 => unfold a3
  rotate_left
  clear_value a3
  all_goals repeat' first
    | with_reducible assumption
    | intro _
    | with_reducible apply State.modKin_keeps
    | with_reducible apply State.setFld_keeps
    | with_reducible apply State.addFld_keeps
    | with_reducible apply State.coreOff_keeps
    | with_reducible apply Keeps.ite

/-! ### Machine/Warp.lean -/

theorem State.footprint_keeps {r0 : State} {s : State} {c : StepCtx} {n : Nat} (hk : Keeps r0 s) : Keeps r0
    (State.footprint s c n) := by
  unfold State.footprint
  extract_lets a0 a1 a2
  have k0 : Keeps r0 a0
  on_goal 1 => unfold a0
  rotate_left
  clear_value a0
  try clear_value a1
  have k2 : Keeps r0 a2
  on_goal 1 => unfold a2
  rotate_left
  clear_value a2
  all_goals repeat' first
    | with_reducible assumption
    | intro _
    | with_reducible apply State.flagStep_keeps
    | with_reducible apply State.event_keeps
    | with_reducible apply State.addCnt_keeps
    | with_reducible apply State.log_keeps
    | with_reducible apply State.modInst_keeps
    | with_reducible apply Keeps.ite
    | with_reducible apply Keeps.foldl
    | with_reducible apply Keeps.foldlFst
    | fail_if_no_progress with_reducible apply Keeps.upd
    | split

theorem runWarp_keeps {r0 : State} {s : State} {c : StepCtx} {d : List Byte} (hk : Keeps r0 s) : Keeps r0 (runWarp s c d) := by
  unfold runWarp
  try dsimp only
  repeat' first
    | with_reducible assumption
    | intro _
    | with_reducible apply State.fetchRuns_keeps
    | with_reducible apply State.storeRuns_keeps
    | with_reducible apply State.event_keeps
    | with_reducible apply State.addCnt_keeps
    | with_reducible apply State.addKilo_keeps
    | with_reducible apply State.footprint_keeps
    | with_reducible apply State.stepDone_keeps
    | with_reducible apply Keeps.ite
    | with_reducible apply Keeps.foldl
    | with_reducible apply Keeps.foldlFst
    | fail_if_no_progress with_reducible apply Keeps.upd
    | split
    | dsimp only
    | (with_reducible apply Keeps.of_fst; rotate_left; with_reducible assumption)

theorem State.warpStep_keeps {r0 : State} {s : State} {inst : Nat} {op : Nat} {err : StepErr} (hk : Keeps r0 s) : Keeps r0
    (State.warpStep s inst op err) := by
  unfold State.warpStep
  try dsimp only
  repeat' first
    | with_reducible assumption
    | intro _
    | with_reducible apply State.engineStep_keeps
    | with_reducible apply runWarp_keeps

theorem execAffine_keeps {r0 : State} {inst : Fin 4} {err : StepErr} {s : State} (hk : Keeps r0 s) : KeepsRes r0
    (execAffine inst err s) := by
  unfold execAffine
  try dsimp only
  repeat' first
    | with_reducible assumption
    | intro _
    | with_reducible apply State.warpStep_keeps
    | with_reducible apply Keeps.ite
    | with_reducible apply Keeps.foldl
    | with_reducible apply Keeps.foldlFst
    | fail_if_no_progress with_reducible apply Keeps.upd
    | with_reducible apply KeepsRes.next

theorem execHomography_keeps {r0 : State} {inst : Fin 4} {err : StepErr} {s : State} (hk : Keeps r0 s) : KeepsRes r0
    (execHomography inst err s) := by
  unfold execHomography
  try dsimp only
  repeat' first
    | with_reducible assumption
    | intro _
    | with_reducible apply State.warpStep_keeps
    | with_reducible apply Keeps.ite
    | with_reducible apply Keeps.foldl
    | with_reducible apply Keeps.foldlFst
    | fail_if_no_progress with_reducible apply Keeps.upd
    | with_reducible apply KeepsRes.next

theorem execMesh_keeps {r0 : State} {inst : Fin 4} {err : StepErr} {s : State} (hk : Keeps r0 s) : KeepsRes r0
    (execMesh inst err s) := by
  unfold execMesh
  try dsimp only
  repeat' first
    | with_reducible assumption
    | intro _
    | with_reducible apply State.warpStep_keeps
    | with_reducible apply Keeps.ite
    | with_reducible apply Keeps.foldl
    | with_reducible apply Keeps.foldlFst
    | fail_if_no_progress with_reducible apply Keeps.upd
    | with_reducible apply KeepsRes.next

theorem runPyr_keeps {r0 : State} {s : State} {c : StepCtx} {d : List Byte} (hk : Keeps r0 s) : Keeps r0 (runPyr s c d) := by
  unfold runPyr
  try dsimp only
  repeat' first
    | with_reducible assumption
    | intro _
    | with_reducible apply State.fetchRuns_keeps
    | with_reducible apply State.storeRuns_keeps
    | with_reducible apply State.addKilo_keeps
    | with_reducible apply State.addCnt_keeps
    | with_reducible apply State.setFlag_keeps
    | with_reducible apply State.stepDone_keeps
    | with_reducible apply Keeps.ite
    | with_reducible apply Keeps.foldl
    | with_reducible apply Keeps.foldlFst
    | fail_if_no_progress with_reducible apply Keeps.upd
    | split
    | dsimp only
    | (with_reducible apply Keeps.of_fst; rotate_left; with_reducible assumption)

theorem execPyramid_keeps {r0 : State} {inst : Fin 4} {err : StepErr} {s : State} (hk : Keeps r0 s) : KeepsRes r0
    (execPyramid inst err s) := by
  unfold execPyramid
  try dsimp only
  repeat' first
    | with_reducible assumption
    | intro _
    | with_reducible apply State.engineStep_keeps
    | with_reducible apply runPyr_keeps
    | with_reducible apply Keeps.ite
    | with_reducible apply Keeps.foldl
    | with_reducible apply Keeps.foldlFst
    | fail_if_no_progress with_reducible apply Keeps.upd
    | with_reducible apply KeepsRes.next

theorem execRectPair_keeps {r0 : State} {inst : Fin 4} {err : StepErr} {s : State} (hk : Keeps r0 s) : KeepsRes r0
    (execRectPair inst err s) := by
  unfold execRectPair
  try dsimp only
  repeat' first
    | with_reducible assumption
    | intro _
    | with_reducible apply State.warpStep_keeps
    | with_reducible apply Keeps.ite
    | with_reducible apply Keeps.foldl
    | with_reducible apply Keeps.foldlFst
    | fail_if_no_progress with_reducible apply Keeps.upd
    | with_reducible apply KeepsRes.next

/-! ### Machine/Stereo.lean -/

theorem State.countCodes_keeps {r0 : State} {s : State} {reg : Nat → Nat} {codes : List Nat} (hk : Keeps r0 s) : Keeps r0
    (State.countCodes s reg codes) := by
  unfold State.countCodes
  try dsimp only
  repeat' first
    | with_reducible assumption
    | intro _
    | with_reducible apply State.addCnt_keeps
    | with_reducible apply Keeps.ite
    | with_reducible apply Keeps.foldl

theorem State.motionMiss_keeps {r0 : State} {s : State} {c : StepCtx} {bit : Nat} {cnt : Nat} (hk : Keeps r0 s) : Keeps r0
    (State.motionMiss s c bit cnt) := by
  unfold State.motionMiss
  try dsimp only
  repeat' first
    | with_reducible assumption
    | intro _
    | with_reducible apply State.log_keeps
    | with_reducible apply State.event_keeps
    | with_reducible apply State.addCnt_keeps

theorem State.strFinish_keeps {r0 : State} {s : State} {c : StepCtx} {j : StrJob} {miss : Bool} (hk : Keeps r0 s) : Keeps r0
    (State.strFinish s c j miss) := by
  unfold State.strFinish
  try dsimp only
  repeat' first
    | with_reducible assumption
    | intro _
    | with_reducible apply State.storeRuns_keeps
    | with_reducible apply State.motionMiss_keeps
    | with_reducible apply State.event_keeps
    | with_reducible apply State.addKilo_keeps
    | with_reducible apply State.addCnt_keeps
    | with_reducible apply State.setFlag_keeps
    | with_reducible apply State.countCodes_keeps
    | with_reducible apply State.stepDone_keeps
    | with_reducible apply Keeps.ite
    | with_reducible apply Keeps.foldl
    | with_reducible apply Keeps.foldlFst
    | fail_if_no_progress with_reducible apply Keeps.upd
    | split
    | dsimp only
    | (with_reducible apply Keeps.of_fst; rotate_left; with_reducible assumption)

theorem runStr_keeps {r0 : State} {s : State} {c : StepCtx} {d : List Byte} (hk : Keeps r0 s) : Keeps r0 (runStr s c d) := by
  unfold runStr
  try dsimp only
  repeat' first
    | with_reducible assumption
    | intro _
    | with_reducible apply State.fetchRuns_keeps
    | with_reducible apply State.strFinish_keeps
    | with_reducible apply Keeps.ite
    | with_reducible apply Keeps.foldl
    | with_reducible apply Keeps.foldlFst
    | fail_if_no_progress with_reducible apply Keeps.upd
    | split
    | dsimp only
    | (with_reducible apply Keeps.of_fst; rotate_left; with_reducible assumption)

theorem execStereo_keeps {r0 : State} {inst : Fin 4} {err : StepErr} {s : State} (hk : Keeps r0 s) : KeepsRes r0
    (execStereo inst err s) := by
  unfold execStereo
  try dsimp only
  repeat' first
    | with_reducible assumption
    | intro _
    | with_reducible apply State.engineStep_keeps
    | with_reducible apply runStr_keeps
    | with_reducible apply Keeps.ite
    | with_reducible apply Keeps.foldl
    | with_reducible apply Keeps.foldlFst
    | fail_if_no_progress with_reducible apply Keeps.upd
    | with_reducible apply KeepsRes.next

/-! ### Machine/Flow.lean -/

theorem State.flwStore_keeps {r0 : State} {s : State} {c : StepCtx} {j : FlwJob} {rows : List (List FlwPix)} {refined : Nat}
    {extra : State → State} (hk : Keeps r0 s) (hextra : ∀ y0, Keeps r0 y0 → Keeps r0 (extra y0)) : Keeps r0
    (State.flwStore s c j rows refined extra) := by
  unfold State.flwStore
  try dsimp only
  repeat' first
    | with_reducible assumption
    | intro _
    | with_reducible apply hextra
    | with_reducible apply State.storeRuns_keeps
    | with_reducible apply State.addKilo_keeps
    | with_reducible apply State.setFlag_keeps
    | with_reducible apply State.addCnt_keeps
    | with_reducible apply State.stepDone_keeps
    | with_reducible apply State.countCodes_keeps
    | with_reducible apply Keeps.ite
    | with_reducible apply Keeps.foldl
    | with_reducible apply Keeps.foldlFst
    | fail_if_no_progress with_reducible apply Keeps.upd
    | split
    | dsimp only
    | (with_reducible apply Keeps.of_fst; rotate_left; with_reducible assumption)

theorem runFlw_keeps {r0 : State} {s : State} {c : StepCtx} {d : List Byte} (hk : Keeps r0 s) : Keeps r0 (runFlw s c d) := by
  unfold runFlw
  try dsimp only
  repeat' first
    | with_reducible assumption
    | intro _
    | with_reducible apply State.flwStore_keeps
    | with_reducible apply State.log_keeps
    | with_reducible apply State.event_keeps
    | with_reducible apply State.addCnt_keeps
    | with_reducible apply State.fetchRuns_keeps
    | with_reducible apply State.addKilo_keeps
    | with_reducible apply Keeps.ite
    | with_reducible apply Keeps.foldl
    | with_reducible apply Keeps.foldlFst
    | fail_if_no_progress with_reducible apply Keeps.upd
    | split
    | dsimp only
    | (with_reducible apply Keeps.of_fst; rotate_left; with_reducible assumption)

theorem execFlow_keeps {r0 : State} {inst : Fin 4} {err : StepErr} {s : State} (hk : Keeps r0 s) : KeepsRes r0
    (execFlow inst err s) := by
  unfold execFlow
  try dsimp only
  repeat' first
    | with_reducible assumption
    | intro _
    | with_reducible apply State.engineStep_keeps
    | with_reducible apply runFlw_keeps
    | with_reducible apply Keeps.ite
    | with_reducible apply Keeps.foldl
    | with_reducible apply Keeps.foldlFst
    | fail_if_no_progress with_reducible apply Keeps.upd
    | with_reducible apply KeepsRes.next

/-! ### Machine/Feature.lean -/

theorem State.matchStore_keeps {r0 : State} {s : State} {c : StepCtx} {recs : List MatchRec} {extra : State → State} (hk
    : Keeps r0 s) (hextra : ∀ y0, Keeps r0 y0 → Keeps r0 (extra y0)) : Keeps r0 (State.matchStore s c recs extra) := by
  unfold State.matchStore
  try dsimp only
  repeat' first
    | with_reducible assumption
    | intro _
    | with_reducible apply hextra
    | with_reducible apply State.storeRuns_keeps
    | with_reducible apply State.stepDone_keeps
    | with_reducible apply State.addCnt_keeps
    | with_reducible apply Keeps.ite
    | with_reducible apply Keeps.foldl
    | with_reducible apply Keeps.foldlFst
    | fail_if_no_progress with_reducible apply Keeps.upd
    | split
    | dsimp only
    | (with_reducible apply Keeps.of_fst; rotate_left; with_reducible assumption)

theorem runFeature_keeps {r0 : State} {s : State} {c : StepCtx} {d : List Byte} (hk : Keeps r0 s) : Keeps r0
    (runFeature s c d) := by
  unfold runFeature
  try dsimp only
  repeat' first
    | with_reducible assumption
    | intro _
    | with_reducible apply State.fetchRuns_keeps
    | with_reducible apply State.storeRuns_keeps
    | with_reducible apply State.addKilo_keeps
    | with_reducible apply State.addCnt_keeps
    | with_reducible apply State.event_keeps
    | with_reducible apply State.stepDone_keeps
    | with_reducible apply Keeps.ite
    | with_reducible apply Keeps.foldl
    | with_reducible apply Keeps.foldlFst
    | fail_if_no_progress with_reducible apply Keeps.upd
    | split
    | dsimp only
    | (with_reducible apply Keeps.of_fst; rotate_left; with_reducible assumption)

theorem execFeature_keeps {r0 : State} {inst : Fin 4} {err : StepErr} {s : State} (hk : Keeps r0 s) : KeepsRes r0
    (execFeature inst err s) := by
  unfold execFeature
  try dsimp only
  repeat' first
    | with_reducible assumption
    | intro _
    | with_reducible apply State.engineStep_keeps
    | with_reducible apply runFeature_keeps
    | with_reducible apply State.setFlag_keeps
    | with_reducible apply Keeps.ite
    | with_reducible apply Keeps.foldl
    | with_reducible apply Keeps.foldlFst
    | fail_if_no_progress with_reducible apply Keeps.upd
    | with_reducible apply KeepsRes.next

theorem runMatch_keeps {r0 : State} {s : State} {c : StepCtx} {d : List Byte} (hk : Keeps r0 s) : Keeps r0
    (runMatch s c d) := by
  unfold runMatch
  try dsimp only
  repeat' first
    | with_reducible assumption
    | intro _
    | with_reducible apply State.fetchRuns_keeps
    | with_reducible apply State.matchStore_keeps
    | with_reducible apply State.event_keeps
    | with_reducible apply State.log_keeps
    | with_reducible apply Keeps.ite
    | with_reducible apply Keeps.foldl
    | with_reducible apply Keeps.foldlFst
    | fail_if_no_progress with_reducible apply Keeps.upd
    | split
    | dsimp only
    | (with_reducible apply Keeps.of_fst; rotate_left; with_reducible assumption)

theorem execMatchRecords_keeps {r0 : State} {inst : Fin 4} {err : StepErr} {s : State} (hk : Keeps r0 s) : KeepsRes r0
    (execMatchRecords inst err s) := by
  unfold execMatchRecords
  try dsimp only
  repeat' first
    | with_reducible assumption
    | intro _
    | with_reducible apply State.engineStep_keeps
    | with_reducible apply runMatch_keeps
    | with_reducible apply State.setFlag_keeps
    | with_reducible apply Keeps.ite
    | with_reducible apply Keeps.foldl
    | with_reducible apply Keeps.foldlFst
    | fail_if_no_progress with_reducible apply Keeps.upd
    | with_reducible apply KeepsRes.next

/-! ### Machine/Tensor.lean -/

theorem State.winFault_keeps {r0 : State} {s : State} {n : Nat} {a : Nat} {cause : Nat} {window : Nat} {operand : Nat}
    {write : Bool} (hk : Keeps r0 s) : Keeps r0 (State.winFault s n a cause window operand write) := by
  unfold State.winFault
  extract_lets a0 a1
  try clear_value a0
  have k1 : Keeps r0 a1
  on_goal 1 => unfold a1
  rotate_left
  clear_value a1
  all_goals repeat' first
    | with_reducible assumption
    | intro _
    | with_reducible apply State.setFld_keeps
    | with_reducible apply State.setReg_keeps
    | with_reducible apply State.setFlag_keeps
    | with_reducible apply Keeps.ite

/-! ### Machine/NtOps.lean -/

theorem State.modNt_keeps {r0 : State} {s : State} {n : Nat} {f : TileSt → TileSt} (hk : Keeps r0 s) : Keeps r0
    (State.modNt s n f) := by
  unfold State.modNt
  try dsimp only
  repeat' first
    | with_reducible assumption
    | intro _
    | with_reducible apply Keeps.ite
    | with_reducible apply Keeps.foldl
    | with_reducible apply Keeps.foldlFst
    | fail_if_no_progress with_reducible apply Keeps.upd

theorem State.enterRerun_keeps {r0 : State} {s : State} {c : StepCtx} {offset : Nat} (hk : Keeps r0 s) : Keeps r0
    (State.enterRerun s c offset) := by
  unfold State.enterRerun
  extract_lets a0 a1 a2 a3 a4 a5 a6 a7 a8
  try clear_value a0
  have k1 : Keeps r0 a1.1
  on_goal 1 => unfold a1
  rotate_left
  clear_value a1
  have k2 : Keeps r0 a2
  on_goal 1 => unfold a2
  rotate_left
  clear_value a2
  try clear_value a3
  have k4 : Keeps r0 a4
  on_goal 1 => unfold a4
  rotate_left
  clear_value a4
  have k5 : Keeps r0 a5
  on_goal 1 => unfold a5
  rotate_left
  clear_value a5
  try clear_value a6
  have k7 : Keeps r0 a7
  on_goal 1 => unfold a7
  rotate_left
  clear_value a7
  have k8 : Keeps r0 a8
  on_goal 1 => unfold a8
  rotate_left
  clear_value a8
  all_goals repeat' first
    | with_reducible assumption
    | intro _
    | with_reducible apply State.noteSpm_keeps
    | with_reducible apply State.addCnt_keeps
    | with_reducible apply State.setReg_keeps
    | with_reducible apply State.event_keeps
    | with_reducible apply State.setFld_keeps
    | with_reducible apply State.endRemote_keeps
    | with_reducible apply State.modNt_keeps
    | with_reducible apply State.modCover_keeps
    | with_reducible apply State.cancelNow_keeps
    | with_reducible apply State.modInst_keeps
    | with_reducible apply State.logInst_keeps
    | with_reducible apply State.setFlag_keeps
    | with_reducible apply State.leaveUnit_keeps
    | with_reducible apply State.fence_keeps
    | with_reducible apply Keeps.ite
    | with_reducible apply Keeps.foldl
    | with_reducible apply Keeps.foldlFst
    | fail_if_no_progress with_reducible apply Keeps.upd
    | split

theorem State.ntAbsent_keeps {r0 : State} {s : State} {c : StepCtx} (hk : Keeps r0 s) : Keeps r0 (State.ntAbsent s c) := by
  unfold State.ntAbsent
  try dsimp only
  repeat' first
    | with_reducible assumption
    | intro _
    | with_reducible apply State.flagStep_keeps
    | with_reducible apply State.log_keeps
    | with_reducible apply State.event_keeps
    | with_reducible apply Keeps.ite
    | with_reducible apply Keeps.foldl
    | with_reducible apply Keeps.foldlFst
    | fail_if_no_progress with_reducible apply Keeps.upd
    | split

theorem State.ntFetch_keeps {r0 : State} {s : State} {c : StepCtx} {rs : List (Nat × Nat)} (hk : Keeps r0 s) : Keeps r0
    (State.ntFetch s c rs).1 := by
  unfold State.ntFetch
  try dsimp only
  repeat' first
    | with_reducible assumption
    | intro _
    | with_reducible apply State.judgeReads_keeps
    | with_reducible apply State.stepRefused_keeps
    | with_reducible apply Keeps.ite
    | with_reducible apply Keeps.foldl
    | with_reducible apply Keeps.foldlFst
    | fail_if_no_progress with_reducible apply Keeps.upd
    | split
    | dsimp only
    | (with_reducible apply Keeps.of_fst; rotate_left; with_reducible assumption)

theorem State.ntWindow_keeps {r0 : State} {s : State} {c : StepCtx} {operand : Nat} {a : Nat} {len : Nat} {write : Bool} (hk
    : Keeps r0 s) : Keeps r0 (State.ntWindow s c operand a len write).1 := by
  unfold State.ntWindow
  try dsimp only
  repeat' first
    | with_reducible assumption
    | intro _
    | with_reducible apply State.stepFault_keeps
    | with_reducible apply State.winFault_keeps
    | with_reducible apply Keeps.ite
    | with_reducible apply Keeps.foldl
    | with_reducible apply Keeps.foldlFst
    | fail_if_no_progress with_reducible apply Keeps.upd
    | split

theorem State.ntWindows_keeps {r0 : State} {s : State} {c : StepCtx} {l : List (Nat × Nat × Nat × Bool)} (hk : Keeps r0 s)
    : Keeps r0 (State.ntWindows s c l).1 := by
  unfold State.ntWindows
  try dsimp only
  repeat' first
    | with_reducible assumption
    | intro _
    | with_reducible apply State.ntWindow_keeps
    | with_reducible apply Keeps.ite
    | with_reducible apply Keeps.foldl
    | with_reducible apply Keeps.foldlFst
    | fail_if_no_progress with_reducible apply Keeps.upd
    | split

theorem State.ownStore_keeps {r0 : State} {s : State} {n : Nat} {step : Nat} {off : Nat} {bs : List Byte} (hk : Keeps r0 s)
    : Keeps r0 (State.ownStore s n step off bs) := by
  unfold State.ownStore
  try dsimp only
  repeat' first
    | with_reducible assumption
    | intro _
    | with_reducible apply State.modNt_keeps
    | with_reducible apply State.store_keeps
    | with_reducible apply Keeps.ite

theorem State.stageInput_keeps {r0 : State} {s : State} {c : StepCtx} {k : Nat} (hk : Keeps r0 s) : Keeps r0
    (State.stageInput s c k) := by
  unfold State.stageInput
  try dsimp only
  repeat' first
    | with_reducible assumption
    | intro _
    | with_reducible apply State.ownStore_keeps
    | with_reducible apply Keeps.ite

theorem State.ntFetchPhase_keeps {r0 : State} {s : State} {c : StepCtx} (hk : Keeps r0 s) : Keeps r0
    (State.ntFetchPhase s c) := by
  unfold State.ntFetchPhase
  try dsimp only
  repeat' first
    | with_reducible assumption
    | intro _
    | with_reducible apply State.ntWindow_keeps
    | with_reducible apply State.ntFetch_keeps
    | with_reducible apply State.stepFault_keeps
    | with_reducible apply State.ntWindows_keeps
    | with_reducible apply State.modNt_keeps
    | with_reducible apply State.ntAbsent_keeps
    | with_reducible apply State.stageInput_keeps
    | with_reducible apply State.addKilo_keeps
    | with_reducible apply State.modUnit_keeps
    | with_reducible apply Keeps.ite
    | with_reducible apply Keeps.foldl
    | with_reducible apply Keeps.foldlFst
    | fail_if_no_progress with_reducible apply Keeps.upd
    | split
    | dsimp only
    | (with_reducible apply Keeps.of_fst; rotate_left; with_reducible assumption)

theorem State.ntIn_keeps {r0 : State} {s : State} {n : Nat} {phase : Nat} {err : StepErr} {run : State → StepCtx → State} (hk
    : Keeps r0 s) (hrun : ∀ y0 y1, Keeps r0 y0 → Keeps r0 (run y0 y1)) : Keeps r0 (State.ntIn s n phase err run) := by
  unfold State.ntIn
  try dsimp only
  repeat' first
    | with_reducible assumption
    | intro _
    | with_reducible apply hrun
    | with_reducible apply State.enterRerun_keeps
    | with_reducible apply State.stepFault_keeps
    | with_reducible apply State.meetErr_keeps
    | with_reducible apply Keeps.ite
    | with_reducible apply Keeps.foldl
    | with_reducible apply Keeps.foldlFst
    | fail_if_no_progress with_reducible apply Keeps.upd
    | split
    | dsimp only
    | (with_reducible apply Keeps.of_fst; rotate_left; with_reducible assumption)

theorem State.ntLand_keeps {r0 : State} {s : State} {c : StepCtx} {ws : List (Nat × List Byte)} (hk : Keeps r0 s) : Keeps r0
    (State.ntLand s c ws) := by
  unfold State.ntLand
  try dsimp only
  repeat' first
    | with_reducible assumption
    | intro _
    | with_reducible apply State.ownStore_keeps
    | with_reducible apply State.write_keeps
    | with_reducible apply Keeps.ite
    | with_reducible apply Keeps.foldl

theorem execNtComputeDone_keeps {r0 : State} {tile : Fin 16} {err : StepErr} {s : State} (hk : Keeps r0 s) : KeepsRes r0
    (execNtComputeDone tile err s) := by
  unfold execNtComputeDone
  try dsimp only
  repeat' first
    | with_reducible assumption
    | intro _
    | with_reducible apply State.ntIn_keeps
    | with_reducible apply State.addKilo_keeps
    | with_reducible apply State.addCnt_keeps
    | with_reducible apply State.event_keeps
    | with_reducible apply State.modNt_keeps
    | with_reducible apply Keeps.ite
    | with_reducible apply Keeps.foldl
    | with_reducible apply Keeps.foldlFst
    | fail_if_no_progress with_reducible apply Keeps.upd
    | with_reducible apply KeepsRes.next

theorem execNtFetchDone_keeps {r0 : State} {tile : Fin 16} {err : StepErr} {s : State} (hk : Keeps r0 s) : KeepsRes r0
    (execNtFetchDone tile err s) := by
  unfold execNtFetchDone
  try dsimp only
  repeat' first
    | with_reducible assumption
    | intro _
    | with_reducible apply State.ntIn_keeps
    | with_reducible apply State.ntFetchPhase_keeps
    | with_reducible apply Keeps.ite
    | with_reducible apply Keeps.foldl
    | with_reducible apply Keeps.foldlFst
    | fail_if_no_progress with_reducible apply Keeps.upd
    | with_reducible apply KeepsRes.next

theorem execNtPhaseGrant_keeps {r0 : State} {tile : Fin 16} {s : State} (hk : Keeps r0 s) : KeepsRes r0
    (execNtPhaseGrant tile s) := by
  unfold execNtPhaseGrant
  extract_lets a0 a1 a2 a3 a4
  try clear_value a0
  try clear_value a1
  try clear_value a2
  have k3 : Keeps r0 a3
  on_goal 1 => unfold a3
  rotate_left
  clear_value a3
  try clear_value a4
  all_goals repeat' first
    | with_reducible assumption
    | intro _
    | with_reducible apply State.addKilo_keeps
    | with_reducible apply State.modNt_keeps
    | with_reducible apply State.beginStep_keeps
    | with_reducible apply State.setFld_keeps
    | with_reducible apply State.setFlag_keeps
    | with_reducible apply Keeps.ite
    | with_reducible apply Keeps.foldl
    | with_reducible apply Keeps.foldlFst
    | fail_if_no_progress with_reducible apply Keeps.upd
    | with_reducible apply KeepsRes.next
    | with_reducible apply KeepsRes.ite
    | split

theorem execNtStepComplete_keeps {r0 : State} {tile : Fin 16} {err : StepErr} {s : State} (hk : Keeps r0 s) : KeepsRes r0
    (execNtStepComplete tile err s) := by
  unfold execNtStepComplete
  try dsimp only
  repeat' first
    | with_reducible assumption
    | intro _
    | with_reducible apply State.ntIn_keeps
    | with_reducible apply State.judgeWrites_keeps
    | with_reducible apply State.stepRefused_keeps
    | with_reducible apply State.dropStores_keeps
    | with_reducible apply State.ntLand_keeps
    | with_reducible apply State.addKilo_keeps
    | with_reducible apply State.addCnt_keeps
    | with_reducible apply State.event_keeps
    | with_reducible apply State.stepDone_keeps
    | with_reducible apply State.modNt_keeps
    | with_reducible apply Keeps.ite
    | with_reducible apply Keeps.foldl
    | with_reducible apply Keeps.foldlFst
    | fail_if_no_progress with_reducible apply Keeps.upd
    | with_reducible apply KeepsRes.next
    | with_reducible apply KeepsRes.ite
    | split
    | dsimp only
    | (with_reducible apply Keeps.of_fst; rotate_left; with_reducible assumption)

/-! ### Machine/Mover.lean -/

theorem execBmResume_keeps {r0 : State} {mover : Fin 8} {value : Word} {s : State} (hk : Keeps r0 s) : KeepsRes r0
    (execBmResume mover value s) := by
  unfold execBmResume
  extract_lets a0 a1
  try clear_value a0
  have k1 : Keeps r0 a1
  on_goal 1 => unfold a1
  rotate_left
  clear_value a1
  all_goals repeat' first
    | with_reducible assumption
    | intro _
    | with_reducible apply State.log_keeps
    | with_reducible apply State.setFlag_keeps
    | with_reducible apply Keeps.ite
    | with_reducible apply Keeps.foldl
    | with_reducible apply Keeps.foldlFst
    | fail_if_no_progress with_reducible apply Keeps.upd
    | with_reducible apply KeepsRes.next
    | with_reducible apply KeepsRes.ite

theorem runBm_keeps {r0 : State} {s : State} {c : StepCtx} {d : List Byte} (hk : Keeps r0 s) : Keeps r0 (runBm s c d) := by
  unfold runBm
  try dsimp only
  repeat' first
    | with_reducible assumption
    | intro _
    | with_reducible apply State.stepFault_keeps
    | with_reducible apply State.fetchRuns_keeps
    | with_reducible apply State.storeRuns_keeps
    | with_reducible apply State.addKilo_keeps
    | with_reducible apply State.dropStores_keeps
    | with_reducible apply State.stepDone_keeps
    | with_reducible apply Keeps.ite
    | with_reducible apply Keeps.foldl
    | with_reducible apply Keeps.foldlFst
    | fail_if_no_progress with_reducible apply Keeps.upd
    | split
    | dsimp only
    | (with_reducible apply Keeps.of_fst; rotate_left; with_reducible assumption)

theorem State.moverStep_keeps {r0 : State} {s : State} {mover : Nat} {op : Nat} {err : StepErr} (hk : Keeps r0 s) : Keeps r0
    (State.moverStep s mover op err) := by
  unfold State.moverStep
  try dsimp only
  repeat' first
    | with_reducible assumption
    | intro _
    | with_reducible apply State.engineStep_keeps
    | with_reducible apply runBm_keeps

theorem execCopy2d_keeps {r0 : State} {mover : Fin 8} {err : StepErr} {s : State} (hk : Keeps r0 s) : KeepsRes r0
    (execCopy2d mover err s) := by
  unfold execCopy2d
  try dsimp only
  repeat' first
    | with_reducible assumption
    | intro _
    | with_reducible apply State.moverStep_keeps
    | with_reducible apply Keeps.ite
    | with_reducible apply Keeps.foldl
    | with_reducible apply Keeps.foldlFst
    | fail_if_no_progress with_reducible apply Keeps.upd
    | with_reducible apply KeepsRes.next

theorem execFill_keeps {r0 : State} {mover : Fin 8} {err : StepErr} {s : State} (hk : Keeps r0 s) : KeepsRes r0
    (execFill mover err s) := by
  unfold execFill
  try dsimp only
  repeat' first
    | with_reducible assumption
    | intro _
    | with_reducible apply State.moverStep_keeps
    | with_reducible apply Keeps.ite
    | with_reducible apply Keeps.foldl
    | with_reducible apply Keeps.foldlFst
    | fail_if_no_progress with_reducible apply Keeps.upd
    | with_reducible apply KeepsRes.next

theorem execReshuffle_keeps {r0 : State} {mover : Fin 8} {err : StepErr} {s : State} (hk : Keeps r0 s) : KeepsRes r0
    (execReshuffle mover err s) := by
  unfold execReshuffle
  try dsimp only
  repeat' first
    | with_reducible assumption
    | intro _
    | with_reducible apply State.moverStep_keeps
    | with_reducible apply Keeps.ite
    | with_reducible apply Keeps.foldl
    | with_reducible apply Keeps.foldlFst
    | fail_if_no_progress with_reducible apply Keeps.upd
    | with_reducible apply KeepsRes.next

theorem execSpmCopy_keeps {r0 : State} {mover : Fin 8} {err : StepErr} {s : State} (hk : Keeps r0 s) : KeepsRes r0
    (execSpmCopy mover err s) := by
  unfold execSpmCopy
  try dsimp only
  repeat' first
    | with_reducible assumption
    | intro _
    | with_reducible apply State.moverStep_keeps
    | with_reducible apply Keeps.ite
    | with_reducible apply Keeps.foldl
    | with_reducible apply Keeps.foldlFst
    | fail_if_no_progress with_reducible apply Keeps.upd
    | with_reducible apply KeepsRes.next

theorem execSpmFill_keeps {r0 : State} {mover : Fin 8} {err : StepErr} {s : State} (hk : Keeps r0 s) : KeepsRes r0
    (execSpmFill mover err s) := by
  unfold execSpmFill
  try dsimp only
  repeat' first
    | with_reducible assumption
    | intro _
    | with_reducible apply State.moverStep_keeps
    | with_reducible apply Keeps.ite
    | with_reducible apply Keeps.foldl
    | with_reducible apply Keeps.foldlFst
    | fail_if_no_progress with_reducible apply Keeps.upd
    | with_reducible apply KeepsRes.next

/-! ### Machine/Cores.lean -/

theorem State.showTarget_keeps {r0 : State} {s : State} {t : Nat} (hk : Keeps r0 s) : Keeps r0 (State.showTarget s t) := by
  unfold State.showTarget
  extract_lets a0 a1 a2
  try clear_value a0
  try clear_value a1
  have k2 : Keeps r0 a2
  on_goal 1 => unfold a2
  rotate_left
  clear_value a2
  all_goals repeat' first
    | with_reducible assumption
    | intro _
    | with_reducible apply State.setFld_keeps
    | with_reducible apply Keeps.ite
    | with_reducible apply Keeps.foldl
    | with_reducible apply Keeps.foldlFst
    | fail_if_no_progress with_reducible apply Keeps.upd
    | split

theorem State.claim_keeps {r0 : State} {s : State} {t : Nat} {m : Nat} (hk : Keeps r0 s) : Keeps r0 (State.claim s t m) := by
  unfold State.claim
  extract_lets a0 a1 a2 a3 a4
  have k0 : Keeps r0 a0
  on_goal 1 => unfold a0
  rotate_left
  clear_value a0
  try clear_value a1
  have k2 : Keeps r0 a2
  on_goal 1 => unfold a2
  rotate_left
  clear_value a2
  try clear_value a3
  try clear_value a4
  all_goals repeat' first
    | with_reducible assumption
    | intro _
    | with_reducible apply State.dropOffer_keeps
    | with_reducible apply State.setActive_keeps
    | with_reducible apply State.setPending_keeps
    | with_reducible apply State.showTarget_keeps
    | with_reducible apply State.modCore_keeps
    | with_reducible apply Keeps.ite
    | with_reducible apply Keeps.foldl
    | with_reducible apply Keeps.foldlFst
    | fail_if_no_progress with_reducible apply Keeps.upd

theorem State.abandonExit_keeps {r0 : State} {s : State} {t : Nat} {m : Nat} (hk : Keeps r0 s) : Keeps r0
    (State.abandonExit s t m) := by
  unfold State.abandonExit
  try dsimp only
  repeat' first
    | with_reducible assumption
    | intro _
    | with_reducible apply State.claim_keeps

theorem State.pushFrame_keeps {r0 : State} {s : State} {n : Nat} {pc : Word} (hk : Keeps r0 s) : Keeps r0
    (State.pushFrame s n pc) := by
  unfold State.pushFrame
  extract_lets a0 a1 a2 a3
  try clear_value a0
  try clear_value a1
  try clear_value a2
  have k3 : Keeps r0 a3
  on_goal 1 => unfold a3
  rotate_left
  clear_value a3
  all_goals repeat' first
    | with_reducible assumption
    | intro _
    | with_reducible apply State.store_keeps
    | with_reducible apply State.modCore_keeps
    | with_reducible apply Keeps.ite
    | with_reducible apply Keeps.foldl
    | with_reducible apply Keeps.foldlFst
    | fail_if_no_progress with_reducible apply Keeps.upd
    | split

theorem State.showPair_keeps {r0 : State} {s : State} {n : Nat} (hk : Keeps r0 s) : Keeps r0 (State.showPair s n) := by
  unfold State.showPair
  try dsimp only
  repeat' first
    | with_reducible assumption
    | intro _
    | with_reducible apply State.setFld_keeps

theorem State.enterBank0_keeps {r0 : State} {s : State} {n : Nat} {pc : Word} (hk : Keeps r0 s) : Keeps r0
    (State.enterBank0 s n pc) := by
  unfold State.enterBank0
  extract_lets a0 a1 a2 a3 a4
  try clear_value a0
  try clear_value a1
  have k2 : Keeps r0 a2
  on_goal 1 => unfold a2
  rotate_left
  clear_value a2
  have k3 : Keeps r0 a3
  on_goal 1 => unfold a3
  rotate_left
  clear_value a3
  have k4 : Keeps r0 a4
  on_goal 1 => unfold a4
  rotate_left
  clear_value a4
  all_goals repeat' first
    | with_reducible assumption
    | intro _
    | with_reducible apply State.setFld_keeps
    | with_reducible apply State.modCore_keeps
    | with_reducible apply State.pushFrame_keeps
    | with_reducible apply State.showPair_keeps
    | with_reducible apply Keeps.ite

theorem State.haltPair_keeps {r0 : State} {s : State} {n : Nat} {cause : Nat} (hk : Keeps r0 s) : Keeps r0
    (State.haltPair s n cause) := by
  unfold State.haltPair
  try dsimp only
  repeat' first
    | with_reducible assumption
    | intro _
    | with_reducible apply State.fence_keeps
    | with_reducible apply State.doubt_keeps

theorem execIcuEoi_keeps {r0 : State} {pair : Fin 4} {value : Word} {s : State} (hk : Keeps r0 s) : KeepsRes r0
    (execIcuEoi pair value s) := by
  unfold execIcuEoi
  try dsimp only
  repeat' first
    | with_reducible assumption
    | intro _
    | with_reducible apply State.showTarget_keeps
    | with_reducible apply State.completeSource_keeps
    | with_reducible apply State.modCore_keeps
    | with_reducible apply State.event_keeps
    | with_reducible apply Keeps.ite
    | with_reducible apply Keeps.foldl
    | with_reducible apply Keeps.foldlFst
    | fail_if_no_progress with_reducible apply Keeps.upd
    | with_reducible apply KeepsRes.next
    | with_reducible apply KeepsRes.ite

theorem execAbortAck_keeps {r0 : State} {pair : Fin 4} {value : Word} {s : State} (hk : Keeps r0 s) : KeepsRes r0
    (execAbortAck pair value s) := by
  unfold execAbortAck
  extract_lets a0 a1 a2 a3 a4 a5 a6
  try clear_value a0
  try clear_value a1
  try clear_value a2
  try clear_value a3
  have k4 : Keeps r0 a4
  on_goal 1 => unfold a4
  rotate_left
  clear_value a4
  try clear_value a5
  have k6 : Keeps r0 a6
  on_goal 1 => unfold a6
  rotate_left
  clear_value a6
  all_goals repeat' first
    | with_reducible assumption
    | intro _
    | with_reducible apply State.setReg_keeps
    | with_reducible apply State.setFlag_keeps
    | with_reducible apply State.showAbort_keeps
    | with_reducible apply State.cancelNow_keeps
    | with_reducible apply State.event_keeps
    | with_reducible apply Keeps.ite
    | with_reducible apply Keeps.foldl
    | with_reducible apply Keeps.foldlFst
    | fail_if_no_progress with_reducible apply Keeps.upd
    | with_reducible apply KeepsRes.next
    | with_reducible apply KeepsRes.ite

theorem execSiHbWrite_keeps {r0 : State} {pair : Fin 4} {_value : Word} {s : State} (hk : Keeps r0 s) : KeepsRes r0
    (execSiHbWrite pair _value s) := by
  unfold execSiHbWrite
  try dsimp only
  repeat' first
    | with_reducible assumption
    | intro _
    | with_reducible apply Keeps.ite
    | with_reducible apply Keeps.foldl
    | with_reducible apply Keeps.foldlFst
    | fail_if_no_progress with_reducible apply Keeps.upd
    | with_reducible apply KeepsRes.next

theorem execIcuSwiSet_keeps {r0 : State} {value : Word} {s : State} (hk : Keeps r0 s) : KeepsRes r0
    (execIcuSwiSet value s) := by
  unfold execIcuSwiSet
  try dsimp only
  repeat' first
    | with_reducible assumption
    | intro _
    | with_reducible apply State.setPending_keeps
    | with_reducible apply Keeps.ite
    | with_reducible apply Keeps.foldl
    | with_reducible apply Keeps.foldlFst
    | fail_if_no_progress with_reducible apply Keeps.upd
    | with_reducible apply KeepsRes.next
    | with_reducible apply KeepsRes.ite

theorem execIcuSwiClr_keeps {r0 : State} {value : Word} {s : State} (hk : Keeps r0 s) : KeepsRes r0
    (execIcuSwiClr value s) := by
  unfold execIcuSwiClr
  try dsimp only
  repeat' first
    | with_reducible assumption
    | intro _
    | with_reducible apply State.dropOffer_keeps
    | with_reducible apply State.setPending_keeps
    | with_reducible apply Keeps.ite
    | with_reducible apply Keeps.foldl
    | with_reducible apply Keeps.foldlFst
    | fail_if_no_progress with_reducible apply Keeps.upd
    | with_reducible apply KeepsRes.next
    | with_reducible apply KeepsRes.ite

theorem State.popFrame_keeps {r0 : State} {s : State} {n : Nat} (hk : Keeps r0 s) : Keeps r0 (State.popFrame s n) := by
  unfold State.popFrame
  try dsimp only
  repeat' first
    | with_reducible assumption
    | intro _
    | with_reducible apply State.modCore_keeps

theorem State.resumeBank_keeps {r0 : State} {s : State} {n : Nat} (hk : Keeps r0 s) : Keeps r0 (State.resumeBank s n) := by
  unfold State.resumeBank
  try dsimp only
  repeat' first
    | with_reducible assumption
    | intro _
    | with_reducible apply State.showPair_keeps
    | with_reducible apply State.modCore_keeps
    | with_reducible apply Keeps.ite

theorem State.spurious_keeps {r0 : State} {s : State} {t : Nat} (hk : Keeps r0 s) : Keeps r0 (State.spurious s t) := by
  unfold State.spurious
  try dsimp only
  repeat' first
    | with_reducible assumption
    | intro _
    | with_reducible apply State.modCore_keeps
    | with_reducible apply State.event_keeps

theorem State.trap_keeps {r0 : State} {s : State} {n : Nat} {cause : Word} {pc : Word} (hk : Keeps r0 s) : Keeps r0
    (State.trap s n cause pc) := by
  unfold State.trap
  extract_lets a0 a1
  have k0 : Keeps r0 a0
  on_goal 1 => unfold a0
  rotate_left
  clear_value a0
  have k1 : Keeps r0 a1.2
  on_goal 1 => unfold a1
  rotate_left
  clear_value a1
  all_goals repeat' first
    | with_reducible assumption
    | intro _
    | with_reducible apply State.enterBank0_keeps
    | with_reducible apply State.draw_keeps
    | with_reducible apply State.modCore_keeps

theorem execEcall_keeps {r0 : State} {pair : Fin 4} {cause : Word} {pc : Word} {s : State} (hk : Keeps r0 s) : KeepsRes r0
    (execEcall pair cause pc s) := by
  unfold execEcall
  try dsimp only
  repeat' first
    | with_reducible assumption
    | intro _
    | with_reducible apply State.trap_keeps
    | with_reducible apply Keeps.ite
    | with_reducible apply Keeps.foldl
    | with_reducible apply Keeps.foldlFst
    | fail_if_no_progress with_reducible apply Keeps.upd
    | with_reducible apply KeepsRes.next
    | with_reducible apply KeepsRes.ite

theorem execFence_keeps {r0 : State} {pair : Fin 4} {s : State} (hk : Keeps r0 s) : KeepsRes r0 (execFence pair s) := by
  unfold execFence
  try dsimp only
  repeat' first
    | with_reducible assumption
    | intro _
    | with_reducible apply State.modCore_keeps
    | with_reducible apply Keeps.ite
    | with_reducible apply Keeps.foldl
    | with_reducible apply Keeps.foldlFst
    | fail_if_no_progress with_reducible apply Keeps.upd
    | with_reducible apply KeepsRes.next
    | with_reducible apply KeepsRes.ite

theorem execHeartbeatMissed_keeps {r0 : State} {pair : Fin 4} {s : State} (hk : Keeps r0 s) : KeepsRes r0
    (execHeartbeatMissed pair s) := by
  unfold execHeartbeatMissed
  extract_lets a0 a1 a2
  try clear_value a0
  try clear_value a1
  have k2 : Keeps r0 a2
  on_goal 1 => unfold a2
  rotate_left
  clear_value a2
  all_goals repeat' first
    | with_reducible assumption
    | intro _
    | with_reducible apply State.reach_keeps
    | with_reducible apply State.haltPair_keeps
    | with_reducible apply State.log_keeps
    | with_reducible apply Keeps.ite
    | with_reducible apply Keeps.foldl
    | with_reducible apply Keeps.foldlFst
    | fail_if_no_progress with_reducible apply Keeps.upd
    | with_reducible apply KeepsRes.next
    | with_reducible apply KeepsRes.ite

theorem execInterruptAccept_keeps {r0 : State} {pair : Fin 4} {pc : Word} {s : State} (hk : Keeps r0 s) : KeepsRes r0
    (execInterruptAccept pair pc s) := by
  unfold execInterruptAccept
  try dsimp only
  repeat' first
    | with_reducible assumption
    | intro _
    | with_reducible apply State.claim_keeps
    | with_reducible apply State.enterBank0_keeps
    | with_reducible apply State.spurious_keeps
    | with_reducible apply Keeps.ite
    | with_reducible apply Keeps.foldl
    | with_reducible apply Keeps.foldlFst
    | fail_if_no_progress with_reducible apply Keeps.upd
    | with_reducible apply KeepsRes.next
    | with_reducible apply KeepsRes.ite
    | split

theorem execInterruptSourceRise_keeps {r0 : State} {source : Fin 512} {s : State} (hk : Keeps r0 s) : KeepsRes r0
    (execInterruptSourceRise source s) := by
  unfold execInterruptSourceRise
  try dsimp only
  repeat' first
    | with_reducible assumption
    | intro _
    | with_reducible apply State.setPending_keeps
    | with_reducible apply Keeps.ite
    | with_reducible apply Keeps.foldl
    | with_reducible apply Keeps.foldlFst
    | fail_if_no_progress with_reducible apply Keeps.upd
    | with_reducible apply KeepsRes.next
    | with_reducible apply KeepsRes.ite

theorem execLockstepMismatch_keeps {r0 : State} {pair : Fin 4} {ue : Bool} {s : State} (hk : Keeps r0 s) : KeepsRes r0
    (execLockstepMismatch pair ue s) := by
  unfold execLockstepMismatch
  try dsimp only
  repeat' first
    | with_reducible assumption
    | intro _
    | with_reducible apply State.haltPair_keeps
    | with_reducible apply State.event_keeps
    | with_reducible apply Keeps.ite
    | with_reducible apply Keeps.foldl
    | with_reducible apply Keeps.foldlFst
    | fail_if_no_progress with_reducible apply Keeps.upd
    | with_reducible apply KeepsRes.next
    | with_reducible apply KeepsRes.ite

theorem execMret_keeps {r0 : State} {pair : Fin 4} {s : State} (hk : Keeps r0 s) : KeepsRes r0 (execMret pair s) := by
  unfold execMret
  try dsimp only
  repeat' first
    | with_reducible assumption
    | intro _
    | with_reducible apply State.trap_keeps
    | with_reducible apply State.abandonExit_keeps
    | with_reducible apply State.popFrame_keeps
    | with_reducible apply State.resumeBank_keeps
    | with_reducible apply Keeps.ite
    | with_reducible apply Keeps.foldl
    | with_reducible apply Keeps.foldlFst
    | fail_if_no_progress with_reducible apply Keeps.upd
    | with_reducible apply KeepsRes.next
    | with_reducible apply KeepsRes.ite
    | split

theorem execOfferTimeout_keeps {r0 : State} {source : Fin 512} {s : State} (hk : Keeps r0 s) : KeepsRes r0
    (execOfferTimeout source s) := by
  unfold execOfferTimeout
  try dsimp only
  repeat' first
    | with_reducible assumption
    | intro _
    | with_reducible apply State.putOffer_keeps
    | with_reducible apply State.dropOffer_keeps
    | with_reducible apply Keeps.ite
    | with_reducible apply Keeps.foldl
    | with_reducible apply Keeps.foldlFst
    | fail_if_no_progress with_reducible apply Keeps.upd
    | with_reducible apply KeepsRes.next
    | with_reducible apply KeepsRes.ite
    | split

/-! ### Machine/Kindling.lean -/

theorem State.closeLoad_keeps {r0 : State} {s : State} {n : Nat} (hk : Keeps r0 s) : Keeps r0 (State.closeLoad s n) := by
  unfold State.closeLoad
  try dsimp only
  repeat' first
    | with_reducible assumption
    | intro _
    | with_reducible apply State.setStage_keeps
    | with_reducible apply State.modKin_keeps
    | with_reducible apply Keeps.ite

theorem State.copyFirmware_keeps {r0 : State} {s : State} {w : FwSec} (hk : Keeps r0 s) : Keeps r0
    (State.copyFirmware s w) := by
  unfold State.copyFirmware
  try dsimp only
  repeat' first
    | with_reducible assumption
    | intro _
    | with_reducible apply State.store_keeps
    | with_reducible apply Keeps.ite
    | with_reducible apply Keeps.foldl
    | with_reducible apply Keeps.foldlFst
    | fail_if_no_progress with_reducible apply Keeps.upd
    | with_reducible apply Keeps.clear

theorem State.wcFence_keeps {r0 : State} {s : State} {qs : List Nat} (hk : Keeps r0 s) : Keeps r0 (State.wcFence s qs) := by
  unfold State.wcFence
  try dsimp only
  repeat' first
    | with_reducible assumption
    | intro _
    | with_reducible apply State.setFld_keeps

theorem State.loadSection_keeps {r0 : State} {s : State} {r : Nat} {e : SecEnt} (hk : Keeps r0 s) : Keeps r0
    (State.loadSection s r e) := by
  unfold State.loadSection
  try dsimp only
  repeat' first
    | with_reducible assumption
    | intro _
    | with_reducible apply State.store_keeps
    | with_reducible apply State.modSafety_keeps
    | with_reducible apply Keeps.ite

theorem State.restartLoad_keeps {r0 : State} {s : State} (hk : Keeps r0 s) : Keeps r0 (State.restartLoad s) := by
  unfold State.restartLoad
  extract_lets a0 a1 a2
  try clear_value a0
  have k1 : Keeps r0 a1
  on_goal 1 => unfold a1
  rotate_left
  clear_value a1
  have k2 : Keeps r0 a2
  on_goal 1 => unfold a2
  rotate_left
  clear_value a2
  all_goals repeat' first
    | with_reducible assumption
    | intro _
    | with_reducible apply State.kindlingFail_keeps
    | with_reducible apply State.modKin_keeps
    | with_reducible apply State.setStage_keeps
    | with_reducible apply Keeps.ite
    | with_reducible apply Keeps.foldl
    | with_reducible apply Keeps.foldlFst
    | fail_if_no_progress with_reducible apply Keeps.upd

theorem State.skipSection_keeps {r0 : State} {s : State} {r : Nat} {e : SecEnt} {cls : Nat} (hk : Keeps r0 s) : Keeps r0
    (State.skipSection s r e cls) := by
  unfold State.skipSection
  try dsimp only
  repeat' first
    | with_reducible assumption
    | intro _
    | with_reducible apply State.log_keeps
    | with_reducible apply Keeps.ite
    | with_reducible apply Keeps.foldl
    | with_reducible apply Keeps.foldlFst
    | fail_if_no_progress with_reducible apply Keeps.upd

theorem State.startJournal_keeps {r0 : State} {s : State} (hk : Keeps r0 s) : Keeps r0 (State.startJournal s) := by
  unfold State.startJournal
  extract_lets a0 a1 a2
  try clear_value a0
  try clear_value a1
  have k2 : Keeps r0 a2
  on_goal 1 => unfold a2
  rotate_left
  clear_value a2
  all_goals repeat' first
    | with_reducible assumption
    | intro _
    | with_reducible apply State.modJournal_keeps
    | with_reducible apply State.enterRing_keeps
    | with_reducible apply State.setFlag_keeps

theorem State.startPair_keeps {r0 : State} {s : State} {w : FwSec} {n : Nat} (hk : Keeps r0 s) : Keeps r0
    (State.startPair s w n) := by
  unfold State.startPair
  extract_lets a0 a1
  have k0 : Keeps r0 a0
  on_goal 1 => unfold a0
  rotate_left
  clear_value a0
  have k1 : Keeps r0 a1
  on_goal 1 => unfold a1
  rotate_left
  clear_value a1
  all_goals repeat' first
    | with_reducible assumption
    | intro _
    | with_reducible apply State.modCore_keeps
    | with_reducible apply State.modSafety_keeps
    | with_reducible apply State.showPair_keeps
    | with_reducible apply Keeps.ite

theorem State.takeSection_keeps {r0 : State} {s : State} {r : Nat} {e : SecEnt} (hk : Keeps r0 s) : Keeps r0
    (State.takeSection s r e) := by
  unfold State.takeSection
  extract_lets a0
  have k0 : Keeps r0 a0
  on_goal 1 => unfold a0
  rotate_left
  clear_value a0
  all_goals repeat' first
    | with_reducible assumption
    | intro _
    | with_reducible apply State.modKin_keeps
    | with_reducible apply State.skipSection_keeps
    | with_reducible apply State.loadSection_keeps
    | with_reducible apply State.failCandidate_keeps
    | with_reducible apply Keeps.ite

theorem State.toFirmware_keeps {r0 : State} {s : State} (hk : Keeps r0 s) : Keeps r0 (State.toFirmware s) := by
  unfold State.toFirmware
  try dsimp only
  repeat' first
    | with_reducible assumption
    | intro _
    | with_reducible apply State.setStage_keeps
    | with_reducible apply Keeps.ite

theorem execBindStage_keeps {r0 : State} {s : State} (hk : Keeps r0 s) : KeepsRes r0 (execBindStage s) := by
  unfold execBindStage
  extract_lets a0 a1 a2 a3
  have k0 : Keeps r0 a0
  on_goal 1 => unfold a0
  rotate_left
  clear_value a0
  try clear_value a1
  try clear_value a2
  have k3 : Keeps r0 a3
  on_goal 1 => unfold a3
  rotate_left
  clear_value a3
  all_goals repeat' first
    | with_reducible assumption
    | intro _
    | with_reducible apply State.setStage_keeps
    | with_reducible apply State.modKin_keeps
    | with_reducible apply State.kindlingFail_keeps
    | with_reducible apply State.coverAll_keeps
    | with_reducible apply State.assignGpio_keeps
    | with_reducible apply State.serviceBank_keeps
    | with_reducible apply State.bindScene_keeps
    | with_reducible apply Keeps.ite
    | with_reducible apply Keeps.foldl
    | with_reducible apply Keeps.foldlFst
    | fail_if_no_progress with_reducible apply Keeps.upd
    | with_reducible apply KeepsRes.next
    | with_reducible apply KeepsRes.ite
    | split

theorem execBistDone_keeps {r0 : State} {units : List Half} {others : List BistOther} {s : State} (hk : Keeps r0 s)
    : KeepsRes r0 (execBistDone units others s) := by
  unfold execBistDone
  extract_lets a0 a1 a2 a3 a4 a5 a6 a7
  try clear_value a0
  have k1 : Keeps r0 a1
  on_goal 1 => unfold a1
  rotate_left
  clear_value a1
  try clear_value a2
  have k3 : Keeps r0 a3
  on_goal 1 => unfold a3
  rotate_left
  clear_value a3
  try clear_value a4
  have k5 : Keeps r0 a5
  on_goal 1 => unfold a5
  rotate_left
  clear_value a5
  have k6 : Keeps r0 a6
  on_goal 1 => unfold a6
  rotate_left
  clear_value a6
  have k7 : Keeps r0 a7
  on_goal 1 => unfold a7
  rotate_left
  clear_value a7
  all_goals repeat' first
    | with_reducible assumption
    | intro _
    | with_reducible apply State.modKin_keeps
    | with_reducible apply State.modJournal_keeps
    | with_reducible apply State.startJournal_keeps
    | with_reducible apply State.kinFence_keeps
    | with_reducible apply State.wcFence_keeps
    | with_reducible apply State.kindlingFail_keeps
    | with_reducible apply State.restartLoad_keeps
    | with_reducible apply State.startLoad_keeps
    | with_reducible apply State.toFirmware_keeps
    | with_reducible apply Keeps.ite
    | with_reducible apply Keeps.foldl
    | with_reducible apply Keeps.foldlFst
    | fail_if_no_progress with_reducible apply Keeps.upd
    | with_reducible apply KeepsRes.next
    | with_reducible apply KeepsRes.ite

theorem execCheckStage_keeps {r0 : State} {s : State} (hk : Keeps r0 s) : KeepsRes r0 (execCheckStage s) := by
  unfold execCheckStage
  try dsimp only
  repeat' first
    | with_reducible assumption
    | intro _
    | with_reducible apply State.modKin_keeps
    | with_reducible apply State.setFlag_keeps
    | with_reducible apply State.setFld_keeps
    | with_reducible apply State.toFirmware_keeps
    | with_reducible apply State.setReg_keeps
    | with_reducible apply State.failCandidate_keeps
    | with_reducible apply Keeps.ite
    | with_reducible apply Keeps.foldl
    | with_reducible apply Keeps.foldlFst
    | fail_if_no_progress with_reducible apply Keeps.upd
    | with_reducible apply KeepsRes.next
    | with_reducible apply KeepsRes.ite
    | split

theorem execFirmwareStage_keeps {r0 : State} {s : State} (hk : Keeps r0 s) : KeepsRes r0 (execFirmwareStage s) := by
  unfold execFirmwareStage
  extract_lets a0 a1 a2 a3 a4 a5
  try clear_value a0
  have k1 : Keeps r0 a1
  on_goal 1 => unfold a1
  rotate_left
  clear_value a1
  try clear_value a2
  have k3 : Keeps r0 a3
  on_goal 1 => unfold a3
  rotate_left
  clear_value a3
  have k4 : Keeps r0 a4
  on_goal 1 => unfold a4
  rotate_left
  clear_value a4
  have k5 : Keeps r0 a5
  on_goal 1 => unfold a5
  rotate_left
  clear_value a5
  all_goals repeat' first
    | with_reducible assumption
    | intro _
    | with_reducible apply State.copyFirmware_keeps
    | with_reducible apply State.startPair_keeps
    | with_reducible apply State.modKin_keeps
    | with_reducible apply State.setStage_keeps
    | with_reducible apply State.initCams_keeps
    | with_reducible apply Keeps.ite
    | with_reducible apply Keeps.foldl
    | with_reducible apply Keeps.foldlFst
    | fail_if_no_progress with_reducible apply Keeps.upd
    | with_reducible apply KeepsRes.next
    | with_reducible apply KeepsRes.ite
    | split

theorem execHkcSignatureCheck_keeps {r0 : State} {pass : Bool} {s : State} (hk : Keeps r0 s) : KeepsRes r0
    (execHkcSignatureCheck pass s) := by
  unfold execHkcSignatureCheck
  try dsimp only
  repeat' first
    | with_reducible assumption
    | intro _
    | with_reducible apply State.setStage_keeps
    | with_reducible apply State.modKin_keeps
    | with_reducible apply State.setFld_keeps
    | with_reducible apply Keeps.ite
    | with_reducible apply Keeps.foldl
    | with_reducible apply Keeps.foldlFst
    | fail_if_no_progress with_reducible apply Keeps.upd
    | with_reducible apply KeepsRes.next
    | with_reducible apply KeepsRes.ite

theorem execImageSelect_keeps {r0 : State} {answers : BitVec 2} {size : Nat} {s : State} (hk : Keeps r0 s) : KeepsRes r0
    (execImageSelect answers size s) := by
  unfold execImageSelect
  extract_lets a0 a1 a2 a3 a4 a5 a6
  try clear_value a0
  try clear_value a1
  have k2 : Keeps r0 a2
  on_goal 1 => unfold a2
  rotate_left
  clear_value a2
  try clear_value a3
  have k4 : Keeps r0 a4
  on_goal 1 => unfold a4
  rotate_left
  clear_value a4
  try clear_value a5
  try clear_value a6
  all_goals repeat' first
    | with_reducible assumption
    | intro _
    | with_reducible apply State.kindlingFail_keeps
    | with_reducible apply State.log_keeps
    | with_reducible apply State.modKin_keeps
    | with_reducible apply State.setStage_keeps
    | with_reducible apply State.powerAll_keeps
    | with_reducible apply Keeps.ite
    | with_reducible apply Keeps.foldl
    | with_reducible apply Keeps.foldlFst
    | fail_if_no_progress with_reducible apply Keeps.upd
    | with_reducible apply KeepsRes.next
    | with_reducible apply KeepsRes.ite
    | split

theorem execKindlingWatchdogExpiry_keeps {r0 : State} {s : State} (hk : Keeps r0 s) : KeepsRes r0
    (execKindlingWatchdogExpiry s) := by
  unfold execKindlingWatchdogExpiry
  extract_lets a0 a1
  have k0 : Keeps r0 a0
  on_goal 1 => unfold a0
  rotate_left
  clear_value a0
  have k1 : Keeps r0 a1
  on_goal 1 => unfold a1
  rotate_left
  clear_value a1
  all_goals repeat' first
    | with_reducible assumption
    | intro _
    | with_reducible apply State.reach_keeps
    | with_reducible apply State.log_keeps
    | with_reducible apply State.recoveryHold_keeps
    | with_reducible apply State.warmReset_keeps
    | with_reducible apply Keeps.ite
    | with_reducible apply Keeps.foldl
    | with_reducible apply Keeps.foldlFst
    | fail_if_no_progress with_reducible apply Keeps.upd
    | with_reducible apply KeepsRes.next
    | with_reducible apply KeepsRes.ite

theorem execLpddrTrainDone_keeps {r0 : State} {ch : Fin 4} {pass : Bool} {mib : Half} {s : State} (hk : Keeps r0 s)
    : KeepsRes r0 (execLpddrTrainDone ch pass mib s) := by
  unfold execLpddrTrainDone
  extract_lets a0 a1
  try clear_value a0
  have k1 : Keeps r0 a1
  on_goal 1 => unfold a1
  rotate_left
  clear_value a1
  all_goals repeat' first
    | with_reducible assumption
    | intro _
    | with_reducible apply State.modKin_keeps
    | with_reducible apply State.setFld_keeps
    | with_reducible apply State.kinFence_keeps
    | with_reducible apply State.kindlingFail_keeps
    | with_reducible apply State.startLoad_keeps
    | with_reducible apply Keeps.ite
    | with_reducible apply Keeps.foldl
    | with_reducible apply Keeps.foldlFst
    | fail_if_no_progress with_reducible apply Keeps.upd
    | with_reducible apply KeepsRes.next
    | with_reducible apply KeepsRes.ite

theorem execNvmEraseProgramCommand_keeps {r0 : State} {cs : Fin 2} {opcode : Byte} {addr : Word} {op : NvmOp} {s : State} (hk
    : Keeps r0 s) : KeepsRes r0 (execNvmEraseProgramCommand cs opcode addr op s) := by
  unfold execNvmEraseProgramCommand
  try dsimp only
  repeat' first
    | with_reducible assumption
    | intro _
    | with_reducible apply State.log_keeps
    | with_reducible apply Keeps.ite
    | with_reducible apply Keeps.foldl
    | with_reducible apply Keeps.foldlFst
    | fail_if_no_progress with_reducible apply Keeps.upd
    | with_reducible apply KeepsRes.next
    | with_reducible apply KeepsRes.ite
    | split

theorem execPorstNRelease_keeps {r0 : State} {straps : BitVec 5} {s : State} (hk : Keeps r0 s) : KeepsRes r0
    (execPorstNRelease straps s) := by
  unfold execPorstNRelease
  extract_lets a0 a1 a2
  try clear_value a0
  have k1 : Keeps r0 a1
  on_goal 1 => unfold a1
  rotate_left
  clear_value a1
  have k2 : Keeps r0 a2
  on_goal 1 => unfold a2
  rotate_left
  clear_value a2
  all_goals repeat' first
    | with_reducible assumption
    | intro _
    | with_reducible apply State.setFld_keeps
    | with_reducible apply State.setStage_keeps
    | with_reducible apply State.modKin_keeps
    | with_reducible apply Keeps.ite
    | with_reducible apply Keeps.foldl
    | with_reducible apply Keeps.foldlFst
    | fail_if_no_progress with_reducible apply Keeps.upd
    | with_reducible apply KeepsRes.next
    | with_reducible apply KeepsRes.ite

theorem execSectionLoaded_keeps {r0 : State} {s : State} (hk : Keeps r0 s) : KeepsRes r0 (execSectionLoaded s) := by
  unfold execSectionLoaded
  try dsimp only
  repeat' first
    | with_reducible assumption
    | intro _
    | with_reducible apply State.kindlingFail_keeps
    | with_reducible apply State.failCandidate_keeps
    | with_reducible apply State.closeLoad_keeps
    | with_reducible apply State.takeSection_keeps
    | with_reducible apply Keeps.ite
    | with_reducible apply Keeps.foldl
    | with_reducible apply Keeps.foldlFst
    | fail_if_no_progress with_reducible apply Keeps.upd
    | with_reducible apply KeepsRes.next
    | with_reducible apply KeepsRes.ite
    | split

theorem execSectionReloadDone_keeps {r0 : State} {pos : Fin 1024} {s : State} (hk : Keeps r0 s) : KeepsRes r0
    (execSectionReloadDone pos s) := by
  unfold execSectionReloadDone
  try dsimp only
  repeat' first
    | with_reducible assumption
    | intro _
    | with_reducible apply State.write_keeps
    | with_reducible apply State.repatch_keeps
    | with_reducible apply Keeps.ite
    | with_reducible apply Keeps.foldl
    | with_reducible apply Keeps.foldlFst
    | fail_if_no_progress with_reducible apply Keeps.upd
    | with_reducible apply KeepsRes.next
    | with_reducible apply KeepsRes.ite
    | split

theorem execSiSelfTestDone_keeps {r0 : State} {pass : Bool} {s : State} (hk : Keeps r0 s) : KeepsRes r0
    (execSiSelfTestDone pass s) := by
  unfold execSiSelfTestDone
  extract_lets a0
  have k0 : Keeps r0 a0
  on_goal 1 => unfold a0
  rotate_left
  clear_value a0
  all_goals repeat' first
    | with_reducible assumption
    | intro _
    | with_reducible apply State.modSafety_keeps
    | with_reducible apply State.modPins_keeps
    | with_reducible apply State.setStage_keeps
    | with_reducible apply State.startKindling_keeps
    | with_reducible apply State.modKin_keeps
    | with_reducible apply Keeps.ite
    | with_reducible apply Keeps.foldl
    | with_reducible apply Keeps.foldlFst
    | fail_if_no_progress with_reducible apply Keeps.upd
    | with_reducible apply KeepsRes.next
    | with_reducible apply KeepsRes.ite

theorem execVerifyPass_keeps {r0 : State} {s : State} (hk : Keeps r0 s) : KeepsRes r0 (execVerifyPass s) := by
  unfold execVerifyPass
  try dsimp only
  repeat' first
    | with_reducible assumption
    | intro _
    | with_reducible apply State.ready_keeps
    | with_reducible apply Keeps.ite
    | with_reducible apply Keeps.foldl
    | with_reducible apply Keeps.foldlFst
    | fail_if_no_progress with_reducible apply Keeps.upd
    | with_reducible apply KeepsRes.next
    | with_reducible apply KeepsRes.ite

theorem execVerifyTimeout_keeps {r0 : State} {s : State} (hk : Keeps r0 s) : KeepsRes r0 (execVerifyTimeout s) := by
  unfold execVerifyTimeout
  try dsimp only
  repeat' first
    | with_reducible assumption
    | intro _
    | with_reducible apply State.kindlingFail_keeps
    | with_reducible apply State.reach_keeps
    | with_reducible apply Keeps.ite
    | with_reducible apply Keeps.foldl
    | with_reducible apply Keeps.foldlFst
    | fail_if_no_progress with_reducible apply Keeps.upd
    | with_reducible apply KeepsRes.next
    | with_reducible apply KeepsRes.ite
    | split

theorem execWarmResetHoldEnd_keeps {r0 : State} {s : State} (hk : Keeps r0 s) : KeepsRes r0 (execWarmResetHoldEnd s) := by
  unfold execWarmResetHoldEnd
  try dsimp only
  repeat' first
    | with_reducible assumption
    | intro _
    | with_reducible apply State.modKin_keeps
    | with_reducible apply State.reach_keeps
    | with_reducible apply State.releaseCore_keeps
    | with_reducible apply Keeps.ite
    | with_reducible apply Keeps.foldl
    | with_reducible apply Keeps.foldlFst
    | fail_if_no_progress with_reducible apply Keeps.upd
    | with_reducible apply KeepsRes.next
    | with_reducible apply KeepsRes.ite
    | split

theorem execWrstNFall_keeps {r0 : State} {lowNs : Nat} {s : State} (hk : Keeps r0 s) : KeepsRes r0 (execWrstNFall lowNs s) := by
  unfold execWrstNFall
  extract_lets a0
  have k0 : Keeps r0 a0
  on_goal 1 => unfold a0
  rotate_left
  clear_value a0
  all_goals repeat' first
    | with_reducible assumption
    | intro _
    | with_reducible apply State.modKin_keeps
    | with_reducible apply State.warmReset_keeps
    | with_reducible apply Keeps.ite
    | with_reducible apply Keeps.foldl
    | with_reducible apply Keeps.foldlFst
    | fail_if_no_progress with_reducible apply Keeps.upd
    | with_reducible apply KeepsRes.next
    | with_reducible apply KeepsRes.ite

theorem execWrstNRise_keeps {r0 : State} {s : State} (hk : Keeps r0 s) : KeepsRes r0 (execWrstNRise s) := by
  unfold execWrstNRise
  extract_lets a0
  have k0 : Keeps r0 a0
  on_goal 1 => unfold a0
  rotate_left
  clear_value a0
  all_goals repeat' first
    | with_reducible assumption
    | intro _
    | with_reducible apply State.modKin_keeps
    | with_reducible apply State.releaseCore_keeps
    | with_reducible apply Keeps.ite
    | with_reducible apply Keeps.foldl
    | with_reducible apply Keeps.foldlFst
    | fail_if_no_progress with_reducible apply Keeps.upd
    | with_reducible apply KeepsRes.next
    | with_reducible apply KeepsRes.ite

/-! ### Machine/MaintOps.lean -/

theorem State.showMults_keeps {r0 : State} {s : State} (hk : Keeps r0 s) : Keeps r0 (State.showMults s) := by
  unfold State.showMults
  try dsimp only
  repeat' first
    | with_reducible assumption
    | intro _
    | with_reducible apply State.setFld_keeps

theorem State.setLevel_keeps {r0 : State} {s : State} {which : Nat} {level : Nat} (hk : Keeps r0 s) : Keeps r0
    (State.setLevel s which level) := by
  unfold State.setLevel
  extract_lets a0 a1 a2 a3 a4 a5
  try clear_value a0
  try clear_value a1
  try clear_value a2
  have k3 : Keeps r0 a3
  on_goal 1 => unfold a3
  rotate_left
  clear_value a3
  try clear_value a4
  have k5 : Keeps r0 a5
  on_goal 1 => unfold a5
  rotate_left
  clear_value a5
  all_goals repeat' first
    | with_reducible assumption
    | intro _
    | with_reducible apply State.log_keeps
    | with_reducible apply State.setFld_keeps
    | with_reducible apply State.event_keeps
    | with_reducible apply State.showMults_keeps
    | with_reducible apply Keeps.ite

theorem State.endAct_keeps {r0 : State} {s : State} {a : Nat} {start : Nat} (hk : Keeps r0 s) : Keeps r0
    (State.endAct s a start) := by
  unfold State.endAct
  extract_lets a0 a1 a2
  have k0 : Keeps r0 a0
  on_goal 1 => unfold a0
  rotate_left
  clear_value a0
  try clear_value a1
  have k2 : Keeps r0 a2
  on_goal 1 => unfold a2
  rotate_left
  clear_value a2
  all_goals repeat' first
    | with_reducible assumption
    | intro _
    | with_reducible apply State.reach_keeps
    | with_reducible apply State.showMaint_keeps
    | with_reducible apply State.setFld_keeps
    | with_reducible apply Keeps.ite
    | with_reducible apply Keeps.foldl
    | with_reducible apply Keeps.foldlFst
    | fail_if_no_progress with_reducible apply Keeps.upd

theorem State.modTest_keeps {r0 : State} {s : State} {checker : Nat} {unit : Nat} {f : SelfTestSt → SelfTestSt} (hk
    : Keeps r0 s) : Keeps r0 (State.modTest s checker unit f) := by
  unfold State.modTest
  try dsimp only
  repeat' first
    | with_reducible assumption
    | intro _
    | with_reducible apply State.modSafety_keeps

theorem State.queueAct_keeps {r0 : State} {s : State} {a : Nat} (hk : Keeps r0 s) : Keeps r0 (State.queueAct s a) := by
  unfold State.queueAct
  try dsimp only
  repeat' first
    | with_reducible assumption
    | intro _
    | with_reducible apply State.showMaint_keeps
    | with_reducible apply Keeps.ite
    | with_reducible apply Keeps.foldl
    | with_reducible apply Keeps.foldlFst
    | fail_if_no_progress with_reducible apply Keeps.upd

theorem State.raiseStarvation_keeps {r0 : State} {s : State} (hk : Keeps r0 s) : Keeps r0 (State.raiseStarvation s) := by
  unfold State.raiseStarvation
  extract_lets a0 a1 a2 a3 a4
  try clear_value a0
  try clear_value a1
  try clear_value a2
  have k3 : Keeps r0 a3
  on_goal 1 => unfold a3
  rotate_left
  clear_value a3
  try clear_value a4
  all_goals repeat' first
    | with_reducible assumption
    | intro _
    | with_reducible apply State.setLevel_keeps
    | with_reducible apply Keeps.ite
    | with_reducible apply Keeps.foldl
    | with_reducible apply Keeps.foldlFst
    | fail_if_no_progress with_reducible apply Keeps.upd

theorem State.startAct_keeps {r0 : State} {s : State} {a : Nat} (hk : Keeps r0 s) : Keeps r0 (State.startAct s a) := by
  unfold State.startAct
  extract_lets a0 a1 a2 a3 a4
  try clear_value a0
  try clear_value a1
  have k2 : Keeps r0 a2
  on_goal 1 => unfold a2
  rotate_left
  clear_value a2
  try clear_value a3
  have k4 : Keeps r0 a4
  on_goal 1 => unfold a4
  rotate_left
  clear_value a4
  all_goals repeat' first
    | with_reducible assumption
    | intro _
    | with_reducible apply State.showMaint_keeps
    | with_reducible apply State.modTest_keeps
    | with_reducible apply State.modUnit_keeps
    | with_reducible apply State.setFld_keeps
    | with_reducible apply Keeps.ite
    | with_reducible apply Keeps.foldl
    | with_reducible apply Keeps.foldlFst
    | fail_if_no_progress with_reducible apply Keeps.upd
    | split

theorem State.requestAct_keeps {r0 : State} {s : State} {a : Nat} (hk : Keeps r0 s) : Keeps r0 (State.requestAct s a) := by
  unfold State.requestAct
  try dsimp only
  repeat' first
    | with_reducible assumption
    | intro _
    | with_reducible apply State.startAct_keeps
    | with_reducible apply State.queueAct_keeps
    | with_reducible apply Keeps.ite

theorem State.scanMaint_keeps {r0 : State} {s : State} (hk : Keeps r0 s) : Keeps r0 (State.scanMaint s) := by
  unfold State.scanMaint
  try dsimp only
  repeat' first
    | with_reducible assumption
    | intro _
    | with_reducible apply State.startAct_keeps
    | with_reducible apply Keeps.ite
    | with_reducible apply Keeps.foldl

/-! ### Machine/Checkers.lean -/

theorem State.cvuRefuse_keeps {r0 : State} {s : State} {n : Nat} (hk : Keeps r0 s) : Keeps r0 (State.cvuRefuse s n) := by
  unfold State.cvuRefuse
  try dsimp only
  repeat' first
    | with_reducible assumption
    | intro _
    | with_reducible apply State.event_keeps

theorem State.endTinder_keeps {r0 : State} {s : State} {unit : Nat} (hk : Keeps r0 s) : Keeps r0 (State.endTinder s unit) := by
  unfold State.endTinder
  extract_lets a0
  have k0 : Keeps r0 a0
  on_goal 1 => unfold a0
  rotate_left
  clear_value a0
  all_goals repeat' first
    | with_reducible assumption
    | intro _
    | with_reducible apply State.modUnit_keeps
    | with_reducible apply State.modCover_keeps
    | with_reducible apply Keeps.ite

theorem State.fenceTested_keeps {r0 : State} {s : State} {checker : Nat} {unit : Nat} (hk : Keeps r0 s) : Keeps r0
    (State.fenceTested s checker unit) := by
  unfold State.fenceTested
  try dsimp only
  repeat' first
    | with_reducible assumption
    | intro _
    | with_reducible apply State.fence_keeps
    | with_reducible apply Keeps.ite
    | with_reducible apply Keeps.foldl
    | with_reducible apply Keeps.foldlFst
    | fail_if_no_progress with_reducible apply Keeps.upd
    | split

theorem State.refuseWrite_keeps {r0 : State} {s : State} {off : Nat} {domain : Nat} (hk : Keeps r0 s) : Keeps r0
    (State.refuseWrite s off domain) := by
  unfold State.refuseWrite
  extract_lets a0 a1
  have k0 : Keeps r0 a0.2
  on_goal 1 => unfold a0
  rotate_left
  clear_value a0
  try clear_value a1
  all_goals repeat' first
    | with_reducible assumption
    | intro _
    | with_reducible apply State.draw_keeps
    | with_reducible apply State.fwRefuse_keeps

theorem execCvuCancel_keeps {r0 : State} {cvu : Fin 8} {domain : BitVec 4} {value : Word} {s : State} (hk : Keeps r0 s)
    : KeepsRes r0 (execCvuCancel cvu domain value s) := by
  unfold execCvuCancel
  try dsimp only
  repeat' first
    | with_reducible assumption
    | intro _
    | with_reducible apply State.refuseWrite_keeps
    | with_reducible apply State.cvuAbort_keeps
    | with_reducible apply Keeps.ite
    | with_reducible apply Keeps.foldl
    | with_reducible apply Keeps.foldlFst
    | fail_if_no_progress with_reducible apply Keeps.upd
    | with_reducible apply KeepsRes.next
    | with_reducible apply KeepsRes.ite

theorem execCvuTapArm_keeps {r0 : State} {cvu : Fin 8} {domain : BitVec 4} {value : Word} {s : State} (hk : Keeps r0 s)
    : KeepsRes r0 (execCvuTapArm cvu domain value s) := by
  unfold execCvuTapArm
  extract_lets a0 a1 a2
  try clear_value a0
  try clear_value a1
  have k2 : Keeps r0 a2
  on_goal 1 => unfold a2
  rotate_left
  clear_value a2
  all_goals repeat' first
    | with_reducible assumption
    | intro _
    | with_reducible apply State.refuseWrite_keeps
    | with_reducible apply State.cvuRefuse_keeps
    | with_reducible apply State.armTap_keeps
    | with_reducible apply State.cvuAbort_keeps
    | with_reducible apply Keeps.ite
    | with_reducible apply Keeps.foldl
    | with_reducible apply Keeps.foldlFst
    | fail_if_no_progress with_reducible apply Keeps.upd
    | with_reducible apply KeepsRes.next
    | with_reducible apply KeepsRes.ite

theorem execCvuMemoryJob_keeps {r0 : State} {cvu : Fin 8} {domain : BitVec 4} {value : Word} {s : State} (hk : Keeps r0 s)
    : KeepsRes r0 (execCvuMemoryJob cvu domain value s) := by
  unfold execCvuMemoryJob
  try dsimp only
  repeat' first
    | with_reducible assumption
    | intro _
    | with_reducible apply State.refuseWrite_keeps
    | with_reducible apply State.cvuRefuse_keeps
    | with_reducible apply State.modCvu_keeps
    | with_reducible apply State.setFld_keeps
    | with_reducible apply Keeps.ite
    | with_reducible apply Keeps.foldl
    | with_reducible apply Keeps.foldlFst
    | fail_if_no_progress with_reducible apply Keeps.upd
    | with_reducible apply KeepsRes.next
    | with_reducible apply KeepsRes.ite

theorem State.testFailed_keeps {r0 : State} {s : State} {checker : Nat} {unit : Nat} {sig : Word} (hk : Keeps r0 s) : Keeps r0
    (State.testFailed s checker unit sig) := by
  unfold State.testFailed
  extract_lets a0
  have k0 : Keeps r0 a0
  on_goal 1 => unfold a0
  rotate_left
  clear_value a0
  all_goals repeat' first
    | with_reducible assumption
    | intro _
    | with_reducible apply State.log_keeps
    | with_reducible apply State.event_keeps
    | with_reducible apply State.severe_keeps
    | with_reducible apply State.fenceTested_keeps
    | with_reducible apply State.doubtIf_keeps
    | with_reducible apply Keeps.ite

theorem State.tinderMatch_keeps {r0 : State} {s : State} {unit : Nat} (hk : Keeps r0 s) : Keeps r0
    (State.tinderMatch s unit) := by
  unfold State.tinderMatch
  extract_lets a0 a1 a2
  try clear_value a0
  try clear_value a1
  have k2 : Keeps r0 a2
  on_goal 1 => unfold a2
  rotate_left
  clear_value a2
  all_goals repeat' first
    | with_reducible assumption
    | intro _
    | with_reducible apply State.modCover_keeps
    | with_reducible apply State.modKin_keeps
    | with_reducible apply Keeps.ite

theorem State.tinderMismatch_keeps {r0 : State} {s : State} {unit : Nat} (hk : Keeps r0 s) : Keeps r0
    (State.tinderMismatch s unit) := by
  unfold State.tinderMismatch
  extract_lets a0 a1 a2
  try clear_value a0
  have k1 : Keeps r0 a1
  on_goal 1 => unfold a1
  rotate_left
  clear_value a1
  have k2 : Keeps r0 a2
  on_goal 1 => unfold a2
  rotate_left
  clear_value a2
  all_goals repeat' first
    | with_reducible assumption
    | intro _
    | with_reducible apply State.modCover_keeps
    | with_reducible apply State.doubtIf_keeps
    | with_reducible apply State.recur_keeps
    | with_reducible apply State.fence_keeps
    | with_reducible apply Keeps.ite

theorem execCvuJobDone_keeps {r0 : State} {cvu : Fin 8} {s : State} (hk : Keeps r0 s) : KeepsRes r0 (execCvuJobDone cvu s) := by
  unfold execCvuJobDone
  try dsimp only
  repeat' first
    | with_reducible assumption
    | intro _
    | with_reducible apply State.judgeRun_keeps
    | with_reducible apply State.endRemote_keeps
    | with_reducible apply State.cvuJudge_keeps
    | with_reducible apply State.cvuCompute_keeps
    | with_reducible apply State.cvuEnd_keeps
    | with_reducible apply Keeps.ite
    | with_reducible apply Keeps.foldl
    | with_reducible apply Keeps.foldlFst
    | fail_if_no_progress with_reducible apply Keeps.upd
    | with_reducible apply KeepsRes.next
    | with_reducible apply KeepsRes.ite
    | split
    | dsimp only
    | (with_reducible apply Keeps.of_fst; rotate_left; with_reducible assumption)

theorem execSelftestLate_keeps {r0 : State} {checker : Fin 12} {unit : Half} {s : State} (hk : Keeps r0 s) : KeepsRes r0
    (execSelftestLate checker unit s) := by
  unfold execSelftestLate
  try dsimp only
  repeat' first
    | with_reducible assumption
    | intro _
    | with_reducible apply State.reach_keeps
    | with_reducible apply State.modTest_keeps
    | with_reducible apply State.log_keeps
    | with_reducible apply State.event_keeps
    | with_reducible apply State.doubtIf_keeps
    | with_reducible apply Keeps.ite
    | with_reducible apply Keeps.foldl
    | with_reducible apply Keeps.foldlFst
    | fail_if_no_progress with_reducible apply Keeps.upd
    | with_reducible apply KeepsRes.next
    | with_reducible apply KeepsRes.ite
    | split

theorem execSelftestSliceEnd_keeps {r0 : State} {checker : Fin 12} {unit : Half} {sig : Word} {s : State} (hk : Keeps r0 s)
    : KeepsRes r0 (execSelftestSliceEnd checker unit sig s) := by
  unfold execSelftestSliceEnd
  try dsimp only
  repeat' first
    | with_reducible assumption
    | intro _
    | with_reducible apply State.endAct_keeps
    | with_reducible apply State.modUnit_keeps
    | with_reducible apply State.modTest_keeps
    | with_reducible apply State.scanMaint_keeps
    | with_reducible apply State.testFailed_keeps
    | with_reducible apply Keeps.ite
    | with_reducible apply Keeps.foldl
    | with_reducible apply Keeps.foldlFst
    | fail_if_no_progress with_reducible apply Keeps.upd
    | with_reducible apply KeepsRes.next
    | with_reducible apply KeepsRes.ite
    | split

theorem execSelftestSliceStart_keeps {r0 : State} {checker : Fin 12} {unit : Half} {s : State} (hk : Keeps r0 s) : KeepsRes r0
    (execSelftestSliceStart checker unit s) := by
  unfold execSelftestSliceStart
  try dsimp only
  repeat' first
    | with_reducible assumption
    | intro _
    | with_reducible apply State.startAct_keeps
    | with_reducible apply Keeps.ite
    | with_reducible apply Keeps.foldl
    | with_reducible apply Keeps.foldlFst
    | fail_if_no_progress with_reducible apply Keeps.upd
    | with_reducible apply KeepsRes.next
    | with_reducible apply KeepsRes.ite

theorem execSelftestStarved_keeps {r0 : State} {checker : Fin 12} {unit : Half} {s : State} (hk : Keeps r0 s) : KeepsRes r0
    (execSelftestStarved checker unit s) := by
  unfold execSelftestStarved
  try dsimp only
  repeat' first
    | with_reducible assumption
    | intro _
    | with_reducible apply State.modTest_keeps
    | with_reducible apply State.reach_keeps
    | with_reducible apply State.log_keeps
    | with_reducible apply State.event_keeps
    | with_reducible apply State.raiseStarvation_keeps
    | with_reducible apply Keeps.ite
    | with_reducible apply Keeps.foldl
    | with_reducible apply Keeps.foldlFst
    | fail_if_no_progress with_reducible apply Keeps.upd
    | with_reducible apply KeepsRes.next
    | with_reducible apply KeepsRes.ite
    | split

theorem execTinderJobDone_keeps {r0 : State} {unit : Half} {s : State} (hk : Keeps r0 s) : KeepsRes r0
    (execTinderJobDone unit s) := by
  unfold execTinderJobDone
  extract_lets a0 a1
  try clear_value a0
  have k1 : Keeps r0 a1
  on_goal 1 => unfold a1
  rotate_left
  clear_value a1
  all_goals repeat' first
    | with_reducible assumption
    | intro _
    | with_reducible apply State.endTinder_keeps
    | with_reducible apply State.tinderMatch_keeps
    | with_reducible apply State.verifyMismatch_keeps
    | with_reducible apply State.tinderMismatch_keeps
    | with_reducible apply Keeps.ite
    | with_reducible apply Keeps.foldl
    | with_reducible apply Keeps.foldlFst
    | fail_if_no_progress with_reducible apply Keeps.upd
    | with_reducible apply KeepsRes.next
    | with_reducible apply KeepsRes.ite
    | split

theorem execTinderLate_keeps {r0 : State} {unit : Half} {s : State} (hk : Keeps r0 s) : KeepsRes r0
    (execTinderLate unit s) := by
  unfold execTinderLate
  try dsimp only
  repeat' first
    | with_reducible assumption
    | intro _
    | with_reducible apply State.reach_keeps
    | with_reducible apply State.modCover_keeps
    | with_reducible apply State.log_keeps
    | with_reducible apply State.event_keeps
    | with_reducible apply State.doubtIf_keeps
    | with_reducible apply Keeps.ite
    | with_reducible apply Keeps.foldl
    | with_reducible apply Keeps.foldlFst
    | fail_if_no_progress with_reducible apply Keeps.upd
    | with_reducible apply KeepsRes.next
    | with_reducible apply KeepsRes.ite
    | split

theorem execTinderPromote_keeps {r0 : State} {unit : Half} {s : State} (hk : Keeps r0 s) : KeepsRes r0
    (execTinderPromote unit s) := by
  unfold execTinderPromote
  try dsimp only
  repeat' first
    | with_reducible assumption
    | intro _
    | with_reducible apply State.modCover_keeps
    | with_reducible apply State.reach_keeps
    | with_reducible apply Keeps.ite
    | with_reducible apply Keeps.foldl
    | with_reducible apply Keeps.foldlFst
    | fail_if_no_progress with_reducible apply Keeps.upd
    | with_reducible apply KeepsRes.next
    | with_reducible apply KeepsRes.ite
    | split

/-! ### Machine/Island.lean -/

theorem State.crossLimit_keeps {r0 : State} {s : State} {num : Nat} {v : Int} {l : Nat × Nat × Nat × Int} (hk : Keeps r0 s)
    : Keeps r0 (State.crossLimit s num v l) := by
  unfold State.crossLimit
  extract_lets a0
  have k0 : Keeps r0 a0
  on_goal 1 => unfold a0
  rotate_left
  clear_value a0
  all_goals repeat' first
    | with_reducible assumption
    | intro _
    | with_reducible apply State.log_keeps
    | with_reducible apply State.event_keeps
    | with_reducible apply State.severe_keeps
    | with_reducible apply State.doubt_keeps
    | with_reducible apply Keeps.ite

theorem State.enterSafe_keeps {r0 : State} {s : State} {cause : Nat} (hk : Keeps r0 s) : Keeps r0
    (State.enterSafe s cause) := by
  unfold State.enterSafe
  extract_lets a0 a1 a2 a3 a4 a5 a6 a7 a8 a9 a10
  have k0 : Keeps r0 a0
  on_goal 1 => unfold a0
  rotate_left
  clear_value a0
  have k1 : Keeps r0 a1
  on_goal 1 => unfold a1
  rotate_left
  clear_value a1
  have k2 : Keeps r0 a2
  on_goal 1 => unfold a2
  rotate_left
  clear_value a2
  try clear_value a3
  have k4 : Keeps r0 a4
  on_goal 1 => unfold a4
  rotate_left
  clear_value a4
  have k5 : Keeps r0 a5
  on_goal 1 => unfold a5
  rotate_left
  clear_value a5
  have k6 : Keeps r0 a6
  on_goal 1 => unfold a6
  rotate_left
  clear_value a6
  have k7 : Keeps r0 a7
  on_goal 1 => unfold a7
  rotate_left
  clear_value a7
  try clear_value a8
  have k9 : Keeps r0 a9
  on_goal 1 => unfold a9
  rotate_left
  clear_value a9
  have k10 : Keeps r0 a10
  on_goal 1 => unfold a10
  rotate_left
  clear_value a10
  all_goals repeat' first
    | with_reducible assumption
    | intro _
    | with_reducible apply State.modPins_keeps
    | with_reducible apply State.setFlag_keeps
    | with_reducible apply State.cancel_keeps
    | with_reducible apply State.gpioSafe_keeps
    | with_reducible apply State.sendOn_keeps
    | with_reducible apply State.modSafety_keeps
    | with_reducible apply State.setDomain_keeps
    | with_reducible apply State.modJournal_keeps
    | with_reducible apply Keeps.ite
    | with_reducible apply Keeps.foldl
    | with_reducible apply Keeps.foldlFst
    | fail_if_no_progress with_reducible apply Keeps.upd

theorem State.excludeSensor_keeps {r0 : State} {s : State} {n : Nat} (hk : Keeps r0 s) : Keeps r0
    (State.excludeSensor s n) := by
  unfold State.excludeSensor
  extract_lets a0 a1
  try clear_value a0
  have k1 : Keeps r0 a1
  on_goal 1 => unfold a1
  rotate_left
  clear_value a1
  all_goals repeat' first
    | with_reducible assumption
    | intro _
    | with_reducible apply State.modSafety_keeps
    | with_reducible apply State.log_keeps
    | with_reducible apply State.event_keeps
    | with_reducible apply Keeps.ite

theorem State.excludeAll_keeps {r0 : State} {s : State} {n : Nat} (hk : Keeps r0 s) : Keeps r0 (State.excludeAll s n) := by
  unfold State.excludeAll
  try dsimp only
  repeat' first
    | with_reducible assumption
    | intro _
    | with_reducible apply State.excludeSensor_keeps
    | with_reducible apply Keeps.ite
    | with_reducible apply Keeps.foldl

theorem State.stopIsland_keeps {r0 : State} {s : State} (hk : Keeps r0 s) : Keeps r0 (State.stopIsland s) := by
  unfold State.stopIsland
  try dsimp only
  repeat' first
    | with_reducible assumption
    | intro _
    | with_reducible apply State.modSafety_keeps
    | with_reducible apply State.modPins_keeps

theorem State.islandFails_keeps {r0 : State} {s : State} (hk : Keeps r0 s) : Keeps r0 (State.islandFails s) := by
  unfold State.islandFails
  try dsimp only
  repeat' first
    | with_reducible assumption
    | intro _
    | with_reducible apply State.stopIsland_keeps
    | with_reducible apply State.severe_keeps
    | with_reducible apply Keeps.ite

theorem State.judgeMonitor_keeps {r0 : State} {s : State} {num : Nat} {v : Int} (hk : Keeps r0 s) : Keeps r0
    (State.judgeMonitor s num v) := by
  unfold State.judgeMonitor
  extract_lets a0 a1 a2 a3
  try clear_value a0
  try clear_value a1
  try clear_value a2
  have k3 : Keeps r0 a3
  on_goal 1 => unfold a3
  rotate_left
  clear_value a3
  all_goals repeat' first
    | with_reducible assumption
    | intro _
    | with_reducible apply State.modSafety_keeps
    | with_reducible apply State.crossLimit_keeps
    | with_reducible apply Keeps.ite
    | with_reducible apply Keeps.foldl

theorem State.noteCool_keeps {r0 : State} {s : State} {h : Int} (hk : Keeps r0 s) : Keeps r0 (State.noteCool s h) := by
  unfold State.noteCool
  try dsimp only
  repeat' first
    | with_reducible assumption
    | intro _
    | with_reducible apply Keeps.ite
    | with_reducible apply Keeps.foldl
    | with_reducible apply Keeps.foldlFst
    | fail_if_no_progress with_reducible apply Keeps.upd

theorem execFwlRgnCtrlWrite_keeps {r0 : State} {bank : Fin 6} {domain : BitVec 4} {value : Word} {s : State} (hk : Keeps r0 s)
    : KeepsRes r0 (execFwlRgnCtrlWrite bank domain value s) := by
  unfold execFwlRgnCtrlWrite
  extract_lets a0 a1 a2 a3 a4 a5 a6 a7 a8 a9 a10 a11 a12
  try clear_value a0
  try clear_value a1
  try clear_value a2
  try clear_value a3
  try clear_value a4
  try clear_value a5
  have k6 : Keeps r0 a6
  on_goal 1 => unfold a6
  rotate_left
  clear_value a6
  have k7 : Keeps r0 a7.2
  on_goal 1 => unfold a7
  rotate_left
  clear_value a7
  try clear_value a8
  try clear_value a9
  try clear_value a10
  try clear_value a11
  have k12 : Keeps r0 a12
  on_goal 1 => unfold a12
  rotate_left
  clear_value a12
  all_goals repeat' first
    | with_reducible assumption
    | intro _
    | with_reducible apply State.refuseWrite_keeps
    | with_reducible apply State.event_keeps
    | with_reducible apply State.draw_keeps
    | with_reducible apply State.log_keeps
    | with_reducible apply State.modSafety_keeps
    | with_reducible apply Keeps.ite
    | with_reducible apply Keeps.foldl
    | with_reducible apply Keeps.foldlFst
    | fail_if_no_progress with_reducible apply Keeps.upd
    | with_reducible apply Keeps.dropShadows
    | with_reducible apply KeepsRes.next
    | with_reducible apply KeepsRes.ite

theorem State.readTemp_keeps {r0 : State} {s : State} {n : Nat} {v : Int} (hk : Keeps r0 s) : Keeps r0
    (State.readTemp s n v) := by
  unfold State.readTemp
  extract_lets a0 a1 a2
  have k0 : Keeps r0 a0
  on_goal 1 => unfold a0
  rotate_left
  clear_value a0
  have k1 : Keeps r0 a1
  on_goal 1 => unfold a1
  rotate_left
  clear_value a1
  have k2 : Keeps r0 a2
  on_goal 1 => unfold a2
  rotate_left
  clear_value a2
  all_goals repeat' first
    | with_reducible assumption
    | intro _
    | with_reducible apply State.modSafety_keeps
    | with_reducible apply State.excludeAll_keeps
    | with_reducible apply State.judgeMonitor_keeps
    | with_reducible apply State.noteCool_keeps
    | with_reducible apply State.setFld_keeps
    | with_reducible apply Keeps.ite
    | with_reducible apply Keeps.foldl
    | with_reducible apply Keeps.foldlFst
    | fail_if_no_progress with_reducible apply Keeps.upd
    | split

theorem execDoubtAtSelector_keeps {r0 : State} {s : State} (hk : Keeps r0 s) : KeepsRes r0 (execDoubtAtSelector s) := by
  unfold execDoubtAtSelector
  try dsimp only
  repeat' first
    | with_reducible assumption
    | intro _
    | with_reducible apply State.selectEmber_keeps
    | with_reducible apply State.modSafety_keeps
    | with_reducible apply Keeps.ite
    | with_reducible apply Keeps.foldl
    | with_reducible apply Keeps.foldlFst
    | fail_if_no_progress with_reducible apply Keeps.upd
    | with_reducible apply KeepsRes.next
    | with_reducible apply KeepsRes.ite
    | split

theorem execErrIn_keeps {r0 : State} {lowNs : Nat} {s : State} (hk : Keeps r0 s) : KeepsRes r0 (execErrIn lowNs s) := by
  unfold execErrIn
  extract_lets a0 a1 a2 a3 a4
  try clear_value a0
  have k1 : Keeps r0 a1
  on_goal 1 => unfold a1
  rotate_left
  clear_value a1
  try clear_value a2
  have k3 : Keeps r0 a3
  on_goal 1 => unfold a3
  rotate_left
  clear_value a3
  have k4 : Keeps r0 a4
  on_goal 1 => unfold a4
  rotate_left
  clear_value a4
  all_goals repeat' first
    | with_reducible assumption
    | intro _
    | with_reducible apply State.modSafety_keeps
    | with_reducible apply State.modPins_keeps
    | with_reducible apply State.setFlag_keeps
    | with_reducible apply State.raiseErrIn_keeps
    | with_reducible apply Keeps.ite
    | with_reducible apply Keeps.foldl
    | with_reducible apply Keeps.foldlFst
    | fail_if_no_progress with_reducible apply Keeps.upd
    | with_reducible apply KeepsRes.next
    | with_reducible apply KeepsRes.ite

theorem execHeartbeatToggle_keeps {r0 : State} {s : State} (hk : Keeps r0 s) : KeepsRes r0 (execHeartbeatToggle s) := by
  unfold execHeartbeatToggle
  extract_lets a0
  have k0 : Keeps r0 a0
  on_goal 1 => unfold a0
  rotate_left
  clear_value a0
  all_goals repeat' first
    | with_reducible assumption
    | intro _
    | with_reducible apply State.reach_keeps
    | with_reducible apply State.modSafety_keeps
    | with_reducible apply State.modPins_keeps
    | with_reducible apply Keeps.ite
    | with_reducible apply Keeps.foldl
    | with_reducible apply Keeps.foldlFst
    | fail_if_no_progress with_reducible apply Keeps.upd
    | with_reducible apply KeepsRes.next
    | with_reducible apply KeepsRes.ite

theorem execIslandClockDisagree_keeps {r0 : State} {s : State} (hk : Keeps r0 s) : KeepsRes r0 (execIslandClockDisagree s) := by
  unfold execIslandClockDisagree
  try dsimp only
  repeat' first
    | with_reducible assumption
    | intro _
    | with_reducible apply State.islandFails_keeps
    | with_reducible apply Keeps.ite
    | with_reducible apply Keeps.foldl
    | with_reducible apply Keeps.foldlFst
    | fail_if_no_progress with_reducible apply Keeps.upd
    | with_reducible apply KeepsRes.next

theorem execIslandRomCheck_keeps {r0 : State} {pass : Bool} {s : State} (hk : Keeps r0 s) : KeepsRes r0
    (execIslandRomCheck pass s) := by
  unfold execIslandRomCheck
  try dsimp only
  repeat' first
    | with_reducible assumption
    | intro _
    | with_reducible apply State.islandFails_keeps
    | with_reducible apply Keeps.ite
    | with_reducible apply Keeps.foldl
    | with_reducible apply Keeps.foldlFst
    | fail_if_no_progress with_reducible apply Keeps.upd
    | with_reducible apply KeepsRes.next

theorem execIslandSramUe_keeps {r0 : State} {s : State} (hk : Keeps r0 s) : KeepsRes r0 (execIslandSramUe s) := by
  unfold execIslandSramUe
  try dsimp only
  repeat' first
    | with_reducible assumption
    | intro _
    | with_reducible apply State.islandFails_keeps
    | with_reducible apply Keeps.ite
    | with_reducible apply Keeps.foldl
    | with_reducible apply Keeps.foldlFst
    | fail_if_no_progress with_reducible apply Keeps.upd
    | with_reducible apply KeepsRes.next

theorem execIslandWatchdogExpiry_keeps {r0 : State} {s : State} (hk : Keeps r0 s) : KeepsRes r0
    (execIslandWatchdogExpiry s) := by
  unfold execIslandWatchdogExpiry
  try dsimp only
  repeat' first
    | with_reducible assumption
    | intro _
    | with_reducible apply State.islandFails_keeps
    | with_reducible apply State.reach_keeps
    | with_reducible apply Keeps.ite
    | with_reducible apply Keeps.foldl
    | with_reducible apply Keeps.foldlFst
    | fail_if_no_progress with_reducible apply Keeps.upd
    | with_reducible apply KeepsRes.next
    | with_reducible apply KeepsRes.ite

theorem execMonitor_keeps {r0 : State} {num : Byte} {value : Int} {s : State} (hk : Keeps r0 s) : KeepsRes r0
    (execMonitor num value s) := by
  unfold execMonitor
  try dsimp only
  repeat' first
    | with_reducible assumption
    | intro _
    | with_reducible apply State.readTemp_keeps
    | with_reducible apply State.judgeMonitor_keeps
    | with_reducible apply Keeps.ite
    | with_reducible apply Keeps.foldl
    | with_reducible apply Keeps.foldlFst
    | fail_if_no_progress with_reducible apply Keeps.upd
    | with_reducible apply KeepsRes.next
    | with_reducible apply KeepsRes.ite

theorem execSafeStateEntry_keeps {r0 : State} {s : State} (hk : Keeps r0 s) : KeepsRes r0 (execSafeStateEntry s) := by
  unfold execSafeStateEntry
  try dsimp only
  repeat' first
    | with_reducible assumption
    | intro _
    | with_reducible apply State.enterSafe_keeps
    | with_reducible apply State.modSafety_keeps
    | with_reducible apply State.stopIsland_keeps
    | with_reducible apply Keeps.ite
    | with_reducible apply Keeps.foldl
    | with_reducible apply Keeps.foldlFst
    | fail_if_no_progress with_reducible apply Keeps.upd
    | with_reducible apply KeepsRes.next
    | with_reducible apply KeepsRes.ite
    | split

theorem execSevereFlushExpiry_keeps {r0 : State} {s : State} (hk : Keeps r0 s) : KeepsRes r0 (execSevereFlushExpiry s) := by
  unfold execSevereFlushExpiry
  try dsimp only
  repeat' first
    | with_reducible assumption
    | intro _
    | with_reducible apply State.modSafety_keeps
    | with_reducible apply State.reach_keeps
    | with_reducible apply State.warmReset_keeps
    | with_reducible apply Keeps.ite
    | with_reducible apply Keeps.foldl
    | with_reducible apply Keeps.foldlFst
    | fail_if_no_progress with_reducible apply Keeps.upd
    | with_reducible apply KeepsRes.next
    | with_reducible apply KeepsRes.ite
    | split

theorem execSmLockstepMismatch_keeps {r0 : State} {s : State} (hk : Keeps r0 s) : KeepsRes r0 (execSmLockstepMismatch s) := by
  unfold execSmLockstepMismatch
  try dsimp only
  repeat' first
    | with_reducible assumption
    | intro _
    | with_reducible apply State.islandFails_keeps
    | with_reducible apply Keeps.ite
    | with_reducible apply Keeps.foldl
    | with_reducible apply Keeps.foldlFst
    | fail_if_no_progress with_reducible apply Keeps.upd
    | with_reducible apply KeepsRes.next

theorem execVddSiExcursion_keeps {r0 : State} {s : State} (hk : Keeps r0 s) : KeepsRes r0 (execVddSiExcursion s) := by
  unfold execVddSiExcursion
  split
  · exact KeepsRes.next hk
  · exact KeepsRes.next (Keeps.dropRegs (State.modKin_keeps (State.coreOff_keeps hk)))

end Sys2Proof.Machine
end

