-- ==== Sys2Proof/Laws/KeepsSystem.lean ====
section
/-! SUPPORT. That the commands of the system blocks keep what `Keeps` says: one lemma for each, in the order of the model's files. -/

namespace Sys2Proof.Machine

open Sys2Proof

/-! ### Machine/Banked.lean -/

theorem State.actRules_keeps {r0 : State} {s : State} {qs : List RuleRec} {changed : List Nat} (hk : Keeps r0 s) : Keeps r0
    (State.actRules s qs changed) := by
  unfold State.actRules
  extract_lets a0 a1 a2 a3
  have k0 : Keeps r0 a0
  on_goal 1 => unfold a0
  rotate_left
  clear_value a0
  have k1 : Keeps r0 a1
  on_goal 1 => unfold a1
  rotate_left
  clear_value a1
  try clear_value a2
  have k3 : Keeps r0 a3
  on_goal 1 => unfold a3
  rotate_left
  clear_value a3
  all_goals repeat' first
    | with_reducible assumption
    | intro _
    | with_reducible apply State.setLevel_keeps
    | with_reducible apply State.showMults_keeps
    | with_reducible apply State.applyPatch_keeps
    | with_reducible apply State.evalTriggers_keeps
    | with_reducible apply Keeps.ite
    | with_reducible apply Keeps.foldl

theorem State.drawMetric_keeps {r0 : State} {s : State} (hk : Keeps r0 s) : Keeps r0 (State.drawMetric s).1 := by
  unfold State.drawMetric
  try dsimp only
  repeat' first
    | with_reducible assumption
    | intro _
    | with_reducible apply State.draw_keeps

theorem State.busyShare_keeps {r0 : State} {s : State} {c : Nat} (hk : Keeps r0 s) : Keeps r0 (State.busyShare s c).1 := by
  unfold State.busyShare
  try dsimp only
  repeat' first
    | with_reducible assumption
    | intro _
    | with_reducible apply State.drawMetric_keeps
    | with_reducible apply Keeps.ite
    | with_reducible apply Keeps.foldl
    | with_reducible apply Keeps.foldlFst
    | fail_if_no_progress with_reducible apply Keeps.upd
    | split

theorem State.metric_keeps {r0 : State} {s : State} {q : RuleRec} (hk : Keeps r0 s) : Keeps r0 (State.metric s q).1 := by
  unfold State.metric
  try dsimp only
  repeat' first
    | with_reducible assumption
    | intro _
    | with_reducible apply State.busyShare_keeps
    | with_reducible apply State.drawMetric_keeps
    | with_reducible apply Keeps.ite
    | with_reducible apply Keeps.foldl
    | with_reducible apply Keeps.foldlFst
    | fail_if_no_progress with_reducible apply Keeps.upd
    | split

theorem State.evalRule_keeps {r0 : State} {s : State} {n : Nat} {q : RuleRec} {changed : List Nat} (hk : Keeps r0 s)
    : Keeps r0 (State.evalRule s n q changed).1 := by
  unfold State.evalRule
  extract_lets a0 a1 a2 a3 a4 a5 a6 a7 a8
  try clear_value a0
  have k1 : Keeps r0 a1.1
  on_goal 1 => unfold a1
  rotate_left
  clear_value a1
  have k2 : Keeps r0 a2
  on_goal 1 => unfold a2
  rotate_left
  clear_value a2
  try clear_value a3
  try clear_value a4
  try clear_value a5
  have k6 : Keeps r0 a6
  on_goal 1 => unfold a6
  rotate_left
  clear_value a6
  try clear_value a7
  have k8 : Keeps r0 a8
  on_goal 1 => unfold a8
  rotate_left
  clear_value a8
  all_goals repeat' first
    | with_reducible assumption
    | intro _
    | with_reducible apply State.metric_keeps
    | with_reducible apply State.log_keeps
    | with_reducible apply State.event_keeps
    | with_reducible apply State.setFlag_keeps
    | with_reducible apply Keeps.ite
    | with_reducible apply Keeps.foldl
    | with_reducible apply Keeps.foldlFst
    | fail_if_no_progress with_reducible apply Keeps.upd
    | split

theorem State.fenceJournal_keeps {r0 : State} {s : State} (hk : Keeps r0 s) : Keeps r0 (State.fenceJournal s) := by
  unfold State.fenceJournal
  try dsimp only
  repeat' first
    | with_reducible assumption
    | intro _
    | with_reducible apply State.modJournal_keeps
    | with_reducible apply State.setDomain_keeps

theorem State.fenceQuarter_keeps {r0 : State} {s : State} {q : Nat} (hk : Keeps r0 s) : Keeps r0 (State.fenceQuarter s q) := by
  unfold State.fenceQuarter
  extract_lets a0 a1 a2 a3 a4
  try clear_value a0
  try clear_value a1
  have k2 : Keeps r0 a2
  on_goal 1 => unfold a2
  rotate_left
  clear_value a2
  try clear_value a3
  have k4 : Keeps r0 a4
  on_goal 1 => unfold a4
  rotate_left
  clear_value a4
  all_goals repeat' first
    | with_reducible assumption
    | intro _
    | with_reducible apply State.setDomain_keeps
    | with_reducible apply State.wcFence_keeps
    | with_reducible apply State.severe_keeps
    | with_reducible apply Keeps.ite
    | with_reducible apply Keeps.foldl
    | with_reducible apply Keeps.foldlFst
    | fail_if_no_progress with_reducible apply Keeps.upd

theorem State.failDomain_keeps {r0 : State} {s : State} {d : Nat} (hk : Keeps r0 s) : Keeps r0 (State.failDomain s d) := by
  unfold State.failDomain
  try dsimp only
  repeat' first
    | with_reducible assumption
    | intro _
    | with_reducible apply State.severe_keeps
    | with_reducible apply State.fenceJournal_keeps
    | with_reducible apply State.fenceQuarter_keeps
    | with_reducible apply State.setDomain_keeps
    | with_reducible apply State.fence_keeps
    | with_reducible apply Keeps.ite
    | with_reducible apply Keeps.foldl

theorem State.modReq_keeps {r0 : State} {s : State} {a : Nat} {f : MaintReq → MaintReq} (hk : Keeps r0 s) : Keeps r0
    (State.modReq s a f) := by
  unfold State.modReq
  try dsimp only
  repeat' first
    | with_reducible assumption
    | intro _
    | with_reducible apply Keeps.ite
    | with_reducible apply Keeps.foldl
    | with_reducible apply Keeps.foldlFst
    | fail_if_no_progress with_reducible apply Keeps.upd

theorem State.newPeriod_keeps {r0 : State} {s : State} (hk : Keeps r0 s) : Keeps r0 (State.newPeriod s) := by
  unfold State.newPeriod
  try dsimp only
  repeat' first
    | with_reducible assumption
    | intro _
    | with_reducible apply Keeps.ite
    | with_reducible apply Keeps.foldl
    | with_reducible apply Keeps.foldlFst
    | fail_if_no_progress with_reducible apply Keeps.upd

theorem State.setNeStep_keeps {r0 : State} {s : State} {step : Nat} {h : Int} (hk : Keeps r0 s) : Keeps r0
    (State.setNeStep s step h) := by
  unfold State.setNeStep
  extract_lets a0 a1 a2
  try clear_value a0
  have k1 : Keeps r0 a1
  on_goal 1 => unfold a1
  rotate_left
  clear_value a1
  have k2 : Keeps r0 a2
  on_goal 1 => unfold a2
  rotate_left
  clear_value a2
  all_goals repeat' first
    | with_reducible assumption
    | intro _
    | with_reducible apply State.log_keeps
    | with_reducible apply State.event_keeps
    | with_reducible apply State.setFld_keeps

theorem State.ungate_keeps {r0 : State} {s : State} {code : Nat} (hk : Keeps r0 s) : Keeps r0 (State.ungate s code) := by
  unfold State.ungate
  try dsimp only
  repeat' first
    | with_reducible assumption
    | intro _
    | with_reducible apply State.modUnit_keeps
    | with_reducible apply Keeps.ite

theorem State.wakeMemory_keeps {r0 : State} {s : State} {d : Nat} (hk : Keeps r0 s) : Keeps r0 (State.wakeMemory s d) := by
  unfold State.wakeMemory
  try dsimp only
  repeat' first
    | with_reducible assumption
    | intro _
    | with_reducible apply State.cinderNow_keeps
    | with_reducible apply Keeps.ite

theorem execAdaptEval_keeps {r0 : State} {s : State} (hk : Keeps r0 s) : KeepsRes r0 (execAdaptEval s) := by
  unfold execAdaptEval
  extract_lets a0 a1 a2
  have k0 : Keeps r0 a0
  on_goal 1 => unfold a0
  rotate_left
  clear_value a0
  try clear_value a1
  have k2 : Keeps r0 a2.1
  on_goal 1 => unfold a2
  rotate_left
  clear_value a2
  all_goals repeat' first
    | with_reducible assumption
    | intro _
    | with_reducible apply State.reach_keeps
    | with_reducible apply State.evalRule_keeps
    | with_reducible apply State.actRules_keeps
    | with_reducible apply State.newPeriod_keeps
    | with_reducible apply Keeps.ite
    | with_reducible apply Keeps.foldl
    | with_reducible apply Keeps.foldlFst
    | fail_if_no_progress with_reducible apply Keeps.upd
    | with_reducible apply KeepsRes.next
    | with_reducible apply KeepsRes.ite

theorem execDomainFault_keeps {r0 : State} {dom : Fin 188} {s : State} (hk : Keeps r0 s) : KeepsRes r0
    (execDomainFault dom s) := by
  unfold execDomainFault
  extract_lets a0 a1 a2
  try clear_value a0
  try clear_value a1
  have k2 : Keeps r0 a2
  on_goal 1 => unfold a2
  rotate_left
  clear_value a2
  all_goals repeat' first
    | with_reducible assumption
    | intro _
    | with_reducible apply State.log_keeps
    | with_reducible apply State.event_keeps
    | with_reducible apply State.failDomain_keeps
    | with_reducible apply Keeps.ite
    | with_reducible apply Keeps.foldl
    | with_reducible apply Keeps.foldlFst
    | fail_if_no_progress with_reducible apply Keeps.upd
    | with_reducible apply KeepsRes.next

theorem execDomainPowerUpDone_keeps {r0 : State} {dom : Fin 188} {s : State} (hk : Keeps r0 s) : KeepsRes r0
    (execDomainPowerUpDone dom s) := by
  unfold execDomainPowerUpDone
  extract_lets a0 a1 a2 a3
  try clear_value a0
  try clear_value a1
  have k2 : Keeps r0 a2
  on_goal 1 => unfold a2
  rotate_left
  clear_value a2
  have k3 : Keeps r0 a3
  on_goal 1 => unfold a3
  rotate_left
  clear_value a3
  all_goals repeat' first
    | with_reducible assumption
    | intro _
    | with_reducible apply State.wakeMemory_keeps
    | with_reducible apply State.setDomain_keeps
    | with_reducible apply State.ungate_keeps
    | with_reducible apply Keeps.ite
    | with_reducible apply Keeps.foldl
    | with_reducible apply Keeps.foldlFst
    | fail_if_no_progress with_reducible apply Keeps.upd
    | with_reducible apply KeepsRes.next
    | with_reducible apply KeepsRes.ite

theorem execIdleGate_keeps {r0 : State} {unit : Half} {s : State} (hk : Keeps r0 s) : KeepsRes r0 (execIdleGate unit s) := by
  unfold execIdleGate
  extract_lets a0 a1 a2 a3
  try clear_value a0
  try clear_value a1
  try clear_value a2
  have k3 : Keeps r0 a3
  on_goal 1 => unfold a3
  rotate_left
  clear_value a3
  all_goals repeat' first
    | with_reducible assumption
    | intro _
    | with_reducible apply State.reach_keeps
    | with_reducible apply State.modUnit_keeps
    | with_reducible apply State.setDomain_keeps
    | with_reducible apply Keeps.ite
    | with_reducible apply Keeps.foldl
    | with_reducible apply Keeps.foldlFst
    | fail_if_no_progress with_reducible apply Keeps.upd
    | with_reducible apply KeepsRes.next
    | with_reducible apply KeepsRes.ite

theorem execIdleWake_keeps {r0 : State} {unit : Half} {s : State} (hk : Keeps r0 s) : KeepsRes r0 (execIdleWake unit s) := by
  unfold execIdleWake
  try dsimp only
  repeat' first
    | with_reducible assumption
    | intro _
    | with_reducible apply State.ungate_keeps
    | with_reducible apply State.setDomain_keeps
    | with_reducible apply Keeps.ite
    | with_reducible apply Keeps.foldl
    | with_reducible apply Keeps.foldlFst
    | fail_if_no_progress with_reducible apply Keeps.upd
    | with_reducible apply KeepsRes.next
    | with_reducible apply KeepsRes.ite

theorem State.scrubbed_keeps {r0 : State} {s : State} {a : Nat} {ecc : List EccHit} (hk : Keeps r0 s) :
    Keeps r0 (State.scrubbed s a ecc) := by
  unfold State.scrubbed
  repeat' first
    | with_reducible assumption
    | with_reducible apply State.eccHits_keeps
    | with_reducible apply Keeps.ite

theorem execMaintActivityEnd_keeps {r0 : State} {act : Half} {ecc : List EccHit} {s : State} (hk : Keeps r0 s) : KeepsRes r0
    (execMaintActivityEnd act ecc s) := by
  unfold execMaintActivityEnd
  try dsimp only
  repeat' first
    | with_reducible assumption
    | intro _
    | with_reducible apply State.scrubbed_keeps
    | with_reducible apply State.scanMaint_keeps
    | with_reducible apply State.endAct_keeps
    | with_reducible apply Keeps.ite
    | with_reducible apply Keeps.foldl
    | with_reducible apply Keeps.foldlFst
    | fail_if_no_progress with_reducible apply Keeps.upd
    | with_reducible apply KeepsRes.next
    | with_reducible apply KeepsRes.ite
    | split

theorem execMaintOverdue_keeps {r0 : State} {act : Half} {s : State} (hk : Keeps r0 s) : KeepsRes r0
    (execMaintOverdue act s) := by
  unfold execMaintOverdue
  try dsimp only
  repeat' first
    | with_reducible assumption
    | intro _
    | with_reducible apply State.reach_keeps
    | with_reducible apply State.draw_keeps
    | with_reducible apply State.log_keeps
    | with_reducible apply State.event_keeps
    | with_reducible apply State.modReq_keeps
    | with_reducible apply Keeps.ite
    | with_reducible apply Keeps.foldl
    | with_reducible apply Keeps.foldlFst
    | fail_if_no_progress with_reducible apply Keeps.upd
    | with_reducible apply KeepsRes.next
    | with_reducible apply KeepsRes.ite
    | split

theorem execMaintPeriodExpiry_keeps {r0 : State} {act : Half} {s : State} (hk : Keeps r0 s) : KeepsRes r0
    (execMaintPeriodExpiry act s) := by
  unfold execMaintPeriodExpiry
  try dsimp only
  repeat' first
    | with_reducible assumption
    | intro _
    | with_reducible apply State.reach_keeps
    | with_reducible apply State.requestAct_keeps
    | with_reducible apply Keeps.ite
    | with_reducible apply Keeps.foldl
    | with_reducible apply Keeps.foldlFst
    | fail_if_no_progress with_reducible apply Keeps.upd
    | with_reducible apply KeepsRes.next
    | with_reducible apply KeepsRes.ite
    | split

theorem execMaintRequest_keeps {r0 : State} {act : Half} {s : State} (hk : Keeps r0 s) : KeepsRes r0
    (execMaintRequest act s) := by
  unfold execMaintRequest
  try dsimp only
  repeat' first
    | with_reducible assumption
    | intro _
    | with_reducible apply State.requestAct_keeps
    | with_reducible apply Keeps.ite
    | with_reducible apply Keeps.foldl
    | with_reducible apply Keeps.foldlFst
    | fail_if_no_progress with_reducible apply Keeps.upd
    | with_reducible apply KeepsRes.next

theorem execMaintReserve_keeps {r0 : State} {act : Half} {s : State} (hk : Keeps r0 s) : KeepsRes r0
    (execMaintReserve act s) := by
  unfold execMaintReserve
  try dsimp only
  repeat' first
    | with_reducible assumption
    | intro _
    | with_reducible apply State.modReq_keeps
    | with_reducible apply State.reach_keeps
    | with_reducible apply Keeps.ite
    | with_reducible apply Keeps.foldl
    | with_reducible apply Keeps.foldlFst
    | fail_if_no_progress with_reducible apply Keeps.upd
    | with_reducible apply KeepsRes.next
    | with_reducible apply KeepsRes.ite
    | split

theorem execStarvationLower_keeps {r0 : State} {s : State} (hk : Keeps r0 s) : KeepsRes r0 (execStarvationLower s) := by
  unfold execStarvationLower
  extract_lets a0 a1 a2 a3
  try clear_value a0
  have k1 : Keeps r0 a1
  on_goal 1 => unfold a1
  rotate_left
  clear_value a1
  have k2 : Keeps r0 a2
  on_goal 1 => unfold a2
  rotate_left
  clear_value a2
  try clear_value a3
  all_goals repeat' first
    | with_reducible assumption
    | intro _
    | with_reducible apply State.reach_keeps
    | with_reducible apply State.setLevel_keeps
    | with_reducible apply Keeps.ite
    | with_reducible apply Keeps.foldl
    | with_reducible apply Keeps.foldlFst
    | fail_if_no_progress with_reducible apply Keeps.upd
    | with_reducible apply KeepsRes.next
    | with_reducible apply KeepsRes.ite

theorem execThermalEval_keeps {r0 : State} {s : State} (hk : Keeps r0 s) : KeepsRes r0 (execThermalEval s) := by
  unfold execThermalEval
  extract_lets a0 a1 a2 a3 a4
  have k0 : Keeps r0 a0
  on_goal 1 => unfold a0
  rotate_left
  try clear_value a1
  try clear_value a2
  try clear_value a3
  all_goals repeat' first
    | with_reducible assumption
    | intro _
    | with_reducible apply State.reach_keeps
    | with_reducible apply State.setLevel_keeps
    | with_reducible apply State.setNeStep_keeps
    | with_reducible apply Keeps.ite
    | with_reducible apply Keeps.foldl
    | with_reducible apply Keeps.foldlFst
    | fail_if_no_progress with_reducible apply Keeps.upd
    | with_reducible apply KeepsRes.next
    | with_reducible apply KeepsRes.ite
    | split

/-! ### Machine/Camera.lean -/

theorem State.copyDone_keeps {r0 : State} {s : State} {bus : Nat} (hk : Keeps r0 s) : Keeps r0 (State.copyDone s bus) := by
  unfold State.copyDone
  extract_lets a0 a1
  try clear_value a0
  have k1 : Keeps r0 a1
  on_goal 1 => unfold a1
  rotate_left
  clear_value a1
  all_goals repeat' first
    | with_reducible assumption
    | intro _
    | with_reducible apply State.showBatch_keeps
    | with_reducible apply State.modCam_keeps
    | with_reducible apply Keeps.ite
    | with_reducible apply Keeps.foldl
    | with_reducible apply Keeps.foldlFst
    | fail_if_no_progress with_reducible apply Keeps.upd
    | split

theorem execI3cBatchGo_keeps {r0 : State} {bus : Fin 4} {domain : BitVec 4} {value : Word} {s : State} (hk : Keeps r0 s)
    : KeepsRes r0 (execI3cBatchGo bus domain value s) := by
  unfold execI3cBatchGo
  extract_lets a0 a1 a2 a3 a4 a5 a6 a7 a8 a9 a10 a11 a12
  try clear_value a0
  try clear_value a1
  try clear_value a2
  try clear_value a3
  try clear_value a4
  try clear_value a5
  try clear_value a6
  try clear_value a7
  try clear_value a8
  have k9 : Keeps r0 a9
  on_goal 1 => unfold a9
  rotate_left
  clear_value a9
  have k10 : Keeps r0 a10
  on_goal 1 => unfold a10
  rotate_left
  clear_value a10
  have k11 : Keeps r0 a11
  on_goal 1 => unfold a11
  rotate_left
  clear_value a11
  try clear_value a12
  all_goals repeat' first
    | with_reducible assumption
    | intro _
    | with_reducible apply State.copyDone_keeps
    | with_reducible apply State.setFld_keeps
    | with_reducible apply Keeps.ite
    | with_reducible apply Keeps.foldl
    | with_reducible apply Keeps.foldlFst
    | fail_if_no_progress with_reducible apply Keeps.upd
    | with_reducible apply KeepsRes.next

theorem State.markLine_keeps {r0 : State} {s : State} {p : StreamRec} {seq : Word} {y : Nat} {fl : Nat} (hk : Keeps r0 s)
    : Keeps r0 (State.markLine s p seq y fl) := by
  unfold State.markLine
  extract_lets a0
  have k0 : Keeps r0 a0
  on_goal 1 => unfold a0
  rotate_left
  clear_value a0
  all_goals repeat' first
    | with_reducible assumption
    | intro _
    | with_reducible apply State.modCam_keeps
    | with_reducible apply State.modFrame_keeps
    | with_reducible apply Keeps.ite

theorem State.modFsync_keeps {r0 : State} {s : State} {n : Nat} {f : FsyncSt → FsyncSt} (hk : Keeps r0 s) : Keeps r0
    (State.modFsync s n f) := by
  unfold State.modFsync
  try dsimp only
  repeat' first
    | with_reducible assumption
    | intro _
    | with_reducible apply Keeps.ite
    | with_reducible apply Keeps.foldl
    | with_reducible apply Keeps.foldlFst
    | fail_if_no_progress with_reducible apply Keeps.upd

theorem State.openFrame_keeps {r0 : State} {s : State} {p : StreamRec} {c : StreamSt} {late : Bool} (hk : Keeps r0 s)
    : Keeps r0 (State.openFrame s p c late) := by
  unfold State.openFrame
  extract_lets a0 a1 a2 a3 a4 a5 a6 a7
  try clear_value a0
  try clear_value a1
  try clear_value a2
  try clear_value a3
  have k4 : Keeps r0 a4
  on_goal 1 => unfold a4
  rotate_left
  clear_value a4
  try clear_value a5
  have k6 : Keeps r0 a6
  on_goal 1 => unfold a6
  rotate_left
  clear_value a6
  have k7 : Keeps r0 a7
  on_goal 1 => unfold a7
  rotate_left
  clear_value a7
  all_goals repeat' first
    | with_reducible assumption
    | intro _
    | with_reducible apply State.assignSeq_keeps
    | with_reducible apply State.modCam_keeps
    | with_reducible apply State.startFrame_keeps
    | with_reducible apply State.preemptStaged_keeps
    | with_reducible apply State.emberStart_keeps
    | with_reducible apply Keeps.ite
    | with_reducible apply Keeps.foldl
    | with_reducible apply Keeps.foldlFst
    | fail_if_no_progress with_reducible apply Keeps.upd
    | split

theorem State.openUncounted_keeps {r0 : State} {s : State} {p : StreamRec} (hk : Keeps r0 s) : Keeps r0
    (State.openUncounted s p) := by
  unfold State.openUncounted
  try dsimp only
  repeat' first
    | with_reducible assumption
    | intro _
    | with_reducible apply State.modCam_keeps

theorem State.pulseAt_keeps {r0 : State} {s : State} {p : StreamRec} {t : Nat} (hk : Keeps r0 s) : Keeps r0
    (State.pulseAt s p t) := by
  unfold State.pulseAt
  try dsimp only
  repeat' first
    | with_reducible assumption
    | intro _
    | with_reducible apply State.modCam_keeps

theorem State.showLanes_keeps {r0 : State} {s : State} {port : Nat} (hk : Keeps r0 s) : Keeps r0 (State.showLanes s port) := by
  unfold State.showLanes
  try dsimp only
  repeat' first
    | with_reducible assumption
    | intro _
    | with_reducible apply State.setFld_keeps

theorem State.takeHeader_keeps {r0 : State} {s : State} {port : Nat} {hdr : CsiHeader} (hk : Keeps r0 s) : Keeps r0
    (State.takeHeader s port hdr).1 := by
  unfold State.takeHeader
  try dsimp only
  repeat' first
    | with_reducible assumption
    | intro _
    | with_reducible apply State.headerCorrected_keeps
    | with_reducible apply State.headerLost_keeps
    | with_reducible apply Keeps.ite
    | with_reducible apply Keeps.foldl
    | with_reducible apply Keeps.foldlFst
    | fail_if_no_progress with_reducible apply Keeps.upd
    | split

theorem State.takeLine_keeps {r0 : State} {s : State} {p : StreamRec} {c : StreamSt} {f : CamFrame} {seq : Word}
    {crcOk : Bool} {data : List Byte} {fault : LineFault} (hk : Keeps r0 s) : Keeps r0
    (State.takeLine s p c f seq crcOk data fault) := by
  unfold State.takeLine
  extract_lets a0 a1 a2 a3 a4 a5 a6 a7 a8 a9 a10 a11 a12
  try clear_value a0
  have k1 : Keeps r0 a1
  on_goal 1 => unfold a1
  rotate_left
  clear_value a1
  try clear_value a2
  try clear_value a3
  try clear_value a4
  try clear_value a5
  have k6 : Keeps r0 a6
  on_goal 1 => unfold a6
  rotate_left
  clear_value a6
  have k7 : Keeps r0 a7
  on_goal 1 => unfold a7
  rotate_left
  clear_value a7
  have k8 : Keeps r0 a8
  on_goal 1 => unfold a8
  rotate_left
  clear_value a8
  have k9 : Keeps r0 a9
  on_goal 1 => unfold a9
  rotate_left
  clear_value a9
  have k10 : Keeps r0 a10
  on_goal 1 => unfold a10
  rotate_left
  clear_value a10
  have k11 : Keeps r0 a11
  on_goal 1 => unfold a11
  rotate_left
  clear_value a11
  have k12 : Keeps r0 a12
  on_goal 1 => unfold a12
  rotate_left
  clear_value a12
  all_goals repeat' first
    | with_reducible assumption
    | intro _
    | with_reducible apply State.modCam_keeps
    | with_reducible apply State.raiseFrame_keeps
    | with_reducible apply State.stageFrame_keeps
    | with_reducible apply State.beginLine_keeps
    | with_reducible apply State.putLine_keeps
    | with_reducible apply State.addCnt_keeps
    | with_reducible apply State.event_keeps
    | with_reducible apply State.modFrame_keeps
    | with_reducible apply State.markLine_keeps
    | with_reducible apply State.ispParity_keeps
    | with_reducible apply Keeps.ite
    | with_reducible apply Keeps.foldl
    | with_reducible apply Keeps.foldlFst
    | fail_if_no_progress with_reducible apply Keeps.upd
    | split

theorem State.touchFrame_keeps {r0 : State} {s : State} {stream : Nat} (hk : Keeps r0 s) : Keeps r0
    (State.touchFrame s stream) := by
  unfold State.touchFrame
  try dsimp only
  repeat' first
    | with_reducible assumption
    | intro _
    | with_reducible apply State.modCam_keeps

theorem execBatchTransferDone_keeps {r0 : State} {stream : Fin 24} {nackAt : Option Nat} {s : State} (hk : Keeps r0 s)
    : KeepsRes r0 (execBatchTransferDone stream nackAt s) := by
  unfold execBatchTransferDone
  try dsimp only
  repeat' first
    | with_reducible assumption
    | intro _
    | with_reducible apply State.modCam_keeps
    | with_reducible apply State.showBatch_keeps
    | with_reducible apply State.log_keeps
    | with_reducible apply State.setReg_keeps
    | with_reducible apply Keeps.ite
    | with_reducible apply Keeps.foldl
    | with_reducible apply Keeps.foldlFst
    | fail_if_no_progress with_reducible apply Keeps.upd
    | with_reducible apply KeepsRes.next
    | with_reducible apply KeepsRes.ite
    | split

theorem execBatchTransferStart_keeps {r0 : State} {stream : Fin 24} {s : State} (hk : Keeps r0 s) : KeepsRes r0
    (execBatchTransferStart stream s) := by
  unfold execBatchTransferStart
  try dsimp only
  repeat' first
    | with_reducible assumption
    | intro _
    | with_reducible apply State.reach_keeps
    | with_reducible apply State.setReg_keeps
    | with_reducible apply State.showBatch_keeps
    | with_reducible apply State.modCam_keeps
    | with_reducible apply Keeps.ite
    | with_reducible apply Keeps.foldl
    | with_reducible apply Keeps.foldlFst
    | fail_if_no_progress with_reducible apply Keeps.upd
    | with_reducible apply KeepsRes.next
    | with_reducible apply KeepsRes.ite
    | split

theorem execCsiDeskewComplete_keeps {r0 : State} {port : Fin 4} {lanes : BitVec 4} {s : State} (hk : Keeps r0 s) : KeepsRes r0
    (execCsiDeskewComplete port lanes s) := by
  unfold execCsiDeskewComplete
  try dsimp only
  repeat' first
    | with_reducible assumption
    | intro _
    | with_reducible apply State.setFld_keeps
    | with_reducible apply State.showLanes_keeps
    | with_reducible apply State.modPort_keeps
    | with_reducible apply Keeps.ite
    | with_reducible apply Keeps.foldl
    | with_reducible apply Keeps.foldlFst
    | fail_if_no_progress with_reducible apply Keeps.upd
    | with_reducible apply KeepsRes.next
    | with_reducible apply KeepsRes.ite

theorem execCsiEmbeddedPacket_keeps {r0 : State} {port : Fin 4} {vc : Fin 16} {hdr : CsiHeader} {crcOk : Bool}
    {data : List Byte} {s : State} (hk : Keeps r0 s) : KeepsRes r0 (execCsiEmbeddedPacket port vc hdr crcOk data s) := by
  unfold execCsiEmbeddedPacket
  try dsimp only
  repeat' first
    | with_reducible assumption
    | intro _
    | with_reducible apply State.takeHeader_keeps
    | with_reducible apply State.rxDiscard_keeps
    | with_reducible apply State.abortInjection_keeps
    | with_reducible apply State.crcFailed_keeps
    | with_reducible apply State.touchFrame_keeps
    | with_reducible apply State.addCnt_keeps
    | with_reducible apply State.modCam_keeps
    | with_reducible apply State.draw_keeps
    | with_reducible apply State.raiseFrame_keeps
    | with_reducible apply Keeps.ite
    | with_reducible apply Keeps.foldl
    | with_reducible apply Keeps.foldlFst
    | fail_if_no_progress with_reducible apply Keeps.upd
    | with_reducible apply KeepsRes.next
    | with_reducible apply KeepsRes.ite
    | split

theorem execCsiFrameEnd_keeps {r0 : State} {port : Fin 4} {vc : Fin 16} {s : State} (hk : Keeps r0 s) : KeepsRes r0
    (execCsiFrameEnd port vc s) := by
  unfold execCsiFrameEnd
  try dsimp only
  repeat' first
    | with_reducible assumption
    | intro _
    | with_reducible apply State.rxDiscard_keeps
    | with_reducible apply State.closeFrame_keeps
    | with_reducible apply Keeps.ite
    | with_reducible apply Keeps.foldl
    | with_reducible apply Keeps.foldlFst
    | fail_if_no_progress with_reducible apply Keeps.upd
    | with_reducible apply KeepsRes.next
    | with_reducible apply KeepsRes.ite
    | split

theorem execCsiFrameStart_keeps {r0 : State} {port : Fin 4} {vc : Fin 16} {s : State} (hk : Keeps r0 s) : KeepsRes r0
    (execCsiFrameStart port vc s) := by
  unfold execCsiFrameStart
  try dsimp only
  repeat' first
    | with_reducible assumption
    | intro _
    | with_reducible apply State.rxDiscard_keeps
    | with_reducible apply State.settleOwed_keeps
    | with_reducible apply State.closeFrame_keeps
    | with_reducible apply State.abortInjection_keeps
    | with_reducible apply State.openFrame_keeps
    | with_reducible apply State.modCam_keeps
    | with_reducible apply State.openUncounted_keeps
    | with_reducible apply Keeps.ite
    | with_reducible apply Keeps.foldl
    | with_reducible apply Keeps.foldlFst
    | fail_if_no_progress with_reducible apply Keeps.upd
    | with_reducible apply KeepsRes.next
    | with_reducible apply KeepsRes.ite
    | split

theorem execCsiLongPacket_keeps {r0 : State} {port : Fin 4} {vc : Fin 16} {dt : Byte} {hdr : CsiHeader} {crcOk : Bool}
    {data : List Byte} {fault : LineFault} {s : State} (hk : Keeps r0 s) : KeepsRes r0
    (execCsiLongPacket port vc dt hdr crcOk data fault s) := by
  unfold execCsiLongPacket
  try dsimp only
  repeat' first
    | with_reducible assumption
    | intro _
    | with_reducible apply State.takeHeader_keeps
    | with_reducible apply State.rxDiscard_keeps
    | with_reducible apply State.abortInjection_keeps
    | with_reducible apply State.crcFailed_keeps
    | with_reducible apply State.touchFrame_keeps
    | with_reducible apply State.raiseFrame_keeps
    | with_reducible apply State.takeLine_keeps
    | with_reducible apply Keeps.ite
    | with_reducible apply Keeps.foldl
    | with_reducible apply Keeps.foldlFst
    | fail_if_no_progress with_reducible apply Keeps.upd
    | with_reducible apply KeepsRes.next
    | with_reducible apply KeepsRes.ite
    | split

theorem execFrameStallTimeout_keeps {r0 : State} {stream : Fin 24} {s : State} (hk : Keeps r0 s) : KeepsRes r0
    (execFrameStallTimeout stream s) := by
  unfold execFrameStallTimeout
  try dsimp only
  repeat' first
    | with_reducible assumption
    | intro _
    | with_reducible apply State.closeFrame_keeps
    | with_reducible apply State.reach_keeps
    | with_reducible apply Keeps.ite
    | with_reducible apply Keeps.foldl
    | with_reducible apply Keeps.foldlFst
    | fail_if_no_progress with_reducible apply Keeps.upd
    | with_reducible apply KeepsRes.next
    | with_reducible apply KeepsRes.ite
    | split

theorem execFsyncEdge_keeps {r0 : State} {out : Fin 4} {s : State} (hk : Keeps r0 s) : KeepsRes r0 (execFsyncEdge out s) := by
  unfold execFsyncEdge
  try dsimp only
  repeat' first
    | with_reducible assumption
    | intro _
    | with_reducible apply State.reach_keeps
    | with_reducible apply State.modFsync_keeps
    | with_reducible apply State.log_keeps
    | with_reducible apply State.setReg_keeps
    | with_reducible apply State.settleOwed_keeps
    | with_reducible apply State.pulseAt_keeps
    | with_reducible apply Keeps.ite
    | with_reducible apply Keeps.foldl
    | with_reducible apply Keeps.foldlFst
    | fail_if_no_progress with_reducible apply Keeps.upd
    | with_reducible apply KeepsRes.next
    | with_reducible apply KeepsRes.ite
    | split

theorem execI3cBatchCopyDone_keeps {r0 : State} {bus : Fin 4} {s : State} (hk : Keeps r0 s) : KeepsRes r0
    (execI3cBatchCopyDone bus s) := by
  unfold execI3cBatchCopyDone
  try dsimp only
  repeat' first
    | with_reducible assumption
    | intro _
    | with_reducible apply State.copyDone_keeps
    | with_reducible apply Keeps.ite
    | with_reducible apply Keeps.foldl
    | with_reducible apply Keeps.foldlFst
    | fail_if_no_progress with_reducible apply Keeps.upd
    | with_reducible apply KeepsRes.next

theorem execIbiReceived_keeps {r0 : State} {bus : Fin 4} {s : State} (hk : Keeps r0 s) : KeepsRes r0
    (execIbiReceived bus s) := by
  unfold execIbiReceived
  extract_lets a0 a1
  try clear_value a0
  have k1 : Keeps r0 a1
  on_goal 1 => unfold a1
  rotate_left
  clear_value a1
  all_goals repeat' first
    | with_reducible assumption
    | intro _
    | with_reducible apply State.event_keeps
    | with_reducible apply Keeps.ite
    | with_reducible apply Keeps.foldl
    | with_reducible apply Keeps.foldlFst
    | fail_if_no_progress with_reducible apply Keeps.upd
    | with_reducible apply KeepsRes.next

theorem execLaneFailing_keeps {r0 : State} {port : Fin 4} {mask : BitVec 4} {s : State} (hk : Keeps r0 s) : KeepsRes r0
    (execLaneFailing port mask s) := by
  unfold execLaneFailing
  extract_lets a0 a1 a2 a3 a4 a5 a6 a7 a8
  try clear_value a0
  try clear_value a1
  try clear_value a2
  have k3 : Keeps r0 a3
  on_goal 1 => unfold a3
  rotate_left
  clear_value a3
  try clear_value a4
  have k5 : Keeps r0 a5
  on_goal 1 => unfold a5
  rotate_left
  clear_value a5
  try clear_value a6
  try clear_value a7
  try clear_value a8
  all_goals repeat' first
    | with_reducible assumption
    | intro _
    | with_reducible apply State.showLanes_keeps
    | with_reducible apply State.modPort_keeps
    | with_reducible apply State.closeFrame_keeps
    | with_reducible apply State.setFld_keeps
    | with_reducible apply State.fence_keeps
    | with_reducible apply Keeps.ite
    | with_reducible apply Keeps.foldl
    | with_reducible apply Keeps.foldlFst
    | fail_if_no_progress with_reducible apply Keeps.upd
    | with_reducible apply KeepsRes.next
    | with_reducible apply KeepsRes.ite
    | split
    | dsimp only

theorem execLaneReductionDone_keeps {r0 : State} {port : Fin 4} {pass : Bool} {s : State} (hk : Keeps r0 s) : KeepsRes r0
    (execLaneReductionDone port pass s) := by
  unfold execLaneReductionDone
  extract_lets a0 a1 a2 a3 a4 a5 a6 a7
  try clear_value a0
  try clear_value a1
  try clear_value a2
  try clear_value a3
  have k4 : Keeps r0 a4
  on_goal 1 => unfold a4
  rotate_left
  clear_value a4
  have k5 : Keeps r0 a5
  on_goal 1 => unfold a5
  rotate_left
  clear_value a5
  try clear_value a6
  have k7 : Keeps r0 a7
  on_goal 1 => unfold a7
  rotate_left
  clear_value a7
  all_goals repeat' first
    | with_reducible assumption
    | intro _
    | with_reducible apply State.modPort_keeps
    | with_reducible apply State.setFld_keeps
    | with_reducible apply State.showLanes_keeps
    | with_reducible apply State.log_keeps
    | with_reducible apply State.fence_keeps
    | with_reducible apply Keeps.ite
    | with_reducible apply Keeps.foldl
    | with_reducible apply Keeps.foldlFst
    | fail_if_no_progress with_reducible apply Keeps.upd
    | with_reducible apply KeepsRes.next
    | with_reducible apply KeepsRes.ite

theorem execMissedFrame_keeps {r0 : State} {stream : Fin 24} {s : State} (hk : Keeps r0 s) : KeepsRes r0
    (execMissedFrame stream s) := by
  unfold execMissedFrame
  try dsimp only
  repeat' first
    | with_reducible assumption
    | intro _
    | with_reducible apply State.recordMissed_keeps
    | with_reducible apply State.modCam_keeps
    | with_reducible apply State.reach_keeps
    | with_reducible apply Keeps.ite
    | with_reducible apply Keeps.foldl
    | with_reducible apply Keeps.foldlFst
    | fail_if_no_progress with_reducible apply Keeps.upd
    | with_reducible apply KeepsRes.next
    | with_reducible apply KeepsRes.ite
    | split

theorem execTinderInjectionDone_keeps {r0 : State} {pipe : Fin 4} {s : State} (hk : Keeps r0 s) : KeepsRes r0
    (execTinderInjectionDone pipe s) := by
  unfold execTinderInjectionDone
  extract_lets a0 a1 a2
  try clear_value a0
  have k1 : Keeps r0 a1
  on_goal 1 => unfold a1
  rotate_left
  clear_value a1
  have k2 : Keeps r0 a2
  on_goal 1 => unfold a2
  rotate_left
  clear_value a2
  all_goals repeat' first
    | with_reducible assumption
    | intro _
    | with_reducible apply State.modPipe_keeps
    | with_reducible apply State.addCnt_keeps
    | with_reducible apply State.addFld_keeps
    | with_reducible apply State.showPipe_keeps
    | with_reducible apply State.tapStream_keeps
    | with_reducible apply Keeps.ite
    | with_reducible apply Keeps.foldl
    | with_reducible apply Keeps.foldlFst
    | fail_if_no_progress with_reducible apply Keeps.upd
    | with_reducible apply KeepsRes.next
    | with_reducible apply KeepsRes.ite
    | split

/-! ### Machine/Ember.lean -/

theorem State.setHealth_keeps {r0 : State} {s : State} {new : Nat} {why : Nat} (hk : Keeps r0 s) : Keeps r0
    (State.setHealth s new why) := by
  unfold State.setHealth
  extract_lets a0 a1 a2
  try clear_value a0
  have k1 : Keeps r0 a1
  on_goal 1 => unfold a1
  rotate_left
  clear_value a1
  have k2 : Keeps r0 a2
  on_goal 1 => unfold a2
  rotate_left
  clear_value a2
  all_goals repeat' first
    | with_reducible assumption
    | intro _
    | with_reducible apply State.log_keeps
    | with_reducible apply State.event_keeps
    | with_reducible apply State.setFld_keeps
    | with_reducible apply State.modEmber_keeps
    | with_reducible apply Keeps.ite

theorem State.tryRecover_keeps {r0 : State} {s : State} (hk : Keeps r0 s) : Keeps r0 (State.tryRecover s) := by
  unfold State.tryRecover
  try dsimp only
  repeat' first
    | with_reducible assumption
    | intro _
    | with_reducible apply State.setHealth_keeps
    | with_reducible apply Keeps.ite

theorem State.judgeEmber_keeps {r0 : State} {s : State} {bad : Bool} (hk : Keeps r0 s) : Keeps r0 (State.judgeEmber s bad) := by
  unfold State.judgeEmber
  extract_lets a0 a1 a2 a3 a4 a5
  try clear_value a0
  have k1 : Keeps r0 a1
  on_goal 1 => unfold a1
  rotate_left
  clear_value a1
  have k2 : Keeps r0 a2
  on_goal 1 => unfold a2
  rotate_left
  clear_value a2
  have k3 : Keeps r0 a3
  on_goal 1 => unfold a3
  rotate_left
  clear_value a3
  try clear_value a4
  have k5 : Keeps r0 a5
  on_goal 1 => unfold a5
  rotate_left
  clear_value a5
  all_goals repeat' first
    | with_reducible assumption
    | intro _
    | with_reducible apply State.addFld_keeps
    | with_reducible apply State.setFld_keeps
    | with_reducible apply State.modEmber_keeps
    | with_reducible apply State.setHealth_keeps
    | with_reducible apply State.severe_keeps
    | with_reducible apply State.tryRecover_keeps
    | with_reducible apply Keeps.ite
    | with_reducible apply Keeps.foldl
    | with_reducible apply Keeps.foldlFst
    | fail_if_no_progress with_reducible apply Keeps.upd

theorem State.nextMsg?_keeps {r0 : State} {s : State} (hk : Keeps r0 s) : ∀ {p t}, State.nextMsg? s = some
    (p, t) → Keeps r0 t := by
  intro p t e
  unfold State.nextMsg? at e
  extract_lets a0 a1 at e
  have h0 : ∀ q, a0 = some q → Keeps r0 q.2 := by
    intro q hq
    simp only [a0, Option.map_eq_some_iff] at hq
    obtain ⟨_, -, rfl⟩ := hq
    dsimp only
    exact State.modEmber_keeps hk
  have h1 : ∀ q, a1 = some q → Keeps r0 q.2 := by
    intro q hq
    simp only [a1, Option.map_eq_some_iff] at hq
    obtain ⟨_, -, rfl⟩ := hq
    dsimp only
    exact State.modEmber_keeps hk
  clear_value a0 a1
  split at e
  · split at e
    · cases e; exact h1 _ rfl
    · cases e; exact h0 _ rfl
  · cases e; exact h0 _ rfl
  · exact h1 _ e

theorem execEmberMessageReady_keeps {r0 : State} {s : State} (hk : Keeps r0 s) : KeepsRes r0 (execEmberMessageReady s) := by
  unfold execEmberMessageReady
  try dsimp only
  repeat' first
    | with_reducible assumption
    | intro _
    | with_reducible apply State.judgeEmber_keeps
    | with_reducible apply State.handEmber_keeps
    | with_reducible apply State.modSel_keeps
    | with_reducible apply Keeps.ite
    | with_reducible apply Keeps.foldl
    | with_reducible apply Keeps.foldlFst
    | fail_if_no_progress with_reducible apply Keeps.upd
    | with_reducible apply KeepsRes.next
    | with_reducible apply KeepsRes.ite
    | split
    | dsimp only
    | (with_reducible apply State.nextMsg?_keeps; rotate_left; with_reducible assumption)

theorem execEmberPairWindowExpiry_keeps {r0 : State} {s : State} (hk : Keeps r0 s) : KeepsRes r0
    (execEmberPairWindowExpiry s) := by
  unfold execEmberPairWindowExpiry
  try dsimp only
  repeat' first
    | with_reducible assumption
    | intro _
    | with_reducible apply State.modEmber_keeps
    | with_reducible apply State.reach_keeps
    | with_reducible apply Keeps.ite
    | with_reducible apply Keeps.foldl
    | with_reducible apply Keeps.foldlFst
    | fail_if_no_progress with_reducible apply Keeps.upd
    | with_reducible apply KeepsRes.next
    | with_reducible apply KeepsRes.ite
    | split

theorem execEmberSelfTest_keeps {r0 : State} {pass : Bool} {s : State} (hk : Keeps r0 s) : KeepsRes r0
    (execEmberSelfTest pass s) := by
  unfold execEmberSelfTest
  extract_lets a0
  have k0 : Keeps r0 a0
  on_goal 1 => unfold a0
  rotate_left
  clear_value a0
  all_goals repeat' first
    | with_reducible assumption
    | intro _
    | with_reducible apply State.tryRecover_keeps
    | with_reducible apply State.modEmber_keeps
    | with_reducible apply State.setHealth_keeps
    | with_reducible apply Keeps.ite
    | with_reducible apply Keeps.foldl
    | with_reducible apply Keeps.foldlFst
    | fail_if_no_progress with_reducible apply Keeps.upd
    | with_reducible apply KeepsRes.next
    | with_reducible apply KeepsRes.ite

/-! ### Machine/Isp.lean -/

theorem State.bandDone_keeps {r0 : State} {s : State} {pipe : Nat} {f : PipeFrame} {idx : Nat} {k : Nat} {b : Nat}
    {flagged : Bool} (hk : Keeps r0 s) : Keeps r0 (State.bandDone s pipe f idx k b flagged) := by
  unfold State.bandDone
  extract_lets a0 a1 a2
  have k0 : Keeps r0 a0
  on_goal 1 => unfold a0
  rotate_left
  clear_value a0
  have k1 : Keeps r0 a1
  on_goal 1 => unfold a1
  rotate_left
  clear_value a1
  have k2 : Keeps r0 a2
  on_goal 1 => unfold a2
  rotate_left
  clear_value a2
  all_goals repeat' first
    | with_reducible assumption
    | intro _
    | with_reducible apply State.releaseBand_keeps
    | with_reducible apply State.modFrame_keeps
    | with_reducible apply State.beginNext_keeps
    | with_reducible apply State.endFrame_keeps
    | with_reducible apply Keeps.ite

theorem execIspUpdGo_keeps {r0 : State} {pipe : Fin 4} {bank : Fin 5} {domain : BitVec 4} {value : Word} {s : State} (hk
    : Keeps r0 s) : KeepsRes r0 (execIspUpdGo pipe bank domain value s) := by
  unfold execIspUpdGo
  extract_lets a0 a1 a2 a3 a4 a5 a6 a7 a8 a9 a10 a11 a12 a13 a14 a15 a16 a17
  try clear_value a0
  try clear_value a1
  try clear_value a2
  try clear_value a3
  try clear_value a4
  try clear_value a5
  try clear_value a6
  try clear_value a7
  try clear_value a8
  try clear_value a9
  try clear_value a10
  try clear_value a11
  try clear_value a12
  try clear_value a13
  try clear_value a14
  try clear_value a15
  have k16 : Keeps r0 a16
  on_goal 1 => unfold a16
  rotate_left
  clear_value a16
  try clear_value a17
  all_goals repeat' first
    | with_reducible assumption
    | intro _
    | with_reducible apply State.setFld_keeps
    | with_reducible apply State.event_keeps
    | with_reducible apply State.modPipe_keeps
    | with_reducible apply State.setFlag_keeps
    | with_reducible apply Keeps.ite
    | with_reducible apply Keeps.foldl
    | with_reducible apply Keeps.foldlFst
    | fail_if_no_progress with_reducible apply Keeps.upd
    | with_reducible apply KeepsRes.next
    | with_reducible apply KeepsRes.ite

theorem execIspBandRelease_keeps {r0 : State} {stream : Fin 24} {out : Fin 3} {band : Half} {s : State} (hk : Keeps r0 s)
    : KeepsRes r0 (execIspBandRelease stream out band s) := by
  unfold execIspBandRelease
  try dsimp only
  repeat' first
    | with_reducible assumption
    | intro _
    | with_reducible apply State.beginBand_keeps
    | with_reducible apply State.endFrame_keeps
    | with_reducible apply State.store_keeps
    | with_reducible apply State.bandDone_keeps
    | with_reducible apply Keeps.ite
    | with_reducible apply Keeps.foldl
    | with_reducible apply Keeps.foldlFst
    | fail_if_no_progress with_reducible apply Keeps.upd
    | with_reducible apply KeepsRes.next
    | with_reducible apply KeepsRes.ite
    | split

theorem execIspStagedFrameStart_keeps {r0 : State} {pipe : Fin 4} {badLines : List Nat} {parityAt : Option Nat} {s : State}
    (hk : Keeps r0 s) : KeepsRes r0 (execIspStagedFrameStart pipe badLines parityAt s) := by
  unfold execIspStagedFrameStart
  try dsimp only
  repeat' first
    | with_reducible assumption
    | intro _
    | with_reducible apply State.eccUncorrected_keeps
    | with_reducible apply State.modPipe_keeps
    | with_reducible apply State.startFrame_keeps
    | with_reducible apply State.modFrame_keeps
    | with_reducible apply State.ispParity_keeps
    | with_reducible apply State.showPipe_keeps
    | with_reducible apply State.endFrame_keeps
    | with_reducible apply State.beginNext_keeps
    | with_reducible apply Keeps.ite
    | with_reducible apply Keeps.foldl
    | with_reducible apply Keeps.foldlFst
    | fail_if_no_progress with_reducible apply Keeps.upd
    | with_reducible apply KeepsRes.next
    | with_reducible apply KeepsRes.ite
    | split

theorem execIspStatsRelease_keeps {r0 : State} {stream : Fin 24} {s : State} (hk : Keeps r0 s) : KeepsRes r0
    (execIspStatsRelease stream s) := by
  unfold execIspStatsRelease
  try dsimp only
  repeat' first
    | with_reducible assumption
    | intro _
    | with_reducible apply State.beginBand_keeps
    | with_reducible apply State.endFrame_keeps
    | with_reducible apply State.store_keeps
    | with_reducible apply State.bandDone_keeps
    | with_reducible apply Keeps.ite
    | with_reducible apply Keeps.foldl
    | with_reducible apply Keeps.foldlFst
    | fail_if_no_progress with_reducible apply Keeps.upd
    | with_reducible apply KeepsRes.next
    | with_reducible apply KeepsRes.ite
    | split

theorem execIspUpdCopyDone_keeps {r0 : State} {pipe : Fin 4} {s : State} (hk : Keeps r0 s) : KeepsRes r0
    (execIspUpdCopyDone pipe s) := by
  unfold execIspUpdCopyDone
  try dsimp only
  repeat' first
    | with_reducible assumption
    | intro _
    | with_reducible apply State.setFlag_keeps
    | with_reducible apply State.modPipe_keeps
    | with_reducible apply State.modBank_keeps
    | with_reducible apply State.addFld_keeps
    | with_reducible apply Keeps.ite
    | with_reducible apply Keeps.foldl
    | with_reducible apply Keeps.foldlFst
    | fail_if_no_progress with_reducible apply Keeps.upd
    | with_reducible apply KeepsRes.next
    | with_reducible apply KeepsRes.ite
    | split

/-! ### Machine/Links.lean -/

theorem State.answered_keeps {r0 : State} {s : State} {id : Nat} {code : Nat} (hk : Keeps r0 s) : Keeps r0
    (State.answered s id code) := by
  unfold State.answered
  try dsimp only
  repeat' first
    | with_reducible assumption
    | intro _
    | with_reducible apply State.tryRelease_keeps
    | with_reducible apply State.refuseRelease_keeps
    | with_reducible apply State.releaseBand_keeps
    | with_reducible apply State.refuseBand_keeps
    | with_reducible apply Keeps.ite
    | with_reducible apply Keeps.foldl
    | with_reducible apply Keeps.foldlFst
    | fail_if_no_progress with_reducible apply Keeps.upd
    | split

theorem State.commitShadows_keeps {r0 : State} {s : State} {lo : Nat} {hi : Nat} (hk : Keeps r0 s) : Keeps r0
    (State.commitShadows s lo hi) := by
  unfold State.commitShadows
  extract_lets a0 a1 a2
  try clear_value a0
  try clear_value a1
  have k2 : Keeps r0 a2
  on_goal 1 => unfold a2
  rotate_left
  clear_value a2
  all_goals repeat' first
    | with_reducible assumption
    | intro _
    | with_reducible apply State.setReg_keeps
    | with_reducible apply Keeps.ite
    | with_reducible apply Keeps.foldl
    | with_reducible apply Keeps.foldlFst
    | fail_if_no_progress with_reducible apply Keeps.upd
    | with_reducible apply Keeps.dropShadows

theorem State.drainAllAbsent_keeps {r0 : State} {s : State} (hk : Keeps r0 s) : Keeps r0 (State.drainAllAbsent s) := by
  unfold State.drainAllAbsent
  try dsimp only
  repeat' first
    | with_reducible assumption
    | intro _
    | with_reducible apply State.drainAbsent_keeps
    | with_reducible apply Keeps.ite
    | with_reducible apply Keeps.foldl

theorem State.drainFor_keeps {r0 : State} {s : State} {e : Nat} {flag : Nat} (hk : Keeps r0 s) : Keeps r0
    (State.drainFor s e flag) := by
  unfold State.drainFor
  try dsimp only
  repeat' first
    | with_reducible assumption
    | intro _
    | with_reducible apply State.setRing_keeps
    | with_reducible apply State.modFlag_keeps
    | with_reducible apply Keeps.ite
    | with_reducible apply Keeps.foldl
    | with_reducible apply Keeps.foldlFst
    | fail_if_no_progress with_reducible apply Keeps.upd
    | split

theorem State.modGml_keeps {r0 : State} {s : State} {f : Gml → Gml} (hk : Keeps r0 s) : Keeps r0 (State.modGml s f) := by
  unfold State.modGml
  try dsimp only
  repeat' first
    | with_reducible assumption
    | intro _
    | with_reducible apply Keeps.ite
    | with_reducible apply Keeps.foldl
    | with_reducible apply Keeps.foldlFst
    | fail_if_no_progress with_reducible apply Keeps.upd

theorem State.hear_keeps {r0 : State} {s : State} {e : Nat} (hk : Keeps r0 s) : Keeps r0 (State.hear s e) := by
  unfold State.hear
  extract_lets a0
  have k0 : Keeps r0 a0
  on_goal 1 => unfold a0
  rotate_left
  clear_value a0
  all_goals repeat' first
    | with_reducible assumption
    | intro _
    | with_reducible apply State.modGml_keeps
    | with_reducible apply State.event_keeps
    | with_reducible apply State.setFlag_keeps
    | with_reducible apply Keeps.ite

theorem State.setLink_keeps {r0 : State} {s : State} {k : Nat} {st : Nat} (hk : Keeps r0 s) : Keeps r0
    (State.setLink s k st) := by
  unfold State.setLink
  try dsimp only
  repeat' first
    | with_reducible assumption
    | intro _
    | with_reducible apply State.setFld_keeps

theorem State.linkDown_keeps {r0 : State} {s : State} {k : Nat} (hk : Keeps r0 s) : Keeps r0 (State.linkDown s k) := by
  unfold State.linkDown
  extract_lets a0 a1
  have k0 : Keeps r0 a0
  on_goal 1 => unfold a0
  rotate_left
  clear_value a0
  have k1 : Keeps r0 a1
  on_goal 1 => unfold a1
  rotate_left
  clear_value a1
  all_goals repeat' first
    | with_reducible assumption
    | intro _
    | with_reducible apply State.event_keeps
    | with_reducible apply State.setLink_keeps
    | with_reducible apply State.failLink_keeps
    | with_reducible apply State.refreshActive_keeps
    | with_reducible apply State.recur_keeps

theorem State.partnerGoes_keeps {r0 : State} {s : State} {e : Nat} {why : Nat} (hk : Keeps r0 s) : Keeps r0
    (State.partnerGoes s e why) := by
  unfold State.partnerGoes
  extract_lets a0 a1 a2 a3 a4 a5 a6
  try clear_value a0
  have k1 : Keeps r0 a1
  on_goal 1 => unfold a1
  rotate_left
  clear_value a1
  have k2 : Keeps r0 a2
  on_goal 1 => unfold a2
  rotate_left
  clear_value a2
  have k3 : Keeps r0 a3
  on_goal 1 => unfold a3
  rotate_left
  clear_value a3
  have k4 : Keeps r0 a4
  on_goal 1 => unfold a4
  rotate_left
  clear_value a4
  try clear_value a5
  have k6 : Keeps r0 a6
  on_goal 1 => unfold a6
  rotate_left
  clear_value a6
  all_goals repeat' first
    | with_reducible assumption
    | intro _
    | with_reducible apply State.log_keeps
    | with_reducible apply State.doubt_keeps
    | with_reducible apply State.setFlag_keeps
    | with_reducible apply State.drainAllAbsent_keeps
    | with_reducible apply State.takeover_keeps
    | with_reducible apply State.fenceScene_keeps
    | with_reducible apply Keeps.ite
    | with_reducible apply Keeps.foldl
    | with_reducible apply Keeps.foldlFst
    | fail_if_no_progress with_reducible apply Keeps.upd
    | split

theorem State.losePartner_keeps {r0 : State} {s : State} {e : Nat} (hk : Keeps r0 s) : Keeps r0 (State.losePartner s e) := by
  unfold State.losePartner
  extract_lets a0
  have k0 : Keeps r0 a0
  on_goal 1 => unfold a0
  rotate_left
  clear_value a0
  all_goals repeat' first
    | with_reducible assumption
    | intro _
    | with_reducible apply State.setFlag_keeps
    | with_reducible apply State.partnerGoes_keeps
    | with_reducible apply State.event_keeps
    | with_reducible apply Keeps.ite

theorem State.respond_keeps {r0 : State} {s : State} {e : Fin 4} {tag : Nat} {addr : Nat} {err : Bool} {data : List Byte} (hk
    : Keeps r0 s) : Keeps r0 (State.respond s e tag addr err data) := by
  unfold State.respond
  try dsimp only
  repeat' first
    | with_reducible assumption
    | intro _
    | with_reducible apply State.sendTo_keeps

theorem State.takeToken_keeps {r0 : State} {s : State} {t : Token} (hk : Keeps r0 s) : Keeps r0 (State.takeToken s t) := by
  unfold State.takeToken
  extract_lets a0 a1 a2 a3
  try clear_value a0
  try clear_value a1
  have k2 : Keeps r0 a2
  on_goal 1 => unfold a2
  rotate_left
  clear_value a2
  try clear_value a3
  all_goals repeat' first
    | with_reducible assumption
    | intro _
    | with_reducible apply State.modGml_keeps
    | with_reducible apply Keeps.ite
    | with_reducible apply Keeps.foldl
    | with_reducible apply Keeps.foldlFst
    | fail_if_no_progress with_reducible apply Keeps.upd

theorem State.takeResponse_keeps {r0 : State} {s : State} {tag : Nat} {err : Bool} {data : List Byte} (hk : Keeps r0 s)
    : Keeps r0 (State.takeResponse s tag err data) := by
  unfold State.takeResponse
  try dsimp only
  repeat' first
    | with_reducible assumption
    | intro _
    | with_reducible apply State.modGml_keeps
    | with_reducible apply Keeps.ite
    | with_reducible apply Keeps.foldl
    | with_reducible apply Keeps.foldlFst
    | fail_if_no_progress with_reducible apply Keeps.upd
    | split

theorem State.timePacket_keeps {r0 : State} {s : State} {k : Nat} {src : Nat} {locked : Bool} {root : Nat} {hops : Nat}
    {path : Nat} (hk : Keeps r0 s) : Keeps r0 (State.timePacket s k src locked root hops path) := by
  unfold State.timePacket
  extract_lets a0 a1 a2
  have k0 : Keeps r0 a0
  on_goal 1 => unfold a0
  rotate_left
  clear_value a0
  try clear_value a1
  try clear_value a2
  all_goals repeat' first
    | with_reducible assumption
    | intro _
    | with_reducible apply State.modLink_keeps
    | with_reducible apply State.setFlag_keeps
    | with_reducible apply State.setFld_keeps

theorem State.takePacket_keeps {r0 : State} {s : State} {k : Nat} {p : GmlPkt} (hk : Keeps r0 s) : Keeps r0
    (State.takePacket s k p) := by
  unfold State.takePacket
  extract_lets a0
  have k0 : Keeps r0 a0
  on_goal 1 => unfold a0
  rotate_left
  clear_value a0
  all_goals repeat' first
    | with_reducible assumption
    | intro _
    | with_reducible apply State.hear_keeps
    | with_reducible apply State.sendOn_keeps
    | with_reducible apply State.takeToken_keeps
    | with_reducible apply State.takeResponse_keeps
    | with_reducible apply State.modJournal_keeps
    | with_reducible apply State.modLink_keeps
    | with_reducible apply State.refreshActive_keeps
    | with_reducible apply State.modGml_keeps
    | with_reducible apply State.losePartner_keeps
    | with_reducible apply State.timePacket_keeps
    | with_reducible apply Keeps.ite
    | with_reducible apply Keeps.foldl
    | with_reducible apply Keeps.foldlFst
    | fail_if_no_progress with_reducible apply Keeps.upd
    | split

theorem State.takeRx_keeps {r0 : State} {s : State} {k : Nat} {want : GmlPkt → Bool} (hk : Keeps r0 s) : ∀
    {p t}, State.takeRx s k want = some (p, t) → Keeps r0 t := by
  intro p t e
  simp only [State.takeRx, Option.map_eq_some_iff] at e
  obtain ⟨_, -, e⟩ := e
  cases e
  exact State.modLink_keeps hk

theorem State.yieldStreams_keeps {r0 : State} {s : State} (hk : Keeps r0 s) : Keeps r0 (State.yieldStreams s) := by
  unfold State.yieldStreams
  try dsimp only
  repeat' first
    | with_reducible assumption
    | intro _
    | with_reducible apply State.markAbsent_keeps
    | with_reducible apply Keeps.ite
    | with_reducible apply Keeps.foldl

theorem execDrain_keeps {r0 : State} {link : Fin 3} {s : State} (hk : Keeps r0 s) : KeepsRes r0 (execDrain link s) := by
  unfold execDrain
  try dsimp only
  repeat' first
    | with_reducible assumption
    | intro _
    | with_reducible apply State.drainFor_keeps
    | with_reducible apply Keeps.ite
    | with_reducible apply Keeps.foldl
    | with_reducible apply Keeps.foldlFst
    | fail_if_no_progress with_reducible apply Keeps.upd
    | with_reducible apply KeepsRes.next
    | with_reducible apply KeepsRes.ite
    | split
    | dsimp only
    | (with_reducible apply State.takeRx_keeps; rotate_left; with_reducible assumption)

theorem execGmlFlitRx_keeps {r0 : State} {link : Fin 3} {seq : BitVec 12} {ack : BitVec 12} {crcOk : Bool}
    {packets : List GmlPkt} {s : State} (hk : Keeps r0 s) : KeepsRes r0 (execGmlFlitRx link seq ack crcOk packets s) := by
  unfold execGmlFlitRx
  extract_lets a0 a1 a2 a3 a4 a5
  try clear_value a0
  have k1 : Keeps r0 a1
  on_goal 1 => unfold a1
  rotate_left
  clear_value a1
  have k2 : Keeps r0 a2
  on_goal 1 => unfold a2
  rotate_left
  clear_value a2
  have k3 : Keeps r0 a3
  on_goal 1 => unfold a3
  rotate_left
  clear_value a3
  have k4 : Keeps r0 a4
  on_goal 1 => unfold a4
  rotate_left
  clear_value a4
  have k5 : Keeps r0 a5
  on_goal 1 => unfold a5
  rotate_left
  clear_value a5
  all_goals repeat' first
    | with_reducible assumption
    | intro _
    | with_reducible apply State.modLink_keeps
    | with_reducible apply State.addCnt_keeps
    | with_reducible apply State.event_keeps
    | with_reducible apply State.countFlit_keeps
    | with_reducible apply State.takePacket_keeps
    | with_reducible apply Keeps.ite
    | with_reducible apply Keeps.foldl
    | with_reducible apply Keeps.foldlFst
    | fail_if_no_progress with_reducible apply Keeps.upd
    | with_reducible apply KeepsRes.next
    | with_reducible apply KeepsRes.ite

theorem execGmlHeartbeatSend_keeps {r0 : State} {s : State} (hk : Keeps r0 s) : KeepsRes r0 (execGmlHeartbeatSend s) := by
  unfold execGmlHeartbeatSend
  extract_lets a0 a1
  have k0 : Keeps r0 a0
  on_goal 1 => unfold a0
  rotate_left
  clear_value a0
  have k1 : Keeps r0 a1
  on_goal 1 => unfold a1
  rotate_left
  clear_value a1
  all_goals repeat' first
    | with_reducible assumption
    | intro _
    | with_reducible apply State.refreshActive_keeps
    | with_reducible apply State.commitShadows_keeps
    | with_reducible apply State.sendOn_keeps
    | with_reducible apply State.forwardRecords_keeps
    | with_reducible apply Keeps.ite
    | with_reducible apply Keeps.foldl
    | with_reducible apply Keeps.foldlFst
    | fail_if_no_progress with_reducible apply Keeps.upd
    | with_reducible apply KeepsRes.next

theorem execGmlNakRx_keeps {r0 : State} {link : Fin 3} {seq : BitVec 12} {s : State} (hk : Keeps r0 s) : KeepsRes r0
    (execGmlNakRx link seq s) := by
  unfold execGmlNakRx
  extract_lets a0 a1 a2 a3 a4 a5
  try clear_value a0
  try clear_value a1
  have k2 : Keeps r0 a2
  on_goal 1 => unfold a2
  rotate_left
  clear_value a2
  try clear_value a3
  try clear_value a4
  have k5 : Keeps r0 a5
  on_goal 1 => unfold a5
  rotate_left
  clear_value a5
  all_goals repeat' first
    | with_reducible assumption
    | intro _
    | with_reducible apply State.addCnt_keeps
    | with_reducible apply State.modLink_keeps
    | with_reducible apply State.recur_keeps
    | with_reducible apply State.event_keeps
    | with_reducible apply Keeps.ite
    | with_reducible apply Keeps.foldl
    | with_reducible apply Keeps.foldlFst
    | fail_if_no_progress with_reducible apply Keeps.upd
    | with_reducible apply KeepsRes.next
    | with_reducible apply KeepsRes.ite

theorem execGmlRetrainDone_keeps {r0 : State} {link : Fin 3} {lanes : BitVec 8} {s : State} (hk : Keeps r0 s) : KeepsRes r0
    (execGmlRetrainDone link lanes s) := by
  unfold execGmlRetrainDone
  try dsimp only
  repeat' first
    | with_reducible assumption
    | intro _
    | with_reducible apply State.linkDown_keeps
    | with_reducible apply State.event_keeps
    | with_reducible apply State.modLink_keeps
    | with_reducible apply State.setLink_keeps
    | with_reducible apply State.setFld_keeps
    | with_reducible apply Keeps.ite
    | with_reducible apply Keeps.foldl
    | with_reducible apply Keeps.foldlFst
    | fail_if_no_progress with_reducible apply Keeps.upd
    | with_reducible apply KeepsRes.next
    | with_reducible apply KeepsRes.ite
    | split

theorem execGmlRetrainStart_keeps {r0 : State} {link : Fin 3} {s : State} (hk : Keeps r0 s) : KeepsRes r0
    (execGmlRetrainStart link s) := by
  unfold execGmlRetrainStart
  extract_lets a0 a1 a2 a3
  try clear_value a0
  try clear_value a1
  have k2 : Keeps r0 a2
  on_goal 1 => unfold a2
  rotate_left
  clear_value a2
  have k3 : Keeps r0 a3
  on_goal 1 => unfold a3
  rotate_left
  clear_value a3
  all_goals repeat' first
    | with_reducible assumption
    | intro _
    | with_reducible apply State.reach_keeps
    | with_reducible apply State.addCnt_keeps
    | with_reducible apply State.event_keeps
    | with_reducible apply State.setLink_keeps
    | with_reducible apply Keeps.ite
    | with_reducible apply Keeps.foldl
    | with_reducible apply Keeps.foldlFst
    | fail_if_no_progress with_reducible apply Keeps.upd
    | with_reducible apply KeepsRes.next
    | with_reducible apply KeepsRes.ite

theorem execGmlRetryTimer_keeps {r0 : State} {link : Fin 3} {s : State} (hk : Keeps r0 s) : KeepsRes r0
    (execGmlRetryTimer link s) := by
  unfold execGmlRetryTimer
  try dsimp only
  repeat' first
    | with_reducible assumption
    | intro _
    | with_reducible apply State.setLink_keeps
    | with_reducible apply Keeps.ite
    | with_reducible apply Keeps.foldl
    | with_reducible apply Keeps.foldlFst
    | fail_if_no_progress with_reducible apply Keeps.upd
    | with_reducible apply KeepsRes.next
    | with_reducible apply KeepsRes.ite

theorem execGmlTimeExchange_keeps {r0 : State} {link : Fin 3} {offset : Int} {delay : Nat} {s : State} (hk : Keeps r0 s)
    : KeepsRes r0 (execGmlTimeExchange link offset delay s) := by
  unfold execGmlTimeExchange
  extract_lets a0 a1
  try clear_value a0
  have k1 : Keeps r0 a1
  on_goal 1 => unfold a1
  rotate_left
  clear_value a1
  all_goals repeat' first
    | with_reducible assumption
    | intro _
    | with_reducible apply State.setFld_keeps
    | with_reducible apply Keeps.ite
    | with_reducible apply Keeps.foldl
    | with_reducible apply Keeps.foldlFst
    | fail_if_no_progress with_reducible apply Keeps.upd
    | with_reducible apply KeepsRes.next
    | with_reducible apply KeepsRes.ite

theorem execGmlTrainDone_keeps {r0 : State} {link : Fin 3} {ident : Option GmlIdentity} {s : State} (hk : Keeps r0 s)
    : KeepsRes r0 (execGmlTrainDone link ident s) := by
  unfold execGmlTrainDone
  extract_lets a0 a1 a2
  try clear_value a0
  have k1 : Keeps r0 a1
  on_goal 1 => unfold a1
  rotate_left
  clear_value a1
  have k2 : Keeps r0 a2
  on_goal 1 => unfold a2
  rotate_left
  clear_value a2
  all_goals repeat' first
    | with_reducible assumption
    | intro _
    | with_reducible apply State.setLink_keeps
    | with_reducible apply State.event_keeps
    | with_reducible apply State.modLink_keeps
    | with_reducible apply State.refreshActive_keeps
    | with_reducible apply State.hear_keeps
    | with_reducible apply State.yieldStreams_keeps
    | with_reducible apply Keeps.ite
    | with_reducible apply Keeps.foldl
    | with_reducible apply Keeps.foldlFst
    | fail_if_no_progress with_reducible apply Keeps.upd
    | with_reducible apply KeepsRes.next
    | with_reducible apply KeepsRes.ite
    | split

theorem execGoingDownRx_keeps {r0 : State} {peer : Fin 4} {s : State} (hk : Keeps r0 s) : KeepsRes r0
    (execGoingDownRx peer s) := by
  unfold execGoingDownRx
  try dsimp only
  repeat' first
    | with_reducible assumption
    | intro _
    | with_reducible apply State.losePartner_keeps
    | with_reducible apply Keeps.ite
    | with_reducible apply Keeps.foldl
    | with_reducible apply Keeps.foldlFst
    | fail_if_no_progress with_reducible apply Keeps.upd
    | with_reducible apply KeepsRes.next

theorem execGrant_keeps {r0 : State} {link : Fin 3} {s : State} (hk : Keeps r0 s) : KeepsRes r0 (execGrant link s) := by
  unfold execGrant
  try dsimp only
  repeat' first
    | with_reducible assumption
    | intro _
    | with_reducible apply State.answered_keeps
    | with_reducible apply State.modGml_keeps
    | with_reducible apply Keeps.ite
    | with_reducible apply Keeps.foldl
    | with_reducible apply Keeps.foldlFst
    | fail_if_no_progress with_reducible apply Keeps.upd
    | with_reducible apply KeepsRes.next
    | with_reducible apply KeepsRes.ite
    | split
    | dsimp only
    | (with_reducible apply State.takeRx_keeps; rotate_left; with_reducible assumption)

theorem execJournalForwardTimeout_keeps {r0 : State} {s : State} (hk : Keeps r0 s) : KeepsRes r0
    (execJournalForwardTimeout s) := by
  unfold execJournalForwardTimeout
  try dsimp only
  repeat' first
    | with_reducible assumption
    | intro _
    | with_reducible apply State.reach_keeps
    | with_reducible apply State.modJournal_keeps
    | with_reducible apply Keeps.ite
    | with_reducible apply Keeps.foldl
    | with_reducible apply Keeps.foldlFst
    | fail_if_no_progress with_reducible apply Keeps.upd
    | with_reducible apply KeepsRes.next
    | with_reducible apply KeepsRes.ite
    | split

theorem execPeerAliveToggle_keeps {r0 : State} {s : State} (hk : Keeps r0 s) : KeepsRes r0 (execPeerAliveToggle s) := by
  unfold execPeerAliveToggle
  try dsimp only
  repeat' first
    | with_reducible assumption
    | intro _
    | with_reducible apply State.modPins_keeps
    | with_reducible apply Keeps.ite
    | with_reducible apply Keeps.foldl
    | with_reducible apply Keeps.foldlFst
    | fail_if_no_progress with_reducible apply Keeps.upd
    | with_reducible apply KeepsRes.next

theorem execPeerSenseEdge_keeps {r0 : State} {link : Fin 3} {s : State} (hk : Keeps r0 s) : KeepsRes r0
    (execPeerSenseEdge link s) := by
  unfold execPeerSenseEdge
  try dsimp only
  repeat' first
    | with_reducible assumption
    | intro _
    | with_reducible apply State.modLink_keeps
    | with_reducible apply State.setFlag_keeps
    | with_reducible apply Keeps.ite
    | with_reducible apply Keeps.foldl
    | with_reducible apply Keeps.foldlFst
    | fail_if_no_progress with_reducible apply Keeps.upd
    | with_reducible apply KeepsRes.next
    | with_reducible apply KeepsRes.ite

theorem execPeerSenseTimeout_keeps {r0 : State} {link : Fin 3} {s : State} (hk : Keeps r0 s) : KeepsRes r0
    (execPeerSenseTimeout link s) := by
  unfold execPeerSenseTimeout
  try dsimp only
  repeat' first
    | with_reducible assumption
    | intro _
    | with_reducible apply State.setFlag_keeps
    | with_reducible apply State.reach_keeps
    | with_reducible apply State.losePartner_keeps
    | with_reducible apply State.modLink_keeps
    | with_reducible apply Keeps.ite
    | with_reducible apply Keeps.foldl
    | with_reducible apply Keeps.foldlFst
    | fail_if_no_progress with_reducible apply Keeps.upd
    | with_reducible apply KeepsRes.next
    | with_reducible apply KeepsRes.ite
    | split

theorem execPeerUnreachable_keeps {r0 : State} {peer : Fin 4} {s : State} (hk : Keeps r0 s) : KeepsRes r0
    (execPeerUnreachable peer s) := by
  unfold execPeerUnreachable
  try dsimp only
  repeat' first
    | with_reducible assumption
    | intro _
    | with_reducible apply State.reach_keeps
    | with_reducible apply State.event_keeps
    | with_reducible apply State.setFlag_keeps
    | with_reducible apply State.losePartner_keeps
    | with_reducible apply State.partnerGoes_keeps
    | with_reducible apply Keeps.ite
    | with_reducible apply Keeps.foldl
    | with_reducible apply Keeps.foldlFst
    | fail_if_no_progress with_reducible apply Keeps.upd
    | with_reducible apply KeepsRes.next
    | with_reducible apply KeepsRes.ite
    | split

theorem execRemoteRequestRx_keeps {r0 : State} {link : Fin 3} {s : State} (hk : Keeps r0 s) : KeepsRes r0
    (execRemoteRequestRx link s) := by
  unfold execRemoteRequestRx
  try dsimp only
  repeat' first
    | with_reducible assumption
    | intro _
    | with_reducible apply State.event_keeps
    | with_reducible apply State.respond_keeps
    | with_reducible apply State.addCnt_keeps
    | with_reducible apply State.judgeWrites_keeps
    | with_reducible apply State.writes_keeps
    | with_reducible apply State.modLink_keeps
    | with_reducible apply State.judgeReads_keeps
    | with_reducible apply Keeps.ite
    | with_reducible apply Keeps.foldl
    | with_reducible apply Keeps.foldlFst
    | fail_if_no_progress with_reducible apply Keeps.upd
    | with_reducible apply KeepsRes.next
    | with_reducible apply KeepsRes.ite
    | split
    | dsimp only
    | (with_reducible apply Keeps.of_fst; rotate_left; with_reducible assumption)
    | (with_reducible apply State.takeRx_keeps; rotate_left; with_reducible assumption)

theorem execReserve_keeps {r0 : State} {link : Fin 3} {s : State} (hk : Keeps r0 s) : KeepsRes r0 (execReserve link s) := by
  unfold execReserve
  try dsimp only
  repeat' first
    | with_reducible assumption
    | intro _
    | with_reducible apply State.modGml_keeps
    | with_reducible apply State.sendTo_keeps
    | with_reducible apply Keeps.ite
    | with_reducible apply Keeps.foldl
    | with_reducible apply Keeps.foldlFst
    | fail_if_no_progress with_reducible apply Keeps.upd
    | with_reducible apply KeepsRes.next
    | with_reducible apply KeepsRes.ite
    | split
    | dsimp only
    | (with_reducible apply State.takeRx_keeps; rotate_left; with_reducible assumption)

theorem execRouteChange_keeps {r0 : State} {peer : Fin 4} {s : State} (hk : Keeps r0 s) : KeepsRes r0
    (execRouteChange peer s) := by
  unfold execRouteChange
  try dsimp only
  repeat' first
    | with_reducible assumption
    | intro _
    | with_reducible apply State.forwardRecords_keeps
    | with_reducible apply State.reroute_keeps
    | with_reducible apply Keeps.ite
    | with_reducible apply Keeps.foldl
    | with_reducible apply Keeps.foldlFst
    | fail_if_no_progress with_reducible apply Keeps.upd
    | with_reducible apply KeepsRes.next

/-! ### Machine/Memory.lean -/

theorem State.detachReads_keeps {r0 : State} {s : State} {unit : Nat} (hk : Keeps r0 s) : Keeps r0
    (State.detachReads s unit) := by
  unfold State.detachReads
  extract_lets a0 a1 a2
  try clear_value a0
  try clear_value a1
  have k2 : Keeps r0 a2
  on_goal 1 => unfold a2
  rotate_left
  clear_value a2
  all_goals repeat' first
    | with_reducible assumption
    | intro _
    | with_reducible apply State.endRemote_keeps
    | with_reducible apply Keeps.ite
    | with_reducible apply Keeps.foldl
    | with_reducible apply Keeps.foldlFst
    | fail_if_no_progress with_reducible apply Keeps.upd

theorem State.lpFilled_keeps {r0 : State} {s : State} {base : Nat} {size : Nat} (hk : Keeps r0 s) : Keeps r0
    (State.lpFilled s base size) := by
  unfold State.lpFilled
  extract_lets a0 a1 a2 a3 a4
  try clear_value a0
  try clear_value a1
  try clear_value a2
  have k3 : Keeps r0 a3
  on_goal 1 => unfold a3
  rotate_left
  clear_value a3
  try clear_value a4
  all_goals repeat' first
    | with_reducible assumption
    | intro _
    | with_reducible apply State.addCnt_keeps
    | with_reducible apply State.setFld_keeps
    | with_reducible apply Keeps.ite
    | with_reducible apply Keeps.foldl
    | with_reducible apply Keeps.foldlFst
    | fail_if_no_progress with_reducible apply Keeps.upd

theorem State.windowRefused_keeps {r0 : State} {s : State} {n : Nat} {off : Nat} {value : Word} {domain : Nat} (hk
    : Keeps r0 s) : Keeps r0 (State.windowRefused s n off value domain) := by
  unfold State.windowRefused
  try dsimp only
  repeat' first
    | with_reducible assumption
    | intro _
    | with_reducible apply State.log_keeps

theorem execNtWinWrite_keeps {r0 : State} {tile : Fin 16} {offset : BitVec 8} {value : Word} {domain : BitVec 4} {s : State}
    (hk : Keeps r0 s) : KeepsRes r0 (execNtWinWrite tile offset value domain s) := by
  unfold execNtWinWrite
  try dsimp only
  repeat' first
    | with_reducible assumption
    | intro _
    | with_reducible apply State.windowRefused_keeps
    | with_reducible apply State.setReg_keeps
    | with_reducible apply Keeps.ite
    | with_reducible apply Keeps.foldl
    | with_reducible apply Keeps.foldlFst
    | fail_if_no_progress with_reducible apply Keeps.upd
    | with_reducible apply KeepsRes.next
    | with_reducible apply KeepsRes.ite
    | split

theorem execNtCredWrite_keeps {r0 : State} {tile : Fin 16} {offset : BitVec 8} {value : Word} {domain : BitVec 4} {s : State}
    (hk : Keeps r0 s) : KeepsRes r0 (execNtCredWrite tile offset value domain s) := by
  unfold execNtCredWrite
  try dsimp only
  repeat' first
    | with_reducible assumption
    | intro _
    | with_reducible apply State.windowRefused_keeps
    | with_reducible apply State.setReg_keeps
    | with_reducible apply Keeps.ite
    | with_reducible apply Keeps.foldl
    | with_reducible apply Keeps.foldlFst
    | fail_if_no_progress with_reducible apply Keeps.upd
    | with_reducible apply KeepsRes.next
    | with_reducible apply KeepsRes.ite

theorem execMcFlagHiRead_keeps {r0 : State} {s : State} (hk : Keeps r0 s) : KeepsRes r0 (execMcFlagHiRead s) := by
  unfold execMcFlagHiRead
  try dsimp only
  repeat' first
    | with_reducible assumption
    | intro _
    | with_reducible apply Keeps.ite
    | with_reducible apply Keeps.foldl
    | with_reducible apply Keeps.foldlFst
    | fail_if_no_progress with_reducible apply Keeps.upd
    | with_reducible apply KeepsRes.next

theorem State.stopMarks_keeps {r0 : State} {s : State} {unit : Nat} {i : Inst} (hk : Keeps r0 s) : Keeps r0
    (State.stopMarks s unit i) := by
  unfold State.stopMarks
  extract_lets a0 a1 a2 a3
  try clear_value a0
  try clear_value a1
  have k2 : Keeps r0 a2
  on_goal 1 => unfold a2
  rotate_left
  clear_value a2
  have k3 : Keeps r0 a3
  on_goal 1 => unfold a3
  rotate_left
  clear_value a3
  all_goals repeat' first
    | with_reducible assumption
    | intro _
    | with_reducible apply State.setFld_keeps
    | with_reducible apply State.draw_keeps
    | with_reducible apply State.addCnt_keeps
    | with_reducible apply Keeps.ite

theorem State.tileFilled_keeps {r0 : State} {s : State} {n : Nat} (hk : Keeps r0 s) : Keeps r0 (State.tileFilled s n) := by
  unfold State.tileFilled
  extract_lets a0 a1 a2 a3
  have k0 : Keeps r0 a0
  on_goal 1 => unfold a0
  rotate_left
  clear_value a0
  have k1 : Keeps r0 a1
  on_goal 1 => unfold a1
  rotate_left
  clear_value a1
  have k2 : Keeps r0 a2
  on_goal 1 => unfold a2
  rotate_left
  clear_value a2
  have k3 : Keeps r0 a3
  on_goal 1 => unfold a3
  rotate_left
  clear_value a3
  all_goals repeat' first
    | with_reducible assumption
    | intro _
    | with_reducible apply State.loadWindows_keeps
    | with_reducible apply State.setReg_keeps
    | with_reducible apply State.gateUnit_keeps
    | with_reducible apply Keeps.ite
    | with_reducible apply Keeps.foldl
    | with_reducible apply Keeps.foldlFst
    | fail_if_no_progress with_reducible apply Keeps.upd

theorem execAshFillDone_keeps {r0 : State} {addr : Nat} {s : State} (hk : Keeps r0 s) : KeepsRes r0
    (execAshFillDone addr s) := by
  unfold execAshFillDone
  try dsimp only
  repeat' first
    | with_reducible assumption
    | intro _
    | with_reducible apply State.event_keeps
    | with_reducible apply State.lpFilled_keeps
    | with_reducible apply State.tileFilled_keeps
    | with_reducible apply Keeps.ite
    | with_reducible apply Keeps.foldl
    | with_reducible apply Keeps.foldlFst
    | fail_if_no_progress with_reducible apply Keeps.upd
    | with_reducible apply Keeps.clear
    | with_reducible apply KeepsRes.next
    | with_reducible apply KeepsRes.ite
    | split

theorem execCinderEntry_keeps {r0 : State} {addr : Nat} {s : State} (hk : Keeps r0 s) : KeepsRes r0
    (execCinderEntry addr s) := by
  unfold execCinderEntry
  try dsimp only
  repeat' first
    | with_reducible assumption
    | intro _
    | with_reducible apply State.enterCinder_keeps
    | with_reducible apply Keeps.ite
    | with_reducible apply Keeps.foldl
    | with_reducible apply Keeps.foldlFst
    | fail_if_no_progress with_reducible apply Keeps.upd
    | with_reducible apply KeepsRes.next

theorem execDetachedReadReturn_keeps {r0 : State} {unit : Half} {s : State} (hk : Keeps r0 s) : KeepsRes r0
    (execDetachedReadReturn unit s) := by
  unfold execDetachedReadReturn
  extract_lets a0 a1 a2 a3
  try clear_value a0
  try clear_value a1
  have k2 : Keeps r0 a2
  on_goal 1 => unfold a2
  rotate_left
  clear_value a2
  try clear_value a3
  all_goals repeat' first
    | with_reducible assumption
    | intro _
    | with_reducible apply Keeps.ite
    | with_reducible apply Keeps.foldl
    | with_reducible apply Keeps.foldlFst
    | fail_if_no_progress with_reducible apply Keeps.upd
    | with_reducible apply KeepsRes.next
    | with_reducible apply KeepsRes.ite
    | split

theorem execHeldAccessLimit_keeps {r0 : State} {unit : Half} {s : State} (hk : Keeps r0 s) : KeepsRes r0
    (execHeldAccessLimit unit s) := by
  unfold execHeldAccessLimit
  try dsimp only
  repeat' first
    | with_reducible assumption
    | intro _
    | with_reducible apply State.reach_keeps
    | with_reducible apply State.stepFault_keeps
    | with_reducible apply Keeps.ite
    | with_reducible apply Keeps.foldl
    | with_reducible apply Keeps.foldlFst
    | fail_if_no_progress with_reducible apply Keeps.upd
    | with_reducible apply KeepsRes.next
    | with_reducible apply KeepsRes.ite
    | split

theorem execHeldAccessRetry_keeps {r0 : State} {unit : Half} {s : State} (hk : Keeps r0 s) : KeepsRes r0
    (execHeldAccessRetry unit s) := by
  unfold execHeldAccessRetry
  try dsimp only
  repeat' first
    | with_reducible assumption
    | intro _
    | with_reducible apply State.reach_keeps
    | with_reducible apply State.setUnit_keeps
    | with_reducible apply Keeps.ite
    | with_reducible apply Keeps.foldl
    | with_reducible apply Keeps.foldlFst
    | fail_if_no_progress with_reducible apply Keeps.upd
    | with_reducible apply KeepsRes.next
    | with_reducible apply KeepsRes.ite
    | split

theorem execUnitStopAck_keeps {r0 : State} {unit : Half} {s : State} (hk : Keeps r0 s) : KeepsRes r0
    (execUnitStopAck unit s) := by
  unfold execUnitStopAck
  try dsimp only
  repeat' first
    | with_reducible assumption
    | intro _
    | with_reducible apply State.cancelNow_keeps
    | with_reducible apply State.dropCarry_keeps
    | with_reducible apply State.detachReads_keeps
    | with_reducible apply State.tapAbort_keeps
    | with_reducible apply State.stopMarks_keeps
    | with_reducible apply Keeps.ite
    | with_reducible apply Keeps.foldl
    | with_reducible apply Keeps.foldlFst
    | fail_if_no_progress with_reducible apply Keeps.upd
    | with_reducible apply KeepsRes.next
    | with_reducible apply KeepsRes.ite
    | split

theorem execWcMissFillDone_keeps {r0 : State} {line : Nat} {s : State} (hk : Keeps r0 s) : KeepsRes r0
    (execWcMissFillDone line s) := by
  unfold execWcMissFillDone
  try dsimp only
  repeat' first
    | with_reducible assumption
    | intro _
    | with_reducible apply Keeps.ite
    | with_reducible apply Keeps.foldl
    | with_reducible apply Keeps.foldlFst
    | fail_if_no_progress with_reducible apply Keeps.upd
    | with_reducible apply KeepsRes.next
    | with_reducible apply KeepsRes.ite

/-! ### Machine/Neural.lean -/

theorem State.ntCompute_keeps {r0 : State} {s : State} {n : Nat} {op : Nat} {f : TileSt → Td → Opnd → Opnd → Opnd → NtOut} (hk
    : Keeps r0 s) : Keeps r0 (State.ntCompute s n op f) := by
  unfold State.ntCompute
  try dsimp only
  repeat' first
    | with_reducible assumption
    | intro _
    | with_reducible apply State.modNt_keeps
    | with_reducible apply Keeps.ite
    | with_reducible apply Keeps.foldl
    | with_reducible apply Keeps.foldlFst
    | fail_if_no_progress with_reducible apply Keeps.upd
    | split

theorem execAttention_keeps {r0 : State} {tile : Fin 16} {s : State} (hk : Keeps r0 s) : KeepsRes r0
    (execAttention tile s) := by
  unfold execAttention
  try dsimp only
  repeat' first
    | with_reducible assumption
    | intro _
    | with_reducible apply State.ntCompute_keeps
    | with_reducible apply Keeps.ite
    | with_reducible apply Keeps.foldl
    | with_reducible apply Keeps.foldlFst
    | fail_if_no_progress with_reducible apply Keeps.upd
    | with_reducible apply KeepsRes.next

theorem execConv_keeps {r0 : State} {tile : Fin 16} {s : State} (hk : Keeps r0 s) : KeepsRes r0 (execConv tile s) := by
  unfold execConv
  try dsimp only
  repeat' first
    | with_reducible assumption
    | intro _
    | with_reducible apply State.ntCompute_keeps
    | with_reducible apply Keeps.ite
    | with_reducible apply Keeps.foldl
    | with_reducible apply Keeps.foldlFst
    | fail_if_no_progress with_reducible apply Keeps.upd
    | with_reducible apply KeepsRes.next

theorem execElementwise_keeps {r0 : State} {tile : Fin 16} {s : State} (hk : Keeps r0 s) : KeepsRes r0
    (execElementwise tile s) := by
  unfold execElementwise
  try dsimp only
  repeat' first
    | with_reducible assumption
    | intro _
    | with_reducible apply State.ntCompute_keeps
    | with_reducible apply Keeps.ite
    | with_reducible apply Keeps.foldl
    | with_reducible apply Keeps.foldlFst
    | fail_if_no_progress with_reducible apply Keeps.upd
    | with_reducible apply KeepsRes.next

theorem execGather_keeps {r0 : State} {tile : Fin 16} {s : State} (hk : Keeps r0 s) : KeepsRes r0 (execGather tile s) := by
  unfold execGather
  try dsimp only
  repeat' first
    | with_reducible assumption
    | intro _
    | with_reducible apply State.ntCompute_keeps
    | with_reducible apply Keeps.ite
    | with_reducible apply Keeps.foldl
    | with_reducible apply Keeps.foldlFst
    | fail_if_no_progress with_reducible apply Keeps.upd
    | with_reducible apply KeepsRes.next

theorem execLut_keeps {r0 : State} {tile : Fin 16} {s : State} (hk : Keeps r0 s) : KeepsRes r0 (execLut tile s) := by
  unfold execLut
  try dsimp only
  repeat' first
    | with_reducible assumption
    | intro _
    | with_reducible apply State.ntCompute_keeps
    | with_reducible apply Keeps.ite
    | with_reducible apply Keeps.foldl
    | with_reducible apply Keeps.foldlFst
    | fail_if_no_progress with_reducible apply Keeps.upd
    | with_reducible apply KeepsRes.next

theorem execMatmul_keeps {r0 : State} {tile : Fin 16} {s : State} (hk : Keeps r0 s) : KeepsRes r0 (execMatmul tile s) := by
  unfold execMatmul
  try dsimp only
  repeat' first
    | with_reducible assumption
    | intro _
    | with_reducible apply State.ntCompute_keeps
    | with_reducible apply Keeps.ite
    | with_reducible apply Keeps.foldl
    | with_reducible apply Keeps.foldlFst
    | fail_if_no_progress with_reducible apply Keeps.upd
    | with_reducible apply KeepsRes.next

theorem execNms_keeps {r0 : State} {tile : Fin 16} {s : State} (hk : Keeps r0 s) : KeepsRes r0 (execNms tile s) := by
  unfold execNms
  try dsimp only
  repeat' first
    | with_reducible assumption
    | intro _
    | with_reducible apply State.ntCompute_keeps
    | with_reducible apply Keeps.ite
    | with_reducible apply Keeps.foldl
    | with_reducible apply Keeps.foldlFst
    | fail_if_no_progress with_reducible apply Keeps.upd
    | with_reducible apply KeepsRes.next

theorem execNorm_keeps {r0 : State} {tile : Fin 16} {s : State} (hk : Keeps r0 s) : KeepsRes r0 (execNorm tile s) := by
  unfold execNorm
  try dsimp only
  repeat' first
    | with_reducible assumption
    | intro _
    | with_reducible apply State.ntCompute_keeps
    | with_reducible apply Keeps.ite
    | with_reducible apply Keeps.foldl
    | with_reducible apply Keeps.foldlFst
    | fail_if_no_progress with_reducible apply Keeps.upd
    | with_reducible apply KeepsRes.next

theorem execPermute_keeps {r0 : State} {tile : Fin 16} {s : State} (hk : Keeps r0 s) : KeepsRes r0 (execPermute tile s) := by
  unfold execPermute
  try dsimp only
  repeat' first
    | with_reducible assumption
    | intro _
    | with_reducible apply State.ntCompute_keeps
    | with_reducible apply Keeps.ite
    | with_reducible apply Keeps.foldl
    | with_reducible apply Keeps.foldlFst
    | fail_if_no_progress with_reducible apply Keeps.upd
    | with_reducible apply KeepsRes.next

theorem execReduce_keeps {r0 : State} {tile : Fin 16} {s : State} (hk : Keeps r0 s) : KeepsRes r0 (execReduce tile s) := by
  unfold execReduce
  try dsimp only
  repeat' first
    | with_reducible assumption
    | intro _
    | with_reducible apply State.ntCompute_keeps
    | with_reducible apply Keeps.ite
    | with_reducible apply Keeps.foldl
    | with_reducible apply Keeps.foldlFst
    | fail_if_no_progress with_reducible apply Keeps.upd
    | with_reducible apply KeepsRes.next

theorem execSample_keeps {r0 : State} {tile : Fin 16} {s : State} (hk : Keeps r0 s) : KeepsRes r0 (execSample tile s) := by
  unfold execSample
  try dsimp only
  repeat' first
    | with_reducible assumption
    | intro _
    | with_reducible apply State.ntCompute_keeps
    | with_reducible apply Keeps.ite
    | with_reducible apply Keeps.foldl
    | with_reducible apply Keeps.foldlFst
    | fail_if_no_progress with_reducible apply Keeps.upd
    | with_reducible apply KeepsRes.next

theorem execScatter_keeps {r0 : State} {tile : Fin 16} {s : State} (hk : Keeps r0 s) : KeepsRes r0 (execScatter tile s) := by
  unfold execScatter
  try dsimp only
  repeat' first
    | with_reducible assumption
    | intro _
    | with_reducible apply State.ntCompute_keeps
    | with_reducible apply Keeps.ite
    | with_reducible apply Keeps.foldl
    | with_reducible apply Keeps.foldlFst
    | fail_if_no_progress with_reducible apply Keeps.upd
    | with_reducible apply KeepsRes.next

theorem execTopk_keeps {r0 : State} {tile : Fin 16} {s : State} (hk : Keeps r0 s) : KeepsRes r0 (execTopk tile s) := by
  unfold execTopk
  try dsimp only
  repeat' first
    | with_reducible assumption
    | intro _
    | with_reducible apply State.ntCompute_keeps
    | with_reducible apply Keeps.ite
    | with_reducible apply Keeps.foldl
    | with_reducible apply Keeps.foldlFst
    | fail_if_no_progress with_reducible apply Keeps.upd
    | with_reducible apply KeepsRes.next

/-! ### Machine/Service.lean -/

theorem State.modSvc_keeps {r0 : State} {s : State} {i : Nat} {f : SvcIfc → SvcIfc} (hk : Keeps r0 s) : Keeps r0
    (State.modSvc s i f) := by
  unfold State.modSvc
  try dsimp only
  repeat' first
    | with_reducible assumption
    | intro _
    | with_reducible apply Keeps.ite
    | with_reducible apply Keeps.foldl
    | with_reducible apply Keeps.foldlFst
    | fail_if_no_progress with_reducible apply Keeps.upd

theorem State.sendResponse_keeps {r0 : State} {s : State} {ifc : Nat} {peer : SvcPeer} {m : List Byte} (hk : Keeps r0 s)
    : Keeps r0 (State.sendResponse s ifc peer m) := by
  unfold State.sendResponse
  try dsimp only
  repeat' first
    | with_reducible assumption
    | intro _
    | with_reducible apply State.queueEth_keeps
    | with_reducible apply State.modSvc_keeps
    | with_reducible apply Keeps.ite

theorem State.answer_keeps {r0 : State} {s : State} {ifc : Nat} {q : SvcReq} {status : Nat} {body : List Byte} (hk
    : Keeps r0 s) : Keeps r0 (State.answer s ifc q status body) := by
  unfold State.answer
  try dsimp only
  repeat' first
    | with_reducible assumption
    | intro _
    | with_reducible apply State.sendResponse_keeps
    | with_reducible apply State.modSvc_keeps
    | with_reducible apply Keeps.ite
    | with_reducible apply Keeps.foldl
    | with_reducible apply Keeps.foldlFst
    | fail_if_no_progress with_reducible apply Keeps.upd
    | split

theorem State.authFail_keeps {r0 : State} {s : State} {ifc : Nat} {session : Nat} (hk : Keeps r0 s) : Keeps r0
    (State.authFail s ifc session) := by
  unfold State.authFail
  extract_lets a0
  have k0 : Keeps r0 a0
  on_goal 1 => unfold a0
  rotate_left
  clear_value a0
  all_goals repeat' first
    | with_reducible assumption
    | intro _
    | with_reducible apply State.event_keeps
    | with_reducible apply State.addCnt_keeps
    | with_reducible apply State.addFld_keeps
    | with_reducible apply State.modSvc_keeps
    | with_reducible apply Keeps.ite
    | with_reducible apply Keeps.foldl
    | with_reducible apply Keeps.foldlFst
    | fail_if_no_progress with_reducible apply Keeps.upd
    | split

theorem State.badMessage_keeps {r0 : State} {s : State} {ifc : Nat} (hk : Keeps r0 s) : Keeps r0 (State.badMessage s ifc) := by
  unfold State.badMessage
  try dsimp only
  repeat' first
    | with_reducible assumption
    | intro _
    | with_reducible apply State.authFail_keeps
    | with_reducible apply State.addFld_keeps
    | with_reducible apply Keeps.ite

theorem State.modIo_keeps {r0 : State} {s : State} {f : Ifaces → Ifaces} (hk : Keeps r0 s) : Keeps r0 (State.modIo s f) := by
  unfold State.modIo
  try dsimp only
  repeat' first
    | with_reducible assumption
    | intro _
    | with_reducible apply Keeps.ite
    | with_reducible apply Keeps.foldl
    | with_reducible apply Keeps.foldlFst
    | fail_if_no_progress with_reducible apply Keeps.upd

theorem State.modStage_keeps {r0 : State} {s : State} {f : StageSt → StageSt} (hk : Keeps r0 s) : Keeps r0
    (State.modStage s f) := by
  unfold State.modStage
  try dsimp only
  repeat' first
    | with_reducible assumption
    | intro _
    | with_reducible apply State.modIo_keeps

theorem State.noStage_keeps {r0 : State} {s : State} {ifc : Nat} {q : SvcReq} (hk : Keeps r0 s) : Keeps r0
    (State.noStage s ifc q) := by
  unfold State.noStage
  extract_lets a0
  have k0 : Keeps r0 a0.2
  on_goal 1 => unfold a0
  rotate_left
  clear_value a0
  all_goals repeat' first
    | with_reducible assumption
    | intro _
    | with_reducible apply State.draw_keeps
    | with_reducible apply State.answer_keeps

theorem State.serveFront_keeps {r0 : State} {s : State} {ifc : Nat} {op : Nat} {f : State → SvcReq → State} (hk : Keeps r0 s)
    (hf : ∀ y0 y1, Keeps r0 y0 → Keeps r0 (f y0 y1)) : Keeps r0 (State.serveFront s ifc op f) := by
  unfold State.serveFront
  try dsimp only
  repeat' first
    | with_reducible assumption
    | intro _
    | with_reducible apply hf
    | with_reducible apply State.modSvc_keeps
    | with_reducible apply State.answer_keeps
    | with_reducible apply Keeps.ite
    | with_reducible apply Keeps.foldl
    | with_reducible apply Keeps.foldlFst
    | fail_if_no_progress with_reducible apply Keeps.upd
    | split

theorem State.showStage_keeps {r0 : State} {s : State} {st : Nat} {code : Nat} (hk : Keeps r0 s) : Keeps r0
    (State.showStage s st code) := by
  unfold State.showStage
  try dsimp only
  repeat' first
    | with_reducible assumption
    | intro _
    | with_reducible apply State.setFld_keeps

theorem State.stageAnswer_keeps {r0 : State} {s : State} {op : Nat} {status : Nat} {body : List Byte} (hk : Keeps r0 s)
    : Keeps r0 (State.stageAnswer s op status body) := by
  unfold State.stageAnswer
  try dsimp only
  repeat' first
    | with_reducible assumption
    | intro _
    | with_reducible apply State.answer_keeps

theorem State.stageFront_keeps {r0 : State} {s : State} {ifc : Nat} {op : Nat} {f : State → SvcReq → State} (hk : Keeps r0 s)
    (hf : ∀ y0 y1, Keeps r0 y0 → Keeps r0 (f y0 y1)) : Keeps r0 (State.stageFront s ifc op f) := by
  unfold State.stageFront
  try dsimp only
  repeat' first
    | with_reducible assumption
    | intro _
    | with_reducible apply hf
    | with_reducible apply State.serveFront_keeps
    | with_reducible apply State.noStage_keeps
    | with_reducible apply Keeps.ite

theorem State.takeMessage_keeps {r0 : State} {s : State} {ifc : Nat} {peer : SvcPeer} {m : List Byte} (hk : Keeps r0 s)
    : Keeps r0 (State.takeMessage s ifc peer m) := by
  unfold State.takeMessage
  extract_lets a0 a1 a2 a3 a4 a5 a6 a7 a8 a9 a10 a11 a12
  try clear_value a0
  try clear_value a1
  try clear_value a2
  try clear_value a3
  try clear_value a4
  try clear_value a5
  try clear_value a6
  try clear_value a7
  try clear_value a8
  try clear_value a9
  try clear_value a10
  try clear_value a11
  have k12 : Keeps r0 a12
  on_goal 1 => unfold a12
  rotate_left
  clear_value a12
  all_goals repeat' first
    | with_reducible assumption
    | intro _
    | with_reducible apply State.badMessage_keeps
    | with_reducible apply State.modSvc_keeps
    | with_reducible apply State.answer_keeps
    | with_reducible apply State.authFail_keeps
    | with_reducible apply Keeps.ite
    | with_reducible apply Keeps.foldl
    | with_reducible apply Keeps.foldlFst
    | fail_if_no_progress with_reducible apply Keeps.upd
    | split

theorem execHello_keeps {r0 : State} {ifc : Fin 3} {s : State} (hk : Keeps r0 s) : KeepsRes r0 (execHello ifc s) := by
  unfold execHello
  try dsimp only
  repeat' first
    | with_reducible assumption
    | intro _
    | with_reducible apply State.serveFront_keeps
    | with_reducible apply State.answer_keeps
    | with_reducible apply State.draw_keeps
    | with_reducible apply State.modSvc_keeps
    | with_reducible apply Keeps.ite
    | with_reducible apply Keeps.foldl
    | with_reducible apply Keeps.foldlFst
    | fail_if_no_progress with_reducible apply Keeps.upd
    | with_reducible apply KeepsRes.next

theorem execJournalRead_keeps {r0 : State} {ifc : Fin 3} {s : State} (hk : Keeps r0 s) : KeepsRes r0
    (execJournalRead ifc s) := by
  unfold execJournalRead
  try dsimp only
  repeat' first
    | with_reducible assumption
    | intro _
    | with_reducible apply State.serveFront_keeps
    | with_reducible apply State.answer_keeps
    | with_reducible apply Keeps.ite
    | with_reducible apply Keeps.foldl
    | with_reducible apply Keeps.foldlFst
    | fail_if_no_progress with_reducible apply Keeps.upd
    | with_reducible apply KeepsRes.next

theorem execMirrorRefresh_keeps {r0 : State} {s : State} (hk : Keeps r0 s) : KeepsRes r0 (execMirrorRefresh s) := by
  unfold execMirrorRefresh
  extract_lets a0 a1 a2
  have k0 : Keeps r0 a0
  on_goal 1 => unfold a0
  rotate_left
  clear_value a0
  have k1 : Keeps r0 a1
  on_goal 1 => unfold a1
  rotate_left
  clear_value a1
  try clear_value a2
  all_goals repeat' first
    | with_reducible assumption
    | intro _
    | with_reducible apply State.reach_keeps
    | with_reducible apply State.modIo_keeps
    | with_reducible apply Keeps.ite
    | with_reducible apply Keeps.foldl
    | with_reducible apply Keeps.foldlFst
    | fail_if_no_progress with_reducible apply Keeps.upd
    | with_reducible apply KeepsRes.next
    | with_reducible apply KeepsRes.ite

theorem execReadMirror_keeps {r0 : State} {start : Byte} {len : Byte} {s : State} (hk : Keeps r0 s) : KeepsRes r0
    (execReadMirror start len s) := by
  unfold execReadMirror
  try dsimp only
  repeat' first
    | with_reducible assumption
    | intro _
    | with_reducible apply State.modIo_keeps
    | with_reducible apply Keeps.ite
    | with_reducible apply Keeps.foldl
    | with_reducible apply Keeps.foldlFst
    | fail_if_no_progress with_reducible apply Keeps.upd
    | with_reducible apply KeepsRes.next
    | with_reducible apply KeepsRes.ite

theorem execReadMsg_keeps {r0 : State} {s : State} (hk : Keeps r0 s) : KeepsRes r0 (execReadMsg s) := by
  unfold execReadMsg
  try dsimp only
  repeat' first
    | with_reducible assumption
    | intro _
    | with_reducible apply State.modIo_keeps
    | with_reducible apply State.modSvc_keeps
    | with_reducible apply Keeps.ite
    | with_reducible apply Keeps.foldl
    | with_reducible apply Keeps.foldlFst
    | fail_if_no_progress with_reducible apply Keeps.upd
    | with_reducible apply KeepsRes.next
    | with_reducible apply KeepsRes.ite

theorem execReadReg_keeps {r0 : State} {ifc : Fin 3} {s : State} (hk : Keeps r0 s) : KeepsRes r0 (execReadReg ifc s) := by
  unfold execReadReg
  try dsimp only
  repeat' first
    | with_reducible assumption
    | intro _
    | with_reducible apply State.serveFront_keeps
    | with_reducible apply State.answer_keeps
    | with_reducible apply Keeps.ite
    | with_reducible apply Keeps.foldl
    | with_reducible apply Keeps.foldlFst
    | fail_if_no_progress with_reducible apply Keeps.upd
    | with_reducible apply KeepsRes.next

theorem execSceneRequest_keeps {r0 : State} {ifc : Fin 3} {s : State} (hk : Keeps r0 s) : KeepsRes r0
    (execSceneRequest ifc s) := by
  unfold execSceneRequest
  try dsimp only
  repeat' first
    | with_reducible assumption
    | intro _
    | with_reducible apply State.serveFront_keeps
    | with_reducible apply State.answer_keeps
    | with_reducible apply State.accept_keeps
    | with_reducible apply Keeps.ite
    | with_reducible apply Keeps.foldl
    | with_reducible apply Keeps.foldlFst
    | fail_if_no_progress with_reducible apply Keeps.upd
    | with_reducible apply KeepsRes.next
    | with_reducible apply KeepsRes.ite
    | split

theorem execServiceClose_keeps {r0 : State} {ifc : Fin 3} {s : State} (hk : Keeps r0 s) : KeepsRes r0
    (execServiceClose ifc s) := by
  unfold execServiceClose
  try dsimp only
  repeat' first
    | with_reducible assumption
    | intro _
    | with_reducible apply State.serveFront_keeps
    | with_reducible apply State.modSvc_keeps
    | with_reducible apply State.answer_keeps
    | with_reducible apply Keeps.ite
    | with_reducible apply Keeps.foldl
    | with_reducible apply Keeps.foldlFst
    | fail_if_no_progress with_reducible apply Keeps.upd
    | with_reducible apply KeepsRes.next

theorem execServiceOpen_keeps {r0 : State} {ifc : Fin 3} {s : State} (hk : Keeps r0 s) : KeepsRes r0
    (execServiceOpen ifc s) := by
  unfold execServiceOpen
  try dsimp only
  repeat' first
    | with_reducible assumption
    | intro _
    | with_reducible apply State.serveFront_keeps
    | with_reducible apply State.authFail_keeps
    | with_reducible apply State.draw_keeps
    | with_reducible apply State.modSvc_keeps
    | with_reducible apply State.answer_keeps
    | with_reducible apply Keeps.ite
    | with_reducible apply Keeps.foldl
    | with_reducible apply Keeps.foldlFst
    | fail_if_no_progress with_reducible apply Keeps.upd
    | with_reducible apply KeepsRes.next
    | with_reducible apply KeepsRes.ite
    | split

theorem execServiceStatus_keeps {r0 : State} {ifc : Fin 3} {s : State} (hk : Keeps r0 s) : KeepsRes r0
    (execServiceStatus ifc s) := by
  unfold execServiceStatus
  try dsimp only
  repeat' first
    | with_reducible assumption
    | intro _
    | with_reducible apply State.serveFront_keeps
    | with_reducible apply State.answer_keeps
    | with_reducible apply Keeps.ite
    | with_reducible apply Keeps.foldl
    | with_reducible apply Keeps.foldlFst
    | fail_if_no_progress with_reducible apply Keeps.upd
    | with_reducible apply KeepsRes.next

theorem execSessionIdleTimeout_keeps {r0 : State} {ifc : Fin 3} {s : State} (hk : Keeps r0 s) : KeepsRes r0
    (execSessionIdleTimeout ifc s) := by
  unfold execSessionIdleTimeout
  try dsimp only
  repeat' first
    | with_reducible assumption
    | intro _
    | with_reducible apply State.modSvc_keeps
    | with_reducible apply State.reach_keeps
    | with_reducible apply Keeps.ite
    | with_reducible apply Keeps.foldl
    | with_reducible apply Keeps.foldlFst
    | fail_if_no_progress with_reducible apply Keeps.upd
    | with_reducible apply KeepsRes.next
    | with_reducible apply KeepsRes.ite

theorem execStageBegin_keeps {r0 : State} {ifc : Fin 3} {s : State} (hk : Keeps r0 s) : KeepsRes r0 (execStageBegin ifc s) := by
  unfold execStageBegin
  try dsimp only
  repeat' first
    | with_reducible assumption
    | intro _
    | with_reducible apply State.serveFront_keeps
    | with_reducible apply State.answer_keeps
    | with_reducible apply State.setReg_keeps
    | with_reducible apply State.showStage_keeps
    | with_reducible apply State.modStage_keeps
    | with_reducible apply Keeps.ite
    | with_reducible apply Keeps.foldl
    | with_reducible apply Keeps.foldlFst
    | fail_if_no_progress with_reducible apply Keeps.upd
    | with_reducible apply KeepsRes.next

theorem execStageChunk_keeps {r0 : State} {ifc : Fin 3} {s : State} (hk : Keeps r0 s) : KeepsRes r0 (execStageChunk ifc s) := by
  unfold execStageChunk
  try dsimp only
  repeat' first
    | with_reducible assumption
    | intro _
    | with_reducible apply State.stageFront_keeps
    | with_reducible apply State.answer_keeps
    | with_reducible apply State.modStage_keeps
    | with_reducible apply Keeps.ite
    | with_reducible apply Keeps.foldl
    | with_reducible apply Keeps.foldlFst
    | fail_if_no_progress with_reducible apply Keeps.upd
    | with_reducible apply KeepsRes.next

theorem execStageChunkProgrammed_keeps {r0 : State} {s : State} (hk : Keeps r0 s) : KeepsRes r0
    (execStageChunkProgrammed s) := by
  unfold execStageChunkProgrammed
  try dsimp only
  repeat' first
    | with_reducible assumption
    | intro _
    | with_reducible apply State.modStage_keeps
    | with_reducible apply State.stageAnswer_keeps
    | with_reducible apply Keeps.ite
    | with_reducible apply Keeps.foldl
    | with_reducible apply Keeps.foldlFst
    | fail_if_no_progress with_reducible apply Keeps.upd
    | with_reducible apply KeepsRes.next
    | with_reducible apply KeepsRes.ite
    | split

theorem execStageEnd_keeps {r0 : State} {ifc : Fin 3} {s : State} (hk : Keeps r0 s) : KeepsRes r0 (execStageEnd ifc s) := by
  unfold execStageEnd
  try dsimp only
  repeat' first
    | with_reducible assumption
    | intro _
    | with_reducible apply State.stageFront_keeps
    | with_reducible apply State.showStage_keeps
    | with_reducible apply State.modStage_keeps
    | with_reducible apply Keeps.ite
    | with_reducible apply Keeps.foldl
    | with_reducible apply Keeps.foldlFst
    | fail_if_no_progress with_reducible apply Keeps.upd
    | with_reducible apply KeepsRes.next

theorem execStageEraseDone_keeps {r0 : State} {s : State} (hk : Keeps r0 s) : KeepsRes r0 (execStageEraseDone s) := by
  unfold execStageEraseDone
  extract_lets a0 a1 a2 a3
  try clear_value a0
  try clear_value a1
  have k2 : Keeps r0 a2
  on_goal 1 => unfold a2
  rotate_left
  clear_value a2
  have k3 : Keeps r0 a3
  on_goal 1 => unfold a3
  rotate_left
  clear_value a3
  all_goals repeat' first
    | with_reducible assumption
    | intro _
    | with_reducible apply State.modStage_keeps
    | with_reducible apply State.stageAnswer_keeps
    | with_reducible apply Keeps.ite
    | with_reducible apply Keeps.foldl
    | with_reducible apply Keeps.foldlFst
    | fail_if_no_progress with_reducible apply Keeps.upd
    | with_reducible apply KeepsRes.next
    | with_reducible apply KeepsRes.ite

theorem execStageIdleTimeout_keeps {r0 : State} {s : State} (hk : Keeps r0 s) : KeepsRes r0 (execStageIdleTimeout s) := by
  unfold execStageIdleTimeout
  extract_lets a0 a1 a2
  try clear_value a0
  have k1 : Keeps r0 a1
  on_goal 1 => unfold a1
  rotate_left
  clear_value a1
  have k2 : Keeps r0 a2
  on_goal 1 => unfold a2
  rotate_left
  clear_value a2
  all_goals repeat' first
    | with_reducible assumption
    | intro _
    | with_reducible apply State.reach_keeps
    | with_reducible apply State.log_keeps
    | with_reducible apply State.showStage_keeps
    | with_reducible apply State.modStage_keeps
    | with_reducible apply Keeps.ite
    | with_reducible apply Keeps.foldl
    | with_reducible apply Keeps.foldlFst
    | fail_if_no_progress with_reducible apply Keeps.upd
    | with_reducible apply KeepsRes.next
    | with_reducible apply KeepsRes.ite

theorem execStageStatus_keeps {r0 : State} {ifc : Fin 3} {s : State} (hk : Keeps r0 s) : KeepsRes r0
    (execStageStatus ifc s) := by
  unfold execStageStatus
  try dsimp only
  repeat' first
    | with_reducible assumption
    | intro _
    | with_reducible apply State.serveFront_keeps
    | with_reducible apply State.answer_keeps
    | with_reducible apply Keeps.ite
    | with_reducible apply Keeps.foldl
    | with_reducible apply Keeps.foldlFst
    | fail_if_no_progress with_reducible apply Keeps.upd
    | with_reducible apply KeepsRes.next

theorem execStageVerifyDone_keeps {r0 : State} {s : State} (hk : Keeps r0 s) : KeepsRes r0 (execStageVerifyDone s) := by
  unfold execStageVerifyDone
  extract_lets a0 a1 a2 a3 a4 a5 a6 a7
  try clear_value a0
  try clear_value a1
  try clear_value a2
  try clear_value a3
  try clear_value a4
  have k5 : Keeps r0 a5
  on_goal 1 => unfold a5
  rotate_left
  clear_value a5
  have k6 : Keeps r0 a6
  on_goal 1 => unfold a6
  rotate_left
  clear_value a6
  have k7 : Keeps r0 a7
  on_goal 1 => unfold a7
  rotate_left
  clear_value a7
  all_goals repeat' first
    | with_reducible assumption
    | intro _
    | with_reducible apply State.modStage_keeps
    | with_reducible apply State.modKin_keeps
    | with_reducible apply State.stageAnswer_keeps
    | with_reducible apply State.showStage_keeps
    | with_reducible apply Keeps.ite
    | with_reducible apply Keeps.foldl
    | with_reducible apply Keeps.foldlFst
    | fail_if_no_progress with_reducible apply Keeps.upd
    | with_reducible apply KeepsRes.next
    | with_reducible apply KeepsRes.ite

theorem execWriteMsg_keeps {r0 : State} {data : List Byte} {s : State} (hk : Keeps r0 s) : KeepsRes r0
    (execWriteMsg data s) := by
  unfold execWriteMsg
  try dsimp only
  repeat' first
    | with_reducible assumption
    | intro _
    | with_reducible apply State.badMessage_keeps
    | with_reducible apply State.takeMessage_keeps
    | with_reducible apply Keeps.ite
    | with_reducible apply Keeps.foldl
    | with_reducible apply Keeps.foldlFst
    | fail_if_no_progress with_reducible apply Keeps.upd
    | with_reducible apply KeepsRes.next
    | with_reducible apply KeepsRes.ite

/-! ### Machine/Ports.lean -/

theorem State.submitCheck_keeps {r0 : State} {s : State} {bank : Nat} {domain : Nat} {a : Nat} (hk : Keeps r0 s) : Keeps r0
    (State.submitCheck s bank domain a).1 := by
  unfold State.submitCheck
  try dsimp only
  repeat' first
    | with_reducible assumption
    | intro _
    | with_reducible apply State.judgeRun_keeps
    | with_reducible apply Keeps.ite
    | with_reducible apply Keeps.foldl
    | with_reducible apply Keeps.foldlFst
    | fail_if_no_progress with_reducible apply Keeps.upd
    | split
    | dsimp only
    | (with_reducible apply Keeps.of_fst; rotate_left; with_reducible assumption)

theorem execOfSubGo_keeps {r0 : State} {bank : Fin 5} {domain : BitVec 4} {value : Word} {s : State} (hk : Keeps r0 s)
    : KeepsRes r0 (execOfSubGo bank domain value s) := by
  unfold execOfSubGo
  extract_lets a0 a1 a2 a3 a4
  try clear_value a0
  try clear_value a1
  try clear_value a2
  have k3 : Keeps r0 a3.1
  on_goal 1 => unfold a3
  rotate_left
  clear_value a3
  have k4 : Keeps r0 a4
  on_goal 1 => unfold a4
  rotate_left
  clear_value a4
  all_goals repeat' first
    | with_reducible assumption
    | intro _
    | with_reducible apply State.submitCheck_keeps
    | with_reducible apply State.setFld_keeps
    | with_reducible apply State.modIo_keeps
    | with_reducible apply Keeps.ite
    | with_reducible apply Keeps.foldl
    | with_reducible apply Keeps.foldlFst
    | fail_if_no_progress with_reducible apply Keeps.upd
    | with_reducible apply KeepsRes.next
    | with_reducible apply KeepsRes.ite

theorem State.copyVs_keeps {r0 : State} {s : State} {i : Nat} (hk : Keeps r0 s) : Keeps r0 (State.copyVs s i) := by
  unfold State.copyVs
  try dsimp only
  repeat' first
    | with_reducible assumption
    | intro _
    | with_reducible apply State.judgeRun_keeps
    | with_reducible apply State.write_keeps
    | with_reducible apply Keeps.ite
    | with_reducible apply Keeps.foldl
    | with_reducible apply Keeps.foldlFst
    | fail_if_no_progress with_reducible apply Keeps.upd
    | split
    | dsimp only
    | (with_reducible apply Keeps.of_fst; rotate_left; with_reducible assumption)

theorem State.ethAccept_keeps {r0 : State} {s : State} {mac : Nat} (hk : Keeps r0 s) : Keeps r0 (State.ethAccept s mac) := by
  unfold State.ethAccept
  try dsimp only
  repeat' first
    | with_reducible assumption
    | intro _
    | with_reducible apply State.addCnt_keeps

theorem State.ethDrop_keeps {r0 : State} {s : State} {mac : Nat} (hk : Keeps r0 s) : Keeps r0 (State.ethDrop s mac) := by
  unfold State.ethDrop
  try dsimp only
  repeat' first
    | with_reducible assumption
    | intro _
    | with_reducible apply State.event_keeps
    | with_reducible apply State.addCnt_keeps

theorem State.followUp_keeps {r0 : State} {s : State} {mac : Nat} {t : EthTx} (hk : Keeps r0 s) : Keeps r0
    (State.followUp s mac t) := by
  unfold State.followUp
  try dsimp only
  repeat' first
    | with_reducible assumption
    | intro _
    | with_reducible apply State.queueEth_keeps
    | with_reducible apply Keeps.ite

theorem State.gpioWrite_keeps {r0 : State} {s : State} {domain : Nat} {value : Word} {level : Nat} (hk : Keeps r0 s)
    : Keeps r0 (State.gpioWrite s domain value level) := by
  unfold State.gpioWrite
  try dsimp only
  repeat' first
    | with_reducible assumption
    | intro _
    | with_reducible apply State.addCnt_keeps
    | with_reducible apply State.modPins_keeps
    | with_reducible apply Keeps.ite
    | with_reducible apply Keeps.foldl

theorem State.modVs_keeps {r0 : State} {s : State} {i : Nat} {f : VsEntry → VsEntry} (hk : Keeps r0 s) : Keeps r0
    (State.modVs s i f) := by
  unfold State.modVs
  try dsimp only
  repeat' first
    | with_reducible assumption
    | intro _
    | with_reducible apply State.modIo_keeps

theorem execGpioOutSet_keeps {r0 : State} {domain : BitVec 4} {value : Word} {s : State} (hk : Keeps r0 s) : KeepsRes r0
    (execGpioOutSet domain value s) := by
  unfold execGpioOutSet
  try dsimp only
  repeat' first
    | with_reducible assumption
    | intro _
    | with_reducible apply State.gpioWrite_keeps
    | with_reducible apply Keeps.ite
    | with_reducible apply Keeps.foldl
    | with_reducible apply Keeps.foldlFst
    | fail_if_no_progress with_reducible apply Keeps.upd
    | with_reducible apply KeepsRes.next

theorem execGpioOutClr_keeps {r0 : State} {domain : BitVec 4} {value : Word} {s : State} (hk : Keeps r0 s) : KeepsRes r0
    (execGpioOutClr domain value s) := by
  unfold execGpioOutClr
  try dsimp only
  repeat' first
    | with_reducible assumption
    | intro _
    | with_reducible apply State.gpioWrite_keeps
    | with_reducible apply Keeps.ite
    | with_reducible apply Keeps.foldl
    | with_reducible apply Keeps.foldlFst
    | fail_if_no_progress with_reducible apply Keeps.upd
    | with_reducible apply KeepsRes.next

theorem execCanVsStateRead_keeps {r0 : State} {can : Fin 2} {s : State} (hk : Keeps r0 s) : KeepsRes r0
    (execCanVsStateRead can s) := by
  unfold execCanVsStateRead
  try dsimp only
  repeat' first
    | with_reducible assumption
    | intro _
    | with_reducible apply State.setReg_keeps
    | with_reducible apply Keeps.ite
    | with_reducible apply Keeps.foldl
    | with_reducible apply Keeps.foldlFst
    | fail_if_no_progress with_reducible apply Keeps.upd
    | with_reducible apply KeepsRes.next

theorem State.takeGptp_keeps {r0 : State} {s : State} {mac : Nat} {b : List Byte} (hk : Keeps r0 s) : Keeps r0
    (State.takeGptp s mac b) := by
  unfold State.takeGptp
  try dsimp only
  repeat' first
    | with_reducible assumption
    | intro _
    | with_reducible apply State.queueEth_keeps
    | with_reducible apply Keeps.ite

theorem State.takeVs_keeps {r0 : State} {s : State} {can : Nat} {i : Nat} {data : List Byte} (hk : Keeps r0 s) : Keeps r0
    (State.takeVs s can i data) := by
  unfold State.takeVs
  try dsimp only
  repeat' first
    | with_reducible assumption
    | intro _
    | with_reducible apply State.modVs_keeps
    | with_reducible apply State.event_keeps
    | with_reducible apply State.evalTriggers_keeps
    | with_reducible apply State.copyVs_keeps
    | with_reducible apply Keeps.ite
    | with_reducible apply Keeps.foldl
    | with_reducible apply Keeps.foldlFst
    | fail_if_no_progress with_reducible apply Keeps.upd
    | split

theorem execCanBusOffRecovery_keeps {r0 : State} {can : Fin 2} {s : State} (hk : Keeps r0 s) : KeepsRes r0
    (execCanBusOffRecovery can s) := by
  unfold execCanBusOffRecovery
  extract_lets a0 a1
  try clear_value a0
  have k1 : Keeps r0 a1
  on_goal 1 => unfold a1
  rotate_left
  clear_value a1
  all_goals repeat' first
    | with_reducible assumption
    | intro _
    | with_reducible apply State.event_keeps
    | with_reducible apply State.setFld_keeps
    | with_reducible apply Keeps.ite
    | with_reducible apply Keeps.foldl
    | with_reducible apply Keeps.foldlFst
    | fail_if_no_progress with_reducible apply Keeps.upd
    | with_reducible apply KeepsRes.next
    | with_reducible apply KeepsRes.ite

theorem execCanFrameRx_keeps {r0 : State} {can : Fin 2} {id : Word} {ext : Bool} {data : List Byte} {s : State} (hk
    : Keeps r0 s) : KeepsRes r0 (execCanFrameRx can id ext data s) := by
  unfold execCanFrameRx
  try dsimp only
  repeat' first
    | with_reducible assumption
    | intro _
    | with_reducible apply State.takeVs_keeps
    | with_reducible apply Keeps.ite
    | with_reducible apply Keeps.foldl
    | with_reducible apply Keeps.foldlFst
    | fail_if_no_progress with_reducible apply Keeps.upd
    | with_reducible apply KeepsRes.next
    | with_reducible apply KeepsRes.ite

theorem execCanFrameTx_keeps {r0 : State} {can : Fin 2} {s : State} (hk : Keeps r0 s) : KeepsRes r0 (execCanFrameTx can s) := by
  unfold execCanFrameTx
  try dsimp only
  repeat' first
    | with_reducible assumption
    | intro _
    | with_reducible apply State.modIo_keeps
    | with_reducible apply Keeps.ite
    | with_reducible apply Keeps.foldl
    | with_reducible apply Keeps.foldlFst
    | fail_if_no_progress with_reducible apply Keeps.upd
    | with_reducible apply KeepsRes.next
    | with_reducible apply KeepsRes.ite
    | split

theorem execEthFrameRx_keeps {r0 : State} {mac : Fin 2} {data : List Byte} {fcsOk : Bool} {s : State} (hk : Keeps r0 s)
    : KeepsRes r0 (execEthFrameRx mac data fcsOk s) := by
  unfold execEthFrameRx
  try dsimp only
  repeat' first
    | with_reducible assumption
    | intro _
    | with_reducible apply State.ethDrop_keeps
    | with_reducible apply State.addCnt_keeps
    | with_reducible apply State.queueEth_keeps
    | with_reducible apply State.ethAccept_keeps
    | with_reducible apply State.takeGptp_keeps
    | with_reducible apply State.takeMessage_keeps
    | with_reducible apply Keeps.ite
    | with_reducible apply Keeps.foldl
    | with_reducible apply Keeps.foldlFst
    | fail_if_no_progress with_reducible apply Keeps.upd
    | with_reducible apply KeepsRes.next
    | with_reducible apply KeepsRes.ite
    | split

theorem execEthFrameTx_keeps {r0 : State} {mac : Fin 2} {s : State} (hk : Keeps r0 s) : KeepsRes r0 (execEthFrameTx mac s) := by
  unfold execEthFrameTx
  extract_lets a0 a1
  try clear_value a0
  have k1 : Keeps r0 a1.2
  on_goal 1 => unfold a1
  rotate_left
  clear_value a1
  all_goals repeat' first
    | with_reducible assumption
    | intro _
    | with_reducible apply State.draw_keeps
    | with_reducible apply State.modIo_keeps
    | with_reducible apply State.followUp_keeps
    | with_reducible apply State.addCnt_keeps
    | with_reducible apply Keeps.ite
    | with_reducible apply Keeps.foldl
    | with_reducible apply Keeps.foldlFst
    | fail_if_no_progress with_reducible apply Keeps.upd
    | with_reducible apply KeepsRes.next
    | with_reducible apply KeepsRes.ite
    | split

theorem execEthLinkChange_keeps {r0 : State} {mac : Fin 2} {up : Bool} {speed : BitVec 2} {s : State} (hk : Keeps r0 s)
    : KeepsRes r0 (execEthLinkChange mac up speed s) := by
  unfold execEthLinkChange
  try dsimp only
  repeat' first
    | with_reducible assumption
    | intro _
    | with_reducible apply State.setFlag_keeps
    | with_reducible apply State.setFld_keeps
    | with_reducible apply State.event_keeps
    | with_reducible apply Keeps.ite
    | with_reducible apply Keeps.foldl
    | with_reducible apply Keeps.foldlFst
    | fail_if_no_progress with_reducible apply Keeps.upd
    | with_reducible apply KeepsRes.next
    | with_reducible apply KeepsRes.ite

theorem execGpioFilterExpiry_keeps {r0 : State} {n : Fin 32} {level : Bool} {s : State} (hk : Keeps r0 s) : KeepsRes r0
    (execGpioFilterExpiry n level s) := by
  unfold execGpioFilterExpiry
  extract_lets a0 a1
  try clear_value a0
  have k1 : Keeps r0 a1
  on_goal 1 => unfold a1
  rotate_left
  clear_value a1
  all_goals repeat' first
    | with_reducible assumption
    | intro _
    | with_reducible apply State.setFlag_keeps
    | with_reducible apply State.evalTriggers_keeps
    | with_reducible apply Keeps.ite
    | with_reducible apply Keeps.foldl
    | with_reducible apply Keeps.foldlFst
    | fail_if_no_progress with_reducible apply Keeps.upd
    | with_reducible apply KeepsRes.next
    | with_reducible apply KeepsRes.ite

theorem execOfCopyDone_keeps {r0 : State} {s : State} (hk : Keeps r0 s) : KeepsRes r0 (execOfCopyDone s) := by
  unfold execOfCopyDone
  try dsimp only
  repeat' first
    | with_reducible assumption
    | intro _
    | with_reducible apply State.modIo_keeps
    | with_reducible apply State.offerPrimary_keeps
    | with_reducible apply State.handOver_keeps
    | with_reducible apply Keeps.ite
    | with_reducible apply Keeps.foldl
    | with_reducible apply Keeps.foldlFst
    | fail_if_no_progress with_reducible apply Keeps.upd
    | with_reducible apply KeepsRes.next
    | with_reducible apply KeepsRes.ite
    | split

theorem execPeerDelayRequest_keeps {r0 : State} {mac : Fin 2} {s : State} (hk : Keeps r0 s) : KeepsRes r0
    (execPeerDelayRequest mac s) := by
  unfold execPeerDelayRequest
  extract_lets a0 a1
  try clear_value a0
  have k1 : Keeps r0 a1.2
  on_goal 1 => unfold a1
  rotate_left
  clear_value a1
  all_goals repeat' first
    | with_reducible assumption
    | intro _
    | with_reducible apply State.draw_keeps
    | with_reducible apply State.queueEth_keeps
    | with_reducible apply Keeps.ite
    | with_reducible apply Keeps.foldl
    | with_reducible apply Keeps.foldlFst
    | fail_if_no_progress with_reducible apply Keeps.upd
    | with_reducible apply KeepsRes.next
    | with_reducible apply KeepsRes.ite

theorem execPpsEdge_keeps {r0 : State} {s : State} (hk : Keeps r0 s) : KeepsRes r0 (execPpsEdge s) := by
  unfold execPpsEdge
  try dsimp only
  repeat' first
    | with_reducible assumption
    | intro _
    | with_reducible apply State.modIo_keeps
    | with_reducible apply State.reach_keeps
    | with_reducible apply Keeps.ite
    | with_reducible apply Keeps.foldl
    | with_reducible apply Keeps.foldlFst
    | fail_if_no_progress with_reducible apply Keeps.upd
    | with_reducible apply KeepsRes.next
    | with_reducible apply KeepsRes.ite

theorem execVsStaleTimeout_keeps {r0 : State} {entry : Fin 32} {s : State} (hk : Keeps r0 s) : KeepsRes r0
    (execVsStaleTimeout entry s) := by
  unfold execVsStaleTimeout
  extract_lets a0 a1 a2 a3
  try clear_value a0
  try clear_value a1
  try clear_value a2
  have k3 : Keeps r0 a3
  on_goal 1 => unfold a3
  rotate_left
  clear_value a3
  all_goals repeat' first
    | with_reducible assumption
    | intro _
    | with_reducible apply State.modVs_keeps
    | with_reducible apply State.reach_keeps
    | with_reducible apply State.evalTriggers_keeps
    | with_reducible apply State.copyVs_keeps
    | with_reducible apply State.event_keeps
    | with_reducible apply Keeps.ite
    | with_reducible apply Keeps.foldl
    | with_reducible apply Keeps.foldlFst
    | fail_if_no_progress with_reducible apply Keeps.upd
    | with_reducible apply KeepsRes.next
    | with_reducible apply KeepsRes.ite

/-! ### Machine/RegOps.lean -/

theorem State.bankRow_keeps {r0 : State} {s : State} {b : Fin 5} {domain : BitVec 4} {o : Nat} {value : Word} (hk
    : Keeps r0 s) : KeepsOpt r0 (State.bankRow s b domain o value) := by
  unfold State.bankRow
  try dsimp only
  repeat' first
    | with_reducible assumption
    | intro _
    | with_reducible apply execFgsPost_keeps
    | with_reducible apply execEjFwPost_keeps
    | with_reducible apply execOfSubGo_keeps
    | with_reducible apply execIspUpdGo_keeps
    | with_reducible apply Keeps.ite
    | with_reducible apply Keeps.foldl
    | with_reducible apply Keeps.foldlFst
    | fail_if_no_progress with_reducible apply Keeps.upd
    | with_reducible apply KeepsOpt.none
    | with_reducible apply KeepsOpt.some
    | with_reducible apply KeepsOpt.ite
    | with_reducible apply KeepsOpt.map

theorem State.clearRegs_keeps {r0 : State} {s : State} {base : Nat} {o : Nat} {value : Word} (hk : Keeps r0 s) : Keeps r0
    (State.clearRegs s base o value) := by
  unfold State.clearRegs
  try dsimp only
  repeat' first
    | with_reducible assumption
    | intro _
    | with_reducible apply State.setReg_keeps
    | with_reducible apply State.modUnit_keeps
    | with_reducible apply Keeps.ite
    | with_reducible apply Keeps.foldl
    | with_reducible apply Keeps.foldlFst
    | fail_if_no_progress with_reducible apply Keeps.upd
    | split

theorem State.commitBlock_keeps {r0 : State} {s : State} {lo : Nat} {hi : Nat} (hk : Keeps r0 s) : Keeps r0
    (State.commitBlock s lo hi) := by
  unfold State.commitBlock
  extract_lets a0 a1
  try clear_value a0
  have k1 : Keeps r0 a1
  on_goal 1 => unfold a1
  rotate_left
  clear_value a1
  all_goals repeat' first
    | with_reducible assumption
    | intro _
    | with_reducible apply State.commitShadows_keeps
    | with_reducible apply State.setShadow_keeps
    | with_reducible apply State.setReg_keeps
    | with_reducible apply Keeps.ite
    | with_reducible apply Keeps.foldl

theorem State.forgetUnits_keeps {r0 : State} {s : State} (hk : Keeps r0 s) : Keeps r0 (State.forgetUnits s) := by
  unfold State.forgetUnits
  try dsimp only
  repeat' first
    | with_reducible assumption
    | intro _
    | with_reducible apply Keeps.ite
    | with_reducible apply Keeps.foldl
    | with_reducible apply Keeps.foldlFst
    | fail_if_no_progress with_reducible apply Keeps.upd

theorem cvuGo_keeps {r0 : State} {n : Fin 8} {domain : BitVec 4} {value : Word} {s : State} (hk : Keeps r0 s) : Keeps r0
    (cvuGo n domain value s) := by
  unfold cvuGo
  extract_lets a0
  have k0 : Keeps r0 a0
  on_goal 1 => unfold a0
  rotate_left
  clear_value a0
  all_goals repeat' first
    | with_reducible assumption
    | intro _
    | with_reducible apply Keeps.orElse
    | with_reducible apply execCvuCancel_keeps
    | with_reducible apply execCvuTapArm_keeps
    | with_reducible apply execCvuMemoryJob_keeps
    | with_reducible apply Keeps.ite

theorem State.instRow_keeps {r0 : State} {s : State} {domain : BitVec 4} {o : Nat} {value : Word} (hk : Keeps r0 s)
    : KeepsOpt r0 (State.instRow s domain o value) := by
  unfold State.instRow
  try dsimp only
  repeat' first
    | with_reducible assumption
    | intro _
    | with_reducible apply execFgsPcDone_keeps
    | with_reducible apply execI3cBatchGo_keeps
    | with_reducible apply execIcuEoi_keeps
    | with_reducible apply execAbortAck_keeps
    | with_reducible apply execSiHbWrite_keeps
    | with_reducible apply execBmResume_keeps
    | with_reducible apply cvuGo_keeps
    | with_reducible apply Keeps.ite
    | with_reducible apply Keeps.foldl
    | with_reducible apply Keeps.foldlFst
    | fail_if_no_progress with_reducible apply Keeps.upd
    | with_reducible apply KeepsOpt.none
    | with_reducible apply KeepsOpt.some
    | with_reducible apply KeepsOpt.ite
    | with_reducible apply KeepsOpt.map
    | with_reducible apply KeepsOpt.bind
    | with_reducible apply KeepsOpt.or
    | with_reducible apply KeepsRes.next

theorem State.singleRow_keeps {r0 : State} {s : State} {domain : BitVec 4} {o : Nat} {value : Word} (hk : Keeps r0 s)
    : KeepsOpt r0 (State.singleRow s domain o value) := by
  unfold State.singleRow
  try dsimp only
  repeat' first
    | with_reducible assumption
    | intro _
    | with_reducible apply execFgsCancel_keeps
    | with_reducible apply execIcuSwiSet_keeps
    | with_reducible apply execIcuSwiClr_keeps
    | with_reducible apply execGpioOutSet_keeps
    | with_reducible apply execGpioOutClr_keeps
    | with_reducible apply Keeps.ite
    | with_reducible apply Keeps.foldl
    | with_reducible apply Keeps.foldlFst
    | fail_if_no_progress with_reducible apply Keeps.upd
    | with_reducible apply KeepsOpt.none
    | with_reducible apply KeepsOpt.some
    | with_reducible apply KeepsOpt.ite

theorem State.tileRow_keeps {r0 : State} {s : State} {domain : BitVec 4} {o : Nat} {value : Word} (hk : Keeps r0 s)
    : KeepsOpt r0 (State.tileRow s domain o value) := by
  unfold State.tileRow
  try dsimp only
  repeat' first
    | with_reducible assumption
    | intro _
    | with_reducible apply execNtWinWrite_keeps
    | with_reducible apply execNtCredWrite_keeps
    | with_reducible apply Keeps.ite
    | with_reducible apply Keeps.foldl
    | with_reducible apply Keeps.foldlFst
    | fail_if_no_progress with_reducible apply Keeps.upd
    | with_reducible apply KeepsOpt.none
    | with_reducible apply KeepsOpt.some
    | with_reducible apply KeepsOpt.ite
    | with_reducible apply KeepsOpt.map
    | with_reducible apply KeepsOpt.bind
    | with_reducible apply KeepsOpt.or
    | with_reducible apply KeepsRes.next
    | with_reducible apply KeepsRes.ite

theorem State.ownRow_keeps {r0 : State} {s : State} {bank : Nat} {domain : BitVec 4} {o : Nat} {value : Word} (hk
    : Keeps r0 s) : KeepsOpt r0 (State.ownRow s bank domain o value) := by
  unfold State.ownRow
  try dsimp only
  repeat' first
    | with_reducible assumption
    | intro _
    | with_reducible apply execFwlRgnCtrlWrite_keeps
    | with_reducible apply State.bankRow_keeps
    | with_reducible apply State.singleRow_keeps
    | with_reducible apply State.instRow_keeps
    | with_reducible apply State.tileRow_keeps
    | with_reducible apply Keeps.ite
    | with_reducible apply Keeps.foldl
    | with_reducible apply Keeps.foldlFst
    | fail_if_no_progress with_reducible apply Keeps.upd
    | with_reducible apply KeepsOpt.none
    | with_reducible apply KeepsOpt.some
    | with_reducible apply KeepsOpt.ite
    | with_reducible apply KeepsOpt.map
    | with_reducible apply KeepsOpt.bind
    | with_reducible apply KeepsOpt.or

theorem State.storeReg_keeps {r0 : State} {s : State} {bank : Nat} {o : Nat} {r : RegSpec} {value : Word} (hk : Keeps r0 s)
    : Keeps r0 (State.storeReg s bank o r value) := by
  unfold State.storeReg
  extract_lets a0 a1 a2 a3 a4
  try clear_value a0
  try clear_value a1
  try clear_value a2
  have k3 : Keeps r0 a3
  on_goal 1 => unfold a3
  rotate_left
  clear_value a3
  have k4 : Keeps r0 a4
  on_goal 1 => unfold a4
  rotate_left
  clear_value a4
  all_goals repeat' first
    | with_reducible assumption
    | intro _
    | with_reducible apply State.setShadow_keeps
    | with_reducible apply State.setReg_keeps
    | with_reducible apply State.log_keeps
    | with_reducible apply Keeps.ite

theorem State.putReg_keeps {r0 : State} {s : State} {bank : Nat} {domain : BitVec 4} {o : Nat} {value : Word} (hk
    : Keeps r0 s) : Keeps r0 (State.putReg s bank domain o value) := by
  unfold State.putReg
  try dsimp only
  repeat' first
    | with_reducible assumption
    | intro _
    | with_reducible apply Keeps.orElse
    | with_reducible apply State.cvuRefuse_keeps
    | with_reducible apply State.clearRegs_keeps
    | with_reducible apply State.storeReg_keeps
    | with_reducible apply execFgsAffinityForget_keeps
    | with_reducible apply Keeps.ite
    | with_reducible apply Keeps.foldl
    | with_reducible apply Keeps.foldlFst
    | fail_if_no_progress with_reducible apply Keeps.upd
    | split
    | dsimp only
    | with_reducible refine (State.ownRow_keeps ?_).of _ ‹_›

theorem State.writeReg_keeps {r0 : State} {s : State} {bank : Nat} {domain : BitVec 4} {off : Nat} {value : Word} (hk
    : Keeps r0 s) : Keeps r0 (State.writeReg s bank domain off value).1 := by
  unfold State.writeReg
  try dsimp only
  repeat' first
    | with_reducible assumption
    | intro _
    | with_reducible apply State.fwRefuse_keeps
    | with_reducible apply State.putReg_keeps
    | with_reducible apply Keeps.ite
    | with_reducible apply Keeps.foldl
    | with_reducible apply Keeps.foldlFst
    | fail_if_no_progress with_reducible apply Keeps.upd
    | split

/-! ### Machine/Registers.lean -/

theorem State.completeAt_keeps {r0 : State} {s : State} {n : Nat} {pc : Word} (hk : Keeps r0 s) : Keeps r0
    (State.completeAt s n pc) := by
  unfold State.completeAt
  try dsimp only
  repeat' first
    | with_reducible assumption
    | intro _
    | with_reducible apply State.modCore_keeps

theorem State.setLoaded_keeps {r0 : State} {s : State} {n : Nat} {fp : Bool} {zext : Bool} {rd : Fin 32} {bs : List Byte} (hk
    : Keeps r0 s) : Keeps r0 (State.setLoaded s n fp zext rd bs) := by
  unfold State.setLoaded
  try dsimp only
  repeat' first
    | with_reducible assumption
    | intro _
    | with_reducible apply State.modCore_keeps

theorem State.fabricAccess_keeps {r0 : State} {s : State} {n : Nat} {domain : Nat} {kind : AccessKind} {rd : Fin 32} {a : Nat}
    {len : Nat} {value : Word} {ecc : List EccHit} (hk : Keeps r0 s) :
    Keeps r0 (State.fabricAccess s n domain kind rd a len value ecc).1 := by
  unfold State.fabricAccess
  extract_lets a0 a1 a2 a3 a4 a5
  try clear_value a0
  have k1 : Keeps r0 a1.1
  on_goal 1 => unfold a1
  rotate_left
  clear_value a1
  have k2 : Keeps r0 a2.1
  on_goal 1 => unfold a2
  rotate_left
  clear_value a2
  have k3 : Keeps r0 a3
  on_goal 1 => unfold a3
  rotate_left
  clear_value a3
  try clear_value a4
  have k5 : Keeps r0 a5.1
  on_goal 1 => unfold a5
  rotate_left
  clear_value a5
  all_goals repeat' first
    | with_reducible assumption
    | intro _
    | with_reducible apply State.eccHits_keeps
    | with_reducible apply State.judgeReads_keeps
    | with_reducible apply State.endRemote_keeps
    | with_reducible apply State.setLoaded_keeps
    | with_reducible apply State.judgeWrites_keeps
    | with_reducible apply State.write_keeps
    | with_reducible apply Keeps.ite
    | with_reducible apply Keeps.foldl
    | with_reducible apply Keeps.foldlFst
    | fail_if_no_progress with_reducible apply Keeps.upd
    | split

theorem State.ownAccess_keeps {r0 : State} {s : State} {n : Nat} {kind : AccessKind} {rd : Fin 32} {off : Nat} {len : Nat}
    {value : Word} (hk : Keeps r0 s) : Keeps r0 (State.ownAccess s n kind rd off len value) := by
  unfold State.ownAccess
  extract_lets a0 a1 a2 a3 a4
  try clear_value a0
  try clear_value a1
  try clear_value a2
  try clear_value a3
  have k4 : Keeps r0 a4
  on_goal 1 => unfold a4
  rotate_left
  clear_value a4
  all_goals repeat' first
    | with_reducible assumption
    | intro _
    | with_reducible apply State.setLoaded_keeps
    | with_reducible apply State.store_keeps
    | with_reducible apply State.modCore_keeps
    | with_reducible apply Keeps.ite
    | with_reducible apply Keeps.foldl
    | with_reducible apply Keeps.foldlFst
    | fail_if_no_progress with_reducible apply Keeps.upd
    | split

theorem State.readEffect_keeps {r0 : State} {s : State} {bank : Nat} {o : Nat} (hk : Keeps r0 s) : Keeps r0
    (State.readEffect s bank o) := by
  unfold State.readEffect
  try dsimp only
  repeat' first
    | with_reducible assumption
    | intro _
    | with_reducible apply Keeps.orElse
    | with_reducible apply State.captureNow_keeps
    | with_reducible apply execMcFlagHiRead_keeps
    | with_reducible apply execFgsDisp0Read_keeps
    | with_reducible apply execCanVsStateRead_keeps
    | with_reducible apply Keeps.ite
    | with_reducible apply Keeps.foldl
    | with_reducible apply Keeps.foldlFst
    | fail_if_no_progress with_reducible apply Keeps.upd
    | split

theorem State.readReg_keeps {r0 : State} {s : State} {bank : Nat} {domain : Nat} {off : Nat} (hk : Keeps r0 s) : Keeps r0
    (State.readReg s bank domain off).1 := by
  unfold State.readReg
  extract_lets a0 a1 a2
  try clear_value a0
  try clear_value a1
  have k2 : Keeps r0 a2.2
  on_goal 1 => unfold a2
  rotate_left
  clear_value a2
  all_goals repeat' first
    | with_reducible assumption
    | intro _
    | with_reducible apply State.fwRefuse_keeps
    | with_reducible apply State.draw_keeps
    | with_reducible apply State.readEffect_keeps
    | with_reducible apply Keeps.ite
    | with_reducible apply Keeps.foldl
    | with_reducible apply Keeps.foldlFst
    | fail_if_no_progress with_reducible apply Keeps.upd
    | split

theorem State.regAccess_keeps {r0 : State} {s : State} {n : Nat} {domain : Nat} {kind : AccessKind} {rd : Fin 32} {off : Nat}
    {len : Nat} {value : Word} (hk : Keeps r0 s) : Keeps r0 (State.regAccess s n domain kind rd off len value).1 := by
  unfold State.regAccess
  extract_lets a0 a1 a2 a3 a4
  try clear_value a0
  have k1 : Keeps r0 a1.1
  on_goal 1 => unfold a1
  rotate_left
  clear_value a1
  have k2 : Keeps r0 a2.2
  on_goal 1 => unfold a2
  rotate_left
  clear_value a2
  try clear_value a3
  try clear_value a4
  all_goals repeat' first
    | with_reducible assumption
    | intro _
    | with_reducible apply State.readReg_keeps
    | with_reducible apply State.setLoaded_keeps
    | with_reducible apply State.writeReg_keeps
    | with_reducible apply State.draw_keeps
    | with_reducible apply Keeps.ite
    | with_reducible apply Keeps.foldl
    | with_reducible apply Keeps.foldlFst
    | fail_if_no_progress with_reducible apply Keeps.upd
    | split

theorem State.ownEcc_keeps {r0 : State} {s : State} {n : Nat} {ecc : List EccHit} (hk : Keeps r0 s) :
    Keeps r0 (State.ownEcc s n ecc) := by
  unfold State.ownEcc
  repeat' first
    | with_reducible assumption
    | intro _
    | with_reducible apply State.eccCorrected_keeps
    | with_reducible apply Keeps.foldl

theorem execPcDataAccess_keeps {r0 : State} {pair : Fin 4} {kind : AccessKind} {rd : Fin 32} {pc : Word} {addr : Word}
    {value : Word} {size : Fin 3} {ecc : List EccHit} {s : State} (hk : Keeps r0 s) : KeepsRes r0
    (execPcDataAccess pair kind rd pc addr value size ecc s) := by
  unfold execPcDataAccess
  extract_lets a0 a1 a2 a3 a4 a5
  try clear_value a0
  try clear_value a1
  try clear_value a2
  try clear_value a3
  try clear_value a4
  have k5 : Keeps r0 a5
  on_goal 1 => unfold a5
  rotate_left
  clear_value a5
  all_goals repeat' first
    | with_reducible assumption
    | intro _
    | with_reducible apply State.event_keeps
    | with_reducible apply State.trap_keeps
    | with_reducible apply State.ownEcc_keeps
    | with_reducible apply State.completeAt_keeps
    | with_reducible apply State.ownAccess_keeps
    | with_reducible apply State.regAccess_keeps
    | with_reducible apply State.fabricAccess_keeps
    | with_reducible apply Keeps.ite
    | with_reducible apply Keeps.foldl
    | with_reducible apply Keeps.foldlFst
    | fail_if_no_progress with_reducible apply Keeps.upd
    | with_reducible apply KeepsRes.next
    | with_reducible apply KeepsRes.ite
    | split
    | dsimp only

theorem execRegisterWrite_keeps {r0 : State} {bank : Fin 6} {domain : BitVec 4} {offset : BitVec 24} {value : Word}
    {s : State} (hk : Keeps r0 s) : KeepsRes r0 (execRegisterWrite bank domain offset value s) := by
  unfold execRegisterWrite
  try dsimp only
  repeat' first
    | with_reducible assumption
    | intro _
    | with_reducible apply State.writeReg_keeps
    | with_reducible apply Keeps.ite
    | with_reducible apply Keeps.foldl
    | with_reducible apply Keeps.foldlFst
    | fail_if_no_progress with_reducible apply Keeps.upd
    | with_reducible apply KeepsRes.next
    | with_reducible apply KeepsRes.ite

theorem execShCommit_keeps {r0 : State} {blk : ShBlock} {s : State} (hk : Keeps r0 s) : KeepsRes r0 (execShCommit blk s) := by
  unfold execShCommit
  extract_lets a0
  have k0 : Keeps r0 a0
  on_goal 1 => unfold a0
  rotate_left
  clear_value a0
  all_goals repeat' first
    | with_reducible assumption
    | intro _
    | with_reducible apply State.commitBlock_keeps
    | with_reducible apply State.forgetUnits_keeps
    | with_reducible apply State.refreshActive_keeps
    | with_reducible apply Keeps.ite
    | with_reducible apply Keeps.foldl
    | with_reducible apply Keeps.foldlFst
    | fail_if_no_progress with_reducible apply Keeps.upd
    | with_reducible apply KeepsRes.next
    | with_reducible apply KeepsRes.ite
    | split

theorem execSysPcApertureWrite_keeps {r0 : State} {pair : Fin 4} {offset : BitVec 8} {value : Word} {s : State} (hk
    : Keeps r0 s) : KeepsRes r0 (execSysPcApertureWrite pair offset value s) := by
  unfold execSysPcApertureWrite
  try dsimp only
  repeat' first
    | with_reducible assumption
    | intro _
    | with_reducible apply State.setReg_keeps
    | with_reducible apply Keeps.ite
    | with_reducible apply Keeps.foldl
    | with_reducible apply Keeps.foldlFst
    | fail_if_no_progress with_reducible apply Keeps.upd
    | with_reducible apply KeepsRes.next
    | with_reducible apply KeepsRes.ite

/-! ### Machine/Scene.lean -/

theorem State.killOne_keeps {r0 : State} {s : State} {i : Inst} (hk : Keeps r0 s) : Keeps r0 (State.killOne s i) := by
  unfold State.killOne
  try dsimp only
  repeat' first
    | with_reducible assumption
    | intro _
    | with_reducible apply State.cancel_keeps
    | with_reducible apply State.log_keeps
    | with_reducible apply Keeps.ite
    | with_reducible apply Keeps.foldl
    | with_reducible apply Keeps.foldlFst
    | fail_if_no_progress with_reducible apply Keeps.upd
    | split

theorem execDwellExpiry_keeps {r0 : State} {s : State} (hk : Keeps r0 s) : KeepsRes r0 (execDwellExpiry s) := by
  unfold execDwellExpiry
  try dsimp only
  repeat' first
    | with_reducible assumption
    | intro _
    | with_reducible apply State.reach_keeps
    | with_reducible apply State.setFlag_keeps
    | with_reducible apply State.actOn_keeps
    | with_reducible apply Keeps.ite
    | with_reducible apply Keeps.foldl
    | with_reducible apply Keeps.foldlFst
    | fail_if_no_progress with_reducible apply Keeps.upd
    | with_reducible apply KeepsRes.next
    | with_reducible apply KeepsRes.ite
    | split

theorem execSwitchBind_keeps {r0 : State} {layer : Half} {s : State} (hk : Keeps r0 s) : KeepsRes r0
    (execSwitchBind layer s) := by
  unfold execSwitchBind
  try dsimp only
  repeat' first
    | with_reducible assumption
    | intro _
    | with_reducible apply State.phase_keeps
    | with_reducible apply State.modSwitch_keeps
    | with_reducible apply State.bindLayer_keeps
    | with_reducible apply Keeps.ite
    | with_reducible apply Keeps.foldl
    | with_reducible apply Keeps.foldlFst
    | fail_if_no_progress with_reducible apply Keeps.upd
    | with_reducible apply KeepsRes.next
    | with_reducible apply KeepsRes.ite
    | split

theorem execSwitchCinder_keeps {r0 : State} {layer : Half} {s : State} (hk : Keeps r0 s) : KeepsRes r0
    (execSwitchCinder layer s) := by
  unfold execSwitchCinder
  try dsimp only
  repeat' first
    | with_reducible assumption
    | intro _
    | with_reducible apply State.cinderLayer_keeps
    | with_reducible apply Keeps.ite
    | with_reducible apply Keeps.foldl
    | with_reducible apply Keeps.foldlFst
    | fail_if_no_progress with_reducible apply Keeps.upd
    | with_reducible apply KeepsRes.next
    | with_reducible apply KeepsRes.ite
    | split

theorem execSwitchDrainKill_keeps {r0 : State} {s : State} (hk : Keeps r0 s) : KeepsRes r0 (execSwitchDrainKill s) := by
  unfold execSwitchDrainKill
  try dsimp only
  repeat' first
    | with_reducible assumption
    | intro _
    | with_reducible apply State.reach_keeps
    | with_reducible apply State.killOne_keeps
    | with_reducible apply State.modSwitch_keeps
    | with_reducible apply Keeps.ite
    | with_reducible apply Keeps.foldl
    | with_reducible apply Keeps.foldlFst
    | fail_if_no_progress with_reducible apply Keeps.upd
    | with_reducible apply KeepsRes.next
    | with_reducible apply KeepsRes.ite
    | split

theorem execSwitchOpen_keeps {r0 : State} {s : State} (hk : Keeps r0 s) : KeepsRes r0 (execSwitchOpen s) := by
  unfold execSwitchOpen
  try dsimp only
  repeat' first
    | with_reducible assumption
    | intro _
    | with_reducible apply State.openSwitch_keeps
    | with_reducible apply Keeps.ite
    | with_reducible apply Keeps.foldl
    | with_reducible apply Keeps.foldlFst
    | fail_if_no_progress with_reducible apply Keeps.upd
    | with_reducible apply KeepsRes.next
    | with_reducible apply KeepsRes.ite
    | split

/-! ### Machine/Sensors.lean -/

theorem State.modRun_keeps {r0 : State} {s : State} {bus : Nat} {f : SeqRun → SeqRun} (hk : Keeps r0 s) : Keeps r0
    (State.modRun s bus f) := by
  unfold State.modRun
  try dsimp only
  repeat' first
    | with_reducible assumption
    | intro _
    | with_reducible apply State.modKin_keeps

theorem State.seqNextProfile_keeps {r0 : State} {s : State} {bus : Nat} (hk : Keeps r0 s) : Keeps r0
    (State.seqNextProfile s bus) := by
  unfold State.seqNextProfile
  try dsimp only
  repeat' first
    | with_reducible assumption
    | intro _
    | with_reducible apply State.modRun_keeps

theorem State.seqFail_keeps {r0 : State} {s : State} {bus : Nat} {r : SeqRun} {p : SensorRec} {nack : Bool} (hk : Keeps r0 s)
    : Keeps r0 (State.seqFail s bus r p nack) := by
  unfold State.seqFail
  extract_lets a0 a1
  have k0 : Keeps r0 a0
  on_goal 1 => unfold a0
  rotate_left
  clear_value a0
  have k1 : Keeps r0 a1
  on_goal 1 => unfold a1
  rotate_left
  clear_value a1
  all_goals repeat' first
    | with_reducible assumption
    | intro _
    | with_reducible apply State.log_keeps
    | with_reducible apply State.modRun_keeps
    | with_reducible apply State.seqNextProfile_keeps
    | with_reducible apply State.markAbsent_keeps
    | with_reducible apply State.fence_keeps
    | with_reducible apply Keeps.ite
    | with_reducible apply Keeps.foldl
    | with_reducible apply Keeps.foldlFst
    | fail_if_no_progress with_reducible apply Keeps.upd
    | split

theorem State.seqNext_keeps {r0 : State} {s : State} {bus : Nat} {p : SensorRec} (hk : Keeps r0 s) : Keeps r0
    (State.seqNext s bus p) := by
  unfold State.seqNext
  try dsimp only
  repeat' first
    | with_reducible assumption
    | intro _
    | with_reducible apply State.modRun_keeps

theorem execSensorRetryTimer_keeps {r0 : State} {bus : Fin 4} {s : State} (hk : Keeps r0 s) : KeepsRes r0
    (execSensorRetryTimer bus s) := by
  unfold execSensorRetryTimer
  try dsimp only
  repeat' first
    | with_reducible assumption
    | intro _
    | with_reducible apply State.reach_keeps
    | with_reducible apply State.modRun_keeps
    | with_reducible apply Keeps.ite
    | with_reducible apply Keeps.foldl
    | with_reducible apply Keeps.foldlFst
    | fail_if_no_progress with_reducible apply Keeps.upd
    | with_reducible apply KeepsRes.next
    | with_reducible apply KeepsRes.ite
    | split

theorem execSeqEnd_keeps {r0 : State} {bus : Fin 4} {s : State} (hk : Keeps r0 s) : KeepsRes r0 (execSeqEnd bus s) := by
  unfold execSeqEnd
  try dsimp only
  repeat' first
    | with_reducible assumption
    | intro _
    | with_reducible apply State.seqNextProfile_keeps
    | with_reducible apply Keeps.ite
    | with_reducible apply Keeps.foldl
    | with_reducible apply Keeps.foldlFst
    | fail_if_no_progress with_reducible apply Keeps.upd
    | with_reducible apply KeepsRes.next
    | with_reducible apply KeepsRes.ite
    | split

theorem execSeqFsyncEnable_keeps {r0 : State} {bus : Fin 4} {s : State} (hk : Keeps r0 s) : KeepsRes r0
    (execSeqFsyncEnable bus s) := by
  unfold execSeqFsyncEnable
  try dsimp only
  repeat' first
    | with_reducible assumption
    | intro _
    | with_reducible apply State.seqNext_keeps
    | with_reducible apply Keeps.ite
    | with_reducible apply Keeps.foldl
    | with_reducible apply Keeps.foldlFst
    | fail_if_no_progress with_reducible apply Keeps.upd
    | with_reducible apply KeepsRes.next
    | with_reducible apply KeepsRes.ite
    | split

theorem execSeqGpio_keeps {r0 : State} {bus : Fin 4} {s : State} (hk : Keeps r0 s) : KeepsRes r0 (execSeqGpio bus s) := by
  unfold execSeqGpio
  try dsimp only
  repeat' first
    | with_reducible assumption
    | intro _
    | with_reducible apply State.modPins_keeps
    | with_reducible apply State.seqNext_keeps
    | with_reducible apply Keeps.ite
    | with_reducible apply Keeps.foldl
    | with_reducible apply Keeps.foldlFst
    | fail_if_no_progress with_reducible apply Keeps.upd
    | with_reducible apply KeepsRes.next
    | with_reducible apply KeepsRes.ite
    | split

theorem execSeqPoll_keeps {r0 : State} {bus : Fin 4} {ack : Bool} {value : Half} {s : State} (hk : Keeps r0 s) : KeepsRes r0
    (execSeqPoll bus ack value s) := by
  unfold execSeqPoll
  try dsimp only
  repeat' first
    | with_reducible assumption
    | intro _
    | with_reducible apply State.reach_keeps
    | with_reducible apply State.seqFail_keeps
    | with_reducible apply State.seqNext_keeps
    | with_reducible apply State.modRun_keeps
    | with_reducible apply Keeps.ite
    | with_reducible apply Keeps.foldl
    | with_reducible apply Keeps.foldlFst
    | fail_if_no_progress with_reducible apply Keeps.upd
    | with_reducible apply KeepsRes.next
    | with_reducible apply KeepsRes.ite
    | split

theorem execSeqReadExpect_keeps {r0 : State} {bus : Fin 4} {ack : Bool} {value : Word} {s : State} (hk : Keeps r0 s)
    : KeepsRes r0 (execSeqReadExpect bus ack value s) := by
  unfold execSeqReadExpect
  try dsimp only
  repeat' first
    | with_reducible assumption
    | intro _
    | with_reducible apply State.seqFail_keeps
    | with_reducible apply State.seqNext_keeps
    | with_reducible apply Keeps.ite
    | with_reducible apply Keeps.foldl
    | with_reducible apply Keeps.foldlFst
    | fail_if_no_progress with_reducible apply Keeps.upd
    | with_reducible apply KeepsRes.next
    | with_reducible apply KeepsRes.ite
    | split

theorem execSeqWait_keeps {r0 : State} {bus : Fin 4} {s : State} (hk : Keeps r0 s) : KeepsRes r0 (execSeqWait bus s) := by
  unfold execSeqWait
  try dsimp only
  repeat' first
    | with_reducible assumption
    | intro _
    | with_reducible apply State.seqNext_keeps
    | with_reducible apply State.reach_keeps
    | with_reducible apply Keeps.ite
    | with_reducible apply Keeps.foldl
    | with_reducible apply Keeps.foldlFst
    | fail_if_no_progress with_reducible apply Keeps.upd
    | with_reducible apply KeepsRes.next
    | with_reducible apply KeepsRes.ite
    | split

theorem execSeqWrite_keeps {r0 : State} {bus : Fin 4} {ack : Bool} {s : State} (hk : Keeps r0 s) : KeepsRes r0
    (execSeqWrite bus ack s) := by
  unfold execSeqWrite
  try dsimp only
  repeat' first
    | with_reducible assumption
    | intro _
    | with_reducible apply State.seqNext_keeps
    | with_reducible apply State.seqFail_keeps
    | with_reducible apply Keeps.ite
    | with_reducible apply Keeps.foldl
    | with_reducible apply Keeps.foldlFst
    | fail_if_no_progress with_reducible apply Keeps.upd
    | with_reducible apply KeepsRes.next
    | with_reducible apply KeepsRes.ite
    | split

end Sys2Proof.Machine
end

