-- ==== Sys2Proof/Laws/Same.lean ====
section
/-! SUPPORT. What every operation of the model leaves alone, component by component of the state. `Same w r t` says that t
agrees with r in each component whose bit of w is 0; the components are numbered in the order of `State`:
0 regs, 1 shadow, 2 mem, 3 flags, 4 now, 5 free, 6 otp, 7 flash,
8 tl, 9 pins, 10 kin, 11 scene, 12 fgs, 13 mm, 14 cores, 15 units,
16 journal, 17 safety, 18 adapt, 19 maint, 20 cam, 21 isp, 22 io, 23 gml,
24 cvus, 25 carry, 26 nts, 27 patterns, 28 icu, 29 pending. -/

namespace Sys2Proof.Machine

open Sys2Proof

/-- Every bit of a is a bit of b. -/
def sub (a b : Nat) : Bool := a &&& b == a

theorem sub_trans {a b c : Nat} (h1 : sub a b = true) (h2 : sub b c = true) : sub a c = true := by
  simp only [sub, beq_iff_eq] at h1 h2 ⊢
  rw [← h1, Nat.and_assoc, h2]

theorem sub_bit {a b i : Nat} (h : sub a b = true) (hi : a.testBit i = true) : b.testBit i = true := by
  simp only [sub, beq_iff_eq] at h
  rw [← h, Nat.testBit_and] at hi
  simp only [Bool.and_eq_true] at hi
  exact hi.2

/-- t agrees with r in every component whose bit of w is 0. -/
structure Same (w : Nat) (r t : State) : Prop where
  regs : w.testBit 0 = false → t.regs = r.regs
  shadow : w.testBit 1 = false → t.shadow = r.shadow
  mem : w.testBit 2 = false → t.mem = r.mem
  flags : w.testBit 3 = false → t.flags = r.flags
  now : w.testBit 4 = false → t.now = r.now
  free : w.testBit 5 = false → t.free = r.free
  otp : w.testBit 6 = false → t.otp = r.otp
  flash : w.testBit 7 = false → t.flash = r.flash
  tl : w.testBit 8 = false → t.tl = r.tl
  pins : w.testBit 9 = false → t.pins = r.pins
  kin : w.testBit 10 = false → t.kin = r.kin
  scene : w.testBit 11 = false → t.scene = r.scene
  fgs : w.testBit 12 = false → t.fgs = r.fgs
  mm : w.testBit 13 = false → t.mm = r.mm
  cores : w.testBit 14 = false → t.cores = r.cores
  units : w.testBit 15 = false → t.units = r.units
  journal : w.testBit 16 = false → t.journal = r.journal
  safety : w.testBit 17 = false → t.safety = r.safety
  adapt : w.testBit 18 = false → t.adapt = r.adapt
  maint : w.testBit 19 = false → t.maint = r.maint
  cam : w.testBit 20 = false → t.cam = r.cam
  isp : w.testBit 21 = false → t.isp = r.isp
  io : w.testBit 22 = false → t.io = r.io
  gml : w.testBit 23 = false → t.gml = r.gml
  cvus : w.testBit 24 = false → t.cvus = r.cvus
  carry : w.testBit 25 = false → t.carry = r.carry
  nts : w.testBit 26 = false → t.nts = r.nts
  patterns : w.testBit 27 = false → t.patterns = r.patterns
  icu : w.testBit 28 = false → t.icu = r.icu
  pending : w.testBit 29 = false → t.pending = r.pending

theorem Same.refl {w : Nat} (s : State) : Same w s s :=
  ⟨fun _ => rfl, fun _ => rfl, fun _ => rfl, fun _ => rfl, fun _ => rfl, fun _ => rfl, fun _ => rfl, fun _ => rfl, fun _ => rfl, fun _ => rfl, fun _ => rfl, fun _ => rfl, fun _ => rfl, fun _ => rfl, fun _ => rfl, fun _ => rfl, fun _ => rfl, fun _ => rfl, fun _ => rfl, fun _ => rfl, fun _ => rfl, fun _ => rfl, fun _ => rfl, fun _ => rfl, fun _ => rfl, fun _ => rfl, fun _ => rfl, fun _ => rfl, fun _ => rfl, fun _ => rfl⟩

theorem Same.ite {w : Nat} {r a b : State} {c : Prop} [Decidable c] (ha : Same w r a) (hb : Same w r b) :
    Same w r (if c then a else b) := by
  split <;> assumption

theorem Same.foldl {w : Nat} {r : State} {α : Type} {l : List α} {F : State → α → State} {s : State}
    (hF : ∀ s x, Same w r s → Same w r (F s x)) (h : Same w r s) : Same w r (l.foldl F s) := by
  induction l generalizing s with
  | nil => exact h
  | cons x t ih => exact ih (hF s x h)

theorem Same.of_fst {w : Nat} {r t : State} {β : Type} {x : β} {p : State × β} (h : Same w r p.1) (e : p = (t, x)) : Same w r t := by
  subst e; exact h

theorem Same.of_snd {w : Nat} {r t : State} {β : Type} {x : β} {p : β × State} (h : Same w r p.2) (e : p = (x, t)) : Same w r t := by
  subst e; exact h

theorem Same.pair {w : Nat} {r t : State} {β : Type} {x : β} (h : Same w r t) : Same w r (t, x).1 := h

theorem Same.foldlFst {w : Nat} {r : State} {α β : Type} {l : List α} {F : State × β → α → State × β} {p : State × β}
    (hF : ∀ p x, Same w r p.1 → Same w r (F p x).1) (h : Same w r p.1) : Same w r (l.foldl F p).1 := by
  induction l generalizing p with
  | nil => exact h
  | cons x t ih => exact ih (hF p x h)

/-- The answer of a command leaves alone what `Same` says, where it is a next state. -/
structure SameRes (w : Nat) (r : State) (a : Res) : Prop where
  of : ∀ t, a = .next t → Same w r t

theorem SameRes.next {w : Nat} {r t : State} (h : Same w r t) : SameRes w r (.next t) := ⟨fun _ e => by cases e; exact h⟩

theorem SameRes.ite {w : Nat} {r : State} {a b : Res} {c : Prop} [Decidable c] (ha : SameRes w r a) (hb : SameRes w r b) :
    SameRes w r (if c then a else b) := by
  split <;> assumption

theorem Same.orElse {w : Nat} {r s : State} {a : Res} (h : Same w r s) (ha : SameRes w r a) : Same w r (a.orElse s) := by
  unfold Res.orElse
  split
  · exact ha.of _ rfl
  · exact h

/-- The same of the answer of a row that an access has of its own. -/
structure SameOpt (w : Nat) (r : State) (o : Option Res) : Prop where
  of : ∀ p, o = some p → SameRes w r p

theorem SameOpt.none {w : Nat} {r : State} : SameOpt w r none := ⟨fun _ e => by cases e⟩

theorem SameOpt.some {w : Nat} {r : State} {a : Res} (h : SameRes w r a) : SameOpt w r (some a) := ⟨fun _ e => by cases e; exact h⟩

theorem SameOpt.ite {w : Nat} {r : State} {a b : Option Res} {c : Prop} [Decidable c] (ha : SameOpt w r a) (hb : SameOpt w r b) :
    SameOpt w r (if c then a else b) := by
  split <;> assumption

theorem SameOpt.map {w : Nat} {r : State} {α : Type} {o : Option α} {f : α → Res} (h : ∀ x, SameRes w r (f x)) :
    SameOpt w r (o.map f) := by
  cases o with
  | none => exact SameOpt.none
  | some x => exact SameOpt.some (h x)

theorem SameOpt.bind {w : Nat} {r : State} {α : Type} {o : Option α} {f : α → Option Res} (h : ∀ x, SameOpt w r (f x)) :
    SameOpt w r (o.bind f) := by
  cases o with
  | none => exact SameOpt.none
  | some x => exact h x

theorem SameOpt.or {w : Nat} {r : State} {a b : Option Res} (ha : SameOpt w r a) (hb : SameOpt w r b) : SameOpt w r (a <|> b) := by
  cases a with
  | none => simpa using hb
  | some x => simpa using ha

/-! ### Updates, by the components they set -/

theorem Same.upd_0 {w : Nat} {r s : State} {x0} (h : Same w r s) (hw : sub 1 w = true) : Same w r (State.mk x0 s.shadow
    s.mem s.flags s.now s.free s.otp s.flash s.tl s.pins s.kin s.scene s.fgs s.mm s.cores s.units s.journal s.safety s.adapt
    s.maint s.cam s.isp s.io s.gml s.cvus s.carry s.nts s.patterns s.icu s.pending) := ⟨fun e => absurd (sub_bit hw (i := 0)
    rfl) (by simp [e]), h.shadow, h.mem, h.flags, h.now, h.free, h.otp, h.flash, h.tl, h.pins, h.kin, h.scene, h.fgs, h.mm,
    h.cores, h.units, h.journal, h.safety, h.adapt, h.maint, h.cam, h.isp, h.io, h.gml, h.cvus, h.carry, h.nts, h.patterns,
    h.icu, h.pending⟩

theorem Same.upd_1 {w : Nat} {r s : State} {x1} (h : Same w r s) (hw : sub 2 w = true) : Same w r (State.mk s.regs x1 s.mem
    s.flags s.now s.free s.otp s.flash s.tl s.pins s.kin s.scene s.fgs s.mm s.cores s.units s.journal s.safety s.adapt
    s.maint s.cam s.isp s.io s.gml s.cvus s.carry s.nts s.patterns s.icu s.pending) := ⟨h.regs, fun e => absurd (sub_bit hw
    (i := 1) rfl) (by simp [e]), h.mem, h.flags, h.now, h.free, h.otp, h.flash, h.tl, h.pins, h.kin, h.scene, h.fgs, h.mm,
    h.cores, h.units, h.journal, h.safety, h.adapt, h.maint, h.cam, h.isp, h.io, h.gml, h.cvus, h.carry, h.nts, h.patterns,
    h.icu, h.pending⟩

theorem Same.upd_2 {w : Nat} {r s : State} {x2} (h : Same w r s) (hw : sub 4 w = true) : Same w r (State.mk s.regs s.shadow
    x2 s.flags s.now s.free s.otp s.flash s.tl s.pins s.kin s.scene s.fgs s.mm s.cores s.units s.journal s.safety s.adapt
    s.maint s.cam s.isp s.io s.gml s.cvus s.carry s.nts s.patterns s.icu s.pending) := ⟨h.regs, h.shadow, fun e => absurd
    (sub_bit hw (i := 2) rfl) (by simp [e]), h.flags, h.now, h.free, h.otp, h.flash, h.tl, h.pins, h.kin, h.scene, h.fgs,
    h.mm, h.cores, h.units, h.journal, h.safety, h.adapt, h.maint, h.cam, h.isp, h.io, h.gml, h.cvus, h.carry, h.nts,
    h.patterns, h.icu, h.pending⟩

theorem Same.upd_3 {w : Nat} {r s : State} {x3} (h : Same w r s) (hw : sub 8 w = true) : Same w r (State.mk s.regs s.shadow
    s.mem x3 s.now s.free s.otp s.flash s.tl s.pins s.kin s.scene s.fgs s.mm s.cores s.units s.journal s.safety s.adapt
    s.maint s.cam s.isp s.io s.gml s.cvus s.carry s.nts s.patterns s.icu s.pending) := ⟨h.regs, h.shadow, h.mem, fun e =>
    absurd (sub_bit hw (i := 3) rfl) (by simp [e]), h.now, h.free, h.otp, h.flash, h.tl, h.pins, h.kin, h.scene, h.fgs,
    h.mm, h.cores, h.units, h.journal, h.safety, h.adapt, h.maint, h.cam, h.isp, h.io, h.gml, h.cvus, h.carry, h.nts,
    h.patterns, h.icu, h.pending⟩

theorem Same.upd_4 {w : Nat} {r s : State} {x4} (h : Same w r s) (hw : sub 16 w = true) : Same w r (State.mk s.regs s.shadow
    s.mem s.flags x4 s.free s.otp s.flash s.tl s.pins s.kin s.scene s.fgs s.mm s.cores s.units s.journal s.safety s.adapt
    s.maint s.cam s.isp s.io s.gml s.cvus s.carry s.nts s.patterns s.icu s.pending) := ⟨h.regs, h.shadow, h.mem, h.flags,
    fun e => absurd (sub_bit hw (i := 4) rfl) (by simp [e]), h.free, h.otp, h.flash, h.tl, h.pins, h.kin, h.scene, h.fgs,
    h.mm, h.cores, h.units, h.journal, h.safety, h.adapt, h.maint, h.cam, h.isp, h.io, h.gml, h.cvus, h.carry, h.nts,
    h.patterns, h.icu, h.pending⟩

theorem Same.upd_5 {w : Nat} {r s : State} {x5} (h : Same w r s) (hw : sub 32 w = true) : Same w r (State.mk s.regs s.shadow
    s.mem s.flags s.now x5 s.otp s.flash s.tl s.pins s.kin s.scene s.fgs s.mm s.cores s.units s.journal s.safety s.adapt
    s.maint s.cam s.isp s.io s.gml s.cvus s.carry s.nts s.patterns s.icu s.pending) := ⟨h.regs, h.shadow, h.mem, h.flags,
    h.now, fun e => absurd (sub_bit hw (i := 5) rfl) (by simp [e]), h.otp, h.flash, h.tl, h.pins, h.kin, h.scene, h.fgs,
    h.mm, h.cores, h.units, h.journal, h.safety, h.adapt, h.maint, h.cam, h.isp, h.io, h.gml, h.cvus, h.carry, h.nts,
    h.patterns, h.icu, h.pending⟩

theorem Same.upd_6 {w : Nat} {r s : State} {x6} (h : Same w r s) (hw : sub 64 w = true) : Same w r (State.mk s.regs s.shadow
    s.mem s.flags s.now s.free x6 s.flash s.tl s.pins s.kin s.scene s.fgs s.mm s.cores s.units s.journal s.safety s.adapt
    s.maint s.cam s.isp s.io s.gml s.cvus s.carry s.nts s.patterns s.icu s.pending) := ⟨h.regs, h.shadow, h.mem, h.flags,
    h.now, h.free, fun e => absurd (sub_bit hw (i := 6) rfl) (by simp [e]), h.flash, h.tl, h.pins, h.kin, h.scene, h.fgs,
    h.mm, h.cores, h.units, h.journal, h.safety, h.adapt, h.maint, h.cam, h.isp, h.io, h.gml, h.cvus, h.carry, h.nts,
    h.patterns, h.icu, h.pending⟩

theorem Same.upd_7 {w : Nat} {r s : State} {x7} (h : Same w r s) (hw : sub 128 w = true) : Same w r (State.mk s.regs
    s.shadow s.mem s.flags s.now s.free s.otp x7 s.tl s.pins s.kin s.scene s.fgs s.mm s.cores s.units s.journal s.safety
    s.adapt s.maint s.cam s.isp s.io s.gml s.cvus s.carry s.nts s.patterns s.icu s.pending) := ⟨h.regs, h.shadow, h.mem,
    h.flags, h.now, h.free, h.otp, fun e => absurd (sub_bit hw (i := 7) rfl) (by simp [e]), h.tl, h.pins, h.kin, h.scene,
    h.fgs, h.mm, h.cores, h.units, h.journal, h.safety, h.adapt, h.maint, h.cam, h.isp, h.io, h.gml, h.cvus, h.carry, h.nts,
    h.patterns, h.icu, h.pending⟩

theorem Same.upd_8 {w : Nat} {r s : State} {x8} (h : Same w r s) (hw : sub 256 w = true) : Same w r (State.mk s.regs
    s.shadow s.mem s.flags s.now s.free s.otp s.flash x8 s.pins s.kin s.scene s.fgs s.mm s.cores s.units s.journal s.safety
    s.adapt s.maint s.cam s.isp s.io s.gml s.cvus s.carry s.nts s.patterns s.icu s.pending) := ⟨h.regs, h.shadow, h.mem,
    h.flags, h.now, h.free, h.otp, h.flash, fun e => absurd (sub_bit hw (i := 8) rfl) (by simp [e]), h.pins, h.kin, h.scene,
    h.fgs, h.mm, h.cores, h.units, h.journal, h.safety, h.adapt, h.maint, h.cam, h.isp, h.io, h.gml, h.cvus, h.carry, h.nts,
    h.patterns, h.icu, h.pending⟩

theorem Same.upd_9 {w : Nat} {r s : State} {x9} (h : Same w r s) (hw : sub 512 w = true) : Same w r (State.mk s.regs
    s.shadow s.mem s.flags s.now s.free s.otp s.flash s.tl x9 s.kin s.scene s.fgs s.mm s.cores s.units s.journal s.safety
    s.adapt s.maint s.cam s.isp s.io s.gml s.cvus s.carry s.nts s.patterns s.icu s.pending) := ⟨h.regs, h.shadow, h.mem,
    h.flags, h.now, h.free, h.otp, h.flash, h.tl, fun e => absurd (sub_bit hw (i := 9) rfl) (by simp [e]), h.kin, h.scene,
    h.fgs, h.mm, h.cores, h.units, h.journal, h.safety, h.adapt, h.maint, h.cam, h.isp, h.io, h.gml, h.cvus, h.carry, h.nts,
    h.patterns, h.icu, h.pending⟩

theorem Same.upd_10 {w : Nat} {r s : State} {x10} (h : Same w r s) (hw : sub 1024 w = true) : Same w r (State.mk s.regs
    s.shadow s.mem s.flags s.now s.free s.otp s.flash s.tl s.pins x10 s.scene s.fgs s.mm s.cores s.units s.journal s.safety
    s.adapt s.maint s.cam s.isp s.io s.gml s.cvus s.carry s.nts s.patterns s.icu s.pending) := ⟨h.regs, h.shadow, h.mem,
    h.flags, h.now, h.free, h.otp, h.flash, h.tl, h.pins, fun e => absurd (sub_bit hw (i := 10) rfl) (by simp [e]), h.scene,
    h.fgs, h.mm, h.cores, h.units, h.journal, h.safety, h.adapt, h.maint, h.cam, h.isp, h.io, h.gml, h.cvus, h.carry, h.nts,
    h.patterns, h.icu, h.pending⟩

theorem Same.upd_11 {w : Nat} {r s : State} {x11} (h : Same w r s) (hw : sub 2048 w = true) : Same w r (State.mk s.regs
    s.shadow s.mem s.flags s.now s.free s.otp s.flash s.tl s.pins s.kin x11 s.fgs s.mm s.cores s.units s.journal s.safety
    s.adapt s.maint s.cam s.isp s.io s.gml s.cvus s.carry s.nts s.patterns s.icu s.pending) := ⟨h.regs, h.shadow, h.mem,
    h.flags, h.now, h.free, h.otp, h.flash, h.tl, h.pins, h.kin, fun e => absurd (sub_bit hw (i := 11) rfl) (by simp [e]),
    h.fgs, h.mm, h.cores, h.units, h.journal, h.safety, h.adapt, h.maint, h.cam, h.isp, h.io, h.gml, h.cvus, h.carry, h.nts,
    h.patterns, h.icu, h.pending⟩

theorem Same.upd_12 {w : Nat} {r s : State} {x12} (h : Same w r s) (hw : sub 4096 w = true) : Same w r (State.mk s.regs
    s.shadow s.mem s.flags s.now s.free s.otp s.flash s.tl s.pins s.kin s.scene x12 s.mm s.cores s.units s.journal s.safety
    s.adapt s.maint s.cam s.isp s.io s.gml s.cvus s.carry s.nts s.patterns s.icu s.pending) := ⟨h.regs, h.shadow, h.mem,
    h.flags, h.now, h.free, h.otp, h.flash, h.tl, h.pins, h.kin, h.scene, fun e => absurd (sub_bit hw (i := 12) rfl) (by
    simp [e]), h.mm, h.cores, h.units, h.journal, h.safety, h.adapt, h.maint, h.cam, h.isp, h.io, h.gml, h.cvus, h.carry,
    h.nts, h.patterns, h.icu, h.pending⟩

theorem Same.upd_13 {w : Nat} {r s : State} {x13} (h : Same w r s) (hw : sub 8192 w = true) : Same w r (State.mk s.regs
    s.shadow s.mem s.flags s.now s.free s.otp s.flash s.tl s.pins s.kin s.scene s.fgs x13 s.cores s.units s.journal s.safety
    s.adapt s.maint s.cam s.isp s.io s.gml s.cvus s.carry s.nts s.patterns s.icu s.pending) := ⟨h.regs, h.shadow, h.mem,
    h.flags, h.now, h.free, h.otp, h.flash, h.tl, h.pins, h.kin, h.scene, h.fgs, fun e => absurd (sub_bit hw (i := 13) rfl)
    (by simp [e]), h.cores, h.units, h.journal, h.safety, h.adapt, h.maint, h.cam, h.isp, h.io, h.gml, h.cvus, h.carry,
    h.nts, h.patterns, h.icu, h.pending⟩

theorem Same.upd_14 {w : Nat} {r s : State} {x14} (h : Same w r s) (hw : sub 16384 w = true) : Same w r (State.mk s.regs
    s.shadow s.mem s.flags s.now s.free s.otp s.flash s.tl s.pins s.kin s.scene s.fgs s.mm x14 s.units s.journal s.safety
    s.adapt s.maint s.cam s.isp s.io s.gml s.cvus s.carry s.nts s.patterns s.icu s.pending) := ⟨h.regs, h.shadow, h.mem,
    h.flags, h.now, h.free, h.otp, h.flash, h.tl, h.pins, h.kin, h.scene, h.fgs, h.mm, fun e => absurd (sub_bit hw (i := 14)
    rfl) (by simp [e]), h.units, h.journal, h.safety, h.adapt, h.maint, h.cam, h.isp, h.io, h.gml, h.cvus, h.carry, h.nts,
    h.patterns, h.icu, h.pending⟩

theorem Same.upd_15 {w : Nat} {r s : State} {x15} (h : Same w r s) (hw : sub 32768 w = true) : Same w r (State.mk s.regs
    s.shadow s.mem s.flags s.now s.free s.otp s.flash s.tl s.pins s.kin s.scene s.fgs s.mm s.cores x15 s.journal s.safety
    s.adapt s.maint s.cam s.isp s.io s.gml s.cvus s.carry s.nts s.patterns s.icu s.pending) := ⟨h.regs, h.shadow, h.mem,
    h.flags, h.now, h.free, h.otp, h.flash, h.tl, h.pins, h.kin, h.scene, h.fgs, h.mm, h.cores, fun e => absurd (sub_bit hw
    (i := 15) rfl) (by simp [e]), h.journal, h.safety, h.adapt, h.maint, h.cam, h.isp, h.io, h.gml, h.cvus, h.carry, h.nts,
    h.patterns, h.icu, h.pending⟩

theorem Same.upd_16 {w : Nat} {r s : State} {x16} (h : Same w r s) (hw : sub 65536 w = true) : Same w r (State.mk s.regs
    s.shadow s.mem s.flags s.now s.free s.otp s.flash s.tl s.pins s.kin s.scene s.fgs s.mm s.cores s.units x16 s.safety
    s.adapt s.maint s.cam s.isp s.io s.gml s.cvus s.carry s.nts s.patterns s.icu s.pending) := ⟨h.regs, h.shadow, h.mem,
    h.flags, h.now, h.free, h.otp, h.flash, h.tl, h.pins, h.kin, h.scene, h.fgs, h.mm, h.cores, h.units, fun e => absurd
    (sub_bit hw (i := 16) rfl) (by simp [e]), h.safety, h.adapt, h.maint, h.cam, h.isp, h.io, h.gml, h.cvus, h.carry, h.nts,
    h.patterns, h.icu, h.pending⟩

theorem Same.upd_17 {w : Nat} {r s : State} {x17} (h : Same w r s) (hw : sub 131072 w = true) : Same w r (State.mk s.regs
    s.shadow s.mem s.flags s.now s.free s.otp s.flash s.tl s.pins s.kin s.scene s.fgs s.mm s.cores s.units s.journal x17
    s.adapt s.maint s.cam s.isp s.io s.gml s.cvus s.carry s.nts s.patterns s.icu s.pending) := ⟨h.regs, h.shadow, h.mem,
    h.flags, h.now, h.free, h.otp, h.flash, h.tl, h.pins, h.kin, h.scene, h.fgs, h.mm, h.cores, h.units, h.journal, fun e =>
    absurd (sub_bit hw (i := 17) rfl) (by simp [e]), h.adapt, h.maint, h.cam, h.isp, h.io, h.gml, h.cvus, h.carry, h.nts,
    h.patterns, h.icu, h.pending⟩

theorem Same.upd_18 {w : Nat} {r s : State} {x18} (h : Same w r s) (hw : sub 262144 w = true) : Same w r (State.mk s.regs
    s.shadow s.mem s.flags s.now s.free s.otp s.flash s.tl s.pins s.kin s.scene s.fgs s.mm s.cores s.units s.journal
    s.safety x18 s.maint s.cam s.isp s.io s.gml s.cvus s.carry s.nts s.patterns s.icu s.pending) := ⟨h.regs, h.shadow,
    h.mem, h.flags, h.now, h.free, h.otp, h.flash, h.tl, h.pins, h.kin, h.scene, h.fgs, h.mm, h.cores, h.units, h.journal,
    h.safety, fun e => absurd (sub_bit hw (i := 18) rfl) (by simp [e]), h.maint, h.cam, h.isp, h.io, h.gml, h.cvus, h.carry,
    h.nts, h.patterns, h.icu, h.pending⟩

theorem Same.upd_19 {w : Nat} {r s : State} {x19} (h : Same w r s) (hw : sub 524288 w = true) : Same w r (State.mk s.regs
    s.shadow s.mem s.flags s.now s.free s.otp s.flash s.tl s.pins s.kin s.scene s.fgs s.mm s.cores s.units s.journal
    s.safety s.adapt x19 s.cam s.isp s.io s.gml s.cvus s.carry s.nts s.patterns s.icu s.pending) := ⟨h.regs, h.shadow,
    h.mem, h.flags, h.now, h.free, h.otp, h.flash, h.tl, h.pins, h.kin, h.scene, h.fgs, h.mm, h.cores, h.units, h.journal,
    h.safety, h.adapt, fun e => absurd (sub_bit hw (i := 19) rfl) (by simp [e]), h.cam, h.isp, h.io, h.gml, h.cvus, h.carry,
    h.nts, h.patterns, h.icu, h.pending⟩

theorem Same.upd_20 {w : Nat} {r s : State} {x20} (h : Same w r s) (hw : sub 1048576 w = true) : Same w r (State.mk s.regs
    s.shadow s.mem s.flags s.now s.free s.otp s.flash s.tl s.pins s.kin s.scene s.fgs s.mm s.cores s.units s.journal
    s.safety s.adapt s.maint x20 s.isp s.io s.gml s.cvus s.carry s.nts s.patterns s.icu s.pending) := ⟨h.regs, h.shadow,
    h.mem, h.flags, h.now, h.free, h.otp, h.flash, h.tl, h.pins, h.kin, h.scene, h.fgs, h.mm, h.cores, h.units, h.journal,
    h.safety, h.adapt, h.maint, fun e => absurd (sub_bit hw (i := 20) rfl) (by simp [e]), h.isp, h.io, h.gml, h.cvus,
    h.carry, h.nts, h.patterns, h.icu, h.pending⟩

theorem Same.upd_21 {w : Nat} {r s : State} {x21} (h : Same w r s) (hw : sub 2097152 w = true) : Same w r (State.mk s.regs
    s.shadow s.mem s.flags s.now s.free s.otp s.flash s.tl s.pins s.kin s.scene s.fgs s.mm s.cores s.units s.journal
    s.safety s.adapt s.maint s.cam x21 s.io s.gml s.cvus s.carry s.nts s.patterns s.icu s.pending) := ⟨h.regs, h.shadow,
    h.mem, h.flags, h.now, h.free, h.otp, h.flash, h.tl, h.pins, h.kin, h.scene, h.fgs, h.mm, h.cores, h.units, h.journal,
    h.safety, h.adapt, h.maint, h.cam, fun e => absurd (sub_bit hw (i := 21) rfl) (by simp [e]), h.io, h.gml, h.cvus,
    h.carry, h.nts, h.patterns, h.icu, h.pending⟩

theorem Same.upd_22 {w : Nat} {r s : State} {x22} (h : Same w r s) (hw : sub 4194304 w = true) : Same w r (State.mk s.regs
    s.shadow s.mem s.flags s.now s.free s.otp s.flash s.tl s.pins s.kin s.scene s.fgs s.mm s.cores s.units s.journal
    s.safety s.adapt s.maint s.cam s.isp x22 s.gml s.cvus s.carry s.nts s.patterns s.icu s.pending) := ⟨h.regs, h.shadow,
    h.mem, h.flags, h.now, h.free, h.otp, h.flash, h.tl, h.pins, h.kin, h.scene, h.fgs, h.mm, h.cores, h.units, h.journal,
    h.safety, h.adapt, h.maint, h.cam, h.isp, fun e => absurd (sub_bit hw (i := 22) rfl) (by simp [e]), h.gml, h.cvus,
    h.carry, h.nts, h.patterns, h.icu, h.pending⟩

theorem Same.upd_23 {w : Nat} {r s : State} {x23} (h : Same w r s) (hw : sub 8388608 w = true) : Same w r (State.mk s.regs
    s.shadow s.mem s.flags s.now s.free s.otp s.flash s.tl s.pins s.kin s.scene s.fgs s.mm s.cores s.units s.journal
    s.safety s.adapt s.maint s.cam s.isp s.io x23 s.cvus s.carry s.nts s.patterns s.icu s.pending) := ⟨h.regs, h.shadow,
    h.mem, h.flags, h.now, h.free, h.otp, h.flash, h.tl, h.pins, h.kin, h.scene, h.fgs, h.mm, h.cores, h.units, h.journal,
    h.safety, h.adapt, h.maint, h.cam, h.isp, h.io, fun e => absurd (sub_bit hw (i := 23) rfl) (by simp [e]), h.cvus,
    h.carry, h.nts, h.patterns, h.icu, h.pending⟩

theorem Same.upd_24 {w : Nat} {r s : State} {x24} (h : Same w r s) (hw : sub 16777216 w = true) : Same w r (State.mk s.regs
    s.shadow s.mem s.flags s.now s.free s.otp s.flash s.tl s.pins s.kin s.scene s.fgs s.mm s.cores s.units s.journal
    s.safety s.adapt s.maint s.cam s.isp s.io s.gml x24 s.carry s.nts s.patterns s.icu s.pending) := ⟨h.regs, h.shadow,
    h.mem, h.flags, h.now, h.free, h.otp, h.flash, h.tl, h.pins, h.kin, h.scene, h.fgs, h.mm, h.cores, h.units, h.journal,
    h.safety, h.adapt, h.maint, h.cam, h.isp, h.io, h.gml, fun e => absurd (sub_bit hw (i := 24) rfl) (by simp [e]),
    h.carry, h.nts, h.patterns, h.icu, h.pending⟩

theorem Same.upd_25 {w : Nat} {r s : State} {x25} (h : Same w r s) (hw : sub 33554432 w = true) : Same w r (State.mk s.regs
    s.shadow s.mem s.flags s.now s.free s.otp s.flash s.tl s.pins s.kin s.scene s.fgs s.mm s.cores s.units s.journal
    s.safety s.adapt s.maint s.cam s.isp s.io s.gml s.cvus x25 s.nts s.patterns s.icu s.pending) := ⟨h.regs, h.shadow,
    h.mem, h.flags, h.now, h.free, h.otp, h.flash, h.tl, h.pins, h.kin, h.scene, h.fgs, h.mm, h.cores, h.units, h.journal,
    h.safety, h.adapt, h.maint, h.cam, h.isp, h.io, h.gml, h.cvus, fun e => absurd (sub_bit hw (i := 25) rfl) (by simp [e]),
    h.nts, h.patterns, h.icu, h.pending⟩

theorem Same.upd_26 {w : Nat} {r s : State} {x26} (h : Same w r s) (hw : sub 67108864 w = true) : Same w r (State.mk s.regs
    s.shadow s.mem s.flags s.now s.free s.otp s.flash s.tl s.pins s.kin s.scene s.fgs s.mm s.cores s.units s.journal
    s.safety s.adapt s.maint s.cam s.isp s.io s.gml s.cvus s.carry x26 s.patterns s.icu s.pending) := ⟨h.regs, h.shadow,
    h.mem, h.flags, h.now, h.free, h.otp, h.flash, h.tl, h.pins, h.kin, h.scene, h.fgs, h.mm, h.cores, h.units, h.journal,
    h.safety, h.adapt, h.maint, h.cam, h.isp, h.io, h.gml, h.cvus, h.carry, fun e => absurd (sub_bit hw (i := 26) rfl) (by
    simp [e]), h.patterns, h.icu, h.pending⟩

theorem Same.upd_27 {w : Nat} {r s : State} {x27} (h : Same w r s) (hw : sub 134217728 w = true) : Same w r (State.mk s.regs
    s.shadow s.mem s.flags s.now s.free s.otp s.flash s.tl s.pins s.kin s.scene s.fgs s.mm s.cores s.units s.journal
    s.safety s.adapt s.maint s.cam s.isp s.io s.gml s.cvus s.carry s.nts x27 s.icu s.pending) := ⟨h.regs, h.shadow, h.mem,
    h.flags, h.now, h.free, h.otp, h.flash, h.tl, h.pins, h.kin, h.scene, h.fgs, h.mm, h.cores, h.units, h.journal,
    h.safety, h.adapt, h.maint, h.cam, h.isp, h.io, h.gml, h.cvus, h.carry, h.nts, fun e => absurd (sub_bit hw (i := 27)
    rfl) (by simp [e]), h.icu, h.pending⟩

theorem Same.upd_28 {w : Nat} {r s : State} {x28} (h : Same w r s) (hw : sub 268435456 w = true) : Same w r (State.mk s.regs
    s.shadow s.mem s.flags s.now s.free s.otp s.flash s.tl s.pins s.kin s.scene s.fgs s.mm s.cores s.units s.journal
    s.safety s.adapt s.maint s.cam s.isp s.io s.gml s.cvus s.carry s.nts s.patterns x28 s.pending) := ⟨h.regs, h.shadow,
    h.mem, h.flags, h.now, h.free, h.otp, h.flash, h.tl, h.pins, h.kin, h.scene, h.fgs, h.mm, h.cores, h.units, h.journal,
    h.safety, h.adapt, h.maint, h.cam, h.isp, h.io, h.gml, h.cvus, h.carry, h.nts, h.patterns, fun e => absurd (sub_bit hw
    (i := 28) rfl) (by simp [e]), h.pending⟩

theorem Same.upd_11_12_17 {w : Nat} {r s : State} {x11 x12 x17} (h : Same w r s) (hw : sub 137216 w = true) : Same w r
    (State.mk s.regs s.shadow s.mem s.flags s.now s.free s.otp s.flash s.tl s.pins s.kin x11 x12 s.mm s.cores s.units
    s.journal x17 s.adapt s.maint s.cam s.isp s.io s.gml s.cvus s.carry s.nts s.patterns s.icu s.pending) := ⟨h.regs,
    h.shadow, h.mem, h.flags, h.now, h.free, h.otp, h.flash, h.tl, h.pins, h.kin, fun e => absurd (sub_bit hw (i := 11) rfl)
    (by simp [e]), fun e => absurd (sub_bit hw (i := 12) rfl) (by simp [e]), h.mm, h.cores, h.units, h.journal, fun e =>
    absurd (sub_bit hw (i := 17) rfl) (by simp [e]), h.adapt, h.maint, h.cam, h.isp, h.io, h.gml, h.cvus, h.carry, h.nts,
    h.patterns, h.icu, h.pending⟩

theorem Same.upd_4_10_11_12_15_20 {w : Nat} {r s : State} {x4 x10 x11 x12 x15 x20} (h : Same w r s) (hw : sub 1088528 w =
    true) : Same w r (State.mk s.regs s.shadow s.mem s.flags x4 s.free s.otp s.flash s.tl s.pins x10 x11 x12 s.mm s.cores
    x15 s.journal s.safety s.adapt s.maint x20 s.isp s.io s.gml s.cvus s.carry s.nts s.patterns s.icu s.pending) := ⟨h.regs,
    h.shadow, h.mem, h.flags, fun e => absurd (sub_bit hw (i := 4) rfl) (by simp [e]), h.free, h.otp, h.flash, h.tl, h.pins,
    fun e => absurd (sub_bit hw (i := 10) rfl) (by simp [e]), fun e => absurd (sub_bit hw (i := 11) rfl) (by simp [e]), fun
    e => absurd (sub_bit hw (i := 12) rfl) (by simp [e]), h.mm, h.cores, fun e => absurd (sub_bit hw (i := 15) rfl) (by simp
    [e]), h.journal, h.safety, h.adapt, h.maint, fun e => absurd (sub_bit hw (i := 20) rfl) (by simp [e]), h.isp, h.io,
    h.gml, h.cvus, h.carry, h.nts, h.patterns, h.icu, h.pending⟩

theorem Same.upd_13_17_21_22_23 {w : Nat} {r s : State} {x13 x17 x21 x22 x23} (h : Same w r s) (hw : sub 14819328 w = true)
    : Same w r (State.mk s.regs s.shadow s.mem s.flags s.now s.free s.otp s.flash s.tl s.pins s.kin s.scene s.fgs x13
    s.cores s.units s.journal x17 s.adapt s.maint s.cam x21 x22 x23 s.cvus s.carry s.nts s.patterns s.icu s.pending) :=
    ⟨h.regs, h.shadow, h.mem, h.flags, h.now, h.free, h.otp, h.flash, h.tl, h.pins, h.kin, h.scene, h.fgs, fun e => absurd
    (sub_bit hw (i := 13) rfl) (by simp [e]), h.cores, h.units, h.journal, fun e => absurd (sub_bit hw (i := 17) rfl) (by
    simp [e]), h.adapt, h.maint, h.cam, fun e => absurd (sub_bit hw (i := 21) rfl) (by simp [e]), fun e => absurd (sub_bit
    hw (i := 22) rfl) (by simp [e]), fun e => absurd (sub_bit hw (i := 23) rfl) (by simp [e]), h.cvus, h.carry, h.nts,
    h.patterns, h.icu, h.pending⟩

theorem Same.upd_16_18_19_26 {w : Nat} {r s : State} {x16 x18 x19 x26} (h : Same w r s) (hw : sub 67960832 w = true) : Same
    w r (State.mk s.regs s.shadow s.mem s.flags s.now s.free s.otp s.flash s.tl s.pins s.kin s.scene s.fgs s.mm s.cores
    s.units x16 s.safety x18 x19 s.cam s.isp s.io s.gml s.cvus s.carry x26 s.patterns s.icu s.pending) := ⟨h.regs, h.shadow,
    h.mem, h.flags, h.now, h.free, h.otp, h.flash, h.tl, h.pins, h.kin, h.scene, h.fgs, h.mm, h.cores, h.units, fun e =>
    absurd (sub_bit hw (i := 16) rfl) (by simp [e]), h.safety, fun e => absurd (sub_bit hw (i := 18) rfl) (by simp [e]), fun
    e => absurd (sub_bit hw (i := 19) rfl) (by simp [e]), h.cam, h.isp, h.io, h.gml, h.cvus, h.carry, fun e => absurd
    (sub_bit hw (i := 26) rfl) (by simp [e]), h.patterns, h.icu, h.pending⟩

theorem Same.upd_2_13 {w : Nat} {r s : State} {x2 x13} (h : Same w r s) (hw : sub 8196 w = true) : Same w r (State.mk s.regs
    s.shadow x2 s.flags s.now s.free s.otp s.flash s.tl s.pins s.kin s.scene s.fgs x13 s.cores s.units s.journal s.safety
    s.adapt s.maint s.cam s.isp s.io s.gml s.cvus s.carry s.nts s.patterns s.icu s.pending) := ⟨h.regs, h.shadow, fun e =>
    absurd (sub_bit hw (i := 2) rfl) (by simp [e]), h.flags, h.now, h.free, h.otp, h.flash, h.tl, h.pins, h.kin, h.scene,
    h.fgs, fun e => absurd (sub_bit hw (i := 13) rfl) (by simp [e]), h.cores, h.units, h.journal, h.safety, h.adapt,
    h.maint, h.cam, h.isp, h.io, h.gml, h.cvus, h.carry, h.nts, h.patterns, h.icu, h.pending⟩

theorem Same.upd_13_18 {w : Nat} {r s : State} {x13 x18} (h : Same w r s) (hw : sub 270336 w = true) : Same w r (State.mk
    s.regs s.shadow s.mem s.flags s.now s.free s.otp s.flash s.tl s.pins s.kin s.scene s.fgs x13 s.cores s.units s.journal
    s.safety x18 s.maint s.cam s.isp s.io s.gml s.cvus s.carry s.nts s.patterns s.icu s.pending) := ⟨h.regs, h.shadow,
    h.mem, h.flags, h.now, h.free, h.otp, h.flash, h.tl, h.pins, h.kin, h.scene, h.fgs, fun e => absurd (sub_bit hw (i :=
    13) rfl) (by simp [e]), h.cores, h.units, h.journal, h.safety, fun e => absurd (sub_bit hw (i := 18) rfl) (by simp [e]),
    h.maint, h.cam, h.isp, h.io, h.gml, h.cvus, h.carry, h.nts, h.patterns, h.icu, h.pending⟩

theorem Same.upd_12_17 {w : Nat} {r s : State} {x12 x17} (h : Same w r s) (hw : sub 135168 w = true) : Same w r (State.mk
    s.regs s.shadow s.mem s.flags s.now s.free s.otp s.flash s.tl s.pins s.kin s.scene x12 s.mm s.cores s.units s.journal
    x17 s.adapt s.maint s.cam s.isp s.io s.gml s.cvus s.carry s.nts s.patterns s.icu s.pending) := ⟨h.regs, h.shadow, h.mem,
    h.flags, h.now, h.free, h.otp, h.flash, h.tl, h.pins, h.kin, h.scene, fun e => absurd (sub_bit hw (i := 12) rfl) (by
    simp [e]), h.mm, h.cores, h.units, h.journal, fun e => absurd (sub_bit hw (i := 17) rfl) (by simp [e]), h.adapt,
    h.maint, h.cam, h.isp, h.io, h.gml, h.cvus, h.carry, h.nts, h.patterns, h.icu, h.pending⟩

theorem Same.upd_11_12 {w : Nat} {r s : State} {x11 x12} (h : Same w r s) (hw : sub 6144 w = true) : Same w r (State.mk
    s.regs s.shadow s.mem s.flags s.now s.free s.otp s.flash s.tl s.pins s.kin x11 x12 s.mm s.cores s.units s.journal
    s.safety s.adapt s.maint s.cam s.isp s.io s.gml s.cvus s.carry s.nts s.patterns s.icu s.pending) := ⟨h.regs, h.shadow,
    h.mem, h.flags, h.now, h.free, h.otp, h.flash, h.tl, h.pins, h.kin, fun e => absurd (sub_bit hw (i := 11) rfl) (by simp
    [e]), fun e => absurd (sub_bit hw (i := 12) rfl) (by simp [e]), h.mm, h.cores, h.units, h.journal, h.safety, h.adapt,
    h.maint, h.cam, h.isp, h.io, h.gml, h.cvus, h.carry, h.nts, h.patterns, h.icu, h.pending⟩

theorem Same.upd_7_10 {w : Nat} {r s : State} {x7 x10} (h : Same w r s) (hw : sub 1152 w = true) : Same w r (State.mk s.regs
    s.shadow s.mem s.flags s.now s.free s.otp x7 s.tl s.pins x10 s.scene s.fgs s.mm s.cores s.units s.journal s.safety
    s.adapt s.maint s.cam s.isp s.io s.gml s.cvus s.carry s.nts s.patterns s.icu s.pending) := ⟨h.regs, h.shadow, h.mem,
    h.flags, h.now, h.free, h.otp, fun e => absurd (sub_bit hw (i := 7) rfl) (by simp [e]), h.tl, h.pins, fun e => absurd
    (sub_bit hw (i := 10) rfl) (by simp [e]), h.scene, h.fgs, h.mm, h.cores, h.units, h.journal, h.safety, h.adapt, h.maint,
    h.cam, h.isp, h.io, h.gml, h.cvus, h.carry, h.nts, h.patterns, h.icu, h.pending⟩

theorem Same.upd_0_9 {w : Nat} {r s : State} {x0 x9} (h : Same w r s) (hw : sub 513 w = true) : Same w r (State.mk x0
    s.shadow s.mem s.flags s.now s.free s.otp s.flash s.tl x9 s.kin s.scene s.fgs s.mm s.cores s.units s.journal s.safety
    s.adapt s.maint s.cam s.isp s.io s.gml s.cvus s.carry s.nts s.patterns s.icu s.pending) := ⟨fun e => absurd (sub_bit hw
    (i := 0) rfl) (by simp [e]), h.shadow, h.mem, h.flags, h.now, h.free, h.otp, h.flash, h.tl, fun e => absurd (sub_bit hw
    (i := 9) rfl) (by simp [e]), h.kin, h.scene, h.fgs, h.mm, h.cores, h.units, h.journal, h.safety, h.adapt, h.maint,
    h.cam, h.isp, h.io, h.gml, h.cvus, h.carry, h.nts, h.patterns, h.icu, h.pending⟩

theorem Same.upd_16_17 {w : Nat} {r s : State} {x16 x17} (h : Same w r s) (hw : sub 196608 w = true) : Same w r (State.mk
    s.regs s.shadow s.mem s.flags s.now s.free s.otp s.flash s.tl s.pins s.kin s.scene s.fgs s.mm s.cores s.units x16 x17
    s.adapt s.maint s.cam s.isp s.io s.gml s.cvus s.carry s.nts s.patterns s.icu s.pending) := ⟨h.regs, h.shadow, h.mem,
    h.flags, h.now, h.free, h.otp, h.flash, h.tl, h.pins, h.kin, h.scene, h.fgs, h.mm, h.cores, h.units, fun e => absurd
    (sub_bit hw (i := 16) rfl) (by simp [e]), fun e => absurd (sub_bit hw (i := 17) rfl) (by simp [e]), h.adapt, h.maint,
    h.cam, h.isp, h.io, h.gml, h.cvus, h.carry, h.nts, h.patterns, h.icu, h.pending⟩

theorem State.coreOff_same {w : Nat} {r0 s : State} (h : Same w r0 s) (hw : sub 536870543 w = true) : Same w r0 s.coreOff :=
    ⟨fun e => absurd (sub_bit hw (i := 0) rfl) (by simp [e]), fun e => absurd (sub_bit hw (i := 1) rfl) (by simp [e]), fun e
    => absurd (sub_bit hw (i := 2) rfl) (by simp [e]), fun e => absurd (sub_bit hw (i := 3) rfl) (by simp [e]), h.now,
    h.free, h.otp, fun e => absurd (sub_bit hw (i := 7) rfl) (by simp [e]), h.tl, fun e => absurd (sub_bit hw (i := 9) rfl)
    (by simp [e]), fun e => absurd (sub_bit hw (i := 10) rfl) (by simp [e]), fun e => absurd (sub_bit hw (i := 11) rfl) (by
    simp [e]), fun e => absurd (sub_bit hw (i := 12) rfl) (by simp [e]), fun e => absurd (sub_bit hw (i := 13) rfl) (by simp
    [e]), fun e => absurd (sub_bit hw (i := 14) rfl) (by simp [e]), fun e => absurd (sub_bit hw (i := 15) rfl) (by simp
    [e]), fun e => absurd (sub_bit hw (i := 16) rfl) (by simp [e]), fun e => absurd (sub_bit hw (i := 17) rfl) (by simp
    [e]), fun e => absurd (sub_bit hw (i := 18) rfl) (by simp [e]), fun e => absurd (sub_bit hw (i := 19) rfl) (by simp
    [e]), fun e => absurd (sub_bit hw (i := 20) rfl) (by simp [e]), fun e => absurd (sub_bit hw (i := 21) rfl) (by simp
    [e]), fun e => absurd (sub_bit hw (i := 22) rfl) (by simp [e]), fun e => absurd (sub_bit hw (i := 23) rfl) (by simp
    [e]), fun e => absurd (sub_bit hw (i := 24) rfl) (by simp [e]), fun e => absurd (sub_bit hw (i := 25) rfl) (by simp
    [e]), fun e => absurd (sub_bit hw (i := 26) rfl) (by simp [e]), fun e => absurd (sub_bit hw (i := 27) rfl) (by simp
    [e]), fun e => absurd (sub_bit hw (i := 28) rfl) (by simp [e]), h.pending⟩

end Sys2Proof.Machine
end

