-- ==== Sys2Proof/Laws/SameOps.lean ====
section
/-! SUPPORT. That the shared operations leave alone what the bits of their masks do not name: one lemma for each, in the order of the model's files. -/

namespace Sys2Proof.Machine

open Sys2Proof

/-! ### Machine/Ops.lean -/

theorem State.setReg_same {m0 : Nat} {r0 : State} {s : State} {a : Nat} {v : Word} (hk : Same m0 r0 s) (hw : sub 1 m0 = true)
    : Same m0 r0 (State.setReg s a v) := by
  unfold State.setReg
  have b0 : sub 1 m0 = true := sub_trans rfl hw
  try dsimp only
  repeat' first
    | with_reducible assumption
    | exact sub_trans rfl hw
    | intro _
    | with_reducible apply Same.ite
    | with_reducible apply Same.foldl
    | with_reducible apply Same.foldlFst
    | fail_if_no_progress with_reducible refine Same.upd_0 ?_ b0

theorem State.setFld_same {m0 : Nat} {r0 : State} {s : State} {a : Nat} {b : Bits} {v : Nat} (hk : Same m0 r0 s)
    (hw : sub 1 m0 = true) : Same m0 r0 (State.setFld s a b v) := by
  unfold State.setFld
  try dsimp only
  repeat' first
    | with_reducible assumption
    | exact sub_trans rfl hw
    | intro _
    | with_reducible apply State.setReg_same

theorem State.setFlag_same {m0 : Nat} {r0 : State} {s : State} {a : Nat} {b : Bits} {v : Bool} (hk : Same m0 r0 s)
    (hw : sub 1 m0 = true) : Same m0 r0 (State.setFlag s a b v) := by
  unfold State.setFlag
  try dsimp only
  repeat' first
    | with_reducible assumption
    | exact sub_trans rfl hw
    | intro _
    | with_reducible apply State.setFld_same

theorem State.event_same {m0 : Nat} {r0 : State} {s : State} {a : Nat} {b : Bits} (hk : Same m0 r0 s) (hw : sub 1 m0 = true)
    : Same m0 r0 (State.event s a b) := by
  unfold State.event
  try dsimp only
  repeat' first
    | with_reducible assumption
    | exact sub_trans rfl hw
    | intro _
    | with_reducible apply State.setFld_same

theorem State.addFld_same {m0 : Nat} {r0 : State} {s : State} {a : Nat} {b : Bits} {n : Nat} (hk : Same m0 r0 s)
    (hw : sub 1 m0 = true) : Same m0 r0 (State.addFld s a b n) := by
  unfold State.addFld
  try dsimp only
  repeat' first
    | with_reducible assumption
    | exact sub_trans rfl hw
    | intro _
    | with_reducible apply State.setFld_same

theorem State.addCnt_same {m0 : Nat} {r0 : State} {s : State} {a : Nat} {n : Nat} (hk : Same m0 r0 s) (hw : sub 1 m0 = true)
    : Same m0 r0 (State.addCnt s a n) := by
  unfold State.addCnt
  try dsimp only
  repeat' first
    | with_reducible assumption
    | exact sub_trans rfl hw
    | intro _
    | with_reducible apply State.addFld_same

theorem State.loseRecord_same {m0 : Nat} {r0 : State} {s : State} {source : Nat} (hk : Same m0 r0 s)
    (hw : sub 65537 m0 = true) : Same m0 r0 (State.loseRecord s source) := by
  unfold State.loseRecord
  have b16 : sub 65536 m0 = true := sub_trans rfl hw
  extract_lets a0 a1
  have k0 : Same m0 r0 a0
  on_goal 1 => unfold a0
  rotate_left
  clear_value a0
  try clear_value a1
  all_goals repeat' first
    | with_reducible assumption
    | exact sub_trans rfl hw
    | intro _
    | with_reducible apply State.event_same
    | with_reducible apply State.addCnt_same
    | with_reducible apply Same.ite
    | with_reducible apply Same.foldl
    | with_reducible apply Same.foldlFst
    | fail_if_no_progress with_reducible refine Same.upd_16 ?_ b16

theorem State.postRec_same {m0 : Nat} {r0 : State} {s : State} {r : JRec} (hk : Same m0 r0 s) (hw : sub 65537 m0 = true)
    : Same m0 r0 (State.postRec s r) := by
  unfold State.postRec
  have b16 : sub 65536 m0 = true := sub_trans rfl hw
  extract_lets a0 a1 a2
  try clear_value a0
  have k1 : Same m0 r0 a1
  on_goal 1 => unfold a1
  rotate_left
  clear_value a1
  try clear_value a2
  all_goals repeat' first
    | with_reducible assumption
    | exact sub_trans rfl hw
    | intro _
    | with_reducible apply State.loseRecord_same
    | with_reducible apply Same.ite
    | with_reducible apply Same.foldl
    | with_reducible apply Same.foldlFst
    | fail_if_no_progress with_reducible refine Same.upd_16 ?_ b16

theorem State.log_same {m0 : Nat} {r0 : State} {s : State} {source : Nat} {code : Nat} {cls : Nat} {partition : Nat}
    {stream : Nat} {a0 : Nat} {a1 : Nat} {a2 : Nat} (hk : Same m0 r0 s) (hw : sub 65537 m0 = true) : Same m0 r0
    (State.log s source code cls partition stream a0 a1 a2) := by
  unfold State.log
  try dsimp only
  repeat' first
    | with_reducible assumption
    | exact sub_trans rfl hw
    | intro _
    | with_reducible apply State.postRec_same

theorem State.setUnit_same {m0 : Nat} {r0 : State} {s : State} {u : UnitSt} (hk : Same m0 r0 s) (hw : sub 32768 m0 = true)
    : Same m0 r0 (State.setUnit s u) := by
  unfold State.setUnit
  have b15 : sub 32768 m0 = true := sub_trans rfl hw
  try dsimp only
  repeat' first
    | with_reducible assumption
    | exact sub_trans rfl hw
    | intro _
    | with_reducible apply Same.ite
    | with_reducible apply Same.foldl
    | with_reducible apply Same.foldlFst
    | fail_if_no_progress with_reducible refine Same.upd_15 ?_ b15

theorem State.modUnit_same {m0 : Nat} {r0 : State} {s : State} {code : Nat} {f : UnitSt → UnitSt} (hk : Same m0 r0 s)
    (hw : sub 32768 m0 = true) : Same m0 r0 (State.modUnit s code f) := by
  unfold State.modUnit
  try dsimp only
  repeat' first
    | with_reducible assumption
    | exact sub_trans rfl hw
    | intro _
    | with_reducible apply State.setUnit_same

theorem State.store_same {m0 : Nat} {r0 : State} {s : State} {a : Nat} {bs : List Byte} (hk : Same m0 r0 s)
    (hw : sub 4 m0 = true) : Same m0 r0 (State.store s a bs) := by
  unfold State.store
  have b2 : sub 4 m0 = true := sub_trans rfl hw
  try dsimp only
  repeat' first
    | with_reducible assumption
    | exact sub_trans rfl hw
    | intro _
    | with_reducible apply Same.ite
    | with_reducible apply Same.foldl
    | with_reducible apply Same.foldlFst
    | fail_if_no_progress with_reducible refine Same.upd_2 ?_ b2

theorem State.severe_same {m0 : Nat} {r0 : State} {s : State} {cause : Nat} {unit : Nat} (hk : Same m0 r0 s)
    (hw : sub 196609 m0 = true) : Same m0 r0 (State.severe s cause unit) := by
  unfold State.severe
  have b17 : sub 131072 m0 = true := sub_trans rfl hw
  extract_lets a0 a1 a2
  have k0 : Same m0 r0 a0
  on_goal 1 => unfold a0
  rotate_left
  clear_value a0
  have k1 : Same m0 r0 a1
  on_goal 1 => unfold a1
  rotate_left
  clear_value a1
  try clear_value a2
  all_goals repeat' first
    | with_reducible assumption
    | exact sub_trans rfl hw
    | intro _
    | with_reducible apply State.setReg_same
    | with_reducible apply State.log_same
    | with_reducible apply Same.ite
    | with_reducible apply Same.foldl
    | with_reducible apply Same.foldlFst
    | fail_if_no_progress with_reducible refine Same.upd_17 ?_ b17

theorem State.doubt_same {m0 : Nat} {r0 : State} {s : State} {cause : Nat} {unit : Nat} {partition : Nat} {seq : Word} (hk
    : Same m0 r0 s) (hw : sub 196609 m0 = true) : Same m0 r0 (State.doubt s cause unit partition seq) := by
  unfold State.doubt
  have b17 : sub 131072 m0 = true := sub_trans rfl hw
  extract_lets a0 a1 a2 a3 a4
  have k0 : Same m0 r0 a0
  on_goal 1 => unfold a0
  rotate_left
  clear_value a0
  have k1 : Same m0 r0 a1
  on_goal 1 => unfold a1
  rotate_left
  clear_value a1
  have k2 : Same m0 r0 a2
  on_goal 1 => unfold a2
  rotate_left
  clear_value a2
  try clear_value a3
  have k4 : Same m0 r0 a4
  on_goal 1 => unfold a4
  rotate_left
  clear_value a4
  all_goals repeat' first
    | with_reducible assumption
    | exact sub_trans rfl hw
    | intro _
    | with_reducible apply State.setReg_same
    | with_reducible apply State.event_same
    | with_reducible apply State.addCnt_same
    | with_reducible apply State.log_same
    | with_reducible apply State.severe_same
    | with_reducible apply Same.ite
    | with_reducible apply Same.foldl
    | with_reducible apply Same.foldlFst
    | fail_if_no_progress with_reducible refine Same.upd_17 ?_ b17

theorem State.draw_same {m0 : Nat} {r0 : State} {s : State} (hk : Same m0 r0 s) (hw : sub 32 m0 = true) : Same m0 r0
    (State.draw s).2 := by
  unfold State.draw
  have b5 : sub 32 m0 = true := sub_trans rfl hw
  try dsimp only
  repeat' first
    | with_reducible assumption
    | exact sub_trans rfl hw
    | intro _
    | with_reducible apply Same.ite
    | with_reducible apply Same.foldl
    | with_reducible apply Same.foldlFst
    | fail_if_no_progress with_reducible refine Same.upd_5 ?_ b5

theorem State.doubtIf_same {m0 : Nat} {r0 : State} {s : State} {concerns : Bool} {cause : Nat} {unit : Nat} (hk
    : Same m0 r0 s) (hw : sub 196609 m0 = true) : Same m0 r0 (State.doubtIf s concerns cause unit) := by
  unfold State.doubtIf
  try dsimp only
  repeat' first
    | with_reducible assumption
    | exact sub_trans rfl hw
    | intro _
    | with_reducible apply State.doubt_same
    | with_reducible apply Same.ite

theorem State.reach_same {m0 : Nat} {r0 : State} {s : State} {t : Nat} (hk : Same m0 r0 s) (hw : sub 16 m0 = true)
    : Same m0 r0 (State.reach s t) := by
  unfold State.reach
  have b4 : sub 16 m0 = true := sub_trans rfl hw
  try dsimp only
  repeat' first
    | with_reducible assumption
    | exact sub_trans rfl hw
    | intro _
    | with_reducible apply Same.ite
    | with_reducible apply Same.foldl
    | with_reducible apply Same.foldlFst
    | fail_if_no_progress with_reducible refine Same.upd_4 ?_ b4

/-! ### Machine/Flags.lean -/

theorem State.setFlagWord_same {m0 : Nat} {r0 : State} {s : State} {i : Nat} {w : DWord} (hk : Same m0 r0 s)
    (hw : sub 8 m0 = true) : Same m0 r0 (State.setFlagWord s i w) := by
  unfold State.setFlagWord
  have b3 : sub 8 m0 = true := sub_trans rfl hw
  try dsimp only
  repeat' first
    | with_reducible assumption
    | exact sub_trans rfl hw
    | intro _
    | with_reducible apply Same.ite
    | with_reducible apply Same.foldl
    | with_reducible apply Same.foldlFst
    | fail_if_no_progress with_reducible refine Same.upd_3 ?_ b3

theorem State.modFlag_same {m0 : Nat} {r0 : State} {s : State} {i : Nat} {f : SlotFlag → SlotFlag} (hk : Same m0 r0 s)
    (hw : sub 8 m0 = true) : Same m0 r0 (State.modFlag s i f) := by
  unfold State.modFlag
  try dsimp only
  repeat' first
    | with_reducible assumption
    | exact sub_trans rfl hw
    | intro _
    | with_reducible apply State.setFlagWord_same

/-! ### Machine/Graph.lean -/

theorem State.modInst_same {m0 : Nat} {r0 : State} {s : State} {e : Nat} {f : Inst → Inst} (hk : Same m0 r0 s)
    (hw : sub 4096 m0 = true) : Same m0 r0 (State.modInst s e f) := by
  unfold State.modInst
  have b12 : sub 4096 m0 = true := sub_trans rfl hw
  try dsimp only
  repeat' first
    | with_reducible assumption
    | exact sub_trans rfl hw
    | intro _
    | with_reducible apply Same.ite
    | with_reducible apply Same.foldl
    | with_reducible apply Same.foldlFst
    | fail_if_no_progress with_reducible refine Same.upd_12 ?_ b12

theorem State.setRing_same {m0 : Nat} {r0 : State} {s : State} {r : RingSt} (hk : Same m0 r0 s) (hw : sub 4096 m0 = true)
    : Same m0 r0 (State.setRing s r) := by
  unfold State.setRing
  have b12 : sub 4096 m0 = true := sub_trans rfl hw
  try dsimp only
  repeat' first
    | with_reducible assumption
    | exact sub_trans rfl hw
    | intro _
    | with_reducible apply Same.ite
    | with_reducible apply Same.foldl
    | with_reducible apply Same.foldlFst
    | fail_if_no_progress with_reducible refine Same.upd_12 ?_ b12

theorem State.modNode_same {m0 : Nat} {r0 : State} {s : State} {slot : Nat} {f : NodeSt → NodeSt} (hk : Same m0 r0 s)
    (hw : sub 4096 m0 = true) : Same m0 r0 (State.modNode s slot f) := by
  unfold State.modNode
  have b12 : sub 4096 m0 = true := sub_trans rfl hw
  try dsimp only
  repeat' first
    | with_reducible assumption
    | exact sub_trans rfl hw
    | intro _
    | with_reducible apply Same.ite
    | with_reducible apply Same.foldl
    | with_reducible apply Same.foldlFst
    | fail_if_no_progress with_reducible refine Same.upd_12 ?_ b12

/-! ### Machine/GmlOps.lean -/

theorem State.modLink_same {m0 : Nat} {r0 : State} {s : State} {k : Nat} {f : LinkSt → LinkSt} (hk : Same m0 r0 s)
    (hw : sub 8388608 m0 = true) : Same m0 r0 (State.modLink s k f) := by
  unfold State.modLink
  have b23 : sub 8388608 m0 = true := sub_trans rfl hw
  try dsimp only
  repeat' first
    | with_reducible assumption
    | exact sub_trans rfl hw
    | intro _
    | with_reducible apply Same.ite
    | with_reducible apply Same.foldl
    | with_reducible apply Same.foldlFst
    | fail_if_no_progress with_reducible refine Same.upd_23 ?_ b23

theorem State.countFlit_same {m0 : Nat} {r0 : State} {s : State} {k : Nat} {m : Nat} {seq : Nat} (hk : Same m0 r0 s)
    (hw : sub 1 m0 = true) : Same m0 r0 (State.countFlit s k m seq) := by
  unfold State.countFlit
  try dsimp only
  repeat' first
    | with_reducible assumption
    | exact sub_trans rfl hw
    | intro _
    | with_reducible apply State.addCnt_same
    | with_reducible apply Same.ite

theorem State.sendOn_same {m0 : Nat} {r0 : State} {s : State} {k : Nat} {p : GmlPkt} (hk : Same m0 r0 s)
    (hw : sub 8388609 m0 = true) : Same m0 r0 (State.sendOn s k p) := by
  unfold State.sendOn
  extract_lets a0
  have k0 : Same m0 r0 a0
  on_goal 1 => unfold a0
  rotate_left
  clear_value a0
  all_goals repeat' first
    | with_reducible assumption
    | exact sub_trans rfl hw
    | intro _
    | with_reducible apply State.modLink_same
    | with_reducible apply State.countFlit_same

theorem State.sendTo_same {m0 : Nat} {r0 : State} {s : State} {e : Nat} {p : GmlPkt} (hk : Same m0 r0 s)
    (hw : sub 8388609 m0 = true) : Same m0 r0 (State.sendTo s e p) := by
  unfold State.sendTo
  try dsimp only
  repeat' first
    | with_reducible assumption
    | exact sub_trans rfl hw
    | intro _
    | with_reducible apply State.sendOn_same
    | with_reducible apply Same.ite
    | with_reducible apply Same.foldl
    | with_reducible apply Same.foldlFst
    | split

theorem State.sendDrain_same {m0 : Nat} {r0 : State} {s : State} {e : Nat} {flag : Nat} (hk : Same m0 r0 s)
    (hw : sub 8388609 m0 = true) : Same m0 r0 (State.sendDrain s e flag) := by
  unfold State.sendDrain
  try dsimp only
  repeat' first
    | with_reducible assumption
    | exact sub_trans rfl hw
    | intro _
    | with_reducible apply State.sendTo_same
    | with_reducible apply Same.ite

theorem State.reroute_same {m0 : Nat} {r0 : State} {s : State} {e : Nat} (hk : Same m0 r0 s) (hw : sub 8388609 m0 = true)
    : Same m0 r0 (State.reroute s e) := by
  unfold State.reroute
  have b23 : sub 8388608 m0 = true := sub_trans rfl hw
  extract_lets a0 a1 a2 a3
  try clear_value a0
  try clear_value a1
  have k2 : Same m0 r0 a2
  on_goal 1 => unfold a2
  rotate_left
  clear_value a2
  have k3 : Same m0 r0 a3
  on_goal 1 => unfold a3
  rotate_left
  clear_value a3
  all_goals repeat' first
    | with_reducible assumption
    | exact sub_trans rfl hw
    | intro _
    | with_reducible apply State.setFlag_same
    | with_reducible apply Same.ite
    | with_reducible apply Same.foldl
    | with_reducible apply Same.foldlFst
    | fail_if_no_progress with_reducible refine Same.upd_23 ?_ b23

theorem State.refreshActive_same {m0 : Nat} {r0 : State} {s : State} (hk : Same m0 r0 s) (hw : sub 8388609 m0 = true)
    : Same m0 r0 (State.refreshActive s) := by
  unfold State.refreshActive
  extract_lets a0
  have k0 : Same m0 r0 a0
  on_goal 1 => unfold a0
  rotate_left
  clear_value a0
  all_goals repeat' first
    | with_reducible assumption
    | exact sub_trans rfl hw
    | intro _
    | with_reducible apply State.setFlag_same
    | with_reducible apply State.reroute_same
    | with_reducible apply Same.ite
    | with_reducible apply Same.foldl

theorem State.failLink_same {m0 : Nat} {r0 : State} {s : State} {k : Nat} (hk : Same m0 r0 s) (hw : sub 8388608 m0 = true)
    : Same m0 r0 (State.failLink s k) := by
  unfold State.failLink
  have b23 : sub 8388608 m0 = true := sub_trans rfl hw
  extract_lets a0 a1
  try clear_value a0
  have k1 : Same m0 r0 a1
  on_goal 1 => unfold a1
  rotate_left
  clear_value a1
  all_goals repeat' first
    | with_reducible assumption
    | exact sub_trans rfl hw
    | intro _
    | with_reducible apply State.modLink_same
    | with_reducible apply Same.ite
    | with_reducible apply Same.foldl
    | with_reducible apply Same.foldlFst
    | fail_if_no_progress with_reducible refine Same.upd_23 ?_ b23

/-! ### Machine/SeqOps.lean -/

theorem State.modCore_same {m0 : Nat} {r0 : State} {s : State} {n : Nat} {f : CoreSt → CoreSt} (hk : Same m0 r0 s)
    (hw : sub 16384 m0 = true) : Same m0 r0 (State.modCore s n f) := by
  unfold State.modCore
  have b14 : sub 16384 m0 = true := sub_trans rfl hw
  try dsimp only
  repeat' first
    | with_reducible assumption
    | exact sub_trans rfl hw
    | intro _
    | with_reducible apply Same.ite
    | with_reducible apply Same.foldl
    | with_reducible apply Same.foldlFst
    | fail_if_no_progress with_reducible refine Same.upd_14 ?_ b14

theorem State.showAbort_same {m0 : Nat} {r0 : State} {s : State} {n : Nat} (hk : Same m0 r0 s) (hw : sub 1 m0 = true)
    : Same m0 r0 (State.showAbort s n) := by
  unfold State.showAbort
  try dsimp only
  repeat' first
    | with_reducible assumption
    | exact sub_trans rfl hw
    | intro _
    | with_reducible apply State.setFld_same
    | with_reducible apply State.setFlag_same
    | with_reducible apply Same.ite
    | with_reducible apply Same.foldl
    | with_reducible apply Same.foldlFst
    | split

theorem State.chargeBusy_same {m0 : Nat} {r0 : State} {s : State} {u : UnitSt} (hk : Same m0 r0 s) (hw : sub 262144 m0 = true)
    : Same m0 r0 (State.chargeBusy s u) := by
  unfold State.chargeBusy
  have b18 : sub 262144 m0 = true := sub_trans rfl hw
  try dsimp only
  repeat' first
    | with_reducible assumption
    | exact sub_trans rfl hw
    | intro _
    | with_reducible apply Same.ite
    | with_reducible apply Same.foldl
    | with_reducible apply Same.foldlFst
    | fail_if_no_progress with_reducible refine Same.upd_18 ?_ b18

theorem State.addKilo_same {m0 : Nat} {r0 : State} {s : State} {code : Nat} {reg : Nat} {m : Nat} {n : Nat} (hk
    : Same m0 r0 s) (hw : sub 32769 m0 = true) : Same m0 r0 (State.addKilo s code reg m n) := by
  unfold State.addKilo
  try dsimp only
  repeat' first
    | with_reducible assumption
    | exact sub_trans rfl hw
    | intro _
    | with_reducible apply State.addCnt_same
    | with_reducible apply State.setUnit_same

theorem State.countBusy_same {m0 : Nat} {r0 : State} {s : State} {u : UnitSt} (hk : Same m0 r0 s) (hw : sub 32769 m0 = true)
    : Same m0 r0 (State.countBusy s u) := by
  unfold State.countBusy
  try dsimp only
  repeat' first
    | with_reducible assumption
    | exact sub_trans rfl hw
    | intro _
    | with_reducible apply State.addKilo_same
    | with_reducible apply Same.ite
    | with_reducible apply Same.foldl
    | with_reducible apply Same.foldlFst
    | split

theorem State.leaveUnit_same {m0 : Nat} {r0 : State} {s : State} {code : Nat} {e : Nat} (hk : Same m0 r0 s)
    (hw : sub 311297 m0 = true) : Same m0 r0 (State.leaveUnit s code e) := by
  unfold State.leaveUnit
  extract_lets a0 a1 a2
  try clear_value a0
  have k1 : Same m0 r0 a1
  on_goal 1 => unfold a1
  rotate_left
  clear_value a1
  try clear_value a2
  all_goals repeat' first
    | with_reducible assumption
    | exact sub_trans rfl hw
    | intro _
    | with_reducible apply State.modCore_same
    | with_reducible apply State.chargeBusy_same
    | with_reducible apply State.setUnit_same
    | with_reducible apply State.countBusy_same
    | with_reducible apply Same.ite
    | with_reducible apply Same.foldl
    | with_reducible apply Same.foldlFst
    | split

theorem State.assignSlot_same {m0 : Nat} {r0 : State} {s : State} {r : RingSt} {k : Nat} {b : Nat} {seq : Word} {rects : Nat}
    (hk : Same m0 r0 s) (hw : sub 4104 m0 = true) : Same m0 r0 (State.assignSlot s r k b seq rects) := by
  unfold State.assignSlot
  extract_lets a0 a1
  try clear_value a0
  have k1 : Same m0 r0 a1
  on_goal 1 => unfold a1
  rotate_left
  clear_value a1
  all_goals repeat' first
    | with_reducible assumption
    | exact sub_trans rfl hw
    | intro _
    | with_reducible apply State.setFlagWord_same
    | with_reducible apply State.setRing_same

theorem State.post_same {m0 : Nat} {r0 : State} {s : State} {ts : List Token} (hk : Same m0 r0 s) (hw : sub 8392705 m0 = true)
    : Same m0 r0 (State.post s ts) := by
  unfold State.post
  have b12 : sub 4096 m0 = true := sub_trans rfl hw
  extract_lets a0 a1 a2
  try clear_value a0
  try clear_value a1
  have k2 : Same m0 r0 a2
  on_goal 1 => unfold a2
  rotate_left
  clear_value a2
  all_goals repeat' first
    | with_reducible assumption
    | exact sub_trans rfl hw
    | intro _
    | with_reducible apply State.sendTo_same
    | with_reducible apply Same.ite
    | with_reducible apply Same.foldl
    | with_reducible apply Same.foldlFst
    | fail_if_no_progress with_reducible refine Same.upd_12 ?_ b12
    | split

theorem State.voidOne_same {m0 : Nat} {r0 : State} {s : State} {n : NodeSt} {seq : Word} {tile : Nat} {o : Nat} (hk
    : Same m0 r0 s) (hw : sub 8392713 m0 = true) : Same m0 r0 (State.voidOne s n seq tile o).1 := by
  unfold State.voidOne
  split
  · split
    · exact hk
    · dsimp only
      split
      · exact hk
      · rename_i s1 he
        have h1 : Same m0 r0 s1 := by
          split at he
          · cases he; exact hk
          · split at he
            · cases he; exact State.assignSlot_same hk (sub_trans rfl hw)
            · split at he
              · cases he; exact hk
              · cases he
        split
        · exact State.post_same (State.event_same (State.modFlag_same h1 (sub_trans rfl hw)) (sub_trans rfl hw)) (sub_trans rfl hw)
        · exact State.modFlag_same h1 (sub_trans rfl hw)
  · exact hk

theorem State.voidRelease_same {m0 : Nat} {r0 : State} {s : State} {i : Inst} (hk : Same m0 r0 s) (hw : sub 8392713 m0 = true)
    : Same m0 r0 (State.voidRelease s i) := by
  unfold State.voidRelease
  try dsimp only
  repeat' first
    | with_reducible assumption
    | exact sub_trans rfl hw
    | intro _
    | with_reducible apply State.voidOne_same
    | with_reducible apply State.modInst_same
    | with_reducible apply Same.ite
    | with_reducible apply Same.foldl
    | with_reducible apply Same.foldlFst
    | split

theorem State.unpinAll_same {m0 : Nat} {r0 : State} {s : State} {n : NodeSt} {i : Inst} (hk : Same m0 r0 s)
    (hw : sub 8 m0 = true) : Same m0 r0 (State.unpinAll s n i) := by
  unfold State.unpinAll
  try dsimp only
  repeat' first
    | with_reducible assumption
    | exact sub_trans rfl hw
    | intro _
    | with_reducible apply State.modFlag_same
    | with_reducible apply Same.ite
    | with_reducible apply Same.foldl
    | with_reducible apply Same.foldlFst
    | split

theorem State.tryDrain_same {m0 : Nat} {r0 : State} {s : State} {layer : Nat} {idx : Nat} {sl : Nat} {node : Nat} {j : Nat}
    (hk : Same m0 r0 s) (hw : sub 8392713 m0 = true) : Same m0 r0 (State.tryDrain s layer idx sl node j) := by
  unfold State.tryDrain
  try dsimp only
  repeat' first
    | with_reducible assumption
    | exact sub_trans rfl hw
    | intro _
    | with_reducible apply State.setRing_same
    | with_reducible apply State.sendDrain_same
    | with_reducible apply State.modFlag_same
    | with_reducible apply Same.ite
    | with_reducible apply Same.foldl
    | with_reducible apply Same.foldlFst
    | split

theorem State.drainInputs_same {m0 : Nat} {r0 : State} {s : State} {n : NodeSt} {seq : Word} {t : Nat} (hk : Same m0 r0 s)
    (hw : sub 8392713 m0 = true) : Same m0 r0 (State.drainInputs s n seq t) := by
  unfold State.drainInputs
  try dsimp only
  repeat' first
    | with_reducible assumption
    | exact sub_trans rfl hw
    | intro _
    | with_reducible apply State.tryDrain_same
    | with_reducible apply Same.ite
    | with_reducible apply Same.foldl

theorem State.modFlow_same {m0 : Nat} {r0 : State} {s : State} {layer : Nat} {id : Nat} {f : FlowSt → FlowSt} (hk
    : Same m0 r0 s) (hw : sub 4096 m0 = true) : Same m0 r0 (State.modFlow s layer id f) := by
  unfold State.modFlow
  have b12 : sub 4096 m0 = true := sub_trans rfl hw
  try dsimp only
  repeat' first
    | with_reducible assumption
    | exact sub_trans rfl hw
    | intro _
    | with_reducible apply Same.ite
    | with_reducible apply Same.foldl
    | with_reducible apply Same.foldlFst
    | fail_if_no_progress with_reducible refine Same.upd_12 ?_ b12

theorem State.clearWatch_same {m0 : Nat} {r0 : State} {s : State} {n : NodeSt} (hk : Same m0 r0 s) (hw : sub 4096 m0 = true)
    : Same m0 r0 (State.clearWatch s n) := by
  unfold State.clearWatch
  try dsimp only
  repeat' first
    | with_reducible assumption
    | exact sub_trans rfl hw
    | intro _
    | with_reducible apply State.modFlow_same
    | with_reducible apply State.modNode_same
    | with_reducible apply Same.ite
    | with_reducible apply Same.foldl
    | with_reducible apply Same.foldlFst
    | split

theorem State.advanceFlow_same {m0 : Nat} {r0 : State} {s : State} {n : NodeSt} (hk : Same m0 r0 s) (hw : sub 4096 m0 = true)
    : Same m0 r0 (State.advanceFlow s n) := by
  unfold State.advanceFlow
  try dsimp only
  repeat' first
    | with_reducible assumption
    | exact sub_trans rfl hw
    | intro _
    | with_reducible apply State.modFlow_same
    | with_reducible apply Same.ite
    | with_reducible apply Same.foldl
    | with_reducible apply Same.foldlFst
    | split

theorem State.freeEntry_same {m0 : Nat} {r0 : State} {s : State} {e : Nat} (hk : Same m0 r0 s) (hw : sub 4096 m0 = true)
    : Same m0 r0 (State.freeEntry s e) := by
  unfold State.freeEntry
  have b12 : sub 4096 m0 = true := sub_trans rfl hw
  try dsimp only
  repeat' first
    | with_reducible assumption
    | exact sub_trans rfl hw
    | intro _
    | with_reducible apply Same.ite
    | with_reducible apply Same.foldl
    | with_reducible apply Same.foldlFst
    | fail_if_no_progress with_reducible refine Same.upd_12 ?_ b12

theorem State.retire_same {m0 : Nat} {r0 : State} {s : State} {slot : Nat} (hk : Same m0 r0 s) (hw : sub 4096 m0 = true)
    : Same m0 r0 (State.retire s slot) := by
  unfold State.retire
  try dsimp only
  repeat' first
    | with_reducible assumption
    | exact sub_trans rfl hw
    | intro _
    | with_reducible apply State.modNode_same
    | with_reducible apply State.freeEntry_same
    | with_reducible apply Same.ite
    | with_reducible apply Same.foldl
    | with_reducible apply Same.foldlFst
    | split

theorem State.finish_same {m0 : Nat} {r0 : State} {s : State} {i : Inst} (hk : Same m0 r0 s) (hw : sub 8392713 m0 = true)
    : Same m0 r0 (State.finish s i) := by
  unfold State.finish
  try dsimp only
  repeat' first
    | with_reducible assumption
    | exact sub_trans rfl hw
    | intro _
    | with_reducible apply State.modNode_same
    | with_reducible apply State.unpinAll_same
    | with_reducible apply State.drainInputs_same
    | with_reducible apply State.clearWatch_same
    | with_reducible apply State.advanceFlow_same
    | with_reducible apply State.retire_same
    | with_reducible apply Same.ite
    | with_reducible apply Same.foldl
    | with_reducible apply Same.foldlFst
    | split

theorem State.cancelNow_same {m0 : Nat} {r0 : State} {s : State} {e : Nat} (hk : Same m0 r0 s) (hw : sub 8704009 m0 = true)
    : Same m0 r0 (State.cancelNow s e) := by
  unfold State.cancelNow
  extract_lets a0
  have k0 : Same m0 r0 a0
  on_goal 1 => unfold a0
  rotate_left
  clear_value a0
  all_goals repeat' first
    | with_reducible assumption
    | exact sub_trans rfl hw
    | intro _
    | with_reducible apply State.addCnt_same
    | with_reducible apply State.leaveUnit_same
    | with_reducible apply State.modInst_same
    | with_reducible apply State.voidRelease_same
    | with_reducible apply State.finish_same
    | with_reducible apply State.freeEntry_same
    | with_reducible apply Same.ite
    | with_reducible apply Same.foldl
    | with_reducible apply Same.foldlFst
    | split
    | dsimp only

theorem State.cancel_same {m0 : Nat} {r0 : State} {s : State} {e : Nat} (hk : Same m0 r0 s) (hw : sub 8704009 m0 = true)
    : Same m0 r0 (State.cancel s e) := by
  unfold State.cancel
  extract_lets a0
  have k0 : Same m0 r0 a0
  on_goal 1 => unfold a0
  rotate_left
  clear_value a0
  all_goals repeat' first
    | with_reducible assumption
    | exact sub_trans rfl hw
    | intro _
    | with_reducible apply State.modInst_same
    | with_reducible apply State.showAbort_same
    | with_reducible apply State.cancelNow_same
    | with_reducible apply Same.ite
    | with_reducible apply Same.foldl
    | with_reducible apply Same.foldlFst
    | split

theorem State.refuseRelease_same {m0 : Nat} {r0 : State} {s : State} {n : NodeSt} {i : Inst} {code : Nat} {mode1 : Bool} (hk
    : Same m0 r0 s) (hw : sub 69633 m0 = true) : Same m0 r0 (State.refuseRelease s n i code mode1) := by
  unfold State.refuseRelease
  have b12 : sub 4096 m0 = true := sub_trans rfl hw
  extract_lets a0 a1 a2 a3 a4
  have k0 : Same m0 r0 a0
  on_goal 1 => unfold a0
  rotate_left
  clear_value a0
  have k1 : Same m0 r0 a1
  on_goal 1 => unfold a1
  rotate_left
  clear_value a1
  have k2 : Same m0 r0 a2
  on_goal 1 => unfold a2
  rotate_left
  clear_value a2
  have k3 : Same m0 r0 a3
  on_goal 1 => unfold a3
  rotate_left
  clear_value a3
  try clear_value a4
  all_goals repeat' first
    | with_reducible assumption
    | exact sub_trans rfl hw
    | intro _
    | with_reducible apply State.event_same
    | with_reducible apply State.modInst_same
    | with_reducible apply State.addCnt_same
    | with_reducible apply State.log_same
    | with_reducible apply Same.ite
    | with_reducible apply Same.foldl
    | with_reducible apply Same.foldlFst
    | fail_if_no_progress with_reducible refine Same.upd_12 ?_ b12
    | split

theorem State.reserveRemote_same {m0 : Nat} {r0 : State} {s : State} {id : Nat} {ts : List Token} (hk : Same m0 r0 s)
    (hw : sub 8388609 m0 = true) : Same m0 r0 (State.reserveRemote s id ts).1 := by
  unfold State.reserveRemote
  have b23 : sub 8388608 m0 = true := sub_trans rfl hw
  try dsimp only
  repeat' first
    | with_reducible assumption
    | exact sub_trans rfl hw
    | intro _
    | with_reducible apply State.sendTo_same
    | with_reducible apply Same.ite
    | with_reducible apply Same.foldl
    | with_reducible apply Same.foldlFst
    | fail_if_no_progress with_reducible refine Same.upd_23 ?_ b23
    | split

theorem State.forgetAsked_same {m0 : Nat} {r0 : State} {s : State} {id : Nat} (hk : Same m0 r0 s) (hw : sub 8388608 m0 = true)
    : Same m0 r0 (State.forgetAsked s id) := by
  unfold State.forgetAsked
  have b23 : sub 8388608 m0 = true := sub_trans rfl hw
  try dsimp only
  repeat' first
    | with_reducible assumption
    | exact sub_trans rfl hw
    | intro _
    | with_reducible apply Same.ite
    | with_reducible apply Same.foldl
    | with_reducible apply Same.foldlFst
    | fail_if_no_progress with_reducible refine Same.upd_23 ?_ b23

theorem State.drainAbsent_same {m0 : Nat} {r0 : State} {s : State} {layer : Nat} {idx : Nat} {sl : Nat} (hk : Same m0 r0 s)
    (hw : sub 4104 m0 = true) : Same m0 r0 (State.drainAbsent s layer idx sl) := by
  unfold State.drainAbsent
  try dsimp only
  repeat' first
    | with_reducible assumption
    | exact sub_trans rfl hw
    | intro _
    | with_reducible apply State.setRing_same
    | with_reducible apply State.modFlag_same
    | with_reducible apply Same.ite
    | with_reducible apply Same.foldl
    | with_reducible apply Same.foldlFst
    | split

theorem State.releaseOne_same {m0 : Nat} {r0 : State} {s : State} {n : NodeSt} {seq : Word} {tile : Nat} {o : Nat}
    {flagged : Bool} {late : Bool} (hk : Same m0 r0 s) (hw : sub 8392713 m0 = true) : Same m0 r0
    (State.releaseOne s n seq tile o flagged late) := by
  unfold State.releaseOne
  try dsimp only
  repeat' first
    | with_reducible assumption
    | exact sub_trans rfl hw
    | intro _
    | with_reducible apply State.modFlag_same
    | with_reducible apply State.drainAbsent_same
    | with_reducible apply State.post_same
    | with_reducible apply State.event_same
    | with_reducible apply Same.ite
    | with_reducible apply Same.foldl
    | with_reducible apply Same.foldlFst
    | split

theorem State.countMiss_same {m0 : Nat} {r0 : State} {s : State} {domain : Nat} (hk : Same m0 r0 s)
    (hw : sub 262144 m0 = true) : Same m0 r0 (State.countMiss s domain) := by
  unfold State.countMiss
  have b18 : sub 262144 m0 = true := sub_trans rfl hw
  try dsimp only
  repeat' first
    | with_reducible assumption
    | exact sub_trans rfl hw
    | intro _
    | with_reducible apply Same.ite
    | with_reducible apply Same.foldl
    | with_reducible apply Same.foldlFst
    | fail_if_no_progress with_reducible refine Same.upd_18 ?_ b18

theorem State.noteSlack_same {m0 : Nat} {r0 : State} {s : State} {domain : Nat} {slack : Int} (hk : Same m0 r0 s)
    (hw : sub 262144 m0 = true) : Same m0 r0 (State.noteSlack s domain slack) := by
  unfold State.noteSlack
  have b18 : sub 262144 m0 = true := sub_trans rfl hw
  try dsimp only
  repeat' first
    | with_reducible assumption
    | exact sub_trans rfl hw
    | intro _
    | with_reducible apply Same.ite
    | with_reducible apply Same.foldl
    | with_reducible apply Same.foldlFst
    | fail_if_no_progress with_reducible refine Same.upd_18 ?_ b18

theorem State.resetWatch_same {m0 : Nat} {r0 : State} {s : State} {n : NodeSt} (hk : Same m0 r0 s) (hw : sub 4096 m0 = true)
    : Same m0 r0 (State.resetWatch s n) := by
  unfold State.resetWatch
  try dsimp only
  repeat' first
    | with_reducible assumption
    | exact sub_trans rfl hw
    | intro _
    | with_reducible apply State.modFlow_same
    | with_reducible apply State.modNode_same
    | with_reducible apply Same.ite
    | with_reducible apply Same.foldl
    | with_reducible apply Same.foldlFst
    | split

theorem State.tryRelease_same {m0 : Nat} {r0 : State} {s : State} {e : Nat} (hk : Same m0 r0 s) (hw : sub 8769545 m0 = true)
    : Same m0 r0 (State.tryRelease s e) := by
  unfold State.tryRelease
  try dsimp only
  repeat' first
    | with_reducible assumption
    | exact sub_trans rfl hw
    | intro _
    | with_reducible apply State.refuseRelease_same
    | with_reducible apply State.reserveRemote_same
    | with_reducible apply State.forgetAsked_same
    | with_reducible apply State.addCnt_same
    | with_reducible apply State.leaveUnit_same
    | with_reducible apply State.releaseOne_same
    | with_reducible apply State.countMiss_same
    | with_reducible apply State.event_same
    | with_reducible apply State.noteSlack_same
    | with_reducible apply State.finish_same
    | with_reducible apply State.freeEntry_same
    | with_reducible apply State.resetWatch_same
    | with_reducible apply Same.ite
    | with_reducible apply Same.foldl
    | with_reducible apply Same.foldlFst
    | split

theorem State.numberRemote_same {m0 : Nat} {r0 : State} {s : State} {n : NodeSt} {seq : Word} {t : Nat} {op : Nat} (hk
    : Same m0 r0 s) (hw : sub 4096 m0 = true) : Same m0 r0 (State.numberRemote s n seq t op) := by
  unfold State.numberRemote
  try dsimp only
  repeat' first
    | with_reducible assumption
    | exact sub_trans rfl hw
    | intro _
    | with_reducible apply State.setRing_same
    | with_reducible apply Same.ite
    | with_reducible apply Same.foldl
    | with_reducible apply Same.foldlFst
    | split

theorem State.arrive_same {m0 : Nat} {r0 : State} {s : State} {n : NodeSt} {seq : Word} {t : Nat} {op : Nat} (hk
    : Same m0 r0 s) (hw : sub 8392713 m0 = true) : Same m0 r0 (State.arrive s n seq t op) := by
  unfold State.arrive
  extract_lets a0
  have k0 : Same m0 r0 a0
  on_goal 1 => unfold a0
  rotate_left
  clear_value a0
  all_goals repeat' first
    | with_reducible assumption
    | exact sub_trans rfl hw
    | intro _
    | with_reducible apply State.numberRemote_same
    | with_reducible apply State.setRing_same
    | with_reducible apply State.drainInputs_same
    | with_reducible apply Same.ite
    | with_reducible apply Same.foldl
    | with_reducible apply Same.foldlFst
    | split

theorem State.noteHwm_same {m0 : Nat} {r0 : State} {s : State} (hk : Same m0 r0 s) (hw : sub 1 m0 = true) : Same m0 r0
    (State.noteHwm s) := by
  unfold State.noteHwm
  extract_lets a0
  have k0 : Same m0 r0 a0
  on_goal 1 => unfold a0
  rotate_left
  clear_value a0
  all_goals repeat' first
    | with_reducible assumption
    | exact sub_trans rfl hw
    | intro _
    | with_reducible apply State.setFld_same

theorem State.startWatch_same {m0 : Nat} {r0 : State} {s : State} {n : NodeSt} (hk : Same m0 r0 s) (hw : sub 4096 m0 = true)
    : Same m0 r0 (State.startWatch s n) := by
  unfold State.startWatch
  try dsimp only
  repeat' first
    | with_reducible assumption
    | exact sub_trans rfl hw
    | intro _
    | with_reducible apply State.modFlow_same
    | with_reducible apply State.modNode_same
    | with_reducible apply Same.ite
    | with_reducible apply Same.foldl
    | with_reducible apply Same.foldlFst
    | split

theorem State.numberOutputs_same {m0 : Nat} {r0 : State} {s : State} {n : NodeSt} {seq : Word} (hk : Same m0 r0 s)
    (hw : sub 4096 m0 = true) : Same m0 r0 (State.numberOutputs s n seq) := by
  unfold State.numberOutputs
  try dsimp only
  repeat' first
    | with_reducible assumption
    | exact sub_trans rfl hw
    | intro _
    | with_reducible apply State.setRing_same
    | with_reducible apply Same.ite
    | with_reducible apply Same.foldl
    | with_reducible apply Same.foldlFst
    | split

theorem State.createEntry_same {m0 : Nat} {r0 : State} {s : State} {n : NodeSt} {seq : Word} {tile : Nat} {stream : Nat} (hk
    : Same m0 r0 s) (hw : sub 4097 m0 = true) : Same m0 r0 (State.createEntry s n seq tile stream) := by
  unfold State.createEntry
  have b12 : sub 4096 m0 = true := sub_trans rfl hw
  extract_lets a0 a1 a2 a3 a4 a5
  try clear_value a0
  try clear_value a1
  try clear_value a2
  try clear_value a3
  have k4 : Same m0 r0 a4
  on_goal 1 => unfold a4
  rotate_left
  clear_value a4
  have k5 : Same m0 r0 a5
  on_goal 1 => unfold a5
  rotate_left
  clear_value a5
  all_goals repeat' first
    | with_reducible assumption
    | exact sub_trans rfl hw
    | intro _
    | with_reducible apply State.modFlow_same
    | with_reducible apply State.noteHwm_same
    | with_reducible apply State.startWatch_same
    | with_reducible apply State.numberOutputs_same
    | with_reducible apply Same.ite
    | with_reducible apply Same.foldl
    | with_reducible apply Same.foldlFst
    | fail_if_no_progress with_reducible refine Same.upd_12 ?_ b12
    | split

theorem State.logInst_same {m0 : Nat} {r0 : State} {s : State} {code : Nat} {cls : Nat} {i : Inst} {a2 : Nat} (hk
    : Same m0 r0 s) (hw : sub 65537 m0 = true) : Same m0 r0 (State.logInst s code cls i a2) := by
  unfold State.logInst
  try dsimp only
  repeat' first
    | with_reducible assumption
    | exact sub_trans rfl hw
    | intro _
    | with_reducible apply State.log_same

/-! ### Machine/CamOps.lean -/

theorem State.showPipe_same {m0 : Nat} {r0 : State} {s : State} {n : Nat} (hk : Same m0 r0 s) (hw : sub 1 m0 = true)
    : Same m0 r0 (State.showPipe s n) := by
  unfold State.showPipe
  extract_lets a0 a1 a2 a3 a4
  try clear_value a0
  try clear_value a1
  try clear_value a2
  have k3 : Same m0 r0 a3
  on_goal 1 => unfold a3
  rotate_left
  clear_value a3
  try clear_value a4
  all_goals repeat' first
    | with_reducible assumption
    | exact sub_trans rfl hw
    | intro _
    | with_reducible apply State.setFld_same
    | with_reducible apply Same.ite
    | with_reducible apply Same.foldl
    | with_reducible apply Same.foldlFst
    | split

theorem State.modPipe_same {m0 : Nat} {r0 : State} {s : State} {n : Nat} {f : PipeSt → PipeSt} (hk : Same m0 r0 s)
    (hw : sub 2097152 m0 = true) : Same m0 r0 (State.modPipe s n f) := by
  unfold State.modPipe
  have b21 : sub 2097152 m0 = true := sub_trans rfl hw
  try dsimp only
  repeat' first
    | with_reducible assumption
    | exact sub_trans rfl hw
    | intro _
    | with_reducible apply Same.ite
    | with_reducible apply Same.foldl
    | with_reducible apply Same.foldlFst
    | fail_if_no_progress with_reducible refine Same.upd_21 ?_ b21

theorem State.modCam_same {m0 : Nat} {r0 : State} {s : State} {stream : Nat} {f : StreamSt → StreamSt} (hk : Same m0 r0 s)
    (hw : sub 1048576 m0 = true) : Same m0 r0 (State.modCam s stream f) := by
  unfold State.modCam
  have b20 : sub 1048576 m0 = true := sub_trans rfl hw
  try dsimp only
  repeat' first
    | with_reducible assumption
    | exact sub_trans rfl hw
    | intro _
    | with_reducible apply Same.ite
    | with_reducible apply Same.foldl
    | with_reducible apply Same.foldlFst
    | fail_if_no_progress with_reducible refine Same.upd_20 ?_ b20

theorem State.discardFrame_same {m0 : Nat} {r0 : State} {s : State} {stream : Nat} {port : Nat} (hk : Same m0 r0 s)
    (hw : sub 1048577 m0 = true) : Same m0 r0 (State.discardFrame s stream port) := by
  unfold State.discardFrame
  try dsimp only
  repeat' first
    | with_reducible assumption
    | exact sub_trans rfl hw
    | intro _
    | with_reducible apply State.addCnt_same
    | with_reducible apply State.modCam_same
    | with_reducible apply Same.ite
    | with_reducible apply Same.foldl
    | with_reducible apply Same.foldlFst
    | split

theorem State.stopPipeWork_same {m0 : Nat} {r0 : State} {s : State} {n : Nat} {stream : Nat} (hk : Same m0 r0 s)
    (hw : sub 2162689 m0 = true) : Same m0 r0 (State.stopPipeWork s n stream) := by
  unfold State.stopPipeWork
  extract_lets a0 a1 a2 a3 a4 a5 a6 a7 a8
  try clear_value a0
  try clear_value a1
  try clear_value a2
  try clear_value a3
  have k4 : Same m0 r0 a4
  on_goal 1 => unfold a4
  rotate_left
  clear_value a4
  have k5 : Same m0 r0 a5
  on_goal 1 => unfold a5
  rotate_left
  clear_value a5
  have k6 : Same m0 r0 a6
  on_goal 1 => unfold a6
  rotate_left
  clear_value a6
  have k7 : Same m0 r0 a7
  on_goal 1 => unfold a7
  rotate_left
  clear_value a7
  have k8 : Same m0 r0 a8
  on_goal 1 => unfold a8
  rotate_left
  clear_value a8
  all_goals repeat' first
    | with_reducible assumption
    | exact sub_trans rfl hw
    | intro _
    | with_reducible apply State.modPipe_same
    | with_reducible apply State.setReg_same
    | with_reducible apply State.setFlag_same
    | with_reducible apply State.event_same
    | with_reducible apply State.log_same
    | with_reducible apply State.showPipe_same
    | with_reducible apply Same.ite
    | with_reducible apply Same.foldl
    | with_reducible apply Same.foldlFst
    | split

theorem State.unbindStream_same {m0 : Nat} {r0 : State} {s : State} {stream : Nat} (hk : Same m0 r0 s)
    (hw : sub 3211265 m0 = true) : Same m0 r0 (State.unbindStream s stream) := by
  unfold State.unbindStream
  try dsimp only
  repeat' first
    | with_reducible assumption
    | exact sub_trans rfl hw
    | intro _
    | with_reducible apply State.modCam_same
    | with_reducible apply State.discardFrame_same
    | with_reducible apply State.stopPipeWork_same
    | with_reducible apply Same.ite
    | with_reducible apply Same.foldl
    | with_reducible apply Same.foldlFst
    | split

theorem State.loadBank_same {m0 : Nat} {r0 : State} {s : State} {p : StreamRec} (hk : Same m0 r0 s)
    (hw : sub 3145729 m0 = true) : Same m0 r0 (State.loadBank s p) := by
  unfold State.loadBank
  try dsimp only
  repeat' first
    | with_reducible assumption
    | exact sub_trans rfl hw
    | intro _
    | with_reducible apply State.modPipe_same
    | with_reducible apply State.setFld_same
    | with_reducible apply State.setFlag_same
    | with_reducible apply State.setReg_same
    | with_reducible apply State.modCam_same
    | with_reducible apply Same.ite
    | with_reducible apply Same.foldl
    | with_reducible apply Same.foldlFst
    | split

theorem State.openStream_same {m0 : Nat} {r0 : State} {s : State} {layer : Nat} {stream : Nat} (hk : Same m0 r0 s)
    (hw : sub 1048576 m0 = true) : Same m0 r0 (State.openStream s layer stream) := by
  unfold State.openStream
  try dsimp only
  repeat' first
    | with_reducible assumption
    | exact sub_trans rfl hw
    | intro _
    | with_reducible apply State.modCam_same

theorem State.markAbsent_same {m0 : Nat} {r0 : State} {s : State} {stream : Nat} (hk : Same m0 r0 s)
    (hw : sub 3212289 m0 = true) : Same m0 r0 (State.markAbsent s stream) := by
  unfold State.markAbsent
  have b10 : sub 1024 m0 = true := sub_trans rfl hw
  extract_lets a0 a1
  have k0 : Same m0 r0 a0
  on_goal 1 => unfold a0
  rotate_left
  clear_value a0
  try clear_value a1
  all_goals repeat' first
    | with_reducible assumption
    | exact sub_trans rfl hw
    | intro _
    | with_reducible apply State.unbindStream_same
    | with_reducible apply Same.ite
    | with_reducible apply Same.foldl
    | with_reducible apply Same.foldlFst
    | fail_if_no_progress with_reducible refine Same.upd_10 ?_ b10

theorem State.modBank_same {m0 : Nat} {r0 : State} {s : State} {n : Nat} {m : Nat} {f : IspBank → IspBank} (hk : Same m0 r0 s)
    (hw : sub 2097152 m0 = true) : Same m0 r0 (State.modBank s n m f) := by
  unfold State.modBank
  try dsimp only
  repeat' first
    | with_reducible assumption
    | exact sub_trans rfl hw
    | intro _
    | with_reducible apply State.modPipe_same

/-! ### Machine/OutOps.lean -/

theorem State.modSel_same {m0 : Nat} {r0 : State} {s : State} {f : Selector → Selector} (hk : Same m0 r0 s)
    (hw : sub 131072 m0 = true) : Same m0 r0 (State.modSel s f) := by
  unfold State.modSel
  have b17 : sub 131072 m0 = true := sub_trans rfl hw
  try dsimp only
  repeat' first
    | with_reducible assumption
    | exact sub_trans rfl hw
    | intro _
    | with_reducible apply Same.ite
    | with_reducible apply Same.foldl
    | with_reducible apply Same.foldlFst
    | fail_if_no_progress with_reducible refine Same.upd_17 ?_ b17

theorem State.switchSource_same {m0 : Nat} {r0 : State} {s : State} {ember : Bool} {why : Nat} (hk : Same m0 r0 s)
    (hw : sub 131073 m0 = true) : Same m0 r0 (State.switchSource s ember why) := by
  unfold State.switchSource
  extract_lets a0
  have k0 : Same m0 r0 a0
  on_goal 1 => unfold a0
  rotate_left
  clear_value a0
  all_goals repeat' first
    | with_reducible assumption
    | exact sub_trans rfl hw
    | intro _
    | with_reducible apply State.setFlag_same
    | with_reducible apply State.modSel_same
    | with_reducible apply State.event_same
    | with_reducible apply Same.ite

theorem State.restartCounts_same {m0 : Nat} {r0 : State} {s : State} (hk : Same m0 r0 s) (hw : sub 131073 m0 = true)
    : Same m0 r0 (State.restartCounts s) := by
  unfold State.restartCounts
  extract_lets a0
  have k0 : Same m0 r0 a0
  on_goal 1 => unfold a0
  rotate_left
  clear_value a0
  all_goals repeat' first
    | with_reducible assumption
    | exact sub_trans rfl hw
    | intro _
    | with_reducible apply State.setFld_same
    | with_reducible apply State.modSel_same

theorem State.queueEth_same {m0 : Nat} {r0 : State} {s : State} {mac : Nat} {t : EthTx} (hk : Same m0 r0 s)
    (hw : sub 4194305 m0 = true) : Same m0 r0 (State.queueEth s mac t) := by
  unfold State.queueEth
  have b22 : sub 4194304 m0 = true := sub_trans rfl hw
  try dsimp only
  repeat' first
    | with_reducible assumption
    | exact sub_trans rfl hw
    | intro _
    | with_reducible apply State.event_same
    | with_reducible apply State.addCnt_same
    | with_reducible apply Same.ite
    | with_reducible apply Same.foldl
    | with_reducible apply Same.foldlFst
    | fail_if_no_progress with_reducible refine Same.upd_22 ?_ b22

theorem State.queueCan_same {m0 : Nat} {r0 : State} {s : State} {can : Nat} {t : CanTx} (hk : Same m0 r0 s)
    (hw : sub 4194305 m0 = true) : Same m0 r0 (State.queueCan s can t) := by
  unfold State.queueCan
  have b22 : sub 4194304 m0 = true := sub_trans rfl hw
  extract_lets a0 a1 a2
  try clear_value a0
  have k1 : Same m0 r0 a1
  on_goal 1 => unfold a1
  rotate_left
  clear_value a1
  try clear_value a2
  all_goals repeat' first
    | with_reducible assumption
    | exact sub_trans rfl hw
    | intro _
    | with_reducible apply State.event_same
    | with_reducible apply Same.ite
    | with_reducible apply Same.foldl
    | with_reducible apply Same.foldlFst
    | fail_if_no_progress with_reducible refine Same.upd_22 ?_ b22

theorem State.handOver_same {m0 : Nat} {r0 : State} {s : State} {r : OutRec} {p : Payload} (hk : Same m0 r0 s)
    (hw : sub 4194305 m0 = true) : Same m0 r0 (State.handOver s r p) := by
  unfold State.handOver
  have b22 : sub 4194304 m0 = true := sub_trans rfl hw
  extract_lets a0 a1 a2 a3 a4 a5 a6 a7
  try clear_value a0
  try clear_value a1
  try clear_value a2
  try clear_value a3
  try clear_value a4
  try clear_value a5
  have k6 : Same m0 r0 a6
  on_goal 1 => unfold a6
  rotate_left
  clear_value a6
  have k7 : Same m0 r0 a7
  on_goal 1 => unfold a7
  rotate_left
  clear_value a7
  all_goals repeat' first
    | with_reducible assumption
    | exact sub_trans rfl hw
    | intro _
    | with_reducible apply State.queueEth_same
    | with_reducible apply State.queueCan_same
    | with_reducible apply Same.ite
    | with_reducible apply Same.foldl
    | with_reducible apply Same.foldlFst
    | fail_if_no_progress with_reducible refine Same.upd_22 ?_ b22

theorem State.announce_same {m0 : Nat} {r0 : State} {s : State} {seq : Word} (hk : Same m0 r0 s) (hw : sub 196609 m0 = true)
    : Same m0 r0 (State.announce s seq) := by
  unfold State.announce
  try dsimp only
  repeat' first
    | with_reducible assumption
    | exact sub_trans rfl hw
    | intro _
    | with_reducible apply State.modSel_same
    | with_reducible apply State.log_same
    | with_reducible apply Same.ite
    | with_reducible apply Same.foldl
    | with_reducible apply Same.foldlFst
    | split

theorem State.tryReturn_same {m0 : Nat} {r0 : State} {s : State} (hk : Same m0 r0 s) (hw : sub 131073 m0 = true) : Same m0 r0
    (State.tryReturn s) := by
  unfold State.tryReturn
  try dsimp only
  repeat' first
    | with_reducible assumption
    | exact sub_trans rfl hw
    | intro _
    | with_reducible apply State.switchSource_same
    | with_reducible apply Same.ite

theorem State.handEmber_same {m0 : Nat} {r0 : State} {s : State} {m : EmberMsg} (hk : Same m0 r0 s)
    (hw : sub 4390913 m0 = true) : Same m0 r0 (State.handEmber s m) := by
  unfold State.handEmber
  try dsimp only
  repeat' first
    | with_reducible assumption
    | exact sub_trans rfl hw
    | intro _
    | with_reducible apply State.handOver_same
    | with_reducible apply State.announce_same
    | with_reducible apply State.setFld_same
    | with_reducible apply State.modSel_same
    | with_reducible apply State.tryReturn_same
    | with_reducible apply Same.ite
    | with_reducible apply Same.foldl
    | with_reducible apply Same.foldlFst
    | split

theorem State.selectEmber_same {m0 : Nat} {r0 : State} {s : State} {why : Nat} (hk : Same m0 r0 s)
    (hw : sub 4390913 m0 = true) : Same m0 r0 (State.selectEmber s why) := by
  unfold State.selectEmber
  extract_lets a0 a1
  have k0 : Same m0 r0 a0
  on_goal 1 => unfold a0
  rotate_left
  clear_value a0
  have k1 : Same m0 r0 a1
  on_goal 1 => unfold a1
  rotate_left
  clear_value a1
  all_goals repeat' first
    | with_reducible assumption
    | exact sub_trans rfl hw
    | intro _
    | with_reducible apply State.switchSource_same
    | with_reducible apply State.modSel_same
    | with_reducible apply State.restartCounts_same
    | with_reducible apply State.handEmber_same
    | with_reducible apply Same.ite
    | with_reducible apply Same.foldl
    | with_reducible apply Same.foldlFst
    | split

theorem State.offerPrimary_same {m0 : Nat} {r0 : State} {s : State} {r : OutRec} {p : Payload} (hk : Same m0 r0 s)
    (hw : sub 4390913 m0 = true) : Same m0 r0 (State.offerPrimary s r p) := by
  unfold State.offerPrimary
  extract_lets a0 a1 a2 a3 a4
  try clear_value a0
  try clear_value a1
  have k2 : Same m0 r0 a2
  on_goal 1 => unfold a2
  rotate_left
  clear_value a2
  have k3 : Same m0 r0 a3
  on_goal 1 => unfold a3
  rotate_left
  clear_value a3
  have k4 : Same m0 r0 a4
  on_goal 1 => unfold a4
  rotate_left
  clear_value a4
  all_goals repeat' first
    | with_reducible assumption
    | exact sub_trans rfl hw
    | intro _
    | with_reducible apply State.addFld_same
    | with_reducible apply State.setFld_same
    | with_reducible apply State.modSel_same
    | with_reducible apply State.tryReturn_same
    | with_reducible apply State.announce_same
    | with_reducible apply State.handOver_same
    | with_reducible apply Same.ite

theorem State.startCounts_same {m0 : Nat} {r0 : State} {s : State} (hk : Same m0 r0 s) (hw : sub 131073 m0 = true)
    : Same m0 r0 (State.startCounts s) := by
  unfold State.startCounts
  try dsimp only
  repeat' first
    | with_reducible assumption
    | exact sub_trans rfl hw
    | intro _
    | with_reducible apply State.modSel_same
    | with_reducible apply State.restartCounts_same

/-! ### Machine/IcuOps.lean -/

theorem State.dropOffer_same {m0 : Nat} {r0 : State} {s : State} {m : Nat} (hk : Same m0 r0 s) (hw : sub 268435456 m0 = true)
    : Same m0 r0 (State.dropOffer s m) := by
  unfold State.dropOffer
  have b28 : sub 268435456 m0 = true := sub_trans rfl hw
  try dsimp only
  repeat' first
    | with_reducible assumption
    | exact sub_trans rfl hw
    | intro _
    | with_reducible apply Same.ite
    | with_reducible apply Same.foldl
    | with_reducible apply Same.foldlFst
    | fail_if_no_progress with_reducible refine Same.upd_28 ?_ b28

theorem State.setActive_same {m0 : Nat} {r0 : State} {s : State} {m : Nat} {v : Bool} (hk : Same m0 r0 s)
    (hw : sub 1 m0 = true) : Same m0 r0 (State.setActive s m v) := by
  unfold State.setActive
  try dsimp only
  repeat' first
    | with_reducible assumption
    | exact sub_trans rfl hw
    | intro _
    | with_reducible apply State.setFlag_same

theorem State.setPending_same {m0 : Nat} {r0 : State} {s : State} {m : Nat} {v : Bool} (hk : Same m0 r0 s)
    (hw : sub 1 m0 = true) : Same m0 r0 (State.setPending s m v) := by
  unfold State.setPending
  try dsimp only
  repeat' first
    | with_reducible assumption
    | exact sub_trans rfl hw
    | intro _
    | with_reducible apply State.setFlag_same

theorem State.putOffer_same {m0 : Nat} {r0 : State} {s : State} {m : Nat} {t : Nat} {pinned : Bool} (hk : Same m0 r0 s)
    (hw : sub 268435456 m0 = true) : Same m0 r0 (State.putOffer s m t pinned) := by
  unfold State.putOffer
  have b28 : sub 268435456 m0 = true := sub_trans rfl hw
  try dsimp only
  repeat' first
    | with_reducible assumption
    | exact sub_trans rfl hw
    | intro _
    | with_reducible apply Same.ite
    | with_reducible apply Same.foldl
    | with_reducible apply Same.foldlFst
    | fail_if_no_progress with_reducible refine Same.upd_28 ?_ b28

theorem State.completeSource_same {m0 : Nat} {r0 : State} {s : State} {m : Nat} {t : Nat} (hk : Same m0 r0 s)
    (hw : sub 268435457 m0 = true) : Same m0 r0 (State.completeSource s m t) := by
  unfold State.completeSource
  extract_lets a0 a1
  have k0 : Same m0 r0 a0
  on_goal 1 => unfold a0
  rotate_left
  clear_value a0
  have k1 : Same m0 r0 a1
  on_goal 1 => unfold a1
  rotate_left
  clear_value a1
  all_goals repeat' first
    | with_reducible assumption
    | exact sub_trans rfl hw
    | intro _
    | with_reducible apply State.setActive_same
    | with_reducible apply State.setPending_same
    | with_reducible apply State.putOffer_same
    | with_reducible apply State.dropOffer_same
    | with_reducible apply Same.ite

/-! ### Machine/MaintDefs.lean -/

theorem State.showMaint_same {m0 : Nat} {r0 : State} {s : State} (hk : Same m0 r0 s) (hw : sub 1 m0 = true) : Same m0 r0
    (State.showMaint s) := by
  unfold State.showMaint
  try dsimp only
  repeat' first
    | with_reducible assumption
    | exact sub_trans rfl hw
    | intro _
    | with_reducible apply State.setFld_same

theorem State.dropMaint_same {m0 : Nat} {r0 : State} {s : State} {code : Nat} (hk : Same m0 r0 s) (hw : sub 524289 m0 = true)
    : Same m0 r0 (State.dropMaint s code) := by
  unfold State.dropMaint
  have b19 : sub 524288 m0 = true := sub_trans rfl hw
  try dsimp only
  repeat' first
    | with_reducible assumption
    | exact sub_trans rfl hw
    | intro _
    | with_reducible apply State.showMaint_same
    | with_reducible apply Same.ite
    | with_reducible apply Same.foldl
    | with_reducible apply Same.foldlFst
    | fail_if_no_progress with_reducible refine Same.upd_19 ?_ b19

/-! ### Machine/MemOps.lean -/

theorem State.breakResv_same {m0 : Nat} {r0 : State} {s : State} {a : Nat} {len : Nat} (hk : Same m0 r0 s)
    (hw : sub 16384 m0 = true) : Same m0 r0 (State.breakResv s a len) := by
  unfold State.breakResv
  have b14 : sub 16384 m0 = true := sub_trans rfl hw
  try dsimp only
  repeat' first
    | with_reducible assumption
    | exact sub_trans rfl hw
    | intro _
    | with_reducible apply Same.ite
    | with_reducible apply Same.foldl
    | with_reducible apply Same.foldlFst
    | fail_if_no_progress with_reducible refine Same.upd_14 ?_ b14

theorem State.wcInvalidate_same {m0 : Nat} {r0 : State} {s : State} {a : Nat} {len : Nat} (hk : Same m0 r0 s)
    (hw : sub 8193 m0 = true) : Same m0 r0 (State.wcInvalidate s a len) := by
  unfold State.wcInvalidate
  have b13 : sub 8192 m0 = true := sub_trans rfl hw
  extract_lets a0 a1 a2
  try clear_value a0
  have k1 : Same m0 r0 a1
  on_goal 1 => unfold a1
  rotate_left
  clear_value a1
  try clear_value a2
  all_goals repeat' first
    | with_reducible assumption
    | exact sub_trans rfl hw
    | intro _
    | with_reducible apply State.addCnt_same
    | with_reducible apply Same.ite
    | with_reducible apply Same.foldl
    | with_reducible apply Same.foldlFst
    | fail_if_no_progress with_reducible refine Same.upd_13 ?_ b13

theorem State.write_same {m0 : Nat} {r0 : State} {s : State} {a : Nat} {bs : List Byte} (hk : Same m0 r0 s)
    (hw : sub 24581 m0 = true) : Same m0 r0 (State.write s a bs) := by
  unfold State.write
  have b13 : sub 8192 m0 = true := sub_trans rfl hw
  extract_lets a0 a1 a2 a3
  have k0 : Same m0 r0 a0
  on_goal 1 => unfold a0
  rotate_left
  clear_value a0
  have k1 : Same m0 r0 a1
  on_goal 1 => unfold a1
  rotate_left
  clear_value a1
  have k2 : Same m0 r0 a2
  on_goal 1 => unfold a2
  rotate_left
  clear_value a2
  try clear_value a3
  all_goals repeat' first
    | with_reducible assumption
    | exact sub_trans rfl hw
    | intro _
    | with_reducible apply State.breakResv_same
    | with_reducible apply State.store_same
    | with_reducible apply State.wcInvalidate_same
    | with_reducible apply State.addCnt_same
    | with_reducible apply Same.ite
    | with_reducible apply Same.foldl
    | with_reducible apply Same.foldlFst
    | fail_if_no_progress with_reducible refine Same.upd_13 ?_ b13

theorem State.fwRefuse_same {m0 : Nat} {r0 : State} {s : State} {t : Nat} {a : Nat} {domain : Nat} {init : Nat} {write : Bool}
    {unit : Nat} (hk : Same m0 r0 s) (hw : sub 196609 m0 = true) : Same m0 r0
    (State.fwRefuse s t a domain init write unit) := by
  unfold State.fwRefuse
  have b16 : sub 65536 m0 = true := sub_trans rfl hw
  extract_lets a0 a1 a2 a3 a4 a5 a6 a7 a8 a9
  have k0 : Same m0 r0 a0
  on_goal 1 => unfold a0
  rotate_left
  clear_value a0
  try clear_value a1
  have k2 : Same m0 r0 a2
  on_goal 1 => unfold a2
  rotate_left
  clear_value a2
  have k3 : Same m0 r0 a3
  on_goal 1 => unfold a3
  rotate_left
  clear_value a3
  have k4 : Same m0 r0 a4
  on_goal 1 => unfold a4
  rotate_left
  clear_value a4
  try clear_value a5
  try clear_value a6
  have k7 : Same m0 r0 a7
  on_goal 1 => unfold a7
  rotate_left
  clear_value a7
  try clear_value a8
  have k9 : Same m0 r0 a9
  on_goal 1 => unfold a9
  rotate_left
  clear_value a9
  all_goals repeat' first
    | with_reducible assumption
    | exact sub_trans rfl hw
    | intro _
    | with_reducible apply State.addCnt_same
    | with_reducible apply State.event_same
    | with_reducible apply State.setFlag_same
    | with_reducible apply State.setReg_same
    | with_reducible apply State.setFld_same
    | with_reducible apply State.log_same
    | with_reducible apply State.doubt_same
    | with_reducible apply Same.ite
    | with_reducible apply Same.foldl
    | with_reducible apply Same.foldlFst
    | fail_if_no_progress with_reducible refine Same.upd_16 ?_ b16

theorem State.remoteOne_same {m0 : Nat} {r0 : State} {s : State} {c : Issuer} {k : Nat} {a : Nat} {len : Nat} {write : Bool}
    {data : List Byte} (hk : Same m0 r0 s) (hw : sub 8388609 m0 = true) : Same m0 r0
    (State.remoteOne s c k a len write data).1 := by
  unfold State.remoteOne
  have b23 : sub 8388608 m0 = true := sub_trans rfl hw
  extract_lets a0 a1 a2 a3
  try clear_value a0
  try clear_value a1
  have k2 : Same m0 r0 a2
  on_goal 1 => unfold a2
  rotate_left
  clear_value a2
  try clear_value a3
  all_goals repeat' first
    | with_reducible assumption
    | exact sub_trans rfl hw
    | intro _
    | with_reducible apply State.sendTo_same
    | with_reducible apply Same.ite
    | with_reducible apply Same.foldl
    | with_reducible apply Same.foldlFst
    | fail_if_no_progress with_reducible refine Same.upd_23 ?_ b23
    | split

theorem State.remoteRun_same {m0 : Nat} {r0 : State} {s : State} {c : Issuer} {a : Nat} {len : Nat} {write : Bool}
    {data : List Byte} (hk : Same m0 r0 s) (hw : sub 8585217 m0 = true) : Same m0 r0
    (State.remoteRun s c a len write data).1 := by
  unfold State.remoteRun
  extract_lets g e l
  clear_value g e l
  split
  · exact hk
  · split
    · exact hk
    · split
      · exact hk
      · split
        · exact State.fwRefuse_same hk (sub_trans rfl hw)
        · apply Same.foldlFst
          · intro p x h
            exact State.remoteOne_same h (sub_trans rfl hw)
          · exact hk

theorem State.latchDecode_same {m0 : Nat} {r0 : State} {s : State} {a : Nat} {domain : Nat} {init : Nat} {write : Bool} (hk
    : Same m0 r0 s) (hw : sub 1 m0 = true) : Same m0 r0 (State.latchDecode s a domain init write) := by
  unfold State.latchDecode
  extract_lets a0 a1
  try clear_value a0
  have k1 : Same m0 r0 a1
  on_goal 1 => unfold a1
  rotate_left
  clear_value a1
  all_goals repeat' first
    | with_reducible assumption
    | exact sub_trans rfl hw
    | intro _
    | with_reducible apply State.setFlag_same
    | with_reducible apply State.setReg_same
    | with_reducible apply State.setFld_same
    | with_reducible apply Same.ite

theorem State.cinderTell_same {m0 : Nat} {r0 : State} {s : State} {c : Cinder} {a : Nat} {write : Bool} (hk : Same m0 r0 s)
    (hw : sub 73729 m0 = true) : Same m0 r0 (State.cinderTell s c a write) := by
  unfold State.cinderTell
  have b13 : sub 8192 m0 = true := sub_trans rfl hw
  extract_lets a0 a1 a2 a3 a4 a5 a6
  try clear_value a0
  try clear_value a1
  have k2 : Same m0 r0 a2
  on_goal 1 => unfold a2
  rotate_left
  clear_value a2
  have k3 : Same m0 r0 a3
  on_goal 1 => unfold a3
  rotate_left
  clear_value a3
  try clear_value a4
  have k5 : Same m0 r0 a5
  on_goal 1 => unfold a5
  rotate_left
  clear_value a5
  try clear_value a6
  all_goals repeat' first
    | with_reducible assumption
    | exact sub_trans rfl hw
    | intro _
    | with_reducible apply State.event_same
    | with_reducible apply State.addCnt_same
    | with_reducible apply State.log_same
    | with_reducible apply Same.ite
    | with_reducible apply Same.foldl
    | with_reducible apply Same.foldlFst
    | fail_if_no_progress with_reducible refine Same.upd_13 ?_ b13

theorem State.judge_same {m0 : Nat} {r0 : State} {s : State} {c : Issuer} {a : Nat} {len : Nat} {write : Bool} (hk
    : Same m0 r0 s) (hw : sub 204801 m0 = true) : Same m0 r0 (State.judge s c a len write).1 := by
  unfold State.judge
  extract_lets a0 a1 a2
  try clear_value a0
  have k1 : Same m0 r0 a1
  on_goal 1 => unfold a1
  rotate_left
  clear_value a1
  have k2 : Same m0 r0 a2
  on_goal 1 => unfold a2
  rotate_left
  clear_value a2
  all_goals repeat' first
    | with_reducible assumption
    | exact sub_trans rfl hw
    | intro _
    | with_reducible apply State.latchDecode_same
    | with_reducible apply State.fwRefuse_same
    | with_reducible apply State.event_same
    | with_reducible apply State.cinderTell_same
    | with_reducible apply State.addCnt_same
    | with_reducible apply Same.ite
    | with_reducible apply Same.foldl
    | with_reducible apply Same.foldlFst
    | split

theorem State.judgeRuns_same {m0 : Nat} {r0 : State} {s : State} {c : Issuer} {write : Bool} {l : List (Nat × Nat)} (hk
    : Same m0 r0 s) (hw : sub 204801 m0 = true) : Same m0 r0 (State.judgeRuns s c write l).1 := by
  induction l generalizing s with
  | nil => exact hk
  | cons x t ih =>
    have h1 := State.judge_same (c := c) (a := x.1) (len := x.2) (write := write) hk (sub_trans rfl hw)
    unfold State.judgeRuns
    dsimp only
    split
    · exact h1
    · exact ih h1

theorem State.judgeRun_same {m0 : Nat} {r0 : State} {s : State} {c : Issuer} {a : Nat} {len : Nat} {write : Bool} (hk
    : Same m0 r0 s) (hw : sub 8593409 m0 = true) : Same m0 r0 (State.judgeRun s c a len write).1 := by
  unfold State.judgeRun
  split
  · exact Same.pair (State.remoteRun_same (c := c) (a := a) (len := len) (write := write) (data := []) hk (sub_trans rfl hw))
  · exact State.judgeRuns_same hk (sub_trans rfl hw)

theorem State.endRemote_same {m0 : Nat} {r0 : State} {s : State} {unit : Nat} (hk : Same m0 r0 s) (hw : sub 8388608 m0 = true)
    : Same m0 r0 (State.endRemote s unit) := by
  unfold State.endRemote
  have b23 : sub 8388608 m0 = true := sub_trans rfl hw
  try dsimp only
  repeat' first
    | with_reducible assumption
    | exact sub_trans rfl hw
    | intro _
    | with_reducible apply Same.ite
    | with_reducible apply Same.foldl
    | with_reducible apply Same.foldlFst
    | fail_if_no_progress with_reducible refine Same.upd_23 ?_ b23

theorem State.wcRead_same {m0 : Nat} {r0 : State} {s : State} {a : Nat} {len : Nat} {allocate : Bool} (hk : Same m0 r0 s)
    (hw : sub 8193 m0 = true) : Same m0 r0 (State.wcRead s a len allocate) := by
  unfold State.wcRead
  have b13 : sub 8192 m0 = true := sub_trans rfl hw
  try dsimp only
  repeat' first
    | with_reducible assumption
    | exact sub_trans rfl hw
    | intro _
    | with_reducible apply State.addCnt_same
    | with_reducible apply Same.ite
    | with_reducible apply Same.foldl
    | with_reducible apply Same.foldlFst
    | fail_if_no_progress with_reducible refine Same.upd_13 ?_ b13

theorem State.judgeReads_same {m0 : Nat} {r0 : State} {s : State} {c : Issuer} {rs : List (Nat × Nat)} {allocate : Bool} (hk
    : Same m0 r0 s) (hw : sub 8593409 m0 = true) : Same m0 r0 (State.judgeReads s c rs allocate).1 := by
  unfold State.judgeReads
  try dsimp only
  repeat' first
    | with_reducible assumption
    | exact sub_trans rfl hw
    | intro _
    | with_reducible apply State.judgeRun_same
    | with_reducible apply State.wcRead_same
    | with_reducible apply Same.ite
    | with_reducible apply Same.foldl
    | with_reducible apply Same.foldlFst
    | split

theorem State.judgeWrites_same {m0 : Nat} {r0 : State} {s : State} {c : Issuer} {ws : List (Nat × List Byte)} (hk
    : Same m0 r0 s) (hw : sub 8593409 m0 = true) : Same m0 r0 (State.judgeWrites s c ws).1 := by
  unfold State.judgeWrites
  apply Same.foldlFst
  · intro p x h
    split
    · exact h
    · split
      · exact Same.pair (State.remoteRun_same (c := c) (a := x.1) (len := x.2.length) (write := true) (data := x.2) h
          (sub_trans rfl hw))
      · exact State.judgeRun_same h (sub_trans rfl hw)
  · exact hk

theorem State.writes_same {m0 : Nat} {r0 : State} {s : State} {ws : List (Nat × List Byte)} (hk : Same m0 r0 s)
    (hw : sub 24581 m0 = true) : Same m0 r0 (State.writes s ws) := by
  unfold State.writes
  try dsimp only
  repeat' first
    | with_reducible assumption
    | exact sub_trans rfl hw
    | intro _
    | with_reducible apply State.write_same
    | with_reducible apply Same.ite
    | with_reducible apply Same.foldl

/-! ### Machine/CvuOps.lean -/

theorem State.modCvu_same {m0 : Nat} {r0 : State} {s : State} {n : Nat} {f : CvuSt → CvuSt} (hk : Same m0 r0 s)
    (hw : sub 16777216 m0 = true) : Same m0 r0 (State.modCvu s n f) := by
  unfold State.modCvu
  have b24 : sub 16777216 m0 = true := sub_trans rfl hw
  try dsimp only
  repeat' first
    | with_reducible assumption
    | exact sub_trans rfl hw
    | intro _
    | with_reducible apply Same.ite
    | with_reducible apply Same.foldl
    | with_reducible apply Same.foldlFst
    | fail_if_no_progress with_reducible refine Same.upd_24 ?_ b24

theorem State.cvuEnd_same {m0 : Nat} {r0 : State} {s : State} {n : Nat} {result : Nat} (hk : Same m0 r0 s)
    (hw : sub 16777217 m0 = true) : Same m0 r0 (State.cvuEnd s n result) := by
  unfold State.cvuEnd
  extract_lets a0 a1 a2
  try clear_value a0
  have k1 : Same m0 r0 a1
  on_goal 1 => unfold a1
  rotate_left
  clear_value a1
  have k2 : Same m0 r0 a2
  on_goal 1 => unfold a2
  rotate_left
  clear_value a2
  all_goals repeat' first
    | with_reducible assumption
    | exact sub_trans rfl hw
    | intro _
    | with_reducible apply State.setFld_same
    | with_reducible apply State.event_same
    | with_reducible apply State.modCvu_same
    | with_reducible apply Same.ite
    | with_reducible apply Same.foldl
    | with_reducible apply Same.foldlFst
    | split

theorem State.cvuAbort_same {m0 : Nat} {r0 : State} {s : State} {n : Nat} (hk : Same m0 r0 s) (hw : sub 16777217 m0 = true)
    : Same m0 r0 (State.cvuAbort s n) := by
  unfold State.cvuAbort
  try dsimp only
  repeat' first
    | with_reducible assumption
    | exact sub_trans rfl hw
    | intro _
    | with_reducible apply State.cvuEnd_same
    | with_reducible apply Same.ite

theorem State.armTap_same {m0 : Nat} {r0 : State} {s : State} {n : Nat} {unit : Nat} (hk : Same m0 r0 s)
    (hw : sub 16777217 m0 = true) : Same m0 r0 (State.armTap s n unit) := by
  unfold State.armTap
  try dsimp only
  repeat' first
    | with_reducible assumption
    | exact sub_trans rfl hw
    | intro _
    | with_reducible apply State.event_same
    | with_reducible apply State.setFld_same
    | with_reducible apply State.modCvu_same
    | with_reducible apply Same.ite

theorem State.cvuReset_same {m0 : Nat} {r0 : State} {s : State} {n : Nat} {owner : Nat} (hk : Same m0 r0 s)
    (hw : sub 16777217 m0 = true) : Same m0 r0 (State.cvuReset s n owner) := by
  unfold State.cvuReset
  extract_lets a0 a1
  have k0 : Same m0 r0 a0
  on_goal 1 => unfold a0
  rotate_left
  clear_value a0
  have k1 : Same m0 r0 a1
  on_goal 1 => unfold a1
  rotate_left
  clear_value a1
  all_goals repeat' first
    | with_reducible assumption
    | exact sub_trans rfl hw
    | intro _
    | with_reducible apply State.cvuAbort_same
    | with_reducible apply State.setReg_same
    | with_reducible apply State.setFld_same
    | with_reducible apply State.modCvu_same
    | with_reducible apply Same.ite
    | with_reducible apply Same.foldl

theorem State.syncCvus_same {m0 : Nat} {r0 : State} {s : State} (hk : Same m0 r0 s) (hw : sub 16777217 m0 = true) : Same m0 r0
    (State.syncCvus s) := by
  unfold State.syncCvus
  try dsimp only
  repeat' first
    | with_reducible assumption
    | exact sub_trans rfl hw
    | intro _
    | with_reducible apply State.cvuReset_same
    | with_reducible apply Same.ite
    | with_reducible apply Same.foldl

theorem State.cvuCompute_same {m0 : Nat} {r0 : State} {s : State} {n : Nat} {bytes : List Byte} (hk : Same m0 r0 s)
    (hw : sub 16777217 m0 = true) : Same m0 r0 (State.cvuCompute s n bytes) := by
  unfold State.cvuCompute
  extract_lets a0 a1 a2 a3 a4
  try clear_value a0
  try clear_value a1
  try clear_value a2
  try clear_value a3
  have k4 : Same m0 r0 a4
  on_goal 1 => unfold a4
  rotate_left
  clear_value a4
  all_goals repeat' first
    | with_reducible assumption
    | exact sub_trans rfl hw
    | intro _
    | with_reducible apply State.setReg_same
    | with_reducible apply State.modCvu_same

theorem State.cvuJudge_same {m0 : Nat} {r0 : State} {s : State} {n : Nat} {short : Bool} (hk : Same m0 r0 s)
    (hw : sub 16973825 m0 = true) : Same m0 r0 (State.cvuJudge s n short) := by
  unfold State.cvuJudge
  extract_lets a0 a1 a2 a3 a4 a5
  try clear_value a0
  try clear_value a1
  try clear_value a2
  try clear_value a3
  try clear_value a4
  have k5 : Same m0 r0 a5
  on_goal 1 => unfold a5
  rotate_left
  clear_value a5
  all_goals repeat' first
    | with_reducible assumption
    | exact sub_trans rfl hw
    | intro _
    | with_reducible apply State.cvuEnd_same
    | with_reducible apply State.log_same
    | with_reducible apply State.doubt_same
    | with_reducible apply Same.ite

theorem State.tapAbort_same {m0 : Nat} {r0 : State} {s : State} {unit : Nat} {domain : Nat} {slot : Nat} (hk : Same m0 r0 s)
    (hw : sub 16777217 m0 = true) : Same m0 r0 (State.tapAbort s unit domain slot) := by
  unfold State.tapAbort
  try dsimp only
  repeat' first
    | with_reducible assumption
    | exact sub_trans rfl hw
    | intro _
    | with_reducible apply State.cvuEnd_same
    | with_reducible apply Same.ite
    | with_reducible apply Same.foldl
    | with_reducible apply Same.foldlFst
    | split

theorem State.tapStream_same {m0 : Nat} {r0 : State} {s : State} {unit : Nat} {domain : Nat} {slot : Nat} {bytes : List Byte}
    (hk : Same m0 r0 s) (hw : sub 16777217 m0 = true) : Same m0 r0 (State.tapStream s unit domain slot bytes) := by
  unfold State.tapStream
  try dsimp only
  repeat' first
    | with_reducible assumption
    | exact sub_trans rfl hw
    | intro _
    | with_reducible apply State.modCvu_same
    | with_reducible apply State.setFld_same
    | with_reducible apply Same.ite
    | with_reducible apply Same.foldl
    | with_reducible apply Same.foldlFst
    | split

/-! ### Machine/SceneOps.lean -/

theorem State.phase_same {m0 : Nat} {r0 : State} {s : State} {p : Nat} (hk : Same m0 r0 s) (hw : sub 1 m0 = true) : Same m0 r0
    (State.phase s p) := by
  unfold State.phase
  try dsimp only
  repeat' first
    | with_reducible assumption
    | exact sub_trans rfl hw
    | intro _
    | with_reducible apply State.setFld_same

theorem State.baseHandover_same {m0 : Nat} {r0 : State} {s : State} (hk : Same m0 r0 s) (hw : sub 4390913 m0 = true)
    : Same m0 r0 (State.baseHandover s) := by
  unfold State.baseHandover
  try dsimp only
  repeat' first
    | with_reducible assumption
    | exact sub_trans rfl hw
    | intro _
    | with_reducible apply State.selectEmber_same
    | with_reducible apply State.setFlag_same

theorem State.promoteStreams_same {m0 : Nat} {r0 : State} {s : State} {ss : List Nat} (hk : Same m0 r0 s)
    (hw : sub 1048577 m0 = true) : Same m0 r0 (State.promoteStreams s ss) := by
  unfold State.promoteStreams
  try dsimp only
  repeat' first
    | with_reducible assumption
    | exact sub_trans rfl hw
    | intro _
    | with_reducible apply State.event_same
    | with_reducible apply State.setFlag_same
    | with_reducible apply State.modCam_same
    | with_reducible apply Same.ite
    | with_reducible apply Same.foldl

theorem State.makeOutgoing_same {m0 : Nat} {r0 : State} {s : State} {ids : List Nat} (hk : Same m0 r0 s)
    (hw : sub 28694537 m0 = true) : Same m0 r0 (State.makeOutgoing s ids) := by
  unfold State.makeOutgoing
  have b11_12 : sub 6144 m0 = true := sub_trans rfl hw
  have b12 : sub 4096 m0 = true := sub_trans rfl hw
  extract_lets a0 a1 a2 a3 a4 a5 a6 a7 a8 a9 a10
  try clear_value a0
  try clear_value a1
  have k2 : Same m0 r0 a2
  on_goal 1 => unfold a2
  rotate_left
  clear_value a2
  try clear_value a3
  have k4 : Same m0 r0 a4
  on_goal 1 => unfold a4
  rotate_left
  clear_value a4
  try clear_value a5
  have k6 : Same m0 r0 a6
  on_goal 1 => unfold a6
  rotate_left
  clear_value a6
  try clear_value a7
  have k8 : Same m0 r0 a8
  on_goal 1 => unfold a8
  rotate_left
  clear_value a8
  try clear_value a9
  have k10 : Same m0 r0 a10
  on_goal 1 => unfold a10
  rotate_left
  clear_value a10
  all_goals repeat' first
    | with_reducible assumption
    | exact sub_trans rfl hw
    | intro _
    | with_reducible apply State.cvuAbort_same
    | with_reducible apply State.unbindStream_same
    | with_reducible apply State.cancel_same
    | with_reducible apply State.phase_same
    | with_reducible apply Same.ite
    | with_reducible apply Same.foldl
    | with_reducible apply Same.foldlFst
    | fail_if_no_progress with_reducible refine Same.upd_11_12 ?_ b11_12

theorem State.requestPower_same {m0 : Nat} {r0 : State} {s : State} {code : Nat} (hk : Same m0 r0 s) (hw : sub 8192 m0 = true)
    : Same m0 r0 (State.requestPower s code) := by
  unfold State.requestPower
  have b13 : sub 8192 m0 = true := sub_trans rfl hw
  try dsimp only
  repeat' first
    | with_reducible assumption
    | exact sub_trans rfl hw
    | intro _
    | with_reducible apply Same.ite
    | with_reducible apply Same.foldl
    | with_reducible apply Same.foldlFst
    | fail_if_no_progress with_reducible refine Same.upd_13 ?_ b13

theorem State.dropHold_same {m0 : Nat} {r0 : State} {s : State} {code : Nat} (hk : Same m0 r0 s) (hw : sub 32768 m0 = true)
    : Same m0 r0 (State.dropHold s code) := by
  unfold State.dropHold
  try dsimp only
  repeat' first
    | with_reducible assumption
    | exact sub_trans rfl hw
    | intro _
    | with_reducible apply State.modUnit_same

theorem State.syncCoverage_same {m0 : Nat} {r0 : State} {s : State} {start : Nat} (hk : Same m0 r0 s)
    (hw : sub 163840 m0 = true) : Same m0 r0 (State.syncCoverage s start) := by
  unfold State.syncCoverage
  have b17 : sub 131072 m0 = true := sub_trans rfl hw
  extract_lets a0 a1 a2 a3 a4 a5 a6 a7 a8
  try clear_value a0
  try clear_value a1
  try clear_value a2
  have k3 : Same m0 r0 a3
  on_goal 1 => unfold a3
  rotate_left
  clear_value a3
  try clear_value a4
  have k5 : Same m0 r0 a5
  on_goal 1 => unfold a5
  rotate_left
  clear_value a5
  try clear_value a6
  try clear_value a7
  try clear_value a8
  all_goals repeat' first
    | with_reducible assumption
    | exact sub_trans rfl hw
    | intro _
    | with_reducible apply State.dropHold_same
    | with_reducible apply Same.ite
    | with_reducible apply Same.foldl
    | with_reducible apply Same.foldlFst
    | fail_if_no_progress with_reducible refine Same.upd_17 ?_ b17

theorem State.accept_same {m0 : Nat} {r0 : State} {s : State} {target : Nat} {cause : Nat} {strip : Option (List Nat)}
    {promote : List Nat} (hk : Same m0 r0 s) (hw : sub 33028105 m0 = true) : Same m0 r0
    (State.accept s target cause strip promote) := by
  unfold State.accept
  have b11 : sub 2048 m0 = true := sub_trans rfl hw
  extract_lets a0 a1 a2 a3 a4 a5 a6 a7 a8 a9 a10 a11 a12 a13
  try clear_value a0
  try clear_value a1
  try clear_value a2
  try clear_value a3
  try clear_value a4
  try clear_value a5
  have k6 : Same m0 r0 a6
  on_goal 1 => unfold a6
  rotate_left
  clear_value a6
  try clear_value a7
  try clear_value a8
  have k9 : Same m0 r0 a9
  on_goal 1 => unfold a9
  rotate_left
  clear_value a9
  have k10 : Same m0 r0 a10
  on_goal 1 => unfold a10
  rotate_left
  clear_value a10
  have k11 : Same m0 r0 a11
  on_goal 1 => unfold a11
  rotate_left
  clear_value a11
  have k12 : Same m0 r0 a12
  on_goal 1 => unfold a12
  rotate_left
  clear_value a12
  have k13 : Same m0 r0 a13
  on_goal 1 => unfold a13
  rotate_left
  clear_value a13
  all_goals repeat' first
    | with_reducible assumption
    | exact sub_trans rfl hw
    | intro _
    | with_reducible apply State.log_same
    | with_reducible apply State.phase_same
    | with_reducible apply State.setFld_same
    | with_reducible apply State.baseHandover_same
    | with_reducible apply State.promoteStreams_same
    | with_reducible apply State.makeOutgoing_same
    | with_reducible apply State.requestPower_same
    | with_reducible apply State.syncCoverage_same
    | with_reducible apply Same.ite
    | with_reducible apply Same.foldl
    | with_reducible apply Same.foldlFst
    | fail_if_no_progress with_reducible refine Same.upd_11 ?_ b11

theorem State.actOn_same {m0 : Nat} {r0 : State} {s : State} {l : List TrigRec} (hk : Same m0 r0 s)
    (hw : sub 33028105 m0 = true) : Same m0 r0 (State.actOn s l) := by
  unfold State.actOn
  try dsimp only
  repeat' first
    | with_reducible assumption
    | exact sub_trans rfl hw
    | intro _
    | with_reducible apply State.accept_same
    | with_reducible apply Same.ite
    | with_reducible apply Same.foldl
    | with_reducible apply Same.foldlFst
    | split

theorem State.evalTriggers_same {m0 : Nat} {r0 : State} {s : State} {kind : Nat} {source : Nat} (hk : Same m0 r0 s)
    (hw : sub 33028105 m0 = true) : Same m0 r0 (State.evalTriggers s kind source) := by
  unfold State.evalTriggers
  try dsimp only
  repeat' first
    | with_reducible assumption
    | exact sub_trans rfl hw
    | intro _
    | with_reducible apply State.actOn_same
    | with_reducible apply Same.ite

theorem State.addCinder_same {m0 : Nat} {r0 : State} {s : State} {base : Nat} {size : Nat} {forLayer : Option Nat} (hk
    : Same m0 r0 s) (hw : sub 8192 m0 = true) : Same m0 r0 (State.addCinder s base size forLayer) := by
  unfold State.addCinder
  have b13 : sub 8192 m0 = true := sub_trans rfl hw
  try dsimp only
  repeat' first
    | with_reducible assumption
    | exact sub_trans rfl hw
    | intro _
    | with_reducible apply Same.ite
    | with_reducible apply Same.foldl
    | with_reducible apply Same.foldlFst
    | fail_if_no_progress with_reducible refine Same.upd_13 ?_ b13

theorem State.loadWindows_same {m0 : Nat} {r0 : State} {s : State} {n : Nat} {ws : List (Nat × Nat × Bool × Bool)} (hk
    : Same m0 r0 s) (hw : sub 1 m0 = true) : Same m0 r0 (State.loadWindows s n ws) := by
  unfold State.loadWindows
  try dsimp only
  repeat' first
    | with_reducible assumption
    | exact sub_trans rfl hw
    | intro _
    | with_reducible apply State.setReg_same
    | with_reducible apply Same.ite
    | with_reducible apply Same.foldl
    | with_reducible apply Same.foldlFst
    | split

theorem State.ringCredit_same {m0 : Nat} {r0 : State} {s : State} {l : LayerRec} {rc : RingRec} {pr : Producer} (hk
    : Same m0 r0 s) (hw : sub 1 m0 = true) : Same m0 r0 (State.ringCredit s l rc pr) := by
  unfold State.ringCredit
  try dsimp only
  repeat' first
    | with_reducible assumption
    | exact sub_trans rfl hw
    | intro _
    | with_reducible apply State.setFld_same
    | with_reducible apply State.setFlag_same
    | with_reducible apply State.setReg_same
    | with_reducible apply Same.ite
    | with_reducible apply Same.foldl
    | with_reducible apply Same.foldlFst
    | split

theorem State.bindLayer_same {m0 : Nat} {r0 : State} {s : State} {l : LayerRec} {periodNs : Nat} (hk : Same m0 r0 s)
    (hw : sub 20060169 m0 = true) : Same m0 r0 (State.bindLayer s l periodNs) := by
  unfold State.bindLayer
  have b11_12_17 : sub 137216 m0 = true := sub_trans rfl hw
  extract_lets a0 a1 a2 a3 a4 a5 a6 a7 a8 a9 a10 a11
  try clear_value a0
  try clear_value a1
  try clear_value a2
  try clear_value a3
  try clear_value a4
  try clear_value a5
  try clear_value a6
  have k7 : Same m0 r0 a7
  on_goal 1 => unfold a7
  rotate_left
  clear_value a7
  have k8 : Same m0 r0 a8
  on_goal 1 => unfold a8
  rotate_left
  clear_value a8
  try clear_value a9
  have k10 : Same m0 r0 a10
  on_goal 1 => unfold a10
  rotate_left
  clear_value a10
  have k11 : Same m0 r0 a11
  on_goal 1 => unfold a11
  rotate_left
  clear_value a11
  all_goals repeat' first
    | with_reducible assumption
    | exact sub_trans rfl hw
    | intro _
    | with_reducible apply State.setFlagWord_same
    | with_reducible apply State.loadWindows_same
    | with_reducible apply State.ringCredit_same
    | with_reducible apply State.syncCvus_same
    | with_reducible apply State.noteHwm_same
    | with_reducible apply State.loadBank_same
    | with_reducible apply Same.ite
    | with_reducible apply Same.foldl
    | with_reducible apply Same.foldlFst
    | fail_if_no_progress with_reducible refine Same.upd_11_12_17 ?_ b11_12_17

theorem State.openLayer_same {m0 : Nat} {r0 : State} {s : State} {id : Nat} (hk : Same m0 r0 s) (hw : sub 1054720 m0 = true)
    : Same m0 r0 (State.openLayer s id) := by
  unfold State.openLayer
  have b11_12 : sub 6144 m0 = true := sub_trans rfl hw
  try dsimp only
  repeat' first
    | with_reducible assumption
    | exact sub_trans rfl hw
    | intro _
    | with_reducible apply State.openStream_same
    | with_reducible apply Same.ite
    | with_reducible apply Same.foldl
    | with_reducible apply Same.foldlFst
    | fail_if_no_progress with_reducible refine Same.upd_11_12 ?_ b11_12
    | split

theorem State.removeLayer_same {m0 : Nat} {r0 : State} {s : State} {id : Nat} (hk : Same m0 r0 s) (hw : sub 137216 m0 = true)
    : Same m0 r0 (State.removeLayer s id) := by
  unfold State.removeLayer
  have b11_12_17 : sub 137216 m0 = true := sub_trans rfl hw
  try dsimp only
  repeat' first
    | with_reducible assumption
    | exact sub_trans rfl hw
    | intro _
    | with_reducible apply Same.ite
    | with_reducible apply Same.foldl
    | with_reducible apply Same.foldlFst
    | fail_if_no_progress with_reducible refine Same.upd_11_12_17 ?_ b11_12_17

theorem State.modSwitch_same {m0 : Nat} {r0 : State} {s : State} {f : Switch → Switch} (hk : Same m0 r0 s)
    (hw : sub 2048 m0 = true) : Same m0 r0 (State.modSwitch s f) := by
  unfold State.modSwitch
  have b11 : sub 2048 m0 = true := sub_trans rfl hw
  try dsimp only
  repeat' first
    | with_reducible assumption
    | exact sub_trans rfl hw
    | intro _
    | with_reducible apply Same.ite
    | with_reducible apply Same.foldl
    | with_reducible apply Same.foldlFst
    | fail_if_no_progress with_reducible refine Same.upd_11 ?_ b11

theorem State.cinderLayer_same {m0 : Nat} {r0 : State} {s : State} {sw : Switch} {l : LayerRec} (hk : Same m0 r0 s)
    (hw : sub 16922625 m0 = true) : Same m0 r0 (State.cinderLayer s sw l) := by
  unfold State.cinderLayer
  extract_lets a0 a1 a2 a3
  try clear_value a0
  try clear_value a1
  have k2 : Same m0 r0 a2
  on_goal 1 => unfold a2
  rotate_left
  clear_value a2
  have k3 : Same m0 r0 a3
  on_goal 1 => unfold a3
  rotate_left
  clear_value a3
  all_goals repeat' first
    | with_reducible assumption
    | exact sub_trans rfl hw
    | intro _
    | with_reducible apply State.syncCvus_same
    | with_reducible apply State.removeLayer_same
    | with_reducible apply State.addCinder_same
    | with_reducible apply State.phase_same
    | with_reducible apply State.modSwitch_same
    | with_reducible apply Same.ite
    | with_reducible apply Same.foldl

theorem State.enterCinder_same {m0 : Nat} {r0 : State} {s : State} {base : Nat} (hk : Same m0 r0 s) (hw : sub 8193 m0 = true)
    : Same m0 r0 (State.enterCinder s base) := by
  unfold State.enterCinder
  have b13 : sub 8192 m0 = true := sub_trans rfl hw
  try dsimp only
  repeat' first
    | with_reducible assumption
    | exact sub_trans rfl hw
    | intro _
    | with_reducible apply State.wcInvalidate_same
    | with_reducible apply Same.ite
    | with_reducible apply Same.foldl
    | with_reducible apply Same.foldlFst
    | fail_if_no_progress with_reducible refine Same.upd_13 ?_ b13
    | split

theorem State.cinderNow_same {m0 : Nat} {r0 : State} {s : State} {base : Nat} {size : Nat} (hk : Same m0 r0 s)
    (hw : sub 8193 m0 = true) : Same m0 r0 (State.cinderNow s base size) := by
  unfold State.cinderNow
  try dsimp only
  repeat' first
    | with_reducible assumption
    | exact sub_trans rfl hw
    | intro _
    | with_reducible apply State.enterCinder_same
    | with_reducible apply State.addCinder_same

theorem State.dropWork_same {m0 : Nat} {r0 : State} {s : State} {code : Nat} (hk : Same m0 r0 s)
    (hw : sub 277139465 m0 = true) : Same m0 r0 (State.dropWork s code) := by
  unfold State.dropWork
  try dsimp only
  repeat' first
    | with_reducible assumption
    | exact sub_trans rfl hw
    | intro _
    | with_reducible apply State.cancelNow_same
    | with_reducible apply State.modInst_same
    | with_reducible apply State.dropOffer_same
    | with_reducible apply State.completeSource_same
    | with_reducible apply State.modCore_same
    | with_reducible apply State.setReg_same
    | with_reducible apply State.setFld_same
    | with_reducible apply Same.ite
    | with_reducible apply Same.foldl
    | with_reducible apply Same.foldlFst
    | split

theorem State.setDomain_same {m0 : Nat} {r0 : State} {s : State} {on : Bool} {d : Nat} (hk : Same m0 r0 s)
    (hw : sub 1 m0 = true) : Same m0 r0 (State.setDomain s on d) := by
  unfold State.setDomain
  try dsimp only
  repeat' first
    | with_reducible assumption
    | exact sub_trans rfl hw
    | intro _
    | with_reducible apply State.setFlag_same

theorem State.gateUnit_same {m0 : Nat} {r0 : State} {s : State} {code : Nat} (hk : Same m0 r0 s) (hw : sub 32769 m0 = true)
    : Same m0 r0 (State.gateUnit s code) := by
  unfold State.gateUnit
  try dsimp only
  repeat' first
    | with_reducible assumption
    | exact sub_trans rfl hw
    | intro _
    | with_reducible apply State.modUnit_same
    | with_reducible apply State.setDomain_same
    | with_reducible apply Same.ite
    | with_reducible apply Same.foldl

theorem State.selectScene_same {m0 : Nat} {r0 : State} {s : State} {code : Nat} (hk : Same m0 r0 s)
    (hw : sub 33028105 m0 = true) : Same m0 r0 (State.selectScene s code) := by
  unfold State.selectScene
  try dsimp only
  repeat' first
    | with_reducible assumption
    | exact sub_trans rfl hw
    | intro _
    | with_reducible apply State.accept_same
    | with_reducible apply State.severe_same
    | with_reducible apply Same.ite
    | with_reducible apply Same.foldl
    | with_reducible apply Same.foldlFst
    | split

theorem State.redirect_same {m0 : Nat} {r0 : State} {s : State} {v : Nat} (hk : Same m0 r0 s) (hw : sub 33028105 m0 = true)
    : Same m0 r0 (State.redirect s v) := by
  unfold State.redirect
  try dsimp only
  repeat' first
    | with_reducible assumption
    | exact sub_trans rfl hw
    | intro _
    | with_reducible apply State.modSwitch_same
    | with_reducible apply State.setFld_same
    | with_reducible apply State.baseHandover_same
    | with_reducible apply State.makeOutgoing_same
    | with_reducible apply State.requestPower_same
    | with_reducible apply State.syncCoverage_same
    | with_reducible apply Same.ite
    | with_reducible apply Same.foldl
    | with_reducible apply Same.foldlFst
    | split

theorem State.fenceScene_same {m0 : Nat} {r0 : State} {s : State} {code : Nat} (hk : Same m0 r0 s)
    (hw : sub 33028105 m0 = true) : Same m0 r0 (State.fenceScene s code) := by
  unfold State.fenceScene
  have b11 : sub 2048 m0 = true := sub_trans rfl hw
  extract_lets a0 a1 a2
  try clear_value a0
  have k1 : Same m0 r0 a1
  on_goal 1 => unfold a1
  rotate_left
  clear_value a1
  try clear_value a2
  all_goals repeat' first
    | with_reducible assumption
    | exact sub_trans rfl hw
    | intro _
    | with_reducible apply State.selectScene_same
    | with_reducible apply State.redirect_same
    | with_reducible apply Same.ite
    | with_reducible apply Same.foldl
    | with_reducible apply Same.foldlFst
    | fail_if_no_progress with_reducible refine Same.upd_11 ?_ b11
    | split

theorem State.emptyStaging_same {m0 : Nat} {r0 : State} {s : State} (hk : Same m0 r0 s) (hw : sub 8 m0 = true) : Same m0 r0
    (State.emptyStaging s) := by
  unfold State.emptyStaging
  try dsimp only
  repeat' first
    | with_reducible assumption
    | exact sub_trans rfl hw
    | intro _
    | with_reducible apply State.setFlagWord_same
    | with_reducible apply Same.ite
    | with_reducible apply Same.foldl

theorem State.fenceMc_same {m0 : Nat} {r0 : State} {s : State} {n : Nat} (hk : Same m0 r0 s) (hw : sub 204809 m0 = true)
    : Same m0 r0 (State.fenceMc s n) := by
  unfold State.fenceMc
  have b13 : sub 8192 m0 = true := sub_trans rfl hw
  have b16 : sub 65536 m0 = true := sub_trans rfl hw
  extract_lets a0 a1 a2 a3 a4 a5 a6 a7
  have k0 : Same m0 r0 a0
  on_goal 1 => unfold a0
  rotate_left
  clear_value a0
  have k1 : Same m0 r0 a1
  on_goal 1 => unfold a1
  rotate_left
  clear_value a1
  try clear_value a2
  try clear_value a3
  have k4 : Same m0 r0 a4
  on_goal 1 => unfold a4
  rotate_left
  clear_value a4
  have k5 : Same m0 r0 a5
  on_goal 1 => unfold a5
  rotate_left
  clear_value a5
  try clear_value a6
  have k7 : Same m0 r0 a7
  on_goal 1 => unfold a7
  rotate_left
  clear_value a7
  all_goals repeat' first
    | with_reducible assumption
    | exact sub_trans rfl hw
    | intro _
    | with_reducible apply State.setFld_same
    | with_reducible apply State.emptyStaging_same
    | with_reducible apply State.cinderNow_same
    | with_reducible apply State.severe_same
    | with_reducible apply Same.ite
    | with_reducible apply Same.foldl
    | with_reducible apply Same.foldlFst
    | fail_if_no_progress with_reducible refine Same.upd_13 ?_ b13
    | fail_if_no_progress with_reducible refine Same.upd_16 ?_ b16

theorem State.fenceBlock_same {m0 : Nat} {r0 : State} {s : State} {code : Nat} (hk : Same m0 r0 s)
    (hw : sub 28517385 m0 = true) : Same m0 r0 (State.fenceBlock s code) := by
  unfold State.fenceBlock
  extract_lets a0 a1 a2 a3
  try clear_value a0
  have k1 : Same m0 r0 a1
  on_goal 1 => unfold a1
  rotate_left
  clear_value a1
  try clear_value a2
  have k3 : Same m0 r0 a3
  on_goal 1 => unfold a3
  rotate_left
  clear_value a3
  all_goals repeat' first
    | with_reducible assumption
    | exact sub_trans rfl hw
    | intro _
    | with_reducible apply State.setFld_same
    | with_reducible apply State.markAbsent_same
    | with_reducible apply State.stopPipeWork_same
    | with_reducible apply State.showPipe_same
    | with_reducible apply State.modPipe_same
    | with_reducible apply State.cinderNow_same
    | with_reducible apply State.severe_same
    | with_reducible apply State.fenceMc_same
    | with_reducible apply State.refreshActive_same
    | with_reducible apply State.failLink_same
    | with_reducible apply State.cvuAbort_same
    | with_reducible apply Same.ite
    | with_reducible apply Same.foldl
    | with_reducible apply Same.foldlFst
    | split

theorem State.fence_same {m0 : Nat} {r0 : State} {s : State} {code : Nat} {cause : Nat} (hk : Same m0 r0 s)
    (hw : sub 301988873 m0 = true) : Same m0 r0 (State.fence s code cause) := by
  unfold State.fence
  have b12_17 : sub 135168 m0 = true := sub_trans rfl hw
  extract_lets a0 a1 a2 a3 a4 a5 a6 a7 a8 a9
  try clear_value a0
  have k1 : Same m0 r0 a1
  on_goal 1 => unfold a1
  rotate_left
  clear_value a1
  try clear_value a2
  have k3 : Same m0 r0 a3
  on_goal 1 => unfold a3
  rotate_left
  clear_value a3
  have k4 : Same m0 r0 a4
  on_goal 1 => unfold a4
  rotate_left
  clear_value a4
  have k5 : Same m0 r0 a5
  on_goal 1 => unfold a5
  rotate_left
  clear_value a5
  have k6 : Same m0 r0 a6
  on_goal 1 => unfold a6
  rotate_left
  clear_value a6
  try clear_value a7
  try clear_value a8
  have k9 : Same m0 r0 a9
  on_goal 1 => unfold a9
  rotate_left
  clear_value a9
  all_goals repeat' first
    | with_reducible assumption
    | exact sub_trans rfl hw
    | intro _
    | with_reducible apply State.dropWork_same
    | with_reducible apply State.setUnit_same
    | with_reducible apply State.event_same
    | with_reducible apply State.gateUnit_same
    | with_reducible apply State.log_same
    | with_reducible apply State.addFld_same
    | with_reducible apply State.fenceScene_same
    | with_reducible apply State.fenceBlock_same
    | with_reducible apply State.dropMaint_same
    | with_reducible apply Same.ite
    | with_reducible apply Same.foldl
    | with_reducible apply Same.foldlFst
    | fail_if_no_progress with_reducible refine Same.upd_12_17 ?_ b12_17

theorem State.recur_same {m0 : Nat} {r0 : State} {s : State} {code : Nat} {event : Nat} (hk : Same m0 r0 s)
    (hw : sub 301988873 m0 = true) : Same m0 r0 (State.recur s code event) := by
  unfold State.recur
  extract_lets a0 a1 a2 a3
  try clear_value a0
  try clear_value a1
  try clear_value a2
  have k3 : Same m0 r0 a3
  on_goal 1 => unfold a3
  rotate_left
  clear_value a3
  all_goals repeat' first
    | with_reducible assumption
    | exact sub_trans rfl hw
    | intro _
    | with_reducible apply State.log_same
    | with_reducible apply State.setUnit_same
    | with_reducible apply State.fence_same
    | with_reducible apply Same.ite

theorem State.keepCe_same {m0 : Nat} {r0 : State} {s : State} {code : Nat} {n : Nat} (hk : Same m0 r0 s)
    (hw : sub 301988873 m0 = true) : Same m0 r0 (State.keepCe s code n) := by
  unfold State.keepCe
  have b13 : sub 8192 m0 = true := sub_trans rfl hw
  try dsimp only
  repeat' first
    | with_reducible assumption
    | exact sub_trans rfl hw
    | intro _
    | with_reducible apply State.recur_same
    | with_reducible apply Same.ite
    | with_reducible apply Same.foldl
    | with_reducible apply Same.foldlFst
    | fail_if_no_progress with_reducible refine Same.upd_13 ?_ b13

theorem State.gateUnbound_same {m0 : Nat} {r0 : State} {s : State} (hk : Same m0 r0 s) (hw : sub 40961 m0 = true) : Same m0 r0
    (State.gateUnbound s) := by
  unfold State.gateUnbound
  try dsimp only
  repeat' first
    | with_reducible assumption
    | exact sub_trans rfl hw
    | intro _
    | with_reducible apply State.requestPower_same
    | with_reducible apply State.gateUnit_same
    | with_reducible apply Same.ite
    | with_reducible apply Same.foldl

theorem State.takeover_same {m0 : Nat} {r0 : State} {s : State} {partner : Nat} (hk : Same m0 r0 s)
    (hw : sub 33028105 m0 = true) : Same m0 r0 (State.takeover s partner) := by
  unfold State.takeover
  have b11 : sub 2048 m0 = true := sub_trans rfl hw
  try dsimp only
  repeat' first
    | with_reducible assumption
    | exact sub_trans rfl hw
    | intro _
    | with_reducible apply State.promoteStreams_same
    | with_reducible apply State.accept_same
    | with_reducible apply State.selectScene_same
    | with_reducible apply Same.ite
    | with_reducible apply Same.foldl
    | with_reducible apply Same.foldlFst
    | fail_if_no_progress with_reducible refine Same.upd_11 ?_ b11
    | split

theorem State.setService_same {m0 : Nat} {r0 : State} {s : State} {on : Bool} (hk : Same m0 r0 s) (hw : sub 1 m0 = true)
    : Same m0 r0 (State.setService s on) := by
  unfold State.setService
  try dsimp only
  repeat' first
    | with_reducible assumption
    | exact sub_trans rfl hw
    | intro _
    | with_reducible apply State.setFlag_same
    | with_reducible apply Same.ite
    | with_reducible apply Same.foldl

theorem State.recheckOne_same {m0 : Nat} {r0 : State} {s : State} {code : Nat} (hk : Same m0 r0 s)
    (hw : sub 33028105 m0 = true) : Same m0 r0 (State.recheckOne s code) := by
  unfold State.recheckOne
  have b11 : sub 2048 m0 = true := sub_trans rfl hw
  try dsimp only
  repeat' first
    | with_reducible assumption
    | exact sub_trans rfl hw
    | intro _
    | with_reducible apply State.takeover_same
    | with_reducible apply State.selectScene_same
    | with_reducible apply Same.ite
    | with_reducible apply Same.foldl
    | with_reducible apply Same.foldlFst
    | fail_if_no_progress with_reducible refine Same.upd_11 ?_ b11

theorem State.openSwitch_same {m0 : Nat} {r0 : State} {s : State} {sw : Switch} (hk : Same m0 r0 s)
    (hw : sub 33028105 m0 = true) : Same m0 r0 (State.openSwitch s sw) := by
  unfold State.openSwitch
  have b11 : sub 2048 m0 = true := sub_trans rfl hw
  extract_lets a0 a1 a2 a3 a4 a5 a6 a7 a8 a9 a10 a11 a12 a13 a14 a15 a16 a17 a18
  try clear_value a0
  have k1 : Same m0 r0 a1
  on_goal 1 => unfold a1
  rotate_left
  clear_value a1
  try clear_value a2
  have k3 : Same m0 r0 a3
  on_goal 1 => unfold a3
  rotate_left
  clear_value a3
  try clear_value a4
  try clear_value a5
  try clear_value a6
  have k7 : Same m0 r0 a7
  on_goal 1 => unfold a7
  rotate_left
  clear_value a7
  have k8 : Same m0 r0 a8
  on_goal 1 => unfold a8
  rotate_left
  clear_value a8
  try clear_value a9
  have k10 : Same m0 r0 a10
  on_goal 1 => unfold a10
  rotate_left
  clear_value a10
  have k11 : Same m0 r0 a11
  on_goal 1 => unfold a11
  rotate_left
  clear_value a11
  have k12 : Same m0 r0 a12
  on_goal 1 => unfold a12
  rotate_left
  clear_value a12
  have k13 : Same m0 r0 a13
  on_goal 1 => unfold a13
  rotate_left
  clear_value a13
  have k14 : Same m0 r0 a14
  on_goal 1 => unfold a14
  rotate_left
  clear_value a14
  have k15 : Same m0 r0 a15
  on_goal 1 => unfold a15
  rotate_left
  clear_value a15
  try clear_value a16
  try clear_value a17
  have k18 : Same m0 r0 a18
  on_goal 1 => unfold a18
  rotate_left
  clear_value a18
  all_goals repeat' first
    | with_reducible assumption
    | exact sub_trans rfl hw
    | intro _
    | with_reducible apply State.openLayer_same
    | with_reducible apply State.phase_same
    | with_reducible apply State.addFld_same
    | with_reducible apply State.setFld_same
    | with_reducible apply State.setFlag_same
    | with_reducible apply State.log_same
    | with_reducible apply State.startCounts_same
    | with_reducible apply State.setService_same
    | with_reducible apply State.syncCoverage_same
    | with_reducible apply State.gateUnbound_same
    | with_reducible apply State.recheckOne_same
    | with_reducible apply State.actOn_same
    | with_reducible apply Same.ite
    | with_reducible apply Same.foldl
    | with_reducible apply Same.foldlFst
    | fail_if_no_progress with_reducible refine Same.upd_11 ?_ b11
    | split

/-! ### Machine/StepOps.lean -/

theorem State.modCover_same {m0 : Nat} {r0 : State} {s : State} {unit : Nat} {f : CoverSt → CoverSt} (hk : Same m0 r0 s)
    (hw : sub 131072 m0 = true) : Same m0 r0 (State.modCover s unit f) := by
  unfold State.modCover
  have b17 : sub 131072 m0 = true := sub_trans rfl hw
  try dsimp only
  repeat' first
    | with_reducible assumption
    | exact sub_trans rfl hw
    | intro _
    | with_reducible apply Same.ite
    | with_reducible apply Same.foldl
    | with_reducible apply Same.foldlFst
    | fail_if_no_progress with_reducible refine Same.upd_17 ?_ b17

theorem State.armTinder_same {m0 : Nat} {r0 : State} {s : State} {n : Nat} {unit : Nat} {e : ExpRec} {job : Option Nat} (hk
    : Same m0 r0 s) (hw : sub 16908289 m0 = true) : Same m0 r0 (State.armTinder s n unit e job) := by
  unfold State.armTinder
  extract_lets a0 a1 a2 a3
  try clear_value a0
  have k1 : Same m0 r0 a1
  on_goal 1 => unfold a1
  rotate_left
  clear_value a1
  have k2 : Same m0 r0 a2
  on_goal 1 => unfold a2
  rotate_left
  clear_value a2
  have k3 : Same m0 r0 a3
  on_goal 1 => unfold a3
  rotate_left
  clear_value a3
  all_goals repeat' first
    | with_reducible assumption
    | exact sub_trans rfl hw
    | intro _
    | with_reducible apply State.setFld_same
    | with_reducible apply State.setFlag_same
    | with_reducible apply State.setReg_same
    | with_reducible apply State.modCover_same
    | with_reducible apply State.modCvu_same
    | with_reducible apply State.armTap_same

theorem State.beginStep_same {m0 : Nat} {r0 : State} {s : State} {c : StepCtx} (hk : Same m0 r0 s) (hw : sub 4097 m0 = true)
    : Same m0 r0 (State.beginStep s c) := by
  unfold State.beginStep
  extract_lets a0 a1 a2
  have k0 : Same m0 r0 a0
  on_goal 1 => unfold a0
  rotate_left
  clear_value a0
  try clear_value a1
  have k2 : Same m0 r0 a2
  on_goal 1 => unfold a2
  rotate_left
  clear_value a2
  all_goals repeat' first
    | with_reducible assumption
    | exact sub_trans rfl hw
    | intro _
    | with_reducible apply State.modInst_same
    | with_reducible apply State.setFld_same
    | with_reducible apply Same.ite
    | with_reducible apply Same.foldl
    | with_reducible apply Same.foldlFst
    | split

theorem State.showStep_same {m0 : Nat} {r0 : State} {s : State} {unit : Nat} {domain : Nat} {node : Nat} {tile : Nat} (hk
    : Same m0 r0 s) (hw : sub 1 m0 = true) : Same m0 r0 (State.showStep s unit domain node tile) := by
  unfold State.showStep
  extract_lets a0 a1
  try clear_value a0
  have k1 : Same m0 r0 a1
  on_goal 1 => unfold a1
  rotate_left
  clear_value a1
  all_goals repeat' first
    | with_reducible assumption
    | exact sub_trans rfl hw
    | intro _
    | with_reducible apply State.setFld_same
    | with_reducible apply Same.ite

theorem State.dropCarry_same {m0 : Nat} {r0 : State} {s : State} {unit : Nat} (hk : Same m0 r0 s)
    (hw : sub 33554432 m0 = true) : Same m0 r0 (State.dropCarry s unit) := by
  unfold State.dropCarry
  have b25 : sub 33554432 m0 = true := sub_trans rfl hw
  try dsimp only
  repeat' first
    | with_reducible assumption
    | exact sub_trans rfl hw
    | intro _
    | with_reducible apply Same.ite
    | with_reducible apply Same.foldl
    | with_reducible apply Same.foldlFst
    | fail_if_no_progress with_reducible refine Same.upd_25 ?_ b25

theorem State.dropStores_same {m0 : Nat} {r0 : State} {s : State} {c : StepCtx} {n : Nat} (hk : Same m0 r0 s)
    (hw : sub 1 m0 = true) : Same m0 r0 (State.dropStores s c n) := by
  unfold State.dropStores
  extract_lets a0
  have k0 : Same m0 r0 a0
  on_goal 1 => unfold a0
  rotate_left
  clear_value a0
  all_goals repeat' first
    | with_reducible assumption
    | exact sub_trans rfl hw
    | intro _
    | with_reducible apply State.addCnt_same
    | with_reducible apply State.event_same
    | with_reducible apply Same.ite
    | with_reducible apply Same.foldl
    | with_reducible apply Same.foldlFst
    | split

theorem State.eccCorrected_same {m0 : Nat} {r0 : State} {s : State} {a : Nat} (hk : Same m0 r0 s)
    (hw : sub 301988873 m0 = true) : Same m0 r0 (State.eccCorrected s a) := by
  unfold State.eccCorrected
  have b18 : sub 262144 m0 = true := sub_trans rfl hw
  extract_lets a0 a1 a2 a3 a4 a5
  have k0 : Same m0 r0 a0
  on_goal 1 => unfold a0
  rotate_left
  clear_value a0
  try clear_value a1
  have k2 : Same m0 r0 a2
  on_goal 1 => unfold a2
  rotate_left
  clear_value a2
  try clear_value a3
  try clear_value a4
  have k5 : Same m0 r0 a5
  on_goal 1 => unfold a5
  rotate_left
  clear_value a5
  all_goals repeat' first
    | with_reducible assumption
    | exact sub_trans rfl hw
    | intro _
    | with_reducible apply State.addCnt_same
    | with_reducible apply State.event_same
    | with_reducible apply State.keepCe_same
    | with_reducible apply Same.ite
    | with_reducible apply Same.foldl
    | with_reducible apply Same.foldlFst
    | fail_if_no_progress with_reducible refine Same.upd_18 ?_ b18

theorem State.wantReload_same {m0 : Nat} {r0 : State} {s : State} {a : Nat} (hk : Same m0 r0 s) (hw : sub 8192 m0 = true)
    : Same m0 r0 (State.wantReload s a) := by
  unfold State.wantReload
  have b13 : sub 8192 m0 = true := sub_trans rfl hw
  try dsimp only
  repeat' first
    | with_reducible assumption
    | exact sub_trans rfl hw
    | intro _
    | with_reducible apply Same.ite
    | with_reducible apply Same.foldl
    | with_reducible apply Same.foldlFst
    | fail_if_no_progress with_reducible refine Same.upd_13 ?_ b13
    | split

theorem State.eccUncorrected_same {m0 : Nat} {r0 : State} {s : State} {c : Issuer} {a : Nat} {seq : Word} (hk : Same m0 r0 s)
    (hw : sub 301988873 m0 = true) : Same m0 r0 (State.eccUncorrected s c a seq).1 := by
  unfold State.eccUncorrected
  have b13 : sub 8192 m0 = true := sub_trans rfl hw
  have b13_18 : sub 270336 m0 = true := sub_trans rfl hw
  extract_lets a0 a1 a2 a3 a4 a5 a6 a7 a8 a9 a10 a11 a12 a13 a14 a15 a16 a17
  try clear_value a0
  have k1 : Same m0 r0 a1
  on_goal 1 => unfold a1
  rotate_left
  clear_value a1
  try clear_value a2
  have k3 : Same m0 r0 a3
  on_goal 1 => unfold a3
  rotate_left
  clear_value a3
  have k4 : Same m0 r0 a4
  on_goal 1 => unfold a4
  rotate_left
  clear_value a4
  have k5 : Same m0 r0 a5
  on_goal 1 => unfold a5
  rotate_left
  clear_value a5
  try clear_value a6
  try clear_value a7
  have k8 : Same m0 r0 a8
  on_goal 1 => unfold a8
  rotate_left
  clear_value a8
  have k9 : Same m0 r0 a9
  on_goal 1 => unfold a9
  rotate_left
  clear_value a9
  try clear_value a10
  try clear_value a11
  try clear_value a12
  have k13 : Same m0 r0 a13
  on_goal 1 => unfold a13
  rotate_left
  clear_value a13
  try clear_value a14
  have k15 : Same m0 r0 a15
  on_goal 1 => unfold a15
  rotate_left
  clear_value a15
  have k16 : Same m0 r0 a16
  on_goal 1 => unfold a16
  rotate_left
  clear_value a16
  have k17 : Same m0 r0 a17
  on_goal 1 => unfold a17
  rotate_left
  clear_value a17
  all_goals repeat' first
    | with_reducible assumption
    | exact sub_trans rfl hw
    | intro _
    | with_reducible apply State.addCnt_same
    | with_reducible apply State.event_same
    | with_reducible apply State.setFld_same
    | with_reducible apply State.setFlag_same
    | with_reducible apply State.log_same
    | with_reducible apply State.doubt_same
    | with_reducible apply State.fence_same
    | with_reducible apply State.setReg_same
    | with_reducible apply State.wantReload_same
    | with_reducible apply State.recur_same
    | with_reducible apply Same.ite
    | with_reducible apply Same.foldl
    | with_reducible apply Same.foldlFst
    | fail_if_no_progress with_reducible refine Same.upd_13 ?_ b13
    | fail_if_no_progress with_reducible refine Same.upd_13_18 ?_ b13_18
    | split

theorem State.eccHits_same {m0 : Nat} {r0 : State} {s : State} {c : Issuer} {seq : Word} {hits : List EccHit} (hk
    : Same m0 r0 s) (hw : sub 301988873 m0 = true) : Same m0 r0 (State.eccHits s c seq hits).1 := by
  unfold State.eccHits
  try dsimp only
  repeat' first
    | with_reducible assumption
    | exact sub_trans rfl hw
    | intro _
    | with_reducible apply State.eccUncorrected_same
    | with_reducible apply State.eccCorrected_same
    | with_reducible apply Same.ite
    | with_reducible apply Same.foldl
    | with_reducible apply Same.foldlFst
    | split

theorem State.endByFault_same {m0 : Nat} {r0 : State} {s : State} {c : StepCtx} (hk : Same m0 r0 s)
    (hw : sub 59166729 m0 = true) : Same m0 r0 (State.endByFault s c) := by
  unfold State.endByFault
  extract_lets a0 a1
  have k0 : Same m0 r0 a0
  on_goal 1 => unfold a0
  rotate_left
  clear_value a0
  have k1 : Same m0 r0 a1
  on_goal 1 => unfold a1
  rotate_left
  clear_value a1
  all_goals repeat' first
    | with_reducible assumption
    | exact sub_trans rfl hw
    | intro _
    | with_reducible apply State.tapAbort_same
    | with_reducible apply State.addCnt_same
    | with_reducible apply State.dropCarry_same
    | with_reducible apply State.endRemote_same
    | with_reducible apply State.modUnit_same
    | with_reducible apply State.cancelNow_same
    | with_reducible apply State.modInst_same
    | with_reducible apply State.modCover_same
    | with_reducible apply Same.ite
    | with_reducible apply Same.foldl
    | with_reducible apply Same.foldlFst
    | split

theorem State.patternParity_same {m0 : Nat} {r0 : State} {s : State} {unit : Nat} (hk : Same m0 r0 s)
    (hw : sub 301988873 m0 = true) : Same m0 r0 (State.patternParity s unit) := by
  unfold State.patternParity
  have b13 : sub 8192 m0 = true := sub_trans rfl hw
  extract_lets a0 a1 a2 a3
  try clear_value a0
  try clear_value a1
  have k2 : Same m0 r0 a2
  on_goal 1 => unfold a2
  rotate_left
  clear_value a2
  have k3 : Same m0 r0 a3
  on_goal 1 => unfold a3
  rotate_left
  clear_value a3
  all_goals repeat' first
    | with_reducible assumption
    | exact sub_trans rfl hw
    | intro _
    | with_reducible apply State.recur_same
    | with_reducible apply State.fence_same
    | with_reducible apply Same.ite
    | with_reducible apply Same.foldl
    | with_reducible apply Same.foldlFst
    | fail_if_no_progress with_reducible refine Same.upd_13 ?_ b13
    | split

theorem State.haltMover_same {m0 : Nat} {r0 : State} {s : State} {unit : Nat} {addr : Nat} {write : Bool} (hk : Same m0 r0 s)
    (hw : sub 1 m0 = true) : Same m0 r0 (State.haltMover s unit addr write) := by
  unfold State.haltMover
  extract_lets a0 a1 a2
  try clear_value a0
  try clear_value a1
  have k2 : Same m0 r0 a2
  on_goal 1 => unfold a2
  rotate_left
  clear_value a2
  all_goals repeat' first
    | with_reducible assumption
    | exact sub_trans rfl hw
    | intro _
    | with_reducible apply State.setReg_same
    | with_reducible apply State.setFld_same
    | with_reducible apply State.setFlag_same

theorem State.stepFault_same {m0 : Nat} {r0 : State} {s : State} {c : StepCtx} {f : StepFault} {addr : Nat} {write : Bool} (hk
    : Same m0 r0 s) (hw : sub 335543305 m0 = true) : Same m0 r0 (State.stepFault s c f addr write) := by
  unfold State.stepFault
  extract_lets a0 a1 a2 a3 a4 a5 a6 a7 a8
  try clear_value a0
  have k1 : Same m0 r0 a1
  on_goal 1 => unfold a1
  rotate_left
  clear_value a1
  try clear_value a2
  try clear_value a3
  have k4 : Same m0 r0 a4
  on_goal 1 => unfold a4
  rotate_left
  clear_value a4
  have k5 : Same m0 r0 a5
  on_goal 1 => unfold a5
  rotate_left
  clear_value a5
  have k6 : Same m0 r0 a6
  on_goal 1 => unfold a6
  rotate_left
  clear_value a6
  have k8 : Same m0 r0 a8
  on_goal 1 => unfold a8
  rotate_left
  clear_value a8
  all_goals repeat' first
    | with_reducible assumption
    | exact sub_trans rfl hw
    | intro _
    | with_reducible apply State.event_same
    | with_reducible apply State.setFld_same
    | with_reducible apply State.log_same
    | with_reducible apply State.doubt_same
    | with_reducible apply State.recur_same
    | with_reducible apply State.patternParity_same
    | with_reducible apply State.haltMover_same
    | with_reducible apply State.endByFault_same
    | with_reducible apply Same.ite
    | with_reducible apply Same.foldl
    | with_reducible apply Same.foldlFst
    | split

theorem State.noteSpm_same {m0 : Nat} {r0 : State} {s : State} {n : Nat} (hk : Same m0 r0 s) (hw : sub 8192 m0 = true)
    : Same m0 r0 (State.noteSpm s n).1 := by
  unfold State.noteSpm
  have b13 : sub 8192 m0 = true := sub_trans rfl hw
  try dsimp only
  repeat' first
    | with_reducible assumption
    | exact sub_trans rfl hw
    | intro _
    | with_reducible apply Same.ite
    | with_reducible apply Same.foldl
    | with_reducible apply Same.foldlFst
    | fail_if_no_progress with_reducible refine Same.upd_13 ?_ b13

theorem State.spmRemote_same {m0 : Nat} {r0 : State} {s : State} {a : Nat} (hk : Same m0 r0 s) (hw : sub 301988873 m0 = true)
    : Same m0 r0 (State.spmRemote s a) := by
  unfold State.spmRemote
  try dsimp only
  repeat' first
    | with_reducible assumption
    | exact sub_trans rfl hw
    | intro _
    | with_reducible apply State.noteSpm_same
    | with_reducible apply State.fence_same
    | with_reducible apply Same.ite
    | with_reducible apply Same.foldl
    | with_reducible apply Same.foldlFst
    | split
    | dsimp only
    | (with_reducible apply Same.of_fst; rotate_left; with_reducible assumption)

theorem State.meetErr_same {m0 : Nat} {r0 : State} {s : State} {c : StepCtx} {e : StepErr} (hk : Same m0 r0 s)
    (hw : sub 335543305 m0 = true) : Same m0 r0 (State.meetErr s c e).1 := by
  unfold State.meetErr
  try dsimp only
  repeat' first
    | with_reducible assumption
    | exact sub_trans rfl hw
    | intro _
    | with_reducible apply State.stepFault_same
    | with_reducible apply State.eccHits_same
    | with_reducible apply State.spmRemote_same
    | with_reducible apply Same.ite
    | with_reducible apply Same.foldl
    | with_reducible apply Same.foldlFst
    | split
    | dsimp only
    | (with_reducible apply Same.of_fst; rotate_left; with_reducible assumption)

theorem State.stepRefused_same {m0 : Nat} {r0 : State} {s : State} {c : StepCtx} {e : AccErr} {addr : Nat} {write : Bool} (hk
    : Same m0 r0 s) (hw : sub 335543305 m0 = true) : Same m0 r0 (State.stepRefused s c e addr write) := by
  unfold State.stepRefused
  extract_lets a0 a1
  try clear_value a0
  have k1 : Same m0 r0 a1
  on_goal 1 => unfold a1
  rotate_left
  clear_value a1
  all_goals repeat' first
    | with_reducible assumption
    | exact sub_trans rfl hw
    | intro _
    | with_reducible apply State.addCnt_same
    | with_reducible apply State.setUnit_same
    | with_reducible apply State.stepFault_same
    | with_reducible apply Same.ite
    | with_reducible apply Same.foldl
    | with_reducible apply Same.foldlFst
    | split

theorem State.fetchDesc_same {m0 : Nat} {r0 : State} {s : State} {c : StepCtx} (hk : Same m0 r0 s)
    (hw : sub 335543305 m0 = true) : Same m0 r0 (State.fetchDesc s c).1 := by
  unfold State.fetchDesc
  try dsimp only
  repeat' first
    | with_reducible assumption
    | exact sub_trans rfl hw
    | intro _
    | with_reducible apply State.judgeReads_same
    | with_reducible apply State.stepRefused_same
    | with_reducible apply Same.ite
    | with_reducible apply Same.foldl
    | with_reducible apply Same.foldlFst
    | split
    | dsimp only
    | (with_reducible apply Same.of_fst; rotate_left; with_reducible assumption)

theorem State.engineStep_same {m0 : Nat} {r0 : State} {s : State} {unit : Nat} {err : StepErr}
    {valid : State → StepCtx → List Byte → Bool} {mine : Nat → Bool} {run : State → StepCtx → List Byte → State} (hk
    : Same m0 r0 s) (hrun : ∀ y0 y1 y2, Same m0 r0 y0 → Same m0 r0 (run y0 y1 y2)) (hw : sub 335543305 m0 = true) : Same m0 r0
    (State.engineStep s unit err valid mine run) := by
  unfold State.engineStep
  try dsimp only
  repeat' first
    | with_reducible assumption
    | exact sub_trans rfl hw
    | intro _
    | with_reducible apply hrun
    | with_reducible apply State.beginStep_same
    | with_reducible apply State.meetErr_same
    | with_reducible apply State.fetchDesc_same
    | with_reducible apply State.stepFault_same
    | with_reducible apply Same.ite
    | with_reducible apply Same.foldl
    | with_reducible apply Same.foldlFst
    | split
    | dsimp only
    | (with_reducible apply Same.of_fst; rotate_left; with_reducible assumption)

theorem State.fetchRuns_same {m0 : Nat} {r0 : State} {s : State} {c : StepCtx} {rs : List (Nat × Nat)} (hk : Same m0 r0 s)
    (hw : sub 335543305 m0 = true) : Same m0 r0 (State.fetchRuns s c rs).1 := by
  unfold State.fetchRuns
  try dsimp only
  repeat' first
    | with_reducible assumption
    | exact sub_trans rfl hw
    | intro _
    | with_reducible apply State.judgeReads_same
    | with_reducible apply State.stepRefused_same
    | with_reducible apply Same.ite
    | with_reducible apply Same.foldl
    | with_reducible apply Same.foldlFst
    | split
    | dsimp only
    | (with_reducible apply Same.of_fst; rotate_left; with_reducible assumption)

theorem State.flagStep_same {m0 : Nat} {r0 : State} {s : State} {c : StepCtx} (hk : Same m0 r0 s) (hw : sub 4096 m0 = true)
    : Same m0 r0 (State.flagStep s c) := by
  unfold State.flagStep
  try dsimp only
  repeat' first
    | with_reducible assumption
    | exact sub_trans rfl hw
    | intro _
    | with_reducible apply State.modInst_same
    | with_reducible apply Same.ite
    | with_reducible apply Same.foldl
    | with_reducible apply Same.foldlFst
    | split

theorem State.storeRuns_same {m0 : Nat} {r0 : State} {s : State} {c : StepCtx} {ws : List (Nat × List Byte)} (hk
    : Same m0 r0 s) (hw : sub 335543309 m0 = true) : Same m0 r0 (State.storeRuns s c ws).1 := by
  unfold State.storeRuns
  try dsimp only
  repeat' first
    | with_reducible assumption
    | exact sub_trans rfl hw
    | intro _
    | with_reducible apply State.judgeWrites_same
    | with_reducible apply State.writes_same
    | with_reducible apply State.stepRefused_same
    | with_reducible apply Same.ite
    | with_reducible apply Same.foldl
    | with_reducible apply Same.foldlFst
    | split
    | dsimp only
    | (with_reducible apply Same.of_fst; rotate_left; with_reducible assumption)

theorem State.stepDone_same {m0 : Nat} {r0 : State} {s : State} {c : StepCtx} {last : Bool} {stores : List Byte} (hk
    : Same m0 r0 s) (hw : sub 25333761 m0 = true) : Same m0 r0 (State.stepDone s c last stores) := by
  unfold State.stepDone
  extract_lets a0 a1
  have k0 : Same m0 r0 a0
  on_goal 1 => unfold a0
  rotate_left
  clear_value a0
  have k1 : Same m0 r0 a1
  on_goal 1 => unfold a1
  rotate_left
  clear_value a1
  all_goals repeat' first
    | with_reducible assumption
    | exact sub_trans rfl hw
    | intro _
    | with_reducible apply State.tapStream_same
    | with_reducible apply State.addCnt_same
    | with_reducible apply State.endRemote_same
    | with_reducible apply State.modUnit_same
    | with_reducible apply State.modInst_same
    | with_reducible apply State.modCover_same
    | with_reducible apply Same.ite
    | with_reducible apply Same.foldl
    | with_reducible apply Same.foldlFst
    | split

end Sys2Proof.Machine
end

