-- ==== Sys2Proof/Laws/SameUnits.lean ====
section
/-! SUPPORT. That the commands of units and engines, and the operations they share leave alone what the bits of their masks do not name: one lemma for each, in the order of the model's files. -/

namespace Sys2Proof.Machine

open Sys2Proof

/-! ### Machine/Sequencer.lean -/

theorem State.admitEntry_same {m0 : Nat} {r0 : State} {s : State} {e : Nat} (hk : Same m0 r0 s) (hw : sub 4104 m0 = true)
    : Same m0 r0 (State.admitEntry s e) := by
  unfold State.admitEntry
  have b12 : sub 4096 m0 = true := sub_trans rfl hw
  try dsimp only
  repeat' first
    | with_reducible assumption
    | exact sub_trans rfl hw
    | intro _
    | with_reducible apply State.assignSlot_same
    | with_reducible apply State.modInst_same
    | with_reducible apply Same.ite
    | with_reducible apply Same.foldl
    | with_reducible apply Same.foldlFst
    | fail_if_no_progress with_reducible refine Same.upd_12 ?_ b12
    | split

theorem State.refuseBand_same {m0 : Nat} {r0 : State} {s : State} {r : RingSt} {seq : Word} {k : Nat} {b : Nat}
    {flagged : Bool} {held : Option Nat} {code : Nat} (hk : Same m0 r0 s) (hw : sub 69633 m0 = true) : Same m0 r0
    (State.refuseBand s r seq k b flagged held code) := by
  unfold State.refuseBand
  have b12 : sub 4096 m0 = true := sub_trans rfl hw
  extract_lets a0 a1 a2 a3 a4 a5
  have k0 : Same m0 r0 a0
  on_goal 1 => unfold a0
  rotate_left
  clear_value a0
  have k1 : Same m0 r0 a1
  on_goal 1 => unfold a1
  rotate_left
  clear_value a1
  try clear_value a2
  have k3 : Same m0 r0 a3
  on_goal 1 => unfold a3
  rotate_left
  clear_value a3
  try clear_value a4
  try clear_value a5
  all_goals repeat' first
    | with_reducible assumption
    | exact sub_trans rfl hw
    | intro _
    | with_reducible apply State.addCnt_same
    | with_reducible apply State.event_same
    | with_reducible apply State.log_same
    | with_reducible apply Same.ite
    | with_reducible apply Same.foldl
    | with_reducible apply Same.foldlFst
    | fail_if_no_progress with_reducible refine Same.upd_12 ?_ b12
    | split

theorem State.releaseBand_same {m0 : Nat} {r0 : State} {s : State} {layer : Nat} {idx : Nat} {k : Nat} {b : Nat}
    {flagged : Bool} {held : Option Nat} (hk : Same m0 r0 s) (hw : sub 8458249 m0 = true) : Same m0 r0
    (State.releaseBand s layer idx k b flagged held) := by
  unfold State.releaseBand
  have b12 : sub 4096 m0 = true := sub_trans rfl hw
  try dsimp only
  repeat' first
    | with_reducible assumption
    | exact sub_trans rfl hw
    | intro _
    | with_reducible apply State.refuseBand_same
    | with_reducible apply State.reserveRemote_same
    | with_reducible apply State.modFlag_same
    | with_reducible apply State.forgetAsked_same
    | with_reducible apply State.drainAbsent_same
    | with_reducible apply State.post_same
    | with_reducible apply State.event_same
    | with_reducible apply Same.ite
    | with_reducible apply Same.foldl
    | with_reducible apply Same.foldlFst
    | fail_if_no_progress with_reducible refine Same.upd_12 ?_ b12
    | split

theorem execFgsPost_same {m0 : Nat} {r0 : State} {bank : Fin 5} {domain : BitVec 4} {hi : Word} {s : State} (hk
    : Same m0 r0 s) (hw : sub 8392705 m0 = true) : SameRes m0 r0 (execFgsPost bank domain hi s) := by
  unfold execFgsPost
  try dsimp only
  repeat' first
    | with_reducible assumption
    | exact sub_trans rfl hw
    | intro _
    | with_reducible apply State.post_same
    | with_reducible apply State.setFlag_same
    | with_reducible apply Same.ite
    | with_reducible apply Same.foldl
    | with_reducible apply Same.foldlFst
    | with_reducible apply SameRes.next

theorem State.pinInputs_same {m0 : Nat} {r0 : State} {s : State} {n : NodeSt} {e : Nat} (hk : Same m0 r0 s)
    (hw : sub 4104 m0 = true) : Same m0 r0 (State.pinInputs s n e) := by
  unfold State.pinInputs
  try dsimp only
  repeat' first
    | with_reducible assumption
    | exact sub_trans rfl hw
    | intro _
    | with_reducible apply State.modInst_same
    | with_reducible apply State.modFlag_same
    | with_reducible apply Same.ite
    | with_reducible apply Same.foldl
    | with_reducible apply Same.foldlFst
    | split

theorem State.dispatchTo_same {m0 : Nat} {r0 : State} {s : State} {unit : Nat} {i : Inst} {n : NodeSt} (hk : Same m0 r0 s)
    (hw : sub 36873 m0 = true) : Same m0 r0 (State.dispatchTo s unit i n) := by
  unfold State.dispatchTo
  extract_lets a0 a1 a2 a3 a4 a5 a6 a7
  try clear_value a0
  have k1 : Same m0 r0 a1
  on_goal 1 => unfold a1
  rotate_left
  clear_value a1
  try clear_value a2
  try clear_value a3
  try clear_value a4
  have k5 : Same m0 r0 a5
  on_goal 1 => unfold a5
  rotate_left
  clear_value a5
  have k6 : Same m0 r0 a6
  on_goal 1 => unfold a6
  rotate_left
  clear_value a6
  try clear_value a7
  all_goals repeat' first
    | with_reducible assumption
    | exact sub_trans rfl hw
    | intro _
    | with_reducible apply State.pinInputs_same
    | with_reducible apply State.modInst_same
    | with_reducible apply State.modNode_same
    | with_reducible apply State.showStep_same
    | with_reducible apply State.setUnit_same
    | with_reducible apply Same.ite

theorem State.dispatchPc_same {m0 : Nat} {r0 : State} {s : State} {pair : Nat} {i : Inst} {n : NodeSt} (hk : Same m0 r0 s)
    (hw : sub 53257 m0 = true) : Same m0 r0 (State.dispatchPc s pair i n) := by
  unfold State.dispatchPc
  extract_lets a0 a1 a2 a3 a4 a5 a6 a7 a8 a9 a10 a11
  try clear_value a0
  try clear_value a1
  try clear_value a2
  have k3 : Same m0 r0 a3
  on_goal 1 => unfold a3
  rotate_left
  clear_value a3
  try clear_value a4
  have k5 : Same m0 r0 a5
  on_goal 1 => unfold a5
  rotate_left
  clear_value a5
  have k6 : Same m0 r0 a6
  on_goal 1 => unfold a6
  rotate_left
  clear_value a6
  try clear_value a7
  have k8 : Same m0 r0 a8
  on_goal 1 => unfold a8
  rotate_left
  clear_value a8
  have k9 : Same m0 r0 a9
  on_goal 1 => unfold a9
  rotate_left
  clear_value a9
  try clear_value a10
  have k11 : Same m0 r0 a11
  on_goal 1 => unfold a11
  rotate_left
  clear_value a11
  all_goals repeat' first
    | with_reducible assumption
    | exact sub_trans rfl hw
    | intro _
    | with_reducible apply State.dispatchTo_same
    | with_reducible apply State.setUnit_same
    | with_reducible apply State.modCore_same
    | with_reducible apply State.setFld_same
    | with_reducible apply State.setFlag_same
    | with_reducible apply State.setReg_same
    | with_reducible apply Same.ite

theorem State.postResult_same {m0 : Nat} {r0 : State} {s : State} {t : Token} {r : Nat} (hk : Same m0 r0 s)
    (hw : sub 1 m0 = true) : Same m0 r0 (State.postResult s t r) := by
  unfold State.postResult
  try dsimp only
  repeat' first
    | with_reducible assumption
    | exact sub_trans rfl hw
    | intro _
    | with_reducible apply State.setFlag_same
    | with_reducible apply State.setFld_same
    | with_reducible apply Same.ite
    | with_reducible apply Same.foldl
    | with_reducible apply Same.foldlFst
    | split

theorem State.dropToken_same {m0 : Nat} {r0 : State} {s : State} {n : NodeSt} {t : Token} (hk : Same m0 r0 s)
    (hw : sub 8392713 m0 = true) : Same m0 r0 (State.dropToken s n t) := by
  unfold State.dropToken
  try dsimp only
  repeat' first
    | with_reducible assumption
    | exact sub_trans rfl hw
    | intro _
    | with_reducible apply State.postResult_same
    | with_reducible apply State.arrive_same

theorem State.endAbsent_same {m0 : Nat} {r0 : State} {s : State} {unit : Nat} {i : Inst} {n : NodeSt} (hk : Same m0 r0 s)
    (hw : sub 8769545 m0 = true) : Same m0 r0 (State.endAbsent s unit i n) := by
  unfold State.endAbsent
  try dsimp only
  repeat' first
    | with_reducible assumption
    | exact sub_trans rfl hw
    | intro _
    | with_reducible apply State.log_same
    | with_reducible apply State.event_same
    | with_reducible apply State.cancelNow_same
    | with_reducible apply Same.ite
    | with_reducible apply Same.foldl
    | with_reducible apply Same.foldlFst
    | split

theorem State.flagUe_same {m0 : Nat} {r0 : State} {s : State} {idx : Nat} (hk : Same m0 r0 s) (hw : sub 8589321 m0 = true)
    : Same m0 r0 (State.flagUe s idx) := by
  unfold State.flagUe
  extract_lets a0 a1 a2
  have k0 : Same m0 r0 a0
  on_goal 1 => unfold a0
  rotate_left
  clear_value a0
  try clear_value a1
  have k2 : Same m0 r0 a2
  on_goal 1 => unfold a2
  rotate_left
  clear_value a2
  all_goals repeat' first
    | with_reducible assumption
    | exact sub_trans rfl hw
    | intro _
    | with_reducible apply State.log_same
    | with_reducible apply State.event_same
    | with_reducible apply State.modFlag_same
    | with_reducible apply State.post_same
    | with_reducible apply State.doubt_same
    | with_reducible apply Same.ite
    | with_reducible apply Same.foldl
    | with_reducible apply Same.foldlFst
    | split
    | dsimp only

theorem execFgsPcDone_same {m0 : Nat} {r0 : State} {pair : Fin 4} {value : Word} {s : State} (hk : Same m0 r0 s)
    (hw : sub 8769545 m0 = true) : SameRes m0 r0 (execFgsPcDone pair value s) := by
  unfold execFgsPcDone
  extract_lets a0 a1 a2 a3 a4
  try clear_value a0
  try clear_value a1
  try clear_value a2
  try clear_value a3
  have k4 : Same m0 r0 a4
  on_goal 1 => unfold a4
  rotate_left
  clear_value a4
  all_goals repeat' first
    | with_reducible assumption
    | exact sub_trans rfl hw
    | intro _
    | with_reducible apply State.log_same
    | with_reducible apply State.leaveUnit_same
    | with_reducible apply State.modInst_same
    | with_reducible apply State.tryRelease_same
    | with_reducible apply State.cancelNow_same
    | with_reducible apply Same.ite
    | with_reducible apply Same.foldl
    | with_reducible apply Same.foldlFst
    | with_reducible apply SameRes.next
    | with_reducible apply SameRes.ite
    | split

theorem State.judgeStuck_same {m0 : Nat} {r0 : State} {s : State} {head : Option Inst} {implicit : Bool} {num : Nat}
    {headPos : Nat} (hk : Same m0 r0 s) (hw : sub 8769545 m0 = true) : Same m0 r0
    (State.judgeStuck s head implicit num headPos) := by
  unfold State.judgeStuck
  try dsimp only
  repeat' first
    | with_reducible assumption
    | exact sub_trans rfl hw
    | intro _
    | with_reducible apply State.log_same
    | with_reducible apply State.event_same
    | with_reducible apply State.setFld_same
    | with_reducible apply State.setFlag_same
    | with_reducible apply State.cancel_same
    | with_reducible apply Same.ite
    | with_reducible apply Same.foldl
    | with_reducible apply Same.foldlFst
    | split

theorem State.logToken_same {m0 : Nat} {r0 : State} {s : State} {code : Nat} {cls : Nat} {t : Token} (hk : Same m0 r0 s)
    (hw : sub 65537 m0 = true) : Same m0 r0 (State.logToken s code cls t) := by
  unfold State.logToken
  try dsimp only
  repeat' first
    | with_reducible assumption
    | exact sub_trans rfl hw
    | intro _
    | with_reducible apply State.log_same

theorem State.setOperand_same {m0 : Nat} {r0 : State} {s : State} {n : NodeSt} {e : Nat} {t : Token} (hk : Same m0 r0 s)
    (hw : sub 8392713 m0 = true) : Same m0 r0 (State.setOperand s n e t) := by
  unfold State.setOperand
  try dsimp only
  repeat' first
    | with_reducible assumption
    | exact sub_trans rfl hw
    | intro _
    | with_reducible apply State.postResult_same
    | with_reducible apply State.arrive_same
    | with_reducible apply State.modInst_same

theorem State.lookupToken_same {m0 : Nat} {r0 : State} {s : State} {t : Token} (hk : Same m0 r0 s)
    (hw : sub 8769545 m0 = true) : Same m0 r0 (State.lookupToken s t) := by
  unfold State.lookupToken
  extract_lets a0 a1 a2 a3
  have k0 : Same m0 r0 a0
  on_goal 1 => unfold a0
  rotate_left
  clear_value a0
  try clear_value a1
  try clear_value a2
  try clear_value a3
  all_goals repeat' first
    | with_reducible assumption
    | exact sub_trans rfl hw
    | intro _
    | with_reducible apply State.postResult_same
    | with_reducible apply State.logToken_same
    | with_reducible apply State.event_same
    | with_reducible apply State.dropToken_same
    | with_reducible apply State.cancel_same
    | with_reducible apply State.arrive_same
    | with_reducible apply State.setOperand_same
    | with_reducible apply State.addCnt_same
    | with_reducible apply State.createEntry_same
    | with_reducible apply State.cancelNow_same
    | with_reducible apply Same.ite
    | with_reducible apply Same.foldl
    | with_reducible apply Same.foldlFst
    | split
    | dsimp only

theorem State.metFlagUe_same {m0 : Nat} {r0 : State} {s : State} {u : Option (Fin 262144)} (hk : Same m0 r0 s)
    (hw : sub 8589321 m0 = true) : Same m0 r0 (State.metFlagUe s u) := by
  unfold State.metFlagUe
  try dsimp only
  repeat' first
    | with_reducible assumption
    | exact sub_trans rfl hw
    | intro _
    | with_reducible apply State.flagUe_same
    | with_reducible apply Same.ite
    | with_reducible apply Same.foldl
    | with_reducible apply Same.foldlFst
    | split

theorem execFgsCancel_same {m0 : Nat} {r0 : State} {domain : BitVec 4} {value : Word} {s : State} (hk : Same m0 r0 s)
    (hw : sub 8769545 m0 = true) : SameRes m0 r0 (execFgsCancel domain value s) := by
  unfold execFgsCancel
  have b12 : sub 4096 m0 = true := sub_trans rfl hw
  extract_lets a0 a1 a2 a3 a4 a5 a6 a7 a8 a9 a10 a11 a12
  try clear_value a0
  try clear_value a1
  try clear_value a2
  try clear_value a3
  try clear_value a4
  try clear_value a5
  have k6 : Same m0 r0 a6
  on_goal 1 => unfold a6
  rotate_left
  clear_value a6
  try clear_value a7
  have k8 : Same m0 r0 a8
  on_goal 1 => unfold a8
  rotate_left
  clear_value a8
  try clear_value a9
  have k10 : Same m0 r0 a10
  on_goal 1 => unfold a10
  rotate_left
  clear_value a10
  try clear_value a11
  have k12 : Same m0 r0 a12
  on_goal 1 => unfold a12
  rotate_left
  clear_value a12
  all_goals repeat' first
    | with_reducible assumption
    | exact sub_trans rfl hw
    | intro _
    | with_reducible apply State.setFld_same
    | with_reducible apply State.log_same
    | with_reducible apply State.cancel_same
    | with_reducible apply Same.ite
    | with_reducible apply Same.foldl
    | with_reducible apply Same.foldlFst
    | fail_if_no_progress with_reducible refine Same.upd_12 ?_ b12
    | with_reducible apply SameRes.next
    | with_reducible apply SameRes.ite
    | split

theorem execFgsAffinityForget_same {m0 : Nat} {r0 : State} {s : State} (hk : Same m0 r0 s) (hw : sub 4096 m0 = true)
    : SameRes m0 r0 (execFgsAffinityForget s) := by
  unfold execFgsAffinityForget
  have b12 : sub 4096 m0 = true := sub_trans rfl hw
  try dsimp only
  repeat' first
    | with_reducible assumption
    | exact sub_trans rfl hw
    | intro _
    | with_reducible apply Same.ite
    | with_reducible apply Same.foldl
    | with_reducible apply Same.foldlFst
    | fail_if_no_progress with_reducible refine Same.upd_12 ?_ b12
    | with_reducible apply SameRes.next

theorem State.reachTick_same {m0 : Nat} {r0 : State} {s : State} {t : Nat} (hk : Same m0 r0 s) (hw : sub 16 m0 = true)
    : Same m0 r0 (State.reachTick s t) := by
  unfold State.reachTick
  try dsimp only
  repeat' first
    | with_reducible assumption
    | exact sub_trans rfl hw
    | intro _
    | with_reducible apply State.reach_same

theorem execFgsDisp0Read_same {m0 : Nat} {r0 : State} {pair : Fin 4} {s : State} (hk : Same m0 r0 s) (hw : sub 4097 m0 = true)
    : SameRes m0 r0 (execFgsDisp0Read pair s) := by
  unfold execFgsDisp0Read
  try dsimp only
  repeat' first
    | with_reducible assumption
    | exact sub_trans rfl hw
    | intro _
    | with_reducible apply State.modInst_same
    | with_reducible apply State.setFlag_same
    | with_reducible apply Same.ite
    | with_reducible apply Same.foldl
    | with_reducible apply Same.foldlFst
    | with_reducible apply SameRes.next
    | with_reducible apply SameRes.ite

theorem State.retryOne_same {m0 : Nat} {r0 : State} {s : State} {o : Nat} (hk : Same m0 r0 s) (hw : sub 8769545 m0 = true)
    : Same m0 r0 (State.retryOne s o) := by
  unfold State.retryOne
  try dsimp only
  repeat' first
    | with_reducible assumption
    | exact sub_trans rfl hw
    | intro _
    | with_reducible apply State.tryRelease_same
    | with_reducible apply State.releaseBand_same
    | with_reducible apply Same.ite
    | with_reducible apply Same.foldl
    | with_reducible apply Same.foldlFst
    | split

theorem State.startHolds_same {m0 : Nat} {r0 : State} {s : State} {es : List Nat} (hk : Same m0 r0 s)
    (hw : sub 4097 m0 = true) : Same m0 r0 (State.startHolds s es) := by
  unfold State.startHolds
  try dsimp only
  repeat' first
    | with_reducible assumption
    | exact sub_trans rfl hw
    | intro _
    | with_reducible apply State.noteHwm_same
    | with_reducible apply State.modInst_same
    | with_reducible apply Same.ite
    | with_reducible apply Same.foldl
    | with_reducible apply Same.foldlFst
    | split

theorem State.startTinder_same {m0 : Nat} {r0 : State} {s : State} {unit : Nat} (hk : Same m0 r0 s)
    (hw : sub 16941057 m0 = true) : Same m0 r0 (State.startTinder s unit) := by
  unfold State.startTinder
  try dsimp only
  repeat' first
    | with_reducible assumption
    | exact sub_trans rfl hw
    | intro _
    | with_reducible apply State.armTinder_same
    | with_reducible apply State.showStep_same
    | with_reducible apply State.setUnit_same
    | with_reducible apply Same.ite
    | with_reducible apply Same.foldl
    | with_reducible apply Same.foldlFst
    | split

theorem execAffinityHoldExpiry_same {m0 : Nat} {r0 : State} {entry : Fin 4096} {s : State} (hk : Same m0 r0 s)
    (hw : sub 8769561 m0 = true) : SameRes m0 r0 (execAffinityHoldExpiry entry s) := by
  unfold execAffinityHoldExpiry
  try dsimp only
  repeat' first
    | with_reducible assumption
    | exact sub_trans rfl hw
    | intro _
    | with_reducible apply State.modInst_same
    | with_reducible apply State.reachTick_same
    | with_reducible apply State.endAbsent_same
    | with_reducible apply State.dispatchTo_same
    | with_reducible apply Same.ite
    | with_reducible apply Same.foldl
    | with_reducible apply Same.foldlFst
    | with_reducible apply SameRes.next
    | with_reducible apply SameRes.ite
    | split

theorem execDeadlineExpiry_same {m0 : Nat} {r0 : State} {entry : Fin 4096} {s : State} (hk : Same m0 r0 s)
    (hw : sub 8900633 m0 = true) : SameRes m0 r0 (execDeadlineExpiry entry s) := by
  unfold execDeadlineExpiry
  try dsimp only
  repeat' first
    | with_reducible assumption
    | exact sub_trans rfl hw
    | intro _
    | with_reducible apply State.reachTick_same
    | with_reducible apply State.cancelNow_same
    | with_reducible apply State.countMiss_same
    | with_reducible apply State.logInst_same
    | with_reducible apply State.addCnt_same
    | with_reducible apply State.event_same
    | with_reducible apply State.modInst_same
    | with_reducible apply State.doubt_same
    | with_reducible apply Same.ite
    | with_reducible apply Same.foldl
    | with_reducible apply Same.foldlFst
    | with_reducible apply SameRes.next
    | with_reducible apply SameRes.ite
    | split

theorem execDeferredVoid_same {m0 : Nat} {r0 : State} {entry : Fin 4096} {s : State} (hk : Same m0 r0 s)
    (hw : sub 8392713 m0 = true) : SameRes m0 r0 (execDeferredVoid entry s) := by
  unfold execDeferredVoid
  try dsimp only
  repeat' first
    | with_reducible assumption
    | exact sub_trans rfl hw
    | intro _
    | with_reducible apply State.voidOne_same
    | with_reducible apply State.modInst_same
    | with_reducible apply State.freeEntry_same
    | with_reducible apply Same.ite
    | with_reducible apply Same.foldl
    | with_reducible apply Same.foldlFst
    | with_reducible apply SameRes.next
    | with_reducible apply SameRes.ite
    | split

theorem execDispatch_same {m0 : Nat} {r0 : State} {unit : Half} {s : State} (hk : Same m0 r0 s) (hw : sub 25677833 m0 = true)
    : SameRes m0 r0 (execDispatch unit s) := by
  unfold execDispatch
  try dsimp only
  repeat' first
    | with_reducible assumption
    | exact sub_trans rfl hw
    | intro _
    | with_reducible apply State.startHolds_same
    | with_reducible apply State.startTinder_same
    | with_reducible apply State.endAbsent_same
    | with_reducible apply State.dispatchTo_same
    | with_reducible apply Same.ite
    | with_reducible apply Same.foldl
    | with_reducible apply Same.foldlFst
    | with_reducible apply SameRes.next
    | with_reducible apply SameRes.ite
    | split

theorem execFlowWatchExpiry_same {m0 : Nat} {r0 : State} {single : Bool} {n : Fin 4096} {s : State} (hk : Same m0 r0 s)
    (hw : sub 8769593 m0 = true) : SameRes m0 r0 (execFlowWatchExpiry single n s) := by
  unfold execFlowWatchExpiry
  try dsimp only
  repeat' first
    | with_reducible assumption
    | exact sub_trans rfl hw
    | intro _
    | with_reducible apply State.reachTick_same
    | with_reducible apply State.draw_same
    | with_reducible apply State.judgeStuck_same
    | with_reducible apply State.modNode_same
    | with_reducible apply State.modFlow_same
    | with_reducible apply Same.ite
    | with_reducible apply Same.foldl
    | with_reducible apply Same.foldlFst
    | with_reducible apply SameRes.next
    | with_reducible apply SameRes.ite
    | split

theorem execInstanceAdmit_same {m0 : Nat} {r0 : State} {entry : Fin 4096} {flagUe : Option (Fin 262144)} {s : State} (hk
    : Same m0 r0 s) (hw : sub 8589321 m0 = true) : SameRes m0 r0 (execInstanceAdmit entry flagUe s) := by
  unfold execInstanceAdmit
  try dsimp only
  repeat' first
    | with_reducible assumption
    | exact sub_trans rfl hw
    | intro _
    | with_reducible apply State.admitEntry_same
    | with_reducible apply State.metFlagUe_same
    | with_reducible apply Same.ite
    | with_reducible apply Same.foldl
    | with_reducible apply Same.foldlFst
    | with_reducible apply SameRes.next

theorem execMatchTimeout_same {m0 : Nat} {r0 : State} {entry : Fin 4096} {s : State} (hk : Same m0 r0 s)
    (hw : sub 8769561 m0 = true) : SameRes m0 r0 (execMatchTimeout entry s) := by
  unfold execMatchTimeout
  try dsimp only
  repeat' first
    | with_reducible assumption
    | exact sub_trans rfl hw
    | intro _
    | with_reducible apply State.reachTick_same
    | with_reducible apply State.cancelNow_same
    | with_reducible apply State.logInst_same
    | with_reducible apply State.event_same
    | with_reducible apply Same.ite
    | with_reducible apply Same.foldl
    | with_reducible apply Same.foldlFst
    | with_reducible apply SameRes.next
    | with_reducible apply SameRes.ite
    | split

theorem execPcDispatch_same {m0 : Nat} {r0 : State} {pair : Fin 4} {s : State} (hk : Same m0 r0 s) (hw : sub 53257 m0 = true)
    : SameRes m0 r0 (execPcDispatch pair s) := by
  unfold execPcDispatch
  try dsimp only
  repeat' first
    | with_reducible assumption
    | exact sub_trans rfl hw
    | intro _
    | with_reducible apply State.startHolds_same
    | with_reducible apply State.dispatchPc_same
    | with_reducible apply Same.ite
    | with_reducible apply Same.foldl
    | with_reducible apply Same.foldlFst
    | with_reducible apply SameRes.next
    | with_reducible apply SameRes.ite
    | split

theorem execPeriodicStart_same {m0 : Nat} {r0 : State} {node : Fin 4096} {s : State} (hk : Same m0 r0 s)
    (hw : sub 4113 m0 = true) : SameRes m0 r0 (execPeriodicStart node s) := by
  unfold execPeriodicStart
  have b12 : sub 4096 m0 = true := sub_trans rfl hw
  try dsimp only
  repeat' first
    | with_reducible assumption
    | exact sub_trans rfl hw
    | intro _
    | with_reducible apply State.reachTick_same
    | with_reducible apply State.modNode_same
    | with_reducible apply State.addCnt_same
    | with_reducible apply State.event_same
    | with_reducible apply State.createEntry_same
    | with_reducible apply State.modInst_same
    | with_reducible apply Same.ite
    | with_reducible apply Same.foldl
    | with_reducible apply Same.foldlFst
    | fail_if_no_progress with_reducible refine Same.upd_12 ?_ b12
    | with_reducible apply SameRes.next
    | with_reducible apply SameRes.ite
    | split

theorem execRelease_same {m0 : Nat} {r0 : State} {entry : Fin 4096} {flagUe : Option (Fin 262144)} {s : State} (hk
    : Same m0 r0 s) (hw : sub 8900617 m0 = true) : SameRes m0 r0 (execRelease entry flagUe s) := by
  unfold execRelease
  try dsimp only
  repeat' first
    | with_reducible assumption
    | exact sub_trans rfl hw
    | intro _
    | with_reducible apply State.tryRelease_same
    | with_reducible apply State.metFlagUe_same
    | with_reducible apply Same.ite
    | with_reducible apply Same.foldl
    | with_reducible apply Same.foldlFst
    | with_reducible apply SameRes.next

theorem execReleaseRetry_same {m0 : Nat} {r0 : State} {s : State} (hk : Same m0 r0 s) (hw : sub 8769561 m0 = true)
    : SameRes m0 r0 (execReleaseRetry s) := by
  unfold execReleaseRetry
  extract_lets a0 a1
  have k0 : Same m0 r0 a0
  on_goal 1 => unfold a0
  rotate_left
  clear_value a0
  try clear_value a1
  all_goals repeat' first
    | with_reducible assumption
    | exact sub_trans rfl hw
    | intro _
    | with_reducible apply State.reachTick_same
    | with_reducible apply State.retryOne_same
    | with_reducible apply Same.ite
    | with_reducible apply Same.foldl
    | with_reducible apply Same.foldlFst
    | with_reducible apply SameRes.next

theorem execSlotDrain_same {m0 : Nat} {r0 : State} {node : Fin 4096} {input : Fin 8} {slot : Fin 64} {flagUe : Option
    (Fin 262144)} {s : State} (hk : Same m0 r0 s) (hw : sub 8589321 m0 = true) : SameRes m0 r0
    (execSlotDrain node input slot flagUe s) := by
  unfold execSlotDrain
  extract_lets a0
  have k0 : Same m0 r0 a0
  on_goal 1 => unfold a0
  rotate_left
  clear_value a0
  all_goals repeat' first
    | with_reducible assumption
    | exact sub_trans rfl hw
    | intro _
    | with_reducible apply State.metFlagUe_same
    | with_reducible apply State.tryDrain_same
    | with_reducible apply Same.ite
    | with_reducible apply Same.foldl
    | with_reducible apply Same.foldlFst
    | with_reducible apply SameRes.next
    | with_reducible apply SameRes.ite
    | split

theorem execStallRelease_same {m0 : Nat} {r0 : State} {entry : Fin 4096} {s : State} (hk : Same m0 r0 s)
    (hw : sub 8769545 m0 = true) : SameRes m0 r0 (execStallRelease entry s) := by
  unfold execStallRelease
  try dsimp only
  repeat' first
    | with_reducible assumption
    | exact sub_trans rfl hw
    | intro _
    | with_reducible apply State.tryRelease_same
    | with_reducible apply Same.ite
    | with_reducible apply Same.foldl
    | with_reducible apply Same.foldlFst
    | with_reducible apply SameRes.next
    | with_reducible apply SameRes.ite
    | split

theorem execStepComplete_same {m0 : Nat} {r0 : State} {unit : Half} {s : State} (hk : Same m0 r0 s)
    (hw : sub 8769545 m0 = true) : SameRes m0 r0 (execStepComplete unit s) := by
  unfold execStepComplete
  try dsimp only
  repeat' first
    | with_reducible assumption
    | exact sub_trans rfl hw
    | intro _
    | with_reducible apply State.modInst_same
    | with_reducible apply State.tryRelease_same
    | with_reducible apply State.leaveUnit_same
    | with_reducible apply Same.ite
    | with_reducible apply Same.foldl
    | with_reducible apply Same.foldlFst
    | with_reducible apply SameRes.next
    | with_reducible apply SameRes.ite
    | split

theorem execTokenLookup_same {m0 : Nat} {r0 : State} {s : State} (hk : Same m0 r0 s) (hw : sub 8769545 m0 = true)
    : SameRes m0 r0 (execTokenLookup s) := by
  unfold execTokenLookup
  have b12 : sub 4096 m0 = true := sub_trans rfl hw
  try dsimp only
  repeat' first
    | with_reducible assumption
    | exact sub_trans rfl hw
    | intro _
    | with_reducible apply State.lookupToken_same
    | with_reducible apply Same.ite
    | with_reducible apply Same.foldl
    | with_reducible apply Same.foldlFst
    | fail_if_no_progress with_reducible refine Same.upd_12 ?_ b12
    | with_reducible apply SameRes.next
    | with_reducible apply SameRes.ite
    | split

/-! ### Machine/AdaptOps.lean -/

theorem State.applyPatch_same {m0 : Nat} {r0 : State} {s : State} {idx : Nat} {off : Nat} (hk : Same m0 r0 s)
    (hw : sub 90117 m0 = true) : Same m0 r0 (State.applyPatch s idx off) := by
  unfold State.applyPatch
  try dsimp only
  repeat' first
    | with_reducible assumption
    | exact sub_trans rfl hw
    | intro _
    | with_reducible apply State.log_same
    | with_reducible apply State.write_same
    | with_reducible apply Same.ite
    | with_reducible apply Same.foldl
    | with_reducible apply Same.foldlFst
    | split

theorem State.repatch_same {m0 : Nat} {r0 : State} {s : State} {e : SecEnt} (hk : Same m0 r0 s) (hw : sub 90117 m0 = true)
    : Same m0 r0 (State.repatch s e) := by
  unfold State.repatch
  try dsimp only
  repeat' first
    | with_reducible assumption
    | exact sub_trans rfl hw
    | intro _
    | with_reducible apply State.applyPatch_same
    | with_reducible apply Same.ite
    | with_reducible apply Same.foldl

/-! ### Machine/IspOps.lean -/

theorem State.abortInjection_same {m0 : Nat} {r0 : State} {s : State} {p : StreamRec} (hk : Same m0 r0 s)
    (hw : sub 19005441 m0 = true) : Same m0 r0 (State.abortInjection s p) := by
  unfold State.abortInjection
  extract_lets a0 a1 a2
  try clear_value a0
  have k1 : Same m0 r0 a1
  on_goal 1 => unfold a1
  rotate_left
  clear_value a1
  have k2 : Same m0 r0 a2
  on_goal 1 => unfold a2
  rotate_left
  clear_value a2
  all_goals repeat' first
    | with_reducible assumption
    | exact sub_trans rfl hw
    | intro _
    | with_reducible apply State.cvuAbort_same
    | with_reducible apply State.modCover_same
    | with_reducible apply State.showPipe_same
    | with_reducible apply State.addFld_same
    | with_reducible apply State.modPipe_same
    | with_reducible apply Same.ite
    | with_reducible apply Same.foldl
    | with_reducible apply Same.foldlFst
    | split

theorem State.discardBand_same {m0 : Nat} {r0 : State} {s : State} {source : Nat} {r : RingSt} {k : Nat} {b : Nat}
    {seq : Word} {stream : Nat} {lines : Nat} (hk : Same m0 r0 s) (hw : sub 8458241 m0 = true) : Same m0 r0
    (State.discardBand s source r k b seq stream lines) := by
  unfold State.discardBand
  extract_lets a0 a1 a2
  try clear_value a0
  have k1 : Same m0 r0 a1
  on_goal 1 => unfold a1
  rotate_left
  clear_value a1
  have k2 : Same m0 r0 a2
  on_goal 1 => unfold a2
  rotate_left
  clear_value a2
  all_goals repeat' first
    | with_reducible assumption
    | exact sub_trans rfl hw
    | intro _
    | with_reducible apply State.log_same
    | with_reducible apply State.addCnt_same
    | with_reducible apply State.setRing_same
    | with_reducible apply State.post_same

theorem State.assignBand_same {m0 : Nat} {r0 : State} {s : State} {source : Nat} {layer : Nat} {idx : Nat} {b : Nat}
    {seq : Word} {stream : Nat} {lines : Nat} (hk : Same m0 r0 s) (hw : sub 8458249 m0 = true) : Same m0 r0
    (State.assignBand s source layer idx b seq stream lines).1 := by
  unfold State.assignBand
  try dsimp only
  repeat' first
    | with_reducible assumption
    | exact sub_trans rfl hw
    | intro _
    | with_reducible apply State.assignSlot_same
    | with_reducible apply State.discardBand_same
    | with_reducible apply Same.ite
    | with_reducible apply Same.foldl
    | with_reducible apply Same.foldlFst
    | split

theorem State.modFrame_same {m0 : Nat} {r0 : State} {s : State} {pipe : Nat} {stream : Nat} {seq : Word}
    {f : PipeFrame → PipeFrame} (hk : Same m0 r0 s) (hw : sub 2097152 m0 = true) : Same m0 r0
    (State.modFrame s pipe stream seq f) := by
  unfold State.modFrame
  try dsimp only
  repeat' first
    | with_reducible assumption
    | exact sub_trans rfl hw
    | intro _
    | with_reducible apply State.modPipe_same

theorem State.beginBand_same {m0 : Nat} {r0 : State} {s : State} {pipe : Nat} {f : PipeFrame} {r : RingSt} {b : Nat} (hk
    : Same m0 r0 s) (hw : sub 10555401 m0 = true) : Same m0 r0 (State.beginBand s pipe f r b) := by
  unfold State.beginBand
  try dsimp only
  repeat' first
    | with_reducible assumption
    | exact sub_trans rfl hw
    | intro _
    | with_reducible apply State.assignBand_same
    | with_reducible apply State.modFrame_same
    | with_reducible apply Same.ite
    | with_reducible apply Same.foldl
    | with_reducible apply Same.foldlFst
    | split

theorem State.beginNext_same {m0 : Nat} {r0 : State} {s : State} {pipe : Nat} {stream : Nat} {seq : Word} (hk : Same m0 r0 s)
    (hw : sub 10555401 m0 = true) : Same m0 r0 (State.beginNext s pipe stream seq) := by
  unfold State.beginNext
  try dsimp only
  repeat' first
    | with_reducible assumption
    | exact sub_trans rfl hw
    | intro _
    | with_reducible apply State.beginBand_same
    | with_reducible apply Same.ite
    | with_reducible apply Same.foldl
    | with_reducible apply Same.foldlFst
    | split

theorem State.endFrame_same {m0 : Nat} {r0 : State} {s : State} {pipe : Nat} {stream : Nat} {seq : Word} (hk : Same m0 r0 s)
    (hw : sub 2097161 m0 = true) : Same m0 r0 (State.endFrame s pipe stream seq) := by
  unfold State.endFrame
  extract_lets a0
  have k0 : Same m0 r0 a0
  on_goal 1 => unfold a0
  rotate_left
  clear_value a0
  all_goals repeat' first
    | with_reducible assumption
    | exact sub_trans rfl hw
    | intro _
    | with_reducible apply State.addCnt_same
    | with_reducible apply State.modPipe_same
    | with_reducible apply State.modFlag_same
    | with_reducible apply State.showPipe_same
    | with_reducible apply Same.ite
    | with_reducible apply Same.foldl
    | with_reducible apply Same.foldlFst
    | split

theorem State.beginLine_same {m0 : Nat} {r0 : State} {s : State} {pipe : Nat} {f : PipeFrame} {y : Nat} (hk : Same m0 r0 s)
    (hw : sub 10555401 m0 = true) : Same m0 r0 (State.beginLine s pipe f y) := by
  unfold State.beginLine
  try dsimp only
  repeat' first
    | with_reducible assumption
    | exact sub_trans rfl hw
    | intro _
    | with_reducible apply State.beginBand_same
    | with_reducible apply Same.ite
    | with_reducible apply Same.foldl

theorem State.numberRing_same {m0 : Nat} {r0 : State} {s : State} {r : RingSt} {seq : Word} (hk : Same m0 r0 s)
    (hw : sub 4096 m0 = true) : Same m0 r0 (State.numberRing s r seq) := by
  unfold State.numberRing
  try dsimp only
  repeat' first
    | with_reducible assumption
    | exact sub_trans rfl hw
    | intro _
    | with_reducible apply State.setRing_same
    | with_reducible apply Same.ite
    | with_reducible apply Same.foldl
    | with_reducible apply Same.foldlFst
    | split

theorem State.startInjection_same {m0 : Nat} {r0 : State} {s : State} {p : StreamRec} (hk : Same m0 r0 s)
    (hw : sub 19005441 m0 = true) : Same m0 r0 (State.startInjection s p) := by
  unfold State.startInjection
  try dsimp only
  repeat' first
    | with_reducible assumption
    | exact sub_trans rfl hw
    | intro _
    | with_reducible apply State.armTinder_same
    | with_reducible apply State.showPipe_same
    | with_reducible apply State.modPipe_same
    | with_reducible apply Same.ite
    | with_reducible apply Same.foldl
    | with_reducible apply Same.foldlFst
    | split

theorem State.voidBand_same {m0 : Nat} {r0 : State} {s : State} {source : Nat} {layer : Nat} {idx : Nat} {b : Nat}
    {seq : Word} {stream : Nat} {lines : Nat} (hk : Same m0 r0 s) (hw : sub 8458249 m0 = true) : Same m0 r0
    (State.voidBand s source layer idx b seq stream lines) := by
  unfold State.voidBand
  try dsimp only
  repeat' first
    | with_reducible assumption
    | exact sub_trans rfl hw
    | intro _
    | with_reducible apply State.assignBand_same
    | with_reducible apply State.modFlag_same
    | with_reducible apply State.post_same
    | with_reducible apply State.event_same
    | with_reducible apply Same.ite
    | with_reducible apply Same.foldl
    | with_reducible apply Same.foldlFst
    | split

theorem State.voidOutputs_same {m0 : Nat} {r0 : State} {s : State} {p : StreamRec} {layer : Nat} {params : List Byte}
    {seq : Word} (hk : Same m0 r0 s) (hw : sub 8458249 m0 = true) : Same m0 r0 (State.voidOutputs s p layer params seq) := by
  unfold State.voidOutputs
  extract_lets a0 a1
  try clear_value a0
  have k1 : Same m0 r0 a1
  on_goal 1 => unfold a1
  rotate_left
  clear_value a1
  all_goals repeat' first
    | with_reducible assumption
    | exact sub_trans rfl hw
    | intro _
    | with_reducible apply State.numberRing_same
    | with_reducible apply State.voidBand_same
    | with_reducible apply Same.ite
    | with_reducible apply Same.foldl

theorem State.ispParity_same {m0 : Nat} {r0 : State} {s : State} {pipe : Nat} {f : PipeFrame} {line : Nat} {height : Nat} (hk
    : Same m0 r0 s) (hw : sub 301988873 m0 = true) : Same m0 r0 (State.ispParity s pipe f line height) := by
  unfold State.ispParity
  extract_lets a0 a1 a2 a3 a4 a5 a6
  try clear_value a0
  try clear_value a1
  have k2 : Same m0 r0 a2
  on_goal 1 => unfold a2
  rotate_left
  clear_value a2
  have k3 : Same m0 r0 a3
  on_goal 1 => unfold a3
  rotate_left
  clear_value a3
  have k4 : Same m0 r0 a4
  on_goal 1 => unfold a4
  rotate_left
  clear_value a4
  try clear_value a5
  have k6 : Same m0 r0 a6
  on_goal 1 => unfold a6
  rotate_left
  clear_value a6
  all_goals repeat' first
    | with_reducible assumption
    | exact sub_trans rfl hw
    | intro _
    | with_reducible apply State.modFrame_same
    | with_reducible apply State.log_same
    | with_reducible apply State.event_same
    | with_reducible apply State.modBank_same
    | with_reducible apply State.modPipe_same
    | with_reducible apply State.fence_same
    | with_reducible apply Same.ite

theorem State.refreshBank_same {m0 : Nat} {r0 : State} {s : State} {pipe : Nat} {bank : Nat} {set : Nat} {seq : Word} (hk
    : Same m0 r0 s) (hw : sub 2097153 m0 = true) : Same m0 r0 (State.refreshBank s pipe bank set seq) := by
  unfold State.refreshBank
  try dsimp only
  repeat' first
    | with_reducible assumption
    | exact sub_trans rfl hw
    | intro _
    | with_reducible apply State.modBank_same
    | with_reducible apply State.setFld_same
    | with_reducible apply Same.ite
    | with_reducible apply Same.foldl
    | with_reducible apply Same.foldlFst
    | split

theorem State.startFrame_same {m0 : Nat} {r0 : State} {s : State} {p : StreamRec} {layer : Nat} {seq : Word} {ts : Nat}
    {staged : Option (Nat × Nat)} {flagged : Bool} {marked : List Nat} {lines : List (List Nat)} {closed : Bool} (hk
    : Same m0 r0 s) (hw : sub 2101249 m0 = true) : Same m0 r0
    (State.startFrame s p layer seq ts staged flagged marked lines closed) := by
  unfold State.startFrame
  try dsimp only
  repeat' first
    | with_reducible assumption
    | exact sub_trans rfl hw
    | intro _
    | with_reducible apply State.refreshBank_same
    | with_reducible apply State.numberRing_same
    | with_reducible apply State.showPipe_same
    | with_reducible apply State.modPipe_same
    | with_reducible apply Same.ite
    | with_reducible apply Same.foldl
    | with_reducible apply Same.foldlFst
    | split

theorem State.preemptStaged_same {m0 : Nat} {r0 : State} {s : State} {pipe : Nat} (hk : Same m0 r0 s)
    (hw : sub 2097153 m0 = true) : Same m0 r0 (State.preemptStaged s pipe) := by
  unfold State.preemptStaged
  try dsimp only
  repeat' first
    | with_reducible assumption
    | exact sub_trans rfl hw
    | intro _
    | with_reducible apply State.addCnt_same
    | with_reducible apply State.event_same
    | with_reducible apply State.modFrame_same
    | with_reducible apply Same.ite
    | with_reducible apply Same.foldl
    | with_reducible apply Same.foldlFst
    | split

/-! ### Machine/CamRx.lean -/

theorem State.assignSeq_same {m0 : Nat} {r0 : State} {s : State} {p : StreamRec} {c : StreamSt} {ts : Nat} (hk : Same m0 r0 s)
    (hw : sub 1052672 m0 = true) : Same m0 r0 (State.assignSeq s p c ts) := by
  unfold State.assignSeq
  have b12 : sub 4096 m0 = true := sub_trans rfl hw
  extract_lets a0 a1 a2 a3 a4 a5 a6
  try clear_value a0
  try clear_value a1
  have k2 : Same m0 r0 a2
  on_goal 1 => unfold a2
  rotate_left
  clear_value a2
  try clear_value a3
  try clear_value a4
  try clear_value a5
  try clear_value a6
  all_goals repeat' first
    | with_reducible assumption
    | exact sub_trans rfl hw
    | intro _
    | with_reducible apply State.modCam_same
    | with_reducible apply Same.ite
    | with_reducible apply Same.foldl
    | with_reducible apply Same.foldlFst
    | fail_if_no_progress with_reducible refine Same.upd_12 ?_ b12

theorem State.raiseFrame_same {m0 : Nat} {r0 : State} {s : State} {p : StreamRec} {bits : Nat} (hk : Same m0 r0 s)
    (hw : sub 3145728 m0 = true) : Same m0 r0 (State.raiseFrame s p bits) := by
  unfold State.raiseFrame
  try dsimp only
  repeat' first
    | with_reducible assumption
    | exact sub_trans rfl hw
    | intro _
    | with_reducible apply State.modCam_same
    | with_reducible apply State.modFrame_same
    | with_reducible apply Same.ite
    | with_reducible apply Same.foldl
    | with_reducible apply Same.foldlFst
    | split

theorem State.stageFrame_same {m0 : Nat} {r0 : State} {s : State} {p : StreamRec} {layer : Nat} {seq : Word} (hk
    : Same m0 r0 s) (hw : sub 9506825 m0 = true) : Same m0 r0 (State.stageFrame s p layer seq) := by
  unfold State.stageFrame
  try dsimp only
  repeat' first
    | with_reducible assumption
    | exact sub_trans rfl hw
    | intro _
    | with_reducible apply State.numberRing_same
    | with_reducible apply State.assignBand_same
    | with_reducible apply State.modCam_same
    | with_reducible apply Same.ite
    | with_reducible apply Same.foldl
    | with_reducible apply Same.foldlFst
    | split

theorem State.modEmber_same {m0 : Nat} {r0 : State} {s : State} {f : Ember → Ember} (hk : Same m0 r0 s)
    (hw : sub 131072 m0 = true) : Same m0 r0 (State.modEmber s f) := by
  unfold State.modEmber
  have b17 : sub 131072 m0 = true := sub_trans rfl hw
  try dsimp only
  repeat' first
    | with_reducible assumption
    | exact sub_trans rfl hw
    | intro _
    | with_reducible apply Same.ite
    | with_reducible apply Same.foldl
    | with_reducible apply Same.foldlFst
    | fail_if_no_progress with_reducible refine Same.upd_17 ?_ b17

theorem State.emberLine_same {m0 : Nat} {r0 : State} {s : State} {stream : Nat} {seq : Word} {line : List Nat} (hk
    : Same m0 r0 s) (hw : sub 131072 m0 = true) : Same m0 r0 (State.emberLine s stream seq line) := by
  unfold State.emberLine
  try dsimp only
  repeat' first
    | with_reducible assumption
    | exact sub_trans rfl hw
    | intro _
    | with_reducible apply State.modEmber_same
    | with_reducible apply Same.ite
    | with_reducible apply Same.foldl
    | with_reducible apply Same.foldlFst
    | split

theorem State.putLine_same {m0 : Nat} {r0 : State} {s : State} {p : StreamRec} {seq : Word} {y : Nat} {line : List Nat} (hk
    : Same m0 r0 s) (hw : sub 2228228 m0 = true) : Same m0 r0 (State.putLine s p seq y line) := by
  unfold State.putLine
  try dsimp only
  repeat' first
    | with_reducible assumption
    | exact sub_trans rfl hw
    | intro _
    | with_reducible apply State.modFrame_same
    | with_reducible apply State.store_same
    | with_reducible apply State.emberLine_same
    | with_reducible apply Same.ite
    | with_reducible apply Same.foldl
    | with_reducible apply Same.foldlFst
    | split

theorem State.writeMeta_same {m0 : Nat} {r0 : State} {s : State} {m : MetaWord} (hk : Same m0 r0 s) (hw : sub 1 m0 = true)
    : Same m0 r0 (State.writeMeta s m) := by
  unfold State.writeMeta
  extract_lets a0 a1 a2 a3
  try clear_value a0
  have k1 : Same m0 r0 a1
  on_goal 1 => unfold a1
  rotate_left
  clear_value a1
  have k2 : Same m0 r0 a2
  on_goal 1 => unfold a2
  rotate_left
  clear_value a2
  try clear_value a3
  all_goals repeat' first
    | with_reducible assumption
    | exact sub_trans rfl hw
    | intro _
    | with_reducible apply State.setReg_same
    | with_reducible apply Same.ite
    | with_reducible apply Same.foldl

theorem State.closeStaged_same {m0 : Nat} {r0 : State} {s : State} {p : StreamRec} {layer : Nat} {f : CamFrame} {seq : Word}
    {word : List Byte} {flags : Nat} (hk : Same m0 r0 s) (hw : sub 10555405 m0 = true) : Same m0 r0
    (State.closeStaged s p layer f seq word flags) := by
  unfold State.closeStaged
  try dsimp only
  repeat' first
    | with_reducible assumption
    | exact sub_trans rfl hw
    | intro _
    | with_reducible apply State.store_same
    | with_reducible apply State.releaseBand_same
    | with_reducible apply State.modPipe_same
    | with_reducible apply State.voidOutputs_same
    | with_reducible apply Same.ite
    | with_reducible apply Same.foldl
    | with_reducible apply Same.foldlFst
    | split

theorem State.emberClose_same {m0 : Nat} {r0 : State} {s : State} {stream : Nat} {seq : Word} {ts : Nat} {flagged : Bool}
    {missed : Bool} (hk : Same m0 r0 s) (hw : sub 131072 m0 = true) : Same m0 r0
    (State.emberClose s stream seq ts flagged missed) := by
  unfold State.emberClose
  extract_lets a0
  have k0 : Same m0 r0 a0
  on_goal 1 => unfold a0
  rotate_left
  clear_value a0
  all_goals repeat' first
    | with_reducible assumption
    | exact sub_trans rfl hw
    | intro _
    | with_reducible apply State.modEmber_same
    | with_reducible apply Same.ite
    | with_reducible apply Same.foldl
    | with_reducible apply Same.foldlFst
    | split
    | dsimp only

theorem State.closeFrame_same {m0 : Nat} {r0 : State} {s : State} {p : StreamRec} {bits : Nat} {inject : Bool} (hk
    : Same m0 r0 s) (hw : sub 28512269 m0 = true) : Same m0 r0 (State.closeFrame s p bits inject) := by
  unfold State.closeFrame
  try dsimp only
  repeat' first
    | with_reducible assumption
    | exact sub_trans rfl hw
    | intro _
    | with_reducible apply State.modCam_same
    | with_reducible apply State.raiseFrame_same
    | with_reducible apply State.stageFrame_same
    | with_reducible apply State.putLine_same
    | with_reducible apply State.writeMeta_same
    | with_reducible apply State.modFrame_same
    | with_reducible apply State.showPipe_same
    | with_reducible apply State.endFrame_same
    | with_reducible apply State.beginNext_same
    | with_reducible apply State.startInjection_same
    | with_reducible apply State.closeStaged_same
    | with_reducible apply State.emberClose_same
    | with_reducible apply Same.ite
    | with_reducible apply Same.foldl
    | with_reducible apply Same.foldlFst
    | split

theorem State.showBatch_same {m0 : Nat} {r0 : State} {s : State} {bus : Nat} {stream : Nat} {state : Nat} {result : Nat} (hk
    : Same m0 r0 s) (hw : sub 1 m0 = true) : Same m0 r0 (State.showBatch s bus stream state result) := by
  unfold State.showBatch
  try dsimp only
  repeat' first
    | with_reducible assumption
    | exact sub_trans rfl hw
    | intro _
    | with_reducible apply State.setFld_same
    | with_reducible apply Same.ite

theorem State.crcFailed_same {m0 : Nat} {r0 : State} {s : State} {port : Nat} (hk : Same m0 r0 s) (hw : sub 1 m0 = true)
    : Same m0 r0 (State.crcFailed s port) := by
  unfold State.crcFailed
  try dsimp only
  repeat' first
    | with_reducible assumption
    | exact sub_trans rfl hw
    | intro _
    | with_reducible apply State.addCnt_same
    | with_reducible apply State.event_same

theorem State.emberStart_same {m0 : Nat} {r0 : State} {s : State} {stream : Nat} {seq : Word} {ts : Nat} {width : Nat} (hk
    : Same m0 r0 s) (hw : sub 131072 m0 = true) : Same m0 r0 (State.emberStart s stream seq ts width) := by
  unfold State.emberStart
  try dsimp only
  repeat' first
    | with_reducible assumption
    | exact sub_trans rfl hw
    | intro _
    | with_reducible apply State.modEmber_same
    | with_reducible apply Same.ite
    | with_reducible apply Same.foldl
    | with_reducible apply Same.foldlFst
    | split

theorem State.headerCorrected_same {m0 : Nat} {r0 : State} {s : State} {port : Nat} (hk : Same m0 r0 s) (hw : sub 1 m0 = true)
    : Same m0 r0 (State.headerCorrected s port) := by
  unfold State.headerCorrected
  try dsimp only
  repeat' first
    | with_reducible assumption
    | exact sub_trans rfl hw
    | intro _
    | with_reducible apply State.addCnt_same
    | with_reducible apply State.event_same

theorem State.headerLost_same {m0 : Nat} {r0 : State} {s : State} {port : Nat} (hk : Same m0 r0 s)
    (hw : sub 3145729 m0 = true) : Same m0 r0 (State.headerLost s port) := by
  unfold State.headerLost
  extract_lets a0
  have k0 : Same m0 r0 a0
  on_goal 1 => unfold a0
  rotate_left
  clear_value a0
  all_goals repeat' first
    | with_reducible assumption
    | exact sub_trans rfl hw
    | intro _
    | with_reducible apply State.addCnt_same
    | with_reducible apply State.event_same
    | with_reducible apply State.raiseFrame_same
    | with_reducible apply Same.ite
    | with_reducible apply Same.foldl

theorem State.initCams_same {m0 : Nat} {r0 : State} {s : State} (hk : Same m0 r0 s) (hw : sub 1048576 m0 = true) : Same m0 r0
    (State.initCams s) := by
  unfold State.initCams
  have b20 : sub 1048576 m0 = true := sub_trans rfl hw
  try dsimp only
  repeat' first
    | with_reducible assumption
    | exact sub_trans rfl hw
    | intro _
    | with_reducible apply Same.ite
    | with_reducible apply Same.foldl
    | with_reducible apply Same.foldlFst
    | fail_if_no_progress with_reducible refine Same.upd_20 ?_ b20

theorem State.modPort_same {m0 : Nat} {r0 : State} {s : State} {n : Nat} {f : PortSt → PortSt} (hk : Same m0 r0 s)
    (hw : sub 1048576 m0 = true) : Same m0 r0 (State.modPort s n f) := by
  unfold State.modPort
  have b20 : sub 1048576 m0 = true := sub_trans rfl hw
  try dsimp only
  repeat' first
    | with_reducible assumption
    | exact sub_trans rfl hw
    | intro _
    | with_reducible apply Same.ite
    | with_reducible apply Same.foldl
    | with_reducible apply Same.foldlFst
    | fail_if_no_progress with_reducible refine Same.upd_20 ?_ b20

theorem State.recordMissed_same {m0 : Nat} {r0 : State} {s : State} {p : StreamRec} {tp : Nat} (hk : Same m0 r0 s)
    (hw : sub 9637929 m0 = true) : Same m0 r0 (State.recordMissed s p tp) := by
  unfold State.recordMissed
  try dsimp only
  repeat' first
    | with_reducible assumption
    | exact sub_trans rfl hw
    | intro _
    | with_reducible apply State.assignSeq_same
    | with_reducible apply State.draw_same
    | with_reducible apply State.writeMeta_same
    | with_reducible apply State.modCam_same
    | with_reducible apply State.voidBand_same
    | with_reducible apply State.numberRing_same
    | with_reducible apply State.voidOutputs_same
    | with_reducible apply State.emberClose_same
    | with_reducible apply Same.ite
    | with_reducible apply Same.foldl
    | with_reducible apply Same.foldlFst
    | split

theorem State.rxDiscard_same {m0 : Nat} {r0 : State} {s : State} {port : Nat} {ev : Bits} (hk : Same m0 r0 s)
    (hw : sub 1 m0 = true) : Same m0 r0 (State.rxDiscard s port ev) := by
  unfold State.rxDiscard
  try dsimp only
  repeat' first
    | with_reducible assumption
    | exact sub_trans rfl hw
    | intro _
    | with_reducible apply State.addCnt_same
    | with_reducible apply State.event_same

theorem State.settleOwed_same {m0 : Nat} {r0 : State} {s : State} {p : StreamRec} (hk : Same m0 r0 s)
    (hw : sub 9637929 m0 = true) : Same m0 r0 (State.settleOwed s p) := by
  unfold State.settleOwed
  try dsimp only
  repeat' first
    | with_reducible assumption
    | exact sub_trans rfl hw
    | intro _
    | with_reducible apply State.recordMissed_same
    | with_reducible apply Same.ite
    | with_reducible apply Same.foldl
    | with_reducible apply Same.foldlFst
    | split

/-! ### Machine/Journal.lean -/

theorem execEjFwPost_same {m0 : Nat} {r0 : State} {bank : Fin 5} {domain : BitVec 4} {value : Word} {s : State} (hk
    : Same m0 r0 s) (hw : sub 65537 m0 = true) : SameRes m0 r0 (execEjFwPost bank domain value s) := by
  unfold execEjFwPost
  extract_lets a0 a1 a2 a3 a4 a5 a6
  try clear_value a0
  try clear_value a1
  try clear_value a2
  try clear_value a3
  try clear_value a4
  try clear_value a5
  have k6 : Same m0 r0 a6
  on_goal 1 => unfold a6
  rotate_left
  clear_value a6
  all_goals repeat' first
    | with_reducible assumption
    | exact sub_trans rfl hw
    | intro _
    | with_reducible apply State.log_same
    | with_reducible apply State.setFld_same
    | with_reducible apply Same.ite
    | with_reducible apply Same.foldl
    | with_reducible apply Same.foldlFst
    | with_reducible apply SameRes.next
    | with_reducible apply SameRes.ite

theorem State.modJournal_same {m0 : Nat} {r0 : State} {s : State} {f : Journal → Journal} (hk : Same m0 r0 s)
    (hw : sub 65536 m0 = true) : Same m0 r0 (State.modJournal s f) := by
  unfold State.modJournal
  have b16 : sub 65536 m0 = true := sub_trans rfl hw
  try dsimp only
  repeat' first
    | with_reducible assumption
    | exact sub_trans rfl hw
    | intro _
    | with_reducible apply Same.ite
    | with_reducible apply Same.foldl
    | with_reducible apply Same.foldlFst
    | fail_if_no_progress with_reducible refine Same.upd_16 ?_ b16

theorem State.forwardRecords_same {m0 : Nat} {r0 : State} {s : State} (hk : Same m0 r0 s) (hw : sub 8454145 m0 = true)
    : Same m0 r0 (State.forwardRecords s) := by
  unfold State.forwardRecords
  try dsimp only
  repeat' first
    | with_reducible assumption
    | exact sub_trans rfl hw
    | intro _
    | with_reducible apply State.modJournal_same
    | with_reducible apply State.sendTo_same
    | with_reducible apply Same.ite
    | with_reducible apply Same.foldl
    | with_reducible apply Same.foldlFst
    | split

theorem State.showUnmirrored_same {m0 : Nat} {r0 : State} {s : State} (hk : Same m0 r0 s) (hw : sub 1 m0 = true) : Same m0 r0
    (State.showUnmirrored s) := by
  unfold State.showUnmirrored
  extract_lets a0 a1
  try clear_value a0
  have k1 : Same m0 r0 a1
  on_goal 1 => unfold a1
  rotate_left
  clear_value a1
  all_goals repeat' first
    | with_reducible assumption
    | exact sub_trans rfl hw
    | intro _
    | with_reducible apply State.setFld_same
    | with_reducible apply State.event_same
    | with_reducible apply Same.ite

theorem State.enterRing_same {m0 : Nat} {r0 : State} {s : State} {r : JRec} (hk : Same m0 r0 s) (hw : sub 8454145 m0 = true)
    : Same m0 r0 (State.enterRing s r) := by
  unfold State.enterRing
  extract_lets a0 a1 a2 a3 a4 a5 a6
  try clear_value a0
  have k1 : Same m0 r0 a1
  on_goal 1 => unfold a1
  rotate_left
  clear_value a1
  try clear_value a2
  try clear_value a3
  have k4 : Same m0 r0 a4
  on_goal 1 => unfold a4
  rotate_left
  clear_value a4
  have k5 : Same m0 r0 a5
  on_goal 1 => unfold a5
  rotate_left
  clear_value a5
  have k6 : Same m0 r0 a6
  on_goal 1 => unfold a6
  rotate_left
  clear_value a6
  all_goals repeat' first
    | with_reducible assumption
    | exact sub_trans rfl hw
    | intro _
    | with_reducible apply State.modJournal_same
    | with_reducible apply State.setReg_same
    | with_reducible apply State.event_same
    | with_reducible apply State.forwardRecords_same
    | with_reducible apply State.showUnmirrored_same
    | with_reducible apply Same.ite

theorem State.tellLost_same {m0 : Nat} {r0 : State} {s : State} (hk : Same m0 r0 s) (hw : sub 8454145 m0 = true) : Same m0 r0
    (State.tellLost s) := by
  unfold State.tellLost
  try dsimp only
  repeat' first
    | with_reducible assumption
    | exact sub_trans rfl hw
    | intro _
    | with_reducible apply State.enterRing_same
    | with_reducible apply State.modJournal_same
    | with_reducible apply Same.ite

theorem State.enterNext_same {m0 : Nat} {r0 : State} {s : State} (hk : Same m0 r0 s) (hw : sub 8454145 m0 = true) : Same m0 r0
    (State.enterNext s) := by
  unfold State.enterNext
  try dsimp only
  repeat' first
    | with_reducible assumption
    | exact sub_trans rfl hw
    | intro _
    | with_reducible apply State.modJournal_same
    | with_reducible apply State.tellLost_same
    | with_reducible apply State.enterRing_same
    | with_reducible apply State.loseRecord_same
    | with_reducible apply Same.ite
    | with_reducible apply Same.foldl
    | with_reducible apply Same.foldlFst
    | split

theorem execJournalDatagramSend_same {m0 : Nat} {r0 : State} {s : State} (hk : Same m0 r0 s) (hw : sub 4259841 m0 = true)
    : SameRes m0 r0 (execJournalDatagramSend s) := by
  unfold execJournalDatagramSend
  extract_lets a0 a1 a2 a3 a4 a5 a6 a7
  try clear_value a0
  try clear_value a1
  have k2 : Same m0 r0 a2
  on_goal 1 => unfold a2
  rotate_left
  clear_value a2
  try clear_value a3
  try clear_value a4
  try clear_value a5
  try clear_value a6
  have k7 : Same m0 r0 a7
  on_goal 1 => unfold a7
  rotate_left
  clear_value a7
  all_goals repeat' first
    | with_reducible assumption
    | exact sub_trans rfl hw
    | intro _
    | with_reducible apply State.event_same
    | with_reducible apply State.modJournal_same
    | with_reducible apply State.setReg_same
    | with_reducible apply State.handOver_same
    | with_reducible apply Same.ite
    | with_reducible apply Same.foldl
    | with_reducible apply Same.foldlFst
    | with_reducible apply SameRes.next
    | with_reducible apply SameRes.ite
    | split

theorem execJournalEntry_same {m0 : Nat} {r0 : State} {s : State} (hk : Same m0 r0 s) (hw : sub 8454145 m0 = true)
    : SameRes m0 r0 (execJournalEntry s) := by
  unfold execJournalEntry
  try dsimp only
  repeat' first
    | with_reducible assumption
    | exact sub_trans rfl hw
    | intro _
    | with_reducible apply State.enterNext_same
    | with_reducible apply Same.ite
    | with_reducible apply Same.foldl
    | with_reducible apply Same.foldlFst
    | with_reducible apply SameRes.next
    | with_reducible apply SameRes.ite

theorem execMirrorCopyDone_same {m0 : Nat} {r0 : State} {s : State} (hk : Same m0 r0 s) (hw : sub 8478725 m0 = true)
    : SameRes m0 r0 (execMirrorCopyDone s) := by
  unfold execMirrorCopyDone
  try dsimp only
  repeat' first
    | with_reducible assumption
    | exact sub_trans rfl hw
    | intro _
    | with_reducible apply State.write_same
    | with_reducible apply State.modJournal_same
    | with_reducible apply State.tellLost_same
    | with_reducible apply State.showUnmirrored_same
    | with_reducible apply Same.ite
    | with_reducible apply Same.foldl
    | with_reducible apply Same.foldlFst
    | with_reducible apply SameRes.next
    | with_reducible apply SameRes.ite
    | split

/-! ### Machine/Time.lean -/

theorem State.captureNow_same {m0 : Nat} {r0 : State} {s : State} {bank : Nat} (hk : Same m0 r0 s) (hw : sub 1 m0 = true)
    : Same m0 r0 (State.captureNow s bank) := by
  unfold State.captureNow
  try dsimp only
  repeat' first
    | with_reducible assumption
    | exact sub_trans rfl hw
    | intro _
    | with_reducible apply State.setReg_same

theorem State.modTl_same {m0 : Nat} {r0 : State} {s : State} {f : TimeSt → TimeSt} (hk : Same m0 r0 s)
    (hw : sub 256 m0 = true) : Same m0 r0 (State.modTl s f) := by
  unfold State.modTl
  have b8 : sub 256 m0 = true := sub_trans rfl hw
  try dsimp only
  repeat' first
    | with_reducible assumption
    | exact sub_trans rfl hw
    | intro _
    | with_reducible apply Same.ite
    | with_reducible apply Same.foldl
    | with_reducible apply Same.foldlFst
    | fail_if_no_progress with_reducible refine Same.upd_8 ?_ b8

theorem State.shiftTime_same {m0 : Nat} {r0 : State} {s : State} {d : Int} (hk : Same m0 r0 s) (hw : sub 83868944 m0 = true)
    : Same m0 r0 (State.shiftTime s d) := by
  unfold State.shiftTime
  have b4_10_11_12_15_20 : sub 1088528 m0 = true := sub_trans rfl hw
  have b13_17_21_22_23 : sub 14819328 m0 = true := sub_trans rfl hw
  have b16_18_19_26 : sub 67960832 m0 = true := sub_trans rfl hw
  extract_lets a0 a1 a2 a3 a4 a5
  have k0 : Same m0 r0 a0
  on_goal 1 => unfold a0
  rotate_left
  clear_value a0
  have k1 : Same m0 r0 a1
  on_goal 1 => unfold a1
  rotate_left
  clear_value a1
  try clear_value a2
  try clear_value a3
  try clear_value a4
  have k5 : Same m0 r0 a5
  on_goal 1 => unfold a5
  rotate_left
  clear_value a5
  all_goals repeat' first
    | with_reducible assumption
    | exact sub_trans rfl hw
    | intro _
    | with_reducible apply State.modTl_same
    | with_reducible apply Same.ite
    | with_reducible apply Same.foldl
    | with_reducible apply Same.foldlFst
    | fail_if_no_progress with_reducible refine Same.upd_4_10_11_12_15_20 ?_ b4_10_11_12_15_20
    | fail_if_no_progress with_reducible refine Same.upd_13_17_21_22_23 ?_ b13_17_21_22_23
    | fail_if_no_progress with_reducible refine Same.upd_16_18_19_26 ?_ b16_18_19_26

theorem State.stepTime_same {m0 : Nat} {r0 : State} {s : State} {d : Int} (hk : Same m0 r0 s) (hw : sub 83868945 m0 = true)
    : Same m0 r0 (State.stepTime s d) := by
  unfold State.stepTime
  extract_lets a0 a1
  have k0 : Same m0 r0 a0
  on_goal 1 => unfold a0
  rotate_left
  clear_value a0
  try clear_value a1
  all_goals repeat' first
    | with_reducible assumption
    | exact sub_trans rfl hw
    | intro _
    | with_reducible apply State.event_same
    | with_reducible apply State.addFld_same
    | with_reducible apply State.shiftTime_same
    | with_reducible apply State.log_same

theorem State.slew_same {m0 : Nat} {r0 : State} {s : State} (hk : Same m0 r0 s) (hw : sub 33 m0 = true) : Same m0 r0
    (State.slew s) := by
  unfold State.slew
  extract_lets a0
  have k0 : Same m0 r0 a0.2
  on_goal 1 => unfold a0
  rotate_left
  clear_value a0
  all_goals repeat' first
    | with_reducible assumption
    | exact sub_trans rfl hw
    | intro _
    | with_reducible apply State.draw_same
    | with_reducible apply State.setReg_same

theorem State.correct_same {m0 : Nat} {r0 : State} {s : State} {offset : Int} (hk : Same m0 r0 s)
    (hw : sub 83868977 m0 = true) : Same m0 r0 (State.correct s offset) := by
  unfold State.correct
  try dsimp only
  repeat' first
    | with_reducible assumption
    | exact sub_trans rfl hw
    | intro _
    | with_reducible apply State.stepTime_same
    | with_reducible apply State.modTl_same
    | with_reducible apply State.slew_same
    | with_reducible apply Same.ite

theorem State.enterTl_same {m0 : Nat} {r0 : State} {s : State} {st : Nat} (hk : Same m0 r0 s) (hw : sub 65537 m0 = true)
    : Same m0 r0 (State.enterTl s st) := by
  unfold State.enterTl
  extract_lets a0 a1
  try clear_value a0
  have k1 : Same m0 r0 a1
  on_goal 1 => unfold a1
  rotate_left
  clear_value a1
  all_goals repeat' first
    | with_reducible assumption
    | exact sub_trans rfl hw
    | intro _
    | with_reducible apply State.setFld_same
    | with_reducible apply State.log_same

theorem State.hearSource_same {m0 : Nat} {r0 : State} {s : State} {source : Nat} (hk : Same m0 r0 s) (hw : sub 256 m0 = true)
    : Same m0 r0 (State.hearSource s source).1 := by
  unfold State.hearSource
  try dsimp only
  repeat' first
    | with_reducible assumption
    | exact sub_trans rfl hw
    | intro _
    | with_reducible apply State.modTl_same
    | with_reducible apply Same.ite
    | with_reducible apply Same.foldl
    | with_reducible apply Same.foldlFst
    | split

theorem State.lockWatch_same {m0 : Nat} {r0 : State} {s : State} {offset : Int} (hk : Same m0 r0 s) (hw : sub 65793 m0 = true)
    : Same m0 r0 (State.lockWatch s offset) := by
  unfold State.lockWatch
  extract_lets a0 a1
  try clear_value a0
  have k1 : Same m0 r0 a1
  on_goal 1 => unfold a1
  rotate_left
  clear_value a1
  all_goals repeat' first
    | with_reducible assumption
    | exact sub_trans rfl hw
    | intro _
    | with_reducible apply State.modTl_same
    | with_reducible apply State.setFlag_same
    | with_reducible apply State.enterTl_same
    | with_reducible apply Same.ite

theorem State.showSource_same {m0 : Nat} {r0 : State} {s : State} {source : Nat} {offset : Int} (hk : Same m0 r0 s)
    (hw : sub 1 m0 = true) : Same m0 r0 (State.showSource s source offset) := by
  unfold State.showSource
  extract_lets a0
  have k0 : Same m0 r0 a0
  on_goal 1 => unfold a0
  rotate_left
  clear_value a0
  all_goals repeat' first
    | with_reducible assumption
    | exact sub_trans rfl hw
    | intro _
    | with_reducible apply State.event_same
    | with_reducible apply State.setFld_same
    | with_reducible apply Same.ite

theorem execTlHoldoverTimeout_same {m0 : Nat} {r0 : State} {s : State} (hk : Same m0 r0 s) (hw : sub 65809 m0 = true)
    : SameRes m0 r0 (execTlHoldoverTimeout s) := by
  unfold execTlHoldoverTimeout
  extract_lets a0 a1 a2
  try clear_value a0
  have k1 : Same m0 r0 a1
  on_goal 1 => unfold a1
  rotate_left
  clear_value a1
  have k2 : Same m0 r0 a2
  on_goal 1 => unfold a2
  rotate_left
  clear_value a2
  all_goals repeat' first
    | with_reducible assumption
    | exact sub_trans rfl hw
    | intro _
    | with_reducible apply State.reach_same
    | with_reducible apply State.modTl_same
    | with_reducible apply State.event_same
    | with_reducible apply State.enterTl_same
    | with_reducible apply Same.ite
    | with_reducible apply Same.foldl
    | with_reducible apply Same.foldlFst
    | with_reducible apply SameRes.next
    | with_reducible apply SameRes.ite

theorem execTlLostTimeout_same {m0 : Nat} {r0 : State} {s : State} (hk : Same m0 r0 s) (hw : sub 65553 m0 = true)
    : SameRes m0 r0 (execTlLostTimeout s) := by
  unfold execTlLostTimeout
  extract_lets a0
  have k0 : Same m0 r0 a0
  on_goal 1 => unfold a0
  rotate_left
  clear_value a0
  all_goals repeat' first
    | with_reducible assumption
    | exact sub_trans rfl hw
    | intro _
    | with_reducible apply State.reach_same
    | with_reducible apply State.event_same
    | with_reducible apply State.enterTl_same
    | with_reducible apply Same.ite
    | with_reducible apply Same.foldl
    | with_reducible apply Same.foldlFst
    | with_reducible apply SameRes.next
    | with_reducible apply SameRes.ite

theorem execTlNowHiRead_same {m0 : Nat} {r0 : State} {s : State} (hk : Same m0 r0 s) (hw : sub 1 m0 = true) : SameRes m0 r0
    (execTlNowHiRead s) := by
  unfold execTlNowHiRead
  try dsimp only
  repeat' first
    | with_reducible assumption
    | exact sub_trans rfl hw
    | intro _
    | with_reducible apply State.captureNow_same
    | with_reducible apply State.setReg_same
    | with_reducible apply Same.ite
    | with_reducible apply Same.foldl
    | with_reducible apply Same.foldlFst
    | with_reducible apply SameRes.next

theorem execTlServoUpdate_same {m0 : Nat} {r0 : State} {source : Fin 8} {offset : Int} {s : State} (hk : Same m0 r0 s)
    (hw : sub 83868977 m0 = true) : SameRes m0 r0 (execTlServoUpdate source offset s) := by
  unfold execTlServoUpdate
  extract_lets a0 a1 a2
  have k0 : Same m0 r0 a0.1
  on_goal 1 => unfold a0
  rotate_left
  clear_value a0
  have k1 : Same m0 r0 a1
  on_goal 1 => unfold a1
  rotate_left
  clear_value a1
  have k2 : Same m0 r0 a2
  on_goal 1 => unfold a2
  rotate_left
  clear_value a2
  all_goals repeat' first
    | with_reducible assumption
    | exact sub_trans rfl hw
    | intro _
    | with_reducible apply State.hearSource_same
    | with_reducible apply State.showSource_same
    | with_reducible apply State.enterTl_same
    | with_reducible apply State.modTl_same
    | with_reducible apply State.lockWatch_same
    | with_reducible apply State.correct_same
    | with_reducible apply Same.ite
    | with_reducible apply Same.foldl
    | with_reducible apply Same.foldlFst
    | with_reducible apply SameRes.next
    | with_reducible apply SameRes.ite

/-! ### Machine/KinOps.lean -/

theorem State.modPins_same {m0 : Nat} {r0 : State} {s : State} {f : Pins → Pins} (hk : Same m0 r0 s) (hw : sub 512 m0 = true)
    : Same m0 r0 (State.modPins s f) := by
  unfold State.modPins
  have b9 : sub 512 m0 = true := sub_trans rfl hw
  try dsimp only
  repeat' first
    | with_reducible assumption
    | exact sub_trans rfl hw
    | intro _
    | with_reducible apply Same.ite
    | with_reducible apply Same.foldl
    | with_reducible apply Same.foldlFst
    | fail_if_no_progress with_reducible refine Same.upd_9 ?_ b9

theorem State.assignGpio_same {m0 : Nat} {r0 : State} {s : State} (hk : Same m0 r0 s) (hw : sub 512 m0 = true) : Same m0 r0
    (State.assignGpio s) := by
  unfold State.assignGpio
  try dsimp only
  repeat' first
    | with_reducible assumption
    | exact sub_trans rfl hw
    | intro _
    | with_reducible apply State.modPins_same
    | with_reducible apply Same.ite
    | with_reducible apply Same.foldl
    | with_reducible apply Same.foldlFst
    | split

theorem State.bindScene_same {m0 : Nat} {r0 : State} {s : State} {n : Nat} (hk : Same m0 r0 s) (hw : sub 20092937 m0 = true)
    : Same m0 r0 (State.bindScene s n) := by
  unfold State.bindScene
  have b11 : sub 2048 m0 = true := sub_trans rfl hw
  try dsimp only
  repeat' first
    | with_reducible assumption
    | exact sub_trans rfl hw
    | intro _
    | with_reducible apply State.bindLayer_same
    | with_reducible apply State.openLayer_same
    | with_reducible apply State.setFlag_same
    | with_reducible apply State.setFld_same
    | with_reducible apply State.syncCoverage_same
    | with_reducible apply Same.ite
    | with_reducible apply Same.foldl
    | with_reducible apply Same.foldlFst
    | fail_if_no_progress with_reducible refine Same.upd_11 ?_ b11
    | split

theorem State.setStage_same {m0 : Nat} {r0 : State} {s : State} {n : Nat} (hk : Same m0 r0 s) (hw : sub 1 m0 = true)
    : Same m0 r0 (State.setStage s n) := by
  unfold State.setStage
  try dsimp only
  repeat' first
    | with_reducible assumption
    | exact sub_trans rfl hw
    | intro _
    | with_reducible apply State.setFld_same

theorem State.modKin_same {m0 : Nat} {r0 : State} {s : State} {f : Kindle → Kindle} (hk : Same m0 r0 s)
    (hw : sub 1024 m0 = true) : Same m0 r0 (State.modKin s f) := by
  unfold State.modKin
  have b10 : sub 1024 m0 = true := sub_trans rfl hw
  try dsimp only
  repeat' first
    | with_reducible assumption
    | exact sub_trans rfl hw
    | intro _
    | with_reducible apply Same.ite
    | with_reducible apply Same.foldl
    | with_reducible apply Same.foldlFst
    | fail_if_no_progress with_reducible refine Same.upd_10 ?_ b10

theorem State.modSafety_same {m0 : Nat} {r0 : State} {s : State} {f : Safety → Safety} (hk : Same m0 r0 s)
    (hw : sub 131072 m0 = true) : Same m0 r0 (State.modSafety s f) := by
  unfold State.modSafety
  have b17 : sub 131072 m0 = true := sub_trans rfl hw
  try dsimp only
  repeat' first
    | with_reducible assumption
    | exact sub_trans rfl hw
    | intro _
    | with_reducible apply Same.ite
    | with_reducible apply Same.foldl
    | with_reducible apply Same.foldlFst
    | fail_if_no_progress with_reducible refine Same.upd_17 ?_ b17

theorem State.coverAll_same {m0 : Nat} {r0 : State} {s : State} (hk : Same m0 r0 s) (hw : sub 131072 m0 = true) : Same m0 r0
    (State.coverAll s) := by
  unfold State.coverAll
  try dsimp only
  repeat' first
    | with_reducible assumption
    | exact sub_trans rfl hw
    | intro _
    | with_reducible apply State.modSafety_same

theorem State.gpioSafe_same {m0 : Nat} {r0 : State} {s : State} (hk : Same m0 r0 s) (hw : sub 512 m0 = true) : Same m0 r0
    (State.gpioSafe s) := by
  unfold State.gpioSafe
  try dsimp only
  repeat' first
    | with_reducible assumption
    | exact sub_trans rfl hw
    | intro _
    | with_reducible apply State.modPins_same
    | with_reducible apply Same.ite
    | with_reducible apply Same.foldl

theorem State.kindlingFail_same {m0 : Nat} {r0 : State} {s : State} {code : Nat} {region : Nat} {pos : Nat} (hk
    : Same m0 r0 s) (hw : sub 536870543 m0 = true) : Same m0 r0 (State.kindlingFail s code region pos) := by
  unfold State.kindlingFail
  extract_lets a0 a1 a2 a3 a4 a5 a6
  have k0 : Same m0 r0 a0
  on_goal 1 => unfold a0
  rotate_left
  clear_value a0
  try clear_value a1
  try clear_value a2
  have k3 : Same m0 r0 a3
  on_goal 1 => unfold a3
  rotate_left
  clear_value a3
  have k4 : Same m0 r0 a4
  on_goal 1 => unfold a4
  rotate_left
  clear_value a4
  try clear_value a5
  have k6 : Same m0 r0 a6
  on_goal 1 => unfold a6
  rotate_left
  clear_value a6
  all_goals repeat' first
    | with_reducible assumption
    | exact sub_trans rfl hw
    | intro _
    | with_reducible apply State.log_same
    | with_reducible apply State.coreOff_same
    | with_reducible apply State.setReg_same
    | with_reducible apply State.setFld_same
    | with_reducible apply State.setStage_same

theorem State.failCandidate_same {m0 : Nat} {r0 : State} {s : State} {code : Nat} {pos : Nat} (hk : Same m0 r0 s)
    (hw : sub 536870543 m0 = true) : Same m0 r0 (State.failCandidate s code pos) := by
  unfold State.failCandidate
  extract_lets a0
  have k0 : Same m0 r0 a0
  on_goal 1 => unfold a0
  rotate_left
  clear_value a0
  all_goals repeat' first
    | with_reducible assumption
    | exact sub_trans rfl hw
    | intro _
    | with_reducible apply State.log_same
    | with_reducible apply State.setStage_same
    | with_reducible apply State.modKin_same
    | with_reducible apply State.kindlingFail_same
    | with_reducible apply Same.ite
    | with_reducible apply Same.foldl
    | with_reducible apply Same.foldlFst
    | split

theorem State.kinFence_same {m0 : Nat} {r0 : State} {s : State} {code : Nat} {cause : Nat} (hk : Same m0 r0 s)
    (hw : sub 114689 m0 = true) : Same m0 r0 (State.kinFence s code cause) := by
  unfold State.kinFence
  extract_lets a0 a1 a2 a3 a4 a5
  try clear_value a0
  have k1 : Same m0 r0 a1
  on_goal 1 => unfold a1
  rotate_left
  clear_value a1
  have k2 : Same m0 r0 a2
  on_goal 1 => unfold a2
  rotate_left
  clear_value a2
  have k3 : Same m0 r0 a3
  on_goal 1 => unfold a3
  rotate_left
  clear_value a3
  have k4 : Same m0 r0 a4
  on_goal 1 => unfold a4
  rotate_left
  clear_value a4
  try clear_value a5
  all_goals repeat' first
    | with_reducible assumption
    | exact sub_trans rfl hw
    | intro _
    | with_reducible apply State.setUnit_same
    | with_reducible apply State.event_same
    | with_reducible apply State.gateUnit_same
    | with_reducible apply State.log_same
    | with_reducible apply State.addFld_same
    | with_reducible apply State.setFld_same
    | with_reducible apply State.modCore_same
    | with_reducible apply Same.ite
    | with_reducible apply Same.foldl
    | with_reducible apply Same.foldlFst
    | split

theorem State.powerAll_same {m0 : Nat} {r0 : State} {s : State} (hk : Same m0 r0 s) (hw : sub 32769 m0 = true) : Same m0 r0
    (State.powerAll s) := by
  unfold State.powerAll
  extract_lets a0
  have k0 : Same m0 r0 a0
  on_goal 1 => unfold a0
  rotate_left
  clear_value a0
  all_goals repeat' first
    | with_reducible assumption
    | exact sub_trans rfl hw
    | intro _
    | with_reducible apply State.modUnit_same
    | with_reducible apply State.setDomain_same
    | with_reducible apply Same.ite
    | with_reducible apply Same.foldl

theorem State.raiseErrIn_same {m0 : Nat} {r0 : State} {s : State} (hk : Same m0 r0 s) (hw : sub 196609 m0 = true) : Same m0 r0
    (State.raiseErrIn s) := by
  unfold State.raiseErrIn
  extract_lets a0 a1 a2
  try clear_value a0
  have k1 : Same m0 r0 a1
  on_goal 1 => unfold a1
  rotate_left
  clear_value a1
  have k2 : Same m0 r0 a2
  on_goal 1 => unfold a2
  rotate_left
  clear_value a2
  all_goals repeat' first
    | with_reducible assumption
    | exact sub_trans rfl hw
    | intro _
    | with_reducible apply State.log_same
    | with_reducible apply State.modSafety_same
    | with_reducible apply State.doubt_same
    | with_reducible apply State.severe_same
    | with_reducible apply Same.ite

theorem State.ready_same {m0 : Nat} {r0 : State} {s : State} (hk : Same m0 r0 s) (hw : sub 8627777 m0 = true) : Same m0 r0
    (State.ready s) := by
  unfold State.ready
  have b6 : sub 64 m0 = true := sub_trans rfl hw
  extract_lets a0 a1 a2 a3 a4 a5 a6 a7 a8 a9 a10 a11 a12 a13 a14 a15 a16 a17
  try clear_value a0
  try clear_value a1
  try clear_value a2
  have k3 : Same m0 r0 a3
  on_goal 1 => unfold a3
  rotate_left
  clear_value a3
  have k4 : Same m0 r0 a4
  on_goal 1 => unfold a4
  rotate_left
  clear_value a4
  try clear_value a5
  try clear_value a6
  have k7 : Same m0 r0 a7
  on_goal 1 => unfold a7
  rotate_left
  clear_value a7
  have k8 : Same m0 r0 a8
  on_goal 1 => unfold a8
  rotate_left
  clear_value a8
  have k9 : Same m0 r0 a9
  on_goal 1 => unfold a9
  rotate_left
  clear_value a9
  have k10 : Same m0 r0 a10
  on_goal 1 => unfold a10
  rotate_left
  clear_value a10
  have k11 : Same m0 r0 a11
  on_goal 1 => unfold a11
  rotate_left
  clear_value a11
  have k12 : Same m0 r0 a12
  on_goal 1 => unfold a12
  rotate_left
  clear_value a12
  have k13 : Same m0 r0 a13
  on_goal 1 => unfold a13
  rotate_left
  clear_value a13
  have k14 : Same m0 r0 a14
  on_goal 1 => unfold a14
  rotate_left
  clear_value a14
  have k15 : Same m0 r0 a15
  on_goal 1 => unfold a15
  rotate_left
  clear_value a15
  have k16 : Same m0 r0 a16
  on_goal 1 => unfold a16
  rotate_left
  clear_value a16
  have k17 : Same m0 r0 a17
  on_goal 1 => unfold a17
  rotate_left
  clear_value a17
  all_goals repeat' first
    | with_reducible assumption
    | exact sub_trans rfl hw
    | intro _
    | with_reducible apply State.setFld_same
    | with_reducible apply State.setStage_same
    | with_reducible apply State.setReg_same
    | with_reducible apply State.modKin_same
    | with_reducible apply State.modPins_same
    | with_reducible apply State.setFlag_same
    | with_reducible apply State.raiseErrIn_same
    | with_reducible apply State.modSel_same
    | with_reducible apply State.startCounts_same
    | with_reducible apply State.modEmber_same
    | with_reducible apply State.gateUnbound_same
    | with_reducible apply State.setService_same
    | with_reducible apply State.refreshActive_same
    | with_reducible apply State.syncCoverage_same
    | with_reducible apply Same.ite
    | with_reducible apply Same.foldl
    | with_reducible apply Same.foldlFst
    | fail_if_no_progress with_reducible refine Same.upd_6 ?_ b6

theorem State.recoveryHold_same {m0 : Nat} {r0 : State} {s : State} {code : Nat} (hk : Same m0 r0 s)
    (hw : sub 536870543 m0 = true) : Same m0 r0 (State.recoveryHold s code) := by
  unfold State.recoveryHold
  extract_lets a0
  have k0 : Same m0 r0 a0
  on_goal 1 => unfold a0
  rotate_left
  clear_value a0
  all_goals repeat' first
    | with_reducible assumption
    | exact sub_trans rfl hw
    | intro _
    | with_reducible apply State.coreOff_same
    | with_reducible apply State.modKin_same
    | with_reducible apply State.setFld_same
    | with_reducible apply State.setStage_same

theorem State.startLinks_same {m0 : Nat} {r0 : State} {s : State} (hk : Same m0 r0 s) (hw : sub 1 m0 = true) : Same m0 r0
    (State.startLinks s) := by
  unfold State.startLinks
  extract_lets a0 a1 a2
  try clear_value a0
  try clear_value a1
  have k2 : Same m0 r0 a2
  on_goal 1 => unfold a2
  rotate_left
  clear_value a2
  all_goals repeat' first
    | with_reducible assumption
    | exact sub_trans rfl hw
    | intro _
    | with_reducible apply State.setFld_same
    | with_reducible apply Same.ite
    | with_reducible apply Same.foldl
    | with_reducible apply Same.foldlFst
    | split

theorem State.startKindling_same {m0 : Nat} {r0 : State} {s : State} (hk : Same m0 r0 s) (hw : sub 1281 m0 = true)
    : Same m0 r0 (State.startKindling s) := by
  unfold State.startKindling
  extract_lets a0 a1 a2
  have k0 : Same m0 r0 a0
  on_goal 1 => unfold a0
  rotate_left
  clear_value a0
  have k1 : Same m0 r0 a1
  on_goal 1 => unfold a1
  rotate_left
  clear_value a1
  have k2 : Same m0 r0 a2
  on_goal 1 => unfold a2
  rotate_left
  clear_value a2
  all_goals repeat' first
    | with_reducible assumption
    | exact sub_trans rfl hw
    | intro _
    | with_reducible apply State.startLinks_same
    | with_reducible apply State.setStage_same
    | with_reducible apply State.setReg_same
    | with_reducible apply State.modTl_same
    | with_reducible apply State.modKin_same

theorem State.releaseCore_same {m0 : Nat} {r0 : State} {s : State} (hk : Same m0 r0 s) (hw : sub 536870799 m0 = true)
    : Same m0 r0 (State.releaseCore s) := by
  unfold State.releaseCore
  extract_lets a0
  have k0 : Same m0 r0 a0
  on_goal 1 => unfold a0
  rotate_left
  clear_value a0
  all_goals repeat' first
    | with_reducible assumption
    | exact sub_trans rfl hw
    | intro _
    | with_reducible apply State.modKin_same
    | with_reducible apply State.recoveryHold_same
    | with_reducible apply State.startKindling_same
    | with_reducible apply Same.ite

theorem State.serviceBank_same {m0 : Nat} {r0 : State} {s : State} (hk : Same m0 r0 s) (hw : sub 2097153 m0 = true)
    : Same m0 r0 (State.serviceBank s) := by
  unfold State.serviceBank
  try dsimp only
  repeat' first
    | with_reducible assumption
    | exact sub_trans rfl hw
    | intro _
    | with_reducible apply State.modPipe_same
    | with_reducible apply State.setFlag_same
    | with_reducible apply Same.ite
    | with_reducible apply Same.foldl

theorem State.startLoad_same {m0 : Nat} {r0 : State} {s : State} (hk : Same m0 r0 s) (hw : sub 196609 m0 = true) : Same m0 r0
    (State.startLoad s) := by
  unfold State.startLoad
  extract_lets a0 a1 a2
  try clear_value a0
  have k1 : Same m0 r0 a1
  on_goal 1 => unfold a1
  rotate_left
  clear_value a1
  try clear_value a2
  all_goals repeat' first
    | with_reducible assumption
    | exact sub_trans rfl hw
    | intro _
    | with_reducible apply State.setFlag_same
    | with_reducible apply State.modJournal_same
    | with_reducible apply State.setStage_same
    | with_reducible apply State.modSafety_same

theorem State.unbindAll_same {m0 : Nat} {r0 : State} {s : State} (hk : Same m0 r0 s) (hw : sub 20125697 m0 = true)
    : Same m0 r0 (State.unbindAll s) := by
  unfold State.unbindAll
  have b11 : sub 2048 m0 = true := sub_trans rfl hw
  extract_lets a0 a1 a2 a3 a4
  try clear_value a0
  try clear_value a1
  have k2 : Same m0 r0 a2
  on_goal 1 => unfold a2
  rotate_left
  clear_value a2
  try clear_value a3
  have k4 : Same m0 r0 a4
  on_goal 1 => unfold a4
  rotate_left
  clear_value a4
  all_goals repeat' first
    | with_reducible assumption
    | exact sub_trans rfl hw
    | intro _
    | with_reducible apply State.unbindStream_same
    | with_reducible apply State.syncCvus_same
    | with_reducible apply State.removeLayer_same
    | with_reducible apply Same.ite
    | with_reducible apply Same.foldl
    | with_reducible apply Same.foldlFst
    | fail_if_no_progress with_reducible refine Same.upd_11 ?_ b11

theorem State.verifyMismatch_same {m0 : Nat} {r0 : State} {s : State} {code : Nat} (hk : Same m0 r0 s)
    (hw : sub 536870543 m0 = true) : Same m0 r0 (State.verifyMismatch s code) := by
  unfold State.verifyMismatch
  extract_lets a0 a1 a2
  have k0 : Same m0 r0 a0
  on_goal 1 => unfold a0
  rotate_left
  clear_value a0
  have k1 : Same m0 r0 a1
  on_goal 1 => unfold a1
  rotate_left
  clear_value a1
  try clear_value a2
  all_goals repeat' first
    | with_reducible assumption
    | exact sub_trans rfl hw
    | intro _
    | with_reducible apply State.kinFence_same
    | with_reducible apply State.modSafety_same
    | with_reducible apply State.kindlingFail_same
    | with_reducible apply State.bindScene_same
    | with_reducible apply State.unbindAll_same
    | with_reducible apply Same.ite
    | with_reducible apply Same.foldl
    | with_reducible apply Same.foldlFst
    | split

theorem State.warmReset_same {m0 : Nat} {r0 : State} {s : State} {cause : Bits} {hold : Bool} (hk : Same m0 r0 s)
    (hw : sub 536870543 m0 = true) : Same m0 r0 (State.warmReset s cause hold) := by
  unfold State.warmReset
  extract_lets a0 a1 a2 a3
  try clear_value a0
  try clear_value a1
  have k2 : Same m0 r0 a2
  on_goal 1 => unfold a2
  rotate_left
  clear_value a2
  have k3 : Same m0 r0 a3
  on_goal 1 => unfold a3
  rotate_left
  clear_value a3
  all_goals repeat' first
    | with_reducible assumption
    | exact sub_trans rfl hw
    | intro _
    | with_reducible apply State.modKin_same
    | with_reducible apply State.setFld_same
    | with_reducible apply State.addFld_same
    | with_reducible apply State.coreOff_same
    | with_reducible apply Same.ite

/-! ### Machine/Warp.lean -/

theorem State.footprint_same {m0 : Nat} {r0 : State} {s : State} {c : StepCtx} {n : Nat} (hk : Same m0 r0 s)
    (hw : sub 69633 m0 = true) : Same m0 r0 (State.footprint s c n) := by
  unfold State.footprint
  extract_lets a0 a1 a2
  have k0 : Same m0 r0 a0
  on_goal 1 => unfold a0
  rotate_left
  clear_value a0
  try clear_value a1
  have k2 : Same m0 r0 a2
  on_goal 1 => unfold a2
  rotate_left
  clear_value a2
  all_goals repeat' first
    | with_reducible assumption
    | exact sub_trans rfl hw
    | intro _
    | with_reducible apply State.flagStep_same
    | with_reducible apply State.event_same
    | with_reducible apply State.addCnt_same
    | with_reducible apply State.log_same
    | with_reducible apply State.modInst_same
    | with_reducible apply Same.ite
    | with_reducible apply Same.foldl
    | with_reducible apply Same.foldlFst
    | split

theorem runWarp_same {m0 : Nat} {r0 : State} {s : State} {c : StepCtx} {d : List Byte} (hk : Same m0 r0 s)
    (hw : sub 335543309 m0 = true) : Same m0 r0 (runWarp s c d) := by
  unfold runWarp
  try dsimp only
  repeat' first
    | with_reducible assumption
    | exact sub_trans rfl hw
    | intro _
    | with_reducible apply State.fetchRuns_same
    | with_reducible apply State.storeRuns_same
    | with_reducible apply State.event_same
    | with_reducible apply State.addCnt_same
    | with_reducible apply State.addKilo_same
    | with_reducible apply State.footprint_same
    | with_reducible apply State.stepDone_same
    | with_reducible apply Same.ite
    | with_reducible apply Same.foldl
    | with_reducible apply Same.foldlFst
    | split
    | dsimp only
    | (with_reducible apply Same.of_fst; rotate_left; with_reducible assumption)

theorem State.warpStep_same {m0 : Nat} {r0 : State} {s : State} {inst : Nat} {op : Nat} {err : StepErr} (hk : Same m0 r0 s)
    (hw : sub 335543309 m0 = true) : Same m0 r0 (State.warpStep s inst op err) := by
  unfold State.warpStep
  try dsimp only
  repeat' first
    | with_reducible assumption
    | exact sub_trans rfl hw
    | intro _
    | with_reducible apply State.engineStep_same
    | with_reducible apply runWarp_same

theorem execAffine_same {m0 : Nat} {r0 : State} {inst : Fin 4} {err : StepErr} {s : State} (hk : Same m0 r0 s)
    (hw : sub 335543309 m0 = true) : SameRes m0 r0 (execAffine inst err s) := by
  unfold execAffine
  try dsimp only
  repeat' first
    | with_reducible assumption
    | exact sub_trans rfl hw
    | intro _
    | with_reducible apply State.warpStep_same
    | with_reducible apply Same.ite
    | with_reducible apply Same.foldl
    | with_reducible apply Same.foldlFst
    | with_reducible apply SameRes.next

theorem execHomography_same {m0 : Nat} {r0 : State} {inst : Fin 4} {err : StepErr} {s : State} (hk : Same m0 r0 s)
    (hw : sub 335543309 m0 = true) : SameRes m0 r0 (execHomography inst err s) := by
  unfold execHomography
  try dsimp only
  repeat' first
    | with_reducible assumption
    | exact sub_trans rfl hw
    | intro _
    | with_reducible apply State.warpStep_same
    | with_reducible apply Same.ite
    | with_reducible apply Same.foldl
    | with_reducible apply Same.foldlFst
    | with_reducible apply SameRes.next

theorem execMesh_same {m0 : Nat} {r0 : State} {inst : Fin 4} {err : StepErr} {s : State} (hk : Same m0 r0 s)
    (hw : sub 335543309 m0 = true) : SameRes m0 r0 (execMesh inst err s) := by
  unfold execMesh
  try dsimp only
  repeat' first
    | with_reducible assumption
    | exact sub_trans rfl hw
    | intro _
    | with_reducible apply State.warpStep_same
    | with_reducible apply Same.ite
    | with_reducible apply Same.foldl
    | with_reducible apply Same.foldlFst
    | with_reducible apply SameRes.next

theorem runPyr_same {m0 : Nat} {r0 : State} {s : State} {c : StepCtx} {d : List Byte} (hk : Same m0 r0 s)
    (hw : sub 335543309 m0 = true) : Same m0 r0 (runPyr s c d) := by
  unfold runPyr
  have b25 : sub 33554432 m0 = true := sub_trans rfl hw
  try dsimp only
  repeat' first
    | with_reducible assumption
    | exact sub_trans rfl hw
    | intro _
    | with_reducible apply State.fetchRuns_same
    | with_reducible apply State.storeRuns_same
    | with_reducible apply State.addKilo_same
    | with_reducible apply State.addCnt_same
    | with_reducible apply State.setFlag_same
    | with_reducible apply State.stepDone_same
    | with_reducible apply Same.ite
    | with_reducible apply Same.foldl
    | with_reducible apply Same.foldlFst
    | fail_if_no_progress with_reducible refine Same.upd_25 ?_ b25
    | split
    | dsimp only
    | (with_reducible apply Same.of_fst; rotate_left; with_reducible assumption)

theorem execPyramid_same {m0 : Nat} {r0 : State} {inst : Fin 4} {err : StepErr} {s : State} (hk : Same m0 r0 s)
    (hw : sub 335543309 m0 = true) : SameRes m0 r0 (execPyramid inst err s) := by
  unfold execPyramid
  try dsimp only
  repeat' first
    | with_reducible assumption
    | exact sub_trans rfl hw
    | intro _
    | with_reducible apply State.engineStep_same
    | with_reducible apply runPyr_same
    | with_reducible apply Same.ite
    | with_reducible apply Same.foldl
    | with_reducible apply Same.foldlFst
    | with_reducible apply SameRes.next

theorem execRectPair_same {m0 : Nat} {r0 : State} {inst : Fin 4} {err : StepErr} {s : State} (hk : Same m0 r0 s)
    (hw : sub 335543309 m0 = true) : SameRes m0 r0 (execRectPair inst err s) := by
  unfold execRectPair
  try dsimp only
  repeat' first
    | with_reducible assumption
    | exact sub_trans rfl hw
    | intro _
    | with_reducible apply State.warpStep_same
    | with_reducible apply Same.ite
    | with_reducible apply Same.foldl
    | with_reducible apply Same.foldlFst
    | with_reducible apply SameRes.next

/-! ### Machine/Stereo.lean -/

theorem State.countCodes_same {m0 : Nat} {r0 : State} {s : State} {reg : Nat → Nat} {codes : List Nat} (hk : Same m0 r0 s)
    (hw : sub 1 m0 = true) : Same m0 r0 (State.countCodes s reg codes) := by
  unfold State.countCodes
  try dsimp only
  repeat' first
    | with_reducible assumption
    | exact sub_trans rfl hw
    | intro _
    | with_reducible apply State.addCnt_same
    | with_reducible apply Same.ite
    | with_reducible apply Same.foldl

theorem State.motionMiss_same {m0 : Nat} {r0 : State} {s : State} {c : StepCtx} {bit : Nat} {cnt : Nat} (hk : Same m0 r0 s)
    (hw : sub 65537 m0 = true) : Same m0 r0 (State.motionMiss s c bit cnt) := by
  unfold State.motionMiss
  try dsimp only
  repeat' first
    | with_reducible assumption
    | exact sub_trans rfl hw
    | intro _
    | with_reducible apply State.log_same
    | with_reducible apply State.event_same
    | with_reducible apply State.addCnt_same

theorem State.strFinish_same {m0 : Nat} {r0 : State} {s : State} {c : StepCtx} {j : StrJob} {miss : Bool} (hk : Same m0 r0 s)
    (hw : sub 335543309 m0 = true) : Same m0 r0 (State.strFinish s c j miss) := by
  unfold State.strFinish
  try dsimp only
  repeat' first
    | with_reducible assumption
    | exact sub_trans rfl hw
    | intro _
    | with_reducible apply State.storeRuns_same
    | with_reducible apply State.motionMiss_same
    | with_reducible apply State.event_same
    | with_reducible apply State.addKilo_same
    | with_reducible apply State.addCnt_same
    | with_reducible apply State.setFlag_same
    | with_reducible apply State.countCodes_same
    | with_reducible apply State.stepDone_same
    | with_reducible apply Same.ite
    | with_reducible apply Same.foldl
    | with_reducible apply Same.foldlFst
    | split
    | dsimp only
    | (with_reducible apply Same.of_fst; rotate_left; with_reducible assumption)

theorem runStr_same {m0 : Nat} {r0 : State} {s : State} {c : StepCtx} {d : List Byte} (hk : Same m0 r0 s)
    (hw : sub 335543309 m0 = true) : Same m0 r0 (runStr s c d) := by
  unfold runStr
  try dsimp only
  repeat' first
    | with_reducible assumption
    | exact sub_trans rfl hw
    | intro _
    | with_reducible apply State.fetchRuns_same
    | with_reducible apply State.strFinish_same
    | with_reducible apply Same.ite
    | with_reducible apply Same.foldl
    | with_reducible apply Same.foldlFst
    | split
    | dsimp only
    | (with_reducible apply Same.of_fst; rotate_left; with_reducible assumption)

theorem execStereo_same {m0 : Nat} {r0 : State} {inst : Fin 4} {err : StepErr} {s : State} (hk : Same m0 r0 s)
    (hw : sub 335543309 m0 = true) : SameRes m0 r0 (execStereo inst err s) := by
  unfold execStereo
  try dsimp only
  repeat' first
    | with_reducible assumption
    | exact sub_trans rfl hw
    | intro _
    | with_reducible apply State.engineStep_same
    | with_reducible apply runStr_same
    | with_reducible apply Same.ite
    | with_reducible apply Same.foldl
    | with_reducible apply Same.foldlFst
    | with_reducible apply SameRes.next

/-! ### Machine/Flow.lean -/

theorem State.flwStore_same {m0 : Nat} {r0 : State} {s : State} {c : StepCtx} {j : FlwJob} {rows : List (List FlwPix)}
    {refined : Nat} {extra : State → State} (hk : Same m0 r0 s) (hextra : ∀ y0, Same m0 r0 y0 → Same m0 r0 (extra y0))
    (hw : sub 335543309 m0 = true) : Same m0 r0 (State.flwStore s c j rows refined extra) := by
  unfold State.flwStore
  try dsimp only
  repeat' first
    | with_reducible assumption
    | exact sub_trans rfl hw
    | intro _
    | with_reducible apply hextra
    | with_reducible apply State.storeRuns_same
    | with_reducible apply State.addKilo_same
    | with_reducible apply State.setFlag_same
    | with_reducible apply State.addCnt_same
    | with_reducible apply State.stepDone_same
    | with_reducible apply State.countCodes_same
    | with_reducible apply Same.ite
    | with_reducible apply Same.foldl
    | with_reducible apply Same.foldlFst
    | split
    | dsimp only
    | (with_reducible apply Same.of_fst; rotate_left; with_reducible assumption)

theorem runFlw_same {m0 : Nat} {r0 : State} {s : State} {c : StepCtx} {d : List Byte} (hk : Same m0 r0 s)
    (hw : sub 335543309 m0 = true) : Same m0 r0 (runFlw s c d) := by
  unfold runFlw
  try dsimp only
  repeat' first
    | with_reducible assumption
    | exact sub_trans rfl hw
    | intro _
    | with_reducible apply State.flwStore_same
    | with_reducible apply State.log_same
    | with_reducible apply State.event_same
    | with_reducible apply State.addCnt_same
    | with_reducible apply State.fetchRuns_same
    | with_reducible apply State.addKilo_same
    | with_reducible apply Same.ite
    | with_reducible apply Same.foldl
    | with_reducible apply Same.foldlFst
    | split
    | dsimp only
    | (with_reducible apply Same.of_fst; rotate_left; with_reducible assumption)

theorem execFlow_same {m0 : Nat} {r0 : State} {inst : Fin 4} {err : StepErr} {s : State} (hk : Same m0 r0 s)
    (hw : sub 335543309 m0 = true) : SameRes m0 r0 (execFlow inst err s) := by
  unfold execFlow
  try dsimp only
  repeat' first
    | with_reducible assumption
    | exact sub_trans rfl hw
    | intro _
    | with_reducible apply State.engineStep_same
    | with_reducible apply runFlw_same
    | with_reducible apply Same.ite
    | with_reducible apply Same.foldl
    | with_reducible apply Same.foldlFst
    | with_reducible apply SameRes.next

/-! ### Machine/Feature.lean -/

theorem State.matchStore_same {m0 : Nat} {r0 : State} {s : State} {c : StepCtx} {recs : List MatchRec} {extra : State → State}
    (hk : Same m0 r0 s) (hextra : ∀ y0, Same m0 r0 y0 → Same m0 r0 (extra y0)) (hw : sub 335543309 m0 = true) : Same m0 r0
    (State.matchStore s c recs extra) := by
  unfold State.matchStore
  try dsimp only
  repeat' first
    | with_reducible assumption
    | exact sub_trans rfl hw
    | intro _
    | with_reducible apply hextra
    | with_reducible apply State.storeRuns_same
    | with_reducible apply State.stepDone_same
    | with_reducible apply State.addCnt_same
    | with_reducible apply Same.ite
    | with_reducible apply Same.foldl
    | with_reducible apply Same.foldlFst
    | split
    | dsimp only
    | (with_reducible apply Same.of_fst; rotate_left; with_reducible assumption)

theorem runFeature_same {m0 : Nat} {r0 : State} {s : State} {c : StepCtx} {d : List Byte} (hk : Same m0 r0 s)
    (hw : sub 335543309 m0 = true) : Same m0 r0 (runFeature s c d) := by
  unfold runFeature
  try dsimp only
  repeat' first
    | with_reducible assumption
    | exact sub_trans rfl hw
    | intro _
    | with_reducible apply State.fetchRuns_same
    | with_reducible apply State.storeRuns_same
    | with_reducible apply State.addKilo_same
    | with_reducible apply State.addCnt_same
    | with_reducible apply State.event_same
    | with_reducible apply State.stepDone_same
    | with_reducible apply Same.ite
    | with_reducible apply Same.foldl
    | with_reducible apply Same.foldlFst
    | split
    | dsimp only
    | (with_reducible apply Same.of_fst; rotate_left; with_reducible assumption)

theorem execFeature_same {m0 : Nat} {r0 : State} {inst : Fin 4} {err : StepErr} {s : State} (hk : Same m0 r0 s)
    (hw : sub 335543309 m0 = true) : SameRes m0 r0 (execFeature inst err s) := by
  unfold execFeature
  try dsimp only
  repeat' first
    | with_reducible assumption
    | exact sub_trans rfl hw
    | intro _
    | with_reducible apply State.engineStep_same
    | with_reducible apply runFeature_same
    | with_reducible apply State.setFlag_same
    | with_reducible apply Same.ite
    | with_reducible apply Same.foldl
    | with_reducible apply Same.foldlFst
    | with_reducible apply SameRes.next

theorem runMatch_same {m0 : Nat} {r0 : State} {s : State} {c : StepCtx} {d : List Byte} (hk : Same m0 r0 s)
    (hw : sub 335543309 m0 = true) : Same m0 r0 (runMatch s c d) := by
  unfold runMatch
  try dsimp only
  repeat' first
    | with_reducible assumption
    | exact sub_trans rfl hw
    | intro _
    | with_reducible apply State.fetchRuns_same
    | with_reducible apply State.matchStore_same
    | with_reducible apply State.event_same
    | with_reducible apply State.log_same
    | with_reducible apply Same.ite
    | with_reducible apply Same.foldl
    | with_reducible apply Same.foldlFst
    | split
    | dsimp only
    | (with_reducible apply Same.of_fst; rotate_left; with_reducible assumption)

theorem execMatchRecords_same {m0 : Nat} {r0 : State} {inst : Fin 4} {err : StepErr} {s : State} (hk : Same m0 r0 s)
    (hw : sub 335543309 m0 = true) : SameRes m0 r0 (execMatchRecords inst err s) := by
  unfold execMatchRecords
  try dsimp only
  repeat' first
    | with_reducible assumption
    | exact sub_trans rfl hw
    | intro _
    | with_reducible apply State.engineStep_same
    | with_reducible apply runMatch_same
    | with_reducible apply State.setFlag_same
    | with_reducible apply Same.ite
    | with_reducible apply Same.foldl
    | with_reducible apply Same.foldlFst
    | with_reducible apply SameRes.next

/-! ### Machine/Tensor.lean -/

theorem State.winFault_same {m0 : Nat} {r0 : State} {s : State} {n : Nat} {a : Nat} {cause : Nat} {window : Nat}
    {operand : Nat} {write : Bool} (hk : Same m0 r0 s) (hw : sub 1 m0 = true) : Same m0 r0
    (State.winFault s n a cause window operand write) := by
  unfold State.winFault
  extract_lets a0 a1
  try clear_value a0
  have k1 : Same m0 r0 a1
  on_goal 1 => unfold a1
  rotate_left
  clear_value a1
  all_goals repeat' first
    | with_reducible assumption
    | exact sub_trans rfl hw
    | intro _
    | with_reducible apply State.setFld_same
    | with_reducible apply State.setReg_same
    | with_reducible apply State.setFlag_same
    | with_reducible apply Same.ite

/-! ### Machine/NtOps.lean -/

theorem State.modNt_same {m0 : Nat} {r0 : State} {s : State} {n : Nat} {f : TileSt → TileSt} (hk : Same m0 r0 s)
    (hw : sub 67108864 m0 = true) : Same m0 r0 (State.modNt s n f) := by
  unfold State.modNt
  have b26 : sub 67108864 m0 = true := sub_trans rfl hw
  try dsimp only
  repeat' first
    | with_reducible assumption
    | exact sub_trans rfl hw
    | intro _
    | with_reducible apply Same.ite
    | with_reducible apply Same.foldl
    | with_reducible apply Same.foldlFst
    | fail_if_no_progress with_reducible refine Same.upd_26 ?_ b26

theorem State.enterRerun_same {m0 : Nat} {r0 : State} {s : State} {c : StepCtx} {offset : Nat} (hk : Same m0 r0 s)
    (hw : sub 369097737 m0 = true) : Same m0 r0 (State.enterRerun s c offset) := by
  unfold State.enterRerun
  extract_lets a0 a1 a2 a3 a4 a5 a6 a7 a8
  try clear_value a0
  have k1 : Same m0 r0 a1.1
  on_goal 1 => unfold a1
  rotate_left
  clear_value a1
  have k2 : Same m0 r0 a2
  on_goal 1 => unfold a2
  rotate_left
  clear_value a2
  try clear_value a3
  have k4 : Same m0 r0 a4
  on_goal 1 => unfold a4
  rotate_left
  clear_value a4
  have k5 : Same m0 r0 a5
  on_goal 1 => unfold a5
  rotate_left
  clear_value a5
  try clear_value a6
  have k7 : Same m0 r0 a7
  on_goal 1 => unfold a7
  rotate_left
  clear_value a7
  have k8 : Same m0 r0 a8
  on_goal 1 => unfold a8
  rotate_left
  clear_value a8
  all_goals repeat' first
    | with_reducible assumption
    | exact sub_trans rfl hw
    | intro _
    | with_reducible apply State.noteSpm_same
    | with_reducible apply State.addCnt_same
    | with_reducible apply State.setReg_same
    | with_reducible apply State.event_same
    | with_reducible apply State.setFld_same
    | with_reducible apply State.endRemote_same
    | with_reducible apply State.modNt_same
    | with_reducible apply State.modCover_same
    | with_reducible apply State.cancelNow_same
    | with_reducible apply State.modInst_same
    | with_reducible apply State.logInst_same
    | with_reducible apply State.setFlag_same
    | with_reducible apply State.leaveUnit_same
    | with_reducible apply State.fence_same
    | with_reducible apply Same.ite
    | with_reducible apply Same.foldl
    | with_reducible apply Same.foldlFst
    | split

theorem State.ntAbsent_same {m0 : Nat} {r0 : State} {s : State} {c : StepCtx} (hk : Same m0 r0 s) (hw : sub 69633 m0 = true)
    : Same m0 r0 (State.ntAbsent s c) := by
  unfold State.ntAbsent
  try dsimp only
  repeat' first
    | with_reducible assumption
    | exact sub_trans rfl hw
    | intro _
    | with_reducible apply State.flagStep_same
    | with_reducible apply State.log_same
    | with_reducible apply State.event_same
    | with_reducible apply Same.ite
    | with_reducible apply Same.foldl
    | with_reducible apply Same.foldlFst
    | split

theorem State.ntFetch_same {m0 : Nat} {r0 : State} {s : State} {c : StepCtx} {rs : List (Nat × Nat)} (hk : Same m0 r0 s)
    (hw : sub 335543305 m0 = true) : Same m0 r0 (State.ntFetch s c rs).1 := by
  unfold State.ntFetch
  try dsimp only
  repeat' first
    | with_reducible assumption
    | exact sub_trans rfl hw
    | intro _
    | with_reducible apply State.judgeReads_same
    | with_reducible apply State.stepRefused_same
    | with_reducible apply Same.ite
    | with_reducible apply Same.foldl
    | with_reducible apply Same.foldlFst
    | split
    | dsimp only
    | (with_reducible apply Same.of_fst; rotate_left; with_reducible assumption)

theorem State.ntWindow_same {m0 : Nat} {r0 : State} {s : State} {c : StepCtx} {operand : Nat} {a : Nat} {len : Nat}
    {write : Bool} (hk : Same m0 r0 s) (hw : sub 335543305 m0 = true) : Same m0 r0
    (State.ntWindow s c operand a len write).1 := by
  unfold State.ntWindow
  try dsimp only
  repeat' first
    | with_reducible assumption
    | exact sub_trans rfl hw
    | intro _
    | with_reducible apply State.stepFault_same
    | with_reducible apply State.winFault_same
    | with_reducible apply Same.ite
    | with_reducible apply Same.foldl
    | with_reducible apply Same.foldlFst
    | split

theorem State.ntWindows_same {m0 : Nat} {r0 : State} {s : State} {c : StepCtx} {l : List (Nat × Nat × Nat × Bool)} (hk
    : Same m0 r0 s) (hw : sub 335543305 m0 = true) : Same m0 r0 (State.ntWindows s c l).1 := by
  unfold State.ntWindows
  try dsimp only
  repeat' first
    | with_reducible assumption
    | exact sub_trans rfl hw
    | intro _
    | with_reducible apply State.ntWindow_same
    | with_reducible apply Same.ite
    | with_reducible apply Same.foldl
    | with_reducible apply Same.foldlFst
    | split

theorem State.ownStore_same {m0 : Nat} {r0 : State} {s : State} {n : Nat} {step : Nat} {off : Nat} {bs : List Byte} (hk
    : Same m0 r0 s) (hw : sub 67108868 m0 = true) : Same m0 r0 (State.ownStore s n step off bs) := by
  unfold State.ownStore
  try dsimp only
  repeat' first
    | with_reducible assumption
    | exact sub_trans rfl hw
    | intro _
    | with_reducible apply State.modNt_same
    | with_reducible apply State.store_same
    | with_reducible apply Same.ite

theorem State.stageInput_same {m0 : Nat} {r0 : State} {s : State} {c : StepCtx} {k : Nat} (hk : Same m0 r0 s)
    (hw : sub 67108868 m0 = true) : Same m0 r0 (State.stageInput s c k) := by
  unfold State.stageInput
  try dsimp only
  repeat' first
    | with_reducible assumption
    | exact sub_trans rfl hw
    | intro _
    | with_reducible apply State.ownStore_same
    | with_reducible apply Same.ite

theorem State.ntFetchPhase_same {m0 : Nat} {r0 : State} {s : State} {c : StepCtx} (hk : Same m0 r0 s)
    (hw : sub 402652173 m0 = true) : Same m0 r0 (State.ntFetchPhase s c) := by
  unfold State.ntFetchPhase
  try dsimp only
  repeat' first
    | with_reducible assumption
    | exact sub_trans rfl hw
    | intro _
    | with_reducible apply State.ntWindow_same
    | with_reducible apply State.ntFetch_same
    | with_reducible apply State.stepFault_same
    | with_reducible apply State.ntWindows_same
    | with_reducible apply State.modNt_same
    | with_reducible apply State.ntAbsent_same
    | with_reducible apply State.stageInput_same
    | with_reducible apply State.addKilo_same
    | with_reducible apply State.modUnit_same
    | with_reducible apply Same.ite
    | with_reducible apply Same.foldl
    | with_reducible apply Same.foldlFst
    | split
    | dsimp only
    | (with_reducible apply Same.of_fst; rotate_left; with_reducible assumption)

theorem State.ntIn_same {m0 : Nat} {r0 : State} {s : State} {n : Nat} {phase : Nat} {err : StepErr}
    {run : State → StepCtx → State} (hk : Same m0 r0 s) (hrun : ∀ y0 y1, Same m0 r0 y0 → Same m0 r0 (run y0 y1))
    (hw : sub 402652169 m0 = true) : Same m0 r0 (State.ntIn s n phase err run) := by
  unfold State.ntIn
  try dsimp only
  repeat' first
    | with_reducible assumption
    | exact sub_trans rfl hw
    | intro _
    | with_reducible apply hrun
    | with_reducible apply State.enterRerun_same
    | with_reducible apply State.stepFault_same
    | with_reducible apply State.meetErr_same
    | with_reducible apply Same.ite
    | with_reducible apply Same.foldl
    | with_reducible apply Same.foldlFst
    | split
    | dsimp only
    | (with_reducible apply Same.of_fst; rotate_left; with_reducible assumption)

theorem State.ntLand_same {m0 : Nat} {r0 : State} {s : State} {c : StepCtx} {ws : List (Nat × List Byte)} (hk : Same m0 r0 s)
    (hw : sub 67133445 m0 = true) : Same m0 r0 (State.ntLand s c ws) := by
  unfold State.ntLand
  try dsimp only
  repeat' first
    | with_reducible assumption
    | exact sub_trans rfl hw
    | intro _
    | with_reducible apply State.ownStore_same
    | with_reducible apply State.write_same
    | with_reducible apply Same.ite
    | with_reducible apply Same.foldl

theorem execNtComputeDone_same {m0 : Nat} {r0 : State} {tile : Fin 16} {err : StepErr} {s : State} (hk : Same m0 r0 s)
    (hw : sub 402652169 m0 = true) : SameRes m0 r0 (execNtComputeDone tile err s) := by
  unfold execNtComputeDone
  try dsimp only
  repeat' first
    | with_reducible assumption
    | exact sub_trans rfl hw
    | intro _
    | with_reducible apply State.ntIn_same
    | with_reducible apply State.addKilo_same
    | with_reducible apply State.addCnt_same
    | with_reducible apply State.event_same
    | with_reducible apply State.modNt_same
    | with_reducible apply Same.ite
    | with_reducible apply Same.foldl
    | with_reducible apply Same.foldlFst
    | with_reducible apply SameRes.next

theorem execNtFetchDone_same {m0 : Nat} {r0 : State} {tile : Fin 16} {err : StepErr} {s : State} (hk : Same m0 r0 s)
    (hw : sub 402652173 m0 = true) : SameRes m0 r0 (execNtFetchDone tile err s) := by
  unfold execNtFetchDone
  try dsimp only
  repeat' first
    | with_reducible assumption
    | exact sub_trans rfl hw
    | intro _
    | with_reducible apply State.ntIn_same
    | with_reducible apply State.ntFetchPhase_same
    | with_reducible apply Same.ite
    | with_reducible apply Same.foldl
    | with_reducible apply Same.foldlFst
    | with_reducible apply SameRes.next

theorem execNtPhaseGrant_same {m0 : Nat} {r0 : State} {tile : Fin 16} {s : State} (hk : Same m0 r0 s)
    (hw : sub 67145729 m0 = true) : SameRes m0 r0 (execNtPhaseGrant tile s) := by
  unfold execNtPhaseGrant
  extract_lets a0 a1 a2 a3 a4
  try clear_value a0
  try clear_value a1
  try clear_value a2
  have k3 : Same m0 r0 a3
  on_goal 1 => unfold a3
  rotate_left
  clear_value a3
  try clear_value a4
  all_goals repeat' first
    | with_reducible assumption
    | exact sub_trans rfl hw
    | intro _
    | with_reducible apply State.addKilo_same
    | with_reducible apply State.modNt_same
    | with_reducible apply State.beginStep_same
    | with_reducible apply State.setFld_same
    | with_reducible apply State.setFlag_same
    | with_reducible apply Same.ite
    | with_reducible apply Same.foldl
    | with_reducible apply Same.foldlFst
    | with_reducible apply SameRes.next
    | with_reducible apply SameRes.ite
    | split

theorem execNtStepComplete_same {m0 : Nat} {r0 : State} {tile : Fin 16} {err : StepErr} {s : State} (hk : Same m0 r0 s)
    (hw : sub 402652173 m0 = true) : SameRes m0 r0 (execNtStepComplete tile err s) := by
  unfold execNtStepComplete
  try dsimp only
  repeat' first
    | with_reducible assumption
    | exact sub_trans rfl hw
    | intro _
    | with_reducible apply State.ntIn_same
    | with_reducible apply State.judgeWrites_same
    | with_reducible apply State.stepRefused_same
    | with_reducible apply State.dropStores_same
    | with_reducible apply State.ntLand_same
    | with_reducible apply State.addKilo_same
    | with_reducible apply State.addCnt_same
    | with_reducible apply State.event_same
    | with_reducible apply State.stepDone_same
    | with_reducible apply State.modNt_same
    | with_reducible apply Same.ite
    | with_reducible apply Same.foldl
    | with_reducible apply Same.foldlFst
    | with_reducible apply SameRes.next
    | with_reducible apply SameRes.ite
    | split
    | dsimp only
    | (with_reducible apply Same.of_fst; rotate_left; with_reducible assumption)

/-! ### Machine/Mover.lean -/

theorem execBmResume_same {m0 : Nat} {r0 : State} {mover : Fin 8} {value : Word} {s : State} (hk : Same m0 r0 s)
    (hw : sub 65537 m0 = true) : SameRes m0 r0 (execBmResume mover value s) := by
  unfold execBmResume
  extract_lets a0 a1
  try clear_value a0
  have k1 : Same m0 r0 a1
  on_goal 1 => unfold a1
  rotate_left
  clear_value a1
  all_goals repeat' first
    | with_reducible assumption
    | exact sub_trans rfl hw
    | intro _
    | with_reducible apply State.log_same
    | with_reducible apply State.setFlag_same
    | with_reducible apply Same.ite
    | with_reducible apply Same.foldl
    | with_reducible apply Same.foldlFst
    | with_reducible apply SameRes.next
    | with_reducible apply SameRes.ite

theorem runBm_same {m0 : Nat} {r0 : State} {s : State} {c : StepCtx} {d : List Byte} (hk : Same m0 r0 s)
    (hw : sub 335543309 m0 = true) : Same m0 r0 (runBm s c d) := by
  unfold runBm
  try dsimp only
  repeat' first
    | with_reducible assumption
    | exact sub_trans rfl hw
    | intro _
    | with_reducible apply State.stepFault_same
    | with_reducible apply State.fetchRuns_same
    | with_reducible apply State.storeRuns_same
    | with_reducible apply State.addKilo_same
    | with_reducible apply State.dropStores_same
    | with_reducible apply State.stepDone_same
    | with_reducible apply Same.ite
    | with_reducible apply Same.foldl
    | with_reducible apply Same.foldlFst
    | split
    | dsimp only
    | (with_reducible apply Same.of_fst; rotate_left; with_reducible assumption)

theorem State.moverStep_same {m0 : Nat} {r0 : State} {s : State} {mover : Nat} {op : Nat} {err : StepErr} (hk : Same m0 r0 s)
    (hw : sub 335543309 m0 = true) : Same m0 r0 (State.moverStep s mover op err) := by
  unfold State.moverStep
  try dsimp only
  repeat' first
    | with_reducible assumption
    | exact sub_trans rfl hw
    | intro _
    | with_reducible apply State.engineStep_same
    | with_reducible apply runBm_same

theorem execCopy2d_same {m0 : Nat} {r0 : State} {mover : Fin 8} {err : StepErr} {s : State} (hk : Same m0 r0 s)
    (hw : sub 335543309 m0 = true) : SameRes m0 r0 (execCopy2d mover err s) := by
  unfold execCopy2d
  try dsimp only
  repeat' first
    | with_reducible assumption
    | exact sub_trans rfl hw
    | intro _
    | with_reducible apply State.moverStep_same
    | with_reducible apply Same.ite
    | with_reducible apply Same.foldl
    | with_reducible apply Same.foldlFst
    | with_reducible apply SameRes.next

theorem execFill_same {m0 : Nat} {r0 : State} {mover : Fin 8} {err : StepErr} {s : State} (hk : Same m0 r0 s)
    (hw : sub 335543309 m0 = true) : SameRes m0 r0 (execFill mover err s) := by
  unfold execFill
  try dsimp only
  repeat' first
    | with_reducible assumption
    | exact sub_trans rfl hw
    | intro _
    | with_reducible apply State.moverStep_same
    | with_reducible apply Same.ite
    | with_reducible apply Same.foldl
    | with_reducible apply Same.foldlFst
    | with_reducible apply SameRes.next

theorem execReshuffle_same {m0 : Nat} {r0 : State} {mover : Fin 8} {err : StepErr} {s : State} (hk : Same m0 r0 s)
    (hw : sub 335543309 m0 = true) : SameRes m0 r0 (execReshuffle mover err s) := by
  unfold execReshuffle
  try dsimp only
  repeat' first
    | with_reducible assumption
    | exact sub_trans rfl hw
    | intro _
    | with_reducible apply State.moverStep_same
    | with_reducible apply Same.ite
    | with_reducible apply Same.foldl
    | with_reducible apply Same.foldlFst
    | with_reducible apply SameRes.next

theorem execSpmCopy_same {m0 : Nat} {r0 : State} {mover : Fin 8} {err : StepErr} {s : State} (hk : Same m0 r0 s)
    (hw : sub 335543309 m0 = true) : SameRes m0 r0 (execSpmCopy mover err s) := by
  unfold execSpmCopy
  try dsimp only
  repeat' first
    | with_reducible assumption
    | exact sub_trans rfl hw
    | intro _
    | with_reducible apply State.moverStep_same
    | with_reducible apply Same.ite
    | with_reducible apply Same.foldl
    | with_reducible apply Same.foldlFst
    | with_reducible apply SameRes.next

theorem execSpmFill_same {m0 : Nat} {r0 : State} {mover : Fin 8} {err : StepErr} {s : State} (hk : Same m0 r0 s)
    (hw : sub 335543309 m0 = true) : SameRes m0 r0 (execSpmFill mover err s) := by
  unfold execSpmFill
  try dsimp only
  repeat' first
    | with_reducible assumption
    | exact sub_trans rfl hw
    | intro _
    | with_reducible apply State.moverStep_same
    | with_reducible apply Same.ite
    | with_reducible apply Same.foldl
    | with_reducible apply Same.foldlFst
    | with_reducible apply SameRes.next

/-! ### Machine/Cores.lean -/

theorem State.showTarget_same {m0 : Nat} {r0 : State} {s : State} {t : Nat} (hk : Same m0 r0 s) (hw : sub 1 m0 = true)
    : Same m0 r0 (State.showTarget s t) := by
  unfold State.showTarget
  extract_lets a0 a1 a2
  try clear_value a0
  try clear_value a1
  have k2 : Same m0 r0 a2
  on_goal 1 => unfold a2
  rotate_left
  clear_value a2
  all_goals repeat' first
    | with_reducible assumption
    | exact sub_trans rfl hw
    | intro _
    | with_reducible apply State.setFld_same
    | with_reducible apply Same.ite
    | with_reducible apply Same.foldl
    | with_reducible apply Same.foldlFst
    | split

theorem State.claim_same {m0 : Nat} {r0 : State} {s : State} {t : Nat} {m : Nat} (hk : Same m0 r0 s)
    (hw : sub 268451841 m0 = true) : Same m0 r0 (State.claim s t m) := by
  unfold State.claim
  have b28 : sub 268435456 m0 = true := sub_trans rfl hw
  extract_lets a0 a1 a2 a3 a4
  have k0 : Same m0 r0 a0
  on_goal 1 => unfold a0
  rotate_left
  clear_value a0
  try clear_value a1
  have k2 : Same m0 r0 a2
  on_goal 1 => unfold a2
  rotate_left
  clear_value a2
  try clear_value a3
  try clear_value a4
  all_goals repeat' first
    | with_reducible assumption
    | exact sub_trans rfl hw
    | intro _
    | with_reducible apply State.dropOffer_same
    | with_reducible apply State.setActive_same
    | with_reducible apply State.setPending_same
    | with_reducible apply State.showTarget_same
    | with_reducible apply State.modCore_same
    | with_reducible apply Same.ite
    | with_reducible apply Same.foldl
    | with_reducible apply Same.foldlFst
    | fail_if_no_progress with_reducible refine Same.upd_28 ?_ b28

theorem State.abandonExit_same {m0 : Nat} {r0 : State} {s : State} {t : Nat} {m : Nat} (hk : Same m0 r0 s)
    (hw : sub 268451841 m0 = true) : Same m0 r0 (State.abandonExit s t m) := by
  unfold State.abandonExit
  try dsimp only
  repeat' first
    | with_reducible assumption
    | exact sub_trans rfl hw
    | intro _
    | with_reducible apply State.claim_same

theorem State.pushFrame_same {m0 : Nat} {r0 : State} {s : State} {n : Nat} {pc : Word} (hk : Same m0 r0 s)
    (hw : sub 16388 m0 = true) : Same m0 r0 (State.pushFrame s n pc) := by
  unfold State.pushFrame
  extract_lets a0 a1 a2 a3
  try clear_value a0
  try clear_value a1
  try clear_value a2
  have k3 : Same m0 r0 a3
  on_goal 1 => unfold a3
  rotate_left
  clear_value a3
  all_goals repeat' first
    | with_reducible assumption
    | exact sub_trans rfl hw
    | intro _
    | with_reducible apply State.store_same
    | with_reducible apply State.modCore_same
    | with_reducible apply Same.ite
    | with_reducible apply Same.foldl
    | with_reducible apply Same.foldlFst
    | split

theorem State.showPair_same {m0 : Nat} {r0 : State} {s : State} {n : Nat} (hk : Same m0 r0 s) (hw : sub 1 m0 = true)
    : Same m0 r0 (State.showPair s n) := by
  unfold State.showPair
  try dsimp only
  repeat' first
    | with_reducible assumption
    | exact sub_trans rfl hw
    | intro _
    | with_reducible apply State.setFld_same

theorem State.enterBank0_same {m0 : Nat} {r0 : State} {s : State} {n : Nat} {pc : Word} (hk : Same m0 r0 s)
    (hw : sub 16389 m0 = true) : Same m0 r0 (State.enterBank0 s n pc) := by
  unfold State.enterBank0
  extract_lets a0 a1 a2 a3 a4
  try clear_value a0
  try clear_value a1
  have k2 : Same m0 r0 a2
  on_goal 1 => unfold a2
  rotate_left
  clear_value a2
  have k3 : Same m0 r0 a3
  on_goal 1 => unfold a3
  rotate_left
  clear_value a3
  have k4 : Same m0 r0 a4
  on_goal 1 => unfold a4
  rotate_left
  clear_value a4
  all_goals repeat' first
    | with_reducible assumption
    | exact sub_trans rfl hw
    | intro _
    | with_reducible apply State.setFld_same
    | with_reducible apply State.modCore_same
    | with_reducible apply State.pushFrame_same
    | with_reducible apply State.showPair_same
    | with_reducible apply Same.ite

theorem State.haltPair_same {m0 : Nat} {r0 : State} {s : State} {n : Nat} {cause : Nat} (hk : Same m0 r0 s)
    (hw : sub 301988873 m0 = true) : Same m0 r0 (State.haltPair s n cause) := by
  unfold State.haltPair
  try dsimp only
  repeat' first
    | with_reducible assumption
    | exact sub_trans rfl hw
    | intro _
    | with_reducible apply State.fence_same
    | with_reducible apply State.doubt_same

theorem execIcuEoi_same {m0 : Nat} {r0 : State} {pair : Fin 4} {value : Word} {s : State} (hk : Same m0 r0 s)
    (hw : sub 268451841 m0 = true) : SameRes m0 r0 (execIcuEoi pair value s) := by
  unfold execIcuEoi
  try dsimp only
  repeat' first
    | with_reducible assumption
    | exact sub_trans rfl hw
    | intro _
    | with_reducible apply State.showTarget_same
    | with_reducible apply State.completeSource_same
    | with_reducible apply State.modCore_same
    | with_reducible apply State.event_same
    | with_reducible apply Same.ite
    | with_reducible apply Same.foldl
    | with_reducible apply Same.foldlFst
    | with_reducible apply SameRes.next
    | with_reducible apply SameRes.ite

theorem execAbortAck_same {m0 : Nat} {r0 : State} {pair : Fin 4} {value : Word} {s : State} (hk : Same m0 r0 s)
    (hw : sub 8704009 m0 = true) : SameRes m0 r0 (execAbortAck pair value s) := by
  unfold execAbortAck
  extract_lets a0 a1 a2 a3 a4 a5 a6
  try clear_value a0
  try clear_value a1
  try clear_value a2
  try clear_value a3
  have k4 : Same m0 r0 a4
  on_goal 1 => unfold a4
  rotate_left
  clear_value a4
  try clear_value a5
  have k6 : Same m0 r0 a6
  on_goal 1 => unfold a6
  rotate_left
  clear_value a6
  all_goals repeat' first
    | with_reducible assumption
    | exact sub_trans rfl hw
    | intro _
    | with_reducible apply State.setReg_same
    | with_reducible apply State.setFlag_same
    | with_reducible apply State.showAbort_same
    | with_reducible apply State.cancelNow_same
    | with_reducible apply State.event_same
    | with_reducible apply Same.ite
    | with_reducible apply Same.foldl
    | with_reducible apply Same.foldlFst
    | with_reducible apply SameRes.next
    | with_reducible apply SameRes.ite

theorem execSiHbWrite_same {m0 : Nat} {r0 : State} {pair : Fin 4} {_value : Word} {s : State} (hk : Same m0 r0 s)
    (hw : sub 131072 m0 = true) : SameRes m0 r0 (execSiHbWrite pair _value s) := by
  unfold execSiHbWrite
  have b17 : sub 131072 m0 = true := sub_trans rfl hw
  try dsimp only
  repeat' first
    | with_reducible assumption
    | exact sub_trans rfl hw
    | intro _
    | with_reducible apply Same.ite
    | with_reducible apply Same.foldl
    | with_reducible apply Same.foldlFst
    | fail_if_no_progress with_reducible refine Same.upd_17 ?_ b17
    | with_reducible apply SameRes.next

theorem execIcuSwiSet_same {m0 : Nat} {r0 : State} {value : Word} {s : State} (hk : Same m0 r0 s) (hw : sub 1 m0 = true)
    : SameRes m0 r0 (execIcuSwiSet value s) := by
  unfold execIcuSwiSet
  try dsimp only
  repeat' first
    | with_reducible assumption
    | exact sub_trans rfl hw
    | intro _
    | with_reducible apply State.setPending_same
    | with_reducible apply Same.ite
    | with_reducible apply Same.foldl
    | with_reducible apply Same.foldlFst
    | with_reducible apply SameRes.next
    | with_reducible apply SameRes.ite

theorem execIcuSwiClr_same {m0 : Nat} {r0 : State} {value : Word} {s : State} (hk : Same m0 r0 s)
    (hw : sub 268435457 m0 = true) : SameRes m0 r0 (execIcuSwiClr value s) := by
  unfold execIcuSwiClr
  try dsimp only
  repeat' first
    | with_reducible assumption
    | exact sub_trans rfl hw
    | intro _
    | with_reducible apply State.dropOffer_same
    | with_reducible apply State.setPending_same
    | with_reducible apply Same.ite
    | with_reducible apply Same.foldl
    | with_reducible apply Same.foldlFst
    | with_reducible apply SameRes.next
    | with_reducible apply SameRes.ite

theorem State.popFrame_same {m0 : Nat} {r0 : State} {s : State} {n : Nat} (hk : Same m0 r0 s) (hw : sub 16384 m0 = true)
    : Same m0 r0 (State.popFrame s n) := by
  unfold State.popFrame
  try dsimp only
  repeat' first
    | with_reducible assumption
    | exact sub_trans rfl hw
    | intro _
    | with_reducible apply State.modCore_same

theorem State.resumeBank_same {m0 : Nat} {r0 : State} {s : State} {n : Nat} (hk : Same m0 r0 s) (hw : sub 16385 m0 = true)
    : Same m0 r0 (State.resumeBank s n) := by
  unfold State.resumeBank
  try dsimp only
  repeat' first
    | with_reducible assumption
    | exact sub_trans rfl hw
    | intro _
    | with_reducible apply State.showPair_same
    | with_reducible apply State.modCore_same
    | with_reducible apply Same.ite

theorem State.spurious_same {m0 : Nat} {r0 : State} {s : State} {t : Nat} (hk : Same m0 r0 s) (hw : sub 16385 m0 = true)
    : Same m0 r0 (State.spurious s t) := by
  unfold State.spurious
  try dsimp only
  repeat' first
    | with_reducible assumption
    | exact sub_trans rfl hw
    | intro _
    | with_reducible apply State.modCore_same
    | with_reducible apply State.event_same

theorem State.trap_same {m0 : Nat} {r0 : State} {s : State} {n : Nat} {cause : Word} {pc : Word} (hk : Same m0 r0 s)
    (hw : sub 16421 m0 = true) : Same m0 r0 (State.trap s n cause pc) := by
  unfold State.trap
  extract_lets a0 a1
  have k0 : Same m0 r0 a0
  on_goal 1 => unfold a0
  rotate_left
  clear_value a0
  have k1 : Same m0 r0 a1.2
  on_goal 1 => unfold a1
  rotate_left
  clear_value a1
  all_goals repeat' first
    | with_reducible assumption
    | exact sub_trans rfl hw
    | intro _
    | with_reducible apply State.enterBank0_same
    | with_reducible apply State.draw_same
    | with_reducible apply State.modCore_same

theorem execEcall_same {m0 : Nat} {r0 : State} {pair : Fin 4} {cause : Word} {pc : Word} {s : State} (hk : Same m0 r0 s)
    (hw : sub 16421 m0 = true) : SameRes m0 r0 (execEcall pair cause pc s) := by
  unfold execEcall
  try dsimp only
  repeat' first
    | with_reducible assumption
    | exact sub_trans rfl hw
    | intro _
    | with_reducible apply State.trap_same
    | with_reducible apply Same.ite
    | with_reducible apply Same.foldl
    | with_reducible apply Same.foldlFst
    | with_reducible apply SameRes.next
    | with_reducible apply SameRes.ite

theorem execFence_same {m0 : Nat} {r0 : State} {pair : Fin 4} {s : State} (hk : Same m0 r0 s) (hw : sub 16384 m0 = true)
    : SameRes m0 r0 (execFence pair s) := by
  unfold execFence
  try dsimp only
  repeat' first
    | with_reducible assumption
    | exact sub_trans rfl hw
    | intro _
    | with_reducible apply State.modCore_same
    | with_reducible apply Same.ite
    | with_reducible apply Same.foldl
    | with_reducible apply Same.foldlFst
    | with_reducible apply SameRes.next
    | with_reducible apply SameRes.ite

theorem execHeartbeatMissed_same {m0 : Nat} {r0 : State} {pair : Fin 4} {s : State} (hk : Same m0 r0 s)
    (hw : sub 301988889 m0 = true) : SameRes m0 r0 (execHeartbeatMissed pair s) := by
  unfold execHeartbeatMissed
  extract_lets a0 a1 a2
  try clear_value a0
  try clear_value a1
  have k2 : Same m0 r0 a2
  on_goal 1 => unfold a2
  rotate_left
  clear_value a2
  all_goals repeat' first
    | with_reducible assumption
    | exact sub_trans rfl hw
    | intro _
    | with_reducible apply State.reach_same
    | with_reducible apply State.haltPair_same
    | with_reducible apply State.log_same
    | with_reducible apply Same.ite
    | with_reducible apply Same.foldl
    | with_reducible apply Same.foldlFst
    | with_reducible apply SameRes.next
    | with_reducible apply SameRes.ite

theorem execInterruptAccept_same {m0 : Nat} {r0 : State} {pair : Fin 4} {pc : Word} {s : State} (hk : Same m0 r0 s)
    (hw : sub 268451845 m0 = true) : SameRes m0 r0 (execInterruptAccept pair pc s) := by
  unfold execInterruptAccept
  try dsimp only
  repeat' first
    | with_reducible assumption
    | exact sub_trans rfl hw
    | intro _
    | with_reducible apply State.claim_same
    | with_reducible apply State.enterBank0_same
    | with_reducible apply State.spurious_same
    | with_reducible apply Same.ite
    | with_reducible apply Same.foldl
    | with_reducible apply Same.foldlFst
    | with_reducible apply SameRes.next
    | with_reducible apply SameRes.ite
    | split

theorem execInterruptSourceRise_same {m0 : Nat} {r0 : State} {source : Fin 512} {s : State} (hk : Same m0 r0 s)
    (hw : sub 1 m0 = true) : SameRes m0 r0 (execInterruptSourceRise source s) := by
  unfold execInterruptSourceRise
  try dsimp only
  repeat' first
    | with_reducible assumption
    | exact sub_trans rfl hw
    | intro _
    | with_reducible apply State.setPending_same
    | with_reducible apply Same.ite
    | with_reducible apply Same.foldl
    | with_reducible apply Same.foldlFst
    | with_reducible apply SameRes.next
    | with_reducible apply SameRes.ite

theorem execLockstepMismatch_same {m0 : Nat} {r0 : State} {pair : Fin 4} {ue : Bool} {s : State} (hk : Same m0 r0 s)
    (hw : sub 301988873 m0 = true) : SameRes m0 r0 (execLockstepMismatch pair ue s) := by
  unfold execLockstepMismatch
  try dsimp only
  repeat' first
    | with_reducible assumption
    | exact sub_trans rfl hw
    | intro _
    | with_reducible apply State.haltPair_same
    | with_reducible apply State.event_same
    | with_reducible apply Same.ite
    | with_reducible apply Same.foldl
    | with_reducible apply Same.foldlFst
    | with_reducible apply SameRes.next
    | with_reducible apply SameRes.ite

theorem execMret_same {m0 : Nat} {r0 : State} {pair : Fin 4} {s : State} (hk : Same m0 r0 s) (hw : sub 268451877 m0 = true)
    : SameRes m0 r0 (execMret pair s) := by
  unfold execMret
  try dsimp only
  repeat' first
    | with_reducible assumption
    | exact sub_trans rfl hw
    | intro _
    | with_reducible apply State.trap_same
    | with_reducible apply State.abandonExit_same
    | with_reducible apply State.popFrame_same
    | with_reducible apply State.resumeBank_same
    | with_reducible apply Same.ite
    | with_reducible apply Same.foldl
    | with_reducible apply Same.foldlFst
    | with_reducible apply SameRes.next
    | with_reducible apply SameRes.ite
    | split

theorem execOfferTimeout_same {m0 : Nat} {r0 : State} {source : Fin 512} {s : State} (hk : Same m0 r0 s)
    (hw : sub 268435456 m0 = true) : SameRes m0 r0 (execOfferTimeout source s) := by
  unfold execOfferTimeout
  try dsimp only
  repeat' first
    | with_reducible assumption
    | exact sub_trans rfl hw
    | intro _
    | with_reducible apply State.putOffer_same
    | with_reducible apply State.dropOffer_same
    | with_reducible apply Same.ite
    | with_reducible apply Same.foldl
    | with_reducible apply Same.foldlFst
    | with_reducible apply SameRes.next
    | with_reducible apply SameRes.ite
    | split

/-! ### Machine/Kindling.lean -/

theorem State.closeLoad_same {m0 : Nat} {r0 : State} {s : State} {n : Nat} (hk : Same m0 r0 s) (hw : sub 1025 m0 = true)
    : Same m0 r0 (State.closeLoad s n) := by
  unfold State.closeLoad
  try dsimp only
  repeat' first
    | with_reducible assumption
    | exact sub_trans rfl hw
    | intro _
    | with_reducible apply State.setStage_same
    | with_reducible apply State.modKin_same
    | with_reducible apply Same.ite

theorem State.copyFirmware_same {m0 : Nat} {r0 : State} {s : State} {w : FwSec} (hk : Same m0 r0 s) (hw : sub 4 m0 = true)
    : Same m0 r0 (State.copyFirmware s w) := by
  unfold State.copyFirmware
  have b2 : sub 4 m0 = true := sub_trans rfl hw
  try dsimp only
  repeat' first
    | with_reducible assumption
    | exact sub_trans rfl hw
    | intro _
    | with_reducible apply State.store_same
    | with_reducible apply Same.ite
    | with_reducible apply Same.foldl
    | with_reducible apply Same.foldlFst
    | fail_if_no_progress with_reducible refine Same.upd_2 ?_ b2

theorem State.wcFence_same {m0 : Nat} {r0 : State} {s : State} {qs : List Nat} (hk : Same m0 r0 s) (hw : sub 1 m0 = true)
    : Same m0 r0 (State.wcFence s qs) := by
  unfold State.wcFence
  try dsimp only
  repeat' first
    | with_reducible assumption
    | exact sub_trans rfl hw
    | intro _
    | with_reducible apply State.setFld_same

theorem State.loadSection_same {m0 : Nat} {r0 : State} {s : State} {r : Nat} {e : SecEnt} (hk : Same m0 r0 s)
    (hw : sub 131076 m0 = true) : Same m0 r0 (State.loadSection s r e) := by
  unfold State.loadSection
  try dsimp only
  repeat' first
    | with_reducible assumption
    | exact sub_trans rfl hw
    | intro _
    | with_reducible apply State.store_same
    | with_reducible apply State.modSafety_same
    | with_reducible apply Same.ite

theorem State.restartLoad_same {m0 : Nat} {r0 : State} {s : State} (hk : Same m0 r0 s) (hw : sub 536870543 m0 = true)
    : Same m0 r0 (State.restartLoad s) := by
  unfold State.restartLoad
  have b7 : sub 128 m0 = true := sub_trans rfl hw
  extract_lets a0 a1 a2
  try clear_value a0
  have k1 : Same m0 r0 a1
  on_goal 1 => unfold a1
  rotate_left
  clear_value a1
  have k2 : Same m0 r0 a2
  on_goal 1 => unfold a2
  rotate_left
  clear_value a2
  all_goals repeat' first
    | with_reducible assumption
    | exact sub_trans rfl hw
    | intro _
    | with_reducible apply State.kindlingFail_same
    | with_reducible apply State.modKin_same
    | with_reducible apply State.setStage_same
    | with_reducible apply Same.ite
    | with_reducible apply Same.foldl
    | with_reducible apply Same.foldlFst
    | fail_if_no_progress with_reducible refine Same.upd_7 ?_ b7

theorem State.skipSection_same {m0 : Nat} {r0 : State} {s : State} {r : Nat} {e : SecEnt} {cls : Nat} (hk : Same m0 r0 s)
    (hw : sub 65665 m0 = true) : Same m0 r0 (State.skipSection s r e cls) := by
  unfold State.skipSection
  have b7 : sub 128 m0 = true := sub_trans rfl hw
  try dsimp only
  repeat' first
    | with_reducible assumption
    | exact sub_trans rfl hw
    | intro _
    | with_reducible apply State.log_same
    | with_reducible apply Same.ite
    | with_reducible apply Same.foldl
    | with_reducible apply Same.foldlFst
    | fail_if_no_progress with_reducible refine Same.upd_7 ?_ b7

theorem State.startJournal_same {m0 : Nat} {r0 : State} {s : State} (hk : Same m0 r0 s) (hw : sub 8454145 m0 = true)
    : Same m0 r0 (State.startJournal s) := by
  unfold State.startJournal
  extract_lets a0 a1 a2
  try clear_value a0
  try clear_value a1
  have k2 : Same m0 r0 a2
  on_goal 1 => unfold a2
  rotate_left
  clear_value a2
  all_goals repeat' first
    | with_reducible assumption
    | exact sub_trans rfl hw
    | intro _
    | with_reducible apply State.modJournal_same
    | with_reducible apply State.enterRing_same
    | with_reducible apply State.setFlag_same

theorem State.startPair_same {m0 : Nat} {r0 : State} {s : State} {w : FwSec} {n : Nat} (hk : Same m0 r0 s)
    (hw : sub 147457 m0 = true) : Same m0 r0 (State.startPair s w n) := by
  unfold State.startPair
  extract_lets a0 a1
  have k0 : Same m0 r0 a0
  on_goal 1 => unfold a0
  rotate_left
  clear_value a0
  have k1 : Same m0 r0 a1
  on_goal 1 => unfold a1
  rotate_left
  clear_value a1
  all_goals repeat' first
    | with_reducible assumption
    | exact sub_trans rfl hw
    | intro _
    | with_reducible apply State.modCore_same
    | with_reducible apply State.modSafety_same
    | with_reducible apply State.showPair_same
    | with_reducible apply Same.ite

theorem State.takeSection_same {m0 : Nat} {r0 : State} {s : State} {r : Nat} {e : SecEnt} (hk : Same m0 r0 s)
    (hw : sub 536870543 m0 = true) : Same m0 r0 (State.takeSection s r e) := by
  unfold State.takeSection
  extract_lets a0
  have k0 : Same m0 r0 a0
  on_goal 1 => unfold a0
  rotate_left
  clear_value a0
  all_goals repeat' first
    | with_reducible assumption
    | exact sub_trans rfl hw
    | intro _
    | with_reducible apply State.modKin_same
    | with_reducible apply State.skipSection_same
    | with_reducible apply State.loadSection_same
    | with_reducible apply State.failCandidate_same
    | with_reducible apply Same.ite

theorem State.toFirmware_same {m0 : Nat} {r0 : State} {s : State} (hk : Same m0 r0 s) (hw : sub 1 m0 = true) : Same m0 r0
    (State.toFirmware s) := by
  unfold State.toFirmware
  try dsimp only
  repeat' first
    | with_reducible assumption
    | exact sub_trans rfl hw
    | intro _
    | with_reducible apply State.setStage_same
    | with_reducible apply Same.ite

theorem execBindStage_same {m0 : Nat} {r0 : State} {s : State} (hk : Same m0 r0 s) (hw : sub 536870543 m0 = true)
    : SameRes m0 r0 (execBindStage s) := by
  unfold execBindStage
  have b18 : sub 262144 m0 = true := sub_trans rfl hw
  extract_lets a0 a1 a2 a3
  have k0 : Same m0 r0 a0
  on_goal 1 => unfold a0
  rotate_left
  clear_value a0
  try clear_value a1
  try clear_value a2
  have k3 : Same m0 r0 a3
  on_goal 1 => unfold a3
  rotate_left
  clear_value a3
  all_goals repeat' first
    | with_reducible assumption
    | exact sub_trans rfl hw
    | intro _
    | with_reducible apply State.setStage_same
    | with_reducible apply State.modKin_same
    | with_reducible apply State.kindlingFail_same
    | with_reducible apply State.coverAll_same
    | with_reducible apply State.assignGpio_same
    | with_reducible apply State.serviceBank_same
    | with_reducible apply State.bindScene_same
    | with_reducible apply Same.ite
    | with_reducible apply Same.foldl
    | with_reducible apply Same.foldlFst
    | fail_if_no_progress with_reducible refine Same.upd_18 ?_ b18
    | with_reducible apply SameRes.next
    | with_reducible apply SameRes.ite
    | split

theorem execBistDone_same {m0 : Nat} {r0 : State} {units : List Half} {others : List BistOther} {s : State} (hk
    : Same m0 r0 s) (hw : sub 536870543 m0 = true) : SameRes m0 r0 (execBistDone units others s) := by
  unfold execBistDone
  extract_lets a0 a1 a2 a3 a4 a5 a6 a7
  try clear_value a0
  have k1 : Same m0 r0 a1
  on_goal 1 => unfold a1
  rotate_left
  clear_value a1
  try clear_value a2
  have k3 : Same m0 r0 a3
  on_goal 1 => unfold a3
  rotate_left
  clear_value a3
  try clear_value a4
  have k5 : Same m0 r0 a5
  on_goal 1 => unfold a5
  rotate_left
  clear_value a5
  have k6 : Same m0 r0 a6
  on_goal 1 => unfold a6
  rotate_left
  clear_value a6
  have k7 : Same m0 r0 a7
  on_goal 1 => unfold a7
  rotate_left
  clear_value a7
  all_goals repeat' first
    | with_reducible assumption
    | exact sub_trans rfl hw
    | intro _
    | with_reducible apply State.modKin_same
    | with_reducible apply State.modJournal_same
    | with_reducible apply State.startJournal_same
    | with_reducible apply State.kinFence_same
    | with_reducible apply State.wcFence_same
    | with_reducible apply State.kindlingFail_same
    | with_reducible apply State.restartLoad_same
    | with_reducible apply State.startLoad_same
    | with_reducible apply State.toFirmware_same
    | with_reducible apply Same.ite
    | with_reducible apply Same.foldl
    | with_reducible apply Same.foldlFst
    | with_reducible apply SameRes.next
    | with_reducible apply SameRes.ite

theorem execCheckStage_same {m0 : Nat} {r0 : State} {s : State} (hk : Same m0 r0 s) (hw : sub 536870543 m0 = true)
    : SameRes m0 r0 (execCheckStage s) := by
  unfold execCheckStage
  try dsimp only
  repeat' first
    | with_reducible assumption
    | exact sub_trans rfl hw
    | intro _
    | with_reducible apply State.modKin_same
    | with_reducible apply State.setFlag_same
    | with_reducible apply State.setFld_same
    | with_reducible apply State.toFirmware_same
    | with_reducible apply State.setReg_same
    | with_reducible apply State.failCandidate_same
    | with_reducible apply Same.ite
    | with_reducible apply Same.foldl
    | with_reducible apply Same.foldlFst
    | with_reducible apply SameRes.next
    | with_reducible apply SameRes.ite
    | split

theorem execFirmwareStage_same {m0 : Nat} {r0 : State} {s : State} (hk : Same m0 r0 s) (hw : sub 135414789 m0 = true)
    : SameRes m0 r0 (execFirmwareStage s) := by
  unfold execFirmwareStage
  have b27 : sub 134217728 m0 = true := sub_trans rfl hw
  extract_lets a0 a1 a2 a3 a4 a5
  try clear_value a0
  have k1 : Same m0 r0 a1
  on_goal 1 => unfold a1
  rotate_left
  clear_value a1
  try clear_value a2
  have k3 : Same m0 r0 a3
  on_goal 1 => unfold a3
  rotate_left
  clear_value a3
  have k4 : Same m0 r0 a4
  on_goal 1 => unfold a4
  rotate_left
  clear_value a4
  have k5 : Same m0 r0 a5
  on_goal 1 => unfold a5
  rotate_left
  clear_value a5
  all_goals repeat' first
    | with_reducible assumption
    | exact sub_trans rfl hw
    | intro _
    | with_reducible apply State.copyFirmware_same
    | with_reducible apply State.startPair_same
    | with_reducible apply State.modKin_same
    | with_reducible apply State.setStage_same
    | with_reducible apply State.initCams_same
    | with_reducible apply Same.ite
    | with_reducible apply Same.foldl
    | with_reducible apply Same.foldlFst
    | fail_if_no_progress with_reducible refine Same.upd_27 ?_ b27
    | with_reducible apply SameRes.next
    | with_reducible apply SameRes.ite
    | split

theorem execHkcSignatureCheck_same {m0 : Nat} {r0 : State} {pass : Bool} {s : State} (hk : Same m0 r0 s)
    (hw : sub 1025 m0 = true) : SameRes m0 r0 (execHkcSignatureCheck pass s) := by
  unfold execHkcSignatureCheck
  try dsimp only
  repeat' first
    | with_reducible assumption
    | exact sub_trans rfl hw
    | intro _
    | with_reducible apply State.setStage_same
    | with_reducible apply State.modKin_same
    | with_reducible apply State.setFld_same
    | with_reducible apply Same.ite
    | with_reducible apply Same.foldl
    | with_reducible apply Same.foldlFst
    | with_reducible apply SameRes.next
    | with_reducible apply SameRes.ite

theorem execImageSelect_same {m0 : Nat} {r0 : State} {answers : BitVec 2} {size : Nat} {s : State} (hk : Same m0 r0 s)
    (hw : sub 536870543 m0 = true) : SameRes m0 r0 (execImageSelect answers size s) := by
  unfold execImageSelect
  have b7 : sub 128 m0 = true := sub_trans rfl hw
  extract_lets a0 a1 a2 a3 a4 a5 a6
  try clear_value a0
  try clear_value a1
  have k2 : Same m0 r0 a2
  on_goal 1 => unfold a2
  rotate_left
  clear_value a2
  try clear_value a3
  have k4 : Same m0 r0 a4
  on_goal 1 => unfold a4
  rotate_left
  clear_value a4
  try clear_value a5
  try clear_value a6
  all_goals repeat' first
    | with_reducible assumption
    | exact sub_trans rfl hw
    | intro _
    | with_reducible apply State.kindlingFail_same
    | with_reducible apply State.log_same
    | with_reducible apply State.modKin_same
    | with_reducible apply State.setStage_same
    | with_reducible apply State.powerAll_same
    | with_reducible apply Same.ite
    | with_reducible apply Same.foldl
    | with_reducible apply Same.foldlFst
    | fail_if_no_progress with_reducible refine Same.upd_7 ?_ b7
    | with_reducible apply SameRes.next
    | with_reducible apply SameRes.ite
    | split

theorem execKindlingWatchdogExpiry_same {m0 : Nat} {r0 : State} {s : State} (hk : Same m0 r0 s) (hw : sub 536870559 m0 = true)
    : SameRes m0 r0 (execKindlingWatchdogExpiry s) := by
  unfold execKindlingWatchdogExpiry
  extract_lets a0 a1
  have k0 : Same m0 r0 a0
  on_goal 1 => unfold a0
  rotate_left
  clear_value a0
  have k1 : Same m0 r0 a1
  on_goal 1 => unfold a1
  rotate_left
  clear_value a1
  all_goals repeat' first
    | with_reducible assumption
    | exact sub_trans rfl hw
    | intro _
    | with_reducible apply State.reach_same
    | with_reducible apply State.log_same
    | with_reducible apply State.recoveryHold_same
    | with_reducible apply State.warmReset_same
    | with_reducible apply Same.ite
    | with_reducible apply Same.foldl
    | with_reducible apply Same.foldlFst
    | with_reducible apply SameRes.next
    | with_reducible apply SameRes.ite

theorem execLpddrTrainDone_same {m0 : Nat} {r0 : State} {ch : Fin 4} {pass : Bool} {mib : Half} {s : State} (hk
    : Same m0 r0 s) (hw : sub 536870543 m0 = true) : SameRes m0 r0 (execLpddrTrainDone ch pass mib s) := by
  unfold execLpddrTrainDone
  extract_lets a0 a1
  try clear_value a0
  have k1 : Same m0 r0 a1
  on_goal 1 => unfold a1
  rotate_left
  clear_value a1
  all_goals repeat' first
    | with_reducible assumption
    | exact sub_trans rfl hw
    | intro _
    | with_reducible apply State.modKin_same
    | with_reducible apply State.setFld_same
    | with_reducible apply State.kinFence_same
    | with_reducible apply State.kindlingFail_same
    | with_reducible apply State.startLoad_same
    | with_reducible apply Same.ite
    | with_reducible apply Same.foldl
    | with_reducible apply Same.foldlFst
    | with_reducible apply SameRes.next
    | with_reducible apply SameRes.ite

theorem execNvmEraseProgramCommand_same {m0 : Nat} {r0 : State} {cs : Fin 2} {opcode : Byte} {addr : Word} {op : NvmOp}
    {s : State} (hk : Same m0 r0 s) (hw : sub 65665 m0 = true) : SameRes m0 r0
    (execNvmEraseProgramCommand cs opcode addr op s) := by
  unfold execNvmEraseProgramCommand
  have b7 : sub 128 m0 = true := sub_trans rfl hw
  try dsimp only
  repeat' first
    | with_reducible assumption
    | exact sub_trans rfl hw
    | intro _
    | with_reducible apply State.log_same
    | with_reducible apply Same.ite
    | with_reducible apply Same.foldl
    | with_reducible apply Same.foldlFst
    | fail_if_no_progress with_reducible refine Same.upd_7 ?_ b7
    | with_reducible apply SameRes.next
    | with_reducible apply SameRes.ite
    | split

theorem execPorstNRelease_same {m0 : Nat} {r0 : State} {straps : BitVec 5} {s : State} (hk : Same m0 r0 s)
    (hw : sub 1041 m0 = true) : SameRes m0 r0 (execPorstNRelease straps s) := by
  unfold execPorstNRelease
  have b4 : sub 16 m0 = true := sub_trans rfl hw
  extract_lets a0 a1 a2
  try clear_value a0
  have k1 : Same m0 r0 a1
  on_goal 1 => unfold a1
  rotate_left
  clear_value a1
  have k2 : Same m0 r0 a2
  on_goal 1 => unfold a2
  rotate_left
  clear_value a2
  all_goals repeat' first
    | with_reducible assumption
    | exact sub_trans rfl hw
    | intro _
    | with_reducible apply State.setFld_same
    | with_reducible apply State.setStage_same
    | with_reducible apply State.modKin_same
    | with_reducible apply Same.ite
    | with_reducible apply Same.foldl
    | with_reducible apply Same.foldlFst
    | fail_if_no_progress with_reducible refine Same.upd_4 ?_ b4
    | with_reducible apply SameRes.next
    | with_reducible apply SameRes.ite

theorem execSectionLoaded_same {m0 : Nat} {r0 : State} {s : State} (hk : Same m0 r0 s) (hw : sub 536870543 m0 = true)
    : SameRes m0 r0 (execSectionLoaded s) := by
  unfold execSectionLoaded
  try dsimp only
  repeat' first
    | with_reducible assumption
    | exact sub_trans rfl hw
    | intro _
    | with_reducible apply State.kindlingFail_same
    | with_reducible apply State.failCandidate_same
    | with_reducible apply State.closeLoad_same
    | with_reducible apply State.takeSection_same
    | with_reducible apply Same.ite
    | with_reducible apply Same.foldl
    | with_reducible apply Same.foldlFst
    | with_reducible apply SameRes.next
    | with_reducible apply SameRes.ite
    | split

theorem execSectionReloadDone_same {m0 : Nat} {r0 : State} {pos : Fin 1024} {s : State} (hk : Same m0 r0 s)
    (hw : sub 90117 m0 = true) : SameRes m0 r0 (execSectionReloadDone pos s) := by
  unfold execSectionReloadDone
  have b13 : sub 8192 m0 = true := sub_trans rfl hw
  try dsimp only
  repeat' first
    | with_reducible assumption
    | exact sub_trans rfl hw
    | intro _
    | with_reducible apply State.write_same
    | with_reducible apply State.repatch_same
    | with_reducible apply Same.ite
    | with_reducible apply Same.foldl
    | with_reducible apply Same.foldlFst
    | fail_if_no_progress with_reducible refine Same.upd_13 ?_ b13
    | with_reducible apply SameRes.next
    | with_reducible apply SameRes.ite
    | split

theorem execSiSelfTestDone_same {m0 : Nat} {r0 : State} {pass : Bool} {s : State} (hk : Same m0 r0 s)
    (hw : sub 132865 m0 = true) : SameRes m0 r0 (execSiSelfTestDone pass s) := by
  unfold execSiSelfTestDone
  extract_lets a0
  have k0 : Same m0 r0 a0
  on_goal 1 => unfold a0
  rotate_left
  clear_value a0
  all_goals repeat' first
    | with_reducible assumption
    | exact sub_trans rfl hw
    | intro _
    | with_reducible apply State.modSafety_same
    | with_reducible apply State.modPins_same
    | with_reducible apply State.setStage_same
    | with_reducible apply State.startKindling_same
    | with_reducible apply State.modKin_same
    | with_reducible apply Same.ite
    | with_reducible apply Same.foldl
    | with_reducible apply Same.foldlFst
    | with_reducible apply SameRes.next
    | with_reducible apply SameRes.ite

theorem execVerifyPass_same {m0 : Nat} {r0 : State} {s : State} (hk : Same m0 r0 s) (hw : sub 8627777 m0 = true)
    : SameRes m0 r0 (execVerifyPass s) := by
  unfold execVerifyPass
  try dsimp only
  repeat' first
    | with_reducible assumption
    | exact sub_trans rfl hw
    | intro _
    | with_reducible apply State.ready_same
    | with_reducible apply Same.ite
    | with_reducible apply Same.foldl
    | with_reducible apply Same.foldlFst
    | with_reducible apply SameRes.next
    | with_reducible apply SameRes.ite

theorem execVerifyTimeout_same {m0 : Nat} {r0 : State} {s : State} (hk : Same m0 r0 s) (hw : sub 536870559 m0 = true)
    : SameRes m0 r0 (execVerifyTimeout s) := by
  unfold execVerifyTimeout
  try dsimp only
  repeat' first
    | with_reducible assumption
    | exact sub_trans rfl hw
    | intro _
    | with_reducible apply State.kindlingFail_same
    | with_reducible apply State.reach_same
    | with_reducible apply Same.ite
    | with_reducible apply Same.foldl
    | with_reducible apply Same.foldlFst
    | with_reducible apply SameRes.next
    | with_reducible apply SameRes.ite
    | split

theorem execWarmResetHoldEnd_same {m0 : Nat} {r0 : State} {s : State} (hk : Same m0 r0 s) (hw : sub 536870815 m0 = true)
    : SameRes m0 r0 (execWarmResetHoldEnd s) := by
  unfold execWarmResetHoldEnd
  try dsimp only
  repeat' first
    | with_reducible assumption
    | exact sub_trans rfl hw
    | intro _
    | with_reducible apply State.modKin_same
    | with_reducible apply State.reach_same
    | with_reducible apply State.releaseCore_same
    | with_reducible apply Same.ite
    | with_reducible apply Same.foldl
    | with_reducible apply Same.foldlFst
    | with_reducible apply SameRes.next
    | with_reducible apply SameRes.ite
    | split

theorem execWrstNFall_same {m0 : Nat} {r0 : State} {lowNs : Nat} {s : State} (hk : Same m0 r0 s)
    (hw : sub 536870543 m0 = true) : SameRes m0 r0 (execWrstNFall lowNs s) := by
  unfold execWrstNFall
  extract_lets a0
  have k0 : Same m0 r0 a0
  on_goal 1 => unfold a0
  rotate_left
  clear_value a0
  all_goals repeat' first
    | with_reducible assumption
    | exact sub_trans rfl hw
    | intro _
    | with_reducible apply State.modKin_same
    | with_reducible apply State.warmReset_same
    | with_reducible apply Same.ite
    | with_reducible apply Same.foldl
    | with_reducible apply Same.foldlFst
    | with_reducible apply SameRes.next
    | with_reducible apply SameRes.ite

theorem execWrstNRise_same {m0 : Nat} {r0 : State} {s : State} (hk : Same m0 r0 s) (hw : sub 536870799 m0 = true)
    : SameRes m0 r0 (execWrstNRise s) := by
  unfold execWrstNRise
  extract_lets a0
  have k0 : Same m0 r0 a0
  on_goal 1 => unfold a0
  rotate_left
  clear_value a0
  all_goals repeat' first
    | with_reducible assumption
    | exact sub_trans rfl hw
    | intro _
    | with_reducible apply State.modKin_same
    | with_reducible apply State.releaseCore_same
    | with_reducible apply Same.ite
    | with_reducible apply Same.foldl
    | with_reducible apply Same.foldlFst
    | with_reducible apply SameRes.next
    | with_reducible apply SameRes.ite

/-! ### Machine/MaintOps.lean -/

theorem State.showMults_same {m0 : Nat} {r0 : State} {s : State} (hk : Same m0 r0 s) (hw : sub 1 m0 = true) : Same m0 r0
    (State.showMults s) := by
  unfold State.showMults
  try dsimp only
  repeat' first
    | with_reducible assumption
    | exact sub_trans rfl hw
    | intro _
    | with_reducible apply State.setFld_same

theorem State.setLevel_same {m0 : Nat} {r0 : State} {s : State} {which : Nat} {level : Nat} (hk : Same m0 r0 s)
    (hw : sub 65537 m0 = true) : Same m0 r0 (State.setLevel s which level) := by
  unfold State.setLevel
  extract_lets a0 a1 a2 a3 a4 a5
  try clear_value a0
  try clear_value a1
  try clear_value a2
  have k3 : Same m0 r0 a3
  on_goal 1 => unfold a3
  rotate_left
  clear_value a3
  try clear_value a4
  have k5 : Same m0 r0 a5
  on_goal 1 => unfold a5
  rotate_left
  clear_value a5
  all_goals repeat' first
    | with_reducible assumption
    | exact sub_trans rfl hw
    | intro _
    | with_reducible apply State.log_same
    | with_reducible apply State.setFld_same
    | with_reducible apply State.event_same
    | with_reducible apply State.showMults_same
    | with_reducible apply Same.ite

theorem State.endAct_same {m0 : Nat} {r0 : State} {s : State} {a : Nat} {start : Nat} (hk : Same m0 r0 s)
    (hw : sub 524305 m0 = true) : Same m0 r0 (State.endAct s a start) := by
  unfold State.endAct
  have b19 : sub 524288 m0 = true := sub_trans rfl hw
  extract_lets a0 a1 a2
  have k0 : Same m0 r0 a0
  on_goal 1 => unfold a0
  rotate_left
  clear_value a0
  try clear_value a1
  have k2 : Same m0 r0 a2
  on_goal 1 => unfold a2
  rotate_left
  clear_value a2
  all_goals repeat' first
    | with_reducible assumption
    | exact sub_trans rfl hw
    | intro _
    | with_reducible apply State.reach_same
    | with_reducible apply State.showMaint_same
    | with_reducible apply State.setFld_same
    | with_reducible apply Same.ite
    | with_reducible apply Same.foldl
    | with_reducible apply Same.foldlFst
    | fail_if_no_progress with_reducible refine Same.upd_19 ?_ b19

theorem State.modTest_same {m0 : Nat} {r0 : State} {s : State} {checker : Nat} {unit : Nat} {f : SelfTestSt → SelfTestSt} (hk
    : Same m0 r0 s) (hw : sub 131072 m0 = true) : Same m0 r0 (State.modTest s checker unit f) := by
  unfold State.modTest
  try dsimp only
  repeat' first
    | with_reducible assumption
    | exact sub_trans rfl hw
    | intro _
    | with_reducible apply State.modSafety_same

theorem State.queueAct_same {m0 : Nat} {r0 : State} {s : State} {a : Nat} (hk : Same m0 r0 s) (hw : sub 524289 m0 = true)
    : Same m0 r0 (State.queueAct s a) := by
  unfold State.queueAct
  have b19 : sub 524288 m0 = true := sub_trans rfl hw
  try dsimp only
  repeat' first
    | with_reducible assumption
    | exact sub_trans rfl hw
    | intro _
    | with_reducible apply State.showMaint_same
    | with_reducible apply Same.ite
    | with_reducible apply Same.foldl
    | with_reducible apply Same.foldlFst
    | fail_if_no_progress with_reducible refine Same.upd_19 ?_ b19

theorem State.raiseStarvation_same {m0 : Nat} {r0 : State} {s : State} (hk : Same m0 r0 s) (hw : sub 327681 m0 = true)
    : Same m0 r0 (State.raiseStarvation s) := by
  unfold State.raiseStarvation
  have b18 : sub 262144 m0 = true := sub_trans rfl hw
  extract_lets a0 a1 a2 a3 a4
  try clear_value a0
  try clear_value a1
  try clear_value a2
  have k3 : Same m0 r0 a3
  on_goal 1 => unfold a3
  rotate_left
  clear_value a3
  try clear_value a4
  all_goals repeat' first
    | with_reducible assumption
    | exact sub_trans rfl hw
    | intro _
    | with_reducible apply State.setLevel_same
    | with_reducible apply Same.ite
    | with_reducible apply Same.foldl
    | with_reducible apply Same.foldlFst
    | fail_if_no_progress with_reducible refine Same.upd_18 ?_ b18

theorem State.startAct_same {m0 : Nat} {r0 : State} {s : State} {a : Nat} (hk : Same m0 r0 s) (hw : sub 688129 m0 = true)
    : Same m0 r0 (State.startAct s a) := by
  unfold State.startAct
  have b19 : sub 524288 m0 = true := sub_trans rfl hw
  extract_lets a0 a1 a2 a3 a4
  try clear_value a0
  try clear_value a1
  have k2 : Same m0 r0 a2
  on_goal 1 => unfold a2
  rotate_left
  clear_value a2
  try clear_value a3
  have k4 : Same m0 r0 a4
  on_goal 1 => unfold a4
  rotate_left
  clear_value a4
  all_goals repeat' first
    | with_reducible assumption
    | exact sub_trans rfl hw
    | intro _
    | with_reducible apply State.showMaint_same
    | with_reducible apply State.modTest_same
    | with_reducible apply State.modUnit_same
    | with_reducible apply State.setFld_same
    | with_reducible apply Same.ite
    | with_reducible apply Same.foldl
    | with_reducible apply Same.foldlFst
    | fail_if_no_progress with_reducible refine Same.upd_19 ?_ b19
    | split

theorem State.requestAct_same {m0 : Nat} {r0 : State} {s : State} {a : Nat} (hk : Same m0 r0 s) (hw : sub 688129 m0 = true)
    : Same m0 r0 (State.requestAct s a) := by
  unfold State.requestAct
  try dsimp only
  repeat' first
    | with_reducible assumption
    | exact sub_trans rfl hw
    | intro _
    | with_reducible apply State.startAct_same
    | with_reducible apply State.queueAct_same
    | with_reducible apply Same.ite

theorem State.scanMaint_same {m0 : Nat} {r0 : State} {s : State} (hk : Same m0 r0 s) (hw : sub 688129 m0 = true) : Same m0 r0
    (State.scanMaint s) := by
  unfold State.scanMaint
  try dsimp only
  repeat' first
    | with_reducible assumption
    | exact sub_trans rfl hw
    | intro _
    | with_reducible apply State.startAct_same
    | with_reducible apply Same.ite
    | with_reducible apply Same.foldl

/-! ### Machine/Checkers.lean -/

theorem State.cvuRefuse_same {m0 : Nat} {r0 : State} {s : State} {n : Nat} (hk : Same m0 r0 s) (hw : sub 1 m0 = true)
    : Same m0 r0 (State.cvuRefuse s n) := by
  unfold State.cvuRefuse
  try dsimp only
  repeat' first
    | with_reducible assumption
    | exact sub_trans rfl hw
    | intro _
    | with_reducible apply State.event_same

theorem State.endTinder_same {m0 : Nat} {r0 : State} {s : State} {unit : Nat} (hk : Same m0 r0 s) (hw : sub 163840 m0 = true)
    : Same m0 r0 (State.endTinder s unit) := by
  unfold State.endTinder
  extract_lets a0
  have k0 : Same m0 r0 a0
  on_goal 1 => unfold a0
  rotate_left
  clear_value a0
  all_goals repeat' first
    | with_reducible assumption
    | exact sub_trans rfl hw
    | intro _
    | with_reducible apply State.modUnit_same
    | with_reducible apply State.modCover_same
    | with_reducible apply Same.ite

theorem State.fenceTested_same {m0 : Nat} {r0 : State} {s : State} {checker : Nat} {unit : Nat} (hk : Same m0 r0 s)
    (hw : sub 301988873 m0 = true) : Same m0 r0 (State.fenceTested s checker unit) := by
  unfold State.fenceTested
  try dsimp only
  repeat' first
    | with_reducible assumption
    | exact sub_trans rfl hw
    | intro _
    | with_reducible apply State.fence_same
    | with_reducible apply Same.ite
    | with_reducible apply Same.foldl
    | with_reducible apply Same.foldlFst
    | split

theorem State.refuseWrite_same {m0 : Nat} {r0 : State} {s : State} {off : Nat} {domain : Nat} (hk : Same m0 r0 s)
    (hw : sub 196641 m0 = true) : Same m0 r0 (State.refuseWrite s off domain) := by
  unfold State.refuseWrite
  extract_lets a0 a1
  have k0 : Same m0 r0 a0.2
  on_goal 1 => unfold a0
  rotate_left
  clear_value a0
  try clear_value a1
  all_goals repeat' first
    | with_reducible assumption
    | exact sub_trans rfl hw
    | intro _
    | with_reducible apply State.draw_same
    | with_reducible apply State.fwRefuse_same

theorem execCvuCancel_same {m0 : Nat} {r0 : State} {cvu : Fin 8} {domain : BitVec 4} {value : Word} {s : State} (hk
    : Same m0 r0 s) (hw : sub 16973857 m0 = true) : SameRes m0 r0 (execCvuCancel cvu domain value s) := by
  unfold execCvuCancel
  try dsimp only
  repeat' first
    | with_reducible assumption
    | exact sub_trans rfl hw
    | intro _
    | with_reducible apply State.refuseWrite_same
    | with_reducible apply State.cvuAbort_same
    | with_reducible apply Same.ite
    | with_reducible apply Same.foldl
    | with_reducible apply Same.foldlFst
    | with_reducible apply SameRes.next
    | with_reducible apply SameRes.ite

theorem execCvuTapArm_same {m0 : Nat} {r0 : State} {cvu : Fin 8} {domain : BitVec 4} {value : Word} {s : State} (hk
    : Same m0 r0 s) (hw : sub 16973857 m0 = true) : SameRes m0 r0 (execCvuTapArm cvu domain value s) := by
  unfold execCvuTapArm
  extract_lets a0 a1 a2
  try clear_value a0
  try clear_value a1
  have k2 : Same m0 r0 a2
  on_goal 1 => unfold a2
  rotate_left
  clear_value a2
  all_goals repeat' first
    | with_reducible assumption
    | exact sub_trans rfl hw
    | intro _
    | with_reducible apply State.refuseWrite_same
    | with_reducible apply State.cvuRefuse_same
    | with_reducible apply State.armTap_same
    | with_reducible apply State.cvuAbort_same
    | with_reducible apply Same.ite
    | with_reducible apply Same.foldl
    | with_reducible apply Same.foldlFst
    | with_reducible apply SameRes.next
    | with_reducible apply SameRes.ite

theorem execCvuMemoryJob_same {m0 : Nat} {r0 : State} {cvu : Fin 8} {domain : BitVec 4} {value : Word} {s : State} (hk
    : Same m0 r0 s) (hw : sub 16973857 m0 = true) : SameRes m0 r0 (execCvuMemoryJob cvu domain value s) := by
  unfold execCvuMemoryJob
  try dsimp only
  repeat' first
    | with_reducible assumption
    | exact sub_trans rfl hw
    | intro _
    | with_reducible apply State.refuseWrite_same
    | with_reducible apply State.cvuRefuse_same
    | with_reducible apply State.modCvu_same
    | with_reducible apply State.setFld_same
    | with_reducible apply Same.ite
    | with_reducible apply Same.foldl
    | with_reducible apply Same.foldlFst
    | with_reducible apply SameRes.next
    | with_reducible apply SameRes.ite

theorem State.testFailed_same {m0 : Nat} {r0 : State} {s : State} {checker : Nat} {unit : Nat} {sig : Word} (hk
    : Same m0 r0 s) (hw : sub 301988873 m0 = true) : Same m0 r0 (State.testFailed s checker unit sig) := by
  unfold State.testFailed
  extract_lets a0
  have k0 : Same m0 r0 a0
  on_goal 1 => unfold a0
  rotate_left
  clear_value a0
  all_goals repeat' first
    | with_reducible assumption
    | exact sub_trans rfl hw
    | intro _
    | with_reducible apply State.log_same
    | with_reducible apply State.event_same
    | with_reducible apply State.severe_same
    | with_reducible apply State.fenceTested_same
    | with_reducible apply State.doubtIf_same
    | with_reducible apply Same.ite

theorem State.tinderMatch_same {m0 : Nat} {r0 : State} {s : State} {unit : Nat} (hk : Same m0 r0 s)
    (hw : sub 132096 m0 = true) : Same m0 r0 (State.tinderMatch s unit) := by
  unfold State.tinderMatch
  extract_lets a0 a1 a2
  try clear_value a0
  try clear_value a1
  have k2 : Same m0 r0 a2
  on_goal 1 => unfold a2
  rotate_left
  clear_value a2
  all_goals repeat' first
    | with_reducible assumption
    | exact sub_trans rfl hw
    | intro _
    | with_reducible apply State.modCover_same
    | with_reducible apply State.modKin_same
    | with_reducible apply Same.ite

theorem State.tinderMismatch_same {m0 : Nat} {r0 : State} {s : State} {unit : Nat} (hk : Same m0 r0 s)
    (hw : sub 301988873 m0 = true) : Same m0 r0 (State.tinderMismatch s unit) := by
  unfold State.tinderMismatch
  extract_lets a0 a1 a2
  try clear_value a0
  have k1 : Same m0 r0 a1
  on_goal 1 => unfold a1
  rotate_left
  clear_value a1
  have k2 : Same m0 r0 a2
  on_goal 1 => unfold a2
  rotate_left
  clear_value a2
  all_goals repeat' first
    | with_reducible assumption
    | exact sub_trans rfl hw
    | intro _
    | with_reducible apply State.modCover_same
    | with_reducible apply State.doubtIf_same
    | with_reducible apply State.recur_same
    | with_reducible apply State.fence_same
    | with_reducible apply Same.ite

theorem execCvuJobDone_same {m0 : Nat} {r0 : State} {cvu : Fin 8} {s : State} (hk : Same m0 r0 s)
    (hw : sub 25370625 m0 = true) : SameRes m0 r0 (execCvuJobDone cvu s) := by
  unfold execCvuJobDone
  try dsimp only
  repeat' first
    | with_reducible assumption
    | exact sub_trans rfl hw
    | intro _
    | with_reducible apply State.judgeRun_same
    | with_reducible apply State.endRemote_same
    | with_reducible apply State.cvuJudge_same
    | with_reducible apply State.cvuCompute_same
    | with_reducible apply State.cvuEnd_same
    | with_reducible apply Same.ite
    | with_reducible apply Same.foldl
    | with_reducible apply Same.foldlFst
    | with_reducible apply SameRes.next
    | with_reducible apply SameRes.ite
    | split
    | dsimp only
    | (with_reducible apply Same.of_fst; rotate_left; with_reducible assumption)

theorem execSelftestLate_same {m0 : Nat} {r0 : State} {checker : Fin 12} {unit : Half} {s : State} (hk : Same m0 r0 s)
    (hw : sub 196625 m0 = true) : SameRes m0 r0 (execSelftestLate checker unit s) := by
  unfold execSelftestLate
  try dsimp only
  repeat' first
    | with_reducible assumption
    | exact sub_trans rfl hw
    | intro _
    | with_reducible apply State.reach_same
    | with_reducible apply State.modTest_same
    | with_reducible apply State.log_same
    | with_reducible apply State.event_same
    | with_reducible apply State.doubtIf_same
    | with_reducible apply Same.ite
    | with_reducible apply Same.foldl
    | with_reducible apply Same.foldlFst
    | with_reducible apply SameRes.next
    | with_reducible apply SameRes.ite
    | split

theorem execSelftestSliceEnd_same {m0 : Nat} {r0 : State} {checker : Fin 12} {unit : Half} {sig : Word} {s : State} (hk
    : Same m0 r0 s) (hw : sub 301988889 m0 = true) : SameRes m0 r0 (execSelftestSliceEnd checker unit sig s) := by
  unfold execSelftestSliceEnd
  have b18 : sub 262144 m0 = true := sub_trans rfl hw
  try dsimp only
  repeat' first
    | with_reducible assumption
    | exact sub_trans rfl hw
    | intro _
    | with_reducible apply State.endAct_same
    | with_reducible apply State.modUnit_same
    | with_reducible apply State.modTest_same
    | with_reducible apply State.scanMaint_same
    | with_reducible apply State.testFailed_same
    | with_reducible apply Same.ite
    | with_reducible apply Same.foldl
    | with_reducible apply Same.foldlFst
    | fail_if_no_progress with_reducible refine Same.upd_18 ?_ b18
    | with_reducible apply SameRes.next
    | with_reducible apply SameRes.ite
    | split

theorem execSelftestSliceStart_same {m0 : Nat} {r0 : State} {checker : Fin 12} {unit : Half} {s : State} (hk : Same m0 r0 s)
    (hw : sub 688129 m0 = true) : SameRes m0 r0 (execSelftestSliceStart checker unit s) := by
  unfold execSelftestSliceStart
  try dsimp only
  repeat' first
    | with_reducible assumption
    | exact sub_trans rfl hw
    | intro _
    | with_reducible apply State.startAct_same
    | with_reducible apply Same.ite
    | with_reducible apply Same.foldl
    | with_reducible apply Same.foldlFst
    | with_reducible apply SameRes.next
    | with_reducible apply SameRes.ite

theorem execSelftestStarved_same {m0 : Nat} {r0 : State} {checker : Fin 12} {unit : Half} {s : State} (hk : Same m0 r0 s)
    (hw : sub 458769 m0 = true) : SameRes m0 r0 (execSelftestStarved checker unit s) := by
  unfold execSelftestStarved
  try dsimp only
  repeat' first
    | with_reducible assumption
    | exact sub_trans rfl hw
    | intro _
    | with_reducible apply State.modTest_same
    | with_reducible apply State.reach_same
    | with_reducible apply State.log_same
    | with_reducible apply State.event_same
    | with_reducible apply State.raiseStarvation_same
    | with_reducible apply Same.ite
    | with_reducible apply Same.foldl
    | with_reducible apply Same.foldlFst
    | with_reducible apply SameRes.next
    | with_reducible apply SameRes.ite
    | split

theorem execTinderJobDone_same {m0 : Nat} {r0 : State} {unit : Half} {s : State} (hk : Same m0 r0 s)
    (hw : sub 536870543 m0 = true) : SameRes m0 r0 (execTinderJobDone unit s) := by
  unfold execTinderJobDone
  extract_lets a0 a1
  try clear_value a0
  have k1 : Same m0 r0 a1
  on_goal 1 => unfold a1
  rotate_left
  clear_value a1
  all_goals repeat' first
    | with_reducible assumption
    | exact sub_trans rfl hw
    | intro _
    | with_reducible apply State.endTinder_same
    | with_reducible apply State.tinderMatch_same
    | with_reducible apply State.verifyMismatch_same
    | with_reducible apply State.tinderMismatch_same
    | with_reducible apply Same.ite
    | with_reducible apply Same.foldl
    | with_reducible apply Same.foldlFst
    | with_reducible apply SameRes.next
    | with_reducible apply SameRes.ite
    | split

theorem execTinderLate_same {m0 : Nat} {r0 : State} {unit : Half} {s : State} (hk : Same m0 r0 s) (hw : sub 196625 m0 = true)
    : SameRes m0 r0 (execTinderLate unit s) := by
  unfold execTinderLate
  try dsimp only
  repeat' first
    | with_reducible assumption
    | exact sub_trans rfl hw
    | intro _
    | with_reducible apply State.reach_same
    | with_reducible apply State.modCover_same
    | with_reducible apply State.log_same
    | with_reducible apply State.event_same
    | with_reducible apply State.doubtIf_same
    | with_reducible apply Same.ite
    | with_reducible apply Same.foldl
    | with_reducible apply Same.foldlFst
    | with_reducible apply SameRes.next
    | with_reducible apply SameRes.ite
    | split

theorem execTinderPromote_same {m0 : Nat} {r0 : State} {unit : Half} {s : State} (hk : Same m0 r0 s)
    (hw : sub 131088 m0 = true) : SameRes m0 r0 (execTinderPromote unit s) := by
  unfold execTinderPromote
  try dsimp only
  repeat' first
    | with_reducible assumption
    | exact sub_trans rfl hw
    | intro _
    | with_reducible apply State.modCover_same
    | with_reducible apply State.reach_same
    | with_reducible apply Same.ite
    | with_reducible apply Same.foldl
    | with_reducible apply Same.foldlFst
    | with_reducible apply SameRes.next
    | with_reducible apply SameRes.ite
    | split

/-! ### Machine/Island.lean -/

theorem State.crossLimit_same {m0 : Nat} {r0 : State} {s : State} {num : Nat} {v : Int} {l : Nat × Nat × Nat × Int} (hk
    : Same m0 r0 s) (hw : sub 196609 m0 = true) : Same m0 r0 (State.crossLimit s num v l) := by
  unfold State.crossLimit
  extract_lets a0
  have k0 : Same m0 r0 a0
  on_goal 1 => unfold a0
  rotate_left
  clear_value a0
  all_goals repeat' first
    | with_reducible assumption
    | exact sub_trans rfl hw
    | intro _
    | with_reducible apply State.log_same
    | with_reducible apply State.event_same
    | with_reducible apply State.severe_same
    | with_reducible apply State.doubt_same
    | with_reducible apply Same.ite

theorem State.enterSafe_same {m0 : Nat} {r0 : State} {s : State} {cause : Nat} (hk : Same m0 r0 s)
    (hw : sub 8901129 m0 = true) : Same m0 r0 (State.enterSafe s cause) := by
  unfold State.enterSafe
  have b12 : sub 4096 m0 = true := sub_trans rfl hw
  extract_lets a0 a1 a2 a3 a4 a5 a6 a7 a8 a9 a10
  have k0 : Same m0 r0 a0
  on_goal 1 => unfold a0
  rotate_left
  clear_value a0
  have k1 : Same m0 r0 a1
  on_goal 1 => unfold a1
  rotate_left
  clear_value a1
  have k2 : Same m0 r0 a2
  on_goal 1 => unfold a2
  rotate_left
  clear_value a2
  try clear_value a3
  have k4 : Same m0 r0 a4
  on_goal 1 => unfold a4
  rotate_left
  clear_value a4
  have k5 : Same m0 r0 a5
  on_goal 1 => unfold a5
  rotate_left
  clear_value a5
  have k6 : Same m0 r0 a6
  on_goal 1 => unfold a6
  rotate_left
  clear_value a6
  have k7 : Same m0 r0 a7
  on_goal 1 => unfold a7
  rotate_left
  clear_value a7
  try clear_value a8
  have k9 : Same m0 r0 a9
  on_goal 1 => unfold a9
  rotate_left
  clear_value a9
  have k10 : Same m0 r0 a10
  on_goal 1 => unfold a10
  rotate_left
  clear_value a10
  all_goals repeat' first
    | with_reducible assumption
    | exact sub_trans rfl hw
    | intro _
    | with_reducible apply State.modPins_same
    | with_reducible apply State.setFlag_same
    | with_reducible apply State.cancel_same
    | with_reducible apply State.gpioSafe_same
    | with_reducible apply State.sendOn_same
    | with_reducible apply State.modSafety_same
    | with_reducible apply State.setDomain_same
    | with_reducible apply State.modJournal_same
    | with_reducible apply Same.ite
    | with_reducible apply Same.foldl
    | with_reducible apply Same.foldlFst
    | fail_if_no_progress with_reducible refine Same.upd_12 ?_ b12

theorem State.excludeSensor_same {m0 : Nat} {r0 : State} {s : State} {n : Nat} (hk : Same m0 r0 s) (hw : sub 196609 m0 = true)
    : Same m0 r0 (State.excludeSensor s n) := by
  unfold State.excludeSensor
  extract_lets a0 a1
  try clear_value a0
  have k1 : Same m0 r0 a1
  on_goal 1 => unfold a1
  rotate_left
  clear_value a1
  all_goals repeat' first
    | with_reducible assumption
    | exact sub_trans rfl hw
    | intro _
    | with_reducible apply State.modSafety_same
    | with_reducible apply State.log_same
    | with_reducible apply State.event_same
    | with_reducible apply Same.ite

theorem State.excludeAll_same {m0 : Nat} {r0 : State} {s : State} {n : Nat} (hk : Same m0 r0 s) (hw : sub 196609 m0 = true)
    : Same m0 r0 (State.excludeAll s n) := by
  unfold State.excludeAll
  try dsimp only
  repeat' first
    | with_reducible assumption
    | exact sub_trans rfl hw
    | intro _
    | with_reducible apply State.excludeSensor_same
    | with_reducible apply Same.ite
    | with_reducible apply Same.foldl

theorem State.stopIsland_same {m0 : Nat} {r0 : State} {s : State} (hk : Same m0 r0 s) (hw : sub 131584 m0 = true) : Same m0 r0
    (State.stopIsland s) := by
  unfold State.stopIsland
  try dsimp only
  repeat' first
    | with_reducible assumption
    | exact sub_trans rfl hw
    | intro _
    | with_reducible apply State.modSafety_same
    | with_reducible apply State.modPins_same

theorem State.islandFails_same {m0 : Nat} {r0 : State} {s : State} (hk : Same m0 r0 s) (hw : sub 197121 m0 = true)
    : Same m0 r0 (State.islandFails s) := by
  unfold State.islandFails
  try dsimp only
  repeat' first
    | with_reducible assumption
    | exact sub_trans rfl hw
    | intro _
    | with_reducible apply State.stopIsland_same
    | with_reducible apply State.severe_same
    | with_reducible apply Same.ite

theorem State.judgeMonitor_same {m0 : Nat} {r0 : State} {s : State} {num : Nat} {v : Int} (hk : Same m0 r0 s)
    (hw : sub 196609 m0 = true) : Same m0 r0 (State.judgeMonitor s num v) := by
  unfold State.judgeMonitor
  extract_lets a0 a1 a2 a3
  try clear_value a0
  try clear_value a1
  try clear_value a2
  have k3 : Same m0 r0 a3
  on_goal 1 => unfold a3
  rotate_left
  clear_value a3
  all_goals repeat' first
    | with_reducible assumption
    | exact sub_trans rfl hw
    | intro _
    | with_reducible apply State.modSafety_same
    | with_reducible apply State.crossLimit_same
    | with_reducible apply Same.ite
    | with_reducible apply Same.foldl

theorem State.noteCool_same {m0 : Nat} {r0 : State} {s : State} {h : Int} (hk : Same m0 r0 s) (hw : sub 262144 m0 = true)
    : Same m0 r0 (State.noteCool s h) := by
  unfold State.noteCool
  have b18 : sub 262144 m0 = true := sub_trans rfl hw
  try dsimp only
  repeat' first
    | with_reducible assumption
    | exact sub_trans rfl hw
    | intro _
    | with_reducible apply Same.ite
    | with_reducible apply Same.foldl
    | with_reducible apply Same.foldlFst
    | fail_if_no_progress with_reducible refine Same.upd_18 ?_ b18

theorem execFwlRgnCtrlWrite_same {m0 : Nat} {r0 : State} {bank : Fin 6} {domain : BitVec 4} {value : Word} {s : State} (hk
    : Same m0 r0 s) (hw : sub 196643 m0 = true) : SameRes m0 r0 (execFwlRgnCtrlWrite bank domain value s) := by
  unfold execFwlRgnCtrlWrite
  have b1 : sub 2 m0 = true := sub_trans rfl hw
  extract_lets a0 a1 a2 a3 a4 a5 a6 a7 a8 a9 a10 a11 a12
  try clear_value a0
  try clear_value a1
  try clear_value a2
  try clear_value a3
  try clear_value a4
  try clear_value a5
  have k6 : Same m0 r0 a6
  on_goal 1 => unfold a6
  rotate_left
  clear_value a6
  have k7 : Same m0 r0 a7.2
  on_goal 1 => unfold a7
  rotate_left
  clear_value a7
  try clear_value a8
  try clear_value a9
  try clear_value a10
  try clear_value a11
  have k12 : Same m0 r0 a12
  on_goal 1 => unfold a12
  rotate_left
  clear_value a12
  all_goals repeat' first
    | with_reducible assumption
    | exact sub_trans rfl hw
    | intro _
    | with_reducible apply State.refuseWrite_same
    | with_reducible apply State.event_same
    | with_reducible apply State.draw_same
    | with_reducible apply State.log_same
    | with_reducible apply State.modSafety_same
    | with_reducible apply Same.ite
    | with_reducible apply Same.foldl
    | with_reducible apply Same.foldlFst
    | fail_if_no_progress with_reducible refine Same.upd_1 ?_ b1
    | with_reducible apply SameRes.next
    | with_reducible apply SameRes.ite

theorem State.readTemp_same {m0 : Nat} {r0 : State} {s : State} {n : Nat} {v : Int} (hk : Same m0 r0 s)
    (hw : sub 458753 m0 = true) : Same m0 r0 (State.readTemp s n v) := by
  unfold State.readTemp
  extract_lets a0 a1 a2
  have k0 : Same m0 r0 a0
  on_goal 1 => unfold a0
  rotate_left
  clear_value a0
  have k1 : Same m0 r0 a1
  on_goal 1 => unfold a1
  rotate_left
  clear_value a1
  have k2 : Same m0 r0 a2
  on_goal 1 => unfold a2
  rotate_left
  clear_value a2
  all_goals repeat' first
    | with_reducible assumption
    | exact sub_trans rfl hw
    | intro _
    | with_reducible apply State.modSafety_same
    | with_reducible apply State.excludeAll_same
    | with_reducible apply State.judgeMonitor_same
    | with_reducible apply State.noteCool_same
    | with_reducible apply State.setFld_same
    | with_reducible apply Same.ite
    | with_reducible apply Same.foldl
    | with_reducible apply Same.foldlFst
    | split

theorem execDoubtAtSelector_same {m0 : Nat} {r0 : State} {s : State} (hk : Same m0 r0 s) (hw : sub 4390913 m0 = true)
    : SameRes m0 r0 (execDoubtAtSelector s) := by
  unfold execDoubtAtSelector
  try dsimp only
  repeat' first
    | with_reducible assumption
    | exact sub_trans rfl hw
    | intro _
    | with_reducible apply State.selectEmber_same
    | with_reducible apply State.modSafety_same
    | with_reducible apply Same.ite
    | with_reducible apply Same.foldl
    | with_reducible apply Same.foldlFst
    | with_reducible apply SameRes.next
    | with_reducible apply SameRes.ite
    | split

theorem execErrIn_same {m0 : Nat} {r0 : State} {lowNs : Nat} {s : State} (hk : Same m0 r0 s) (hw : sub 197121 m0 = true)
    : SameRes m0 r0 (execErrIn lowNs s) := by
  unfold execErrIn
  extract_lets a0 a1 a2 a3 a4
  try clear_value a0
  have k1 : Same m0 r0 a1
  on_goal 1 => unfold a1
  rotate_left
  clear_value a1
  try clear_value a2
  have k3 : Same m0 r0 a3
  on_goal 1 => unfold a3
  rotate_left
  clear_value a3
  have k4 : Same m0 r0 a4
  on_goal 1 => unfold a4
  rotate_left
  clear_value a4
  all_goals repeat' first
    | with_reducible assumption
    | exact sub_trans rfl hw
    | intro _
    | with_reducible apply State.modSafety_same
    | with_reducible apply State.modPins_same
    | with_reducible apply State.setFlag_same
    | with_reducible apply State.raiseErrIn_same
    | with_reducible apply Same.ite
    | with_reducible apply Same.foldl
    | with_reducible apply Same.foldlFst
    | with_reducible apply SameRes.next
    | with_reducible apply SameRes.ite

theorem execHeartbeatToggle_same {m0 : Nat} {r0 : State} {s : State} (hk : Same m0 r0 s) (hw : sub 131600 m0 = true)
    : SameRes m0 r0 (execHeartbeatToggle s) := by
  unfold execHeartbeatToggle
  extract_lets a0
  have k0 : Same m0 r0 a0
  on_goal 1 => unfold a0
  rotate_left
  clear_value a0
  all_goals repeat' first
    | with_reducible assumption
    | exact sub_trans rfl hw
    | intro _
    | with_reducible apply State.reach_same
    | with_reducible apply State.modSafety_same
    | with_reducible apply State.modPins_same
    | with_reducible apply Same.ite
    | with_reducible apply Same.foldl
    | with_reducible apply Same.foldlFst
    | with_reducible apply SameRes.next
    | with_reducible apply SameRes.ite

theorem execIslandClockDisagree_same {m0 : Nat} {r0 : State} {s : State} (hk : Same m0 r0 s) (hw : sub 197121 m0 = true)
    : SameRes m0 r0 (execIslandClockDisagree s) := by
  unfold execIslandClockDisagree
  try dsimp only
  repeat' first
    | with_reducible assumption
    | exact sub_trans rfl hw
    | intro _
    | with_reducible apply State.islandFails_same
    | with_reducible apply Same.ite
    | with_reducible apply Same.foldl
    | with_reducible apply Same.foldlFst
    | with_reducible apply SameRes.next

theorem execIslandRomCheck_same {m0 : Nat} {r0 : State} {pass : Bool} {s : State} (hk : Same m0 r0 s)
    (hw : sub 197121 m0 = true) : SameRes m0 r0 (execIslandRomCheck pass s) := by
  unfold execIslandRomCheck
  try dsimp only
  repeat' first
    | with_reducible assumption
    | exact sub_trans rfl hw
    | intro _
    | with_reducible apply State.islandFails_same
    | with_reducible apply Same.ite
    | with_reducible apply Same.foldl
    | with_reducible apply Same.foldlFst
    | with_reducible apply SameRes.next

theorem execIslandSramUe_same {m0 : Nat} {r0 : State} {s : State} (hk : Same m0 r0 s) (hw : sub 197121 m0 = true)
    : SameRes m0 r0 (execIslandSramUe s) := by
  unfold execIslandSramUe
  try dsimp only
  repeat' first
    | with_reducible assumption
    | exact sub_trans rfl hw
    | intro _
    | with_reducible apply State.islandFails_same
    | with_reducible apply Same.ite
    | with_reducible apply Same.foldl
    | with_reducible apply Same.foldlFst
    | with_reducible apply SameRes.next

theorem execIslandWatchdogExpiry_same {m0 : Nat} {r0 : State} {s : State} (hk : Same m0 r0 s) (hw : sub 197137 m0 = true)
    : SameRes m0 r0 (execIslandWatchdogExpiry s) := by
  unfold execIslandWatchdogExpiry
  try dsimp only
  repeat' first
    | with_reducible assumption
    | exact sub_trans rfl hw
    | intro _
    | with_reducible apply State.islandFails_same
    | with_reducible apply State.reach_same
    | with_reducible apply Same.ite
    | with_reducible apply Same.foldl
    | with_reducible apply Same.foldlFst
    | with_reducible apply SameRes.next
    | with_reducible apply SameRes.ite

theorem execMonitor_same {m0 : Nat} {r0 : State} {num : Byte} {value : Int} {s : State} (hk : Same m0 r0 s)
    (hw : sub 458753 m0 = true) : SameRes m0 r0 (execMonitor num value s) := by
  unfold execMonitor
  try dsimp only
  repeat' first
    | with_reducible assumption
    | exact sub_trans rfl hw
    | intro _
    | with_reducible apply State.readTemp_same
    | with_reducible apply State.judgeMonitor_same
    | with_reducible apply Same.ite
    | with_reducible apply Same.foldl
    | with_reducible apply Same.foldlFst
    | with_reducible apply SameRes.next
    | with_reducible apply SameRes.ite

theorem execSafeStateEntry_same {m0 : Nat} {r0 : State} {s : State} (hk : Same m0 r0 s) (hw : sub 8901129 m0 = true)
    : SameRes m0 r0 (execSafeStateEntry s) := by
  unfold execSafeStateEntry
  try dsimp only
  repeat' first
    | with_reducible assumption
    | exact sub_trans rfl hw
    | intro _
    | with_reducible apply State.enterSafe_same
    | with_reducible apply State.modSafety_same
    | with_reducible apply State.stopIsland_same
    | with_reducible apply Same.ite
    | with_reducible apply Same.foldl
    | with_reducible apply Same.foldlFst
    | with_reducible apply SameRes.next
    | with_reducible apply SameRes.ite
    | split

theorem execSevereFlushExpiry_same {m0 : Nat} {r0 : State} {s : State} (hk : Same m0 r0 s) (hw : sub 536870559 m0 = true)
    : SameRes m0 r0 (execSevereFlushExpiry s) := by
  unfold execSevereFlushExpiry
  try dsimp only
  repeat' first
    | with_reducible assumption
    | exact sub_trans rfl hw
    | intro _
    | with_reducible apply State.modSafety_same
    | with_reducible apply State.reach_same
    | with_reducible apply State.warmReset_same
    | with_reducible apply Same.ite
    | with_reducible apply Same.foldl
    | with_reducible apply Same.foldlFst
    | with_reducible apply SameRes.next
    | with_reducible apply SameRes.ite
    | split

theorem execSmLockstepMismatch_same {m0 : Nat} {r0 : State} {s : State} (hk : Same m0 r0 s) (hw : sub 197121 m0 = true)
    : SameRes m0 r0 (execSmLockstepMismatch s) := by
  unfold execSmLockstepMismatch
  try dsimp only
  repeat' first
    | with_reducible assumption
    | exact sub_trans rfl hw
    | intro _
    | with_reducible apply State.islandFails_same
    | with_reducible apply Same.ite
    | with_reducible apply Same.foldl
    | with_reducible apply Same.foldlFst
    | with_reducible apply SameRes.next

theorem execVddSiExcursion_same {m0 : Nat} {r0 : State} {s : State} (hk : Same m0 r0 s) (hw : sub 536870543 m0 = true)
    : SameRes m0 r0 (execVddSiExcursion s) := by
  unfold execVddSiExcursion
  split
  · exact SameRes.next hk
  · have h := State.modKin_same (f := fun k => { k with siFailed := true }) (State.coreOff_same hk (sub_trans rfl hw))
      (sub_trans rfl hw)
    exact SameRes.next (Same.upd_16_17 (Same.upd_0_9 h (sub_trans rfl hw)) (sub_trans rfl hw))

end Sys2Proof.Machine
end

