-- ==== Sys2Proof/Laws/SameSystem.lean ====
section
/-! SUPPORT. That the commands of the system blocks leave alone what the bits of their masks do not name: one lemma for each, in the order of the model's files. -/

namespace Sys2Proof.Machine

open Sys2Proof

/-! ### Machine/Banked.lean -/

theorem State.actRules_same {m0 : Nat} {r0 : State} {s : State} {qs : List RuleRec} {changed : List Nat} (hk : Same m0 r0 s)
    (hw : sub 33028109 m0 = true) : Same m0 r0 (State.actRules s qs changed) := by
  unfold State.actRules
  extract_lets a0 a1 a2 a3
  have k0 : Same m0 r0 a0
  on_goal 1 => unfold a0
  rotate_left
  clear_value a0
  have k1 : Same m0 r0 a1
  on_goal 1 => unfold a1
  rotate_left
  clear_value a1
  try clear_value a2
  have k3 : Same m0 r0 a3
  on_goal 1 => unfold a3
  rotate_left
  clear_value a3
  all_goals repeat' first
    | with_reducible assumption
    | exact sub_trans rfl hw
    | intro _
    | with_reducible apply State.setLevel_same
    | with_reducible apply State.showMults_same
    | with_reducible apply State.applyPatch_same
    | with_reducible apply State.evalTriggers_same
    | with_reducible apply Same.ite
    | with_reducible apply Same.foldl

theorem State.drawMetric_same {m0 : Nat} {r0 : State} {s : State} (hk : Same m0 r0 s) (hw : sub 32 m0 = true) : Same m0 r0
    (State.drawMetric s).1 := by
  unfold State.drawMetric
  try dsimp only
  repeat' first
    | with_reducible assumption
    | exact sub_trans rfl hw
    | intro _
    | with_reducible apply State.draw_same

theorem State.busyShare_same {m0 : Nat} {r0 : State} {s : State} {c : Nat} (hk : Same m0 r0 s) (hw : sub 32 m0 = true)
    : Same m0 r0 (State.busyShare s c).1 := by
  unfold State.busyShare
  try dsimp only
  repeat' first
    | with_reducible assumption
    | exact sub_trans rfl hw
    | intro _
    | with_reducible apply State.drawMetric_same
    | with_reducible apply Same.ite
    | with_reducible apply Same.foldl
    | with_reducible apply Same.foldlFst
    | split

theorem State.metric_same {m0 : Nat} {r0 : State} {s : State} {q : RuleRec} (hk : Same m0 r0 s) (hw : sub 32 m0 = true)
    : Same m0 r0 (State.metric s q).1 := by
  unfold State.metric
  try dsimp only
  repeat' first
    | with_reducible assumption
    | exact sub_trans rfl hw
    | intro _
    | with_reducible apply State.busyShare_same
    | with_reducible apply State.drawMetric_same
    | with_reducible apply Same.ite
    | with_reducible apply Same.foldl
    | with_reducible apply Same.foldlFst
    | split

theorem State.evalRule_same {m0 : Nat} {r0 : State} {s : State} {n : Nat} {q : RuleRec} {changed : List Nat} (hk
    : Same m0 r0 s) (hw : sub 327713 m0 = true) : Same m0 r0 (State.evalRule s n q changed).1 := by
  unfold State.evalRule
  have b18 : sub 262144 m0 = true := sub_trans rfl hw
  extract_lets a0 a1 a2 a3 a4 a5 a6 a7 a8
  try clear_value a0
  have k1 : Same m0 r0 a1.1
  on_goal 1 => unfold a1
  rotate_left
  clear_value a1
  have k2 : Same m0 r0 a2
  on_goal 1 => unfold a2
  rotate_left
  clear_value a2
  try clear_value a3
  try clear_value a4
  try clear_value a5
  have k6 : Same m0 r0 a6
  on_goal 1 => unfold a6
  rotate_left
  clear_value a6
  try clear_value a7
  have k8 : Same m0 r0 a8
  on_goal 1 => unfold a8
  rotate_left
  clear_value a8
  all_goals repeat' first
    | with_reducible assumption
    | exact sub_trans rfl hw
    | intro _
    | with_reducible apply State.metric_same
    | with_reducible apply State.log_same
    | with_reducible apply State.event_same
    | with_reducible apply State.setFlag_same
    | with_reducible apply Same.ite
    | with_reducible apply Same.foldl
    | with_reducible apply Same.foldlFst
    | fail_if_no_progress with_reducible refine Same.upd_18 ?_ b18
    | split

theorem State.fenceJournal_same {m0 : Nat} {r0 : State} {s : State} (hk : Same m0 r0 s) (hw : sub 65537 m0 = true)
    : Same m0 r0 (State.fenceJournal s) := by
  unfold State.fenceJournal
  try dsimp only
  repeat' first
    | with_reducible assumption
    | exact sub_trans rfl hw
    | intro _
    | with_reducible apply State.modJournal_same
    | with_reducible apply State.setDomain_same

theorem State.fenceQuarter_same {m0 : Nat} {r0 : State} {s : State} {q : Nat} (hk : Same m0 r0 s) (hw : sub 204801 m0 = true)
    : Same m0 r0 (State.fenceQuarter s q) := by
  unfold State.fenceQuarter
  have b13 : sub 8192 m0 = true := sub_trans rfl hw
  extract_lets a0 a1 a2 a3 a4
  try clear_value a0
  try clear_value a1
  have k2 : Same m0 r0 a2
  on_goal 1 => unfold a2
  rotate_left
  clear_value a2
  try clear_value a3
  have k4 : Same m0 r0 a4
  on_goal 1 => unfold a4
  rotate_left
  clear_value a4
  all_goals repeat' first
    | with_reducible assumption
    | exact sub_trans rfl hw
    | intro _
    | with_reducible apply State.setDomain_same
    | with_reducible apply State.wcFence_same
    | with_reducible apply State.severe_same
    | with_reducible apply Same.ite
    | with_reducible apply Same.foldl
    | with_reducible apply Same.foldlFst
    | fail_if_no_progress with_reducible refine Same.upd_13 ?_ b13

theorem State.failDomain_same {m0 : Nat} {r0 : State} {s : State} {d : Nat} (hk : Same m0 r0 s) (hw : sub 301988873 m0 = true)
    : Same m0 r0 (State.failDomain s d) := by
  unfold State.failDomain
  try dsimp only
  repeat' first
    | with_reducible assumption
    | exact sub_trans rfl hw
    | intro _
    | with_reducible apply State.severe_same
    | with_reducible apply State.fenceJournal_same
    | with_reducible apply State.fenceQuarter_same
    | with_reducible apply State.setDomain_same
    | with_reducible apply State.fence_same
    | with_reducible apply Same.ite
    | with_reducible apply Same.foldl

theorem State.modReq_same {m0 : Nat} {r0 : State} {s : State} {a : Nat} {f : MaintReq → MaintReq} (hk : Same m0 r0 s)
    (hw : sub 524288 m0 = true) : Same m0 r0 (State.modReq s a f) := by
  unfold State.modReq
  have b19 : sub 524288 m0 = true := sub_trans rfl hw
  try dsimp only
  repeat' first
    | with_reducible assumption
    | exact sub_trans rfl hw
    | intro _
    | with_reducible apply Same.ite
    | with_reducible apply Same.foldl
    | with_reducible apply Same.foldlFst
    | fail_if_no_progress with_reducible refine Same.upd_19 ?_ b19

theorem State.newPeriod_same {m0 : Nat} {r0 : State} {s : State} (hk : Same m0 r0 s) (hw : sub 262144 m0 = true) : Same m0 r0
    (State.newPeriod s) := by
  unfold State.newPeriod
  have b18 : sub 262144 m0 = true := sub_trans rfl hw
  try dsimp only
  repeat' first
    | with_reducible assumption
    | exact sub_trans rfl hw
    | intro _
    | with_reducible apply Same.ite
    | with_reducible apply Same.foldl
    | with_reducible apply Same.foldlFst
    | fail_if_no_progress with_reducible refine Same.upd_18 ?_ b18

theorem State.setNeStep_same {m0 : Nat} {r0 : State} {s : State} {step : Nat} {h : Int} (hk : Same m0 r0 s)
    (hw : sub 65537 m0 = true) : Same m0 r0 (State.setNeStep s step h) := by
  unfold State.setNeStep
  extract_lets a0 a1 a2
  try clear_value a0
  have k1 : Same m0 r0 a1
  on_goal 1 => unfold a1
  rotate_left
  clear_value a1
  have k2 : Same m0 r0 a2
  on_goal 1 => unfold a2
  rotate_left
  clear_value a2
  all_goals repeat' first
    | with_reducible assumption
    | exact sub_trans rfl hw
    | intro _
    | with_reducible apply State.log_same
    | with_reducible apply State.event_same
    | with_reducible apply State.setFld_same

theorem State.ungate_same {m0 : Nat} {r0 : State} {s : State} {code : Nat} (hk : Same m0 r0 s) (hw : sub 32768 m0 = true)
    : Same m0 r0 (State.ungate s code) := by
  unfold State.ungate
  try dsimp only
  repeat' first
    | with_reducible assumption
    | exact sub_trans rfl hw
    | intro _
    | with_reducible apply State.modUnit_same
    | with_reducible apply Same.ite

theorem State.wakeMemory_same {m0 : Nat} {r0 : State} {s : State} {d : Nat} (hk : Same m0 r0 s) (hw : sub 8193 m0 = true)
    : Same m0 r0 (State.wakeMemory s d) := by
  unfold State.wakeMemory
  try dsimp only
  repeat' first
    | with_reducible assumption
    | exact sub_trans rfl hw
    | intro _
    | with_reducible apply State.cinderNow_same
    | with_reducible apply Same.ite

theorem execAdaptEval_same {m0 : Nat} {r0 : State} {s : State} (hk : Same m0 r0 s) (hw : sub 33028157 m0 = true)
    : SameRes m0 r0 (execAdaptEval s) := by
  unfold execAdaptEval
  extract_lets a0 a1 a2
  have k0 : Same m0 r0 a0
  on_goal 1 => unfold a0
  rotate_left
  clear_value a0
  try clear_value a1
  have k2 : Same m0 r0 a2.1
  on_goal 1 => unfold a2
  rotate_left
  clear_value a2
  all_goals repeat' first
    | with_reducible assumption
    | exact sub_trans rfl hw
    | intro _
    | with_reducible apply State.reach_same
    | with_reducible apply State.evalRule_same
    | with_reducible apply State.actRules_same
    | with_reducible apply State.newPeriod_same
    | with_reducible apply Same.ite
    | with_reducible apply Same.foldl
    | with_reducible apply Same.foldlFst
    | with_reducible apply SameRes.next
    | with_reducible apply SameRes.ite

theorem execDomainFault_same {m0 : Nat} {r0 : State} {dom : Fin 188} {s : State} (hk : Same m0 r0 s)
    (hw : sub 301988873 m0 = true) : SameRes m0 r0 (execDomainFault dom s) := by
  unfold execDomainFault
  extract_lets a0 a1 a2
  try clear_value a0
  try clear_value a1
  have k2 : Same m0 r0 a2
  on_goal 1 => unfold a2
  rotate_left
  clear_value a2
  all_goals repeat' first
    | with_reducible assumption
    | exact sub_trans rfl hw
    | intro _
    | with_reducible apply State.log_same
    | with_reducible apply State.event_same
    | with_reducible apply State.failDomain_same
    | with_reducible apply Same.ite
    | with_reducible apply Same.foldl
    | with_reducible apply Same.foldlFst
    | with_reducible apply SameRes.next

theorem execDomainPowerUpDone_same {m0 : Nat} {r0 : State} {dom : Fin 188} {s : State} (hk : Same m0 r0 s)
    (hw : sub 40961 m0 = true) : SameRes m0 r0 (execDomainPowerUpDone dom s) := by
  unfold execDomainPowerUpDone
  have b13 : sub 8192 m0 = true := sub_trans rfl hw
  extract_lets a0 a1 a2 a3
  try clear_value a0
  try clear_value a1
  have k2 : Same m0 r0 a2
  on_goal 1 => unfold a2
  rotate_left
  clear_value a2
  have k3 : Same m0 r0 a3
  on_goal 1 => unfold a3
  rotate_left
  clear_value a3
  all_goals repeat' first
    | with_reducible assumption
    | exact sub_trans rfl hw
    | intro _
    | with_reducible apply State.wakeMemory_same
    | with_reducible apply State.setDomain_same
    | with_reducible apply State.ungate_same
    | with_reducible apply Same.ite
    | with_reducible apply Same.foldl
    | with_reducible apply Same.foldlFst
    | fail_if_no_progress with_reducible refine Same.upd_13 ?_ b13
    | with_reducible apply SameRes.next
    | with_reducible apply SameRes.ite

theorem execIdleGate_same {m0 : Nat} {r0 : State} {unit : Half} {s : State} (hk : Same m0 r0 s) (hw : sub 32785 m0 = true)
    : SameRes m0 r0 (execIdleGate unit s) := by
  unfold execIdleGate
  extract_lets a0 a1 a2 a3
  try clear_value a0
  try clear_value a1
  try clear_value a2
  have k3 : Same m0 r0 a3
  on_goal 1 => unfold a3
  rotate_left
  clear_value a3
  all_goals repeat' first
    | with_reducible assumption
    | exact sub_trans rfl hw
    | intro _
    | with_reducible apply State.reach_same
    | with_reducible apply State.modUnit_same
    | with_reducible apply State.setDomain_same
    | with_reducible apply Same.ite
    | with_reducible apply Same.foldl
    | with_reducible apply Same.foldlFst
    | with_reducible apply SameRes.next
    | with_reducible apply SameRes.ite

theorem execIdleWake_same {m0 : Nat} {r0 : State} {unit : Half} {s : State} (hk : Same m0 r0 s) (hw : sub 32769 m0 = true)
    : SameRes m0 r0 (execIdleWake unit s) := by
  unfold execIdleWake
  try dsimp only
  repeat' first
    | with_reducible assumption
    | exact sub_trans rfl hw
    | intro _
    | with_reducible apply State.ungate_same
    | with_reducible apply State.setDomain_same
    | with_reducible apply Same.ite
    | with_reducible apply Same.foldl
    | with_reducible apply Same.foldlFst
    | with_reducible apply SameRes.next
    | with_reducible apply SameRes.ite

theorem State.scrubbed_same {m0 : Nat} {r0 : State} {s : State} {a : Nat} {ecc : List EccHit} (hk : Same m0 r0 s)
    (hw : sub 301988873 m0 = true) : Same m0 r0 (State.scrubbed s a ecc) := by
  unfold State.scrubbed
  repeat' first
    | with_reducible assumption
    | exact sub_trans rfl hw
    | with_reducible apply State.eccHits_same
    | with_reducible apply Same.ite

theorem execMaintActivityEnd_same {m0 : Nat} {r0 : State} {act : Half} {ecc : List EccHit} {s : State} (hk : Same m0 r0 s)
    (hw : sub 301988889 m0 = true) : SameRes m0 r0 (execMaintActivityEnd act ecc s) := by
  unfold execMaintActivityEnd
  try dsimp only
  repeat' first
    | with_reducible assumption
    | exact sub_trans rfl hw
    | intro _
    | with_reducible apply State.scrubbed_same
    | with_reducible apply State.scanMaint_same
    | with_reducible apply State.endAct_same
    | with_reducible apply Same.ite
    | with_reducible apply Same.foldl
    | with_reducible apply Same.foldlFst
    | with_reducible apply SameRes.next
    | with_reducible apply SameRes.ite
    | split

theorem execMaintOverdue_same {m0 : Nat} {r0 : State} {act : Half} {s : State} (hk : Same m0 r0 s) (hw : sub 589873 m0 = true)
    : SameRes m0 r0 (execMaintOverdue act s) := by
  unfold execMaintOverdue
  try dsimp only
  repeat' first
    | with_reducible assumption
    | exact sub_trans rfl hw
    | intro _
    | with_reducible apply State.reach_same
    | with_reducible apply State.draw_same
    | with_reducible apply State.log_same
    | with_reducible apply State.event_same
    | with_reducible apply State.modReq_same
    | with_reducible apply Same.ite
    | with_reducible apply Same.foldl
    | with_reducible apply Same.foldlFst
    | with_reducible apply SameRes.next
    | with_reducible apply SameRes.ite
    | split

theorem execMaintPeriodExpiry_same {m0 : Nat} {r0 : State} {act : Half} {s : State} (hk : Same m0 r0 s)
    (hw : sub 688145 m0 = true) : SameRes m0 r0 (execMaintPeriodExpiry act s) := by
  unfold execMaintPeriodExpiry
  have b19 : sub 524288 m0 = true := sub_trans rfl hw
  try dsimp only
  repeat' first
    | with_reducible assumption
    | exact sub_trans rfl hw
    | intro _
    | with_reducible apply State.reach_same
    | with_reducible apply State.requestAct_same
    | with_reducible apply Same.ite
    | with_reducible apply Same.foldl
    | with_reducible apply Same.foldlFst
    | fail_if_no_progress with_reducible refine Same.upd_19 ?_ b19
    | with_reducible apply SameRes.next
    | with_reducible apply SameRes.ite
    | split

theorem execMaintRequest_same {m0 : Nat} {r0 : State} {act : Half} {s : State} (hk : Same m0 r0 s) (hw : sub 688129 m0 = true)
    : SameRes m0 r0 (execMaintRequest act s) := by
  unfold execMaintRequest
  try dsimp only
  repeat' first
    | with_reducible assumption
    | exact sub_trans rfl hw
    | intro _
    | with_reducible apply State.requestAct_same
    | with_reducible apply Same.ite
    | with_reducible apply Same.foldl
    | with_reducible apply Same.foldlFst
    | with_reducible apply SameRes.next

theorem execMaintReserve_same {m0 : Nat} {r0 : State} {act : Half} {s : State} (hk : Same m0 r0 s) (hw : sub 524304 m0 = true)
    : SameRes m0 r0 (execMaintReserve act s) := by
  unfold execMaintReserve
  try dsimp only
  repeat' first
    | with_reducible assumption
    | exact sub_trans rfl hw
    | intro _
    | with_reducible apply State.modReq_same
    | with_reducible apply State.reach_same
    | with_reducible apply Same.ite
    | with_reducible apply Same.foldl
    | with_reducible apply Same.foldlFst
    | with_reducible apply SameRes.next
    | with_reducible apply SameRes.ite
    | split

theorem execStarvationLower_same {m0 : Nat} {r0 : State} {s : State} (hk : Same m0 r0 s) (hw : sub 327697 m0 = true)
    : SameRes m0 r0 (execStarvationLower s) := by
  unfold execStarvationLower
  have b18 : sub 262144 m0 = true := sub_trans rfl hw
  extract_lets a0 a1 a2 a3
  try clear_value a0
  have k1 : Same m0 r0 a1
  on_goal 1 => unfold a1
  rotate_left
  clear_value a1
  have k2 : Same m0 r0 a2
  on_goal 1 => unfold a2
  rotate_left
  clear_value a2
  try clear_value a3
  all_goals repeat' first
    | with_reducible assumption
    | exact sub_trans rfl hw
    | intro _
    | with_reducible apply State.reach_same
    | with_reducible apply State.setLevel_same
    | with_reducible apply Same.ite
    | with_reducible apply Same.foldl
    | with_reducible apply Same.foldlFst
    | fail_if_no_progress with_reducible refine Same.upd_18 ?_ b18
    | with_reducible apply SameRes.next
    | with_reducible apply SameRes.ite

theorem execThermalEval_same {m0 : Nat} {r0 : State} {s : State} (hk : Same m0 r0 s) (hw : sub 327697 m0 = true)
    : SameRes m0 r0 (execThermalEval s) := by
  unfold execThermalEval
  have b18 : sub 262144 m0 = true := sub_trans rfl hw
  extract_lets a0 a1 a2 a3 a4
  have k0 : Same m0 r0 a0
  on_goal 1 => unfold a0
  rotate_left
  try clear_value a1
  try clear_value a2
  try clear_value a3
  all_goals repeat' first
    | with_reducible assumption
    | exact sub_trans rfl hw
    | intro _
    | with_reducible apply State.reach_same
    | with_reducible apply State.setLevel_same
    | with_reducible apply State.setNeStep_same
    | with_reducible apply Same.ite
    | with_reducible apply Same.foldl
    | with_reducible apply Same.foldlFst
    | fail_if_no_progress with_reducible refine Same.upd_18 ?_ b18
    | with_reducible apply SameRes.next
    | with_reducible apply SameRes.ite
    | split

/-! ### Machine/Camera.lean -/

theorem State.copyDone_same {m0 : Nat} {r0 : State} {s : State} {bus : Nat} (hk : Same m0 r0 s) (hw : sub 1048577 m0 = true)
    : Same m0 r0 (State.copyDone s bus) := by
  unfold State.copyDone
  have b20 : sub 1048576 m0 = true := sub_trans rfl hw
  extract_lets a0 a1
  try clear_value a0
  have k1 : Same m0 r0 a1
  on_goal 1 => unfold a1
  rotate_left
  clear_value a1
  all_goals repeat' first
    | with_reducible assumption
    | exact sub_trans rfl hw
    | intro _
    | with_reducible apply State.showBatch_same
    | with_reducible apply State.modCam_same
    | with_reducible apply Same.ite
    | with_reducible apply Same.foldl
    | with_reducible apply Same.foldlFst
    | fail_if_no_progress with_reducible refine Same.upd_20 ?_ b20
    | split

theorem execI3cBatchGo_same {m0 : Nat} {r0 : State} {bus : Fin 4} {domain : BitVec 4} {value : Word} {s : State} (hk
    : Same m0 r0 s) (hw : sub 1048577 m0 = true) : SameRes m0 r0 (execI3cBatchGo bus domain value s) := by
  unfold execI3cBatchGo
  have b20 : sub 1048576 m0 = true := sub_trans rfl hw
  extract_lets a0 a1 a2 a3 a4 a5 a6 a7 a8 a9 a10 a11 a12
  try clear_value a0
  try clear_value a1
  try clear_value a2
  try clear_value a3
  try clear_value a4
  try clear_value a5
  try clear_value a6
  try clear_value a7
  try clear_value a8
  have k9 : Same m0 r0 a9
  on_goal 1 => unfold a9
  rotate_left
  clear_value a9
  have k10 : Same m0 r0 a10
  on_goal 1 => unfold a10
  rotate_left
  clear_value a10
  have k11 : Same m0 r0 a11
  on_goal 1 => unfold a11
  rotate_left
  clear_value a11
  try clear_value a12
  all_goals repeat' first
    | with_reducible assumption
    | exact sub_trans rfl hw
    | intro _
    | with_reducible apply State.copyDone_same
    | with_reducible apply State.setFld_same
    | with_reducible apply Same.ite
    | with_reducible apply Same.foldl
    | with_reducible apply Same.foldlFst
    | fail_if_no_progress with_reducible refine Same.upd_20 ?_ b20
    | with_reducible apply SameRes.next

theorem State.markLine_same {m0 : Nat} {r0 : State} {s : State} {p : StreamRec} {seq : Word} {y : Nat} {fl : Nat} (hk
    : Same m0 r0 s) (hw : sub 3145728 m0 = true) : Same m0 r0 (State.markLine s p seq y fl) := by
  unfold State.markLine
  extract_lets a0
  have k0 : Same m0 r0 a0
  on_goal 1 => unfold a0
  rotate_left
  clear_value a0
  all_goals repeat' first
    | with_reducible assumption
    | exact sub_trans rfl hw
    | intro _
    | with_reducible apply State.modCam_same
    | with_reducible apply State.modFrame_same
    | with_reducible apply Same.ite

theorem State.modFsync_same {m0 : Nat} {r0 : State} {s : State} {n : Nat} {f : FsyncSt → FsyncSt} (hk : Same m0 r0 s)
    (hw : sub 1048576 m0 = true) : Same m0 r0 (State.modFsync s n f) := by
  unfold State.modFsync
  have b20 : sub 1048576 m0 = true := sub_trans rfl hw
  try dsimp only
  repeat' first
    | with_reducible assumption
    | exact sub_trans rfl hw
    | intro _
    | with_reducible apply Same.ite
    | with_reducible apply Same.foldl
    | with_reducible apply Same.foldlFst
    | fail_if_no_progress with_reducible refine Same.upd_20 ?_ b20

theorem State.openFrame_same {m0 : Nat} {r0 : State} {s : State} {p : StreamRec} {c : StreamSt} {late : Bool} (hk
    : Same m0 r0 s) (hw : sub 3280897 m0 = true) : Same m0 r0 (State.openFrame s p c late) := by
  unfold State.openFrame
  extract_lets a0 a1 a2 a3 a4 a5 a6 a7
  try clear_value a0
  try clear_value a1
  try clear_value a2
  try clear_value a3
  have k4 : Same m0 r0 a4
  on_goal 1 => unfold a4
  rotate_left
  clear_value a4
  try clear_value a5
  have k6 : Same m0 r0 a6
  on_goal 1 => unfold a6
  rotate_left
  clear_value a6
  have k7 : Same m0 r0 a7
  on_goal 1 => unfold a7
  rotate_left
  clear_value a7
  all_goals repeat' first
    | with_reducible assumption
    | exact sub_trans rfl hw
    | intro _
    | with_reducible apply State.assignSeq_same
    | with_reducible apply State.modCam_same
    | with_reducible apply State.startFrame_same
    | with_reducible apply State.preemptStaged_same
    | with_reducible apply State.emberStart_same
    | with_reducible apply Same.ite
    | with_reducible apply Same.foldl
    | with_reducible apply Same.foldlFst
    | split

theorem State.openUncounted_same {m0 : Nat} {r0 : State} {s : State} {p : StreamRec} (hk : Same m0 r0 s)
    (hw : sub 1048576 m0 = true) : Same m0 r0 (State.openUncounted s p) := by
  unfold State.openUncounted
  try dsimp only
  repeat' first
    | with_reducible assumption
    | exact sub_trans rfl hw
    | intro _
    | with_reducible apply State.modCam_same

theorem State.pulseAt_same {m0 : Nat} {r0 : State} {s : State} {p : StreamRec} {t : Nat} (hk : Same m0 r0 s)
    (hw : sub 1048576 m0 = true) : Same m0 r0 (State.pulseAt s p t) := by
  unfold State.pulseAt
  try dsimp only
  repeat' first
    | with_reducible assumption
    | exact sub_trans rfl hw
    | intro _
    | with_reducible apply State.modCam_same

theorem State.showLanes_same {m0 : Nat} {r0 : State} {s : State} {port : Nat} (hk : Same m0 r0 s) (hw : sub 1 m0 = true)
    : Same m0 r0 (State.showLanes s port) := by
  unfold State.showLanes
  try dsimp only
  repeat' first
    | with_reducible assumption
    | exact sub_trans rfl hw
    | intro _
    | with_reducible apply State.setFld_same

theorem State.takeHeader_same {m0 : Nat} {r0 : State} {s : State} {port : Nat} {hdr : CsiHeader} (hk : Same m0 r0 s)
    (hw : sub 3145729 m0 = true) : Same m0 r0 (State.takeHeader s port hdr).1 := by
  unfold State.takeHeader
  try dsimp only
  repeat' first
    | with_reducible assumption
    | exact sub_trans rfl hw
    | intro _
    | with_reducible apply State.headerCorrected_same
    | with_reducible apply State.headerLost_same
    | with_reducible apply Same.ite
    | with_reducible apply Same.foldl
    | with_reducible apply Same.foldlFst
    | split

theorem State.takeLine_same {m0 : Nat} {r0 : State} {s : State} {p : StreamRec} {c : StreamSt} {f : CamFrame} {seq : Word}
    {crcOk : Bool} {data : List Byte} {fault : LineFault} (hk : Same m0 r0 s) (hw : sub 301988877 m0 = true) : Same m0 r0
    (State.takeLine s p c f seq crcOk data fault) := by
  unfold State.takeLine
  extract_lets a0 a1 a2 a3 a4 a5 a6 a7 a8 a9 a10 a11 a12
  try clear_value a0
  have k1 : Same m0 r0 a1
  on_goal 1 => unfold a1
  rotate_left
  clear_value a1
  try clear_value a2
  try clear_value a3
  try clear_value a4
  try clear_value a5
  have k6 : Same m0 r0 a6
  on_goal 1 => unfold a6
  rotate_left
  clear_value a6
  have k7 : Same m0 r0 a7
  on_goal 1 => unfold a7
  rotate_left
  clear_value a7
  have k8 : Same m0 r0 a8
  on_goal 1 => unfold a8
  rotate_left
  clear_value a8
  have k9 : Same m0 r0 a9
  on_goal 1 => unfold a9
  rotate_left
  clear_value a9
  have k10 : Same m0 r0 a10
  on_goal 1 => unfold a10
  rotate_left
  clear_value a10
  have k11 : Same m0 r0 a11
  on_goal 1 => unfold a11
  rotate_left
  clear_value a11
  have k12 : Same m0 r0 a12
  on_goal 1 => unfold a12
  rotate_left
  clear_value a12
  all_goals repeat' first
    | with_reducible assumption
    | exact sub_trans rfl hw
    | intro _
    | with_reducible apply State.modCam_same
    | with_reducible apply State.raiseFrame_same
    | with_reducible apply State.stageFrame_same
    | with_reducible apply State.beginLine_same
    | with_reducible apply State.putLine_same
    | with_reducible apply State.addCnt_same
    | with_reducible apply State.event_same
    | with_reducible apply State.modFrame_same
    | with_reducible apply State.markLine_same
    | with_reducible apply State.ispParity_same
    | with_reducible apply Same.ite
    | with_reducible apply Same.foldl
    | with_reducible apply Same.foldlFst
    | split

theorem State.touchFrame_same {m0 : Nat} {r0 : State} {s : State} {stream : Nat} (hk : Same m0 r0 s)
    (hw : sub 1048576 m0 = true) : Same m0 r0 (State.touchFrame s stream) := by
  unfold State.touchFrame
  try dsimp only
  repeat' first
    | with_reducible assumption
    | exact sub_trans rfl hw
    | intro _
    | with_reducible apply State.modCam_same

theorem execBatchTransferDone_same {m0 : Nat} {r0 : State} {stream : Fin 24} {nackAt : Option Nat} {s : State} (hk
    : Same m0 r0 s) (hw : sub 1114113 m0 = true) : SameRes m0 r0 (execBatchTransferDone stream nackAt s) := by
  unfold execBatchTransferDone
  try dsimp only
  repeat' first
    | with_reducible assumption
    | exact sub_trans rfl hw
    | intro _
    | with_reducible apply State.modCam_same
    | with_reducible apply State.showBatch_same
    | with_reducible apply State.log_same
    | with_reducible apply State.setReg_same
    | with_reducible apply Same.ite
    | with_reducible apply Same.foldl
    | with_reducible apply Same.foldlFst
    | with_reducible apply SameRes.next
    | with_reducible apply SameRes.ite
    | split

theorem execBatchTransferStart_same {m0 : Nat} {r0 : State} {stream : Fin 24} {s : State} (hk : Same m0 r0 s)
    (hw : sub 1048593 m0 = true) : SameRes m0 r0 (execBatchTransferStart stream s) := by
  unfold execBatchTransferStart
  try dsimp only
  repeat' first
    | with_reducible assumption
    | exact sub_trans rfl hw
    | intro _
    | with_reducible apply State.reach_same
    | with_reducible apply State.setReg_same
    | with_reducible apply State.showBatch_same
    | with_reducible apply State.modCam_same
    | with_reducible apply Same.ite
    | with_reducible apply Same.foldl
    | with_reducible apply Same.foldlFst
    | with_reducible apply SameRes.next
    | with_reducible apply SameRes.ite
    | split

theorem execCsiDeskewComplete_same {m0 : Nat} {r0 : State} {port : Fin 4} {lanes : BitVec 4} {s : State} (hk : Same m0 r0 s)
    (hw : sub 1048577 m0 = true) : SameRes m0 r0 (execCsiDeskewComplete port lanes s) := by
  unfold execCsiDeskewComplete
  try dsimp only
  repeat' first
    | with_reducible assumption
    | exact sub_trans rfl hw
    | intro _
    | with_reducible apply State.setFld_same
    | with_reducible apply State.showLanes_same
    | with_reducible apply State.modPort_same
    | with_reducible apply Same.ite
    | with_reducible apply Same.foldl
    | with_reducible apply Same.foldlFst
    | with_reducible apply SameRes.next
    | with_reducible apply SameRes.ite

theorem execCsiEmbeddedPacket_same {m0 : Nat} {r0 : State} {port : Fin 4} {vc : Fin 16} {hdr : CsiHeader} {crcOk : Bool}
    {data : List Byte} {s : State} (hk : Same m0 r0 s) (hw : sub 20054049 m0 = true) : SameRes m0 r0
    (execCsiEmbeddedPacket port vc hdr crcOk data s) := by
  unfold execCsiEmbeddedPacket
  try dsimp only
  repeat' first
    | with_reducible assumption
    | exact sub_trans rfl hw
    | intro _
    | with_reducible apply State.takeHeader_same
    | with_reducible apply State.rxDiscard_same
    | with_reducible apply State.abortInjection_same
    | with_reducible apply State.crcFailed_same
    | with_reducible apply State.touchFrame_same
    | with_reducible apply State.addCnt_same
    | with_reducible apply State.modCam_same
    | with_reducible apply State.draw_same
    | with_reducible apply State.raiseFrame_same
    | with_reducible apply Same.ite
    | with_reducible apply Same.foldl
    | with_reducible apply Same.foldlFst
    | with_reducible apply SameRes.next
    | with_reducible apply SameRes.ite
    | split

theorem execCsiFrameEnd_same {m0 : Nat} {r0 : State} {port : Fin 4} {vc : Fin 16} {s : State} (hk : Same m0 r0 s)
    (hw : sub 28512269 m0 = true) : SameRes m0 r0 (execCsiFrameEnd port vc s) := by
  unfold execCsiFrameEnd
  try dsimp only
  repeat' first
    | with_reducible assumption
    | exact sub_trans rfl hw
    | intro _
    | with_reducible apply State.rxDiscard_same
    | with_reducible apply State.closeFrame_same
    | with_reducible apply Same.ite
    | with_reducible apply Same.foldl
    | with_reducible apply Same.foldlFst
    | with_reducible apply SameRes.next
    | with_reducible apply SameRes.ite
    | split

theorem execCsiFrameStart_same {m0 : Nat} {r0 : State} {port : Fin 4} {vc : Fin 16} {s : State} (hk : Same m0 r0 s)
    (hw : sub 28512301 m0 = true) : SameRes m0 r0 (execCsiFrameStart port vc s) := by
  unfold execCsiFrameStart
  try dsimp only
  repeat' first
    | with_reducible assumption
    | exact sub_trans rfl hw
    | intro _
    | with_reducible apply State.rxDiscard_same
    | with_reducible apply State.settleOwed_same
    | with_reducible apply State.closeFrame_same
    | with_reducible apply State.abortInjection_same
    | with_reducible apply State.openFrame_same
    | with_reducible apply State.modCam_same
    | with_reducible apply State.openUncounted_same
    | with_reducible apply Same.ite
    | with_reducible apply Same.foldl
    | with_reducible apply Same.foldlFst
    | with_reducible apply SameRes.next
    | with_reducible apply SameRes.ite
    | split

theorem execCsiLongPacket_same {m0 : Nat} {r0 : State} {port : Fin 4} {vc : Fin 16} {dt : Byte} {hdr : CsiHeader}
    {crcOk : Bool} {data : List Byte} {fault : LineFault} {s : State} (hk : Same m0 r0 s) (hw : sub 301988877 m0 = true)
    : SameRes m0 r0 (execCsiLongPacket port vc dt hdr crcOk data fault s) := by
  unfold execCsiLongPacket
  try dsimp only
  repeat' first
    | with_reducible assumption
    | exact sub_trans rfl hw
    | intro _
    | with_reducible apply State.takeHeader_same
    | with_reducible apply State.rxDiscard_same
    | with_reducible apply State.abortInjection_same
    | with_reducible apply State.crcFailed_same
    | with_reducible apply State.touchFrame_same
    | with_reducible apply State.raiseFrame_same
    | with_reducible apply State.takeLine_same
    | with_reducible apply Same.ite
    | with_reducible apply Same.foldl
    | with_reducible apply Same.foldlFst
    | with_reducible apply SameRes.next
    | with_reducible apply SameRes.ite
    | split

theorem execFrameStallTimeout_same {m0 : Nat} {r0 : State} {stream : Fin 24} {s : State} (hk : Same m0 r0 s)
    (hw : sub 28512285 m0 = true) : SameRes m0 r0 (execFrameStallTimeout stream s) := by
  unfold execFrameStallTimeout
  try dsimp only
  repeat' first
    | with_reducible assumption
    | exact sub_trans rfl hw
    | intro _
    | with_reducible apply State.closeFrame_same
    | with_reducible apply State.reach_same
    | with_reducible apply Same.ite
    | with_reducible apply Same.foldl
    | with_reducible apply Same.foldlFst
    | with_reducible apply SameRes.next
    | with_reducible apply SameRes.ite
    | split

theorem execFsyncEdge_same {m0 : Nat} {r0 : State} {out : Fin 4} {s : State} (hk : Same m0 r0 s) (hw : sub 9637945 m0 = true)
    : SameRes m0 r0 (execFsyncEdge out s) := by
  unfold execFsyncEdge
  try dsimp only
  repeat' first
    | with_reducible assumption
    | exact sub_trans rfl hw
    | intro _
    | with_reducible apply State.reach_same
    | with_reducible apply State.modFsync_same
    | with_reducible apply State.log_same
    | with_reducible apply State.setReg_same
    | with_reducible apply State.settleOwed_same
    | with_reducible apply State.pulseAt_same
    | with_reducible apply Same.ite
    | with_reducible apply Same.foldl
    | with_reducible apply Same.foldlFst
    | with_reducible apply SameRes.next
    | with_reducible apply SameRes.ite
    | split

theorem execI3cBatchCopyDone_same {m0 : Nat} {r0 : State} {bus : Fin 4} {s : State} (hk : Same m0 r0 s)
    (hw : sub 1048577 m0 = true) : SameRes m0 r0 (execI3cBatchCopyDone bus s) := by
  unfold execI3cBatchCopyDone
  try dsimp only
  repeat' first
    | with_reducible assumption
    | exact sub_trans rfl hw
    | intro _
    | with_reducible apply State.copyDone_same
    | with_reducible apply Same.ite
    | with_reducible apply Same.foldl
    | with_reducible apply Same.foldlFst
    | with_reducible apply SameRes.next

theorem execIbiReceived_same {m0 : Nat} {r0 : State} {bus : Fin 4} {s : State} (hk : Same m0 r0 s)
    (hw : sub 1048577 m0 = true) : SameRes m0 r0 (execIbiReceived bus s) := by
  unfold execIbiReceived
  have b20 : sub 1048576 m0 = true := sub_trans rfl hw
  extract_lets a0 a1
  try clear_value a0
  have k1 : Same m0 r0 a1
  on_goal 1 => unfold a1
  rotate_left
  clear_value a1
  all_goals repeat' first
    | with_reducible assumption
    | exact sub_trans rfl hw
    | intro _
    | with_reducible apply State.event_same
    | with_reducible apply Same.ite
    | with_reducible apply Same.foldl
    | with_reducible apply Same.foldlFst
    | fail_if_no_progress with_reducible refine Same.upd_20 ?_ b20
    | with_reducible apply SameRes.next

theorem execLaneFailing_same {m0 : Nat} {r0 : State} {port : Fin 4} {mask : BitVec 4} {s : State} (hk : Same m0 r0 s)
    (hw : sub 301988877 m0 = true) : SameRes m0 r0 (execLaneFailing port mask s) := by
  unfold execLaneFailing
  have b10 : sub 1024 m0 = true := sub_trans rfl hw
  extract_lets a0 a1 a2 a3 a4 a5 a6 a7 a8
  try clear_value a0
  try clear_value a1
  try clear_value a2
  have k3 : Same m0 r0 a3
  on_goal 1 => unfold a3
  rotate_left
  clear_value a3
  try clear_value a4
  have k5 : Same m0 r0 a5
  on_goal 1 => unfold a5
  rotate_left
  clear_value a5
  try clear_value a6
  try clear_value a7
  try clear_value a8
  all_goals repeat' first
    | with_reducible assumption
    | exact sub_trans rfl hw
    | intro _
    | with_reducible apply State.showLanes_same
    | with_reducible apply State.modPort_same
    | with_reducible apply State.closeFrame_same
    | with_reducible apply State.setFld_same
    | with_reducible apply State.fence_same
    | with_reducible apply Same.ite
    | with_reducible apply Same.foldl
    | with_reducible apply Same.foldlFst
    | fail_if_no_progress with_reducible refine Same.upd_10 ?_ b10
    | with_reducible apply SameRes.next
    | with_reducible apply SameRes.ite
    | split
    | dsimp only

theorem execLaneReductionDone_same {m0 : Nat} {r0 : State} {port : Fin 4} {pass : Bool} {s : State} (hk : Same m0 r0 s)
    (hw : sub 301988873 m0 = true) : SameRes m0 r0 (execLaneReductionDone port pass s) := by
  unfold execLaneReductionDone
  have b10 : sub 1024 m0 = true := sub_trans rfl hw
  extract_lets a0 a1 a2 a3 a4 a5 a6 a7
  try clear_value a0
  try clear_value a1
  try clear_value a2
  try clear_value a3
  have k4 : Same m0 r0 a4
  on_goal 1 => unfold a4
  rotate_left
  clear_value a4
  have k5 : Same m0 r0 a5
  on_goal 1 => unfold a5
  rotate_left
  clear_value a5
  try clear_value a6
  have k7 : Same m0 r0 a7
  on_goal 1 => unfold a7
  rotate_left
  clear_value a7
  all_goals repeat' first
    | with_reducible assumption
    | exact sub_trans rfl hw
    | intro _
    | with_reducible apply State.modPort_same
    | with_reducible apply State.setFld_same
    | with_reducible apply State.showLanes_same
    | with_reducible apply State.log_same
    | with_reducible apply State.fence_same
    | with_reducible apply Same.ite
    | with_reducible apply Same.foldl
    | with_reducible apply Same.foldlFst
    | fail_if_no_progress with_reducible refine Same.upd_10 ?_ b10
    | with_reducible apply SameRes.next
    | with_reducible apply SameRes.ite

theorem execMissedFrame_same {m0 : Nat} {r0 : State} {stream : Fin 24} {s : State} (hk : Same m0 r0 s)
    (hw : sub 9637945 m0 = true) : SameRes m0 r0 (execMissedFrame stream s) := by
  unfold execMissedFrame
  try dsimp only
  repeat' first
    | with_reducible assumption
    | exact sub_trans rfl hw
    | intro _
    | with_reducible apply State.recordMissed_same
    | with_reducible apply State.modCam_same
    | with_reducible apply State.reach_same
    | with_reducible apply Same.ite
    | with_reducible apply Same.foldl
    | with_reducible apply Same.foldlFst
    | with_reducible apply SameRes.next
    | with_reducible apply SameRes.ite
    | split

theorem execTinderInjectionDone_same {m0 : Nat} {r0 : State} {pipe : Fin 4} {s : State} (hk : Same m0 r0 s)
    (hw : sub 18874369 m0 = true) : SameRes m0 r0 (execTinderInjectionDone pipe s) := by
  unfold execTinderInjectionDone
  extract_lets a0 a1 a2
  try clear_value a0
  have k1 : Same m0 r0 a1
  on_goal 1 => unfold a1
  rotate_left
  clear_value a1
  have k2 : Same m0 r0 a2
  on_goal 1 => unfold a2
  rotate_left
  clear_value a2
  all_goals repeat' first
    | with_reducible assumption
    | exact sub_trans rfl hw
    | intro _
    | with_reducible apply State.modPipe_same
    | with_reducible apply State.addCnt_same
    | with_reducible apply State.addFld_same
    | with_reducible apply State.showPipe_same
    | with_reducible apply State.tapStream_same
    | with_reducible apply Same.ite
    | with_reducible apply Same.foldl
    | with_reducible apply Same.foldlFst
    | with_reducible apply SameRes.next
    | with_reducible apply SameRes.ite
    | split

/-! ### Machine/Ember.lean -/

theorem State.setHealth_same {m0 : Nat} {r0 : State} {s : State} {new : Nat} {why : Nat} (hk : Same m0 r0 s)
    (hw : sub 196609 m0 = true) : Same m0 r0 (State.setHealth s new why) := by
  unfold State.setHealth
  extract_lets a0 a1 a2
  try clear_value a0
  have k1 : Same m0 r0 a1
  on_goal 1 => unfold a1
  rotate_left
  clear_value a1
  have k2 : Same m0 r0 a2
  on_goal 1 => unfold a2
  rotate_left
  clear_value a2
  all_goals repeat' first
    | with_reducible assumption
    | exact sub_trans rfl hw
    | intro _
    | with_reducible apply State.log_same
    | with_reducible apply State.event_same
    | with_reducible apply State.setFld_same
    | with_reducible apply State.modEmber_same
    | with_reducible apply Same.ite

theorem State.tryRecover_same {m0 : Nat} {r0 : State} {s : State} (hk : Same m0 r0 s) (hw : sub 196609 m0 = true) : Same m0 r0
    (State.tryRecover s) := by
  unfold State.tryRecover
  try dsimp only
  repeat' first
    | with_reducible assumption
    | exact sub_trans rfl hw
    | intro _
    | with_reducible apply State.setHealth_same
    | with_reducible apply Same.ite

theorem State.judgeEmber_same {m0 : Nat} {r0 : State} {s : State} {bad : Bool} (hk : Same m0 r0 s) (hw : sub 458753 m0 = true)
    : Same m0 r0 (State.judgeEmber s bad) := by
  unfold State.judgeEmber
  have b18 : sub 262144 m0 = true := sub_trans rfl hw
  extract_lets a0 a1 a2 a3 a4 a5
  try clear_value a0
  have k1 : Same m0 r0 a1
  on_goal 1 => unfold a1
  rotate_left
  clear_value a1
  have k2 : Same m0 r0 a2
  on_goal 1 => unfold a2
  rotate_left
  clear_value a2
  have k3 : Same m0 r0 a3
  on_goal 1 => unfold a3
  rotate_left
  clear_value a3
  try clear_value a4
  have k5 : Same m0 r0 a5
  on_goal 1 => unfold a5
  rotate_left
  clear_value a5
  all_goals repeat' first
    | with_reducible assumption
    | exact sub_trans rfl hw
    | intro _
    | with_reducible apply State.addFld_same
    | with_reducible apply State.setFld_same
    | with_reducible apply State.modEmber_same
    | with_reducible apply State.setHealth_same
    | with_reducible apply State.severe_same
    | with_reducible apply State.tryRecover_same
    | with_reducible apply Same.ite
    | with_reducible apply Same.foldl
    | with_reducible apply Same.foldlFst
    | fail_if_no_progress with_reducible refine Same.upd_18 ?_ b18

theorem State.nextMsg?_same {m0 : Nat} {r0 : State} {s : State} (hk : Same m0 r0 s) (hw : sub 131072 m0 = true) : ∀
    {p t}, State.nextMsg? s = some (p, t) → Same m0 r0 t := by
  intro p t e
  unfold State.nextMsg? at e
  extract_lets a0 a1 at e
  have h0 : ∀ q, a0 = some q → Same m0 r0 q.2 := by
    intro q hq
    simp only [a0, Option.map_eq_some_iff] at hq
    obtain ⟨_, -, rfl⟩ := hq
    dsimp only
    exact State.modEmber_same hk (sub_trans rfl hw)
  have h1 : ∀ q, a1 = some q → Same m0 r0 q.2 := by
    intro q hq
    simp only [a1, Option.map_eq_some_iff] at hq
    obtain ⟨_, -, rfl⟩ := hq
    dsimp only
    exact State.modEmber_same hk (sub_trans rfl hw)
  clear_value a0 a1
  split at e
  · split at e
    · cases e; exact h1 _ rfl
    · cases e; exact h0 _ rfl
  · cases e; exact h0 _ rfl
  · exact h1 _ e

theorem execEmberMessageReady_same {m0 : Nat} {r0 : State} {s : State} (hk : Same m0 r0 s) (hw : sub 4653057 m0 = true)
    : SameRes m0 r0 (execEmberMessageReady s) := by
  unfold execEmberMessageReady
  try dsimp only
  repeat' first
    | with_reducible assumption
    | exact sub_trans rfl hw
    | intro _
    | with_reducible apply State.judgeEmber_same
    | with_reducible apply State.handEmber_same
    | with_reducible apply State.modSel_same
    | with_reducible apply Same.ite
    | with_reducible apply Same.foldl
    | with_reducible apply Same.foldlFst
    | with_reducible apply SameRes.next
    | with_reducible apply SameRes.ite
    | split
    | dsimp only
    | (with_reducible apply State.nextMsg?_same; rotate_left; rotate_left; with_reducible assumption)

theorem execEmberPairWindowExpiry_same {m0 : Nat} {r0 : State} {s : State} (hk : Same m0 r0 s) (hw : sub 131088 m0 = true)
    : SameRes m0 r0 (execEmberPairWindowExpiry s) := by
  unfold execEmberPairWindowExpiry
  try dsimp only
  repeat' first
    | with_reducible assumption
    | exact sub_trans rfl hw
    | intro _
    | with_reducible apply State.modEmber_same
    | with_reducible apply State.reach_same
    | with_reducible apply Same.ite
    | with_reducible apply Same.foldl
    | with_reducible apply Same.foldlFst
    | with_reducible apply SameRes.next
    | with_reducible apply SameRes.ite
    | split

theorem execEmberSelfTest_same {m0 : Nat} {r0 : State} {pass : Bool} {s : State} (hk : Same m0 r0 s)
    (hw : sub 196609 m0 = true) : SameRes m0 r0 (execEmberSelfTest pass s) := by
  unfold execEmberSelfTest
  extract_lets a0
  have k0 : Same m0 r0 a0
  on_goal 1 => unfold a0
  rotate_left
  clear_value a0
  all_goals repeat' first
    | with_reducible assumption
    | exact sub_trans rfl hw
    | intro _
    | with_reducible apply State.tryRecover_same
    | with_reducible apply State.modEmber_same
    | with_reducible apply State.setHealth_same
    | with_reducible apply Same.ite
    | with_reducible apply Same.foldl
    | with_reducible apply Same.foldlFst
    | with_reducible apply SameRes.next
    | with_reducible apply SameRes.ite

/-! ### Machine/Isp.lean -/

theorem State.bandDone_same {m0 : Nat} {r0 : State} {s : State} {pipe : Nat} {f : PipeFrame} {idx : Nat} {k : Nat} {b : Nat}
    {flagged : Bool} (hk : Same m0 r0 s) (hw : sub 10555401 m0 = true) : Same m0 r0
    (State.bandDone s pipe f idx k b flagged) := by
  unfold State.bandDone
  extract_lets a0 a1 a2
  have k0 : Same m0 r0 a0
  on_goal 1 => unfold a0
  rotate_left
  clear_value a0
  have k1 : Same m0 r0 a1
  on_goal 1 => unfold a1
  rotate_left
  clear_value a1
  have k2 : Same m0 r0 a2
  on_goal 1 => unfold a2
  rotate_left
  clear_value a2
  all_goals repeat' first
    | with_reducible assumption
    | exact sub_trans rfl hw
    | intro _
    | with_reducible apply State.releaseBand_same
    | with_reducible apply State.modFrame_same
    | with_reducible apply State.beginNext_same
    | with_reducible apply State.endFrame_same
    | with_reducible apply Same.ite

theorem execIspUpdGo_same {m0 : Nat} {r0 : State} {pipe : Fin 4} {bank : Fin 5} {domain : BitVec 4} {value : Word} {s : State}
    (hk : Same m0 r0 s) (hw : sub 2097153 m0 = true) : SameRes m0 r0 (execIspUpdGo pipe bank domain value s) := by
  unfold execIspUpdGo
  extract_lets a0 a1 a2 a3 a4 a5 a6 a7 a8 a9 a10 a11 a12 a13 a14 a15 a16 a17
  try clear_value a0
  try clear_value a1
  try clear_value a2
  try clear_value a3
  try clear_value a4
  try clear_value a5
  try clear_value a6
  try clear_value a7
  try clear_value a8
  try clear_value a9
  try clear_value a10
  try clear_value a11
  try clear_value a12
  try clear_value a13
  try clear_value a14
  try clear_value a15
  have k16 : Same m0 r0 a16
  on_goal 1 => unfold a16
  rotate_left
  clear_value a16
  try clear_value a17
  all_goals repeat' first
    | with_reducible assumption
    | exact sub_trans rfl hw
    | intro _
    | with_reducible apply State.setFld_same
    | with_reducible apply State.event_same
    | with_reducible apply State.modPipe_same
    | with_reducible apply State.setFlag_same
    | with_reducible apply Same.ite
    | with_reducible apply Same.foldl
    | with_reducible apply Same.foldlFst
    | with_reducible apply SameRes.next
    | with_reducible apply SameRes.ite

theorem execIspBandRelease_same {m0 : Nat} {r0 : State} {stream : Fin 24} {out : Fin 3} {band : Half} {s : State} (hk
    : Same m0 r0 s) (hw : sub 10555405 m0 = true) : SameRes m0 r0 (execIspBandRelease stream out band s) := by
  unfold execIspBandRelease
  try dsimp only
  repeat' first
    | with_reducible assumption
    | exact sub_trans rfl hw
    | intro _
    | with_reducible apply State.beginBand_same
    | with_reducible apply State.endFrame_same
    | with_reducible apply State.store_same
    | with_reducible apply State.bandDone_same
    | with_reducible apply Same.ite
    | with_reducible apply Same.foldl
    | with_reducible apply Same.foldlFst
    | with_reducible apply SameRes.next
    | with_reducible apply SameRes.ite
    | split

theorem execIspStagedFrameStart_same {m0 : Nat} {r0 : State} {pipe : Fin 4} {badLines : List Nat} {parityAt : Option Nat}
    {s : State} (hk : Same m0 r0 s) (hw : sub 301988873 m0 = true) : SameRes m0 r0
    (execIspStagedFrameStart pipe badLines parityAt s) := by
  unfold execIspStagedFrameStart
  try dsimp only
  repeat' first
    | with_reducible assumption
    | exact sub_trans rfl hw
    | intro _
    | with_reducible apply State.eccUncorrected_same
    | with_reducible apply State.modPipe_same
    | with_reducible apply State.startFrame_same
    | with_reducible apply State.modFrame_same
    | with_reducible apply State.ispParity_same
    | with_reducible apply State.showPipe_same
    | with_reducible apply State.endFrame_same
    | with_reducible apply State.beginNext_same
    | with_reducible apply Same.ite
    | with_reducible apply Same.foldl
    | with_reducible apply Same.foldlFst
    | with_reducible apply SameRes.next
    | with_reducible apply SameRes.ite
    | split

theorem execIspStatsRelease_same {m0 : Nat} {r0 : State} {stream : Fin 24} {s : State} (hk : Same m0 r0 s)
    (hw : sub 10555405 m0 = true) : SameRes m0 r0 (execIspStatsRelease stream s) := by
  unfold execIspStatsRelease
  try dsimp only
  repeat' first
    | with_reducible assumption
    | exact sub_trans rfl hw
    | intro _
    | with_reducible apply State.beginBand_same
    | with_reducible apply State.endFrame_same
    | with_reducible apply State.store_same
    | with_reducible apply State.bandDone_same
    | with_reducible apply Same.ite
    | with_reducible apply Same.foldl
    | with_reducible apply Same.foldlFst
    | with_reducible apply SameRes.next
    | with_reducible apply SameRes.ite
    | split

theorem execIspUpdCopyDone_same {m0 : Nat} {r0 : State} {pipe : Fin 4} {s : State} (hk : Same m0 r0 s)
    (hw : sub 2097153 m0 = true) : SameRes m0 r0 (execIspUpdCopyDone pipe s) := by
  unfold execIspUpdCopyDone
  try dsimp only
  repeat' first
    | with_reducible assumption
    | exact sub_trans rfl hw
    | intro _
    | with_reducible apply State.setFlag_same
    | with_reducible apply State.modPipe_same
    | with_reducible apply State.modBank_same
    | with_reducible apply State.addFld_same
    | with_reducible apply Same.ite
    | with_reducible apply Same.foldl
    | with_reducible apply Same.foldlFst
    | with_reducible apply SameRes.next
    | with_reducible apply SameRes.ite
    | split

/-! ### Machine/Links.lean -/

theorem State.answered_same {m0 : Nat} {r0 : State} {s : State} {id : Nat} {code : Nat} (hk : Same m0 r0 s)
    (hw : sub 8769545 m0 = true) : Same m0 r0 (State.answered s id code) := by
  unfold State.answered
  try dsimp only
  repeat' first
    | with_reducible assumption
    | exact sub_trans rfl hw
    | intro _
    | with_reducible apply State.tryRelease_same
    | with_reducible apply State.refuseRelease_same
    | with_reducible apply State.releaseBand_same
    | with_reducible apply State.refuseBand_same
    | with_reducible apply Same.ite
    | with_reducible apply Same.foldl
    | with_reducible apply Same.foldlFst
    | split

theorem State.commitShadows_same {m0 : Nat} {r0 : State} {s : State} {lo : Nat} {hi : Nat} (hk : Same m0 r0 s)
    (hw : sub 3 m0 = true) : Same m0 r0 (State.commitShadows s lo hi) := by
  unfold State.commitShadows
  have b1 : sub 2 m0 = true := sub_trans rfl hw
  extract_lets a0 a1 a2
  try clear_value a0
  try clear_value a1
  have k2 : Same m0 r0 a2
  on_goal 1 => unfold a2
  rotate_left
  clear_value a2
  all_goals repeat' first
    | with_reducible assumption
    | exact sub_trans rfl hw
    | intro _
    | with_reducible apply State.setReg_same
    | with_reducible apply Same.ite
    | with_reducible apply Same.foldl
    | with_reducible apply Same.foldlFst
    | fail_if_no_progress with_reducible refine Same.upd_1 ?_ b1

theorem State.drainAllAbsent_same {m0 : Nat} {r0 : State} {s : State} (hk : Same m0 r0 s) (hw : sub 4104 m0 = true)
    : Same m0 r0 (State.drainAllAbsent s) := by
  unfold State.drainAllAbsent
  try dsimp only
  repeat' first
    | with_reducible assumption
    | exact sub_trans rfl hw
    | intro _
    | with_reducible apply State.drainAbsent_same
    | with_reducible apply Same.ite
    | with_reducible apply Same.foldl

theorem State.drainFor_same {m0 : Nat} {r0 : State} {s : State} {e : Nat} {flag : Nat} (hk : Same m0 r0 s)
    (hw : sub 4104 m0 = true) : Same m0 r0 (State.drainFor s e flag) := by
  unfold State.drainFor
  try dsimp only
  repeat' first
    | with_reducible assumption
    | exact sub_trans rfl hw
    | intro _
    | with_reducible apply State.setRing_same
    | with_reducible apply State.modFlag_same
    | with_reducible apply Same.ite
    | with_reducible apply Same.foldl
    | with_reducible apply Same.foldlFst
    | split

theorem State.modGml_same {m0 : Nat} {r0 : State} {s : State} {f : Gml → Gml} (hk : Same m0 r0 s) (hw : sub 8388608 m0 = true)
    : Same m0 r0 (State.modGml s f) := by
  unfold State.modGml
  have b23 : sub 8388608 m0 = true := sub_trans rfl hw
  try dsimp only
  repeat' first
    | with_reducible assumption
    | exact sub_trans rfl hw
    | intro _
    | with_reducible apply Same.ite
    | with_reducible apply Same.foldl
    | with_reducible apply Same.foldlFst
    | fail_if_no_progress with_reducible refine Same.upd_23 ?_ b23

theorem State.hear_same {m0 : Nat} {r0 : State} {s : State} {e : Nat} (hk : Same m0 r0 s) (hw : sub 8388609 m0 = true)
    : Same m0 r0 (State.hear s e) := by
  unfold State.hear
  extract_lets a0
  have k0 : Same m0 r0 a0
  on_goal 1 => unfold a0
  rotate_left
  clear_value a0
  all_goals repeat' first
    | with_reducible assumption
    | exact sub_trans rfl hw
    | intro _
    | with_reducible apply State.modGml_same
    | with_reducible apply State.event_same
    | with_reducible apply State.setFlag_same
    | with_reducible apply Same.ite

theorem State.setLink_same {m0 : Nat} {r0 : State} {s : State} {k : Nat} {st : Nat} (hk : Same m0 r0 s) (hw : sub 1 m0 = true)
    : Same m0 r0 (State.setLink s k st) := by
  unfold State.setLink
  try dsimp only
  repeat' first
    | with_reducible assumption
    | exact sub_trans rfl hw
    | intro _
    | with_reducible apply State.setFld_same

theorem State.linkDown_same {m0 : Nat} {r0 : State} {s : State} {k : Nat} (hk : Same m0 r0 s) (hw : sub 301988873 m0 = true)
    : Same m0 r0 (State.linkDown s k) := by
  unfold State.linkDown
  extract_lets a0 a1
  have k0 : Same m0 r0 a0
  on_goal 1 => unfold a0
  rotate_left
  clear_value a0
  have k1 : Same m0 r0 a1
  on_goal 1 => unfold a1
  rotate_left
  clear_value a1
  all_goals repeat' first
    | with_reducible assumption
    | exact sub_trans rfl hw
    | intro _
    | with_reducible apply State.event_same
    | with_reducible apply State.setLink_same
    | with_reducible apply State.failLink_same
    | with_reducible apply State.refreshActive_same
    | with_reducible apply State.recur_same

theorem State.partnerGoes_same {m0 : Nat} {r0 : State} {s : State} {e : Nat} {why : Nat} (hk : Same m0 r0 s)
    (hw : sub 33028105 m0 = true) : Same m0 r0 (State.partnerGoes s e why) := by
  unfold State.partnerGoes
  have b11 : sub 2048 m0 = true := sub_trans rfl hw
  extract_lets a0 a1 a2 a3 a4 a5 a6
  try clear_value a0
  have k1 : Same m0 r0 a1
  on_goal 1 => unfold a1
  rotate_left
  clear_value a1
  have k2 : Same m0 r0 a2
  on_goal 1 => unfold a2
  rotate_left
  clear_value a2
  have k3 : Same m0 r0 a3
  on_goal 1 => unfold a3
  rotate_left
  clear_value a3
  have k4 : Same m0 r0 a4
  on_goal 1 => unfold a4
  rotate_left
  clear_value a4
  try clear_value a5
  have k6 : Same m0 r0 a6
  on_goal 1 => unfold a6
  rotate_left
  clear_value a6
  all_goals repeat' first
    | with_reducible assumption
    | exact sub_trans rfl hw
    | intro _
    | with_reducible apply State.log_same
    | with_reducible apply State.doubt_same
    | with_reducible apply State.setFlag_same
    | with_reducible apply State.drainAllAbsent_same
    | with_reducible apply State.takeover_same
    | with_reducible apply State.fenceScene_same
    | with_reducible apply Same.ite
    | with_reducible apply Same.foldl
    | with_reducible apply Same.foldlFst
    | fail_if_no_progress with_reducible refine Same.upd_11 ?_ b11
    | split

theorem State.losePartner_same {m0 : Nat} {r0 : State} {s : State} {e : Nat} (hk : Same m0 r0 s) (hw : sub 33028105 m0 = true)
    : Same m0 r0 (State.losePartner s e) := by
  unfold State.losePartner
  extract_lets a0
  have k0 : Same m0 r0 a0
  on_goal 1 => unfold a0
  rotate_left
  clear_value a0
  all_goals repeat' first
    | with_reducible assumption
    | exact sub_trans rfl hw
    | intro _
    | with_reducible apply State.setFlag_same
    | with_reducible apply State.partnerGoes_same
    | with_reducible apply State.event_same
    | with_reducible apply Same.ite

theorem State.respond_same {m0 : Nat} {r0 : State} {s : State} {e : Fin 4} {tag : Nat} {addr : Nat} {err : Bool}
    {data : List Byte} (hk : Same m0 r0 s) (hw : sub 8388609 m0 = true) : Same m0 r0
    (State.respond s e tag addr err data) := by
  unfold State.respond
  try dsimp only
  repeat' first
    | with_reducible assumption
    | exact sub_trans rfl hw
    | intro _
    | with_reducible apply State.sendTo_same

theorem State.takeToken_same {m0 : Nat} {r0 : State} {s : State} {t : Token} (hk : Same m0 r0 s) (hw : sub 8392704 m0 = true)
    : Same m0 r0 (State.takeToken s t) := by
  unfold State.takeToken
  have b12 : sub 4096 m0 = true := sub_trans rfl hw
  extract_lets a0 a1 a2 a3
  try clear_value a0
  try clear_value a1
  have k2 : Same m0 r0 a2
  on_goal 1 => unfold a2
  rotate_left
  clear_value a2
  try clear_value a3
  all_goals repeat' first
    | with_reducible assumption
    | exact sub_trans rfl hw
    | intro _
    | with_reducible apply State.modGml_same
    | with_reducible apply Same.ite
    | with_reducible apply Same.foldl
    | with_reducible apply Same.foldlFst
    | fail_if_no_progress with_reducible refine Same.upd_12 ?_ b12

theorem State.takeResponse_same {m0 : Nat} {r0 : State} {s : State} {tag : Nat} {err : Bool} {data : List Byte} (hk
    : Same m0 r0 s) (hw : sub 8388608 m0 = true) : Same m0 r0 (State.takeResponse s tag err data) := by
  unfold State.takeResponse
  try dsimp only
  repeat' first
    | with_reducible assumption
    | exact sub_trans rfl hw
    | intro _
    | with_reducible apply State.modGml_same
    | with_reducible apply Same.ite
    | with_reducible apply Same.foldl
    | with_reducible apply Same.foldlFst
    | split

theorem State.timePacket_same {m0 : Nat} {r0 : State} {s : State} {k : Nat} {src : Nat} {locked : Bool} {root : Nat}
    {hops : Nat} {path : Nat} (hk : Same m0 r0 s) (hw : sub 8388609 m0 = true) : Same m0 r0
    (State.timePacket s k src locked root hops path) := by
  unfold State.timePacket
  extract_lets a0 a1 a2
  have k0 : Same m0 r0 a0
  on_goal 1 => unfold a0
  rotate_left
  clear_value a0
  try clear_value a1
  try clear_value a2
  all_goals repeat' first
    | with_reducible assumption
    | exact sub_trans rfl hw
    | intro _
    | with_reducible apply State.modLink_same
    | with_reducible apply State.setFlag_same
    | with_reducible apply State.setFld_same

theorem State.takePacket_same {m0 : Nat} {r0 : State} {s : State} {k : Nat} {p : GmlPkt} (hk : Same m0 r0 s)
    (hw : sub 33028105 m0 = true) : Same m0 r0 (State.takePacket s k p) := by
  unfold State.takePacket
  extract_lets a0
  have k0 : Same m0 r0 a0
  on_goal 1 => unfold a0
  rotate_left
  clear_value a0
  all_goals repeat' first
    | with_reducible assumption
    | exact sub_trans rfl hw
    | intro _
    | with_reducible apply State.hear_same
    | with_reducible apply State.sendOn_same
    | with_reducible apply State.takeToken_same
    | with_reducible apply State.takeResponse_same
    | with_reducible apply State.modJournal_same
    | with_reducible apply State.modLink_same
    | with_reducible apply State.refreshActive_same
    | with_reducible apply State.modGml_same
    | with_reducible apply State.losePartner_same
    | with_reducible apply State.timePacket_same
    | with_reducible apply Same.ite
    | with_reducible apply Same.foldl
    | with_reducible apply Same.foldlFst
    | split

theorem State.takeRx_same {m0 : Nat} {r0 : State} {s : State} {k : Nat} {want : GmlPkt → Bool} (hk : Same m0 r0 s)
    (hw : sub 8388608 m0 = true) : ∀ {p t}, State.takeRx s k want = some (p, t) → Same m0 r0 t := by
  intro p t e
  simp only [State.takeRx, Option.map_eq_some_iff] at e
  obtain ⟨_, -, e⟩ := e
  cases e
  exact State.modLink_same hk (sub_trans rfl hw)

theorem State.yieldStreams_same {m0 : Nat} {r0 : State} {s : State} (hk : Same m0 r0 s) (hw : sub 3212289 m0 = true)
    : Same m0 r0 (State.yieldStreams s) := by
  unfold State.yieldStreams
  try dsimp only
  repeat' first
    | with_reducible assumption
    | exact sub_trans rfl hw
    | intro _
    | with_reducible apply State.markAbsent_same
    | with_reducible apply Same.ite
    | with_reducible apply Same.foldl

theorem execDrain_same {m0 : Nat} {r0 : State} {link : Fin 3} {s : State} (hk : Same m0 r0 s) (hw : sub 8392712 m0 = true)
    : SameRes m0 r0 (execDrain link s) := by
  unfold execDrain
  try dsimp only
  repeat' first
    | with_reducible assumption
    | exact sub_trans rfl hw
    | intro _
    | with_reducible apply State.drainFor_same
    | with_reducible apply Same.ite
    | with_reducible apply Same.foldl
    | with_reducible apply Same.foldlFst
    | with_reducible apply SameRes.next
    | with_reducible apply SameRes.ite
    | split
    | dsimp only
    | (with_reducible apply State.takeRx_same; rotate_left; rotate_left; with_reducible assumption)

theorem execGmlFlitRx_same {m0 : Nat} {r0 : State} {link : Fin 3} {seq : BitVec 12} {ack : BitVec 12} {crcOk : Bool}
    {packets : List GmlPkt} {s : State} (hk : Same m0 r0 s) (hw : sub 33028105 m0 = true) : SameRes m0 r0
    (execGmlFlitRx link seq ack crcOk packets s) := by
  unfold execGmlFlitRx
  extract_lets a0 a1 a2 a3 a4 a5
  try clear_value a0
  have k1 : Same m0 r0 a1
  on_goal 1 => unfold a1
  rotate_left
  clear_value a1
  have k2 : Same m0 r0 a2
  on_goal 1 => unfold a2
  rotate_left
  clear_value a2
  have k3 : Same m0 r0 a3
  on_goal 1 => unfold a3
  rotate_left
  clear_value a3
  have k4 : Same m0 r0 a4
  on_goal 1 => unfold a4
  rotate_left
  clear_value a4
  have k5 : Same m0 r0 a5
  on_goal 1 => unfold a5
  rotate_left
  clear_value a5
  all_goals repeat' first
    | with_reducible assumption
    | exact sub_trans rfl hw
    | intro _
    | with_reducible apply State.modLink_same
    | with_reducible apply State.addCnt_same
    | with_reducible apply State.event_same
    | with_reducible apply State.countFlit_same
    | with_reducible apply State.takePacket_same
    | with_reducible apply Same.ite
    | with_reducible apply Same.foldl
    | with_reducible apply Same.foldlFst
    | with_reducible apply SameRes.next
    | with_reducible apply SameRes.ite

theorem execGmlHeartbeatSend_same {m0 : Nat} {r0 : State} {s : State} (hk : Same m0 r0 s) (hw : sub 8454147 m0 = true)
    : SameRes m0 r0 (execGmlHeartbeatSend s) := by
  unfold execGmlHeartbeatSend
  extract_lets a0 a1
  have k0 : Same m0 r0 a0
  on_goal 1 => unfold a0
  rotate_left
  clear_value a0
  have k1 : Same m0 r0 a1
  on_goal 1 => unfold a1
  rotate_left
  clear_value a1
  all_goals repeat' first
    | with_reducible assumption
    | exact sub_trans rfl hw
    | intro _
    | with_reducible apply State.refreshActive_same
    | with_reducible apply State.commitShadows_same
    | with_reducible apply State.sendOn_same
    | with_reducible apply State.forwardRecords_same
    | with_reducible apply Same.ite
    | with_reducible apply Same.foldl
    | with_reducible apply Same.foldlFst
    | with_reducible apply SameRes.next

theorem execGmlNakRx_same {m0 : Nat} {r0 : State} {link : Fin 3} {seq : BitVec 12} {s : State} (hk : Same m0 r0 s)
    (hw : sub 301988873 m0 = true) : SameRes m0 r0 (execGmlNakRx link seq s) := by
  unfold execGmlNakRx
  extract_lets a0 a1 a2 a3 a4 a5
  try clear_value a0
  try clear_value a1
  have k2 : Same m0 r0 a2
  on_goal 1 => unfold a2
  rotate_left
  clear_value a2
  try clear_value a3
  try clear_value a4
  have k5 : Same m0 r0 a5
  on_goal 1 => unfold a5
  rotate_left
  clear_value a5
  all_goals repeat' first
    | with_reducible assumption
    | exact sub_trans rfl hw
    | intro _
    | with_reducible apply State.addCnt_same
    | with_reducible apply State.modLink_same
    | with_reducible apply State.recur_same
    | with_reducible apply State.event_same
    | with_reducible apply Same.ite
    | with_reducible apply Same.foldl
    | with_reducible apply Same.foldlFst
    | with_reducible apply SameRes.next
    | with_reducible apply SameRes.ite

theorem execGmlRetrainDone_same {m0 : Nat} {r0 : State} {link : Fin 3} {lanes : BitVec 8} {s : State} (hk : Same m0 r0 s)
    (hw : sub 301988873 m0 = true) : SameRes m0 r0 (execGmlRetrainDone link lanes s) := by
  unfold execGmlRetrainDone
  try dsimp only
  repeat' first
    | with_reducible assumption
    | exact sub_trans rfl hw
    | intro _
    | with_reducible apply State.linkDown_same
    | with_reducible apply State.event_same
    | with_reducible apply State.modLink_same
    | with_reducible apply State.setLink_same
    | with_reducible apply State.setFld_same
    | with_reducible apply Same.ite
    | with_reducible apply Same.foldl
    | with_reducible apply Same.foldlFst
    | with_reducible apply SameRes.next
    | with_reducible apply SameRes.ite
    | split

theorem execGmlRetrainStart_same {m0 : Nat} {r0 : State} {link : Fin 3} {s : State} (hk : Same m0 r0 s)
    (hw : sub 17 m0 = true) : SameRes m0 r0 (execGmlRetrainStart link s) := by
  unfold execGmlRetrainStart
  extract_lets a0 a1 a2 a3
  try clear_value a0
  try clear_value a1
  have k2 : Same m0 r0 a2
  on_goal 1 => unfold a2
  rotate_left
  clear_value a2
  have k3 : Same m0 r0 a3
  on_goal 1 => unfold a3
  rotate_left
  clear_value a3
  all_goals repeat' first
    | with_reducible assumption
    | exact sub_trans rfl hw
    | intro _
    | with_reducible apply State.reach_same
    | with_reducible apply State.addCnt_same
    | with_reducible apply State.event_same
    | with_reducible apply State.setLink_same
    | with_reducible apply Same.ite
    | with_reducible apply Same.foldl
    | with_reducible apply Same.foldlFst
    | with_reducible apply SameRes.next
    | with_reducible apply SameRes.ite

theorem execGmlRetryTimer_same {m0 : Nat} {r0 : State} {link : Fin 3} {s : State} (hk : Same m0 r0 s) (hw : sub 1 m0 = true)
    : SameRes m0 r0 (execGmlRetryTimer link s) := by
  unfold execGmlRetryTimer
  try dsimp only
  repeat' first
    | with_reducible assumption
    | exact sub_trans rfl hw
    | intro _
    | with_reducible apply State.setLink_same
    | with_reducible apply Same.ite
    | with_reducible apply Same.foldl
    | with_reducible apply Same.foldlFst
    | with_reducible apply SameRes.next
    | with_reducible apply SameRes.ite

theorem execGmlTimeExchange_same {m0 : Nat} {r0 : State} {link : Fin 3} {offset : Int} {delay : Nat} {s : State} (hk
    : Same m0 r0 s) (hw : sub 1 m0 = true) : SameRes m0 r0 (execGmlTimeExchange link offset delay s) := by
  unfold execGmlTimeExchange
  extract_lets a0 a1
  try clear_value a0
  have k1 : Same m0 r0 a1
  on_goal 1 => unfold a1
  rotate_left
  clear_value a1
  all_goals repeat' first
    | with_reducible assumption
    | exact sub_trans rfl hw
    | intro _
    | with_reducible apply State.setFld_same
    | with_reducible apply Same.ite
    | with_reducible apply Same.foldl
    | with_reducible apply Same.foldlFst
    | with_reducible apply SameRes.next
    | with_reducible apply SameRes.ite

theorem execGmlTrainDone_same {m0 : Nat} {r0 : State} {link : Fin 3} {ident : Option GmlIdentity} {s : State} (hk
    : Same m0 r0 s) (hw : sub 11600897 m0 = true) : SameRes m0 r0 (execGmlTrainDone link ident s) := by
  unfold execGmlTrainDone
  extract_lets a0 a1 a2
  try clear_value a0
  have k1 : Same m0 r0 a1
  on_goal 1 => unfold a1
  rotate_left
  clear_value a1
  have k2 : Same m0 r0 a2
  on_goal 1 => unfold a2
  rotate_left
  clear_value a2
  all_goals repeat' first
    | with_reducible assumption
    | exact sub_trans rfl hw
    | intro _
    | with_reducible apply State.setLink_same
    | with_reducible apply State.event_same
    | with_reducible apply State.modLink_same
    | with_reducible apply State.refreshActive_same
    | with_reducible apply State.hear_same
    | with_reducible apply State.yieldStreams_same
    | with_reducible apply Same.ite
    | with_reducible apply Same.foldl
    | with_reducible apply Same.foldlFst
    | with_reducible apply SameRes.next
    | with_reducible apply SameRes.ite
    | split

theorem execGoingDownRx_same {m0 : Nat} {r0 : State} {peer : Fin 4} {s : State} (hk : Same m0 r0 s)
    (hw : sub 33028105 m0 = true) : SameRes m0 r0 (execGoingDownRx peer s) := by
  unfold execGoingDownRx
  try dsimp only
  repeat' first
    | with_reducible assumption
    | exact sub_trans rfl hw
    | intro _
    | with_reducible apply State.losePartner_same
    | with_reducible apply Same.ite
    | with_reducible apply Same.foldl
    | with_reducible apply Same.foldlFst
    | with_reducible apply SameRes.next

theorem execGrant_same {m0 : Nat} {r0 : State} {link : Fin 3} {s : State} (hk : Same m0 r0 s) (hw : sub 8769545 m0 = true)
    : SameRes m0 r0 (execGrant link s) := by
  unfold execGrant
  try dsimp only
  repeat' first
    | with_reducible assumption
    | exact sub_trans rfl hw
    | intro _
    | with_reducible apply State.answered_same
    | with_reducible apply State.modGml_same
    | with_reducible apply Same.ite
    | with_reducible apply Same.foldl
    | with_reducible apply Same.foldlFst
    | with_reducible apply SameRes.next
    | with_reducible apply SameRes.ite
    | split
    | dsimp only
    | (with_reducible apply State.takeRx_same; rotate_left; rotate_left; with_reducible assumption)

theorem execJournalForwardTimeout_same {m0 : Nat} {r0 : State} {s : State} (hk : Same m0 r0 s) (hw : sub 65552 m0 = true)
    : SameRes m0 r0 (execJournalForwardTimeout s) := by
  unfold execJournalForwardTimeout
  try dsimp only
  repeat' first
    | with_reducible assumption
    | exact sub_trans rfl hw
    | intro _
    | with_reducible apply State.reach_same
    | with_reducible apply State.modJournal_same
    | with_reducible apply Same.ite
    | with_reducible apply Same.foldl
    | with_reducible apply Same.foldlFst
    | with_reducible apply SameRes.next
    | with_reducible apply SameRes.ite
    | split

theorem execPeerAliveToggle_same {m0 : Nat} {r0 : State} {s : State} (hk : Same m0 r0 s) (hw : sub 512 m0 = true)
    : SameRes m0 r0 (execPeerAliveToggle s) := by
  unfold execPeerAliveToggle
  try dsimp only
  repeat' first
    | with_reducible assumption
    | exact sub_trans rfl hw
    | intro _
    | with_reducible apply State.modPins_same
    | with_reducible apply Same.ite
    | with_reducible apply Same.foldl
    | with_reducible apply Same.foldlFst
    | with_reducible apply SameRes.next

theorem execPeerSenseEdge_same {m0 : Nat} {r0 : State} {link : Fin 3} {s : State} (hk : Same m0 r0 s)
    (hw : sub 8388609 m0 = true) : SameRes m0 r0 (execPeerSenseEdge link s) := by
  unfold execPeerSenseEdge
  try dsimp only
  repeat' first
    | with_reducible assumption
    | exact sub_trans rfl hw
    | intro _
    | with_reducible apply State.modLink_same
    | with_reducible apply State.setFlag_same
    | with_reducible apply Same.ite
    | with_reducible apply Same.foldl
    | with_reducible apply Same.foldlFst
    | with_reducible apply SameRes.next
    | with_reducible apply SameRes.ite

theorem execPeerSenseTimeout_same {m0 : Nat} {r0 : State} {link : Fin 3} {s : State} (hk : Same m0 r0 s)
    (hw : sub 33028121 m0 = true) : SameRes m0 r0 (execPeerSenseTimeout link s) := by
  unfold execPeerSenseTimeout
  try dsimp only
  repeat' first
    | with_reducible assumption
    | exact sub_trans rfl hw
    | intro _
    | with_reducible apply State.setFlag_same
    | with_reducible apply State.reach_same
    | with_reducible apply State.losePartner_same
    | with_reducible apply State.modLink_same
    | with_reducible apply Same.ite
    | with_reducible apply Same.foldl
    | with_reducible apply Same.foldlFst
    | with_reducible apply SameRes.next
    | with_reducible apply SameRes.ite
    | split

theorem execPeerUnreachable_same {m0 : Nat} {r0 : State} {peer : Fin 4} {s : State} (hk : Same m0 r0 s)
    (hw : sub 33028121 m0 = true) : SameRes m0 r0 (execPeerUnreachable peer s) := by
  unfold execPeerUnreachable
  try dsimp only
  repeat' first
    | with_reducible assumption
    | exact sub_trans rfl hw
    | intro _
    | with_reducible apply State.reach_same
    | with_reducible apply State.event_same
    | with_reducible apply State.setFlag_same
    | with_reducible apply State.losePartner_same
    | with_reducible apply State.partnerGoes_same
    | with_reducible apply Same.ite
    | with_reducible apply Same.foldl
    | with_reducible apply Same.foldlFst
    | with_reducible apply SameRes.next
    | with_reducible apply SameRes.ite
    | split

theorem execRemoteRequestRx_same {m0 : Nat} {r0 : State} {link : Fin 3} {s : State} (hk : Same m0 r0 s)
    (hw : sub 8609797 m0 = true) : SameRes m0 r0 (execRemoteRequestRx link s) := by
  unfold execRemoteRequestRx
  try dsimp only
  repeat' first
    | with_reducible assumption
    | exact sub_trans rfl hw
    | intro _
    | with_reducible apply State.event_same
    | with_reducible apply State.respond_same
    | with_reducible apply State.addCnt_same
    | with_reducible apply State.judgeWrites_same
    | with_reducible apply State.writes_same
    | with_reducible apply State.modLink_same
    | with_reducible apply State.judgeReads_same
    | with_reducible apply Same.ite
    | with_reducible apply Same.foldl
    | with_reducible apply Same.foldlFst
    | with_reducible apply SameRes.next
    | with_reducible apply SameRes.ite
    | split
    | dsimp only
    | (with_reducible apply Same.of_fst; rotate_left; with_reducible assumption)
    | (with_reducible apply State.takeRx_same; rotate_left; rotate_left; with_reducible assumption)

theorem execReserve_same {m0 : Nat} {r0 : State} {link : Fin 3} {s : State} (hk : Same m0 r0 s) (hw : sub 8388609 m0 = true)
    : SameRes m0 r0 (execReserve link s) := by
  unfold execReserve
  try dsimp only
  repeat' first
    | with_reducible assumption
    | exact sub_trans rfl hw
    | intro _
    | with_reducible apply State.modGml_same
    | with_reducible apply State.sendTo_same
    | with_reducible apply Same.ite
    | with_reducible apply Same.foldl
    | with_reducible apply Same.foldlFst
    | with_reducible apply SameRes.next
    | with_reducible apply SameRes.ite
    | split
    | dsimp only
    | (with_reducible apply State.takeRx_same; rotate_left; rotate_left; with_reducible assumption)

theorem execRouteChange_same {m0 : Nat} {r0 : State} {peer : Fin 4} {s : State} (hk : Same m0 r0 s)
    (hw : sub 8454145 m0 = true) : SameRes m0 r0 (execRouteChange peer s) := by
  unfold execRouteChange
  try dsimp only
  repeat' first
    | with_reducible assumption
    | exact sub_trans rfl hw
    | intro _
    | with_reducible apply State.forwardRecords_same
    | with_reducible apply State.reroute_same
    | with_reducible apply Same.ite
    | with_reducible apply Same.foldl
    | with_reducible apply Same.foldlFst
    | with_reducible apply SameRes.next

/-! ### Machine/Memory.lean -/

theorem State.detachReads_same {m0 : Nat} {r0 : State} {s : State} {unit : Nat} (hk : Same m0 r0 s)
    (hw : sub 8396800 m0 = true) : Same m0 r0 (State.detachReads s unit) := by
  unfold State.detachReads
  have b13 : sub 8192 m0 = true := sub_trans rfl hw
  extract_lets a0 a1 a2
  try clear_value a0
  try clear_value a1
  have k2 : Same m0 r0 a2
  on_goal 1 => unfold a2
  rotate_left
  clear_value a2
  all_goals repeat' first
    | with_reducible assumption
    | exact sub_trans rfl hw
    | intro _
    | with_reducible apply State.endRemote_same
    | with_reducible apply Same.ite
    | with_reducible apply Same.foldl
    | with_reducible apply Same.foldlFst
    | fail_if_no_progress with_reducible refine Same.upd_13 ?_ b13

theorem State.lpFilled_same {m0 : Nat} {r0 : State} {s : State} {base : Nat} {size : Nat} (hk : Same m0 r0 s)
    (hw : sub 8193 m0 = true) : Same m0 r0 (State.lpFilled s base size) := by
  unfold State.lpFilled
  have b13 : sub 8192 m0 = true := sub_trans rfl hw
  extract_lets a0 a1 a2 a3 a4
  try clear_value a0
  try clear_value a1
  try clear_value a2
  have k3 : Same m0 r0 a3
  on_goal 1 => unfold a3
  rotate_left
  clear_value a3
  try clear_value a4
  all_goals repeat' first
    | with_reducible assumption
    | exact sub_trans rfl hw
    | intro _
    | with_reducible apply State.addCnt_same
    | with_reducible apply State.setFld_same
    | with_reducible apply Same.ite
    | with_reducible apply Same.foldl
    | with_reducible apply Same.foldlFst
    | fail_if_no_progress with_reducible refine Same.upd_13 ?_ b13

theorem State.windowRefused_same {m0 : Nat} {r0 : State} {s : State} {n : Nat} {off : Nat} {value : Word} {domain : Nat} (hk
    : Same m0 r0 s) (hw : sub 65537 m0 = true) : Same m0 r0 (State.windowRefused s n off value domain) := by
  unfold State.windowRefused
  try dsimp only
  repeat' first
    | with_reducible assumption
    | exact sub_trans rfl hw
    | intro _
    | with_reducible apply State.log_same

theorem execNtWinWrite_same {m0 : Nat} {r0 : State} {tile : Fin 16} {offset : BitVec 8} {value : Word} {domain : BitVec 4}
    {s : State} (hk : Same m0 r0 s) (hw : sub 65537 m0 = true) : SameRes m0 r0
    (execNtWinWrite tile offset value domain s) := by
  unfold execNtWinWrite
  try dsimp only
  repeat' first
    | with_reducible assumption
    | exact sub_trans rfl hw
    | intro _
    | with_reducible apply State.windowRefused_same
    | with_reducible apply State.setReg_same
    | with_reducible apply Same.ite
    | with_reducible apply Same.foldl
    | with_reducible apply Same.foldlFst
    | with_reducible apply SameRes.next
    | with_reducible apply SameRes.ite
    | split

theorem execNtCredWrite_same {m0 : Nat} {r0 : State} {tile : Fin 16} {offset : BitVec 8} {value : Word} {domain : BitVec 4}
    {s : State} (hk : Same m0 r0 s) (hw : sub 65537 m0 = true) : SameRes m0 r0
    (execNtCredWrite tile offset value domain s) := by
  unfold execNtCredWrite
  try dsimp only
  repeat' first
    | with_reducible assumption
    | exact sub_trans rfl hw
    | intro _
    | with_reducible apply State.windowRefused_same
    | with_reducible apply State.setReg_same
    | with_reducible apply Same.ite
    | with_reducible apply Same.foldl
    | with_reducible apply Same.foldlFst
    | with_reducible apply SameRes.next
    | with_reducible apply SameRes.ite

theorem execMcFlagHiRead_same {m0 : Nat} {r0 : State} {s : State} (hk : Same m0 r0 s) (hw : sub 8192 m0 = true)
    : SameRes m0 r0 (execMcFlagHiRead s) := by
  unfold execMcFlagHiRead
  have b13 : sub 8192 m0 = true := sub_trans rfl hw
  try dsimp only
  repeat' first
    | with_reducible assumption
    | exact sub_trans rfl hw
    | intro _
    | with_reducible apply Same.ite
    | with_reducible apply Same.foldl
    | with_reducible apply Same.foldlFst
    | fail_if_no_progress with_reducible refine Same.upd_13 ?_ b13
    | with_reducible apply SameRes.next

theorem State.stopMarks_same {m0 : Nat} {r0 : State} {s : State} {unit : Nat} {i : Inst} (hk : Same m0 r0 s)
    (hw : sub 33 m0 = true) : Same m0 r0 (State.stopMarks s unit i) := by
  unfold State.stopMarks
  extract_lets a0 a1 a2 a3
  try clear_value a0
  try clear_value a1
  have k2 : Same m0 r0 a2
  on_goal 1 => unfold a2
  rotate_left
  clear_value a2
  have k3 : Same m0 r0 a3
  on_goal 1 => unfold a3
  rotate_left
  clear_value a3
  all_goals repeat' first
    | with_reducible assumption
    | exact sub_trans rfl hw
    | intro _
    | with_reducible apply State.setFld_same
    | with_reducible apply State.draw_same
    | with_reducible apply State.addCnt_same
    | with_reducible apply Same.ite

theorem State.tileFilled_same {m0 : Nat} {r0 : State} {s : State} {n : Nat} (hk : Same m0 r0 s) (hw : sub 67141633 m0 = true)
    : Same m0 r0 (State.tileFilled s n) := by
  unfold State.tileFilled
  have b26 : sub 67108864 m0 = true := sub_trans rfl hw
  extract_lets a0 a1 a2 a3
  have k0 : Same m0 r0 a0
  on_goal 1 => unfold a0
  rotate_left
  clear_value a0
  have k1 : Same m0 r0 a1
  on_goal 1 => unfold a1
  rotate_left
  clear_value a1
  have k2 : Same m0 r0 a2
  on_goal 1 => unfold a2
  rotate_left
  clear_value a2
  have k3 : Same m0 r0 a3
  on_goal 1 => unfold a3
  rotate_left
  clear_value a3
  all_goals repeat' first
    | with_reducible assumption
    | exact sub_trans rfl hw
    | intro _
    | with_reducible apply State.loadWindows_same
    | with_reducible apply State.setReg_same
    | with_reducible apply State.gateUnit_same
    | with_reducible apply Same.ite
    | with_reducible apply Same.foldl
    | with_reducible apply Same.foldlFst
    | fail_if_no_progress with_reducible refine Same.upd_26 ?_ b26

theorem execAshFillDone_same {m0 : Nat} {r0 : State} {addr : Nat} {s : State} (hk : Same m0 r0 s)
    (hw : sub 67149829 m0 = true) : SameRes m0 r0 (execAshFillDone addr s) := by
  unfold execAshFillDone
  have b2_13 : sub 8196 m0 = true := sub_trans rfl hw
  try dsimp only
  repeat' first
    | with_reducible assumption
    | exact sub_trans rfl hw
    | intro _
    | with_reducible apply State.event_same
    | with_reducible apply State.lpFilled_same
    | with_reducible apply State.tileFilled_same
    | with_reducible apply Same.ite
    | with_reducible apply Same.foldl
    | with_reducible apply Same.foldlFst
    | fail_if_no_progress with_reducible refine Same.upd_2_13 ?_ b2_13
    | with_reducible apply SameRes.next
    | with_reducible apply SameRes.ite
    | split

theorem execCinderEntry_same {m0 : Nat} {r0 : State} {addr : Nat} {s : State} (hk : Same m0 r0 s) (hw : sub 8193 m0 = true)
    : SameRes m0 r0 (execCinderEntry addr s) := by
  unfold execCinderEntry
  try dsimp only
  repeat' first
    | with_reducible assumption
    | exact sub_trans rfl hw
    | intro _
    | with_reducible apply State.enterCinder_same
    | with_reducible apply Same.ite
    | with_reducible apply Same.foldl
    | with_reducible apply Same.foldlFst
    | with_reducible apply SameRes.next

theorem execDetachedReadReturn_same {m0 : Nat} {r0 : State} {unit : Half} {s : State} (hk : Same m0 r0 s)
    (hw : sub 8396800 m0 = true) : SameRes m0 r0 (execDetachedReadReturn unit s) := by
  unfold execDetachedReadReturn
  have b13 : sub 8192 m0 = true := sub_trans rfl hw
  have b23 : sub 8388608 m0 = true := sub_trans rfl hw
  extract_lets a0 a1 a2 a3
  try clear_value a0
  try clear_value a1
  have k2 : Same m0 r0 a2
  on_goal 1 => unfold a2
  rotate_left
  clear_value a2
  try clear_value a3
  all_goals repeat' first
    | with_reducible assumption
    | exact sub_trans rfl hw
    | intro _
    | with_reducible apply Same.ite
    | with_reducible apply Same.foldl
    | with_reducible apply Same.foldlFst
    | fail_if_no_progress with_reducible refine Same.upd_13 ?_ b13
    | fail_if_no_progress with_reducible refine Same.upd_23 ?_ b23
    | with_reducible apply SameRes.next
    | with_reducible apply SameRes.ite
    | split

theorem execHeldAccessLimit_same {m0 : Nat} {r0 : State} {unit : Half} {s : State} (hk : Same m0 r0 s)
    (hw : sub 335543321 m0 = true) : SameRes m0 r0 (execHeldAccessLimit unit s) := by
  unfold execHeldAccessLimit
  try dsimp only
  repeat' first
    | with_reducible assumption
    | exact sub_trans rfl hw
    | intro _
    | with_reducible apply State.reach_same
    | with_reducible apply State.stepFault_same
    | with_reducible apply Same.ite
    | with_reducible apply Same.foldl
    | with_reducible apply Same.foldlFst
    | with_reducible apply SameRes.next
    | with_reducible apply SameRes.ite
    | split

theorem execHeldAccessRetry_same {m0 : Nat} {r0 : State} {unit : Half} {s : State} (hk : Same m0 r0 s)
    (hw : sub 32784 m0 = true) : SameRes m0 r0 (execHeldAccessRetry unit s) := by
  unfold execHeldAccessRetry
  try dsimp only
  repeat' first
    | with_reducible assumption
    | exact sub_trans rfl hw
    | intro _
    | with_reducible apply State.reach_same
    | with_reducible apply State.setUnit_same
    | with_reducible apply Same.ite
    | with_reducible apply Same.foldl
    | with_reducible apply Same.foldlFst
    | with_reducible apply SameRes.next
    | with_reducible apply SameRes.ite
    | split

theorem execUnitStopAck_same {m0 : Nat} {r0 : State} {unit : Half} {s : State} (hk : Same m0 r0 s)
    (hw : sub 59043881 m0 = true) : SameRes m0 r0 (execUnitStopAck unit s) := by
  unfold execUnitStopAck
  try dsimp only
  repeat' first
    | with_reducible assumption
    | exact sub_trans rfl hw
    | intro _
    | with_reducible apply State.cancelNow_same
    | with_reducible apply State.dropCarry_same
    | with_reducible apply State.detachReads_same
    | with_reducible apply State.tapAbort_same
    | with_reducible apply State.stopMarks_same
    | with_reducible apply Same.ite
    | with_reducible apply Same.foldl
    | with_reducible apply Same.foldlFst
    | with_reducible apply SameRes.next
    | with_reducible apply SameRes.ite
    | split

theorem execWcMissFillDone_same {m0 : Nat} {r0 : State} {line : Nat} {s : State} (hk : Same m0 r0 s) (hw : sub 8192 m0 = true)
    : SameRes m0 r0 (execWcMissFillDone line s) := by
  unfold execWcMissFillDone
  have b13 : sub 8192 m0 = true := sub_trans rfl hw
  try dsimp only
  repeat' first
    | with_reducible assumption
    | exact sub_trans rfl hw
    | intro _
    | with_reducible apply Same.ite
    | with_reducible apply Same.foldl
    | with_reducible apply Same.foldlFst
    | fail_if_no_progress with_reducible refine Same.upd_13 ?_ b13
    | with_reducible apply SameRes.next
    | with_reducible apply SameRes.ite

/-! ### Machine/Neural.lean -/

theorem State.ntCompute_same {m0 : Nat} {r0 : State} {s : State} {n : Nat} {op : Nat}
    {f : TileSt → Td → Opnd → Opnd → Opnd → NtOut} (hk : Same m0 r0 s) (hw : sub 67108864 m0 = true) : Same m0 r0
    (State.ntCompute s n op f) := by
  unfold State.ntCompute
  try dsimp only
  repeat' first
    | with_reducible assumption
    | exact sub_trans rfl hw
    | intro _
    | with_reducible apply State.modNt_same
    | with_reducible apply Same.ite
    | with_reducible apply Same.foldl
    | with_reducible apply Same.foldlFst
    | split

theorem execAttention_same {m0 : Nat} {r0 : State} {tile : Fin 16} {s : State} (hk : Same m0 r0 s)
    (hw : sub 67108864 m0 = true) : SameRes m0 r0 (execAttention tile s) := by
  unfold execAttention
  try dsimp only
  repeat' first
    | with_reducible assumption
    | exact sub_trans rfl hw
    | intro _
    | with_reducible apply State.ntCompute_same
    | with_reducible apply Same.ite
    | with_reducible apply Same.foldl
    | with_reducible apply Same.foldlFst
    | with_reducible apply SameRes.next

theorem execConv_same {m0 : Nat} {r0 : State} {tile : Fin 16} {s : State} (hk : Same m0 r0 s) (hw : sub 67108864 m0 = true)
    : SameRes m0 r0 (execConv tile s) := by
  unfold execConv
  try dsimp only
  repeat' first
    | with_reducible assumption
    | exact sub_trans rfl hw
    | intro _
    | with_reducible apply State.ntCompute_same
    | with_reducible apply Same.ite
    | with_reducible apply Same.foldl
    | with_reducible apply Same.foldlFst
    | with_reducible apply SameRes.next

theorem execElementwise_same {m0 : Nat} {r0 : State} {tile : Fin 16} {s : State} (hk : Same m0 r0 s)
    (hw : sub 67108864 m0 = true) : SameRes m0 r0 (execElementwise tile s) := by
  unfold execElementwise
  try dsimp only
  repeat' first
    | with_reducible assumption
    | exact sub_trans rfl hw
    | intro _
    | with_reducible apply State.ntCompute_same
    | with_reducible apply Same.ite
    | with_reducible apply Same.foldl
    | with_reducible apply Same.foldlFst
    | with_reducible apply SameRes.next

theorem execGather_same {m0 : Nat} {r0 : State} {tile : Fin 16} {s : State} (hk : Same m0 r0 s) (hw : sub 67108864 m0 = true)
    : SameRes m0 r0 (execGather tile s) := by
  unfold execGather
  try dsimp only
  repeat' first
    | with_reducible assumption
    | exact sub_trans rfl hw
    | intro _
    | with_reducible apply State.ntCompute_same
    | with_reducible apply Same.ite
    | with_reducible apply Same.foldl
    | with_reducible apply Same.foldlFst
    | with_reducible apply SameRes.next

theorem execLut_same {m0 : Nat} {r0 : State} {tile : Fin 16} {s : State} (hk : Same m0 r0 s) (hw : sub 67108864 m0 = true)
    : SameRes m0 r0 (execLut tile s) := by
  unfold execLut
  try dsimp only
  repeat' first
    | with_reducible assumption
    | exact sub_trans rfl hw
    | intro _
    | with_reducible apply State.ntCompute_same
    | with_reducible apply Same.ite
    | with_reducible apply Same.foldl
    | with_reducible apply Same.foldlFst
    | with_reducible apply SameRes.next

theorem execMatmul_same {m0 : Nat} {r0 : State} {tile : Fin 16} {s : State} (hk : Same m0 r0 s) (hw : sub 67108864 m0 = true)
    : SameRes m0 r0 (execMatmul tile s) := by
  unfold execMatmul
  try dsimp only
  repeat' first
    | with_reducible assumption
    | exact sub_trans rfl hw
    | intro _
    | with_reducible apply State.ntCompute_same
    | with_reducible apply Same.ite
    | with_reducible apply Same.foldl
    | with_reducible apply Same.foldlFst
    | with_reducible apply SameRes.next

theorem execNms_same {m0 : Nat} {r0 : State} {tile : Fin 16} {s : State} (hk : Same m0 r0 s) (hw : sub 67108864 m0 = true)
    : SameRes m0 r0 (execNms tile s) := by
  unfold execNms
  try dsimp only
  repeat' first
    | with_reducible assumption
    | exact sub_trans rfl hw
    | intro _
    | with_reducible apply State.ntCompute_same
    | with_reducible apply Same.ite
    | with_reducible apply Same.foldl
    | with_reducible apply Same.foldlFst
    | with_reducible apply SameRes.next

theorem execNorm_same {m0 : Nat} {r0 : State} {tile : Fin 16} {s : State} (hk : Same m0 r0 s) (hw : sub 67108864 m0 = true)
    : SameRes m0 r0 (execNorm tile s) := by
  unfold execNorm
  try dsimp only
  repeat' first
    | with_reducible assumption
    | exact sub_trans rfl hw
    | intro _
    | with_reducible apply State.ntCompute_same
    | with_reducible apply Same.ite
    | with_reducible apply Same.foldl
    | with_reducible apply Same.foldlFst
    | with_reducible apply SameRes.next

theorem execPermute_same {m0 : Nat} {r0 : State} {tile : Fin 16} {s : State} (hk : Same m0 r0 s) (hw : sub 67108864 m0 = true)
    : SameRes m0 r0 (execPermute tile s) := by
  unfold execPermute
  try dsimp only
  repeat' first
    | with_reducible assumption
    | exact sub_trans rfl hw
    | intro _
    | with_reducible apply State.ntCompute_same
    | with_reducible apply Same.ite
    | with_reducible apply Same.foldl
    | with_reducible apply Same.foldlFst
    | with_reducible apply SameRes.next

theorem execReduce_same {m0 : Nat} {r0 : State} {tile : Fin 16} {s : State} (hk : Same m0 r0 s) (hw : sub 67108864 m0 = true)
    : SameRes m0 r0 (execReduce tile s) := by
  unfold execReduce
  try dsimp only
  repeat' first
    | with_reducible assumption
    | exact sub_trans rfl hw
    | intro _
    | with_reducible apply State.ntCompute_same
    | with_reducible apply Same.ite
    | with_reducible apply Same.foldl
    | with_reducible apply Same.foldlFst
    | with_reducible apply SameRes.next

theorem execSample_same {m0 : Nat} {r0 : State} {tile : Fin 16} {s : State} (hk : Same m0 r0 s) (hw : sub 67108864 m0 = true)
    : SameRes m0 r0 (execSample tile s) := by
  unfold execSample
  try dsimp only
  repeat' first
    | with_reducible assumption
    | exact sub_trans rfl hw
    | intro _
    | with_reducible apply State.ntCompute_same
    | with_reducible apply Same.ite
    | with_reducible apply Same.foldl
    | with_reducible apply Same.foldlFst
    | with_reducible apply SameRes.next

theorem execScatter_same {m0 : Nat} {r0 : State} {tile : Fin 16} {s : State} (hk : Same m0 r0 s) (hw : sub 67108864 m0 = true)
    : SameRes m0 r0 (execScatter tile s) := by
  unfold execScatter
  try dsimp only
  repeat' first
    | with_reducible assumption
    | exact sub_trans rfl hw
    | intro _
    | with_reducible apply State.ntCompute_same
    | with_reducible apply Same.ite
    | with_reducible apply Same.foldl
    | with_reducible apply Same.foldlFst
    | with_reducible apply SameRes.next

theorem execTopk_same {m0 : Nat} {r0 : State} {tile : Fin 16} {s : State} (hk : Same m0 r0 s) (hw : sub 67108864 m0 = true)
    : SameRes m0 r0 (execTopk tile s) := by
  unfold execTopk
  try dsimp only
  repeat' first
    | with_reducible assumption
    | exact sub_trans rfl hw
    | intro _
    | with_reducible apply State.ntCompute_same
    | with_reducible apply Same.ite
    | with_reducible apply Same.foldl
    | with_reducible apply Same.foldlFst
    | with_reducible apply SameRes.next

/-! ### Machine/Service.lean -/

theorem State.modSvc_same {m0 : Nat} {r0 : State} {s : State} {i : Nat} {f : SvcIfc → SvcIfc} (hk : Same m0 r0 s)
    (hw : sub 4194304 m0 = true) : Same m0 r0 (State.modSvc s i f) := by
  unfold State.modSvc
  have b22 : sub 4194304 m0 = true := sub_trans rfl hw
  try dsimp only
  repeat' first
    | with_reducible assumption
    | exact sub_trans rfl hw
    | intro _
    | with_reducible apply Same.ite
    | with_reducible apply Same.foldl
    | with_reducible apply Same.foldlFst
    | fail_if_no_progress with_reducible refine Same.upd_22 ?_ b22

theorem State.sendResponse_same {m0 : Nat} {r0 : State} {s : State} {ifc : Nat} {peer : SvcPeer} {m : List Byte} (hk
    : Same m0 r0 s) (hw : sub 4194305 m0 = true) : Same m0 r0 (State.sendResponse s ifc peer m) := by
  unfold State.sendResponse
  try dsimp only
  repeat' first
    | with_reducible assumption
    | exact sub_trans rfl hw
    | intro _
    | with_reducible apply State.queueEth_same
    | with_reducible apply State.modSvc_same
    | with_reducible apply Same.ite

theorem State.answer_same {m0 : Nat} {r0 : State} {s : State} {ifc : Nat} {q : SvcReq} {status : Nat} {body : List Byte} (hk
    : Same m0 r0 s) (hw : sub 4194305 m0 = true) : Same m0 r0 (State.answer s ifc q status body) := by
  unfold State.answer
  try dsimp only
  repeat' first
    | with_reducible assumption
    | exact sub_trans rfl hw
    | intro _
    | with_reducible apply State.sendResponse_same
    | with_reducible apply State.modSvc_same
    | with_reducible apply Same.ite
    | with_reducible apply Same.foldl
    | with_reducible apply Same.foldlFst
    | split

theorem State.authFail_same {m0 : Nat} {r0 : State} {s : State} {ifc : Nat} {session : Nat} (hk : Same m0 r0 s)
    (hw : sub 4194305 m0 = true) : Same m0 r0 (State.authFail s ifc session) := by
  unfold State.authFail
  extract_lets a0
  have k0 : Same m0 r0 a0
  on_goal 1 => unfold a0
  rotate_left
  clear_value a0
  all_goals repeat' first
    | with_reducible assumption
    | exact sub_trans rfl hw
    | intro _
    | with_reducible apply State.event_same
    | with_reducible apply State.addCnt_same
    | with_reducible apply State.addFld_same
    | with_reducible apply State.modSvc_same
    | with_reducible apply Same.ite
    | with_reducible apply Same.foldl
    | with_reducible apply Same.foldlFst
    | split

theorem State.badMessage_same {m0 : Nat} {r0 : State} {s : State} {ifc : Nat} (hk : Same m0 r0 s) (hw : sub 4194305 m0 = true)
    : Same m0 r0 (State.badMessage s ifc) := by
  unfold State.badMessage
  try dsimp only
  repeat' first
    | with_reducible assumption
    | exact sub_trans rfl hw
    | intro _
    | with_reducible apply State.authFail_same
    | with_reducible apply State.addFld_same
    | with_reducible apply Same.ite

theorem State.modIo_same {m0 : Nat} {r0 : State} {s : State} {f : Ifaces → Ifaces} (hk : Same m0 r0 s)
    (hw : sub 4194304 m0 = true) : Same m0 r0 (State.modIo s f) := by
  unfold State.modIo
  have b22 : sub 4194304 m0 = true := sub_trans rfl hw
  try dsimp only
  repeat' first
    | with_reducible assumption
    | exact sub_trans rfl hw
    | intro _
    | with_reducible apply Same.ite
    | with_reducible apply Same.foldl
    | with_reducible apply Same.foldlFst
    | fail_if_no_progress with_reducible refine Same.upd_22 ?_ b22

theorem State.modStage_same {m0 : Nat} {r0 : State} {s : State} {f : StageSt → StageSt} (hk : Same m0 r0 s)
    (hw : sub 4194304 m0 = true) : Same m0 r0 (State.modStage s f) := by
  unfold State.modStage
  try dsimp only
  repeat' first
    | with_reducible assumption
    | exact sub_trans rfl hw
    | intro _
    | with_reducible apply State.modIo_same

theorem State.noStage_same {m0 : Nat} {r0 : State} {s : State} {ifc : Nat} {q : SvcReq} (hk : Same m0 r0 s)
    (hw : sub 4194337 m0 = true) : Same m0 r0 (State.noStage s ifc q) := by
  unfold State.noStage
  extract_lets a0
  have k0 : Same m0 r0 a0.2
  on_goal 1 => unfold a0
  rotate_left
  clear_value a0
  all_goals repeat' first
    | with_reducible assumption
    | exact sub_trans rfl hw
    | intro _
    | with_reducible apply State.draw_same
    | with_reducible apply State.answer_same

theorem State.serveFront_same {m0 : Nat} {r0 : State} {s : State} {ifc : Nat} {op : Nat} {f : State → SvcReq → State} (hk
    : Same m0 r0 s) (hf : ∀ y0 y1, Same m0 r0 y0 → Same m0 r0 (f y0 y1)) (hw : sub 4194305 m0 = true) : Same m0 r0
    (State.serveFront s ifc op f) := by
  unfold State.serveFront
  try dsimp only
  repeat' first
    | with_reducible assumption
    | exact sub_trans rfl hw
    | intro _
    | with_reducible apply hf
    | with_reducible apply State.modSvc_same
    | with_reducible apply State.answer_same
    | with_reducible apply Same.ite
    | with_reducible apply Same.foldl
    | with_reducible apply Same.foldlFst
    | split

theorem State.showStage_same {m0 : Nat} {r0 : State} {s : State} {st : Nat} {code : Nat} (hk : Same m0 r0 s)
    (hw : sub 1 m0 = true) : Same m0 r0 (State.showStage s st code) := by
  unfold State.showStage
  try dsimp only
  repeat' first
    | with_reducible assumption
    | exact sub_trans rfl hw
    | intro _
    | with_reducible apply State.setFld_same

theorem State.stageAnswer_same {m0 : Nat} {r0 : State} {s : State} {op : Nat} {status : Nat} {body : List Byte} (hk
    : Same m0 r0 s) (hw : sub 4194305 m0 = true) : Same m0 r0 (State.stageAnswer s op status body) := by
  unfold State.stageAnswer
  try dsimp only
  repeat' first
    | with_reducible assumption
    | exact sub_trans rfl hw
    | intro _
    | with_reducible apply State.answer_same

theorem State.stageFront_same {m0 : Nat} {r0 : State} {s : State} {ifc : Nat} {op : Nat} {f : State → SvcReq → State} (hk
    : Same m0 r0 s) (hf : ∀ y0 y1, Same m0 r0 y0 → Same m0 r0 (f y0 y1)) (hw : sub 4194337 m0 = true) : Same m0 r0
    (State.stageFront s ifc op f) := by
  unfold State.stageFront
  try dsimp only
  repeat' first
    | with_reducible assumption
    | exact sub_trans rfl hw
    | intro _
    | with_reducible apply hf
    | with_reducible apply State.serveFront_same
    | with_reducible apply State.noStage_same
    | with_reducible apply Same.ite

theorem State.takeMessage_same {m0 : Nat} {r0 : State} {s : State} {ifc : Nat} {peer : SvcPeer} {m : List Byte} (hk
    : Same m0 r0 s) (hw : sub 4194305 m0 = true) : Same m0 r0 (State.takeMessage s ifc peer m) := by
  unfold State.takeMessage
  extract_lets a0 a1 a2 a3 a4 a5 a6 a7 a8 a9 a10 a11 a12
  try clear_value a0
  try clear_value a1
  try clear_value a2
  try clear_value a3
  try clear_value a4
  try clear_value a5
  try clear_value a6
  try clear_value a7
  try clear_value a8
  try clear_value a9
  try clear_value a10
  try clear_value a11
  have k12 : Same m0 r0 a12
  on_goal 1 => unfold a12
  rotate_left
  clear_value a12
  all_goals repeat' first
    | with_reducible assumption
    | exact sub_trans rfl hw
    | intro _
    | with_reducible apply State.badMessage_same
    | with_reducible apply State.modSvc_same
    | with_reducible apply State.answer_same
    | with_reducible apply State.authFail_same
    | with_reducible apply Same.ite
    | with_reducible apply Same.foldl
    | with_reducible apply Same.foldlFst
    | split

theorem execHello_same {m0 : Nat} {r0 : State} {ifc : Fin 3} {s : State} (hk : Same m0 r0 s) (hw : sub 4194337 m0 = true)
    : SameRes m0 r0 (execHello ifc s) := by
  unfold execHello
  try dsimp only
  repeat' first
    | with_reducible assumption
    | exact sub_trans rfl hw
    | intro _
    | with_reducible apply State.serveFront_same
    | with_reducible apply State.answer_same
    | with_reducible apply State.draw_same
    | with_reducible apply State.modSvc_same
    | with_reducible apply Same.ite
    | with_reducible apply Same.foldl
    | with_reducible apply Same.foldlFst
    | with_reducible apply SameRes.next

theorem execJournalRead_same {m0 : Nat} {r0 : State} {ifc : Fin 3} {s : State} (hk : Same m0 r0 s)
    (hw : sub 4194305 m0 = true) : SameRes m0 r0 (execJournalRead ifc s) := by
  unfold execJournalRead
  try dsimp only
  repeat' first
    | with_reducible assumption
    | exact sub_trans rfl hw
    | intro _
    | with_reducible apply State.serveFront_same
    | with_reducible apply State.answer_same
    | with_reducible apply Same.ite
    | with_reducible apply Same.foldl
    | with_reducible apply Same.foldlFst
    | with_reducible apply SameRes.next

theorem execMirrorRefresh_same {m0 : Nat} {r0 : State} {s : State} (hk : Same m0 r0 s) (hw : sub 4194320 m0 = true)
    : SameRes m0 r0 (execMirrorRefresh s) := by
  unfold execMirrorRefresh
  extract_lets a0 a1 a2
  have k0 : Same m0 r0 a0
  on_goal 1 => unfold a0
  rotate_left
  clear_value a0
  have k1 : Same m0 r0 a1
  on_goal 1 => unfold a1
  rotate_left
  clear_value a1
  try clear_value a2
  all_goals repeat' first
    | with_reducible assumption
    | exact sub_trans rfl hw
    | intro _
    | with_reducible apply State.reach_same
    | with_reducible apply State.modIo_same
    | with_reducible apply Same.ite
    | with_reducible apply Same.foldl
    | with_reducible apply Same.foldlFst
    | with_reducible apply SameRes.next
    | with_reducible apply SameRes.ite

theorem execReadMirror_same {m0 : Nat} {r0 : State} {start : Byte} {len : Byte} {s : State} (hk : Same m0 r0 s)
    (hw : sub 4194304 m0 = true) : SameRes m0 r0 (execReadMirror start len s) := by
  unfold execReadMirror
  try dsimp only
  repeat' first
    | with_reducible assumption
    | exact sub_trans rfl hw
    | intro _
    | with_reducible apply State.modIo_same
    | with_reducible apply Same.ite
    | with_reducible apply Same.foldl
    | with_reducible apply Same.foldlFst
    | with_reducible apply SameRes.next
    | with_reducible apply SameRes.ite

theorem execReadMsg_same {m0 : Nat} {r0 : State} {s : State} (hk : Same m0 r0 s) (hw : sub 4194304 m0 = true) : SameRes m0 r0
    (execReadMsg s) := by
  unfold execReadMsg
  try dsimp only
  repeat' first
    | with_reducible assumption
    | exact sub_trans rfl hw
    | intro _
    | with_reducible apply State.modIo_same
    | with_reducible apply State.modSvc_same
    | with_reducible apply Same.ite
    | with_reducible apply Same.foldl
    | with_reducible apply Same.foldlFst
    | with_reducible apply SameRes.next
    | with_reducible apply SameRes.ite

theorem execReadReg_same {m0 : Nat} {r0 : State} {ifc : Fin 3} {s : State} (hk : Same m0 r0 s) (hw : sub 4194305 m0 = true)
    : SameRes m0 r0 (execReadReg ifc s) := by
  unfold execReadReg
  try dsimp only
  repeat' first
    | with_reducible assumption
    | exact sub_trans rfl hw
    | intro _
    | with_reducible apply State.serveFront_same
    | with_reducible apply State.answer_same
    | with_reducible apply Same.ite
    | with_reducible apply Same.foldl
    | with_reducible apply Same.foldlFst
    | with_reducible apply SameRes.next

theorem execSceneRequest_same {m0 : Nat} {r0 : State} {ifc : Fin 3} {s : State} (hk : Same m0 r0 s)
    (hw : sub 33028105 m0 = true) : SameRes m0 r0 (execSceneRequest ifc s) := by
  unfold execSceneRequest
  try dsimp only
  repeat' first
    | with_reducible assumption
    | exact sub_trans rfl hw
    | intro _
    | with_reducible apply State.serveFront_same
    | with_reducible apply State.answer_same
    | with_reducible apply State.accept_same
    | with_reducible apply Same.ite
    | with_reducible apply Same.foldl
    | with_reducible apply Same.foldlFst
    | with_reducible apply SameRes.next
    | with_reducible apply SameRes.ite
    | split

theorem execServiceClose_same {m0 : Nat} {r0 : State} {ifc : Fin 3} {s : State} (hk : Same m0 r0 s)
    (hw : sub 4194305 m0 = true) : SameRes m0 r0 (execServiceClose ifc s) := by
  unfold execServiceClose
  try dsimp only
  repeat' first
    | with_reducible assumption
    | exact sub_trans rfl hw
    | intro _
    | with_reducible apply State.serveFront_same
    | with_reducible apply State.modSvc_same
    | with_reducible apply State.answer_same
    | with_reducible apply Same.ite
    | with_reducible apply Same.foldl
    | with_reducible apply Same.foldlFst
    | with_reducible apply SameRes.next

theorem execServiceOpen_same {m0 : Nat} {r0 : State} {ifc : Fin 3} {s : State} (hk : Same m0 r0 s)
    (hw : sub 4194337 m0 = true) : SameRes m0 r0 (execServiceOpen ifc s) := by
  unfold execServiceOpen
  try dsimp only
  repeat' first
    | with_reducible assumption
    | exact sub_trans rfl hw
    | intro _
    | with_reducible apply State.serveFront_same
    | with_reducible apply State.authFail_same
    | with_reducible apply State.draw_same
    | with_reducible apply State.modSvc_same
    | with_reducible apply State.answer_same
    | with_reducible apply Same.ite
    | with_reducible apply Same.foldl
    | with_reducible apply Same.foldlFst
    | with_reducible apply SameRes.next
    | with_reducible apply SameRes.ite
    | split

theorem execServiceStatus_same {m0 : Nat} {r0 : State} {ifc : Fin 3} {s : State} (hk : Same m0 r0 s)
    (hw : sub 4194305 m0 = true) : SameRes m0 r0 (execServiceStatus ifc s) := by
  unfold execServiceStatus
  try dsimp only
  repeat' first
    | with_reducible assumption
    | exact sub_trans rfl hw
    | intro _
    | with_reducible apply State.serveFront_same
    | with_reducible apply State.answer_same
    | with_reducible apply Same.ite
    | with_reducible apply Same.foldl
    | with_reducible apply Same.foldlFst
    | with_reducible apply SameRes.next

theorem execSessionIdleTimeout_same {m0 : Nat} {r0 : State} {ifc : Fin 3} {s : State} (hk : Same m0 r0 s)
    (hw : sub 4194320 m0 = true) : SameRes m0 r0 (execSessionIdleTimeout ifc s) := by
  unfold execSessionIdleTimeout
  try dsimp only
  repeat' first
    | with_reducible assumption
    | exact sub_trans rfl hw
    | intro _
    | with_reducible apply State.modSvc_same
    | with_reducible apply State.reach_same
    | with_reducible apply Same.ite
    | with_reducible apply Same.foldl
    | with_reducible apply Same.foldlFst
    | with_reducible apply SameRes.next
    | with_reducible apply SameRes.ite

theorem execStageBegin_same {m0 : Nat} {r0 : State} {ifc : Fin 3} {s : State} (hk : Same m0 r0 s) (hw : sub 4194433 m0 = true)
    : SameRes m0 r0 (execStageBegin ifc s) := by
  unfold execStageBegin
  have b7 : sub 128 m0 = true := sub_trans rfl hw
  try dsimp only
  repeat' first
    | with_reducible assumption
    | exact sub_trans rfl hw
    | intro _
    | with_reducible apply State.serveFront_same
    | with_reducible apply State.answer_same
    | with_reducible apply State.setReg_same
    | with_reducible apply State.showStage_same
    | with_reducible apply State.modStage_same
    | with_reducible apply Same.ite
    | with_reducible apply Same.foldl
    | with_reducible apply Same.foldlFst
    | fail_if_no_progress with_reducible refine Same.upd_7 ?_ b7
    | with_reducible apply SameRes.next

theorem execStageChunk_same {m0 : Nat} {r0 : State} {ifc : Fin 3} {s : State} (hk : Same m0 r0 s) (hw : sub 4194337 m0 = true)
    : SameRes m0 r0 (execStageChunk ifc s) := by
  unfold execStageChunk
  try dsimp only
  repeat' first
    | with_reducible assumption
    | exact sub_trans rfl hw
    | intro _
    | with_reducible apply State.stageFront_same
    | with_reducible apply State.answer_same
    | with_reducible apply State.modStage_same
    | with_reducible apply Same.ite
    | with_reducible apply Same.foldl
    | with_reducible apply Same.foldlFst
    | with_reducible apply SameRes.next

theorem execStageChunkProgrammed_same {m0 : Nat} {r0 : State} {s : State} (hk : Same m0 r0 s) (hw : sub 4194433 m0 = true)
    : SameRes m0 r0 (execStageChunkProgrammed s) := by
  unfold execStageChunkProgrammed
  have b7 : sub 128 m0 = true := sub_trans rfl hw
  try dsimp only
  repeat' first
    | with_reducible assumption
    | exact sub_trans rfl hw
    | intro _
    | with_reducible apply State.modStage_same
    | with_reducible apply State.stageAnswer_same
    | with_reducible apply Same.ite
    | with_reducible apply Same.foldl
    | with_reducible apply Same.foldlFst
    | fail_if_no_progress with_reducible refine Same.upd_7 ?_ b7
    | with_reducible apply SameRes.next
    | with_reducible apply SameRes.ite
    | split

theorem execStageEnd_same {m0 : Nat} {r0 : State} {ifc : Fin 3} {s : State} (hk : Same m0 r0 s) (hw : sub 4194337 m0 = true)
    : SameRes m0 r0 (execStageEnd ifc s) := by
  unfold execStageEnd
  try dsimp only
  repeat' first
    | with_reducible assumption
    | exact sub_trans rfl hw
    | intro _
    | with_reducible apply State.stageFront_same
    | with_reducible apply State.showStage_same
    | with_reducible apply State.modStage_same
    | with_reducible apply Same.ite
    | with_reducible apply Same.foldl
    | with_reducible apply Same.foldlFst
    | with_reducible apply SameRes.next

theorem execStageEraseDone_same {m0 : Nat} {r0 : State} {s : State} (hk : Same m0 r0 s) (hw : sub 4194433 m0 = true)
    : SameRes m0 r0 (execStageEraseDone s) := by
  unfold execStageEraseDone
  have b7 : sub 128 m0 = true := sub_trans rfl hw
  extract_lets a0 a1 a2 a3
  try clear_value a0
  try clear_value a1
  have k2 : Same m0 r0 a2
  on_goal 1 => unfold a2
  rotate_left
  clear_value a2
  have k3 : Same m0 r0 a3
  on_goal 1 => unfold a3
  rotate_left
  clear_value a3
  all_goals repeat' first
    | with_reducible assumption
    | exact sub_trans rfl hw
    | intro _
    | with_reducible apply State.modStage_same
    | with_reducible apply State.stageAnswer_same
    | with_reducible apply Same.ite
    | with_reducible apply Same.foldl
    | with_reducible apply Same.foldlFst
    | fail_if_no_progress with_reducible refine Same.upd_7 ?_ b7
    | with_reducible apply SameRes.next
    | with_reducible apply SameRes.ite

theorem execStageIdleTimeout_same {m0 : Nat} {r0 : State} {s : State} (hk : Same m0 r0 s) (hw : sub 4259857 m0 = true)
    : SameRes m0 r0 (execStageIdleTimeout s) := by
  unfold execStageIdleTimeout
  extract_lets a0 a1 a2
  try clear_value a0
  have k1 : Same m0 r0 a1
  on_goal 1 => unfold a1
  rotate_left
  clear_value a1
  have k2 : Same m0 r0 a2
  on_goal 1 => unfold a2
  rotate_left
  clear_value a2
  all_goals repeat' first
    | with_reducible assumption
    | exact sub_trans rfl hw
    | intro _
    | with_reducible apply State.reach_same
    | with_reducible apply State.log_same
    | with_reducible apply State.showStage_same
    | with_reducible apply State.modStage_same
    | with_reducible apply Same.ite
    | with_reducible apply Same.foldl
    | with_reducible apply Same.foldlFst
    | with_reducible apply SameRes.next
    | with_reducible apply SameRes.ite

theorem execStageStatus_same {m0 : Nat} {r0 : State} {ifc : Fin 3} {s : State} (hk : Same m0 r0 s)
    (hw : sub 4194305 m0 = true) : SameRes m0 r0 (execStageStatus ifc s) := by
  unfold execStageStatus
  try dsimp only
  repeat' first
    | with_reducible assumption
    | exact sub_trans rfl hw
    | intro _
    | with_reducible apply State.serveFront_same
    | with_reducible apply State.answer_same
    | with_reducible apply Same.ite
    | with_reducible apply Same.foldl
    | with_reducible apply Same.foldlFst
    | with_reducible apply SameRes.next

theorem execStageVerifyDone_same {m0 : Nat} {r0 : State} {s : State} (hk : Same m0 r0 s) (hw : sub 4195457 m0 = true)
    : SameRes m0 r0 (execStageVerifyDone s) := by
  unfold execStageVerifyDone
  have b7 : sub 128 m0 = true := sub_trans rfl hw
  extract_lets a0 a1 a2 a3 a4 a5 a6 a7
  try clear_value a0
  try clear_value a1
  try clear_value a2
  try clear_value a3
  try clear_value a4
  have k5 : Same m0 r0 a5
  on_goal 1 => unfold a5
  rotate_left
  clear_value a5
  have k6 : Same m0 r0 a6
  on_goal 1 => unfold a6
  rotate_left
  clear_value a6
  have k7 : Same m0 r0 a7
  on_goal 1 => unfold a7
  rotate_left
  clear_value a7
  all_goals repeat' first
    | with_reducible assumption
    | exact sub_trans rfl hw
    | intro _
    | with_reducible apply State.modStage_same
    | with_reducible apply State.modKin_same
    | with_reducible apply State.stageAnswer_same
    | with_reducible apply State.showStage_same
    | with_reducible apply Same.ite
    | with_reducible apply Same.foldl
    | with_reducible apply Same.foldlFst
    | fail_if_no_progress with_reducible refine Same.upd_7 ?_ b7
    | with_reducible apply SameRes.next
    | with_reducible apply SameRes.ite

theorem execWriteMsg_same {m0 : Nat} {r0 : State} {data : List Byte} {s : State} (hk : Same m0 r0 s)
    (hw : sub 4194305 m0 = true) : SameRes m0 r0 (execWriteMsg data s) := by
  unfold execWriteMsg
  try dsimp only
  repeat' first
    | with_reducible assumption
    | exact sub_trans rfl hw
    | intro _
    | with_reducible apply State.badMessage_same
    | with_reducible apply State.takeMessage_same
    | with_reducible apply Same.ite
    | with_reducible apply Same.foldl
    | with_reducible apply Same.foldlFst
    | with_reducible apply SameRes.next
    | with_reducible apply SameRes.ite

/-! ### Machine/Ports.lean -/

theorem State.submitCheck_same {m0 : Nat} {r0 : State} {s : State} {bank : Nat} {domain : Nat} {a : Nat} (hk : Same m0 r0 s)
    (hw : sub 8593409 m0 = true) : Same m0 r0 (State.submitCheck s bank domain a).1 := by
  unfold State.submitCheck
  try dsimp only
  repeat' first
    | with_reducible assumption
    | exact sub_trans rfl hw
    | intro _
    | with_reducible apply State.judgeRun_same
    | with_reducible apply Same.ite
    | with_reducible apply Same.foldl
    | with_reducible apply Same.foldlFst
    | split
    | dsimp only
    | (with_reducible apply Same.of_fst; rotate_left; with_reducible assumption)

theorem execOfSubGo_same {m0 : Nat} {r0 : State} {bank : Fin 5} {domain : BitVec 4} {value : Word} {s : State} (hk
    : Same m0 r0 s) (hw : sub 12787713 m0 = true) : SameRes m0 r0 (execOfSubGo bank domain value s) := by
  unfold execOfSubGo
  extract_lets a0 a1 a2 a3 a4
  try clear_value a0
  try clear_value a1
  try clear_value a2
  have k3 : Same m0 r0 a3.1
  on_goal 1 => unfold a3
  rotate_left
  clear_value a3
  have k4 : Same m0 r0 a4
  on_goal 1 => unfold a4
  rotate_left
  clear_value a4
  all_goals repeat' first
    | with_reducible assumption
    | exact sub_trans rfl hw
    | intro _
    | with_reducible apply State.submitCheck_same
    | with_reducible apply State.setFld_same
    | with_reducible apply State.modIo_same
    | with_reducible apply Same.ite
    | with_reducible apply Same.foldl
    | with_reducible apply Same.foldlFst
    | with_reducible apply SameRes.next
    | with_reducible apply SameRes.ite

theorem State.copyVs_same {m0 : Nat} {r0 : State} {s : State} {i : Nat} (hk : Same m0 r0 s) (hw : sub 8609797 m0 = true)
    : Same m0 r0 (State.copyVs s i) := by
  unfold State.copyVs
  try dsimp only
  repeat' first
    | with_reducible assumption
    | exact sub_trans rfl hw
    | intro _
    | with_reducible apply State.judgeRun_same
    | with_reducible apply State.write_same
    | with_reducible apply Same.ite
    | with_reducible apply Same.foldl
    | with_reducible apply Same.foldlFst
    | split
    | dsimp only
    | (with_reducible apply Same.of_fst; rotate_left; with_reducible assumption)

theorem State.ethAccept_same {m0 : Nat} {r0 : State} {s : State} {mac : Nat} (hk : Same m0 r0 s) (hw : sub 1 m0 = true)
    : Same m0 r0 (State.ethAccept s mac) := by
  unfold State.ethAccept
  try dsimp only
  repeat' first
    | with_reducible assumption
    | exact sub_trans rfl hw
    | intro _
    | with_reducible apply State.addCnt_same

theorem State.ethDrop_same {m0 : Nat} {r0 : State} {s : State} {mac : Nat} (hk : Same m0 r0 s) (hw : sub 1 m0 = true)
    : Same m0 r0 (State.ethDrop s mac) := by
  unfold State.ethDrop
  try dsimp only
  repeat' first
    | with_reducible assumption
    | exact sub_trans rfl hw
    | intro _
    | with_reducible apply State.event_same
    | with_reducible apply State.addCnt_same

theorem State.followUp_same {m0 : Nat} {r0 : State} {s : State} {mac : Nat} {t : EthTx} (hk : Same m0 r0 s)
    (hw : sub 4194305 m0 = true) : Same m0 r0 (State.followUp s mac t) := by
  unfold State.followUp
  try dsimp only
  repeat' first
    | with_reducible assumption
    | exact sub_trans rfl hw
    | intro _
    | with_reducible apply State.queueEth_same
    | with_reducible apply Same.ite

theorem State.gpioWrite_same {m0 : Nat} {r0 : State} {s : State} {domain : Nat} {value : Word} {level : Nat} (hk
    : Same m0 r0 s) (hw : sub 513 m0 = true) : Same m0 r0 (State.gpioWrite s domain value level) := by
  unfold State.gpioWrite
  try dsimp only
  repeat' first
    | with_reducible assumption
    | exact sub_trans rfl hw
    | intro _
    | with_reducible apply State.addCnt_same
    | with_reducible apply State.modPins_same
    | with_reducible apply Same.ite
    | with_reducible apply Same.foldl

theorem State.modVs_same {m0 : Nat} {r0 : State} {s : State} {i : Nat} {f : VsEntry → VsEntry} (hk : Same m0 r0 s)
    (hw : sub 4194304 m0 = true) : Same m0 r0 (State.modVs s i f) := by
  unfold State.modVs
  try dsimp only
  repeat' first
    | with_reducible assumption
    | exact sub_trans rfl hw
    | intro _
    | with_reducible apply State.modIo_same

theorem execGpioOutSet_same {m0 : Nat} {r0 : State} {domain : BitVec 4} {value : Word} {s : State} (hk : Same m0 r0 s)
    (hw : sub 513 m0 = true) : SameRes m0 r0 (execGpioOutSet domain value s) := by
  unfold execGpioOutSet
  try dsimp only
  repeat' first
    | with_reducible assumption
    | exact sub_trans rfl hw
    | intro _
    | with_reducible apply State.gpioWrite_same
    | with_reducible apply Same.ite
    | with_reducible apply Same.foldl
    | with_reducible apply Same.foldlFst
    | with_reducible apply SameRes.next

theorem execGpioOutClr_same {m0 : Nat} {r0 : State} {domain : BitVec 4} {value : Word} {s : State} (hk : Same m0 r0 s)
    (hw : sub 513 m0 = true) : SameRes m0 r0 (execGpioOutClr domain value s) := by
  unfold execGpioOutClr
  try dsimp only
  repeat' first
    | with_reducible assumption
    | exact sub_trans rfl hw
    | intro _
    | with_reducible apply State.gpioWrite_same
    | with_reducible apply Same.ite
    | with_reducible apply Same.foldl
    | with_reducible apply Same.foldlFst
    | with_reducible apply SameRes.next

theorem execCanVsStateRead_same {m0 : Nat} {r0 : State} {can : Fin 2} {s : State} (hk : Same m0 r0 s) (hw : sub 1 m0 = true)
    : SameRes m0 r0 (execCanVsStateRead can s) := by
  unfold execCanVsStateRead
  try dsimp only
  repeat' first
    | with_reducible assumption
    | exact sub_trans rfl hw
    | intro _
    | with_reducible apply State.setReg_same
    | with_reducible apply Same.ite
    | with_reducible apply Same.foldl
    | with_reducible apply Same.foldlFst
    | with_reducible apply SameRes.next

theorem State.takeGptp_same {m0 : Nat} {r0 : State} {s : State} {mac : Nat} {b : List Byte} (hk : Same m0 r0 s)
    (hw : sub 4194305 m0 = true) : Same m0 r0 (State.takeGptp s mac b) := by
  unfold State.takeGptp
  try dsimp only
  repeat' first
    | with_reducible assumption
    | exact sub_trans rfl hw
    | intro _
    | with_reducible apply State.queueEth_same
    | with_reducible apply Same.ite

theorem State.takeVs_same {m0 : Nat} {r0 : State} {s : State} {can : Nat} {i : Nat} {data : List Byte} (hk : Same m0 r0 s)
    (hw : sub 33028109 m0 = true) : Same m0 r0 (State.takeVs s can i data) := by
  unfold State.takeVs
  try dsimp only
  repeat' first
    | with_reducible assumption
    | exact sub_trans rfl hw
    | intro _
    | with_reducible apply State.modVs_same
    | with_reducible apply State.event_same
    | with_reducible apply State.evalTriggers_same
    | with_reducible apply State.copyVs_same
    | with_reducible apply Same.ite
    | with_reducible apply Same.foldl
    | with_reducible apply Same.foldlFst
    | split

theorem execCanBusOffRecovery_same {m0 : Nat} {r0 : State} {can : Fin 2} {s : State} (hk : Same m0 r0 s)
    (hw : sub 1 m0 = true) : SameRes m0 r0 (execCanBusOffRecovery can s) := by
  unfold execCanBusOffRecovery
  extract_lets a0 a1
  try clear_value a0
  have k1 : Same m0 r0 a1
  on_goal 1 => unfold a1
  rotate_left
  clear_value a1
  all_goals repeat' first
    | with_reducible assumption
    | exact sub_trans rfl hw
    | intro _
    | with_reducible apply State.event_same
    | with_reducible apply State.setFld_same
    | with_reducible apply Same.ite
    | with_reducible apply Same.foldl
    | with_reducible apply Same.foldlFst
    | with_reducible apply SameRes.next
    | with_reducible apply SameRes.ite

theorem execCanFrameRx_same {m0 : Nat} {r0 : State} {can : Fin 2} {id : Word} {ext : Bool} {data : List Byte} {s : State} (hk
    : Same m0 r0 s) (hw : sub 33028109 m0 = true) : SameRes m0 r0 (execCanFrameRx can id ext data s) := by
  unfold execCanFrameRx
  try dsimp only
  repeat' first
    | with_reducible assumption
    | exact sub_trans rfl hw
    | intro _
    | with_reducible apply State.takeVs_same
    | with_reducible apply Same.ite
    | with_reducible apply Same.foldl
    | with_reducible apply Same.foldlFst
    | with_reducible apply SameRes.next
    | with_reducible apply SameRes.ite

theorem execCanFrameTx_same {m0 : Nat} {r0 : State} {can : Fin 2} {s : State} (hk : Same m0 r0 s) (hw : sub 4194304 m0 = true)
    : SameRes m0 r0 (execCanFrameTx can s) := by
  unfold execCanFrameTx
  try dsimp only
  repeat' first
    | with_reducible assumption
    | exact sub_trans rfl hw
    | intro _
    | with_reducible apply State.modIo_same
    | with_reducible apply Same.ite
    | with_reducible apply Same.foldl
    | with_reducible apply Same.foldlFst
    | with_reducible apply SameRes.next
    | with_reducible apply SameRes.ite
    | split

theorem execEthFrameRx_same {m0 : Nat} {r0 : State} {mac : Fin 2} {data : List Byte} {fcsOk : Bool} {s : State} (hk
    : Same m0 r0 s) (hw : sub 4194305 m0 = true) : SameRes m0 r0 (execEthFrameRx mac data fcsOk s) := by
  unfold execEthFrameRx
  try dsimp only
  repeat' first
    | with_reducible assumption
    | exact sub_trans rfl hw
    | intro _
    | with_reducible apply State.ethDrop_same
    | with_reducible apply State.addCnt_same
    | with_reducible apply State.queueEth_same
    | with_reducible apply State.ethAccept_same
    | with_reducible apply State.takeGptp_same
    | with_reducible apply State.takeMessage_same
    | with_reducible apply Same.ite
    | with_reducible apply Same.foldl
    | with_reducible apply Same.foldlFst
    | with_reducible apply SameRes.next
    | with_reducible apply SameRes.ite
    | split

theorem execEthFrameTx_same {m0 : Nat} {r0 : State} {mac : Fin 2} {s : State} (hk : Same m0 r0 s) (hw : sub 4194337 m0 = true)
    : SameRes m0 r0 (execEthFrameTx mac s) := by
  unfold execEthFrameTx
  extract_lets a0 a1
  try clear_value a0
  have k1 : Same m0 r0 a1.2
  on_goal 1 => unfold a1
  rotate_left
  clear_value a1
  all_goals repeat' first
    | with_reducible assumption
    | exact sub_trans rfl hw
    | intro _
    | with_reducible apply State.draw_same
    | with_reducible apply State.modIo_same
    | with_reducible apply State.followUp_same
    | with_reducible apply State.addCnt_same
    | with_reducible apply Same.ite
    | with_reducible apply Same.foldl
    | with_reducible apply Same.foldlFst
    | with_reducible apply SameRes.next
    | with_reducible apply SameRes.ite
    | split

theorem execEthLinkChange_same {m0 : Nat} {r0 : State} {mac : Fin 2} {up : Bool} {speed : BitVec 2} {s : State} (hk
    : Same m0 r0 s) (hw : sub 1 m0 = true) : SameRes m0 r0 (execEthLinkChange mac up speed s) := by
  unfold execEthLinkChange
  try dsimp only
  repeat' first
    | with_reducible assumption
    | exact sub_trans rfl hw
    | intro _
    | with_reducible apply State.setFlag_same
    | with_reducible apply State.setFld_same
    | with_reducible apply State.event_same
    | with_reducible apply Same.ite
    | with_reducible apply Same.foldl
    | with_reducible apply Same.foldlFst
    | with_reducible apply SameRes.next
    | with_reducible apply SameRes.ite

theorem execGpioFilterExpiry_same {m0 : Nat} {r0 : State} {n : Fin 32} {level : Bool} {s : State} (hk : Same m0 r0 s)
    (hw : sub 33028105 m0 = true) : SameRes m0 r0 (execGpioFilterExpiry n level s) := by
  unfold execGpioFilterExpiry
  extract_lets a0 a1
  try clear_value a0
  have k1 : Same m0 r0 a1
  on_goal 1 => unfold a1
  rotate_left
  clear_value a1
  all_goals repeat' first
    | with_reducible assumption
    | exact sub_trans rfl hw
    | intro _
    | with_reducible apply State.setFlag_same
    | with_reducible apply State.evalTriggers_same
    | with_reducible apply Same.ite
    | with_reducible apply Same.foldl
    | with_reducible apply Same.foldlFst
    | with_reducible apply SameRes.next
    | with_reducible apply SameRes.ite

theorem execOfCopyDone_same {m0 : Nat} {r0 : State} {s : State} (hk : Same m0 r0 s) (hw : sub 4390913 m0 = true)
    : SameRes m0 r0 (execOfCopyDone s) := by
  unfold execOfCopyDone
  try dsimp only
  repeat' first
    | with_reducible assumption
    | exact sub_trans rfl hw
    | intro _
    | with_reducible apply State.modIo_same
    | with_reducible apply State.offerPrimary_same
    | with_reducible apply State.handOver_same
    | with_reducible apply Same.ite
    | with_reducible apply Same.foldl
    | with_reducible apply Same.foldlFst
    | with_reducible apply SameRes.next
    | with_reducible apply SameRes.ite
    | split

theorem execPeerDelayRequest_same {m0 : Nat} {r0 : State} {mac : Fin 2} {s : State} (hk : Same m0 r0 s)
    (hw : sub 4194337 m0 = true) : SameRes m0 r0 (execPeerDelayRequest mac s) := by
  unfold execPeerDelayRequest
  extract_lets a0 a1
  try clear_value a0
  have k1 : Same m0 r0 a1.2
  on_goal 1 => unfold a1
  rotate_left
  clear_value a1
  all_goals repeat' first
    | with_reducible assumption
    | exact sub_trans rfl hw
    | intro _
    | with_reducible apply State.draw_same
    | with_reducible apply State.queueEth_same
    | with_reducible apply Same.ite
    | with_reducible apply Same.foldl
    | with_reducible apply Same.foldlFst
    | with_reducible apply SameRes.next
    | with_reducible apply SameRes.ite

theorem execPpsEdge_same {m0 : Nat} {r0 : State} {s : State} (hk : Same m0 r0 s) (hw : sub 4194320 m0 = true) : SameRes m0 r0
    (execPpsEdge s) := by
  unfold execPpsEdge
  try dsimp only
  repeat' first
    | with_reducible assumption
    | exact sub_trans rfl hw
    | intro _
    | with_reducible apply State.modIo_same
    | with_reducible apply State.reach_same
    | with_reducible apply Same.ite
    | with_reducible apply Same.foldl
    | with_reducible apply Same.foldlFst
    | with_reducible apply SameRes.next
    | with_reducible apply SameRes.ite

theorem execVsStaleTimeout_same {m0 : Nat} {r0 : State} {entry : Fin 32} {s : State} (hk : Same m0 r0 s)
    (hw : sub 33028125 m0 = true) : SameRes m0 r0 (execVsStaleTimeout entry s) := by
  unfold execVsStaleTimeout
  extract_lets a0 a1 a2 a3
  try clear_value a0
  try clear_value a1
  try clear_value a2
  have k3 : Same m0 r0 a3
  on_goal 1 => unfold a3
  rotate_left
  clear_value a3
  all_goals repeat' first
    | with_reducible assumption
    | exact sub_trans rfl hw
    | intro _
    | with_reducible apply State.modVs_same
    | with_reducible apply State.reach_same
    | with_reducible apply State.evalTriggers_same
    | with_reducible apply State.copyVs_same
    | with_reducible apply State.event_same
    | with_reducible apply Same.ite
    | with_reducible apply Same.foldl
    | with_reducible apply Same.foldlFst
    | with_reducible apply SameRes.next
    | with_reducible apply SameRes.ite

/-! ### Machine/RegOps.lean -/

theorem State.bankRow_same {m0 : Nat} {r0 : State} {s : State} {b : Fin 5} {domain : BitVec 4} {o : Nat} {value : Word} (hk
    : Same m0 r0 s) (hw : sub 14888961 m0 = true) : SameOpt m0 r0 (State.bankRow s b domain o value) := by
  unfold State.bankRow
  try dsimp only
  repeat' first
    | with_reducible assumption
    | exact sub_trans rfl hw
    | intro _
    | with_reducible apply execFgsPost_same
    | with_reducible apply execEjFwPost_same
    | with_reducible apply execOfSubGo_same
    | with_reducible apply execIspUpdGo_same
    | with_reducible apply Same.ite
    | with_reducible apply Same.foldl
    | with_reducible apply Same.foldlFst
    | with_reducible apply SameOpt.none
    | with_reducible apply SameOpt.some
    | with_reducible apply SameOpt.ite
    | with_reducible apply SameOpt.map

theorem State.clearRegs_same {m0 : Nat} {r0 : State} {s : State} {base : Nat} {o : Nat} {value : Word} (hk : Same m0 r0 s)
    (hw : sub 32769 m0 = true) : Same m0 r0 (State.clearRegs s base o value) := by
  unfold State.clearRegs
  try dsimp only
  repeat' first
    | with_reducible assumption
    | exact sub_trans rfl hw
    | intro _
    | with_reducible apply State.setReg_same
    | with_reducible apply State.modUnit_same
    | with_reducible apply Same.ite
    | with_reducible apply Same.foldl
    | with_reducible apply Same.foldlFst
    | split

theorem State.setShadow_same {m0 : Nat} {r0 : State} {s : State} {a : Nat} {v : Word} (hk : Same m0 r0 s)
    (hw : sub 2 m0 = true) : Same m0 r0 (State.setShadow s a v) := by
  unfold State.setShadow
  have b1 : sub 2 m0 = true := sub_trans rfl hw
  try dsimp only
  repeat' first
    | with_reducible assumption
    | exact sub_trans rfl hw
    | intro _
    | with_reducible apply Same.ite
    | with_reducible apply Same.foldl
    | with_reducible apply Same.foldlFst
    | fail_if_no_progress with_reducible refine Same.upd_1 ?_ b1

theorem State.commitBlock_same {m0 : Nat} {r0 : State} {s : State} {lo : Nat} {hi : Nat} (hk : Same m0 r0 s)
    (hw : sub 3 m0 = true) : Same m0 r0 (State.commitBlock s lo hi) := by
  unfold State.commitBlock
  extract_lets a0 a1
  try clear_value a0
  have k1 : Same m0 r0 a1
  on_goal 1 => unfold a1
  rotate_left
  clear_value a1
  all_goals repeat' first
    | with_reducible assumption
    | exact sub_trans rfl hw
    | intro _
    | with_reducible apply State.commitShadows_same
    | with_reducible apply State.setShadow_same
    | with_reducible apply State.setReg_same
    | with_reducible apply Same.ite
    | with_reducible apply Same.foldl

theorem State.forgetUnits_same {m0 : Nat} {r0 : State} {s : State} (hk : Same m0 r0 s) (hw : sub 4096 m0 = true) : Same m0 r0
    (State.forgetUnits s) := by
  unfold State.forgetUnits
  have b12 : sub 4096 m0 = true := sub_trans rfl hw
  try dsimp only
  repeat' first
    | with_reducible assumption
    | exact sub_trans rfl hw
    | intro _
    | with_reducible apply Same.ite
    | with_reducible apply Same.foldl
    | with_reducible apply Same.foldlFst
    | fail_if_no_progress with_reducible refine Same.upd_12 ?_ b12

theorem cvuGo_same {m0 : Nat} {r0 : State} {n : Fin 8} {domain : BitVec 4} {value : Word} {s : State} (hk : Same m0 r0 s)
    (hw : sub 16973857 m0 = true) : Same m0 r0 (cvuGo n domain value s) := by
  unfold cvuGo
  extract_lets a0
  have k0 : Same m0 r0 a0
  on_goal 1 => unfold a0
  rotate_left
  clear_value a0
  all_goals repeat' first
    | with_reducible assumption
    | exact sub_trans rfl hw
    | intro _
    | with_reducible apply Same.orElse
    | with_reducible apply execCvuCancel_same
    | with_reducible apply execCvuTapArm_same
    | with_reducible apply execCvuMemoryJob_same
    | with_reducible apply Same.ite

theorem State.instRow_same {m0 : Nat} {r0 : State} {s : State} {domain : BitVec 4} {o : Nat} {value : Word} (hk
    : Same m0 r0 s) (hw : sub 295161897 m0 = true) : SameOpt m0 r0 (State.instRow s domain o value) := by
  unfold State.instRow
  try dsimp only
  repeat' first
    | with_reducible assumption
    | exact sub_trans rfl hw
    | intro _
    | with_reducible apply execFgsPcDone_same
    | with_reducible apply execI3cBatchGo_same
    | with_reducible apply execIcuEoi_same
    | with_reducible apply execAbortAck_same
    | with_reducible apply execSiHbWrite_same
    | with_reducible apply execBmResume_same
    | with_reducible apply cvuGo_same
    | with_reducible apply Same.ite
    | with_reducible apply Same.foldl
    | with_reducible apply Same.foldlFst
    | with_reducible apply SameOpt.none
    | with_reducible apply SameOpt.some
    | with_reducible apply SameOpt.ite
    | with_reducible apply SameOpt.map
    | with_reducible apply SameOpt.bind
    | with_reducible apply SameOpt.or
    | with_reducible apply SameRes.next

theorem State.singleRow_same {m0 : Nat} {r0 : State} {s : State} {domain : BitVec 4} {o : Nat} {value : Word} (hk
    : Same m0 r0 s) (hw : sub 277205513 m0 = true) : SameOpt m0 r0 (State.singleRow s domain o value) := by
  unfold State.singleRow
  try dsimp only
  repeat' first
    | with_reducible assumption
    | exact sub_trans rfl hw
    | intro _
    | with_reducible apply execFgsCancel_same
    | with_reducible apply execIcuSwiSet_same
    | with_reducible apply execIcuSwiClr_same
    | with_reducible apply execGpioOutSet_same
    | with_reducible apply execGpioOutClr_same
    | with_reducible apply Same.ite
    | with_reducible apply Same.foldl
    | with_reducible apply Same.foldlFst
    | with_reducible apply SameOpt.none
    | with_reducible apply SameOpt.some
    | with_reducible apply SameOpt.ite

theorem State.tileRow_same {m0 : Nat} {r0 : State} {s : State} {domain : BitVec 4} {o : Nat} {value : Word} (hk
    : Same m0 r0 s) (hw : sub 65537 m0 = true) : SameOpt m0 r0 (State.tileRow s domain o value) := by
  unfold State.tileRow
  try dsimp only
  repeat' first
    | with_reducible assumption
    | exact sub_trans rfl hw
    | intro _
    | with_reducible apply execNtWinWrite_same
    | with_reducible apply execNtCredWrite_same
    | with_reducible apply Same.ite
    | with_reducible apply Same.foldl
    | with_reducible apply Same.foldlFst
    | with_reducible apply SameOpt.none
    | with_reducible apply SameOpt.some
    | with_reducible apply SameOpt.ite
    | with_reducible apply SameOpt.map
    | with_reducible apply SameOpt.bind
    | with_reducible apply SameOpt.or
    | with_reducible apply SameRes.next
    | with_reducible apply SameRes.ite

theorem State.ownRow_same {m0 : Nat} {r0 : State} {s : State} {bank : Nat} {domain : BitVec 4} {o : Nat} {value : Word} (hk
    : Same m0 r0 s) (hw : sub 301462059 m0 = true) : SameOpt m0 r0 (State.ownRow s bank domain o value) := by
  unfold State.ownRow
  try dsimp only
  repeat' first
    | with_reducible assumption
    | exact sub_trans rfl hw
    | intro _
    | with_reducible apply execFwlRgnCtrlWrite_same
    | with_reducible apply State.bankRow_same
    | with_reducible apply State.singleRow_same
    | with_reducible apply State.instRow_same
    | with_reducible apply State.tileRow_same
    | with_reducible apply Same.ite
    | with_reducible apply Same.foldl
    | with_reducible apply Same.foldlFst
    | with_reducible apply SameOpt.none
    | with_reducible apply SameOpt.some
    | with_reducible apply SameOpt.ite
    | with_reducible apply SameOpt.map
    | with_reducible apply SameOpt.bind
    | with_reducible apply SameOpt.or

theorem State.storeReg_same {m0 : Nat} {r0 : State} {s : State} {bank : Nat} {o : Nat} {r : RegSpec} {value : Word} (hk
    : Same m0 r0 s) (hw : sub 65539 m0 = true) : Same m0 r0 (State.storeReg s bank o r value) := by
  unfold State.storeReg
  extract_lets a0 a1 a2 a3 a4
  try clear_value a0
  try clear_value a1
  try clear_value a2
  have k3 : Same m0 r0 a3
  on_goal 1 => unfold a3
  rotate_left
  clear_value a3
  have k4 : Same m0 r0 a4
  on_goal 1 => unfold a4
  rotate_left
  clear_value a4
  all_goals repeat' first
    | with_reducible assumption
    | exact sub_trans rfl hw
    | intro _
    | with_reducible apply State.setShadow_same
    | with_reducible apply State.setReg_same
    | with_reducible apply State.log_same
    | with_reducible apply Same.ite

theorem State.putReg_same {m0 : Nat} {r0 : State} {s : State} {bank : Nat} {domain : BitVec 4} {o : Nat} {value : Word} (hk
    : Same m0 r0 s) (hw : sub 301462059 m0 = true) : Same m0 r0 (State.putReg s bank domain o value) := by
  unfold State.putReg
  try dsimp only
  repeat' first
    | with_reducible assumption
    | exact sub_trans rfl hw
    | intro _
    | with_reducible apply Same.orElse
    | with_reducible apply State.cvuRefuse_same
    | with_reducible apply State.clearRegs_same
    | with_reducible apply State.storeReg_same
    | with_reducible apply execFgsAffinityForget_same
    | with_reducible apply Same.ite
    | with_reducible apply Same.foldl
    | with_reducible apply Same.foldlFst
    | split
    | dsimp only
    | with_reducible refine (State.ownRow_same ?_ ?_).of _ ‹_›

theorem State.writeReg_same {m0 : Nat} {r0 : State} {s : State} {bank : Nat} {domain : BitVec 4} {off : Nat} {value : Word}
    (hk : Same m0 r0 s) (hw : sub 301462059 m0 = true) : Same m0 r0 (State.writeReg s bank domain off value).1 := by
  unfold State.writeReg
  try dsimp only
  repeat' first
    | with_reducible assumption
    | exact sub_trans rfl hw
    | intro _
    | with_reducible apply State.fwRefuse_same
    | with_reducible apply State.putReg_same
    | with_reducible apply Same.ite
    | with_reducible apply Same.foldl
    | with_reducible apply Same.foldlFst
    | split

/-! ### Machine/Registers.lean -/

theorem State.completeAt_same {m0 : Nat} {r0 : State} {s : State} {n : Nat} {pc : Word} (hk : Same m0 r0 s)
    (hw : sub 16384 m0 = true) : Same m0 r0 (State.completeAt s n pc) := by
  unfold State.completeAt
  try dsimp only
  repeat' first
    | with_reducible assumption
    | exact sub_trans rfl hw
    | intro _
    | with_reducible apply State.modCore_same

theorem State.setLoaded_same {m0 : Nat} {r0 : State} {s : State} {n : Nat} {fp : Bool} {zext : Bool} {rd : Fin 32}
    {bs : List Byte} (hk : Same m0 r0 s) (hw : sub 16384 m0 = true) : Same m0 r0 (State.setLoaded s n fp zext rd bs) := by
  unfold State.setLoaded
  try dsimp only
  repeat' first
    | with_reducible assumption
    | exact sub_trans rfl hw
    | intro _
    | with_reducible apply State.modCore_same

theorem State.fabricAccess_same {m0 : Nat} {r0 : State} {s : State} {n : Nat} {domain : Nat} {kind : AccessKind} {rd : Fin 32}
    {a : Nat} {len : Nat} {value : Word} {ecc : List EccHit} (hk : Same m0 r0 s) (hw : sub 301988877 m0 = true) : Same m0 r0
    (State.fabricAccess s n domain kind rd a len value ecc).1 := by
  unfold State.fabricAccess
  extract_lets a0 a1 a2 a3 a4 a5
  try clear_value a0
  have k1 : Same m0 r0 a1.1
  on_goal 1 => unfold a1
  rotate_left
  clear_value a1
  have k2 : Same m0 r0 a2.1
  on_goal 1 => unfold a2
  rotate_left
  clear_value a2
  have k3 : Same m0 r0 a3
  on_goal 1 => unfold a3
  rotate_left
  clear_value a3
  try clear_value a4
  have k5 : Same m0 r0 a5.1
  on_goal 1 => unfold a5
  rotate_left
  clear_value a5
  all_goals repeat' first
    | with_reducible assumption
    | exact sub_trans rfl hw
    | intro _
    | with_reducible apply State.eccHits_same
    | with_reducible apply State.judgeReads_same
    | with_reducible apply State.endRemote_same
    | with_reducible apply State.setLoaded_same
    | with_reducible apply State.judgeWrites_same
    | with_reducible apply State.write_same
    | with_reducible apply Same.ite
    | with_reducible apply Same.foldl
    | with_reducible apply Same.foldlFst
    | split

theorem State.ownAccess_same {m0 : Nat} {r0 : State} {s : State} {n : Nat} {kind : AccessKind} {rd : Fin 32} {off : Nat}
    {len : Nat} {value : Word} (hk : Same m0 r0 s) (hw : sub 16388 m0 = true) : Same m0 r0
    (State.ownAccess s n kind rd off len value) := by
  unfold State.ownAccess
  extract_lets a0 a1 a2 a3 a4
  try clear_value a0
  try clear_value a1
  try clear_value a2
  try clear_value a3
  have k4 : Same m0 r0 a4
  on_goal 1 => unfold a4
  rotate_left
  clear_value a4
  all_goals repeat' first
    | with_reducible assumption
    | exact sub_trans rfl hw
    | intro _
    | with_reducible apply State.setLoaded_same
    | with_reducible apply State.store_same
    | with_reducible apply State.modCore_same
    | with_reducible apply Same.ite
    | with_reducible apply Same.foldl
    | with_reducible apply Same.foldlFst
    | split

theorem State.readEffect_same {m0 : Nat} {r0 : State} {s : State} {bank : Nat} {o : Nat} (hk : Same m0 r0 s)
    (hw : sub 12289 m0 = true) : Same m0 r0 (State.readEffect s bank o) := by
  unfold State.readEffect
  try dsimp only
  repeat' first
    | with_reducible assumption
    | exact sub_trans rfl hw
    | intro _
    | with_reducible apply Same.orElse
    | with_reducible apply State.captureNow_same
    | with_reducible apply execMcFlagHiRead_same
    | with_reducible apply execFgsDisp0Read_same
    | with_reducible apply execCanVsStateRead_same
    | with_reducible apply Same.ite
    | with_reducible apply Same.foldl
    | with_reducible apply Same.foldlFst
    | split

theorem State.readReg_same {m0 : Nat} {r0 : State} {s : State} {bank : Nat} {domain : Nat} {off : Nat} (hk : Same m0 r0 s)
    (hw : sub 208929 m0 = true) : Same m0 r0 (State.readReg s bank domain off).1 := by
  unfold State.readReg
  extract_lets a0 a1 a2
  try clear_value a0
  try clear_value a1
  have k2 : Same m0 r0 a2.2
  on_goal 1 => unfold a2
  rotate_left
  clear_value a2
  all_goals repeat' first
    | with_reducible assumption
    | exact sub_trans rfl hw
    | intro _
    | with_reducible apply State.fwRefuse_same
    | with_reducible apply State.draw_same
    | with_reducible apply State.readEffect_same
    | with_reducible apply Same.ite
    | with_reducible apply Same.foldl
    | with_reducible apply Same.foldlFst
    | split

theorem State.regAccess_same {m0 : Nat} {r0 : State} {s : State} {n : Nat} {domain : Nat} {kind : AccessKind} {rd : Fin 32}
    {off : Nat} {len : Nat} {value : Word} (hk : Same m0 r0 s) (hw : sub 301462059 m0 = true) : Same m0 r0
    (State.regAccess s n domain kind rd off len value).1 := by
  unfold State.regAccess
  extract_lets a0 a1 a2 a3 a4
  try clear_value a0
  have k1 : Same m0 r0 a1.1
  on_goal 1 => unfold a1
  rotate_left
  clear_value a1
  have k2 : Same m0 r0 a2.2
  on_goal 1 => unfold a2
  rotate_left
  clear_value a2
  try clear_value a3
  try clear_value a4
  all_goals repeat' first
    | with_reducible assumption
    | exact sub_trans rfl hw
    | intro _
    | with_reducible apply State.readReg_same
    | with_reducible apply State.setLoaded_same
    | with_reducible apply State.writeReg_same
    | with_reducible apply State.draw_same
    | with_reducible apply Same.ite
    | with_reducible apply Same.foldl
    | with_reducible apply Same.foldlFst
    | split

theorem State.ownEcc_same {m0 : Nat} {r0 : State} {s : State} {n : Nat} {ecc : List EccHit} (hk : Same m0 r0 s)
    (hw : sub 301988873 m0 = true) : Same m0 r0 (State.ownEcc s n ecc) := by
  unfold State.ownEcc
  repeat' first
    | with_reducible assumption
    | exact sub_trans rfl hw
    | intro _
    | with_reducible apply State.eccCorrected_same
    | with_reducible apply Same.foldl

theorem execPcDataAccess_same {m0 : Nat} {r0 : State} {pair : Fin 4} {kind : AccessKind} {rd : Fin 32} {pc : Word}
    {addr : Word} {value : Word} {size : Fin 3} {ecc : List EccHit} {s : State} (hk : Same m0 r0 s) (hw : sub 301989423 m0 = true) :
    SameRes m0 r0 (execPcDataAccess pair kind rd pc addr value size ecc s) := by
  unfold execPcDataAccess
  extract_lets a0 a1 a2 a3 a4 a5
  try clear_value a0
  try clear_value a1
  try clear_value a2
  try clear_value a3
  try clear_value a4
  have k5 : Same m0 r0 a5
  on_goal 1 => unfold a5
  rotate_left
  clear_value a5
  all_goals repeat' first
    | with_reducible assumption
    | exact sub_trans rfl hw
    | intro _
    | with_reducible apply State.event_same
    | with_reducible apply State.trap_same
    | with_reducible apply State.ownEcc_same
    | with_reducible apply State.completeAt_same
    | with_reducible apply State.ownAccess_same
    | with_reducible apply State.regAccess_same
    | with_reducible apply State.fabricAccess_same
    | with_reducible apply Same.ite
    | with_reducible apply Same.foldl
    | with_reducible apply Same.foldlFst
    | with_reducible apply SameRes.next
    | with_reducible apply SameRes.ite
    | split
    | dsimp only

theorem execRegisterWrite_same {m0 : Nat} {r0 : State} {bank : Fin 6} {domain : BitVec 4} {offset : BitVec 24} {value : Word}
    {s : State} (hk : Same m0 r0 s) (hw : sub 301462059 m0 = true) : SameRes m0 r0
    (execRegisterWrite bank domain offset value s) := by
  unfold execRegisterWrite
  try dsimp only
  repeat' first
    | with_reducible assumption
    | exact sub_trans rfl hw
    | intro _
    | with_reducible apply State.writeReg_same
    | with_reducible apply Same.ite
    | with_reducible apply Same.foldl
    | with_reducible apply Same.foldlFst
    | with_reducible apply SameRes.next
    | with_reducible apply SameRes.ite

theorem execShCommit_same {m0 : Nat} {r0 : State} {blk : ShBlock} {s : State} (hk : Same m0 r0 s) (hw : sub 8392707 m0 = true)
    : SameRes m0 r0 (execShCommit blk s) := by
  unfold execShCommit
  extract_lets a0
  have k0 : Same m0 r0 a0
  on_goal 1 => unfold a0
  rotate_left
  clear_value a0
  all_goals repeat' first
    | with_reducible assumption
    | exact sub_trans rfl hw
    | intro _
    | with_reducible apply State.commitBlock_same
    | with_reducible apply State.forgetUnits_same
    | with_reducible apply State.refreshActive_same
    | with_reducible apply Same.ite
    | with_reducible apply Same.foldl
    | with_reducible apply Same.foldlFst
    | with_reducible apply SameRes.next
    | with_reducible apply SameRes.ite
    | split

theorem execSysPcApertureWrite_same {m0 : Nat} {r0 : State} {pair : Fin 4} {offset : BitVec 8} {value : Word} {s : State} (hk
    : Same m0 r0 s) (hw : sub 1 m0 = true) : SameRes m0 r0 (execSysPcApertureWrite pair offset value s) := by
  unfold execSysPcApertureWrite
  try dsimp only
  repeat' first
    | with_reducible assumption
    | exact sub_trans rfl hw
    | intro _
    | with_reducible apply State.setReg_same
    | with_reducible apply Same.ite
    | with_reducible apply Same.foldl
    | with_reducible apply Same.foldlFst
    | with_reducible apply SameRes.next
    | with_reducible apply SameRes.ite

/-! ### Machine/Scene.lean -/

theorem State.killOne_same {m0 : Nat} {r0 : State} {s : State} {i : Inst} (hk : Same m0 r0 s) (hw : sub 8769545 m0 = true)
    : Same m0 r0 (State.killOne s i) := by
  unfold State.killOne
  try dsimp only
  repeat' first
    | with_reducible assumption
    | exact sub_trans rfl hw
    | intro _
    | with_reducible apply State.cancel_same
    | with_reducible apply State.log_same
    | with_reducible apply Same.ite
    | with_reducible apply Same.foldl
    | with_reducible apply Same.foldlFst
    | split

theorem execDwellExpiry_same {m0 : Nat} {r0 : State} {s : State} (hk : Same m0 r0 s) (hw : sub 33028121 m0 = true)
    : SameRes m0 r0 (execDwellExpiry s) := by
  unfold execDwellExpiry
  have b11 : sub 2048 m0 = true := sub_trans rfl hw
  try dsimp only
  repeat' first
    | with_reducible assumption
    | exact sub_trans rfl hw
    | intro _
    | with_reducible apply State.reach_same
    | with_reducible apply State.setFlag_same
    | with_reducible apply State.actOn_same
    | with_reducible apply Same.ite
    | with_reducible apply Same.foldl
    | with_reducible apply Same.foldlFst
    | fail_if_no_progress with_reducible refine Same.upd_11 ?_ b11
    | with_reducible apply SameRes.next
    | with_reducible apply SameRes.ite
    | split

theorem execSwitchBind_same {m0 : Nat} {r0 : State} {layer : Half} {s : State} (hk : Same m0 r0 s)
    (hw : sub 20060169 m0 = true) : SameRes m0 r0 (execSwitchBind layer s) := by
  unfold execSwitchBind
  try dsimp only
  repeat' first
    | with_reducible assumption
    | exact sub_trans rfl hw
    | intro _
    | with_reducible apply State.phase_same
    | with_reducible apply State.modSwitch_same
    | with_reducible apply State.bindLayer_same
    | with_reducible apply Same.ite
    | with_reducible apply Same.foldl
    | with_reducible apply Same.foldlFst
    | with_reducible apply SameRes.next
    | with_reducible apply SameRes.ite
    | split

theorem execSwitchCinder_same {m0 : Nat} {r0 : State} {layer : Half} {s : State} (hk : Same m0 r0 s)
    (hw : sub 16922625 m0 = true) : SameRes m0 r0 (execSwitchCinder layer s) := by
  unfold execSwitchCinder
  try dsimp only
  repeat' first
    | with_reducible assumption
    | exact sub_trans rfl hw
    | intro _
    | with_reducible apply State.cinderLayer_same
    | with_reducible apply Same.ite
    | with_reducible apply Same.foldl
    | with_reducible apply Same.foldlFst
    | with_reducible apply SameRes.next
    | with_reducible apply SameRes.ite
    | split

theorem execSwitchDrainKill_same {m0 : Nat} {r0 : State} {s : State} (hk : Same m0 r0 s) (hw : sub 8771609 m0 = true)
    : SameRes m0 r0 (execSwitchDrainKill s) := by
  unfold execSwitchDrainKill
  try dsimp only
  repeat' first
    | with_reducible assumption
    | exact sub_trans rfl hw
    | intro _
    | with_reducible apply State.reach_same
    | with_reducible apply State.killOne_same
    | with_reducible apply State.modSwitch_same
    | with_reducible apply Same.ite
    | with_reducible apply Same.foldl
    | with_reducible apply Same.foldlFst
    | with_reducible apply SameRes.next
    | with_reducible apply SameRes.ite
    | split

theorem execSwitchOpen_same {m0 : Nat} {r0 : State} {s : State} (hk : Same m0 r0 s) (hw : sub 33028105 m0 = true)
    : SameRes m0 r0 (execSwitchOpen s) := by
  unfold execSwitchOpen
  try dsimp only
  repeat' first
    | with_reducible assumption
    | exact sub_trans rfl hw
    | intro _
    | with_reducible apply State.openSwitch_same
    | with_reducible apply Same.ite
    | with_reducible apply Same.foldl
    | with_reducible apply Same.foldlFst
    | with_reducible apply SameRes.next
    | with_reducible apply SameRes.ite
    | split

/-! ### Machine/Sensors.lean -/

theorem State.modRun_same {m0 : Nat} {r0 : State} {s : State} {bus : Nat} {f : SeqRun → SeqRun} (hk : Same m0 r0 s)
    (hw : sub 1024 m0 = true) : Same m0 r0 (State.modRun s bus f) := by
  unfold State.modRun
  try dsimp only
  repeat' first
    | with_reducible assumption
    | exact sub_trans rfl hw
    | intro _
    | with_reducible apply State.modKin_same

theorem State.seqNextProfile_same {m0 : Nat} {r0 : State} {s : State} {bus : Nat} (hk : Same m0 r0 s)
    (hw : sub 1024 m0 = true) : Same m0 r0 (State.seqNextProfile s bus) := by
  unfold State.seqNextProfile
  try dsimp only
  repeat' first
    | with_reducible assumption
    | exact sub_trans rfl hw
    | intro _
    | with_reducible apply State.modRun_same

theorem State.seqFail_same {m0 : Nat} {r0 : State} {s : State} {bus : Nat} {r : SeqRun} {p : SensorRec} {nack : Bool} (hk
    : Same m0 r0 s) (hw : sub 301988873 m0 = true) : Same m0 r0 (State.seqFail s bus r p nack) := by
  unfold State.seqFail
  extract_lets a0 a1
  have k0 : Same m0 r0 a0
  on_goal 1 => unfold a0
  rotate_left
  clear_value a0
  have k1 : Same m0 r0 a1
  on_goal 1 => unfold a1
  rotate_left
  clear_value a1
  all_goals repeat' first
    | with_reducible assumption
    | exact sub_trans rfl hw
    | intro _
    | with_reducible apply State.log_same
    | with_reducible apply State.modRun_same
    | with_reducible apply State.seqNextProfile_same
    | with_reducible apply State.markAbsent_same
    | with_reducible apply State.fence_same
    | with_reducible apply Same.ite
    | with_reducible apply Same.foldl
    | with_reducible apply Same.foldlFst
    | split

theorem State.seqNext_same {m0 : Nat} {r0 : State} {s : State} {bus : Nat} {p : SensorRec} (hk : Same m0 r0 s)
    (hw : sub 1024 m0 = true) : Same m0 r0 (State.seqNext s bus p) := by
  unfold State.seqNext
  try dsimp only
  repeat' first
    | with_reducible assumption
    | exact sub_trans rfl hw
    | intro _
    | with_reducible apply State.modRun_same

theorem execSensorRetryTimer_same {m0 : Nat} {r0 : State} {bus : Fin 4} {s : State} (hk : Same m0 r0 s)
    (hw : sub 1040 m0 = true) : SameRes m0 r0 (execSensorRetryTimer bus s) := by
  unfold execSensorRetryTimer
  try dsimp only
  repeat' first
    | with_reducible assumption
    | exact sub_trans rfl hw
    | intro _
    | with_reducible apply State.reach_same
    | with_reducible apply State.modRun_same
    | with_reducible apply Same.ite
    | with_reducible apply Same.foldl
    | with_reducible apply Same.foldlFst
    | with_reducible apply SameRes.next
    | with_reducible apply SameRes.ite
    | split

theorem execSeqEnd_same {m0 : Nat} {r0 : State} {bus : Fin 4} {s : State} (hk : Same m0 r0 s) (hw : sub 1024 m0 = true)
    : SameRes m0 r0 (execSeqEnd bus s) := by
  unfold execSeqEnd
  try dsimp only
  repeat' first
    | with_reducible assumption
    | exact sub_trans rfl hw
    | intro _
    | with_reducible apply State.seqNextProfile_same
    | with_reducible apply Same.ite
    | with_reducible apply Same.foldl
    | with_reducible apply Same.foldlFst
    | with_reducible apply SameRes.next
    | with_reducible apply SameRes.ite
    | split

theorem execSeqFsyncEnable_same {m0 : Nat} {r0 : State} {bus : Fin 4} {s : State} (hk : Same m0 r0 s)
    (hw : sub 1049600 m0 = true) : SameRes m0 r0 (execSeqFsyncEnable bus s) := by
  unfold execSeqFsyncEnable
  have b20 : sub 1048576 m0 = true := sub_trans rfl hw
  try dsimp only
  repeat' first
    | with_reducible assumption
    | exact sub_trans rfl hw
    | intro _
    | with_reducible apply State.seqNext_same
    | with_reducible apply Same.ite
    | with_reducible apply Same.foldl
    | with_reducible apply Same.foldlFst
    | fail_if_no_progress with_reducible refine Same.upd_20 ?_ b20
    | with_reducible apply SameRes.next
    | with_reducible apply SameRes.ite
    | split

theorem execSeqGpio_same {m0 : Nat} {r0 : State} {bus : Fin 4} {s : State} (hk : Same m0 r0 s) (hw : sub 1536 m0 = true)
    : SameRes m0 r0 (execSeqGpio bus s) := by
  unfold execSeqGpio
  try dsimp only
  repeat' first
    | with_reducible assumption
    | exact sub_trans rfl hw
    | intro _
    | with_reducible apply State.modPins_same
    | with_reducible apply State.seqNext_same
    | with_reducible apply Same.ite
    | with_reducible apply Same.foldl
    | with_reducible apply Same.foldlFst
    | with_reducible apply SameRes.next
    | with_reducible apply SameRes.ite
    | split

theorem execSeqPoll_same {m0 : Nat} {r0 : State} {bus : Fin 4} {ack : Bool} {value : Half} {s : State} (hk : Same m0 r0 s)
    (hw : sub 301988889 m0 = true) : SameRes m0 r0 (execSeqPoll bus ack value s) := by
  unfold execSeqPoll
  try dsimp only
  repeat' first
    | with_reducible assumption
    | exact sub_trans rfl hw
    | intro _
    | with_reducible apply State.reach_same
    | with_reducible apply State.seqFail_same
    | with_reducible apply State.seqNext_same
    | with_reducible apply State.modRun_same
    | with_reducible apply Same.ite
    | with_reducible apply Same.foldl
    | with_reducible apply Same.foldlFst
    | with_reducible apply SameRes.next
    | with_reducible apply SameRes.ite
    | split

theorem execSeqReadExpect_same {m0 : Nat} {r0 : State} {bus : Fin 4} {ack : Bool} {value : Word} {s : State} (hk
    : Same m0 r0 s) (hw : sub 301988873 m0 = true) : SameRes m0 r0 (execSeqReadExpect bus ack value s) := by
  unfold execSeqReadExpect
  try dsimp only
  repeat' first
    | with_reducible assumption
    | exact sub_trans rfl hw
    | intro _
    | with_reducible apply State.seqFail_same
    | with_reducible apply State.seqNext_same
    | with_reducible apply Same.ite
    | with_reducible apply Same.foldl
    | with_reducible apply Same.foldlFst
    | with_reducible apply SameRes.next
    | with_reducible apply SameRes.ite
    | split

theorem execSeqWait_same {m0 : Nat} {r0 : State} {bus : Fin 4} {s : State} (hk : Same m0 r0 s) (hw : sub 1040 m0 = true)
    : SameRes m0 r0 (execSeqWait bus s) := by
  unfold execSeqWait
  try dsimp only
  repeat' first
    | with_reducible assumption
    | exact sub_trans rfl hw
    | intro _
    | with_reducible apply State.seqNext_same
    | with_reducible apply State.reach_same
    | with_reducible apply Same.ite
    | with_reducible apply Same.foldl
    | with_reducible apply Same.foldlFst
    | with_reducible apply SameRes.next
    | with_reducible apply SameRes.ite
    | split

theorem execSeqWrite_same {m0 : Nat} {r0 : State} {bus : Fin 4} {ack : Bool} {s : State} (hk : Same m0 r0 s)
    (hw : sub 301988873 m0 = true) : SameRes m0 r0 (execSeqWrite bus ack s) := by
  unfold execSeqWrite
  try dsimp only
  repeat' first
    | with_reducible assumption
    | exact sub_trans rfl hw
    | intro _
    | with_reducible apply State.seqNext_same
    | with_reducible apply State.seqFail_same
    | with_reducible apply Same.ite
    | with_reducible apply Same.foldl
    | with_reducible apply Same.foldlFst
    | with_reducible apply SameRes.next
    | with_reducible apply SameRes.ite
    | split

end Sys2Proof.Machine
end

