-- ==== Sys2Proof/Laws/Step.lean ====
section
/-! SUPPORT. What the main reset, a passing clock and one step of the block do to what `Keeps` and `Same` speak of. -/

namespace Sys2Proof.Machine

open Sys2Proof

/-- The main reset empties the stores and keeps fuses, free counter and queue. -/
theorem execPorstNAssert_keeps {r0 : State} {s : State} (hk : Keeps r0 s) : KeepsRes r0 (execPorstNAssert s) :=
  KeepsRes.next ⟨fun _ => rfl, fun _ => rfl, fun _ => rfl, fun _ => rfl, hk.free, hk.queue, hk.fuses⟩

/-- The main reset leaves the free counter, the fuses and the queue alone. -/
theorem execPorstNAssert_same {m0 : Nat} {r0 : State} {s : State} (hk : Same m0 r0 s) (hw : sub 536870815 m0 = true)
    : SameRes m0 r0 (execPorstNAssert s) := by
  have bit : ∀ i, Nat.testBit 536870815 i = true → m0.testBit i = false → False := by
    intro i hi h0
    have := sub_bit hw hi
    rw [h0] at this; cases this
  refine SameRes.next ?_
  constructor <;> intro h <;> first
    | exact (bit _ (by decide) h).elim
    | exact hk.free h
    | exact hk.otp h
    | exact hk.pending h

/-- A clock that passes keeps everything but the Timeline's time. -/
theorem tick_keeps {r0 : State} {s : State} (hk : Keeps r0 s) : Keeps r0 (tick s) := by
  unfold tick; exact Keeps.ite hk (Keeps.upd hk)

theorem tick_same {m0 : Nat} {r0 : State} {s : State} (hk : Same m0 r0 s) (hw : sub 16 m0 = true) : Same m0 r0 (tick s) := by
  unfold tick
  split
  · exact hk
  · have hb : m0.testBit 4 = true := sub_bit hw (by decide)
    refine ⟨hk.regs, hk.shadow, hk.mem, hk.flags, fun h => ?_, hk.free, hk.otp, hk.flash, hk.tl, hk.pins, hk.kin, hk.scene, hk.fgs,
      hk.mm, hk.cores, hk.units, hk.journal, hk.safety, hk.adapt, hk.maint, hk.cam, hk.isp, hk.io, hk.gml, hk.cvus, hk.carry,
      hk.nts, hk.patterns, hk.icu, hk.pending⟩
    rw [hb] at h; cases h

/-- A step is the front command's meaning on the queue's rest, or one clock where nothing waits. -/
theorem step_cases {s t : State} (h : step s = .next t) :
    (s.pending = [] ∧ t = tick s) ∨
    (∃ c rest, s.pending = c :: rest ∧ exec c { s with pending := rest } = .next t) := by
  unfold step at h
  split at h
  · rename_i h0
    exact .inl ⟨h0, (Host.Outcome.next.inj h).symm⟩
  · rename_i c rest h0
    exact .inr ⟨c, rest, h0, h⟩

end Sys2Proof.Machine
end

