-- ==== Sys2Proof/Tests/Slice0.lean ====
section
/-! SUPPORT. The model's own tests: worked examples and tables of the spec, ill-formed terms, and for each statement with
hypotheses a theorem that shows concrete states and operands that meet them, clause by clause. -/

set_option linter.all false
set_option maxRecDepth 100000

open Sys2Proof Sys2Proof.Machine

namespace Sys2Proof.Tests

/-! ### States that the tests start from -/

/-- A flash whose image lists a number of sections, none of them there. -/
def flash (n : Byte) : Flash := { State.reset.flash with present0 := true, dev0 := [(0x101C, n), (0x101D, 0)] }

/-- A device out of reset, at a kindling stage, with an image that has no section. -/
def up (stage : Nat) : State :=
  ({ State.reset with kin := { State.reset.kin with porstLow := false, coreReset := false }, flash := flash 0 } : State).setStage stage

/-- A device whose core is held in reset. -/
def held : State := { State.reset with kin := { State.reset.kin with porstLow := false, wrstLow := true }, flash := flash 0 }

/-- A device that streams the second of two sections. -/
def loading : State :=
  let u := up 5
  { u with flash := flash 2, kin := { u.kin with candidates := [0], nextSection := 1 } }

/-- One entry of a section table. -/
def entry (type index size offset load : Nat) : List Byte :=
  leBytes 2 type ++ leBytes 2 0 ++ leBytes 2 index ++ leBytes 2 0 ++ leBytes 4 offset ++ leBytes 4 size ++ leBytes 8 0 ++ leBytes 8 load
    ++ List.replicate 32 0

/-- Bytes as cells from an address. -/
def cells (a : Nat) : List Byte → List Host.Cell
  | [] => []
  | b :: t => (a, b) :: cells (a + 1) t

/-- Table entries and bodies of sections: type, index, load address and bytes; the k-th body lies 4 KiB times k + 1 into the image. -/
def layOut : Nat → List (Nat × Nat × Nat × List Byte) → List Host.Cell × List Host.Cell
  | _, [] => ([], [])
  | k, (ty, ix, ld, b) :: rest =>
    let r := layOut (k + 1) rest
    (cells (0x1100 + 64 * k) (entry ty ix b.length (0x1000 * (k + 1)) ld) ++ r.1, cells (0x1000 + 0x1000 * (k + 1)) b ++ r.2)

/-- A flash whose image holds some sections. -/
def images (l : List (Nat × Nat × Nat × List Byte)) : Flash :=
  let r := layOut 0 l
  { State.reset.flash with
    present0 := true
    dev0 := cells 0x101C [BitVec.ofNat 8 l.length, 0] ++ cells 0x1020 [0, 1, 0, 0] ++ r.1 ++ r.2 }

/-- A flash whose image holds one section. -/
def image (type index load : Nat) (body : List Byte) : Flash := images [(type, index, load, body)]

/-- A device whose first I3C controller is at the first operation of a sensor profile. -/
def atOp (op : List Byte) : State :=
  let u := up 8
  let run : SeqRun := ⟨[5], 0, false, none, none, none⟩
  { u with flash := image 4 5 0 ([5, 0, 0, 0x10] ++ List.replicate 6 0 ++ [1, 0] ++ List.replicate 20 0 ++ op),
           kin := { u.kin with seqs := [run, run, run, run] } }

/-- A device in READY whose supervisor port holds a request without a session. -/
def asked (op : Nat) (body : List Byte) : State :=
  let u := up 11
  { u with io := { u.io with svc := [SvcIfc.idle, SvcIfc.idle, { SvcIfc.idle with requests := [(op, body, false, ⟨[], [], 0⟩)] }] } }

/-- The same with a staging session open. -/
def staging (op : Nat) (body : List Byte) : State :=
  let u := asked op body
  { u with io := { u.io with stage := { u.io.stage with open' := true, ifc := 2, size := 4096 } } }

/-- A device in READY with a scene switch in progress that has one layer on each side. -/
def switching : State :=
  let u := up 11
  let l : LayerRec := { id := 3, partition := 1, base := false, firewall := 0, unitMask := 0, fsBytes := 0, rings := [], nodes := [], flows := [] }
  let sw : Switch := ⟨2, 5, 1, 0, [3], [4], [], [], 500000, false, false⟩
  { u with scene := { u.scene with layers := [⟨l, true, true, 1000000, []⟩], switch := some sw } }

/-- A device in READY with the vehicle interface of an image: Ethernet port 0 at 10 Gb/s and one vehicle-state record. -/
def wired : State :=
  let u := up 11
  let vin : List Byte := [0, 0, 1, 0, 0, 1, 0, 0] ++ List.replicate 56 0 ++ [1, 0, 0, 0] ++ List.replicate 124 0 ++ [0, 0, 4, 0, 5, 0, 0, 0, 0, 0, 8, 0, 0, 0, 0, 0]
  let w : State := { u with flash := image 0x0F 0 0 vin }
  (((w.setFld (Reg.CAN_STATUS 0) F.CAN_STATUS.STATE 0).setFld (Reg.ETH_STATUS 0) F.ETH_STATUS.MODE 1).setFlag (Reg.ETH_STATUS 0) F.ETH_STATUS.LINK true).setFlag Reg.OF_RESULT F.OF_RESULT.ENABLED true

/-- A node record with no rings. -/
def nodeRec (cls : Nat) (periodic : Bool) : NodeRec :=
  { slot := 7, cls := cls, prio := 3, inRings := [], outRings := [], flow := none, deadlineUs := 1000, waitUs := 100, stepList := 0, wcetNs := 0,
    tiles := 1, rateDiv := 1, tileW := 16, tileH := 16, shedClass := 0, periodic := periodic, noAffinity := true, credits := 0, inSpan := [] }

/-- The node as it is bound. -/
def wNode (cls : Nat) (periodic : Bool) : NodeSt :=
  { rc := nodeRec cls periodic, layer := 3, domain := 2, stepAddr := 0, steps := 0, preferred := none, retired := none, baseSeq := none,
    refStream := none, refPeriodic := none, finished := [], startBase := if periodic then some 0 else none, startNext := 0, starts := [], watchFrom := some 0, peer := none }

/-- An instance of the node. -/
def wInst (st : IState) (unit : Option Nat) : Inst :=
  { entry := 0, gen := 0, node := 7, seq := 5, tile := 0, stream := 0, ops := [], need := 0, st := st, created := 0, ts := 0, flowPos := none,
    order := 0, unit := unit, reruns := 0, step := 0, restart := false, late := false, inputFlagged := false, footprint := false, absent := [],
    pins := [], holdDue := none, holdOver := false, refused := none, stalledFrom := none, stopping := false, voidsLeft := [], tinder := none }

/-- A unit in service that holds an entry or none. -/
def wUnit (code : Nat) (entry : Option Nat) : UnitSt := ⟨code, false, false, entry, 0, 0, [], none, 0, none, []⟩

/-- A device in READY that runs a layer of one node. -/
def graph (cls : Nat) (periodic : Bool) (is : List Inst) (us : List UnitSt) : State :=
  let u := up 11
  let l : LayerRec := { id := 3, partition := 2, base := true, firewall := 0, unitMask := 0xFFFFFFFFFFFFFFFF, fsBytes := 0, rings := [], nodes := [nodeRec cls periodic], flows := [] }
  { u with scene := { u.scene with layers := [⟨l, false, true, 1000000, []⟩] }, units := us, fgs := { u.fgs with nodes := [wNode cls periodic], insts := is } }

/-- A stream profile: stream 5 on port 1, virtual channel 2, RAW12 of 4 by 4, sensor 5, no FSYNC, no image pipe. -/
def streamBytes (fsync : Byte) : List Byte :=
  [5, 1, 2, 0x2C, 4, 0, 4, 0, 0, 0, 0, 5, 0, 0, 1, 0, 0, 0, 0, 0, fsync, 0xFF, 1, 0xFF] ++ List.replicate 40 0

/-- The profile as the image holds it. -/
def profile (fsync : Byte) : StreamRec := parseStream (streamBytes fsync)

/-- A frame that has opened. -/
def opened : CamFrame :=
  { seq := some 7, ts := 0, path := 3, flags := 0, lineFlags := [], lines := 0, discarded := 0, crcs := 0, cuts := 0, epoch := 0
    embSeen := false, lastPkt := 0, lastLine := [], staged := none }

/-- A device in READY with the stream and its sensor, and a stream context. -/
def filming (fsync : Byte) (c : StreamSt) : State :=
  let u := up 11
  let w : State := { u with
    flash := images [(3, 0, 0, streamBytes fsync), (4, 5, 0, [5, 0, 0, 0x10] ++ List.replicate 6 0 ++ [0, 0] ++ List.replicate 4 0 ++ [0, 0x10, 0, 0] ++ List.replicate 12 0)]
    cam := { u.cam with streams := [c], ports := List.replicate 4 ⟨15, 0, 0, false⟩ } }
  w.setFld (Reg.CFE_PORT_STATUS 1) F.CFE_PORT_STATUS.STATE 1

/-- A node that runs one step whose descriptor starts the Frame Store. -/
def stepNode (cls : Nat) (ins outs : List Nat) : NodeSt :=
  { wNode cls false with rc := { nodeRec cls false with inRings := ins, outRings := outs }, domain := 1, stepAddr := addrFs, steps := 1 }

/-- A device in READY on which a unit runs that step. -/
def stepper (cls unit : Nat) (ins outs : List Nat) (rings : List RingSt) (d : List Byte) : State :=
  let u := graph cls false [wInst .running (some unit)] ([wUnit unit (some 0)] ++ (List.range 4).map (fun i => wUnit (0x0E00 + i) none))
  { u with mem := (cells addrFs d).filter (·.2 != 0), fgs := { u.fgs with nodes := [stepNode cls ins outs], rings := rings } }

/-- A ring of the layer, of lines of a width, into which sequence 5 has been produced. -/
def lineRing (idx width : Nat) : RingSt :=
  { RingSt.void with rc := ⟨0, 1, 0, 0x1000, 64, width, 1, 64, 0x23, 1, 0⟩, layer := 3, idx := idx, frameH := 1, kOf := [(5, 0)] }

/-- A device in READY on which tile 0 runs the step, in a phase of it, with an address window over the first pages of the Frame Store. -/
def tiling (t : TileSt) (d : List Byte) : State :=
  let u : State := { stepper 5 0x0800 [] [] [] d with nts := [t] }
  (((u.setReg (Reg.NT_WIN_CTRL 0 0) 7).setReg (Reg.NT_WIN_VBASE 0 0) 0x100000).setReg (Reg.NT_WIN_PAGES 0 0) 16).setReg (Reg.NT_WIN_TBASE 0 0) 0x100000

/-- The tile in a phase of the step of a descriptor. -/
def tileIn (phase : Nat) (computed : Bool) (d : List Byte) : TileSt :=
  { TileSt.idle with owner := some (0, 0, 0), phase := phase, computed := computed, desc := d }

/-- A PERMUTE step of one INT32 element, with its two tensor descriptors. -/
def permuteStep : List Byte :=
  let td (base : Nat) : List Byte := [0x48, 1, 0, 0, 0, 0] ++ leBytes 2 0x4688 ++ leBytes 8 base ++ (List.replicate 5 (leBytes 4 1)).flatten ++ List.replicate 28 0
  [0x59, 1, 0, 0] ++ leBytes 6 (addrFs + 64) ++ leBytes 6 0 ++ leBytes 6 0 ++ leBytes 6 (addrFs + 128) ++ leBytes 4 0x3F800000 ++ [0, 0, 0] ++ List.replicate 6 0xFF
    ++ List.replicate 23 0 ++ td (addrFs + 0x1000) ++ td (addrFs + 0x2000)

/-- Device 0 of two in READY, whose link 0 to device 1 is in a state, with packets that wait on it. -/
def paired (st : Nat) (rx : List GmlPkt) : State :=
  let u := up 11
  let l : LinkSt := { LinkSt.idle with rx := rx, txSeq := 5, lastFlit := 100, senseAt := some 700 }
  let w : State := { u with gml := { u.gml with
    links := [l, LinkSt.idle, LinkSt.idle], heard := [none, some 400, none, none], ready := [false, true, false, false], routes := [none, some 0, none, none] } }
  ((((w.setFld Reg.GML_SYS F.GML_SYS.COUNT 1).setFld (Reg.GML_STATUS 0) F.GML_STATUS.STATE st).setFlag (Reg.GML_STATUS 0) F.GML_STATUS.ACTIVE true).setFlag
    Reg.GML_PEERS ⟨13, 13⟩ true)

/-! ### Worked examples and tables of the spec -/

/-- R5, worked example: 0x0000_0003 is newer than 0xFFFF_FFFE, and not the other way round. -/
theorem test_sequence_newer_wraps : seqNewer 3 0xFFFFFFFE = true ∧ seqNewer 0xFFFFFFFE 3 = false := by decide

/-- R382: the check value of each of the four CRCs over "123456789". -/
theorem test_crc_check_values :
    (List.range 4).map (fun p => crc p [0x31, 0x32, 0x33, 0x34, 0x35, 0x36, 0x37, 0x38, 0x39]) = [0xE3069283, 0xCBF43926, 0x29B1, 0x4B] := by decide

/-- R89, worked example: token 0x12A0_0000_01F4_0025 is node 0x12A, stream 0, sequence 8,000, tile 37. -/
theorem test_token_fields :
    (match exec (.fgsPost 1 2 0x12A00000) ((up 11).setReg (bankOff 1 Reg.FGS_POST_LO) 0x01F40025) with
     | .next t => t.fgs.tokens.map (fun k => (k.node, k.stream, k.seq, k.tile, k.domain)) == [(0x12A, 0, 8000, 37, 2)]
     | _ => false) = true := by decide

/-- R278, worked example: an INT8 tensor of 64 × 16 pixels and 128 channels under L2. -/
def l2Tensor : List Byte :=
  [0x40, 3, 2, 0, 0, 0] ++ leBytes 2 0x4688 ++ leBytes 8 0 ++ leBytes 4 128 ++ leBytes 4 64 ++ leBytes 4 16 ++ leBytes 4 1 ++ leBytes 4 1
    ++ leBytes 4 4096 ++ leBytes 4 8192 ++ leBytes 4 0 ++ leBytes 4 0 ++ leBytes 4 0 ++ leBytes 4 (1 + 16 * 5 + 256 * 3 + 4096 * 2 + 65536 * 2) ++ leBytes 4 0

/-- Its element at channel 77, column 21 and line 3 lies at byte 0x6AAD. -/
theorem test_tensor_l2_offset : (parseTd l2Tensor).bitOff [77, 21, 3, 0, 0] = 8 * 0x6AAD := by decide

/-- R277, R290, worked example: the shard of a bird's-eye tensor at 0x100_2000_0000, element (10, 300, 77): 0x26_CB0A. -/
def l0Tensor : List Byte :=
  [0x40, 3, 0, 0, 0, 0] ++ leBytes 2 0x4688 ++ leBytes 8 0x10020000000 ++ leBytes 4 64 ++ leBytes 4 512 ++ leBytes 4 512 ++ leBytes 4 1 ++ leBytes 4 1
    ++ leBytes 4 64 ++ leBytes 4 32768 ++ leBytes 4 0 ++ leBytes 4 0 ++ leBytes 4 0 ++ leBytes 4 0 ++ leBytes 4 0

/-- The same. -/
theorem test_tensor_l0_offset : (parseTd l0Tensor).bitOff [10, 300, 77, 0, 0] = 8 * 0x26CB0A := by decide

/-- R506, worked example: core address 0xA012_3440 through SYS_PC2_AP1_1 = 0x8000_6008 reaches 0xC01_0012_3440, remote on device 1. -/
theorem test_aperture_reaches_device_3 :
    (((up 11).setFld Reg.GML_SYS F.GML_SYS.DEVICE 1).setReg (Reg.SYS_PC_AP 2 1 1) 0x80006008).coreView 2 1 0xA0123440
      = .fabric (2 ^ 44 + 0xC0100123440) := by decide +kernel

/-- R478, worked example: the header of a Compact Envelope is 01 29 A2 F3 FD C2 1E 18, in a data field of 48 bytes. -/
theorem test_compact_envelope_header :
    let b := compactEnvelope 1 0x1F3A2 true ⟨1, 2, 0, false, false, 1700000000033533200, 0, List.replicate 32 0⟩
    b.take 8 = [0x01, 0x29, 0xA2, 0xF3, 0xFD, 0xC2, 0x1E, 0x18] ∧ b.length = 48 := by decide

/-- R477: an Output Envelope with 32 bytes of payload is 68 bytes long. -/
theorem test_envelope_length : (envelope 1 0x1F3A2 0 true ⟨1, 2, 0, false, false, 0, 0, List.replicate 32 0⟩).length = 68 := by decide

/-- SCATTER, worked example: 1.0 + 16,777,216.0 rounds to 16,777,216.0, the even significand. -/
theorem test_binary32_addition_rounds_to_even : fp32.encode (f32add (fp32.decode 0x3F800000) (fp32.decode 0x4B800000)) false = 0x4B800000 := by decide

/-- R311: the last 2 MiB of a scratchpad's window end with a bus error and set OUT_OF_RANGE. -/
theorem test_scratchpad_out_of_range :
    ((up 11).judge ⟨0x1100, 0, false⟩ (0x140000000 + 0x800000 * 3 + 0x600000) 4 false).2 = some .outOfRange
    ∧ ((up 11).judge ⟨0x1100, 0, false⟩ (0x140000000 + 0x800000 * 3 + 0x600000) 4 false).1.flag (Reg.NT_SPM_EVENT 3) F.NT_SPM_EVENT.OUT_OF_RANGE = true := by decide

/-- R314, R19: a write into a scratchpad from elsewhere without a credit is refused. -/
theorem test_write_needs_credit : ((up 11).judge ⟨0x0900, 0, true⟩ 0x140000000 4 true).2 = some .credit := by decide

/-- R428: an SI register admits writes from Domain ID 1, and SI_HBn from Domain ID 0 as well. -/
theorem test_si_writers : (up 11).mayWrite 4 0 Reg.SI_STATUS = false ∧ (up 11).mayWrite 4 1 Reg.SI_STATUS = true ∧ (up 11).mayWrite 0 0 (Reg.SI_HB 0) = true := by decide

/-- R507: a SYS register takes no write from Domain ID 2. -/
theorem test_sys_writers : (up 11).mayWrite 0 2 0x14 = false := by decide

/-- R10: a block address outside the register blocks does not answer. -/
theorem test_no_register_block : inBlock 0x38000 = false ∧ inBlock 0x37FFF = true := by decide

/-- R346: a clock of the empty queue. -/
theorem test_empty_queue_tick : (match step (up 11) with | .next t => t.now == (up 11).now + 1 | _ => false) = true := by decide

/-- The table has no bits: no word spells a command. -/
theorem test_no_table_word : decodeTableWord 32 0x12345678 = none := by decide

/-- R382: with CHAIN set a job goes on from the register that the last one left. -/
theorem test_crc_chain : crcFinal 0 (crcRun 0 (crcRun 0 (crcInit 0) [0x31, 0x32]) [0x33]) = crc 0 [0x31, 0x32, 0x33] := by decide

/-- A memory write is kept in canonical form: writing what an unlisted byte reads as removes the entry. -/
theorem test_memory_canonical : Memory.put (Memory.put [] 5 7) 5 Config.unwrittenByte = [] := by decide

/-- R193, worked example: S1 = 120 at d* = 457 in the window from 381, S2 = 190, M = 410 give u = 93, t = 180 and C = 136. -/
theorem test_stereo_confidence :
    (⟨381, (List.replicate 128 418).mapIdx (fun i v => if i == 76 then 120 else if i == 75 then 150 else if i == 77 then 138
      else if i == 21 then 190 else if i < 73 && i ≥ 23 then v + 1 else v)⟩ : Win).choice 8 = (457, 120, 93, 180, 136) := by decide +kernel

/-! ### What the interface cannot bring -/

/-- An ill-formed term for each check, which the check refuses. -/
theorem test_ill_formed :
    ([.bistDone [0x0404] [], .nvmEraseProgramCommand 0 0 0xFFFFFFFF (.erase 2), .nvmEraseProgramCommand 0 0 0 (.erase 0),
      .nvmEraseProgramCommand 0 0 0xFF (.program [1, 2]), .nvmEraseProgramCommand 0 0 0 (.program []), .switchCinder 32, .switchBind 32, .dispatch 0x0B00,
      .stepComplete 0x0200, .csiLongPacket 0 0 0x0F .good true [] .none, .csiLongPacket 0 0 0x40 .good true [] .none, .ispBandRelease 0 0 1024,
      .mesh 0 (.bus 0x1000000000000 false), .mesh 0 (.spmParity 0x800000), .heldAccessRetry 0x0810, .heldAccessLimit 0x0908, .unitStopAck 0x0304,
      .detachedReadReturn 0x0000, .wcMissFillDone 0x80, .wcMissFillDone 0x1000000000000, .cinderEntry 0x800, .ashFillDone 0x1000000000000, .ntWinWrite 0 0x102 0 0,
      .ntCredWrite 0 0x341 0 0, .tinderJobDone 0x0900, .tinderPromote 0x0100, .tinderLate 0x0B00, .idleGate 0x0F00, .idleWake 0x0D03,
      .gmlTrainDone 0 (some ⟨0, 0, false, 0, [], 0⟩), .gmlTrainDone 0 (some ⟨2, 1, false, 0, [], 0⟩), .gmlTrainDone 0 (some ⟨0, 1, false, 0, [(5, [1])], 0⟩),
      .gmlFlitRx 0 0 0 true [.drain 0 1 262144], .gmlFlitRx 0 0 0 true [.reserve 0 1 0 [(4096, 0, 0)]], .gmlFlitRx 0 0 0 true [.token 0 1 0 256 0 0 0 0 0],
      .gmlFlitRx 0 0 0 true [.request 0 1 0 true 0 2 [1] 0 false], .gmlFlitRx 0 0 0 true [.request 0 1 0 false 0 2 [1] 0 false],
      .gmlFlitRx 0 0 0 true [.journal 0 1 [1]], .gmlTimeExchange 0 0 4294967296, .ethFrameRx 0 (List.replicate 1519 0) true, .canFrameRx 0 0x800 false [],
      .canFrameRx 0 0x20000000 true [], .canFrameRx 0 0 false (List.replicate 9 0), .sysPcApertureWrite 0 2 0, .registerWrite 0 0 1 0,
      .pcDataAccess 0 .store 0 1 0 0 0 [], .pcDataAccess 0 (.load true false) 0 0 0 0 1 [], .pcDataAccess 0 (.amo 0) 0 0 0 0 0 [], .pcDataAccess 0 .loadReserved 0 0 0 0 1 [],
      .pcDataAccess 0 .storeConditional 0 0 0 0 0 [], .pcDataAccess 0 .fetch 1 0 0 0 2 [], .pcDataAccess 0 .store 0 0 0 0 0 [⟨0x1000000000000, false⟩],
      .maintActivityEnd 0x2000 [⟨0x1000000000000, false⟩]] : List Instr).all (fun c => !c.wellFormed) = true := by decide

/-- Terms that the interface brings. -/
theorem test_well_formed :
    ([.bistDone [0x0403] [], .nvmEraseProgramCommand 0 0 0 (.program [1]), .dispatch 0x0300, .csiLongPacket 0 0 0x2C .good true [1] .none, .wcMissFillDone 0x100,
      .cinderEntry 0x1000, .ntWinWrite 0 0x100 0 0, .tinderJobDone 0x0203, .gmlFlitRx 0 0 0 true [.drain 0 1 7, .request 0 1 0 true 0 2 [1, 2] 0 false],
      .canFrameRx 0 0x7FF false (List.replicate 12 0), .registerWrite 0 0 4 0, .pcDataAccess 0 (.amo 0) 0 2 0 0 2 [], .porstNAssert] : List Instr).all
        Instr.wellFormed = true := by decide

/-! ### The general statements: concrete states that meet their hypotheses -/

theorem test_StepTakesTheFront_witness :
    (∃ (s : State) (c : Instr) (rest : List Instr), s.pending = c :: rest)
    ∧ (∃ s : State, s.pending = [] ∧ s.kin.porstLow = false)
    ∧ (∃ s : State, s.pending = [] ∧ s.kin.porstLow = true) :=
  ⟨⟨{ up 11 with pending := [.mcFlagHiRead] }, .mcFlagHiRead, [], rfl⟩, ⟨up 11, by decide, by decide⟩, ⟨State.reset, by decide, by decide⟩⟩

theorem test_StepKeepsSound_witness : ∃ s t : State, s.sound ∧ step s = .next t :=
  ⟨{ up 11 with pending := [.mcFlagHiRead] }, _, by unfold State.sound; decide, rfl⟩

theorem test_FusesOnlyRise_witness :
    (∃ s t : State, s.otp.rollback ≤ 64 ∧ step s = .next t)
    ∧ (∃ (c : Instr) (s t : State), c ≠ .verifyPass ∧ exec c s = .next t) :=
  ⟨⟨{ up 11 with pending := [.mcFlagHiRead], otp := { (up 11).otp with rollback := 64 } }, _, by decide, rfl⟩,
   ⟨.mcFlagHiRead, up 11, _, by decide, rfl⟩⟩

theorem test_PartFrame_witness : ∃ (c : Instr) (s t : State) (p : Part), exec c s = .next t ∧ p ∉ instrParts c :=
  ⟨.mcFlagHiRead, up 11, _, .regs, rfl, by decide⟩

theorem test_RegisterFrame_witness : ∃ (c : Instr) (s t : State) (l : List Nat), instrRegs? c = some l ∧ exec c s = .next t :=
  ⟨.mcFlagHiRead, up 11, _, _, rfl, rfl⟩

/-- A region that covers the target and permits Domain ID 2 to read, asked for a write. -/
theorem test_FirewallIsolation_witness :
    ∃ (s : State) (c : Issuer) (a len n : Nat) (write : Bool), targetOf a = some n ∧ n ≠ 0xE8 ∧ c.ownSpm a = false ∧ 2 ≤ c.domain ∧ c.domain ≤ 14
      ∧ (∀ r ∈ s.safety.regions, r.target = n → r.permits a len c.domain c.initiator write = false) :=
  ⟨{ up 11 with safety := { (up 11).safety with
       regions := [⟨(targetOf 0x140000000).getD 0, 0, true, false, true, 0, 0, 0x10000000, 4, 0, none⟩] } }, ⟨0x0900, 2, false⟩, 0x140000000, 4, _, true, rfl, by decide, by decide, by decide, by decide, by decide⟩

theorem test_TimelineReadCapture_witness :
    ∃ (s t u : State) (bank b : Fin 6), t = s.readEffect bank.val Reg.TL_NOW_HI
      ∧ u.reg (bankOff bank.val Reg.TL_NOW_LO) = t.reg (bankOff bank.val Reg.TL_NOW_LO) ∧ s.canonical = true ∧ b ≠ bank :=
  ⟨{ up 11 with now := 0x1FFFFFFFF }, _, { (up 11) with now := 0x200000000, regs := [(bankOff 3 Reg.TL_NOW_LO, 0xFFFFFFFF)] }, 3, 2, rfl,
   by decide, by decide, by decide⟩

theorem test_FlagReadCapture_witness : ∃ s t u : State, exec .mcFlagHiRead s = .next t ∧ u.mm.flagHold = t.mm.flagHold :=
  ⟨up 11, _, _, rfl, rfl⟩

theorem test_SysRegisterWriters_witness :
    ∃ (s : State) (domain : BitVec 4) (offset : BitVec 24), s.canonical = true ∧ s.coreUp = true ∧ offset.toNat < 0x10000
      ∧ pairRegs offset.toNat = none ∧ domain ≠ 0 :=
  ⟨up 11, 2, 0x14, by decide, by decide, by decide, by decide, by decide⟩

/-! ### The statements on commands, each clause with hypotheses -/

theorem test_Resets_witness :
    (∃ (s : State) (straps : BitVec 5), s.canonical = true ∧ s.kin.porstLow = true)
    ∧ (∃ (s : State) (lowNs : Nat), s.canonical = true ∧ 1000 ≤ lowNs ∧ s.kin.wrstLow = false ∧ s.resettable = true ∧
      s.inWarmReset = false ∧ s.stage ≠ 1 ∧ s.stage ≠ 14)
    ∧ (∃ (s : State), s.canonical = true ∧ s.kin.wrstLow = true ∧ s.inWarmReset = true ∧ s.resettable = true ∧ s.kin.holdDue =
      none ∧ s.fld Reg.SYS_KIN_STATUS F.SYS_KIN_STATUS.WARM_COUNT < 4)
    ∧ (∃ (s : State) (d : Nat), s.canonical = true ∧ s.kin.holdDue = some d ∧ s.inWarmReset = true ∧ s.kin.wrstLow = false ∧
      s.fld Reg.SYS_KIN_STATUS F.SYS_KIN_STATUS.WARM_COUNT < 4)
    ∧ (∃ (s : State), s.canonical = true ∧ s.resettable = true ∧ 2 ≤ s.stage ∧ s.stage ≤ 10) :=
  ⟨⟨State.reset, 0b10110, by decide, by decide⟩,
   ⟨(up 11), 1000, by decide, by decide, by decide, by decide, by decide, by decide, by decide⟩,
   ⟨held, by decide, by decide, by decide, by decide, by decide, by decide⟩,
   ⟨({ held with kin := { held.kin with wrstLow := false, holdDue := some 10000 } }), 10000, by decide, by decide, by decide, by decide, by decide⟩,
   ⟨(up 5), by decide, by decide, by decide⟩⟩

theorem test_KindlingToLoad_witness :
    (∃ (s : State) (pass : Bool), s.canonical = true ∧ s.stage = 1 ∧ s.kin.siFailed = false ∧ s.kin.wrstLow = false)
    ∧ (∃ (s : State) (pass : Bool), s.canonical = true ∧ s.stage = 2 ∧ s.kin.hkcFailed = false)
    ∧ (∃ (s : State) (answers : BitVec 2) (size : Nat), s.canonical = true ∧ s.stage = 3)
    ∧ (∃ (s : State) (units : List Half) (others : List BistOther), s.canonical = true ∧ 4 ≤ s.stage ∧ s.stage ≤ 6 ∧
      s.kin.bistDone = false)
    ∧ (∃ (s : State) (ch : Fin 4) (pass : Bool) (mib : Half), s.canonical = true ∧ s.stage = 4 ∧ ch.val ∉ s.kin.trainedCh ++
      s.kin.fencedCh) :=
  ⟨⟨(up 1), true, by decide, by decide, by decide, by decide⟩,
   ⟨(up 2), false, by decide, by decide, by decide⟩,
   ⟨(up 3), 0, 0, by decide, by decide⟩,
   ⟨(up 4), ([]), ([]), by decide, by decide, by decide⟩,
   ⟨(up 4), 1, true, 1024, by decide, by decide, by decide⟩⟩

theorem test_KindlingToReady_witness :
    (∃ (s : State) (r : Nat) (rest : List Nat) (e : SecEnt), s.canonical = true ∧ s.kin.candidates = r :: rest ∧ s.stage = 5 ∧
      s.kin.loadDone = false ∧ s.kin.nextSection ≠ 0 ∧ (s.flash.sections r)[s.kin.nextSection]? = some e)
    ∧ (∃ (s : State) (r : Nat) (rest : List Nat), s.canonical = true ∧ s.kin.candidates = r :: rest ∧ s.stage = 6 ∧
      s.kin.loadDone = true ∧ s.kin.checkDone = false)
    ∧ (∃ (s : State), s.canonical = true ∧ s.stage = 7)
    ∧ (∃ (s : State), s.canonical = true ∧ s.stage = 8 ∧ (s.kin.seqs.all (fun r => r.profiles.isEmpty) = true))
    ∧ (∃ (s : State), s.canonical = true ∧ s.stage = 10 ∧ s.verifyMet = true)
    ∧ (∃ (s : State) (d : Nat), s.canonical = true ∧ s.kin.verifyDue = some d ∧ s.stage = 10 ∧ s.verifyMet = false) :=
  ⟨⟨loading, 0, ([]), (parseSec 1 (List.replicate 64 0xFF)), by decide, by decide, by decide, by decide, by decide, by decide⟩,
   ⟨({ up 6 with kin := { (up 6).kin with candidates := [0], loadDone := true } }), 0, ([]), by decide, by decide, by decide, by decide, by decide⟩,
   ⟨(up 7), by decide, by decide⟩,
   ⟨(up 8), by decide, by decide, by decide⟩,
   ⟨({ up 10 with safety := { (up 10).safety with ember := { (up 10).safety.ember with validRun := 2 } } }), by decide, by decide, by decide⟩,
   ⟨({ up 10 with kin := { (up 10).kin with verifyDue := some 500000000 } }), 500000000, by decide, by decide, by decide, by decide⟩⟩

theorem test_SensorSequences_witness :
    (∃ (s : State) (bus : Fin 4) (ack : Bool) (r : SeqRun) (p : SensorRec) (o : List Byte), s.seqAt bus.val 1 = some (r, p, o))
    ∧ (∃ (s : State) (bus : Fin 4) (ack : Bool) (value : Word) (r : SeqRun) (p : SensorRec) (o : List Byte), s.seqAt bus.val 2 =
      some (r, p, o))
    ∧ (∃ (s : State) (bus : Fin 4) (r : SeqRun) (p : SensorRec) (o : List Byte), s.seqAt bus.val 3 = some (r, p, o))
    ∧ (∃ (s : State) (bus : Fin 4) (ack : Bool) (value : Half) (r : SeqRun) (p : SensorRec) (o : List Byte), s.seqAt bus.val 4 =
      some (r, p, o))
    ∧ (∃ (s : State) (bus : Fin 4) (r : SeqRun) (p : SensorRec) (o : List Byte), s.seqAt bus.val 5 = some (r, p, o))
    ∧ (∃ (s : State) (bus : Fin 4) (r : SeqRun) (p : SensorRec) (o : List Byte), s.seqAt bus.val 6 = some (r, p, o))
    ∧ (∃ (s : State) (bus : Fin 4) (r : SeqRun) (p : SensorRec) (o : List Byte), s.seqAt bus.val 0 = some (r, p, o))
    ∧ (∃ (s : State) (bus : Fin 4) (d : Nat), (s.seqRun bus.val).retryDue = some d) :=
  ⟨⟨(atOp [1, 0x10, 0, 0, 1, 0, 0, 0]), 0, true, ((⟨[5], 0, false, none, none, none⟩ : SeqRun)), (parseSensor ([5, 0, 0, 0x10] ++ List.replicate 6 0 ++ [1, 0] ++ List.replicate 20 0 ++ [1, 0x10, 0, 0, 1, 0, 0, 0])), ([1, 0x10, 0, 0, 1, 0, 0, 0]), by decide⟩,
   ⟨(atOp [2, 0x10, 0, 0, 1, 0, 0, 0]), 0, true, 1, ((⟨[5], 0, false, none, none, none⟩ : SeqRun)), (parseSensor ([5, 0, 0, 0x10] ++ List.replicate 6 0 ++ [1, 0] ++ List.replicate 20 0 ++ [2, 0x10, 0, 0, 1, 0, 0, 0])), ([2, 0x10, 0, 0, 1, 0, 0, 0]), by decide⟩,
   ⟨(atOp [3, 0, 0, 0, 10, 0, 0, 0]), 0, ((⟨[5], 0, false, none, none, none⟩ : SeqRun)), (parseSensor ([5, 0, 0, 0x10] ++ List.replicate 6 0 ++ [1, 0] ++ List.replicate 20 0 ++ [3, 0, 0, 0, 10, 0, 0, 0])), ([3, 0, 0, 0, 10, 0, 0, 0]), by decide⟩,
   ⟨(atOp [4, 0x10, 0, 0, 1, 0, 1, 0]), 0, true, 2, ((⟨[5], 0, false, none, none, none⟩ : SeqRun)), (parseSensor ([5, 0, 0, 0x10] ++ List.replicate 6 0 ++ [1, 0] ++ List.replicate 20 0 ++ [4, 0x10, 0, 0, 1, 0, 1, 0])), ([4, 0x10, 0, 0, 1, 0, 1, 0]), by decide⟩,
   ⟨(atOp [5, 3, 0, 0, 1, 0, 0, 0]), 0, ((⟨[5], 0, false, none, none, none⟩ : SeqRun)), (parseSensor ([5, 0, 0, 0x10] ++ List.replicate 6 0 ++ [1, 0] ++ List.replicate 20 0 ++ [5, 3, 0, 0, 1, 0, 0, 0])), ([5, 3, 0, 0, 1, 0, 0, 0]), by decide⟩,
   ⟨(atOp [6, 1, 0, 0, 0, 0, 0, 0]), 0, ((⟨[5], 0, false, none, none, none⟩ : SeqRun)), (parseSensor ([5, 0, 0, 0x10] ++ List.replicate 6 0 ++ [1, 0] ++ List.replicate 20 0 ++ [6, 1, 0, 0, 0, 0, 0, 0])), ([6, 1, 0, 0, 0, 0, 0, 0]), by decide⟩,
   ⟨(atOp [0, 0, 0, 0, 0, 0, 0, 0]), 0, ((⟨[5], 0, false, none, none, none⟩ : SeqRun)), (parseSensor ([5, 0, 0, 0x10] ++ List.replicate 6 0 ++ [1, 0] ++ List.replicate 20 0 ++ [0, 0, 0, 0, 0, 0, 0, 0])), ([0, 0, 0, 0, 0, 0, 0, 0]), by decide⟩,
   ⟨({ up 8 with kin := { (up 8).kin with seqs := [⟨[], 0, true, some 7, none, none⟩] } }), 0, 7, by decide⟩⟩

theorem test_FlashAndReload_witness :
    (∃ (s : State) (cs : Fin 2) (opcode : Byte) (addr : Word) (op : NvmOp), risingFrom 0 s.flash.dev0 = true ∧ risingFrom 0
      s.flash.dev1 = true)
    ∧ (∃ (s : State) (pos : Fin 1024) (e : SecEnt), ((s.flash.live s.imgRegion).find? (fun x => x.pos == pos.val) = some e) ∧
      e.pos ∈ s.mm.reloads ∧ (s.mm.cinder.any (fun c => overlap c.base c.size e.load e.size) = false) ∧ isRemote e.load =
      false) :=
  ⟨⟨(up 11), 0, 2, 0x3000, (.program [0x12, 0x34]), by decide, by decide⟩,
   ⟨({ up 11 with flash := image 7 0 0x10004000000 [1, 2, 3, 4], mm := { (up 11).mm with reloads := [0] } }), 0, (parseSec 0 (entry 7 0 4 0x1000 0x10004000000)), by decide, by decide, by decide, by decide⟩⟩

theorem test_ServiceSessions_witness :
    (∃ (s : State) (ifc : Fin 3) (q : SvcReq) (rest : List SvcReq), (s.svc ifc.val).requests = q :: rest ∧ q.1 = 0x01 ∧
      s.serves 0x01 = true)
    ∧ (∃ (s : State) (ifc : Fin 3) (q : SvcReq) (rest : List SvcReq), (s.svc ifc.val).requests = q :: rest ∧ q.1 = 0x02 ∧
      s.serves 0x02 = true)
    ∧ (∃ (s : State) (ifc : Fin 3) (q : SvcReq) (rest : List SvcReq), (s.svc ifc.val).requests = q :: rest ∧ q.1 = 0x03 ∧
      s.serves 0x03 = true)
    ∧ (∃ (s : State) (ifc : Fin 3), (s.svc ifc.val).session ≠ none) :=
  ⟨⟨(asked 0x01 []), 2, ((0x01, [], false, ⟨[], [], 0⟩)), ([]), by decide, by decide, by decide⟩,
   ⟨(asked 0x02 []), 2, ((0x02, [], false, ⟨[], [], 0⟩)), ([]), by decide, by decide, by decide⟩,
   ⟨(asked 0x03 []), 2, ((0x03, [], false, ⟨[], [], 0⟩)), ([]), by decide, by decide, by decide⟩,
   ⟨({ up 11 with io := { (up 11).io with svc := [{ SvcIfc.idle with session := some (1, []) }] } }), 0, by decide⟩⟩

theorem test_ServiceReads_witness :
    (∃ (s : State) (ifc : Fin 3) (q : SvcReq) (rest : List SvcReq), (s.svc ifc.val).requests = q :: rest ∧ q.1 = 0x10 ∧
      s.serves 0x10 = true)
    ∧ (∃ (s : State) (ifc : Fin 3) (q : SvcReq) (rest : List SvcReq), (s.svc ifc.val).requests = q :: rest ∧ q.1 = 0x11 ∧
      s.serves 0x11 = true)
    ∧ (∃ (s : State) (ifc : Fin 3) (q : SvcReq) (rest : List SvcReq), (s.svc ifc.val).requests = q :: rest ∧ q.1 = 0x12 ∧
      s.serves 0x12 = true)
    ∧ (∃ (s : State) (ifc : Fin 3) (q : SvcReq) (rest : List SvcReq), (s.svc ifc.val).requests = q :: rest ∧ q.1 = 0x20 ∧
      s.serves 0x20 = true) :=
  ⟨⟨(asked 0x10 []), 2, ((0x10, [], false, ⟨[], [], 0⟩)), ([]), by decide, by decide, by decide⟩,
   ⟨(asked 0x11 [0, 0, 0, 0, 2]), 2, ((0x11, [0, 0, 0, 0, 2], false, ⟨[], [], 0⟩)), ([]), by decide, by decide, by decide⟩,
   ⟨(asked 0x12 [0, 0, 0, 0, 2]), 2, ((0x12, [0, 0, 0, 0, 2], false, ⟨[], [], 0⟩)), ([]), by decide, by decide, by decide⟩,
   ⟨(asked 0x20 []), 2, ((0x20, [], false, ⟨[], [], 0⟩)), ([]), by decide, by decide, by decide⟩⟩

theorem test_SupervisorPort_witness :
    (∃ (s : State) (start : Byte) (len : Byte), s.supUp = true)
    ∧ (∃ (s : State) (data : List Byte), s.canonical = true ∧ s.supUp = true ∧ s.io.stage.open' = false)
    ∧ (∃ (s : State), s.supUp = true) :=
  ⟨⟨(up 11), 60, 8, by decide⟩,
   ⟨(up 11), (0x10 :: List.replicate 31 0), by decide, by decide, by decide⟩,
   ⟨(up 11), by decide⟩⟩

theorem test_Staging_witness :
    (∃ (s : State) (ifc : Fin 3) (q : SvcReq) (rest : List SvcReq), (s.svc ifc.val).requests = q :: rest ∧ q.1 = 0x30 ∧
      s.serves 0x30 = true ∧ s.canonical = true)
    ∧ (∃ (s : State), s.io.stage.open' = true ∧ s.io.stage.erasing = true)
    ∧ (∃ (s : State) (ifc : Fin 3) (q : SvcReq) (rest : List SvcReq), (s.svc ifc.val).requests = q :: rest ∧ q.1 = 0x31 ∧
      s.serves 0x31 = true ∧ s.io.stage.open' = true ∧ s.io.stage.busy = false)
    ∧ (∃ (s : State) (off : Nat) (data : List Byte), s.io.stage.programming = some (off, data))
    ∧ (∃ (s : State) (ifc : Fin 3) (q : SvcReq) (rest : List SvcReq), (s.svc ifc.val).requests = q :: rest ∧ q.1 = 0x32 ∧
      s.serves 0x32 = true ∧ s.canonical = true ∧ s.io.stage.open' = true ∧ s.io.stage.busy = false)
    ∧ (∃ (s : State), s.canonical = true ∧ s.io.stage.open' = true ∧ s.io.stage.verifying = true)
    ∧ (∃ (s : State) (ifc : Fin 3) (q : SvcReq) (rest : List SvcReq), (s.svc ifc.val).requests = q :: rest ∧ q.1 = 0x33 ∧
      s.serves 0x33 = true)
    ∧ (∃ (s : State), s.canonical = true ∧ s.io.stage.open' = true ∧ s.io.stage.busy = false) :=
  ⟨⟨(asked 0x30 [0, 0, 0, 0, 0, 0, 0, 0]), 2, ((0x30, [0, 0, 0, 0, 0, 0, 0, 0], false, ⟨[], [], 0⟩)), ([]), by decide, by decide, by decide, by decide⟩,
   ⟨({ staging 0 [] with io := { (staging 0 []).io with stage := { (staging 0 []).io.stage with erasing := true } } }), by decide, by decide⟩,
   ⟨(staging 0x31 [0, 0, 0, 0, 1, 2]), 2, ((0x31, [0, 0, 0, 0, 1, 2], false, ⟨[], [], 0⟩)), ([]), by decide, by decide, by decide, by decide, by decide⟩,
   ⟨({ staging 0 [] with io := { (staging 0 []).io with stage := { (staging 0 []).io.stage with programming := some (0, [1, 2]) } } }), 0, ([1, 2]), by decide⟩,
   ⟨(staging 0x32 []), 2, ((0x32, [], false, ⟨[], [], 0⟩)), ([]), by decide, by decide, by decide, by decide, by decide, by decide⟩,
   ⟨({ staging 0 [] with io := { (staging 0 []).io with stage := { (staging 0 []).io.stage with verifying := true } } }), by decide, by decide, by decide⟩,
   ⟨(asked 0x33 []), 2, ((0x33, [], false, ⟨[], [], 0⟩)), ([]), by decide, by decide, by decide⟩,
   ⟨(staging 0 []), by decide, by decide, by decide⟩⟩

theorem test_SceneSwitch_witness :
    (∃ (s : State) (sw : Switch), s.scene.switch = some sw ∧ sw.drainDue ≠ 0)
    ∧ (∃ (s : State) (layer : Half) (sw : Switch) (l : BoundLayer), s.scene.switch = some sw ∧ (s.scene.layers.find? (fun x =>
      x.rc.id == layer.toNat && x.outgoing) = some l) ∧ layer.toNat ∈ sw.outgoing ∧ layer.toNat ∉ sw.cindered ∧ ((s.layerInsts
      layer.toNat).all (fun i => i.st == .cancelled && !i.stopping) = true))
    ∧ (∃ (s : State) (layer : Half) (sw : Switch) (l : LayerRec), s.scene.switch = some sw ∧ s.layerRec? layer.toNat = some l ∧
      s.mayBind sw l = true)
    ∧ (∃ (s : State) (sw : Switch), s.canonical = true ∧ s.scene.switch = some sw ∧ sw.complete = true ∧ sw.target < 16)
    ∧ (∃ (s : State) (d : Nat), s.canonical = true ∧ s.scene.dwellDue = some d) :=
  ⟨⟨switching, (⟨2, 5, 1, 0, [3], [4], [], [], 500000, false, false⟩), by decide, by decide⟩,
   ⟨switching, 3, (⟨2, 5, 1, 0, [3], [4], [], [], 500000, false, false⟩), (⟨{ id := 3, partition := 1, base := false, firewall := 0, unitMask := 0, fsBytes := 0, rings := [], nodes := [], flows := [] }, true, true, 1000000, []⟩), by decide, by decide, by decide, by decide, by decide⟩,
   ⟨({ switching with flash := image 2 4 0 ([4, 0, 1, 0] ++ List.replicate 28 0) }), 4, (⟨2, 5, 1, 0, [3], [4], [], [], 500000, false, false⟩), (parseLayer ([4, 0, 1, 0] ++ List.replicate 28 0)), by decide, by decide, by decide⟩,
   ⟨({ switching with scene := { switching.scene with layers := [], switch := some ⟨2, 5, 1, 0, [], [], [], [], 0, false, false⟩ } }), (⟨2, 5, 1, 0, [], [], [], [], 0, false, false⟩), by decide, by decide, by decide, by decide⟩,
   ⟨({ up 11 with scene := { (up 11).scene with dwellDue := some 5 } }), 5, by decide, by decide⟩⟩

theorem test_EthernetPorts_witness :
    (∃ (s : State) (mac : Fin 2), s.ethOn mac.val = true ∧ s.gptpPort mac.val = true ∧ s.ethLink mac.val = true ∧
      s.io.eth.length = 2 ∧ (s.io.eth.getD mac.val []).length < 64)
    ∧ (∃ (s : State) (mac : Fin 2) (data : List Byte) (fcsOk : Bool), s.canonical = true ∧ s.ethOn mac.val = true ∧ s.ethLink
      mac.val = true)
    ∧ (∃ (s : State) (mac : Fin 2) (x : EthTx), s.canonical = true ∧ s.nextEth mac.val = some x ∧ s.ethOn mac.val = true ∧
      s.ethLink mac.val = true ∧ s.io.wireEth.length = 2)
    ∧ (∃ (s : State) (mac : Fin 2) (up : Bool) (speed : BitVec 2), s.canonical = true ∧ s.ethOn mac.val = true) :=
  ⟨⟨(wired.setFld Reg.TL_CTRL F.TL_CTRL.PRIMARY 1), 0, by decide, by decide, by decide, by decide, by decide⟩,
   ⟨wired, 0, (List.replicate 60 1), false, by decide, by decide, by decide⟩,
   ⟨({ wired with io := { wired.io with eth := [[⟨1, 3, [1, 2, 3, 4, 5, 6], [], 0, 0, [8, 6]⟩], []] } }), 0, (⟨1, 3, [1, 2, 3, 4, 5, 6], [], 0, 0, [8, 6]⟩), by decide, by decide, by decide, by decide, by decide⟩,
   ⟨wired, 0, true, 3, by decide, by decide⟩⟩

theorem test_OutputFramer_witness :
    (∃ (s : State) (bank : Fin 5) (domain : BitVec 4) (value : Word), s.canonical = true ∧ F.OF_SUB_GO.GO.get value = 1)
    ∧ (∃ (s : State) (j : OfJob) (rest : List OfJob), s.io.ofJobs = j :: rest) :=
  ⟨⟨(up 11), 0, 1, 1, by decide, by decide⟩,
   ⟨({ wired with io := { wired.io with ofJobs := [⟨0, 1, 0, List.replicate 32 0, 0⟩] } }), (⟨0, 1, 0, List.replicate 32 0, 0⟩), ([]), by decide⟩⟩

theorem test_CanAndVehicleState_witness :
    (∃ (s : State) (can : Fin 2) (id : Word) (ext : Bool) (data : List Byte), s.canOn can.val = true)
    ∧ (∃ (s : State) (entry : Fin 32), (s.io.vs.getD entry.val VsEntry.fresh).stale = false ∧ entry.val < s.vsCount ∧
      s.io.vs.length = 32)
    ∧ (∃ (s : State) (can : Fin 2), s.canonical = true)
    ∧ (∃ (s : State) (can : Fin 2) (x : CanTx), winner (s.io.can.getD can.val []) = some x ∧ s.canOn can.val = true ∧ s.ofEnabled
      = true ∧ s.io.wireCan.length = 2)
    ∧ (∃ (s : State) (can : Fin 2), s.canonical = true ∧ s.fld (Reg.CAN_STATUS can.val) F.CAN_STATUS.STATE ≠ 3) :=
  ⟨⟨wired, 0, 5, false, ([7, 0, 0, 0, 0, 0, 0, 0]), by decide⟩,
   ⟨({ wired with io := { wired.io with vs := List.replicate 32 { VsEntry.fresh with stale := false } } }), 0, by decide, by decide, by decide⟩,
   ⟨wired, 0, by decide⟩,
   ⟨({ wired with io := { wired.io with can := [[⟨0, 5, false, [1]⟩], []] } }), 0, (⟨0, 5, false, [1]⟩), by decide, by decide, by decide, by decide⟩,
   ⟨wired, 0, by decide, by decide⟩⟩

theorem test_Gpio_witness :
    (∃ (s : State) (n : Fin 32) (level : Bool), s.gpioBound = true ∧ (s.gpioRec n.val).function = 1 ∧ (s.reg
      Reg.GPIO_IN).getLsbD n.val ≠ level)
    ∧ (∃ (s : State), s.gpioBound = true) :=
  ⟨⟨({ wired with kin := { wired.kin with bindDone := true } }), 0, true, by decide, by decide, by decide⟩,
   ⟨({ wired with kin := { wired.kin with bindDone := true }, now := 1500000000 }), by decide⟩⟩

theorem test_TokenLookup_witness :
    (∃ (s : State) (x : Token) (rest : List Token), s.canonical = true ∧ s.fgs.tokens = x :: rest)
    ∧ (∃ (s : State) (bank : Fin 5) (domain : BitVec 4) (hi : Word), s.canonical = true) :=
  ⟨⟨({ graph 0 false [] [] with fgs := { (graph 0 false [] []).fgs with tokens := [⟨9, 0, 1, 0, 0, 0, 2, false, none, false⟩] } }), (⟨9, 0, 1, 0, 0, 0, 2, false, none, false⟩), ([]), by decide, by decide⟩,
   ⟨(up 11), 0, 2, 0x00700000, by decide⟩⟩

theorem test_Admission_witness :
    (∃ (s : State) (entry : Fin 4096) (flagUe : Option (Fin 262144)) (i : Inst) (n : NodeSt), s.entry? entry.val = some i ∧
      s.node? i.node = some n ∧ i.st = .waiting ∧ i.need ≤ i.ops.length ∧ s.inWindow n i = true ∧ (n.rc.outRings.all (fun o =>
      s.outputOk n i o) = true) ∧ s.creditOk n i = true ∧ s.prevOk n i = true)
    ∧ (∃ (s : State) (entry : Fin 4096) (i : Inst) (n : NodeSt) (d : Nat), s.entry? entry.val = some i ∧ i.holdDue = some d ∧
      s.node? i.node = some n)
    ∧ (∃ (s : State) (entry : Fin 4096) (i : Inst) (n : NodeSt), s.entry? entry.val = some i ∧ s.node? i.node = some n ∧ i.st =
      .cancelled) :=
  ⟨⟨(graph 0 false [wInst .waiting none] []), 0, none, (wInst .waiting none), (wNode 0 false), by decide, by decide, by decide, by decide, by decide, by decide, by decide, by decide⟩,
   ⟨(graph 0 false [{ wInst .ready none with holdDue := some 100 }] []), 0, ({ wInst .ready none with holdDue := some 100 }), (wNode 0 false), 100, by decide, by decide, by decide⟩,
   ⟨(graph 0 true [wInst .cancelled none] []), 0, (wInst .cancelled none), (wNode 0 true), by decide, by decide, by decide⟩⟩

theorem test_Dispatch_witness :
    (∃ (s : State) (unit : Half) (i : Inst) (n : NodeSt) (h : List Nat), s.fgs.halted = false ∧ classOfUnit unit.toNat < 7 ∧
      s.unitFree unit.toNat = true ∧ s.pick unit.toNat (s.offerOrder (classOfUnit unit.toNat)) [] = (some (i, n), h))
    ∧ (∃ (s : State) (pair : Fin 4) (i : Inst) (n : NodeSt) (h : List Nat), s.canonical = true ∧ s.fgs.halted = false ∧
      s.unitFree (0x0B00 + pair.val) = true ∧ s.pick (0x0B00 + pair.val) (s.offerOrder 7) [] = (some (i, n), h))
    ∧ (∃ (s : State) (pair : Fin 4), s.canonical = true ∧ s.flag (Reg.FGS_PC_DISP0 pair.val) F.FGS_PC_DISP0.VALID = true)
    ∧ (∃ (s : State) (domain : BitVec 4) (value : Word), value.getLsbD 0 = true) :=
  ⟨⟨(graph 5 false [wInst .ready none] [wUnit 0x0800 none]), 0x0800, (wInst .ready none), (wNode 5 false), ([]), by decide, by decide, by decide, by decide⟩,
   ⟨(graph 7 false [wInst .ready none] [wUnit 0x0B00 none]), 0, (wInst .ready none), (wNode 7 false), ([]), by decide, by decide, by decide, by decide⟩,
   ⟨((graph 7 false [wInst .dispatched (some 0x0B00)] []).setFlag (Reg.FGS_PC_DISP0 0) F.FGS_PC_DISP0.VALID true), 0, by decide, by decide⟩,
   ⟨(graph 0 false [wInst .waiting none] []), 2, 1, by decide⟩⟩

theorem test_Release_witness :
    (∃ (s : State) (unit : Half) (i : Inst) (n : NodeSt), (s.unit unit.toNat).entry = some i.entry ∧ s.entry? i.entry = some i
      ∧ s.node? i.node = some n ∧ i.busy = true ∧ i.stopping = false ∧ pcOf unit.toNat = none ∧ n.steps ≤ i.step)
    ∧ (∃ (s : State) (entry : Fin 4096) (flagUe : Option (Fin 262144)) (i : Inst) (n : NodeSt), s.entry? entry.val = some i ∧
      s.node? i.node = some n ∧ i.st = .done ∧ s.atHead i = true)
    ∧ (∃ (s : State) (entry : Fin 4096) (i : Inst) (n : NodeSt) (d : Nat), s.entry? entry.val = some i ∧ s.node? i.node = some n
      ∧ i.st = .done ∧ s.atHead i = true ∧ i.stalledFrom = some d)
    ∧ (∃ (s : State) (node : Fin 4096) (input : Fin 8) (slot : Fin 64) (flagUe : Option (Fin 262144)) (n : NodeSt), s.node?
      node.val = some n) :=
  ⟨⟨(graph 5 false [wInst .running (some 0x0800)] [wUnit 0x0800 (some 0)]), 0x0800, (wInst .running (some 0x0800)), (wNode 5 false), by decide, by decide, by decide, by decide, by decide, by decide, by decide⟩,
   ⟨(graph 0 false [wInst .done none] []), 0, none, (wInst .done none), (wNode 0 false), by decide, by decide, by decide, by decide⟩,
   ⟨(graph 0 false [{ wInst .done none with stalledFrom := some 3 }] []), 0, ({ wInst .done none with stalledFrom := some 3 }), (wNode 0 false), 3, by decide, by decide, by decide, by decide, by decide⟩,
   ⟨(graph 0 false [] []), 7, 0, 0, none, (wNode 0 false), by decide⟩⟩

theorem test_StartsAndDeadlines_witness :
    (∃ (s : State) (node : Fin 4096) (n : NodeSt) (b : Nat), s.node? node.val = some n ∧ n.startBase = some b)
    ∧ (∃ (s : State) (entry : Fin 4096) (i : Inst) (n : NodeSt), s.entry? entry.val = some i ∧ s.node? i.node = some n ∧ i.late =
      false ∧ i.live = true)
    ∧ (∃ (s : State) (entry : Fin 4096) (i : Inst) (n : NodeSt), s.entry? entry.val = some i ∧ s.node? i.node = some n ∧ i.st =
      .waiting ∧ i.ops ≠ [] ∧ i.ops.length < i.need)
    ∧ (∃ (s : State) (n : Fin 4096) (m : NodeSt) (d : Nat), s.node? n.val = some m ∧ m.watchFrom = some d ∧ s.flowOf? m = none ∧
      m.rc.periodic = false)
    ∧ (∃ (s : State) (n : Fin 4096) (f : FlowSt) (d : Nat), (s.fgs.flows.find? (fun f => f.rc.id == n.val) = some f) ∧
      f.watchFrom = some d) :=
  ⟨⟨(graph 0 true [] []), 7, (wNode 0 true), 0, by decide, by decide⟩,
   ⟨(graph 0 false [wInst .waiting none] []), 0, (wInst .waiting none), (wNode 0 false), by decide, by decide, by decide, by decide⟩,
   ⟨(graph 0 false [{ wInst .waiting none with ops := [1], need := 2 }] []), 0, ({ wInst .waiting none with ops := [1], need := 2 }), (wNode 0 false), by decide, by decide, by decide, by decide, by decide⟩,
   ⟨(graph 0 false [] []), 7, (wNode 0 false), 0, by decide, by decide, by decide, by decide⟩,
   ⟨({ graph 0 false [] [] with fgs := { (graph 0 false [] []).fgs with flows := [⟨⟨2, 0, 4⟩, 3, 0, 0, some 0⟩] } }), 2, (⟨⟨2, 0, 4⟩, 3, 0, 0, some 0⟩), 0, by decide, by decide⟩⟩

theorem test_CsiReception_witness :
    (∃ (s : State) (port : Fin 4) (vc : Fin 16), s.canonical = true ∧ s.portOn port.val = true)
    ∧ (∃ (s : State) (port : Fin 4) (vc : Fin 16) (dt : Byte) (hdr : CsiHeader) (crcOk : Bool) (data : List Byte) (fault :
      LineFault), s.canonical = true ∧ s.portOn port.val = true)
    ∧ (∃ (s : State) (port : Fin 4) (vc : Fin 16) (hdr : CsiHeader) (crcOk : Bool) (data : List Byte), s.canonical = true ∧
      s.portOn port.val = true)
    ∧ (∃ (s : State) (port : Fin 4) (vc : Fin 16) (p : StreamRec) (c : StreamSt), s.canonical = true ∧ s.portOn port.val = true ∧
      s.rxStream? port.val vc.val = some (p, c) ∧ p.stream < 24)
    ∧ (∃ (s : State) (stream : Fin 24) (p : StreamRec) (c : StreamSt) (f : CamFrame), s.streamRec? stream.val = some p ∧ s.cam?
      stream.val = some c ∧ c.frame = some f) :=
  ⟨⟨(filming 0xFF { StreamSt.fresh0 5 with frame := some opened }), 1, 2, by decide, by decide⟩,
   ⟨(filming 0xFF { StreamSt.fresh0 5 with frame := some opened }), 1, 2, 0x2C, .good, true, ([0, 1, 2, 3, 4, 5]), .none, by decide, by decide⟩,
   ⟨(filming 0xFF { StreamSt.fresh0 5 with frame := some opened }), 1, 2, .good, true, ([1]), by decide, by decide⟩,
   ⟨(filming 0xFF { StreamSt.fresh0 5 with frame := some opened }), 1, 2, (profile 0xFF), ({ StreamSt.fresh0 5 with frame := some opened }), by decide, by decide, by decide, by decide⟩,
   ⟨(filming 0xFF { StreamSt.fresh0 5 with frame := some opened }), 5, (profile 0xFF), ({ StreamSt.fresh0 5 with frame := some opened }), opened, by decide, by decide, by decide⟩⟩

theorem test_CameraTriggers_witness :
    (∃ (s : State) (stream : Fin 24) (p : StreamRec) (c : StreamSt) (d : Nat), s.canonical = true ∧ s.streamRec? stream.val =
      some p ∧ s.cam? stream.val = some c ∧ c.owed = some d)
    ∧ (∃ (s : State) (out : Fin 4) (f : FsyncSt) (p : StreamRec), s.canonical = true ∧ s.cam.fsync[out.val]? = some f ∧
      ((s.flash.usedStreams s.imgRegion).find? (fun p => p.fsync == out.val) = some p) ∧ f.enabled = true ∧
      ((s.flash.usedStreams s.imgRegion).all (fun q => decide (q.stream < 24)) = true))
    ∧ (∃ (s : State) (port : Fin 4) (mask : BitVec 4), s.portOn port.val = true ∧ mask &&& (s.port port.val).lanes &&& ~~~(s.port
      port.val).failing ≠ 0 ∧ s.cam.ports.length = 4 ∧ (s.unit (0x0100 + port.val)).fenced = false ∧ s.canonical = true)
    ∧ (∃ (s : State) (port : Fin 4) (pass : Bool), s.canonical = true ∧ s.fld (Reg.CFE_PORT_STATUS port.val)
      F.CFE_PORT_STATUS.STATE = 2 ∧ ((s.kin.seqs.any (fun r => r.profiles.contains (((s.portStreams port.val).head?.map (fun p
      => p.sensor + (if (s.port port.val).target == 2 then 0x100 else 0x200))).getD 0)) && pass) = false) ∧ s.cam.ports.length
      = 4)
    ∧ (∃ (s : State) (port : Fin 4) (lanes : BitVec 4), s.canonical = true ∧ s.stage = 8 ∧ s.fld (Reg.CFE_PORT_STATUS port.val)
      F.CFE_PORT_STATUS.STATE = 0 ∧ (laneCount lanes = 1 ∨ laneCount lanes = 2 ∨ laneCount lanes = 4) ∧ s.cam.ports.length = 4)
    ∧ (∃ (s : State) (bus : Fin 4), s.cam.ibis.length = 4) :=
  ⟨⟨(filming 0 { StreamSt.fresh0 5 with owed := some 100 }), 5, (profile 0), ({ StreamSt.fresh0 5 with owed := some 100 }), 100, by decide, by decide, by decide, by decide⟩,
   ⟨(let w := filming 0 (StreamSt.fresh0 5); { w with cam := { w.cam with fsync := [⟨true, none, false, false⟩] } }), 0, (⟨true, none, false, false⟩), (profile 0), by decide, by decide, by decide, by decide, by decide⟩,
   ⟨(filming 0xFF (StreamSt.fresh0 5)), 1, 1, by decide, by decide, by decide, by decide, by decide⟩,
   ⟨((filming 0xFF (StreamSt.fresh0 5)).setFld (Reg.CFE_PORT_STATUS 1) F.CFE_PORT_STATUS.STATE 2), 1, true, by decide, by decide, by decide, by decide⟩,
   ⟨(up 8), 1, 3, by decide, by decide, by decide, by decide, by decide⟩,
   ⟨(up 11), 0, by decide⟩⟩

theorem test_SensorControl_witness :
    (∃ (s : State) (bus : Fin 4) (domain : BitVec 4) (value : Word), s.canonical = true ∧ s.cam.copying.length = 4 ∧
      s.cam.lastGo.length = 4 ∧ F.CFE_I3C_BATCH_GO.STREAM.get value < 24)
    ∧ (∃ (s : State) (bus : Fin 4) (b : Batch), s.cam.copying.getD bus.val none = some b)
    ∧ (∃ (s : State) (stream : Fin 24) (c : StreamSt) (q : SensorRec) (b : Batch) (k : Word) (d : Nat), s.cam? stream.val = some
      c ∧ s.sensorOf? stream.val = some q ∧ c.batch = some b ∧ c.window = some (k, d) ∧ s.batchFits c (max s.now (d +
      q.windowStartUs * 1000)) = true ∧ ((s.cam.streams.any (fun o => decide (o.stream < stream.val) && (s.sensorOf?
      o.stream).map (·.bus) == some q.bus && s.batchFits o (max s.now (d + q.windowStartUs * 1000)))) = false) ∧ s.busTransfers
      q.bus = false ∧ s.busSequence q.bus = false ∧ s.canonical = true)
    ∧ (∃ (s : State) (stream : Fin 24) (nackAt : Option Nat) (c : StreamSt) (q : SensorRec) (b : Batch) (e : Nat) (k : Word),
      s.canonical = true ∧ s.cam? stream.val = some c ∧ s.sensorOf? stream.val = some q ∧ c.transfer = some (b, e, k))
    ∧ (∃ (s : State) (pipe : Fin 4) (x : Nat × Nat × Nat) (b : IspBank) (p : StreamRec), s.canonical = true ∧ (s.pipe
      pipe.val).inject = some x ∧ (s.pipe pipe.val).bank? 7 = some b ∧ s.streamRec? x.1 = some p) :=
  ⟨⟨(up 11), 0, 1, 0x00000105, by decide, by decide, by decide, by decide⟩,
   ⟨(let w := filming 0xFF (StreamSt.fresh0 5); { w with cam := { w.cam with copying := [some ⟨5, []⟩, none, none, none] } }), 0, (⟨5, []⟩), by decide⟩,
   ⟨(filming 0xFF { StreamSt.fresh0 5 with batch := some ⟨5, []⟩, window := some (7, 0) }), 5, ({ StreamSt.fresh0 5 with batch := some ⟨5, []⟩, window := some (7, 0) }), (parseSensor ([5, 0, 0, 0x10] ++ List.replicate 6 0 ++ [0, 0] ++ List.replicate 4 0 ++ [0, 0x10, 0, 0] ++ List.replicate 12 0)), (⟨5, []⟩), 7, 0, by decide, by decide, by decide, by decide, by decide, by decide, by decide, by decide, by decide⟩,
   ⟨(filming 0xFF { StreamSt.fresh0 5 with transfer := some (⟨5, []⟩, 1, 7) }), 5, none, ({ StreamSt.fresh0 5 with transfer := some (⟨5, []⟩, 1, 7) }), (parseSensor ([5, 0, 0, 0x10] ++ List.replicate 6 0 ++ [0, 0] ++ List.replicate 4 0 ++ [0, 0x10, 0, 0] ++ List.replicate 12 0)), (⟨5, []⟩), 1, 7, by decide, by decide, by decide, by decide⟩,
   ⟨(let w := filming 0xFF (StreamSt.fresh0 5); { w with isp := [⟨List.replicate 7 none ++ [some ⟨0xFF, [], [], false⟩], [], [], some (5, 0, 0), none, none⟩] }), 0, ((5, 0, 0)), (⟨0xFF, [], [], false⟩), (profile 0xFF), by decide, by decide, by decide, by decide⟩⟩

theorem test_ImagePipes_witness :
    (∃ (s : State) (pipe : Fin 4) (badLines : List Nat) (parityAt : Option Nat) (f : StagedFrame) (p : StreamRec) (r : RingSt)
      (lim : Option Nat), (s.unit (0x0200 + pipe.val)).fenced = false ∧ (s.unit (0x0200 + pipe.val)).gated = false ∧ (s.unit
      (0x0200 + pipe.val)).heldBy = none ∧ (s.pipe pipe.val).inject = none ∧ (s.pipe pipe.val).frames = [] ∧ s.nextStaged
      pipe.val = some f ∧ s.inlineLimit pipe.val = some lim ∧ s.streamRec? f.stream = some p ∧ s.ring? f.layer f.ring = some r
      ∧ (lim.all (fun d => decide (4 * s.now + 5 * stagedClocks p + 40000 ≤ 4 * d)) = true))
    ∧ (∃ (s : State) (stream : Fin 24) (out : Fin 3) (band : Half) (p : StreamRec) (f : PipeFrame) (d : IspDest) (r : RingSt) (k
      : Nat), s.streamRec? stream.val = some p ∧ ((s.pipe p.isp).frames.find? (fun f => f.stream == stream.val && !f.restart &&
      ((s.ispDest? f.layer f.params f.service out.val).any (fun d => !f.done.contains (d.ring.idx, band.toNat) && decide
      (band.toNat < d.ring.perFrame) && f.ready p (bandEnd d.ring band.toNat)))) = some f) ∧ s.ispDest? f.layer f.params
      f.service out.val = some d ∧ d.ring.begun f.seq band.toNat = true ∧ s.ring? f.layer d.ring.idx = some r ∧ d.ring.k? f.seq
      = some k ∧ r.assigned? (r.slotOf k band.toNat) = some (k, band.toNat))
    ∧ (∃ (s : State) (stream : Fin 24) (p : StreamRec) (f : PipeFrame) (r : RingSt) (k : Nat), s.streamRec? stream.val = some p ∧
      ((s.pipe p.isp).frames.find? (fun f => f.stream == stream.val && !f.restart && f.closed && ((s.statsRing? f.layer
      f.params).any (fun r => !f.done.contains (r.idx, 0)))) = some f) ∧ s.statsRing? f.layer f.params = some r ∧ r.begun f.seq
      0 = true ∧ r.k? f.seq = some k ∧ r.assigned? (r.slotOf k 0) = some (k, 0))
    ∧ (∃ (s : State) (pipe : Fin 4) (bank : Fin 5) (domain : BitVec 4) (value : Word), s.canonical = true ∧ F.ISP_UPD_GO.GO.get
      value = 1 ∧ s.isp.length = 4)
    ∧ (∃ (s : State) (pipe : Fin 4) (b : Nat) (st : Nat) (u : IspUpd) (m : Nat) (k : IspBank), s.canonical = true ∧ (s.pipe
      pipe.val).copying = some (b, st, u) ∧ (s.cam? st).bind (·.bank) = some m ∧ (s.pipe pipe.val).bank? m = some k) :=
  ⟨⟨(let w := filming 0xFF (StreamSt.fresh0 5); { w with units := [wUnit 0x0200 none], isp := [⟨[], [], [⟨5, 3, 7, 0, 0, 0, false, []⟩], none, none, none⟩], fgs := { w.fgs with rings := [{ RingSt.void with layer := 3, idx := 0 }] } }), 0, ([]), none, (⟨5, 3, 7, 0, 0, 0, false, []⟩), (profile 0xFF), ({ RingSt.void with layer := 3, idx := 0 }), none, by decide, by decide, by decide, by decide, by decide, by decide, by decide, by decide, by decide, by decide⟩,
   ⟨(let w := filming 0xFF (StreamSt.fresh0 5); { w with isp := (List.replicate 255 PipeSt.empty) ++ [⟨[], [⟨5, 3, 7, 0, none, false, [], [], false, [], 0, false, true, [], false, false⟩], [], none, none, none⟩], fgs := { w.fgs with rings := [{ RingSt.void with layer := 3, idx := 0, kOf := [(7, 0)], assign := [(0, 0, 0)] }] } }), 5, 0, 0, (profile 0xFF), (⟨5, 3, 7, 0, none, false, [], [], false, [], 0, false, true, [], false, false⟩), (⟨{ RingSt.void with layer := 3, idx := 0, kOf := [(7, 0)], assign := [(0, 0, 0)] }, 10, 0, 0⟩), ({ RingSt.void with layer := 3, idx := 0, kOf := [(7, 0)], assign := [(0, 0, 0)] }), 0, by decide, by decide, by decide, by decide, by decide, by decide, by decide⟩,
   ⟨(let w := filming 0xFF (StreamSt.fresh0 5); { w with isp := (List.replicate 255 PipeSt.empty) ++ [⟨[], [⟨5, 3, 7, 0, none, false, [], [], false, [], 0, false, true, [], false, false⟩], [], none, none, none⟩], fgs := { w.fgs with rings := [{ RingSt.void with layer := 3, idx := 0, kOf := [(7, 0)], assign := [(0, 0, 0)] }] } }), 5, (profile 0xFF), (⟨5, 3, 7, 0, none, false, [], [], false, [], 0, false, true, [], false, false⟩), ({ RingSt.void with layer := 3, idx := 0, kOf := [(7, 0)], assign := [(0, 0, 0)] }), 0, by decide, by decide, by decide, by decide, by decide, by decide⟩,
   ⟨({ up 11 with isp := List.replicate 4 PipeSt.empty }), 0, 0, 2, 1, by decide, by decide, by decide⟩,
   ⟨(let w := filming 0xFF { StreamSt.fresh0 5 with bank := some 0 }; { w with isp := [⟨[some ⟨5, [], [], false⟩], [], [], none, none, some (1, 5, ⟨false, 0, 64, []⟩)⟩] }), 0, 1, 5, (⟨false, 0, 64, []⟩), 0, (⟨5, [], [], false⟩), by decide, by decide, by decide, by decide⟩⟩

theorem test_VisionEngines_witness :
    (∃ (s : State) (inst : Fin 4) (c : StepCtx) (u1 : State) (ws : List (Nat × List Byte)) (v : State), s.canonical = true ∧
      stepDue s (0x0300 + inst.val) 1 c ∧ warpValid (s.fetched c) c (s.desc c) = true ∧ (u1 = ((s.fetched c).fetchRuns c
      ((warpPairs (s.desc c)).flatMap (fun (p : Nat × Nat) => (s.fetched c).warpRuns c (s.desc c) p.1 p.2))).1) ∧ (((s.fetched
      c).fetchRuns c ((warpPairs (s.desc c)).flatMap (fun (p : Nat × Nat) => (s.fetched c).warpRuns c (s.desc c) p.1 p.2))).2 =
      true) ∧ (ws = (warpPairs (s.desc c)).flatMap (fun (p : Nat × Nat) => (u1.warpOut c (s.desc c) p.1 p.2).1)) ∧ v =
      (u1.judgeWrites c.issuer ws).1 ∧ (u1.judgeWrites c.issuer ws).2 = none)
    ∧ (∃ (s : State) (inst : Fin 4) (c : StepCtx) (u1 : State) (ws : List (Nat × List Byte)) (v : State), s.canonical = true ∧
      stepDue s (0x0300 + inst.val) 2 c ∧ warpValid (s.fetched c) c (s.desc c) = true ∧ (u1 = ((s.fetched c).fetchRuns c
      ((warpPairs (s.desc c)).flatMap (fun (p : Nat × Nat) => (s.fetched c).warpRuns c (s.desc c) p.1 p.2))).1) ∧ (((s.fetched
      c).fetchRuns c ((warpPairs (s.desc c)).flatMap (fun (p : Nat × Nat) => (s.fetched c).warpRuns c (s.desc c) p.1 p.2))).2 =
      true) ∧ (ws = (warpPairs (s.desc c)).flatMap (fun (p : Nat × Nat) => (u1.warpOut c (s.desc c) p.1 p.2).1)) ∧ v =
      (u1.judgeWrites c.issuer ws).1 ∧ (u1.judgeWrites c.issuer ws).2 = none)
    ∧ (∃ (s : State) (inst : Fin 4) (c : StepCtx) (u1 : State) (ws : List (Nat × List Byte)) (v : State), s.canonical = true ∧
      stepDue s (0x0300 + inst.val) 3 c ∧ warpValid (s.fetched c) c (s.desc c) = true ∧ (u1 = ((s.fetched c).fetchRuns c
      ((warpPairs (s.desc c)).flatMap (fun (p : Nat × Nat) => (s.fetched c).warpRuns c (s.desc c) p.1 p.2))).1) ∧ (((s.fetched
      c).fetchRuns c ((warpPairs (s.desc c)).flatMap (fun (p : Nat × Nat) => (s.fetched c).warpRuns c (s.desc c) p.1 p.2))).2 =
      true) ∧ (ws = (warpPairs (s.desc c)).flatMap (fun (p : Nat × Nat) => (u1.warpOut c (s.desc c) p.1 p.2).1)) ∧ v =
      (u1.judgeWrites c.issuer ws).1 ∧ (u1.judgeWrites c.issuer ws).2 = none)
    ∧ (∃ (s : State) (inst : Fin 4) (c : StepCtx) (u1 : State) (ws : List (Nat × List Byte)) (v : State), s.canonical = true ∧
      stepDue s (0x0300 + inst.val) 4 c ∧ warpValid (s.fetched c) c (s.desc c) = true ∧ (u1 = ((s.fetched c).fetchRuns c
      ((warpPairs (s.desc c)).flatMap (fun (p : Nat × Nat) => (s.fetched c).warpRuns c (s.desc c) p.1 p.2))).1) ∧ (((s.fetched
      c).fetchRuns c ((warpPairs (s.desc c)).flatMap (fun (p : Nat × Nat) => (s.fetched c).warpRuns c (s.desc c) p.1 p.2))).2 =
      true) ∧ (ws = (warpPairs (s.desc c)).flatMap (fun (p : Nat × Nat) => (u1.warpOut c (s.desc c) p.1 p.2).1)) ∧ v =
      (u1.judgeWrites c.issuer ws).1 ∧ (u1.judgeWrites c.issuer ws).2 = none)
    ∧ (∃ (s : State) (inst : Fin 4) (c : StepCtx) (u1 : State) (inp : Level) (ws : List (Nat × List Byte)) (v : State),
      s.canonical = true ∧ stepDue s (0x0400 + inst.val) 0x10 c ∧ pyrValid (s.fetched c) c (s.desc c) = true ∧ (u1 =
      ((s.fetched c).fetchRuns c ((span ((((s.fetched c).carries c (s.desc c)).map (fun (k : Carry) => max (pyrFetch c (s.desc
      c)).2.2.1 k.bottom)).getD ((pyrFetch c (s.desc c)).2.2.1)) (pyrFetch c (s.desc c)).2.2.2).map (fun y => (lineAddr (c.inp
      0).1 ((c.inp 0).2.getD 0) y + (pyrFetch c (s.desc c)).1 * (pixBytes (c.inp 0).1.rc.format), ((pyrFetch c (s.desc c)).2.1
      - (pyrFetch c (s.desc c)).1) * (pixBytes (c.inp 0).1.rc.format))))).1) ∧ (((s.fetched c).fetchRuns c ((span ((((s.fetched
      c).carries c (s.desc c)).map (fun (k : Carry) => max (pyrFetch c (s.desc c)).2.2.1 k.bottom)).getD ((pyrFetch c (s.desc
      c)).2.2.1)) (pyrFetch c (s.desc c)).2.2.2).map (fun y => (lineAddr (c.inp 0).1 ((c.inp 0).2.getD 0) y + (pyrFetch c
      (s.desc c)).1 * (pixBytes (c.inp 0).1.rc.format), ((pyrFetch c (s.desc c)).2.1 - (pyrFetch c (s.desc c)).1) * (pixBytes
      (c.inp 0).1.rc.format))))).2 = true) ∧ (inp = mkLevel (c.inp 0).1.rc.width (c.inp 0).1.frameH (fun x y => u1.pix (pixAddr
      (c.inp 0).1 ((c.inp 0).2.getD 0) x y) (pixBytes (c.inp 0).1.rc.format))) ∧ (ws = (pyrOuts c (s.desc c)).flatMap (fun j =>
      (span (c.rect j).2.2.1 (c.rect j).2.2.2).map (fun y => (pixAddr (c.out j).1 (c.out j).2 (c.rect j).1 y, (span (c.rect
      j).1 (c.rect j).2.1).flatMap (fun px => pyrBytes (c.inp 0).1.rc.width (c.inp 0).1.frameH inp (pixBytes (c.inp
      0).1.rc.format) (leAt (s.desc c) 1 1) (pyrOut (s.desc c) j).1 (pyrOut (s.desc c) j).2 px y))))) ∧ v = (u1.judgeWrites
      c.issuer ws).1 ∧ (u1.judgeWrites c.issuer ws).2 = none)
    ∧ (∃ (s : State) (inst : Fin 4) (c : StepCtx) (u1 : State) (mo : Motion) (job : StrJob) (u2 : State) (ws : List (Nat × List
      Byte)) (v : State), s.canonical = true ∧ stepDue s (0x0500 + inst.val) 0x20 c ∧ strValid (s.fetched c) c (s.desc c) =
      true ∧ (u1 = ((s.fetched c).fetchRuns c (if (parseStr (s.desc c)).motion == 0 then [] else [(motionAddr (parseStr (s.desc
      c)).motion c.seq, 64)])).1) ∧ (((s.fetched c).fetchRuns c (if (parseStr (s.desc c)).motion == 0 then [] else [(motionAddr
      (parseStr (s.desc c)).motion c.seq, 64)])).2 = true) ∧ mo = parseMotion (Memory.bytes u1.mem (motionAddr (parseStr
      (s.desc c)).motion c.seq) 64) ∧ (job = strJob c (parseStr (s.desc c)) (if ((parseStr (s.desc c)).motion != 0 &&
      mo.accepted c.seq ((parseStr (s.desc c)).pred == 1) ((parseStr (s.desc c)).pred == 1) ((parseStr (s.desc c)).pred == 3 ||
      (parseStr (s.desc c)).fallback == 3)) then some mo else none)) ∧ u2 = (u1.fetchRuns c job.runs).1 ∧ (u1.fetchRuns c
      job.runs).2 = true ∧ (ws = (job.results u2).1.mapIdx (fun i row => (pixAddr (c.out 0).1 (c.out 0).2 job.x0 (job.y0 + i),
      row.flatMap (fun p => leBytes 2 p.word))) ++ (if decide (2 ≤ c.outs.length) then (job.results u2).1.mapIdx (fun i row =>
      (pixAddr (c.out 1).1 (c.out 1).2 job.x0 (job.y0 + i), row.map (fun p => BitVec.ofNat 8 (if p.code == 0 then p.conf else
      0)))) else [])) ∧ v = (u2.judgeWrites c.issuer ws).1 ∧ (u2.judgeWrites c.issuer ws).2 = none)
    ∧ (∃ (s : State) (inst : Fin 4) (c : StepCtx) (job : FlwJob) (ws : List (Nat × List Byte)) (v : State), s.canonical = true ∧
      stepDue s (0x0600 + inst.val) 0x30 c ∧ flwValid (s.fetched c) c (s.desc c) = true ∧ (c.inp 1).2 = none ∧ job = flwJob c
      (parseFlw (s.desc c)) ∧ (ws = job.stores c ((span job.y0 job.y1).map (fun _ => (span job.x0 job.x1).map (fun _ =>
      FlwPix.noData)))) ∧ v = ((s.fetched c).judgeWrites c.issuer ws).1 ∧ ((s.fetched c).judgeWrites c.issuer ws).2 = none)
    ∧ (∃ (s : State) (inst : Fin 4) (c : StepCtx) (job : FlwJob) (u0 : State) (u1 : State) (ws : List (Nat × List Byte)) (v :
      State), s.canonical = true ∧ stepDue s (0x0600 + inst.val) 0x30 c ∧ flwValid (s.fetched c) c (s.desc c) = true ∧ (c.inp
      1).2 ≠ none ∧ job = flwJob c (parseFlw (s.desc c)) ∧ u0 = ((s.fetched c).fetchRuns c job.runs).1 ∧ ((s.fetched
      c).fetchRuns c job.runs).2 = true ∧ u1 = (u0.fetchRuns c (job.warpRuns u0)).1 ∧ (u0.fetchRuns c (job.warpRuns u0)).2 =
      true ∧ ws = job.stores c (job.results u1).1 ∧ v = (u1.judgeWrites c.issuer ws).1 ∧ (u1.judgeWrites c.issuer ws).2 = none)
    ∧ (∃ (s : State) (inst : Fin 4) (c : StepCtx) (u1 : State) (kept : List Corner) (ws : List (Nat × List Byte)) (v : State),
      s.canonical = true ∧ stepDue s (0x0700 + inst.val) 0x40 c ∧ ftrValid (s.fetched c) c (s.desc c) = true ∧ u1 =
      (((s.fetched c).setFlag (Reg.FTR_STATUS inst.val) F.FTR_STATUS.MATCH false).fetchRuns c (ftrRuns (ftrLevels c (parseFtr
      (s.desc c))))).1 ∧ (((s.fetched c).setFlag (Reg.FTR_STATUS inst.val) F.FTR_STATUS.MATCH false).fetchRuns c (ftrRuns
      (ftrLevels c (parseFtr (s.desc c))))).2 = true ∧ (kept = quotaKept (parseFtr (s.desc c)) (bucketed (parseFtr (s.desc c))
      ((ftrLevels c (parseFtr (s.desc c))).flatMap (fun l => l.survivors  u1 (parseFtr (s.desc c)))))) ∧ (ws = [(pixAddr (c.out
      0).1 (c.out 0).2 0 c.tile, ((kept.foldr insertCorner []).mapIdx (fun i p => ftrRecord u1 c (ftrLevels c (parseFtr (s.desc
      c))) (u1.patterns.getD (c.unit % 256) []) i p) ++ List.replicate ((parseFtr (s.desc c)).quota - kept.length)
      ftrEmpty).flatten)]) ∧ v = (u1.judgeWrites c.issuer ws).1 ∧ (u1.judgeWrites c.issuer ws).2 = none)
    ∧ (∃ (s : State) (inst : Fin 4) (c : StepCtx) (u1 : State) (ws : List (Nat × List Byte)) (v : State), s.canonical = true ∧
      stepDue s (0x0700 + inst.val) 0x41 c ∧ matchValid (s.desc c) = true ∧ (c.inp 1).2 = none ∧ u1 = (((s.fetched c).setFlag
      (Reg.FTR_STATUS inst.val) F.FTR_STATUS.MATCH true).fetchRuns c [(pixAddr (c.inFrameOf 0).1 (c.inFrameOf 0).2 0 c.tile, 64
      * (c.inFrameOf 0).1.rc.width)]).1 ∧ (((s.fetched c).setFlag (Reg.FTR_STATUS inst.val) F.FTR_STATUS.MATCH true).fetchRuns
      c [(pixAddr (c.inFrameOf 0).1 (c.inFrameOf 0).2 0 c.tile, 64 * (c.inFrameOf 0).1.rc.width)]).2 = true ∧ (ws = [(pixAddr
      (c.out 0).1 (c.out 0).2 0 c.tile, (((List.range (c.inFrameOf 0).1.rc.width).map (fun i => u1.ftrRec (pixAddr (c.inFrameOf
      0).1 (c.inFrameOf 0).2 i c.tile))).map (fun q => if q.empty then MatchRec.emptyQuery else ⟨0, q.flagged, false, false,
      256, 256, 1, 0xFFF, 0x7FFF⟩)).flatMap (fun m => leBytes 8 m.word))]) ∧ v = (u1.judgeWrites c.issuer ws).1 ∧
      (u1.judgeWrites c.issuer ws).2 = none)
    ∧ (∃ (s : State) (inst : Fin 4) (c : StepCtx) (u0 : State) (qs : List FtrRec) (u1 : State) (mo : Motion) (ws : List (Nat ×
      List Byte)) (v : State), s.canonical = true ∧ stepDue s (0x0700 + inst.val) 0x41 c ∧ matchValid (s.desc c) = true ∧
      (c.inp 1).2 ≠ none ∧ (u0 = (((s.fetched c).setFlag (Reg.FTR_STATUS inst.val) F.FTR_STATUS.MATCH true).fetchRuns c ((if
      (parseMatch (s.desc c)).pred == 3 then [(motionAddr (parseMatch (s.desc c)).motion c.seq, 64)] else []) ++ [(pixAddr
      (c.inFrameOf 0).1 (c.inFrameOf 0).2 0 c.tile, 64 * (c.inFrameOf 0).1.rc.width)] ++ (span (candLines (parseMatch (s.desc
      c)) c.tile (c.inFrameOf 0).1.frameH (c.inFrameOf 1).1.frameH).1 (candLines (parseMatch (s.desc c)) c.tile (c.inFrameOf
      0).1.frameH (c.inFrameOf 1).1.frameH).2).map (fun y => (pixAddr (c.inFrameOf 1).1 (c.inFrameOf 1).2 0 y, 64 *
      (c.inFrameOf 1).1.rc.width)))).1) ∧ ((((s.fetched c).setFlag (Reg.FTR_STATUS inst.val) F.FTR_STATUS.MATCH true).fetchRuns
      c ((if (parseMatch (s.desc c)).pred == 3 then [(motionAddr (parseMatch (s.desc c)).motion c.seq, 64)] else []) ++
      [(pixAddr (c.inFrameOf 0).1 (c.inFrameOf 0).2 0 c.tile, 64 * (c.inFrameOf 0).1.rc.width)] ++ (span (candLines (parseMatch
      (s.desc c)) c.tile (c.inFrameOf 0).1.frameH (c.inFrameOf 1).1.frameH).1 (candLines (parseMatch (s.desc c)) c.tile
      (c.inFrameOf 0).1.frameH (c.inFrameOf 1).1.frameH).2).map (fun y => (pixAddr (c.inFrameOf 1).1 (c.inFrameOf 1).2 0 y, 64
      * (c.inFrameOf 1).1.rc.width)))).2 = true) ∧ (qs = (List.range (c.inFrameOf 0).1.rc.width).map (fun i => u0.ftrRec
      (pixAddr (c.inFrameOf 0).1 (c.inFrameOf 0).2 i c.tile))) ∧ (u1 = (u0.fetchRuns c (if (parseMatch (s.desc c)).pred == 1
      then ((qs.filter (fun q => !q.empty)).filterMap (u0.matchFlowAt c (parseMatch (s.desc c)))).eraseDups.map (fun a => (a,
      4)) else [])).1) ∧ ((u0.fetchRuns c (if (parseMatch (s.desc c)).pred == 1 then ((qs.filter (fun q => !q.empty)).filterMap
      (u0.matchFlowAt c (parseMatch (s.desc c)))).eraseDups.map (fun a => (a, 4)) else [])).2 = true) ∧ mo = parseMotion
      (Memory.bytes u1.mem (motionAddr (parseMatch (s.desc c)).motion c.seq) 64) ∧ (ws = [(pixAddr (c.out 0).1 (c.out 0).2 0
      c.tile, (qs.map (fun q => matchOne (parseMatch (s.desc c)) q (u1.matchPred c (parseMatch (s.desc c)) (if mo.accepted
      c.seq true false false then some mo else none) q) (u1.coveredLines (c.inFrameOf 1).1 (candLines (parseMatch (s.desc c))
      c.tile (c.inFrameOf 0).1.frameH (c.inFrameOf 1).1.frameH).1 (candLines (parseMatch (s.desc c)) c.tile (c.inFrameOf
      0).1.frameH (c.inFrameOf 1).1.frameH).2) ((span (candLines (parseMatch (s.desc c)) c.tile (c.inFrameOf 0).1.frameH
      (c.inFrameOf 1).1.frameH).1 (candLines (parseMatch (s.desc c)) c.tile (c.inFrameOf 0).1.frameH (c.inFrameOf
      1).1.frameH).2).flatMap (fun y => (List.range (c.inFrameOf 1).1.rc.width).map (fun i => (y, i, u1.ftrRec (pixAddr
      (c.inFrameOf 1).1 (c.inFrameOf 1).2 i y))))))).flatMap (fun m => leBytes 8 m.word))]) ∧ v = (u1.judgeWrites c.issuer
      ws).1 ∧ (u1.judgeWrites c.issuer ws).2 = none) :=
  ⟨⟨({ stepper 0 0x0300 [255] [255] [] ([1, 0, 1, 0, 0, 0, 0, 0, 0, 0, 0xFF, 0xFF] ++ List.replicate 84 0) with flash := image 0x0C 0 (addrFs + 64) (List.replicate 64 0) }), 0, (State.instCtx ({ stepper 0 0x0300 [255] [255] [] ([1, 0, 1, 0, 0, 0, 0, 0, 0, 0, 0xFF, 0xFF] ++ List.replicate 84 0) with flash := image 0x0C 0 (addrFs + 64) (List.replicate 64 0) }) 0x0300 (wInst .running (some 0x0300)) (stepNode 0 [255] [255])), _, _, _, by decide, by decide, by decide, rfl, by decide, rfl, rfl, by decide⟩,
   ⟨(stepper 0 0x0300 [255] [255] [] ([2, 0, 1, 0, 0, 0, 0, 0, 0xFF, 0xFF, 0xFF, 0xFF] ++ List.replicate 52 0)), 0, (State.instCtx (stepper 0 0x0300 [255] [255] [] ([2, 0, 1, 0, 0, 0, 0, 0, 0xFF, 0xFF, 0xFF, 0xFF] ++ List.replicate 52 0)) 0x0300 (wInst .running (some 0x0300)) (stepNode 0 [255] [255])), _, _, _, by decide, by decide, by decide, rfl, by decide, rfl, rfl, by decide⟩,
   ⟨(stepper 0 0x0300 [255] [255] [] ([3, 0, 1, 0, 0, 0, 0, 0, 0xFF, 0xFF, 0xFF, 0xFF] ++ List.replicate 52 0)), 0, (State.instCtx (stepper 0 0x0300 [255] [255] [] ([3, 0, 1, 0, 0, 0, 0, 0, 0xFF, 0xFF, 0xFF, 0xFF] ++ List.replicate 52 0)) 0x0300 (wInst .running (some 0x0300)) (stepNode 0 [255] [255])), _, _, _, by decide, by decide, by decide, rfl, by decide, rfl, rfl, by decide⟩,
   ⟨({ stepper 0 0x0300 [255, 255] [255, 255] [] ([4, 0, 1, 0, 0, 0, 0, 0, 0, 0, 0, 0] ++ List.replicate 84 0) with flash := image 0x0C 0 (addrFs + 64) (List.replicate 64 0) }), 0, (State.instCtx ({ stepper 0 0x0300 [255, 255] [255, 255] [] ([4, 0, 1, 0, 0, 0, 0, 0, 0, 0, 0, 0] ++ List.replicate 84 0) with flash := image 0x0C 0 (addrFs + 64) (List.replicate 64 0) }) 0x0300 (wInst .running (some 0x0300)) (stepNode 0 [255, 255] [255, 255])), _, _, _, by decide, by decide, by decide, rfl, by decide, rfl, rfl, by decide⟩,
   ⟨(stepper 1 0x0400 [255] [255] [] ([0x10, 0, 1, 1] ++ List.replicate 60 0)), 0, (State.instCtx (stepper 1 0x0400 [255] [255] [] ([0x10, 0, 1, 1] ++ List.replicate 60 0)) 0x0400 (wInst .running (some 0x0400)) (stepNode 1 [255] [255])), _, _, _, _, by decide, by decide, by decide, rfl, by decide, rfl, rfl, rfl, by decide⟩,
   ⟨(stepper 2 0x0500 [255, 255, 255, 255, 255] [255] [] ([0x20, 0, 0, 0, 0, 1, 2] ++ List.replicate 57 0)), 0, (State.instCtx (stepper 2 0x0500 [255, 255, 255, 255, 255] [255] [] ([0x20, 0, 0, 0, 0, 1, 2] ++ List.replicate 57 0)) 0x0500 (wInst .running (some 0x0500)) (stepNode 2 [255, 255, 255, 255, 255] [255])), _, _, _, _, _, _, by decide, by decide, by decide, rfl, by decide, rfl, rfl, rfl, by decide, rfl, rfl, by decide⟩,
   ⟨(stepper 3 0x0600 [255, 255, 255, 255] [255] [] ([0x30, 0, 0, 0, 1, 2, 0, 0, 0, 0, 0, 0, 16, 0, 8, 0] ++ List.replicate 48 0)), 0, (State.instCtx (stepper 3 0x0600 [255, 255, 255, 255] [255] [] ([0x30, 0, 0, 0, 1, 2, 0, 0, 0, 0, 0, 0, 16, 0, 8, 0] ++ List.replicate 48 0)) 0x0600 (wInst .running (some 0x0600)) (stepNode 3 [255, 255, 255, 255] [255])), _, _, _, by decide, by decide, by decide, by decide, rfl, rfl, rfl, by decide⟩,
   ⟨(stepper 3 0x0600 [255, 0, 255, 255] [255] [lineRing 0 0] ([0x30, 0, 0, 0, 1, 2, 0, 0, 0, 0, 0, 0, 16, 0, 8, 0] ++ List.replicate 48 0)), 0, (State.instCtx (stepper 3 0x0600 [255, 0, 255, 255] [255] [lineRing 0 0] ([0x30, 0, 0, 0, 1, 2, 0, 0, 0, 0, 0, 0, 16, 0, 8, 0] ++ List.replicate 48 0)) 0x0600 (wInst .running (some 0x0600)) (stepNode 3 [255, 0, 255, 255] [255])), _, _, _, _, _, by decide, by decide, by decide, by decide, rfl, rfl, by decide, rfl, by decide, rfl, rfl, by decide⟩,
   ⟨({ stepper 4 0x0700 [255] [0] [lineRing 0 1] ([0x40, 0, 1, 0, 1, 9, 0, 1, 0, 0, 0, 0, 64, 0, 8, 0, 8, 0, 1, 0, 1, 0] ++ List.replicate 42 0) with patterns := [[0]] }), 0, (State.instCtx ({ stepper 4 0x0700 [255] [0] [lineRing 0 1] ([0x40, 0, 1, 0, 1, 9, 0, 1, 0, 0, 0, 0, 64, 0, 8, 0, 8, 0, 1, 0, 1, 0] ++ List.replicate 42 0) with patterns := [[0]] }) 0x0700 (wInst .running (some 0x0700)) (stepNode 4 [255] [0])), _, _, _, _, by decide, by decide, by decide, rfl, by decide, rfl, rfl, rfl, by decide⟩,
   ⟨(stepper 4 0x0700 [255, 255] [0] [lineRing 0 1] ([0x41, 0, 0, 0, 1, 0, 1, 0, 0, 0, 1] ++ List.replicate 53 0)), 0, (State.instCtx (stepper 4 0x0700 [255, 255] [0] [lineRing 0 1] ([0x41, 0, 0, 0, 1, 0, 1, 0, 0, 0, 1] ++ List.replicate 53 0)) 0x0700 (wInst .running (some 0x0700)) (stepNode 4 [255, 255] [0])), _, _, _, by decide, by decide, by decide, by decide, rfl, by decide, rfl, rfl, by decide⟩,
   ⟨(stepper 4 0x0700 [255, 0] [0] [lineRing 0 0] ([0x41, 0, 0, 0, 1, 0, 1, 0, 0, 0, 1] ++ List.replicate 53 0)), 0, (State.instCtx (stepper 4 0x0700 [255, 0] [0] [lineRing 0 0] ([0x41, 0, 0, 0, 1, 0, 1, 0, 0, 0, 1] ++ List.replicate 53 0)) 0x0700 (wInst .running (some 0x0700)) (stepNode 4 [255, 0] [0])), _, _, _, _, _, _, by decide, by decide, by decide, by decide, rfl, by decide, rfl, rfl, by decide, rfl, rfl, rfl, by decide⟩⟩

theorem test_BlockMovers_witness :
    (∃ (s : State) (mover : Fin 8) (c : StepCtx) (u1 : State) (ws : List (Nat × List Byte)) (v : State), s.canonical = true ∧
      stepDue s (0x0900 + mover.val) 0x60 c ∧ bmValid (s.fetched c) c (s.desc c) = true ∧ overlap ((parseBm (s.desc
      c)).srcExtent (s.fetched c) c).1 ((parseBm (s.desc c)).srcExtent (s.fetched c) c).2 ((parseBm (s.desc c)).dstExtent
      (s.fetched c) c).1 ((parseBm (s.desc c)).dstExtent (s.fetched c) c).2 = false ∧ (u1 = ((s.fetched c).fetchRuns c
      ((List.range (parseBm (s.desc c)).srcLines).flatMap (fun l => (parseBm (s.desc c)).srcRuns (s.fetched c) c 0 l))).1) ∧
      (((s.fetched c).fetchRuns c ((List.range (parseBm (s.desc c)).srcLines).flatMap (fun l => (parseBm (s.desc c)).srcRuns
      (s.fetched c) c 0 l))).2 = true) ∧ (ws = ((splitLines (parseBm (s.desc c)).dstLen (parseBm (s.desc c)).dstLines
      ((List.range (parseBm (s.desc c)).srcLines).flatMap (fun l => ((parseBm (s.desc c)).srcRuns (s.fetched c) c 0 l).flatMap
      (fun r => u1.fetch r.1 r.2)))).mapIdx (fun l x => ((parseBm (s.desc c)).dstWrites u1 c 0 l x).1)).flatten) ∧ v =
      (u1.judgeWrites c.issuer ws).1 ∧ (u1.judgeWrites c.issuer ws).2 = none)
    ∧ (∃ (s : State) (mover : Fin 8) (c : StepCtx) (ws : List (Nat × List Byte)) (v : State), s.canonical = true ∧ stepDue s
      (0x0900 + mover.val) 0x61 c ∧ bmValid (s.fetched c) c (s.desc c) = true ∧ (ws = (List.range (parseBm (s.desc
      c)).dstLines).flatMap (fun l => ((parseBm (s.desc c)).dstWrites (s.fetched c) c 0 l (patternLine (parseBm (s.desc
      c)).param (parseBm (s.desc c)).dstLen)).1)) ∧ v = ((s.fetched c).judgeWrites c.issuer ws).1 ∧ ((s.fetched c).judgeWrites
      c.issuer ws).2 = none)
    ∧ (∃ (s : State) (mover : Fin 8) (c : StepCtx) (ws : List (Nat × List Byte)) (v : State), s.canonical = true ∧ stepDue s
      (0x0900 + mover.val) 0x62 c ∧ bmValid (s.fetched c) c (s.desc c) = true ∧ (ws = (List.range (parseBm (s.desc
      c)).dstLines).flatMap (fun l => ((parseBm (s.desc c)).dstWrites (s.fetched c) c 0 l (patternLine (parseBm (s.desc
      c)).param (parseBm (s.desc c)).dstLen)).1)) ∧ v = ((s.fetched c).judgeWrites c.issuer ws).1 ∧ ((s.fetched c).judgeWrites
      c.issuer ws).2 = none)
    ∧ (∃ (s : State) (mover : Fin 8) (c : StepCtx) (u1 : State) (ws : List (Nat × List Byte)) (v : State), s.canonical = true ∧
      stepDue s (0x0900 + mover.val) 0x63 c ∧ bmValid (s.fetched c) c (s.desc c) = true ∧ (u1 = ((s.fetched c).fetchRuns c
      ((List.range (parseBm (s.desc c)).srcLines).flatMap (fun l => (parseBm (s.desc c)).srcRuns (s.fetched c) c 0 l))).1) ∧
      (((s.fetched c).fetchRuns c ((List.range (parseBm (s.desc c)).srcLines).flatMap (fun l => (parseBm (s.desc c)).srcRuns
      (s.fetched c) c 0 l))).2 = true) ∧ (ws = ((splitLines (parseBm (s.desc c)).dstLen (parseBm (s.desc c)).dstLines
      ((List.range (parseBm (s.desc c)).srcLines).flatMap (fun l => ((parseBm (s.desc c)).srcRuns (s.fetched c) c 0 l).flatMap
      (fun r => u1.fetch r.1 r.2)))).mapIdx (fun l x => ((parseBm (s.desc c)).dstWrites u1 c 0 l x).1)).flatten) ∧ v =
      (u1.judgeWrites c.issuer ws).1 ∧ (u1.judgeWrites c.issuer ws).2 = none)
    ∧ (∃ (s : State) (mover : Fin 8) (c : StepCtx) (u1 : State) (planes : List (List (List Byte))) (ws : List (Nat × List Byte))
      (v : State), s.canonical = true ∧ stepDue s (0x0900 + mover.val) 0x64 c ∧ bmValid (s.fetched c) c (s.desc c) = true ∧
      overlap ((parseBm (s.desc c)).srcExtent (s.fetched c) c).1 ((parseBm (s.desc c)).srcExtent (s.fetched c) c).2 ((parseBm
      (s.desc c)).dstExtent (s.fetched c) c).1 ((parseBm (s.desc c)).dstExtent (s.fetched c) c).2 = false ∧ (u1 = ((s.fetched
      c).fetchRuns c ((List.range (parseBm (s.desc c)).srcPlanes).flatMap (fun p => (List.range (parseBm (s.desc
      c)).srcLines).flatMap (fun l => (parseBm (s.desc c)).srcRuns (s.fetched c) c p l)))).1) ∧ (((s.fetched c).fetchRuns c
      ((List.range (parseBm (s.desc c)).srcPlanes).flatMap (fun p => (List.range (parseBm (s.desc c)).srcLines).flatMap (fun l
      => (parseBm (s.desc c)).srcRuns (s.fetched c) c p l)))).2 = true) ∧ (planes = (List.range (parseBm (s.desc
      c)).srcPlanes).map (fun p => (List.range (parseBm (s.desc c)).srcLines).map (fun l => ((parseBm (s.desc c)).srcRuns
      (s.fetched c) c p l).flatMap (fun r => u1.fetch r.1 r.2)))) ∧ (ws = (((parseBm (s.desc c)).reshuffle planes).mapIdx (fun
      p ls => ls.mapIdx (fun l x => ((parseBm (s.desc c)).dstWrites u1 c p l x).1))).flatten.flatten) ∧ v = (u1.judgeWrites
      c.issuer ws).1 ∧ (u1.judgeWrites c.issuer ws).2 = none)
    ∧ (∃ (s : State) (mover : Fin 8) (value : Word), s.canonical = true) :=
  ⟨⟨(stepper 6 0x0900 [] [] [] ([0x60, 0, 0, 0, 0, 0, 0, 0] ++ leBytes 8 4294967808 ++ leBytes 8 4294967552 ++ leBytes 4 8 ++ leBytes 4 0 ++ leBytes 4 1 ++ leBytes 4 8 ++ leBytes 4 0 ++ leBytes 4 1 ++ leBytes 8 0 ++ List.replicate 8 0)), 0, (State.instCtx (stepper 6 0x0900 [] [] [] ([0x60, 0, 0, 0, 0, 0, 0, 0] ++ leBytes 8 4294967808 ++ leBytes 8 4294967552 ++ leBytes 4 8 ++ leBytes 4 0 ++ leBytes 4 1 ++ leBytes 4 8 ++ leBytes 4 0 ++ leBytes 4 1 ++ leBytes 8 0 ++ List.replicate 8 0)) 0x0900 (wInst .running (some 0x0900)) (stepNode 6 [] [])), _, _, _, by decide, by decide, by decide, by decide, rfl, by decide, rfl, rfl, by decide⟩,
   ⟨(stepper 6 0x0900 [] [] [] ([0x61, 0, 0, 0, 0, 0, 0, 0] ++ leBytes 8 0 ++ leBytes 8 4294967552 ++ leBytes 4 0 ++ leBytes 4 0 ++ leBytes 4 0 ++ leBytes 4 8 ++ leBytes 4 0 ++ leBytes 4 1 ++ leBytes 8 17 ++ List.replicate 8 0)), 0, (State.instCtx (stepper 6 0x0900 [] [] [] ([0x61, 0, 0, 0, 0, 0, 0, 0] ++ leBytes 8 0 ++ leBytes 8 4294967552 ++ leBytes 4 0 ++ leBytes 4 0 ++ leBytes 4 0 ++ leBytes 4 8 ++ leBytes 4 0 ++ leBytes 4 1 ++ leBytes 8 17 ++ List.replicate 8 0)) 0x0900 (wInst .running (some 0x0900)) (stepNode 6 [] [])), _, _, by decide, by decide, by decide, rfl, rfl, by decide⟩,
   ⟨(((stepper 6 0x0900 [] [] [] ([0x62, 0, 0, 0, 0, 0, 0, 0] ++ leBytes 8 0 ++ leBytes 8 5368709120 ++ leBytes 4 0 ++ leBytes 4 0 ++ leBytes 4 0 ++ leBytes 4 64 ++ leBytes 4 0 ++ leBytes 4 1 ++ leBytes 8 17 ++ List.replicate 8 0)).setReg (Reg.NT_CRED_CTRL 0 0) 0x81000400).setReg (Reg.NT_CRED_WIN 0 0) 0x00800000), 0, (State.instCtx (stepper 6 0x0900 [] [] [] ([0x62, 0, 0, 0, 0, 0, 0, 0] ++ leBytes 8 0 ++ leBytes 8 5368709120 ++ leBytes 4 0 ++ leBytes 4 0 ++ leBytes 4 0 ++ leBytes 4 64 ++ leBytes 4 0 ++ leBytes 4 1 ++ leBytes 8 17 ++ List.replicate 8 0)) 0x0900 (wInst .running (some 0x0900)) (stepNode 6 [] [])), _, _, by decide, by decide, by decide, rfl, rfl, by decide⟩,
   ⟨(((stepper 6 0x0900 [] [] [] ([0x63, 0, 0, 0, 0, 0, 0, 0] ++ leBytes 8 5368709120 ++ leBytes 8 5368709184 ++ leBytes 4 64 ++ leBytes 4 0 ++ leBytes 4 1 ++ leBytes 4 64 ++ leBytes 4 0 ++ leBytes 4 1 ++ leBytes 8 0 ++ List.replicate 8 0)).setReg (Reg.NT_CRED_CTRL 0 0) 0x81000400).setReg (Reg.NT_CRED_WIN 0 0) 0x00800000), 0, (State.instCtx (stepper 6 0x0900 [] [] [] ([0x63, 0, 0, 0, 0, 0, 0, 0] ++ leBytes 8 5368709120 ++ leBytes 8 5368709184 ++ leBytes 4 64 ++ leBytes 4 0 ++ leBytes 4 1 ++ leBytes 4 64 ++ leBytes 4 0 ++ leBytes 4 1 ++ leBytes 8 0 ++ List.replicate 8 0)) 0x0900 (wInst .running (some 0x0900)) (stepNode 6 [] [])), _, _, _, by decide, by decide, by decide, rfl, by decide, rfl, rfl, by decide⟩,
   ⟨(stepper 6 0x0900 [] [] [] ([0x64, 0, 0, 0, 0, 1, 0, 0] ++ leBytes 8 4294967808 ++ leBytes 8 4294967552 ++ leBytes 4 8 ++ leBytes 4 0 ++ leBytes 4 1 ++ leBytes 4 4 ++ leBytes 4 4 ++ leBytes 4 1 ++ leBytes 8 8589934656 ++ List.replicate 8 0)), 0, (State.instCtx (stepper 6 0x0900 [] [] [] ([0x64, 0, 0, 0, 0, 1, 0, 0] ++ leBytes 8 4294967808 ++ leBytes 8 4294967552 ++ leBytes 4 8 ++ leBytes 4 0 ++ leBytes 4 1 ++ leBytes 4 4 ++ leBytes 4 4 ++ leBytes 4 1 ++ leBytes 8 8589934656 ++ List.replicate 8 0)) 0x0900 (wInst .running (some 0x0900)) (stepNode 6 [] [])), _, _, _, _, by decide, by decide, by decide, by decide, rfl, by decide, rfl, rfl, rfl, by decide⟩,
   ⟨((up 11).setFlag (Reg.BM_FAULT_HI 0) F.BM_FAULT_HI.VALID true), 0, 1, by decide⟩⟩

theorem test_StepFaults_witness :
    (∃ (s : State) (inst : Fin 4) (c : StepCtx) (op : Nat), s.canonical = true ∧ stepDue s (0x0300 + inst.val) op c ∧ warpValid
      s c (s.desc c) = false ∧ warpValid (s.fetched c) c (s.desc c) = false)
    ∧ (∃ (s : State) (inst : Fin 4) (c : StepCtx), s.canonical = true ∧ s.ctx? (0x0300 + inst.val) = some c ∧ leAt (s.desc c) 0 1
      = 1)
    ∧ (∃ (s : State) (inst : Fin 4) (c : StepCtx), s.canonical = true ∧ s.ctx? (0x0300 + inst.val) = some c ∧ leAt (s.desc c) 0 1
      = 2)
    ∧ (∃ (s : State) (inst : Fin 4) (c : StepCtx), s.canonical = true ∧ s.ctx? (0x0300 + inst.val) = some c ∧ leAt (s.desc c) 0 1
      = 3)
    ∧ (∃ (s : State) (inst : Fin 4) (c : StepCtx), s.canonical = true ∧ s.ctx? (0x0300 + inst.val) = some c ∧ leAt (s.desc c) 0 1
      = 4)
    ∧ (∃ (s : State) (inst : Fin 4) (c : StepCtx) (op : Nat), s.canonical = true ∧ stepDue s (0x0400 + inst.val) op c ∧ pyrValid
      s c (s.desc c) = false ∧ pyrValid (s.fetched c) c (s.desc c) = false)
    ∧ (∃ (s : State) (inst : Fin 4) (c : StepCtx), s.canonical = true ∧ s.ctx? (0x0400 + inst.val) = some c ∧ leAt (s.desc c) 0 1
      = 0x10)
    ∧ (∃ (s : State) (inst : Fin 4) (c : StepCtx) (op : Nat), s.canonical = true ∧ stepDue s (0x0500 + inst.val) op c ∧ strValid
      s c (s.desc c) = false ∧ strValid (s.fetched c) c (s.desc c) = false)
    ∧ (∃ (s : State) (inst : Fin 4) (c : StepCtx), s.canonical = true ∧ s.ctx? (0x0500 + inst.val) = some c ∧ leAt (s.desc c) 0 1
      = 0x20)
    ∧ (∃ (s : State) (inst : Fin 4) (c : StepCtx) (op : Nat), s.canonical = true ∧ stepDue s (0x0600 + inst.val) op c ∧ flwValid
      s c (s.desc c) = false ∧ flwValid (s.fetched c) c (s.desc c) = false)
    ∧ (∃ (s : State) (inst : Fin 4) (c : StepCtx), s.canonical = true ∧ s.ctx? (0x0600 + inst.val) = some c ∧ leAt (s.desc c) 0 1
      = 0x30)
    ∧ (∃ (s : State) (inst : Fin 4) (c : StepCtx), s.canonical = true ∧ s.ctx? (0x0700 + inst.val) = some c ∧ leAt (s.desc c) 0 1
      = 0x40)
    ∧ (∃ (s : State) (inst : Fin 4) (c : StepCtx), s.canonical = true ∧ s.ctx? (0x0700 + inst.val) = some c ∧ leAt (s.desc c) 0 1
      = 0x41)
    ∧ (∃ (s : State) (inst : Fin 4) (c : StepCtx) (op : Nat), s.canonical = true ∧ stepDue s (0x0700 + inst.val) op c ∧ op ≠ 0x41
      ∧ (op == 0x40 && ftrValid s c (s.desc c)) = false ∧ (op == 0x40 && ftrValid (s.fetched c) c (s.desc c)) = false)
    ∧ (∃ (s : State) (inst : Fin 4) (c : StepCtx) (op : Nat), s.canonical = true ∧ stepDue s (0x0700 + inst.val) op c ∧ op = 0x41
      ∧ matchValid (s.desc c) = false)
    ∧ (∃ (s : State) (mover : Fin 8) (c : StepCtx) (op : Nat), s.canonical = true ∧ stepDue s (0x0900 + mover.val) op c ∧ bmValid
      s c (s.desc c) = false ∧ bmValid (s.fetched c) c (s.desc c) = false)
    ∧ (∃ (s : State) (mover : Fin 8) (c : StepCtx) (a : Nat) (w : Bool), s.canonical = true ∧ s.ctx? (0x0900 + mover.val) = some
      c ∧ leAt (s.desc c) 0 1 = 0x60)
    ∧ (∃ (s : State) (mover : Fin 8) (c : StepCtx) (a : Nat) (w : Bool), s.canonical = true ∧ s.ctx? (0x0900 + mover.val) = some
      c ∧ leAt (s.desc c) 0 1 = 0x61)
    ∧ (∃ (s : State) (mover : Fin 8) (c : StepCtx) (a : Nat) (w : Bool), s.canonical = true ∧ s.ctx? (0x0900 + mover.val) = some
      c ∧ leAt (s.desc c) 0 1 = 0x62)
    ∧ (∃ (s : State) (mover : Fin 8) (c : StepCtx) (a : Nat) (w : Bool), s.canonical = true ∧ s.ctx? (0x0900 + mover.val) = some
      c ∧ leAt (s.desc c) 0 1 = 0x63)
    ∧ (∃ (s : State) (mover : Fin 8) (c : StepCtx) (a : Nat) (w : Bool), s.canonical = true ∧ s.ctx? (0x0900 + mover.val) = some
      c ∧ leAt (s.desc c) 0 1 = 0x64) :=
  ⟨⟨(stepper 0 0x0300 [] [] [] ([0xFE] ++ List.replicate 63 0)), 0, (State.instCtx (stepper 0 0x0300 [] [] [] ([0xFE] ++ List.replicate 63 0)) 0x0300 (wInst .running (some 0x0300)) (stepNode 0 [] [])), 0xFE, by decide, by decide, by decide, by decide⟩,
   ⟨(stepper 0 0x0300 [] [] [] ([1] ++ List.replicate 63 0)), 0, (State.instCtx (stepper 0 0x0300 [] [] [] ([1] ++ List.replicate 63 0)) 0x0300 (wInst .running (some 0x0300)) (stepNode 0 [] [])), by decide, by decide, by decide⟩,
   ⟨(stepper 0 0x0300 [] [] [] ([2] ++ List.replicate 63 0)), 0, (State.instCtx (stepper 0 0x0300 [] [] [] ([2] ++ List.replicate 63 0)) 0x0300 (wInst .running (some 0x0300)) (stepNode 0 [] [])), by decide, by decide, by decide⟩,
   ⟨(stepper 0 0x0300 [] [] [] ([3] ++ List.replicate 63 0)), 0, (State.instCtx (stepper 0 0x0300 [] [] [] ([3] ++ List.replicate 63 0)) 0x0300 (wInst .running (some 0x0300)) (stepNode 0 [] [])), by decide, by decide, by decide⟩,
   ⟨(stepper 0 0x0300 [] [] [] ([4] ++ List.replicate 63 0)), 0, (State.instCtx (stepper 0 0x0300 [] [] [] ([4] ++ List.replicate 63 0)) 0x0300 (wInst .running (some 0x0300)) (stepNode 0 [] [])), by decide, by decide, by decide⟩,
   ⟨(stepper 1 0x0400 [] [] [] ([0xFE] ++ List.replicate 63 0)), 0, (State.instCtx (stepper 1 0x0400 [] [] [] ([0xFE] ++ List.replicate 63 0)) 0x0400 (wInst .running (some 0x0400)) (stepNode 1 [] [])), 0xFE, by decide, by decide, by decide, by decide⟩,
   ⟨(stepper 1 0x0400 [] [] [] ([0x10] ++ List.replicate 63 0)), 0, (State.instCtx (stepper 1 0x0400 [] [] [] ([0x10] ++ List.replicate 63 0)) 0x0400 (wInst .running (some 0x0400)) (stepNode 1 [] [])), by decide, by decide, by decide⟩,
   ⟨(stepper 2 0x0500 [] [] [] ([0xFE] ++ List.replicate 63 0)), 0, (State.instCtx (stepper 2 0x0500 [] [] [] ([0xFE] ++ List.replicate 63 0)) 0x0500 (wInst .running (some 0x0500)) (stepNode 2 [] [])), 0xFE, by decide, by decide, by decide, by decide⟩,
   ⟨(stepper 2 0x0500 [] [] [] ([0x20] ++ List.replicate 63 0)), 0, (State.instCtx (stepper 2 0x0500 [] [] [] ([0x20] ++ List.replicate 63 0)) 0x0500 (wInst .running (some 0x0500)) (stepNode 2 [] [])), by decide, by decide, by decide⟩,
   ⟨(stepper 3 0x0600 [] [] [] ([0xFE] ++ List.replicate 63 0)), 0, (State.instCtx (stepper 3 0x0600 [] [] [] ([0xFE] ++ List.replicate 63 0)) 0x0600 (wInst .running (some 0x0600)) (stepNode 3 [] [])), 0xFE, by decide, by decide, by decide, by decide⟩,
   ⟨(stepper 3 0x0600 [] [] [] ([0x30] ++ List.replicate 63 0)), 0, (State.instCtx (stepper 3 0x0600 [] [] [] ([0x30] ++ List.replicate 63 0)) 0x0600 (wInst .running (some 0x0600)) (stepNode 3 [] [])), by decide, by decide, by decide⟩,
   ⟨(stepper 4 0x0700 [] [] [] ([0x40] ++ List.replicate 63 0)), 0, (State.instCtx (stepper 4 0x0700 [] [] [] ([0x40] ++ List.replicate 63 0)) 0x0700 (wInst .running (some 0x0700)) (stepNode 4 [] [])), by decide, by decide, by decide⟩,
   ⟨(stepper 4 0x0700 [] [] [] ([0x41] ++ List.replicate 63 0)), 0, (State.instCtx (stepper 4 0x0700 [] [] [] ([0x41] ++ List.replicate 63 0)) 0x0700 (wInst .running (some 0x0700)) (stepNode 4 [] [])), by decide, by decide, by decide⟩,
   ⟨(stepper 4 0x0700 [] [] [] ([0x40] ++ List.replicate 63 0)), 0, (State.instCtx (stepper 4 0x0700 [] [] [] ([0x40] ++ List.replicate 63 0)) 0x0700 (wInst .running (some 0x0700)) (stepNode 4 [] [])), 0x40, by decide, by decide, by decide, by decide, by decide⟩,
   ⟨(stepper 4 0x0700 [] [] [] ([0x41] ++ List.replicate 63 0)), 0, (State.instCtx (stepper 4 0x0700 [] [] [] ([0x41] ++ List.replicate 63 0)) 0x0700 (wInst .running (some 0x0700)) (stepNode 4 [] [])), 0x41, by decide, by decide, by decide, by decide⟩,
   ⟨(stepper 6 0x0900 [] [] [] ([0xFE] ++ List.replicate 63 0)), 0, (State.instCtx (stepper 6 0x0900 [] [] [] ([0xFE] ++ List.replicate 63 0)) 0x0900 (wInst .running (some 0x0900)) (stepNode 6 [] [])), 0xFE, by decide, by decide, by decide, by decide⟩,
   ⟨(stepper 6 0x0900 [] [] [] ([0x60] ++ List.replicate 63 0)), 0, (State.instCtx (stepper 6 0x0900 [] [] [] ([0x60] ++ List.replicate 63 0)) 0x0900 (wInst .running (some 0x0900)) (stepNode 6 [] [])), 0x100000040, true, by decide, by decide, by decide⟩,
   ⟨(stepper 6 0x0900 [] [] [] ([0x61] ++ List.replicate 63 0)), 0, (State.instCtx (stepper 6 0x0900 [] [] [] ([0x61] ++ List.replicate 63 0)) 0x0900 (wInst .running (some 0x0900)) (stepNode 6 [] [])), 0x100000040, true, by decide, by decide, by decide⟩,
   ⟨(stepper 6 0x0900 [] [] [] ([0x62] ++ List.replicate 63 0)), 0, (State.instCtx (stepper 6 0x0900 [] [] [] ([0x62] ++ List.replicate 63 0)) 0x0900 (wInst .running (some 0x0900)) (stepNode 6 [] [])), 0x100000040, true, by decide, by decide, by decide⟩,
   ⟨(stepper 6 0x0900 [] [] [] ([0x63] ++ List.replicate 63 0)), 0, (State.instCtx (stepper 6 0x0900 [] [] [] ([0x63] ++ List.replicate 63 0)) 0x0900 (wInst .running (some 0x0900)) (stepNode 6 [] [])), 0x100000040, true, by decide, by decide, by decide⟩,
   ⟨(stepper 6 0x0900 [] [] [] ([0x64] ++ List.replicate 63 0)), 0, (State.instCtx (stepper 6 0x0900 [] [] [] ([0x64] ++ List.replicate 63 0)) 0x0900 (wInst .running (some 0x0900)) (stepNode 6 [] [])), 0x100000040, true, by decide, by decide, by decide⟩⟩

theorem test_NeuralOperations_witness :
    (∃ (s : State) (tile : Fin 16) (c : StepCtx) (d : List Byte) (o : Td) (a : Opnd) (b : Opnd) (k : Opnd) (out : NtOut),
      s.ctx? (0x0800 + tile.val) = some c ∧ (s.ntPhase tile.val).1 = 4 ∧ (s.nt tile.val).computed = false ∧ leAt (s.nt
      tile.val).desc 0 1 = 0x50 ∧ d = (s.nt tile.val).desc ∧ o = parseTd ((s.nt tile.val).tds.getD 3 []) ∧ a = s.ntOperand c 0
      ∧ (b = if usesB d then s.ntOperand c 1 else (⟨0x47, [1, 1, 1, 1, 1], #[], #[]⟩ : Opnd)) ∧ (k = if usesC d then
      s.ntOperand c 2 else (⟨0x47, [1, 1, 1, 1, 1], #[], #[]⟩ : Opnd)) ∧ (out = macAll (s.nt tile.val) o.dims a b k (fun l =>
      chunk 32 ((List.range (a.dims.getD 0 1)).map (fun i => (some (i :: l.drop 1), i :: l.getD 0 0 :: (List.range 3).map (fun
      q => if b.dims.getD (q + 2) 1 == 1 then 0 else l.getD (q + 2) 0)))))))
    ∧ (∃ (s : State) (tile : Fin 16) (c : StepCtx) (d : List Byte) (o : Td) (a : Opnd) (b : Opnd) (k : Opnd) (taps : List Nat →
      List (List (Option (List Nat) × List Nat))) (out : NtOut), s.ctx? (0x0800 + tile.val) = some c ∧ (s.ntPhase tile.val).1 =
      4 ∧ (s.nt tile.val).computed = false ∧ leAt (s.nt tile.val).desc 0 1 = 0x51 ∧ d = (s.nt tile.val).desc ∧ o = parseTd
      ((s.nt tile.val).tds.getD 3 []) ∧ a = s.ntOperand c 0 ∧ (b = if usesB d then s.ntOperand c 1 else (⟨0x47, [1, 1, 1, 1,
      1], #[], #[]⟩ : Opnd)) ∧ (k = if usesC d then s.ntOperand c 2 else (⟨0x47, [1, 1, 1, 1, 1], #[], #[]⟩ : Opnd)) ∧ (taps =
      fun l => (List.range (b.dims.getD 2 1)).flatMap (fun ky => (List.range (b.dims.getD 1 1)).map (fun kx => (List.range
      (b.dims.getD 0 1)).map (fun ci => (((tapPos (parseConv d).transposed (l.getD 1 0) (parseConv d).padL kx (parseConv d).sx
      (parseConv d).dx (a.dims.getD 1 1)).bind (fun x => (tapPos (parseConv d).transposed (l.getD 2 0) (parseConv d).padT ky
      (parseConv d).sy (parseConv d).dy (a.dims.getD 2 1)).map (fun y => [l.getD 0 0 / max 1 (b.dims.getD 3 1 / max 1
      (parseConv d).groups) * b.dims.getD 0 1 + ci, x, y, l.getD 3 0, 0]))), [ci, kx, ky, l.getD 0 0, 0]))))) ∧ (out = macAll
      (s.nt tile.val) o.dims a b k (fun l => if nfMx a.f then (taps l).flatMap (chunk 32) else chunk 32 (taps l).flatten)))
    ∧ (∃ (s : State) (tile : Fin 16) (c : StepCtx) (d : List Byte) (o : Td) (a : Opnd) (b : Opnd) (k : Opnd) (rows : List
      AttnRow) (out : NtOut), s.ctx? (0x0800 + tile.val) = some c ∧ (s.ntPhase tile.val).1 = 4 ∧ (s.nt tile.val).computed =
      false ∧ leAt (s.nt tile.val).desc 0 1 = 0x52 ∧ d = (s.nt tile.val).desc ∧ o = parseTd ((s.nt tile.val).tds.getD 3 []) ∧ a
      = s.ntOperand c 0 ∧ (b = if usesB d then s.ntOperand c 1 else (⟨0x47, [1, 1, 1, 1, 1], #[], #[]⟩ : Opnd)) ∧ (k = if usesC
      d then s.ntOperand c 2 else (⟨0x47, [1, 1, 1, 1, 1], #[], #[]⟩ : Opnd)) ∧ (rows = (coordsOf (o.dims.drop 1)).map (fun l
      => (List.range (ceilDiv (b.dims.getD 1 1) 128)).foldl (fun r j => attnBlock d a b k (l.getD 0 0) (l.getD 1 0) (l.getD 2
      0) (128 * j) (min 128 (b.dims.getD 1 1 - 128 * j)) r) ⟨none, Fp.zero, List.replicate (a.dims.getD 0 1) Fp.zero, 0⟩)) ∧
      (out = ⟨[fpRes o.dims (rows.flatMap (fun r => if r.m.isNone then List.replicate (a.dims.getD 0 1) Fp.zero else r.o.map
      (fun x => f32quot x r.l)))], 0, (rows.map (fun r => r.odd + (if r.m.isNone then 1 else 0))).foldl (· + ·) 0, 0⟩))
    ∧ (∃ (s : State) (tile : Fin 16) (c : StepCtx) (d : List Byte) (o : Td) (a : Opnd) (b : Opnd) (out : NtOut), s.ctx? (0x0800 +
      tile.val) = some c ∧ (s.ntPhase tile.val).1 = 4 ∧ (s.nt tile.val).computed = false ∧ leAt (s.nt tile.val).desc 0 1 = 0x53
      ∧ d = (s.nt tile.val).desc ∧ o = parseTd ((s.nt tile.val).tds.getD 3 []) ∧ a = s.ntOperand c 0 ∧ (b = if usesB d then
      s.ntOperand c 1 else (⟨0x47, [1, 1, 1, 1, 1], #[], #[]⟩ : Opnd)) ∧ (out = if nfInt a.f && !(leAt d 0x2E 1 == 1) && nfInt
      b.f && nfInt o.format && leAt d 0x29 1 != 3 then NtOut.plain [intRes o.dims ((coordsOf o.dims).map (fun l => eopInt (leAt
      d 0x29 1) (a.int l) (b.int (l.mapIdx (fun q i => if b.dims.getD q 1 == 1 then 0 else i)))))] else NtOut.plain [fpRes
      o.dims ((coordsOf o.dims).map (fun l => eopFp (leAt d 0x29 1) (fp32.round (a.fp l)) (if leAt d 0x2E 1 == 1 then
      fp32.decode (leAt d 0x2A 4) else fp32.round (b.fp (l.mapIdx (fun q i => if b.dims.getD q 1 == 1 then 0 else i))))))]))
    ∧ (∃ (s : State) (tile : Fin 16) (c : StepCtx) (d : List Byte) (o : Td) (a : Opnd) (items : List (List (Nat × List Nat)))
      (sums : List (Int × Bool)) (out : NtOut), s.ctx? (0x0800 + tile.val) = some c ∧ (s.ntPhase tile.val).1 = 4 ∧ (s.nt
      tile.val).computed = false ∧ leAt (s.nt tile.val).desc 0 1 = 0x54 ∧ d = (s.nt tile.val).desc ∧ o = parseTd ((s.nt
      tile.val).tds.getD 3 []) ∧ a = s.ntOperand c 0 ∧ items = ((coordsOf o.dims).map (reduceItems d a.dims)) ∧ (sums =
      items.map (fun l => l.foldl (fun x p => satAdd x (a.int p.2)) (0, false))) ∧ (out = if leAt d 0x29 1 = 0 then (if nfInt
      a.f && nfInt o.format then ⟨[intRes o.dims (sums.map (·.1))], (sums.filter (·.2)).length, 0, 0⟩ else NtOut.plain [fpRes
      o.dims ((items.map (fun l => l.map (fun p => (p.1, fp32.round (a.fp p.2))))).map (fun l => (l.foldl (fun x p => f32add x
      p.2) Fp.zero)))]) else if leAt d 0x29 1 = 1 then NtOut.plain [fpRes o.dims ((items.map (fun l => l.map (fun p => (p.1,
      fp32.round (a.fp p.2))))).map (fun l => f32div (l.foldl (fun x p => f32add x p.2) Fp.zero) (Fp.ofNat l.length)))] else if
      leAt d 0x29 1 = 4 then NtOut.plain [intRes o.dims ((items.map (fun l => l.map (fun p => (p.1, a.fp p.2)))).map (argBest
      true))] else if leAt d 0x29 1 = 5 then NtOut.plain [intRes o.dims ((items.map (fun l => l.map (fun p => (p.1, a.fp
      p.2)))).map (argBest false))] else if nfInt a.f then NtOut.plain [intRes o.dims (items.map (fun l => ((l.map (fun p =>
      a.int p.2)).head?.map (fun x => (l.map (fun p => a.int p.2)).tail.foldl (if leAt d 0x29 1 == 2 then max else min)
      x)).getD (signed 32 (Config.emptyWindow (leAt d 0x29 1 == 2)).toNat)))] else NtOut.plain [fpRes o.dims ((items.map (fun l
      => l.map (fun p => (p.1, fp32.round (a.fp p.2))))).map (fun l => ((l.map (·.2)).head?.map (fun x => (l.map
      (·.2)).tail.foldl (f32minMax (leAt d 0x29 1 == 2)) x)).getD (fp32.decode (Config.emptyWindow (leAt d 0x29 1 ==
      2)).toNat)))]))
    ∧ (∃ (s : State) (tile : Fin 16) (c : StepCtx) (d : List Byte) (o : Td) (a : Opnd) (b : Opnd) (out : NtOut), s.ctx? (0x0800 +
      tile.val) = some c ∧ (s.ntPhase tile.val).1 = 4 ∧ (s.nt tile.val).computed = false ∧ leAt (s.nt tile.val).desc 0 1 = 0x55
      ∧ d = (s.nt tile.val).desc ∧ o = parseTd ((s.nt tile.val).tds.getD 3 []) ∧ a = s.ntOperand c 0 ∧ (b = if usesB d then
      s.ntOperand c 1 else (⟨0x47, [1, 1, 1, 1, 1], #[], #[]⟩ : Opnd)) ∧ (out = NtOut.plain [fpRes o.dims ((coordsOf
      (o.dims.drop 1)).flatMap (fun l => normLine d b ((List.range (o.dims.getD 0 1)).map (fun i => fp32.round (a.fp (i ::
      l))))))]))
    ∧ (∃ (s : State) (tile : Fin 16) (c : StepCtx) (d : List Byte) (o : Td) (a : Opnd) (b : Opnd) (src : List (Option Nat)) (out
      : NtOut), s.ctx? (0x0800 + tile.val) = some c ∧ (s.ntPhase tile.val).1 = 4 ∧ (s.nt tile.val).computed = false ∧ leAt
      (s.nt tile.val).desc 0 1 = 0x56 ∧ d = (s.nt tile.val).desc ∧ o = parseTd ((s.nt tile.val).tds.getD 3 []) ∧ a =
      s.ntOperand c 0 ∧ (b = if usesB d then s.ntOperand c 1 else (⟨0x47, [1, 1, 1, 1, 1], #[], #[]⟩ : Opnd)) ∧ (src =
      ((coordsOf o.dims).map (fun l => (indexAt b a.dims (leAt d 0x29 1) (l.getD (leAt d 0x29 1) 0)).map (fun p => lin a.dims
      (selectAt l (leAt d 0x29 1) p))))) ∧ (out = ⟨[⟨o.dims, 2, src.map (fun p => (p.map (fun i => a.els.getD i 0)).getD 0),
      src.map (fun p => (p.map (fun i => a.scales.getD i 0)).getD 0)⟩], 0, 0, idxCount b a.dims (leAt d 0x29 1)⟩))
    ∧ (∃ (s : State) (tile : Fin 16) (c : StepCtx) (d : List Byte) (o : Td) (a : Opnd) (b : Opnd) (k : Opnd) (cells : Array (Nat
      × Bool × Nat)) (out : NtOut), s.ctx? (0x0800 + tile.val) = some c ∧ (s.ntPhase tile.val).1 = 4 ∧ (s.nt tile.val).computed
      = false ∧ leAt (s.nt tile.val).desc 0 1 = 0x57 ∧ d = (s.nt tile.val).desc ∧ o = parseTd ((s.nt tile.val).tds.getD 3 []) ∧
      a = s.ntOperand c 0 ∧ (b = if usesB d then s.ntOperand c 1 else (⟨0x47, [1, 1, 1, 1, 1], #[], #[]⟩ : Opnd)) ∧ (k = if
      usesC d then s.ntOperand c 2 else (⟨0x47, [1, 1, 1, 1, 1], #[], #[]⟩ : Opnd)) ∧ (cells = (List.range (volume
      a.dims)).foldl (fun (r : Array (Nat × Bool × Nat)) i => ((indexAt b k.dims (leAt d 0x29 1) ((unlin a.dims i).getD (leAt d
      0x29 1) 0)).map (fun p => r.setIfInBounds (lin k.dims (selectAt (unlin a.dims i) (leAt d 0x29 1) p)) ((scatterOne k.f
      (leAt d 0x2A 1) ((r.getD (lin k.dims (selectAt (unlin a.dims i) (leAt d 0x29 1) p)) (0, false, 0)).1, (r.getD (lin k.dims
      (selectAt (unlin a.dims i) (leAt d 0x29 1) p)) (0, false, 0)).2.1) (a.els.getD i 0)).1, (scatterOne k.f (leAt d 0x2A 1)
      ((r.getD (lin k.dims (selectAt (unlin a.dims i) (leAt d 0x29 1) p)) (0, false, 0)).1, (r.getD (lin k.dims (selectAt
      (unlin a.dims i) (leAt d 0x29 1) p)) (0, false, 0)).2.1) (a.els.getD i 0)).2, if leAt d 0x2A 1 == 3 then a.scales.getD i
      0 else (r.getD (lin k.dims (selectAt (unlin a.dims i) (leAt d 0x29 1) p)) (0, false, 0)).2.2))).getD r) ((List.range
      (volume k.dims)).map (fun i => (k.els.getD i 0, false, k.scales.getD i 0))).toArray) ∧ (out = ⟨[⟨o.dims, 2,
      cells.toList.map (·.1), cells.toList.map (fun x => x.2.2)⟩], (cells.toList.filter (fun x => x.2.1)).length, 0, idxCount b
      k.dims (leAt d 0x29 1)⟩))
    ∧ (∃ (s : State) (tile : Fin 16) (c : StepCtx) (d : List Byte) (o : Td) (a : Opnd) (b : Opnd) (out : NtOut), s.ctx? (0x0800 +
      tile.val) = some c ∧ (s.ntPhase tile.val).1 = 4 ∧ (s.nt tile.val).computed = false ∧ leAt (s.nt tile.val).desc 0 1 = 0x58
      ∧ d = (s.nt tile.val).desc ∧ o = parseTd ((s.nt tile.val).tds.getD 3 []) ∧ a = s.ntOperand c 0 ∧ (b = if usesB d then
      s.ntOperand c 1 else (⟨0x47, [1, 1, 1, 1, 1], #[], #[]⟩ : Opnd)) ∧ (out = ⟨[fpRes o.dims ((coordsOf o.dims).map (fun l =>
      ((samplePos d a b (l.getD 1 0) (l.getD 2 0) (l.getD 0 0 % (max 1 (leAt d 0x2B 1)))).map (sampleAt d a (l.getD 0 0 / max 1
      (leAt d 0x2B 1)))).getD Fp.zero))], 0, ((coordsOf [1, o.dims.getD 1 1, o.dims.getD 2 1]).filter (fun l => (List.range
      (max 1 (leAt d 0x2B 1))).any (fun q => (samplePos d a b (l.getD 1 0) (l.getD 2 0) q).isNone))).length, 0⟩))
    ∧ (∃ (s : State) (tile : Fin 16) (c : StepCtx) (o : Td) (a : Opnd) (out : NtOut), s.ctx? (0x0800 + tile.val) = some c ∧
      (s.ntPhase tile.val).1 = 4 ∧ (s.nt tile.val).computed = false ∧ leAt (s.nt tile.val).desc 0 1 = 0x59 ∧ o = parseTd ((s.nt
      tile.val).tds.getD 3 []) ∧ a = s.ntOperand c 0 ∧ out = NtOut.plain [⟨o.dims, 2, a.els.toList, a.scales.toList⟩])
    ∧ (∃ (s : State) (tile : Fin 16) (c : StepCtx) (d : List Byte) (o : Td) (a : Opnd) (best : List (Nat × List Nat × Fp)) (out :
      NtOut), s.ctx? (0x0800 + tile.val) = some c ∧ (s.ntPhase tile.val).1 = 4 ∧ (s.nt tile.val).computed = false ∧ leAt (s.nt
      tile.val).desc 0 1 = 0x5A ∧ d = (s.nt tile.val).desc ∧ o = parseTd ((s.nt tile.val).tds.getD 3 []) ∧ a = s.ntOperand c 0
      ∧ (best = (coordsOf (a.dims.drop 1)).flatMap (fun l => ((((List.range (a.dims.getD 0 1)).map (fun i => (i, a.fp (i ::
      l)))).foldr (insertRank (topkBefore (leAt d 0x29 1 == 1))) []).take (leAt d 0x2A 2)).map (fun p => (p.1, l, p.2)))) ∧
      (out = NtOut.plain [if nfInt a.f then intRes o.dims (best.map (fun p => a.int (p.1 :: p.2.1))) else fpRes o.dims
      (best.map (fun p => fp32.round p.2.2)), intRes o.dims (best.map (fun p => (p.1 : Int)))]))
    ∧ (∃ (s : State) (tile : Fin 16) (c : StepCtx) (d : List Byte) (o : Td) (a : Opnd) (b : Opnd) (order : List (Nat × Fp)) (kept
      : List Nat) (out : NtOut), s.ctx? (0x0800 + tile.val) = some c ∧ (s.ntPhase tile.val).1 = 4 ∧ (s.nt tile.val).computed =
      false ∧ leAt (s.nt tile.val).desc 0 1 = 0x5B ∧ d = (s.nt tile.val).desc ∧ o = parseTd ((s.nt tile.val).tds.getD 3 []) ∧ a
      = s.ntOperand c 0 ∧ (b = if usesB d then s.ntOperand c 1 else (⟨0x47, [1, 1, 1, 1, 1], #[], #[]⟩ : Opnd)) ∧ (order =
      (((List.range (b.dims.getD 0 1)).map (fun i => (i, fp32.round (b.fp [i, 0, 0, 0, 0])))).filter (fun p => !p.2.lt
      (fp32.decode (leAt d 0x32 4)))).foldr (insertRank (topkBefore true)) []) ∧ (kept = order.foldl (fun (l : List Nat) p =>
      if decide (l.length < leAt d 0x2E 2) && l.all (fun i => Fp.le (iou ((List.range 4).map (fun q => fp32.round (a.fp [q,
      p.1, 0, 0, 0]))) ((List.range 4).map (fun q => fp32.round (a.fp [q, i, 0, 0, 0])))) (fp32.decode (leAt d 0x2A 4))) then l
      ++ [p.1] else l) []) ∧ (out = NtOut.plain [intRes o.dims (kept.map (fun (i : Nat) => (i : Int)) ++ List.replicate (leAt d
      0x2E 2 - kept.length) (-1))]))
    ∧ (∃ (s : State) (tile : Fin 16) (c : StepCtx) (o : Td) (a : Opnd) (out : NtOut), s.ctx? (0x0800 + tile.val) = some c ∧
      (s.ntPhase tile.val).1 = 4 ∧ (s.nt tile.val).computed = false ∧ leAt (s.nt tile.val).desc 0 1 = 0x5C ∧ o = parseTd ((s.nt
      tile.val).tds.getD 3 []) ∧ a = s.ntOperand c 0 ∧ (out = NtOut.plain [fpRes o.dims ((coordsOf o.dims).map (fun l =>
      lutApply (s.nt tile.val).lut (fp32.round (a.fp l))))])) :=
  ⟨⟨(tiling (tileIn 4 false [0x50]) ([0x50] ++ List.replicate 63 0)), 0, (State.instCtx (tiling (tileIn 4 false [0x50]) ([0x50] ++ List.replicate 63 0)) 0x0800 (wInst .running (some 0x0800)) (stepNode 5 [] [])), _, _, _, _, _, _, by decide, by decide, by decide, by decide, rfl, rfl, rfl, rfl, rfl, rfl⟩,
   ⟨(tiling (tileIn 4 false [0x51]) ([0x51] ++ List.replicate 63 0)), 0, (State.instCtx (tiling (tileIn 4 false [0x51]) ([0x51] ++ List.replicate 63 0)) 0x0800 (wInst .running (some 0x0800)) (stepNode 5 [] [])), _, _, _, _, _, _, _, by decide, by decide, by decide, by decide, rfl, rfl, rfl, rfl, rfl, rfl, rfl⟩,
   ⟨(tiling (tileIn 4 false [0x52]) ([0x52] ++ List.replicate 63 0)), 0, (State.instCtx (tiling (tileIn 4 false [0x52]) ([0x52] ++ List.replicate 63 0)) 0x0800 (wInst .running (some 0x0800)) (stepNode 5 [] [])), _, _, _, _, _, _, _, by decide, by decide, by decide, by decide, rfl, rfl, rfl, rfl, rfl, rfl, rfl⟩,
   ⟨(tiling (tileIn 4 false [0x53]) ([0x53] ++ List.replicate 63 0)), 0, (State.instCtx (tiling (tileIn 4 false [0x53]) ([0x53] ++ List.replicate 63 0)) 0x0800 (wInst .running (some 0x0800)) (stepNode 5 [] [])), _, _, _, _, _, by decide, by decide, by decide, by decide, rfl, rfl, rfl, rfl, rfl⟩,
   ⟨(tiling (tileIn 4 false [0x54]) ([0x54] ++ List.replicate 63 0)), 0, (State.instCtx (tiling (tileIn 4 false [0x54]) ([0x54] ++ List.replicate 63 0)) 0x0800 (wInst .running (some 0x0800)) (stepNode 5 [] [])), _, _, _, _, _, _, by decide, by decide, by decide, by decide, rfl, rfl, rfl, rfl, rfl, rfl⟩,
   ⟨(tiling (tileIn 4 false [0x55]) ([0x55] ++ List.replicate 63 0)), 0, (State.instCtx (tiling (tileIn 4 false [0x55]) ([0x55] ++ List.replicate 63 0)) 0x0800 (wInst .running (some 0x0800)) (stepNode 5 [] [])), _, _, _, _, _, by decide, by decide, by decide, by decide, rfl, rfl, rfl, rfl, rfl⟩,
   ⟨(tiling (tileIn 4 false [0x56]) ([0x56] ++ List.replicate 63 0)), 0, (State.instCtx (tiling (tileIn 4 false [0x56]) ([0x56] ++ List.replicate 63 0)) 0x0800 (wInst .running (some 0x0800)) (stepNode 5 [] [])), _, _, _, _, _, _, by decide, by decide, by decide, by decide, rfl, rfl, rfl, rfl, rfl, rfl⟩,
   ⟨(tiling (tileIn 4 false [0x57]) ([0x57] ++ List.replicate 63 0)), 0, (State.instCtx (tiling (tileIn 4 false [0x57]) ([0x57] ++ List.replicate 63 0)) 0x0800 (wInst .running (some 0x0800)) (stepNode 5 [] [])), _, _, _, _, _, _, _, by decide, by decide, by decide, by decide, rfl, rfl, rfl, rfl, rfl, rfl, rfl⟩,
   ⟨(tiling (tileIn 4 false [0x58]) ([0x58] ++ List.replicate 63 0)), 0, (State.instCtx (tiling (tileIn 4 false [0x58]) ([0x58] ++ List.replicate 63 0)) 0x0800 (wInst .running (some 0x0800)) (stepNode 5 [] [])), _, _, _, _, _, by decide, by decide, by decide, by decide, rfl, rfl, rfl, rfl, rfl⟩,
   ⟨(tiling (tileIn 4 false [0x59]) ([0x59] ++ List.replicate 63 0)), 0, (State.instCtx (tiling (tileIn 4 false [0x59]) ([0x59] ++ List.replicate 63 0)) 0x0800 (wInst .running (some 0x0800)) (stepNode 5 [] [])), _, _, _, by decide, by decide, by decide, by decide, rfl, rfl, rfl⟩,
   ⟨(tiling (tileIn 4 false [0x5A]) ([0x5A] ++ List.replicate 63 0)), 0, (State.instCtx (tiling (tileIn 4 false [0x5A]) ([0x5A] ++ List.replicate 63 0)) 0x0800 (wInst .running (some 0x0800)) (stepNode 5 [] [])), _, _, _, _, _, by decide, by decide, by decide, by decide, rfl, rfl, rfl, rfl, rfl⟩,
   ⟨(tiling (tileIn 4 false [0x5B]) ([0x5B] ++ List.replicate 63 0)), 0, (State.instCtx (tiling (tileIn 4 false [0x5B]) ([0x5B] ++ List.replicate 63 0)) 0x0800 (wInst .running (some 0x0800)) (stepNode 5 [] [])), _, _, _, _, _, _, _, by decide, by decide, by decide, by decide, rfl, rfl, rfl, rfl, rfl, rfl, rfl⟩,
   ⟨(tiling (tileIn 4 false [0x5C]) ([0x5C] ++ List.replicate 63 0)), 0, (State.instCtx (tiling (tileIn 4 false [0x5C]) ([0x5C] ++ List.replicate 63 0)) 0x0800 (wInst .running (some 0x0800)) (stepNode 5 [] [])), _, _, _, by decide, by decide, by decide, by decide, rfl, rfl, rfl⟩⟩

theorem test_TilePhases_witness :
    (∃ (s : State) (tile : Fin 16) (c : StepCtx), s.ntGrantable tile.val = true ∧ s.ctx? (0x0800 + tile.val) = some c ∧
      tile.val < s.nts.length)
    ∧ (∃ (s : State) (tile : Fin 16) (c : StepCtx) (s1 : State) (s2 : State) (d : List Byte) (used : List Nat) (s3 : State) (s4 :
      State) (tds : List (List Byte)) (s5 : State) (s6 : State) (runs : List (Nat × Nat)) (s7 : State), s.canonical = true ∧
      tile.val < s.nts.length ∧ s.ctx? (0x0800 + tile.val) = some c ∧ (s.ntPhase tile.val).1 = 3 ∧ s1 = (s.ntWindow c 0
      (s.localTile c.descAddr) 64 false).1 ∧ (s.ntWindow c 0 (s.localTile c.descAddr) 64 false).2 = true ∧ s2 = (s1.ntFetch c
      [((s.localTile c.descAddr), 64)]).1 ∧ (s1.ntFetch c [((s.localTile c.descAddr), 64)]).2 = true ∧ d = s2.ntBytes tile.val
      (s.localTile c.descAddr) 64 ∧ ntCommonOk d = true ∧ ntFieldsOk d = true ∧ used = (ntReads d ++ ntWrites d).eraseDups ∧
      (s3 = (s2.ntWindows c (used.map (fun q => (7, s2.localTile ((parseNt d).td.getD q 0), 64, false)))).1) ∧ ((s2.ntWindows c
      (used.map (fun q => (7, s2.localTile ((parseNt d).td.getD q 0), 64, false)))).2 = true) ∧ (s4 = (s3.ntFetch c (used.map
      (fun q => (s2.localTile ((parseNt d).td.getD q 0), 64)))).1) ∧ ((s3.ntFetch c (used.map (fun q => (s2.localTile ((parseNt
      d).td.getD q 0), 64)))).2 = true) ∧ (tds = (List.range 4).map (fun q => if used.contains q then s4.ntBytes tile.val
      (s2.localTile ((parseNt d).td.getD q 0)) 64 else [])) ∧ (s5 = s4.modNt tile.val (fun x =>
      { x with desc := d, tds := tds, lut := [], epi := [] })) ∧ s5.ntValid c (s5.nt tile.val) = true ∧ s6 = (s5.ntWindows c
      (s5.ntExtents c (s5.nt tile.val))).1 ∧ (s5.ntWindows c (s5.ntExtents c (s5.nt tile.val))).2 = true ∧ s6.permuteOverlap c
      (s5.nt tile.val) = false ∧ (runs = ((ntReads d).filter (fun q => !(c.opnd (s5.nt tile.val) q).absent && (parseNt
      d).stage.getD q 0 != 0xFFFFFF)).flatMap (fun q => (c.opnd (s5.nt tile.val) q).loadRuns s6.device) ++ ((if (parseNt
      d).colVec then [(s6.localTile (epiVec d), 8 * (parseTd (tds.getD 3 [])).dims.getD 0 1)] else []) ++ (if usesLut d then
      [(s6.localTile (lutAddr d), 1044)] else []))) ∧ s7 = (s6.ntFetch c runs).1 ∧ (s6.ntFetch c runs).2 = true ∧ (usesLut d &&
      !lutOk (s7.ntBytes tile.val (s7.localTile (lutAddr d)) 1044)) = false)
    ∧ (∃ (s : State) (tile : Fin 16) (c : StepCtx) (s1 : State) (s2 : State) (d : List Byte), s.canonical = true ∧ tile.val <
      s.nts.length ∧ s.ctx? (0x0800 + tile.val) = some c ∧ (s.ntPhase tile.val).1 = 3 ∧ s1 = (s.ntWindow c 0 (s.localTile
      c.descAddr) 64 false).1 ∧ (s.ntWindow c 0 (s.localTile c.descAddr) 64 false).2 = true ∧ s2 = (s1.ntFetch c [((s.localTile
      c.descAddr), 64)]).1 ∧ (s1.ntFetch c [((s.localTile c.descAddr), 64)]).2 = true ∧ d = s2.ntBytes tile.val (s.localTile
      c.descAddr) 64 ∧ (ntCommonOk d && ntFieldsOk d) = false)
    ∧ (∃ (s : State) (tile : Fin 16) (c : StepCtx), s.canonical = true ∧ tile.val < s.nts.length ∧ s.ctx? (0x0800 + tile.val) =
      some c ∧ (s.ntPhase tile.val).1 = 4 ∧ (s.nt tile.val).computed = true)
    ∧ (∃ (s : State) (tile : Fin 16) (c : StepCtx), s.canonical = true ∧ tile.val < s.nts.length ∧ s.ctx? (0x0800 + tile.val) =
      some c ∧ (s.ntPhase tile.val).1 = 4)
    ∧ (∃ (s : State) (tile : Fin 16) (c : StepCtx) (ws : List (Nat × List Byte)) (v : State), s.canonical = true ∧ tile.val <
      s.nts.length ∧ s.ctx? (0x0800 + tile.val) = some c ∧ (s.ntPhase tile.val).1 = 6 ∧ ws = (s.ntStores c).1 ∧ v =
      (s.judgeWrites c.issuer ws).1 ∧ (s.judgeWrites c.issuer ws).2 = none) :=
  ⟨⟨(tiling { TileSt.idle with owner := some (0, 0, 0), phase := 5 } [] ), 0, (State.instCtx (tiling { TileSt.idle with owner := some (0, 0, 0), phase := 5 } []) 0x0800 (wInst .running (some 0x0800)) (stepNode 5 [] [])), by decide, by decide, by decide⟩,
   ⟨(tiling (tileIn 3 false []) permuteStep), 0, (State.instCtx (tiling (tileIn 3 false []) permuteStep) 0x0800 (wInst .running (some 0x0800)) (stepNode 5 [] [])), _, _, _, _, _, _, _, _, _, _, _, by decide, by decide, by decide, by decide, rfl, by decide, rfl, by decide, rfl, by decide, by decide, rfl, rfl, by decide, rfl, by decide, rfl, rfl, by decide, rfl, by decide, by decide, rfl, rfl, by decide, by decide⟩,
   ⟨(tiling (tileIn 3 false []) (List.replicate 64 0)), 0, (State.instCtx (tiling (tileIn 3 false []) (List.replicate 64 0)) 0x0800 (wInst .running (some 0x0800)) (stepNode 5 [] [])), _, _, _, by decide, by decide, by decide, by decide, rfl, by decide, rfl, by decide, rfl, by decide⟩,
   ⟨(tiling (tileIn 4 true []) []), 0, (State.instCtx (tiling (tileIn 4 true []) []) 0x0800 (wInst .running (some 0x0800)) (stepNode 5 [] [])), by decide, by decide, by decide, by decide, by decide⟩,
   ⟨(tiling (tileIn 4 true []) []), 0, (State.instCtx (tiling (tileIn 4 true []) []) 0x0800 (wInst .running (some 0x0800)) (stepNode 5 [] [])), by decide, by decide, by decide, by decide⟩,
   ⟨(tiling (tileIn 6 true []) []), 0, (State.instCtx (tiling (tileIn 6 true []) []) 0x0800 (wInst .running (some 0x0800)) (stepNode 5 [] [])), _, _, by decide, by decide, by decide, by decide, rfl, rfl, by decide⟩⟩

theorem test_HeldAccessesAndStops_witness :
    (∃ (s : State) (unit : Half) (h : HoldSt), (s.unit unit.toNat).hold = some h)
    ∧ (∃ (s : State) (unit : Half) (h : HoldSt) (c : StepCtx), s.canonical = true ∧ (s.unit unit.toNat).hold = some h ∧ s.ctx?
      unit.toNat = some c ∧ 3 ≤ unit.toNat / 256 ∧ unit.toNat / 256 ≤ 9 ∧ unit.toNat % 256 < 16)
    ∧ (∃ (s : State) (unit : Half) (i : Inst), s.canonical = true ∧ (s.unit unit.toNat).entry.bind s.entry? = some i ∧ i.stopping
      = true ∧ 3 ≤ unit.toNat / 256 ∧ unit.toNat / 256 ≤ 9 ∧ unit.toNat % 256 < 16)
    ∧ (∃ (s : State) (unit : Half), s.mm.detached.contains unit.toNat = true) :=
  ⟨⟨({ stepper 5 0x0800 [] [] [] [] with units := [{ wUnit 0x0800 (some 0) with hold := some ⟨0, true, addrFs, true⟩ }] }), 0x0800, (⟨0, true, addrFs, true⟩), by decide⟩,
   ⟨({ stepper 5 0x0800 [] [] [] [] with units := [{ wUnit 0x0800 (some 0) with hold := some ⟨0, true, addrFs, true⟩ }] }), 0x0800, (⟨0, true, addrFs, true⟩), (State.instCtx ({ stepper 5 0x0800 [] [] [] [] with units := [{ wUnit 0x0800 (some 0) with hold := some ⟨0, true, addrFs, true⟩ }] }) 0x0800 (wInst .running (some 0x0800)) (stepNode 5 [] [])), by decide, by decide, by decide, by decide, by decide, by decide⟩,
   ⟨(graph 5 false [{ wInst .running (some 0x0800) with stopping := true }] [wUnit 0x0800 (some 0)]), 0x0800, ({ wInst .running (some 0x0800) with stopping := true }), by decide, by decide, by decide, by decide, by decide, by decide⟩,
   ⟨({ up 11 with mm := { (up 11).mm with detached := [0x0900] } }), 0x0900, by decide⟩⟩

theorem test_MemoryRegisters_witness :
    (∃ (s : State) (line : Nat), s.mm.wcPending.contains line = true)
    ∧ (∃ (s : State) (addr : Nat) (c : Cinder), s.canonical = true ∧ (s.mm.cinder.find? (fun c => c.base == addr && c.waiting) =
      some c) ∧ ((s.mm.cinder.filter (fun x => !x.waiting && memClass x.base == memClass c.base)).length < cinderLimit
      (memClass c.base)) ∧ (((s.mm.cinder.find? (fun x => x.waiting && memClass x.base == memClass c.base)).map (·.base)) =
      some addr))
    ∧ (∃ (s : State) (addr : Nat) (c : Cinder), s.canonical = true ∧ (s.mm.cinder.find? (fun c => c.base == addr && !c.waiting) =
      some c))
    ∧ (∃ (s : State) (tile : Fin 16) (offset : BitVec 8) (value : Word) (domain : BitVec 4), s.canonical = true)
    ∧ (∃ (s : State) (tile : Fin 16) (offset : BitVec 8) (value : Word) (domain : BitVec 4), s.canonical = true ∧ offset.toNat /
      8 < 16) :=
  ⟨⟨({ up 11 with mm := { (up 11).mm with wcPending := [addrLp] } }), addrLp, by decide⟩,
   ⟨({ up 11 with mm := { (up 11).mm with cinder := [⟨addrFs, 4096, false, true, none⟩] } }), addrFs, (⟨addrFs, 4096, false, true, none⟩), by decide, by decide, by decide, by decide⟩,
   ⟨({ up 11 with mm := { (up 11).mm with cinder := [⟨addrSpm, 6291456, false, false, none⟩] } }), addrSpm, (⟨addrSpm, 6291456, false, false, none⟩), by decide, by decide⟩,
   ⟨(up 11), 3, 0x18, 0x20, 0, by decide⟩,
   ⟨(up 11), 3, 0x08, 0x80000001, 0, by decide, by decide⟩⟩

theorem test_Adaptation_witness :
    (∃ (s : State), s.running = true ∧ s.scene.switch = none)
    ∧ (∃ (s : State), (s.running = false ∨ s.scene.switch ≠ none))
    ∧ (∃ (s : State), s.canonical = true ∧ s.fld Reg.PMU_SHED F.PMU_SHED.STARVE ≠ 0 ∧ (s.safety.selftests.any (fun x =>
      x.starved) = false))
    ∧ (∃ (s : State) (h : Int) (u : State), s.canonical = true ∧ s.running = true ∧ s.hottest? = some h ∧ (u =
      (s.adapt.thermAt.map (fun x => s.reach (x + s.adaptLe 0x10 2 * 1000000))).getD s) ∧ s.adaptLe 5 1 ≤ 7) :=
  ⟨⟨(up 11), by decide, by decide⟩,
   ⟨(up 8), by decide⟩,
   ⟨(((up 11).setFld Reg.PMU_SHED F.PMU_SHED.STARVE 1).setFld Reg.PMU_SHED F.PMU_SHED.LEVEL 1), by decide, by decide, by decide⟩,
   ⟨({ (up 11).setFld Reg.NE_CLOCK F.NE_CLOCK.STEP 1 with safety := { (up 11).safety with temps := [some 500] } }), 500, _, by decide, by decide, by decide, rfl, by decide⟩⟩

theorem test_PowerDomains_witness :
    (∃ (s : State) (dom : Fin 188), s.canonical = true ∧ (s.mm.powerReq.take 4).contains dom.val = true)
    ∧ (∃ (s : State) (dom : Fin 188), s.canonical = true)
    ∧ (∃ (s : State) (unit : Half), s.canonical = true ∧ 3 ≤ unit.toNat / 256 ∧ unit.toNat / 256 ≤ 8 ∧ maskCodes.contains
      unit.toNat = true ∧ s.adaptLe 0x16 2 ≠ 0 ∧ s.running = true ∧ (s.unit unit.toNat).fenced = false ∧ (s.unit
      unit.toNat).gated = false ∧ (s.unit unit.toNat).entry = none ∧ (s.unit unit.toNat).heldBy = none ∧ s.safetyUnit
      unit.toNat = false)
    ∧ (∃ (s : State) (unit : Half), s.canonical = true ∧ (s.unit unit.toNat).gated = true ∧ (s.unit unit.toNat).fenced = false ∧
      s.wanted unit.toNat = true ∧ (unit.toNat / 256 = 8 → s.domainOn (3 * (unit.toNat % 256) + 2) = true) ∧ maskCodes.contains
      unit.toNat = true) :=
  ⟨⟨({ up 11 with mm := { (up 11).mm with powerReq := [133] } }), 133, by decide, by decide⟩,
   ⟨(up 11), 133, by decide⟩,
   ⟨({ up 11 with flash := image 0x0B 0 0 (List.replicate 22 0 ++ [10, 0] ++ List.replicate 40 0), units := [wUnit 0x0300 none] }), 0x0300, by decide, by decide, by decide, by decide, by decide, by decide, by decide, by decide, by decide, by decide, by decide⟩,
   ⟨(graph 0 false [wInst .ready none] [{ wUnit 0x0300 none with gated := true }]), 0x0300, by decide, by decide, by decide, by decide, by decide, by decide⟩⟩

theorem test_Maintenance_witness :
    (∃ (s : State) (act : Half) (p : Nat) (u : State), s.periodOf act.toNat = some p ∧ s.running = true ∧ s.actKnown act.toNat
      = true ∧ (u = ((assocGet s.maint.last act.toNat).map (fun x => s.reach (x + p))).getD s))
    ∧ (∃ (s : State) (act : Half), s.actKnown act.toNat = true)
    ∧ (∃ (s : State) (act : Half) (ecc : List EccHit) (r : Nat × Nat), actClass act.toNat ≠ 1 ∧ (s.maint.running.find? (fun r =>
      r.1 == act.toNat) = some r))
    ∧ (∃ (s : State) (act : Half) (ecc : List EccHit) (r : Nat × Nat) (h : Nat), s.canonical = true ∧ actClass act.toNat = 2 ∧
      (s.maint.running.find? (fun r => r.1 == act.toNat) = some r) ∧ ecc = [⟨h, false⟩] ∧ inRange h (addrFs + act.toNat % 256 *
      0x2000000) 0x2000000 = true ∧ inRange h addrFs fsBytes = true ∧ ((assocGet s.mm.ceTimes (0x0E00 + pairOf h)).getD
      []).length < 63)
    ∧ (∃ (s : State) (act : Half) (q : MaintReq), (s.maint.queue.find? (fun q => q.act == act.toNat) = some q) ∧ q.reserved =
      false)
    ∧ (∃ (s : State) (act : Half) (q : MaintReq), s.canonical = true ∧ (s.maint.queue.find? (fun q => q.act == act.toNat) = some
      q) ∧ q.overdue = false) :=
  ⟨⟨(up 11), 0x4003, ((up 11).adaptLe 0x14 2 * 1000000000), _, by decide, by decide, by decide, rfl⟩,
   ⟨(up 11), 0x4003, by decide⟩,
   ⟨({ up 11 with maint := { (up 11).maint with running := [(0x4003, 0)] } }), 0x4003, ([]), ((0x4003, 0)), by decide, by decide⟩,
   ⟨({ up 11 with maint := { (up 11).maint with running := [(0x2001, 0)] } }), 0x2001, _, ((0x2001, 0)), (addrFs + 0x2000008), by decide, by decide, by decide, rfl, by decide, by decide, by decide⟩,
   ⟨({ up 11 with maint := { (up 11).maint with queue := [⟨0x4003, 0, false, false⟩] } }), 0x4003, (⟨0x4003, 0, false, false⟩), by decide, by decide⟩,
   ⟨({ up 11 with maint := { (up 11).maint with queue := [⟨0x5003, 0, false, false⟩] } }), 0x5003, (⟨0x5003, 0, false, false⟩), by decide, by decide, by decide⟩⟩

theorem test_EventJournal_witness :
    (∃ (s : State) (r : JRec) (rest : List JRec), s.canonical = true ∧ s.journal.started = true ∧ s.journal.fenced = false ∧
      s.journal.queue = r :: rest)
    ∧ (∃ (s : State) (q : Word) (rest : List Word) (r : JRec), s.canonical = true ∧ s.journal.unmirrored = q :: rest ∧
      (s.journal.ring.find? (fun r => r.seq == q) = some r))
    ∧ (∃ (s : State) (bank : Fin 5) (domain : BitVec 4) (value : Word), s.canonical = true)
    ∧ (∃ (s : State) (o : OutRec) (start : Word) (recs : List JRec), s.canonical = true ∧ s.streamRec = some o ∧
      s.journal.started = true ∧ s.flag Reg.EJ_STREAM_CTRL F.EJ_STREAM_CTRL.ENABLE = true ∧ (start = (if seqNewer s.oldestHeld
      (s.reg Reg.EJ_STREAM_POS) then s.oldestHeld else s.reg Reg.EJ_STREAM_POS)) ∧ recs = (s.collect ((s.reg Reg.EJ_SEQ) -
      start).toNat 40 start).1 ++ s.journal.fromPeers.take (40 - (s.collect ((s.reg Reg.EJ_SEQ) - start).toNat 40
      start).1.length)) :=
  ⟨⟨({ up 11 with journal := { (up 11).journal with started := true, queue := [⟨5, 0, 0x1500, 2, 0, 0, false, false, false, 0, 0xFF, 0, 0, 0⟩] } }), (⟨5, 0, 0x1500, 2, 0, 0, false, false, false, 0, 0xFF, 0, 0, 0⟩), ([]), by decide, by decide, by decide, by decide⟩,
   ⟨({ up 11 with journal := { (up 11).journal with unmirrored := [0], ring := [⟨5, 0, 0x1500, 2, 0, 0, false, false, false, 0, 0xFF, 0, 0, 0⟩] } }), 0, ([]), (⟨5, 0, 0x1500, 2, 0, 0, false, false, false, 0, 0xFF, 0, 0, 0⟩), by decide, by decide, by decide⟩,
   ⟨(up 11), 1, 0, 0x80010000, by decide⟩,
   ⟨(({ up 11 with flash := image 0x0F 0 0 ([0, 0, 0, 1] ++ List.replicate 188 0 ++ [2, 0] ++ List.replicate 30 0), journal := { (up 11).journal with started := true } }).setFlag Reg.EJ_STREAM_CTRL F.EJ_STREAM_CTRL.ENABLE true), (⟨0, 2, 0, 1, 1, 0, [0, 0, 0, 0], 0, [0, 0, 0, 0, 0, 0], 0, false, 0⟩), _, _, by decide, by decide, by decide, by decide, rfl, rfl⟩⟩

theorem test_Timeline_witness :
    (∃ (s : State) (source : Fin 8) (offset : Int), s.canonical = true ∧ s.kin.porstLow = false ∧ (s.hearSource source.val).2 =
      true)
    ∧ (∃ (s : State) (source : Fin 8) (offset : Int), s.kin.porstLow = false ∧ (source.val = 0 ∨ (source.val ≠ s.fld Reg.TL_CTRL
      F.TL_CTRL.PRIMARY ∧ source.val ≠ s.fld Reg.TL_CTRL F.TL_CTRL.BACKUP)))
    ∧ (∃ (s : State), s.canonical = true ∧ s.tlState = 2)
    ∧ (∃ (s : State), s.canonical = true ∧ s.tlState = 3)
    ∧ (∃ (s : State), s.canonical = true) :=
  ⟨⟨((up 11).setFld Reg.TL_CTRL F.TL_CTRL.PRIMARY 1), 1, 5, by decide, by decide, by decide⟩,
   ⟨(up 11), 0, 5, by decide, by decide⟩,
   ⟨((up 11).setFld Reg.TL_STATUS F.TL_STATUS.STATE 2), by decide, by decide⟩,
   ⟨((up 11).setFld Reg.TL_STATUS F.TL_STATUS.STATE 3), by decide, by decide⟩,
   ⟨(up 11), by decide⟩⟩

theorem test_Interrupts_witness :
    (∃ (s : State) (source : Fin 512), s.canonical = true)
    ∧ (∃ (s : State) (value : Word), s.canonical = true)
    ∧ (∃ (s : State) (pair : Fin 4) (pc : Word) (m : Nat), s.canonical = true ∧ s.cores.length = 4 ∧ s.bestFor pair.val = some m
      ∧ m < 512)
    ∧ (∃ (s : State) (pair : Fin 4) (pc : Word), s.canonical = true ∧ s.cores.length = 4 ∧ s.bestFor pair.val = none ∧ s.lostRace
      pair.val = true)
    ∧ (∃ (s : State) (source : Fin 512) (k : Nat) (l : List Nat), s.flag (Reg.ICU_SRC_CFG source.val) F.ICU_SRC_CFG.MODE = false
      ∧ s.offeredTo source.val = k :: l)
    ∧ (∃ (s : State) (pair : Fin 4) (value : Word), s.canonical = true ∧ s.cores.length = 4 ∧ F.ICU_T_EOI.ID.get value < 512) :=
  ⟨⟨((up 11).setReg (Reg.ISP_ERR 0) 1), 0x10, by decide⟩,
   ⟨(up 11), 0x100, by decide⟩,
   ⟨(((((up 11).setPending 0x100 true).setFld (Reg.ICU_SRC_CFG 0x100) F.ICU_SRC_CFG.TARGETS 1).setFld (Reg.ICU_SRC_CFG 0x100) F.ICU_SRC_CFG.PRIORITY 15).modCore 0 (fun c => { c with bank := 1, intEn := true })), 0, 0x100, 0x100, by decide, by decide, by decide, by decide⟩,
   ⟨((((up 11).setActive 0x100 true).setReg (Reg.ICU_SRC_CFG 0x100) (F.ICU_SRC_CFG.MODE.mask ||| F.ICU_SRC_CFG.TARGETS.mask ||| F.ICU_SRC_CFG.PRIORITY.mask)).modCore 0 (fun c => { c with bank := 1 })), 0, 0x100, by decide, by decide, by decide, by decide⟩,
   ⟨(((((up 11).setPending 0x100 true).setFld (Reg.ICU_SRC_CFG 0x100) F.ICU_SRC_CFG.TARGETS 1).setFld (Reg.ICU_SRC_CFG 0x100) F.ICU_SRC_CFG.PRIORITY 15).modCore 0 (fun c => { c with bank := 1, intEn := true })), 0x100, 0, ([]), by decide, by decide⟩,
   ⟨(((up 11).setActive 0x100 true).modCore 0 (fun c => { c with active := [(0x100, 3)] })), 0, 0x100, by decide, by decide, by decide⟩⟩

theorem test_PolicyCores_witness :
    (∃ (s : State) (pair : Fin 4), s.canonical = true ∧ s.cores.length = 4 ∧ (s.core pair.val).halted = false ∧ (s.unit (0x0B00
      + pair.val)).fenced = false ∧ (s.core pair.val).bank ≠ 0)
    ∧ (∃ (s : State) (pair : Fin 4) (m : Nat), s.canonical = true ∧ s.cores.length = 4 ∧ (s.core pair.val).halted = false ∧
      (s.unit (0x0B00 + pair.val)).fenced = false ∧ (s.core pair.val).bank = 0 ∧ s.bestFor pair.val = some m ∧ m < 512)
    ∧ (∃ (s : State) (pair : Fin 4) (l : List (Option Nat)), s.canonical = true ∧ s.cores.length = 4 ∧ (s.core pair.val).halted =
      false ∧ (s.unit (0x0B00 + pair.val)).fenced = false ∧ (s.core pair.val).bank = 0 ∧ s.bestFor pair.val = none ∧ (s.core
      pair.val).ctx = none :: l ∧ ((s.core pair.val).banks.all (fun b => decide (b.x.length = 31)) = true ∧ (s.core
      pair.val).banks ≠ []))
    ∧ (∃ (s : State) (pair : Fin 4) (k : Option (Option Nat)), s.canonical = true ∧ s.cores.length = 4 ∧ (s.core pair.val).halted
      = false ∧ (s.unit (0x0B00 + pair.val)).fenced = false ∧ (s.core pair.val).bank = 0 ∧ s.bestFor pair.val = none ∧ (s.core
      pair.val).ctx.head? = k ∧ k ≠ some none)
    ∧ (∃ (s : State) (pair : Fin 4) (cause : Word) (pc : Word), s.canonical = true ∧ s.cores.length = 4 ∧ (s.core
      pair.val).halted = false ∧ (s.unit (0x0B00 + pair.val)).fenced = false)
    ∧ (∃ (s : State) (pair : Fin 4), (s.core pair.val).halted = false ∧ (s.unit (0x0B00 + pair.val)).fenced = false)
    ∧ (∃ (s : State) (pair : Fin 4) (ue : Bool), s.canonical = true ∧ (s.core pair.val).halted = false ∧ (s.unit (0x0B00 +
      pair.val)).fenced = false)
    ∧ (∃ (s : State) (pair : Fin 4) (value : Word), s.canonical = true)
    ∧ (∃ (s : State) (pair : Fin 4), s.canonical = true ∧ (s.core pair.val).halted = false ∧ (s.unit (0x0B00 + pair.val)).fenced
      = false ∧ (s.unit (0x0B00 + pair.val)).gated = false ∧ s.kin.firmwareDone = true) :=
  ⟨⟨(({ up 11 with units := [wUnit 0x0B00 none] } : State).modCore 0 (fun c => { c with bank := 2 })), 0, by decide, by decide, by decide, by decide, by decide⟩,
   ⟨(({ ((((up 11).setPending 0x100 true).setFld (Reg.ICU_SRC_CFG 0x100) F.ICU_SRC_CFG.TARGETS 1).setFld (Reg.ICU_SRC_CFG 0x100) F.ICU_SRC_CFG.PRIORITY 15).modCore 0 (fun c => { c with bank := 0, intEn := true }) with units := [wUnit 0x0B00 none] } : State)), 0, 0x100, by decide, by decide, by decide, by decide, by decide, by decide, by decide⟩,
   ⟨(({ up 11 with units := [wUnit 0x0B00 none] } : State).modCore 0 (fun c => { c with bank := 0, ctx := [none] })), 0, ([]), by decide, by decide, by decide, by decide, by decide, by decide, by decide, by decide⟩,
   ⟨(({ up 11 with units := [wUnit 0x0B00 none] } : State).modCore 0 (fun c => { c with bank := 0, ctx := [] })), 0, none, by decide, by decide, by decide, by decide, by decide, by decide, by decide, by decide⟩,
   ⟨(({ up 11 with units := [wUnit 0x0B00 none] } : State).modCore 0 (fun c => { c with bank := 2 })), 0, 8, 0x200, by decide, by decide, by decide, by decide⟩,
   ⟨(({ up 11 with units := [wUnit 0x0B00 none] } : State).modCore 0 (fun c => { c with bank := 2 })), 0, by decide, by decide⟩,
   ⟨(({ up 11 with units := [wUnit 0x0B00 none] } : State).modCore 0 (fun c => { c with bank := 2 })), 0, false, by decide, by decide, by decide⟩,
   ⟨(up 11), 0, 0, by decide⟩,
   ⟨({ up 11 with units := [wUnit 0x0B00 none], kin := { (up 11).kin with firmwareDone := true } }), 0, by decide, by decide, by decide, by decide, by decide⟩⟩

theorem test_CheckValueUnits_witness :
    (∃ (s : State) (cvu : Fin 8) (domain : BitVec 4) (value : Word), s.canonical = true ∧ (s.unit (0x0A00 + cvu.val)).fenced =
      false ∧ F.CVU_GO.GO.get value = 1 ∧ s.cvus.length = 8 ∧ s.flag (Reg.CVU_CTRL cvu.val) F.CVU_CTRL.TAP = false)
    ∧ (∃ (s : State) (cvu : Fin 8) (domain : BitVec 4) (value : Word), s.canonical = true ∧ (s.unit (0x0A00 + cvu.val)).fenced =
      false ∧ F.CVU_GO.GO.get value = 1 ∧ s.cvus.length = 8 ∧ s.flag (Reg.CVU_CTRL cvu.val) F.CVU_CTRL.TAP = true)
    ∧ (∃ (s : State) (cvu : Fin 8) (domain : BitVec 4) (value : Word), s.canonical = true ∧ F.CVU_GO.CANCEL.get value = 1)
    ∧ (∃ (s : State) (cvu : Fin 8), s.canonical = true ∧ s.cvuState cvu.val = 1 ∧ (s.judgeRun (⟨0x0A00 + cvu.val, s.fld
      (Reg.CVU_STATUS cvu.val) F.CVU_STATUS.OWNER, false⟩ : Issuer) (s.cvuAddr cvu.val) (s.reg (Reg.CVU_LENGTH cvu.val)).toNat
      false).2 = none)
    ∧ (∃ (s : State) (cvu : Fin 8), s.canonical = true ∧ s.cvuState cvu.val = 1 ∧ (((s.judgeRun (⟨0x0A00 + cvu.val, s.fld
      (Reg.CVU_STATUS cvu.val) F.CVU_STATUS.OWNER, false⟩ : Issuer) (s.cvuAddr cvu.val) (s.reg (Reg.CVU_LENGTH cvu.val)).toNat
      false).2.any (fun e => e.1 != .pending)) = true))
    ∧ (∃ (s : State) (cvu : Fin 8) (b : List Byte), s.canonical = true ∧ s.cvuState cvu.val = 3 ∧ (s.cvu cvu.val).bytes = some b) :=
  ⟨⟨(up 11), 0, 0, 1, by decide, by decide, by decide, by decide, by decide⟩,
   ⟨((up 11).setFlag (Reg.CVU_CTRL 0) F.CVU_CTRL.TAP true), 0, 0, 1, by decide, by decide, by decide, by decide, by decide⟩,
   ⟨((up 11).setFld (Reg.CVU_STATUS 0) F.CVU_STATUS.STATE 2), 0, 0, 2, by decide, by decide⟩,
   ⟨((up 11).setFld (Reg.CVU_STATUS 0) F.CVU_STATUS.STATE 1), 0, by decide, by decide, by decide⟩,
   ⟨((((up 11).setFld (Reg.CVU_STATUS 0) F.CVU_STATUS.STATE 1).setReg (Reg.CVU_LENGTH 0) 4).setReg (Reg.CVU_ADDR_LO 0) 0xF0000000), 0, by decide, by decide, by decide⟩,
   ⟨(((up 11).setFld (Reg.CVU_STATUS 0) F.CVU_STATUS.STATE 3).modCvu 0 (fun c => { c with bytes := some [1] })), 0, ([1]), by decide, by decide, by decide⟩⟩

theorem test_TinderAndSelfTests_witness :
    (∃ (s : State) (unit : Half) (c : CoverSt) (n : Nat), s.canonical = true ∧ s.cover? unit.toNat = some c ∧ c.running = true
      ∧ c.cvu = some n ∧ n < 8 ∧ s.cvuState n = 0)
    ∧ (∃ (s : State) (unit : Half) (c : CoverSt), s.cover? unit.toNat = some c ∧ c.promoted = false ∧ s.running = true)
    ∧ (∃ (s : State) (unit : Half) (c : CoverSt), s.canonical = true ∧ s.cover? unit.toNat = some c ∧ s.running = true)
    ∧ (∃ (s : State) (checker : Fin 12) (unit : Half), (actTest (testAct checker.val unit.toNat)).2 = unit.toNat ∧ s.actKnown
      (testAct checker.val unit.toNat) = true ∧ s.mayStart (testAct checker.val unit.toNat) s.now = true)
    ∧ (∃ (s : State) (checker : Fin 12) (unit : Half) (sig : Word) (x : SelfTestSt) (r : Nat × Nat) (good : Bool), s.canonical =
      true ∧ s.selftest? checker.val unit.toNat = some x ∧ x.running = true ∧ (s.maint.running.find? (fun r => r.1 == (testAct
      checker.val unit.toNat)) = some r) ∧ (good = (s.flash.expected s.imgRegion).any (fun e => e.kind == 2 && e.pattern ==
      checker.val && e.unit == unit.toNat && e.expected == sig.toNat)))
    ∧ (∃ (s : State) (checker : Fin 12) (unit : Half) (x : SelfTestSt), s.canonical = true ∧ s.selftest? checker.val unit.toNat =
      some x ∧ x.starved = false ∧ s.running = true)
    ∧ (∃ (s : State) (checker : Fin 12) (unit : Half) (x : SelfTestSt), s.canonical = true ∧ s.selftest? checker.val unit.toNat =
      some x ∧ s.running = true) :=
  ⟨⟨({ (up 11) with safety := { (up 11).safety with cover := [⟨0x0800, 0, 0, 0, 0, false, false, true, none, some 0, 0, 0⟩] } }), 0x0800, (⟨0x0800, 0, 0, 0, 0, false, false, true, none, some 0, 0, 0⟩), 0, by decide, by decide, by decide, by decide, by decide, by decide⟩,
   ⟨({ (up 11) with safety := { (up 11).safety with cover := [⟨0x0800, 0, 0, 0, 0, false, false, true, none, some 0, 0, 0⟩] } }), 0x0800, (⟨0x0800, 0, 0, 0, 0, false, false, true, none, some 0, 0, 0⟩), by decide, by decide, by decide⟩,
   ⟨({ (up 11) with safety := { (up 11).safety with cover := [⟨0x0800, 0, 0, 0, 0, false, false, true, none, some 0, 0, 0⟩] } }), 0x0800, (⟨0x0800, 0, 0, 0, 0, false, false, true, none, some 0, 0, 0⟩), by decide, by decide, by decide⟩,
   ⟨({ up 11 with safety := { (up 11).safety with selftests := [⟨11, 0x1200, 0, 0, false, false⟩] } }), 11, 0x1200, by decide, by decide, by decide⟩,
   ⟨({ up 11 with safety := { (up 11).safety with selftests := [⟨11, 0x1200, 0, 0, false, true⟩] }, maint := { (up 11).maint with running := [(testAct 11 0x1200, 0)] } }), 11, 0x1200, 5, (⟨11, 0x1200, 0, 0, false, true⟩), ((testAct 11 0x1200, 0)), _, by decide, by decide, by decide, by decide, rfl⟩,
   ⟨({ up 11 with safety := { (up 11).safety with selftests := [⟨11, 0x1200, 0, 0, false, true⟩] } }), 11, 0x1200, (⟨11, 0x1200, 0, 0, false, true⟩), by decide, by decide, by decide, by decide⟩,
   ⟨({ up 11 with safety := { (up 11).safety with selftests := [⟨11, 0x1200, 0, 0, false, true⟩] } }), 11, 0x1200, (⟨11, 0x1200, 0, 0, false, true⟩), by decide, by decide, by decide⟩⟩

theorem test_SafetyIsland_witness :
    (∃ (s : State) (d : Nat × Nat × Word) (l : List (Nat × Nat × Word)), s.canonical = true ∧ s.safety.doubts = d :: l ∧
      s.safety.sel.held = none)
    ∧ (∃ (s : State) (x : Nat × Nat) (l : List (Nat × Nat)), s.canonical = true ∧ s.safety.severes = x :: l)
    ∧ (∃ (s : State) (d : Nat), s.canonical = true ∧ s.safety.flushDue = some d ∧ s.resettable = true ∧ 2 ≤ s.stage ∧ s.stage ≠
      14)
    ∧ (∃ (s : State) (pass : Bool), s.canonical = true ∧ s.smRuns = true)
    ∧ (∃ (s : State), s.canonical = true ∧ s.smRuns = true)
    ∧ (∃ (s : State), s.canonical = true ∧ s.kin.porstLow = false)
    ∧ (∃ (s : State), s.smRuns = true) :=
  ⟨⟨(({ up 11 with safety := { (up 11).safety with doubts := [(5, 0x0B00, 3)] } } : State).setFlag Reg.SI_STATUS F.SI_STATUS.SOURCE false), ((5, 0x0B00, 3)), ([]), by decide, by decide, by decide⟩,
   ⟨({ up 11 with safety := { (up 11).safety with severes := [(12, 0x1200)] } }), ((12, 0x1200)), ([]), by decide, by decide⟩,
   ⟨({ up 11 with safety := { (up 11).safety with flushDue := some 500 } }), 500, by decide, by decide, by decide, by decide, by decide⟩,
   ⟨(up 11), true, by decide, by decide⟩,
   ⟨(up 11), by decide, by decide⟩,
   ⟨(up 11), by decide, by decide⟩,
   ⟨(up 11), by decide⟩⟩

theorem test_MonitorsAndErrIn_witness :
    (∃ (s : State) (num : Byte) (value : Int) (ls : List (Nat × Nat × Nat × Int)), s.canonical = true ∧ s.smRuns = true ∧ ls =
      monitorLimits num.toNat value ∧ ((0x10 > num.toNat ∨ 0x1F < num.toNat)))
    ∧ (∃ (s : State) (num : Byte) (value : Int), s.canonical = true ∧ s.smRuns = true ∧ 0x10 ≤ num.toNat ∧ num.toNat ≤ 0x1F ∧
      (s.maint.running.any (fun r => r.1 == 0x4000 + (num.toNat - 0x10)) = false) ∧ (assocGet s.safety.levels num.toNat).getD 0
      = 0 ∧ s.safety.excluded = [] ∧ s.safety.temps = List.replicate 16 none)
    ∧ (∃ (s : State) (num : Byte) (value : Int), s.smRuns = true ∧ 0x10 ≤ num.toNat ∧ num.toNat ≤ 0x1F ∧ (s.maint.running.any
      (fun r => r.1 == 0x4000 + (num.toNat - 0x10)) = true))
    ∧ (∃ (s : State) (lowNs : Nat), s.kin.porstLow = false ∧ lowNs = 0)
    ∧ (∃ (s : State) (lowNs : Nat), s.kin.porstLow = false ∧ 1 ≤ lowNs ∧ lowNs < 1000)
    ∧ (∃ (s : State) (lowNs : Nat), s.canonical = true ∧ s.kin.porstLow = false ∧ 1000 ≤ lowNs) :=
  ⟨⟨(up 11), 2, 950, _, by decide, by decide, rfl, by decide⟩,
   ⟨(up 11), 0x12, 1301, by decide, by decide, by decide, by decide, by decide, by decide, by decide, by decide⟩,
   ⟨({ up 11 with maint := { (up 11).maint with running := [(0x4000, 0)] } }), 0x10, 1300, by decide, by decide, by decide, by decide⟩,
   ⟨(up 11), 0, by decide, by decide⟩,
   ⟨(up 11), 999, by decide, by decide, by decide⟩,
   ⟨(up 11), 1000, by decide, by decide, by decide⟩⟩

theorem test_FirewallRegions_witness :
    (∃ (s : State) (bank : Fin 6) (domain : BitVec 4) (value : Word) (m : Nat) (n : Nat), ((domain = 0 ∨ domain = 1)) ∧ m =
      s.fld (bankOff bank.val Reg.FWL_SEL) F.FWL_SEL.TARGET ∧ n = s.fld (bankOff bank.val Reg.FWL_SEL) F.FWL_SEL.REGION ∧
      ((s.safety.regions.filter (fun r => r.target == m && r.region == n)).any (fun r => r.lock && !s.mayUnlock bank.val
      domain.toNat r) = false))
    ∧ (∃ (s : State) (bank : Fin 6) (domain : BitVec 4) (value : Word), s.canonical = true ∧ domain = 0 ∧
      ((s.safety.regions.filter (fun r => r.target == s.fld (bankOff bank.val Reg.FWL_SEL) F.FWL_SEL.TARGET && r.region ==
      s.fld (bankOff bank.val Reg.FWL_SEL) F.FWL_SEL.REGION)).any (fun r => r.lock && !s.mayUnlock bank.val 0 r) = true))
    ∧ (∃ (s : State) (bank : Fin 6) (domain : BitVec 4) (value : Word), s.canonical = true ∧ 2 ≤ domain.toNat) :=
  ⟨⟨(up 11), 4, 0, 3, _, _, by decide, rfl, rfl, by decide⟩,
   ⟨({ up 11 with safety := { (up 11).safety with regions := [⟨0, 0, true, true, true, 0, 0, 1, 0xFFFF, 0xFFFF, none⟩] } }), 4, 0, 3, by decide, by decide, by decide⟩,
   ⟨(up 11), 4, 2, 3, by decide, by decide⟩⟩

theorem test_EmberPath_witness :
    (∃ (s : State) (d : Nat) (f : EmberFrame), s.safety.ember.pairDue = some d ∧ s.safety.ember.left = some f ∧ f.closedAt ≠
      none ∧ f.missed = false)
    ∧ (∃ (s : State), s.nextMsg? = none)
    ∧ (∃ (s : State) (m : EmberMsg), s.canonical = true ∧ s.nextMsg?.map (·.1) = some m ∧ s.emberSelected = false)
    ∧ (∃ (s : State) (m : EmberMsg), s.canonical = true ∧ s.nextMsg?.map (·.1) = some m ∧ s.emberSelected = true ∧ s.isReady =
      true ∧ m.status = 2 ∧ 2 ≤ s.fld Reg.SI_SELECT F.SI_SELECT.EMBER_INVALID)
    ∧ (∃ (s : State) (pass : Bool), s.canonical = true ∧ s.smRuns = true ∧ pass = true)
    ∧ (∃ (s : State) (pass : Bool), s.canonical = true ∧ s.smRuns = true ∧ pass = false ∧ s.isReady = true) :=
  ⟨⟨({ up 11 with safety := { (up 11).safety with ember := { (up 11).safety.ember with pairDue := some 500, left := some ⟨5, 100, 0, [], [], false, false, some 200⟩ } } }), 500, (⟨5, 100, 0, [], [], false, false, some 200⟩), by decide, by decide, by decide, by decide⟩,
   ⟨(up 11), by decide⟩,
   ⟨((({ up 11 with safety := { (up 11).safety with ember := { (up 11).safety.ember with invalidPair := some (5, 100, 0) } } } : State).setFlag Reg.SI_STATUS F.SI_STATUS.SOURCE false)), ((({ up 11 with safety := { (up 11).safety with ember := { (up 11).safety.ember with invalidPair := some (5, 100, 0) } } } : State).setFlag Reg.SI_STATUS F.SI_STATUS.SOURCE false).invalidMsg 5 100 0), by decide, by decide, by decide⟩,
   ⟨((({ up 11 with safety := { (up 11).safety with ember := { (up 11).safety.ember with invalidPair := some (5, 100, 0) } } } : State).setFlag Reg.SI_STATUS F.SI_STATUS.SOURCE true).setFld Reg.SI_SELECT F.SI_SELECT.EMBER_INVALID 2), (((({ up 11 with safety := { (up 11).safety with ember := { (up 11).safety.ember with invalidPair := some (5, 100, 0) } } } : State).setFlag Reg.SI_STATUS F.SI_STATUS.SOURCE true).setFld Reg.SI_SELECT F.SI_SELECT.EMBER_INVALID 2).invalidMsg 5 100 0), by decide, by decide, by decide, by decide, by decide, by decide⟩,
   ⟨(up 11), true, by decide, by decide, by decide⟩,
   ⟨(up 11), false, by decide, by decide, by decide, by decide⟩⟩

theorem test_Links_witness :
    (∃ (s : State) (link : Fin 3) (ident : Option GmlIdentity), ((s.linkPartner link.val).isNone || s.linkState link.val != 1
      || (s.link link.val).refused || (s.unit (linkUnit link.val)).fenced) = true)
    ∧ (∃ (s : State) (link : Fin 3) (e : Nat), s.canonical = true ∧ s.linkPartner link.val = some e ∧ (s.linkState link.val != 1
      || (s.link link.val).refused || (s.unit (linkUnit link.val)).fenced) = false)
    ∧ (∃ (s : State) (link : Fin 3) (e : Nat) (i : GmlIdentity), s.canonical = true ∧ s.gml.links.length = 3 ∧ s.linkPartner
      link.val = some e ∧ (s.linkState link.val != 1 || (s.link link.val).refused || (s.unit (linkUnit link.val)).fenced) =
      false ∧ s.identityBad e i = true)
    ∧ (∃ (s : State) (link : Fin 3) (e : Nat) (i : GmlIdentity), s.canonical = true ∧ s.gml.links.length = 3 ∧ s.linkPartner
      link.val = some e ∧ (s.linkState link.val != 1 || (s.link link.val).refused || (s.unit (linkUnit link.val)).fenced) =
      false ∧ s.identityBad e i = false)
    ∧ (∃ (s : State) (link : Fin 3) (seq : BitVec 12) (ack : BitVec 12) (crcOk : Bool) (packets : List GmlPkt), s.linkState
      link.val ≠ 2)
    ∧ (∃ (s : State) (link : Fin 3) (seq : BitVec 12) (ack : BitVec 12) (packets : List GmlPkt), s.canonical = true ∧
      s.gml.links.length = 3 ∧ s.linkState link.val = 2)
    ∧ (∃ (s : State) (link : Fin 3) (seq : BitVec 12) (ack : BitVec 12) (packets : List GmlPkt), s.gml.links.length = 3 ∧
      s.linkState link.val = 2 ∧ seq.toNat ≠ (s.link link.val).rxNext % 4096)
    ∧ (∃ (s : State) (link : Fin 3) (seq : BitVec 12) (ack : BitVec 12), s.gml.links.length = 3 ∧ s.linkState link.val = 2 ∧
      seq.toNat = (s.link link.val).rxNext % 4096)
    ∧ (∃ (s : State) (link : Fin 3) (seq : BitVec 12) (ack : BitVec 12) (p : GmlPkt), s.gml.links.length = 3 ∧ s.linkState
      link.val = 2 ∧ seq.toNat = (s.link link.val).rxNext % 4096 ∧ pktDst p = some s.device ∧ (pktKind p = 3 ∨ pktKind p = 4 ∨
      pktKind p = 6 ∨ pktKind p = 7))
    ∧ (∃ (s : State) (link : Fin 3) (seq : BitVec 12) (ack : BitVec 12) (packets : List GmlPkt), s.gml.links.length = 3 ∧
      s.linkState link.val = 2)
    ∧ (∃ (s : State) (link : Fin 3) (seq : BitVec 12), ((s.linkState link.val != 2 || !(s.link link.val).tx.any (fun x => x.1 ==
      seq.toNat)) = true))
    ∧ (∃ (s : State) (link : Fin 3) (seq : BitVec 12), s.canonical = true ∧ s.gml.links.length = 3 ∧ ((s.linkState link.val != 2
      || !(s.link link.val).tx.any (fun x => x.1 == seq.toNat)) = false))
    ∧ (∃ (s : State) (link : Fin 3), s.linkState link.val ≠ 2)
    ∧ (∃ (s : State) (link : Fin 3), s.canonical = true ∧ s.linkState link.val = 2)
    ∧ (∃ (s : State) (link : Fin 3) (lanes : BitVec 8), s.linkState link.val ≠ 3)
    ∧ (∃ (s : State) (link : Fin 3) (lanes : BitVec 8) (h : Nat), s.canonical = true ∧ s.gml.links.length = 3 ∧ s.linkState
      link.val = 3 ∧ lanesHalf (s.fld (Reg.GML_STATUS link.val) F.GML_STATUS.HALF) lanes.toNat = some h)
    ∧ (∃ (s : State) (link : Fin 3) (lanes : BitVec 8), s.canonical = true ∧ s.gml.links.length = 3 ∧ s.linkState link.val = 3 ∧
      lanesHalf (s.fld (Reg.GML_STATUS link.val) F.GML_STATUS.HALF) lanes.toNat = none)
    ∧ (∃ (s : State) (link : Fin 3), s.canonical = true ∧ (s.linkState link.val == 4 && !(s.link link.val).refused && !(s.unit
      (linkUnit link.val)).fenced) = true)
    ∧ (∃ (s : State) (link : Fin 3), (s.linkState link.val == 4 && !(s.link link.val).refused && !(s.unit (linkUnit
      link.val)).fenced) = false)
    ∧ (∃ (s : State) (link : Fin 3) (offset : Int) (delay : Nat), s.linkState link.val ≠ 2)
    ∧ (∃ (s : State) (link : Fin 3) (offset : Int) (delay : Nat), s.canonical = true ∧ s.linkState link.val = 2) :=
  ⟨⟨(paired 2 []), 0, none, by decide⟩,
   ⟨(paired 1 []), 0, 1, by decide, by decide, by decide⟩,
   ⟨(paired 1 []), 0, 1, (⟨2, 1, false, 0, [], 0⟩), by decide, by decide, by decide, by decide, by decide⟩,
   ⟨(paired 1 []), 0, 1, (⟨1, 1, false, (paired 1 []).reg Reg.SYS_ID, [], 0⟩), by decide, by decide, by decide, by decide, by decide⟩,
   ⟨(paired 3 []), 0, 0, 0, true, ([]), by decide⟩,
   ⟨(paired 2 []), 0, 0, 0, ([]), by decide, by decide, by decide⟩,
   ⟨(paired 2 []), 0, 1, 0, ([]), by decide, by decide, by decide⟩,
   ⟨(paired 2 []), 0, 0, 0, by decide, by decide, by decide⟩,
   ⟨(paired 2 []), 0, 0, 0, (.drain 1 0 7), by decide, by decide, by decide, by decide, by decide⟩,
   ⟨(paired 2 []), 0, 0, 0, ([.goingDown 1]), by decide, by decide⟩,
   ⟨(paired 2 []), 0, 4, by decide⟩,
   ⟨((paired 2 []).modLink 0 (fun l => { l with tx := [(4, [.goingDown 0])] })), 0, 4, by decide, by decide, by decide⟩,
   ⟨(paired 3 []), 0, by decide⟩,
   ⟨(paired 2 []), 0, by decide, by decide⟩,
   ⟨(paired 2 []), 0, 0xFF, by decide⟩,
   ⟨(paired 3 []), 0, 0x0F, 1, by decide, by decide, by decide, by decide⟩,
   ⟨(paired 3 []), 0, 0x11, by decide, by decide, by decide, by decide⟩,
   ⟨(paired 4 []), 0, by decide, by decide⟩,
   ⟨(paired 2 []), 0, by decide⟩,
   ⟨(paired 3 []), 0, 5, 7, by decide⟩,
   ⟨(paired 2 []), 0, (-50000), 70000, by decide, by decide⟩⟩

theorem test_Partners_witness :
    (∃ (s : State) (u : State), u = s.commitShadows 0x800000 0x810000 ∧ s.gml.links.length = 3)
    ∧ (∃ (s : State) (peer : Fin 4), (s.isPartner peer.val = false ∨ s.isLost peer.val = true))
    ∧ (∃ (s : State) (peer : Fin 4), s.canonical = true ∧ s.isPartner peer.val = true ∧ s.isLost peer.val = false)
    ∧ (∃ (s : State) (link : Fin 3), s.linkPartner link.val = none)
    ∧ (∃ (s : State) (link : Fin 3) (e : Nat), s.canonical = true ∧ s.gml.links.length = 3 ∧ s.linkPartner link.val = some e)
    ∧ (∃ (s : State) (link : Fin 3), (s.linkPartner link.val = none ∨ (s.link link.val).senseAt = none))
    ∧ (∃ (s : State) (link : Fin 3) (e : Nat) (a : Nat), s.canonical = true ∧ s.gml.links.length = 3 ∧ s.linkPartner link.val =
      some e ∧ (s.link link.val).senseAt = some a)
    ∧ (∃ (s : State) (peer : Fin 4), ((s.gml.heard[peer.val]?).join.isNone || !s.isPartner peer.val || s.isLost peer.val ||
      s.isUnreachable peer.val) = true)
    ∧ (∃ (s : State) (peer : Fin 4) (a : Nat), s.canonical = true ∧ (s.gml.heard[peer.val]?).join = some a ∧ (!s.isPartner
      peer.val || s.isLost peer.val || s.isUnreachable peer.val) = false)
    ∧ (∃ (s : State) (peer : Fin 4), ((peer.val == s.device || decide (s.deviceCount ≤ peer.val) || s.gml.outstanding.any (fun x
      => x.peer == peer.val && x.status == 0 && s.gml.routes.getD peer.val none == some x.link && s.newRoute peer.val != some
      x.link)) = true))
    ∧ (∃ (s : State) (peer : Fin 4), s.canonical = true ∧ s.gml.routes.length = 4 ∧ ((peer.val == s.device || decide
      (s.deviceCount ≤ peer.val) || s.gml.outstanding.any (fun x => x.peer == peer.val && x.status == 0 && s.gml.routes.getD
      peer.val none == some x.link && s.newRoute peer.val != some x.link)) = false))
    ∧ (∃ (s : State), s.journal.forward = [])
    ∧ (∃ (s : State) (x : Nat × JRec) (l : List (Nat × JRec)), s.journal.forward = x :: l) :=
  ⟨⟨(paired 2 []), _, rfl, by decide⟩,
   ⟨(paired 2 []), 2, by decide⟩,
   ⟨(paired 2 []), 1, by decide, by decide, by decide⟩,
   ⟨(paired 2 []), 1, by decide⟩,
   ⟨(paired 2 []), 0, 1, by decide, by decide, by decide⟩,
   ⟨(paired 2 []), 1, by decide⟩,
   ⟨(paired 2 []), 0, 1, 700, by decide, by decide, by decide, by decide⟩,
   ⟨(paired 2 []), 2, by decide⟩,
   ⟨(paired 2 []), 1, 400, by decide, by decide, by decide⟩,
   ⟨(paired 2 []), 2, by decide⟩,
   ⟨(paired 2 []), 1, by decide, by decide, by decide⟩,
   ⟨(up 11), by decide⟩,
   ⟨({ up 11 with journal := { (up 11).journal with forward := [(7, { JRec.ofBytes [] with ts := 5 })] } }), ((7, { JRec.ofBytes [] with ts := 5 })), ([]), by decide⟩⟩

theorem test_RemoteTraffic_witness :
    (∃ (s : State) (link : Fin 3), s.waiting? link.val 3 = none)
    ∧ (∃ (s : State) (link : Fin 3), s.waiting? link.val 4 = none)
    ∧ (∃ (s : State) (link : Fin 3), s.waiting? link.val 6 = none)
    ∧ (∃ (s : State) (link : Fin 3), s.waiting? link.val 7 = none)
    ∧ (∃ (s : State) (link : Fin 3) (p : GmlPkt) (src : Fin 4) (dst : Fin 4) (id : Nat) (keys : List (Nat × Word × Nat)) (j :
      Nat), s.gml.links.length = 3 ∧ p = .reserve src dst id keys ∧ s.waiting? link.val 3 = some p ∧ s.gml.routes.getD src.val
      none = some j ∧ j < 3)
    ∧ (∃ (s : State) (link : Fin 3) (p : GmlPkt) (src : Fin 4) (dst : Fin 4) (id : Nat) (code : Fin 3), s.gml.links.length = 3 ∧
      p = .answer src dst id code ∧ s.waiting? link.val 4 = some p ∧ (s.gml.asked.any (fun a => a.1 == id && a.2.1 == src.val
      && a.2.2 == 0) = false))
    ∧ (∃ (s : State) (link : Fin 3) (p : GmlPkt) (src : Fin 4) (dst : Fin 4) (id : Nat) (code : Fin 3), s.gml.links.length = 3 ∧
      p = .answer src dst id code ∧ s.waiting? link.val 4 = some p ∧ (s.gml.asked.any (fun a => a.1 == id && a.2.1 == src.val
      && a.2.2 == 0) = true) ∧ id < 4096 ∧ s.entry? id = none)
    ∧ (∃ (s : State) (link : Fin 3) (p : GmlPkt) (src : Fin 4) (dst : Fin 4) (id : Nat) (code : Fin 3), s.gml.links.length = 3 ∧
      p = .answer src dst id code ∧ s.waiting? link.val 4 = some p ∧ (s.gml.asked.any (fun a => a.1 == id && a.2.1 == src.val
      && a.2.2 == 0) = true))
    ∧ (∃ (s : State) (link : Fin 3) (p : GmlPkt) (src : Fin 4) (dst : Fin 4) (flag : Nat) (r : RingSt) (c : NodeSt × Nat),
      s.gml.links.length = 3 ∧ p = .drain src dst flag ∧ s.waiting? link.val 6 = some p ∧ (s.fgs.rings.find? (fun x =>
      x.remote.isNone && decide (x.rc.flagBase ≤ flag) && decide (flag < x.rc.flagBase + x.rc.slotCount)) = some r) ∧
      ((s.readers r).find? (fun c => c.1.peer == some src.val && !r.drained.contains (flag - r.rc.flagBase, c.1.rc.slot, c.2))
      = some c) ∧ (s.slotFlag flag).state = slotFull)
    ∧ (∃ (s : State) (link : Fin 3) (p : GmlPkt) (src : Fin 4) (dst : Fin 4) (flag : Nat), s.gml.links.length = 3 ∧ p = .drain
      src dst flag ∧ s.waiting? link.val 6 = some p ∧ ((s.slotFlag flag).state ≠ slotFull ∨ s.fgs.rings.find? (fun x =>
      x.remote.isNone && decide (x.rc.flagBase ≤ flag) && decide (flag < x.rc.flagBase + x.rc.slotCount)) = none))
    ∧ (∃ (s : State) (link : Fin 3) (p : GmlPkt) (src : Fin 4) (dst : Fin 4) (tag : Nat) (write : Bool) (addr : Nat) (len : Nat)
      (data : List Byte) (domain : BitVec 4) (held : Bool) (j : Nat), s.canonical = true ∧ s.gml.links.length = 3 ∧ p =
      .request src dst tag write addr len data domain held ∧ s.waiting? link.val 7 = some p ∧ s.gml.routes.getD src.val none =
      some j ∧ j < 3 ∧ (domain = 0 ∨ domain = 1 ∨ domain = 15))
    ∧ (∃ (s : State) (link : Fin 3) (p : GmlPkt) (src : Fin 4) (dst : Fin 4) (tag : Nat) (write : Bool) (addr : Nat) (len : Nat)
      (data : List Byte) (domain : BitVec 4) (held : Bool) (j : Nat), s.gml.links.length = 3 ∧ p = .request src dst tag write
      addr len data domain held ∧ s.waiting? link.val 7 = some p ∧ s.gml.routes.getD src.val none = some j ∧ j < 3 ∧ (¬ (domain
      = 0 ∨ domain = 1 ∨ domain = 15)) ∧ remoteMemory addr = false)
    ∧ (∃ (s : State) (link : Fin 3) (p : GmlPkt) (src : Fin 4) (dst : Fin 4) (tag : Nat) (write : Bool) (addr : Nat) (len : Nat)
      (data : List Byte) (domain : BitVec 4) (held : Bool) (j : Nat) (u : State), s.gml.links.length = 3 ∧ p = .request src dst
      tag write addr len data domain held ∧ s.waiting? link.val 7 = some p ∧ s.gml.routes.getD src.val none = some j ∧ j < 3 ∧
      (u = s.modLink link.val (fun l => { l with rx := l.rx.erase p })) ∧ (¬ (domain = 0 ∨ domain = 1 ∨ domain = 15)) ∧
      remoteMemory addr = true ∧ addr < 2 ^ 44 ∧ write = true ∧ (u.judgeWrites ⟨linkUnit link.val, domain.toNat, held⟩ [(addr,
      data.take len)]).2 = none)
    ∧ (∃ (s : State) (link : Fin 3) (p : GmlPkt) (src : Fin 4) (dst : Fin 4) (tag : Nat) (write : Bool) (addr : Nat) (len : Nat)
      (data : List Byte) (domain : BitVec 4) (held : Bool) (j : Nat) (u : State), s.gml.links.length = 3 ∧ p = .request src dst
      tag write addr len data domain held ∧ s.waiting? link.val 7 = some p ∧ s.gml.routes.getD src.val none = some j ∧ j < 3 ∧
      (u = s.modLink link.val (fun l => { l with rx := l.rx.erase p })) ∧ (¬ (domain = 0 ∨ domain = 1 ∨ domain = 15)) ∧
      remoteMemory addr = true ∧ write = false ∧ (u.judgeReads ⟨linkUnit link.val, domain.toNat, held⟩ [(addr, len)] false).2 =
      none)
    ∧ (∃ (s : State) (link : Fin 3) (p : GmlPkt) (src : Fin 4) (dst : Fin 4) (tag : Nat) (write : Bool) (addr : Nat) (len : Nat)
      (data : List Byte) (domain : BitVec 4) (held : Bool) (j : Nat) (u : State), s.gml.links.length = 3 ∧ p = .request src dst
      tag write addr len data domain held ∧ s.waiting? link.val 7 = some p ∧ s.gml.routes.getD src.val none = some j ∧ j < 3 ∧
      (u = s.modLink link.val (fun l => { l with rx := l.rx.erase p })) ∧ (¬ (domain = 0 ∨ domain = 1 ∨ domain = 15)) ∧
      remoteMemory addr = true ∧ ((if write then (u.judgeWrites ⟨linkUnit link.val, domain.toNat, held⟩ [(addr, data.take
      len)]).2 else (u.judgeReads ⟨linkUnit link.val, domain.toNat, held⟩ [(addr, len)] false).2).any (fun e => e.1 == .slot) =
      true))
    ∧ (∃ (s : State) (link : Fin 3) (p : GmlPkt) (src : Fin 4) (dst : Fin 4) (tag : Nat) (write : Bool) (addr : Nat) (len : Nat)
      (data : List Byte) (domain : BitVec 4) (held : Bool) (j : Nat) (u : State), s.gml.links.length = 3 ∧ p = .request src dst
      tag write addr len data domain held ∧ s.waiting? link.val 7 = some p ∧ s.gml.routes.getD src.val none = some j ∧ j < 3 ∧
      (u = s.modLink link.val (fun l => { l with rx := l.rx.erase p })) ∧ (¬ (domain = 0 ∨ domain = 1 ∨ domain = 15)) ∧
      remoteMemory addr = true ∧ ((if write then (u.judgeWrites ⟨linkUnit link.val, domain.toNat, held⟩ [(addr, data.take
      len)]).2 else (u.judgeReads ⟨linkUnit link.val, domain.toNat, held⟩ [(addr, len)] false).2).any (fun e => e.1 != .slot) =
      true)) :=
  ⟨⟨(paired 2 []), 0, by decide⟩,
   ⟨(paired 2 []), 0, by decide⟩,
   ⟨(paired 2 []), 0, by decide⟩,
   ⟨(paired 2 []), 0, by decide⟩,
   ⟨(paired 2 [.reserve 1 0 9 [(7, 5, 0)]]), 0, _, 1, 0, 9, ([(7, 5, 0)]), 0, by decide, rfl, by decide, by decide, by decide⟩,
   ⟨(paired 2 [.answer 1 0 9 0]), 0, _, 1, 0, 9, 0, by decide, rfl, by decide, by decide⟩,
   ⟨({ paired 2 [.answer 1 0 9 0] with gml := { (paired 2 [.answer 1 0 9 0]).gml with asked := [(9, 1, 0)] } }), 0, _, 1, 0, 9, 0, by decide, rfl, by decide, by decide, by decide, by decide⟩,
   ⟨({ paired 2 [.answer 1 0 9 2] with gml := { (paired 2 [.answer 1 0 9 2]).gml with asked := [(9, 1, 0)] } }), 0, _, 1, 0, 9, 2, by decide, rfl, by decide, by decide⟩,
   ⟨(({ paired 2 [.drain 1 0 7] with fgs := { (up 11).fgs with rings := [{ RingSt.void with rc := ⟨0, 1, 0, 0x1000, 64, 16, 1, 64, 0x23, 1, 7⟩, layer := 3, idx := 0 }], nodes := [{ wNode 0 false with rc := { nodeRec 0 false with inRings := [0] }, peer := some 1 }] } } : State).setFlagWord 7 0x8000000000000000), 0, _, 1, 0, 7, ({ RingSt.void with rc := ⟨0, 1, 0, 0x1000, 64, 16, 1, 64, 0x23, 1, 7⟩, layer := 3, idx := 0 }), (({ wNode 0 false with rc := { nodeRec 0 false with inRings := [0] }, peer := some 1 }, 0)), by decide, rfl, by decide, by decide, by decide, by decide⟩,
   ⟨(paired 2 [.drain 1 0 7]), 0, _, 1, 0, 7, by decide, rfl, by decide, by decide⟩,
   ⟨(paired 2 [.request 1 0 3 false addrFs 4 [] 0 false]), 0, _, 1, 0, 3, false, addrFs, 4, ([]), 0, false, 0, by decide, by decide, rfl, by decide, by decide, by decide, by decide⟩,
   ⟨(paired 2 [.request 1 0 3 false addrReg 4 [] 2 false]), 0, _, 1, 0, 3, false, addrReg, 4, ([]), 2, false, 0, by decide, rfl, by decide, by decide, by decide, by decide, by decide⟩,
   ⟨({ paired 2 [.request 1 0 3 true addrFs 2 [1, 2] 2 false] with safety := { (paired 2 []).safety with regions := [⟨0xC0, 0, true, false, true, 0, addrFs, 4, 0xFFFF, 0xFFFF, none⟩] } }), 0, _, 1, 0, 3, true, addrFs, 2, ([1, 2]), 2, false, 0, _, by decide, rfl, by decide, by decide, by decide, rfl, by decide, by decide, by decide, by decide, by decide⟩,
   ⟨({ paired 2 [.request 1 0 3 false addrFs 2 [] 2 false] with safety := { (paired 2 []).safety with regions := [⟨0xC0, 0, true, false, true, 0, addrFs, 4, 0xFFFF, 0xFFFF, none⟩] } }), 0, _, 1, 0, 3, false, addrFs, 2, ([]), 2, false, 0, _, by decide, rfl, by decide, by decide, by decide, rfl, by decide, by decide, by decide, by decide⟩,
   ⟨({ ({ paired 2 [.request 1 0 3 false addrFs 2 [] 2 true] with safety := { (paired 2 []).safety with regions := [⟨0xC0, 0, true, false, true, 0, addrFs, 4, 0xFFFF, 0xFFFF, none⟩] } } : State) with fgs := { (up 11).fgs with rings := [{ RingSt.void with rc := ⟨0, 1, 0, 0, 64, 16, 1, 64, 0x23, 1, 0⟩ }] } }), 0, _, 1, 0, 3, false, addrFs, 2, ([]), 2, true, 0, _, by decide, rfl, by decide, by decide, by decide, rfl, by decide, by decide, by decide⟩,
   ⟨(paired 2 [.request 1 0 3 false addrFs 4 [] 2 false]), 0, _, 1, 0, 3, false, addrFs, 4, ([]), 2, false, 0, _, by decide, rfl, by decide, by decide, by decide, rfl, by decide, by decide, by decide⟩⟩

theorem test_RegisterWrites_witness :
    (∃ (s : State) (bank : Fin 6) (domain : BitVec 4) (offset : BitVec 24) (value : Word), (s.coreUp = false ∨ inBlock
      (regAlias offset.toNat) = false))
    ∧ (∃ (s : State) (bank : Fin 6) (domain : BitVec 4) (offset : BitVec 24) (value : Word) (o : Nat), s.canonical = true ∧ o =
      regAlias offset.toNat ∧ s.coreUp = true ∧ inBlock o = true ∧ s.mayWrite bank.val domain.toNat o = false)
    ∧ (∃ (s : State) (bank : Fin 6) (domain : BitVec 4) (offset : BitVec 24) (value : Word) (o : Nat), o = regAlias offset.toNat
      ∧ s.coreUp = true ∧ inBlock o = true ∧ s.mayWrite bank.val domain.toNat o = true ∧ regSpec? o = none)
    ∧ (∃ (s : State) (bank : Fin 6) (domain : BitVec 4) (offset : BitVec 24) (value : Word) (o : Nat) (x : Res), o = regAlias
      offset.toNat ∧ s.coreUp = true ∧ inBlock o = true ∧ s.mayWrite bank.val domain.toNat o = true ∧ (regSpec? o).isSome =
      true ∧ x = (s.ownRow bank.val domain o value).getD (.next s) ∧ (s.ownRow bank.val domain o value).isSome = true)
    ∧ (∃ (s : State) (bank : Fin 6) (domain : BitVec 4) (offset : BitVec 24) (value : Word) (o : Nat) (n : Nat), o = regAlias
      offset.toNat ∧ s.coreUp = true ∧ inBlock o = true ∧ s.mayWrite bank.val domain.toNat o = true ∧ (regSpec? o).isSome =
      true ∧ (s.ownRow bank.val domain o value).isNone = true ∧ s.cvuBusy o = some n)
    ∧ (∃ (s : State) (bank : Fin 6) (domain : BitVec 4) (offset : BitVec 24) (value : Word) (o : Nat), o = regAlias offset.toNat
      ∧ s.coreUp = true ∧ inBlock o = true ∧ s.mayWrite bank.val domain.toNat o = true ∧ (s.ownRow bank.val domain o
      value).isNone = true ∧ s.cvuBusy o = none ∧ ((bankZeroOnly o && ((pairRegs o).map (fun n => (s.core n).bank != 0)).getD
      false) = true))
    ∧ (∃ (s : State) (bank : Fin 6) (domain : BitVec 4) (offset : BitVec 24) (value : Word) (o : Nat) (r : RegSpec), s.canonical
      = true ∧ o = regAlias offset.toNat ∧ s.coreUp = true ∧ inBlock o = true ∧ s.mayWrite bank.val domain.toNat o = true ∧
      regSpec? o = some r ∧ (s.ownRow bank.val domain o value).isNone = true ∧ s.cvuBusy o = none ∧ ((bankZeroOnly o &&
      ((pairRegs o).map (fun n => (s.core n).bank != 0)).getD false) = false)) :=
  ⟨⟨(up 5), 4, 0, 0x50000, 1, by decide⟩,
   ⟨(up 11), 4, 3, 0x100, 1, _, by decide, rfl, by decide, by decide, by decide⟩,
   ⟨(up 11), 4, 0, 0x0FFC, 1, _, rfl, by decide, by decide, by decide, by decide⟩,
   ⟨(up 11), 4, 0, ((BitVec.ofNat 24 Reg.ICU_SWI_SET)), 0, _, _, rfl, by decide, by decide, by decide, by decide, rfl, by decide⟩,
   ⟨((up 11).setFld (Reg.CVU_STATUS 2) F.CVU_STATUS.STATE 1), 4, 0, 0x3200C, 1, _, 2, rfl, by decide, by decide, by decide, by decide, by decide, by decide⟩,
   ⟨((up 11).modCore 1 (fun c => { c with bank := 2 })), 4, 0, 0x844, 1, _, rfl, by decide, by decide, by decide, by decide, by decide, by decide⟩,
   ⟨(up 11), 4, 0, 0x14, 5, _, ((regSpec? 0x14).getD ⟨"", 0, [], 0, []⟩), by decide, rfl, by decide, by decide, by decide, by decide, by decide, by decide, by decide⟩⟩

theorem test_CommitsAndApertures_witness :
    (∃ (s : State) (blk : ShBlock), s.canonical = true ∧ blk ≠ .gml)
    ∧ (∃ (s : State), s.canonical = true)
    ∧ (∃ (s : State) (pair : Fin 4) (offset : BitVec 8) (value : Word), s.canonical = true ∧ ((s.core pair.val).bank == 0 &&
      offset.toNat % 4 == 0 && decide (offset.toNat < 0x40)) = true)
    ∧ (∃ (s : State) (pair : Fin 4) (offset : BitVec 8) (value : Word), ((s.core pair.val).bank == 0 && offset.toNat % 4 == 0 &&
      decide (offset.toNat < 0x40)) = false) :=
  ⟨⟨({ up 11 with shadow := [(Reg.EJ_STREAM_CTRL, 1)] }), .ej, by decide, by decide⟩,
   ⟨({ up 11 with shadow := [(Reg.GML_FWD, 1)] }), by decide⟩,
   ⟨(up 11), 1, 0x14, 0x80000123, by decide, by decide⟩,
   ⟨((up 11).modCore 1 (fun c => { c with bank := 2 })), 1, 0x14, 0x80000123, by decide⟩⟩

theorem test_CoreAccesses_witness :
    (∃ (s : State) (pair : Fin 4) (kind : AccessKind) (rd : Fin 32) (pc : Word) (addr : Word) (value : Word) (size : Fin 3)
      (ecc : List EccHit), ((s.core pair.val).halted || (s.unit (0x0B00 + pair.val)).fenced || !s.coreUp) = true)
    ∧ (∃ (s : State) (pair : Fin 4) (rd : Fin 32) (pc : Word) (addr : Word) (value : Word) (size : Fin 3) (ecc : List EccHit)
      (zext : Bool) (off : Nat), s.cores.length = 4 ∧ (s.core pair.val).halted = false ∧ (s.unit (0x0B00 + pair.val)).fenced =
      false ∧ s.coreUp = true ∧ s.coreView pair.val (s.core pair.val).bank addr.toNat = .own off ∧ (ecc.all (fun h => h.ue ||
      !inRange h.addr (localBase pair.val) 0x40000) = true) ∧ s.windowAdmits pair.val (s.core pair.val).bank off (accBytes
      size) = true ∧ off + (accBytes size) ≤ 0x40000 ∧ (s.core pair.val).bank < (s.core pair.val).banks.length ∧ (((s.core
      pair.val).banks.all (fun b => decide (b.x.length = 31) && decide (b.f.length = 32))) = true))
    ∧ (∃ (s : State) (pair : Fin 4) (rd : Fin 32) (pc : Word) (addr : Word) (value : Word) (size : Fin 3) (ecc : List EccHit)
      (zext : Bool) (off : Nat), s.cores.length = 4 ∧ (s.core pair.val).halted = false ∧ (s.unit (0x0B00 + pair.val)).fenced =
      false ∧ s.coreUp = true ∧ s.coreView pair.val (s.core pair.val).bank addr.toNat = .own off ∧ (ecc.all (fun h => h.ue ||
      !inRange h.addr (localBase pair.val) 0x40000) = true) ∧ s.windowAdmits pair.val (s.core pair.val).bank off (accBytes
      size) = true ∧ off + (accBytes size) ≤ 0x40000 ∧ (s.core pair.val).bank < (s.core pair.val).banks.length ∧ (((s.core
      pair.val).banks.all (fun b => decide (b.x.length = 31) && decide (b.f.length = 32))) = true))
    ∧ (∃ (s : State) (pair : Fin 4) (rd : Fin 32) (pc : Word) (addr : Word) (value : Word) (size : Fin 3) (ecc : List EccHit)
      (off : Nat), s.cores.length = 4 ∧ (s.core pair.val).halted = false ∧ (s.unit (0x0B00 + pair.val)).fenced = false ∧
      s.coreUp = true ∧ s.coreView pair.val (s.core pair.val).bank addr.toNat = .own off ∧ (ecc.all (fun h => h.ue || !inRange
      h.addr (localBase pair.val) 0x40000) = true) ∧ s.windowAdmits pair.val (s.core pair.val).bank off (accBytes size) = true
      ∧ off + (accBytes size) ≤ 0x40000)
    ∧ (∃ (s : State) (pair : Fin 4) (rd : Fin 32) (pc : Word) (addr : Word) (value : Word) (size : Fin 3) (ecc : List EccHit) (op
      : Fin 9) (off : Nat), s.cores.length = 4 ∧ (s.core pair.val).halted = false ∧ (s.unit (0x0B00 + pair.val)).fenced = false
      ∧ s.coreUp = true ∧ s.coreView pair.val (s.core pair.val).bank addr.toNat = .own off ∧ (ecc.all (fun h => h.ue ||
      !inRange h.addr (localBase pair.val) 0x40000) = true) ∧ s.windowAdmits pair.val (s.core pair.val).bank off 4 = true ∧ off
      + 4 ≤ 0x40000 ∧ addr.toNat % 4 = 0 ∧ (s.core pair.val).bank < (s.core pair.val).banks.length ∧ (((s.core
      pair.val).banks.all (fun b => decide (b.x.length = 31) && decide (b.f.length = 32))) = true))
    ∧ (∃ (s : State) (pair : Fin 4) (rd : Fin 32) (pc : Word) (addr : Word) (value : Word) (size : Fin 3) (ecc : List EccHit)
      (off : Nat), s.cores.length = 4 ∧ (s.core pair.val).halted = false ∧ (s.unit (0x0B00 + pair.val)).fenced = false ∧
      s.coreUp = true ∧ s.coreView pair.val (s.core pair.val).bank addr.toNat = .own off ∧ (ecc.all (fun h => h.ue || !inRange
      h.addr (localBase pair.val) 0x40000) = true) ∧ s.windowAdmits pair.val (s.core pair.val).bank off 4 = true ∧ off + 4 ≤
      0x40000 ∧ addr.toNat % 4 = 0 ∧ (s.core pair.val).bank < (s.core pair.val).banks.length ∧ (((s.core pair.val).banks.all
      (fun b => decide (b.x.length = 31) && decide (b.f.length = 32))) = true))
    ∧ (∃ (s : State) (pair : Fin 4) (rd : Fin 32) (pc : Word) (addr : Word) (value : Word) (size : Fin 3) (ecc : List EccHit)
      (off : Nat), s.cores.length = 4 ∧ (s.core pair.val).halted = false ∧ (s.unit (0x0B00 + pair.val)).fenced = false ∧
      s.coreUp = true ∧ s.coreView pair.val (s.core pair.val).bank addr.toNat = .own off ∧ (ecc.all (fun h => h.ue || !inRange
      h.addr (localBase pair.val) 0x40000) = true) ∧ s.windowAdmits pair.val (s.core pair.val).bank off 4 = true ∧ off + 4 ≤
      0x40000 ∧ addr.toNat % 4 = 0 ∧ (s.core pair.val).bank < (s.core pair.val).banks.length ∧ (((s.core pair.val).banks.all
      (fun b => decide (b.x.length = 31) && decide (b.f.length = 32))) = true))
    ∧ (∃ (s : State) (pair : Fin 4) (kind : AccessKind) (rd : Fin 32) (pc : Word) (addr : Word) (value : Word) (size : Fin 3)
      (ecc : List EccHit) (off : Nat), s.canonical = true ∧ s.cores.length = 4 ∧ (s.core pair.val).halted = false ∧ (s.unit
      (0x0B00 + pair.val)).fenced = false ∧ s.coreUp = true ∧ s.coreView pair.val (s.core pair.val).bank addr.toNat = .own off
      ∧ (s.windowAdmits pair.val (s.core pair.val).bank off (if atomicKind kind then 4 else accBytes size) = false ∨ 0x40000 <
      off + (if atomicKind kind then 4 else accBytes size)))
    ∧ (∃ (s : State) (pair : Fin 4) (kind : AccessKind) (rd : Fin 32) (pc : Word) (addr : Word) (value : Word) (size : Fin 3)
      (ecc : List EccHit) (off : Nat), s.canonical = true ∧ s.cores.length = 4 ∧ (s.core pair.val).halted = false ∧ (s.unit
      (0x0B00 + pair.val)).fenced = false ∧ s.coreUp = true ∧ s.coreView pair.val (s.core pair.val).bank addr.toNat = .own off
      ∧ s.windowAdmits pair.val (s.core pair.val).bank off 4 = true ∧ off + 4 ≤ 0x40000 ∧ atomicKind kind = true ∧ addr.toNat %
      4 ≠ 0)
    ∧ (∃ (s : State) (pair : Fin 4) (kind : AccessKind) (rd : Fin 32) (pc : Word) (addr : Word) (value : Word) (size : Fin 3)
      (ecc : List EccHit) (off : Nat), s.canonical = true ∧ s.cores.length = 4 ∧ (s.core pair.val).halted = false ∧ (s.unit
      (0x0B00 + pair.val)).fenced = false ∧ s.coreUp = true ∧ ((s.coreView pair.val (s.core pair.val).bank addr.toNat =
      .unmapped ∨ ((s.coreView pair.val (s.core pair.val).bank addr.toNat = .regs off ∨ s.coreView pair.val (s.core
      pair.val).bank addr.toNat = .fabric off) ∧ (atomicKind kind || kind == .fetch) = true))))
    ∧ (∃ (s : State) (pair : Fin 4) (kind : AccessKind) (rd : Fin 32) (pc : Word) (addr : Word) (value : Word) (size : Fin 3)
      (ecc : List EccHit) (off : Nat), s.canonical = true ∧ s.cores.length = 4 ∧ (s.core pair.val).halted = false ∧ (s.unit
      (0x0B00 + pair.val)).fenced = false ∧ s.coreUp = true ∧ (s.coreView pair.val (s.core pair.val).bank addr.toNat = .regs
      off ∨ s.coreView pair.val (s.core pair.val).bank addr.toNat = .fabric off) ∧ (atomicKind kind || kind == .fetch) = false
      ∧ addr.toNat % accBytes size ≠ 0)
    ∧ (∃ (s : State) (pair : Fin 4) (rd : Fin 32) (pc : Word) (addr : Word) (value : Word) (size : Fin 3) (ecc : List EccHit)
      (zext : Bool) (off : Nat) (v : Word), s.cores.length = 4 ∧ (s.core pair.val).halted = false ∧ (s.unit (0x0B00 +
      pair.val)).fenced = false ∧ s.coreUp = true ∧ s.coreView pair.val (s.core pair.val).bank addr.toNat = .regs off ∧
      addr.toNat % accBytes size = 0 ∧ (s.readReg pair.val (s.bankDomain pair.val (s.core pair.val).bank) (off / 4 * 4)).2 =
      some v ∧ (s.core pair.val).bank < (s.core pair.val).banks.length ∧ (((s.core pair.val).banks.all (fun b => decide
      (b.x.length = 31) && decide (b.f.length = 32))) = true))
    ∧ (∃ (s : State) (pair : Fin 4) (rd : Fin 32) (pc : Word) (addr : Word) (value : Word) (size : Fin 3) (ecc : List EccHit)
      (zext : Bool) (off : Nat), s.canonical = true ∧ s.cores.length = 4 ∧ (s.core pair.val).halted = false ∧ (s.unit (0x0B00 +
      pair.val)).fenced = false ∧ s.coreUp = true ∧ s.coreView pair.val (s.core pair.val).bank addr.toNat = .regs off ∧
      addr.toNat % accBytes size = 0 ∧ (s.readReg pair.val (s.bankDomain pair.val (s.core pair.val).bank) (off / 4 * 4)).2 =
      none)
    ∧ (∃ (s : State) (pair : Fin 4) (rd : Fin 32) (pc : Word) (addr : Word) (value : Word) (ecc : List EccHit) (off : Nat),
      s.cores.length = 4 ∧ (s.core pair.val).halted = false ∧ (s.unit (0x0B00 + pair.val)).fenced = false ∧ s.coreUp = true ∧
      s.coreView pair.val (s.core pair.val).bank addr.toNat = .regs off ∧ addr.toNat % 4 = 0 ∧ (s.writeReg pair.val
      (BitVec.ofNat 4 (s.bankDomain pair.val (s.core pair.val).bank)) (off / 4 * 4) value).2 = true)
    ∧ (∃ (s : State) (pair : Fin 4) (rd : Fin 32) (pc : Word) (addr : Word) (value : Word) (ecc : List EccHit) (off : Nat),
      s.canonical = true ∧ s.cores.length = 4 ∧ (s.core pair.val).halted = false ∧ (s.unit (0x0B00 + pair.val)).fenced = false
      ∧ s.coreUp = true ∧ s.coreView pair.val (s.core pair.val).bank addr.toNat = .regs off ∧ addr.toNat % 4 = 0 ∧ (s.writeReg
      pair.val (BitVec.ofNat 4 (s.bankDomain pair.val (s.core pair.val).bank)) (off / 4 * 4) value).2 = false)
    ∧ (∃ (s : State) (pair : Fin 4) (rd : Fin 32) (pc : Word) (addr : Word) (value : Word) (size : Fin 3) (ecc : List EccHit)
      (zext : Bool) (g : Nat), s.cores.length = 4 ∧ (s.core pair.val).halted = false ∧ (s.unit (0x0B00 + pair.val)).fenced =
      false ∧ s.coreUp = true ∧ s.coreView pair.val (s.core pair.val).bank addr.toNat = .fabric g ∧ addr.toNat % accBytes size
      = 0 ∧ (s.judgeReads ⟨0x0B00 + pair.val, (s.bankDomain pair.val (s.core pair.val).bank), false⟩ [(g, accBytes size)]
      false).2 = none ∧ isRemote g = false ∧ ecc = [] ∧ (s.core pair.val).bank < (s.core pair.val).banks.length ∧ (((s.core
      pair.val).banks.all (fun b => decide (b.x.length = 31) && decide (b.f.length = 32))) = true))
    ∧ (∃ (s : State) (pair : Fin 4) (rd : Fin 32) (pc : Word) (addr : Word) (value : Word) (size : Fin 3) (ecc : List EccHit)
      (zext : Bool) (g : Nat), s.cores.length = 4 ∧ (s.core pair.val).halted = false ∧ (s.unit (0x0B00 + pair.val)).fenced =
      false ∧ s.coreUp = true ∧ s.coreView pair.val (s.core pair.val).bank addr.toNat = .fabric g ∧ addr.toNat % accBytes size
      = 0 ∧ ((s.judgeReads ⟨0x0B00 + pair.val, (s.bankDomain pair.val (s.core pair.val).bank), false⟩ [(g, accBytes size)]
      false).2.any (fun e => e.1 == .pending) = true))
    ∧ (∃ (s : State) (pair : Fin 4) (rd : Fin 32) (pc : Word) (addr : Word) (value : Word) (size : Fin 3) (ecc : List EccHit)
      (zext : Bool) (g : Nat), s.canonical = true ∧ s.cores.length = 4 ∧ (s.core pair.val).halted = false ∧ (s.unit (0x0B00 +
      pair.val)).fenced = false ∧ s.coreUp = true ∧ s.coreView pair.val (s.core pair.val).bank addr.toNat = .fabric g ∧
      addr.toNat % accBytes size = 0 ∧ ((s.judgeReads ⟨0x0B00 + pair.val, (s.bankDomain pair.val (s.core pair.val).bank),
      false⟩ [(g, accBytes size)] false).2.any (fun e => e.1 != .pending) = true))
    ∧ (∃ (s : State) (pair : Fin 4) (rd : Fin 32) (pc : Word) (addr : Word) (value : Word) (size : Fin 3) (ecc : List EccHit) (g
      : Nat), s.cores.length = 4 ∧ (s.core pair.val).halted = false ∧ (s.unit (0x0B00 + pair.val)).fenced = false ∧ s.coreUp =
      true ∧ s.coreView pair.val (s.core pair.val).bank addr.toNat = .fabric g ∧ addr.toNat % accBytes size = 0 ∧ ((s.endRemote
      (0x0B00 + pair.val)).judgeWrites ⟨0x0B00 + pair.val, (s.bankDomain pair.val (s.core pair.val).bank), false⟩ [(g, leBytes
      (accBytes size) value.toNat)]).2 = none ∧ isRemote g = false)
    ∧ (∃ (s : State) (pair : Fin 4) (rd : Fin 32) (pc : Word) (addr : Word) (value : Word) (size : Fin 3) (ecc : List EccHit) (g
      : Nat), s.canonical = true ∧ s.cores.length = 4 ∧ (s.core pair.val).halted = false ∧ (s.unit (0x0B00 + pair.val)).fenced
      = false ∧ s.coreUp = true ∧ s.coreView pair.val (s.core pair.val).bank addr.toNat = .fabric g ∧ addr.toNat % accBytes
      size = 0 ∧ (((s.endRemote (0x0B00 + pair.val)).judgeWrites ⟨0x0B00 + pair.val, (s.bankDomain pair.val (s.core
      pair.val).bank), false⟩ [(g, leBytes (accBytes size) value.toNat)]).2.any (fun e => e.1 != .pending) = true) ∧ isRemote g
      = false)
    ∧ (∃ (s : State) (pair : Fin 4) (kind : AccessKind) (rd : Fin 32) (pc : Word) (addr : Word) (value : Word) (size : Fin 3)
      (ecc : List EccHit) (off : Nat) (h : Nat), s.canonical = true ∧ s.cores.length = 4 ∧ (s.core pair.val).halted = false ∧
      (s.unit (0x0B00 + pair.val)).fenced = false ∧ s.coreUp = true ∧ s.coreView pair.val (s.core pair.val).bank addr.toNat =
      .own off ∧ (s.windowAdmits pair.val (s.core pair.val).bank off (if atomicKind kind then 4 else accBytes size) = true) ∧
      (off + (if atomicKind kind then 4 else accBytes size) ≤ 0x40000) ∧ (atomicKind kind = true → addr.toNat % 4 = 0) ∧ ecc =
      [⟨h, false⟩] ∧ inRange h (localBase pair.val) 0x40000 = true ∧ ((assocGet s.mm.ceTimes (0x0B00 + pair.val)).getD
      []).length < 1023)
    ∧ (∃ (s : State) (pair : Fin 4) (rd : Fin 32) (pc : Word) (addr : Word) (value : Word) (size : Fin 3) (ecc : List EccHit)
      (zext : Bool) (g : Nat) (h : Nat), s.canonical = true ∧ s.cores.length = 4 ∧ (s.core pair.val).halted = false ∧ (s.unit
      (0x0B00 + pair.val)).fenced = false ∧ s.coreUp = true ∧ s.coreView pair.val (s.core pair.val).bank addr.toNat = .fabric g
      ∧ addr.toNat % accBytes size = 0 ∧ (s.judgeReads ⟨0x0B00 + pair.val, (s.bankDomain pair.val (s.core pair.val).bank),
      false⟩ [(g, accBytes size)] false).2 = none ∧ isRemote g = false ∧ ecc = [⟨h, true⟩] ∧ inRange h addrFs fsBytes = true ∧
      (assocGet s.mm.ueAt (pairOf h)).isNone = true ∧ isSafety (s.bankDomain pair.val (s.core pair.val).bank) = false) :=
  ⟨⟨((up 11).modCore 0 (fun c => { c with halted := true })), 0, .store, 0, 0, 0, 0, 2, ([]), by decide⟩,
   ⟨(({ up 11 with units := [wUnit 0x0B00 none] } : State)), 0, 5, 0x100, 0x10, 9, 1, ([]), false, 0x10, by decide, by decide, by decide, by decide, by decide, by decide, by decide, by decide, by decide, by decide⟩,
   ⟨(({ up 11 with units := [wUnit 0x0B00 none] } : State)), 0, 5, 0x100, 0x10, 9, 2, ([]), false, 0x10, by decide, by decide, by decide, by decide, by decide, by decide, by decide, by decide, by decide, by decide⟩,
   ⟨(({ up 11 with units := [wUnit 0x0B00 none] } : State)), 0, 5, 0x100, 0x10, 9, 1, ([]), 0x10, by decide, by decide, by decide, by decide, by decide, by decide, by decide, by decide⟩,
   ⟨(({ up 11 with units := [wUnit 0x0B00 none] } : State)), 0, 5, 0x100, 0x10, 9, 2, ([]), 1, 0x10, by decide, by decide, by decide, by decide, by decide, by decide, by decide, by decide, by decide, by decide, by decide⟩,
   ⟨(({ up 11 with units := [wUnit 0x0B00 none] } : State)), 0, 5, 0x100, 0x10, 9, 2, ([]), 0x10, by decide, by decide, by decide, by decide, by decide, by decide, by decide, by decide, by decide, by decide, by decide⟩,
   ⟨(({ up 11 with units := [wUnit 0x0B00 none] } : State).modCore 0 (fun c => { c with resv := some 0x10 })), 0, 5, 0x100, 0x10, 9, 2, ([]), 0x10, by decide, by decide, by decide, by decide, by decide, by decide, by decide, by decide, by decide, by decide, by decide⟩,
   ⟨(({ up 11 with units := [wUnit 0x0B00 none] } : State).modCore 0 (fun c => { c with bank := 2 })), 0, .store, 5, 0x100, 0x10, 9, 1, ([]), 0x10, by decide, by decide, by decide, by decide, by decide, by decide, by decide⟩,
   ⟨(({ up 11 with units := [wUnit 0x0B00 none] } : State).modCore 0 (fun c => { c with bank := 0 })), 0, (.amo 1), 5, 0x100, 0x12, 9, 2, ([]), 0x12, by decide, by decide, by decide, by decide, by decide, by decide, by decide, by decide, by decide, by decide⟩,
   ⟨(({ up 11 with units := [wUnit 0x0B00 none] } : State).modCore 0 (fun c => { c with bank := 2 })), 0, .fetch, 5, 0x100, 0x20000000, 9, 2, ([]), 0, by decide, by decide, by decide, by decide, by decide, by decide⟩,
   ⟨(({ up 11 with units := [wUnit 0x0B00 none] } : State).modCore 0 (fun c => { c with bank := 2 })), 0, .store, 5, 0x100, 0x20000002, 9, 2, ([]), 2, by decide, by decide, by decide, by decide, by decide, by decide, by decide, by decide⟩,
   ⟨(({ up 11 with units := [wUnit 0x0B00 none] } : State)), 0, 5, 0x100, 0x20000004, 9, 2, ([]), false, 4, ((({ up 11 with units := [wUnit 0x0B00 none] } : State).readReg 0 0 4).2.getD 0), by decide, by decide, by decide, by decide, by decide, by decide, by decide, by decide, by decide⟩,
   ⟨(({ up 11 with units := [wUnit 0x0B00 none] } : State)), 0, 5, 0x100, 0x20050000, 9, 2, ([]), false, 0x50000, by decide, by decide, by decide, by decide, by decide, by decide, by decide, by decide⟩,
   ⟨(({ up 11 with units := [wUnit 0x0B00 none] } : State)), 0, 5, 0x100, 0x20000400, 9, ([]), 0x400, by decide, by decide, by decide, by decide, by decide, by decide, by decide⟩,
   ⟨(({ up 11 with units := [wUnit 0x0B00 none] } : State)), 0, 5, 0x100, 0x20050000, 9, ([]), 0x50000, by decide, by decide, by decide, by decide, by decide, by decide, by decide, by decide⟩,
   ⟨(({ up 11 with units := [wUnit 0x0B00 none] } : State)), 0, 5, 0x100, 0x1040010, 9, 2, ([]), false, 0x1040010, by decide, by decide, by decide, by decide, by decide, by decide, by decide, by decide, by decide, by decide, by decide⟩,
   ⟨(({ paired 2 [] with units := [wUnit 0x0B00 none] } : State).setReg (Reg.SYS_PC_AP 0 0 0) 0x80002000), 0, 5, 0x100, 0x81000100, 9, 2, ([]), false, 0x140001000100, by decide +kernel, by decide +kernel, by decide +kernel, by decide +kernel, by decide +kernel, by decide +kernel, by decide +kernel⟩,
   ⟨(((({ up 11 with units := [wUnit 0x0B00 none] } : State).modCore 0 (fun c => { c with bank := 2 })).setFld (Reg.SYS_PC_BANK 0 2) F.SYS_PC_BANK.DOMAIN 3)), 0, 5, 0x100, 0x10F0010, 9, 2, ([]), false, 0x10F0010, by decide, by decide, by decide, by decide, by decide, by decide, by decide, by decide⟩,
   ⟨(({ up 11 with units := [wUnit 0x0B00 none] } : State)), 0, 5, 0x100, 0x1040010, 9, 2, ([]), 0x1040010, by decide, by decide, by decide, by decide, by decide, by decide, by decide, by decide⟩,
   ⟨(((({ up 11 with units := [wUnit 0x0B00 none] } : State).modCore 0 (fun c => { c with bank := 2 })).setFld (Reg.SYS_PC_BANK 0 2) F.SYS_PC_BANK.DOMAIN 3)), 0, 5, 0x100, 0x1040010, 9, 2, ([]), 0x1040010, by decide, by decide, by decide, by decide, by decide, by decide, by decide, by decide, by decide⟩,
   ⟨(({ up 11 with units := [wUnit 0x0B00 none] } : State)), 0, ((.load false true)), 5, 0x100, 0x10, 9, 1, _, 0x10, 0x1000010, by decide, by decide, by decide, by decide, by decide, by decide, by decide, by decide, by decide, rfl, by decide, by decide⟩,
   ⟨((({ up 11 with units := [wUnit 0x0B00 none] } : State)).setReg (Reg.SYS_PC_AP 0 0 0) 0x80000008), 0, 5, 0x100, 0x80000010, 9, 2, _, false, 0x100000010, 0x100000010, by decide +kernel, by decide +kernel, by decide +kernel, by decide +kernel, by decide +kernel, by decide +kernel, by decide +kernel, by decide +kernel, by decide +kernel, rfl, by decide +kernel, by decide +kernel, by decide +kernel⟩⟩

end Sys2Proof.Tests
end

section
/-! SUPPORT. Laws of register fields that the statements of spec/00 rest on, and what resets leave. -/

namespace Sys2Proof.Machine

open Sys2Proof

theorem completes_next {P : State → Prop} {t : State} (h : P t) : completes (.next t) P := ⟨t, rfl, h⟩

/-! ### Fields and one-bit fields of registers -/

/-- A written one-bit field reads as what was written. -/
theorem State.flag_setFlag_same (s : State) (a i : Nat) (v : Bool) (h : regsWf s.regs = true) (hi : i < 32) :
    (s.setFlag a ⟨i, i⟩ v).flag a ⟨i, i⟩ = v := by
  have hb : Bits.ok ⟨i, i⟩ = true := by simp [Bits.ok, hi]
  unfold State.flag State.setFlag
  rw [State.fld_setFld_same s a _ _ h hb]
  cases v <;> simp

/-- The bit of an event just recorded is set. -/
theorem State.flag_event_same (s : State) (a i : Nat) (h : regsWf s.regs = true) (hi : i < 32) :
    (s.event a ⟨i, i⟩).flag a ⟨i, i⟩ = true :=
  State.flag_setFlag_same s a i true h hi

theorem State.flag_setFlag_other (s : State) (a c : Nat) (b f : Bits) (v : Bool) (h : a ≠ c) :
    (s.setFlag a b v).flag c f = s.flag c f := by
  unfold State.flag State.setFlag; rw [State.fld_setFld_other s a c b f _ h]

theorem State.flag_setFlag_field (s : State) (a : Nat) (b c : Bits) (v : Bool) (h : regsWf s.regs = true) (hc : c.ok = true)
    (ha : b.apart c = true) : (s.setFlag a b v).flag a c = s.flag a c := by
  unfold State.flag State.setFlag; rw [State.fld_setFld_field s a b c _ h hc ha]

/-! ### The front of the queue (R6) -/

theorem step_of_cons {s : State} {c : Instr} {rest : List Instr} (h : s.pending = c :: rest) :
    step s = exec c { s with pending := rest } := by
  unfold step; rw [h]

theorem step_of_nil {s : State} (h : s.pending = []) : step s = .next (tick s) := by
  unfold step; rw [h]

/-- Settles O50: a step is the front command on the queue's rest, and on an empty queue one clock. -/
theorem stepTakesTheFront : Obligations.StepTakesTheFront := by
  unfold Obligations.StepTakesTheFront
  refine ⟨fun s c rest h => step_of_cons h, fun s h hp => ?_, fun s h hp => ?_⟩
  · simp [step_of_nil h, tick, hp]
  · simp [step_of_nil h, tick, hp]

/-! ### Resets (R11, R35 to R38) -/

theorem State.coreOff_regsWf {s : State} (h : regsWf s.regs = true) : regsWf s.coreOff.regs = true := regsWf_warm s.regs h

theorem State.resettable_porst {s : State} (h : s.resettable = true) : s.kin.porstLow = false := by
  simp only [State.resettable, Bool.and_eq_true, Bool.not_eq_true'] at h
  exact h.1.1.1

/-- A warm reset that nothing holds back and that meets the device outside SI_START and the recovery hold: the core goes off,
WARM_COUNT rises and the cause is shown (R36). -/
theorem State.warmReset_eq {s : State} (cause : Bits) (hold : Bool) (hr : s.resettable = true) (hw : s.inWarmReset = false)
    (h1 : s.stage ≠ 1) (h14 : s.stage ≠ 14) :
    s.warmReset cause hold =
      ((s.coreOff.addFld Reg.SYS_KIN_STATUS F.SYS_KIN_STATUS.WARM_COUNT 1).setFld Reg.SYS_RST_CAUSE cause 1).modKin
        (fun k => { k with holdDue := if hold then some (s.now + 10000) else none }) := by
  have e1 : (s.stage == 1) = false := by simpa using h1
  have e14 : (s.stage == 14) = false := by simpa using h14
  simp only [State.warmReset, hr, hw, e1, e14, Bool.not_true, Bool.false_and, Bool.false_eq_true, if_false]

/-- Such a warm reset shows its cause in SYS_RST_CAUSE. -/
theorem State.flag_warmReset {s : State} (i : Nat) (hold : Bool) (hi : i < 32) (h : regsWf s.regs = true)
    (hr : s.resettable = true) (hw : s.inWarmReset = false) (h1 : s.stage ≠ 1) (h14 : s.stage ≠ 14) :
    (s.warmReset ⟨i, i⟩ hold).flag Reg.SYS_RST_CAUSE ⟨i, i⟩ = true := by
  rw [State.warmReset_eq ⟨i, i⟩ hold hr hw h1 h14]
  exact State.flag_event_same _ _ i (State.setFld_regsWf _ _ _ _ (State.coreOff_regsWf h)) hi

/-- What every step of a fold leaves in a register, the fold leaves. -/
theorem State.reg_foldl {α : Type} {l : List α} {F : State → α → State} {s : State} {a : Nat}
    (hF : ∀ u, ∀ x ∈ l, (F u x).reg a = u.reg a) : (l.foldl F s).reg a = s.reg a := by
  induction l generalizing s with
  | nil => rfl
  | cons x t ih => exact (ih fun u y hy => hF u y (List.mem_cons_of_mem x hy)).trans (hF s x List.mem_cons_self)

/-- The links that start to train show it in the registers of the Grenmar Links alone. -/
theorem State.reg_startLinks (s : State) {a : Nat} (ha : a < 0x800000) : s.startLinks.reg a = s.reg a := by
  have status : ∀ (u : State) (k v : Nat) (b : Bits), (u.setFld (Reg.GML_STATUS k) b v).reg a = u.reg a := fun u k v b =>
    State.reg_setFld_other u _ a b v (by unfold Reg.GML_STATUS; omega)
  have peers : ∀ (u : State) (v : Nat) (b : Bits), (u.setFld Reg.GML_PEERS b v).reg a = u.reg a := fun u v b =>
    State.reg_setFld_other u _ a b v (by unfold Reg.GML_PEERS; omega)
  unfold State.startLinks
  refine (State.reg_foldl fun u k _ => ?_).trans (peers s _ _)
  split
  · rw [status, status]
  · split
    · exact status u k _ _
    · rfl

/-- Kindling starts in stage HKC_START. -/
theorem State.stage_startKindling {s : State} (h : regsWf s.regs = true) : s.startKindling.stage = 2 := by
  have hb : s.startKindling.stage = (s.setStage 2).startLinks.stage :=
    State.fld_setReg_other _ Reg.EJ_BOOT Reg.SYS_KIN_STATUS F.SYS_KIN_STATUS.STATE _ (by decide)
  have hl : (s.setStage 2).startLinks.stage = (s.setStage 2).stage := by
    unfold State.stage State.fld
    rw [State.reg_startLinks _ (by decide)]
  rw [hb, hl]
  exact State.fld_setFld_same s Reg.SYS_KIN_STATUS F.SYS_KIN_STATUS.STATE 2 h (by decide)

/-- Kindling that starts ends the core's reset and its hold at this moment, and leaves WRST_N, memory and time alone. -/
theorem State.startKindling_facts (s : State) :
    s.startKindling.kin.wrstLow = s.kin.wrstLow ∧ s.startKindling.kin.coreReset = false ∧
      s.startKindling.kin.holdDue = none ∧ s.startKindling.kin.hkcStartAt = s.now ∧ s.startKindling.mem = s.mem ∧
      s.startKindling.now = s.now := by
  have links := State.startLinks_same (m0 := 1) (Same.refl (s.setStage 2)) (by decide)
  have hk : (s.setStage 2).startLinks.kin.wrstLow = s.kin.wrstLow := by rw [links.kin (by decide)]; rfl
  have hn : (s.setStage 2).startLinks.now = s.now := links.now (by decide)
  have hm : (s.setStage 2).startLinks.mem = s.mem := links.mem (by decide)
  exact ⟨hk, rfl, rfl, hn, hm, hn⟩

/-- The release of the core reset starts kindling unless four warm resets in a row came without READY (R36, R38). -/
theorem State.releaseCore_kindles {s : State} (h : regsWf s.regs = true)
    (hc : s.fld Reg.SYS_KIN_STATUS F.SYS_KIN_STATUS.WARM_COUNT < 4) :
    s.releaseCore.kin.wrstLow = s.kin.wrstLow ∧ s.releaseCore.kin.coreReset = false ∧ s.releaseCore.kin.holdDue = none ∧
      s.releaseCore.stage = 2 ∧ s.releaseCore.kin.hkcStartAt = s.now ∧ s.releaseCore.mem = s.mem ∧
      s.releaseCore.now = s.now := by
  have few : decide (4 ≤ (s.modKin (fun k => { k with releasedAt := s.now })).fld Reg.SYS_KIN_STATUS
      F.SYS_KIN_STATUS.WARM_COUNT) = false := decide_eq_false (Nat.not_le.mpr hc)
  have e : s.releaseCore = (s.modKin (fun k => { k with releasedAt := s.now })).startKindling := by
    unfold State.releaseCore
    simp only [few, Bool.false_and, Bool.false_eq_true, if_false]
  obtain ⟨hlow, hcore, hdue, hstart, hmem, hnow⟩ :=
    State.startKindling_facts (s.modKin (fun k => { k with releasedAt := s.now }))
  rw [e]
  exact ⟨hlow, hcore, hdue, State.stage_startKindling h, hstart, hmem, hnow⟩

/-- The straps of PORST_N's release fill GML_SYS and no other register. -/
theorem State.straps_shown {s t : State} {d c r : Nat} (h : regsWf s.regs = true) (hd : d < 4) (hc : c < 4) (hr : r < 2)
    (ht : t = ((s.setFld Reg.GML_SYS F.GML_SYS.DEVICE d).setFld Reg.GML_SYS F.GML_SYS.COUNT c).setFld Reg.GML_SYS
      F.GML_SYS.RING r) :
    t.fld Reg.GML_SYS F.GML_SYS.DEVICE = d ∧ t.fld Reg.GML_SYS F.GML_SYS.COUNT = c ∧ t.fld Reg.GML_SYS F.GML_SYS.RING = r ∧
      regsWf t.regs = true ∧ regsKept s t [Reg.GML_SYS] := by
  subst ht
  have h1 := State.setFld_regsWf s Reg.GML_SYS F.GML_SYS.DEVICE d h
  have h2 := State.setFld_regsWf _ Reg.GML_SYS F.GML_SYS.COUNT c h1
  refine ⟨?_, ?_, ?_, State.setFld_regsWf _ _ _ _ h2, fun a ha => ?_⟩
  · rw [State.fld_setFld_field _ _ _ _ _ h2 (by decide) (by decide), State.fld_setFld_field _ _ _ _ _ h1 (by decide) (by decide),
      State.fld_setFld_same _ _ _ _ h (by decide)]
    exact Nat.mod_eq_of_lt hd
  · rw [State.fld_setFld_field _ _ _ _ _ h2 (by decide) (by decide), State.fld_setFld_same _ _ _ _ h1 (by decide)]
    exact Nat.mod_eq_of_lt hc
  · rw [State.fld_setFld_same _ _ _ _ h2 (by decide)]
    exact Nat.mod_eq_of_lt hr
  · have hne : Reg.GML_SYS ≠ a := fun e => ha (by simp [e])
    rw [State.reg_setFld_other _ _ _ _ _ hne, State.reg_setFld_other _ _ _ _ _ hne, State.reg_setFld_other _ _ _ _ _ hne]

/-- A stage that SYS_KIN_STATUS.STATE can hold is shown. -/
theorem State.stage_setStage (s : State) {n : Nat} (h : regsWf s.regs = true) (hn : n < 16) : (s.setStage n).stage = n :=
  (State.fld_setFld_same s Reg.SYS_KIN_STATUS F.SYS_KIN_STATUS.STATE n h (by decide)).trans (Nat.mod_eq_of_lt hn)

/-- The recovery hold shows its stage and the failure code (R38). -/
theorem State.recoveryHold_shown (s : State) {code : Nat} (h : regsWf s.regs = true) (hc : code < 256) :
    (s.recoveryHold code).stage = 14 ∧ (s.recoveryHold code).fld Reg.SYS_KIN_STATUS F.SYS_KIN_STATUS.FAIL_CODE = code := by
  have h0 := State.coreOff_regsWf h
  have h1 : regsWf (s.coreOff.setStage 14).regs = true := State.setFld_regsWf _ _ _ _ h0
  constructor
  · refine Eq.trans ?_ (State.stage_setStage s.coreOff h0 (by decide : 14 < 16))
    exact State.fld_setFld_field _ Reg.SYS_KIN_STATUS F.SYS_KIN_STATUS.FAIL_CODE F.SYS_KIN_STATUS.STATE code h1 (by decide)
      (by decide)
  · exact (State.fld_setFld_same _ Reg.SYS_KIN_STATUS F.SYS_KIN_STATUS.FAIL_CODE code h1 (by decide)).trans
      (Nat.mod_eq_of_lt hc)

theorem execPorstNRelease_of_low {s : State} (straps : BitVec 5) (h : s.kin.porstLow = true) :
    execPorstNRelease straps s = .next (({ ((s.setFld Reg.GML_SYS F.GML_SYS.DEVICE (straps.toNat % 4)).setFld Reg.GML_SYS
      F.GML_SYS.COUNT (straps.toNat / 4 % 4)).setFld Reg.GML_SYS F.GML_SYS.RING (straps.toNat / 16) with now := 0 }.modKin
        (fun k => { k with porstLow := false, releasedAt := 0 })).setStage 1) := by
  unfold execPorstNRelease
  rw [h]
  rfl

/-- A pulse of 1 us or more on WRST_N, out of PORST_N, is a warm reset (R35). -/
theorem execWrstNFall_of_long {s : State} {lowNs : Nat} (hl : 1000 ≤ lowNs) (hw : s.kin.wrstLow = false)
    (hp : s.kin.porstLow = false) :
    execWrstNFall lowNs s = .next ((s.modKin (fun k => { k with wrstLow := true })).warmReset F.SYS_RST_CAUSE.WRST false) := by
  have hc : wrstCounts lowNs = true := by simp [wrstCounts, hl, show ¬ lowNs < 200 by omega]
  simp only [execWrstNFall, hw, hp, hc, Bool.or_self, Bool.not_true, Bool.false_eq_true, if_false]

/-- The rise of WRST_N in a warm reset whose hold does not run releases the core reset (R36). -/
theorem execWrstNRise_of_reset {s : State} (hl : s.kin.wrstLow = true) (hw : s.inWarmReset = true) (hr : s.resettable = true)
    (hd : s.kin.holdDue = none) :
    execWrstNRise s = .next (s.modKin (fun k => { k with wrstLow := false })).releaseCore := by
  have hw' : (s.modKin (fun k => { k with wrstLow := false })).inWarmReset = true := hw
  have hr' : (s.modKin (fun k => { k with wrstLow := false })).resettable = true := hr
  have hd' : (s.modKin (fun k => { k with wrstLow := false })).kin.holdDue.isNone = true := by
    show s.kin.holdDue.isNone = true
    rw [hd]; rfl
  simp only [execWrstNRise, hl, hw', hr', hd', Bool.not_true, Bool.and_self, Bool.false_eq_true, if_false, if_true]

theorem execWarmResetHoldEnd_of_due {s : State} {d : Nat} (hd : s.kin.holdDue = some d) (hw : s.inWarmReset = true)
    (hl : s.kin.wrstLow = false) :
    execWarmResetHoldEnd s = .next ((s.reach d).modKin (fun k => { k with holdDue := none })).releaseCore := by
  have hw' : ((s.reach d).modKin (fun k => { k with holdDue := none })).inWarmReset = true := hw
  have hl' : ((s.reach d).modKin (fun k => { k with holdDue := none })).kin.wrstLow = false := hl
  simp only [execWarmResetHoldEnd, hd, hw', hl', Bool.not_false, Bool.and_self, if_true]

/-- The state in which the kindling watchdog decides: its time has come and its record is posted. -/
def State.atWatchdog (s : State) : State :=
  (s.reach (s.kin.hkcStartAt + 3000000000)).log 0x1200 0x010C 3 0 0xFF
    (s.reach (s.kin.hkcStartAt + 3000000000)).regionNo noPos 0

theorem execKindlingWatchdogExpiry_of_kindling {s : State} (h : 2 ≤ s.stage ∧ s.stage ≤ 10) (hr : s.resettable = true) :
    execKindlingWatchdogExpiry s =
      if decide (3 ≤ s.atWatchdog.fld Reg.SYS_KIN_STATUS F.SYS_KIN_STATUS.WARM_COUNT) then .next (s.atWatchdog.recoveryHold 0x0C)
      else .next (s.atWatchdog.warmReset F.SYS_RST_CAUSE.WDT true) := by
  have h1 : (decide (2 ≤ s.stage) && decide (s.stage ≤ 10) && s.resettable) = true := by simp [h, hr]
  unfold execKindlingWatchdogExpiry
  rw [if_pos h1]
  rfl

/-- The watchdog's record leaves the stage, WARM_COUNT and whether a warm reset can take effect as they were. -/
theorem State.atWatchdog_facts (s : State) :
    s.atWatchdog.stage = s.stage ∧ s.atWatchdog.fld Reg.SYS_KIN_STATUS F.SYS_KIN_STATUS.WARM_COUNT =
      s.fld Reg.SYS_KIN_STATUS F.SYS_KIN_STATUS.WARM_COUNT ∧ s.atWatchdog.resettable = s.resettable ∧
      s.atWatchdog.now = max s.now (s.kin.hkcStartAt + 3000000000) ∧
      (regsWf s.regs = true → regsWf s.atWatchdog.regs = true) := by
  have status : s.atWatchdog.reg Reg.SYS_KIN_STATUS = s.reg Reg.SYS_KIN_STATUS :=
    State.reg_log _ _ _ _ _ _ _ _ _ _ (by decide) (by decide)
  have k := State.log_same (m0 := 65537) (source := 0x1200) (code := 0x010C) (cls := 3) (partition := 0) (stream := 0xFF)
    (a0 := (s.reach (s.kin.hkcStartAt + 3000000000)).regionNo) (a1 := noPos) (a2 := 0)
    (Same.refl (s.reach (s.kin.hkcStartAt + 3000000000))) (by decide)
  have hkin : s.atWatchdog.kin = s.kin := k.kin (by decide)
  have hsafe : s.atWatchdog.safety = s.safety := k.safety (by decide)
  refine ⟨?_, ?_, ?_, k.now (by decide), (State.log_keeps (Keeps.refl (s.reach (s.kin.hkcStartAt + 3000000000)))).regs⟩
  · unfold State.stage State.fld; rw [status]
  · unfold State.fld; rw [status]
  · unfold State.resettable; rw [hkin, hsafe]

/-- No warm reset is in progress in a stage of kindling. -/
theorem State.inWarmReset_of_stage {s : State} (h : s.stage ≠ 0) : s.inWarmReset = false := by
  simp [State.inWarmReset, h]

/-- Settles O1: each clause from what the reset's command comes to and what `coreOff`, `startKindling` and `recoveryHold`
leave. -/
theorem resets : Obligations.Resets := by
  unfold Obligations.Resets
  refine ⟨?_, ?_, ?_, ?_, ?_, ?_⟩
  case refine_1 =>
    intro s
    exact completes_next ⟨fun _ => rfl, rfl, rfl, rfl, rfl, rfl, rfl, rfl⟩
  case refine_2 =>
    intro s straps hc hp
    have hb : straps.toNat < 32 := straps.isLt
    obtain ⟨hdev, hcnt, hring, hwf, hkept⟩ := State.straps_shown (State.canonical_regs hc)
      (d := straps.toNat % 4) (c := straps.toNat / 4 % 4) (r := straps.toNat / 16) (by omega) (by omega) (by omega) rfl
    have other : ∀ (u : State) (b : Bits), (u.setStage 1).fld Reg.GML_SYS b = u.fld Reg.GML_SYS b := fun u b =>
      State.fld_setFld_other u _ _ _ _ _ (by decide)
    show completes (execPorstNRelease straps s) _
    rw [execPorstNRelease_of_low straps hp]
    refine completes_next ⟨rfl, rfl, State.stage_setStage _ hwf (by decide), (other _ _).trans hdev, (other _ _).trans hcnt,
      (other _ _).trans hring, rfl, fun a ha => ?_⟩
    rw [List.mem_cons, List.mem_singleton, not_or] at ha
    exact (State.reg_setFld_other _ _ _ _ _ (Ne.symm ha.2)).trans (hkept a (by simpa using ha.1))
  case refine_3 =>
    intro s lowNs hc hl hlow hr hw h1 h14
    have hflag := State.flag_warmReset (s := s.modKin (fun k => { k with wrstLow := true })) 1 false (by decide)
      (State.canonical_regs hc) hr hw h1 h14
    show completes (execWrstNFall lowNs s) _
    rw [execWrstNFall_of_long hl hlow (State.resettable_porst hr)]
    refine completes_next ⟨?_, ?_, ?_, ?_, ?_, ?_, ?_, ?_, hflag⟩ <;>
      rw [State.warmReset_eq (s := s.modKin (fun k => { k with wrstLow := true })) _ _ hr hw h1 h14] <;> rfl
  case refine_4 =>
    intro s hc hl hw hr hd hcount
    obtain ⟨hlow, hcore, -, hstage, hstart, hmem, -⟩ := State.releaseCore_kindles
      (s := s.modKin (fun k => { k with wrstLow := false })) (State.canonical_regs hc) hcount
    show completes (execWrstNRise s) _
    rw [execWrstNRise_of_reset hl hw hr hd]
    exact completes_next ⟨hlow, hcore, hstage, hstart, hmem⟩
  case refine_5 =>
    intro s d hc hd hw hl hcount
    obtain ⟨-, hcore, hdue, hstage, hstart, hmem, hnow⟩ := State.releaseCore_kindles
      (s := (s.reach d).modKin (fun k => { k with holdDue := none })) (State.canonical_regs hc) hcount
    show completes (execWarmResetHoldEnd s) _
    rw [execWarmResetHoldEnd_of_due hd hw hl]
    exact completes_next ⟨hcore, hdue, hstage, hnow, hstart, hmem⟩
  case refine_6 =>
    intro s hc hr hst
    obtain ⟨hstage, hcount, hres, hnow, hwf⟩ := s.atWatchdog_facts
    have hr' : s.atWatchdog.resettable = true := hres.trans hr
    have hw' : s.atWatchdog.inWarmReset = false := State.inWarmReset_of_stage (by omega)
    have h1 : s.atWatchdog.stage ≠ 1 := by omega
    have h14 : s.atWatchdog.stage ≠ 14 := by omega
    have wf := hwf (State.canonical_regs hc)
    show completes (execKindlingWatchdogExpiry s) _
    rw [execKindlingWatchdogExpiry_of_kindling hst hr, hcount]
    split
    case isTrue hd =>
      have h3 := of_decide_eq_true hd
      obtain ⟨h14', hcode⟩ := State.recoveryHold_shown s.atWatchdog (code := 0x0C) wf (by decide)
      exact completes_next ⟨hnow, fun h => absurd h3 (by omega), fun _ => ⟨h14', hcode⟩, rfl, rfl, rfl⟩
    case isFalse hd =>
      have h3 := of_decide_eq_false (Bool.not_eq_true _ ▸ hd)
      have hflag := State.flag_warmReset 3 true (by decide) wf hr' hw' h1 h14
      have heq := State.warmReset_eq F.SYS_RST_CAUSE.WDT true hr' hw' h1 h14
      have hnow' : (s.atWatchdog.warmReset F.SYS_RST_CAUSE.WDT true).now = s.atWatchdog.now := by rw [heq]; rfl
      refine completes_next ⟨hnow'.trans hnow, fun _ => ⟨?_, ?_, hflag⟩, fun h => absurd h h3, ?_, ?_, ?_⟩
      · rw [heq]; rfl
      · rw [hnow', heq]; rfl
      all_goals rw [heq]; rfl

end Sys2Proof.Machine
end

section
/-! SUPPORT. Commit points (R9, R140, R355) and apertures (R506): what committing a range of shadow values leaves in the
register file and in the shadow list. -/

namespace Sys2Proof.Machine

open Sys2Proof

/-! ### Rising lists -/

theorem risingFrom_le_of_mem {α : Type} {l : List (Nat × α)} {lo : Nat} (h : risingFrom lo l = true) {c : Nat × α} (hc : c ∈ l) :
    lo ≤ c.1 := by
  induction l generalizing lo with
  | nil => cases hc
  | cons d t ih =>
    simp only [risingFrom, Bool.and_eq_true, decide_eq_true_eq] at h
    obtain ⟨hlo, ht⟩ := h
    rcases List.mem_cons.mp hc with rfl | hc
    · exact hlo
    · have := ih ht hc; omega

/-- A key below every key of a list goes to its front. -/
theorem assocPut_front {α : Type} {l : List (Nat × α)} {c : Nat × α} (h : risingFrom (c.1 + 1) l = true) :
    assocPut l c.1 c.2 = c :: l := by
  cases l with
  | nil => rfl
  | cons d t =>
    have hd := risingFrom_le_of_mem h List.mem_cons_self
    simp [assocPut, show c.1 < d.1 by omega]

/-- Keys above the first one are set behind it. -/
theorem foldl_assocPut_cons {α : Type} {ks : List (Nat × α)} {c : Nat × α} (l : List (Nat × α)) (h : ∀ x ∈ ks, c.1 < x.1) :
    ks.foldl (fun m x => assocPut m x.1 x.2) (c :: l) = c :: ks.foldl (fun m x => assocPut m x.1 x.2) l := by
  induction ks generalizing l with
  | nil => rfl
  | cons x t ih =>
    have hx : c.1 < x.1 := h x List.mem_cons_self
    have put : assocPut (c :: l) x.1 x.2 = c :: assocPut l x.1 x.2 := by
      simp [assocPut, show ¬ x.1 < c.1 by omega, show ¬ x.1 = c.1 by omega]
    rw [List.foldl_cons, List.foldl_cons, put]
    exact ih _ fun y hy => h y (List.mem_cons_of_mem x hy)

/-- Setting again what one filter of a rising list chose, in what another left, gives what either chooses. -/
theorem foldl_assocPut_filter {α : Type} {l : List (Nat × α)} {lo : Nat} (p q : Nat × α → Bool) (h : risingFrom lo l = true)
    (hpq : ∀ c, q c = true → p c = false) :
    (l.filter q).foldl (fun m x => assocPut m x.1 x.2) (l.filter p) = l.filter (fun c => p c || q c) := by
  induction l generalizing lo with
  | nil => rfl
  | cons c t ih =>
    simp only [risingFrom, Bool.and_eq_true] at h
    have above : ∀ x ∈ t.filter q, c.1 < x.1 := fun x hx => risingFrom_le_of_mem h.2 (List.mem_of_mem_filter hx)
    cases hq : q c with
    | true =>
      have hp := hpq c hq
      simp only [List.filter_cons, hq, hp, Bool.or_true, Bool.false_eq_true, if_true, if_false, List.foldl_cons]
      rw [assocPut_front (rising_filter t p h.2), foldl_assocPut_cons _ above, ih h.2]
    | false =>
      cases hp : p c with
      | true =>
        simp only [List.filter_cons, hq, hp, Bool.or_false, Bool.false_eq_true, if_true, if_false]
        rw [foldl_assocPut_cons _ above, ih h.2]
      | false =>
        simp only [List.filter_cons, hq, hp, Bool.or_false, Bool.false_eq_true, if_false]
        exact ih h.2

/-! ### Committing a range of offsets -/

theorem State.canonical_shadow {s : State} (h : s.canonical = true) : risingFrom 0 s.shadow = true := by
  simp only [State.canonical, Bool.and_eq_true] at h; exact h.2

/-- An entry of the shadow list lies at an offset from lo up to hi. -/
def inSpan (lo hi : Nat) (x : Nat × Word) : Bool := decide (lo ≤ x.1) && decide (x.1 < hi)

/-- Of rising entries set one after another, each is found in the register file. -/
theorem State.reg_foldl_setReg {ps : List (Nat × Word)} {lo : Nat} {s : State} (hp : risingFrom lo ps = true)
    (hs : regsWf s.regs = true) {x : Nat × Word} (hx : x ∈ ps) :
    (ps.foldl (fun (u : State) p => u.setReg p.1 p.2) s).reg x.1 = x.2 := by
  induction ps generalizing lo s with
  | nil => cases hx
  | cons c t ih =>
    simp only [risingFrom, Bool.and_eq_true] at hp
    rcases List.mem_cons.mp hx with rfl | hx
    · have later : ∀ u : State, ∀ p ∈ t, (u.setReg p.1 p.2).reg x.1 = u.reg x.1 := fun u p hpt =>
        State.reg_setReg_other u _ (by have := risingFrom_le_of_mem hp.2 hpt; omega)
      exact (State.reg_foldl later).trans (State.reg_setReg_same s x.1 x.2 hs)
    · exact ih hp.2 (State.setReg_regsWf s c.1 c.2 hs) hx

theorem State.shadow_commitShadows (s : State) (lo hi : Nat) :
    (s.commitShadows lo hi).shadow = s.shadow.filter (fun x => !inSpan lo hi x) := by
  have fold : ∀ (l : List (Nat × Word)) (u : State), (l.foldl (fun (u : State) p => u.setReg p.1 p.2) u).shadow = u.shadow := by
    intro l
    induction l with
    | nil => intro u; rfl
    | cons c t ih => intro u; exact ih (u.setReg c.1 c.2)
  exact fold _ _

/-- A shadow value in the range becomes the value in force. -/
theorem State.reg_commitShadows_hit {s : State} {lo hi : Nat} (hc : s.canonical = true) {x : Nat × Word} (hx : x ∈ s.shadow)
    (h : inSpan lo hi x = true) : (s.commitShadows lo hi).reg x.1 = x.2 :=
  State.reg_foldl_setReg (s := { s with shadow := s.shadow.filter (fun x => !inSpan lo hi x) })
    (rising_filter s.shadow (inSpan lo hi) (State.canonical_shadow hc)) (State.canonical_regs (s := s) hc) (List.mem_filter.mpr ⟨hx, h⟩)

/-- Registers outside the range keep their values. -/
theorem State.reg_commitShadows_out {s : State} {lo hi a : Nat} (h : a < lo ∨ hi ≤ a) :
    (s.commitShadows lo hi).reg a = s.reg a := by
  refine (State.reg_foldl fun u x hx => State.reg_setReg_other u _ ?_).trans rfl
  have hin := List.of_mem_filter hx
  simp only [Bool.and_eq_true, decide_eq_true_eq] at hin
  omega

/-- The shadow values that a block's commit point leaves because their I3C transfer is in progress (R140). -/
def State.heldShadows (s : State) (lo hi : Nat) : List (Nat × Word) :=
  s.shadow.filter (fun x => inSpan lo hi x && s.i3cWaits x.1)

theorem State.mem_heldShadows {s : State} {lo hi : Nat} {x : Nat × Word} (h : x ∈ s.heldShadows lo hi) :
    inSpan lo hi x = true ∧ s.i3cWaits x.1 = true := by
  simpa using (List.mem_filter.mp h).2

theorem State.commitBlock_eq (s : State) (lo hi : Nat) : s.commitBlock lo hi =
    (s.heldShadows lo hi).foldl (fun (x : State) p => (x.setReg p.1 (s.reg p.1)).setShadow p.1 p.2) (s.commitShadows lo hi) := rfl

/-- The held values come back to the shadow list. -/
theorem State.shadow_commitBlock {s : State} (lo hi : Nat) (hc : s.canonical = true) :
    (s.commitBlock lo hi).shadow = s.shadow.filter (fun x => !inSpan lo hi x || s.i3cWaits x.1) := by
  have fold : ∀ (l : List (Nat × Word)) (u : State),
      (l.foldl (fun (x : State) p => (x.setReg p.1 (s.reg p.1)).setShadow p.1 p.2) u).shadow =
        l.foldl (fun m x => assocPut m x.1 x.2) u.shadow := by
    intro l
    induction l with
    | nil => intro u; rfl
    | cons c t ih => intro u; exact ih _
  rw [State.commitBlock_eq, fold, State.shadow_commitShadows]
  have apart : ∀ x : Nat × Word, (inSpan lo hi x && s.i3cWaits x.1) = true → (!inSpan lo hi x) = false := fun x hx => by
    simp only [Bool.and_eq_true] at hx; simp [hx.1]
  refine (foldl_assocPut_filter _ _ (State.canonical_shadow hc) apart).trans ?_
  congr 1
  funext x
  cases inSpan lo hi x <;> simp

/-- The held values' registers, and no others, are put back. -/
theorem State.reg_commitBlock {s : State} {lo hi a : Nat} (h : ∀ x ∈ s.heldShadows lo hi, x.1 ≠ a) :
    (s.commitBlock lo hi).reg a = (s.commitShadows lo hi).reg a :=
  State.reg_foldl fun u x hx => State.reg_setReg_other u _ (h x hx)

/-! ### Active links and routes (R453, R454) -/

theorem State.reg_reroute (s : State) (e : Nat) {a : Nat} (ha : a ≠ Reg.GML_PEERS) : (s.reroute e).reg a = s.reg a := by
  unfold State.reroute
  dsimp only
  split
  · rfl
  · exact (State.reg_setFld_other _ _ _ _ _ ha.symm).trans ((State.reg_setFld_other _ _ _ _ _ ha.symm).trans rfl)

/-- Showing which links are active and which routes hold changes the links' status and GML_PEERS alone. -/
theorem State.reg_refreshActive (s : State) {a : Nat} (ha : a ≠ Reg.GML_PEERS) (hs : ∀ k, a ≠ Reg.GML_STATUS k) :
    s.refreshActive.reg a = s.reg a := by
  unfold State.refreshActive
  exact (State.reg_foldl fun u e _ => State.reg_reroute u e ha).trans
    (State.reg_foldl fun u k _ => State.reg_setFld_other u _ _ _ _ (hs k).symm)

/-! ### Fields under a mask -/

/-- A mask that covers a field leaves it. -/
theorem Bits.get_and (b : Bits) (v m : Word) (h : ∀ i < b.hi + 1 - b.lo, m.getLsbD (b.lo + i) = true) :
    b.get (v &&& m) = b.get v := by
  apply Nat.eq_of_testBit_eq
  intro i
  rw [Bits.get_testBit, Bits.get_testBit, BitVec.getLsbD_and]
  by_cases hi : i < b.hi + 1 - b.lo
  · rw [h i hi, Bool.and_true]
  · simp [hi]

/-- A one-bit field read as a Bool is the field compared with 1. -/
theorem Bits.get_bit_ne_zero (i : Nat) (w : Word) : ((⟨i, i⟩ : Bits).get w != 0) = ((⟨i, i⟩ : Bits).get w == 1) := by
  have h : (⟨i, i⟩ : Bits).get w < 2 := by
    have : i + 1 - i = 1 := by omega
    simp only [Bits.get, this]; omega
  generalize (⟨i, i⟩ : Bits).get w = n at h ⊢
  rcases (by omega : n = 0 ∨ n = 1) with rfl | rfl <;> rfl

/-! ### SH_COMMIT -/

/-- The answer of SH_COMMIT differs from the committed block by the forgotten units of the sequencer, or by the links' activity. -/
theorem execShCommit_eq (blk : ShBlock) (s : State) (h : blk ≠ .gml) :
    ∃ t, execShCommit blk s = .next t ∧ t.regs = (s.commitBlock (shRange blk).1 (shRange blk).2).regs ∧
      t.shadow = (s.commitBlock (shRange blk).1 (shRange blk).2).shadow ∧
      (blk = .fgs → s.fgs.forgetPending = true → t.fgs.nodes = s.fgs.nodes.map (fun n => { n with preferred := none })) := by
  cases blk with
  | fgs =>
    have hf : (s.commitBlock (shRange .fgs).1 (shRange .fgs).2).fgs = s.fgs :=
      (State.commitBlock_same (m0 := 3) (Same.refl s) (by decide)).fgs (by decide)
    refine ⟨_, rfl, ?_, ?_, fun _ hp => ?_⟩
    · split <;> rfl
    · split <;> rfl
    · rw [if_pos (by rw [hf]; exact hp)]
      exact congrArg (fun g : Fgs => g.nodes.map (fun n => { n with preferred := none })) hf
  | gml => exact absurd rfl h
  | cfe | ne | tl | ej => exact ⟨_, rfl, rfl, rfl, fun e => by cases e⟩

/-- No I3C controller has its control register in the GML block. -/
theorem State.i3cWaits_above (s : State) {a : Nat} (h : 0x800000 ≤ a) : s.i3cWaits a = false := by
  have hn : instOf a (Reg.CFE_I3C_CTRL 0) 0x20 4 = none := by
    have : ¬ (a - Reg.CFE_I3C_CTRL 0) / 0x20 < 4 := by unfold Reg.CFE_I3C_CTRL; omega
    simp [instOf, this]
  unfold State.i3cWaits
  rw [hn]

theorem execSysPcApertureWrite_of_own {pair : Fin 4} {offset : BitVec 8} {value : Word} {s : State}
    (h : ((s.core pair.val).bank == 0 && offset.toNat % 4 == 0 && decide (offset.toNat < 0x40)) = true) :
    execSysPcApertureWrite pair offset value s =
      .next (s.setReg (Reg.SYS_PC_AP pair.val (offset.toNat / 16) (offset.toNat / 4 % 4))
        (value &&& (F.SYS_PC_AP.ENABLE.mask ||| F.SYS_PC_AP.BASE.mask))) := by
  unfold execSysPcApertureWrite
  exact if_pos h

theorem execSysPcApertureWrite_of_other {pair : Fin 4} {offset : BitVec 8} {value : Word} {s : State}
    (h : ((s.core pair.val).bank == 0 && offset.toNat % 4 == 0 && decide (offset.toNat < 0x40)) = false) :
    execSysPcApertureWrite pair offset value s = .next s := by
  unfold execSysPcApertureWrite
  exact if_neg (by rw [h]; exact Bool.false_ne_true)

/-- Settles O48: a commit sets what `commitShadows` finds in the block and puts back what an I3C transfer holds; an aperture
write keeps the two fields of its register. -/
theorem commitsAndApertures : Obligations.CommitsAndApertures := by
  unfold Obligations.CommitsAndApertures
  refine ⟨?_, ?_, ?_, ?_⟩
  case refine_1 =>
    intro s blk hc hblk
    obtain ⟨t, ht, hregs, hshadow, hnodes⟩ := execShCommit_eq blk s hblk
    have same := (execShCommit_same (m0 := 8392707) (Same.refl s) (by decide)).of t ht
    show completes (execShCommit blk s) _
    rw [ht]
    refine completes_next ⟨fun x hx hin hfree => ?_, ?_, fun a ha => ?_, hnodes, same.mem (by decide), same.now (by decide)⟩
    · have notHeld : ∀ y ∈ s.heldShadows (shRange blk).1 (shRange blk).2, y.1 ≠ x.1 := fun y hy e => by
        have hw := (State.mem_heldShadows hy).2
        rw [e, hfree] at hw
        cases hw
      rw [State.reg_congr hregs, State.reg_commitBlock notHeld]
      exact State.reg_commitShadows_hit hc hx hin
    · rw [hshadow]
      exact State.shadow_commitBlock _ _ hc
    · have notHeld : ∀ y ∈ s.heldShadows (shRange blk).1 (shRange blk).2, y.1 ≠ a := fun y hy e => by
        have hin := (State.mem_heldShadows hy).1
        simp only [inSpan, Bool.and_eq_true, decide_eq_true_eq] at hin
        omega
      rw [State.reg_congr hregs, State.reg_commitBlock notHeld]
      exact State.reg_commitShadows_out ha
  case refine_2 =>
    intro s hc
    have notHeld : ∀ y ∈ s.heldShadows 0x800000 0x810000, ∀ a, y.1 ≠ a := fun y hy => by
      obtain ⟨hin, hw⟩ := State.mem_heldShadows hy
      simp only [inSpan, Bool.and_eq_true, decide_eq_true_eq] at hin
      rw [State.i3cWaits_above s hin.1] at hw
      cases hw
    have same := (execShCommit_same (m0 := 8392707) (blk := .gml) (Same.refl s) (by decide)).of _ rfl
    have active := State.refreshActive_same (m0 := 8388609) (Same.refl (s.commitBlock 0x800000 0x810000)) (by decide)
    refine completes_next (t := (s.commitBlock 0x800000 0x810000).refreshActive)
      ⟨fun x hx hfwd => ?_, ?_, same.mem (by decide), same.now (by decide)⟩
    · have hin : inSpan 0x800000 0x810000 x = true := by rw [inSpan, hfwd]; decide
      have status : ∀ k, x.1 ≠ Reg.GML_STATUS k := fun k => by rw [hfwd]; unfold Reg.GML_FWD Reg.GML_STATUS; omega
      rw [State.reg_refreshActive _ (by rw [hfwd]; decide) status, State.reg_commitBlock fun y hy => notHeld y hy x.1]
      exact State.reg_commitShadows_hit hc hx hin
    · rw [active.shadow (by decide), State.shadow_commitBlock _ _ hc]
      refine List.filter_congr fun x _ => ?_
      cases hin : inSpan 0x800000 0x810000 x with
      | false => exact (congrArg (fun b => !b) hin).symm
      | true =>
        have hge : 0x800000 ≤ x.1 := by
          simp only [inSpan, Bool.and_eq_true, decide_eq_true_eq] at hin; exact hin.1
        rw [State.i3cWaits_above s hge]
        exact (congrArg (fun b => !b) hin).symm
  case refine_3 =>
    intro s pair offset value hc h
    have wf := State.canonical_regs hc
    have read := State.reg_setReg_same s (Reg.SYS_PC_AP pair.val (offset.toNat / 16) (offset.toNat / 4 % 4))
      (value &&& (F.SYS_PC_AP.ENABLE.mask ||| F.SYS_PC_AP.BASE.mask)) wf
    show completes (execSysPcApertureWrite pair offset value s) _
    rw [execSysPcApertureWrite_of_own h]
    refine completes_next ⟨?_, ?_, fun a ha => ?_, rfl, rfl⟩
    · unfold State.flag State.fld
      rw [read, Bits.get_and _ _ _ (by decide)]
      exact Bits.get_bit_ne_zero 31 value
    · unfold State.fld
      rw [read, Bits.get_and _ _ _ (by decide)]
    · exact State.reg_setReg_other s _ fun e => ha (List.mem_singleton.mpr e.symm)
  case refine_4 =>
    intro s pair offset value h
    show completes (execSysPcApertureWrite pair offset value s) _
    rw [execSysPcApertureWrite_of_other h]
    exact completes_next rfl

end Sys2Proof.Machine
end

section
/-! SUPPORT. What the loss of a partner leaves of the Grenmar Links: the relation `LinksKept` and, for each operation of the
sequencer, the scenes, the output selector and the journal that a loss can reach, that it keeps the relation. -/

namespace Sys2Proof.Machine

open Sys2Proof

/-! ### The relation -/

/-- The registers at the head of the GML block and of each link: GML_SYS, GML_PEERS, GML_EVENT, GML_EVENT_EN, and the status and
events of each link. -/
def isLinkReg (a : Nat) : Bool := decide (0x800000 ≤ a) && decide (a < 0x804000) && decide (a % 0x1000 < 0x10)

theorem isLinkReg_of_lt {a : Nat} (h : a < 0x800000) : isLinkReg a = false := by
  simp [isLinkReg, show ¬ 0x800000 ≤ a by omega]

theorem isLinkReg_of_mod {a : Nat} (h : 0x10 ≤ a % 0x1000) : isLinkReg a = false := by
  simp [isLinkReg, show ¬ a % 0x1000 < 0x10 by omega]

theorem isLinkReg_of_mod_64 {a : Nat} (h : 0x10 ≤ a % 0x40) : isLinkReg a = false :=
  isLinkReg_of_mod (by omega)

theorem isLinkReg_status {k : Nat} (h : k < 3) : isLinkReg (Reg.GML_STATUS k) = true := by
  unfold isLinkReg Reg.GML_STATUS
  rw [decide_eq_true (by omega), decide_eq_true (by omega), decide_eq_true (by omega)]
  rfl

/-- From r to t the head registers of the GML block and the links keep their values, but for GML_EVENT.TAKEOVER, and no
PEER_SENSE edge has come. -/
structure LinksKept (r t : State) : Prop where
  wf : regsWf r.regs = true → regsWf t.regs = true
  reg : ∀ a, isLinkReg a = true → a ≠ Reg.GML_EVENT → t.reg a = r.reg a
  event : regsWf r.regs = true → ∀ b, b.ok = true → F.GML_EVENT.TAKEOVER.apart b = true →
    t.fld Reg.GML_EVENT b = r.fld Reg.GML_EVENT b
  sense : ∀ k, (t.link k).senseAt = (r.link k).senseAt

namespace LinksKept

theorem refl (s : State) : LinksKept s s := ⟨id, fun _ _ _ => rfl, fun _ _ _ _ => rfl, fun _ => rfl⟩

/-- A change of fields other than the register file and the links' state. -/
theorem upd {r s : State} {shadow mem flags now free otp flash tl pins kin scene fgs mm cores units journal safety adapt maint cam
    isp io cvus carry nts patterns icu pending} (h : LinksKept r s) :
    LinksKept r (State.mk s.regs shadow mem flags now free otp flash tl pins kin scene fgs mm cores units journal safety adapt
      maint cam isp io s.gml cvus carry nts patterns icu pending) :=
  ⟨h.wf, h.reg, h.event, h.sense⟩

/-- All components but the register file and the links (bits 0 and 23). -/
def others : Nat := 0x3FFFFFFF - 1 - 2 ^ 23

/-- An operation that leaves the register file and the links alone. -/
theorem same {r s t : State} (h : LinksKept r s) (hs : Same others s t) : LinksKept r t := by
  have hr : t.regs = s.regs := hs.regs (by decide)
  have hg : t.gml = s.gml := hs.gml (by decide)
  refine ⟨fun w => ?_, fun a ha hne => (State.reg_congr hr a).trans (h.reg a ha hne),
    fun w b hb hap => (State.fld_congr hr _ b).trans (h.event w b hb hap), fun k => ?_⟩
  · rw [hr]; exact h.wf w
  · unfold State.link; rw [hg]; exact h.sense k

theorem ite {r a b : State} {c : Prop} [Decidable c] (ha : LinksKept r a) (hb : LinksKept r b) :
    LinksKept r (if c then a else b) := by
  split <;> assumption

theorem foldl {r : State} {α : Type} {l : List α} {F : State → α → State} {s : State}
    (hF : ∀ u, ∀ x ∈ l, LinksKept r u → LinksKept r (F u x)) (h : LinksKept r s) : LinksKept r (l.foldl F s) := by
  induction l generalizing s with
  | nil => exact h
  | cons x t ih => exact ih (fun u y hy => hF u y (List.mem_cons_of_mem x hy)) (hF s x List.mem_cons_self h)

theorem foldlFst {r : State} {α β : Type} {l : List α} {F : State × β → α → State × β} {p : State × β}
    (hF : ∀ p x, LinksKept r p.1 → LinksKept r (F p x).1) (h : LinksKept r p.1) : LinksKept r (l.foldl F p).1 := by
  induction l generalizing p with
  | nil => exact h
  | cons x t ih => exact ih (hF p x h)

end LinksKept

section
variable {r s : State} (h : LinksKept r s)
include h

/-! ### Registers, records and events -/

theorem State.setReg_linksKept {a : Nat} {v : Word} (ha : isLinkReg a = false) : LinksKept r (s.setReg a v) := by
  have ne : ∀ c, isLinkReg c = true → a ≠ c := fun c hc e => by rw [e, hc] at ha; cases ha
  exact ⟨fun w => State.setReg_regsWf s a v (h.wf w),
    fun c hc hne => (State.reg_setReg_other s v (ne c hc)).trans (h.reg c hc hne),
    fun w b hb hap => (State.fld_setReg_other s a _ b v (ne _ (by decide))).trans (h.event w b hb hap), h.sense⟩

theorem State.setFld_linksKept {a v : Nat} {b : Bits} (ha : isLinkReg a = false) : LinksKept r (s.setFld a b v) :=
  State.setReg_linksKept h ha

theorem State.setFlag_linksKept {a : Nat} {b : Bits} {v : Bool} (ha : isLinkReg a = false) : LinksKept r (s.setFlag a b v) :=
  State.setReg_linksKept h ha

theorem State.event_linksKept {a : Nat} {b : Bits} (ha : isLinkReg a = false) : LinksKept r (s.event a b) :=
  State.setReg_linksKept h ha

theorem State.addCnt_linksKept {a n : Nat} (ha : isLinkReg a = false) : LinksKept r (s.addCnt a n) :=
  State.setReg_linksKept h ha

/-- The event of a takeover is the one that `LinksKept` leaves out. -/
theorem State.event_takeover_linksKept : LinksKept r (s.event Reg.GML_EVENT F.GML_EVENT.TAKEOVER) :=
  ⟨fun w => State.setFld_regsWf s _ _ _ (h.wf w), fun a ha hne => (State.reg_setFld_other s _ _ _ _ hne.symm).trans (h.reg a ha hne),
    fun w b hb hap => (State.fld_setFld_field s _ _ _ _ (h.wf w) hb hap).trans (h.event w b hb hap), h.sense⟩

theorem State.loseRecord_linksKept {source : Nat} : LinksKept r (s.loseRecord source) :=
  LinksKept.upd (State.event_linksKept (State.addCnt_linksKept h (by decide)) (by decide))

theorem State.postRec_linksKept {x : JRec} : LinksKept r (s.postRec x) := by
  unfold State.postRec
  extract_lets _ s1
  have h1 : LinksKept r s1 := LinksKept.ite h.upd h
  exact LinksKept.ite h1 (LinksKept.ite (State.loseRecord_linksKept h1) h1.upd)

theorem State.log_linksKept {source code cls partition stream a0 a1 a2 : Nat} :
    LinksKept r (s.log source code cls partition stream a0 a1 a2) :=
  State.postRec_linksKept h

theorem State.severe_linksKept {cause unit : Nat} : LinksKept r (s.severe cause unit) :=
  LinksKept.upd (State.log_linksKept (State.setReg_linksKept h (by decide)))

theorem State.doubt_linksKept {cause unit partition : Nat} {seq : Word} : LinksKept r (s.doubt cause unit partition seq) := by
  unfold State.doubt
  extract_lets s1 s2 s3 _ s4
  have h2 : LinksKept r s2 :=
    State.event_linksKept (State.addCnt_linksKept (State.setReg_linksKept h (by decide)) (by decide)) (by decide)
  have h4 : LinksKept r s4 := (State.log_linksKept h2).upd
  exact LinksKept.ite (State.severe_linksKept h4) h4

/-! ### Sending on the links -/

theorem State.countFlit_linksKept {k seq : Nat} : LinksKept r (s.countFlit k 0 seq) :=
  LinksKept.ite (State.addCnt_linksKept h (isLinkReg_of_mod (by unfold Reg.GML_CNT; omega))) h

omit h in
theorem State.link_modLink (u : State) (k j : Nat) (f : LinkSt → LinkSt) :
    (u.modLink k f).link j = if j = k ∧ j < u.gml.links.length then f (u.link j) else u.link j := by
  unfold State.link State.modLink
  simp only [List.getD_eq_getElem?_getD, List.getElem?_mapIdx]
  by_cases hj : j < u.gml.links.length
  · by_cases hk : j = k
    · subst hk; simp [hj]
    · simp [hj, hk]
  · simp [hj]

theorem State.modLink_linksKept {k : Nat} {f : LinkSt → LinkSt} (hf : ∀ l, (f l).senseAt = l.senseAt) : LinksKept r (s.modLink k f) :=
  ⟨h.wf, h.reg, h.event, fun j => by
    rw [State.link_modLink]
    split
    · rw [hf]; exact h.sense j
    · exact h.sense j⟩

theorem State.sendOn_linksKept {k : Nat} {p : GmlPkt} : LinksKept r (s.sendOn k p) :=
  State.countFlit_linksKept (State.modLink_linksKept (f := fun l => { l with tx := l.tx ++ [(l.txSeq % 4096, [p])], txSeq := l.txSeq + 1 })
    h fun _ => rfl)

theorem State.sendTo_linksKept {e : Nat} {p : GmlPkt} : LinksKept r (s.sendTo e p) := by
  unfold State.sendTo
  split
  · exact State.sendOn_linksKept h
  · exact h

theorem State.sendDrain_linksKept {e flag : Nat} : LinksKept r (s.sendDrain e flag) :=
  LinksKept.ite h (State.sendTo_linksKept h)

/-! ### The sequencer -/

theorem State.tryDrain_linksKept {layer idx sl node j : Nat} : LinksKept r (s.tryDrain layer idx sl node j) := by
  unfold State.tryDrain
  split
  · refine LinksKept.ite ?_ h
    split
    · exact (State.sendDrain_linksKept h).same (State.setRing_same (Same.refl _) (by decide))
    · exact h.same (State.setRing_same (State.modFlag_same (Same.refl s) (by decide)) (by decide))
  · exact h

theorem State.drainInputs_linksKept {n : NodeSt} {seq : Word} {t : Nat} : LinksKept r (s.drainInputs n seq t) :=
  LinksKept.foldl (fun _ _ _ hu => State.tryDrain_linksKept hu) h

theorem State.post_linksKept {ts : List Token} : LinksKept r (s.post ts) := by
  refine LinksKept.foldl (fun u t _ hu => ?_) h.upd
  split
  · exact hu
  · exact LinksKept.ite hu (State.sendTo_linksKept hu)

theorem State.finish_linksKept {i : Inst} : LinksKept r (s.finish i) := by
  unfold State.finish
  split
  · exact h
  · rename_i n _
    extract_lets s1 s2 s3 s4
    have h1 : LinksKept r s1 := LinksKept.ite h (h.same (State.modNode_same (Same.refl s) (by decide)))
    have h2 : LinksKept r s2 := h1.same (State.unpinAll_same (Same.refl s1) (by decide))
    have h3 : LinksKept r s3 := by
      unfold s3
      split
      · exact State.drainInputs_linksKept h2
      · exact h2
    have h4 : LinksKept r s4 := h3.same (State.clearWatch_same (State.advanceFlow_same (Same.refl s3) (by decide)) (by decide))
    exact LinksKept.ite h4 (h4.same (State.retire_same (Same.refl s4) (by decide)))

theorem State.voidOne_linksKept {n : NodeSt} {seq : Word} {tile o : Nat} : LinksKept r (s.voidOne n seq tile o).1 := by
  unfold State.voidOne
  split
  · split
    · exact h
    · extract_lets b sl fl mine s'
      have assigned : ∀ s1, s' = some s1 → LinksKept r s1 := by
        intro s1 hs1
        unfold s' at hs1
        split at hs1
        · cases hs1; exact h
        · split at hs1
          · cases hs1; exact h.same (State.assignSlot_same (Same.refl s) (by decide))
          · split at hs1
            · cases hs1; exact h
            · cases hs1
      clear_value s'
      split
      · exact h
      · rename_i s1
        extract_lets s2 r'
        have h2 : LinksKept r s2 := (assigned s1 rfl).same (State.modFlag_same (Same.refl s1) (by decide))
        split
        · exact State.post_linksKept (State.event_linksKept h2 (by decide))
        · exact h2
  · exact h

theorem State.voidRelease_linksKept {i : Inst} : LinksKept r (s.voidRelease i) := by
  unfold State.voidRelease
  split
  · exact h
  · rename_i n _
    refine LinksKept.same (LinksKept.foldlFst (fun p o hp => ?_) h) (State.modInst_same (Same.refl _) (by decide))
    extract_lets q
    have hq : LinksKept r q.1 := State.voidOne_linksKept hp
    split <;> exact hq

theorem State.addKilo_linksKept {code reg m n : Nat} (hr : isLinkReg reg = false) : LinksKept r (s.addKilo code reg m n) :=
  State.addCnt_linksKept (h.same (State.setUnit_same (Same.refl s) (by decide))) hr

omit h in
/-- The busy counters of the engines and the Block Movers lie past the head registers of any link. -/
theorem busyCounter_reg {code t : Nat} {x : Nat × Nat × Nat} (hx : busyCounter code t = some x) : isLinkReg x.1 = false := by
  unfold busyCounter at hx
  split at hx <;> cases hx <;> refine isLinkReg_of_mod ?_
  · unfold Reg.WRP_CNT; omega
  · unfold Reg.PYR_CNT; omega
  · unfold Reg.STR_CNT; omega
  · unfold Reg.FLW_CNT; omega
  · unfold Reg.FTR_CNT; omega
  · unfold Reg.BM_CNT; omega

theorem State.countBusy_linksKept {u : UnitSt} : LinksKept r (s.countBusy u) := by
  unfold State.countBusy
  split
  · rename_i hx
    exact State.addKilo_linksKept h (busyCounter_reg hx)
  · exact h

theorem State.leaveUnit_linksKept {code e : Nat} : LinksKept r (s.leaveUnit code e) := by
  unfold State.leaveUnit
  extract_lets u t1 _
  split
  · rename_i n _
    refine LinksKept.ite h ?_
    extract_lets rest s1 s2
    have h1 : LinksKept r s1 := h.same (State.modCore_same (Same.refl s) (by decide))
    have h2 : LinksKept r s2 := LinksKept.ite (h1.same (State.chargeBusy_same (Same.refl s1) (by decide))) h1
    exact h2.same (State.setUnit_same (Same.refl s2) (by decide))
  · refine LinksKept.ite ?_ h
    have h1 : LinksKept r t1 := State.countBusy_linksKept (h.same (State.chargeBusy_same (Same.refl s) (by decide)))
    exact h1.same (State.setUnit_same (Same.refl t1) (by decide))

theorem State.cancelNow_linksKept {e : Nat} : LinksKept r (s.cancelNow e) := by
  have free : ∀ {u : State}, LinksKept r u → LinksKept r (u.freeEntry e) := fun hu =>
    hu.same (State.freeEntry_same (Same.refl _) (by decide))
  unfold State.cancelNow
  split
  · exact h
  · rename_i i _
    refine LinksKept.ite h ?_
    extract_lets s1 s2 s3 s4 s5
    have h1 : LinksKept r s1 := State.addCnt_linksKept h (by decide)
    have h2 : LinksKept r s2 := by
      unfold s2
      split
      · exact State.leaveUnit_linksKept h1
      · exact h1
    have h3 : LinksKept r s3 := h2.same (State.modInst_same (Same.refl s2) (by decide))
    have h5 : LinksKept r s5 := State.finish_linksKept (State.voidRelease_linksKept h3)
    split
    · exact LinksKept.ite (free h5) h5
    · exact free h5
    · exact h5

theorem State.showAbort_linksKept {n : Nat} : LinksKept r (s.showAbort n) := by
  have ha : isLinkReg (Reg.SYS_PC_ABORT n) = false := isLinkReg_of_mod_64 (by unfold Reg.SYS_PC_ABORT; omega)
  refine LinksKept.ite h ?_
  split
  · exact h
  · exact State.setFld_linksKept (State.setFld_linksKept (State.setFlag_linksKept h ha) ha) ha

theorem State.cancel_linksKept {e : Nat} : LinksKept r (s.cancel e) := by
  unfold State.cancel
  split
  · exact h
  · refine LinksKept.ite h (LinksKept.ite ?_ (State.cancelNow_linksKept h))
    extract_lets s1
    have h1 : LinksKept r s1 := h.same (State.modInst_same (Same.refl s) (by decide))
    split
    · exact State.showAbort_linksKept h1
    · exact h1

theorem State.drainAllAbsent_linksKept : LinksKept r s.drainAllAbsent :=
  h.same (State.drainAllAbsent_same (Same.refl s) (by decide))

/-! ### Streams, pipes and Check-Value Units -/

theorem State.showPipe_linksKept {n : Nat} (hn : n < 4) : LinksKept r (s.showPipe n) := by
  have ha : isLinkReg (Reg.ISP_STATUS n) = false := isLinkReg_of_lt (by unfold Reg.ISP_STATUS; omega)
  unfold State.showPipe
  extract_lets p u st s1 bank
  have h1 : LinksKept r s1 := State.setFld_linksKept h ha
  clear_value s1 bank
  split
  · exact State.setFld_linksKept h1 ha
  · exact h1

theorem State.discardFrame_linksKept {stream port : Nat} : LinksKept r (s.discardFrame stream port) := by
  have ha : isLinkReg (Reg.CFE_PORT_CNT port 3) = false := isLinkReg_of_mod_64 (by unfold Reg.CFE_PORT_CNT; omega)
  unfold State.discardFrame
  split
  · exact LinksKept.ite (State.addCnt_linksKept (h.same (State.modCam_same (Same.refl s) (by decide))) ha) h
  · exact h

theorem State.stopPipeWork_linksKept {n stream : Nat} (hn : n < 4) : LinksKept r (s.stopPipeWork n stream) := by
  have hupd : ∀ b, isLinkReg (bankOff b (Reg.ISP_UPD_STATUS n)) = false := fun b =>
    isLinkReg_of_mod (by unfold bankOff Reg.ISP_UPD_STATUS; omega)
  have herr : isLinkReg (Reg.ISP_ERR n) = false := isLinkReg_of_lt (by unfold Reg.ISP_ERR; omega)
  unfold State.stopPipeWork
  extract_lets p had q k s1 s2 s3 s4 s5
  have h1 : LinksKept r s1 := h.same (State.modPipe_same (Same.refl s) (by decide))
  have h2 : LinksKept r s2 := LinksKept.foldl (fun u m hm hu => LinksKept.ite
    (State.setReg_linksKept hu (isLinkReg_of_lt (by have := List.mem_range.mp hm; unfold Reg.ISP_BANK; omega))) hu) h1
  have h3 : LinksKept r s3 := by
    unfold s3
    split
    · exact LinksKept.ite (State.setFlag_linksKept h2 (hupd _)) h2
    · exact h2
  have h4 : LinksKept r s4 := LinksKept.ite (State.event_linksKept h3 herr) h3
  have h5 : LinksKept r s5 := LinksKept.ite (State.log_linksKept h4) h4
  exact State.showPipe_linksKept h5 hn

theorem State.unbindStream_linksKept {stream : Nat} : LinksKept r (s.unbindStream stream) := by
  unfold State.unbindStream
  split
  · exact h
  · rename_i p _
    extract_lets s1
    have h1 : LinksKept r s1 := (State.discardFrame_linksKept h).same (State.modCam_same (Same.refl _) (by decide))
    split
    · rename_i hp
      exact State.stopPipeWork_linksKept h1 (of_decide_eq_true hp)
    · exact h1

theorem State.cvuEnd_linksKept {n result : Nat} : LinksKept r (s.cvuEnd n result) := by
  have hst : isLinkReg (Reg.CVU_STATUS n) = false := isLinkReg_of_mod (by unfold Reg.CVU_STATUS; omega)
  have hev : isLinkReg (Reg.CVU_EVENT n) = false := isLinkReg_of_mod (by unfold Reg.CVU_EVENT; omega)
  unfold State.cvuEnd
  extract_lets a s1 s2
  have h1 : LinksKept r s1 := State.setFld_linksKept (State.setFld_linksKept h hst) hst
  clear_value s1
  have h2 : LinksKept r s2 := by
    unfold s2
    split
    · exact State.event_linksKept h1 hev
    · exact State.event_linksKept h1 hev
    · exact State.event_linksKept h1 hev
    · exact State.event_linksKept h1 hev
    · exact h1
  exact h2.same (State.modCvu_same (Same.refl s2) (by decide))

theorem State.cvuAbort_linksKept {n : Nat} : LinksKept r (s.cvuAbort n) := LinksKept.ite h (State.cvuEnd_linksKept h)

/-! ### The output selector -/

theorem State.queueEth_linksKept {mac : Nat} {t : EthTx} (hm : mac < 2) : LinksKept r (s.queueEth mac t) :=
  LinksKept.ite (State.event_linksKept (State.addCnt_linksKept h (isLinkReg_of_lt (by unfold Reg.ETH_CNT; omega)))
    (isLinkReg_of_lt (by unfold Reg.ETH_ERR; omega))) h.upd

theorem State.queueCan_linksKept {can : Nat} {t : CanTx} (hc : can < 2) : LinksKept r (s.queueCan can t) := by
  unfold State.queueCan
  extract_lets q s1
  have h1 : LinksKept r s1 :=
    LinksKept.ite (State.event_linksKept h (isLinkReg_of_lt (by unfold Reg.CAN_ERR; omega))) h
  exact h1.upd

theorem State.handOver_linksKept {o : OutRec} {p : Payload} : LinksKept r (s.handOver o p) := by
  have two : ∀ m ∈ [0, 1], m < 2 := by decide
  refine LinksKept.ite h ?_
  extract_lets seq dev env frame data _ s1 s2
  have h1 : LinksKept r s1 := h.upd
  have h2 : LinksKept r s2 := LinksKept.foldl (fun u m hm hu => LinksKept.ite (State.queueEth_linksKept hu (two m hm)) hu) h1
  exact LinksKept.foldl (fun u m hm hu => LinksKept.ite (State.queueCan_linksKept hu (two m hm)) hu) h2

theorem State.modSel_linksKept {f : Selector → Selector} : LinksKept r (s.modSel f) :=
  h.same (State.modSel_same (Same.refl s) (by decide))

theorem State.announce_linksKept {seq : Word} : LinksKept r (s.announce seq) := by
  unfold State.announce
  split
  · exact h
  · exact State.modSel_linksKept (State.log_linksKept h)

theorem State.switchSource_linksKept {ember : Bool} {why : Nat} : LinksKept r (s.switchSource ember why) := by
  unfold State.switchSource
  extract_lets s1
  have h1 : LinksKept r s1 := LinksKept.ite h (State.setFlag_linksKept h (by decide))
  exact State.modSel_linksKept (State.event_linksKept (State.setFlag_linksKept h1 (by decide)) (by decide))

theorem State.tryReturn_linksKept : LinksKept r s.tryReturn := LinksKept.ite (State.switchSource_linksKept h) h

theorem State.handEmber_linksKept {m : EmberMsg} : LinksKept r (s.handEmber m) := by
  unfold State.handEmber
  split
  · exact h
  · refine LinksKept.ite h ?_
    extract_lets fl s1 s2 sel s3 s4
    have h2 : LinksKept r s2 := State.announce_linksKept (State.handOver_linksKept h)
    have h3 : LinksKept r s3 := LinksKept.ite h2 (State.setFld_linksKept h2 (by decide))
    exact State.tryReturn_linksKept (State.modSel_linksKept h3)

theorem State.restartCounts_linksKept : LinksKept r s.restartCounts := by
  unfold State.restartCounts
  extract_lets s1
  have h1 : LinksKept r s1 := State.setFld_linksKept h (by decide)
  exact State.modSel_linksKept (State.setFld_linksKept h1 (by decide))

theorem State.selectEmber_linksKept {why : Nat} : LinksKept r (s.selectEmber why) := by
  unfold State.selectEmber
  extract_lets s1 s2
  have h1 : LinksKept r s1 := LinksKept.ite h (State.switchSource_linksKept h)
  have h2 : LinksKept r s2 := State.modSel_linksKept (State.restartCounts_linksKept h1)
  split
  · exact h2
  · exact LinksKept.ite (State.handEmber_linksKept h2) h2

/-! ### Scenes -/

theorem State.phase_linksKept {p : Nat} : LinksKept r (s.phase p) := State.setFld_linksKept h (by decide)

theorem State.makeOutgoing_linksKept {ids : List Nat} : LinksKept r (s.makeOutgoing ids) := by
  unfold State.makeOutgoing
  extract_lets _ _ s1 gone s2 streams s3 _ s4 is s5
  have h1 : LinksKept r s1 := h.upd
  have h2 : LinksKept r s2 := LinksKept.foldl (fun _ _ _ hu => State.cvuAbort_linksKept hu) h1
  have h3 : LinksKept r s3 := LinksKept.foldl (fun _ _ _ hu => State.unbindStream_linksKept hu) h2
  have h4 : LinksKept r s4 := h3.upd
  have h5 : LinksKept r s5 := LinksKept.foldl (fun _ _ _ hu => State.cancel_linksKept hu) h4
  exact LinksKept.ite h5 (State.phase_linksKept h5)

theorem State.baseHandover_linksKept : LinksKept r s.baseHandover :=
  State.selectEmber_linksKept (State.setFlag_linksKept h (by decide))

theorem State.promoteStreams_linksKept {ss : List Nat} : LinksKept r (s.promoteStreams ss) :=
  LinksKept.ite h (State.event_takeover_linksKept (LinksKept.foldl (fun u x _ hu =>
    State.setFlag_linksKept (hu.same (State.modCam_same (Same.refl u) (by decide))) (by decide)) h))

theorem State.requestUnits_linksKept {ls : List LayerRec} :
    LinksKept r (ls.foldl (fun (u : State) l => l.units.foldl State.requestPower u) s) :=
  LinksKept.foldl (fun _ _ _ hu => LinksKept.foldl (fun u _ _ hu =>
    hu.same (State.requestPower_same (Same.refl u) (by decide))) hu) h

theorem State.accept_linksKept {target cause : Nat} {strip : Option (List Nat)} {promote : List Nat} :
    LinksKept r (s.accept target cause strip promote) := by
  unfold State.accept
  extract_lets from' boundIds newIds out inc base s1 sw _ s2 s3 s4 s5 s6
  have h2 : LinksKept r s2 := (State.log_linksKept h).upd
  have h3 : LinksKept r s3 := State.phase_linksKept (State.setFld_linksKept h2 (by decide))
  have h4 : LinksKept r s4 := LinksKept.ite (State.baseHandover_linksKept h3) h3
  have h5 : LinksKept r s5 := State.promoteStreams_linksKept (State.makeOutgoing_linksKept h4)
  have h6 : LinksKept r s6 := State.requestUnits_linksKept h5
  exact h6.same (State.syncCoverage_same (Same.refl s6) (by decide))

theorem State.redirect_linksKept {v : Nat} : LinksKept r (s.redirect v) := by
  unfold State.redirect
  split
  · exact h
  · rename_i sw _
    extract_lets newIds boundIds more inc base s1 s2 s3 s4 s5
    have h1 : LinksKept r s1 := h.same (State.modSwitch_same (Same.refl s) (by decide))
    have h2 : LinksKept r s2 := State.setFld_linksKept h1 (by decide)
    have h3 : LinksKept r s3 := LinksKept.ite (State.baseHandover_linksKept h2) h2
    have h5 : LinksKept r s5 := State.requestUnits_linksKept (State.makeOutgoing_linksKept h3)
    exact h5.same (State.syncCoverage_same (Same.refl s5) (by decide))

theorem State.selectScene_linksKept {code : Nat} : LinksKept r (s.selectScene code) := by
  unfold State.selectScene
  extract_lets ls
  refine LinksKept.ite h ?_
  split
  · exact State.accept_linksKept h
  · split
    · exact State.accept_linksKept h
    · clear_value ls
      split
      · exact h
      · exact LinksKept.ite (State.severe_linksKept h) (State.accept_linksKept h)

theorem State.fenceScene_linksKept {code : Nat} : LinksKept r (s.fenceScene code) := by
  refine LinksKept.ite h ?_
  extract_lets _ s1
  have h1 : LinksKept r s1 := h.upd
  split
  · exact State.selectScene_linksKept h1
  · refine LinksKept.ite ?_ h1.upd
    split
    · exact State.redirect_linksKept h1
    · exact h1.upd

theorem State.takeover_linksKept {partner : Nat} : LinksKept r (s.takeover partner) := by
  refine LinksKept.ite h ?_
  split
  · exact h.upd
  · split
    · exact LinksKept.ite (State.promoteStreams_linksKept h) (State.accept_linksKept h)
    · exact State.selectScene_linksKept h

/-- What the loss or unreachability of a partner does beside its own bits keeps the links' head registers. -/
theorem State.partnerGoes_linksKept {e why : Nat} : LinksKept r (s.partnerGoes e why) := by
  unfold State.partnerGoes
  extract_lets code s1 s2 s3 s4 s5 s6
  have h1 : LinksKept r s1 := State.log_linksKept h
  have h2 : LinksKept r s2 := LinksKept.ite (State.doubt_linksKept h1) h1
  have h3 : LinksKept r s3 := by
    unfold s3
    split
    · exact State.setFlag_linksKept h2 (isLinkReg_of_mod (by unfold Reg.GML_TIME; omega))
    · exact h2
  have h4 : LinksKept r s4 := State.drainAllAbsent_linksKept h3
  have h6 : LinksKept r s6 := LinksKept.ite h4.upd h4
  exact LinksKept.ite (State.takeover_linksKept h6) (State.fenceScene_linksKept h4)

end

end Sys2Proof.Machine
end

section
/-! SUPPORT. Partners (R9, R364, R453, R454, R461, R464 to R466): what sending leaves, what a heartbeat sends, and what the
loss of a partner shows. -/

namespace Sys2Proof.Machine

open Sys2Proof

/-! ### Bits of registers -/

theorem State.getLsbD_reg (s : State) (a i : Nat) : (s.reg a).getLsbD i = s.flag a ⟨i, i⟩ := by
  have hw : i + 1 - i = 1 := by omega
  have bit := Bits.get_testBit ⟨i, i⟩ (s.reg a) 0
  have small : s.fld a ⟨i, i⟩ < 2 := by
    unfold State.fld
    simp only [Bits.get, hw]
    omega
  simp only [hw, Nat.zero_lt_one, decide_true, Bool.true_and, Nat.add_zero] at bit
  rw [← bit]
  unfold State.flag
  show (s.fld a ⟨i, i⟩).testBit 0 = _
  generalize s.fld a ⟨i, i⟩ = n at small ⊢
  rcases (by omega : n = 0 ∨ n = 1) with rfl | rfl <;> rfl

theorem State.isLost_eq (s : State) (e : Nat) : s.isLost e = s.flag Reg.GML_PEERS ⟨8 + e, 8 + e⟩ := s.getLsbD_reg _ _

theorem State.isUnreachable_eq (s : State) (e : Nat) : s.isUnreachable e = s.flag Reg.GML_PEERS ⟨16 + e, 16 + e⟩ :=
  s.getLsbD_reg _ _

theorem Bits.ok_bit {i : Nat} (h : i < 32) : Bits.ok ⟨i, i⟩ = true := by simp [Bits.ok, h]

theorem Bits.apart_bits {i j : Nat} (h : i ≠ j) : Bits.apart ⟨i, i⟩ ⟨j, j⟩ = true := by
  simp only [Bits.apart, Bool.or_eq_true, decide_eq_true_eq]; omega

/-! ### Sending -/

/-- From r to t packets have been sent and nothing else has happened to the links: no flit has left a replay buffer, the sequence
numbers have not gone back, routes are as they were, and only flit counters have changed in the register file. -/
structure Sent (r t : State) : Prop where
  reg : ∀ a, (∀ k, a ≠ Reg.GML_CNT k 0) → t.reg a = r.reg a
  length : t.gml.links.length = r.gml.links.length
  routes : t.gml.routes = r.gml.routes
  tx : ∀ k, ∀ x ∈ (r.link k).tx, x ∈ (t.link k).tx
  txSeq : ∀ k, (r.link k).txSeq ≤ (t.link k).txSeq

namespace Sent

theorem refl (s : State) : Sent s s := ⟨fun _ _ => rfl, rfl, rfl, fun _ _ h => h, fun _ => Nat.le_refl _⟩

theorem trans {r s t : State} (h : Sent r s) (g : Sent s t) : Sent r t :=
  ⟨fun a ha => (g.reg a ha).trans (h.reg a ha), g.length.trans h.length, g.routes.trans h.routes,
    fun k x hx => g.tx k x (h.tx k x hx), fun k => (h.txSeq k).trans (g.txSeq k)⟩

theorem foldl {α : Type} {l : List α} {F : State → α → State} {s : State} (hF : ∀ u x, Sent u (F u x)) : Sent s (l.foldl F s) := by
  induction l generalizing s with
  | nil => exact refl s
  | cons x t ih => exact (hF s x).trans ih

end Sent

theorem State.sendOn_link (s : State) (k j : Nat) (p : GmlPkt) : (s.sendOn k p).link j =
    if j = k ∧ j < s.gml.links.length then
      { s.link j with tx := (s.link j).tx ++ [((s.link j).txSeq % 4096, [p])], txSeq := (s.link j).txSeq + 1 }
    else s.link j := by
  refine Eq.trans ?_ (State.link_modLink s k j fun l => { l with tx := l.tx ++ [(l.txSeq % 4096, [p])], txSeq := l.txSeq + 1 })
  unfold State.sendOn State.countFlit
  dsimp only
  split <;> rfl

theorem State.sendOn_sent (s : State) (k : Nat) (p : GmlPkt) : Sent s (s.sendOn k p) := by
  refine ⟨fun a ha => ?_, ?_, ?_, fun j x hx => ?_, fun j => ?_⟩
  · unfold State.sendOn State.countFlit
    dsimp only
    split
    · exact (State.reg_addCnt_other _ _ _ _ (ha k).symm).trans rfl
    · rfl
  · unfold State.sendOn State.countFlit
    dsimp only
    split <;> simp [State.modLink]
  · unfold State.sendOn State.countFlit
    dsimp only
    split <;> rfl
  · rw [State.sendOn_link]
    split
    · exact List.mem_append_left _ hx
    · exact hx
  · rw [State.sendOn_link]
    split
    · exact Nat.le_succ _
    · exact Nat.le_refl _

theorem State.sendTo_sent (s : State) (e : Nat) (p : GmlPkt) : Sent s (s.sendTo e p) := by
  unfold State.sendTo
  split
  · exact State.sendOn_sent s _ p
  · exact Sent.refl s

theorem State.forwardRecords_sent (s : State) : Sent s s.forwardRecords := by
  unfold State.forwardRecords
  split
  · exact ⟨fun _ _ => rfl, rfl, rfl, fun _ _ h => h, fun _ => Nat.le_refl _⟩
  · split
    · exact Sent.refl s
    · extract_lets u
      have hu : Sent s u := Sent.foldl fun v x => State.sendTo_sent v _ _
      exact ⟨hu.reg, hu.length, hu.routes, hu.tx, hu.txSeq⟩

/-! ### Heartbeats (R464, R465) -/

/-- The heartbeat and the time of this device on a link that is up. -/
def State.beatOn (s : State) (k : Nat) : State :=
  if s.linkState k == 2 then (s.sendOn k (.heartbeat (dev2 s.device) s.isReady)).sendOn k s.ownTime else s

theorem execGmlHeartbeatSend_eq (s : State) : execGmlHeartbeatSend s =
    .next (([0, 1, 2].foldl State.beatOn (s.commitShadows 0x800000 0x810000).refreshActive).forwardRecords) := rfl

theorem State.beatOn_sent (s : State) (k : Nat) : Sent s (s.beatOn k) := by
  unfold State.beatOn
  split
  · exact (State.sendOn_sent s k _).trans (State.sendOn_sent _ k _)
  · exact Sent.refl s

/-- What sending leaves: the state of the links, this device's number, and whether it is READY. -/
theorem Sent.shown {r t : State} (h : Sent r t) :
    (∀ k < 3, t.linkState k = r.linkState k) ∧ t.device = r.device ∧ t.isReady = r.isReady := by
  have status : ∀ k < 3, t.reg (Reg.GML_STATUS k) = r.reg (Reg.GML_STATUS k) := fun k hk =>
    h.reg _ fun j => by unfold Reg.GML_STATUS Reg.GML_CNT; omega
  have sys : t.reg Reg.GML_SYS = r.reg Reg.GML_SYS := h.reg _ fun j => by unfold Reg.GML_SYS Reg.GML_CNT; omega
  have kin : t.reg Reg.SYS_KIN_STATUS = r.reg Reg.SYS_KIN_STATUS :=
    h.reg _ fun j => by unfold Reg.SYS_KIN_STATUS Reg.GML_CNT; omega
  refine ⟨fun k hk => ?_, ?_, ?_⟩
  · unfold State.linkState State.fld; rw [status k hk]
  · unfold State.device State.fld; rw [sys]
  · unfold State.isReady State.fld; rw [kin]

/-- The heartbeat of s waits in the replay buffer of link k of t, and the link has sent two flits more. -/
def State.hasBeaten (s t : State) (k : Nat) : Prop :=
  (∃ n, (n, [GmlPkt.heartbeat (dev2 s.device) s.isReady]) ∈ (t.link k).tx) ∧ (s.link k).txSeq + 2 ≤ (t.link k).txSeq

theorem State.hasBeaten.sent {s t u : State} {k : Nat} (h : s.hasBeaten t k) (g : Sent t u) : s.hasBeaten u k :=
  ⟨h.1.imp fun _ hn => g.tx k _ hn, h.2.trans (g.txSeq k)⟩

theorem State.hasBeaten.waits {s t : State} {k : Nat} (h : s.hasBeaten t k) :
    (t.link k).tx.any (fun x => x.2 == [.heartbeat (dev2 s.device) s.isReady]) = true := by
  obtain ⟨⟨n, hn⟩, -⟩ := h
  exact List.any_eq_true.mpr ⟨_, hn, beq_self_eq_true _⟩

theorem State.beatOn_hasBeaten {s : State} {k : Nat} (hs : s.linkState k = 2) (hk : k < s.gml.links.length) :
    s.hasBeaten (s.beatOn k) k := by
  have hk' : k < (s.sendOn k (.heartbeat (dev2 s.device) s.isReady)).gml.links.length := by
    rw [(State.sendOn_sent s k _).length]; exact hk
  have e : s.beatOn k = (s.sendOn k (.heartbeat (dev2 s.device) s.isReady)).sendOn k s.ownTime := by
    unfold State.beatOn
    rw [hs]
    rfl
  refine ⟨⟨(s.link k).txSeq % 4096, ?_⟩, ?_⟩
  · rw [e]
    refine (State.sendOn_sent _ k _).tx k _ ?_
    rw [State.sendOn_link, if_pos ⟨rfl, hk⟩]
    exact List.mem_append_right _ List.mem_cons_self
  · rw [e, State.sendOn_link, if_pos ⟨rfl, hk'⟩, State.sendOn_link, if_pos ⟨rfl, hk⟩]

/-- Every link of a list that is up carries the heartbeat. -/
theorem State.foldl_beatOn {l : List Nat} {s : State} {k : Nat} (hl : k ∈ l) (hk : k < 3) (hs : s.linkState k = 2)
    (hlen : s.gml.links.length = 3) : s.hasBeaten (l.foldl State.beatOn s) k := by
  induction l generalizing s with
  | nil => cases hl
  | cons j t ih =>
    have sent := State.beatOn_sent s j
    obtain ⟨hstate, hdev, hready⟩ := sent.shown
    rw [List.foldl_cons]
    rcases List.mem_cons.mp hl with rfl | hl
    · exact (State.beatOn_hasBeaten hs (by omega)).sent (Sent.foldl State.beatOn_sent)
    · obtain ⟨hb, hq⟩ := ih hl ((hstate k hk).trans hs) (sent.length.trans hlen)
      rw [hdev, hready] at hb
      exact ⟨hb, (Nat.add_le_add_right (sent.txSeq k) 2).trans hq⟩

theorem resetWord_GML_STATUS {k : Nat} (hk : k < 3) : resetWord (Reg.GML_STATUS k) = 0 := by
  rcases (by omega : k = 0 ∨ k = 1 ∨ k = 2) with rfl | rfl | rfl <;> decide

/-- A value other than the reset value is read back from any register file, canonical or not. -/
theorem State.reg_setReg_of_ne (s : State) {a : Nat} {v : Word} (h : v ≠ resetWord a) : (s.setReg a v).reg a = v := by
  unfold State.setReg State.reg
  rw [if_neg h, assocGet_assocPut_same]
  rfl

/-- A link that is up stays up when its activity is shown, in any register file: its status differs from the reset value. -/
theorem State.linkState_setFlag_active (s : State) {k : Nat} (hk : k < 3) (v : Bool) (h : s.linkState k = 2) :
    (s.setFlag (Reg.GML_STATUS k) F.GML_STATUS.ACTIVE v).linkState k = 2 := by
  have up : F.GML_STATUS.STATE.get (F.GML_STATUS.ACTIVE.put (if v then 1 else 0) (s.reg (Reg.GML_STATUS k))) = 2 :=
    (Bits.get_put_other _ _ _ _ (by decide) (by decide)).trans h
  have ne : F.GML_STATUS.ACTIVE.put (if v then 1 else 0) (s.reg (Reg.GML_STATUS k)) ≠ resetWord (Reg.GML_STATUS k) := by
    intro e
    rw [e, resetWord_GML_STATUS hk] at up
    revert up
    decide
  exact (congrArg F.GML_STATUS.STATE.get (State.reg_setReg_of_ne s ne)).trans up

/-- A link that is up stays up when activity and routes are shown anew. -/
theorem State.linkState_refreshActive {s : State} {k : Nat} (hk : k < 3) (h : s.linkState k = 2) :
    s.refreshActive.linkState k = 2 := by
  have one : ∀ (u : State) (j : Nat) (v : Bool), u.linkState k = 2 →
      (u.setFlag (Reg.GML_STATUS j) F.GML_STATUS.ACTIVE v).linkState k = 2 := by
    intro u j v hu
    by_cases hj : j = k
    · subst hj; exact State.linkState_setFlag_active u hk v hu
    · exact (State.fld_setFld_other u _ _ _ _ _ (by unfold Reg.GML_STATUS; omega)).trans hu
  have routes : ∀ u : State, ((List.range 4).foldl State.reroute u).linkState k = u.linkState k := fun u => by
    unfold State.linkState State.fld
    rw [State.reg_foldl fun v e _ => State.reg_reroute v e (by unfold Reg.GML_STATUS Reg.GML_PEERS; omega)]
  unfold State.refreshActive
  rw [routes]
  exact one _ _ _ (one _ _ _ (one _ _ _ h))

/-- Showing activity and routes leaves the links' queues and sequence numbers alone. -/
theorem State.links_refreshActive (s : State) : s.refreshActive.gml.links = s.gml.links := by
  have routes : ∀ (l : List Nat) (u : State), (l.foldl State.reroute u).gml.links = u.gml.links := by
    intro l
    induction l with
    | nil => intro u; rfl
    | cons e t ih =>
      intro u
      rw [List.foldl_cons, ih]
      unfold State.reroute
      dsimp only
      split <;> rfl
  exact (routes _ _).trans rfl

/-! ### Loss and reachability (R461, R466) -/

/-- The wiring of the links depends on GML_SYS alone. -/
theorem State.wiring_congr {s t : State} (h : t.reg Reg.GML_SYS = s.reg Reg.GML_SYS) :
    t.linkPartner = s.linkPartner ∧ (∀ e, t.directLink? e = s.directLink? e) ∧ ∀ e, t.isPartner e = s.isPartner e := by
  have dev : t.device = s.device := by unfold State.device State.fld; rw [h]
  have cnt : t.deviceCount = s.deviceCount := by unfold State.deviceCount State.fld; rw [h]
  have ring : t.ringTopology = s.ringTopology := by unfold State.ringTopology State.flag State.fld; rw [h, cnt]
  have part : t.linkPartner = s.linkPartner := by funext k; unfold State.linkPartner; rw [dev, cnt, ring]
  refine ⟨part, fun e => ?_, fun e => ?_⟩
  · unfold State.directLink?; rw [part]
  · unfold State.isPartner; rw [dev, cnt]

/-- GML_SYS.COUNT names at most four devices. -/
theorem State.deviceCount_le (s : State) : s.deviceCount ≤ 4 := by
  have h : s.fld Reg.GML_SYS F.GML_SYS.COUNT < 4 := Nat.mod_lt _ (by decide)
  unfold State.deviceCount
  omega

theorem State.losePartner_of_gone {s : State} {e : Nat} (h : s.isPartner e = false ∨ s.isLost e = true) : s.losePartner e = s := by
  unfold State.losePartner
  refine if_pos ?_
  rcases h with h | h <;> simp [h]

/-- GML_PEERS shows the partner as lost and no longer as unreachable. -/
def State.peersLost (s : State) (e : Nat) : State :=
  (s.setFlag Reg.GML_PEERS ⟨8 + e, 8 + e⟩ true).setFlag Reg.GML_PEERS ⟨16 + e, 16 + e⟩ false

/-- The state in which the consequences of a loss are drawn: GML_PEERS and GML_EVENT show it. -/
def State.markLost (s : State) (e : Nat) : State := (s.peersLost e).event Reg.GML_EVENT F.GML_EVENT.LOST

theorem State.losePartner_of_present {s : State} {e : Nat} (hp : s.isPartner e = true) (hl : s.isLost e = false) :
    s.losePartner e = (s.markLost e).partnerGoes e 1 := by
  unfold State.losePartner
  exact if_neg (by simp [hp, hl])

theorem State.peersLost_regsWf {s : State} (e : Nat) (h : regsWf s.regs = true) : regsWf (s.peersLost e).regs = true :=
  State.setFld_regsWf _ _ _ _ (State.setFld_regsWf s _ _ _ h)

theorem State.markLost_regsWf {s : State} (e : Nat) (h : regsWf s.regs = true) : regsWf (s.markLost e).regs = true :=
  State.setFld_regsWf _ _ _ _ (State.peersLost_regsWf e h)

/-- The marks of a loss, and the events beside LOST, which stay as they were. -/
theorem State.markLost_shown {s : State} {e : Nat} (h : regsWf s.regs = true) (he : e < 4) :
    (s.markLost e).isLost e = true ∧ (s.markLost e).isUnreachable e = false ∧
      (s.markLost e).flag Reg.GML_EVENT F.GML_EVENT.LOST = true ∧
      (s.markLost e).flag Reg.GML_EVENT F.GML_EVENT.UNREACHABLE = s.flag Reg.GML_EVENT F.GML_EVENT.UNREACHABLE := by
  have w1 : regsWf (s.setFlag Reg.GML_PEERS ⟨8 + e, 8 + e⟩ true).regs = true := State.setFld_regsWf s _ _ _ h
  have w2 := State.peersLost_regsWf e h
  have peers : ∀ b, (s.markLost e).flag Reg.GML_PEERS b = (s.peersLost e).flag Reg.GML_PEERS b := fun b =>
    State.flag_setFlag_other _ Reg.GML_EVENT Reg.GML_PEERS F.GML_EVENT.LOST b true (by decide)
  have events : ∀ b, (s.peersLost e).flag Reg.GML_EVENT b = s.flag Reg.GML_EVENT b := fun b =>
    (State.flag_setFlag_other _ _ _ _ b _ (by decide)).trans (State.flag_setFlag_other s _ _ _ b _ (by decide))
  refine ⟨?_, ?_, State.flag_event_same _ Reg.GML_EVENT 0 w2 (by decide), ?_⟩
  · rw [State.isLost_eq, peers]
    exact (State.flag_setFlag_field _ _ _ _ _ w1 (Bits.ok_bit (by omega)) (Bits.apart_bits (by omega))).trans
      (State.flag_setFlag_same s _ _ true h (by omega))
  · rw [State.isUnreachable_eq, peers]
    exact State.flag_setFlag_same _ _ _ false w1 (by omega)
  · exact (State.flag_setFlag_field _ Reg.GML_EVENT F.GML_EVENT.LOST F.GML_EVENT.UNREACHABLE true w2 (by decide)
      (by decide)).trans (events _)

/-- What follows a loss keeps what GML_PEERS shows of the partners and every event but TAKEOVER. -/
theorem State.partnerGoes_shown {s : State} (e why : Nat) (h : regsWf s.regs = true) :
    (∀ p, (s.partnerGoes e why).isLost p = s.isLost p) ∧ (∀ p, (s.partnerGoes e why).isUnreachable p = s.isUnreachable p) ∧
      ∀ b, b.ok = true → F.GML_EVENT.TAKEOVER.apart b = true →
        (s.partnerGoes e why).flag Reg.GML_EVENT b = s.flag Reg.GML_EVENT b := by
  have kept := State.partnerGoes_linksKept (e := e) (why := why) (LinksKept.refl s)
  have peers := kept.reg Reg.GML_PEERS (by decide) (by decide)
  refine ⟨fun p => ?_, fun p => ?_, fun b hb hap => ?_⟩
  · unfold State.isLost; rw [peers]
  · unfold State.isUnreachable; rw [peers]
  · unfold State.flag; rw [kept.event h b hb hap]

/-- A loss shows LOST in place of UNREACHABLE and records the event; other events stay as they were. -/
theorem State.losePartner_shown {s : State} {e : Nat} (h : regsWf s.regs = true) (he : e < 4) (hp : s.isPartner e = true)
    (hl : s.isLost e = false) :
    (s.losePartner e).isLost e = true ∧ (s.losePartner e).isUnreachable e = false ∧
      (s.losePartner e).flag Reg.GML_EVENT F.GML_EVENT.LOST = true ∧
      (s.losePartner e).flag Reg.GML_EVENT F.GML_EVENT.UNREACHABLE = s.flag Reg.GML_EVENT F.GML_EVENT.UNREACHABLE := by
  obtain ⟨hlost, hreach, hevent, hother⟩ := State.markLost_shown h he
  obtain ⟨keptLost, keptReach, keptEvent⟩ := State.partnerGoes_shown e 1 (State.markLost_regsWf e h)
  rw [State.losePartner_of_present hp hl]
  exact ⟨(keptLost e).trans hlost, (keptReach e).trans hreach, (keptEvent _ (by decide) (by decide)).trans hevent,
    (keptEvent _ (by decide) (by decide)).trans hother⟩

/-- A partner is lost after its loss, whether or not it was before. -/
theorem State.isLost_losePartner {s : State} {e : Nat} (h : regsWf s.regs = true) (he : e < 4) (hp : s.isPartner e = true) :
    (s.losePartner e).isLost e = true := by
  cases hl : s.isLost e with
  | false => exact (State.losePartner_shown h he hp hl).1
  | true => rw [State.losePartner_of_gone (.inr hl), hl]

/-- A partner of the system description is one of four devices. -/
theorem State.lt_of_isPartner {s : State} {e : Nat} (h : s.isPartner e = true) : e < 4 := by
  simp only [State.isPartner, Bool.and_eq_true, decide_eq_true_eq] at h
  have := s.deviceCount_le
  omega

/-- A loss changes neither the status of a link nor when its PEER_SENSE last had an edge. -/
theorem State.losePartner_status_sense (s : State) (e : Nat) :
    (∀ k < 3, (s.losePartner e).reg (Reg.GML_STATUS k) = s.reg (Reg.GML_STATUS k)) ∧
      ∀ k, ((s.losePartner e).link k).senseAt = (s.link k).senseAt := by
  by_cases h : s.isPartner e = true ∧ s.isLost e = false
  · rw [State.losePartner_of_present h.1 h.2]
    have kept := State.partnerGoes_linksKept (e := e) (why := 1) (LinksKept.refl (s.markLost e))
    refine ⟨fun k hk => ?_, kept.sense⟩
    have ne : Reg.GML_PEERS ≠ Reg.GML_STATUS k := by unfold Reg.GML_PEERS Reg.GML_STATUS; omega
    have ev : Reg.GML_EVENT ≠ Reg.GML_STATUS k := by unfold Reg.GML_EVENT Reg.GML_STATUS; omega
    exact (kept.reg _ (isLinkReg_status hk) ev.symm).trans ((State.reg_setFld_other _ _ _ _ _ ev).trans
      ((State.reg_setFld_other _ _ _ _ _ ne).trans (State.reg_setFld_other _ _ _ _ _ ne)))
  · have gone : s.isPartner e = false ∨ s.isLost e = true := by
      cases hp : s.isPartner e <;> cases hl : s.isLost e <;> simp [hp, hl] at h ⊢
    rw [State.losePartner_of_gone gone]
    exact ⟨fun _ _ => rfl, fun _ => rfl⟩

theorem State.losePartner_mem_now (s : State) (e : Nat) : (s.losePartner e).mem = s.mem ∧ (s.losePartner e).now = s.now :=
  have k := State.losePartner_same (m0 := 33028105) (e := e) (Same.refl s) (by decide)
  ⟨k.mem (by decide), k.now (by decide)⟩

/-! ### The commands -/

/-- The state with the route to a device set in the sequencer's table. -/
def State.withRoute (s : State) (e : Nat) (r : Option Nat) : State :=
  { s with gml := { s.gml with routes := s.gml.routes.mapIdx (fun i x => if i == e then r else x) } }

/-- What a reroute comes to where nothing keeps the old route: the route is set, and GML_PEERS shows it. -/
def State.routed (s : State) (e : Nat) : State :=
  ((s.withRoute e (s.newRoute e)).setFlag Reg.GML_PEERS ⟨12 + e, 12 + e⟩ (s.newRoute e).isSome).setFlag Reg.GML_PEERS
    ⟨4 + e, 4 + e⟩ ((s.newRoute e).isSome && s.newRoute e != s.directLink? e)

/-- Nothing about the route to a device changes: it is this device or none, or transactions are outstanding on the old route. -/
def State.routeStays (s : State) (e : Nat) : Bool :=
  e == s.device || decide (s.deviceCount ≤ e) || s.gml.outstanding.any (fun x => x.peer == e && x.status == 0 &&
    s.gml.routes.getD e none == some x.link && s.newRoute e != some x.link)

theorem State.reroute_of_stays {s : State} {e : Nat} (h : s.routeStays e = true) : s.reroute e = s := by
  unfold State.reroute
  exact if_pos h

theorem State.reroute_of_moves {s : State} {e : Nat} (h : s.routeStays e = false) : s.reroute e = s.routed e := by
  have direct : ((s.withRoute e (s.newRoute e)).setFlag Reg.GML_PEERS ⟨12 + e, 12 + e⟩ (s.newRoute e).isSome).directLink? e =
      s.directLink? e := (State.wiring_congr ((State.reg_setFld_other _ _ _ _ _ (by decide)).trans rfl)).2.1 e
  unfold State.reroute State.routed
  rw [← direct]
  exact if_neg (by rw [Bool.not_eq_true]; exact h)

theorem mapIdx_ite_eq_set {α : Type} (l : List α) (e : Nat) (r : α) :
    l.mapIdx (fun i x => if i == e then r else x) = l.set e r := by
  refine List.ext_getElem (by simp) fun i h1 h2 => ?_
  by_cases hi : i = e
  · subst hi; simp
  · simp [hi, Ne.symm hi]

/-- The new route is shown as active, and as routed where it is not the direct link. -/
theorem State.routed_shown {s : State} {e : Nat} (h : regsWf s.regs = true) (he : e < 4) :
    (s.routed e).flag Reg.GML_PEERS ⟨12 + e, 12 + e⟩ = (s.newRoute e).isSome ∧
      (s.routed e).flag Reg.GML_PEERS ⟨4 + e, 4 + e⟩ = ((s.newRoute e).isSome && s.newRoute e != s.directLink? e) := by
  have w1 : regsWf ((s.withRoute e (s.newRoute e)).setFlag Reg.GML_PEERS ⟨12 + e, 12 + e⟩ (s.newRoute e).isSome).regs = true :=
    State.setFld_regsWf _ _ _ _ h
  refine ⟨?_, State.flag_setFlag_same _ _ _ _ w1 (by omega)⟩
  exact (State.flag_setFlag_field _ _ _ _ _ w1 (Bits.ok_bit (by omega)) (Bits.apart_bits (by omega))).trans
    (State.flag_setFlag_same _ _ _ _ h (by omega))

theorem execRouteChange_mem_now (s : State) (peer : Fin 4) :
    ((s.reroute peer.val).forwardRecords).mem = s.mem ∧ ((s.reroute peer.val).forwardRecords).now = s.now :=
  have k := (execRouteChange_same (m0 := 8454145) (peer := peer) (Same.refl s) (by decide)).of _ rfl
  ⟨k.mem (by decide), k.now (by decide)⟩

theorem execPeerSenseTimeout_of_none {s : State} {link : Fin 3}
    (h : s.linkPartner link.val = none ∨ (s.link link.val).senseAt = none) : execPeerSenseTimeout link s = .next s := by
  unfold execPeerSenseTimeout
  dsimp only
  rcases h with h | h
  · rw [h]
  · rw [h]
    split
    · rename_i hn; cases hn
    · rfl

/-- The state in which a partner whose PEER_SENSE has ended is lost (R466). -/
def State.senseEnded (s : State) (k a : Nat) : State :=
  ((s.reach (a + 1500000)).setFlag (Reg.GML_STATUS k) F.GML_STATUS.SENSE false).modLink k (fun l => { l with senseAt := none })

/-- The end of PEER_SENSE is shown, and what GML_SYS and GML_PEERS say of the partners is as it was. -/
theorem State.senseEnded_facts {s : State} {k : Nat} (a : Nat) (h : regsWf s.regs = true) (hk : k < s.gml.links.length) :
    (s.senseEnded k a).flag (Reg.GML_STATUS k) F.GML_STATUS.SENSE = false ∧ ((s.senseEnded k a).link k).senseAt = none ∧
      (∀ e, (s.senseEnded k a).isPartner e = s.isPartner e) ∧ (∀ e, (s.senseEnded k a).isLost e = s.isLost e) ∧
      regsWf (s.senseEnded k a).regs = true := by
  have sys : (s.senseEnded k a).reg Reg.GML_SYS = s.reg Reg.GML_SYS :=
    State.reg_setFld_other _ _ _ _ _ (by unfold Reg.GML_STATUS Reg.GML_SYS; omega)
  have peers : (s.senseEnded k a).reg Reg.GML_PEERS = s.reg Reg.GML_PEERS :=
    State.reg_setFld_other _ _ _ _ _ (by unfold Reg.GML_STATUS Reg.GML_PEERS; omega)
  refine ⟨State.flag_setFlag_same (s.reach (a + 1500000)) (Reg.GML_STATUS k) 9 false h (by decide), ?_,
    (State.wiring_congr sys).2.2, fun e => ?_, State.setFld_regsWf _ _ _ _ h⟩
  · rw [State.senseEnded, State.link_modLink]
    exact congrArg LinkSt.senseAt (if_pos ⟨rfl, hk⟩)
  · unfold State.isLost; rw [peers]

theorem execPeerSenseTimeout_of_some {s : State} {link : Fin 3} {e a : Nat} (he : s.linkPartner link.val = some e)
    (ha : (s.link link.val).senseAt = some a) :
    execPeerSenseTimeout link s = .next ((s.senseEnded link.val a).losePartner e) := by
  unfold execPeerSenseTimeout
  dsimp only
  rw [he, ha]
  rfl

theorem execPeerUnreachable_of_absent {s : State} {peer : Fin 4} (h : ((s.gml.heard[peer.val]?).join.isNone ||
    !s.isPartner peer.val || s.isLost peer.val || s.isUnreachable peer.val) = true) :
    execPeerUnreachable peer s = .next s := by
  unfold execPeerUnreachable
  dsimp only
  split
  · rfl
  · rename_i a ha
    rw [ha] at h
    exact if_pos (by simpa using h)

/-- The state that shows a partner as unreachable (R466). -/
def State.markUnreachable (s : State) (e a : Nat) : State :=
  ((s.reach (a + 1000000)).setFlag Reg.GML_PEERS ⟨16 + e, 16 + e⟩ true).event Reg.GML_EVENT F.GML_EVENT.UNREACHABLE

theorem execPeerUnreachable_of_present {s : State} {peer : Fin 4} {a : Nat} (ha : (s.gml.heard[peer.val]?).join = some a)
    (h : (!s.isPartner peer.val || s.isLost peer.val || s.isUnreachable peer.val) = false) :
    execPeerUnreachable peer s =
      if ((s.markUnreachable peer.val a).directLink? peer.val).isNone then
        .next ((s.markUnreachable peer.val a).losePartner peer.val)
      else .next ((s.markUnreachable peer.val a).partnerGoes peer.val 2) := by
  unfold execPeerUnreachable
  dsimp only
  rw [ha]
  exact if_neg (by rw [h]; exact Bool.false_ne_true)

/-- Being shown as unreachable leaves the partner in the system description, not lost, and wired as before. -/
theorem State.markUnreachable_facts {s : State} {e : Nat} (a : Nat) (h : regsWf s.regs = true) (he : e < 4) :
    (s.markUnreachable e a).isUnreachable e = true ∧ (s.markUnreachable e a).isLost e = s.isLost e ∧
      (s.markUnreachable e a).isPartner e = s.isPartner e ∧ (s.markUnreachable e a).directLink? e = s.directLink? e ∧
      (s.markUnreachable e a).flag Reg.GML_EVENT F.GML_EVENT.UNREACHABLE = true ∧
      regsWf (s.markUnreachable e a).regs = true := by
  have w1 : regsWf ((s.reach (a + 1000000)).setFlag Reg.GML_PEERS ⟨16 + e, 16 + e⟩ true).regs = true :=
    State.setFld_regsWf _ _ _ _ h
  have peers : ∀ b, (s.markUnreachable e a).flag Reg.GML_PEERS b =
      ((s.reach (a + 1000000)).setFlag Reg.GML_PEERS ⟨16 + e, 16 + e⟩ true).flag Reg.GML_PEERS b := fun b =>
    State.flag_setFlag_other _ Reg.GML_EVENT Reg.GML_PEERS F.GML_EVENT.UNREACHABLE b true (by decide)
  have wiring := State.wiring_congr (s := s) (t := s.markUnreachable e a)
    ((State.reg_setFld_other _ _ _ _ _ (by decide)).trans (State.reg_setFld_other _ _ _ _ _ (by decide)))
  obtain ⟨-, hdirect, hpartner⟩ := wiring
  refine ⟨?_, ?_, hpartner e, hdirect e, State.flag_event_same _ Reg.GML_EVENT 1 w1 (by decide), State.setFld_regsWf _ _ _ _ w1⟩
  · rw [State.isUnreachable_eq, peers]
    exact State.flag_setFlag_same _ _ _ true h (by omega)
  · rw [State.isLost_eq, State.isLost_eq, peers]
    exact State.flag_setFlag_field _ _ _ _ _ h (Bits.ok_bit (by omega)) (Bits.apart_bits (by omega))

theorem State.partnerGoes_mem_now (s : State) (e why : Nat) :
    (s.partnerGoes e why).mem = s.mem ∧ (s.partnerGoes e why).now = s.now :=
  have k := State.partnerGoes_same (m0 := 33028105) (e := e) (why := why) (Same.refl s) (by decide)
  ⟨k.mem (by decide), k.now (by decide)⟩

/-- A heartbeat command sends the heartbeat on every up link and leaves the shadow values outside the block. -/
theorem execGmlHeartbeatSend_sends {s u : State} (hu : u = s.commitShadows 0x800000 0x810000) (hlen : s.gml.links.length = 3) :
    ∃ t, execGmlHeartbeatSend s = .next t ∧ (∀ k < 3, u.linkState k = 2 → u.hasBeaten t k) ∧ t.shadow = u.shadow ∧
      t.mem = s.mem ∧ t.now = s.now := by
  have same := (execGmlHeartbeatSend_same (m0 := 8454147) (Same.refl s) (by decide)).of _ (execGmlHeartbeatSend_eq s)
  have commit := State.commitShadows_same (m0 := 3) (lo := 0x800000) (hi := 0x810000) (Same.refl s) (by decide)
  rw [← hu] at commit
  have active := State.refreshActive_same (m0 := 8388609) (Same.refl u) (by decide)
  refine ⟨_, execGmlHeartbeatSend_eq s, fun k hk hup => ?_, ?_, same.mem (by decide), same.now (by decide)⟩
  · rw [← hu]
    have links : u.refreshActive.gml.links = s.gml.links := by
      rw [State.links_refreshActive, commit.gml (by decide)]
    have beaten := State.foldl_beatOn (l := [0, 1, 2]) (s := u.refreshActive) (k := k) (by simp; omega) hk
      (State.linkState_refreshActive hk hup) (by rw [links]; exact hlen)
    have dev : u.refreshActive.device = u.device := by
      unfold State.device State.fld
      rw [State.reg_refreshActive u (by decide) fun j => by unfold Reg.GML_SYS Reg.GML_STATUS; omega]
    have ready : u.refreshActive.isReady = u.isReady := by
      unfold State.isReady State.fld
      rw [State.reg_refreshActive u (by decide) fun j => by unfold Reg.SYS_KIN_STATUS Reg.GML_STATUS; omega]
    have link : u.refreshActive.link k = u.link k := by
      unfold State.link
      rw [State.links_refreshActive]
    obtain ⟨hb, hq⟩ := State.hasBeaten.sent beaten (State.forwardRecords_sent _)
    rw [dev, ready] at hb
    rw [link] at hq
    exact ⟨hb, hq⟩
  · rw [← hu]
    have sends : Same 8454145 u ([0, 1, 2].foldl State.beatOn u.refreshActive).forwardRecords :=
      State.forwardRecords_same (Same.foldl (fun v k hv => Same.ite (State.sendOn_same (State.sendOn_same hv (by decide))
        (by decide)) hv) (State.refreshActive_same (Same.refl u) (by decide))) (by decide)
    exact sends.shadow (by decide)

/-- Settles O45: sending only adds flits (`Sent`), and what follows a loss keeps the links' head registers (`LinksKept`). -/
theorem partners : Obligations.Partners := by
  unfold Obligations.Partners
  refine ⟨?_, ?_, ?_, ?_, ?_, ?_, ?_, ?_, ?_, ?_, ?_, ?_, ?_, ?_⟩
  case refine_1 =>
    intro s u hu hlen
    obtain ⟨t, ht, hbeat, hshadow, hmem, hnow⟩ := execGmlHeartbeatSend_sends hu hlen
    have three : ∀ k ∈ [0, 1, 2], k < 3 := by decide
    show completes (execGmlHeartbeatSend s) _
    rw [ht]
    refine completes_next ⟨?_, ?_, ?_, hmem, hnow⟩
    · rw [hshadow, hu]
      exact State.shadow_commitShadows s _ _
    · refine List.all_eq_true.mpr fun k hk => ?_
      by_cases hup : u.linkState k = 2
      · rw [(hbeat k (three k hk) hup).waits, Bool.or_true]
      · simp [hup]
    · refine List.all_eq_true.mpr fun k hk => ?_
      by_cases hup : u.linkState k = 2
      · rw [decide_eq_true (hbeat k (three k hk) hup).2, Bool.or_true]
      · simp [hup]
  case refine_2 =>
    intro s
    exact completes_next rfl
  case refine_3 =>
    intro s peer h
    exact completes_next (State.losePartner_of_gone h)
  case refine_4 =>
    intro s peer hc hp hl
    obtain ⟨hlost, hreach, hevent, -⟩ := State.losePartner_shown (State.canonical_regs hc) peer.isLt hp hl
    obtain ⟨hmem, hnow⟩ := s.losePartner_mem_now peer.val
    exact completes_next ⟨hlost, hreach, hevent, hmem, hnow⟩
  case refine_5 =>
    intro s link h
    show completes (execPeerSenseEdge link s) _
    have e : execPeerSenseEdge link s = .next s := if_pos (by rw [h]; rfl)
    rw [e]
    exact completes_next rfl
  case refine_6 =>
    intro s link e hc hlen hlink
    have hk : link.val < s.gml.links.length := by rw [hlen]; exact link.isLt
    have edge : execPeerSenseEdge link s = .next ((s.setFlag (Reg.GML_STATUS link.val) F.GML_STATUS.SENSE true).modLink link.val
        (fun l => { l with senseAt := some s.now })) := if_neg (by rw [hlink]; exact Bool.false_ne_true)
    show completes (execPeerSenseEdge link s) _
    rw [edge]
    refine completes_next ⟨State.flag_setFlag_same s _ 9 true (State.canonical_regs hc) (by decide), ?_, fun a ha => ?_, rfl⟩
    · rw [State.link_modLink]
      exact if_pos ⟨rfl, hk⟩
    · exact State.reg_setFld_other s _ _ _ _ fun h => ha (List.mem_singleton.mpr h.symm)
  case refine_7 =>
    intro s link h
    show completes (execPeerSenseTimeout link s) _
    rw [execPeerSenseTimeout_of_none h]
    exact completes_next rfl
  case refine_8 =>
    intro s link e a hc hlen hlink ha
    have hk : link.val < s.gml.links.length := by rw [hlen]; exact link.isLt
    obtain ⟨hflag, hnone, hpart, hlost, wf⟩ := State.senseEnded_facts a (State.canonical_regs hc) hk
    obtain ⟨hstatus, hsense⟩ := (s.senseEnded link.val a).losePartner_status_sense e
    obtain ⟨hmem, hnow⟩ := (s.senseEnded link.val a).losePartner_mem_now e
    show completes (execPeerSenseTimeout link s) _
    rw [execPeerSenseTimeout_of_some hlink ha]
    refine completes_next ⟨hnow, ?_, (hsense _).trans hnone, fun hp => ?_, fun hp hl => ?_, hmem⟩
    · unfold State.flag State.fld
      rw [hstatus link.val link.isLt]
      exact hflag
    · exact State.isLost_losePartner wf (State.lt_of_isPartner hp) ((hpart e).trans hp)
    · obtain ⟨-, -, hevent, -⟩ :=
        State.losePartner_shown wf (State.lt_of_isPartner hp) ((hpart e).trans hp) ((hlost e).trans hl)
      exact hevent
  case refine_9 =>
    intro s peer h
    show completes (execPeerUnreachable peer s) _
    rw [execPeerUnreachable_of_absent h]
    exact completes_next rfl
  case refine_10 =>
    intro s peer a hc ha h
    obtain ⟨hreach, hlost, hpart, hdirect, hevent, wf⟩ := State.markUnreachable_facts a (State.canonical_regs hc) peer.isLt
    have present := h
    simp only [Bool.or_eq_false_iff, Bool.not_eq_false'] at present
    obtain ⟨⟨hp, hl⟩, -⟩ := present
    show completes (execPeerUnreachable peer s) _
    rw [execPeerUnreachable_of_present ha h, hdirect]
    cases hd : s.directLink? peer.val with
    | none =>
      obtain ⟨hlost', hreach', -, hevent'⟩ := State.losePartner_shown wf peer.isLt (hpart.trans hp) (hlost.trans hl)
      obtain ⟨hmem, hnow⟩ := (s.markUnreachable peer.val a).losePartner_mem_now peer.val
      exact completes_next ⟨hnow, hevent'.trans hevent, fun hn => by simp at hn, fun _ => ⟨hlost', hreach'⟩, hmem⟩
    | some k =>
      obtain ⟨keptLost, keptReach, keptEvent⟩ := State.partnerGoes_shown peer.val 2 wf
      obtain ⟨hmem, hnow⟩ := (s.markUnreachable peer.val a).partnerGoes_mem_now peer.val 2
      exact completes_next ⟨hnow, (keptEvent _ (by decide) (by decide)).trans hevent,
        fun _ => ⟨(keptReach _).trans hreach, ((keptLost _).trans hlost).trans hl⟩, fun hn => by simp at hn, hmem⟩
  case refine_11 =>
    intro s peer h
    have routes := (s.reroute peer.val).forwardRecords_sent.routes
    rw [State.reroute_of_stays h] at routes
    obtain ⟨hmem, hnow⟩ := execRouteChange_mem_now s peer
    rw [State.reroute_of_stays h] at hmem hnow
    show completes (execRouteChange peer s) _
    unfold execRouteChange
    rw [State.reroute_of_stays h]
    exact completes_next ⟨routes, hmem, hnow⟩
  case refine_12 =>
    intro s peer hc hlen h
    have sent := (s.reroute peer.val).forwardRecords_sent
    obtain ⟨hmem, hnow⟩ := execRouteChange_mem_now s peer
    rw [State.reroute_of_moves h] at sent hmem hnow
    obtain ⟨hactive, hrouted⟩ := State.routed_shown (State.canonical_regs hc) peer.isLt
    have peers := sent.reg Reg.GML_PEERS fun k => by unfold Reg.GML_PEERS Reg.GML_CNT; omega
    have shown : ∀ b, (s.routed peer.val).forwardRecords.flag Reg.GML_PEERS b = (s.routed peer.val).flag Reg.GML_PEERS b :=
      fun b => by unfold State.flag State.fld; rw [peers]
    show completes (execRouteChange peer s) _
    unfold execRouteChange
    rw [State.reroute_of_moves h]
    exact completes_next ⟨sent.routes.trans (mapIdx_ite_eq_set _ _ _), (shown _).trans hactive, (shown _).trans hrouted, hmem,
      hnow⟩
  case refine_13 =>
    intro s h
    have e : execJournalForwardTimeout s = .next s := by unfold execJournalForwardTimeout; rw [h]
    show completes (execJournalForwardTimeout s) _
    rw [e]
    exact completes_next rfl
  case refine_14 =>
    intro s x l h
    have e : execJournalForwardTimeout s = .next ((s.reach (x.1 + 1000000000)).modJournal (fun j =>
        { j with forward := j.forward.filter (fun p => decide ((s.reach (x.1 + 1000000000)).now < p.1 + 1000000000)) })) := by
      unfold execJournalForwardTimeout
      rw [h]
    show completes (execJournalForwardTimeout s) _
    rw [e]
    refine completes_next ⟨rfl, ?_, rfl, rfl⟩
    rw [← h]
    rfl

end Sys2Proof.Machine
end

section
/-! SUPPORT. What every command keeps and what it leaves alone: the laws `Keeps` and `Same` of each command, gathered over the
commands of the block, and the statements on sound states and on the fuses that follow. -/

namespace Sys2Proof.Machine

open Sys2Proof

/-! ### Lists of parts as masks -/

/-- The mask of `Same` whose bits are the listed parts, numbered as `Part` lists them. -/
def Part.mask (l : List Part) : Nat := l.foldr (fun p m => 2 ^ p.ctorIdx ||| m) 0

theorem Part.ctorIdx_inj {p q : Part} (h : p.ctorIdx = q.ctorIdx) : p = q := by
  rw [← Part.ofNat_ctorIdx p, h, Part.ofNat_ctorIdx]

/-- A part whose bit a mask of parts holds is one of them. -/
theorem Part.mem_of_testBit_mask {l : List Part} {p : Part} (h : (Part.mask l).testBit p.ctorIdx = true) : p ∈ l := by
  induction l with
  | nil => simp [Part.mask] at h
  | cons q l ih =>
    rw [Part.mask, List.foldr_cons, Nat.testBit_or, Bool.or_eq_true, Nat.testBit_two_pow, decide_eq_true_eq] at h
    rcases h with h | h
    · rw [Part.ctorIdx_inj h]; exact List.mem_cons_self
    · exact List.mem_cons_of_mem q (ih h)

theorem Part.testBit_mask_of_not_mem {l : List Part} {p : Part} (h : p ∉ l) : (Part.mask l).testBit p.ctorIdx = false := by
  cases hb : (Part.mask l).testBit p.ctorIdx with
  | false => rfl
  | true => exact absurd (Part.mem_of_testBit_mask hb) h

/-! ### The laws of every command -/

/-- Every command keeps what `Keeps` says. -/
theorem exec_keeps (c : Instr) (s : State) : KeepsRes s (exec c s) := by
  unfold exec
  cases c with
  | porstNAssert => exact execPorstNAssert_keeps (.refl s)
  | porstNRelease => exact execPorstNRelease_keeps (.refl s)
  | wrstNFall => exact execWrstNFall_keeps (.refl s)
  | wrstNRise => exact execWrstNRise_keeps (.refl s)
  | warmResetHoldEnd => exact execWarmResetHoldEnd_keeps (.refl s)
  | kindlingWatchdogExpiry => exact execKindlingWatchdogExpiry_keeps (.refl s)
  | siSelfTestDone => exact execSiSelfTestDone_keeps (.refl s)
  | hkcSignatureCheck => exact execHkcSignatureCheck_keeps (.refl s)
  | imageSelect => exact execImageSelect_keeps (.refl s)
  | bistDone => exact execBistDone_keeps (.refl s)
  | lpddrTrainDone => exact execLpddrTrainDone_keeps (.refl s)
  | sectionLoaded => exact execSectionLoaded_keeps (.refl s)
  | checkStage => exact execCheckStage_keeps (.refl s)
  | firmwareStage => exact execFirmwareStage_keeps (.refl s)
  | seqWrite => exact execSeqWrite_keeps (.refl s)
  | seqReadExpect => exact execSeqReadExpect_keeps (.refl s)
  | seqWait => exact execSeqWait_keeps (.refl s)
  | seqPoll => exact execSeqPoll_keeps (.refl s)
  | seqGpio => exact execSeqGpio_keeps (.refl s)
  | seqFsyncEnable => exact execSeqFsyncEnable_keeps (.refl s)
  | seqEnd => exact execSeqEnd_keeps (.refl s)
  | sensorRetryTimer => exact execSensorRetryTimer_keeps (.refl s)
  | bindStage => exact execBindStage_keeps (.refl s)
  | verifyPass => exact execVerifyPass_keeps (.refl s)
  | verifyTimeout => exact execVerifyTimeout_keeps (.refl s)
  | nvmEraseProgramCommand => exact execNvmEraseProgramCommand_keeps (.refl s)
  | sectionReloadDone => exact execSectionReloadDone_keeps (.refl s)
  | hello => exact execHello_keeps (.refl s)
  | serviceOpen => exact execServiceOpen_keeps (.refl s)
  | serviceClose => exact execServiceClose_keeps (.refl s)
  | sessionIdleTimeout => exact execSessionIdleTimeout_keeps (.refl s)
  | serviceStatus => exact execServiceStatus_keeps (.refl s)
  | readReg => exact execReadReg_keeps (.refl s)
  | journalRead => exact execJournalRead_keeps (.refl s)
  | sceneRequest => exact execSceneRequest_keeps (.refl s)
  | stageBegin => exact execStageBegin_keeps (.refl s)
  | stageEraseDone => exact execStageEraseDone_keeps (.refl s)
  | stageChunk => exact execStageChunk_keeps (.refl s)
  | stageChunkProgrammed => exact execStageChunkProgrammed_keeps (.refl s)
  | stageEnd => exact execStageEnd_keeps (.refl s)
  | stageStatus => exact execStageStatus_keeps (.refl s)
  | stageIdleTimeout => exact execStageIdleTimeout_keeps (.refl s)
  | gpioFilterExpiry => exact execGpioFilterExpiry_keeps (.refl s)
  | switchDrainKill => exact execSwitchDrainKill_keeps (.refl s)
  | switchCinder => exact execSwitchCinder_keeps (.refl s)
  | switchBind => exact execSwitchBind_keeps (.refl s)
  | switchOpen => exact execSwitchOpen_keeps (.refl s)
  | dwellExpiry => exact execDwellExpiry_keeps (.refl s)
  | tokenLookup => exact execTokenLookup_keeps (.refl s)
  | instanceAdmit => exact execInstanceAdmit_keeps (.refl s)
  | dispatch => exact execDispatch_keeps (.refl s)
  | affinityHoldExpiry => exact execAffinityHoldExpiry_keeps (.refl s)
  | pcDispatch => exact execPcDispatch_keeps (.refl s)
  | fgsDisp0Read => exact execFgsDisp0Read_keeps (.refl s)
  | fgsPcDone => exact execFgsPcDone_keeps (.refl s)
  | fgsPost => exact execFgsPost_keeps (.refl s)
  | fgsCancel => exact execFgsCancel_keeps (.refl s)
  | fgsAffinityForget => exact execFgsAffinityForget_keeps (.refl s)
  | stepComplete => exact execStepComplete_keeps (.refl s)
  | release => exact execRelease_keeps (.refl s)
  | releaseRetry => exact execReleaseRetry_keeps (.refl s)
  | stallRelease => exact execStallRelease_keeps (.refl s)
  | deferredVoid => exact execDeferredVoid_keeps (.refl s)
  | slotDrain => exact execSlotDrain_keeps (.refl s)
  | periodicStart => exact execPeriodicStart_keeps (.refl s)
  | deadlineExpiry => exact execDeadlineExpiry_keeps (.refl s)
  | matchTimeout => exact execMatchTimeout_keeps (.refl s)
  | flowWatchExpiry => exact execFlowWatchExpiry_keeps (.refl s)
  | csiFrameStart => exact execCsiFrameStart_keeps (.refl s)
  | csiLongPacket => exact execCsiLongPacket_keeps (.refl s)
  | csiEmbeddedPacket => exact execCsiEmbeddedPacket_keeps (.refl s)
  | csiFrameEnd => exact execCsiFrameEnd_keeps (.refl s)
  | missedFrame => exact execMissedFrame_keeps (.refl s)
  | frameStallTimeout => exact execFrameStallTimeout_keeps (.refl s)
  | fsyncEdge => exact execFsyncEdge_keeps (.refl s)
  | laneFailing => exact execLaneFailing_keeps (.refl s)
  | laneReductionDone => exact execLaneReductionDone_keeps (.refl s)
  | ibiReceived => exact execIbiReceived_keeps (.refl s)
  | i3cBatchGo => exact execI3cBatchGo_keeps (.refl s)
  | batchTransferStart => exact execBatchTransferStart_keeps (.refl s)
  | batchTransferDone => exact execBatchTransferDone_keeps (.refl s)
  | tinderInjectionDone => exact execTinderInjectionDone_keeps (.refl s)
  | ispStagedFrameStart => exact execIspStagedFrameStart_keeps (.refl s)
  | ispBandRelease => exact execIspBandRelease_keeps (.refl s)
  | ispStatsRelease => exact execIspStatsRelease_keeps (.refl s)
  | ispUpdGo => exact execIspUpdGo_keeps (.refl s)
  | ispUpdCopyDone => exact execIspUpdCopyDone_keeps (.refl s)
  | mesh => exact execMesh_keeps (.refl s)
  | affine => exact execAffine_keeps (.refl s)
  | homography => exact execHomography_keeps (.refl s)
  | rectPair => exact execRectPair_keeps (.refl s)
  | pyramid => exact execPyramid_keeps (.refl s)
  | stereo => exact execStereo_keeps (.refl s)
  | flow => exact execFlow_keeps (.refl s)
  | feature => exact execFeature_keeps (.refl s)
  | matchRecords => exact execMatchRecords_keeps (.refl s)
  | matmul => exact execMatmul_keeps (.refl s)
  | conv => exact execConv_keeps (.refl s)
  | attention => exact execAttention_keeps (.refl s)
  | elementwise => exact execElementwise_keeps (.refl s)
  | reduce => exact execReduce_keeps (.refl s)
  | norm => exact execNorm_keeps (.refl s)
  | gather => exact execGather_keeps (.refl s)
  | scatter => exact execScatter_keeps (.refl s)
  | sample => exact execSample_keeps (.refl s)
  | permute => exact execPermute_keeps (.refl s)
  | topk => exact execTopk_keeps (.refl s)
  | nms => exact execNms_keeps (.refl s)
  | lut => exact execLut_keeps (.refl s)
  | ntPhaseGrant => exact execNtPhaseGrant_keeps (.refl s)
  | ntFetchDone => exact execNtFetchDone_keeps (.refl s)
  | ntComputeDone => exact execNtComputeDone_keeps (.refl s)
  | ntStepComplete => exact execNtStepComplete_keeps (.refl s)
  | copy2d => exact execCopy2d_keeps (.refl s)
  | fill => exact execFill_keeps (.refl s)
  | spmFill => exact execSpmFill_keeps (.refl s)
  | spmCopy => exact execSpmCopy_keeps (.refl s)
  | reshuffle => exact execReshuffle_keeps (.refl s)
  | bmResume => exact execBmResume_keeps (.refl s)
  | heldAccessRetry => exact execHeldAccessRetry_keeps (.refl s)
  | heldAccessLimit => exact execHeldAccessLimit_keeps (.refl s)
  | unitStopAck => exact execUnitStopAck_keeps (.refl s)
  | detachedReadReturn => exact execDetachedReadReturn_keeps (.refl s)
  | wcMissFillDone => exact execWcMissFillDone_keeps (.refl s)
  | cinderEntry => exact execCinderEntry_keeps (.refl s)
  | ashFillDone => exact execAshFillDone_keeps (.refl s)
  | mcFlagHiRead => exact execMcFlagHiRead_keeps (.refl s)
  | ntWinWrite => exact execNtWinWrite_keeps (.refl s)
  | ntCredWrite => exact execNtCredWrite_keeps (.refl s)
  | tlServoUpdate => exact execTlServoUpdate_keeps (.refl s)
  | tlHoldoverTimeout => exact execTlHoldoverTimeout_keeps (.refl s)
  | tlLostTimeout => exact execTlLostTimeout_keeps (.refl s)
  | tlNowHiRead => exact execTlNowHiRead_keeps (.refl s)
  | journalEntry => exact execJournalEntry_keeps (.refl s)
  | mirrorCopyDone => exact execMirrorCopyDone_keeps (.refl s)
  | ejFwPost => exact execEjFwPost_keeps (.refl s)
  | journalDatagramSend => exact execJournalDatagramSend_keeps (.refl s)
  | interruptSourceRise => exact execInterruptSourceRise_keeps (.refl s)
  | icuSwiSet => exact execIcuSwiSet_keeps (.refl s)
  | icuSwiClr => exact execIcuSwiClr_keeps (.refl s)
  | interruptAccept => exact execInterruptAccept_keeps (.refl s)
  | offerTimeout => exact execOfferTimeout_keeps (.refl s)
  | icuEoi => exact execIcuEoi_keeps (.refl s)
  | mret => exact execMret_keeps (.refl s)
  | ecall => exact execEcall_keeps (.refl s)
  | fence => exact execFence_keeps (.refl s)
  | lockstepMismatch => exact execLockstepMismatch_keeps (.refl s)
  | abortAck => exact execAbortAck_keeps (.refl s)
  | siHbWrite => exact execSiHbWrite_keeps (.refl s)
  | heartbeatMissed => exact execHeartbeatMissed_keeps (.refl s)
  | cvuMemoryJob => exact execCvuMemoryJob_keeps (.refl s)
  | cvuTapArm => exact execCvuTapArm_keeps (.refl s)
  | cvuCancel => exact execCvuCancel_keeps (.refl s)
  | cvuJobDone => exact execCvuJobDone_keeps (.refl s)
  | doubtAtSelector => exact execDoubtAtSelector_keeps (.refl s)
  | safeStateEntry => exact execSafeStateEntry_keeps (.refl s)
  | severeFlushExpiry => exact execSevereFlushExpiry_keeps (.refl s)
  | tinderJobDone => exact execTinderJobDone_keeps (.refl s)
  | tinderPromote => exact execTinderPromote_keeps (.refl s)
  | tinderLate => exact execTinderLate_keeps (.refl s)
  | selftestSliceStart => exact execSelftestSliceStart_keeps (.refl s)
  | selftestSliceEnd => exact execSelftestSliceEnd_keeps (.refl s)
  | selftestStarved => exact execSelftestStarved_keeps (.refl s)
  | selftestLate => exact execSelftestLate_keeps (.refl s)
  | islandRomCheck => exact execIslandRomCheck_keeps (.refl s)
  | islandWatchdogExpiry => exact execIslandWatchdogExpiry_keeps (.refl s)
  | islandClockDisagree => exact execIslandClockDisagree_keeps (.refl s)
  | vddSiExcursion => exact execVddSiExcursion_keeps (.refl s)
  | heartbeatToggle => exact execHeartbeatToggle_keeps (.refl s)
  | monitor => exact execMonitor_keeps (.refl s)
  | errIn => exact execErrIn_keeps (.refl s)
  | emberPairWindowExpiry => exact execEmberPairWindowExpiry_keeps (.refl s)
  | emberMessageReady => exact execEmberMessageReady_keeps (.refl s)
  | emberSelfTest => exact execEmberSelfTest_keeps (.refl s)
  | fwlRgnCtrlWrite => exact execFwlRgnCtrlWrite_keeps (.refl s)
  | adaptEval => exact execAdaptEval_keeps (.refl s)
  | starvationLower => exact execStarvationLower_keeps (.refl s)
  | thermalEval => exact execThermalEval_keeps (.refl s)
  | domainPowerUpDone => exact execDomainPowerUpDone_keeps (.refl s)
  | domainFault => exact execDomainFault_keeps (.refl s)
  | idleGate => exact execIdleGate_keeps (.refl s)
  | idleWake => exact execIdleWake_keeps (.refl s)
  | maintPeriodExpiry => exact execMaintPeriodExpiry_keeps (.refl s)
  | maintRequest => exact execMaintRequest_keeps (.refl s)
  | maintActivityEnd => exact execMaintActivityEnd_keeps (.refl s)
  | maintReserve => exact execMaintReserve_keeps (.refl s)
  | maintOverdue => exact execMaintOverdue_keeps (.refl s)
  | gmlTrainDone => exact execGmlTrainDone_keeps (.refl s)
  | gmlFlitRx => exact execGmlFlitRx_keeps (.refl s)
  | gmlNakRx => exact execGmlNakRx_keeps (.refl s)
  | gmlRetrainStart => exact execGmlRetrainStart_keeps (.refl s)
  | gmlRetrainDone => exact execGmlRetrainDone_keeps (.refl s)
  | gmlRetryTimer => exact execGmlRetryTimer_keeps (.refl s)
  | gmlHeartbeatSend => exact execGmlHeartbeatSend_keeps (.refl s)
  | peerAliveToggle => exact execPeerAliveToggle_keeps (.refl s)
  | goingDownRx => exact execGoingDownRx_keeps (.refl s)
  | peerSenseTimeout => exact execPeerSenseTimeout_keeps (.refl s)
  | peerUnreachable => exact execPeerUnreachable_keeps (.refl s)
  | routeChange => exact execRouteChange_keeps (.refl s)
  | reserve => exact execReserve_keeps (.refl s)
  | grant => exact execGrant_keeps (.refl s)
  | drain => exact execDrain_keeps (.refl s)
  | remoteRequestRx => exact execRemoteRequestRx_keeps (.refl s)
  | gmlTimeExchange => exact execGmlTimeExchange_keeps (.refl s)
  | journalForwardTimeout => exact execJournalForwardTimeout_keeps (.refl s)
  | ethFrameRx => exact execEthFrameRx_keeps (.refl s)
  | ethFrameTx => exact execEthFrameTx_keeps (.refl s)
  | ethLinkChange => exact execEthLinkChange_keeps (.refl s)
  | ofSubGo => exact execOfSubGo_keeps (.refl s)
  | ofCopyDone => exact execOfCopyDone_keeps (.refl s)
  | canFrameRx => exact execCanFrameRx_keeps (.refl s)
  | canFrameTx => exact execCanFrameTx_keeps (.refl s)
  | canBusOffRecovery => exact execCanBusOffRecovery_keeps (.refl s)
  | vsStaleTimeout => exact execVsStaleTimeout_keeps (.refl s)
  | canVsStateRead => exact execCanVsStateRead_keeps (.refl s)
  | gpioOutSet => exact execGpioOutSet_keeps (.refl s)
  | gpioOutClr => exact execGpioOutClr_keeps (.refl s)
  | ppsEdge => exact execPpsEdge_keeps (.refl s)
  | readMirror => exact execReadMirror_keeps (.refl s)
  | writeMsg => exact execWriteMsg_keeps (.refl s)
  | readMsg => exact execReadMsg_keeps (.refl s)
  | mirrorRefresh => exact execMirrorRefresh_keeps (.refl s)
  | sysPcApertureWrite => exact execSysPcApertureWrite_keeps (.refl s)
  | shCommit => exact execShCommit_keeps (.refl s)
  | registerWrite => exact execRegisterWrite_keeps (.refl s)
  | pcDataAccess => exact execPcDataAccess_keeps (.refl s)
  | stageVerifyDone => exact execStageVerifyDone_keeps (.refl s)
  | i3cBatchCopyDone => exact execI3cBatchCopyDone_keeps (.refl s)
  | csiDeskewComplete => exact execCsiDeskewComplete_keeps (.refl s)
  | peerSenseEdge => exact execPeerSenseEdge_keeps (.refl s)
  | peerDelayRequest => exact execPeerDelayRequest_keeps (.refl s)
  | smLockstepMismatch => exact execSmLockstepMismatch_keeps (.refl s)
  | islandSramUe => exact execIslandSramUe_keeps (.refl s)

/-- Every command leaves alone every part that `instrParts` does not list for it. -/
theorem exec_same (c : Instr) (s : State) : SameRes (Part.mask (instrParts c)) s (exec c s) := by
  unfold exec instrParts
  cases c with
  | porstNAssert => dsimp only; exact execPorstNAssert_same (.refl s) rfl
  | porstNRelease => dsimp only; exact execPorstNRelease_same (.refl s) rfl
  | wrstNFall => dsimp only; exact execWrstNFall_same (.refl s) rfl
  | wrstNRise => dsimp only; exact execWrstNRise_same (.refl s) rfl
  | warmResetHoldEnd => dsimp only; exact execWarmResetHoldEnd_same (.refl s) rfl
  | kindlingWatchdogExpiry => dsimp only; exact execKindlingWatchdogExpiry_same (.refl s) rfl
  | siSelfTestDone => dsimp only; exact execSiSelfTestDone_same (.refl s) rfl
  | hkcSignatureCheck => dsimp only; exact execHkcSignatureCheck_same (.refl s) rfl
  | imageSelect => dsimp only; exact execImageSelect_same (.refl s) rfl
  | bistDone => dsimp only; exact execBistDone_same (.refl s) rfl
  | lpddrTrainDone => dsimp only; exact execLpddrTrainDone_same (.refl s) rfl
  | sectionLoaded => dsimp only; exact execSectionLoaded_same (.refl s) rfl
  | checkStage => dsimp only; exact execCheckStage_same (.refl s) rfl
  | firmwareStage => dsimp only; exact execFirmwareStage_same (.refl s) rfl
  | seqWrite => dsimp only; exact execSeqWrite_same (.refl s) rfl
  | seqReadExpect => dsimp only; exact execSeqReadExpect_same (.refl s) rfl
  | seqWait => dsimp only; exact execSeqWait_same (.refl s) rfl
  | seqPoll => dsimp only; exact execSeqPoll_same (.refl s) rfl
  | seqGpio => dsimp only; exact execSeqGpio_same (.refl s) rfl
  | seqFsyncEnable => dsimp only; exact execSeqFsyncEnable_same (.refl s) rfl
  | seqEnd => dsimp only; exact execSeqEnd_same (.refl s) rfl
  | sensorRetryTimer => dsimp only; exact execSensorRetryTimer_same (.refl s) rfl
  | bindStage => dsimp only; exact execBindStage_same (.refl s) rfl
  | verifyPass => dsimp only; exact execVerifyPass_same (.refl s) rfl
  | verifyTimeout => dsimp only; exact execVerifyTimeout_same (.refl s) rfl
  | nvmEraseProgramCommand => dsimp only; exact execNvmEraseProgramCommand_same (.refl s) rfl
  | sectionReloadDone => dsimp only; exact execSectionReloadDone_same (.refl s) rfl
  | hello => dsimp only; exact execHello_same (.refl s) rfl
  | serviceOpen => dsimp only; exact execServiceOpen_same (.refl s) rfl
  | serviceClose => dsimp only; exact execServiceClose_same (.refl s) rfl
  | sessionIdleTimeout => dsimp only; exact execSessionIdleTimeout_same (.refl s) rfl
  | serviceStatus => dsimp only; exact execServiceStatus_same (.refl s) rfl
  | readReg => dsimp only; exact execReadReg_same (.refl s) rfl
  | journalRead => dsimp only; exact execJournalRead_same (.refl s) rfl
  | sceneRequest => dsimp only; exact execSceneRequest_same (.refl s) rfl
  | stageBegin => dsimp only; exact execStageBegin_same (.refl s) rfl
  | stageEraseDone => dsimp only; exact execStageEraseDone_same (.refl s) rfl
  | stageChunk => dsimp only; exact execStageChunk_same (.refl s) rfl
  | stageChunkProgrammed => dsimp only; exact execStageChunkProgrammed_same (.refl s) rfl
  | stageEnd => dsimp only; exact execStageEnd_same (.refl s) rfl
  | stageStatus => dsimp only; exact execStageStatus_same (.refl s) rfl
  | stageIdleTimeout => dsimp only; exact execStageIdleTimeout_same (.refl s) rfl
  | gpioFilterExpiry => dsimp only; exact execGpioFilterExpiry_same (.refl s) rfl
  | switchDrainKill => dsimp only; exact execSwitchDrainKill_same (.refl s) rfl
  | switchCinder => dsimp only; exact execSwitchCinder_same (.refl s) rfl
  | switchBind => dsimp only; exact execSwitchBind_same (.refl s) rfl
  | switchOpen => dsimp only; exact execSwitchOpen_same (.refl s) rfl
  | dwellExpiry => dsimp only; exact execDwellExpiry_same (.refl s) rfl
  | tokenLookup => dsimp only; exact execTokenLookup_same (.refl s) rfl
  | instanceAdmit => dsimp only; exact execInstanceAdmit_same (.refl s) rfl
  | dispatch => dsimp only; exact execDispatch_same (.refl s) rfl
  | affinityHoldExpiry => dsimp only; exact execAffinityHoldExpiry_same (.refl s) rfl
  | pcDispatch => dsimp only; exact execPcDispatch_same (.refl s) rfl
  | fgsDisp0Read => dsimp only; exact execFgsDisp0Read_same (.refl s) rfl
  | fgsPcDone => dsimp only; exact execFgsPcDone_same (.refl s) rfl
  | fgsPost => dsimp only; exact execFgsPost_same (.refl s) rfl
  | fgsCancel => dsimp only; exact execFgsCancel_same (.refl s) rfl
  | fgsAffinityForget => dsimp only; exact execFgsAffinityForget_same (.refl s) rfl
  | stepComplete => dsimp only; exact execStepComplete_same (.refl s) rfl
  | release => dsimp only; exact execRelease_same (.refl s) rfl
  | releaseRetry => dsimp only; exact execReleaseRetry_same (.refl s) rfl
  | stallRelease => dsimp only; exact execStallRelease_same (.refl s) rfl
  | deferredVoid => dsimp only; exact execDeferredVoid_same (.refl s) rfl
  | slotDrain => dsimp only; exact execSlotDrain_same (.refl s) rfl
  | periodicStart => dsimp only; exact execPeriodicStart_same (.refl s) rfl
  | deadlineExpiry => dsimp only; exact execDeadlineExpiry_same (.refl s) rfl
  | matchTimeout => dsimp only; exact execMatchTimeout_same (.refl s) rfl
  | flowWatchExpiry => dsimp only; exact execFlowWatchExpiry_same (.refl s) rfl
  | csiFrameStart => dsimp only; exact execCsiFrameStart_same (.refl s) rfl
  | csiLongPacket => dsimp only; exact execCsiLongPacket_same (.refl s) rfl
  | csiEmbeddedPacket => dsimp only; exact execCsiEmbeddedPacket_same (.refl s) rfl
  | csiFrameEnd => dsimp only; exact execCsiFrameEnd_same (.refl s) rfl
  | missedFrame => dsimp only; exact execMissedFrame_same (.refl s) rfl
  | frameStallTimeout => dsimp only; exact execFrameStallTimeout_same (.refl s) rfl
  | fsyncEdge => dsimp only; exact execFsyncEdge_same (.refl s) rfl
  | laneFailing => dsimp only; exact execLaneFailing_same (.refl s) rfl
  | laneReductionDone => dsimp only; exact execLaneReductionDone_same (.refl s) rfl
  | ibiReceived => dsimp only; exact execIbiReceived_same (.refl s) rfl
  | i3cBatchGo => dsimp only; exact execI3cBatchGo_same (.refl s) rfl
  | batchTransferStart => dsimp only; exact execBatchTransferStart_same (.refl s) rfl
  | batchTransferDone => dsimp only; exact execBatchTransferDone_same (.refl s) rfl
  | tinderInjectionDone => dsimp only; exact execTinderInjectionDone_same (.refl s) rfl
  | ispStagedFrameStart => dsimp only; exact execIspStagedFrameStart_same (.refl s) rfl
  | ispBandRelease => dsimp only; exact execIspBandRelease_same (.refl s) rfl
  | ispStatsRelease => dsimp only; exact execIspStatsRelease_same (.refl s) rfl
  | ispUpdGo => dsimp only; exact execIspUpdGo_same (.refl s) rfl
  | ispUpdCopyDone => dsimp only; exact execIspUpdCopyDone_same (.refl s) rfl
  | mesh => dsimp only; exact execMesh_same (.refl s) rfl
  | affine => dsimp only; exact execAffine_same (.refl s) rfl
  | homography => dsimp only; exact execHomography_same (.refl s) rfl
  | rectPair => dsimp only; exact execRectPair_same (.refl s) rfl
  | pyramid => dsimp only; exact execPyramid_same (.refl s) rfl
  | stereo => dsimp only; exact execStereo_same (.refl s) rfl
  | flow => dsimp only; exact execFlow_same (.refl s) rfl
  | feature => dsimp only; exact execFeature_same (.refl s) rfl
  | matchRecords => dsimp only; exact execMatchRecords_same (.refl s) rfl
  | matmul => dsimp only; exact execMatmul_same (.refl s) rfl
  | conv => dsimp only; exact execConv_same (.refl s) rfl
  | attention => dsimp only; exact execAttention_same (.refl s) rfl
  | elementwise => dsimp only; exact execElementwise_same (.refl s) rfl
  | reduce => dsimp only; exact execReduce_same (.refl s) rfl
  | norm => dsimp only; exact execNorm_same (.refl s) rfl
  | gather => dsimp only; exact execGather_same (.refl s) rfl
  | scatter => dsimp only; exact execScatter_same (.refl s) rfl
  | sample => dsimp only; exact execSample_same (.refl s) rfl
  | permute => dsimp only; exact execPermute_same (.refl s) rfl
  | topk => dsimp only; exact execTopk_same (.refl s) rfl
  | nms => dsimp only; exact execNms_same (.refl s) rfl
  | lut => dsimp only; exact execLut_same (.refl s) rfl
  | ntPhaseGrant => dsimp only; exact execNtPhaseGrant_same (.refl s) rfl
  | ntFetchDone => dsimp only; exact execNtFetchDone_same (.refl s) rfl
  | ntComputeDone => dsimp only; exact execNtComputeDone_same (.refl s) rfl
  | ntStepComplete => dsimp only; exact execNtStepComplete_same (.refl s) rfl
  | copy2d => dsimp only; exact execCopy2d_same (.refl s) rfl
  | fill => dsimp only; exact execFill_same (.refl s) rfl
  | spmFill => dsimp only; exact execSpmFill_same (.refl s) rfl
  | spmCopy => dsimp only; exact execSpmCopy_same (.refl s) rfl
  | reshuffle => dsimp only; exact execReshuffle_same (.refl s) rfl
  | bmResume => dsimp only; exact execBmResume_same (.refl s) rfl
  | heldAccessRetry => dsimp only; exact execHeldAccessRetry_same (.refl s) rfl
  | heldAccessLimit => dsimp only; exact execHeldAccessLimit_same (.refl s) rfl
  | unitStopAck => dsimp only; exact execUnitStopAck_same (.refl s) rfl
  | detachedReadReturn => dsimp only; exact execDetachedReadReturn_same (.refl s) rfl
  | wcMissFillDone => dsimp only; exact execWcMissFillDone_same (.refl s) rfl
  | cinderEntry => dsimp only; exact execCinderEntry_same (.refl s) rfl
  | ashFillDone => dsimp only; exact execAshFillDone_same (.refl s) rfl
  | mcFlagHiRead => dsimp only; exact execMcFlagHiRead_same (.refl s) rfl
  | ntWinWrite => dsimp only; exact execNtWinWrite_same (.refl s) rfl
  | ntCredWrite => dsimp only; exact execNtCredWrite_same (.refl s) rfl
  | tlServoUpdate => dsimp only; exact execTlServoUpdate_same (.refl s) rfl
  | tlHoldoverTimeout => dsimp only; exact execTlHoldoverTimeout_same (.refl s) rfl
  | tlLostTimeout => dsimp only; exact execTlLostTimeout_same (.refl s) rfl
  | tlNowHiRead => dsimp only; exact execTlNowHiRead_same (.refl s) rfl
  | journalEntry => dsimp only; exact execJournalEntry_same (.refl s) rfl
  | mirrorCopyDone => dsimp only; exact execMirrorCopyDone_same (.refl s) rfl
  | ejFwPost => dsimp only; exact execEjFwPost_same (.refl s) rfl
  | journalDatagramSend => dsimp only; exact execJournalDatagramSend_same (.refl s) rfl
  | interruptSourceRise => dsimp only; exact execInterruptSourceRise_same (.refl s) rfl
  | icuSwiSet => dsimp only; exact execIcuSwiSet_same (.refl s) rfl
  | icuSwiClr => dsimp only; exact execIcuSwiClr_same (.refl s) rfl
  | interruptAccept => dsimp only; exact execInterruptAccept_same (.refl s) rfl
  | offerTimeout => dsimp only; exact execOfferTimeout_same (.refl s) rfl
  | icuEoi => dsimp only; exact execIcuEoi_same (.refl s) rfl
  | mret => dsimp only; exact execMret_same (.refl s) rfl
  | ecall => dsimp only; exact execEcall_same (.refl s) rfl
  | fence => dsimp only; exact execFence_same (.refl s) rfl
  | lockstepMismatch => dsimp only; exact execLockstepMismatch_same (.refl s) rfl
  | abortAck => dsimp only; exact execAbortAck_same (.refl s) rfl
  | siHbWrite => dsimp only; exact execSiHbWrite_same (.refl s) rfl
  | heartbeatMissed => dsimp only; exact execHeartbeatMissed_same (.refl s) rfl
  | cvuMemoryJob => dsimp only; exact execCvuMemoryJob_same (.refl s) rfl
  | cvuTapArm => dsimp only; exact execCvuTapArm_same (.refl s) rfl
  | cvuCancel => dsimp only; exact execCvuCancel_same (.refl s) rfl
  | cvuJobDone => dsimp only; exact execCvuJobDone_same (.refl s) rfl
  | doubtAtSelector => dsimp only; exact execDoubtAtSelector_same (.refl s) rfl
  | safeStateEntry => dsimp only; exact execSafeStateEntry_same (.refl s) rfl
  | severeFlushExpiry => dsimp only; exact execSevereFlushExpiry_same (.refl s) rfl
  | tinderJobDone => dsimp only; exact execTinderJobDone_same (.refl s) rfl
  | tinderPromote => dsimp only; exact execTinderPromote_same (.refl s) rfl
  | tinderLate => dsimp only; exact execTinderLate_same (.refl s) rfl
  | selftestSliceStart => dsimp only; exact execSelftestSliceStart_same (.refl s) rfl
  | selftestSliceEnd => dsimp only; exact execSelftestSliceEnd_same (.refl s) rfl
  | selftestStarved => dsimp only; exact execSelftestStarved_same (.refl s) rfl
  | selftestLate => dsimp only; exact execSelftestLate_same (.refl s) rfl
  | islandRomCheck => dsimp only; exact execIslandRomCheck_same (.refl s) rfl
  | islandWatchdogExpiry => dsimp only; exact execIslandWatchdogExpiry_same (.refl s) rfl
  | islandClockDisagree => dsimp only; exact execIslandClockDisagree_same (.refl s) rfl
  | vddSiExcursion => dsimp only; exact execVddSiExcursion_same (.refl s) rfl
  | heartbeatToggle => dsimp only; exact execHeartbeatToggle_same (.refl s) rfl
  | monitor => dsimp only; exact execMonitor_same (.refl s) rfl
  | errIn => dsimp only; exact execErrIn_same (.refl s) rfl
  | emberPairWindowExpiry => dsimp only; exact execEmberPairWindowExpiry_same (.refl s) rfl
  | emberMessageReady => dsimp only; exact execEmberMessageReady_same (.refl s) rfl
  | emberSelfTest => dsimp only; exact execEmberSelfTest_same (.refl s) rfl
  | fwlRgnCtrlWrite => dsimp only; exact execFwlRgnCtrlWrite_same (.refl s) rfl
  | adaptEval => dsimp only; exact execAdaptEval_same (.refl s) rfl
  | starvationLower => dsimp only; exact execStarvationLower_same (.refl s) rfl
  | thermalEval => dsimp only; exact execThermalEval_same (.refl s) rfl
  | domainPowerUpDone => dsimp only; exact execDomainPowerUpDone_same (.refl s) rfl
  | domainFault => dsimp only; exact execDomainFault_same (.refl s) rfl
  | idleGate => dsimp only; exact execIdleGate_same (.refl s) rfl
  | idleWake => dsimp only; exact execIdleWake_same (.refl s) rfl
  | maintPeriodExpiry => dsimp only; exact execMaintPeriodExpiry_same (.refl s) rfl
  | maintRequest => dsimp only; exact execMaintRequest_same (.refl s) rfl
  | maintActivityEnd => dsimp only; exact execMaintActivityEnd_same (.refl s) rfl
  | maintReserve => dsimp only; exact execMaintReserve_same (.refl s) rfl
  | maintOverdue => dsimp only; exact execMaintOverdue_same (.refl s) rfl
  | gmlTrainDone => dsimp only; exact execGmlTrainDone_same (.refl s) rfl
  | gmlFlitRx => dsimp only; exact execGmlFlitRx_same (.refl s) rfl
  | gmlNakRx => dsimp only; exact execGmlNakRx_same (.refl s) rfl
  | gmlRetrainStart => dsimp only; exact execGmlRetrainStart_same (.refl s) rfl
  | gmlRetrainDone => dsimp only; exact execGmlRetrainDone_same (.refl s) rfl
  | gmlRetryTimer => dsimp only; exact execGmlRetryTimer_same (.refl s) rfl
  | gmlHeartbeatSend => dsimp only; exact execGmlHeartbeatSend_same (.refl s) rfl
  | peerAliveToggle => dsimp only; exact execPeerAliveToggle_same (.refl s) rfl
  | goingDownRx => dsimp only; exact execGoingDownRx_same (.refl s) rfl
  | peerSenseTimeout => dsimp only; exact execPeerSenseTimeout_same (.refl s) rfl
  | peerUnreachable => dsimp only; exact execPeerUnreachable_same (.refl s) rfl
  | routeChange => dsimp only; exact execRouteChange_same (.refl s) rfl
  | reserve => dsimp only; exact execReserve_same (.refl s) rfl
  | grant => dsimp only; exact execGrant_same (.refl s) rfl
  | drain => dsimp only; exact execDrain_same (.refl s) rfl
  | remoteRequestRx => dsimp only; exact execRemoteRequestRx_same (.refl s) rfl
  | gmlTimeExchange => dsimp only; exact execGmlTimeExchange_same (.refl s) rfl
  | journalForwardTimeout => dsimp only; exact execJournalForwardTimeout_same (.refl s) rfl
  | ethFrameRx => dsimp only; exact execEthFrameRx_same (.refl s) rfl
  | ethFrameTx => dsimp only; exact execEthFrameTx_same (.refl s) rfl
  | ethLinkChange => dsimp only; exact execEthLinkChange_same (.refl s) rfl
  | ofSubGo => dsimp only; exact execOfSubGo_same (.refl s) rfl
  | ofCopyDone => dsimp only; exact execOfCopyDone_same (.refl s) rfl
  | canFrameRx => dsimp only; exact execCanFrameRx_same (.refl s) rfl
  | canFrameTx => dsimp only; exact execCanFrameTx_same (.refl s) rfl
  | canBusOffRecovery => dsimp only; exact execCanBusOffRecovery_same (.refl s) rfl
  | vsStaleTimeout => dsimp only; exact execVsStaleTimeout_same (.refl s) rfl
  | canVsStateRead => dsimp only; exact execCanVsStateRead_same (.refl s) rfl
  | gpioOutSet => dsimp only; exact execGpioOutSet_same (.refl s) rfl
  | gpioOutClr => dsimp only; exact execGpioOutClr_same (.refl s) rfl
  | ppsEdge => dsimp only; exact execPpsEdge_same (.refl s) rfl
  | readMirror => dsimp only; exact execReadMirror_same (.refl s) rfl
  | writeMsg => dsimp only; exact execWriteMsg_same (.refl s) rfl
  | readMsg => dsimp only; exact execReadMsg_same (.refl s) rfl
  | mirrorRefresh => dsimp only; exact execMirrorRefresh_same (.refl s) rfl
  | sysPcApertureWrite => dsimp only; exact execSysPcApertureWrite_same (.refl s) rfl
  | shCommit => dsimp only; exact execShCommit_same (.refl s) rfl
  | registerWrite => dsimp only; exact execRegisterWrite_same (.refl s) rfl
  | pcDataAccess => dsimp only; exact execPcDataAccess_same (.refl s) rfl
  | stageVerifyDone => dsimp only; exact execStageVerifyDone_same (.refl s) rfl
  | i3cBatchCopyDone => dsimp only; exact execI3cBatchCopyDone_same (.refl s) rfl
  | csiDeskewComplete => dsimp only; exact execCsiDeskewComplete_same (.refl s) rfl
  | peerSenseEdge => dsimp only; exact execPeerSenseEdge_same (.refl s) rfl
  | peerDelayRequest => dsimp only; exact execPeerDelayRequest_same (.refl s) rfl
  | smLockstepMismatch => dsimp only; exact execSmLockstepMismatch_same (.refl s) rfl
  | islandSramUe => dsimp only; exact execIslandSramUe_same (.refl s) rfl


/-- VERIFY_PASS alone has the fuses among its parts. -/
theorem otp_not_mem_instrParts {c : Instr} (h : c ≠ .verifyPass) : Part.otp ∉ instrParts c := by
  unfold instrParts
  cases c with
  | verifyPass => exact absurd rfl h
  | _ => dsimp only; decide

/-- A step keeps what `Keeps` says of the state whose front command has left the queue. -/
theorem step_keeps {s t : State} (h : step s = .next t) : Keeps { s with pending := s.pending.tail } t := by
  rcases step_cases h with ⟨h0, rfl⟩ | ⟨c, rest, h0, hx⟩
  · rw [h0, List.tail_nil, ← h0]
    exact tick_keeps (.refl s)
  · rw [h0]
    exact (exec_keeps c _).of t hx

/-! ### Sound states and fuses (R51, R53, R54) -/

theorem State.canonical_iff {s : State} : s.canonical = true ↔
    Memory.wf s.mem = true ∧ regsWf s.regs = true ∧ flagsWf s.flags = true ∧ risingFrom 0 s.shadow = true := by
  simp [State.canonical, and_assoc]

/-- What `Keeps` relates to a sound state is sound. -/
theorem Keeps.sound {r t : State} (h : Keeps r t) (hr : r.sound) : t.sound := by
  obtain ⟨hc, h64⟩ := hr
  obtain ⟨hmem, hregs, hflags, hshadow⟩ := State.canonical_iff.mp hc
  obtain ⟨-, -, ht⟩ := h.fuses h64
  exact ⟨State.canonical_iff.mpr ⟨h.mem hmem, h.regs hregs, h.flags hflags, h.shadow hshadow⟩, ht⟩

/-- Settles O52: a step keeps what `Keeps` says, and that is enough for soundness. -/
theorem stepKeepsSound : Obligations.StepKeepsSound := by
  unfold Obligations.StepKeepsSound
  exact fun s t hs h => (step_keeps h).sound hs

/-- Settles O53: `Keeps` bounds what a step does to the fuses, and no command but VERIFY_PASS has them among its parts. -/
theorem fusesOnlyRise : Obligations.FusesOnlyRise := by
  unfold Obligations.FusesOnlyRise
  exact ⟨fun s t h64 h => (step_keeps h).fuses h64, fun c s t hc h =>
    ((exec_same c s).of t h).otp (Part.testBit_mask_of_not_mem (otp_not_mem_instrParts hc))⟩

/-- Settles O54: the stores of the state after reset are empty lists. -/
theorem resetIsSound : Obligations.ResetIsSound := by
  unfold Obligations.ResetIsSound
  exact ⟨⟨State.canonical_iff.mpr ⟨rfl, rfl, rfl, rfl⟩, Nat.zero_le 64⟩, rfl, rfl, rfl, rfl, rfl⟩

end Sys2Proof.Machine
end

section
/-! SUPPORT. The attached flash (R48, R50, R60) byte by byte, what a write of memory leaves of a section that waits for its reload
(R340, R342, R437), and the statement on both. -/

namespace Sys2Proof.Machine

open Sys2Proof

/-! ### Sparse lists -/

theorem assocGet_filter {α : Type} (l : List (Nat × α)) (p : Nat → Bool) (a : Nat) :
    assocGet (l.filter (fun c => p c.1)) a = if p a then assocGet l a else none := by
  induction l with
  | nil => simp [assocGet]
  | cons c t ih =>
    rw [List.filter_cons]
    by_cases hc : c.1 = a
    · subst hc
      cases hp : p c.1 <;> simp [hp, assocGet, ih]
    · cases hp : p c.1 <;> simp [assocGet, ih, hc]

theorem getD_assocGet_sparsePut {α : Type} [DecidableEq α] {l : List (Nat × α)} {lo : Nat} (d v : α) (a b : Nat)
    (h : risingFrom lo l = true) :
    (assocGet (sparsePut d l a v) b).getD d = if a = b then v else (assocGet l b).getD d := by
  unfold sparsePut
  by_cases hab : a = b
  · subst hab
    split
    case isTrue hv => rw [assocGet_assocDel_same l a h, if_pos rfl]; exact hv.symm
    case isFalse => rw [assocGet_assocPut_same, if_pos rfl]; rfl
  · rw [if_neg hab]
    split
    case isTrue => rw [assocGet_assocDel_other l hab]
    case isFalse => rw [assocGet_assocPut_other l v hab]

theorem rising_sparsePut {α : Type} [DecidableEq α] {l : List (Nat × α)} (d v : α) (a : Nat) (h : risingFrom 0 l = true) :
    risingFrom 0 (sparsePut d l a v) = true := by
  unfold sparsePut
  split
  · exact rising_assocDel l a h
  · exact rising_assocPut l v (Nat.zero_le a) h

/-! ### Bytes of the flash -/

/-- The programmed bytes of a flash device. -/
def Flash.cells (f : Flash) (dev : Nat) : List Host.Cell := if dev = 0 then f.dev0 else f.dev1

theorem Flash.cells_setDev (f : Flash) (dev : Nat) (c : List Host.Cell) : (f.setDev dev c).cells dev = c := by
  unfold Flash.cells Flash.setDev
  by_cases h : dev = 0 <;> simp [h]

theorem Flash.byte_eq (f : Flash) (dev a : Nat) : f.byte dev a = (assocGet (f.cells dev) a).getD Config.erasedByte := rfl

theorem Flash.byte_setDev (f : Flash) (dev : Nat) (c : List Host.Cell) (a : Nat) :
    (f.setDev dev c).byte dev a = (assocGet c a).getD Config.erasedByte := by
  rw [Flash.byte_eq, Flash.cells_setDev]

theorem Flash.erase_eq (f : Flash) (dev a n : Nat) :
    f.erase dev a n = f.setDev dev ((f.cells dev).filter (fun c => decide (c.1 < a) || decide (a + n ≤ c.1))) := rfl

/-- An erased range reads 0xFF, and every other byte of the device as before. -/
theorem Flash.byte_erase (f : Flash) (dev a n x : Nat) :
    (f.erase dev a n).byte dev x = if a ≤ x ∧ x < a + n then 0xFF else f.byte dev x := by
  have outside : (decide (x < a) || decide (a + n ≤ x)) = true ↔ ¬ (a ≤ x ∧ x < a + n) := by
    simp only [Bool.or_eq_true, decide_eq_true_eq]; omega
  rw [Flash.erase_eq, Flash.byte_setDev, assocGet_filter (f.cells dev) (fun k => decide (k < a) || decide (a + n ≤ k)) x]
  by_cases hx : a ≤ x ∧ x < a + n
  · rw [if_neg (fun h => outside.mp h hx), if_pos hx]; rfl
  · rw [if_pos (outside.mpr hx), if_neg hx]; rfl

/-- A program clears bits of the bytes it addresses, and leaves every other byte of the device as before. -/
theorem Flash.byte_program (d : List Byte) (f : Flash) (dev a x : Nat) (h : risingFrom 0 (f.cells dev) = true) :
    (f.program dev a d).byte dev x =
      if a ≤ x ∧ x < a + d.length then f.byte dev x &&& d.getD (x - a) 0 else f.byte dev x := by
  induction d generalizing f a with
  | nil => rw [if_neg (by simp only [List.length_nil]; omega)]; rfl
  | cons b bs ih =>
    have put : ∀ y, (f.setDev dev (sparsePut Config.erasedByte (f.cells dev) a (f.byte dev a &&& b))).byte dev y =
        if a = y then f.byte dev a &&& b else f.byte dev y := fun y => by
      rw [Flash.byte_setDev, getD_assocGet_sparsePut _ _ _ _ h]; rfl
    show ((f.setDev dev (sparsePut Config.erasedByte (f.cells dev) a (f.byte dev a &&& b))).program dev (a + 1) bs).byte dev x = _
    rw [ih _ _ (by rw [Flash.cells_setDev]; exact rising_sparsePut _ _ _ h), put, List.length_cons]
    rcases Nat.lt_trichotomy x a with hx | rfl | hx
    · rw [if_neg (by omega), if_neg (by omega), if_neg (by omega)]
    · rw [if_neg (by omega), if_pos rfl, if_pos (by omega), Nat.sub_self, List.getD_cons_zero]
    · have hs : x - a = x - (a + 1) + 1 := by omega
      rw [if_neg (by omega : ¬ a = x), hs, List.getD_cons_succ]
      exact if_congr (by omega) rfl rfl

/-! ### The NVM controller (R50) -/

theorem execNvm_of_booted {s : State} {cs : Fin 2} {opcode : Byte} {addr : Word} {op : NvmOp}
    (h : s.hitsBooted cs.val addr.toNat (nvmLen op) = true) : execNvmEraseProgramCommand cs opcode addr op s =
      .next (s.log 0x1900 0x0113 1 0 0xFF addr.toNat opcode.toNat 0) := by
  unfold execNvmEraseProgramCommand
  exact if_pos h

/-- The flash after a command that the NVM controller carries out. -/
def Flash.command (f : Flash) (dev a : Nat) : NvmOp → Flash
  | .erase n => f.erase dev a n
  | .program d => f.program dev a d

theorem execNvm_of_other {s : State} {cs : Fin 2} {opcode : Byte} {addr : Word} {op : NvmOp}
    (h : s.hitsBooted cs.val addr.toNat (nvmLen op) = false) : execNvmEraseProgramCommand cs opcode addr op s =
      .next { s with flash := s.flash.command cs.val addr.toNat op } := by
  unfold execNvmEraseProgramCommand
  refine (if_neg (ne_true_of_eq_false h)).trans ?_
  cases op <;> rfl

/-! ### Writes of memory and a section's reload (R340, R342, R437) -/

/-- Counting read-modify-writes changes registers alone. -/
theorem State.countRmw_same (s : State) (l : List Nat) :
    Same 1 s (l.foldl (fun s b => s.addCnt (Reg.MC_CNT (s.mcOf (b * 64 - addrLp)) 2) 1) s) :=
  Same.foldl (fun _ _ h => State.addCnt_same h rfl) (.refl s)

/-- A write to local memory is the bytes put there. -/
theorem State.mem_write {s : State} {a : Nat} (bs : List Byte) (h : isRemote a = false) :
    (s.write a bs).mem = Memory.putBytes s.mem a bs := by
  have resv : ((s.store a bs).breakResv a bs.length).mem = Memory.putBytes s.mem a bs :=
    (State.breakResv_same (m0 := 16384) (.refl _) rfl).mem rfl
  unfold State.write
  rw [h]
  simp only [Bool.false_eq_true, if_false]
  split
  · exact resv
  · exact ((State.countRmw_same _ _).mem rfl).trans resv

/-- A write of memory leaves the sections that wait for their reload. -/
theorem State.reloads_write (s : State) (a : Nat) (bs : List Byte) : (s.write a bs).mm.reloads = s.mm.reloads := by
  have resv : ((s.store a bs).breakResv a bs.length).mm = s.mm := (State.breakResv_same (m0 := 16384) (.refl _) rfl).mm rfl
  unfold State.write
  split
  · rfl
  · dsimp only
    split
    · rw [resv]
    · rw [(State.countRmw_same _ _).mm rfl]
      exact congrArg (·.reloads) resv

/-- So does a patch, and so do the patches of a section. -/
theorem State.reloads_applyPatch (s : State) (idx off : Nat) : (s.applyPatch idx off).mm.reloads = s.mm.reloads := by
  unfold State.applyPatch
  split
  · rfl
  · split
    · rfl
    · dsimp only
      rw [(State.log_same (m0 := 65537) (.refl _) rfl).mm rfl, State.reloads_write]

theorem State.reloads_repatch (s : State) (e : SecEnt) : (s.repatch e).mm.reloads = s.mm.reloads := by
  unfold State.repatch
  split
  · rfl
  · exact List.foldlRecOn (motive := fun u => u.mm.reloads = s.mm.reloads) _ _ rfl
      fun u hu o _ => (State.reloads_applyPatch u e.index o).trans hu

/-- Patches are of step lists alone. -/
theorem State.repatch_of_other {s : State} {e : SecEnt} (h : e.type ≠ 6) : s.repatch e = s := by
  unfold State.repatch
  rw [if_pos (by simpa using h)]

/-- A section that waits for its reload and whose range no cinder region overlaps is written, waits no longer and takes its
patches. -/
theorem execSectionReloadDone_of_due {s : State} {pos : Fin 1024} {e : SecEnt}
    (he : (s.flash.live s.imgRegion).find? (fun x => x.pos == pos.val) = some e) (hw : e.pos ∈ s.mm.reloads)
    (hc : s.mm.cinder.any (fun c => overlap c.base c.size e.load e.size) = false) :
    execSectionReloadDone pos s =
      let u := s.write e.load (s.flash.plain s.otp s.imgRegion e)
      .next (({ u with mm := { u.mm with reloads := u.mm.reloads.filter (· != e.pos) } } : State).repatch e) := by
  have waits : s.mm.reloads.contains e.pos = true := by simpa using hw
  unfold execSectionReloadDone
  simp only [he, waits, hc, Bool.not_true, Bool.or_self, Bool.false_eq_true, if_false]

/-- Settles O5: the bytes that an erase and a program leave, and what the reload's write and its patches leave. -/
theorem flashAndReload : Obligations.FlashAndReload := by
  unfold Obligations.FlashAndReload
  refine ⟨?_, ?_⟩
  case refine_1 =>
    intro s cs opcode addr op h0 h1
    have cells : risingFrom 0 (s.flash.cells cs.val) = true := by
      unfold Flash.cells
      split
      · exact h0
      · exact h1
    show completes (execNvmEraseProgramCommand cs opcode addr op s) _
    cases hb : s.hitsBooted cs.val addr.toNat (nvmLen op) with
    | true =>
      have same := State.log_same (m0 := 65537) (source := 0x1900) (code := 0x0113) (cls := 1) (partition := 0) (stream := 0xFF)
        (a0 := addr.toNat) (a1 := opcode.toNat) (a2 := 0) (.refl s) rfl
      rw [execNvm_of_booted hb]
      exact completes_next ⟨fun _ => same.flash rfl, nofun, nofun, same.mem rfl,
        same.otp rfl⟩
    | false =>
      rw [execNvm_of_other hb]
      refine completes_next ⟨nofun, fun _ n hn x => ?_, fun _ d hd x => ?_, rfl, rfl⟩
      · subst hn; exact Flash.byte_erase _ _ _ _ _
      · subst hd; exact Flash.byte_program _ _ _ _ _ cells
  case refine_2 =>
    intro s pos e he hw hc hr
    have same := (execSectionReloadDone_same (m0 := 90117) (pos := pos) (.refl s) rfl).of
    show completes (execSectionReloadDone pos s) _
    rw [execSectionReloadDone_of_due he hw hc] at same ⊢
    refine completes_next ⟨?_, fun h6 => ?_, (same _ rfl).otp rfl, (same _ rfl).flash rfl⟩
    · rw [State.reloads_repatch]
      simp
    · rw [State.repatch_of_other h6]
      exact State.mem_write _ hr

end Sys2Proof.Machine
end

section
/-! SUPPORT. Staging sessions (R59 to R61, R487): the request that an interface serves, what an answer leaves alone, and what each
staging command comes to. -/

namespace Sys2Proof.Machine

open Sys2Proof

/-! ### The request at the front of an interface -/

/-- The state once a request has left the front of its interface. -/
abbrev State.takeFront (s : State) (ifc : Nat) (rest : List SvcReq) : State := s.modSvc ifc (fun v => { v with requests := rest })

/-- A request for a served operation waits at the front of an interface. -/
structure State.frontServed (s : State) (ifc op : Nat) (q : SvcReq) (rest : List SvcReq) : Prop where
  front : (s.svc ifc).requests = q :: rest
  asks : q.1 = op
  served : s.serves op = true

theorem State.serveFront_of_front {s : State} {ifc op : Nat} {q : SvcReq} {rest : List SvcReq} (f : State → SvcReq → State)
    (h : s.frontServed ifc op q rest) : s.serveFront ifc op f = f (s.takeFront ifc rest) q := by
  have asks : (q.1 != op) = false := by simp [h.asks]
  have served : (s.takeFront ifc rest).serves op = true := h.served
  unfold State.serveFront
  rw [h.front]
  simp only [asks, Bool.false_eq_true, if_false]
  exact if_pos served

/-- A staging operation is served in an open session that has nothing in progress. -/
theorem State.stageFront_of_front {s : State} {ifc op : Nat} {q : SvcReq} {rest : List SvcReq} (f : State → SvcReq → State)
    (h : s.frontServed ifc op q rest) (ho : s.io.stage.open' = true) (hb : s.io.stage.busy = false) :
    s.stageFront ifc op f = f (s.takeFront ifc rest) q := by
  have ho' : (s.takeFront ifc rest).io.stage.open' = true := ho
  unfold State.stageFront
  rw [ho, hb, State.serveFront_of_front _ h]
  exact if_pos ho'

/-! ### What an answer leaves alone -/

theorem State.stage_queueEth (s : State) (mac : Nat) (t : EthTx) : (s.queueEth mac t).io.stage = s.io.stage := by
  unfold State.queueEth
  dsimp only
  split <;> rfl

theorem State.stage_sendResponse (s : State) (ifc : Nat) (peer : SvcPeer) (m : List Byte) :
    (s.sendResponse ifc peer m).io.stage = s.io.stage := by
  unfold State.sendResponse
  split
  · exact s.stage_queueEth ifc _
  · rfl

/-- An answer leaves the staging session as it is. -/
theorem State.stage_answer (s : State) (ifc : Nat) (q : SvcReq) (status : Nat) (body : List Byte) :
    (s.answer ifc q status body).io.stage = s.io.stage := by
  unfold State.answer
  split
  · split
    · rfl
    · exact State.stage_sendResponse _ _ _ _
  · exact State.stage_sendResponse _ _ _ _

theorem State.reg_queueEth (s : State) (mac : Nat) (t : EthTx) {a : Nat} (hc : Reg.ETH_CNT mac 4 ≠ a)
    (he : Reg.ETH_ERR mac ≠ a) : (s.queueEth mac t).reg a = s.reg a := by
  unfold State.queueEth
  dsimp only
  split
  · exact (State.reg_setFld_other _ _ _ _ _ he).trans (State.reg_addCnt_other _ _ _ _ hc)
  · rfl

theorem State.reg_sendResponse (s : State) (ifc : Nat) (peer : SvcPeer) (m : List Byte) {a : Nat}
    (h : ∀ n < 2, Reg.ETH_CNT n 4 ≠ a ∧ Reg.ETH_ERR n ≠ a) : (s.sendResponse ifc peer m).reg a = s.reg a := by
  unfold State.sendResponse
  split
  case isTrue hi => exact s.reg_queueEth ifc _ (h ifc hi).1 (h ifc hi).2
  case isFalse => rfl

/-- An answer changes no register but the counts of refused Ethernet frames. -/
theorem State.reg_answer (s : State) (ifc : Nat) (q : SvcReq) (status : Nat) (body : List Byte) {a : Nat}
    (h : ∀ n < 2, Reg.ETH_CNT n 4 ≠ a ∧ Reg.ETH_ERR n ≠ a) : (s.answer ifc q status body).reg a = s.reg a := by
  unfold State.answer
  split
  · split
    · rfl
    · exact (State.reg_sendResponse _ _ _ _ h).trans (State.modSvc_reg _ _ _ _)
  · exact State.reg_sendResponse _ _ _ _ h

theorem State.stageStatus_answer (s : State) (ifc : Nat) (q : SvcReq) (status : Nat) (body : List Byte) :
    (s.answer ifc q status body).fld Reg.SYS_STAGE_STATUS F.SYS_STAGE_STATUS.STATE =
      s.fld Reg.SYS_STAGE_STATUS F.SYS_STAGE_STATUS.STATE := by
  unfold State.fld
  rw [State.reg_answer _ _ _ _ _ (by decide)]

/-- What an answer leaves of a state. -/
theorem State.answer_leaves (s : State) (ifc : Nat) (q : SvcReq) (status : Nat) (body : List Byte) :
    Same 4194305 s (s.answer ifc q status body) := State.answer_same (.refl s) rfl

/-! ### The state of the session in SYS_STAGE_STATUS -/

/-- SYS_STAGE_STATUS shows the session's state. -/
theorem State.stageStatus_showStage (s : State) {st : Nat} (code : Nat) (h : regsWf s.regs = true) (hst : st < 8) :
    (s.showStage st code).fld Reg.SYS_STAGE_STATUS F.SYS_STAGE_STATUS.STATE = st := by
  unfold State.showStage
  rw [State.fld_setFld_field _ _ _ _ _ (State.setFld_regsWf _ _ _ _ h) (by decide) (by decide),
    State.fld_setFld_same _ _ _ _ h (by decide)]
  exact Nat.mod_eq_of_lt hst

theorem State.showStage_regsWf (s : State) (st code : Nat) (h : regsWf s.regs = true) :
    regsWf (s.showStage st code).regs = true :=
  State.setFld_regsWf _ _ _ _ (State.setFld_regsWf _ _ _ _ h)

/-! ### The staging commands -/

/-- A session that BEGIN opens: the commit sector is being erased. -/
def State.beginStage (s : State) (ifc : Nat) (q : SvcReq) : State :=
  ((({ s with flash := s.flash.erase (s.flash.region s.altRegion).1 (s.flash.region s.altRegion).2 4096 } : State).modStage
    (fun _ => { open' := true, ifc := ifc, peer := q.2.2.2, gen := w32 (leAt q.2.1 0 4), size := leAt q.2.1 4 4, runs := [],
                received := 0, lastAt := s.now, erasing := true, programming := none, verifying := false })).showStage 1 0).setReg
    Reg.SYS_STAGE_GEN (w32 (leAt q.2.1 0 4))

section Requests

variable {s : State} {ifc : Fin 3} {q : SvcReq} {rest : List SvcReq}

/-- BEGIN answers BUSY in an open session, RANGE to a size beyond the region, and opens a session else. -/
theorem execStageBegin_of_front (h : s.frontServed ifc.val 0x30 q rest) : execStageBegin ifc s = .next (
    if s.io.stage.open' then (s.takeFront ifc.val rest).answer ifc.val q svcBusy []
    else if decide (s.flash.regionSize - 4096 < leAt q.2.1 4 4) then (s.takeFront ifc.val rest).answer ifc.val q svcRange []
    else (s.takeFront ifc.val rest).beginStage ifc.val q) := by
  unfold execStageBegin
  rw [State.serveFront_of_front _ h]
  rfl

/-- A chunk is refused that is empty, longer than its interface takes, beyond IMAGE_SIZE or over programmed bytes. -/
def State.refusesChunk (s : State) (ifc : Nat) (q : SvcReq) : Prop :=
  q.2.1.length ≤ 4 ∨ (if ifc < 2 then 1024 else 4096) < (q.2.1.drop 4).length ∨
    s.io.stage.size < leAt q.2.1 0 4 + (q.2.1.drop 4).length ∨
    s.io.stage.runs.any (fun r => overlap r.1 (r.2 - r.1) (leAt q.2.1 0 4) (q.2.1.drop 4).length) = true

theorem State.refusesChunk_iff : s.refusesChunk ifc.val q ↔
    ((q.2.1.drop 4).isEmpty || decide ((if ifc.val < 2 then 1024 else 4096) < (q.2.1.drop 4).length) ||
      decide (s.io.stage.size < leAt q.2.1 0 4 + (q.2.1.drop 4).length) ||
      s.io.stage.runs.any (fun r => overlap r.1 (r.2 - r.1) (leAt q.2.1 0 4) (q.2.1.drop 4).length)) = true := by
  unfold State.refusesChunk
  rw [Bool.or_eq_true, Bool.or_eq_true, Bool.or_eq_true, decide_eq_true_eq, decide_eq_true_eq, List.isEmpty_iff,
    List.drop_eq_nil_iff, or_assoc, or_assoc]

/-- A chunk that its interface and the session take is being programmed. -/
def State.takeChunk (s : State) (ifc : Nat) (q : SvcReq) : State :=
  s.modStage (fun t => { t with
    programming := some (leAt q.2.1 0 4, q.2.1.drop 4)
    lastAt := s.now
    ifc := ifc
    peer := q.2.2.2 })

theorem execStageChunk_of_refused (h : s.frontServed ifc.val 0x31 q rest) (ho : s.io.stage.open' = true)
    (hb : s.io.stage.busy = false) (hr : s.refusesChunk ifc.val q) :
    execStageChunk ifc s = .next ((s.takeFront ifc.val rest).answer ifc.val q svcRange []) := by
  unfold execStageChunk
  rw [State.stageFront_of_front _ h ho hb]
  exact congrArg _ (if_pos (State.refusesChunk_iff.mp hr))

theorem execStageChunk_of_taken (h : s.frontServed ifc.val 0x31 q rest) (ho : s.io.stage.open' = true)
    (hb : s.io.stage.busy = false) (hr : ¬ s.refusesChunk ifc.val q) :
    execStageChunk ifc s = .next ((s.takeFront ifc.val rest).takeChunk ifc.val q) := by
  unfold execStageChunk
  rw [State.stageFront_of_front _ h ho hb]
  exact congrArg _ (if_neg (fun hc => hr (State.refusesChunk_iff.mpr hc)))

theorem execStageEnd_of_front (h : s.frontServed ifc.val 0x32 q rest) (ho : s.io.stage.open' = true)
    (hb : s.io.stage.busy = false) : execStageEnd ifc s = .next (((s.takeFront ifc.val rest).modStage (fun t =>
      { t with verifying := true, ifc := ifc.val, peer := q.2.2.2 })).showStage 2 0) := by
  unfold execStageEnd
  rw [State.stageFront_of_front _ h ho hb]

theorem execStageStatus_of_front (h : s.frontServed ifc.val 0x33 q rest) : execStageStatus ifc s =
    .next ((s.takeFront ifc.val rest).answer ifc.val q svcOk (leBytes 4 (s.reg Reg.SYS_STAGE_STATUS).toNat)) := by
  unfold execStageStatus
  rw [State.serveFront_of_front _ h]
  rfl

end Requests

/-- The blocks that IMAGE_SIZE covers are erased. -/
def State.erasedStage (s : State) : State :=
  let p := s.flash.region s.altRegion
  ({ s with flash := s.flash.erase p.1 (p.2 + 4096) (blockUp s.io.stage.size) } : State).modStage (fun t => { t with
    erasing := false
    lastAt := s.now })

theorem execStageEraseDone_of_erasing {s : State} (ho : s.io.stage.open' = true) (he : s.io.stage.erasing = true) :
    execStageEraseDone s = .next (s.erasedStage.stageAnswer 0x30 svcOk []) := by
  unfold execStageEraseDone
  simp only [ho, he, Bool.not_true, Bool.or_self, Bool.false_eq_true, if_false]
  rfl

/-- A chunk is programmed into the alternate region and counted. -/
def State.programmedChunk (s : State) (off : Nat) (data : List Byte) : State :=
  let p := s.flash.region s.altRegion
  ({ s with flash := s.flash.program p.1 (p.2 + 4096 + off) data } : State).modStage (fun t => { t with
    programming := none
    runs := t.runs ++ [(off, off + data.length)]
    received := t.received + data.length })

theorem execStageChunkProgrammed_of_some {s : State} {off : Nat} {data : List Byte}
    (h : s.io.stage.programming = some (off, data)) :
    execStageChunkProgrammed s = .next ((s.programmedChunk off data).stageAnswer 0x31 svcOk []) := by
  unfold execStageChunkProgrammed
  simp only [h]
  rfl

/-- The flash with the commit sector of the staged region programmed. -/
def State.committed (s : State) : Flash :=
  s.flash.program (s.flash.region s.altRegion).1 (s.flash.region s.altRegion).2 (commitSector (s.flash.generation s.altRegion))

/-- The session has ended with its checks. -/
def State.endStage (s : State) : State := s.modStage (fun t => { t with open' := false, verifying := false })

/-- The session has ended with its commit, which is remembered in the recovery hold (R38, R61). -/
def State.commitStage (s : State) : State :=
  let t : State := { s.endStage with flash := s.committed }
  if s.stage == 14 then t.modKin (fun k => { k with committedInHold := true }) else t

/-- A commit changes the session and, in the recovery hold, kindling, beside the flash. -/
theorem State.commitStage_same (s : State) : Same 1024 { s.endStage with flash := s.committed } s.commitStage :=
  Same.ite (State.modKin_same (.refl _) rfl) (.refl _)

theorem State.committedInHold_commitStage {s : State} (h : s.stage = 14) : s.commitStage.kin.committedInHold = true := by
  unfold State.commitStage
  rw [h]; rfl

theorem execStageVerifyDone_of_passed {s : State} (ho : s.io.stage.open' = true) (hv : s.io.stage.verifying = true)
    (hc : s.stageCode s.committed s.altRegion = 0) : execStageVerifyDone s =
      .next ((s.commitStage.showStage 3 0).stageAnswer 0x32 svcOk [3, 0]) := by
  have hc' : (s.stageCode s.committed s.altRegion == 0) = true := by rw [hc]; rfl
  unfold execStageVerifyDone
  simp only [ho, hv, Bool.not_true, Bool.or_self, Bool.false_eq_true, if_false]
  exact if_pos hc'

theorem execStageVerifyDone_of_failed {s : State} (ho : s.io.stage.open' = true) (hv : s.io.stage.verifying = true)
    (hc : s.stageCode s.committed s.altRegion ≠ 0) : execStageVerifyDone s =
      .next ((s.endStage.showStage 4 (s.stageCode s.committed s.altRegion)).stageAnswer 0x32 svcStageFailed
        (leBytes 1 4 ++ leBytes 1 (s.stageCode s.committed s.altRegion))) := by
  have hc' : ¬ (s.stageCode s.committed s.altRegion == 0) = true := by simpa using hc
  unfold execStageVerifyDone
  simp only [ho, hv, Bool.not_true, Bool.or_self, Bool.false_eq_true, if_false]
  exact if_neg hc'

/-- The session's idle time has run out, and its record is posted. -/
def State.stageIdle (s : State) : State :=
  (s.reach (s.io.stage.lastAt + 60000000000)).log 0x1100 0x0114 1 0 0xFF
    (s.fld Reg.SYS_STAGE_STATUS F.SYS_STAGE_STATUS.STATE) s.io.stage.received 0

theorem execStageIdleTimeout_of_idle {s : State} (ho : s.io.stage.open' = true) (hb : s.io.stage.busy = false) :
    execStageIdleTimeout s = .next ((s.stageIdle.modStage (fun t => { t with open' := false })).showStage 5 0) := by
  unfold execStageIdleTimeout
  simp only [ho, hb, Bool.not_true, Bool.or_self, Bool.false_eq_true, if_false]
  rfl

/-- Settles O9: each clause from what its command comes to, and from what an answer leaves of the session and of
SYS_STAGE_STATUS. -/
theorem staging : Obligations.Staging := by
  unfold Obligations.Staging
  refine ⟨?_, ?_, ?_, ?_, ?_, ?_, ?_, ?_⟩
  case refine_1 =>
    intro s ifc q rest hq hop hs hc u
    have h : s.frontServed ifc.val 0x30 q rest := ⟨hq, hop, hs⟩
    have mem := ((execStageBegin_same (m0 := 4194433) (ifc := ifc) (.refl s) rfl).of _ (execStageBegin_of_front h)).mem rfl
    have wf : regsWf (s.takeFront ifc.val rest).regs = true := State.canonical_regs hc
    show completes (execStageBegin ifc s) _
    rw [execStageBegin_of_front h]
    refine completes_next ⟨fun ho => if_pos ho, fun ho hl => ?_, fun ho hl => ?_, mem⟩
    · rw [ho, decide_eq_true hl]; rfl
    · rw [ho, decide_eq_false (Nat.not_lt.mpr hl)]
      exact ⟨rfl, rfl, rfl, rfl, State.reg_setReg_same _ _ _ (State.showStage_regsWf _ _ _ wf),
        (State.fld_setReg_other _ _ _ _ _ (by decide)).trans (State.stageStatus_showStage _ 0 wf (by decide)), rfl⟩
  case refine_2 =>
    intro s ho he
    show completes (execStageEraseDone s) _
    rw [execStageEraseDone_of_erasing ho he]
    have same := State.answer_leaves
    refine completes_next ⟨?_, (same _ _ _ _ _).flash rfl, (same _ _ _ _ _).mem rfl⟩
    exact congrArg (·.erasing) (State.stage_answer _ _ _ _ _)
  case refine_3 =>
    intro s ifc q rest hq hop hs ho hb u
    have h : s.frontServed ifc.val 0x31 q rest := ⟨hq, hop, hs⟩
    have same := (execStageChunk_same (m0 := 4194337) (ifc := ifc) (.refl s) rfl).of
    show completes (execStageChunk ifc s) _
    by_cases hr : s.refusesChunk ifc.val q
    · have e := execStageChunk_of_refused h ho hb hr
      rw [e]
      refine completes_next ⟨fun _ => rfl, fun h4 hcap hsz hov => ?_, (same _ e).mem rfl, (same _ e).flash rfl⟩
      rcases hr with hr | hr | hr | hr
      · omega
      · exact absurd hr (Nat.not_lt.mpr hcap)
      · exact absurd hr (Nat.not_lt.mpr hsz)
      · rw [hov] at hr; exact Bool.noConfusion hr
    · have e := execStageChunk_of_taken h ho hb hr
      rw [e]
      exact completes_next ⟨fun hbad => absurd hbad hr, fun _ _ _ _ => ⟨rfl, rfl⟩, rfl, rfl⟩
  case refine_4 =>
    intro s off data hp
    show completes (execStageChunkProgrammed s) _
    rw [execStageChunkProgrammed_of_some hp]
    have same := State.answer_leaves
    refine completes_next ⟨?_, ?_, ?_, (same _ _ _ _ _).flash rfl, (same _ _ _ _ _).mem rfl⟩
    · exact congrArg (·.programming) (State.stage_answer _ _ _ _ _)
    · exact congrArg (·.received) (State.stage_answer _ _ _ _ _)
    · unfold State.stageAnswer
      rw [State.stage_answer]
      exact List.mem_append_right _ List.mem_cons_self
  case refine_5 =>
    intro s ifc q rest hq hop hs hc ho hb u
    show completes (execStageEnd ifc s) _
    rw [execStageEnd_of_front ⟨hq, hop, hs⟩ ho hb]
    exact completes_next ⟨rfl, State.stageStatus_showStage _ 0 (State.canonical_regs hc) (by decide), rfl, rfl⟩
  case refine_6 =>
    intro s hc ho hv
    have same := State.answer_leaves
    show completes (execStageVerifyDone s) _
    by_cases hcode : s.stageCode s.committed s.altRegion = 0
    · have kept := s.commitStage_same
      have wf : regsWf s.commitStage.regs = true := by
        rw [kept.regs rfl]; exact State.canonical_regs hc
      rw [execStageVerifyDone_of_passed ho hv hcode]
      refine completes_next ⟨?_, fun _ => ⟨?_, ?_, fun h14 => ?_⟩, fun hn => absurd hcode hn, ?_⟩
      · refine (congrArg (·.open') (State.stage_answer _ _ _ _ _)).trans ?_
        exact congrArg (·.stage.open') (kept.io rfl)
      · exact ((same _ _ _ _ _).flash rfl).trans (kept.flash rfl)
      · exact (State.stageStatus_answer _ _ _ _ _).trans (State.stageStatus_showStage _ 0 wf (by decide))
      · refine (congrArg (·.committedInHold) ((same _ _ _ _ _).kin rfl)).trans ?_
        exact State.committedInHold_commitStage h14
      · exact ((same _ _ _ _ _).mem rfl).trans (kept.mem rfl)
    · rw [execStageVerifyDone_of_failed ho hv hcode]
      refine completes_next ⟨?_, fun h0 => absurd h0 hcode, fun _ => ⟨?_, ?_⟩, ?_⟩
      · exact congrArg (·.open') (State.stage_answer _ _ _ _ _)
      · exact (same _ _ _ _ _).flash rfl
      · exact (State.stageStatus_answer _ _ _ _ _).trans
          (State.stageStatus_showStage s.endStage _ (State.canonical_regs hc) (by decide))
      · exact (same _ _ _ _ _).mem rfl
  case refine_7 =>
    intro s ifc q rest hq hop hs u
    show completes (execStageStatus ifc s) _
    rw [execStageStatus_of_front ⟨hq, hop, hs⟩]
    exact completes_next rfl
  case refine_8 =>
    intro s hc ho hb
    have log : Same 65537 (s.reach (s.io.stage.lastAt + 60000000000)) s.stageIdle := State.log_same (.refl _) rfl
    have wf : regsWf s.stageIdle.regs = true :=
      (State.log_keeps (Keeps.refl (s.reach (s.io.stage.lastAt + 60000000000)))).regs (State.canonical_regs hc)
    show completes (execStageIdleTimeout s) _
    rw [execStageIdleTimeout_of_idle ho hb]
    exact completes_next ⟨rfl, log.now rfl, State.stageStatus_showStage _ 0 wf (by decide), log.flash rfl, log.mem rfl⟩

end Sys2Proof.Machine
end

section
/-! SUPPORT. Sensor-profile sequences (R43, R135; table "Sensor sequence operation"): a controller's run after its next operation,
after its next profile and after a failure, and the streams that a second failure leaves absent. -/

namespace Sys2Proof.Machine

open Sys2Proof

/-- What leaves the register file alone keeps every register. -/
theorem Same.regsKept {w : Nat} {s t : State} (h : Same w s t) (hw : w.testBit 0 = false) : regsKept s t [] :=
  fun a _ => State.reg_congr (h.regs hw) a

/-! ### A controller's run -/

/-- A controller that is at an operation has a run of its own, which awaits no retry. -/
theorem State.seqAt_facts {s : State} {bus code : Nat} {r : SeqRun} {p : SensorRec} {o : List Byte}
    (h : s.seqAt bus code = some (r, p, o)) : r = s.seqRun bus ∧ r.profiles ≠ [] := by
  unfold State.seqAt at h
  have h := (Option.filter_eq_some_iff.mp h).1
  unfold State.seqOp? at h
  dsimp only at h
  split at h
  case h_1 id rest _ hp =>
    split at h
    case h_1 q _ =>
      obtain ⟨o', -, e⟩ := Option.map_eq_some_iff.mp h
      obtain ⟨rfl, -⟩ := Prod.mk.inj e
      exact ⟨rfl, by rw [hp]; exact List.cons_ne_nil _ _⟩
    case h_2 => cases h
  case h_2 => cases h

/-- Only a controller that is there has profiles to run or a retry to await. -/
theorem State.lt_of_seqRun {s : State} {bus : Nat} (h : (s.seqRun bus).profiles ≠ [] ∨ (s.seqRun bus).retryDue ≠ none) :
    bus < s.kin.seqs.length := by
  by_contra hn
  have e : s.seqRun bus = ⟨[], 0, false, none, none, none⟩ := by
    unfold State.seqRun
    rw [List.getD_eq_getElem?_getD, List.getElem?_eq_none (Nat.not_lt.mp hn)]
    rfl
  rw [e] at h
  rcases h with h | h <;> exact h rfl

theorem State.seqRun_modRun {s : State} {bus : Nat} (f : SeqRun → SeqRun) (h : bus < s.kin.seqs.length) :
    (s.modRun bus f).seqRun bus = f (s.seqRun bus) := by
  unfold State.seqRun State.modRun State.modKin
  simp [List.getD_eq_getElem?_getD, h]

theorem State.seqRun_congr {s t : State} (h : t.kin.seqs = s.kin.seqs) (bus : Nat) : t.seqRun bus = s.seqRun bus := by
  unfold State.seqRun; rw [h]

/-! ### Timers of the next operation -/

theorem SeqRun.arm_op (r : SeqRun) (ops : List (List Byte)) (now : Nat) : (r.arm ops now).op = r.op := by
  unfold SeqRun.arm
  dsimp only
  split <;> rfl

theorem SeqRun.arm_profiles (r : SeqRun) (ops : List (List Byte)) (now : Nat) : (r.arm ops now).profiles = r.profiles := by
  unfold SeqRun.arm
  dsimp only
  split <;> rfl

theorem SeqRun.arm_retryDue (r : SeqRun) (ops : List (List Byte)) (now : Nat) : (r.arm ops now).retryDue = r.retryDue := by
  unfold SeqRun.arm
  dsimp only
  split <;> rfl

/-! ### Going on -/

/-- The next operation of the same profile. -/
theorem State.seqNext_run {s : State} {bus : Nat} (p : SensorRec) (h : bus < s.kin.seqs.length) :
    ((s.seqNext bus p).seqRun bus).op = (s.seqRun bus).op + 1 ∧
      ((s.seqNext bus p).seqRun bus).profiles = (s.seqRun bus).profiles := by
  unfold State.seqNext
  rw [State.seqRun_modRun _ h]
  exact ⟨SeqRun.arm_op _ _ _, SeqRun.arm_profiles _ _ _⟩

@[simp] theorem State.seqNext_pins (s : State) (bus : Nat) (p : SensorRec) : (s.seqNext bus p).pins = s.pins := rfl

/-- The first operation of the next profile. -/
theorem State.seqNextProfile_run {s : State} {bus : Nat} (h : bus < s.kin.seqs.length) :
    ((s.seqNextProfile bus).seqRun bus).profiles = (s.seqRun bus).profiles.drop 1 ∧
      ((s.seqNextProfile bus).seqRun bus).op = 0 := by
  unfold State.seqNextProfile
  rw [State.seqRun_modRun _ h]
  exact ⟨SeqRun.arm_profiles _ _ _, SeqRun.arm_op _ _ _⟩

/-! ### Absent streams -/

/-- A stream marked absent is absent, no stream ceases to be, and the runs stay. -/
theorem State.markAbsent_facts (s : State) (stream : Nat) :
    stream ∈ (s.markAbsent stream).kin.absentStreams ∧ s.kin.absentStreams ⊆ (s.markAbsent stream).kin.absentStreams ∧
      (s.markAbsent stream).kin.seqs = s.kin.seqs := by
  unfold State.markAbsent
  split
  case isTrue h => exact ⟨by simpa using h, List.Subset.refl _, rfl⟩
  case isFalse =>
    have kin : (s.unbindStream stream).kin = s.kin := (State.unbindStream_same (m0 := 3211265) (.refl s) rfl).kin rfl
    dsimp only
    rw [kin]
    exact ⟨List.mem_append_right _ List.mem_cons_self, List.subset_append_left _ _, rfl⟩

/-- Every stream of a list that is marked absent is absent, and the runs stay. -/
theorem State.foldl_markAbsent (l : List StreamRec) (s : State) :
    (∀ q ∈ l, q.stream ∈ (l.foldl (fun (s : State) q => s.markAbsent q.stream) s).kin.absentStreams) ∧
      s.kin.absentStreams ⊆ (l.foldl (fun (s : State) q => s.markAbsent q.stream) s).kin.absentStreams ∧
      (l.foldl (fun (s : State) q => s.markAbsent q.stream) s).kin.seqs = s.kin.seqs := by
  induction l generalizing s with
  | nil => exact ⟨fun q hq => absurd hq List.not_mem_nil, List.Subset.refl _, rfl⟩
  | cons p l ih =>
    obtain ⟨hp, hsub, hseqs⟩ := s.markAbsent_facts p.stream
    obtain ⟨hall, hsub', hseqs'⟩ := ih (s.markAbsent p.stream)
    refine ⟨fun q hq => ?_, fun x hx => hsub' (hsub hx), hseqs'.trans hseqs⟩
    rcases List.mem_cons.mp hq with rfl | hq
    · exact hsub' hp
    · exact hall q hq

/-! ### A sequence that fails -/

/-- The record of a NACK leaves the runs, the time, the image and its region. -/
theorem State.nackLogged_same (s : State) (bus op id : Nat) (nack : Bool) :
    Same 65537 s (if nack then s.log (0x1B00 + bus) 0x0402 1 0 0xFF 0 op id else s) :=
  Same.ite (State.log_same (.refl s) rfl) (.refl s)

/-- A first failure runs the sequence again 100 ms later. -/
theorem State.seqFail_first {s : State} {bus : Nat} {r : SeqRun} (p : SensorRec) (nack : Bool)
    (h : bus < s.kin.seqs.length) (hr : r.retried = false) :
    ((s.seqFail bus r p nack).seqRun bus).op = 0 ∧ ((s.seqFail bus r p nack).seqRun bus).retried = true ∧
      ((s.seqFail bus r p nack).seqRun bus).retryDue = some (s.now + 100000000) := by
  have logged := s.nackLogged_same bus r.op p.id nack
  unfold State.seqFail
  extract_lets u
  have hu : bus < u.kin.seqs.length := by rw [logged.kin rfl]; exact h
  have hn : u.now = s.now := logged.now rfl
  rw [if_pos (by rw [hr]; rfl), State.seqRun_modRun _ hu, hn]
  exact ⟨rfl, rfl, rfl⟩

/-- A second failure goes on with the next profile and leaves the sensor's streams absent. -/
theorem State.seqFail_second {s : State} {bus : Nat} {r : SeqRun} {p : SensorRec} (nack : Bool)
    (h : bus < s.kin.seqs.length) (hr : r.retried = true) (hid : p.id < 0x100) :
    ((s.seqFail bus r p nack).seqRun bus).profiles = (s.seqRun bus).profiles.drop 1 ∧
      ∀ q, q ∈ s.flash.usedStreams s.imgRegion → q.sensor = p.id → q.stream ∈ (s.seqFail bus r p nack).kin.absentStreams := by
  have logged := s.nackLogged_same bus r.op p.id nack
  unfold State.seqFail
  extract_lets u v
  have hk : u.kin = s.kin := logged.kin rfl
  have hu : bus < u.kin.seqs.length := by rw [hk]; exact h
  have streams : v.flash.usedStreams v.imgRegion = s.flash.usedStreams s.imgRegion := by
    have region : v.imgRegion = u.imgRegion := rfl
    have flash : v.flash = s.flash := logged.flash rfl
    rw [region, flash]
    unfold State.imgRegion
    rw [hk]
  rw [if_neg (by rw [hr]; exact Bool.noConfusion), if_pos (decide_eq_true hid), streams]
  obtain ⟨absent, -, seqs⟩ := State.foldl_markAbsent ((s.flash.usedStreams s.imgRegion).filter (fun q => q.sensor == p.id)) v
  refine ⟨?_, fun q hq hs => absent q (List.mem_filter.mpr ⟨hq, beq_iff_eq.mpr hs⟩)⟩
  rw [State.seqRun_congr seqs, (State.seqNextProfile_run hu).1, State.seqRun_congr (congrArg (·.seqs) hk)]

/-- A failure takes no time and changes no memory. -/
theorem State.seqFail_leaves (s : State) (bus : Nat) (r : SeqRun) (p : SensorRec) (nack : Bool) :
    Same 301988873 s (s.seqFail bus r p nack) := State.seqFail_same (.refl s) rfl

/-! ### Pins and pulses -/

/-- A pin driven at a level of one bit is driven, and at that level. -/
theorem Pins.drive_bit (p : Pins) {n : Nat} (x : Nat) (h : n < 32) :
    (p.drive n (x % 2)).gpioDriven.getLsbD n = true ∧ (p.drive n (x % 2)).gpio.getLsbD n = decide (x % 2 = 1) := by
  have bit : (BitVec.ofNat 32 (2 ^ n)).getLsbD n = true := by
    rw [BitVec.getLsbD_ofNat, Nat.testBit_two_pow_self, decide_eq_true h]; rfl
  rcases Nat.mod_two_eq_zero_or_one x with hx | hx <;> rw [hx]
  · exact ⟨by rw [Pins.drive, BitVec.getLsbD_or, bit, Bool.or_true],
      by rw [Pins.drive, BitVec.getLsbD_and, BitVec.getLsbD_not, bit, Bool.not_true, Bool.and_false, Bool.and_false]; rfl⟩
  · exact ⟨by rw [Pins.drive, BitVec.getLsbD_or, bit, Bool.or_true],
      by rw [Pins.drive, BitVec.getLsbD_or, bit, Bool.or_true]; rfl⟩

/-- The state once the operation's GPIO, where it is a SENSOR pin, has been driven at its level. -/
def State.driveSensor (s : State) (o : List Byte) : State :=
  if (s.gpioRec (leAt o 1 1)).function == 3 && decide (leAt o 1 1 < 32) then
    s.modPins (fun q => q.drive (leAt o 1 1) (leAt o 4 1 % 2))
  else s

theorem State.driveSensor_pins {s : State} {o : List Byte} (hf : (s.gpioRec (leAt o 1 1)).function = 3) (hn : leAt o 1 1 < 32) :
    (s.driveSensor o).pins = s.pins.drive (leAt o 1 1) (leAt o 4 1 % 2) := by
  unfold State.driveSensor
  rw [hf, decide_eq_true hn]
  rfl

theorem State.driveSensor_same (s : State) (o : List Byte) : Same 512 s (s.driveSensor o) :=
  Same.ite (State.modPins_same (.refl s) rfl) (.refl s)

/-- The state once the pulses of the operation's FSYNC output have been enabled. -/
def State.enableFsync (s : State) (o : List Byte) : State :=
  { s with cam := { s.cam with fsync := s.cam.fsync.mapIdx (fun i f =>
      if i == leAt o 1 1 && !f.enabled then ⟨true, some s.now, false, false⟩ else f) } }

theorem State.enableFsync_enabled {s : State} {o : List Byte} {f : FsyncSt}
    (h : (s.enableFsync o).cam.fsync[leAt o 1 1]? = some f) : f.enabled = true := by
  unfold State.enableFsync at h
  dsimp only at h
  rw [List.getElem?_mapIdx] at h
  obtain ⟨g, -, rfl⟩ := Option.map_eq_some_iff.mp h
  cases hg : g.enabled <;> simp [hg]

/-! ### The operations -/

section Operations

variable {s : State} {bus : Fin 4} {r : SeqRun} {p : SensorRec} {o : List Byte}

theorem State.seqAt_run {code : Nat} (h : s.seqAt bus.val code = some (r, p, o)) :
    r = s.seqRun bus.val ∧ bus.val < s.kin.seqs.length := by
  obtain ⟨hr, hp⟩ := State.seqAt_facts h
  exact ⟨hr, State.lt_of_seqRun (.inl (hr ▸ hp))⟩

theorem execSeqWrite_of_at (ack : Bool) (h : s.seqAt bus.val 1 = some (r, p, o)) :
    execSeqWrite bus ack s = .next (if ack then s.seqNext bus.val p else s.seqFail bus.val r p true) := by
  unfold execSeqWrite; rw [h]

theorem execSeqReadExpect_of_at (ack : Bool) (value : Word) (h : s.seqAt bus.val 2 = some (r, p, o)) :
    execSeqReadExpect bus ack value s =
      if !ack then .next (s.seqFail bus.val r p true)
      else if value.toNat % 256 ^ opLen o == leAt o 4 (opLen o) then .next (s.seqNext bus.val p)
      else .next (s.seqFail bus.val r p false) := by
  unfold execSeqReadExpect; rw [h]

theorem execSeqWait_of_at (h : s.seqAt bus.val 3 = some (r, p, o)) :
    execSeqWait bus s = .next ((s.reach (r.waitDue.getD (s.now + leAt o 4 4 * 1000))).seqNext bus.val p) := by
  unfold execSeqWait; rw [h]

theorem execSeqPoll_of_at (ack : Bool) (value : Half) (h : s.seqAt bus.val 4 = some (r, p, o)) :
    execSeqPoll bus ack value s =
      if !ack then .next ((s.reach (r.waitDue.getD s.now)).seqFail bus.val r p true)
      else if value &&& BitVec.ofNat 16 (leAt o 6 2) == BitVec.ofNat 16 (leAt o 4 2) &&& BitVec.ofNat 16 (leAt o 6 2) then
        .next ((s.reach (r.waitDue.getD s.now)).seqNext bus.val p)
      else if r.pollFrom.getD (r.waitDue.getD s.now) + 10000000 < r.waitDue.getD s.now + 100000 then
        .next ((s.reach (r.waitDue.getD s.now)).seqFail bus.val r p false)
      else .next ((s.reach (r.waitDue.getD s.now)).modRun bus.val (fun x => { x with
        waitDue := some (r.waitDue.getD s.now + 100000)
        pollFrom := some (r.pollFrom.getD (r.waitDue.getD s.now)) })) := by
  unfold execSeqPoll; rw [h]

theorem execSeqGpio_of_at (h : s.seqAt bus.val 5 = some (r, p, o)) :
    execSeqGpio bus s = .next ((s.driveSensor o).seqNext bus.val p) := by
  unfold execSeqGpio; rw [h]; rfl

theorem execSeqFsyncEnable_of_at (h : s.seqAt bus.val 6 = some (r, p, o)) :
    execSeqFsyncEnable bus s = .next ((s.enableFsync o).seqNext bus.val p) := by
  unfold execSeqFsyncEnable; rw [h]; rfl

theorem execSeqEnd_of_at (h : s.seqAt bus.val 0 = some (r, p, o)) :
    execSeqEnd bus s = .next (s.seqNextProfile bus.val) := by
  unfold execSeqEnd; rw [h]

/-- The run's retry is due no more, and its first operation is armed. -/
theorem execSensorRetryTimer_of_due {d : Nat} (h : (s.seqRun bus.val).retryDue = some d) :
    ∃ ops, execSensorRetryTimer bus s =
      .next ((s.reach d).modRun bus.val (fun x => ({ x with retryDue := none }).arm ops (s.reach d).now)) := by
  unfold execSensorRetryTimer
  dsimp only
  rw [h]
  exact ⟨_, rfl⟩

end Operations

/-- Settles O4: each operation from what it comes to, and from what going on and failing leave of the controller's run. -/
theorem sensorSequences : Obligations.SensorSequences := by
  unfold Obligations.SensorSequences
  refine ⟨?_, ?_, ?_, ?_, ?_, ?_, ?_, ?_⟩
  case refine_1 =>
    intro s bus ack r p o h
    obtain ⟨rfl, hb⟩ := State.seqAt_run h
    show completes (execSeqWrite bus ack s) _
    rw [execSeqWrite_of_at ack h]
    cases ack with
    | true =>
      exact completes_next ⟨fun _ => State.seqNext_run p hb, nofun, nofun, rfl, rfl⟩
    | false =>
      have leaves := s.seqFail_leaves bus.val (s.seqRun bus.val) p true
      exact completes_next ⟨nofun, fun _ hr => State.seqFail_first p true hb hr,
        fun _ hr hid => State.seqFail_second true hb hr hid, leaves.now rfl, leaves.mem rfl⟩
  case refine_2 =>
    intro s bus ack value r p o h
    obtain ⟨rfl, hb⟩ := State.seqAt_run h
    have leaves := s.seqFail_leaves bus.val (s.seqRun bus.val) p
    show completes (execSeqReadExpect bus ack value s) _
    rw [execSeqReadExpect_of_at ack value h]
    cases ack with
    | false =>
      exact completes_next ⟨nofun, fun _ hr => State.seqFail_first p true hb hr,
        fun _ hr hid => State.seqFail_second true hb hr hid, (leaves true).now rfl, (leaves true).mem rfl⟩
    | true =>
      by_cases hm : value.toNat % 256 ^ opLen o = leAt o 4 (opLen o)
      · have no : ¬ (true = false ∨ value.toNat % 256 ^ opLen o ≠ leAt o 4 (opLen o)) := by simp [hm]
        rw [beq_iff_eq.mpr hm]
        exact completes_next ⟨fun _ _ => State.seqNext_run p hb, fun hf => absurd hf no, fun hf => absurd hf no, rfl, rfl⟩
      · rw [beq_eq_false_iff_ne.mpr hm]
        exact completes_next ⟨fun _ he => absurd he hm, fun _ hr => State.seqFail_first p false hb hr,
          fun _ hr hid => State.seqFail_second false hb hr hid, (leaves false).now rfl, (leaves false).mem rfl⟩
  case refine_3 =>
    intro s bus r p o h
    obtain ⟨rfl, hb⟩ := State.seqAt_run h
    show completes (execSeqWait bus s) _
    rw [execSeqWait_of_at h]
    obtain ⟨hop, hprof⟩ := State.seqNext_run (s := s.reach ((s.seqRun bus.val).waitDue.getD (s.now + leAt o 4 4 * 1000))) p hb
    exact completes_next ⟨hop, hprof, rfl, rfl, fun _ _ => rfl⟩
  case refine_4 =>
    intro s bus ack value r p o h
    obtain ⟨rfl, hb⟩ := State.seqAt_run h
    show completes (execSeqPoll bus ack value s) _
    rw [execSeqPoll_of_at ack value h]
    generalize (s.seqRun bus.val).waitDue.getD s.now = due
    have hb' : bus.val < (s.reach due).kin.seqs.length := hb
    have run : s.seqRun bus.val = (s.reach due).seqRun bus.val := rfl
    have streams : s.flash.usedStreams s.imgRegion = (s.reach due).flash.usedStreams (s.reach due).imgRegion := rfl
    have now : max s.now due = (s.reach due).now := rfl
    have mem : s.mem = (s.reach due).mem := rfl
    rw [run, streams, now, mem]
    generalize s.reach due = u at hb'
    have leaves := u.seqFail_leaves bus.val (u.seqRun bus.val) p
    cases ack with
    | false =>
      refine completes_next ⟨nofun, nofun, fun _ hr => ?_,
        fun _ hr hid => State.seqFail_second true hb' hr hid, (leaves true).now rfl, (leaves true).mem rfl⟩
      rw [(leaves true).now rfl]
      exact State.seqFail_first p true hb' hr
    | true =>
      by_cases hm : value &&& BitVec.ofNat 16 (leAt o 6 2) = BitVec.ofNat 16 (leAt o 4 2) &&& BitVec.ofNat 16 (leAt o 6 2)
      · rw [beq_iff_eq.mpr hm]
        exact completes_next ⟨fun _ _ => State.seqNext_run p hb', fun _ hn => absurd hm hn, nofun,
          nofun, rfl, rfl⟩
      · rw [beq_eq_false_iff_ne.mpr hm]
        simp only [Bool.not_true, Bool.false_eq_true, if_false]
        split
        case isTrue late =>
          exact completes_next ⟨fun _ he => absurd he hm, fun _ _ hin => absurd late (Nat.not_lt.mpr hin),
            nofun, nofun, (leaves false).now rfl, (leaves false).mem rfl⟩
        case isFalse =>
          refine completes_next ⟨fun _ he => absurd he hm, fun _ _ _ => ?_, nofun,
            nofun, rfl, rfl⟩
          rw [State.seqRun_modRun _ hb']
          exact ⟨rfl, rfl⟩
  case refine_5 =>
    intro s bus r p o h
    obtain ⟨rfl, hb⟩ := State.seqAt_run h
    have driven := s.driveSensor_same o
    have kept := (execSeqGpio_same (m0 := 1536) (bus := bus) (.refl s) rfl).of _ (execSeqGpio_of_at h)
    have hb' : bus.val < (s.driveSensor o).kin.seqs.length := by rw [driven.kin rfl]; exact hb
    obtain ⟨hop, hprof⟩ := State.seqNext_run p hb'
    rw [State.seqRun_congr (congrArg (·.seqs) (driven.kin rfl))] at hop hprof
    show completes (execSeqGpio bus s) _
    rw [execSeqGpio_of_at h]
    refine completes_next ⟨hop, hprof, fun hf hn => ?_, kept.now rfl, kept.mem rfl, kept.regsKept rfl⟩
    rw [State.seqNext_pins, State.driveSensor_pins hf hn]
    exact s.pins.drive_bit _ hn
  case refine_6 =>
    intro s bus r p o h
    obtain ⟨rfl, hb⟩ := State.seqAt_run h
    obtain ⟨hop, hprof⟩ := State.seqNext_run (s := s.enableFsync o) p hb
    show completes (execSeqFsyncEnable bus s) _
    rw [execSeqFsyncEnable_of_at h]
    exact completes_next ⟨hop, hprof, fun f hf => State.enableFsync_enabled hf, rfl, rfl, fun _ _ => rfl⟩
  case refine_7 =>
    intro s bus r p o h
    obtain ⟨rfl, hb⟩ := State.seqAt_run h
    obtain ⟨hprof, hop⟩ := State.seqNextProfile_run hb
    show completes (execSeqEnd bus s) _
    rw [execSeqEnd_of_at h]
    exact completes_next ⟨hprof, hop, rfl, rfl, fun _ _ => rfl⟩
  case refine_8 =>
    intro s bus d h
    have hb : bus.val < s.kin.seqs.length := State.lt_of_seqRun (.inr (by rw [h]; exact Option.some_ne_none d))
    have hb' : bus.val < (s.reach d).kin.seqs.length := hb
    obtain ⟨ops, e⟩ := execSensorRetryTimer_of_due h
    show completes (execSensorRetryTimer bus s) _
    rw [e]
    refine completes_next ⟨?_, ?_, rfl, rfl, fun _ _ => rfl⟩ <;> rw [State.seqRun_modRun _ hb']
    · exact SeqRun.arm_retryDue _ _ _
    · exact SeqRun.arm_op _ _ _

end Sys2Proof.Machine
end

section
/-! SUPPORT. The service operations that read, and a scene request (R77, R487, R488): what each command comes to. -/

namespace Sys2Proof.Machine

open Sys2Proof

section Requests

variable {s : State} {ifc : Fin 3} {q : SvcReq} {rest : List SvcReq}

theorem execServiceStatus_of_front (h : s.frontServed ifc.val 0x10 q rest) :
    execServiceStatus ifc s = .next ((s.takeFront ifc.val rest).answer ifc.val q svcOk s.io.mirror) := by
  unfold execServiceStatus
  rw [State.serveFront_of_front _ h]
  rfl

/-! ### READ_REG -/

/-- A READ_REG that answers RANGE: no proper body, an address off a word, or registers outside what may be read. -/
def SvcReq.badRead (q : SvcReq) : Prop :=
  q.2.1.length ≠ 5 ∨ leAt q.2.1 0 4 % 4 ≠ 0 ∨ leAt q.2.1 4 1 = 0 ∨ 64 < leAt q.2.1 4 1 ∨
    ∃ i, i < leAt q.2.1 4 1 ∧ readable (leAt q.2.1 0 4 + 4 * i) = false

theorem SvcReq.badRead_iff : q.badRead ↔
    (q.2.1.length != 5 || leAt q.2.1 0 4 % 4 != 0 || leAt q.2.1 4 1 == 0 || decide (64 < leAt q.2.1 4 1) ||
      !((List.range (leAt q.2.1 4 1)).map (fun i => leAt q.2.1 0 4 + 4 * i)).all readable) = true := by
  simp [SvcReq.badRead, or_assoc]

theorem execReadReg_of_bad (h : s.frontServed ifc.val 0x11 q rest) (hb : q.badRead) :
    execReadReg ifc s = .next ((s.takeFront ifc.val rest).answer ifc.val q svcRange []) := by
  unfold execReadReg
  rw [State.serveFront_of_front _ h]
  exact congrArg _ (if_pos (SvcReq.badRead_iff.mp hb))

theorem execReadReg_of_good (h : s.frontServed ifc.val 0x11 q rest) (hb : ¬ q.badRead) :
    execReadReg ifc s = .next ((s.takeFront ifc.val rest).answer ifc.val q svcOk ((List.range (leAt q.2.1 4 1)).flatMap
      (fun i => leBytes 4 ((s.takeFront ifc.val rest).peekReg 4 (leAt q.2.1 0 4 + 4 * i) true).toNat))) := by
  unfold execReadReg
  rw [State.serveFront_of_front _ h]
  refine congrArg _ ((if_neg (fun hc => hb (SvcReq.badRead_iff.mpr hc))).trans ?_)
  rw [List.flatMap_map]

/-! ### JOURNAL_READ -/

/-- The records that the ring or the mirror holds depend on the journal, the register file, the memory and the links alone. -/
theorem State.recordsFrom_takeFront (s : State) (ifc : Nat) (rest : List SvcReq) (k : Nat) (n : Word) :
    (s.takeFront ifc rest).recordsFrom k n = s.recordsFrom k n := by
  induction k generalizing n with
  | zero => rfl
  | succ k ih =>
    have held : (s.takeFront ifc rest).record? n = s.record? n := rfl
    unfold State.recordsFrom
    rw [held]
    simp only [ih]

theorem State.journalPart_takeFront (s : State) (ifc : Nat) (rest : List SvcReq) (start : Word) (n : Nat) :
    (s.takeFront ifc rest).journalPart start n = s.journalPart start n := by
  unfold State.journalPart
  dsimp only
  rw [State.recordsFrom_takeFront]
  rfl

/-- JOURNAL_READ answers RANGE to an improper body or number of records, else the records with the first one's sequence. -/
theorem execJournalRead_of_front (h : s.frontServed ifc.val 0x12 q rest) : execJournalRead ifc s = .next (
    if q.2.1.length != 5 || leAt q.2.1 4 1 == 0 || decide (40 < leAt q.2.1 4 1) then
      (s.takeFront ifc.val rest).answer ifc.val q svcRange []
    else (s.takeFront ifc.val rest).answer ifc.val q svcOk
      (leBytes 4 (s.journalPart (w32 (leAt q.2.1 0 4)) (leAt q.2.1 4 1)).1.toNat ++
        (s.journalPart (w32 (leAt q.2.1 0 4)) (leAt q.2.1 4 1)).2.flatMap JRec.bytes)) := by
  unfold execJournalRead
  rw [State.serveFront_of_front _ h]
  dsimp only
  rw [State.journalPart_takeFront]

/-! ### SCENE_REQUEST -/

theorem execSceneRequest_of_busy (h : s.frontServed ifc.val 0x20 q rest) (hb : s.scene.switch ≠ none ∨ s.dwelling = true) :
    execSceneRequest ifc s = .next ((s.takeFront ifc.val rest).answer ifc.val q svcBusy []) := by
  unfold execSceneRequest
  rw [State.serveFront_of_front _ h]
  refine congrArg _ (if_pos ?_)
  rw [Bool.or_eq_true, Option.isSome_iff_ne_none]
  exact hb

/-- The scene a request goes to: it starts a switch unless no scene is chosen or the current one is. -/
def State.goScene (s : State) (n : Nat) : State :=
  match s.choose n with
  | some m => if m == s.sceneNo then s else s.accept m 5 none []
  | none => s

theorem State.goScene_of_stays {n : Nat} (h : (s.choose n).all (fun m => m == s.sceneNo) = true) : s.goScene n = s := by
  unfold State.goScene
  split
  case h_1 m hm =>
    rw [hm] at h
    exact if_pos h
  case h_2 => rfl

theorem State.goScene_of_other {n m : Nat} (hm : s.choose n = some m) (h : m ≠ s.sceneNo) :
    s.goScene n = s.accept m 5 none [] := by
  unfold State.goScene
  rw [hm]
  exact if_neg (by simpa using h)

/-- Outside a switch and the dwell a request for a full scene goes to it, and any other number is no scene. -/
theorem execSceneRequest_of_idle (h : s.frontServed ifc.val 0x20 q rest) (hs : s.scene.switch = none) (hd : s.dwelling = false) :
    execSceneRequest ifc s = .next (if (s.sceneRec? (leAt q.2.1 0 1)).any (fun c => c.bankedOf.isNone) then
      ((s.takeFront ifc.val rest).goScene (leAt q.2.1 0 1)).answer ifc.val q svcOk []
      else (s.takeFront ifc.val rest).answer ifc.val q svcNoScene []) := by
  have hs' : (s.takeFront ifc.val rest).scene.switch = none := hs
  have hd' : (s.takeFront ifc.val rest).dwelling = false := hd
  have hr : s.sceneRec? (leAt q.2.1 0 1) = (s.takeFront ifc.val rest).sceneRec? (leAt q.2.1 0 1) := rfl
  unfold execSceneRequest State.goScene
  rw [State.serveFront_of_front _ h, hr]
  generalize s.takeFront ifc.val rest = u at hs' hd'
  dsimp only
  rw [hs', hd']
  cases u.sceneRec? (leAt q.2.1 0 1) with
  | none => simp
  | some c =>
    cases hb : c.bankedOf with
    | none => cases u.choose (leAt q.2.1 0 1) <;> simp [hb]
    | some b => simp [hb]

end Requests

/-- Settles O7: each clause from what its command comes to. -/
theorem serviceReads : Obligations.ServiceReads := by
  unfold Obligations.ServiceReads
  refine ⟨?_, ?_, ?_, ?_⟩
  case refine_1 =>
    intro s ifc q rest hq hop hs u
    show completes (execServiceStatus ifc s) _
    rw [execServiceStatus_of_front ⟨hq, hop, hs⟩]
    exact completes_next rfl
  case refine_2 =>
    intro s ifc q rest hq hop hs u
    have h : s.frontServed ifc.val 0x11 q rest := ⟨hq, hop, hs⟩
    show completes (execReadReg ifc s) _
    by_cases hb : q.badRead
    case pos =>
      rw [execReadReg_of_bad h hb]
      refine completes_next ⟨fun _ => rfl, fun h5 h4 h0 h64 hr => absurd hb ?_⟩
      rintro (e | e | e | e | ⟨i, hi, e⟩)
      · exact e h5
      · exact e h4
      · exact h0 e
      · exact absurd e (Nat.not_lt.mpr h64)
      · exact absurd (hr i hi) (by simp [e])
    case neg =>
      rw [execReadReg_of_good h hb]
      exact completes_next ⟨fun e => absurd e hb, fun _ _ _ _ _ => rfl⟩
  case refine_3 =>
    intro s ifc q rest hq hop hs u
    show completes (execJournalRead ifc s) _
    rw [execJournalRead_of_front ⟨hq, hop, hs⟩]
    refine completes_next ⟨fun hb => if_pos ?_, fun h5 h0 h40 => if_neg ?_⟩
    · simpa [or_assoc] using hb
    · simpa [h5, h0] using h40
  case refine_4 =>
    intro s ifc q rest hq hop hs u
    have h : s.frontServed ifc.val 0x20 q rest := ⟨hq, hop, hs⟩
    show completes (execSceneRequest ifc s) _
    by_cases hb : s.scene.switch ≠ none ∨ s.dwelling = true
    case pos =>
      rw [execSceneRequest_of_busy h hb]
      have busy : s.scene.switch = none → ¬ s.dwelling = false := fun e => by simpa [e] using hb
      exact completes_next ⟨fun _ => rfl, fun e d => absurd d (busy e), fun e d => absurd d (busy e),
        fun _ e d => absurd d (busy e)⟩
    case neg =>
      obtain ⟨hs, hd⟩ : s.scene.switch = none ∧ s.dwelling = false := by simpa using hb
      rw [execSceneRequest_of_idle h hs hd]
      refine completes_next ⟨fun e => absurd e hb, fun _ _ e => if_neg ?_, fun _ _ e hc => (if_pos e).trans ?_,
        fun m _ _ e hm hn => (if_pos e).trans ?_⟩
      · cases hr : s.sceneRec? (leAt q.2.1 0 1) with
        | none => nofun
        | some c => simpa [hr, Option.isSome_iff_ne_none] using e
      · exact congrArg (·.answer ifc.val q svcOk []) (State.goScene_of_stays (s := u) hc)
      · exact congrArg (·.answer ifc.val q svcOk []) (State.goScene_of_other (s := u) hm hn)

end Sys2Proof.Machine
end

section
/-! SUPPORT. Which operations leave the registers of resets, kindling and scenes alone: those that lie below the registers of the
Policy Core pairs (spec/20). One lemma for each operation, in the order of the model's files. -/

namespace Sys2Proof.Machine

open Sys2Proof

/-- Below the registers of the Policy Core pairs t shows what r shows. -/
def LowKept (r t : State) : Prop := ∀ a < 0x400, t.reg a = r.reg a

namespace LowKept

variable {r s t : State}

theorem refl (s : State) : LowKept s s := fun _ _ => rfl

theorem of_regs (h : LowKept r s) (e : t.regs = s.regs) : LowKept r t := fun a ha => (State.reg_congr e a).trans (h a ha)

theorem of_same {w : Nat} (h : LowKept r s) (g : Same w s t) (hw : w.testBit 0 = false) : LowKept r t :=
  h.of_regs (g.regs hw)

theorem setReg (h : LowKept r s) {a : Nat} (v : Word) (ha : 0x400 ≤ a) : LowKept r (s.setReg a v) := fun c hc =>
  (State.reg_setReg_other s v (by omega)).trans (h c hc)

theorem setFld (h : LowKept r s) {a : Nat} (b : Bits) (v : Nat) (ha : 0x400 ≤ a) : LowKept r (s.setFld a b v) := h.setReg _ ha

theorem ite {c : Prop} [Decidable c] (hs : LowKept r s) (ht : LowKept r t) : LowKept r (if c then s else t) := by
  split <;> assumption

theorem foldl {α : Type} {l : List α} {F : State → α → State} (hF : ∀ u x, LowKept r u → LowKept r (F u x))
    (h : LowKept r s) : LowKept r (l.foldl F s) := by
  induction l generalizing s with
  | nil => exact h
  | cons x l ih => exact ih (hF s x h)

theorem foldlFst {α β : Type} {l : List α} {F : State × β → α → State × β} {p : State × β}
    (hF : ∀ q x, LowKept r q.1 → LowKept r (F q x).1) (h : LowKept r p.1) : LowKept r (l.foldl F p).1 := by
  induction l generalizing p with
  | nil => exact h
  | cons x l ih => exact ih (hF p x h)

end LowKept

section

variable {r s : State} (h : LowKept r s)

include h

/-! ### Records, severe events and partners -/

theorem State.log_low (source code cls partition stream a0 a1 a2 : Nat) :
    LowKept r (s.log source code cls partition stream a0 a1 a2) := fun a ha =>
  (State.reg_log _ _ _ _ _ _ _ _ _ _ (by unfold Reg.EJ_LOST_CNT; omega) (by unfold Reg.EJ_EVENT; omega)).trans (h a ha)

theorem State.severe_low (cause unit : Nat) : LowKept r (s.severe cause unit) :=
  State.log_low (h.setReg _ (by decide)) _ _ _ _ _ _ _ _

theorem State.sendTo_low (e : Nat) (p : GmlPkt) : LowKept r (s.sendTo e p) := fun a ha =>
  ((State.sendTo_sent s e p).reg a fun k => by unfold Reg.GML_CNT; omega).trans (h a ha)

theorem State.sendDrain_low (e flag : Nat) : LowKept r (s.sendDrain e flag) := .ite h (State.sendTo_low h _ _)

theorem State.post_low (ts : List Token) : LowKept r (s.post ts) := by
  unfold State.post
  extract_lets here f s1
  have h1 : LowKept r s1 := h.of_regs rfl
  refine LowKept.foldl (fun u t hu => ?_) h1
  split
  · exact hu
  · exact .ite hu (State.sendTo_low hu _ _)

/-! ### Cancellation (R93, R109) -/

theorem State.modFlag_low (i : Nat) (f : SlotFlag → SlotFlag) : LowKept r (s.modFlag i f) :=
  h.of_same (State.modFlag_same (m0 := 8) (.refl s) rfl) rfl

theorem State.setRing_low (x : RingSt) : LowKept r (s.setRing x) := h.of_regs rfl

theorem State.voidOne_low (n : NodeSt) (seq : Word) (tile o : Nat) : LowKept r (s.voidOne n seq tile o).1 := by
  unfold State.voidOne
  split
  · split
    · exact h
    · dsimp only
      split
      · exact h
      · next s1 hs1 =>
        have h1 : LowKept r s1 := by
          split at hs1
          · cases hs1; exact h
          · split at hs1
            · cases hs1; exact h.of_same (State.assignSlot_same (m0 := 4104) (.refl s) rfl) rfl
            · split at hs1 <;> cases hs1
              exact h
        have h2 := fun i => State.modFlag_low h1 i SlotFlag.voidRect
        split
        · exact State.post_low ((h2 _).setFld _ _ (by decide)) _
        · exact h2 _
  · exact h

theorem State.voidRelease_low (i : Inst) : LowKept r (s.voidRelease i) := by
  unfold State.voidRelease
  split
  · exact h
  · refine LowKept.of_regs (LowKept.foldlFst (fun p o hp => ?_) h) rfl
    dsimp only
    split <;> exact State.voidOne_low hp _ _ _ _

theorem State.tryDrain_low (layer idx sl node j : Nat) : LowKept r (s.tryDrain layer idx sl node j) := by
  unfold State.tryDrain
  split
  · refine .ite (State.setRing_low ?_ _) h
    split
    · exact State.sendDrain_low h _ _
    · exact State.modFlag_low h _ _
  · exact h

theorem State.drainInputs_low (n : NodeSt) (seq : Word) (t : Nat) : LowKept r (s.drainInputs n seq t) :=
  LowKept.foldl (fun _ _ hu => State.tryDrain_low hu _ _ _ _ _) h

/-- What follows a release changes no register but the flit counters, where a drain is told to a partner. -/
theorem State.finish_low (i : Inst) : LowKept r (s.finish i) := by
  unfold State.finish
  split
  · exact h
  · next n _ =>
    extract_lets s1 s2 s3 s4
    have h1 : LowKept r s1 := .ite h (h.of_regs rfl)
    have h2 : LowKept r s2 := h1.of_same (State.unpinAll_same (m0 := 8) (.refl s1) rfl) rfl
    have h3 : LowKept r s3 := by
      unfold s3
      split
      · exact State.drainInputs_low h2 _ _ _
      · exact h2
    have h4 : LowKept r s4 := h3.of_same
      (State.clearWatch_same (m0 := 4096) (State.advanceFlow_same (.refl s3) rfl) rfl) rfl
    exact .ite h4 (h4.of_same (State.retire_same (m0 := 4096) (.refl s4) rfl) rfl)

omit h in
/-- The busy-clock counters lie in the blocks of the engines and the Block Movers. -/
theorem busyCounter_low (code t : Nat) : ∀ x ∈ busyCounter code t, 0x400 ≤ x.1 := by
  unfold busyCounter
  dsimp only
  split <;> simp [Reg.WRP_CNT, Reg.PYR_CNT, Reg.STR_CNT, Reg.FLW_CNT, Reg.FTR_CNT, Reg.BM_CNT] <;> omega

theorem State.countBusy_low (u : UnitSt) : LowKept r (s.countBusy u) := by
  unfold State.countBusy
  split
  · next a m n hx => exact (h.of_regs (t := s.setUnit _) rfl).setFld _ _ (busyCounter_low _ _ _ hx)
  · exact h

theorem State.leaveUnit_low (code e : Nat) : LowKept r (s.leaveUnit code e) := by
  unfold State.leaveUnit
  extract_lets u
  split
  · refine .ite h ?_
    extract_lets rest s1 s2
    have h2 : LowKept r s2 := .ite (h.of_regs rfl) (h.of_regs rfl)
    exact h2.of_regs rfl
  · exact .ite ((State.countBusy_low (h.of_regs (t := s.chargeBusy u) rfl) u).of_regs rfl) h

theorem State.cancelNow_low (e : Nat) : LowKept r (s.cancelNow e) := by
  unfold State.cancelNow
  split
  · exact h
  · next i _ =>
    refine .ite h ?_
    extract_lets s1 s2 s3 s4 s5
    have h1 : LowKept r s1 := h.setFld _ _ (by decide)
    have h2 : LowKept r s2 := by
      unfold s2
      split
      · exact State.leaveUnit_low h1 _ _
      · exact h1
    have h5 : LowKept r s5 := State.finish_low (State.voidRelease_low (h2.of_regs (t := s3) rfl) i) i
    split
    · exact .ite (h5.of_regs rfl) h5
    · exact h5.of_regs rfl
    · exact h5

theorem State.showAbort_low (n : Nat) : LowKept r (s.showAbort n) := by
  have ha : 0x400 ≤ Reg.SYS_PC_ABORT n := by unfold Reg.SYS_PC_ABORT; omega
  unfold State.showAbort
  refine .ite h ?_
  split
  · exact h
  · exact ((h.setFld _ _ ha).setFld _ _ ha).setFld _ _ ha

/-- A cancellation leaves the registers of scenes alone. -/
theorem State.cancel_low (e : Nat) : LowKept r (s.cancel e) := by
  unfold State.cancel
  split
  · exact h
  · next i _ =>
    refine .ite h (.ite ?_ (State.cancelNow_low h e))
    extract_lets s1
    have h1 : LowKept r s1 := h.of_regs rfl
    split
    · exact State.showAbort_low h1 _
    · exact h1

/-! ### Streams and image pipes -/

theorem State.showPipe_low (n : Nat) : LowKept r (s.showPipe n) := by
  have ha : 0x400 ≤ Reg.ISP_STATUS n := by unfold Reg.ISP_STATUS; omega
  unfold State.showPipe
  extract_lets p u st s1 bank
  have h1 : LowKept r s1 := h.setFld _ _ ha
  cases bank with
  | some b => exact h1.setFld _ _ ha
  | none => exact h1

theorem State.modCam_low (stream : Nat) (f : StreamSt → StreamSt) : LowKept r (s.modCam stream f) :=
  h.of_same (State.modCam_same (m0 := 1048576) (.refl s) rfl) rfl

theorem State.discardFrame_low (stream port : Nat) : LowKept r (s.discardFrame stream port) := by
  unfold State.discardFrame
  split
  · exact .ite ((State.modCam_low h _ _).setFld _ _ (by unfold Reg.CFE_PORT_CNT; omega)) h
  · exact h

theorem State.stopPipeWork_low (n stream : Nat) : LowKept r (s.stopPipeWork n stream) := by
  unfold State.stopPipeWork
  extract_lets p had q k s1 s2 s3 s4 s5
  have h1 : LowKept r s1 := h.of_regs rfl
  have h2 : LowKept r s2 := LowKept.foldl (fun u m hu => .ite (hu.setReg _ (by unfold Reg.ISP_BANK; omega)) hu) h1
  have h3 : LowKept r s3 := by
    unfold s3
    split
    · exact .ite (h2.setFld _ _ (by unfold bankOff Reg.ISP_UPD_STATUS; omega)) h2
    · exact h2
  have h4 : LowKept r s4 := .ite (h3.setFld _ _ (by unfold Reg.ISP_ERR; omega)) h3
  have h5 : LowKept r s5 := .ite (State.log_low h4 _ _ _ _ _ _ _ _) h4
  exact State.showPipe_low h5 n

theorem State.unbindStream_low (stream : Nat) : LowKept r (s.unbindStream stream) := by
  unfold State.unbindStream
  split
  · exact h
  · next p _ =>
    have h1 := fun f => State.modCam_low (State.discardFrame_low h stream p.port) stream f
    exact .ite (State.stopPipeWork_low (h1 _) _ _) (h1 _)

theorem State.promoteStreams_low (ss : List Nat) : LowKept r (s.promoteStreams ss) := by
  unfold State.promoteStreams
  refine .ite h (LowKept.setFld (LowKept.foldl (fun u x hu => ?_) h) _ _ (by decide))
  exact (State.modCam_low hu x _).setFld _ _ (by decide)

/-! ### Check-Value Units -/

theorem State.cvuEnd_low (n result : Nat) : LowKept r (s.cvuEnd n result) := by
  have ha : 0x400 ≤ Reg.CVU_STATUS n := by unfold Reg.CVU_STATUS; omega
  have he : 0x400 ≤ Reg.CVU_EVENT n := by unfold Reg.CVU_EVENT; omega
  unfold State.cvuEnd
  extract_lets a s1 s2
  have h1 : LowKept r s1 := (h.setFld _ _ ha).setFld _ _ ha
  have events : ∀ b, LowKept r (s1.event (Reg.CVU_EVENT n) b) := fun b => h1.setFld b 1 he
  have h2 : LowKept r s2 := by
    unfold s2
    split
    · exact events _
    · exact events _
    · exact events _
    · exact events _
    · exact h1
  exact h2.of_regs rfl

theorem State.cvuAbort_low (n : Nat) : LowKept r (s.cvuAbort n) := .ite h (State.cvuEnd_low h n 4)

/-! ### Outputs and the selector -/

theorem State.queueEth_low (mac : Nat) (t : EthTx) : LowKept r (s.queueEth mac t) := by
  unfold State.queueEth
  extract_lets q
  exact .ite ((h.setFld _ _ (by unfold Reg.ETH_CNT; omega)).setFld _ _ (by unfold Reg.ETH_ERR; omega)) (h.of_regs rfl)

theorem State.queueCan_low (can : Nat) (t : CanTx) : LowKept r (s.queueCan can t) := by
  unfold State.queueCan
  extract_lets q s1
  have h1 : LowKept r s1 := .ite (h.setFld _ _ (by unfold Reg.CAN_ERR; omega)) h
  exact h1.of_regs rfl

theorem State.handOver_low (o : OutRec) (p : Payload) : LowKept r (s.handOver o p) := by
  unfold State.handOver
  refine .ite h ?_
  refine LowKept.foldl (fun u c hu => .ite (State.queueCan_low hu _ _) hu) ?_
  exact LowKept.foldl (fun u m hu => .ite (State.queueEth_low hu _ _) hu) (h.of_regs rfl)

theorem State.announce_low (seq : Word) : LowKept r (s.announce seq) := by
  unfold State.announce
  split
  · exact h
  · exact (State.log_low h _ _ _ _ _ _ _ _).of_regs rfl

theorem State.restartCounts_low : LowKept r s.restartCounts :=
  ((h.setFld _ _ (by decide)).setFld _ _ (by decide)).of_regs rfl

theorem State.startCounts_low : LowKept r s.startCounts := (State.restartCounts_low h).of_regs rfl

/-! ### Power domains and the service mode -/

theorem State.gateUnit_low (code : Nat) : LowKept r (s.gateUnit code) :=
  LowKept.of_regs (LowKept.foldl (fun _ _ hu => hu.setFld _ _ (by unfold Reg.PMU_DOM_ON; omega)) h) rfl

theorem State.gateUnbound_low : LowKept r s.gateUnbound := by
  unfold State.gateUnbound
  refine LowKept.foldl (fun u c hu => ?_) h
  exact .ite hu (.ite (hu.of_same (State.requestPower_same (m0 := 8192) (.refl u) rfl) rfl)
    (.ite hu (State.gateUnit_low hu c)))

theorem State.setService_low (on : Bool) : LowKept r (s.setService on) :=
  LowKept.foldl (fun _ n hu => hu.setFld _ _ (by unfold Reg.ISP_STATUS; omega)) h

end

end Sys2Proof.Machine
end

section
/-! SUPPORT. The commands of a scene switch (R76, R79): what a switch that is accepted leaves of the scene shown before it, and what
each command comes to. -/

namespace Sys2Proof.Machine

open Sys2Proof

/-! ### The scene shown -/

/-- t shows the current scene, its dwell and the last switch as r does. -/
structure SceneKept (r t : State) : Prop where
  wf : regsWf t.regs = true
  scene : t.sceneNo = r.sceneNo
  dwell : t.flag Reg.SYS_SCENE_STATUS F.SYS_SCENE_STATUS.DWELL = r.flag Reg.SYS_SCENE_STATUS F.SYS_SCENE_STATUS.DWELL
  last : t.reg Reg.SYS_SCENE_LAST = r.reg Reg.SYS_SCENE_LAST
  due : t.scene.dwellDue = r.scene.dwellDue

namespace SceneKept

variable {r s t : State}

theorem refl (h : regsWf s.regs = true) : SceneKept s s := ⟨h, rfl, rfl, rfl, rfl⟩

/-- A step that touches neither the register file nor the end of the dwell. -/
theorem of_regs (h : SceneKept r s) (e : t.regs = s.regs) (d : t.scene.dwellDue = s.scene.dwellDue) : SceneKept r t :=
  ⟨e ▸ h.wf, (State.fld_congr e _ _).trans h.scene, (congrArg (· != 0) (State.fld_congr e _ _)).trans h.dwell,
    (State.reg_congr e _).trans h.last, d.trans h.due⟩

/-- A step that changes registers of other blocks alone, and no part of the scenes. -/
theorem of_low {w : Nat} (h : SceneKept r s) (low : LowKept s t) (keeps : Keeps s t) (same : Same w s t)
    (hw : w.testBit 11 = false) : SceneKept r t := by
  have status : t.reg Reg.SYS_SCENE_STATUS = s.reg Reg.SYS_SCENE_STATUS := low _ (by decide)
  have fld : ∀ b, t.fld Reg.SYS_SCENE_STATUS b = s.fld Reg.SYS_SCENE_STATUS b := fun b => congrArg b.get status
  exact ⟨keeps.regs h.wf, (fld _).trans h.scene, (congrArg (· != 0) (fld _)).trans h.dwell,
    (low _ (by decide)).trans h.last, (congrArg SceneSt.dwellDue (same.scene hw)).trans h.due⟩

/-- A register of another block is written. -/
theorem setFld (h : SceneKept r s) {a : Nat} (b : Bits) (v : Nat) (ha : 0x400 ≤ a) : SceneKept r (s.setFld a b v) :=
  h.of_low (LowKept.setFld (.refl s) b v ha) (State.setFld_keeps (.refl s)) (State.setFld_same (m0 := 1) (.refl s) rfl) rfl

/-- Another field of SYS_SCENE_STATUS is written. -/
theorem setStatus (h : SceneKept r s) {b : Bits} (v : Nat) (hs : b.apart F.SYS_SCENE_STATUS.SCENE = true)
    (hd : b.apart F.SYS_SCENE_STATUS.DWELL = true) : SceneKept r (s.setFld Reg.SYS_SCENE_STATUS b v) :=
  ⟨State.setFld_regsWf _ _ _ _ h.wf, (State.fld_setFld_field s _ b _ v h.wf (by decide) hs).trans h.scene,
    (congrArg (· != 0) (State.fld_setFld_field s _ b _ v h.wf (by decide) hd)).trans h.dwell,
    (State.reg_setFld_other s _ _ b v (by decide)).trans h.last, h.due⟩

theorem ite {c : Prop} [Decidable c] (hs : SceneKept r s) (ht : SceneKept r t) : SceneKept r (if c then s else t) := by
  split <;> assumption

theorem foldl {α : Type} {l : List α} {F : State → α → State} (hF : ∀ u x, SceneKept r u → SceneKept r (F u x))
    (h : SceneKept r s) : SceneKept r (l.foldl F s) := by
  induction l generalizing s with
  | nil => exact h
  | cons x l ih => exact ih (hF s x h)

end SceneKept

section

variable {r s : State} (h : SceneKept r s)

include h

theorem State.log_sceneKept (source code cls partition stream a0 a1 a2 : Nat) :
    SceneKept r (s.log source code cls partition stream a0 a1 a2) :=
  h.of_low (State.log_low (.refl s) _ _ _ _ _ _ _ _) (State.log_keeps (.refl s)) (State.log_same (m0 := 65537) (.refl s) rfl) rfl

/-! ### The selector at a hand-over -/

theorem State.switchSource_sceneKept (ember : Bool) (why : Nat) : SceneKept r (s.switchSource ember why) := by
  unfold State.switchSource
  extract_lets s1
  have h1 : SceneKept r s1 := .ite h (h.setStatus _ (by decide) (by decide))
  exact ((h1.setFld _ _ (by decide)).setFld _ _ (by decide)).of_regs rfl rfl

theorem State.handEmber_sceneKept (m : EmberMsg) : SceneKept r (s.handEmber m) := by
  unfold State.handEmber
  split
  · exact h
  · refine .ite h ?_
    extract_lets fl s1 s2 sel s3 s4
    have h1 : SceneKept r s1 := h.of_low (State.handOver_low (.refl s) _ _) (State.handOver_keeps (.refl s))
      (State.handOver_same (m0 := 4194305) (.refl s) rfl) rfl
    have h2 : SceneKept r s2 := h1.of_low (State.announce_low (.refl s1) _) (State.announce_keeps (.refl s1))
      (State.announce_same (m0 := 196609) (.refl s1) rfl) rfl
    have h3 : SceneKept r s3 := .ite h2 (h2.setFld _ _ (by decide))
    have h4 : SceneKept r s4 := h3.of_regs rfl rfl
    exact .ite (State.switchSource_sceneKept h4 _ _) h4

theorem State.selectEmber_sceneKept (why : Nat) : SceneKept r (s.selectEmber why) := by
  unfold State.selectEmber
  extract_lets s1 s2
  have h1 : SceneKept r s1 := .ite h (State.switchSource_sceneKept h _ _)
  have h2 : SceneKept r s2 := (h1.of_low (State.restartCounts_low (.refl s1)) (State.restartCounts_keeps (.refl s1))
    (State.restartCounts_same (m0 := 131073) (.refl s1) rfl) rfl).of_regs rfl rfl
  split
  · exact h2
  · exact .ite (State.handEmber_sceneKept h2 _) h2

theorem State.baseHandover_sceneKept : SceneKept r s.baseHandover :=
  State.selectEmber_sceneKept (h.setStatus _ (by decide) (by decide)) 3

/-! ### The acceptance of a switch -/

theorem State.phase_sceneKept (p : Nat) : SceneKept r (s.phase p) := h.setStatus _ (by decide) (by decide)

theorem State.makeOutgoing_sceneKept (ids : List Nat) : SceneKept r (s.makeOutgoing ids) := by
  unfold State.makeOutgoing
  extract_lets sc fg s1 gone s2 streams s3 fg3 s4 is s5
  have h1 : SceneKept r s1 := h.of_regs rfl rfl
  have h2 : SceneKept r s2 := SceneKept.foldl (fun u _ hu => hu.of_low (State.cvuAbort_low (.refl u) _)
    (State.cvuAbort_keeps (.refl u)) (State.cvuAbort_same (m0 := 16777217) (.refl u) rfl) rfl) h1
  have h3 : SceneKept r s3 := SceneKept.foldl (fun u _ hu => hu.of_low (State.unbindStream_low (.refl u) _)
    (State.unbindStream_keeps (.refl u)) (State.unbindStream_same (m0 := 3211265) (.refl u) rfl) rfl) h2
  have h4 : SceneKept r s4 := h3.of_regs rfl rfl
  have h5 : SceneKept r s5 := SceneKept.foldl (fun u _ hu => hu.of_low (State.cancel_low (.refl u) _)
    (State.cancel_keeps (.refl u)) (State.cancel_same (m0 := 8704009) (.refl u) rfl) rfl) h4
  exact .ite h5 (State.phase_sceneKept h5 2)

theorem State.promoteStreams_sceneKept (ss : List Nat) : SceneKept r (s.promoteStreams ss) :=
  h.of_low (State.promoteStreams_low (.refl s) ss) (State.promoteStreams_keeps (.refl s))
    (State.promoteStreams_same (m0 := 1048577) (.refl s) rfl) rfl

theorem State.requestPower_sceneKept (code : Nat) : SceneKept r (s.requestPower code) :=
  have same := State.requestPower_same (m0 := 8192) (code := code) (.refl s) rfl
  h.of_regs (same.regs rfl) (congrArg SceneSt.dwellDue (same.scene rfl))

theorem State.syncCoverage_sceneKept (start : Nat) : SceneKept r (s.syncCoverage start) :=
  have same := State.syncCoverage_same (m0 := 163840) (start := start) (.refl s) rfl
  h.of_regs (same.regs rfl) (congrArg SceneSt.dwellDue (same.scene rfl))

/-- The switch that is accepted leaves the scene before it shown. -/
theorem State.accept_sceneKept (target cause : Nat) (strip : Option (List Nat)) (promote : List Nat) :
    SceneKept r (s.accept target cause strip promote) := by
  unfold State.accept
  extract_lets from' boundIds newIds out inc base s1 sw sc s2 s3 s4 s5 s6
  have h1 : SceneKept r s1 := State.log_sceneKept h _ _ _ _ _ _ _ _
  have h2 : SceneKept r s2 := h1.of_regs rfl rfl
  have h3 : SceneKept r s3 := State.phase_sceneKept (h2.setStatus _ (by decide) (by decide)) 1
  have h4 : SceneKept r s4 := .ite (State.baseHandover_sceneKept h3) h3
  have h5 : SceneKept r s5 := State.promoteStreams_sceneKept (State.makeOutgoing_sceneKept h4 _) _
  have h6 : SceneKept r s6 :=
    SceneKept.foldl (fun _ _ hu => SceneKept.foldl (fun _ _ hv => State.requestPower_sceneKept hv _) hu) h5
  exact State.syncCoverage_sceneKept h6 _

theorem State.actOn_sceneKept (l : List TrigRec) : SceneKept r (s.actOn l) := by
  unfold State.actOn
  split
  · exact State.accept_sceneKept h _ _ _ _
  · exact h

/-! ### Fences judged again at OPEN (R87) -/

theorem State.severe_sceneKept (cause unit : Nat) : SceneKept r (s.severe cause unit) :=
  h.of_low (State.severe_low (.refl s) _ _) (State.severe_keeps (.refl s)) (State.severe_same (m0 := 196609) (.refl s) rfl) rfl

theorem State.selectScene_sceneKept (code : Nat) : SceneKept r (s.selectScene code) := by
  unfold State.selectScene
  refine .ite h ?_
  split
  · exact State.accept_sceneKept h _ _ _ _
  · split
    · exact State.accept_sceneKept h _ _ _ _
    · split
      · exact h
      · exact .ite (State.severe_sceneKept h _ _) (State.accept_sceneKept h _ _ _ _)

theorem State.takeover_sceneKept (partner : Nat) : SceneKept r (s.takeover partner) := by
  unfold State.takeover
  refine .ite h ?_
  split
  · exact h.of_regs rfl rfl
  · split
    · exact .ite (State.promoteStreams_sceneKept h _) (State.accept_sceneKept h _ _ _ _)
    · exact State.selectScene_sceneKept h _

theorem State.recheckOne_sceneKept (code : Nat) : SceneKept r (s.recheckOne code) := by
  unfold State.recheckOne
  refine .ite (h.of_regs rfl rfl) (.ite (State.takeover_sceneKept h _) (State.selectScene_sceneKept ?_ _))
  exact h.of_regs rfl rfl

end

end Sys2Proof.Machine
end

section
/-! SUPPORT. What each command of a scene switch comes to (R76, R79). -/

namespace Sys2Proof.Machine

open Sys2Proof

/-! ### The drain limit -/

/-- The state at the drain limit with the instances of the layers not yet gone cancelled. -/
def State.drainKilled (s : State) (sw : Switch) : State :=
  ((sw.outgoing.filter (fun i => !sw.cindered.contains i)).flatMap (s.reach sw.drainDue).layerInsts).foldl State.killOne
    (s.reach sw.drainDue)

theorem State.drainKilled_same (s : State) (sw : Switch) : Same 8769545 (s.reach sw.drainDue) (s.drainKilled sw) :=
  Same.foldl (fun _ _ hu => State.killOne_same hu rfl) (.refl _)

theorem execSwitchDrainKill_of_due {s : State} {sw : Switch} (hs : s.scene.switch = some sw) (hd : sw.drainDue ≠ 0) :
    execSwitchDrainKill s = .next ((s.drainKilled sw).modSwitch (fun w => { w with drainDue := 0 })) := by
  unfold execSwitchDrainKill
  rw [hs]
  exact if_neg (by simpa using hd)

/-! ### CINDER -/

theorem execSwitchCinder_of_gone {s : State} {layer : Half} {sw : Switch} {l : BoundLayer} (hs : s.scene.switch = some sw)
    (hl : s.scene.layers.find? (fun x => x.rc.id == layer.toNat && x.outgoing) = some l) (ho : layer.toNat ∈ sw.outgoing)
    (hc : layer.toNat ∉ sw.cindered)
    (hi : (s.layerInsts layer.toNat).all (fun i => i.st == .cancelled && !i.stopping) = true) :
    execSwitchCinder layer s = .next (s.cinderLayer sw l.rc) := by
  unfold execSwitchCinder
  dsimp only
  rw [hs, hl]
  exact if_pos (by simp [hi, ho, hc])

theorem State.mem_addCinder {s : State} {c : Cinder} (base size : Nat) (forLayer : Option Nat) (h : c ∈ s.mm.cinder) :
    c ∈ (s.addCinder base size forLayer).mm.cinder := by
  unfold State.addCinder
  split
  · exact h
  · exact List.mem_append_left _ h

/-- A region of some bytes that is put into the cinder state is recorded there. -/
theorem State.addCinder_records (s : State) (base : Nat) {size : Nat} (forLayer : Option Nat) (h : 0 < size) :
    ∃ c ∈ (s.addCinder base size forLayer).mm.cinder, c.base = base ∧ c.size = size := by
  unfold State.addCinder
  split
  case isTrue hc =>
    have there : s.mm.cinder.any (fun c => c.base == base && c.size == size) = true := by
      simpa [Nat.ne_of_gt h] using hc
    simpa using there
  case isFalse => exact ⟨_, List.mem_append_right _ (List.mem_singleton_self _), rfl, rfl⟩

theorem State.foldl_addCinder_records {s : State} {l : List (Nat × Nat)} (f : Nat × Nat → Option Nat) {x : Nat × Nat} (hx : x ∈ l)
    (h : x.1 < x.2) : ∃ c ∈ (l.foldl (fun u y => u.addCinder y.1 (y.2 - y.1) (f y)) s).mm.cinder,
      c.base = x.1 ∧ c.size = x.2 - x.1 := by
  have keeps : ∀ (l : List (Nat × Nat)) (u : State), ∀ c ∈ u.mm.cinder,
      c ∈ (l.foldl (fun u y => u.addCinder y.1 (y.2 - y.1) (f y)) u).mm.cinder := by
    intro l
    induction l with
    | nil => exact fun _ _ hc => hc
    | cons y l ih => exact fun u c hc => ih _ c (State.mem_addCinder _ _ _ hc)
  induction l generalizing s with
  | nil => cases hx
  | cons y l ih =>
    cases hx with
    | head =>
      obtain ⟨c, hc, hr⟩ := s.addCinder_records x.1 (f x) (Nat.sub_pos_of_lt h)
      exact ⟨c, keeps l _ c hc, hr⟩
    | tail _ hx => exact ih hx

/-- What CINDER of a layer leaves of the switch, of the layers and nodes, and what it records. -/
theorem State.cinderLayer_facts {s : State} {sw : Switch} (l : LayerRec) (hs : s.scene.switch = some sw) :
    (s.cinderLayer sw l).scene.switch = some { sw with cindered := sw.cindered ++ [l.id] } ∧
      (s.cinderLayer sw l).scene.layers = s.scene.layers.filter (fun x => !(x.rc.id == l.id && x.outgoing)) ∧
      (s.cinderLayer sw l).fgs.nodes = s.fgs.nodes.filter (fun n => n.layer != l.id) ∧
      ∀ x ∈ layerRegions l, s.skipsFill sw l x = false → x.1 < x.2 →
        ∃ c ∈ (s.cinderLayer sw l).mm.cinder, c.base = x.1 ∧ c.size = x.2 - x.1 := by
  unfold State.cinderLayer
  extract_lets regs taker s1 s2
  have cvus : Same 16777217 (s.removeLayer l.id) s1 := State.syncCvus_same (.refl _) rfl
  have cinder : Same 16785409 (s.removeLayer l.id) s2 :=
    Same.foldl (fun _ _ hu => State.addCinder_same hu rfl) (State.syncCvus_same (.refl _) rfl)
  have phase := State.phase_same (m0 := 1) (p := 3)
    (.refl (s2.modSwitch (fun w => { w with cindered := w.cindered ++ [l.id] }))) rfl
  rw [phase.scene rfl, phase.fgs rfl, phase.mm rfl]
  refine ⟨?_, ?_, ?_, fun x hx hf hlt => ?_⟩
  · show s2.scene.switch.map _ = _
    rw [cinder.scene rfl]
    show s.scene.switch.map _ = _
    rw [hs]
    rfl
  · show s2.scene.layers = _
    rw [cinder.scene rfl]
    rfl
  · show s2.fgs.nodes = _
    rw [cinder.fgs rfl]
    rfl
  · exact State.foldl_addCinder_records taker (List.mem_filter.mpr ⟨hx, by rw [hf]; rfl⟩) hlt

/-! ### BIND -/

theorem execSwitchBind_of_free {s : State} {layer : Half} {sw : Switch} {l : LayerRec} (hs : s.scene.switch = some sw)
    (hl : s.layerRec? layer.toNat = some l) (hb : s.mayBind sw l = true) : execSwitchBind layer s = .next
      (((s.bindLayer l (((s.sceneRec? sw.target).map (·.periodNs)).getD 0)).modSwitch
        (fun w => { w with bound := w.bound ++ [l.id] })).phase 4) := by
  unfold execSwitchBind
  rw [hs, hl]
  exact if_pos hb

/-- A layer is bound at the end of the layers, not outgoing and not yet open, with its nodes and flows. -/
theorem State.bindLayer_facts (s : State) (l : LayerRec) (periodNs : Nat) :
    (s.bindLayer l periodNs).scene.switch = s.scene.switch ∧
      (∃ streams, (s.bindLayer l periodNs).scene.layers = s.scene.layers ++ [⟨l, false, false, periodNs, streams⟩]) ∧
      (s.bindLayer l periodNs).fgs.nodes = s.fgs.nodes ++ l.nodes.map (s.bindNode l) ∧
      (s.bindLayer l periodNs).fgs.flows = s.fgs.flows ++ l.flows.map (fun f => ⟨f, l.id, 0, 0, none⟩) := by
  unfold State.bindLayer
  extract_lets es streams rings nodes sf fg sc s1 s2 ws s3 s4
  have same : Same 19922953 s1 (streams.foldl State.loadBank s4).noteHwm.syncCvus := by
    refine State.syncCvus_same (State.noteHwm_same (Same.foldl (fun _ _ hu => State.loadBank_same hu rfl) ?_) rfl) rfl
    refine Same.foldl (fun _ _ hu => State.ringCredit_same hu rfl) ?_
    refine Same.foldl (fun _ _ hu => State.loadWindows_same hu rfl) ?_
    exact Same.foldl (fun _ _ hu => Same.foldl (fun _ _ hv => State.setFlagWord_same hv rfl) hu) (.refl s1)
  rw [same.scene rfl, same.fgs rfl]
  exact ⟨rfl, ⟨_, rfl⟩, rfl, rfl⟩

/-! ### OPEN -/

theorem execSwitchOpen_of_complete {s : State} {sw : Switch} (hs : s.scene.switch = some sw) (hc : sw.complete = true) :
    execSwitchOpen s = .next (s.openSwitch sw) := by
  unfold execSwitchOpen
  rw [hs]
  exact if_pos hc

/-- SYS_SCENE_STATUS as OPEN shows the target. -/
def State.showOpened (s : State) (sw : Switch) (banked : Bool) : State :=
  let a := Reg.SYS_SCENE_STATUS
  let s := (((s.setFld a F.SYS_SCENE_STATUS.SCENE sw.target).setFld a F.SYS_SCENE_STATUS.TARGET sw.target).setFld a
    F.SYS_SCENE_STATUS.PHASE 0).addFld a F.SYS_SCENE_STATUS.SWITCH_COUNT 1
  ((s.setFlag a F.SYS_SCENE_STATUS.BANKED banked).setFlag a F.SYS_SCENE_STATUS.STRIPPED sw.stripping).setFlag
    a F.SYS_SCENE_STATUS.DWELL true

theorem State.showOpened_facts {s : State} {sw : Switch} (banked : Bool) (h : regsWf s.regs = true) (ht : sw.target < 16) :
    regsWf (s.showOpened sw banked).regs = true ∧ (s.showOpened sw banked).sceneNo = sw.target ∧
      (s.showOpened sw banked).flag Reg.SYS_SCENE_STATUS F.SYS_SCENE_STATUS.DWELL = true := by
  unfold State.showOpened
  extract_lets a s1
  have first : SceneKept (s.setFld a F.SYS_SCENE_STATUS.SCENE sw.target) (s.setFld a F.SYS_SCENE_STATUS.SCENE sw.target) :=
    .refl (State.setFld_regsWf _ _ _ _ h)
  have kept1 : SceneKept (s.setFld a F.SYS_SCENE_STATUS.SCENE sw.target) s1 :=
    ((first.setStatus _ (by decide) (by decide)).setStatus _ (by decide) (by decide)).setStatus _ (by decide) (by decide)
  have kept := (kept1.setStatus (b := F.SYS_SCENE_STATUS.BANKED) (if banked then 1 else 0) (by decide) (by decide)).setStatus
    (b := F.SYS_SCENE_STATUS.STRIPPED) (if sw.stripping then 1 else 0) (by decide) (by decide)
  have scene : (s.setFld a F.SYS_SCENE_STATUS.SCENE sw.target).sceneNo = sw.target :=
    (State.fld_setFld_same s a _ _ h (by decide)).trans (Nat.mod_eq_of_lt ht)
  exact ⟨State.setFld_regsWf _ _ _ _ kept.wf,
    (State.fld_setFld_field _ a _ _ _ kept.wf (by decide) (by decide)).trans (kept.scene.trans scene),
    State.flag_setFlag_same _ a 10 true kept.wf (by decide)⟩

/-- SYS_SCENE_LAST as OPEN shows a switch that took some microseconds. -/
def State.showLast (s : State) (sw : Switch) (us : Nat) : State :=
  let b := Reg.SYS_SCENE_LAST
  ((s.setFld b F.SYS_SCENE_LAST.FROM sw.fromScene).setFld b F.SYS_SCENE_LAST.CAUSE sw.cause).setFld b
    F.SYS_SCENE_LAST.DURATION_US (min us 0xFFFF)

theorem State.reg_showLast (s : State) (sw : Switch) (us : Nat) {a : Nat} (h : Reg.SYS_SCENE_LAST ≠ a) :
    (s.showLast sw us).reg a = s.reg a :=
  ((State.reg_setFld_other _ _ _ _ _ h).trans (State.reg_setFld_other _ _ _ _ _ h)).trans (State.reg_setFld_other _ _ _ _ _ h)

theorem State.showLast_facts {s : State} (sw : Switch) (us : Nat) (h : regsWf s.regs = true) :
    regsWf (s.showLast sw us).regs = true ∧
      (s.showLast sw us).fld Reg.SYS_SCENE_LAST F.SYS_SCENE_LAST.FROM = sw.fromScene % 256 ∧
      (s.showLast sw us).fld Reg.SYS_SCENE_LAST F.SYS_SCENE_LAST.CAUSE = sw.cause % 256 := by
  have h1 := State.setFld_regsWf s Reg.SYS_SCENE_LAST F.SYS_SCENE_LAST.FROM sw.fromScene h
  have h2 := State.setFld_regsWf _ Reg.SYS_SCENE_LAST F.SYS_SCENE_LAST.CAUSE sw.cause h1
  unfold State.showLast
  dsimp only
  refine ⟨State.setFld_regsWf _ _ _ _ h2, ?_, ?_⟩
  · rw [State.fld_setFld_field _ _ _ _ _ h2 (by decide) (by decide), State.fld_setFld_field _ _ _ _ _ h1 (by decide) (by decide),
      State.fld_setFld_same _ _ _ _ h (by decide)]
    rfl
  · rw [State.fld_setFld_field _ _ _ _ _ h2 (by decide) (by decide), State.fld_setFld_same _ _ _ _ h1 (by decide)]
    rfl

/-- OPEN shows the target, the dwell and the switch; what follows of it leaves them shown. -/
theorem State.openSwitch_facts {s : State} {sw : Switch} (h : regsWf s.regs = true) (ht : sw.target < 16) :
    (s.openSwitch sw).sceneNo = sw.target ∧
      (s.openSwitch sw).flag Reg.SYS_SCENE_STATUS F.SYS_SCENE_STATUS.DWELL = true ∧
      (s.openSwitch sw).scene.dwellDue = some (s.now + 250000000) ∧
      (s.openSwitch sw).fld Reg.SYS_SCENE_LAST F.SYS_SCENE_LAST.FROM = sw.fromScene % 256 ∧
      (s.openSwitch sw).fld Reg.SYS_SCENE_LAST F.SYS_SCENE_LAST.CAUSE = sw.cause % 256 := by
  unfold State.openSwitch
  extract_lets sc s1 sc2 s2 ns us a s3 s4 b s5 s6 s7 s8 s9 s10 again sc11 s11
  clear_value sc
  have keeps1 : Keeps s s1 := Keeps.foldl (fun _ _ hu => State.openLayer_keeps hu) (State.phase_keeps (.refl s))
  have same1 : Same 1054721 s s1 := Same.foldl (fun _ _ hu => State.openLayer_same hu rfl) (State.phase_same (.refl s) rfl)
  obtain ⟨wf4, scene4, dwell4⟩ :=
    State.showOpened_facts (s := s2) (sw := sw) ((sc.bind (·.bankedOf)).isSome) (keeps1.regs h) ht
  obtain ⟨wf5, from5, cause5⟩ := State.showLast_facts (s := s4) sw us wf4
  have status5 : s5.reg Reg.SYS_SCENE_STATUS = s4.reg Reg.SYS_SCENE_STATUS := s4.reg_showLast sw us (by decide)
  have k5 : SceneKept s5 s5 := .refl wf5
  have k6 : SceneKept s5 s6 := State.log_sceneKept k5 _ _ _ _ _ _ _ _
  have k7 : SceneKept s5 s7 := by
    unfold s7
    split
    · exact .ite (State.log_sceneKept k6 _ _ _ _ _ _ _ _) k6
    · exact k6
  have k8 : SceneKept s5 s8 := .ite (k7.of_low (State.startCounts_low (.refl s7)) (State.startCounts_keeps (.refl s7))
    (State.startCounts_same (m0 := 131073) (.refl s7) rfl) rfl) k7
  have k9 : SceneKept s5 s9 := k8.of_low (State.setService_low (.refl s8) _) (State.setService_keeps (.refl s8))
    (State.setService_same (m0 := 1) (.refl s8) rfl) rfl
  have k10 : SceneKept s5 s10 := State.syncCoverage_sceneKept (k9.of_low (State.gateUnbound_low (.refl s9))
    (State.gateUnbound_keeps (.refl s9)) (State.gateUnbound_same (m0 := 40961) (.refl s9) rfl) rfl) _
  clear_value s10
  have k11 : SceneKept s5 s11 := SceneKept.foldl (fun _ _ hu => State.recheckOne_sceneKept hu _) (k10.of_regs rfl rfl)
  have k : SceneKept s5 (if s11.scene.switch.isSome then s11 else s11.actOn (s11.firing [4] none)) :=
    .ite k11 (State.actOn_sceneKept k11 _)
  refine ⟨k.scene.trans ?_, k.dwell.trans ?_, k.due.trans ?_, ?_, ?_⟩
  · exact (congrArg F.SYS_SCENE_STATUS.SCENE.get status5).trans scene4
  · exact (congrArg (fun v => F.SYS_SCENE_STATUS.DWELL.get v != 0) status5).trans dwell4
  · show some (s1.now + 250000000) = _
    rw [same1.now rfl]
  · exact (congrArg F.SYS_SCENE_LAST.FROM.get k.last).trans from5
  · exact (congrArg F.SYS_SCENE_LAST.CAUSE.get k.last).trans cause5

/-! ### The end of the dwell -/

/-- The state in which the dwell has ended. -/
def State.dwellEnded (s : State) (d : Nat) : State :=
  ({ s.reach d with scene := { s.scene with dwellDue := none } } : State).setFlag Reg.SYS_SCENE_STATUS
    F.SYS_SCENE_STATUS.DWELL false

/-- The triggers that are evaluated again at the end of the dwell have started their switch, where one fires. -/
def State.dwellExpired (s : State) (d : Nat) : State :=
  if (s.dwellEnded d).running && (s.dwellEnded d).scene.switch.isNone then
    (s.dwellEnded d).actOn ((s.dwellEnded d).firing [1, 2, 3] none)
  else s.dwellEnded d

theorem execDwellExpiry_of_due {s : State} {d : Nat} (h : s.scene.dwellDue = some d) :
    execDwellExpiry s = .next (s.dwellExpired d) := by
  unfold execDwellExpiry State.dwellExpired
  rw [h]
  exact (apply_ite Host.Outcome.next _ _ _).symm

theorem State.dwellExpired_same (s : State) (d : Nat) : Same 33028105 (s.dwellEnded d) (s.dwellExpired d) :=
  .ite (State.actOn_same (.refl _) rfl) (.refl _)

theorem State.dwellEnded_facts {s : State} (d : Nat) (h : regsWf s.regs = true) :
    regsWf (s.dwellEnded d).regs = true ∧ (s.dwellEnded d).sceneNo = s.sceneNo ∧
      (s.dwellEnded d).flag Reg.SYS_SCENE_STATUS F.SYS_SCENE_STATUS.DWELL = false :=
  ⟨State.setFld_regsWf _ _ _ _ h, State.fld_setFld_field _ _ _ _ _ h (by decide) (by decide),
    State.flag_setFlag_same _ _ 10 false h (by decide)⟩

/-- Settles O10: each clause from what its command comes to; what a further switch accepted at OPEN or at the end of the dwell
leaves shown is `SceneKept`. -/
theorem sceneSwitch : Obligations.SceneSwitch := by
  unfold Obligations.SceneSwitch
  refine ⟨?_, ?_, ?_, ?_, ?_⟩
  case refine_1 =>
    intro s sw hs hd
    have same := s.drainKilled_same sw
    show completes (execSwitchDrainKill s) _
    rw [execSwitchDrainKill_of_due hs hd]
    refine completes_next ⟨same.now rfl, ?_, same.mem rfl, rfl⟩
    show (s.drainKilled sw).scene.switch.map _ = _
    rw [same.scene rfl]
    show s.scene.switch.map _ = _
    rw [hs]
    rfl
  case refine_2 =>
    intro s layer sw l hs hl ho hc hi
    have id : l.rc.id = layer.toNat := by
      have := List.find?_some hl
      simp only [Bool.and_eq_true, beq_iff_eq] at this
      exact this.1
    obtain ⟨switch, layers, nodes, records⟩ := State.cinderLayer_facts l.rc hs
    have same : Same 16922625 s (s.cinderLayer sw l.rc) := State.cinderLayer_same (.refl s) rfl
    show completes (execSwitchCinder layer s) _
    rw [execSwitchCinder_of_gone hs hl ho hc hi]
    rw [id] at switch layers nodes
    refine completes_next ⟨switch, fun x hx hout hid => ?_, fun n hn => ?_, records, same.mem rfl, same.flags rfl⟩
    · rw [layers, List.mem_filter] at hx
      simp [hout, hid] at hx
    · rw [nodes, List.mem_filter] at hn
      simpa using hn.2
  case refine_3 =>
    intro s layer sw l hs hl hb
    have same := (execSwitchBind_same (m0 := 20060169) (layer := layer) (.refl s) rfl).of _ (execSwitchBind_of_free hs hl hb)
    show completes (execSwitchBind layer s) _
    rw [execSwitchBind_of_free hs hl hb]
    generalize ((s.sceneRec? sw.target).map (·.periodNs)).getD 0 = period at same ⊢
    obtain ⟨switch, ⟨streams, layers⟩, nodes, flows⟩ := s.bindLayer_facts l period
    have phase := State.phase_same (m0 := 1) (p := 4)
      (.refl ((s.bindLayer l period).modSwitch (fun w => { w with bound := w.bound ++ [l.id] }))) rfl
    refine completes_next ⟨?_, ?_, ?_, ?_, same.mem rfl⟩
    · rw [phase.scene rfl]
      show (s.bindLayer l period).scene.switch.map _ = _
      rw [switch, hs]
      rfl
    · rw [phase.scene rfl]
      show (s.bindLayer l period).scene.layers.any _ = true
      rw [layers]
      simp
    · exact (congrArg Fgs.nodes (phase.fgs rfl)).trans nodes
    · exact (congrArg Fgs.flows (phase.fgs rfl)).trans flows
  case refine_4 =>
    intro s sw hcan hs hc ht
    obtain ⟨scene, dwell, due, from', cause⟩ := State.openSwitch_facts (State.canonical_regs hcan) ht
    have same : Same 33028105 s (s.openSwitch sw) := State.openSwitch_same (.refl s) rfl
    show completes (execSwitchOpen s) _
    rw [execSwitchOpen_of_complete hs hc]
    exact completes_next ⟨scene, dwell, due, from', cause, same.mem rfl⟩
  case refine_5 =>
    intro s d hcan hd
    obtain ⟨wf, scene, dwell⟩ := State.dwellEnded_facts d (State.canonical_regs hcan)
    have same := (execDwellExpiry_same (m0 := 33028121) (.refl s) rfl).of _ (execDwellExpiry_of_due hd)
    have kept : SceneKept (s.dwellEnded d) (s.dwellExpired d) := .ite (State.actOn_sceneKept (.refl wf) _) (.refl wf)
    show completes (execDwellExpiry s) _
    rw [execDwellExpiry_of_due hd]
    exact completes_next ⟨(s.dwellExpired_same d).now rfl, kept.due, kept.dwell.trans dwell, kept.scene.trans scene,
      same.mem rfl⟩

end Sys2Proof.Machine
end

section
/-! SUPPORT. Held accesses at their wait limit (R109, R309, R436): a state in which the clocks that one unit has been busy are
counted in the ended-step counter of another. -/

namespace Sys2Proof.Machine

open Sys2Proof

/-- The device has four warp engines, whose blocks lie one after another (spec/07): the block of a ninth would be that of stereo
engine 0, and its busy clocks would go to the counter that stereo engine 0 keeps of ended steps. -/
theorem endedCnt_stereo_zero : endedCnt 0x0500 = Reg.WRP_CNT 8 5 := rfl

/-! ### A matching-store entry that two units hold -/

namespace StrayHolder

/-- A node of stereo engines without rings that runs one step, with the wait limit of 500 µs. -/
def node : NodeSt where
  rc := { slot := 7, cls := 5, prio := 0, inRings := [], outRings := [], flow := none, deadlineUs := 0, waitUs := 0, stepList := 0,
          wcetNs := 0, tiles := 1, rateDiv := 1, tileW := 16, tileH := 16, shedClass := 0, periodic := false, noAffinity := true,
          credits := 0, inSpan := [] }
  layer := 0
  domain := 2
  stepAddr := addrFs
  steps := 1
  preferred := none
  retired := none
  baseSeq := none
  refStream := none
  refPeriodic := none
  finished := []
  startBase := none
  startNext := 0
  starts := []
  watchFrom := none
  peer := none

/-- Its entry in the matching store, which runs; the unit it names is warp engine 8. -/
def inst : Inst where
  entry := 0
  gen := 0
  node := 7
  seq := 0
  tile := 0
  stream := 0
  ops := []
  need := 0
  st := .running
  created := 0
  ts := 0
  flowPos := none
  order := 0
  unit := some 0x0308
  reruns := 0
  step := 0
  restart := false
  late := false
  inputFlagged := false
  footprint := false
  absent := []
  pins := []
  holdDue := none
  holdOver := false
  refused := none
  stalledFrom := none
  stopping := false
  voidsLeft := []
  tinder := none

/-- A read of the Frame Store, held since the start of the Timeline. -/
def hold : HoldSt := ⟨0, false, addrFs, true⟩

/-- A unit that has held the entry 0 since the start of the Timeline. -/
def holder (code : Nat) (hold : Option HoldSt) : UnitSt := ⟨code, false, false, some 0, 0, 0, [], none, 0, hold, []⟩

/-- Stereo engine 0 runs the step and holds the read, and warp engine 8 holds the same entry. -/
def state : State :=
  { State.reset with
    fgs := { State.reset.fgs with nodes := [node], insts := [inst] }
    units := [holder 0x0500 (some hold), holder 0x0308 none] }

theorem state_canonical : state.canonical = true := by decide

theorem state_hold : (state.unit 0x0500).hold = some hold := rfl

theorem state_ctx : state.ctx? 0x0500 = some (state.instCtx 0x0500 inst node) := rfl

/-- The state once the wait limit has passed. -/
def ended : State := (state.reach 500000).stepFault (state.instCtx 0x0500 inst node) .slotTimeout addrFs false

theorem exec_heldAccessLimit : exec (.heldAccessLimit 0x0500) state = .next ended := rfl

/-- The one step that ended, and the 500,000 clocks of warp engine 8 in units of 1,024. -/
theorem ended_counter : (ended.reg (Reg.WRP_CNT 8 5)).toNat = 1 + 500000 / 1024 := by decide

theorem not_counted_ended : ¬ counted state ended (endedCnt 0x0500) 1 := by
  unfold counted
  rw [endedCnt_stereo_zero, ended_counter]
  decide

end StrayHolder

/-- Refutes O29: no hypothesis ties the unit that the step's entry names to the unit that ends the step. Where the entry names warp
engine 8, whose busy counter is the ended-step counter of stereo engine 0 (`endedCnt_stereo_zero`), a held read of stereo engine 0
that reaches its wait limit adds 489 to that counter and not 1. -/
theorem not_heldAccessesAndStops : ¬ Obligations.HeldAccessesAndStops := by
  unfold Obligations.HeldAccessesAndStops
  intro ⟨_, limit, _, _⟩
  obtain ⟨t, ht, _, counts, _⟩ := limit StrayHolder.state 0x0500 StrayHolder.hold _ StrayHolder.state_canonical
    StrayHolder.state_hold StrayHolder.state_ctx (by decide) (by decide) (by decide)
  obtain rfl : StrayHolder.ended = t := Host.Outcome.next.inj (StrayHolder.exec_heldAccessLimit.symm.trans ht)
  exact StrayHolder.not_counted_ended counts

end Sys2Proof.Machine
end

section
/-! SUPPORT. Accesses that are served (R13, R308, R502, R503): judging one leaves the state as it was, but for the weight cache,
which a read passes. Each lemma takes the judgement as an equation of pairs, so that no proof unfolds it again. -/

namespace Sys2Proof.Machine

open Sys2Proof

/-! ### Judging -/

/-- A transaction that is served leaves nothing behind: every latch, count and event is of a refusal. -/
theorem State.judge_served {s u : State} {c : Issuer} {a len : Nat} {write : Bool} (h : s.judge c a len write = (u, none)) :
    u = s := by
  unfold State.judge at h
  dsimp only at h
  -- no target, firewall, bounds of a scratchpad and of LPDDR5X, fenced bank group, cinder, write credit
  iterate 7
    split at h
    · nomatch h
  split at h
  · exact (Prod.mk.inj h).1.symm
  · nomatch h

theorem State.judgeRuns_served {s u : State} {c : Issuer} {write : Bool} {l : List (Nat × Nat)}
    (h : s.judgeRuns c write l = (u, none)) : u = s := by
  induction l with
  | nil => exact (Prod.mk.inj h).1.symm
  | cons x l ih =>
    rcases hj : s.judge c x.1 x.2 write with ⟨v, _ | e⟩
    · obtain rfl := State.judge_served hj
      simp only [State.judgeRuns, hj] at h
      exact ih h
    · simp [State.judgeRuns, hj] at h

/-- A request whose response has come is not sent again. -/
theorem State.remoteOne_ended {s : State} {c : Issuer} {k a len : Nat} {write : Bool} {data : List Byte}
    (h : (s.remoteOne c k a len write data).2 ≠ 0) : (s.remoteOne c k a len write data).1 = s := by
  unfold State.remoteOne at h ⊢
  split
  · rfl
  · next hx =>
    rw [hx] at h
    exact absurd rfl h

/-- Requests none of which is pending are not sent again. -/
theorem State.remoteAll_ended {α : Type} {l : List α} {F : State → α → State × Nat} {p : State × Nat × Bool}
    (hF : ∀ u x, (F u x).2 ≠ 0 → (F u x).1 = u)
    (h : (l.foldl (fun p x => ((F p.1 x).1, max p.2.1 (F p.1 x).2, p.2.2 || (F p.1 x).2 == 0)) p).2.2 = false) :
    p.2.2 = false ∧ (l.foldl (fun p x => ((F p.1 x).1, max p.2.1 (F p.1 x).2, p.2.2 || (F p.1 x).2 == 0)) p).1 = p.1 := by
  induction l generalizing p with
  | nil => exact ⟨h, rfl⟩
  | cons x l ih =>
    obtain ⟨h1, h2⟩ := ih h
    obtain ⟨h3, h4⟩ : p.2.2 = false ∧ (F p.1 x).2 ≠ 0 := by simpa using h1
    exact ⟨h3, h2.trans (hF p.1 x h4)⟩

theorem State.remoteRun_served {s u : State} {c : Issuer} {a len : Nat} {write : Bool} {data : List Byte}
    (h : s.remoteRun c a len write data = (u, none)) : u = s := by
  unfold State.remoteRun at h
  dsimp only at h
  split at h
  · nomatch h
  split at h
  · nomatch h
  next k _ =>
    iterate 2
      split at h
      · nomatch h
    have ended := State.remoteAll_ended (l := packetRuns (len / 256 + 1) (a - 2 ^ 44) len) (p := (s, 0, false))
      (F := fun u x => u.remoteOne c k x.1 x.2 write ((data.drop (x.1 - (a - 2 ^ 44))).take x.2))
      (fun u x => State.remoteOne_ended)
    generalize List.foldl _ (s, 0, false) _ = p at h ended
    obtain ⟨rfl, h⟩ := Prod.mk.inj h
    split at h
    · nomatch h
    · next hp => exact (ended (Bool.eq_false_iff.mpr hp)).2

theorem State.judgeRun_served {s u : State} {c : Issuer} {a len : Nat} {write : Bool}
    (h : s.judgeRun c a len write = (u, none)) : u = s := by
  unfold State.judgeRun at h
  split at h
  · rcases hr : s.remoteRun c a len write [] with ⟨v, _ | e⟩
    · rw [hr] at h
      exact (Prod.mk.inj h).1.symm.trans (State.remoteRun_served hr)
    · rw [hr] at h
      nomatch h
  · exact State.judgeRuns_served h

/-- What holds over each transaction served holds over a list of them that is served: the list stops at its first error. -/
theorem foldl_served {α ε : Type} {F : State × Option ε → α → State × Option ε} {P : State → State → Prop} {l : List α}
    {s u : State} (refl : ∀ u, P u u) (trans : ∀ {u v w}, P u v → P v w → P u w)
    (stop : ∀ u e x, F (u, some e) x = (u, some e)) (serve : ∀ {u v x}, F (u, none) x = (v, none) → P u v)
    (h : l.foldl F (s, none) = (u, none)) : P s u := by
  induction l generalizing s with
  | nil => exact (Prod.mk.inj h).1 ▸ refl s
  | cons x l ih =>
    rw [List.foldl_cons] at h
    rcases hx : F (s, none) x with ⟨v, _ | e⟩
    · exact trans (serve hx) (ih (hx ▸ h))
    · rw [hx, List.foldl_fixed' (stop v e)] at h
      nomatch h

/-- Stores that are served leave the state as it was, until they are made. -/
theorem State.judgeWrites_served {s u : State} {c : Issuer} {ws : List (Nat × List Byte)}
    (h : s.judgeWrites c ws = (u, none)) : u = s := by
  refine foldl_served (P := fun s u => u = s) (fun _ => rfl) (fun hu hv => hv.trans hu) (fun _ _ _ => rfl)
    (fun {s v x} hx => ?_) h
  dsimp only at hx
  split at hx
  · rcases hr : s.remoteRun c x.1 x.2.length true x.2 with ⟨v, _ | e⟩
    · rw [hr] at hx
      exact (Prod.mk.inj hx).1.symm.trans (State.remoteRun_served hr)
    · rw [hr] at hx
      nomatch hx
  · exact State.judgeRun_served hx

theorem State.storeRuns_served {s u : State} {c : StepCtx} {ws : List (Nat × List Byte)}
    (h : s.judgeWrites c.issuer ws = (u, none)) : s.storeRuns c ws = (s.writes ws, true) := by
  unfold State.storeRuns
  rw [h, State.judgeWrites_served h]

/-- Reads that are served have passed the weight cache, and nothing else. -/
theorem State.judgeReads_served {s u : State} {c : Issuer} {rs : List (Nat × Nat)} {allocate : Bool} {P : State → State → Prop}
    (refl : ∀ u, P u u) (trans : ∀ {u v w}, P u v → P v w → P u w) (cache : ∀ u a n, P u (u.wcRead a n allocate))
    (h : s.judgeReads c rs allocate = (u, none)) : P s u := by
  refine foldl_served refl trans (fun _ _ _ => rfl) (fun {s v x} hx => ?_) h
  dsimp only at hx
  rcases hr : s.judgeRun c x.1 x.2 false with ⟨w, _ | e⟩
  · rw [hr] at hx
    obtain rfl := State.judgeRun_served hr
    exact (Prod.mk.inj hx).1 ▸ cache w x.1 x.2
  · rw [hr] at hx
    nomatch hx

theorem State.fetchRuns_served {s u : State} {c : StepCtx} {rs : List (Nat × Nat)} (h : s.fetchRuns c rs = (u, true)) :
    s.judgeReads c.issuer rs false = (u, none) := by
  unfold State.fetchRuns at h
  split at h
  · next hr => exact (Prod.mk.inj h).1 ▸ hr
  · nomatch h

theorem State.fetchDesc_served {s u : State} {c : StepCtx} {d : List Byte} (h : s.fetchDesc c = (u, some d)) :
    s.judgeReads c.issuer [(c.descAddr, 64)] (c.unit / 256 == 8) = (u, none) := by
  unfold State.fetchDesc at h
  split at h
  · next hr => exact (Prod.mk.inj h).1 ▸ hr
  · nomatch h

end Sys2Proof.Machine
end

section
/-! SUPPORT. The counter of a unit's completed steps, which is counter 0 of its block: which parts of a step leave it, the
steps of the matching-store entries and, but for the stores, the memory alone, and what the completion of a step leaves. -/

namespace Sys2Proof.Machine

open Sys2Proof

/-! ### The relations -/

/-- The unit's step counter lies apart from the registers that units share: above those of the Check-Value Units and below those of
the memory controllers (spec/20). -/
def StepUnit (unit : Nat) : Prop := 0x40000 ≤ engCnt unit 0 ∧ engCnt unit 0 < 0x600000

/-- From r to t the unit has counted no step, and each matching-store entry is at the step at which it was. -/
structure Uncounted (unit : Nat) (r t : State) : Prop where
  wf : regsWf r.regs = true → regsWf t.regs = true
  cnt : t.reg (engCnt unit 0) = r.reg (engCnt unit 0)
  step : ∀ e, (t.entry? e).map (·.step) = (r.entry? e).map (·.step)

/-- So it is, and the memory is as it was. -/
structure Beside (unit : Nat) (r t : State) : Prop extends Uncounted unit r t where
  mem : t.mem = r.mem

namespace Uncounted

variable {unit : Nat} {r s t : State}

theorem trans (h : Uncounted unit r s) (g : Uncounted unit s t) : Uncounted unit r t :=
  ⟨fun w => g.wf (h.wf w), g.cnt.trans h.cnt, fun e => (g.step e).trans (h.step e)⟩

/-- What an operation keeps that does not touch the matching store. -/
theorem of_same {w : Nat} (hk : Keeps s t) (hs : Same w s t) (hw : w.testBit 12 = false)
    (hc : t.reg (engCnt unit 0) = s.reg (engCnt unit 0)) : Uncounted unit s t :=
  ⟨hk.regs, hc, fun e => by unfold State.entry?; rw [hs.fgs hw]⟩

end Uncounted

namespace Beside

variable {unit : Nat} {r s t : State}

theorem refl (s : State) : Beside unit s s := ⟨⟨id, rfl, fun _ => rfl⟩, rfl⟩

theorem trans (h : Beside unit r s) (g : Beside unit s t) : Beside unit r t :=
  ⟨h.toUncounted.trans g.toUncounted, g.mem.trans h.mem⟩

/-- What an operation keeps that touches neither the matching store nor the memory. -/
theorem of_same {w : Nat} (hk : Keeps s t) (hs : Same w s t) (hw : w.testBit 12 = false) (hm : w.testBit 2 = false)
    (hc : t.reg (engCnt unit 0) = s.reg (engCnt unit 0)) : Beside unit s t :=
  ⟨.of_same hk hs hw hc, hs.mem hm⟩

/-- What an operation keeps that touches no register, no memory and not the matching store. -/
theorem of_apart {w : Nat} (hk : Keeps s t) (hs : Same w s t) (hw : w.testBit 12 = false) (hm : w.testBit 2 = false)
    (hr : w.testBit 0 = false) : Beside unit s t :=
  .of_same hk hs hw hm (State.reg_congr (hs.regs hr) _)

theorem ite {c : Prop} [Decidable c] (hs : Beside unit r s) (ht : Beside unit r t) : Beside unit r (if c then s else t) := by
  split <;> assumption

/-- An operation that is left out where a condition holds. -/
theorem iteElse {c : Prop} [Decidable c] (hs : Beside unit r s) (ht : Beside unit s t) : Beside unit r (if c then s else t) :=
  .ite hs (hs.trans ht)

/-- An operation that is left out where a condition fails. -/
theorem iteThen {c : Prop} [Decidable c] (hs : Beside unit r s) (ht : Beside unit s t) : Beside unit r (if c then t else s) :=
  .ite (hs.trans ht) hs

theorem foldl {α : Type} {l : List α} {F : State → α → State} (hF : ∀ u, ∀ x ∈ l, Beside unit u (F u x)) :
    Beside unit s (l.foldl F s) := by
  induction l generalizing s with
  | nil => exact refl s
  | cons x l ih => exact (hF s x List.mem_cons_self).trans (ih fun u y hy => hF u y (List.mem_cons_of_mem x hy))

end Beside

/-! ### Registers of the units -/

theorem engCnt_ne_zero (unit : Nat) {m : Nat} (h : m ≠ 0) : engCnt unit m ≠ engCnt unit 0 := by
  unfold engCnt
  omega

theorem engErr_ne_engCnt (unit : Nat) : engErr unit ≠ engCnt unit 0 := by
  unfold engErr engCnt
  split <;> split <;> omega

theorem engBase_ne_engCnt (unit : Nat) : engBase unit ≠ engCnt unit 0 := by
  unfold engCnt
  split <;> omega

/-- The vision engines of the part, by class (spec/02, "Unit codes"). -/
theorem stepUnit_engine : ∀ base ∈ [0x0300, 0x0400, 0x0500, 0x0600, 0x0700], ∀ inst : Fin 4, StepUnit (base + inst.val) := by
  unfold StepUnit
  decide

theorem StepUnit.ne_journal {unit : Nat} (h : StepUnit unit) :
    engCnt unit 0 ≠ Reg.EJ_LOST_CNT ∧ engCnt unit 0 ≠ Reg.EJ_EVENT := by
  unfold StepUnit at h
  unfold Reg.EJ_LOST_CNT Reg.EJ_EVENT
  omega

/-- A memory controller whose channel is present, or the first one: there are four. -/
theorem State.mcOf_lt (s : State) (o : Nat) : s.mcOf o < 4 := by
  unfold State.mcOf
  dsimp only
  rw [List.getD_eq_getElem?_getD]
  cases h : s.channels[o / 4096 % max 1 s.channels.length]? with
  | none => simp
  | some n =>
    have present := List.mem_of_getElem? h
    simp only [State.channels, List.mem_filter, List.mem_range] at present
    exact present.1

section

variable {unit : Nat} {r s : State}

/-! ### Registers, records and matching-store entries -/

theorem State.setReg_beside {a : Nat} {v : Word} (h : Beside unit r s) (ha : a ≠ engCnt unit 0) :
    Beside unit r (s.setReg a v) :=
  h.trans ⟨⟨fun w => State.setReg_regsWf s a v w, State.reg_setReg_other s v ha, fun _ => rfl⟩, rfl⟩

theorem State.setFld_beside {a v : Nat} {b : Bits} (h : Beside unit r s) (ha : a ≠ engCnt unit 0) :
    Beside unit r (s.setFld a b v) := State.setReg_beside h ha

theorem State.setFlag_beside {a : Nat} {b : Bits} {v : Bool} (h : Beside unit r s) (ha : a ≠ engCnt unit 0) :
    Beside unit r (s.setFlag a b v) := State.setFld_beside h ha

theorem State.event_beside {b : Bits} (h : Beside unit r s) : Beside unit r (s.event (engErr unit) b) :=
  State.setFld_beside h (engErr_ne_engCnt unit)

/-- A counter of the unit other than that of its steps. -/
theorem State.addCnt_beside {m n : Nat} (h : Beside unit r s) (hm : m ≠ 0 := by decide) :
    Beside unit r (s.addCnt (engCnt unit m) n) :=
  State.setFld_beside h (engCnt_ne_zero unit hm)

theorem State.addKilo_beside {code k m n : Nat} (h : Beside unit r s) (hm : m ≠ 0 := by decide) :
    Beside unit r (s.addKilo code (engCnt unit m) k n) :=
  State.addCnt_beside (h.trans ⟨⟨id, rfl, fun _ => rfl⟩, rfl⟩) hm

theorem State.log_beside {source code cls partition stream a0 a1 a2 : Nat} (h : Beside unit r s) (hu : StepUnit unit) :
    Beside unit r (s.log source code cls partition stream a0 a1 a2) :=
  h.trans (.of_same (w := 65537) (State.log_keeps (.refl s)) (State.log_same (.refl s) rfl) rfl rfl
    (State.reg_log _ _ _ _ _ _ _ _ _ _ hu.ne_journal.1 hu.ne_journal.2))

theorem State.entry?_modInst {e : Nat} {f : Inst → Inst} (hf : ∀ i, (f i).entry = i.entry) (d : Nat) :
    (s.modInst e f).entry? d = (s.entry? d).map (fun i => if i.entry == e then f i else i) := by
  have key : ((fun i : Inst => i.entry == d) ∘ fun i => if i.entry == e then f i else i) = fun i => i.entry == d := by
    funext i
    simp only [Function.comp_apply]
    split
    · rw [hf]
    · rfl
  unfold State.entry? State.modInst
  rw [List.find?_map, key]

theorem State.entry?_modInst_same {e : Nat} {f : Inst → Inst} {i : Inst} (hf : ∀ i, (f i).entry = i.entry)
    (h : s.entry? e = some i) : (s.modInst e f).entry? e = some (f i) := by
  have hi : (i.entry == e) = true := List.find?_some (p := fun i : Inst => i.entry == e) h
  rw [State.entry?_modInst hf, h, Option.map_some, if_pos hi]

theorem State.modInst_beside {e : Nat} {f : Inst → Inst} (h : Beside unit r s) (he : ∀ i, (f i).entry = i.entry)
    (hs : ∀ i, (f i).step = i.step) : Beside unit r (s.modInst e f) := by
  refine h.trans ⟨⟨id, rfl, fun d => ?_⟩, rfl⟩
  rw [State.entry?_modInst he, Option.map_map]
  congr 1
  funext i
  simp only [Function.comp_apply]
  split
  · exact hs i
  · rfl

/-! ### The beginning of a step, fetches and stores -/

theorem State.beginStep_beside (s : State) (c : StepCtx) : Beside c.unit s (s.beginStep c) := by
  have base := engBase_ne_engCnt c.unit
  unfold State.beginStep
  extract_lets s1 a s2
  have h1 : Beside c.unit s s1 := by
    unfold s1
    split
    · exact State.modInst_beside (.refl s) (fun _ => rfl) fun _ => rfl
    · exact .refl s
  have h2 : Beside c.unit s s2 := State.setFld_beside (State.setFld_beside h1 base) base
  exact .ite h2 (State.setFld_beside h2 base)

theorem State.wcRead_beside (hu : StepUnit unit) (s : State) (a len : Nat) (allocate : Bool) :
    Beside unit s (s.wcRead a len allocate) := by
  obtain ⟨-, hu⟩ := hu
  refine .of_same (w := 8193) (State.wcRead_keeps (.refl s)) (State.wcRead_same (.refl s) rfl) rfl rfl ?_
  have cnt : ∀ (u : State) (m : Nat), (u.addCnt (Reg.MC_WC_CNT m) 1).reg (engCnt unit 0) = u.reg (engCnt unit 0) := fun u m =>
    State.reg_addCnt_other _ _ _ _ (by unfold Reg.MC_WC_CNT; omega)
  unfold State.wcRead
  split
  · rfl
  · refine State.reg_foldl fun u l _ => ?_
    split
    · exact cnt u 0
    · dsimp only
      split <;> exact cnt u 1

theorem State.fetchRuns_beside {u : State} {c : StepCtx} {rs : List (Nat × Nat)} (hu : StepUnit unit)
    (h : s.fetchRuns c rs = (u, true)) : Beside unit s u :=
  State.judgeReads_served .refl .trans (State.wcRead_beside hu · · · _) (State.fetchRuns_served h)

theorem State.fetchDesc_beside {u : State} {c : StepCtx} {d : List Byte} (hu : StepUnit unit)
    (h : s.fetchDesc c = (u, some d)) : Beside unit s u :=
  State.judgeReads_served .refl .trans (State.wcRead_beside hu · · · _) (State.fetchDesc_served h)

theorem State.engCnt_write (hu : StepUnit unit) (s : State) (a : Nat) (bs : List Byte) :
    (s.write a bs).reg (engCnt unit 0) = s.reg (engCnt unit 0) := by
  obtain ⟨-, hu⟩ := hu
  have resv : ((s.store a bs).breakResv a bs.length).reg (engCnt unit 0) = s.reg (engCnt unit 0) :=
    State.reg_congr ((State.breakResv_same (m0 := 16384) (.refl _) rfl).regs rfl) _
  have gone : ∀ u : State, (u.wcInvalidate a bs.length).reg (engCnt unit 0) = u.reg (engCnt unit 0) := fun u =>
    State.reg_addCnt_other _ _ _ _ (by unfold Reg.MC_WC_CNT; omega)
  have rmw : ∀ (u : State) (l : List Nat), (l.foldl (fun u b => u.addCnt (Reg.MC_CNT (u.mcOf (b * 64 - addrLp)) 2) 1) u).reg
      (engCnt unit 0) = u.reg (engCnt unit 0) := fun u l => State.reg_foldl fun u b _ => by
    have four := u.mcOf_lt (b * 64 - addrLp)
    exact State.reg_addCnt_other _ _ _ _ (by unfold Reg.MC_CNT; omega)
  unfold State.write
  split
  · rfl
  · dsimp only
    split
    · exact resv
    · exact (State.reg_congr rfl _).trans ((rmw _ _).trans ((gone _).trans resv))

theorem State.writes_uncounted (hu : StepUnit unit) (s : State) (ws : List (Nat × List Byte)) :
    Uncounted unit s (s.writes ws) :=
  .of_same (w := 24581) (State.writes_keeps (.refl s)) (State.writes_same (.refl s) rfl) rfl
    (State.reg_foldl fun u x _ => State.engCnt_write hu u x.1 x.2)

/-! ### The completion of a step -/

theorem State.tapStream_beside {code domain slot : Nat} {bytes : List Byte} (h : Beside unit r s) (hu : StepUnit unit) :
    Beside unit r (s.tapStream code domain slot bytes) := by
  obtain ⟨hu, -⟩ := hu
  unfold State.tapStream
  split
  · exact h
  · next n hn =>
    have eight : n < 8 := List.mem_range.mp (List.mem_of_find?_eq_some hn)
    refine .ite (.trans (State.setFld_beside h ?_) ⟨⟨id, rfl, fun _ => rfl⟩, rfl⟩) h
    unfold Reg.CVU_STATUS
    omega

theorem State.counted_addCnt {s : State} (h : regsWf s.regs = true) (a n : Nat) : counted s (s.addCnt a n) a n := by
  have whole : ∀ u : State, (u.reg a).toNat = u.fld a ⟨31, 0⟩ := fun u => by
    unfold State.fld Bits.get
    exact (Nat.mod_eq_of_lt (u.reg a).isLt).symm
  unfold counted
  rw [whole, whole, State.addCnt, State.addFld, State.fld_setFld_same s a _ _ h rfl]
  exact Nat.mod_eq_of_lt ((Nat.min_le_right _ _).trans_lt (by decide))

/-- What a completed step leaves of the state w in which its stores stand. -/
structure StepEnded (c : StepCtx) (last : Bool) (w t : State) : Prop where
  mem : t.mem = w.mem
  cnt : regsWf w.regs = true → counted w t (engCnt c.unit 0) 1
  next : ∀ e i, c.entry = some e → w.entry? e = some i →
    ∃ j, t.entry? e = some j ∧ j.step = if last then max c.steps (i.step + 1) else i.step + 1

theorem Uncounted.entry {t : State} (h : Uncounted unit s t) {e : Nat} {i : Inst} (hi : s.entry? e = some i) :
    ∃ j, t.entry? e = some j ∧ j.step = i.step := by
  have key := h.step e
  rw [hi] at key
  simpa using key

/-- Counting the step and naming the next one completes it, whatever came beside. -/
theorem State.stepDone_ended {c : StepCtx} {w : State} (hu : StepUnit c.unit) (h : Beside c.unit w s) (last : Bool)
    (stores : List Byte) : StepEnded c last w (s.stepDone c last stores) := by
  unfold State.stepDone
  extract_lets s1 s2
  have h1 : Beside c.unit (s.addCnt (engCnt c.unit 0) 1) s1 := State.tapStream_beside (.refl _) hu
  have h2 : Beside c.unit (s.addCnt (engCnt c.unit 0) 1) s2 := h1.trans (.of_apart (w := 0x808000)
    (State.endRemote_keeps (State.modUnit_keeps (.refl _))) (State.endRemote_same (State.modUnit_same (.refl _) rfl) rfl)
    rfl rfl rfl)
  have cnt : regsWf w.regs = true → counted w s2 (engCnt c.unit 0) 1 := fun hw => by
    have key := State.counted_addCnt (h.wf hw) (engCnt c.unit 0) 1
    unfold counted at key ⊢
    rw [h2.cnt, key, h.cnt]
  split
  · next e he =>
    refine ⟨h2.mem.trans h.mem, cnt, fun d i hd hi => ?_⟩
    obtain rfl : e = d := Option.some.inj (he.symm.trans hd)
    obtain ⟨j, hj, hji⟩ := h.entry hi
    obtain ⟨k, hk, hkj⟩ := h2.entry hj
    exact ⟨_, State.entry?_modInst_same (fun _ => rfl) hk, by rw [hkj, hji]⟩
  · next he => exact ⟨h2.mem.trans h.mem, cnt, fun d _ hd => nomatch he.symm.trans hd⟩

end

end Sys2Proof.Machine
end

section
/-! SUPPORT. What the runs of the vision engines leave of the states in which their stores stand (spec/07 to spec/10), and from
that what a step leaves whose descriptor is valid and whose fetches and stores are served. -/

namespace Sys2Proof.Machine

open Sys2Proof

/-! ### A step that is due -/

theorem State.ctx?_unit {s : State} {unit : Nat} {c : StepCtx} (h : s.ctx? unit = some c) : c.unit = unit := by
  unfold State.ctx? at h
  split at h
  · split at h
    · split at h
      · obtain rfl := Option.some.inj h
        rfl
      · nomatch h
    · nomatch h
  · split at h
    · next x hx =>
      split at h
      · obtain ⟨y, hy, h⟩ := Option.bind_eq_some_iff.mp h
        obtain ⟨e, -, rfl⟩ := Option.map_eq_some_iff.mp hy
        split at h
        · obtain rfl := Option.some.inj h
          exact beq_iff_eq.mp (List.find?_some (p := fun x : CoverSt => x.unit == unit) hx)
        · nomatch h
      · nomatch h
    · nomatch h

section

variable {s : State} {unit op : Nat} {c : StepCtx}

theorem State.unit_of_due (h : stepDue s unit op c) : c.unit = unit := State.ctx?_unit h.1

theorem State.op_of_due (h : stepDue s unit op c) : leAt (s.desc c) 0 1 = op := h.2.2

theorem State.stepUnit_of_due {base : Nat} {inst : Fin 4} (h : stepDue s (base + inst.val) op c)
    (hb : base ∈ [0x0300, 0x0400, 0x0500, 0x0600, 0x0700]) : StepUnit c.unit :=
  State.unit_of_due h ▸ stepUnit_engine base hb inst

theorem State.fetchDesc_of_due (h : stepDue s unit op c) : (s.beginStep c).fetchDesc c = (s.fetched c, some (s.desc c)) :=
  Prod.ext rfl h.2.1

theorem State.fetched_beside (hu : StepUnit c.unit) (h : stepDue s unit op c) : Beside c.unit s (s.fetched c) :=
  (State.beginStep_beside s c).trans (State.fetchDesc_beside hu (State.fetchDesc_of_due h))

/-- A step that is due and whose descriptor is valid is run. -/
theorem State.engineStep_of_due {valid : State → StepCtx → List Byte → Bool} {mine : Nat → Bool}
    {run : State → StepCtx → List Byte → State} (h : stepDue s unit op c) (hm : mine op = true)
    (hv : valid (s.fetched c) c (s.desc c) = true) :
    s.engineStep unit .ok valid mine run = run (s.fetched c) c (s.desc c) := by
  have take : (valid s c (s.desc c) && !mine (leAt (s.desc c) 0 1)) = false := by simp [State.op_of_due h, hm]
  have desc : Memory.bytes s.mem c.descAddr 64 = s.desc c := rfl
  unfold State.engineStep
  simp only [h.1, desc, take, State.meetErr, State.fetchDesc_of_due h, hv, if_true, Bool.false_eq_true, if_false]

/-- A step that is due, valid and served is taken: its run ends with what its stores leave. -/
theorem State.engineStep_taken {valid : State → StepCtx → List Byte → Bool} {mine : Nat → Bool}
    {run : State → StepCtx → List Byte → State} {u v : State} {ws : List (Nat × List Byte)} {last : Bool}
    (hs : s.canonical = true) (hu : StepUnit c.unit) (h : stepDue s unit op c) (hm : mine op = true)
    (hv : valid (s.fetched c) c (s.desc c) = true) (hb : Beside c.unit (s.fetched c) u)
    (hj : v = (u.judgeWrites c.issuer ws).1) (hw : (u.judgeWrites c.issuer ws).2 = none)
    (he : u.storeRuns c ws = (v.writes ws, true) → StepEnded c last (v.writes ws) (run (s.fetched c) c (s.desc c))) :
    completes (.next (s.engineStep unit .ok valid mine run)) (fun t => t.mem = (v.writes ws).mem ∧ stepTaken s t c last) := by
  have judge : u.judgeWrites c.issuer ws = (v, none) := Prod.ext hj.symm hw
  obtain rfl : v = u := State.judgeWrites_served judge
  have ended := he (State.storeRuns_served judge)
  have kept := ((State.fetched_beside hu h).trans hb).toUncounted.trans (State.writes_uncounted hu v ws)
  rw [State.engineStep_of_due h hm hv]
  refine completes_next ⟨ended.mem, ?_, fun e i hc hi => ?_⟩
  · have key := ended.cnt (kept.wf (State.canonical_regs hs))
    unfold counted at key ⊢
    rw [key, kept.cnt]
  · obtain ⟨j, hj, hji⟩ := kept.entry hi
    exact hji ▸ ended.next e j hc hj

theorem State.fetchRuns_eq {u : State} {rs : List (Nat × Nat)} (hu : u = (s.fetchRuns c rs).1)
    (h : (s.fetchRuns c rs).2 = true) : s.fetchRuns c rs = (u, true) := Prod.ext hu.symm h

end

/-! ### The warp engines -/

section

variable {s u w : State} {c : StepCtx} {d : List Byte} {ws : List (Nat × List Byte)}

theorem State.flagStep_beside {unit : Nat} {r : State} (h : Beside unit r s) : Beside unit r (s.flagStep c) := by
  unfold State.flagStep
  split
  · exact State.modInst_beside h (fun _ => rfl) fun _ => rfl
  · exact h

theorem State.footprint_beside {r : State} {n : Nat} (h : Beside c.unit r s) (hu : StepUnit c.unit) :
    Beside c.unit r (s.footprint c n) := by
  unfold State.footprint
  extract_lets s1 told s2
  have h1 : Beside c.unit r s1 :=
    State.flagStep_beside (State.event_beside (State.addCnt_beside h))
  have h2 : Beside c.unit r s2 := State.log_beside h1 hu
  refine .ite h (.ite h1 ?_)
  split
  · exact State.modInst_beside h2 (fun _ => rfl) fun _ => rfl
  · exact h2

theorem runWarp_ended (hu : StepUnit c.unit)
    (hf : s.fetchRuns c ((warpPairs d).flatMap fun p => s.warpRuns c d p.1 p.2) = (u, true))
    (hw : u.storeRuns c ((warpPairs d).flatMap fun p => (u.warpOut c d p.1 p.2).1) = (w, true)) :
    StepEnded c (leAt d 2 1 % 2 == 1) w (runWarp s c d) := by
  unfold runWarp
  extract_lets ps
  rw [hf]
  dsimp only
  rw [List.flatMap_map, hw]
  dsimp only
  exact State.stepDone_ended hu (State.addKilo_beside (State.footprint_beside
    (.ite (.refl w) (State.event_beside (State.addCnt_beside (.refl w)))) hu)) _ _

/-- A step of a warp operation, for the four that there are. -/
theorem State.warpStep_taken {v : State} (inst : Fin 4) (op : Nat) (hs : s.canonical = true)
    (hd : stepDue s (0x0300 + inst.val) op c) (hv : warpValid (s.fetched c) c (s.desc c) = true)
    (hu : u = ((s.fetched c).fetchRuns c ((warpPairs (s.desc c)).flatMap fun p => (s.fetched c).warpRuns c (s.desc c) p.1 p.2)).1)
    (hf : ((s.fetched c).fetchRuns c
      ((warpPairs (s.desc c)).flatMap fun p => (s.fetched c).warpRuns c (s.desc c) p.1 p.2)).2 = true)
    (hws : ws = (warpPairs (s.desc c)).flatMap fun p => (u.warpOut c (s.desc c) p.1 p.2).1)
    (hj : v = (u.judgeWrites c.issuer ws).1) (hw : (u.judgeWrites c.issuer ws).2 = none) :
    completes (.next (s.warpStep inst.val op .ok))
      (fun t => t.mem = (v.writes ws).mem ∧ stepTaken s t c (leAt (s.desc c) 2 1 % 2 == 1)) := by
  have fetch := State.fetchRuns_eq hu hf
  have unit := State.stepUnit_of_due hd (by decide)
  subst hws
  exact State.engineStep_taken hs unit hd (beq_self_eq_true op) hv (State.fetchRuns_beside unit fetch) hj hw
    (runWarp_ended unit fetch)

end

/-! ### The pyramid engines -/

theorem status_pyramid {unit : Nat} (h : unit / 256 = 4) : Reg.PYR_STATUS (unit % 256) ≠ engCnt unit 0 := by
  have base : engBase unit = Reg.PYR_STATUS (unit % 256) := by simp only [engBase, h]
  exact base ▸ engBase_ne_engCnt unit

/-- The lines that a PYRAMID step fetches: those below what it carries (R180). -/
def State.pyrRuns (s : State) (c : StepCtx) (d : List Byte) : List (Nat × Nat) :=
  let r := (c.inp 0).1
  let n := pixBytes r.rc.format
  let q := pyrFetch c d
  (span (((s.carries c d).map fun (k : Carry) => max q.2.2.1 k.bottom).getD q.2.2.1) q.2.2.2).map fun y =>
    (lineAddr r (((c.inp 0).2).getD 0) y + q.1 * n, (q.2.1 - q.1) * n)

/-- The input level of a PYRAMID step. -/
def State.pyrLevel (s : State) (c : StepCtx) : Level :=
  let r := (c.inp 0).1
  mkLevel r.rc.width r.frameH fun x y => s.pix (pixAddr r (((c.inp 0).2).getD 0) x y) (pixBytes r.rc.format)

/-- What a PYRAMID step stores of its input level. -/
def pyrStores (c : StepCtx) (d : List Byte) (inp : Level) : List (Nat × List Byte) :=
  let r := (c.inp 0).1
  (pyrOuts c d).flatMap fun j =>
    let x := c.rect j
    (span x.2.2.1 x.2.2.2).map fun y => (pixAddr (c.out j).1 (c.out j).2 x.1 y, (span x.1 x.2.1).flatMap fun px =>
      pyrBytes r.rc.width r.frameH inp (pixBytes r.rc.format) (leAt d 1 1) (pyrOut d j).1 (pyrOut d j).2 px y)

section

variable {s u w : State} {c : StepCtx} {d : List Byte}

/-- The carry history of the pyramid engines is no part of what a statement asks for. -/
theorem StepEnded.carry {last : Bool} {x : List (Option Carry)} (h : StepEnded c last w s) :
    StepEnded c last w { s with carry := x } := ⟨h.mem, h.cnt, h.next⟩

theorem runPyr_ended (hu : StepUnit c.unit) (h4 : c.unit / 256 = 4) (hf : s.fetchRuns c (s.pyrRuns c d) = (u, true))
    (hw : u.storeRuns c (pyrStores c d (u.pyrLevel c)) = (w, true)) :
    StepEnded c (leAt d 3 1 % 2 == 1) w (runPyr s c d) := by
  unfold runPyr
  extract_lets r k n q car top
  have below : top = (car.map fun (p : Carry) => max q.2.2.1 p.bottom).getD q.2.2.1 := by
    unfold top
    cases car <;> rfl
  have runs : s.fetchRuns c ((span top q.2.2.2).map fun y => (lineAddr r k y + q.1 * n, (q.2.1 - q.1) * n)) = (u, true) := by
    rw [below]
    exact hf
  rw [runs]
  dsimp only
  generalize hs : List.flatMap _ (pyrOuts c d) = ws
  obtain rfl : pyrStores c d (u.pyrLevel c) = ws := hs
  rw [hw]
  dsimp only
  exact .carry (State.stepDone_ended hu (State.setFlag_beside (.iteThen (State.addKilo_beside (.refl w))
    (State.addCnt_beside (.refl _))) (status_pyramid h4)) _ _)

end

/-! ### The stereo engines -/

theorem engBase_stereo {unit : Nat} (h : unit / 256 = 5) : engBase unit = Reg.STR_STATUS (unit % 256) := by
  simp only [engBase, h]

theorem status_stereo {unit : Nat} (h : unit / 256 = 5) : Reg.STR_STATUS (unit % 256) ≠ engCnt unit 0 :=
  engBase_stereo h ▸ engBase_ne_engCnt unit

theorem code_stereo {unit : Nat} (h : unit / 256 = 5) (m : Nat) : Reg.STR_CODE (unit % 256) m ≠ engCnt unit 0 := by
  have first : engCnt unit 0 = Reg.STR_STATUS (unit % 256) + 0x10 := by simp [engCnt, engBase_stereo h, h]
  rw [first]
  unfold Reg.STR_CODE Reg.STR_STATUS
  omega

/-- What a STEREO step stores of its results: the codes, and the confidences where it has a second output. -/
def StrJob.stores (j : StrJob) (c : StepCtx) (rows : List (List StrPix)) : List (Nat × List Byte) :=
  rows.mapIdx (fun i row => (pixAddr (c.out 0).1 (c.out 0).2 j.x0 (j.y0 + i), row.flatMap fun p => leBytes 2 p.word))
    ++ if decide (2 ≤ c.outs.length) then
      rows.mapIdx fun i row =>
        (pixAddr (c.out 1).1 (c.out 1).2 j.x0 (j.y0 + i), row.map fun p => BitVec.ofNat 8 (if p.code == 0 then p.conf else 0))
    else []

section

variable {s u w : State} {c : StepCtx} {d : List Byte}

theorem State.motionMiss_beside {r : State} {bit m : Nat} (h : Beside c.unit r s) (hu : StepUnit c.unit) (hm : m ≠ 0) :
    Beside c.unit r (s.motionMiss c bit m) :=
  State.log_beside (State.event_beside (State.addCnt_beside h hm)) hu

theorem State.countCodes_beside {unit : Nat} {r : State} {reg : Nat → Nat} {codes : List Nat} (h : Beside unit r s)
    (hr : ∀ m, reg m ≠ engCnt unit 0) : Beside unit r (s.countCodes reg codes) :=
  h.trans (.foldl fun u m _ => .ite (.refl u) (State.setFld_beside (.refl u) (hr m)))

theorem State.strFinish_ended {j : StrJob} (miss : Bool) (hu : StepUnit c.unit) (h5 : c.unit / 256 = 5)
    (hw : u.storeRuns c (j.stores c (j.results u).1) = (w, true)) : StepEnded c true w (u.strFinish c j miss) := by
  unfold State.strFinish
  rcases hj : j.results u with ⟨rows, refined⟩
  rw [hj] at hw
  dsimp only
  generalize hs : List.mapIdx _ rows ++ _ = ws
  obtain rfl : j.stores c rows = ws := hs
  rw [hw]
  dsimp only
  exact State.stepDone_ended hu (State.countCodes_beside (State.setFlag_beside (State.addCnt_beside (State.addKilo_beside
    (.iteElse (.iteThen (.refl w) (State.motionMiss_beside (.refl w) hu (by decide)))
      (State.event_beside (State.addKilo_beside (.refl _)))))) (status_stereo h5)) (code_stereo h5)) _ _

theorem runStr_ended {v : State} {b : StrDesc} {ma : Nat} {mo : Motion} {j : StrJob} (hu : StepUnit c.unit) (h5 : c.unit / 256 = 5)
    (hb : b = parseStr d) (ha : ma = motionAddr b.motion c.seq)
    (hf : s.fetchRuns c (if b.motion == 0 then [] else [(ma, 64)]) = (u, true)) (hm : mo = parseMotion (Memory.bytes u.mem ma 64))
    (hj : j = strJob c b (if (b.motion != 0 && mo.accepted c.seq (b.pred == 1) (b.pred == 1) (b.pred == 3 || b.fallback == 3))
      then some mo else none))
    (hg : u.fetchRuns c j.runs = (v, true)) (hw : v.storeRuns c (j.stores c (j.results v).1) = (w, true)) :
    StepEnded c true w (runStr s c d) := by
  subst hb ha hm
  unfold runStr
  dsimp only
  rw [hf]
  dsimp only
  rw [← hj, hg]
  exact State.strFinish_ended _ hu h5 hw

end

/-! ### The flow engines -/

theorem engBase_flow {unit : Nat} (h : unit / 256 = 6) : engBase unit = Reg.FLW_STATUS (unit % 256) := by
  simp only [engBase, h]

theorem status_flow {unit : Nat} (h : unit / 256 = 6) : Reg.FLW_STATUS (unit % 256) ≠ engCnt unit 0 :=
  engBase_flow h ▸ engBase_ne_engCnt unit

theorem code_flow {unit : Nat} (h : unit / 256 = 6) (m : Nat) : Reg.FLW_CODE (unit % 256) m ≠ engCnt unit 0 := by
  have first : engCnt unit 0 = Reg.FLW_STATUS (unit % 256) + 0x10 := by simp [engCnt, engBase_flow h, h]
  rw [first]
  unfold Reg.FLW_CODE Reg.FLW_STATUS
  omega

section

variable {s u w : State} {c : StepCtx} {d : List Byte}

theorem State.flwStore_ended {j : FlwJob} {rows : List (List FlwPix)} {extra : State → State} (refined : Nat)
    (hu : StepUnit c.unit) (h6 : c.unit / 256 = 6) (he : Beside c.unit w (extra w))
    (hw : u.storeRuns c (j.stores c rows) = (w, true)) : StepEnded c true w (u.flwStore c j rows refined extra) := by
  unfold State.flwStore
  dsimp only
  rw [hw]
  dsimp only
  exact State.stepDone_ended hu (State.countCodes_beside (State.setFlag_beside (State.addCnt_beside (State.addKilo_beside he))
    (status_flow h6)) (code_flow h6)) _ _

/-- A step whose previous frame is absent fetches nothing and stores that there is no data (R208). -/
theorem runFlw_absent_ended {j : FlwJob} (hu : StepUnit c.unit) (h6 : c.unit / 256 = 6) (ha : (c.inp 1).2 = none)
    (hj : j = flwJob c (parseFlw d))
    (hw : s.storeRuns c (j.stores c ((span j.y0 j.y1).map fun _ => (span j.x0 j.x1).map fun _ => FlwPix.noData)) = (w, true)) :
    StepEnded c true w (runFlw s c d) := by
  subst hj
  unfold runFlw
  dsimp only
  rw [if_pos (by rw [ha]; rfl)]
  exact State.flwStore_ended _ hu h6
    (State.log_beside (State.event_beside (State.addCnt_beside (.refl w))) hu) hw

theorem runFlw_ended {v : State} {j : FlwJob} (hu : StepUnit c.unit) (h6 : c.unit / 256 = 6)
    (hp : (c.inp 1).2 ≠ none) (hj : j = flwJob c (parseFlw d))
    (hf : s.fetchRuns c j.runs = (u, true)) (hg : u.fetchRuns c (j.warpRuns u) = (v, true))
    (hw : v.storeRuns c (j.stores c (j.results v).1) = (w, true)) : StepEnded c true w (runFlw s c d) := by
  subst hj
  unfold runFlw
  dsimp only
  rw [if_neg (by simpa using hp), hf]
  dsimp only
  rw [hg]
  refine State.flwStore_ended _ hu h6 ?_ hw
  exact .iteElse (.iteThen (.refl w) (State.log_beside (State.event_beside (.refl w)) hu))
    (State.event_beside (State.addKilo_beside (.refl _)))

end

/-! ### The feature engines -/

theorem status_feature : ∀ inst : Fin 4, Reg.FTR_STATUS inst.val ≠ engCnt (0x0700 + inst.val) 0 := by decide

/-- The corners that a FEATURE step keeps. -/
def State.keptCorners (s : State) (c : StepCtx) (b : FtrDesc) : List Corner :=
  quotaKept b (bucketed b ((ftrLevels c b).flatMap fun l => l.survivors s b))

/-- What a FEATURE step stores: the records of the corners kept, in order, and empty ones up to its quota (R234). -/
def State.ftrStores (s : State) (c : StepCtx) (b : FtrDesc) (kept : List Corner) : List (Nat × List Byte) :=
  [(pixAddr (c.out 0).1 (c.out 0).2 0 c.tile,
    ((kept.foldr insertCorner []).mapIdx (fun i p => ftrRecord s c (ftrLevels c b) (s.patterns.getD (c.unit % 256) []) i p)
      ++ List.replicate (b.quota - kept.length) ftrEmpty).flatten)]

/-- The run of bytes that holds a tile's queries. -/
def StepCtx.queryRun (c : StepCtx) : Nat × Nat :=
  (pixAddr (c.inFrameOf 0).1 (c.inFrameOf 0).2 0 c.tile, 64 * (c.inFrameOf 0).1.rc.width)

/-- The candidate lines of a MATCH step. -/
def StepCtx.candLines (c : StepCtx) (b : MatchDesc) : Nat × Nat :=
  Sys2Proof.Machine.candLines b c.tile (c.inFrameOf 0).1.frameH (c.inFrameOf 1).1.frameH

/-- What a MATCH step fetches first: its motion entry, its queries and its candidates. -/
def StepCtx.matchRuns (c : StepCtx) (b : MatchDesc) : List (Nat × Nat) :=
  (if b.pred == 3 then [(motionAddr b.motion c.seq, 64)] else []) ++ [c.queryRun]
    ++ (span (c.candLines b).1 (c.candLines b).2).map fun y =>
      (pixAddr (c.inFrameOf 1).1 (c.inFrameOf 1).2 0 y, 64 * (c.inFrameOf 1).1.rc.width)

/-- The queries of a tile. -/
def State.queries (s : State) (c : StepCtx) : List FtrRec :=
  (List.range (c.inFrameOf 0).1.rc.width).map fun i => s.ftrRec (pixAddr (c.inFrameOf 0).1 (c.inFrameOf 0).2 i c.tile)

/-- The flow records that the predictions of the queries read. -/
def State.flowRuns (s : State) (c : StepCtx) (b : MatchDesc) (qs : List FtrRec) : List (Nat × Nat) :=
  if b.pred == 1 then ((qs.filter fun q => !q.empty).filterMap (s.matchFlowAt c b)).eraseDups.map fun a => (a, 4) else []

/-- The record of a query whose candidates are absent. -/
def FtrRec.unmatched (q : FtrRec) : MatchRec :=
  if q.empty then MatchRec.emptyQuery else ⟨0, q.flagged, false, false, 256, 256, 1, 0xFFF, 0x7FFF⟩

/-- The record of a query matched against the candidates. -/
def State.matched (s : State) (c : StepCtx) (b : MatchDesc) (mo : Motion) (q : FtrRec) : MatchRec :=
  matchOne b q (s.matchPred c b (if mo.accepted c.seq true false false then some mo else none) q)
    (s.coveredLines (c.inFrameOf 1).1 (c.candLines b).1 (c.candLines b).2)
    ((span (c.candLines b).1 (c.candLines b).2).flatMap fun y => (List.range (c.inFrameOf 1).1.rc.width).map fun i =>
      (y, i, s.ftrRec (pixAddr (c.inFrameOf 1).1 (c.inFrameOf 1).2 i y)))

/-- What a MATCH step stores of its records. -/
def matchStores (c : StepCtx) (recs : List MatchRec) : List (Nat × List Byte) :=
  [(pixAddr (c.out 0).1 (c.out 0).2 0 c.tile, recs.flatMap fun m => leBytes 8 m.word)]

section

variable {s u w : State} {c : StepCtx} {d : List Byte}

theorem State.showMatch_beside (inst : Fin 4) (h : c.unit = 0x0700 + inst.val) (s : State) (on : Bool) :
    Beside c.unit s (s.setFlag (Reg.FTR_STATUS inst.val) F.FTR_STATUS.MATCH on) :=
  State.setFlag_beside (.refl s) (h ▸ status_feature inst)

theorem runFeature_ended {b : FtrDesc} (hu : StepUnit c.unit) (hb : b = parseFtr d)
    (hf : s.fetchRuns c (ftrRuns (ftrLevels c b)) = (u, true))
    (hw : u.storeRuns c (u.ftrStores c b (u.keptCorners c b)) = (w, true)) : StepEnded c true w (runFeature s c d) := by
  subst hb
  unfold State.ftrStores State.keptCorners at hw
  unfold runFeature
  dsimp only
  rw [hf]
  dsimp only
  rw [hw]
  dsimp only
  exact State.stepDone_ended hu (.iteElse (State.addCnt_beside (State.addCnt_beside (State.addCnt_beside
    (State.addKilo_beside (.refl w))))) (State.event_beside (.refl _))) _ _

theorem State.matchStore_ended {recs : List MatchRec} {extra : State → State} (hu : StepUnit c.unit)
    (he : Beside c.unit w (extra w)) (hw : u.storeRuns c (matchStores c recs) = (w, true)) :
    StepEnded c true w (u.matchStore c recs extra) := by
  unfold matchStores at hw
  unfold State.matchStore
  dsimp only
  rw [hw]
  exact State.stepDone_ended hu (State.addCnt_beside he) _ _

/-- A step whose candidates are absent fetches its queries alone (R240). -/
theorem runMatch_absent_ended (hu : StepUnit c.unit) (ha : (c.inp 1).2 = none) (hf : s.fetchRuns c [c.queryRun] = (u, true))
    (hw : u.storeRuns c (matchStores c ((u.queries c).map FtrRec.unmatched)) = (w, true)) :
    StepEnded c true w (runMatch s c d) := by
  have absent : (c.inp 1).2.isNone = true := by rw [ha]; rfl
  have noLines : span 0 0 = [] := rfl
  unfold StepCtx.queryRun at hf
  unfold runMatch
  simp only [absent, Bool.not_true, Bool.and_false, Bool.false_eq_true, if_false, if_true, noLines, List.map_nil, List.nil_append,
    List.append_nil, hf]
  exact State.matchStore_ended hu (State.event_beside (.refl w)) hw

theorem runMatch_ended {v : State} {b : MatchDesc} {mo : Motion} (hu : StepUnit c.unit) (hp : (c.inp 1).2 ≠ none)
    (hb : b = parseMatch d) (hf : s.fetchRuns c (c.matchRuns b) = (u, true))
    (hg : u.fetchRuns c (u.flowRuns c b (u.queries c)) = (v, true))
    (hm : mo = parseMotion (Memory.bytes v.mem (motionAddr b.motion c.seq) 64))
    (hw : v.storeRuns c (matchStores c ((u.queries c).map (v.matched c b mo))) = (w, true)) :
    StepEnded c true w (runMatch s c d) := by
  have present : (c.inp 1).2.isNone = false := Option.isNone_eq_false_iff.mpr (Option.isSome_iff_ne_none.mpr hp)
  subst hb hm
  unfold StepCtx.matchRuns StepCtx.queryRun StepCtx.candLines at hf
  unfold State.flowRuns State.queries at hg
  unfold runMatch
  simp only [present, Bool.not_false, Bool.and_true, Bool.false_eq_true, if_false, hf, hg]
  exact State.matchStore_ended hu (.iteThen (.refl w) (State.log_beside (State.event_beside (.refl w)) hu)) hw

end

end Sys2Proof.Machine
end

section
/-! SUPPORT. The steps of the vision engines (spec/07 to spec/10). -/

namespace Sys2Proof.Machine

open Sys2Proof

/-- Settles O24: a step that is due, valid and served is its run (`engineStep_taken`), whose fetches leave all but the weight cache
and whose completion, after what it counts beside, counts the step and names the next one. -/
theorem visionEngines : Obligations.VisionEngines := by
  unfold Obligations.VisionEngines
  refine ⟨fun s inst c u ws v hs hd => State.warpStep_taken inst 1 hs hd,
    fun s inst c u ws v hs hd => State.warpStep_taken inst 2 hs hd,
    fun s inst c u ws v hs hd => State.warpStep_taken inst 3 hs hd,
    fun s inst c u ws v hs hd => State.warpStep_taken inst 4 hs hd,
    ?pyramid, ?stereo, ?flowAbsent, ?flow, ?feature, ?matchAbsent, ?matching⟩
  case pyramid =>
    rintro s inst c u inp ws v hs hd hv hu hf rfl rfl hj hw
    have unit := State.stepUnit_of_due hd (by decide)
    have h4 : c.unit / 256 = 4 := by have code := State.unit_of_due hd; omega
    have fetch : (s.fetched c).fetchRuns c ((s.fetched c).pyrRuns c (s.desc c)) = (u, true) := State.fetchRuns_eq hu hf
    exact State.engineStep_taken hs unit hd rfl hv (State.fetchRuns_beside unit fetch) hj hw (runPyr_ended unit h4 fetch)
  case stereo =>
    rintro s inst c u mo job u2 ws v hs hd hv hu hf hm hjob hu2 hg rfl hj hw
    have unit := State.stepUnit_of_due hd (by decide)
    have h5 : c.unit / 256 = 5 := by have code := State.unit_of_due hd; omega
    have motion := State.fetchRuns_eq hu hf
    have lines := State.fetchRuns_eq hu2 hg
    exact State.engineStep_taken hs unit hd rfl hv ((State.fetchRuns_beside unit motion).trans (State.fetchRuns_beside unit lines))
      hj hw (runStr_ended unit h5 rfl rfl motion hm hjob lines)
  case flowAbsent =>
    rintro s inst c job ws v hs hd hv ha hjob rfl hj hw
    have unit := State.stepUnit_of_due hd (by decide)
    have h6 : c.unit / 256 = 6 := by have code := State.unit_of_due hd; omega
    exact State.engineStep_taken hs unit hd rfl hv (.refl _) hj hw (runFlw_absent_ended unit h6 ha hjob)
  case flow =>
    rintro s inst c job u0 u ws v hs hd hv hp hjob hu0 hf hu hg rfl hj hw
    have unit := State.stepUnit_of_due hd (by decide)
    have h6 : c.unit / 256 = 6 := by have code := State.unit_of_due hd; omega
    have lines := State.fetchRuns_eq hu0 hf
    have second := State.fetchRuns_eq hu hg
    exact State.engineStep_taken hs unit hd rfl hv ((State.fetchRuns_beside unit lines).trans (State.fetchRuns_beside unit second))
      hj hw (runFlw_ended unit h6 hp hjob lines second)
  case feature =>
    rintro s inst c u kept ws v hs hd hv hu hf rfl rfl hj hw
    have unit := State.stepUnit_of_due hd (by decide)
    have shown := State.showMatch_beside inst (State.unit_of_due hd) (s.fetched c) false
    have fetch := State.fetchRuns_eq hu hf
    refine State.engineStep_taken hs unit hd rfl ?_ (shown.trans (State.fetchRuns_beside unit fetch)) hj hw
      (runFeature_ended unit rfl fetch)
    simp [State.op_of_due hd, hv]
  case matchAbsent =>
    rintro s inst c u ws v hs hd hv ha hu hf rfl hj hw
    have unit := State.stepUnit_of_due hd (by decide)
    have shown := State.showMatch_beside inst (State.unit_of_due hd) (s.fetched c) true
    have fetch := State.fetchRuns_eq hu hf
    refine State.engineStep_taken hs unit hd rfl ?_ (shown.trans (State.fetchRuns_beside unit fetch)) hj hw
      (runMatch_absent_ended unit ha fetch)
    simp [hv]
  case matching =>
    rintro s inst c u0 qs u mo ws v hs hd hv hp hu0 hf rfl hu hg hm rfl hj hw
    have unit := State.stepUnit_of_due hd (by decide)
    have shown := State.showMatch_beside inst (State.unit_of_due hd) (s.fetched c) true
    have records := State.fetchRuns_eq hu0 hf
    have flows := State.fetchRuns_eq hu hg
    refine State.engineStep_taken hs unit hd rfl ?_
      (shown.trans ((State.fetchRuns_beside unit records).trans (State.fetchRuns_beside unit flows))) hj hw
      (runMatch_ended unit hp rfl records flows hm)
    simp [hv]

end Sys2Proof.Machine
end

section
/-! SUPPORT. The operations of a Neural Tile (R248 to R252, R265 to R271, R287, R294 to R296): what a compute phase that is due leaves
of the state, and from it the results of each operation. -/

namespace Sys2Proof.Machine

open Sys2Proof

/-- A tile is in its compute phase, has not computed yet, and its step is of an operation. -/
structure State.NtDue (s : State) (n op : Nat) (c : StepCtx) : Prop where
  ctx : s.ctx? (0x0800 + n) = some c
  phase : (s.ntPhase n).1 = 4
  fresh : (s.nt n).computed = false
  oper : leAt (s.nt n).desc 0 1 = op

/-- What the compute phase hands to an operation: the result's descriptor and the three operands, with a tensor of no elements for
one that the step does not use. -/
structure State.NtReads (s : State) (n : Nat) (c : StepCtx) (o : Td) (a b k : Opnd) : Prop where
  result : o = parseTd ((s.nt n).tds.getD 3 [])
  opndA : a = s.ntOperand c 0
  opndB : b = if usesB (s.nt n).desc then s.ntOperand c 1 else ⟨0x47, [1, 1, 1, 1, 1], #[], #[]⟩
  opndC : k = if usesC (s.nt n).desc then s.ntOperand c 2 else ⟨0x47, [1, 1, 1, 1, 1], #[], #[]⟩

/-- The state with a compute phase's results in its tile. -/
def State.ntLeft (s : State) (n : Nat) (out : NtOut) : State :=
  s.modNt n (fun x => { x with computed := true, res := out.res, sat := out.sat, odd := out.odd, idx := out.idx })

section

variable {s : State} {n op : Nat} {c : StepCtx} {o : Td} {a b k : Opnd} {f : TileSt → Td → Opnd → Opnd → Opnd → NtOut}

theorem State.ntCompute_of_due (hd : s.NtDue n op c) (hr : s.NtReads n c o a b k) :
    s.ntCompute n op f = s.ntLeft n (f (s.nt n) o a b k) := by
  obtain ⟨ctx, phase, fresh, oper⟩ := hd
  obtain ⟨rfl, rfl, rfl, rfl⟩ := hr
  simp only [State.ntCompute, ctx, phase, fresh, oper, bne_self_eq_false, Bool.or_self, Bool.false_eq_true, if_false]
  rfl

theorem State.ntCompute_leaves {out : NtOut} (hd : s.NtDue n op c) (hr : s.NtReads n c o a b k) (hf : f (s.nt n) o a b k = out) :
    completes (.next (s.ntCompute n op f)) (fun t => t = s.ntLeft n out) :=
  completes_next (by rw [State.ntCompute_of_due hd hr, hf])

theorem execTopk.i2_of_nfInt (ha : nfInt a.f = true) (l : List Nat) : execTopk.i2 a l = a.int l := by
  rw [execTopk.i2, if_pos ha]

end

/-- Settles O27: a compute phase that is due leaves what its operation's function gives over the operands (`ntCompute_leaves`). For
seven operations that is the statement's result as it stands. In CONV, REDUCE, GATHER, SCATTER and SAMPLE the model splits on a tap
outside A, an empty window, an index out of range and an invalid position, and each case agrees with the statement's option map; TOPK
carries the integer of an element where the statement carries its line. -/
theorem neuralOperations : Obligations.NeuralOperations := by
  unfold Obligations.NeuralOperations
  refine ⟨?matmul, ?conv, ?attention, ?elementwise, ?reduce, ?norm, ?gather, ?scatter, ?sample, ?permute, ?topk, ?nms, ?lut⟩
  case matmul =>
    rintro s tile c d o a b k out ctx phase fresh oper rfl ho ha hb hk rfl
    exact State.ntCompute_leaves ⟨ctx, phase, fresh, oper⟩ ⟨ho, ha, hb, hk⟩ rfl
  case conv =>
    rintro s tile c d o a b k taps out ctx phase fresh oper rfl ho ha hb hk rfl rfl
    refine State.ntCompute_leaves ⟨ctx, phase, fresh, oper⟩ ⟨ho, ha, hb, hk⟩ (congrArg (macAll _ _ _ _ _) (funext fun l => ?_))
    refine congrArg (fun taps => if nfMx a.f then List.flatMap (chunk 32) taps else chunk 32 (List.flatten taps)) ?_
    refine List.flatMap_congr fun ky _ => List.map_congr_left fun kx _ => List.map_congr_left fun ci _ => ?_
    generalize tapPos _ _ _ kx _ _ _ = x, tapPos _ _ _ ky _ _ _ = y
    cases x <;> cases y <;> rfl
  case attention =>
    rintro s tile c d o a b k rows out ctx phase fresh oper rfl ho ha hb hk rfl rfl
    exact State.ntCompute_leaves ⟨ctx, phase, fresh, oper⟩ ⟨ho, ha, hb, hk⟩ rfl
  case elementwise =>
    rintro s tile c d o a b out ctx phase fresh oper rfl ho ha hb rfl
    exact State.ntCompute_leaves ⟨ctx, phase, fresh, oper⟩ ⟨ho, ha, hb, rfl⟩ rfl
  case reduce =>
    rintro s tile c d o a items sums out ctx phase fresh oper rfl ho ha rfl rfl rfl
    refine State.ntCompute_leaves ⟨ctx, phase, fresh, oper⟩ ⟨ho, ha, rfl, rfl⟩ ?_
    dsimp only
    split
    case h_1 sum => rw [sum]; rfl
    case h_2 mean => rw [mean]; rfl
    case h_3 argmax => rw [argmax]; rfl
    case h_4 argmin => rw [argmin]; rfl
    case h_5 notSum notMean notArgmax notArgmin =>
      rw [if_neg notSum, if_neg notMean, if_neg notArgmax, if_neg notArgmin]
      refine ite_congr rfl
        (fun _ => congrArg (fun l => NtOut.plain [intRes o.dims l]) (List.map_congr_left fun window _ => ?_))
        (fun _ => congrArg (fun l => NtOut.plain [fpRes o.dims l]) (List.map_congr_left fun window _ => ?_)) <;>
      cases window <;> rfl
  case norm =>
    rintro s tile c d o a b out ctx phase fresh oper rfl ho ha hb rfl
    exact State.ntCompute_leaves ⟨ctx, phase, fresh, oper⟩ ⟨ho, ha, hb, rfl⟩ rfl
  case gather =>
    rintro s tile c d o a b src out ctx phase fresh oper rfl ho ha hb rfl rfl
    refine State.ntCompute_leaves ⟨ctx, phase, fresh, oper⟩ ⟨ho, ha, hb, rfl⟩ ?_
    dsimp only
    congr <;> funext index <;> cases index <;> rfl
  case scatter =>
    rintro s tile c d o a b k cells out ctx phase fresh oper rfl ho ha hb hk rfl rfl
    refine State.ntCompute_leaves ⟨ctx, phase, fresh, oper⟩ ⟨ho, ha, hb, hk⟩ ?_
    dsimp only
    congr <;> funext r i <;> generalize indexAt _ _ _ _ = index <;> cases index <;> rfl
  case sample =>
    rintro s tile c d o a b out ctx phase fresh oper rfl ho ha hb rfl
    refine State.ntCompute_leaves ⟨ctx, phase, fresh, oper⟩ ⟨ho, ha, hb, rfl⟩ ?_
    dsimp only
    congr
    funext l
    generalize samplePos _ _ _ _ _ _ = position
    cases position <;> rfl
  case permute =>
    rintro s tile c o a out ctx phase fresh oper ho ha rfl
    exact State.ntCompute_leaves ⟨ctx, phase, fresh, oper⟩ ⟨ho, ha, rfl, rfl⟩ rfl
  case topk =>
    rintro s tile c d o a best out ctx phase fresh oper rfl ho ha rfl rfl
    refine State.ntCompute_leaves ⟨ctx, phase, fresh, oper⟩ ⟨ho, ha, rfl, rfl⟩ ?_
    simp only [← List.flatMap_def, List.map_flatMap, List.map_map, Function.comp_def]
    split
    case isTrue int => simp only [execTopk.i2_of_nfInt int]
    case isFalse => rfl
  case nms =>
    rintro s tile c d o a b order kept out ctx phase fresh oper rfl ho ha hb rfl rfl rfl
    exact State.ntCompute_leaves ⟨ctx, phase, fresh, oper⟩ ⟨ho, ha, hb, rfl⟩ rfl
  case lut =>
    rintro s tile c o a out ctx phase fresh oper ho ha rfl
    exact State.ntCompute_leaves ⟨ctx, phase, fresh, oper⟩ ⟨ho, ha, rfl, rfl⟩ rfl

end Sys2Proof.Machine
end

section
/-! SUPPORT. The flag words that the memory controllers show (R344): what reads of MC_FLAG_HI and MC_FLAG_LO return. -/

namespace Sys2Proof.Machine

open Sys2Proof

/-- MC_FLAG_HI shows the selected flag word. -/
theorem State.peekReg_flagHi (s : State) (bank : Nat) :
    s.peekReg bank Reg.MC_FLAG_HI false = w32 ((s.flagWord (s.fld Reg.MC_FLAG_SEL F.MC_FLAG_SEL.FLAG)).toNat / 2 ^ 32) := rfl

/-- MC_FLAG_LO shows the word captured. -/
theorem State.peekReg_flagLo (s : State) (bank : Nat) :
    s.peekReg bank Reg.MC_FLAG_LO false = w32 s.mm.flagHold.toNat := rfl

/-- Settles O59: a read of MC_FLAG_HI captures the word of which it shows the high half, and MC_FLAG_LO shows what is captured. -/
theorem flagReadCapture : Obligations.FlagReadCapture := by
  unfold Obligations.FlagReadCapture
  intro s u bank
  refine completes_next ⟨s.peekReg_flagHi bank, fun held => ?_⟩
  rw [u.peekReg_flagLo bank, held]

end Sys2Proof.Machine
end

section
/-! SUPPORT. The steps of the Block Movers (R333 to R337): what a run leaves of the state in which its stores stand, the bytes it
reads and stores by operation, and the end of a halt. -/

namespace Sys2Proof.Machine

open Sys2Proof

/-! ### What a step reads and stores -/

/-- The runs that a step reads, by plane and line; a fill reads none. -/
def BmDesc.lineRuns (s : State) (c : StepCtx) (b : BmDesc) : List (List (List (Nat × Nat))) :=
  if b.op == 0x61 || b.op == 0x62 then []
  else (List.range b.srcPlanes).map (fun p => (List.range b.srcLines).map (b.srcRuns s c p))

/-- The bytes of runs, by plane and line. -/
def State.readLines (s : State) (lines : List (List (List (Nat × Nat)))) : List (List (List Byte)) :=
  lines.map (fun pl => pl.map (fun rs => rs.flatMap (fun r => s.fetch r.1 r.2)))

/-- The stores of destination planes of lines. -/
def BmDesc.stores (s : State) (c : StepCtx) (b : BmDesc) (planes : List (List (List Byte))) : List (Nat × List Byte) :=
  (planes.mapIdx (fun p ls => ls.mapIdx (fun l x => (b.dstWrites s c p l x).1))).flatten.flatten

/-- The step does not end with DESC_OVERLAP: of a COPY2D or RESHUFFLE, source and destination share no byte (R334). -/
def BmDesc.apart (s : State) (c : StepCtx) (b : BmDesc) : Prop :=
  ((b.op == 0x60 || b.op == 0x64)
    && overlap (b.srcExtent s c).1 (b.srcExtent s c).2 (b.dstExtent s c).1 (b.dstExtent s c).2) = false

section

variable {s u w : State} {c : StepCtx} {d : List Byte} {b : BmDesc}

theorem BmDesc.kept_eq_stores (planes : List (List (List Byte))) :
    (planes.mapIdx (fun p ls => ls.mapIdx (fun l x => b.dstWrites s c p l x))).flatten.flatMap (·.1) = b.stores s c planes := by
  simp only [BmDesc.stores, List.flatMap_def, List.map_flatten, List.mapIdx_eq_zipIdx_map, List.map_map, Function.comp_def]

theorem BmDesc.stores_plane (ls : List (List Byte)) :
    b.stores s c [ls] = (ls.mapIdx (fun l x => (b.dstWrites s c 0 l x).1)).flatten := by
  simp [BmDesc.stores]

theorem BmDesc.stores_replicate (n : Nat) (x : List Byte) :
    b.stores s c [List.replicate n x] = (List.range n).flatMap (fun l => (b.dstWrites s c 0 l x).1) := by
  rw [BmDesc.stores_plane, List.flatMap_def]
  congr 1
  exact List.ext_getElem (by simp) (by simp)

/-! ### The run of a step -/

theorem droppedCnt_mover {unit : Nat} (h : unit / 256 = 9) : droppedCnt unit = none := by
  simp only [droppedCnt, h]

theorem engCnt_mover {unit : Nat} (h : unit / 256 = 9) (m : Nat) : engCnt unit m = Reg.BM_CNT (unit % 256) m := by
  simp only [engCnt, engBase, h, Reg.BM_STATUS, Reg.BM_CNT, beq_self_eq_true, Bool.or_true, if_true]
  omega

theorem stepUnit_mover (mover : Fin 8) : StepUnit (0x0900 + mover.val) := by
  unfold StepUnit
  revert mover
  decide

theorem State.dropStores_beside {n : Nat} {r : State} (h9 : c.unit / 256 = 9) (h : Beside c.unit r s) :
    Beside c.unit r (s.dropStores c n) := by
  unfold State.dropStores
  rw [droppedCnt_mover h9]
  exact .ite h (State.event_beside h)

/-- The run of a step whose operands are apart and whose reads and stores are served completes the step. -/
theorem runBm_ended (hu : StepUnit c.unit) (h9 : c.unit / 256 = 9) (ha : (parseBm d).apart s c)
    (hf : s.fetchRuns c ((parseBm d).lineRuns s c).flatten.flatten = (u, true))
    (hw : u.storeRuns c ((parseBm d).stores u c ((parseBm d).result (u.readLines ((parseBm d).lineRuns s c)))) = (w, true)) :
    StepEnded c (parseBm d).last w (runBm s c d) := by
  unfold runBm
  extract_lets b x y lines
  rw [if_neg (Bool.eq_false_iff.mp ha), show s.fetchRuns c lines.flatten.flatten = (u, true) from hf]
  dsimp only
  rw [BmDesc.kept_eq_stores, ← State.readLines,
    show u.storeRuns c (b.stores u c (b.result (u.readLines lines))) = (w, true) from hw]
  dsimp only
  rw [← engCnt_mover h9]
  exact State.stepDone_ended hu (State.addKilo_beside (State.dropStores_beside h9 (.refl w))) _ _

/-- A mover's step that is due, valid and served is taken, where what it reads and stores is as its operation says. -/
theorem State.moverStep_taken {v : State} {op : Nat} {rs : List (Nat × Nat)} {ws : List (Nat × List Byte)} (mover : Fin 8)
    (hs : s.canonical = true) (hd : stepDue s (0x0900 + mover.val) op c) (hv : bmValid (s.fetched c) c (s.desc c) = true)
    (ha : (parseBm (s.desc c)).apart (s.fetched c) c)
    (hr : ((parseBm (s.desc c)).lineRuns (s.fetched c) c).flatten.flatten = rs)
    (hu : u = ((s.fetched c).fetchRuns c rs).1) (hf : ((s.fetched c).fetchRuns c rs).2 = true)
    (hws : (parseBm (s.desc c)).stores u c
      ((parseBm (s.desc c)).result (u.readLines ((parseBm (s.desc c)).lineRuns (s.fetched c) c))) = ws)
    (hj : v = (u.judgeWrites c.issuer ws).1) (hw : (u.judgeWrites c.issuer ws).2 = none) :
    completes (.next (s.moverStep mover.val op .ok))
      (fun t => t.mem = (v.writes ws).mem ∧ stepTaken s t c (parseBm (s.desc c)).last) := by
  have code := State.unit_of_due hd
  have unit : StepUnit c.unit := code ▸ stepUnit_mover mover
  have fetch := State.fetchRuns_eq hu hf
  subst hr hws
  exact State.engineStep_taken hs unit hd (beq_self_eq_true op) hv (State.fetchRuns_beside unit fetch) hj hw
    (runBm_ended unit (by omega) ha fetch)

/-! ### The operations -/

/-- The operation of a descriptor is its first byte. -/
theorem parseBm_op_of_due {unit op : Nat} (hd : stepDue s unit op c) : (parseBm (s.desc c)).op = op := State.op_of_due hd

/-- An operation that does not reshuffle has one plane at its source. -/
theorem BmDesc.lineRuns_one (h : b.op = 0x60 ∨ b.op = 0x63) :
    b.lineRuns s c = [(List.range b.srcLines).map (b.srcRuns s c 0)] := by
  rcases h with h | h <;> simp [BmDesc.lineRuns, BmDesc.srcPlanes, h]

theorem BmDesc.result_copy (h : b.op = 0x60 ∨ b.op = 0x63) (ls : List (List Byte)) :
    b.result [ls] = [splitLines b.dstLen b.dstLines ls.flatten] := by
  rcases h with h | h <;> simp [BmDesc.result, h]

theorem BmDesc.lineRuns_fill (h : b.op = 0x61 ∨ b.op = 0x62) : b.lineRuns s c = [] := by
  rcases h with h | h <;> simp [BmDesc.lineRuns, h]

theorem BmDesc.result_fill (h : b.op = 0x61 ∨ b.op = 0x62) (planes : List (List (List Byte))) :
    b.result planes = [List.replicate b.dstLines (patternLine b.param b.dstLen)] := by
  rcases h with h | h <;> simp [BmDesc.result, h]

theorem BmDesc.lineRuns_reshuffle (h : b.op = 0x64) :
    b.lineRuns s c = (List.range b.srcPlanes).map (fun p => (List.range b.srcLines).map (b.srcRuns s c p)) := by
  simp [BmDesc.lineRuns, h]

theorem BmDesc.result_reshuffle (h : b.op = 0x64) (planes : List (List (List Byte))) :
    b.result planes = b.reshuffle planes := by
  simp [BmDesc.result, h]

theorem BmDesc.apart_of_op (h : b.op ≠ 0x60 ∧ b.op ≠ 0x64) : b.apart s c := by
  simp [BmDesc.apart, h]

theorem BmDesc.apart_of_extents
    (h : overlap (b.srcExtent s c).1 (b.srcExtent s c).2 (b.dstExtent s c).1 (b.dstExtent s c).2 = false) : b.apart s c := by
  rw [BmDesc.apart, h, Bool.and_false]

end

section

variable {s u v : State} {c : StepCtx} {ws : List (Nat × List Byte)} {op : Nat} {b : BmDesc}

/-- A copy stores the source lines, as one stream, cut into destination lines. -/
theorem State.moverCopy_taken (mover : Fin 8) (hb : b = parseBm (s.desc c)) (ho : op = 0x60 ∨ op = 0x63) (hs : s.canonical = true)
    (hd : stepDue s (0x0900 + mover.val) op c) (hv : bmValid (s.fetched c) c (s.desc c) = true) (ha : b.apart (s.fetched c) c)
    (hu : u = ((s.fetched c).fetchRuns c ((List.range b.srcLines).flatMap (fun l => b.srcRuns (s.fetched c) c 0 l))).1)
    (hf : ((s.fetched c).fetchRuns c ((List.range b.srcLines).flatMap (fun l => b.srcRuns (s.fetched c) c 0 l))).2 = true)
    (hws : ws = ((splitLines b.dstLen b.dstLines ((List.range b.srcLines).flatMap (fun l =>
      (b.srcRuns (s.fetched c) c 0 l).flatMap (fun r => u.fetch r.1 r.2)))).mapIdx (fun l x => (b.dstWrites u c 0 l x).1)).flatten)
    (hj : v = (u.judgeWrites c.issuer ws).1) (hw : (u.judgeWrites c.issuer ws).2 = none) :
    completes (.next (s.moverStep mover.val op .ok)) (fun t => t.mem = (v.writes ws).mem ∧ stepTaken s t c b.last) := by
  subst hb
  have copy := parseBm_op_of_due hd ▸ ho
  refine State.moverStep_taken mover hs hd hv ha ?_ hu hf ?_ hj hw
  · rw [BmDesc.lineRuns_one copy]
    simp [List.flatMap_def]
  · rw [BmDesc.lineRuns_one copy, State.readLines, List.map_singleton, BmDesc.result_copy copy, BmDesc.stores_plane, hws,
      List.map_map, List.flatMap_def]
    rfl

/-- A fill reads nothing and stores the pattern on every line. -/
theorem State.moverFill_taken (mover : Fin 8) (hb : b = parseBm (s.desc c)) (ho : op = 0x61 ∨ op = 0x62) (hs : s.canonical = true)
    (hd : stepDue s (0x0900 + mover.val) op c) (hv : bmValid (s.fetched c) c (s.desc c) = true)
    (hws : ws = (List.range b.dstLines).flatMap (fun l => (b.dstWrites (s.fetched c) c 0 l (patternLine b.param b.dstLen)).1))
    (hj : v = ((s.fetched c).judgeWrites c.issuer ws).1) (hw : ((s.fetched c).judgeWrites c.issuer ws).2 = none) :
    completes (.next (s.moverStep mover.val op .ok)) (fun t => t.mem = (v.writes ws).mem ∧ stepTaken s t c b.last) := by
  subst hb
  have fill := parseBm_op_of_due hd ▸ ho
  refine State.moverStep_taken (u := s.fetched c) (rs := []) mover hs hd hv (BmDesc.apart_of_op (by omega)) ?_ rfl rfl ?_ hj hw
  · rw [BmDesc.lineRuns_fill fill]
    rfl
  · rw [BmDesc.result_fill fill, BmDesc.stores_replicate, hws]

/-- A reshuffle stores each plane of lines that its mode makes of the source planes. -/
theorem State.moverReshuffle_taken {planes : List (List (List Byte))} (mover : Fin 8) (hb : b = parseBm (s.desc c))
    (hs : s.canonical = true) (hd : stepDue s (0x0900 + mover.val) 0x64 c) (hv : bmValid (s.fetched c) c (s.desc c) = true)
    (ha : b.apart (s.fetched c) c)
    (hu : u = ((s.fetched c).fetchRuns c ((List.range b.srcPlanes).flatMap (fun p =>
      (List.range b.srcLines).flatMap (fun l => b.srcRuns (s.fetched c) c p l)))).1)
    (hf : ((s.fetched c).fetchRuns c ((List.range b.srcPlanes).flatMap (fun p =>
      (List.range b.srcLines).flatMap (fun l => b.srcRuns (s.fetched c) c p l)))).2 = true)
    (hp : planes = (List.range b.srcPlanes).map (fun p => (List.range b.srcLines).map (fun l =>
      (b.srcRuns (s.fetched c) c p l).flatMap (fun r => u.fetch r.1 r.2))))
    (hws : ws = b.stores u c (b.reshuffle planes))
    (hj : v = (u.judgeWrites c.issuer ws).1) (hw : (u.judgeWrites c.issuer ws).2 = none) :
    completes (.next (s.moverStep mover.val 0x64 .ok)) (fun t => t.mem = (v.writes ws).mem ∧ stepTaken s t c b.last) := by
  subst hb
  have shuffle := parseBm_op_of_due hd
  refine State.moverStep_taken mover hs hd hv ha ?_ hu hf ?_ hj hw
  · rw [BmDesc.lineRuns_reshuffle shuffle]
    simp [List.flatMap_def, List.flatten_flatten, Function.comp_def]
  · rw [BmDesc.lineRuns_reshuffle shuffle, BmDesc.result_reshuffle shuffle, hws, hp, State.readLines]
    simp [Function.comp_def]

end

/-! ### The end of a halt (R337) -/

/-- BM_RESUME with GO, on a mover that is halted. -/
theorem State.bmResume_ends {s : State} (mover : Fin 8) {value : Word} (hs : s.canonical = true) (hg : value.getLsbD 0 = true)
    (hv : s.flag (Reg.BM_FAULT_HI mover.val) F.BM_FAULT_HI.VALID = true) :
    completes (execBmResume mover value s) (fun t => t.flag (Reg.BM_FAULT_HI mover.val) F.BM_FAULT_HI.VALID = false ∧
      regsKept s t [Reg.BM_FAULT_HI mover.val, Reg.EJ_LOST_CNT, Reg.EJ_EVENT] ∧ t.mem = s.mem) := by
  unfold execBmResume
  dsimp only
  rw [hg, hv]
  refine completes_next ⟨State.flag_setFlag_same _ _ 31 false
    ((State.log_keeps (.refl s)).regs (State.canonical_regs hs)) (by decide), fun a ha => ?_,
    (State.log_same (m0 := 65537) (.refl s) rfl).mem rfl⟩
  simp only [List.mem_cons, List.not_mem_nil, or_false, not_or] at ha
  obtain ⟨hi, lost, event⟩ := ha
  exact (State.reg_setFld_other _ _ _ _ _ (Ne.symm hi)).trans (State.reg_log _ _ _ _ _ _ _ _ _ _ lost event)

theorem State.bmResume_ignored {s : State} (mover : Fin 8) {value : Word}
    (h : value.getLsbD 0 = false ∨ s.flag (Reg.BM_FAULT_HI mover.val) F.BM_FAULT_HI.VALID = false) :
    execBmResume mover value s = .next s := by
  refine if_pos ?_
  rwa [Bool.or_eq_true, Bool.not_eq_true', Bool.not_eq_true']

/-- Settles O25: a step that is due, valid and served is its run (`moverStep_taken`), which reads and stores what its operation
says; the end of a halt changes the latched fault and what its record changes. -/
theorem blockMovers : Obligations.BlockMovers := by
  unfold Obligations.BlockMovers
  refine ⟨?copy2d, ?fill, ?spmFill, ?spmCopy, ?reshuffle, ?resume⟩
  case copy2d =>
    intro s mover c u ws v hs hd hv ho
    exact State.moverCopy_taken mover rfl (.inl rfl) hs hd hv (BmDesc.apart_of_extents ho)
  case fill => exact fun s mover c ws v => State.moverFill_taken mover rfl (.inl rfl)
  case spmFill => exact fun s mover c ws v => State.moverFill_taken mover rfl (.inr rfl)
  case spmCopy =>
    intro s mover c u ws v hs hd hv
    have op := parseBm_op_of_due hd
    exact State.moverCopy_taken mover rfl (.inr rfl) hs hd hv (BmDesc.apart_of_op (by omega))
  case reshuffle =>
    intro s mover c u planes ws v hs hd hv ho
    exact State.moverReshuffle_taken mover rfl hs hd hv (BmDesc.apart_of_extents ho)
  case resume =>
    intro s mover value hs
    by_cases idle : value.getLsbD 0 = false ∨ s.flag (Reg.BM_FAULT_HI mover.val) F.BM_FAULT_HI.VALID = false
    case pos =>
      exact ⟨s, State.bmResume_ignored mover idle, fun go => idle.resolve_left (Bool.not_eq_false _ ▸ go), fun _ => rfl,
        fun _ _ => rfl, rfl⟩
    case neg =>
      have both := not_or.mp idle
      rw [Bool.not_eq_false, Bool.not_eq_false] at both
      obtain ⟨t, ht, valid, kept, mem⟩ := State.bmResume_ends mover hs both.1 both.2
      exact ⟨t, ht, fun _ => valid, fun h => absurd h idle, kept, mem⟩

end Sys2Proof.Machine
end

section
/-! SUPPORT. Accesses of the Policy Cores (R303, R368, R506): what a load through the fabric comes to that meets an uncorrectable
word, and a state in which the return address of its trap goes to a counter of the Frame Store. -/

namespace Sys2Proof.Machine

open Sys2Proof

section

variable {s u v : State} {n g a : Nat}

theorem State.coreView_high {bank : Nat} (hn : n < 4) (ha : 0x80000000 ≤ a) : s.coreView n bank a = s.aperture n bank a := by
  have own : ownOffset n a = none := by
    unfold ownOffset
    rw [if_neg (by omega), if_neg (by simp only [Bool.and_eq_true, decide_eq_true_eq]; omega)]
  have low : ∀ b k, b + k ≤ 0x80000000 → ¬ inRange a b k = true := fun b k hk => by
    simp only [inRange, Bool.and_eq_true, decide_eq_true_eq]
    omega
  unfold State.coreView
  rw [own]
  dsimp only
  rw [if_neg (low _ _ (by decide)), if_neg (low _ _ (by decide)), if_pos (decide_eq_true ha)]

/-- The place that an enabled aperture reaches, outside register space. -/
theorem State.aperture_fabric {bank : Nat}
    (he : s.flag (Reg.SYS_PC_AP n bank ((a - 0x80000000) / 0x20000000)) F.SYS_PC_AP.ENABLE = true)
    (hg : s.place (s.fld (Reg.SYS_PC_AP n bank ((a - 0x80000000) / 0x20000000)) F.SYS_PC_AP.BASE * 2 ^ 29
      + (a - 0x80000000) % 0x20000000) = g) (hr : inRange g addrReg 0xC00000 = false) : s.aperture n bank a = .fabric g := by
  unfold State.aperture
  dsimp only
  rw [he, hg, hr]
  rfl

/-- A load that is served but meets an uncorrectable word ends with an error response (R303), which traps. -/
theorem exec_fabricLoad_uncorrectable {pair : Fin 4} {rd : Fin 32} {pc addr value : Word} {size : Fin 3} {ecc : List EccHit}
    {fp zext : Bool} {bad : Nat} {c : Issuer}
    (hc : c = ⟨0x0B00 + pair.val, s.bankDomain pair.val (s.core pair.val).bank, false⟩)
    (hr : ((s.core pair.val).halted || (s.unit (0x0B00 + pair.val)).fenced || !s.coreUp) = false)
    (hv : s.coreView pair.val (s.core pair.val).bank addr.toNat = .fabric g) (ha : addr.toNat % accBytes size = 0)
    (hj : s.judgeReads c [(g, accBytes size)] false = (u, none))
    (he : u.eccHits c (s.bankSeq pair.val (s.core pair.val).bank) ecc = (v, some bad)) :
    exec (.pcDataAccess pair (.load fp zext) rd pc addr value size ecc) s =
      .next ((v.endRemote (0x0B00 + pair.val)).trap pair.val 5 pc) := by
  subst hc
  change execPcDataAccess pair (.load fp zext) rd pc addr value size ecc s = _
  have nonatomic : atomicKind (.load fp zext) = false := rfl
  have data : (AccessKind.load fp zext == .fetch) = false := rfl
  simp only [execPcDataAccess, hr, hv, ha, nonatomic, data, State.fabricAccess, hj, he, faultCause, bne_self_eq_false,
    Bool.or_self, Bool.false_eq_true, if_false]

end

/-- A pair has three firmware banks, whose EPC registers lie one after another (spec/15): that of a bank 0xBFF81 of pair 0 would be
the counter of uncorrectable Frame Store words. -/
theorem bankEpc_fsCnt : Reg.SYS_PC_BANK_EPC 0 0xBFF81 = Reg.MC_FS_CNT 1 := rfl

/-! ### A core in a bank that no pair has -/

namespace StrayBank

/-- The first word of the Frame Store, which the error correction finds uncorrectable. -/
def ecc : List EccHit := [⟨addrFs, true⟩]

/-- The core is out of reset, pair 0 runs in bank 0xBFF81, and that bank's first aperture is over the Frame Store. -/
def state : State :=
  { State.reset with
    kin := { State.reset.kin with porstLow := false, coreReset := false }
    cores := State.reset.cores.set 0 { CoreSt.zero with bank := 0xBFF81 }
    regs := [(Reg.SYS_PC_AP 0 0xBFF81 0, 0x80000008)] }

/-- The bank's DOMAIN is read from the counter of corrected words, which is 0. -/
def issuer : Issuer := ⟨0x0B00, 0, false⟩

theorem state_canonical : state.canonical = true := by decide

theorem state_issuer : issuer = ⟨0x0B00, state.bankDomain 0 0xBFF81, false⟩ := by decide

theorem state_view : state.coreView 0 0xBFF81 0x80000000 = .fabric addrFs :=
  (State.coreView_high (by decide) (by decide)).trans (State.aperture_fabric (by decide) (by decide) (by decide))

theorem state_served : state.judgeReads issuer [(addrFs, 4)] false = (state, none) := rfl

/-- The state after the load's trap. -/
def ended : State := (((state.eccHits issuer 0 ecc).1).endRemote 0x0B00).trap 0 5 0x100

theorem exec_load : exec (.pcDataAccess 0 (.load false false) 5 0x100 0x80000000 0 2 ecc) state = .next ended :=
  exec_fabricLoad_uncorrectable state_issuer rfl state_view rfl state_served rfl

/-- The return address, over all bits but the lowest of the count of 1. -/
theorem ended_epc : (ended.reg (Reg.SYS_PC_BANK_EPC 0 0xBFF81)).toNat = 0x101 := by decide

theorem not_counted_ended : ¬ counted state ended (Reg.MC_FS_CNT 1) 1 := by
  unfold counted
  rw [← bankEpc_fsCnt, ended_epc]
  decide

end StrayBank

/-- Refutes O49: no hypothesis of the clause on uncorrectable words bounds the current bank. In a bank 0xBFF81, whose EPC is the
counter of those words (`bankEpc_fsCnt`), a load that meets one counts it, and its trap then puts the return address 0x100 into
the counter. -/
theorem not_coreAccesses : ¬ Obligations.CoreAccesses := by
  unfold Obligations.CoreAccesses
  intro ⟨_, _, _, _, _, _, _, _, _, _, _, _, _, _, _, _, _, _, _, _, _, _, uncorrectable⟩
  have served := congrArg Prod.snd StrayBank.state_served
  rw [StrayBank.state_issuer] at served
  obtain ⟨t, ht, _, _, _, counts, _, _⟩ := uncorrectable StrayBank.state 0 5 0x100 0x80000000 0 2 StrayBank.ecc false
    addrFs addrFs StrayBank.state_canonical rfl rfl rfl rfl StrayBank.state_view rfl served rfl rfl rfl rfl rfl
  obtain rfl : StrayBank.ended = t := Host.Outcome.next.inj (StrayBank.exec_load.symm.trans ht)
  exact StrayBank.not_counted_ended counts

end Sys2Proof.Machine
end

section
/-! SUPPORT. The read of the Timeline (R352): what a capture leaves in the initiators' banks of TL_NOW_LO, and what TL_NOW_HI and
TL_NOW_LO show. -/

namespace Sys2Proof.Machine

open Sys2Proof

theorem State.reg_captureNow_other (s : State) {bank a : Nat} (h : bankOff bank Reg.TL_NOW_LO ≠ a) :
    (s.captureNow bank).reg a = s.reg a :=
  s.reg_setReg_other _ h

theorem State.reg_captureNow_same {s : State} (bank : Nat) (h : regsWf s.regs = true) :
    (s.captureNow bank).reg (bankOff bank Reg.TL_NOW_LO) = w32 s.now :=
  s.reg_setReg_same _ _ h

theorem State.captureNow_now (s : State) (bank : Nat) : (s.captureNow bank).now = s.now := s.setReg_now _ _

theorem bankOff_ne {b c : Nat} (a : Nat) (h : b ≠ c) : bankOff b a ≠ bankOff c a := by
  unfold bankOff
  omega

/-- Captured one after another, the banks all hold the low half of one Timeline value. -/
theorem State.reg_captures {l : List Nat} {b : Nat} {s : State} (h : regsWf s.regs = true) (hb : b ∈ l) :
    (l.foldl (fun (s : State) b => s.captureNow b) s).reg (bankOff b Reg.TL_NOW_LO) = w32 s.now := by
  induction l generalizing s with
  | nil => cases hb
  | cons c l ih =>
    rw [List.foldl_cons]
    by_cases hl : b ∈ l
    · have wf : regsWf (s.captureNow c).regs = true := State.setReg_regsWf s _ _ h
      rw [← s.captureNow_now c]
      exact ih wf hl
    · obtain rfl : b = c := (List.mem_cons.mp hb).resolve_right hl
      have later : ∀ u : State, ∀ x ∈ l, (u.captureNow x).reg (bankOff b Reg.TL_NOW_LO) = u.reg (bankOff b Reg.TL_NOW_LO) :=
        fun u x hx => u.reg_captureNow_other (bankOff_ne _ fun e => hl (e ▸ hx))
      exact (State.reg_foldl later).trans (State.reg_captureNow_same b h)

/-- TL_NOW_HI shows the high half of the Timeline. -/
theorem State.peekReg_nowHi (s : State) (bank : Nat) : s.peekReg bank Reg.TL_NOW_HI false = w32 (s.now / 2 ^ 32) := rfl

/-- TL_NOW_LO shows an initiator what its own bank holds. -/
theorem State.peekReg_nowLo (s : State) (bank : Nat) :
    s.peekReg bank Reg.TL_NOW_LO false = s.reg (bankOff bank Reg.TL_NOW_LO) := by
  have shown : s.peekReg bank Reg.TL_NOW_LO false = 0 ||| (s.reg (bankOff bank Reg.TL_NOW_LO) &&& (⟨31, 0⟩ : Bits).mask) := rfl
  have whole : (⟨31, 0⟩ : Bits).mask = BitVec.allOnes 32 := by decide
  rw [shown, whole, BitVec.and_allOnes]
  exact BitVec.zero_or

theorem State.readEffect_nowHi (s : State) (bank : Nat) : s.readEffect bank Reg.TL_NOW_HI = s.captureNow bank := rfl

/-- Settles O58: a read of TL_NOW_HI captures the low half in the reader's bank alone, and TL_NOW_LO shows what that bank holds. -/
theorem timelineReadCapture : Obligations.TimelineReadCapture := by
  unfold Obligations.TimelineReadCapture
  rintro s t u bank rfl
  rw [s.readEffect_nowHi]
  refine ⟨s.peekReg_nowHi bank, fun held hs => ?_, fun b hb => ?_⟩
  · rw [u.peekReg_nowLo, held, State.reg_captureNow_same bank (State.canonical_regs hs)]
  · exact s.reg_captureNow_other (bankOff_ne _ fun h => hb (Fin.ext h.symm))

end Sys2Proof.Machine
end

section
/-! SUPPORT. The Timeline's servo (R347, R348): what an update shows, acquires, corrects and locks, and what its timeouts enter. -/

namespace Sys2Proof.Machine

open Sys2Proof

/-! ### Registers and their fields -/

theorem State.fld_eq_of_reg {s t : State} {a : Nat} (h : t.reg a = s.reg a) (b : Bits) : t.fld a b = s.fld a b :=
  congrArg b.get h

theorem State.flag_eq_of_reg {s t : State} {a : Nat} (h : t.reg a = s.reg a) (b : Bits) : t.flag a b = s.flag a b :=
  congrArg (· != 0) (State.fld_eq_of_reg h b)

/-! ### States of the Timeline (R347) -/

section

variable {s : State}

/-- FREE_RUN, HOLDOVER or LOST. -/
def State.unsteered (s : State) : Prop := s.tlState = 0 ∨ s.tlState = 3 ∨ s.tlState = 4

/-- Entering a state of the Timeline writes STATE; its record can only touch the journal's registers. -/
theorem State.reg_enterTl (s : State) (st : Nat) {a : Nat} (h1 : a ≠ Reg.EJ_LOST_CNT) (h2 : a ≠ Reg.EJ_EVENT) :
    (s.enterTl st).reg a = (s.setFld Reg.TL_STATUS F.TL_STATUS.STATE st).reg a :=
  State.reg_log _ _ _ _ _ _ _ _ _ _ h1 h2

theorem State.reg_enterTl_other (s : State) (st : Nat) {a : Nat} (h1 : a ≠ Reg.EJ_LOST_CNT) (h2 : a ≠ Reg.EJ_EVENT)
    (h3 : Reg.TL_STATUS ≠ a) : (s.enterTl st).reg a = s.reg a :=
  (s.reg_enterTl st h1 h2).trans (s.reg_setFld_other _ _ _ _ h3)

theorem State.tlState_enterTl {st : Nat} (h : regsWf s.regs = true) (hst : st < 8) : (s.enterTl st).tlState = st :=
  calc (s.enterTl st).tlState
      = (s.setFld Reg.TL_STATUS F.TL_STATUS.STATE st).fld Reg.TL_STATUS F.TL_STATUS.STATE :=
        State.fld_eq_of_reg (s.reg_enterTl st (by decide) (by decide)) _
    _ = st % 8 := s.fld_setFld_same _ _ _ h (by decide)
    _ = st := Nat.mod_eq_of_lt hst

theorem State.fld_enterTl {b : Bits} (h : regsWf s.regs = true) (st : Nat) (hb : b.ok = true)
    (ha : F.TL_STATUS.STATE.apart b = true) : (s.enterTl st).fld Reg.TL_STATUS b = s.fld Reg.TL_STATUS b :=
  (State.fld_eq_of_reg (s.reg_enterTl st (by decide) (by decide)) _).trans (s.fld_setFld_field _ _ _ _ h hb ha)

theorem State.enterTl_kept (s : State) (st : Nat) : Same 0x10001 s (s.enterTl st) := State.enterTl_same (.refl s) rfl

theorem State.enterTl_regsWf (h : regsWf s.regs = true) (st : Nat) : regsWf (s.enterTl st).regs = true :=
  (State.enterTl_keeps (.refl s)).regs h

/-- A state entered with an event of the Timeline: both can be read afterwards. -/
theorem State.enterTl_event {st i : Nat} (h : regsWf s.regs = true) (hst : st < 8) (hi : i < 32) :
    ((s.enterTl st).event Reg.TL_EVENT ⟨i, i⟩).tlState = st ∧
      ((s.enterTl st).event Reg.TL_EVENT ⟨i, i⟩).flag Reg.TL_EVENT ⟨i, i⟩ = true :=
  ⟨(State.fld_setFld_other _ _ _ _ _ _ (by decide)).trans (State.tlState_enterTl h hst),
    State.flag_event_same _ _ i (State.enterTl_regsWf h st) hi⟩

/-! ### What an update shows (R347) -/

/-- A source heard changes no more than the instants at which the sources last delivered time. -/
theorem State.hearSource_eq (s : State) (source : Nat) :
    ∃ p b, (s.hearSource source).1 = s.modTl (fun t => { t with primaryAt := p, backupAt := b }) := by
  unfold State.hearSource
  split
  · exact ⟨_, _, rfl⟩
  · split
    · exact ⟨_, _, rfl⟩
    · split <;> exact ⟨_, _, rfl⟩

theorem State.hearSource_unused {source : Nat}
    (h : source = 0 ∨ (source ≠ s.fld Reg.TL_CTRL F.TL_CTRL.PRIMARY ∧ source ≠ s.fld Reg.TL_CTRL F.TL_CTRL.BACKUP)) :
    s.hearSource source = (s, false) := by
  unfold State.hearSource
  rcases h with h | ⟨hp, hb⟩
  · rw [if_pos (beq_iff_eq.mpr h)]
  · rw [if_neg (c := (source == s.fld Reg.TL_CTRL F.TL_CTRL.PRIMARY) = true) (by simpa using hp),
      if_neg (c := (source == s.fld Reg.TL_CTRL F.TL_CTRL.BACKUP) = true) (by simpa using hb), ite_self]

theorem State.showSource_kept (s : State) (source : Nat) (offset : Int) : Same 1 s (s.showSource source offset) :=
  State.showSource_same (.refl s) rfl

theorem State.showSource_regsWf (h : regsWf s.regs = true) (source : Nat) (offset : Int) :
    regsWf (s.showSource source offset).regs = true :=
  (State.showSource_keeps (.refl s)).regs h

theorem State.reg_showSource_other (s : State) (source : Nat) (offset : Int) {a : Nat} (h1 : Reg.TL_STATUS ≠ a)
    (h2 : Reg.TL_EVENT ≠ a) : (s.showSource source offset).reg a = s.reg a := by
  unfold State.showSource
  refine (State.reg_setFld_other _ _ _ _ _ h1).trans ?_
  split
  · rfl
  · exact (State.reg_setFld_other _ _ _ _ _ h2).trans (State.reg_setFld_other _ _ _ _ _ h1)

/-- The source in use and the offset as they are shown; the state of the Timeline stays. -/
theorem State.showSource_fields {source : Nat} (h : regsWf s.regs = true) (hs : source < 8) (offset : Int) :
    (s.showSource source offset).fld Reg.TL_STATUS F.TL_STATUS.SOURCE = source ∧
      (s.showSource source offset).fld Reg.TL_STATUS F.TL_STATUS.OFFSET = unsigned 16 (clampI (-32767) 32767 offset) ∧
      (s.showSource source offset).tlState = s.tlState := by
  have hoff : unsigned 16 (clampI (-32767) 32767 offset) % 2 ^ 16 = unsigned 16 (clampI (-32767) 32767 offset) :=
    Nat.mod_eq_of_lt (by unfold unsigned; omega)
  unfold State.showSource State.tlState
  split
  case isTrue same =>
    exact ⟨(s.fld_setFld_field _ _ _ _ h (by decide) (by decide)).trans (beq_iff_eq.mp same),
      (s.fld_setFld_same _ _ _ h (by decide)).trans hoff, s.fld_setFld_field _ _ _ _ h (by decide) (by decide)⟩
  case isFalse =>
    have h1 := State.setFld_regsWf s Reg.TL_STATUS F.TL_STATUS.SOURCE source h
    have h2 := State.setFld_regsWf _ Reg.TL_EVENT F.TL_EVENT.SOURCE_CHANGE 1 h1
    refine ⟨?_, (State.fld_setFld_same _ _ _ _ h2 (by decide)).trans hoff, ?_⟩
    · calc _ = _ := State.fld_setFld_field _ _ _ _ _ h2 (by decide) (by decide)
        _ = _ := State.fld_setFld_other _ _ _ _ _ _ (by decide)
        _ = source % 8 := s.fld_setFld_same _ _ _ h (by decide)
        _ = source := Nat.mod_eq_of_lt hs
    · calc _ = _ := State.fld_setFld_field _ _ _ _ _ h2 (by decide) (by decide)
        _ = _ := State.fld_setFld_other _ _ _ _ _ _ (by decide)
        _ = _ := s.fld_setFld_field _ _ _ _ h (by decide) (by decide)

/-- An update brings FREE_RUN, HOLDOVER and LOST to ACQUIRING, which starts its counts afresh. -/
def State.acquire (s : State) : State :=
  if s.tlState == tlFree || s.tlState == tlHoldover || s.tlState == tlLost then
    (s.modTl (fun t => { t with good := 0, beyond := 0, heldFrom := none })).enterTl tlAcquiring
  else s

theorem State.acquire_of_unsteered (h : s.unsteered) :
    s.acquire = (s.modTl (fun t => { t with good := 0, beyond := 0, heldFrom := none })).enterTl tlAcquiring :=
  if_pos (by simpa [tlFree, tlHoldover, tlLost, State.unsteered, or_assoc] using h)

theorem State.acquire_of_steered (h : ¬ s.unsteered) : s.acquire = s :=
  if_neg (by simpa [tlFree, tlHoldover, tlLost, State.unsteered, or_assoc] using h)

/-- The state that an update corrects: what it takes from the state in which it arrives. -/
structure Steered (s w : State) (source : Nat) (offset : Int) : Prop where
  wf : regsWf w.regs = true
  source : w.fld Reg.TL_STATUS F.TL_STATUS.SOURCE = source
  offset : w.fld Reg.TL_STATUS F.TL_STATUS.OFFSET = unsigned 16 (clampI (-32767) 32767 offset)
  ctrl : w.reg Reg.TL_CTRL = s.reg Reg.TL_CTRL
  now : w.now = s.now
  free : w.free = s.free
  measured : w.tl.measured = s.tl.measured
  acquires : s.unsteered → w.tlState = 1 ∧ w.tl.good = 0 ∧ w.tl.beyond = 0
  stays : ¬ s.unsteered → w.tlState = s.tlState ∧ w.tl.good = s.tl.good ∧ w.tl.beyond = s.tl.beyond

/-- What the servo shows of a source that it uses, and acquiring, make up all that comes before the correction. -/
theorem State.acquire_steered {source : Nat} (h : regsWf s.regs = true) (hs : source < 8) (offset : Int) :
    Steered s ((s.hearSource source).1.showSource source offset).acquire source offset := by
  obtain ⟨p, b, heard⟩ := s.hearSource_eq source
  rw [heard]
  set q := (s.modTl (fun t => { t with primaryAt := p, backupAt := b })).showSource source offset
  obtain ⟨hsource, hoffset, hstate⟩ : q.fld Reg.TL_STATUS F.TL_STATUS.SOURCE = source ∧
    q.fld Reg.TL_STATUS F.TL_STATUS.OFFSET = unsigned 16 (clampI (-32767) 32767 offset) ∧ q.tlState = s.tlState :=
    State.showSource_fields (s := s.modTl _) h hs offset
  have kept : Same 1 (s.modTl _) q := State.showSource_kept _ source offset
  have measured : q.tl.measured = s.tl.measured := (congrArg TimeSt.measured (kept.tl rfl)).trans rfl
  have wf : regsWf q.regs = true := State.showSource_regsWf (s := s.modTl _) h source offset
  have ctrl : q.reg Reg.TL_CTRL = s.reg Reg.TL_CTRL := State.reg_showSource_other (s.modTl _) _ _ (by decide) (by decide)
  have steered : q.unsteered ↔ s.unsteered := by unfold State.unsteered; rw [hstate]
  by_cases hst : s.unsteered
  · rw [State.acquire_of_unsteered (steered.mpr hst)]
    have kept' := State.enterTl_kept (q.modTl (fun t => { t with good := 0, beyond := 0, heldFrom := none })) tlAcquiring
    exact {
      wf := State.enterTl_regsWf (s := q.modTl _) wf _
      source := (State.fld_enterTl (s := q.modTl _) wf _ (by decide) (by decide)).trans hsource
      offset := (State.fld_enterTl (s := q.modTl _) wf _ (by decide) (by decide)).trans hoffset
      ctrl := (State.reg_enterTl_other (q.modTl _) _ (by decide) (by decide) (by decide)).trans ctrl
      now := (kept'.now rfl).trans (kept.now rfl)
      free := (kept'.free rfl).trans (kept.free rfl)
      measured := (congrArg TimeSt.measured (kept'.tl rfl)).trans measured
      acquires := fun _ => ⟨State.tlState_enterTl (s := q.modTl _) wf (by decide), congrArg TimeSt.good (kept'.tl rfl),
        congrArg TimeSt.beyond (kept'.tl rfl)⟩
      stays := fun hn => absurd hst hn }
  · rw [State.acquire_of_steered (mt steered.mp hst)]
    exact {
      wf := wf
      source := hsource
      offset := hoffset
      ctrl := ctrl
      now := kept.now rfl
      free := kept.free rfl
      measured := measured
      acquires := fun hu => absurd hu hst
      stays := fun _ => ⟨hstate, (congrArg TimeSt.good (kept.tl rfl)).trans rfl,
        (congrArg TimeSt.beyond (kept.tl rfl)).trans rfl⟩ }

/-! ### Corrections (R348) -/

/-- An offset beyond STEP_THRESH_US. -/
def State.isFar (s : State) (offset : Int) : Bool :=
  decide ((s.fld Reg.TL_CTRL F.TL_CTRL.STEP_THRESH_US * 1000 : Int) < (offset.natAbs : Int))

theorem State.correct_of_step {offset : Int} (h : s.tl.measured = false ∨ (s.isFar offset = true ∧ 3 ≤ s.tl.beyond + 1)) :
    s.correct offset = (s.modTl (fun t => { t with measured := true, beyond := 0 })).stepTime offset := by
  refine if_pos ?_
  rcases h with h | ⟨far, third⟩
  · rw [h]
    rfl
  · rw [show decide ((s.fld Reg.TL_CTRL F.TL_CTRL.STEP_THRESH_US * 1000 : Int) < (offset.natAbs : Int)) = true from far,
      if_pos rfl, decide_eq_true third, Bool.or_true]

theorem State.correct_of_slew {offset : Int} (hm : s.tl.measured = true) (h : s.isFar offset = false ∨ s.tl.beyond + 1 < 3) :
    s.correct offset = (s.modTl (fun t => { t with beyond := if s.isFar offset then s.tl.beyond + 1 else 0 })).slew := by
  refine if_neg ?_
  change ¬ (!s.tl.measured || decide (3 ≤ if s.isFar offset then s.tl.beyond + 1 else 0)) = true
  have third : ¬ 3 ≤ if s.isFar offset then s.tl.beyond + 1 else 0 := by
    rcases h with h | h
    · simp [h]
    · split <;> omega
  simp [hm, third]

theorem State.stepTime_kept (s : State) (d : Int) : Same 0x10001 (s.shiftTime d) (s.stepTime d) :=
  State.log_same (State.event_same (State.addFld_same (.refl _) rfl) rfl) rfl

theorem State.stepTime_now (s : State) (d : Int) : (s.stepTime d).now = shiftNat d s.now := (s.stepTime_kept d).now rfl

theorem State.reg_stepTime (s : State) (d : Int) : (s.stepTime d).reg Reg.TL_STATUS = s.reg Reg.TL_STATUS :=
  (State.reg_log _ _ _ _ _ _ _ _ _ _ (by decide) (by decide)).trans <|
    (State.reg_setFld_other _ _ _ _ _ (by decide)).trans (State.reg_setFld_other (s.shiftTime d) _ _ _ _ (by decide))

theorem State.flag_stepTime (h : regsWf s.regs = true) (d : Int) : (s.stepTime d).flag Reg.TL_EVENT F.TL_EVENT.STEP = true :=
  (State.flag_eq_of_reg (State.reg_log _ _ _ _ _ _ _ _ _ _ (by decide) (by decide)) _).trans <|
    State.flag_event_same _ _ 0 (State.setFld_regsWf (s.shiftTime d) _ _ _ h) (by decide)

/-- The first offset since kindling, and the third in a row beyond the threshold, step the Timeline. -/
theorem State.correct_steps {offset : Int} (h : regsWf s.regs = true)
    (hs : s.tl.measured = false ∨ (s.isFar offset = true ∧ 3 ≤ s.tl.beyond + 1)) :
    (s.correct offset).now = shiftNat offset s.now ∧ (s.correct offset).tl.measured = true ∧
      (s.correct offset).tl.beyond = 0 ∧
      (s.correct offset).flag Reg.TL_EVENT F.TL_EVENT.STEP = true := by
  rw [State.correct_of_step hs]
  have tl := (State.stepTime_kept (s.modTl (fun t => { t with measured := true, beyond := 0 })) offset).tl rfl
  exact ⟨State.stepTime_now (s.modTl _) offset, (congrArg TimeSt.measured tl).trans rfl, (congrArg TimeSt.beyond tl).trans rfl,
    State.flag_stepTime (s := s.modTl _) h offset⟩

/-- Any other offset draws a rate. -/
theorem State.correct_slews {offset : Int} (hm : s.tl.measured = true) (hs : s.isFar offset = false ∨ s.tl.beyond + 1 < 3) :
    (s.correct offset).now = s.now ∧ (s.correct offset).free = s.free + 1 := by
  rw [State.correct_of_slew hm hs]
  exact ⟨rfl, rfl⟩

/-- A correction shows nothing in TL_STATUS, and counts no update within 100 ns. -/
theorem State.correct_status (s : State) (offset : Int) :
    (s.correct offset).reg Reg.TL_STATUS = s.reg Reg.TL_STATUS ∧ (s.correct offset).tl.good = s.tl.good := by
  unfold State.correct
  extract_lets beyond far
  split
  · exact ⟨State.reg_stepTime (s.modTl _) offset, (congrArg TimeSt.good ((State.stepTime_kept _ offset).tl rfl)).trans rfl⟩
  · exact ⟨State.reg_setReg_other (s.modTl _).draw.2 _ (by decide), rfl⟩

/-! ### Locking (R347) -/

/-- The consecutive updates within 100 ns, with that of an offset. -/
def State.goodAfter (s : State) (offset : Int) : Nat := if decide (offset.natAbs ≤ 100) then s.tl.good + 1 else 0

theorem State.eight_le_goodAfter {offset : Int} : 8 ≤ s.goodAfter offset ↔ offset.natAbs ≤ 100 ∧ 8 ≤ s.tl.good + 1 := by
  unfold State.goodAfter
  by_cases near : offset.natAbs ≤ 100
  · rw [if_pos (decide_eq_true near), and_iff_right near]
  · rw [if_neg (by simpa using near)]
    omega

theorem State.lockWatch_locks {offset : Int} (hst : s.tlState = 1) (h : 8 ≤ s.goodAfter offset) :
    s.lockWatch offset = ((s.modTl (fun t => { t with good := s.goodAfter offset })).enterTl tlLocked).setFlag Reg.TL_STATUS
      F.TL_STATUS.EVER_LOCKED true := by
  refine if_pos ?_
  rw [show (s.modTl _).tlState = 1 from hst,
    show decide (8 ≤ if decide (offset.natAbs ≤ 100) then s.tl.good + 1 else 0) = true from decide_eq_true h]
  rfl

theorem State.lockWatch_stays {offset : Int} (h : ¬ (s.tlState = 1 ∧ 8 ≤ s.goodAfter offset)) :
    s.lockWatch offset = s.modTl (fun t => { t with good := s.goodAfter offset }) := by
  refine if_neg fun hc => h ?_
  rw [Bool.and_eq_true] at hc
  exact ⟨beq_iff_eq.mp hc.1, of_decide_eq_true hc.2⟩

/-- What the watch for lock leaves: the other fields of TL_STATUS, the events, and what a correction noted. -/
theorem State.lockWatch_kept (h : regsWf s.regs = true) (offset : Int) :
    (∀ b : Bits, b.ok = true → F.TL_STATUS.STATE.apart b = true → F.TL_STATUS.EVER_LOCKED.apart b = true →
      (s.lockWatch offset).fld Reg.TL_STATUS b = s.fld Reg.TL_STATUS b) ∧
      (s.lockWatch offset).reg Reg.TL_EVENT = s.reg Reg.TL_EVENT ∧
      (s.lockWatch offset).tl = { s.tl with good := s.goodAfter offset } := by
  by_cases hl : s.tlState = 1 ∧ 8 ≤ s.goodAfter offset
  · rw [State.lockWatch_locks hl.1 hl.2]
    have wf := State.enterTl_regsWf (s := s.modTl (fun t => { t with good := s.goodAfter offset })) h tlLocked
    exact ⟨fun b hb hs he => (State.fld_setFld_field _ _ _ _ _ wf hb he).trans (State.fld_enterTl (s := s.modTl _) h _ hb hs),
      (State.reg_setFld_other _ _ _ _ _ (by decide)).trans
        (State.reg_enterTl_other (s.modTl _) _ (by decide) (by decide) (by decide)),
      (State.enterTl_kept (s.modTl _) _).tl rfl⟩
  · rw [State.lockWatch_stays hl]
    exact ⟨fun _ _ _ _ => rfl, rfl, rfl⟩

theorem State.lockWatch_locked {offset : Int} (h : regsWf s.regs = true) (hst : s.tlState = 1) (hg : 8 ≤ s.goodAfter offset) :
    (s.lockWatch offset).tlState = 2 ∧ (s.lockWatch offset).flag Reg.TL_STATUS F.TL_STATUS.EVER_LOCKED = true := by
  rw [State.lockWatch_locks hst hg]
  have wf := State.enterTl_regsWf (s := s.modTl (fun t => { t with good := s.goodAfter offset })) h tlLocked
  exact ⟨(State.fld_setFld_field _ _ _ _ _ wf (by decide) (by decide)).trans
      (State.tlState_enterTl (s := s.modTl _) h (by decide)),
    State.flag_setFlag_same _ _ 11 true wf (by decide)⟩

theorem State.lockWatch_tlState {offset : Int} (h : ¬ (s.tlState = 1 ∧ 8 ≤ s.goodAfter offset)) :
    (s.lockWatch offset).tlState = s.tlState := by
  rw [State.lockWatch_stays h]
  rfl

/-! ### The commands -/

theorem execTlServoUpdate_of_used {source : Fin 8} (offset : Int) (hp : s.kin.porstLow = false)
    (hu : (s.hearSource source.val).2 = true) :
    execTlServoUpdate source offset s =
      .next ((((s.hearSource source.val).1.showSource source.val offset).acquire.correct offset).lockWatch offset) := by
  unfold execTlServoUpdate
  rw [hp, if_neg (by decide)]
  dsimp only
  rw [hu, if_pos rfl]
  rfl

end

/-- Settles O35: an update shows its source, acquires (`Steered`), corrects (`correct_steps`, `correct_slews`) and watches for lock
(`lockWatch_kept`); a timeout enters its state with its event; a read captures every bank (`reg_captures`). -/
theorem timeline : Obligations.Timeline := by
  unfold Obligations.Timeline
  refine ⟨?_, ?_, ?_, ?_, ?_⟩
  case refine_1 =>
    intro s source offset hc hp hu
    show completes (execTlServoUpdate source offset s) _
    have whole : Same 83868977 s _ := (execTlServoUpdate_same (.refl s) rfl).of _ (execTlServoUpdate_of_used offset hp hu)
    rw [execTlServoUpdate_of_used offset hp hu]
    have w := State.acquire_steered (State.canonical_regs hc) source.isLt offset
    set u := ((s.hearSource source.val).1.showSource source.val offset).acquire
    obtain ⟨status, good⟩ := u.correct_status offset
    have wf : regsWf (u.correct offset).regs = true := (State.correct_keeps (.refl u)).regs w.wf
    obtain ⟨fields, events, tl⟩ := State.lockWatch_kept wf offset
    have kept : Same 0x10101 (u.correct offset) ((u.correct offset).lockWatch offset) := State.lockWatch_same (.refl _) rfl
    have state : (u.correct offset).tlState = u.tlState := State.fld_eq_of_reg status _
    have far : u.isFar offset = s.isFar offset := by unfold State.isFar; rw [State.fld_eq_of_reg w.ctrl]
    refine completes_next ⟨?_, ?_, fun first => ?_, fun later beyond steered third => ?_, fun later within => ?_, fun lost => ?_,
      fun acquiring => ⟨fun near eighth => ?_, fun short => ?_⟩, fun locked => ?_, whole.mem rfl⟩
    · exact (fields _ (by decide) (by decide) (by decide)).trans ((State.fld_eq_of_reg status _).trans w.source)
    · exact (fields _ (by decide) (by decide) (by decide)).trans ((State.fld_eq_of_reg status _).trans w.offset)
    · obtain ⟨now, measured, -, step⟩ := State.correct_steps w.wf (offset := offset) (.inl (w.measured.trans first))
      exact ⟨by rw [kept.now rfl, now, w.now], by rw [tl]; exact measured, (State.flag_eq_of_reg events _).trans step⟩
    · obtain ⟨-, -, count⟩ := w.stays steered
      obtain ⟨now, -, none, -⟩ := State.correct_steps w.wf (offset := offset) (.inr ⟨far.trans beyond, by rwa [count]⟩)
      exact ⟨by rw [kept.now rfl, now, w.now], by rw [tl]; exact none⟩
    · have below : u.isFar offset = false ∨ u.tl.beyond + 1 < 3 := within.imp far.trans fun ⟨steered, few⟩ => by
        rwa [(w.stays steered).2.2]
      obtain ⟨now, free⟩ := State.correct_slews (w.measured.trans later) below
      exact ⟨by rw [kept.now rfl, now, w.now], by rw [kept.free rfl, free, w.free]⟩
    · obtain ⟨acquiring, none, -⟩ := w.acquires lost
      have few : ¬ 8 ≤ (u.correct offset).goodAfter offset := by rw [State.eight_le_goodAfter, good, none]; omega
      rw [State.lockWatch_tlState fun h => few h.2, state, acquiring]
    · obtain ⟨stays, count, -⟩ := w.stays (by unfold State.unsteered; omega)
      exact State.lockWatch_locked wf (state.trans (stays.trans acquiring))
        (State.eight_le_goodAfter.mpr ⟨near, by rwa [good, count]⟩)
    · obtain ⟨stays, count, -⟩ := w.stays (by unfold State.unsteered; omega)
      have few : ¬ 8 ≤ (u.correct offset).goodAfter offset := by rwa [State.eight_le_goodAfter, good, count]
      rw [State.lockWatch_tlState fun h => few h.2, state, stays, acquiring]
    · obtain ⟨stays, -, -⟩ := w.stays (by unfold State.unsteered; omega)
      have still := state.trans (stays.trans locked)
      rw [State.lockWatch_tlState fun h => by omega, still]
  case refine_2 =>
    intro s source offset hp hu
    show completes (execTlServoUpdate source offset s) _
    unfold execTlServoUpdate
    rw [hp, State.hearSource_unused hu]
    exact completes_next rfl
  case refine_3 =>
    intro s hc hst
    show completes (execTlHoldoverTimeout s) _
    unfold execTlHoldoverTimeout
    rw [hst, if_pos (by decide)]
    extract_lets last u v
    have kept := v.enterTl_kept tlHoldover
    obtain ⟨state, event⟩ := State.enterTl_event (s := v) (State.canonical_regs hc) (st := tlHoldover) (i := 1) (by decide)
      (by decide)
    exact completes_next ⟨kept.now rfl, state, (congrArg TimeSt.heldFrom (kept.tl rfl)).trans (congrArg some (kept.now rfl)).symm,
      (congrArg TimeSt.good (kept.tl rfl)).trans rfl, event, kept.mem rfl⟩
  case refine_4 =>
    intro s hc hst
    show completes (execTlLostTimeout s) _
    unfold execTlLostTimeout
    rw [hst, if_pos (by decide)]
    extract_lets u
    have kept := u.enterTl_kept tlLost
    obtain ⟨state, event⟩ := State.enterTl_event (s := u) (State.canonical_regs hc) (st := tlLost) (i := 2) (by decide)
      (by decide)
    exact completes_next ⟨kept.now rfl, state, event, kept.mem rfl⟩
  case refine_5 =>
    intro s hc
    have hwf := State.canonical_regs hc
    have whole : Same 1 s _ := (execTlNowHiRead_same (.refl s) rfl).of _ rfl
    refine completes_next ⟨?_, fun b hb => ?_, fun a ha => ?_, whole.now rfl, whole.mem rfl⟩
    · exact (State.reg_foldl fun u b _ => u.reg_captureNow_other (by unfold bankOff Reg.TL_NOW_LO Reg.TL_NOW_HI; omega)).trans
        (s.reg_setReg_same _ _ hwf)
    · exact State.reg_captures (State.setReg_regsWf s _ _ hwf) (List.mem_range.mpr hb)
    · rw [List.mem_cons, not_or] at ha
      exact (State.reg_foldl fun u b hb => u.reg_captureNow_other fun e => ha.2 (List.mem_map.mpr ⟨b, hb, e⟩)).trans
        (s.reg_setReg_other _ (Ne.symm ha.1))

end Sys2Proof.Machine
end

section
/-! SUPPORT. Halts of the Policy Cores (R371, R377): a state in which the end of a pair's work clears the
event that its doubt has set. -/

namespace Sys2Proof.Machine

open Sys2Proof

/-- The controller has 512 sources, whose active states fill the 16 registers ICU_ACTk (spec/15): that of a source 0x46FBE80 would
be the DOUBT event of the Safety Island. -/
theorem State.srcActive_eq_doubt (s : State) : s.srcActive 0x46FBE80 = s.flag Reg.SI_EVENT F.SI_EVENT.DOUBT := rfl

namespace StrayActive

/-- Pair 0 runs, and a source of the identifier 0x46FBE80 is active on it. -/
def state : State :=
  { State.reset with cores := State.reset.cores.set 0 { CoreSt.zero with active := [(0x46FBE80, 0)] } }

theorem state_canonical : state.canonical = true := by decide

/-- The state in which a lockstep mismatch leaves it. -/
def ended : State := (state.event (Reg.SYS_PC_ERR 0) F.SYS_PC_ERR.LOCKSTEP).haltPair 0 5

theorem exec_mismatch : exec (.lockstepMismatch 0 false) state = .next ended := rfl

/-- The fence completes what is active on the pair. -/
theorem ended_inactive : ended.srcActive 0x46FBE80 = false := by decide

end StrayActive

/-- Refutes O37: no hypothesis of the clause on halts bounds the identifiers of the sources active on the pair. Where a source
0x46FBE80 is active, whose active state is the DOUBT event (`State.srcActive_eq_doubt`), a lockstep mismatch sets DOUBT with its
doubt, and the fence that follows completes that source and so clears DOUBT. -/
theorem not_policyCores : ¬ Obligations.PolicyCores := by
  unfold Obligations.PolicyCores
  intro ⟨_, _, _, _, _, _, mismatch, _⟩
  obtain ⟨t, ht, _, _, _, _, doubt, _⟩ := mismatch StrayActive.state 0 false StrayActive.state_canonical rfl rfl
  obtain rfl : StrayActive.ended = t := Host.Outcome.next.inj (StrayActive.exec_mismatch.symm.trans ht)
  rw [← State.srcActive_eq_doubt, StrayActive.ended_inactive] at doubt
  exact Bool.false_ne_true doubt

end Sys2Proof.Machine
end

section
/-! SUPPORT. Acceptance of interrupts while bank 0 is current (R377, R378): a state in which the stack pointer that the push of a
frame writes is lost. -/

namespace Sys2Proof.Machine

open Sys2Proof

/-- Acceptance enters bank 0 and claims the best source there is (R377). -/
theorem exec_interruptAccept_of_best {s : State} {pair : Fin 4} {m : Nat} (pc : Word) (h : s.bestFor pair.val = some m) :
    exec (.interruptAccept pair pc) s = .next ((s.enterBank0 pair.val pc).claim pair.val m) := by
  change execInterruptAccept pair pc s = _
  unfold execInterruptAccept
  dsimp only
  rw [h]

namespace BareBank

/-- Pair 0 is in bank 0 and admits interrupts; it lists that bank alone, and the bank lists no registers. The software source
0x100 is pending, with pair 0 as its target. -/
def state : State :=
  { State.reset with
    cores := State.reset.cores.set 0 { CoreSt.zero with banks := [⟨[], [], 0⟩], intEn := true }
    regs := [(Reg.ICU_SRC_CFG 0x100, 0x10000), (Reg.ICU_PEND 8, 1)] }

theorem state_canonical : state.canonical = true := by decide

theorem state_best : state.bestFor 0 = some 0x100 := by decide +kernel

/-- The state in which the acceptance leaves it. -/
def ended : State := (state.enterBank0 0 0).claim 0 0x100

theorem exec_accept : exec (.interruptAccept 0 0) state = .next ended := exec_interruptAccept_of_best 0 state_best

/-- x2 is no register of the bank: the push reads it as zero, and what the push writes to it is lost. -/
theorem ended_sp : (ended.core 0).x 0 2 = (state.core 0).x 0 2 := by decide

theorem sp_not_moved : (ended.core 0).x 0 2 ≠ (state.core 0).x 0 2 - 76 := by
  rw [ended_sp]
  decide

end BareBank

/-- Refutes O36: of a pair in bank 0, the clause on acceptance asks only that it lists some bank, and not that the bank has its 31
registers. Where bank 0 lists none, the push of the frame does not move x2 down by 76 (`BareBank.sp_not_moved`). -/
theorem not_interrupts : ¬ Obligations.Interrupts := by
  unfold Obligations.Interrupts
  intro ⟨_, _, _, accept, _⟩
  obtain ⟨t, ht, _, _, _, _, _, _, _, frame, _⟩ := accept BareBank.state 0 0 0x100 BareBank.state_canonical rfl
    BareBank.state_best (by decide)
  obtain rfl : BareBank.ended = t := Host.Outcome.next.inj (BareBank.exec_accept.symm.trans ht)
  obtain ⟨_, moved⟩ := frame rfl (List.cons_ne_nil _ _)
  exact BareBank.sp_not_moved moved

end Sys2Proof.Machine
end

section
/-! SUPPORT. Tinder jobs in VERIFY (R40, R44, R45): what a mismatch comes to that leaves no scene to bind, and a state in which one
does. -/

namespace Sys2Proof.Machine

open Sys2Proof

section

variable {s : State} {code : Nat}

/-- A unit fenced by a mismatch in VERIFY leaves the coverage set (R40). -/
def State.verifyFenced (s : State) (code : Nat) : State :=
  (s.kinFence code 3).modSafety (fun f => { f with cover := f.cover.filter (fun c => c.unit != code) })

/-- A mismatch that leaves neither the current scene nor one for the boot scene to fit ends kindling in FAILED (R40, R45). -/
theorem State.verifyMismatch_of_unfit (hf : (s.verifyFenced code).fits (s.verifyFenced code).sceneNo = false)
    (hb : (s.verifyFenced code).bootScene? = none) :
    s.verifyMismatch code = (s.verifyFenced code).kindlingFail 0x07 (s.verifyFenced code).regionNo noPos := by
  unfold State.verifyFenced at *
  simp only [State.verifyMismatch, hf, hb, Bool.false_eq_true, if_false]

/-- The core that a failed kindling leaves has lost its memories (R11, R45). -/
theorem State.mem_kindlingFail (s : State) (code region pos : Nat) : (s.kindlingFail code region pos).mem = [] := rfl

/-- A job of VERIFY whose check value differs fences its unit (R40). -/
theorem exec_tinderJobDone_of_verifyMismatch {unit : Half} {c : CoverSt} {n : Nat} (hc : s.cover? unit.toNat = some c)
    (hr : c.running = true) (hn : c.cvu = some n) (hi : s.cvuState n = 0)
    (hm : s.fld (Reg.CVU_STATUS n) F.CVU_STATUS.RESULT = 1) (hs : (s.endTinder unit.toNat).stage = 10) :
    exec (.tinderJobDone unit) s = .next ((s.endTinder unit.toNat).verifyMismatch unit.toNat) := by
  change execTinderJobDone unit s = _
  simp [execTinderJobDone, hc, hr, hn, hi, hm, hs]

end

namespace VerifyMismatch

/-- An image of two sections: SCENE 0, the boot scene, which lists layer 1, and that layer, which names warp engine 0. -/
def flash : Flash :=
  (((({ State.reset.flash with present0 := true }.program 0 0x101C [2, 0, 0, 0, 0, 1, 0, 0, 0]).program 0 0x1100
    [1, 0, 0, 0, 0, 0, 0, 0, 0, 2, 0, 0, 18, 0, 0, 0]).program 0 0x1140
    [2, 0, 0, 0, 1, 0, 0, 0, 0, 3, 0, 0, 24, 0, 0, 0]).program 0 0x1200
    [0, 1, 0xFF, 0, 0, 0, 0, 0, 0, 0, 0, 0, 0, 0, 0, 0, 1, 0]).program 0 0x1300
    [1, 0, 2, 1, 0, 0, 0, 0, 0, 0, 0, 0, 1, 0, 0, 0, 0, 0, 0, 0, 0, 0, 0, 0]

/-- Warp engine 0. -/
def unit : Half := 0x0300

/-- Its tinder job runs, for Check-Value Unit 0. -/
def cover : CoverSt := ⟨0x0300, 0, 0, 0, 0, true, false, true, none, some 0, 0, 0⟩

/-- The device is in VERIFY with scene 0, a byte of the Frame Store has been written, and Check-Value Unit 0 shows a mismatch. -/
def state : State :=
  { State.reset with
    kin := { State.reset.kin with porstLow := false, coreReset := false, booted := some 0 }
    flash := flash
    safety := { State.reset.safety with cover := [cover] }
    mem := [(addrFs, 1)]
    regs := [(Reg.SYS_KIN_STATUS, 10), (Reg.CVU_STATUS 0, 0x10)] }

theorem state_canonical : state.canonical = true := by decide

/-- Before the mismatch the boot scene fits. -/
theorem state_fits : state.bootScene? = some 0 := by decide +kernel

/-- The state in which the job's end leaves it. -/
def ended : State := (state.endTinder 0x0300).verifyMismatch 0x0300

theorem exec_done : exec (.tinderJobDone unit) state = .next ended :=
  exec_tinderJobDone_of_verifyMismatch (c := cover) (n := 0) rfl rfl rfl (by decide) (by decide) (by decide)

/-- Without warp engine 0 the boot scene does not fit, and the image has no variant of it: the memories are lost. -/
theorem ended_mem : ended.mem = [] :=
  congrArg State.mem (State.verifyMismatch_of_unfit (by decide +kernel) (by decide +kernel))

end VerifyMismatch

/-- Refutes O39: the clause on the end of a tinder job keeps the memories of every state, and it does not leave VERIFY out as its part
on promotion does. There a mismatch that leaves no scene for the boot scene to fit ends kindling in FAILED (R40, R45), and the core
that goes off loses its memories (`VerifyMismatch.ended_mem`), as in a
state whose boot scene fits until then (`VerifyMismatch.state_fits`). -/
theorem not_tinderAndSelfTests : ¬ Obligations.TinderAndSelfTests := by
  unfold Obligations.TinderAndSelfTests
  intro ⟨jobDone, _⟩
  obtain ⟨t, ht, _, _, _, mem, _⟩ := jobDone VerifyMismatch.state VerifyMismatch.unit VerifyMismatch.cover 0
    VerifyMismatch.state_canonical rfl rfl rfl (by decide) (by decide)
  obtain rfl : VerifyMismatch.ended = t := Host.Outcome.next.inj (VerifyMismatch.exec_done.symm.trans ht)
  rw [VerifyMismatch.ended_mem] at mem
  exact List.cons_ne_nil _ _ mem.symm

end Sys2Proof.Machine
end

section
/-! SUPPORT. The Ember path (R416, R418 to R423): what a change of its health leaves, what the judgement of a message comes to, and what
the commands of the path come to. -/

namespace Sys2Proof.Machine

open Sys2Proof

/-! ### The path's health (R418) -/

/-- From r to t the path's health, records and severe events alone may have changed: the run of valid messages, the count of invalid
ones and the selected source are as they were. -/
structure HealthOnly (r t : State) : Prop where
  wf : regsWf t.regs = true
  invalid : t.fld Reg.SI_SELECT F.SI_SELECT.EMBER_INVALID = r.fld Reg.SI_SELECT F.SI_SELECT.EMBER_INVALID
  selected : t.emberSelected = r.emberSelected
  run : t.safety.ember.validRun = r.safety.ember.validRun
  misses : t.safety.ember.selfMisses = r.safety.ember.selfMisses

namespace HealthOnly

variable {r s t : State}

theorem refl (h : regsWf s.regs = true) : HealthOnly s s := ⟨h, rfl, rfl, rfl, rfl⟩

theorem trans (h : HealthOnly r s) (g : HealthOnly s t) : HealthOnly r t :=
  ⟨g.wf, g.invalid.trans h.invalid, g.selected.trans h.selected, g.run.trans h.run, g.misses.trans h.misses⟩

theorem ite {c : Prop} [Decidable c] (hs : HealthOnly r s) (ht : HealthOnly r t) : HealthOnly r (if c then s else t) := by
  split <;> assumption

end HealthOnly

section

variable {s : State}

/-- The state that shows another health, before a degraded path forgets its passing self-test. -/
def State.healthShown (s : State) (new why : Nat) : State :=
  ((s.event Reg.SI_EVENT F.SI_EVENT.EMBER_HEALTH).log 0x1200 0x070C 1 0 0xFF s.emberHealth new why).setFld
    Reg.SI_STATUS F.SI_STATUS.EMBER new

theorem State.setHealth_of_eq {new why : Nat} (h : s.emberHealth = new) : s.setHealth new why = s := by
  simp [State.setHealth, h]

theorem State.setHealth_of_ne {new why : Nat} (h : s.emberHealth ≠ new) : s.setHealth new why =
    if new == 1 then (s.healthShown new why).modEmber (fun e => { e with selfPassed := false }) else s.healthShown new why := by
  simp only [State.setHealth, beq_eq_false_iff_ne.mpr h, Bool.false_eq_true, if_false]
  rfl

/-- SI_STATUS as it stands when the new health is written to it. -/
theorem State.fld_healthShown (s : State) (new why : Nat) (b : Bits) :
    ((s.event Reg.SI_EVENT F.SI_EVENT.EMBER_HEALTH).log 0x1200 0x070C 1 0 0xFF s.emberHealth new why).fld Reg.SI_STATUS b
      = s.fld Reg.SI_STATUS b :=
  (State.fld_log _ _ _ _ _ _ _ _ _ _ _ (by decide) (by decide)).trans (State.fld_setFld_other _ _ _ _ _ _ (by decide))

theorem State.logEvent_regsWf (h : regsWf s.regs = true) (new why : Nat) :
    regsWf ((s.event Reg.SI_EVENT F.SI_EVENT.EMBER_HEALTH).log 0x1200 0x070C 1 0 0xFF s.emberHealth new why).regs = true :=
  (State.log_keeps (State.event_keeps (Keeps.refl s))).regs h

theorem State.safety_healthShown (s : State) (new why : Nat) : (s.healthShown new why).safety = s.safety :=
  (State.log_same (m0 := 65537) (Same.refl (s.event Reg.SI_EVENT F.SI_EVENT.EMBER_HEALTH)) rfl).safety rfl

theorem State.healthShown_only (h : regsWf s.regs = true) (new why : Nat) : HealthOnly s (s.healthShown new why) where
  wf := State.setFld_regsWf _ _ _ _ (State.logEvent_regsWf h new why)
  invalid := (State.fld_setFld_other _ _ _ _ _ _ (by decide)).trans
    ((State.fld_log _ _ _ _ _ _ _ _ _ _ _ (by decide) (by decide)).trans (State.fld_setFld_other _ _ _ _ _ _ (by decide)))
  selected := congrArg (· != 0) ((State.fld_setFld_field _ _ _ F.SI_STATUS.SOURCE _ (State.logEvent_regsWf h new why) (by decide)
    (by decide)).trans (s.fld_healthShown new why _))
  run := congrArg (fun x => x.ember.validRun) (s.safety_healthShown new why)
  misses := congrArg (fun x => x.ember.selfMisses) (s.safety_healthShown new why)

theorem State.setHealth_only (h : regsWf s.regs = true) (new why : Nat) : HealthOnly s (s.setHealth new why) := by
  by_cases e : s.emberHealth = new
  · rw [State.setHealth_of_eq e]
    exact .refl h
  · obtain ⟨wf, invalid, selected, run, misses⟩ := State.healthShown_only h new why
    rw [State.setHealth_of_ne e]
    exact .ite ⟨wf, invalid, selected, run, misses⟩ ⟨wf, invalid, selected, run, misses⟩

/-- A health set is the health shown. -/
theorem State.emberHealth_setHealth (h : regsWf s.regs = true) {new : Nat} (hn : new < 4) (why : Nat) :
    (s.setHealth new why).emberHealth = new := by
  have shown : (s.healthShown new why).emberHealth = new :=
    (State.fld_setFld_same _ Reg.SI_STATUS F.SI_STATUS.EMBER new (State.logEvent_regsWf h new why) (by decide)).trans
      (Nat.mod_eq_of_lt hn)
  by_cases e : s.emberHealth = new
  · rw [State.setHealth_of_eq e, e]
  · rw [State.setHealth_of_ne e]
    split <;> exact shown

/-- A self-test that has not passed stays so. -/
theorem State.selfPassed_setHealth (h : s.safety.ember.selfPassed = false) (new why : Nat) :
    (s.setHealth new why).safety.ember.selfPassed = false := by
  by_cases e : s.emberHealth = new
  · rw [State.setHealth_of_eq e, h]
  · rw [State.setHealth_of_ne e]
    split
    · rfl
    · rw [State.safety_healthShown, h]

/-- A severe event changes SI_LAST and the journal's registers alone. -/
theorem State.reg_severe_other (cause unit : Nat) {a : Nat} (h1 : a ≠ Reg.SI_LAST) (h2 : a ≠ Reg.EJ_EVENT)
    (h3 : a ≠ Reg.EJ_LOST_CNT) : (s.severe cause unit).reg a = s.reg a :=
  (State.reg_log _ _ _ _ _ _ _ _ _ _ h3 h2).trans (State.reg_setReg_other _ _ (Ne.symm h1))

theorem State.severe_only (h : regsWf s.regs = true) (cause unit : Nat) : HealthOnly s (s.severe cause unit) := by
  have safety := (State.log_same (m0 := 65537) (source := 0x1200) (code := 0x0702) (cls := 3) (partition := 0) (stream := 0xFF)
    (a0 := cause) (a1 := unit) (a2 := 0)
    (Same.refl (s.setReg Reg.SI_LAST (w32 (3 * 0x1000000 + cause * 0x10000 + unit)))) rfl).safety rfl
  have reg := fun a => State.reg_severe_other (s := s) cause unit (a := a)
  exact ⟨(State.severe_keeps (Keeps.refl s)).regs h, State.fld_eq_of_reg (reg _ (by decide) (by decide) (by decide)) _,
    State.flag_eq_of_reg (reg _ (by decide) (by decide) (by decide)) _, congrArg (fun x => x.ember.validRun) safety,
    congrArg (fun x => x.ember.selfMisses) safety⟩

theorem State.mem_severes_severe (s : State) (cause unit : Nat) : (cause, unit) ∈ (s.severe cause unit).safety.severes := by
  simp [State.severe]

theorem State.tryRecover_only (h : regsWf s.regs = true) : HealthOnly s s.tryRecover :=
  .ite (State.setHealth_only h 0 3) (.refl h)

/-- A path that is not degraded, or whose run of valid messages is short, does not recover. -/
theorem State.tryRecover_of_not (h : s.emberHealth = 1 → s.safety.ember.validRun < 30) : s.tryRecover = s := by
  refine if_neg fun c => ?_
  simp only [Bool.and_eq_true, beq_iff_eq, decide_eq_true_eq] at c
  have := h c.1.1
  omega

theorem State.tryRecover_of_run (h1 : s.emberHealth = 1) (h2 : 30 ≤ s.safety.ember.validRun)
    (h3 : s.safety.ember.selfPassed = true) : s.tryRecover = s.setHealth 0 3 := by
  simp [State.tryRecover, h1, h2, h3]

/-! ### The judgement of a message (R416, R418) -/

/-- A message is counted, in the metrics and in its run. -/
def State.tallyEmber (s : State) (bad : Bool) : State :=
  let a := s.adapt
  let s : State := { s with adapt := { a with emberMsgs := a.emberMsgs + 1, emberInvalid := a.emberInvalid + bit bad } }
  let s := if bad then s.addFld Reg.SI_SELECT F.SI_SELECT.EMBER_INVALID 1 else s.setFld Reg.SI_SELECT F.SI_SELECT.EMBER_INVALID 0
  s.modEmber (fun e => { e with validRun := if bad then 0 else e.validRun + 1 })

/-- What three invalid messages in a row do. -/
def State.judgeInvalid (s : State) : State :=
  let three := decide (3 ≤ s.fld Reg.SI_SELECT F.SI_SELECT.EMBER_INVALID)
  let s := if three && s.emberHealth == 0 then s.setHealth 1 1 else s
  if three && s.emberSelected then s.severe 17 0x1300 else s

theorem State.judgeEmber_eq (s : State) (bad : Bool) : s.judgeEmber bad =
    if !(s.tallyEmber bad).isReady then s.tallyEmber bad
    else if bad then (s.tallyEmber bad).judgeInvalid
    else (s.tallyEmber bad).tryRecover := rfl

theorem State.reg_tallyEmber (s : State) (bad : Bool) {a : Nat} (ha : Reg.SI_SELECT ≠ a) : (s.tallyEmber bad).reg a = s.reg a := by
  cases bad <;> exact State.reg_setFld_other _ _ _ _ _ ha

theorem State.tallyEmber_regsWf (h : regsWf s.regs = true) (bad : Bool) : regsWf (s.tallyEmber bad).regs = true := by
  cases bad <;> exact State.setFld_regsWf _ _ _ _ h

theorem State.fld_tallyEmber_valid (h : regsWf s.regs = true) :
    (s.tallyEmber false).fld Reg.SI_SELECT F.SI_SELECT.EMBER_INVALID = 0 :=
  State.fld_setFld_same _ Reg.SI_SELECT F.SI_SELECT.EMBER_INVALID 0 h (by decide)

theorem State.fld_tallyEmber_invalid (h : regsWf s.regs = true) :
    (s.tallyEmber true).fld Reg.SI_SELECT F.SI_SELECT.EMBER_INVALID =
      min (s.fld Reg.SI_SELECT F.SI_SELECT.EMBER_INVALID + 1) 255 :=
  (State.fld_setFld_same _ Reg.SI_SELECT F.SI_SELECT.EMBER_INVALID _ h (by decide)).trans
    (Nat.mod_eq_of_lt (Nat.lt_succ_of_le (Nat.min_le_right _ 255)))

theorem State.validRun_tallyEmber (s : State) (bad : Bool) :
    (s.tallyEmber bad).safety.ember.validRun = if bad then 0 else s.safety.ember.validRun + 1 := by
  cases bad <;> rfl

theorem State.emberMsgs_tallyEmber (s : State) (bad : Bool) : (s.tallyEmber bad).adapt.emberMsgs = s.adapt.emberMsgs + 1 := by
  cases bad <;> rfl

theorem State.emberSelected_tallyEmber (s : State) (bad : Bool) : (s.tallyEmber bad).emberSelected = s.emberSelected :=
  State.flag_eq_of_reg (s.reg_tallyEmber bad (by decide)) _

theorem State.emberHealth_tallyEmber (s : State) (bad : Bool) : (s.tallyEmber bad).emberHealth = s.emberHealth :=
  State.fld_eq_of_reg (s.reg_tallyEmber bad (by decide)) _

theorem State.isReady_of_reg {t : State} (h : t.reg Reg.SYS_KIN_STATUS = s.reg Reg.SYS_KIN_STATUS) : t.isReady = s.isReady := by
  unfold State.isReady
  rw [State.fld_eq_of_reg h]

theorem State.isReady_tallyEmber (s : State) (bad : Bool) : (s.tallyEmber bad).isReady = s.isReady :=
  State.isReady_of_reg (s.reg_tallyEmber bad (by decide))

theorem State.judgeInvalid_only (h : regsWf s.regs = true) : HealthOnly s s.judgeInvalid := by
  unfold State.judgeInvalid
  extract_lets three s1
  have h1 : HealthOnly s s1 := .ite (State.setHealth_only h 1 1) (.refl h)
  exact .ite (h1.trans (State.severe_only h1.wf 17 0x1300)) h1

/-- A judgement leaves the run of valid messages, the count of invalid ones and the selected source as the message's count left
them. -/
theorem State.judgeEmber_only (h : regsWf s.regs = true) (bad : Bool) : HealthOnly (s.tallyEmber bad) (s.judgeEmber bad) := by
  have wf := State.tallyEmber_regsWf h bad
  rw [State.judgeEmber_eq]
  exact .ite (.refl wf) (.ite (State.judgeInvalid_only wf) (State.tryRecover_only wf))

theorem State.emberHealth_severe (s : State) (cause unit : Nat) : (s.severe cause unit).emberHealth = s.emberHealth :=
  (State.fld_log _ _ _ _ _ _ _ _ _ _ _ (by decide) (by decide)).trans (State.fld_setReg_other _ _ _ _ _ (by decide))

/-- Three invalid messages in a row degrade a healthy path. -/
theorem State.emberHealth_judgeInvalid (h : regsWf s.regs = true) (h3 : 3 ≤ s.fld Reg.SI_SELECT F.SI_SELECT.EMBER_INVALID)
    (h0 : s.emberHealth = 0) : s.judgeInvalid.emberHealth = 1 := by
  unfold State.judgeInvalid
  simp only [h3, h0, decide_true, beq_self_eq_true, Bool.and_self, Bool.true_and, if_true]
  split
  · rw [State.emberHealth_severe, State.emberHealth_setHealth h (by decide)]
  · exact State.emberHealth_setHealth h (by decide) 1

/-- While the Ember path is selected they are cause 17. -/
theorem State.mem_severes_judgeInvalid (h : regsWf s.regs = true) (h3 : 3 ≤ s.fld Reg.SI_SELECT F.SI_SELECT.EMBER_INVALID)
    (hs : s.emberSelected = true) : (17, 0x1300) ∈ s.judgeInvalid.safety.severes := by
  unfold State.judgeInvalid
  extract_lets three s1
  have h1 : HealthOnly s s1 := .ite (State.setHealth_only h 1 1) (.refl h)
  have c : (three && s1.emberSelected) = true := by
    rw [h1.selected, hs, Bool.and_true]
    exact decide_eq_true h3
  rw [if_pos c]
  exact s1.mem_severes_severe 17 0x1300

/-- An invalid message in READY is judged as what follows its count. -/
theorem State.judgeEmber_invalid (hr : s.isReady = true) : s.judgeEmber true = (s.tallyEmber true).judgeInvalid := by
  rw [State.judgeEmber_eq, State.isReady_tallyEmber, hr]
  rfl

/-- The third invalid message in a row has been counted. -/
theorem State.three_tallyEmber (h : regsWf s.regs = true) (h2 : 2 ≤ s.fld Reg.SI_SELECT F.SI_SELECT.EMBER_INVALID) :
    3 ≤ (s.tallyEmber true).fld Reg.SI_SELECT F.SI_SELECT.EMBER_INVALID := by
  rw [State.fld_tallyEmber_invalid h]
  omega

theorem State.judgeEmber_adapt (s : State) (bad : Bool) : (s.judgeEmber bad).adapt = (s.tallyEmber bad).adapt := by
  have health : ∀ u : State, ∀ new why, (u.setHealth new why).adapt = u.adapt := fun u _ _ =>
    (State.setHealth_same (m0 := 196609) (.refl u) rfl).adapt rfl
  have recover : ∀ u : State, u.tryRecover.adapt = u.adapt := fun u => (State.tryRecover_same (m0 := 196609) (.refl u) rfl).adapt rfl
  have severe : ∀ u : State, (u.severe 17 0x1300).adapt = u.adapt := fun u =>
    (State.severe_same (m0 := 196609) (.refl u) rfl).adapt rfl
  have invalid : ∀ u : State, u.judgeInvalid.adapt = u.adapt := by
    intro u
    unfold State.judgeInvalid
    extract_lets three s1
    have h1 : s1.adapt = u.adapt := by
      unfold s1
      split
      · exact health u 1 1
      · rfl
    split
    · exact (severe s1).trans h1
    · exact h1
  rw [State.judgeEmber_eq]
  split
  · rfl
  · split
    · exact invalid _
    · exact recover _

/-! ### The message that is next (R416, R419) -/

/-- From s to u a pair has been taken for its message: registers, metrics, memory and time are as they were, and so is the run of valid
messages. -/
structure PairTaken (s u : State) : Prop where
  regs : u.regs = s.regs
  adapt : u.adapt = s.adapt
  mem : u.mem = s.mem
  now : u.now = s.now
  run : u.safety.ember.validRun = s.safety.ember.validRun

theorem State.nextMsg?_validRun {m : EmberMsg} {u : State} (h : s.nextMsg? = some (m, u)) :
    u.safety.ember.validRun = s.safety.ember.validRun := by
  unfold State.nextMsg? at h
  cases hi : s.safety.ember.invalidPair <;> cases hp : s.safety.ember.pair <;>
    simp only [hi, hp, Option.map_none, Option.map_some, reduceCtorEq] at h
  · cases h; rfl
  · cases h; rfl
  · split at h <;> cases h <;> rfl

theorem State.nextMsg?_taken {m : EmberMsg} {u : State} (h : s.nextMsg? = some (m, u)) : PairTaken s u :=
  have same := State.nextMsg?_same (m0 := 131072) (.refl s) rfl h
  ⟨same.regs rfl, same.adapt rfl, same.mem rfl, same.now rfl, State.nextMsg?_validRun h⟩

/-- What the judgement of the message of a pair that has been taken leaves, against the state that the message met. -/
structure MsgJudged (s t : State) (bad : Bool) : Prop where
  wf : regsWf t.regs = true
  selected : t.emberSelected = s.emberSelected
  run : t.safety.ember.validRun = if bad then 0 else s.safety.ember.validRun + 1
  msgs : t.adapt.emberMsgs = s.adapt.emberMsgs + 1
  mem : t.mem = s.mem
  now : t.now = s.now
  valid : bad = false → t.fld Reg.SI_SELECT F.SI_SELECT.EMBER_INVALID = 0
  invalid : bad = true →
    t.fld Reg.SI_SELECT F.SI_SELECT.EMBER_INVALID = min (s.fld Reg.SI_SELECT F.SI_SELECT.EMBER_INVALID + 1) 255
  degraded : bad = true → s.isReady = true → 2 ≤ s.fld Reg.SI_SELECT F.SI_SELECT.EMBER_INVALID → s.emberHealth = 0 →
    t.emberHealth = 1
  severe : bad = true → s.isReady = true → 2 ≤ s.fld Reg.SI_SELECT F.SI_SELECT.EMBER_INVALID → s.emberSelected = true →
    (17, 0x1300) ∈ t.safety.severes

theorem PairTaken.judged {u : State} (p : PairTaken s u) (h : regsWf s.regs = true) (bad : Bool) :
    MsgJudged s (u.judgeEmber bad) bad := by
  have wf : regsWf u.regs = true := p.regs.symm ▸ h
  have reg : ∀ a, u.reg a = s.reg a := State.reg_congr p.regs
  have fld : ∀ a b, u.fld a b = s.fld a b := State.fld_congr p.regs
  have ready : u.isReady = s.isReady := State.isReady_of_reg (reg _)
  have selected : u.emberSelected = s.emberSelected := State.flag_eq_of_reg (reg _) _
  have only := State.judgeEmber_only wf bad
  have same := State.judgeEmber_same (m0 := 458753) (bad := bad) (.refl u) rfl
  refine ⟨only.wf, only.selected.trans ((u.emberSelected_tallyEmber bad).trans selected), ?_, ?_, (same.mem rfl).trans p.mem,
    (same.now rfl).trans p.now, ?_, ?_, ?_, ?_⟩
  · rw [only.run, State.validRun_tallyEmber, p.run]
  · rw [State.judgeEmber_adapt, State.emberMsgs_tallyEmber, p.adapt]
  · rintro rfl
    exact only.invalid.trans (State.fld_tallyEmber_valid wf)
  · rintro rfl
    rw [only.invalid, State.fld_tallyEmber_invalid wf, fld]
  · rintro rfl hr h2 h0
    rw [State.judgeEmber_invalid (ready.trans hr)]
    exact State.emberHealth_judgeInvalid (State.tallyEmber_regsWf wf true) (State.three_tallyEmber wf (fld _ _ ▸ h2))
      ((u.emberHealth_tallyEmber true).trans ((fld _ _).trans h0))
  · rintro rfl hr h2 hs
    rw [State.judgeEmber_invalid (ready.trans hr)]
    exact State.mem_severes_judgeInvalid (State.tallyEmber_regsWf wf true) (State.three_tallyEmber wf (fld _ _ ▸ h2))
      ((u.emberSelected_tallyEmber true).trans (selected.trans hs))

/-! ### Handing a message over (R416, R423) -/

/-- From r to t the Safety Island's state is the same but for the output selector. -/
def SelOnly (r t : State) : Prop := ∃ x, t.safety = { r.safety with sel := x }

theorem SelOnly.refl (s : State) : SelOnly s s := ⟨s.safety.sel, rfl⟩

theorem SelOnly.trans {r s t : State} (h : SelOnly r s) (g : SelOnly s t) : SelOnly r t := by
  obtain ⟨x, hx⟩ := h
  obtain ⟨y, hy⟩ := g
  exact ⟨y, by rw [hy, hx]⟩

theorem SelOnly.of_same {w : Nat} {s t : State} (h : Same w s t) (hw : w.testBit 17 = false) : SelOnly s t :=
  ⟨s.safety.sel, h.safety hw⟩

theorem SelOnly.ite {c : Prop} [Decidable c] {r s t : State} (hs : SelOnly r s) (ht : SelOnly r t) :
    SelOnly r (if c then s else t) := by
  split <;> assumption

theorem State.modSel_selOnly (s : State) (f : Selector → Selector) : SelOnly s (s.modSel f) := ⟨_, rfl⟩

theorem State.announce_selOnly (s : State) (seq : Word) : SelOnly s (s.announce seq) := by
  unfold State.announce
  split
  · exact .refl s
  · exact (SelOnly.of_same (State.log_same (m0 := 65537) (.refl s) rfl) rfl).trans (State.modSel_selOnly _ _)

theorem State.switchSource_selOnly (s : State) (ember : Bool) (why : Nat) : SelOnly s (s.switchSource ember why) := by
  cases ember <;> exact ⟨_, rfl⟩

theorem State.handEmber_selOnly (s : State) (m : EmberMsg) : SelOnly s (s.handEmber m) := by
  unfold State.handEmber
  split
  · exact .refl s
  · refine .ite (.refl s) ?_
    extract_lets fl s1 s2 sel s3 s4
    have h1 : SelOnly s s1 := .of_same (State.handOver_same (m0 := 4194305) (.refl s) rfl) rfl
    have h2 : SelOnly s s2 := h1.trans (State.announce_selOnly s1 _)
    have h3 : SelOnly s s3 := .ite h2 (h2.trans ⟨_, rfl⟩)
    have h4 : SelOnly s s4 := h3.trans (State.modSel_selOnly _ _)
    exact .ite (h4.trans (State.switchSource_selOnly _ _ _)) h4

/-! ### The commands -/

theorem exec_emberPairWindowExpiry_of_left {d : Nat} {f : EmberFrame} (hd : s.safety.ember.pairDue = some d)
    (hl : s.safety.ember.left = some f) (hc : f.closedAt ≠ none) (hm : f.missed = false) :
    exec .emberPairWindowExpiry s = .next ((s.reach d).modEmber (fun e => { e with
      pairDue := none
      left := some { f with missed := true }
      invalidPair := some (f.seq, f.ts, eyeFlag true f.flagged) })) := by
  have closed : f.closedAt.isSome = true := Option.isSome_iff_ne_none.mpr hc
  change execEmberPairWindowExpiry s = _
  simp only [execEmberPairWindowExpiry, hd, hl, Option.filter, closed, hm, Bool.not_false, Bool.and_self, if_true]
  simp [State.modEmber, State.reach, hl, closed]

theorem exec_emberMessageReady_of_none (h : s.nextMsg? = none) : exec .emberMessageReady s = .next s := by
  change execEmberMessageReady s = _
  simp only [execEmberMessageReady, h]

theorem exec_emberMessageReady_of_msg {m : EmberMsg} {u : State} (h : s.nextMsg? = some (m, u)) :
    exec .emberMessageReady s = .next (if (u.judgeEmber (m.status == 2)).emberSelected && (u.judgeEmber (m.status == 2)).ofEnabled
      then (u.judgeEmber (m.status == 2)).handEmber m
      else (u.judgeEmber (m.status == 2)).modSel (fun x => { x with held := some m })) := by
  change execEmberMessageReady s = _
  simp only [execEmberMessageReady, h]
  split <;> rfl

/-- The self-test has passed. -/
def State.passSelfTest (s : State) : State := s.modEmber (fun e => { e with selfMisses := 0, selfPassed := true })

theorem exec_emberSelfTest_of_pass (hr : s.smRuns = true) : exec (.emberSelfTest true) s = .next s.passSelfTest.tryRecover := by
  change execEmberSelfTest true s = _
  simp only [execEmberSelfTest, hr, Bool.not_true, Bool.false_eq_true, if_false, if_true]
  rfl

/-- The self-test has missed once more. -/
def State.missSelfTest (s : State) : State :=
  s.modEmber (fun e => { e with selfMisses := e.selfMisses + 1, selfPassed := false })

theorem exec_emberSelfTest_of_miss (hr : s.smRuns = true) (hk : s.isReady = true) : exec (.emberSelfTest false) s =
    .next (if 1 ≤ s.safety.ember.selfMisses then s.missSelfTest.setHealth 2 2
      else if s.emberHealth = 0 then s.missSelfTest.setHealth 1 2 else s.missSelfTest) := by
  have ready : s.missSelfTest.isReady = true := hk
  have two : (2 ≤ s.missSelfTest.safety.ember.selfMisses) = (1 ≤ s.safety.ember.selfMisses) := by
    change (2 ≤ s.safety.ember.selfMisses + 1) = _
    exact propext (by omega)
  have health : s.missSelfTest.emberHealth = s.emberHealth := rfl
  unfold State.missSelfTest at *
  change execEmberSelfTest false s = _
  simp only [execEmberSelfTest, hr, ready, two, health, Bool.not_true, Bool.false_eq_true, if_false, decide_eq_true_eq,
    beq_iff_eq]
  split
  · rfl
  · split <;> rfl

end

/-- Settles O43: a message is judged (`State.judgeEmber_only`, `State.emberHealth_judgeInvalid`, `State.mem_severes_judgeInvalid`)
in a state that differs from the one it meets by the pair it takes, and is then held or handed over. -/
theorem emberPath : Obligations.EmberPath := by
  unfold Obligations.EmberPath
  refine ⟨?pairWindow, ?noMessage, ?held, ?severe, ?pass, ?miss⟩
  case pairWindow =>
    intro s d f hd hl hc hm
    rw [exec_emberPairWindowExpiry_of_left hd hl hc hm]
    exact completes_next ⟨rfl, rfl, rfl, rfl, rfl, rfl⟩
  case noMessage =>
    intro s h
    exact ⟨s, exec_emberMessageReady_of_none h, rfl⟩
  case held =>
    intro s m hc hm hs
    obtain ⟨⟨m, u⟩, hu, rfl⟩ := Option.map_eq_some_iff.mp hm
    have j := (State.nextMsg?_taken hu).judged (State.canonical_regs hc) (m.status == 2)
    rw [exec_emberMessageReady_of_msg hu, j.selected, hs, Bool.false_and, if_neg Bool.false_ne_true]
    have bad : m.status = 2 → (m.status == 2) = true := beq_iff_eq.mpr
    have good : m.status ≠ 2 → (m.status == 2) = false := beq_eq_false_iff_ne.mpr
    exact completes_next ⟨rfl, fun e => ⟨j.run.trans (if_neg (by simp [e])), j.valid (good e)⟩,
      fun e => j.run.trans (if_pos (bad e)), fun e => j.invalid (bad e), fun e => j.degraded (bad e), j.msgs, j.mem, j.now⟩
  case severe =>
    intro s m hc hm hs hr h2 hi
    obtain ⟨⟨m, u⟩, hu, rfl⟩ := Option.map_eq_some_iff.mp hm
    have bad : (m.status == 2) = true := beq_iff_eq.mpr h2
    have j := (State.nextMsg?_taken hu).judged (State.canonical_regs hc) (m.status == 2)
    have severe := j.severe bad hr hi hs
    have run : (u.judgeEmber (m.status == 2)).safety.ember.validRun = 0 := j.run.trans (if_pos bad)
    rw [exec_emberMessageReady_of_msg hu]
    split
    · obtain ⟨x, hx⟩ := State.handEmber_selOnly (u.judgeEmber (m.status == 2)) m
      exact completes_next ⟨hx ▸ severe, hx ▸ run,
        ((State.handEmber_same (m0 := 4390913) (.refl _) rfl).mem rfl).trans j.mem⟩
    · exact completes_next ⟨severe, run, j.mem⟩
  case pass =>
    intro s _ hc hr rfl
    have wf : regsWf s.passSelfTest.regs = true := State.canonical_regs hc
    rw [exec_emberSelfTest_of_pass hr]
    refine completes_next ⟨(State.tryRecover_only wf).misses, fun h1 => ?_, fun h1 hv => ?_, fun h1 hv => ?_,
      (State.tryRecover_same (m0 := 196609) (.refl s.passSelfTest) rfl).mem rfl⟩
    · rw [State.tryRecover_of_not (s := s.passSelfTest) fun e => absurd e h1]
      rfl
    · rw [State.tryRecover_of_not (s := s.passSelfTest) fun _ => hv]
      exact ⟨h1, rfl⟩
    · rw [State.tryRecover_of_run (s := s.passSelfTest) h1 hv rfl]
      exact State.emberHealth_setHealth wf (by decide) 3
  case miss =>
    intro s _ hc hr rfl hk
    have wf : regsWf s.missSelfTest.regs = true := State.canonical_regs hc
    have mem : ∀ new why, (s.missSelfTest.setHealth new why).mem = s.mem := fun _ _ =>
      (State.setHealth_same (m0 := 196609) (.refl s.missSelfTest) rfl).mem rfl
    rw [exec_emberSelfTest_of_miss hr hk]
    split
    · exact completes_next ⟨(State.setHealth_only wf 2 2).misses, State.selfPassed_setHealth rfl 2 2,
        fun _ => State.emberHealth_setHealth wf (by decide) 2, fun h0 => by omega, mem 2 2⟩
    · next first =>
      split
      · exact completes_next ⟨(State.setHealth_only wf 1 2).misses, State.selfPassed_setHealth rfl 1 2, fun h1 => absurd h1 first,
          fun _ _ => State.emberHealth_setHealth wf (by decide) 2, mem 1 2⟩
      · next unwell => exact completes_next ⟨rfl, rfl, fun h1 => absurd h1 first, fun _ h0 => absurd h0 unwell, rfl⟩

end Sys2Proof.Machine
end

section
/-! SUPPORT. What cancellations leave when the safe state is entered (R397): the status of the Safety Island and of the Output Framer,
and the sequencer's halt. One lemma for each operation, in the order of the model's files. -/

namespace Sys2Proof.Machine

open Sys2Proof

/-- From r to t the sequencer's halt is as it was, and so are the registers at the head of each 4 KiB from the Ethernet ports' on, among
them SI_STATUS and OF_RESULT. -/
structure HaltKept (r t : State) : Prop where
  reg : ∀ a, 0x700000 ≤ a → a % 0x1000 < 0x10 → t.reg a = r.reg a
  halted : t.fgs.halted = r.fgs.halted

namespace HaltKept

variable {r s t : State}

theorem refl (s : State) : HaltKept s s := ⟨fun _ _ _ => rfl, rfl⟩

theorem of_regs (h : HaltKept r s) (e : t.regs = s.regs) (f : t.fgs.halted = s.fgs.halted) : HaltKept r t :=
  ⟨fun a ha hm => (State.reg_congr e a).trans (h.reg a ha hm), f.trans h.halted⟩

/-- An operation that leaves the register file and the sequencer alone. -/
theorem of_same {w : Nat} (h : HaltKept r s) (g : Same w s t) (h0 : w.testBit 0 = false) (h12 : w.testBit 12 = false) :
    HaltKept r t :=
  h.of_regs (g.regs h0) (congrArg Fgs.halted (g.fgs h12))

theorem setReg (h : HaltKept r s) {a : Nat} (v : Word) (ha : a < 0x700000 ∨ 0x10 ≤ a % 0x1000) : HaltKept r (s.setReg a v) :=
  ⟨fun c hc hm => (State.reg_setReg_other s v (by rintro rfl; omega)).trans (h.reg c hc hm), h.halted⟩

theorem setFld (h : HaltKept r s) {a : Nat} (b : Bits) (v : Nat) (ha : a < 0x700000 ∨ 0x10 ≤ a % 0x1000) :
    HaltKept r (s.setFld a b v) :=
  h.setReg _ ha

theorem ite {c : Prop} [Decidable c] (hs : HaltKept r s) (ht : HaltKept r t) : HaltKept r (if c then s else t) := by
  split <;> assumption

theorem foldl {α : Type} {l : List α} {F : State → α → State} (hF : ∀ u x, HaltKept r u → HaltKept r (F u x))
    (h : HaltKept r s) : HaltKept r (l.foldl F s) := by
  induction l generalizing s with
  | nil => exact h
  | cons x l ih => exact ih (hF s x h)

theorem foldlFst {α β : Type} {l : List α} {F : State × β → α → State × β} {p : State × β}
    (hF : ∀ q x, HaltKept r q.1 → HaltKept r (F q x).1) (h : HaltKept r p.1) : HaltKept r (l.foldl F p).1 := by
  induction l generalizing p with
  | nil => exact h
  | cons x l ih => exact ih (hF p x h)

end HaltKept

section

variable {r s : State} (h : HaltKept r s)

include h

/-! ### Sending on the links -/

theorem State.sendOn_haltKept (k : Nat) (p : GmlPkt) : HaltKept r (s.sendOn k p) :=
  ⟨fun a ha hm => ((State.sendOn_sent s k p).reg a fun j => by unfold Reg.GML_CNT; omega).trans (h.reg a ha hm),
    (congrArg Fgs.halted ((State.sendOn_same (m0 := 8388609) (.refl s) rfl).fgs rfl)).trans h.halted⟩

theorem State.sendTo_haltKept (e : Nat) (p : GmlPkt) : HaltKept r (s.sendTo e p) := by
  unfold State.sendTo
  split
  · exact State.sendOn_haltKept h _ p
  · exact h

theorem State.sendDrain_haltKept (e flag : Nat) : HaltKept r (s.sendDrain e flag) := .ite h (State.sendTo_haltKept h _ _)

theorem State.post_haltKept (ts : List Token) : HaltKept r (s.post ts) := by
  unfold State.post
  extract_lets here f s1
  have h1 : HaltKept r s1 := h.of_regs rfl rfl
  refine HaltKept.foldl (fun u t hu => ?_) h1
  split
  · exact hu
  · exact .ite hu (State.sendTo_haltKept hu _ _)

/-! ### The sequencer -/

theorem State.modFlag_haltKept (i : Nat) (f : SlotFlag → SlotFlag) : HaltKept r (s.modFlag i f) :=
  h.of_same (State.modFlag_same (m0 := 8) (.refl s) rfl) rfl rfl

theorem State.setRing_haltKept (x : RingSt) : HaltKept r (s.setRing x) := h.of_regs rfl rfl

theorem State.assignSlot_haltKept (x : RingSt) (k b : Nat) (seq : Word) (rects : Nat) :
    HaltKept r (s.assignSlot x k b seq rects) :=
  State.setRing_haltKept (h.of_same (State.setFlagWord_same (m0 := 8) (.refl s) rfl) rfl rfl) _

theorem State.voidOne_haltKept (n : NodeSt) (seq : Word) (tile o : Nat) : HaltKept r (s.voidOne n seq tile o).1 := by
  unfold State.voidOne
  split
  · split
    · exact h
    · dsimp only
      split
      · exact h
      · next s1 hs1 =>
        have h1 : HaltKept r s1 := by
          split at hs1
          · cases hs1; exact h
          · split at hs1
            · cases hs1; exact State.assignSlot_haltKept h _ _ _ _ _
            · split at hs1 <;> cases hs1
              exact h
        have h2 := fun i => State.modFlag_haltKept h1 i SlotFlag.voidRect
        split
        · exact State.post_haltKept ((h2 _).setFld _ _ (by decide)) _
        · exact h2 _
  · exact h

theorem State.voidRelease_haltKept (i : Inst) : HaltKept r (s.voidRelease i) := by
  unfold State.voidRelease
  split
  · exact h
  · refine HaltKept.of_regs (HaltKept.foldlFst (fun p o hp => ?_) h) rfl rfl
    dsimp only
    split <;> exact State.voidOne_haltKept hp _ _ _ _

theorem State.tryDrain_haltKept (layer idx sl node j : Nat) : HaltKept r (s.tryDrain layer idx sl node j) := by
  unfold State.tryDrain
  split
  · refine .ite (State.setRing_haltKept ?_ _) h
    split
    · exact State.sendDrain_haltKept h _ _
    · exact State.modFlag_haltKept h _ _
  · exact h

theorem State.drainInputs_haltKept (n : NodeSt) (seq : Word) (t : Nat) : HaltKept r (s.drainInputs n seq t) :=
  HaltKept.foldl (fun _ _ hu => State.tryDrain_haltKept hu _ _ _ _ _) h

theorem State.advanceFlow_haltKept (n : NodeSt) : HaltKept r (s.advanceFlow n) := by
  unfold State.advanceFlow
  split
  · exact h
  · exact h.of_regs rfl rfl

theorem State.clearWatch_haltKept (n : NodeSt) : HaltKept r (s.clearWatch n) := by
  unfold State.clearWatch
  split <;> exact .ite h (h.of_regs rfl rfl)

theorem State.retire_haltKept (slot : Nat) : HaltKept r (s.retire slot) := by
  unfold State.retire
  split
  · exact h
  · extract_lets live ok best
    clear_value best
    split
    · exact h
    · exact HaltKept.foldl (fun u e hu => hu.of_regs (t := u.freeEntry e) rfl rfl) (h.of_regs rfl rfl)

theorem State.finish_haltKept (i : Inst) : HaltKept r (s.finish i) := by
  unfold State.finish
  split
  · exact h
  · next n _ =>
    extract_lets s1 s2 s3 s4
    have h1 : HaltKept r s1 := .ite h (h.of_regs rfl rfl)
    have h2 : HaltKept r s2 := h1.of_same (State.unpinAll_same (m0 := 8) (.refl s1) rfl) rfl rfl
    have h3 : HaltKept r s3 := by
      unfold s3
      split
      · exact State.drainInputs_haltKept h2 _ _ _
      · exact h2
    have h4 : HaltKept r s4 := State.clearWatch_haltKept (State.advanceFlow_haltKept h3 n) n
    exact .ite h4 (State.retire_haltKept h4 _)

omit h in
/-- The busy-clock counters lie past the head of their block. -/
theorem busyCounter_past_head (code t : Nat) : ∀ x ∈ busyCounter code t, 0x10 ≤ x.1 % 0x1000 := by
  unfold busyCounter
  dsimp only
  split <;> simp [Reg.WRP_CNT, Reg.PYR_CNT, Reg.STR_CNT, Reg.FLW_CNT, Reg.FTR_CNT, Reg.BM_CNT] <;> omega

theorem State.countBusy_haltKept (u : UnitSt) : HaltKept r (s.countBusy u) := by
  unfold State.countBusy
  split
  · next a m n hx => exact (h.of_regs (t := s.setUnit _) rfl rfl).setFld _ _ (.inr (busyCounter_past_head _ _ _ hx))
  · exact h

theorem State.leaveUnit_haltKept (code e : Nat) : HaltKept r (s.leaveUnit code e) := by
  unfold State.leaveUnit
  extract_lets u
  split
  · refine .ite h ?_
    extract_lets rest s1 s2
    have h2 : HaltKept r s2 := .ite (h.of_regs rfl rfl) (h.of_regs rfl rfl)
    exact h2.of_regs rfl rfl
  · exact .ite ((State.countBusy_haltKept (h.of_regs (t := s.chargeBusy u) rfl rfl) u).of_regs rfl rfl) h

theorem State.cancelNow_haltKept (e : Nat) : HaltKept r (s.cancelNow e) := by
  unfold State.cancelNow
  split
  · exact h
  · next i _ =>
    refine .ite h ?_
    extract_lets s1 s2 s3 s4 s5
    have h1 : HaltKept r s1 := h.setFld _ _ (by decide)
    have h2 : HaltKept r s2 := by
      unfold s2
      split
      · exact State.leaveUnit_haltKept h1 _ _
      · exact h1
    have h5 : HaltKept r s5 := State.finish_haltKept (State.voidRelease_haltKept (h2.of_regs (t := s3) rfl rfl) i) i
    split
    · exact .ite (h5.of_regs rfl rfl) h5
    · exact h5.of_regs rfl rfl
    · exact h5

theorem State.showAbort_haltKept (n : Nat) : HaltKept r (s.showAbort n) := by
  have ha : Reg.SYS_PC_ABORT n < 0x700000 ∨ 0x10 ≤ Reg.SYS_PC_ABORT n % 0x1000 := by unfold Reg.SYS_PC_ABORT; omega
  unfold State.showAbort
  refine .ite h ?_
  split
  · exact h
  · exact ((h.setFld _ _ ha).setFld _ _ ha).setFld _ _ ha

theorem State.cancel_haltKept (e : Nat) : HaltKept r (s.cancel e) := by
  unfold State.cancel
  split
  · exact h
  · refine .ite h (.ite ?_ (State.cancelNow_haltKept h e))
    extract_lets s1
    have h1 : HaltKept r s1 := h.of_regs rfl rfl
    split
    · exact State.showAbort_haltKept h1 _
    · exact h1

/-! ### Power domains -/

theorem State.setDomain_haltKept (on : Bool) {d : Nat} (hd : d < 256) : HaltKept r (s.setDomain on d) :=
  h.setFld _ _ (.inr (by unfold Reg.PMU_DOM_ON; omega))

end

end Sys2Proof.Machine
end

section
/-! SUPPORT. The Safety Island (R396 to R398, R411, R416, R428): what the selection of the Ember path, the safe state, a failed check of
the Island and an excursion of VDD_SI leave. -/

namespace Sys2Proof.Machine

open Sys2Proof

section

variable {s : State}

/-! ### The selection of the Ember path (R416, R417) -/

/-- The doubts that are on their way once the oldest has been taken. -/
def State.leaveDoubts (s : State) (l : List (Nat × Nat × Word)) : State := s.modSafety (fun f => { f with doubts := l })

theorem exec_doubtAtSelector_of_cons {d : Nat × Nat × Word} {l : List (Nat × Nat × Word)} (h : s.safety.doubts = d :: l) :
    exec .doubtAtSelector s = .next ((s.leaveDoubts l).selectEmber 1) := by
  change execDoubtAtSelector s = _
  simp only [execDoubtAtSelector, h]
  rfl

/-- The Ember path is the selected source, from now on or since before. -/
def State.emberChosen (s : State) (why : Nat) : State := if s.emberSelected then s else s.switchSource true why

theorem State.emberChosen_regsWf (h : regsWf s.regs = true) (why : Nat) : regsWf (s.emberChosen why).regs = true :=
  (Keeps.ite (.refl s) (State.switchSource_keeps (.refl s))).regs h

theorem State.emberChosen_same (s : State) (why : Nat) : Same 131073 s (s.emberChosen why) :=
  .ite (.refl s) (State.switchSource_same (.refl s) rfl)

/-- The choice of the Ember path changes the selector's record that awaits its message, and nothing else of the Island's own state. -/
theorem State.safety_emberChosen (s : State) (why : Nat) : ∃ a, (s.emberChosen why).safety =
    { s.safety with sel := { s.safety.sel with announce := a } } := by
  unfold State.emberChosen
  split <;> exact ⟨_, rfl⟩

theorem State.emberSelected_emberChosen (h : regsWf s.regs = true) (why : Nat) : (s.emberChosen why).emberSelected = true := by
  unfold State.emberChosen
  split
  · assumption
  · exact (State.flag_setFlag_other _ _ _ _ _ true (by decide)).trans (State.flag_setFlag_same s Reg.SI_STATUS 16 true h (by decide))

/-- A change to the Ember path is an event (R416). -/
theorem State.switch_emberChosen (h : regsWf s.regs = true) (why : Nat) (hs : s.emberSelected = false) :
    (s.emberChosen why).flag Reg.SI_EVENT F.SI_EVENT.SWITCH = true := by
  unfold State.emberChosen
  rw [hs]
  exact State.flag_event_same _ Reg.SI_EVENT 1 (State.setFld_regsWf _ _ _ _ h) (by decide)

/-- With no message held the counts of R417 start and nothing is handed over. -/
theorem State.selectEmber_of_none {why : Nat} (h : s.safety.sel.held = none) : s.selectEmber why =
    (s.emberChosen why).restartCounts.modSel (fun x => { x with coverNext := true, waitOpen := x.waitOpen || why == 3 }) := by
  have held : (s.emberChosen why).safety.sel.held = none := by
    obtain ⟨_, e⟩ := s.safety_emberChosen why
    rw [e]
    exact h
  unfold State.selectEmber
  extract_lets s1 s2
  split
  · rfl
  · next m hm => exact absurd (hm.symm.trans held) (Option.some_ne_none m)

theorem State.emb_one_lt (s : State) (off : Nat) : s.emb off 1 < 256 := by
  unfold State.emb leAt
  match (s.safety.ember.cfg.drop off) with
  | [] => decide
  | b :: l => simpa [leNat] using b.isLt

/-- The counts of R417 start in SI_SELECT, and no other register changes. -/
theorem State.reg_restartCounts (s : State) {a : Nat} (ha : Reg.SI_SELECT ≠ a) : s.restartCounts.reg a = s.reg a :=
  (State.reg_setFld_other (s.setFld Reg.SI_SELECT F.SI_SELECT.CLEAN 0) _ _ _ _ ha).trans (State.reg_setFld_other s _ _ _ _ ha)

theorem State.counts_restartCounts (h : regsWf s.regs = true) :
    s.restartCounts.fld Reg.SI_SELECT F.SI_SELECT.CLEAN = 0 ∧
      s.restartCounts.fld Reg.SI_SELECT F.SI_SELECT.HOLDOFF_LEFT = s.emb 0x29 1 := by
  have h1 : regsWf (s.setFld Reg.SI_SELECT F.SI_SELECT.CLEAN 0).regs = true := State.setFld_regsWf _ _ _ _ h
  constructor
  · exact (State.fld_setFld_field _ Reg.SI_SELECT F.SI_SELECT.HOLDOFF_LEFT F.SI_SELECT.CLEAN _ h1 (by decide) (by decide)).trans
      (State.fld_setFld_same s Reg.SI_SELECT F.SI_SELECT.CLEAN 0 h (by decide))
  · exact (State.fld_setFld_same _ Reg.SI_SELECT F.SI_SELECT.HOLDOFF_LEFT _ h1 (by decide)).trans
      (Nat.mod_eq_of_lt (s.emb_one_lt 0x29))

/-! ### The safe state (R397, R398) -/

/-- A pin's drive leaves the Island's own pins alone. -/
theorem Pins.drive_alarms (p : Pins) (n level : Nat) :
    (p.drive n level).faultN = p.faultN ∧ (p.drive n level).safeState = p.safeState ∧ (p.drive n level).peerAlive = p.peerAlive := by
  unfold Pins.drive
  dsimp only
  split <;> exact ⟨rfl, rfl, rfl⟩

theorem State.gpioSafe_alarms (s : State) : s.gpioSafe.pins.faultN = s.pins.faultN ∧
    s.gpioSafe.pins.safeState = s.pins.safeState ∧ s.gpioSafe.pins.peerAlive = s.pins.peerAlive := by
  unfold State.gpioSafe
  refine List.foldlRecOn (motive := fun u : State => u.pins.faultN = s.pins.faultN ∧ u.pins.safeState = s.pins.safeState ∧
    u.pins.peerAlive = s.pins.peerAlive) _ _ ⟨rfl, rfl, rfl⟩ fun u ⟨h1, h2, h3⟩ n _ => ?_
  dsimp only
  split
  · obtain ⟨g1, g2, g3⟩ := u.pins.drive_alarms n ((u.gpioRec n).levels / 4 % 4)
    exact ⟨g1.trans h1, g2.trans h2, g3.trans h3⟩
  · exact ⟨h1, h2, h3⟩

theorem State.domainOn_eq (s : State) (d : Nat) : s.domainOn d = s.flag (Reg.PMU_DOM_ON (d / 32)) ⟨d % 32, d % 32⟩ :=
  s.getLsbD_reg _ _

theorem State.setDomain_regsWf (h : regsWf s.regs = true) (on : Bool) (d : Nat) : regsWf (s.setDomain on d).regs = true :=
  State.setFld_regsWf _ _ _ _ h

theorem State.domainOn_setDomain_same (h : regsWf s.regs = true) (on : Bool) (d : Nat) : (s.setDomain on d).domainOn d = on := by
  rw [State.domainOn_eq]
  exact State.flag_setFlag_same s _ _ on h (Nat.mod_lt _ (by decide))

theorem State.domainOn_setDomain_other (h : regsWf s.regs = true) (on : Bool) {d e : Nat} (hne : d ≠ e) :
    (s.setDomain on d).domainOn e = s.domainOn e := by
  rw [State.domainOn_eq, State.domainOn_eq]
  by_cases hr : d / 32 = e / 32
  · rw [← hr]
    exact State.flag_setFlag_field s _ _ _ on h (Bits.ok_bit (Nat.mod_lt _ (by decide))) (Bits.apart_bits (by omega))
  · exact State.flag_setFlag_other s _ _ _ _ on (by unfold Reg.PMU_DOM_ON; omega)

/-- The domains of the sequencer and of the Output Framer are gated, flush window or not. -/
theorem State.domainOn_safeGated (h : regsWf s.regs = true) (flush : Bool) :
    ((safeGated flush).foldl (State.setDomain · false ·) s).domainOn 168 = false ∧
      ((safeGated flush).foldl (State.setDomain · false ·) s).domainOn 186 = false := by
  have h168 := State.setDomain_regsWf h false 168
  have off168 := State.domainOn_setDomain_same h false 168
  cases flush
  · have h185 := State.setDomain_regsWf h168 false 185
    refine ⟨(State.domainOn_setDomain_other h185 false (by decide)).trans ?_, State.domainOn_setDomain_same h185 false 186⟩
    exact (State.domainOn_setDomain_other h168 false (by decide)).trans off168
  · exact ⟨(State.domainOn_setDomain_other h168 false (by decide)).trans off168, State.domainOn_setDomain_same h168 false 186⟩

theorem State.safeGated_haltKept (s : State) (flush : Bool) : HaltKept s ((safeGated flush).foldl (State.setDomain · false ·) s) := by
  have one := fun {u : State} (hu : HaltKept s u) {d : Nat} (hd : d < 256) => State.setDomain_haltKept hu false hd
  cases flush
  · exact one (one (one (.refl s) (by decide)) (by decide)) (by decide)
  · exact one (one (.refl s) (by decide)) (by decide)

/-- The safe state is shown: the pins, SI_STATUS, the Output Framer disabled and the sequencer halted (R397). -/
def State.safeShown (s : State) : State :=
  let s := s.modPins (fun p => { p with
    faultN := false
    safeState := true
    peerAlive := false })
  let s := (s.setFlag Reg.SI_STATUS F.SI_STATUS.SAFE true).setFlag Reg.SI_STATUS F.SI_STATUS.FAULT_N false
  let s := s.setFlag Reg.OF_RESULT F.OF_RESULT.ENABLED false
  { s with fgs := { s.fgs with halted := true } }

/-- What the units ran is cancelled, the outputs take their safe levels, and the partners are told (R397, R465, R491). -/
def State.safeCleared (s : State) : State :=
  let s := (s.fgs.insts.filter (fun i => i.busy)).foldl (fun (s : State) i => s.cancel i.entry) s
  let s := if s.kin.bindDone then s.gpioSafe else s
  [0, 1, 2].foldl (fun (s : State) k =>
    if s.fld (Reg.GML_STATUS k) F.GML_STATUS.STATE == 2 then s.sendOn k (.goingDown (dev2 s.device)) else s) s

/-- The cause in force, the flush window and the gated domains (R397, R398). -/
def State.safeClosed (s : State) (cause : Nat) : State :=
  let flush := s.emb 0x2C 1 == 1 && cause != 16
  let s := s.modSafety (fun f => { f with
    severe := some (f.severe.getD cause)
    flushDue := if flush && f.flushDue.isNone then some (s.now + 10000000) else f.flushDue })
  let s := (safeGated flush).foldl (State.setDomain · false ·) s
  if flush then s else s.modJournal (fun j => { j with fenced := true })

theorem State.enterSafe_eq (s : State) (cause : Nat) : s.enterSafe cause = s.safeShown.safeCleared.safeClosed cause := rfl

theorem State.safeShown_regsWf (h : regsWf s.regs = true) : regsWf s.safeShown.regs = true :=
  State.setFld_regsWf _ _ _ _ (State.setFld_regsWf _ _ _ _ (State.setFld_regsWf _ _ _ _ h))

theorem State.safe_safeShown (h : regsWf s.regs = true) : s.safeShown.flag Reg.SI_STATUS F.SI_STATUS.SAFE = true := by
  have h1 : regsWf ((s.setFlag Reg.SI_STATUS F.SI_STATUS.SAFE true).regs) = true := State.setFld_regsWf _ _ _ _ h
  exact (State.flag_setFlag_other _ _ _ _ _ false (by decide)).trans ((State.flag_setFlag_field _ Reg.SI_STATUS F.SI_STATUS.FAULT_N
    F.SI_STATUS.SAFE false h1 (by decide) (by decide)).trans (State.flag_setFlag_same s Reg.SI_STATUS 31 true h (by decide)))

theorem State.ofEnabled_safeShown (h : regsWf s.regs = true) : s.safeShown.ofEnabled = false :=
  State.flag_setFlag_same _ Reg.OF_RESULT 30 false (State.setFld_regsWf _ _ _ _ (State.setFld_regsWf _ _ _ _ h)) (by decide)

theorem State.safeCleared_haltKept (s : State) : HaltKept s s.safeCleared := by
  unfold State.safeCleared
  extract_lets s1 s2
  have h1 : HaltKept s s1 := HaltKept.foldl (fun _ _ hu => State.cancel_haltKept hu _) (.refl s)
  have h2 : HaltKept s s2 := .ite (h1.of_same (State.gpioSafe_same (m0 := 512) (.refl s1) rfl) rfl rfl) h1
  exact HaltKept.foldl (fun _ _ hu => .ite (State.sendOn_haltKept hu _ _) hu) h2

theorem State.safeCleared_regsWf (h : regsWf s.regs = true) : regsWf s.safeCleared.regs = true := by
  unfold State.safeCleared
  extract_lets s1 s2
  have h1 : Keeps s s1 := Keeps.foldl (fun _ _ hu => State.cancel_keeps hu) (.refl s)
  have h2 : Keeps s s2 := .ite (State.gpioSafe_keeps h1) h1
  exact (Keeps.foldl (fun _ _ hu => .ite (State.sendOn_keeps hu) hu) h2).regs h

/-- No cancellation and no packet touches the Island, memory or time. -/
theorem State.safeCleared_same (s : State) : Same 8704521 s s.safeCleared := by
  unfold State.safeCleared
  extract_lets s1 s2
  have h1 : Same 8704521 s s1 := Same.foldl (fun _ _ hu => State.cancel_same hu rfl) (.refl s)
  have h2 : Same 8704521 s s2 := .ite (State.gpioSafe_same h1 rfl) h1
  exact Same.foldl (fun _ _ hu => .ite (State.sendOn_same hu rfl) hu) h2

theorem State.safeCleared_alarms (s : State) : s.safeCleared.pins.faultN = s.pins.faultN ∧
    s.safeCleared.pins.safeState = s.pins.safeState ∧ s.safeCleared.pins.peerAlive = s.pins.peerAlive := by
  unfold State.safeCleared
  extract_lets s1 s2
  have h1 : s1.pins = s.pins := (Same.foldl (w := 8704009) (fun _ _ hu => State.cancel_same hu rfl) (.refl s)).pins rfl
  have h2 : s2.pins.faultN = s.pins.faultN ∧ s2.pins.safeState = s.pins.safeState ∧ s2.pins.peerAlive = s.pins.peerAlive := by
    unfold s2
    rw [← h1]
    split
    · exact s1.gpioSafe_alarms
    · exact ⟨rfl, rfl, rfl⟩
  rw [(Same.foldl (w := 8388609) (fun _ _ hu => .ite (State.sendOn_same hu rfl) hu) (.refl s2)).pins rfl]
  exact h2

/-- What is closed at the entry into the safe state, beside the registers of the power domains. -/
theorem State.safeClosed_eq (s : State) (cause : Nat) : ∃ regs, s.safeClosed cause = { s with
    regs := regs
    safety := { s.safety with
      severe := some (s.safety.severe.getD cause)
      flushDue := if (s.emb 0x2C 1 == 1 && cause != 16) && s.safety.flushDue.isNone then some (s.now + 10000000)
        else s.safety.flushDue }
    journal := if s.emb 0x2C 1 == 1 && cause != 16 then s.journal else { s.journal with fenced := true } } := by
  unfold State.safeClosed
  extract_lets flush s1 s2
  have hf : (s.emb 0x2C 1 == 1 && cause != 16) = flush := rfl
  rw [hf]
  clear_value flush
  cases flush <;> exact ⟨_, rfl⟩

theorem State.safeClosed_regs (s : State) (cause : Nat) : ∃ flush u, u.regs = s.regs ∧
    (s.safeClosed cause).regs = ((safeGated flush).foldl (State.setDomain · false ·) u).regs := by
  unfold State.safeClosed
  extract_lets flush s1 s2
  exact ⟨flush, s1, rfl, by split <;> rfl⟩

/-- What the entry into the safe state leaves (R397). -/
structure SafeEntered (s t : State) (cause : Nat) : Prop where
  faultN : t.pins.faultN = false
  safeState : t.pins.safeState = true
  peerAlive : t.pins.peerAlive = false
  safe : t.flag Reg.SI_STATUS F.SI_STATUS.SAFE = true
  framer : t.ofEnabled = false
  halted : t.fgs.halted = true
  safety : t.safety = { s.safety with
    severe := some (s.safety.severe.getD cause)
    flushDue := if (s.emb 0x2C 1 == 1 && cause != 16) && s.safety.flushDue.isNone then some (s.now + 10000000)
      else s.safety.flushDue }
  fenced : s.emb 0x2C 1 ≠ 1 → t.journal.fenced = true
  sequencer : t.domainOn 168 = false
  outputs : t.domainOn 186 = false
  mem : t.mem = s.mem
  now : t.now = s.now

theorem State.enterSafe_entered (h : regsWf s.regs = true) (cause : Nat) : SafeEntered s (s.enterSafe cause) cause := by
  have cleared := s.safeShown.safeCleared_same
  have kept := s.safeShown.safeCleared_haltKept
  have wf : regsWf s.safeShown.safeCleared.regs = true := State.safeCleared_regsWf (State.safeShown_regsWf h)
  obtain ⟨faultN, safeState, peerAlive⟩ := s.safeShown.safeCleared_alarms
  have safety : s.safeShown.safeCleared.safety = s.safety := cleared.safety rfl
  have now : s.safeShown.safeCleared.now = s.now := cleared.now rfl
  have mem : s.safeShown.safeCleared.mem = s.mem := cleared.mem rfl
  rw [State.enterSafe_eq]
  generalize s.safeShown.safeCleared = u at *
  have emb : u.emb 0x2C 1 = s.emb 0x2C 1 := by unfold State.emb; rw [safety]
  obtain ⟨flush, v, hv, hr⟩ := u.safeClosed_regs cause
  have off := State.domainOn_safeGated (hv.symm ▸ wf : regsWf v.regs = true) flush
  have gated := v.safeGated_haltKept flush
  generalize (safeGated flush).foldl (State.setDomain · false ·) v = w at *
  have reg : ∀ a, 0x700000 ≤ a → a % 0x1000 < 0x10 → (u.safeClosed cause).reg a = s.safeShown.reg a := fun a ha hm =>
    (State.reg_congr hr a).trans ((gated.reg a ha hm).trans ((State.reg_congr hv a).trans (kept.reg a ha hm)))
  have domain : ∀ d, (u.safeClosed cause).domainOn d = w.domainOn d := fun d => by
    unfold State.domainOn
    rw [State.reg_congr hr]
  obtain ⟨regs, e⟩ := u.safeClosed_eq cause
  exact {
    faultN := by rw [e]; exact faultN
    safeState := by rw [e]; exact safeState
    peerAlive := by rw [e]; exact peerAlive
    safe := (State.flag_eq_of_reg (reg _ (by decide) (by decide)) _).trans (State.safe_safeShown h)
    framer := (State.flag_eq_of_reg (reg _ (by decide) (by decide)) _).trans (State.ofEnabled_safeShown h)
    halted := by rw [e]; exact kept.halted
    safety := by rw [e, safety, emb, now]
    fenced := fun hf => by rw [e, emb]; simp [hf]
    sequencer := (domain 168).trans off.1
    outputs := (domain 186).trans off.2
    mem := by rw [e]; exact mem
    now := by rw [e]; exact now }

/-- The severe events that are on their way once the oldest has been taken. -/
def State.leaveSeveres (s : State) (l : List (Nat × Nat)) : State := s.modSafety (fun f => { f with severes := l })

theorem exec_safeStateEntry_of_cons {x : Nat × Nat} {l : List (Nat × Nat)} (h : s.safety.severes = x :: l) :
    exec .safeStateEntry s = .next (if x.1 = 16 then ((s.leaveSeveres l).enterSafe x.1).stopIsland
      else (s.leaveSeveres l).enterSafe x.1) := by
  obtain ⟨cause, unit⟩ := x
  change execSafeStateEntry s = _
  simp only [execSafeStateEntry, h, beq_iff_eq]
  rfl

/-! ### The end of the flush window (R398) -/

/-- A register that the core's reset does not leave alone keeps the bits of its mask and takes its reset value in the others. -/
theorem assocGet_warm {a : Nat} (ha : islandKeeps a = false) (l : List (Nat × Word)) {lo : Nat} (h : risingFrom lo l = true) :
    (assocGet (l.filterMap keptReg) a).getD (resetWord a) =
      ((assocGet l a).getD (resetWord a) &&& keepMask a) ||| (resetWord a &&& ~~~keepMask a) := by
  induction l generalizing lo with
  | nil =>
    refine BitVec.eq_of_getLsbD_eq fun i _ => ?_
    cases hm : (keepMask a).getLsbD i <;> simp_all [assocGet]
  | cons c l ih =>
    obtain ⟨k, w⟩ := c
    obtain ⟨-, hl⟩ : lo ≤ k ∧ risingFrom (k + 1) l = true := by simpa [risingFrom] using h
    by_cases hk : k = a
    · subst hk
      have later : assocGet (l.filterMap keptReg) k = none :=
        assocGet_below _ (rising_filterMap l keptReg (fun _ _ => keptReg_key) hl) (Nat.lt_succ_self k)
      by_cases hw : ((w &&& keepMask k) ||| (resetWord k &&& ~~~keepMask k)) = resetWord k
      · have gone : keptReg (k, w) = none := by simp [keptReg, ha, hw]
        rw [List.filterMap_cons_none gone, later]
        simpa [assocGet] using hw.symm
      · have kept : keptReg (k, w) = some (k, (w &&& keepMask k) ||| (resetWord k &&& ~~~keepMask k)) := by
          simp [keptReg, ha, hw]
        rw [List.filterMap_cons_some kept]
        simp [assocGet]
    · have skip : assocGet ((k, w) :: l) a = assocGet l a := if_neg hk
      rw [skip, ← ih hl]
      cases hr : keptReg (k, w) with
      | none => rw [List.filterMap_cons_none hr]
      | some d =>
        have ne : d.1 ≠ a := fun e => hk ((keptReg_key hr).symm.trans e)
        have skipped : assocGet (d :: l.filterMap keptReg) a = assocGet (l.filterMap keptReg) a := if_neg ne
        rw [List.filterMap_cons_some hr, skipped]

/-- The core's reset ends every stage of kindling. -/
theorem State.stage_coreOff (h : regsWf s.regs = true) : s.coreOff.stage = 0 := by
  have rising : risingFrom 0 s.regs = true := by
    simp only [regsWf, Bool.and_eq_true] at h
    exact h.1
  have reg : s.coreOff.reg Reg.SYS_KIN_STATUS = (s.reg Reg.SYS_KIN_STATUS &&& keepMask Reg.SYS_KIN_STATUS) |||
      (resetWord Reg.SYS_KIN_STATUS &&& ~~~keepMask Reg.SYS_KIN_STATUS) := assocGet_warm (by decide) s.regs rising
  have mask : ∀ i < 4, (keepMask Reg.SYS_KIN_STATUS).getLsbD i = false := by decide
  have value : ∀ i < 4, (resetWord Reg.SYS_KIN_STATUS).getLsbD i = false := by decide
  refine Nat.eq_of_testBit_eq fun i => ?_
  unfold State.stage State.fld
  rw [reg, Bits.get_testBit, Nat.zero_testBit]
  by_cases hi : i < 4
  · simp [F.SYS_KIN_STATUS.STATE, mask i hi, value i hi]
  · simp [F.SYS_KIN_STATUS.STATE, hi]

theorem State.stage_warmReset {cause : Bits} {hold : Bool} (h : regsWf s.regs = true) (hr : s.resettable = true)
    (hw : s.inWarmReset = false) (h1 : s.stage ≠ 1) (h14 : s.stage ≠ 14) : (s.warmReset cause hold).stage = 0 := by
  rw [State.warmReset_eq cause hold hr hw h1 h14]
  exact (State.fld_setFld_other _ _ _ _ _ _ (by decide)).trans ((State.fld_setFld_field _ Reg.SYS_KIN_STATUS
    F.SYS_KIN_STATUS.WARM_COUNT F.SYS_KIN_STATUS.STATE _ (State.coreOff_regsWf h) (by decide) (by decide)).trans
    (State.stage_coreOff h))

/-- The flush window has ended. -/
def State.flushEnded (s : State) (d : Nat) : State := (s.reach d).modSafety (fun f => { f with flushDue := none })

theorem exec_severeFlushExpiry_of_due {d : Nat} (h : s.safety.flushDue = some d) :
    exec .severeFlushExpiry s = .next ((s.flushEnded d).warmReset F.SYS_RST_CAUSE.SM true) := by
  change execSevereFlushExpiry s = _
  simp only [execSevereFlushExpiry, h]
  rfl

/-! ### The Island's own checks (R411) -/

theorem State.islandFails_of_runs (h : s.smRuns = true) : s.islandFails = (s.severe 16 0x1200).stopIsland := by
  simp only [State.islandFails, h, if_true]

/-- A severe event shows in SI_LAST (R425). -/
theorem State.reg_severe_last (h : regsWf s.regs = true) (cause unit : Nat) :
    (s.severe cause unit).reg Reg.SI_LAST = w32 (3 * 0x1000000 + cause * 0x10000 + unit) :=
  (State.reg_log _ _ _ _ _ _ _ _ _ _ (by decide) (by decide)).trans (State.reg_setReg_same s _ _ h)

theorem cause_islandLast : F.SI_LAST.CAUSE.get (w32 (3 * 0x1000000 + 16 * 0x10000 + 0x1200)) = 16 := by decide

theorem State.cause_severe_island (h : regsWf s.regs = true) : (s.severe 16 0x1200).fld Reg.SI_LAST F.SI_LAST.CAUSE = 16 := by
  unfold State.fld
  rw [State.reg_severe_last h]
  exact cause_islandLast

/-- A failed check of the Island is cause 16, severe, and stops HEARTBEAT; beside its record it shows in SI_LAST alone. -/
theorem State.islandFails_stops (h : regsWf s.regs = true) (hr : s.smRuns = true) :
    (16, 0x1200) ∈ s.islandFails.safety.severes ∧ s.islandFails.safety.stopped = true ∧ s.islandFails.pins.heartbeat = false ∧
      s.islandFails.fld Reg.SI_LAST F.SI_LAST.CAUSE = 16 ∧
      regsKept s s.islandFails [Reg.SI_LAST, Reg.EJ_EVENT, Reg.EJ_LOST_CNT] ∧ s.islandFails.mem = s.mem ∧
      s.islandFails.now = s.now := by
  have same := State.severe_same (m0 := 196609) (cause := 16) (unit := 0x1200) (.refl s) rfl
  have mem : (s.severe 16 0x1200).mem = s.mem := same.mem rfl
  have now : (s.severe 16 0x1200).now = s.now := same.now rfl
  have severes := s.mem_severes_severe 16 0x1200
  have cause := State.cause_severe_island h
  have kept : regsKept s (s.severe 16 0x1200) [Reg.SI_LAST, Reg.EJ_EVENT, Reg.EJ_LOST_CNT] := fun a ha => by
    simp only [List.mem_cons, List.not_mem_nil, or_false, not_or] at ha
    exact State.reg_severe_other 16 0x1200 ha.1 ha.2.1 ha.2.2
  rw [State.islandFails_of_runs hr]
  generalize s.severe 16 0x1200 = u at *
  exact ⟨severes, rfl, rfl, cause, kept, mem, now⟩

theorem exec_islandWatchdogExpiry_of_runs (h : s.smRuns = true) :
    exec .islandWatchdogExpiry s = .next (s.reach (s.safety.served + 2000000)).islandFails := by
  change execIslandWatchdogExpiry s = _
  simp only [execIslandWatchdogExpiry, h, if_true]

theorem exec_heartbeatToggle_of_runs (h : s.smRuns = true) : exec .heartbeatToggle s =
    .next (((s.reach (s.safety.served + 1000000)).modPins (fun p => { p with heartbeat := !p.heartbeat })).modSafety
      (fun f => { f with served := max s.now (s.safety.served + 1000000) })) := by
  change execHeartbeatToggle s = _
  simp only [execHeartbeatToggle, h, if_true]
  rfl

/-! ### An excursion of VDD_SI (spec/16, "Safety Manager") -/

/-- The state in which an excursion of VDD_SI leaves the device: the core is off, and the Island and its pins are reset. -/
def State.islandReset (s : State) : State :=
  { s.coreOff.modKin (fun k => { k with siFailed := true }) with
    regs := s.coreOff.regs.filter (fun r => !inSi r.1)
    pins := { State.reset.pins with errInLow := s.pins.errInLow }
    safety := State.reset.safety
    journal := State.reset.journal }

theorem exec_vddSiExcursion_of_high (h : s.kin.porstLow = false) : exec .vddSiExcursion s = .next s.islandReset := by
  change execVddSiExcursion s = _
  simp only [execVddSiExcursion, h, Bool.false_eq_true, if_false]
  rfl

/-- The Island's registers take their reset values. -/
theorem State.reg_islandReset (s : State) {a : Nat} (ha : inSi a = true) : s.islandReset.reg a = resetWord a := by
  have gone : assocGet s.islandReset.regs a = none :=
    (assocGet_filter s.coreOff.regs (fun k => !inSi k) a).trans (by rw [ha]; rfl)
  unfold State.reg
  rw [gone]
  rfl

end

/-- Settles O40: the Ember path is chosen before the counts of R417 start; the safe state is shown, and neither the cancellations nor
the packets that follow touch what shows it (`State.enterSafe_entered`); the Island's own checks come to `State.islandFails_stops`. -/
theorem safetyIsland : Obligations.SafetyIsland := by
  unfold Obligations.SafetyIsland
  refine ⟨?doubt, ?entry, ?flush, ?passed, ?rom, ?watchdog, ?clock, ?lockstep, ?sram, ?vdd, ?heartbeat⟩
  case doubt =>
    intro s d l hc hd hh
    have wf : regsWf (s.leaveDoubts l).regs = true := State.canonical_regs hc
    have same := (s.leaveDoubts l).emberChosen_same 1
    have chosen := State.emberSelected_emberChosen wf 1
    have switch := State.switch_emberChosen wf 1
    obtain ⟨a, safety⟩ := (s.leaveDoubts l).safety_emberChosen 1
    obtain ⟨clean, left⟩ := State.counts_restartCounts (State.emberChosen_regsWf wf 1)
    rw [exec_doubtAtSelector_of_cons hd, State.selectEmber_of_none (s := s.leaveDoubts l) hh]
    generalize (s.leaveDoubts l).emberChosen 1 = u at *
    have reg : ∀ a, Reg.SI_SELECT ≠ a → u.restartCounts.reg a = u.reg a := fun _ => u.reg_restartCounts
    have emb : u.emb 0x29 1 = s.emb 0x29 1 := by
      unfold State.emb
      rw [safety]
      rfl
    have doubts : u.safety.doubts = l := by rw [safety]; rfl
    exact completes_next ⟨(State.flag_eq_of_reg (reg _ (by decide)) _).trans chosen, doubts, clean, left.trans emb,
      fun h => (State.flag_eq_of_reg (reg _ (by decide)) _).trans (switch h), same.mem rfl, same.now rfl⟩
  case entry =>
    intro s x l hc hs
    have wf : regsWf (s.leaveSeveres l).regs = true := State.canonical_regs hc
    obtain ⟨faultN, safeState, peerAlive, safe, framer, halted, safety, fenced, sequencer, outputs, mem, now⟩ :=
      State.enterSafe_entered wf x.1
    rw [exec_safeStateEntry_of_cons hs]
    generalize (s.leaveSeveres l).enterSafe x.1 = u at *
    have severes : u.safety.severes = l := by rw [safety]; rfl
    have severe : u.safety.severe = some (s.safety.severe.getD x.1) := by rw [safety]; rfl
    by_cases h16 : x.1 = 16
    · rw [if_pos h16]
      exact completes_next ⟨faultN, safeState, peerAlive, safe, framer, halted, severes, severe, fun _ => ⟨rfl, rfl, rfl⟩, fenced,
        fun _ h => absurd h16 h, sequencer, outputs, mem, now⟩
    · rw [if_neg h16]
      refine completes_next ⟨faultN, safeState, peerAlive, safe, framer, halted, severes, severe, fun h => absurd h h16, fenced,
        fun h1 _ => ?_, sequencer, outputs, mem, now⟩
      have window : ((s.leaveSeveres l).emb 0x2C 1 == 1 && x.1 != 16) = true := by
        have emb : (s.leaveSeveres l).emb 0x2C 1 = 1 := h1
        simp [emb, h16]
      rw [safety, window]
      change (if s.safety.flushDue.isNone then some (s.now + 10000000) else s.safety.flushDue) = _
      cases s.safety.flushDue <;> rfl
  case flush =>
    intro s d hc hd hr h2 h14
    have wf : regsWf (s.flushEnded d).regs = true := State.canonical_regs hc
    have resettable : (s.flushEnded d).resettable = true := hr
    have h0 : (s.flushEnded d).inWarmReset = false := State.inWarmReset_of_stage (show s.stage ≠ 0 by omega)
    have h1 : (s.flushEnded d).stage ≠ 1 := show s.stage ≠ 1 by omega
    have h14' : (s.flushEnded d).stage ≠ 14 := h14
    have cause := State.flag_warmReset 2 true (by decide) wf resettable h0 h1 h14'
    have stage := State.stage_warmReset (cause := F.SYS_RST_CAUSE.SM) (hold := true) wf resettable h0 h1 h14'
    rw [exec_severeFlushExpiry_of_due hd]
    refine completes_next ⟨?_, ?_, cause, stage, ?_, ?_, ?_⟩ <;>
      rw [State.warmReset_eq F.SYS_RST_CAUSE.SM true resettable h0 h1 h14'] <;> rfl
  case passed =>
    intro s pass _ _
    cases pass
    · exact completes_next fun h => absurd h Bool.false_ne_true
    · exact completes_next fun _ => rfl
  case rom =>
    intro s hc hr
    obtain ⟨severe, stopped, heartbeat, last, regs, mem, _⟩ := State.islandFails_stops (State.canonical_regs hc) hr
    exact completes_next ⟨severe, stopped, heartbeat, last, regs, mem⟩
  case watchdog =>
    intro s hc hr
    rw [exec_islandWatchdogExpiry_of_runs hr]
    exact completes_next (State.islandFails_stops (s := s.reach (s.safety.served + 2000000)) (State.canonical_regs hc) hr)
  case clock => exact fun s hc hr => completes_next (State.islandFails_stops (State.canonical_regs hc) hr)
  case lockstep => exact fun s hc hr => completes_next (State.islandFails_stops (State.canonical_regs hc) hr)
  case sram => exact fun s hc hr => completes_next (State.islandFails_stops (State.canonical_regs hc) hr)
  case vdd =>
    intro s _ hp
    rw [exec_vddSiExcursion_of_high hp]
    exact completes_next ⟨rfl, rfl, rfl, rfl, rfl, fun a ha => s.reg_islandReset ha, rfl, rfl⟩
  case heartbeat =>
    intro s hr
    rw [exec_heartbeatToggle_of_runs hr]
    exact completes_next ⟨rfl, rfl, rfl, rfl, rfl⟩

end Sys2Proof.Machine
end

section
/-! SUPPORT. Evaluations of the adaptation rules (R76, R436): what an evaluation that is not paused comes to, and a state in which the
switch that it accepts charges busy time to the period that has just begun. -/

namespace Sys2Proof.Machine

open Sys2Proof

section

variable {s : State}

/-- The state once the rules have been evaluated in their order, and the numbers of those that have changed. -/
def State.rulesEvaluated (s : State) : State × List Nat :=
  (s.flash.rules s.imgRegion).zipIdx.foldl (fun p q => p.1.evalRule q.2 q.1 p.2) (s, [])

/-- The state in which an evaluation leaves the device: a new period begins, and what has changed acts. -/
def State.adapted (s : State) : State :=
  (s.rulesEvaluated.1.newPeriod).actRules (s.flash.rules s.imgRegion) s.rulesEvaluated.2

/-- READY and with no switch in progress, the rules are evaluated once EVAL_MS has passed. -/
theorem exec_adaptEval_of_running (hr : s.running = true) (hs : s.scene.switch = none) :
    exec .adaptEval s = .next (s.reach (s.adapt.evalAt + s.adaptLe 8 2 * 1000000)).adapted := by
  change execAdaptEval s = _
  unfold execAdaptEval
  rw [hr, hs, if_neg (by decide)]
  rfl

end

namespace ReadyHolder

/-- An image of four sections: SCENE 0, which lists layer 0 and goes to scene 1 once rule 0 has fired; SCENE 1, which lists layer 1;
that layer, which names no unit; and ADAPTATION, with EVAL_MS 10 and one rule, which fires at 0 misses or more. -/
def flash : Flash :=
  [(0x101C, [4, 0, 0, 0, 0, 1, 0, 0]),
    (0x1100, [1, 0, 0, 0, 0, 0, 0, 0, 0, 2, 0, 0, 40, 0, 0, 0]),
    (0x1140, [1, 0, 0, 0, 1, 0, 0, 0, 0, 3, 0, 0, 18, 0, 0, 0]),
    (0x1180, [2, 0, 0, 0, 1, 0, 0, 0, 0, 4, 0, 0, 24, 0, 0, 0]),
    (0x11C0, [11, 0, 0, 0, 0, 0, 0, 0, 0, 5, 0, 0, 96, 0, 0, 0]),
    (0x1200, [0, 1, 0xFF, 0, 0, 0, 0, 0, 0, 0, 0, 0, 1, 0, 0, 0, 0, 0]),
    (0x1220, [3, 0, 0, 1, 1, 0, 0, 0]),
    (0x1300, [1, 1, 0xFF, 0, 0, 0, 0, 0, 0, 0, 0, 0, 0, 0, 0, 0, 1, 0]),
    (0x1400, [1, 0, 2, 1] ++ List.replicate 20 0),
    (0x1500, [1, 0, 1, 0, 3, 0, 10, 0, 10, 0]),
    (0x1540, [4, 0, 2] ++ List.replicate 9 0 ++ [1] ++ List.replicate 19 0)].foldl
    (fun f w => f.program 0 w.1 w.2) { State.reset.flash with present0 := true }

/-- Layer 0, of which a node of stereo engines is the only one. -/
def layer : LayerRec where
  id := 0
  partition := 2
  base := true
  firewall := 0
  unitMask := 0xF00
  fsBytes := 0
  rings := []
  nodes := [StrayHolder.node.rc]
  flows := []

/-- The node's entry in the matching store, which is ready and yet names stereo engine 0. -/
def inst : Inst := { StrayHolder.inst with st := .ready, unit := some 0x0500 }

/-- The device is READY in scene 0 with no switch in progress, and stereo engine 0 holds the entry. -/
def state : State :=
  { State.reset with
    kin := { State.reset.kin with porstLow := false, coreReset := false, booted := some 0 }
    flash := flash
    scene := { State.reset.scene with layers := [⟨layer, false, true, 0, []⟩] }
    fgs := { State.reset.fgs with nodes := [StrayHolder.node], insts := [inst] }
    units := [StrayHolder.holder 0x0500 none]
    adapt := { State.reset.adapt with rules := [⟨false, 0⟩] }
    regs := [(Reg.SYS_KIN_STATUS, 11)] }

theorem state_running : state.running = true := by decide

/-- The state when its evaluation is due. -/
def due : State := state.reach (state.adapt.evalAt + state.adaptLe 8 2 * 1000000)

theorem exec_eval : exec .adaptEval state = .next due.adapted := exec_adaptEval_of_running state_running rfl

/-- Rule 0 fires, and the trigger on it leads to scene 1. -/
theorem adapted_switches : due.adapted.scene.switch.map (fun w => (w.target, w.cause, w.outgoing)) = some (1, 3, [0]) := by
  decide +kernel

/-- The switch cancels the entry of the outgoing layer at once, since it does not run, and stereo engine 0, which leaves it, is charged
to its class. -/
theorem adapted_busy : due.adapted.adapt.busy = [(classOfUnit 0x0500, 0)] := by decide +kernel

end ReadyHolder

/-- Refutes O31: no hypothesis of the clause on evaluations says that a unit holds only what is dispatched or runs. Where stereo engine
0 holds an entry that is ready, and the rule that an evaluation fires leads to another scene (`ReadyHolder.adapted_switches`), the
switch cancels that entry in the new period, whose busy times are then not empty (`ReadyHolder.adapted_busy`). -/
theorem not_adaptation : ¬ Obligations.Adaptation := by
  unfold Obligations.Adaptation
  intro ⟨eval, _⟩
  obtain ⟨t, ht, _, _, _, _, _, _, busy, _⟩ := eval ReadyHolder.state ReadyHolder.state_running rfl
  obtain rfl : ReadyHolder.due.adapted = t := Host.Outcome.next.inj (ReadyHolder.exec_eval.symm.trans ht)
  rw [ReadyHolder.adapted_busy] at busy
  exact List.cons_ne_nil _ _ busy

end Sys2Proof.Machine
end

section
/-! SUPPORT. Faults of power domains (R431, R441): a state in which the fence that follows a fault clears the event that the fault has
set. -/

namespace Sys2Proof.Machine

open Sys2Proof

/-- The controller has 512 sources, whose active states fill the 16 registers ICU_ACTk (spec/15): that of a source 0x56FC285 would
be the DOMAIN_FAULT event of the PMU. -/
theorem State.srcActive_eq_domainFault (s : State) :
    s.srcActive 0x56FC285 = s.flag Reg.PMU_EVENT F.PMU_EVENT.DOMAIN_FAULT := rfl

theorem unitsOfDomain_pair0 : unitsOfDomain 128 = [0x0B00] := by decide

/-- A fault of the domain of pair 0 fences the pair. -/
theorem State.failDomain_pair0 (s : State) : s.failDomain 128 = s.fence 0x0B00 4 := by
  unfold State.failDomain
  simp [unitsOfDomain_pair0]

namespace StrayFault

/-- Pair 0, which domain 128 powers, runs, and a source of the identifier 0x56FC285 is active on it. -/
def state : State :=
  { State.reset with cores := State.reset.cores.set 0 { CoreSt.zero with active := [(0x56FC285, 0)] } }

theorem state_canonical : state.canonical = true := by decide

/-- The state once the fault is an event and in the journal. -/
def noted : State :=
  (state.event Reg.PMU_EVENT F.PMU_EVENT.DOMAIN_FAULT).log srcPmu 0x0807 1 0 0xFF 128 (bit (state.domainOn 128))
    (bit (!state.domainOn 128))

/-- The fault sets the event. -/
theorem noted_event : noted.flag Reg.PMU_EVENT F.PMU_EVENT.DOMAIN_FAULT = true := by decide

theorem exec_fault : exec (.domainFault 128) state = .next (noted.fence 0x0B00 4) :=
  congrArg Host.Outcome.next noted.failDomain_pair0

/-- The fence completes what is active on the pair. -/
theorem fence_inactive : (noted.fence 0x0B00 4).srcActive 0x56FC285 = false := by decide +kernel

end StrayFault

/-- Refutes O32: no hypothesis of the clause on faults bounds the identifiers of the sources active on a pair. Where a source
0x56FC285 is active on pair 0, whose active state is the DOMAIN_FAULT event (`State.srcActive_eq_domainFault`), a fault of domain 128
sets the event (`StrayFault.noted_event`), and the fence of the pair that follows completes that source and so clears it. -/
theorem not_powerDomains : ¬ Obligations.PowerDomains := by
  unfold Obligations.PowerDomains
  intro ⟨_, fault, _⟩
  obtain ⟨t, ht, event, _⟩ := fault StrayFault.state 128 StrayFault.state_canonical
  obtain rfl : StrayFault.noted.fence 0x0B00 4 = t := Host.Outcome.next.inj (StrayFault.exec_fault.symm.trans ht)
  rw [← State.srcActive_eq_domainFault, StrayFault.fence_inactive] at event
  exact Bool.false_ne_true event

end Sys2Proof.Machine
end


section
/-! SUPPORT. What holds of every command: that it answers, which parts of the state it leaves alone, and that the table of registers
does not bound what an ECALL changes in a bank that no pair has. -/

namespace Sys2Proof.Machine

open Sys2Proof

/-! ### Every command answers -/

/-- A command answers a next state. -/
def Answers (r : Res) : Prop := ∃ t, r = .next t

namespace Answers

theorem next (t : State) : Answers (.next t) := ⟨t, rfl⟩

theorem ite {c : Prop} [Decidable c] {a b : Res} (ha : Answers a) (hb : Answers b) : Answers (if c then a else b) := by
  split <;> assumption

end Answers

theorem execSectionLoaded_answers (s : State) : Answers (execSectionLoaded s) := by
  unfold execSectionLoaded
  split
  · exact .next _
  · refine .ite (.next _) (.ite (.next _) (.ite (.next _) (.ite (.next _) ?_)))
    split <;> exact .next _

theorem execDispatch_answers (unit : Half) (s : State) : Answers (execDispatch unit s) := by
  unfold execDispatch
  dsimp only
  refine .ite (.next _) ?_
  split
  · split
    · exact .ite (.next _) (.next _)
    · exact .next _
  · exact .ite (.next _) (.next _)

theorem execAffinityHoldExpiry_answers (entry : Fin 4096) (s : State) : Answers (execAffinityHoldExpiry entry s) := by
  unfold execAffinityHoldExpiry
  dsimp only
  split
  · exact .next _
  · split
    · split
      · exact .ite (.next _) (.next _)
      · exact .next _
    · exact .next _

theorem execPcDispatch_answers (pair : Fin 4) (s : State) : Answers (execPcDispatch pair s) := by
  unfold execPcDispatch
  refine .ite (.next _) (.ite ?_ ?_)
  · split
    · split <;> exact .next _
  · split <;> exact .next _

theorem execStepComplete_answers (unit : Half) (s : State) : Answers (execStepComplete unit s) := by
  unfold execStepComplete
  dsimp only
  split
  · exact .next _
  · split
    · exact .next _
    · exact .ite (.ite (.next _) (.next _)) (.next _)

theorem execFlowWatchExpiry_answers (single : Bool) (n : Fin 4096) (s : State) : Answers (execFlowWatchExpiry single n s) := by
  unfold execFlowWatchExpiry
  dsimp only
  refine .ite ?_ ?_
  · split
    · exact .next _
    · split
      · exact .next _
      · exact .ite (.next _) (.next _)
  · split
    · exact .next _
    · split <;> exact .next _

theorem execCsiFrameStart_answers (port : Fin 4) (vc : Fin 16) (s : State) : Answers (execCsiFrameStart port vc s) := by
  unfold execCsiFrameStart
  dsimp only
  refine .ite (.next _) ?_
  split
  · exact .next _
  · split
    · exact .next _
    · refine .ite (.ite (.next _) (.next _)) ?_
      split
      · exact .ite (.next _) (.ite (.next _) (.next _))
      · exact .next _

theorem execCsiLongPacket_answers (port : Fin 4) (vc : Fin 16) (dt : Byte) (hdr : CsiHeader) (crcOk : Bool) (data : List Byte)
    (fault : LineFault) (s : State) :
    Answers (execCsiLongPacket port vc dt hdr crcOk data fault s) := by
  unfold execCsiLongPacket
  refine .ite (.next _) ?_
  split
  · refine .ite (.next _) ?_
    split
    · exact .next _
    · refine .ite (.next _) ?_
      split
      · exact .next _
      · split <;> exact .next _

theorem execCsiEmbeddedPacket_answers (port : Fin 4) (vc : Fin 16) (hdr : CsiHeader) (crcOk : Bool) (data : List Byte) (s :
    State) :
    Answers (execCsiEmbeddedPacket port vc hdr crcOk data s) := by
  unfold execCsiEmbeddedPacket
  refine .ite (.next _) ?_
  split
  · refine .ite (.next _) ?_
    split
    · exact .next _
    · refine .ite (.next _) ?_
      split
      · split
        · refine .ite (.next _) (.ite (.next _) ?_)
          split <;> exact .next _
        · exact .next _
      · exact .next _

theorem execMissedFrame_answers (stream : Fin 24) (s : State) : Answers (execMissedFrame stream s) := by
  unfold execMissedFrame
  split
  · split
    · exact .next _
    · exact .ite (.next _) (.next _)
    · exact .next _
  · exact .next _

theorem execBatchTransferStart_answers (stream : Fin 24) (s : State) : Answers (execBatchTransferStart stream s) := by
  unfold execBatchTransferStart
  split
  · split
    · exact .ite (.next _) (.next _)
    · exact .next _
  · exact .next _

theorem execBatchTransferDone_answers (stream : Fin 24) (nackAt : Option Nat) (s : State) :
    Answers (execBatchTransferDone stream nackAt s) := by
  unfold execBatchTransferDone
  split
  · split
    · exact .next _
    · exact .ite (.next _) (.next _)
  · exact .next _

theorem execIspStagedFrameStart_answers (pipe : Fin 4) (badLines : List Nat) (parityAt : Option Nat) (s : State) :
    Answers (execIspStagedFrameStart pipe badLines parityAt s) := by
  unfold execIspStagedFrameStart
  refine .ite (.next _) ?_
  split
  · split
    · exact .ite (.next _) (.next _)
    · exact .next _
  · exact .next _

theorem execIspBandRelease_answers (stream : Fin 24) (out : Fin 3) (band : Half) (s : State) :
    Answers (execIspBandRelease stream out band s) := by
  unfold execIspBandRelease
  dsimp only
  split
  · exact .next _
  · split
    · exact .next _
    · split
      · exact .next _
      · split
        · exact .ite (.next _) (.next _)
        · exact .next _

theorem execIspStatsRelease_answers (stream : Fin 24) (s : State) : Answers (execIspStatsRelease stream s) := by
  unfold execIspStatsRelease
  dsimp only
  split
  · exact .next _
  · split
    · exact .next _
    · split
      · exact .next _
      · split
        · exact .ite (.next _) (.next _)
        · exact .next _

theorem execJournalDatagramSend_answers (s : State) : Answers (execJournalDatagramSend s) := by
  unfold execJournalDatagramSend
  dsimp only
  split
  · exact .next _
  · refine .ite (.next _) ?_
    split <;> exact .next _

theorem execCvuJobDone_answers (cvu : Fin 8) (s : State) : Answers (execCvuJobDone cvu s) := by
  unfold execCvuJobDone
  dsimp only
  refine .ite ?_ ?_
  · split <;> exact .next _
  · split
    · exact .next _
    · exact .ite (.next _) (.next _)

theorem execTinderJobDone_answers (unit : Half) (s : State) : Answers (execTinderJobDone unit s) := by
  unfold execTinderJobDone
  dsimp only
  split
  · exact .next _
  · split
    · exact .ite (.next _) (.ite (.next _) (.ite (.ite (.next _) (.next _)) (.next _)))
    · exact .next _

theorem execGmlTrainDone_answers (link : Fin 3) (ident : Option GmlIdentity) (s : State) :
    Answers (execGmlTrainDone link ident s) := by
  unfold execGmlTrainDone
  dsimp only
  split
  · exact .next _
  · refine .ite (.next _) ?_
    split
    · exact .next _
    · exact .ite (.next _) (.next _)

theorem execRemoteRequestRx_answers (link : Fin 3) (s : State) : Answers (execRemoteRequestRx link s) := by
  unfold execRemoteRequestRx
  dsimp only
  split
  · refine .ite (.next _) (.ite (.next _) (.ite ?_ ?_))
    · split
      · exact .next _
      · exact .ite (.next _) (.next _)
      · exact .next _
    · split
      · exact .next _
      · exact .ite (.next _) (.next _)
      · exact .next _
  · exact .next _

theorem execEthFrameRx_answers (mac : Fin 2) (data : List Byte) (fcsOk : Bool) (s : State) :
    Answers (execEthFrameRx mac data fcsOk s) := by
  unfold execEthFrameRx
  refine .ite (.next _) (.ite (.next _) (.ite (.next _) ?_))
  split
  · exact .next _
  · refine .ite (.next _) (.ite (.next _) (.ite ?_ (.next _)))
    split <;> exact .next _

theorem execPcDataAccess_answers (pair : Fin 4) (kind : AccessKind) (rd : Fin 32) (pc addr value : Word) (size : Fin 3) (ecc :
    List EccHit)
    (s : State) : Answers (execPcDataAccess pair kind rd pc addr value size ecc s) := by
  unfold execPcDataAccess
  dsimp only
  refine .ite (.next _) ?_
  split
  · exact .ite (.next _) (.ite (.next _) (.ite (.next _) (.next _)))
  · exact .ite (.next _) (.ite (.next _) (.next _))
  · refine .ite (.next _) (.ite (.next _) ?_)
    split <;> exact .next _
  · exact .next _

/-- No command stops the model: each answers a next state, in every branch of its meaning. The arms are grouped by the branches that
the meanings have. -/
theorem exec_answers (c : Instr) (s : State) : Answers (exec c s) := by
  unfold exec
  cases c with
  | porstNAssert | hello | serviceOpen | serviceClose | serviceStatus | readReg | journalRead | sceneRequest | stageBegin
      | stageChunk | stageEnd | stageStatus | instanceAdmit | fgsPost | fgsAffinityForget | release | releaseRetry |
      ibiReceived | i3cBatchGo | mesh | affine | homography | rectPair | pyramid | stereo | flow | feature | matchRecords |
      matmul | conv | attention | elementwise | reduce | norm | gather | scatter | sample | permute | topk | nms | lut |
      ntFetchDone | ntComputeDone | ntStepComplete | copy2d | fill | spmFill | spmCopy | reshuffle | cinderEntry |
      mcFlagHiRead | tlNowHiRead | siHbWrite | islandRomCheck | islandClockDisagree | domainFault | maintRequest |
      gmlHeartbeatSend | peerAliveToggle | goingDownRx | routeChange | canVsStateRead | gpioOutSet | gpioOutClr |
      i3cBatchCopyDone | smLockstepMismatch | islandSramUe =>
    exact .next _
  | porstNRelease | wrstNFall | firmwareStage | verifyPass | sessionIdleTimeout | stageEraseDone | stageIdleTimeout |
      gpioFilterExpiry | fgsDisp0Read | bmResume | wcMissFillDone | tlHoldoverTimeout | tlLostTimeout | journalEntry |
      ejFwPost | interruptSourceRise | icuSwiSet | icuSwiClr | icuEoi | ecall | fence | lockstepMismatch | abortAck |
      heartbeatMissed | selftestSliceStart | islandWatchdogExpiry | vddSiExcursion | heartbeatToggle | adaptEval |
      starvationLower | domainPowerUpDone | idleGate | idleWake | gmlRetrainStart | gmlRetryTimer | gmlTimeExchange |
      canFrameRx | canBusOffRecovery | vsStaleTimeout | readMirror | readMsg | mirrorRefresh | sysPcApertureWrite |
      registerWrite | csiDeskewComplete | peerSenseEdge | peerDelayRequest =>
    exact .ite (.next _) (.next _)
  | wrstNRise | hkcSignatureCheck | laneReductionDone | ispUpdGo | tlServoUpdate | cvuCancel | monitor | fwlRgnCtrlWrite |
      gmlNakRx | ofSubGo | ppsEdge | writeMsg | stageVerifyDone =>
    exact .ite (.next _) (.ite (.next _) (.next _))
  | kindlingWatchdogExpiry => exact .ite (.ite (.next _) (.next _)) (.next _)
  | siSelfTestDone => exact .ite (.next _) (.ite (.ite (.next _) (.next _)) (.next _))
  | bistDone => exact .ite (.next _) (.ite (.next _) (.ite (.next _) (.ite (.ite (.next _) (.next _)) (.next _))))
  | lpddrTrainDone | ntCredWrite | cvuMemoryJob | gmlFlitRx => exact .ite (.next _) (.ite (.next _) (.ite (.next _) (.next _)))
  | cvuTapArm | errIn => exact .ite (.next _) (.ite (.next _) (.ite (.next _) (.ite (.next _) (.next _))))
  | emberSelfTest => exact .ite (.next _) (.ite (.next _) (.ite (.next _) (.ite (.next _) (.ite (.next _) (.next _)))))
  | ethLinkChange => exact .ite (.next _) (.ite (.ite (.next _) (.next _)) (.ite (.next _) (.next _)))
  | warmResetHoldEnd | sectionReloadDone | switchDrainKill | switchOpen | dwellExpiry | selftestStarved |
      emberMessageReady | maintReserve | maintOverdue =>
    dsimp only
    delta execWarmResetHoldEnd execSectionReloadDone execSwitchDrainKill execSwitchOpen execDwellExpiry execSelftestStarved
      execEmberMessageReady execMaintReserve execMaintOverdue
    split
    · exact .next _
    · exact .ite (.next _) (.next _)
  | imageSelect =>
    dsimp only
    unfold execImageSelect
    dsimp only
    refine .ite (.next _) (.ite (.next _) ?_)
    split <;> exact .next _
  | checkStage | seqReadExpect | ashFillDone =>
    dsimp only
    delta execCheckStage execSeqReadExpect execAshFillDone
    split
    · exact .next _
    · exact .ite (.next _) (.ite (.next _) (.next _))
  | seqWrite | seqWait | seqGpio | seqFsyncEnable | seqEnd | tokenLookup | frameStallTimeout | heldAccessLimit |
      mirrorCopyDone | doubtAtSelector | safeStateEntry | severeFlushExpiry | reserve | drain | journalForwardTimeout |
      shCommit =>
    dsimp only
    delta execSeqWrite execSeqWait execSeqGpio execSeqFsyncEnable execSeqEnd execTokenLookup execFrameStallTimeout
      execHeldAccessLimit execMirrorCopyDone execDoubtAtSelector execSafeStateEntry execSevereFlushExpiry execReserve
      execDrain execJournalForwardTimeout execShCommit
    split <;> exact .next _
  | seqPoll =>
    dsimp only
    unfold execSeqPoll
    split
    · exact .next _
    · exact .ite (.next _) (.ite (.next _) (.ite (.next _) (.next _)))
  | sensorRetryTimer | stageChunkProgrammed | slotDrain | peerSenseTimeout =>
    dsimp only
    delta execSensorRetryTimer execStageChunkProgrammed execSlotDrain execPeerSenseTimeout
    dsimp only
    split <;> exact .next _
  | bindStage =>
    dsimp only
    unfold execBindStage
    refine .ite (.next _) (.ite (.next _) ?_)
    split <;> exact .next _
  | verifyTimeout | switchBind | stallRelease =>
    dsimp only
    delta execVerifyTimeout execSwitchBind execStallRelease
    split
    · exact .ite (.next _) (.next _)
    · exact .next _
  | nvmEraseProgramCommand | csiFrameEnd | ntWinWrite | maintActivityEnd =>
    dsimp only
    delta execNvmEraseProgramCommand execCsiFrameEnd execNtWinWrite execMaintActivityEnd
    refine .ite (.next _) ?_
    split <;> exact .next _
  | switchCinder | selftestSliceEnd =>
    dsimp only
    delta execSwitchCinder execSelftestSliceEnd
    dsimp only
    split
    · exact .ite (.next _) (.next _)
    · exact .next _
  | fgsPcDone =>
    dsimp only
    unfold execFgsPcDone
    refine .ite (.next _) ?_
    split
    · exact .ite (.next _) (.ite (.ite (.next _) (.next _)) (.next _))
    · exact .next _
  | fgsCancel =>
    dsimp only
    unfold execFgsCancel
    dsimp only
    refine .ite (.next _) ?_
    split
    · exact .next _
    · exact .ite (.next _) (.next _)
  | deferredVoid =>
    dsimp only
    unfold execDeferredVoid
    split
    · exact .next _
    · split
      · exact .next _
      · exact .ite (.next _) (.ite (.next _) (.next _))
  | periodicStart | deadlineExpiry | matchTimeout =>
    dsimp only
    delta execPeriodicStart execDeadlineExpiry execMatchTimeout
    split
    · exact .next _
    · split
      · exact .next _
      · exact .ite (.next _) (.next _)
  | fsyncEdge | grant =>
    dsimp only
    delta execFsyncEdge execGrant
    split
    · exact .ite (.next _) (.ite (.next _) (.next _))
    · exact .next _
  | laneFailing =>
    dsimp only
    unfold execLaneFailing
    dsimp only
    refine .ite (.next _) ?_
    split
    · split <;> exact .next _
    · exact .next _
  | tinderInjectionDone =>
    dsimp only
    unfold execTinderInjectionDone
    dsimp only
    split
    · split <;> exact .next _
    · exact .next _
  | ispUpdCopyDone | emberPairWindowExpiry | ofCopyDone =>
    dsimp only
    delta execIspUpdCopyDone execEmberPairWindowExpiry execOfCopyDone
    dsimp only
    split
    · exact .next _
    · split <;> exact .next _
  | ntPhaseGrant =>
    dsimp only
    unfold execNtPhaseGrant
    refine .ite (.next _) ?_
    split
    · exact .next _
    · exact .ite (.next _) (.next _)
  | heldAccessRetry | unitStopAck | interruptAccept | tinderPromote | tinderLate | selftestLate | maintPeriodExpiry |
      ethFrameTx | canFrameTx =>
    dsimp only
    delta execHeldAccessRetry execUnitStopAck execInterruptAccept execTinderPromote execTinderLate execSelftestLate
      execMaintPeriodExpiry execEthFrameTx execCanFrameTx
    dsimp only
    split
    · exact .next _
    · exact .ite (.next _) (.next _)
  | detachedReadReturn =>
    dsimp only
    unfold execDetachedReadReturn
    refine .ite ?_ (.next _)
    split <;> exact .next _
  | offerTimeout =>
    dsimp only
    unfold execOfferTimeout
    refine .ite (.next _) ?_
    split
    · split <;> exact .next _
    · exact .next _
  | mret =>
    dsimp only
    unfold execMret
    refine .ite (.next _) (.ite (.next _) ?_)
    split
    · exact .next _
    · split <;> exact .next _
  | thermalEval =>
    dsimp only
    unfold execThermalEval
    refine .ite (.next _) ?_
    split
    · exact .next _
    · exact .ite (.next _) (.ite (.next _) (.ite (.next _) (.ite (.next _) (.next _))))
  | gmlRetrainDone =>
    dsimp only
    unfold execGmlRetrainDone
    dsimp only
    refine .ite (.next _) ?_
    split <;> exact .next _
  | peerUnreachable =>
    dsimp only
    unfold execPeerUnreachable
    dsimp only
    split
    · exact .next _
    · exact .ite (.next _) (.ite (.next _) (.next _))
  | sectionLoaded => exact execSectionLoaded_answers ..
  | dispatch => exact execDispatch_answers ..
  | affinityHoldExpiry => exact execAffinityHoldExpiry_answers ..
  | pcDispatch => exact execPcDispatch_answers ..
  | stepComplete => exact execStepComplete_answers ..
  | flowWatchExpiry => exact execFlowWatchExpiry_answers ..
  | csiFrameStart => exact execCsiFrameStart_answers ..
  | csiLongPacket => exact execCsiLongPacket_answers ..
  | csiEmbeddedPacket => exact execCsiEmbeddedPacket_answers ..
  | missedFrame => exact execMissedFrame_answers ..
  | batchTransferStart => exact execBatchTransferStart_answers ..
  | batchTransferDone => exact execBatchTransferDone_answers ..
  | ispStagedFrameStart => exact execIspStagedFrameStart_answers ..
  | ispBandRelease => exact execIspBandRelease_answers ..
  | ispStatsRelease => exact execIspStatsRelease_answers ..
  | journalDatagramSend => exact execJournalDatagramSend_answers ..
  | cvuJobDone => exact execCvuJobDone_answers ..
  | tinderJobDone => exact execTinderJobDone_answers ..
  | gmlTrainDone => exact execGmlTrainDone_answers ..
  | remoteRequestRx => exact execRemoteRequestRx_answers ..
  | ethFrameRx => exact execEthFrameRx_answers ..
  | pcDataAccess => exact execPcDataAccess_answers ..

/-- Settles O51: each command answers (`exec_answers`), and `Keeps` says that what it answers has the queue that it had. -/
theorem everyCommandAnswers : Obligations.EveryCommandAnswers := by
  unfold Obligations.EveryCommandAnswers
  intro c s
  obtain ⟨t, ht⟩ := exec_answers c s
  exact ⟨t, ht, ((exec_keeps c s).of t ht).queue⟩

/-! ### The parts that a command leaves alone -/

/-- A part whose bit is not in the mask holds what it held. -/
theorem Same.agrees {w : Nat} {r t : State} (h : Same w r t) {p : Part} (hp : w.testBit p.ctorIdx = false) : r.agrees t p :=
  match p with
  | .regs => h.regs hp
  | .shadow => h.shadow hp
  | .mem => h.mem hp
  | .flags => h.flags hp
  | .now => h.now hp
  | .free => h.free hp
  | .otp => h.otp hp
  | .flash => h.flash hp
  | .tl => h.tl hp
  | .pins => h.pins hp
  | .kin => h.kin hp
  | .scene => h.scene hp
  | .fgs => h.fgs hp
  | .mm => h.mm hp
  | .cores => h.cores hp
  | .units => h.units hp
  | .journal => h.journal hp
  | .safety => h.safety hp
  | .adapt => h.adapt hp
  | .maint => h.maint hp
  | .cam => h.cam hp
  | .isp => h.isp hp
  | .io => h.io hp
  | .gml => h.gml hp
  | .cvus => h.cvus hp
  | .carry => h.carry hp
  | .nts => h.nts hp
  | .patterns => h.patterns hp
  | .icu => h.icu hp
  | .pending => h.pending hp

/-- Settles O55: `exec_same` bounds what a command changes by the mask of its parts. -/
theorem partFrame : Obligations.PartFrame := by
  unfold Obligations.PartFrame
  intro c s t p ht hp
  exact ((exec_same c s).of t ht).agrees (Part.testBit_mask_of_not_mem hp)

/-! ### The registers that a command leaves alone -/

/-- A pair has three firmware banks (spec/15): the EPC of a bank 5 of pair 0 would be the pair's SYS_PC_ABORT_ACK. -/
theorem bankEpc_abortAck : Reg.SYS_PC_BANK_EPC 0 5 = Reg.SYS_PC_ABORT_ACK 0 := rfl

/-- Pair 0 runs in a bank 5. -/
def inBank5 : State := { State.reset with cores := State.reset.cores.set 0 { CoreSt.zero with bank := 5 } }

/-- The ECALL keeps the return address as that of bank 5. -/
theorem ecall_inBank5 : (inBank5.trap 0 11 0x100).reg (Reg.SYS_PC_BANK_EPC 0 5) = 0x100 := by decide

/-- Refutes O56: no hypothesis bounds the current bank of a pair. An ECALL of pair 0 in a bank 5 keeps its return address in the
EPC of that bank, which is SYS_PC_ABORT_ACK of the pair (`bankEpc_abortAck`), and the table does not list that register for ECALL. -/
theorem not_registerFrame : ¬ Obligations.RegisterFrame := by
  unfold Obligations.RegisterFrame
  intro h
  have kept : (inBank5.trap 0 11 0x100).reg (Reg.SYS_PC_ABORT_ACK 0) = inBank5.reg (Reg.SYS_PC_ABORT_ACK 0) :=
    h (.ecall 0 11 0x100) inBank5 _ _ rfl rfl _ (by decide)
  rw [← bankEpc_abortAck, ecall_inBank5] at kept
  exact absurd kept (by decide)

end Sys2Proof.Machine
end

section
/-! SUPPORT. Writes of the SYS registers (R13, R507): which registers a refusal of the firewall changes, and who may write below
0x10000. -/

namespace Sys2Proof.Machine

open Sys2Proof

/-! ### What a refusal changes (R400) -/

/-- A doubt event changes no register but those of `regsDoubt`. -/
theorem State.reg_doubt (s : State) (cause unit partition : Nat) (seq : Word) {a : Nat} (ha : a ∉ regsDoubt) :
    (s.doubt cause unit partition seq).reg a = s.reg a := by
  simp only [regsDoubt, regsLog, List.mem_append, List.mem_cons, List.not_mem_nil, or_false, not_or] at ha
  obtain ⟨⟨event, lost⟩, count, seen, last⟩ := ha
  unfold State.doubt
  extract_lets s1 s2 s3 _ s4
  have h4 : s4.reg a = s.reg a :=
    (State.reg_log _ _ _ _ _ _ _ _ _ _ lost event).trans ((State.reg_setFld_other _ _ _ _ _ (Ne.symm seen)).trans
      ((State.reg_addCnt_other _ _ _ _ (Ne.symm count)).trans (State.reg_setReg_other _ _ (Ne.symm last))))
  split
  · exact (State.reg_severe_other _ _ last event lost).trans h4
  · exact h4

/-- The state in which a refusal is an event and counted. -/
def State.refusalCounted (s : State) : State := (s.event Reg.FWL_EVENT F.FWL_EVENT.REFUSED).addCnt Reg.FWL_REFUSE_CNT 1

/-- The registers that latch the first refusal. -/
def regsRefused : List Nat := [Reg.FWL_REFUSE_LO, Reg.FWL_REFUSE_HI, Reg.FWL_REFUSE_TGT]

/-- Beside its event and its count, a refusal changes the latch and what a doubt changes. -/
theorem State.reg_fwRefuse (s : State) (t at' domain init : Nat) (write : Bool) (unit : Nat) {a : Nat} (hl : a ∉ regsRefused)
    (hd : a ∉ regsDoubt) : (s.fwRefuse t at' domain init write unit).reg a = s.refusalCounted.reg a := by
  have hd' := hd
  simp only [regsDoubt, regsLog, regsRefused, List.mem_append, List.mem_cons, List.not_mem_nil, or_false, not_or] at hl hd'
  obtain ⟨lo, hi, tgt⟩ := hl
  obtain ⟨⟨event, lost⟩, -, seen, -⟩ := hd'
  unfold State.fwRefuse
  extract_lets _ _ _ _ s2 _ _ _ _ s3
  have h2 : s2.reg a = s.refusalCounted.reg a := by
    unfold s2
    split
    · rfl
    · exact (State.reg_setReg_other _ _ (Ne.symm tgt)).trans ((State.reg_setFld_other _ _ _ _ _ (Ne.symm hi)).trans
        ((State.reg_setFld_other _ _ _ _ _ (Ne.symm hi)).trans ((State.reg_setFld_other _ _ _ _ _ (Ne.symm hi)).trans
        ((State.reg_setFld_other _ _ _ _ _ (Ne.symm hi)).trans ((State.reg_setFld_other _ _ _ _ _ (Ne.symm hi)).trans
        (State.reg_setReg_other _ _ (Ne.symm lo)))))))
  have h3 : s3.reg a = s.refusalCounted.reg a := by
    unfold s3
    split
    · exact (State.reg_log _ _ _ _ _ _ _ _ _ _ lost event).trans ((State.reg_setFld_other _ _ _ _ _ (Ne.symm seen)).trans h2)
    · exact h2
  split
  · exact (State.reg_doubt _ _ _ _ _ hd).trans h3
  · exact h3

/-- A refusal that meets a canonical register file is shown and counted. -/
theorem State.fwRefuse_shown {s : State} (h : regsWf s.regs = true) (t a domain init : Nat) (write : Bool) (unit : Nat) :
    (s.fwRefuse t a domain init write unit).flag Reg.FWL_EVENT F.FWL_EVENT.REFUSED = true ∧
      counted s (s.fwRefuse t a domain init write unit) Reg.FWL_REFUSE_CNT 1 := by
  have event : s.refusalCounted.flag Reg.FWL_EVENT F.FWL_EVENT.REFUSED = true :=
    (State.flag_eq_of_reg (State.reg_addCnt_other _ _ _ _ (by decide)) _).trans (State.flag_event_same s _ 0 h (by decide))
  have wf : regsWf (s.event Reg.FWL_EVENT F.FWL_EVENT.REFUSED).regs = true := State.setFld_regsWf s _ _ _ h
  have count := State.counted_addCnt wf Reg.FWL_REFUSE_CNT 1
  refine ⟨(State.flag_eq_of_reg (State.reg_fwRefuse _ _ _ _ _ _ _ (by decide) (by decide)) _).trans event, ?_⟩
  unfold counted at count ⊢
  rw [State.reg_fwRefuse _ _ _ _ _ _ _ (by decide) (by decide)]
  exact count.trans (by rw [State.event, State.reg_setFld_other _ _ _ _ _ (by decide)])

/-! ### The SYS registers -/

/-- What a refusal changes lies above the SYS registers. -/
theorem State.reg_fwRefuse_sys (s : State) (t at' domain init : Nat) (write : Bool) (unit : Nat) {a : Nat} (ha : a < 0x10000) :
    (s.fwRefuse t at' domain init write unit).reg a = s.reg a := by
  have above : ∀ c ∈ Reg.FWL_EVENT :: Reg.FWL_REFUSE_CNT :: (regsRefused ++ regsDoubt), 0x10000 ≤ c := by decide
  have out : ∀ c ∈ Reg.FWL_EVENT :: Reg.FWL_REFUSE_CNT :: (regsRefused ++ regsDoubt), c ≠ a := fun c hc e => by
    have := above c hc
    omega
  have latch : a ∉ regsRefused := fun h => out a (by simp [h]) rfl
  have doubt : a ∉ regsDoubt := fun h => out a (by simp [h]) rfl
  rw [State.reg_fwRefuse _ _ _ _ _ _ _ latch doubt, State.refusalCounted,
    State.reg_addCnt_other _ _ _ _ (out _ (by simp)), State.event, State.reg_setFld_other _ _ _ _ _ (out _ (by simp))]

theorem regAlias_sys {o : Nat} (h : o < 0x10000) : regAlias o = o := by
  refine if_neg ?_
  simp only [inRange, Bool.and_eq_true, decide_eq_true_eq]
  omega

theorem inBlock_sys {o : Nat} (h : o < 0x10000) : inBlock o = true := by
  refine List.any_eq_true.mpr ⟨(0, 0x38000), by decide, ?_⟩
  simp only [Nat.zero_le, decide_true, Bool.true_and, decide_eq_true_eq]
  omega

theorem internalOnly_sys {o : Nat} (h : o < 0x10000) : internalOnly o = false := by
  simp only [internalOnly, inRange, Bool.or_eq_false_iff, Bool.and_eq_false_iff, decide_eq_false_iff_not]
  omega

/-- A SYS register that belongs to no pair is for Domain ID 0, whoever writes it (R507). -/
theorem State.mayWrite_sys (s : State) (bank domain : Nat) {o : Nat} (h : o < 0x10000) (hp : pairRegs o = none) :
    s.mayWrite bank domain o = (domain == 0) := by
  simp [State.mayWrite, State.groupAdmits, groupRuled, internalOnly_sys h, h, hp]

/-- A write of a SYS register that its writer may not write is refused. -/
theorem exec_registerWrite_refused {s : State} {bank : Fin 6} {domain : BitVec 4} {offset : BitVec 24} (value : Word)
    (hup : s.coreUp = true) (h : offset.toNat < 0x10000) (hm : s.mayWrite bank.val domain.toNat offset.toNat = false) :
    exec (.registerWrite bank domain offset value) s = .next (s.fwRefuse (0x100 + offset.toNat / 0x10000)
      (addrReg + offset.toNat) domain.toNat (bankInit bank.val) true (bankUnit bank.val)) := by
  change execRegisterWrite bank domain offset value s = _
  simp [execRegisterWrite, State.writeReg, hup, regAlias_sys h, inBlock_sys h, hm]

/-- Settles O60: of the SYS registers, those of no pair are for Domain ID 0 (`State.mayWrite_sys`), and a refusal is shown, counted
and changes registers above them alone. -/
theorem sysRegisterWriters : Obligations.SysRegisterWriters := by
  unfold Obligations.SysRegisterWriters
  intro s bank domain offset value hc hup ho hp
  have may := s.mayWrite_sys bank.val domain.toNat ho hp
  refine ⟨fun h => by rw [may, h]; rfl, fun h => ?_⟩
  have refused : s.mayWrite bank.val domain.toNat offset.toNat = false := by
    rw [may, beq_eq_false_iff_ne]
    exact fun e => h (BitVec.eq_of_toNat_eq e)
  rw [exec_registerWrite_refused value hup ho refused]
  obtain ⟨event, count⟩ := State.fwRefuse_shown (State.canonical_regs hc) (0x100 + offset.toNat / 0x10000)
    (addrReg + offset.toNat) domain.toNat (bankInit bank.val) true (bankUnit bank.val)
  have same := State.fwRefuse_same (m0 := 196609) (t := 0x100 + offset.toNat / 0x10000) (a := addrReg + offset.toNat)
    (domain := domain.toNat) (init := bankInit bank.val) (write := true) (unit := bankUnit bank.val) (.refl s) rfl
  exact completes_next ⟨event, count, same.shadow rfl, same.mem rfl, fun a ha => s.reg_fwRefuse_sys _ _ _ _ _ _ ha⟩

end Sys2Proof.Machine
end

section
/-! SUPPORT. The supervisor port and the status mirror (R485, R489, R490): what a written message comes to, and the 64 bytes of the
mirror. -/

namespace Sys2Proof.Machine

open Sys2Proof

/-! ### Little-endian bytes (R4) -/

@[simp] theorem length_leBytes (n v : Nat) : (leBytes n v).length = n := by
  induction n generalizing v with
  | zero => rfl
  | succ n ih => rw [leBytes, List.length_cons, ih]

theorem leNat_leBytes (n v : Nat) : leNat (leBytes n v) = v % 2 ^ (8 * n) := by
  induction n generalizing v with
  | zero => rw [Nat.mul_zero, Nat.pow_zero, Nat.mod_one]; rfl
  | succ n ih =>
    rw [leBytes, leNat, ih, BitVec.toNat_ofNat, show 8 * (n + 1) = 8 + 8 * n by omega, Nat.pow_add, Nat.mod_mul]

/-- A number laid out between other bytes reads as its low bytes. -/
theorem leAt_leBytes (pre post : List Byte) (n v : Nat) : leAt (pre ++ (leBytes n v ++ post)) pre.length n = v % 2 ^ (8 * n) := by
  rw [leAt, List.drop_left, List.take_left' (length_leBytes n v), leNat_leBytes]

/-! ### Interfaces of the service channel -/

/-- An interface that the change reaches, where it is there, and the others. -/
theorem State.svc_modSvc (s : State) (i j : Nat) (f : SvcIfc → SvcIfc) :
    (s.modSvc i f).svc j = if j = i ∧ j < s.io.svc.length then f (s.svc j) else s.svc j := by
  unfold State.svc State.modSvc
  simp only [List.getD_eq_getElem?_getD, List.getElem?_mapIdx]
  by_cases hj : j < s.io.svc.length
  · by_cases hi : j = i
    · subst hi; simp [hj]
    · simp [hj, hi]
  · simp [hj]

theorem State.svc_of_length_le {s : State} {i : Nat} (h : s.io.svc.length ≤ i) : s.svc i = SvcIfc.idle := by
  unfold State.svc
  rw [List.getD_eq_getElem?_getD, List.getElem?_eq_none h, Option.getD_none]

/-! ### Messages written -/

section

variable {s : State} {data : List Byte}

theorem State.discarded_badMessage (h : regsWf s.regs = true) :
    (s.badMessage 2).fld Reg.SUP_CNT F.SUP_CNT.DISCARDED =
      min (s.fld Reg.SUP_CNT F.SUP_CNT.DISCARDED + 1) (2 ^ (F.SUP_CNT.DISCARDED.hi + 1 - F.SUP_CNT.DISCARDED.lo) - 1) := by
  have field := State.fld_setFld_same s Reg.SUP_CNT F.SUP_CNT.DISCARDED (min (s.fld Reg.SUP_CNT F.SUP_CNT.DISCARDED + 1)
    (2 ^ (F.SUP_CNT.DISCARDED.hi + 1 - F.SUP_CNT.DISCARDED.lo) - 1)) h rfl
  exact field.trans (Nat.mod_eq_of_lt ((Nat.min_le_right _ _).trans_lt (by decide)))

/-- A message that comes while the one before is not done with is discarded. -/
theorem exec_writeMsg_of_waiting (hup : s.supUp = true) (h : (s.svc 2).response ≠ none ∨ (s.svc 2).requests ≠ []) :
    exec (.writeMsg data) s = .next (s.badMessage 2) := by
  change execWriteMsg data s = _
  have waits : ((s.svc 2).response.isSome || !(s.svc 2).requests.isEmpty ||
      (s.io.stage.open' && s.io.stage.busy && s.io.stage.ifc == 2)) = true := by
    rcases h with h | h
    · simp [Option.isSome_iff_ne_none.mpr h]
    · simp [h]
  simp only [execWriteMsg, hup, waits, Bool.not_true, Bool.false_eq_true, if_false, if_true]

theorem exec_writeMsg_of_idle (hup : s.supUp = true) (ho : s.io.stage.open' = false) (hr : (s.svc 2).response = none)
    (hq : (s.svc 2).requests = []) : exec (.writeMsg data) s = .next (s.takeMessage 2 ⟨[], [], 0⟩ data) := by
  change execWriteMsg data s = _
  simp [execWriteMsg, hup, ho, hr, hq]

theorem State.takeMessage_of_short (peer : SvcPeer) (h : data.length < 32) :
    s.takeMessage 2 peer data = s.badMessage 2 := by
  unfold State.takeMessage
  exact if_pos (by simp [h])

/-- A STATUS of no session carries no TAG and waits as it is (R489). -/
theorem State.takeMessage_of_status (peer : SvcPeer) (hop : leAt data 0 1 = 0x10) (hv : leAt data 1 1 = 0) (hid : leAt data 8 8 = 0)
    (hl : data.length = 32 + leAt data 2 2) : s.takeMessage 2 peer data =
      s.modSvc 2 (fun v => { v with requests := v.requests ++ [(0x10, (data.drop 32).take (leAt data 2 2), false, peer)] }) := by
  simp [State.takeMessage, hop, hv, hid, hl]

end

/-! ### The mirror (R490) -/

/-- The mirror's words before the Timeline, and those after it. -/
def State.mirrorHead (s : State) : List Byte :=
  s.mirrorWord Reg.SYS_ID true ++ s.mirrorWord Reg.SYS_KIN_STATUS false ++ s.mirrorWord Reg.SYS_SCENE_STATUS true
    ++ s.mirrorWord Reg.SI_STATUS false ++ s.mirrorWord Reg.SI_LAST false ++ s.mirrorWord Reg.SI_DOUBT_CNT false
    ++ s.mirrorWord Reg.TL_STATUS true ++ s.mirrorWord Reg.EJ_SEQ true

def State.mirrorTail (s : State) : List Byte :=
  s.mirrorWord Reg.SYS_STAGE_STATUS true ++ s.mirrorWord Reg.SYS_IMG_GEN true ++ s.mirrorWord Reg.PMU_STATUS true
    ++ s.mirrorWord Reg.GML_PEERS true ++ leBytes 4 s.io.refreshes

theorem State.mirrorBytes_eq (s : State) : s.mirrorBytes = s.mirrorHead ++ (leBytes 8 s.now ++ s.mirrorTail) := by
  simp only [State.mirrorBytes, State.mirrorHead, State.mirrorTail, List.append_assoc]

theorem State.length_mirrorHead (s : State) : s.mirrorHead.length = 32 := by
  simp [State.mirrorHead, State.mirrorWord]

theorem State.length_mirrorBytes (s : State) : s.mirrorBytes.length = 60 := by
  rw [State.mirrorBytes_eq]
  simp [State.length_mirrorHead, State.mirrorTail, State.mirrorWord]

/-- The state in which a refresh reads the registers: 1 ms after the one before. -/
def State.refreshing (s : State) : State :=
  (s.reach (leAt s.io.mirror 0x20 8 + 1000000)).modIo (fun io => { io with refreshes := io.refreshes + 1 })

/-- The mirror that a refresh leaves. -/
def State.mirrored (s : State) : List Byte := s.mirrorBytes ++ leBytes 4 (crc32c s.mirrorBytes)

theorem exec_mirrorRefresh_of_up {s : State} (h : s.supUp = true) :
    exec .mirrorRefresh s = .next (s.refreshing.modIo (fun io => { io with mirror := s.refreshing.mirrored })) :=
  if_pos h

theorem State.length_mirrored (s : State) : s.mirrored.length = 64 := by
  simp [State.mirrored, State.length_mirrorBytes]

/-- The last four bytes of the mirror are the CRC of those before. -/
theorem State.crc_mirrored (s : State) : s.mirrored.drop 60 = leBytes 4 (crc32c (s.mirrored.take 60)) := by
  rw [State.mirrored, List.drop_left' s.length_mirrorBytes, List.take_left' s.length_mirrorBytes]

theorem State.now_mirrored (s : State) : leAt s.mirrored 0x20 8 = s.now % 2 ^ 64 := by
  rw [State.mirrored, State.mirrorBytes_eq, List.append_assoc, List.append_assoc, ← s.length_mirrorHead]
  exact leAt_leBytes s.mirrorHead _ 8 s.now

/-- Settles O8: each clause from what its command comes to, and from how the mirror is laid out. -/
theorem supervisorPort : Obligations.SupervisorPort := by
  unfold Obligations.SupervisorPort
  refine ⟨?_, ?_, ?_, ?_⟩
  case refine_1 =>
    intro s start len hup
    refine ⟨_, if_pos hup, ?_, fun i hi => ?_, fun _ _ => rfl, rfl, rfl⟩
    · simp [State.modIo]
    · simp [State.modIo, List.getD_eq_getElem?_getD, hi]
  case refine_2 =>
    intro s data hc hup ho
    have discarded := State.discarded_badMessage (State.canonical_regs hc)
    by_cases h : (s.svc 2).response ≠ none ∨ (s.svc 2).requests ≠ []
    · rw [exec_writeMsg_of_waiting hup h]
      exact completes_next ⟨fun _ => ⟨discarded, rfl⟩, fun hr hq => absurd h (by simp [hr, hq]),
        fun hr hq => absurd h (by simp [hr, hq]), rfl⟩
    · obtain ⟨hr, hq⟩ : (s.svc 2).response = none ∧ (s.svc 2).requests = [] := by simpa using h
      have same := State.takeMessage_same (m0 := 4194305) (ifc := 2) (peer := ⟨[], [], 0⟩) (m := data) (Same.refl s) rfl
      rw [exec_writeMsg_of_idle hup ho hr hq]
      refine completes_next ⟨fun w => absurd w h, fun _ _ hl => ?_, fun _ _ hn hop hv hid hl => ?_, same.mem rfl⟩
      · rw [State.takeMessage_of_short _ hl]
        exact ⟨discarded, rfl⟩
      · rw [State.takeMessage_of_status _ hop hv hid hl, State.svc_modSvc, if_pos ⟨rfl, by omega⟩, hq]
        rfl
  case refine_3 =>
    intro s hup
    refine ⟨_, if_pos hup, rfl, ?_, fun _ _ => rfl, rfl⟩
    change ((s.modSvc 2 (fun v => { v with response := none })).svc 2).response = none
    rw [State.svc_modSvc]
    by_cases h : 2 < s.io.svc.length
    · rw [if_pos ⟨rfl, h⟩]
    · rw [if_neg (fun c => h c.2), State.svc_of_length_le (by omega)]
      rfl
  case refine_4 =>
    intro s hup
    rw [exec_mirrorRefresh_of_up hup]
    exact completes_next ⟨rfl, rfl, State.length_mirrored _, State.crc_mirrored _, State.now_mirrored _, fun _ _ => rfl, rfl⟩

end Sys2Proof.Machine
end

section
/-! SUPPORT. The Output Framer (R480, R481): what a GO comes to, and that handing a payload over leaves the copies that wait. -/

namespace Sys2Proof.Machine

open Sys2Proof

/-! ### The copies that wait -/

theorem State.ofJobs_queueEth (s : State) (mac : Nat) (t : EthTx) : (s.queueEth mac t).io.ofJobs = s.io.ofJobs := by
  unfold State.queueEth
  dsimp only
  split <;> rfl

theorem State.ofJobs_queueCan (s : State) (can : Nat) (t : CanTx) : (s.queueCan can t).io.ofJobs = s.io.ofJobs := by
  unfold State.queueCan
  dsimp only
  split <;> rfl

/-- A hand-over fills transmit queues and counts its stream's messages. -/
theorem State.ofJobs_handOver (s : State) (r : OutRec) (p : Payload) : (s.handOver r p).io.ofJobs = s.io.ofJobs := by
  unfold State.handOver
  split
  · rfl
  · simp only [List.foldl_cons, List.foldl_nil, apply_ite (fun u : State => u.io.ofJobs), State.ofJobs_queueCan,
      State.ofJobs_queueEth, ite_self]

theorem State.ofJobs_announce (s : State) (seq : Word) : (s.announce seq).io.ofJobs = s.io.ofJobs :=
  congrArg Ifaces.ofJobs ((State.announce_same (m0 := 196609) (.refl s) rfl).io rfl)

/-- The selector takes a primary payload or leaves it, and no copy changes. -/
theorem State.ofJobs_offerPrimary (s : State) (r : OutRec) (p : Payload) : (s.offerPrimary r p).io.ofJobs = s.io.ofJobs := by
  unfold State.offerPrimary
  extract_lets sel clean s1 s2 s3
  have h1 : s1.io = s.io := by
    unfold s1
    simp only [apply_ite State.io, State.addFld_io, State.setFld_io, ite_self]
  have h3 : s3.io = s.io := ((State.tryReturn_same (m0 := 131073) (.refl s2) rfl).io rfl).trans h1
  split
  · rw [h3]
  · change ((s3.handOver r p).announce p.frameSeq).io.ofJobs = s.io.ofJobs
    rw [State.ofJobs_announce, State.ofJobs_handOver, h3]

/-! ### A submission -/

/-- The codes of OF_RESULT fit their field. -/
theorem State.submitCheck_code (s : State) (bank domain a : Nat) : (s.submitCheck bank domain a).2.1 < 8 := by
  unfold State.submitCheck
  split
  · simp
  · split
    · simp
    · extract_lets d
      split
      · simp
      · extract_lets parts bound
        clear_value parts bound
        split
        · simp
        · split
          · simp
          · split
            · simp
            · split
              · simp
              · dsimp only
                split <;> simp

/-- The payload's descriptor address that an initiator's bank holds. -/
def State.submitAt (s : State) (bank : Nat) : Nat :=
  s.fld (bankOff bank Reg.OF_SUB_LO) F.OF_SUB_LO.ADDR_LO * 32 + s.fld (bankOff bank Reg.OF_SUB_HI) F.OF_SUB_HI.ADDR_HI * 2 ^ 32

/-- The state in which a GO's result is shown. -/
def State.submitShown (s : State) (bank domain a : Nat) : State :=
  (s.submitCheck bank domain a).1.setFld Reg.OF_RESULT F.OF_RESULT.RESULT (s.submitCheck bank domain a).2.1

theorem exec_ofSubGo_of_go {s : State} {bank : Fin 5} {domain : BitVec 4} {value : Word} {a : Nat} {q : State × Nat × List Byte}
    (h : F.OF_SUB_GO.GO.get value = 1) (ha : a = s.submitAt bank.val) (hq : q = s.submitCheck bank.val domain.toNat a) :
    exec (.ofSubGo bank domain value) s = if q.2.1 = 0 then .next ((s.submitShown bank.val domain.toNat a).modIo (fun io =>
      { io with ofJobs := io.ofJobs ++ [⟨bank.val, domain.toNat, a, q.2.2, s.now⟩] }))
      else .next (s.submitShown bank.val domain.toNat a) := by
  subst ha hq
  have hnow : (s.submitCheck bank.val domain.toNat (s.submitAt bank.val)).1.now = s.now :=
    (State.submitCheck_same (m0 := 8593409) (.refl s) rfl).now rfl
  change execOfSubGo bank domain value s = _
  rw [← hnow]
  simp only [execOfSubGo, h, beq_iff_eq, one_ne_zero, if_false]
  rfl

/-- A GO's check leaves interfaces and memory as they are, and its code is shown. -/
theorem State.submitShown_facts {s : State} (h : regsWf s.regs = true) (bank domain a : Nat) :
    (s.submitShown bank domain a).fld Reg.OF_RESULT F.OF_RESULT.RESULT = (s.submitCheck bank domain a).2.1 ∧
      (s.submitShown bank domain a).io = s.io ∧ (s.submitShown bank domain a).mem = s.mem := by
  have same := State.submitCheck_same (m0 := 8593409) (bank := bank) (domain := domain) (a := a) (.refl s) rfl
  have wf := (State.submitCheck_keeps (bank := bank) (domain := domain) (a := a) (Keeps.refl s)).regs h
  exact ⟨(State.fld_setFld_same _ _ _ _ wf rfl).trans (Nat.mod_eq_of_lt (s.submitCheck_code bank domain a)), same.io rfl,
    same.mem rfl⟩

/-! ### The end of a copy -/

/-- The state in which the oldest copy is no longer one that waits. -/
def State.copyTaken (s : State) (rest : List OfJob) : State := s.modIo (fun io => { io with ofJobs := rest })

/-- The payload that a copy has brought (R481). -/
def State.ofPayload (s : State) (j : OfJob) (r : OutRec) : Payload :=
  { source := 0
    partition := if r.type == 1 then 2 else j.domain
    stream := leAt j.desc 6 1
    flagged := leAt j.desc 2 2 % 2 == 1
    late := leAt j.desc 0x18 8 != 0 && decide (leAt j.desc 0x18 8 < j.goAt)
    ts := leAt j.desc 0x10 8
    frameSeq := w32 (leAt j.desc 8 4)
    bytes := s.fetch (j.addr + 32) (leAt j.desc 4 2) }

section

variable {s : State} {j : OfJob} {rest : List OfJob} (hj : s.io.ofJobs = j :: rest)
include hj

theorem exec_ofCopyDone_of_none (hr : s.outRec? (leAt j.desc 0 2) = none) :
    exec .ofCopyDone s = .next (s.copyTaken rest) := by
  have hr' : (s.copyTaken rest).outRec? (leAt j.desc 0 2) = none := hr
  change execOfCopyDone s = _
  unfold execOfCopyDone
  rw [hj]
  dsimp only
  rw [← State.copyTaken, hr']

theorem exec_ofCopyDone_of_some {r : OutRec} (hr : s.outRec? (leAt j.desc 0 2) = some r) :
    exec .ofCopyDone s = .next (if r.type == 1 then (s.copyTaken rest).offerPrimary r (s.ofPayload j r)
      else (s.copyTaken rest).handOver r (s.ofPayload j r)) := by
  have hr' : (s.copyTaken rest).outRec? (leAt j.desc 0 2) = some r := hr
  change execOfCopyDone s = _
  unfold execOfCopyDone
  rw [hj]
  dsimp only
  rw [← State.copyTaken, hr']
  rfl

end

/-- Settles O12: each clause from what its command comes to, and from what a check and a hand-over leave of the interfaces. -/
theorem outputFramer : Obligations.OutputFramer := by
  unfold Obligations.OutputFramer
  refine ⟨?_, ?_⟩
  case refine_1 =>
    intro s bank domain value hc hgo
    obtain ⟨hres, hio, hmem⟩ := s.submitShown_facts (State.canonical_regs hc) bank.val domain.toNat (s.submitAt bank.val)
    have off : s.ofEnabled = false → (s.submitCheck bank.val domain.toNat (s.submitAt bank.val)).2.1 = 1 := fun h => by
      simp [State.submitCheck, h]
    rw [exec_ofSubGo_of_go hgo rfl rfl]
    split
    · next h0 =>
      refine completes_next ⟨fun h => absurd (off h) (by omega), fun a q ha hq => ?_, hmem⟩
      subst ha hq
      exact ⟨hres, fun _ => congrArg₂ (· ++ ·) (congrArg Ifaces.ofJobs hio) rfl, fun h => absurd h0 h⟩
    · next h0 =>
      refine completes_next ⟨fun h => ⟨hres.trans (off h), hio⟩, fun a q ha hq => ?_, hmem⟩
      subst ha hq
      exact ⟨hres, fun h => absurd h h0, fun _ => congrArg Ifaces.ofJobs hio⟩
  case refine_2 =>
    intro s j rest hj
    have same := execOfCopyDone_same (m0 := 4390913) (.refl s) rfl
    have waits : ∀ r p, (if r.type == 1 then (s.copyTaken rest).offerPrimary r p else (s.copyTaken rest).handOver r p).io.ofJobs =
        rest := fun r p => by
      split
      · exact State.ofJobs_offerPrimary _ r p
      · exact State.ofJobs_handOver _ r p
    cases hr : s.outRec? (leAt j.desc 0 2) with
    | none =>
      rw [exec_ofCopyDone_of_none hj hr]
      exact completes_next ⟨rfl, nofun, nofun, rfl⟩
    | some r =>
      have ended := exec_ofCopyDone_of_some hj hr
      rw [ended]
      refine completes_next ⟨waits r _, ?_, ?_, (same.of _ ended).mem rfl⟩
      · rintro _ ⟨⟩ hne
        exact ⟨s.ofPayload j r, rfl, rfl, if_neg (by simpa using hne)⟩
      · rintro _ ⟨⟩ he
        exact ⟨s.ofPayload j r, rfl, rfl, if_pos (by simpa using he)⟩

end Sys2Proof.Machine
end

section
/-! SUPPORT. The vehicle-state table (R483, R484, R500): judging a write leaves the stage shown, so that outside READY a received
frame changes the entries of the records it matches and no other entry. -/

namespace Sys2Proof.Machine

open Sys2Proof

/-! ### The stage shown, over a judged access -/

/-- What shows the stage is the same. -/
def StageShown (r t : State) : Prop := t.reg Reg.SYS_KIN_STATUS = r.reg Reg.SYS_KIN_STATUS

namespace StageShown

variable {r s t : State}

theorem trans (h : StageShown r s) (g : StageShown s t) : StageShown r t := Eq.trans g h

theorem setFld {a : Nat} (h : StageShown r s) (b : Bits) (v : Nat) (ha : a ≠ Reg.SYS_KIN_STATUS) :
    StageShown r (s.setFld a b v) := (State.reg_setFld_other s a _ b v ha).trans h

theorem setReg {a : Nat} (h : StageShown r s) (v : Word) (ha : a ≠ Reg.SYS_KIN_STATUS) : StageShown r (s.setReg a v) :=
  (State.reg_setReg_other s v ha).trans h

theorem of_regs (h : StageShown r s) (e : t.regs = s.regs) : StageShown r t := (State.reg_congr e _).trans h

theorem ite {c : Prop} [Decidable c] (hs : StageShown r s) (ht : StageShown r t) : StageShown r (if c then s else t) := by
  split <;> assumption

theorem foldl {α : Type} {l : List α} {F : State → α → State} (hF : ∀ u x, StageShown u (F u x)) :
    StageShown s (l.foldl F s) := by
  induction l generalizing s with
  | nil => exact rfl
  | cons x l ih => exact (hF s x).trans ih

theorem foldlFst {α β : Type} {l : List α} {F : State × β → α → State × β} {p : State × β}
    (hF : ∀ q x, StageShown q.1 (F q x).1) (h : StageShown r p.1) : StageShown r (l.foldl F p).1 := by
  induction l generalizing p with
  | nil => exact h
  | cons x l ih => exact ih (h.trans (hF p x))

end StageShown

theorem ntSpmEvent_ne_stage (n : Nat) : Reg.NT_SPM_EVENT n ≠ Reg.SYS_KIN_STATUS := by
  unfold Reg.NT_SPM_EVENT Reg.SYS_KIN_STATUS
  omega

theorem mcEccEvent_ne_stage (n : Nat) : Reg.MC_ECC_EVENT n ≠ Reg.SYS_KIN_STATUS := by
  unfold Reg.MC_ECC_EVENT Reg.SYS_KIN_STATUS
  omega

theorem gmlCnt_ne_stage (k : Nat) : Reg.SYS_KIN_STATUS ≠ Reg.GML_CNT k 0 := by
  unfold Reg.GML_CNT Reg.SYS_KIN_STATUS
  omega

theorem State.fwRefuse_stage (s : State) (t a domain init : Nat) (write : Bool) (unit : Nat) :
    StageShown s (s.fwRefuse t a domain init write unit) := s.reg_fwRefuse_sys _ _ _ _ _ _ (by decide)

theorem State.latchDecode_stage (s : State) (a domain init : Nat) (write : Bool) :
    StageShown s (s.latchDecode a domain init write) := by
  unfold State.latchDecode
  extract_lets hi u
  have hne : Reg.SYS_DECODE_HI ≠ Reg.SYS_KIN_STATUS := by decide
  split
  · exact rfl
  · have latched : StageShown s u := (StageShown.setReg rfl _ (by decide)).setFld _ _ hne
    exact (((latched.setFld _ _ hne).setFld _ _ hne).setFld _ _ hne).setFld _ _ hne

theorem State.cinderTell_stage (s : State) (c : Cinder) (a : Nat) (write : Bool) : StageShown s (s.cinderTell c a write) := by
  unfold State.cinderTell
  extract_lets n m s1 s2 src s3
  have h1 : StageShown s s1 := by
    unfold s1
    split
    · exact .ite (.setFld rfl _ _ (by decide)) (.setFld rfl _ _ (by decide))
    · split
      · exact .ite (.setFld rfl _ _ (ntSpmEvent_ne_stage n)) (.setFld rfl _ _ (ntSpmEvent_ne_stage n))
      · exact .ite (.setFld rfl _ _ (mcEccEvent_ne_stage m)) (.setFld rfl _ _ (mcEccEvent_ne_stage m))
  have h2 : StageShown s s2 := .ite (h1.setFld _ _ (by decide)) (h1.setFld _ _ (by decide))
  split
  · exact h2
  · exact h2.trans (State.reg_log s2 _ _ _ _ _ _ _ _ _ (by decide) (by decide))

theorem State.judge_stage (s : State) (c : Issuer) (a len : Nat) (write : Bool) : StageShown s (s.judge c a len write).1 := by
  unfold State.judge
  dsimp only
  split
  · exact s.latchDecode_stage _ _ _ _
  split
  · exact s.fwRefuse_stage _ _ _ _ _ _
  split
  · exact .setFld rfl _ _ (ntSpmEvent_ne_stage _)
  split
  · exact .setFld rfl _ _ (mcEccEvent_ne_stage _)
  split
  · exact rfl
  split
  · exact s.cinderTell_stage _ _ _
  split
  · exact .setFld rfl _ _ (ntSpmEvent_ne_stage _)
  split
  · exact rfl
  · have event : ∀ f, StageShown s (s.event Reg.MC_FS_EVENT f) := fun f => .setFld rfl _ _ (by decide)
    exact .ite (event _) (.ite ((event _).setFld _ _ (by decide)) (event _))

theorem State.judgeRuns_stage (s : State) (c : Issuer) (write : Bool) (l : List (Nat × Nat)) :
    StageShown s (s.judgeRuns c write l).1 := by
  induction l generalizing s with
  | nil => exact rfl
  | cons x l ih =>
    have first := s.judge_stage c x.1 x.2 write
    unfold State.judgeRuns
    dsimp only
    split
    · exact first
    · exact first.trans (ih _)

theorem State.remoteOne_stage (s : State) (c : Issuer) (k a len : Nat) (write : Bool) (data : List Byte) :
    StageShown s (s.remoteOne c k a len write data).1 := by
  unfold State.remoteOne
  split
  · exact rfl
  · extract_lets e tag u
    have sent : StageShown s u := (State.sendTo_sent s e _).reg _ gmlCnt_ne_stage
    exact sent.of_regs rfl

theorem State.remoteRun_stage (s : State) (c : Issuer) (a len : Nat) (write : Bool) (data : List Byte) :
    StageShown s (s.remoteRun c a len write data).1 := by
  unfold State.remoteRun
  extract_lets g e l
  split
  · exact rfl
  split
  · exact rfl
  next k _ =>
    split
    · exact rfl
    split
    · exact s.fwRefuse_stage _ _ _ _ _ _
    · extract_lets p
      have sent : StageShown s p.1 := .foldlFst (fun q x => q.1.remoteOne_stage _ _ _ _ _ _) rfl
      clear_value p
      exact sent

/-- The error's form does not matter (a lemma of its own keeps the kernel from evaluating the access). -/
theorem StageShown.pair {α β : Type} {s : State} {q : State × α} (h : StageShown s q.1) (f : α → β) :
    StageShown s (q.1, f q.2).1 := h

theorem State.judgeRun_stage (s : State) (c : Issuer) (a len : Nat) (write : Bool) :
    StageShown s (s.judgeRun c a len write).1 := by
  unfold State.judgeRun
  split
  · exact (s.remoteRun_stage c a len write []).pair _
  · exact s.judgeRuns_stage c write _

theorem mcCnt_ne_stage (n m : Nat) : Reg.MC_CNT n m ≠ Reg.SYS_KIN_STATUS := by
  unfold Reg.MC_CNT Reg.SYS_KIN_STATUS
  omega

theorem State.breakResv_regs (s : State) (a len : Nat) : (s.breakResv a len).regs = s.regs := by
  unfold State.breakResv
  split <;> rfl

theorem State.write_stage (s : State) (a : Nat) (bs : List Byte) : StageShown s (s.write a bs) := by
  unfold State.write
  split
  · exact rfl
  extract_lets s1 s2 s3
  have h1 : StageShown s s1 := .of_regs (s := s) rfl (State.breakResv_regs _ _ _)
  split
  · exact h1
  · have h2 : StageShown s s2 := (h1.setFld _ _ (by decide)).of_regs (s := s1.addCnt (Reg.MC_WC_CNT 2) _) rfl
    have h3 : StageShown s s3 := h2.trans (.foldl fun u b => .setFld rfl _ _ (mcCnt_ne_stage _ _))
    exact h3.of_regs rfl

theorem State.copyVs_stage (s : State) (i : Nat) : StageShown s (s.copyVs i) := by
  unfold State.copyVs
  extract_lets base a
  split
  · exact rfl
  · have judged := s.judgeRun_stage ⟨0x1700, 0, false⟩ a 16 true
    split
    · next u hu =>
      rw [hu] at judged
      exact judged.trans (u.write_stage a _)
    · next u e hu => rwa [hu] at judged

/-! ### The records and the stage that a received frame reads -/

/-- The records, the Timeline and the stage are the same. -/
structure SameRecs (r t : State) : Prop where
  stage : StageShown r t
  flash : t.flash = r.flash
  kin : t.kin = r.kin
  now : t.now = r.now

theorem SameRecs.refl (s : State) : SameRecs s s := ⟨rfl, rfl, rfl, rfl⟩

theorem SameRecs.trans {r s t : State} (h : SameRecs r s) (g : SameRecs s t) : SameRecs r t :=
  ⟨h.stage.trans g.stage, g.flash.trans h.flash, g.kin.trans h.kin, g.now.trans h.now⟩

theorem SameRecs.running {r t : State} (h : SameRecs r t) : t.running = r.running := by
  unfold State.running State.fld
  rw [h.stage]

theorem SameRecs.vsRec {r t : State} (h : SameRecs r t) (i : Nat) : t.vsRec i = r.vsRec i := by
  simp [State.vsRec, State.vinBytes, State.vin, State.imgRegion, h.flash, h.kin]

theorem State.evalTriggers_idle {s : State} (h : s.running = false) (kind source : Nat) : s.evalTriggers kind source = s := by
  simp [State.evalTriggers, h]

theorem State.copyVs_recs (s : State) (i : Nat) : SameRecs s (s.copyVs i) :=
  have same := State.copyVs_same (m0 := 8609797) (i := i) (.refl s) rfl
  ⟨s.copyVs_stage i, same.flash rfl, same.kin rfl, same.now rfl⟩

theorem State.copyVs_io (s : State) (i : Nat) : (s.copyVs i).io = s.io :=
  (State.copyVs_same (m0 := 8609797) (i := i) (.refl s) rfl).io rfl

/-- Outside READY, a copied entry sets off no trigger. -/
theorem State.copied_idle {s : State} (h : s.running = false) (i : Nat) : (s.copyVs i).evalTriggers 2 i = s.copyVs i :=
  State.evalTriggers_idle ((s.copyVs_recs i).running.trans h) 2 i

theorem State.length_modVs (s : State) (i : Nat) (f : VsEntry → VsEntry) : (s.modVs i f).io.vs.length = s.io.vs.length :=
  List.length_mapIdx

theorem State.modVs_recs (s : State) (i : Nat) (f : VsEntry → VsEntry) : SameRecs s (s.modVs i f) :=
  ⟨.of_regs (s := s) rfl rfl, rfl, rfl, rfl⟩

theorem State.modVs_other (s : State) {i j : Nat} (f : VsEntry → VsEntry) (h : j ≠ i) (d : VsEntry) :
    (s.modVs i f).io.vs.getD j d = s.io.vs.getD j d := by
  simp [State.modVs, State.modIo, List.getD_eq_getElem?_getD, h]

theorem State.modVs_entry (s : State) {i : Nat} (f : VsEntry → VsEntry) (h : i < s.io.vs.length) (d : VsEntry) :
    (s.modVs i f).io.vs.getD i d = f (s.io.vs.getD i d) := by
  simp [State.modVs, State.modIo, List.getD_eq_getElem?_getD, h]

theorem canErr_ne_stage (can : Nat) : Reg.CAN_ERR can ≠ Reg.SYS_KIN_STATUS := by
  unfold Reg.CAN_ERR Reg.SYS_KIN_STATUS
  omega

/-- Outside READY, a record that takes a frame changes its own entry alone. -/
theorem State.takeVs_other {s : State} (h : s.running = false) (can i : Nat) (data : List Byte) :
    SameRecs s (s.takeVs can i data) ∧ (s.takeVs can i data).io.vs.length = s.io.vs.length ∧
      ∀ j, j ≠ i → (s.takeVs can i data).io.vs.getD j VsEntry.fresh = s.io.vs.getD j VsEntry.fresh := by
  unfold State.takeVs
  extract_lets r e chk
  split
  · exact ⟨.refl s, rfl, fun _ _ => rfl⟩
  clear_value chk
  cases chk with
  | none =>
    have event : SameRecs s (s.event (Reg.CAN_ERR can) F.CAN_ERR.E2E_FAIL) :=
      ⟨.setFld rfl _ _ (canErr_ne_stage can), rfl, rfl, rfl⟩
    exact ⟨event.trans (State.modVs_recs _ _ _), State.length_modVs _ _ _, fun j hj => State.modVs_other _ _ hj _⟩
  | some alive =>
    dsimp only
    rw [State.copied_idle (s := s.modVs i _) h]
    exact ⟨(s.modVs_recs i _).trans (State.copyVs_recs _ i), by rw [State.copyVs_io]; exact State.length_modVs _ _ _,
      fun j hj => by rw [State.copyVs_io]; exact State.modVs_other _ _ hj _⟩

/-- An entry has taken a record's value, now. -/
def Taken (r t : State) (i : Nat) (data : List Byte) : Prop :=
  (t.io.vs.getD i VsEntry.fresh).value = (r.vsRec i).value data ∧ (t.io.vs.getD i VsEntry.fresh).stale = false ∧
    (t.io.vs.getD i VsEntry.fresh).ts = r.now

theorem State.takeVs_taken {s : State} (h : s.running = false) (can : Nat) {i : Nat} {data : List Byte} (hi : i < s.io.vs.length)
    (hd : (s.vsRec i).byte + (s.vsRec i).span ≤ data.length) (he : (s.vsRec i).flags / 8 % 2 = 0) :
    Taken s (s.takeVs can i data) i data := by
  unfold State.takeVs
  extract_lets r e chk
  have unchecked : chk = some e.alive := if_neg (by simp [r, he])
  rw [if_neg (by simpa using hd), unchecked]
  dsimp only
  rw [State.copied_idle (s := s.modVs i _) h, Taken, State.copyVs_io, State.modVs_entry s _ hi]
  exact ⟨rfl, rfl, rfl⟩

/-- CAN_FRAME_RX at one record. -/
def State.rxStep (can : Nat) (id : Word) (ext : Bool) (data : List Byte) (s : State) (i : Nat) : State :=
  if (s.vsRec i).can = can ∧ (s.vsRec i).id = id.toNat ∧ decide ((s.vsRec i).flags % 2 = 1) = ext then s.takeVs can i data
  else s

theorem exec_canFrameRx_of_on {s : State} {can : Fin 2} (id : Word) (ext : Bool) (data : List Byte) (h : s.canOn can.val = true) :
    exec (.canFrameRx can id ext data) s = .next ((List.range s.vsCount).foldl (State.rxStep can.val id ext data) s) := by
  change execCanFrameRx can id ext data s = _
  unfold execCanFrameRx State.rxStep
  simp [h, Bool.and_eq_true, and_assoc, beq_eq_decide]

/-- A frame received outside READY: every record it matches takes it, once it has been read. -/
theorem State.foldl_rxStep_taken {r s : State} {can : Nat} {id : Word} {ext : Bool} {data : List Byte} {i : Nat} {l : List Nat}
    (hr : r.running = false) (hi : i < r.io.vs.length) (hm : (r.vsRec i).can = can ∧ (r.vsRec i).id = id.toNat ∧
      decide ((r.vsRec i).flags % 2 = 1) = ext) (hd : (r.vsRec i).byte + (r.vsRec i).span ≤ data.length)
    (he : (r.vsRec i).flags / 8 % 2 = 0) (hs : SameRecs r s) (hl : s.io.vs.length = r.io.vs.length)
    (h : i ∈ l ∨ Taken r s i data) : Taken r (l.foldl (State.rxStep can id ext data) s) i data := by
  induction l generalizing s with
  | nil => exact h.resolve_left List.not_mem_nil
  | cons j l ih =>
    have idle : s.running = false := hs.running.trans hr
    obtain ⟨recs, length, other⟩ := State.takeVs_other idle can j data
    rw [List.foldl_cons, State.rxStep]
    by_cases hj : j = i
    · subst hj
      rw [if_pos (by rw [hs.vsRec]; exact hm)]
      have taken := State.takeVs_taken idle can (hl ▸ hi) (by rw [hs.vsRec]; exact hd) (by rw [hs.vsRec]; exact he)
      rw [Taken, hs.vsRec, hs.now] at taken
      exact ih (hs.trans recs) (length.trans hl) (.inr taken)
    · have h' : i ∈ l ∨ Taken r s i data := h.imp_left fun hmem => (List.mem_cons.mp hmem).resolve_left (Ne.symm hj)
      split
      · exact ih (hs.trans recs) (length.trans hl) (h'.imp_right fun taken => by rwa [Taken, other i (Ne.symm hj)])
      · exact ih hs hl h'

/-! ### Stale entries -/

/-- An entry goes stale TIMEOUT_MS after its last acceptance, with the event of its controller. -/
def State.staled (s : State) (i : Nat) : State :=
  ((s.reach ((s.io.vs.getD i VsEntry.fresh).acceptedAt + (s.vsRec i).timeoutMs * 1000000)).modVs i
    (fun e => { e with stale := true })).event (Reg.CAN_ERR (s.vsRec i).can) F.CAN_ERR.STALE

theorem exec_vsStaleTimeout_of_due {s : State} {entry : Fin 32} (hs : (s.io.vs.getD entry.val VsEntry.fresh).stale = false)
    (hv : entry.val < s.vsCount) :
    exec (.vsStaleTimeout entry) s = .next (((s.staled entry.val).copyVs entry.val).evalTriggers 2 entry.val) := by
  change execVsStaleTimeout entry s = _
  unfold execVsStaleTimeout
  extract_lets i e r u
  exact if_neg (by rw [hs]; simpa using hv)

theorem State.running_staled (s : State) (i : Nat) : (s.staled i).running = s.running := by
  unfold State.running
  rw [State.staled, State.event, State.fld_setFld_other _ _ _ _ _ _ (canErr_ne_stage _)]
  rfl

theorem State.staled_entry {s : State} {i : Nat} (h : i < s.io.vs.length) : (s.staled i).io.vs.getD i VsEntry.fresh =
    { s.io.vs.getD i VsEntry.fresh with stale := true } := State.modVs_entry _ _ h _

/-! ### The controllers -/

/-- A controller's status shows the error-active state with cleared counts. -/
def State.errorActive (s : State) (a : Nat) : State :=
  ((s.setFld a F.CAN_STATUS.STATE 0).setFld a F.CAN_STATUS.TEC 0).setFld a F.CAN_STATUS.REC 0

theorem State.errorActive_shown {s : State} (h : regsWf s.regs = true) (a : Nat) :
    (s.errorActive a).fld a F.CAN_STATUS.STATE = 0 ∧ (s.errorActive a).fld a F.CAN_STATUS.TEC = 0 ∧
      (s.errorActive a).fld a F.CAN_STATUS.REC = 0 := by
  have h1 := State.setFld_regsWf s a F.CAN_STATUS.STATE 0 h
  have h2 := State.setFld_regsWf _ a F.CAN_STATUS.TEC 0 h1
  exact ⟨(State.fld_setFld_field _ a F.CAN_STATUS.REC F.CAN_STATUS.STATE 0 h2 rfl rfl).trans
      ((State.fld_setFld_field _ a F.CAN_STATUS.TEC F.CAN_STATUS.STATE 0 h1 rfl rfl).trans
      (State.fld_setFld_same s a F.CAN_STATUS.STATE 0 h rfl)),
    (State.fld_setFld_field _ a F.CAN_STATUS.REC F.CAN_STATUS.TEC 0 h2 rfl rfl).trans
      (State.fld_setFld_same _ a F.CAN_STATUS.TEC 0 h1 rfl), State.fld_setFld_same _ a F.CAN_STATUS.REC 0 h2 rfl⟩

theorem State.reg_errorActive (s : State) {a c : Nat} (h : a ≠ c) : (s.errorActive a).reg c = s.reg c :=
  (State.reg_setFld_other _ _ _ _ _ h).trans ((State.reg_setFld_other _ _ _ _ _ h).trans (State.reg_setFld_other _ _ _ _ _ h))

theorem exec_canBusOffRecovery_of_on {s : State} {can : Fin 2} (h : s.fld (Reg.CAN_STATUS can.val) F.CAN_STATUS.STATE ≠ 3) :
    exec (.canBusOffRecovery can) s =
      .next ((s.event (Reg.CAN_ERR can.val) F.CAN_ERR.BUS_OFF).errorActive (Reg.CAN_STATUS can.val)) := by
  change execCanBusOffRecovery can s = _
  unfold execCanBusOffRecovery
  extract_lets a u
  exact if_neg (by simpa [a] using h)

theorem exec_canFrameTx_of_winner {s : State} {can : Fin 2} {x : CanTx} (hw : winner (s.io.can.getD can.val []) = some x)
    (ho : s.canOn can.val = true) (he : s.ofEnabled = true) : exec (.canFrameTx can) s = .next (s.modIo (fun io => { io with
      can := io.can.mapIdx (fun i q => if i == can.val then q.erase x else q)
      wireCan := io.wireCan.set can.val (some x) })) := by
  change execCanFrameTx can s = _
  unfold execCanFrameTx
  extract_lets c
  rw [hw]
  exact if_neg (by simp [c, ho, he])

/-- Settles O13: each record's entry by `State.foldl_rxStep_taken`, the rest from the commands' own equations. -/
theorem canAndVehicleState : Obligations.CanAndVehicleState := by
  unfold Obligations.CanAndVehicleState
  refine ⟨?_, ?_, ?_, ?_, ?_⟩
  case refine_1 =>
    intro s can id ext data hon
    rw [exec_canFrameRx_of_on id ext data hon]
    exact completes_next ⟨rfl, fun hr hl i hi h32 hc hid hext hd he =>
      State.foldl_rxStep_taken hr (hl ▸ h32) ⟨hc, hid, hext⟩ hd he (.refl s) rfl (.inl (List.mem_range.mpr hi))⟩
  case refine_2 =>
    intro s entry hs hv hl
    rw [exec_vsStaleTimeout_of_due hs hv]
    have copied := (s.staled entry.val).copyVs_recs entry.val
    have now := (State.evalTriggers_same (m0 := 33028105) (kind := 2) (source := entry.val)
      (.refl ((s.staled entry.val).copyVs entry.val)) rfl).now rfl
    refine completes_next ⟨now.trans copied.now, fun hr => ?_, rfl⟩
    rw [State.copied_idle ((s.running_staled entry.val).trans hr), State.copyVs_io, State.staled_entry (by omega)]
    exact ⟨rfl, rfl⟩
  case refine_3 =>
    intro s can hc
    have wf := State.canonical_regs hc
    have apart : Reg.CAN_VS_VALUE can.val ≠ Reg.CAN_VS_STATE can.val := by
      unfold Reg.CAN_VS_VALUE Reg.CAN_VS_STATE
      omega
    change completes (execCanVsStateRead can s) _
    refine completes_next ⟨?_, State.reg_setReg_same _ _ _ (State.setReg_regsWf s _ _ wf), fun a ha => ?_, rfl⟩
    · rw [State.reg_setReg_other _ _ apart, State.reg_setReg_same s _ _ wf]
    · rw [List.mem_cons, List.mem_singleton, not_or] at ha
      rw [State.reg_setReg_other _ _ (Ne.symm ha.2), State.reg_setReg_other _ _ (Ne.symm ha.1)]
  case refine_4 =>
    intro s can x hw ho he hl
    rw [exec_canFrameTx_of_winner hw ho he]
    refine completes_next ⟨?_, ?_, fun _ _ => State.reg_congr rfl _, rfl⟩
    · simp [State.modIo, List.getD_eq_getElem?_getD, hl, can.isLt]
    · cases hq : s.io.can[can.val]? <;> simp [State.modIo, List.getD_eq_getElem?_getD, hq]
  case refine_5 =>
    intro s can hc h3
    rw [exec_canBusOffRecovery_of_on h3]
    have apart : Reg.CAN_ERR can.val ≠ Reg.CAN_STATUS can.val := by
      unfold Reg.CAN_ERR Reg.CAN_STATUS
      have := can.isLt
      omega
    have wf := State.canonical_regs hc
    have wf1 : regsWf (s.event (Reg.CAN_ERR can.val) F.CAN_ERR.BUS_OFF).regs = true := State.setFld_regsWf s _ _ _ wf
    obtain ⟨state, tec, rec⟩ := State.errorActive_shown wf1 (Reg.CAN_STATUS can.val)
    refine completes_next ⟨state, tec, rec, (State.flag_eq_of_reg (State.reg_errorActive _ (Ne.symm apart)) _).trans
      (State.flag_event_same s _ 0 wf (by decide)), fun a ha => ?_, rfl⟩
    rw [List.mem_cons, List.mem_singleton, not_or] at ha
    rw [State.reg_errorActive _ (Ne.symm ha.1), State.event, State.reg_setFld_other _ _ _ _ _ (Ne.symm ha.2)]

end Sys2Proof.Machine
end

section
/-! SUPPORT. Drains that a partner announces (R460): a flag memory that lists an index twice, of which a drain writes one entry. -/

namespace Sys2Proof.Machine

open Sys2Proof

namespace TwiceListed

/-- Ring 0 of layer 0, of one slot and one consumer, with its flag at index 0. -/
def ring : RingSt where
  rc := ⟨0, 1, 0, 0, 64, 8, 8, 8, 0, 1, 0⟩
  layer := 0
  idx := 0
  producer := .nobody
  perFrame := 1
  frameH := 8
  stream := 0
  kOf := []
  kNext := 0
  assign := []
  skipped := []
  arrived := []
  drained := []
  remote := none

/-- A node on partner 0 that reads ring 0. -/
def reader : NodeSt where
  rc := ⟨0, 0, 0, [0], [], none, 0, 0, 0, 0, 1, 1, 0, 0, 0, false, false, 0, [0]⟩
  layer := 0
  domain := 2
  stepAddr := 0
  steps := 0
  preferred := none
  retired := none
  baseSeq := none
  refStream := none
  refPeriodic := none
  finished := []
  startBase := none
  startNext := 0
  starts := []
  watchFrom := none
  peer := some 0

/-- A FULL slot that one consumer has still to drain. -/
def full : SlotFlag := ⟨slotFull, false, false, false, 0, 1, 0, 0⟩

/-- Partner 0 announces a drain of flag 0 on link 0, and the flag memory lists flag 0 twice. -/
def state : State :=
  { State.reset with
    fgs := { State.reset.fgs with rings := [ring], nodes := [reader] }
    flags := [(0, full.toWord), (0, full.toWord)]
    gml := { State.reset.gml with links := [{ LinkSt.idle with rx := [.drain 0 0 0] }, LinkSt.idle, LinkSt.idle] } }

/-- The state once the drain is performed. -/
def drained : State := (state.modLink 0 (fun l => { l with rx := l.rx.erase (.drain 0 0 0) })).drainFor 0 0

theorem exec_drain : exec (.drain 0) state = .next drained := rfl

/-- The drained slot's word is zero, which removes one entry and uncovers the other. -/
theorem drained_flag : drained.flagWord 0 = full.toWord := by decide

end TwiceListed

/-- Refutes O46: the clause on drains does not say that the flag memory lists an index once. Where flag 0 is listed twice, each time
FULL with one consumer left, the drain makes the word zero, which removes one entry of the two; the flag still reads FULL
(`TwiceListed.drained_flag`). -/
theorem not_remoteTraffic : ¬ Obligations.RemoteTraffic := by
  unfold Obligations.RemoteTraffic
  intro ⟨_, _, _, _, _, _, _, _, drain, _⟩
  obtain ⟨t, ht, _, word, _⟩ := drain TwiceListed.state 0 _ 0 0 0 TwiceListed.ring (TwiceListed.reader, 0) rfl rfl (by decide)
    (by decide) (by decide) (by decide)
  obtain rfl : TwiceListed.drained = t := Host.Outcome.next.inj (TwiceListed.exec_drain.symm.trans ht)
  rw [TwiceListed.drained_flag] at word
  exact absurd word (by decide)

end Sys2Proof.Machine
end

section
/-! SUPPORT. Links that go down (R430, R431, R452): a failed retrain is a recurrence of the link's unit, and the recurrence that
fences the unit shows the link as fenced, not as down. -/

namespace Sys2Proof.Machine

open Sys2Proof

theorem exec_gmlRetrainDone_of_down {s : State} {link : Fin 3} {lanes : BitVec 8} (h : s.linkState link.val = 3)
    (hl : lanesHalf (s.fld (Reg.GML_STATUS link.val) F.GML_STATUS.HALF) lanes.toNat = none) :
    exec (.gmlRetrainDone link lanes) s = .next (s.linkDown link.val) := by
  change execGmlRetrainDone link lanes s = _
  unfold execGmlRetrainDone
  extract_lets k a half
  rw [if_neg (by simp [k, h]), hl]

namespace ThirdFailure

/-- An image of one section, ADAPTATION, which fences a unit at its third recurrence within 10 s. -/
def flash : Flash :=
  [(0x101C, [1, 0, 0, 0, 0, 1, 0, 0]),
    (0x1100, [11, 0, 0, 0, 0, 0, 0, 0, 0, 5, 0, 0, 96, 0, 0, 0]),
    (0x1500, [1, 0, 1, 0, 3, 0, 10, 0, 10, 0])].foldl
    (fun f w => f.program 0 w.1 w.2) { State.reset.flash with present0 := true }

/-- Link 0 retrains, and its unit has recurred twice. -/
def state : State :=
  { State.reset with
    kin := { State.reset.kin with booted := some 0 }
    flash := flash
    units := [⟨linkUnit 0, false, false, none, 0, 0, [0, 0], none, 0, none, []⟩]
    regs := [(Reg.GML_STATUS 0, 3)] }

theorem state_canonical : state.canonical = true := by decide +kernel

theorem state_retrains : state.linkState 0 = 3 := by decide

theorem state_links : state.gml.links.length = 3 := by decide

/-- No lane is healthy after the retrain. -/
theorem state_lanes : lanesHalf (state.fld (Reg.GML_STATUS 0) F.GML_STATUS.HALF) (0 : BitVec 8).toNat = none := by decide

theorem exec_retrainDone : exec (.gmlRetrainDone 0 0) state = .next (state.linkDown 0) :=
  exec_gmlRetrainDone_of_down state_retrains state_lanes

/-- The link goes down; that is its third recurrence, and the fence shows STATE 5. -/
theorem linkDown_fenced : (state.linkDown 0).linkState 0 = 5 := by decide +kernel

end ThirdFailure

/-- Refutes O44: the clause on a retrain that leaves too few lanes has the link in STATE 4 whatever its unit has been charged with.
Where link 0 has recurred twice and the image fences a unit at its third recurrence, such a retrain fences the link's unit, and the link
shows STATE 5 (`ThirdFailure.linkDown_fenced`). -/
theorem not_links : ¬ Obligations.Links := by
  unfold Obligations.Links
  intro ⟨_, _, _, _, _, _, _, _, _, _, _, _, _, _, _, _, down, _⟩
  obtain ⟨t, ht, shown, _⟩ := down ThirdFailure.state 0 0 ThirdFailure.state_canonical ThirdFailure.state_links
    ThirdFailure.state_retrains ThirdFailure.state_lanes
  have next : ThirdFailure.state.linkDown 0 = t := Host.Outcome.next.inj (ThirdFailure.exec_retrainDone.symm.trans ht)
  have fenced : t.linkState 0 = 5 := next ▸ ThirdFailure.linkDown_fenced
  exact absurd (fenced.symm.trans shown) (by decide)

end Sys2Proof.Machine
end
